-- ==== Sys2Proof/Word.lean ====
section
/-! DEFINITION. The word types of the SH16 (00_scope.md: registers are 32 bits wide and little-endian; bit 0 is the least significant). -/

namespace Sys2Proof

/-- One byte. -/
abbrev Byte := BitVec 8

/-- One 32-bit register word (R6). -/
abbrev Word := BitVec 32

/-- The key of a register in the register file: page × 4096 + offset, which is the BAR0 byte offset (R35). -/
abbrev RegAddr := Nat

/-- The register at `off` of page `page` (R35). -/
def regAddr (page off : Nat) : RegAddr := page * 4096 + off

/-- Bits [lsb + width − 1 : lsb] of a number. -/
def bits (x lsb width : Nat) : Nat := x / 2 ^ lsb % 2 ^ width

/-- Bit `n` of a number. -/
def bitOf (x n : Nat) : Bool := x / 2 ^ n % 2 == 1

/-- The number of a Bool, as a register bit shows it. -/
def b2n (b : Bool) : Nat := if b then 1 else 0

/-- The two's-complement value of the low `width` bits of `x`. -/
def signed (x width : Nat) : Int :=
  let y := x % 2 ^ width
  if y < 2 ^ (width - 1) then (y : Int) else (y : Int) - (2 ^ width : Nat)

/-- The low `width` bits of an integer, as a number. -/
def unsigned (x : Int) (width : Nat) : Nat := (x % (2 ^ width : Nat)).toNat

end Sys2Proof
end

