-- ==== Sys2Proof/Syntax.lean ====
section
/-! DEFINITION. The commands of the SH16 as a block: one constructor of `Instr` per row of spec/opcode_table.json, and the operand types they carry.
An operand is what comes from outside the block with the command: the master and value of a register access, the samples on the sensor lanes,
the frame on a network port, a measured analogue quantity, a completion from a drive. What the block itself holds is in State and is no operand. -/

namespace Sys2Proof

/-- The banks of the Kiosk and of the flow-table window: master 0x000 has one, all other masters share the second (R47, R71). -/
inductive Bank where
  | lodge | shared
deriving DecidableEq, Repr

/-- A read, or a write with its word, of a data port register. -/
inductive Access where
  | read
  | write (value : Word)
deriving DecidableEq, Repr

/-- The 40 clock domains of R17. -/
inductive ClockDomain where
  | sensorGroup (g : Fin 4) | sdi (n : Fin 4) | ethernet (n : Fin 2) | pcieEndpoint | rootPort (p : Fin 8)
  | memGroup (g : Fin 4) | dsi (n : Fin 2) | bandstand (p : Fin 4) | falilan (p : Fin 4)
  | lodge | sundial | dovecote | sensorControl | cascade | jtag | alwaysOn
deriving DecidableEq, Repr

/-- What the error correction of the DRAM devices makes of a beat (R291 to R293): an input, since the cells are outside the block. -/
inductive EccEvent where
  | none | linkCorrected | linkReissued | inlineCorrected | uncorrectable
deriving DecidableEq, Repr

/-- The target of a transaction (R20, R21, R35). -/
inductive TxnTarget where
  | reg (page off : Nat)
  | dram (addr : Nat)
deriving DecidableEq, Repr

/-- A transaction (R21): 1 to 8 beats of 32 bytes, or one register word; `flow` is the guaranteed flow that meters it (R75), none for best-effort
work; `viaPcie` marks a host request, which always completes with Successful Completion status (R52, R369); `ecc` says what each beat meets in the devices, none where
it says nothing; `narrow` marks a register access narrower than 32 bits (R6). -/
structure Txn where
  master : Nat
  unit : Nat
  isWrite : Bool
  target : TxnTarget
  beats : Nat
  data : List Byte
  flow : Option (Fin 128)
  viaPcie : Bool
  ecc : List EccEvent
  narrow : Bool := false
deriving DecidableEq, Repr

/-- What the round samples from outside: the replica-line speed (R62), the level of FLK_MGR_ALIVE (R332), the deviations in ppm of the selected
Dovecote reference from bandgap B and from the two others (R308; none when the spare slice was borrowed), and the refresh interval in picoseconds that MR4
demands for each memory group (R290); for the manager, how many workers that are no neighbours of it entered REJOINING in the round (R335; how the manager learns it
the spec does not say: DESIGN CHOICE, assumption 183). -/
structure RoundSample where
  speedIndex : Nat
  mgrAlive : Bool
  refDev : Option (Int × Int × Int)
  trefi : List Nat
  rejoins : Nat := 0
deriving DecidableEq, Repr

/-- The three update-group configuration registers of R45. -/
inductive UpdReg where
  | mode | timeLo | timeHi
deriving DecidableEq, Repr

/-- The two registers of R377. -/
inductive BeReg where
  | slots | patience
deriving DecidableEq, Repr

/-- The arbiters with a patience limit (R79). -/
inductive Arbiter where
  | trellis | dramWriteDrain | refresh | nvmeClass | dovecoteCal
deriving DecidableEq, Repr

/-- What training found on one lane (R84): the width in taps of the widest eye, its centre tap, and the word at which the marker was seen. -/
structure LaneFound where
  eyeTaps : Nat
  centre : Nat
  marker : Option Int
deriving DecidableEq, Repr

/-- The tables raw conditioning reads from DRAM (R105 to R109). -/
inductive RcnTable where
  | dark | defect | column | flat
deriving DecidableEq, Repr

/-- A member's completion (R199): success, or an error status with its DNR bit. -/
inductive NvmeStatus where
  | ok
  | error (dnr : Bool)
deriving DecidableEq, Repr

/-- How a member's initialisation ends (R197): every step has ended, or the time is over. -/
inductive InitResult where
  | ended
  | timeout
deriving DecidableEq, Repr

/-- A submission-queue entry as the controller reads it from host memory (R219, R221): the command dwords the SH16 uses. -/
structure NvmeCmd where
  opcode : Nat
  cid : Nat
  nsid : Nat
  prp1 : Nat
  cdw10 : Nat
  cdw11 : Nat
  cdw12 : Nat
  /-- the data that the command reads from host memory: a Write's blocks, the ranges of Dataset Management, the APST table -/
  data : List Byte
deriving DecidableEq, Repr

/-- The outcome the data path meets for one host command (R219, R224): every member command has ended, or a DRAM or Trellis error response came. -/
inductive DataOutcome where
  | ok
  | bus (unit : Nat)
deriving DecidableEq, Repr

/-- What a ST 352 payload ID says (R233, R236, R238): the mapping as a LINK code of R229, the rate code, the sampling and depth, the colorimetry, the transfer
characteristic (none: unspecified) and the range. -/
structure PayloadId where
  link : Nat
  rate : Nat
  sampling : Nat
  depth12 : Bool
  colorimetry : Nat
  tf : Option Nat
  range : Nat
deriving DecidableEq, Repr

/-- A received SDI frame (R236 to R239): how many ns ago it arrived, the measured timing, the payload ID, the rows of active samples, and the line CRC
mismatches. -/
structure SdiFrame where
  age : Nat
  raster : Nat
  rate : Nat
  link : Nat
  words : Nat
  linesPerFrame : Nat
  /-- none where the payload ID is absent -/
  pid : Option PayloadId
  /-- the four bytes of the payload ID, byte 1 lowest -/
  pidBytes : Nat
  /-- rows of active samples in the order of R170 -/
  rows : List (List Nat)
  crcErrors : Nat
  /-- how late each link of a quad is, in words -/
  skew : List Nat
  /-- de-embedded audio, as (how many ns ago it arrived, samples by channel) (R281) -/
  audio : List (Nat × List Nat)
deriving DecidableEq, Repr

/-- A frame at an Ethernet port: its bytes from the destination MAC address up to the FCS, whether the FCS is right, and how many 2^−16 ns ago it crossed the
PCS (R265);
`egressDelay` is how many 2^−16 ns from now it leaves where it is forwarded (R266). -/
structure EthFrame where
  bytes : List Byte
  fcsOk : Bool
  age : Nat
  egressDelay : Nat
deriving DecidableEq, Repr

/-- The samples that one sample row data header of a video packet places: `samples` begin at sample `first` of row `row`, in the order of R170 (R272). -/
structure SampleRow where
  row : Nat
  first : Nat
  samples : List Nat
deriving DecidableEq, Repr

/-- What an RTP packet carries: sample rows; audio samples, interleaved, of so many channels; or ancillary bytes (R271, R272). -/
inductive RtpBody where
  | video (rows : List SampleRow)
  | audio (channels : Nat) (samples : List Nat)
  | anc (payload : List Byte)
deriving DecidableEq, Repr

/-- A received RTP packet of an ST 2110 stream (R272): `seq` is the sequence number at its compared width, `age` is how many 2^−16 ns ago it arrived (PCS stamp),
and `src`, `dst` and `udp` are its IPv4 source, IPv4 destination and UDP destination port. -/
structure RtpPacket where
  seq : Nat
  timestamp : Nat
  marker : Bool
  age : Nat
  src : Nat
  dst : Nat
  udp : Nat
  body : RtpBody
deriving DecidableEq, Repr

/-- A heartbeat (R331). -/
structure Heartbeat where
  seq : Nat
  sender : Nat
  state : Nat
  epoch : Nat
deriving DecidableEq, Repr

/-- What a measurement event of a reference yields (R253): a PHASE reference's edge, so many 2^−16 ns ago, or a TIME reference's time less local time in
2^−16 ns before REF_OFFSET, with the mean path delay in ns. -/
inductive Measurement where
  | edge (age : Nat)
  | offset (e : Int) (pathDelay : Nat)
deriving DecidableEq, Repr

/-- One byte lane's DRAM training result (R294). -/
structure DramLane where
  eyeTaps : Nat
  rdDly : Nat
  wrDly : Nat
  rdVref : Nat
  wrVref : Nat
deriving DecidableEq, Repr

/-- The outcome of a DRAM or data access made on behalf of a block: complete, or the error response with the unit ID it carries (R22). -/
abbrev BusResult := Option Nat

/-- 32-byte beats of DRAM, by number, whose reads end in an error response that the devices cause, each with the unit ID it carries (R22, R293). -/
abbrev BadBeats := List (Nat × Nat)

/-- A power-good input (R337). -/
inductive PgInput where
  | io | core | hs | vddq
deriving DecidableEq, Repr

/-- What the boot ROM finds at the SPI NOR and the always-on oscillator beside the copies: the bytes of the SFDP area from address 0, and the trim measured (R339,
R344). -/
structure BootRead where
  sfdp : List Byte
  trim : BitVec 16
deriving DecidableEq, Repr

/-- What a message of the cascade bus about a boot image is: a block to be forwarded downstream, a block for this device, or a downstream device's request for an
image (R330). -/
inductive ImageMessage where
  | forward | forUs | request
deriving DecidableEq, Repr

/-- A wake source (R351). -/
inductive WakeSource where
  | pin | timer
deriving DecidableEq, Repr

/-- A remote register access (R322): from whom, to which device, and what it does. -/
structure RemoteAccess where
  origin : Nat
  target : Nat
  /-- remote master number k of the originating device -/
  k : Nat
  isWrite : Bool
  page : Nat
  off : Nat
  value : Word
deriving DecidableEq, Repr

/-- The target device's answer to a remote access (R323): its data word, or the failing unit there and its fault code. -/
inductive RemoteAnswer where
  | value (w : Word)
  | failed (unit code : Nat)
deriving DecidableEq, Repr

/-- A page and the master that accesses it. -/
structure MasterPage where
  master : Nat
  page : Nat
deriving DecidableEq, Repr

/-- How a view's DRAM accesses for a frame ended: the reads of its source, and the write of its descriptor. -/
structure FrameAccesses where
  reads : BadBeats
  write : BusResult
deriving DecidableEq, Repr

/-- A work item that an engine completes, and the beats whose reads ended in an error response. -/
structure ItemEnd where
  engine : Fin 6
  reads : BadBeats
deriving DecidableEq, Repr

/-- What the scans of OPEN found on the medium: the 4 KiB of every journal slot, and what it holds from where the forward scan begins (R207). -/
structure JournalScan where
  slots : List (List Byte)
  data : List Byte
deriving DecidableEq, Repr

/-- A loss of signal at an SDI input, and what had arrived of the frame in progress (R239). -/
structure SdiLoss where
  input : Fin 4
  part : Option SdiFrame
deriving DecidableEq, Repr

/-- The commands of the SH16: one constructor per row of the opcode table. -/
inductive Instr where
  -- registers, update groups, Kiosk, Gatehouse, faults
  | registerWrite (master page off : Nat) (value : Word)
  | narrowWrite (p : MasterPage) (off : Nat)
  | transaction (t : Txn)
  | managementRound (r : RoundSample)
  | domainClockStop (d : ClockDomain)
  | domainClockReturn (d : ClockDomain)
  | updGroupBind (page : Nat) (group : Fin 16)
  | updConfigWrite (group : Fin 16) (reg : UpdReg) (value : Word)
  | updArm (mask : BitVec 16)
  | updCancel (mask : BitVec 16)
  | groupApply
  | kioskSelect (bank : Bank) (page selector : Nat)
  | kioskSnapshotDone (bank : Bank) (page : Nat)
  | gthLock (value : Word)
  | refRestart
  | cntRestart (page : Nat) (mask : Word)
  | faultReport
  | retire
  | retireAll
  | restartOverflow
  -- admission and operating points
  | admitFlow (bank : Bank)
  | release (bank : Bank)
  | opReq (op : Fin 4)
  | vsettleExpiry
  | pwrBudgetWrite (value : Word)
  | beAllowanceWrite (reg : BeReg) (value : Word)
  | patienceExpiry (arbiter : Arbiter) (party : Nat)
  | pauseQuantumExpiry (party : Nat) (granted : Bool)
  -- sensor front end
  | trainingStart (groups : BitVec 4)
  | trainingDone (g : Fin 4) (lanes : List LaneFound)
  | tapTrack (g : Fin 4) (lane : Nat) (toward : Int) (eyeTaps : Nat)
  | syncCode (g : Fin 4) (arrived : List Nat) (words : List (List Nat))
  | sensorFrameStart (g : Fin 4) (arrived : List Nat)
  | sensorLineStart (g : Fin 4) (arrived : List Nat)
  | sensorLineEnd (g : Fin 4) (arrived : List Nat)
  | sensorFrameEnd (g : Fin 4) (arrived : List Nat)
  | inputOverflow (g : Fin 4) (sample : Nat)
  | lineForward (stream : Fin 4)
  | joinSkewExpiry (g : Fin 4)
  | windowClose (g : Fin 4)
  | closeTimeout (g : Fin 4)
  | sensorClockLoss (g : Fin 4)
  | vTrigger (g : Fin 4)
  | hTrigger (g : Fin 4)
  | spiGo (c : Fin 4) (cmd : Word)
  | spiDone (c : Fin 4) (rx : List Byte)
  | spiData (c : Fin 4) (a : Access)
  | i2cGo (c : Fin 4) (cmd : Word)
  | i2cDone (c : Fin 4) (nack : Bool) (rx : List Byte)
  | i2cData (c : Fin 4) (a : Access)
  | i2cStretchTimeout (c : Fin 4)
  -- raw conditioning
  | conditionLine (ctx : Fin 4)
  | tableReadError (ctx : Fin 4) (table : RcnTable) (row : Nat) (unit : Nat)
  | intStart
  | intStop
  | intAverage
  | averageDone
  | intFrame
  -- Ebosh Raw
  | ebeFrameStart (ctx : Fin 4)
  | ebeFrameEnd (ctx : Fin 4)
  | tileWriteError (ctx : Fin 4) (unit : Nat)
  | recStart (ctx : Fin 4) (atCount : Bool)
  | recStop (ctx : Fin 4) (atCount : Bool)
  | playStart
  | playStop
  | decodeFrame (reads : BadBeats)
  -- Orangery and tables
  | orgFrameEnd (c : Fin 2)
  | tblSelWrite (value : Word)
  | tblDataAccess (a : Access)
  | loadCmd
  | loadDone (words : Nat) (read : BusResult)
  -- views and Parterre
  | viewPaceSlot (v : Fin 8)
  | viewFrameStart (v : Fin 8)
  | viewFrameComplete (v : Fin 8) (a : FrameAccesses)
  | patStart
  | patStop
  | patFrameStart
  -- Glasshouse
  | sesStart (s : Fin 32)
  | sesStop (s : Fin 32)
  | forceIdr (s : Fin 32)
  | encodeSlot (s : Fin 32)
  | engineDispatch (e : Fin 6)
  | workItemDone (i : ItemEnd)
  | deadlineMiss (s : Fin 32)
  | poolWaitEnd (s : Fin 32)
  | ringSpace (s : Fin 32)
  | rdPtrWrite (s : Fin 32) (value : Word)
  | wrPtrWrite (s : Fin 32) (value : Word)
  | decodePublish (s : Fin 32)
  | markLong (handle : BitVec 16)
  | markUnused (handle : BitVec 16)
  | releaseOutput (handle : BitVec 16)
  | staleRestart
  -- Boathouse
  | memberEnable (m : Fin 32)
  | memberInitDone (m : Fin 32) (result : InitResult)
  | memberDisable (m : Fin 32)
  | nvmeCompletion (m : Fin 32) (cid : Nat) (status : NvmeStatus)
  | memberCmdTimeout (m : Fin 32)
  | rootPortLinkDown (p : Fin 8)
  | inboundRequest (p : Fin 8) (m : Fin 32) (dramUnit : Nat) (isWrite : Bool) (data : List Byte)
  | volumeEnable (v : Fin 16)
  | labelReadDone (v : Fin 16) (label : List Byte)
  | volumeDisable (v : Fin 16)
  | format (v : Fin 16)
  | formatDone (v : Fin 16)
  | openVolume (v : Fin 16)
  | openScanDone (v : Fin 16) (scan : JournalScan)
  | close (v : Fin 16)
  | chStart (c : Fin 8)
  | chStop (c : Fin 8)
  | chResume (c : Fin 8)
  | chAbandon (c : Fin 8)
  | frameOnMedium (c : Fin 8)
  | takeDrainDone (c : Fin 8)
  | checkpointDue (c : Fin 8)
  | fetchCmd
  | fetchDone (error : Bool) (data : List Byte)
  -- offload controller
  /-- CC.AMS is weighted round robin; sizes and bases of the admin submission and completion queues (AQA, ASQ, ACQ) -/
  | controllerEnable (wrr : Bool) (asqSize acqSize asqBase acqBase : Nat)
  | controllerDisable
  | controllerDisableDone
  | functionLevelReset
  | ccShutdown (shn : Fin 4)
  | shutdownComplete
  | sqDoorbell (q : Nat) (tail : Nat)
  | cqDoorbell (q : Nat) (head : Nat)
  | arbitrationRound (entries : List NvmeCmd)
  | createIoSq (cid : Nat)
  | createIoCq (cid : Nat)
  | deleteIoSq (cid : Nat)
  | deleteIoSqDone (cid : Nat)
  | deleteIoCq (cid : Nat)
  | getLogPage (cid : Nat)
  | identify (cid : Nat)
  | setFeatures (cid : Nat)
  | getFeatures (cid : Nat)
  | resumeQueue (cid : Nat)
  | unsupportedOpcode (sq cid : Nat)
  | nvmRead (sq cid : Nat)
  | nvmWrite (sq cid : Nat)
  | flush (sq cid : Nat)
  | datasetManagement (sq cid : Nat)
  | commandCompletion (sq cid : Nat) (outcome : DataOutcome)
  | apstTransition
  -- video edges
  | sdiOutFrameStart (n : Fin 4) (reads : BadBeats)
  | sdiInFrame (n : Fin 4) (f : SdiFrame)
  | sdiSignalLoss (l : SdiLoss)
  | blvFrameStart (n : Fin 2)
  | blvVfpEnd (n : Fin 2)
  | teEdge (n : Fin 2)
  | layerUnderrun (n : Fin 2) (layer : Fin 3) (pixel : Nat) (read : BusResult)
  | dsiCommand (n : Fin 2) (cmd : Word)
  | dsiCommandDone (n : Fin 2) (err : Bool) (rx : List Byte)
  | cmdData (n : Fin 2) (a : Access)
  -- Sundial and network
  | stepMeasured
  | stepValue
  | setTime
  | stepApply
  | refMeasurement (r : Fin 8) (m : Measurement)
  | freqPeriodEnd
  | refLoss (r : Fin 8)
  | timecodeAdvance
  | tcSet (value : Word)
  | ltcWordOut
  | framePulse (p : Fin 2)
  | ethFrameReceive (port : Fin 2) (f : EthFrame)
  /-- the value of CTL_TX_WR, and how many 2^−16 ns from now each copy leaves -/
  | ctlTxSend (wr : Nat) (egressDelays : List Nat)
  | ethLinkDown (port : Fin 2)
  | macAge (mac : Nat)
  | senderFrameSlot (s : Fin 16)
  /-- the packet leaves now; the time that packets of other senders scheduled earlier take on port 0 and on port 1, in 2^−16 ns -/
  | senderPacket (s : Fin 16) (before0 before1 : Nat)
  | receiverPacket (r : Fin 16) (pathB : Bool) (p : RtpPacket)
  | streamLoss (r : Fin 16)
  -- Bandstand
  /-- `age`: how many ns ago the frame-start edge was; `pins`: the bits of BND_DI at each bit clock since -/
  | audioFrame (p : Fin 4) (age : Nat) (pins : List Bool)
  | bclkLoss (p : Fin 4)
  | nonpcmHoldExpiry (p : Fin 4) (pair : Fin 16)
  -- memory
  | schedulerIssue (g k : Fin 4)
  | refreshInterval (g k : Fin 4)
  | trainCmd
  | trainDone (lanes : List DramLane)
  | recentre (drifts : List Int)
  -- Arbour
  | subIdxWrite (value : Word)
  | arbourJobStart
  | arbourJobDone (bad : BadBeats)
  | seenIdxWrite (value : Word)
  -- Dovecote, Icehouse, PWM
  | slotTimer (s : Nat)
  | pwmEvent (s : Nat)
  | swTrig (value : Word)
  | fixedSlotDue (slot : Fin 8)
  /-- the raw code (R304), and for the second conversion of a fixed slot's pair the power of the pair in mW by the fused scaling (R310) -/
  | conversionDone (slice : Fin 4) (code : BitVec 12) (powerMw : BitVec 20)
  | calDone (mL mH : Int)
  | sliceRotation
  | thermalRestart
  | aonRound
  | resync
  | pwmPeriodEnd (p : Fin 8)
  -- Falilan Link and hierarchy
  | linkTrained (p : Fin 4)
  | flitReceive (p : Fin 4) (crcOk : Bool)
  | flkLinkDown (p : Fin 4)
  | remoteTransaction (a : RemoteAccess) (answer : Option RemoteAnswer)
  | remoteTimeout (a : RemoteAccess)
  /-- in 2^−16 ns: the stamps t1 and t4 that it carries, how long ago it arrived (t2), and when from now its answer leaves (t3) -/
  | timeMessage (p : Fin 4) (t1 age : Nat) (t4 : Option Nat) (delay : Nat)
  | timeReply (p : Fin 4) (age : Nat)
  /-- `busy`: the previous frame is still in transit -/
  | channelSendFrame (p : Fin 4) (c : Fin 8) (busy : Bool)
  | channelFrameReceived (p : Fin 4) (c : Fin 8) (data : List Byte) (desc : List Byte) (cut : Bool)
  | idAssign (n : Nat)
  | idRequest
  | cascadeMessageBad
  | imageBlock (message : ImageMessage) (offset : Nat) (bytes : List Byte) (last : Bool)
  | heartbeatReceive (p : Fin 4) (h : Heartbeat)
  | neighbourLost (p : Fin 4)
  | managerClaim
  | promoted
  | rejoinCmd (master : Nat) (value : Word)
  | epochCmd
  -- power, reset, boot
  | powerOnReset (casRoot : Bool)
  | powerUpStep
  | pgTimeout
  | pgRetry
  | vaonFall (below2V0 : Bool)
  | pinReset (casRoot : Bool)
  | watchdogExpiry
  | wdtKick
  | rstCmd (value : Word)
  | perstN (level : Bool)
  /-- what the NOR delivers of the two 1 MiB regions, and what the ROM reads and measures before them -/
  | bootCopyRead (copyA copyB : List Byte) (found : BootRead)
  | bootListEntry
  | listStopped
  | lodgeRelease
  | rcvData (value : Word)
  | rcvCmd
  | sleepCmd (value : Word)
  | sleepCommit
  | wakeEvent (source : WakeSource)
  /-- `powerGood`: the power-good input that the step needs is present -/
  | wakeStep (powerGood : Bool)
  | warmRelease
  -- edges that end a wait
  | ethBlockLock (port : Fin 2) (fecLock : Bool)
  | rootPortLinkUp (p : Fin 8) (gen : Fin 6)
  | endpointLinkTrained (gen : Fin 6)
  | resetNRelease
  | powerGoodLoss (pg : PgInput)
  | ltcWordIn (label : BitVec 32)
deriving DecidableEq, Repr

end Sys2Proof
end

