-- ==== Sys2Proof/Config.lean ====
section
/-! DEFINITION. What an implementation fixes and what the spec leaves open: constants and functions with no body, so that no proof can see a value of
them. A free value is one of these applied to the machine's free-value counter or to the operands it depends on. DESIGN CHOICE (assumption 8). -/

namespace Sys2Proof

/-- A fresh undefined register word (R6 narrow accesses), applied to the free-value counter. -/
opaque Config.freeWord : Nat → Word

/-- A fresh undefined truth value (R11, R44: comparisons exactly 2^39 ns apart), applied to the free-value counter. -/
opaque Config.freeBool : Nat → Bool

/-- What a block does with a field value that its enumeration does not list (R41): the listed value it behaves as, by register address and value. DEDUCED (assumption 11). -/
opaque Config.unlisted : Nat → Nat → Nat

/-- The VERSION byte of each page's PG_ID (R37), except GLB's. DEDUCED (assumption 14). -/
opaque Config.pgVersion : Nat → BitVec 8

/-- Which 4 KiB unit of a staging region the Boathouse uses for a command (R197, R198 place it in the region and no more). DESIGN CHOICE (assumption 74). -/
opaque Config.stageUnit : Nat → Nat

/-- How many pixel groups, or blocks of 180 bytes in block packing mode, a full packet of a video sender carries less one, up to as many as fit in MAX_PAYLOAD, and
how many bytes an ancillary sender's packets of one frame are on the line with 20 bytes added to each (R270, R271): functions of what decides the packing (kind,
packing mode, MAX_PAYLOAD, FMT, bits per sample, width, height), which the spec does not state. DEDUCED (assumption 111). -/
opaque Config.packGroups : List Nat → Nat
opaque Config.senderBytes : List Nat → Nat

/-- Whether the queue of a class at an egress has no room for one more frame: the class, the lengths of the frames that wait in it, and the length of the new one
(R264). The spec gives no queue a size. DESIGN CHOICE (assumption 177). -/
opaque Config.egressFull : Nat → List Nat → Nat → Bool

/-- The data streams' words of an active line, 10 bits each, from its FMT and its samples (the mappings that R229 names are those of the SDI standards). DESIGN CHOICE
(assumption 141). -/
opaque Config.sdiStreams : Nat → List Nat → List (List Nat)

/-- A segment as the Arbour codes it at a LEVEL from 1 to 3, with the empty stored block that follows it unless it is the last (R299 fixes the format and
that the choice depends on the input and CTL alone): LEVEL, whether it is the last segment, its bytes. DESIGN CHOICE (assumption 116). -/
opaque Config.deflate : Nat → Bool → List Byte → List Byte

/-- What the coding standards read in an access unit, as a number, by what was decoded before it, its bytes and the question. DESIGN CHOICE (assumption 139). -/
opaque Config.bitstreamReads : Nat → List Byte → Nat → Nat

/-- What a decoder has decoded once an access unit follows what it had decoded before: a token of the standards' decoding state. DESIGN CHOICE (assumption 139). -/
opaque Config.bitstreamAfter : Nat → List Byte → Nat

/-- The payload of a parameter set as the coding standards code what it says: its NAL unit type and the numbers that it holds. DESIGN CHOICE (assumption 139). -/
opaque Config.parameterSet : Nat → List Nat → List Byte

/-- Which of its ports leads to a device that is no neighbour (R322 routes along the tree, whose shape the SH16 is not told): by device ID. DESIGN CHOICE (assumption 37). -/
opaque Config.route : Nat → Nat

/-- The device ID of the manager, where no neighbour is it: by the epoch. DESIGN CHOICE (assumption 184). -/
opaque Config.managerId : Nat → Nat

/-- Bytes of memory whose contents the spec leaves unspecified (R303), applied to the free-value counter and the position. -/
opaque Config.freeByte : Nat → Nat → Byte

end Sys2Proof
end

