-- ==== Sys2Proof/Machine/SparseMap.lean ====
section
/-! DEFINITION. Sparse data by key: a list of (key, value) pairs in ONE canonical form. Keys rise strictly, and no entry holds the value that an
unlisted key reads as, so that equal maps are equal lists. `d` is what an unlisted key reads as. -/

namespace Sys2Proof.Machine

/-- The value under key `k`. -/
def SMap.get {α : Type} (d : Nat → α) : List (Nat × α) → Nat → α
  | [], k => d k
  | (j, v) :: r, k => if j = k then v else SMap.get d r k

/-- Insert in order, replacing an entry of the same key. -/
def SMap.put {α : Type} : List (Nat × α) → Nat → α → List (Nat × α)
  | [], k, v => [(k, v)]
  | (j, w) :: r, k, v =>
    if k < j then (k, v) :: (j, w) :: r
    else if k = j then (k, v) :: r
    else (j, w) :: SMap.put r k v

/-- Remove the entry of a key. -/
def SMap.del {α : Type} : List (Nat × α) → Nat → List (Nat × α)
  | [], _ => []
  | (j, w) :: r, k => if j = k then SMap.del r k else (j, w) :: SMap.del r k

/-- Store a value; storing what an unlisted key reads as removes the entry. -/
def SMap.set {α : Type} [DecidableEq α] (d : Nat → α) (m : List (Nat × α)) (k : Nat) (v : α) : List (Nat × α) :=
  if v = d k then SMap.del m k else SMap.put m k v

/-- All keys of the list are above `k`. -/
def SMap.above {α : Type} : Nat → List (Nat × α) → Bool
  | _, [] => true
  | k, (j, _) :: r => decide (k < j) && SMap.above j r

/-- The canonical form: keys rise strictly, and no entry equals what an unlisted key reads as. -/
def SMap.wf {α : Type} [DecidableEq α] (d : Nat → α) (m : List (Nat × α)) : Bool :=
  (match m with
   | [] => true
   | (j, _) :: r => SMap.above j r) && m.all (fun e => decide (e.2 ≠ d e.1))

/-- Store a list of values under consecutive keys. -/
def SMap.setList {α : Type} [DecidableEq α] (d : Nat → α) (m : List (Nat × α)) (k : Nat) : List α → List (Nat × α)
  | [] => m
  | v :: vs => SMap.setList d (SMap.set d m k v) (k + 1) vs

/-- The values under `n` consecutive keys. -/
def SMap.getList {α : Type} (d : Nat → α) (m : List (Nat × α)) (k : Nat) : Nat → List α
  | 0 => []
  | n + 1 => SMap.get d m k :: SMap.getList d m (k + 1) n

end Sys2Proof.Machine
end

