-- ==== Sys2Proof/Machine/RegTable.lean ====
section
/-! DEFINITION. The register tables of every page, row by row as the chapters of the spec give them (offset, access code of R3, reset word, fields),
the page map of R36, and the reset word and the writable bits of every register address. -/

namespace Sys2Proof.Machine

/-- The access codes of R3. -/
inductive Acc where
  | RW | RO | WO | RS | SH | KV | DG
deriving DecidableEq, Repr

/-- One field of a register: its name and its bits. -/
structure FieldRow where
  name : String
  lsb : Nat
  width : Nat
deriving DecidableEq, Repr

/-- One row of a register table: `count` registers, `stride` bytes apart, all with the same fields, access code and reset word. -/
structure RegRow where
  name : String
  off : Nat
  count : Nat
  stride : Nat
  acc : Acc
  reset : Nat
  fields : List FieldRow
deriving DecidableEq, Repr

/-- The bits of a register that some field of the row defines; every other bit is reserved and reads zero (R5). -/
def RegRow.mask (r : RegRow) : Nat := r.fields.foldl (fun m f => m + (2 ^ f.width - 1) * 2 ^ f.lsb) 0

/-- The bits a write stores at once: those of RW and DG fields (R3). -/
def RegRow.rwMask (r : RegRow) : Nat := match r.acc with
  | .RW | .DG => r.mask
  | _ => 0

/-- The bits a write holds in the shadow: those of SH fields (R3, R42). -/
def RegRow.shMask (r : RegRow) : Nat := match r.acc with
  | .SH => r.mask
  | _ => 0

/-- The registers of page GLB (02_control_model.md). -/
def rowsGLB : List RegRow :=
  [⟨"UPD_ARM", 0x040, 1, 0x0, .WO, 0x0, [⟨"", 0, 16⟩]⟩,
   ⟨"UPD_CANCEL", 0x044, 1, 0x0, .WO, 0x0, [⟨"", 0, 16⟩]⟩,
   ⟨"UPD_PEND", 0x048, 1, 0x0, .RO, 0x0, [⟨"", 0, 16⟩]⟩,
   ⟨"UPD_LATE", 0x04C, 1, 0x0, .RO, 0x0, [⟨"", 0, 16⟩]⟩,
   ⟨"UPD_MODE", 0x080, 16, 0x10, .RW, 0x0, [⟨"MODE", 0, 3⟩, ⟨"INDEX", 8, 8⟩]⟩,
   ⟨"UPD_TIME_LO", 0x084, 16, 0x10, .RW, 0x0, [⟨"", 0, 32⟩]⟩,
   ⟨"UPD_TIME_HI", 0x088, 16, 0x10, .RW, 0x0, [⟨"", 0, 8⟩]⟩]

/-- The registers of page LDG (02_control_model.md). -/
def rowsLDG : List RegRow :=
  [⟨"FC_STAT", 0x040, 1, 0x0, .RO, 0x0, [⟨"USED", 0, 9⟩, ⟨"FULL", 16, 1⟩, ⟨"NEWEST", 24, 8⟩]⟩,
   ⟨"FC_SLOT", 0x044, 1, 0x0, .RW, 0x0, [⟨"", 0, 8⟩]⟩,
   ⟨"FC_CMD", 0x048, 1, 0x0, .WO, 0x0, [⟨"", 0, 4⟩]⟩,
   ⟨"FC_OVERFLOW", 0x04C, 1, 0x0, .RO, 0x0, [⟨"", 0, 32⟩]⟩]

/-- The registers of page GTH (02_control_model.md). -/
def rowsGTH : List RegRow :=
  [⟨"LOCK", 0x040, 1, 0x0, .DG, 0x0, [⟨"", 0, 1⟩]⟩,
   ⟨"TBL_SEL", 0x044, 1, 0x0, .RW, 0x0, [⟨"TARGET", 0, 9⟩, ⟨"WORD", 16, 5⟩]⟩,
   ⟨"TBL_DATA", 0x048, 1, 0x0, .RW, 0x0, [⟨"", 0, 32⟩]⟩,
   ⟨"F0_MID", 0x04C, 1, 0x0, .RW, 0x80, [⟨"", 0, 9⟩]⟩,
   ⟨"ADM_MID", 0x050, 1, 0x0, .RW, 0x81, [⟨"", 0, 9⟩]⟩,
   ⟨"QPB_SEL", 0x054, 1, 0x0, .RW, 0x1, [⟨"", 0, 10⟩]⟩,
   ⟨"QPB_DATA", 0x058, 1, 0x0, .RW, 0x82, [⟨"", 0, 9⟩]⟩,
   ⟨"WIN_BASE", 0x060, 16, 0x8, .RW, 0xFFFFFF, [⟨"", 0, 24⟩]⟩,
   ⟨"WIN_LIMIT", 0x064, 16, 0x8, .RW, 0x0, [⟨"", 0, 24⟩]⟩,
   ⟨"REF_INFO", 0x0E0, 1, 0x0, .RO, 0x0, [⟨"MASTER", 0, 9⟩, ⟨"TARGET", 16, 9⟩, ⟨"DIR", 31, 1⟩]⟩,
   ⟨"REF_COUNT", 0x0E4, 1, 0x0, .RO, 0x0, [⟨"", 0, 32⟩]⟩,
   ⟨"REF_RESTART", 0x0E8, 1, 0x0, .WO, 0x0, [⟨"", 0, 1⟩]⟩]

/-- The registers of page TRL (03_guarantees.md). -/
def rowsTRL : List RegRow :=
  [⟨"SPEED", 0x040, 1, 0x0, .RO, 0x0, [⟨"INDEX", 0, 16⟩]⟩,
   ⟨"OP", 0x044, 1, 0x0, .RO, 0x3, [⟨"CUR", 0, 2⟩]⟩,
   ⟨"OP_REQ", 0x048, 1, 0x0, .WO, 0x0, [⟨"", 0, 2⟩]⟩,
   ⟨"OP_STAT", 0x04C, 1, 0x0, .RO, 0x0, [⟨"BUSY", 0, 1⟩, ⟨"REFUSED", 1, 1⟩, ⟨"FLOW", 8, 7⟩, ⟨"RES", 16, 6⟩]⟩,
   ⟨"PWR_BUDGET", 0x050, 1, 0x0, .RW, 0xD6D8, [⟨"", 0, 16⟩]⟩,
   ⟨"PWR_USED", 0x054, 1, 0x0, .RO, 0xBB8, [⟨"", 0, 17⟩]⟩,
   ⟨"BE_SLOTS", 0x058, 1, 0x0, .RW, 0x10, [⟨"", 0, 6⟩]⟩,
   ⟨"BE_PATIENCE", 0x05C, 1, 0x0, .RW, 0x10, [⟨"", 0, 8⟩]⟩,
   ⟨"FLOW_SEL", 0x060, 1, 0x0, .RW, 0x0, [⟨"", 0, 7⟩]⟩,
   ⟨"FLOW_OWNER", 0x064, 1, 0x0, .RW, 0x0, [⟨"", 0, 12⟩]⟩,
   ⟨"FLOW_PWR_CORE", 0x068, 1, 0x0, .RW, 0x0, [⟨"", 0, 16⟩]⟩,
   ⟨"FLOW_PWR_FIXED", 0x06C, 1, 0x0, .RW, 0x0, [⟨"", 0, 16⟩]⟩,
   ⟨"FLOW_BURST", 0x070, 1, 0x0, .RW, 0x100, [⟨"", 0, 11⟩]⟩,
   ⟨"FLOW_COST", 0x074, 6, 0x4, .RW, 0x3F, [⟨"RES", 0, 6⟩, ⟨"UNITS", 8, 20⟩]⟩,
   ⟨"FLOW_STATE", 0x08C, 1, 0x0, .RO, 0x0, [⟨"", 0, 2⟩]⟩,
   ⟨"ADM_CMD", 0x090, 1, 0x0, .WO, 0x0, [⟨"", 0, 2⟩]⟩,
   ⟨"ADM_STAT", 0x094, 1, 0x0, .RO, 0x0, [⟨"BUSY", 0, 1⟩, ⟨"REASON", 1, 3⟩, ⟨"RES", 4, 6⟩]⟩,
   ⟨"CAP", 0x0A0, 36, 0x4, .RO, 0x0, [⟨"", 0, 20⟩]⟩,
   ⟨"USED", 0x140, 36, 0x4, .RO, 0x0, [⟨"", 0, 20⟩]⟩]

/-- The registers of page SFE (04_sensor_front_end.md). -/
def rowsSFE : List RegRow :=
  [⟨"GRP_MODE", 0x040, 1, 0x0, .SH, 0x0, [⟨"MODE", 0, 2⟩, ⟨"JOIN_MASK", 4, 4⟩]⟩,
   ⟨"CNT_RESTART", 0x044, 1, 0x0, .WO, 0x0, [⟨"", 0, 4⟩]⟩,
   ⟨"JOIN_SKEW", 0x048, 1, 0x0, .SH, 0x400, [⟨"", 0, 16⟩]⟩,
   ⟨"GRP_CFG", 0x100, 4, 0x80, .SH, 0x142, [⟨"EN", 0, 1⟩, ⟨"WIDTH", 1, 2⟩, ⟨"SYNC", 3, 1⟩, ⟨"LANES", 4, 5⟩, ⟨"LV_DELAY", 9, 4⟩, ⟨"WINDOW_EN", 16, 1⟩, ⟨"TRIGGERED", 17, 1⟩, ⟨"DUAL_GAIN", 18, 1⟩]⟩,
   ⟨"GEO_WIDTH", 0x104, 4, 0x80, .SH, 0x1000, [⟨"", 0, 15⟩]⟩,
   ⟨"GEO_HEIGHT", 0x108, 4, 0x80, .SH, 0x870, [⟨"", 0, 15⟩]⟩,
   ⟨"PAD_CODE", 0x10C, 4, 0x80, .SH, 0x0, [⟨"", 0, 16⟩]⟩,
   ⟨"FRM_RATE_NUM", 0x110, 4, 0x80, .SH, 0x18, [⟨"", 0, 32⟩]⟩,
   ⟨"FRM_RATE_DEN", 0x114, 4, 0x80, .SH, 0x1, [⟨"", 0, 32⟩]⟩,
   ⟨"FS_EARLY", 0x118, 4, 0x80, .SH, 0x0, [⟨"", 0, 24⟩]⟩,
   ⟨"FS_LATE", 0x11C, 4, 0x80, .SH, 0x0, [⟨"", 0, 24⟩]⟩,
   ⟨"SOF_DELAY", 0x120, 4, 0x80, .SH, 0x0, [⟨"", 0, 24⟩]⟩,
   ⟨"CLOSE_TIMEOUT", 0x124, 4, 0x80, .SH, 0x14, [⟨"", 0, 16⟩]⟩,
   ⟨"FRM_CNT_INIT", 0x128, 4, 0x80, .SH, 0x0, [⟨"", 0, 32⟩]⟩,
   ⟨"MODE_ID", 0x12C, 4, 0x80, .SH, 0x0, [⟨"", 0, 8⟩]⟩,
   ⟨"TRIG_CFG", 0x130, 4, 0x80, .SH, 0x100, [⟨"VT_EN", 0, 1⟩, ⟨"HT_EN", 1, 1⟩, ⟨"POL", 2, 1⟩, ⟨"VT_WIDTH", 8, 8⟩]⟩,
   ⟨"HT_PERIOD", 0x134, 4, 0x80, .SH, 0x400, [⟨"", 0, 16⟩]⟩,
   ⟨"HT_COUNT", 0x138, 4, 0x80, .SH, 0x0, [⟨"", 0, 14⟩]⟩,
   ⟨"HT_DELAY", 0x13C, 4, 0x80, .SH, 0x0, [⟨"", 0, 16⟩]⟩,
   ⟨"TRIG_START_LO", 0x140, 4, 0x80, .SH, 0x0, [⟨"", 0, 32⟩]⟩,
   ⟨"TRIG_START_HI", 0x144, 4, 0x80, .SH, 0x0, [⟨"", 0, 8⟩]⟩,
   ⟨"SHORT_LINES", 0x150, 4, 0x80, .RO, 0x0, [⟨"", 0, 32⟩]⟩,
   ⟨"LONG_PIXELS", 0x154, 4, 0x80, .RO, 0x0, [⟨"", 0, 32⟩]⟩,
   ⟨"LONG_LINES", 0x158, 4, 0x80, .RO, 0x0, [⟨"", 0, 32⟩]⟩,
   ⟨"LATE_SOF", 0x15C, 4, 0x80, .RO, 0x0, [⟨"", 0, 32⟩]⟩,
   ⟨"SKIPPED", 0x160, 4, 0x80, .RO, 0x0, [⟨"", 0, 32⟩]⟩,
   ⟨"TRUNCATED", 0x164, 4, 0x80, .RO, 0x0, [⟨"", 0, 32⟩]⟩,
   ⟨"SYNC_ERR", 0x168, 4, 0x80, .RO, 0x0, [⟨"", 0, 32⟩]⟩,
   ⟨"MCLK_INT", 0x400, 4, 0x8, .RW, 0x64, [⟨"INT", 0, 9⟩, ⟨"EN", 31, 1⟩]⟩,
   ⟨"MCLK_FRAC", 0x404, 4, 0x8, .RW, 0x0, [⟨"", 0, 24⟩]⟩,
   ⟨"SPI_CFG", 0x500, 4, 0x20, .RW, 0x300, [⟨"MODE", 0, 2⟩, ⟨"DIV", 8, 8⟩]⟩,
   ⟨"SPI_CMD", 0x504, 4, 0x20, .WO, 0x0, [⟨"LEN", 0, 7⟩, ⟨"GO", 8, 1⟩, ⟨"DEFER", 9, 1⟩, ⟨"GROUP", 12, 4⟩]⟩,
   ⟨"SPI_DATA", 0x508, 4, 0x20, .RW, 0x0, [⟨"", 0, 8⟩]⟩,
   ⟨"SPI_STAT", 0x50C, 4, 0x20, .RO, 0x0, [⟨"BUSY", 0, 1⟩, ⟨"DEFERRED", 1, 1⟩, ⟨"RX_LEVEL", 8, 7⟩]⟩,
   ⟨"I2C_CFG", 0x600, 4, 0x20, .RW, 0x0, [⟨"SPEED", 0, 2⟩, ⟨"ADDR", 8, 7⟩]⟩,
   ⟨"I2C_CMD", 0x604, 4, 0x20, .WO, 0x0, [⟨"LEN", 0, 7⟩, ⟨"READ", 7, 1⟩, ⟨"GO", 8, 1⟩, ⟨"DEFER", 9, 1⟩, ⟨"GROUP", 12, 4⟩]⟩,
   ⟨"I2C_DATA", 0x608, 4, 0x20, .RW, 0x0, [⟨"", 0, 8⟩]⟩,
   ⟨"I2C_STAT", 0x60C, 4, 0x20, .RO, 0x0, [⟨"BUSY", 0, 1⟩, ⟨"NACK", 1, 1⟩, ⟨"DEFERRED", 2, 1⟩, ⟨"RX_LEVEL", 8, 7⟩]⟩]

/-- The registers of page SFL (04_sensor_front_end.md). -/
def rowsSFL : List RegRow :=
  [⟨"DESKEW_CTL", 0x040, 1, 0x0, .WO, 0x0, [⟨"START", 0, 4⟩]⟩,
   ⟨"TRACK_CTL", 0x044, 1, 0x0, .RW, 0xF, [⟨"EN", 0, 4⟩]⟩,
   ⟨"RATE", 0x060, 4, 0x10, .RW, 0x320, [⟨"", 0, 13⟩]⟩,
   ⟨"TRAIN_WORD", 0x064, 4, 0x10, .RW, 0xF0, [⟨"", 0, 16⟩]⟩,
   ⟨"DESKEW_WORD", 0x068, 4, 0x10, .RW, 0x3CC, [⟨"", 0, 16⟩]⟩,
   ⟨"DESKEW_STAT", 0x06C, 4, 0x10, .RO, 0x0, [⟨"ALIGNED", 0, 1⟩, ⟨"BUSY", 1, 1⟩, ⟨"FAIL", 2, 1⟩, ⟨"LANE_FAIL", 8, 20⟩]⟩,
   ⟨"LANE_POS", 0x200, 80, 0x4, .RO, 0x0, [⟨"TAP", 0, 6⟩, ⟨"WORD_OFS", 8, 5⟩, ⟨"EYE_LOW", 16, 1⟩]⟩]

/-- The registers of page RCN (05_raw_conditioning.md). -/
def rowsRCN : List RegRow :=
  [⟨"CNT_RESTART", 0x044, 1, 0x0, .WO, 0x0, [⟨"", 0, 4⟩]⟩,
   ⟨"CTX_CFG", 0x100, 4, 0x100, .SH, 0x80100, [⟨"EN", 0, 1⟩, ⟨"DARK_EN", 1, 1⟩, ⟨"DEF_EN", 2, 1⟩, ⟨"COL_EN", 3, 1⟩, ⟨"ROW_EN", 4, 1⟩, ⟨"FF_EN", 5, 1⟩, ⟨"DEF_STRIDE", 8, 1⟩, ⟨"DARK_SHIFT", 12, 3⟩, ⟨"FF_CELL", 16, 4⟩]⟩,
   ⟨"DARK_BASE", 0x104, 4, 0x100, .SH, 0x0, [⟨"", 0, 16⟩]⟩,
   ⟨"DARK_UNIT", 0x108, 4, 0x100, .SH, 0x0, [⟨"", 0, 24⟩]⟩,
   ⟨"DARK_PITCH", 0x10C, 4, 0x100, .SH, 0x0, [⟨"", 0, 17⟩]⟩,
   ⟨"DEF_UNIT", 0x110, 4, 0x100, .SH, 0x0, [⟨"", 0, 24⟩]⟩,
   ⟨"DEF_COUNT", 0x114, 4, 0x100, .SH, 0x0, [⟨"", 0, 19⟩]⟩,
   ⟨"COL_UNIT", 0x118, 4, 0x100, .SH, 0x0, [⟨"", 0, 24⟩]⟩,
   ⟨"OB", 0x11C, 4, 0x100, .SH, 0x40000, [⟨"OB_COL0", 0, 14⟩, ⟨"OB_LOG2", 16, 4⟩]⟩,
   ⟨"OB_TARGET", 0x120, 4, 0x100, .SH, 0x0, [⟨"", 0, 16⟩]⟩,
   ⟨"ROW_LIMIT", 0x124, 4, 0x100, .SH, 0x400, [⟨"", 0, 15⟩]⟩,
   ⟨"HDR_T0", 0x128, 4, 0x100, .SH, 0x0, [⟨"", 0, 21⟩]⟩,
   ⟨"HDR_SPAN_LOG2", 0x12C, 4, 0x100, .SH, 0xC, [⟨"", 0, 5⟩]⟩,
   ⟨"HDR_RATIO", 0x130, 4, 0x100, .SH, 0x100000, [⟨"", 0, 24⟩]⟩,
   ⟨"FF_UNIT", 0x134, 4, 0x100, .SH, 0x0, [⟨"", 0, 24⟩]⟩,
   ⟨"FF_PITCH", 0x138, 4, 0x100, .SH, 0x0, [⟨"", 0, 17⟩]⟩,
   ⟨"DEF_UNFIXED", 0x160, 4, 0x100, .RO, 0x0, [⟨"", 0, 32⟩]⟩,
   ⟨"DEF_REJECTED", 0x164, 4, 0x100, .RO, 0x0, [⟨"", 0, 32⟩]⟩,
   ⟨"TABLE_ERR", 0x168, 4, 0x100, .RO, 0x0, [⟨"", 0, 32⟩]⟩,
   ⟨"ROW_LIMITED", 0x16C, 4, 0x100, .RO, 0x0, [⟨"", 0, 32⟩]⟩]

/-- The registers of page RCS (05_raw_conditioning.md). -/
def rowsRCS : List RegRow :=
  [⟨"INT_CFG", 0x040, 1, 0x0, .RW, 0x4, [⟨"TAP", 0, 1⟩, ⟨"GAIN_SEL", 1, 1⟩, ⟨"SKIP_TAGGED", 2, 1⟩, ⟨"CTX", 4, 2⟩, ⟨"EVERY", 8, 4⟩]⟩,
   ⟨"INT_TARGET", 0x044, 1, 0x0, .RW, 0x0, [⟨"", 0, 16⟩]⟩,
   ⟨"INT_CMD", 0x048, 1, 0x0, .WO, 0x0, [⟨"", 0, 2⟩]⟩,
   ⟨"INT_STAT", 0x04C, 1, 0x0, .RO, 0x0, [⟨"STATE", 0, 3⟩, ⟨"AVG_BUSY", 4, 1⟩, ⟨"FRAMES", 16, 16⟩]⟩,
   ⟨"SATURATED_TILES", 0x050, 1, 0x0, .RO, 0x0, [⟨"", 0, 17⟩]⟩,
   ⟨"INT_REJECTED", 0x054, 1, 0x0, .RO, 0x0, [⟨"", 0, 32⟩]⟩,
   ⟨"INT_UNIT", 0x058, 1, 0x0, .RW, 0x0, [⟨"", 0, 24⟩]⟩,
   ⟨"INT_PITCH", 0x05C, 1, 0x0, .RW, 0x0, [⟨"", 0, 18⟩]⟩,
   ⟨"INT_TILE_UNIT", 0x060, 1, 0x0, .RW, 0x0, [⟨"", 0, 24⟩]⟩,
   ⟨"INT_AVG_UNIT", 0x064, 1, 0x0, .RW, 0x0, [⟨"", 0, 24⟩]⟩,
   ⟨"REG_CTL", 0x100, 8, 0x10, .SH, 0x0, [⟨"EN", 0, 1⟩, ⟨"CTX", 4, 2⟩]⟩,
   ⟨"REG_POS", 0x104, 8, 0x10, .SH, 0x0, [⟨"X0", 0, 14⟩, ⟨"Y0", 16, 14⟩]⟩,
   ⟨"REG_SIZE", 0x108, 8, 0x10, .SH, 0x0, [⟨"W", 0, 15⟩, ⟨"H", 16, 14⟩]⟩,
   ⟨"REG_CLIP", 0x10C, 8, 0x10, .SH, 0xFFFFF0, [⟨"CLIP_HI", 0, 25⟩]⟩]

/-- The registers of page EBE (06_ebosh_raw.md). -/
def rowsEBE : List RegRow :=
  [⟨"CNT_RESTART", 0x044, 1, 0x0, .WO, 0x0, [⟨"", 0, 4⟩]⟩,
   ⟨"ENC_CFG", 0x100, 4, 0x100, .SH, 0x802, [⟨"EN", 0, 1⟩, ⟨"CW", 1, 2⟩, ⟨"RATIO2", 8, 6⟩, ⟨"CFA_ID", 16, 4⟩, ⟨"USER_EN", 20, 1⟩]⟩,
   ⟨"PEDESTAL", 0x104, 4, 0x100, .SH, 0x40, [⟨"", 0, 16⟩]⟩,
   ⟨"RING_UNIT", 0x108, 4, 0x100, .RW, 0x0, [⟨"", 0, 24⟩]⟩,
   ⟨"RING_UNITS", 0x10C, 4, 0x100, .RW, 0x0, [⟨"", 0, 24⟩]⟩,
   ⟨"COMMIT_RESERVE", 0x110, 4, 0x100, .SH, 0x40, [⟨"", 0, 16⟩]⟩,
   ⟨"USER_UNIT", 0x114, 4, 0x100, .SH, 0x0, [⟨"", 0, 24⟩]⟩,
   ⟨"PREROLL_FRAMES", 0x118, 4, 0x100, .RW, 0xFFFF, [⟨"", 0, 16⟩]⟩,
   ⟨"REC_AT_COUNT", 0x11C, 4, 0x100, .RW, 0x0, [⟨"", 0, 32⟩]⟩,
   ⟨"REC_CMD", 0x120, 4, 0x100, .WO, 0x0, [⟨"CMD", 0, 2⟩, ⟨"AT_COUNT", 4, 1⟩]⟩,
   ⟨"REC_STAT", 0x124, 4, 0x100, .RO, 0x0, [⟨"STATE", 0, 2⟩, ⟨"LATE", 4, 1⟩, ⟨"GEOM_END", 5, 1⟩, ⟨"TAKE_SEQ", 16, 16⟩]⟩,
   ⟨"TILE_BYTES", 0x128, 4, 0x100, .RO, 0x0, [⟨"", 0, 14⟩]⟩,
   ⟨"STRIDE_UNITS", 0x12C, 4, 0x100, .RO, 0x0, [⟨"", 0, 24⟩]⟩,
   ⟨"FRAMES_WHOLE", 0x130, 4, 0x100, .RO, 0x0, [⟨"", 0, 24⟩]⟩,
   ⟨"HELD", 0x134, 4, 0x100, .RO, 0x0, [⟨"", 0, 24⟩]⟩,
   ⟨"HOLD_SEGS", 0x140, 4, 0x100, .RO, 0x0, [⟨"", 0, 32⟩]⟩,
   ⟨"RAW_TILES", 0x144, 4, 0x100, .RO, 0x0, [⟨"", 0, 32⟩]⟩,
   ⟨"RING_FULL", 0x148, 4, 0x100, .RO, 0x0, [⟨"", 0, 32⟩]⟩,
   ⟨"MAP_CLIPPED", 0x14C, 4, 0x100, .RO, 0x0, [⟨"", 0, 32⟩]⟩,
   ⟨"WRITE_ERR", 0x150, 4, 0x100, .RO, 0x0, [⟨"", 0, 32⟩]⟩]

/-- The registers of page EBD (06_ebosh_raw.md). -/
def rowsEBD : List RegRow :=
  [⟨"OUT_GEO", 0x040, 1, 0x0, .SH, 0x0, [⟨"OUT_W", 0, 15⟩, ⟨"OUT_H", 16, 15⟩]⟩,
   ⟨"SRC_UNIT", 0x044, 1, 0x0, .RW, 0x0, [⟨"", 0, 24⟩]⟩,
   ⟨"STRIDE_UNITS", 0x048, 1, 0x0, .RW, 0x0, [⟨"", 0, 24⟩]⟩,
   ⟨"WRAP_UNIT", 0x04C, 1, 0x0, .RW, 0x0, [⟨"", 0, 24⟩]⟩,
   ⟨"WRAP_UNITS", 0x050, 1, 0x0, .RW, 0x0, [⟨"", 0, 24⟩]⟩,
   ⟨"COUNT", 0x054, 1, 0x0, .RW, 0x1, [⟨"", 0, 32⟩]⟩,
   ⟨"EXPECT_FC", 0x058, 1, 0x0, .RW, 0x0, [⟨"", 0, 32⟩]⟩,
   ⟨"PLAY_CFG", 0x05C, 1, 0x0, .RW, 0x0, [⟨"EXPECT_EN", 0, 1⟩]⟩,
   ⟨"PACE_NUM", 0x060, 1, 0x0, .RW, 0x0, [⟨"", 0, 32⟩]⟩,
   ⟨"PACE_DEN", 0x064, 1, 0x0, .RW, 0x1, [⟨"", 0, 32⟩]⟩,
   ⟨"PACE_START_LO", 0x068, 1, 0x0, .RW, 0x0, [⟨"", 0, 32⟩]⟩,
   ⟨"PACE_START_HI", 0x06C, 1, 0x0, .RW, 0x0, [⟨"", 0, 8⟩]⟩,
   ⟨"PLAY_CMD", 0x070, 1, 0x0, .WO, 0x0, [⟨"", 0, 2⟩]⟩,
   ⟨"FRAMES_DONE", 0x074, 1, 0x0, .RO, 0x0, [⟨"", 0, 32⟩]⟩,
   ⟨"HDR_ERR", 0x078, 1, 0x0, .RO, 0x0, [⟨"", 0, 32⟩]⟩,
   ⟨"TILE_ERR", 0x07C, 1, 0x0, .RO, 0x0, [⟨"", 0, 32⟩]⟩,
   ⟨"STALE_FRAMES", 0x080, 1, 0x0, .RO, 0x0, [⟨"", 0, 32⟩]⟩,
   ⟨"CNT_RESTART", 0x084, 1, 0x0, .WO, 0x0, [⟨"", 0, 1⟩]⟩]

/-- The registers of page ORG (07_orangery.md). -/
def rowsORG : List RegRow :=
  [⟨"STAT_CFG", 0x040, 1, 0x0, .SH, 0x0, [⟨"EN", 0, 1⟩, ⟨"CTX", 1, 1⟩, ⟨"HIST_EN", 2, 1⟩]⟩,
   ⟨"STAT_LO", 0x044, 1, 0x0, .SH, 0x0, [⟨"", 0, 25⟩]⟩,
   ⟨"STAT_HI", 0x048, 1, 0x0, .SH, 0xFFFFF0, [⟨"", 0, 25⟩]⟩,
   ⟨"HIST_UNIT", 0x04C, 1, 0x0, .SH, 0x0, [⟨"", 0, 24⟩]⟩,
   ⟨"CNT_RESTART", 0x050, 1, 0x0, .WO, 0x0, [⟨"", 0, 2⟩]⟩,
   ⟨"REG_CTL", 0x080, 4, 0x10, .SH, 0x0, [⟨"EN", 0, 1⟩]⟩,
   ⟨"REG_POS", 0x084, 4, 0x10, .SH, 0x0, [⟨"X0", 0, 14⟩, ⟨"Y0", 16, 14⟩]⟩,
   ⟨"REG_SIZE", 0x088, 4, 0x10, .SH, 0x0, [⟨"W", 0, 15⟩, ⟨"H", 16, 15⟩]⟩,
   ⟨"CTX_CFG", 0x100, 2, 0x100, .SH, 0x100, [⟨"EN", 0, 1⟩, ⟨"SRC", 1, 2⟩, ⟨"CFA", 4, 3⟩, ⟨"CFA_FROM_HDR", 8, 1⟩]⟩,
   ⟨"WB_GAIN_0", 0x104, 2, 0x100, .SH, 0x2000, [⟨"", 0, 16⟩]⟩,
   ⟨"WB_GAIN_1", 0x108, 2, 0x100, .SH, 0x2000, [⟨"", 0, 16⟩]⟩,
   ⟨"WB_GAIN_2", 0x10C, 2, 0x100, .SH, 0x2000, [⟨"", 0, 16⟩]⟩,
   ⟨"WB_GAIN_3", 0x110, 2, 0x100, .SH, 0x2000, [⟨"", 0, 16⟩]⟩,
   ⟨"HL_CLIP", 0x114, 2, 0x100, .SH, 0xFFFFFF, [⟨"", 0, 25⟩]⟩,
   ⟨"DM_T", 0x118, 2, 0x100, .SH, 0x100, [⟨"", 0, 24⟩]⟩,
   ⟨"MAT_0_0", 0x120, 2, 0x100, .SH, 0x4000, [⟨"", 0, 19⟩]⟩,
   ⟨"MAT_0_1", 0x124, 2, 0x100, .SH, 0x0, [⟨"", 0, 19⟩]⟩,
   ⟨"MAT_0_2", 0x128, 2, 0x100, .SH, 0x0, [⟨"", 0, 19⟩]⟩,
   ⟨"MAT_1_0", 0x12C, 2, 0x100, .SH, 0x0, [⟨"", 0, 19⟩]⟩,
   ⟨"MAT_1_1", 0x130, 2, 0x100, .SH, 0x4000, [⟨"", 0, 19⟩]⟩,
   ⟨"MAT_1_2", 0x134, 2, 0x100, .SH, 0x0, [⟨"", 0, 19⟩]⟩,
   ⟨"MAT_2_0", 0x138, 2, 0x100, .SH, 0x0, [⟨"", 0, 19⟩]⟩,
   ⟨"MAT_2_1", 0x13C, 2, 0x100, .SH, 0x0, [⟨"", 0, 19⟩]⟩,
   ⟨"MAT_2_2", 0x140, 2, 0x100, .SH, 0x4000, [⟨"", 0, 19⟩]⟩,
   ⟨"OFS_0", 0x144, 2, 0x100, .SH, 0x0, [⟨"", 0, 25⟩]⟩,
   ⟨"OFS_1", 0x148, 2, 0x100, .SH, 0x0, [⟨"", 0, 25⟩]⟩,
   ⟨"OFS_2", 0x14C, 2, 0x100, .SH, 0x0, [⟨"", 0, 25⟩]⟩,
   ⟨"FRAMES", 0x160, 2, 0x100, .RO, 0x0, [⟨"", 0, 32⟩]⟩,
   ⟨"CFA_BAD", 0x164, 2, 0x100, .RO, 0x0, [⟨"", 0, 32⟩]⟩,
   ⟨"LAST_FC", 0x168, 2, 0x100, .RO, 0x0, [⟨"", 0, 32⟩]⟩]

/-- The registers of page ORL (07_orangery.md). -/
def rowsORL : List RegRow :=
  [⟨"TBL_SEL", 0x040, 1, 0x0, .RW, 0x0, [⟨"ID", 0, 8⟩, ⟨"COPY", 8, 1⟩]⟩,
   ⟨"TBL_ADDR", 0x044, 1, 0x0, .RW, 0x0, [⟨"", 0, 19⟩]⟩,
   ⟨"TBL_DATA", 0x048, 1, 0x0, .RW, 0x0, [⟨"", 0, 32⟩]⟩,
   ⟨"TBL_STAT", 0x04C, 1, 0x0, .RO, 0x0, [⟨"IN_USE", 0, 1⟩, ⟨"OTHER_IN_USE", 1, 1⟩]⟩,
   ⟨"REFUSED", 0x050, 1, 0x0, .RO, 0x0, [⟨"", 0, 32⟩]⟩,
   ⟨"LOAD_UNIT", 0x054, 1, 0x0, .RW, 0x0, [⟨"", 0, 24⟩]⟩,
   ⟨"LOAD_CMD", 0x058, 1, 0x0, .WO, 0x0, [⟨"", 0, 1⟩]⟩,
   ⟨"LOAD_STAT", 0x05C, 1, 0x0, .RO, 0x0, [⟨"BUSY", 0, 1⟩, ⟨"DONE", 1, 1⟩, ⟨"ERR", 2, 1⟩, ⟨"ABORTED", 3, 1⟩]⟩,
   ⟨"CNT_RESTART", 0x060, 1, 0x0, .WO, 0x0, [⟨"", 0, 1⟩]⟩]

/-- The registers of page PAT (08_views.md). -/
def rowsPAT : List RegRow :=
  [⟨"PATTERN", 0x040, 1, 0x0, .SH, 0x1, [⟨"", 0, 3⟩]⟩,
   ⟨"SIZE", 0x044, 1, 0x0, .SH, 0xF001000, [⟨"PAT_W", 0, 15⟩, ⟨"PAT_H", 16, 15⟩]⟩,
   ⟨"RATE_NUM", 0x048, 1, 0x0, .SH, 0x18, [⟨"", 0, 32⟩]⟩,
   ⟨"RATE_DEN", 0x04C, 1, 0x0, .SH, 0x1, [⟨"", 0, 32⟩]⟩,
   ⟨"PAT_START_LO", 0x050, 1, 0x0, .RW, 0x0, [⟨"", 0, 32⟩]⟩,
   ⟨"PAT_START_HI", 0x054, 1, 0x0, .RW, 0x0, [⟨"", 0, 8⟩]⟩,
   ⟨"COLOUR0_A", 0x058, 1, 0x0, .SH, 0x0, [⟨"", 0, 32⟩]⟩,
   ⟨"COLOUR0_B", 0x05C, 1, 0x0, .SH, 0x0, [⟨"", 0, 16⟩]⟩,
   ⟨"COLOUR1_A", 0x060, 1, 0x0, .SH, 0x0, [⟨"", 0, 32⟩]⟩,
   ⟨"COLOUR1_B", 0x064, 1, 0x0, .SH, 0x0, [⟨"", 0, 16⟩]⟩,
   ⟨"LEVEL", 0x068, 1, 0x0, .SH, 0xFFFF, [⟨"", 0, 16⟩]⟩,
   ⟨"CHECK_LOG2", 0x06C, 1, 0x0, .SH, 0x6, [⟨"", 0, 4⟩]⟩,
   ⟨"ZONE_K", 0x070, 1, 0x0, .SH, 0x0, [⟨"KX", 0, 16⟩, ⟨"KY", 16, 16⟩]⟩,
   ⟨"ZONE_KT", 0x074, 1, 0x0, .SH, 0x0, [⟨"", 0, 16⟩]⟩,
   ⟨"DX", 0x078, 1, 0x0, .SH, 0x0, [⟨"", 0, 14⟩]⟩,
   ⟨"SEED", 0x07C, 1, 0x0, .SH, 0x1, [⟨"", 0, 31⟩]⟩,
   ⟨"PAT_CMD", 0x080, 1, 0x0, .WO, 0x0, [⟨"", 0, 2⟩]⟩,
   ⟨"FRAMES", 0x084, 1, 0x0, .RO, 0x0, [⟨"", 0, 32⟩]⟩]

/-- The registers of page VW (08_views.md). -/
def rowsVW : List RegRow :=
  [⟨"SRC_CFG", 0x040, 1, 0x0, .SH, 0x0, [⟨"SRC", 0, 8⟩, ⟨"FRAME_DIV", 8, 4⟩]⟩,
   ⟨"PACE_NUM", 0x044, 1, 0x0, .SH, 0x18, [⟨"", 0, 32⟩]⟩,
   ⟨"PACE_DEN", 0x048, 1, 0x0, .SH, 0x1, [⟨"", 0, 32⟩]⟩,
   ⟨"PACE_START_LO", 0x04C, 1, 0x0, .SH, 0x0, [⟨"", 0, 32⟩]⟩,
   ⟨"PACE_START_HI", 0x050, 1, 0x0, .SH, 0x0, [⟨"", 0, 8⟩]⟩,
   ⟨"CROP_POS", 0x054, 1, 0x0, .SH, 0x0, [⟨"X0", 0, 14⟩, ⟨"Y0", 16, 14⟩]⟩,
   ⟨"CROP_SIZE", 0x058, 1, 0x0, .SH, 0x0, [⟨"W", 0, 15⟩, ⟨"H", 16, 15⟩]⟩,
   ⟨"SCL_CFG", 0x05C, 1, 0x0, .SH, 0x0, [⟨"DH", 0, 2⟩, ⟨"DV", 4, 2⟩, ⟨"FILTER", 8, 2⟩]⟩,
   ⟨"OUT_SIZE", 0x060, 1, 0x0, .SH, 0x0, [⟨"W", 0, 14⟩, ⟨"H", 16, 14⟩]⟩,
   ⟨"STEP_H", 0x064, 1, 0x0, .SH, 0x10000, [⟨"", 0, 24⟩]⟩,
   ⟨"STEP_V", 0x068, 1, 0x0, .SH, 0x10000, [⟨"", 0, 24⟩]⟩,
   ⟨"INIT_H", 0x06C, 1, 0x0, .SH, 0x0, [⟨"", 0, 32⟩]⟩,
   ⟨"INIT_V", 0x070, 1, 0x0, .SH, 0x0, [⟨"", 0, 32⟩]⟩,
   ⟨"PIPE_CFG", 0x074, 1, 0x0, .SH, 0x0, [⟨"ENABLES", 0, 4⟩, ⟨"NEG", 4, 1⟩, ⟨"LUT_COPY", 8, 1⟩]⟩,
   ⟨"MAT_0_0", 0x080, 1, 0x0, .SH, 0x4000, [⟨"", 0, 19⟩]⟩,
   ⟨"MAT_0_1", 0x084, 1, 0x0, .SH, 0x0, [⟨"", 0, 19⟩]⟩,
   ⟨"MAT_0_2", 0x088, 1, 0x0, .SH, 0x0, [⟨"", 0, 19⟩]⟩,
   ⟨"MAT_1_0", 0x08C, 1, 0x0, .SH, 0x0, [⟨"", 0, 19⟩]⟩,
   ⟨"MAT_1_1", 0x090, 1, 0x0, .SH, 0x4000, [⟨"", 0, 19⟩]⟩,
   ⟨"MAT_1_2", 0x094, 1, 0x0, .SH, 0x0, [⟨"", 0, 19⟩]⟩,
   ⟨"MAT_2_0", 0x098, 1, 0x0, .SH, 0x0, [⟨"", 0, 19⟩]⟩,
   ⟨"MAT_2_1", 0x09C, 1, 0x0, .SH, 0x0, [⟨"", 0, 19⟩]⟩,
   ⟨"MAT_2_2", 0x0A0, 1, 0x0, .SH, 0x4000, [⟨"", 0, 19⟩]⟩,
   ⟨"OFS", 0x0A4, 3, 0x4, .SH, 0x0, [⟨"", 0, 25⟩]⟩,
   ⟨"FMT_CFG", 0x0C0, 1, 0x0, .SH, 0x10002, [⟨"FMT", 0, 2⟩, ⟨"DEPTH", 4, 2⟩, ⟨"RANGE", 8, 1⟩, ⟨"COLORIMETRY", 9, 1⟩, ⟨"TF", 12, 2⟩, ⟨"PROTECT", 16, 1⟩]⟩,
   ⟨"BUF_UNIT", 0x0C4, 1, 0x0, .SH, 0x0, [⟨"", 0, 24⟩]⟩,
   ⟨"BUF_STRIDE", 0x0C8, 1, 0x0, .SH, 0x0, [⟨"", 0, 24⟩]⟩,
   ⟨"PITCH", 0x0CC, 1, 0x0, .SH, 0x0, [⟨"", 0, 20⟩]⟩,
   ⟨"NBUF", 0x0D0, 1, 0x0, .SH, 0x3, [⟨"", 0, 3⟩]⟩,
   ⟨"DESC_UNIT", 0x0D4, 1, 0x0, .SH, 0x0, [⟨"", 0, 24⟩]⟩,
   ⟨"CHROMA_UNITS", 0x0D8, 1, 0x0, .SH, 0x0, [⟨"", 0, 24⟩]⟩,
   ⟨"OVL_CFG", 0x100, 1, 0x0, .SH, 0x0, [⟨"PEAK_EN", 0, 1⟩, ⟨"ZEBRA_EN", 1, 1⟩, ⟨"RECT_EN", 4, 4⟩, ⟨"BMP_EN", 8, 1⟩]⟩,
   ⟨"PEAK_T", 0x104, 1, 0x0, .SH, 0x0, [⟨"", 0, 16⟩]⟩,
   ⟨"ZEBRA_LEVEL", 0x108, 1, 0x0, .SH, 0x0, [⟨"", 0, 16⟩]⟩,
   ⟨"PEAK_COLOUR", 0x10C, 1, 0x0, .SH, 0x0, [⟨"", 0, 30⟩]⟩,
   ⟨"ZEBRA_COLOUR", 0x110, 1, 0x0, .SH, 0x0, [⟨"", 0, 30⟩]⟩,
   ⟨"RECT_POS", 0x120, 4, 0x10, .SH, 0x0, [⟨"X0", 0, 14⟩, ⟨"Y0", 16, 14⟩]⟩,
   ⟨"RECT_SIZE", 0x124, 4, 0x10, .SH, 0x0, [⟨"W", 0, 14⟩, ⟨"H", 16, 14⟩]⟩,
   ⟨"RECT_COLOUR", 0x128, 4, 0x10, .SH, 0x0, [⟨"", 0, 30⟩]⟩,
   ⟨"RECT_CFG", 0x12C, 4, 0x10, .SH, 0x0, [⟨"ALPHA", 0, 8⟩, ⟨"BORDER", 8, 4⟩]⟩] ++
  [⟨"BMP_UNIT", 0x160, 1, 0x0, .SH, 0x0, [⟨"", 0, 24⟩]⟩,
   ⟨"BMP_PITCH", 0x164, 1, 0x0, .SH, 0x0, [⟨"", 0, 16⟩]⟩,
   ⟨"BMP_PAL", 0x168, 4, 0x4, .SH, 0x0, [⟨"", 0, 30⟩]⟩,
   ⟨"BMP_ALPHA", 0x178, 1, 0x0, .SH, 0x0, [⟨"A0", 0, 8⟩, ⟨"A1", 8, 8⟩, ⟨"A2", 16, 8⟩, ⟨"A3", 24, 8⟩]⟩,
   ⟨"FRAMES_OUT", 0x1C0, 1, 0x0, .RO, 0x0, [⟨"", 0, 32⟩]⟩,
   ⟨"DROPPED", 0x1C4, 1, 0x0, .RO, 0x0, [⟨"", 0, 32⟩]⟩,
   ⟨"CROP_CLIPPED", 0x1C8, 1, 0x0, .RO, 0x0, [⟨"", 0, 32⟩]⟩,
   ⟨"CNT_RESTART", 0x1CC, 1, 0x0, .WO, 0x0, [⟨"", 0, 1⟩]⟩]

/-- The registers of page GLC (09_glasshouse.md). -/
def rowsGLC : List RegRow :=
  [⟨"CNT_RESTART", 0x040, 1, 0x0, .WO, 0x0, [⟨"", 0, 6⟩]⟩,
   ⟨"ENG_ITEMS", 0x048, 6, 0x4, .RO, 0x0, [⟨"", 0, 32⟩]⟩,
   ⟨"ENG_SES", 0x060, 6, 0x4, .RO, 0x0, [⟨"SESSION", 0, 5⟩, ⟨"VALID", 8, 1⟩]⟩]

/-- The registers of page GLS (09_glasshouse.md). -/
def rowsGLS : List RegRow :=
  [⟨"FAULT_SES", 0x040, 1, 0x0, .RO, 0x0, [⟨"", 0, 5⟩]⟩,
   ⟨"CNT_RESTART", 0x044, 1, 0x0, .WO, 0x0, [⟨"", 0, 32⟩]⟩,
   ⟨"SES_CFG", 0x100, 32, 0x60, .SH, 0x0, [⟨"EN", 0, 1⟩, ⟨"DIR", 1, 1⟩, ⟨"STD", 2, 1⟩, ⟨"ENG_MASK", 4, 4⟩, ⟨"CHROMA", 8, 2⟩, ⟨"DEPTH10", 12, 1⟩, ⟨"FLOW", 16, 7⟩, ⟨"OUT_TO_VIEW", 24, 1⟩, ⟨"OUT_SRC", 25, 1⟩]⟩,
   ⟨"PROFILE_LEVEL", 0x104, 32, 0x60, .SH, 0x5D02, [⟨"PROFILE", 0, 8⟩, ⟨"LEVEL", 8, 8⟩, ⟨"TIER", 16, 1⟩]⟩,
   ⟨"PIC_SIZE", 0x108, 32, 0x60, .SH, 0x8700F00, [⟨"W", 0, 14⟩, ⟨"H", 16, 14⟩]⟩,
   ⟨"SRC", 0x10C, 32, 0x60, .SH, 0x0, [⟨"VIEW", 0, 3⟩]⟩,
   ⟨"PACE_NUM", 0x110, 32, 0x60, .SH, 0x18, [⟨"", 0, 32⟩]⟩,
   ⟨"PACE_DEN", 0x114, 32, 0x60, .SH, 0x1, [⟨"", 0, 32⟩]⟩,
   ⟨"PACE_START_LO", 0x118, 32, 0x60, .SH, 0x0, [⟨"", 0, 32⟩]⟩,
   ⟨"PACE_START_HI", 0x11C, 32, 0x60, .SH, 0x0, [⟨"", 0, 8⟩]⟩,
   ⟨"GOP", 0x120, 32, 0x60, .SH, 0x10000, [⟨"IDR_PERIOD", 0, 16⟩, ⟨"MAX_REFS", 16, 3⟩]⟩,
   ⟨"SEARCH", 0x124, 32, 0x60, .SH, 0x800040, [⟨"SR_H", 0, 9⟩, ⟨"H_WIN", 16, 9⟩]⟩,
   ⟨"RC_CFG", 0x128, 32, 0x60, .SH, 0x33001E00, [⟨"MODE", 0, 2⟩, ⟨"I_OFS", 4, 4⟩, ⟨"QP_INIT", 8, 6⟩, ⟨"QP_MIN", 16, 6⟩, ⟨"QP_MAX", 24, 6⟩]⟩,
   ⟨"BITRATE", 0x12C, 32, 0x60, .SH, 0x0, [⟨"", 0, 32⟩]⟩,
   ⟨"MAXRATE", 0x130, 32, 0x60, .SH, 0x0, [⟨"", 0, 32⟩]⟩,
   ⟨"CPB_SIZE", 0x134, 32, 0x60, .SH, 0x0, [⟨"", 0, 32⟩]⟩,
   ⟨"RING_UNIT", 0x138, 32, 0x60, .SH, 0x0, [⟨"", 0, 24⟩]⟩,
   ⟨"RING_UNITS", 0x13C, 32, 0x60, .SH, 0x0, [⟨"", 0, 20⟩]⟩,
   ⟨"WR_PTR", 0x140, 32, 0x60, .RW, 0x0, [⟨"", 0, 32⟩]⟩,
   ⟨"RD_PTR", 0x144, 32, 0x60, .RW, 0x0, [⟨"", 0, 32⟩]⟩,
   ⟨"STAT_UNIT", 0x148, 32, 0x60, .SH, 0x0, [⟨"", 0, 24⟩]⟩,
   ⟨"STAT_CFG", 0x14C, 32, 0x60, .SH, 0x0, [⟨"EN", 0, 1⟩, ⟨"STRIDE", 8, 20⟩]⟩,
   ⟨"SES_CMD", 0x150, 32, 0x60, .WO, 0x0, [⟨"", 0, 2⟩]⟩,
   ⟨"SES_STAT", 0x154, 32, 0x60, .RO, 0x0, [⟨"STATE", 0, 2⟩]⟩,
   ⟨"PICTURES", 0x158, 32, 0x60, .RO, 0x0, [⟨"", 0, 32⟩]⟩]

/-- The registers of page GLP (09_glasshouse.md). -/
def rowsGLP : List RegRow :=
  [⟨"GEN", 0x040, 1, 0x0, .RO, 0x0, [⟨"", 0, 8⟩]⟩,
   ⟨"BUF_SEL", 0x044, 1, 0x0, .RW, 0x0, [⟨"", 0, 6⟩]⟩,
   ⟨"BUF_UNIT", 0x048, 1, 0x0, .RW, 0x0, [⟨"", 0, 24⟩]⟩,
   ⟨"BUF_OWNER", 0x04C, 1, 0x0, .RW, 0x0, [⟨"SESSION", 0, 5⟩, ⟨"ASSIGNED", 8, 1⟩]⟩,
   ⟨"BUF_STAT", 0x050, 1, 0x0, .RO, 0x0, [⟨"MARK", 0, 2⟩, ⟨"OUTPUT_PENDING", 2, 1⟩, ⟨"STAMP", 8, 8⟩]⟩,
   ⟨"H_CMD", 0x054, 1, 0x0, .WO, 0x0, [⟨"HANDLE", 0, 16⟩, ⟨"OP", 16, 3⟩]⟩,
   ⟨"H_STAT", 0x058, 1, 0x0, .RO, 0x0, [⟨"RESULT", 0, 2⟩]⟩,
   ⟨"STALE", 0x05C, 1, 0x0, .RO, 0x0, [⟨"", 0, 32⟩]⟩,
   ⟨"DESC_UNIT", 0x060, 1, 0x0, .RW, 0x0, [⟨"", 0, 24⟩]⟩,
   ⟨"STALE_RESTART", 0x064, 1, 0x0, .WO, 0x0, [⟨"", 0, 1⟩]⟩]

/-- The registers of page BTH (10_boathouse.md). -/
def rowsBTH : List RegRow :=
  [⟨"STAGE_UNIT", 0x040, 1, 0x0, .RW, 0x0, [⟨"", 0, 24⟩]⟩,
   ⟨"CKPT_ROUNDS", 0x044, 1, 0x0, .RW, 0x2000, [⟨"", 0, 16⟩]⟩,
   ⟨"WR_MAX", 0x048, 1, 0x0, .RW, 0x2, [⟨"", 0, 2⟩]⟩,
   ⟨"FAULT_VOL", 0x04C, 1, 0x0, .RO, 0x0, [⟨"", 0, 4⟩]⟩,
   ⟨"CNT_RESTART", 0x050, 1, 0x0, .WO, 0x0, [⟨"", 0, 8⟩]⟩,
   ⟨"VOL_CFG", 0x100, 16, 0x40, .RW, 0x400000, [⟨"EN", 0, 1⟩, ⟨"M", 8, 6⟩, ⟨"J", 16, 13⟩]⟩,
   ⟨"EXT_STRIPES", 0x104, 16, 0x40, .RW, 0x0, [⟨"", 0, 27⟩]⟩,
   ⟨"FORMAT_ID", 0x108, 16, 0x40, .RW, 0x0, [⟨"", 0, 32⟩]⟩,
   ⟨"VOL_CMD", 0x10C, 16, 0x40, .WO, 0x0, [⟨"", 0, 2⟩]⟩,
   ⟨"VOL_STAT", 0x110, 16, 0x40, .RO, 0x0, [⟨"STATE", 0, 3⟩]⟩,
   ⟨"APPEND", 0x114, 16, 0x40, .RO, 0x0, [⟨"", 0, 32⟩]⟩,
   ⟨"NEXT_TAKE", 0x118, 16, 0x40, .RO, 0x0, [⟨"", 0, 32⟩]⟩,
   ⟨"JNL_USED", 0x11C, 16, 0x40, .RO, 0x0, [⟨"", 0, 32⟩]⟩,
   ⟨"CH_CFG", 0x500, 8, 0x40, .RW, 0x0, [⟨"EN", 0, 1⟩, ⟨"KIND", 1, 1⟩, ⟨"SRC", 4, 5⟩, ⟨"VOL", 12, 4⟩]⟩,
   ⟨"CH_CMD", 0x504, 8, 0x40, .WO, 0x0, [⟨"", 0, 3⟩]⟩,
   ⟨"CH_STAT", 0x508, 8, 0x40, .RO, 0x0, [⟨"STATE", 0, 2⟩, ⟨"REASON", 4, 4⟩]⟩,
   ⟨"CH_TAKE", 0x50C, 8, 0x40, .RO, 0x0, [⟨"", 0, 32⟩]⟩,
   ⟨"CH_LAST", 0x510, 8, 0x40, .RO, 0x0, [⟨"", 0, 32⟩]⟩,
   ⟨"ABANDONED", 0x514, 8, 0x40, .RO, 0x0, [⟨"", 0, 32⟩]⟩,
   ⟨"GAPS", 0x518, 8, 0x40, .RO, 0x0, [⟨"", 0, 32⟩]⟩,
   ⟨"FETCH_VOL", 0x700, 1, 0x0, .RW, 0x0, [⟨"", 0, 4⟩]⟩,
   ⟨"FETCH_OFS_LO", 0x704, 1, 0x0, .RW, 0x0, [⟨"", 12, 20⟩]⟩,
   ⟨"FETCH_OFS_HI", 0x708, 1, 0x0, .RW, 0x0, [⟨"", 0, 20⟩]⟩,
   ⟨"FETCH_DST", 0x70C, 1, 0x0, .RW, 0x0, [⟨"", 0, 24⟩]⟩,
   ⟨"FETCH_UNITS", 0x710, 1, 0x0, .RW, 0x0, [⟨"", 0, 24⟩]⟩,
   ⟨"FETCH_CMD", 0x714, 1, 0x0, .WO, 0x0, [⟨"", 0, 1⟩]⟩,
   ⟨"FETCH_STAT", 0x718, 1, 0x0, .RO, 0x0, [⟨"BUSY", 0, 1⟩, ⟨"DONE", 1, 1⟩, ⟨"ERR", 2, 1⟩]⟩,
   ⟨"VM_SEL", 0x800, 1, 0x0, .RW, 0x0, [⟨"VOL", 0, 4⟩, ⟨"SLOT", 8, 5⟩]⟩,
   ⟨"VM_DATA", 0x804, 1, 0x0, .RW, 0x0, [⟨"MEMBER", 0, 5⟩, ⟨"EXT_BASE", 5, 27⟩]⟩]

/-- The registers of page BTM (10_boathouse.md). -/
def rowsBTM : List RegRow :=
  [⟨"FAULT_MEM", 0x040, 1, 0x0, .RO, 0x0, [⟨"", 0, 5⟩]⟩,
   ⟨"CNT_RESTART", 0x044, 1, 0x0, .WO, 0x0, [⟨"", 0, 32⟩]⟩,
   ⟨"MEM_CFG", 0x100, 32, 0x20, .RW, 0x4000, [⟨"EN", 0, 1⟩, ⟨"PORT", 4, 3⟩, ⟨"QDEPTH", 8, 12⟩]⟩,
   ⟨"MEM_BAR_LO", 0x104, 32, 0x20, .RW, 0x0, [⟨"", 0, 32⟩]⟩,
   ⟨"MEM_BAR_HI", 0x108, 32, 0x20, .RW, 0x0, [⟨"", 0, 32⟩]⟩,
   ⟨"NSID", 0x10C, 32, 0x20, .RW, 0x1, [⟨"", 0, 32⟩]⟩,
   ⟨"MEM_STAT", 0x110, 32, 0x20, .RO, 0x0, [⟨"STATE", 0, 3⟩]⟩,
   ⟨"CMD_TIMEOUT", 0x114, 32, 0x20, .RW, 0x7D0, [⟨"", 0, 16⟩]⟩,
   ⟨"RETRY", 0x118, 32, 0x20, .RW, 0x2, [⟨"", 0, 2⟩]⟩]

/-- The registers of page OFC (11_offload_controller.md). -/
def rowsOFC : List RegRow :=
  [⟨"STAGE_UNIT", 0x040, 1, 0x0, .RW, 0x0, [⟨"", 0, 24⟩]⟩,
   ⟨"STAGE_UNITS", 0x044, 1, 0x0, .RW, 0x400, [⟨"", 0, 16⟩]⟩,
   ⟨"PATIENCE", 0x048, 1, 0x0, .RW, 0x100, [⟨"", 0, 16⟩]⟩,
   ⟨"SQ_SEL", 0x04C, 1, 0x0, .RW, 0x1, [⟨"", 0, 10⟩]⟩,
   ⟨"SQ_FLOW", 0x050, 1, 0x0, .RW, 0x0, [⟨"FLOW", 0, 7⟩, ⟨"EN", 8, 1⟩]⟩,
   ⟨"SQ_STAT", 0x054, 1, 0x0, .RO, 0x0, [⟨"CREATED", 0, 1⟩, ⟨"FROZEN", 1, 1⟩, ⟨"QPRIO", 4, 2⟩, ⟨"WAIT", 16, 16⟩]⟩,
   ⟨"INFLIGHT", 0x058, 1, 0x0, .RO, 0x0, [⟨"", 0, 14⟩]⟩,
   ⟨"FREEZES", 0x05C, 1, 0x0, .RO, 0x0, [⟨"", 0, 32⟩]⟩,
   ⟨"STARVED", 0x060, 1, 0x0, .RO, 0x0, [⟨"", 0, 32⟩]⟩,
   ⟨"CNT_RESTART", 0x064, 1, 0x0, .WO, 0x0, [⟨"", 0, 1⟩]⟩]

/-- The registers of page SDI (12_video_io.md). -/
def rowsSDI : List RegRow :=
  [⟨"CFG", 0x040, 1, 0x0, .SH, 0x204, [⟨"DIR", 0, 1⟩, ⟨"QUAD", 1, 1⟩, ⟨"AUTO", 2, 1⟩, ⟨"PID_CHECK", 3, 1⟩, ⟨"GENLOCK", 4, 1⟩, ⟨"BLACK_FRAMES", 8, 4⟩]⟩,
   ⟨"FMT", 0x044, 1, 0x0, .SH, 0x70010, [⟨"RASTER", 0, 4⟩, ⟨"LINK", 4, 4⟩, ⟨"SAMPLING", 8, 2⟩, ⟨"DEPTH12", 12, 1⟩, ⟨"RATE", 16, 4⟩]⟩,
   ⟨"SRC", 0x048, 1, 0x0, .SH, 0x0, [⟨"VIEW", 0, 3⟩, ⟨"BOUND", 8, 1⟩]⟩,
   ⟨"OUT_START_LO", 0x04C, 1, 0x0, .SH, 0x0, [⟨"", 0, 32⟩]⟩,
   ⟨"OUT_START_HI", 0x050, 1, 0x0, .SH, 0x0, [⟨"", 0, 8⟩]⟩,
   ⟨"OUT_OFFSET", 0x054, 1, 0x0, .SH, 0x0, [⟨"", 0, 32⟩]⟩,
   ⟨"BUF_UNIT", 0x058, 1, 0x0, .SH, 0x0, [⟨"", 0, 24⟩]⟩,
   ⟨"BUF_STRIDE", 0x05C, 1, 0x0, .SH, 0x0, [⟨"", 0, 24⟩]⟩,
   ⟨"PITCH", 0x060, 1, 0x0, .SH, 0x0, [⟨"", 0, 20⟩]⟩,
   ⟨"NBUF", 0x064, 1, 0x0, .SH, 0x3, [⟨"", 0, 3⟩]⟩,
   ⟨"DESC_UNIT", 0x068, 1, 0x0, .SH, 0x0, [⟨"", 0, 24⟩]⟩,
   ⟨"DET_FMT", 0x06C, 1, 0x0, .RO, 0x0, [⟨"FORMAT", 0, 20⟩, ⟨"VALID", 31, 1⟩]⟩,
   ⟨"FRAMES", 0x080, 1, 0x0, .RO, 0x0, [⟨"", 0, 32⟩]⟩,
   ⟨"CRC_ERR", 0x084, 1, 0x0, .RO, 0x0, [⟨"", 0, 32⟩]⟩,
   ⟨"PID_MISMATCH", 0x088, 1, 0x0, .RO, 0x0, [⟨"", 0, 32⟩]⟩,
   ⟨"MISMATCH", 0x08C, 1, 0x0, .RO, 0x0, [⟨"", 0, 32⟩]⟩,
   ⟨"CLAMPED", 0x090, 1, 0x0, .RO, 0x0, [⟨"", 0, 32⟩]⟩,
   ⟨"DROPPED", 0x094, 1, 0x0, .RO, 0x0, [⟨"", 0, 32⟩]⟩,
   ⟨"CNT_RESTART", 0x098, 1, 0x0, .WO, 0x0, [⟨"", 0, 1⟩]⟩]

/-- The registers of page BLV (12_video_io.md). -/
def rowsBLV : List RegRow :=
  [⟨"LINK_CFG", 0x040, 1, 0x0, .SH, 0x1004, [⟨"LANES", 0, 3⟩, ⟨"MODE", 4, 1⟩, ⟨"PIXFMT", 5, 1⟩, ⟨"VRR_EN", 6, 1⟩, ⟨"STATIC_EN", 7, 1⟩, ⟨"TE_EN", 8, 1⟩, ⟨"CHG", 9, 1⟩, ⟨"BLANK_FRAMES", 12, 4⟩]⟩,
   ⟨"LANE_RATE", 0x044, 1, 0x0, .SH, 0x3E8, [⟨"", 0, 13⟩]⟩,
   ⟨"PCLK", 0x048, 1, 0x0, .SH, 0x0, [⟨"", 0, 20⟩]⟩,
   ⟨"ACT", 0x04C, 1, 0x0, .SH, 0x0, [⟨"H_ACT", 0, 14⟩, ⟨"V_ACT", 16, 14⟩]⟩,
   ⟨"HSYNC", 0x050, 1, 0x0, .SH, 0x0, [⟨"HSA", 0, 10⟩, ⟨"HBP", 16, 10⟩]⟩,
   ⟨"HFP", 0x054, 1, 0x0, .SH, 0x0, [⟨"", 0, 10⟩]⟩,
   ⟨"VSYNC", 0x058, 1, 0x0, .SH, 0x0, [⟨"VSA", 0, 8⟩, ⟨"VBP", 8, 12⟩]⟩,
   ⟨"VFP", 0x05C, 1, 0x0, .SH, 0x0, [⟨"VFP_MIN", 0, 16⟩, ⟨"VFP_MAX", 16, 16⟩]⟩,
   ⟨"BG_COLOUR", 0x060, 1, 0x0, .SH, 0x0, [⟨"", 0, 30⟩]⟩,
   ⟨"TIMING_LAYER", 0x064, 1, 0x0, .SH, 0x0, [⟨"", 0, 2⟩]⟩,
   ⟨"L_CFG", 0x100, 3, 0x10, .SH, 0x0, [⟨"EN", 0, 1⟩, ⟨"VIEW", 4, 3⟩, ⟨"ALPHA", 8, 8⟩]⟩,
   ⟨"L_POS", 0x104, 3, 0x10, .SH, 0x0, [⟨"L_X", 0, 14⟩, ⟨"L_Y", 16, 14⟩]⟩,
   ⟨"CMD_DATA", 0x200, 1, 0x0, .RW, 0x0, [⟨"", 0, 8⟩]⟩,
   ⟨"CMD", 0x204, 1, 0x0, .WO, 0x0, [⟨"LEN", 0, 7⟩, ⟨"DATA_TYPE", 8, 6⟩, ⟨"GO", 16, 1⟩, ⟨"READ", 17, 1⟩]⟩,
   ⟨"CMD_STAT", 0x208, 1, 0x0, .RO, 0x0, [⟨"BUSY", 0, 1⟩, ⟨"ERR", 1, 1⟩, ⟨"RX_LEVEL", 8, 7⟩]⟩,
   ⟨"FRAMES", 0x300, 1, 0x0, .RO, 0x0, [⟨"", 0, 32⟩]⟩,
   ⟨"UNDERRUN", 0x304, 1, 0x0, .RO, 0x0, [⟨"", 0, 32⟩]⟩,
   ⟨"MISMATCH", 0x308, 1, 0x0, .RO, 0x0, [⟨"", 0, 32⟩]⟩,
   ⟨"CNT_RESTART", 0x30C, 1, 0x0, .WO, 0x0, [⟨"", 0, 1⟩]⟩]

/-- The registers of page SUN0 (13_sundial_network.md). -/
def rowsSUN0 : List RegRow :=
  [⟨"SRV_CFG", 0x040, 1, 0x0, .RW, 0xA04, [⟨"KP_SHIFT", 0, 5⟩, ⟨"KI_SHIFT", 8, 5⟩]⟩,
   ⟨"ADJ_LIM", 0x044, 1, 0x0, .RW, 0xC350000, [⟨"", 0, 31⟩]⟩,
   ⟨"JUMP_THRESH", 0x048, 1, 0x0, .RW, 0x3E8, [⟨"", 0, 24⟩]⟩,
   ⟨"ADJ", 0x04C, 1, 0x0, .RO, 0x0, [⟨"", 0, 32⟩]⟩,
   ⟨"SRV_STAT", 0x050, 1, 0x0, .RO, 0x0, [⟨"STATE", 0, 3⟩, ⟨"SEL", 4, 3⟩]⟩,
   ⟨"STEP_CMD", 0x054, 1, 0x0, .WO, 0x0, [⟨"", 0, 2⟩]⟩,
   ⟨"STEP_VALUE_LO", 0x058, 1, 0x0, .WO, 0x0, [⟨"", 0, 32⟩]⟩,
   ⟨"STEP_VALUE_HI", 0x05C, 1, 0x0, .WO, 0x0, [⟨"", 0, 32⟩]⟩,
   ⟨"SET_SEC_LO", 0x060, 1, 0x0, .WO, 0x0, [⟨"", 0, 32⟩]⟩,
   ⟨"SET_SEC_HI", 0x064, 1, 0x0, .WO, 0x0, [⟨"", 0, 16⟩]⟩,
   ⟨"SET_NS", 0x068, 1, 0x0, .WO, 0x0, [⟨"", 0, 30⟩]⟩,
   ⟨"STEP_STAT", 0x06C, 1, 0x0, .RO, 0x0, [⟨"BUSY", 0, 1⟩, ⟨"REFUSED", 1, 1⟩]⟩,
   ⟨"STEP_COUNT", 0x070, 1, 0x0, .RO, 0x0, [⟨"", 0, 32⟩]⟩,
   ⟨"CNT_RESTART", 0x074, 1, 0x0, .WO, 0x0, [⟨"", 0, 1⟩]⟩,
   ⟨"TC_CFG", 0x080, 1, 0x0, .SH, 0x10, [⟨"SRC", 0, 2⟩, ⟨"RATE", 4, 4⟩, ⟨"DF", 8, 1⟩, ⟨"LTC_OUT_EN", 9, 1⟩]⟩,
   ⟨"TAI_UTC", 0x084, 1, 0x0, .RW, 0x25, [⟨"", 0, 16⟩]⟩,
   ⟨"LOCAL_OFS", 0x088, 1, 0x0, .RW, 0x0, [⟨"", 0, 17⟩]⟩,
   ⟨"JAM_TOD", 0x08C, 1, 0x0, .RW, 0x0, [⟨"", 0, 17⟩]⟩,
   ⟨"TC_SET", 0x090, 1, 0x0, .WO, 0x0, [⟨"LABEL", 0, 30⟩, ⟨"DF", 31, 1⟩]⟩,
   ⟨"LTC_OFFSET", 0x094, 1, 0x0, .RW, 0x0, [⟨"", 0, 32⟩]⟩,
   ⟨"FP_CFG", 0x0A0, 2, 0x8, .SH, 0x1000, [⟨"EN", 0, 1⟩, ⟨"RATE", 4, 4⟩, ⟨"WIDTH", 8, 8⟩]⟩,
   ⟨"FP_OFFSET", 0x0A4, 2, 0x8, .SH, 0x0, [⟨"", 0, 32⟩]⟩]

/-- The registers of page SUN1 (13_sundial_network.md). -/
def rowsSUN1 : List RegRow :=
  [⟨"TOL", 0x040, 1, 0x0, .RW, 0x9C4000, [⟨"", 0, 31⟩]⟩,
   ⟨"AGREE", 0x044, 1, 0x0, .RW, 0x1F4000, [⟨"", 0, 31⟩]⟩,
   ⟨"OBS_INTERVAL", 0x048, 1, 0x0, .RW, 0x40, [⟨"", 0, 10⟩]⟩,
   ⟨"QUAL_TIME", 0x04C, 1, 0x0, .RW, 0x4, [⟨"", 0, 8⟩]⟩,
   ⟨"SEL_CFG", 0x050, 1, 0x0, .RW, 0x1, [⟨"AUTO", 0, 1⟩, ⟨"FORCE", 4, 3⟩]⟩,
   ⟨"REF_CFG", 0x120, 7, 0x20, .SH, 0x0, [⟨"EN", 0, 1⟩, ⟨"PRIO", 4, 3⟩, ⟨"POLICY", 8, 2⟩]⟩,
   ⟨"REF_PARAM", 0x124, 7, 0x20, .SH, 0x0, [⟨"RATE", 0, 4⟩, ⟨"PORT", 4, 1⟩, ⟨"DOMAIN", 8, 8⟩, ⟨"SYNC_LOG", 16, 4⟩]⟩,
   ⟨"REF_OFFSET", 0x128, 7, 0x20, .SH, 0x0, [⟨"", 0, 32⟩]⟩,
   ⟨"PARENT_PORT", 0x12C, 7, 0x20, .SH, 0x0, [⟨"", 0, 16⟩]⟩,
   ⟨"PARENT_ID_LO", 0x130, 7, 0x20, .WO, 0x0, [⟨"", 0, 32⟩]⟩,
   ⟨"PARENT_ID_HI", 0x134, 7, 0x20, .WO, 0x0, [⟨"", 0, 32⟩]⟩,
   ⟨"REF_STAT", 0x138, 7, 0x20, .RO, 0x0, [⟨"STATE", 0, 3⟩, ⟨"DRIFT_LOCAL", 4, 1⟩, ⟨"DRIFT_MAJ", 5, 1⟩, ⟨"SELECTED", 8, 1⟩]⟩,
   ⟨"FREQ", 0x13C, 7, 0x20, .RO, 0x0, [⟨"", 0, 32⟩]⟩]

/-- The registers of page ETH (13_sundial_network.md). -/
def rowsETH : List RegRow :=
  [⟨"PORT_CFG", 0x040, 1, 0x0, .SH, 0x0, [⟨"SPEED", 0, 1⟩, ⟨"FEC", 1, 1⟩]⟩,
   ⟨"RX_LAT", 0x044, 1, 0x0, .RW, 0x0, [⟨"", 0, 32⟩]⟩,
   ⟨"TX_LAT", 0x048, 1, 0x0, .RW, 0x0, [⟨"", 0, 32⟩]⟩,
   ⟨"ASYM", 0x04C, 1, 0x0, .RW, 0x0, [⟨"", 0, 32⟩]⟩,
   ⟨"LINK_STAT", 0x050, 1, 0x0, .RO, 0x0, [⟨"UP", 0, 1⟩, ⟨"FEC_LOCK", 1, 1⟩]⟩,
   ⟨"RX_FRAMES", 0x060, 1, 0x0, .RO, 0x0, [⟨"", 0, 32⟩]⟩,
   ⟨"TX_FRAMES", 0x064, 1, 0x0, .RO, 0x0, [⟨"", 0, 32⟩]⟩,
   ⟨"FCS_ERR", 0x068, 1, 0x0, .RO, 0x0, [⟨"", 0, 32⟩]⟩,
   ⟨"OVERSIZE", 0x06C, 1, 0x0, .RO, 0x0, [⟨"", 0, 32⟩]⟩,
   ⟨"DROPPED", 0x070, 1, 0x0, .RO, 0x0, [⟨"", 0, 32⟩]⟩,
   ⟨"CNT_RESTART", 0x074, 1, 0x0, .WO, 0x0, [⟨"", 0, 1⟩]⟩]

/-- The registers of page ETH0 (13_sundial_network.md). -/
def rowsETH0 : List RegRow :=
  [⟨"SW_CFG", 0x100, 1, 0x0, .RW, 0x1, [⟨"TC_EN", 0, 1⟩]⟩,
   ⟨"HP_DSCP_LO", 0x104, 1, 0x0, .RW, 0x0, [⟨"", 0, 32⟩]⟩,
   ⟨"HP_DSCP_HI", 0x108, 1, 0x0, .RW, 0x4004, [⟨"", 0, 32⟩]⟩,
   ⟨"AGE_TIME", 0x10C, 1, 0x0, .RW, 0x12C, [⟨"", 0, 16⟩]⟩,
   ⟨"MAC_LO", 0x110, 1, 0x0, .RW, 0x0, [⟨"", 0, 32⟩]⟩,
   ⟨"MAC_HI", 0x114, 1, 0x0, .RW, 0x0, [⟨"", 0, 16⟩]⟩,
   ⟨"IP_ADDR", 0x118, 1, 0x0, .RW, 0x0, [⟨"", 0, 32⟩]⟩,
   ⟨"MC_SEL", 0x11C, 1, 0x0, .RW, 0x0, [⟨"", 0, 6⟩]⟩,
   ⟨"MC_GROUP", 0x120, 1, 0x0, .RW, 0x0, [⟨"", 0, 32⟩]⟩,
   ⟨"CTL_RX_UNIT", 0x124, 1, 0x0, .RW, 0x0, [⟨"", 0, 24⟩]⟩,
   ⟨"CTL_RX_SLOTS", 0x128, 1, 0x0, .RW, 0x0, [⟨"", 0, 12⟩]⟩,
   ⟨"CTL_RX_WR", 0x12C, 1, 0x0, .RO, 0x0, [⟨"", 0, 12⟩]⟩,
   ⟨"CTL_RX_RD", 0x130, 1, 0x0, .RW, 0x0, [⟨"", 0, 12⟩]⟩,
   ⟨"CTL_TX_UNIT", 0x134, 1, 0x0, .RW, 0x0, [⟨"", 0, 24⟩]⟩,
   ⟨"CTL_TX_SLOTS", 0x138, 1, 0x0, .RW, 0x0, [⟨"", 0, 12⟩]⟩,
   ⟨"CTL_TX_WR", 0x13C, 1, 0x0, .RW, 0x0, [⟨"", 0, 12⟩]⟩,
   ⟨"CTL_TX_RD", 0x140, 1, 0x0, .RO, 0x0, [⟨"", 0, 12⟩]⟩,
   ⟨"CTL_DROPPED", 0x144, 1, 0x0, .RO, 0x0, [⟨"", 0, 32⟩]⟩]

/-- The registers of page IPS (13_sundial_network.md). -/
def rowsIPS : List RegRow :=
  [⟨"FAULT_SND", 0x040, 1, 0x0, .RO, 0x0, [⟨"", 0, 4⟩]⟩,
   ⟨"CNT_RESTART", 0x044, 1, 0x0, .WO, 0x0, [⟨"", 0, 16⟩]⟩,
   ⟨"SND_CFG", 0x100, 16, 0x40, .SH, 0x0, [⟨"EN", 0, 1⟩, ⟨"ESS", 1, 2⟩, ⟨"PATHS", 4, 2⟩, ⟨"TYPE", 8, 2⟩, ⟨"PACK", 10, 1⟩, ⟨"TS_MODE", 11, 1⟩, ⟨"SRC", 12, 4⟩, ⟨"FLOW", 16, 7⟩]⟩,
   ⟨"DST_IP_A", 0x104, 16, 0x40, .SH, 0x0, [⟨"", 0, 32⟩]⟩,
   ⟨"DST_IP_B", 0x108, 16, 0x40, .SH, 0x0, [⟨"", 0, 32⟩]⟩,
   ⟨"UDP", 0x10C, 16, 0x40, .SH, 0x0, [⟨"DST", 0, 16⟩, ⟨"SRC", 16, 16⟩]⟩,
   ⟨"SSRC", 0x110, 16, 0x40, .SH, 0x0, [⟨"", 0, 32⟩]⟩,
   ⟨"RTP", 0x114, 16, 0x40, .SH, 0x402E60, [⟨"PT", 0, 7⟩, ⟨"DSCP", 8, 6⟩, ⟨"TTL", 16, 8⟩]⟩,
   ⟨"PACE_NUM", 0x118, 16, 0x40, .SH, 0x18, [⟨"", 0, 32⟩]⟩,
   ⟨"PACE_DEN", 0x11C, 16, 0x40, .SH, 0x1, [⟨"", 0, 32⟩]⟩,
   ⟨"MEDIA", 0x120, 16, 0x40, .SH, 0x4EC, [⟨"MAX_PAYLOAD", 0, 11⟩, ⟨"SLOT0", 11, 5⟩, ⟨"CH", 16, 6⟩, ⟨"PTIME", 24, 1⟩, ⟨"L16", 25, 1⟩, ⟨"SR96", 26, 1⟩]⟩,
   ⟨"TRO", 0x124, 16, 0x40, .SH, 0x0, [⟨"", 0, 24⟩]⟩,
   ⟨"RACTIVE", 0x128, 16, 0x40, .SH, 0x4650438, [⟨"NUM", 0, 16⟩, ⟨"DEN", 16, 16⟩]⟩,
   ⟨"BURST", 0x12C, 16, 0x40, .SH, 0x4, [⟨"", 0, 8⟩]⟩,
   ⟨"NPACKETS", 0x130, 16, 0x40, .RO, 0x0, [⟨"", 0, 20⟩]⟩,
   ⟨"SENT_FRAMES", 0x134, 16, 0x40, .RO, 0x0, [⟨"", 0, 32⟩]⟩,
   ⟨"LATE_PKTS", 0x138, 16, 0x40, .RO, 0x0, [⟨"", 0, 32⟩]⟩,
   ⟨"ANC_UNIT", 0x13C, 16, 0x40, .SH, 0x0, [⟨"", 0, 24⟩]⟩]

/-- The registers of page IPR (13_sundial_network.md). -/
def rowsIPR : List RegRow :=
  [⟨"FAULT_RCV", 0x040, 1, 0x0, .RO, 0x0, [⟨"", 0, 4⟩]⟩,
   ⟨"CNT_RESTART", 0x044, 1, 0x0, .WO, 0x0, [⟨"", 0, 16⟩]⟩,
   ⟨"RCV_CFG", 0x100, 16, 0x40, .SH, 0x0, [⟨"EN", 0, 1⟩, ⟨"ESS", 1, 2⟩, ⟨"PATHS", 4, 2⟩, ⟨"MISSING_FILL", 8, 1⟩, ⟨"MEAS_PATH", 9, 1⟩, ⟨"FLOW", 16, 7⟩]⟩,
   ⟨"GROUP_A", 0x104, 16, 0x40, .SH, 0x0, [⟨"", 0, 32⟩]⟩,
   ⟨"GROUP_B", 0x108, 16, 0x40, .SH, 0x0, [⟨"", 0, 32⟩]⟩,
   ⟨"SRC_FILTER", 0x10C, 16, 0x40, .SH, 0x0, [⟨"", 0, 32⟩]⟩,
   ⟨"UDP_DST", 0x110, 16, 0x40, .SH, 0x0, [⟨"", 0, 16⟩]⟩,
   ⟨"VFMT", 0x114, 16, 0x40, .SH, 0x0, [⟨"W", 0, 14⟩, ⟨"H", 16, 14⟩]⟩,
   ⟨"VFMT2", 0x118, 16, 0x40, .SH, 0x0, [⟨"SAMPLING", 0, 2⟩, ⟨"DEPTH12", 4, 1⟩, ⟨"RATE", 8, 4⟩]⟩,
   ⟨"BUF_UNIT", 0x11C, 16, 0x40, .SH, 0x0, [⟨"", 0, 24⟩]⟩,
   ⟨"BUF_STRIDE", 0x120, 16, 0x40, .SH, 0x0, [⟨"", 0, 24⟩]⟩,
   ⟨"PITCH", 0x124, 16, 0x40, .SH, 0x0, [⟨"", 0, 20⟩]⟩,
   ⟨"NBUF", 0x128, 16, 0x40, .SH, 0x3, [⟨"", 0, 3⟩]⟩,
   ⟨"DESC_UNIT", 0x12C, 16, 0x40, .SH, 0x0, [⟨"", 0, 24⟩]⟩,
   ⟨"TRO", 0x130, 16, 0x40, .SH, 0x0, [⟨"", 0, 24⟩]⟩,
   ⟨"RACTIVE", 0x134, 16, 0x40, .SH, 0x4650438, [⟨"NUM", 0, 16⟩, ⟨"DEN", 16, 16⟩]⟩,
   ⟨"FRAMES", 0x138, 16, 0x40, .RO, 0x0, [⟨"", 0, 32⟩]⟩,
   ⟨"LOST", 0x13C, 16, 0x40, .RO, 0x0, [⟨"", 0, 32⟩]⟩]

/-- The registers of page BND (14_bandstand.md). -/
def rowsBND : List RegRow :=
  [⟨"EMB", 0x040, 4, 0x4, .SH, 0x0, [⟨"PORT", 0, 2⟩, ⟨"SLOT0", 4, 5⟩, ⟨"EN", 12, 1⟩]⟩,
   ⟨"CNT_RESTART", 0x050, 1, 0x0, .WO, 0x0, [⟨"", 0, 4⟩]⟩,
   ⟨"PORT_CFG", 0x100, 4, 0x80, .SH, 0x210C1100, [⟨"EN", 0, 1⟩, ⟨"DIR", 1, 1⟩, ⟨"MASTER", 2, 1⟩, ⟨"MODE", 3, 2⟩, ⟨"FS_POL", 5, 1⟩, ⟨"BCLK_EDGE", 6, 1⟩, ⟨"INTERNAL", 7, 1⟩, ⟨"RATE", 8, 3⟩, ⟨"SLOTS", 12, 5⟩, ⟨"SLOT_W", 17, 2⟩, ⟨"DATA_W", 19, 2⟩, ⟨"OFFSET", 24, 4⟩, ⟨"MUTE_NONPCM", 28, 1⟩, ⟨"LOCK", 29, 1⟩]⟩,
   ⟨"LAT", 0x104, 4, 0x80, .SH, 0x40, [⟨"", 0, 10⟩]⟩,
   ⟨"PHASE_OFS", 0x108, 4, 0x80, .SH, 0x0, [⟨"", 0, 32⟩]⟩,
   ⟨"MCLK_CFG", 0x10C, 4, 0x80, .SH, 0x0, [⟨"MCLK_EN", 0, 1⟩, ⟨"X512", 1, 1⟩]⟩,
   ⟨"HOLD_FRAMES", 0x110, 4, 0x80, .SH, 0x2000, [⟨"", 0, 16⟩]⟩,
   ⟨"NONPCM", 0x114, 4, 0x80, .RO, 0x0, [⟨"", 0, 16⟩]⟩,
   ⟨"FRAMES", 0x120, 4, 0x80, .RO, 0x0, [⟨"", 0, 32⟩]⟩,
   ⟨"SLIPS", 0x124, 4, 0x80, .RO, 0x0, [⟨"", 0, 32⟩]⟩,
   ⟨"LATE_SAMPLES", 0x128, 4, 0x80, .RO, 0x0, [⟨"", 0, 32⟩]⟩,
   ⟨"ROUTE_SEL", 0x600, 1, 0x0, .RW, 0x0, [⟨"", 0, 7⟩]⟩,
   ⟨"ROUTE_DATA", 0x604, 1, 0x0, .SH, 0x0, [⟨"KIND", 0, 3⟩, ⟨"INDEX", 8, 4⟩, ⟨"CH", 16, 5⟩]⟩]

/-- The registers of page MC (15_memory.md). -/
def rowsMC : List RegRow :=
  [⟨"WR_WM", 0x040, 1, 0x0, .RW, 0x1030, [⟨"WR_HI", 0, 6⟩, ⟨"WR_LO", 8, 6⟩]⟩,
   ⟨"WR_PATIENCE", 0x044, 1, 0x0, .RW, 0xFA0, [⟨"", 0, 12⟩]⟩,
   ⟨"ADM_CAP", 0x048, 1, 0x0, .RO, 0x0, [⟨"", 0, 16⟩]⟩,
   ⟨"CNT_RESTART", 0x04C, 1, 0x0, .WO, 0x0, [⟨"", 0, 4⟩]⟩,
   ⟨"CE_LINK", 0x100, 4, 0x20, .RO, 0x0, [⟨"", 0, 32⟩]⟩,
   ⟨"CE_INLINE", 0x104, 4, 0x20, .RO, 0x0, [⟨"", 0, 32⟩]⟩,
   ⟨"UE", 0x108, 4, 0x20, .RO, 0x0, [⟨"", 0, 32⟩]⟩,
   ⟨"FORCED_REF", 0x10C, 4, 0x20, .RO, 0x0, [⟨"", 0, 32⟩]⟩,
   ⟨"WR_URGENT", 0x110, 4, 0x20, .RO, 0x0, [⟨"", 0, 32⟩]⟩,
   ⟨"REF_DEBT", 0x114, 4, 0x20, .RO, 0x0, [⟨"", 0, 4⟩]⟩]

/-- The registers of page MCT (15_memory.md). -/
def rowsMCT : List RegRow :=
  [⟨"DRAM_CFG", 0x040, 1, 0x0, .RW, 0x0, [⟨"TYPE", 0, 1⟩, ⟨"RATE", 1, 3⟩, ⟨"DENSITY", 4, 2⟩, ⟨"RANKS2", 6, 1⟩, ⟨"INLINE_ECC", 8, 1⟩, ⟨"LINK_ECC", 9, 1⟩]⟩,
   ⟨"ADDR_MAP", 0x044, 1, 0x0, .DG, 0x1, [⟨"GRP_IL", 0, 1⟩]⟩,
   ⟨"TRAIN_CMD", 0x048, 1, 0x0, .WO, 0x0, [⟨"", 0, 1⟩]⟩,
   ⟨"TRAIN_STAT", 0x04C, 1, 0x0, .RO, 0x0, [⟨"STATE", 0, 2⟩]⟩,
   ⟨"LANE_FAIL", 0x050, 1, 0x0, .RO, 0x0, [⟨"", 0, 32⟩]⟩,
   ⟨"RECENTRE_MS", 0x054, 1, 0x0, .RW, 0x10, [⟨"", 0, 8⟩]⟩,
   ⟨"CAPACITY", 0x058, 1, 0x0, .RO, 0x0, [⟨"", 0, 17⟩]⟩,
   ⟨"LANE_SEL", 0x05C, 1, 0x0, .RW, 0x0, [⟨"", 0, 5⟩]⟩,
   ⟨"LANE_POS", 0x060, 1, 0x0, .RO, 0x0, [⟨"RD_DLY", 0, 7⟩, ⟨"WR_DLY", 8, 7⟩, ⟨"RD_VREF", 16, 6⟩, ⟨"WR_VREF", 24, 6⟩, ⟨"LANE_DRIFT", 31, 1⟩]⟩,
   ⟨"RECENTRE_COUNT", 0x064, 1, 0x0, .RO, 0x0, [⟨"", 0, 32⟩]⟩]

/-- The registers of page ARB (16_arbour.md). -/
def rowsARB : List RegRow :=
  [⟨"DESC_UNIT", 0x040, 1, 0x0, .RW, 0x0, [⟨"", 0, 24⟩]⟩,
   ⟨"DESC_SLOTS", 0x044, 1, 0x0, .RW, 0x40, [⟨"", 0, 13⟩]⟩,
   ⟨"SUB_IDX", 0x048, 1, 0x0, .RW, 0x0, [⟨"", 0, 12⟩]⟩,
   ⟨"DONE_IDX", 0x04C, 1, 0x0, .RO, 0x0, [⟨"", 0, 12⟩]⟩,
   ⟨"SEEN_IDX", 0x050, 1, 0x0, .RW, 0x0, [⟨"", 0, 12⟩]⟩,
   ⟨"CHECK_MID", 0x054, 1, 0x0, .RW, 0x0, [⟨"", 0, 9⟩]⟩,
   ⟨"JOBS", 0x058, 1, 0x0, .RO, 0x0, [⟨"", 0, 32⟩]⟩,
   ⟨"FAILED", 0x05C, 1, 0x0, .RO, 0x0, [⟨"", 0, 32⟩]⟩,
   ⟨"CNT_RESTART", 0x060, 1, 0x0, .WO, 0x0, [⟨"", 0, 1⟩]⟩]

/-- The registers of page DOV (17_housekeeping.md). -/
def rowsDOV : List RegRow :=
  [⟨"ADC_CFG", 0x040, 1, 0x0, .SH, 0x1, [⟨"REF_SEL", 0, 1⟩, ⟨"LP_EN", 1, 1⟩]⟩,
   ⟨"CAL_CFG", 0x044, 1, 0x0, .RW, 0x4010, [⟨"CAL_ROUNDS", 0, 8⟩, ⟨"CAL_PATIENCE", 8, 8⟩]⟩,
   ⟨"DRIFT_TOL", 0x048, 1, 0x0, .RW, 0x7D0, [⟨"", 0, 16⟩]⟩,
   ⟨"DRIFT_AGREE", 0x04C, 1, 0x0, .RW, 0x1F4, [⟨"", 0, 16⟩]⟩,
   ⟨"OBS_INTERVAL", 0x050, 1, 0x0, .RW, 0x400, [⟨"", 0, 16⟩]⟩,
   ⟨"REF_STAT", 0x054, 1, 0x0, .RO, 0x0, [⟨"DRIFT", 0, 1⟩, ⟨"DRIFT_LOCAL", 1, 1⟩, ⟨"DRIFT_MAJ", 2, 1⟩, ⟨"HELD", 16, 16⟩]⟩,
   ⟨"CAL_STAT", 0x058, 1, 0x0, .RO, 0x3, [⟨"SPARE", 0, 2⟩, ⟨"CAL_WAIT", 8, 8⟩]⟩,
   ⟨"CAL_REJECT", 0x05C, 1, 0x0, .RO, 0x0, [⟨"", 0, 32⟩]⟩,
   ⟨"OVERRUN", 0x060, 1, 0x0, .RO, 0x0, [⟨"", 0, 32⟩]⟩,
   ⟨"CNT_RESTART", 0x064, 1, 0x0, .WO, 0x0, [⟨"", 0, 1⟩]⟩,
   ⟨"SLICE_CAL", 0x080, 4, 0x4, .RO, 0x8000, [⟨"GAIN", 0, 16⟩, ⟨"OFS", 16, 16⟩]⟩,
   ⟨"CH_CORR", 0x0C0, 20, 0x4, .RW, 0x8000, [⟨"CH_GAIN", 0, 16⟩, ⟨"CH_OFS", 16, 16⟩]⟩,
   ⟨"SW_TRIG", 0x110, 1, 0x0, .WO, 0x0, [⟨"", 8, 24⟩]⟩,
   ⟨"SLOT_CFG", 0x200, 24, 0x10, .SH, 0x0, [⟨"EN", 0, 1⟩, ⟨"URGENT", 1, 1⟩, ⟨"LP_KEEP", 2, 1⟩, ⟨"TRIG", 4, 2⟩, ⟨"CH", 8, 5⟩, ⟨"PWM_CH", 16, 3⟩]⟩,
   ⟨"PERIOD_US", 0x204, 24, 0x10, .SH, 0x3E8, [⟨"", 0, 20⟩]⟩,
   ⟨"DELAY", 0x208, 24, 0x10, .SH, 0x0, [⟨"", 0, 16⟩]⟩,
   ⟨"LIMIT", 0x20C, 24, 0x10, .SH, 0xFFFF0000, [⟨"LO", 0, 16⟩, ⟨"HI", 16, 16⟩]⟩,
   ⟨"RESULT_FIXED", 0x500, 8, 0x4, .RO, 0x0, [⟨"", 0, 20⟩]⟩,
   ⟨"RESULT", 0x520, 24, 0x4, .RO, 0x0, [⟨"VALUE", 0, 16⟩, ⟨"VALID", 16, 1⟩, ⟨"OUT_OF_LIMIT", 17, 1⟩, ⟨"CAL_OLD", 18, 1⟩]⟩,
   ⟨"LIMIT_STAT", 0x580, 1, 0x0, .RO, 0x0, [⟨"", 8, 24⟩]⟩,
   ⟨"PWM_CFG", 0x400, 8, 0x10, .SH, 0x0, [⟨"EN", 0, 1⟩, ⟨"POL", 1, 1⟩]⟩,
   ⟨"PERIOD", 0x404, 8, 0x10, .SH, 0x2710, [⟨"", 0, 24⟩]⟩,
   ⟨"DUTY", 0x408, 8, 0x10, .SH, 0x0, [⟨"", 0, 24⟩]⟩,
   ⟨"EVT_CNT", 0x40C, 8, 0x10, .SH, 0x0, [⟨"", 0, 24⟩]⟩]

/-- The registers of page ICE (17_housekeeping.md). -/
def rowsICE : List RegRow :=
  [⟨"T_AMB", 0x040, 1, 0x0, .SH, 0x2800, [⟨"", 0, 16⟩]⟩,
   ⟨"THR_CFG", 0x044, 1, 0x0, .SH, 0x40085F, [⟨"START", 0, 8⟩, ⟨"SLOPE", 8, 8⟩, ⟨"MAX", 16, 8⟩]⟩,
   ⟨"WARN", 0x048, 1, 0x0, .SH, 0x69, [⟨"", 0, 8⟩]⟩,
   ⟨"ALPHA_0", 0x050, 1, 0x0, .SH, 0x2AF31E, [⟨"", 0, 24⟩]⟩,
   ⟨"ALPHA_1", 0x058, 1, 0x0, .SH, 0x1CA214, [⟨"", 0, 24⟩]⟩,
   ⟨"ALPHA_2", 0x060, 1, 0x0, .SH, 0x2AF31E, [⟨"", 0, 24⟩]⟩,
   ⟨"ALPHA_3", 0x068, 1, 0x0, .SH, 0x15798F, [⟨"", 0, 24⟩]⟩,
   ⟨"BETA_0", 0x054, 1, 0x0, .SH, 0x14F8B, [⟨"", 0, 24⟩]⟩,
   ⟨"BETA_1", 0x05C, 1, 0x0, .SH, 0x14F8B, [⟨"", 0, 24⟩]⟩,
   ⟨"BETA_2", 0x064, 1, 0x0, .SH, 0x1A36E, [⟨"", 0, 24⟩]⟩,
   ⟨"BETA_3", 0x06C, 1, 0x0, .SH, 0x14F8B, [⟨"", 0, 24⟩]⟩,
   ⟨"GAMMA_0", 0x070, 1, 0x0, .SH, 0x6B6, [⟨"", 0, 24⟩]⟩,
   ⟨"GAMMA_1", 0x074, 1, 0x0, .SH, 0xA11, [⟨"", 0, 24⟩]⟩,
   ⟨"GAMMA_2", 0x078, 1, 0x0, .SH, 0x863, [⟨"", 0, 24⟩]⟩,
   ⟨"GAMMA_3", 0x07C, 1, 0x0, .SH, 0xD6C, [⟨"", 0, 24⟩]⟩,
   ⟨"BETA_PA", 0x080, 1, 0x0, .SH, 0x432, [⟨"", 0, 24⟩]⟩,
   ⟨"TEMP", 0x090, 5, 0x4, .RO, 0x550000, [⟨"", 0, 32⟩]⟩,
   ⟨"LEVEL", 0x0A4, 1, 0x0, .RO, 0x0, [⟨"L0", 0, 8⟩, ⟨"L1", 8, 8⟩, ⟨"L2", 16, 8⟩, ⟨"L3", 24, 8⟩]⟩,
   ⟨"LEVEL_PKG", 0x0A8, 1, 0x0, .RO, 0x0, [⟨"", 0, 8⟩]⟩,
   ⟨"FUSED_TEMP", 0x0B0, 5, 0x4, .RO, 0x550000, [⟨"", 0, 32⟩]⟩,
   ⟨"SHUTDOWN_STAT", 0x0C4, 1, 0x0, .RO, 0x0, [⟨"LAST", 0, 1⟩, ⟨"NODE", 4, 3⟩, ⟨"COUNT", 16, 16⟩]⟩,
   ⟨"MODEL_CMD", 0x0C8, 1, 0x0, .WO, 0x0, [⟨"RESYNC", 0, 1⟩]⟩]

/-- The registers of page FLK (18_multi_device.md). -/
def rowsFLK : List RegRow :=
  [⟨"LINK_CFG", 0x040, 1, 0x0, .SH, 0x0, [⟨"EN", 0, 1⟩]⟩,
   ⟨"LINK_STAT", 0x044, 1, 0x0, .RO, 0x0, [⟨"STATE", 0, 2⟩, ⟨"NEIGHBOUR_ID", 8, 4⟩, ⟨"NEIGHBOUR_VALID", 12, 1⟩]⟩,
   ⟨"ASYM", 0x048, 1, 0x0, .RW, 0x0, [⟨"", 0, 32⟩]⟩,
   ⟨"LINK_CAP", 0x04C, 1, 0x0, .RO, 0x1770, [⟨"", 0, 13⟩]⟩,
   ⟨"RES_TX", 0x050, 1, 0x0, .RO, 0x0, [⟨"", 0, 13⟩]⟩,
   ⟨"RES_RX", 0x054, 1, 0x0, .RO, 0x0, [⟨"", 0, 13⟩]⟩,
   ⟨"REPLAYS", 0x058, 1, 0x0, .RO, 0x0, [⟨"", 0, 32⟩]⟩,
   ⟨"HB_MISSED", 0x05C, 1, 0x0, .RO, 0x0, [⟨"", 0, 32⟩]⟩,
   ⟨"CNT_RESTART", 0x060, 1, 0x0, .WO, 0x0, [⟨"", 0, 1⟩]⟩,
   ⟨"CH_CFG", 0x100, 8, 0x20, .SH, 0x0, [⟨"EN", 0, 1⟩, ⟨"DIR", 1, 1⟩, ⟨"KIND", 2, 2⟩, ⟨"SRC", 4, 4⟩, ⟨"EDGE", 8, 1⟩, ⟨"TARGET", 9, 1⟩, ⟨"IPR_SLOT", 12, 4⟩]⟩,
   ⟨"RATE", 0x104, 8, 0x20, .SH, 0x0, [⟨"", 0, 13⟩]⟩,
   ⟨"BUF_UNIT", 0x108, 8, 0x20, .SH, 0x0, [⟨"", 0, 24⟩]⟩,
   ⟨"BUF_STRIDE", 0x10C, 8, 0x20, .SH, 0x0, [⟨"", 0, 24⟩]⟩,
   ⟨"NBUF", 0x110, 8, 0x20, .SH, 0x3, [⟨"", 0, 3⟩]⟩,
   ⟨"DESC_UNIT", 0x114, 8, 0x20, .SH, 0x0, [⟨"", 0, 24⟩]⟩,
   ⟨"FRAMES", 0x118, 8, 0x20, .RO, 0x0, [⟨"", 0, 32⟩]⟩,
   ⟨"DROPPED", 0x11C, 8, 0x20, .RO, 0x0, [⟨"", 0, 32⟩]⟩]

/-- The registers of page HIE (18_multi_device.md). -/
def rowsHIE : List RegRow :=
  [⟨"ROLE_CFG", 0x040, 1, 0x0, .RW, 0x0, [⟨"UP_PORT", 0, 2⟩, ⟨"UP_EN", 2, 1⟩, ⟨"DEPUTY", 4, 1⟩, ⟨"DEPUTY_RANK", 5, 2⟩]⟩,
   ⟨"HIE_STAT", 0x044, 1, 0x0, .RO, 0x0, [⟨"STATE", 0, 3⟩, ⟨"DEV_ID", 8, 4⟩, ⟨"ID_VALID", 12, 1⟩, ⟨"MGR_ALIVE", 16, 1⟩, ⟨"CAS_ROOT", 17, 1⟩]⟩,
   ⟨"EPOCH", 0x048, 1, 0x0, .RO, 0x0, [⟨"", 0, 16⟩]⟩,
   ⟨"EPOCH_CMD", 0x04C, 1, 0x0, .WO, 0x0, [⟨"", 0, 1⟩]⟩,
   ⟨"REJOIN_CMD", 0x050, 1, 0x0, .WO, 0x0, [⟨"", 0, 1⟩]⟩,
   ⟨"ALIVE_LOW", 0x054, 1, 0x0, .RO, 0x0, [⟨"", 0, 5⟩]⟩,
   ⟨"REFUSED", 0x058, 1, 0x0, .RO, 0x0, [⟨"", 0, 32⟩]⟩,
   ⟨"CNT_RESTART", 0x05C, 1, 0x0, .WO, 0x0, [⟨"", 0, 1⟩]⟩]

/-- The registers of page PMU (19_power_boot.md). -/
def rowsPMU : List RegRow :=
  [⟨"LAST_RESET", 0x040, 1, 0x0, .RO, 0x0, [⟨"", 0, 3⟩]⟩,
   ⟨"RST_CMD", 0x044, 1, 0x0, .WO, 0x0, [⟨"", 0, 32⟩]⟩,
   ⟨"WDT_CFG", 0x048, 1, 0x0, .RW, 0x3E8, [⟨"TIMEOUT_MS", 0, 16⟩, ⟨"EN", 31, 1⟩]⟩,
   ⟨"WDT_KICK", 0x04C, 1, 0x0, .WO, 0x0, [⟨"", 0, 1⟩]⟩,
   ⟨"BOOT_STAT", 0x050, 1, 0x0, .RO, 0x0, [⟨"STATE", 0, 3⟩, ⟨"COPY", 4, 2⟩, ⟨"CONFIG_DIVERGENT", 8, 1⟩, ⟨"A_BAD", 9, 1⟩, ⟨"B_BAD", 10, 1⟩]⟩,
   ⟨"BOOT_GEN", 0x054, 1, 0x0, .RO, 0x0, [⟨"", 0, 32⟩]⟩,
   ⟨"LIST_STOP", 0x058, 1, 0x0, .RO, 0xFFFF, [⟨"", 0, 16⟩]⟩,
   ⟨"VSEL", 0x05C, 1, 0x0, .RO, 0x13, [⟨"CUR", 0, 2⟩, ⟨"SETTLED", 4, 1⟩]⟩,
   ⟨"VSETTLE_US", 0x060, 1, 0x0, .RW, 0xC8, [⟨"", 0, 12⟩]⟩,
   ⟨"PWR_STAT", 0x064, 1, 0x0, .RO, 0x0, [⟨"PG", 0, 4⟩, ⟨"PG_FAIL", 8, 8⟩]⟩,
   ⟨"SLEEP_CMD", 0x068, 1, 0x0, .WO, 0x0, [⟨"", 0, 1⟩]⟩,
   ⟨"SLEEP_STAT", 0x06C, 1, 0x0, .RO, 0x0, [⟨"STATE", 0, 2⟩, ⟨"REFUSED", 4, 1⟩, ⟨"ABORTED", 5, 1⟩]⟩,
   ⟨"WAKE_CFG", 0x070, 1, 0x0, .RW, 0x1, [⟨"WAKE_PIN_EN", 0, 1⟩, ⟨"TIMER_EN", 1, 1⟩]⟩,
   ⟨"WAKE_DELAY_MS", 0x074, 1, 0x0, .RW, 0x0, [⟨"", 0, 32⟩]⟩,
   ⟨"WAKE_SRC", 0x078, 1, 0x0, .RO, 0x0, [⟨"", 0, 2⟩]⟩,
   ⟨"WARM_ENTRY", 0x07C, 1, 0x0, .RW, 0x70000, [⟨"", 0, 32⟩]⟩,
   ⟨"WARM_VALID", 0x080, 1, 0x0, .RW, 0x0, [⟨"", 0, 1⟩]⟩,
   ⟨"AON_TRIM", 0x084, 1, 0x0, .RO, 0x0, [⟨"", 0, 16⟩]⟩,
   ⟨"RCV_ADDR", 0x088, 1, 0x0, .RW, 0x0, [⟨"", 0, 20⟩]⟩,
   ⟨"RCV_DATA", 0x08C, 1, 0x0, .WO, 0x0, [⟨"", 0, 32⟩]⟩,
   ⟨"RCV_CMD", 0x090, 1, 0x0, .WO, 0x0, [⟨"", 0, 1⟩]⟩,
   ⟨"RCV_STAT", 0x094, 1, 0x0, .RO, 0x0, [⟨"BUSY", 0, 1⟩, ⟨"BAD", 1, 1⟩, ⟨"REFUSED", 2, 1⟩]⟩]

/-- The rows of a page's own registers; none for a reserved page (R36). -/
def pageRows (page : Nat) : List RegRow :=
  if page = 0x00 then rowsGLB else
  if page = 0x01 then rowsLDG else
  if page = 0x02 then rowsGTH else
  if page = 0x03 then rowsTRL else
  if page = 0x10 then rowsSFE else
  if page = 0x11 then rowsSFL else
  if page = 0x12 then rowsRCN else
  if page = 0x13 then rowsRCS else
  if page = 0x14 then rowsEBE else
  if page = 0x15 then rowsEBD else
  if page = 0x18 then rowsORG else
  if page = 0x19 then rowsORL else
  if page = 0x1A then rowsPAT else
  if 0x20 ≤ page ∧ page ≤ 0x27 then rowsVW else
  if page = 0x28 then rowsGLC else
  if page = 0x29 then rowsGLS else
  if page = 0x2A then rowsGLP else
  if page = 0x30 then rowsBTH else
  if page = 0x31 then rowsBTM else
  if page = 0x34 then rowsOFC else
  if 0x38 ≤ page ∧ page ≤ 0x3B then rowsSDI else
  if 0x3C ≤ page ∧ page ≤ 0x3D then rowsBLV else
  if page = 0x08 then rowsSUN0 else
  if page = 0x09 then rowsSUN1 else
  if page = 0x0A then rowsETH ++ rowsETH0 else if page = 0x0B then rowsETH else
  if page = 0x0C then rowsIPS else
  if page = 0x0D then rowsIPR else
  if page = 0x40 then rowsBND else
  if 0x44 ≤ page ∧ page ≤ 0x47 then rowsMC else
  if page = 0x48 then rowsMCT else
  if page = 0x4C then rowsARB else
  if page = 0x05 then rowsDOV else
  if page = 0x04 then rowsICE else
  if 0x50 ≤ page ∧ page ≤ 0x53 then rowsFLK else
  if page = 0x54 then rowsHIE else
  if page = 0x06 then rowsPMU else
  []

/-- The implemented pages of R36, in ascending order. -/
def implementedPages : List Nat :=
  [0x00, 0x01, 0x02, 0x03, 0x04, 0x05, 0x06, 0x08, 0x09, 0x0A, 0x0B, 0x0C, 0x0D, 0x10, 0x11, 0x12, 0x13, 0x14, 0x15, 0x18, 0x19, 0x1A, 0x20, 0x21, 0x22, 0x23, 0x24, 0x25, 0x26, 0x27, 0x28, 0x29, 0x2A, 0x30, 0x31, 0x34, 0x38, 0x39, 0x3A, 0x3B, 0x3C, 0x3D, 0x40, 0x44, 0x45, 0x46, 0x47, 0x48, 0x4C, 0x50, 0x51, 0x52, 0x53, 0x54]

/-- The row of a page's table that an offset falls in. -/
def RegRow.covers (r : RegRow) (off : Nat) : Bool :=
  if r.count = 1 then off == r.off else decide (r.off ≤ off) && (off - r.off) % r.stride == 0 && decide ((off - r.off) / r.stride < r.count)

/-- The row of a register address, if the page defines a block register there. -/
def findRow (a : RegAddr) : Option RegRow := (pageRows (a / 4096)).find? (fun r => r.covers (a % 4096))

/-- Whether R36 assigns a page. -/
def implemented (page : Nat) : Bool := implementedPages.contains page

/-- The reset word of every register that stores a value (R37 for the page header; the chapters' tables otherwise). -/
def resetWord (a : RegAddr) : Word :=
  if implemented (a / 4096) = false then 0 else
  if a % 4096 < 0x40 then (if a % 4096 = 0x014 then 0xFFFFFF02 else 0) else
  match findRow a with
  | some r => BitVec.ofNat 32 r.reset
  | none => 0

/-- The bits of a register that a write stores at once (R3, R5, R37). -/
def rwMaskOf (a : RegAddr) : Nat :=
  if implemented (a / 4096) = false then 0 else
  if a % 4096 = 0x008 then 0xF2 else
  if a % 4096 = 0x014 then 0xFFFFFF03 else
  if a % 4096 = 0x018 then 0x13F else
  if a % 4096 < 0x40 then 0 else
  match findRow a with
  | some r => r.rwMask
  | none => 0

/-- The bits of a register that a write holds in the shadow (R3, R37). -/
def shMaskOf (a : RegAddr) : Nat :=
  if implemented (a / 4096) = false then 0 else
  if a % 4096 = 0x008 then 1 else
  if a % 4096 < 0x40 then 0 else
  match findRow a with
  | some r => r.shMask
  | none => 0

/-- The register file: the words that differ from their reset words. -/
abbrev RegFile := List (RegAddr × Word)

/-- The word of a register. -/
def RegFile.word (rf : RegFile) (a : RegAddr) : Word := SMap.get resetWord rf a

/-- Bits [lsb + width − 1 : lsb] of a register. -/
def RegFile.fld (rf : RegFile) (a : RegAddr) (lsb width : Nat) : Nat := bits (rf.word a).toNat lsb width

/-- Store a register's word. -/
def RegFile.put (rf : RegFile) (a : RegAddr) (w : Word) : RegFile := SMap.set resetWord rf a w

/-- Store a number in a register. -/
def RegFile.putN (rf : RegFile) (a : RegAddr) (n : Nat) : RegFile := rf.put a (BitVec.ofNat 32 n)

/-- The word `w` with bits [lsb + width − 1 : lsb] replaced by `x`. -/
def insertBits (w : Nat) (lsb width x : Nat) : Nat := w - bits w lsb width * 2 ^ lsb + x % 2 ^ width * 2 ^ lsb

/-- Store one field of a register. -/
def RegFile.putFld (rf : RegFile) (a : RegAddr) (lsb width x : Nat) : RegFile := rf.putN a (insertBits (rf.word a).toNat lsb width x)

/-- The entries of one page. -/
def RegFile.page (rf : RegFile) (page : Nat) : RegFile := rf.filter (fun e => e.1 / 4096 == page)

/-- The header registers of a page (R37). -/
abbrev Adr.HDR.PG_ID (page : Nat) : RegAddr := page * 4096
abbrev Adr.HDR.PG_CAP (page : Nat) : RegAddr := page * 4096 + 0x004
abbrev Adr.HDR.PG_CTL (page : Nat) : RegAddr := page * 4096 + 0x008
abbrev Adr.HDR.PG_STAT (page : Nat) : RegAddr := page * 4096 + 0x00C
abbrev Adr.HDR.PG_FAULT (page : Nat) : RegAddr := page * 4096 + 0x010
abbrev Adr.HDR.PG_IRQ_MASK (page : Nat) : RegAddr := page * 4096 + 0x014
abbrev Adr.HDR.PG_VEC (page : Nat) : RegAddr := page * 4096 + 0x018
abbrev Adr.HDR.KSK_SEL (page : Nat) : RegAddr := page * 4096 + 0x020
abbrev Adr.HDR.KSK_STAT (page : Nat) : RegAddr := page * 4096 + 0x024
abbrev Adr.HDR.KSK_DATA (page i : Nat) : RegAddr := page * 4096 + 0x028 + 4 * i

/-- PG_CTL.ENABLE, as it stands applied. -/
def Fld.HDR.ENABLE (rf : RegFile) (page : Nat) : Nat := rf.fld (Adr.HDR.PG_CTL page) 0 1
/-- PG_CTL.HOLD. -/
def Fld.HDR.HOLD (rf : RegFile) (page : Nat) : Nat := rf.fld (Adr.HDR.PG_CTL page) 1 1
/-- PG_CTL.UPD_GROUP. -/
def Fld.HDR.UPD_GROUP (rf : RegFile) (page : Nat) : Nat := rf.fld (Adr.HDR.PG_CTL page) 4 4
/-- PG_VEC.VECTOR. -/
def Fld.HDR.VECTOR (rf : RegFile) (page : Nat) : Nat := rf.fld (Adr.HDR.PG_VEC page) 0 6
/-- PG_VEC.TARGET. -/
def Fld.HDR.TARGET (rf : RegFile) (page : Nat) : Nat := rf.fld (Adr.HDR.PG_VEC page) 8 1

end Sys2Proof.Machine
end

