-- ==== Sys2Proof/Machine/RegNames.lean ====
section
/-! DEFINITION. The name of every block register and of every field a register stores, as the chapters of the spec spell them: `Adr.PAGE.REGISTER` is
the address, `Fld.PAGE.REGISTER_FIELD` reads the field from a register file. `n` is the page of a block that has several, from 0; `i` is the index of a
repeated register, from 0. -/

namespace Sys2Proof.Machine

abbrev Adr.GLB.UPD_ARM : RegAddr := 0x00040
abbrev Adr.GLB.UPD_CANCEL : RegAddr := 0x00044
abbrev Adr.GLB.UPD_PEND : RegAddr := 0x00048
abbrev Adr.GLB.UPD_LATE : RegAddr := 0x0004C
abbrev Adr.GLB.UPD_MODE (i : Nat) : RegAddr := 0x00080 + 0x10 * i
abbrev Adr.GLB.UPD_TIME_LO (i : Nat) : RegAddr := 0x00084 + 0x10 * i
abbrev Adr.GLB.UPD_TIME_HI (i : Nat) : RegAddr := 0x00088 + 0x10 * i
abbrev Adr.LDG.FC_STAT : RegAddr := 0x01040
abbrev Adr.LDG.FC_SLOT : RegAddr := 0x01044
abbrev Adr.LDG.FC_CMD : RegAddr := 0x01048
abbrev Adr.LDG.FC_OVERFLOW : RegAddr := 0x0104C
abbrev Adr.GTH.LOCK : RegAddr := 0x02040
abbrev Adr.GTH.TBL_SEL : RegAddr := 0x02044
abbrev Adr.GTH.TBL_DATA : RegAddr := 0x02048
abbrev Adr.GTH.F0_MID : RegAddr := 0x0204C
abbrev Adr.GTH.ADM_MID : RegAddr := 0x02050
abbrev Adr.GTH.QPB_SEL : RegAddr := 0x02054
abbrev Adr.GTH.QPB_DATA : RegAddr := 0x02058
abbrev Adr.GTH.WIN_BASE (i : Nat) : RegAddr := 0x02060 + 0x8 * i
abbrev Adr.GTH.WIN_LIMIT (i : Nat) : RegAddr := 0x02064 + 0x8 * i
abbrev Adr.GTH.REF_INFO : RegAddr := 0x020E0
abbrev Adr.GTH.REF_COUNT : RegAddr := 0x020E4
abbrev Adr.GTH.REF_RESTART : RegAddr := 0x020E8
abbrev Adr.TRL.SPEED : RegAddr := 0x03040
abbrev Adr.TRL.OP : RegAddr := 0x03044
abbrev Adr.TRL.OP_REQ : RegAddr := 0x03048
abbrev Adr.TRL.OP_STAT : RegAddr := 0x0304C
abbrev Adr.TRL.PWR_BUDGET : RegAddr := 0x03050
abbrev Adr.TRL.PWR_USED : RegAddr := 0x03054
abbrev Adr.TRL.BE_SLOTS : RegAddr := 0x03058
abbrev Adr.TRL.BE_PATIENCE : RegAddr := 0x0305C
abbrev Adr.TRL.FLOW_SEL : RegAddr := 0x03060
abbrev Adr.TRL.FLOW_OWNER : RegAddr := 0x03064
abbrev Adr.TRL.FLOW_PWR_CORE : RegAddr := 0x03068
abbrev Adr.TRL.FLOW_PWR_FIXED : RegAddr := 0x0306C
abbrev Adr.TRL.FLOW_BURST : RegAddr := 0x03070
abbrev Adr.TRL.FLOW_COST (i : Nat) : RegAddr := 0x03074 + 0x4 * i
abbrev Adr.TRL.FLOW_STATE : RegAddr := 0x0308C
abbrev Adr.TRL.ADM_CMD : RegAddr := 0x03090
abbrev Adr.TRL.ADM_STAT : RegAddr := 0x03094
abbrev Adr.TRL.CAP (i : Nat) : RegAddr := 0x030A0 + 0x4 * i
abbrev Adr.TRL.USED (i : Nat) : RegAddr := 0x03140 + 0x4 * i
abbrev Adr.SFE.GRP_MODE : RegAddr := 0x10040
abbrev Adr.SFE.CNT_RESTART : RegAddr := 0x10044
abbrev Adr.SFE.JOIN_SKEW : RegAddr := 0x10048
abbrev Adr.SFE.GRP_CFG (i : Nat) : RegAddr := 0x10100 + 0x80 * i
abbrev Adr.SFE.GEO_WIDTH (i : Nat) : RegAddr := 0x10104 + 0x80 * i
abbrev Adr.SFE.GEO_HEIGHT (i : Nat) : RegAddr := 0x10108 + 0x80 * i
abbrev Adr.SFE.PAD_CODE (i : Nat) : RegAddr := 0x1010C + 0x80 * i
abbrev Adr.SFE.FRM_RATE_NUM (i : Nat) : RegAddr := 0x10110 + 0x80 * i
abbrev Adr.SFE.FRM_RATE_DEN (i : Nat) : RegAddr := 0x10114 + 0x80 * i
abbrev Adr.SFE.FS_EARLY (i : Nat) : RegAddr := 0x10118 + 0x80 * i
abbrev Adr.SFE.FS_LATE (i : Nat) : RegAddr := 0x1011C + 0x80 * i
abbrev Adr.SFE.SOF_DELAY (i : Nat) : RegAddr := 0x10120 + 0x80 * i
abbrev Adr.SFE.CLOSE_TIMEOUT (i : Nat) : RegAddr := 0x10124 + 0x80 * i
abbrev Adr.SFE.FRM_CNT_INIT (i : Nat) : RegAddr := 0x10128 + 0x80 * i
abbrev Adr.SFE.MODE_ID (i : Nat) : RegAddr := 0x1012C + 0x80 * i
abbrev Adr.SFE.TRIG_CFG (i : Nat) : RegAddr := 0x10130 + 0x80 * i
abbrev Adr.SFE.HT_PERIOD (i : Nat) : RegAddr := 0x10134 + 0x80 * i
abbrev Adr.SFE.HT_COUNT (i : Nat) : RegAddr := 0x10138 + 0x80 * i
abbrev Adr.SFE.HT_DELAY (i : Nat) : RegAddr := 0x1013C + 0x80 * i
abbrev Adr.SFE.TRIG_START_LO (i : Nat) : RegAddr := 0x10140 + 0x80 * i
abbrev Adr.SFE.TRIG_START_HI (i : Nat) : RegAddr := 0x10144 + 0x80 * i
abbrev Adr.SFE.SHORT_LINES (i : Nat) : RegAddr := 0x10150 + 0x80 * i
abbrev Adr.SFE.LONG_PIXELS (i : Nat) : RegAddr := 0x10154 + 0x80 * i
abbrev Adr.SFE.LONG_LINES (i : Nat) : RegAddr := 0x10158 + 0x80 * i
abbrev Adr.SFE.LATE_SOF (i : Nat) : RegAddr := 0x1015C + 0x80 * i
abbrev Adr.SFE.SKIPPED (i : Nat) : RegAddr := 0x10160 + 0x80 * i
abbrev Adr.SFE.TRUNCATED (i : Nat) : RegAddr := 0x10164 + 0x80 * i
abbrev Adr.SFE.SYNC_ERR (i : Nat) : RegAddr := 0x10168 + 0x80 * i
abbrev Adr.SFE.MCLK_INT (i : Nat) : RegAddr := 0x10400 + 0x8 * i
abbrev Adr.SFE.MCLK_FRAC (i : Nat) : RegAddr := 0x10404 + 0x8 * i
abbrev Adr.SFE.SPI_CFG (i : Nat) : RegAddr := 0x10500 + 0x20 * i
abbrev Adr.SFE.SPI_CMD (i : Nat) : RegAddr := 0x10504 + 0x20 * i
abbrev Adr.SFE.SPI_DATA (i : Nat) : RegAddr := 0x10508 + 0x20 * i
abbrev Adr.SFE.SPI_STAT (i : Nat) : RegAddr := 0x1050C + 0x20 * i
abbrev Adr.SFE.I2C_CFG (i : Nat) : RegAddr := 0x10600 + 0x20 * i
abbrev Adr.SFE.I2C_CMD (i : Nat) : RegAddr := 0x10604 + 0x20 * i
abbrev Adr.SFE.I2C_DATA (i : Nat) : RegAddr := 0x10608 + 0x20 * i
abbrev Adr.SFE.I2C_STAT (i : Nat) : RegAddr := 0x1060C + 0x20 * i
abbrev Adr.SFL.DESKEW_CTL : RegAddr := 0x11040
abbrev Adr.SFL.TRACK_CTL : RegAddr := 0x11044
abbrev Adr.SFL.RATE (i : Nat) : RegAddr := 0x11060 + 0x10 * i
abbrev Adr.SFL.TRAIN_WORD (i : Nat) : RegAddr := 0x11064 + 0x10 * i
abbrev Adr.SFL.DESKEW_WORD (i : Nat) : RegAddr := 0x11068 + 0x10 * i
abbrev Adr.SFL.DESKEW_STAT (i : Nat) : RegAddr := 0x1106C + 0x10 * i
abbrev Adr.SFL.LANE_POS (i : Nat) : RegAddr := 0x11200 + 0x4 * i
abbrev Adr.RCN.CNT_RESTART : RegAddr := 0x12044
abbrev Adr.RCN.CTX_CFG (i : Nat) : RegAddr := 0x12100 + 0x100 * i
abbrev Adr.RCN.DARK_BASE (i : Nat) : RegAddr := 0x12104 + 0x100 * i
abbrev Adr.RCN.DARK_UNIT (i : Nat) : RegAddr := 0x12108 + 0x100 * i
abbrev Adr.RCN.DARK_PITCH (i : Nat) : RegAddr := 0x1210C + 0x100 * i
abbrev Adr.RCN.DEF_UNIT (i : Nat) : RegAddr := 0x12110 + 0x100 * i
abbrev Adr.RCN.DEF_COUNT (i : Nat) : RegAddr := 0x12114 + 0x100 * i
abbrev Adr.RCN.COL_UNIT (i : Nat) : RegAddr := 0x12118 + 0x100 * i
abbrev Adr.RCN.OB (i : Nat) : RegAddr := 0x1211C + 0x100 * i
abbrev Adr.RCN.OB_TARGET (i : Nat) : RegAddr := 0x12120 + 0x100 * i
abbrev Adr.RCN.ROW_LIMIT (i : Nat) : RegAddr := 0x12124 + 0x100 * i
abbrev Adr.RCN.HDR_T0 (i : Nat) : RegAddr := 0x12128 + 0x100 * i
abbrev Adr.RCN.HDR_SPAN_LOG2 (i : Nat) : RegAddr := 0x1212C + 0x100 * i
abbrev Adr.RCN.HDR_RATIO (i : Nat) : RegAddr := 0x12130 + 0x100 * i
abbrev Adr.RCN.FF_UNIT (i : Nat) : RegAddr := 0x12134 + 0x100 * i
abbrev Adr.RCN.FF_PITCH (i : Nat) : RegAddr := 0x12138 + 0x100 * i
abbrev Adr.RCN.DEF_UNFIXED (i : Nat) : RegAddr := 0x12160 + 0x100 * i
abbrev Adr.RCN.DEF_REJECTED (i : Nat) : RegAddr := 0x12164 + 0x100 * i
abbrev Adr.RCN.TABLE_ERR (i : Nat) : RegAddr := 0x12168 + 0x100 * i
abbrev Adr.RCN.ROW_LIMITED (i : Nat) : RegAddr := 0x1216C + 0x100 * i
abbrev Adr.RCS.INT_CFG : RegAddr := 0x13040
abbrev Adr.RCS.INT_TARGET : RegAddr := 0x13044
abbrev Adr.RCS.INT_CMD : RegAddr := 0x13048
abbrev Adr.RCS.INT_STAT : RegAddr := 0x1304C
abbrev Adr.RCS.SATURATED_TILES : RegAddr := 0x13050
abbrev Adr.RCS.INT_REJECTED : RegAddr := 0x13054
abbrev Adr.RCS.INT_UNIT : RegAddr := 0x13058
abbrev Adr.RCS.INT_PITCH : RegAddr := 0x1305C
abbrev Adr.RCS.INT_TILE_UNIT : RegAddr := 0x13060
abbrev Adr.RCS.INT_AVG_UNIT : RegAddr := 0x13064
abbrev Adr.RCS.REG_CTL (i : Nat) : RegAddr := 0x13100 + 0x10 * i
abbrev Adr.RCS.REG_POS (i : Nat) : RegAddr := 0x13104 + 0x10 * i
abbrev Adr.RCS.REG_SIZE (i : Nat) : RegAddr := 0x13108 + 0x10 * i
abbrev Adr.RCS.REG_CLIP (i : Nat) : RegAddr := 0x1310C + 0x10 * i
abbrev Adr.EBE.CNT_RESTART : RegAddr := 0x14044
abbrev Adr.EBE.ENC_CFG (i : Nat) : RegAddr := 0x14100 + 0x100 * i
abbrev Adr.EBE.PEDESTAL (i : Nat) : RegAddr := 0x14104 + 0x100 * i
abbrev Adr.EBE.RING_UNIT (i : Nat) : RegAddr := 0x14108 + 0x100 * i
abbrev Adr.EBE.RING_UNITS (i : Nat) : RegAddr := 0x1410C + 0x100 * i
abbrev Adr.EBE.COMMIT_RESERVE (i : Nat) : RegAddr := 0x14110 + 0x100 * i
abbrev Adr.EBE.USER_UNIT (i : Nat) : RegAddr := 0x14114 + 0x100 * i
abbrev Adr.EBE.PREROLL_FRAMES (i : Nat) : RegAddr := 0x14118 + 0x100 * i
abbrev Adr.EBE.REC_AT_COUNT (i : Nat) : RegAddr := 0x1411C + 0x100 * i
abbrev Adr.EBE.REC_CMD (i : Nat) : RegAddr := 0x14120 + 0x100 * i
abbrev Adr.EBE.REC_STAT (i : Nat) : RegAddr := 0x14124 + 0x100 * i
abbrev Adr.EBE.TILE_BYTES (i : Nat) : RegAddr := 0x14128 + 0x100 * i
abbrev Adr.EBE.STRIDE_UNITS (i : Nat) : RegAddr := 0x1412C + 0x100 * i
abbrev Adr.EBE.FRAMES_WHOLE (i : Nat) : RegAddr := 0x14130 + 0x100 * i
abbrev Adr.EBE.HELD (i : Nat) : RegAddr := 0x14134 + 0x100 * i
abbrev Adr.EBE.HOLD_SEGS (i : Nat) : RegAddr := 0x14140 + 0x100 * i
abbrev Adr.EBE.RAW_TILES (i : Nat) : RegAddr := 0x14144 + 0x100 * i
abbrev Adr.EBE.RING_FULL (i : Nat) : RegAddr := 0x14148 + 0x100 * i
abbrev Adr.EBE.MAP_CLIPPED (i : Nat) : RegAddr := 0x1414C + 0x100 * i
abbrev Adr.EBE.WRITE_ERR (i : Nat) : RegAddr := 0x14150 + 0x100 * i
abbrev Adr.EBD.OUT_GEO : RegAddr := 0x15040
abbrev Adr.EBD.SRC_UNIT : RegAddr := 0x15044
abbrev Adr.EBD.STRIDE_UNITS : RegAddr := 0x15048
abbrev Adr.EBD.WRAP_UNIT : RegAddr := 0x1504C
abbrev Adr.EBD.WRAP_UNITS : RegAddr := 0x15050
abbrev Adr.EBD.COUNT : RegAddr := 0x15054
abbrev Adr.EBD.EXPECT_FC : RegAddr := 0x15058
abbrev Adr.EBD.PLAY_CFG : RegAddr := 0x1505C
abbrev Adr.EBD.PACE_NUM : RegAddr := 0x15060
abbrev Adr.EBD.PACE_DEN : RegAddr := 0x15064
abbrev Adr.EBD.PACE_START_LO : RegAddr := 0x15068
abbrev Adr.EBD.PACE_START_HI : RegAddr := 0x1506C
abbrev Adr.EBD.PLAY_CMD : RegAddr := 0x15070
abbrev Adr.EBD.FRAMES_DONE : RegAddr := 0x15074
abbrev Adr.EBD.HDR_ERR : RegAddr := 0x15078
abbrev Adr.EBD.TILE_ERR : RegAddr := 0x1507C
abbrev Adr.EBD.STALE_FRAMES : RegAddr := 0x15080
abbrev Adr.EBD.CNT_RESTART : RegAddr := 0x15084
abbrev Adr.ORG.STAT_CFG : RegAddr := 0x18040
abbrev Adr.ORG.STAT_LO : RegAddr := 0x18044
abbrev Adr.ORG.STAT_HI : RegAddr := 0x18048
abbrev Adr.ORG.HIST_UNIT : RegAddr := 0x1804C
abbrev Adr.ORG.CNT_RESTART : RegAddr := 0x18050
abbrev Adr.ORG.REG_CTL (i : Nat) : RegAddr := 0x18080 + 0x10 * i
abbrev Adr.ORG.REG_POS (i : Nat) : RegAddr := 0x18084 + 0x10 * i
abbrev Adr.ORG.REG_SIZE (i : Nat) : RegAddr := 0x18088 + 0x10 * i
abbrev Adr.ORG.CTX_CFG (i : Nat) : RegAddr := 0x18100 + 0x100 * i
abbrev Adr.ORG.WB_GAIN_0 (i : Nat) : RegAddr := 0x18104 + 0x100 * i
abbrev Adr.ORG.WB_GAIN_1 (i : Nat) : RegAddr := 0x18108 + 0x100 * i
abbrev Adr.ORG.WB_GAIN_2 (i : Nat) : RegAddr := 0x1810C + 0x100 * i
abbrev Adr.ORG.WB_GAIN_3 (i : Nat) : RegAddr := 0x18110 + 0x100 * i
abbrev Adr.ORG.HL_CLIP (i : Nat) : RegAddr := 0x18114 + 0x100 * i
abbrev Adr.ORG.DM_T (i : Nat) : RegAddr := 0x18118 + 0x100 * i
abbrev Adr.ORG.MAT_0_0 (i : Nat) : RegAddr := 0x18120 + 0x100 * i
abbrev Adr.ORG.MAT_0_1 (i : Nat) : RegAddr := 0x18124 + 0x100 * i
abbrev Adr.ORG.MAT_0_2 (i : Nat) : RegAddr := 0x18128 + 0x100 * i
abbrev Adr.ORG.MAT_1_0 (i : Nat) : RegAddr := 0x1812C + 0x100 * i
abbrev Adr.ORG.MAT_1_1 (i : Nat) : RegAddr := 0x18130 + 0x100 * i
abbrev Adr.ORG.MAT_1_2 (i : Nat) : RegAddr := 0x18134 + 0x100 * i
abbrev Adr.ORG.MAT_2_0 (i : Nat) : RegAddr := 0x18138 + 0x100 * i
abbrev Adr.ORG.MAT_2_1 (i : Nat) : RegAddr := 0x1813C + 0x100 * i
abbrev Adr.ORG.MAT_2_2 (i : Nat) : RegAddr := 0x18140 + 0x100 * i
abbrev Adr.ORG.OFS_0 (i : Nat) : RegAddr := 0x18144 + 0x100 * i
abbrev Adr.ORG.OFS_1 (i : Nat) : RegAddr := 0x18148 + 0x100 * i
abbrev Adr.ORG.OFS_2 (i : Nat) : RegAddr := 0x1814C + 0x100 * i
abbrev Adr.ORG.FRAMES (i : Nat) : RegAddr := 0x18160 + 0x100 * i
abbrev Adr.ORG.CFA_BAD (i : Nat) : RegAddr := 0x18164 + 0x100 * i
abbrev Adr.ORG.LAST_FC (i : Nat) : RegAddr := 0x18168 + 0x100 * i
abbrev Adr.ORL.TBL_SEL : RegAddr := 0x19040
abbrev Adr.ORL.TBL_ADDR : RegAddr := 0x19044
abbrev Adr.ORL.TBL_DATA : RegAddr := 0x19048
abbrev Adr.ORL.TBL_STAT : RegAddr := 0x1904C
abbrev Adr.ORL.REFUSED : RegAddr := 0x19050
abbrev Adr.ORL.LOAD_UNIT : RegAddr := 0x19054
abbrev Adr.ORL.LOAD_CMD : RegAddr := 0x19058
abbrev Adr.ORL.LOAD_STAT : RegAddr := 0x1905C
abbrev Adr.ORL.CNT_RESTART : RegAddr := 0x19060
abbrev Adr.PAT.PATTERN : RegAddr := 0x1A040
abbrev Adr.PAT.SIZE : RegAddr := 0x1A044
abbrev Adr.PAT.RATE_NUM : RegAddr := 0x1A048
abbrev Adr.PAT.RATE_DEN : RegAddr := 0x1A04C
abbrev Adr.PAT.PAT_START_LO : RegAddr := 0x1A050
abbrev Adr.PAT.PAT_START_HI : RegAddr := 0x1A054
abbrev Adr.PAT.COLOUR0_A : RegAddr := 0x1A058
abbrev Adr.PAT.COLOUR0_B : RegAddr := 0x1A05C
abbrev Adr.PAT.COLOUR1_A : RegAddr := 0x1A060
abbrev Adr.PAT.COLOUR1_B : RegAddr := 0x1A064
abbrev Adr.PAT.LEVEL : RegAddr := 0x1A068
abbrev Adr.PAT.CHECK_LOG2 : RegAddr := 0x1A06C
abbrev Adr.PAT.ZONE_K : RegAddr := 0x1A070
abbrev Adr.PAT.ZONE_KT : RegAddr := 0x1A074
abbrev Adr.PAT.DX : RegAddr := 0x1A078
abbrev Adr.PAT.SEED : RegAddr := 0x1A07C
abbrev Adr.PAT.PAT_CMD : RegAddr := 0x1A080
abbrev Adr.PAT.FRAMES : RegAddr := 0x1A084
abbrev Adr.VW.SRC_CFG (n : Nat) : RegAddr := 0x20040 + 0x1000 * n
abbrev Adr.VW.PACE_NUM (n : Nat) : RegAddr := 0x20044 + 0x1000 * n
abbrev Adr.VW.PACE_DEN (n : Nat) : RegAddr := 0x20048 + 0x1000 * n
abbrev Adr.VW.PACE_START_LO (n : Nat) : RegAddr := 0x2004C + 0x1000 * n
abbrev Adr.VW.PACE_START_HI (n : Nat) : RegAddr := 0x20050 + 0x1000 * n
abbrev Adr.VW.CROP_POS (n : Nat) : RegAddr := 0x20054 + 0x1000 * n
abbrev Adr.VW.CROP_SIZE (n : Nat) : RegAddr := 0x20058 + 0x1000 * n
abbrev Adr.VW.SCL_CFG (n : Nat) : RegAddr := 0x2005C + 0x1000 * n
abbrev Adr.VW.OUT_SIZE (n : Nat) : RegAddr := 0x20060 + 0x1000 * n
abbrev Adr.VW.STEP_H (n : Nat) : RegAddr := 0x20064 + 0x1000 * n
abbrev Adr.VW.STEP_V (n : Nat) : RegAddr := 0x20068 + 0x1000 * n
abbrev Adr.VW.INIT_H (n : Nat) : RegAddr := 0x2006C + 0x1000 * n
abbrev Adr.VW.INIT_V (n : Nat) : RegAddr := 0x20070 + 0x1000 * n
abbrev Adr.VW.PIPE_CFG (n : Nat) : RegAddr := 0x20074 + 0x1000 * n
abbrev Adr.VW.MAT_0_0 (n : Nat) : RegAddr := 0x20080 + 0x1000 * n
abbrev Adr.VW.MAT_0_1 (n : Nat) : RegAddr := 0x20084 + 0x1000 * n
abbrev Adr.VW.MAT_0_2 (n : Nat) : RegAddr := 0x20088 + 0x1000 * n
abbrev Adr.VW.MAT_1_0 (n : Nat) : RegAddr := 0x2008C + 0x1000 * n
abbrev Adr.VW.MAT_1_1 (n : Nat) : RegAddr := 0x20090 + 0x1000 * n
abbrev Adr.VW.MAT_1_2 (n : Nat) : RegAddr := 0x20094 + 0x1000 * n
abbrev Adr.VW.MAT_2_0 (n : Nat) : RegAddr := 0x20098 + 0x1000 * n
abbrev Adr.VW.MAT_2_1 (n : Nat) : RegAddr := 0x2009C + 0x1000 * n
abbrev Adr.VW.MAT_2_2 (n : Nat) : RegAddr := 0x200A0 + 0x1000 * n
abbrev Adr.VW.OFS (n i : Nat) : RegAddr := 0x200A4 + 0x1000 * n + 0x4 * i
abbrev Adr.VW.FMT_CFG (n : Nat) : RegAddr := 0x200C0 + 0x1000 * n
abbrev Adr.VW.BUF_UNIT (n : Nat) : RegAddr := 0x200C4 + 0x1000 * n
abbrev Adr.VW.BUF_STRIDE (n : Nat) : RegAddr := 0x200C8 + 0x1000 * n
abbrev Adr.VW.PITCH (n : Nat) : RegAddr := 0x200CC + 0x1000 * n
abbrev Adr.VW.NBUF (n : Nat) : RegAddr := 0x200D0 + 0x1000 * n
abbrev Adr.VW.DESC_UNIT (n : Nat) : RegAddr := 0x200D4 + 0x1000 * n
abbrev Adr.VW.CHROMA_UNITS (n : Nat) : RegAddr := 0x200D8 + 0x1000 * n
abbrev Adr.VW.OVL_CFG (n : Nat) : RegAddr := 0x20100 + 0x1000 * n
abbrev Adr.VW.PEAK_T (n : Nat) : RegAddr := 0x20104 + 0x1000 * n
abbrev Adr.VW.ZEBRA_LEVEL (n : Nat) : RegAddr := 0x20108 + 0x1000 * n
abbrev Adr.VW.PEAK_COLOUR (n : Nat) : RegAddr := 0x2010C + 0x1000 * n
abbrev Adr.VW.ZEBRA_COLOUR (n : Nat) : RegAddr := 0x20110 + 0x1000 * n
abbrev Adr.VW.RECT_POS (n i : Nat) : RegAddr := 0x20120 + 0x1000 * n + 0x10 * i
abbrev Adr.VW.RECT_SIZE (n i : Nat) : RegAddr := 0x20124 + 0x1000 * n + 0x10 * i
abbrev Adr.VW.RECT_COLOUR (n i : Nat) : RegAddr := 0x20128 + 0x1000 * n + 0x10 * i
abbrev Adr.VW.RECT_CFG (n i : Nat) : RegAddr := 0x2012C + 0x1000 * n + 0x10 * i
abbrev Adr.VW.BMP_UNIT (n : Nat) : RegAddr := 0x20160 + 0x1000 * n
abbrev Adr.VW.BMP_PITCH (n : Nat) : RegAddr := 0x20164 + 0x1000 * n
abbrev Adr.VW.BMP_PAL (n i : Nat) : RegAddr := 0x20168 + 0x1000 * n + 0x4 * i
abbrev Adr.VW.BMP_ALPHA (n : Nat) : RegAddr := 0x20178 + 0x1000 * n
abbrev Adr.VW.FRAMES_OUT (n : Nat) : RegAddr := 0x201C0 + 0x1000 * n
abbrev Adr.VW.DROPPED (n : Nat) : RegAddr := 0x201C4 + 0x1000 * n
abbrev Adr.VW.CROP_CLIPPED (n : Nat) : RegAddr := 0x201C8 + 0x1000 * n
abbrev Adr.VW.CNT_RESTART (n : Nat) : RegAddr := 0x201CC + 0x1000 * n
abbrev Adr.GLC.CNT_RESTART : RegAddr := 0x28040
abbrev Adr.GLC.ENG_ITEMS (i : Nat) : RegAddr := 0x28048 + 0x4 * i
abbrev Adr.GLC.ENG_SES (i : Nat) : RegAddr := 0x28060 + 0x4 * i
abbrev Adr.GLS.FAULT_SES : RegAddr := 0x29040
abbrev Adr.GLS.CNT_RESTART : RegAddr := 0x29044
abbrev Adr.GLS.SES_CFG (i : Nat) : RegAddr := 0x29100 + 0x60 * i
abbrev Adr.GLS.PROFILE_LEVEL (i : Nat) : RegAddr := 0x29104 + 0x60 * i
abbrev Adr.GLS.PIC_SIZE (i : Nat) : RegAddr := 0x29108 + 0x60 * i
abbrev Adr.GLS.SRC (i : Nat) : RegAddr := 0x2910C + 0x60 * i
abbrev Adr.GLS.PACE_NUM (i : Nat) : RegAddr := 0x29110 + 0x60 * i
abbrev Adr.GLS.PACE_DEN (i : Nat) : RegAddr := 0x29114 + 0x60 * i
abbrev Adr.GLS.PACE_START_LO (i : Nat) : RegAddr := 0x29118 + 0x60 * i
abbrev Adr.GLS.PACE_START_HI (i : Nat) : RegAddr := 0x2911C + 0x60 * i
abbrev Adr.GLS.GOP (i : Nat) : RegAddr := 0x29120 + 0x60 * i
abbrev Adr.GLS.SEARCH (i : Nat) : RegAddr := 0x29124 + 0x60 * i
abbrev Adr.GLS.RC_CFG (i : Nat) : RegAddr := 0x29128 + 0x60 * i
abbrev Adr.GLS.BITRATE (i : Nat) : RegAddr := 0x2912C + 0x60 * i
abbrev Adr.GLS.MAXRATE (i : Nat) : RegAddr := 0x29130 + 0x60 * i
abbrev Adr.GLS.CPB_SIZE (i : Nat) : RegAddr := 0x29134 + 0x60 * i
abbrev Adr.GLS.RING_UNIT (i : Nat) : RegAddr := 0x29138 + 0x60 * i
abbrev Adr.GLS.RING_UNITS (i : Nat) : RegAddr := 0x2913C + 0x60 * i
abbrev Adr.GLS.WR_PTR (i : Nat) : RegAddr := 0x29140 + 0x60 * i
abbrev Adr.GLS.RD_PTR (i : Nat) : RegAddr := 0x29144 + 0x60 * i
abbrev Adr.GLS.STAT_UNIT (i : Nat) : RegAddr := 0x29148 + 0x60 * i
abbrev Adr.GLS.STAT_CFG (i : Nat) : RegAddr := 0x2914C + 0x60 * i
abbrev Adr.GLS.SES_CMD (i : Nat) : RegAddr := 0x29150 + 0x60 * i
abbrev Adr.GLS.SES_STAT (i : Nat) : RegAddr := 0x29154 + 0x60 * i
abbrev Adr.GLS.PICTURES (i : Nat) : RegAddr := 0x29158 + 0x60 * i
abbrev Adr.GLP.GEN : RegAddr := 0x2A040
abbrev Adr.GLP.BUF_SEL : RegAddr := 0x2A044
abbrev Adr.GLP.BUF_UNIT : RegAddr := 0x2A048
abbrev Adr.GLP.BUF_OWNER : RegAddr := 0x2A04C
abbrev Adr.GLP.BUF_STAT : RegAddr := 0x2A050
abbrev Adr.GLP.H_CMD : RegAddr := 0x2A054
abbrev Adr.GLP.H_STAT : RegAddr := 0x2A058
abbrev Adr.GLP.STALE : RegAddr := 0x2A05C
abbrev Adr.GLP.DESC_UNIT : RegAddr := 0x2A060
abbrev Adr.GLP.STALE_RESTART : RegAddr := 0x2A064
abbrev Adr.BTH.STAGE_UNIT : RegAddr := 0x30040
abbrev Adr.BTH.CKPT_ROUNDS : RegAddr := 0x30044
abbrev Adr.BTH.WR_MAX : RegAddr := 0x30048
abbrev Adr.BTH.FAULT_VOL : RegAddr := 0x3004C
abbrev Adr.BTH.CNT_RESTART : RegAddr := 0x30050
abbrev Adr.BTH.VOL_CFG (i : Nat) : RegAddr := 0x30100 + 0x40 * i
abbrev Adr.BTH.EXT_STRIPES (i : Nat) : RegAddr := 0x30104 + 0x40 * i
abbrev Adr.BTH.FORMAT_ID (i : Nat) : RegAddr := 0x30108 + 0x40 * i
abbrev Adr.BTH.VOL_CMD (i : Nat) : RegAddr := 0x3010C + 0x40 * i
abbrev Adr.BTH.VOL_STAT (i : Nat) : RegAddr := 0x30110 + 0x40 * i
abbrev Adr.BTH.APPEND (i : Nat) : RegAddr := 0x30114 + 0x40 * i
abbrev Adr.BTH.NEXT_TAKE (i : Nat) : RegAddr := 0x30118 + 0x40 * i
abbrev Adr.BTH.JNL_USED (i : Nat) : RegAddr := 0x3011C + 0x40 * i
abbrev Adr.BTH.CH_CFG (i : Nat) : RegAddr := 0x30500 + 0x40 * i
abbrev Adr.BTH.CH_CMD (i : Nat) : RegAddr := 0x30504 + 0x40 * i
abbrev Adr.BTH.CH_STAT (i : Nat) : RegAddr := 0x30508 + 0x40 * i
abbrev Adr.BTH.CH_TAKE (i : Nat) : RegAddr := 0x3050C + 0x40 * i
abbrev Adr.BTH.CH_LAST (i : Nat) : RegAddr := 0x30510 + 0x40 * i
abbrev Adr.BTH.ABANDONED (i : Nat) : RegAddr := 0x30514 + 0x40 * i
abbrev Adr.BTH.GAPS (i : Nat) : RegAddr := 0x30518 + 0x40 * i
abbrev Adr.BTH.FETCH_VOL : RegAddr := 0x30700
abbrev Adr.BTH.FETCH_OFS_LO : RegAddr := 0x30704
abbrev Adr.BTH.FETCH_OFS_HI : RegAddr := 0x30708
abbrev Adr.BTH.FETCH_DST : RegAddr := 0x3070C
abbrev Adr.BTH.FETCH_UNITS : RegAddr := 0x30710
abbrev Adr.BTH.FETCH_CMD : RegAddr := 0x30714
abbrev Adr.BTH.FETCH_STAT : RegAddr := 0x30718
abbrev Adr.BTH.VM_SEL : RegAddr := 0x30800
abbrev Adr.BTH.VM_DATA : RegAddr := 0x30804
abbrev Adr.BTM.FAULT_MEM : RegAddr := 0x31040
abbrev Adr.BTM.CNT_RESTART : RegAddr := 0x31044
abbrev Adr.BTM.MEM_CFG (i : Nat) : RegAddr := 0x31100 + 0x20 * i
abbrev Adr.BTM.MEM_BAR_LO (i : Nat) : RegAddr := 0x31104 + 0x20 * i
abbrev Adr.BTM.MEM_BAR_HI (i : Nat) : RegAddr := 0x31108 + 0x20 * i
abbrev Adr.BTM.NSID (i : Nat) : RegAddr := 0x3110C + 0x20 * i
abbrev Adr.BTM.MEM_STAT (i : Nat) : RegAddr := 0x31110 + 0x20 * i
abbrev Adr.BTM.CMD_TIMEOUT (i : Nat) : RegAddr := 0x31114 + 0x20 * i
abbrev Adr.BTM.RETRY (i : Nat) : RegAddr := 0x31118 + 0x20 * i
abbrev Adr.OFC.STAGE_UNIT : RegAddr := 0x34040
abbrev Adr.OFC.STAGE_UNITS : RegAddr := 0x34044
abbrev Adr.OFC.PATIENCE : RegAddr := 0x34048
abbrev Adr.OFC.SQ_SEL : RegAddr := 0x3404C
abbrev Adr.OFC.SQ_FLOW : RegAddr := 0x34050
abbrev Adr.OFC.SQ_STAT : RegAddr := 0x34054
abbrev Adr.OFC.INFLIGHT : RegAddr := 0x34058
abbrev Adr.OFC.FREEZES : RegAddr := 0x3405C
abbrev Adr.OFC.STARVED : RegAddr := 0x34060
abbrev Adr.OFC.CNT_RESTART : RegAddr := 0x34064
abbrev Adr.SDI.CFG (n : Nat) : RegAddr := 0x38040 + 0x1000 * n
abbrev Adr.SDI.FMT (n : Nat) : RegAddr := 0x38044 + 0x1000 * n
abbrev Adr.SDI.SRC (n : Nat) : RegAddr := 0x38048 + 0x1000 * n
abbrev Adr.SDI.OUT_START_LO (n : Nat) : RegAddr := 0x3804C + 0x1000 * n
abbrev Adr.SDI.OUT_START_HI (n : Nat) : RegAddr := 0x38050 + 0x1000 * n
abbrev Adr.SDI.OUT_OFFSET (n : Nat) : RegAddr := 0x38054 + 0x1000 * n
abbrev Adr.SDI.BUF_UNIT (n : Nat) : RegAddr := 0x38058 + 0x1000 * n
abbrev Adr.SDI.BUF_STRIDE (n : Nat) : RegAddr := 0x3805C + 0x1000 * n
abbrev Adr.SDI.PITCH (n : Nat) : RegAddr := 0x38060 + 0x1000 * n
abbrev Adr.SDI.NBUF (n : Nat) : RegAddr := 0x38064 + 0x1000 * n
abbrev Adr.SDI.DESC_UNIT (n : Nat) : RegAddr := 0x38068 + 0x1000 * n
abbrev Adr.SDI.DET_FMT (n : Nat) : RegAddr := 0x3806C + 0x1000 * n
abbrev Adr.SDI.FRAMES (n : Nat) : RegAddr := 0x38080 + 0x1000 * n
abbrev Adr.SDI.CRC_ERR (n : Nat) : RegAddr := 0x38084 + 0x1000 * n
abbrev Adr.SDI.PID_MISMATCH (n : Nat) : RegAddr := 0x38088 + 0x1000 * n
abbrev Adr.SDI.MISMATCH (n : Nat) : RegAddr := 0x3808C + 0x1000 * n
abbrev Adr.SDI.CLAMPED (n : Nat) : RegAddr := 0x38090 + 0x1000 * n
abbrev Adr.SDI.DROPPED (n : Nat) : RegAddr := 0x38094 + 0x1000 * n
abbrev Adr.SDI.CNT_RESTART (n : Nat) : RegAddr := 0x38098 + 0x1000 * n
abbrev Adr.BLV.LINK_CFG (n : Nat) : RegAddr := 0x3C040 + 0x1000 * n
abbrev Adr.BLV.LANE_RATE (n : Nat) : RegAddr := 0x3C044 + 0x1000 * n
abbrev Adr.BLV.PCLK (n : Nat) : RegAddr := 0x3C048 + 0x1000 * n
abbrev Adr.BLV.ACT (n : Nat) : RegAddr := 0x3C04C + 0x1000 * n
abbrev Adr.BLV.HSYNC (n : Nat) : RegAddr := 0x3C050 + 0x1000 * n
abbrev Adr.BLV.HFP (n : Nat) : RegAddr := 0x3C054 + 0x1000 * n
abbrev Adr.BLV.VSYNC (n : Nat) : RegAddr := 0x3C058 + 0x1000 * n
abbrev Adr.BLV.VFP (n : Nat) : RegAddr := 0x3C05C + 0x1000 * n
abbrev Adr.BLV.BG_COLOUR (n : Nat) : RegAddr := 0x3C060 + 0x1000 * n
abbrev Adr.BLV.TIMING_LAYER (n : Nat) : RegAddr := 0x3C064 + 0x1000 * n
abbrev Adr.BLV.L_CFG (n i : Nat) : RegAddr := 0x3C100 + 0x1000 * n + 0x10 * i
abbrev Adr.BLV.L_POS (n i : Nat) : RegAddr := 0x3C104 + 0x1000 * n + 0x10 * i
abbrev Adr.BLV.CMD_DATA (n : Nat) : RegAddr := 0x3C200 + 0x1000 * n
abbrev Adr.BLV.CMD (n : Nat) : RegAddr := 0x3C204 + 0x1000 * n
abbrev Adr.BLV.CMD_STAT (n : Nat) : RegAddr := 0x3C208 + 0x1000 * n
abbrev Adr.BLV.FRAMES (n : Nat) : RegAddr := 0x3C300 + 0x1000 * n
abbrev Adr.BLV.UNDERRUN (n : Nat) : RegAddr := 0x3C304 + 0x1000 * n
abbrev Adr.BLV.MISMATCH (n : Nat) : RegAddr := 0x3C308 + 0x1000 * n
abbrev Adr.BLV.CNT_RESTART (n : Nat) : RegAddr := 0x3C30C + 0x1000 * n
abbrev Adr.SUN0.SRV_CFG : RegAddr := 0x08040
abbrev Adr.SUN0.ADJ_LIM : RegAddr := 0x08044
abbrev Adr.SUN0.JUMP_THRESH : RegAddr := 0x08048
abbrev Adr.SUN0.ADJ : RegAddr := 0x0804C
abbrev Adr.SUN0.SRV_STAT : RegAddr := 0x08050
abbrev Adr.SUN0.STEP_CMD : RegAddr := 0x08054
abbrev Adr.SUN0.STEP_VALUE_LO : RegAddr := 0x08058
abbrev Adr.SUN0.STEP_VALUE_HI : RegAddr := 0x0805C
abbrev Adr.SUN0.SET_SEC_LO : RegAddr := 0x08060
abbrev Adr.SUN0.SET_SEC_HI : RegAddr := 0x08064
abbrev Adr.SUN0.SET_NS : RegAddr := 0x08068
abbrev Adr.SUN0.STEP_STAT : RegAddr := 0x0806C
abbrev Adr.SUN0.STEP_COUNT : RegAddr := 0x08070
abbrev Adr.SUN0.CNT_RESTART : RegAddr := 0x08074
abbrev Adr.SUN0.TC_CFG : RegAddr := 0x08080
abbrev Adr.SUN0.TAI_UTC : RegAddr := 0x08084
abbrev Adr.SUN0.LOCAL_OFS : RegAddr := 0x08088
abbrev Adr.SUN0.JAM_TOD : RegAddr := 0x0808C
abbrev Adr.SUN0.TC_SET : RegAddr := 0x08090
abbrev Adr.SUN0.LTC_OFFSET : RegAddr := 0x08094
abbrev Adr.SUN0.FP_CFG (i : Nat) : RegAddr := 0x080A0 + 0x8 * i
abbrev Adr.SUN0.FP_OFFSET (i : Nat) : RegAddr := 0x080A4 + 0x8 * i
abbrev Adr.SUN1.TOL : RegAddr := 0x09040
abbrev Adr.SUN1.AGREE : RegAddr := 0x09044
abbrev Adr.SUN1.OBS_INTERVAL : RegAddr := 0x09048
abbrev Adr.SUN1.QUAL_TIME : RegAddr := 0x0904C
abbrev Adr.SUN1.SEL_CFG : RegAddr := 0x09050
abbrev Adr.SUN1.REF_CFG (i : Nat) : RegAddr := 0x09120 + 0x20 * i
abbrev Adr.SUN1.REF_PARAM (i : Nat) : RegAddr := 0x09124 + 0x20 * i
abbrev Adr.SUN1.REF_OFFSET (i : Nat) : RegAddr := 0x09128 + 0x20 * i
abbrev Adr.SUN1.PARENT_PORT (i : Nat) : RegAddr := 0x0912C + 0x20 * i
abbrev Adr.SUN1.PARENT_ID_LO (i : Nat) : RegAddr := 0x09130 + 0x20 * i
abbrev Adr.SUN1.PARENT_ID_HI (i : Nat) : RegAddr := 0x09134 + 0x20 * i
abbrev Adr.SUN1.REF_STAT (i : Nat) : RegAddr := 0x09138 + 0x20 * i
abbrev Adr.SUN1.FREQ (i : Nat) : RegAddr := 0x0913C + 0x20 * i
abbrev Adr.ETH.PORT_CFG (n : Nat) : RegAddr := 0x0A040 + 0x1000 * n
abbrev Adr.ETH.RX_LAT (n : Nat) : RegAddr := 0x0A044 + 0x1000 * n
abbrev Adr.ETH.TX_LAT (n : Nat) : RegAddr := 0x0A048 + 0x1000 * n
abbrev Adr.ETH.ASYM (n : Nat) : RegAddr := 0x0A04C + 0x1000 * n
abbrev Adr.ETH.LINK_STAT (n : Nat) : RegAddr := 0x0A050 + 0x1000 * n
abbrev Adr.ETH.RX_FRAMES (n : Nat) : RegAddr := 0x0A060 + 0x1000 * n
abbrev Adr.ETH.TX_FRAMES (n : Nat) : RegAddr := 0x0A064 + 0x1000 * n
abbrev Adr.ETH.FCS_ERR (n : Nat) : RegAddr := 0x0A068 + 0x1000 * n
abbrev Adr.ETH.OVERSIZE (n : Nat) : RegAddr := 0x0A06C + 0x1000 * n
abbrev Adr.ETH.DROPPED (n : Nat) : RegAddr := 0x0A070 + 0x1000 * n
abbrev Adr.ETH.CNT_RESTART (n : Nat) : RegAddr := 0x0A074 + 0x1000 * n
abbrev Adr.ETH0.SW_CFG : RegAddr := 0x0A100
abbrev Adr.ETH0.HP_DSCP_LO : RegAddr := 0x0A104
abbrev Adr.ETH0.HP_DSCP_HI : RegAddr := 0x0A108
abbrev Adr.ETH0.AGE_TIME : RegAddr := 0x0A10C
abbrev Adr.ETH0.MAC_LO : RegAddr := 0x0A110
abbrev Adr.ETH0.MAC_HI : RegAddr := 0x0A114
abbrev Adr.ETH0.IP_ADDR : RegAddr := 0x0A118
abbrev Adr.ETH0.MC_SEL : RegAddr := 0x0A11C
abbrev Adr.ETH0.MC_GROUP : RegAddr := 0x0A120
abbrev Adr.ETH0.CTL_RX_UNIT : RegAddr := 0x0A124
abbrev Adr.ETH0.CTL_RX_SLOTS : RegAddr := 0x0A128
abbrev Adr.ETH0.CTL_RX_WR : RegAddr := 0x0A12C
abbrev Adr.ETH0.CTL_RX_RD : RegAddr := 0x0A130
abbrev Adr.ETH0.CTL_TX_UNIT : RegAddr := 0x0A134
abbrev Adr.ETH0.CTL_TX_SLOTS : RegAddr := 0x0A138
abbrev Adr.ETH0.CTL_TX_WR : RegAddr := 0x0A13C
abbrev Adr.ETH0.CTL_TX_RD : RegAddr := 0x0A140
abbrev Adr.ETH0.CTL_DROPPED : RegAddr := 0x0A144
abbrev Adr.IPS.FAULT_SND : RegAddr := 0x0C040
abbrev Adr.IPS.CNT_RESTART : RegAddr := 0x0C044
abbrev Adr.IPS.SND_CFG (i : Nat) : RegAddr := 0x0C100 + 0x40 * i
abbrev Adr.IPS.DST_IP_A (i : Nat) : RegAddr := 0x0C104 + 0x40 * i
abbrev Adr.IPS.DST_IP_B (i : Nat) : RegAddr := 0x0C108 + 0x40 * i
abbrev Adr.IPS.UDP (i : Nat) : RegAddr := 0x0C10C + 0x40 * i
abbrev Adr.IPS.SSRC (i : Nat) : RegAddr := 0x0C110 + 0x40 * i
abbrev Adr.IPS.RTP (i : Nat) : RegAddr := 0x0C114 + 0x40 * i
abbrev Adr.IPS.PACE_NUM (i : Nat) : RegAddr := 0x0C118 + 0x40 * i
abbrev Adr.IPS.PACE_DEN (i : Nat) : RegAddr := 0x0C11C + 0x40 * i
abbrev Adr.IPS.MEDIA (i : Nat) : RegAddr := 0x0C120 + 0x40 * i
abbrev Adr.IPS.TRO (i : Nat) : RegAddr := 0x0C124 + 0x40 * i
abbrev Adr.IPS.RACTIVE (i : Nat) : RegAddr := 0x0C128 + 0x40 * i
abbrev Adr.IPS.BURST (i : Nat) : RegAddr := 0x0C12C + 0x40 * i
abbrev Adr.IPS.NPACKETS (i : Nat) : RegAddr := 0x0C130 + 0x40 * i
abbrev Adr.IPS.SENT_FRAMES (i : Nat) : RegAddr := 0x0C134 + 0x40 * i
abbrev Adr.IPS.LATE_PKTS (i : Nat) : RegAddr := 0x0C138 + 0x40 * i
abbrev Adr.IPS.ANC_UNIT (i : Nat) : RegAddr := 0x0C13C + 0x40 * i
abbrev Adr.IPR.FAULT_RCV : RegAddr := 0x0D040
abbrev Adr.IPR.CNT_RESTART : RegAddr := 0x0D044
abbrev Adr.IPR.RCV_CFG (i : Nat) : RegAddr := 0x0D100 + 0x40 * i
abbrev Adr.IPR.GROUP_A (i : Nat) : RegAddr := 0x0D104 + 0x40 * i
abbrev Adr.IPR.GROUP_B (i : Nat) : RegAddr := 0x0D108 + 0x40 * i
abbrev Adr.IPR.SRC_FILTER (i : Nat) : RegAddr := 0x0D10C + 0x40 * i
abbrev Adr.IPR.UDP_DST (i : Nat) : RegAddr := 0x0D110 + 0x40 * i
abbrev Adr.IPR.VFMT (i : Nat) : RegAddr := 0x0D114 + 0x40 * i
abbrev Adr.IPR.VFMT2 (i : Nat) : RegAddr := 0x0D118 + 0x40 * i
abbrev Adr.IPR.BUF_UNIT (i : Nat) : RegAddr := 0x0D11C + 0x40 * i
abbrev Adr.IPR.BUF_STRIDE (i : Nat) : RegAddr := 0x0D120 + 0x40 * i
abbrev Adr.IPR.PITCH (i : Nat) : RegAddr := 0x0D124 + 0x40 * i
abbrev Adr.IPR.NBUF (i : Nat) : RegAddr := 0x0D128 + 0x40 * i
abbrev Adr.IPR.DESC_UNIT (i : Nat) : RegAddr := 0x0D12C + 0x40 * i
abbrev Adr.IPR.TRO (i : Nat) : RegAddr := 0x0D130 + 0x40 * i
abbrev Adr.IPR.RACTIVE (i : Nat) : RegAddr := 0x0D134 + 0x40 * i
abbrev Adr.IPR.FRAMES (i : Nat) : RegAddr := 0x0D138 + 0x40 * i
abbrev Adr.IPR.LOST (i : Nat) : RegAddr := 0x0D13C + 0x40 * i
abbrev Adr.BND.EMB (i : Nat) : RegAddr := 0x40040 + 0x4 * i
abbrev Adr.BND.CNT_RESTART : RegAddr := 0x40050
abbrev Adr.BND.PORT_CFG (i : Nat) : RegAddr := 0x40100 + 0x80 * i
abbrev Adr.BND.LAT (i : Nat) : RegAddr := 0x40104 + 0x80 * i
abbrev Adr.BND.PHASE_OFS (i : Nat) : RegAddr := 0x40108 + 0x80 * i
abbrev Adr.BND.MCLK_CFG (i : Nat) : RegAddr := 0x4010C + 0x80 * i
abbrev Adr.BND.HOLD_FRAMES (i : Nat) : RegAddr := 0x40110 + 0x80 * i
abbrev Adr.BND.NONPCM (i : Nat) : RegAddr := 0x40114 + 0x80 * i
abbrev Adr.BND.FRAMES (i : Nat) : RegAddr := 0x40120 + 0x80 * i
abbrev Adr.BND.SLIPS (i : Nat) : RegAddr := 0x40124 + 0x80 * i
abbrev Adr.BND.LATE_SAMPLES (i : Nat) : RegAddr := 0x40128 + 0x80 * i
abbrev Adr.BND.ROUTE_SEL : RegAddr := 0x40600
abbrev Adr.BND.ROUTE_DATA : RegAddr := 0x40604
abbrev Adr.MC.WR_WM (n : Nat) : RegAddr := 0x44040 + 0x1000 * n
abbrev Adr.MC.WR_PATIENCE (n : Nat) : RegAddr := 0x44044 + 0x1000 * n
abbrev Adr.MC.ADM_CAP (n : Nat) : RegAddr := 0x44048 + 0x1000 * n
abbrev Adr.MC.CNT_RESTART (n : Nat) : RegAddr := 0x4404C + 0x1000 * n
abbrev Adr.MC.CE_LINK (n i : Nat) : RegAddr := 0x44100 + 0x1000 * n + 0x20 * i
abbrev Adr.MC.CE_INLINE (n i : Nat) : RegAddr := 0x44104 + 0x1000 * n + 0x20 * i
abbrev Adr.MC.UE (n i : Nat) : RegAddr := 0x44108 + 0x1000 * n + 0x20 * i
abbrev Adr.MC.FORCED_REF (n i : Nat) : RegAddr := 0x4410C + 0x1000 * n + 0x20 * i
abbrev Adr.MC.WR_URGENT (n i : Nat) : RegAddr := 0x44110 + 0x1000 * n + 0x20 * i
abbrev Adr.MC.REF_DEBT (n i : Nat) : RegAddr := 0x44114 + 0x1000 * n + 0x20 * i
abbrev Adr.MCT.DRAM_CFG : RegAddr := 0x48040
abbrev Adr.MCT.ADDR_MAP : RegAddr := 0x48044
abbrev Adr.MCT.TRAIN_CMD : RegAddr := 0x48048
abbrev Adr.MCT.TRAIN_STAT : RegAddr := 0x4804C
abbrev Adr.MCT.LANE_FAIL : RegAddr := 0x48050
abbrev Adr.MCT.RECENTRE_MS : RegAddr := 0x48054
abbrev Adr.MCT.CAPACITY : RegAddr := 0x48058
abbrev Adr.MCT.LANE_SEL : RegAddr := 0x4805C
abbrev Adr.MCT.LANE_POS : RegAddr := 0x48060
abbrev Adr.MCT.RECENTRE_COUNT : RegAddr := 0x48064
abbrev Adr.ARB.DESC_UNIT : RegAddr := 0x4C040
abbrev Adr.ARB.DESC_SLOTS : RegAddr := 0x4C044
abbrev Adr.ARB.SUB_IDX : RegAddr := 0x4C048
abbrev Adr.ARB.DONE_IDX : RegAddr := 0x4C04C
abbrev Adr.ARB.SEEN_IDX : RegAddr := 0x4C050
abbrev Adr.ARB.CHECK_MID : RegAddr := 0x4C054
abbrev Adr.ARB.JOBS : RegAddr := 0x4C058
abbrev Adr.ARB.FAILED : RegAddr := 0x4C05C
abbrev Adr.ARB.CNT_RESTART : RegAddr := 0x4C060
abbrev Adr.DOV.ADC_CFG : RegAddr := 0x05040
abbrev Adr.DOV.CAL_CFG : RegAddr := 0x05044
abbrev Adr.DOV.DRIFT_TOL : RegAddr := 0x05048
abbrev Adr.DOV.DRIFT_AGREE : RegAddr := 0x0504C
abbrev Adr.DOV.OBS_INTERVAL : RegAddr := 0x05050
abbrev Adr.DOV.REF_STAT : RegAddr := 0x05054
abbrev Adr.DOV.CAL_STAT : RegAddr := 0x05058
abbrev Adr.DOV.CAL_REJECT : RegAddr := 0x0505C
abbrev Adr.DOV.OVERRUN : RegAddr := 0x05060
abbrev Adr.DOV.CNT_RESTART : RegAddr := 0x05064
abbrev Adr.DOV.SLICE_CAL (i : Nat) : RegAddr := 0x05080 + 0x4 * i
abbrev Adr.DOV.CH_CORR (i : Nat) : RegAddr := 0x050C0 + 0x4 * i
abbrev Adr.DOV.SW_TRIG : RegAddr := 0x05110
abbrev Adr.DOV.SLOT_CFG (i : Nat) : RegAddr := 0x05200 + 0x10 * i
abbrev Adr.DOV.PERIOD_US (i : Nat) : RegAddr := 0x05204 + 0x10 * i
abbrev Adr.DOV.DELAY (i : Nat) : RegAddr := 0x05208 + 0x10 * i
abbrev Adr.DOV.LIMIT (i : Nat) : RegAddr := 0x0520C + 0x10 * i
abbrev Adr.DOV.RESULT_FIXED (i : Nat) : RegAddr := 0x05500 + 0x4 * i
abbrev Adr.DOV.RESULT (i : Nat) : RegAddr := 0x05520 + 0x4 * i
abbrev Adr.DOV.LIMIT_STAT : RegAddr := 0x05580
abbrev Adr.DOV.PWM_CFG (i : Nat) : RegAddr := 0x05400 + 0x10 * i
abbrev Adr.DOV.PERIOD (i : Nat) : RegAddr := 0x05404 + 0x10 * i
abbrev Adr.DOV.DUTY (i : Nat) : RegAddr := 0x05408 + 0x10 * i
abbrev Adr.DOV.EVT_CNT (i : Nat) : RegAddr := 0x0540C + 0x10 * i
abbrev Adr.ICE.T_AMB : RegAddr := 0x04040
abbrev Adr.ICE.THR_CFG : RegAddr := 0x04044
abbrev Adr.ICE.WARN : RegAddr := 0x04048
abbrev Adr.ICE.ALPHA_0 : RegAddr := 0x04050
abbrev Adr.ICE.ALPHA_1 : RegAddr := 0x04058
abbrev Adr.ICE.ALPHA_2 : RegAddr := 0x04060
abbrev Adr.ICE.ALPHA_3 : RegAddr := 0x04068
abbrev Adr.ICE.BETA_0 : RegAddr := 0x04054
abbrev Adr.ICE.BETA_1 : RegAddr := 0x0405C
abbrev Adr.ICE.BETA_2 : RegAddr := 0x04064
abbrev Adr.ICE.BETA_3 : RegAddr := 0x0406C
abbrev Adr.ICE.GAMMA_0 : RegAddr := 0x04070
abbrev Adr.ICE.GAMMA_1 : RegAddr := 0x04074
abbrev Adr.ICE.GAMMA_2 : RegAddr := 0x04078
abbrev Adr.ICE.GAMMA_3 : RegAddr := 0x0407C
abbrev Adr.ICE.BETA_PA : RegAddr := 0x04080
abbrev Adr.ICE.TEMP (i : Nat) : RegAddr := 0x04090 + 0x4 * i
abbrev Adr.ICE.LEVEL : RegAddr := 0x040A4
abbrev Adr.ICE.LEVEL_PKG : RegAddr := 0x040A8
abbrev Adr.ICE.FUSED_TEMP (i : Nat) : RegAddr := 0x040B0 + 0x4 * i
abbrev Adr.ICE.SHUTDOWN_STAT : RegAddr := 0x040C4
abbrev Adr.ICE.MODEL_CMD : RegAddr := 0x040C8
abbrev Adr.FLK.LINK_CFG (n : Nat) : RegAddr := 0x50040 + 0x1000 * n
abbrev Adr.FLK.LINK_STAT (n : Nat) : RegAddr := 0x50044 + 0x1000 * n
abbrev Adr.FLK.ASYM (n : Nat) : RegAddr := 0x50048 + 0x1000 * n
abbrev Adr.FLK.LINK_CAP (n : Nat) : RegAddr := 0x5004C + 0x1000 * n
abbrev Adr.FLK.RES_TX (n : Nat) : RegAddr := 0x50050 + 0x1000 * n
abbrev Adr.FLK.RES_RX (n : Nat) : RegAddr := 0x50054 + 0x1000 * n
abbrev Adr.FLK.REPLAYS (n : Nat) : RegAddr := 0x50058 + 0x1000 * n
abbrev Adr.FLK.HB_MISSED (n : Nat) : RegAddr := 0x5005C + 0x1000 * n
abbrev Adr.FLK.CNT_RESTART (n : Nat) : RegAddr := 0x50060 + 0x1000 * n
abbrev Adr.FLK.CH_CFG (n i : Nat) : RegAddr := 0x50100 + 0x1000 * n + 0x20 * i
abbrev Adr.FLK.RATE (n i : Nat) : RegAddr := 0x50104 + 0x1000 * n + 0x20 * i
abbrev Adr.FLK.BUF_UNIT (n i : Nat) : RegAddr := 0x50108 + 0x1000 * n + 0x20 * i
abbrev Adr.FLK.BUF_STRIDE (n i : Nat) : RegAddr := 0x5010C + 0x1000 * n + 0x20 * i
abbrev Adr.FLK.NBUF (n i : Nat) : RegAddr := 0x50110 + 0x1000 * n + 0x20 * i
abbrev Adr.FLK.DESC_UNIT (n i : Nat) : RegAddr := 0x50114 + 0x1000 * n + 0x20 * i
abbrev Adr.FLK.FRAMES (n i : Nat) : RegAddr := 0x50118 + 0x1000 * n + 0x20 * i
abbrev Adr.FLK.DROPPED (n i : Nat) : RegAddr := 0x5011C + 0x1000 * n + 0x20 * i
abbrev Adr.HIE.ROLE_CFG : RegAddr := 0x54040
abbrev Adr.HIE.HIE_STAT : RegAddr := 0x54044
abbrev Adr.HIE.EPOCH : RegAddr := 0x54048
abbrev Adr.HIE.EPOCH_CMD : RegAddr := 0x5404C
abbrev Adr.HIE.REJOIN_CMD : RegAddr := 0x54050
abbrev Adr.HIE.ALIVE_LOW : RegAddr := 0x54054
abbrev Adr.HIE.REFUSED : RegAddr := 0x54058
abbrev Adr.HIE.CNT_RESTART : RegAddr := 0x5405C
abbrev Adr.PMU.LAST_RESET : RegAddr := 0x06040
abbrev Adr.PMU.RST_CMD : RegAddr := 0x06044
abbrev Adr.PMU.WDT_CFG : RegAddr := 0x06048
abbrev Adr.PMU.WDT_KICK : RegAddr := 0x0604C
abbrev Adr.PMU.BOOT_STAT : RegAddr := 0x06050
abbrev Adr.PMU.BOOT_GEN : RegAddr := 0x06054
abbrev Adr.PMU.LIST_STOP : RegAddr := 0x06058
abbrev Adr.PMU.VSEL : RegAddr := 0x0605C
abbrev Adr.PMU.VSETTLE_US : RegAddr := 0x06060
abbrev Adr.PMU.PWR_STAT : RegAddr := 0x06064
abbrev Adr.PMU.SLEEP_CMD : RegAddr := 0x06068
abbrev Adr.PMU.SLEEP_STAT : RegAddr := 0x0606C
abbrev Adr.PMU.WAKE_CFG : RegAddr := 0x06070
abbrev Adr.PMU.WAKE_DELAY_MS : RegAddr := 0x06074
abbrev Adr.PMU.WAKE_SRC : RegAddr := 0x06078
abbrev Adr.PMU.WARM_ENTRY : RegAddr := 0x0607C
abbrev Adr.PMU.WARM_VALID : RegAddr := 0x06080
abbrev Adr.PMU.AON_TRIM : RegAddr := 0x06084
abbrev Adr.PMU.RCV_ADDR : RegAddr := 0x06088
abbrev Adr.PMU.RCV_DATA : RegAddr := 0x0608C
abbrev Adr.PMU.RCV_CMD : RegAddr := 0x06090
abbrev Adr.PMU.RCV_STAT : RegAddr := 0x06094

def Fld.GLB.UPD_PEND (rf : RegFile) : Nat := rf.fld Adr.GLB.UPD_PEND 0 16
def Fld.GLB.UPD_LATE (rf : RegFile) : Nat := rf.fld Adr.GLB.UPD_LATE 0 16
def Fld.GLB.UPD_MODE_MODE (rf : RegFile) (i : Nat) : Nat := rf.fld (Adr.GLB.UPD_MODE i) 0 3
def Fld.GLB.UPD_MODE_INDEX (rf : RegFile) (i : Nat) : Nat := rf.fld (Adr.GLB.UPD_MODE i) 8 8
def Fld.GLB.UPD_TIME_LO (rf : RegFile) (i : Nat) : Nat := rf.fld (Adr.GLB.UPD_TIME_LO i) 0 32
def Fld.GLB.UPD_TIME_HI (rf : RegFile) (i : Nat) : Nat := rf.fld (Adr.GLB.UPD_TIME_HI i) 0 8
def Fld.LDG.FC_STAT_USED (rf : RegFile) : Nat := rf.fld Adr.LDG.FC_STAT 0 9
def Fld.LDG.FC_STAT_FULL (rf : RegFile) : Nat := rf.fld Adr.LDG.FC_STAT 16 1
def Fld.LDG.FC_STAT_NEWEST (rf : RegFile) : Nat := rf.fld Adr.LDG.FC_STAT 24 8
def Fld.LDG.FC_SLOT (rf : RegFile) : Nat := rf.fld Adr.LDG.FC_SLOT 0 8
def Fld.LDG.FC_OVERFLOW (rf : RegFile) : Nat := rf.fld Adr.LDG.FC_OVERFLOW 0 32
def Fld.GTH.LOCK (rf : RegFile) : Nat := rf.fld Adr.GTH.LOCK 0 1
def Fld.GTH.TBL_SEL_TARGET (rf : RegFile) : Nat := rf.fld Adr.GTH.TBL_SEL 0 9
def Fld.GTH.TBL_SEL_WORD (rf : RegFile) : Nat := rf.fld Adr.GTH.TBL_SEL 16 5
def Fld.GTH.TBL_DATA (rf : RegFile) : Nat := rf.fld Adr.GTH.TBL_DATA 0 32
def Fld.GTH.F0_MID (rf : RegFile) : Nat := rf.fld Adr.GTH.F0_MID 0 9
def Fld.GTH.ADM_MID (rf : RegFile) : Nat := rf.fld Adr.GTH.ADM_MID 0 9
def Fld.GTH.QPB_SEL (rf : RegFile) : Nat := rf.fld Adr.GTH.QPB_SEL 0 10
def Fld.GTH.QPB_DATA (rf : RegFile) : Nat := rf.fld Adr.GTH.QPB_DATA 0 9
def Fld.GTH.WIN_BASE (rf : RegFile) (i : Nat) : Nat := rf.fld (Adr.GTH.WIN_BASE i) 0 24
def Fld.GTH.WIN_LIMIT (rf : RegFile) (i : Nat) : Nat := rf.fld (Adr.GTH.WIN_LIMIT i) 0 24
def Fld.GTH.REF_INFO_MASTER (rf : RegFile) : Nat := rf.fld Adr.GTH.REF_INFO 0 9
def Fld.GTH.REF_INFO_TARGET (rf : RegFile) : Nat := rf.fld Adr.GTH.REF_INFO 16 9
def Fld.GTH.REF_INFO_DIR (rf : RegFile) : Nat := rf.fld Adr.GTH.REF_INFO 31 1
def Fld.GTH.REF_COUNT (rf : RegFile) : Nat := rf.fld Adr.GTH.REF_COUNT 0 32
def Fld.TRL.SPEED_INDEX (rf : RegFile) : Nat := rf.fld Adr.TRL.SPEED 0 16
def Fld.TRL.OP_CUR (rf : RegFile) : Nat := rf.fld Adr.TRL.OP 0 2
def Fld.TRL.OP_STAT_BUSY (rf : RegFile) : Nat := rf.fld Adr.TRL.OP_STAT 0 1
def Fld.TRL.OP_STAT_REFUSED (rf : RegFile) : Nat := rf.fld Adr.TRL.OP_STAT 1 1
def Fld.TRL.OP_STAT_FLOW (rf : RegFile) : Nat := rf.fld Adr.TRL.OP_STAT 8 7
def Fld.TRL.OP_STAT_RES (rf : RegFile) : Nat := rf.fld Adr.TRL.OP_STAT 16 6
def Fld.TRL.PWR_BUDGET (rf : RegFile) : Nat := rf.fld Adr.TRL.PWR_BUDGET 0 16
def Fld.TRL.PWR_USED (rf : RegFile) : Nat := rf.fld Adr.TRL.PWR_USED 0 17
def Fld.TRL.BE_SLOTS (rf : RegFile) : Nat := rf.fld Adr.TRL.BE_SLOTS 0 6
def Fld.TRL.BE_PATIENCE (rf : RegFile) : Nat := rf.fld Adr.TRL.BE_PATIENCE 0 8
def Fld.TRL.FLOW_SEL (rf : RegFile) : Nat := rf.fld Adr.TRL.FLOW_SEL 0 7
def Fld.TRL.FLOW_OWNER (rf : RegFile) : Nat := rf.fld Adr.TRL.FLOW_OWNER 0 12
def Fld.TRL.FLOW_PWR_CORE (rf : RegFile) : Nat := rf.fld Adr.TRL.FLOW_PWR_CORE 0 16
def Fld.TRL.FLOW_PWR_FIXED (rf : RegFile) : Nat := rf.fld Adr.TRL.FLOW_PWR_FIXED 0 16
def Fld.TRL.FLOW_BURST (rf : RegFile) : Nat := rf.fld Adr.TRL.FLOW_BURST 0 11
def Fld.TRL.FLOW_COST_RES (rf : RegFile) (i : Nat) : Nat := rf.fld (Adr.TRL.FLOW_COST i) 0 6
def Fld.TRL.FLOW_COST_UNITS (rf : RegFile) (i : Nat) : Nat := rf.fld (Adr.TRL.FLOW_COST i) 8 20
def Fld.TRL.FLOW_STATE (rf : RegFile) : Nat := rf.fld Adr.TRL.FLOW_STATE 0 2
def Fld.TRL.ADM_STAT_BUSY (rf : RegFile) : Nat := rf.fld Adr.TRL.ADM_STAT 0 1
def Fld.TRL.ADM_STAT_REASON (rf : RegFile) : Nat := rf.fld Adr.TRL.ADM_STAT 1 3
def Fld.TRL.ADM_STAT_RES (rf : RegFile) : Nat := rf.fld Adr.TRL.ADM_STAT 4 6
def Fld.TRL.CAP (rf : RegFile) (i : Nat) : Nat := rf.fld (Adr.TRL.CAP i) 0 20
def Fld.TRL.USED (rf : RegFile) (i : Nat) : Nat := rf.fld (Adr.TRL.USED i) 0 20
def Fld.SFE.GRP_MODE_MODE (rf : RegFile) : Nat := rf.fld Adr.SFE.GRP_MODE 0 2
def Fld.SFE.GRP_MODE_JOIN_MASK (rf : RegFile) : Nat := rf.fld Adr.SFE.GRP_MODE 4 4
def Fld.SFE.JOIN_SKEW (rf : RegFile) : Nat := rf.fld Adr.SFE.JOIN_SKEW 0 16
def Fld.SFE.GRP_CFG_EN (rf : RegFile) (i : Nat) : Nat := rf.fld (Adr.SFE.GRP_CFG i) 0 1
def Fld.SFE.GRP_CFG_WIDTH (rf : RegFile) (i : Nat) : Nat := rf.fld (Adr.SFE.GRP_CFG i) 1 2
def Fld.SFE.GRP_CFG_SYNC (rf : RegFile) (i : Nat) : Nat := rf.fld (Adr.SFE.GRP_CFG i) 3 1
def Fld.SFE.GRP_CFG_LANES (rf : RegFile) (i : Nat) : Nat := rf.fld (Adr.SFE.GRP_CFG i) 4 5
def Fld.SFE.GRP_CFG_LV_DELAY (rf : RegFile) (i : Nat) : Nat := rf.fld (Adr.SFE.GRP_CFG i) 9 4
def Fld.SFE.GRP_CFG_WINDOW_EN (rf : RegFile) (i : Nat) : Nat := rf.fld (Adr.SFE.GRP_CFG i) 16 1
def Fld.SFE.GRP_CFG_TRIGGERED (rf : RegFile) (i : Nat) : Nat := rf.fld (Adr.SFE.GRP_CFG i) 17 1
def Fld.SFE.GRP_CFG_DUAL_GAIN (rf : RegFile) (i : Nat) : Nat := rf.fld (Adr.SFE.GRP_CFG i) 18 1
def Fld.SFE.GEO_WIDTH (rf : RegFile) (i : Nat) : Nat := rf.fld (Adr.SFE.GEO_WIDTH i) 0 15
def Fld.SFE.GEO_HEIGHT (rf : RegFile) (i : Nat) : Nat := rf.fld (Adr.SFE.GEO_HEIGHT i) 0 15
def Fld.SFE.PAD_CODE (rf : RegFile) (i : Nat) : Nat := rf.fld (Adr.SFE.PAD_CODE i) 0 16
def Fld.SFE.FRM_RATE_NUM (rf : RegFile) (i : Nat) : Nat := rf.fld (Adr.SFE.FRM_RATE_NUM i) 0 32
def Fld.SFE.FRM_RATE_DEN (rf : RegFile) (i : Nat) : Nat := rf.fld (Adr.SFE.FRM_RATE_DEN i) 0 32
def Fld.SFE.FS_EARLY (rf : RegFile) (i : Nat) : Nat := rf.fld (Adr.SFE.FS_EARLY i) 0 24
def Fld.SFE.FS_LATE (rf : RegFile) (i : Nat) : Nat := rf.fld (Adr.SFE.FS_LATE i) 0 24
def Fld.SFE.SOF_DELAY (rf : RegFile) (i : Nat) : Nat := rf.fld (Adr.SFE.SOF_DELAY i) 0 24
def Fld.SFE.CLOSE_TIMEOUT (rf : RegFile) (i : Nat) : Nat := rf.fld (Adr.SFE.CLOSE_TIMEOUT i) 0 16
def Fld.SFE.FRM_CNT_INIT (rf : RegFile) (i : Nat) : Nat := rf.fld (Adr.SFE.FRM_CNT_INIT i) 0 32
def Fld.SFE.MODE_ID (rf : RegFile) (i : Nat) : Nat := rf.fld (Adr.SFE.MODE_ID i) 0 8
def Fld.SFE.TRIG_CFG_VT_EN (rf : RegFile) (i : Nat) : Nat := rf.fld (Adr.SFE.TRIG_CFG i) 0 1
def Fld.SFE.TRIG_CFG_HT_EN (rf : RegFile) (i : Nat) : Nat := rf.fld (Adr.SFE.TRIG_CFG i) 1 1
def Fld.SFE.TRIG_CFG_POL (rf : RegFile) (i : Nat) : Nat := rf.fld (Adr.SFE.TRIG_CFG i) 2 1
def Fld.SFE.TRIG_CFG_VT_WIDTH (rf : RegFile) (i : Nat) : Nat := rf.fld (Adr.SFE.TRIG_CFG i) 8 8
def Fld.SFE.HT_PERIOD (rf : RegFile) (i : Nat) : Nat := rf.fld (Adr.SFE.HT_PERIOD i) 0 16
def Fld.SFE.HT_COUNT (rf : RegFile) (i : Nat) : Nat := rf.fld (Adr.SFE.HT_COUNT i) 0 14
def Fld.SFE.HT_DELAY (rf : RegFile) (i : Nat) : Nat := rf.fld (Adr.SFE.HT_DELAY i) 0 16
def Fld.SFE.TRIG_START_LO (rf : RegFile) (i : Nat) : Nat := rf.fld (Adr.SFE.TRIG_START_LO i) 0 32
def Fld.SFE.TRIG_START_HI (rf : RegFile) (i : Nat) : Nat := rf.fld (Adr.SFE.TRIG_START_HI i) 0 8
def Fld.SFE.SHORT_LINES (rf : RegFile) (i : Nat) : Nat := rf.fld (Adr.SFE.SHORT_LINES i) 0 32
def Fld.SFE.LONG_PIXELS (rf : RegFile) (i : Nat) : Nat := rf.fld (Adr.SFE.LONG_PIXELS i) 0 32
def Fld.SFE.LONG_LINES (rf : RegFile) (i : Nat) : Nat := rf.fld (Adr.SFE.LONG_LINES i) 0 32
def Fld.SFE.LATE_SOF (rf : RegFile) (i : Nat) : Nat := rf.fld (Adr.SFE.LATE_SOF i) 0 32
def Fld.SFE.SKIPPED (rf : RegFile) (i : Nat) : Nat := rf.fld (Adr.SFE.SKIPPED i) 0 32
def Fld.SFE.TRUNCATED (rf : RegFile) (i : Nat) : Nat := rf.fld (Adr.SFE.TRUNCATED i) 0 32
def Fld.SFE.SYNC_ERR (rf : RegFile) (i : Nat) : Nat := rf.fld (Adr.SFE.SYNC_ERR i) 0 32
def Fld.SFE.MCLK_INT_INT (rf : RegFile) (i : Nat) : Nat := rf.fld (Adr.SFE.MCLK_INT i) 0 9
def Fld.SFE.MCLK_INT_EN (rf : RegFile) (i : Nat) : Nat := rf.fld (Adr.SFE.MCLK_INT i) 31 1
def Fld.SFE.MCLK_FRAC (rf : RegFile) (i : Nat) : Nat := rf.fld (Adr.SFE.MCLK_FRAC i) 0 24
def Fld.SFE.SPI_CFG_MODE (rf : RegFile) (i : Nat) : Nat := rf.fld (Adr.SFE.SPI_CFG i) 0 2
def Fld.SFE.SPI_CFG_DIV (rf : RegFile) (i : Nat) : Nat := rf.fld (Adr.SFE.SPI_CFG i) 8 8
def Fld.SFE.SPI_DATA (rf : RegFile) (i : Nat) : Nat := rf.fld (Adr.SFE.SPI_DATA i) 0 8
def Fld.SFE.SPI_STAT_BUSY (rf : RegFile) (i : Nat) : Nat := rf.fld (Adr.SFE.SPI_STAT i) 0 1
def Fld.SFE.SPI_STAT_DEFERRED (rf : RegFile) (i : Nat) : Nat := rf.fld (Adr.SFE.SPI_STAT i) 1 1
def Fld.SFE.SPI_STAT_RX_LEVEL (rf : RegFile) (i : Nat) : Nat := rf.fld (Adr.SFE.SPI_STAT i) 8 7
def Fld.SFE.I2C_CFG_SPEED (rf : RegFile) (i : Nat) : Nat := rf.fld (Adr.SFE.I2C_CFG i) 0 2
def Fld.SFE.I2C_CFG_ADDR (rf : RegFile) (i : Nat) : Nat := rf.fld (Adr.SFE.I2C_CFG i) 8 7
def Fld.SFE.I2C_DATA (rf : RegFile) (i : Nat) : Nat := rf.fld (Adr.SFE.I2C_DATA i) 0 8
def Fld.SFE.I2C_STAT_BUSY (rf : RegFile) (i : Nat) : Nat := rf.fld (Adr.SFE.I2C_STAT i) 0 1
def Fld.SFE.I2C_STAT_NACK (rf : RegFile) (i : Nat) : Nat := rf.fld (Adr.SFE.I2C_STAT i) 1 1
def Fld.SFE.I2C_STAT_DEFERRED (rf : RegFile) (i : Nat) : Nat := rf.fld (Adr.SFE.I2C_STAT i) 2 1
def Fld.SFE.I2C_STAT_RX_LEVEL (rf : RegFile) (i : Nat) : Nat := rf.fld (Adr.SFE.I2C_STAT i) 8 7
def Fld.SFL.TRACK_CTL_EN (rf : RegFile) : Nat := rf.fld Adr.SFL.TRACK_CTL 0 4
def Fld.SFL.RATE (rf : RegFile) (i : Nat) : Nat := rf.fld (Adr.SFL.RATE i) 0 13
def Fld.SFL.TRAIN_WORD (rf : RegFile) (i : Nat) : Nat := rf.fld (Adr.SFL.TRAIN_WORD i) 0 16
def Fld.SFL.DESKEW_WORD (rf : RegFile) (i : Nat) : Nat := rf.fld (Adr.SFL.DESKEW_WORD i) 0 16
def Fld.SFL.DESKEW_STAT_ALIGNED (rf : RegFile) (i : Nat) : Nat := rf.fld (Adr.SFL.DESKEW_STAT i) 0 1
def Fld.SFL.DESKEW_STAT_BUSY (rf : RegFile) (i : Nat) : Nat := rf.fld (Adr.SFL.DESKEW_STAT i) 1 1
def Fld.SFL.DESKEW_STAT_FAIL (rf : RegFile) (i : Nat) : Nat := rf.fld (Adr.SFL.DESKEW_STAT i) 2 1
def Fld.SFL.DESKEW_STAT_LANE_FAIL (rf : RegFile) (i : Nat) : Nat := rf.fld (Adr.SFL.DESKEW_STAT i) 8 20
def Fld.SFL.LANE_POS_TAP (rf : RegFile) (i : Nat) : Nat := rf.fld (Adr.SFL.LANE_POS i) 0 6
def Fld.SFL.LANE_POS_WORD_OFS (rf : RegFile) (i : Nat) : Nat := rf.fld (Adr.SFL.LANE_POS i) 8 5
def Fld.SFL.LANE_POS_EYE_LOW (rf : RegFile) (i : Nat) : Nat := rf.fld (Adr.SFL.LANE_POS i) 16 1
def Fld.RCN.CTX_CFG_EN (rf : RegFile) (i : Nat) : Nat := rf.fld (Adr.RCN.CTX_CFG i) 0 1
def Fld.RCN.CTX_CFG_DARK_EN (rf : RegFile) (i : Nat) : Nat := rf.fld (Adr.RCN.CTX_CFG i) 1 1
def Fld.RCN.CTX_CFG_DEF_EN (rf : RegFile) (i : Nat) : Nat := rf.fld (Adr.RCN.CTX_CFG i) 2 1
def Fld.RCN.CTX_CFG_COL_EN (rf : RegFile) (i : Nat) : Nat := rf.fld (Adr.RCN.CTX_CFG i) 3 1
def Fld.RCN.CTX_CFG_ROW_EN (rf : RegFile) (i : Nat) : Nat := rf.fld (Adr.RCN.CTX_CFG i) 4 1
def Fld.RCN.CTX_CFG_FF_EN (rf : RegFile) (i : Nat) : Nat := rf.fld (Adr.RCN.CTX_CFG i) 5 1
def Fld.RCN.CTX_CFG_DEF_STRIDE (rf : RegFile) (i : Nat) : Nat := rf.fld (Adr.RCN.CTX_CFG i) 8 1
def Fld.RCN.CTX_CFG_DARK_SHIFT (rf : RegFile) (i : Nat) : Nat := rf.fld (Adr.RCN.CTX_CFG i) 12 3
def Fld.RCN.CTX_CFG_FF_CELL (rf : RegFile) (i : Nat) : Nat := rf.fld (Adr.RCN.CTX_CFG i) 16 4
def Fld.RCN.DARK_BASE (rf : RegFile) (i : Nat) : Nat := rf.fld (Adr.RCN.DARK_BASE i) 0 16
def Fld.RCN.DARK_UNIT (rf : RegFile) (i : Nat) : Nat := rf.fld (Adr.RCN.DARK_UNIT i) 0 24
def Fld.RCN.DARK_PITCH (rf : RegFile) (i : Nat) : Nat := rf.fld (Adr.RCN.DARK_PITCH i) 0 17
def Fld.RCN.DEF_UNIT (rf : RegFile) (i : Nat) : Nat := rf.fld (Adr.RCN.DEF_UNIT i) 0 24
def Fld.RCN.DEF_COUNT (rf : RegFile) (i : Nat) : Nat := rf.fld (Adr.RCN.DEF_COUNT i) 0 19
def Fld.RCN.COL_UNIT (rf : RegFile) (i : Nat) : Nat := rf.fld (Adr.RCN.COL_UNIT i) 0 24
def Fld.RCN.OB_OB_COL0 (rf : RegFile) (i : Nat) : Nat := rf.fld (Adr.RCN.OB i) 0 14
def Fld.RCN.OB_OB_LOG2 (rf : RegFile) (i : Nat) : Nat := rf.fld (Adr.RCN.OB i) 16 4
def Fld.RCN.OB_TARGET (rf : RegFile) (i : Nat) : Nat := rf.fld (Adr.RCN.OB_TARGET i) 0 16
def Fld.RCN.ROW_LIMIT (rf : RegFile) (i : Nat) : Nat := rf.fld (Adr.RCN.ROW_LIMIT i) 0 15
def Fld.RCN.HDR_T0 (rf : RegFile) (i : Nat) : Nat := rf.fld (Adr.RCN.HDR_T0 i) 0 21
def Fld.RCN.HDR_SPAN_LOG2 (rf : RegFile) (i : Nat) : Nat := rf.fld (Adr.RCN.HDR_SPAN_LOG2 i) 0 5
def Fld.RCN.HDR_RATIO (rf : RegFile) (i : Nat) : Nat := rf.fld (Adr.RCN.HDR_RATIO i) 0 24
def Fld.RCN.FF_UNIT (rf : RegFile) (i : Nat) : Nat := rf.fld (Adr.RCN.FF_UNIT i) 0 24
def Fld.RCN.FF_PITCH (rf : RegFile) (i : Nat) : Nat := rf.fld (Adr.RCN.FF_PITCH i) 0 17
def Fld.RCN.DEF_UNFIXED (rf : RegFile) (i : Nat) : Nat := rf.fld (Adr.RCN.DEF_UNFIXED i) 0 32
def Fld.RCN.DEF_REJECTED (rf : RegFile) (i : Nat) : Nat := rf.fld (Adr.RCN.DEF_REJECTED i) 0 32
def Fld.RCN.TABLE_ERR (rf : RegFile) (i : Nat) : Nat := rf.fld (Adr.RCN.TABLE_ERR i) 0 32
def Fld.RCN.ROW_LIMITED (rf : RegFile) (i : Nat) : Nat := rf.fld (Adr.RCN.ROW_LIMITED i) 0 32
def Fld.RCS.INT_CFG_TAP (rf : RegFile) : Nat := rf.fld Adr.RCS.INT_CFG 0 1
def Fld.RCS.INT_CFG_GAIN_SEL (rf : RegFile) : Nat := rf.fld Adr.RCS.INT_CFG 1 1
def Fld.RCS.INT_CFG_SKIP_TAGGED (rf : RegFile) : Nat := rf.fld Adr.RCS.INT_CFG 2 1
def Fld.RCS.INT_CFG_CTX (rf : RegFile) : Nat := rf.fld Adr.RCS.INT_CFG 4 2
def Fld.RCS.INT_CFG_EVERY (rf : RegFile) : Nat := rf.fld Adr.RCS.INT_CFG 8 4
def Fld.RCS.INT_TARGET (rf : RegFile) : Nat := rf.fld Adr.RCS.INT_TARGET 0 16
def Fld.RCS.INT_STAT_STATE (rf : RegFile) : Nat := rf.fld Adr.RCS.INT_STAT 0 3
def Fld.RCS.INT_STAT_AVG_BUSY (rf : RegFile) : Nat := rf.fld Adr.RCS.INT_STAT 4 1
def Fld.RCS.INT_STAT_FRAMES (rf : RegFile) : Nat := rf.fld Adr.RCS.INT_STAT 16 16
def Fld.RCS.SATURATED_TILES (rf : RegFile) : Nat := rf.fld Adr.RCS.SATURATED_TILES 0 17
def Fld.RCS.INT_REJECTED (rf : RegFile) : Nat := rf.fld Adr.RCS.INT_REJECTED 0 32
def Fld.RCS.INT_UNIT (rf : RegFile) : Nat := rf.fld Adr.RCS.INT_UNIT 0 24
def Fld.RCS.INT_PITCH (rf : RegFile) : Nat := rf.fld Adr.RCS.INT_PITCH 0 18
def Fld.RCS.INT_TILE_UNIT (rf : RegFile) : Nat := rf.fld Adr.RCS.INT_TILE_UNIT 0 24
def Fld.RCS.INT_AVG_UNIT (rf : RegFile) : Nat := rf.fld Adr.RCS.INT_AVG_UNIT 0 24
def Fld.RCS.REG_CTL_EN (rf : RegFile) (i : Nat) : Nat := rf.fld (Adr.RCS.REG_CTL i) 0 1
def Fld.RCS.REG_CTL_CTX (rf : RegFile) (i : Nat) : Nat := rf.fld (Adr.RCS.REG_CTL i) 4 2
def Fld.RCS.REG_POS_X0 (rf : RegFile) (i : Nat) : Nat := rf.fld (Adr.RCS.REG_POS i) 0 14
def Fld.RCS.REG_POS_Y0 (rf : RegFile) (i : Nat) : Nat := rf.fld (Adr.RCS.REG_POS i) 16 14
def Fld.RCS.REG_SIZE_W (rf : RegFile) (i : Nat) : Nat := rf.fld (Adr.RCS.REG_SIZE i) 0 15
def Fld.RCS.REG_SIZE_H (rf : RegFile) (i : Nat) : Nat := rf.fld (Adr.RCS.REG_SIZE i) 16 14
def Fld.RCS.REG_CLIP_CLIP_HI (rf : RegFile) (i : Nat) : Nat := rf.fld (Adr.RCS.REG_CLIP i) 0 25
def Fld.EBE.ENC_CFG_EN (rf : RegFile) (i : Nat) : Nat := rf.fld (Adr.EBE.ENC_CFG i) 0 1
def Fld.EBE.ENC_CFG_CW (rf : RegFile) (i : Nat) : Nat := rf.fld (Adr.EBE.ENC_CFG i) 1 2
def Fld.EBE.ENC_CFG_RATIO2 (rf : RegFile) (i : Nat) : Nat := rf.fld (Adr.EBE.ENC_CFG i) 8 6
def Fld.EBE.ENC_CFG_CFA_ID (rf : RegFile) (i : Nat) : Nat := rf.fld (Adr.EBE.ENC_CFG i) 16 4
def Fld.EBE.ENC_CFG_USER_EN (rf : RegFile) (i : Nat) : Nat := rf.fld (Adr.EBE.ENC_CFG i) 20 1
def Fld.EBE.PEDESTAL (rf : RegFile) (i : Nat) : Nat := rf.fld (Adr.EBE.PEDESTAL i) 0 16
def Fld.EBE.RING_UNIT (rf : RegFile) (i : Nat) : Nat := rf.fld (Adr.EBE.RING_UNIT i) 0 24
def Fld.EBE.RING_UNITS (rf : RegFile) (i : Nat) : Nat := rf.fld (Adr.EBE.RING_UNITS i) 0 24
def Fld.EBE.COMMIT_RESERVE (rf : RegFile) (i : Nat) : Nat := rf.fld (Adr.EBE.COMMIT_RESERVE i) 0 16
def Fld.EBE.USER_UNIT (rf : RegFile) (i : Nat) : Nat := rf.fld (Adr.EBE.USER_UNIT i) 0 24
def Fld.EBE.PREROLL_FRAMES (rf : RegFile) (i : Nat) : Nat := rf.fld (Adr.EBE.PREROLL_FRAMES i) 0 16
def Fld.EBE.REC_AT_COUNT (rf : RegFile) (i : Nat) : Nat := rf.fld (Adr.EBE.REC_AT_COUNT i) 0 32
def Fld.EBE.REC_STAT_STATE (rf : RegFile) (i : Nat) : Nat := rf.fld (Adr.EBE.REC_STAT i) 0 2
def Fld.EBE.REC_STAT_LATE (rf : RegFile) (i : Nat) : Nat := rf.fld (Adr.EBE.REC_STAT i) 4 1
def Fld.EBE.REC_STAT_GEOM_END (rf : RegFile) (i : Nat) : Nat := rf.fld (Adr.EBE.REC_STAT i) 5 1
def Fld.EBE.REC_STAT_TAKE_SEQ (rf : RegFile) (i : Nat) : Nat := rf.fld (Adr.EBE.REC_STAT i) 16 16
def Fld.EBE.TILE_BYTES (rf : RegFile) (i : Nat) : Nat := rf.fld (Adr.EBE.TILE_BYTES i) 0 14
def Fld.EBE.STRIDE_UNITS (rf : RegFile) (i : Nat) : Nat := rf.fld (Adr.EBE.STRIDE_UNITS i) 0 24
def Fld.EBE.FRAMES_WHOLE (rf : RegFile) (i : Nat) : Nat := rf.fld (Adr.EBE.FRAMES_WHOLE i) 0 24
def Fld.EBE.HELD (rf : RegFile) (i : Nat) : Nat := rf.fld (Adr.EBE.HELD i) 0 24
def Fld.EBE.HOLD_SEGS (rf : RegFile) (i : Nat) : Nat := rf.fld (Adr.EBE.HOLD_SEGS i) 0 32
def Fld.EBE.RAW_TILES (rf : RegFile) (i : Nat) : Nat := rf.fld (Adr.EBE.RAW_TILES i) 0 32
def Fld.EBE.RING_FULL (rf : RegFile) (i : Nat) : Nat := rf.fld (Adr.EBE.RING_FULL i) 0 32
def Fld.EBE.MAP_CLIPPED (rf : RegFile) (i : Nat) : Nat := rf.fld (Adr.EBE.MAP_CLIPPED i) 0 32
def Fld.EBE.WRITE_ERR (rf : RegFile) (i : Nat) : Nat := rf.fld (Adr.EBE.WRITE_ERR i) 0 32
def Fld.EBD.OUT_GEO_OUT_W (rf : RegFile) : Nat := rf.fld Adr.EBD.OUT_GEO 0 15
def Fld.EBD.OUT_GEO_OUT_H (rf : RegFile) : Nat := rf.fld Adr.EBD.OUT_GEO 16 15
def Fld.EBD.SRC_UNIT (rf : RegFile) : Nat := rf.fld Adr.EBD.SRC_UNIT 0 24
def Fld.EBD.STRIDE_UNITS (rf : RegFile) : Nat := rf.fld Adr.EBD.STRIDE_UNITS 0 24
def Fld.EBD.WRAP_UNIT (rf : RegFile) : Nat := rf.fld Adr.EBD.WRAP_UNIT 0 24
def Fld.EBD.WRAP_UNITS (rf : RegFile) : Nat := rf.fld Adr.EBD.WRAP_UNITS 0 24
def Fld.EBD.COUNT (rf : RegFile) : Nat := rf.fld Adr.EBD.COUNT 0 32
def Fld.EBD.EXPECT_FC (rf : RegFile) : Nat := rf.fld Adr.EBD.EXPECT_FC 0 32
def Fld.EBD.PLAY_CFG_EXPECT_EN (rf : RegFile) : Nat := rf.fld Adr.EBD.PLAY_CFG 0 1
def Fld.EBD.PACE_NUM (rf : RegFile) : Nat := rf.fld Adr.EBD.PACE_NUM 0 32
def Fld.EBD.PACE_DEN (rf : RegFile) : Nat := rf.fld Adr.EBD.PACE_DEN 0 32
def Fld.EBD.PACE_START_LO (rf : RegFile) : Nat := rf.fld Adr.EBD.PACE_START_LO 0 32
def Fld.EBD.PACE_START_HI (rf : RegFile) : Nat := rf.fld Adr.EBD.PACE_START_HI 0 8
def Fld.EBD.FRAMES_DONE (rf : RegFile) : Nat := rf.fld Adr.EBD.FRAMES_DONE 0 32
def Fld.EBD.HDR_ERR (rf : RegFile) : Nat := rf.fld Adr.EBD.HDR_ERR 0 32
def Fld.EBD.TILE_ERR (rf : RegFile) : Nat := rf.fld Adr.EBD.TILE_ERR 0 32
def Fld.EBD.STALE_FRAMES (rf : RegFile) : Nat := rf.fld Adr.EBD.STALE_FRAMES 0 32
def Fld.ORG.STAT_CFG_EN (rf : RegFile) : Nat := rf.fld Adr.ORG.STAT_CFG 0 1
def Fld.ORG.STAT_CFG_CTX (rf : RegFile) : Nat := rf.fld Adr.ORG.STAT_CFG 1 1
def Fld.ORG.STAT_CFG_HIST_EN (rf : RegFile) : Nat := rf.fld Adr.ORG.STAT_CFG 2 1
def Fld.ORG.STAT_LO (rf : RegFile) : Nat := rf.fld Adr.ORG.STAT_LO 0 25
def Fld.ORG.STAT_HI (rf : RegFile) : Nat := rf.fld Adr.ORG.STAT_HI 0 25
def Fld.ORG.HIST_UNIT (rf : RegFile) : Nat := rf.fld Adr.ORG.HIST_UNIT 0 24
def Fld.ORG.REG_CTL_EN (rf : RegFile) (i : Nat) : Nat := rf.fld (Adr.ORG.REG_CTL i) 0 1
def Fld.ORG.REG_POS_X0 (rf : RegFile) (i : Nat) : Nat := rf.fld (Adr.ORG.REG_POS i) 0 14
def Fld.ORG.REG_POS_Y0 (rf : RegFile) (i : Nat) : Nat := rf.fld (Adr.ORG.REG_POS i) 16 14
def Fld.ORG.REG_SIZE_W (rf : RegFile) (i : Nat) : Nat := rf.fld (Adr.ORG.REG_SIZE i) 0 15
def Fld.ORG.REG_SIZE_H (rf : RegFile) (i : Nat) : Nat := rf.fld (Adr.ORG.REG_SIZE i) 16 15
def Fld.ORG.CTX_CFG_EN (rf : RegFile) (i : Nat) : Nat := rf.fld (Adr.ORG.CTX_CFG i) 0 1
def Fld.ORG.CTX_CFG_SRC (rf : RegFile) (i : Nat) : Nat := rf.fld (Adr.ORG.CTX_CFG i) 1 2
def Fld.ORG.CTX_CFG_CFA (rf : RegFile) (i : Nat) : Nat := rf.fld (Adr.ORG.CTX_CFG i) 4 3
def Fld.ORG.CTX_CFG_CFA_FROM_HDR (rf : RegFile) (i : Nat) : Nat := rf.fld (Adr.ORG.CTX_CFG i) 8 1
def Fld.ORG.WB_GAIN_0 (rf : RegFile) (i : Nat) : Nat := rf.fld (Adr.ORG.WB_GAIN_0 i) 0 16
def Fld.ORG.WB_GAIN_1 (rf : RegFile) (i : Nat) : Nat := rf.fld (Adr.ORG.WB_GAIN_1 i) 0 16
def Fld.ORG.WB_GAIN_2 (rf : RegFile) (i : Nat) : Nat := rf.fld (Adr.ORG.WB_GAIN_2 i) 0 16
def Fld.ORG.WB_GAIN_3 (rf : RegFile) (i : Nat) : Nat := rf.fld (Adr.ORG.WB_GAIN_3 i) 0 16
def Fld.ORG.HL_CLIP (rf : RegFile) (i : Nat) : Nat := rf.fld (Adr.ORG.HL_CLIP i) 0 25
def Fld.ORG.DM_T (rf : RegFile) (i : Nat) : Nat := rf.fld (Adr.ORG.DM_T i) 0 24
def Fld.ORG.MAT_0_0 (rf : RegFile) (i : Nat) : Nat := rf.fld (Adr.ORG.MAT_0_0 i) 0 19
def Fld.ORG.MAT_0_1 (rf : RegFile) (i : Nat) : Nat := rf.fld (Adr.ORG.MAT_0_1 i) 0 19
def Fld.ORG.MAT_0_2 (rf : RegFile) (i : Nat) : Nat := rf.fld (Adr.ORG.MAT_0_2 i) 0 19
def Fld.ORG.MAT_1_0 (rf : RegFile) (i : Nat) : Nat := rf.fld (Adr.ORG.MAT_1_0 i) 0 19
def Fld.ORG.MAT_1_1 (rf : RegFile) (i : Nat) : Nat := rf.fld (Adr.ORG.MAT_1_1 i) 0 19
def Fld.ORG.MAT_1_2 (rf : RegFile) (i : Nat) : Nat := rf.fld (Adr.ORG.MAT_1_2 i) 0 19
def Fld.ORG.MAT_2_0 (rf : RegFile) (i : Nat) : Nat := rf.fld (Adr.ORG.MAT_2_0 i) 0 19
def Fld.ORG.MAT_2_1 (rf : RegFile) (i : Nat) : Nat := rf.fld (Adr.ORG.MAT_2_1 i) 0 19
def Fld.ORG.MAT_2_2 (rf : RegFile) (i : Nat) : Nat := rf.fld (Adr.ORG.MAT_2_2 i) 0 19
def Fld.ORG.OFS_0 (rf : RegFile) (i : Nat) : Nat := rf.fld (Adr.ORG.OFS_0 i) 0 25
def Fld.ORG.OFS_1 (rf : RegFile) (i : Nat) : Nat := rf.fld (Adr.ORG.OFS_1 i) 0 25
def Fld.ORG.OFS_2 (rf : RegFile) (i : Nat) : Nat := rf.fld (Adr.ORG.OFS_2 i) 0 25
def Fld.ORG.FRAMES (rf : RegFile) (i : Nat) : Nat := rf.fld (Adr.ORG.FRAMES i) 0 32
def Fld.ORG.CFA_BAD (rf : RegFile) (i : Nat) : Nat := rf.fld (Adr.ORG.CFA_BAD i) 0 32
def Fld.ORG.LAST_FC (rf : RegFile) (i : Nat) : Nat := rf.fld (Adr.ORG.LAST_FC i) 0 32
def Fld.ORL.TBL_SEL_ID (rf : RegFile) : Nat := rf.fld Adr.ORL.TBL_SEL 0 8
def Fld.ORL.TBL_SEL_COPY (rf : RegFile) : Nat := rf.fld Adr.ORL.TBL_SEL 8 1
def Fld.ORL.TBL_ADDR (rf : RegFile) : Nat := rf.fld Adr.ORL.TBL_ADDR 0 19
def Fld.ORL.TBL_DATA (rf : RegFile) : Nat := rf.fld Adr.ORL.TBL_DATA 0 32
def Fld.ORL.TBL_STAT_IN_USE (rf : RegFile) : Nat := rf.fld Adr.ORL.TBL_STAT 0 1
def Fld.ORL.TBL_STAT_OTHER_IN_USE (rf : RegFile) : Nat := rf.fld Adr.ORL.TBL_STAT 1 1
def Fld.ORL.REFUSED (rf : RegFile) : Nat := rf.fld Adr.ORL.REFUSED 0 32
def Fld.ORL.LOAD_UNIT (rf : RegFile) : Nat := rf.fld Adr.ORL.LOAD_UNIT 0 24
def Fld.ORL.LOAD_STAT_BUSY (rf : RegFile) : Nat := rf.fld Adr.ORL.LOAD_STAT 0 1
def Fld.ORL.LOAD_STAT_DONE (rf : RegFile) : Nat := rf.fld Adr.ORL.LOAD_STAT 1 1
def Fld.ORL.LOAD_STAT_ERR (rf : RegFile) : Nat := rf.fld Adr.ORL.LOAD_STAT 2 1
def Fld.ORL.LOAD_STAT_ABORTED (rf : RegFile) : Nat := rf.fld Adr.ORL.LOAD_STAT 3 1
def Fld.PAT.PATTERN (rf : RegFile) : Nat := rf.fld Adr.PAT.PATTERN 0 3
def Fld.PAT.SIZE_PAT_W (rf : RegFile) : Nat := rf.fld Adr.PAT.SIZE 0 15
def Fld.PAT.SIZE_PAT_H (rf : RegFile) : Nat := rf.fld Adr.PAT.SIZE 16 15
def Fld.PAT.RATE_NUM (rf : RegFile) : Nat := rf.fld Adr.PAT.RATE_NUM 0 32
def Fld.PAT.RATE_DEN (rf : RegFile) : Nat := rf.fld Adr.PAT.RATE_DEN 0 32
def Fld.PAT.PAT_START_LO (rf : RegFile) : Nat := rf.fld Adr.PAT.PAT_START_LO 0 32
def Fld.PAT.PAT_START_HI (rf : RegFile) : Nat := rf.fld Adr.PAT.PAT_START_HI 0 8
def Fld.PAT.COLOUR0_A (rf : RegFile) : Nat := rf.fld Adr.PAT.COLOUR0_A 0 32
def Fld.PAT.COLOUR0_B (rf : RegFile) : Nat := rf.fld Adr.PAT.COLOUR0_B 0 16
def Fld.PAT.COLOUR1_A (rf : RegFile) : Nat := rf.fld Adr.PAT.COLOUR1_A 0 32
def Fld.PAT.COLOUR1_B (rf : RegFile) : Nat := rf.fld Adr.PAT.COLOUR1_B 0 16
def Fld.PAT.LEVEL (rf : RegFile) : Nat := rf.fld Adr.PAT.LEVEL 0 16
def Fld.PAT.CHECK_LOG2 (rf : RegFile) : Nat := rf.fld Adr.PAT.CHECK_LOG2 0 4
def Fld.PAT.ZONE_K_KX (rf : RegFile) : Nat := rf.fld Adr.PAT.ZONE_K 0 16
def Fld.PAT.ZONE_K_KY (rf : RegFile) : Nat := rf.fld Adr.PAT.ZONE_K 16 16
def Fld.PAT.ZONE_KT (rf : RegFile) : Nat := rf.fld Adr.PAT.ZONE_KT 0 16
def Fld.PAT.DX (rf : RegFile) : Nat := rf.fld Adr.PAT.DX 0 14
def Fld.PAT.SEED (rf : RegFile) : Nat := rf.fld Adr.PAT.SEED 0 31
def Fld.PAT.FRAMES (rf : RegFile) : Nat := rf.fld Adr.PAT.FRAMES 0 32
def Fld.VW.SRC_CFG_SRC (rf : RegFile) (n : Nat) : Nat := rf.fld (Adr.VW.SRC_CFG n) 0 8
def Fld.VW.SRC_CFG_FRAME_DIV (rf : RegFile) (n : Nat) : Nat := rf.fld (Adr.VW.SRC_CFG n) 8 4
def Fld.VW.PACE_NUM (rf : RegFile) (n : Nat) : Nat := rf.fld (Adr.VW.PACE_NUM n) 0 32
def Fld.VW.PACE_DEN (rf : RegFile) (n : Nat) : Nat := rf.fld (Adr.VW.PACE_DEN n) 0 32
def Fld.VW.PACE_START_LO (rf : RegFile) (n : Nat) : Nat := rf.fld (Adr.VW.PACE_START_LO n) 0 32
def Fld.VW.PACE_START_HI (rf : RegFile) (n : Nat) : Nat := rf.fld (Adr.VW.PACE_START_HI n) 0 8
def Fld.VW.CROP_POS_X0 (rf : RegFile) (n : Nat) : Nat := rf.fld (Adr.VW.CROP_POS n) 0 14
def Fld.VW.CROP_POS_Y0 (rf : RegFile) (n : Nat) : Nat := rf.fld (Adr.VW.CROP_POS n) 16 14
def Fld.VW.CROP_SIZE_W (rf : RegFile) (n : Nat) : Nat := rf.fld (Adr.VW.CROP_SIZE n) 0 15
def Fld.VW.CROP_SIZE_H (rf : RegFile) (n : Nat) : Nat := rf.fld (Adr.VW.CROP_SIZE n) 16 15
def Fld.VW.SCL_CFG_DH (rf : RegFile) (n : Nat) : Nat := rf.fld (Adr.VW.SCL_CFG n) 0 2
def Fld.VW.SCL_CFG_DV (rf : RegFile) (n : Nat) : Nat := rf.fld (Adr.VW.SCL_CFG n) 4 2
def Fld.VW.SCL_CFG_FILTER (rf : RegFile) (n : Nat) : Nat := rf.fld (Adr.VW.SCL_CFG n) 8 2
def Fld.VW.OUT_SIZE_W (rf : RegFile) (n : Nat) : Nat := rf.fld (Adr.VW.OUT_SIZE n) 0 14
def Fld.VW.OUT_SIZE_H (rf : RegFile) (n : Nat) : Nat := rf.fld (Adr.VW.OUT_SIZE n) 16 14
def Fld.VW.STEP_H (rf : RegFile) (n : Nat) : Nat := rf.fld (Adr.VW.STEP_H n) 0 24
def Fld.VW.STEP_V (rf : RegFile) (n : Nat) : Nat := rf.fld (Adr.VW.STEP_V n) 0 24
def Fld.VW.INIT_H (rf : RegFile) (n : Nat) : Nat := rf.fld (Adr.VW.INIT_H n) 0 32
def Fld.VW.INIT_V (rf : RegFile) (n : Nat) : Nat := rf.fld (Adr.VW.INIT_V n) 0 32
def Fld.VW.PIPE_CFG_ENABLES (rf : RegFile) (n : Nat) : Nat := rf.fld (Adr.VW.PIPE_CFG n) 0 4
def Fld.VW.PIPE_CFG_NEG (rf : RegFile) (n : Nat) : Nat := rf.fld (Adr.VW.PIPE_CFG n) 4 1
def Fld.VW.PIPE_CFG_LUT_COPY (rf : RegFile) (n : Nat) : Nat := rf.fld (Adr.VW.PIPE_CFG n) 8 1
def Fld.VW.MAT_0_0 (rf : RegFile) (n : Nat) : Nat := rf.fld (Adr.VW.MAT_0_0 n) 0 19
def Fld.VW.MAT_0_1 (rf : RegFile) (n : Nat) : Nat := rf.fld (Adr.VW.MAT_0_1 n) 0 19
def Fld.VW.MAT_0_2 (rf : RegFile) (n : Nat) : Nat := rf.fld (Adr.VW.MAT_0_2 n) 0 19
def Fld.VW.MAT_1_0 (rf : RegFile) (n : Nat) : Nat := rf.fld (Adr.VW.MAT_1_0 n) 0 19
def Fld.VW.MAT_1_1 (rf : RegFile) (n : Nat) : Nat := rf.fld (Adr.VW.MAT_1_1 n) 0 19
def Fld.VW.MAT_1_2 (rf : RegFile) (n : Nat) : Nat := rf.fld (Adr.VW.MAT_1_2 n) 0 19
def Fld.VW.MAT_2_0 (rf : RegFile) (n : Nat) : Nat := rf.fld (Adr.VW.MAT_2_0 n) 0 19
def Fld.VW.MAT_2_1 (rf : RegFile) (n : Nat) : Nat := rf.fld (Adr.VW.MAT_2_1 n) 0 19
def Fld.VW.MAT_2_2 (rf : RegFile) (n : Nat) : Nat := rf.fld (Adr.VW.MAT_2_2 n) 0 19
def Fld.VW.OFS (rf : RegFile) (n i : Nat) : Nat := rf.fld (Adr.VW.OFS n i) 0 25
def Fld.VW.FMT_CFG_FMT (rf : RegFile) (n : Nat) : Nat := rf.fld (Adr.VW.FMT_CFG n) 0 2
def Fld.VW.FMT_CFG_DEPTH (rf : RegFile) (n : Nat) : Nat := rf.fld (Adr.VW.FMT_CFG n) 4 2
def Fld.VW.FMT_CFG_RANGE (rf : RegFile) (n : Nat) : Nat := rf.fld (Adr.VW.FMT_CFG n) 8 1
def Fld.VW.FMT_CFG_COLORIMETRY (rf : RegFile) (n : Nat) : Nat := rf.fld (Adr.VW.FMT_CFG n) 9 1
def Fld.VW.FMT_CFG_TF (rf : RegFile) (n : Nat) : Nat := rf.fld (Adr.VW.FMT_CFG n) 12 2
def Fld.VW.FMT_CFG_PROTECT (rf : RegFile) (n : Nat) : Nat := rf.fld (Adr.VW.FMT_CFG n) 16 1
def Fld.VW.BUF_UNIT (rf : RegFile) (n : Nat) : Nat := rf.fld (Adr.VW.BUF_UNIT n) 0 24
def Fld.VW.BUF_STRIDE (rf : RegFile) (n : Nat) : Nat := rf.fld (Adr.VW.BUF_STRIDE n) 0 24
def Fld.VW.PITCH (rf : RegFile) (n : Nat) : Nat := rf.fld (Adr.VW.PITCH n) 0 20
def Fld.VW.NBUF (rf : RegFile) (n : Nat) : Nat := rf.fld (Adr.VW.NBUF n) 0 3
def Fld.VW.DESC_UNIT (rf : RegFile) (n : Nat) : Nat := rf.fld (Adr.VW.DESC_UNIT n) 0 24
def Fld.VW.CHROMA_UNITS (rf : RegFile) (n : Nat) : Nat := rf.fld (Adr.VW.CHROMA_UNITS n) 0 24
def Fld.VW.OVL_CFG_PEAK_EN (rf : RegFile) (n : Nat) : Nat := rf.fld (Adr.VW.OVL_CFG n) 0 1
def Fld.VW.OVL_CFG_ZEBRA_EN (rf : RegFile) (n : Nat) : Nat := rf.fld (Adr.VW.OVL_CFG n) 1 1
def Fld.VW.OVL_CFG_RECT_EN (rf : RegFile) (n : Nat) : Nat := rf.fld (Adr.VW.OVL_CFG n) 4 4
def Fld.VW.OVL_CFG_BMP_EN (rf : RegFile) (n : Nat) : Nat := rf.fld (Adr.VW.OVL_CFG n) 8 1
def Fld.VW.PEAK_T (rf : RegFile) (n : Nat) : Nat := rf.fld (Adr.VW.PEAK_T n) 0 16
def Fld.VW.ZEBRA_LEVEL (rf : RegFile) (n : Nat) : Nat := rf.fld (Adr.VW.ZEBRA_LEVEL n) 0 16
def Fld.VW.PEAK_COLOUR (rf : RegFile) (n : Nat) : Nat := rf.fld (Adr.VW.PEAK_COLOUR n) 0 30
def Fld.VW.ZEBRA_COLOUR (rf : RegFile) (n : Nat) : Nat := rf.fld (Adr.VW.ZEBRA_COLOUR n) 0 30
def Fld.VW.RECT_POS_X0 (rf : RegFile) (n i : Nat) : Nat := rf.fld (Adr.VW.RECT_POS n i) 0 14
def Fld.VW.RECT_POS_Y0 (rf : RegFile) (n i : Nat) : Nat := rf.fld (Adr.VW.RECT_POS n i) 16 14
def Fld.VW.RECT_SIZE_W (rf : RegFile) (n i : Nat) : Nat := rf.fld (Adr.VW.RECT_SIZE n i) 0 14
def Fld.VW.RECT_SIZE_H (rf : RegFile) (n i : Nat) : Nat := rf.fld (Adr.VW.RECT_SIZE n i) 16 14
def Fld.VW.RECT_COLOUR (rf : RegFile) (n i : Nat) : Nat := rf.fld (Adr.VW.RECT_COLOUR n i) 0 30
def Fld.VW.RECT_CFG_ALPHA (rf : RegFile) (n i : Nat) : Nat := rf.fld (Adr.VW.RECT_CFG n i) 0 8
def Fld.VW.RECT_CFG_BORDER (rf : RegFile) (n i : Nat) : Nat := rf.fld (Adr.VW.RECT_CFG n i) 8 4
def Fld.VW.BMP_UNIT (rf : RegFile) (n : Nat) : Nat := rf.fld (Adr.VW.BMP_UNIT n) 0 24
def Fld.VW.BMP_PITCH (rf : RegFile) (n : Nat) : Nat := rf.fld (Adr.VW.BMP_PITCH n) 0 16
def Fld.VW.BMP_PAL (rf : RegFile) (n i : Nat) : Nat := rf.fld (Adr.VW.BMP_PAL n i) 0 30
def Fld.VW.BMP_ALPHA_A0 (rf : RegFile) (n : Nat) : Nat := rf.fld (Adr.VW.BMP_ALPHA n) 0 8
def Fld.VW.BMP_ALPHA_A1 (rf : RegFile) (n : Nat) : Nat := rf.fld (Adr.VW.BMP_ALPHA n) 8 8
def Fld.VW.BMP_ALPHA_A2 (rf : RegFile) (n : Nat) : Nat := rf.fld (Adr.VW.BMP_ALPHA n) 16 8
def Fld.VW.BMP_ALPHA_A3 (rf : RegFile) (n : Nat) : Nat := rf.fld (Adr.VW.BMP_ALPHA n) 24 8
def Fld.VW.FRAMES_OUT (rf : RegFile) (n : Nat) : Nat := rf.fld (Adr.VW.FRAMES_OUT n) 0 32
def Fld.VW.DROPPED (rf : RegFile) (n : Nat) : Nat := rf.fld (Adr.VW.DROPPED n) 0 32
def Fld.VW.CROP_CLIPPED (rf : RegFile) (n : Nat) : Nat := rf.fld (Adr.VW.CROP_CLIPPED n) 0 32
def Fld.GLC.ENG_ITEMS (rf : RegFile) (i : Nat) : Nat := rf.fld (Adr.GLC.ENG_ITEMS i) 0 32
def Fld.GLC.ENG_SES_SESSION (rf : RegFile) (i : Nat) : Nat := rf.fld (Adr.GLC.ENG_SES i) 0 5
def Fld.GLC.ENG_SES_VALID (rf : RegFile) (i : Nat) : Nat := rf.fld (Adr.GLC.ENG_SES i) 8 1
def Fld.GLS.FAULT_SES (rf : RegFile) : Nat := rf.fld Adr.GLS.FAULT_SES 0 5
def Fld.GLS.SES_CFG_EN (rf : RegFile) (i : Nat) : Nat := rf.fld (Adr.GLS.SES_CFG i) 0 1
def Fld.GLS.SES_CFG_DIR (rf : RegFile) (i : Nat) : Nat := rf.fld (Adr.GLS.SES_CFG i) 1 1
def Fld.GLS.SES_CFG_STD (rf : RegFile) (i : Nat) : Nat := rf.fld (Adr.GLS.SES_CFG i) 2 1
def Fld.GLS.SES_CFG_ENG_MASK (rf : RegFile) (i : Nat) : Nat := rf.fld (Adr.GLS.SES_CFG i) 4 4
def Fld.GLS.SES_CFG_CHROMA (rf : RegFile) (i : Nat) : Nat := rf.fld (Adr.GLS.SES_CFG i) 8 2
def Fld.GLS.SES_CFG_DEPTH10 (rf : RegFile) (i : Nat) : Nat := rf.fld (Adr.GLS.SES_CFG i) 12 1
def Fld.GLS.SES_CFG_FLOW (rf : RegFile) (i : Nat) : Nat := rf.fld (Adr.GLS.SES_CFG i) 16 7
def Fld.GLS.SES_CFG_OUT_TO_VIEW (rf : RegFile) (i : Nat) : Nat := rf.fld (Adr.GLS.SES_CFG i) 24 1
def Fld.GLS.SES_CFG_OUT_SRC (rf : RegFile) (i : Nat) : Nat := rf.fld (Adr.GLS.SES_CFG i) 25 1
def Fld.GLS.PROFILE_LEVEL_PROFILE (rf : RegFile) (i : Nat) : Nat := rf.fld (Adr.GLS.PROFILE_LEVEL i) 0 8
def Fld.GLS.PROFILE_LEVEL_LEVEL (rf : RegFile) (i : Nat) : Nat := rf.fld (Adr.GLS.PROFILE_LEVEL i) 8 8
def Fld.GLS.PROFILE_LEVEL_TIER (rf : RegFile) (i : Nat) : Nat := rf.fld (Adr.GLS.PROFILE_LEVEL i) 16 1
def Fld.GLS.PIC_SIZE_W (rf : RegFile) (i : Nat) : Nat := rf.fld (Adr.GLS.PIC_SIZE i) 0 14
def Fld.GLS.PIC_SIZE_H (rf : RegFile) (i : Nat) : Nat := rf.fld (Adr.GLS.PIC_SIZE i) 16 14
def Fld.GLS.SRC_VIEW (rf : RegFile) (i : Nat) : Nat := rf.fld (Adr.GLS.SRC i) 0 3
def Fld.GLS.PACE_NUM (rf : RegFile) (i : Nat) : Nat := rf.fld (Adr.GLS.PACE_NUM i) 0 32
def Fld.GLS.PACE_DEN (rf : RegFile) (i : Nat) : Nat := rf.fld (Adr.GLS.PACE_DEN i) 0 32
def Fld.GLS.PACE_START_LO (rf : RegFile) (i : Nat) : Nat := rf.fld (Adr.GLS.PACE_START_LO i) 0 32
def Fld.GLS.PACE_START_HI (rf : RegFile) (i : Nat) : Nat := rf.fld (Adr.GLS.PACE_START_HI i) 0 8
def Fld.GLS.GOP_IDR_PERIOD (rf : RegFile) (i : Nat) : Nat := rf.fld (Adr.GLS.GOP i) 0 16
def Fld.GLS.GOP_MAX_REFS (rf : RegFile) (i : Nat) : Nat := rf.fld (Adr.GLS.GOP i) 16 3
def Fld.GLS.SEARCH_SR_H (rf : RegFile) (i : Nat) : Nat := rf.fld (Adr.GLS.SEARCH i) 0 9
def Fld.GLS.SEARCH_H_WIN (rf : RegFile) (i : Nat) : Nat := rf.fld (Adr.GLS.SEARCH i) 16 9
def Fld.GLS.RC_CFG_MODE (rf : RegFile) (i : Nat) : Nat := rf.fld (Adr.GLS.RC_CFG i) 0 2
def Fld.GLS.RC_CFG_I_OFS (rf : RegFile) (i : Nat) : Nat := rf.fld (Adr.GLS.RC_CFG i) 4 4
def Fld.GLS.RC_CFG_QP_INIT (rf : RegFile) (i : Nat) : Nat := rf.fld (Adr.GLS.RC_CFG i) 8 6
def Fld.GLS.RC_CFG_QP_MIN (rf : RegFile) (i : Nat) : Nat := rf.fld (Adr.GLS.RC_CFG i) 16 6
def Fld.GLS.RC_CFG_QP_MAX (rf : RegFile) (i : Nat) : Nat := rf.fld (Adr.GLS.RC_CFG i) 24 6
def Fld.GLS.BITRATE (rf : RegFile) (i : Nat) : Nat := rf.fld (Adr.GLS.BITRATE i) 0 32
def Fld.GLS.MAXRATE (rf : RegFile) (i : Nat) : Nat := rf.fld (Adr.GLS.MAXRATE i) 0 32
def Fld.GLS.CPB_SIZE (rf : RegFile) (i : Nat) : Nat := rf.fld (Adr.GLS.CPB_SIZE i) 0 32
def Fld.GLS.RING_UNIT (rf : RegFile) (i : Nat) : Nat := rf.fld (Adr.GLS.RING_UNIT i) 0 24
def Fld.GLS.RING_UNITS (rf : RegFile) (i : Nat) : Nat := rf.fld (Adr.GLS.RING_UNITS i) 0 20
def Fld.GLS.WR_PTR (rf : RegFile) (i : Nat) : Nat := rf.fld (Adr.GLS.WR_PTR i) 0 32
def Fld.GLS.RD_PTR (rf : RegFile) (i : Nat) : Nat := rf.fld (Adr.GLS.RD_PTR i) 0 32
def Fld.GLS.STAT_UNIT (rf : RegFile) (i : Nat) : Nat := rf.fld (Adr.GLS.STAT_UNIT i) 0 24
def Fld.GLS.STAT_CFG_EN (rf : RegFile) (i : Nat) : Nat := rf.fld (Adr.GLS.STAT_CFG i) 0 1
def Fld.GLS.STAT_CFG_STRIDE (rf : RegFile) (i : Nat) : Nat := rf.fld (Adr.GLS.STAT_CFG i) 8 20
def Fld.GLS.SES_STAT_STATE (rf : RegFile) (i : Nat) : Nat := rf.fld (Adr.GLS.SES_STAT i) 0 2
def Fld.GLS.PICTURES (rf : RegFile) (i : Nat) : Nat := rf.fld (Adr.GLS.PICTURES i) 0 32
def Fld.GLP.GEN (rf : RegFile) : Nat := rf.fld Adr.GLP.GEN 0 8
def Fld.GLP.BUF_SEL (rf : RegFile) : Nat := rf.fld Adr.GLP.BUF_SEL 0 6
def Fld.GLP.BUF_UNIT (rf : RegFile) : Nat := rf.fld Adr.GLP.BUF_UNIT 0 24
def Fld.GLP.BUF_OWNER_SESSION (rf : RegFile) : Nat := rf.fld Adr.GLP.BUF_OWNER 0 5
def Fld.GLP.BUF_OWNER_ASSIGNED (rf : RegFile) : Nat := rf.fld Adr.GLP.BUF_OWNER 8 1
def Fld.GLP.BUF_STAT_MARK (rf : RegFile) : Nat := rf.fld Adr.GLP.BUF_STAT 0 2
def Fld.GLP.BUF_STAT_OUTPUT_PENDING (rf : RegFile) : Nat := rf.fld Adr.GLP.BUF_STAT 2 1
def Fld.GLP.BUF_STAT_STAMP (rf : RegFile) : Nat := rf.fld Adr.GLP.BUF_STAT 8 8
def Fld.GLP.H_STAT_RESULT (rf : RegFile) : Nat := rf.fld Adr.GLP.H_STAT 0 2
def Fld.GLP.STALE (rf : RegFile) : Nat := rf.fld Adr.GLP.STALE 0 32
def Fld.GLP.DESC_UNIT (rf : RegFile) : Nat := rf.fld Adr.GLP.DESC_UNIT 0 24
def Fld.BTH.STAGE_UNIT (rf : RegFile) : Nat := rf.fld Adr.BTH.STAGE_UNIT 0 24
def Fld.BTH.CKPT_ROUNDS (rf : RegFile) : Nat := rf.fld Adr.BTH.CKPT_ROUNDS 0 16
def Fld.BTH.WR_MAX (rf : RegFile) : Nat := rf.fld Adr.BTH.WR_MAX 0 2
def Fld.BTH.FAULT_VOL (rf : RegFile) : Nat := rf.fld Adr.BTH.FAULT_VOL 0 4
def Fld.BTH.VOL_CFG_EN (rf : RegFile) (i : Nat) : Nat := rf.fld (Adr.BTH.VOL_CFG i) 0 1
def Fld.BTH.VOL_CFG_M (rf : RegFile) (i : Nat) : Nat := rf.fld (Adr.BTH.VOL_CFG i) 8 6
def Fld.BTH.VOL_CFG_J (rf : RegFile) (i : Nat) : Nat := rf.fld (Adr.BTH.VOL_CFG i) 16 13
def Fld.BTH.EXT_STRIPES (rf : RegFile) (i : Nat) : Nat := rf.fld (Adr.BTH.EXT_STRIPES i) 0 27
def Fld.BTH.FORMAT_ID (rf : RegFile) (i : Nat) : Nat := rf.fld (Adr.BTH.FORMAT_ID i) 0 32
def Fld.BTH.VOL_STAT_STATE (rf : RegFile) (i : Nat) : Nat := rf.fld (Adr.BTH.VOL_STAT i) 0 3
def Fld.BTH.APPEND (rf : RegFile) (i : Nat) : Nat := rf.fld (Adr.BTH.APPEND i) 0 32
def Fld.BTH.NEXT_TAKE (rf : RegFile) (i : Nat) : Nat := rf.fld (Adr.BTH.NEXT_TAKE i) 0 32
def Fld.BTH.JNL_USED (rf : RegFile) (i : Nat) : Nat := rf.fld (Adr.BTH.JNL_USED i) 0 32
def Fld.BTH.CH_CFG_EN (rf : RegFile) (i : Nat) : Nat := rf.fld (Adr.BTH.CH_CFG i) 0 1
def Fld.BTH.CH_CFG_KIND (rf : RegFile) (i : Nat) : Nat := rf.fld (Adr.BTH.CH_CFG i) 1 1
def Fld.BTH.CH_CFG_SRC (rf : RegFile) (i : Nat) : Nat := rf.fld (Adr.BTH.CH_CFG i) 4 5
def Fld.BTH.CH_CFG_VOL (rf : RegFile) (i : Nat) : Nat := rf.fld (Adr.BTH.CH_CFG i) 12 4
def Fld.BTH.CH_STAT_STATE (rf : RegFile) (i : Nat) : Nat := rf.fld (Adr.BTH.CH_STAT i) 0 2
def Fld.BTH.CH_STAT_REASON (rf : RegFile) (i : Nat) : Nat := rf.fld (Adr.BTH.CH_STAT i) 4 4
def Fld.BTH.CH_TAKE (rf : RegFile) (i : Nat) : Nat := rf.fld (Adr.BTH.CH_TAKE i) 0 32
def Fld.BTH.CH_LAST (rf : RegFile) (i : Nat) : Nat := rf.fld (Adr.BTH.CH_LAST i) 0 32
def Fld.BTH.ABANDONED (rf : RegFile) (i : Nat) : Nat := rf.fld (Adr.BTH.ABANDONED i) 0 32
def Fld.BTH.GAPS (rf : RegFile) (i : Nat) : Nat := rf.fld (Adr.BTH.GAPS i) 0 32
def Fld.BTH.FETCH_VOL (rf : RegFile) : Nat := rf.fld Adr.BTH.FETCH_VOL 0 4
def Fld.BTH.FETCH_OFS_LO (rf : RegFile) : Nat := rf.fld Adr.BTH.FETCH_OFS_LO 12 20
def Fld.BTH.FETCH_OFS_HI (rf : RegFile) : Nat := rf.fld Adr.BTH.FETCH_OFS_HI 0 20
def Fld.BTH.FETCH_DST (rf : RegFile) : Nat := rf.fld Adr.BTH.FETCH_DST 0 24
def Fld.BTH.FETCH_UNITS (rf : RegFile) : Nat := rf.fld Adr.BTH.FETCH_UNITS 0 24
def Fld.BTH.FETCH_STAT_BUSY (rf : RegFile) : Nat := rf.fld Adr.BTH.FETCH_STAT 0 1
def Fld.BTH.FETCH_STAT_DONE (rf : RegFile) : Nat := rf.fld Adr.BTH.FETCH_STAT 1 1
def Fld.BTH.FETCH_STAT_ERR (rf : RegFile) : Nat := rf.fld Adr.BTH.FETCH_STAT 2 1
def Fld.BTH.VM_SEL_VOL (rf : RegFile) : Nat := rf.fld Adr.BTH.VM_SEL 0 4
def Fld.BTH.VM_SEL_SLOT (rf : RegFile) : Nat := rf.fld Adr.BTH.VM_SEL 8 5
def Fld.BTH.VM_DATA_MEMBER (rf : RegFile) : Nat := rf.fld Adr.BTH.VM_DATA 0 5
def Fld.BTH.VM_DATA_EXT_BASE (rf : RegFile) : Nat := rf.fld Adr.BTH.VM_DATA 5 27
def Fld.BTM.FAULT_MEM (rf : RegFile) : Nat := rf.fld Adr.BTM.FAULT_MEM 0 5
def Fld.BTM.MEM_CFG_EN (rf : RegFile) (i : Nat) : Nat := rf.fld (Adr.BTM.MEM_CFG i) 0 1
def Fld.BTM.MEM_CFG_PORT (rf : RegFile) (i : Nat) : Nat := rf.fld (Adr.BTM.MEM_CFG i) 4 3
def Fld.BTM.MEM_CFG_QDEPTH (rf : RegFile) (i : Nat) : Nat := rf.fld (Adr.BTM.MEM_CFG i) 8 12
def Fld.BTM.MEM_BAR_LO (rf : RegFile) (i : Nat) : Nat := rf.fld (Adr.BTM.MEM_BAR_LO i) 0 32
def Fld.BTM.MEM_BAR_HI (rf : RegFile) (i : Nat) : Nat := rf.fld (Adr.BTM.MEM_BAR_HI i) 0 32
def Fld.BTM.NSID (rf : RegFile) (i : Nat) : Nat := rf.fld (Adr.BTM.NSID i) 0 32
def Fld.BTM.MEM_STAT_STATE (rf : RegFile) (i : Nat) : Nat := rf.fld (Adr.BTM.MEM_STAT i) 0 3
def Fld.BTM.CMD_TIMEOUT (rf : RegFile) (i : Nat) : Nat := rf.fld (Adr.BTM.CMD_TIMEOUT i) 0 16
def Fld.BTM.RETRY (rf : RegFile) (i : Nat) : Nat := rf.fld (Adr.BTM.RETRY i) 0 2
def Fld.OFC.STAGE_UNIT (rf : RegFile) : Nat := rf.fld Adr.OFC.STAGE_UNIT 0 24
def Fld.OFC.STAGE_UNITS (rf : RegFile) : Nat := rf.fld Adr.OFC.STAGE_UNITS 0 16
def Fld.OFC.PATIENCE (rf : RegFile) : Nat := rf.fld Adr.OFC.PATIENCE 0 16
def Fld.OFC.SQ_SEL (rf : RegFile) : Nat := rf.fld Adr.OFC.SQ_SEL 0 10
def Fld.OFC.SQ_FLOW_FLOW (rf : RegFile) : Nat := rf.fld Adr.OFC.SQ_FLOW 0 7
def Fld.OFC.SQ_FLOW_EN (rf : RegFile) : Nat := rf.fld Adr.OFC.SQ_FLOW 8 1
def Fld.OFC.SQ_STAT_CREATED (rf : RegFile) : Nat := rf.fld Adr.OFC.SQ_STAT 0 1
def Fld.OFC.SQ_STAT_FROZEN (rf : RegFile) : Nat := rf.fld Adr.OFC.SQ_STAT 1 1
def Fld.OFC.SQ_STAT_QPRIO (rf : RegFile) : Nat := rf.fld Adr.OFC.SQ_STAT 4 2
def Fld.OFC.SQ_STAT_WAIT (rf : RegFile) : Nat := rf.fld Adr.OFC.SQ_STAT 16 16
def Fld.OFC.INFLIGHT (rf : RegFile) : Nat := rf.fld Adr.OFC.INFLIGHT 0 14
def Fld.OFC.FREEZES (rf : RegFile) : Nat := rf.fld Adr.OFC.FREEZES 0 32
def Fld.OFC.STARVED (rf : RegFile) : Nat := rf.fld Adr.OFC.STARVED 0 32
def Fld.SDI.CFG_DIR (rf : RegFile) (n : Nat) : Nat := rf.fld (Adr.SDI.CFG n) 0 1
def Fld.SDI.CFG_QUAD (rf : RegFile) (n : Nat) : Nat := rf.fld (Adr.SDI.CFG n) 1 1
def Fld.SDI.CFG_AUTO (rf : RegFile) (n : Nat) : Nat := rf.fld (Adr.SDI.CFG n) 2 1
def Fld.SDI.CFG_PID_CHECK (rf : RegFile) (n : Nat) : Nat := rf.fld (Adr.SDI.CFG n) 3 1
def Fld.SDI.CFG_GENLOCK (rf : RegFile) (n : Nat) : Nat := rf.fld (Adr.SDI.CFG n) 4 1
def Fld.SDI.CFG_BLACK_FRAMES (rf : RegFile) (n : Nat) : Nat := rf.fld (Adr.SDI.CFG n) 8 4
def Fld.SDI.FMT_RASTER (rf : RegFile) (n : Nat) : Nat := rf.fld (Adr.SDI.FMT n) 0 4
def Fld.SDI.FMT_LINK (rf : RegFile) (n : Nat) : Nat := rf.fld (Adr.SDI.FMT n) 4 4
def Fld.SDI.FMT_SAMPLING (rf : RegFile) (n : Nat) : Nat := rf.fld (Adr.SDI.FMT n) 8 2
def Fld.SDI.FMT_DEPTH12 (rf : RegFile) (n : Nat) : Nat := rf.fld (Adr.SDI.FMT n) 12 1
def Fld.SDI.FMT_RATE (rf : RegFile) (n : Nat) : Nat := rf.fld (Adr.SDI.FMT n) 16 4
def Fld.SDI.SRC_VIEW (rf : RegFile) (n : Nat) : Nat := rf.fld (Adr.SDI.SRC n) 0 3
def Fld.SDI.SRC_BOUND (rf : RegFile) (n : Nat) : Nat := rf.fld (Adr.SDI.SRC n) 8 1
def Fld.SDI.OUT_START_LO (rf : RegFile) (n : Nat) : Nat := rf.fld (Adr.SDI.OUT_START_LO n) 0 32
def Fld.SDI.OUT_START_HI (rf : RegFile) (n : Nat) : Nat := rf.fld (Adr.SDI.OUT_START_HI n) 0 8
def Fld.SDI.OUT_OFFSET (rf : RegFile) (n : Nat) : Nat := rf.fld (Adr.SDI.OUT_OFFSET n) 0 32
def Fld.SDI.BUF_UNIT (rf : RegFile) (n : Nat) : Nat := rf.fld (Adr.SDI.BUF_UNIT n) 0 24
def Fld.SDI.BUF_STRIDE (rf : RegFile) (n : Nat) : Nat := rf.fld (Adr.SDI.BUF_STRIDE n) 0 24
def Fld.SDI.PITCH (rf : RegFile) (n : Nat) : Nat := rf.fld (Adr.SDI.PITCH n) 0 20
def Fld.SDI.NBUF (rf : RegFile) (n : Nat) : Nat := rf.fld (Adr.SDI.NBUF n) 0 3
def Fld.SDI.DESC_UNIT (rf : RegFile) (n : Nat) : Nat := rf.fld (Adr.SDI.DESC_UNIT n) 0 24
def Fld.SDI.DET_FMT_FORMAT (rf : RegFile) (n : Nat) : Nat := rf.fld (Adr.SDI.DET_FMT n) 0 20
def Fld.SDI.DET_FMT_VALID (rf : RegFile) (n : Nat) : Nat := rf.fld (Adr.SDI.DET_FMT n) 31 1
def Fld.SDI.FRAMES (rf : RegFile) (n : Nat) : Nat := rf.fld (Adr.SDI.FRAMES n) 0 32
def Fld.SDI.CRC_ERR (rf : RegFile) (n : Nat) : Nat := rf.fld (Adr.SDI.CRC_ERR n) 0 32
def Fld.SDI.PID_MISMATCH (rf : RegFile) (n : Nat) : Nat := rf.fld (Adr.SDI.PID_MISMATCH n) 0 32
def Fld.SDI.MISMATCH (rf : RegFile) (n : Nat) : Nat := rf.fld (Adr.SDI.MISMATCH n) 0 32
def Fld.SDI.CLAMPED (rf : RegFile) (n : Nat) : Nat := rf.fld (Adr.SDI.CLAMPED n) 0 32
def Fld.SDI.DROPPED (rf : RegFile) (n : Nat) : Nat := rf.fld (Adr.SDI.DROPPED n) 0 32
def Fld.BLV.LINK_CFG_LANES (rf : RegFile) (n : Nat) : Nat := rf.fld (Adr.BLV.LINK_CFG n) 0 3
def Fld.BLV.LINK_CFG_MODE (rf : RegFile) (n : Nat) : Nat := rf.fld (Adr.BLV.LINK_CFG n) 4 1
def Fld.BLV.LINK_CFG_PIXFMT (rf : RegFile) (n : Nat) : Nat := rf.fld (Adr.BLV.LINK_CFG n) 5 1
def Fld.BLV.LINK_CFG_VRR_EN (rf : RegFile) (n : Nat) : Nat := rf.fld (Adr.BLV.LINK_CFG n) 6 1
def Fld.BLV.LINK_CFG_STATIC_EN (rf : RegFile) (n : Nat) : Nat := rf.fld (Adr.BLV.LINK_CFG n) 7 1
def Fld.BLV.LINK_CFG_TE_EN (rf : RegFile) (n : Nat) : Nat := rf.fld (Adr.BLV.LINK_CFG n) 8 1
def Fld.BLV.LINK_CFG_CHG (rf : RegFile) (n : Nat) : Nat := rf.fld (Adr.BLV.LINK_CFG n) 9 1
def Fld.BLV.LINK_CFG_BLANK_FRAMES (rf : RegFile) (n : Nat) : Nat := rf.fld (Adr.BLV.LINK_CFG n) 12 4
def Fld.BLV.LANE_RATE (rf : RegFile) (n : Nat) : Nat := rf.fld (Adr.BLV.LANE_RATE n) 0 13
def Fld.BLV.PCLK (rf : RegFile) (n : Nat) : Nat := rf.fld (Adr.BLV.PCLK n) 0 20
def Fld.BLV.ACT_H_ACT (rf : RegFile) (n : Nat) : Nat := rf.fld (Adr.BLV.ACT n) 0 14
def Fld.BLV.ACT_V_ACT (rf : RegFile) (n : Nat) : Nat := rf.fld (Adr.BLV.ACT n) 16 14
def Fld.BLV.HSYNC_HSA (rf : RegFile) (n : Nat) : Nat := rf.fld (Adr.BLV.HSYNC n) 0 10
def Fld.BLV.HSYNC_HBP (rf : RegFile) (n : Nat) : Nat := rf.fld (Adr.BLV.HSYNC n) 16 10
def Fld.BLV.HFP (rf : RegFile) (n : Nat) : Nat := rf.fld (Adr.BLV.HFP n) 0 10
def Fld.BLV.VSYNC_VSA (rf : RegFile) (n : Nat) : Nat := rf.fld (Adr.BLV.VSYNC n) 0 8
def Fld.BLV.VSYNC_VBP (rf : RegFile) (n : Nat) : Nat := rf.fld (Adr.BLV.VSYNC n) 8 12
def Fld.BLV.VFP_VFP_MIN (rf : RegFile) (n : Nat) : Nat := rf.fld (Adr.BLV.VFP n) 0 16
def Fld.BLV.VFP_VFP_MAX (rf : RegFile) (n : Nat) : Nat := rf.fld (Adr.BLV.VFP n) 16 16
def Fld.BLV.BG_COLOUR (rf : RegFile) (n : Nat) : Nat := rf.fld (Adr.BLV.BG_COLOUR n) 0 30
def Fld.BLV.TIMING_LAYER (rf : RegFile) (n : Nat) : Nat := rf.fld (Adr.BLV.TIMING_LAYER n) 0 2
def Fld.BLV.L_CFG_EN (rf : RegFile) (n i : Nat) : Nat := rf.fld (Adr.BLV.L_CFG n i) 0 1
def Fld.BLV.L_CFG_VIEW (rf : RegFile) (n i : Nat) : Nat := rf.fld (Adr.BLV.L_CFG n i) 4 3
def Fld.BLV.L_CFG_ALPHA (rf : RegFile) (n i : Nat) : Nat := rf.fld (Adr.BLV.L_CFG n i) 8 8
def Fld.BLV.L_POS_L_X (rf : RegFile) (n i : Nat) : Nat := rf.fld (Adr.BLV.L_POS n i) 0 14
def Fld.BLV.L_POS_L_Y (rf : RegFile) (n i : Nat) : Nat := rf.fld (Adr.BLV.L_POS n i) 16 14
def Fld.BLV.CMD_DATA (rf : RegFile) (n : Nat) : Nat := rf.fld (Adr.BLV.CMD_DATA n) 0 8
def Fld.BLV.CMD_STAT_BUSY (rf : RegFile) (n : Nat) : Nat := rf.fld (Adr.BLV.CMD_STAT n) 0 1
def Fld.BLV.CMD_STAT_ERR (rf : RegFile) (n : Nat) : Nat := rf.fld (Adr.BLV.CMD_STAT n) 1 1
def Fld.BLV.CMD_STAT_RX_LEVEL (rf : RegFile) (n : Nat) : Nat := rf.fld (Adr.BLV.CMD_STAT n) 8 7
def Fld.BLV.FRAMES (rf : RegFile) (n : Nat) : Nat := rf.fld (Adr.BLV.FRAMES n) 0 32
def Fld.BLV.UNDERRUN (rf : RegFile) (n : Nat) : Nat := rf.fld (Adr.BLV.UNDERRUN n) 0 32
def Fld.BLV.MISMATCH (rf : RegFile) (n : Nat) : Nat := rf.fld (Adr.BLV.MISMATCH n) 0 32
def Fld.SUN0.SRV_CFG_KP_SHIFT (rf : RegFile) : Nat := rf.fld Adr.SUN0.SRV_CFG 0 5
def Fld.SUN0.SRV_CFG_KI_SHIFT (rf : RegFile) : Nat := rf.fld Adr.SUN0.SRV_CFG 8 5
def Fld.SUN0.ADJ_LIM (rf : RegFile) : Nat := rf.fld Adr.SUN0.ADJ_LIM 0 31
def Fld.SUN0.JUMP_THRESH (rf : RegFile) : Nat := rf.fld Adr.SUN0.JUMP_THRESH 0 24
def Fld.SUN0.ADJ (rf : RegFile) : Nat := rf.fld Adr.SUN0.ADJ 0 32
def Fld.SUN0.SRV_STAT_STATE (rf : RegFile) : Nat := rf.fld Adr.SUN0.SRV_STAT 0 3
def Fld.SUN0.SRV_STAT_SEL (rf : RegFile) : Nat := rf.fld Adr.SUN0.SRV_STAT 4 3
def Fld.SUN0.STEP_STAT_BUSY (rf : RegFile) : Nat := rf.fld Adr.SUN0.STEP_STAT 0 1
def Fld.SUN0.STEP_STAT_REFUSED (rf : RegFile) : Nat := rf.fld Adr.SUN0.STEP_STAT 1 1
def Fld.SUN0.STEP_COUNT (rf : RegFile) : Nat := rf.fld Adr.SUN0.STEP_COUNT 0 32
def Fld.SUN0.TC_CFG_SRC (rf : RegFile) : Nat := rf.fld Adr.SUN0.TC_CFG 0 2
def Fld.SUN0.TC_CFG_RATE (rf : RegFile) : Nat := rf.fld Adr.SUN0.TC_CFG 4 4
def Fld.SUN0.TC_CFG_DF (rf : RegFile) : Nat := rf.fld Adr.SUN0.TC_CFG 8 1
def Fld.SUN0.TC_CFG_LTC_OUT_EN (rf : RegFile) : Nat := rf.fld Adr.SUN0.TC_CFG 9 1
def Fld.SUN0.TAI_UTC (rf : RegFile) : Nat := rf.fld Adr.SUN0.TAI_UTC 0 16
def Fld.SUN0.LOCAL_OFS (rf : RegFile) : Nat := rf.fld Adr.SUN0.LOCAL_OFS 0 17
def Fld.SUN0.JAM_TOD (rf : RegFile) : Nat := rf.fld Adr.SUN0.JAM_TOD 0 17
def Fld.SUN0.LTC_OFFSET (rf : RegFile) : Nat := rf.fld Adr.SUN0.LTC_OFFSET 0 32
def Fld.SUN0.FP_CFG_EN (rf : RegFile) (i : Nat) : Nat := rf.fld (Adr.SUN0.FP_CFG i) 0 1
def Fld.SUN0.FP_CFG_RATE (rf : RegFile) (i : Nat) : Nat := rf.fld (Adr.SUN0.FP_CFG i) 4 4
def Fld.SUN0.FP_CFG_WIDTH (rf : RegFile) (i : Nat) : Nat := rf.fld (Adr.SUN0.FP_CFG i) 8 8
def Fld.SUN0.FP_OFFSET (rf : RegFile) (i : Nat) : Nat := rf.fld (Adr.SUN0.FP_OFFSET i) 0 32
def Fld.SUN1.TOL (rf : RegFile) : Nat := rf.fld Adr.SUN1.TOL 0 31
def Fld.SUN1.AGREE (rf : RegFile) : Nat := rf.fld Adr.SUN1.AGREE 0 31
def Fld.SUN1.OBS_INTERVAL (rf : RegFile) : Nat := rf.fld Adr.SUN1.OBS_INTERVAL 0 10
def Fld.SUN1.QUAL_TIME (rf : RegFile) : Nat := rf.fld Adr.SUN1.QUAL_TIME 0 8
def Fld.SUN1.SEL_CFG_AUTO (rf : RegFile) : Nat := rf.fld Adr.SUN1.SEL_CFG 0 1
def Fld.SUN1.SEL_CFG_FORCE (rf : RegFile) : Nat := rf.fld Adr.SUN1.SEL_CFG 4 3
def Fld.SUN1.REF_CFG_EN (rf : RegFile) (i : Nat) : Nat := rf.fld (Adr.SUN1.REF_CFG i) 0 1
def Fld.SUN1.REF_CFG_PRIO (rf : RegFile) (i : Nat) : Nat := rf.fld (Adr.SUN1.REF_CFG i) 4 3
def Fld.SUN1.REF_CFG_POLICY (rf : RegFile) (i : Nat) : Nat := rf.fld (Adr.SUN1.REF_CFG i) 8 2
def Fld.SUN1.REF_PARAM_RATE (rf : RegFile) (i : Nat) : Nat := rf.fld (Adr.SUN1.REF_PARAM i) 0 4
def Fld.SUN1.REF_PARAM_PORT (rf : RegFile) (i : Nat) : Nat := rf.fld (Adr.SUN1.REF_PARAM i) 4 1
def Fld.SUN1.REF_PARAM_DOMAIN (rf : RegFile) (i : Nat) : Nat := rf.fld (Adr.SUN1.REF_PARAM i) 8 8
def Fld.SUN1.REF_PARAM_SYNC_LOG (rf : RegFile) (i : Nat) : Nat := rf.fld (Adr.SUN1.REF_PARAM i) 16 4
def Fld.SUN1.REF_OFFSET (rf : RegFile) (i : Nat) : Nat := rf.fld (Adr.SUN1.REF_OFFSET i) 0 32
def Fld.SUN1.PARENT_PORT (rf : RegFile) (i : Nat) : Nat := rf.fld (Adr.SUN1.PARENT_PORT i) 0 16
def Fld.SUN1.REF_STAT_STATE (rf : RegFile) (i : Nat) : Nat := rf.fld (Adr.SUN1.REF_STAT i) 0 3
def Fld.SUN1.REF_STAT_DRIFT_LOCAL (rf : RegFile) (i : Nat) : Nat := rf.fld (Adr.SUN1.REF_STAT i) 4 1
def Fld.SUN1.REF_STAT_DRIFT_MAJ (rf : RegFile) (i : Nat) : Nat := rf.fld (Adr.SUN1.REF_STAT i) 5 1
def Fld.SUN1.REF_STAT_SELECTED (rf : RegFile) (i : Nat) : Nat := rf.fld (Adr.SUN1.REF_STAT i) 8 1
def Fld.SUN1.FREQ (rf : RegFile) (i : Nat) : Nat := rf.fld (Adr.SUN1.FREQ i) 0 32
def Fld.ETH.PORT_CFG_SPEED (rf : RegFile) (n : Nat) : Nat := rf.fld (Adr.ETH.PORT_CFG n) 0 1
def Fld.ETH.PORT_CFG_FEC (rf : RegFile) (n : Nat) : Nat := rf.fld (Adr.ETH.PORT_CFG n) 1 1
def Fld.ETH.RX_LAT (rf : RegFile) (n : Nat) : Nat := rf.fld (Adr.ETH.RX_LAT n) 0 32
def Fld.ETH.TX_LAT (rf : RegFile) (n : Nat) : Nat := rf.fld (Adr.ETH.TX_LAT n) 0 32
def Fld.ETH.ASYM (rf : RegFile) (n : Nat) : Nat := rf.fld (Adr.ETH.ASYM n) 0 32
def Fld.ETH.LINK_STAT_UP (rf : RegFile) (n : Nat) : Nat := rf.fld (Adr.ETH.LINK_STAT n) 0 1
def Fld.ETH.LINK_STAT_FEC_LOCK (rf : RegFile) (n : Nat) : Nat := rf.fld (Adr.ETH.LINK_STAT n) 1 1
def Fld.ETH.RX_FRAMES (rf : RegFile) (n : Nat) : Nat := rf.fld (Adr.ETH.RX_FRAMES n) 0 32
def Fld.ETH.TX_FRAMES (rf : RegFile) (n : Nat) : Nat := rf.fld (Adr.ETH.TX_FRAMES n) 0 32
def Fld.ETH.FCS_ERR (rf : RegFile) (n : Nat) : Nat := rf.fld (Adr.ETH.FCS_ERR n) 0 32
def Fld.ETH.OVERSIZE (rf : RegFile) (n : Nat) : Nat := rf.fld (Adr.ETH.OVERSIZE n) 0 32
def Fld.ETH.DROPPED (rf : RegFile) (n : Nat) : Nat := rf.fld (Adr.ETH.DROPPED n) 0 32
def Fld.ETH0.SW_CFG_TC_EN (rf : RegFile) : Nat := rf.fld Adr.ETH0.SW_CFG 0 1
def Fld.ETH0.HP_DSCP_LO (rf : RegFile) : Nat := rf.fld Adr.ETH0.HP_DSCP_LO 0 32
def Fld.ETH0.HP_DSCP_HI (rf : RegFile) : Nat := rf.fld Adr.ETH0.HP_DSCP_HI 0 32
def Fld.ETH0.AGE_TIME (rf : RegFile) : Nat := rf.fld Adr.ETH0.AGE_TIME 0 16
def Fld.ETH0.MAC_LO (rf : RegFile) : Nat := rf.fld Adr.ETH0.MAC_LO 0 32
def Fld.ETH0.MAC_HI (rf : RegFile) : Nat := rf.fld Adr.ETH0.MAC_HI 0 16
def Fld.ETH0.IP_ADDR (rf : RegFile) : Nat := rf.fld Adr.ETH0.IP_ADDR 0 32
def Fld.ETH0.MC_SEL (rf : RegFile) : Nat := rf.fld Adr.ETH0.MC_SEL 0 6
def Fld.ETH0.MC_GROUP (rf : RegFile) : Nat := rf.fld Adr.ETH0.MC_GROUP 0 32
def Fld.ETH0.CTL_RX_UNIT (rf : RegFile) : Nat := rf.fld Adr.ETH0.CTL_RX_UNIT 0 24
def Fld.ETH0.CTL_RX_SLOTS (rf : RegFile) : Nat := rf.fld Adr.ETH0.CTL_RX_SLOTS 0 12
def Fld.ETH0.CTL_RX_WR (rf : RegFile) : Nat := rf.fld Adr.ETH0.CTL_RX_WR 0 12
def Fld.ETH0.CTL_RX_RD (rf : RegFile) : Nat := rf.fld Adr.ETH0.CTL_RX_RD 0 12
def Fld.ETH0.CTL_TX_UNIT (rf : RegFile) : Nat := rf.fld Adr.ETH0.CTL_TX_UNIT 0 24
def Fld.ETH0.CTL_TX_SLOTS (rf : RegFile) : Nat := rf.fld Adr.ETH0.CTL_TX_SLOTS 0 12
def Fld.ETH0.CTL_TX_WR (rf : RegFile) : Nat := rf.fld Adr.ETH0.CTL_TX_WR 0 12
def Fld.ETH0.CTL_TX_RD (rf : RegFile) : Nat := rf.fld Adr.ETH0.CTL_TX_RD 0 12
def Fld.ETH0.CTL_DROPPED (rf : RegFile) : Nat := rf.fld Adr.ETH0.CTL_DROPPED 0 32
def Fld.IPS.FAULT_SND (rf : RegFile) : Nat := rf.fld Adr.IPS.FAULT_SND 0 4
def Fld.IPS.SND_CFG_EN (rf : RegFile) (i : Nat) : Nat := rf.fld (Adr.IPS.SND_CFG i) 0 1
def Fld.IPS.SND_CFG_ESS (rf : RegFile) (i : Nat) : Nat := rf.fld (Adr.IPS.SND_CFG i) 1 2
def Fld.IPS.SND_CFG_PATHS (rf : RegFile) (i : Nat) : Nat := rf.fld (Adr.IPS.SND_CFG i) 4 2
def Fld.IPS.SND_CFG_TYPE (rf : RegFile) (i : Nat) : Nat := rf.fld (Adr.IPS.SND_CFG i) 8 2
def Fld.IPS.SND_CFG_PACK (rf : RegFile) (i : Nat) : Nat := rf.fld (Adr.IPS.SND_CFG i) 10 1
def Fld.IPS.SND_CFG_TS_MODE (rf : RegFile) (i : Nat) : Nat := rf.fld (Adr.IPS.SND_CFG i) 11 1
def Fld.IPS.SND_CFG_SRC (rf : RegFile) (i : Nat) : Nat := rf.fld (Adr.IPS.SND_CFG i) 12 4
def Fld.IPS.SND_CFG_FLOW (rf : RegFile) (i : Nat) : Nat := rf.fld (Adr.IPS.SND_CFG i) 16 7
def Fld.IPS.DST_IP_A (rf : RegFile) (i : Nat) : Nat := rf.fld (Adr.IPS.DST_IP_A i) 0 32
def Fld.IPS.DST_IP_B (rf : RegFile) (i : Nat) : Nat := rf.fld (Adr.IPS.DST_IP_B i) 0 32
def Fld.IPS.UDP_DST (rf : RegFile) (i : Nat) : Nat := rf.fld (Adr.IPS.UDP i) 0 16
def Fld.IPS.UDP_SRC (rf : RegFile) (i : Nat) : Nat := rf.fld (Adr.IPS.UDP i) 16 16
def Fld.IPS.SSRC (rf : RegFile) (i : Nat) : Nat := rf.fld (Adr.IPS.SSRC i) 0 32
def Fld.IPS.RTP_PT (rf : RegFile) (i : Nat) : Nat := rf.fld (Adr.IPS.RTP i) 0 7
def Fld.IPS.RTP_DSCP (rf : RegFile) (i : Nat) : Nat := rf.fld (Adr.IPS.RTP i) 8 6
def Fld.IPS.RTP_TTL (rf : RegFile) (i : Nat) : Nat := rf.fld (Adr.IPS.RTP i) 16 8
def Fld.IPS.PACE_NUM (rf : RegFile) (i : Nat) : Nat := rf.fld (Adr.IPS.PACE_NUM i) 0 32
def Fld.IPS.PACE_DEN (rf : RegFile) (i : Nat) : Nat := rf.fld (Adr.IPS.PACE_DEN i) 0 32
def Fld.IPS.MEDIA_MAX_PAYLOAD (rf : RegFile) (i : Nat) : Nat := rf.fld (Adr.IPS.MEDIA i) 0 11
def Fld.IPS.MEDIA_SLOT0 (rf : RegFile) (i : Nat) : Nat := rf.fld (Adr.IPS.MEDIA i) 11 5
def Fld.IPS.MEDIA_CH (rf : RegFile) (i : Nat) : Nat := rf.fld (Adr.IPS.MEDIA i) 16 6
def Fld.IPS.MEDIA_PTIME (rf : RegFile) (i : Nat) : Nat := rf.fld (Adr.IPS.MEDIA i) 24 1
def Fld.IPS.MEDIA_L16 (rf : RegFile) (i : Nat) : Nat := rf.fld (Adr.IPS.MEDIA i) 25 1
def Fld.IPS.MEDIA_SR96 (rf : RegFile) (i : Nat) : Nat := rf.fld (Adr.IPS.MEDIA i) 26 1
def Fld.IPS.TRO (rf : RegFile) (i : Nat) : Nat := rf.fld (Adr.IPS.TRO i) 0 24
def Fld.IPS.RACTIVE_NUM (rf : RegFile) (i : Nat) : Nat := rf.fld (Adr.IPS.RACTIVE i) 0 16
def Fld.IPS.RACTIVE_DEN (rf : RegFile) (i : Nat) : Nat := rf.fld (Adr.IPS.RACTIVE i) 16 16
def Fld.IPS.BURST (rf : RegFile) (i : Nat) : Nat := rf.fld (Adr.IPS.BURST i) 0 8
def Fld.IPS.NPACKETS (rf : RegFile) (i : Nat) : Nat := rf.fld (Adr.IPS.NPACKETS i) 0 20
def Fld.IPS.SENT_FRAMES (rf : RegFile) (i : Nat) : Nat := rf.fld (Adr.IPS.SENT_FRAMES i) 0 32
def Fld.IPS.LATE_PKTS (rf : RegFile) (i : Nat) : Nat := rf.fld (Adr.IPS.LATE_PKTS i) 0 32
def Fld.IPS.ANC_UNIT (rf : RegFile) (i : Nat) : Nat := rf.fld (Adr.IPS.ANC_UNIT i) 0 24
def Fld.IPR.FAULT_RCV (rf : RegFile) : Nat := rf.fld Adr.IPR.FAULT_RCV 0 4
def Fld.IPR.RCV_CFG_EN (rf : RegFile) (i : Nat) : Nat := rf.fld (Adr.IPR.RCV_CFG i) 0 1
def Fld.IPR.RCV_CFG_ESS (rf : RegFile) (i : Nat) : Nat := rf.fld (Adr.IPR.RCV_CFG i) 1 2
def Fld.IPR.RCV_CFG_PATHS (rf : RegFile) (i : Nat) : Nat := rf.fld (Adr.IPR.RCV_CFG i) 4 2
def Fld.IPR.RCV_CFG_MISSING_FILL (rf : RegFile) (i : Nat) : Nat := rf.fld (Adr.IPR.RCV_CFG i) 8 1
def Fld.IPR.RCV_CFG_MEAS_PATH (rf : RegFile) (i : Nat) : Nat := rf.fld (Adr.IPR.RCV_CFG i) 9 1
def Fld.IPR.RCV_CFG_FLOW (rf : RegFile) (i : Nat) : Nat := rf.fld (Adr.IPR.RCV_CFG i) 16 7
def Fld.IPR.GROUP_A (rf : RegFile) (i : Nat) : Nat := rf.fld (Adr.IPR.GROUP_A i) 0 32
def Fld.IPR.GROUP_B (rf : RegFile) (i : Nat) : Nat := rf.fld (Adr.IPR.GROUP_B i) 0 32
def Fld.IPR.SRC_FILTER (rf : RegFile) (i : Nat) : Nat := rf.fld (Adr.IPR.SRC_FILTER i) 0 32
def Fld.IPR.UDP_DST (rf : RegFile) (i : Nat) : Nat := rf.fld (Adr.IPR.UDP_DST i) 0 16
def Fld.IPR.VFMT_W (rf : RegFile) (i : Nat) : Nat := rf.fld (Adr.IPR.VFMT i) 0 14
def Fld.IPR.VFMT_H (rf : RegFile) (i : Nat) : Nat := rf.fld (Adr.IPR.VFMT i) 16 14
def Fld.IPR.VFMT2_SAMPLING (rf : RegFile) (i : Nat) : Nat := rf.fld (Adr.IPR.VFMT2 i) 0 2
def Fld.IPR.VFMT2_DEPTH12 (rf : RegFile) (i : Nat) : Nat := rf.fld (Adr.IPR.VFMT2 i) 4 1
def Fld.IPR.VFMT2_RATE (rf : RegFile) (i : Nat) : Nat := rf.fld (Adr.IPR.VFMT2 i) 8 4
def Fld.IPR.BUF_UNIT (rf : RegFile) (i : Nat) : Nat := rf.fld (Adr.IPR.BUF_UNIT i) 0 24
def Fld.IPR.BUF_STRIDE (rf : RegFile) (i : Nat) : Nat := rf.fld (Adr.IPR.BUF_STRIDE i) 0 24
def Fld.IPR.PITCH (rf : RegFile) (i : Nat) : Nat := rf.fld (Adr.IPR.PITCH i) 0 20
def Fld.IPR.NBUF (rf : RegFile) (i : Nat) : Nat := rf.fld (Adr.IPR.NBUF i) 0 3
def Fld.IPR.DESC_UNIT (rf : RegFile) (i : Nat) : Nat := rf.fld (Adr.IPR.DESC_UNIT i) 0 24
def Fld.IPR.TRO (rf : RegFile) (i : Nat) : Nat := rf.fld (Adr.IPR.TRO i) 0 24
def Fld.IPR.RACTIVE_NUM (rf : RegFile) (i : Nat) : Nat := rf.fld (Adr.IPR.RACTIVE i) 0 16
def Fld.IPR.RACTIVE_DEN (rf : RegFile) (i : Nat) : Nat := rf.fld (Adr.IPR.RACTIVE i) 16 16
def Fld.IPR.FRAMES (rf : RegFile) (i : Nat) : Nat := rf.fld (Adr.IPR.FRAMES i) 0 32
def Fld.IPR.LOST (rf : RegFile) (i : Nat) : Nat := rf.fld (Adr.IPR.LOST i) 0 32
def Fld.BND.EMB_PORT (rf : RegFile) (i : Nat) : Nat := rf.fld (Adr.BND.EMB i) 0 2
def Fld.BND.EMB_SLOT0 (rf : RegFile) (i : Nat) : Nat := rf.fld (Adr.BND.EMB i) 4 5
def Fld.BND.EMB_EN (rf : RegFile) (i : Nat) : Nat := rf.fld (Adr.BND.EMB i) 12 1
def Fld.BND.PORT_CFG_EN (rf : RegFile) (i : Nat) : Nat := rf.fld (Adr.BND.PORT_CFG i) 0 1
def Fld.BND.PORT_CFG_DIR (rf : RegFile) (i : Nat) : Nat := rf.fld (Adr.BND.PORT_CFG i) 1 1
def Fld.BND.PORT_CFG_MASTER (rf : RegFile) (i : Nat) : Nat := rf.fld (Adr.BND.PORT_CFG i) 2 1
def Fld.BND.PORT_CFG_MODE (rf : RegFile) (i : Nat) : Nat := rf.fld (Adr.BND.PORT_CFG i) 3 2
def Fld.BND.PORT_CFG_FS_POL (rf : RegFile) (i : Nat) : Nat := rf.fld (Adr.BND.PORT_CFG i) 5 1
def Fld.BND.PORT_CFG_BCLK_EDGE (rf : RegFile) (i : Nat) : Nat := rf.fld (Adr.BND.PORT_CFG i) 6 1
def Fld.BND.PORT_CFG_INTERNAL (rf : RegFile) (i : Nat) : Nat := rf.fld (Adr.BND.PORT_CFG i) 7 1
def Fld.BND.PORT_CFG_RATE (rf : RegFile) (i : Nat) : Nat := rf.fld (Adr.BND.PORT_CFG i) 8 3
def Fld.BND.PORT_CFG_SLOTS (rf : RegFile) (i : Nat) : Nat := rf.fld (Adr.BND.PORT_CFG i) 12 5
def Fld.BND.PORT_CFG_SLOT_W (rf : RegFile) (i : Nat) : Nat := rf.fld (Adr.BND.PORT_CFG i) 17 2
def Fld.BND.PORT_CFG_DATA_W (rf : RegFile) (i : Nat) : Nat := rf.fld (Adr.BND.PORT_CFG i) 19 2
def Fld.BND.PORT_CFG_OFFSET (rf : RegFile) (i : Nat) : Nat := rf.fld (Adr.BND.PORT_CFG i) 24 4
def Fld.BND.PORT_CFG_MUTE_NONPCM (rf : RegFile) (i : Nat) : Nat := rf.fld (Adr.BND.PORT_CFG i) 28 1
def Fld.BND.PORT_CFG_LOCK (rf : RegFile) (i : Nat) : Nat := rf.fld (Adr.BND.PORT_CFG i) 29 1
def Fld.BND.LAT (rf : RegFile) (i : Nat) : Nat := rf.fld (Adr.BND.LAT i) 0 10
def Fld.BND.PHASE_OFS (rf : RegFile) (i : Nat) : Nat := rf.fld (Adr.BND.PHASE_OFS i) 0 32
def Fld.BND.MCLK_CFG_MCLK_EN (rf : RegFile) (i : Nat) : Nat := rf.fld (Adr.BND.MCLK_CFG i) 0 1
def Fld.BND.MCLK_CFG_X512 (rf : RegFile) (i : Nat) : Nat := rf.fld (Adr.BND.MCLK_CFG i) 1 1
def Fld.BND.HOLD_FRAMES (rf : RegFile) (i : Nat) : Nat := rf.fld (Adr.BND.HOLD_FRAMES i) 0 16
def Fld.BND.NONPCM (rf : RegFile) (i : Nat) : Nat := rf.fld (Adr.BND.NONPCM i) 0 16
def Fld.BND.FRAMES (rf : RegFile) (i : Nat) : Nat := rf.fld (Adr.BND.FRAMES i) 0 32
def Fld.BND.SLIPS (rf : RegFile) (i : Nat) : Nat := rf.fld (Adr.BND.SLIPS i) 0 32
def Fld.BND.LATE_SAMPLES (rf : RegFile) (i : Nat) : Nat := rf.fld (Adr.BND.LATE_SAMPLES i) 0 32
def Fld.BND.ROUTE_SEL (rf : RegFile) : Nat := rf.fld Adr.BND.ROUTE_SEL 0 7
def Fld.BND.ROUTE_DATA_KIND (rf : RegFile) : Nat := rf.fld Adr.BND.ROUTE_DATA 0 3
def Fld.BND.ROUTE_DATA_INDEX (rf : RegFile) : Nat := rf.fld Adr.BND.ROUTE_DATA 8 4
def Fld.BND.ROUTE_DATA_CH (rf : RegFile) : Nat := rf.fld Adr.BND.ROUTE_DATA 16 5
def Fld.MC.WR_WM_WR_HI (rf : RegFile) (n : Nat) : Nat := rf.fld (Adr.MC.WR_WM n) 0 6
def Fld.MC.WR_WM_WR_LO (rf : RegFile) (n : Nat) : Nat := rf.fld (Adr.MC.WR_WM n) 8 6
def Fld.MC.WR_PATIENCE (rf : RegFile) (n : Nat) : Nat := rf.fld (Adr.MC.WR_PATIENCE n) 0 12
def Fld.MC.ADM_CAP (rf : RegFile) (n : Nat) : Nat := rf.fld (Adr.MC.ADM_CAP n) 0 16
def Fld.MC.CE_LINK (rf : RegFile) (n i : Nat) : Nat := rf.fld (Adr.MC.CE_LINK n i) 0 32
def Fld.MC.CE_INLINE (rf : RegFile) (n i : Nat) : Nat := rf.fld (Adr.MC.CE_INLINE n i) 0 32
def Fld.MC.UE (rf : RegFile) (n i : Nat) : Nat := rf.fld (Adr.MC.UE n i) 0 32
def Fld.MC.FORCED_REF (rf : RegFile) (n i : Nat) : Nat := rf.fld (Adr.MC.FORCED_REF n i) 0 32
def Fld.MC.WR_URGENT (rf : RegFile) (n i : Nat) : Nat := rf.fld (Adr.MC.WR_URGENT n i) 0 32
def Fld.MC.REF_DEBT (rf : RegFile) (n i : Nat) : Nat := rf.fld (Adr.MC.REF_DEBT n i) 0 4
def Fld.MCT.DRAM_CFG_TYPE (rf : RegFile) : Nat := rf.fld Adr.MCT.DRAM_CFG 0 1
def Fld.MCT.DRAM_CFG_RATE (rf : RegFile) : Nat := rf.fld Adr.MCT.DRAM_CFG 1 3
def Fld.MCT.DRAM_CFG_DENSITY (rf : RegFile) : Nat := rf.fld Adr.MCT.DRAM_CFG 4 2
def Fld.MCT.DRAM_CFG_RANKS2 (rf : RegFile) : Nat := rf.fld Adr.MCT.DRAM_CFG 6 1
def Fld.MCT.DRAM_CFG_INLINE_ECC (rf : RegFile) : Nat := rf.fld Adr.MCT.DRAM_CFG 8 1
def Fld.MCT.DRAM_CFG_LINK_ECC (rf : RegFile) : Nat := rf.fld Adr.MCT.DRAM_CFG 9 1
def Fld.MCT.ADDR_MAP_GRP_IL (rf : RegFile) : Nat := rf.fld Adr.MCT.ADDR_MAP 0 1
def Fld.MCT.TRAIN_STAT_STATE (rf : RegFile) : Nat := rf.fld Adr.MCT.TRAIN_STAT 0 2
def Fld.MCT.LANE_FAIL (rf : RegFile) : Nat := rf.fld Adr.MCT.LANE_FAIL 0 32
def Fld.MCT.RECENTRE_MS (rf : RegFile) : Nat := rf.fld Adr.MCT.RECENTRE_MS 0 8
def Fld.MCT.CAPACITY (rf : RegFile) : Nat := rf.fld Adr.MCT.CAPACITY 0 17
def Fld.MCT.LANE_SEL (rf : RegFile) : Nat := rf.fld Adr.MCT.LANE_SEL 0 5
def Fld.MCT.LANE_POS_RD_DLY (rf : RegFile) : Nat := rf.fld Adr.MCT.LANE_POS 0 7
def Fld.MCT.LANE_POS_WR_DLY (rf : RegFile) : Nat := rf.fld Adr.MCT.LANE_POS 8 7
def Fld.MCT.LANE_POS_RD_VREF (rf : RegFile) : Nat := rf.fld Adr.MCT.LANE_POS 16 6
def Fld.MCT.LANE_POS_WR_VREF (rf : RegFile) : Nat := rf.fld Adr.MCT.LANE_POS 24 6
def Fld.MCT.LANE_POS_LANE_DRIFT (rf : RegFile) : Nat := rf.fld Adr.MCT.LANE_POS 31 1
def Fld.MCT.RECENTRE_COUNT (rf : RegFile) : Nat := rf.fld Adr.MCT.RECENTRE_COUNT 0 32
def Fld.ARB.DESC_UNIT (rf : RegFile) : Nat := rf.fld Adr.ARB.DESC_UNIT 0 24
def Fld.ARB.DESC_SLOTS (rf : RegFile) : Nat := rf.fld Adr.ARB.DESC_SLOTS 0 13
def Fld.ARB.SUB_IDX (rf : RegFile) : Nat := rf.fld Adr.ARB.SUB_IDX 0 12
def Fld.ARB.DONE_IDX (rf : RegFile) : Nat := rf.fld Adr.ARB.DONE_IDX 0 12
def Fld.ARB.SEEN_IDX (rf : RegFile) : Nat := rf.fld Adr.ARB.SEEN_IDX 0 12
def Fld.ARB.CHECK_MID (rf : RegFile) : Nat := rf.fld Adr.ARB.CHECK_MID 0 9
def Fld.ARB.JOBS (rf : RegFile) : Nat := rf.fld Adr.ARB.JOBS 0 32
def Fld.ARB.FAILED (rf : RegFile) : Nat := rf.fld Adr.ARB.FAILED 0 32
def Fld.DOV.ADC_CFG_REF_SEL (rf : RegFile) : Nat := rf.fld Adr.DOV.ADC_CFG 0 1
def Fld.DOV.ADC_CFG_LP_EN (rf : RegFile) : Nat := rf.fld Adr.DOV.ADC_CFG 1 1
def Fld.DOV.CAL_CFG_CAL_ROUNDS (rf : RegFile) : Nat := rf.fld Adr.DOV.CAL_CFG 0 8
def Fld.DOV.CAL_CFG_CAL_PATIENCE (rf : RegFile) : Nat := rf.fld Adr.DOV.CAL_CFG 8 8
def Fld.DOV.DRIFT_TOL (rf : RegFile) : Nat := rf.fld Adr.DOV.DRIFT_TOL 0 16
def Fld.DOV.DRIFT_AGREE (rf : RegFile) : Nat := rf.fld Adr.DOV.DRIFT_AGREE 0 16
def Fld.DOV.OBS_INTERVAL (rf : RegFile) : Nat := rf.fld Adr.DOV.OBS_INTERVAL 0 16
def Fld.DOV.REF_STAT_DRIFT (rf : RegFile) : Nat := rf.fld Adr.DOV.REF_STAT 0 1
def Fld.DOV.REF_STAT_DRIFT_LOCAL (rf : RegFile) : Nat := rf.fld Adr.DOV.REF_STAT 1 1
def Fld.DOV.REF_STAT_DRIFT_MAJ (rf : RegFile) : Nat := rf.fld Adr.DOV.REF_STAT 2 1
def Fld.DOV.REF_STAT_HELD (rf : RegFile) : Nat := rf.fld Adr.DOV.REF_STAT 16 16
def Fld.DOV.CAL_STAT_SPARE (rf : RegFile) : Nat := rf.fld Adr.DOV.CAL_STAT 0 2
def Fld.DOV.CAL_STAT_CAL_WAIT (rf : RegFile) : Nat := rf.fld Adr.DOV.CAL_STAT 8 8
def Fld.DOV.CAL_REJECT (rf : RegFile) : Nat := rf.fld Adr.DOV.CAL_REJECT 0 32
def Fld.DOV.OVERRUN (rf : RegFile) : Nat := rf.fld Adr.DOV.OVERRUN 0 32
def Fld.DOV.SLICE_CAL_GAIN (rf : RegFile) (i : Nat) : Nat := rf.fld (Adr.DOV.SLICE_CAL i) 0 16
def Fld.DOV.SLICE_CAL_OFS (rf : RegFile) (i : Nat) : Nat := rf.fld (Adr.DOV.SLICE_CAL i) 16 16
def Fld.DOV.CH_CORR_CH_GAIN (rf : RegFile) (i : Nat) : Nat := rf.fld (Adr.DOV.CH_CORR i) 0 16
def Fld.DOV.CH_CORR_CH_OFS (rf : RegFile) (i : Nat) : Nat := rf.fld (Adr.DOV.CH_CORR i) 16 16
def Fld.DOV.SLOT_CFG_EN (rf : RegFile) (i : Nat) : Nat := rf.fld (Adr.DOV.SLOT_CFG i) 0 1
def Fld.DOV.SLOT_CFG_URGENT (rf : RegFile) (i : Nat) : Nat := rf.fld (Adr.DOV.SLOT_CFG i) 1 1
def Fld.DOV.SLOT_CFG_LP_KEEP (rf : RegFile) (i : Nat) : Nat := rf.fld (Adr.DOV.SLOT_CFG i) 2 1
def Fld.DOV.SLOT_CFG_TRIG (rf : RegFile) (i : Nat) : Nat := rf.fld (Adr.DOV.SLOT_CFG i) 4 2
def Fld.DOV.SLOT_CFG_CH (rf : RegFile) (i : Nat) : Nat := rf.fld (Adr.DOV.SLOT_CFG i) 8 5
def Fld.DOV.SLOT_CFG_PWM_CH (rf : RegFile) (i : Nat) : Nat := rf.fld (Adr.DOV.SLOT_CFG i) 16 3
def Fld.DOV.PERIOD_US (rf : RegFile) (i : Nat) : Nat := rf.fld (Adr.DOV.PERIOD_US i) 0 20
def Fld.DOV.DELAY (rf : RegFile) (i : Nat) : Nat := rf.fld (Adr.DOV.DELAY i) 0 16
def Fld.DOV.LIMIT_LO (rf : RegFile) (i : Nat) : Nat := rf.fld (Adr.DOV.LIMIT i) 0 16
def Fld.DOV.LIMIT_HI (rf : RegFile) (i : Nat) : Nat := rf.fld (Adr.DOV.LIMIT i) 16 16
def Fld.DOV.RESULT_FIXED (rf : RegFile) (i : Nat) : Nat := rf.fld (Adr.DOV.RESULT_FIXED i) 0 20
def Fld.DOV.RESULT_VALUE (rf : RegFile) (i : Nat) : Nat := rf.fld (Adr.DOV.RESULT i) 0 16
def Fld.DOV.RESULT_VALID (rf : RegFile) (i : Nat) : Nat := rf.fld (Adr.DOV.RESULT i) 16 1
def Fld.DOV.RESULT_OUT_OF_LIMIT (rf : RegFile) (i : Nat) : Nat := rf.fld (Adr.DOV.RESULT i) 17 1
def Fld.DOV.RESULT_CAL_OLD (rf : RegFile) (i : Nat) : Nat := rf.fld (Adr.DOV.RESULT i) 18 1
def Fld.DOV.LIMIT_STAT (rf : RegFile) : Nat := rf.fld Adr.DOV.LIMIT_STAT 8 24
def Fld.DOV.PWM_CFG_EN (rf : RegFile) (i : Nat) : Nat := rf.fld (Adr.DOV.PWM_CFG i) 0 1
def Fld.DOV.PWM_CFG_POL (rf : RegFile) (i : Nat) : Nat := rf.fld (Adr.DOV.PWM_CFG i) 1 1
def Fld.DOV.PERIOD (rf : RegFile) (i : Nat) : Nat := rf.fld (Adr.DOV.PERIOD i) 0 24
def Fld.DOV.DUTY (rf : RegFile) (i : Nat) : Nat := rf.fld (Adr.DOV.DUTY i) 0 24
def Fld.DOV.EVT_CNT (rf : RegFile) (i : Nat) : Nat := rf.fld (Adr.DOV.EVT_CNT i) 0 24
def Fld.ICE.T_AMB (rf : RegFile) : Nat := rf.fld Adr.ICE.T_AMB 0 16
def Fld.ICE.THR_CFG_START (rf : RegFile) : Nat := rf.fld Adr.ICE.THR_CFG 0 8
def Fld.ICE.THR_CFG_SLOPE (rf : RegFile) : Nat := rf.fld Adr.ICE.THR_CFG 8 8
def Fld.ICE.THR_CFG_MAX (rf : RegFile) : Nat := rf.fld Adr.ICE.THR_CFG 16 8
def Fld.ICE.WARN (rf : RegFile) : Nat := rf.fld Adr.ICE.WARN 0 8
def Fld.ICE.ALPHA_0 (rf : RegFile) : Nat := rf.fld Adr.ICE.ALPHA_0 0 24
def Fld.ICE.ALPHA_1 (rf : RegFile) : Nat := rf.fld Adr.ICE.ALPHA_1 0 24
def Fld.ICE.ALPHA_2 (rf : RegFile) : Nat := rf.fld Adr.ICE.ALPHA_2 0 24
def Fld.ICE.ALPHA_3 (rf : RegFile) : Nat := rf.fld Adr.ICE.ALPHA_3 0 24
def Fld.ICE.BETA_0 (rf : RegFile) : Nat := rf.fld Adr.ICE.BETA_0 0 24
def Fld.ICE.BETA_1 (rf : RegFile) : Nat := rf.fld Adr.ICE.BETA_1 0 24
def Fld.ICE.BETA_2 (rf : RegFile) : Nat := rf.fld Adr.ICE.BETA_2 0 24
def Fld.ICE.BETA_3 (rf : RegFile) : Nat := rf.fld Adr.ICE.BETA_3 0 24
def Fld.ICE.GAMMA_0 (rf : RegFile) : Nat := rf.fld Adr.ICE.GAMMA_0 0 24
def Fld.ICE.GAMMA_1 (rf : RegFile) : Nat := rf.fld Adr.ICE.GAMMA_1 0 24
def Fld.ICE.GAMMA_2 (rf : RegFile) : Nat := rf.fld Adr.ICE.GAMMA_2 0 24
def Fld.ICE.GAMMA_3 (rf : RegFile) : Nat := rf.fld Adr.ICE.GAMMA_3 0 24
def Fld.ICE.BETA_PA (rf : RegFile) : Nat := rf.fld Adr.ICE.BETA_PA 0 24
def Fld.ICE.TEMP (rf : RegFile) (i : Nat) : Nat := rf.fld (Adr.ICE.TEMP i) 0 32
def Fld.ICE.LEVEL_L0 (rf : RegFile) : Nat := rf.fld Adr.ICE.LEVEL 0 8
def Fld.ICE.LEVEL_L1 (rf : RegFile) : Nat := rf.fld Adr.ICE.LEVEL 8 8
def Fld.ICE.LEVEL_L2 (rf : RegFile) : Nat := rf.fld Adr.ICE.LEVEL 16 8
def Fld.ICE.LEVEL_L3 (rf : RegFile) : Nat := rf.fld Adr.ICE.LEVEL 24 8
def Fld.ICE.LEVEL_PKG (rf : RegFile) : Nat := rf.fld Adr.ICE.LEVEL_PKG 0 8
def Fld.ICE.FUSED_TEMP (rf : RegFile) (i : Nat) : Nat := rf.fld (Adr.ICE.FUSED_TEMP i) 0 32
def Fld.ICE.SHUTDOWN_STAT_LAST (rf : RegFile) : Nat := rf.fld Adr.ICE.SHUTDOWN_STAT 0 1
def Fld.ICE.SHUTDOWN_STAT_NODE (rf : RegFile) : Nat := rf.fld Adr.ICE.SHUTDOWN_STAT 4 3
def Fld.ICE.SHUTDOWN_STAT_COUNT (rf : RegFile) : Nat := rf.fld Adr.ICE.SHUTDOWN_STAT 16 16
def Fld.FLK.LINK_CFG_EN (rf : RegFile) (n : Nat) : Nat := rf.fld (Adr.FLK.LINK_CFG n) 0 1
def Fld.FLK.LINK_STAT_STATE (rf : RegFile) (n : Nat) : Nat := rf.fld (Adr.FLK.LINK_STAT n) 0 2
def Fld.FLK.LINK_STAT_NEIGHBOUR_ID (rf : RegFile) (n : Nat) : Nat := rf.fld (Adr.FLK.LINK_STAT n) 8 4
def Fld.FLK.LINK_STAT_NEIGHBOUR_VALID (rf : RegFile) (n : Nat) : Nat := rf.fld (Adr.FLK.LINK_STAT n) 12 1
def Fld.FLK.ASYM (rf : RegFile) (n : Nat) : Nat := rf.fld (Adr.FLK.ASYM n) 0 32
def Fld.FLK.LINK_CAP (rf : RegFile) (n : Nat) : Nat := rf.fld (Adr.FLK.LINK_CAP n) 0 13
def Fld.FLK.RES_TX (rf : RegFile) (n : Nat) : Nat := rf.fld (Adr.FLK.RES_TX n) 0 13
def Fld.FLK.RES_RX (rf : RegFile) (n : Nat) : Nat := rf.fld (Adr.FLK.RES_RX n) 0 13
def Fld.FLK.REPLAYS (rf : RegFile) (n : Nat) : Nat := rf.fld (Adr.FLK.REPLAYS n) 0 32
def Fld.FLK.HB_MISSED (rf : RegFile) (n : Nat) : Nat := rf.fld (Adr.FLK.HB_MISSED n) 0 32
def Fld.FLK.CH_CFG_EN (rf : RegFile) (n i : Nat) : Nat := rf.fld (Adr.FLK.CH_CFG n i) 0 1
def Fld.FLK.CH_CFG_DIR (rf : RegFile) (n i : Nat) : Nat := rf.fld (Adr.FLK.CH_CFG n i) 1 1
def Fld.FLK.CH_CFG_KIND (rf : RegFile) (n i : Nat) : Nat := rf.fld (Adr.FLK.CH_CFG n i) 2 2
def Fld.FLK.CH_CFG_SRC (rf : RegFile) (n i : Nat) : Nat := rf.fld (Adr.FLK.CH_CFG n i) 4 4
def Fld.FLK.CH_CFG_EDGE (rf : RegFile) (n i : Nat) : Nat := rf.fld (Adr.FLK.CH_CFG n i) 8 1
def Fld.FLK.CH_CFG_TARGET (rf : RegFile) (n i : Nat) : Nat := rf.fld (Adr.FLK.CH_CFG n i) 9 1
def Fld.FLK.CH_CFG_IPR_SLOT (rf : RegFile) (n i : Nat) : Nat := rf.fld (Adr.FLK.CH_CFG n i) 12 4
def Fld.FLK.RATE (rf : RegFile) (n i : Nat) : Nat := rf.fld (Adr.FLK.RATE n i) 0 13
def Fld.FLK.BUF_UNIT (rf : RegFile) (n i : Nat) : Nat := rf.fld (Adr.FLK.BUF_UNIT n i) 0 24
def Fld.FLK.BUF_STRIDE (rf : RegFile) (n i : Nat) : Nat := rf.fld (Adr.FLK.BUF_STRIDE n i) 0 24
def Fld.FLK.NBUF (rf : RegFile) (n i : Nat) : Nat := rf.fld (Adr.FLK.NBUF n i) 0 3
def Fld.FLK.DESC_UNIT (rf : RegFile) (n i : Nat) : Nat := rf.fld (Adr.FLK.DESC_UNIT n i) 0 24
def Fld.FLK.FRAMES (rf : RegFile) (n i : Nat) : Nat := rf.fld (Adr.FLK.FRAMES n i) 0 32
def Fld.FLK.DROPPED (rf : RegFile) (n i : Nat) : Nat := rf.fld (Adr.FLK.DROPPED n i) 0 32
def Fld.HIE.ROLE_CFG_UP_PORT (rf : RegFile) : Nat := rf.fld Adr.HIE.ROLE_CFG 0 2
def Fld.HIE.ROLE_CFG_UP_EN (rf : RegFile) : Nat := rf.fld Adr.HIE.ROLE_CFG 2 1
def Fld.HIE.ROLE_CFG_DEPUTY (rf : RegFile) : Nat := rf.fld Adr.HIE.ROLE_CFG 4 1
def Fld.HIE.ROLE_CFG_DEPUTY_RANK (rf : RegFile) : Nat := rf.fld Adr.HIE.ROLE_CFG 5 2
def Fld.HIE.HIE_STAT_STATE (rf : RegFile) : Nat := rf.fld Adr.HIE.HIE_STAT 0 3
def Fld.HIE.HIE_STAT_DEV_ID (rf : RegFile) : Nat := rf.fld Adr.HIE.HIE_STAT 8 4
def Fld.HIE.HIE_STAT_ID_VALID (rf : RegFile) : Nat := rf.fld Adr.HIE.HIE_STAT 12 1
def Fld.HIE.HIE_STAT_MGR_ALIVE (rf : RegFile) : Nat := rf.fld Adr.HIE.HIE_STAT 16 1
def Fld.HIE.HIE_STAT_CAS_ROOT (rf : RegFile) : Nat := rf.fld Adr.HIE.HIE_STAT 17 1
def Fld.HIE.EPOCH (rf : RegFile) : Nat := rf.fld Adr.HIE.EPOCH 0 16
def Fld.HIE.ALIVE_LOW (rf : RegFile) : Nat := rf.fld Adr.HIE.ALIVE_LOW 0 5
def Fld.HIE.REFUSED (rf : RegFile) : Nat := rf.fld Adr.HIE.REFUSED 0 32
def Fld.PMU.LAST_RESET (rf : RegFile) : Nat := rf.fld Adr.PMU.LAST_RESET 0 3
def Fld.PMU.WDT_CFG_TIMEOUT_MS (rf : RegFile) : Nat := rf.fld Adr.PMU.WDT_CFG 0 16
def Fld.PMU.WDT_CFG_EN (rf : RegFile) : Nat := rf.fld Adr.PMU.WDT_CFG 31 1
def Fld.PMU.BOOT_STAT_STATE (rf : RegFile) : Nat := rf.fld Adr.PMU.BOOT_STAT 0 3
def Fld.PMU.BOOT_STAT_COPY (rf : RegFile) : Nat := rf.fld Adr.PMU.BOOT_STAT 4 2
def Fld.PMU.BOOT_STAT_CONFIG_DIVERGENT (rf : RegFile) : Nat := rf.fld Adr.PMU.BOOT_STAT 8 1
def Fld.PMU.BOOT_STAT_A_BAD (rf : RegFile) : Nat := rf.fld Adr.PMU.BOOT_STAT 9 1
def Fld.PMU.BOOT_STAT_B_BAD (rf : RegFile) : Nat := rf.fld Adr.PMU.BOOT_STAT 10 1
def Fld.PMU.BOOT_GEN (rf : RegFile) : Nat := rf.fld Adr.PMU.BOOT_GEN 0 32
def Fld.PMU.LIST_STOP (rf : RegFile) : Nat := rf.fld Adr.PMU.LIST_STOP 0 16
def Fld.PMU.VSEL_CUR (rf : RegFile) : Nat := rf.fld Adr.PMU.VSEL 0 2
def Fld.PMU.VSEL_SETTLED (rf : RegFile) : Nat := rf.fld Adr.PMU.VSEL 4 1
def Fld.PMU.VSETTLE_US (rf : RegFile) : Nat := rf.fld Adr.PMU.VSETTLE_US 0 12
def Fld.PMU.PWR_STAT_PG (rf : RegFile) : Nat := rf.fld Adr.PMU.PWR_STAT 0 4
def Fld.PMU.PWR_STAT_PG_FAIL (rf : RegFile) : Nat := rf.fld Adr.PMU.PWR_STAT 8 8
def Fld.PMU.SLEEP_STAT_STATE (rf : RegFile) : Nat := rf.fld Adr.PMU.SLEEP_STAT 0 2
def Fld.PMU.SLEEP_STAT_REFUSED (rf : RegFile) : Nat := rf.fld Adr.PMU.SLEEP_STAT 4 1
def Fld.PMU.SLEEP_STAT_ABORTED (rf : RegFile) : Nat := rf.fld Adr.PMU.SLEEP_STAT 5 1
def Fld.PMU.WAKE_CFG_WAKE_PIN_EN (rf : RegFile) : Nat := rf.fld Adr.PMU.WAKE_CFG 0 1
def Fld.PMU.WAKE_CFG_TIMER_EN (rf : RegFile) : Nat := rf.fld Adr.PMU.WAKE_CFG 1 1
def Fld.PMU.WAKE_DELAY_MS (rf : RegFile) : Nat := rf.fld Adr.PMU.WAKE_DELAY_MS 0 32
def Fld.PMU.WAKE_SRC (rf : RegFile) : Nat := rf.fld Adr.PMU.WAKE_SRC 0 2
def Fld.PMU.WARM_ENTRY (rf : RegFile) : Nat := rf.fld Adr.PMU.WARM_ENTRY 0 32
def Fld.PMU.WARM_VALID (rf : RegFile) : Nat := rf.fld Adr.PMU.WARM_VALID 0 1
def Fld.PMU.AON_TRIM (rf : RegFile) : Nat := rf.fld Adr.PMU.AON_TRIM 0 16
def Fld.PMU.RCV_ADDR (rf : RegFile) : Nat := rf.fld Adr.PMU.RCV_ADDR 0 20
def Fld.PMU.RCV_STAT_BUSY (rf : RegFile) : Nat := rf.fld Adr.PMU.RCV_STAT 0 1
def Fld.PMU.RCV_STAT_BAD (rf : RegFile) : Nat := rf.fld Adr.PMU.RCV_STAT 1 1
def Fld.PMU.RCV_STAT_REFUSED (rf : RegFile) : Nat := rf.fld Adr.PMU.RCV_STAT 2 1

end Sys2Proof.Machine
end

