-- ==== Sys2Proof/Machine/State.lean ====
section
/-! DEFINITION. The state of the SH16 as plain data, its faults and refusals, and the state after reset.
Registers live in ONE register file, keyed by BAR0 offset; state a register table does not hold (queues, sequencers, buffers, counters of sequencers) has
its own structure per block. -/

namespace Sys2Proof.Machine

/-- Why the model stops with a fault. -/
inductive Fault where
  /-- Raised by a meaning whose operands no wire or master of the SH16 can produce (Instr.wellFormed is false: a page above 255, a burst of more than
  8 beats, a byte list of the wrong length). Safe: the hardware never sees such a command. DESIGN CHOICE (assumption 7). -/
  | malformedCommand
deriving DecidableEq, Repr

/-- Why the model refuses a command. -/
inductive Refusal where
  /-- Raised by an arm of `exec` whose command has no meaning yet, under the mnemonic of the opcode table. Safe: nothing is claimed of it. -/
  | notModelled (mnemonic : String)
deriving DecidableEq, Repr

/-! ### Faults and interrupts (R39, R40, R55 to R59, R374) -/

/-- A fault that a page holds (R40, R374). -/
structure Held where
  page : Nat
  cause : Nat
  code : Nat
  /-- an event fault; otherwise a condition fault -/
  event : Bool
  /-- the unit that reports it -/
  unit : Nat
deriving DecidableEq, Repr

/-- A report on its way to the fault collector, stamped with short time on arrival (R55). -/
structure Report where
  unit : Nat
  cause : Nat
  code : Nat
  time : Nat
deriving DecidableEq, Repr

/-- A cause record of the fault collector (R56, R58). -/
structure Record where
  cause : Nat
  cls : Nat
  firstTime : Nat
  lastTime : Nat
  firstReporter : Nat
  lastReporter : Nat
  count : Nat
  /-- not yet captured by Kiosk selector 0x01 (PG_STAT.NEW) -/
  fresh : Bool
deriving DecidableEq, Repr

/-- One bank's Kiosk on one page (R47, R48). -/
structure KioskEntry where
  echo : Nat
  valid : Bool
  busy : Bool
  nosel : Bool
  data : List Nat
deriving DecidableEq, Repr

/-- A Kiosk before any selector write. -/
def kioskIdle : KioskEntry := { echo := 0, valid := false, busy := false, nosel := false, data := [] }

/-- An RTP packet as a sender sends it on a port (R269 to R271): its MAC, IPv4 and UDP headers, its RTP header, and what it carries. -/
structure StreamPacket where
  port : Nat
  srcMac : Nat
  dstMac : Nat
  srcIp : Nat
  dstIp : Nat
  dscp : Nat
  ttl : Nat
  udpSrc : Nat
  udpDst : Nat
  payloadType : Nat
  ssrc : Nat
  seq : Nat
  timestamp : Nat
  marker : Bool
  body : RtpBody
deriving DecidableEq, Repr

/-- BND_BCLK, BND_FS and BND_MCLK of a port (R278, R283): high impedance with pull-downs; inputs; or driven, with the bit clock and MCLK, if it runs, in Hz, and
whether data change on the rising edge of BND_BCLK. -/
inductive ClockPins where
  | highZ
  | inputs
  | driven (bclk : Nat) (mclk : Option Nat) (rising : Bool)
deriving DecidableEq, Repr

/-- How the SH16 drives lanes or a pin: high impedance; low; high; in electrical idle, or a transmitter off; receiving only; or as its chapter says in service. -/
inductive PinDrive where
  | highZ | low | high | idle | receive | service
deriving DecidableEq, Repr

/-- What partners observe (R343): the PCIe endpoint's lanes, RP_PERST_N and the root ports' lanes, the Ethernet transmitters, the Falilan lanes and FLK_MGR_ALIVE
(R321), the cascade's clock and data pins, BOOT_CS_N and its clock, and the sensor, SDI, DSI, audio, PWM, LTC and frame-pulse pins, which in reset follow their chapters. -/
structure PartnerPins where
  endpoint : PinDrive
  rpPerst : PinDrive
  rootLanes : PinDrive
  ethernet : PinDrive
  falilan : PinDrive
  mgrAlive : PinDrive
  cascadeClock : PinDrive
  cascadeData : PinDrive
  norSelect : PinDrive
  norClock : PinDrive
  others : PinDrive
deriving DecidableEq, Repr

/-- How the boot ROM reads the SPI NOR (R344): which lines carry command, address and data, the clock in MHz, the command and the address bytes. -/
structure NorMode where
  lines : Nat × Nat × Nat
  mhz : Nat
  command : Nat
  addressBytes : Nat
deriving DecidableEq, Repr

/-- What the block sends to the outside. -/
inductive Output where
  /-- an MSI-X message of function 0 (R59) -/
  | msix (vector : Nat)
  /-- the completion of a transaction: to its master, the data of a read, and the unit ID of an error response (R22) -/
  | response (master : Nat) (data : List Byte) (error : Option Nat)
  /-- the level of a PWR_EN pin or of TCXO_EN changed (R339, R340) -/
  | powerPins (io core hs vddq tcxo : Bool)
  /-- VAON is below 2.0 V: the enables are undriven, and their pull-downs turn every regulator off together (R340) -/
  | powerUndriven
  /-- what the partners of R343 see has changed -/
  | partnerPins (p : PartnerPins)
  /-- the boot ROM reads so many bytes of the SPI NOR; it sets Quad Enable as the QER field says (R344) -/
  | norRead (mode : NorMode) (address bytes : Nat)
  | norQuadEnable (qer : Nat)
  /-- a PWM pin runs: PERIOD and DUTY in counts of 10 ns, POL, and when the count was 0; or it is high impedance (R317, R318) -/
  | pwmRun (channel period duty : Nat) (pol : Bool) (start : Nat)
  | pwmHighZ (channel : Nat)
  /-- PMU_VSEL (R338) -/
  | vsel (point : Nat)
  /-- a V or H trigger pulse of a lane group starts; `inverted` is POL, `widthNs` its length (R98) -/
  | trigger (group : Nat) (h : Bool) (inverted : Bool) (widthNs : Nat)
  /-- a master clock runs at 2,400 MHz × 2^24 / divider from its next rising edge on, or stops (R97) -/
  | masterClock (c : Nat) (divider : Option Nat)
  /-- an SPI transaction starts on a master with these bytes (R99) -/
  | spiStart (master mode div len : Nat) (tx : List Byte)
  /-- an I2C transaction starts on a master (R99) -/
  | i2cStart (master speed addr len : Nat) (read : Bool) (tx : List Byte)
  /-- a write of CC.EN of a member drive, at its BAR0 address below a root port; the admin queues lie in the staging region (R197) -/
  | memberControl (port bar : Nat) (en : Bool) (queues : List Nat)
  /-- an inbound memory read of a root port is served with this data, or receives Unsupported Request (R200) -/
  | inboundData (port : Nat) (data : List Byte)
  | unsupported (port : Nat)
  /-- function 1 posts a completion entry: completion queue, SQID and SQ head, CID, status field with phase tag, DW0 (R220, R223) -/
  | hostCompletion (cq sq head cid status cdw0 : Nat)
  /-- function 1 writes the data of a command into host memory -/
  | hostData (sq cid : Nat) (data : List Byte)
  /-- an MSI-X message of function 1 -/
  | msixFunction1 (vector : Nat)
  /-- an SDI output sends a frame: FMT, whether it is black, its payload ID, its rows of samples, and for each line its number and the line CRCs of its data
  streams (R233) -/
  | sdiFrame (port fmt : Nat) (black : Bool) (pid : PayloadId) (rows : List (List Nat)) (numbers : List Nat) (crcs : List (List Nat))
  /-- black lines of this FMT, which are no frame, fill this many ns before the first genlock-aligned frame start (R235) -/
  | sdiFill (port fmt ns : Nat)
  /-- 16 samples embedded in an SDI output as ST 299-1 or ST 299-2 states, with their index (R281) -/
  | sdiAudio (port form k : Nat) (samples : List Nat)
  /-- a panel frame, as rows of (R, G, B) -/
  | panelFrame (panel : Nat) (rows : List (List (Nat × Nat × Nat)))
  /-- the rest of a line from this raster position leaves as BG_COLOUR (R243) -/
  | panelBackground (panel pixel : Nat)
  /-- a DSI panel packet (R245) -/
  | dsiPacket (panel dataType : Nat) (read : Bool) (data : List Byte)
  /-- an LTC word starts, carrying this label (R261) -/
  | ltcWord (label : Nat)
  /-- SUN_FP goes high for this many ns (R262) -/
  | framePulse (pin widthNs : Nat)
  /-- a frame leaves a line port; `fcsOk` is false where its FCS leaves corrupted (R264) -/
  | ethFrame (port : Nat) (bytes : List Byte) (fcsOk : Bool)
  /-- the content of a sender's frame: its rows of samples, or its ancillary bytes (R271) -/
  | senderFrame (sender timestamp : Nat) (rows : List (List Nat)) (anc : List Byte)
  /-- packet `index` of `packets` of a sender leaves on a port (R270) -/
  | senderPacket (sender index packets : Nat) (p : StreamPacket)
  /-- the clock pins of a port and its BND_DO are in another state (R283) -/
  | audioPins (port : Nat) (clocks : ClockPins) (data : Bool)
  /-- a frame on a port's pins (R276): its index, the levels of BND_FS that a master drives and the bits of BND_DO, one of each per bit clock from the frame-start edge
  on, with the bit clocks by which slot 0 follows that edge; the slots -/
  | audioOut (port k : Nat) (fs : Option (List Bool)) (offset : Nat) (data : List Bool) (slots : List Nat)
  /-- the block drives FLK_MGR_ALIVE high, and leaves it undriven again (R321, R332) -/
  | mgrAlive
  | mgrReleased
  /-- a heartbeat leaves a port (R331) -/
  | heartbeat (port seq sender state epoch : Nat)
  /-- a TIME message leaves a port, with its stamp t1 and the t4 it carries; a reply leaves a port (R324) -/
  | timeMessage (port t1 : Nat) (t4 : Option Nat)
  | timeReply (port : Nat)
  /-- a channel frame leaves a port: its data, then its descriptor or header (R327); of a BORDER channel, rows of a frame as they are conditioned, with FRAME_COUNT and
  whether they are its last (R328) -/
  | channelFrame (port chan : Nat) (data desc : List Byte)
  /-- a cascade message: ID_ASSIGN, the request for it, a request to repeat a message, and an image block (R329, R330) -/
  | idAssign (n : Nat)
  | idRequest
  | cascadeRepeat
  | imageRequest
  | imageBlock (offset : Nat) (bytes : List Byte) (last : Bool)
  /-- a remote access leaves towards its target, and its answer towards its origin (R322, R323) -/
  | remoteForward (port origin target k : Nat) (isWrite : Bool) (page off : Nat) (value : Word)
  | remoteAnswer (origin : Nat) (value : Word) (failed : Option (Nat × Nat))
deriving DecidableEq, Repr

/-! ### Time (R248) -/

/-- PTP time: seconds, nanoseconds and the fraction in 2^−16 ns. -/
structure PtpTime where
  sec : Nat
  ns : Nat
  frac : Nat
deriving DecidableEq, Repr

/-! ### Admission (03_guarantees.md) -/

/-- The state of a flow entry (FLOW_STATE). -/
inductive FlowState where
  | free | admitted | refused
deriving DecidableEq, Repr

/-- A flow table entry (R70) with its token bucket (R75), in 1/16,000 beat. -/
structure Flow where
  owner : Nat
  pwrCore : Nat
  pwrFixed : Nat
  burst : Nat
  /-- six (RES, UNITS) pairs; RES 0x3F is unused -/
  costs : List (Nat × Nat)
  st : FlowState
  tokens : Nat
  /-- the short time of the latest refill -/
  filled : Nat
deriving DecidableEq, Repr

/-- A flow entry after reset. -/
def flowReset : Flow :=
  { owner := 0, pwrCore := 0, pwrFixed := 0, burst := 0x100, costs := List.replicate 6 (0x3F, 0), st := .free, tokens := 0, filled := 0 }

/-- A best-effort operation held for its pause quanta, or eligible and waiting (R77, R78). -/
structure BeOp where
  party : Nat
  quanta : Nat
  txn : Txn
  /-- the short time at which its last pause quantum ended, or of its arrival where it had none: waiting counts from there (R78) -/
  eligible : Nat
deriving DecidableEq, Repr

/-- A best-effort party's slot at a resource (R77): the party may be promoted there, and its patience counts from `since`. -/
structure BeSlot where
  res : Nat
  party : Nat
  since : Nat
deriving DecidableEq, Repr

/-- The admission unit's own state. -/
structure Trl where
  /-- the flow table; entry 0 to 127 -/
  flows : List (Nat × Flow)
  /-- FLOW_SEL of the Lodge's bank and of the shared bank (R71) -/
  selLodge : Nat
  selShared : Nat
  /-- the operating point whose power factor admission uses (R73); OP.CUR is the point whose capacities it uses -/
  opPower : Nat
  /-- root ports whose link has trained, as (port, generation); their capacity and allowance follow R66 and R77 -/
  rpGen : List (Nat × Nat)
  /-- the generation the endpoint link trained at; 0 while it has not (R66) -/
  epGen : Nat
  beOps : List BeOp
  /-- the slots that parties hold, at most BE_SLOTS for each MC group and root port, in the order they were taken (R77) -/
  slots : List BeSlot
  /-- the short time at which each party's patience counter was last restarted by an urgent service, by arbiter × 2^16 + party (R79) -/
  restarted : List (Nat × Nat)
deriving DecidableEq, Repr

/-! ### Memory controller (15_memory.md) -/

/-- One entry of a channel's read or write queue (R289): its address, its beats of 32 bytes, whether it is class 1 of R77 (metered or promoted), and the short
time it entered. -/
structure McEntry where
  addr : Nat
  beats : Nat
  metered : Bool
  entered : Nat
deriving DecidableEq, Repr

/-- A channel's latest uncorrectable read, as its Kiosk shows it. -/
structure UeRecord where
  addr : Nat
  master : Nat
  time : Nat
deriving DecidableEq, Repr

/-- One DRAM channel. -/
structure McChan where
  debt : Nat
  /-- per-bank refreshes already issued towards the next interval to be repaid, 0 to 7 -/
  paid : Nat
  /-- the bank pair the next per-bank refresh covers -/
  pair : Nat
  /-- the short time of the latest per-bank refresh in repay -/
  lastPb : Nat
  repay : Bool
  drain : Bool
  readQ : List McEntry
  writeQ : List McEntry
  /-- the open row of each of the 16 banks of a rank, as (16 × rank + bank, row) -/
  openRows : List (Nat × Nat)
  /-- the words that inline ECC corrected and whose write-back waits for room in the write queue (R292) -/
  corrected : List McEntry
  ready : Bool
  ue : UeRecord
deriving DecidableEq, Repr

/-- A channel after reset. -/
def mcChanReset : McChan :=
  { debt := 0, paid := 0, pair := 0, lastPb := 0, repay := false, drain := false, readQ := [], writeQ := [], openRows := [], corrected := [], ready := false,
    ue := { addr := 0, master := 0, time := 0 } }

/-- One byte lane: its trained delays, the moves made since, and LANE_DRIFT. -/
structure LaneState where
  rd : Nat
  wr : Nat
  rdVref : Nat
  wrVref : Nat
  moved : Int
  drift : Bool
deriving DecidableEq, Repr

/-- A lane after reset. -/
def laneReset : LaneState := { rd := 0, wr := 0, rdVref := 0, wrVref := 0, moved := 0, drift := false }

/-- The memory controller. -/
structure Mem where
  /-- 16 channels, device channel 4g + k − 1 -/
  chans : List (Nat × McChan)
  lanes : List (Nat × LaneState)
  /-- DRAM_CFG as TRAIN read it (R292) -/
  cfg : Nat
  /-- class-1 transactions that found their channel's queue full, oldest first (R77); best-effort ones are held as `Trl.beOps` -/
  waiting : List Txn
  /-- the refresh interval of each group in picoseconds, as MR4 demanded at the latest round (R290) -/
  trefi : List Nat
  /-- in self-refresh, for Summerhouse (R349) -/
  selfRefresh : Bool
deriving DecidableEq, Repr

/-! ### Dovecote, PWM and Icehouse (17_housekeeping.md) -/

/-- A conversion a slice is making. -/
inductive Conv where
  | fixedVolt (slot : Nat) | fixedCurr (slot : Nat)
  | slot (s : Nat) (started : Nat) (calOld : Bool) (chOfs : Int) (chGain : Nat) (sliceOfs : Int) (sliceGain : Nat)
deriving DecidableEq, Repr

/-- A request waiting in the sequencer: its slot and whether it is URGENT. -/
structure SlotReq where
  slot : Nat
  urgent : Bool
deriving DecidableEq, Repr

/-- What the triggers of an enabled slot count from, in `elapsed`: the apply point that enabled it, and the time up to which its triggers have been given (R311). -/
structure SlotClock where
  start : Nat
  done : Nat
deriving DecidableEq, Repr

/-- The Dovecote's sequencer, calibration and reference state. -/
structure Dov where
  /-- what each busy slice converts -/
  busy : List (Nat × Conv)
  fixedDue : List Nat
  waiting : List SlotReq
  /-- slots whose run of merged triggers has already reported SLOT_OVERRUN -/
  merging : List Nat
  /-- power sums and pair counts of the fixed slots in this round, by slot -/
  sums : List (Nat × (Nat × Nat))
  /-- the spare slice is borrowed for the conversion of an URGENT request -/
  borrowed : Bool
  /-- the spare slice was borrowed in this round (R308) -/
  borrowedRound : Bool
  /-- the spare slice's calibration is complete -/
  calReady : Bool
  /-- rounds since the latest rotation -/
  roundsSince : Nat
  /-- slices, oldest calibration first -/
  calOrder : List Nat
  /-- the reference each slice was last calibrated against, by slice (R307) -/
  calRef : List (Nat × Nat)
  /-- the slice that becomes spare once its conversion ends -/
  retiring : Option Nat
  /-- consecutive rounds in which neither drift condition held -/
  clear : Nat
  /-- short time of each slot's latest result -/
  sampled : List (Nat × Nat)
  /-- when the enabled TIMER and PWM_EVENT slots trigger, by slot -/
  clocks : List (Nat × SlotClock)
deriving DecidableEq, Repr

/-- Periods of a PWM channel with one setting: the start of the first and the end of the last, in `elapsed`, PERIOD and EVT_CNT. -/
structure PwmRun where
  start : Nat
  stop : Nat
  period : Nat
  evt : Nat
deriving DecidableEq, Repr

/-- One PWM channel: the settings of the period in progress. -/
structure PwmChan where
  running : Bool
  pol : Bool
  period : Nat
  duty : Nat
  evt : Nat
  /-- the pin is high impedance with its pull-down (R318) -/
  hiZ : Bool
  /-- when the count was 0, in `elapsed` -/
  start : Nat
  /-- earlier periods whose events a DELAY can still bring -/
  past : List PwmRun
deriving DecidableEq, Repr

/-- A PWM channel after reset. -/
def pwmReset : PwmChan := { running := false, pol := false, period := 0x2710, duty := 0, evt := 0, hiZ := true, start := 0, past := [] }

/-! ### Power, reset and boot (19_power_boot.md) -/

/-- Where the power sequencer stands (R339, R340, R349, R351). -/
inductive PwrStage where
  /-- power-up, the latest step of R339 that is done (2 to 5) -/
  | up (step : Nat)
  /-- all rails on -/
  | on
  /-- rails off after a missed power-good; a retry follows after 1 s -/
  | retry
  /-- rails off until RESET_N falls or VAON is cycled -/
  | dead
  /-- rails off after a thermal shutdown (R316) -/
  | thermal
  /-- Summerhouse (R349) -/
  | sleep
  /-- wake, the latest step of R351 that is done (1 to 7) -/
  | waking (step : Nat)
  /-- VAON has fallen -/
  | noVaon
deriving DecidableEq, Repr

/-- Where the boot stands (BOOT_STAT.STATE with the list position). -/
inductive BootStage where
  | held | rom | list (index : Nat) | listEnded | running | waitImage
deriving DecidableEq, Repr

/-- The power management unit, the reset inputs and the boot ROM. -/
structure Pwr where
  stage : PwrStage
  enIo : Bool
  enCore : Bool
  enHs : Bool
  enVddq : Bool
  tcxoEn : Bool
  /-- consecutive failed power-ups -/
  fails : Nat
  internalReset : Bool
  resetN : Bool
  perstN : Bool
  /-- the endpoint is ready to enter link training (R342) -/
  epReady : Bool
  casRoot : Bool
  /-- the move up that waits for the voltage: the requested point (R338, R73) -/
  settling : Option Nat
  /-- a reset other than POR found VSEL elsewhere, and the release waits 200 µs (R371) -/
  restoreWait : Bool
  /-- the short time the watchdog was last restarted -/
  wdtFrom : Nat
  boot : BootStage
  /-- the boot buffer -/
  bootBuf : List Host.Cell
  /-- bytes of the image received so far over the cascade (R330) -/
  imageLen : Nat
  /-- one source has delivered a good image (R348) -/
  imageTaken : Bool
  /-- the register list of the copy in use, as (word 0, word 1) -/
  list : List (Nat × Nat)
  firmware : List Byte
  entry : Nat
  generation : Nat
  /-- the copy in use, whole: the device's own boot image (R330) -/
  image : List Byte
  /-- the Lodge runs, from this address -/
  lodgeAt : Option Nat
  /-- Lodge SRAM -/
  sram : List Host.Cell
  /-- always-on rounds since the thermal shutdown -/
  aonRounds : Nat
  /-- how often the block has been powered on (R221) -/
  powerCycles : Nat
  /-- the trained delays copied to always-on storage (R349) -/
  savedLanes : List (Nat × LaneState)
  savedCfg : Nat
  /-- event faults to be reported once the Lodge runs, as (unit, code) (R316, R346, R347) -/
  bootReports : List (Nat × Nat)
deriving DecidableEq, Repr

/-! ### Sensor front end (04_sensor_front_end.md) -/

/-- The geometry and settings a group uses for one frame (R46, R89, R96). -/
structure SfeCfg where
  width : Nat
  height : Nat
  lanes : Nat
  sampleBits : Nat
  padCode : Nat
  modeId : Nat
  dual : Bool
  /-- embedded sync codes -/
  sync : Bool
  /-- CLOSE_TIMEOUT in ns -/
  closeNs : Nat
  /-- LV_DELAY in words -/
  lvDelay : Nat
  /-- JOIN_SKEW in ns -/
  skew : Nat
deriving DecidableEq, Repr

/-- One row as it leaves a group: the low-gain samples, the high-gain samples of dual-gain mode, the flags, and the stamp of its line start. -/
structure RawRow where
  lo : List Nat
  hi : List Nat
  short : Bool
  long : Bool
  pad : Bool
  stamp : Option Nat
deriving DecidableEq, Repr

/-- What waits at the output of a group: a complete row, or pad lines still owed (R93). -/
inductive SfeItem where
  | row (r : RawRow)
  | pads (count : Nat)
deriving DecidableEq, Repr

/-- The line being received. -/
structure SfeLine where
  samples : List Nat
  excess : Nat
  ignored : Bool
  stamp : Nat
deriving DecidableEq, Repr

/-- An edge of FV or LV (R87). -/
inductive SfeEdge where
  | frameStart | lineStart | lineEnd | frameEnd
deriving DecidableEq, Repr

/-- A frame being received by a group. -/
structure SfeFrame where
  cfg : SfeCfg
  sof : Nat
  rows : Nat
  /-- readouts that have ended, those discarded after an overflow included -/
  readouts : Nat
  /-- the time at which row GEO_HEIGHT − 1 ended -/
  lastEnd : Option Nat
  /-- the low-gain half of a dual-gain row -/
  half : Option RawRow
  /-- the row of the discarded line, after an overflow (R93) -/
  trunc : Option Nat
  /-- the stream whose frame this is, and its FRAME_COUNT there -/
  stream : Nat
  count : Nat
  /-- row r of the group is row r × step + base of the frame (R83) -/
  step : Nat
  base : Nat
  /-- what has left the line buffer while the frame start is held, and how the frame ended meanwhile (R83): LONG or not -/
  kept : List SfeItem
  ended : Option Bool
deriving DecidableEq, Repr

/-- One lane group. -/
structure SfeGroup where
  /-- the group's enable has taken effect (R72, R86) -/
  running : Bool
  /-- the frame counter value of the next frame or slot (R91) -/
  cnt : Nat
  /-- A of R89 -/
  anchor : Option Nat
  /-- the next slot -/
  slot : Nat
  /-- the windows fit (R90) and the rate is not 0 (R376) -/
  windowOk : Bool
  rateOk : Bool
  frame : Option SfeFrame
  line : Option SfeLine
  /-- arriving samples are discarded without count until the next accepted frame start (R90, R375) -/
  discard : Bool
  /-- a record has closed and no frame start was accepted since (R92) -/
  afterClose : Bool
  /-- SNS_FV is high -/
  fv : Bool
  queue : List SfeItem
  /-- pad lines of a later frame, owed once the present frame of the group has closed (R83) -/
  owed : List SfeItem
  /-- edges of FV and LV on their way, with the sample slots that arrive before each of them acts (LV_DELAY) -/
  edges : List (Nat × SfeEdge)
  /-- a joined group's frame start held for its leading group's; `frame` is then the held one (R83) -/
  heldSof : Option Nat
  /-- the next V trigger, the H pulses still to follow the latest one, and the time of the next of them (R98) -/
  trig : Nat
  hLeft : Nat
  hNext : Nat
  /-- the trigger series has started -/
  trigOn : Bool
deriving DecidableEq, Repr

/-- A group after reset. -/
def sfeGroupReset : SfeGroup :=
  { running := false, cnt := 0, anchor := none, slot := 0, windowOk := true, rateOk := true, frame := none, line := none, discard := false,
    afterClose := false, fv := false, queue := [], owed := [], edges := [], heldSof := none, trig := 0, hLeft := 0, hNext := 0, trigOn := false }

/-- A frame record (the table after R370). -/
structure FrameRec where
  count : Nat
  sof : Nat
  modeId : Nat
  tags : Nat
  missing : Nat
  lines : Nat
  firstDropped : Nat
  epoch : Nat
  timecode : Nat
  /-- the PTP time of its start, seconds and nanoseconds (R130) -/
  ptp : Nat × Nat
deriving DecidableEq, Repr

/-- The record a Kiosk shows before any has closed. -/
def frameRecReset : FrameRec :=
  { count := 0, sof := 0, modeId := 0, tags := 0, missing := 0, lines := 0, firstDropped := 0, epoch := 0, timecode := 0, ptp := (0, 0) }

/-- A frame of a stream from its accepted start until its last row has left. -/
structure StreamFrame where
  record : FrameRec
  mode : Nat
  members : List Nat
  cfgs : List SfeCfg
  /-- rows of the whole frame -/
  height : Nat
  /-- a SKIPPED slot, which has no rows (R90) -/
  skipped : Bool
  /-- members whose frame start has come, or for which it no longer can (R83) -/
  begun : List Nat
  /-- joined groups whose share has not closed -/
  waiting : List Nat
  /-- rows received, by closed group -/
  got : List (Nat × Nat)
  started : Bool
  sent : Nat
  stamp0 : Option Nat
  stamp1 : Option Nat
  /-- JOIN_SKEW as the leading group read it -/
  skew : Nat
deriving DecidableEq, Repr

/-- A sensor stream: its frames, oldest first, its latest closed record, and I of R370. -/
structure SfeStream where
  frames : List StreamFrame
  latest : FrameRec
  interval : Nat
deriving DecidableEq, Repr

/-- A stream after reset. -/
def sfeStreamReset : SfeStream := { frames := [], latest := frameRecReset, interval := 0 }

/-- What a stream carries to raw conditioning. -/
inductive RawItem where
  | start (record : FrameRec) (mode : Nat) (cfgs : List SfeCfg) (height : Nat)
  | row (r : RawRow)
  | finish (record : FrameRec)
  | skipped (record : FrameRec)
deriving DecidableEq, Repr

/-- An SPI or I2C master: its FIFOs and the transaction in progress or deferred (R99). -/
structure SerialMaster where
  tx : List Byte
  rx : List Byte
  /-- the command of the transaction deferred to an update group -/
  deferred : Option Nat
deriving DecidableEq, Repr

/-- A serial master after reset. -/
def serialReset : SerialMaster := { tx := [], rx := [], deferred := none }

/-- What the sensor's pins show (R80, R97, R98, R100). -/
structure SnsPins where
  /-- the sensor control functions have been enabled since reset -/
  control : Bool
  /-- groups whose lanes have been enabled since reset; groups whose triggers have -/
  lanes : List Nat
  triggers : List Nat
  /-- the master clocks that run, with their divider INT × 2^24 + FRAC -/
  mclk : List (Nat × Nat)
deriving DecidableEq, Repr

/-- What HIE records of one sensor stream over a stay in ISOLATED and REJOINING (R336). -/
structure IsoStream where
  first : Nat
  last : Nat
  count : Nat
deriving DecidableEq, Repr

/-! ### Raw conditioning (05_raw_conditioning.md) -/

/-- The flags of a line (R92, R93). -/
structure LineFlags where
  pad : Bool
  short : Bool
  long : Bool
deriving DecidableEq, Repr

/-- A line with no flag. -/
def noFlags : LineFlags := { pad := false, short := false, long := false }

/-- A photosite stream after raw conditioning: L25 codes by row (R101), with the frame's record before and after them. -/
inductive LineItem where
  /-- a frame begins; `cfa` is the header CFA_ID of a decoded frame -/
  | start (record : FrameRec) (width height : Nat) (cfa : Option Nat)
  | row (flags : LineFlags) (v : List Int)
  | finish (record : FrameRec)
  | skipped (record : FrameRec)
deriving DecidableEq, Repr

/-- A frame being conditioned: its settings (R46), the rows received and the rows that have left. -/
structure RcnFrame where
  record : FrameRec
  width : Nat
  height : Nat
  sampleBits : Nat
  dual : Bool
  /-- the registers of the RCN and RCS pages at the frame start -/
  cfg : RegFile
  rows : List RawRow
  /-- the results of stage 1 of each row, low gain and high gain, held for the rows around it (R106) -/
  level : List (List Int × List Int)
  /-- the accepted entries of the defect map, as (raster position, TYPE); none before the map is read -/
  map : Option (List (Nat × Nat))
  /-- table reads still to come that will end in an error response, with its cause (R110) -/
  failed : List ((RcnTable × Nat) × Nat)
  /-- table reads issued, with what each gave: none for an error response (R105, R110) -/
  reads : List ((RcnTable × Nat) × Option (List Byte))
  /-- conditioned rows -/
  out : List (LineFlags × List Int)
  /-- the integrator saw this frame's start while RUNNING -/
  integrate : Bool
  /-- Ebosh Raw takes the frame, and Orangery context A does: as they were set at its frame start (R46, R138) -/
  toEbe : Bool
  toOrg : Bool
deriving DecidableEq, Repr

/-- One context of raw conditioning. -/
structure RcnCtx where
  running : Bool
  frame : Option RcnFrame
deriving DecidableEq, Repr

/-- A context after reset. -/
def rcnCtxReset : RcnCtx := { running := false, frame := none }

/-- The frame integrator (R111 to R115). -/
structure Integrator where
  /-- the RCS registers as read at a START that takes effect at the next frame start of its context -/
  armed : Option RegFile
  /-- the RCS registers of the integration -/
  cfg : RegFile
  /-- frames taken -/
  taken : Nat
  /-- tiles in the saturated state (R113) -/
  tiles : List Nat
  /-- the AVERAGE pass that runs: registers, frames, width and height (R114) -/
  averaging : Option (RegFile × Nat × Nat × Nat)
  /-- non-SKIPPED frames after START so far -/
  number : Nat
  /-- width, height, sample bits and dual gain of the integration -/
  geometry : Option (Nat × Nat × Nat × Bool)
  /-- STOP was given and waits for the frame in progress -/
  stopping : Bool
  /-- complete frames to be taken or refused, oldest first -/
  done : List RcnFrame
deriving DecidableEq, Repr

/-- The totals of one region and phase over one frame (R116). -/
structure StatSet where
  sum : Int
  min : Int
  max : Int
  clipped : Nat
  count : Nat
deriving DecidableEq, Repr

/-- A region that counted no sample. -/
def statEmpty : StatSet := { sum := 0, min := 0xFFFFFF, max := -0x1000000, clipped := 0, count := 0 }

/-! ### Ebosh Raw (06_ebosh_raw.md) -/

/-- A frame in the pre-roll ring (R132 to R134). -/
structure RingFrame where
  count : Nat
  unit : Nat
  /-- FRAME_BYTES of its header -/
  bytes : Nat
  sof : Nat
  isolated : Bool
  /-- STRIDE_UNITS when it was written -/
  stride : Nat
  /-- committed and not released -/
  committed : Bool
  /-- committed by the take with this TAKE_SEQ -/
  take : Option Nat
deriving DecidableEq, Repr

/-- The frame an encoder context is writing. -/
structure EbeFrame where
  record : FrameRec
  width : Nat
  height : Nat
  cw : Nat
  ratio2 : Nat
  pedestal : Nat
  cfaId : Nat
  user : List Byte
  tileBytes : Nat
  stride : Nat
  /-- the ring unit of its header; none where the frame is not written (R133) -/
  unit : Option Nat
  skipped : Bool
  /-- rows of the row of tiles in progress, as (PAD, coded samples) -/
  rows : List (Bool × List Nat)
  tileRow : Nat
  holdSegs : Nat
  rawTiles : Nat
  /-- LOSSLESS: the index so far, in 32-byte units from the frame start -/
  index : List Nat
  /-- the byte offset of the next tile -/
  offset : Nat
  writeErr : Bool
  /-- every row has arrived, with the closed record -/
  complete : Bool
deriving DecidableEq, Repr

/-- The frame that START or STOP chose: the one with a count, or the first one that is not among those whose start came before the write, which are named by
count and SOF_TIME (R134). -/
inductive TakePoint where
  | count (c : Nat)
  | next (older : List (Nat × Nat))
deriving DecidableEq, Repr

/-- One encoder context. -/
structure EbeCtx where
  running : Bool
  /-- geometry and stride of the latest frame: width, height, STRIDE_UNITS -/
  geometry : Option (Nat × Nat × Nat)
  /-- RING_UNIT and RING_UNITS when the context became active -/
  ring : Nat × Nat
  /-- frames in the ring, oldest first -/
  frames : List RingFrame
  /-- the ring unit after the latest frame written -/
  nextUnit : Nat
  /-- FRAME_COUNT after the latest frame seen -/
  nextCount : Option Nat
  open_ : Option EbeFrame
  /-- F_w ≤ COMMIT_RESERVE has been reported -/
  starved : Bool
  /-- the trigger frame (ARMED) -/
  trigger : Option TakePoint
  /-- the first frame not committed (RECORDING, after STOP) -/
  stopAt : Option TakePoint
  /-- frames committed in the present take, and released by the Boathouse -/
  committed : Nat
  released : Nat
deriving DecidableEq, Repr

/-- A context after reset. -/
def ebeCtxReset : EbeCtx :=
  { running := false, geometry := none, ring := (0, 0), frames := [], nextUnit := 0, nextCount := none, open_ := none, starved := false, trigger := none,
    stopAt := none, committed := 0, released := 0 }

/-- The decoder's job (R136). -/
structure EbdJob where
  cfg : RegFile
  /-- the next frame -/
  n : Nat
  /-- PACE_START as a full nanosecond count, by the serial comparison made as the job starts (R11) -/
  base : Int
deriving DecidableEq, Repr

/-! ### Boathouse (10_boathouse.md) -/

/-- The NVMe commands that the Boathouse issues to members (R198): Identify with CNS 0x01 and 0x00, Set Features Number of Queues, Create and Delete I/O
Completion and Submission Queue, Get Log Page of one Error Information entry, Read, and Write with its FUA bit. -/
inductive MemberOp where
  | identifyController
  | identifyNamespace
  | setQueues (pairs : Nat)
  | createCq (entries : Nat)
  | createSq (entries : Nat)
  | deleteSq
  | deleteCq
  | errorLog
  | read
  | write (fua : Bool)
deriving DecidableEq, Repr

/-- What a member command serves (R198). `host` names its queue and the number of its host command. -/
inductive MemberUse where
  | init
  | remove
  | errorLog
  | label (v : Nat)
  | labelRead (v : Nat)
  | scan (v : Nat)
  | journal (v seq : Nat)
  | frame (c vol take key : Nat)
  | fetch
  | host (sq tag : Nat)
deriving DecidableEq, Repr

/-- A 4 KiB block that a member command moves: the DRAM unit that holds it, none while it waits for a unit of the staging region; and, of a block still to be
staged, its bytes (R198). -/
structure Block where
  unit : Option Nat
  data : List Byte
deriving DecidableEq, Repr

/-- A command outstanding to a member drive. -/
structure MemberCmd where
  cid : Nat
  op : MemberOp
  /-- its NSID; 0 where it names no namespace -/
  nsid : Nat
  /-- the 4 KiB DRAM units it names, in order (R200) -/
  blocks : List Block
  /-- byte offset in the namespace -/
  addr : Nat
  bytes : Nat
  /-- reissues so far -/
  retries : Nat
  /-- it has ended without success: with an error status, or by a timeout -/
  failed : Bool
  purpose : MemberUse
deriving DecidableEq, Repr

/-- The DRAM units that a command names; it is issued once every block has one. -/
def MemberCmd.units (c : MemberCmd) : List Nat := c.blocks.filterMap (·.unit)
def MemberCmd.ready (c : MemberCmd) : Bool := c.blocks.all (·.unit.isSome)

/-- How far the initialisation of a member has come (R197): a step is under way, every step has ended with success, or a step has failed. -/
inductive InitStage where
  | running | done | failed
deriving DecidableEq, Repr

/-- One member drive. -/
structure Member where
  /-- the initialisation of R197, while the member is in INIT -/
  stage : InitStage
  /-- the active LBA format has 4,096-byte data and no metadata, as Identify Namespace said -/
  formatOk : Bool
  capacity : Nat
  mdts : Nat
  written : Nat
  errors : Nat
  timeouts : Nat
  nextCid : Nat
  cmds : List MemberCmd
  /-- the staging units that hold its admin and I/O queues (R197) -/
  queues : List Nat
deriving DecidableEq, Repr

/-- A member after reset. -/
def memberReset : Member :=
  { stage := .running, formatOk := false, capacity := 0, mdts := 0, written := 0, errors := 0, timeouts := 0, nextCid := 0, cmds := [], queues := [] }

/-- What an OPEN scan finds (R207): the newest valid record as the fields the scan uses, what the forward scan keeps behind it, SOF_TIME of the last that it keeps,
and that of the record. -/
structure JournalTail where
  seq : Nat
  takeId : Nat
  hasEnd : Bool
  takeStripe : Nat
  strideUnits : Nat
  first : Nat
  last : Nat
  bytes : Nat
  kind : Nat
  src : Nat
  channel : Nat
  flags : Nat
  prevVol : Nat
  prevTake : Nat
  sof : Nat
  recordSof : Nat
deriving DecidableEq, Repr

/-- What a volume is waiting for, beside VOL_STAT. -/
inductive VolWait where
  | none | label | formatWait | format | openWait | open
  /-- the forward scan reads the next frame or record behind what it has kept (R207) -/
  | forward (tail : JournalTail)
  /-- EN is 0, and these host commands are still to end (R218) -/
  | disable (tags : List Nat)
deriving DecidableEq, Repr

/-- A committed frame or a record that a channel has taken and not released. -/
structure ChanItem where
  /-- FRAME_COUNT, or SEQ -/
  key : Nat
  /-- its DRAM units, in order -/
  units : List Nat
  bytes : Nat
  sof : Nat
  isolated : Bool
  /-- RAW: bytes 0x000 to 0x0FF of its header -/
  header : List Byte
  /-- CODEC: ring offsets of the record and just past it -/
  ringStart : Nat
  ringEnd : Nat
  /-- CODEC: a record that appeared while DRAINING, which is passed and not written (R210) -/
  pass : Bool
deriving DecidableEq, Repr

/-- The take a channel is recording or has left unfinished. -/
structure Take where
  vol : Nat
  id : Nat
  stripe : Nat
  stride : Nat
  /-- FIRST_FC or first SEQ, once an item has been taken -/
  first : Option Nat
  /-- the latest item released -/
  last : Option Nat
  lastSof : Nat
  /-- BYTES: the end of the released part from the take start -/
  bytes : Nat
  /-- the end of the part taken -/
  taken : Nat
  /-- the key expected next -/
  next : Option Nat
  isolated : Bool
  continuation : Bool
  prevVol : Nat
  prevTake : Nat
  /-- the journal slot of TAKE_START -/
  startSeq : Option Nat
  /-- the take waits for an IDR record (R212) -/
  awaitIdr : Bool
  /-- the EPOCH of the latest frame taken (R206) -/
  epoch : Option Nat
  /-- CODEC: the bytes of the last block on the medium that is not full -/
  tail : List Byte
  geomEnd : Bool
deriving DecidableEq, Repr

/-- A take of the source that has started while the channel was not IDLE (R212). -/
structure LaterTake where
  stride : Nat
  items : List ChanItem
  ended : Bool
  geomEnd : Bool
deriving DecidableEq, Repr

/-- One recording channel. -/
structure Chan where
  take : Option Take
  /-- items taken and not released, oldest first -/
  items : List ChanItem
  /-- committed frames held while HALTED, oldest first, behind `items` -/
  held : List ChanItem
  /-- RAW: frames committed to the take under HOLD, oldest first, and the end of the take that follows them, with whether a new geometry ended it (R37) -/
  queue : List ChanItem
  ending : Option Bool
  /-- the source's take has ended -/
  srcEnded : Bool
  /-- later takes of the source, oldest first -/
  later : List LaterTake
  /-- the ring offset up to which records have been seen (CODEC) -/
  ringPos : Nat
deriving DecidableEq, Repr

/-- A channel after reset. -/
def chanReset : Chan := { take := none, items := [], held := [], queue := [], ending := none, srcEnded := false, later := [], ringPos := 0 }

/-- The fetch job's registers as read at FETCH_CMD (R214). -/
structure Fetch where
  vol : Nat
  ofs : Nat
  dst : Nat
  units : Nat
  /-- the ADMITTED flow that carries the copy; none for best-effort work -/
  flow : Option Nat
  /-- its Reads have been issued: not under HOLD (R37) -/
  issued : Bool
deriving DecidableEq, Repr

/-- The Boathouse. -/
structure Bth where
  members : List (Nat × Member)
  /-- the member table, by volume × 32 + slot (R202) -/
  table : List (Nat × Word)
  waits : List (Nat × VolWait)
  chans : List (Nat × Chan)
  fetch : Option Fetch
deriving DecidableEq, Repr

/-! ### Offload controller (11_offload_controller.md) -/

/-- An error status (R224): SCT, SC and DNR, the cause ID with its fault code, the unit that detected it, and the media address. -/
structure HostStatus where
  sct : Nat
  sc : Nat
  dnr : Bool
  cause : Nat
  code : Nat
  reporter : Nat
  media : Nat
deriving DecidableEq, Repr

/-- A command fetched and not completed (R219). -/
structure HostCmd where
  /-- MODEL FIELD: its number, in fetch order -/
  tag : Nat
  sq : Nat
  cmd : NvmeCmd
  /-- its member commands have been issued -/
  issued : Bool
  /-- what the checks at the fetch decided against it (R218, R219) -/
  refused : Option HostStatus
  /-- its units of the staging pool -/
  units : List Nat
deriving DecidableEq, Repr

/-- A submission queue. -/
structure SubQueue where
  cq : Nat
  size : Nat
  base : Nat
  qprio : Nat
  head : Nat
  tail : Nat
  frozen : Bool
  wait : Nat
deriving DecidableEq, Repr

/-- A completion queue. -/
structure CplQueue where
  size : Nat
  base : Nat
  head : Nat
  tail : Nat
  phase : Bool
  vector : Option Nat
deriving DecidableEq, Repr

/-- A completion decided and not yet posted, in order; it waits while its completion queue is full. -/
structure Post where
  cq : Nat
  sq : Nat
  cid : Nat
  status : Nat
  cdw0 : Nat
deriving DecidableEq, Repr

/-- An entry of the error logs (R225). -/
structure ErrEntry where
  count : Nat
  sq : Nat
  cid : Nat
  status : Nat
  cause : Nat
  code : Nat
  opcode : Nat
  reporter : Nat
  nsid : Nat
  lba : Nat
  time : Nat
  media : Nat
  outstanding : Nat
deriving DecidableEq, Repr

/-- A Delete I/O Submission Queue in progress: its CID, the queue, and the ended commands whose member commands must finish first (R227). -/
structure Deleting where
  cid : Nat
  sq : Nat
  tags : List Nat
deriving DecidableEq, Repr

/-- What function 1 reports of itself in its BAR0: the fields of CAP, VS, the size of BAR0, the first doorbell and the MSI-X vectors (R215). -/
structure CtrlProps where
  mqes : Nat
  cqr : Nat
  ams : Nat
  timeout : Nat
  dstrd : Nat
  nssrs : Nat
  mpsMin : Nat
  mpsMax : Nat
  vs : Nat
  barBytes : Nat
  doorbells : Nat
  vectors : Nat
deriving DecidableEq, Repr

/-- The values of R215. -/
def ctrlProps : CtrlProps :=
  { mqes := 4095, cqr := 1, ams := 1, timeout := 0x14, dstrd := 0, nssrs := 0, mpsMin := 0, mpsMax := 0, vs := 0x00020000, barBytes := 16384, doorbells := 0x1000,
    vectors := 64 }

/-- The offload controller. -/
structure Ofc where
  /-- the read-only properties in BAR0 -/
  props : CtrlProps
  /-- CC.EN, CSTS.RDY -/
  enabled : Bool
  ready : Bool
  /-- CC.AMS is weighted round robin -/
  wrr : Bool
  /-- CC.SHN, CSTS.SHST -/
  shn : Nat
  shst : Nat
  sqs : List (Nat × SubQueue)
  cqs : List (Nat × CplQueue)
  /-- in fetch order -/
  cmds : List HostCmd
  posts : List Post
  /-- MODEL FIELD: the number of the next command fetched -/
  nextTag : Nat
  /-- Delete I/O Submission Queue commands in progress -/
  deleting : List Deleting
  /-- commands that a disable has ended and whose member commands run on (R216) -/
  draining : List Nat
  /-- an I/O queue has been created since the enable (R221) -/
  queueMade : Bool
  creditHigh : Nat
  creditMedium : Nat
  creditLow : Nat
  /-- the latest queue served of each class: URGENT, HIGH, MEDIUM, LOW, and of all queues -/
  turn : List Nat
  /-- SQ_FLOW of each I/O submission queue -/
  flows : List (Nat × Nat)
  errorCount : Nat
  /-- newest first -/
  log : List ErrEntry
  /-- feature values as set, by FID (and by vector for 0x09: 0x900 + vector) -/
  features : List (Nat × Nat)
  /-- the APST table, 32 entries of 8 bytes -/
  apst : List Byte
  ps : Nat
  /-- the elapsed time at which the controller became idle -/
  idleFrom : Nat
  /-- SMART counters: media errors, LBAs read and written, host reads and writes -/
  mediaErrors : Nat
  unitsRead : Nat
  unitsWritten : Nat
  reads : Nat
  writes : Nat
deriving DecidableEq, Repr

/-- The controller after reset. -/
def ofcReset : Ofc :=
  { props := ctrlProps, enabled := false, ready := false, wrr := false, shn := 0, shst := 0, sqs := [], cqs := [], cmds := [], posts := [], nextTag := 0,
    deleting := [], draining := [], queueMade := false, creditHigh := 0,
    creditMedium := 0, creditLow := 0, turn := [0, 0, 0, 0, 0], flows := [], errorCount := 0, log := [], features := [], apst := [], ps := 0, idleFrom := 0,
    mediaErrors := 0, unitsRead := 0, unitsWritten := 0, reads := 0, writes := 0 }

/-! ### Orangery and views (07_orangery.md, 08_views.md) -/

/-- A pixel of three channels. -/
abbrev Px := Int × Int × Int

/-- A frame in an Orangery context. -/
structure OrgFrame where
  /-- MODEL FIELD: the number of the frame in its context, by which views know it -/
  serial : Nat
  record : FrameRec
  width : Nat
  height : Nat
  cfa : Nat
  /-- the ORG page at the frame start (R46) -/
  cfg : RegFile
  /-- input rows -/
  rows : List (LineFlags × List Int)
  /-- the output rows that have left (R144) -/
  out : List (LineFlags × List Px)
  complete : Bool
  /-- the frame end has been processed (R155) -/
  ended : Bool
deriving DecidableEq, Repr

/-- An Orangery context. -/
structure OrgCtx where
  running : Bool
  frame : Option OrgFrame
  serial : Nat
deriving DecidableEq, Repr

/-- A context after reset. -/
def orgCtxReset : OrgCtx := { running := false, frame := none, serial := 0 }

/-- The colour statistics of one region and channel (R155). -/
structure ColourStat where
  sum : Int
  count : Nat
  clipped : Nat
deriving DecidableEq, Repr

/-- Statistics of a region that counted nothing. -/
def colourEmpty : ColourStat := { sum := 0, count := 0, clipped := 0 }

/-- A table load in progress: ID, copy and LOAD_UNIT (R154). -/
structure TableLoad where
  id : Nat
  copy : Nat
  unit : Nat
deriving DecidableEq, Repr

/-- A complete frame buffer in DRAM with its descriptor's fields (R170, R171). -/
structure BufFrame where
  index : Nat
  /-- byte address of the buffer, its PITCH, and the byte offset of its chroma plane -/
  addr : Nat
  pitch : Nat
  chroma : Nat
  fmt : Nat
  depth : Nat
  range : Nat
  colorimetry : Nat
  tf : Nat
  width : Nat
  height : Nat
  count : Nat
  tags : Nat
  sof : Nat
  seq : Nat
deriving DecidableEq, Repr

/-- A reader's hold on a buffer of a source (R171). -/
structure BufHold where
  source : Nat
  reader : Nat
  index : Nat
deriving DecidableEq, Repr

/-- A source frame that has started for a view and that the view has not begun. -/
structure ViewStart where
  /-- the number of the stream frame; none for a paced view -/
  serial : Option Nat
  source : Nat
  /-- the frame record, as it began and then as it closed -/
  record : FrameRec
  /-- stream lines (s25) that have arrived, and whether all have -/
  rows : List (LineFlags × List Px)
  whole : Bool
  /-- the buffer a paced view takes -/
  buffer : Option BufFrame
deriving DecidableEq, Repr

/-- A view's frame in progress. -/
structure ViewFrame where
  start : ViewStart
  /-- the VW page at the frame start -/
  cfg : RegFile
  /-- the buffer written; none where the frame is dropped (R171) -/
  target : Option Nat
deriving DecidableEq, Repr

/-- One view pipe. -/
structure View where
  running : Bool
  /-- source frames since the latest one taken (FRAME_DIV) -/
  div : Nat
  starts : List ViewStart
  frame : Option ViewFrame
  /-- the view's output frame count -/
  seq : Nat
  /-- the next slot of a paced view, and whether its series runs -/
  slot : Nat
  paced : Bool
  dropping : Bool
  /-- a buffer has been completed since the view became active -/
  fresh : Bool
  /-- the LUT copy that the latest apply point selected (R153) -/
  copy : Option Nat
  /-- the frame record that its stream carried last, a SKIPPED slot's included (R138) -/
  record : Option FrameRec
deriving DecidableEq, Repr

/-- A view after reset. -/
def viewReset : View :=
  { running := false, div := 0, starts := [], frame := none, seq := 0, slot := 0, paced := false, dropping := false, fresh := false, copy := none,
    record := none }

/-- The Parterre's series (R173). -/
structure Parterre where
  running : Bool
  /-- the next frame -/
  n : Nat
  /-- PAT_START as a full nanosecond count, by the serial comparison made at START (R11) -/
  base : Int
  serial : Nat
deriving DecidableEq, Repr

/-! ### Glasshouse (09_glasshouse.md) -/

/-- A buffer of the reference pool (R184, R185): MARK 0 UNUSED, 1 SHORT, 2 LONG. -/
structure PoolBuf where
  unit : Nat
  session : Nat
  assigned : Bool
  mark : Nat
  outputPending : Bool
  stamp : Nat
  /-- published to a view source (R193), and to which: 0 GD0, 1 GD1 -/
  published : Bool
  outSrc : Nat
deriving DecidableEq, Repr

/-- A buffer after reset. -/
def poolReset : PoolBuf := { unit := 0, session := 0, assigned := false, mark := 0, outputPending := false, stamp := 0, published := false, outSrc := 0 }

/-- The colour description and video_full_range_flag of the parameter sets (R176). -/
structure Vui where
  fullRange : Nat
  primaries : Nat
  transfer : Nat
  matrix : Nat
deriving DecidableEq, Repr

/-- The SEI messages that the encoder writes (R176). -/
inductive Sei where
  | activeParameterSets | bufferingPeriod | pictureTiming | timeCode | pictureHash
deriving DecidableEq, Repr

/-- A tile column, with the engine that codes it and its luma columns (R178). -/
structure Tile where
  engine : Nat
  x0 : Nat
  width : Nat
deriving DecidableEq, Repr

/-- The tools and syntax that R176 names. -/
inductive Tool where
  | cabac | cavlc | deblocking | sao | tmvp | mergeAndSkip | cuQpDelta | mbQpDelta | transform8x8 | amp | interNxN | pcm | transformSkip | transquantBypass
  | scalingLists | weightedPrediction | wavefront | crossComponentPrediction | implicitRdpcm | extendedPrecision | fieldCoding | mbaff | bSlices | reordering
deriving DecidableEq, Repr

/-- What the parameter sets of the encoder say, as far as the spec fixes it (R175, R176, R178): profile, level, tier, the picture before and after padding (the
conformance window or frame cropping takes the padding away), chroma format and depth, the tools in use, the colour description, and the tile columns. -/
structure ParamSets where
  profile : Nat
  level : Nat
  tier : Nat
  width : Nat
  height : Nat
  codedWidth : Nat
  codedHeight : Nat
  chroma : Nat
  depth : Nat
  refs : Nat
  tools : List Tool
  vui : Vui
  tileColumns : Nat
  tileRows : Nat
  uniformSpacing : Bool
  loopFilterAcrossTiles : Bool
deriving DecidableEq, Repr

/-- What an access unit of the encoder holds, as far as the spec fixes it (R176, R178, R189): IDR or P slices, one to a tile; the parameter sets that it carries;
its SEI messages; the CRC of each component of the reconstruction, for the decoded picture hash; the filler NAL unit's bytes. -/
structure AccessUnit where
  h264 : Bool
  idr : Bool
  sets : Option ParamSets
  sei : List Sei
  tiles : List Tile
  hash : List Nat
  filler : Nat
deriving DecidableEq, Repr

/-- What a decoded stream's parameter sets say (R192, R193): what of the standard it needs, its coded size, the colour fields of its VUI, the references of a
sliding window, how far output may lag behind decoding, and the pictures that the decoded picture buffer holds. -/
structure StreamInfo where
  profile : Nat
  level : Nat
  chroma : Nat
  depth : Nat
  width : Nat
  height : Nat
  field : Bool
  range : Nat
  colorimetry : Nat
  tf : Nat
  refs : Nat
  reorder : Nat
  dpb : Nat
deriving DecidableEq, Repr

/-- A picture of a session, from the taking of its source frame or access unit until its record or its decoded picture is complete. -/
structure Picture where
  /-- the slot's short time and the deadline (R177) -/
  slot : Nat
  deadline : Nat
  /-- the view buffer an encode session took, with its view -/
  source : Option (Nat × BufFrame)
  /-- decode: the ring offset and the length of the access unit -/
  ringAt : Nat
  length : Nat
  /-- the GLS page at the slot (R46) -/
  cfg : RegFile
  /-- engines whose work item has not started; engines whose item runs -/
  waiting : List Nat
  running : List Nat
  /-- the picture has started: its pool buffer -/
  target : Option Nat
  /-- 0 IDR, 1 P, 2 REPEAT -/
  kind : Nat
  newParams : Bool
  qp : Nat
  /-- the buffers it references: LONG, then SHORT, newest first (R185) -/
  refs : List Nat
  /-- reads of its work items that ended in an error response (R194) -/
  bad : BadBeats
deriving DecidableEq, Repr

/-- A decoded picture in the output queue: its pool buffer and TAGS, its place in output order (the coded video sequence, then within it), and the stream's
parameters. -/
structure OutPicture where
  buffer : Nat
  tags : Nat
  order : Nat × Nat
  info : StreamInfo
deriving DecidableEq, Repr

/-- A record that waits for ring space, the engine that it stalls, and the ring it goes to (R191). -/
structure StalledRecord where
  bytes : List Byte
  engine : Nat
  ring : Nat × Nat
deriving DecidableEq, Repr

/-- One session. -/
structure Session where
  /-- the next slot -/
  slot : Nat
  seq : Nat
  /-- the view SEQ of the source of the picture started last, and the page its slot read -/
  prevSeq : Option Nat
  prevCfg : Option RegFile
  /-- pictures started since the latest IDR; none before the first -/
  sinceIdr : Option Nat
  forceIdr : Bool
  mismatchRun : Bool
  qpP : Nat
  full : Int
  peak : Int
  pics : List Picture
  /-- RING_UNIT and RING_UNITS as the session read them last (R46) -/
  ring : Nat × Nat
  /-- encode: the access unit written last; decode: the stream's parameters, the coded video sequences begun, the picture decoded last, and a token of what has been
  decoded since START -/
  unit : Option AccessUnit
  stream : Option StreamInfo
  cvs : Nat
  prevBuf : Option Nat
  decoded : Nat
  /-- decode: the slot of the next picture to be decoded -/
  decSlot : Nat
  /-- records that wait for ring space, oldest first (R191) -/
  stalled : List StalledRecord
  /-- SHORT buffers, newest first -/
  shorts : List Nat
  poolWaiting : Bool
  /-- handle commands that take effect at the next picture start, as (OP, buffer) (R187) -/
  cmds : List (Nat × Nat)
  outQueue : List OutPicture
  /-- pictures published since START -/
  outCount : Nat
  repeated : Nat
  lateSkipped : Nat
  /-- CPB_OVF, or STREAM_ERR -/
  ovf : Nat
  ringStalls : Nat
  /-- MISMATCH, or BAD_RECORD -/
  mismatch : Nat
  handle : Nat
  poolWait : Nat
deriving DecidableEq, Repr

/-- A session after reset. -/
def sessionReset : Session :=
  { slot := 0, seq := 0, prevSeq := none, prevCfg := none, sinceIdr := none, forceIdr := false, mismatchRun := false, qpP := 0, full := 0,
    peak := 0, pics := [], ring := (0, 0), unit := none, stream := none, cvs := 0, prevBuf := none, decoded := 0, decSlot := 0,
    stalled := [], shorts := [], poolWaiting := false, cmds := [], outQueue := [], outCount := 0, repeated := 0, lateSkipped := 0, ovf := 0,
    ringStalls := 0, mismatch := 0, handle := 0, poolWait := 0 }

/-- The Glasshouse. -/
structure Glass where
  pool : List (Nat × PoolBuf)
  sessions : List (Nat × Session)
deriving DecidableEq, Repr

/-! ### SDI and Belvedere (12_video_io.md) -/

/-- The frame an SDI output sends: its format, and the view source and buffer it holds, none for black. -/
structure SdiOut where
  fmt : Nat
  source : Option (Nat × Nat)
  /-- when it ends, in ns of the timebase -/
  ends : Int
deriving DecidableEq, Repr

/-- What the latest received input frame measured (Kiosk selector 0x10 of SDI). -/
structure SdiMeasure where
  sof : Nat
  period : Nat
  lines : Nat
  words : Nat
  pid : Nat
  crc : Nat
  skew : Nat
deriving DecidableEq, Repr

/-- One SDI transceiver. -/
structure Sdi where
  running : Bool
  /-- DIR as the enable applied it: an output -/
  output : Bool
  /-- FMT lies outside the table of R229 -/
  refused : Bool
  /-- the output's schedule: its start, its FMT, and the next frame (R231, R235) -/
  start : Nat
  fmt : Nat
  n : Nat
  /-- under GENLOCK, the index of the genlock point of the latest frame start -/
  point : Int
  /-- black frames still to be sent after a change of FMT -/
  blackLeft : Nat
  frame : Option SdiOut
  mismatchRun : Bool
  /-- input: the page as the frame being received found it (R46), and the adopted format -/
  cfg : RegFile
  adopted : Option Nat
  /-- the input's own frame count, and the buffers completed -/
  count : Nat
  seq : Nat
  pidRun : Bool
  measure : SdiMeasure
deriving DecidableEq, Repr

/-- A transceiver after reset. -/
def sdiReset : Sdi :=
  { running := false, output := false, refused := false, start := 0, fmt := 0, n := 0, point := 0, blackLeft := 0, frame := none, mismatchRun := false, cfg := [], adopted := none,
    count := 0, seq := 0, pidRun := false, measure := { sof := 0, period := 0, lines := 0, words := 0, pid := 0, crc := 0, skew := 0 } }

/-- One Belvedere panel output. -/
structure Blv where
  running : Bool
  /-- the applied timing does not fit its link (R240) -/
  refused : Bool
  /-- the page as the latest frame start read it, and that frame's short time -/
  cfg : RegFile
  started : Nat
  /-- a frame is being sent -/
  sending : Bool
  /-- the front porch of the latest frame has ended -/
  porchOver : Bool
  blankLeft : Nat
  /-- buffers held, as (view, buffer) -/
  held : List (Nat × Nat)
  /-- the newest buffers at the latest frame start, by layer -/
  shown : List (Option BufFrame)
  /-- a group bound to the page has applied since the latest frame start -/
  applied : Bool
  tx : List Byte
  rx : List Byte
  /-- the panel command in progress reads -/
  reading : Bool
  /-- a panel packet that waits for the end of the frame, as (DATA_TYPE, whether it reads, its bytes) (R245) -/
  packet : Option (Nat × Bool × List Byte)
  /-- command mode after a change under HOLD: nothing is sent before the first content frame (R246) -/
  quiet : Bool
deriving DecidableEq, Repr

/-- A panel output after reset. -/
def blvReset : Blv :=
  { running := false, refused := false, cfg := [], started := 0, sending := false, porchOver := true, blankLeft := 0, held := [], shown := [none, none, none],
    applied := false, tx := [], rx := [], reading := false, packet := none, quiet := false }

/-! ### Sundial (13_sundial_network.md) -/

/-- A step that waits for the round boundary, with its operands as taken at the write (R251). -/
inductive Step where
  | measured
  | value (ns : Int)
  | set (sec ns : Nat)
deriving DecidableEq, Repr

/-- One reference (R252 to R257). REF_STAT holds its state. -/
structure SunRef where
  /-- the latest offset, in 2^−16 ns; none while no offset was yielded since the reference was absent -/
  e : Option Int
  /-- it has not been seen by the servo -/
  fresh : Bool
  /-- offsets in the present period, with the first and the last, as (offset, nanosecond count) -/
  count : Nat
  firstE : Option (Int × Nat)
  lastE : Option (Int × Nat)
  /-- consecutive periods within TOL -/
  within : Nat
  /-- consecutive periods in which a drift condition held, and in which none held -/
  bad : Nat
  clear : Nat
  pathDelay : Nat
  /-- the elapsed time of its latest Sync, pulse, sync word, edge or TIME exchange (R252) -/
  seen : Nat
deriving DecidableEq, Repr

/-- A reference after reset. -/
def sunRefReset : SunRef :=
  { e := none, fresh := false, count := 0, firstE := none, lastE := none, within := 0, bad := 0, clear := 0, pathDelay := 0, seen := 0 }

/-- A period of the servo's record: its mean ADJ and its GOOD flag. -/
structure SunPeriod where
  adj : Int
  good : Bool
deriving DecidableEq, Repr

/-- The PTP slave's exchange (R267): times in 2^−16 ns. -/
structure PtpSlave where
  /-- a two-step Sync that waits for its Follow_Up: sequenceId, t2 and its correction -/
  sync : Option (Nat × Nat × Int)
  /-- t2 − t1 − corrections of the latest Sync -/
  down : Option Int
  /-- firmware's Delay_Reqs sent that have no answer yet, newest first: sequenceId and t3 -/
  requests : List (Nat × Nat)
  /-- the latest path delays, newest first, at most 16 -/
  delays : List Int
deriving DecidableEq, Repr

/-- Sundial beyond its registers. -/
structure Sun where
  step : Option Step
  refs : List (Nat × SunRef)
  iAcc : Int
  /-- consecutive accepted offsets of at most 100 ns -/
  lockRun : Nat
  /-- the latest e that the servo saw -/
  lastE : Int
  /-- ADJ summed over the rounds of the present period -/
  adjSum : Int
  adjRounds : Nat
  /-- newest first -/
  periods : List SunPeriod
  /-- the last step in ns, and short time after it -/
  lastStep : Int
  lastStepAt : Nat
  ptp : PtpSlave
  /-- a TC_SET that waits for the next genlock point -/
  tcSet : Option Nat
  /-- the second frame of a pair is next (rates above 30) -/
  pair : Bool
  /-- the last complete LTC word -/
  ltcIn : Option Nat
  /-- the genlock points of the latest LTC word and of the latest pulse of each SUN_FP pin, by index -/
  ltcPoint : Option Int
  pulses : List (Nat × Int)
  /-- the timecode of the latest frames by the index of their genlock points, newest first, with whether each is the first of a pair -/
  labels : List (Int × Nat × Bool)
  /-- no enable of LTC output has been applied yet: SUN_LTC_OUT is driven low (R261) -/
  ltcIdle : Bool
  /-- the SUN_FP pins of which no enable has been applied yet: high impedance with their pull-downs (R262) -/
  fpIdle : List Nat
deriving DecidableEq, Repr

/-! ### Ethernet and ST 2110 (13_sundial_network.md) -/

/-- A learnt MAC address: its port, and the nanosecond count at which it was seen last. -/
structure MacEntry where
  mac : Nat
  port : Nat
  seen : Nat
deriving DecidableEq, Repr

/-- Where a frame in an egress queue comes from: the other line port, with its ingress stamp in 2^−16 ns, or the control transmit ring, with FLAGS and OFS of
its slot and whether this is the copy of the slot's own PORT (R266, R268). -/
inductive EgressSource where
  | forwarded (inPort : Nat) (stamp : Int)
  | control (flags ofs : Nat) (own : Bool)
deriving DecidableEq, Repr

/-- A frame that waits at an egress: its class, and the elapsed time in 2^−16 ns from which it can leave (R264). -/
structure EgressFrame where
  port : Nat
  cls : Nat
  ready : Nat
  bytes : List Byte
  fcsOk : Bool
  source : EgressSource
deriving DecidableEq, Repr

/-- The slot of the control transmit ring that is being sent: LENGTH, FLAGS, OFS, and its egress stamp once it has left (R268). -/
structure ControlSlot where
  len : Nat
  flags : Nat
  ofs : Nat
  stamp : Option PtpTime
deriving DecidableEq, Repr

/-- A sender's frame in progress (R270, R271). -/
structure SenderFrame where
  /-- G_k in ns -/
  slot : Nat
  timestamp : Nat
  packets : Nat
  /-- the next packet -/
  next : Nat
  late : Bool
  /-- the view buffer held -/
  held : Option (Nat × Nat)
  /-- the page at the slot (R46) -/
  cfg : RegFile
  /-- what its packets carry, in order; an audio packet's samples are read as it leaves -/
  bodies : List RtpBody
deriving DecidableEq, Repr

/-- One ST 2110 sender. -/
structure Sender where
  running : Bool
  seq : Nat
  /-- frames in progress, oldest first -/
  frames : List SenderFrame
deriving DecidableEq, Repr

/-- A sender after reset. -/
def senderReset : Sender := { running := false, seq := 0, frames := [] }

/-- A receiver's frame in progress (R272). -/
structure ReceiverFrame where
  timestamp : Nat
  /-- the buffer written; none where every other buffer is held -/
  target : Option Nat
  sof : Nat
  firstSeq : Nat
  received : Nat
  err : Option Nat
  /-- the page at the frame's first packet (R46) -/
  cfg : RegFile
deriving DecidableEq, Repr

/-- What a receiver measured of a frame (R274). -/
structure ReceiverMeasure where
  vrxMax : Int
  cinstMax : Int
  fpt : Int
  late : Nat
  frameCount : Nat
deriving DecidableEq, Repr

/-- A video frame under measurement: the arrivals of its packets on the measured path, in order, in ns, duplicates among them (R274). -/
structure MeasuredFrame where
  timestamp : Nat
  arrivals : List Nat
  cfg : RegFile
  /-- its last packet has come -/
  done : Bool
deriving DecidableEq, Repr

/-- A video frame that has ended: its timestamp, its packet count, and its FRAME_COUNT. -/
structure EndedFrame where
  timestamp : Nat
  packets : Nat
  count : Nat
deriving DecidableEq, Repr

/-- One ST 2110 receiver. -/
structure Receiver where
  running : Bool
  /-- the highest sequence number accepted, and those in the window (R273) -/
  top : Option Nat
  seen : List Nat
  /-- the timestamp of the present or the latest frame -/
  timestamp : Option Nat
  frame : Option ReceiverFrame
  /-- the sequence number expected at the next frame's start -/
  nextSeq : Option Nat
  /-- the latest frames that ended since enable, newest first -/
  ended : List EndedFrame
  /-- the frame measured latest, or under measurement (R274) -/
  measuring : Option MeasuredFrame
  /-- the elapsed time of its latest packet, or of its start (R272) -/
  lastAt : Nat
  count : Nat
  seq : Nat
  lost : Bool
  /-- the write offset of the ancillary ring -/
  ringOfs : Nat
  /-- audio samples by index, newest first, as (index, samples by channel) -/
  audio : List (Nat × List Nat)
  packetsA : Nat
  packetsB : Nat
  duplicates : Nat
  lostPackets : Nat
  tooOld : Nat
  lateCount : Nat
  measure : ReceiverMeasure
deriving DecidableEq, Repr

/-- A receiver after reset. -/
def receiverReset : Receiver :=
  { running := false, top := none, seen := [], timestamp := none, frame := none, nextSeq := none, ended := [], measuring := none, lastAt := 0, count := 0, seq := 0, lost := false,
    ringOfs := 0, audio := [], packetsA := 0, packetsB := 0, duplicates := 0, lostPackets := 0, tooOld := 0, lateCount := 0,
    measure := { vrxMax := 0, cinstMax := 0, fpt := 0, late := 0, frameCount := 0 } }

/-- The Ethernet ports, the switch and the streams. -/
structure Net where
  /-- ports that run (R72) -/
  running : List Nat
  macs : List MacEntry
  /-- the MC table, by entry -/
  groups : List (Nat × Word)
  /-- the control receive ring has dropped the latest frame -/
  ctlRun : Bool
  /-- frames that wait at the egresses, oldest first (R264) -/
  egress : List EgressFrame
  /-- the elapsed time in 2^−16 ns up to which a port's line is busy, by port -/
  lineBusy : List (Nat × Nat)
  /-- the slot of the control transmit ring that is being sent (R268) -/
  ctlOut : Option ControlSlot
  /-- how many 2^−16 ns the next copies that the ring hands over take to be ready to leave -/
  ctlDelays : List Nat
  senders : List (Nat × Sender)
  receivers : List (Nat × Receiver)
deriving DecidableEq, Repr

/-! ### Bandstand (14_bandstand.md) -/

/-- One audio port. -/
structure Bnd where
  running : Bool
  /-- PORT_CFG in force for the frame in progress (R284) -/
  cfg : Nat
  /-- the latest sample index -/
  k : Option Nat
  slipRun : Bool
  /-- frames that still leave every slot 0 after a change of format -/
  muted : Nat
  /-- the bus by index, newest first, as (index, samples by slot) -/
  bus : List (Nat × List Nat)
  /-- frames since the latest preamble of a NONPCM pair, by pair (R282) -/
  nonpcm : List (Nat × Nat)
  /-- a disable or a refusal has been applied: the frame in progress is the last (R277, R283) -/
  stopping : Bool
  /-- the latest frame had a route whose source runs at another rate (R280) -/
  rateRun : Bool
deriving DecidableEq, Repr

/-- A port after reset. -/
def bndReset : Bnd := { running := false, cfg := 0, k := none, slipRun := false, muted := 0, bus := [], nonpcm := [], stopping := false, rateRun := false }

/-- What the BND page and the routes held before the latest apply point, and its elapsed time: a frame that starts in that beat goes by them (R284). -/
structure BndBefore where
  beat : Nat
  regs : RegFile
  routes : List (Nat × Nat)
deriving DecidableEq, Repr

/-- The Bandstand. -/
structure Bandstand where
  ports : List (Nat × Bnd)
  /-- the route of each slot 32p + s as it stands, and as its shadow holds it (R280) -/
  routes : List (Nat × Nat)
  routeShadow : List (Nat × Nat)
  /-- samples de-embedded from SDI inputs by index, newest first (R281), by input -/
  sdi : List (Nat × List (Nat × List Nat))
  before : Option BndBefore
deriving DecidableEq, Repr

/-! ### Arbour (16_arbour.md) -/

/-- The job in progress: its slot, descriptor bytes 0x00 to 0x23 as read at its start, and a result decided before any data moved (R297, R298). -/
structure ArbJob where
  slot : Nat
  /-- the address of its descriptor, and the slot after it, as the ring stood at its start -/
  addr : Nat
  next : Nat
  desc : List Byte
  early : Option Nat
deriving DecidableEq, Repr

/-! ### Falilan Link and hierarchy (18_multi_device.md) -/

/-- A frame channel of a port (R326). -/
structure FlkChan where
  running : Bool
  /-- the SEQ or FRAME_COUNT last sent -/
  last : Option Nat
  /-- the receiver's own buffer count, and the EBR ring unit of the next frame -/
  seq : Nat
  ringUnit : Nat
  /-- sender: complete buffers that it has still to send or to skip, oldest first, each held since it was completed (R171, R326) -/
  due : List BufFrame
  /-- sender: the buffer in transit, as (source, buffer) -/
  hold : Option (Nat × Nat)
  /-- sender of a BORDER channel: the FRAME_COUNT of the frame whose rows it sends -/
  border : Option Nat
deriving DecidableEq, Repr

/-- A channel after reset. -/
def flkChanReset : FlkChan := { running := false, last := none, seq := 0, ringUnit := 0, due := [], hold := none, border := none }

/-- One Falilan port. -/
structure Flk where
  running : Bool
  /-- the SEQ of the next heartbeat sent, and of the last accepted -/
  hbSeq : Nat
  hbLast : Option Nat
  /-- the latest accepted heartbeat's STATE and EPOCH -/
  hbState : Nat
  hbEpoch : Nat
  /-- a heartbeat was accepted since the latest round boundary; boundaries without one -/
  hbSeen : Bool
  hbMissed : Nat
  /-- the neighbour is lost -/
  lost : Bool
  /-- downstream: t1, t2 and t3 of the latest exchange; upstream: t4 of the latest reply -/
  exchange : Option (Nat × Nat × Nat)
  t4 : Option Nat
  chans : List (Nat × FlkChan)
  /-- the latest remote transaction that failed at its target: words of Kiosk selector 0x20 -/
  failed : List Nat
deriving DecidableEq, Repr

/-- A port after reset. -/
def flkReset : Flk :=
  { running := false, hbSeq := 0, hbLast := none, hbState := 0, hbEpoch := 0, hbSeen := false, hbMissed := 0, lost := false, exchange := none, t4 := none,
    chans := [], failed := [0, 0, 0, 0] }

/-- Border columns received so far for Orangery context A: FRAME_COUNT, whether the right edge, two samples a row, and whether no further row will come (R328). -/
structure Border where
  count : Nat
  right : Bool
  rows : List (List Int)
  ended : Bool
deriving DecidableEq, Repr

/-- The links and the hierarchy. -/
structure Links where
  ports : List (Nat × Flk)
  borders : List Border
  /-- the outermost columns of the rows that each RCN context has conditioned of its latest frame: FRAME_COUNT, and by row two left and two right samples -/
  edges : List (Nat × (Nat × List (List Int × List Int)))
  /-- FLK_MGR_ALIVE was high in a round since release from reset -/
  sawAlive : Bool
  /-- attempts for a bad cascade message -/
  retries : Nat
  /-- entry to ISOLATED and ACCEPT in short time, and the epoch held (R336) -/
  isoEntry : Nat
  isoAccept : Nat
  isoEpoch : Nat
deriving DecidableEq, Repr

/-- The whole machine. -/
structure State where
  /-- every register that stores a word (R35, R37) -/
  regs : RegFile
  /-- the last written values of SH fields (R42) -/
  shadow : RegFile
  /-- the registers a block read at its latest frame start (R46), by block context -/
  latches : List (Nat × RegFile)
  time : PtpTime
  /-- nanoseconds of power since the block was first powered, which no step of the clock moves -/
  elapsed : Nat
  /-- update groups whose apply point has been reached (R43) -/
  due : List Nat
  /-- for armed frame-start groups: nothing more is held; for armed SCHEDULED groups placed later than the present (R44) -/
  scheduled : List Nat
  kiosk : List (Nat × KioskEntry)
  /-- the Gatehouse tables, by target × 32 + word (R53) -/
  gth : List (Nat × Word)
  /-- the queue-pair binding table (R53) -/
  qpb : List (Nat × Nat)
  held : List Held
  reports : List Report
  /-- collector records by slot -/
  records : List (Nat × Record)
  /-- causes counted in FC_OVERFLOW while the table is full -/
  lost : List Nat
  /-- pages whose interrupt condition is 1 (R59) -/
  irq : List Nat
  stopped : List ClockDomain
  /-- what stalls at the edge of a stopped domain (R18), oldest first -/
  stalled : List Instr
  dram : List Host.Cell
  trl : Trl
  mem : Mem
  dov : Dov
  pwm : List (Nat × PwmChan)
  /-- RESYNC waits for the next round boundary (R314) -/
  iceResync : Bool
  pwr : Pwr
  sfe : List (Nat × SfeGroup)
  streams : List (Nat × SfeStream)
  /-- rows and frame boundaries waiting at raw conditioning, by stream -/
  rawIn : List (Nat × List RawItem)
  spi : List (Nat × SerialMaster)
  i2c : List (Nat × SerialMaster)
  sns : SnsPins
  /-- when training of a lane group was last started, in `elapsed` (R84) -/
  trainFrom : List (Nat × Nat)
  /-- the timecode label as frame records carry it (R260) -/
  timecode : Nat
  isoStreams : List (Nat × IsoStream)
  rcn : List (Nat × RcnCtx)
  integ : Integrator
  /-- region totals of the latest frame end, by 4 × region + phase -/
  stats : List (Nat × StatSet)
  /-- FRAME_COUNT and TAGS of each region's latest frame -/
  statFrame : List (Nat × (Nat × Nat))
  /-- conditioned rows waiting at Ebosh Raw, by context, and at Orangery context A -/
  ebeIn : List (Nat × List LineItem)
  orgIn : List LineItem
  /-- decoded frames on their way to Orangery context B -/
  orgInB : List LineItem
  ebe : List (Nat × EbeCtx)
  ebd : Option EbdJob
  bth : Bth
  ofc : Ofc
  org : List (Nat × OrgCtx)
  orgStats : List (Nat × ColourStat)
  /-- FRAME_COUNT of the frame of each region's latest colour statistics -/
  orgStatCount : List (Nat × Nat)
  /-- ORL table memory, by (2 × ID + COPY) × 2^19 + word -/
  tables : List (Nat × Word)
  load : Option TableLoad
  views : List (Nat × View)
  parterre : Parterre
  /-- the newest complete buffer of each buffer source: 0x10 to 0x31 as SRC of R157, and 0x100 + v for view v -/
  newest : List (Nat × BufFrame)
  bufHolds : List BufHold
  glass : Glass
  sdi : List (Nat × Sdi)
  blv : List (Nat × Blv)
  sun : Sun
  net : Net
  bnd : Bandstand
  arb : Option ArbJob
  links : Links
  /-- what the block has sent out, oldest first. DESIGN CHOICE (assumption 2) -/
  outbox : List Output
  /-- MODEL FIELD: how many free values have been drawn. DESIGN CHOICE (assumption 8) -/
  freeCount : Nat
  pending : List Instr
deriving DecidableEq, Repr

/-- The machine at time 0 of R339: VAON is up, the always-on reset is released, everything else is in reset with every register at its reset value.
DEDUCED (assumption 9); DESIGN CHOICE where the spec states no value (assumption 10). -/
def State.reset : State where
  regs := []
  shadow := []
  latches := []
  time := { sec := 0, ns := 0, frac := 0 }
  elapsed := 0
  due := []
  scheduled := []
  kiosk := []
  gth := []
  qpb := []
  held := []
  reports := []
  records := []
  lost := []
  irq := []
  stopped := []
  stalled := []
  dram := []
  trl := { flows := [], selLodge := 0, selShared := 0, opPower := 3, rpGen := [], epGen := 0, beOps := [], slots := [], restarted := [] }
  mem := { chans := [], lanes := [], cfg := 0, waiting := [], trefi := [], selfRefresh := false }
  dov :=
    { busy := [], fixedDue := [], waiting := [], merging := [], sums := [], borrowed := false, borrowedRound := false, calReady := false,
      roundsSince := 0, calOrder := [0, 1, 2, 3], calRef := [], retiring := none, clear := 0, sampled := [], clocks := [] }
  pwm := []
  iceResync := false
  pwr :=
    { stage := .up 2, enIo := true, enCore := false, enHs := false, enVddq := false, tcxoEn := true, fails := 0, internalReset := true, resetN := true,
      perstN := true, epReady := false, casRoot := false, settling := none, restoreWait := false, wdtFrom := 0, boot := .held, bootBuf := [],
      imageLen := 0, imageTaken := false, list := [], firmware := [], entry := 0, generation := 0, image := [], lodgeAt := none, sram := [],
      aonRounds := 0, powerCycles := 0, savedLanes := [], savedCfg := 0, bootReports := [] }
  sfe := []
  streams := []
  rawIn := []
  spi := []
  i2c := []
  sns := { control := false, lanes := [], triggers := [], mclk := [] }
  trainFrom := []
  timecode := 0
  isoStreams := []
  rcn := []
  integ := { armed := none, cfg := [], taken := 0, tiles := [], averaging := none, number := 0, geometry := none, stopping := false, done := [] }
  stats := []
  statFrame := []
  ebeIn := []
  orgIn := []
  orgInB := []
  ebe := []
  ebd := none
  bth := { members := [], table := [], waits := [], chans := [], fetch := none }
  ofc := ofcReset
  org := []
  orgStats := []
  orgStatCount := []
  tables := []
  load := none
  views := []
  parterre := { running := false, n := 0, base := 0, serial := 0 }
  newest := []
  bufHolds := []
  glass := { pool := [], sessions := [] }
  sdi := []
  blv := []
  sun :=
    { step := none, refs := [], iAcc := 0, lockRun := 0, lastE := 0, adjSum := 0, adjRounds := 0, periods := [], lastStep := 0, lastStepAt := 0,
      ptp := { sync := none, down := none, requests := [], delays := [] }, tcSet := none, pair := false, ltcIn := none,
      ltcPoint := none, pulses := [], labels := [], ltcIdle := true, fpIdle := [0, 1] }
  net := { running := [], macs := [], groups := [], ctlRun := false, egress := [], lineBusy := [], ctlOut := none, ctlDelays := [], senders := [], receivers := [] }
  bnd := { ports := [], routes := [], routeShadow := [], sdi := [], before := none }
  arb := none
  links := { ports := [], borders := [], edges := [], sawAlive := false, retries := 0, isoEntry := 0, isoAccept := 0, isoEpoch := 0 }
  outbox := []
  freeCount := 0
  pending := []

end Sys2Proof.Machine
end

