-- ==== Sys2Proof/Machine/Ops.lean ====
section
/-! DEFINITION. The shared operations over the state: registers, counters, time and serial arithmetic, faults and reports, frame starts and latches,
DRAM and the outbox. Each is written once here and used by every command. -/

namespace Sys2Proof.Machine

/-! ### Lists -/

/-- Replace the n-th element. -/
def setAt {α : Type} : List α → Nat → α → List α
  | [], _, _ => []
  | _ :: r, 0, v => v :: r
  | x :: r, n + 1, v => x :: setAt r n v

/-- The n-th element, or a default. -/
def nth {α : Type} (d : α) : List α → Nat → α
  | [], _ => d
  | x :: _, 0 => x
  | _ :: r, n + 1 => nth d r n

/-- A number put into a list that rises strictly. -/
def insertNat (n : Nat) : List Nat → List Nat
  | [] => [n]
  | x :: r => if n < x then n :: x :: r else if n = x then x :: r else x :: insertNat n r

/-- Cut a list into rows of n elements. -/
def chunks {α : Type} (n : Nat) : Nat → List α → List (List α)
  | 0, _ => []
  | k + 1, l => if l.isEmpty then [] else l.take n :: chunks n k (l.drop n)

/-! ### Registers -/

/-- Store a number in a register. -/
def State.setReg (s : State) (a : RegAddr) (n : Nat) : State := { s with regs := s.regs.putN a n }

/-- Store one field of a register. -/
def State.setFld (s : State) (a : RegAddr) (lsb width x : Nat) : State := { s with regs := s.regs.putFld a lsb width x }

/-- The word of a register, as a number. -/
def State.rd (s : State) (a : RegAddr) : Nat := (s.regs.word a).toNat

/-- A word with the bits of a mask replaced by those of another. -/
def mergeBits (old mask new : Nat) : Nat := (old &&& ((2 ^ 32 - 1) ^^^ mask)) ||| (new &&& mask)

/-- A counter one higher, saturating at the greatest value of its width. -/
def satInc (width x : Nat) : Nat := if x + 1 < 2 ^ width then x + 1 else 2 ^ width - 1

/-- A sum that saturates at the greatest value of its width. -/
def satAdd (width x y : Nat) : Nat := if x + y < 2 ^ width then x + y else 2 ^ width - 1

/-- Count one in a saturating 32-bit counter register. -/
def State.bump (s : State) (a : RegAddr) : State := s.setReg a (satInc 32 (s.rd a))

/-- Count `n` in a saturating 32-bit counter register. -/
def State.bumpBy (s : State) (a : RegAddr) (n : Nat) : State := s.setReg a (satAdd 32 (s.rd a) n)

/-- Count one in a saturating field of a register. -/
def State.bumpFld (s : State) (a : RegAddr) (lsb width : Nat) : State :=
  s.setFld a lsb width (satInc width (s.regs.fld a lsb width))

/-- Restart at 0 each register that stands against a set bit of `mask`, bit 0 first (R367). -/
def State.restart (s : State) (mask : Nat) : List (List RegAddr) → State
  | [] => s
  | as :: r => (if bitOf mask 0 then as.foldl (fun t a => t.setReg a 0) s else s).restart (mask / 2) r

/-- The listed value that a field of `n` listed values (0 to n − 1) acts as: itself, or an unknown listed value (R41). -/
def listed (a : RegAddr) (v n : Nat) : Nat := if v < n then v else Config.unlisted a v % n

/-- Keep an integer in [lo, hi] (the pseudocode's sat). -/
def sat (x lo hi : Int) : Int := if x < lo then lo else if hi < x then hi else x

/-- A right shift by k that rounds as R7 says. -/
def rshift (x : Int) (k : Nat) : Int := if k = 0 then x else Int.fdiv (x + (2 ^ (k - 1) : Nat)) (2 ^ k : Nat)

/-- The quotient rounded up. -/
def ceilDiv (a b : Nat) : Nat := (a + b - 1) / b

/-! ### Free values -/

/-- Draw a fresh undefined word. -/
def State.drawWord (s : State) : Word × State := (Config.freeWord s.freeCount, { s with freeCount := s.freeCount + 1 })

/-- Draw a fresh undefined truth value. -/
def State.drawBool (s : State) : Bool × State := (Config.freeBool s.freeCount, { s with freeCount := s.freeCount + 1 })

/-! ### Time (R9, R10, R11, R248) -/

/-- The nanosecond count S × 10^9 + N. -/
def PtpTime.count (t : PtpTime) : Nat := t.sec * 1000000000 + t.ns

/-- Short time: the nanosecond count modulo 2^40 (R248). -/
def State.now (s : State) : Nat := s.time.count % 2 ^ 40

/-- The time `n` nanoseconds later; F is kept. -/
def PtpTime.add (t : PtpTime) (n : Nat) : PtpTime :=
  { t with sec := t.sec + (t.ns + n) / 1000000000, ns := (t.ns + n) % 1000000000 }

/-- The PTP time `n` nanoseconds earlier. -/
def PtpTime.back (t : PtpTime) (n : Nat) : PtpTime :=
  let c := t.count - n
  { t with sec := c / 1000000000, ns := c % 1000000000 }

/-- The four outcomes of a serial comparison of a with b (R9). -/
inductive Serial where
  | equal | later | ambiguous | earlier
deriving DecidableEq, Repr

/-- Compare two n-bit values (R9). -/
def serial (n a b : Nat) : Serial :=
  let d := (a + 2 ^ n - b % 2 ^ n) % 2 ^ n
  if d = 0 then .equal else if d < 2 ^ (n - 1) then .later else if d = 2 ^ (n - 1) then .ambiguous else .earlier

/-- The nanoseconds from `a` forward to `b` in short time. -/
def shortFwd (a b : Nat) : Nat := (b + 2 ^ 40 - a % 2 ^ 40) % 2 ^ 40

/-! ### Output -/

/-- Send something out. -/
def State.emit (s : State) (o : Output) : State := { s with outbox := s.outbox ++ [o] }

/-! ### Faults (R40, R55, R374) -/

/-- Whether a page holds a fault already. -/
def State.holds (s : State) (h : Held) : Bool := s.held.contains h

/-- Hold a fault as the most recently detected (R374). -/
def State.hold (s : State) (h : Held) : State := { s with held := s.held.filter (fun x => decide (x ≠ h)) ++ [h] }

/-- Send a report to the collector, stamped with short time on arrival (R55). -/
def State.report (s : State) (unit cause code : Nat) : State :=
  { s with reports := s.reports ++ [{ unit := unit, cause := cause, code := code, time := s.now }] }

/-- Detect an event fault: the unit's page holds it and reports it once (R55). -/
def State.event (s : State) (unit cause code : Nat) : State :=
  (s.hold { page := unit / 16, cause := cause, code := code, event := true, unit := unit }).report unit cause code

/-- Detect an event fault whose cause is the unit itself. -/
def State.fault (s : State) (unit code : Nat) : State := s.event unit unit code

/-- The condition of a condition fault holds: it is reported where it begins, and nothing changes where the page holds it already (R55). -/
def State.condOn (s : State) (unit cause code : Nat) : State :=
  if s.holds { page := unit / 16, cause := cause, code := code, event := false, unit := unit } then s
  else (s.hold { page := unit / 16, cause := cause, code := code, event := false, unit := unit }).report unit cause code

/-- The condition of a condition fault has ended. -/
def State.condOff (s : State) (unit cause code : Nat) : State :=
  { s with held := s.held.filter (fun x => decide (x ≠ { page := unit / 16, cause := cause, code := code, event := false, unit := unit })) }

/-- The condition of a condition fault, as it stands. -/
def State.cond (s : State) (b : Bool) (unit cause code : Nat) : State := if b then s.condOn unit cause code else s.condOff unit cause code

/-- The fault that PG_FAULT shows: the most recently detected one the page holds (R374). -/
def State.pageFault (s : State) (page : Nat) : Option Held := (s.held.filter (fun h => h.page == page)).getLast?

/-! ### Frame starts, latches and holds (R37, R43, R46) -/

/-- The register file that a block context read at its latest frame start (R46). -/
def State.latched (s : State) (ctx : Nat) : RegFile := SMap.get (fun _ => []) s.latches ctx

/-- A block context reads its page's active registers at its frame start (R46). -/
def State.latch (s : State) (ctx page : Nat) : State := { s with latches := SMap.set (fun _ => []) s.latches ctx (s.regs.page page) }

/-- The sources of OUT_FRAME_START that R42's table lists. -/
def outSources : List Nat := [0, 1, 2, 3, 0x10, 0x11] ++ (List.range 16).map (· + 0x20)

/-- A group's MODE; an unlisted value acts as an unknown listed one (R41). -/
def State.updMode (s : State) (g : Nat) : Nat := listed (Adr.GLB.UPD_MODE g) (Fld.GLB.UPD_MODE_MODE s.regs g) 5

/-- A group's INDEX; an unlisted value acts as an unknown listed one (R41). -/
def State.updIndex (s : State) (g : Nat) : Nat :=
  let v := Fld.GLB.UPD_MODE_INDEX s.regs g
  match s.updMode g with
  | 1 => listed (Adr.GLB.UPD_MODE g) v 4
  | 2 => listed (Adr.GLB.UPD_MODE g) v 8
  | 3 => if outSources.contains v then v else nth 0 outSources (Config.unlisted (Adr.GLB.UPD_MODE g) v % 22)
  | _ => v

/-- The groups armed on a frame-start source. -/
def State.armedOn (s : State) (mode index : Nat) : List Nat :=
  (List.range 16).filter (fun g =>
    bitOf (s.rd Adr.GLB.UPD_PEND) g && s.updMode g == mode && s.updIndex g == index)

/-- A frame start of a source: its armed groups reach their apply point (R43). -/
def State.frameStart (s : State) (mode index : Nat) : State :=
  { s with due := s.due ++ (s.armedOn mode index).filter (fun g => !s.due.contains g) }

/-- Whether the page's block is enabled, as applied. -/
def State.enabled (s : State) (page : Nat) : Bool := Fld.HDR.ENABLE s.regs page == 1

/-- Whether HOLD stops the page's block (R37). -/
def State.holding (s : State) (page : Nat) : Bool := Fld.HDR.HOLD s.regs page == 1

/-- Whether the device is ISOLATED or REJOINING (R334). -/
def State.isolated (s : State) : Bool := Fld.HIE.HIE_STAT_STATE s.regs == 4 || Fld.HIE.HIE_STAT_STATE s.regs == 5

/-! ### DRAM (R286, R295, R369) -/

/-- The clock of a memory channel group has stopped: what goes to DRAM stalls (R18). -/
def State.dramStopped (s : State) : Bool := ([0, 1, 2, 3] : List (Fin 4)).any (fun g => s.stopped.contains (.memGroup g))

/-- What a byte of DRAM that nothing has written reads as: 0 (DESIGN CHOICE, notes/assumptions/3.md). -/
def dramDefault (_ : Nat) : Byte := 0

/-- DRAM is in its one canonical form: addresses rise strictly, and no byte is listed that holds what an unlisted one reads as. -/
abbrev Memory.wf (m : List Host.Cell) : Bool := SMap.wf dramDefault m

/-- A little-endian number. -/
def leNat : List Byte → Nat
  | [] => 0
  | b :: r => b.toNat + 256 * leNat r

/-- The little-endian bytes of a number. -/
def leBytes : Nat → Nat → List Byte
  | 0, _ => []
  | k + 1, n => BitVec.ofNat 8 n :: leBytes k (n / 256)

/-- A big-endian number. -/
def beNat (bs : List Byte) : Nat := bs.foldl (fun a b => a * 256 + b.toNat) 0

/-- The big-endian bytes of a number. -/
def beBytes (k n : Nat) : List Byte := (leBytes k n).reverse

/-- The channel a DRAM address falls in, and its 256-byte block within it (R286). -/
def dramMap (grpIl : Bool) (capacityMiB addr : Nat) : Nat × Nat :=
  if grpIl then
    let b := addr / 256
    ((b % 16) ^^^ (b / 256 % 16), addr / 4096)
  else
    let q := capacityMiB * 2 ^ 20 / 4
    let g := if q = 0 then 0 else addr / q
    (4 * g + addr / 256 % 4, (addr - g * q) / 1024)

/-- The device channel of an address, under ADDR_MAP and CAPACITY as they stand. -/
def State.channelOf (s : State) (addr : Nat) : Nat × Nat :=
  dramMap (Fld.MCT.ADDR_MAP_GRP_IL s.regs == 1) (s.rd Adr.MCT.CAPACITY) addr

/-- The place of an address under GRP_IL = 0, named by the address that reaches the same byte of the devices under GRP_IL = 1 (R286). An address at or above
CAPACITY reaches none (R369), and stays. -/
def quarterPlace (capacityMiB addr : Nat) : Nat :=
  if capacityMiB * 2 ^ 20 ≤ addr then addr else
  let (ch, j) := dramMap false capacityMiB addr
  4096 * j + 256 * (ch ^^^ (j / 16 % 16)) + addr % 256

/-- The place that an address reaches in the devices, under ADDR_MAP and CAPACITY as they stand: memory is listed by place, so that a write of GRP_IL moves every
address to another one (R286). -/
def State.place (s : State) (addr : Nat) : Nat :=
  if Fld.MCT.ADDR_MAP_GRP_IL s.regs = 1 then addr else quarterPlace (s.rd Adr.MCT.CAPACITY) addr

/-- The bytes at an address. -/
def State.dramRead (s : State) (addr n : Nat) : List Byte :=
  if Fld.MCT.ADDR_MAP_GRP_IL s.regs = 1 then SMap.getList dramDefault s.dram addr n
  else (List.range n).map (fun k => SMap.get dramDefault s.dram (s.place (addr + k)))

/-- The memory after bytes are stored at an address. -/
def State.stored (s : State) (addr : Nat) (bs : List Byte) : List Host.Cell :=
  if Fld.MCT.ADDR_MAP_GRP_IL s.regs = 1 then SMap.setList dramDefault s.dram addr bs
  else bs.zipIdx.foldl (fun m e => SMap.set dramDefault m (s.place (addr + e.2)) e.1) s.dram

/-- Store bytes at an address. -/
def State.dramWrite (s : State) (addr : Nat) (bs : List Byte) : State := { s with dram := s.stored addr bs }

/-- A little-endian number in DRAM. -/
def State.dramNat (s : State) (addr n : Nat) : Nat := leNat (s.dramRead addr n)

/-- The unit ID of a device channel (R286). -/
def channelUnit (ch : Nat) : Nat := 0x440 + 0x10 * (ch / 4) + ch % 4 + 1

/-- The lowest failed byte lane of LANE_FAIL. -/
def lowestLane (mask : Nat) : Option Nat := (List.range 32).find? (fun n => bitOf mask n)

/-- The error response that a DRAM address gives whatever the devices hold: 0x481 or the lowest failed channel before TRAIN is DONE (R295), 0x480 at or
above CAPACITY (R369). -/
def State.dramError (s : State) (addr : Nat) : Option Nat :=
  if Fld.MCT.TRAIN_STAT_STATE s.regs ≠ 2 then
    some (if Fld.MCT.TRAIN_STAT_STATE s.regs = 3 then
      match lowestLane (s.rd Adr.MCT.LANE_FAIL) with
      | some n => channelUnit (n / 2)
      | none => 0x481
    else 0x481)
  else if addr ≥ s.rd Adr.MCT.CAPACITY * 2 ^ 20 then some 0x480
  else none

/-- The outcome of a block's own DRAM access: the error of the address, else the outcome that came with the command. -/
def State.busError (s : State) (addr : Nat) (given : BusResult) : BusResult := (s.dramError addr).or given

/-- The error response of an access to `n` bytes, at either end. -/
def State.spanError (s : State) (addr n : Nat) : Option Nat := (s.dramError addr).or (s.dramError (addr + (n - 1)))

/-- The error response of the first bad beat among `n` bytes. -/
def badIn (bad : BadBeats) (addr n : Nat) : Option Nat :=
  (bad.find? (fun e => decide (addr / 32 ≤ e.1) && decide (e.1 * 32 < addr + n))).map (·.2)

/-- Every error response among the bad beats of `n` bytes. -/
def badsIn (bad : BadBeats) (addr n : Nat) : List Nat :=
  (bad.filter (fun e => decide (addr / 32 ≤ e.1) && decide (e.1 * 32 < addr + n))).map (·.2)

/-- The first of each error response in a list. -/
def distinct : List Nat → List Nat
  | [] => []
  | x :: r => x :: (distinct r).filter (fun y => y != x)

/-- How many of `n` bytes at an address the devices serve: none before TRAIN is DONE (R295), then those below CAPACITY (R369). -/
def State.served (s : State) (addr n : Nat) : Nat :=
  if Fld.MCT.TRAIN_STAT_STATE s.regs = 2 then min n (s.rd Adr.MCT.CAPACITY * 2 ^ 20 - addr) else 0

/-- A block's own read: zero data for each beat that ends in an error response (R22). -/
def State.loadBytes (s : State) (addr n : Nat) : List Byte := s.dramRead addr (s.served addr n) ++ List.replicate (n - s.served addr n) 0

/-- A block's own write: each beat that ends in an error response is dropped. -/
def State.store (s : State) (addr : Nat) (bs : List Byte) : State := s.dramWrite addr (bs.take (s.served addr bs.length))

/-- MCT reports an access of a block that reaches 0x480's addresses (R369). -/
def State.outOfRange (s : State) (addr n : Nat) : State := if s.spanError addr n = some 0x480 then s.fault 0x480 0x22 else s

/-- A block's own write whose error response only MCT reports. -/
def State.storeSeen (s : State) (addr : Nat) (bs : List Byte) : State := (s.outOfRange addr bs.length).store addr bs

/-- A device channel. -/
def State.chan (s : State) (ch : Nat) : McChan := SMap.get (fun _ => mcChanReset) s.mem.chans ch

/-- The channel that a unit ID names. -/
def channelOfUnit (unit : Nat) : Option Nat := (List.range 16).find? (fun ch => channelUnit ch == unit)

/-- The address of the beat `b` of block j of a channel (R286). -/
def State.chanAddr (s : State) (ch j b : Nat) : Nat :=
  if Fld.MCT.ADDR_MAP_GRP_IL s.regs = 1 then 4096 * j + 256 * (ch ^^^ (j / 16 % 16)) + 32 * b
  else ch / 4 * (s.rd Adr.MCT.CAPACITY * 2 ^ 20 / 4) + 1024 * j + 256 * (ch % 4) + 32 * b

/-- The master ID of a block of the device by a unit of it, where one unit has several the first (R50). -/
def blockMaster (unit : Nat) : Nat :=
  let page := unit / 16
  if page = 0x4C then 2 else if page = 0x12 ∨ page = 0x13 then 4 else if page = 0x14 then 5 else if page = 0x15 then 6
  else if page = 0x18 ∨ page = 0x19 then 7 else if 0x20 ≤ page ∧ page < 0x28 then 8 + (page - 0x20)
  else if 0x38 ≤ page ∧ page < 0x3C then 0x10 + (page - 0x38) else if page = 0x3C ∨ page = 0x3D then 0x14 + (page - 0x3C)
  else if page = 0x0C ∨ page = 0x0D then 0x16 + (page - 0x0C) else if 0x28 ≤ page ∧ page < 0x2B then 0x18
  else if page = 0x30 ∨ page = 0x31 then 0x1E else if page = 0x34 then 0x1F
  else if page = 0x40 then 0x20 else if page = 0x0A ∨ page = 0x0B then 0x21 + (page - 0x0A) else 0

/-- A channel met an uncorrectable error: it counts it, reports it, and records the address and master of the read in its Kiosk (R293). -/
def State.uncorrectable (s : State) (ch addr master : Nat) : State :=
  let c := s.chan ch
  let s := (s.bump (Adr.MC.UE (ch / 4) (ch % 4))).fault (channelUnit ch) 0x03
  { s with mem := { s.mem with chans := SMap.set (fun _ => mcChanReset) s.mem.chans ch { c with ue := { addr := addr, master := master, time := s.now } } } }

/-- What the memory controller does where an access of a block ended in an error response: MCT reports one at or above CAPACITY (R369); a channel counts, reports and
records an uncorrectable error (R293). Which beat of the access met it does not come with the command: the address is a free one of that channel (DESIGN CHOICE,
assumption 161). -/
def State.memoryError (s : State) (unit cause : Nat) : State :=
  if cause = 0x480 then s.fault 0x480 0x22
  else if Fld.MCT.TRAIN_STAT_STATE s.regs = 2 then
    match channelOfUnit cause with
    | some ch =>
      let (w, s) := s.drawWord
      s.uncorrectable ch (s.chanAddr ch (w.toNat / 8 % max 1 (s.rd Adr.MCT.CAPACITY * 256)) (w.toNat % 8)) (blockMaster unit)
    | none => s
  else s

/-- An event fault UPSTREAM with the cause's unit ID (R32, R39), once the memory controller has reported what it met. -/
def State.upstream (s : State) (unit cause : Nat) : State := (s.memoryError unit cause).event unit cause 0x01

/-! ### Byte images -/

/-- One bit of the CRC-32 of RFC 1952. -/
def crcBit (c : Nat) : Nat := if c % 2 = 1 then (c / 2) ^^^ 0xEDB88320 else c / 2

/-- One byte of the CRC-32. -/
def crcByte (c : Nat) (b : Byte) : Nat :=
  crcBit (crcBit (crcBit (crcBit (crcBit (crcBit (crcBit (crcBit (c ^^^ b.toNat))))))))

/-- The CRC-32 of RFC 1952. -/
def crc32 (bs : List Byte) : Nat := bs.foldl crcByte 0xFFFFFFFF ^^^ 0xFFFFFFFF

/-- Write bytes over an image at an offset. -/
def overlay (b : List Byte) (o : Nat) (v : List Byte) : List Byte := b.take o ++ v ++ b.drop (o + v.length)

/-- Write little-endian fields, given as (offset, bytes, value), over an image. -/
def overlays (b : List Byte) (fs : List (Nat × Nat × Nat)) : List Byte := fs.foldl (fun a f => overlay a f.1 (leBytes f.2.1 f.2.2)) b

/-- A little-endian field of an image. -/
def fieldOf (b : List Byte) (o n : Nat) : Nat := leNat ((b.drop o).take n)

/-- A value of a numeric field with a stated range: itself, or an unknown value of the range (R41). -/
def inRange (a : RegAddr) (v lo hi : Nat) : Nat := if lo ≤ v ∧ v ≤ hi then v else lo + Config.unlisted a v % (hi - lo + 1)

/-- A ring of `n` 4 KiB units from unit `base`: the DRAM address of byte `o` of what starts at ring unit `u` (R132). -/
def ringAddr (base n u o : Nat) : Nat := base * 4096 + if n = 0 then u * 4096 + o else (u * 4096 + o) % (n * 4096)

end Sys2Proof.Machine
end

