-- ==== Sys2Proof/Machine/Control.lean ====
section
/-! DEFINITION. Update-group arming, the Gatehouse and the fault collector (02_control_model.md, R41 to R45, R50 to R58). -/

namespace Sys2Proof.Machine

/-! ### Update groups (R41 to R45) -/

/-- A group's scheduled short time. -/
def State.updTime (s : State) (g : Nat) : Nat := Fld.GLB.UPD_TIME_LO s.regs g + 2 ^ 32 * Fld.GLB.UPD_TIME_HI s.regs g

/-- Whether a group is armed and not yet applied. -/
def State.groupPending (s : State) (g : Nat) : Bool := bitOf (s.rd Adr.GLB.UPD_PEND) g

/-- Arming sets UPD_PEND and clears UPD_LATE of a group. -/
def State.markArmed (s : State) (g : Nat) : State := (s.setFld Adr.GLB.UPD_PEND g 1 1).setFld Adr.GLB.UPD_LATE g 1 0

/-- A group's apply point has been reached. -/
def State.makeDue (s : State) (g : Nat) : State := { s with due := s.due ++ [g] }

/-- A group waits for short time to reach its time. -/
def State.makeScheduled (s : State) (g : Nat) : State := { s with scheduled := s.scheduled ++ [g] }

/-- A SCHEDULED group meets its apply point, or waits for it (R44). -/
def State.placeScheduled (s : State) (g : Nat) (c : Serial) : State :=
  match c with
  | .equal => s.makeDue g
  | .earlier => (s.setFld Adr.GLB.UPD_LATE g 1 1).makeDue g
  | .later => s.makeScheduled g
  | .ambiguous => if s.drawBool.1 then s.drawBool.2.makeDue g else s.drawBool.2.makeScheduled g

/-- Arm one group (R43 to R45); arming a pending group has no effect. -/
def State.armGroup (s : State) (g : Nat) : State :=
  if s.groupPending g then s
  else if s.updMode g = 0 then (s.markArmed g).makeDue g
  else if s.updMode g = 4 then (s.markArmed g).placeScheduled g (serial 40 (s.updTime g) s.now)
  else s.markArmed g

/-- UPD_ARM: a 1 in bit g arms group g (R43). -/
def updArm (mask : Nat) (s : State) : State :=
  (List.range 16).foldl (fun s g => if bitOf mask g then s.armGroup g else s) s

/-- UPD_CANCEL: a 1 in bit g disarms group g; its shadow values stay written (R42). -/
def updCancel (mask : Nat) (s : State) : State :=
  let m := (List.range 16).filter (fun g => bitOf mask g)
  { m.foldl (fun s g => s.setFld Adr.GLB.UPD_PEND g 1 0) s with
    due := s.due.filter (fun g => !m.contains g)
    scheduled := s.scheduled.filter (fun g => !m.contains g) }

/-- A write of a group's UPD_MODE, UPD_TIME_LO or UPD_TIME_HI, ignored while the group is pending (R45). -/
def updConfigWrite (g : Nat) (r : UpdReg) (value : Word) (s : State) : State :=
  if s.groupPending g then s else
  match r with
  | .mode => s.setReg (Adr.GLB.UPD_MODE g) (value.toNat % 2 ^ 16 - bits value.toNat 3 5 * 8)
  | .timeLo => s.setReg (Adr.GLB.UPD_TIME_LO g) value.toNat
  | .timeHi => s.setReg (Adr.GLB.UPD_TIME_HI g) (value.toNat % 2 ^ 8)

/-- Whether a page's update group is armed and not yet applied (PG_STAT.PENDING). -/
def State.pagePending (s : State) (page : Nat) : Bool := s.groupPending (Fld.HDR.UPD_GROUP s.regs page)

/-- A write of PG_CTL.UPD_GROUP, ignored while the page is PENDING (R38). -/
def updGroupBind (page g : Nat) (s : State) : State :=
  if !implemented page || s.pagePending page then s else s.setFld (Adr.HDR.PG_CTL page) 4 4 g

/-- Whether `x` lies strictly after `a` and before `b` going forward from `a` in short time, no further than 2^39 − 1 ns (R11). -/
def passedOver (a b x : Nat) : Bool :=
  decide (serial 40 x a = .later) && decide (serial 40 x b = .earlier)

/-- Insert a group in order of its time after `old`. -/
def State.insertByTime (s : State) (old g : Nat) : List Nat → List Nat
  | [] => [g]
  | h :: r => if shortFwd old (s.updTime g) < shortFwd old (s.updTime h) then g :: h :: r else h :: s.insertByTime old g r

/-- Scheduled groups whose time has come since `old`, in order of their times: those passed over, then those reached exactly. A step makes the groups that it
passes over late (R251), and passes over none where it is not `forward`; time that runs on reaches each of them in its own beat (R44). -/
def State.fireScheduled (s : State) (old : Nat) (step forward : Bool) : State :=
  let passed := (s.scheduled.filter (fun g => forward && passedOver old s.now (s.updTime g))).foldl (fun l g => s.insertByTime old g l) []
  let reached := s.scheduled.filter (fun g => s.updTime g == s.now)
  let s := if step then passed.foldl (fun s g => s.setFld Adr.GLB.UPD_LATE g 1 1) s else s
  { s with
    due := s.due ++ passed ++ reached
    scheduled := s.scheduled.filter (fun g => !passed.contains g && !reached.contains g) }

/-! ### Gatehouse (R50 to R53) -/

/-- The table word of a target and word number at reset: master 0x080 has READ_WRITE on every page, 0x082 on every namespace, everything else NONE (R53). -/
def gthReset (k : Nat) : Word :=
  if k % 32 = 8 then (if k / 32 < 0x100 then 0x3 else if 0x110 ≤ k / 32 ∧ k / 32 < 0x120 then 0x30 else 0) else 0

/-- The master bound to a queue pair at reset (R53). -/
def qpbReset (_ : Nat) : Nat := 0x82

/-- The two-bit entry of a master in the table of a target (TBL_DATA). -/
def State.gthEntry (s : State) (target master : Nat) : Nat :=
  bits (SMap.get gthReset s.gth (target * 32 + master / 16)).toNat (2 * (master % 16)) 2

/-- Whether the table of a target grants a master a direction; masters 0x000 to 0x03F are not checked (R51). -/
def State.grants (s : State) (target master : Nat) (isWrite : Bool) : Bool :=
  decide (master < 0x40) || bitOf (s.gthEntry target master) (if isWrite then 1 else 0)

/-- The master bound to a queue pair. -/
def State.queueMaster (s : State) (q : Nat) : Nat := SMap.get qpbReset s.qpb q

/-- The DRAM windows that cover a 4 KiB unit (R51). -/
def State.windowsOf (s : State) (unit4k : Nat) : List Nat :=
  (List.range 16).filter (fun n => decide (Fld.GTH.WIN_BASE s.regs n ≤ unit4k) && decide (unit4k ≤ Fld.GTH.WIN_LIMIT s.regs n))

/-- Whether a DRAM unit grants a master a direction: any covering window does (R51). -/
def State.grantsDram (s : State) (unit4k master : Nat) (isWrite : Bool) : Bool :=
  decide (master < 0x40) || (s.windowsOf unit4k).any (fun n => s.grants (0x100 + n) master isWrite)

/-- Record a refusal and report the event fault GATE of the sub-unit for the target type (R52). -/
def State.refuse (s : State) (sub master target : Nat) (isWrite : Bool) : State :=
  ((s.setReg Adr.GTH.REF_INFO (master % 512 + target % 512 * 2 ^ 16 + b2n isWrite * 2 ^ 31)).bump Adr.GTH.REF_COUNT).fault sub 0x02

/-- The REF_INFO target of a refused DRAM access: the lowest covering window, or 0x1FF. -/
def State.refusedWindow (s : State) (unit4k : Nat) : Nat :=
  match s.windowsOf unit4k with
  | n :: _ => 0x100 + n
  | [] => 0x1FF

/-- LOCK, as it stands. -/
def State.locked (s : State) : Bool := Fld.GTH.LOCK s.regs == 1

/-- A write of GTH.LOCK: once 1, it stays 1 until reset (R52's register table). -/
def gthLock (value : Nat) (s : State) : State := if bitOf value 0 then s.setReg Adr.GTH.LOCK 1 else s

/-- A write of REF_RESTART restarts REF_COUNT (R52). -/
def refRestart (s : State) : State := s.setReg Adr.GTH.REF_COUNT 0

/-- TBL_DATA reads the selected table word; targets 0x130 to 0x1FF name no table. -/
def State.tblData (s : State) : Nat :=
  let t := Fld.GTH.TBL_SEL_TARGET s.regs
  if t < 0x130 then (SMap.get gthReset s.gth (t * 32 + Fld.GTH.TBL_SEL_WORD s.regs)).toNat else 0

/-- A write of GTH.TBL_DATA, ignored under LOCK and where the target names no table. -/
def gthTblWrite (value : Nat) (s : State) : State :=
  let t := Fld.GTH.TBL_SEL_TARGET s.regs
  if s.locked || decide (0x130 ≤ t) then s
  else { s with gth := SMap.set gthReset s.gth (t * 32 + Fld.GTH.TBL_SEL_WORD s.regs) (BitVec.ofNat 32 value) }

/-- QPB_DATA reads the binding of the selected queue pair; 0 where QPB_SEL names none. -/
def State.qpbData (s : State) : Nat :=
  let q := Fld.GTH.QPB_SEL s.regs
  if 1 ≤ q ∧ q ≤ 512 then s.queueMaster q else 0

/-- A write of QPB_DATA, ignored under LOCK and where QPB_SEL names no queue pair. -/
def qpbWrite (value : Nat) (s : State) : State :=
  let q := Fld.GTH.QPB_SEL s.regs
  if s.locked || decide (q = 0) || decide (512 < q) then s else { s with qpb := SMap.set qpbReset s.qpb q (value % 512) }

/-! ### Fault collector (R55 to R58) -/

/-- FC_STAT.USED and FULL as the records stand. -/
def State.syncCollector (s : State) : State :=
  (s.setFld Adr.LDG.FC_STAT 0 9 s.records.length).setFld Adr.LDG.FC_STAT 16 1 (b2n (decide (256 ≤ s.records.length)))

/-- The lowest free slot. -/
def freeSlot (used : List (Nat × Record)) : Option Nat := (List.range 256).find? (fun n => !used.any (fun e => e.1 == n))

/-- The collector tells of a new record with LDG's MSI-X message, unless its mask bit is set or the page sends none (R59). -/
def State.alertCollector (s : State) : State :=
  if Fld.HDR.TARGET s.regs 0x01 = 1 ∧ bitOf (s.rd (Adr.HDR.PG_IRQ_MASK 0x01)) 8 = false then s.emit (.msix (Fld.HDR.VECTOR s.regs 0x01)) else s

/-- The record that a cause's first report opens (R56). -/
def Report.opens (r : Report) : Record :=
  { cause := r.cause, cls := if r.unit = r.cause then r.code else 0x01, firstTime := r.time, lastTime := r.time, firstReporter := r.unit,
    lastReporter := r.unit, count := 1, fresh := true }

/-- A record after another report of its cause (R56). -/
def Record.again (rec : Record) (r : Report) : Record :=
  { rec with lastReporter := r.unit, lastTime := r.time, count := satInc 16 rec.count, cls := if rec.cls = 0x01 ∧ r.unit = r.cause then r.code else rec.cls }

/-- A record takes a slot, and FC_STAT shows it. -/
def State.fillSlot (s : State) (n : Nat) (rec : Record) : State :=
  (({ s with records := SMap.put s.records n rec } : State).setFld Adr.LDG.FC_STAT 24 8 n).syncCollector

/-- The collector takes one report (R56). While every slot is taken, FC_OVERFLOW counts the distinct causes whose reports are lost. -/
def State.collect (s : State) (r : Report) : State :=
  match s.records.find? (fun e => e.2.cause == r.cause) with
  | some (n, rec) => { s with records := SMap.put s.records n (rec.again r) }
  | none =>
    match freeSlot s.records with
    | none => if s.lost.contains r.cause then s else ({ s with lost := s.lost ++ [r.cause] } : State).bump Adr.LDG.FC_OVERFLOW
    | some n => (s.fillSlot n r.opens).alertCollector

/-- FAULT_REPORT: the collector takes the oldest report (R55, R56); with none waiting, nothing happens. -/
def faultReport (s : State) : State :=
  match s.reports with
  | [] => s
  | r :: rest => ({ s with reports := rest } : State).collect r

/-- RETIRE frees the slot in FC_SLOT and clears every event fault with its cause ID that any page holds (R57). -/
def retire (s : State) : State :=
  match s.records.find? (fun e => e.1 == Fld.LDG.FC_SLOT s.regs) with
  | none => s
  | some (n, rec) =>
    { s with records := SMap.del s.records n
             lost := []
             held := s.held.filter (fun h => !(h.event && h.cause == rec.cause)) : State }.syncCollector

/-- RETIRE_ALL frees every record and clears every event fault (R57). -/
def retireAll (s : State) : State := { s with records := [], lost := [], held := s.held.filter (fun h => !h.event) : State }.syncCollector

/-- RESTART_OVERFLOW restarts FC_OVERFLOW. -/
def restartOverflow (s : State) : State := ({ s with lost := [] } : State).setReg Adr.LDG.FC_OVERFLOW 0

/-- A condition fault that persists is reported once in each round: each that a page holds now and held before the round's own checks, whose new faults
have just reported themselves (R55). -/
def State.rereport (s : State) (before : List Held) : State :=
  (s.held.filter (fun h => !h.event && before.contains h)).foldl (fun s h => s.report h.unit h.cause h.code) s

end Sys2Proof.Machine
end

