-- ==== Sys2Proof/Machine/Inflate.lean ====
section
/-! DEFINITION. RFC 1951 decompression with the wrappers of RFC 1950 and RFC 1952, and the checks of R303 in stream order (16_arbour.md, R302, R303).
Every loop recurs on fuel that the input bounds: each turn consumes at least one bit. -/

namespace Sys2Proof.Machine

/-- The input: the bits still to be read, least significant bit of each byte first, and how many have been read. -/
structure BitIn where
  bits : List Bool
  pos : Nat
deriving DecidableEq, Repr

/-- A failed check: RESULT and the bit position of the failing item. -/
structure InfErr where
  result : Nat
  pos : Nat
deriving DecidableEq, Repr

/-- The bits of bytes in reading order. -/
def lsbBits (bs : List Byte) : List Bool := bs.flatMap (fun b => (List.range 8).map (fun i => bitOf b.toNat i))

/-- A little-endian number of bits. -/
def bitsNat : List Bool → Nat
  | [] => 0
  | b :: r => b2n b + 2 * bitsNat r

/-- Read `n` bits as a number, the first as the least significant; an item that begins at bit `item` is cut off where too few remain. -/
def BitIn.take (x : BitIn) (n item : Nat) : Except InfErr (Nat × BitIn) :=
  if x.bits.length < n then .error { result := 0x05, pos := item }
  else .ok (bitsNat (x.bits.take n), { bits := x.bits.drop n, pos := x.pos + n })

/-- Skip to the next byte boundary. -/
def BitIn.align (x : BitIn) : BitIn :=
  let n := (8 - x.pos % 8) % 8
  { bits := x.bits.drop n, pos := x.pos + n }

/-! ### Code tables -/

/-- A canonical code: how many codes each length from 1 to 15 has, and the symbols in order of their codes. -/
structure Huff where
  counts : List Nat
  symbols : List Nat
deriving DecidableEq, Repr

/-- The canonical code of a list of code lengths. -/
def huffOf (lengths : List Nat) : Huff :=
  { counts := (List.range 15).map (fun i => (lengths.filter (· == i + 1)).length)
    symbols := (List.range 15).flatMap (fun i => (lengths.zipIdx.filter (fun e => e.1 == i + 1)).map (·.2)) }

/-- The codes left over after each length; none where the code is over-subscribed. -/
def huffLeft : Nat → List Nat → Option Nat
  | left, [] => some left
  | left, c :: r => if 2 * left < c then none else huffLeft (2 * left - c) r

/-- Whether a table is complete. -/
def Huff.complete (h : Huff) : Bool := huffLeft 1 h.counts == some 0

/-- Whether a distance table may stand: complete, or exactly one code, be it of zero bits. -/
def distanceOk (lengths : List Nat) : Bool :=
  (huffOf lengths).complete || (huffOf lengths).symbols.length == 1 || lengths == [0]

/-- How many of the values left at a length the codes of the greater lengths begin with, from how many codes each of these has. -/
def huffNeed : List Nat → Nat
  | [] => 0
  | c :: r => (c + huffNeed r + 1) / 2

/-- Follow a code bit by bit: `code` and `first` are the code so far and the first code of the length reached, `index` the symbols before it. Bits that begin no code of
the table fail at once. -/
def huffWalk (symbols : List Nat) (x : BitIn) (item : Nat) : Nat → Nat → Nat → List Nat → Except InfErr (Nat × BitIn)
  | _, _, _, [] => .error { result := 0x02, pos := item }
  | code, first, index, c :: r =>
    if first + huffNeed (c :: r) ≤ code then .error { result := 0x02, pos := item } else
    match x.bits with
    | [] => .error { result := 0x05, pos := item }
    | b :: rest =>
      let x' : BitIn := { bits := rest, pos := x.pos + 1 }
      let code := 2 * code + b2n b
      let first := 2 * first
      if code < first + c then .ok (nth 0 symbols (index + (code - first)), x') else huffWalk symbols x' item code (first + c) (index + c) r

/-- Read one symbol. -/
def Huff.read (h : Huff) (x : BitIn) : Except InfErr (Nat × BitIn) := huffWalk h.symbols x x.pos 0 0 0 h.counts

/-- The codes of a fixed block. -/
def fixedLit : Huff := huffOf (List.replicate 144 8 ++ List.replicate 112 9 ++ List.replicate 24 7 ++ List.replicate 8 8)
def fixedDist : Huff := huffOf (List.replicate 32 5)

/-- Base and extra bits of length codes 257 to 285, and of distance codes 0 to 29. -/
def lengthTable : List (Nat × Nat) :=
  [(3, 0), (4, 0), (5, 0), (6, 0), (7, 0), (8, 0), (9, 0), (10, 0), (11, 1), (13, 1), (15, 1), (17, 1), (19, 2), (23, 2), (27, 2), (31, 2)] ++
  [(35, 3), (43, 3), (51, 3), (59, 3), (67, 4), (83, 4), (99, 4), (115, 4), (131, 5), (163, 5), (195, 5), (227, 5), (258, 0)]
def distTable : List (Nat × Nat) :=
  [(1, 0), (2, 0), (3, 0), (4, 0), (5, 1), (7, 1), (9, 2), (13, 2), (17, 3), (25, 3), (33, 4), (49, 4), (65, 5), (97, 5), (129, 6), (193, 6)] ++
  [(257, 7), (385, 7), (513, 8), (769, 8), (1025, 9), (1537, 9), (2049, 10), (3073, 10), (4097, 11), (6145, 11), (8193, 12), (12289, 12)] ++
  [(16385, 13), (24577, 13)]

/-! ### Blocks -/

/-- The output so far, newest byte first, its length, and the space for it. -/
structure InfOut where
  rev : List Byte
  len : Nat
  space : Nat
deriving DecidableEq, Repr

/-- Append one byte. -/
def InfOut.push (o : InfOut) (b : Byte) (item : Nat) : Except InfErr InfOut :=
  if o.space ≤ o.len then .error { result := 0x01, pos := item } else .ok { o with rev := b :: o.rev, len := o.len + 1 }

/-- Copy `n` bytes from a distance back. -/
def InfOut.copy (o : InfOut) (dist item : Nat) : Nat → Except InfErr InfOut
  | 0 => .ok o
  | n + 1 =>
    match o.push (nth 0 o.rev (dist - 1)) item with
    | .ok o => o.copy dist item n
    | .error e => .error e

/-- Append bytes of a stored block. -/
def InfOut.stored (o : InfOut) (x : BitIn) : Nat → Except InfErr (InfOut × BitIn)
  | 0 => .ok (o, x)
  | n + 1 =>
    match x.take 8 x.pos with
    | .error e => .error e
    | .ok (v, x') =>
      match o.push (BitVec.ofNat 8 v) x.pos with
      | .error e => .error e
      | .ok o => o.stored x' n

/-- The symbols of a compressed block. -/
def inflateCodes (lit dist : Huff) : Nat → BitIn → InfOut → Except InfErr (BitIn × InfOut)
  | 0, x, _ => .error { result := 0x05, pos := x.pos }
  | fuel + 1, x, o => do
    let item := x.pos
    let (sym, x) ← lit.read x
    if sym < 256 then inflateCodes lit dist fuel x (← o.push (BitVec.ofNat 8 sym) item)
    else if sym = 256 then .ok (x, o)
    else if 285 < sym then .error { result := 0x02, pos := item }
    else
      let l := nth (0, 0) lengthTable (sym - 257)
      let (extra, x) ← x.take l.2 item
      let distItem := x.pos
      let (ds, x) ← dist.read x
      if 29 < ds then .error { result := 0x02, pos := distItem } else
      let d := nth (0, 0) distTable ds
      let (dextra, x) ← x.take d.2 distItem
      let back := d.1 + dextra
      if o.len < back then .error { result := 0x03, pos := distItem } else
      inflateCodes lit dist fuel x (← o.copy back item (l.1 + extra))

/-- What a compressed block is made of: a byte, or a match of a length and a distance. -/
inductive Token where
  | byte (b : Byte)
  | copy (len dist : Nat)
deriving DecidableEq, Repr

/-- The tokens of a compressed block up to its end, and the input after it. -/
def readTokens (lit dist : Huff) : Nat → BitIn → Except InfErr (List Token × BitIn)
  | 0, x => .error { result := 0x05, pos := x.pos }
  | fuel + 1, x => do
    let item := x.pos
    let (sym, x) ← lit.read x
    if sym < 256 then
      let (r, x) ← readTokens lit dist fuel x
      .ok (.byte (BitVec.ofNat 8 sym) :: r, x)
    else if sym = 256 then .ok ([], x)
    else if 285 < sym then .error { result := 0x02, pos := item }
    else
      let l := nth (0, 0) lengthTable (sym - 257)
      let (extra, x) ← x.take l.2 item
      let (ds, x) ← dist.read x
      if 29 < ds then .error { result := 0x02, pos := item } else
      let d := nth (0, 0) distTable ds
      let (dextra, x) ← x.take d.2 item
      let (r, x) ← readTokens lit dist fuel x
      .ok (.copy (l.1 + extra) (d.1 + dextra) :: r, x)

/-- The order of the code-length code's lengths. -/
def clOrder : List Nat := [16, 17, 18, 0, 8, 7, 9, 6, 10, 5, 11, 4, 12, 3, 13, 2, 14, 1, 15]

/-- Read `n` lengths of three bits. -/
def readClens : Nat → BitIn → Nat → Except InfErr (List Nat × BitIn)
  | 0, x, _ => .ok ([], x)
  | n + 1, x, item => do
    let (v, x) ← x.take 3 item
    let (r, x) ← readClens n x item
    .ok (v :: r, x)

/-- The sequence of code lengths, `total` of them; `rev` are those read so far, newest first. -/
def readLengths (cl : Huff) (total : Nat) : Nat → BitIn → List Nat → Except InfErr (List Nat × BitIn)
  | 0, x, _ => .error { result := 0x05, pos := x.pos }
  | fuel + 1, x, rev =>
    if total ≤ rev.length then .ok (rev.reverse, x) else do
    let item := x.pos
    let (sym, x) ← cl.read x
    if sym < 16 then readLengths cl total fuel x (sym :: rev) else
    if sym = 16 ∧ rev.isEmpty = true then .error { result := 0x02, pos := item } else
    let (v, n, base) := if sym = 16 then (rev.headD 0, 2, 3) else if sym = 17 then (0, 3, 3) else (0, 7, 11)
    let (extra, x) ← x.take n item
    if total < rev.length + base + extra then .error { result := 0x04, pos := item }
    else readLengths cl total fuel x (List.replicate (base + extra) v ++ rev)

/-- The tables of a dynamic block. -/
def readTables (fuel : Nat) (x : BitIn) : Except InfErr ((Huff × Huff) × BitIn) := do
  let item := x.pos
  let (h, x) ← x.take 14 item
  let hlit := h % 32 + 257
  let hdist := h / 32 % 32 + 1
  let clItem := x.pos
  let (clens, x) ← readClens (h / 1024 + 4) x clItem
  let cl := huffOf ((List.range 19).map (fun s => match clOrder.findIdx? (· == s) with
    | some i => nth 0 clens i
    | none => 0))
  if !cl.complete then .error { result := 0x02, pos := clItem } else
  let seqItem := x.pos
  let (lengths, x) ← readLengths cl (hlit + hdist) fuel x []
  let lit := lengths.take hlit
  let dist := lengths.drop hlit
  if !(huffOf lit).complete || !distanceOk dist then .error { result := 0x02, pos := seqItem } else
  .ok ((huffOf lit, huffOf dist), x)

/-- Blocks up to the final one. -/
def inflateBlocks : Nat → BitIn → InfOut → Except InfErr (BitIn × InfOut)
  | 0, x, _ => .error { result := 0x05, pos := x.pos }
  | fuel + 1, x, o => do
    let item := x.pos
    let (h, x) ← x.take 3 item
    let (x, o) ← match h / 2 with
      | 0 => do
        let x := x.align
        let at_ := x.pos
        let (len, x) ← x.take 16 at_
        let (nlen, x) ← x.take 16 (at_ + 16)
        if nlen ≠ 65535 - len then .error { result := 0x06, pos := at_ + 16 } else
        let (o, x) ← o.stored x len
        pure (x, o)
      | 1 => inflateCodes fixedLit fixedDist (x.bits.length + 1) x o
      | 2 => do
        let ((lit, dist), x) ← readTables (x.bits.length + 1) x
        inflateCodes lit dist (x.bits.length + 1) x o
      | _ => .error { result := 0x02, pos := item }
    if h % 2 = 1 then .ok (x, o) else inflateBlocks fuel x o

/-! ### What a coded segment may be (R299) -/

/-- How many candidates the hash chains of a LEVEL hold. -/
def chainDepth (level : Nat) : Nat := nth 64 [0, 4, 16, 64] level

/-- Whether a match at a place of a segment refers to earlier bytes of it that are the same, and its source is among the latest `depth` earlier places with the
same three bytes. -/
def matchGood (depth : Nat) (bs : List Byte) (at_ len dist : Nat) : Bool :=
  let here := bs.drop at_
  let from_ := bs.drop (at_ - dist)
  decide (1 ≤ dist) && decide (dist ≤ at_) && here.take len == from_.take len && decide (at_ + len ≤ bs.length) &&
  decide ((((List.range dist).filter (fun k => k != 0 && (bs.drop (at_ - k)).take 3 == here.take 3)).length) < depth)

/-- Whether tokens from a place of a segment on make the rest of it. -/
def tokensGood (depth : Nat) (bs : List Byte) : Nat → List Token → Bool
  | at_, [] => at_ == bs.length
  | at_, .byte b :: r => bs[at_]? == some b && tokensGood depth bs (at_ + 1) r
  | at_, .copy len dist :: r => matchGood depth bs at_ len dist && tokensGood depth bs (at_ + len) r

/-- Whether what is left of an input is an empty stored block: three zero bits, zeros up to the byte boundary, LEN 0 and NLEN 0xFFFF. -/
def emptyStored (x : BitIn) : Bool :=
  let y : BitIn := { bits := x.bits.drop 3, pos := x.pos + 3 }
  let pad := 3 + (8 - y.pos % 8) % 8
  x.bits == List.replicate (pad + 16) false ++ List.replicate 16 true

/-- Whether bytes code a segment as R299 states: one dynamic-Huffman block, final in the last segment, whose matches the search of the LEVEL finds in the segment; an
empty stored block after it in any other segment, zeros up to the byte boundary in the last. -/
def codedGood (level : Nat) (last : Bool) (bs packed : List Byte) : Bool :=
  let x : BitIn := { bits := lsbBits packed, pos := 0 }
  match x.take 3 0 with
  | .error _ => false
  | .ok (h, x) =>
    if h != 4 + b2n last then false else
    match readTables (x.bits.length + 1) x with
    | .error _ => false
    | .ok ((lit, dist), x) =>
      match readTokens lit dist (x.bits.length + 1) x with
      | .error _ => false
      | .ok (l, x) => tokensGood (chainDepth level) bs 0 l && (if last then x.bits == List.replicate ((8 - x.pos % 8) % 8) false else emptyStored x)

/-! ### Wrappers (R302) -/

/-- Adler-32. -/
def adler32 (bs : List Byte) : Nat :=
  let r := bs.foldl (fun (s : Nat × Nat) b => let a := (s.1 + b.toNat) % 65521; (a, (s.2 + a) % 65521)) (1, 0)
  r.2 * 65536 + r.1

/-- The length of a zero-terminated string with its terminator; none where it does not end. -/
def zeroEnd (bs : List Byte) : Option Nat := (bs.findIdx? (· == 0)).map (· + 1)

/-- A failed check at a byte. -/
def atByte (result byte : Nat) : Except InfErr Nat := .error { result := result, pos := byte * 8 }

/-- The length of a gzip header: FEXTRA, FNAME and FCOMMENT skipped, FHCRC checked. -/
def gzipHeader (src : List Byte) : Except InfErr Nat := do
  let b := fun i => (nth 0 src i).toNat
  if src.length < 1 then atByte 0x05 0 else
  if b 0 ≠ 0x1F then atByte 0x07 0 else
  if src.length < 2 then atByte 0x05 1 else
  if b 1 ≠ 0x8B then atByte 0x07 1 else
  if src.length < 3 then atByte 0x05 2 else
  if b 2 ≠ 8 then atByte 0x07 2 else
  if src.length < 4 then atByte 0x05 3 else
  if 32 ≤ b 3 then atByte 0x07 3 else
  if src.length < 10 then atByte 0x05 4 else
  let n := 10
  let n ← if bitOf (b 3) 2 then
      if src.length < n + 2 + fieldOf src n 2 ∨ src.length < n + 2 then atByte 0x05 n else .ok (n + 2 + fieldOf src n 2)
    else .ok n
  let n ← if bitOf (b 3) 3 then
      match zeroEnd (src.drop n) with
      | some k => .ok (n + k)
      | none => atByte 0x05 n
    else .ok n
  let n ← if bitOf (b 3) 4 then
      match zeroEnd (src.drop n) with
      | some k => .ok (n + k)
      | none => atByte 0x05 n
    else .ok n
  if bitOf (b 3) 1 then
    if src.length < n + 2 then atByte 0x05 n
    else if fieldOf src n 2 ≠ crc32 (src.take n) % 65536 then atByte 0x08 n else .ok (n + 2)
  else .ok n

/-- The length of a zlib header: CM 8, a window of at most 32 KiB, the FCHECK remainder, and no preset dictionary. -/
def zlibHeader (src : List Byte) : Except InfErr Nat :=
  let b := fun i => (nth 0 src i).toNat
  if src.length < 1 then atByte 0x05 0
  else if b 0 % 16 ≠ 8 ∨ 7 < b 0 / 16 then atByte 0x07 0
  else if src.length < 2 then atByte 0x05 1
  else if (b 0 * 256 + b 1) % 31 ≠ 0 ∨ bitOf (b 1) 5 = true then atByte 0x07 1
  else .ok 2

/-- What a decompression gives: its output and the input bytes it used. -/
def inflateJob (wrap space : Nat) (src : List Byte) : Except InfErr (List Byte × Nat) := do
  let start ← if wrap = 1 then zlibHeader src else if wrap = 2 then gzipHeader src else .ok 0
  let body := lsbBits (src.drop start)
  let (x, o) ← inflateBlocks (body.length + 1) { bits := body, pos := start * 8 } { rev := [], len := 0, space := space }
  let out := o.rev.reverse
  let x := x.align
  let item := x.pos
  if wrap = 1 then
    let (v, x) ← x.take 32 item
    if beNat (leBytes 4 v) ≠ adler32 out then .error { result := 0x08, pos := item } else .ok (out, x.pos / 8)
  else if wrap = 2 then
    let (c, x) ← x.take 32 item
    if c ≠ crc32 out then .error { result := 0x08, pos := item } else
    let (n, x) ← x.take 32 (item + 32)
    if n ≠ out.length % 2 ^ 32 then .error { result := 0x08, pos := item + 32 } else .ok (out, x.pos / 8)
  else .ok (out, x.pos / 8)

end Sys2Proof.Machine
end

