-- ==== Sys2Proof/Machine/Arbour.lean ====
section
/-! DEFINITION. The Arbour DEFLATE engine (16_arbour.md, R297 to R303). -/

namespace Sys2Proof.Machine

/-! ### The ring (R297) -/

/-- DESC_SLOTS as it acts. -/
def State.arbSlots (s : State) : Nat := inRange Adr.ARB.DESC_SLOTS (Fld.ARB.DESC_SLOTS s.regs) 2 4096

/-- The engine is enabled over a ring of at least two slots. -/
def State.arbActive (s : State) : Bool := s.enabled 0x4C && decide (2 ≤ Fld.ARB.DESC_SLOTS s.regs)

/-- The DRAM address of a slot's descriptor. -/
def State.arbDesc (s : State) (slot : Nat) : Nat := Fld.ARB.DESC_UNIT s.regs * 4096 + slot * 64

/-- SUB_IDX_WRITE submits the slots before it. -/
def subIdxWrite (v : Nat) (s : State) : State := s.setReg Adr.ARB.SUB_IDX (v % 2 ^ 12)

/-- SEEN_IDX_WRITE acknowledges completions. -/
def seenIdxWrite (v : Nat) (s : State) : State := s.setReg Adr.ARB.SEEN_IDX (v % 2 ^ 12)

/-- The ARB page at an apply point. -/
def State.applyArb (s : State) (old : RegFile) : State :=
  if s.enabled 0x4C && Fld.HDR.ENABLE old 0x4C == 0 && decide (Fld.ARB.DESC_SLOTS s.regs < 2) then s.fault 0x4C0 0x07 else s

/-! ### Checks before data moves (R298) -/

/-- Fields of a descriptor. -/
def arbOp (d : List Byte) : Nat := bits (fieldOf d 0 4) 0 2
def arbWrap (d : List Byte) : Nat := bits (fieldOf d 0 4) 2 2
def arbLevel (d : List Byte) : Nat := bits (fieldOf d 0 4) 4 2
def arbSegLog2 (d : List Byte) : Nat := bits (fieldOf d 0 4) 8 3
def arbSrcLen (d : List Byte) : Nat := fieldOf d 4 4
def arbSrc (d : List Byte) : Nat := fieldOf d 8 8
def arbDst (d : List Byte) : Nat := fieldOf d 0x10 8
def arbDstLen (d : List Byte) : Nat := fieldOf d 0x18 4
def arbIdx (d : List Byte) : Nat := fieldOf d 0x1C 8

/-- S, and NSEG = max(1, ceil(SRC_LEN / S)) (R299, R301). -/
def arbSegment (d : List Byte) : Nat := 2 ^ arbSegLog2 d * 1024
def arbSegments (d : List Byte) : Nat := max 1 (ceilDiv (arbSrcLen d) (arbSegment d))

/-- Whether a descriptor is DESC_BAD. -/
def descBad (d : List Byte) (capacity : Nat) : Bool :=
  decide (1 < arbOp d) || arbWrap d == 3 || decide (arbSegLog2 d < 2) || decide (6 < arbSegLog2 d) ||
  (decide (0 < arbSrcLen d) && decide (0 < arbDstLen d) && decide (arbSrc d < arbDst d + arbDstLen d) && decide (arbDst d < arbSrc d + arbSrcLen d)) ||
  decide (capacity < arbSrc d + arbSrcLen d) || decide (capacity < arbDst d + arbDstLen d)

/-- The first 4 KiB unit of a range that no window grants a master. -/
def State.deniedUnit (s : State) (addr len master : Nat) (isWrite : Bool) : Option Nat :=
  if len = 0 then none
  else ((List.range ((addr + len - 1) / 4096 - addr / 4096 + 1)).map (· + addr / 4096)).find? (fun u => !s.grantsDram u master isWrite)

/-- The first access of a job that the Gatehouse denies CHECK_MID, as (unit, direction). -/
def State.arbDenied (s : State) (d : List Byte) : Option (Nat × Bool) :=
  let m := Fld.ARB.CHECK_MID s.regs
  if m = 0 then none else
  let idx := if arbOp d = 0 ∧ arbIdx d ≠ 0 then s.deniedUnit (arbIdx d) (4 * (arbSegments d + 1)) m true else none
  ((s.deniedUnit (arbSrc d) (arbSrcLen d) m false).map (fun u => (u, false))).or
    (((s.deniedUnit (arbDst d) (arbDstLen d) m true).or idx).map (fun u => (u, true)))

/-- ARBOUR_JOB_START: the next submitted descriptor is read once and checked (R297, R298). -/
def arbourJobStart (s : State) : State :=
  let slot := Fld.ARB.DONE_IDX s.regs
  if !s.arbActive || s.holding 0x4C || s.arb.isSome || slot == Fld.ARB.SUB_IDX s.regs then s else
  let a := s.arbDesc slot
  let next := (slot + 1) % s.arbSlots
  match s.spanError a 36 with
  | some u => { s.upstream 0x4C0 u with arb := some { slot := slot, addr := a, next := next, desc := [], early := some 0x09 } }
  | none =>
    let d := s.dramRead a 36
    if descBad d (s.rd Adr.MCT.CAPACITY * 2 ^ 20) then { s with arb := some { slot := slot, addr := a, next := next, desc := d, early := some 0x0B } } else
    match s.arbDenied d with
    | some (u, w) =>
      { s.refuse 0x022 (Fld.ARB.CHECK_MID s.regs) (s.refusedWindow u) w with arb := some { slot := slot, addr := a, next := next, desc := d, early := some 0x0A } }
    | none => { s with arb := some { slot := slot, addr := a, next := next, desc := d, early := none } }

/-! ### Compression (R299 to R301) -/

/-- One stored block. -/
def storedBlock (final : Bool) (bs : List Byte) : List Byte :=
  BitVec.ofNat 8 (b2n final) :: (leBytes 2 bs.length ++ leBytes 2 (65535 - bs.length) ++ bs)

/-- A segment as stored blocks of at most 65,535 bytes, followed by an empty stored block unless it is the last. -/
def storedSegment (last : Bool) (bs : List Byte) : List Byte :=
  let parts := if bs.isEmpty then [[]] else chunks 65535 bs.length bs
  (parts.zipIdx.flatMap (fun p => storedBlock (last && p.2 + 1 == parts.length) p.1)) ++ (if last then [] else storedBlock false [])

/-- A segment as the Arbour codes it: stored at LEVEL 0 and where the Huffman block would be longer (R299). The spec fixes neither the search nor the codes of a block
further than `codedGood` says: any block that it allows may be the Arbour's (assumption 116). -/
def storedOrDeflated (level : Nat) (last : Bool) (bs : List Byte) : List Byte :=
  let plain := storedSegment last bs
  if level = 0 then plain else
  let packed := Config.deflate level last bs
  if plain.length < packed.length ∨ codedGood level last bs packed = false then plain else packed

/-- The coded segments of an input. -/
def codeSegments (level size : Nat) (src : List Byte) : List (List Byte) :=
  let parts := if src.isEmpty then [[]] else chunks size src.length src
  parts.zipIdx.map (fun p => storedOrDeflated level (p.2 + 1 == parts.length) p.1)

/-- Header and trailer of a wrapper (R300). -/
def wrapHeader (wrap : Nat) : List Byte :=
  match wrap with
  | 1 => [0x78, 0x9C]
  | 2 => [0x1F, 0x8B, 0x08, 0x00, 0, 0, 0, 0, 0x00, 0xFF]
  | _ => []
def wrapTrailer (wrap : Nat) (src : List Byte) : List Byte :=
  match wrap with
  | 1 => beBytes 4 (adler32 src)
  | 2 => leBytes 4 (crc32 src) ++ leBytes 4 src.length
  | _ => []

/-- The output of a compression, and the entries of its segment index. -/
def compressed (d src : List Byte) : List Byte × List Nat :=
  let segs := codeSegments (arbLevel d) (arbSegment d) src
  let head := wrapHeader (arbWrap d)
  let out := head ++ segs.flatten ++ wrapTrailer (arbWrap d) src
  let starts := segs.foldl (fun (acc : List Nat × Nat) g => (acc.1 ++ [acc.2], acc.2 + g.length)) ([], head.length)
  (out, starts.1 ++ [out.length])

/-- The bound B of R301. -/
def arbBound (d : List Byte) : Nat :=
  arbSrcLen d + 5 * (ceilDiv (arbSrcLen d) 65535 + 2 * arbSegments d) + nth 0 [0, 6, 18] (arbWrap d)

/-- CHECK of uncompressed data: Adler-32 for zlib, else CRC-32. -/
def arbCheck (wrap : Nat) (data : List Byte) : Nat := if wrap = 1 then adler32 data else crc32 data

/-! ### Completion (R297, R303) -/

/-- The first of `n` bytes at an address whose access ends in an error response, by its place among them, with the cause: one that DRAM does not serve, or one in
a bad beat. -/
def State.firstBad (s : State) (bad : BadBeats) (addr n : Nat) : Option (Nat × Nat) :=
  let k := s.served addr n
  let own := if k < n then (s.dramError (addr + k)).toList.map (fun u => (k, u)) else []
  let given := (bad.filter (fun e => decide (addr / 32 ≤ e.1) && decide (e.1 * 32 < addr + n))).map (fun e => (e.1 * 32 - addr, e.2))
  (own ++ given).foldl (fun (best : Option (Nat × Nat)) e => match best with
    | some b => if e.1 < b.1 then some e else best
    | none => some e) none

/-- A job's result: once output and IDX writes are complete, descriptor bytes 0x24 to 0x3F, then DONE_IDX. -/
def State.arbFinish (s : State) (bad : BadBeats) (j : ArbJob) (result outLen check errOfs inUsed : Nat) : State :=
  let bytes := leBytes 4 outLen ++ leBytes 4 (result + 2 ^ 31) ++ leBytes 4 check ++ leBytes 4 errOfs ++ leBytes 4 inUsed ++ List.replicate 8 0
  let s := match s.firstBad bad (j.addr + 0x24) bytes.length with
    | some (_, u) => s.upstream 0x4C0 u
    | none => s.dramWrite (j.addr + 0x24) bytes
  let s := (s.setReg Adr.ARB.DONE_IDX j.next).bump Adr.ARB.JOBS
  let s := if result = 0 then s else s.bump Adr.ARB.FAILED
  { s with arb := none }

/-- A job that fails: ERR_OFS and IN_USED where they are known, else undefined. -/
def State.arbFail (s : State) (bad : BadBeats) (j : ArbJob) (result : Nat) (errOfs inUsed : Option Nat) : State :=
  let (e, s) := match errOfs with
    | some e => (e, s)
    | none => let (w, s) := s.drawWord; (w.toNat, s)
  let (n, s) := match inUsed with
    | some n => (n, s)
    | none => let (w, s) := s.drawWord; (w.toNat, s)
  s.arbFinish bad j result 0 0 e n

/-- The space for a failed job's output holds unspecified bytes (R303). -/
def State.scribble (s : State) (addr len : Nat) : State :=
  { s.dramWrite addr ((List.range len).map (Config.freeByte s.freeCount)) with freeCount := s.freeCount + 1 }

/-- A job that ends with OK. -/
def State.arbOk (s : State) (bad : BadBeats) (j : ArbJob) (out data : List Byte) (used : Nat) : State :=
  let s := s.dramWrite (arbDst j.desc) out
  let (w, s) := s.drawWord
  s.arbFinish bad j 0 out.length (arbCheck (arbWrap j.desc) data) w.toNat used

/-- A job that stops after it has begun to move data: at an error response, which the Arbour reports, or at a failed check (R303). -/
def State.arbStop (s : State) (bad : BadBeats) (j : ArbJob) (cause : Option Nat) (result : Nat) (errOfs : Nat) : State :=
  let s := match cause with
    | some u => s.upstream 0x4C0 u
    | none => s
  (s.scribble (arbDst j.desc) (arbDstLen j.desc)).arbFail bad j (if cause.isSome then 0x09 else result) (some errOfs) none

/-- The input bytes that the output byte at a place codes, as the first and how many: those of a segment; none but the place itself in the header and the trailer.
Which byte of a segment its output stops at, the spec does not state (assumption 181). -/
def inputAt (d : List Byte) (starts : List Nat) (place : Nat) : Nat × Nat :=
  let i := (starts.filter (fun a => decide (a ≤ place))).length
  if i = 0 then (0, 1) else if starts.length < i then (arbSrcLen d, 1)
  else ((i - 1) * arbSegment d, max 1 (min (arbSegment d) (arbSrcLen d - (i - 1) * arbSegment d)))

/-- How far the output of a job can be written: up to DST_LEN, or up to the first byte whose write fails, with the cause. -/
def State.arbSpace (s : State) (bad : BadBeats) (d : List Byte) (n : Nat) : Nat × Option Nat :=
  match s.firstBad bad (arbDst d) (min n (arbDstLen d)) with
  | some (k, u) => (k, some u)
  | none => (arbDstLen d, none)

/-- A compression stops at an output byte that cannot be written. -/
def State.arbFull (s : State) (bad : BadBeats) (j : ArbJob) (starts : List Nat) (space : Nat × Option Nat) : State :=
  let (w, s) := s.drawWord
  let from_ := inputAt j.desc starts space.1
  s.arbStop bad j space.2 0x01 (from_.1 + w.toNat % from_.2)

/-- A compression: its segments up to the first input byte whose read fails, its output up to the first byte that cannot be written, then the segment index. -/
def State.arbCompress (s : State) (bad : BadBeats) (j : ArbJob) : State :=
  let d := j.desc
  let src := s.dramRead (arbSrc d) (arbSrcLen d)
  match s.firstBad bad (arbSrc d) (arbSrcLen d) with
  | some (o, u) =>
    let size := arbSegment d
    let segs := (chunks size src.length (src.take (o / size * size))).map (storedOrDeflated (arbLevel d) false)
    let starts := (segs.foldl (fun (acc : List Nat × Nat) g => (acc.1 ++ [acc.2], acc.2 + g.length)) ([], (wrapHeader (arbWrap d)).length)).1
    let len := (wrapHeader (arbWrap d)).length + segs.flatten.length
    let space := s.arbSpace bad d len
    if space.1 < len then s.arbFull bad j starts space else s.arbStop bad j (some u) 0x09 o
  | none =>
    let (out, entries) := compressed d src
    let space := s.arbSpace bad d out.length
    if space.1 < out.length then s.arbFull bad j (entries.take (entries.length - 1)) space else
    match (if arbIdx d = 0 then none else s.firstBad bad (arbIdx d) (4 * entries.length)) with
    | some (k, u) => s.arbStop bad j (some u) 0x09 (min (k / 4 * arbSegment d) (arbSrcLen d))
    | none =>
      let s := if arbIdx d = 0 then s else s.dramWrite (arbIdx d) (entries.flatMap (leBytes 4))
      s.arbOk bad j out src (arbSrcLen d)

/-- A decompression: up to the first failed check in stream order, an input byte whose read fails and an output byte whose write fails among them (R303). -/
def State.arbDecompress (s : State) (bad : BadBeats) (j : ArbJob) : State :=
  let d := j.desc
  let cut := s.firstBad bad (arbSrc d) (arbSrcLen d)
  let src := s.dramRead (arbSrc d) ((cut.map (·.1)).getD (arbSrcLen d))
  let space := s.arbSpace bad d (arbDstLen d)
  match inflateJob (arbWrap d) space.1 src with
  | .ok (out, used) => s.arbOk bad j out out used
  | .error e =>
    if e.result = 0x01 then s.arbStop bad j space.2 0x01 (e.pos / 8)
    else match cut with
      | some (o, u) => if e.result = 0x05 then s.arbStop bad j (some u) 0x09 o else s.arbStop bad j none e.result (e.pos / 8)
      | none => s.arbStop bad j none e.result (e.pos / 8)

/-- ARBOUR_JOB_DONE: the job in progress ends; `bad` are the beats whose accesses ended in an error response (R303). -/
def arbourJobDone (bad : BadBeats) (s : State) : State :=
  match s.arb with
  | none => s
  | some j =>
    match j.early with
    | some r => s.arbFail bad j r none (some 0)
    | none => if arbOp j.desc = 0 then s.arbCompress bad j else s.arbDecompress bad j

/-- The counters that CNT_RESTART of ARB restarts. -/
def arbCounters : List (List RegAddr) := [[Adr.ARB.JOBS, Adr.ARB.FAILED]]

end Sys2Proof.Machine
end

