-- ==== Sys2Proof/Machine/Admission.lean ====
section
/-! DEFINITION. The admission unit: capacities, costs, power, the flow table, operating points and metering (03_guarantees.md, R61 to R77, R377). -/

namespace Sys2Proof.Machine

/-- The capacity fraction of an operating point, in percent (R61). -/
def opFraction (op : Nat) : Nat := nth 100 [40, 60, 82, 100] op

/-- The core power factor of an operating point, in 1/1,024 (R61). -/
def opFactor (op : Nat) : Nat := nth 1024 [476, 648, 846, 1024] op

/-- The generation a root port trained at; 0 while it has not. -/
def State.rpGenOf (s : State) (p : Nat) : Nat := SMap.get (fun _ => 0) s.trl.rpGen p

/-- The capacity by generation: Gen5, Gen4, Gen3, and 0 at 5 GT/s or below (R65, R66). -/
def genCapacity (gen5 gen : Nat) : Nat := if gen ≥ 5 then gen5 else if gen = 4 then gen5 / 2 else if gen = 3 then gen5 / 4 else 0

/-- The capacity at OP3 of a resource (R65, R66, R287). -/
def State.c3 (s : State) (r : Nat) : Nat :=
  if r < 4 then 3000 else
  if r = 0x04 ∨ r = 0x05 ∨ r = 0x07 then 12000 else
  if r = 0x06 ∨ r = 0x10 then 6000 else
  if r < 0x10 then 2125 else
  if r ≤ 0x16 then 500 else
  if r ≤ 0x1A then Fld.MC.ADM_CAP s.regs (r - 0x17) else
  if r ≤ 0x22 then genCapacity 6000 (s.rpGenOf (r - 0x1B)) else
  if r = 0x23 then genCapacity 12000 s.trl.epGen else 0

/-- The capacity of a resource at an operating point (R62). -/
def State.capAt (s : State) (op r : Nat) : Nat := s.c3 r * opFraction op / 100

/-- CAP_r: at the point in force for admission (R62). -/
def State.cap (s : State) (r : Nat) : Nat := s.capAt (Fld.TRL.OP_CUR s.regs) r

/-- The urgent allowance for given slots and patience (R77). -/
def allowanceOf (slots patience : Nat) : Nat := ceilDiv (slots * 128) patience

/-- The urgent allowance as BE_SLOTS and BE_PATIENCE stand (R77). -/
def State.allowance (s : State) : Nat := allowanceOf (Fld.TRL.BE_SLOTS s.regs) (Fld.TRL.BE_PATIENCE s.regs)

/-- Whether a resource holds the allowance: each MC group from reset, a root port while its trained link has capacity (R77). -/
def State.holdsAllowance (s : State) (r : Nat) : Bool :=
  (decide (0x17 ≤ r) && decide (r ≤ 0x1A)) || (decide (0x1B ≤ r) && decide (r ≤ 0x22) && decide (0 < s.c3 r))

/-- A flow entry. -/
def State.flow (s : State) (i : Nat) : Flow := SMap.get (fun _ => flowReset) s.trl.flows i

/-- Store a flow entry. -/
def State.setFlow (s : State) (i : Nat) (f : Flow) : State :=
  { s with trl := { s.trl with flows := SMap.set (fun _ => flowReset) s.trl.flows i f } }

/-- The ADMITTED entries in index order. -/
def State.admitted (s : State) : List (Nat × Flow) := s.trl.flows.filter (fun e => decide (e.2.st = .admitted))

/-- Whether an ADMITTED entry names a unit as its owner (R72). -/
def State.hasFlow (s : State) (unit : Nat) : Bool := s.admitted.any (fun e => e.2.owner == unit)

/-- The units that a flow charges a resource. -/
def Flow.units (f : Flow) (r : Nat) : Nat := (f.costs.filter (fun c => c.1 == r)).foldl (fun a c => a + c.2) 0

/-- USED_r: the admitted units and the urgent allowance (R70, R77). -/
def State.used (s : State) (r : Nat) : Nat :=
  s.admitted.foldl (fun a e => a + e.2.units r) (if s.holdsAllowance r then s.allowance else 0)

/-- A flow's admitted power at an operating point (R69). -/
def Flow.power (f : Flow) (op : Nat) : Nat := f.pwrFixed + ceilDiv (f.pwrCore * opFactor op) 1024

/-- The base power at an operating point (R69). -/
def basePower (op : Nat) : Nat := ceilDiv (3000 * opFactor op) 1024

/-- The admitted power at an operating point, with the base (R69). -/
def powerOf (fs : List (Nat × Flow)) (op : Nat) : Nat := fs.foldl (fun a e => a + e.2.power op) (basePower op)

/-- PWR_USED (R69, R73). -/
def State.pwrUsed (s : State) : Nat := powerOf s.admitted s.trl.opPower

/-- Why a command of the admission unit ended as it did (REASON). -/
inductive Reason where
  | none | capacity | power | badResource | ownerActive
deriving DecidableEq, Repr

/-- The code of a REASON. -/
def Reason.code : Reason → Nat
  | .none => 0 | .capacity => 1 | .power => 2 | .badResource => 3 | .ownerActive => 4

/-- The pairs of an entry that are in use. -/
def Flow.pairs (f : Flow) : List (Nat × Nat) := f.costs.filter (fun c => c.1 != 0x3F)

/-- The first pair whose resource does not exist or appears twice (R70). -/
def Flow.badPair (f : Flow) : Option Nat :=
  (f.pairs.find? (fun c => decide (0x23 < c.1) || decide (1 < (f.pairs.filter (fun d => d.1 == c.1)).length))).map (·.1)

/-- What ADMIT finds for a flow (R70): the reason and the failing resource. -/
def State.admitCheck (s : State) (f : Flow) : Reason × Nat :=
  match f.badPair with
  | some r => (.badResource, r)
  | none =>
    match f.pairs.find? (fun c => decide (s.cap c.1 < s.used c.1 + c.2)) with
    | some c => (.capacity, c.1)
    | none => if Fld.TRL.PWR_BUDGET s.regs < s.pwrUsed + f.power s.trl.opPower then (.power, 0x3F) else (.none, 0)

/-- ADM_STAT after a command: BUSY 0, the reason and the resource. -/
def State.admStat (s : State) (r : Reason) (res : Nat) : State := s.setReg Adr.TRL.ADM_STAT (r.code * 2 + res * 16)

/-- The FLOW_SEL of a bank (R71). -/
def State.flowSel (s : State) : Bank → Nat
  | .lodge => s.trl.selLodge
  | .shared => s.trl.selShared

/-- FLOW_BURST as the bucket uses it: below 8 acts as 8, above 1,024 as 1,024. -/
def burstOf (b : Nat) : Nat := if b < 8 then 8 else if 1024 < b then 1024 else b

/-- Whether flow entry `i` is ADMITTED and owned by `unit`. -/
def State.flowOwned (s : State) (i unit : Nat) : Bool := decide ((s.flow i).st = .admitted) && (s.flow i).owner == unit

/-- ADMIT of the selected entry (R70, R71). -/
def admitFlow (b : Bank) (s : State) : State :=
  let i := s.flowSel b
  let f := s.flow i
  if f.st = .admitted then s.admStat .none 0 else
  match s.admitCheck f with
  | (.none, _) => (s.setFlow i { f with st := .admitted, tokens := burstOf f.burst * 16000, filled := s.now }).admStat .none 0
  | (r, res) => (s.setFlow i { f with st := .refused }).admStat r res

/-- RELEASE of the selected entry, given whether its owner is active (R72). -/
def releaseWith (ownerActive : Nat → Bool) (b : Bank) (s : State) : State :=
  let i := s.flowSel b
  let f := s.flow i
  if f.st = .admitted ∧ ownerActive f.owner = true then s.admStat .ownerActive 0
  else (s.setFlow i { f with st := .free }).admStat .none 0

/-- The first ADMITTED entry, in index order, at which a running total passes a capacity or the power budget at a point (R73). -/
def State.opCheck (s : State) (op : Nat) : List (Nat × Flow) → List (Nat × Flow) → Option (Nat × Nat)
  | _, [] => none
  | done, e :: rest =>
    let now := done ++ [e]
    match e.2.pairs.find? (fun c =>
        decide (s.capAt op c.1 < now.foldl (fun a x => a + x.2.units c.1) (if s.holdsAllowance c.1 then s.allowance else 0))) with
    | some c => some (e.1, c.1)
    | none => if Fld.TRL.PWR_BUDGET s.regs < powerOf now op then some (e.1, 0x3F) else s.opCheck op now rest

/-- Drive PMU_VSEL (R338): never while PG_CORE is low. -/
def State.driveVsel (s : State) (op : Nat) : State :=
  if bitOf (Fld.PMU.PWR_STAT_PG s.regs) 1 then (s.setFld Adr.PMU.VSEL 0 2 op).emit (.vsel op) else s

/-- OP_REQ (R73, R338). -/
def opReq (op : Nat) (s : State) : State :=
  if Fld.TRL.OP_STAT_BUSY s.regs = 1 then s else
  if op = Fld.TRL.OP_CUR s.regs then s.setReg Adr.TRL.OP_STAT 0 else
  match s.opCheck op [] s.admitted with
  | some (i, r) => s.setReg Adr.TRL.OP_STAT (2 + i * 2 ^ 8 + r * 2 ^ 16)
  | none =>
    let s := { s.setReg Adr.TRL.OP_STAT 0 with trl := { s.trl with opPower := op } }
    if op < Fld.TRL.OP_CUR s.regs then
      let s := (s.setReg Adr.TRL.OP op).driveVsel op
      if Fld.PMU.VSEL_CUR s.regs = op then s else s.setFld Adr.TRL.OP_STAT 0 1 1
    else
      let s := ((s.setFld Adr.TRL.OP_STAT 0 1 1).driveVsel op).setFld Adr.PMU.VSEL 4 1 0
      { s with pwr := { s.pwr with settling := some op } }

/-- VSETTLE_US after a raised VSEL the voltage is settled and the new capacities apply (R73, R338). -/
def vsettleExpiry (s : State) : State :=
  match s.pwr.settling with
  | none => s
  | some op =>
    { (((s.setReg Adr.TRL.OP op).setFld Adr.TRL.OP_STAT 0 1 0).setFld Adr.PMU.VSEL 4 1 1) with pwr := { s.pwr with settling := none } }

/-- A write of PWR_BUDGET, ignored out of range or below PWR_USED (R74). -/
def pwrBudgetWrite (value : Nat) (s : State) : State :=
  let v := value % 2 ^ 16
  if 20000 ≤ v ∧ v ≤ 55000 ∧ s.pwrUsed ≤ v then s.setReg Adr.TRL.PWR_BUDGET v else s

/-- Whether every resource that holds an allowance has room for a raised one (R377). -/
def State.roomForAllowance (s : State) (new : Nat) : Bool :=
  (List.range 0x24).all (fun r => !s.holdsAllowance r || decide (s.used r - s.allowance + new ≤ s.cap r))

/-- A write of BE_SLOTS or BE_PATIENCE (R377). -/
def beAllowanceWrite (r : BeReg) (value : Nat) (s : State) : State :=
  match r with
  | .slots =>
    let v := value % 64
    let new := allowanceOf v (Fld.TRL.BE_PATIENCE s.regs)
    if 1 ≤ v ∧ v ≤ 32 ∧ (new ≤ s.allowance ∨ s.roomForAllowance new = true) then s.setReg Adr.TRL.BE_SLOTS v else s
  | .patience =>
    let v := value % 256
    let new := allowanceOf (Fld.TRL.BE_SLOTS s.regs) v
    if 4 ≤ v ∧ (new ≤ s.allowance ∨ s.roomForAllowance new = true) then s.setReg Adr.TRL.BE_PATIENCE v else s

/-- The refill rate of a flow in 1/16,000 beat per ns: the sum of its four MC group costs (R75). -/
def Flow.rate (f : Flow) : Nat := f.units 0x17 + f.units 0x18 + f.units 0x19 + f.units 0x1A

/-- The tokens of a flow's bucket now: refilled at the admitted rate by short time, up to FLOW_BURST beats (R75). The rule names no clock for the refill:
the model counts short time, so that a Sundial step moves it (DESIGN CHOICE, assumption 22). -/
def Flow.tokensAt (f : Flow) (now : Nat) : Nat := min (burstOf f.burst * 16000) (f.tokens + f.rate * shortFwd f.filled now)

/-- Meter a burst of beats under an ADMITTED flow (R75): how many of its beats, from the first on, find tokens, and the bucket after. -/
def State.meter (s : State) (i beats : Nat) : Nat × State :=
  let f := s.flow i
  if f.st ≠ .admitted then (0, s) else
  let tokens := f.tokensAt s.now
  let metered := min beats (tokens / 16000)
  (metered, s.setFlow i { f with tokens := tokens - metered * 16000, filled := s.now })

/-- Whether a flow entry with a cost on an MC group is ADMITTED (R295). -/
def State.mcAdmitted (s : State) : Bool := s.admitted.any (fun e => decide (0 < e.2.rate))

/-- A root port link trains at a generation: its capacity and its allowance follow (R66, R77). -/
def State.trainRootPort (s : State) (p gen : Nat) : State :=
  { s with trl := { s.trl with rpGen := SMap.set (fun _ => 0) s.trl.rpGen p gen } }

/-- The registers FLOW_OWNER to FLOW_COST5 of the selected entry, as read. -/
def State.flowRead (s : State) (b : Bank) (off : Nat) : Nat :=
  let f := s.flow (s.flowSel b)
  if off = 0x060 then s.flowSel b else
  if off = 0x064 then f.owner else
  if off = 0x068 then f.pwrCore else
  if off = 0x06C then f.pwrFixed else
  if off = 0x070 then f.burst else
  if 0x074 ≤ off ∧ off ≤ 0x088 then
    let c := nth (0x3F, 0) f.costs ((off - 0x074) / 4)
    c.1 + c.2 * 2 ^ 8
  else match f.st with
    | .free => 0
    | .admitted => 1
    | .refused => 2

/-- A write of FLOW_SEL to FLOW_COST5; ignored on an ADMITTED entry, but for FLOW_SEL (R70, R71). -/
def State.flowWrite (s : State) (b : Bank) (off v : Nat) : State :=
  if off = 0x060 then
    match b with
    | .lodge => { s with trl := { s.trl with selLodge := v % 128 } }
    | .shared => { s with trl := { s.trl with selShared := v % 128 } }
  else
    let i := s.flowSel b
    let f := s.flow i
    if f.st = .admitted then s else
    if off = 0x064 then s.setFlow i { f with owner := v % 2 ^ 12 } else
    if off = 0x068 then s.setFlow i { f with pwrCore := v % 2 ^ 16 } else
    if off = 0x06C then s.setFlow i { f with pwrFixed := v % 2 ^ 16 } else
    if off = 0x070 then s.setFlow i { f with burst := v % 2 ^ 11 } else
    if 0x074 ≤ off ∧ off ≤ 0x088 then s.setFlow i { f with costs := setAt f.costs ((off - 0x074) / 4) (v % 64, bits v 8 20) } else s

end Sys2Proof.Machine
end

