-- ==== Sys2Proof/Machine/Dram.lean ====
section
/-! DEFINITION. The memory controller: training, capacity, the channel schedulers, refresh and ECC (15_memory.md, R285 to R296, R369). -/

namespace Sys2Proof.Machine

/-- Store a device channel, and show its debt in REF_DEBT. -/
def State.setChan (s : State) (ch : Nat) (c : McChan) : State :=
  { s.setReg (Adr.MC.REF_DEBT (ch / 4) (ch % 4)) (min 15 c.debt) with
    mem := { s.mem with chans := SMap.set (fun _ => mcChanReset) s.mem.chans ch c } }

/-- A byte lane. -/
def State.lane (s : State) (n : Nat) : LaneState := SMap.get (fun _ => laneReset) s.mem.lanes n

/-- Store a byte lane. -/
def State.setLane (s : State) (n : Nat) (l : LaneState) : State :=
  { s with mem := { s.mem with lanes := SMap.set (fun _ => laneReset) s.mem.lanes n l } }

/-- The data rate as (numerator, denominator) MT/s (R285). -/
def dataRate (rate : Nat) : Nat × Nat := nth (3200, 1) [(3200, 1), (12800, 3), (5500, 1), (6400, 1), (7500, 1), (25600, 3)] rate

/-- The fields of DRAM_CFG as TRAIN read them. -/
def State.dramType (s : State) : Nat := bits s.mem.cfg 0 1
def State.dramRate (s : State) : Nat := listed Adr.MCT.DRAM_CFG (bits s.mem.cfg 1 3) 6
def State.dramDensity (s : State) : Nat := listed Adr.MCT.DRAM_CFG (bits s.mem.cfg 4 2) 3
def State.inlineEcc (s : State) : Bool := bitOf s.mem.cfg 8
/-- Link ECC, ignored on LPDDR5 (R291). -/
def State.linkEcc (s : State) : Bool := bitOf s.mem.cfg 9 && s.dramType == 1

/-- ADM_CAP = floor(4 × R × η × E), η = 750/1,024, E = 1 or 8/9 (R287). -/
def admCap (rate : Nat) (inlineEcc : Bool) : Nat :=
  let r := dataRate rate
  if inlineEcc then 4 * r.1 * 750 * 8 / (r.2 * 1024 * 9) else 4 * r.1 * 750 / (r.2 * 1024)

/-- The usable capacity in MiB (R285). -/
def usableMiB (density ranks2 : Nat) (inlineEcc : Bool) : Nat :=
  let total := nth 1024 [1024, 1536, 2048] density * 16 * (1 + ranks2)
  if inlineEcc then total * 7 / 8 else total

/-- TRAIN_CMD: starts training; ignored while BUSY and while a flow with MC costs is ADMITTED (R294, R295). -/
def trainCmd (s : State) : State :=
  if Fld.MCT.TRAIN_STAT_STATE s.regs = 1 || s.mcAdmitted then s else
  let s := (List.range 16).foldl (fun s ch => s.setChan ch { s.chan ch with ready := false, repay := false }) s
  let s := (List.range 4).foldl (fun s g => s.setReg (Adr.MC.ADM_CAP g) 0) s
  let s := ((s.setReg Adr.MCT.TRAIN_STAT 1).setReg Adr.MCT.LANE_FAIL 0).setReg Adr.MCT.RECENTRE_COUNT 0
  { s with mem := { s.mem with cfg := s.rd Adr.MCT.DRAM_CFG, selfRefresh := false } }

/-- Store what training found, lane by lane. -/
def State.storeLanes (s : State) : Nat → List DramLane → State
  | _, [] => s
  | n, l :: r => (s.setLane n { rd := l.rdDly, wr := l.wrDly, rdVref := l.rdVref, wrVref := l.wrVref, moved := 0, drift := false }).storeLanes (n + 1) r

/-- The failed lanes as a mask: no eye at least 12 taps wide (R294). -/
def failMask : Nat → List DramLane → Nat
  | _, [] => 0
  | n, l :: r => (if l.eyeTaps < 12 then 2 ^ n else 0) + failMask (n + 1) r

/-- DRAM serves: TRAIN_STAT reads DONE, the capacities follow the configuration, and refresh starts with no debt (R285, R287, R294). -/
def State.openDram (s : State) : State :=
  let s := (s.setReg Adr.MCT.TRAIN_STAT 2).setReg Adr.MCT.CAPACITY (usableMiB s.dramDensity (bits s.mem.cfg 6 1) s.inlineEcc)
  let s := (List.range 4).foldl (fun s g => s.setReg (Adr.MC.ADM_CAP g) (admCap s.dramRate s.inlineEcc)) s
  (List.range 16).foldl (fun s ch => s.setChan ch { s.chan ch with ready := true, debt := 0, paid := 0, repay := false, openRows := [] }) s

/-- TRAIN ends: each channel with a failed lane reports LINK_DOWN, and the others' condition has ended (R287, R294, R295). -/
def trainDone (lanes : List DramLane) (s : State) : State :=
  if Fld.MCT.TRAIN_STAT_STATE s.regs ≠ 1 then s else
  let refused := s.dramType == 0 && decide (4 ≤ s.dramRate)
  let fails := if refused then 0 else failMask 0 lanes
  let s := (List.range 16).foldl (fun s ch => s.cond (decide (bits fails (2 * ch) 2 ≠ 0)) (channelUnit ch) (channelUnit ch) 0x06) s
  if refused || decide (fails ≠ 0) then ((s.setReg Adr.MCT.TRAIN_STAT 3).setReg Adr.MCT.LANE_FAIL fails).fault 0x481 0x20
  else (s.storeLanes 0 lanes).openDram

/-- The bank of a 256-byte block within a channel, from 0 to 15 (R286): bank group j[1:0], bank j[3:2] xor j[8:7]. -/
def bankOf (j : Nat) : Nat := j % 4 + 4 * ((j / 4 % 4) ^^^ (j / 128 % 4))

/-- The row of a 256-byte block within a channel (R286). -/
def rowOf (j : Nat) : Nat := j / 128

/-- The rank of a row: the top bit of the row number where there are 2 ranks. Rows of two ranks of 8 Gb devices take 16 bits, of denser ones 17 (R285, R286;
DEDUCED, assumption 162). -/
def State.rankOf (s : State) (row : Nat) : Nat := if bits s.mem.cfg 6 1 = 1 then row / nth (2 ^ 16) [2 ^ 15] s.dramDensity % 2 else 0

/-- The bank, counted over the ranks, and the row of an address. -/
def State.bankRow (s : State) (addr : Nat) : Nat × Nat := let j := (s.channelOf addr).2; (bankOf j + 16 * s.rankOf (rowOf j), rowOf j)

/-- WR_PATIENCE in ns: outside 500 to 4,000 it acts as the nearer limit. -/
def State.wrPatience (s : State) (g : Nat) : Nat :=
  let p := Fld.MC.WR_PATIENCE s.regs g
  if p < 500 then 500 else if 4000 < p then 4000 else p

/-- WR_LO: at or above WR_HI it acts as WR_HI − 1. -/
def State.wrLo (s : State) (g : Nat) : Nat :=
  if Fld.MC.WR_WM_WR_HI s.regs g ≤ Fld.MC.WR_WM_WR_LO s.regs g then Fld.MC.WR_WM_WR_HI s.regs g - 1 else Fld.MC.WR_WM_WR_LO s.regs g

/-- The entry that R289 picks of one queue within a class: row hits first, then the oldest. -/
def State.pickEntry (s : State) (c : McChan) (metered : Bool) (q : List McEntry) : Option McEntry :=
  let q := q.filter (fun e => e.metered == metered)
  (q.find? (fun e => c.openRows.contains (s.bankRow e.addr))).or q.head?

/-- Open the row of an address in its bank. -/
def State.openRow (s : State) (c : McChan) (addr : Nat) : McChan :=
  let (b, r) := s.bankRow addr
  { c with openRows := (b, r) :: c.openRows.filter (fun x => x.1 != b) }

/-- One per-bank refresh: it closes its bank pair in every rank, and eight of them repay one interval (R290). -/
def perBankRefresh (now : Nat) (c : McChan) : McChan :=
  let c := { c with lastPb := now, pair := (c.pair + 1) % 8, openRows := c.openRows.filter (fun x => x.1 % 16 / 2 != c.pair) }
  if c.paid = 7 then { c with paid := 0, debt := c.debt - 1, repay := c.repay && decide (1 < c.debt) } else { c with paid := c.paid + 1 }

/-- Whether a class-1 request is queued for a bank pair. -/
def State.pairBusy (s : State) (c : McChan) (pair : Nat) : Bool :=
  (c.readQ ++ c.writeQ).any (fun e => e.metered && (s.bankRow e.addr).1 % 16 / 2 == pair)

/-- Place a refresh that is not owed at this boundary where its bank pair has no class-1 request queued; otherwise it is postponed (R290). -/
def State.placeRefresh (s : State) (c : McChan) : McChan :=
  if 0 < c.debt ∧ c.repay = false ∧ s.pairBusy c c.pair = false then perBankRefresh s.now c else c

/-- The forced all-bank refresh at the postpone limit (R290). -/
def forcedRefresh (c : McChan) : McChan := { c with debt := 7, repay := true, openRows := [] }

/-- The beats that an entry covers, as (first, end). -/
def McEntry.beatSpan (e : McEntry) : Nat × Nat := (e.addr / 32, e.addr / 32 + e.beats)

/-- Whether two entries cover a common beat. -/
def McEntry.meets (e f : McEntry) : Bool := decide (e.beatSpan.1 < f.beatSpan.2) && decide (f.beatSpan.1 < e.beatSpan.2)

/-- A write that the order picks, or the oldest queued write to one of its beats: two writes to the same beat reach the device in issue order (R288). -/
def inIssueOrder (q : List McEntry) (e : McEntry) : McEntry := (q.find? (fun f => f.meets e)).getD e

/-- A write leaves the queue for the device, its row open. -/
def State.issueWrite (s : State) (c : McChan) (e : McEntry) : McChan :=
  let e := inIssueOrder c.writeQ e
  { s.openRow c e.addr with writeQ := c.writeQ.erase e }

/-- The read or write that R289's last rule picks. -/
def State.issueTransfer (s : State) (g : Nat) (c : McChan) : McChan :=
  let metered := (c.readQ ++ c.writeQ).any (fun e => e.metered)
  let drain := if Fld.MC.WR_WM_WR_HI s.regs g ≤ c.writeQ.length then true else if c.writeQ.length ≤ s.wrLo g then false else c.drain
  let c := { c with drain := drain }
  let w := s.pickEntry c metered c.writeQ
  let r := s.pickEntry c metered c.readQ
  let takeWrite := s.issueWrite c
  let takeRead := fun (e : McEntry) => { s.openRow c e.addr with readQ := c.readQ.erase e }
  match drain, w, r with
  | true, some e, _ => takeWrite e
  | true, none, some e => takeRead e
  | false, _, some e => takeRead e
  | false, some e, none => takeWrite e
  | _, none, none => c

/-- The oldest write of a channel, where it is beyond WR_PATIENCE and neither a forced nor an owed refresh comes before it (R289). -/
def State.urgentWrite (s : State) (ch : Nat) : Option McEntry :=
  let c := s.chan ch
  if c.ready = false || s.mem.selfRefresh || decide (8 ≤ c.debt) || (c.repay && decide (90 ≤ shortFwd c.lastPb s.now)) then none
  else c.writeQ.find? (fun e => decide (s.wrPatience (ch / 4) < shortFwd e.entered s.now))

/-- That write goes out at urgent priority and is counted; a refresh that is not owed is placed at the same boundary (R289, R290). -/
def State.issueUrgent (s : State) (ch : Nat) (e : McEntry) : State :=
  (s.bump (Adr.MC.WR_URGENT (ch / 4) (ch % 4))).setChan ch (s.placeRefresh (s.issueWrite (s.chan ch) e))

/-- What a channel issues at a 256-byte boundary (R289). -/
def schedulerIssue (g k : Nat) (s : State) : State :=
  let ch := 4 * g + k
  let c := s.chan ch
  if c.ready = false || s.mem.selfRefresh then s else
  if 8 ≤ c.debt then (s.bump (Adr.MC.FORCED_REF g k)).setChan ch (forcedRefresh c) else
  if c.repay ∧ 90 ≤ shortFwd c.lastPb s.now then s.setChan ch (perBankRefresh s.now c) else
  match s.urgentWrite ch with
  | some e => s.issueUrgent ch e
  | none => s.setChan ch (s.placeRefresh (s.issueTransfer g c))

/-- A refresh interval boundary: the debt rises by 1 (R290). -/
def refreshInterval (g k : Nat) (s : State) : State :=
  let ch := 4 * g + k
  let c := s.chan ch
  if c.ready = false || s.mem.selfRefresh then s else s.setChan ch { c with debt := c.debt + 1 }

/-- One lane of a re-centring: beyond 2 taps of drift it moves 1 tap, and beyond 16 taps in all it sets LANE_DRIFT and its channel reports (R296). -/
def State.recentreLane (s : State) (n : Nat) (d : Int) : State :=
  if d.natAbs ≤ 2 then s else
  let step : Int := if 0 < d then 1 else -1
  let l := s.lane n
  let l' := { l with wr := (sat ((l.wr : Int) + step) 0 127).toNat, rd := (sat ((l.rd : Int) + step) 0 127).toNat, moved := l.moved + step }
  let far := decide (16 < l'.moved.natAbs)
  let s := (s.setLane n { l' with drift := l.drift || far }).bump Adr.MCT.RECENTRE_COUNT
  if far && !l.drift then s.fault (channelUnit (n / 2)) 0x21 else s

/-- Every lane of a re-centring, from lane n on. -/
def State.recentreFrom (s : State) : Nat → List Int → State
  | _, [] => s
  | n, d :: r => (s.recentreLane n d).recentreFrom (n + 1) r

/-- RECENTRE (R296): nothing while RECENTRE_MS is 0 or DRAM is not trained. -/
def recentre (drifts : List Int) (s : State) : State :=
  if Fld.MCT.RECENTRE_MS s.regs = 0 ∨ Fld.MCT.TRAIN_STAT_STATE s.regs ≠ 2 then s else s.recentreFrom 0 drifts

/-- LANE_POS of the selected lane. -/
def State.lanePos (s : State) : Nat :=
  let l := s.lane (Fld.MCT.LANE_SEL s.regs)
  l.rd % 128 + l.wr % 128 * 2 ^ 8 + l.rdVref % 64 * 2 ^ 16 + l.wrVref % 64 * 2 ^ 24 + b2n l.drift * 2 ^ 31

/-- The write queue takes the corrected words whose write-back waits, oldest first, as best-effort work (R292). -/
def McChan.takeCorrected (c : McChan) : McChan :=
  let n := 64 - c.writeQ.length
  { c with writeQ := c.writeQ ++ c.corrected.take n, corrected := c.corrected.drop n }

/-- A single-bit error that inline ECC corrects in a beat: it is counted, and the corrected word is to be written back (R292). -/
def State.inlineCorrects (s : State) (ch addr : Nat) : State :=
  let s := s.bump (Adr.MC.CE_INLINE (ch / 4) (ch % 4))
  let c := s.chan ch
  let c : McChan := { c with corrected := c.corrected ++ [{ addr := addr, beats := 1, metered := false, entered := s.now }] }
  s.setChan ch c.takeCorrected

/-- What the ECC in effect makes of one beat that the devices deliver (R291, R292; a link error that link ECC does not correct is one more single-bit error to
inline ECC). -/
def State.eccBeat (s : State) (ch addr : Nat) (e : EccEvent) : State :=
  match e with
  | .linkCorrected =>
    if s.linkEcc then s.bump (Adr.MC.CE_LINK (ch / 4) (ch % 4)) else if s.inlineEcc then s.inlineCorrects ch addr else s
  | .inlineCorrected => if s.inlineEcc then s.inlineCorrects ch addr else s
  | .none | .linkReissued | .uncorrectable => s

/-- The ECC outcome of a read, given what each of its beats from the devices met: the counters; and for the first uncorrectable beat the fault, the record and the
error response (R291 to R293). -/
def State.eccRead (s : State) (addr master : Nat) (es : List (Nat × EccEvent)) : State × Option Nat :=
  let ch := (s.channelOf addr).1
  let s := es.foldl (fun s e => s.eccBeat ch (addr + 32 * e.1) e.2) s
  match es.find? (fun e => decide (e.2 = .uncorrectable)) with
  | some e => if s.linkEcc || s.inlineEcc then (s.uncorrectable ch (addr + 32 * e.1) master, some (channelUnit ch)) else (s, none)
  | none => (s, none)

/-- What link ECC corrects of a write: each correction is counted (R291). -/
def State.eccWrite (s : State) (addr : Nat) (es : List EccEvent) : State :=
  let ch := (s.channelOf addr).1
  if s.linkEcc then s.bumpBy (Adr.MC.CE_LINK (ch / 4) (ch % 4)) (es.countP (fun e => decide (e = .linkCorrected))) else s

/-- Whether a read meets a data error that no ECC in effect covers: its data is what the devices deliver, bit errors included (R293). -/
def State.eccMissed (s : State) (e : EccEvent) : Bool :=
  match e with
  | .none | .linkReissued => false
  | .linkCorrected => !s.linkEcc && !s.inlineEcc
  | .inlineCorrected => !s.inlineEcc
  | .uncorrectable => !s.linkEcc && !s.inlineEcc

/-- CNT_RESTART of an MC page: bit k − 1 restarts channel k's counters. -/
def mcCounters (g : Nat) : List (List RegAddr) :=
  (List.range 4).map (fun k => [Adr.MC.CE_LINK g k, Adr.MC.CE_INLINE g k, Adr.MC.UE g k, Adr.MC.FORCED_REF g k, Adr.MC.WR_URGENT g k])

end Sys2Proof.Machine
end

