-- ==== Sys2Proof/Machine/Colour.lean ====
section
/-! DEFINITION. Colour arithmetic as pure functions: white balance, demosaic, MAT3, LUT1 and LUT3 (07_orangery.md, R139 to R151). -/

namespace Sys2Proof.Machine

/-- The range of s25. -/
def sat25 (x : Int) : Int := sat x (-(2 ^ 24)) (2 ^ 24 - 1)

/-- The colour channel of a CFA phase, 0 to 2; 3 stands for all (R139). -/
def cfaChannel (cfa ph : Nat) : Nat :=
  nth 3 (nth [3, 3, 3, 3] [[0, 1, 1, 2], [1, 0, 2, 1], [1, 2, 0, 1], [2, 1, 1, 0], [3, 3, 3, 3]] cfa) ph

/-- The CFA phase of a photosite. -/
def phaseOf (r c : Int) : Nat := (2 * (r % 2) + c % 2).toNat

/-- White balance (R140). -/
def whiteBalance (gain : Nat) (clip v : Int) : Int := sat (rshift (v * gain) 13) (-(2 ^ 24)) clip

/-- A coordinate reflected about the edge photosites of a dimension of n (R141). -/
def reflect (n : Nat) (x : Int) : Nat :=
  if n ≤ 1 then 0 else
  let p : Int := 2 * (n - 1)
  let y := x % p
  if y < n then y.toNat else (p - y).toNat

/-- The value at a photosite of a mosaic, reflected at the edges. -/
def mosaicAt (w h : Nat) (m : List (List Int)) (r c : Int) : Int := nth 0 (nth [] m (reflect h r)) (reflect w c)

/-- The sum of the four orthogonal neighbours. -/
def s4 (v : Int → Int → Int) (r c : Int) : Int := v (r - 1) c + v (r + 1) c + v r (c - 1) + v r (c + 1)

/-- Green at a non-green photosite (R142). -/
def greenAt (v : Int → Int → Int) (t : Nat) (r c : Int) : Int :=
  let dxh := 2 * v r c - v r (c - 2) - v r (c + 2)
  let dxv := 2 * v r c - v (r - 2) c - v (r + 2) c
  let dH := (v r (c - 1) - v r (c + 1)).natAbs + dxh.natAbs
  let dV := (v (r - 1) c - v (r + 1) c).natAbs + dxv.natAbs
  let nH := 2 * (v r (c - 1) + v r (c + 1)) + dxh
  let nV := 2 * (v (r - 1) c + v (r + 1) c) + dxv
  let n := if dH + t < dV then 2 * nH else if dV + t < dH then 2 * nV else nH + nV
  sat25 (rshift n 3)

/-- Put three colour values in channel order; each comes with its channel. -/
def inOrder (a b c : Nat × Int) : Int × Int × Int :=
  let at' (k : Nat) : Int := if a.1 = k then a.2 else if b.1 = k then b.2 else c.2
  (at' 0, at' 1, at' 2)

/-- The demosaiced pixel at a photosite (R142, R143). -/
def demosaic (cfa t : Nat) (v : Int → Int → Int) (r c : Int) : Int × Int × Int :=
  let own := cfaChannel cfa (phaseOf r c)
  let x := v r c
  if own = 3 then (x, x, x)
  else if own = 1 then
    let h := 8 * x + 4 * (v r (c - 1) + v r (c + 1)) - (s4 v r (c - 1) + s4 v r (c + 1))
    let w := 8 * x + 4 * (v (r - 1) c + v (r + 1) c) - (s4 v (r - 1) c + s4 v (r + 1) c)
    inOrder (1, x) (cfaChannel cfa (phaseOf r (c + 1)), sat25 (rshift h 3)) (cfaChannel cfa (phaseOf (r + 1) c), sat25 (rshift w 3))
  else
    let g := greenAt v t r c
    let sY := v (r - 1) (c - 1) + v (r - 1) (c + 1) + v (r + 1) (c - 1) + v (r + 1) (c + 1)
    let sG := s4 v (r - 1) (c - 1) + s4 v (r - 1) (c + 1) + s4 v (r + 1) (c - 1) + s4 v (r + 1) (c + 1)
    inOrder (own, x) (1, g) (cfaChannel cfa (phaseOf (r + 1) (c + 1)), sat25 (rshift (16 * g + 4 * sY - sG) 4))

/-- One output of MAT3 (R146). -/
def matRow (m0 m1 m2 ofs : Int) (p : Int × Int × Int) : Int := sat25 (Int.fdiv (ofs * 2 ^ 14 + 2 ^ 13 + m0 * p.1 + m1 * p.2.1 + m2 * p.2.2) (2 ^ 14))

/-- The index and step of LUT1 for a magnitude (R149). -/
def lutIndex (m : Nat) : Nat × Nat :=
  if m < 512 then (m / 2, 1)
  else
    let k := Nat.log2 m
    (256 * (k - 8) + (m - 2 ^ k) / 2 ^ (k - 8), k - 8)

/-- LUT1 (R149) over the table `t`. A mirrored input can give 2T[0] − y up to 196,605, beyond the s18 that R149 declares for y: the value is kept whole and then
clamped (DESIGN CHOICE, assumption 166). -/
def lut1 (t : Nat → Nat) (x : Int) (neg : Bool) : Int :=
  let mir := decide (x < 0) && neg
  let m : Nat := if 0 ≤ x then x.toNat else if neg then (if x = -(2 ^ 24) then 0xFFFFFF else (-x).toNat) else 0
  let (i, s) := lutIndex m
  let f := m % 2 ^ s
  let hi : Int := if i = 4095 then 2 * t 4095 - t 4094 else t (i + 1)
  let y : Int := t i + rshift ((hi - t i) * f) s
  sat (if mir then 2 * t 0 - y else y) 0 65535

/-- LUT3 of one output channel (R151); `c` gives the node value at (n0 + x, n1 + y, n2 + z). -/
def lut3 (c : Nat → Nat → Nat → Nat) (f0 f1 f2 : Nat) : Int :=
  let (p, q, wa, wb, wc) :=
    if f0 ≥ f1 then
      if f1 ≥ f2 then (c 1 0 0, c 1 1 0, f0, f1, f2)
      else if f0 ≥ f2 then (c 1 0 0, c 1 0 1, f0, f2, f1)
      else (c 0 0 1, c 1 0 1, f2, f0, f1)
    else
      if f2 ≥ f1 then (c 0 0 1, c 0 1 1, f2, f1, f0)
      else if f2 ≥ f0 then (c 0 1 0, c 0 1 1, f1, f2, f0)
      else (c 0 1 0, c 1 1 0, f1, f0, f2)
  let acc : Int := (c 0 0 0 : Int) * 1024 + ((p : Int) - c 0 0 0) * wa + ((q : Int) - p) * wb + ((c 1 1 1 : Int) - q) * wc
  sat (rshift acc 10) 0 65535

end Sys2Proof.Machine
end

