-- ==== Sys2Proof/Machine/Series.lean ====
section
/-! DEFINITION. Series of slots computed from a start time in short time (R89, R98, R159, R231, R271, R378). -/

namespace Sys2Proof.Machine

/-- T_k = start + floor(k × den × 10^9 / num) in short time; with num 0 there is no series, and the start stands in. -/
def slotTime (start num den k : Nat) : Nat := if num = 0 then start % 2 ^ 40 else (start + k * den * 1000000000 / num) % 2 ^ 40

/-- The frame period floor(den × 10^9 / num) in ns. -/
def periodNs (num den : Nat) : Nat := if num = 0 then 0 else den * 1000000000 / num

/-- The first slot whose time is not earlier than the present as the series starts; a start exactly 2^39 ns away gives an undefined first slot (R378). -/
def State.firstSlot (s : State) (start num den : Nat) : Nat × State :=
  match serial 40 start s.now with
  | .equal | .later => (0, s)
  | .earlier => (if den = 0 then 0 else ceilDiv (shortFwd start s.now * num) (den * 1000000000), s)
  | .ambiguous => let (w, s) := s.drawWord; (w.toNat, s)

/-- Whether short time has reached a slot's time. -/
def State.reached (s : State) (t : Nat) : Bool := decide (serial 40 s.now t = .equal) || decide (serial 40 s.now t = .later)

/-- The full nanosecond count that a short time stands for, by the serial comparison with the present; one exactly 2^39 ns away stands for either (R9, R11). -/
def State.fullTime (s : State) (t : Nat) : Int × State :=
  let now : Int := s.time.count
  match serial 40 t s.now with
  | .equal => (now, s)
  | .later => (now + shortFwd s.now t, s)
  | .earlier => (now - shortFwd t s.now, s)
  | .ambiguous => let (b, s) := s.drawBool; (if b then now + 2 ^ 39 else now - 2 ^ 39, s)

/-- Whether slot k of a series that began with T_0 = `base` has been reached (R136, R173, R378); a rate of 0 gives no slot but T_0. -/
def State.slotReached (s : State) (base : Int) (num den k : Nat) : Bool :=
  decide (base + (if num = 0 then 0 else k * den * 1000000000 / num : Nat) ≤ (s.time.count : Int))

end Sys2Proof.Machine
end

