-- ==== Sys2Proof/Machine/Sensor.lean ====
section
/-! DEFINITION. The sensor front end: training, framing, frame windows, line and frame outcomes, joined groups and the stream to raw conditioning
(04_sensor_front_end.md, R80 to R96, R336, R370, R372, R373, R375, R376). -/

namespace Sys2Proof.Machine

/-! ### Groups and streams -/

/-- A lane group, and storing it. -/
def State.grp (s : State) (g : Nat) : SfeGroup := SMap.get (fun _ => sfeGroupReset) s.sfe g
def State.setGrp (s : State) (g : Nat) (x : SfeGroup) : State := { s with sfe := SMap.set (fun _ => sfeGroupReset) s.sfe g x }

/-- A sensor stream, and storing it. -/
def State.stream (s : State) (n : Nat) : SfeStream := SMap.get (fun _ => sfeStreamReset) s.streams n
def State.setStream (s : State) (n : Nat) (x : SfeStream) : State := { s with streams := SMap.set (fun _ => sfeStreamReset) s.streams n x }

/-- Hand an item to raw conditioning. -/
def State.toRaw (s : State) (n : Nat) (i : RawItem) : State :=
  { s with rawIn := SMap.set (fun _ => []) s.rawIn n (SMap.get (fun _ => []) s.rawIn n ++ [i]) }

/-- The unit ID of a group (SFE registers) and of its training (SFL registers). -/
def groupUnit (g : Nat) : Nat := 0x101 + g

/-- The active lanes of a group (R80, R41). -/
def State.laneCount (s : State) (g : Nat) : Nat :=
  let v := Fld.SFE.GRP_CFG_LANES s.regs g
  if [4, 8, 10, 16, 20].contains v then v else nth 20 [4, 8, 10, 16, 20] (Config.unlisted (Adr.SFE.GRP_CFG g) v % 5)

/-- The sample width of a group. -/
def State.sampleBits (s : State) (g : Nat) : Nat := 10 + 2 * Fld.SFE.GRP_CFG_WIDTH s.regs g

/-- The values of GEO_WIDTH and GEO_HEIGHT that act (R89). -/
def actWidth (v : Nat) : Nat := let w := v / 32 * 32; if w < 32 then 32 else if 16384 < w then 16384 else w
def actHeight (v : Nat) : Nat := let h := v / 2 * 2; if h < 2 then 2 else if 16384 < h then 16384 else h

/-- GRP_MODE.MODE (R41 for the unlisted value 3). -/
def State.grpMode (s : State) : Nat := listed Adr.SFE.GRP_MODE (Fld.SFE.GRP_MODE_MODE s.regs) 3

/-- The joined groups, lowest first; none in INDEPENDENT mode. -/
def State.joined (s : State) : List Nat :=
  if s.grpMode = 0 then [] else (List.range 4).filter (fun g => bitOf (Fld.SFE.GRP_MODE_JOIN_MASK s.regs) g)

/-- The groups that form the stream of a group: all joined groups, or the group alone (R83, R373). -/
def State.membersOf (s : State) (g : Nat) : List Nat := if s.joined.contains g then s.joined else [g]

/-- The stream number of a group: its leading group's. -/
def State.streamOf (s : State) (g : Nat) : Nat := (s.membersOf g).headD g

/-- Whether a group leads its stream. -/
def State.leads (s : State) (g : Nat) : Bool := s.streamOf g == g

/-- The settings a group uses for a frame that starts now; the height is the leading group's (R83). -/
def State.readCfg (s : State) (g : Nat) : SfeCfg :=
  { width := actWidth (Fld.SFE.GEO_WIDTH s.regs g), height := actHeight (Fld.SFE.GEO_HEIGHT s.regs (s.streamOf g)), lanes := s.laneCount g,
    sampleBits := s.sampleBits g, padCode := Fld.SFE.PAD_CODE s.regs g, modeId := Fld.SFE.MODE_ID s.regs g,
    dual := Fld.SFE.GRP_CFG_DUAL_GAIN s.regs g == 1, sync := Fld.SFE.GRP_CFG_SYNC s.regs g == 1,
    closeNs := 1000 * max 1 (Fld.SFE.CLOSE_TIMEOUT s.regs g), lvDelay := Fld.SFE.GRP_CFG_LV_DELAY s.regs g, skew := Fld.SFE.JOIN_SKEW s.regs }

/-- Whether a group is aligned. -/
def State.aligned (s : State) (g : Nat) : Bool := Fld.SFL.DESKEW_STAT_ALIGNED s.regs g == 1

/-- The rows a stream's frame has: n × GEO_HEIGHT in ROW_INTERLEAVE. -/
def frameRows (mode n h : Nat) : Nat := if mode = 2 then n * h else h

/-! ### Frame records (R92, R334, R336) -/

/-- HIE records a frame tagged ISOLATED (R336). -/
def State.isoFrame (s : State) (stream count : Nat) : State :=
  if s.isolated then
    let r := (s.isoStreams.find? (fun e => e.1 == stream)).map (·.2)
    let n : IsoStream := match r with
      | some i => { i with last := count, count := i.count + 1 }
      | none => { first := count, last := count, count := 1 }
    { s with isoStreams := SMap.put s.isoStreams stream n }
  else s

/-- A new record of a stream. -/
def State.newRec (s : State) (count sof modeId tags : Nat) : FrameRec :=
  { count := count, sof := sof, modeId := modeId, tags := tags + (if s.isolated then 16 else 0), missing := 0, lines := 0, firstDropped := 0x7FFF,
    epoch := Fld.HIE.EPOCH s.regs, timecode := s.timecode, ptp := let t := s.time.back (shortFwd sof s.now); (t.sec, t.ns) }

/-- Set a tag bit of a record. -/
def FrameRec.tag (r : FrameRec) (bit : Nat) : FrameRec := if bitOf r.tags bit then r else { r with tags := r.tags + 2 ^ bit }

/-- LINES_RECEIVED of a stream frame: the rows that arrived with no part padded (R92). -/
def linesReceived (mode : Nat) (members : List Nat) (got : List (Nat × Nat)) : Nat :=
  let rows := members.map (fun m => SMap.get (fun _ => 0) got m)
  if mode = 2 then rows.foldl (· + ·) 0 else rows.foldl min (rows.headD 0)

/-- Whether a frame is the one with a FRAME_COUNT whose share a group still owes. -/
def StreamFrame.owes (f : StreamFrame) (g count : Nat) : Bool := f.record.count == count && f.waiting.contains g

/-- Change the frame of a stream with a FRAME_COUNT, whose share a group still owes. -/
def SfeStream.editFrame (st : SfeStream) (g count : Nat) (f : StreamFrame → StreamFrame) : SfeStream :=
  { st with frames := st.frames.map (fun x => if x.owes g count then f x else x) }

/-- A member's frame start has come, or no longer can (R83). -/
def State.markBegun (s : State) (stream g count : Nat) : State :=
  s.setStream stream ((s.stream stream).editFrame g count (fun f => { f with begun := f.begun ++ [g] }))

/-- The frame after a group's share of it has closed with `rows` rows. -/
def StreamFrame.closeShare (f : StreamFrame) (g rows : Nat) (edit : FrameRec → FrameRec) : StreamFrame :=
  let got := SMap.put f.got g rows
  { f with waiting := f.waiting.erase g, got := got, record := { edit f.record with lines := linesReceived f.mode f.members got } }

/-- A group's share of its stream's frame closes with `rows` rows; when the last share closes, the record closes and becomes the latest (R92, R370). -/
def State.closeShare (s : State) (stream g count rows : Nat) (edit : FrameRec → FrameRec) : State :=
  let st := s.stream stream
  let closed := (st.frames.filter (fun f => f.owes g count && f.waiting.all (· == g))).head?
  s.setStream stream { st.editFrame g count (fun f => f.closeShare g rows edit) with latest := match closed with
    | some f => (f.closeShare g rows edit).record
    | none => st.latest }

/-- Append to what leaves a group's line buffer: its output queue, or what a held frame keeps (R83). -/
def SfeGroup.push (x : SfeGroup) (i : SfeItem) : SfeGroup :=
  match x.heldSof, x.frame with
  | some _, some f => { x with frame := some { f with kept := f.kept ++ [i] } }
  | _, _ => { x with queue := x.queue ++ [i] }

/-- The samples a group's buffer holds (R93). -/
def SfeGroup.occupied (x : SfeGroup) : Nat :=
  let kept := match x.frame with
    | some f => f.kept
    | none => []
  let q := (x.queue ++ kept).foldl (fun a i => match i with
    | .row r => a + r.lo.length + r.hi.length
    | .pads _ => a) 0
  let h := match x.frame with
    | some f => (match f.half with
      | some r => r.lo.length
      | none => 0)
    | none => 0
  let l := match x.line with
    | some l => l.samples.length
    | none => 0
  q + h + l

/-! ### Lines (R82, R92, R93) -/

/-- The rows of a frame that have arrived, those discarded after an overflow included. -/
def SfeFrame.seen (f : SfeFrame) : Nat := if f.cfg.dual then f.readouts / 2 else f.readouts

/-- A readout has ended. -/
def SfeFrame.endReadout (f : SfeFrame) (now : Nat) : SfeFrame :=
  let f := { f with readouts := f.readouts + 1 }
  if f.cfg.height ≤ f.seen then { f with lastEnd := some (f.lastEnd.getD now) } else f

/-- Put a complete readout into the frame: a row of its own, or one half of a dual-gain row (R82). -/
def SfeGroup.addReadout (x : SfeGroup) (f : SfeFrame) (r : RawRow) : SfeGroup :=
  if f.cfg.dual then
    match f.half with
    | none => { x with frame := some { f with half := some r } }
    | some a =>
      let row : RawRow := { a with hi := r.lo, short := a.short || r.short, long := a.long || r.long }
      { x with frame := some { f with half := none, rows := f.rows + 1 } : SfeGroup }.push (.row row)
  else { x with frame := some { f with rows := f.rows + 1 } : SfeGroup }.push (.row r)

/-- The filler slots of a line: every lane carries ceil(W_g / N) slots (R81). -/
def fillerOf (c : SfeCfg) : Nat := ceilDiv c.width c.lanes * c.lanes - c.width

/-- The line in progress ends: a short line is filled with PAD_CODE (R92). -/
def State.endLine (s : State) (g : Nat) : State :=
  let x := s.grp g
  match x.line, x.frame with
  | some l, some f =>
    let x := { x with line := none }
    if l.ignored then s.setGrp g x else
    let f := f.endReadout s.now
    if f.trunc.isSome then s.setGrp g { x with frame := some f } else
    let short := decide (l.samples.length < f.cfg.width)
    let s := if short then s.bump (Adr.SFE.SHORT_LINES g) else s
    let r : RawRow := { lo := l.samples ++ List.replicate (f.cfg.width - l.samples.length) f.cfg.padCode, hi := [], short := short,
                        long := decide (fillerOf f.cfg < l.excess), pad := false, stamp := some l.stamp }
    s.setGrp g (x.addReadout f r)
  | some _, none => s.setGrp g { x with line := none }
  | none, _ => s

/-- Tag a record SHORT, LONG or TRUNCATED as a share closes. -/
def shareTags (short long : Bool) (trunc : Option Nat) (missing : Option Nat) (r : FrameRec) : FrameRec :=
  let r := if short then r.tag 0 else r
  let r := if long then r.tag 1 else r
  let r := match trunc with
    | some row => { r.tag 2 with firstDropped := if r.firstDropped = 0x7FFF then row else min r.firstDropped row }
    | none => r
  match missing with
  | some g => if bitOf r.missing g then r else { r with missing := r.missing + 2 ^ g }
  | none => r

/-- A group's frame closes: rows not received are pad lines, and its share of the record closes (R92, R93). FIRST_DROPPED is a row of the frame. A held frame
keeps its end until its frame start is accepted (R83). -/
def State.closeFrame (s : State) (g : Nat) (long : Bool) : State :=
  let s := s.endLine g
  let x := s.grp g
  match x.frame with
  | none => s
  | some f =>
    if x.heldSof.isSome then s.setGrp g { x with frame := some { f with ended := some (f.ended.getD long) } } else
    let missing := f.cfg.height - f.rows
    let pads := if missing = 0 then [] else [SfeItem.pads missing]
    let s := s.setGrp g { x with frame := none, afterClose := true, queue := x.queue ++ pads ++ x.owed, owed := [] }
    s.closeShare f.stream g f.count f.rows
      (shareTags (decide (f.seen < f.cfg.height)) long (f.trunc.map (fun r => r * f.step + f.base)) none)

/-- The buffer is full: the line being received and every later line of the frame are discarded at the input (R93). -/
def State.overflow (s : State) (g : Nat) : State :=
  let x := s.grp g
  match x.frame with
  | none => s
  | some f =>
    if f.trunc.isSome then s else
    let line := x.line.map (fun l => { l with samples := [], excess := 0 })
    let frame := some { f with trunc := some f.rows, half := none }
    ((s.setGrp g { x with line := line, frame := frame }).bump (Adr.SFE.TRUNCATED g)).fault (groupUnit g) 0x08

/-- One sample arrives (R81, R92, R93): it belongs to the line in progress, is filler on the lanes' last slots, or is excess. -/
def State.sample (s : State) (g v : Nat) : State :=
  let x := s.grp g
  match x.line, x.frame with
  | some l, some f =>
    if l.ignored || f.trunc.isSome then s else
    if l.samples.length < f.cfg.width then
      if 6 * f.cfg.width ≤ x.occupied then s.overflow g
      else s.setGrp g { x with line := some { l with samples := l.samples ++ [v % 2 ^ f.cfg.sampleBits] } }
    else
      let s := if l.excess < fillerOf f.cfg then s else s.bump (Adr.SFE.LONG_PIXELS g)
      s.setGrp g { s.grp g with line := some { l with excess := l.excess + 1 } }
  | _, _ => s

/-- A line starts (R92): it ends a line with no end, begins a row, or is discarded; between frames under HOLD it is not counted (R375). -/
def State.lineStart (s : State) (g : Nat) (ignore : Bool) : State :=
  let s := s.endLine g
  let x := s.grp g
  if x.running = false || x.discard then s else
  match x.frame with
  | none => if x.afterClose && !ignore && !s.holding 0x10 then s.bump (Adr.SFE.LONG_LINES g) else s
  | some f =>
    if f.ended.isSome then (if ignore then s else s.bump (Adr.SFE.LONG_LINES g)) else
    if ignore then s.setGrp g { x with line := some { samples := [], excess := 0, ignored := true, stamp := s.now } } else
    if f.cfg.height ≤ f.seen then (s.closeFrame g true).bump (Adr.SFE.LONG_LINES g)
    else s.setGrp g { x with line := some { samples := [], excess := 0, ignored := false, stamp := s.now } }

/-! ### Frame starts and windows (R83, R89 to R91, R96, R375, R376) -/

/-- Whether a group uses frame windows now (R90, R376). -/
def State.windowed (s : State) (g : Nat) : Bool :=
  Fld.SFE.GRP_CFG_WINDOW_EN s.regs g == 1 && (s.grp g).windowOk && (s.grp g).rateOk

/-- TRIG_START of a group. -/
def State.trigStart (s : State) (g : Nat) : Nat := Fld.SFE.TRIG_START_LO s.regs g + 2 ^ 32 * Fld.SFE.TRIG_START_HI s.regs g

/-- E_k of R89; none for a free-running group before its first accepted frame start. -/
def State.expected (s : State) (g k : Nat) : Option Nat :=
  let num := Fld.SFE.FRM_RATE_NUM s.regs g
  let den := Fld.SFE.FRM_RATE_DEN s.regs g
  if Fld.SFE.GRP_CFG_TRIGGERED s.regs g = 1 then some ((slotTime (s.trigStart g) num den k + Fld.SFE.SOF_DELAY s.regs g) % 2 ^ 40)
  else (s.grp g).anchor.map (fun a => slotTime a num den k)

/-- Whether the present lies in the window of slot k. -/
def State.inWindow (s : State) (g k : Nat) : Bool :=
  match s.expected g k with
  | none => false
  | some e => decide (shortFwd ((e + 2 ^ 40 - Fld.SFE.FS_EARLY s.regs g) % 2 ^ 40) s.now ≤ Fld.SFE.FS_EARLY s.regs g + Fld.SFE.FS_LATE s.regs g)

/-- A group begins to receive a frame of a stream: its `i`-th of `n` members, with the frame's FRAME_COUNT. -/
def State.beginFrame (s : State) (g stream count : Nat) (cfg : SfeCfg) (step base : Nat) : State :=
  let x := s.grp g
  let s := s.setGrp g { x with
    frame := some { cfg := cfg, sof := s.now, rows := 0, readouts := 0, lastEnd := none, half := none, trunc := none, stream := stream, count := count,
                    step := step, base := base, kept := [], ended := none }
    line := none, discard := false, afterClose := false, heldSof := none }
  (s.markBegun stream g count).frameStart 1 g

/-- How a member's rows lie in a frame: every n-th row from its place on in ROW_INTERLEAVE, else all rows (R83). -/
def rowStep (mode : Nat) (members : List Nat) (g : Nat) : Nat × Nat := if mode = 2 then (members.length, members.idxOf g) else (1, 0)

/-- A held frame start belongs to no accepted one: it is discarded and counted (R83). -/
def State.dropHeld (s : State) (g : Nat) : State :=
  (s.setGrp g { s.grp g with heldSof := none, frame := none, line := none, discard := true }).bump (Adr.SFE.LATE_SOF g)

/-- Whether a group's held frame start belongs to a leading frame start that is accepted now (R83). -/
def State.heldFits (s : State) (g : Nat) : Bool :=
  match (s.grp g).heldSof, (s.grp g).frame with
  | some t, some f => decide (shortFwd t s.now ≤ f.cfg.skew)
  | _, _ => false

/-- A held frame start of a joined group belongs to the accepted frame start, with all that it has received, or is discarded (R83). -/
def State.matchHeld (s : State) (stream : Nat) (sf : StreamFrame) (g : Nat) : State :=
  let x := s.grp g
  match x.heldSof, x.frame with
  | some _, some f =>
    if s.heldFits g then
      let (step, base) := rowStep sf.mode sf.members g
      let f' : SfeFrame := { f with cfg := { f.cfg with height := sf.height / step }, stream := stream, count := sf.record.count, step := step, base := base,
                                    kept := [], ended := none }
      let s := ((s.setGrp g { x with heldSof := none, frame := some f', queue := x.queue ++ f.kept }).markBegun stream g sf.record.count).frameStart 1 g
      match f.ended with
      | some long => s.closeFrame g long
      | none => s
    else s.dropHeld g
  | _, _ => s

/-- The settings a member brings to a frame that starts now: those its held frame start has read, or those that stand (R46, R83). -/
def State.memberCfg (s : State) (height m : Nat) : SfeCfg :=
  match (s.grp m).frame with
  | some f => if s.heldFits m then { f.cfg with height := height } else { s.readCfg m with height := height }
  | none => { s.readCfg m with height := height }

/-- The frame that a leading or independent group's accepted start begins. -/
def State.newFrame (s : State) (g count sof : Nat) : StreamFrame :=
  let members := s.membersOf g
  let cfg := s.readCfg g
  { record := s.newRec count sof cfg.modeId (if cfg.dual then 32 else 0), mode := s.grpMode, members := members,
    cfgs := members.map (s.memberCfg cfg.height), height := frameRows s.grpMode members.length cfg.height, skipped := false, begun := [], waiting := members,
    got := [], started := false, sent := 0, stamp0 := none, stamp1 := none, skew := cfg.skew }

/-- What a new frame start finds at its group: a held start belongs to no accepted one any more, an open frame ends (R83, R92). -/
def State.endEarlier (s : State) (g : Nat) : State :=
  if (s.grp g).heldSof.isSome && (s.grp g).frame.isSome then s.dropHeld g else s.closeFrame g false

/-- A frame start of a leading or independent group is accepted into its slot (R83, R90, R91). -/
def State.acceptFrame (s : State) (g : Nat) : State :=
  let s := s.endEarlier g
  let x := s.grp g
  let f := s.newFrame g x.cnt s.now
  let s := s.setStream g { s.stream g with frames := (s.stream g).frames ++ [f] }
  let s := s.isoFrame g x.cnt
  let s := s.setGrp g { s.grp g with cnt := (x.cnt + 1) % 2 ^ 32, slot := x.slot + 1, anchor := x.anchor.or (some s.now) }
  let (step, base) := rowStep f.mode f.members g
  let s := s.beginFrame g g x.cnt (s.readCfg g) step base
  (f.members.filter (· != g)).foldl (fun s m => s.matchHeld g f m) s

/-- The frame of a stream that a joined group's frame start now belongs to. -/
def State.openFrame (s : State) (g : Nat) : Option StreamFrame :=
  (s.stream (s.streamOf g)).frames.find? (fun f =>
    f.waiting.contains g && !f.begun.contains g && decide (shortFwd f.record.sof s.now ≤ f.skew))

/-- A joined group's frame start: it joins the leading group's frame, with the settings of that frame (R89), or is held with what follows it (R83). -/
def State.joinFrame (s : State) (g : Nat) : State :=
  let s := s.endEarlier g
  let lead := s.streamOf g
  match s.openFrame g with
  | some f =>
    let (step, base) := rowStep f.mode f.members g
    s.beginFrame g lead f.record.count ((((f.members.zip f.cfgs).find? (fun e => e.1 == g)).map (·.2)).getD (s.readCfg g)) step base
  | none =>
    s.setGrp g { s.grp g with
      heldSof := some s.now, line := none, discard := false, afterClose := false
      frame := some { cfg := s.readCfg g, sof := s.now, rows := 0, readouts := 0, lastEnd := none, half := none, trunc := none, stream := lead, count := 0,
                      step := 1, base := 0, kept := [], ended := none } }

/-- A frame start arrives at a group (R83, R86, R90, R96, R375). -/
def State.frameStartAt (s : State) (g : Nat) : State :=
  let s := s.endLine g
  let x := s.grp g
  if x.running = false || !s.aligned g then s else
  if s.holding 0x10 then s.setGrp g { x with discard := true } else
  if !s.leads g then s.joinFrame g else
  if s.windowed g then
    if (x.anchor.isNone && Fld.SFE.GRP_CFG_TRIGGERED s.regs g == 0) || s.inWindow g x.slot then s.acceptFrame g
    else ((s.setGrp g { x with discard := true }).bump (Adr.SFE.LATE_SOF g)).fault (groupUnit g) 0x20
  else s.acceptFrame g

/-- The frame end of a group: it closes an open record; a discarded frame's end does nothing (R92). -/
def State.frameEndAt (s : State) (g : Nat) : State :=
  let s := s.endLine g
  if (s.grp g).discard then s else s.closeFrame g false

/-- Whether a group's framing comes from embedded codes: as the frame in progress read it, else as it stands (R46, R87, R88). -/
def State.embedded (s : State) (g : Nat) : Bool :=
  match (s.grp g).frame with
  | some f => f.cfg.sync
  | none => (s.readCfg g).sync

/-- The sample width and the active lanes of a group: as the frame in progress read them, else as they stand (R46, R88). -/
def State.wordForm (s : State) (g : Nat) : Nat × Nat :=
  match (s.grp g).frame with
  | some f => (f.cfg.sampleBits, f.cfg.lanes)
  | none => (s.sampleBits g, s.laneCount g)

/-- LV_DELAY of a group in words: as the frame in progress read it, else as it stands (R46). -/
def State.lvDelay (s : State) (g : Nat) : Nat :=
  match (s.grp g).frame with
  | some f => f.cfg.lvDelay
  | none => Fld.SFE.GRP_CFG_LV_DELAY s.regs g

/-- An edge of FV or LV takes effect; a line start outside FV is ignored (R87, R92). -/
def State.edge (s : State) (g : Nat) : SfeEdge → State
  | .frameStart => (s.setGrp g { s.grp g with fv := true }).frameStartAt g
  | .lineStart => if (s.grp g).fv then s.lineStart g false else s
  | .lineEnd => s.endLine g
  | .frameEnd =>
    let s := s.frameEndAt g
    s.setGrp g { s.grp g with fv := false }

/-- One sample slot arrives: the edges delayed up to it act before it (LV_DELAY). -/
def State.slotArrives (s : State) (g v : Nat) : State :=
  let es := (s.grp g).edges
  let s := s.setGrp g { s.grp g with edges := (es.filter (fun e => e.1 != 0)).map (fun e => (e.1 - 1, e.2)) }
  ((es.filter (fun e => e.1 == 0)).foldl (fun s e => s.edge g e.2) s).sample g v

/-- The sample slots that arrived since the group's last event, in the order of R81, those between lines included. -/
def State.samples (s : State) (g : Nat) (vs : List Nat) : State := vs.foldl (fun s v => s.slotArrives g v) s

/-- An edge at a pin: sampled at a word boundary and delayed by LV_DELAY words; with embedded codes the pins are not used (R87). -/
def State.pinEdge (s : State) (g : Nat) (e : SfeEdge) : State :=
  if s.embedded g then s else
  let d := s.lvDelay g * (s.wordForm g).2
  if d = 0 ∧ (s.grp g).edges = [] then s.edge g e else s.setGrp g { s.grp g with edges := (s.grp g).edges ++ [(d, e)] }

/-- SENSOR_FRAME_START: FV rises (R87, R90). -/
def sensorFrameStart (g : Nat) (arrived : List Nat) (s : State) : State := (s.samples g arrived).pinEdge g .frameStart

/-- SENSOR_LINE_START: LV rises (R87, R92). -/
def sensorLineStart (g : Nat) (arrived : List Nat) (s : State) : State := (s.samples g arrived).pinEdge g .lineStart

/-- SENSOR_LINE_END: LV falls (R92). -/
def sensorLineEnd (g : Nat) (arrived : List Nat) (s : State) : State := (s.samples g arrived).pinEdge g .lineEnd

/-- SENSOR_FRAME_END: FV falls (R92). -/
def sensorFrameEnd (g : Nat) (arrived : List Nat) (s : State) : State := (s.samples g arrived).pinEdge g .frameEnd

/-- INPUT_OVERFLOW: a sample that finds the buffer full truncates the frame (R93). -/
def inputOverflow (g v : Nat) (s : State) : State := s.sample g v

/-- SKIPPED records whose turn has come in a stream go to raw conditioning (R90). -/
def State.sendSkipped (s : State) (n : Nat) : State :=
  let fs := (s.stream n).frames
  let now := fs.takeWhile (·.skipped)
  now.foldl (fun s f => s.toRaw n (.skipped f.record)) (s.setStream n { s.stream n with frames := fs.drop now.length })

/-- A slot's SKIPPED record takes its turn behind the frames of the stream that have not left (R90). -/
def State.skipSlot (s : State) (g e : Nat) : State :=
  let x := s.grp g
  let r := s.newRec x.cnt e (Fld.SFE.MODE_ID s.regs g) 8
  let s := (s.bump (Adr.SFE.SKIPPED g)).isoFrame g x.cnt
  let f : StreamFrame :=
    { record := r, mode := 0, members := [], cfgs := [], height := 0, skipped := true, begun := [], waiting := [], got := [], started := false, sent := 0,
      stamp0 := none, stamp1 := none, skew := 0 }
  let s := s.setStream g { s.stream g with latest := r, frames := (s.stream g).frames ++ [f] }
  (s.sendSkipped g).setGrp g { (s.sendSkipped g).grp g with cnt := (x.cnt + 1) % 2 ^ 32, slot := x.slot + 1 }

/-- WINDOW_CLOSE: the window of the next slot has closed with no accepted frame start (R90, R375). -/
def windowClose (g : Nat) (s : State) : State :=
  let x := s.grp g
  if x.running = false || !s.leads g || !s.windowed g then s else
  match s.expected g x.slot with
  | none => s
  | some e =>
    if !s.reached ((e + Fld.SFE.FS_LATE s.regs g) % 2 ^ 40) then s else
    if s.holding 0x10 then s.setGrp g { x with cnt := (x.cnt + 1) % 2 ^ 32, slot := x.slot + 1 }
    else s.skipSlot g e

/-- CLOSE_TIMEOUT: the record closes untagged CLOSE_TIMEOUT after row GEO_HEIGHT − 1 has ended (R92). -/
def closeTimeout (g : Nat) (s : State) : State :=
  match (s.grp g).frame with
  | some f => match f.lastEnd with
    | some t => if f.cfg.closeNs ≤ shortFwd t s.now then s.closeFrame g false else s
    | none => s
  | none => s

/-- A joined group contributes pad lines for its whole share: SHORT with GROUP_MISSING (R83, R95). They follow the rows of an earlier frame of the group that
is still open. -/
def State.missingShare (s : State) (lead g : Nat) (f : StreamFrame) : State :=
  let pads := SfeItem.pads (if f.mode = 2 then f.height / f.members.length else f.height)
  let x := s.grp g
  let s := s.setGrp g (if x.frame.isSome && x.heldSof.isNone then { x with owed := x.owed ++ [pads] } else { x with queue := x.queue ++ [pads] })
  (s.markBegun lead g f.record.count).closeShare lead g f.record.count 0 (shareTags true false none (some g))

/-- The oldest frame of a stream whose start a joined group has missed: JOIN_SKEW has passed since, and the group's own has not come (R83). -/
def State.missedFrame (s : State) (n g : Nat) : Option StreamFrame :=
  (s.stream n).frames.find? (fun f => f.waiting.contains g && !f.begun.contains g && decide (f.skew < shortFwd f.record.sof s.now))

/-- JOIN_SKEW_EXPIRY: JOIN_SKEW has passed since a group's held frame start, or since the leading frame start that it missed as a member, even where GRP_MODE
has since changed (R46, R83). -/
def joinSkewExpiry (g : Nat) (s : State) : State :=
  let s := if (s.grp g).heldSof.isSome && !s.heldFits g then s.dropHeld g else s
  (List.range 4).foldl (fun s n => match s.missedFrame n g with
    | some f => s.missingShare n g f
    | none => s) s

/-! ### Embedded sync codes (R88) -/

/-- Whether words 0 to 2 of a lane's code match. -/
def codeMatches (w : Nat) (c : List Nat) : Bool := nth 0 c 0 == 2 ^ w - 1 && nth 1 c 1 == 0 && nth 1 c 2 == 0

/-- The TYPE of a lane's word 3, where CHECK is its complement, the lower bits are 0 and the TYPE is listed. -/
def codeType (w : Nat) (c : List Nat) : Option Nat :=
  let x := nth 0 c 3
  let t := x / 2 ^ (w - 4)
  if x / 2 ^ (w - 8) % 16 = 15 - t % 16 ∧ x % 2 ^ (w - 8) = 0 ∧ 8 ≤ t ∧ t ≤ 0xC then some t else none

/-- The TYPE that more than half of the lanes agree on. -/
def majorityType (w : Nat) (lanes : List (List Nat)) : Option Nat :=
  [8, 9, 0xA, 0xB, 0xC].find? (fun t => decide (lanes.length < 2 * (lanes.filter (fun c => codeMatches w c && decide (codeType w c = some t))).length))

/-- The lanes' four words as sample slots in order: sample k travels on lane k mod N (R81). -/
def interleave (lanes : List (List Nat)) : List Nat := (List.range 4).flatMap (fun j => lanes.map (fun c => nth 0 c j))

/-- SYNC_CODE (R88). With FV/LV framing the words are sample slots. A group parses codes, and counts SYNC_ERR, whether or not it is enabled, ALIGNED or under
HOLD. DESIGN CHOICE (assumption 159). -/
def syncCode (g : Nat) (arrived : List Nat) (words : List (List Nat)) (s : State) : State :=
  let s := s.samples g arrived
  let w := (s.wordForm g).1
  let lanes := words.take (s.wordForm g).2
  if !s.embedded g then s.samples g (interleave lanes) else
  let hits := (lanes.filter (codeMatches w)).length
  match majorityType w lanes with
  | some t =>
    let wrong := (lanes.filter (fun c => !(codeMatches w c && decide (codeType w c = some t)))).length
    let s := s.bumpBy (Adr.SFE.SYNC_ERR g) wrong
    match t with
    | 8 => (s.frameStartAt g).lineStart g false
    | 9 => s.lineStart g false
    | 0xA => s.endLine g
    | 0xB => s.frameEndAt g
    | _ => s.lineStart g true
  | none =>
    if lanes.length < 2 * hits then s.bump (Adr.SFE.SYNC_ERR g) else
    let s := s.samples g (interleave lanes)
    if 0 < hits then s.bump (Adr.SFE.SYNC_ERR g) else s

/-! ### Training and clock loss (R84 to R86, R95) -/

/-- The line and the frame in progress end as short, as on a clock loss (R95). -/
def State.breakFrame (s : State) (g : Nat) : State :=
  let s := if (s.grp g).heldSof.isSome then s.dropHeld g else (s.endLine g).closeFrame g false
  s.setGrp g { s.grp g with discard := false, fv := false, edges := [] }

/-- Loss of alignment on a clock loss (R95). -/
def State.loseClock (s : State) (g : Nat) : State :=
  if s.aligned g then ((s.breakFrame g).setFld (Adr.SFL.DESKEW_STAT g) 0 1 0).condOn (groupUnit g) (groupUnit g) 0x06 else s

/-- SENSOR_CLOCK_LOSS (R95): a group that is not ALIGNED detects none. -/
def sensorClockLoss (g : Nat) (s : State) : State := s.loseClock g

/-- START of one group's training (R84 to R86). -/
def State.trainGroup (s : State) (g : Nat) : State :=
  let s := if (s.grp g).running then s.breakFrame g else s
  let s := (List.range 20).foldl (fun s l => s.setFld (Adr.SFL.LANE_POS (20 * g + l)) 16 1 0) s
  let s : State := { s with trainFrom := SMap.put s.trainFrom g s.elapsed }
  let r := Fld.SFL.RATE s.regs g
  if r < 800 ∨ 6000 < r then s.setReg (Adr.SFL.DESKEW_STAT g) (4 + (2 ^ s.laneCount g - 1) * 2 ^ 8)
  else s.setReg (Adr.SFL.DESKEW_STAT g) 2

/-- TRAINING_START: bit g starts training of group g (R84). -/
def trainingStart (mask : Nat) (s : State) : State := (List.range 4).foldl (fun s g => if bitOf mask g then s.trainGroup g else s) s

/-- The marker position that word offsets are measured from: lane 0's, or that of the lowest lane that found one (R84). -/
def refMarker (lanes : List LaneFound) : Option Int :=
  match lanes with
  | l0 :: _ => if 0 < l0.eyeTaps ∧ l0.marker.isSome = true then l0.marker else (lanes.find? (fun l => l.marker.isSome)).bind (·.marker)
  | [] => none

/-- A lane's word offset, where its marker lay within ±8 words of the reference. -/
def wordOfs (ref : Option Int) (l : LaneFound) : Option Int :=
  match ref, l.marker with
  | some r, some m => if (m - r).natAbs ≤ 8 then some (m - r) else none
  | _, _ => none

/-- Store what training found on the lanes from lane n on; the failed lanes as a mask (R84, R85). -/
def State.storeFound (s : State) (g : Nat) (ref : Option Int) (lane0Ok : Bool) : Nat → List LaneFound → State × Nat
  | _, [] => (s, 0)
  | n, l :: r =>
    let ofs := wordOfs ref l
    let bad := decide (l.eyeTaps < 8) || ofs.isNone || (n == 0 && !lane0Ok)
    let s := s.setReg (Adr.SFL.LANE_POS (20 * g + n))
      ((if l.eyeTaps = 0 then 0 else l.centre % 64) + unsigned (ofs.getD 0) 5 * 2 ^ 8 + b2n (decide (l.eyeTaps < 8)) * 2 ^ 16)
    let (s, m) := s.storeFound g ref lane0Ok (n + 1) r
    (s, m + if bad then 2 ^ n else 0)

/-- What training found on every active lane: a lane it names nothing of has no eye and no marker (R84). -/
def State.allLanes (s : State) (g : Nat) (found : List LaneFound) : List LaneFound :=
  found.take (s.laneCount g) ++ List.replicate (s.laneCount g - found.length) { eyeTaps := 0, centre := 0, marker := none }

/-- Training of a group has not ended within 256 µs of its START (R84). -/
def State.trainingLate (s : State) (g : Nat) : Bool := decide (SMap.get (fun _ => 0) s.trainFrom g + 256000 < s.elapsed)

/-- TRAINING_DONE: within 256 µs and with every active lane good the group is ALIGNED, else FAIL names the lanes that are not (R84, R95). -/
def trainingDone (g : Nat) (found : List LaneFound) (s : State) : State :=
  if Fld.SFL.DESKEW_STAT_BUSY s.regs g = 0 then s else
  let found := s.allLanes g found
  let lane0Ok := match found with
    | l :: _ => decide (0 < l.eyeTaps) && l.marker.isSome
    | [] => false
  let (s, m) := s.storeFound g (refMarker found) lane0Ok 0 found
  if m = 0 ∧ s.trainingLate g = false then (s.setReg (Adr.SFL.DESKEW_STAT g) 1).condOff (groupUnit g) (groupUnit g) 0x06
  else s.setReg (Adr.SFL.DESKEW_STAT g) (4 + m * 2 ^ 8)

/-- TAP_TRACK: a tracking lane moves at most one step and updates EYE_LOW (R85); a lane that the group does not use is ignored (R80). -/
def tapTrack (g l : Nat) (toward : Int) (eyeTaps : Nat) (s : State) : State :=
  if !s.aligned g || !bitOf (Fld.SFL.TRACK_CTL_EN s.regs) g || decide (s.laneCount g ≤ l) then s else
  let a := Adr.SFL.LANE_POS (20 * g + l)
  let step : Int := if 0 < toward then 1 else if toward < 0 then -1 else 0
  (s.setFld a 0 6 (sat ((s.regs.fld a 0 6 : Int) + step) 0 63).toNat).setFld a 16 1 (b2n (decide (eyeTaps < 8)))

/-- A write of RATE_g takes effect at once, and an ALIGNED group loses alignment (the Caution of SFL.RATE). -/
def rateWrite (g v : Nat) (s : State) : State := (s.setReg (Adr.SFL.RATE g) (v % 2 ^ 13)).loseClock g

/-! ### Forwarding to raw conditioning (R20, R93, R370, R372) -/

/-- Take one row from a group's output queue. -/
def SfeGroup.pop (x : SfeGroup) : Option (RawRow × SfeGroup) :=
  let padRow : RawRow := { lo := [], hi := [], short := false, long := false, pad := true, stamp := none }
  match x.queue with
  | [] => none
  | .row r :: q => some (r, { x with queue := q })
  | .pads n :: q => some (padRow, { x with queue := if n ≤ 1 then q else .pads (n - 1) :: q })

/-- A strip of a row as it is sent: a pad line holds PAD_CODE samples, in dual-gain mode for both readouts. -/
def padStrip (c : SfeCfg) (r : RawRow) : RawRow :=
  if r.pad then { r with lo := List.replicate c.width c.padCode, hi := if c.dual then List.replicate c.width c.padCode else [] } else r

/-- Join the strips of a COLUMN_SPLIT row: PAD only where every strip is padding (R372). -/
def joinStrips (rs : List RawRow) : RawRow :=
  { lo := rs.flatMap (·.lo), hi := rs.flatMap (·.hi), short := rs.any (·.short), long := rs.any (·.long), pad := rs.all (·.pad),
    stamp := (rs.find? (fun r => r.stamp.isSome)).bind (·.stamp) }

/-- Pop one row from each listed group; none where one of them has none ready. -/
def State.popRows (s : State) : List (Nat × SfeCfg) → Option (List RawRow × State)
  | [] => some ([], s)
  | (g, c) :: r =>
    match (s.grp g).pop with
    | none => none
    | some (row, x) => match (s.setGrp g x).popRows r with
      | none => none
      | some (rows, t) => some (padStrip c row :: rows, t)

/-- The stamp a row carries: its line start, or F + n × I on a pad line that replaces the first line of line group n (R370). -/
def rowStamp (f : StreamFrame) (interval : Nat) (r : RawRow) : Option Nat :=
  if f.sent % 16 = 0 then (if r.pad then some ((f.record.sof + f.sent / 16 * interval) % 2 ^ 40) else r.stamp) else none

/-- The groups that carry the next row of a frame. -/
def StreamFrame.rowGroups (f : StreamFrame) : List (Nat × SfeCfg) :=
  let all := f.members.zip f.cfgs
  if f.mode = 2 then (all.drop (f.sent % max 1 f.members.length)).take 1 else all

/-- Finish the first frame of a stream once its record has closed and every row has left. -/
def State.finishFrame (s : State) (n : Nat) : State :=
  let st := s.stream n
  match st.frames with
  | f :: rest =>
    if f.started && f.waiting.isEmpty && decide (f.height ≤ f.sent) then
      let interval := match f.stamp0, f.stamp1 with
        | some a, some b => shortFwd a b
        | _, _ => st.interval
      ((s.setStream n { st with frames := rest, interval := interval }).toRaw n (.finish f.record)).sendSkipped n
    else s
  | [] => s

/-- Raw conditioning takes no further row: HOLD stalls it at a frame boundary (R37), and a row it has not taken yet stalls its producer (R19, R20, R93; it
holds one row ahead, DESIGN CHOICE, assumption 40). -/
def State.rawStalled (s : State) (n : Nat) : Bool :=
  let x := SMap.get (fun _ => rcnCtxReset) s.rcn n
  (x.running && s.holding 0x12 && x.frame.isNone) ||
  (SMap.get (fun _ => []) s.rawIn n).any (fun i => match i with
    | .row _ => true
    | _ => false)

/-- LINE_FORWARD: a complete row, or a pad line, goes to raw conditioning; the frame's start goes before its first row, once every member's frame start has come
or can no longer come, and its record after its last (R83, R93). -/
def lineForward (n : Nat) (s : State) : State :=
  if s.rawStalled n then s else
  let st := s.stream n
  match st.frames with
  | [] => s
  | f :: rest =>
    if f.height ≤ f.sent then s.finishFrame n else
    if !f.members.all (fun m => f.begun.contains m) then s else
    match s.popRows f.rowGroups with
    | none => s
    | some (rows, s) =>
      let s := if f.started then s else s.toRaw n (.start f.record f.mode f.cfgs f.height)
      let row := joinStrips rows
      let row := { row with stamp := rowStamp f st.interval row }
      let real := if row.pad then none else row.stamp
      let f := { f with started := true, sent := f.sent + 1, stamp0 := if f.sent = 0 then real else f.stamp0, stamp1 := if f.sent = 16 then real else f.stamp1 }
      ((s.setStream n { st with frames := f :: rest }).toRaw n (.row row)).finishFrame n

/-! ### Apply points of the SFE page (R72, R90, R91, R96, R98, R376) -/

/-- Whether an ADMITTED flow lets a group start: owned by 0x100 or by the group's unit, with the group's SFE resource. -/
def State.groupAdmitted (s : State) (g : Nat) : Bool :=
  s.admitted.any (fun e => (e.2.owner == 0x100 || e.2.owner == groupUnit g) && e.2.pairs.any (fun c => c.1 == g))

/-- Whether a group is to run as the registers stand. -/
def State.groupWanted (s : State) (g : Nat) : Bool := s.enabled 0x10 && Fld.SFE.GRP_CFG_EN s.regs g == 1

/-- Whether a group's V triggers run as the registers stand. -/
def State.vtWanted (s : State) (g : Nat) : Bool := s.enabled 0x10 && Fld.SFE.TRIG_CFG_VT_EN s.regs g == 1

/-- One group at an apply point of the SFE page. -/
def State.applyGroup (s : State) (old : RegFile) (g : Nat) : State :=
  let x := s.grp g
  let num := Fld.SFE.FRM_RATE_NUM s.regs g
  let den := Fld.SFE.FRM_RATE_DEN s.regs g
  let winEn := Fld.SFE.GRP_CFG_WINDOW_EN s.regs g == 1
  let rateOk := decide (num ≠ 0) && decide (den ≠ 0)
  let early := Fld.SFE.FS_EARLY s.regs g
  let late := Fld.SFE.FS_LATE s.regs g
  let changed := Fld.SFE.GRP_CFG_WINDOW_EN old g == 0 || Fld.SFE.FS_EARLY old g != early || Fld.SFE.FS_LATE old g != late ||
    Fld.SFE.FRM_RATE_NUM old g != num || Fld.SFE.FRM_RATE_DEN old g != den
  let fits := decide (early + late < periodNs num den)
  let badRate := !rateOk && (winEn || Fld.SFE.GRP_CFG_TRIGGERED s.regs g == 1 || Fld.SFE.TRIG_CFG_VT_EN s.regs g == 1)
  let badWin := rateOk && winEn && changed && !fits
  let s := if badRate || badWin then s.fault (groupUnit g) 0x07 else s
  let s := s.setGrp g { x with rateOk := rateOk, windowOk := if winEn && changed && rateOk then fits else x.windowOk }
  -- enable and disable
  let s :=
    if s.groupWanted g && !x.running then
      if s.groupAdmitted g then
        let (slot, s) :=
          if Fld.SFE.GRP_CFG_TRIGGERED s.regs g = 1 && rateOk then
            s.firstSlot ((s.trigStart g + Fld.SFE.SOF_DELAY s.regs g + late) % 2 ^ 40) num den
          else (0, s)
        let s : State := { s with sns := { s.sns with lanes := insertNat g s.sns.lanes } }
        let cnt := Fld.SFE.FRM_CNT_INIT s.regs g
        s.setGrp g { s.grp g with running := true, cnt := cnt, anchor := none, slot := slot, discard := false, afterClose := false }
      else s.fault (groupUnit g) 0x07
    else if !s.groupWanted g && x.running then
      let s := s.breakFrame g
      s.setGrp g { s.grp g with running := false, afterClose := false }
    else s
  -- triggers
  let x := s.grp g
  if s.vtWanted g && rateOk then
    if x.trigOn then s else
      let (k, s) := s.firstSlot (s.trigStart g) num den
      { s with sns := { s.sns with triggers := insertNat g s.sns.triggers } : State }.setGrp g { s.grp g with trigOn := true, trig := k, hLeft := 0 }
  else s.setGrp g { x with trigOn := false, hLeft := 0 }

/-- The settings with which a member takes part in a frame. -/
def StreamFrame.cfgOf (f : StreamFrame) (g : Nat) : Option SfeCfg := ((f.members.zip f.cfgs).find? (fun e => e.1 == g)).map (·.2)

/-- The frame of a stream as its leading group's start reads it again: mode, members, settings and record (R96). Members that have begun keep what they read
but for the height, which is the leading group's (R83), and a share that has closed stays closed, SHORT or LONG as that height makes it. -/
def State.rereadFrame (s : State) (g : Nat) (f : StreamFrame) : StreamFrame :=
  let n := s.newFrame g f.record.count f.record.sof
  let h := (s.readCfg g).height
  let closed := f.got.filter (fun e => n.members.contains e.1)
  let got := closed.map (fun e => (e.1, min e.2 h))
  { n with
    begun := f.begun.filter (fun m => n.members.contains m), waiting := n.members.filter (fun m => !closed.any (fun e => e.1 == m)), got := got
    cfgs := (n.members.zip n.cfgs).map (fun e => match f.cfgOf e.1 with
      | some c => if e.1 != g && f.begun.contains e.1 then { c with height := h } else e.2
      | none => e.2)
    record := { f.record with
      modeId := n.record.modeId, lines := if closed.isEmpty then f.record.lines else linesReceived n.mode n.members got
      tags := n.record.tags + b2n (closed.any (fun e => decide (e.2 < h))) +
        2 * b2n (bitOf f.record.tags 1 || closed.any (fun e => decide (h < e.2))) + 4 * b2n (bitOf f.record.tags 2) } }

/-- Take the last `n` rows off a queue that is listed last item first. -/
def trimLast : List SfeItem → Nat → List SfeItem
  | [], _ => []
  | .row r :: q, n => if n = 0 then .row r :: q else trimLast q (n - 1)
  | .pads k :: q, n => if k ≤ n then trimLast q (n - k) else .pads (k - n) :: q

/-- Take the last `n` rows off a group's output queue. -/
def SfeGroup.trim (x : SfeGroup) (n : Nat) : SfeGroup := { x with queue := (trimLast x.queue.reverse n).reverse }

/-- A member that had begun before its leading group's frame start read its settings: its share takes that frame's height and place, rows beyond it are long
lines; the rows of one that is no member any more belong to no accepted frame start (R83, R96; the latter DESIGN CHOICE, assumption 160). -/
def State.refit (s : State) (old new : StreamFrame) (g m : Nat) : State :=
  let x := s.grp m
  let member := new.members.contains m
  let h := ((new.cfgOf m).map (·.height)).getD 0
  let (step, base) := rowStep new.mode new.members m
  match old.got.find? (fun e => e.1 == m), x.frame with
  | some e, _ =>
    let all := ((old.cfgOf m).map (·.height)).getD 0
    if member then
      let k := min e.2 h
      let y := x.trim (all - k)
      s.setGrp m { y with queue := y.queue ++ if k < h then [.pads (h - k)] else [] }
    else (s.setGrp m (x.trim all)).bump (Adr.SFE.LATE_SOF m)
  | none, some f =>
    if f.stream ≠ g ∨ f.count ≠ old.record.count ∨ x.heldSof.isSome = true then s
    else if !member then (s.setGrp m { x.trim f.rows with frame := none, line := none, discard := true }).bump (Adr.SFE.LATE_SOF m)
    else if f.rows ≤ h then s.setGrp m { x with frame := some { f with cfg := { f.cfg with height := h }, step := step, base := base } }
    else
      ((s.setGrp m { x.trim (f.rows - h) with frame := none, line := none, afterClose := true }).bumpBy (Adr.SFE.LONG_LINES m) (f.rows - h)).closeShare
        g m f.count h (shareTags false true none none)
  | none, none => s

/-- The leading group's frame start reads its settings again: its stream's frame, its own part of it and the parts of members that have begun (R83, R96). -/
def State.rereadStream (s : State) (g : Nat) (f : StreamFrame) : State :=
  let n := s.rereadFrame g f
  let s := s.setStream g ((s.stream g).editFrame g f.record.count (fun _ => n))
  (f.begun.filter (· != g)).foldl (fun s m => s.refit f n g m) s

/-- A change applied at a group's SENSOR_FRAME_START governs the frame that starts there (R96): nothing of its rows has arrived. -/
def State.reread (s : State) (g : Nat) : State :=
  let x := s.grp g
  match x.frame with
  | some f =>
    let fresh := match x.line with
      | some l => l.samples.isEmpty && l.excess == 0
      | none => true
    if f.readouts = 0 ∧ fresh = true ∧ x.heldSof.isNone = true then
      let st := s.stream f.stream
      if g = f.stream then
        match st.frames.find? (fun e => e.owes g f.count) with
        | some e =>
          if e.started || !s.leads g then s else
          let (step, base) := rowStep s.grpMode (s.membersOf g) g
          let s := s.rereadStream g e
          s.setGrp g { s.grp g with frame := some { f with cfg := s.readCfg g, step := step, base := base } }
        | none => s
      else
        let cfg := { s.readCfg g with height := f.cfg.height }
        (s.setGrp g { x with frame := some { f with cfg := cfg } }).setStream f.stream (st.editFrame g f.count (fun fr =>
          { fr with cfgs := (fr.members.zip fr.cfgs).map (fun e => if e.1 = g then cfg else e.2) }))
    else s
  | none => s

/-! ### Master clocks and pins (R97, R100) -/

/-- The divider of a master clock: INT, from 16 to 400 (R41), and FRAC / 2^24. -/
def State.mclkDivider (s : State) (c : Nat) : Nat :=
  inRange (Adr.SFE.MCLK_INT c) (Fld.SFE.MCLK_INT_INT s.regs c) 16 400 * 2 ^ 24 + s.rd (Adr.SFE.MCLK_FRAC c)

/-- Whether a master clock is to run: EN, once the sensor control functions have been enabled (R97, R100). -/
def State.mclkWanted (s : State) (c : Nat) : Bool := s.sns.control && Fld.SFE.MCLK_INT_EN s.regs c == 1

/-- A master clock takes its settings at its next rising edge, with no shortened phase (R97). -/
def State.setMclk (s : State) (c : Nat) : State :=
  let was := (s.sns.mclk.find? (fun e => e.1 == c)).map (·.2)
  let now := if s.mclkWanted c then some (s.mclkDivider c) else none
  if was = now then s else
  { s with sns := { s.sns with mclk := match now with
    | some d => SMap.put s.sns.mclk c d
    | none => SMap.del s.sns.mclk c } : State }.emit (.masterClock c now)

/-- The sensor control functions are enabled with the page's first applied ENABLE (R100). -/
def State.enableControl (s : State) : State :=
  if s.enabled 0x10 && !s.sns.control then (List.range 4).foldl State.setMclk { s with sns := { s.sns with control := true } } else s

/-- The pins of the sensor front end (R100). -/
inductive SnsPin where
  | data (g lane : Nat) | clock (g : Nat) | fv (g : Nat) | lv (g : Nat) | mclk (c : Nat) | vtrig (g : Nat) | htrig (g : Nat) | spiCs (c : Nat)
  | spiClk (c : Nat) | spiMosi (c : Nat) | scl (c : Nat) | sda (c : Nat)
deriving DecidableEq, Repr

/-- What a pin shows its partner (R80, R100): high impedance with no termination; an input that is ignored, or sampled; a pull resistor; an open drain that is
released; or the function of the pin. -/
inductive PinShows where
  | highZ | ignored | pullDown | pullUp | released | inUse
deriving DecidableEq, Repr

/-- The pins as they stand: in reset, until the function concerned is first enabled by an applied update, as R100 lists them; an unused lane stays unterminated
(R80). SNS_HTRIG goes with its group's V triggers, and SNS_MCLK is back at its pull-down while its clock is stopped. DESIGN CHOICE (assumption 158). -/
def State.snsPin (s : State) : SnsPin → PinShows
  | .data g l => if s.sns.lanes.contains g && decide (l < s.laneCount g) then .inUse else .highZ
  | .clock g => if s.sns.lanes.contains g then .inUse else .highZ
  | .fv g | .lv g => if s.sns.lanes.contains g then .inUse else .ignored
  | .mclk c => if s.sns.control && (s.sns.mclk.any (fun e => e.1 == c)) then .inUse else .pullDown
  | .vtrig g | .htrig g => if s.sns.triggers.contains g then .inUse else .pullDown
  | .spiCs _ => if s.sns.control then .inUse else .pullUp
  | .spiClk _ | .spiMosi _ => if s.sns.control then .inUse else .pullDown
  | .scl _ | .sda _ => if s.sns.control then .inUse else .released

/-- The SFE page at an apply point; `rr g` says that the apply point is group g's own SENSOR_FRAME_START. -/
def State.applySfe (s : State) (old : RegFile) (rr : Nat → Bool) : State :=
  (List.range 4).foldl (fun s g => let s := s.applyGroup old g; if rr g then s.reread g else s) s.enableControl

/-- V_TRIGGER: trigger k starts at its slot time (R98). -/
def vTrigger (g : Nat) (s : State) : State :=
  let x := s.grp g
  let t := slotTime (s.trigStart g) (Fld.SFE.FRM_RATE_NUM s.regs g) (Fld.SFE.FRM_RATE_DEN s.regs g) x.trig
  if !x.trigOn || !s.reached t then s else
  let s := s.emit (.trigger g false (Fld.SFE.TRIG_CFG_POL s.regs g == 1) (Fld.SFE.TRIG_CFG_VT_WIDTH s.regs g * 64))
  s.setGrp g { s.grp g with
    trig := x.trig + 1
    hLeft := if Fld.SFE.TRIG_CFG_HT_EN s.regs g = 1 then Fld.SFE.HT_COUNT s.regs g else 0
    hNext := (t + Fld.SFE.HT_DELAY s.regs g) % 2 ^ 40 }

/-- H_TRIGGER: one of the HT_COUNT pulses that follow a V trigger, the first HT_DELAY after it and the rest every HT_PERIOD (R98); none without a frame rate
(R376). -/
def hTrigger (g : Nat) (s : State) : State :=
  let x := s.grp g
  if x.hLeft = 0 || !x.trigOn || !s.reached x.hNext then s else
  let s := s.emit (.trigger g true (Fld.SFE.TRIG_CFG_POL s.regs g == 1) (Fld.SFE.HT_PERIOD s.regs g / 2))
  s.setGrp g { s.grp g with hLeft := x.hLeft - 1, hNext := (x.hNext + Fld.SFE.HT_PERIOD s.regs g) % 2 ^ 40 }

/-- CNT_RESTART of SFE: bit g restarts group g's counters. -/
def sfeCounters : List (List RegAddr) :=
  (List.range 4).map (fun g => [Adr.SFE.SHORT_LINES g, Adr.SFE.LONG_PIXELS g, Adr.SFE.LONG_LINES g, Adr.SFE.LATE_SOF g, Adr.SFE.SKIPPED g,
    Adr.SFE.TRUNCATED g, Adr.SFE.SYNC_ERR g])

/-- Words KSK_DATA0 to 5 of a frame record. -/
def FrameRec.words (r : FrameRec) : List Nat :=
  [r.count, r.sof % 2 ^ 32, r.sof / 2 ^ 32 % 2 ^ 8 + r.modeId * 2 ^ 8 + r.tags * 2 ^ 16 + r.missing * 2 ^ 24, r.lines + r.firstDropped * 2 ^ 16, r.epoch,
   r.timecode]

/-! ### SPI and I2C masters (R99) -/

/-- A serial master of the SPI or I2C bank, and storing it. -/
def State.spiOf (s : State) (c : Nat) : SerialMaster := SMap.get (fun _ => serialReset) s.spi c
def State.setSpi (s : State) (c : Nat) (m : SerialMaster) : State := { s with spi := SMap.set (fun _ => serialReset) s.spi c m }
def State.i2cOf (s : State) (c : Nat) : SerialMaster := SMap.get (fun _ => serialReset) s.i2c c
def State.setI2c (s : State) (c : Nat) (m : SerialMaster) : State := { s with i2c := SMap.set (fun _ => serialReset) s.i2c c m }

/-- The bytes a command moves: LEN, from 1 to 64; another value acts as an unknown one of these (R41). -/
def cmdLen (a : RegAddr) (cmd : Nat) : Nat := inRange a (bits cmd 0 7) 1 64

/-- DIV of an SPI master: SCLK is at most 50 MHz, so that 0 acts as an unknown value from 1 on (R41, R99). DESIGN CHOICE (assumption 157). -/
def spiDiv (rf : RegFile) (c : Nat) : Nat := inRange (Adr.SFE.SPI_CFG c) (Fld.SFE.SPI_CFG_DIV rf c) 1 255

/-- An SPI transaction starts: the transmit bytes leave the FIFO. `deferred` is what waits for an update group beside it. Nothing leaves on pins that reset
still holds (R100). -/
def State.spiStart (s : State) (c cmd : Nat) (deferred : Option Nat) : State :=
  let m := s.spiOf c
  let len := cmdLen (Adr.SFE.SPI_CMD c) cmd
  let s := (s.setSpi c { tx := m.tx.drop len, rx := [], deferred := deferred }).setReg (Adr.SFE.SPI_STAT c) (1 + 2 * b2n deferred.isSome)
  if s.sns.control then s.emit (.spiStart c (Fld.SFE.SPI_CFG_MODE s.regs c) (spiDiv s.regs c) len (m.tx.take len)) else s

/-- SPI_GO: a write of SPI_CMD with GO starts or defers a transaction; while BUSY it is ignored (R99). DEFER without GO does nothing. DESIGN CHOICE
(assumption 157). -/
def spiGo (c : Nat) (cmd : Nat) (s : State) : State :=
  if bits cmd 8 1 = 0 || Fld.SFE.SPI_STAT_BUSY s.regs c == 1 then s else
  if bitOf cmd 9 then (s.setSpi c { s.spiOf c with deferred := some cmd }).setFld (Adr.SFE.SPI_STAT c) 1 1 1
  else s.spiStart c cmd (s.spiOf c).deferred

/-- SPI_DONE: the transaction completes with the received bytes and clears BUSY (R99). -/
def spiDone (c : Nat) (rx : List Byte) (s : State) : State :=
  if Fld.SFE.SPI_STAT_BUSY s.regs c = 0 then s else
  let rx := rx.take 64
  (s.setSpi c { s.spiOf c with rx := rx }).setReg (Adr.SFE.SPI_STAT c) (2 * b2n (s.spiOf c).deferred.isSome + rx.length * 2 ^ 8)

/-- A push to a 64-byte transmit FIFO; a byte beyond 64 is lost. -/
def pushFifo (q : List Byte) (b : Byte) : List Byte := if q.length < 64 then q ++ [b] else q

/-- SPI_DATA: a write pushes a byte to send, a read pops a received byte (R99). -/
def spiData (c : Nat) (a : Access) (s : State) : State :=
  let m := s.spiOf c
  match a with
  | .write v => s.setSpi c { m with tx := pushFifo m.tx (BitVec.ofNat 8 v.toNat) }
  | .read =>
    let rx := m.rx.drop 1
    (s.setSpi c { m with rx := rx }).setFld (Adr.SFE.SPI_STAT c) 8 7 rx.length

/-- An I2C transaction starts; NACK clears at GO. `deferred` is what waits for an update group beside it. -/
def State.i2cStart (s : State) (c cmd : Nat) (deferred : Option Nat) : State :=
  let m := s.i2cOf c
  let len := cmdLen (Adr.SFE.I2C_CMD c) cmd
  let read := bitOf cmd 7
  let s := (s.setI2c c { tx := if read then m.tx else m.tx.drop len, rx := [], deferred := deferred }).setReg (Adr.SFE.I2C_STAT c) (1 + 4 * b2n deferred.isSome)
  if s.sns.control then
    s.emit (.i2cStart c (listed (Adr.SFE.I2C_CFG c) (Fld.SFE.I2C_CFG_SPEED s.regs c) 3) (Fld.SFE.I2C_CFG_ADDR s.regs c) len read
      (if read then [] else m.tx.take len))
  else s

/-- I2C_GO (R99). DEFER without GO does nothing, and a deferred GO clears NACK when its transaction starts, not when it is written. DESIGN CHOICE
(assumption 157). -/
def i2cGo (c : Nat) (cmd : Nat) (s : State) : State :=
  if bits cmd 8 1 = 0 || Fld.SFE.I2C_STAT_BUSY s.regs c == 1 then s else
  if bitOf cmd 9 then (s.setI2c c { s.i2cOf c with deferred := some cmd }).setFld (Adr.SFE.I2C_STAT c) 2 1 1
  else s.i2cStart c cmd (s.i2cOf c).deferred

/-- I2C_DONE: the transaction completes, or a NACK ends it with STOP (R99). -/
def i2cDone (c : Nat) (nack : Bool) (rx : List Byte) (s : State) : State :=
  if Fld.SFE.I2C_STAT_BUSY s.regs c = 0 then s else
  let rx := rx.take 64
  (s.setI2c c { s.i2cOf c with rx := rx }).setReg (Adr.SFE.I2C_STAT c) (b2n nack * 2 + 4 * b2n (s.i2cOf c).deferred.isSome + rx.length * 2 ^ 8)

/-- I2C_DATA: a write pushes a byte to send, a read pops a received byte (R99). -/
def i2cData (c : Nat) (a : Access) (s : State) : State :=
  let m := s.i2cOf c
  match a with
  | .write v => s.setI2c c { m with tx := pushFifo m.tx (BitVec.ofNat 8 v.toNat) }
  | .read =>
    let rx := m.rx.drop 1
    (s.setI2c c { m with rx := rx }).setFld (Adr.SFE.I2C_STAT c) 8 7 rx.length

/-- I2C_STRETCH_TIMEOUT: the transaction ends, and the master reports TIMEOUT (R99). -/
def i2cStretchTimeout (c : Nat) (s : State) : State :=
  if Fld.SFE.I2C_STAT_BUSY s.regs c = 0 then s else
  (s.setReg (Adr.SFE.I2C_STAT c) (4 * b2n (s.i2cOf c).deferred.isSome)).fault (0x109 + c) 0x04

/-- Deferred transactions start in the beat in which their update group applies; one that meets BUSY is ignored, as a GO is (R99). -/
def State.startDeferred (s : State) (g : Nat) : State :=
  let s := (List.range 4).foldl (fun s c => match (s.spiOf c).deferred with
    | some cmd =>
      if bits cmd 12 4 ≠ g then s
      else if Fld.SFE.SPI_STAT_BUSY s.regs c = 1 then (s.setSpi c { s.spiOf c with deferred := none }).setFld (Adr.SFE.SPI_STAT c) 1 1 0
      else s.spiStart c cmd none
    | none => s) s
  (List.range 4).foldl (fun s c => match (s.i2cOf c).deferred with
    | some cmd =>
      if bits cmd 12 4 ≠ g then s
      else if Fld.SFE.I2C_STAT_BUSY s.regs c = 1 then (s.setI2c c { s.i2cOf c with deferred := none }).setFld (Adr.SFE.I2C_STAT c) 2 1 0
      else s.i2cStart c cmd none
    | none => s) s

end Sys2Proof.Machine
end

