-- ==== Sys2Proof/Machine/Raw.lean ====
section
/-! DEFINITION. Raw conditioning: the six stages from sensor samples to L25 photosites, the frame integrator and the region statistics
(05_raw_conditioning.md, R101 to R116, R368). -/

namespace Sys2Proof.Machine

/-! ### Contexts -/

/-- A context of raw conditioning, and storing it. -/
def State.rcnOf (s : State) (n : Nat) : RcnCtx := SMap.get (fun _ => rcnCtxReset) s.rcn n
def State.setRcn (s : State) (n : Nat) (x : RcnCtx) : State := { s with rcn := SMap.set (fun _ => rcnCtxReset) s.rcn n x }

/-- What a table read of a frame gave: none before it is issued, and where it ended in an error response (R110). -/
def RcnFrame.table (f : RcnFrame) (k : RcnTable × Nat) : Option (List Byte) := (f.reads.find? (fun e => e.1 == k)).bind (·.2)

/-- Whether a table read has been issued. -/
def RcnFrame.issued (f : RcnFrame) (k : RcnTable × Nat) : Bool := f.reads.any (fun e => e.1 == k)

/-- A failed table read: TABLE_ERR counts and the context reports UPSTREAM (R110). -/
def State.tableErr (s : State) (n cause : Nat) : State := (s.bump (Adr.RCN.TABLE_ERR n)).upstream (0x121 + n) cause

/-- A table read of a frame is issued where it has not been; what it gave is held for every row that needs it, and an error response is reported (R105,
R110). -/
def State.readTable (s : State) (n : Nat) (f : RcnFrame) (k : RcnTable × Nat) (span : Nat × Nat) : RcnFrame × State :=
  if f.issued k then (f, s) else
  match (s.spanError span.1 span.2).or ((f.failed.find? (fun e => e.1 == k)).map (·.2)) with
  | some cause => ({ f with reads := f.reads ++ [(k, none)] }, s.tableErr n cause)
  | none => ({ f with reads := f.reads ++ [(k, some (s.dramRead span.1 span.2))] }, s)

/-- A signed 16-bit little-endian number at a byte position (R368). -/
def s16At (bs : List Byte) (i : Nat) : Int := signed (leNat ((bs.drop i).take 2)) 16

/-- An unsigned 16-bit little-endian number at a byte position (R368). -/
def u16At (bs : List Byte) (i : Nat) : Nat := leNat ((bs.drop i).take 2)

/-! ### Stage 1: dark subtraction (R104, R105) -/

/-- The samples of a row: q = 0 low gain, q = 1 high gain (R103). -/
def RcnFrame.samples (f : RcnFrame) (r q : Nat) : List Nat :=
  match f.rows[r]? with
  | some x => if q = 0 then x.lo else x.hi
  | none => []

/-- Whether a row carries the PAD flag (R102). -/
def RcnFrame.padRow (f : RcnFrame) (r : Nat) : Bool :=
  match f.rows[r]? with
  | some x => x.pad
  | none => true

/-- The address and length of a row of the dark frame (R105). -/
def RcnFrame.darkSpan (f : RcnFrame) (n r : Nat) : Nat × Nat :=
  (Fld.RCN.DARK_UNIT f.cfg n * 4096 + r * (Fld.RCN.DARK_PITCH f.cfg n / 256 * 256), if f.dual then 2 * f.width else f.width)

/-- Stage 1 of a row: a = x − d, with no clamp (R104). The dark-frame row is the one that the frame's one read of it gave (R105). -/
def RcnFrame.stage1 (f : RcnFrame) (n r q : Nat) : List Int :=
  let dark := f.table (.dark, r)
  (f.samples r q).zipIdx.map (fun e =>
    let d8 := match dark with
      | some b => (nth 0 b (if f.dual then 2 * e.2 + q else e.2)).toNat
      | none => 0
    (e.1 : Int) - ((Fld.RCN.DARK_BASE f.cfg n + d8 * 2 ^ Fld.RCN.CTX_CFG_DARK_SHIFT f.cfg n : Nat) : Int))

/-! ### Stage 2: defect correction (R106) -/

/-- The entries of the defect map that a frame considers. -/
def defCount (cfg : RegFile) (n : Nat) : Nat := min 262144 (Fld.RCN.DEF_COUNT cfg n)

/-- The entries of 64-entry part k of the map: address and length. -/
def RcnFrame.mapSpan (f : RcnFrame) (n k : Nat) : Nat × Nat := (Fld.RCN.DEF_UNIT f.cfg n * 4096 + 256 * k, 4 * min 64 (defCount f.cfg n - 64 * k))

/-- The map from its entries in order: the accepted ones, and how many were rejected. `last` is the last accepted position. -/
def acceptMap (width height : Nat) : Option Nat → List Nat → List (Nat × Nat) × Nat
  | _, [] => ([], 0)
  | last, w :: rest =>
    let col := bits w 0 14
    let row := bits w 14 14
    let ty := bits w 28 4
    let pos := row * width + col
    let late := match last with
      | some p => decide (pos ≤ p)
      | none => false
    if decide (2 < ty) || decide (width ≤ col) || decide (height ≤ row) || late then
      let (m, rej) := acceptMap width height last rest
      (m, rej + 1)
    else
      let (m, rej) := acceptMap width height (some pos) rest
      ((pos, ty) :: m, rej)

/-- Read the defect map: every part of it; the entries of a part whose read fails are lost (R106, R110). -/
def State.readMap (s : State) (n : Nat) (f : RcnFrame) : RcnFrame × State :=
  let parts := List.range (ceilDiv (defCount f.cfg n) 64)
  let (f, s) := parts.foldl (fun (a : RcnFrame × State) k => a.2.readTable n a.1 (.defect, k) (a.1.mapSpan n k)) (f, s)
  let words := parts.flatMap (fun k => let b := (f.table (.defect, k)).getD []; (chunks 4 b.length b).map leNat)
  let (m, rej) := acceptMap f.width f.height none words
  ({ f with map := some m }, s.bumpBy (Adr.RCN.DEF_REJECTED n) rej)

/-- The candidate neighbours of an entry, as (row, column) (R106). -/
def neighbours (ty t : Nat) (r c : Nat) : List (Int × Int) :=
  let h : List (Int × Int) := [((r : Int), (c : Int) - t), ((r : Int), (c : Int) + t)]
  let v : List (Int × Int) := [((r : Int) - t, (c : Int)), ((r : Int) + t, (c : Int))]
  if ty = 0 then h ++ v else if ty = 1 then v else h

/-- fix(r, c, q) of R106 from the number and sum of the usable neighbours. -/
def fixValue (a sum : Int) (count : Nat) : Int :=
  if count = 0 then a else Int.fdiv (sum * (nth 0 [0, 65536, 32768, 21845, 16384] count : Nat) + 32768) 65536

/-- The results of stage 1 held for a row (R106). -/
def RcnFrame.held (f : RcnFrame) (r q : Nat) : List Int :=
  match f.level[r]? with
  | some x => if q = 0 then x.1 else x.2
  | none => []

/-- Stage 2 of a row: its values, and how many samples stayed unfixed. -/
def RcnFrame.stage2 (f : RcnFrame) (n r q : Nat) : List Int × Nat :=
  let a := f.held r q
  let map := f.map.getD []
  if Fld.RCN.CTX_CFG_DEF_EN f.cfg n = 0 then (a, 0) else
  let t := Fld.RCN.CTX_CFG_DEF_STRIDE f.cfg n + 1
  let value (p : Int × Int) : Option Int :=
    if p.1 < 0 ∨ p.2 < 0 ∨ (f.height : Int) ≤ p.1 ∨ (f.width : Int) ≤ p.2 then none
    else if f.padRow p.1.toNat || map.any (fun e => e.1 == p.1.toNat * f.width + p.2.toNat) then none
    else (f.held p.1.toNat q)[p.2.toNat]?
  let done := a.zipIdx.map (fun e =>
    match map.find? (fun m => m.1 == r * f.width + e.2) with
    | none => (e.1, 0)
    | some m =>
      let vs := (neighbours m.2 t r e.2).filterMap value
      (fixValue e.1 (vs.foldl (· + ·) 0) vs.length, if vs.isEmpty then 1 else 0))
  (done.map (·.1), done.foldl (fun k e => k + e.2) 0)

/-! ### Stages 3 and 4: column and row correction (R104, R107) -/

/-- The span of the column table. -/
def RcnFrame.colSpan (f : RcnFrame) (n : Nat) : Nat × Nat := (Fld.RCN.COL_UNIT f.cfg n * 4096, if f.dual then 4 * f.width else 2 * f.width)

/-- Stage 3: cc = (a << 4) − colofs. -/
def RcnFrame.stage3 (f : RcnFrame) (q : Nat) (a : List Int) : List Int :=
  let t := f.table (.column, 0)
  a.zipIdx.map (fun e => e.1 * 16 - match t with
    | some b => s16At b (if f.dual then 4 * e.2 + 2 * q else 2 * e.2)
    | none => 0)

/-- OB_LOG2 and HDR_SPAN_LOG2 as they act, and FF_CELL. -/
def clampTo (x lo hi : Nat) : Nat := if x < lo then lo else if hi < x then hi else x

/-- Whether row correction acts: ROW_EN, and the optical-black columns inside the line (R107). -/
def rowActs (cfg : RegFile) (n width : Nat) : Bool :=
  Fld.RCN.CTX_CFG_ROW_EN cfg n == 1 && decide (Fld.RCN.OB_OB_COL0 cfg n + 2 ^ clampTo (Fld.RCN.OB_OB_LOG2 cfg n) 3 8 ≤ width)

/-- rowofs of a row and whether it was limited (R107). -/
def rowOffset (cfg : RegFile) (n : Nat) (cc : List Int) : Int × Bool :=
  let l := clampTo (Fld.RCN.OB_OB_LOG2 cfg n) 3 8
  let sum := ((cc.drop (Fld.RCN.OB_OB_COL0 cfg n)).take (2 ^ l)).foldl (· + ·) 0
  let d := rshift sum l - signed (Fld.RCN.OB_TARGET cfg n) 16
  let lim : Int := Fld.RCN.ROW_LIMIT cfg n
  (sat d (-lim) lim, decide (lim < d) || decide (d < -lim))

/-- Stage 4: e = cc − rowofs, and 1 where the offset was limited. -/
def stage4 (cfg : RegFile) (n width : Nat) (cc : List Int) : List Int × Nat :=
  if rowActs cfg n width then
    let (o, lim) := rowOffset cfg n cc
    (cc.map (· - o), b2n lim)
  else (cc, 0)

/-! ### Stage 5: normalisation and merge (R108) -/

/-- The range of L25. -/
def satL25 (x : Int) : Int := sat x (-(2 ^ 24)) (2 ^ 24 - 1)

/-- v of R108 from the low- and high-gain values; W is the sample width, t0 HDR_T0, ratio HDR_RATIO, k HDR_SPAN_LOG2. -/
def mergeL25 (w : Nat) (dual : Bool) (t0 ratio k : Nat) (e0 e1 : Int) : Int :=
  let lo := e0 * 2 ^ (20 - w)
  if dual then
    let hi := rshift (e1 * ratio) (w + 4)
    let wt : Int := if e1 ≤ t0 then 0 else sat (rshift ((e1 - t0) * 1024) k) 0 1024
    satL25 (hi + rshift ((lo - hi) * wt) 10)
  else satL25 lo

/-! ### Stage 6: flat field (R109) -/

/-- A node row of the flat-field grid: address and length (R109). -/
def RcnFrame.nodeSpan (f : RcnFrame) (n j : Nat) : Nat × Nat :=
  (Fld.RCN.FF_UNIT f.cfg n * 4096 + j * Fld.RCN.FF_PITCH f.cfg n, 8 * ((f.width - 1) / 2 ^ clampTo (Fld.RCN.CTX_CFG_FF_CELL f.cfg n) 5 9 + 2))

/-- The gain of phase `ph` at node (i, j); 0x4000 where its read failed (R109, R110). -/
def RcnFrame.nodeGain (f : RcnFrame) (ph i j : Nat) : Nat :=
  match f.table (.flat, j) with
  | some b => u16At b (8 * i + 2 * ph)
  | none => 0x4000

/-- The gain of a photosite from its four nodes (R109). -/
def flatGain (sl fx fy g00 g10 g01 g11 : Nat) : Nat :=
  let cell := 2 ^ sl
  let top := g00 * (cell - fx) + g10 * fx
  let bot := g01 * (cell - fx) + g11 * fx
  (top * (cell - fy) + bot * fy + 2 ^ (2 * sl - 1)) / 2 ^ (2 * sl)

/-- The output of a photosite: flat-field gain applied and clamped (R109). -/
def RcnFrame.flatOut (f : RcnFrame) (n r c : Nat) (v : Int) : Int :=
  if Fld.RCN.CTX_CFG_FF_EN f.cfg n = 0 then satL25 v else
  let sl := clampTo (Fld.RCN.CTX_CFG_FF_CELL f.cfg n) 5 9
  let ph := 2 * (r % 2) + c % 2
  let g (di dj : Nat) : Nat := f.nodeGain ph (c / 2 ^ sl + di) (r / 2 ^ sl + dj)
  satL25 (rshift (v * (flatGain sl (c % 2 ^ sl) (r % 2 ^ sl) (g 0 0) (g 1 0) (g 0 1) (g 1 1) : Nat)) 14)

/-! ### One row -/

/-- The values of stage 4 of a row and sample, with the samples left unfixed and the offsets limited. -/
def RcnFrame.corrected (f : RcnFrame) (n r q : Nat) : List Int × Nat × Nat :=
  let (a, unfixed) := f.stage2 n r q
  let (e, lim) := stage4 f.cfg n f.width (f.stage3 q a)
  (e, unfixed, lim)

/-- The L25 row (R101 to R109). -/
def RcnFrame.condRow (f : RcnFrame) (n r : Nat) : List Int × Nat × Nat :=
  if f.padRow r then (List.replicate f.width 0, 0, 0) else
  let (e0, u0, l0) := f.corrected n r 0
  let (e1, u1, l1) := if f.dual then f.corrected n r 1 else ([], 0, 0)
  let k := clampTo (Fld.RCN.HDR_SPAN_LOG2 f.cfg n) 4 20
  let v := e0.zipIdx.map (fun e =>
    f.flatOut n r e.2 (mergeL25 f.sampleBits f.dual (Fld.RCN.HDR_T0 f.cfg n) (Fld.RCN.HDR_RATIO f.cfg n) k e.1 (nth 0 e1 e.2)))
  (v, u0 + u1, l0 + l1)

/-- The table reads that the stages after defect correction of row r need: the column table, and the node rows around it. A PAD line needs none (R102, R107,
R109). -/
def RcnFrame.needs (f : RcnFrame) (n r : Nat) : List ((RcnTable × Nat) × (Nat × Nat)) :=
  if f.padRow r then [] else
  let j := r / 2 ^ clampTo (Fld.RCN.CTX_CFG_FF_CELL f.cfg n) 5 9
  (if Fld.RCN.CTX_CFG_COL_EN f.cfg n = 1 then [((.column, 0), f.colSpan n)] else []) ++
  (if Fld.RCN.CTX_CFG_FF_EN f.cfg n = 1 then [((.flat, j), f.nodeSpan n j), ((.flat, j + 1), f.nodeSpan n (j + 1))] else [])

/-! ### Statistics (R116) -/

/-- Add one sample to a region's totals. -/
def StatSet.add (t : StatSet) (clip v : Int) : StatSet :=
  { sum := t.sum + v, min := if v < t.min then v else t.min, max := if t.max < v then v else t.max,
    clipped := if clip ≤ v then t.clipped + 1 else t.clipped, count := t.count + 1 }

/-- The window of a region: first and end column, first and end row. R116 calls H even but has only bit 0 of X0, Y0 and W ignored: an odd H counts as written
(DESIGN CHOICE, assumption 163). -/
def regionWindow (cfg : RegFile) (k : Nat) : Nat × Nat × Nat × Nat :=
  let x0 := Fld.RCS.REG_POS_X0 cfg k / 2 * 2
  let y0 := Fld.RCS.REG_POS_Y0 cfg k / 2 * 2
  let h := Fld.RCS.REG_SIZE_H cfg k
  (x0, x0 + min 16384 (Fld.RCS.REG_SIZE_W cfg k / 2 * 2), y0, y0 + if 8192 < h then 8192 else h)

/-- The totals of one region and phase over a conditioned frame. -/
def RcnFrame.totals (f : RcnFrame) (k ph : Nat) : StatSet :=
  let (x0, x1, y0, y1) := regionWindow f.cfg k
  let clip := signed (Fld.RCS.REG_CLIP_CLIP_HI f.cfg k) 25
  f.out.zipIdx.foldl (fun t row =>
    if row.1.1.pad || decide (row.2 < y0) || decide (y1 ≤ row.2) then t else
    row.1.2.zipIdx.foldl (fun t e =>
      if decide (e.2 < x0) || decide (x1 ≤ e.2) || 2 * (row.2 % 2) + e.2 % 2 != ph then t else t.add clip e.1) t) statEmpty

/-- At a frame end the totals of every region of the context become visible together (R116). -/
def State.statsEnd (s : State) (n : Nat) (f : RcnFrame) : State :=
  let mine := (List.range 8).filter (fun k => Fld.RCS.REG_CTL_EN f.cfg k == 1 && Fld.RCS.REG_CTL_CTX f.cfg k == n)
  { s with
    stats := mine.foldl (fun m k => (List.range 4).foldl (fun m ph => SMap.set (fun _ => statEmpty) m (4 * k + ph) (f.totals k ph)) m) s.stats
    statFrame := mine.foldl (fun m k => SMap.put m k (f.record.count, f.record.tags)) s.statFrame }

/-! ### The stream through a context -/

/-- Hand an item on: to Ebosh Raw, and to Orangery context A. -/
def State.fromRaw (s : State) (n : Nat) (toEbe toOrg : Bool) (i : LineItem) : State :=
  let s := if toEbe then { s with ebeIn := SMap.set (fun _ => []) s.ebeIn n (SMap.get (fun _ => []) s.ebeIn n ++ [i]) } else s
  if toOrg then { s with orgIn := s.orgIn ++ [i] } else s

/-- Whether the encoder context takes the frames that start in a context, and whether Orangery context A does (R138). -/
def State.rawToEbe (s : State) (n : Nat) : Bool := (SMap.get (fun _ => ebeCtxReset) s.ebe n).running
def State.rawToOrg (s : State) (n : Nat) : Bool := (SMap.get (fun _ => orgCtxReset) s.org 0).running && Fld.ORG.CTX_CFG_SRC s.regs 0 == n

/-- The width of a stream's frame: the sum of the strips in COLUMN_SPLIT, else one group's (R83, R89). -/
def streamWidth (mode : Nat) (cfgs : List SfeCfg) : Nat :=
  match cfgs with
  | [] => 0
  | c :: _ => if mode = 1 then cfgs.foldl (fun a x => a + x.width) 0 else c.width

/-- A running integration whose geometry changes is ABORTED before that frame (R115). -/
def State.intAbort (s : State) : State :=
  ({ s with integ := { s.integ with stopping := false } : State }.setFld Adr.RCS.INT_STAT 0 3 4).fault 0x131 0x20

/-- The address of tile entry i, and how many tiles of 256 × 16 a frame has (R113). -/
def tileEntry (cfg : RegFile) (i : Nat) : Nat := Fld.RCS.INT_TILE_UNIT cfg * 4096 + 2 * i
def tileTotal (width height : Nat) : Nat := ceilDiv width 256 * ceilDiv height 16

/-- The tile entries of a frame restart at 0 (R115). -/
def State.clearTiles (s : State) (cfg : RegFile) (width height : Nat) : State := s.storeSeen (tileEntry cfg 0) (List.replicate (2 * tileTotal width height) 0)

/-- The integrator at a frame start of its context: START takes effect, or a changed geometry aborts (R111, R115). Answers whether the frame is offered. -/
def State.intFrameStart (s : State) (n : Nat) (geo : Nat × Nat × Nat × Bool) : Bool × State :=
  match s.integ.armed.filter (fun c => Fld.RCS.INT_CFG_CTX c == n) with
  | some cfg =>
    let s : State := { s with integ :=
      { s.integ with armed := none, cfg := cfg, taken := 0, tiles := [], number := 0, geometry := some geo, stopping := false, done := [] } }
    let s := s.clearTiles cfg geo.1 geo.2.1
    (true, (((s.setFld Adr.RCS.INT_STAT 0 3 1).setFld Adr.RCS.INT_STAT 16 16 0).setReg Adr.RCS.SATURATED_TILES 0).setReg Adr.RCS.INT_REJECTED 0)
  | none =>
    if Fld.RCS.INT_CFG_CTX s.integ.cfg ≠ n ∨ Fld.RCS.INT_STAT_STATE s.regs ≠ 1 ∨ s.integ.stopping = true then (false, s)
    else if s.integ.geometry = some geo then (true, s)
    else (false, s.intAbort)

/-- Whether an integration has been started and waits for its first frame start of a context (R111). -/
def State.intArmed (s : State) (n : Nat) : Bool := match s.integ.armed with
  | some c => Fld.RCS.INT_CFG_CTX c == n
  | none => false

/-- Whether the integrator, which takes the frames of the context, has still to add a complete one (R19, R20). -/
def State.intBehind (s : State) (n : Nat) : Bool :=
  !s.integ.done.isEmpty && (Fld.RCS.INT_CFG_CTX s.integ.cfg == n || s.intArmed n)

/-- A frame starts in a context: it reads its settings (R46). -/
def State.rcnStart (s : State) (n : Nat) (record : FrameRec) (mode : Nat) (cfgs : List SfeCfg) (height : Nat) : State :=
  let width := streamWidth mode cfgs
  let dual := match cfgs with
    | c :: _ => c.dual
    | [] => false
  let sb := match cfgs with
    | c :: _ => c.sampleBits
    | [] => 10
  let (offered, s) := s.intFrameStart n (width, height, sb, dual)
  let f : RcnFrame :=
    { record := record, width := width, height := height, sampleBits := sb, dual := dual,
      cfg := s.regs.filter (fun e => e.1 / 4096 == 0x12 || e.1 / 4096 == 0x13), rows := [], level := [], map := none, failed := [], reads := [], out := [],
      integrate := offered, toEbe := s.rawToEbe n, toOrg := s.rawToOrg n }
  let s : State := { s with links := { s.links with edges := SMap.put s.links.edges n (record.count, []) } }
  (s.setRcn n { s.rcnOf n with frame := some f }).fromRaw n f.toEbe f.toOrg (.start record width height none)

/-- The flags of a row. -/
def RcnFrame.flags (f : RcnFrame) (r : Nat) : LineFlags :=
  match f.rows[r]? with
  | some x => { pad := x.pad, short := x.short, long := x.long }
  | none => { noFlags with pad := true }

/-! ### Border columns (R326, R328) -/

/-- A Falilan port, one of its channels, and storing them. -/
def State.flkPort (s : State) (p : Nat) : Flk := SMap.get (fun _ => flkReset) s.links.ports p
def State.setFlk (s : State) (p : Nat) (x : Flk) : State := { s with links := { s.links with ports := SMap.set (fun _ => flkReset) s.links.ports p x } }
def State.flkChan (s : State) (p c : Nat) : FlkChan := SMap.get (fun _ => flkChanReset) (s.flkPort p).chans c
def State.setFlkChan (s : State) (p c : Nat) (k : FlkChan) : State :=
  s.setFlk p { s.flkPort p with chans := SMap.set (fun _ => flkChanReset) (s.flkPort p).chans c k }

/-- Whether a port's link is UP. -/
def State.linkUp (s : State) (p : Nat) : Bool := Fld.FLK.LINK_STAT_STATE s.regs p == 2

/-- The channels of the ports, as (port, channel). -/
def flkChannels : List (Nat × Nat) := (List.range 4).flatMap (fun p => (List.range 8).map (fun c => (p, c)))

/-- The running BORDER channels of an RCN context that send the rows of a frame, with whether they take the right edge. -/
def State.borderSenders (s : State) (n count : Nat) : List (Nat × Nat × Bool) :=
  (flkChannels.filter (fun e => let k := s.flkChan e.1 e.2
    k.running && k.border == some count && s.linkUp e.1 && Fld.FLK.CH_CFG_DIR s.regs e.1 e.2 == 0 && Fld.FLK.CH_CFG_KIND s.regs e.1 e.2 == 2 &&
      listed (Adr.FLK.CH_CFG e.1 e.2) (Fld.FLK.CH_CFG_SRC s.regs e.1 e.2) 4 == n)).map (fun e => (e.1, e.2, Fld.FLK.CH_CFG_EDGE s.regs e.1 e.2 == 1))

/-- What a message of a BORDER channel carries: two samples of each of some rows, in rising rows, and FRAME_COUNT with whether these are the frame's last
(assumption 137). -/
def borderData (right : Bool) (rows : List (List Int × List Int)) : List Byte :=
  rows.flatMap (fun r => (if right then r.2 else r.1).flatMap (fun v => leBytes 4 (unsigned v 32)))
def borderDesc (count : Nat) (last : Bool) : List Byte := leBytes 4 count ++ leBytes 1 (b2n last)

/-- Rows of a frame leave the BORDER channels that send it, as they are conditioned (R326, R328). -/
def State.sendBorders (s : State) (n count : Nat) (rows : List (List Int × List Int)) (last : Bool) : State :=
  (s.borderSenders n count).foldl (fun s e =>
    let s := s.emit (.channelFrame e.1 e.2.1 (borderData e.2.2 rows) (borderDesc count last))
    if last then s.setFlkChan e.1 e.2.1 { s.flkChan e.1 e.2.1 with border := none } else s) s

/-- A conditioned row's outermost columns are kept for the BORDER channels, and those that send the frame send them. -/
def State.keepEdges (s : State) (n count : Nat) (v : List Int) : State :=
  let row := (v.take 2, v.drop (v.length - 2))
  let rows := match s.links.edges.find? (fun e => e.1 == n) with
    | some (_, c, rows) => if c = count then rows else []
    | none => []
  ({ s with links := { s.links with edges := SMap.put s.links.edges n (count, rows ++ [row]) } } : State).sendBorders n count [row] false

/-- The next output row leaves the context. -/
def State.emitRow (s : State) (n : Nat) (f : RcnFrame) : RcnFrame × State :=
  let r := f.out.length
  let (f, s) := (f.needs n r).foldl (fun (a : RcnFrame × State) k => a.2.readTable n a.1 k.1 k.2) (f, s)
  let (v, unfixed, lim) := f.condRow n r
  let s := (s.bumpBy (Adr.RCN.DEF_UNFIXED n) unfixed).bumpBy (Adr.RCN.ROW_LIMITED n) lim
  ({ f with out := f.out ++ [(f.flags r, v)] }, (s.keepEdges n f.record.count v).fromRaw n f.toEbe f.toOrg (.row (f.flags r) v))

/-- Rows that wait for no later row leave: defect correction holds rows r − t to r + t (R106). -/
def State.emitReady (s : State) (n : Nat) (f : RcnFrame) : Nat → RcnFrame × State
  | 0 => (f, s)
  | k + 1 =>
    let t := if Fld.RCN.CTX_CFG_DEF_EN f.cfg n = 1 then Fld.RCN.CTX_CFG_DEF_STRIDE f.cfg n + 1 else 0
    if f.out.length < f.rows.length ∧ (f.out.length + t < f.rows.length ∨ f.height ≤ f.rows.length) then
      let (f, s) := s.emitRow n f
      s.emitReady n f k
    else (f, s)

/-- Stage 1 of a row as it enters: its dark-frame row is read once (R105). -/
def State.levelRow (s : State) (n : Nat) (f : RcnFrame) (r : Nat) : RcnFrame × State :=
  if f.padRow r then ({ f with level := f.level ++ [([], [])] }, s) else
  let (f, s) := if Fld.RCN.CTX_CFG_DARK_EN f.cfg n = 1 then s.readTable n f (.dark, r) (f.darkSpan n r) else (f, s)
  ({ f with level := f.level ++ [(f.stage1 n r 0, if f.dual then f.stage1 n r 1 else [])] }, s)

/-- A row enters a context. -/
def State.rcnRow (s : State) (n : Nat) (f : RcnFrame) (row : RawRow) : State :=
  let f := { f with rows := f.rows ++ [row] }
  let (f, s) := if f.map.isNone && Fld.RCN.CTX_CFG_DEF_EN f.cfg n == 1 then s.readMap n f else (f, s)
  let (f, s) := s.levelRow n f (f.rows.length - 1)
  let (f, s) := s.emitReady n f 3
  s.setRcn n { s.rcnOf n with frame := some f }

/-- A frame ends in a context. -/
def State.rcnFinish (s : State) (n : Nat) (f : RcnFrame) (record : FrameRec) : State :=
  let f := { f with record := record }
  let s := (s.statsEnd n f).setRcn n { s.rcnOf n with frame := none }
  let s := s.sendBorders n record.count [] true
  let s := if f.integrate && Fld.RCS.INT_STAT_STATE s.regs == 1 && Fld.RCS.INT_CFG_CTX s.integ.cfg == n then { s with integ := { s.integ with done := s.integ.done ++ [f] } } else s
  s.fromRaw n f.toEbe f.toOrg (.finish record)

/-- Whether Orangery context A has a frame of its input in progress. -/
def State.orgOpen (s : State) (c : Nat) : Bool :=
  match (SMap.get (fun _ => orgCtxReset) s.org c).frame with
  | some f => !f.complete
  | none => false

/-- Whether a consumer of what a context takes next is not ready: the encoder or Orangery context A has not taken what it was handed last, the Orangery is inside
another context's frame, or the integrator is behind. The stream waits for its slowest consumer (R19, R20). -/
def State.consumerStalled (s : State) (n : Nat) (i : RawItem) : Bool :=
  let boundary := match i with
    | .row _ | .finish _ => false
    | _ => true
  let (e, o) := match (s.rcnOf n).frame with
    | some f => if boundary then (s.rawToEbe n, s.rawToOrg n) else (f.toEbe, f.toOrg)
    | none => (s.rawToEbe n, s.rawToOrg n)
  (e && !(SMap.get (fun _ => []) s.ebeIn n).isEmpty) || (o && (!s.orgIn.isEmpty || (boundary && s.orgOpen 0))) || (boundary && s.intBehind n)

/-- Whether a context waits for DRAM whose clock has stopped: a row's tables are read there and the encoder writes its tiles there, and an integration that starts
clears its tile entries there (R18). -/
def State.rowWaits (s : State) (n : Nat) : Bool := s.dramStopped && match (s.rcnOf n).frame with
  | some f => f.toEbe || Fld.RCN.CTX_CFG_DARK_EN f.cfg n == 1 || Fld.RCN.CTX_CFG_DEF_EN f.cfg n == 1 || Fld.RCN.CTX_CFG_COL_EN f.cfg n == 1 ||
      Fld.RCN.CTX_CFG_FF_EN f.cfg n == 1
  | none => s.intArmed n

/-- The context takes the next item of its stream: a line, or the frame boundary around it (R101). HOLD stops a context at a frame
boundary (R37), and DRAM that has stopped stalls what needs it (R18); what arrives while no context runs is lost. -/
def State.conditionItem (s : State) (n : Nat) : State :=
  match SMap.get (fun _ => []) s.rawIn n with
  | [] => s
  | i :: rest =>
    let x := s.rcnOf n
    if (x.running && s.holding 0x12 && x.frame.isNone) || s.consumerStalled n i || s.rowWaits n then s else
    let s : State := { s with rawIn := SMap.set (fun _ => []) s.rawIn n rest }
    match i, x.frame with
    | .start record mode cfgs height, _ => if x.running then s.rcnStart n record mode cfgs height else s
    | .row r, some f => s.rcnRow n f r
    | .finish record, some f => s.rcnFinish n f record
    | .skipped record, _ => if x.running then s.fromRaw n (s.rawToEbe n) (s.rawToOrg n) (.skipped record) else s
    | _, none => s

/-- TABLE_READ_ERROR: a table read that the frame in progress has still to issue will end in an error response, which shows once a row needs it (R110). `row` is
the dark-frame row, the node row of the grid or the 64-entry part of the defect map. -/
def tableReadError (n : Nat) (t : RcnTable) (row unit : Nat) (s : State) : State :=
  match (s.rcnOf n).frame with
  | none => s
  | some f =>
    if f.issued (t, row) || f.failed.any (fun e => e.1 == (t, row)) then s
    else s.setRcn n { s.rcnOf n with frame := some { f with failed := f.failed ++ [((t, row), unit)] } }

/-! ### Frame integrator (R111 to R115) -/

/-- INT_START (R115): it needs an ADMITTED flow owned by 0x131. It reads the registers, and takes effect at the next frame start of the context (R111). -/
def intStart (s : State) : State :=
  if s.hasFlow 0x131 then { s with integ := { s.integ with armed := some (s.regs.page 0x13) } } else s.fault 0x131 0x07

/-- Whether a frame of the integration is in progress or waits to be taken. -/
def State.intInFlight (s : State) : Bool :=
  !s.integ.done.isEmpty || (match (s.rcnOf (Fld.RCS.INT_CFG_CTX s.integ.cfg)).frame with
    | some f => f.integrate
    | none => false)

/-- STOP in effect: STOPPED once no frame is in progress (R115). -/
def State.intSettle (s : State) : State :=
  if s.integ.stopping && Fld.RCS.INT_STAT_STATE s.regs == 1 && !s.intInFlight then
    ({ s with integ := { s.integ with stopping := false } } : State).setFld Adr.RCS.INT_STAT 0 3 3
  else s

/-- INT_STOP (R115): the frame in progress completes, then STOPPED. -/
def intStop (s : State) : State :=
  if Fld.RCS.INT_STAT_STATE s.regs = 1 then ({ s with integ := { s.integ with stopping := true } } : State).intSettle else s

/-- One accumulator update (R112). -/
def accumulate (acc sample : Int) : Int :=
  if acc = 0x7FFFFFFF ∨ acc = -0x80000000 then acc else sat (acc + sample) (-0x80000000) 0x7FFFFFFF

/-- Whether an accumulator is marked saturated. -/
def saturated (acc : Int) : Bool := decide (acc = 0x7FFFFFFF) || decide (acc = -0x80000000)

/-- INT_UNIT's or INT_AVG_UNIT's address of row r. -/
def intRow (cfg : RegFile) (unit r : Nat) : Nat := unit * 4096 + r * (Fld.RCS.INT_PITCH cfg / 256 * 256)

/-- The tapped samples of a row; none for a PAD line. -/
def RcnFrame.tapRow (f : RcnFrame) (cfg : RegFile) (r : Nat) : Option (List Int) :=
  if f.padRow r then none
  else if Fld.RCS.INT_CFG_TAP cfg = 0 then f.out[r]?.map (·.2)
  else some ((f.samples r (if f.dual then Fld.RCS.INT_CFG_GAIN_SEL cfg else 0)).map (fun (x : Nat) => (x : Int)))

/-- The accumulators of a row. -/
def State.accRow (s : State) (cfg : RegFile) (unit r width : Nat) : List Int :=
  (chunks 4 width (s.loadBytes (intRow cfg unit r) (4 * width))).map (fun b => signed (leNat b) 32)

/-- A row of 32-bit words in DRAM. -/
def wordRow (vs : List Int) : List Byte := vs.flatMap (fun v => leBytes 4 (unsigned v 32))

/-- The accumulators of row r after a frame is added; the first frame writes without reading (R111, R112). -/
def State.addedRow (s : State) (f : RcnFrame) (r : Nat) : List Int :=
  let cfg := s.integ.cfg
  let old := if s.integ.taken = 0 then List.replicate f.width 0 else s.accRow cfg (Fld.RCS.INT_UNIT cfg) r f.width
  let tap := (f.tapRow cfg r).getD (List.replicate f.width 0)
  old.zipIdx.map (fun e => accumulate e.1 (nth 0 tap e.2))

/-- The saturated photosites of a tile of 256 × 16, from the accumulators (R113). -/
def tileCount (acc : List (List Int)) (tx ty : Nat) : Nat :=
  ((acc.drop (16 * ty)).take 16).foldl (fun n row => n + ((row.drop (256 * tx)).take 256).countP saturated) 0

/-- Write the tile entries after a frame, and SATURATED_TILES: a tile in the saturated state stays in it (R113). -/
def State.writeTiles (s : State) (f : RcnFrame) (acc : List (List Int)) : State :=
  let across := ceilDiv f.width 256
  let count (i : Nat) : Nat := tileCount acc (i % across) (i / across)
  let all := List.range (tileTotal f.width f.height)
  let sat_ := all.filter (fun i => s.integ.tiles.contains i || decide (0 < count i))
  let s : State := { s with integ := { s.integ with tiles := sat_ } }
  let s := all.foldl (fun (s : State) i =>
    s.storeSeen (tileEntry s.integ.cfg i) (leBytes 2 (count i + if sat_.contains i then 2 ^ 15 else 0))) s
  s.setReg Adr.RCS.SATURATED_TILES sat_.length

/-- INT_STAT.FRAMES after `n` frames; the spec states no value past its 16 bits, and a free one stands there. -/
def State.setFrames (s : State) (n : Nat) : State :=
  if n < 2 ^ 16 then s.setFld Adr.RCS.INT_STAT 16 16 n else
  let (w, s) := s.drawWord
  s.setFld Adr.RCS.INT_STAT 16 16 (w.toNat % 2 ^ 16)

/-- A frame is taken: every photosite is added, and FRAMES counts (R111 to R113). -/
def State.takeFrame (s : State) (f : RcnFrame) : State :=
  let cfg := s.integ.cfg
  let s := if s.integ.taken = 0 then s else (List.range f.height).foldl (fun (s : State) r => s.outOfRange (intRow cfg (Fld.RCS.INT_UNIT cfg) r) (4 * f.width)) s
  let acc := (List.range f.height).map (s.addedRow f)
  let s := acc.zipIdx.foldl (fun (s : State) e => s.storeSeen (intRow cfg (Fld.RCS.INT_UNIT cfg) e.2) (wordRow e.1)) s
  let s := s.writeTiles f acc
  let s := ({ s with integ := { s.integ with taken := s.integ.taken + 1 } } : State).setFrames (s.integ.taken + 1)
  let target := Fld.RCS.INT_TARGET cfg
  if target ≠ 0 ∧ s.integ.taken = target then s.setFld Adr.RCS.INT_STAT 0 3 2 else s

/-- INT_FRAME: the oldest complete frame is taken, passed over or refused (R111, R112). -/
def intFrame (s : State) : State :=
  match s.integ.done with
  | [] => s
  | f :: rest =>
    let n := s.integ.number
    let s : State := { s with integ := { s.integ with done := rest, number := n + 1 } }
    if Fld.RCS.INT_STAT_STATE s.regs ≠ 1 then s else
    if n % (Fld.RCS.INT_CFG_EVERY s.integ.cfg + 1) ≠ 0 then s.intSettle
    else if Fld.RCS.INT_CFG_SKIP_TAGGED s.integ.cfg = 1 ∧ f.record.tags % 8 ≠ 0 then (s.bump Adr.RCS.INT_REJECTED).intSettle
    else (s.takeFrame f).intSettle

/-- INT_AVERAGE: accepted only in DONE and STOPPED (R114). The pass works on the integration as it stands. -/
def intAverage (s : State) : State :=
  if Fld.RCS.INT_STAT_STATE s.regs = 2 ∨ Fld.RCS.INT_STAT_STATE s.regs = 3 then
    let (w, h) := match s.integ.geometry with
      | some (w, h, _) => (w, h)
      | none => (0, 0)
    ({ s with integ := { s.integ with averaging := some (s.integ.cfg, s.integ.taken, w, h) } } : State).setFld Adr.RCS.INT_STAT 4 1 1
  else s

/-- The average of an accumulator over N frames (R114). -/
def averageOf (acc : Int) (n : Nat) : Int :=
  if acc = 0x7FFFFFFF then 0x00FFFFFF else if acc = -0x80000000 then -0x01000000 else Int.fdiv (2 * acc + n) (2 * n)

/-- `k` free words. -/
def State.drawWords (s : State) : Nat → List Int × State
  | 0 => ([], s)
  | k + 1 =>
    let (w, s) := s.drawWord
    let (ws, s) := s.drawWords k
    ((w.toNat : Int) :: ws, s)

/-- Write the averages of row r; with no frame taken the division has no stated result, and each word is free. -/
def State.averageRow (s : State) (cfg : RegFile) (n width r : Nat) : State :=
  let (vs, s) := if n = 0 then s.drawWords width
    else ((s.accRow cfg (Fld.RCS.INT_UNIT cfg) r width).map (fun a => averageOf a n), s.outOfRange (intRow cfg (Fld.RCS.INT_UNIT cfg) r) (4 * width))
  s.storeSeen (intRow cfg (Fld.RCS.INT_AVG_UNIT cfg) r) (wordRow vs)

/-- AVERAGE_DONE: every photosite's average is written and AVG_BUSY clears (R114). -/
def averageDone (s : State) : State :=
  match s.integ.averaging with
  | some (cfg, n, w, h) =>
    let s := (List.range h).foldl (fun s r => s.averageRow cfg n w r) s
    ({ s with integ := { s.integ with averaging := none } } : State).setFld Adr.RCS.INT_STAT 4 1 0
  | none => s

/-! ### Apply points (R72, R107, R115) -/

/-- Whether an ADMITTED flow owned by one of the units carries a resource. -/
def State.flowFor (s : State) (units : List Nat) (res : Nat) : Bool :=
  s.admitted.any (fun e => units.contains e.2.owner && e.2.pairs.any (fun c => c.1 == res))

/-- The width of a stream under the registers as they stand. -/
def State.streamWidthNow (s : State) (n : Nat) : Nat := streamWidth s.grpMode ((s.membersOf n).map s.readCfg)

/-- One context at an apply point of the RCN page. -/
def State.applyRcnCtx (s : State) (n : Nat) : State :=
  let x := s.rcnOf n
  let wanted := s.enabled 0x12 && Fld.RCN.CTX_CFG_EN s.regs n == 1
  let s :=
    if wanted && !x.running then
      if s.flowFor [0x120, 0x121 + n] 4 then s.setRcn n { x with running := true } else s.fault (0x121 + n) 0x07
    else if !wanted && x.running then s.setRcn n { x with running := false }
    else s
  if wanted && Fld.RCN.CTX_CFG_ROW_EN s.regs n == 1 && !rowActs s.regs n (s.streamWidthNow n) then s.fault (0x121 + n) 0x07 else s

/-- The RCN page at an apply point. -/
def State.applyRcn (s : State) : State := (List.range 4).foldl State.applyRcnCtx s

/-- The registers of another page apply and leave a context whose row correction acted too narrow a line for its optical-black columns: it reports CONFIG at that
apply point too (R107). -/
def State.rowsLost (s : State) (old : RegFile) (n : Nat) : State :=
  if s.enabled 0x12 && Fld.RCN.CTX_CFG_EN s.regs n == 1 && rowActs s.regs n (({ s with regs := old } : State).streamWidthNow n) && !rowActs s.regs n (s.streamWidthNow n)
  then s.fault (0x121 + n) 0x07 else s

/-- The stream settings that the integrator holds fixed, as the registers stand. -/
def State.geometryNow (s : State) (n : Nat) : Nat × Nat × Nat × Bool :=
  let c := s.readCfg n
  (s.streamWidthNow n, frameRows s.grpMode (s.membersOf n).length c.height, c.sampleBits, c.dual)

/-- A change of geometry, WIDTH or DUAL_GAIN applies: with no frame of the context in flight a running integration is ABORTED at once, else before the
first frame of the new geometry (R115). -/
def State.applyIntegrator (s : State) : State :=
  let n := Fld.RCS.INT_CFG_CTX s.integ.cfg
  if Fld.RCS.INT_STAT_STATE s.regs = 1 ∧ s.integ.geometry.isSome = true ∧ s.integ.geometry ≠ some (s.geometryNow n) ∧ s.intInFlight = false ∧
    (SMap.get (fun _ => []) s.rawIn n).isEmpty = true ∧ (s.stream n).frames.isEmpty = true then s.intAbort else s

/-- CNT_RESTART of RCN: bit s restarts context s's counters. -/
def rcnCounters : List (List RegAddr) :=
  (List.range 4).map (fun n => [Adr.RCN.DEF_UNFIXED n, Adr.RCN.DEF_REJECTED n, Adr.RCN.TABLE_ERR n, Adr.RCN.ROW_LIMITED n])

/-- Kiosk words of the RCS selectors: 0x20 + 4r + ph the totals, 0x40 + r the frame (R116). -/
def State.rcsKiosk (s : State) (sel : Nat) : Option (List Nat) :=
  if 0x20 ≤ sel ∧ sel < 0x40 then
    let t := SMap.get (fun _ => statEmpty) s.stats (sel - 0x20)
    some [unsigned t.sum 64 % 2 ^ 32, unsigned t.sum 64 / 2 ^ 32, unsigned t.min 25, unsigned t.max 25, t.clipped, t.count]
  else if 0x40 ≤ sel ∧ sel < 0x48 then
    let f := SMap.get (fun _ => (0, 0)) s.statFrame (sel - 0x40)
    some [f.1, f.2 % 256]
  else none

end Sys2Proof.Machine
end

