-- ==== Sys2Proof/Machine/TileCoder.lean ====
section
/-! DEFINITION. The Ebosh Raw tile coder as pure functions: sample mapping, prediction, quantisation, adaptive codes, rate control, and the decoder that
mirrors them (06_ebosh_raw.md, R117 to R128). -/

namespace Sys2Proof.Machine

/-! ### Coded samples and sizes (R118, R119) -/

/-- CW from its code. -/
def cwOf (code : Nat) : Nat := 10 + 2 * code

/-- PEDESTAL as it acts. -/
def actPedestal (cw p : Nat) : Nat := if p < 2 ^ cw then p else 2 ^ cw - 1

/-- The coded sample of an L25 code before the clamp (R118). -/
def mapRaw (cw ped : Nat) (v : Int) : Int := Int.fdiv (v + (2 ^ (23 - cw) : Nat)) (2 ^ (24 - cw) : Nat) + ped

/-- The coded sample, and whether the clamp acted. -/
def mapSample (cw ped : Nat) (v : Int) : Nat × Bool :=
  let x := mapRaw cw ped v
  let y := sat x 0 (2 ^ cw - 1)
  (y.toNat, decide (x ≠ y))

/-- The L25 code of a coded sample (R118). -/
def unmapSample (cw ped c : Nat) : Int := ((c : Int) - ped) * (2 ^ (24 - cw) : Nat)

/-- The ratios that RATIO2 lists: LOSSLESS, and 6 to 36 (R119). -/
def ratioList : List Nat := 0 :: (List.range 31).map (· + 6)

/-- TILE_BYTES of a fixed-rate mode; 0 in LOSSLESS (R119). -/
def tileBytesOf (cw ratio2 : Nat) : Nat := if ratio2 = 0 then 0 else 32 * (32 * cw / ratio2)

/-- MAX_TILE of LOSSLESS (R128). -/
def maxTile (cw : Nat) : Nat := 32 * ceilDiv (4 + 512 * cw) 32

/-- L_raw of LOSSLESS (R128). -/
def rawTileBytes (cw tw th : Nat) : Nat := 32 * ceilDiv (4 + tw * th * cw / 8) 32

/-! ### Prediction and quantisation (R123, R124) -/

/-- P of R123; a, b and d are the same-phase neighbours. -/
def predict (cw r c a b d : Nat) : Nat :=
  if r < 2 ∧ c < 2 then 2 ^ (cw - 1)
  else if r < 2 then a
  else if c < 2 then b
  else if d ≥ max a b then min a b
  else if d ≤ min a b then max a b
  else a + b - d

/-- q of a step index (R124). -/
def stepOf (qi : Nat) : Nat := nth 0 [0, 1, 2, 3, 4, 6, 8, 12, 16, 24, 32, 48, 64, 96, 128] qi

/-- The quantised residual (R124). -/
def quantise (q x p : Nat) : Int :=
  let e : Int := (x : Int) - p
  let n : Int := 2 * q + 1
  if 0 ≤ e then (e + q).tdiv n else -((-e + q).tdiv n)

/-- The reconstruction (R124). -/
def reconstruct (cw q p : Nat) (qe : Int) : Nat := (sat ((p : Int) + qe * (2 * q + 1)) 0 (2 ^ cw - 1)).toNat

/-! ### Adaptive codes (R125) -/

/-- A phase context (A, N). -/
structure PhaseCtx where
  a : Nat
  n : Nat
deriving DecidableEq, Repr

/-- A phase context at the start of a tile. -/
def phaseStart (cw : Nat) : PhaseCtx := { a := max 2 (2 ^ (cw - 7)), n := 1 }

/-- The smallest k in 0..CW with (N << k) ≥ A. -/
def PhaseCtx.k (x : PhaseCtx) (cw : Nat) : Nat := ((List.range (cw + 1)).find? (fun k => decide (x.a ≤ x.n * 2 ^ k))).getD cw

/-- The context after a photosite. -/
def PhaseCtx.step (x : PhaseCtx) (qe : Int) : PhaseCtx :=
  let a := x.a + qe.natAbs
  if x.n + 1 = 64 then { a := a / 2, n := 32 } else { a := a, n := x.n + 1 }

/-- The `n` low bits of a number, most significant first. -/
def bitsOf : Nat → Nat → List Bool
  | 0, _ => []
  | n + 1, x => bitOf x n :: bitsOf n x

/-- The number that bits spell, most significant first. -/
def natOf (bs : List Bool) : Nat := bs.foldl (fun a b => 2 * a + b2n b) 0

/-- m of R125. -/
def foldSign (qe : Int) : Nat := if 0 ≤ qe then (2 * qe).toNat else (-2 * qe - 1).toNat

/-- qe from m. -/
def unfoldSign (m : Nat) : Int := if m % 2 = 0 then (m / 2 : Nat) else -(((m + 1) / 2 : Nat) : Int)

/-- The codeword of a residual (R125). -/
def codeword (cw : Nat) (x : PhaseCtx) (qe : Int) : List Bool :=
  let k := x.k cw
  let m := foldSign qe
  if m / 2 ^ k < 20 then List.replicate (m / 2 ^ k) false ++ [true] ++ bitsOf k m
  else List.replicate 20 false ++ [true] ++ bitsOf (cw + 1) m

/-! ### Rows and segments (R122) -/

/-- Where a row stands: its two latest reconstructions and the two latest values of the row two above, with the contexts of its even and odd columns. -/
structure RowPos where
  c : Nat
  a1 : Nat
  a2 : Nat
  d1 : Nat
  d2 : Nat
  even : PhaseCtx
  odd : PhaseCtx
deriving DecidableEq, Repr

/-- The start of a row. -/
def rowPos (even odd : PhaseCtx) : RowPos := { c := 0, a1 := 0, a2 := 0, d1 := 0, d2 := 0, even := even, odd := odd }

/-- The context of the column. -/
def RowPos.ctx (p : RowPos) : PhaseCtx := if p.c % 2 = 0 then p.even else p.odd

/-- Past one column; `up` says that the contexts adapt (not in a HOLD segment). -/
def RowPos.next (p : RowPos) (up : Bool) (qe : Int) (rec b : Nat) : RowPos :=
  let x := if up then p.ctx.step qe else p.ctx
  { c := p.c + 1, a1 := rec, a2 := p.a1, d1 := b, d2 := p.d1, even := if p.c % 2 = 0 then x else p.even, odd := if p.c % 2 = 0 then p.odd else x }

/-- The prediction at a column of row r, with `b` the value two rows above. -/
def RowPos.pred (p : RowPos) (cw r b : Nat) : Nat := predict cw r p.c p.a2 b p.d2

/-- Code a row: per photosite its residual, codeword and reconstruction. `above` is the row two above. -/
def codeRow (cw q r : Nat) : RowPos → List Nat → List Nat → List (Int × List Bool × Nat) × RowPos
  | p, [], _ => ([], p)
  | p, x :: xs, above =>
    let b := above.headD 0
    let pr := p.pred cw r b
    let qe := quantise q x pr
    let rec_ := reconstruct cw q pr qe
    let w := codeword cw p.ctx qe
    let (rest, e) := codeRow cw q r (p.next true qe rec_ b) xs above.tail
    ((qe, w, rec_) :: rest, e)

/-- The bits of a coded row: a flag for each group of 16, and the codewords of groups that are not all zero. -/
def groupBits (g : List (Int × List Bool × Nat)) : List Bool :=
  if g.all (fun e => e.1 == 0) then [false] else true :: g.flatMap (fun e => e.2.1)

/-- A row of predictions: every photosite of a HOLD row is its prediction. -/
def holdRow (cw r : Nat) : RowPos → Nat → List Nat → List Nat × RowPos
  | p, 0, _ => ([], p)
  | p, n + 1, above =>
    let b := above.headD 0
    let pr := p.pred cw r b
    let (rest, e) := holdRow cw r (p.next false 0 pr b) n above.tail
    (pr :: rest, e)

/-- The state between segments of a tile: the two latest reconstructed rows, the four phase contexts and the row number. -/
structure TilePos where
  r : Nat
  row0 : List Nat
  row1 : List Nat
  ph0 : PhaseCtx
  ph1 : PhaseCtx
  ph2 : PhaseCtx
  ph3 : PhaseCtx
deriving DecidableEq, Repr

/-- The start of a tile. -/
def tileStart (cw : Nat) : TilePos :=
  { r := 0, row0 := [], row1 := [], ph0 := phaseStart cw, ph1 := phaseStart cw, ph2 := phaseStart cw, ph3 := phaseStart cw }

/-- Code one segment with step index `qi`: its bits and the position after it. -/
def codeSegment (cw qi : Nat) (t : TilePos) (x0 x1 : List Nat) : List Bool × TilePos :=
  let q := stepOf qi
  let (c0, e0) := codeRow cw q t.r (rowPos t.ph0 t.ph1) x0 t.row0
  let (c1, e1) := codeRow cw q (t.r + 1) (rowPos t.ph2 t.ph3) x1 t.row1
  let groups (c : List (Int × List Bool × Nat)) : List Bool := (chunks 16 c.length c).flatMap groupBits
  (bitsOf 4 qi ++ groups c0 ++ groups c1,
   { r := t.r + 2, row0 := c0.map (·.2.2), row1 := c1.map (·.2.2), ph0 := e0.even, ph1 := e0.odd, ph2 := e1.even, ph3 := e1.odd })

/-- A HOLD segment (R122, R125): 4 bits, and every context unchanged. -/
def holdSegment (cw : Nat) (t : TilePos) (width : Nat) : List Bool × TilePos :=
  let (c0, _) := holdRow cw t.r (rowPos t.ph0 t.ph1) width t.row0
  let (c1, _) := holdRow cw (t.r + 1) (rowPos t.ph2 t.ph3) width t.row1
  (bitsOf 4 15, { t with r := t.r + 2, row0 := c0, row1 := c1 })

/-- Rate control of one segment (R126): the smallest step index whose coding takes at most `target` bits, else HOLD. -/
def chooseSegment (cw target : Nat) (t : TilePos) (x0 x1 : List Nat) : List Bool × TilePos × Bool :=
  match ((List.range 15).map (fun qi => codeSegment cw qi t x0 x1)).find? (fun e => decide (e.1.length ≤ target)) with
  | some e => (e.1, e.2, false)
  | none =>
    let h := holdSegment cw t x0.length
    (h.1, h.2, true)

/-- The segments of a fixed-rate tile (R126): the payload bits and the HOLD segments. `budget` is B − used. -/
def codeFixed (cw : Nat) : Nat → TilePos → List (List Nat × List Nat) → List Bool × Nat
  | _, _, [] => ([], 0)
  | budget, t, s :: rest =>
    let avail := budget - 4 * rest.length
    let (bs, t, hold) := chooseSegment cw (2 * avail / (rest.length + 2)) t s.1 s.2
    let (more, n) := codeFixed cw (budget - bs.length) t rest
    (bs ++ more, n + b2n hold)

/-- The segments of a LOSSLESS tile: QI = 0 throughout (R128). -/
def codeLossless (cw : Nat) : TilePos → List (List Nat × List Nat) → List Bool
  | _, [] => []
  | t, s :: rest =>
    let (bs, t) := codeSegment cw 0 t s.1 s.2
    bs ++ codeLossless cw t rest

/-! ### Tiles (R120, R121, R127, R128) -/

/-- Bits to bytes, bit 7 first; the last byte is padded with zeros. `k` bounds the bytes. -/
def packBits : Nat → List Bool → List Byte
  | 0, _ => []
  | k + 1, bs => if bs.isEmpty then [] else BitVec.ofNat 8 (natOf ((bs.take 8) ++ List.replicate (8 - bs.length) false)) :: packBits k (bs.drop 8)

/-- Bytes to bits, bit 7 first. -/
def unpackBits (bs : List Byte) : List Bool := bs.flatMap (fun b => bitsOf 8 b.toNat)

/-- One bit of the CRC-16 register. -/
def crc16Shift (x : Nat) : Nat := if bitOf x 15 then (2 * x % 2 ^ 16) ^^^ 0x1021 else 2 * x % 2 ^ 16

/-- The CRC-16 register after one byte. -/
def crc16Byte (x : Nat) (b : Byte) : Nat :=
  crc16Shift (crc16Shift (crc16Shift (crc16Shift (crc16Shift (crc16Shift (crc16Shift (crc16Shift (x ^^^ (b.toNat * 256)))))))))

/-- CRC-16 of R121: polynomial 0x1021, initial value 0xFFFF, most significant bit first. -/
def crc16 (bs : List Byte) : Nat := bs.foldl crc16Byte 0xFFFF

/-- The tile header word (R120). -/
def tileHeader (type tag crc : Nat) : List Byte := leBytes 4 (type + tag * 2 ^ 8 + crc * 2 ^ 16)

/-- TAG of tile i of a frame (R120). -/
def tileTag (frameCount i : Nat) : Nat := (frameCount + i) % 256

/-- A tile of `n` bytes from its payload bits (R120, R121). -/
def sealTile (type tag n : Nat) (payload : List Bool) : List Byte :=
  let bytes := packBits (n - 4) payload
  let p := bytes ++ List.replicate (n - 4 - bytes.length) 0
  tileHeader type tag (crc16 p) ++ p

/-- The segments of a tile's rows: pairs of rows. -/
def segmentsOf : List (List Nat) → List (List Nat × List Nat)
  | a :: b :: r => (a, b) :: segmentsOf r
  | _ => []

/-- A fixed-rate tile, with its HOLD segments (R119, R126). -/
def encodeFixed (cw tileBytes tag : Nat) (rows : List (List Nat)) : List Byte × Nat :=
  let (bs, n) := codeFixed cw (8 * tileBytes - 32) (tileStart cw) (segmentsOf rows)
  (sealTile 0 tag tileBytes bs, n)

/-- A LOSSLESS tile, and whether it is a RAW tile (R128). -/
def encodeLossless (cw tag : Nat) (rows : List (List Nat)) : List Byte × Bool :=
  let tw := (rows.headD []).length
  let bs := codeLossless cw (tileStart cw) (segmentsOf rows)
  let n := 32 * ceilDiv (4 + ceilDiv bs.length 8) 32
  let lraw := rawTileBytes cw tw rows.length
  if lraw < n then (sealTile 2 tag lraw (rows.flatMap (fun r => r.flatMap (bitsOf cw))), true)
  else (sealTile 0 tag n bs, false)

/-- The header word of a PAD tile (R127). -/
def padTile (tag : Nat) : List Byte := tileHeader 1 tag 0

/-! ### Decoding (R118, R120 to R125, R137) -/

/-- The number of zeros before the first one, at most `cap`, with what follows the one; none where the bits run out. -/
def readUnary : Nat → List Bool → Option (Nat × List Bool)
  | 0, true :: r => some (0, r)
  | 0, _ => none
  | _ + 1, [] => none
  | _ + 1, true :: r => some (0, r)
  | cap + 1, false :: r => (readUnary cap r).map (fun e => (e.1 + 1, e.2))

/-- `n` bits, and the rest; none where the bits run out. -/
def takeBits (n : Nat) (bs : List Bool) : Option (Nat × List Bool) := if bs.length < n then none else some (natOf (bs.take n), bs.drop n)

/-- Read one codeword (R125). -/
def readCode (cw : Nat) (x : PhaseCtx) (bs : List Bool) : Option (Int × List Bool) :=
  match readUnary 20 bs with
  | none => none
  | some (z, r) =>
    let k := x.k cw
    if z < 20 then (takeBits k r).map (fun e => (unfoldSign (z * 2 ^ k + e.1), e.2))
    else (takeBits (cw + 1) r).map (fun e => (unfoldSign e.1, e.2))

/-- Decode the photosites of one group; `flag` says that codewords follow. -/
def decodeGroup (cw q r : Nat) (flag : Bool) : Nat → RowPos → List Nat → List Bool → Option (List Nat × RowPos × List Nat × List Bool)
  | 0, p, above, bs => some ([], p, above, bs)
  | n + 1, p, above, bs =>
    let b := above.headD 0
    let pr := p.pred cw r b
    match (if flag then readCode cw p.ctx bs else some (0, bs)) with
    | none => none
    | some (qe, bs) =>
      let v := reconstruct cw q pr qe
      (decodeGroup cw q r flag n (p.next true qe v b) above.tail bs).map (fun e => (v :: e.1, e.2))

/-- Decode `n` groups of a row. -/
def decodeRow (cw q r : Nat) : Nat → RowPos → List Nat → List Bool → Option (List Nat × RowPos × List Bool)
  | 0, p, _, bs => some ([], p, bs)
  | n + 1, p, above, bs =>
    match bs with
    | [] => none
    | flag :: bs =>
      match decodeGroup cw q r flag 16 p above bs with
      | none => none
      | some (vs, p, above, bs) => (decodeRow cw q r n p above bs).map (fun e => (vs ++ e.1, e.2))

/-- Decode `n` segments of a tile `tw` wide: its rows of coded samples, none where the payload runs out. -/
def decodeSegments (cw tw : Nat) : Nat → TilePos → List Bool → Option (List (List Nat))
  | 0, _, _ => some []
  | n + 1, t, bs =>
    match takeBits 4 bs with
    | none => none
    | some (qi, bs) =>
      if qi = 15 then
        let (_, t2) := holdSegment cw t tw
        (decodeSegments cw tw n t2 bs).map (fun r => t2.row0 :: t2.row1 :: r)
      else
        match decodeRow cw (stepOf qi) t.r (tw / 16) (rowPos t.ph0 t.ph1) t.row0 bs with
        | none => none
        | some (v0, e0, bs) =>
          match decodeRow cw (stepOf qi) (t.r + 1) (tw / 16) (rowPos t.ph2 t.ph3) t.row1 bs with
          | none => none
          | some (v1, e1, bs) =>
            let t2 : TilePos := { r := t.r + 2, row0 := v0, row1 := v1, ph0 := e0.even, ph1 := e0.odd, ph2 := e1.even, ph3 := e1.odd }
            (decodeSegments cw tw n t2 bs).map (fun r => v0 :: v1 :: r)

/-- The rows of a RAW tile. -/
def decodeRaw (cw tw th : Nat) (bs : List Bool) : Option (List (List Nat)) :=
  if bs.length < tw * th * cw then none
  else some (chunks tw th ((chunks cw (tw * th) bs).map natOf))

/-- Decode a tile from its bytes: its coded samples by row; none where a check of R137 fails. -/
def decodeTile (cw ped tw th tag : Nat) (bytes : List Byte) : Option (List (List Nat)) :=
  let h := leNat (bytes.take 4)
  let payload := bytes.drop 4
  if bytes.length < 4 then none
  else if bits h 0 4 = 1 then some (List.replicate th (List.replicate tw ped))
  else if bits h 8 8 ≠ tag ∨ bits h 16 16 ≠ crc16 payload then none
  else if bits h 0 4 = 0 then decodeSegments cw tw (th / 2) (tileStart cw) (unpackBits payload)
  else if bits h 0 4 = 2 then decodeRaw cw tw th (unpackBits payload)
  else none

/-! ### Stored frames (R129 to R131, R137) -/

/-- TILES_X and TILES_Y (R117). -/
def tilesX (w : Nat) : Nat := ceilDiv w 256
def tilesY (h : Nat) : Nat := ceilDiv h 16

/-- Whether MAGIC, VERSION and HDR_CRC hold. -/
def headerGood (b : List Byte) : Bool :=
  fieldOf b 0 4 == 0x31524245 && fieldOf b 4 2 == 1 && fieldOf b 0xFFC 4 == crc32 (b.take 0xFFC)

/-- Decode tile i of a stored frame, whose bytes `read` gives with the error response that a read meets: its coded samples, or none where a check of R137
fails; and that error response. -/
def tileFrom (read : Nat → Nat → List Byte × Option Nat) (hd : List Byte) (i tw th : Nat) : Option (List (List Nat)) × Option Nat :=
  let cw := fieldOf hd 0x38 1
  let tag := tileTag (fieldOf hd 0x08 4) i
  let ped := actPedestal cw (fieldOf hd 0x3A 2)
  if fieldOf hd 0x39 1 ≠ 0 then
    let tb := fieldOf hd 0x3C 4
    let (b, e) := read (4096 + i * tb) tb
    (if e.isSome then none else decodeTile cw ped tw th tag b, e)
  else
    let (ix, e) := read (4096 + 4 * (i - 1)) (if i = 0 then 8 else 12)
    let a := fieldOf ix (if i = 0 then 0 else 4) 4 * 32
    let z := fieldOf ix (if i = 0 then 4 else 8) 4 * 32
    let before := if i = 0 then 0 else fieldOf ix 0 4 * 32
    if e.isSome then (none, e) else
    if a < before ∨ z < a ∨ fieldOf hd 0x44 4 < z then (none, none) else
    let (b, e) := read a (z - a)
    (if e.isSome then none else decodeTile cw ped tw th tag b, e)

/-- Whether every tile of a stored frame passes its checks (R137, R207). -/
def tilesGood (frame : List Byte) : Bool :=
  let w := fieldOf frame 0x30 2
  let h := fieldOf frame 0x32 2
  (List.range (tilesX w * tilesY h)).all (fun i =>
    (tileFrom (fun o n => ((frame.drop o).take n, none)) frame i (min 256 (w - 256 * (i % tilesX w))) (min 16 (h - 16 * (i / tilesX w)))).1.isSome)

end Sys2Proof.Machine
end

