-- ==== Sys2Proof/Machine/Boathouse.lean ====
section
/-! DEFINITION. The Boathouse: member drives, striped volumes, the journal, recording channels and fetch (10_boathouse.md, R197 to R214). -/

namespace Sys2Proof.Machine

/-! ### Members (R197 to R200) -/

/-- A member, and storing it. -/
def State.member (s : State) (m : Nat) : Member := SMap.get (fun _ => memberReset) s.bth.members m
def State.setMember (s : State) (m : Nat) (x : Member) : State :=
  { s with bth := { s.bth with members := SMap.set (fun _ => memberReset) s.bth.members m x } }

/-- MEM_STAT.STATE of a member, and setting it. -/
def State.memState (s : State) (m : Nat) : Nat := Fld.BTM.MEM_STAT_STATE s.regs m
def State.setMemState (s : State) (m st : Nat) : State := s.setReg (Adr.BTM.MEM_STAT m) st

/-- The unit ID of a member (R200). -/
def memberUnit (m : Nat) : Nat := 0xF00 + m

/-- An event fault of a member, which the BTM page holds (R200). -/
def State.memberFault (s : State) (m code : Nat) : State :=
  (((s.hold { page := 0x31, cause := memberUnit m, code := code, event := true, unit := memberUnit m }).report (memberUnit m) (memberUnit m) code)).setReg
    Adr.BTM.FAULT_MEM m

/-- The condition fault LINK_DOWN of a member begins, or ends (R199). -/
def State.memberDown (s : State) (m : Nat) : State :=
  let h : Held := { page := 0x31, cause := memberUnit m, code := 0x06, event := false, unit := memberUnit m }
  if s.holds h then s else ((s.hold h).report (memberUnit m) (memberUnit m) 0x06).setReg Adr.BTM.FAULT_MEM m
def State.memberUp (s : State) (m : Nat) : State :=
  { s with held := s.held.filter (fun x => decide (x ≠ { page := 0x31, cause := memberUnit m, code := 0x06, event := false, unit := memberUnit m })) }

/-- QDEPTH as it acts. -/
def State.qdepth (s : State) (m : Nat) : Nat := inRange (Adr.BTM.MEM_CFG m) (Fld.BTM.MEM_CFG_QDEPTH s.regs m) 16 1024

/-- Whether a command goes to the admin queue, whether it writes the medium, and whether it names the namespace (R198). -/
def MemberOp.isAdmin : MemberOp → Bool
  | .read | .write _ => false
  | _ => true
def MemberOp.isWrite : MemberOp → Bool
  | .write _ => true
  | _ => false
def MemberOp.namesNamespace : MemberOp → Bool
  | .identifyNamespace | .read | .write _ => true
  | _ => false

/-- The commands a member has been issued and has not ended: a full submission queue delays the rest (R199), and so does a command that waits for staging. -/
def State.issuedTo (s : State) (m : Nat) : List MemberCmd :=
  let live := (s.member m).cmds.filter (fun c => !c.failed)
  (live.filter (fun c => c.op.isAdmin)).takeWhile (·.ready) ++ ((live.filter (fun c => !c.op.isAdmin)).take (s.qdepth m - 1)).takeWhile (·.ready)

/-- The units of the staging region that no command names and no queue of a member lies in, from a place the spec does not give (R197, R198); the first serve the
next command to a member. -/
def State.staging (s : State) (m : Nat) : List Nat :=
  let start := Config.stageUnit (m * 2 ^ 16 + (s.member m).nextCid)
  let used := s.bth.members.flatMap (fun e => e.2.queues ++ e.2.cmds.flatMap (·.units))
  ((List.range 1024).map (fun k => Fld.BTH.STAGE_UNIT s.regs + (start + k) % 1024)).filter (fun u => !used.contains u)

/-- Blocks take units for those that have none. -/
def fillBlocks : List Block → List Nat → List Block
  | [], _ => []
  | b :: r, free => match b.unit, free with
    | none, u :: rest => { b with unit := some u } :: fillBlocks r rest
    | _, _ => b :: fillBlocks r free

/-- A command takes staging units for its blocks once there are enough, and its data goes there; else it waits for them (R198). -/
def State.stageCmd (s : State) (m : Nat) (c : MemberCmd) : MemberCmd × State :=
  let free := s.staging m
  if free.length < (c.blocks.filter (fun b => b.unit.isNone)).length then (c, s) else
  let blocks := fillBlocks c.blocks free
  ({ c with blocks := blocks.map (fun b => { b with data := [] }) },
    blocks.foldl (fun (s : State) b => match b.unit with
      | some u => if b.data.isEmpty then s else s.storeSeen (u * 4096) b.data
      | none => s) s)

/-- A command to a member. Behind one that waits for staging it waits too. -/
def State.command (s : State) (m : Nat) (op : MemberOp) (blocks : List Block) (addr bytes : Nat) (u : MemberUse) : State :=
  let x := s.member m
  let c : MemberCmd := { cid := x.nextCid, op := op, nsid := if op.namesNamespace then Fld.BTM.NSID s.regs m else 0, blocks := blocks, addr := addr,
                         bytes := bytes, retries := 0, failed := false, purpose := u }
  let (c, s) := if x.cmds.all (·.ready) then s.stageCmd m c else (c, s)
  s.setMember m { x with nextCid := (x.nextCid + 1) % 2 ^ 16, cmds := x.cmds ++ [c] }

/-- A block in a unit, and one of the staging region with its bytes. -/
def inUnit (u : Nat) : Block := { unit := some u, data := [] }
def stagedBlock (data : List Byte) : Block := { unit := none, data := data }

/-- The commands of a member that wait for staging take it in order, as far as there is enough. -/
def State.restageMember (s : State) (m : Nat) : Nat → State
  | 0 => s
  | k + 1 =>
    match (s.member m).cmds.find? (fun c => !c.ready) with
    | none => s
    | some c =>
      let (d, t) := s.stageCmd m c
      if d.ready then
        (t.setMember m { t.member m with cmds := (t.member m).cmds.map (fun e => if e = c then d else e) }).restageMember m k
      else s

/-- Whether a member command waits for staging; and those that wait take what has become free. -/
def State.blocksWait (s : State) : Bool := s.bth.members.any (fun e => e.2.cmds.any (fun c => !c.ready))
def State.restage (s : State) : State :=
  if s.blocksWait then (List.range 32).foldl (fun s m => s.restageMember m (s.member m).cmds.length) s else s

/-- Remove the commands that serve a purpose. -/
def State.dropCommands (s : State) (p : MemberUse → Bool) : State :=
  ((List.range 32).foldl (fun s m =>
    let x := s.member m
    s.setMember m { x with cmds := x.cmds.filter (fun c => !p c.purpose) }) s).restage

/-- Whether a command that serves a purpose has not ended with success; and whether one has not ended at all. -/
def State.outstanding (s : State) (p : MemberUse → Bool) : Bool := s.bth.members.any (fun e => e.2.cmds.any (fun c => p c.purpose))
def State.runs (s : State) (p : MemberUse → Bool) : Bool := s.bth.members.any (fun e => e.2.cmds.any (fun c => p c.purpose && !c.failed))

/-- A command of the initialisation (R197). -/
def State.initCommand (s : State) (m : Nat) (op : MemberOp) : State := s.command m op [stagedBlock []] 0 4096 .init

/-- `n` bytes of queues of a member take staging units, which they keep until the member is disabled (R197): the units. -/
def State.holdQueue (s : State) (m n : Nat) : List Nat × State :=
  let us := (s.staging m).take (ceilDiv n 4096)
  (us, s.setMember m { s.member m with queues := (s.member m).queues ++ us })

/-- MEMBER_ENABLE: EN is written 1 and an ABSENT member enters INIT (R199). Step 1 of R197 clears CC.EN at the drive's BAR0; step 2 places an admin submission and an
admin completion queue of one unit each in the staging region and sets CC.EN; the first command of step 3 follows. -/
def memberEnable (m : Nat) (s : State) : State :=
  if s.memState m ≠ 0 then s else
  let s := (s.setFld (Adr.BTM.MEM_CFG m) 0 1 1).setMemState m 1
  let port := Fld.BTM.MEM_CFG_PORT s.regs m
  let bar := s.rd (Adr.BTM.MEM_BAR_LO m) + 2 ^ 32 * s.rd (Adr.BTM.MEM_BAR_HI m)
  let s := (s.setMember m { memberReset with cmds := (s.member m).cmds.filter (·.failed) }).emit (.memberControl port bar false [])
  let (admin, s) := s.holdQueue m 8192
  (s.emit (.memberControl port bar true (admin.map (· * 4096)))).initCommand m .identifyController

/-! ### Volumes (R201 to R205) -/

/-- M and J of a volume. -/
def State.volM (s : State) (v : Nat) : Nat := inRange (Adr.BTH.VOL_CFG v) (Fld.BTH.VOL_CFG_M s.regs v) 1 32
def State.volJ (s : State) (v : Nat) : Nat := inRange (Adr.BTH.VOL_CFG v) (Fld.BTH.VOL_CFG_J s.regs v) 4 4096

/-- A member-table entry: MEMBER and EXT_BASE (R202). -/
def State.slotWord (s : State) (v k : Nat) : Nat := (SMap.get (fun _ => 0) s.bth.table (v * 32 + k) : Word).toNat
def State.slotMember (s : State) (v k : Nat) : Nat := bits (s.slotWord v k) 0 5
def State.slotBase (s : State) (v k : Nat) : Nat := bits (s.slotWord v k) 5 27

/-- The members of a volume, by slot. -/
def State.volMembers (s : State) (v : Nat) : List Nat := (List.range (s.volM v)).map (s.slotMember v)

/-- VOL_STAT.STATE of a volume, and setting it: 0 OFF, 1 CLOSED, 2 BUSY, 3 OPEN, 4 FAILED, 5 LABEL_BAD. -/
def State.volState (s : State) (v : Nat) : Nat := Fld.BTH.VOL_STAT_STATE s.regs v
def State.setVolState (s : State) (v st : Nat) : State := s.setReg (Adr.BTH.VOL_STAT v) st

/-- What a volume waits for, and setting it. -/
def State.volWait (s : State) (v : Nat) : VolWait := SMap.get (fun _ => .none) s.bth.waits v
def State.setVolWait (s : State) (v : Nat) (w : VolWait) : State := { s with bth := { s.bth with waits := SMap.set (fun _ => .none) s.bth.waits v w } }

/-- A volume's size in bytes (R202). -/
def State.volBytes (s : State) (v : Nat) : Nat := s.volM v * Fld.BTH.EXT_STRIPES s.regs v * 2 ^ 20

/-- A volume fault; FAULT_VOL names the volume. -/
def State.volFault (s : State) (v code : Nat) : State := (s.setReg Adr.BTH.FAULT_VOL v).fault 0x30A code

/-- The media address of a volume offset: its member and its byte offset in the namespace (R202). -/
def State.mediaOf (s : State) (v o : Nat) : Nat × Nat :=
  let stripe := o / 2 ^ 20
  let k := stripe % s.volM v
  (s.slotMember v k, (s.slotBase v k + stripe / s.volM v) * 2 ^ 20 + o % 2 ^ 20)

/-- The media address as one 52-bit number (R201). -/
def mediaAddress (m o : Nat) : Nat := m * 2 ^ 47 + o

/-- The most bytes one command to a member moves (R198). -/
def State.maxMove (s : State) (m : Nat) : Nat :=
  let w := 2 ^ 16 * 2 ^ Fld.BTH.WR_MAX s.regs
  let d := (s.member m).mdts
  if d = 0 then w else min d w

/-- Issue the commands that cover `len` bytes at a volume offset, none across a stripe boundary nor above the most bytes (R198); `blocks` are those
that they move, in order. -/
def State.issueSpan (s : State) (v : Nat) (isWrite : Bool) (u : MemberUse) : Nat → Nat → Nat → List Block → State
  | 0, _, _, _ => s
  | fuel + 1, o, len, blocks =>
    if len = 0 then s else
    let (m, a) := s.mediaOf v o
    let n := min len (min (s.maxMove m) (2 ^ 20 - o % 2 ^ 20))
    (s.command m (if isWrite then .write true else .read) (blocks.take (ceilDiv n 4096)) a n u).issueSpan v isWrite u fuel (o + n) (len - n)
      (blocks.drop (n / 4096))

/-- Issue a 4 KiB write from the staging region. -/
def State.issueStaged (s : State) (v o : Nat) (data : List Byte) (u : MemberUse) : State :=
  let (m, a) := s.mediaOf v o
  s.command m (.write true) [stagedBlock data] a 4096 u

/-- Add the CRC of bytes 0x000 to 0xFFB at 0xFFC. -/
def sealPage (b : List Byte) : List Byte := overlay b 0xFFC (leBytes 4 (crc32 (b.take 0xFFC)))

/-- The label of a volume (R204). -/
def State.labelBytes (s : State) (v : Nat) (ptpSeconds : Nat) : List Byte :=
  let page := overlays (List.replicate 4096 0)
    [(0, 4, 0x4C564245), (4, 2, 1), (8, 4, Fld.BTH.FORMAT_ID s.regs v), (12, 1, s.volM v), (16, 4, Fld.BTH.EXT_STRIPES s.regs v), (20, 4, s.volJ v),
     (24, 8, ptpSeconds % 2 ^ 48)]
  sealPage (overlays page ((List.range (s.volM v)).map (fun k => (0x40 + 4 * k, 4, s.slotWord v k))))

/-- Whether a label is valid and matches the configuration (R203, R204): every field but the PTP seconds and the CRC over them is fixed. -/
def State.labelGood (s : State) (v : Nat) (b : List Byte) : Bool := decide (b = s.labelBytes v (fieldOf b 24 8))

/-- Whether extent k of volume v overlaps extent j of volume w (on the same member). -/
def State.overlap (s : State) (v k w j : Nat) : Bool :=
  s.slotMember v k == s.slotMember w j && decide (s.slotBase v k < s.slotBase w j + Fld.BTH.EXT_STRIPES s.regs w) &&
    decide (s.slotBase w j < s.slotBase v k + Fld.BTH.EXT_STRIPES s.regs v)

/-- The configuration check of R203. -/
def State.volConfigGood (s : State) (v : Nat) : Bool :=
  let slots := List.range (s.volM v)
  let ext := Fld.BTH.EXT_STRIPES s.regs v
  let fits := slots.all (fun k =>
    decide ((s.slotBase v k + ext) * 2 ^ 20 ≤ (s.member (s.slotMember v k)).capacity) && decide (s.slotBase v k + ext ≤ 2 ^ 27))
  let once := slots.all (fun k => (List.range k).all (fun j => s.slotMember v k != s.slotMember v j))
  let others := (List.range 16).filter (fun w => w != v && Fld.BTH.VOL_CFG_EN s.regs w == 1)
  let apart := others.all (fun w => slots.all (fun k => (List.range (s.volM w)).all (fun j => !s.overlap v k w j)))
  fits && once && apart && decide (s.volJ v + 2 ≤ s.volM v * ext)

/-- VOLUME_ENABLE: EN is written 1 on a volume that is OFF; its configuration is checked and its label is read (R203). -/
def volumeEnable (v : Nat) (s : State) : State :=
  if s.volState v ≠ 0 ∨ s.volWait v ≠ .none then s else
  let s := s.setFld (Adr.BTH.VOL_CFG v) 0 1 1
  if s.volConfigGood v then
    let (m, a) := s.mediaOf v 0
    (s.command m .read [stagedBlock []] a 4096 (.labelRead v)).setVolWait v .label
  else (s.setVolState v 5).volFault v 0x07

/-- LABEL_READ_DONE: CLOSED, or LABEL_BAD with event fault LABEL_BAD (R203). -/
def labelReadDone (v : Nat) (label : List Byte) (s : State) : State :=
  if s.volWait v ≠ .label then s else
  let s := (s.dropCommands (fun u => decide (u = .labelRead v))).setVolWait v .none
  if s.labelGood v label then s.setVolState v 1 else (s.setVolState v 5).volFault v 0x21

/-- Whether a host Write to a volume's namespace is outstanding (R218). -/
def State.hostWrites (s : State) (v : Nat) : Bool := s.ofc.cmds.any (fun c => c.sq != 0 && c.cmd.opcode == 1 && c.cmd.nsid == v + 1)

/-! ### Channels: records and takes (R206 to R213) -/

/-- A channel, and storing it. -/
def State.recChan (s : State) (c : Nat) : Chan := SMap.get (fun _ => chanReset) s.bth.chans c
def State.setRecChan (s : State) (c : Nat) (x : Chan) : State := { s with bth := { s.bth with chans := SMap.set (fun _ => chanReset) s.bth.chans c x } }

/-- The unit ID of a channel. -/
def chanUnit (c : Nat) : Nat := 0x301 + c

/-- CH_STAT: 0 IDLE, 1 RECORDING, 2 DRAINING, 3 HALTED with its REASON. -/
def State.chState (s : State) (c : Nat) : Nat := Fld.BTH.CH_STAT_STATE s.regs c
def State.setCh (s : State) (c st reason : Nat) : State := s.setReg (Adr.BTH.CH_STAT c) (st + 16 * reason)

/-- Whether a channel is a CODEC channel. -/
def State.isCodec (s : State) (c : Nat) : Bool := Fld.BTH.CH_CFG_KIND s.regs c == 1

/-- The journal slots of a volume, and the next one. -/
def State.slots (s : State) (v : Nat) : Nat := 256 * s.volJ v
def State.nextSeq (s : State) (v : Nat) : Nat := Fld.BTH.JNL_USED s.regs v

/-- A journal record (R206). -/
structure JournalRec where
  type : Nat
  takeId : Nat
  kind : Nat
  src : Nat
  channel : Nat
  flags : Nat
  epoch : Nat
  stripe : Nat
  stride : Nat
  first : Nat
  last : Nat
  bytes : Nat
  sof : Nat
  reason : Nat
  gapFirst : Nat
  gapCount : Nat
  prevVol : Nat
  prevTake : Nat
  header : List Byte
deriving DecidableEq, Repr

/-- The 4 KiB of a journal record (R206). -/
def State.journalBytes (s : State) (v seq : Nat) (r : JournalRec) : List Byte :=
  let page := overlays (List.replicate 4096 0)
    [(0, 4, 0x524A4245), (4, 2, 1), (6, 2, r.type), (8, 8, seq), (16, 4, Fld.BTH.FORMAT_ID s.regs v), (20, 4, r.takeId), (24, 1, r.kind), (25, 1, r.src),
     (26, 1, r.channel), (27, 1, r.flags), (28, 2, r.epoch), (32, 4, r.stripe), (36, 4, r.stride), (40, 4, r.first), (44, 4, r.last), (48, 8, r.bytes),
     (56, 8, s.time.sec % 2 ^ 48), (64, 4, s.time.ns), (68, 4, r.sof % 2 ^ 32), (72, 1, r.reason), (76, 4, r.gapFirst), (80, 4, r.gapCount),
     (84, 1, r.prevVol), (88, 4, r.prevTake), (92, 1, r.sof / 2 ^ 32)]
  sealPage (overlay page 0x100 (r.header.take 256 ++ List.replicate (256 - r.header.length) 0))

/-- Write a record into the next slot of a volume's journal (R206). -/
def State.appendJournal (s : State) (v : Nat) (r : JournalRec) : State :=
  let seq := s.nextSeq v
  (s.issueStaged v (2 ^ 20 + 4096 * seq) (s.journalBytes v seq r) (.journal v seq)).bump (Adr.BTH.JNL_USED v)

/-- A record of a channel's take; LAST_FC and its SOF_TIME are free while nothing has been released. -/
def State.chanRecord (s : State) (c : Nat) (t : Take) (type reason gapFirst gapCount : Nat) (header : List Byte) : JournalRec × State :=
  let (last, sof, s) := match t.last with
    | some k => (k, t.lastSof, s)
    | none => (let (ws, s) := s.drawWords 3; ((nth 0 ws 0).toNat, (nth 0 ws 1).toNat + 2 ^ 32 * ((nth 0 ws 2).toNat % 256), s))
  ({ type := type, takeId := t.id, kind := Fld.BTH.CH_CFG_KIND s.regs c, src := Fld.BTH.CH_CFG_SRC s.regs c, channel := c,
     flags := (if t.continuation then 2 else 0) + (if t.isolated then 4 else 0), epoch := Fld.HIE.EPOCH s.regs, stripe := t.stripe, stride := t.stride,
     first := t.first.getD 0, last := last, bytes := t.bytes, sof := sof, reason := reason, gapFirst := gapFirst, gapCount := gapCount,
     prevVol := t.prevVol, prevTake := t.prevTake, header := header }, s)

/-- TAKE_END, into any slot that is left, and the append stripe after the take's last byte (R206, R208). -/
def State.endTake (s : State) (c : Nat) (t : Take) (reason : Nat) : State :=
  let s := s.setReg (Adr.BTH.APPEND t.vol) (t.stripe + ceilDiv t.bytes (2 ^ 20))
  if t.first.isSome && decide (s.nextSeq t.vol < s.slots t.vol) && decide (s.volState t.vol = 3 ∨ s.volState t.vol = 4) then
    let (r, s) := s.chanRecord c t 3 reason 0 0 []
    s.appendJournal t.vol r
  else s

/-- A channel halts with a reason; what it has not released it holds (R212). A CODEC channel that is not RECORDING passes its records (R210). -/
def State.haltChan (s : State) (c reason : Nat) (endReason : Option Nat) : State :=
  let x := s.recChan c
  let s := s.setCh c 3 reason
  let s := match endReason, x.take with
    | some r, some t => s.endTake c t r
    | _, _ => s
  if s.isCodec c then
    let src := Fld.BTH.CH_CFG_SRC s.regs c
    (s.setRecChan c { x with items := [], held := [] }).setReg (Adr.GLS.RD_PTR src) (s.rd (Adr.GLS.WR_PTR src))
  else s.setRecChan c { x with items := [], held := x.items ++ x.held ++ x.queue, queue := [] }

/-- Write a record of a channel other than a TAKE_END; where only the last slot is left the channel halts instead (R206). -/
def State.chanJournal (s : State) (c : Nat) (t : Take) (type gapFirst gapCount : Nat) (header : List Byte) : Bool × State :=
  if s.nextSeq t.vol + 1 < s.slots t.vol then
    let (r, s) := s.chanRecord c t type 0 gapFirst gapCount header
    (true, s.appendJournal t.vol r)
  else (false, (s.haltChan c 4 (some 3)).volFault t.vol 0x22)

/-- The offset of an item from the take start (R208). -/
def itemOffset (codec : Bool) (t : Take) (i : ChanItem) : Nat :=
  if codec then t.taken else (i.key + 2 ^ 32 - t.first.getD i.key) % 2 ^ 32 * t.stride * 4096

/-- Replace the take of a channel. -/
def State.setTake (s : State) (c : Nat) (t : Take) : State := s.setRecChan c { s.recChan c with take := some t }

/-- A channel that holds an item it could not take. -/
def State.holdItem (s : State) (c : Nat) (i : ChanItem) : State :=
  if s.isCodec c then s else s.setRecChan c { s.recChan c with held := (s.recChan c).held ++ [i] }

/-- The blocks from which a CODEC record is written, and the bytes of its last block: a ring unit where record and medium lie alike in their units and no earlier
record shares the block, else a staging unit that holds the block (R198, R208). -/
def State.recordBlocks (s : State) (c : Nat) (i : ChanItem) (t : Take) : List Block × List Byte :=
  let (base, units) := (SMap.get (fun _ => sessionReset) s.glass.sessions (Fld.BTH.CH_CFG_SRC s.regs c)).ring
  let phase := t.taken % 4096
  let data := t.tail ++ (List.range (i.bytes / 32)).flatMap (fun k => s.dramRead (ringAddr base units 0 (i.ringStart + 32 * k)) 32)
  let blocks := List.range (ceilDiv (phase + i.bytes) 4096)
  let direct (j : Nat) : Bool := i.ringStart % 4096 == phase && (phase == 0 || j != 0)
  let block (j : Nat) : List Byte := let b := (data.drop (4096 * j)).take 4096; b ++ List.replicate (4096 - b.length) 0
  (blocks.map (fun j => if direct j then inUnit (nth base i.units j) else stagedBlock (block j)), data.drop ((phase + i.bytes) / 4096 * 4096))

/-- A RECORDING channel takes an item: TAKE_START, a CHECKPOINT where the frame EPOCH has changed, GAP, the volume's end, and the writes (R206, R208, R211). A frame's
EPOCH is that of its header; a record of a ring carries none, and it is the device's own then (DEDUCED, assumption 82). -/
def State.takeItem (s : State) (c : Nat) (i : ChanItem) : State :=
  match (s.recChan c).take with
  | none => s
  | some t =>
    let codec := s.isCodec c
    -- TAKE_START
    let isFirst := t.first.isNone
    let t := if isFirst then { t with first := some i.key, next := some i.key, startSeq := some (s.nextSeq t.vol) } else t
    let (ok, s) := if isFirst then (s.setTake c t).chanJournal c t 1 0 0 (if codec then [] else i.header) else (true, s)
    if !ok then s.holdItem c i else
    -- the end of the volume
    let ofs := itemOffset codec t i
    let size := if codec then i.bytes else t.stride * 4096
    if s.volBytes t.vol < t.stripe * 2 ^ 20 + ofs + size then
      ((s.setTake c t).haltChan c 2 (some 1)).fault 0x300 0x20 |>.holdItem c i
    else
    -- a change of the frame EPOCH
    let epoch := if codec then Fld.HIE.EPOCH s.regs else fieldOf i.header 0x28 2
    let (ok, s) := if t.epoch.any (· != epoch) then s.chanJournal c t 2 0 0 [] else (true, s)
    if !ok then s.holdItem c i else
    -- a jump in count
    let gap := (i.key + 2 ^ 32 - t.next.getD i.key) % 2 ^ 32
    let (ok, s) := if 0 < gap ∧ codec = false then s.chanJournal c t 4 (t.next.getD i.key) gap [] else (true, s)
    if !ok then s.holdItem c i else
    let s := if 0 < gap ∧ codec = false then s.bumpBy (Adr.BTH.GAPS c) gap else s
    -- the writes
    let o := t.stripe * 2 ^ 20 + ofs
    let o0 := o / 4096 * 4096
    let len := ceilDiv (o + i.bytes) 4096 * 4096 - o0
    let (blocks, tail) := if codec then s.recordBlocks c i t else (i.units.map inUnit, [])
    let s := s.issueSpan t.vol true (.frame c t.vol t.id i.key) (len / 4096 + 1) o0 len blocks
    let t := { t with next := some ((i.key + 1) % 2 ^ 32), taken := ofs + i.bytes, isolated := t.isolated || i.isolated, epoch := some epoch, tail := tail }
    let x := s.recChan c
    s.setRecChan c { x with take := some t, items := x.items ++ [i] }

/-- Whether ADMITTED entries owned by a channel together carry every root port of the volume's members and, for RAW, MC0 to MC3 (R213). -/
def State.chanAdmitted (s : State) (c v : Nat) : Bool :=
  let res := (s.admitted.filter (fun e => e.2.owner == chanUnit c)).flatMap (fun e => e.2.pairs.map (·.1))
  let ports := (s.volMembers v).map (fun m => 0x1B + Fld.BTM.MEM_CFG_PORT s.regs m)
  ports.all res.contains && (s.isCodec c || [0x17, 0x18, 0x19, 0x1A].all res.contains)

/-- Whether another channel is using a volume for a take. -/
def State.volumeTaken (s : State) (c v : Nat) : Bool :=
  (List.range 8).any (fun d => d != c && (s.chState d == 1 || s.chState d == 2) && (match (s.recChan d).take with
    | some t => t.vol == v
    | none => false))

/-- A channel starts a take on its volume: the admission check (R213), the state of the volume (R212) and the journal's room (R206). Answers whether the
take runs. -/
def State.startTake (s : State) (c stride : Nat) (awaitIdr : Bool) (prev : Option Take) : Bool × State :=
  let v := Fld.BTH.CH_CFG_VOL s.regs c
  if s.volState v ≠ 3 ∨ s.volumeTaken c v = true then (false, s.setCh c 3 1)
  else if s.chanAdmitted c v = false then (false, s.fault (chanUnit c) 0x07)
  else if s.slots v < s.nextSeq v + 2 then (false, (s.setCh c 3 4))
  else
    let id := s.rd (Adr.BTH.NEXT_TAKE v)
    let t : Take :=
      { vol := v, id := id, stripe := s.rd (Adr.BTH.APPEND v), stride := stride, first := none, last := none, lastSof := 0, bytes := 0, taken := 0,
        next := none, isolated := false, continuation := prev.isSome,
        prevVol := match prev with
          | some p => p.vol
          | none => 0,
        prevTake := match prev with
          | some p => p.id
          | none => 0,
        startSeq := none, awaitIdr := awaitIdr, epoch := none, tail := [], geomEnd := false }
    let s := ((s.setReg (Adr.BTH.NEXT_TAKE v) (id + 1)).setReg (Adr.BTH.CH_TAKE c) id).setCh c 1 0
    (true, s.setTake c t)

/-- The source's take has ended: RECORDING goes to DRAINING (R212). -/
def State.drainChan (s : State) (c : Nat) (geomEnd : Bool) : State :=
  let x := s.recChan c
  let x := { x with srcEnded := true, take := x.take.map (fun t => { t with geomEnd := geomEnd }) }
  let s := s.setRecChan c x
  if s.chState c = 1 then s.setCh c 2 0 else s

/-- An IDLE RAW channel starts the next take of its source, if one has started (R212), but under HOLD (R37). -/
def State.nextRawTake (s : State) (c : Nat) : State :=
  match (s.recChan c).later with
  | [] => s
  | l :: rest =>
    if s.chState c ≠ 0 ∨ s.holding 0x30 = true then s else
    let s := s.setRecChan c { chanReset with later := rest }
    let (ok, s) := s.startTake c l.stride false none
    let s := if ok then l.items.foldl (fun s i => if s.chState c = 1 then s.takeItem c i else s.holdItem c i) s
      else if s.chState c = 3 then s.setRecChan c { s.recChan c with held := l.items } else s
    if l.ended then s.drainChan c l.geomEnd else s

/-- The RAW channels of an encoder context. -/
def State.rawChans (s : State) (n : Nat) : List Nat :=
  (List.range 8).filter (fun c => s.enabled 0x30 && Fld.BTH.CH_CFG_EN s.regs c == 1 && !s.isCodec c && Fld.BTH.CH_CFG_SRC s.regs c == n)

/-- A take of an encoder context starts (R212). -/
def State.rawTakeStart (s : State) (n stride : Nat) : State :=
  (s.rawChans n).foldl (fun s c =>
    let x := s.recChan c
    (s.setRecChan c { x with later := x.later ++ [{ stride := stride, items := [], ended := false, geomEnd := false }] }).nextRawTake c) s

/-- Append an item to the latest later take. -/
def pushLater (i : ChanItem) : List LaterTake → List LaterTake
  | [] => []
  | [l] => [{ l with items := l.items ++ [i] }]
  | l :: r => l :: pushLater i r

/-- The latest later take has ended. -/
def endLater (geomEnd : Bool) : List LaterTake → List LaterTake
  | [] => []
  | [l] => [{ l with ended := true, geomEnd := geomEnd }]
  | l :: r => l :: endLater geomEnd r

/-- A committed frame is handed to the RAW channels of its context (R211, R212). Under HOLD a channel takes none and keeps it for later (R37). -/
def State.rawFrame (s : State) (n : Nat) (i : ChanItem) : State :=
  (s.rawChans n).foldl (fun s c =>
    let x := s.recChan c
    if !x.later.isEmpty then s.setRecChan c { x with later := pushLater i x.later }
    else if s.chState c = 1 then (if s.holding 0x30 then s.setRecChan c { x with queue := x.queue ++ [i] } else s.takeItem c i)
    else if s.chState c = 3 then s.holdItem c i
    else s) s

/-- A take of an encoder context has ended (R212). -/
def State.rawTakeEnd (s : State) (n : Nat) (geomEnd : Bool) : State :=
  (s.rawChans n).foldl (fun s c =>
    let x := s.recChan c
    if !x.later.isEmpty then s.setRecChan c { x with later := endLater geomEnd x.later }
    else if !x.queue.isEmpty then s.setRecChan c { x with ending := some geomEnd }
    else s.drainChan c geomEnd) s

/-- The Boathouse releases a frame to its encoder context: it returns to the pre-roll pool (R134, R210). -/
def State.ebeRelease (s : State) (n key : Nat) : State :=
  let x := SMap.get (fun _ => ebeCtxReset) s.ebe n
  let mine := x.frames.any (fun f => f.committed && f.count == key && f.take == some (Fld.EBE.REC_STAT_TAKE_SEQ s.regs n))
  let x := { x with frames := x.frames.map (fun f => if f.committed && f.count == key then { f with committed := false } else f),
                    released := if mine then x.released + 1 else x.released }
  { s with ebe := SMap.set (fun _ => ebeCtxReset) s.ebe n x }

/-- Release one item to its source (R210). -/
def State.releaseItem (s : State) (c : Nat) (i : ChanItem) : State :=
  if s.isCodec c then s.setReg (Adr.GLS.RD_PTR (Fld.BTH.CH_CFG_SRC s.regs c)) i.ringEnd else s.ebeRelease (Fld.BTH.CH_CFG_SRC s.regs c) i.key

/-- Release the items at the front that are on the medium, and the records behind them that are only passed (R209, R210). -/
def State.releaseFront (s : State) (c : Nat) : Nat → State
  | 0 => s
  | fuel + 1 =>
    let x := s.recChan c
    match x.take, x.items with
    | some t, i :: rest =>
      if i.pass then ((s.setRecChan c { x with items := rest }).releaseItem c i).releaseFront c fuel else
      let startOut := match t.startSeq with
        | some q => s.outstanding (fun u => decide (u = .journal t.vol q))
        | none => true
      if startOut || s.outstanding (fun u => decide (u = .frame c t.vol t.id i.key)) then s else
      let codec := s.isCodec c
      let done := if codec then t.bytes + i.bytes else (i.key + 2 ^ 32 - t.first.getD i.key) % 2 ^ 32 * t.stride * 4096 + ceilDiv i.bytes 4096 * 4096
      let t := { t with last := some i.key, lastSof := i.sof, bytes := done }
      let s := (s.setRecChan c { x with take := some t, items := rest }).setReg (Adr.BTH.CH_LAST c) i.key
      (s.releaseItem c i).releaseFront c fuel
    | _, _ => s

/-- First unit and units of a session's ring, as the session read them last (R46). -/
def State.ringOf (s : State) (ses : Nat) : Nat × Nat := (SMap.get (fun _ => sessionReset) s.glass.sessions ses).ring

/-- The record of a session's ring at an offset, as a channel takes it, and its TYPE (R190). -/
def State.ringItem (s : State) (src pos : Nat) : ChanItem × Nat :=
  let (base, units) := s.ringOf src
  let at' (o n : Nat) : Nat := leNat ((List.range n).flatMap (fun k => s.dramRead (ringAddr base units 0 (pos + o + k)) 1))
  let size := 32 + ceilDiv (at' 4 4) 32 * 32
  ({ key := at' 12 4, units := (List.range (ceilDiv (pos % 4096 + size) 4096)).map (fun k => base + (pos / 4096 + k) % units), bytes := size,
     sof := at' 16 5, isolated := s.isolated, header := [], ringStart := pos, ringEnd := (pos + size) % (units * 4096), pass := false }, at' 24 1)

/-- The records of a ring up to WR_PTR go to the channel that records the session. A channel that is not RECORDING passes them, behind what a DRAINING channel
has still to release (R210). Under HOLD a channel takes none (R37). -/
def State.codecPump (s : State) (c : Nat) : Nat → State
  | 0 => s
  | fuel + 1 =>
    let src := Fld.BTH.CH_CFG_SRC s.regs c
    let wr := s.rd (Adr.GLS.WR_PTR src)
    let x := s.recChan c
    match s.chState c with
    | 1 =>
      if x.ringPos = wr ∨ (s.ringOf src).2 = 0 ∨ s.holding 0x30 = true then s else
      let (item, type) := s.ringItem src x.ringPos
      let s := s.setRecChan c { x with ringPos := item.ringEnd }
      let waiting := match x.take with
        | some t => t.awaitIdr && t.first.isNone
        | none => true
      if waiting && type != 0 then (s.setReg (Adr.GLS.RD_PTR src) item.ringEnd).codecPump c fuel
      else (s.takeItem c item).codecPump c fuel
    | 2 =>
      if x.ringPos = wr ∨ (s.ringOf src).2 = 0 then s.releaseFront c x.items.length else
      let (item, _) := s.ringItem src x.ringPos
      (s.setRecChan c { x with ringPos := item.ringEnd, items := x.items ++ [{ item with pass := true }] }).codecPump c fuel
    | _ => (s.setRecChan c { x with ringPos := wr }).setReg (Adr.GLS.RD_PTR src) wr

/-- The CODEC channels of a session take what has appeared in its ring. -/
def State.codecAppear (s : State) (ses : Nat) : State :=
  (List.range 8).foldl (fun s c =>
    if s.enabled 0x30 && Fld.BTH.CH_CFG_EN s.regs c == 1 && s.isCodec c && Fld.BTH.CH_CFG_SRC s.regs c == ses then
      s.codecPump c ((s.ringOf ses).2 * 128 + 1) else s) s

/-- CH_START: a CODEC take starts at the next IDR record (R212). -/
def chStart (c : Nat) (s : State) : State :=
  if s.chState c ≠ 0 ∨ s.isCodec c = false ∨ Fld.BTH.CH_CFG_EN s.regs c = 0 ∨ s.enabled 0x30 = false then s else
  let src := Fld.BTH.CH_CFG_SRC s.regs c
  let s := s.setRecChan c { chanReset with ringPos := s.rd (Adr.GLS.WR_PTR src) }
  (s.startTake c 0 true none).2

/-- CH_STOP: the last record taken is the last whole record at the write; DRAINING (R212). -/
def chStop (c : Nat) (s : State) : State :=
  if s.chState c = 1 ∧ s.isCodec c = true then s.drainChan c false else s

/-- CH_RESUME: a continuation take from the first unreleased frame or record (R212). -/
def chResume (c : Nat) (s : State) : State :=
  if s.chState c ≠ 3 ∨ s.volState (Fld.BTH.CH_CFG_VOL s.regs c) ≠ 3 then s else
  let x := s.recChan c
  let held := x.held
  let stride := match x.take with
    | some t => t.stride
    | none => Fld.EBE.STRIDE_UNITS s.regs (Fld.BTH.CH_CFG_SRC s.regs c)
  let (ok, s) := (s.setRecChan c { x with held := [] }).startTake c (if s.isCodec c then 0 else stride) false x.take
  if !ok then s.setRecChan c x else
  let s := held.foldl (fun s i => if s.chState c = 1 then s.takeItem c i else s.holdItem c i) s
  if x.srcEnded then s.drainChan c (match x.take with
    | some t => t.geomEnd
    | none => false) else s

/-- The runs of consecutive counts in a list, as (first, length). -/
def countRuns : List Nat → List (Nat × Nat)
  | [] => []
  | k :: r => match countRuns r with
    | (f, n) :: rest => if (k + 1) % 2 ^ 32 = f then (k, n + 1) :: rest else (k, 1) :: (f, n) :: rest
    | [] => [(k, 1)]

/-- The runs of counts that GAP records list at an ABANDON: the abandoned frames, and before each run the counts that were never committed and that no GAP
record lists yet; `next` is the count expected after the last frame taken (R206, R208, R211). -/
def gapRuns (next : Nat) : Nat → List (Nat × Nat) → List (Nat × Nat)
  | _, [] => []
  | pos, (f, n) :: rest =>
    let after (k : Nat) : Bool := decide ((k + 2 ^ 32 - next) % 2 ^ 32 < 2 ^ 31)
    let start := if after pos then pos else next
    let hole := if after f then (f + 2 ^ 32 - start) % 2 ^ 32 else 0
    (if 0 < hole then [(start, hole)] else []) ++ (f, n) :: gapRuns next ((f + n) % 2 ^ 32) rest

/-- A GAP record of an abandoned take, where a slot other than the last is left (R206). -/
def State.writeGap (s : State) (c : Nat) (t : Take) (first count : Nat) : State :=
  if s.nextSeq t.vol + 1 < s.slots t.vol then
    let (r, s) := s.chanRecord c t 4 0 first count []
    (s.appendJournal t.vol r).bumpBy (Adr.BTH.GAPS c) count
  else s

/-- CH_ABANDON: every committed unreleased frame, of later takes of the source too, is released unwritten and counted; a GAP for each run, and TAKE_END, where
the volume can be written; IDLE (R206, R212). -/
def chAbandon (c : Nat) (s : State) : State :=
  if s.chState c ≠ 3 then s else
  let x := s.recChan c
  let gone := x.held ++ x.later.flatMap (·.items)
  let s := (gone.foldl (fun s i => s.releaseItem c i) s).bumpBy (Adr.BTH.ABANDONED c) gone.length
  let s := match x.take with
    | some t =>
      let next := t.next.getD 0
      let s := if s.volState t.vol = 3 ∧ t.first.isSome = true then
          (gapRuns next next (countRuns (x.held.map (fun (i : ChanItem) => i.key)))).foldl (fun (s : State) (g : Nat × Nat) => s.writeGap c t g.1 g.2) s
        else s
      if s.volState t.vol = 3 then s.endTake c t 4 else s
    | none => s
  let later := (x.later.filter (fun l => !l.ended)).map (fun l => { l with items := [] })
  ((s.setCh c 0 0).setRecChan c { chanReset with later := later, ringPos := x.ringPos }).nextRawTake c

/-- FRAME_ON_MEDIUM: what is on the medium is released to its source in order (R210). -/
def frameOnMedium (c : Nat) (s : State) : State :=
  if s.chState c = 1 ∨ s.chState c = 2 then s.releaseFront c ((s.recChan c).items.length) else s

/-- TAKE_DRAIN_DONE: with the last frame or record on the medium, TAKE_END is written and the channel returns to IDLE (R212). -/
def takeDrainDone (c : Nat) (s : State) : State :=
  if s.chState c ≠ 2 then s else
  let s := s.releaseFront c ((s.recChan c).items.length)
  let x := s.recChan c
  if !x.items.isEmpty then s else   -- records that are only passed have gone with the last that is not
  let s := match x.take with
    | some t => s.endTake c t (if t.geomEnd then 6 else 0)
    | none => s
  let s := (s.setCh c 0 0).setRecChan c { chanReset with later := x.later, ringPos := x.ringPos }
  if s.isCodec c then s.codecPump c 1 else s.nextRawTake c

/-- CHECKPOINT_DUE: a RECORDING channel whose take has started writes a CHECKPOINT (R206). -/
def checkpointDue (c : Nat) (s : State) : State :=
  match (s.recChan c).take with
  | some t => if s.chState c = 1 ∧ t.first.isSome = true then (s.chanJournal c t 2 0 0 []).2 else s
  | none => s

/-! ### Failing members (R199, R200, R205, R212) -/

/-- A member of a volume is FAILED or REMOVED. -/
def State.memberBad (s : State) (m : Nat) : Bool := s.memState m == 3 || s.memState m == 4

/-- The channels that record or drain on a failed volume halt (R212). -/
def State.haltOn (s : State) (v m : Nat) : State :=
  (List.range 8).foldl (fun s c =>
    match (s.recChan c).take with
    | some t => if t.vol = v ∧ (s.chState c = 1 ∨ s.chState c = 2) then (s.haltChan c 3 (some 2)).upstream (chanUnit c) (memberUnit m) else s
    | none => s) s

/-- A volume that is BUSY or OPEN enters FAILED while a member is FAILED or REMOVED (R205). -/
def State.checkVolume (s : State) (v : Nat) : State :=
  if s.volState v = 2 ∨ s.volState v = 3 then
    match (s.volMembers v).find? s.memberBad with
    | some m => ((s.setVolState v 4).setVolWait v .none).haltOn v m
    | none => s
  else s

/-- A member becomes FAILED or REMOVED: its volumes follow. -/
def State.loseMember (s : State) (m st : Nat) : State :=
  (List.range 16).foldl State.checkVolume (s.setMemState m st)

/-- A command ends without success. -/
def State.failCmd (s : State) (m cid : Nat) : State :=
  let x := s.member m
  s.setMember m { x with cmds := x.cmds.map (fun c => if c.cid = cid then { c with failed := true } else c) }

/-- A step of the initialisation has ended with success: what Identify said is noted, and the next step begins (R197). MDTS counts 4 KiB pages
(notes/assumptions/140.md). -/
def State.initStep (s : State) (m : Nat) (c : MemberCmd) : State :=
  let x := s.member m
  let page := s.dramRead (c.units.headD 0 * 4096) 4096
  match c.op with
  | .identifyController =>
    let k := fieldOf page 77 1
    (s.setMember m { x with mdts := if k = 0 then 0 else 4096 * 2 ^ k }).initCommand m .identifyNamespace
  | .identifyNamespace =>
    let f := fieldOf page (128 + 4 * (fieldOf page 26 1 % 16)) 4
    (s.setMember m { x with capacity := min (fieldOf page 0 8 * 4096) (2 ^ 47), formatOk := f % 2 ^ 16 == 0 && bits f 16 8 == 12 }).initCommand m (.setQueues 1)
  | .setQueues _ => let (us, s) := s.holdQueue m (16 * s.qdepth m); s.command m (.createCq (s.qdepth m)) (us.map inUnit) 0 (4096 * us.length) .init
  | .createCq _ => let (us, s) := s.holdQueue m (64 * s.qdepth m); s.command m (.createSq (s.qdepth m)) (us.map inUnit) 0 (4096 * us.length) .init
  | .createSq _ => s.setMember m { x with stage := .done }
  | _ => s

/-- MEMBER_INIT_DONE: READY once every step has ended with success and the format and MDTS are as R197 asks; else FAILED with CONFIG, or with TIMEOUT where a
step failed or the time is over. -/
def memberInitDone (m : Nat) (r : InitResult) (s : State) : State :=
  if s.memState m ≠ 1 then s else
  let x := s.member m
  let t := s.setMember m { x with cmds := x.cmds.filter (fun c => decide (c.purpose ≠ .init)) }
  match r, x.stage with
  | .timeout, _ | .ended, .failed => (t.loseMember m 3).memberFault m 0x04
  | .ended, .done =>
    if x.formatOk && (x.mdts == 0 || decide (65536 ≤ x.mdts)) then (t.setMemState m 2).memberUp m else (t.loseMember m 3).memberFault m 0x07
  | .ended, .running => s

/-- Whether a host command or the fetch still waits for a member command, whose failure it is told; and a command that is abandoned: it never completes (R199,
R224). -/
def State.stillAsked (s : State) (c : MemberCmd) : Bool := match c.purpose with
  | .host _ tag => s.ofc.cmds.any (fun d => d.tag == tag)
  | .fetch => s.bth.fetch.isSome
  | _ => false
def MemberCmd.abandon (c : MemberCmd) : MemberCmd := { c with failed := true, blocks := [] }

/-- MEMBER_DISABLE: EN written 0 makes a FAILED or REMOVED member ABSENT; its commands are abandoned, and the I/O queues of a drive whose link is up are deleted
(R198, R199). -/
def memberDisable (m : Nat) (s : State) : State :=
  let s := s.setFld (Adr.BTM.MEM_CFG m) 0 1 0
  if !s.memberBad m then s else
  let live := s.memState m == 3
  let t := (s.setMemState m 0).setMember m { s.member m with cmds := ((s.member m).cmds.filter s.stillAsked).map MemberCmd.abandon,
                                                             queues := if live then (s.member m).queues else [] }
  (if live then (t.command m .deleteSq [] 0 0 .remove).command m .deleteCq [] 0 0 .remove else t).restage

/-- NVME_COMPLETION (R198, R199): success ends the command; after an error the Error Information log is read, and the command is reissued up to RETRY times, or
the member fails. A REMOVED member completes nothing. -/
def nvmeCompletion (m cid : Nat) (st : NvmeStatus) (s : State) : State :=
  match (s.issuedTo m).find? (fun c => c.cid == cid) with
  | none => s
  | some cmd =>
    if s.memState m = 4 then s else
    let x := s.member m
    match st with
    | .ok =>
      let cmds := x.cmds.erase cmd
      let queues := if cmd.purpose = .remove ∧ cmds.all (fun c => decide (c.purpose ≠ .remove)) = true then [] else x.queues
      let s := (s.setMember m { x with written := x.written + (if cmd.op.isWrite then cmd.bytes else 0), cmds := cmds, queues := queues })
      (if s.memState m = 1 ∧ cmd.purpose = .init then s.initStep m cmd else s).restage
    | .error dnr =>
      let s := (s.setMember m { x with errors := satInc 32 x.errors }).command m .errorLog [stagedBlock []] 0 64 .errorLog
      let y := s.member m
      if s.memState m = 1 then s.setMember m { y with stage := .failed, cmds := y.cmds.erase cmd }
      else if s.memState m = 2 ∧ dnr = false ∧ cmd.retries < Fld.BTM.RETRY s.regs m then
        s.setMember m { y with cmds := y.cmds.map (fun c => if c.cid = cid then { c with retries := c.retries + 1 } else c) }
      else
        let s := s.failCmd m cid
        if s.memState m = 2 then (s.loseMember m 3).memberFault m 0x20 else s

/-- MEMBER_CMD_TIMEOUT: the oldest command has had no completion within CMD_TIMEOUT: it has failed, and a READY member with it (R199). -/
def memberCmdTimeout (m : Nat) (s : State) : State :=
  match (s.issuedTo m).head? with
  | none => s
  | some cmd =>
    if s.memState m < 2 then s else
    let s := (s.setMember m { s.member m with timeouts := satInc 32 (s.member m).timeouts }).failCmd m cmd.cid
    if s.memState m = 2 then (s.loseMember m 3).memberFault m 0x04 else s

/-- ROOT_PORT_LINK_DOWN: its members become REMOVED with LINK_DOWN (R199). -/
def rootPortLinkDown (p : Nat) (s : State) : State :=
  (List.range 32).foldl (fun s m =>
    if Fld.BTM.MEM_CFG_PORT s.regs m = p ∧ s.memState m ≠ 0 then (s.loseMember m 4).memberDown m else s) s

/-- The guaranteed flow that meters a submission queue's data beats, if any (R220). -/
def State.queueFlow (s : State) (q : Nat) : Option Nat :=
  let w := SMap.get (fun _ => 0) s.ofc.flows q
  let f := s.flow (w % 128)
  if bitOf w 8 && decide (f.st = .admitted) && f.owner == 0x340 then some (w % 128) else none

/-- An ADMITTED entry of an owner that carries these root ports. -/
def State.portFlow (s : State) (owner : Nat) (ports : List Nat) : Option Nat :=
  (s.admitted.find? (fun e => e.2.owner == owner && ports.all (fun p => (e.2.pairs.map (·.1)).contains (0x1B + p)))).map (·.1)

/-- The guaranteed flow of a member command on a port: a RAW channel's (R213), the fetch's (R214), that of a host queue (R220); the rest is best-effort. -/
def State.useFlow (s : State) (p : Nat) : MemberUse → Option Nat
  | .frame c _ _ _ => if s.isCodec c then none else s.portFlow (chanUnit c) [p]
  | .fetch => s.bth.fetch.bind (·.flow)
  | .host q _ => s.queueFlow q
  | _ => none

/-- Data beats are metered under a flow (R75). -/
def State.meterUse (s : State) (flow : Option Nat) (beats : Nat) : State := match flow with
  | some i => (s.meter i beats).2
  | none => s

/-- INBOUND_REQUEST (R200): allowed only to a DRAM unit named in a command outstanding to a member on the port, in that command's direction. -/
def inboundRequest (p m unit : Nat) (isWrite : Bool) (data : List Byte) (s : State) : State :=
  let named := (List.range 32).findSome? (fun k =>
    if Fld.BTM.MEM_CFG_PORT s.regs k == p then (s.issuedTo k).find? (fun c => c.units.contains unit && c.op.isWrite == !isWrite) else none)
  match named with
  | some c =>
    let s := s.meterUse (s.useFlow p c.purpose) 128
    if isWrite then s.storeSeen (unit * 4096) (data.take 4096) else s.emit (.inboundData p (s.loadBytes (unit * 4096) 4096))
  | none =>
    let s := s.emit (.unsupported p)
    if s.memState m = 0 then s else (s.loseMember m 3).memberFault m 0x05

/-! ### Volume commands (R205, R207, R218) -/

/-- FORMAT begins once no host Write is outstanding: the label is written (R204, R218). -/
def State.startFormat (s : State) (v : Nat) : State :=
  (((s.setVolState v 2).setVolWait v .format).issueStaged v 0 (s.labelBytes v s.time.sec) (.label v)).checkVolume v

/-- OPEN begins once no host Write is outstanding: every journal slot is read (R207, R218). -/
def State.startOpen (s : State) (v : Nat) : State :=
  let s := (s.setVolState v 2).setVolWait v .open
  let bytes := s.volJ v * 2 ^ 20
  (s.issueSpan v false (.scan v) (bytes / 4096) (2 ^ 20) bytes (List.replicate (bytes / 4096) (stagedBlock []))).checkVolume v

/-- FORMAT (R205). -/
def format (v : Nat) (s : State) : State :=
  if (s.volState v = 1 ∨ s.volState v = 5) ∧ s.volWait v = .none then
    if s.hostWrites v then s.setVolWait v .formatWait else s.startFormat v
  else s

/-- FORMAT_DONE: the label is written; the volume returns to CLOSED (R205). -/
def formatDone (v : Nat) (s : State) : State :=
  if s.volWait v ≠ .format then s else
  ((s.dropCommands (fun u => decide (u = .label v))).setVolWait v .none).setVolState v 1

/-- OPEN (R205); on a LABEL_BAD volume it is ignored but for the event fault LABEL_BAD. -/
def openVolume (v : Nat) (s : State) : State :=
  if s.volState v = 1 ∧ s.volWait v = .none then
    if s.hostWrites v then s.setVolWait v .openWait else s.startOpen v
  else if s.volState v = 5 then s.volFault v 0x21
  else s

/-- A FORMAT or OPEN that waited for host Writes begins (R218). -/
def State.volWake (s : State) (v : Nat) : State :=
  if s.hostWrites v then s else
  match s.volWait v with
  | .formatWait => s.startFormat v
  | .openWait => s.startOpen v
  | _ => s

/-- Whether a journal slot holds a valid record of a volume (R207). -/
def State.recordValid (s : State) (v : Nat) (b : List Byte) : Bool :=
  fieldOf b 0 4 == 0x524A4245 && fieldOf b 4 2 == 1 && fieldOf b 0xFFC 4 == crc32 (b.take 0xFFC) && fieldOf b 16 4 == Fld.BTH.FORMAT_ID s.regs v

/-- SOF_TIME of a record (0x044, 0x05C). -/
def recordSof (b : List Byte) : Nat := fieldOf b 68 4 + 2 ^ 32 * fieldOf b 92 1

/-- Whether a SOF_TIME is later than a record's by no more than 2 × CKPT_ROUNDS × 1.024 ms (R207). -/
def State.sofNear (s : State) (record sof : Nat) : Bool :=
  decide (serial 40 sof record = .later) &&
    decide (shortFwd record sof ≤ 2 * inRange Adr.BTH.CKPT_ROUNDS (Fld.BTH.CKPT_ROUNDS s.regs) 64 65535 * 1024000)

/-- The next frame of a RAW take, at its volume offset, if it passes its checks (R137, R207). -/
def State.scanFrame (s : State) (data : List Byte) (t : JournalTail) : Option JournalTail :=
  let c := (t.last + 1) % 2 ^ 32
  let ofs := (c + 2 ^ 32 - t.first) % 2 ^ 32 * t.strideUnits * 4096
  let sof := fieldOf data 0x10 8 % 2 ^ 40
  if 4096 ≤ data.length ∧ headerGood (data.take 4096) = true ∧ fieldOf data 8 4 = c ∧ s.sofNear t.recordSof sof = true ∧
      (bitOf (fieldOf data 12 1) 3 = true ∨ tilesGood data = true) then
    some { t with last := c, sof := sof, bytes := ofs + ceilDiv (fieldOf data 0x44 4) 4096 * 4096 }
  else none

/-- The next record of a CODEC take, whose header lies in the block read: it may not be whole (R190, R207). -/
def State.scanRecord (s : State) (data : List Byte) (t : JournalTail) : Option JournalTail :=
  let h := data.drop (t.bytes % 4096)
  let sof := fieldOf h 16 8 % 2 ^ 40
  if 32 ≤ h.length ∧ fieldOf h 0 4 = 0x55414C47 ∧ fieldOf h 12 4 = (t.last + 1) % 2 ^ 32 ∧ s.sofNear t.recordSof sof = true then
    some { t with last := fieldOf h 12 4, sof := sof, bytes := t.bytes + 32 + ceilDiv (fieldOf h 4 4) 32 * 32 }
  else none

/-- What the forward scan reads next: volume offset and bytes. -/
def scanSpan (t : JournalTail) : Nat × Nat :=
  if t.kind = 0 then (t.takeStripe * 2 ^ 20 + ((t.last + 1) % 2 ^ 32 + 2 ^ 32 - t.first) % 2 ^ 32 * t.strideUnits * 4096, t.strideUnits * 4096)
  else (t.takeStripe * 2 ^ 20 + t.bytes / 4096 * 4096, 4096)

/-- The newest valid record by SEQ, and whether its take has a TAKE_END (R207). -/
def State.journalTail (s : State) (v : Nat) (slots : List (List Byte)) : Option JournalTail :=
  let valid := slots.filter (s.recordValid v)
  (valid.foldl (fun (b : Option (List Byte)) r => match b with
    | some n => if fieldOf n 8 8 < fieldOf r 8 8 then some r else some n
    | none => some r) none).map (fun r =>
    let id := fieldOf r 20 4
    { seq := fieldOf r 8 8, takeId := id, hasEnd := valid.any (fun b => fieldOf b 20 4 == id && fieldOf b 6 2 == 3), takeStripe := fieldOf r 32 4,
        strideUnits := fieldOf r 36 4, first := fieldOf r 40 4, last := fieldOf r 44 4, bytes := fieldOf r 48 8, kind := fieldOf r 24 1, src := fieldOf r 25 1,
        channel := fieldOf r 26 1, flags := fieldOf r 27 1, prevVol := fieldOf r 84 1, prevTake := fieldOf r 88 4, sof := recordSof r, recordSof := recordSof r })

/-- A volume enters OPEN behind what the scan found: next SEQ, next take and append stripe; a take without TAKE_END gets one marked RECOVERED (R207). -/
def State.finishOpen (s : State) (v : Nat) (t : JournalTail) : State :=
  let s := (((s.setVolWait v .none).setReg (Adr.BTH.JNL_USED v) (satInc 32 t.seq)).setReg (Adr.BTH.NEXT_TAKE v) (t.takeId + 1)).setReg (Adr.BTH.APPEND v)
    (t.takeStripe + ceilDiv t.bytes (2 ^ 20))
  let s :=
    if !t.hasEnd && decide (s.nextSeq v < s.slots v) then
      s.appendJournal v
        { type := 3, takeId := t.takeId, kind := t.kind, src := t.src, channel := t.channel, flags := 1 + t.flags / 2 * 2, epoch := Fld.HIE.EPOCH s.regs,
          stripe := t.takeStripe, stride := t.strideUnits, first := t.first, last := t.last, bytes := t.bytes, sof := t.sof, reason := 5, gapFirst := 0,
          gapCount := 0, prevVol := t.prevVol, prevTake := t.prevTake, header := [] }
    else s
  (s.setVolState v 3).checkVolume v

/-- The forward scan reads the next frame, or the block with the next record's header; where that would pass the end of the volume the scan has ended (R207). -/
def State.scanNext (s : State) (v : Nat) (t : JournalTail) : State :=
  let (o, len) := scanSpan t
  if len = 0 ∨ s.volBytes v < o + len then s.finishOpen v t else
  ((s.setVolWait v (.forward t)).issueSpan v false (.scan v) (len / 4096 + 1) o len (List.replicate (len / 4096) (stagedBlock []))).checkVolume v

/-- OPEN_SCAN_DONE: the Reads of a scan have ended. After those of the journal the newest valid record fixes the next SEQ and the append stripe, or the forward scan
of a take without TAKE_END begins; after each Read of the forward scan what was read is kept, and the next is read, or the scan ends and the volume enters
OPEN (R207). -/
def openScanDone (v : Nat) (slots : List (List Byte)) (data : List Byte) (s : State) : State :=
  match s.volWait v with
  | .open =>
    let s := s.dropCommands (fun u => decide (u = .scan v))
    match s.journalTail v slots with
    | none =>
      (((((s.setVolWait v .none).setReg (Adr.BTH.JNL_USED v) 0).setReg (Adr.BTH.APPEND v) (s.volJ v + 1)).setReg (Adr.BTH.NEXT_TAKE v) 0).setVolState v 3).checkVolume v
    | some t => if t.hasEnd then s.finishOpen v t else s.scanNext v t
  | .forward t =>
    let s := s.dropCommands (fun u => decide (u = .scan v))
    match if t.kind = 0 then s.scanFrame data t else s.scanRecord data t with
    | some t => s.scanNext v t
    | none => s.finishOpen v t
  | _ => s

/-- CLOSE: an OPEN volume with no channel RECORDING, DRAINING or HALTED on it (R205). -/
def close (v : Nat) (s : State) : State :=
  let used := (List.range 8).any (fun c => s.chState c != 0 && (match (s.recChan c).take with
    | some t => t.vol == v
    | none => Fld.BTH.CH_CFG_VOL s.regs c == v))
  if s.volState v = 3 ∧ used = false then s.setVolState v 1 else s

/-- A volume goes OFF. A channel still recording on it halts, since its volume is not OPEN. -/
def State.volOff (s : State) (v : Nat) : State :=
  let s := (List.range 8).foldl (fun s c =>
    match (s.recChan c).take with
    | some t => if t.vol = v ∧ (s.chState c = 1 ∨ s.chState c = 2) then s.haltChan c 1 (some 2) else s
    | none => s) s
  (s.setVolState v 0).setVolWait v .none

/-! ### Fetch (R214) -/

/-- The Reads of the fetch are issued. -/
def State.issueFetch (s : State) (f : Fetch) : State :=
  ({ s with bth := { s.bth with fetch := some { f with issued := true } } } : State).issueSpan f.vol false .fetch (f.units + 1) f.ofs (f.units * 4096)
    ((List.range f.units).map (fun k => inUnit (f.dst + k)))

/-- FETCH_CMD: copy volume units into DRAM, admitted where an ADMITTED flow owned by 0x309 carries every port of the volume; ignored while BUSY.
Under HOLD its Reads wait (R37). -/
def fetchCmd (s : State) : State :=
  if Fld.BTH.FETCH_STAT_BUSY s.regs = 1 then s else
  let v := Fld.BTH.FETCH_VOL s.regs
  let f : Fetch := { vol := v, ofs := Fld.BTH.FETCH_OFS_LO s.regs * 4096 + Fld.BTH.FETCH_OFS_HI s.regs * 2 ^ 32, dst := Fld.BTH.FETCH_DST s.regs,
                     units := Fld.BTH.FETCH_UNITS s.regs,
                     flow := s.portFlow 0x309 ((s.volMembers v).map (fun m => Fld.BTM.MEM_CFG_PORT s.regs m)), issued := false }
  if s.volState v = 1 ∨ s.volState v = 3 then
    let s := ({ s with bth := { s.bth with fetch := some f } } : State).setReg Adr.BTH.FETCH_STAT 1
    if s.holding 0x30 then s else s.issueFetch f
  else s.setReg Adr.BTH.FETCH_STAT 4

/-- FETCH_DONE: DONE, or ERR on a member error; the data copied remains. -/
def fetchDone (error : Bool) (data : List Byte) (s : State) : State :=
  match s.bth.fetch with
  | none => s
  | some f =>
    if !f.issued then s else
    let error := error || s.bth.members.any (fun e => e.2.cmds.any (fun c => c.failed && decide (c.purpose = .fetch)))
    let s := s.dropCommands (fun u => decide (u = .fetch))
    let s := s.storeSeen (f.dst * 4096) (data.take (f.units * 4096))
    ({ s with bth := { s.bth with fetch := none } } : State).setReg Adr.BTH.FETCH_STAT (if error then 4 else 2)

/-! ### The end of HOLD (R37) -/

/-- A RAW channel takes the frames committed under HOLD, and the end of its take behind them. -/
def State.takeQueued (s : State) (c : Nat) : State :=
  let x := s.recChan c
  let s := s.setRecChan c { x with queue := [], ending := none }
  let s := x.queue.foldl (fun s i => if s.chState c = 1 then s.takeItem c i else s.holdItem c i) s
  match x.ending with
  | some g => s.drainChan c g
  | none => s

/-- HOLD ends: channels take what waited for them, and the fetch is issued. -/
def State.bthResume (s : State) : State :=
  let s := (List.range 8).foldl (fun s c =>
    let s := s.takeQueued c
    if s.isCodec c then
      if Fld.BTH.CH_CFG_EN s.regs c == 1 && s.enabled 0x30 then s.codecPump c ((s.ringOf (Fld.BTH.CH_CFG_SRC s.regs c)).2 * 128 + 1) else s
    else s.nextRawTake c) s
  match s.bth.fetch with
  | some f => if f.issued then s else s.issueFetch f
  | none => s

/-! ### Registers and the Kiosk -/

/-- A write of VM_DATA, ignored unless the selected volume is OFF; and its read. -/
def State.vmWrite (s : State) (w : Word) : State :=
  if s.volState (Fld.BTH.VM_SEL_VOL s.regs) = 0 then
    { s with bth := { s.bth with table := SMap.set (fun _ => 0) s.bth.table (Fld.BTH.VM_SEL_VOL s.regs * 32 + Fld.BTH.VM_SEL_SLOT s.regs) w } }
  else s
def State.vmRead (s : State) : Nat := s.slotWord (Fld.BTH.VM_SEL_VOL s.regs) (Fld.BTH.VM_SEL_SLOT s.regs)

/-- CNT_RESTART of BTH: bit c restarts channel c's counters. -/
def bthCounters : List (List RegAddr) := (List.range 8).map (fun c => [Adr.BTH.ABANDONED c, Adr.BTH.GAPS c])

/-- CNT_RESTART of BTM: bit m restarts member m's counters. -/
def State.btmRestart (s : State) (mask : Nat) : State :=
  (List.range 32).foldl (fun s m => if bitOf mask m then s.setMember m { s.member m with written := 0, errors := 0, timeouts := 0 } else s) s

/-- Kiosk words of BTH (0x10 + c) and BTM (0x10 + m). -/
def State.bthKiosk (s : State) (sel : Nat) : Option (List Nat) :=
  if 0x10 ≤ sel ∧ sel < 0x18 then
    match (s.recChan (sel - 0x10)).take with
    | some t => some [t.bytes % 2 ^ 32, t.bytes / 2 ^ 32, t.stripe]
    | none => some [0, 0, 0]
  else none
def State.btmKiosk (s : State) (sel : Nat) : Option (List Nat) :=
  if 0x10 ≤ sel ∧ sel < 0x30 then
    let m := s.member (sel - 0x10)
    some [m.capacity % 2 ^ 32, m.capacity / 2 ^ 32, m.written % 2 ^ 32, m.written / 2 ^ 32 % 2 ^ 32, m.errors, m.timeouts]
  else none

end Sys2Proof.Machine
end

