-- ==== Sys2Proof/Machine/Ebe.lean ====
section
/-! DEFINITION. The Ebosh Raw encoder with its pre-roll ring and takes (06_ebosh_raw.md, R117, R127 to R135), and the decoder's jobs and frame
checks (R136, R137). -/

namespace Sys2Proof.Machine

/-! ### Contexts -/

/-- An encoder context, and storing it; HELD follows the frames of the ring. -/
def State.ebeOf (s : State) (n : Nat) : EbeCtx := SMap.get (fun _ => ebeCtxReset) s.ebe n
def State.setEbe (s : State) (n : Nat) (x : EbeCtx) : State :=
  ({ s with ebe := SMap.set (fun _ => ebeCtxReset) s.ebe n x } : State).setReg (Adr.EBE.HELD n) x.frames.length

/-- The queue of a context, and storing it. -/
def State.ebeQueue (s : State) (n : Nat) : List LineItem := SMap.get (fun _ => []) s.ebeIn n
def State.setEbeQueue (s : State) (n : Nat) (q : List LineItem) : State := { s with ebeIn := SMap.set (fun _ => []) s.ebeIn n q }

/-- The unit ID of an encoder context. -/
def ebeUnit (n : Nat) : Nat := 0x141 + n

/-- RATIO2 as it acts (R41, R119). -/
def State.ratio2 (s : State) (n : Nat) : Nat :=
  let v := Fld.EBE.ENC_CFG_RATIO2 s.regs n
  if ratioList.contains v then v else nth 0 ratioList (Config.unlisted (Adr.EBE.ENC_CFG n) v % 32)


/-- IDX_UNITS (R129). -/
def idxUnits (ratio2 tiles : Nat) : Nat := if ratio2 = 0 then ceilDiv (4 * (tiles + 1)) 4096 else 0

/-- STRIDE_UNITS (R129). -/
def strideOf (cw ratio2 tiles : Nat) : Nat :=
  if ratio2 = 0 then 1 + idxUnits 0 tiles + ceilDiv (tiles * maxTile cw) 4096 else 1 + ceilDiv (tiles * tileBytesOf cw ratio2) 4096

/-! ### Writing a frame (R127 to R132) -/

/-- Write bytes at byte `o` of the frame at ring unit `u`, wrapping at the ring's end (R132). -/
def State.ringWrite (s : State) (n u o : Nat) (bs : List Byte) : State :=
  let (base, units) := (s.ebeOf n).ring
  let a := ringAddr base units u o
  let room := (base + units) * 4096 - a
  if units = 0 ∨ bs.length ≤ room then s.store a bs else (s.store a (bs.take room)).store (base * 4096) (bs.drop room)

/-- The error response that the frame's bytes at `o` meet. -/
def State.ringError (s : State) (n u o len : Nat) : Option Nat :=
  let (base, units) := (s.ebeOf n).ring
  (s.dramError (ringAddr base units u o)).or (s.dramError (ringAddr base units u (o + (len - 1))))

/-- MCT reports a write of header or index that reaches beyond CAPACITY (R369). -/
def State.ringSeen (s : State) (n u o len : Nat) : State := if s.ringError n u o len = some 0x480 then s.fault 0x480 0x22 else s

/-- A tile write that ends in an error response (R131). -/
def State.tileError (s : State) (n unit : Nat) (f : EbeFrame) : State :=
  ((s.setEbe n { s.ebeOf n with open_ := some { f with writeErr := true } }).bump (Adr.EBE.WRITE_ERR n)).upstream (ebeUnit n) unit

/-- Encode and write tile tx of the row of tiles in progress (R117 to R128). -/
def State.writeTile (s : State) (n : Nat) (f : EbeFrame) (tx : Nat) : State :=
  match f.unit with
  | none => s
  | some u =>
    let i := f.tileRow * tilesX f.width + tx
    let tag := tileTag f.record.count i
    let rows := f.rows.map (fun r => (r.2.drop (256 * tx)).take 256)
    let pad := f.rows.all (·.1)
    let (bytes, holds, raw) :=
      if pad then (padTile tag, 0, false)
      else if f.ratio2 = 0 then (let (b, r) := encodeLossless f.cw tag rows; (b, 0, r))
      else (let (b, h) := encodeFixed f.cw f.tileBytes tag rows; (b, h, false))
    let o := if f.ratio2 = 0 then f.offset else 4096 + i * f.tileBytes
    let next := if f.ratio2 = 0 then f.offset + (if pad then 32 else bytes.length) else o + f.tileBytes
    let f := { f with holdSegs := f.holdSegs + holds, rawTiles := f.rawTiles + b2n raw, index := f.index ++ [o / 32], offset := next }
    let s := ((s.setEbe n { s.ebeOf n with open_ := some f }).bumpBy (Adr.EBE.HOLD_SEGS n) holds).bumpBy (Adr.EBE.RAW_TILES n) (b2n raw)
    match s.ringError n u o bytes.length with
    | some e => s.tileError n e f
    | none => s.ringWrite n u o bytes

/-- Write every tile of the row of tiles in progress. -/
def State.writeTileRow (s : State) (n : Nat) (width : Nat) : State :=
  let s := (List.range (tilesX width)).foldl (fun s tx => match (s.ebeOf n).open_ with
    | some f => s.writeTile n f tx
    | none => s) s
  match (s.ebeOf n).open_ with
  | some f => s.setEbe n { s.ebeOf n with open_ := some { f with rows := [], tileRow := f.tileRow + 1 } }
  | none => s

/-- A row enters the frame: its samples are mapped to CW bits, and a full row of tiles is coded (R117, R118). The samples of a frame that is not written (R133) are
mapped too and count in MAP_CLIPPED, which R118 counts at each act of the sat; HOLD_SEGS and RAW_TILES count what is coded, and such a frame is not (DESIGN CHOICE,
assumption 164). -/
def State.encodeRow (s : State) (n : Nat) (f : EbeFrame) (pad : Bool) (v : List Int) : State :=
  let coded := v.map (mapSample f.cw f.pedestal)
  let s := s.bumpBy (Adr.EBE.MAP_CLIPPED n) (coded.countP (·.2))
  let f := { f with rows := f.rows ++ [(pad, coded.map (·.1))] }
  let s := s.setEbe n { s.ebeOf n with open_ := some f }
  if f.rows.length = min 16 (f.height - 16 * f.tileRow) then s.writeTileRow n f.width else s

/-- The context takes what waits at it, up to the next frame start. -/
def State.ebePump (s : State) (n : Nat) : Nat → State
  | 0 => s
  | fuel + 1 =>
    let x := s.ebeOf n
    match s.ebeQueue n, x.open_ with
    | .row fl v :: rest, some f => ((s.setEbeQueue n rest).encodeRow n f fl.pad v).ebePump n fuel
    | .finish r :: rest, some f =>
      (s.setEbeQueue n rest).setEbe n { x with open_ := some { f with record := r, complete := true } }
    | .row _ _ :: rest, none => (s.setEbeQueue n rest).ebePump n fuel
    | .finish _ :: rest, none => (s.setEbeQueue n rest).ebePump n fuel
    | _ :: rest, none => if x.running then s else (s.setEbeQueue n rest).ebePump n fuel
    | _, _ => s

/-- Pump everything that waits. -/
def State.ebeFeed (s : State) (n : Nat) : State := s.ebePump n (s.ebeQueue n).length

/-- FRAME_BYTES of a frame (R130). -/
def EbeFrame.frameBytes (f : EbeFrame) : Nat :=
  if f.skipped then 4096 else if f.ratio2 = 0 then f.offset else 4096 + tilesX f.width * tilesY f.height * f.tileBytes

/-- The frame header (R130). -/
def EbeFrame.header (f : EbeFrame) : List Byte :=
  let r := f.record
  let tiles := tilesX f.width * tilesY f.height
  let page := overlays (List.replicate 4096 0)
    [(0x00, 4, 0x31524245), (0x04, 2, 1), (0x08, 4, r.count), (0x0C, 1, r.tags % 64 + if f.writeErr then 64 else 0), (0x0D, 1, r.missing), (0x0E, 1, r.modeId),
     (0x0F, 1, f.cfaId), (0x10, 8, r.sof), (0x18, 8, r.ptp.1 % 2 ^ 48), (0x20, 4, r.ptp.2), (0x24, 4, r.timecode), (0x28, 2, r.epoch),
     (0x2C, 2, r.lines), (0x2E, 2, r.firstDropped), (0x30, 2, f.width), (0x32, 2, f.height), (0x34, 2, tilesX f.width), (0x36, 2, tilesY f.height),
     (0x38, 1, f.cw), (0x39, 1, f.ratio2), (0x3A, 2, f.pedestal), (0x3C, 4, f.tileBytes), (0x40, 4, f.stride), (0x44, 4, f.frameBytes),
     (0x48, 4, f.holdSegs), (0x4C, 4, f.rawTiles), (0x50, 4, idxUnits f.ratio2 tiles)]
  sealPage (overlay page 0x100 f.user)

/-- The tile index of a LOSSLESS frame (R129). -/
def EbeFrame.indexBytes (f : EbeFrame) : List Byte := (f.index ++ [f.offset / 32]).flatMap (leBytes 4)

/-! ### Takes (R133, R134) -/

/-- A frame of the ring as the Boathouse takes it: its DRAM units and the head of its header. -/
def State.frameItem (s : State) (n : Nat) (f : RingFrame) : ChanItem :=
  let (base, units) := (s.ebeOf n).ring
  { key := f.count, units := (List.range (ceilDiv f.bytes 4096)).map (fun k => ringAddr base units (f.unit + k) 0 / 4096), bytes := f.bytes, sof := f.sof,
    isolated := f.isolated, header := s.loadBytes (ringAddr base units f.unit 0) 256, ringStart := 0, ringEnd := 0, pass := false }

/-- A take ends; `geom` says that a change of geometry ended it (R134, R135). -/
def State.ebeTakeEnd (s : State) (n : Nat) (geom : Bool) : State :=
  let s := (s.setFld (Adr.EBE.REC_STAT n) 0 2 0).setFld (Adr.EBE.REC_STAT n) 5 1 (b2n geom)
  (s.setEbe n { s.ebeOf n with stopAt := none }).rawTakeEnd n geom

/-- Mark a list of held frames committed, newest first, at most `k` of them; the input is newest first. -/
def commitNewest (seq : Nat) : Nat → List RingFrame → List RingFrame
  | _, [] => []
  | 0, l => l
  | k + 1, f :: r => if f.committed then f :: commitNewest seq (k + 1) r else { f with committed := true, take := some seq } :: commitNewest seq k r

/-- The trigger frame starts: RECORDING, TAKE_SEQ + 1, and the frames held before it are committed and handed over, oldest first (R134). -/
def State.ebeTrigger (s : State) (n stride : Nat) : State :=
  let seq := (Fld.EBE.REC_STAT_TAKE_SEQ s.regs n + 1) % 2 ^ 16
  let s := (s.setFld (Adr.EBE.REC_STAT n) 0 2 2).setFld (Adr.EBE.REC_STAT n) 16 16 seq
  let x := s.ebeOf n
  let frames := (commitNewest seq (Fld.EBE.PREROLL_FRAMES s.regs n) x.frames.reverse).reverse
  let before := x.frames.filter (·.committed)
  let mine := frames.filter (fun f => f.committed && !before.contains f)
  let s := s.setEbe n { x with frames := frames, trigger := none, stopAt := none, committed := mine.length, released := 0 }
  mine.foldl (fun s f => s.rawFrame n (s.frameItem n f)) (s.rawTakeStart n stride)

/-- Whether two spans of ring units overlap. -/
def spansOverlap (units u n v m : Nat) : Bool :=
  units != 0 && (decide ((v + units - u % units) % units < n) || decide ((u + units - v % units) % units < m))

/-- Drop the oldest uncommitted frames until at most `keep` are left. -/
def dropOldest (keep : Nat) (fs : List RingFrame) : List RingFrame :=
  let extra := (fs.filter (fun f => !f.committed)).length - keep
  go extra fs
where
  go : Nat → List RingFrame → List RingFrame
    | _, [] => []
    | 0, l => l
    | k + 1, f :: r => if f.committed then f :: go (k + 1) r else go k r

/-- Whether a frame is the one that START chose. -/
def TakePoint.chooses (p : TakePoint) (r : FrameRec) : Bool := match p with
  | .count c => r.count == c
  | .next older => !older.contains (r.count, r.sof)

/-- Whether a frame is the one that STOP chose, or a later one. -/
def TakePoint.ends (p : TakePoint) (r : FrameRec) : Bool := match p with
  | .count c => decide (serial 32 r.count c = .equal) || decide (serial 32 r.count c = .later)
  | .next older => !older.contains (r.count, r.sof)

/-- The frames of a context whose start has come and whose end has not, by count and SOF_TIME. -/
def State.framesUnder (s : State) (n : Nat) : List (Nat × Nat) :=
  let key (r : FrameRec) : Nat × Nat := (r.count, r.sof)
  (match (s.ebeOf n).open_ with
    | some f => [key f.record]
    | none => []) ++
  (s.ebeQueue n).filterMap (fun i => match i with
    | .start r _ _ _ | .skipped r => some (key r)
    | _ => none) ++
  (SMap.get (fun _ => []) s.rawIn n).filterMap (fun i => match i with
    | .start r _ _ _ | .skipped r => some (key r)
    | _ => none) ++
  ((s.stream n).frames.filter (fun f => !f.started)).map (fun f => key f.record)

/-- A frame start in a context (R133 to R135). -/
def State.ebeBegin (s : State) (n : Nat) (record : FrameRec) (w h : Nat) (skipped : Bool) : State :=
  let s := if Fld.EBE.ENC_CFG_USER_EN s.regs n = 1 then s.outOfRange (Fld.EBE.USER_UNIT s.regs n * 4096) 512 else s
  let cw := cwOf (Fld.EBE.ENC_CFG_CW s.regs n)
  let r2 := s.ratio2 n
  let tiles := tilesX w * tilesY h
  let stride := strideOf cw r2 tiles
  let units := (s.ebeOf n).ring.2
  let fw := units / stride
  let s := ((s.setReg (Adr.EBE.TILE_BYTES n) (tileBytesOf cw r2)).setReg (Adr.EBE.STRIDE_UNITS n) stride).setReg (Adr.EBE.FRAMES_WHOLE n) fw
  -- STOP has chosen this frame
  let s : State := match (s.ebeOf n).stopAt with
    | some p => if Fld.EBE.REC_STAT_STATE s.regs n = 2 ∧ p.ends record = true then s.ebeTakeEnd n false else s
    | none => s
  -- a change of geometry or stride (R135)
  let s : State := if (s.ebeOf n).geometry.isSome && decide ((s.ebeOf n).geometry ≠ some (w, h, stride)) then
      let s : State := if Fld.EBE.REC_STAT_STATE s.regs n = 2 then s.ebeTakeEnd n true else s
      let x : EbeCtx := s.ebeOf n
      let kept := x.frames.filter (·.committed)
      s.setEbe n { x with frames := kept, nextUnit := match kept.getLast? with
        | some f => (f.unit + f.stride) % max 1 units
        | none => 0 }
    else s
  let s := s.setEbe n { s.ebeOf n with geometry := some (w, h, stride) }
  let s := match (s.ebeOf n).trigger with
    | some p => if Fld.EBE.REC_STAT_STATE s.regs n = 1 ∧ p.chooses record = true then s.ebeTrigger n stride else s
    | none => s
  let reserve := Fld.EBE.COMMIT_RESERVE s.regs n
  let x := s.ebeOf n
  let f : EbeFrame :=
    { record := record, width := w, height := h, cw := cw, ratio2 := r2, pedestal := actPedestal cw (Fld.EBE.PEDESTAL s.regs n),
      cfaId := Fld.EBE.ENC_CFG_CFA_ID s.regs n,
      user := if Fld.EBE.ENC_CFG_USER_EN s.regs n = 1 then s.loadBytes (Fld.EBE.USER_UNIT s.regs n * 4096) 512 else [],
      tileBytes := tileBytesOf cw r2, stride := stride, unit := none, skipped := skipped, rows := [],
      tileRow := 0, holdSegs := 0, rawTiles := 0, index := [], offset := (1 + idxUnits r2 tiles) * 4096, writeErr := false, complete := skipped }
  if fw ≤ reserve then
    let s := if x.starved then s else s.fault (ebeUnit n) 0x07
    s.setEbe n { x with starved := true, open_ := some f }
  else
    let frames := dropOldest (fw - reserve - 1) x.frames
    let u := x.nextUnit
    let hit (g : RingFrame) : Bool := spansOverlap units u stride g.unit g.stride
    if frames.any (fun g => g.committed && hit g) then
      ((s.bump (Adr.EBE.RING_FULL n)).fault (ebeUnit n) 0x21).setEbe n { x with starved := false, frames := frames, open_ := some f }
    else
      s.setEbe n { x with starved := false, frames := frames.filter (fun g => !hit g), open_ := some { f with unit := some u } }

/-- EBE_FRAME_START: the context begins the frame that waits at it (R133, R135); a SKIPPED slot has the geometry of the frame before it. -/
def ebeFrameStart (n : Nat) (s : State) : State :=
  let x := s.ebeOf n
  if !x.running || s.holding 0x14 || x.open_.isSome then s else
  match s.ebeQueue n with
  | .start r w h _ :: rest => ((s.setEbeQueue n rest).ebeBegin n r w h false).ebeFeed n
  | .skipped r :: rest =>
    let (w, h) := match x.geometry with
      | some (w, h, _) => (w, h)
      | none => ((s.geometryNow n).1, (s.geometryNow n).2.1)
    (s.setEbeQueue n rest).ebeBegin n r w h true
  | _ => s

/-- STOP is complete once the last frame before the chosen one has ended (R134). -/
def State.ebeStopCheck (s : State) (n : Nat) : State :=
  let x := s.ebeOf n
  let past := match x.stopAt with
    | some (.count c) => decide (x.nextCount = some c)
    | some (.next older) => !(s.framesUnder n).any (fun k => older.contains k)
    | none => false
  if Fld.EBE.REC_STAT_STATE s.regs n = 2 && x.open_.isNone && past then s.ebeTakeEnd n false else s

/-- EBE_FRAME_END: after the last tile the index and the header are written, and a take commits the frame (R129 to R131, R134). -/
def ebeFrameEnd (n : Nat) (s : State) : State :=
  let x := s.ebeOf n
  match x.open_ with
  | none => s
  | some f =>
    if !f.complete then s else
    let next := some ((f.record.count + 1) % 2 ^ 32)
    match f.unit with
    | none => (s.setEbe n { x with open_ := none, nextCount := next }).ebeStopCheck n
    | some u =>
      let s := if f.ratio2 = 0 && !f.skipped then (s.ringSeen n u 4096 f.indexBytes.length).ringWrite n u 4096 f.indexBytes else s
      let s := (s.ringSeen n u 0 4096).ringWrite n u 0 f.header
      let recording := Fld.EBE.REC_STAT_STATE s.regs n == 2 && (match x.stopAt with
        | some p => !p.ends f.record
        | none => true)
      let g : RingFrame :=
        { count := f.record.count, unit := u, bytes := f.frameBytes, sof := f.record.sof, isolated := bitOf f.record.tags 4, stride := f.stride,
          committed := recording, take := if recording then some (Fld.EBE.REC_STAT_TAKE_SEQ s.regs n) else none }
      let s := s.setEbe n { x with open_ := none, nextCount := next, frames := x.frames ++ [g], nextUnit := (u + f.stride) % max 1 x.ring.2,
                                   committed := if recording then x.committed + 1 else x.committed }
      let s := if recording then s.rawFrame n (s.frameItem n g) else s
      s.ebeStopCheck n

/-- TILE_WRITE_ERROR: a tile write of the frame in progress ended in an error response (R131). -/
def tileWriteError (n unit : Nat) (s : State) : State :=
  match (s.ebeOf n).open_ with
  | some f => s.tileError n unit f
  | none => s

/-- The frame chosen by START or STOP, and whether its count was late (R134). -/
def State.chosenFrame (s : State) (n : Nat) (atCount : Bool) : TakePoint × Bool :=
  let c := Fld.EBE.REC_AT_COUNT s.regs n
  let ahead := decide (serial 32 c (s.grp n).cnt = .equal) || decide (serial 32 c (s.grp n).cnt = .later)
  if atCount && ahead then (.count c, false) else (.next (s.framesUnder n), atCount)

/-- REC_START (R134). -/
def recStart (n : Nat) (atCount : Bool) (s : State) : State :=
  if !(s.ebeOf n).running || Fld.EBE.REC_STAT_STATE s.regs n != 0 then s else
  let (p, late) := s.chosenFrame n atCount
  (s.setFld (Adr.EBE.REC_STAT n) 0 6 (1 + 16 * b2n late)).setEbe n { s.ebeOf n with trigger := some p }

/-- REC_STOP (R134). -/
def recStop (n : Nat) (atCount : Bool) (s : State) : State :=
  if !(s.ebeOf n).running then s else
  match Fld.EBE.REC_STAT_STATE s.regs n with
  | 1 => (s.setFld (Adr.EBE.REC_STAT n) 0 2 0).setEbe n { s.ebeOf n with trigger := none }
  | 2 =>
    let (p, late) := s.chosenFrame n atCount
    let s := if late then s.setFld (Adr.EBE.REC_STAT n) 4 1 1 else s
    (s.setEbe n { s.ebeOf n with stopAt := some p }).ebeStopCheck n
  | _ => s

/-- One context at an apply point of the EBE page (R72): its flow carries the EBE resource and the ring's MC costs. A new ring starts empty; the geometry of the frame
before stays what the next one is compared with (R135). -/
def State.applyEbeCtx (s : State) (n : Nat) : State :=
  let x := s.ebeOf n
  let wanted := s.enabled 0x14 && Fld.EBE.ENC_CFG_EN s.regs n == 1
  if wanted && !x.running then
    let ok := s.admitted.any (fun e => (e.2.owner == 0x140 || e.2.owner == ebeUnit n) &&
      [5, 0x17, 0x18, 0x19, 0x1A].all (fun r => e.2.pairs.any (fun c => c.1 == r)))
    if ok then
      let ring := (Fld.EBE.RING_UNIT s.regs n, Fld.EBE.RING_UNITS s.regs n)
      s.setEbe n (if x.ring = ring then { x with running := true } else
        { ebeCtxReset with running := true, ring := ring, geometry := x.geometry, trigger := x.trigger, stopAt := x.stopAt, committed := x.committed, released := x.released })
    else s.fault (ebeUnit n) 0x07
  else if !wanted && x.running then s.setEbe n { x with running := false }
  else s

/-- The EBE page at an apply point. -/
def State.applyEbe (s : State) : State := (List.range 4).foldl State.applyEbeCtx s

/-- CNT_RESTART of EBE: bit s restarts context s's counters. -/
def ebeCounters : List (List RegAddr) :=
  (List.range 4).map (fun n => [Adr.EBE.HOLD_SEGS n, Adr.EBE.RAW_TILES n, Adr.EBE.RING_FULL n, Adr.EBE.MAP_CLIPPED n, Adr.EBE.WRITE_ERR n])

/-- Kiosk words of EBE selector 0x10 + s. -/
def State.ebeKiosk (s : State) (sel : Nat) : Option (List Nat) :=
  if 0x10 ≤ sel ∧ sel < 0x14 then
    let x := s.ebeOf (sel - 0x10)
    let newest := x.frames.getLast?
    let oldest := x.frames.head?
    let show_ (f : Option RingFrame) : List Nat := match f with
      | some f => [f.count, f.unit]
      | none => [0, 0]
    some (show_ newest ++ show_ oldest ++ [x.committed, x.released])
  else none

/-! ### Decoder (R136, R137) -/

/-- PLAY_START: the job registers are read; START while PLAYING is ignored. An ambiguous PACE_START is undefined for this job only (R11, R136). -/
def playStart (s : State) : State :=
  if s.ebd.isSome || !s.enabled 0x15 || !s.hasFlow 0x150 then s else
  let cfg := s.regs.page 0x15
  let start := Fld.EBD.PACE_START_LO cfg + 2 ^ 32 * Fld.EBD.PACE_START_HI cfg
  let (base, s) := if Fld.EBD.PACE_NUM cfg = 0 then (0, s) else s.fullTime start
  ({ s with ebd := some { cfg := cfg, n := 0, base := base } } : State).setReg Adr.EBD.FRAMES_DONE 0

/-- PLAY_STOP: the job ends after the frame in progress; between frames it ends at once. -/
def playStop (s : State) : State := { s with ebd := none }

/-- The ring unit or unit of frame n of a job, and its wrap region (R136). -/
def frameUnit (cfg : RegFile) (n : Nat) : Nat :=
  let wrap := Fld.EBD.WRAP_UNITS cfg
  let u := Fld.EBD.SRC_UNIT cfg + n * Fld.EBD.STRIDE_UNITS cfg
  if wrap = 0 then u else Fld.EBD.WRAP_UNIT cfg + (u + wrap - Fld.EBD.WRAP_UNIT cfg % wrap) % wrap

/-- The address of byte `o` of the frame at unit `u`. -/
def frameAddr (cfg : RegFile) (u o : Nat) : Nat :=
  let wrap := Fld.EBD.WRAP_UNITS cfg
  if wrap = 0 then u * 4096 + o else Fld.EBD.WRAP_UNIT cfg * 4096 + ((u - Fld.EBD.WRAP_UNIT cfg) * 4096 + o) % (wrap * 4096)

/-- The spans of `len` bytes at byte `o` of the frame at unit `u`: two where they pass the end of the wrap region. -/
def frameSpans (cfg : RegFile) (u o len : Nat) : List (Nat × Nat) :=
  let wrap := Fld.EBD.WRAP_UNITS cfg
  let a := frameAddr cfg u o
  let room := (Fld.EBD.WRAP_UNIT cfg + wrap) * 4096 - a
  if wrap = 0 ∨ len ≤ room then [(a, len)] else [(a, room), (Fld.EBD.WRAP_UNIT cfg * 4096, len - room)]

/-- `len` bytes of the frame at unit `u`, and the error response the read meets, given the beats whose reads end in one. -/
def State.frameRead (s : State) (cfg : RegFile) (u : Nat) (bad : BadBeats) (o len : Nat) : List Byte × Option Nat :=
  let spans := frameSpans cfg u o len
  let e := (spans.filterMap (fun p => if p.2 = 0 then none else (s.spanError p.1 p.2).or (badIn bad p.1 p.2))).head?
  (if e.isSome then List.replicate len 0 else spans.flatMap (fun p => s.dramRead p.1 p.2), e)

/-- The record of a frame header (R130). -/
def headerRecord (b : List Byte) : FrameRec :=
  { count := fieldOf b 0x08 4, sof := fieldOf b 0x10 8 % 2 ^ 40, modeId := fieldOf b 0x0E 1, tags := fieldOf b 0x0C 1 % 128, missing := fieldOf b 0x0D 1 % 16,
    lines := fieldOf b 0x2C 2, firstDropped := fieldOf b 0x2E 2, epoch := fieldOf b 0x28 2, timecode := fieldOf b 0x24 4,
    ptp := (fieldOf b 0x18 8 % 2 ^ 48, fieldOf b 0x20 4) }

/-- A record whose header failed: no field of it is stated, so each is free but the DECODE_ERR tag. -/
def State.freeRecord (s : State) : FrameRec × State :=
  let (ws, s) := s.drawWords 11
  let w (k : Nat) : Nat := (nth 0 ws k).toNat
  ({ count := w 0, sof := w 1 + w 2 % 256 * 2 ^ 32, modeId := w 3 % 256, tags := 128 + w 3 / 256 % 128, missing := w 3 / 2 ^ 16 % 16, lines := w 4 % 2 ^ 16,
     firstDropped := w 5 % 2 ^ 16, epoch := w 6 % 2 ^ 16, timecode := w 7, ptp := (w 8 + w 9 % 2 ^ 16 * 2 ^ 32, w 10) }, s)

/-- A frame as it goes to Orangery context B: items, with every photosite L25 code 0. -/
def blankRows (w h : Nat) : List (List Int) := List.replicate h (List.replicate w 0)

/-- Decode tile i of a frame in DRAM: its coded samples, or none where a check of R137 fails; and the error response its read meets. -/
def State.readTile (s : State) (cfg : RegFile) (u : Nat) (bad : BadBeats) (hd : List Byte) (i tw th : Nat) : Option (List (List Nat)) × Option Nat :=
  tileFrom (s.frameRead cfg u bad) hd i tw th

/-- The rows of a frame from its tiles: L25 rows, the corrupt tiles, and the error responses met. -/
def State.decodeRows (s : State) (cfg : RegFile) (u : Nat) (bad : BadBeats) (hd : List Byte) (w h : Nat) : List (List Int) × Nat × List Nat :=
  let cw := fieldOf hd 0x38 1
  let ped := actPedestal cw (fieldOf hd 0x3A 2)
  let rows := (List.range (tilesY h)).map (fun ty =>
    let th := min 16 (h - 16 * ty)
    let tiles := (List.range (tilesX w)).map (fun tx =>
      let tw := min 256 (w - 256 * tx)
      let (t, e) := s.readTile cfg u bad hd (ty * tilesX w + tx) tw th
      ((match t with
        | some (rs : List (List Nat)) => rs.map (fun (r : List Nat) => r.map (unmapSample cw ped))
        | none => blankRows tw th : List (List Int)), t.isNone, e))
    ((List.range th).map (fun k => tiles.flatMap (fun t => nth [] t.1 k)), tiles.countP (·.2.1), tiles.filterMap (·.2.2)))
  (rows.flatMap (·.1), rows.foldl (fun n r => n + r.2.1) 0, rows.flatMap (·.2.2))

/-- Send a decoded frame to Orangery context B. -/
def State.toB (s : State) (record : FrameRec) (w h : Nat) (cfa : Option Nat) (rows : List (List Int)) : State :=
  { s with orgInB := s.orgInB ++ [.start record w h cfa] ++ rows.map (fun r => .row noFlags r) ++ [.finish record] }

/-- One frame of a job, checked and decoded (R137). `reads` are the beats whose reads end in an error response: only the tiles that need one are corrupt, and
the decoder reports each response it met. -/
def State.decodeOne (s : State) (j : EbdJob) (reads : BadBeats) : State :=
  let cfg := j.cfg
  let u := frameUnit cfg j.n
  let (hd, e) := s.frameRead cfg u reads 0 4096
  let s := match e with
    | some c => s.upstream 0x150 c
    | none => s
  let w := Fld.EBD.OUT_GEO_OUT_W cfg
  let h := Fld.EBD.OUT_GEO_OUT_H cfg
  let out (s : State) (rec_ : FrameRec) (cfa : Option Nat) (rows : List (List Int)) : State :=
    (s.bump Adr.EBD.FRAMES_DONE).toB rec_ w h cfa rows
  if !headerGood hd then
    let s := (s.bump Adr.EBD.HDR_ERR).fault 0x150 0x20
    let (r, s) := s.freeRecord
    out s r none (blankRows w h)
  else
    let r := headerRecord hd
    if bitOf r.tags 3 then s else
    let badGeo := fieldOf hd 0x30 2 != w || fieldOf hd 0x32 2 != h
    let stale := Fld.EBD.PLAY_CFG_EXPECT_EN cfg == 1 && r.count != (Fld.EBD.EXPECT_FC cfg + j.n) % 2 ^ 32
    let cfa := some (fieldOf hd 0x0F 1)
    if badGeo || stale then
      let s := if badGeo then (s.bump Adr.EBD.HDR_ERR).fault 0x150 0x07 else s
      let s := if stale then ((s.bump Adr.EBD.HDR_ERR).fault 0x150 0x20).bump Adr.EBD.STALE_FRAMES else s
      out s { r with tags := r.tags + 128 } cfa (blankRows w h)
    else
      let (rows, bad, es) := s.decodeRows cfg u reads hd w h
      let s := (distinct es).foldl (fun s c => s.upstream 0x150 c) s
      let s := if bad = 0 then s else (s.bumpBy Adr.EBD.TILE_ERR bad).fault 0x150 0x21
      out s (if bad = 0 then r else { r with tags := r.tags + 128 }) cfa rows

/-- Whether frame n of a job may start: unpaced, or its slot has been reached (R136). -/
def State.paceReached (s : State) (j : EbdJob) : Bool :=
  Fld.EBD.PACE_NUM j.cfg == 0 || s.slotReached j.base (Fld.EBD.PACE_NUM j.cfg) (Fld.EBD.PACE_DEN j.cfg) j.n

/-- The decoder's next frame (R136, R137). -/
def State.decodeNext (s : State) (reads : BadBeats) : State :=
  match s.ebd with
  | none => s
  | some j =>
    if Fld.EBD.COUNT j.cfg ≤ j.n then { s with ebd := none } else
    if s.holding 0x15 || !s.paceReached j then s else
    let s := s.decodeOne j reads
    { s with ebd := if j.n + 1 < Fld.EBD.COUNT j.cfg then some { j with n := j.n + 1 } else none }

/-- The EBD page at an apply point: an enabled decoder with no ADMITTED flow reports CONFIG (R72). -/
def State.applyEbd (s : State) : State := if s.enabled 0x15 && !s.hasFlow 0x150 then s.fault 0x150 0x07 else s

end Sys2Proof.Machine
end

