-- ==== Sys2Proof/Machine/Orangery.lean ====
section
/-! DEFINITION. The Orangery's two contexts, its colour statistics and histograms, and the ORL table memory (07_orangery.md, R138 to R156), with the
source side of the crossbar (R157, R158). -/

namespace Sys2Proof.Machine

/-! ### Views as consumers of a stream (R19, R157, R158) -/

/-- A view, and storing it. -/
def State.view (s : State) (v : Nat) : View := SMap.get (fun _ => viewReset) s.views v
def State.setView (s : State) (v : Nat) (x : View) : State := { s with views := SMap.set (fun _ => viewReset) s.views v x }

/-- The page of a view, and its unit ID. -/
def viewPage (v : Nat) : Nat := 0x20 + v
def viewUnit (v : Nat) : Nat := 0x200 + 0x10 * v

/-- The sources of R157. -/
def viewSources : List Nat := [0, 1, 2, 3, 0x10, 0x11, 0x12, 0x13] ++ (List.range 16).map (· + 0x20) ++ [0x30, 0x31]

/-- SRC of a view as it acts (R41). -/
def State.viewSrc (s : State) (v : Nat) : Nat :=
  let x := Fld.VW.SRC_CFG_SRC s.regs v
  if viewSources.contains x then x else nth 0 viewSources (Config.unlisted (Adr.VW.SRC_CFG v) x % 26)

/-- A frame of stream source `src` begins: every running view bound to it starts a frame, every (FRAME_DIV + 1)-th time (R157, R158). The first frame after the view
starts is taken, and a change of SRC or FRAME_DIV goes on with the count (DESIGN CHOICE, assumption 168). -/
def State.sourceStart (s : State) (src serial : Nat) (r : FrameRec) : State :=
  (List.range 8).foldl (fun s v =>
    let x := s.view v
    if x.running && s.viewSrc v == src then
      let s := s.setView v { x with div := if Fld.VW.SRC_CFG_FRAME_DIV s.regs v ≤ x.div then 0 else x.div + 1, record := some r }
      if x.div = 0 then
        let x := s.view v
        let st : ViewStart := { serial := some serial, source := src, record := r, rows := [], whole := false, buffer := none }
        (s.setView v { x with starts := x.starts ++ [st] }).frameStart 2 v
      else s
    else s) s

/-- What reaches the starts of one frame of a stream source. -/
def State.toStarts (s : State) (src serial : Nat) (g : ViewStart → ViewStart) : State :=
  (List.range 8).foldl (fun s v =>
    let x := s.view v
    let fill (a : ViewStart) : ViewStart := if a.source = src ∧ a.serial = some serial then g a else a
    s.setView v { x with starts := x.starts.map fill, frame := x.frame.map (fun f => { f with start := fill f.start }) }) s

/-- A line of a frame of a stream source, with its flags (R147). -/
def State.sourceRow (s : State) (src serial : Nat) (row : LineFlags × List Px) : State :=
  s.toStarts src serial (fun a => { a with rows := a.rows ++ [row] })

/-- The record that a stream carries last; a view bound to the source sees it. -/
def State.passRecord (s : State) (src : Nat) (r : FrameRec) : State :=
  (List.range 8).foldl (fun s v =>
    if (s.view v).running && s.viewSrc v == src then s.setView v { s.view v with record := some r } else s) s

/-- A frame of stream source `src` is complete: the views that took it have its lines and its closed record. -/
def State.sourceEnd (s : State) (src serial : Nat) (r : FrameRec) : State :=
  (s.toStarts src serial (fun a => { a with record := r, whole := true })).passRecord src r

/-- Whether a view has not begun a frame of a stream source that it takes: the stream waits for its slowest consumer, at that frame boundary (R19, R20, R37). -/
def State.viewsStalled (s : State) (src : Nat) : Bool :=
  (List.range 8).any (fun v => (s.view v).starts.any (fun a => a.serial.isSome && a.source == src))

/-! ### Contexts (R138 to R148) -/

/-- An Orangery context, and storing it. -/
def State.orgOf (s : State) (c : Nat) : OrgCtx := SMap.get (fun _ => orgCtxReset) s.org c
def State.setOrg (s : State) (c : Nat) (x : OrgCtx) : State := { s with org := SMap.set (fun _ => orgCtxReset) s.org c x }

/-- The queue of a context, and storing it. -/
def State.orgQueue (s : State) (c : Nat) : List LineItem := if c = 0 then s.orgIn else s.orgInB
def State.setOrgQueue (s : State) (c : Nat) (q : List LineItem) : State := if c = 0 then { s with orgIn := q } else { s with orgInB := q }

/-- The unit ID of a context. -/
def orgUnit (c : Nat) : Nat := 0x181 + c

/-- A matrix coefficient and an offset of a context: the registers follow one another. -/
def orgCoef (cfg : RegFile) (c o i : Nat) : Int := signed (cfg.fld (Adr.ORG.MAT_0_0 c + 4 * (3 * o + i)) 0 19) 19
def orgOfs (cfg : RegFile) (c o : Nat) : Int := signed (cfg.fld (Adr.ORG.OFS_0 c + 4 * o) 0 25) 25

/-- The two columns received so far for an edge of a frame, by row (R328). -/
def State.border (s : State) (count : Nat) (right : Bool) : List (List Int) :=
  match s.links.borders.find? (fun b => b.count == count && b.right == right) with
  | some b => b.rows
  | none => []

/-- Output row r of a frame (R140 to R147); at an edge with received columns these stand in place of the reflection (R328). -/
def OrgFrame.renderRow (f : OrgFrame) (c : Nat) (left right : List (List Int)) (r : Nat) : LineFlags × List Px :=
  let gain (ph : Nat) : Nat := f.cfg.fld (Adr.ORG.WB_GAIN_0 c + 4 * ph) 0 16
  let clip := signed (Fld.ORG.HL_CLIP f.cfg c) 25
  let white (r x : Nat) (a : Int) : Int := whiteBalance (gain (2 * (r % 2) + x % 2)) clip a
  let wb := f.rows.zipIdx.map (fun r => r.1.2.zipIdx.map (fun e => white r.2 e.2 e.1))
  let v (r x : Int) : Int :=
    let y := reflect f.height r
    let got := if x < 0 then (nth [] left y)[(x + 2).toNat]? else if f.width ≤ x then (nth [] right y)[(x - f.width).toNat]? else none
    match got with
    | some a => white y (x % 2).toNat a
    | none => mosaicAt f.width f.height wb r x
  let mat (o : Nat) (p : Px) : Int := matRow (orgCoef f.cfg c o 0) (orgCoef f.cfg c o 1) (orgCoef f.cfg c o 2) (orgOfs f.cfg c o) p
  let flags := ((f.rows[r]?).map (·.1)).getD noFlags
  (flags, (List.range f.width).map (fun x =>
    if flags.pad then (0, 0, 0) else
    let p := demosaic f.cfa (Fld.ORG.DM_T f.cfg c) v r x
    (mat 0 p, mat 1 p, mat 2 p)))

/-! ### Frame end: statistics and histograms (R155, R156) -/

/-- Whether a pixel lies in a region's window; W and H have the range 1 to 16,384 (R41, R155). -/
def inRegion (cfg : RegFile) (k x y : Nat) : Bool :=
  let x0 := Fld.ORG.REG_POS_X0 cfg k
  let y0 := Fld.ORG.REG_POS_Y0 cfg k
  let size := inRange (Adr.ORG.REG_SIZE k)
  decide (x0 ≤ x) && decide (x < x0 + size (Fld.ORG.REG_SIZE_W cfg k) 1 16384) && decide (y0 ≤ y) && decide (y < y0 + size (Fld.ORG.REG_SIZE_H cfg k) 1 16384)

/-- The value of a channel of a pixel. -/
def channel (p : Px) (ch : Nat) : Int := if ch = 0 then p.1 else if ch = 1 then p.2.1 else p.2.2

/-- The statistics of a region and channel over a frame (R155). -/
def OrgFrame.colourStat (f : OrgFrame) (k ch : Nat) : ColourStat :=
  let lo := signed (Fld.ORG.STAT_LO f.cfg) 25
  let hi := signed (Fld.ORG.STAT_HI f.cfg) 25
  f.out.zipIdx.foldl (fun t row =>
    if row.1.1.pad then t else
    row.1.2.zipIdx.foldl (fun t e =>
      if !inRegion f.cfg k e.2 row.2 then t else
      let p := e.1
      if decide (hi < p.1) || decide (hi < p.2.1) || decide (hi < p.2.2) then { t with clipped := t.clipped + 1 }
      else if lo ≤ p.1 ∧ lo ≤ p.2.1 ∧ lo ≤ p.2.2 then { t with sum := t.sum + channel p ch, count := t.count + 1 }
      else t) t) colourEmpty

/-- The histogram bin of a value (R156): the LUT1 index with NEG = 0, shifted right by 4. -/
def binOf (y : Int) : Nat := (lutIndex (if 0 ≤ y then y.toNat else 0)).1 / 16

/-- The histogram record of a frame, written in three phases (R156). -/
def State.writeHistogram (s : State) (f : OrgFrame) : State :=
  let base := (Fld.ORG.HIST_UNIT f.cfg + f.record.count % 2) * 4096
  let px := (f.out.filter (fun r => !r.1.pad)).flatMap (·.2)
  let bins := (List.range 3).flatMap (fun ch => (List.range 256).map (fun b => (px.countP (fun p => binOf (channel p ch) == b))))
  let s := s.storeSeen (base + 4 * 768) (leBytes 4 f.record.count ++ leBytes 4 px.length ++ leBytes 4 f.record.tags)
  let s := s.storeSeen base (bins.flatMap (leBytes 4))
  s.storeSeen (base + 4 * 1023) (leBytes 4 f.record.count)

/-- Whether the end of a context's frame, still to be processed, writes its histogram record (R156). -/
def State.histogramDue (s : State) (c : Nat) : Bool := match (s.orgOf c).frame with
  | some f => f.complete && !f.ended && Fld.ORG.STAT_CFG_CTX f.cfg == c && Fld.ORG.STAT_CFG_HIST_EN f.cfg == 1
  | none => false

/-- ORG_FRAME_END: FRAMES counts, the statistics of all regions become visible together, and the histogram record is written (R155, R156). -/
def orgFrameEnd (c : Nat) (s : State) : State :=
  let x := s.orgOf c
  match x.frame with
  | none => s
  | some f =>
    if !f.complete || f.ended then s else
    let s := s.setOrg c { x with frame := some { f with ended := true } }
    let s := (s.bump (Adr.ORG.FRAMES c)).setReg (Adr.ORG.LAST_FC c) f.record.count
    let mine := Fld.ORG.STAT_CFG_CTX f.cfg == c
    let s : State := if mine && Fld.ORG.STAT_CFG_EN f.cfg == 1 then
        let ks := (List.range 4).filter (fun k =>
          Fld.ORG.REG_CTL_EN f.cfg k == 1 && Fld.ORG.REG_SIZE_W f.cfg k != 0 && Fld.ORG.REG_SIZE_H f.cfg k != 0)
        { s with orgStats := ks.foldl (fun m k => (List.range 3).foldl (fun m ch => SMap.set (fun _ => colourEmpty) m (4 * k + ch) (f.colourStat k ch)) m)
                               s.orgStats
                 orgStatCount := ks.foldl (fun m k => SMap.set (fun _ => 0) m k f.record.count) s.orgStatCount }
      else s
    if mine && Fld.ORG.STAT_CFG_HIST_EN f.cfg == 1 then s.writeHistogram f else s

/-! ### The stream through a context -/

/-- The CFA of a frame, and whether a header code of 5 or more was refused: R139 names 5 to 15, which the encoder writes (R130); a header byte of 16 or more is
refused with them (DESIGN CHOICE, assumption 165). -/
def State.frameCfa (s : State) (c : Nat) (hdr : Option Nat) : Nat × Bool :=
  let own := listed (Adr.ORG.CTX_CFG c) (Fld.ORG.CTX_CFG_CFA s.regs c) 5
  match hdr with
  | some k => if c ≠ 1 then (own, false) else if 5 ≤ k then (own, true) else (if Fld.ORG.CTX_CFG_CFA_FROM_HDR s.regs 1 = 1 then k else own, false)
  | none => (own, false)

/-- A frame starts in a context (R46, R138, R139). A frame end that is still to be processed comes first. -/
def State.orgStart (s : State) (c : Nat) (r : FrameRec) (w h : Nat) (hdr : Option Nat) : State :=
  let s := orgFrameEnd c s
  let x := s.orgOf c
  let (cfa, bad) := s.frameCfa c hdr
  let s := if bad then (s.bump (Adr.ORG.CFA_BAD c)).fault 0x182 0x07 else s
  let f : OrgFrame :=
    { serial := x.serial, record := r, width := w, height := h, cfa := cfa, cfg := s.regs.page 0x18, rows := [], out := [], complete := false, ended := false }
  (s.setOrg c { x with frame := some f, serial := x.serial + 1 }).sourceStart (c + 1) x.serial r

/-- The BORDER channels that receive, as (port, channel, whether the right edge) (R326). -/
def State.borderChannels (s : State) : List (Nat × Nat × Bool) :=
  (List.range 4).flatMap (fun p => (List.range 8).filterMap (fun c =>
    if (s.flkChan p c).running && Fld.FLK.CH_CFG_DIR s.regs p c == 1 && Fld.FLK.CH_CFG_KIND s.regs p c == 2 then some (p, c, Fld.FLK.CH_CFG_EDGE s.regs p c == 1) else none))

/-- Every BORDER channel whose link is UP has delivered its columns of the rows that a row of a frame needs, the two above it to the two below it; or no more of that
frame will come, because the channel's transmission of it has ended or a later frame's has begun (R328, assumption 137). -/
def State.bordersReady (s : State) (count row height : Nat) : Bool :=
  s.borderChannels.all (fun k => !s.linkUp k.1 || s.links.borders.any (fun b => b.right == k.2.2 &&
    ((b.count == count && (b.ended || decide (min (row + 2) (height - 1) < b.rows.length))) || decide (serial 32 b.count count = .later))))

/-- A frame's columns have been used. A channel that did not deliver them all made its edge reflect: CHANNEL_DROP (R328). -/
def State.dropBorders (s : State) (count height : Nat) : State :=
  let s := s.borderChannels.foldl (fun s k =>
    if s.links.borders.any (fun b => b.count == count && b.right == k.2.2 && decide (height ≤ b.rows.length)) then s
    else s.fault (0x503 + 0x10 * k.1 + k.2.1) 0x21) s
  { s with links := { s.links with borders := s.links.borders.filter (fun b => decide (serial 32 b.count count = .later)) } }

/-- Output rows leave: row r once input row r + 2 has arrived, or the frame's last row; at an edge that receives border columns, once those of the rows it needs have
come (R144, R328). Where they have not come because the link is DOWN, the row reflects at that edge. -/
def State.orgRows (s : State) (c : Nat) (f : OrgFrame) : Nat → OrgFrame × State
  | 0 => (f, s)
  | k + 1 =>
    let r := f.out.length
    if r < f.rows.length ∧ (r + 2 < f.rows.length ∨ f.height ≤ f.rows.length) ∧ (c = 0 → s.bordersReady f.record.count r f.height = true) then
      let n := f.record.count
      let row := if c = 0 then f.renderRow c (s.border n false) (s.border n true) r else f.renderRow c [] [] r
      (s.sourceRow (c + 1) f.serial row).orgRows c { f with out := f.out ++ [row] } k
    else (f, s)

/-- Send the rows of the frame in progress that can leave. -/
def State.orgEmit (s : State) (c : Nat) (f : OrgFrame) : State :=
  let (f, s) := s.orgRows c f f.rows.length
  s.setOrg c { s.orgOf c with frame := some f }

/-- A frame is complete in a context: its last rows have left. -/
def State.orgFinish (s : State) (c : Nat) (f : OrgFrame) (r : FrameRec) : State :=
  let s := if c = 0 then s.dropBorders f.record.count f.height else s
  (s.setOrg c { s.orgOf c with frame := some { f with record := r, complete := true } }).sourceEnd (c + 1) f.serial r

/-- The context takes what waits at it, at the pace of the views that take its frames; HOLD stalls it at a frame boundary (R20, R37), and
so does a histogram record that DRAM whose clock has stopped holds up (R18). -/
def State.orgPump (s : State) (c : Nat) : Nat → State
  | 0 => s
  | fuel + 1 =>
    match s.orgQueue c with
    | [] => s
    | i :: rest =>
      let x := s.orgOf c
      let inside := s.orgOpen c
      if s.viewsStalled (c + 1) || (x.running && !inside && s.holding 0x18) || (s.dramStopped && s.histogramDue c) then s else
      match i, x.frame with
      | .start r w h k, _ =>
        let s := s.setOrgQueue c rest
        (if x.running then s.orgStart c r w h k else s).orgPump c fuel
      | .skipped r, _ =>
        let s := s.setOrgQueue c rest
        (if x.running then s.passRecord (c + 1) r else s).orgPump c fuel
      | .row p v, some f =>
        let s := s.setOrgQueue c rest
        (if inside then s.orgEmit c { f with rows := f.rows ++ [(p, v)] } else s).orgPump c fuel
      | .finish r, some f =>
        if !inside then (s.setOrgQueue c rest).orgPump c fuel
        else if f.out.length < f.rows.length then s
        else ((s.setOrgQueue c rest).orgFinish c f r).orgPump c fuel
      | _, none => (s.setOrgQueue c rest).orgPump c fuel

/-- Pump everything that waits. -/
def State.orgFeed (s : State) (c : Nat) : State :=
  let s := match (s.orgOf c).frame with
    | some f => if s.orgOpen c then s.orgEmit c f else s
    | none => s
  s.orgPump c (s.orgQueue c).length

/-- CONDITION_LINE: the next item of stream n passes through raw conditioning to its consumers (R101, R118, R140). -/
def conditionLine (n : Nat) (s : State) : State := ((s.conditionItem n).ebeFeed n).orgFeed 0

/-- DECODE_FRAME: the decoder's next frame goes to Orangery context B (R136, R137). -/
def decodeFrame (reads : BadBeats) (s : State) : State :=
  if s.orgInB.isEmpty then (s.decodeNext reads).orgFeed 1 else s.orgFeed 1

/-- The ORG page at an apply point (R72). -/
def State.applyOrg (s : State) : State :=
  [0, 1].foldl (fun s c =>
    let x := s.orgOf c
    let wanted := s.enabled 0x18 && Fld.ORG.CTX_CFG_EN s.regs c == 1
    if wanted && !x.running then
      if s.flowFor [0x180, orgUnit c] 7 then s.setOrg c { x with running := true } else s.fault (orgUnit c) 0x07
    else if !wanted && x.running then s.setOrg c { x with running := false }
    else s) s

/-- CNT_RESTART of ORG: bit c restarts context c's counters. -/
def orgCounters : List (List RegAddr) := [0, 1].map (fun c => [Adr.ORG.FRAMES c, Adr.ORG.CFA_BAD c])

/-- Kiosk words of ORG selector 0x20 + 4r + ch (R155). -/
def State.orgKiosk (s : State) (sel : Nat) : Option (List Nat) :=
  if 0x20 ≤ sel ∧ sel < 0x30 ∧ sel % 4 ≠ 3 then
    let t := SMap.get (fun _ => colourEmpty) s.orgStats (sel - 0x20)
    some [unsigned t.sum 64 % 2 ^ 32, unsigned t.sum 64 / 2 ^ 32, t.count, t.clipped, SMap.get (fun _ => 0) s.orgStatCount ((sel - 0x20) / 4)]
  else none

/-! ### ORL tables (R152 to R154) -/

/-- The words of a table's image; 0 where the ID names none (R152). -/
def imageWords (id : Nat) : Nat := if 0x40 ≤ id ∨ id % 8 = 7 then 0 else if id % 8 = 6 then 411938 else 2048

/-- A word of a table copy. -/
def State.tableWord (s : State) (id copy i : Nat) : Word := SMap.get (fun _ => 0) s.tables ((2 * id + copy) * 2 ^ 19 + i)

/-- Store a word of a table copy: bits 31:16 of a LUT3's last word are ignored (R152). -/
def State.setTableWord (s : State) (id copy i : Nat) (w : Word) : State :=
  if i < imageWords id then
    let w := if i = 411937 then BitVec.ofNat 32 (w.toNat % 2 ^ 16) else w
    { s with tables := SMap.set (fun _ => 0) s.tables ((2 * id + copy) * 2 ^ 19 + i) w }
  else s

/-- Entry i of a LUT1 table (R152). -/
def State.lut1Entry (s : State) (id copy i : Nat) : Nat := bits (s.tableWord id copy (i / 2)).toNat (16 * (i % 2)) 16

/-- The value of channel ch at a LUT3 node (R152). -/
def State.lut3Node (s : State) (id copy i0 i1 i2 ch : Nat) : Nat :=
  let k := 3 * (i0 + 65 * i1 + 4225 * i2) + ch
  bits (s.tableWord id copy (k / 2)).toNat (16 * (k % 2)) 16

/-- Whether a copy of a table is in use (R153): selected by the latest apply point of its view, or by the view's frame in progress. -/
def State.copyInUse (s : State) (id copy : Nat) : Bool :=
  let x := s.view (id / 8)
  decide (imageWords id ≠ 0) && (x.copy == some copy || (match x.frame with
    | some f => Fld.VW.PIPE_CFG_LUT_COPY f.cfg (id / 8) == copy
    | none => false))

/-- Whether a copy is being loaded. -/
def State.copyLoading (s : State) (id copy : Nat) : Bool :=
  match s.load with
  | some l => l.id == id && l.copy == copy
  | none => false

/-- TBL_SEL_WRITE: it selects the table and copy and sets TBL_ADDR to 0; while BUSY the ID stays (R153 and the register table). -/
def tblSelWrite (value : Nat) (s : State) : State :=
  let id := if s.load.isSome then Fld.ORL.TBL_SEL_ID s.regs else value % 2 ^ 8
  (s.setReg Adr.ORL.TBL_SEL (id + bits value 8 1 * 2 ^ 8)).setReg Adr.ORL.TBL_ADDR 0

/-- TBL_DATA_ACCESS: a read or write of the addressed word, which then moves TBL_ADDR on; writes to a copy in use or being loaded are refused (R153). TBL_ADDR moves on
under an ID that names no table too, where the access touches no word (DESIGN CHOICE, assumption 167). -/
def tblDataAccess (a : Access) (s : State) : State :=
  let id := Fld.ORL.TBL_SEL_ID s.regs
  let copy := Fld.ORL.TBL_SEL_COPY s.regs
  let i := Fld.ORL.TBL_ADDR s.regs
  let s := match a with
    | .read => s
    | .write w =>
      if s.copyInUse id copy || s.copyLoading id copy then s.bump Adr.ORL.REFUSED else s.setTableWord id copy i w
  s.setReg Adr.ORL.TBL_ADDR ((i + 1) % 2 ^ 19)

/-- The word TBL_DATA reads. -/
def State.tblWord (s : State) : Word := s.tableWord (Fld.ORL.TBL_SEL_ID s.regs) (Fld.ORL.TBL_SEL_COPY s.regs) (Fld.ORL.TBL_ADDR s.regs)

/-- LOAD_CMD (R154). An ID that names no table is ignored (R152). -/
def loadCmd (s : State) : State :=
  let id := Fld.ORL.TBL_SEL_ID s.regs
  let copy := Fld.ORL.TBL_SEL_COPY s.regs
  if s.load.isSome || s.copyInUse id copy then s.bump Adr.ORL.REFUSED
  else if imageWords id = 0 then s
  else ({ s with load := some { id := id, copy := copy, unit := Fld.ORL.LOAD_UNIT s.regs } } : State).setReg Adr.ORL.LOAD_STAT 1

/-- Copy the first n words of an image from DRAM; a word that DRAM cannot serve ends the copy, and it and those after it stay (R154). -/
def State.copyImage (s : State) (l : TableLoad) (n : Nat) : State :=
  (List.range (min (min n (imageWords l.id)) (s.served (l.unit * 4096) (4 * imageWords l.id) / 4))).foldl (fun s i =>
    s.setTableWord l.id l.copy i (BitVec.ofNat 32 (leNat (s.loadBytes (l.unit * 4096 + 4 * i) 4)))) s

/-- A load ends: LOAD_STAT shows how (bits DONE 1, ERR 2, ABORTED 3). -/
def State.endLoad (s : State) (bit : Nat) : State := ({ s with load := none } : State).setReg Adr.ORL.LOAD_STAT (2 ^ bit)

/-- LOAD_DONE: DONE after the last word, or ERR on a read error after `words` words (R154). -/
def loadDone (words : Nat) (read : BusResult) (s : State) : State :=
  match s.load with
  | none => s
  | some l =>
    let n := imageWords l.id
    match read.or (s.spanError (l.unit * 4096) (4 * n)) with
    | none => (s.copyImage l n).endLoad 1
    | some cause => ((s.copyImage l (min words (n - 1))).endLoad 2).upstream 0x192 cause

/-- The copy being loaded comes into use: the load ends with ABORTED, after as many words as had been written, a free number (R154). -/
def State.abortLoad (s : State) : State :=
  match s.load with
  | none => s
  | some l =>
    let (w, s) := s.drawWord
    (s.copyImage l (w.toNat % imageWords l.id)).endLoad 3

end Sys2Proof.Machine
end

