-- ==== Sys2Proof/Machine/Picture.lean ====
section
/-! DEFINITION. The picture arithmetic of a view as functions: reading a source buffer, crop, pre-decimation, scaling, colour stages, overlays, format
conversion and packing; and the patterns of the Parterre (08_views.md, R159 to R170, R174). -/

namespace Sys2Proof.Machine

/-- N of a DEPTH code. -/
def depthBits (code : Nat) : Nat := nth 16 [10, 12, 16] code

/-- Apply a function to the three channels. -/
def mapPx (f : Int → Int) (p : Px) : Px := (f p.1, f p.2.1, f p.2.2)

/-! ### Reading a frame buffer (R159, R170) -/

/-- Widen an N-bit sample to u16 (R159). -/
def widen (n s : Nat) : Nat := if n = 16 then s else s * 2 ^ (16 - n) + s / 2 ^ (2 * n - 16)

/-- The bytes of a row of `count` samples, and the samples in it (R170). -/
def rowBytes (fmt n width count : Nat) : Nat := if fmt ≤ 1 ∧ n = 10 then 4 * width else ceilDiv (count * n) 8
def unpackRow (fmt n count : Nat) (bs : List Byte) : List Nat :=
  let x := leNat bs
  (List.range count).map (fun k => if fmt ≤ 1 ∧ n = 10 then bits x (32 * (k / 3) + 10 * (k % 3)) 10 else bits x (n * k) n)

/-- The error response that a reader meets at a byte: by its address, or in a 32-byte beat that `bad` names with its cause (R159, R295). -/
def State.byteError (s : State) (bad : BadBeats) (addr : Nat) : Option Nat :=
  (s.dramError addr).or ((bad.find? (fun e => e.1 == addr / 32)).map (·.2))

/-- The bytes of sample k of a row: the first and the last. -/
def sampleBytes (fmt n k : Nat) : Nat × Nat :=
  if fmt ≤ 1 ∧ n = 10 then (4 * (k / 3), 4 * (k / 3) + 3) else (n * k / 8, (n * k + n - 1) / 8)

/-- A row of samples of a buffer, widened, each with the error responses its reads meet. -/
def State.bufRow (s : State) (b : BufFrame) (bad : BadBeats) (addr count : Nat) : List (Nat × List Nat) :=
  let n := depthBits b.depth
  (unpackRow b.fmt n count (s.dramRead addr (rowBytes b.fmt n b.width count))).zipIdx.map (fun e =>
    let (p, q) := sampleBytes b.fmt n e.2
    (widen n e.1, (s.byteError bad (addr + p)).toList ++ (s.byteError bad (addr + q)).toList))

/-- Chroma at full horizontal resolution (R159): `c k` is chroma sample k of `n`. -/
def chromaAt (c : Nat → Nat) (n x : Nat) : Nat :=
  if x % 2 = 0 then c (x / 2) else (c (x / 2) + c (if x / 2 + 1 < n then x / 2 + 1 else x / 2) + 1) / 2

/-- A pixel of three values that were read, or 0 in every channel where one of the reads met an error response (R159). -/
def readPx (used : List (List Nat)) (p : Nat × Nat × Nat) : (Nat × Nat × Nat) × List Nat :=
  if used.flatten.isEmpty then (p, []) else ((0, 0, 0), used.flatten)

/-- A row of a buffer as u16 pixels: RGB, or (Y, Cb, Cr), each with the error responses that left it at 0 (R159). -/
def State.bufPixels (s : State) (b : BufFrame) (bad : BadBeats) (y : Nat) : List ((Nat × Nat × Nat) × List Nat) :=
  let a := b.addr + y * b.pitch
  let w := b.width
  let half := w / 2
  let near (x : Nat) : Nat := if x % 2 = 0 ∨ half ≤ x / 2 + 1 then x / 2 else x / 2 + 1
  let pick (v : List (Nat × List Nat)) (k : Nat) : Nat := (nth (0, []) v k).1
  let err (v : List (Nat × List Nat)) (k : Nat) : List Nat := (nth (0, []) v k).2
  match b.fmt with
  | 0 =>
    let v := s.bufRow b bad a (3 * w)
    (List.range w).map (fun x => readPx [err v (3 * x), err v (3 * x + 1), err v (3 * x + 2)] (pick v (3 * x), pick v (3 * x + 1), pick v (3 * x + 2)))
  | 1 =>
    let v := s.bufRow b bad a (3 * w)
    (List.range w).map (fun x => readPx [err v (3 * x), err v (3 * x + 1), err v (3 * x + 2)] (pick v (3 * x + 1), pick v (3 * x), pick v (3 * x + 2)))
  | 2 =>
    let v := s.bufRow b bad a (2 * w)
    let cb (k : Nat) : Nat := pick v (4 * k)
    let cr (k : Nat) : Nat := pick v (4 * k + 2)
    (List.range w).map (fun x =>
      let l := 4 * (x / 2) + 1 + 2 * (x % 2)
      readPx [err v l, err v (4 * (x / 2)), err v (4 * (x / 2) + 2), err v (4 * near x), err v (4 * near x + 2)]
        (pick v l, chromaAt cb half x, chromaAt cr half x))
  | _ =>
    let l := s.bufRow b bad a w
    let c := s.bufRow b bad (b.addr + b.chroma + y / 2 * b.pitch) w
    let cb (k : Nat) : Nat := pick c (2 * k)
    let cr (k : Nat) : Nat := pick c (2 * k + 1)
    (List.range w).map (fun x =>
      readPx [err l x, err c (2 * (x / 2)), err c (2 * (x / 2) + 1), err c (2 * near x), err c (2 * near x + 1)]
        (pick l x, chromaAt cb half x, chromaAt cr half x))

/-- A buffer as a source of s25 pixels, and the error responses its reads meet (R159). -/
def State.bufSource (s : State) (b : BufFrame) (bad : BadBeats) : List (List Px) × List Nat :=
  let rows := (List.range b.height).map (s.bufPixels b bad)
  (rows.map (fun r => r.map (fun p => ((p.1.1 * 256 : Nat), (p.1.2.1 * 256 : Nat), (p.1.2.2 * 256 : Nat)))),
   distinct (rows.flatMap (fun r => r.flatMap (·.2))))

/-! ### Crop and pre-decimation (R160, R161) -/

/-- The crop window; pixels outside the source are 0. -/
def cropRows (x0 y0 w h : Nat) (rows : List (List Px)) : List (List Px) :=
  (List.range h).map (fun y => (List.range w).map (fun x => nth (0, 0, 0) (nth [] rows (y0 + y)) (x0 + x)))

/-- Whether the window reaches outside a source of the given size. -/
def cropClips (x0 y0 w h sw sh : Nat) : Bool := decide (0 < w ∧ 0 < h) && (decide (sw < x0 + w) || decide (sh < y0 + h))

/-- The average of a run completed by repeating its last value (R161). -/
def average (d : Nat) (vs : List Int) : Int :=
  let full := vs ++ List.replicate (2 ^ d - vs.length) (vs.getLast?.getD 0)
  rshift (full.foldl (· + ·) 0) d

/-- The average of a run of pixels. -/
def averagePx (d : Nat) (ps : List Px) : Px := (average d (ps.map (·.1)), average d (ps.map (·.2.1)), average d (ps.map (·.2.2)))

/-- Pre-decimation of rows, then of the decimated rows (R161). -/
def decimate (dh dv : Nat) (rows : List (List Px)) : List (List Px) :=
  let across := rows.map (fun r => (chunks (2 ^ dh) r.length r).map (averagePx dh))
  (chunks (2 ^ dv) across.length across).map (fun run => (List.range (run.headD []).length).map (fun x => averagePx dv (run.map (fun r => nth (0, 0, 0) r x))))

/-! ### Scaling (R162, R163) -/

/-- The four weights of a phase (R162). -/
def weights (filter : Nat) (p : Int) : Int × Int × Int × Int :=
  match filter with
  | 0 => (-p * p * p + 32 * p * p - 256 * p, 3 * p * p * p - 80 * p * p + 8192, -3 * p * p * p + 64 * p * p + 256 * p, p * p * p - 16 * p * p)
  | 1 => (0, 8192 - 512 * p, 512 * p, 0)
  | _ => (0, if p < 8 then 8192 else 0, if p < 8 then 0 else 8192, 0)

/-- The integer position and the phase of output pixel j. -/
def scalePos (init step : Int) (j : Nat) : Int × Int :=
  let pos := init + j * step
  (Int.fdiv pos 65536, Int.fdiv pos 4096 % 16)

/-- The value at a position nearest inside 0 .. n − 1. -/
def edgeAt {α : Type} (d : α) (xs : List α) (n : Int) : α := nth d xs (sat n 0 (xs.length - 1 : Nat)).toNat

/-- One scaled value (R162). -/
def scaleValue (w : Int × Int × Int × Int) (a b c d : Int) : Int := sat25 (rshift (w.1 * a + w.2.1 * b + w.2.2.1 * c + w.2.2.2 * d) 13)

/-- One scaled pixel from four. -/
def scalePx (w : Int × Int × Int × Int) (a b c d : Px) : Px :=
  (scaleValue w a.1 b.1 c.1 d.1, scaleValue w a.2.1 b.2.1 c.2.1 d.2.1, scaleValue w a.2.2 b.2.2 c.2.2 d.2.2)

/-- Scale a row to `n` pixels. -/
def scaleRow (filter n : Nat) (init step : Int) (r : List Px) : List Px :=
  (List.range n).map (fun j =>
    let (i, p) := scalePos init step j
    scalePx (weights filter p) (edgeAt (0, 0, 0) r (i - 1)) (edgeAt (0, 0, 0) r i) (edgeAt (0, 0, 0) r (i + 1)) (edgeAt (0, 0, 0) r (i + 2)))

/-- Scale rows horizontally, then vertically to `n` rows. -/
def scaleRows (filter w n : Nat) (initH stepH initV stepV : Int) (rows : List (List Px)) : List (List Px) :=
  let across := rows.map (scaleRow filter w initH stepH)
  (List.range n).map (fun j =>
    let (i, p) := scalePos initV stepV j
    let at' (k : Int) (x : Nat) : Px := nth (0, 0, 0) (edgeAt [] across k) x
    (List.range w).map (fun x => scalePx (weights filter p) (at' (i - 1) x) (at' i x) (at' (i + 1) x) (at' (i + 2) x)))

/-- STEP as it acts (R163). -/
def actStep (v : Nat) : Nat := clampTo v 0x1000 0x40000

/-! ### Colour stages (R164) -/

/-- A matrix coefficient and an offset of a view. -/
def viewCoef (cfg : RegFile) (v o i : Nat) : Int := signed (cfg.fld (Adr.VW.MAT_0_0 v + 4 * (3 * o + i)) 0 19) 19
def viewOfs (cfg : RegFile) (v o : Nat) : Int := signed (Fld.VW.OFS cfg v o) 25

/-- The colour stages of a view on one pixel (R164). -/
def State.colourPx (s : State) (cfg : RegFile) (v : Nat) (p : Px) : Px :=
  let en := Fld.VW.PIPE_CFG_ENABLES cfg v
  let neg := Fld.VW.PIPE_CFG_NEG cfg v == 1
  let copy := Fld.VW.PIPE_CFG_LUT_COPY cfg v
  let mat (o : Nat) : Int := matRow (viewCoef cfg v o 0) (viewCoef cfg v o 1) (viewCoef cfg v o 2) (viewOfs cfg v o) p
  let p : Px := if bitOf en 0 then (mat 0, mat 1, mat 2) else p
  let lutI (ch : Nat) (x : Int) : Int := if bitOf en 1 then lut1 (s.lut1Entry (8 * v + ch) copy) x neg else sat (rshift x 8) 0 65535
  let a : Px := (lutI 0 p.1, lutI 1 p.2.1, lutI 2 p.2.2)
  let n (x : Int) : Nat := x.toNat / 1024
  let f (x : Int) : Nat := x.toNat % 1024
  let node (ch x y z : Nat) : Nat := s.lut3Node (8 * v + 6) copy (n a.1 + x) (n a.2.1 + y) (n a.2.2 + z) ch
  let cube (ch : Nat) : Int := lut3 (node ch) (f a.1) (f a.2.1) (f a.2.2)
  let a : Px := if bitOf en 2 then (cube 0, cube 1, cube 2) else a
  let lutO (ch : Nat) (x : Int) : Int := if bitOf en 3 then lut1 (s.lut1Entry (8 * v + 3 + ch) copy) (x * 256) neg else x
  (lutO 0 a.1, lutO 1 a.2.1, lutO 2 a.2.2)

/-! ### Overlays (R165 to R167) -/

/-- A colour of three 10-bit components, widened. -/
def colour10 (c : Nat) : Px :=
  let w (x : Nat) : Int := (x * 64 + x / 16 : Nat)
  (w (bits c 0 10), w (bits c 10 10), w (bits c 20 10))

/-- Blend a colour over a pixel with an 8-bit alpha (R165). -/
def blend (alpha : Nat) (c b : Px) : Px :=
  let a : Int := (alpha + alpha / 128 : Nat)
  let one (x y : Int) : Int := Int.fdiv (x * (256 - a) + y * a + 128) 256
  (one b.1 c.1, one b.2.1 c.2.1, one b.2.2 c.2.2)

/-- The luma estimate of R165. -/
def lumaOf (p : Px) : Int := Int.fdiv (3483 * p.1 + 11718 * p.2.1 + 1183 * p.2.2 + 8192) 16384

/-- Rectangle k on a pixel (R167). -/
def rectPx (cfg : RegFile) (v k x y : Nat) (p : Px) : Px :=
  let x0 := Fld.VW.RECT_POS_X0 cfg v k
  let y0 := Fld.VW.RECT_POS_Y0 cfg v k
  let x1 := x0 + Fld.VW.RECT_SIZE_W cfg v k
  let y1 := y0 + Fld.VW.RECT_SIZE_H cfg v k
  let t := Fld.VW.RECT_CFG_BORDER cfg v k
  let inside := decide (x0 ≤ x) && decide (x < x1) && decide (y0 ≤ y) && decide (y < y1)
  let edge := t == 0 || decide (x < x0 + t) || decide (x1 ≤ x + t) || decide (y < y0 + t) || decide (y1 ≤ y + t)
  if bitOf (Fld.VW.OVL_CFG_RECT_EN cfg v) k && inside && edge then blend (Fld.VW.RECT_CFG_ALPHA cfg v k) (colour10 (Fld.VW.RECT_COLOUR cfg v k)) p else p

/-- The overlays of a view on one row; `f` is the output frame count (R165 to R167). -/
def State.overlayRow (s : State) (cfg : RegFile) (v f y : Nat) (row : List Px) : List Px :=
  let l := row.map lumaOf
  row.zipIdx.map (fun e =>
    let x := e.2
    let lx := nth 0 l x
    let left := nth 0 l (x - 1)
    let right := nth lx l (x + 1)
    let p := if Fld.VW.OVL_CFG_PEAK_EN cfg v = 1 ∧ (Fld.VW.PEAK_T cfg v : Int) < (2 * lx - left - right).natAbs then
      colour10 (Fld.VW.PEAK_COLOUR cfg v) else e.1
    let p := if Fld.VW.OVL_CFG_ZEBRA_EN cfg v = 1 ∧ (Fld.VW.ZEBRA_LEVEL cfg v : Int) ≤ lx ∧ (x + y + 2 * (f % 65536)) / 8 % 2 = 0 then
      colour10 (Fld.VW.ZEBRA_COLOUR cfg v) else p
    let p := (List.range 4).foldl (fun p k => rectPx cfg v k x y p) p
    if Fld.VW.OVL_CFG_BMP_EN cfg v = 1 then
      let b := leNat (s.loadBytes (Fld.VW.BMP_UNIT cfg v * 4096 + y * Fld.VW.BMP_PITCH cfg v + x / 4) 1)
      let i := bits b (2 * (x % 4)) 2
      blend (bits (cfg.fld (Adr.VW.BMP_ALPHA v) 0 32) (8 * i) 8) (colour10 (Fld.VW.BMP_PAL cfg v i)) p
    else p)

/-! ### Format conversion (R168, R169) -/

/-- The coefficients of Y, Cb and Cr (R168). -/
def lumaCoef (col : Nat) : Px × Px × Px :=
  if col = 0 then ((3483, 11718, 1183), (-1877, -6315, 8192), (8192, -7441, -751))
  else ((4304, 11108, 972), (-2288, -5904, 8192), (8192, -7533, -659))

/-- Quantise a luma or RGB sum, and a chroma sum, to n bits (R168). -/
def quantY (n : Nat) (full : Bool) (y : Int) : Int :=
  if full then Int.fdiv (y + Int.fdiv y 65536 + 2 ^ (29 - n)) (2 ^ (30 - n)) else 2 ^ (n - 4) + Int.fdiv (y * 219 + 2 ^ (37 - n)) (2 ^ (38 - n))
def quantC (n : Nat) (full : Bool) (c : Int) : Int :=
  2 ^ (n - 1) + if full then Int.fdiv (c + Int.fdiv c 65536 + 2 ^ (29 - n)) (2 ^ (30 - n)) else Int.fdiv (c * 224 + 2 ^ (37 - n)) (2 ^ (38 - n))

/-- The clamp of every code (R168). -/
def clampCode (n : Nat) (protect : Bool) (c : Int) : Nat :=
  (if protect then sat c (2 ^ (n - 8)) (2 ^ n - 2 ^ (n - 8) - 1) else sat c 0 (2 ^ n - 1)).toNat

/-- The codes of a pixel: RGB for FMT 0, else (Y, Cb, Cr) (R168). -/
def codesOf (fmt n col : Nat) (full protect : Bool) (p : Px) : Nat × Nat × Nat :=
  if fmt = 0 then
    let q (a : Int) : Nat := clampCode n protect (quantY n full (a * 16384))
    (q p.1, q p.2.1, q p.2.2)
  else
    let (ky, kb, kr) := lumaCoef col
    let dot (k : Px) : Int := k.1 * p.1 + k.2.1 * p.2.1 + k.2.2 * p.2.2
    (clampCode n protect (quantY n full (dot ky)), clampCode n protect (quantC n full (dot kb)), clampCode n protect (quantC n full (dot kr)))

/-- The 4:2:2 chroma of column 2k, from a full-resolution row (R169). -/
def chroma422 (c : List Nat) (k : Nat) : Nat :=
  let at' (i : Nat) : Nat := nth (c.getLast?.getD 0) c i
  ((if k = 0 then at' 0 else at' (2 * k - 1)) + 2 * at' (2 * k) + at' (2 * k + 1) + 2) / 4

/-- Pack samples densely, N bits each, or one word a pixel (R170). -/
def packRow (fmt n : Nat) (v : List Nat) : List Byte :=
  if fmt ≤ 1 ∧ n = 10 then (chunks 3 v.length v).flatMap (fun p => leBytes 4 (nth 0 p 0 + nth 0 p 1 * 2 ^ 10 + nth 0 p 2 * 2 ^ 20))
  else leBytes (ceilDiv (v.length * n) 8) (v.zipIdx.foldl (fun a e => a + e.1 * 2 ^ (n * e.2)) 0)

/-- The rows of bytes of a picture: the main plane, and the chroma plane of FMT 3 (R169, R170). -/
def packPicture (fmt n : Nat) (rows : List (List (Nat × Nat × Nat))) : List (List Byte) × List (List Byte) :=
  let sub (r : List (Nat × Nat × Nat)) : List (Nat × Nat) :=
    let cb := r.map (·.2.1)
    let cr := r.map (·.2.2)
    (List.range (r.length / 2)).map (fun k => (chroma422 cb k, chroma422 cr k))
  match fmt with
  | 0 => (rows.map (fun r => packRow 0 n (r.flatMap (fun p => [p.1, p.2.1, p.2.2]))), [])
  | 1 => (rows.map (fun r => packRow 1 n (r.flatMap (fun p => [p.2.1, p.1, p.2.2]))), [])
  | 2 => (rows.map (fun r => packRow 2 n (((sub r).zip (chunks 2 r.length (r.map (·.1)))).flatMap (fun e => [e.1.1, nth 0 e.2 0, e.1.2, nth 0 e.2 1]))), [])
  | _ =>
    (rows.map (fun r => packRow 3 n (r.map (·.1))),
     (chunks 2 rows.length rows).map (fun pair =>
       let a := sub (nth [] pair 0)
       let b := sub (nth (nth [] pair 0) pair 1)
       packRow 3 n ((a.zip b).flatMap (fun e => [(e.1.1 + e.2.1 + 1) / 2, (e.1.2 + e.2.2 + 1) / 2]))))

/-! ### Parterre patterns (R174) -/

/-- One step of the NOISE generator: the bit, and the next state. -/
def prbsStep (s : Nat) : Nat × Nat :=
  let b := (s / 2 ^ 30 + s / 2 ^ 27) % 2
  (b, (2 * s + b) % 2 ^ 31)

/-- `k` successive bits, the first as the most significant, and the next state. -/
def prbsBits : Nat → Nat → Nat → Nat × Nat
  | 0, acc, s => (acc, s)
  | k + 1, acc, s =>
    let (b, t) := prbsStep s
    prbsBits k (2 * acc + b) t

/-- `n` noise samples of 16 bits. -/
def noise : Nat → Nat → List Nat
  | 0, _ => []
  | n + 1, s =>
    let (v, t) := prbsBits 16 0 s
    v :: noise n t

/-- The colour registers of the Parterre. -/
def patColour (a b : Nat) : Nat × Nat × Nat := (a % 2 ^ 16, a / 2 ^ 16, b)

/-- PAT_W or PAT_H as it acts: even, 2 to 16,384. -/
def patSize (a : RegAddr) (v : Nat) : Nat := inRange a v 2 16384 / 2 * 2

/-- Pixel (x, y) of frame f, for every pattern but NOISE (R174). -/
def patPixel (cfg : RegFile) (pattern w h f x y : Nat) : Nat × Nat × Nat :=
  let c0 := patColour (Fld.PAT.COLOUR0_A cfg) (Fld.PAT.COLOUR0_B cfg)
  let c1 := patColour (Fld.PAT.COLOUR1_A cfg) (Fld.PAT.COLOUR1_B cfg)
  let xm := (x + f * Fld.PAT.DX cfg % w) % w
  match pattern with
  | 0 => c0
  | 1 =>
    let b := 8 * xm / w
    let lv := Fld.PAT.LEVEL cfg
    (if b / 2 % 2 = 0 then lv else 0, if b < 4 then lv else 0, if b % 2 = 0 then lv else 0)
  | 2 => (let v := xm * 65535 / (w - 1); (v, v, v))
  | 3 => (let v := y * 65535 / (h - 1); (v, v, v))
  | 4 => if (xm / 2 ^ Fld.PAT.CHECK_LOG2 cfg + y / 2 ^ Fld.PAT.CHECK_LOG2 cfg) % 2 = 1 then c1 else c0
  | _ =>
    let dx : Int := (x : Int) - (w / 2 : Nat)
    let dy : Int := (y : Int) - (h / 2 : Nat)
    let ph := unsigned (Fld.PAT.ZONE_K_KX cfg * dx * dx + Fld.PAT.ZONE_K_KY cfg * dy * dy + Fld.PAT.ZONE_KT cfg * f) 16
    let v := if ph < 32768 then 2 * ph else 2 * (65535 - ph)
    (v, v, v)

/-- The rows of frame f (R174). -/
def patRows (cfg : RegFile) (f : Nat) : List (List (Nat × Nat × Nat)) :=
  let w := patSize Adr.PAT.SIZE (Fld.PAT.SIZE_PAT_W cfg)
  let h := patSize Adr.PAT.SIZE (Fld.PAT.SIZE_PAT_H cfg)
  let pattern := listed Adr.PAT.PATTERN (Fld.PAT.PATTERN cfg) 7
  if pattern = 6 then
    let seed := Fld.PAT.SEED cfg
    (chunks w h ((chunks 3 (w * h) (noise (3 * w * h) (if seed = 0 then 1 else seed))).map (fun t => (nth 0 t 0, nth 0 t 1, nth 0 t 2))))
  else (List.range h).map (fun y => (List.range w).map (fun x => patPixel cfg pattern w h f x y))

end Sys2Proof.Machine
end

