-- ==== Sys2Proof/Machine/Views.lean ====
section
/-! DEFINITION. The view pipes and the Parterre: frame starts, buffers, completion and series (08_views.md, R25, R157, R158, R171 to R173), with the buffer
rotation and holds that every producer and reader of frame buffers shares (R171). -/

namespace Sys2Proof.Machine

/-! ### Frame buffers and their readers (R171) -/

/-- The newest complete buffer of a source. -/
def State.newestOf (s : State) (src : Nat) : Option BufFrame := (s.newest.find? (fun e => e.1 == src)).map (·.2)

/-- A reader holds a buffer from its frame start. -/
def State.holdBuf (s : State) (src reader index : Nat) : State :=
  { s with bufHolds := s.bufHolds ++ [{ source := src, reader := reader, index := index }] }

/-- A reader lets go of one hold on a buffer. -/
def State.letGo (s : State) (src reader index : Nat) : State :=
  { s with bufHolds := s.bufHolds.erase { source := src, reader := reader, index := index } }

/-- Whether some reader holds a buffer. -/
def State.isHeld (s : State) (src index : Nat) : Bool := s.bufHolds.any (fun h => h.source == src && h.index == index)

/-- The buffer the next frame of a source of n buffers is written to: the first after the newest complete one, in rotation, that no reader holds. A newest one that
a smaller NBUF has left out of the rotation is followed by buffer 0 (R171; DEDUCED, assumption 169). -/
def State.freeBuffer (s : State) (src n : Nat) : Option Nat :=
  match s.newestOf src with
  | some b => ((List.range n).map (fun k => ((if b.index < n then b.index + 1 else 0) + k) % n)).find? (fun i => i != b.index && !s.isHeld src i)
  | none => (List.range n).find? (fun i => !s.isHeld src i)

/-- The descriptor of a buffer (R171). -/
def BufFrame.descriptor (b : BufFrame) (writeErr : Bool) : List Byte :=
  overlays (List.replicate 64 0)
    [(0x00, 4, b.count), (0x04, 1, b.tags), (0x05, 1, b.fmt + 16 * b.depth), (0x06, 1, b.range + 2 * b.colorimetry + 4 * b.tf + if writeErr then 128 else 0),
     (0x08, 8, b.sof), (0x10, 4, b.width + b.height * 2 ^ 16), (0x14, 4, b.pitch), (0x18, 4, b.seq)]

/-- The source code of a view's own buffers, and of an SDI input's. -/
def viewSource (v : Nat) : Nat := 0x100 + v
def sdiSource (n : Nat) : Nat := 0x10 + n

/-- KIND of a Falilan channel: 0 VIEW, 1 EBR, 2 BORDER, 3 INPUT. -/
def State.chKind (s : State) (p c : Nat) : Nat := Fld.FLK.CH_CFG_KIND s.regs p c

/-- The buffer source that a VIEW or INPUT channel reads (R326). -/
def State.chSource (s : State) (p c : Nat) : Nat :=
  let src := Fld.FLK.CH_CFG_SRC s.regs p c
  if s.chKind p c = 3 then sdiSource (listed (Adr.FLK.CH_CFG p c) src 4) else viewSource (listed (Adr.FLK.CH_CFG p c) src 8)

/-- The unit of a Falilan channel, as which it reads buffers. -/
def chanUnitId (p c : Nat) : Nat := 0x503 + 0x10 * p + c

/-- Whether a channel sends the buffers of a source, its link UP and its page not under HOLD. -/
def State.sendsBuffers (s : State) (p c src : Nat) : Bool :=
  (s.flkChan p c).running && Fld.FLK.CH_CFG_DIR s.regs p c == 0 && (s.chKind p c == 0 || s.chKind p c == 3) && s.chSource p c == src && s.linkUp p &&
    !s.holding (0x50 + p)

/-- Whether a count is later than what a channel has sent last. -/
def FlkChan.unsent (k : FlkChan) (n : Nat) : Bool := match k.last with
  | none => true
  | some l => decide (serial 32 n l = .later)

/-- A source completes a buffer. Each sender channel that reads the source holds it as its reader and has it to send (R171, R326). -/
def State.complete (s : State) (src : Nat) (b : BufFrame) : State :=
  let s : State := { s with newest := SMap.put s.newest src b }
  flkChannels.foldl (fun s e =>
    let k := s.flkChan e.1 e.2
    if s.sendsBuffers e.1 e.2 src && k.unsent b.seq then (s.setFlkChan e.1 e.2 { k with due := k.due ++ [b] }).holdBuf src (chanUnitId e.1 e.2) b.index else s) s

/-! ### Frame starts (R157, R158, R171) -/

/-- NBUF as it acts. -/
def actNbuf (v : Nat) : Nat := clampTo v 2 4

/-- VIEW_PACE_SLOT: the next slot time of a paced view has come; its frame starts from the newest complete buffer of its source (R157). A source that has
completed no frame yet starts none. -/
def viewPaceSlot (v : Nat) (s : State) : State :=
  let x := s.view v
  let start := Fld.VW.PACE_START_LO s.regs v + 2 ^ 32 * Fld.VW.PACE_START_HI s.regs v
  let t := slotTime start (Fld.VW.PACE_NUM s.regs v) (Fld.VW.PACE_DEN s.regs v) x.slot
  if !x.running || !x.paced || !s.reached t then s else
  let s := s.setView v { x with slot := x.slot + 1 }
  let src := s.viewSrc v
  match s.newestOf src with
  | none => s
  | some b =>
    let st : ViewStart :=
      { serial := none, source := src, record := { frameRecReset with count := b.count, tags := b.tags, sof := b.sof }, rows := [], whole := true, buffer := some b }
    let x := s.view v
    ((s.setView v { x with starts := x.starts ++ [st] }).holdBuf src (viewUnit v) b.index).frameStart 2 v

/-- VIEW_FRAME_START: the view reads its registers and picks a buffer; with none free the frame is consumed and DROPPED counts (R158, R171). -/
def viewFrameStart (v : Nat) (s : State) : State :=
  let x := s.view v
  match x.starts with
  | [] => s
  | st :: rest =>
    if x.frame.isSome || s.holding (viewPage v) then s else
    match s.freeBuffer (viewSource v) (actNbuf (Fld.VW.NBUF s.regs v)) with
    | some b =>
      s.setView v { x with starts := rest, frame := some { start := st, cfg := s.regs.page (viewPage v), target := some b }, dropping := false }
    | none =>
      let s := (s.setView v { x with starts := rest, dropping := true }).bump (Adr.VW.DROPPED v)
      match st.buffer with
      | some b => s.letGo st.source (viewUnit v) b.index
      | none => s

/-! ### Completion (R160 to R171) -/

/-- Store rows of bytes `pitch` apart; the first error response they meet. -/
def State.storeRows (s : State) (addr pitch : Nat) : List (List Byte) → State × Option Nat
  | [] => (s, none)
  | r :: rest =>
    let e := s.spanError addr r.length
    let (t, f) := (s.store addr r).storeRows (addr + pitch) pitch rest
    (t, e.or f)

/-- The u16 picture of a frame (R160 to R167). -/
def State.viewPicture (s : State) (cfg : RegFile) (v seq : Nat) (rows : List (List Px)) : List (List Px) :=
  let w := inRange (Adr.VW.OUT_SIZE v) (Fld.VW.OUT_SIZE_W cfg v) 2 8192 / 2 * 2
  let h := inRange (Adr.VW.OUT_SIZE v) (Fld.VW.OUT_SIZE_H cfg v) 2 8192 / 2 * 2
  let c := cropRows (Fld.VW.CROP_POS_X0 cfg v) (Fld.VW.CROP_POS_Y0 cfg v) (Fld.VW.CROP_SIZE_W cfg v) (Fld.VW.CROP_SIZE_H cfg v) rows
  let d := decimate (Fld.VW.SCL_CFG_DH cfg v) (Fld.VW.SCL_CFG_DV cfg v) c
  let z := scaleRows (listed (Adr.VW.SCL_CFG v) (Fld.VW.SCL_CFG_FILTER cfg v) 3) w h (signed (Fld.VW.INIT_H cfg v) 32) (actStep (Fld.VW.STEP_H cfg v))
    (signed (Fld.VW.INIT_V cfg v) 32) (actStep (Fld.VW.STEP_V cfg v)) d
  z.zipIdx.map (fun r => s.overlayRow cfg v seq r.2 (r.1.map (s.colourPx cfg v)))

/-- VIEW_FRAME_COMPLETE: the last row is written, then the descriptor; the buffer is complete (R171). `reads` are the 32-byte beats of the source buffer whose
reads ended in an error response, with its cause (R159); `write` is the error response that a write met. -/
def viewFrameComplete (v : Nat) (reads : BadBeats) (write : BusResult) (s : State) : State :=
  let x := s.view v
  match x.frame with
  | none => s
  | some f =>
    match f.start.whole, f.target with
    | true, some b =>
      let (rows, errs) : List (List Px) × List Nat := match f.start.buffer with
        | some b => s.bufSource b reads
        | none => (f.start.rows.map (·.2), [])
      let cfg := f.cfg
      let s := errs.foldl (fun (s : State) c => s.upstream (viewUnit v) c) s
      let clips := cropClips (Fld.VW.CROP_POS_X0 cfg v) (Fld.VW.CROP_POS_Y0 cfg v) (Fld.VW.CROP_SIZE_W cfg v) (Fld.VW.CROP_SIZE_H cfg v)
        (rows.headD []).length rows.length
      let s := if clips then s.bump (Adr.VW.CROP_CLIPPED v) else s
      let fmt := Fld.VW.FMT_CFG_FMT cfg v
      let depth := listed (Adr.VW.FMT_CFG v) (Fld.VW.FMT_CFG_DEPTH cfg v) 3
      let n := depthBits depth
      let pic := (s.viewPicture cfg v x.seq rows).map (fun r =>
        r.map (codesOf fmt n (Fld.VW.FMT_CFG_COLORIMETRY cfg v) (Fld.VW.FMT_CFG_RANGE cfg v == 1) (Fld.VW.FMT_CFG_PROTECT cfg v == 1)))
      let (main, chroma) := packPicture fmt n pic
      let addr := (Fld.VW.BUF_UNIT cfg v + b * Fld.VW.BUF_STRIDE cfg v) * 4096
      let pitch := Fld.VW.PITCH cfg v / 256 * 256
      let (s, e1) := s.storeRows addr pitch main
      let (s, e2) := s.storeRows (addr + Fld.VW.CHROMA_UNITS cfg v * 4096) pitch chroma
      let err := (write.or e1).or e2
      let done : BufFrame :=
        { index := b, addr := addr, pitch := pitch, chroma := Fld.VW.CHROMA_UNITS cfg v * 4096, fmt := fmt, depth := depth,
          range := Fld.VW.FMT_CFG_RANGE cfg v, colorimetry := Fld.VW.FMT_CFG_COLORIMETRY cfg v, tf := Fld.VW.FMT_CFG_TF cfg v,
          width := (pic.headD []).length, height := pic.length, count := f.start.record.count, tags := f.start.record.tags,
          sof := f.start.record.sof, seq := x.seq }
      let at' := Fld.VW.DESC_UNIT cfg v * 4096 + 64 * b
      let failed := distinct (write.toList ++ e1.toList ++ e2.toList ++ (s.spanError at' 64).toList)
      let s := failed.foldl (fun (s : State) c => s.upstream (viewUnit v) c) (s.store at' (done.descriptor err.isSome))
      let s := (s.complete (viewSource v) done).bump (Adr.VW.FRAMES_OUT v)
      let s := match f.start.buffer with
        | some sb => s.letGo f.start.source (viewUnit v) sb.index
        | none => s
      s.setView v { s.view v with frame := none, fresh := true, seq := (x.seq + 1) % 2 ^ 32 }
    | _, _ => s

/-! ### Apply points of a view page (R72, R153, R157, R378) -/

/-- Whether a flow owned by the view's unit carries VWv and VWAGG. -/
def State.viewAdmitted (s : State) (v : Nat) : Bool :=
  s.admitted.any (fun e => e.2.owner == viewUnit v && [8 + v, 0x10].all (fun r => e.2.pairs.any (fun c => c.1 == r)))

/-- The Falilan port whose running TARGET 1 channel delivers into a receiver slot (R326). -/
def State.slotPort (s : State) (r : Nat) : Option Nat :=
  (List.range 4).find? (fun p => (List.range 8).any (fun c =>
    (s.flkChan p c).running && Fld.FLK.CH_CFG_DIR s.regs p c == 1 &&
      Fld.FLK.CH_CFG_TARGET s.regs p c == 1 && Fld.FLK.CH_CFG_IPR_SLOT s.regs p c == r && Fld.FLK.CH_CFG_KIND s.regs p c % 3 == 0))

/-- Whether a view's source is admitted (R25): a flow of the Orangery context, the Parterre, the SDI input or the port that feeds the receiver slot is ADMITTED; of a
receiver, the flow entry it names (R272); of a decode engine, that of a session that publishes to it (R180). -/
def State.sourceAdmitted (s : State) (src : Nat) : Bool :=
  if src = 1 ∨ src = 2 then s.flowFor [0x180, orgUnit (src - 1)] 7
  else if src = 3 then s.hasFlow 0x1A0
  else if 0x10 ≤ src ∧ src < 0x14 then s.hasFlow (0x380 + 0x10 * (src - 0x10))
  else if 0x20 ≤ src ∧ src < 0x30 then
    match s.slotPort (src - 0x20) with
    | some p => s.hasFlow (0x500 + 0x10 * p)
    | none => s.flowOwned (Fld.IPR.RCV_CFG_FLOW s.regs (src - 0x20)) 0x0D0
  else (List.range 32).any (fun n => Fld.GLS.SES_CFG_DIR s.regs n == 1 && Fld.GLS.SES_CFG_OUT_TO_VIEW s.regs n == 1 &&
    Fld.GLS.SES_CFG_OUT_SRC s.regs n == src - 0x30 && s.flowOwned (Fld.GLS.SES_CFG_FLOW s.regs n) 0x290)

/-- Whether a source is a buffer source. -/
def paced (src : Nat) : Bool := decide (0x10 ≤ src)

/-- A copy that comes into use while it is being loaded ends the load (R154). -/
def State.selectCopy (s : State) (v copy : Nat) : State :=
  let fresh := match s.load with
    | some l => l.id / 8 == v && decide (l.id < 0x40) && l.copy == copy && !s.copyInUse l.id copy
    | none => false
  let s := if fresh then s.abortLoad else s
  s.setView v { s.view v with copy := some copy }

/-- A view page at an apply point: without its own flow it reports CONFIG (R72), and it does not run from a source that is not admitted (R25). -/
def State.applyView (s : State) (old : RegFile) (v : Nat) : State :=
  let s := s.selectCopy v (Fld.VW.PIPE_CFG_LUT_COPY s.regs v)
  let x := s.view v
  let src := s.viewSrc v
  let wanted := s.enabled (viewPage v) && src != 0
  let s :=
    if wanted && !x.running then
      if !s.viewAdmitted v then s.fault (viewUnit v) 0x07
      else if s.sourceAdmitted src then s.setView v { x with running := true, div := 0, starts := [], paced := false, fresh := false }
      else s
    else if x.running && (!wanted || !s.sourceAdmitted src) then
      let s := x.starts.foldl (fun (s : State) a => match a.buffer with
        | some b => s.letGo a.source (viewUnit v) b.index
        | none => s) s
      s.setView v { x with running := false, starts := [], paced := false }
    else s
  let x := s.view v
  let changed := Fld.VW.PACE_NUM old v != Fld.VW.PACE_NUM s.regs v || Fld.VW.PACE_DEN old v != Fld.VW.PACE_DEN s.regs v ||
    Fld.VW.PACE_START_LO old v != Fld.VW.PACE_START_LO s.regs v || Fld.VW.PACE_START_HI old v != Fld.VW.PACE_START_HI s.regs v ||
    Fld.VW.SRC_CFG_SRC old v != Fld.VW.SRC_CFG_SRC s.regs v
  if x.running && paced src && (changed || !x.paced) && Fld.VW.PACE_NUM s.regs v != 0 then
    let (k, s) := s.firstSlot (Fld.VW.PACE_START_LO s.regs v + 2 ^ 32 * Fld.VW.PACE_START_HI s.regs v) (Fld.VW.PACE_NUM s.regs v) (Fld.VW.PACE_DEN s.regs v)
    s.setView v { s.view v with paced := true, slot := k }
  else s.setView v { x with paced := x.paced && paced src }

/-- Kiosk words of VW selector 0x10: the newest complete buffer and its SEQ. -/
def State.viewKiosk (s : State) (v sel : Nat) : Option (List Nat) :=
  if sel = 0x10 then
    match s.newestOf (viewSource v) with
    | some b => some [b.index, b.seq]
    | none => some [0, 0]
  else none

/-! ### Parterre (R173) -/

/-- PAT_START: frame n begins at slot n of the series from PAT_START; slots that have passed are skipped, as nothing states another outcome for them (R173, R378).
Without an ADMITTED flow owned by 0x1A0 it does not start. -/
def patStart (s : State) : State :=
  if !s.enabled 0x1A || !s.hasFlow 0x1A0 then s else
  let start := Fld.PAT.PAT_START_LO s.regs + 2 ^ 32 * Fld.PAT.PAT_START_HI s.regs
  let (base, s) := s.fullTime start
  let (n, s) := s.firstSlot start (Fld.PAT.RATE_NUM s.regs) (Fld.PAT.RATE_DEN s.regs)
  ({ s with parterre := { s.parterre with running := true, n := n, base := base } } : State).setReg Adr.PAT.FRAMES 0

/-- PAT_STOP: the Parterre stops after the frame in progress. -/
def patStop (s : State) : State := { s with parterre := { s.parterre with running := false } }

/-- PAT_FRAME_START: frame n begins at its slot or once the frame before has left; the whole frame goes to the views bound to it. -/
def patFrameStart (s : State) : State :=
  let p := s.parterre
  if !p.running || s.holding 0x1A || s.viewsStalled 3 || !s.slotReached p.base (Fld.PAT.RATE_NUM s.regs) (Fld.PAT.RATE_DEN s.regs) p.n then s else
  let rec_ := { frameRecReset with count := p.n % 2 ^ 32, sof := s.now }
  let rows := (patRows s.regs p.n).map (fun r => r.map (fun q => (((q.1 * 256 : Nat) : Int), ((q.2.1 * 256 : Nat) : Int), ((q.2.2 * 256 : Nat) : Int))))
  let s : State := { s with parterre := { p with n := p.n + 1, serial := p.serial + 1 } }
  let s := rows.foldl (fun (s : State) r => s.sourceRow 3 p.serial (noFlags, r)) (s.sourceStart 3 p.serial rec_)
  (s.sourceEnd 3 p.serial rec_).bump Adr.PAT.FRAMES

/-- The PAT page at an apply point (R72). -/
def State.applyPat (s : State) : State :=
  if !s.enabled 0x1A then patStop s else if s.hasFlow 0x1A0 then s else s.fault 0x1A0 0x07

end Sys2Proof.Machine
end

