-- ==== Sys2Proof/Machine/Bitstream.lean ====
section
/-! DEFINITION. What the Glasshouse spec fixes of a bitstream: profiles, parameter sets, access units as NAL units in Annex B form, tile columns, rows and their
QP, and the search window (09_glasshouse.md, R175, R176, R178, R182, R183, R189, R190). The NAL unit types and the byte-stream form are those of H.264 and H.265
(PRESUMED, assumption 139); the coded bits themselves are the standards' and are free values. -/

namespace Sys2Proof.Machine

/-! ### Free values of the coding standards -/

/-- Draw n undefined bytes. -/
def State.drawBytes (s : State) (n : Nat) : List Byte × State :=
  ((List.range n).map (fun k => BitVec.ofNat 8 (Config.freeWord (s.freeCount + k)).toNat), { s with freeCount := s.freeCount + n })

/-- Draw an undefined number below n. -/
def State.drawBelow (s : State) (n : Nat) : Nat × State := ((Config.freeWord s.freeCount).toNat % n, { s with freeCount := s.freeCount + 1 })

/-- Draw one of the numbers of a list, or a default where it is empty. -/
def State.drawFrom (s : State) (d : Int) (l : List Int) : Int × State :=
  let (k, s) := s.drawBelow l.length
  (nth d l k, s)

/-! ### Configuration of a session -/

def sesDecode (cfg : RegFile) (n : Nat) : Bool := Fld.GLS.SES_CFG_DIR cfg n == 1
def sesH264 (cfg : RegFile) (n : Nat) : Bool := Fld.GLS.SES_CFG_STD cfg n == 1
/-- The engines that ENG_MASK names: GE0 to GE3 are 0 to 3, GD0 and GD1 are 4 and 5. -/
def sesEngines (cfg : RegFile) (n : Nat) : List Nat :=
  ((List.range 4).filter (fun e => bitOf (Fld.GLS.SES_CFG_ENG_MASK cfg n) e)).map (fun e => if sesDecode cfg n then 4 + e else e)
/-- Picture width and height as they act. -/
def sesDim (cfg : RegFile) (n v : Nat) : Nat :=
  (if sesH264 cfg n then inRange (Adr.GLS.PIC_SIZE n) v 16 4096 else inRange (Adr.GLS.PIC_SIZE n) v 64 8192) / 2 * 2
def sesW (cfg : RegFile) (n : Nat) : Nat := sesDim cfg n (Fld.GLS.PIC_SIZE_W cfg n)
def sesH (cfg : RegFile) (n : Nat) : Nat := sesDim cfg n (Fld.GLS.PIC_SIZE_H cfg n)
/-- CHROMA, coding depth, MAX_REFS, SR_H and H_WIN as they act. -/
def sesChroma (cfg : RegFile) (n : Nat) : Nat := listed (Adr.GLS.SES_CFG n) (Fld.GLS.SES_CFG_CHROMA cfg n) 3
def sesDepth (cfg : RegFile) (n : Nat) : Nat := if Fld.GLS.SES_CFG_DEPTH10 cfg n = 1 then 10 else 8
def sesRefs (cfg : RegFile) (n : Nat) : Nat := inRange (Adr.GLS.GOP n) (Fld.GLS.GOP_MAX_REFS cfg n) 1 4
def sesSearch (cfg : RegFile) (n : Nat) : Nat := inRange (Adr.GLS.SEARCH n) (Fld.GLS.SEARCH_SR_H cfg n) 8 256
def sesWindow (cfg : RegFile) (n : Nat) : Nat := inRange (Adr.GLS.SEARCH n) (Fld.GLS.SEARCH_H_WIN cfg n) 64 256
/-- Bref: 3, 4 or 6 bytes per pixel (R184). -/
def bytesRef (chroma : Nat) : Nat := nth 6 [3, 4, 6] chroma
/-- The FMT of R170 for a chroma format. -/
def chromaFmt (chroma : Nat) : Nat := nth 1 [3, 2, 1] chroma
/-- The pace series of a session. -/
def sesStartTime (cfg : RegFile) (n : Nat) : Nat := Fld.GLS.PACE_START_LO cfg n + 2 ^ 32 * Fld.GLS.PACE_START_HI cfg n
/-- The ring of a session: first unit and units. -/
def sesRing (cfg : RegFile) (n : Nat) : Nat × Nat := (Fld.GLS.RING_UNIT cfg n, Fld.GLS.RING_UNITS cfg n)

/-! ### Profiles (R175) -/

/-- The profile codes. -/
def profileCodes : List Nat := [0x01, 0x02, 0x03, 0x04, 0x11, 0x12]

/-- Whether a profile carries a chroma format (0 4:2:0, 1 4:2:2, 2 4:4:4) at a bit depth: the table of R175. -/
def profileCarries (code chroma depth : Nat) : Bool :=
  match code with
  | 0x01 | 0x11 => chroma == 0 && depth == 8
  | 0x02 => chroma == 0 && (depth == 8 || depth == 10)
  | 0x03 | 0x12 => decide (chroma ≤ 1) && (depth == 8 || depth == 10)
  | 0x04 => decide (chroma ≤ 2) && (depth == 8 || depth == 10)
  | _ => false

/-- The standard of a profile code. -/
def profileH264 (code : Nat) : Bool := code / 16 == 1

/-- The highest level_idc: 6.2 of H.265 and 5.2 of H.264. -/
def levelMax (h264 : Bool) : Nat := if h264 then 52 else 186

/-- Whether an encode session's PROFILE and LEVEL are of R175's table and carry its standard, chroma format and bit depth. -/
def profileFits (cfg : RegFile) (n : Nat) : Bool :=
  let v := Fld.GLS.PROFILE_LEVEL_PROFILE cfg n
  let code := if profileCodes.contains v then v else nth 1 profileCodes (Config.unlisted (Adr.GLS.PROFILE_LEVEL n) v % 6)
  profileH264 code == sesH264 cfg n && profileCarries code (sesChroma cfg n) (sesDepth cfg n) &&
    decide (Fld.GLS.PROFILE_LEVEL_LEVEL cfg n ≤ levelMax (sesH264 cfg n))

/-- Whether the decoder supports a stream within a session's size limits: profile, level, chroma format, no field coding (R175, R192). -/
def StreamInfo.supported (i : StreamInfo) (cfg : RegFile) (n : Nat) : Bool :=
  profileCodes.contains i.profile && profileH264 i.profile == sesH264 cfg n && profileCarries i.profile i.chroma i.depth &&
    decide (i.level ≤ levelMax (sesH264 cfg n)) && !i.field && decide (i.width ≤ sesW cfg n) && decide (i.height ≤ sesH cfg n) && decide (0 < i.width) &&
    decide (0 < i.height)

/-- What the standards read in an access unit: a number below n, by what was decoded before it and its bytes. -/
def unitReads (before : Nat) (bytes : List Byte) (question n : Nat) : Nat := Config.bitstreamReads before bytes question % n
def unitSays (before : Nat) (bytes : List Byte) (question : Nat) : Bool := Config.bitstreamReads before bytes question % 2 == 1

/-- The parameter sets of an access unit: what they say is a function of the bitstream. A chroma_format_idc of 0 reads as an unlisted format. -/
def streamSets (before : Nat) (bytes : List Byte) : StreamInfo :=
  let r := unitReads before bytes
  let dpb := 1 + r 10 16
  { profile := r 0 256, level := r 1 256, chroma := r 2 4, depth := 8 + r 3 7, width := r 4 8193 / 2 * 2, height := r 5 8193 / 2 * 2,
    field := unitSays before bytes 6, range := r 7 2, colorimetry := r 8 2, tf := r 9 4, refs := r 11 (dpb + 1), reorder := r 12 dpb, dpb := dpb }

/-! ### Parameter sets and access units (R176, R178, R190) -/

/-- The colour description of a source descriptor (R176); transfer_characteristics of SDR with BT.2020 at a depth other than 10 and 12 bits is free. -/
def State.vuiOf (s : State) (b : BufFrame) : Vui × State :=
  let colour := if b.colorimetry = 0 then 1 else 9
  let (free, s) := s.drawBelow 256
  let transfer := match b.tf with
    | 0 => if b.colorimetry = 0 then 1 else if b.depth = 0 then 14 else if b.depth = 1 then 15 else free
    | 1 => 18
    | 2 => 16
    | _ => 8
  ({ fullRange := b.range, primaries := colour, transfer := transfer, matrix := colour }, s)

/-- Tile column i of E with uniform spacing in CTBs of 64: its first luma column and its end (R178). -/
def tileColumn (w e i : Nat) : Nat × Nat :=
  let ctbs := ceilDiv w 64
  (i * ctbs / e * 64, min w ((i + 1) * ctbs / e * 64))

/-- Whether every tile column is at least 256 luma samples wide (R178). -/
def tilesWide (w e : Nat) : Bool := (List.range e).all (fun i => let t := tileColumn w e i; decide (256 ≤ t.2 - t.1))

/-- The tile columns of a picture, one to each engine of ENG_MASK in ascending order. -/
def sesTiles (cfg : RegFile) (n : Nat) : List Tile :=
  let es := sesEngines cfg n
  es.zipIdx.map (fun e => let t := tileColumn (sesW cfg n) es.length e.2; { engine := e.1, x0 := t.1, width := t.2 - t.1 })

/-- The SEI messages of an access unit: buffering period with an IDR (R176). -/
def sesSei (cfg : RegFile) (n : Nat) (mode : Nat) (idr : Bool) : List Sei :=
  let hrd := if mode = 0 then [] else (if idr then [.bufferingPeriod] else []) ++ [.pictureTiming]
  if sesH264 cfg n then hrd else [.activeParameterSets] ++ hrd ++ [.timeCode, .pictureHash]

/-- The tools in use of the encoder (R176). -/
def toolsUsed (h264 : Bool) : List Tool :=
  if h264 then [.cabac, .transform8x8, .deblocking, .mbQpDelta] else [.cabac, .deblocking, .sao, .tmvp, .mergeAndSkip, .cuQpDelta]

/-- What the encoder never writes (R176). -/
def neverWritten (h264 : Bool) : List Tool :=
  if h264 then [.fieldCoding, .mbaff, .weightedPrediction, .cavlc, .scalingLists, .bSlices]
  else [.amp, .interNxN, .pcm, .transformSkip, .transquantBypass, .scalingLists, .weightedPrediction, .wavefront, .crossComponentPrediction, .implicitRdpcm,
    .extendedPrecision, .fieldCoding, .bSlices, .reordering]

/-- The coded size: the next multiple of 8 or 16 (R176). -/
def codedSize (h264 : Bool) (v : Nat) : Nat := if h264 then ceilDiv v 16 * 16 else ceilDiv v 8 * 8

/-- The parameter sets of a session's picture with a colour description (R175, R176, R178). -/
def sesSets (cfg : RegFile) (n : Nat) (vui : Vui) : ParamSets :=
  let h264 := sesH264 cfg n
  let columns := (sesTiles cfg n).length
  { profile := Fld.GLS.PROFILE_LEVEL_PROFILE cfg n, level := Fld.GLS.PROFILE_LEVEL_LEVEL cfg n, tier := Fld.GLS.PROFILE_LEVEL_TIER cfg n, width := sesW cfg n,
    height := sesH cfg n, codedWidth := codedSize h264 (sesW cfg n), codedHeight := codedSize h264 (sesH cfg n), chroma := sesChroma cfg n,
    depth := sesDepth cfg n, refs := sesRefs cfg n, tools := toolsUsed h264, vui := vui, tileColumns := columns, tileRows := 1,
    uniformSpacing := decide (1 < columns), loopFilterAcrossTiles := decide (1 < columns) }

/-- The numbers that parameter sets hold. -/
def ParamSets.numbers (p : ParamSets) : List Nat :=
  [p.profile, p.level, p.tier, p.width, p.height, p.codedWidth, p.codedHeight, p.chroma, p.depth, p.refs, p.vui.fullRange, p.vui.primaries, p.vui.transfer,
   p.vui.matrix, p.tileColumns, p.tileRows, b2n p.uniformSpacing, b2n p.loopFilterAcrossTiles] ++
  [Tool.cabac, .deblocking, .sao, .tmvp, .mergeAndSkip, .cuQpDelta, .mbQpDelta, .transform8x8].map (fun t => b2n (p.tools.contains t))

/-- One bit into the CRC of a picture, whose polynomial is 0x1021 (PRESUMED, assumption 139). -/
def hashBit (crc : Nat) (bit : Bool) : Nat := (crc * 2 + b2n bit) % 2 ^ 16 ^^^ (if 2 ^ 15 ≤ crc then 0x1021 else 0)
def hashByte (crc b : Nat) : Nat := [7, 6, 5, 4, 3, 2, 1, 0].foldl (fun c k => hashBit c (bitOf b k)) crc

/-- The CRC of a component's samples at a bit depth: one byte to a sample of 8 bits, else two, the low one first (PRESUMED, assumption 139). -/
def hashOf (depth : Nat) (samples : List Nat) : Nat :=
  hashByte (hashByte (samples.foldl (fun c v => if depth = 8 then hashByte c v else hashByte (hashByte c (v % 256)) (v / 256)) 0xFFFF) 0) 0

/-- Every sample of a list whose place is `k` modulo `m`. -/
def everyNth (m k : Nat) (l : List Nat) : List Nat := (l.zipIdx.filter (fun e => e.2 % m == k)).map (·.1)

/-- The CRC of each component of a reconstruction, from the u16 rows of its planes (R176, R184): Cb, Y, Cr to a pixel of 4:4:4; Cb, Y, Cr, Y to a pair of 4:2:2;
Cb, Cr to a pair of the chroma plane of 4:2:0. -/
def pictureHash (chroma depth : Nat) (rows crows : List (List Nat)) : List Nat :=
  let plane (r : List (List Nat)) (pick : List Nat → List Nat) : Nat := hashOf depth (r.flatMap (fun l => (pick l).map (fun v => v / 2 ^ (16 - depth))))
  match chroma with
  | 0 => [plane rows id, plane crows (everyNth 2 0), plane crows (everyNth 2 1)]
  | 1 => [plane rows (everyNth 2 1), plane rows (everyNth 4 0), plane rows (everyNth 4 2)]
  | _ => [plane rows (everyNth 3 1), plane rows (everyNth 3 0), plane rows (everyNth 3 2)]

/-- The payload of the decoded picture hash SEI message: type 132, its size, the CRC method, and each component's CRC, high byte first (PRESUMED, assumption
139). -/
def hashPayload (hash : List Nat) : List Byte :=
  [132, BitVec.ofNat 8 (1 + 2 * hash.length), 1] ++ hash.flatMap (fun h => [BitVec.ofNat 8 (h / 256), BitVec.ofNat 8 h])

/-- The bytes of a NAL unit's payload: an emulation prevention byte before a byte of at most 3 that follows two zero bytes. `zeros` counts the zero bytes before. -/
def escapeNal : Nat → List Byte → List Byte
  | _, [] => []
  | zeros, b :: r =>
    let next := if b = 0 then zeros + 1 else 0
    if 2 ≤ zeros ∧ b.toNat ≤ 3 then 3 :: b :: escapeNal (if b = 0 then 1 else 0) r else b :: escapeNal next r

/-- A NAL unit with its start code of three bytes: `free` payload bytes, then the trailing bit. -/
def nalUnit (header free : List Byte) : List Byte := [0, 0, 1] ++ header ++ escapeNal 0 (free ++ [0x80])

/-- The header of a NAL unit type. -/
def nalHeader (h264 : Bool) (type ref : Nat) : List Byte := if h264 then [BitVec.ofNat 8 (32 * ref + type)] else [BitVec.ofNat 8 (2 * type), 1]

/-- The filler-data NAL unit of `n` bytes in all (R189). -/
def fillerNal (h264 : Bool) (n : Nat) : List Byte :=
  let head := [0, 0, 1] ++ nalHeader h264 (if h264 then 12 else 38) 0
  head ++ List.replicate (n - head.length - 1) 0xFF ++ [0x80]

/-- NAL units of one type with free payloads of the given lengths. -/
def State.drawNals (s : State) (h264 : Bool) (type ref : Nat) : List Nat → List Byte × State
  | [] => ([], s)
  | k :: r =>
    let (b, s) := s.drawBytes k
    let (rest, s) := s.drawNals h264 type ref r
    (nalUnit (nalHeader h264 type ref) b ++ rest, s)

/-- Free payload lengths of `k` NAL units below 256 bytes. -/
def State.drawLengths (s : State) : Nat → List Nat × State
  | 0 => ([], s)
  | k + 1 =>
    let (n, s) := s.drawBelow 256
    let (r, s) := s.drawLengths k
    (n :: r, s)

/-- The parameter sets of an access unit in Annex B form: a zero byte stands before the start code of each (R190; PRESUMED, assumption 139). -/
def AccessUnit.setBytes (u : AccessUnit) : List Byte :=
  match u.sets with
  | none => []
  | some p => (if u.h264 then [7, 8] else [32, 33, 34]).flatMap (fun t => 0 :: nalUnit (nalHeader u.h264 t 3) (Config.parameterSet t p.numbers))

/-- The bytes of an access unit without its filler (R176, R190): parameter sets with an IDR picture, SEI messages, one slice to a tile, and the picture hash after
them. A zero byte stands before the start code of its first NAL unit. `slices` are the coded bytes of each slice. -/
def State.unitBytes (s : State) (u : AccessUnit) (slices : List Nat) : List Byte × State :=
  let before := (u.sei.filter (fun m => decide (m ≠ .pictureHash))).length
  let (ls, s) := s.drawLengths before
  let (prefix_, s) := s.drawNals u.h264 (if u.h264 then 6 else 39) 0 ls
  let (body, s) := s.drawNals u.h264 (if u.h264 then (if u.idr then 5 else 1) else (if u.idr then 19 else 1)) 3 slices
  let suffix := if u.sei.contains .pictureHash then nalUnit (nalHeader u.h264 40 0) (hashPayload u.hash) else []
  let first : List Byte := if u.sets.isSome then u.setBytes else [0]
  (first ++ prefix_ ++ body ++ suffix, s)

/-! ### Rows and their QP (R189) -/

/-- The height of a row: a CTU, or a macroblock (R189). -/
def rowHeight (h264 : Bool) : Nat := if h264 then 16 else 64

/-- MODE of RC_CFG as it acts: 0 CQP, 1 CBR, 2 VBR. -/
def rcMode (cfg : RegFile) (n : Nat) : Nat := listed (Adr.GLS.RC_CFG n) (Fld.GLS.RC_CFG_MODE cfg n) 3

/-- The bits of a picture (R189). -/
def rcBudget (cfg : RegFile) (n : Nat) : Int :=
  Int.tdiv ((Fld.GLS.BITRATE cfg n : Int) * 1000 * Fld.GLS.PACE_DEN cfg n) (Fld.GLS.PACE_NUM cfg n)

/-- row_qp of row k of `rows` of a tile column whose share is `share`, after `used` bits of it (R189); with share / 8 = 0 the quotient is a free value. -/
def State.rowQp (s : State) (cfg : RegFile) (n : Nat) (qp : Nat) (share used : Int) (k rows : Nat) : Nat × State :=
  if rcMode cfg n = 0 then (qp, s) else
  let (extra, s) : Int × State :=
    if Int.tdiv share 8 = 0 then
      let (d, s) := s.drawBelow 7
      ((d : Int), s)
    else (sat (Int.tdiv (used - Int.tdiv (share * k) rows) (Int.tdiv share 8)) 0 6, s)
  ((sat (qp + extra) (Fld.GLS.RC_CFG_QP_MIN cfg n) (Fld.GLS.RC_CFG_QP_MAX cfg n)).toNat, s)

/-- The rows of a tile column from row k on: the QP of each, and the bits it takes, which are a free value. -/
def State.codeRows (s : State) (cfg : RegFile) (n qp : Nat) (share : Int) (rows : Nat) : Nat → Int → List (Nat × Nat) × State
  | 0, _ => ([], s)
  | left + 1, used =>
    let (q, s) := s.rowQp cfg n qp share used (rows - (left + 1)) rows
    let (w, s) := s.drawWord
    let (rest, s) := s.codeRows cfg n qp share rows left (used + w.toNat)
    ((q, w.toNat) :: rest, s)

/-- Every tile column of a picture: its rows as (QP, bits). -/
def State.codeTiles (s : State) (cfg : RegFile) (n qp : Nat) : List Tile → List (List (Nat × Nat)) × State
  | [] => ([], s)
  | t :: r =>
    let rows := ceilDiv (sesH cfg n) (rowHeight (sesH264 cfg n))
    let share := Int.tdiv (rcBudget cfg n * t.width) (sesW cfg n)
    let (c, s) := s.codeRows cfg n qp share rows rows 0
    let (cs, s) := s.codeTiles cfg n qp r
    (c :: cs, s)

/-! ### The search window (R182, R183) -/

/-- The columns of the window of the CTU at x0, first and last (R182). -/
def windowCols (srH x0 : Nat) : Int × Int := ((x0 : Int) - srH - 4, (x0 : Int) + 63 + srH + 3)

/-- The rows of the window of CTU row y, first and last (R182). -/
def windowRows (hWin y : Nat) : Int × Int :=
  let m : Int := ((hWin - 64) / 2 : Nat)
  (64 * (y : Int) - m - 4, 64 * (y : Int) + 63 + m + 4)

/-- The rows of a picture of height h that the band of CTU row y reads: first and end (R182, R183). -/
def bandRows (hWin h y : Nat) : Nat × Nat :=
  let (a, b) := windowRows hWin y
  (a.toNat, min h (b + 1).toNat)

/-- Whether the prediction of 16 samples from `at'` with a vector component of quarter samples needs only samples in [lo, hi]: a fractional one needs 3 samples
before and 4 after (R182). -/
def vectorFits (lo hi : Int) (at' : Nat) (v : Int) : Bool :=
  let i := (at' : Int) + Int.fdiv v 4
  if v % 4 = 0 then decide (lo ≤ i) && decide (i + 15 ≤ hi) else decide (lo ≤ i - 3) && decide (i + 15 + 4 ≤ hi)

/-- The vector components that a block may take in a window, in quarter samples. -/
def vectorsIn (lo hi : Int) (at' : Nat) : List Int :=
  let first := 4 * (lo - at')
  let count := (4 * (hi - lo + 1)).toNat
  ((List.range count).map (fun (k : Nat) => first + (k : Int))).filter (vectorFits lo hi at')

/-- The vertical components that a block at row `at'` of CTU row y may take: within the window, and within the reach of ±(H_WIN − 64)/2 samples (R182). -/
def vectorsDown (hWin y at' : Nat) : List Int :=
  let m : Int := 4 * ((hWin - 64) / 2 : Nat)
  (vectorsIn (windowRows hWin y).1 (windowRows hWin y).2 at').filter (fun v => decide (-m ≤ v) && decide (v ≤ m))

end Sys2Proof.Machine
end

