-- ==== Sys2Proof/Machine/Glasshouse.lean ====
section
/-! DEFINITION. The Glasshouse: sessions, engines, the reference pool, rate control, bitstream rings, decode and statistics (09_glasshouse.md, R175 to
R196). What a bitstream holds is the coding standard's and not this spec's: access-unit bytes, coded samples and what a decoder finds are free values. -/

namespace Sys2Proof.Machine

/-! ### Sessions and the pool -/

/-- The page of the sessions, its unit, and FAULT_SES (GLS). -/
def glsPage : Nat := 0x29
def State.sesFault (s : State) (n code : Nat) : State := (s.setReg Adr.GLS.FAULT_SES n).fault 0x290 code
def State.sesUpstream (s : State) (n cause : Nat) : State := (s.setReg Adr.GLS.FAULT_SES n).upstream 0x290 cause

/-- A session, and storing it. -/
def State.ses (s : State) (n : Nat) : Session := SMap.get (fun _ => sessionReset) s.glass.sessions n
def State.setSes (s : State) (n : Nat) (x : Session) : State :=
  { s with glass := { s.glass with sessions := SMap.set (fun _ => sessionReset) s.glass.sessions n x } }

/-- A pool buffer, and storing it. -/
def State.pool (s : State) (b : Nat) : PoolBuf := SMap.get (fun _ => poolReset) s.glass.pool b
def State.setPool (s : State) (b : Nat) (x : PoolBuf) : State :=
  { s with glass := { s.glass with pool := SMap.set (fun _ => poolReset) s.glass.pool b x } }

/-- SES_STAT.STATE: 0 IDLE, 1 RUNNING, 2 STOPPING, 3 ERROR. -/
def State.sesState (s : State) (n : Nat) : Nat := s.rd (Adr.GLS.SES_STAT n)
def State.setSesState (s : State) (n st : Nat) : State := s.setReg (Adr.GLS.SES_STAT n) st

/-- A session's handle in the pool's and the views' books. -/
def sesReader (n : Nat) : Nat := 0x2900 + n

/-- The buffers assigned to a session, in ascending order. -/
def State.sesBufs (s : State) (n : Nat) : List Nat := (List.range 64).filter (fun b => (s.pool b).assigned && (s.pool b).session == n)

/-- A buffer is free when its mark is UNUSED and OUTPUT_PENDING is clear (R185). -/
def PoolBuf.isFree (b : PoolBuf) : Bool := b.mark == 0 && !b.outputPending

/-- Set the reference mark of a buffer. -/
def State.markBuf (s : State) (b m : Nat) : State := s.setPool b { s.pool b with mark := m }

/-- The view source that a decode session publishes to. -/
def gdSource (out : Nat) : Nat := 0x30 + out

/-- OUTPUT_PENDING of a published buffer clears once a newer picture is published, or its session has stopped, and no view holds it (R185, R193). -/
def State.poolSweep (s : State) : State :=
  (List.range 64).foldl (fun s b =>
    let x := s.pool b
    let src := gdSource x.outSrc
    let newest := match s.newestOf src with
      | some f => f.index == b && decide (s.sesState x.session = 1 ∨ s.sesState x.session = 2)
      | none => false
    if x.outputPending && x.published && !newest && !s.isHeld (gdSource 0) b && !s.isHeld (gdSource 1) b
    then s.setPool b { x with outputPending := false, published := false } else s) s

/-! ### Conditions of a start -/

/-- The resource of an engine (R65). -/
def engineRes (e : Nat) : Nat := 0x11 + e

/-- The flow check of R180: the entry named is ADMITTED, owned by 0x290, and carries a pair for every engine. -/
def State.sesAdmitted (s : State) (n : Nat) : Bool :=
  let f := s.flow (Fld.GLS.SES_CFG_FLOW s.regs n)
  decide (f.st = .admitted) && f.owner == 0x290 && (sesEngines s.regs n).all (fun e => f.pairs.any (fun c => c.1 == engineRes e))

/-- Whether a running session publishes its decoded pictures to a view source (R193). -/
def State.publishes (s : State) (m src : Nat) : Bool :=
  (s.sesState m == 1 || s.sesState m == 2) && sesDecode s.regs m && Fld.GLS.SES_CFG_OUT_TO_VIEW s.regs m == 1 && Fld.GLS.SES_CFG_OUT_SRC s.regs m == src

/-- The conditions under which a session starts (R175, R177, R178, R180, R183, R193); the DPB size of a stream is a free value. -/
def State.sesGood (s : State) (n : Nat) : Bool × State :=
  let cfg := s.regs
  let es := sesEngines cfg n
  let bufs := (s.sesBufs n).length
  if sesDecode cfg n then
    let (dpb, s) := s.drawBelow 17
    (s.sesAdmitted n && es.length == 1 && es.all (fun e => decide (e < 6)) && decide (dpb + 1 ≤ bufs), s)
  else
    let engines := if sesH264 cfg n then es.length == 1 else decide (1 ≤ es.length)
    let tiles := es.length ≤ 1 || tilesWide (sesW cfg n) es.length
    let window := decide (sesRefs cfg n * (2 * sesSearch cfg n + 72) * (sesWindow cfg n + 8) * bytesRef (sesChroma cfg n) ≤ 1048576)
    (s.sesAdmitted n && profileFits cfg n && engines && tiles && window && decide (sesRefs cfg n + 1 ≤ bufs), s)

/-- Whether the view source of a session that publishes is one that another running session publishes to (R193). -/
def State.sourceTaken (s : State) (n : Nat) : Bool :=
  sesDecode s.regs n && Fld.GLS.SES_CFG_OUT_TO_VIEW s.regs n == 1 &&
    (List.range 32).any (fun m => m != n && s.publishes m (Fld.GLS.SES_CFG_OUT_SRC s.regs n))

/-! ### Bitstream rings (R190, R191, R192) -/

/-- The size of a session's ring, as the session read it last (R46). -/
def State.ringBytes (s : State) (n : Nat) : Nat := (s.ses n).ring.2 * 4096

/-- The session reads its ring's place from a page (R46). -/
def State.readRing (s : State) (n : Nat) (cfg : RegFile) : State := s.setSes n { s.ses n with ring := sesRing cfg n }

/-- Free space of a ring (R191), which may be negative. -/
def State.ringFree (s : State) (n : Nat) : Int :=
  let r : Int := s.ringBytes n
  r - Int.fmod ((s.rd (Adr.GLS.WR_PTR n) : Int) - (s.rd (Adr.GLS.RD_PTR n) : Int)) (if r = 0 then 1 else r) - 32

/-- The parts of `len` bytes of a ring from an offset: address and length of the one before the ring's end and of the one after it. -/
def State.ringParts (s : State) (n o len : Nat) : (Nat × Nat) × (Nat × Nat) :=
  let base := (s.ses n).ring.1 * 4096
  let size := s.ringBytes n
  let o := if size = 0 then 0 else o % size
  let first := min len (size - o)
  ((base + o, first), (base, len - first))

/-- The error responses that an access to bytes of a ring meets. -/
def State.ringFaults (s : State) (n o len : Nat) (bad : BadBeats) : List Nat :=
  let (a, b) := s.ringParts n o len
  let one (p : Nat × Nat) : List Nat := if p.2 = 0 then [] else (s.spanError p.1 p.2).toList ++ badsIn bad p.1 p.2
  distinct (one a ++ one b)

/-- Bytes of a ring from an offset, and the error response their read meets. -/
def State.ringLoad (s : State) (n o len : Nat) : List Byte × Option Nat :=
  if s.ringBytes n = 0 then ([], none) else
  let (a, b) := s.ringParts n o len
  (s.loadBytes a.1 a.2 ++ (if b.2 = 0 then [] else s.loadBytes b.1 b.2), (s.ringFaults n o len []).head?)

/-- Store bytes in a ring from an offset, wrapping (R190). -/
def State.ringStore (s : State) (n o : Nat) (bs : List Byte) : State :=
  if s.ringBytes n = 0 then s else
  let (a, b) := s.ringParts n o bs.length
  let s := s.store a.1 (bs.take a.2)
  if b.2 = 0 then s else s.store b.1 (bs.drop a.2)

/-- A complete record enters the ring, and WR_PTR advances past it (R191); the Boathouse sees it. -/
def State.putRecord (s : State) (n : Nat) (r : List Byte) : State :=
  let wr := s.rd (Adr.GLS.WR_PTR n)
  let s := (s.ringFaults n wr r.length []).foldl (fun (s : State) c => s.sesUpstream n c) s
  ((s.ringStore n wr r).setReg (Adr.GLS.WR_PTR n) ((wr + r.length) % s.ringBytes n)).codecAppear n

/-- The next access unit of a decode session becomes a ready work item; headers with a wrong MAGIC are passed 32 bytes at a time (R192). With no access unit in
hand the session reads its ring's place anew (R46, R196). -/
def State.decodePump (s : State) (n : Nat) : Nat → State
  | 0 => s
  | fuel + 1 =>
    let s := if s.sesState n = 1 ∧ (s.ses n).pics.isEmpty = true then s.readRing n s.regs else s
    let x := s.ses n
    let size := s.ringBytes n
    let rd := s.rd (Adr.GLS.RD_PTR n)
    let have_ := if size = 0 then 0 else (s.rd (Adr.GLS.WR_PTR n) + size - rd % size) % size
    if s.sesState n ≠ 1 ∨ x.pics.isEmpty = false ∨ have_ < 32 then s else
    let (h, e) := s.ringLoad n rd 32
    if fieldOf h 0 4 ≠ 0x55414C47 ∧ e.isNone then
      let s := s.setSes n { x with mismatch := satInc 16 x.mismatch }
      (s.setReg (Adr.GLS.RD_PTR n) ((rd + 32) % size)).decodePump n fuel
    else
      let len := fieldOf h 4 4
      if have_ < 32 + ceilDiv len 32 * 32 then s else
      let t := if Fld.GLS.PACE_NUM s.regs n = 0 then s.now
        else slotTime (sesStartTime s.regs n) (Fld.GLS.PACE_NUM s.regs n) (Fld.GLS.PACE_DEN s.regs n) x.decSlot
      let p : Picture :=
        { slot := t, deadline := (t + periodNs (Fld.GLS.PACE_NUM s.regs n) (Fld.GLS.PACE_DEN s.regs n)) % 2 ^ 40, source := none, ringAt := rd, length := len,
          cfg := s.regs.page glsPage, waiting := sesEngines s.regs n, running := [], target := none, kind := 0, newParams := false, qp := 0,
          refs := [], bad := [] }
      s.setSes n { x with pics := [p], decSlot := x.decSlot + 1 }

/-- How often a pump can pass a bad header. -/
def State.pumpFuel (s : State) (n : Nat) : Nat := s.ringBytes n / 32 + 1

/-! ### Starting and stopping (R180, R185, R189) -/

/-- The source buffers of pictures are let go. -/
def State.dropPics (s : State) (n : Nat) (ps : List Picture) : State :=
  ps.foldl (fun s p => match p.source with
    | some (v, b) => s.letGo (viewSource v) (sesReader n) b.index
    | none => s) s

/-- The session ends in a state: every reference mark becomes UNUSED; OUTPUT_PENDING stays on what a view holds (R185). -/
def State.finishStop (s : State) (n st : Nat) : State :=
  let s := s.dropPics n (s.ses n).pics
  let s := (s.sesBufs n).foldl (fun s b =>
    let x := s.pool b
    let held := s.isHeld (gdSource 0) b || s.isHeld (gdSource 1) b
    s.setPool b { x with mark := 0, outputPending := x.outputPending && held, published := x.published && held }) s
  (s.setSes n { s.ses n with pics := [], shorts := [], poolWaiting := false, cmds := [], outQueue := [], stalled := [] }).setSesState n st

/-- SES_START: the session starts, or GLS reports CONFIG (R180). -/
def sesStart (n : Nat) (s : State) : State :=
  if s.sesState n = 1 ∨ s.sesState n = 2 ∨ s.enabled glsPage = false ∨ Fld.GLS.SES_CFG_EN s.regs n = 0 then s else
  let (ok, s) := s.sesGood n
  if !ok || s.sourceTaken n then (s.setSesState n 0).sesFault n 0x07 else
  let (k, s) := if Fld.GLS.PACE_NUM s.regs n = 0 then (0, s)
    else s.firstSlot (sesStartTime s.regs n) (Fld.GLS.PACE_NUM s.regs n) (Fld.GLS.PACE_DEN s.regs n)
  let x := s.ses n
  let s := s.setSes n { x with slot := k, decSlot := k, seq := 0, prevSeq := none, prevCfg := none, sinceIdr := none, forceIdr := false,
                               mismatchRun := false, qpP := Fld.GLS.RC_CFG_QP_INIT s.regs n, full := 0, peak := 0, pics := [], outCount := 0,
                               ring := sesRing s.regs n, unit := none, stream := none, cvs := 0, prevBuf := none,
                               decoded := 0, stalled := [] }
  let s := s.setSesState n 1
  if sesDecode s.regs n then s.decodePump n (s.pumpFuel n) else s

/-- The pictures that have started. -/
def Session.begun (x : Session) : List Picture := x.pics.filter (fun p => p.target.isSome)

/-- Whether a picture has started and its record is not yet in the ring. -/
def Session.started (x : Session) : Bool := !x.stalled.isEmpty || !x.begun.isEmpty

/-- SES_STOP: the session stops after the picture in progress (R185). -/
def sesStop (n : Nat) (s : State) : State :=
  if s.sesState n ≠ 1 then s else
  let x := s.ses n
  if x.started then
    ((s.dropPics n (x.pics.filter (fun p => p.target.isNone))).setSes n { x with pics := x.begun }).setSesState n 2
  else s.finishStop n 0

/-- FORCE_IDR: the next picture is an IDR (R196). -/
def forceIdr (n : Nat) (s : State) : State := s.setSes n { s.ses n with forceIdr := true }

/-! ### Slots (R181) -/

/-- Whether a view buffer matches the session's format (R181). -/
def sesMatches (cfg : RegFile) (n : Nat) (b : BufFrame) : Bool :=
  b.fmt == chromaFmt (sesChroma cfg n) && b.width == sesW cfg n && b.height == sesH cfg n

/-- ENCODE_SLOT: at its slot the session takes the view's newest complete buffer and holds it; a buffer of another format is counted and not coded (R181). -/
def encodeSlot (n : Nat) (s : State) : State :=
  let x := s.ses n
  let num := Fld.GLS.PACE_NUM s.regs n
  let t := slotTime (sesStartTime s.regs n) num (Fld.GLS.PACE_DEN s.regs n) x.slot
  if s.sesState n ≠ 1 ∨ sesDecode s.regs n = true ∨ num = 0 ∨ s.reached t = false then s else
  let s := s.setSes n { x with slot := x.slot + 1 }
  let v := Fld.GLS.SRC_VIEW s.regs n
  match s.newestOf (viewSource v) with
  | none => s
  | some b =>
    let x := s.ses n
    if sesMatches s.regs n b then
      let p : Picture :=
        { slot := t, deadline := (t + periodNs num (Fld.GLS.PACE_DEN s.regs n)) % 2 ^ 40, source := some (v, b), ringAt := 0, length := 0,
          cfg := s.regs.page glsPage, waiting := sesEngines s.regs n, running := [], target := none, kind := 0, newParams := false, qp := 0,
          refs := [], bad := [] }
      (s.setSes n { x with pics := x.pics ++ [p], mismatchRun := false }).holdBuf (viewSource v) (sesReader n) b.index
    else
      let s := s.setSes n { x with mismatch := satInc 16 x.mismatch, mismatchRun := true }
      if x.mismatchRun then s else s.sesFault n 0x07

/-! ### Picture start (R177, R185, R187, R189, R196) -/

/-- The rate-control deviation of R189: truncating division; with cpb/16 = 0 the quotient is a free value. -/
def State.rcDev (s : State) (full cpb : Int) : Int × State :=
  let q := Int.tdiv cpb 16
  if q = 0 then
    let (k, s) := s.drawBelow 7
    ((k : Int) - 3, s)
  else (sat (Int.tdiv (full - Int.tdiv cpb 2) q) (-3) 3, s)

/-- The picture QP (R189). -/
def State.pictureQp (s : State) (n : Nat) (cfg : RegFile) (idr : Bool) : Nat × State :=
  let x := s.ses n
  let cpb : Int := (Fld.GLS.CPB_SIZE cfg n : Int) * 1000
  let lo : Int := Fld.GLS.RC_CFG_QP_MIN cfg n
  let hi : Int := Fld.GLS.RC_CFG_QP_MAX cfg n
  let (qp, s) : Int × State :=
    if rcMode cfg n = 0 then ((Fld.GLS.RC_CFG_QP_INIT cfg n : Int), s) else
    let (d1, s) := s.rcDev x.full cpb
    let (d, s) := if rcMode cfg n = 1 then (d1, s) else
      let (d2, s) := s.rcDev x.peak cpb
      (max d1 d2, s)
    let q := sat (x.qpP + d) lo hi
    (q, s.setSes n { s.ses n with qpP := q.toNat })
  ((if idr then sat (qp + signed (Fld.GLS.RC_CFG_I_OFS cfg n) 4) 0 51 else qp).toNat, s)

/-- Whether two pages differ in the fields that force an IDR with new parameter sets (R196). -/
def paramsChanged (a b : RegFile) (n : Nat) : Bool :=
  a.word (Adr.GLS.PROFILE_LEVEL n) != b.word (Adr.GLS.PROFILE_LEVEL n) || a.word (Adr.GLS.PIC_SIZE n) != b.word (Adr.GLS.PIC_SIZE n) ||
  a.word (Adr.GLS.GOP n) != b.word (Adr.GLS.GOP n) || a.word (Adr.GLS.SEARCH n) != b.word (Adr.GLS.SEARCH n) ||
  Fld.GLS.SES_CFG_CHROMA a n != Fld.GLS.SES_CFG_CHROMA b n || Fld.GLS.SES_CFG_DEPTH10 a n != Fld.GLS.SES_CFG_DEPTH10 b n ||
  Fld.GLS.SES_CFG_STD a n != Fld.GLS.SES_CFG_STD b n

/-- The handle commands of a session take effect (R187). -/
def State.applyHandles (s : State) (n : Nat) : State :=
  let x := s.ses n
  let s := x.cmds.foldl (fun s c =>
    let b := s.pool c.2
    match c.1 with
    | 1 =>
      let s := (s.sesBufs n).foldl (fun s k => if (s.pool k).mark = 2 then s.markBuf k 0 else s) s
      (s.markBuf c.2 2).setSes n { s.ses n with shorts := (s.ses n).shorts.filter (fun k => k != c.2) }
    | 2 => (s.markBuf c.2 0).setSes n { s.ses n with shorts := (s.ses n).shorts.filter (fun k => k != c.2) }
    | _ => s.setPool c.2 { b with outputPending := false }) s
  s.setSes n { s.ses n with cmds := [] }

/-- A picture starts: handle commands take effect, a buffer is allocated and marked SHORT under a new generation, and its type and QP are decided against the picture
started before it (R181, R196). With no free buffer the session waits (R185). -/
def State.pictureStart (s : State) (n : Nat) (p : Picture) : Option Picture × State :=
  let s := s.applyHandles n
  match (s.sesBufs n).find? (fun b => (s.pool b).isFree) with
  | none => (none, s.setSes n { s.ses n with poolWaiting := true, poolWait := satInc 16 (s.ses n).poolWait })
  | some b =>
    let gen := (s.rd Adr.GLP.GEN + 1) % 256
    let s := (s.setReg Adr.GLP.GEN gen).setPool b { s.pool b with mark := 1, stamp := gen, published := false }
    let x := s.ses n
    match p.source with
    | none =>
      (some { p with target := some b, refs := (s.sesBufs n).filter (fun k => k != b && (s.pool k).mark != 0) }, s.setSes n { x with shorts := b :: x.shorts })
    | some (_, f) =>
      let changed := match x.prevCfg with
        | some c => paramsChanged c p.cfg n
        | none => true
      let period := Fld.GLS.GOP_IDR_PERIOD p.cfg n
      let idr := changed || x.forceIdr || (match x.sinceIdr with
        | none => true
        | some k => decide (period ≠ 0 ∧ period ≤ k))
      let s := if idr then (s.sesBufs n).foldl (fun s k => if k = b then s else s.markBuf k 0) s else s
      -- a new CPB limits the buckets (R196)
      let cpb : Int := (Fld.GLS.CPB_SIZE p.cfg n : Int) * 1000
      let long := (s.sesBufs n).filter (fun k => (s.pool k).mark == 2)
      let refs := if idr then [] else long ++ x.shorts.take (sesRefs p.cfg n - long.length)
      let s := s.setSes n { s.ses n with shorts := if idr then [b] else b :: x.shorts, full := min x.full cpb, peak := min x.peak cpb,
                                         forceIdr := x.forceIdr && !idr, prevSeq := some f.seq, prevCfg := some p.cfg,
                                         sinceIdr := if idr then some 1 else x.sinceIdr.map (· + 1) }
      let (qp, s) := s.pictureQp n p.cfg idr
      let kind := if idr then 0 else if x.prevSeq = some f.seq then 2 else 1
      (some { p with target := some b, kind := kind, newParams := changed, qp := qp, refs := refs }, s)

/-- The oldest picture of a session of which an engine has not run its item. -/
def Session.itemOf (x : Session) (e : Nat) : Option Picture := x.pics.find? (fun p => p.waiting.contains e)

/-- Put a picture back in its place, which its slot and ring offset name. -/
def Session.putPic (x : Session) (p : Picture) : List Picture := x.pics.map (fun q => if q.slot = p.slot ∧ q.ringAt = p.ringAt ∧ q.source = p.source then p else q)

/-- The ready work items for an engine, as (session, deadline) (R177): an item is ready once its source frame is taken. Under HOLD no picture starts, and one that has
started goes on to its end (R37). -/
def State.readyFor (s : State) (e : Nat) : List (Nat × Nat) :=
  (List.range 32).filterMap (fun n =>
    let x := s.ses n
    match x.itemOf e with
    | some p =>
      let started := p.target.isSome
      let intime := p.source.isNone || started || decide (serial 40 s.now p.deadline = .earlier)
      if intime && (started || !(x.poolWaiting || s.holding glsPage)) then some (n, p.deadline) else none
    | none => none)

/-- The item with the earliest deadline, ties to the lower session; deadlines 2^39 ns apart, of which neither is later, are a tie (R177, R9, R13). -/
def earliest : List (Nat × Nat) → Option (Nat × Nat) → Option (Nat × Nat)
  | [], best => best
  | i :: rest, none => earliest rest (some i)
  | i :: rest, some b => earliest rest (some (if serial 40 i.2 b.2 = .earlier then i else b))

/-- ENGINE_DISPATCH: an idle engine starts the ready work item with the earliest deadline (R177). -/
def engineDispatch (e : Nat) (s : State) : State :=
  if Fld.GLC.ENG_SES_VALID s.regs e = 1 then s else
  match earliest (s.readyFor e) none with
  | none => s
  | some (n, _) =>
    match (s.ses n).itemOf e with
    | none => s
    | some p =>
      let (p, s) := if p.target.isSome then (some p, s) else s.pictureStart n p
      match p with
      | none => s
      | some p =>
        let p := { p with waiting := p.waiting.filter (fun k => k != e), running := p.running ++ [e] }
        (s.setSes n { s.ses n with pics := (s.ses n).putPic p }).setReg (Adr.GLC.ENG_SES e) (n + 0x100)

/-- DEADLINE_MISS: an encode work item that did not start before its deadline is skipped (R179). -/
def deadlineMiss (n : Nat) (s : State) : State :=
  let x := s.ses n
  match x.pics.find? (fun p => p.target.isNone) with
  | some p =>
    if p.source.isNone || decide (serial 40 s.now p.deadline = .earlier) then s
    else ((s.dropPics n [p]).setSes n { x with pics := x.pics.erase p, lateSkipped := satInc 32 x.lateSkipped }).sesFault n 0x08
  | none => s

/-- POOL_WAIT_END: a session that waited for a free buffer resumes once its picture start, at which its handle commands take effect, finds one (R185, R187). -/
def poolWaitEnd (n : Nat) (s : State) : State :=
  let t := s.applyHandles n
  if (t.sesBufs n).any (fun b => (t.pool b).isFree) then s.setSes n { s.ses n with poolWaiting := false } else s

/-! ### The end of an encoded picture (R184, R185, R189, R190, R195) -/

/-- The bytes of free samples of depth B, each stored as its R159 widening. -/
def State.drawSamples (s : State) (depth n : Nat) : List Byte × State :=
  ((List.range n).flatMap (fun k => leBytes 2 (widen depth ((Config.freeWord (s.freeCount + k)).toNat % 2 ^ depth))), { s with freeCount := s.freeCount + n })

/-- Rows of free samples, `samples` to a row. -/
def State.drawRows (s : State) (depth samples : Nat) : Nat → List (List Byte) × State
  | 0 => ([], s)
  | k + 1 =>
    let (r, s) := s.drawSamples depth samples
    let (rs, s) := s.drawRows depth samples k
    (r :: rs, s)

/-- How a pool picture is laid out: its standard, shown size, chroma format and bit depth: the session's for encode, the stream's for decode (R184, R192). -/
structure PoolForm where
  h264 : Bool
  width : Nat
  height : Nat
  chroma : Nat
  depth : Nat
deriving DecidableEq, Repr

/-- The form of an encode session's pictures, and of a stream's. -/
def sesForm (cfg : RegFile) (n : Nat) : PoolForm :=
  { h264 := sesH264 cfg n, width := sesW cfg n, height := sesH cfg n, chroma := sesChroma cfg n, depth := sesDepth cfg n }
def StreamInfo.form (i : StreamInfo) : PoolForm :=
  { h264 := profileH264 i.profile, width := i.width, height := i.height, chroma := i.chroma, depth := i.depth }

/-- The coded width and height of a form. -/
def PoolForm.codedW (f : PoolForm) : Nat := codedSize f.h264 f.width
def PoolForm.codedH (f : PoolForm) : Nat := codedSize f.h264 f.height

/-- A pool picture as a buffer of R170 at N = 16 (R184). -/
def State.poolFrame (s : State) (b : Nat) (f : PoolForm) : BufFrame :=
  let pitch := 256 * ceilDiv (f.codedW * bytesRef f.chroma) 256
  { index := b, addr := (s.pool b).unit * 4096, pitch := pitch, chroma := f.codedH * pitch, fmt := chromaFmt f.chroma, depth := 2, range := 0,
    colorimetry := 0, tf := 0, width := f.width, height := f.height, count := 0, tags := 0, sof := 0, seq := 0 }

/-- The bytes of a pool picture's planes. -/
def BufFrame.planeBytes (f : BufFrame) (rows : Nat) : Nat := f.pitch * (rows + if f.fmt = 3 then rows / 2 else 0)

/-- The samples of a luma row and of a chroma row of a form, in bytes. -/
def PoolForm.rowBytes (f : PoolForm) : Nat := f.codedW * nth 3 [1, 2, 3] f.chroma * 2

/-- The planes of a picture as the coding standard gives them, free values: the rows of luma (with chroma in them but for 4:2:0), then those of chroma. -/
def State.drawPlanes (s : State) (form : PoolForm) : List (List Byte) × List (List Byte) × State :=
  let (rows, s) := s.drawRows form.depth (form.rowBytes / 2) form.codedH
  let (crows, s) := if form.chroma = 0 then s.drawRows form.depth form.codedW (form.codedH / 2) else ([], s)
  (rows, crows, s)

/-- A picture and its motion store are written; the error response that it meets. -/
def State.storePicture (s : State) (b : Nat) (form : PoolForm) (rows crows : List (List Byte)) (motion : List Byte) : State × Option Nat :=
  let f := s.poolFrame b form
  let (s, e1) := s.storeRows f.addr f.pitch rows
  let (s, e2) := s.storeRows (f.addr + f.chroma) f.pitch crows
  let at' := f.addr + f.planeBytes form.codedH
  let e3 := s.spanError at' motion.length
  (s.store at' motion, (e1.or e2).or e3)

/-- The bytes of a motion store (R184). -/
def PoolForm.motionBytes (f : PoolForm) : Nat := 8 * ceilDiv f.width 16 * ceilDiv f.height 16

/-- The u16 samples of rows of bytes. -/
def planeSamples (rows : List (List Byte)) : List (List Nat) := rows.map (fun r => (List.range (r.length / 2)).map (fun k => fieldOf r (2 * k) 2))

/-- The error responses that a work item's reads of its references meet: each sample of a reference's bands is read (R183). -/
def State.refErrors (s : State) (form : PoolForm) (refs : List Nat) (bad : BadBeats) : List Nat :=
  refs.flatMap (fun b => let f := s.poolFrame b form; let n := f.planeBytes form.codedH; (s.spanError f.addr n).toList ++ badsIn bad f.addr n)

/-- The sum of the absolute Hadamard coefficients of a 4 × 4 block (R195). -/
def hadamard4 (v : Nat → Nat → Int) : Nat :=
  let sgn (k i : Nat) : Int := nth 1 (nth [] [[1, 1, 1, 1], [1, -1, 1, -1], [1, 1, -1, -1], [1, -1, -1, 1]] k) i
  (List.range 16).foldl (fun a k =>
    a + ((List.range 16).foldl (fun (t : Int) i => t + sgn (k / 4) (i / 4) * sgn (k % 4) (i % 4) * v (i / 4) (i % 4)) 0).natAbs) 0

/-- INTRA_COST and ACT of a 16 × 16 block of luma samples (R195). -/
def intraCost (x : Nat → Nat → Nat) : Nat :=
  let sum := (List.range 256).foldl (fun a k => a + x (k / 16) (k % 16)) 0
  let m := (sum + 128) / 256
  ((List.range 16).foldl (fun a k => a + hadamard4 (fun i j => (x (4 * (k / 4) + i) (4 * (k % 4) + j) : Int) - m)) 0 + 1) / 2
def blockAct (x : Nat → Nat → Nat) : Nat :=
  let sum := (List.range 256).foldl (fun a k => a + x (k / 16) (k % 16)) 0
  let sq := (List.range 256).foldl (fun a k => a + x (k / 16) (k % 16) ^ 2) 0
  (256 * sq - sum ^ 2 + 32768) / 65536

/-- Luma samples of a picture at a bit depth; a coordinate outside takes the nearest edge sample (R176, R182). -/
def lumaAt (luma : List (List Nat)) (w h : Nat) (y x : Int) : Nat := nth 0 (nth [] luma (sat y 0 (h - 1 : Nat)).toNat) (sat x 0 (w - 1 : Nat)).toNat

/-- The luma rows of a buffer at a bit depth. -/
def State.lumaRows (s : State) (f : BufFrame) (depth : Nat) : List (List Nat) :=
  (List.range f.height).map (fun y => (s.bufPixels f [] y).map (fun q => q.1.1 / 2 ^ (16 - depth)))

/-- What a statistics record is made of: the picture, the coded source, the references at the coding depth, and the rows of its tile columns. -/
structure StatInput where
  p : Picture
  cfg : RegFile
  n : Nat
  luma : List (List Nat)
  refs : List (List (List Nat))
  tiles : List Tile
  rows : List (List (Nat × Nat))

/-- The QP of the row of a tile column in which a block lies (R189). -/
def StatInput.qpAt (i : StatInput) (bx by' : Nat) : Nat :=
  let t := (i.tiles.findIdx? (fun t => decide (t.x0 ≤ 16 * bx) && decide (16 * bx < t.x0 + t.width))).getD 0
  (nth (i.p.qp, 0) (nth [] i.rows t) (16 * by' / rowHeight (sesH264 i.cfg i.n))).1

/-- INTER_COST of a block: the sum of the absolute differences at a full-sample vector of the search, which lies in the window (R182, R195). Which vector and
reference the search finds best is a free value; with no vector to try, the cost is one. -/
def State.interCost (s : State) (i : StatInput) (bx by' : Nat) : Nat × State :=
  let w := sesW i.cfg i.n
  let h := sesH i.cfg i.n
  let (c0, c1) := windowCols (sesSearch i.cfg i.n) (bx / 4 * 64)
  let whole (l : List Int) : List Int := l.filter (fun v => v % 4 == 0)
  let (vx, s) := s.drawFrom 0 (whole (vectorsIn c0 c1 (16 * bx)))
  let (vy, s) := s.drawFrom 0 (whole (vectorsDown (sesWindow i.cfg i.n) (by' / 4) (16 * by')))
  let (k, s) := s.drawBelow i.refs.length
  let ref := nth [] i.refs k
  ((List.range 256).foldl (fun a j =>
    let y : Int := (16 * by' + j / 16 : Nat)
    let x : Int := (16 * bx + j % 16 : Nat)
    a + ((lumaAt i.luma w h y x : Int) - lumaAt ref (codedSize (sesH264 i.cfg i.n) w) (codedSize (sesH264 i.cfg i.n) h)
      (y + Int.fdiv vy 4) (x + Int.fdiv vx 4)).natAbs) 0, s)

/-- One block entry (R195): what the search chose is a free value among what the window and the references allow (R182). A macroblock is neither merged nor larger
than 16, and its partitions are 8 or 16 (R176). -/
def State.statBlock (s : State) (i : StatInput) (bx by' : Nat) : List Byte × State :=
  let w := sesW i.cfg i.n
  let h := sesH i.cfg i.n
  let x (r c : Nat) : Nat := lumaAt i.luma w h (16 * by' + r : Nat) (16 * bx + c : Nat)
  let (free, s) := s.drawBool
  let intra := i.p.kind == 0 || i.refs.isEmpty || (i.p.kind == 1 && free)
  let (c0, c1) := windowCols (sesSearch i.cfg i.n) (bx / 4 * 64)
  let (vx, s) := s.drawFrom 0 (vectorsIn c0 c1 (16 * bx))
  let (vy, s) := s.drawFrom 0 (vectorsDown (sesWindow i.cfg i.n) (by' / 4) (16 * by'))
  let (ref, s) := s.drawBelow i.refs.length
  let (k, s) := s.drawBelow (if sesH264 i.cfg i.n then 2 else 3)
  let (l, s) := s.drawBelow (if sesH264 i.cfg i.n then 2 else 4)
  let (cost, s) := if i.p.kind = 0 then (0xFFFFFFFF, s) else s.interCost i bx by'
  let mode := (if intra then 0 else if i.p.kind = 2 then 2 else 1 + k) + 16 * (3 + l)
  let beyond := decide (w < 16 * bx + 16) || decide (h < 16 * by' + 16)
  ((if intra then leBytes 4 0 ++ [0xFF] else leBytes 2 (unsigned vx 16) ++ leBytes 2 (unsigned vy 16) ++ leBytes 1 ref) ++
    overlays (List.replicate 27 0) [(0, 1, mode), (1, 1, i.qpAt bx by'), (2, 1, b2n beyond), (3, 4, cost), (7, 4, intraCost x), (11, 4, blockAct x)], s)

/-- All block entries in raster order. -/
def State.statBlocks (s : State) (i : StatInput) : List (Nat × Nat) → List Byte × State
  | [] => ([], s)
  | (bx, by') :: r =>
    let (e, s) := s.statBlock i bx by'
    let (es, s) := s.statBlocks i r
    (e ++ es, s)

/-- The statistics record of a picture (R195). -/
def State.writeStats (s : State) (n : Nat) (p : Picture) (f : BufFrame) (seq : Nat) (rows : List (List (Nat × Nat))) : State :=
  if Fld.GLS.STAT_CFG_EN p.cfg n = 0 then s else
  let form := sesForm p.cfg n
  let across := ceilDiv form.width 16
  let down := ceilDiv form.height 16
  let head := overlays (List.replicate 32 0) [(0, 4, seq), (4, 4, f.count), (8, 2, across), (10, 2, down), (12, 1, p.kind), (13, 1, p.qp)]
  let coded (b : Nat) : BufFrame := { s.poolFrame b form with width := form.codedW, height := form.codedH }
  let i : StatInput :=
    { p := p, cfg := p.cfg, n := n, luma := s.lumaRows f form.depth, refs := p.refs.map (fun b => s.lumaRows (coded b) form.depth), tiles := sesTiles p.cfg n,
      rows := rows }
  let (body, s) := s.statBlocks i ((List.range down).flatMap (fun y => (List.range across).map (fun x => (x, y))))
  let addr := (Fld.GLS.STAT_UNIT p.cfg n + seq % 2 * Fld.GLS.STAT_CFG_STRIDE p.cfg n) * 4096
  let tail := overlays (List.replicate 32 0) [(0, 4, seq)]
  let s := match s.spanError addr (64 + body.length) with
    | some c => s.sesUpstream n c
    | none => s
  ((s.store addr head).store (addr + 32) body).store (addr + 32 + body.length) tail

/-- The buckets at the end of a picture of `bits` bits (R189): the session, the filler's bytes, and HRD_OVF. -/
def rcEnd (cfg : RegFile) (n : Nat) (x : Session) (bits : Int) : Session × Nat × Bool :=
  let mode := rcMode cfg n
  if mode = 0 then (x, 0, false) else
  let num : Int := Fld.GLS.PACE_NUM cfg n
  let den : Int := Fld.GLS.PACE_DEN cfg n
  let cpb : Int := (Fld.GLS.CPB_SIZE cfg n : Int) * 1000
  let full := x.full + bits - rcBudget cfg n
  let filler := if mode = 1 ∧ full < 0 then max 6 (ceilDiv (-full).toNat 8) else 0
  let full := max (full + 8 * filler) 0
  let peak := if mode = 2 then sat (x.peak + bits - Int.tdiv ((Fld.GLS.MAXRATE cfg n : Int) * 1000 * den) num) 0 cpb else x.peak
  let hot := decide (cpb < full)
  ({ x with full := if hot then cpb else full, peak := peak, ovf := if hot then satInc 32 x.ovf else x.ovf }, filler, hot)

/-- The marks after an encoded picture: the oldest SHORT buffers beyond MAX_REFS in all become UNUSED (R185). -/
def State.slideRefs (s : State) (n : Nat) (cfg : RegFile) : State :=
  let x := s.ses n
  let long := ((s.sesBufs n).filter (fun b => (s.pool b).mark == 2)).length
  let keep := sesRefs cfg n - long
  let s := (x.shorts.drop keep).foldl (fun s b => s.markBuf b 0) s
  s.setSes n { x with shorts := x.shorts.take keep }

/-- A stopping session whose picture is complete goes IDLE. -/
def State.settleStop (s : State) (n : Nat) : State :=
  if s.sesState n = 2 ∧ (s.ses n).pics.isEmpty = true ∧ (s.ses n).stalled.isEmpty = true then s.finishStop n 0 else s

/-- The access unit of a picture, as far as the spec fixes it (R176, R178); an IDR carries the parameter sets, with the colour description of its source. -/
def State.unitOf (s : State) (n : Nat) (p : Picture) (f : BufFrame) (hash : List Nat) : AccessUnit × State :=
  let (vui, s) := s.vuiOf f
  ({ h264 := sesH264 p.cfg n, idr := p.kind == 0, sets := if p.kind = 0 then some (sesSets p.cfg n vui) else none,
     sei := sesSei p.cfg n (rcMode p.cfg n) (p.kind == 0), tiles := sesTiles p.cfg n, hash := if sesH264 p.cfg n then [] else hash, filler := 0 }, s)

/-- The first record that waits goes into its ring, and its engine goes on (R191). -/
def State.unstall (s : State) (n : Nat) (r : StalledRecord) (rest : List StalledRecord) : State :=
  ((s.setSes n { s.ses n with stalled := rest }).putRecord n r.bytes).setFld (Adr.GLC.ENG_SES r.engine) 8 1 0

/-- The records that wait go into their rings in order, as far as each fits (R191). -/
def State.drainRecords (s : State) (n : Nat) : List StalledRecord → State
  | [] => s
  | r :: rest =>
    let t := s.setSes n { s.ses n with ring := r.ring }
    if (r.bytes.length : Int) ≤ t.ringFree n then (t.unstall n r rest).drainRecords n rest else s

/-- The last item of an encoded picture has completed: its record, statistics, marks and buckets. -/
def State.encodeEnd (s : State) (n e b : Nat) (p : Picture) (v : Nat) (f : BufFrame) : State :=
  let seq := (s.ses n).seq
  let form := sesForm p.cfg n
  let len := f.planeBytes f.height
  let failed := distinct ((s.spanError f.addr len).toList ++ badsIn p.bad f.addr len ++ s.refErrors form p.refs p.bad)
  let s := failed.foldl (fun (s : State) c => s.sesUpstream n c) s
  let (rows, s) := s.codeTiles p.cfg n p.qp (sesTiles p.cfg n)
  let s := s.writeStats n p f seq rows
  let (planes, crows, s) := s.drawPlanes form
  let (motion, s) := s.drawBytes form.motionBytes
  let (s, werr) := s.storePicture b form planes crows motion
  let s := match werr with
    | some c => s.sesUpstream n c
    | none => s
  let (u, s) := s.unitOf n p f (pictureHash form.chroma form.depth (planeSamples planes) (planeSamples crows))
  let (au, s) := s.unitBytes u (rows.map (fun c => ceilDiv (c.foldl (fun a r => a + r.2) 0) 8))
  let (x, filler, hot) := rcEnd p.cfg n (s.ses n) (8 * au.length)
  let au := if filler = 0 then au else au ++ fillerNal u.h264 filler
  let handle := b + 256 * (s.pool b).stamp
  let head := overlays (List.replicate 32 0)
    [(0, 4, 0x55414C47), (4, 4, au.length), (8, 4, f.count), (12, 4, seq), (16, 8, f.sof % 2 ^ 40), (0x18, 1, p.kind), (0x19, 1, p.qp), (0x1A, 2, handle),
     (0x1C, 1, b2n hot + 2 * b2n (decide (0 < filler)) + 4 * b2n p.newParams + 8 * b2n (decide (f.tags ≠ 0)))]
  let record := head ++ au ++ List.replicate (ceilDiv au.length 32 * 32 - au.length) 0
  let s := s.setSes n { x with seq := (seq + 1) % 2 ^ 32, unit := some { u with filler := filler },
                               repeated := if p.kind = 2 then satInc 32 x.repeated else x.repeated, handle := handle, pics := x.pics.erase p }
  let s := ((s.slideRefs n p.cfg).letGo (viewSource v) (sesReader n) f.index).bump (Adr.GLS.PICTURES n)
  let r : StalledRecord := { bytes := record, engine := e, ring := sesRing p.cfg n }
  let t := if (s.ses n).stalled.isEmpty then s.setSes n { s.ses n with ring := r.ring } else s
  if (t.ses n).stalled.isEmpty && decide ((record.length : Int) ≤ t.ringFree n) then (t.unstall n r []).settleStop n
  else t.setSes n { t.ses n with stalled := (t.ses n).stalled ++ [r], ringStalls := satInc 16 (t.ses n).ringStalls }

/-- RING_SPACE: the records that wait enter the ring in order once they fit, and their engines go on (R191). -/
def ringSpace (n : Nat) (s : State) : State := if (s.ses n).stalled.isEmpty then s else (s.drainRecords n (s.ses n).stalled).settleStop n

/-! ### The end of a decoded picture (R185, R192, R194) -/

/-- What the bitstream does to a buffer's mark: it stays (0), goes UNUSED (1) or turns LONG (2) (R185). -/
def State.remark (s : State) (b k : Nat) : State := if (s.pool b).mark = 0 ∨ k = 0 then s else s.markBuf b (if k = 1 then 0 else 2)

/-- The sliding window of H.264: the oldest SHORT buffer goes once the references fill the stream's number of them. -/
def State.slideWindow (s : State) (bufs shorts : List Nat) (refs : Nat) : State :=
  if (bufs.filter (fun b => (s.pool b).mark != 0)).length < max 1 refs then s else
  match shorts.getLast? with
  | some b => s.markBuf b 0
  | none => s

/-- The reference marks after a decoded picture `b`: an IDR clears every other; H.265 follows its reference picture sets, H.264 its sliding window or its MMCO
commands; a picture that is no reference goes UNUSED itself (R185). Which of these a picture asks for is read in its bytes. -/
def State.decodeMarks (s : State) (n b : Nat) (i : StreamInfo) (idr : Bool) (before : Nat) (bytes : List Byte) : State :=
  let others := (s.sesBufs n).filter (fun k => k != b)
  let shorts := (s.ses n).shorts.filter (fun k => k != b && (s.pool k).mark == 1)
  let commands := unitSays before bytes 30
  let reference := unitSays before bytes 31
  let s :=
    if idr then others.foldl (fun s k => s.markBuf k 0) s
    else if profileH264 i.profile && !commands then (if reference then s.slideWindow others shorts i.refs else s)
    else others.foldl (fun (s : State) k => s.remark k (unitReads before bytes (64 + k) 3)) s
  let s := if reference || idr then s else s.markBuf b 0
  s.setSes n { s.ses n with shorts := (s.ses n).shorts.filter (fun k => (s.pool k).mark == 1) }

/-- The bytes of mid-grey for a row of samples. -/
def greyRow (depth n : Nat) : List Byte := (List.replicate n (leBytes 2 (widen depth (2 ^ (depth - 1))))).flatten

/-- A row of a picture in which CTUs `a` to `a` + `k` − 1 in raster order, of `across` to a row, are concealed: the bytes of another row stand there (R194). -/
def concealRow (across ctuBytes ctuRows a k y : Nat) (own other : List Byte) : List Byte :=
  (List.range own.length).map (fun j =>
    let c := y / ctuRows * across + min (j / ctuBytes) (across - 1)
    if a ≤ c ∧ c < a + k then nth 0 other j else nth 0 own j)

/-- Concealment of a range of CTUs: the co-located area of the previous picture in decoding order, or mid-grey where there is none of this form (R194). -/
def State.concealment (s : State) (form : PoolForm) (prev : Option Nat) (a k : Nat) (luma : Bool) (y : Nat) (own : List Byte) : List Byte :=
  let side := rowHeight form.h264
  let across := ceilDiv form.codedW side
  let sub := if luma then 1 else 2
  let bytes := side * (if luma then nth 3 [1, 2, 3] form.chroma else 1) * 2
  let other := match prev with
    | some b =>
      let f := s.poolFrame b form
      s.loadBytes ((if luma then f.addr else f.addr + f.chroma) + y * f.pitch) own.length
    | none => greyRow form.depth (own.length / 2)
  concealRow across bytes (side / sub) a k y own other

/-- What the decoder finds in an access unit: whether it starts a coded video sequence with parameter sets of its own, a slice error with the CTUs of the slice,
an absent reference, and whether the picture is output. A conforming access unit has no error (R192, R194). `hash` is the CRC of each component that its SEI
message names, if it carries one. -/
structure Findings where
  starts : Bool
  slice : Bool
  hash : Option (List Nat)
  absent : Bool
  absentLong : Bool
  shown : Bool
  first : Nat
  ctus : Nat
  order : Nat
deriving DecidableEq, Repr

/-- The findings of an access unit of a picture of so many CTUs whose decoded samples have a hash. -/
def findingsOf (before : Nat) (bytes : List Byte) (ctus : Nat) (hash : List Nat) : Findings :=
  let conforms := unitSays before bytes 20
  let named := (List.range 3).map (fun k => unitReads before bytes (40 + k) 65536)
  { starts := unitSays before bytes 21, slice := unitSays before bytes 22 && !conforms,
    hash := if unitSays before bytes 23 then some (if conforms then hash else named) else none, absent := unitSays before bytes 24 && !conforms,
    absentLong := unitSays before bytes 29, shown := unitSays before bytes 25, first := unitReads before bytes 26 ctus,
    ctus := unitReads before bytes 27 ctus + 1, order := unitReads before bytes 28 (2 ^ 32) }

/-- A picture in place of an absent reference: mid-grey, in the lowest free buffer of the session, marked as the bitstream names it; with none free it stands nowhere
(R194; DESIGN CHOICE, assumption 170). -/
def State.greyReference (s : State) (n : Nat) (form : PoolForm) (long : Bool) : State × Option Nat :=
  match (s.sesBufs n).find? (fun b => (s.pool b).isFree) with
  | none => (s, none)
  | some b =>
    let s := s.markBuf b (if long then 2 else 1)
    let s := if long then s else s.setSes n { s.ses n with shorts := (s.ses n).shorts ++ [b] }
    let row := greyRow form.depth (form.rowBytes / 2)
    s.storePicture b form (List.replicate form.codedH row) (if form.chroma = 0 then List.replicate (form.codedH / 2) (greyRow form.depth form.codedW) else [])
      (List.replicate form.motionBytes 0)

/-- An access unit is decoded (R184, R185, R192 to R194): an unsupported stream stops the session; else the picture is written, concealed where a slice or a read
failed, the marks follow the bitstream, and the picture enters the output queue. What the bitstream says is a function of its bytes and of those before it. -/
def State.decodeEnd (s : State) (n b : Nat) (p : Picture) : State :=
  let size := s.ringBytes n
  let next := if size = 0 then 0 else (p.ringAt + 32 + ceilDiv p.length 32 * 32) % size
  let before := (s.ses n).decoded
  let bytes := (s.ringLoad n (p.ringAt + 32) p.length).1
  let (info, fresh) : StreamInfo × Bool := match (s.ses n).stream, unitSays before bytes 19 with
    | some i, false => (i, false)
    | _, _ => (streamSets before bytes, true)
  if !info.supported p.cfg n then
    ((s.setSes n { s.ses n with pics := [] }).finishStop n 3).sesFault n 0x20
  else
    let form := info.form
    let (rows, crows, s) := s.drawPlanes form
    let (motion, s) := s.drawBytes form.motionBytes
    let f := findingsOf before bytes (ceilDiv form.codedW (rowHeight form.h264) * ceilDiv form.codedH (rowHeight form.h264))
      (pictureHash form.chroma form.depth (planeSamples rows) (planeSamples crows))
    let idr := fresh || f.starts
    let failed := distinct (s.ringFaults n p.ringAt (32 + p.length) p.bad ++ s.refErrors form p.refs p.bad)
    let s := failed.foldl (fun (s : State) c => s.sesUpstream n c) s
    let bad := f.slice || !failed.isEmpty
    let prev := if (s.ses n).stream = some info then (s.ses n).prevBuf else none
    let conceal := if bad then s.concealment form prev f.first f.ctus else fun _ _ r => r
    let rows := rows.zipIdx.map (fun r => conceal true r.2 r.1)
    let crows := crows.zipIdx.map (fun r => conceal false r.2 r.1)
    let wrong := match f.hash with
      | some h => decide (h ≠ pictureHash form.chroma form.depth (planeSamples rows) (planeSamples crows))
      | none => false
    let (s, werr) := s.storePicture b form rows crows motion
    let s := s.decodeMarks n b info idr before bytes
    let (s, gerr) := if f.absent then s.greyReference n form f.absentLong else (s, none)
    let s := (distinct (werr.toList ++ gerr.toList)).foldl (fun (s : State) c => s.sesUpstream n c) s
    let x := s.ses n
    let cvs := if idr then x.cvs + 1 else x.cvs
    let o : OutPicture := { buffer := b, tags := if bad || wrong || f.absent then 0x80 else 0, order := (cvs, f.order), info := info }
    let s := s.setSes n { x with pics := [], ovf := satAdd 32 x.ovf (b2n bad + b2n wrong), stream := some info, cvs := cvs, prevBuf := some b,
                                 decoded := Config.bitstreamAfter before bytes,
                                 outQueue := if f.shown then x.outQueue ++ [o] else x.outQueue }
    let s := if f.shown then s.setPool b { s.pool b with outputPending := true } else s
    let s := if bad then s.sesFault n 0x21 else s
    let s := ((s.setReg (Adr.GLS.RD_PTR n) next).bump (Adr.GLS.PICTURES n)).readRing n s.regs
    (s.settleStop n).decodePump n (s.pumpFuel n)

/-- WORK_ITEM_DONE: the item of an engine completes; with the last of a picture, the picture does (R177, R190). `reads` are the beats whose reads ended in an
error response. -/
def workItemDone (e : Nat) (reads : BadBeats) (s : State) : State :=
  if Fld.GLC.ENG_SES_VALID s.regs e = 0 then s else
  let n := Fld.GLC.ENG_SES_SESSION s.regs e
  match (s.ses n).pics.find? (fun p => p.running.contains e) with
  | some p =>
    let p := { p with running := p.running.filter (fun k => k != e), bad := p.bad ++ reads }
    let s := (s.setSes n { s.ses n with pics := (s.ses n).putPic p }).bump (Adr.GLC.ENG_ITEMS e)
    if !p.waiting.isEmpty || !p.running.isEmpty then s.setFld (Adr.GLC.ENG_SES e) 8 1 0 else
    match p.target, p.source with
    | some b, some (v, f) => s.encodeEnd n e b p v f
    | some b, none => (s.setFld (Adr.GLC.ENG_SES e) 8 1 0).decodeEnd n b p
    | none, _ => s
  | none => s

/-- RD_PTR_WRITE: the consumer frees space of an encode session's ring; ignored in a decode session (R191). -/
def rdPtrWrite (n : Nat) (value : Word) (s : State) : State :=
  if sesDecode s.regs n then s else s.setReg (Adr.GLS.RD_PTR n) value.toNat

/-- WR_PTR_WRITE: the producer makes records available to a decode session; ignored in an encode session (R192). -/
def wrPtrWrite (n : Nat) (value : Word) (s : State) : State :=
  if sesDecode s.regs n then
    let s := s.setReg (Adr.GLS.WR_PTR n) value.toNat
    s.decodePump n (s.pumpFuel n)
  else s

/-- The picture of an output queue that comes first in output order. -/
def firstOut : List OutPicture → Option OutPicture
  | [] => none
  | o :: r => match firstOut r with
    | some q => if q.order.1 < o.order.1 ∨ (q.order.1 = o.order.1 ∧ q.order.2 < o.order.2) then some q else some o
    | none => some o

/-- Whether the standard's output process lets the first picture out: more pictures wait than may be reordered, a later coded video sequence has begun, or the pictures
that wait or are references fill the stream's decoded picture buffer (PRESUMED, assumption 139). -/
def State.bumps (s : State) (n : Nat) (o : OutPicture) : Bool :=
  let x := s.ses n
  let full := ((s.sesBufs n).filter (fun b => (s.pool b).mark != 0 || x.outQueue.any (fun q => q.buffer == b))).length
  decide (o.info.reorder < x.outQueue.length) || decide (o.order.1 < x.cvs) || decide (o.info.dpb ≤ full)

/-- DECODE_PUBLISH: the next picture in output order leaves, no earlier than its pace slot (R193). FRAME_COUNT and SOF_TIME of its descriptor, which no bitstream
carries, are free values. -/
def decodePublish (n : Nat) (s : State) : State :=
  let x := s.ses n
  let num := Fld.GLS.PACE_NUM s.regs n
  let t := slotTime (sesStartTime s.regs n) num (Fld.GLS.PACE_DEN s.regs n) x.slot
  if (s.sesState n ≠ 1 ∧ s.sesState n ≠ 2) ∨ sesDecode s.regs n = false ∨ (num ≠ 0 ∧ s.reached t = false) then s else
  match firstOut x.outQueue with
  | none => s
  | some o =>
    if !s.bumps n o then s else
    let (count, s) := s.drawWord
    let (sof, s) := s.drawWord
    let f : BufFrame :=
      { s.poolFrame o.buffer o.info.form with count := count.toNat, sof := sof.toNat, range := o.info.range, colorimetry := o.info.colorimetry,
                                              tf := o.info.tf, tags := o.tags, seq := x.outCount % 2 ^ 32 }
    let addr := Fld.GLP.DESC_UNIT s.regs * 4096 + 64 * o.buffer
    let s := match s.spanError addr 64 with
      | some c => s.sesUpstream n c
      | none => s
    let s := s.store addr (f.descriptor false)
    let s := s.setSes n { x with outQueue := x.outQueue.filter (fun q => decide (q ≠ o)), outCount := x.outCount + 1, slot := x.slot + 1,
                                 handle := o.buffer + 256 * (s.pool o.buffer).stamp }
    if Fld.GLS.SES_CFG_OUT_TO_VIEW s.regs n = 1 then
      (s.setPool o.buffer { s.pool o.buffer with published := true, outSrc := Fld.GLS.SES_CFG_OUT_SRC s.regs n }).complete (gdSource (Fld.GLS.SES_CFG_OUT_SRC s.regs n)) f
    else s

/-! ### Handle commands (R186, R187) -/

/-- A handle command is refused: H_STAT, STALE, and the event fault STALE_HANDLE (R186). -/
def State.refuseHandle (s : State) (result : Nat) : State := ((s.setReg Adr.GLP.H_STAT result).bump Adr.GLP.STALE).fault 0x2A0 0x22

/-- A handle command is accepted; it takes effect at the owning session's next picture start (R187). -/
def State.acceptHandle (s : State) (op b : Nat) : State :=
  let n := (s.pool b).session
  (s.setSes n { s.ses n with cmds := (s.ses n).cmds ++ [(op, b)] }).setReg Adr.GLP.H_STAT 0

/-- The checks of R186 in order; beyond 127 generations the result is a free value. -/
def State.handleCmd (s : State) (handle op : Nat) (allowed : State → Nat → Bool) : State :=
  let b := handle % 64
  let gen := handle / 256 % 256
  let x := s.pool b
  if 128 ≤ (s.rd Adr.GLP.GEN + 256 - gen) % 256 then
    let (k, s) := s.drawBelow 3
    if k = 0 then s.acceptHandle op b else s.refuseHandle k
  else if x.stamp ≠ gen then s.refuseHandle 1
  else if allowed s b then s.acceptHandle op b
  else s.refuseHandle 2

/-- Whether a buffer is the picture in progress of its session. -/
def State.inProgress (s : State) (b : Nat) : Bool := (s.ses (s.pool b).session).pics.any (fun p => p.target == some b)

/-- MARK_LONG (R187). -/
def markLong (handle : Nat) (s : State) : State :=
  s.handleCmd handle 1 (fun s b => (s.pool b).assigned && !sesDecode s.regs (s.pool b).session && (s.pool b).mark == 1)

/-- MARK_UNUSED (R187). -/
def markUnused (handle : Nat) (s : State) : State :=
  s.handleCmd handle 2 (fun s b => (s.pool b).assigned && (s.pool b).mark != 0 && !s.inProgress b)

/-- RELEASE_OUTPUT (R187). -/
def releaseOutput (handle : Nat) (s : State) : State :=
  s.handleCmd handle 3 (fun s b => (s.pool b).assigned && (s.pool b).outputPending && Fld.GLS.SES_CFG_OUT_TO_VIEW s.regs (s.pool b).session == 0)

/-- STALE_RESTART restarts STALE. -/
def staleRestart (s : State) : State := s.setReg Adr.GLP.STALE 0

/-! ### Apply points (R180, R196), registers and the Kiosk -/

/-- A decode session that waits for data looks in the ring that its fields name now (R46, R196). -/
def State.refetch (s : State) (n : Nat) : State :=
  if sesDecode s.regs n then
    let s := if (s.ses n).pics.isEmpty then s.readRing n s.regs else s
    s.decodePump n (s.pumpFuel n)
  else s

/-- Whether a session's apply takes a view source that another running session publishes to; of sessions whose fields change together the lowest keeps it (R193;
DESIGN CHOICE, assumption 171). -/
def State.sourceClash (s : State) (old : RegFile) (n : Nat) : Bool :=
  let changed (m : Nat) : Bool := Fld.GLS.SES_CFG_OUT_TO_VIEW old m != Fld.GLS.SES_CFG_OUT_TO_VIEW s.regs m ||
    Fld.GLS.SES_CFG_OUT_SRC old m != Fld.GLS.SES_CFG_OUT_SRC s.regs m || Fld.GLS.SES_CFG_DIR old m != Fld.GLS.SES_CFG_DIR s.regs m
  changed n && sesDecode s.regs n && Fld.GLS.SES_CFG_OUT_TO_VIEW s.regs n == 1 &&
    (List.range 32).any (fun m => m != n && (decide (m < n) || !changed m) && s.publishes m (Fld.GLS.SES_CFG_OUT_SRC s.regs n))

/-- One session at an apply point. -/
def State.applySes (s : State) (old : RegFile) (n : Nat) : State :=
  if s.sesState n ≠ 1 then s else
  if Fld.GLS.SES_CFG_EN s.regs n = 0 ∨ s.enabled glsPage = false then sesStop n s else
  let same (a : RegAddr) : Bool := old.word a == s.regs.word a
  let checked := Fld.GLS.SES_CFG_ENG_MASK old n != Fld.GLS.SES_CFG_ENG_MASK s.regs n || Fld.GLS.SES_CFG_FLOW old n != Fld.GLS.SES_CFG_FLOW s.regs n ||
    !same (Adr.GLS.PIC_SIZE n)
  let fits := sesDecode s.regs n || profileFits s.regs n
  let (ok, s) := if checked then s.sesGood n else (true, s)
  if !(ok && fits) || s.sourceClash old n then sesStop n (s.sesFault n 0x07) else
  let afresh := !same (Adr.GLS.SRC n) || !same (Adr.GLS.PACE_NUM n) || !same (Adr.GLS.PACE_DEN n) || !same (Adr.GLS.PACE_START_LO n) ||
    !same (Adr.GLS.PACE_START_HI n)
  if afresh ∧ Fld.GLS.PACE_NUM s.regs n ≠ 0 then
    let (k, s) := s.firstSlot (sesStartTime s.regs n) (Fld.GLS.PACE_NUM s.regs n) (Fld.GLS.PACE_DEN s.regs n)
    (s.setSes n { s.ses n with slot := k, decSlot := k }).refetch n
  else s.refetch n

/-- The GLS page at an apply point (R196). -/
def State.applyGls (s : State) (old : RegFile) : State := (List.range 32).foldl (fun s n => s.applySes old n) s

/-- CNT_RESTART of GLC, and of GLS: bit s restarts session s's counters. -/
def glcCounters : List (List RegAddr) := (List.range 6).map (fun e => [Adr.GLC.ENG_ITEMS e])
def State.glsRestart (s : State) (mask : Nat) : State :=
  (List.range 32).foldl (fun s n =>
    if bitOf mask n then
      (s.setSes n { s.ses n with repeated := 0, lateSkipped := 0, ovf := 0, ringStalls := 0, mismatch := 0, poolWait := 0 }).setReg (Adr.GLS.PICTURES n) 0
    else s) s

/-- BUF_UNIT, BUF_OWNER and BUF_STAT of the selected buffer; writes are ignored unless it is free. -/
def State.glpRead (s : State) (off : Nat) : Nat :=
  let x := s.pool (Fld.GLP.BUF_SEL s.regs)
  if off = 0x048 then x.unit else if off = 0x04C then x.session + 256 * b2n x.assigned else x.mark + 4 * b2n x.outputPending + 256 * x.stamp
def State.glpWrite (s : State) (off v : Nat) : State :=
  let b := Fld.GLP.BUF_SEL s.regs
  let x := s.pool b
  if !x.isFree then s else
  if off = 0x048 then s.setPool b { x with unit := v % 2 ^ 24 } else s.setPool b { x with session := v % 32, assigned := bitOf v 8 }

/-- Kiosk words of GLS selector 0x20 + s. -/
def State.glsKiosk (s : State) (sel : Nat) : Option (List Nat) :=
  if 0x20 ≤ sel ∧ sel < 0x40 then
    let x := s.ses (sel - 0x20)
    some [x.repeated, x.lateSkipped, x.ovf, x.ringStalls + x.mismatch * 2 ^ 16, x.handle + x.poolWait * 2 ^ 16,
      (sat x.full (-(2 ^ 31)) (2 ^ 31 - 1) % 2 ^ 32).toNat]
  else none

end Sys2Proof.Machine
end

