-- ==== Sys2Proof/Machine/Bandstand.lean ====
section
/-! DEFINITION. The Bandstand audio ports (14_bandstand.md, R276 to R284). A sample stands in a bus left-justified in 32 bits, so that truncation to a
width and padding with zeros are one mask. -/

namespace Sys2Proof.Machine

/-! ### Port settings (R276, R277) -/

/-- A port. -/
def State.bndPort (s : State) (p : Nat) : Bnd := SMap.get (fun _ => bndReset) s.bnd.ports p

/-- Store a port. -/
def State.setBnd (s : State) (p : Nat) (x : Bnd) : State := { s with bnd := { s.bnd with ports := SMap.set (fun _ => bndReset) s.bnd.ports p x } }

/-- The width in bits of a code of SLOT_W or DATA_W. -/
def widthBits (code : Nat) : Nat := nth 32 [16, 24, 32] code

/-- Fields of a PORT_CFG word. -/
def bndRate (p cfg : Nat) : Nat := nth 48000 [44100, 48000, 96000, 192000] (listed (Adr.BND.PORT_CFG p) (bits cfg 8 3) 4)
def bndMode (p cfg : Nat) : Nat := listed (Adr.BND.PORT_CFG p) (bits cfg 3 2) 3
def bndSlots (p cfg : Nat) : Nat := if bndMode p cfg = 0 then 2 else bits cfg 12 5 + 1
def bndSlotCode (p cfg : Nat) : Nat := listed (Adr.BND.PORT_CFG p) (bits cfg 17 2) 3
def bndSlotW (p cfg : Nat) : Nat := widthBits (bndSlotCode p cfg)
/-- DATA_W is at most SLOT_W; a wider code is out of range. -/
def bndDataW (p cfg : Nat) : Nat := widthBits (listed (Adr.BND.PORT_CFG p) (bits cfg 19 2) (bndSlotCode p cfg + 1))
def bndMaster (cfg : Nat) : Bool := bitOf cfg 2
def bndInternal (cfg : Nat) : Bool := bitOf cfg 7
def bndLock (cfg : Nat) : Bool := bitOf cfg 29
/-- An input port; an internal port takes no pins. -/
def bndInput (cfg : Nat) : Bool := !bitOf cfg 1 && !bndInternal cfg

/-- The bit clock is within 49.152 MHz (R277). -/
def bndClockFits (p cfg : Nat) : Bool := decide (bndRate p cfg * bndSlots p cfg * bndSlotW p cfg ≤ 49152000)

/-- What of a PORT_CFG changes the format: DIR, MASTER, MODE, RATE, SLOTS, SLOT_W and DATA_W (R284). -/
def bndFormat (cfg : Nat) : Nat × Nat × Nat × Nat := (bits cfg 1 4, bits cfg 7 1, bits cfg 8 3, bits cfg 12 9)

/-- LAT: below 8 acts as 8. -/
def bndLat (rf : RegFile) (p : Nat) : Nat := max 8 (Fld.BND.LAT rf p)

/-- The registers and routes that a frame goes by that starts at an elapsed time (R284). -/
def State.bndView (s : State) (start : Int) : RegFile × List (Nat × Nat) :=
  match s.bnd.before with
  | some b => if start ≤ (b.beat : Int) then (b.regs, b.routes) else (s.regs, s.bnd.routes)
  | none => (s.regs, s.bnd.routes)

/-- The bit clock in Hz. -/
def bndClock (p cfg : Nat) : Nat := bndRate p cfg * bndSlots p cfg * bndSlotW p cfg

/-- The level of BND_FS at each bit clock of a frame from its frame-start edge on (R276): low in slot 0 and high in slot 1 under I2S; high for one bit clock, or for
the length of a slot, under TDM; FS_POL inverts it. -/
def bndFs (p cfg : Nat) : List Bool :=
  let n := bndSlots p cfg * bndSlotW p cfg
  (List.range n).map (fun i => bitOf cfg 5 != match bndMode p cfg with
    | 0 => decide (bndSlotW p cfg ≤ i)
    | 1 => i == 0
    | _ => decide (i < bndSlotW p cfg))

/-- OFFSET: the bit clocks by which slot 0 follows the frame-start edge. -/
def bndOffset (cfg : Nat) : Nat := bits cfg 24 4

/-- A word of `n` bits, most significant bit first, and a number from its bits. -/
def msbBits (n x : Nat) : List Bool := (List.range n).map (fun i => bitOf x (n - 1 - i))
def msbValue (b : List Bool) : Nat := b.foldl (fun a x => 2 * a + b2n x) 0

/-- The slots that a port's data pin carries, from its bits since the frame-start edge; a bit that has not come is 0. -/
def slotsOf (p cfg : Nat) (pins : List Bool) : List Nat :=
  (List.range (bndSlots p cfg)).map (fun i =>
    let b := (pins.drop (bndOffset cfg + i * bndSlotW p cfg)).take (bndSlotW p cfg)
    msbValue b * 2 ^ (bndSlotW p cfg - b.length))

/-- MCLK of a master in Hz, where MCLK_EN is set: 256 or 512 times RATE; 512 times at 192 kHz acts as 256 times (R278). -/
def bndMclk (rf : RegFile) (p cfg : Nat) : Option Nat :=
  if Fld.BND.MCLK_CFG_MCLK_EN rf p = 0 then none
  else some (bndRate p cfg * (if Fld.BND.MCLK_CFG_X512 rf p = 1 ∧ bndRate p cfg ≠ 192000 then 512 else 256))

/-- The state of a port's pins: its clocks, and whether BND_DO carries data, being low otherwise (R283). -/
def State.bndPins (s : State) (p : Nat) : ClockPins × Bool :=
  let x := s.bndPort p
  if !x.running || bndInternal x.cfg then (.highZ, false)
  else (if bndMaster x.cfg then .driven (bndClock p x.cfg) (bndMclk s.regs p x.cfg) (bitOf x.cfg 6) else .inputs, !bndInput x.cfg)

/-- Show the pins of a port where they are in another state than in `old`. -/
def State.showPins (old : State) (s : State) (p : Nat) : State :=
  if s.bndPins p = old.bndPins p then s else s.emit (.audioPins p (s.bndPins p).1 (s.bndPins p).2)

/-- HOLD_FRAMES: below 1,024 acts as 1,024. -/
def State.bndHold (s : State) (p : Nat) : Nat := max 1024 (Fld.BND.HOLD_FRAMES s.regs p)

/-! ### Samples (R279 to R281) -/

/-- The sample index of an instant at a rate, with an offset in ns (R279). -/
def sampleIndex (rate : Nat) (ofs : Int) (t : Nat) : Nat := unsigned (Int.fdiv (((t : Int) - ofs) * rate + 500000000) 1000000000) 32

/-- The samples kept of a source: far more than the greatest LAT. -/
def audioDepth : Nat := 2048

/-- The samples of an index in a history. -/
def audioAt (h : List (Nat × List Nat)) (k : Nat) : Option (List Nat) := (h.find? (fun e => e.1 == k)).map (·.2)

/-- Keep the top `n` bits of a sample. -/
def topBits (n x : Nat) : Nat := x / 2 ^ (32 - n) * 2 ^ (32 - n)

/-- De-embedded samples of an SDI input, 24 bits each, with the index of their arrival (R281). -/
def State.deembed (s : State) (n : Nat) (audio : List (Nat × List Nat)) : State :=
  let h := SMap.get (fun _ => []) s.bnd.sdi n
  let h := audio.foldl (fun h a => (sampleIndex 48000 0 (s.time.count - a.1), a.2.map (fun x => x % 2 ^ 24 * 2 ^ 8)) :: h) h
  { s with bnd := { s.bnd with sdi := SMap.set (fun _ => []) s.bnd.sdi n (h.take audioDepth) } }

/-- A receiver. -/
def State.receiver (s : State) (r : Nat) : Receiver := SMap.get (fun _ => receiverReset) s.net.receivers r

/-- The history that a route's source offers, and its rate where it has one of its own (R280). -/
def State.routeSource (s : State) (kind index : Nat) : List (Nat × List Nat) × Option Nat :=
  match kind with
  | 1 => if (s.bndPort index).running then ((s.bndPort index).bus, some (bndRate index (s.bndPort index).cfg)) else ([], none)
  | 2 => (SMap.get (fun _ => []) s.bnd.sdi index, if index < 4 then some 48000 else none)
  | _ => ((s.receiver index).audio, none)

/-- The fields of a route; a port or an SDI input of index 4 to 15 is absent. -/
def routeKind (w : Nat) : Nat := listed Adr.BND.ROUTE_DATA (bits w 0 3) 4
def routeIndex (w : Nat) : Nat := bits w 8 4
def routeCh (w : Nat) : Nat := bits w 16 5

/-- Whether a route's source runs at another rate than this. -/
def State.routeMismatch (s : State) (rate w : Nat) : Bool :=
  routeKind w != 0 && match (s.routeSource (routeKind w) (routeIndex w)).2 with
    | some r => r != rate
    | none => false

/-- The sample a route delivers at a rate for source index `j`, none where it has not arrived or its source is absent (R280). -/
def State.routed (s : State) (rate w j : Nat) : Option Nat :=
  if routeKind w = 0 then some 0 else
  if s.routeMismatch rate w then some 0 else
  match audioAt (s.routeSource (routeKind w) (routeIndex w)).1 j with
  | some l => l[routeCh w]?
  | none => none

/-- The route of a slot. -/
def routeOf (routes : List (Nat × Nat)) (p slot : Nat) : Nat := SMap.get (fun _ => 0) routes (32 * p + slot)

/-! ### NONPCM (R282) -/

/-- Whether a pair of input samples is an IEC 61937 preamble. -/
def preamble (slots : List Nat) (i : Nat) : Bool := nth 0 slots (2 * i) / 2 ^ 16 == 0xF872 && nth 0 slots (2 * i + 1) / 2 ^ 16 == 0x4E1F

/-- The search of one pair: a preamble makes it NONPCM; a frame without one counts, in whatever format the port runs by then. -/
def State.searchPair (p : Nat) (slots : List Nat) (s : State) (i : Nat) : State :=
  let x := s.bndPort p
  if preamble slots i then (s.setBnd p { x with nonpcm := SMap.put x.nonpcm i 0 }).setFld (Adr.BND.NONPCM p) i 1 1
  else if bitOf (s.rd (Adr.BND.NONPCM p)) i then s.setBnd p { x with nonpcm := SMap.put x.nonpcm i (SMap.get (fun _ => 0) x.nonpcm i + 1) }
  else s

/-- NONPCM_HOLD_EXPIRY: after HOLD_FRAMES frames with no preamble the pair leaves NONPCM. -/
def nonpcmHoldExpiry (p i : Nat) (s : State) : State :=
  if bitOf (s.rd (Adr.BND.NONPCM p)) i = true ∧ s.bndHold p ≤ SMap.get (fun _ => 0) (s.bndPort p).nonpcm i then
    (s.setBnd p { s.bndPort p with nonpcm := SMap.del (s.bndPort p).nonpcm i }).setFld (Adr.BND.NONPCM p) i 1 0
  else s

/-! ### Audio frames (R276, R279, R280, R284) -/

/-- The samples of an input port's frame as its pins bring them. -/
def inputSamples (p cfg : Nat) (slots : List Nat) : List Nat :=
  (List.range (bndSlots p cfg)).map (fun i => topBits (bndDataW p cfg) (nth 0 slots i * 2 ^ (32 - bndSlotW p cfg)))

/-- The search of a frame: the pairs of an input port's slots for preambles; every pair that is NONPCM counts the frame. -/
def State.searchFrame (s : State) (p : Nat) (slots : List Nat) : State := (List.range 16).foldl (State.searchPair p slots) s

/-- The bus of an input port's frame, with NONPCM pairs muted where MUTE_NONPCM says so. -/
def State.inputBus (s : State) (p cfg : Nat) (v : List Nat) : List Nat :=
  v.zipIdx.map (fun e => if bitOf cfg 28 && bitOf (s.rd (Adr.BND.NONPCM p)) (e.2 / 2) then 0 else e.1)

/-- The bus of an output or internal port's frame k, and the samples that were late; `view` are the registers and routes it goes by. -/
def State.outputBus (s : State) (view : RegFile × List (Nat × Nat)) (p cfg k : Nat) : List Nat × Nat :=
  let j := (k + 2 ^ 32 - bndLat view.1 p) % 2 ^ 32
  let v := (List.range (bndSlots p cfg)).map (fun i => s.routed (bndRate p cfg) (routeOf view.2 p i) j)
  (v.map (fun x => topBits (bndDataW p cfg) (x.getD 0)), (v.filter (·.isNone)).length)

/-- CONFIG of the routes of a frame, once per run of frames with a source at another rate (R280). -/
def State.checkRoutes (s : State) (routes : List (Nat × Nat)) (p cfg : Nat) : State :=
  let x := s.bndPort p
  let bad := (List.range (bndSlots p cfg)).any (fun i => s.routeMismatch (bndRate p cfg) (routeOf routes p i))
  let s := s.setBnd p { x with rateRun := bad }
  if bad && !x.rateRun then s.fault (0x401 + p) 0x07 else s

/-- A port that is clocked by its own index: MASTER and LOCK (R279). -/
def bndLocked (cfg : Nat) : Bool := bndMaster cfg && bndLock cfg

/-- Whether a frame of a locked port can start at `t`: within one bit clock of floor(k × 10^9 / RATE) + PHASE_OFS of its index, and as no repetition of the frame
before (R279). -/
def onIndex (p cfg : Nat) (ofs : Int) (prev : Option Nat) (t : Nat) : Bool :=
  let k := Int.fdiv (((t : Int) - ofs) * bndRate p cfg + 500000000) 1000000000
  decide (((t : Int) - ofs - Int.fdiv (k * 1000000000) (bndRate p cfg)).natAbs * bndClock p cfg ≤ 1000000000) && prev != some (unsigned k 32)

/-- Whether a frame's index makes a slip: not later than the one before where the port is not locked, or a gap (R279). -/
def slipOf (cfg : Nat) (prev : Option Nat) (k : Nat) : Bool :=
  match prev with
  | none => false
  | some k0 => k != (k0 + 1) % 2 ^ 32 && (!bndLocked cfg || decide (serial 32 k k0 = .later))

/-- Whether a frame's samples are discarded. -/
def discardOf (cfg : Nat) (prev : Option Nat) (k : Nat) : Bool :=
  match prev with
  | none => false
  | some k0 => !bndLocked cfg && decide (serial 32 k k0 ≠ .later)

/-- Count a slip, and report SLIP once per run. -/
def State.countSlip (s : State) (p : Nat) (slip : Bool) : State :=
  let x := s.bndPort p
  let s := s.setBnd p { x with slipRun := slip }
  if slip then
    let s := s.bump (Adr.BND.SLIPS p)
    if x.slipRun then s else s.fault (0x401 + p) 0x20
  else s

/-- Whether SDI output n takes its audio from port p; whether a port's format lets it embed: 48 kHz with MASTER and LOCK; the form, ST 299-1 on 1.5G links and ST 299-2
on others (R281). -/
def State.embeds (s : State) (n p : Nat) : Bool :=
  let x := SMap.get (fun _ => sdiReset) s.sdi n
  Fld.BND.EMB_EN s.regs n == 1 && Fld.BND.EMB_PORT s.regs n == p && x.running && x.output && !x.refused
def embeddable (p cfg : Nat) : Bool := bndRate p cfg == 48000 && bndLocked cfg
def State.embedForm (s : State) (n : Nat) : Nat := if bits (SMap.get (fun _ => sdiReset) s.sdi n).fmt 4 4 = 0 then 1 else 2

/-- Embed a frame's slots into the SDI outputs that take them (R281). -/
def State.embed (s : State) (p cfg k : Nat) (slots : List Nat) : State :=
  if embeddable p cfg then
    (List.range 4).foldl (fun (s : State) n =>
      if s.embeds n p then s.emit (.sdiAudio n (s.embedForm n) k ((List.range 16).map (fun i => nth 0 slots (Fld.BND.EMB_SLOT0 s.regs n + i) / 2 ^ 8))) else s) s
  else s

/-- A port stops: its pins are as at reset (R283). -/
def State.stopBnd (s : State) (p : Nat) : State :=
  ((s.showPins ((s.setBnd p bndReset).setReg (Adr.BND.NONPCM p) 0) p).condOff (0x401 + p) (0x401 + p) 0x06)

/-- What a frame carries into the bus of a port, and what of it is late: `slots` are those of its data pin. -/
def State.frameBus (s : State) (view : RegFile × List (Nat × Nat)) (p cfg k : Nat) (slots : List Nat) : List Nat × State :=
  if bndInput cfg then
    let v := inputSamples p cfg slots
    let s := s.searchFrame p v
    (s.inputBus p cfg v, s)
  else
    let s := (s.searchFrame p []).checkRoutes view.2 p cfg
    let (v, late) := s.outputBus view p cfg k
    (v, s.bumpBy (Adr.BND.LATE_SAMPLES p) late)

/-- The frame of index k of a port, by the PORT_CFG word and the registers and routes of its start. -/
def State.runFrame (s : State) (view : RegFile × List (Nat × Nat)) (p cfg k : Nat) (pins : List Bool) : State :=
  let x := s.bndPort p
  let old := s
  let changed := bndFormat cfg != bndFormat x.cfg
  let prev := if bits cfg 8 3 != bits x.cfg 8 3 then none else x.k
  let s := s.setBnd p { x with cfg := cfg, k := some k, muted := if changed then 64 else x.muted }
  let s := (old.showPins s p).condOff (0x401 + p) (0x401 + p) 0x06
  let s := (s.countSlip p (slipOf cfg prev k)).bump (Adr.BND.FRAMES p)
  let (v, s) := s.frameBus view p cfg k (slotsOf p cfg pins)
  let x := s.bndPort p
  let drop := discardOf cfg prev k
  let v := if x.muted ≠ 0 ∨ drop = true then v.map (fun _ => 0) else v
  let s := s.setBnd p { x with muted := x.muted - 1, bus := if drop then x.bus else ((k, v) :: x.bus).take audioDepth }
  let out := v.map (fun a => a / 2 ^ (32 - bndSlotW p cfg))
  let s := if !bndInput cfg && !bndInternal cfg then
      s.emit (.audioOut p k (if bndMaster cfg then some (bndFs p cfg) else none) (bndOffset cfg) (out.flatMap (msbBits (bndSlotW p cfg))) out)
    else s
  s.embed p cfg k v

/-- AUDIO_FRAME: the frame-start edge was `age` ns ago (R275), and `pins` are the bits of BND_DI at each bit clock since (R276 to R284). A port that stops has completed
its last frame by then; a locked port starts a frame at its index alone. -/
def audioFrame (p age : Nat) (pins : List Bool) (s : State) : State :=
  let x := s.bndPort p
  if x.running && x.stopping then s.stopBnd p else
  if !x.running || s.holding 0x40 then s else
  let view := s.bndView ((s.elapsed : Int) - age)
  let cfg := view.1.fld (Adr.BND.PORT_CFG p) 0 32
  let ofs := signed (Fld.BND.PHASE_OFS view.1 p) 32
  let t := s.time.count - age
  if bndLocked cfg && !onIndex p cfg ofs x.k t then s else s.runFrame view p cfg (sampleIndex (bndRate p cfg) ofs t) pins

/-- BCLK_LOSS: a slave port with no bit clock reports LINK_DOWN (R278). -/
def bclkLoss (p : Nat) (s : State) : State :=
  let cfg := s.rd (Adr.BND.PORT_CFG p)
  if (s.bndPort p).running = true ∧ bndMaster cfg = false ∧ bndInternal cfg = false then s.condOn (0x401 + p) (0x401 + p) 0x06 else s

/-! ### Apply points (R72, R277, R280, R281) -/

/-- A running port is to stop: the frame in progress completes first, where there is one (R277, R283). -/
def State.endBnd (s : State) (p : Nat) : State :=
  let x := s.bndPort p
  if !x.running then s else if x.k.isNone then s.stopBnd p else s.setBnd p { x with stopping := true }

/-- One port at an apply point of the page: a configuration above the limit of the bit clock is refused (R277); one that is enabled and may not start reports CONFIG
(R72). -/
def State.applyBndPort (old : RegFile) (s : State) (p : Nat) : State :=
  let cfg := s.rd (Adr.BND.PORT_CFG p)
  let x := s.bndPort p
  if !bndClockFits p cfg then (s.endBnd p).fault (0x401 + p) 0x07
  else if !(s.enabled 0x40 && bitOf cfg 0) then s.endBnd p
  else if x.running then ({ s with regs := old } : State).showPins (s.setBnd p { x with stopping := false }) p
  else if s.hasFlow 0x400 || s.hasFlow (0x401 + p) then s.showPins (s.setBnd p { bndReset with running := true, cfg := cfg }) p
  else s.fault (0x401 + p) 0x07

/-- CONFIG of an SDI output that is to embed from a port whose format does not let it (R281). -/
def State.checkEmbed (s : State) (n : Nat) : State :=
  let p := Fld.BND.EMB_PORT s.regs n
  if s.embeds n p && !embeddable p (s.rd (Adr.BND.PORT_CFG p)) then s.fault (0x380 + 0x10 * n) 0x07 else s

/-- The BND page at an apply point. -/
def State.applyBnd (s : State) (old : RegFile) : State :=
  let s : State := { s with bnd := { s.bnd with routes := s.bnd.routeShadow, before := some { beat := s.elapsed, regs := old.page 0x40, routes := s.bnd.routes } } }
  (List.range 4).foldl State.checkEmbed ((List.range 4).foldl (State.applyBndPort old) s)

/-- ROUTE_DATA: a write goes to the shadow of the slot in ROUTE_SEL; a read shows the last written route of the slot (R3, R280). -/
def State.routeWrite (s : State) (v : Nat) : State :=
  let w := v % 8 + bits v 8 4 * 2 ^ 8 + bits v 16 5 * 2 ^ 16
  { s with bnd := { s.bnd with routeShadow := SMap.set (fun _ => 0) s.bnd.routeShadow (Fld.BND.ROUTE_SEL s.regs) w } }
def State.routeRead (s : State) : Nat := SMap.get (fun _ => 0) s.bnd.routeShadow (Fld.BND.ROUTE_SEL s.regs)

/-- CNT_RESTART of the BND page: bit p restarts port p's counters. -/
def bndCounters : List (List RegAddr) :=
  (List.range 4).map (fun p => [Adr.BND.FRAMES p, Adr.BND.SLIPS p, Adr.BND.LATE_SAMPLES p])

end Sys2Proof.Machine
end

