-- ==== Sys2Proof/Machine/Sundial.lean ====
section
/-! DEFINITION. Sundial: rates and genlock points, steps, references, servo, drift, timecode and pulses (13_sundial_network.md, R248 to R262). -/

namespace Sys2Proof.Machine

/-! ### Rates and genlock points (R229, R259) -/

/-- Numerator of a rate code of R229. -/
def rateNum (c : Nat) : Nat := nth 24 [24000, 24, 25, 30000, 30, 48000, 48, 50, 60000, 60] c

/-- Denominator of a rate code. -/
def rateDen (c : Nat) : Nat := nth 1 [1001, 1, 1, 1001, 1, 1001, 1, 1, 1001, 1] c

/-- Point k of a series of `num` points every `span` units of time: floor(k × span / num). -/
def pointAt (num span : Nat) (k : Int) : Int := Int.fdiv (k * (span : Int)) (num : Int)

/-- The index of the latest point at or before `t`. -/
def pointIndex (num span : Nat) (t : Int) : Int := Int.fdiv ((t + 1) * (num : Int) - 1) (span : Int)

/-- The index of the first point at or after `t`. -/
def pointFrom (num span : Nat) (t : Int) : Int := -(Int.fdiv (-(t * (num : Int))) (span : Int))

/-- The span of a genlock series in ns (R259). -/
def genlockSpan (den : Nat) : Nat := den * 1000000000

/-- Genlock point G_k of a rate code, in ns. -/
def genlockPoint (rate : Nat) (k : Int) : Int := pointAt (rateNum rate) (genlockSpan (rateDen rate)) k

/-- The index of the latest genlock point at or before `t`. -/
def genlockIndex (rate : Nat) (t : Int) : Int := pointIndex (rateNum rate) (genlockSpan (rateDen rate)) t

/-- The nanosecond count as it stands. -/
def State.ns (s : State) : Nat := s.time.count

/-- PTP time in 2^−16 ns. -/
def PtpTime.fine (t : PtpTime) : Nat := t.count * 65536 + t.frac

/-- Local time in 2^−16 ns as it stood so long ago, and as it will stand so much later (R34). -/
def State.fineBefore (s : State) (age : Nat) : Nat := s.time.fine - age
def State.fineAfter (s : State) (delay : Nat) : Nat := s.time.fine + delay

/-- The PTP time of a count in 2^−16 ns. -/
def PtpTime.ofFine (f : Nat) : PtpTime := { sec := f / 65536 / 1000000000, ns := f / 65536 % 1000000000, frac := f % 65536 }

/-- A quotient whose rounding the spec does not state: exact, or one of its two neighbours; a division by 0 gives an undefined value. -/
def State.looseDiv (s : State) (a b : Int) : Int × State :=
  if b = 0 then let (w, s) := s.drawWord; (w.toInt, s)
  else if Int.fmod a b = 0 then (Int.fdiv a b, s)
  else let (up, s) := s.drawBool; (Int.fdiv a b + (if up then 1 else 0), s)

/-! ### References (R252 to R254) -/

/-- A reference. -/
def State.ref (s : State) (r : Nat) : SunRef := SMap.get (fun _ => sunRefReset) s.sun.refs r

/-- Store a reference. -/
def State.setRef (s : State) (r : Nat) (x : SunRef) : State := { s with sun := { s.sun with refs := SMap.set (fun _ => sunRefReset) s.sun.refs r x } }

/-- REF_STAT.STATE of a reference (0 OFF, 1 ABSENT, 2 QUALIFYING, 3 QUALIFIED, 4 DRIFT); reference 0 has no register and is always QUALIFIED. -/
def State.refState (s : State) (r : Nat) : Nat := if r = 0 then 3 else Fld.SUN1.REF_STAT_STATE s.regs (r - 1)

/-- Set REF_STAT.STATE. -/
def State.setRefState (s : State) (r x : Nat) : State := s.setFld (Adr.SUN1.REF_STAT (r - 1)) 0 3 x

/-- POLICY of a reference (R258). -/
def State.refPolicy (s : State) (r : Nat) : Nat := listed (Adr.SUN1.REF_CFG (r - 1)) (Fld.SUN1.REF_CFG_POLICY s.regs (r - 1)) 3

/-- REF_PARAM.RATE as a rate code of R229. -/
def State.refRate (s : State) (r : Nat) : Nat := listed (Adr.SUN1.REF_PARAM (r - 1)) (Fld.SUN1.REF_PARAM_RATE s.regs (r - 1)) 10

/-- Word clock rates in Hz, by REF_PARAM.RATE: 44.1, 48, 96 and 192 kHz. -/
def wordRate (c : Nat) : Nat := nth 48000 [44100, 48000, 96000, 192000] c

/-- The alignment points of a PHASE reference, as points per span of 2^−16 ns, and whether each is a whole number of ns (R253). -/
def State.alignment (s : State) (r : Nat) : Nat × Nat :=
  if r = 5 then (10000000, 65536000000000)
  else if r = 6 then (wordRate (listed (Adr.SUN1.REF_PARAM 5) (Fld.SUN1.REF_PARAM_RATE s.regs 5) 4), 65536000000000)
  else (rateNum (s.refRate r), genlockSpan (rateDen (s.refRate r)))

/-- The alignment point of index k, in 2^−16 ns: a genlock point for references 2 to 4, a multiple of P for references 5 and 6. -/
def State.alignPoint (s : State) (r : Nat) (k : Int) : Int :=
  let a := s.alignment r
  if r = 5 ∨ r = 6 then pointAt a.1 a.2 k else pointAt a.1 a.2 k * 65536

/-- The signed distance from `x` to the nearest alignment point, in (−P/2, P/2] (R253). -/
def State.phaseOffset (s : State) (r : Nat) (x : Int) : Int :=
  let a := s.alignment r
  let k := if r = 5 ∨ r = 6 then pointIndex a.1 a.2 x else pointIndex a.1 a.2 (Int.fdiv x 65536)
  let before := s.alignPoint r k - x
  let after := s.alignPoint r (k + 1) - x
  if after ≤ -before then after else before

/-- REF_OFFSET in 2^−16 ns. -/
def State.refOffset (s : State) (r : Nat) : Int := signed (Fld.SUN1.REF_OFFSET s.regs (r - 1)) 32 * 65536

/-- An offset that does not fit s48 is an undefined s48 value. -/
def State.fitOffset (s : State) (e : Int) : Int × State :=
  if -(2 ^ 47 : Int) ≤ e ∧ e < 2 ^ 47 then (e, s) else
  let (lo, s) := s.drawWord
  let (hi, s) := s.drawWord
  (signed (lo.toNat + hi.toNat * 2 ^ 32) 48, s)

/-- A present reference yields the offset `e`, in 2^−16 ns (R253, R254). -/
def State.yieldOffset (s : State) (r : Nat) (e : Int) (pathDelay : Nat) : State :=
  if r = 0 ∨ s.refState r = 0 then s else
  let (e, s) := s.fitOffset e
  let x := s.ref r
  let s := s.setRef r { x with e := some e, fresh := true, count := x.count + 1, firstE := x.firstE.or (some (e, s.ns)), lastE := some (e, s.ns),
                               pathDelay := pathDelay }
  if s.refState r = 1 then s.setRefState r 2 else s

/-- A Sync, pulse, sync word, edge or TIME exchange of a reference has come (R252). -/
def State.noteRef (s : State) (r : Nat) : State := s.setRef r { s.ref r with seen := s.elapsed }

/-- REF_MEASUREMENT: an edge of a PHASE reference, or the time of a TIME reference (R253); any other event is none of the reference's. -/
def refMeasurement (r : Nat) (m : Measurement) (s : State) : State :=
  match m with
  | .edge age =>
    if 2 ≤ r ∧ r ≤ 6 then (s.noteRef r).yieldOffset r (s.phaseOffset r ((s.fineBefore age : Int) - s.refOffset r)) (s.ref r).pathDelay else s
  | .offset e d => if r = 1 ∨ r = 7 then (s.noteRef r).yieldOffset r (e + s.refOffset r) d else s

/-! ### Servo and selection (R255, R256, R258) -/

/-- HOLD_ADJ: the mean over the newest 64 GOOD periods of the record, halves rounded up; 0 with none. -/
def State.holdAdj (s : State) : Int :=
  let good := (s.sun.periods.filter (·.good)).take 64
  if good.isEmpty then 0 else Int.fdiv (2 * good.foldl (fun a p => a + p.adj) 0 + good.length) (2 * good.length)

/-- ADJ, as a signed number of fu. -/
def State.adj (s : State) : Int := signed (Fld.SUN0.ADJ s.regs) 32

/-- ADJ_LIM. -/
def State.adjLim (s : State) : Int := Fld.SUN0.ADJ_LIM s.regs

/-- Set ADJ, limited to ±ADJ_LIM (R249). -/
def State.setAdj (s : State) (x : Int) : State := s.setReg Adr.SUN0.ADJ (unsigned (sat x (-s.adjLim) s.adjLim) 32)

/-- Set SRV_STAT.STATE: 0 FREE, 1 LOCKING, 2 LOCKED, 3 HOLDOVER, 4 JUMP_HOLD. -/
def State.setServo (s : State) (x : Nat) : State := s.setFld Adr.SUN0.SRV_STAT 0 3 x

/-- The servo state. -/
def State.servo (s : State) : Nat := Fld.SUN0.SRV_STAT_STATE s.regs

/-- The selected reference; 0 for none. -/
def State.selected (s : State) : Nat := Fld.SUN0.SRV_STAT_SEL s.regs

/-- Enter HOLDOVER: ADJ and i_acc take HOLD_ADJ (R256). -/
def State.enterHoldover (s : State) : State :=
  if s.servo = 3 then s else
  let s := (s.setServo 3).setAdj s.holdAdj
  { s with sun := { s.sun with iAcc := s.holdAdj } }

/-- Whether a reference may be selected under AUTO (R255). -/
def State.candidate (s : State) (r : Nat) : Bool :=
  s.refState r == 3 || (s.refState r == 4 && s.selected == r && s.refPolicy r != 1)

/-- The better of two candidates: lower PRIO, then lower ID. -/
def State.betterRef (s : State) (best : Option Nat) (r : Nat) : Option Nat :=
  match best with
  | none => some r
  | some b => if Fld.SUN1.REF_CFG_PRIO s.regs (r - 1) < Fld.SUN1.REF_CFG_PRIO s.regs (b - 1) then some r else best

/-- The reference that R255 selects; 0 for none. -/
def State.choice (s : State) : Nat :=
  if s.isolated then 0 else
  if Fld.SUN1.SEL_CFG_AUTO s.regs = 1 then (([1, 2, 3, 4, 5, 6, 7].filter s.candidate).foldl s.betterRef none).getD 0
  else
    let f := Fld.SUN1.SEL_CFG_FORCE s.regs
    if f ≠ 0 ∧ 3 ≤ s.refState f then f else 0

/-- Selection (R255, R258, R334). -/
def State.reselect (s : State) : State :=
  let sel := s.choice
  let s := [1, 2, 3, 4, 5, 6, 7].foldl (fun (s : State) r => s.setFld (Adr.SUN1.REF_STAT (r - 1)) 8 1 (b2n (r == sel))) (s.setFld Adr.SUN0.SRV_STAT 4 3 sel)
  if sel = 0 then
    if s.servo = 0 ∧ s.isolated = false then s else s.enterHoldover.condOff 0x081 0x081 0x20
  else if s.refState sel = 4 ∧ s.refPolicy sel = 0 then s.enterHoldover
  else if s.servo = 0 ∨ s.servo = 3 then s.setServo 1 else s

/-- One run of the servo on an offset (R256). -/
def State.servoRun (s : State) (e : Int) : State :=
  let s := { s with sun := { s.sun with lastE := e } }
  let beyond : Bool := decide ((Fld.SUN0.JUMP_THRESH s.regs : Int) * 65536 < e.natAbs)
  let s := s.cond beyond 0x081 0x081 0x20
  if s.servo = 3 then s.setAdj s.holdAdj
  else if beyond then
    let s := (s.setServo 4).setAdj s.holdAdj
    { s with sun := { s.sun with iAcc := s.holdAdj } }
  else
    let i := sat (s.sun.iAcc + rshift e (Fld.SUN0.SRV_CFG_KI_SHIFT s.regs)) (-s.adjLim) s.adjLim
    let run := if e.natAbs ≤ 100 * 65536 then min 16 (s.sun.lockRun + 1) else 0
    let s := s.setAdj (i + rshift e (Fld.SUN0.SRV_CFG_KP_SHIFT s.regs))
    let s := { s with sun := { s.sun with iAcc := i, lockRun := run } }
    s.setServo (if run = 16 then 2 else 1)

/-- The servo's part of a round: it runs once where the selected reference delivered a new offset (R256), and ADJ joins the period's mean. -/
def State.servoRound (s : State) : State :=
  let s := { s with sun := { s.sun with adjSum := s.sun.adjSum + s.adj, adjRounds := s.sun.adjRounds + 1 } }
  let x := s.ref s.selected
  let s := if s.selected ≠ 0 ∧ x.fresh = true then
      match x.e with
      | some e => s.servoRun e
      | none => s
    else s
  { s with sun := { s.sun with refs := s.sun.refs.map (fun p => (p.1, { p.2 with fresh := false })) } }

/-- A reference is lost (R254). -/
def State.loseRef (s : State) (r : Nat) : State :=
  if r = 0 ∨ s.refState r < 2 then s else
  let was := s.refState r
  let s := ((s.setRef r sunRefReset).setReg (Adr.SUN1.REF_STAT (r - 1)) 1).condOff (0x090 + r) (0x090 + r) 0x20
  (if 3 ≤ was then s.condOn (0x090 + r) (0x090 + r) 0x21 else s).reselect

/-- References whose applied enable has changed start ABSENT or go OFF; reference 3 acts as OFF beside reference 2 (R252, R254). -/
def State.applySun1 (old : RegFile) (s : State) : State :=
  let on := fun (rf : RegFile) r => Fld.SUN1.REF_CFG_EN rf (r - 1) == 1 && !(r == 3 && Fld.SUN1.REF_CFG_EN rf 1 == 1)
  let conflict := fun (rf : RegFile) => Fld.SUN1.REF_CFG_EN rf 1 == 1 && Fld.SUN1.REF_CFG_EN rf 2 == 1
  let s := [1, 2, 3, 4, 5, 6, 7].foldl (fun (s : State) r =>
    if on s.regs r = true ∧ s.refState r = 0 then s.setRefState r 1
    else if on s.regs r = false ∧ s.refState r ≠ 0 then
      (((s.setRef r sunRefReset).setReg (Adr.SUN1.REF_STAT (r - 1)) 0).condOff (0x090 + r) (0x090 + r) 0x20).condOff (0x090 + r) (0x090 + r) 0x21
    else s) s
  let s := if conflict s.regs = true ∧ conflict old = false then s.fault 0x090 0x07 else s
  if s.selected ≠ 0 ∧ s.refState s.selected < 3 then s.reselect else s

/-! ### Frequency periods and slow drift (R253, R254, R257) -/

/-- FREQ of a reference over the period that ends, in fu; none with fewer than two offsets. -/
def State.periodFreq (s : State) (r : Nat) (mean : Int) : Option Int × State :=
  let x := s.ref r
  match x.firstE, x.lastE with
  | some (e0, t0), some (e1, t1) =>
    if x.count < 2 then (none, s) else
    let (slope, s) := s.looseDiv ((e1 - e0) * 15625000) ((t1 : Int) - t0)
    let f := mean + slope
    if -(2 ^ 31 : Int) ≤ f ∧ f < 2 ^ 31 then (some f, s) else let (w, s) := s.drawWord; (some w.toInt, s)
  | _, _ => (none, s)

/-- FREQ_r, as a signed number of fu. -/
def State.freq (s : State) (r : Nat) : Int := signed (Fld.SUN1.FREQ s.regs (r - 1)) 32

/-- OBS_INTERVAL: values below 4 act as 4. -/
def State.sunObsInterval (s : State) : Nat := max 4 (Fld.SUN1.OBS_INTERVAL s.regs)

/-- |FREQ_r| > TOL. -/
def State.outOfTol (s : State) (r : Nat) : Bool := decide (Fld.SUN1.TOL s.regs < (s.freq r).natAbs)

/-- Condition (b) MAJORITY, over the QUALIFIED references as they stood when the period ended. -/
def State.majority (s : State) (qualified : List Nat) (r : Nat) : Bool :=
  let o := qualified.filter (fun x => x != r)
  let far := o.filter (fun x => decide (Fld.SUN1.AGREE s.regs < (s.freq x - s.freq r).natAbs))
  decide (2 ≤ o.length) && decide (o.length < 2 * far.length)

/-- Qualification of one reference with a FREQ (R254). -/
def State.qualify (s : State) (r : Nat) : State :=
  if s.refState r ≠ 2 then s else
  let x := s.ref r
  let n := if s.outOfTol r then 0 else x.within + 1
  let s := s.setRef r { x with within := n, bad := 0, clear := 0 }
  if inRange Adr.SUN1.QUAL_TIME (Fld.SUN1.QUAL_TIME s.regs) 1 255 ≤ n then (s.setRefState r 3).condOff (0x090 + r) (0x090 + r) 0x21 else s

/-- The drift counts of one QUALIFIED or DRIFT reference with a FREQ (R257). -/
def State.driftCount (qualified : List Nat) (s : State) (r : Nat) : State :=
  if s.refState r < 3 then s else
  let c := s.outOfTol r || s.majority qualified r
  let x := s.ref r
  s.setRef r { x with bad := if c then x.bad + 1 else 0, clear := if c then 0 else x.clear + 1 }

/-- A reference enters DRIFT, and the periods of the run that declares it lose GOOD; or it returns to QUALIFIED (R257). -/
def State.driftDeclare (qualified : List Nat) (s : State) (r : Nat) : State :=
  let x := s.ref r
  let obs := s.sunObsInterval
  let sel := b2n (s.selected == r) * 256
  if s.refState r = 3 ∧ obs ≤ x.bad then
    let s := (s.setReg (Adr.SUN1.REF_STAT (r - 1)) (4 + b2n (s.outOfTol r) * 16 + b2n (s.majority qualified r) * 32 + sel)).condOn (0x090 + r) (0x090 + r) 0x20
    { s with sun := { s.sun with periods := (s.sun.periods.take obs).map (fun p => { p with good := false }) ++ s.sun.periods.drop obs } }
  else if s.refState r = 4 ∧ obs ≤ x.clear then (s.setReg (Adr.SUN1.REF_STAT (r - 1)) (3 + sel)).condOff (0x090 + r) (0x090 + r) 0x20
  else s

/-- Whether the period that ends is GOOD. -/
def State.goodPeriod (s : State) : Bool := s.servo == 2 && s.selected != 0 && (s.ref s.selected).bad == 0

/-- Add the period to the record, which covers the latest OBS_INTERVAL + 64 periods. -/
def State.recordPeriod (s : State) (mean : Int) (good : Bool) : State :=
  { s with sun := { s.sun with periods := ({ adj := mean, good := good } :: s.sun.periods).take (s.sunObsInterval + 64) } }

/-- FREQ of every present reference, with the references that have one. -/
def State.allFreq (mean : Int) (acc : List Nat × State) (r : Nat) : List Nat × State :=
  if acc.2.refState r < 2 then acc else
  match acc.2.periodFreq r mean with
  | (some f, s) => (acc.1 ++ [r], s.setReg (Adr.SUN1.FREQ (r - 1)) (unsigned f 32))
  | (none, s) => (acc.1, s)

/-- The accumulators of the period restart. -/
def State.newPeriod (s : State) : State :=
  { s with sun := { s.sun with adjSum := 0, adjRounds := 0,
                               refs := s.sun.refs.map (fun p => (p.1, { p.2 with count := 0, firstE := none, lastE := none })) } }

/-- FREQ_PERIOD_END: frequencies, qualification, drift, the record and selection, in this order (R253 to R257). -/
def freqPeriodEnd (s : State) : State :=
  let (mean, s) := if s.sun.adjRounds = 0 then (s.adj, s) else s.looseDiv s.sun.adjSum s.sun.adjRounds
  let (measured, s) := [1, 2, 3, 4, 5, 6, 7].foldl (State.allFreq mean) ([], s)
  let s := measured.foldl State.qualify s
  let qualified := [1, 2, 3, 4, 5, 6, 7].filter (fun r => s.refState r == 3)
  let s := measured.foldl (State.driftCount qualified) s
  let s := s.recordPeriod mean s.goodPeriod
  (measured.foldl (State.driftDeclare qualified) s).newPeriod.reselect

/-! ### Steps (R251) -/

/-- A STEP_CMD is taken unless one waits: BUSY is set and REFUSED cleared. -/
def State.acceptStep (s : State) (p : Step) : State :=
  if Fld.SUN0.STEP_STAT_BUSY s.regs = 1 then s else { (s.setReg Adr.SUN0.STEP_STAT 1) with sun := { s.sun with step := some p } }

/-- STEP_CMD STEP_MEASURED. -/
def stepMeasured (s : State) : State := s.acceptStep .measured

/-- STEP_CMD STEP_VALUE: the s64 value is taken at the write. -/
def stepValue (s : State) : State := s.acceptStep (.value (signed (s.rd Adr.SUN0.STEP_VALUE_LO + s.rd Adr.SUN0.STEP_VALUE_HI * 2 ^ 32) 64))

/-- STEP_CMD SET_TIME: SET_SEC and SET_NS are taken at the write. -/
def setTime (s : State) : State :=
  s.acceptStep (.set (s.rd Adr.SUN0.SET_SEC_LO + s.rd Adr.SUN0.SET_SEC_HI % 2 ^ 16 * 2 ^ 32) (s.rd Adr.SUN0.SET_NS % 2 ^ 30))

/-- The time after a step, in 2^−16 ns; none where it has no operand or its SET_NS is no nanosecond. -/
def State.stepTarget (s : State) : Step → Option Int
  | .measured => if s.selected = 0 then none else (s.ref s.selected).e.map (fun e => (s.time.fine : Int) + e)
  | .value ns => some ((s.time.fine : Int) + ns * 65536)
  | .set sec ns => if ns < 1000000000 then some (((sec * 1000000000 + ns : Nat) : Int) * 65536) else none

/-- Whether PTP time may stand there. -/
def goodTime (t : Int) : Bool := decide (0 ≤ t) && decide (t < 2 ^ 48 * 1000000000 * 65536)

/-- The points of LTC words and frame pulses that lie ahead again after a step are to come once more (R261, R262). -/
def State.pointsAgain (s : State) : State :=
  let behind := fun (rate : Nat) (ofs k : Int) => decide (genlockPoint rate k + ofs ≤ (s.ns : Int))
  { s with sun := { s.sun with
      ltcPoint := s.sun.ltcPoint.filter (behind (listed Adr.SUN0.TC_CFG (Fld.SUN0.TC_CFG_RATE s.regs) 10) (signed (Fld.SUN0.LTC_OFFSET s.regs) 32)),
      pulses := s.sun.pulses.filter (fun e =>
        behind (listed (Adr.SUN0.FP_CFG e.1) (Fld.SUN0.FP_CFG_RATE s.regs e.1) 10) (signed (Fld.SUN0.FP_OFFSET s.regs e.1) 32) e.2) } }

/-- A step that is not refused (R251). -/
def State.stepTo (s : State) (t : Int) : State :=
  let old := s.now
  let before := s.ns
  let s := { s with time := PtpTime.ofFine t.toNat }
  let s := (s.bump Adr.SUN0.STEP_COUNT).fireScheduled old true (decide (before ≤ s.ns))
  ({ s with sun := { s.sun with lastStep := (s.ns : Int) - before, lastStepAt := s.now, labels := [] } } : State).pointsAgain

/-- STEP_APPLY: the waiting step takes effect at the round boundary, or is refused (R251). -/
def stepApply (s : State) : State :=
  match s.sun.step with
  | none => s
  | some p =>
    let s : State := { s with sun := { s.sun with step := none } }
    match s.stepTarget p with
    | some t => if goodTime t then (s.setReg Adr.SUN0.STEP_STAT 0).stepTo t else s.setReg Adr.SUN0.STEP_STAT 2
    | none => s.setReg Adr.SUN0.STEP_STAT 2

/-! ### Timecode (R260) -/

/-- Two BCD digits. -/
def bcd (n : Nat) : Nat := n / 10 * 16 + n % 10

/-- The number of two BCD digits. -/
def unbcd (n : Nat) : Nat := n / 16 % 16 * 10 + n % 16

/-- A label: frames, seconds, minutes and hours in BCD, and DF in bit 31. -/
def tcLabel (df : Bool) (hh mm ss ff : Nat) : Nat := bcd ff + bcd ss * 2 ^ 8 + bcd mm * 2 ^ 16 + bcd hh * 2 ^ 24 + b2n df * 2 ^ 31

/-- The label of a count of frames since midnight, without dropping. -/
def plainLabel (base n : Nat) : Nat :=
  let sec := n / base
  tcLabel false (sec / 3600 % 24) (sec / 60 % 60) (sec % 60) (n % base)

/-- The number of a drop-frame label among the labels that exist; a dropped label counts as the next one. -/
def dropNumber (sec ff : Nat) : Nat :=
  let m := sec / 60
  let ff := if m % 10 ≠ 0 ∧ sec % 60 = 0 ∧ ff < 2 then 2 else ff
  sec * 30 + ff - 2 * (m - m / 10)

/-- The drop-frame label of a number (ST 12-1). -/
def dropLabel (n : Nat) : Nat :=
  let n := n % 2589408
  let r := n % 17982
  plainLabel 30 (n + 18 * (n / 17982) + (if 2 ≤ r then 2 * ((r - 2) / 1798) else 0)) + 2 ^ 31

/-- The base of a rate code's labels. -/
def tcBase (rate : Nat) : Nat := nth 24 [24, 24, 25, 30, 30, 24, 24, 25, 30, 30] rate

/-- Whether frames are labelled in pairs: rates above 30. -/
def tcPairs (rate : Nat) : Bool := decide (5 ≤ rate)

/-- Whether a rate can drop frames: 30000/1001 and 60000/1001. -/
def tcDrops (rate : Nat) : Bool := rate == 3 || rate == 8

/-- TC_CFG.RATE. -/
def State.tcRate (s : State) : Nat := listed Adr.SUN0.TC_CFG (Fld.SUN0.TC_CFG_RATE s.regs) 10

/-- The second of the local day at a time in ns (R260). -/
def State.localSecond (s : State) (t : Int) : Nat :=
  (Int.fmod (Int.fdiv t 1000000000 - signed (Fld.SUN0.TAI_UTC s.regs) 16 + signed (Fld.SUN0.LOCAL_OFS s.regs) 17) 86400).toNat

/-- JAM_TOD as it acts. -/
def State.jamTod (s : State) : Nat := inRange Adr.SUN0.JAM_TOD (Fld.SUN0.JAM_TOD s.regs) 0 86399

/-- The frames counted at genlock point `g` of index `k` under SRC 0: in its second, or at a rate with 1001 since the latest JAM_TOD. -/
def State.ptpCount (s : State) (k g : Int) : Nat :=
  let rate := s.tcRate
  if rateDen rate = 1 then (Int.fmod g 1000000000).toNat * rateNum rate / 1000000000
  else
    let from_ := (Int.fdiv g 1000000000 - ((s.localSecond g + 86400 - s.jamTod) % 86400 : Nat)) * 1000000000
    (k - pointFrom (rateNum rate) (genlockSpan (rateDen rate)) from_).toNat

/-- The label of genlock point `g` of index `k` under SRC 0; above 30 fps two frames share a label, the count's lowest bit being dropped. -/
def State.ptpLabel (s : State) (k g : Int) : Nat :=
  let rate := s.tcRate
  let n := if tcPairs rate then s.ptpCount k g / 2 else s.ptpCount k g
  let d := s.localSecond g
  if rateDen rate = 1 then tcLabel false (d / 3600) (d / 60 % 60) (d % 60) n
  else
    let jam := s.jamTod
    if Fld.SUN0.TC_CFG_DF s.regs = 1 ∧ tcDrops rate = true then dropLabel (dropNumber jam 0 + n) else plainLabel (tcBase rate) (jam * tcBase rate + n)

/-- Whether a label's digits make a label of this base. -/
def tcValid (base label : Nat) : Bool :=
  let ok := fun (lsb top : Nat) => decide (bits label lsb 4 ≤ 9) && decide (unbcd (bits label lsb 8) < top)
  ok 0 base && ok 8 60 && ok 16 60 && decide (bits label 24 4 ≤ 9) && decide (unbcd (bits label 24 6) < 24)

/-- The label one frame later, at a rate; the successor of what is no label is undefined. -/
def State.tcNext (s : State) (label : Nat) : Nat × State :=
  let rate := s.tcRate
  if tcValid (tcBase rate) label = false then let (w, s) := s.drawWord; (w.toNat, s) else
  let sec := unbcd (bits label 24 6) * 3600 + unbcd (bits label 16 8) * 60 + unbcd (bits label 8 8)
  let ff := unbcd (bits label 0 8)
  if bitOf label 31 = true ∧ tcDrops rate = true then (dropLabel (dropNumber sec ff + 1), s)
  else (plainLabel (tcBase rate) ((sec * tcBase rate + ff + 1) % (86400 * tcBase rate)) + b2n (bitOf label 31) * 2 ^ 31, s)

/-- TC_SET is loaded at the next genlock point (R260). -/
def tcSet (value : Nat) (s : State) : State := { s with sun := { s.sun with tcSet := some (value % 2 ^ 30 + b2n (bitOf value 31) * 2 ^ 31) } }

/-- The label of the frame after one, and whether it is the first of a pair: at rates above 30 every other frame keeps its label. -/
def State.labelNext (s : State) (label : Nat) (first : Bool) : (Nat × Bool) × State :=
  if first then ((label, false), s) else let (l, s) := s.tcNext label; ((l, tcPairs s.tcRate), s)

/-- The free-running timecode at a genlock point: a waiting TC_SET is loaded, else the label counts up. -/
def State.freeAdvance (s : State) : State :=
  match s.sun.tcSet with
  | some l => { s with timecode := l, sun := { s.sun with tcSet := none, pair := tcPairs s.tcRate } }
  | none =>
    let (l, s) := s.labelNext s.timecode s.sun.pair
    { s with timecode := l.1, sun := { s.sun with pair := l.2 } }

/-- TC_CFG.SRC. -/
def State.tcSource (s : State) : Nat := listed Adr.SUN0.TC_CFG (Fld.SUN0.TC_CFG_SRC s.regs) 3

/-- The label of the frame of a genlock point from its source. -/
def State.takeLabel (s : State) (k : Int) : State :=
  match s.tcSource with
  | 0 => { s with timecode := s.ptpLabel k (genlockPoint s.tcRate k), sun := { s.sun with pair := s.ptpCount k (genlockPoint s.tcRate k) % 2 == 0 } }
  | 1 =>
    let s : State := { s with sun := { s.sun with pair := tcPairs s.tcRate && k % 2 == 0 } }
    match s.sun.ltcIn with
    | some l => let (l, s) := s.tcNext l; { s with timecode := l }
    | none => s
  | _ => s.freeAdvance

/-- TIMECODE_ADVANCE at the genlock point reached latest (R260). The labels of as many frames stay known as LTC_OFFSET can reach back. -/
def timecodeAdvance (s : State) : State :=
  let k := genlockIndex s.tcRate s.ns
  let s := s.takeLabel k
  { s with sun := { s.sun with labels := ((k, s.timecode, s.sun.pair) :: s.sun.labels).take 160 } }

/-- LTC_WORD_IN: the word is the last complete one (R260). -/
def ltcWordIn (label : Nat) (s : State) : State := { s with sun := { s.sun with ltcIn := some label } }

/-- The genlock point of a rate, moved by an offset, that the present beat of 2 ns has reached, by its index (R259). -/
def State.pointNow (s : State) (rate : Nat) (ofs : Int) : Option Int :=
  let t := (s.ns : Int) - ofs
  let k := genlockIndex rate t
  if t - genlockPoint rate k < 2 then some k else none

/-- The label so many frames after one, as it will count up from what is known now. -/
def State.labelAhead : Nat → Nat × Bool → State → (Nat × Bool) × State
  | 0, l, s => (l, s)
  | n + 1, l, s => let (l, s) := s.labelNext l.1 l.2; State.labelAhead n l s

/-- The timecode of the frame at a genlock point, and whether the frame is the first of its pair (R260, R261): under SRC 0 computed from the point; else the label
that the frame was given, or for a frame still to come the one that the present label counts up to, from a TC_SET that waits. DEDUCED (assumption 179). -/
def State.labelAt (s : State) (k : Int) : (Nat × Bool) × State :=
  if s.tcSource = 0 then ((s.ptpLabel k (genlockPoint s.tcRate k), s.ptpCount k (genlockPoint s.tcRate k) % 2 == 0), s) else
  match s.sun.labels.find? (fun e => e.1 == k), s.sun.labels.head? with
  | some e, _ => (e.2, s)
  | none, some e =>
    if k < e.1 then ((s.timecode, s.sun.pair), s) else
    match (if s.tcSource = 2 then s.sun.tcSet else none) with
    | some l => State.labelAhead ((k - e.1).toNat - 1) (l, tcPairs s.tcRate) s
    | none => State.labelAhead (k - e.1).toNat e.2 s
  | none, none => ((s.timecode, s.sun.pair), s)

/-- LTC_WORD_OUT: with LTC_OUT_EN, once an enable has been applied, a word of the timecode starts at its frame's genlock point + LTC_OFFSET, at rate codes 5 to 9
one for each frame pair (R261). -/
def ltcWordOut (s : State) : State :=
  if s.enabled 0x08 = false ∨ Fld.SUN0.TC_CFG_LTC_OUT_EN s.regs = 0 then s else
  match s.pointNow s.tcRate (signed (Fld.SUN0.LTC_OFFSET s.regs) 32) with
  | some k =>
    let (l, s) := s.labelAt k
    if s.sun.ltcPoint = some k ∨ (tcPairs s.tcRate = true ∧ l.2 = false) then s
    else ({ s with sun := { s.sun with ltcPoint := some k } } : State).emit (.ltcWord l.1)
  | none => s

/-- FRAME_PULSE: the pin goes high for WIDTH × 64 ns from G_k + FP_OFFSET on (R262). -/
def framePulse (p : Nat) (s : State) : State :=
  if s.enabled 0x08 = false ∨ Fld.SUN0.FP_CFG_EN s.regs p = 0 then s else
  match s.pointNow (listed (Adr.SUN0.FP_CFG p) (Fld.SUN0.FP_CFG_RATE s.regs p) 10) (signed (Fld.SUN0.FP_OFFSET s.regs p) 32) with
  | some k =>
    if s.sun.pulses.contains (p, k) then s
    else ({ s with sun := { s.sun with pulses := SMap.put s.sun.pulses p k } } : State).emit (.framePulse p (Fld.SUN0.FP_CFG_WIDTH s.regs p * 64))
  | none => s

/-- The SUN0 page at an apply point: each pin leaves the state that it has had since reset as its own enable is first applied (R261, R262). A change of RATE or SRC
leaves the labels of earlier frames unknown. -/
def State.applySun0 (old : RegFile) (s : State) : State :=
  let s : State := if Fld.SUN0.TC_CFG_RATE old = Fld.SUN0.TC_CFG_RATE s.regs ∧ Fld.SUN0.TC_CFG_SRC old = Fld.SUN0.TC_CFG_SRC s.regs then s
    else { s with sun := { s.sun with labels := [] } }
  if s.enabled 0x08 then
    { s with sun := { s.sun with ltcIdle := s.sun.ltcIdle && Fld.SUN0.TC_CFG_LTC_OUT_EN s.regs == 0,
                                 fpIdle := s.sun.fpIdle.filter (fun p => Fld.SUN0.FP_CFG_EN s.regs p == 0) } }
  else s

/-- A write of ADJ_LIM: ADJ stays within the new limits (R249). -/
def State.setAdjLim (s : State) (v : Nat) : State := let s := s.setReg Adr.SUN0.ADJ_LIM (v % 2 ^ 31); s.setAdj s.adj

/-! ### Kiosk -/

/-- Selectors 0x10 to 0x12 of SUN0. -/
def State.sun0Kiosk (s : State) (sel : Nat) : Option (List Nat) :=
  if sel = 0x10 then some [s.time.ns, s.time.sec % 2 ^ 32, s.time.sec / 2 ^ 32 + s.time.frac * 2 ^ 16, s.now % 2 ^ 32, s.now / 2 ^ 32, s.timecode]
  else if sel = 0x11 then
    let d := unsigned s.sun.lastStep 64
    some [d % 2 ^ 32, d / 2 ^ 32, s.sun.lastStepAt % 2 ^ 32, s.sun.lastStepAt / 2 ^ 32]
  else if sel = 0x12 then
    let e := unsigned s.sun.lastE 64
    some [e % 2 ^ 32, e / 2 ^ 32, unsigned s.sun.iAcc 32, unsigned s.holdAdj 32]
  else none

/-- Selectors 0x10 + r of SUN1. -/
def State.sun1Kiosk (s : State) (sel : Nat) : Option (List Nat) :=
  if 0x11 ≤ sel ∧ sel ≤ 0x17 then
    let r := sel - 0x10
    let x := s.ref r
    let e := unsigned (x.e.getD 0) 64
    some [e % 2 ^ 32, e / 2 ^ 32, s.rd (Adr.SUN1.PARENT_ID_LO (r - 1)), s.rd (Adr.SUN1.PARENT_ID_HI (r - 1)), x.pathDelay, x.bad]
  else none

end Sys2Proof.Machine
end

