-- ==== Sys2Proof/Machine/Egress.lean ====
section
/-! DEFINITION. The Ethernet ports, their frames, the transparent clock, the egresses and the control transmit ring (13_sundial_network.md, R263 to R268). Frames
are lists of bytes from the destination MAC address up to, but not including, the FCS. -/

namespace Sys2Proof.Machine

/-! ### Ports (R72, R263) -/

/-- Page and unit of a port. -/
def ethPage (n : Nat) : Nat := 0x0A + n
def ethUnit (n : Nat) : Nat := 0x0A0 + 0x10 * n

/-- Whether a port runs. -/
def State.ethRuns (s : State) (n : Nat) : Bool := s.net.running.contains n

/-- Whether a port runs with block lock. -/
def State.ethUp (s : State) (n : Nat) : Bool := s.ethRuns n && Fld.ETH.LINK_STAT_UP s.regs n == 1

/-- ETH_LINK_DOWN: a running port without block lock reports LINK_DOWN. -/
def ethLinkDown (n : Nat) (s : State) : State :=
  if s.ethRuns n then (s.setReg (Adr.ETH.LINK_STAT n) 0).condOn (ethUnit n + 1) (ethUnit n + 1) 0x06 else s

/-- ETH_BLOCK_LOCK: the link of a running port comes up; FEC is ignored at 10 Gb/s. -/
def ethBlockLock (n : Nat) (fecLock : Bool) (s : State) : State :=
  if s.ethRuns n then
    let fec := fecLock && Fld.ETH.PORT_CFG_FEC s.regs n == 1 && Fld.ETH.PORT_CFG_SPEED s.regs n == 1
    (s.setReg (Adr.ETH.LINK_STAT n) (1 + 2 * b2n fec)).condOff (ethUnit n + 1) (ethUnit n + 1) 0x06
  else s

/-- A port's page at an apply point: it starts under R72, without block lock until the line gives it. -/
def State.applyEth (s : State) (n : Nat) : State :=
  if s.enabled (ethPage n) then
    if s.ethRuns n then s
    else if s.hasFlow (ethUnit n) then ethLinkDown n { s with net := { s.net with running := s.net.running ++ [n] } }
    else s.fault (ethUnit n) 0x07
  else if s.ethRuns n then
    (({ s with net := { s.net with running := s.net.running.erase n } } : State).setReg (Adr.ETH.LINK_STAT n) 0).condOff (ethUnit n + 1) (ethUnit n + 1) 0x06
  else s

/-! ### Frames -/

/-- A big-endian field of a frame. -/
def frameField (b : List Byte) (o n : Nat) : Nat := beNat ((b.drop o).take n)

/-- The offset of a frame's EtherType, behind one IEEE 802.1Q tag where it has one. -/
def typeOffset (b : List Byte) : Nat := if frameField b 12 2 = 0x8100 then 16 else 12

/-- The EtherType. -/
def etherType (b : List Byte) : Nat := frameField b (typeOffset b) 2

/-- The offset of an IPv4 header; none in another frame. -/
def ipOffset (b : List Byte) : Option Nat := if etherType b = 0x0800 then some (typeOffset b + 2) else none

/-- The IPv4 destination and source. -/
def ipDst (b : List Byte) : Option Nat := (ipOffset b).map (fun o => frameField b (o + 16) 4)
def ipSrc (b : List Byte) : Option Nat := (ipOffset b).map (fun o => frameField b (o + 12) 4)

/-- The offset of a UDP header. -/
def udpOffset (b : List Byte) : Option Nat :=
  match ipOffset b with
  | some o => if frameField b (o + 9) 1 = 17 then some (o + 4 * (frameField b o 1 % 16)) else none
  | none => none

/-- The UDP destination port. -/
def udpDst (b : List Byte) : Option Nat := (udpOffset b).map (fun o => frameField b (o + 2) 2)

/-- The offset of a PTPv2 message over UDP/IPv4 (ports 319 and 320). -/
def ptpUdp (b : List Byte) : Option Nat :=
  match udpOffset b with
  | some o => if (frameField b (o + 2) 2 = 319 ∨ frameField b (o + 2) 2 = 320) ∧ frameField b (o + 9) 1 % 16 = 2 then some (o + 8) else none
  | none => none

/-- The offset of any PTPv2 message: over UDP/IPv4, or under EtherType 0x88F7. -/
def ptpOffset (b : List Byte) : Option Nat :=
  if etherType b = 0x88F7 ∧ frameField b (typeOffset b + 3) 1 % 16 = 2 then some (typeOffset b + 2) else ptpUdp b

/-- The messageType of a PTP message: 0 Sync, 1 Delay_Req, 8 Follow_Up, 9 Delay_Resp. -/
def ptpType (b : List Byte) (o : Nat) : Nat := frameField b o 1 % 16

/-- Write big-endian bytes over a frame. -/
def putBe (b : List Byte) (o n v : Nat) : List Byte := overlay b o (beBytes n v)

/-! ### Transparent clock (R265, R266) -/

/-- The latencies and the asymmetry of a port, in 2^−16 ns. -/
def State.rxLat (s : State) (n : Nat) : Int := signed (Fld.ETH.RX_LAT s.regs n) 32
def State.txLat (s : State) (n : Nat) : Int := signed (Fld.ETH.TX_LAT s.regs n) 32
def State.ethAsym (s : State) (n : Nat) : Int := signed (Fld.ETH.ASYM s.regs n) 32

/-- The ingress stamp is the PCS stamp − RX_LAT; the egress stamp is the PCS stamp + TX_LAT (R265). -/
def State.ingress (s : State) (n stamp : Nat) : Int := (stamp : Int) - s.rxLat n
def State.egress (s : State) (n stamp : Nat) : Int := (stamp : Int) + s.txLat n

/-- A correctionField, and a sum as it is written: beyond the s64 range it is 0x7FFF_FFFF_FFFF_FFFF. -/
def correction (b : List Byte) (o : Nat) : Int := signed (frameField b (o + 8) 8) 64
def correctionCode (x : Int) : Nat := if -(2 ^ 63 : Int) ≤ x ∧ x < 2 ^ 63 then unsigned x 64 else 0x7FFFFFFFFFFFFFFF

/-- The 16-bit words of eight bytes. -/
def words16 (v : Nat) : List Nat := [v % 65536, v / 2 ^ 16 % 65536, v / 2 ^ 32 % 65536, v / 2 ^ 48 % 65536]

/-- A one's complement sum folded to 16 bits. -/
def fold16 (x : Nat) : Nat :=
  let y := x % 65536 + x / 65536
  y % 65536 + y / 65536

/-- The UDP checksum after eight aligned bytes change from `old` to `new`: HC' = ~(~HC + ~m + m') (RFC 1624); 0 is sent as 0xFFFF. -/
def checksum1624 (hc old new : Nat) : Nat :=
  let sum := (65535 - hc) + (words16 old).foldl (fun a m => a + (65535 - m)) 0 + (words16 new).foldl (· + ·) 0
  let r := 65535 - fold16 (fold16 sum)
  if r = 0 then 65535 else r

/-- Rewrite the correctionField of the message at `o`, with a non-zero UDP checksum updated (R266). -/
def rewriteCorrection (b : List Byte) (o : Nat) (x : Int) : List Byte :=
  let old := frameField b (o + 8) 8
  let new := correctionCode x
  let b' := putBe b (o + 8) 8 new
  match udpOffset b with
  | some u => if frameField b (u + 6) 2 = 0 then b' else putBe b' (u + 6) 2 (checksum1624 (frameField b (u + 6) 2) old new)
  | none => b'

/-- A forwarded frame as it leaves: a Sync or Delay_Req carries the residence time, from the ingress stamp to the egress stamp, and the asymmetry under TC_EN
(R266). -/
def State.transparent (s : State) (inPort outPort : Nat) (received sent : Int) (b : List Byte) : List Byte :=
  if Fld.ETH0.SW_CFG_TC_EN s.regs = 0 then b else
  match ptpOffset b with
  | none => b
  | some o =>
    if ptpType b o = 0 then rewriteCorrection b o (correction b o + (sent - received) + s.ethAsym inPort)
    else if ptpType b o = 1 then rewriteCorrection b o (correction b o + (sent - received) - s.ethAsym outPort)
    else b

/-! ### Senders' schedules (R269, R270) -/

/-- A sender. -/
def State.sender (s : State) (n : Nat) : Sender := SMap.get (fun _ => senderReset) s.net.senders n

/-- ESS of a sender: 0 video, 1 audio, 2 ancillary data. -/
def sndEss (rf : RegFile) (n : Nat) : Nat := listed (Adr.IPS.SND_CFG n) (Fld.IPS.SND_CFG_ESS rf n) 3

/-- The slots of a sender: PACE_NUM / PACE_DEN, or one per packet time for audio. -/
def sndPace (rf : RegFile) (n : Nat) : Nat × Nat :=
  if sndEss rf n = 1 then (if Fld.IPS.MEDIA_PTIME rf n = 1 then 8000 else 1000, 1) else (Fld.IPS.PACE_NUM rf n, Fld.IPS.PACE_DEN rf n)

/-- TRS in 2^−16 ns (R270); none where it divides by 0. -/
def trsOf (num den rNum rDen packets : Nat) : Option Nat :=
  if num * rDen * packets = 0 then none else some (den * 1000000000 * rNum * 65536 / (num * rDen * packets))

/-- TRS of a sender's frame; undefined where it divides by 0. -/
def State.sndTrs (s : State) (n : Nat) (f : SenderFrame) : Nat × State :=
  match trsOf (sndPace f.cfg n).1 (sndPace f.cfg n).2 (Fld.IPS.RACTIVE_NUM f.cfg n) (Fld.IPS.RACTIVE_DEN f.cfg n) f.packets with
  | some t => (t, s)
  | none => let (w, s) := s.drawWord; (w.toNat, s)

/-- The time packet j of a frame is scheduled at, G_k + TRO + j × TRS (R270). -/
def packetTime (n : Nat) (f : SenderFrame) (trs j : Nat) : Nat := (f.slot + Fld.IPS.TRO f.cfg n) * 65536 + j * trs

/-- The packet at whose scheduled time the next one leaves: itself, or under TYPE W the first of its burst. -/
def burstHead (n : Nat) (f : SenderFrame) : Nat :=
  let burst := inRange (Adr.IPS.BURST n) (Fld.IPS.BURST f.cfg n) 1 255
  if listed (Adr.IPS.SND_CFG n) (Fld.IPS.SND_CFG_TYPE f.cfg n) 3 = 2 then f.next / burst * burst else f.next

/-- A multicast IPv4 group, and its MAC address (RFC 1112). -/
def isGroup (ip : Nat) : Bool := ip / 2 ^ 28 == 14
def groupMac (ip : Nat) : Nat := 0x01005E000000 + ip % 2 ^ 23

/-- The group that a sender's frame goes to on a port. -/
def sndDst (n : Nat) (f : SenderFrame) (port : Nat) : Nat := if port = 0 then Fld.IPS.DST_IP_A f.cfg n else Fld.IPS.DST_IP_B f.cfg n

/-- The ports that a sender's packets leave on: its PATHS that lead to a multicast group, where the port is up (R269, R270). -/
def State.sndPorts (s : State) (n : Nat) (f : SenderFrame) : List Nat :=
  [0, 1].filter (fun port => bitOf (Fld.IPS.SND_CFG_PATHS f.cfg n) port && isGroup (sndDst n f port) && s.ethUp port)

/-- Whether a packet of a sender is due on a port. -/
def State.senderDue (s : State) (port : Nat) : Bool :=
  (List.range 16).any (fun n => match (s.sender n).frames with
    | f :: _ =>
      match trsOf (sndPace f.cfg n).1 (sndPace f.cfg n).2 (Fld.IPS.RACTIVE_NUM f.cfg n) (Fld.IPS.RACTIVE_DEN f.cfg n) f.packets with
      | some t => (s.sndPorts n f).contains port && decide (packetTime n f t (burstHead n f) ≤ s.time.fine)
      | none => false
    | [] => false)

/-! ### Egresses (R264) -/

/-- The line rate of a port in bits per second. -/
def State.lineRate (s : State) (port : Nat) : Nat := if Fld.ETH.PORT_CFG_SPEED s.regs port = 1 then 25000000000 else 10000000000

/-- The time a frame takes on a line, with its preamble, FCS and gap, in 2^−16 ns. -/
def State.lineTime (s : State) (port len : Nat) : Nat := (len + 24) * 8 * 65536 * 1000000000 / s.lineRate port

/-- Whether a port's line carries no frame. -/
def State.lineFree (s : State) (port : Nat) : Bool := decide (SMap.get (fun _ => 0) s.net.lineBusy port ≤ s.elapsed * 65536)

/-- A frame of `len` bytes starts on a port's line. -/
def State.takeLine (s : State) (port len : Nat) : State :=
  { s with net := { s.net with lineBusy := SMap.put s.net.lineBusy port (s.elapsed * 65536 + s.lineTime port len) } }

/-- Whether a frame's DSCP is set in HP_DSCP. -/
def State.highPriority (s : State) (b : List Byte) : Bool :=
  match ipOffset b with
  | some o => bitOf (Fld.ETH0.HP_DSCP_LO s.regs + Fld.ETH0.HP_DSCP_HI s.regs * 2 ^ 32) (frameField b (o + 1) 1 / 4)
  | none => false

/-- Whether a frame is of class 0: any frame to UDP 319 or 320, or under EtherType 0x88F7. -/
def ptpClass (b : List Byte) : Bool := etherType b == 0x88F7 || udpDst b == some 319 || udpDst b == some 320

/-- The class of a frame that is not a sender's. -/
def State.egressClass (s : State) (forwarded : Bool) (b : List Byte) : Nat := if ptpClass b then 0 else if forwarded && s.highPriority b then 2 else 3

/-- Whether the queue of a frame's class is full. An empty one has room for any frame (assumption 177). -/
def State.egressFull (s : State) (port cls len : Nat) : Bool :=
  let waiting := s.net.egress.filter (fun f => f.port == port && f.cls == cls)
  !waiting.isEmpty && Config.egressFull cls (waiting.map (fun f => f.bytes.length)) len

/-- A frame joins its queue. -/
def State.joinEgress (s : State) (f : EgressFrame) : State := { s with net := { s.net with egress := s.net.egress ++ [f] } }

/-- The frame that a free line serves next: of the highest class that has one ready, the oldest. Classes 2 and 3 let the packets of senders go first. -/
def State.nextEgress (s : State) (port : Nat) : Option EgressFrame :=
  let ready := s.net.egress.filter (fun f => f.port == port && decide (f.ready ≤ s.elapsed * 65536))
  match ready.find? (fun f => f.cls == 0) with
  | some f => some f
  | none => if s.senderDue port then none else (ready.find? (fun f => f.cls == 2)).or (ready.find? (fun f => f.cls == 3))

/-! ### The control transmit ring (R267, R268) -/

/-- Store the slave's exchange. -/
def State.setPtp (s : State) (p : PtpSlave) : State := { s with sun := { s.sun with ptp := p } }

/-- The DRAM address of a slot of a ring. -/
def slotAddr (unit slot : Nat) : Nat := unit * 4096 + slot * 2048

/-- The header of a slot: LENGTH, FLAGS, stamp, OFS. -/
def slotHeader (len flags : Nat) (t : PtpTime) (ofs : Nat) : List Byte := leBytes 2 len ++ leBytes 2 flags ++ leBytes 6 t.sec ++ leBytes 4 t.ns ++ leBytes 2 ofs

/-- One frame of the transmit ring leaves a port with its egress stamp, written into it where ONE_STEP asks; a Delay_Req on the slave's port waits for its answer
(R267). -/
def State.sendControl (s : State) (port flags ofs : Nat) (b : List Byte) : State :=
  let t := s.egress port s.time.fine
  let b := if bitOf flags 2 = true ∧ 26 ≤ ofs then
      let p := PtpTime.ofFine t.toNat
      let b := putBe (putBe b ofs 6 p.sec) (ofs + 6) 4 p.ns
      putBe b (ofs - 26) 8 (correctionCode (signed (frameField b (ofs - 26) 8) 64 + p.frac))
    else b
  let s := (s.bump (Adr.ETH.TX_FRAMES port)).emit (.ethFrame port b true)
  match ptpUdp b with
  | some o => if ptpType b o = 1 ∧ Fld.SUN1.REF_PARAM_PORT s.regs 0 = port then
      let id := frameField b (o + 30) 2
      s.setPtp { s.sun.ptp with requests := (id, t.toNat) :: s.sun.ptp.requests.filter (fun q => q.1 != id) } else s
  | none => s

/-- A frame leaves an egress (R264 to R268). -/
def State.leaveEgress (s : State) (f : EgressFrame) : State :=
  let s : State := { s with net := { s.net with egress := s.net.egress.erase f } }
  let sent := s.egress f.port s.time.fine
  let s := match f.source with
    | .forwarded inPort received => (s.bump (Adr.ETH.TX_FRAMES f.port)).emit (.ethFrame f.port (s.transparent inPort f.port received sent f.bytes) f.fcsOk)
    | .control flags ofs own =>
      let s := s.sendControl f.port flags ofs f.bytes
      if own then ({ s with net := { s.net with ctlOut := s.net.ctlOut.map (fun (c : ControlSlot) => { c with stamp := some (PtpTime.ofFine sent.toNat) }) } } : State) else s
  s.takeLine f.port f.bytes.length

/-- CTL_TX_RD moves past the slot that was being sent. -/
def State.passSlot (s : State) : State :=
  let n := Fld.ETH0.CTL_TX_SLOTS s.regs
  let s := s.setReg Adr.ETH0.CTL_TX_RD (if n = 0 then 0 else (Fld.ETH0.CTL_TX_RD s.regs + 1) % n)
  { s with net := { s.net with ctlOut := none } }

/-- What waits at a port that is not up is lost; a slot with TS_REQ stays in the ring, as it has no stamp yet (DEDUCED, assumption 178). -/
def State.loseEgress (s : State) (port : Nat) : State :=
  let lost := s.net.egress.filter (fun f => f.port == port)
  let s : State := { s with net := { s.net with egress := s.net.egress.filter (fun f => f.port != port) } }
  if lost.any (fun f => match f.source with
      | .control _ _ own => own
      | _ => false)
  then
    if s.net.ctlOut.any (fun c => bitOf c.flags 3) then ({ s with net := { s.net with ctlOut := none } } : State) else s.passSlot
  else s

/-- One port's egress: nothing passes while its clock is stopped (R18); a free line serves the next frame. -/
def State.serveEgress (port : Fin 2) (s : State) : State :=
  if s.stopped.contains (.ethernet port) then s
  else if !s.ethUp port then s.loseEgress port
  else if !s.lineFree port then s
  else match s.nextEgress port with
    | some f => s.leaveEgress f
    | none => s

/-- Whether the DRAM can be reached: no memory group is stopped. -/
def State.memoryRuns (s : State) : Bool := ([0, 1, 2, 3] : List (Fin 4)).all (fun g => !s.stopped.contains (.memGroup g))

/-- A copy of a slot's frame joins the queue of a port, or is dropped and counted. -/
def State.handCopy (slot : ControlSlot) (own : Nat) (b : List Byte) (s : State) (port : Nat) : State :=
  let cls := s.egressClass false b
  if s.egressFull port cls b.length then s.bump (Adr.ETH.DROPPED port) else
  let delay := s.net.ctlDelays.headD 0
  let s : State := { s with net := { s.net with ctlDelays := s.net.ctlDelays.drop 1 } }
  s.joinEgress { port := port, cls := cls, ready := s.elapsed * 65536 + delay, bytes := b, fcsOk := true, source := .control slot.flags slot.ofs (port == own) }

/-- The next slot of the transmit ring is handed to the egresses. A slot with TS_REQ waits until its PORT is up and has room, for CTL_TX_RD passes it only with
its stamp; any other is passed where no copy of its own PORT waits (R268; DEDUCED, assumption 178). -/
def State.handSlot (s : State) : State :=
  let a := slotAddr (Fld.ETH0.CTL_TX_UNIT s.regs) (Fld.ETH0.CTL_TX_RD s.regs)
  let h := s.loadBytes a 16
  let slot : ControlSlot := { len := fieldOf h 0 2, flags := fieldOf h 2 2, ofs := fieldOf h 14 2, stamp := none }
  let b := s.loadBytes (a + 16) (min slot.len 2032)
  let own := slot.flags % 2
  let room := s.ethUp own && !s.egressFull own (s.egressClass false b) b.length
  if b.isEmpty then s.passSlot
  else if bitOf slot.flags 3 && !room then s
  else
    let ports := ((own :: if bitOf slot.flags 4 then [1 - own] else []).filter s.ethUp)
    let s := ports.foldl (State.handCopy slot own b) s
    if room then ({ s with net := { s.net with ctlOut := some slot } } : State) else s.passSlot

/-- The transmit ring: a slot whose frame has left gets its stamp written back where TS_REQ asks, and CTL_TX_RD passes it; then the next slot is handed over. -/
def State.pumpControl (s : State) : State :=
  if !s.memoryRuns then s else
  match s.net.ctlOut with
  | some c =>
    match c.stamp with
    | some t =>
      let a := slotAddr (Fld.ETH0.CTL_TX_UNIT s.regs) (Fld.ETH0.CTL_TX_RD s.regs)
      let s := if bitOf c.flags 3 then s.storeSeen a (slotHeader c.len (c.flags ||| 2) t c.ofs) else s
      s.passSlot
    | none => s
  | none => if Fld.ETH0.CTL_TX_SLOTS s.regs = 0 ∨ Fld.ETH0.CTL_TX_RD s.regs = Fld.ETH0.CTL_TX_WR s.regs then s else s.handSlot

/-- The egresses and the transmit ring as time passes, and after a command that gives them work. -/
def State.serveNetwork (s : State) : State :=
  if s.net.egress.isEmpty && s.net.ctlOut.isNone && Fld.ETH0.CTL_TX_RD s.regs == Fld.ETH0.CTL_TX_WR s.regs then s
  else ((s.pumpControl.serveEgress 0).serveEgress 1).pumpControl

/-- CTL_TX_SEND: firmware advances CTL_TX_WR, and the frames leave in turn (R268); `delays` say how many 2^−16 ns the next copies take to be ready to leave. -/
def ctlTxSend (wr : Nat) (delays : List Nat) (s : State) : State :=
  let s := s.setReg Adr.ETH0.CTL_TX_WR (wr % 2 ^ 12)
  ({ s with net := { s.net with ctlDelays := if delays.isEmpty then s.net.ctlDelays else delays } } : State).serveNetwork

end Sys2Proof.Machine
end

