-- ==== Sys2Proof/Machine/Network.lean ====
section
/-! DEFINITION. The switch, the PTP slave and the control receive ring (13_sundial_network.md, R264 to R268). -/

namespace Sys2Proof.Machine

/-! ### Learning and forwarding (R264) -/

/-- The internal port's MAC address. -/
def State.ownMac (s : State) : Nat := Fld.ETH0.MAC_LO s.regs + Fld.ETH0.MAC_HI s.regs * 2 ^ 32

/-- Learn a source address on a line port, up to 1,024 entries. -/
def State.learn (s : State) (port mac : Nat) : State :=
  let others := s.net.macs.filter (fun e => e.mac != mac)
  if bitOf mac 40 || (others.length == s.net.macs.length && decide (1024 ≤ others.length)) then s
  else { s with net := { s.net with macs := others ++ [{ mac := mac, port := port, seen := s.ns }] } }

/-- MAC_AGE: an entry not seen for AGE_TIME goes. -/
def macAge (mac : Nat) (s : State) : State :=
  { s with net := { s.net with macs := s.net.macs.filter (fun e =>
      !(e.mac == mac && decide (e.seen + Fld.ETH0.AGE_TIME s.regs * 1000000000 ≤ s.ns))) } }

/-- An entry of the MC table. -/
def State.mcGroup (s : State) (i : Nat) : Nat := (SMap.get (fun _ => 0) s.net.groups i).toNat

/-- The group of a receiver's path: A is port 0 to GROUP_A, B is port 1 to GROUP_B (R273). -/
def rcvGroup (rf : RegFile) (r port : Nat) : Nat := if port = 0 then Fld.IPR.GROUP_A rf r else Fld.IPR.GROUP_B rf r

/-- Whether a receiver's path on a port takes packets from this source to this destination and UDP port: its group, or unicast to IP_ADDR (R269, R272, R273). -/
def State.addressed (s : State) (rf : RegFile) (r port src dst udp : Nat) : Bool :=
  bitOf (Fld.IPR.RCV_CFG_PATHS rf r) port && udp == Fld.IPR.UDP_DST rf r && (Fld.IPR.SRC_FILTER rf r == 0 || src == Fld.IPR.SRC_FILTER rf r) &&
    (dst == rcvGroup rf r port || (!isGroup dst && dst == Fld.ETH0.IP_ADDR s.regs))

/-- Whether an enabled receiver takes a frame that came by a port. -/
def State.takes (s : State) (r port : Nat) (b : List Byte) : Bool :=
  match ipSrc b, ipDst b, udpDst b with
  | some src, some dst, some udp => (s.receiver r).running && s.addressed s.regs r port src dst udp
  | _, _, _ => false

/-- Whether a multicast IPv4 group is one that the internal port receives. -/
def State.groupMatches (s : State) (ip : Nat) : Bool :=
  ip == 0xE0000181 || ip == 0xE000006B ||
  (List.range 64).any (fun i => s.mcGroup i == ip && ip != 0) ||
  (List.range 16).any (fun r => (s.receiver r).running &&
    ((bitOf (Fld.IPR.RCV_CFG_PATHS s.regs r) 0 && Fld.IPR.GROUP_A s.regs r == ip) ||
     (bitOf (Fld.IPR.RCV_CFG_PATHS s.regs r) 1 && Fld.IPR.GROUP_B s.regs r == ip)))

/-- Whether the internal port receives a frame. -/
def State.forInternal (s : State) (b : List Byte) : Bool :=
  let dst := frameField b 0 6
  if dst = 0xFFFFFFFFFFFF then true
  else if bitOf dst 40 then
    match ipDst b with
    | some ip => s.groupMatches ip
    | none => false
  else dst == s.ownMac

/-- Whether a frame from a line port goes to the other one. -/
def State.forOther (s : State) (port : Nat) (b : List Byte) : Bool :=
  let dst := frameField b 0 6
  if bitOf dst 40 then true
  else if dst = s.ownMac then false
  else match s.net.macs.find? (fun e => e.mac == dst) with
    | some e => e.port != port
    | none => true

/-- Cut-through: both ports run at the same speed, and the egress is idle. -/
def State.cutThrough (s : State) (port : Nat) : Bool :=
  Fld.ETH.PORT_CFG_SPEED s.regs port == Fld.ETH.PORT_CFG_SPEED s.regs (1 - port) && s.lineFree (1 - port) && s.net.egress.all (fun f => f.port == port)

/-- A frame joins the egress of the other line port, or is dropped there and counted; one with a bad FCS leaves, corrupted, only by cut-through. -/
def State.forward (s : State) (port : Nat) (f : EthFrame) : State :=
  let out := 1 - port
  let cls := s.egressClass true f.bytes
  if !s.ethUp out || (!f.fcsOk && !s.cutThrough port) then s else
  if s.egressFull out cls f.bytes.length then s.bump (Adr.ETH.DROPPED out) else
  (s.joinEgress { port := out, cls := cls, ready := s.elapsed * 65536 + f.egressDelay, bytes := f.bytes, fcsOk := f.fcsOk,
                  source := .forwarded port (s.ingress port (s.fineBefore f.age)) }).serveEgress (Fin.ofNat 2 out)

/-! ### PTP slave (R267) -/

/-- The port identity and domain of a message's source are the parent's. -/
def State.fromParent (s : State) (port : Nat) (b : List Byte) (o : Nat) : Bool :=
  s.refState 1 != 0 && Fld.SUN1.REF_PARAM_PORT s.regs 0 == port && Fld.SUN1.REF_PARAM_DOMAIN s.regs 0 == frameField b (o + 4) 1 &&
  frameField b (o + 20) 8 == s.rd (Adr.SUN1.PARENT_ID_LO 0) + s.rd (Adr.SUN1.PARENT_ID_HI 0) * 2 ^ 32 &&
  frameField b (o + 28) 2 == Fld.SUN1.PARENT_PORT s.regs 0

/-- A PTP timestamp at an offset, in 2^−16 ns. -/
def ptpStamp (b : List Byte) (o : Nat) : Int := ((frameField b o 6 * 1000000000 + frameField b (o + 6) 4 : Nat) : Int) * 65536

/-- meanPathDelay: the mean of the latest 16 exchanges, in 2^−16 ns. -/
def State.meanPathDelay (s : State) : Option Int :=
  let d := s.sun.ptp.delays
  if d.isEmpty then none else some (Int.fdiv (d.foldl (· + ·) 0) d.length)

/-- A Sync is complete: with a path delay known, reference 1 yields −offsetFromMaster (R253, R267). -/
def State.syncComplete (s : State) (down : Int) : State :=
  let s := s.setPtp { s.sun.ptp with sync := none, down := some down }
  match s.meanPathDelay with
  | some d => s.yieldOffset 1 (d - down + s.refOffset 1) (Int.fdiv d 65536).toNat
  | none => s

/-- What the slave makes of a message for the internal port (R267). -/
def State.ptpReceive (s : State) (port : Nat) (f : EthFrame) : State :=
  let b := f.bytes
  match ptpUdp b with
  | none => s
  | some o =>
    if !s.fromParent port b o then s else
    let p := s.sun.ptp
    let seq := frameField b (o + 30) 2
    let corr := correction b o
    match ptpType b o with
    | 0 =>
      let t2 := s.ingress port (s.fineBefore f.age)
      let s := s.noteRef 1
      let corr := corr + s.ethAsym port
      if bitOf (frameField b (o + 6) 1) 1 then s.setPtp { p with sync := some (seq, t2.toNat, corr) }
      else s.syncComplete (t2 - ptpStamp b (o + 34) - corr)
    | 8 =>
      match p.sync with
      | some (q, t2, c) => if q = seq then s.syncComplete ((t2 : Int) - ptpStamp b (o + 34) - c - corr) else s
      | none => s
    | 9 =>
      match p.requests.find? (fun q => q.1 == seq), p.down with
      | some q, some down =>
        let up := ptpStamp b (o + 34) - q.2 - corr + s.ethAsym port
        s.setPtp { p with requests := p.requests.erase q, delays := (Int.fdiv (down + up) 2 :: p.delays).take 16 }
      | _, _ => s
    | _ => s

/-! ### Control rings (R268) -/

/-- A frame goes into the control receive ring, or is dropped where the ring is full. -/
def State.toControl (s : State) (port : Nat) (f : EthFrame) : State :=
  let n := Fld.ETH0.CTL_RX_SLOTS s.regs
  let wr := Fld.ETH0.CTL_RX_WR s.regs
  if n = 0 ∨ (wr + 1) % n = Fld.ETH0.CTL_RX_RD s.regs then
    let s := s.bump Adr.ETH0.CTL_DROPPED
    let s := if s.net.ctlRun then s else s.fault 0x0A4 0x20
    { s with net := { s.net with ctlRun := true } }
  else
    let t := PtpTime.ofFine (s.ingress port (s.fineBefore f.age)).toNat
    let s := s.storeSeen (slotAddr (Fld.ETH0.CTL_RX_UNIT s.regs) wr) (slotHeader f.bytes.length (port + 2) t 0 ++ f.bytes)
    { s.setReg Adr.ETH0.CTL_RX_WR ((wr + 1) % n) with net := { s.net with ctlRun := false } }

/-- Whether a good frame goes to the control receive ring: one for the internal port that no receiver takes (R268). -/
def State.controlTakes (s : State) (port : Nat) (b : List Byte) : Bool := s.forInternal b && !(List.range 16).any (fun r => s.takes r port b)

/-- ETH_FRAME_RECEIVE (R263 to R268). -/
def ethFrameReceive (port : Nat) (f : EthFrame) (s : State) : State :=
  if !s.ethUp port || s.holding (ethPage port) then s else
  let s := s.bump (Adr.ETH.RX_FRAMES port)
  if 1522 < f.bytes.length + 4 then s.bump (Adr.ETH.OVERSIZE port) else
  if !f.fcsOk then
    let s := s.bump (Adr.ETH.FCS_ERR port)
    if s.forOther port f.bytes then s.forward port f else s
  else if etherType f.bytes = 0x8808 then s
  else
    let s := s.learn port (frameField f.bytes 6 6)
    let s := if s.forOther port f.bytes then s.forward port f else s
    let s := if s.forInternal f.bytes then s.ptpReceive port f else s
    if s.controlTakes port f.bytes then s.toControl port f else s

/-- MC_GROUP reads and writes the entry in MC_SEL. -/
def State.mcRead (s : State) : Nat := s.mcGroup (Fld.ETH0.MC_SEL s.regs)
def State.mcWrite (s : State) (v : Nat) : State :=
  { s with net := { s.net with groups := SMap.set (fun _ => 0) s.net.groups (Fld.ETH0.MC_SEL s.regs) (BitVec.ofNat 32 v) } }

/-- The counters that CNT_RESTART of an ETH page restarts. -/
def ethCounters (n : Nat) : List (List RegAddr) :=
  [[Adr.ETH.RX_FRAMES n, Adr.ETH.TX_FRAMES n, Adr.ETH.FCS_ERR n, Adr.ETH.OVERSIZE n, Adr.ETH.DROPPED n] ++ (if n = 0 then [Adr.ETH0.CTL_DROPPED] else [])]

end Sys2Proof.Machine
end

