-- ==== Sys2Proof/Machine/Video.lean ====
section
/-! DEFINITION. The SDI transceivers and the Belvedere panel outputs (12_video_io.md, R229 to R247). -/

namespace Sys2Proof.Machine

/-! ### SDI formats (R229) -/

/-- A transceiver, and storing one. -/
def State.sdiOf (s : State) (n : Nat) : Sdi := SMap.get (fun _ => sdiReset) s.sdi n
def State.setSdi (s : State) (n : Nat) (x : Sdi) : State := { s with sdi := SMap.set (fun _ => sdiReset) s.sdi n x }

/-- Page and unit of a transceiver. -/
def sdiPage (n : Nat) : Nat := 0x38 + n
def sdiUnit (n : Nat) : Nat := 0x380 + 0x10 * n

/-- Fields of a FMT word. -/
def fmtRaster (f : Nat) : Nat := bits f 0 4
def fmtLink (f : Nat) : Nat := bits f 4 4
def fmtSampling (f : Nat) : Nat := bits f 8 2
def fmtRate (f : Nat) : Nat := bits f 16 4
/-- Bits per sample. -/
def fmtDepth (f : Nat) : Nat := if bitOf f 12 then 12 else 10

/-- Whether the combination is a row of the table of R229. -/
def fmtGood (f : Nat) : Bool :=
  let low := decide (fmtRate f ≤ 4)
  let high := decide (5 ≤ fmtRate f) && decide (fmtRate f ≤ 9)
  let plain := fmtSampling f == 0 && !bitOf f 12
  let full := fmtSampling f == 1 || fmtSampling f == 2
  let two := (high && plain) || (low && full)
  match fmtLink f with
  | 0 => decide (fmtRaster f ≤ 1) && low && plain
  | 1 => decide (fmtRaster f ≤ 1) && two
  | 2 => decide (fmtRaster f ≤ 1) && high && plain
  | 3 => (fmtRaster f == 2 || fmtRaster f == 3) && low && plain
  | 4 => (fmtRaster f == 2 || fmtRaster f == 3) && two
  | 5 => (fmtRaster f == 4 || fmtRaster f == 5) && two
  | _ => false

/-- Width and height of a raster code. -/
def rasterSize (r : Nat) : Nat × Nat := nth (0, 0) [(1920, 1080), (2048, 1080), (3840, 2160), (4096, 2160), (7680, 4320), (8192, 4320)] r

/-- Samples in an active line. -/
def fmtSamples (f : Nat) : Nat := (rasterSize (fmtRaster f)).1 * (if fmtSampling f = 0 then 2 else 3)

/-- The buffer FMT of R170 that a sampling uses: 2 for 4:2:2, 1 for YCbCr 4:4:4, 0 for RGB. -/
def bufFmt (sampling : Nat) : Nat := 2 - sampling

/-- A narrow-range black line of `count` samples at n bits, in the order of R170 (R232). -/
def blackLine (sampling n count : Nat) : List Nat :=
  let y := 2 ^ (n - 4)
  let c := 2 ^ (n - 1)
  (List.range count).map (fun i =>
    if sampling = 0 then (if i % 2 = 0 then c else y) else if sampling = 1 then (if i % 3 = 1 then y else c) else y)

/-- QUAD is in effect: SDI0 runs as one quad-link port (R230). -/
def State.quad (s : State) : Bool := Fld.SDI.CFG_QUAD s.regs 0 == 1 && s.enabled (sdiPage 0)

/-- The sub-image of a quad link that carries pixel pair `i` of row `y` (two-sample interleave). -/
def subImage (y i : Nat) : Nat := 2 * (y % 2) + i % 2

/-- FMT as the transceiver may use it: a row of R229, with LINK 5 where and only where the port is a quad. -/
def State.sdiFits (s : State) (n f : Nat) : Bool := fmtGood f && ((fmtLink f == 5) == (n == 0 && s.quad))

/-! ### SDI output (R231 to R235) -/

/-- OUT_OFFSET, and the genlock point of a rate that an output has reached, by its index (R231, R259). -/
def State.outOffset (s : State) (n : Nat) : Int := signed (Fld.SDI.OUT_OFFSET s.regs n) 32
def State.outPoint (s : State) (n fmt : Nat) : Int := genlockIndex (fmtRate fmt) ((s.ns : Int) - s.outOffset n)

/-- The index before the first genlock point that is not earlier than `t`, less OUT_OFFSET. -/
def pointBefore (fmt : Nat) (t : Int) : Int := pointFrom (rateNum (fmtRate fmt)) (genlockSpan (rateDen (fmtRate fmt))) t - 1

/-- The start of the next frame in short time. -/
def Sdi.slotAt (x : Sdi) : Nat := slotTime x.start (rateNum (fmtRate x.fmt)) (rateDen (fmtRate x.fmt)) x.n

/-- Why an output sends black (R232): nothing to send, or a mismatch. -/
inductive OutChoice where
  | black | mismatch | content (b : BufFrame)
deriving DecidableEq, Repr

/-- What an output sends in a frame of format `f` (R232). -/
def State.outChoice (s : State) (bound : Bool) (v sampling n : Nat) (size : Nat × Nat) : OutChoice :=
  let x := s.view v
  if !bound || !x.running || !x.fresh then .black else
  match s.newestOf (viewSource v) with
  | none => .black
  | some b =>
    if b.fmt = bufFmt sampling ∧ depthBits b.depth = n ∧ (b.width, b.height) = size then .content b else .mismatch

/-- The samples of a buffer's row, and the error responses that its read meets. -/
def State.rawRow (s : State) (b : BufFrame) (bad : BadBeats) (count y : Nat) : List Nat × List Nat :=
  let n := depthBits b.depth
  let len := rowBytes b.fmt n b.width count
  let a := b.addr + y * b.pitch
  (unpackRow b.fmt n count (s.dramRead a len), (s.spanError a len).toList ++ badsIn bad a len)

/-- Limit a sample so that no timing reference code appears (R233). -/
def limitSample (n v : Nat) : Nat := min (max v (2 ^ (n - 8))) (2 ^ n - 2 ^ (n - 8) - 1)

/-- The rows an output sends of a buffer: limited, with the lines that a failed read affects black; whether a sample was limited; the error responses, each once.
`bad` are the beats whose reads ended in one (R232, R233). -/
def State.outRows (s : State) (b : BufFrame) (sampling n count : Nat) (bad : BadBeats) : List (List Nat) × Bool × List Nat :=
  let raw := (List.range b.height).map (s.rawRow b bad count)
  let rows := raw.map (fun r => if r.2.isEmpty then r.1.map (limitSample n) else blackLine sampling n count)
  let limited := raw.any (fun r => r.2.isEmpty && r.1.any (fun v => limitSample n v != v))
  (rows, limited, distinct (raw.flatMap (·.2)))

/-- The payload ID of a FMT with the descriptor's colorimetry, TF and range: TF 3 is signalled as unspecified (R233). -/
def payloadId (fmt col tf range : Nat) : PayloadId :=
  { link := fmtLink fmt, rate := fmtRate fmt, sampling := fmtSampling fmt, depth12 := bitOf fmt 12, colorimetry := col,
    tf := if tf = 3 then none else some tf, range := range }

/-- Active line `y` of a link in its data streams: from line 42 on of 1,125 lines, which carry several rows where a link's picture has more (R233). -/
def lineNumber (rows y : Nat) : Nat := 42 + y * 1080 / max rows 1

/-- A 10-bit word of a line CRC x^18 + x^5 + x^4 + 1, least significant bit first. -/
def crc18Word (c w : Nat) : Nat :=
  (List.range 10).foldl (fun c k => if (c + bits w k 1) % 2 = 1 then (c / 2) ^^^ 0x23000 else c / 2) c

/-- The line CRC of a data stream: its active words, the EAV, and the two words of the line number (R233). -/
def lineCrc (number : Nat) (words : List Nat) : Nat :=
  let ln (v : Nat) : Nat := v + (if bitOf v 8 then 0 else 2 ^ 9)
  (words ++ [0x3FF, 0, 0, 0x274, ln (number % 128 * 4), ln (number / 128 * 4)]).foldl crc18Word 0

/-- Send a frame: on a quad link each link carries its sub-image (R230). Line numbers and line CRCs are inserted (R233). -/
def State.sendSdi (s : State) (n fmt : Nat) (black : Bool) (col tf range : Nat) (rows : List (List Nat)) : State :=
  let out (k : Nat) (rows : List (List Nat)) : Output :=
    let numbers := (List.range rows.length).map (lineNumber rows.length)
    .sdiFrame k fmt black (payloadId fmt col tf range) rows numbers ((numbers.zip rows).map (fun e => (Config.sdiStreams fmt e.2).map (lineCrc e.1)))
  if fmtLink fmt = 5 then
    let pair := if fmtSampling fmt = 0 then 4 else 6
    (List.range 4).foldl (fun (s : State) k =>
      let sub := (rows.zipIdx.filter (fun r => r.2 % 2 == k / 2)).map (fun r =>
        ((chunks pair r.1.length r.1).zipIdx.filter (fun p => subImage r.2 p.2 == k)).flatMap (·.1))
      s.emit (out k sub)) s
  else s.emit (out n rows)

/-- The hold of the frame that ends is let go. -/
def State.endSdiFrame (s : State) (n : Nat) : State :=
  let x := s.sdiOf n
  let s := s.setSdi n { x with frame := none }
  match x.frame with
  | some { source := some (src, i), .. } => s.letGo src (sdiUnit n) i
  | _ => s

/-- When the frame that has just started ends: at the next slot, or the next genlock point, in ns. -/
def State.sdiFrameEnd (s : State) (n : Nat) : Int :=
  let x := s.sdiOf n
  if Fld.SDI.CFG_GENLOCK s.regs n = 1 then genlockPoint (fmtRate x.fmt) (x.point + 1) + s.outOffset n
  else (s.ns : Int) + shortFwd s.now x.slotAt

/-- The schedule a frame start uses: a new FMT starts a new one at the end of the old frame, with BLACK_FRAMES frames of black (R235). -/
def Sdi.restart (x : Sdi) (fmt black : Nat) : Sdi :=
  if fmt = x.fmt then x else { x with fmt := fmt, start := x.slotAt, n := 0, blackLeft := min 8 black }

/-- One frame of an output at its start (R232, R233). -/
def State.outFrame (s : State) (n : Nat) (read : BadBeats) : State :=
  let x := s.sdiOf n
  let f := x.fmt
  let depth := fmtDepth f
  let size := rasterSize (fmtRaster f)
  let v := Fld.SDI.SRC_VIEW s.regs n
  let choice := if x.blackLeft ≠ 0 then .black else s.outChoice (Fld.SDI.SRC_BOUND s.regs n == 1) v (fmtSampling f) depth size
  let s := s.setSdi n { x with n := x.n + 1, point := s.outPoint n f, blackLeft := x.blackLeft - 1, mismatchRun := choice == .mismatch }
  let frame : SdiOut := { fmt := f, source := none, ends := s.sdiFrameEnd n }
  let s := s.setSdi n { s.sdiOf n with frame := some frame }
  let s := s.bump (Adr.SDI.FRAMES n)
  let black := List.replicate size.2 (blackLine (fmtSampling f) depth (fmtSamples f))
  match choice with
  | .black => s.sendSdi n f true 0 0 0 black
  | .mismatch =>
    let s := s.bump (Adr.SDI.MISMATCH n)
    (if x.mismatchRun then s else s.fault (sdiUnit n) 0x07).sendSdi n f true 0 0 0 black
  | .content b =>
    let (rows, limited, failed) := s.outRows b (fmtSampling f) depth (fmtSamples f) read
    let s := (s.setSdi n { s.sdiOf n with frame := some { frame with source := some (viewSource v, b.index) } }).holdBuf (viewSource v) (sdiUnit n) b.index
    let s := if limited then s.bump (Adr.SDI.CLAMPED n) else s
    let s := failed.foldl (fun (s : State) c => s.upstream (sdiUnit n) c) s
    s.sendSdi n f false b.colorimetry b.tf b.range rows

/-- Whether an output's next frame start has come: its slot, or under GENLOCK a genlock point after that of the latest frame (R231, R259). -/
def State.outDue (s : State) (n : Nat) : Bool :=
  let x := s.sdiOf n
  if Fld.SDI.CFG_GENLOCK s.regs n = 1 then decide (x.point < s.outPoint n x.fmt) else s.reached x.slotAt

/-- A new FMT under GENLOCK: the old frame ends at the next point of its rate, and black lines of the new format fill the time to the first point of the new
rate (R235). -/
def State.regenlock (s : State) (n fmt : Nat) : State :=
  let x := s.sdiOf n
  let t0 := genlockPoint (fmtRate x.fmt) (x.point + 1)
  let before := pointBefore fmt t0
  let gap := genlockPoint (fmtRate fmt) (before + 1) - t0
  let s := s.setSdi n { x.restart fmt (Fld.SDI.CFG_BLACK_FRAMES s.regs n) with point := before }
  if 0 < gap then s.emit (.sdiFill n fmt gap.toNat) else s

/-- SDI_OUT_FRAME_START: the frame before has ended, and the output's next frame starts at its slot, or at a genlock point under GENLOCK (R231, R232);
an output that has been disabled, or bound to a quad-link port, only completes the frame in progress (R230, R234), and so does one whose next start has not come: a
frame of before the enable then ends in its time. -/
def sdiOutFrameStart (n : Nat) (read : BadBeats) (s : State) : State :=
  let x := s.sdiOf n
  if !x.running || !x.output || (n != 0 && s.quad) then (if x.frame.isSome then s.endSdiFrame n else s)
  else if x.refused || !s.outDue n then (if x.frame.any (fun f => decide (f.ends ≤ (s.ns : Int))) then s.endSdiFrame n else s)
  else
    let s := s.endSdiFrame n
    if s.holding (sdiPage n) then s.setSdi n { s.sdiOf n with n := x.n + 1, point := s.outPoint n x.fmt } else
    let fmt := s.rd (Adr.SDI.FMT n)
    if Fld.SDI.CFG_GENLOCK s.regs n = 1 ∧ fmt ≠ x.fmt then
      let s := s.regenlock n fmt
      if s.outDue n then (s.outFrame n read).frameStart 3 n else s
    else
      let s := s.setSdi n ((s.sdiOf n).restart fmt (Fld.SDI.CFG_BLACK_FRAMES s.regs n))
      (s.outFrame n read).frameStart 3 n

/-! ### SDI input (R236 to R239) -/

/-- The format of a received frame as a FMT word: the sampling and depth are those of the payload ID, 4:2:2 10-bit where it is absent (R236). -/
def sdiFmtWord (f : SdiFrame) : Nat :=
  f.raster + f.link * 2 ^ 4 + f.rate * 2 ^ 16 + match f.pid with
    | some p => p.sampling * 2 ^ 8 + b2n p.depth12 * 2 ^ 12
    | none => 0

/-- Whether two FMT words have the same timing: raster, link and rate. -/
def sameTiming (f g : Nat) : Bool := fmtRaster f == fmtRaster g && fmtLink f == fmtLink g && fmtRate f == fmtRate g

/-- Whether R229 lists a signal: its sampling and depth are those of its payload ID, and where that is absent any. -/
def State.sdiListed (s : State) (n : Nat) (f : SdiFrame) : Bool :=
  let w := sdiFmtWord f
  if f.pid.isSome then s.sdiFits n w else (List.range 3).any (fun k => s.sdiFits n (w + k * 2 ^ 8) || s.sdiFits n (w + k * 2 ^ 8 + 2 ^ 12))

/-- The format that an input takes a frame for (R236). With AUTO the sampling and depth of an adopted format stay while its timing does (DEDUCED, assumption 175); else
FMT is expected. -/
def State.sdiFormat (s : State) (n : Nat) (f : SdiFrame) : Nat :=
  let x := s.sdiOf n
  let w := sdiFmtWord f
  if Fld.SDI.CFG_AUTO x.cfg n = 1 then (x.adopted.filter (sameTiming w)).getD w
  else if sameTiming w (x.cfg.fld (Adr.SDI.FMT n) 0 32) then x.cfg.fld (Adr.SDI.FMT n) 0 32 else w

/-- Whether a payload ID is the one that a FMT would produce, colorimetry, transfer and range apart (R238). -/
def pidFits (fmt : Nat) (p : PayloadId) : Bool :=
  p.link == fmtLink fmt && p.rate == fmtRate fmt && p.sampling == fmtSampling fmt && p.depth12 == bitOf fmt 12

/-- RANGE, COLORIMETRY and TF as the payload ID gives them (R237); what it does not give is free. -/
def State.pidLabels (s : State) (pid : Option PayloadId) : (Nat × Nat × Nat) × State := match pid with
  | some { range := r, colorimetry := c, tf := some t, .. } => ((r % 2, c % 2, t % 4), s)
  | some p => let (w, s) := s.drawWord; ((p.range % 2, p.colorimetry % 2, w.toNat % 4), s)
  | none => let (w, s) := s.drawWord; ((w.toNat % 2, w.toNat / 2 % 2, w.toNat / 4 % 4), s)

/-- The links of a quad that are more than 2 line periods late (R239). -/
def lateLinks (f : SdiFrame) : List Nat := (List.range 4).filter (fun k => decide (2 * f.words < nth 0 f.skew k))

/-- The short time this many ns ago. -/
def State.stampBefore (s : State) (age : Nat) : Nat := (s.now + 2 ^ 40 - age % 2 ^ 40) % 2 ^ 40

/-- The units whose LINK_DOWN an input's adoption ends: its own, or all four links of a quad. -/
def State.sdiLinks (s : State) (n : Nat) : List Nat := if n = 0 ∧ s.quad = true then [0, 1, 2, 3] else [n]

/-- What the latest frame measured. -/
def State.measureSdi (s : State) (n : Nat) (f : SdiFrame) : State :=
  let x := s.sdiOf n
  let (period, s) := if x.measure.lines = 0 then let (w, s) := s.drawWord; (w.toNat, s) else (shortFwd x.measure.sof (s.stampBefore f.age), s)
  s.setSdi n { x with measure := { sof := s.stampBefore f.age, period := period, lines := f.linesPerFrame, words := f.words, pid := f.pidBytes,
                                   crc := f.crcErrors, skew := f.skew.foldl max 0 } }

/-- A new format is adopted; the frame that shows it is not written (R236). -/
def State.adopt (s : State) (n fmt : Nat) : State :=
  let s := (s.setSdi n { s.sdiOf n with adopted := some fmt }).setReg (Adr.SDI.DET_FMT n) (fmt + 2 ^ 31)
  (s.sdiLinks n).foldl (fun (s : State) k => s.condOff (sdiUnit k) (sdiUnit k) 0x06) s

/-- The signal is lost, or is none that the input takes: no format is adopted. -/
def State.unadopt (s : State) (n : Nat) : State := (s.setSdi n { s.sdiOf n with adopted := none }).setReg (Adr.SDI.DET_FMT n) 0

/-- The rows written of a received frame: missing lines are black, lines beyond the raster are discarded, and a sub-image that is late is black. -/
def inputRows (fmt : Nat) (late : List Nat) (rows : List (List Nat)) : List (List Nat) :=
  let n := fmtDepth fmt
  let count := fmtSamples fmt
  let black := blackLine (fmtSampling fmt) n count
  let pair := if fmtSampling fmt = 0 then 4 else 6
  (List.range (rasterSize (fmtRaster fmt)).2).map (fun y =>
    let r := match rows[y]? with
      | some r => r.take count ++ black.drop r.length
      | none => black
    if late.isEmpty then r else r.zipIdx.map (fun e => if late.contains (subImage y (e.2 / pair)) then nth 0 black e.2 else e.1))

/-- A frame in the adopted format is checked and written into a free buffer with its descriptor; `short`: it ended with the signal (R237 to R239). -/
def State.writeSdiFrame (s : State) (n fmt : Nat) (f : SdiFrame) (short : Bool) : State :=
  let x := s.sdiOf n
  let u := sdiUnit n
  let late := if fmtLink fmt = 5 then lateLinks f else []
  let cfg := x.cfg
  let badPid := Fld.SDI.CFG_PID_CHECK cfg n == 1 && !f.pid.any (pidFits fmt)
  let s := if badPid then
      let s := s.bump (Adr.SDI.PID_MISMATCH n)
      if x.pidRun then s else s.fault u 0x22
    else s
  let s := if late.isEmpty then s else s.fault u 0x21
  let height := (rasterSize (fmtRaster fmt)).2
  let tags := b2n (short || decide (f.rows.length < height) || !late.isEmpty) + 2 * b2n (decide (height < f.rows.length)) +
    128 * b2n (badPid || decide (0 < f.crcErrors))
  let s := s.setSdi n { x with pidRun := badPid, count := (x.count + 1) % 2 ^ 32 }
  match s.freeBuffer (sdiSource n) (clampTo (Fld.SDI.NBUF cfg n) 2 4) with
  | none => s.bump (Adr.SDI.DROPPED n)
  | some b =>
    let depth := fmtDepth fmt
    let addr := (Fld.SDI.BUF_UNIT cfg n + b * Fld.SDI.BUF_STRIDE cfg n) * 4096
    let pitch := Fld.SDI.PITCH cfg n / 256 * 256
    let bf := bufFmt (fmtSampling fmt)
    let (s, failed) := s.storeRows addr pitch ((inputRows fmt late f.rows).map (packRow bf depth))
    let ((range, col, tf), s) := s.pidLabels f.pid
    let done : BufFrame :=
      { index := b, addr := addr, pitch := pitch, chroma := 0, fmt := bf, depth := if depth = 12 then 1 else 0, range := range,
        colorimetry := col, tf := tf, width := (rasterSize (fmtRaster fmt)).1, height := height, count := x.count, tags := tags,
        sof := s.stampBefore f.age, seq := x.seq }
    let at' := Fld.SDI.DESC_UNIT cfg n * 4096 + 64 * b
    let errs := distinct (failed.toList ++ (s.spanError at' 64).toList)
    let s := errs.foldl (fun (s : State) c => s.upstream u c) (s.store at' (done.descriptor failed.isSome))
    ((s.complete (sdiSource n) done).bump (Adr.SDI.FRAMES n)).setSdi n { s.sdiOf n with seq := (x.seq + 1) % 2 ^ 32 }

/-- The next frame of an input begins: it reads the page (R46). -/
def State.readSdi (s : State) (n : Nat) : State := s.setSdi n { s.sdiOf n with cfg := s.regs.page (sdiPage n) }

/-- A received frame is adopted, refused as unsupported, or written (R236 to R238). -/
def State.takeSdiFrame (s : State) (n : Nat) (f : SdiFrame) : State :=
  let x := s.sdiOf n
  let fmt := s.sdiFormat n f
  let auto := Fld.SDI.CFG_AUTO x.cfg n == 1
  let expected := auto || sameTiming fmt (x.cfg.fld (Adr.SDI.FMT n) 0 32)
  if if expected then !s.sdiFits n fmt else !s.sdiListed n f then (s.unadopt n).condOn (sdiUnit n) (sdiUnit n) 0x20 else
  let s := s.condOff (sdiUnit n) (sdiUnit n) 0x20
  if !expected then s.unadopt n
  else if x.adopted = some fmt then s.writeSdiFrame n fmt f false
  else if (rasterSize (fmtRaster fmt)).2 ≤ f.rows.length then s.adopt n fmt
  else s.unadopt n

/-- SDI_IN_FRAME: a received frame is measured and taken, under the page as it began (R46, R236 to R238). -/
def sdiInFrame (n : Nat) (f : SdiFrame) (s : State) : State :=
  let x := s.sdiOf n
  if !x.running || x.output || x.refused || s.holding (sdiPage n) || (n != 0 && s.quad) then s else
  (((((s.measureSdi n f).deembed n f.audio).bumpBy (Adr.SDI.CRC_ERR n) f.crcErrors).takeSdiFrame n f).readSdi n)

/-- SDI_SIGNAL_LOSS: the frame in progress is completed as SHORT, nothing more is written, and LINK_DOWN stays until a format is adopted again (R239). A link
of a quad reports its own. -/
def sdiSignalLoss (n : Nat) (part : Option SdiFrame) (s : State) : State :=
  let port := if s.quad then 0 else n
  let x := s.sdiOf port
  if !x.running || x.output then s else
  let s := match part with
    | some f =>
      if x.refused || s.holding (sdiPage port) then s else
      let s := s.bumpBy (Adr.SDI.CRC_ERR port) f.crcErrors
      match x.adopted with
      | some fmt => s.writeSdiFrame port fmt f true
      | none => s
    | none => s
  ((s.unadopt port).readSdi port).condOn (sdiUnit n) (sdiUnit n) 0x06

/-! ### Apply points of SDI (R72, R229, R230, R231, R378) -/

/-- The schedule of an output as its enable applies: frame n = 0 at the first slot that is not earlier than the present (R231, R378). -/
def State.startSdi (s : State) (n : Nat) : State :=
  let f := s.rd (Adr.SDI.FMT n)
  let start := Fld.SDI.OUT_START_LO s.regs n + 2 ^ 32 * Fld.SDI.OUT_START_HI s.regs n
  let (k, s) := s.firstSlot start (rateNum (fmtRate f)) (rateDen (fmtRate f))
  s.setSdi n { sdiReset with running := true, output := Fld.SDI.CFG_DIR s.regs n == 1, start := start, fmt := f, n := k,
                             point := pointBefore f ((s.ns : Int) - s.outOffset n), frame := (s.sdiOf n).frame, cfg := s.regs.page (sdiPage n) }

/-- An enable applies to a transceiver that does not run (R72, R229, R231). -/
def State.enableSdi (s : State) (n : Nat) : State :=
  let u := sdiUnit n
  if s.hasFlow u then
    let s := s.startSdi n
    if s.sdiFits n (s.rd (Adr.SDI.FMT n)) then s.checkEmbed n else (s.setSdi n { s.sdiOf n with refused := true }).fault u 0x07
  else s.fault u 0x07

/-- A transceiver that runs no longer does: an output completes its frame, an input writes no more. -/
def State.stopSdi (s : State) (n : Nat) : State :=
  let x := s.sdiOf n
  let u := sdiUnit n
  if x.output then s.setSdi n { x with running := false }
  else (((s.setSdi n { sdiReset with frame := x.frame }).setReg (Adr.SDI.DET_FMT n) 0).condOff u u 0x06).condOff u u 0x20

/-- SDI1 to SDI3 follow a change of QUAD: bound to the quad-link port they do not run by themselves (R230). -/
def State.followQuad (s : State) : State :=
  [1, 2, 3].foldl (fun (s : State) k =>
    if s.quad then (if (s.sdiOf k).running then s.stopSdi k else s)
    else if s.enabled (sdiPage k) && !(s.sdiOf k).running then s.enableSdi k else s) s

/-- A transceiver's page at an apply point. -/
def State.applySdi (s : State) (old : RegFile) (n : Nat) : State :=
  let s := if n = 0 ∧ ({ s with regs := old } : State).quad ≠ s.quad then s.followQuad else s
  let x := s.sdiOf n
  let u := sdiUnit n
  let wanted := s.enabled (sdiPage n) && !(n != 0 && s.quad)
  let f := s.rd (Adr.SDI.FMT n)
  let good := s.sdiFits n f
  if wanted then
    if !x.running then s.enableSdi n
    else
      let s := if (Fld.SDI.CFG_DIR s.regs n == 1) != x.output && Fld.SDI.CFG_DIR s.regs n != Fld.SDI.CFG_DIR old n then s.fault u 0x07 else s
      let s := if x.adopted.isNone then s.readSdi n else s
      if f = old.fld (Adr.SDI.FMT n) 0 32 ∧ good = !x.refused then s
      else if good then
        if x.refused then
          s.setSdi n { s.sdiOf n with
            refused := false, fmt := f, start := s.now, n := 0, point := pointBefore f ((s.ns : Int) - s.outOffset n)
            blackLeft := min 8 (Fld.SDI.CFG_BLACK_FRAMES s.regs n) } |>.checkEmbed n
        else s
      else ((s.endSdiFrame n).setSdi n { (s.endSdiFrame n).sdiOf n with refused := true }).fault u 0x07
  else if x.running then s.stopSdi n
  else s

/-- Kiosk selectors 0x10 and 0x11 of SDI. -/
def State.sdiKiosk (s : State) (n sel : Nat) : Option (List Nat) :=
  let m := (s.sdiOf n).measure
  if sel = 0x10 then
    some [m.sof % 2 ^ 32, m.sof / 2 ^ 32, m.period, m.lines % 2 ^ 16 + m.words % 2 ^ 16 * 2 ^ 16, m.pid, m.crc % 2 ^ 16 + m.skew % 2 ^ 16 * 2 ^ 16]
  else if sel = 0x11 then
    match s.newestOf (sdiSource n) with
    | some b => some [b.index, b.seq]
    | none => some [0, 0]
  else none

/-- The counters that CNT_RESTART of an SDI page restarts. -/
def sdiCounters (n : Nat) : List (List RegAddr) :=
  [[Adr.SDI.FRAMES n, Adr.SDI.CRC_ERR n, Adr.SDI.PID_MISMATCH n, Adr.SDI.MISMATCH n, Adr.SDI.CLAMPED n, Adr.SDI.DROPPED n]]

/-! ### Belvedere (R240 to R247) -/

/-- A panel output, and storing one. -/
def State.blvOf (s : State) (n : Nat) : Blv := SMap.get (fun _ => blvReset) s.blv n
def State.setBlv (s : State) (n : Nat) (x : Blv) : State := { s with blv := SMap.set (fun _ => blvReset) s.blv n x }

/-- Page and unit of a panel output. -/
def blvPage (n : Nat) : Nat := 0x3C + n
def blvUnit (n : Nat) : Nat := 0x3C0 + 0x10 * n

/-- LANES: 1, 2 or 4. -/
def blvLanes (rf : RegFile) (n : Nat) : Nat :=
  let v := Fld.BLV.LINK_CFG_LANES rf n
  if v = 1 ∨ v = 2 ∨ v = 4 then v else nth 1 [1, 2, 4] (Config.unlisted (Adr.BLV.LINK_CFG n) v % 3)

/-- Pixels in a line, blanking included. -/
def blvTotal (rf : RegFile) (n : Nat) : Nat := Fld.BLV.ACT_H_ACT rf n + Fld.BLV.HSYNC_HSA rf n + Fld.BLV.HSYNC_HBP rf n + Fld.BLV.HFP rf n

/-- The active line takes at most 95 % of LANES × LANE_RATE at its line time (R240). -/
def blvFits (rf : RegFile) (n : Nat) : Bool :=
  let bpp := if Fld.BLV.LINK_CFG_PIXFMT rf n = 1 then 30 else 24
  let rate := inRange (Adr.BLV.LANE_RATE n) (Fld.BLV.LANE_RATE rf n) 80 4500
  decide (Fld.BLV.ACT_H_ACT rf n * bpp * Fld.BLV.PCLK rf n * 100 ≤ 95 * blvLanes rf n * rate * 1000 * blvTotal rf n)

/-- Whether a link runs in command mode. -/
def blvCommand (rf : RegFile) (n : Nat) : Bool := Fld.BLV.LINK_CFG_MODE rf n == 1

/-- Size, timing, lane setting and pixel format (R246). -/
def blvTiming (rf : RegFile) (n : Nat) : List Nat :=
  [Fld.BLV.LINK_CFG_LANES rf n, Fld.BLV.LINK_CFG_MODE rf n, Fld.BLV.LINK_CFG_PIXFMT rf n] ++
    [Adr.BLV.LANE_RATE n, Adr.BLV.PCLK n, Adr.BLV.ACT n, Adr.BLV.HSYNC n, Adr.BLV.HFP n, Adr.BLV.VSYNC n, Adr.BLV.VFP n].map (fun a => rf.fld a 0 32)

/-- The newest buffer of each enabled layer's view (R241). -/
def State.blvNewest (s : State) (n : Nat) : List (Option BufFrame) :=
  (List.range 3).map (fun l =>
    if Fld.BLV.L_CFG_EN s.regs n l = 1 ∧ (s.view (Fld.BLV.L_CFG_VIEW s.regs n l)).running = true then s.newestOf (viewSource (Fld.BLV.L_CFG_VIEW s.regs n l))
    else none)

/-- Whether a buffer is one that a layer shows: FMT 0 at DEPTH 10 (R241). -/
def blvShows (b : BufFrame) : Bool := b.fmt == 0 && b.depth == 0

/-- BG_COLOUR as a pixel. -/
def blvBack (rf : RegFile) (n : Nat) : Nat × Nat × Nat :=
  let c := Fld.BLV.BG_COLOUR rf n
  (bits c 0 10, bits c 10 10, bits c 20 10)

/-- Blend one pixel over another (R241). -/
def blvBlend (alpha : Nat) (c b : Nat × Nat × Nat) : Nat × Nat × Nat :=
  let a := alpha + alpha / 128
  let one := fun (x y : Nat) => (x * a + y * (256 - a) + 128) / 256
  (one c.1 b.1, one c.2.1 b.2.1, one c.2.2 b.2.2)

/-- One layer over a panel line (R241). -/
def layerOver (alpha x0 : Nat) (src : List (Nat × Nat × Nat)) (line : List (Nat × Nat × Nat)) : List (Nat × Nat × Nat) :=
  line.zipIdx.map (fun e => if x0 ≤ e.2 then
      match src[e.2 - x0]? with
      | some c => blvBlend alpha c e.1
      | none => e.1
    else e.1)

/-- The pixels of a layer that lie in a panel line: the layer's place, the address of its row, and how many lie inside the panel. -/
def State.layerSpan (s : State) (n y l : Nat) (b : BufFrame) : Option (Nat × Nat × Nat) :=
  let x0 := Fld.BLV.L_POS_L_X s.regs n l
  let y0 := Fld.BLV.L_POS_L_Y s.regs n l
  if y0 ≤ y ∧ y - y0 < b.height then some (x0, b.addr + (y - y0) * b.pitch, min b.width (Fld.BLV.ACT_H_ACT s.regs n - x0)) else none

/-- Whether a panel pixel lies under a layer above `l` that hides it: one with L_ALPHA 255 and a complete matching buffer there (R242). -/
def State.hidden (s : State) (n y l x : Nat) (layers : List (Option BufFrame)) : Bool :=
  layers.zipIdx.any (fun e => decide (l < e.2) && Fld.BLV.L_CFG_ALPHA s.regs n e.2 == 255 && match e.1.bind (s.layerSpan n y e.2) with
    | some (x0, _, w) => decide (x0 ≤ x) && decide (x < x0 + w)
    | none => false)

/-- A layer's pixels of a panel line, and the error response that its reads meet: only the 256-byte blocks that supply a pixel which is not hidden are fetched
(R241, R242). A pixel takes 4 bytes (R170). -/
def State.layerRead (s : State) (n y l : Nat) (layers : List (Option BufFrame)) (a w x0 : Nat) : List (Nat × Nat × Nat) × Option Nat :=
  let seen := ((List.range w).filter (fun i => !s.hidden n y l (x0 + i) layers)).map (fun i => (a + 4 * i) / 256)
  let v := unpackRow 0 10 (3 * w) (s.dramRead a (4 * w))
  ((List.range w).map (fun i => (nth 0 v (3 * i), nth 0 v (3 * i + 1), nth 0 v (3 * i + 2))),
    (List.range w).findSome? (fun i => if seen.contains ((a + 4 * i) / 256) then s.dramError (a + 4 * i) else none))

/-- One line of a panel frame, and the error responses its layers met: from the first pixel of a layer whose read fails, the rest of the line is BG_COLOUR
(R241 to R243). -/
def State.blvLine (s : State) (n y : Nat) (layers : List (Option BufFrame)) : List (Nat × Nat × Nat) × List Nat :=
  let back := blvBack s.regs n
  let hact := Fld.BLV.ACT_H_ACT s.regs n
  let parts := layers.zipIdx.filterMap (fun e => (e.1.bind (s.layerSpan n y e.2)).map (fun p => (e.2, p.1, s.layerRead n y e.2 layers p.2.1 p.2.2 p.1)))
  let line := parts.foldl (fun line p => layerOver (Fld.BLV.L_CFG_ALPHA s.regs n p.1) p.2.1 p.2.2.1 line) (List.replicate hact back)
  let failed := parts.filter (fun p => p.2.2.2.isSome)
  let cut := failed.foldl (fun c p => min c p.2.1) hact
  (line.take cut ++ List.replicate (hact - cut) back, failed.filterMap (fun p => p.2.2.2))

/-- A value as RGB888 carries it. -/
def to888 (c : Nat) : Nat := min 255 ((c + 2) / 4)

/-- Whether a frame is due in command mode: a layer's newest buffer has changed, or a group bound to the page has applied (R245). -/
def State.blvChanged (s : State) (n : Nat) : Bool := (s.blvOf n).applied || s.blvNewest n != (s.blvOf n).shown

/-- A frame starts: its layers take their newest buffers and are composed over BG_COLOUR; after a change under BLANK it is BG_COLOUR (R241, R246). -/
def State.panelFrame (s : State) (n : Nat) : State :=
  let x := s.blvOf n
  let cmd := blvCommand s.regs n
  let changed := x.cfg != [] && blvTiming x.cfg n != blvTiming s.regs n
  let hold := Fld.BLV.LINK_CFG_CHG s.regs n == 1 && cmd
  let blank := if changed then (if hold then 0 else min 8 (Fld.BLV.LINK_CFG_BLANK_FRAMES s.regs n)) else x.blankLeft
  let quiet := if changed then hold else x.quiet
  let newest := s.blvNewest n
  let shows := newest.map (fun b => b.filter blvShows)
  let page := s.regs.page (blvPage n)
  if quiet && shows.all (·.isNone) then s.setBlv n { x with cfg := page, quiet := true, applied := false, shown := newest } else
  let wrong := (newest.zip shows).filter (fun e => e.1.isSome && e.2.isNone)
  let s := s.bumpBy (Adr.BLV.MISMATCH n) wrong.length
  let layers := if blank = 0 then shows else [none, none, none]
  let s := x.held.foldl (fun (s : State) h => s.letGo (viewSource h.1) (blvUnit n) h.2) s
  let held := layers.zipIdx.filterMap (fun e => e.1.map (fun b => (Fld.BLV.L_CFG_VIEW s.regs n e.2, b.index)))
  let s := held.foldl (fun (s : State) h => s.holdBuf (viewSource h.1) (blvUnit n) h.2) s
  let lines := (List.range (Fld.BLV.ACT_V_ACT s.regs n)).map (fun y => s.blvLine n y layers)
  let errs := lines.flatMap (·.2)
  let s := s.bumpBy (Adr.BLV.UNDERRUN n) errs.length
  let s := errs.foldl (fun (s : State) c => s.upstream (blvUnit n) c) s
  let s := s.setBlv n { x with cfg := page, started := s.now, sending := true, porchOver := false, blankLeft := blank - 1, held := held,
                               shown := newest, applied := false, quiet := false }
  let narrow := Fld.BLV.LINK_CFG_PIXFMT s.regs n == 0
  let rows := lines.map (fun r => if narrow then r.1.map (fun p => (to888 p.1, to888 p.2.1, to888 p.2.2)) else r.1)
  ((s.emit (.panelFrame n rows)).bump (Adr.BLV.FRAMES n)).frameStart 3 (0x10 + n)

/-- Whether a panel output may start a frame at all. -/
def State.blvReady (s : State) (n : Nat) : Bool :=
  let x := s.blvOf n
  x.running && !x.refused && x.porchOver && !s.holding (blvPage n)

/-- BLV_FRAME_START: in video mode once the front porch is over, in command mode when a frame is due and no TE edge is awaited (R241, R244, R245). -/
def blvFrameStart (n : Nat) (s : State) : State :=
  if !s.blvReady n then s else
  if blvCommand s.regs n then
    if Fld.BLV.LINK_CFG_TE_EN s.regs n = 0 ∧ s.blvChanged n = true then s.panelFrame n else s
  else s.panelFrame n

/-- TE_EDGE: a rising BLV_TE edge starts a due command-mode frame under TE_EN (R245). -/
def teEdge (n : Nat) (s : State) : State :=
  if s.blvReady n && blvCommand s.regs n && Fld.BLV.LINK_CFG_TE_EN s.regs n == 1 && s.blvChanged n then s.panelFrame n else s

/-- The line boundaries passed since the frame's active lines ended, at the frame's timing. -/
def State.porchLines (s : State) (n : Nat) : Int :=
  let x := s.blvOf n
  let total := blvTotal x.cfg n * 1000000
  let lines := if total = 0 then 0 else shortFwd x.started s.now * Fld.BLV.PCLK x.cfg n / total
  (lines : Int) - (Fld.BLV.VSYNC_VSA x.cfg n + Fld.BLV.VSYNC_VBP x.cfg n + Fld.BLV.ACT_V_ACT x.cfg n : Nat)

/-- The front porch ends here: with VRR_EN at a line boundary from VFP_MIN on, with STATIC_EN at VFP_MIN or at VFP_MAX and nowhere else (R244). -/
def State.porchEnds (s : State) (n : Nat) : Bool :=
  let x := s.blvOf n
  let lo := Fld.BLV.VFP_VFP_MIN x.cfg n
  let hi := max lo (Fld.BLV.VFP_VFP_MAX x.cfg n)
  let p := s.porchLines n
  let newest := s.blvNewest n
  let t := listed (Adr.BLV.TIMING_LAYER n) (Fld.BLV.TIMING_LAYER x.cfg n) 3
  if Fld.BLV.LINK_CFG_VRR_EN x.cfg n = 1 then
    decide ((hi : Int) ≤ p) || (decide ((lo : Int) ≤ p) && (nth none newest t).isSome && nth none newest t != nth none x.shown t)
  else if Fld.BLV.LINK_CFG_STATIC_EN x.cfg n = 1 then decide ((hi : Int) ≤ p) || (p == (lo : Int) && s.blvChanged n)
  else decide ((lo : Int) ≤ p)

/-- A panel frame is over: its buffers are let go, and a panel packet that waited leaves (R241, R245). -/
def State.endPanel (s : State) (n : Nat) : State :=
  let x := s.blvOf n
  let s := x.held.foldl (fun (s : State) h => s.letGo (viewSource h.1) (blvUnit n) h.2) s
  let s := s.setBlv n { x with sending := false, porchOver := true, held := [], packet := none }
  match x.packet with
  | some (type, read, data) => s.emit (.dsiPacket n type read data)
  | none => s

/-- BLV_VFP_END: the front porch of a video-mode frame ends at a line boundary that R244 names, and a frame in command mode ends; a disabled link then rests in
LP-11 (R246). -/
def blvVfpEnd (n : Nat) (s : State) : State :=
  let x := s.blvOf n
  if x.sending && (blvCommand x.cfg n || s.porchEnds n) then s.endPanel n else s

/-- Whether an admitted Belvedere runs at a speed index at which it does not underrun (R243). -/
def State.blvSafe (s : State) (n : Nat) : Bool := s.hasFlow (blvUnit n) && decide (0x0100 ≤ Fld.TRL.SPEED_INDEX s.regs)

/-- LAYER_UNDERRUN: the rest of the line from this pixel leaves as BG_COLOUR (R243). -/
def layerUnderrun (n : Nat) (_layer : Nat) (pixel : Nat) (read : BusResult) (s : State) : State :=
  if !(s.blvOf n).sending || (read.isNone && s.blvSafe n) then s else
  let s := (s.emit (.panelBackground n pixel)).bump (Adr.BLV.UNDERRUN n)
  match read with
  | some c => s.upstream (blvUnit n) c
  | none => s

/-- DSI_COMMAND: a write of CMD with GO sends a panel packet, between frames; ignored while BUSY and while the link has no applied enable (R245, R246). -/
def dsiCommand (n cmd : Nat) (s : State) : State :=
  let x := s.blvOf n
  if bitOf cmd 16 = false ∨ x.running = false ∨ x.refused = true ∨ Fld.BLV.CMD_STAT_BUSY s.regs n = 1 then s else
  let len := inRange (Adr.BLV.CMD n) (bits cmd 0 7) 0 64
  let read := bitOf cmd 17
  let type := bits cmd 8 6
  let data := x.tx.take len
  let s := (s.setBlv n { x with tx := x.tx.drop len, reading := read, packet := if x.sending then some (type, read, data) else none }).setFld
    (Adr.BLV.CMD_STAT n) 0 2 1
  if x.sending then s else s.emit (.dsiPacket n type read data)

/-- DSI_COMMAND_DONE: BUSY clears, ERR shows an error report, and a read leaves its bytes in the FIFO (R245). -/
def dsiCommandDone (n : Nat) (err : Bool) (rx : List Byte) (s : State) : State :=
  let x := s.blvOf n
  if Fld.BLV.CMD_STAT_BUSY s.regs n = 0 ∨ x.packet.isSome = true then s else
  let got := if x.reading then rx.take 64 else x.rx
  ((s.setBlv n { x with rx := got, reading := false }).setFld (Adr.BLV.CMD_STAT n) 0 2 (2 * b2n err)).setFld (Adr.BLV.CMD_STAT n) 8 7 got.length

/-- CMD_DATA: a write pushes a byte to send, a read pops a received byte. -/
def cmdData (n : Nat) (a : Access) (s : State) : State :=
  let x := s.blvOf n
  match a with
  | .write v => s.setBlv n { x with tx := pushFifo x.tx (BitVec.ofNat 8 v.toNat) }
  | .read =>
    let rx := x.rx.drop 1
    (s.setBlv n { x with rx := rx }).setFld (Adr.BLV.CMD_STAT n) 8 7 rx.length

/-- A panel page at an apply point (R72, R240, R246). -/
def State.applyBlv (s : State) (old : RegFile) (n : Nat) : State :=
  let x := s.blvOf n
  let u := blvUnit n
  let bad := !blvFits s.regs n
  if s.enabled (blvPage n) then
    if !x.running && !s.hasFlow u then s.fault u 0x07 else
    let s := s.setBlv n { x with running := true, refused := bad, applied := true }
    if bad && (!x.running || !x.refused || blvTiming old n != blvTiming s.regs n) then s.fault u 0x07 else s
  else s.setBlv n { x with running := false, applied := true }

/-- The counters that CNT_RESTART of a BLV page restarts. -/
def blvCounters (n : Nat) : List (List RegAddr) := [[Adr.BLV.FRAMES n, Adr.BLV.UNDERRUN n, Adr.BLV.MISMATCH n]]

end Sys2Proof.Machine
end

