-- ==== Sys2Proof/Machine/St2110.lean ====
section
/-! DEFINITION. The ST 2110 senders and receivers (13_sundial_network.md, R269 to R274). Times of packets are in 2^−16 ns. -/

namespace Sys2Proof.Machine

/-! ### Common (R269, R270) -/

/-- The RTP timestamp of an instant in ns at a rate (R269). -/
def rtpStamp (rate t : Nat) : Nat := t * rate / 1000000000 % 2 ^ 32

/-! ### Senders (R270, R271) -/

/-- Store a sender. -/
def State.setSender (s : State) (n : Nat) (x : Sender) : State := { s with net := { s.net with senders := SMap.set (fun _ => senderReset) s.net.senders n x } }

/-- An event fault of the senders, with the sender in FAULT_SND. -/
def State.senderFault (s : State) (n code : Nat) : State := (s.setReg Adr.IPS.FAULT_SND n).fault 0x0C0 code

/-- The sample rate and the samples in a packet of an audio sender. -/
def sndAudio (rf : RegFile) (n : Nat) : Nat × Nat :=
  let r := if Fld.IPS.MEDIA_SR96 rf n = 1 then 96000 else 48000
  (r, if Fld.IPS.MEDIA_PTIME rf n = 1 then r / 8000 else r / 1000)

/-- CH of an audio sender, 1 to 32. -/
def sndChannels (rf : RegFile) (n : Nat) : Nat := inRange (Adr.IPS.MEDIA n) (Fld.IPS.MEDIA_CH rf n) 1 32

/-- A video sender's format: FMT, bits per sample, width and height, as its view is set (R271). -/
def State.sndFormat (s : State) (n : Nat) : Nat × Nat × Nat × Nat :=
  let v := listed (Adr.IPS.SND_CFG n) (Fld.IPS.SND_CFG_SRC s.regs n) 8
  (Fld.VW.FMT_CFG_FMT s.regs v, depthBits (listed (Adr.VW.FMT_CFG v) (Fld.VW.FMT_CFG_DEPTH s.regs v) 3),
   inRange (Adr.VW.OUT_SIZE v) (Fld.VW.OUT_SIZE_W s.regs v) 2 8192 / 2 * 2, inRange (Adr.VW.OUT_SIZE v) (Fld.VW.OUT_SIZE_H s.regs v) 2 8192 / 2 * 2)

/-- What decides a sender's packing. -/
def State.sndPacking (s : State) (n : Nat) : List Nat :=
  let f := s.sndFormat n
  [sndEss s.regs n, Fld.IPS.SND_CFG_PACK s.regs n, Fld.IPS.MEDIA_MAX_PAYLOAD s.regs n, f.1, f.2.1, f.2.2.1, f.2.2.2]

/-- A pixel group: its samples and its bytes (ST 2110-20), by whether the sampling is 4:2:2 and by the bits per sample. PRESUMED (assumption 180). -/
def pixelGroup (is422 : Bool) (depth : Nat) : Nat × Nat :=
  if is422 then (4, if depth = 12 then 6 else 5) else if depth = 12 then (6, 9) else (12, 15)

/-- The samples that a full packet carries (R271): whole pixel groups, or in block packing mode whole blocks of 180 bytes, of at most MAX_PAYLOAD bytes; 0 where
none fits. -/
def State.packetSamples (s : State) (n : Nat) : Nat :=
  let f := s.sndFormat n
  let g := pixelGroup (f.1 == 2) f.2.1
  let unit := if Fld.IPS.SND_CFG_PACK s.regs n = 0 then 180 else g.2
  let fit := Fld.IPS.MEDIA_MAX_PAYLOAD s.regs n / unit
  if fit = 0 then 0 else (Config.packGroups (s.sndPacking n) % fit + 1) * (unit / g.2) * g.1

/-- The samples in a row of a video sender. -/
def State.sndRow (s : State) (n : Nat) : Nat := (s.sndFormat n).2.2.1 * (if (s.sndFormat n).1 = 2 then 2 else 3)

/-- NPACKETS of a video sender's frame. -/
def State.videoPackets (s : State) (n : Nat) : Nat :=
  if s.packetSamples n = 0 then 0 else ceilDiv (s.sndRow n * (s.sndFormat n).2.2.2) (s.packetSamples n)

/-- The bytes of a packet on the line beside its payload: MAC, IPv4, UDP and RTP headers, the FCS, and 20 bytes more (R270). -/
def packetOverhead : Nat := 78

/-- The bytes on the line of a video sender's frame: per packet an extended sequence number, per sample row data header 6 bytes, and the samples. -/
def State.videoBytes (s : State) (n : Nat) : Nat :=
  let f := s.sndFormat n
  let g := pixelGroup (f.1 == 2) f.2.1
  let row := s.sndRow n
  let cuts := ((List.range f.2.2.2).filter (fun y => decide (y ≠ 0 ∧ y * row % s.packetSamples n ≠ 0))).length
  s.videoPackets n * (packetOverhead + 2) + (s.videoPackets n + cuts) * 6 + ceilDiv (row * f.2.2.2) g.1 * g.2

/-- The bits per second of a sender's packets, each counted at frame length + 20 bytes. -/
def State.sndLoad (s : State) (n : Nat) : Nat :=
  let p := sndPace s.regs n
  let bytes := match sndEss s.regs n with
    | 0 => s.videoBytes n
    | 1 => sndChannels s.regs n * (sndAudio s.regs n).2 * (if Fld.IPS.MEDIA_L16 s.regs n = 1 then 2 else 3) + packetOverhead
    | _ => Config.senderBytes (s.sndPacking n)
  if p.2 = 0 then 0 else ceilDiv (bytes * 8 * p.1) p.2

/-- Whether the running senders with this one use at most 95 % of a port's line rate (R270). -/
def State.sndFits (s : State) (n port : Nat) : Bool :=
  let others := (List.range 16).filter (fun k => k != n && (s.sender k).running && bitOf (Fld.IPS.SND_CFG_PATHS s.regs k) port)
  decide ((others.foldl (fun a k => a + s.sndLoad k) (s.sndLoad n)) * 100 ≤ s.lineRate port * 95)

/-- The samples of an audio packet from index k, as they leave: CH channels of each index, interleaved; a sample that the bus does not hold is 0 (R271). -/
def State.sndAudioBody (s : State) (rf : RegFile) (n k : Nat) : RtpBody :=
  let port := listed (Adr.IPS.SND_CFG n) (Fld.IPS.SND_CFG_SRC rf n) 4
  let width := if Fld.IPS.MEDIA_L16 rf n = 1 then 16 else 24
  .audio (sndChannels rf n) ((List.range (sndAudio rf n).2).flatMap (fun i =>
    let l := (audioAt (s.bndPort port).bus ((k + i) % 2 ^ 32)).getD []
    (List.range (sndChannels rf n)).map (fun c => nth 0 l (Fld.IPS.MEDIA_SLOT0 rf n + c) / 2 ^ (32 - width))))

/-- The samples of a packet as sample rows, cut at row ends: `o` is its first sample's place in the frame (R271, R272). -/
def sampleRows (row : Nat) : Nat → Nat → List Nat → List SampleRow
  | 0, _, _ => []
  | fuel + 1, o, v => if v.isEmpty ∨ row = 0 then [] else
    { row := o / row, first := o % row, samples := v.take (row - o % row) } :: sampleRows row fuel (o + (row - o % row)) (v.drop (row - o % row))

/-- The packets of a video frame of rows of `row` samples, `size` samples in each. -/
def videoBodies (row size : Nat) (rows : List (List Nat)) : List RtpBody :=
  (chunks size rows.flatten.length rows.flatten).zipIdx.map (fun e => .video (sampleRows row (e.1.length + 1) (e.2 * size) e.1))

/-- The length in bytes of an RFC 8331 ANC data packet, from its Data_Count. -/
def ancLength (b : List Byte) : Nat := (32 + 10 * (4 + beNat ((b.drop 4).take 4) / 4 % 256) + 31) / 32 * 4

/-- `count` ANC data packets at an address, up to the first whose read fails, with the cause of that error. -/
def State.ancPackets (s : State) (addr : Nat) : Nat → List (List Byte) × List Nat
  | 0 => ([], [])
  | k + 1 =>
    match s.spanError addr 8 with
    | some u => ([], [u])
    | none =>
      let n := ancLength (s.loadBytes addr 8)
      match s.spanError addr n with
      | some u => ([], [u])
      | none => let (l, e) := s.ancPackets (addr + n) k; (s.loadBytes addr n :: l, e)

/-- ANC data packets in RTP packets: as many whole ones in each as stay within `size` bytes, at least one; a frame without any takes one empty packet (DESIGN CHOICE,
assumption 180). -/
def packAnc (size : Nat) (l : List (List Byte)) : List (List Byte) :=
  let g := l.foldl (fun (acc : List (List Byte)) b =>
    match acc with
    | h :: t => if h.length + b.length ≤ size then (h ++ b) :: t else b :: h :: t
    | [] => [b]) []
  if g.isEmpty then [[]] else g.reverse

/-- The content of a sender's frame at slot time `g` in ns: its rows, its ancillary bytes, what its packets carry, the view buffer it holds, the causes of the error
responses its reads met, and the buffer's SOF_TIME. -/
structure SenderContent where
  rows : List (List Nat)
  anc : List Byte
  bodies : List RtpBody
  held : Option (Nat × Nat)
  failed : List Nat
  sof : Option Nat
deriving DecidableEq, Repr

/-- What a sender reads at a slot (R271): the newest buffer of its view or black, ancillary data, or for audio nothing yet, as its samples are read when the packet
leaves. None where the view's format is none that ST 2110-20 senders carry, or no pixel group fits in a packet. -/
def State.sndRead (s : State) (n : Nat) : Option SenderContent :=
  match sndEss s.regs n with
  | 0 =>
    let v := listed (Adr.IPS.SND_CFG n) (Fld.IPS.SND_CFG_SRC s.regs n) 8
    let (fmt, depth, w, h) := s.sndFormat n
    if 2 < fmt ∨ depth = 16 ∨ s.packetSamples n = 0 then none else
    let sampling := 2 - fmt
    let count := s.sndRow n
    let content := fun (rows : List (List Nat)) held failed sof =>
      some ({ rows := rows, anc := [], bodies := videoBodies count (s.packetSamples n) rows, held := held, failed := failed, sof := sof } : SenderContent)
    match s.outChoice true v sampling depth (w, h) with
    | .content b =>
      let raw := (List.range b.height).map (s.rawRow b [] count)
      let rows := (raw.zip (s.outRows b sampling depth count []).1).map (fun e => if e.1.2.isEmpty then e.1.1 else e.2)
      content rows (some (viewSource v, b.index)) (distinct (raw.flatMap (·.2))) (some b.sof)
    | _ => content (List.replicate h (blackLine sampling depth count)) none [] none
  | 1 => some { rows := [], anc := [], bodies := [.audio (sndChannels s.regs n) []], held := none, failed := [], sof := none }
  | _ =>
    let a := Fld.IPS.ANC_UNIT s.regs n * 4096
    match s.spanError a 4 with
    | some u => some { rows := [], anc := [], bodies := [.anc []], held := none, failed := [u], sof := none }
    | none =>
      let (l, e) := s.ancPackets (a + 4) (leNat (s.loadBytes a 4))
      some { rows := [], anc := l.flatten, bodies := (packAnc (Fld.IPS.MEDIA_MAX_PAYLOAD s.regs n) l).map .anc, held := none, failed := e, sof := none }

/-- The RTP timestamp of a frame: of G_k, or under TS_MODE 1 of the latest earlier PTP time with the descriptor's SOF_TIME (R270). -/
def State.sndStamp (s : State) (n g : Nat) (sof : Option Nat) : Nat × State :=
  let rate := if sndEss s.regs n = 1 then (sndAudio s.regs n).1 else 90000
  match sof with
  | some t =>
    if Fld.IPS.SND_CFG_TS_MODE s.regs n = 0 then (rtpStamp rate g, s) else
    let back := if shortFwd t s.now = 0 then 2 ^ 40 else shortFwd t s.now
    if s.ns < back then let (w, s) := s.drawWord; (w.toNat, s) else (rtpStamp rate (s.ns - back), s)
  | none => (rtpStamp rate g, s)

/-- SENDER_FRAME_SLOT: at the slot G_k reached latest, a running sender takes its frame and schedules its packets (R270, R271). -/
def senderFrameSlot (n : Nat) (s : State) : State :=
  let x := s.sender n
  let (num, den) := sndPace s.regs n
  if !x.running || s.holding 0x0C || num == 0 || den == 0 then s else
  let g := (pointAt num (genlockSpan den) (pointIndex num (genlockSpan den) s.ns)).toNat
  if x.frames.any (fun f => decide (g ≤ f.slot)) then s else
  match s.sndRead n with
  | none => s
  | some c =>
    let (ts, s) := s.sndStamp n g c.sof
    let packets := c.bodies.length
    let f : SenderFrame := { slot := g, timestamp := ts, packets := packets, next := 0, late := false, held := c.held, cfg := s.regs.page 0x0C, bodies := c.bodies }
    let s := (s.setSender n { x with frames := x.frames ++ [f] }).setReg (Adr.IPS.NPACKETS n) (packets % 2 ^ 20)
    let s := match c.held with
      | some (src, i) => s.holdBuf src (0x0C0 + 0x1000 * (n + 1)) i
      | none => s
    let s := c.failed.foldl (fun (s : State) u => (s.setReg Adr.IPS.FAULT_SND n).upstream 0x0C0 u) s
    (s.emit (.senderFrame n ts c.rows c.anc)).frameStart 3 (0x20 + n)

/-- The earliest time at which the next packet leaves, and the time it is scheduled at itself (R270). -/
def State.sndSchedule (s : State) (n : Nat) (f : SenderFrame) : (Nat × Nat) × State :=
  let (t, s) := s.sndTrs n f
  ((packetTime n f t (burstHead n f), packetTime n f t f.next), s)

/-- What the next packet of a frame carries. -/
def State.sndBody (s : State) (n : Nat) (f : SenderFrame) : RtpBody :=
  if sndEss f.cfg n = 1 then s.sndAudioBody f.cfg n f.timestamp else nth (.anc []) f.bodies f.next

/-- The bytes of a payload: pixel groups with their headers, samples, or ancillary data with its header of 8 bytes. -/
def bodyBytes (rf : RegFile) (n : Nat) (is422 : Bool) (depth : Nat) : RtpBody → Nat
  | .video rows => 2 + 6 * rows.length + ceilDiv ((rows.map (fun e => e.samples.length)).foldl (· + ·) 0) (pixelGroup is422 depth).1 * (pixelGroup is422 depth).2
  | .audio _ l => l.length * (if Fld.IPS.MEDIA_L16 rf n = 1 then 2 else 3)
  | .anc b => 8 + b.length

/-- A packet as it leaves a port: multicast, from IP_ADDR and the internal port's address (R269). The marker ends a frame of video or ancillary data. -/
def State.sndPacket (s : State) (n : Nat) (f : SenderFrame) (seq port : Nat) (body : RtpBody) : StreamPacket :=
  { port := port, srcMac := s.ownMac, dstMac := groupMac (sndDst n f port), srcIp := Fld.ETH0.IP_ADDR s.regs, dstIp := sndDst n f port,
    dscp := Fld.IPS.RTP_DSCP f.cfg n, ttl := Fld.IPS.RTP_TTL f.cfg n, udpSrc := Fld.IPS.UDP_SRC f.cfg n, udpDst := Fld.IPS.UDP_DST f.cfg n,
    payloadType := Fld.IPS.RTP_PT f.cfg n, ssrc := Fld.IPS.SSRC f.cfg n, seq := seq, timestamp := f.timestamp,
    marker := sndEss f.cfg n != 1 && f.next + 1 == f.packets, body := body }

/-- A packet leaves on each of its paths, and takes its time on the lines. -/
def State.sndEmit (s : State) (n : Nat) (f : SenderFrame) (seq : Nat) : State :=
  let body := s.sndBody n f
  let fmt := s.sndFormat n
  (s.sndPorts n f).foldl (fun (s : State) port =>
    ((s.bump (Adr.ETH.TX_FRAMES port)).emit (.senderPacket n f.next f.packets (s.sndPacket n f seq port body))).takeLine port
      (54 + bodyBytes f.cfg n (fmt.1 == 2) fmt.2.1 body)) s

/-- Whether the next packet can go: the lines of its ports are free, and nothing of class 0 waits there (R264). -/
def State.sndFree (s : State) (n : Nat) (f : SenderFrame) : Bool :=
  (s.sndPorts n f).all (fun port => s.lineFree port &&
    !s.net.egress.any (fun e => e.port == port && e.cls == 0 && decide (e.ready ≤ s.elapsed * 65536)))

/-- The sequence number after one: extended to 32 bits for video, 16 bits otherwise (R269). -/
def sndNextSeq (rf : RegFile) (n seq : Nat) : Nat := (seq + 1) % 2 ^ (if sndEss rf n = 0 then 32 else 16)

/-- A packet that leaves now is later than its bound, counted from the time it is scheduled at itself, on one of its ports: `before` is the time that packets of other senders scheduled earlier take there
(R270). -/
def State.sndLate (s : State) (n : Nat) (f : SenderFrame) (due : Nat) (before : List Nat) : Bool :=
  [0, 1].any (fun port => bitOf (Fld.IPS.SND_CFG_PATHS f.cfg n) port &&
    decide (due + 1542 * 8 * 65536 * 1000000000 / s.lineRate port + 100 * 65536 + nth 0 before port < s.time.fine))

/-- SENDER_PACKET: the next packet of the oldest frame leaves now, never early, and once its lines are free; later than its bound it counts LATE_PKTS, and OVERRUN once per frame. With
the last one the frame is sent and lets go of its buffer (R270). -/
def senderPacket (n before0 before1 : Nat) (s : State) : State :=
  let x := s.sender n
  match x.frames with
  | [] => s
  | f :: rest =>
    let (due, s) := s.sndSchedule n f
    if s.time.fine < due.1 ∨ s.sndFree n f = false then s else
    let late := s.sndLate n f due.2 [before0, before1]
    let s := s.sndEmit n f x.seq
    let s := if late then s.bump (Adr.IPS.LATE_PKTS n) else s
    let s := if late && !f.late then s.senderFault n 0x08 else s
    let seq := sndNextSeq f.cfg n x.seq
    if f.next + 1 < f.packets then s.setSender n { x with seq := seq, frames := { f with next := f.next + 1, late := f.late || late } :: rest }
    else
      let s := (s.setSender n { x with seq := seq, frames := rest }).bump (Adr.IPS.SENT_FRAMES n)
      match f.held with
      | some (src, i) => s.letGo src (0x0C0 + 0x1000 * (n + 1)) i
      | none => s

/-- One sender at an apply point of the page: one that is enabled and may not start reports CONFIG (R72, R270). -/
def State.applySender (s : State) (n : Nat) : State :=
  let x := s.sender n
  let wanted := s.enabled 0x0C && Fld.IPS.SND_CFG_EN s.regs n == 1
  if wanted && !x.running then
    let paths := [0, 1].filter (fun p => bitOf (Fld.IPS.SND_CFG_PATHS s.regs n) p)
    if s.flowOwned (Fld.IPS.SND_CFG_FLOW s.regs n) 0x0C0 && paths.all (s.sndFits n) then s.setSender n { x with running := true }
    else s.senderFault n 0x07
  else if !wanted && x.running then s.setSender n { x with running := false }
  else s

/-- The IPS page at an apply point. -/
def State.applyIps (s : State) : State := (List.range 16).foldl State.applySender s

/-- CNT_RESTART of IPS: bit s restarts sender s's counters. -/
def ipsCounters : List (List RegAddr) := (List.range 16).map (fun n => [Adr.IPS.SENT_FRAMES n, Adr.IPS.LATE_PKTS n])

/-! ### Receivers (R272 to R274) -/

/-- Store a receiver. -/
def State.setReceiver (s : State) (r : Nat) (x : Receiver) : State :=
  { s with net := { s.net with receivers := SMap.set (fun _ => receiverReset) s.net.receivers r x } }

/-- An event fault of the receivers, with the receiver in FAULT_RCV. -/
def State.receiverFault (s : State) (r code : Nat) : State := (s.setReg Adr.IPR.FAULT_RCV r).fault 0x0D0 code

/-- ESS of a receiver. -/
def rcvEss (rf : RegFile) (r : Nat) : Nat := listed (Adr.IPR.RCV_CFG r) (Fld.IPR.RCV_CFG_ESS rf r) 3

/-- The width of its sequence numbers, and the merge window (R269, R273). -/
def rcvSeqBits (rf : RegFile) (r : Nat) : Nat := if rcvEss rf r = 0 then 32 else 16
def rcvWindow (rf : RegFile) (r : Nat) : Nat := if rcvEss rf r = 0 then 65536 else 32768

/-- The source code of a receiver's buffers (R157). -/
def rcvSource (r : Nat) : Nat := 0x20 + r

/-- STREAM_LOSS stands while any receiver has lost its stream. -/
def State.streamCond (s : State) : State := s.cond ((List.range 16).any (fun r => (s.receiver r).lost)) 0x0D0 0x0D0 0x20

/-- A receiver's video format: SAMPLING, bits per sample, width, height, samples in a row, rate code. -/
def rcvSampling (rf : RegFile) (r : Nat) : Nat := listed (Adr.IPR.VFMT2 r) (Fld.IPR.VFMT2_SAMPLING rf r) 3
def rcvDepth (rf : RegFile) (r : Nat) : Nat := if Fld.IPR.VFMT2_DEPTH12 rf r = 1 then 12 else 10
def rcvRow (rf : RegFile) (r : Nat) : Nat := Fld.IPR.VFMT_W rf r * (if rcvSampling rf r = 0 then 2 else 3)
def rcvRate (rf : RegFile) (r : Nat) : Nat := listed (Adr.IPR.VFMT2 r) (Fld.IPR.VFMT2_RATE rf r) 10

/-- The address of row y of buffer b. -/
def rcvRowAddr (rf : RegFile) (r b y : Nat) : Nat :=
  (Fld.IPR.BUF_UNIT rf r + b * Fld.IPR.BUF_STRIDE rf r) * 4096 + y * (Fld.IPR.PITCH rf r / 256 * 256)

/-- Write samples into a row of a buffer, as far as the row goes; the error response its access meets. -/
def State.writeSamples (s : State) (rf : RegFile) (r b : Nat) (e : SampleRow) : State × Option Nat :=
  let fmt := bufFmt (rcvSampling rf r)
  let n := rcvDepth rf r
  let count := rcvRow rf r
  let a := rcvRowAddr rf r b e.row
  let len := rowBytes fmt n (Fld.IPR.VFMT_W rf r) count
  let err := s.spanError a len
  if Fld.IPR.VFMT_H rf r ≤ e.row then (s, none) else
  if err.isSome then (s, err) else
  let old := unpackRow fmt n count (s.dramRead a len)
  let new := (e.samples.take (count - e.first)).map (· % 2 ^ n)
  (s.dramWrite a (packRow fmt n (old.take e.first ++ new ++ old.drop (e.first + new.length))), none)

/-- Whether a receiver may begin a frame: it runs, and HOLD does not keep it from the next one (R37). -/
def State.mayReceive (s : State) (r : Nat) : Bool := (s.receiver r).running && !s.holding 0x0D

/-- The arrival of a packet in ns: its ingress stamp on the port of its path (R265, R275). -/
def State.arrival (s : State) (pathB : Bool) (age : Nat) : Nat := (s.ingress (b2n pathB) (s.fineBefore age)).toNat / 65536

/-- A video frame begins with its first packet, which arrived at `a` ns: a free buffer, black in it under MISSING_FILL (R272). -/
def State.beginReceive (s : State) (r a : Nat) (p : RtpPacket) : State :=
  let x := s.receiver r
  let cfg := s.regs.page 0x0D
  let target := s.freeBuffer (rcvSource r) (clampTo (Fld.IPR.NBUF cfg r) 2 4)
  let f : ReceiverFrame := { timestamp := p.timestamp, target := target, sof := a % 2 ^ 40, firstSeq := p.seq, received := 0, err := none, cfg := cfg }
  let (s, err) := match target with
    | some b =>
      if Fld.IPR.RCV_CFG_MISSING_FILL cfg r = 1 then
        let fmt := bufFmt (rcvSampling cfg r)
        s.storeRows (rcvRowAddr cfg r b 0) (Fld.IPR.PITCH cfg r / 256 * 256)
          (List.replicate (Fld.IPR.VFMT_H cfg r) (packRow fmt (rcvDepth cfg r) (blackLine (rcvSampling cfg r) (rcvDepth cfg r) (rcvRow cfg r))))
      else (s, none)
    | none => (s, none)
  s.setReceiver r { x with timestamp := some p.timestamp, frame := some { f with err := err } }

/-- The time in ns of an RTP timestamp at 90 kHz nearest `a`. -/
def stampTime (ts a : Nat) : Int :=
  let m := a * 90000 / 1000000000
  let t : Int := (m : Int) + signed (ts + 2 ^ 32 - m % 2 ^ 32) 32
  Int.fdiv (t * 100000 + 8) 9

/-- The greatest of a list of integers. -/
def maxInt (d : Int) (l : List Int) : Int := l.foldl (fun a b => if a < b then b else a) d

/-- The latest frame that ended before the one of a timestamp. -/
def Receiver.frameBefore (x : Receiver) (ts : Nat) : Option EndedFrame := x.ended.find? (fun e => decide (serial 32 e.timestamp ts = .earlier))

/-- FRAME_COUNT of the frame of a timestamp: the present one where it has not ended. -/
def Receiver.countOf (x : Receiver) (ts : Nat) : Nat := ((x.ended.find? (fun e => e.timestamp == ts)).map (·.count)).getD x.count

/-- The measurement of a video frame (R274); none of the first one after enable, which has no previous frame. -/
def State.measureFrame (s : State) (r : Nat) (m : MeasuredFrame) : State :=
  match m.arrivals, (s.receiver r).frameBefore m.timestamp with
  | a0 :: _, some before =>
    let n := before.packets
    let num := rateNum (rcvRate m.cfg r)
    let den := rateDen (rcvRate m.cfg r)
    let (trs, s) := match trsOf num den (Fld.IPR.RACTIVE_NUM m.cfg r) (Fld.IPR.RACTIVE_DEN m.cfg r) n with
      | some t => (t, s)
      | none => let (w, s) := s.drawWord; (w.toNat, s)
    let t := stampTime m.timestamp a0
    let from_ := t + Fld.IPR.TRO m.cfg r
    let drained := fun (a : Nat) => if (a : Int) < from_ then (0 : Int) else min (n : Int) (Int.fdiv (((a : Int) - from_) * 65536) trs + 1)
    let vrx := m.arrivals.zipIdx.map (fun e => (e.2 : Int) + 1 - drained e.1)
    let cinst := m.arrivals.zipIdx.map (fun e => (e.2 : Int) + 1 - (((e.1 - a0) * 11 * n * num / (10 * den * 1000000000) : Nat) : Int))
    let late := (m.arrivals.zipIdx.filter (fun e => decide (from_ * 65536 + (e.2 * trs : Nat) < (e.1 : Int) * 65536))).length
    let x := s.receiver r
    s.setReceiver r { x with measure := { vrxMax := maxInt (-(2 ^ 31)) vrx, cinstMax := maxInt (-(2 ^ 31)) cinst, fpt := (a0 : Int) - t, late := late,
                                          frameCount := x.countOf m.timestamp } }
  | _, _ => s

/-- The frame under measurement is complete. -/
def State.endMeasure (s : State) (r : Nat) : State :=
  match (s.receiver r).measuring with
  | some m =>
    if m.done then s else
    let s := s.measureFrame r m
    s.setReceiver r { s.receiver r with measuring := some { m with done := true } }
  | none => s

/-- Measurement begins with a frame's first arrival on the path, unless HOLD keeps the receiver from it. -/
def State.beginMeasure (s : State) (r a ts : Nat) : State :=
  if s.mayReceive r then s.setReceiver r { s.receiver r with measuring := some { timestamp := ts, arrivals := [a], cfg := s.regs.page 0x0D, done := false } } else s

/-- A packet on the measured path, before the merge, arrived at `a` ns: it joins the frame of its timestamp, whether the merge uses it or not (R274). One that begins
a frame completes the one before; an earlier one belongs to none that is measured. -/
def State.measurePacket (s : State) (r a : Nat) (p : RtpPacket) : State :=
  match (s.receiver r).measuring with
  | some m =>
    match serial 32 p.timestamp m.timestamp with
    | .equal => if m.done then s else s.setReceiver r { s.receiver r with measuring := some { m with arrivals := m.arrivals ++ [a] } }
    | .later => (s.endMeasure r).beginMeasure r a p.timestamp
    | _ => s
  | none => s.beginMeasure r a p.timestamp

/-- A video frame ends; `endSeq` is the sequence number of its last packet (R272). -/
def State.endReceive (s : State) (r endSeq : Nat) : State :=
  let x := s.receiver r
  match x.frame with
  | none => s
  | some f =>
    let first := x.nextSeq.getD f.firstSeq
    let sent := (endSeq + 1 + 2 ^ 32 - first % 2 ^ 32) % 2 ^ 32
    let missing := sent - f.received
    let s := s.setReceiver r { x with frame := none, nextSeq := some ((endSeq + 1) % 2 ^ 32), count := (x.count + 1) % 2 ^ 32,
                                      ended := ({ timestamp := f.timestamp, packets := f.received, count := x.count } :: x.ended).take 16,
                                      lostPackets := satAdd 32 x.lostPackets missing }
    let s := if missing ≠ 0 then (s.bump (Adr.IPR.LOST r)).receiverFault r 0x21 else s
    let s := s.bump (Adr.IPR.FRAMES r)
    match f.target with
    | none => s
    | some b =>
      let (colour, s) := s.drawWord
      let c := colour.toNat
      let done : BufFrame :=
        { index := b, addr := rcvRowAddr f.cfg r b 0, pitch := Fld.IPR.PITCH f.cfg r / 256 * 256, chroma := 0, fmt := bufFmt (rcvSampling f.cfg r),
          depth := Fld.IPR.VFMT2_DEPTH12 f.cfg r, range := c % 2, colorimetry := bits c 1 1, tf := bits c 2 2, width := Fld.IPR.VFMT_W f.cfg r,
          height := Fld.IPR.VFMT_H f.cfg r, count := x.count, tags := b2n (decide (missing ≠ 0)), sof := f.sof, seq := x.seq }
      let s := s.store (Fld.IPR.DESC_UNIT f.cfg r * 4096 + 64 * b) (done.descriptor f.err.isSome)
      let s := match f.err with
        | some u => (s.setReg Adr.IPR.FAULT_RCV r).upstream 0x0D0 u
        | none => s
      (s.complete (rcvSource r) done).setReceiver r { s.receiver r with seq := (x.seq + 1) % 2 ^ 32 }

/-- The sample rows that a packet's payload holds as video, its samples as audio with how many channels they have, and its bytes as ancillary data. -/
def bodyRows : RtpBody → List SampleRow
  | .video l => l
  | _ => []
def bodyAudio : RtpBody → Nat × List Nat
  | .audio n l => (n, l)
  | _ => (1, [])
def bodyAnc : RtpBody → List Byte
  | .anc b => b
  | _ => []

/-- A packet joins the frame in progress, its samples where the sample row data headers place them (R272). -/
def State.addPacket (s : State) (r : Nat) (p : RtpPacket) : State :=
  match (s.receiver r).frame with
  | none => s
  | some f =>
    let (s, err) := match f.target with
      | some b => (bodyRows p.body).foldl (fun (acc : State × Option Nat) e =>
          let (s, e2) := acc.1.writeSamples f.cfg r b e
          (s, acc.2.or e2)) (s, f.err)
      | none => (s, f.err)
    s.setReceiver r { s.receiver r with frame := some { f with received := f.received + 1, err := err } }

/-- A video packet after the merge, which arrived at `a` ns (R272). -/
def State.videoPacket (s : State) (r a : Nat) (p : RtpPacket) : State :=
  let x := s.receiver r
  let rel := match x.timestamp with
    | some t => serial 32 p.timestamp t
    | none => .later
  match rel with
  | .earlier | .ambiguous => s.setReceiver r { x with lateCount := satInc 32 x.lateCount }
  | .equal =>
    if x.frame.isNone then s.setReceiver r { x with lateCount := satInc 32 x.lateCount } else
    let s := s.addPacket r p
    if p.marker then s.endReceive r p.seq else s
  | .later =>
    let s := s.endReceive r ((p.seq + 2 ^ 32 - 1) % 2 ^ 32)
    if !s.mayReceive r then s else
    let s := (s.beginReceive r a p).addPacket r p
    if p.marker then s.endReceive r p.seq else s

/-- An audio packet: its samples by index, 24 bits each, left-justified (R271, R272). -/
def State.audioPacket (s : State) (r : Nat) (p : RtpPacket) : State :=
  let x := s.receiver r
  let rows := chunks (max 1 (bodyAudio p.body).1) (bodyAudio p.body).2.length (bodyAudio p.body).2
  let h := rows.zipIdx.foldl (fun h e => ((p.timestamp + e.2) % 2 ^ 32, e.1.map (fun v => v % 2 ^ 24 * 2 ^ 8)) :: h) x.audio
  s.setReceiver r { x with audio := h.take audioDepth }

/-- Write bytes into a ring of `size` bytes at an address, from an offset. -/
def State.rcvRingStore (s : State) (base size ofs : Nat) (b : List Byte) : State × Option Nat :=
  let head := b.take (size - ofs)
  let tail := b.drop (size - ofs)
  let e := (s.spanError (base + ofs) head.length).or (if tail.isEmpty then none else s.spanError base tail.length)
  (if tail.isEmpty then s.store (base + ofs) head else (s.store (base + ofs) head).store base tail, e)

/-- An ancillary packet: a 16-byte header and the payload into the byte ring (R272). -/
def State.ancPacket (s : State) (r a : Nat) (p : RtpPacket) : State :=
  let x := s.receiver r
  let payload := bodyAnc p.body
  let size := Fld.IPR.BUF_STRIDE s.regs r * 4096
  if size = 0 then s else
  let h := leBytes 2 payload.length ++ leBytes 2 (b2n p.marker) ++ leBytes 4 p.timestamp ++ leBytes 8 (a % 2 ^ 40)
  let bytes := h ++ payload
  let (s, e) := s.rcvRingStore (Fld.IPR.BUF_UNIT s.regs r * 4096) size (x.ringOfs % size) bytes
  let s := s.setReceiver r { x with ringOfs := (x.ringOfs + bytes.length) % size }
  match e with
  | some u => (s.setReg Adr.IPR.FAULT_RCV r).upstream 0x0D0 u
  | none => s

/-- What the merge of R273 makes of a sequence number. -/
inductive Merged where
  | accepted | duplicate | tooOld
deriving DecidableEq, Repr

/-- The merge: the first arrival of each number in the window is used. -/
def mergeSeq (n window : Nat) (top : Option Nat) (seen : List Nat) (seq : Nat) : Merged :=
  match top with
  | none => .accepted
  | some t =>
    match serial n seq t with
    | .equal => .duplicate
    | .later => .accepted
    | _ => if window ≤ (t + 2 ^ n - seq) % 2 ^ n then .tooOld else if seen.contains seq then .duplicate else .accepted

/-- The numbers in the window after one is accepted. -/
def mergeSeen (n window : Nat) (top : Option Nat) (seen : List Nat) (seq : Nat) : Nat × List Nat :=
  let t := match top with
    | none => seq
    | some t => if serial n seq t = .later then seq else t
  (t, (seq :: seen).filter (fun q => decide ((t + 2 ^ n - q) % 2 ^ n < window)))

/-- The registers that a receiver goes by for a packet: those that the frame in progress has read, and the active ones from the packet that begins the
next frame (R46); one that is disabled goes by its frame's. -/
def State.rcvCfg (s : State) (x : Receiver) (p : RtpPacket) : RegFile :=
  match x.frame with
  | some f => if x.running && serial 32 p.timestamp f.timestamp == .later then s.regs else f.cfg
  | none => s.regs

/-- Whether a receiver takes a packet: addressed to it on its path (R269, R273), while it runs or finishes a frame, and not the beginning of anything under HOLD
(R37, R46). -/
def State.accepts (s : State) (r : Nat) (pathB : Bool) (p : RtpPacket) : Bool :=
  let x := s.receiver r
  s.addressed (s.rcvCfg x p) r (b2n pathB) p.src p.dst p.udp && (x.running || x.frame.isSome) && (s.mayReceive r || x.frame.isSome)

/-- RECEIVER_PACKET: a packet on path A (port 0) or B (port 1) is measured, merged and taken (R272 to R274). -/
def receiverPacket (r : Nat) (pathB : Bool) (p : RtpPacket) (s : State) : State :=
  if !s.accepts r pathB p then s else
  let x := s.receiver r
  let cfg := s.rcvCfg x p
  let paths := Fld.IPR.RCV_CFG_PATHS cfg r
  let a := s.arrival pathB p.age
  let s := (s.setReceiver r { x with lost := false, lastAt := s.elapsed, packetsA := if pathB then x.packetsA else satInc 32 x.packetsA,
                                     packetsB := if pathB then satInc 32 x.packetsB else x.packetsB }).streamCond
  let measured := rcvEss cfg r == 0 && (Fld.IPR.RCV_CFG_MEAS_PATH cfg r == 1) == pathB
  let s := if measured then s.measurePacket r a p else s
  let x := s.receiver r
  let n := rcvSeqBits cfg r
  let s := match (if paths = 3 then mergeSeq n (rcvWindow cfg r) x.top x.seen p.seq else .accepted) with
    | .duplicate => s.setReceiver r { x with duplicates := satInc 32 x.duplicates }
    | .tooOld => s.setReceiver r { x with tooOld := satInc 32 x.tooOld }
    | .accepted =>
      let (top, seen) := mergeSeen n (rcvWindow cfg r) x.top x.seen p.seq
      let s := if paths = 3 then s.setReceiver r { x with top := some top, seen := seen } else s
      match rcvEss cfg r with
      | 0 => s.videoPacket r a p
      | e =>
        let s := s.endReceive r ((p.seq + 2 ^ 32 - 1) % 2 ^ 32)
        if !s.mayReceive r then s else if e = 1 then s.audioPacket r p else s.ancPacket r a p
  if measured && p.marker then s.endMeasure r else s

/-- The time without packets after which a stream is lost, in ns: 3 frame periods, or 10 ms for audio (R272). -/
def rcvPatience (rf : RegFile) (r : Nat) : Nat := if rcvEss rf r = 1 then 10000000 else 3 * periodNs (rateNum (rcvRate rf r)) (rateDen (rcvRate rf r))

/-- STREAM_LOSS: no packet has come for that long (R272). -/
def streamLoss (r : Nat) (s : State) : State :=
  let x := s.receiver r
  if x.running && decide (x.lastAt + rcvPatience s.regs r ≤ s.elapsed) then ((s.setReceiver r { x with lost := true }).setReg Adr.IPR.FAULT_RCV r).streamCond else s

/-- A receiver as it starts; a frame that it has in progress goes on (R46). -/
def Receiver.restart (x : Receiver) (now : Nat) : Receiver :=
  if x.frame.isSome then { x with running := true, lastAt := now, ended := [], measuring := none }
  else { receiverReset with running := true, seq := x.seq, ringOfs := x.ringOfs, lastAt := now }

/-- One receiver at an apply point of the page: one that is enabled and may not start reports CONFIG (R72, R272); one that is disabled finishes its frame (R46). -/
def State.applyReceiver (s : State) (r : Nat) : State :=
  let x := s.receiver r
  let wanted := s.enabled 0x0D && Fld.IPR.RCV_CFG_EN s.regs r == 1
  if wanted && !x.running then
    if s.flowOwned (Fld.IPR.RCV_CFG_FLOW s.regs r) 0x0D0 then s.setReceiver r (x.restart s.elapsed)
    else s.receiverFault r 0x07
  else if !wanted && x.running then (s.setReceiver r { x with running := false, lost := false }).streamCond
  else s

/-- The IPR page at an apply point. -/
def State.applyIpr (s : State) : State := (List.range 16).foldl State.applyReceiver s

/-- CNT_RESTART of IPR: bit r restarts receiver r's counters, those of its Kiosk selector included. -/
def State.iprRestart (s : State) (mask : Nat) : State :=
  (List.range 16).foldl (fun (s : State) r =>
    if bitOf mask r then
      ((s.setReg (Adr.IPR.FRAMES r) 0).setReg (Adr.IPR.LOST r) 0).setReceiver r
        { s.receiver r with packetsA := 0, packetsB := 0, duplicates := 0, lostPackets := 0, tooOld := 0, lateCount := 0 }
    else s) s

/-- Kiosk selectors of IPR. -/
def State.iprKiosk (s : State) (sel : Nat) : Option (List Nat) :=
  let x := s.receiver (sel % 16)
  if 0x10 ≤ sel ∧ sel < 0x20 then some [x.packetsA, x.packetsB, x.duplicates, x.lostPackets, x.tooOld, x.lateCount]
  else if 0x20 ≤ sel ∧ sel < 0x30 then
    some [unsigned x.measure.vrxMax 32, unsigned x.measure.cinstMax 32, unsigned x.measure.fpt 32, x.measure.late, x.measure.frameCount, x.ringOfs]
  else if 0x30 ≤ sel ∧ sel < 0x40 then
    match s.newestOf (rcvSource (sel % 16)) with
    | some b => some [b.index, b.seq]
    | none => some [0, 0]
  else none

end Sys2Proof.Machine
end

