-- ==== Sys2Proof/Machine/Falilan.lean ====
section
/-! DEFINITION. Falilan Link: ports, time transfer and frame channels (18_multi_device.md, R319, R320, R324 to R328). -/

namespace Sys2Proof.Machine

/-! ### Ports (R319) -/

/-- Page and unit of a port. -/
def flkPage (p : Nat) : Nat := 0x50 + p
def flkUnit (p : Nat) : Nat := 0x500 + 0x10 * p

/-- The port that leads towards the manager (ROLE_CFG). -/
def State.upPort (s : State) : Option Nat := if Fld.HIE.ROLE_CFG_UP_EN s.regs = 1 then some (Fld.HIE.ROLE_CFG_UP_PORT s.regs) else none

/-- The port forgets the last accepted SEQ and the STATE that came with it, and its neighbour is lost (R331). -/
def State.forgetNeighbour (s : State) (p : Nat) : State :=
  let s := s.setFlk p { s.flkPort p with hbLast := none, hbState := 0, lost := true }
  let s := s.setFld (Adr.FLK.LINK_STAT p) 12 1 0
  if s.upPort = some p then s.loseRef 7 else s

/-- LINK_TRAINED: all four lanes are up. -/
def linkTrained (p : Nat) (s : State) : State :=
  if (s.flkPort p).running ∧ s.linkUp p = false then
    let s := s.setFlk p { s.flkPort p with hbLast := none, hbSeen := false, hbMissed := 0, exchange := none, t4 := none }
    (s.setFld (Adr.FLK.LINK_STAT p) 0 2 2).condOff (flkUnit p + 1) (flkUnit p + 1) 0x06
  else s

/-- FLIT_RECEIVE: a flit that fails its CRC is replayed and counted (R319). -/
def flitReceive (p : Nat) (crcOk : Bool) (s : State) : State :=
  if s.linkUp p ∧ crcOk = false then s.bump (Adr.FLK.REPLAYS p) else s

/-- The frame that a sender channel has in transit is over: its buffer is let go (R171). -/
def State.endTransit (s : State) (p c : Nat) : State :=
  let k := s.flkChan p c
  match k.hold with
  | some (src, i) => (s.letGo src (chanUnitId p c) i).setFlkChan p c { k with hold := none }
  | none => s

/-- A sender channel stops what it sends: the buffers that it holds are let go, and a frame of border rows is given up. -/
def State.dropSender (s : State) (p c : Nat) : State :=
  let s := s.endTransit p c
  let k := s.flkChan p c
  let s := k.due.foldl (fun (s : State) b => s.letGo (s.chSource p c) (chanUnitId p c) b.index) s
  s.setFlkChan p c { k with due := [], border := none }

/-- The border columns that a port's channels have received so far are all that come of their frames (R328). -/
def State.endBorders (s : State) (p : Nat) : State :=
  let mine (right : Bool) : Bool := s.borderChannels.any (fun k => k.1 == p && k.2.2 == right)
  { s with links := { s.links with borders := s.links.borders.map (fun b => if mine b.right then { b with ended := true } else b) } }

/-- What a port's loss of its link does to its channels (R327, R328). -/
def State.dropChannels (s : State) (p : Nat) : State := ((List.range 8).foldl (fun s c => s.dropSender p c) s).endBorders p

/-- FLK_LINK_DOWN: the port is DOWN and trains again; its neighbour is lost at once, and edges that waited for border columns reflect (R319, R328, R331). -/
def flkLinkDown (p : Nat) (s : State) : State :=
  if !(s.flkPort p).running then s else
  let was := s.linkUp p
  let s := (s.setFld (Adr.FLK.LINK_STAT p) 0 2 0).condOn (flkUnit p + 1) (flkUnit p + 1) 0x06
  if was then (((s.forgetNeighbour p).condOn (flkUnit p + 1) (flkUnit p + 1) 0x20).dropChannels p).orgFeed 0 else s

/-! ### Time transfer (R324) -/

/-- TIME_MESSAGE on the downstream side: stamped t2 as it arrived and answered at t3. `t4` completes the exchange before it, whose delay and offset follow; it is
reference 7 where the port leads to the manager and its heartbeats are accepted. All stamps are in 2^−16 ns. -/
def timeMessage (p t1 age : Nat) (t4 : Option Nat) (delay : Nat) (s : State) : State :=
  if !s.linkUp p then s else
  let x := s.flkPort p
  let s := (s.setFlk p { x with exchange := some (t1, s.fineBefore age, s.fineAfter delay) }).emit (.timeReply p)
  match x.exchange, t4 with
  | some (a1, a2, a3), some a4 =>
    let delay := Int.fdiv (((a2 : Int) - a1) + ((a4 : Int) - a3)) 2
    let e := (a1 : Int) + delay + signed (Fld.FLK.ASYM s.regs p) 32 - a2
    if s.upPort = some p ∧ (s.flkPort p).hbLast.isSome = true then (s.noteRef 7).yieldOffset 7 (e + s.refOffset 7) (Int.fdiv delay 65536).toNat else s
  | _, _ => s

/-- TIME_REPLY on the upstream side: its stamp t4 goes into the next TIME message. -/
def timeReply (p age : Nat) (s : State) : State := if s.linkUp p then s.setFlk p { s.flkPort p with t4 := some (s.fineBefore age) } else s

/-- The TIME message of a round on every UP link on which this device is the upstream side, stamped t1 as it leaves at the round boundary. -/
def State.sendTime (s : State) : State :=
  (List.range 4).foldl (fun (s : State) p =>
    if s.linkUp p ∧ s.upPort ≠ some p then (s.emit (.timeMessage p (s.fineAfter 0) (s.flkPort p).t4)).setFlk p { s.flkPort p with t4 := none } else s) s

/-! ### Channels (R320, R326) -/

/-- The reservations of the running channels of a direction on a port. -/
def State.flkReserved (s : State) (p dir : Nat) : Nat :=
  ((List.range 8).filter (fun c => (s.flkChan p c).running && Fld.FLK.CH_CFG_DIR s.regs p c == dir)).foldl (fun a c => a + Fld.FLK.RATE s.regs p c) 0

/-- RES_TX and RES_RX as the channels stand. -/
def State.syncReserved (s : State) (p : Nat) : State :=
  (s.setReg (Adr.FLK.RES_TX p) (s.flkReserved p 0)).setReg (Adr.FLK.RES_RX p) (s.flkReserved p 1)

/-- Whether the ADMITTED entries that a port's unit owns carry what a channel costs: MC0 to MC3, but for a BORDER channel, which moves no DRAM data (R67, R320). -/
def State.chAdmitted (s : State) (p c : Nat) : Bool :=
  let res := (s.admitted.filter (fun e => e.2.owner == flkUnit p)).flatMap (fun e => e.2.pairs.map (·.1))
  s.hasFlow (flkUnit p) && (s.chKind p c == 2 || [0x17, 0x18, 0x19, 0x1A].all res.contains)

/-- Whether a channel may start: its RATE fits beside the running channels', flows of the port's unit carry its costs, and a receiver slot it writes is not
enabled (R320, R326). -/
def State.chFits (s : State) (p c : Nat) : Bool :=
  decide (s.flkReserved p (Fld.FLK.CH_CFG_DIR s.regs p c) + Fld.FLK.RATE s.regs p c ≤ Fld.FLK.LINK_CAP s.regs p) && s.chAdmitted p c &&
  !(Fld.FLK.CH_CFG_DIR s.regs p c == 1 && Fld.FLK.CH_CFG_TARGET s.regs p c == 1 && (s.chKind p c == 0 || s.chKind p c == 3) &&
    Fld.IPR.RCV_CFG_EN s.regs (Fld.FLK.CH_CFG_IPR_SLOT s.regs p c) == 1)

/-- One channel at an apply point of its port's page: one that is enabled and may not start reports CONFIG (R72, R320). -/
def State.applyFlkChan (p : Nat) (old : RegFile) (s : State) (c : Nat) : State :=
  let k := s.flkChan p c
  let wanted := s.enabled (flkPage p) && Fld.FLK.CH_CFG_EN s.regs p c == 1
  let moved := Fld.FLK.RATE old p c != Fld.FLK.RATE s.regs p c || old.fld (Adr.FLK.CH_CFG p c) 0 32 != s.rd (Adr.FLK.CH_CFG p c)
  if !wanted then (if k.running then (s.dropSender p c).setFlkChan p c flkChanReset else s)
  else if k.running && !moved then s
  else
    let s := s.dropSender p c
    let k := s.flkChan p c
    let s := s.setFlkChan p c { k with running := false }
    if s.chFits p c then s.setFlkChan p c { (if k.running then k else flkChanReset) with running := true }
    else s.fault (flkUnit p) 0x07

/-- A port's page at an apply point (R319, R320). A port that is disabled goes DOWN, and its neighbour is lost at once (R331); it reports no condition while it is
disabled. -/
def State.applyFlk (s : State) (old : RegFile) (p : Nat) : State :=
  let x := s.flkPort p
  let wanted := s.enabled (flkPage p) && Fld.FLK.LINK_CFG_EN s.regs p == 1
  let s :=
    if wanted && !x.running then
      ((s.setFlk p { x with running := true }).setFld (Adr.FLK.LINK_STAT p) 0 2 1).condOn (flkUnit p + 1) (flkUnit p + 1) 0x06
    else if !wanted && x.running then
      let s := (s.forgetNeighbour p).dropChannels p
      let s := s.setFlk p { s.flkPort p with running := false }
      (((s.setReg (Adr.FLK.LINK_STAT p) 0).condOff (flkUnit p + 1) (flkUnit p + 1) 0x06).condOff (flkUnit p + 1) (flkUnit p + 1) 0x20).orgFeed 0
    else s
  ((List.range 8).foldl (State.applyFlkChan p old) s).syncReserved p

/-! ### Sending (R326 to R328) -/

/-- The bytes of a buffer: its rows, and the rows of its chroma plane after them. -/
def State.bufferBytes (s : State) (b : BufFrame) : List Byte :=
  s.loadBytes b.addr (b.height * b.pitch) ++ (if b.fmt = 3 then s.loadBytes (b.addr + b.chroma) (b.height / 2 * b.pitch) else [])

/-- The next committed frame of an encoder context that a channel has not sent. -/
def State.nextCommitted (s : State) (ctx : Nat) (last : Option Nat) : Option RingFrame :=
  (s.ebeOf ctx).frames.find? (fun f => f.committed && match last with
    | none => true
    | some l => decide (serial 32 f.count l = .later))

/-- The bytes of a committed frame. -/
def State.ringFrameBytes (s : State) (ctx : Nat) (f : RingFrame) : List Byte :=
  let (base, units) := (s.ebeOf ctx).ring
  ((List.range (ceilDiv f.bytes 4096)).flatMap (fun k => s.loadBytes (ringAddr base units (f.unit + k) 0) 4096)).take f.bytes

/-- The buffer that a VIEW or INPUT channel has to send next: the oldest that its source has completed since, or the newest where none is due and it has not been
sent. -/
def State.chBuffer (s : State) (p c : Nat) : Option BufFrame :=
  let k := s.flkChan p c
  match k.due with
  | b :: _ => some b
  | [] => match s.newestOf (s.chSource p c) with
    | some b => if k.unsent b.seq then some b else none
    | none => none

/-- Whether an RCN context is inside the frame with a FRAME_COUNT. -/
def State.conditions (s : State) (n count : Nat) : Bool := match (s.rcnOf n).frame with
  | some f => f.record.count == count
  | none => false

/-- What a sender channel has to send next: the number it counts frames by, the data, and what follows them last. Of a BORDER channel these are the rows conditioned
so far; the others follow as they are conditioned (R328). -/
def State.chNext (s : State) (p c : Nat) : Option (Nat × List Byte × List Byte) :=
  let k := s.flkChan p c
  match s.chKind p c with
  | 1 =>
    let ctx := listed (Adr.FLK.CH_CFG p c) (Fld.FLK.CH_CFG_SRC s.regs p c) 4
    (s.nextCommitted ctx k.last).map (fun f => let b := s.ringFrameBytes ctx f; (f.count, b.drop 4096, b.take 4096))
  | 2 =>
    let ctx := listed (Adr.FLK.CH_CFG p c) (Fld.FLK.CH_CFG_SRC s.regs p c) 4
    match s.links.edges.find? (fun e => e.1 == ctx) with
    | some (_, count, rows) =>
      if k.last = some count then none
      else some (count, borderData (Fld.FLK.CH_CFG_EDGE s.regs p c == 1) rows, borderDesc count (!s.conditions ctx count))
    | none => none
  | _ => (s.chBuffer p c).map (fun b => (b.seq, s.bufferBytes b, b.descriptor false))

/-- A VIEW or INPUT channel takes its next buffer: it holds it while it is in transit, or lets it go if it skips it (R171, R327). -/
def State.takeBuffer (s : State) (p c : Nat) (busy : Bool) : State :=
  let k := s.flkChan p c
  let src := s.chSource p c
  match k.due, s.chBuffer p c with
  | _ :: rest, some b =>
    if busy then (s.letGo src (chanUnitId p c) b.index).setFlkChan p c { k with due := rest }
    else s.setFlkChan p c { k with due := rest, hold := some (src, b.index) }
  | [], some b => if busy then s else (s.holdBuf src (chanUnitId p c) b.index).setFlkChan p c { k with hold := some (src, b.index) }
  | _, none => s

/-- CHANNEL_SEND_FRAME: a sender channel starts its next frame, or skips it and counts DROPPED while the previous one is in transit (R327). With `busy` false the
previous one has left, and its buffer is let go. -/
def channelSendFrame (p c : Nat) (busy : Bool) (s : State) : State :=
  if !(s.flkChan p c).running || Fld.FLK.CH_CFG_DIR s.regs p c == 1 || !s.linkUp p || s.holding (flkPage p) then s else
  let s := if busy then s else s.endTransit p c
  match s.chNext p c with
  | none => s
  | some (n, data, desc) =>
    let s := if s.chKind p c = 0 ∨ s.chKind p c = 3 then s.takeBuffer p c busy else s
    let going := !busy && s.chKind p c == 2 && fieldOf desc 4 1 == 0
    let s := s.setFlkChan p c { s.flkChan p c with last := some n, border := if going then some n else none }
    if busy then s.bump (Adr.FLK.DROPPED p c) else (s.bump (Adr.FLK.FRAMES p c)).emit (.channelFrame p c data desc)

/-! ### Receiving (R326 to R328) -/

/-- Where a receiver channel writes buffers: its source code, first unit, stride, NBUF, descriptor unit, and PITCH where the target fixes one. -/
def State.chTarget (s : State) (p c : Nat) : Nat × Nat × Nat × Nat × Nat × Option Nat :=
  if Fld.FLK.CH_CFG_TARGET s.regs p c = 1 then
    let r := Fld.FLK.CH_CFG_IPR_SLOT s.regs p c
    (rcvSource r, Fld.IPR.BUF_UNIT s.regs r, Fld.IPR.BUF_STRIDE s.regs r, clampTo (Fld.IPR.NBUF s.regs r) 2 4, Fld.IPR.DESC_UNIT s.regs r,
     some (Fld.IPR.PITCH s.regs r / 256 * 256))
  else
    (0x200 + 8 * p + c, Fld.FLK.BUF_UNIT s.regs p c, Fld.FLK.BUF_STRIDE s.regs p c, clampTo (Fld.FLK.NBUF s.regs p c) 2 4, Fld.FLK.DESC_UNIT s.regs p c, none)

/-- The master that the neighbour's frame channels write as: 0x040 + 4d + 2 of the device d at the other end of the link (R51, R322). -/
def State.channelMaster (s : State) (p : Nat) : Nat := 0x42 + 4 * Fld.FLK.LINK_STAT_NEIGHBOUR_ID s.regs p

/-- The transactions that write bytes at an address: none spans two 4 KiB units (R21). -/
def unitSpans (addr : Nat) : Nat → List Byte → List (Nat × List Byte)
  | 0, _ => []
  | fuel + 1, b => if b.isEmpty then [] else
    let n := 4096 - addr % 4096
    (addr, b.take n) :: unitSpans (addr + n) fuel (b.drop n)

/-- Write what a frame channel delivers, unit by unit: the Gatehouse drops what no window grants its master, and 0x022 reports each refusal (R51, R52). The
error response that a granted write meets. -/
def State.channelStore (s : State) (p addr : Nat) (b : List Byte) : State × Option Nat :=
  (unitSpans addr (b.length / 4096 + 2) b).foldl (fun (acc : State × Option Nat) e =>
    let s := acc.1
    let m := s.channelMaster p
    if s.grantsDram (e.1 / 4096) m true then (s.store e.1 e.2, acc.2.or (s.spanError e.1 e.2.length))
    else (s.refuse 0x022 m (s.refusedWindow (e.1 / 4096)) true, acc.2)) (s, none)

/-- Rows of a frame that a channel delivers. -/
def State.channelRows (s : State) (p addr pitch : Nat) (rows : List (List Byte)) : State × Option Nat :=
  rows.zipIdx.foldl (fun (acc : State × Option Nat) e =>
    let (s, err) := acc.1.channelStore p (addr + e.2 * pitch) e.1
    (s, acc.2.or err)) (s, none)

/-- The samples in a row of a buffer, main plane. -/
def rowSamples (fmt width : Nat) : Nat := if fmt ≤ 1 then 3 * width else if fmt = 2 then 2 * width else width

/-- A received buffer goes into the rotation: its data, then its descriptor. -/
def State.receiveBuffer (s : State) (p c : Nat) (data desc : List Byte) : State :=
  let k := s.flkChan p c
  let (src, unit, stride, nbuf, descUnit, fixed) := s.chTarget p c
  match s.freeBuffer src nbuf with
  | none => s.bump (Adr.FLK.DROPPED p c)
  | some b =>
    let fmt := bits (fieldOf desc 5 1) 0 3
    let depth := bits (fieldOf desc 5 1) 4 2
    let w := fieldOf desc 0x10 2
    let h := fieldOf desc 0x12 2
    let from_ := fieldOf desc 0x14 4
    let pitch := fixed.getD from_
    let len := rowBytes fmt (depthBits depth) w (rowSamples fmt w)
    let addr := (unit + b * stride) * 4096
    let rows := (List.range (h + if fmt = 3 then h / 2 else 0)).map (fun y => (data.drop (y * from_)).take len)
    let (s, err) := s.channelRows p addr pitch rows
    let f := fieldOf desc 6 1
    let done : BufFrame :=
      { index := b, addr := addr, pitch := pitch, chroma := h * pitch, fmt := fmt, depth := depth, range := f % 2, colorimetry := bits f 1 1, tf := bits f 2 2,
        width := w, height := h, count := fieldOf desc 0 4, tags := fieldOf desc 4 1, sof := fieldOf desc 8 8 % 2 ^ 40, seq := k.seq }
    let (s, _) := s.channelStore p (descUnit * 4096 + 64 * b) (done.descriptor err.isSome)
    ((s.complete src done).bump (Adr.FLK.FRAMES p c)).setFlkChan p c { k with seq := (k.seq + 1) % 2 ^ 32 }

/-- A received committed frame goes into the channel's ring, its header last (R132, R326). -/
def State.receiveEbr (s : State) (p c : Nat) (data desc : List Byte) : State :=
  let k := s.flkChan p c
  let base := Fld.FLK.BUF_UNIT s.regs p c
  let units := Fld.FLK.BUF_STRIDE s.regs p c
  let s := ((chunks 4096 data.length data).zipIdx).foldl (fun (s : State) e => (s.channelStore p (ringAddr base units (k.ringUnit + 1 + e.2) 0) e.1).1) s
  let (s, _) := s.channelStore p (ringAddr base units k.ringUnit 0) desc
  let next := k.ringUnit + fieldOf desc 0x40 4
  (s.bump (Adr.FLK.FRAMES p c)).setFlkChan p c { k with ringUnit := if units = 0 then next else next % units }

/-- Signed 32-bit values of bytes. -/
def wordsOf (bs : List Byte) : List Int := (chunks 4 bs.length bs).map (fun w => signed (leNat w) 32)

/-- Rows of border columns arrive: they follow those of the same frame that have come, and the last ones count the frame (R328, assumption 137). -/
def State.receiveBorder (s : State) (p c : Nat) (data desc : List Byte) : State :=
  let right := Fld.FLK.CH_CFG_EDGE s.regs p c == 1
  let count := fieldOf desc 0 4
  let last := fieldOf desc 4 1 != 0
  let rows := chunks 2 data.length (wordsOf data)
  let mine (b : Border) : Bool := b.count == count && b.right == right && !b.ended
  let borders :=
    if s.links.borders.any mine then s.links.borders.map (fun b => if mine b then { b with rows := b.rows ++ rows, ended := last } else b)
    else s.links.borders ++ [{ count := count, right := right, rows := rows, ended := last }]
  let s : State := { s with links := { s.links with borders := borders } }
  (if last then s.bump (Adr.FLK.FRAMES p c) else s).orgFeed 0

/-- CHANNEL_FRAME_RECEIVED: the data have been written, then the descriptor or header, and the frame is complete; a frame that a link loss cut off never is, and
counts DROPPED (R327). -/
def channelFrameReceived (p c : Nat) (data desc : List Byte) (cut : Bool) (s : State) : State :=
  let k := s.flkChan p c
  if !k.running || Fld.FLK.CH_CFG_DIR s.regs p c == 0 || s.holding (flkPage p) then s else
  if cut then (if s.chKind p c = 2 then ((s.bump (Adr.FLK.DROPPED p c)).endBorders p).orgFeed 0 else s.bump (Adr.FLK.DROPPED p c)) else
  match s.chKind p c with
  | 1 => s.receiveEbr p c data desc
  | 2 => s.receiveBorder p c data desc
  | _ => s.receiveBuffer p c data desc

/-- The counters that CNT_RESTART of a FLK page restarts, the channels' included. -/
def flkCounters (p : Nat) : List (List RegAddr) :=
  [[Adr.FLK.REPLAYS p, Adr.FLK.HB_MISSED p] ++ (List.range 8).flatMap (fun c => [Adr.FLK.FRAMES p c, Adr.FLK.DROPPED p c])]

/-- Kiosk selector 0x20 of FLK: the latest remote transaction through the port that failed at its target. -/
def State.flkKiosk (s : State) (p sel : Nat) : Option (List Nat) := if sel = 0x20 then some (s.flkPort p).failed else none

end Sys2Proof.Machine
end

