-- ==== Sys2Proof/Machine/Housekeeping.lean ====
section
/-! DEFINITION. Dovecote, PWM and Icehouse (17_housekeeping.md, R304 to R318). -/

namespace Sys2Proof.Machine

/-! ### Dovecote sequencer (R304 to R312) -/

/-- LP_EN, as applied. -/
def State.lpEn (s : State) : Bool := Fld.DOV.ADC_CFG_LP_EN s.regs == 1

/-- The slices that take requests: the three active ones, or one under LP_EN (R312). While a slice retires, the spare it changes places with is active already and
the retiring one takes no request (R307). -/
def State.activeSlices (s : State) : List Nat :=
  let out := s.dov.retiring.getD (Fld.DOV.CAL_STAT_SPARE s.regs)
  let a := (List.range 4).filter (fun k => k != out)
  if s.lpEn then a.take 1 else a

/-- What a slice converts. -/
def State.sliceBusy (s : State) (k : Nat) : Option Conv := (s.dov.busy.find? (fun e => e.1 == k)).map (·.2)

/-- Whether a slot is enabled. -/
def State.slotEn (s : State) (n : Nat) : Bool := Fld.DOV.SLOT_CFG_EN s.regs (n - 8) == 1

/-- The channel of a programmable slot (R305, R41). -/
def State.slotChannel (s : State) (n : Nat) : Nat := listed (Adr.DOV.SLOT_CFG (n - 8)) (Fld.DOV.SLOT_CFG_CH s.regs (n - 8)) 20

/-- The conversion of a programmable slot on a slice, with the corrections in effect at its start (R306). -/
def State.startSlot (s : State) (n k : Nat) : Conv :=
  let ch := s.slotChannel n
  .slot n s.now (SMap.get (fun _ => 1) s.dov.calRef k != Fld.DOV.ADC_CFG_REF_SEL s.regs)
    (signed (Fld.DOV.CH_CORR_CH_OFS s.regs ch) 16) (Fld.DOV.CH_CORR_CH_GAIN s.regs ch)
    (signed (Fld.DOV.SLICE_CAL_OFS s.regs k) 16) (Fld.DOV.SLICE_CAL_GAIN s.regs k)

/-- A slice starts a conversion. -/
def State.occupy (s : State) (k : Nat) (c : Conv) : State := { s with dov := { s.dov with busy := SMap.put s.dov.busy k c } }

/-- The first waiting request: URGENT before normal, each in trigger order (R309). -/
def State.firstRequest (s : State) : Option SlotReq := (s.dov.waiting.find? (·.urgent)).or s.dov.waiting.head?

/-- A slice takes a waiting request; a run of merged triggers of its slot ends. -/
def State.takeRequest (s : State) (k : Nat) (r : SlotReq) : State :=
  let s := s.occupy k (s.startSlot r.slot k)
  { s with dov := { s.dov with waiting := s.dov.waiting.erase r, merging := s.dov.merging.erase r.slot } }

/-- A free slice takes the first request of R309's order; under HOLD of the page none (R37). -/
def State.feedSlice (s : State) (k : Nat) : State :=
  if (s.sliceBusy k).isSome || s.holding 0x05 then s else
  match s.dov.fixedDue with
  | n :: rest => ({ s with dov := { s.dov with fixedDue := rest } } : State).occupy k (.fixedVolt n)
  | [] =>
    match s.firstRequest with
    | some r => s.takeRequest k r
    | none => s

/-- CAL_PATIENCE and CAL_ROUNDS; 0 acts as 1. -/
def State.calPatience (s : State) : Nat := max 1 (Fld.DOV.CAL_CFG_CAL_PATIENCE s.regs)
def State.calRounds (s : State) : Nat := max 1 (Fld.DOV.CAL_CFG_CAL_ROUNDS s.regs)

/-- An URGENT request that finds every active slice busy borrows the spare, unless a due calibration has run out of patience (R309). While a slice retires there is
no spare to lend. -/
def State.lendSpare (s : State) : State :=
  let k := Fld.DOV.CAL_STAT_SPARE s.regs
  match s.dov.waiting.find? (·.urgent) with
  | none => s
  | some r =>
    if s.lpEn || s.dov.retiring.isSome || s.holding 0x05 || (s.sliceBusy k).isSome || (s.activeSlices.any (fun a => (s.sliceBusy a).isNone)) ||
      (!s.dov.calReady && decide (s.calPatience ≤ Fld.DOV.CAL_STAT_CAL_WAIT s.regs)) then s
    else
      let s := s.takeRequest k r
      { s with dov := { s.dov with borrowed := true, borrowedRound := true } }

/-- Every free slice takes what is due. -/
def State.feedSlices (s : State) : State := (s.activeSlices.foldl (fun s k => s.feedSlice k) s).lendSpare

/-- A trigger of a programmable slot (R311, R312). -/
def State.triggerSlot (s : State) (n : Nat) : State :=
  if s.slotEn n = false then s else
  if s.lpEn && Fld.DOV.SLOT_CFG_LP_KEEP s.regs (n - 8) == 0 then s else
  if s.dov.waiting.any (fun r => r.slot == n) then
    let first := !s.dov.merging.contains n
    let s := { s.bump Adr.DOV.OVERRUN with dov := { s.dov with merging := if first then n :: s.dov.merging else s.dov.merging } }
    if first then s.fault 0x051 0x21 else s
  else
    let r : SlotReq := { slot := n, urgent := Fld.DOV.SLOT_CFG_URGENT s.regs (n - 8) == 1 }
    ({ s with dov := { s.dov with waiting := s.dov.waiting ++ [r] } } : State).feedSlices

/-- The trigger kind of a slot (R311, R41). -/
def State.slotTrig (s : State) (n : Nat) : Nat := listed (Adr.DOV.SLOT_CFG (n - 8)) (Fld.DOV.SLOT_CFG_TRIG s.regs (n - 8)) 3

/-- What an enabled slot's triggers count from. -/
def State.slotClock (s : State) (n : Nat) : SlotClock := SMap.get (fun _ => { start := 0, done := 0 }) s.dov.clocks n

/-- The triggers of a slot have been given up to a time. -/
def State.slotDone (s : State) (n t : Nat) : State :=
  { s with dov := { s.dov with clocks := SMap.put s.dov.clocks n { s.slotClock n with done := t } } }

/-- PERIOD_US of a slot in ns. -/
def State.slotPeriod (s : State) (n : Nat) : Nat := 1000 * inRange (Adr.DOV.PERIOD_US (n - 8)) (Fld.DOV.PERIOD_US s.regs (n - 8)) 1 1048575

/-- The next trigger of a TIMER slot: the first whole number of periods from the apply point that enabled it, after those given already (R311). -/
def State.timerNext (s : State) (n : Nat) : Nat :=
  let c := s.slotClock n
  c.start + ((c.done - c.start) / s.slotPeriod n + 1) * s.slotPeriod n

/-- SLOT_TIMER: a TIMER slot's period has passed (R311). -/
def slotTimer (n : Nat) (s : State) : State :=
  if s.slotTrig n = 0 ∧ s.slotEn n = true ∧ s.timerNext n ≤ s.elapsed then (s.slotDone n (s.timerNext n)).triggerSlot n else s

/-- A PWM channel. -/
def State.pwmOf (s : State) (p : Nat) : PwmChan := SMap.get (fun _ => pwmReset) s.pwm p

/-- The first time from `t` on at which the count of some periods equals EVT_CNT; none where EVT_CNT is no count of theirs or the periods have ended (R317). -/
def PwmRun.matchFrom (r : PwmRun) (t : Nat) : Option Nat :=
  let first := r.start + 10 * r.evt
  let m := if t ≤ first then first else first + ceilDiv (t - first) (10 * r.period) * (10 * r.period)
  if r.evt < r.period ∧ m < r.stop then some m else none

/-- The first match of a channel from `t` on and up to the present (R317). -/
def PwmChan.matchFrom (c : PwmChan) (t now : Nat) : Option Nat :=
  let runs := c.past ++ (if c.running then [{ start := c.start, stop := now + 1, period := c.period, evt := c.evt }] else [])
  (runs.filterMap (fun r => r.matchFrom t)).head?

/-- The match that triggers a PWM_EVENT slot next (R311). -/
def State.pwmMatch (s : State) (n : Nat) : Option Nat := (s.pwmOf (Fld.DOV.SLOT_CFG_PWM_CH s.regs (n - 8))).matchFrom (s.slotClock n).done s.elapsed

/-- PWM_EVENT: DELAY × 10 ns after a PWM channel's count equals EVT_CNT (R311, R317). -/
def pwmEvent (n : Nat) (s : State) : State :=
  match s.pwmMatch n with
  | some m =>
    if s.slotTrig n = 1 ∧ s.slotEn n = true ∧ m + 10 * Fld.DOV.DELAY s.regs (n - 8) ≤ s.elapsed then (s.slotDone n (m + 1)).triggerSlot n else s
  | none => s

/-- SW_TRIG: bit s triggers slot s (R311). -/
def swTrig (value : Nat) (s : State) : State :=
  ((List.range 24).map (· + 8)).foldl (fun s n => if bitOf value n && s.slotTrig n == 2 then s.triggerSlot n else s) s

/-- The pairs each fixed slot makes in a round (R310, R312). -/
def State.pairsPerRound (s : State) : Nat := if s.lpEn then 4 else 64

/-- The pairs of a fixed slot that this round has: those made, those that wait, and those in conversion. -/
def State.pairsBegun (s : State) (n : Nat) : Nat :=
  (SMap.get (fun _ => (0, 0)) s.dov.sums n).2 + s.dov.fixedDue.count n + s.dov.busy.countP (fun e => e.2 == .fixedVolt n || e.2 == .fixedCurr n)

/-- FIXED_SLOT_DUE: a fixed slot's pair falls due (R310). -/
def fixedSlotDue (n : Nat) (s : State) : State :=
  if s.pairsPerRound ≤ s.pairsBegun n then s
  else ({ s with dov := { s.dov with fixedDue := s.dov.fixedDue ++ [n] } } : State).feedSlices

/-- R306: the result of a raw code. -/
def dovResult (x : Nat) (sliceOfs : Int) (sliceGain : Nat) (chOfs : Int) (chGain : Nat) : Nat :=
  let a : Int := (x : Int) * 16 - sliceOfs
  let b := Int.fdiv (a * sliceGain + 2 ^ 14) (2 ^ 15)
  let c := Int.fdiv ((b - chOfs) * chGain + 2 ^ 14) (2 ^ 15)
  (sat c 0 65535).toNat

/-- Store a slot's result and check its limits (R306, R311). -/
def State.storeResult (s : State) (n started r : Nat) (calOld : Bool) : State :=
  let out := decide (r < Fld.DOV.LIMIT_LO s.regs (n - 8)) || decide (Fld.DOV.LIMIT_HI s.regs (n - 8) < r)
  let s := s.setReg (Adr.DOV.RESULT (n - 8)) (r + 2 ^ 16 + b2n out * 2 ^ 17 + b2n calOld * 2 ^ 18)
  let s := s.setFld Adr.DOV.LIMIT_STAT n 1 (b2n out)
  { s with dov := { s.dov with sampled := SMap.set (fun _ => 0) s.dov.sampled n started } }

/-- A retiring slice whose conversion has ended becomes the spare (R307); under LP_EN rotation stands still (R312). -/
def State.endRetire (s : State) : State :=
  match s.dov.retiring with
  | some k =>
    if s.lpEn || (s.sliceBusy k).isSome then s
    else { s.setFld Adr.DOV.CAL_STAT 0 2 k with dov := { s.dov with retiring := none, calReady := false, roundsSince := 0 } }
  | none => s

/-- A slice is free again: a lent spare is returned, a retiring slice becomes the spare, and the free slices are fed. -/
def State.freeSlice (s : State) (k : Nat) : State :=
  let s : State := { s with dov := { s.dov with busy := SMap.del s.dov.busy k } }
  let s : State := if k = Fld.DOV.CAL_STAT_SPARE s.regs then { s with dov := { s.dov with borrowed := false } } else s
  s.endRetire.feedSlices

/-- CONVERSION_DONE (R306, R309 to R311). -/
def conversionDone (k : Nat) (code : BitVec 12) (powerMw : BitVec 20) (s : State) : State :=
  match s.sliceBusy k with
  | none => s
  | some (.fixedVolt n) => s.occupy k (.fixedCurr n)
  | some (.fixedCurr n) =>
    let (sum, cnt) := SMap.get (fun _ => (0, 0)) s.dov.sums n
    ({ s with dov := { s.dov with sums := SMap.set (fun _ => (0, 0)) s.dov.sums n (sum + powerMw.toNat, cnt + 1) } } : State).freeSlice k
  | some (.slot n started calOld chOfs chGain sOfs sGain) =>
    (s.storeResult n started (dovResult code.toNat sOfs sGain chOfs chGain) calOld).freeSlice k

/-! ### Calibration and references (R307, R308) -/

/-- A quotient rounded to the nearest integer, halves up. -/
def roundDiv (a b : Int) : Int := Int.fdiv (2 * a + b) (2 * b)

/-- CAL_DONE: the spare's calibration is accepted or rejected (R307). -/
def calDone (mL mH : Int) (s : State) : State :=
  if s.lpEn || s.dov.borrowed then s else
  let k := Fld.DOV.CAL_STAT_SPARE s.regs
  let gain := if mH = mL then 0 else roundDiv (49152 * 2 ^ 15) (mH - mL)
  let ofs := mL - roundDiv (8192 * (mH - mL)) 49152
  let s := (s.setFld Adr.DOV.CAL_STAT 8 8 0)
  let s : State := { s with dov := { s.dov with calReady := true } }
  if ofs.natAbs ≤ 512 ∧ 29491 ≤ gain ∧ gain ≤ 36044 ∧ Fld.DOV.REF_STAT_DRIFT s.regs = 0 then
    let s := s.setReg (Adr.DOV.SLICE_CAL k) (unsigned gain 16 + unsigned ofs 16 * 2 ^ 16)
    { s with dov := { s.dov with calOrder := s.dov.calOrder.erase k ++ [k],
                                 calRef := SMap.set (fun _ => 1) s.dov.calRef k (Fld.DOV.ADC_CFG_REF_SEL s.regs) } }
  else s.bump Adr.DOV.CAL_REJECT

/-- SLICE_ROTATION: a calibrated spare replaces the active slice with the oldest calibration, which becomes spare once its conversion ends (R307). -/
def sliceRotation (s : State) : State :=
  if s.lpEn || s.holding 0x05 || !s.dov.calReady || s.dov.borrowed || s.dov.retiring.isSome || decide (s.dov.roundsSince < s.calRounds) then s else
  match s.dov.calOrder.find? (fun k => k != Fld.DOV.CAL_STAT_SPARE s.regs) with
  | none => s
  | some old =>
    if (s.sliceBusy old).isSome then ({ s with dov := { s.dov with retiring := some old } } : State).feedSlices
    else ({ s.setFld Adr.DOV.CAL_STAT 0 2 old with dov := { s.dov with calReady := false, roundsSince := 0 } } : State).feedSlices

/-- OBS_INTERVAL, whose range is 4 to 65,535 rounds; below 4 it acts as 4. -/
def State.obsInterval (s : State) : Nat := max 4 (Fld.DOV.OBS_INTERVAL s.regs)

/-- The drift conditions of one round (R308), from the deviations from bandgap B and from the two other references. -/
def State.driftRound (s : State) (dev : Int × Int × Int) : State :=
  let a := decide (Fld.DOV.DRIFT_TOL s.regs < dev.1.natAbs)
  let agree := Fld.DOV.DRIFT_AGREE s.regs
  let b := decide (agree < dev.2.1.natAbs) && decide (agree < dev.2.2.natAbs)
  let held := if a || b then satInc 16 (Fld.DOV.REF_STAT_HELD s.regs) else 0
  let clear := if a || b then 0 else s.dov.clear + 1
  let s : State := { s.setFld Adr.DOV.REF_STAT 16 16 held with dov := { s.dov with clear := clear } }
  if Fld.DOV.REF_STAT_DRIFT s.regs = 0 then
    if s.obsInterval ≤ held then (s.setFld Adr.DOV.REF_STAT 0 3 (1 + 2 * b2n a + 4 * b2n b)).condOn 0x052 0x052 0x20 else s
  else if s.obsInterval ≤ clear then (s.setFld Adr.DOV.REF_STAT 0 3 0).condOff 0x052 0x052 0x20 else s

/-- The mean power of a fixed slot's pairs, rounded by R7 (R310). -/
def State.fixedResult (s : State) (n : Nat) : State :=
  let (sum, cnt) := SMap.get (fun _ => (0, 0)) s.dov.sums n
  if cnt = 0 then s else s.setReg (Adr.DOV.RESULT_FIXED n) ((sum + cnt / 2) / cnt)

/-- The Dovecote's part of a round: the fixed results, the calibration's wait and the drift conditions (R307, R308, R310). -/
def State.dovRound (s : State) (dev : Option (Int × Int × Int)) : State :=
  let s := (List.range 8).foldl (fun s n => s.fixedResult n) s
  let s : State := { s with dov := { s.dov with sums := [] } }
  if s.lpEn then s else
  let s := if !s.dov.calReady && s.dov.borrowedRound then s.bumpFld Adr.DOV.CAL_STAT 8 8 else s
  let borrowed := s.dov.borrowedRound
  let s : State := { s with dov := { s.dov with roundsSince := s.dov.roundsSince + 1, borrowedRound := s.dov.borrowed } }
  match dev with
  | some d => if borrowed then s else s.driftRound d
  | none => s

/-! ### PWM (R317, R318) -/

/-- Store a PWM channel; its pin shows what has changed. -/
def State.setPwm (s : State) (p : Nat) (c : PwmChan) : State :=
  let s : State := { s with pwm := SMap.set (fun _ => pwmReset) s.pwm p c }
  if c.hiZ then s.emit (.pwmHighZ p) else s.emit (.pwmRun p c.period c.duty c.pol c.start)

/-- A channel with the applied settings of its registers, whose count is 0 at a time. PERIOD outside its range acts as R41 says. -/
def State.pwmLoad (s : State) (p start : Nat) (past : List PwmRun) : PwmChan :=
  { running := true, pol := Fld.DOV.PWM_CFG_POL s.regs p == 1, period := inRange (Adr.DOV.PERIOD p) (Fld.DOV.PERIOD s.regs p) 2 16777215,
    duty := Fld.DOV.DUTY s.regs p, evt := Fld.DOV.EVT_CNT s.regs p, hiZ := false, start := start, past := past }

/-- The level of a channel's pin at a count; none while it is high impedance (R317, R318). -/
def PwmChan.level (c : PwmChan) (count : Nat) : Option Bool :=
  if c.hiZ then none else some (decide (count < c.duty) != c.pol)

/-- The count of a channel: 0 to PERIOD − 1, at 100 MHz (R317). -/
def PwmChan.count (c : PwmChan) (elapsed : Nat) : Nat := (elapsed - c.start) / 10 % c.period

/-- The level of PWM pin p; none while it is high impedance with its pull-down (R317, R318). -/
def State.pwmPin (s : State) (p : Nat) : Option Bool := (s.pwmOf p).level ((s.pwmOf p).count s.elapsed)

/-- The start of the period in progress. -/
def PwmChan.boundary (c : PwmChan) (elapsed : Nat) : Nat := c.start + (elapsed - c.start) / (10 * c.period) * (10 * c.period)

/-- The periods of a channel up to a boundary, with the earlier ones whose events the longest DELAY, 65,535 × 10 ns, can still bring (R311). -/
def PwmChan.ended (c : PwmChan) (stop now : Nat) : List PwmRun :=
  (c.past ++ [({ start := c.start, stop := stop, period := c.period, evt := c.evt } : PwmRun)]).filter (fun r => decide (now ≤ r.stop + 655350))

/-- PWM_PERIOD_END: at the end of a period new settings take effect, or a disable completes (R317, R318). -/
def pwmPeriodEnd (p : Nat) (s : State) : State :=
  let c := s.pwmOf p
  let b := c.boundary s.elapsed
  if c.running = false ∨ b = c.start then s else
  let past := c.ended b s.elapsed
  if Fld.DOV.PWM_CFG_EN s.regs p = 1 then
    (if s.pwmLoad p c.start c.past = c then s else s.setPwm p (s.pwmLoad p b past))
  else s.setPwm p { pwmReset with past := past }

/-- A slot at an apply of page DOV: one now enabled counts its periods and events from here, and one whose trigger, period or channel changes goes on from here; a
slot disabled drops its waiting request and the run of merged triggers with it (R311; assumption 182). -/
def State.applySlot (s : State) (old : RegFile) (n : Nat) : State :=
  if s.slotEn n && Fld.DOV.SLOT_CFG_EN old (n - 8) == 0 then
    { s with dov := { s.dov with clocks := SMap.put s.dov.clocks n { start := s.elapsed, done := s.elapsed } } }
  else if s.slotEn n then
    (if old.fld (Adr.DOV.SLOT_CFG (n - 8)) 0 32 = s.rd (Adr.DOV.SLOT_CFG (n - 8)) ∧ Fld.DOV.PERIOD_US old (n - 8) = Fld.DOV.PERIOD_US s.regs (n - 8) then s
     else s.slotDone n s.elapsed)
  else { s with dov := { s.dov with clocks := SMap.del s.dov.clocks n, waiting := s.dov.waiting.filter (fun r => r.slot != n), merging := s.dov.merging.erase n } }

/-- An apply of page DOV: channels now enabled start together; a pending rotation ends where LP_EN has ended (R307, R311, R312, R317). -/
def State.applyDov (s : State) (old : RegFile) : State :=
  let s := (List.range 8).foldl (fun s p =>
    let c := s.pwmOf p
    if Fld.DOV.PWM_CFG_EN s.regs p = 1 then
      (if c.running then (if c.pol = (Fld.DOV.PWM_CFG_POL s.regs p == 1) then s else s.setPwm p { c with pol := Fld.DOV.PWM_CFG_POL s.regs p == 1 })
       else s.setPwm p (s.pwmLoad p s.elapsed c.past))
    else s) s
  (((List.range 24).map (· + 8)).foldl (fun s n => s.applySlot old n) s).endRetire.feedSlices

/-! ### Icehouse (R313 to R316) -/

/-- The parameters of one copy of the model. -/
structure IceParams where
  alpha : List Nat
  beta : List Nat
  gamma : List Nat
  betaPa : Nat
  /-- ambient in 2^−16 °C -/
  amb : Int

/-- The fused parameters, with T_AMB = 40 °C (R313, R314). -/
def fusedParams : IceParams :=
  { alpha := [2814750, 1876500, 2814750, 1407375], beta := [85899, 85899, 107374, 85899], gamma := [1718, 2577, 2147, 3436], betaPa := 1074,
    amb := 40 * 65536 }

/-- The programmable parameters, as applied. -/
def State.iceParams (s : State) : IceParams :=
  { alpha := (List.range 4).map (fun i => s.regs.fld (Adr.ICE.ALPHA_0 + 8 * i) 0 24)
    beta := (List.range 4).map (fun i => s.regs.fld (Adr.ICE.BETA_0 + 8 * i) 0 24)
    gamma := (List.range 4).map (fun i => s.regs.fld (Adr.ICE.GAMMA_0 + 4 * i) 0 24)
    betaPa := Fld.ICE.BETA_PA s.regs
    amb := signed (Fld.ICE.T_AMB s.regs) 16 * 256 }

/-- One round of the model (R313): the five node temperatures in 2^−16 °C from the four node powers in mW. -/
def iceStep (q : IceParams) (power : List Nat) (t : List Int) : List Int :=
  let t4 := nth 0 t 4
  let shift := fun (d : Int) => Int.fdiv (d + 2 ^ 23) (2 ^ 24)
  let node := fun (i : Nat) => nth 0 t i + shift ((nth 0 q.alpha i : Int) * nth 0 power i - nth 0 q.beta i * (nth 0 t i - t4))
  let g := (List.range 4).foldl (fun (a : Int) i => a + nth 0 q.gamma i * (nth 0 t i - t4)) 0 - q.betaPa * (t4 - q.amb)
  (List.range 4).map node ++ [t4 + shift g]

/-- The temperatures of the programmable and of the fused copy. -/
def State.temps (s : State) : List Int := (List.range 5).map (fun n => signed (s.rd (Adr.ICE.TEMP n)) 32)
def State.fusedTemps (s : State) : List Int := (List.range 5).map (fun n => signed (s.rd (Adr.ICE.FUSED_TEMP n)) 32)

/-- Store temperatures in five consecutive registers. -/
def State.putTemps (s : State) (adr : Nat → RegAddr) (t : List Int) : State :=
  (List.range 5).foldl (fun s n => s.setReg (adr n) (unsigned (nth 0 t n) 32)) s

/-- The node powers: slots 0 to 2, and the sum of slots 3 to 7 (R313). -/
def State.nodePower (s : State) : List Nat :=
  let r := fun n => Fld.DOV.RESULT_FIXED s.regs n
  [r 0, r 1, r 2, r 3 + r 4 + r 5 + r 6 + r 7]

/-- The pause level of a temperature (R315). -/
def pauseLevel (start slope maxL : Nat) (t : Int) : Nat :=
  if t < (start : Int) * 65536 then 0 else (sat (Int.fdiv ((t - start * 65536) * slope + 0xFFFF) (2 ^ 16)) 0 maxL).toNat

/-- The pause levels and the THERMAL condition as the temperatures stand (R315). -/
def State.iceLevels (s : State) : State :=
  let lv := s.temps.map (pauseLevel (Fld.ICE.THR_CFG_START s.regs) (Fld.ICE.THR_CFG_SLOPE s.regs) (Fld.ICE.THR_CFG_MAX s.regs))
  let s := s.setReg Adr.ICE.LEVEL (nth 0 lv 0 % 256 + nth 0 lv 1 % 256 * 2 ^ 8 + nth 0 lv 2 % 256 * 2 ^ 16 + nth 0 lv 3 % 256 * 2 ^ 24)
  let s := s.setReg Adr.ICE.LEVEL_PKG (nth 0 lv 4 % 256)
  s.cond (s.temps.any (fun t => decide ((Fld.ICE.WARN s.regs : Int) * 65536 ≤ t))) 0x041 0x041 0x09

/-- One fused step with the given powers. -/
def State.fusedStep (s : State) (power : List Nat) : State := s.putTemps Adr.ICE.FUSED_TEMP (iceStep fusedParams power s.fusedTemps)

/-- The programmable copy takes the fused estimates (R314). -/
def State.iceResyncNow (s : State) : State := s.putTemps Adr.ICE.TEMP s.fusedTemps

/-- Icehouse's part of a round: both copies step, RESYNC where it waits, and the levels follow (R313 to R315). -/
def State.iceRound (s : State) : State :=
  let p := s.nodePower
  let s := s.putTemps Adr.ICE.TEMP (iceStep s.iceParams p s.temps)
  let s := s.fusedStep p
  let s : State := if s.iceResync then { s.iceResyncNow with iceResync := false } else s
  s.iceLevels

/-- The first fused node at or above 115 °C (R316). -/
def State.fusedCrossing (s : State) : Option Nat := (List.range 5).find? (fun n => decide (115 * 65536 ≤ nth 0 s.fusedTemps n))

/-- RESYNC (R314). -/
def resync (s : State) : State := { s with iceResync := true }

/-- The node of a page (R315): front end, colour/views, codec, I/O. -/
def iceNode (page : Nat) : Nat :=
  if 0x10 ≤ page ∧ page ≤ 0x15 then 0
  else if (0x18 ≤ page ∧ page ≤ 0x1A) ∨ (0x20 ≤ page ∧ page ≤ 0x27) ∨ page = 0x3C ∨ page = 0x3D then 1
  else if (0x28 ≤ page ∧ page ≤ 0x2A) ∨ page = 0x4C then 2
  else 3

/-- The pause quanta of a page's best-effort operations: max(L_own, L_4) (R315). -/
def State.pauseQuanta (s : State) (page : Nat) : Nat := max (bits (s.rd Adr.ICE.LEVEL) (8 * iceNode page) 8) (Fld.ICE.LEVEL_PKG s.regs)

end Sys2Proof.Machine
end

