-- ==== Sys2Proof/Machine/Nor.lean ====
section
/-! DEFINITION. How the boot ROM reads the SPI NOR, and what partners see of the device's pins (R321, R343, R344). The layout of the SFDP tables is that of JESD216,
which R344 names (PRESUMED, assumption 186). -/

namespace Sys2Proof.Machine

/-! ### The SPI NOR (R344) -/

/-- The mode in which the ROM reads the SFDP tables, and the one in which it reads a device without a valid table. -/
def sfdpMode : NorMode := { lines := (1, 1, 1), mhz := 25, command := 0x5A, addressBytes := 3 }
def plainMode : NorMode := { lines := (1, 1, 1), mhz := 25, command := 0x03, addressBytes := 3 }

/-- Where the Basic Flash Parameter Table lies in the SFDP area, and how many dwords it has: the first parameter header, which follows the signature. -/
def sfdpHeader (b : List Byte) : Option (Nat × Nat) :=
  let at' := fieldOf b 12 3
  let n := fieldOf b 11 1
  if b.take 4 = [0x53, 0x46, 0x44, 0x50] ∧ fieldOf b 8 1 = 0x00 ∧ fieldOf b 15 1 = 0xFF ∧ 9 ≤ n ∧ at' + 4 * n ≤ b.length then some (at', n) else none

/-- The density of a device in bits, from the second dword of its table. -/
def norBits (w : Nat) : Nat := if bitOf w 31 then 2 ^ (w % 2 ^ 31) else w + 1

/-- The mode in which the ROM reads a device with a valid table: 1-4-4, or 1-1-4 where only that is listed, at 50 MHz; 4-byte addresses above 128 Mbit. -/
def norMode (b : List Byte) (at' : Nat) : NorMode :=
  let w (k : Nat) : Nat := fieldOf b (at' + 4 * k) 4
  let bytes := if 2 ^ 27 < norBits (w 1) then 4 else 3
  if bitOf (w 0) 21 then { lines := (1, 4, 4), mhz := 50, command := bits (w 2) 8 8, addressBytes := bytes }
  else if bitOf (w 0) 22 then { lines := (1, 1, 4), mhz := 50, command := bits (w 2) 24 8, addressBytes := bytes }
  else { plainMode with addressBytes := bytes }

/-- QER of a table that has it, its fifteenth dword. -/
def norQer (b : List Byte) (at' n : Nat) : Nat := if 15 ≤ n then bits (fieldOf b (at' + 56) 4) 20 3 else 0

/-- What the ROM does at the NOR before and while it reads the copies: the SFDP header and table, Quad Enable where the mode uses it, and copy A and copy B. -/
def norReads (b : List Byte) : List Output :=
  let copies (m : NorMode) : List Output := [.norRead m 0 (2 ^ 20), .norRead m (2 ^ 20) (2 ^ 20)]
  match sfdpHeader b with
  | some (at', n) =>
    let m := norMode b at'
    [.norRead sfdpMode 0 16, .norRead sfdpMode at' (4 * n)] ++ (if m.lines.2.2 = 4 ∧ norQer b at' n ≠ 0 then [.norQuadEnable (norQer b at' n)] else []) ++ copies m
  | none => .norRead sfdpMode 0 16 :: copies plainMode

/-- The cells of the boot buffer once both copies have been read into it, one after the other. -/
def copyCells (a b : List Byte) : List Host.Cell :=
  (((b ++ a.drop b.length).zipIdx).filter (fun e => e.1 != 0)).map (fun e => (e.2, e.1))

/-! ### What partners observe (R321, R343) -/

/-- The pins of an unpowered device; any rail that is off makes it so (assumption 187). -/
def pinsUnpowered : PartnerPins :=
  { endpoint := .highZ, rpPerst := .highZ, rootLanes := .highZ, ethernet := .highZ, falilan := .idle, mgrAlive := .highZ, cascadeClock := .low, cascadeData := .highZ,
    norSelect := .highZ, norClock := .highZ, others := .highZ }

/-- The pins of a device in reset with its rails on; the sensor and output pins follow their chapters. -/
def pinsInReset : PartnerPins :=
  { endpoint := .idle, rpPerst := .low, rootLanes := .idle, ethernet := .idle, falilan := .idle, mgrAlive := .highZ, cascadeClock := .low, cascadeData := .receive,
    norSelect := .high, norClock := .low, others := .service }

/-- The pins of a device in service; only the MANAGER drives FLK_MGR_ALIVE (R332). -/
def pinsInService (manager : Bool) : PartnerPins :=
  { endpoint := .service, rpPerst := .service, rootLanes := .service, ethernet := .service, falilan := .service, mgrAlive := if manager then .high else .highZ,
    cascadeClock := .service, cascadeData := .service, norSelect := .service, norClock := .service, others := .service }

/-- What the partners of R343 see. The endpoint's lanes are idle until it is ready to enter link training (R342). -/
def State.partnerPins (s : State) : PartnerPins :=
  let p := s.pwr
  let pins :=
    if !(p.enIo && p.enCore && p.enHs && p.enVddq) then pinsUnpowered
    else if p.internalReset then pinsInReset
    else pinsInService (Fld.HIE.HIE_STAT_STATE s.regs == 2)
  if pins.endpoint = .highZ then pins else { pins with endpoint := if p.epReady then .service else .idle }

/-- The partners see a change of what they observe. -/
def State.showPartners (s : State) (old : PartnerPins) : State := if s.partnerPins = old then s else s.emit (.partnerPins s.partnerPins)

end Sys2Proof.Machine
end

