-- ==== Sys2Proof/Machine/Power.lean ====
section
/-! DEFINITION. Power sequencing, reset sources, Summerhouse's rails and the boot ROM's checks (19_power_boot.md, R316, R337 to R352, R371). -/

namespace Sys2Proof.Machine

/-! ### Resets (R342, R371) -/

/-- Registers that every reset but POR keeps: the always-on fields of the PMU page, SHUTDOWN_STAT and the fused model (R316, R342, R350). -/
def alwaysOn : List RegAddr :=
  [Adr.PMU.LAST_RESET, Adr.PMU.WAKE_CFG, Adr.PMU.WAKE_DELAY_MS, Adr.PMU.WARM_ENTRY, Adr.PMU.WARM_VALID, Adr.PMU.AON_TRIM, Adr.PMU.PWR_STAT,
   Adr.ICE.SHUTDOWN_STAT] ++ (List.range 5).map Adr.ICE.FUSED_TEMP

/-- Drive the enables. -/
def State.setRails (s : State) (io core hs vddq tcxo : Bool) : State :=
  (({ s with pwr := { s.pwr with enIo := io, enCore := core, enHs := hs, enVddq := vddq, tcxoEn := tcxo } } : State).emit
    (.powerPins io core hs vddq tcxo)).showPartners s.partnerPins

/-- The power-down order: VDDQ, HS, core, then IO and TCXO, 1 ms apart (R340). The model emits the four steps one after the other; the time between them it leaves out
(assumption 187). -/
def State.railsDown (s : State) : State :=
  let p := s.pwr
  (((s.setRails p.enIo p.enCore p.enHs false p.tcxoEn).setRails p.enIo p.enCore false false p.tcxoEn).setRails p.enIo false false false p.tcxoEn).setRails
    false false false false false

/-- What every reset but POR does: everything except the always-on domain and the pins returns to reset; the programmable thermal model takes the
fused estimates (R314, R342). What a boot that it interrupts had found about its copies and its list is not reported (R346, R347); a thermal shutdown and a lost
power-good still are, once the Lodge runs. A MANAGER leaves FLK_MGR_ALIVE undriven (R321). -/
def State.resetCore (s : State) : State :=
  let kept := alwaysOn.foldl (fun rf a => RegFile.put rf a (s.regs.word a)) ([] : RegFile)
  let p := s.pwr
  let fresh := State.reset.pwr
  let t := ({ State.reset with
      regs := kept
      elapsed := s.elapsed
      pwr := { fresh with
        stage := p.stage, enIo := p.enIo, enCore := p.enCore, enHs := p.enHs, enVddq := p.enVddq, tcxoEn := p.tcxoEn, fails := p.fails
        resetN := p.resetN, perstN := p.perstN, casRoot := p.casRoot, aonRounds := p.aonRounds, powerCycles := p.powerCycles, savedLanes := p.savedLanes, savedCfg := p.savedCfg
        restoreWait := p.restoreWait, bootReports := p.bootReports.filter (fun r => r.1 != 0x061) }
      irq := []
      outbox := s.outbox
      freeCount := s.freeCount
      pending := s.pending } : State).iceResyncNow
  (if Fld.HIE.HIE_STAT_STATE s.regs = 2 then t.emit .mgrReleased else t).showPartners s.partnerPins

/-- A device strapped CAS_ROOT takes ID 0 and assigns the next one; any other shows no ID yet (R329). -/
def State.startCascade (s : State) : State :=
  if s.pwr.casRoot then (s.setReg Adr.HIE.HIE_STAT (2 ^ 12 + 2 ^ 17)).emit (.idAssign 1) else s

/-- Internal reset is released and the boot ROM starts, if RESET_N is high (step 6 of R339). The programmable thermal model starts from the fused estimates (R314). -/
def State.releaseReset (s : State) : State :=
  if s.pwr.resetN then
    (({ (s.iceResyncNow).setReg Adr.PMU.BOOT_STAT 0 with
      pwr := { s.pwr with stage := .on, internalReset := false, restoreWait := false, fails := 0, boot := .rom, epReady := s.pwr.perstN } } : State).startCascade).showPartners
        s.partnerPins
  else s

/-- A reset source other than POR: the cause is recorded, PMU_VSEL returns to 3, and with the rails on the release follows at once, unless VSEL selected
another preset: then it follows the 200 µs of R371 at a POWER_UP_STEP, which a reset within that time does not shorten. -/
def State.resetFrom (s : State) (cause : Nat) : State :=
  let moved := decide (Fld.PMU.VSEL_CUR s.regs ≠ 3)
  let on := decide (s.pwr.stage = .on)
  let s := (s.resetCore).setReg Adr.PMU.LAST_RESET cause
  if on then
    let s := if moved then s.emit (.vsel 3) else s
    let s : State := { s with pwr := { s.pwr with stage := .up 5, restoreWait := moved } }
    if moved then s else s.releaseReset
  else s

/-- Power-down in the order of R340: internal reset, then every rail off. -/
def State.powerDown (s : State) (stage : PwrStage) : State :=
  let s := s.resetCore.railsDown
  ({ s with pwr := { s.pwr with stage := stage, restoreWait := false } } : State).setFld Adr.PMU.PWR_STAT 0 4 0

/-- Power-up begins: steps 1 and 2 of R339. -/
def State.powerUp (s : State) : State :=
  let s := s.setRails true false false false true
  { s with pwr := { s.pwr with stage := .up 2 } }

/-- POWER_ON_RESET: VAON rises, and everything returns to reset (R339, R342). -/
def powerOnReset (casRoot : Bool) (s : State) : State :=
  let p := State.reset.pwr
  ({ State.reset with
      elapsed := s.elapsed
      pwr := { p with resetN := s.pwr.resetN, perstN := s.pwr.perstN, casRoot := casRoot, powerCycles := s.pwr.powerCycles + 1 }
      outbox := s.outbox
      freeCount := s.freeCount
      pending := s.pending } : State).powerUp

/-- POWER_UP_STEP: the awaited power-good input is present and its delay has passed (R339). -/
def powerUpStep (s : State) : State :=
  match s.pwr.stage with
  | .up 2 =>
    let s := (s.setFld Adr.PMU.PWR_STAT 0 1 1).setRails true true false false true
    ({ s with pwr := { s.pwr with stage := .up 3 } } : State).emit (.vsel 3)
  | .up 3 =>
    let s := (s.setFld Adr.PMU.PWR_STAT 1 1 1).setRails true true true false true
    { s with pwr := { s.pwr with stage := .up 4 } }
  | .up 4 =>
    let s := (s.setFld Adr.PMU.PWR_STAT 2 1 1).setRails true true true true true
    { s with pwr := { s.pwr with stage := .up 5 } }
  | .up 5 => ({ s.setFld Adr.PMU.PWR_STAT 3 1 1 with pwr := { s.pwr with restoreWait := false } } : State).releaseReset
  | _ => s

/-- PG_FAIL counts one, saturating, and the failure is reported once the Lodge runs (R339, R340, assumption 127). -/
def State.countPgFail (s : State) : State :=
  let s := s.bumpFld Adr.PMU.PWR_STAT 8 8
  { s with pwr := { s.pwr with bootReports := s.pwr.bootReports ++ [(0x062, 0x22)] } }

/-- PG_TIMEOUT: a power-good input misses its 10 ms limit; after the third consecutive failure the device stays off (R339). -/
def pgTimeout (s : State) : State :=
  match s.pwr.stage with
  | .up n =>
    if bitOf (Fld.PMU.PWR_STAT_PG s.regs) (n - 2) then s else
    let fails := s.pwr.fails + 1
    let s := (s.powerDown (if 3 ≤ fails then .dead else .retry)).countPgFail
    { s with pwr := { s.pwr with fails := fails } }
  | _ => s

/-- PG_RETRY: one second after a failure, power-up is retried (R339). -/
def pgRetry (s : State) : State := if s.pwr.stage = .retry then s.powerUp else s

/-- The PWR_STAT bit of a power-good input. -/
def pgBit : PgInput → Nat
  | .io => 0 | .core => 1 | .hs => 2 | .vddq => 3

/-- VAON_FALL: the power-down order; where VAON falls below 2.0 V before it, the enables are undriven, and their pull-downs turn every regulator off together (R340). -/
def vaonFall (below2V0 : Bool) (s : State) : State :=
  if below2V0 then
    let s := s.resetCore
    let pins := s.partnerPins
    let s : State :=
      { s with pwr := { s.pwr with enIo := false, enCore := false, enHs := false, enVddq := false, tcxoEn := false, stage := .noVaon, restoreWait := false } }
    ((s.emit .powerUndriven).showPartners pins).setFld Adr.PMU.PWR_STAT 0 4 0
  else s.powerDown .noVaon

/-- A cold boot from Summerhouse or a wake keeps no retained state: the trained delays go too (R351, R352). -/
def State.forgetDelays (s : State) : State := { s with pwr := { s.pwr with savedLanes := [], savedCfg := 0 } }

/-- PIN_RESET: RESET_N low for 1 µs (R342, R352, R371). -/
def pinReset (casRoot : Bool) (s : State) : State :=
  let s : State := { s with pwr := { s.pwr with resetN := false, casRoot := casRoot } }
  let t := s.resetFrom 1
  match s.pwr.stage with
  | .dead | .sleep => t.forgetDelays.powerUp
  | .waking _ => (t.powerDown .retry).forgetDelays.powerUp
  | _ => t

/-- RESET_N_RELEASE: RESET_N rises, and step 6 of R339 proceeds where it waited for it. -/
def resetNRelease (s : State) : State :=
  let s : State := { s with pwr := { s.pwr with resetN := true } }
  if s.pwr.stage = .up 5 ∧ bitOf (Fld.PMU.PWR_STAT_PG s.regs) 3 = true ∧ s.pwr.restoreWait = false then s.releaseReset else s

/-- WATCHDOG_EXPIRY (R342): with WDT_CFG.EN clear no watchdog runs. -/
def watchdogExpiry (s : State) : State := if Fld.PMU.WDT_CFG_EN s.regs = 1 then s.resetFrom 3 else s

/-- WDT_KICK restarts the watchdog. -/
def wdtKick (s : State) : State := { s with pwr := { s.pwr with wdtFrom := s.now } }

/-- RST_CMD: 0x0000_D1E5 resets the device, other values are ignored (R342). -/
def rstCmd (value : Nat) (s : State) : State := if value = 0xD1E5 then s.resetFrom 4 else s

/-! ### Thermal shutdown (R316, R341) -/

/-- A fused node reached 115 °C: reset, rails off, and SHUTDOWN_STAT shows it (R316). -/
def State.thermalShutdown (s : State) (node : Nat) : State :=
  let s := ((s.powerDown .thermal).setReg Adr.PMU.LAST_RESET 2)
  let s := (s.bumpFld Adr.ICE.SHUTDOWN_STAT 16 16).setFld Adr.ICE.SHUTDOWN_STAT 0 7 (1 + node * 16)
  { s with pwr := { s.pwr with aonRounds := 0 } }

/-- AON_ROUND: while the core rails are off, the always-on domain steps the fused model with every P at 0 (R316, R341, R350). The programmable copy, which is in reset,
shows the fused estimates (R314). -/
def aonRound (s : State) : State :=
  if s.pwr.enCore then s else
  let s := (s.fusedStep [0, 0, 0, 0]).iceResyncNow
  { s with pwr := { s.pwr with aonRounds := s.pwr.aonRounds + 1 } }

/-- THERMAL_RESTART: a cold boot starts once every fused node is below 85 °C and 10,743 always-on rounds have passed (R316). -/
def thermalRestart (s : State) : State :=
  if s.pwr.stage = .thermal ∧ s.fusedTemps.all (fun t => decide (t < 85 * 65536)) = true ∧ 10743 ≤ s.pwr.aonRounds then
    ({ s with pwr := { s.pwr with bootReports := s.pwr.bootReports ++ [(0x042, 0x20)] } } : State).powerUp
  else s

/-! ### Summerhouse's rails (R349 to R352) -/

/-- Nothing waits for DRAM: no write or corrected word in a channel's queues, no operation before them, no best-effort operation in the Trellis (step 2 of R349,
assumption 188). -/
def State.dramDrained (s : State) : Bool :=
  s.mem.waiting.isEmpty && s.trl.beOps.isEmpty &&
    s.mem.chans.all (fun e => e.2.readQ.isEmpty && e.2.writeQ.isEmpty && e.2.corrected.isEmpty)

/-- SLEEP_COMMIT: once DRAM is drained it enters self-refresh, the trained delays are copied to always-on storage, and the power-down order runs with the retained
contents kept (R349, R350). CONFIG_DIVERGENT stays, since a wake is no cold boot (R346, assumption 189). -/
def sleepCommit (s : State) : State :=
  if Fld.PMU.SLEEP_STAT_STATE s.regs ≠ 1 ∨ s.dramDrained = false then s else
  let t := (s.powerDown .sleep).setFld Adr.PMU.BOOT_STAT 8 1 (Fld.PMU.BOOT_STAT_CONFIG_DIVERGENT s.regs)
  { t with dram := s.dram
           mem := { t.mem with selfRefresh := true }
           pwr := { t.pwr with savedLanes := s.mem.lanes, savedCfg := s.mem.cfg, sram := s.pwr.sram.filter (fun e => decide (0x70000 ≤ e.1)) } }

/-- WAKE_EVENT: a WAKE_N fall or the timer's expiry, where enabled; before commit it ends the entry, in Summerhouse it starts the wake (R351, R352). -/
def wakeEvent (src : WakeSource) (s : State) : State :=
  let en := match src with
    | .pin => Fld.PMU.WAKE_CFG_WAKE_PIN_EN s.regs
    | .timer => Fld.PMU.WAKE_CFG_TIMER_EN s.regs
  let code := match src with
    | .pin => 1
    | .timer => 2
  if en = 0 then s else
  if Fld.PMU.SLEEP_STAT_STATE s.regs = 1 then
    { (s.setFld Adr.PMU.SLEEP_STAT 0 2 0).setFld Adr.PMU.SLEEP_STAT 5 1 1 with mem := { s.mem with selfRefresh := false } }
  else if s.pwr.stage = .sleep then { s.setReg Adr.PMU.WAKE_SRC code with pwr := { s.pwr with stage := .waking 0 } }
  else s

/-- The wake is abandoned without power-good: the power-down order, the retained state discarded, then the cold power-up (R351). -/
def State.abandonWake (s : State) : State :=
  ((s.powerDown .retry).forgetDelays.countPgFail).powerUp

/-- POWER_GOOD_LOSS: a power-good input that was present falls; the power-down order runs, PG_FAIL counts, and a retry follows; in a wake it abandons the wake (R339,
R340, R351). -/
def powerGoodLoss (pg : PgInput) (s : State) : State :=
  if bitOf (Fld.PMU.PWR_STAT_PG s.regs) (pgBit pg) = false then s else
  match s.pwr.stage with
  | .on | .up _ => (s.powerDown .retry).countPgFail
  | .waking _ => s.abandonWake
  | _ => s

/-- DRAM exits self-refresh with its restored delays, and TRAIN_STAT reads DONE (step 6 of R351). -/
def State.restoreDram (s : State) (capOf : State → State) : State :=
  capOf { s.setReg Adr.MCT.TRAIN_STAT 2 with mem := { s.mem with lanes := s.pwr.savedLanes, cfg := s.pwr.savedCfg, selfRefresh := false } }

/-- WAKE_STEP (R351); `capOf` restores the capacities that follow from the DRAM configuration. -/
def wakeStepWith (capOf : State → State) (pg : Bool) (s : State) : State :=
  let at' := fun (s : State) (n : Nat) => ({ s with pwr := { s.pwr with stage := .waking n } } : State)
  match s.pwr.stage with
  | .waking 0 => at' (s.setRails true false false false true) 1
  | .waking 1 => if pg then (at' ((s.setFld Adr.PMU.PWR_STAT 0 1 1).setRails true true false false true) 2).emit (.vsel 3) else s.abandonWake
  | .waking 2 => if pg then at' ((s.setFld Adr.PMU.PWR_STAT 1 1 1).setRails true true true false true) 3 else s.abandonWake
  | .waking 3 => if pg then at' ((s.setFld Adr.PMU.PWR_STAT 2 1 1).setRails true true true true true) 4 else s.abandonWake
  | .waking 4 => if pg then at' (s.setFld Adr.PMU.PWR_STAT 3 1 1) 5 else s.abandonWake
  | .waking 5 => at' (s.restoreDram capOf) 6
  | .waking 6 => (at' { s with pwr := { s.pwr with epReady := s.pwr.perstN } } 7).showPartners s.partnerPins
  | _ => s

/-- WARM_RELEASE: the Lodge is released at WARM_ENTRY, and LAST_RESET reads WAKE (step 8 of R351). The programmable thermal model takes the fused estimates (R314). -/
def warmRelease (s : State) : State :=
  if s.pwr.stage ≠ .waking 7 then s else
  let pins := s.partnerPins
  let s := ((s.iceResyncNow).setReg Adr.PMU.LAST_RESET 5).setFld Adr.PMU.BOOT_STAT 0 3 2
  (({ s with pwr := { s.pwr with stage := .on, internalReset := false, boot := .running, lodgeAt := some (s.rd Adr.PMU.WARM_ENTRY) } } : State).startCascade).showPartners pins

/-! ### Configuration copies (R344 to R348) -/

/-- What a good configuration copy holds (R345). -/
structure ConfigCopy where
  generation : Nat
  firmware : List Byte
  entry : Nat
  list : List (Nat × Nat)
  body : List Byte
deriving DecidableEq, Repr

/-- A little-endian field of a byte string. -/
def leField (bs : List Byte) (off n : Nat) : Nat := leNat ((bs.drop off).take n)

/-- The register list as (word 0, word 1) pairs. -/
def listEntries : Nat → List Byte → List (Nat × Nat)
  | 0, _ => []
  | n + 1, bs => (leField bs 0 4, leField bs 4 4) :: listEntries n (bs.drop 8)

/-- Check a configuration copy (R345). -/
def checkCopy (bs : List Byte) : Option ConfigCopy :=
  let total := leField bs 0x00C 4
  let fwOfs := leField bs 0x010 4
  let fwLen := leField bs 0x014 4
  let lstOfs := leField bs 0x01C 4
  let lstCnt := leField bs 0x020 4
  if bs.take 4 = [0x53, 0x48, 0x43, 0x46] ∧ leField bs 4 2 = 1 ∧ total % 4 = 0 ∧ total ≤ 2 ^ 20 ∧ total ≤ bs.length ∧ 0x24 ≤ total ∧
     fwLen ≤ 448 * 1024 ∧ fwOfs + fwLen ≤ total ∧ lstOfs + 8 * lstCnt ≤ total ∧
     crc32 (bs.take (total - 4)) = leField bs (total - 4) 4 then
    some { generation := leField bs 8 4, firmware := (bs.drop fwOfs).take fwLen, entry := leField bs 0x018 4,
           list := listEntries lstCnt (bs.drop lstOfs), body := bs.take total }
  else none

/-- The boot buffer's default byte. -/
def bootBufDefault (_ : Nat) : Byte := 0

/-- A good copy or image is taken: the boot ROM begins its list, with COPY as BOOT_STAT shows it (R346, R348). -/
def State.takeCopy (s : State) (c : ConfigCopy) (copy : Nat) : State :=
  { (s.setFld Adr.PMU.BOOT_STAT 0 3 1).setFld Adr.PMU.BOOT_STAT 4 2 copy with
    pwr := { s.pwr with boot := .list 0, list := c.list, firmware := c.firmware, entry := c.entry, generation := c.generation, image := c.body, imageTaken := true } }

/-- BOOT_COPY_READ (R339, R344 to R346): the trim is stored, the NOR is read, both copies are checked in the boot buffer, and one is used or recovery begins. Only a
device whose CAS_ROOT is 0 asks upstream for an image (R348). -/
def bootCopyRead (copyA copyB : List Byte) (found : BootRead) (s : State) : State :=
  if s.pwr.boot ≠ .rom then s else
  let s := (norReads found.sfdp).foldl State.emit s
  let read := max copyA.length copyB.length
  let s : State := { s with pwr := { s.pwr with bootBuf := copyCells copyA copyB ++ s.pwr.bootBuf.filter (fun e => decide (read ≤ e.1)) } }
  let a := checkCopy copyA
  let b := checkCopy copyB
  let s := (s.setReg Adr.PMU.AON_TRIM found.trim.toNat).setReg Adr.PMU.BOOT_STAT (b2n a.isNone * 2 ^ 9 + b2n b.isNone * 2 ^ 10)
  match a, b with
  | some x, some y =>
    if x.body = y.body then s.takeCopy x 0 else
    match serial 32 x.generation y.generation with
    | .later => s.takeCopy x 0
    | .earlier => s.takeCopy y 1
    | _ =>
      let s := (s.setFld Adr.PMU.BOOT_STAT 8 1 1).takeCopy x 0
      { s with pwr := { s.pwr with bootReports := s.pwr.bootReports ++ [(0x061, 0x20)] } }
  | some x, none => s.takeCopy x 0
  | none, some y => s.takeCopy y 1
  | none, none =>
    let s : State := { s.setFld Adr.PMU.BOOT_STAT 0 3 3 with pwr := { s.pwr with boot := .waitImage } }
    if s.pwr.casRoot then s else s.emit .imageRequest

/-- A received image is checked as a configuration copy (R348). -/
def State.tryImage (s : State) (image : List Byte) (copy : Nat) : State :=
  match checkCopy image with
  | some c => s.takeCopy c copy
  | none => s.setFld Adr.PMU.RCV_STAT 1 1 1

/-- RCV_DATA: a word goes into the boot buffer, and RCV_ADDR advances by 4 (R348). -/
def rcvData (value : Word) (s : State) : State :=
  let a := s.rd Adr.PMU.RCV_ADDR
  { s.setReg Adr.PMU.RCV_ADDR ((a + 4) % 2 ^ 20) with
    pwr := { s.pwr with bootBuf := SMap.setList bootBufDefault s.pwr.bootBuf a (leBytes 4 value.toNat) } }

/-- The image in the boot buffer, as long as its header says, at most 1 MiB. -/
def State.bufferImage (s : State) : List Byte :=
  SMap.getList bootBufDefault s.pwr.bootBuf 0 (min (2 ^ 20) (leNat (SMap.getList bootBufDefault s.pwr.bootBuf 0x00C 4)))

/-- RCV_CMD: the received image is checked and applied, or BAD or REFUSED is set (R348). -/
def rcvCmd (s : State) : State :=
  let s := s.setReg Adr.PMU.RCV_STAT 0
  if s.pwr.boot = .waitImage ∧ s.pwr.imageTaken = false then s.tryImage s.bufferImage 3 else s.setFld Adr.PMU.RCV_STAT 2 1 1

/-- LIST_STOPPED: a POLL that has failed for 100 ms, or an unlisted OP, stops the list; a WRITE or WAIT does not (R347). What LIST_STOP shows of an index of more than 16
bits is a free value (assumption 190). -/
def listStopped (s : State) : State :=
  match s.pwr.boot with
  | .list i =>
    if (s.pwr.list[i]?).any (fun e => decide (2 ≤ bits e.1 24 4)) then
      { s.setReg Adr.PMU.LIST_STOP (if i < 2 ^ 16 then i else Config.unlisted Adr.PMU.LIST_STOP i % 2 ^ 16) with pwr := { s.pwr with boot := .listEnded, bootReports := s.pwr.bootReports ++ [(0x061, 0x21)] } }
    else s
  | _ => s

/-- LODGE_RELEASE: the firmware is copied to Lodge SRAM, BOOT_GEN is recorded, the Lodge runs at FW_ENTRY, and what the boot found is reported (R347). -/
def lodgeRelease (s : State) : State :=
  let ready := match s.pwr.boot with
    | .listEnded => true
    | .list i => decide (s.pwr.list.length ≤ i)
    | _ => false
  if ready = false then s else
  let s := (s.setReg Adr.PMU.BOOT_GEN s.pwr.generation).setFld Adr.PMU.BOOT_STAT 0 3 2
  let reports := s.pwr.bootReports
  let s : State := { s with pwr := { s.pwr with boot := .running, lodgeAt := some s.pwr.entry, bootReports := [],
                                                sram := SMap.setList bootBufDefault s.pwr.sram 0 s.pwr.firmware } }
  reports.foldl (fun s r => s.fault r.1 r.2) s

end Sys2Proof.Machine
end

