-- ==== Sys2Proof/Machine/Hierarchy.lean ====
section
/-! DEFINITION. The hierarchy of devices: cascade bus, heartbeats and partition states (18_multi_device.md, R329 to R336). -/

namespace Sys2Proof.Machine

/-! ### Partition states (R333 to R336) -/

/-- HIE.STATE: 0 CASCADE, 1 STANDBY, 2 MANAGER, 3 JOINED, 4 ISOLATED, 5 REJOINING. -/
def State.hie (s : State) : Nat := Fld.HIE.HIE_STAT_STATE s.regs
def State.setHie (s : State) (x : Nat) : State := s.setFld Adr.HIE.HIE_STAT 0 3 x

/-- ID_VALID, and the configuration is loaded. -/
def State.idReady (s : State) : Bool := Fld.HIE.HIE_STAT_ID_VALID s.regs == 1 && decide (s.pwr.boot = .running)

/-- Set the epoch; raise it by one. -/
def State.setEpoch (s : State) (e : Nat) : State := s.setReg Adr.HIE.EPOCH (e % 2 ^ 16)
def State.raiseEpoch (s : State) : State := s.setEpoch (Fld.HIE.EPOCH s.regs + 1)

/-- The manager raises the epoch once for each worker beyond its neighbours that entered REJOINING in a round (R335, assumption 183). -/
def State.raiseEpochs (s : State) (n : Nat) : State := if s.hie = 2 ∧ 0 < n then s.setEpoch (Fld.HIE.EPOCH s.regs + n) else s

/-- The upstream neighbour is lost, or its heartbeat carries STATE ISOLATED or REJOINING (R333). -/
def State.cutOff (s : State) : Bool :=
  match s.upPort with
  | some p => let x := s.flkPort p; x.lost || x.hbState == 4 || x.hbState == 5
  | none => false

/-- Entry to ISOLATED: a new record starts, the fault stands, and the servo holds (R334, R336). -/
def State.enterIsolated (s : State) : State :=
  let s := { (s.setHie 4).condOn 0x543 0x543 0x20 with
    isoStreams := [], links := { s.links with isoEntry := s.now, isoAccept := 0, isoEpoch := Fld.HIE.EPOCH s.regs } }
  s.reselect

/-- ISOLATED and REJOINING end: the servo selects again (R334). -/
def State.leaveIsolated (s : State) (state : Nat) : State := ((s.setHie state).condOff 0x543 0x543 0x20).reselect

/-- The device becomes MANAGER and drives FLK_MGR_ALIVE high (R332, R333). -/
def State.becomeManager (s : State) : State := (s.emit .mgrAlive).emit (.partnerPins s.partnerPins)

/-- MANAGER_CLAIM: no upstream port, and FLK_MGR_ALIVE low for 20 consecutive rounds since release from reset; high in any of them, STANDBY (R333). -/
def managerClaim (s : State) : State :=
  if s.hie = 0 ∧ s.idReady = true ∧ s.upPort = none then
    if s.links.sawAlive then s.setHie 1
    else if 20 ≤ Fld.HIE.ALIVE_LOW s.regs then (s.setHie 2).becomeManager else s
  else s

/-- PROMOTED: an isolated deputy becomes MANAGER (R333). -/
def promoted (s : State) : State :=
  if s.hie = 4 ∧ Fld.HIE.ROLE_CFG_DEPUTY s.regs = 1 ∧ 10 + 2 * Fld.HIE.ROLE_CFG_DEPUTY_RANK s.regs ≤ Fld.HIE.ALIVE_LOW s.regs then
    (((s.leaveIsolated 2).raiseEpoch).fault 0x543 0x22).becomeManager
  else s

/-- The device ID of the manager: the upstream neighbour's where that is the manager; otherwise no message of chapter 18 tells a device which one it is, and it is a
free value, one for each epoch (DESIGN CHOICE, assumption 184). -/
def State.managerId (s : State) : Nat :=
  match s.upPort with
  | some p => if (s.flkPort p).hbState = 2 then Fld.FLK.LINK_STAT_NEIGHBOUR_ID s.regs p else Config.managerId (Fld.HIE.EPOCH s.regs) % 16
  | none => Config.managerId (Fld.HIE.EPOCH s.regs) % 16

/-- Whether a master is one by which the manager writes: 0x040 + 4m + 0 or + 1 (R333). -/
def State.managerMaster (s : State) (master : Nat) : Bool := master == 0x40 + 4 * s.managerId || master == 0x41 + 4 * s.managerId

/-- Whether an ISOLATED or REJOINING device refuses a remote master's register write: every one but REJOIN_CMD from the manager (R334). -/
def State.refusesRemote (s : State) (master page off : Nat) : Bool :=
  s.isolated && decide (0x40 ≤ master) && decide (master < 0x80) && !(page == 0x54 && off == 0x050 && s.managerMaster master)

/-- A refused remote write is dropped and counted, and 0x541 reports REMOTE_REFUSED (R334). -/
def State.refuseRemote (s : State) : State := (s.bump Adr.HIE.REFUSED).fault 0x541 0x21

/-- REJOIN_CMD: ACCEPT by the manager makes a REJOINING device JOINED with the manager's epoch (R333). From another remote master an ISOLATED or REJOINING device
refuses it (R334). -/
def rejoinCmd (master value : Nat) (s : State) : State :=
  if s.refusesRemote master 0x54 0x050 then s.refuseRemote
  else if s.hie = 5 ∧ bitOf value 0 = true ∧ s.managerMaster master = true then
    let epoch := match s.upPort with
      | some p => (s.flkPort p).hbEpoch
      | none => Fld.HIE.EPOCH s.regs
    let s := (s.leaveIsolated 3).setEpoch epoch
    { s with links := { s.links with isoAccept := s.now } }
  else s

/-- EPOCH_CMD raises the epoch of the manager (R335). -/
def epochCmd (s : State) : State := if s.hie = 2 then s.raiseEpoch else s

/-! ### Heartbeats (R331, R335) -/

/-- Whether a heartbeat is accepted: its SEQ is later than the last accepted one's, and for any device but the manager its epoch is not earlier than the
device's own, nor ambiguous with it. -/
def State.acceptsHeartbeat (s : State) (p : Nat) (h : Heartbeat) : Bool :=
  (match (s.flkPort p).hbLast with
    | none => true
    | some l => decide (serial 8 h.seq l = .later)) &&
  (s.hie == 2 || decide (serial 16 h.epoch (Fld.HIE.EPOCH s.regs) = .equal) || decide (serial 16 h.epoch (Fld.HIE.EPOCH s.regs) = .later))

/-- What an accepted heartbeat from upstream does to the partition state (R333, R335). -/
def State.upstreamHeartbeat (s : State) (h : Heartbeat) : State :=
  if s.hie = 0 ∨ s.hie = 1 then (if s.idReady then (s.setHie 3).setEpoch h.epoch else s)
  else if s.hie = 3 then s.setEpoch h.epoch
  else if s.hie = 4 then (if h.state = 2 ∨ h.state = 3 then s.setHie 5 else s)
  else if s.hie = 5 then (if h.state = 4 ∨ h.state = 5 then s.enterIsolated else s)
  else s

/-- HEARTBEAT_RECEIVE (R331, R333, R335). -/
def heartbeatReceive (p : Nat) (h : Heartbeat) (s : State) : State :=
  if !s.linkUp p || !s.acceptsHeartbeat p h then s else
  let x := s.flkPort p
  let rejoins := s.hie == 2 && h.state == 5 && x.hbState != 5
  let s := s.setFlk p { x with hbLast := some (h.seq % 256), hbState := h.state, hbEpoch := h.epoch, hbSeen := true, hbMissed := 0, lost := false }
  let s := ((s.setFld (Adr.FLK.LINK_STAT p) 8 4 h.sender).setFld (Adr.FLK.LINK_STAT p) 12 1 1).condOff (flkUnit p + 1) (flkUnit p + 1) 0x20
  let s := if rejoins then s.raiseEpoch else s
  if s.upPort = some p then s.upstreamHeartbeat h else s

/-- A device that is cut off while REJOINING is ISOLATED at once (R333). -/
def State.checkCut (s : State) : State := if s.hie = 5 ∧ s.cutOff = true then s.enterIsolated else s

/-- NEIGHBOUR_LOST: three round boundaries have passed with no heartbeat accepted (R331). -/
def neighbourLost (p : Nat) (s : State) : State :=
  if s.linkUp p ∧ 3 ≤ (s.flkPort p).hbMissed ∧ (s.flkPort p).lost = false then
    ((s.forgetNeighbour p).condOn (flkUnit p + 1) (flkUnit p + 1) 0x20).checkCut
  else s

/-- Whether a reference meets its loss rule (R252): a Sync missing for 3 × 2^SYNC_LOG s, no pulse or sync word for 2 P, no edge for 16 P, or 3 heartbeats
missed on the port that leads to the manager. -/
def State.lossDue (s : State) (r : Nat) : Bool :=
  let idle := s.elapsed - (s.ref r).seen
  if r = 1 then decide (3000000000 * 2 ^ (8 + signed (Fld.SUN1.REF_PARAM_SYNC_LOG s.regs 0) 4).toNat ≤ idle * 2 ^ 8)
  else if r ≤ 4 then decide (2 * genlockSpan (rateDen (s.refRate r)) ≤ idle * rateNum (s.refRate r))
  else if r = 5 then decide (1600 ≤ idle)
  else if r = 6 then decide (16000000000 ≤ idle * wordRate (listed (Adr.SUN1.REF_PARAM 5) (Fld.SUN1.REF_PARAM_RATE s.regs 5) 4))
  else match s.upPort with
    | some p => decide (3 ≤ (s.flkPort p).hbMissed) || (s.flkPort p).lost
    | none => false

/-- REF_LOSS: a reference meets its loss rule (R252, R254). -/
def refLoss (r : Nat) (s : State) : State := if s.lossDue r then s.loseRef r else s

/-- FLK_LINK_DOWN with what it does to the partition state. -/
def linkDownEvent (p : Nat) (s : State) : State := (flkLinkDown p s).checkCut

/-- The heartbeat of a round on one UP port: the boundary is counted where none was accepted since the one before, and one is sent. -/
def State.beat (s : State) (p : Nat) : State :=
  if !s.linkUp p then s else
  let x := s.flkPort p
  let s := if x.hbSeen then s else s.bump (Adr.FLK.HB_MISSED p)
  let s := s.setFlk p { x with hbSeen := false, hbMissed := if x.hbSeen then 0 else x.hbMissed + 1, hbSeq := (x.hbSeq + 1) % 256 }
  s.emit (.heartbeat p x.hbSeq (Fld.HIE.HIE_STAT_DEV_ID s.regs) s.hie (Fld.HIE.EPOCH s.regs))

/-- FLK_MGR_ALIVE is sampled (R332, R333). -/
def State.sampleAlive (s : State) (alive : Bool) : State :=
  let s := (s.setFld Adr.HIE.HIE_STAT 16 1 (b2n alive)).setReg Adr.HIE.ALIVE_LOW (if alive then 0 else satInc 5 (Fld.HIE.ALIVE_LOW s.regs))
  { s with links := { s.links with sawAlive := s.links.sawAlive || alive } }

/-- The hierarchy's part of a round boundary: MGR_ALIVE, isolation, heartbeats, TIME messages (R324, R331 to R333). -/
def State.hierarchyRound (s : State) (alive : Bool) : State :=
  let s := s.sampleAlive alive
  let s := if s.hie = 3 ∧ s.cutOff = true then s.enterIsolated else s
  ((List.range 4).foldl State.beat s).sendTime

/-! ### Cascade bus (R329, R330) -/

/-- A good message ends a run of repeats. -/
def State.cascadeGood (s : State) : State := { s with links := { s.links with retries := 0 } }

/-- ID_ASSIGN(n) arrives: with n ≤ 15 the device takes it and assigns the next, else it reports CONFIG (R329). -/
def idAssign (n : Nat) (s : State) : State :=
  let s := s.cascadeGood
  if n ≤ 15 then ((s.setFld Adr.HIE.HIE_STAT 8 4 n).setFld Adr.HIE.HIE_STAT 12 1 1).emit (.idAssign (n + 1)) else s.fault 0x542 0x07

/-- ID_REQUEST: a device with no ID asks upstream for one; a device with one answers its downstream neighbour's request with the same ID as before (R329). -/
def idRequest (s : State) : State :=
  if Fld.HIE.HIE_STAT_ID_VALID s.regs = 1 then s.emit (.idAssign (Fld.HIE.HIE_STAT_DEV_ID s.regs + 1)) else s.emit .idRequest

/-- CASCADE_MESSAGE_BAD: discarded and requested again, up to 8 times; after that TIMEOUT (R329). -/
def cascadeMessageBad (s : State) : State :=
  if s.links.retries < 8 then ({ s with links := { s.links with retries := s.links.retries + 1 } } : State).emit .cascadeRepeat
  else s.cascadeGood.fault 0x542 0x04

/-- The messages in which a device sends its boot image downstream: blocks that leave room for an offset and the CRC-32 in 4 KiB (R330, assumption 185). -/
def State.sendImage (s : State) : State :=
  let parts := chunks 4088 s.pwr.image.length s.pwr.image
  parts.zipIdx.foldl (fun (s : State) e => s.emit (.imageBlock (4088 * e.2) e.1 (e.2 + 1 == parts.length))) s

/-- IMAGE_BLOCK: a block is forwarded downstream, or taken by the device that asked, whose CAS_ROOT is 0; the last block's image is checked (R330, R348). A downstream
device's request is answered with the device's own image where it has a valid one, and is forwarded upstream where it has none. -/
def imageBlock (message : ImageMessage) (offset : Nat) (bytes : List Byte) (last : Bool) (s : State) : State :=
  let s := s.cascadeGood
  match message with
  | .forward => s.emit (.imageBlock offset bytes last)
  | .request => if !s.pwr.image.isEmpty then s.sendImage else if s.pwr.casRoot then s else s.emit .imageRequest
  | .forUs =>
  if s.pwr.boot ≠ .waitImage ∨ s.pwr.imageTaken = true ∨ s.pwr.casRoot = true then s else
  let p := s.pwr
  let s : State := { s with pwr := { p with bootBuf := SMap.setList bootBufDefault p.bootBuf offset bytes, imageLen := max p.imageLen (offset + bytes.length) } }
  if last then
    let image := SMap.getList bootBufDefault s.pwr.bootBuf 0 (min (2 ^ 20) s.pwr.imageLen)
    ({ s with pwr := { s.pwr with imageLen := 0 } } : State).tryImage image 2
  else s

/-- Kiosk selector 0x10 + s of HIE: the isolated record of stream s (R336). -/
def State.hieKiosk (s : State) (sel : Nat) : Option (List Nat) :=
  if 0x10 ≤ sel ∧ sel < 0x14 then
    let r : IsoStream := ((s.isoStreams.find? (fun e => e.1 == sel - 0x10)).map (·.2)).getD { first := 0, last := 0, count := 0 }
    let l := s.links
    some [r.first, r.last, r.count % 2 ^ 24, l.isoEpoch + l.isoEntry / 2 ^ 32 * 2 ^ 16 + l.isoAccept / 2 ^ 32 * 2 ^ 24, l.isoEntry % 2 ^ 32, l.isoAccept % 2 ^ 32]
  else none

/-- The counters that CNT_RESTART of HIE restarts. -/
def hieCounters : List (List RegAddr) := [[Adr.HIE.REFUSED]]

end Sys2Proof.Machine
end

