-- ==== Sys2Proof/Machine/Offload.lean ====
section
/-! DEFINITION. The offload storage controller: function 1, its queues, arbitration, admin and I/O commands, errors and power states
(11_offload_controller.md, R215 to R228). Field places inside NVMe entries, logs and Identify data are those of NVMe 2.0, which the spec names. -/

namespace Sys2Proof.Machine

/-! ### Statuses and the logs (R223 to R225) -/

/-- Replace the controller. -/
def State.setOfc (s : State) (o : Ofc) : State := { s with ofc := o }

/-- A status caused by the host (R224). -/
def hostStatus (sct sc : Nat) (dnr : Bool) (reporter : Nat) : HostStatus :=
  { sct := sct, sc := sc, dnr := dnr, cause := 0xF34, code := 0, reporter := reporter, media := 0 }

/-- The unit that decides a status on a queue. -/
def queueUnit (sq : Nat) : Nat := if sq = 0 then 0x341 else 0x342

def invalidOpcode (sq : Nat) : HostStatus := hostStatus 0 0x01 true (queueUnit sq)
def invalidField (sq : Nat) : HostStatus := hostStatus 0 0x02 true (queueUnit sq)
def invalidNamespace (sq : Nat) : HostStatus := hostStatus 0 0x0B true (queueUnit sq)
def lbaOutOfRange (sq : Nat) : HostStatus := hostStatus 0 0x80 true (queueUnit sq)
def accessDenied : HostStatus := { sct := 2, sc := 0x86, dnr := true, cause := 0x023, code := 0x02, reporter := 0x023, media := 0 }

/-- The fault code that a cause holds (R225). -/
def State.codeHeld (s : State) (cause : Nat) : Nat := match (s.held.filter (fun h => h.unit == cause)).getLast? with
  | some h => h.code
  | none => 0

/-- The status of an access to a member that fails, and of an error response (R224). -/
def State.memberStatus (s : State) (isWrite : Bool) (m media : Nat) : HostStatus :=
  { sct := 2, sc := if isWrite then 0x80 else 0x81, dnr := true, cause := memberUnit m, code := s.codeHeld (memberUnit m), reporter := 0x343, media := media }
def State.busStatus (s : State) (unit : Nat) : HostStatus :=
  { sct := 0, sc := 0x06, dnr := false, cause := unit, code := s.codeHeld unit, reporter := 0x343, media := 0 }

/-- The status field of a completion entry without its phase tag. -/
def HostStatus.field (t : HostStatus) : Nat := t.sc * 2 + t.sct * 2 ^ 9 + if t.dnr then 2 ^ 15 else 0

/-! ### Queues and completions (R216, R223) -/

def State.sq (s : State) (q : Nat) : Option SubQueue := (s.ofc.sqs.find? (fun e => e.1 == q)).map (·.2)
def State.setSq (s : State) (q : Nat) (x : SubQueue) : State := s.setOfc { s.ofc with sqs := SMap.put s.ofc.sqs q x }
def State.cq (s : State) (q : Nat) : Option CplQueue := (s.ofc.cqs.find? (fun e => e.1 == q)).map (·.2)
def State.setCq (s : State) (q : Nat) (x : CplQueue) : State := s.setOfc { s.ofc with cqs := SMap.put s.ofc.cqs q x }

/-- Entries of a submission queue not yet fetched. -/
def SubQueue.waiting (x : SubQueue) : Nat := if x.size = 0 then 0 else (x.tail + x.size - x.head % x.size) % x.size

/-- Post the completions that have room, oldest first. -/
def State.postAll (s : State) : Nat → State
  | 0 => s
  | fuel + 1 =>
    match s.ofc.posts.find? (fun p => match s.cq p.cq with
      | some c => decide ((c.tail + 1) % c.size ≠ c.head)
      | none => false) with
    | none => s
    | some p =>
      match s.cq p.cq with
      | none => s
      | some c =>
        let head := match s.sq p.sq with
          | some q => q.head
          | none => 0
        let s := s.emit (.hostCompletion p.cq p.sq head p.cid p.status p.cdw0)
        let s := match c.vector with
          | some v => s.emit (.msixFunction1 v)
          | none => s
        let wrap := decide (c.tail + 1 = c.size)
        let s := s.setCq p.cq { c with tail := if wrap then 0 else c.tail + 1, phase := if wrap then !c.phase else c.phase }
        (s.setOfc { s.ofc with posts := s.ofc.posts.erase p }).postAll fuel

/-- The phase tag of the next completion decided for a queue. -/
def State.nextPhase (s : State) (cq : Nat) : Nat :=
  match s.cq cq with
  | some c =>
    let pos := c.tail + (s.ofc.posts.filter (fun p => p.cq == cq)).length
    if c.size = 0 then b2n c.phase else (b2n c.phase + pos / c.size) % 2
  | none => 0

/-- A completion is decided: it is posted once its queue has room. -/
def State.post (s : State) (sq cid status cdw0 : Nat) : State :=
  match s.sq sq with
  | none => s
  | some q =>
    let p : Post := { cq := q.cq, sq := sq, cid := cid, status := status + s.nextPhase q.cq, cdw0 := cdw0 }
    let s := s.setOfc { s.ofc with posts := s.ofc.posts ++ [p] }
    s.postAll s.ofc.posts.length

/-- Commands of a queue fetched and not completed. -/
def State.inflightOf (s : State) (sq : Nat) : Nat := (s.ofc.cmds.filter (fun c => c.sq == sq)).length

/-- The controller is idle from now where nothing is outstanding (R228). -/
def State.noteIdle (s : State) : State := if s.ofc.cmds.isEmpty then s.setOfc { s.ofc with idleFrom := s.elapsed } else s

/-- Whether one of these host commands is outstanding. -/
def State.hostOutstanding (s : State) (tags : List Nat) : Bool := s.ofc.cmds.any (fun c => tags.contains c.tag)

/-- What waited for the end of a volume's host commands goes on (R218). -/
def State.afterHost (s : State) (nsid : Nat) : State :=
  if 1 ≤ nsid ∧ nsid ≤ 16 then
    let s := s.volWake (nsid - 1)
    match s.volWait (nsid - 1) with
    | .disable tags => if s.hostOutstanding tags then s else s.volOff (nsid - 1)
    | _ => s
  else s

/-- Remove a command. -/
def State.endCmd (s : State) (c : HostCmd) : State := s.setOfc { s.ofc with cmds := s.ofc.cmds.erase c }

/-- COMMAND_COMPLETION's success: the entry is posted (R220). -/
def State.succeed (s : State) (c : HostCmd) (cdw0 : Nat) : State :=
  (((s.endCmd c).post c.sq c.cmd.cid 0 cdw0).noteIdle).afterHost c.cmd.nsid

/-- The first LBA of a command; 0 if it has none. -/
def firstLba (c : NvmeCmd) (sq : Nat) : Nat := if sq ≠ 0 ∧ (c.opcode = 1 ∨ c.opcode = 2) then c.cdw10 + 2 ^ 32 * c.cdw11 else 0

/-- QUEUE_FREEZE: an error completion on an I/O submission queue freezes it in the beat in which the status is decided (R223). -/
def State.freeze (s : State) (sq : Nat) : State :=
  match s.sq sq with
  | some q => if sq = 0 ∨ q.frozen = true then s else (s.setSq sq { q with frozen := true }).bump Adr.OFC.FREEZES
  | none => s

/-- An error completion: the queue freezes, both logs get an entry, a cause other than the host is reported, and the entry is posted (R223, R225). -/
def State.fail (s : State) (c : HostCmd) (t : HostStatus) : State :=
  let s := s.freeze c.sq
  let cq := match s.sq c.sq with
    | some q => q.cq
    | none => 0
  let e : ErrEntry :=
    { count := s.ofc.errorCount + 1, sq := c.sq, cid := c.cmd.cid, status := t.field + s.nextPhase cq, cause := t.cause, code := t.code, opcode := c.cmd.opcode,
      reporter := t.reporter, nsid := c.cmd.nsid, lba := firstLba c.cmd c.sq, time := s.now, media := t.media, outstanding := s.inflightOf c.sq }
  let s := s.setOfc { s.ofc with errorCount := s.ofc.errorCount + 1, log := (e :: s.ofc.log).take 64,
                                 mediaErrors := s.ofc.mediaErrors + b2n (decide (0xF00 ≤ t.cause ∧ t.cause < 0xF20)) }
  let s := if t.cause = 0xF34 then s else s.upstream 0x340 t.cause
  (((s.endCmd c).post c.sq c.cmd.cid t.field 0).noteIdle).afterHost c.cmd.nsid

/-- A fetched admin command, and an I/O command, by CID and opcode. -/
def State.adminCmd (s : State) (cid opcode : Nat) : Option HostCmd := s.ofc.cmds.find? (fun c => c.sq == 0 && c.cmd.cid == cid && c.cmd.opcode == opcode)
def State.ioCmd (s : State) (sq cid opcode : Nat) : Option HostCmd :=
  if sq = 0 then none else s.ofc.cmds.find? (fun c => c.sq == sq && c.cmd.cid == cid && c.cmd.opcode == opcode)

/-! ### Enable, disable and shutdown (R216) -/

/-- CONTROLLER_ENABLE: CC.EN from 0 to 1 (R216). -/
def controllerEnable (wrr : Bool) (asqSize acqSize asqBase acqBase : Nat) (s : State) : State :=
  if s.ofc.enabled || s.ofc.ready then s else
  let s := s.setOfc { s.ofc with enabled := true, wrr := wrr, shn := 0, shst := 0 }
  if s.hasFlow 0x340 then
    s.setOfc { s.ofc with
      ready := true, queueMade := false, idleFrom := s.elapsed
      sqs := [(0, { cq := 0, size := asqSize, base := asqBase, qprio := 0, head := 0, tail := 0, frozen := false, wait := 0 })]
      cqs := [(0, { size := acqSize, base := acqBase, head := 0, tail := 0, phase := true, vector := some 0 })] }
  else s.fault 0x340 0x07

/-- Whether a member command serves one of these host commands. -/
def isHostOf (tags : List Nat) : MemberUse → Bool
  | .host _ t => tags.contains t
  | _ => false

/-- CONTROLLER_DISABLE: every queue is deleted and every outstanding command ends without a completion entry; issued member commands run on (R216). -/
def controllerDisable (s : State) : State :=
  if !s.ofc.enabled then s else
  let gone := s.ofc.cmds
  let tags := gone.map (·.tag) ++ s.ofc.deleting.flatMap (·.tags)
  let s := s.setOfc { s.ofc with enabled := false, sqs := [], cqs := [], cmds := [], posts := [], deleting := [], draining := tags, features := [], apst := [],
                                 ps := 0, ready := s.ofc.ready && s.runs (isHostOf tags), creditHigh := 0, creditMedium := 0, creditLow := 0, turn := [0, 0, 0, 0, 0] }
  gone.foldl (fun s c => s.afterHost c.cmd.nsid) s

/-- CONTROLLER_DISABLE_DONE: RDY reads 0 once the member commands of the ended commands have completed or timed out (R216). -/
def controllerDisableDone (s : State) : State :=
  if !s.ofc.enabled && !s.runs (isHostOf s.ofc.draining) then s.setOfc { s.ofc with ready := false, draining := [] } else s

/-- FUNCTION_LEVEL_RESET of function 1 acts as a disable (R216). -/
def functionLevelReset (s : State) : State := controllerDisable s

/-- CC_SHUTDOWN: a shutdown is requested (R216). -/
def ccShutdown (shn : Nat) (s : State) : State :=
  if shn = 0 then s.setOfc { s.ofc with shn := 0 } else s.setOfc { s.ofc with shn := shn, shst := if s.ofc.shst = 2 then 2 else 1 }

/-- SHUTDOWN_COMPLETE: CSTS.SHST becomes 0b10 once no command is outstanding (R216). -/
def shutdownComplete (s : State) : State := if s.ofc.shst = 1 ∧ s.ofc.cmds.isEmpty = true then s.setOfc { s.ofc with shst := 2 } else s

/-- SQ_DOORBELL: entries are added; a doorbell in a non-operational state returns the controller to PS0 (R223, R228). -/
def sqDoorbell (q tail : Nat) (s : State) : State :=
  if !s.ofc.ready then s else
  let s := s.setOfc { s.ofc with ps := 0 }
  match s.sq q with
  | some x => if tail < x.size then s.setSq q { x with tail := tail } else s
  | none => s

/-- CQ_DOORBELL frees completion entries; waiting completions are posted. A doorbell is a doorbell of R228 too. -/
def cqDoorbell (q head : Nat) (s : State) : State :=
  if !s.ofc.ready then s else
  let s := s.setOfc { s.ofc with ps := 0 }
  match s.cq q with
  | some x => if head < x.size then (s.setCq q { x with head := head }).postAll s.ofc.posts.length else s
  | none => s

/-! ### Arbitration (R222) -/

/-- A feature value as set; 0 before any Set Features. -/
def State.feature (s : State) (fid : Nat) : Nat := SMap.get (fun _ => 0) s.ofc.features fid

/-- The eligible I/O submission queues: they exist, are not frozen and hold unfetched entries. -/
def State.eligible (s : State) : List (Nat × SubQueue) := s.ofc.sqs.filter (fun e => e.1 != 0 && !e.2.frozen && decide (0 < e.2.waiting))

/-- The next queue after `last` in SQID round robin. -/
def roundRobin (last : Nat) (qs : List Nat) : Option Nat := (qs.find? (fun q => decide (last < q))).or qs.head?

/-- Serve the next queue of a class: 0 URGENT, 1 HIGH, 2 MEDIUM, 3 LOW, 4 all. -/
def State.serveClass (s : State) (c : Nat) : Option (Nat × State) :=
  let qs := (s.eligible.filter (fun e => c == 4 || e.2.qprio == c)).map (·.1)
  (roundRobin (nth 0 s.ofc.turn c) qs).map (fun q => (q, s.setOfc { s.ofc with turn := setAt s.ofc.turn c q }))

/-- The starved LOW or MEDIUM queue with the largest wait, ties to the lowest SQID. -/
def State.starved (s : State) : Option Nat :=
  let late := (s.eligible.filter (fun e => decide (2 ≤ e.2.qprio) && decide (inRange Adr.OFC.PATIENCE (Fld.OFC.PATIENCE s.regs) 1 65535 < e.2.wait)))
  (late.foldl (fun (b : Option (Nat × Nat)) e => match b with
    | some (_, w) => if w < e.2.wait then some (e.1, e.2.wait) else b
    | none => some (e.1, e.2.wait)) none).map (·.1)

/-- One pass over HIGH, MEDIUM and LOW with their credits. -/
def State.weightedPass (s : State) : Option (Nat × State) :=
  let o := s.ofc
  let try_ (credit c : Nat) (t : State) : Option (Nat × State) := if 0 < credit then t.serveClass c else none
  ((try_ o.creditHigh 1 (s.setOfc { o with creditHigh := o.creditHigh - 1 })).or
    (try_ o.creditMedium 2 (s.setOfc { o with creditMedium := o.creditMedium - 1 }))).or
    (try_ o.creditLow 3 (s.setOfc { o with creditLow := o.creditLow - 1 }))

/-- Refill the credits from HPW, MPW and LPW. -/
def State.refill (s : State) : State :=
  let f := s.feature 1
  s.setOfc { s.ofc with creditHigh := bits f 24 8 + 1, creditMedium := bits f 16 8 + 1, creditLow := bits f 8 8 + 1 }

/-- select() of R222; the admin queue comes first under either CC.AMS. Two passes without a queue to serve leave the credits filled. -/
def State.selectQueue (s : State) : Option Nat × State :=
  let admin := match s.sq 0 with
    | some q => decide (0 < q.waiting)
    | none => false
  let served (o : Option (Nat × State)) (none_ : State) : Option Nat × State := match o with
    | some (q, t) => (some q, t)
    | none => (none, none_)
  if admin then (some 0, s) else
  if !s.ofc.wrr then served (s.serveClass 4) s else
  match s.starved with
  | some q => (some q, s.bump Adr.OFC.STARVED)
  | none => served (((s.serveClass 0).or s.weightedPass).or s.refill.weightedPass) s.refill

/-- The Gatehouse check of a namespace against the master of the queue (R219). -/
def State.namespaceGranted (s : State) (sq nsid : Nat) (isWrite : Bool) : Bool :=
  s.grants (0x10F + nsid) (if sq = 0 then Fld.GTH.ADM_MID s.regs else s.queueMaster sq) isWrite

/-- A Gatehouse refusal: GATE is reported (R52, R219). -/
def State.refuseNamespace (s : State) (sq nsid : Nat) (isWrite : Bool) : State :=
  s.refuse 0x023 (if sq = 0 then Fld.GTH.ADM_MID s.regs else s.queueMaster sq) (0x10F + nsid) isWrite

/-- The blocks of a namespace (R217). -/
def State.nsze (s : State) (v : Nat) : Nat := s.volM v * Fld.BTH.EXT_STRIPES s.regs v * 256

/-- Whether a range of a volume lies within the capacity of the members behind it. -/
def State.behind (s : State) (v : Nat) : Nat → Nat → Nat → Bool
  | 0, _, _ => true
  | fuel + 1, o, len =>
    if len = 0 then true else
    let (m, a) := s.mediaOf v o
    let n := min len (2 ^ 20 - o % 2 ^ 20)
    decide (a + n ≤ (s.member m).capacity) && s.behind v fuel (o + n) (len - n)

/-- What the checks at the fetch decide of an I/O command: the volume's state at the fetch, then the Gatehouse, then the fields (R218, R219, R221, R224). A Flush
of all namespaces names none. -/
def State.fetchCheck (s : State) (sq : Nat) (c : NvmeCmd) : Option HostStatus × State :=
  if [0x00, 0x01, 0x02, 0x09].contains c.opcode = false ∨ (c.opcode = 0 ∧ c.nsid = 0xFFFFFFFF) then (none, s)
  else if c.nsid = 0 ∨ 16 < c.nsid then (some (invalidNamespace sq), s)
  else
    let isWrite := c.opcode == 1
    let v := c.nsid - 1
    let st := s.volState v
    if st = 0 then (some (invalidNamespace sq), s) else
    if isWrite ∧ (st = 2 ∨ st = 3) then (some (hostStatus 0 0x20 false (queueUnit sq)), s) else
    if isWrite ∧ st = 4 then (some (hostStatus 0 0x20 true (queueUnit sq)), s) else
    if !s.namespaceGranted sq c.nsid isWrite then (some accessDenied, s.refuseNamespace sq c.nsid isWrite) else
    if c.opcode = 0 ∨ c.opcode = 9 then (none, s) else
    let n := c.cdw12 % 2 ^ 16 + 1
    let lba := firstLba c sq
    if 256 < n then (some (invalidField sq), s) else
    if s.nsze v < lba + n ∨ s.behind v (n + 1) (lba * 4096) (n * 4096) = false then (some (lbaOutOfRange sq), s) else (none, s)

/-- COMMAND_FETCH: commands enter in fetch order with what their checks decide (R218, R219). -/
def State.fetchAll (s : State) (sq : Nat) : List NvmeCmd → State
  | [] => s
  | c :: r =>
    let (bad, s) := if sq = 0 then (none, s) else s.fetchCheck sq c
    (s.setOfc { s.ofc with nextTag := s.ofc.nextTag + 1, cmds := s.ofc.cmds ++ [{ tag := s.ofc.nextTag, sq := sq, cmd := c, issued := false, refused := bad, units := [] }] }).fetchAll sq r

/-- ARBITRATION_ROUND: select a queue and fetch a burst of its commands; `entries` are the entries at its head in host memory (R222). -/
def arbitrationRound (entries : List NvmeCmd) (s : State) : State :=
  if !s.ofc.ready || !s.ofc.enabled || s.holding 0x34 then s else
  let inflight := (s.ofc.cmds.filter (fun c => c.sq != 0)).length
  if 8192 ≤ inflight then s else
  let others := s.eligible
  match s.selectQueue with
  | (none, s) => s
  | (some q, s) =>
    match s.sq q with
    | none => s
    | some x =>
      let ab := bits (s.feature 1) 0 3
      let n := min (min (min (if ab = 7 then 4096 else 2 ^ ab) x.waiting) (8192 - inflight)) entries.length
      let s := s.setSq q { x with head := (x.head + n) % x.size, wait := 0 }
      let s := if s.ofc.wrr then
          others.foldl (fun s e =>
            if e.1 != q && decide (2 ≤ e.2.qprio) then s.setSq e.1 { e.2 with wait := satInc 16 e.2.wait } else s) s
        else s
      s.fetchAll q (entries.take n)

/-! ### Admin commands (R221, R225 to R227) -/

/-- An I/O queue has been created (R221). -/
def State.queueCreated (s : State) : State := s.setOfc { s.ofc with queueMade := true }

/-- CREATE_IO_SQ (R221). -/
def createIoSq (cid : Nat) (s : State) : State :=
  match s.adminCmd cid 0x01 with
  | none => s
  | some c =>
    let q := c.cmd.cdw10 % 2 ^ 16
    let size := c.cmd.cdw10 / 2 ^ 16 % 2 ^ 16 + 1
    let cq := c.cmd.cdw11 / 2 ^ 16 % 2 ^ 16
    if q = 0 ∨ 512 < q ∨ (s.sq q).isSome then s.fail c (hostStatus 1 0x01 true 0x341) else
    if c.cmd.cdw11 % 2 = 0 then s.fail c (invalidField 0) else
    if size < 2 ∨ 4096 < size then s.fail c (hostStatus 1 0x02 true 0x341) else
    if cq = 0 ∨ (s.cq cq).isNone then s.fail c (hostStatus 1 0x00 true 0x341) else
    (s.setSq q { cq := cq, size := size, base := c.cmd.prp1, qprio := bits c.cmd.cdw11 1 2, head := 0, tail := 0, frozen := false, wait := 0 }).queueCreated.succeed c 0

/-- CREATE_IO_CQ (R221). -/
def createIoCq (cid : Nat) (s : State) : State :=
  match s.adminCmd cid 0x05 with
  | none => s
  | some c =>
    let q := c.cmd.cdw10 % 2 ^ 16
    let size := c.cmd.cdw10 / 2 ^ 16 % 2 ^ 16 + 1
    let iv := c.cmd.cdw11 / 2 ^ 16 % 2 ^ 16
    if q = 0 ∨ 512 < q ∨ (s.cq q).isSome then s.fail c (hostStatus 1 0x01 true 0x341) else
    if c.cmd.cdw11 % 2 = 0 then s.fail c (invalidField 0) else
    if size < 2 ∨ 4096 < size then s.fail c (hostStatus 1 0x02 true 0x341) else
    if 63 < iv then s.fail c (hostStatus 1 0x08 true 0x341) else
    (s.setCq q { size := size, base := c.cmd.prp1, head := 0, tail := 0, phase := true, vector := if bitOf c.cmd.cdw11 1 then some iv else none }).queueCreated.succeed c 0

/-- The status of a command ended by the deletion of its queue (R224). -/
def abortedStatus : HostStatus := hostStatus 0 0x08 false 0x342

/-- DELETE_IO_SQ: unfetched entries are discarded, fetched commands are posted as aborted; the Delete completes later (R227). -/
def deleteIoSq (cid : Nat) (s : State) : State :=
  match s.adminCmd cid 0x00 with
  | none => s
  | some c =>
    let q := c.cmd.cdw10 % 2 ^ 16
    if s.ofc.deleting.any (fun d => d.cid == cid) then s else
    if q = 0 ∨ (s.sq q).isNone then s.fail c (hostStatus 1 0x01 true 0x341) else
    let ended := s.ofc.cmds.filter (fun d => d.sq == q)
    let s := ended.foldl (fun s d => s.fail d abortedStatus) s
    s.setOfc { s.ofc with sqs := SMap.del s.ofc.sqs q, deleting := s.ofc.deleting ++ [{ cid := cid, sq := q, tags := ended.map (·.tag) }] }

/-- DELETE_IO_SQ_DONE: the Delete completes once the issued member commands have finished (R227). -/
def deleteIoSqDone (cid : Nat) (s : State) : State :=
  match s.ofc.deleting.find? (fun d => d.cid == cid), s.adminCmd cid 0x00 with
  | some d, some c =>
    if s.runs (isHostOf d.tags) then s
    else (s.setOfc { s.ofc with deleting := s.ofc.deleting.erase d }).succeed c 0
  | _, _ => s

/-- DELETE_IO_CQ (R227). -/
def deleteIoCq (cid : Nat) (s : State) : State :=
  match s.adminCmd cid 0x04 with
  | none => s
  | some c =>
    let q := c.cmd.cdw10 % 2 ^ 16
    if q = 0 ∨ (s.cq q).isNone then s.fail c (hostStatus 1 0x01 true 0x341) else
    if s.ofc.sqs.any (fun e => e.2.cq == q) then s.fail c (hostStatus 1 0x0C true 0x341) else
    (s.setOfc { s.ofc with cqs := SMap.del s.ofc.cqs q, posts := s.ofc.posts.filter (fun p => p.cq != q) }).succeed c 0

/-- An entry of the Error Information log, and of vendor log 0xC0 (R225). -/
def ErrEntry.info (e : ErrEntry) : List Byte :=
  overlays (List.replicate 64 0)
    [(0, 8, e.count), (8, 2, e.sq), (10, 2, e.cid), (12, 2, e.status), (14, 2, 0xFFFF), (16, 8, e.lba), (24, 4, e.nsid), (28, 1, 0xC0)]
def ErrEntry.vendor (e : ErrEntry) : List Byte :=
  overlays (List.replicate 64 0)
    [(0, 8, e.count), (8, 2, e.sq), (10, 2, e.cid), (12, 2, e.status), (14, 2, e.cause), (16, 1, e.code), (17, 1, e.opcode), (18, 2, e.reporter),
     (20, 4, e.nsid), (24, 8, e.lba), (32, 8, e.time), (40, 8, e.media), (48, 4, e.outstanding)]

/-- The SMART / Health log (R221): what the spec does not fill is a free value. -/
def State.smartLog (s : State) : List Byte × State :=
  let pkg := signed (s.rd (Adr.ICE.TEMP 4)) 32
  let failed := (List.range 16).any (fun v => Fld.BTH.VOL_CFG_EN s.regs v == 1 && s.volState v == 4)
  let warning := (if 115 * 65536 ≤ pkg then 2 else 0) + (if failed then 4 else 0)
  let o := s.ofc
  let page := (List.range 512).map (fun k => BitVec.ofNat 8 (Config.freeWord (s.freeCount + k)).toNat)
  (overlays page [(0, 1, warning), (1, 2, (Int.fdiv pkg 65536 + 273).toNat), (32, 16, ceilDiv (o.unitsRead * 8) 1000), (48, 16, ceilDiv (o.unitsWritten * 8) 1000),
    (64, 16, o.reads), (80, 16, o.writes), (112, 16, s.pwr.powerCycles), (128, 16, s.elapsed / 3600000000000), (160, 16, o.mediaErrors), (176, 16, o.errorCount)], { s with freeCount := s.freeCount + 512 })

/-- GET_LOG_PAGE (R221, R225): bytes beyond the log are free values. -/
def getLogPage (cid : Nat) (s : State) : State :=
  match s.adminCmd cid 0x02 with
  | none => s
  | some c =>
    let lid := c.cmd.cdw10 % 256
    let n := (bits c.cmd.cdw10 16 12 + 1) * 4
    let entries (f : ErrEntry → List Byte) : List Byte := (s.ofc.log.flatMap f) ++ List.replicate (4096 - 64 * s.ofc.log.length) 0
    let answer (log : List Byte) (s : State) : State :=
      let pad := (List.range (n - log.length)).map (fun k => BitVec.ofNat 8 (Config.freeWord (s.freeCount + k)).toNat)
      (({ s with freeCount := s.freeCount + (n - log.length) } : State).emit (.hostData 0 cid ((log ++ pad).take n))).succeed c 0
    if lid = 0x01 then answer (entries ErrEntry.info) s
    else if lid = 0x02 then
      let (log, s) := s.smartLog
      answer log s
    else if lid = 0xC0 then answer (entries ErrEntry.vendor) s
    else s.fail c (hostStatus 1 0x09 true 0x341)

/-- Identify Controller (R215, R228); identifiers that the spec does not give are free values. -/
def State.identifyController (s : State) : List Byte × State :=
  let free (k : Nat) : List Byte := (List.range k).map (fun i => BitVec.ofNat 8 (Config.freeWord (s.freeCount + i)).toNat)
  let page := overlay (List.replicate 4096 0) 0 (free 76)
  let page := overlays page
    [(77, 1, 8), (80, 4, 0x00020000), (84, 4, 1000000), (88, 4, 100000), (111, 1, 1), (262, 1, 63), (263, 1, 2), (265, 1, 1), (266, 2, 368), (268, 2, 388),
     (512, 1, 0x66), (513, 1, 0x44), (516, 4, 16), (520, 2, 4), (2048, 2, 600), (2080, 2, 150), (2083, 1, 2), (2084, 4, 20), (2088, 4, 60), (2112, 2, 40),
     (2115, 1, 2), (2116, 4, 200), (2120, 4, 1000)]
  (page, { s with freeCount := s.freeCount + 76 })

/-- Identify Namespace (R217). -/
def State.identifyNamespace (s : State) (v : Nat) : List Byte :=
  if s.volState v = 0 then List.replicate 4096 0 else
  overlays (List.replicate 4096 0)
    [(0, 8, s.nsze v), (8, 8, s.nsze v), (16, 8, s.nsze v), (24, 1, 0x10), (64, 2, 255), (66, 2, 255), (72, 2, 255), (130, 1, 12)]

/-- IDENTIFY (R217, R221). -/
def identify (cid : Nat) (s : State) : State :=
  match s.adminCmd cid 0x06 with
  | none => s
  | some c =>
    match c.cmd.cdw10 % 256 with
    | 0 =>
      if c.cmd.nsid = 0 ∨ 16 < c.cmd.nsid then s.fail c (invalidNamespace 0) else
      if !s.namespaceGranted 0 c.cmd.nsid false then (s.refuseNamespace 0 c.cmd.nsid false).fail c accessDenied else
      (s.emit (.hostData 0 cid (s.identifyNamespace (c.cmd.nsid - 1)))).succeed c 0
    | 1 =>
      let (page, s) := s.identifyController
      (s.emit (.hostData 0 cid page)).succeed c 0
    | 2 =>
      let ids := (List.range 16).filter (fun v => s.volState v != 0 && decide (c.cmd.nsid < v + 1))
      let page := (ids.flatMap (fun v => leBytes 4 (v + 1))) ++ List.replicate (4096 - 4 * ids.length) 0
      (s.emit (.hostData 0 cid page)).succeed c 0
    | _ => s.fail c (invalidField 0)

/-- Store a feature value. -/
def State.setFeature (s : State) (fid v : Nat) : State := s.setOfc { s.ofc with features := SMap.set (fun _ => 0) s.ofc.features fid v }

/-- SET_FEATURES (R221, R228). -/
def setFeatures (cid : Nat) (s : State) : State :=
  match s.adminCmd cid 0x09 with
  | none => s
  | some c =>
    let fid := c.cmd.cdw10 % 256
    let w := c.cmd.cdw11
    if !([1, 2, 7, 8, 9, 0x0A, 0x0C].contains fid) then s.fail c (invalidField 0) else
    if bitOf c.cmd.cdw10 31 then s.fail c (hostStatus 1 0x0D true 0x341) else
    match fid with
    | 2 => if w % 32 ≤ 2 then ((s.setFeature 2 w).setOfc { (s.setFeature 2 w).ofc with ps := w % 32 }).succeed c 0 else s.fail c (invalidField 0)
    | 7 =>
      if s.ofc.queueMade then s.fail c (hostStatus 0 0x0C true 0x341) else
      let v := min 511 (w % 2 ^ 16) + min 511 (w / 2 ^ 16 % 2 ^ 16) * 2 ^ 16
      (s.setFeature 7 v).succeed c v
    | 9 => if w % 2 ^ 16 ≤ 63 then (s.setFeature (0x900 + w % 2 ^ 16) (w % 2 ^ 17)).succeed c 0 else s.fail c (invalidField 0)
    | 0x0C =>
      let s := s.setFeature 0x0C (w % 2)
      (s.setOfc { s.ofc with apst := c.cmd.data.take 256 }).succeed c 0
    | _ => (s.setFeature fid w).succeed c 0

/-- GET_FEATURES (R221). -/
def getFeatures (cid : Nat) (s : State) : State :=
  match s.adminCmd cid 0x0A with
  | none => s
  | some c =>
    let fid := c.cmd.cdw10 % 256
    if !([1, 2, 7, 8, 9, 0x0A, 0x0C].contains fid) then s.fail c (invalidField 0) else
    match fid with
    | 2 => s.succeed c (s.ofc.ps + bits (s.feature 2) 5 3 * 32)
    | 9 =>
      let iv := c.cmd.cdw11 % 2 ^ 16
      if iv ≤ 63 then s.succeed c (s.feature (0x900 + iv) / 2 ^ 16 * 2 ^ 16 + iv) else s.fail c (invalidField 0)
    | 0x0C => (s.emit (.hostData 0 cid ((s.ofc.apst ++ List.replicate 256 0).take 256))).succeed c (s.feature 0x0C)
    | _ => s.succeed c (s.feature fid)

/-- RESUME_QUEUE (R226). -/
def resumeQueue (cid : Nat) (s : State) : State :=
  match s.adminCmd cid 0xC1 with
  | none => s
  | some c =>
    let q := c.cmd.cdw10 % 2 ^ 16
    match s.sq q with
    | some x =>
      if q = 0 then s.fail c (hostStatus 1 0x01 true 0x341) else
      if x.frozen then (s.setSq q { x with frozen := false }).succeed c (1 + s.inflightOf q * 2 ^ 16) else s.succeed c 0
    | none => s.fail c (hostStatus 1 0x01 true 0x341)

/-- Whether function 1 executes an opcode on a queue (R221). -/
def opcodeKnown (sq opcode : Nat) : Bool :=
  if sq = 0 then [0x00, 0x01, 0x02, 0x04, 0x05, 0x06, 0x09, 0x0A, 0xC1].contains opcode else [0x00, 0x01, 0x02, 0x09].contains opcode

/-- UNSUPPORTED_OPCODE completes with Invalid Command Opcode and DNR 1 (R221). -/
def unsupportedOpcode (sq cid : Nat) (s : State) : State :=
  match s.ofc.cmds.find? (fun c => c.sq == sq && c.cmd.cid == cid && !opcodeKnown sq c.cmd.opcode) with
  | some c => s.fail c (invalidOpcode sq)
  | none => s

/-! ### Data path (R219, R220) -/

/-- Units of the staging pool in use, by commands and by the member commands that run on after theirs has ended (R227); and units for a command: the search
starts at a place the spec does not give. -/
def State.stagingUsed (s : State) : List Nat :=
  s.ofc.cmds.flatMap (·.units) ++ s.bth.members.flatMap (fun e => (e.2.cmds.filter (fun c => !c.failed && (match c.purpose with
    | .host _ _ => true
    | _ => false))).flatMap (·.units))
def State.allocStaging (s : State) (n : Nat) : Option (List Nat) × State :=
  let base := Fld.OFC.STAGE_UNIT s.regs
  let size := inRange Adr.OFC.STAGE_UNITS (Fld.OFC.STAGE_UNITS s.regs) 256 65535
  let used := s.stagingUsed
  let from_ := (Config.freeWord s.freeCount).toNat
  let free := ((List.range size).map (fun k => base + (from_ + k) % size)).filter (fun u => !used.contains u)
  if n ≤ free.length then (some (free.take n), { s with freeCount := s.freeCount + 1 }) else (none, s)

/-- Commands fetched earlier that still wait for staging: staging is given in fetch order. -/
def State.earlierWaits (s : State) (c : HostCmd) : Bool :=
  (s.ofc.cmds.takeWhile (fun d => decide (d ≠ c))).any (fun d => d.sq != 0 && !d.issued && d.refused.isNone && (d.cmd.opcode == 1 || d.cmd.opcode == 2))

/-- A member FAILED or REMOVED behind a range. -/
def State.badBehind (s : State) (v : Nat) : Nat → Nat → Nat → Option Nat
  | 0, _, _ => none
  | fuel + 1, o, len =>
    if len = 0 then none else
    let m := (s.mediaOf v o).1
    let n := min len (2 ^ 20 - o % 2 ^ 20)
    if s.memberBad m then some m else s.badBehind v fuel (o + n) (len - n)

/-- Store the data of a Write in its staging units; the first error response. -/
def State.stageData (s : State) (data : List Byte) : List Nat → State × Option Nat
  | [] => (s, none)
  | u :: r =>
    let e := s.spanError (u * 4096) 4096
    let (t, f) := (s.store (u * 4096) (data.take 4096)).stageData (data.drop 4096) r
    (t, e.or f)

/-- A Read or a Write goes to the members (R219). -/
def State.issueHost (s : State) (c : HostCmd) : State :=
  match c.refused with
  | some t => s.fail c t
  | none =>
    if c.issued || s.earlierWaits c then s else
    let isWrite := c.cmd.opcode == 1
    let v := c.cmd.nsid - 1
    let n := c.cmd.cdw12 % 2 ^ 16 + 1
    let o := firstLba c.cmd c.sq * 4096
    match s.badBehind v (n + 1) o (n * 4096) with
    | some m => s.fail c (s.memberStatus isWrite m 0)
    | none =>
      let (units, s) := s.allocStaging n
      match units with
      | none => s
      | some us =>
        let (s, err) := if isWrite then (s.meterUse (s.queueFlow c.sq) (n * 128)).stageData (c.cmd.data.take (n * 4096)) us else (s, none)
        match err with
        | some unit => s.fail c (s.busStatus unit)
        | none =>
          let s := s.setOfc { s.ofc with cmds := s.ofc.cmds.map (fun d => if d = c then { c with issued := true, units := us } else d) }
          s.issueSpan v isWrite (.host c.sq c.tag) (n + 1) o (n * 4096) (us.map inUnit)

/-- NVM_READ and NVM_WRITE (R219, R220). -/
def nvmRead (sq cid : Nat) (s : State) : State := match s.ioCmd sq cid 0x02 with
  | some c => s.issueHost c
  | none => s
def nvmWrite (sq cid : Nat) (s : State) : State := match s.ioCmd sq cid 0x01 with
  | some c => s.issueHost c
  | none => s

/-- FLUSH completes at once with success (R220). -/
def flush (sq cid : Nat) (s : State) : State := match s.ioCmd sq cid 0x00 with
  | some c => match c.refused with
    | some t => s.fail c t
    | none => s.succeed c 0
  | none => s

/-- DATASET_MANAGEMENT: with AD set the ranges are checked against the namespace size; no effect on the medium (R220). -/
def datasetManagement (sq cid : Nat) (s : State) : State := match s.ioCmd sq cid 0x09 with
  | some c => match c.refused with
    | some t => s.fail c t
    | none =>
      let ranges := (List.range (c.cmd.cdw10 % 256 + 1)).map (fun k => (fieldOf c.cmd.data (16 * k + 8) 8, fieldOf c.cmd.data (16 * k + 4) 4))
      let size := s.nsze (c.cmd.nsid - 1)
      if bitOf c.cmd.cdw11 2 && ranges.any (fun r => decide (size < r.1 + r.2)) then s.fail c (lbaOutOfRange sq) else s.succeed c 0
  | none => s

/-- A member command of a host command that has failed, or else one at a FAILED or REMOVED member: its member and its media address (R224, R225). -/
def State.hostFailure (s : State) (tag : Nat) : Option (Nat × Nat) :=
  let mine := s.bth.members.flatMap (fun e => (e.2.cmds.filter (fun c => isHostOf [tag] c.purpose)).map (fun c => (e.1, c)))
  ((mine.find? (fun e => e.2.failed)).or (mine.find? (fun e => s.memberBad e.1))).map (fun e => (e.1, mediaAddress e.1 e.2.addr))

/-- COMMAND_COMPLETION: a Read or Write completes; its data goes to host memory, or the first failure gives its status. Member commands that still run then run on
(R220, R223, R224). -/
def commandCompletion (sq cid : Nat) (outcome : DataOutcome) (s : State) : State :=
  match s.ofc.cmds.find? (fun c => c.sq == sq && c.cmd.cid == cid && c.issued) with
  | none => s
  | some c =>
    let isWrite := c.cmd.opcode == 1
    let n := c.cmd.cdw12 % 2 ^ 16 + 1
    match outcome with
    | .bus unit => s.fail c (s.busStatus unit)
    | .ok =>
      match s.hostFailure c.tag with
      | some (m, a) => s.fail c (s.memberStatus isWrite m a)
      | none =>
        if s.outstanding (isHostOf [c.tag]) then s else
        match if isWrite then none else c.units.findSome? (fun u => s.spanError (u * 4096) 4096) with
        | some unit => s.fail c (s.busStatus unit)
        | none =>
          let f := s.ofc
          if isWrite then (s.setOfc { f with writes := f.writes + 1, unitsWritten := f.unitsWritten + n }).succeed c 0
          else (((s.setOfc { f with reads := f.reads + 1, unitsRead := f.unitsRead + n }).meterUse (s.queueFlow sq) (n * 128)).emit
            (.hostData sq cid (c.units.flatMap (fun u => s.dramRead (u * 4096) 4096)))).succeed c 0

/-- VOLUME_DISABLE: EN is written 0; fetched commands not yet issued complete with Namespace Not Ready, and the volume is OFF once none of the other commands
fetched by then is outstanding (R218). -/
def volumeDisable (v : Nat) (s : State) : State :=
  let s := s.setFld (Adr.BTH.VOL_CFG v) 0 1 0
  let already := match s.volWait v with
    | .disable _ => true
    | _ => false
  if (s.volState v = 0 ∧ s.volWait v = .none) ∨ already = true then s else
  let mine := s.ofc.cmds.filter (fun c => c.sq != 0 && c.cmd.nsid == v + 1)
  let tags := (mine.filter (fun c => c.issued)).map (·.tag)
  let s := (mine.filter (fun c => !c.issued)).foldl (fun s c => s.fail c (hostStatus 0 0x82 false 0x342)) s
  if s.hostOutstanding tags then s.setVolWait v (.disable tags) else s.volOff v

/-- APST_TRANSITION: after ITPT ms of unbroken idleness the controller moves to ITPS (R228). -/
def apstTransition (s : State) : State :=
  let o := s.ofc
  let e := fieldOf o.apst (8 * o.ps) 8
  let idle := o.cmds.isEmpty && o.sqs.all (fun q => q.2.waiting == 0)
  if o.ready && bitOf (s.feature 0x0C) 0 && idle && bits e 8 24 != 0 && decide (o.idleFrom + bits e 8 24 * 1000000 ≤ s.elapsed) && decide (bits e 3 5 ≤ 2)
  then s.setOfc { o with ps := bits e 3 5, idleFrom := s.elapsed } else s

/-! ### OFC registers and Kiosk -/

/-- SQ_FLOW, SQ_STAT and INFLIGHT as read. -/
def State.ofcRead (s : State) (off : Nat) : Nat :=
  let q := Fld.OFC.SQ_SEL s.regs
  if off = 0x050 then SMap.get (fun _ => 0) s.ofc.flows q
  else if off = 0x054 then
    match if q = 0 then none else s.sq q with
    | some x => 1 + 2 * b2n x.frozen + 16 * x.qprio + x.wait * 2 ^ 16
    | none => 0
  else (s.ofc.cmds.filter (fun c => c.sq != 0)).length

/-- A write of SQ_FLOW, which sets the entry of the selected I/O queue 1 to 512. -/
def State.sqFlowWrite (s : State) (v : Nat) : State :=
  let q := Fld.OFC.SQ_SEL s.regs
  if 1 ≤ q ∧ q ≤ 512 then s.setOfc { s.ofc with flows := SMap.set (fun _ => 0) s.ofc.flows q (v % 128 + bits v 8 1 * 256) } else s

/-- CNT_RESTART of OFC. -/
def ofcCounters : List (List RegAddr) := [[Adr.OFC.FREEZES, Adr.OFC.STARVED]]

/-- Kiosk words of OFC selector 0x10: bytes 0x00 to 0x17 of the newest vendor log entry. -/
def State.ofcKiosk (s : State) (sel : Nat) : Option (List Nat) :=
  if sel = 0x10 then
    let b := match s.ofc.log with
      | e :: _ => e.vendor
      | [] => List.replicate 64 0
    some ((List.range 6).map (fun k => fieldOf b (4 * k) 4))
  else none

end Sys2Proof.Machine
end

