-- ==== Sys2Proof/Machine/Status.lean ====
section
/-! DEFINITION. What a page shows of its block: PG_STAT, PG_FAULT, the interrupt condition and its delivery, the Kiosk's data, and which owners of flows are
active (R37, R39, R47, R48, R58, R59, R72, R247, R374). -/

namespace Sys2Proof.Machine

/-- A list of truth values as bits, bit 0 first. -/
def bitList : List Bool → Nat
  | [] => 0
  | b :: r => b2n b + 2 * bitList r

/-! ### Activity (R37, R72) -/

/-- Whether a lane group captures, a context of raw conditioning or Ebosh Raw runs, and so on: the parts of blocks that start under R72. -/
def State.sfeRuns (s : State) (g : Nat) : Bool := (s.grp g).running
def State.rcnRuns (s : State) (n : Nat) : Bool := (s.rcnOf n).running
def State.ebeRuns (s : State) (n : Nat) : Bool := (s.ebeOf n).running
def State.orgRuns (s : State) (c : Nat) : Bool := (s.orgOf c).running
def State.chRuns (s : State) (c : Nat) : Bool := s.chState c != 0  -- HALTED too (DEDUCED, assumption 16)
def State.bndRuns (s : State) (p : Nat) : Bool := (s.bndPort p).running
def State.intRuns (s : State) : Bool := s.integ.armed.isSome || Fld.RCS.INT_STAT_STATE s.regs == 1 || Fld.RCS.INT_STAT_AVG_BUSY s.regs == 1

/-- PG_STAT.ACTIVE: the block is enabled and processing. -/
def State.pageActive (s : State) (page : Nat) : Bool :=
  let four := List.range 4
  if page = 0x0A then s.ethRuns 0 else
  if page = 0x0B then s.ethRuns 1 else
  if page = 0x0C then (List.range 16).any (fun n => (s.sender n).running) else
  if page = 0x0D then (List.range 16).any (fun r => (s.receiver r).running) else
  if page = 0x10 then four.any s.sfeRuns else
  if page = 0x12 then four.any s.rcnRuns else
  if page = 0x14 then four.any s.ebeRuns else
  if page = 0x15 then s.ebd.isSome else
  if page = 0x18 then s.orgRuns 0 || s.orgRuns 1 else
  if page = 0x1A then s.parterre.running else
  if page = 0x29 then (List.range 32).any (fun n => s.sesState n == 1 || s.sesState n == 2) else
  if page = 0x30 then (List.range 8).any s.chRuns else
  if page = 0x31 then (List.range 32).any (fun m => s.memState m != 0) else
  if page = 0x34 then s.ofc.ready else
  if page = 0x40 then four.any s.bndRuns else
  if page = 0x4C then s.arbActive else
    if 0x20 ≤ page ∧ page < 0x28 then (s.view (page - 0x20)).running
    else if 0x38 ≤ page ∧ page < 0x3C then (s.sdiOf (page - 0x38)).running
    else if page = 0x3C ∨ page = 0x3D then (s.blvOf (page - 0x3C)).running
    else if 0x44 ≤ page ∧ page < 0x48 then four.any (fun k => (s.chan (4 * (page - 0x44) + k)).ready)
    else if 0x50 ≤ page ∧ page < 0x54 then (s.flkPort (page - 0x50)).running
    else s.enabled page

/-- Whether the unit that owns a flow entry is active (R72): a part of its own where the unit has one, else its page. -/
def State.ownerActive (s : State) (unit : Nat) : Bool :=
  let sub := unit % 16
  let page := unit / 16
  if page = 0x10 ∧ 1 ≤ sub ∧ sub ≤ 4 then s.sfeRuns (sub - 1)
  else if page = 0x12 ∧ 1 ≤ sub ∧ sub ≤ 4 then s.rcnRuns (sub - 1)
  else if unit = 0x131 then s.intRuns
  else if page = 0x14 ∧ 1 ≤ sub ∧ sub ≤ 4 then s.ebeRuns (sub - 1)
  else if unit = 0x181 ∨ unit = 0x182 then s.orgRuns (sub - 1)
  else if page = 0x30 ∧ 1 ≤ sub ∧ sub ≤ 8 then s.chRuns (sub - 1)
  else if unit = 0x309 then s.bth.fetch.isSome
  else if page = 0x40 ∧ 1 ≤ sub ∧ sub ≤ 4 then s.bndRuns (sub - 1)
  else if 0x50 ≤ page ∧ page < 0x54 then
    (if 3 ≤ sub ∧ sub ≤ 10 then (s.flkChan (page - 0x50) (sub - 3)).running
     else (s.flkPort (page - 0x50)).running || (List.range 8).any (fun c => (s.flkChan (page - 0x50) c).running))
  else s.pageActive page

/-! ### PG_STAT (R37 and the chapters) -/

/-- The block status bits, from bit 8 of PG_STAT on. -/
def State.statBits (s : State) (page : Nat) : List Bool :=
  let four := List.range 4
  if page = 0x01 then [s.records.any (fun e => e.2.fresh)] else
  if page = 0x03 then [s.holds { page := 0x03, cause := 0x030, code := 0x20, event := false, unit := 0x030 }, Fld.TRL.OP_STAT_BUSY s.regs == 1] else
  if page = 0x04 then [decide (s.rd Adr.ICE.LEVEL ≠ 0) || decide (Fld.ICE.LEVEL_PKG s.regs ≠ 0), s.holds { page := 0x04, cause := 0x041, code := 0x09, event := false, unit := 0x041 }] else
  if page = 0x05 then [decide (s.rd Adr.DOV.LIMIT_STAT ≠ 0), Fld.DOV.REF_STAT_DRIFT s.regs == 1] else
  if page = 0x06 then [Fld.PMU.VSEL_SETTLED s.regs == 1] else
  if page = 0x08 then [s.servo == 2, s.servo == 3, s.servo == 4] else
  if page = 0x09 then (List.range 8).map (fun r => decide (r ≠ 0) && s.refState r == 4) else
  if page = 0x10 then four.map (fun g => (s.grp g).frame.isSome) ++ four.map s.aligned else
  if page = 0x12 then four.map s.rcnRuns else
  if page = 0x13 then [Fld.RCS.INT_STAT_STATE s.regs == 1, decide (Fld.RCS.SATURATED_TILES s.regs ≠ 0)] else
  if page = 0x14 then four.map s.ebeRuns ++ four.map (fun n => Fld.EBE.REC_STAT_STATE s.regs n == 2) else
  if page = 0x15 then [s.ebd.isSome] else
  if page = 0x18 then [s.orgRuns 0, s.orgRuns 1] else
  if page = 0x19 then [s.load.isSome] else
  if page = 0x1A then [s.parterre.running] else
  if page = 0x28 then (List.range 6).map (fun e => Fld.GLC.ENG_SES_VALID s.regs e == 1) else
  if page = 0x30 then (List.range 8).map (fun c => s.chState c == 1) else
  if page = 0x31 then [(List.range 32).any (fun m => Fld.BTM.MEM_CFG_EN s.regs m == 1 && s.memberBad m)] else
  if page = 0x34 then [s.ofc.ready, s.ofc.sqs.any (fun q => q.1 != 0 && q.2.frozen), bitOf s.ofc.ps 0, bitOf s.ofc.ps 1] else
  if page = 0x40 then four.map s.bndRuns else
  if page = 0x48 then [Fld.MCT.TRAIN_STAT_STATE s.regs == 2] else
  if page = 0x4C then [s.arb.isSome, Fld.ARB.DONE_IDX s.regs != Fld.ARB.SEEN_IDX s.regs] else
  if page = 0x54 then [s.isolated, s.hie == 2] else
    if 0x20 ≤ page ∧ page < 0x28 then
      let v := s.view (page - 0x20)
      [s.enabled page && (s.viewSrc (page - 0x20) == 0 || !s.sourceAdmitted (s.viewSrc (page - 0x20))), v.dropping]
    else if 0x38 ≤ page ∧ page < 0x3C then
      let x := s.sdiOf (page - 0x38)
      [x.running && (if x.output then x.frame.isSome else x.adopted.isSome), match x.frame with
        | some f => f.source.isNone
        | none => false]
    else if page = 0x3C ∨ page = 0x3D then [(s.blvOf (page - 0x3C)).sending]
    else if 0x44 ≤ page ∧ page < 0x48 then
      let ch := four.map (fun k => s.chan (4 * (page - 0x44) + k))
      ch.map (·.ready) ++ ch.map (·.repay)
    else if 0x50 ≤ page ∧ page < 0x54 then [s.linkUp (page - 0x50), (s.flkPort (page - 0x50)).lost]
    else []

/-- PG_STAT.THROTTLED: the page's best-effort work is paused (R78). -/
def State.throttled (s : State) (page : Nat) : Bool := decide (0 < s.pauseQuanta page)

/-- PG_STAT as it reads. -/
def State.pgStat (s : State) (page : Nat) : Nat :=
  bitList [s.pageActive page, s.pagePending page, (s.pageFault page).isSome, s.throttled page] + bitList (s.statBits page) * 2 ^ 8

/-- PG_FAULT as it reads (R374). -/
def State.pgFault (s : State) (page : Nat) : Nat :=
  match s.pageFault page with
  | some h => h.cause % 2 ^ 12 + h.code % 2 ^ 8 * 2 ^ 16
  | none => 0

/-! ### Interrupts (R39, R59, R247, R374) -/

/-- The status bits that count towards the interrupt condition: none of Belvedere's (R247), and not NEW of LDG where the collector itself sends messages
(R59). -/
def State.irqBits (s : State) (page : Nat) : Nat :=
  if page = 0x3C ∨ page = 0x3D then 0
  else if page = 0x01 ∧ Fld.HDR.TARGET s.regs 0x01 = 1 then 0
  else bitList (s.statBits page)

/-- A page's interrupt condition: an unmasked source of PG_IRQ_MASK is active (R59). -/
def State.irqCond (s : State) (page : Nat) : Bool :=
  let mask := s.rd (Adr.HDR.PG_IRQ_MASK page)
  let own := match s.pageFault page with
    | some h => h.code != 0x01
    | none => false
  let up := match s.pageFault page with
    | some h => h.code == 0x01
    | none => false
  (own && !bitOf mask 0) || (up && !bitOf mask 1) || decide ((s.irqBits page) &&& ((2 ^ 24 - 1) ^^^ (mask / 2 ^ 8)) ≠ 0)

/-- The pages whose interrupt condition is 1. -/
def State.irqPages (s : State) : List Nat := implementedPages.filter s.irqCond

/-- One MSI-X message for each rise of the condition of a page whose TARGET is host MSI-X (R59). -/
def State.sendRises (s : State) (now : List Nat) : State :=
  (now.filter (fun p => !s.irq.contains p && Fld.HDR.TARGET s.regs p == 1)).foldl (fun s p => s.emit (.msix (Fld.HDR.VECTOR s.regs p))) s

/-- What follows every command in the same beat: pool buffers that are free and released leave the pool, and the interrupt conditions are delivered. -/
def State.settle (s : State) : State :=
  let s := s.poolSweep
  let now := s.irqPages
  { s.sendRises now with irq := now }

/-! ### Kiosk (R47 to R49, R58) -/

/-- The record in FC_SLOT, as selector 0x01 of LDG shows it (R58). -/
def State.slotRecord (s : State) : List Nat :=
  match s.records.find? (fun e => e.1 == Fld.LDG.FC_SLOT s.regs) with
  | none => []
  | some (n, r) =>
    [r.firstTime % 2 ^ 32, r.firstTime / 2 ^ 32 + r.cls * 2 ^ 8 + r.cause * 2 ^ 16, r.lastTime % 2 ^ 32, r.lastTime / 2 ^ 32 + r.count * 2 ^ 16,
     r.firstReporter + r.lastReporter * 2 ^ 16, n]

/-- The frame record of a sensor stream, selectors 0x10 to 0x13 of SFE. -/
def State.sfeKiosk (s : State) (sel : Nat) : Option (List Nat) :=
  if 0x10 ≤ sel ∧ sel < 0x14 then some (s.stream (sel - 0x10)).latest.words else none

/-- The latest uncorrectable read of channel k, selectors 0x11 to 0x14 of an MC page. -/
def State.mcKiosk (s : State) (g sel : Nat) : Option (List Nat) :=
  if 0x11 ≤ sel ∧ sel < 0x15 then
    let u := (s.chan (4 * g + (sel - 0x11))).ue
    some [u.addr % 2 ^ 32, u.addr / 2 ^ 32, u.master, u.time % 2 ^ 32, u.time / 2 ^ 32]
  else none

/-- The latest result of a Dovecote slot, selectors 0x20 to 0x3F of DOV. -/
def State.dovKiosk (s : State) (sel : Nat) : Option (List Nat) :=
  if 0x20 ≤ sel ∧ sel < 0x40 then
    let n := sel - 0x20
    let t := SMap.get (fun _ => 0) s.dov.sampled n
    some [if n < 8 then s.rd (Adr.DOV.RESULT_FIXED n) else s.rd (Adr.DOV.RESULT (n - 8)), t % 2 ^ 32, t / 2 ^ 32]
  else none

/-- What a selector of a page captures; none where the page does not define it (R48, R49). -/
def State.kioskData (s : State) (page sel : Nat) : Option (List Nat) :=
  if sel = 0 then none else
  if page = 0x01 then if sel = 1 then some s.slotRecord else none else
  if page = 0x05 then s.dovKiosk sel else
  if page = 0x08 then s.sun0Kiosk sel else
  if page = 0x09 then s.sun1Kiosk sel else
  if page = 0x0D then s.iprKiosk sel else
  if page = 0x10 then s.sfeKiosk sel else
  if page = 0x13 then s.rcsKiosk sel else
  if page = 0x14 then s.ebeKiosk sel else
  if page = 0x18 then s.orgKiosk sel else
  if page = 0x29 then s.glsKiosk sel else
  if page = 0x30 then s.bthKiosk sel else
  if page = 0x31 then s.btmKiosk sel else
  if page = 0x34 then s.ofcKiosk sel else
  if page = 0x54 then s.hieKiosk sel else
    if 0x20 ≤ page ∧ page < 0x28 then s.viewKiosk (page - 0x20) sel
    else if 0x38 ≤ page ∧ page < 0x3C then s.sdiKiosk (page - 0x38) sel
    else if 0x44 ≤ page ∧ page < 0x48 then s.mcKiosk (page - 0x44) sel
    else if 0x50 ≤ page ∧ page < 0x54 then s.flkKiosk (page - 0x50) sel
    else none

/-- The key of a bank's Kiosk on a page. -/
def kioskKey (b : Bank) (page : Nat) : Nat := 2 * page + match b with
  | .lodge => 0
  | .shared => 1

/-- A bank's Kiosk on a page. -/
def State.kioskOf (s : State) (b : Bank) (page : Nat) : KioskEntry := SMap.get (fun _ => kioskIdle) s.kiosk (kioskKey b page)

/-- Store a bank's Kiosk. -/
def State.setKiosk (s : State) (b : Bank) (page : Nat) (k : KioskEntry) : State :=
  { s with kiosk := SMap.set (fun _ => kioskIdle) s.kiosk (kioskKey b page) k }

/-- The records of the collector with the one in a slot captured (PG_STAT.NEW of LDG). -/
def markSeen (slot : Nat) (rs : List (Nat × Record)) : List (Nat × Record) :=
  rs.map (fun e => if e.1 = slot then (e.1, { e.2 with fresh := false }) else e)

/-- KIOSK_SELECT: a write of KSK_SEL captures the value in one beat; VALID follows with KIOSK_SNAPSHOT_DONE (R47, R48). -/
def kioskSelect (b : Bank) (page sel : Nat) (s : State) : State :=
  if !implemented page then s else
  let sel := sel % 256
  let d := s.kioskData page sel
  let s := s.setKiosk b page { echo := sel, valid := false, busy := true, nosel := d.isNone, data := d.getD [] }
  if page = 0x01 ∧ sel = 1 then { s with records := markSeen (Fld.LDG.FC_SLOT s.regs) s.records } else s

/-- KIOSK_SNAPSHOT_DONE: VALID sets and BUSY clears (R48). -/
def kioskSnapshotDone (b : Bank) (page : Nat) (s : State) : State :=
  let k := s.kioskOf b page
  if k.busy then s.setKiosk b page { k with valid := true, busy := false } else s

/-- KSK_STAT as a bank reads it. -/
def KioskEntry.stat (k : KioskEntry) : Nat := b2n k.valid + 2 * b2n k.busy + 4 * b2n k.nosel + k.echo * 2 ^ 8

end Sys2Proof.Machine
end

