-- ==== Sys2Proof/Machine/Apply.lean ====
section
/-! DEFINITION. The apply point of update groups: every shadow of every bound page becomes active in one beat, and each block takes what changed (R30, R31,
R42, R43, R46). -/

namespace Sys2Proof.Machine

/-- The word of a register once its shadow has become active: SH bits from the shadow, all others as they stand. -/
def shadowedWord (regs shadow : RegFile) (a : RegAddr) : Nat := mergeBits (regs.word a).toNat (shMaskOf a) (shadow.word a).toNat

/-- Every shadow of these pages becomes active. -/
def State.applyShadows (s : State) (pages : List Nat) : State :=
  let touched := ((s.shadow ++ s.regs).map (·.1)).filter (fun a => pages.contains (a / 4096) && decide (shMaskOf a ≠ 0))
  { s with regs := touched.foldl (fun rf a => rf.putN a (shadowedWord s.regs s.shadow a)) s.regs }

/-- What the block of a page does at its apply point, given the registers before it. `rr g` says that lane group g's own SENSOR_FRAME_START is the apply
point (R96). -/
def State.applyPage (old : RegFile) (rr : Nat → Bool) (s : State) (page : Nat) : State :=
  if page = 0x05 then s.applyDov old else
  if page = 0x08 then s.applySun0 old else
  if page = 0x09 then s.applySun1 old else
  if page = 0x0A ∨ page = 0x0B then s.applyEth (page - 0x0A) else
  if page = 0x0C then s.applyIps else
  if page = 0x0D then s.applyIpr else
  if page = 0x10 then (s.applySfe old rr).applyIntegrator else
  if page = 0x12 then s.applyRcn else
  if page = 0x14 then s.applyEbe else
  if page = 0x15 then s.applyEbd else
  if page = 0x18 then s.applyOrg else
  if page = 0x1A then s.applyPat else
  if 0x20 ≤ page ∧ page < 0x28 then s.applyView old (page - 0x20) else
  if page = 0x29 then s.applyGls old else
  if 0x38 ≤ page ∧ page < 0x3C then s.applySdi old (page - 0x38) else
  if page = 0x3C ∨ page = 0x3D then s.applyBlv old (page - 0x3C) else
  if page = 0x40 then s.applyBnd old else
  if page = 0x4C then s.applyArb old else
  if 0x50 ≤ page ∧ page < 0x54 then (s.applyFlk old (page - 0x50)).checkCut else s

/-- The pages bound to any of these groups, as the binding stands at the apply point (R38, R42). -/
def State.boundPages (s : State) (groups : List Nat) : List Nat := implementedPages.filter (fun p => groups.contains (Fld.HDR.UPD_GROUP s.regs p))

/-- GROUP_APPLY: every group whose apply point has been reached applies, all in the same beat; UPD_PEND and PENDING clear (R42), and transactions deferred to
a group start (R99). -/
def groupApply (s : State) : State :=
  let groups := s.due
  let pages := s.boundPages groups
  let rr := fun g => groups.any (fun k => s.updMode k == 1 && s.updIndex k == g)
  let old := s.regs
  let s := groups.foldl (fun s g => s.setFld Adr.GLB.UPD_PEND g 1 0) ({ s with due := [] } : State)
  let s := pages.foldl (State.applyPage old rr) (s.applyShadows pages)
  let s := if pages.contains 0x10 && !pages.contains 0x12 then (List.range 4).foldl (fun s n => s.rowsLost old n) s else s
  groups.foldl State.startDeferred s

end Sys2Proof.Machine
end

