-- ==== Sys2Proof/Machine/Boot.lean ====
section
/-! DEFINITION. What power and time do to the whole block: the management round, Summerhouse entry and wake, the PCIe links (R16, R63, R66, R77, R342, R349
to R352). -/

namespace Sys2Proof.Machine

/-! ### The management round (R16, R33, R63) -/

/-- The replica-line measurement and SPEED_BELOW_CORNER (R63). -/
def State.speedRound (s : State) (index : Nat) : State :=
  let s := s.setReg Adr.TRL.SPEED (index % 2 ^ 16)
  s.cond (decide (index % 2 ^ 16 < 0x0100)) 0x030 0x030 0x20

/-- MANAGEMENT_ROUND: Dovecote's slots and references, Icehouse, the replica lines, the servo, the hierarchy, the refresh intervals, and the condition
faults that persist (R16, R55, R63, R256, R290, R308, R313, R331 to R333). A fused node at 115 °C then shuts the device down (R316). -/
def managementRound (r : RoundSample) (s : State) : State :=
  let before := s.held
  let s := ((s.dovRound r.refDev).iceRound).speedRound r.speedIndex
  let s := ((s.servoRound).hierarchyRound r.mgrAlive).raiseEpochs r.rejoins
  let s : State := { s with mem := { s.mem with trefi := r.trefi } }
  let s := s.rereport before
  match s.fusedCrossing with
  | some node => s.thermalShutdown node
  | none => s

/-! ### Summerhouse entry (R349) -/

/-- Whether Summerhouse may be entered: no flow ADMITTED, every member ABSENT, WARM_VALID 1 (R349). -/
def State.maySleep (s : State) : Bool :=
  s.admitted.isEmpty && (List.range 32).all (fun m => s.memState m == 0) && Fld.PMU.WARM_VALID s.regs == 1

/-- The pages that step 1 of R349 stops: the Ethernet ports, SDI, the panel outputs and Falilan Link. -/
def sleepPages : List Nat := [0x0A, 0x0B, 0x38, 0x39, 0x3A, 0x3B, 0x3C, 0x3D, 0x50, 0x51, 0x52, 0x53]

/-- Step 1: those blocks are disabled until firmware re-enables them, and the PCIe links are electrically idle. -/
def State.stopForSleep (s : State) : State :=
  let old := s.regs
  let s : State := { s with
    regs := sleepPages.foldl (fun rf p => rf.putFld (Adr.HDR.PG_CTL p) 0 1 0) s.regs
    shadow := sleepPages.foldl (fun rf p => rf.putFld (Adr.HDR.PG_CTL p) 0 1 0) s.shadow
    trl := { s.trl with rpGen := [], epGen := 0 } }
  sleepPages.foldl (State.applyPage old (fun _ => false)) s

/-- SLEEP_CMD: entry to Summerhouse starts, or is refused; REFUSED and ABORTED hold until here (R349). What waits for DRAM is drained before SLEEP_COMMIT. -/
def sleepCmd (value : Nat) (s : State) : State :=
  let s := s.setReg Adr.PMU.SLEEP_STAT (Fld.PMU.SLEEP_STAT_STATE s.regs)
  if bitOf value 0 = false then s else
  if s.maySleep then
    (s.stopForSleep).setReg Adr.PMU.SLEEP_STAT 1
  else s.setFld Adr.PMU.SLEEP_STAT 4 1 1

/-- WAKE_STEP: the next timed step of R351. -/
def wakeStep (powerGood : Bool) (s : State) : State := wakeStepWith State.openDram powerGood s

/-! ### PCIe links (R66, R77, R342) -/

/-- PERST_N: low, it holds the endpoint, both functions and their link in reset, function 1 as at a function-level reset; its rise readies the endpoint for
link training (R342). -/
def perstN (level : Bool) (s : State) : State :=
  let pins := s.partnerPins
  if level then
    ({ s with pwr := { s.pwr with perstN := true, epReady := !s.pwr.internalReset || decide (s.pwr.stage = .waking 7) } } : State).showPartners pins
  else
    let s : State := { s with pwr := { s.pwr with perstN := false, epReady := false }, trl := { s.trl with epGen := 0 } }
    functionLevelReset (s.showPartners pins)

/-- ENDPOINT_LINK_TRAINED: the rate fixes the OFC capacity (R66). -/
def endpointLinkTrained (gen : Nat) (s : State) : State :=
  if s.pwr.epReady then { s with trl := { s.trl with epGen := gen } } else s

/-- ROOT_PORT_LINK_UP: the rate fixes the port's capacity, and the port takes its allowance (R66, R77). -/
def rootPortLinkUp (p gen : Nat) (s : State) : State := s.trainRootPort p gen

end Sys2Proof.Machine
end

