-- ==== Sys2Proof/Machine/RegAccess.lean ====
section
/-! DEFINITION. Writes and reads of registers by BAR0 page and offset: what each register does, under the access codes of R3 (R3 to R6, R35 to R38, R47, R52,
R71, R367, and the register tables of the chapters). -/

namespace Sys2Proof.Machine

/-- The bank of a master (R47, R71). -/
def masterBank (master : Nat) : Bank := if master = 0 then .lodge else .shared

/-- A write to a register without behaviour of its own: RW and DG bits at once, SH bits in the shadow; RO bits and reserved bits ignore it (R3, R5). -/
def State.storeReg (s : State) (a : RegAddr) (v : Nat) : State :=
  let rw := rwMaskOf a
  let sh := shMaskOf a
  let s := if rw = 0 then s else s.setReg a (mergeBits (s.rd a) rw v)
  if sh = 0 then s else { s with shadow := s.shadow.putN a (mergeBits (s.shadow.word a).toNat sh v) }

/-- A write of a WO register that holds operands of a later command; it reads zero. -/
def State.storeOperand (s : State) (a : RegAddr) (v : Nat) : State :=
  match findRow a with
  | some r => s.setReg a (v &&& r.mask)
  | none => s

/-- Which of `count` registers, `stride` bytes apart from `first` on, an offset is. -/
def nthAt (first stride count off : Nat) : Option Nat :=
  if first ≤ off ∧ (off - first) % stride = 0 ∧ (off - first) / stride < count then some ((off - first) / stride) else none

/-! ### CNT_RESTART (R367) -/

/-- CNT_RESTART of a page: one bit per instance acts for each bit written 1; a one-bit field acts on every write (R367). -/
def cntRestart (page mask : Nat) (s : State) : State :=
  if page = 0x05 then s.restart 1 [[Adr.DOV.CAL_REJECT, Adr.DOV.OVERRUN]] else
  if page = 0x08 then s.restart 1 [[Adr.SUN0.STEP_COUNT]] else
  if page = 0x0A ∨ page = 0x0B then s.restart 1 (ethCounters (page - 0x0A)) else
  if page = 0x0C then s.restart mask ipsCounters else
  if page = 0x0D then s.iprRestart mask else
  if page = 0x10 then s.restart mask sfeCounters else
  if page = 0x12 then s.restart mask rcnCounters else
  if page = 0x14 then s.restart mask ebeCounters else
  if page = 0x15 then s.restart 1 [[Adr.EBD.FRAMES_DONE, Adr.EBD.HDR_ERR, Adr.EBD.TILE_ERR, Adr.EBD.STALE_FRAMES]] else
  if page = 0x18 then s.restart mask orgCounters else
  if page = 0x19 then s.restart 1 [[Adr.ORL.REFUSED]] else
  if page = 0x28 then s.restart mask glcCounters else
  if page = 0x29 then s.glsRestart mask else
  if page = 0x30 then s.restart mask bthCounters else
  if page = 0x31 then s.btmRestart mask else
  if page = 0x34 then s.restart 1 ofcCounters else
  if page = 0x40 then s.restart mask bndCounters else
  if page = 0x4C then s.restart 1 arbCounters else
  if page = 0x54 then s.restart 1 hieCounters else
    if 0x20 ≤ page ∧ page < 0x28 then
      s.restart 1 [[Adr.VW.FRAMES_OUT (page - 0x20), Adr.VW.DROPPED (page - 0x20), Adr.VW.CROP_CLIPPED (page - 0x20)]]
    else if 0x38 ≤ page ∧ page < 0x3C then s.restart 1 (sdiCounters (page - 0x38))
    else if page = 0x3C ∨ page = 0x3D then s.restart 1 (blvCounters (page - 0x3C))
    else if 0x44 ≤ page ∧ page < 0x48 then s.restart mask (mcCounters (page - 0x44))
    else if 0x50 ≤ page ∧ page < 0x54 then s.restart 1 (flkCounters (page - 0x50))
    else s

/-- The offset of a page's CNT_RESTART register. -/
def cntOffset (page : Nat) : Option Nat :=
  if page = 0x05 ∨ page = 0x34 then some 0x064 else
  if page = 0x08 ∨ page = 0x0A ∨ page = 0x0B then some 0x074 else
  if [0x0C, 0x0D, 0x10, 0x12, 0x14, 0x29, 0x31].contains page then some 0x044 else
  if page = 0x15 then some 0x084 else
  if page = 0x18 ∨ page = 0x30 ∨ page = 0x40 then some 0x050 else
  if page = 0x19 ∨ page = 0x4C ∨ (0x50 ≤ page ∧ page < 0x54) then some 0x060 else
  if page = 0x28 then some 0x040 else
  if page = 0x54 then some 0x05C else
  if 0x20 ≤ page ∧ page < 0x28 then some 0x1CC else
  if 0x38 ≤ page ∧ page < 0x3C then some 0x098 else
  if page = 0x3C ∨ page = 0x3D then some 0x30C else
  if 0x44 ≤ page ∧ page < 0x48 then some 0x04C else none

/-! ### Command registers: WO fields that act (R3, R367) -/

/-- A write of a command register of the control, power and time pages; none where the offset is no command register. -/
def State.controlCommand (s : State) (master page off v : Nat) : Option State :=
  let b := masterBank master
  if page = 0x00 then
    if off = 0x040 then some (updArm v s) else if off = 0x044 then some (updCancel v s) else none
  else if page = 0x01 then
    if off = 0x048 then some (match v % 16 with
      | 1 => retire s
      | 2 => retireAll s
      | 3 => restartOverflow s
      | _ => s) else none
  else if page = 0x02 then
    if off = 0x0E8 then some (refRestart s) else none
  else if page = 0x03 then
    if off = 0x048 then some (opReq (v % 4) s)
    else if off = 0x090 then some (match v % 4 with
      | 1 => admitFlow b s
      | 2 => releaseWith s.ownerActive b s
      | _ => s)
    else none
  else if page = 0x04 then
    if off = 0x0C8 then some (resync s) else none
  else if page = 0x05 then
    if off = 0x110 then some (swTrig v s) else none
  else if page = 0x06 then
    if off = 0x044 then some (rstCmd v s)
    else if off = 0x04C then some (wdtKick s)
    else if off = 0x068 then some (sleepCmd v s)
    else if off = 0x08C then some (rcvData (BitVec.ofNat 32 v) s)
    else if off = 0x090 then some (rcvCmd s)
    else none
  else if page = 0x08 then
    if off = 0x054 then some (match v % 4 with
      | 1 => stepMeasured s
      | 2 => stepValue s
      | 3 => setTime s
      | _ => s)
    else if off = 0x090 then some (tcSet v s)
    else none
  else if page = 0x48 then
    if off = 0x048 then some (trainCmd s) else none
  else if page = 0x54 then
    if off = 0x04C then some (epochCmd s)
    else if off = 0x050 then some (rejoinCmd master v s)
    else none
  else none

/-- A write of a command register of the sensor, raw and colour pages. -/
def State.rawCommand (s : State) (page off v : Nat) : Option State :=
  if page = 0x10 then
    match nthAt 0x504 0x20 4 off, nthAt 0x604 0x20 4 off with
    | some c, _ => some (spiGo c v s)
    | none, some c => some (i2cGo c v s)
    | none, none => none
  else if page = 0x11 then
    if off = 0x040 then some (trainingStart v s) else none
  else if page = 0x13 then
    if off = 0x048 then some (match v % 4 with
      | 1 => intStart s
      | 2 => intStop s
      | 3 => intAverage s
      | _ => s) else none
  else if page = 0x14 then
    match nthAt 0x120 0x100 4 off with
    | some n => some (match v % 4 with
      | 1 => recStart n (bitOf v 4) s
      | 2 => recStop n (bitOf v 4) s
      | _ => s)
    | none => none
  else if page = 0x15 then
    if off = 0x070 then some (match v % 4 with
      | 1 => playStart s
      | 2 => playStop s
      | _ => s) else none
  else if page = 0x19 then
    if off = 0x058 then some (loadCmd s) else none
  else if page = 0x1A then
    if off = 0x080 then some (match v % 4 with
      | 1 => patStart s
      | 2 => patStop s
      | _ => s) else none
  else none

/-- A write of a command register of the codec, recording, video and other pages. -/
def State.mediaCommand (s : State) (page off v : Nat) : Option State :=
  if page = 0x29 then
    match nthAt 0x150 0x60 32 off with
    | some n => some (match v % 4 with
      | 1 => sesStart n s
      | 2 => sesStop n s
      | 3 => forceIdr n s
      | _ => s)
    | none => none
  else if page = 0x2A then
    if off = 0x054 then some (match v / 2 ^ 16 % 8 with
      | 1 => markLong (v % 2 ^ 16) s
      | 2 => markUnused (v % 2 ^ 16) s
      | 3 => releaseOutput (v % 2 ^ 16) s
      | _ => s)
    else if off = 0x064 then some (staleRestart s)
    else none
  else if page = 0x30 then
    if off = 0x714 then some (fetchCmd s) else
    match nthAt 0x10C 0x40 16 off, nthAt 0x504 0x40 8 off with
    | some n, _ => some (match v % 4 with
      | 1 => format n s
      | 2 => openVolume n s
      | 3 => close n s
      | _ => s)
    | none, some c => some (match v % 8 with
      | 1 => chStart c s
      | 2 => chStop c s
      | 3 => chResume c s
      | 4 => chAbandon c s
      | _ => s)
    | none, none => none
  else if page = 0x3C ∨ page = 0x3D then
    if off = 0x204 then some (dsiCommand (page - 0x3C) v s) else none
  else none

/-- A write of a command register; none where the register is no command register. -/
def State.commandWrite (s : State) (master page off v : Nat) : Option State :=
  if cntOffset page = some off then some (cntRestart page v s)
  else ((s.controlCommand master page off v).or (s.rawCommand page off v)).or (s.mediaCommand page off v)

/-! ### Data ports: FIFOs and table windows -/

/-- A write of a FIFO register or of ORL.TBL_DATA, whose accesses move something else; none elsewhere. -/
def State.portWrite (s : State) (page off : Nat) (w : Word) : Option State :=
  if page = 0x10 then
    match nthAt 0x508 0x20 4 off, nthAt 0x608 0x20 4 off with
    | some c, _ => some (spiData c (.write w) s)
    | none, some c => some (i2cData c (.write w) s)
    | none, none => none
  else if page = 0x19 then
    if off = 0x048 then some (tblDataAccess (.write w) s) else none
  else if page = 0x3C ∨ page = 0x3D then
    if off = 0x200 then some (cmdData (page - 0x3C) (.write w) s) else none
  else none

/-- A read of such a register: its word, and what the read moves. -/
def State.portRead (s : State) (page off : Nat) : Option (Nat × State) :=
  let head (l : List Byte) : Nat := ((l.head?).getD 0).toNat
  if page = 0x10 then
    match nthAt 0x508 0x20 4 off, nthAt 0x608 0x20 4 off with
    | some c, _ => some (head (s.spiOf c).rx, spiData c .read s)
    | none, some c => some (head (s.i2cOf c).rx, i2cData c .read s)
    | none, none => none
  else if page = 0x19 then
    if off = 0x048 then some (s.tblWord.toNat, tblDataAccess .read s) else none
  else if page = 0x3C ∨ page = 0x3D then
    if off = 0x200 then some (head (s.blvOf (page - 0x3C)).rx, cmdData (page - 0x3C) .read s) else none
  else none

/-! ### Registers that hold a value under conditions -/

/-- Writes of the control, admission and power registers that check or do something beside storing. -/
def State.controlHeld (s : State) (master page off v : Nat) : Option State :=
  let a := page * 4096 + off
  if page = 0x00 then
    let w := BitVec.ofNat 32 v
    ((nthAt 0x080 0x10 16 off).map (fun g => updConfigWrite g .mode w s)).or
      (((nthAt 0x084 0x10 16 off).map (fun g => updConfigWrite g .timeLo w s)).or
        ((nthAt 0x088 0x10 16 off).map (fun g => updConfigWrite g .timeHi w s)))
  else if page = 0x02 then
    if off = 0x040 then some (gthLock v s)
    else if off = 0x048 then some (gthTblWrite v s)
    else if off = 0x058 then some (qpbWrite v s)
    else if off = 0x04C ∨ off = 0x050 ∨ (0x060 ≤ off ∧ off ≤ 0x0DC) then some (if s.locked then s else s.storeReg a v)
    else none
  else if page = 0x03 then
    if off = 0x050 then some (pwrBudgetWrite v s)
    else if off = 0x058 then some (beAllowanceWrite .slots v s)
    else if off = 0x05C then some (beAllowanceWrite .patience v s)
    else if 0x060 ≤ off ∧ off ≤ 0x088 then some (s.flowWrite (masterBank master) off v)
    else none
  else if page = 0x06 then
    if off = 0x048 then
      let s := s.storeReg a v
      some (if bitOf v 31 then { s with pwr := { s.pwr with wdtFrom := s.now } } else s)
    else none
  else if page = 0x08 then
    if off = 0x044 then some (s.setAdjLim v) else if 0x058 ≤ off ∧ off ≤ 0x068 then some (s.storeOperand a v) else none
  else if page = 0x09 then
    if off = 0x050 then some (s.storeReg a v).reselect
    else ((nthAt 0x130 0x20 7 off).or (nthAt 0x134 0x20 7 off)).map (fun _ => s.storeOperand a v)
  else if page = 0x0A then
    if off = 0x120 then some (s.mcWrite v) else if off = 0x13C then some (ctlTxSend v [] s) else none
  else if page = 0x10 then
    ((nthAt 0x400 8 4 off).or (nthAt 0x404 8 4 off)).map (fun c => (s.storeReg a v).setMclk c)
  else if page = 0x11 then
    (nthAt 0x060 0x10 4 off).map (fun g => rateWrite g v s)
  else none

/-- VOL_CFG: a write of EN = 0 disables the volume; any other write is ignored unless the volume is OFF. -/
def State.volCfgWrite (s : State) (n v : Nat) : State :=
  let off := s.volState n = 0 ∧ s.volWait n = .none
  if bitOf v 0 then
    if off then volumeEnable n (s.storeReg (Adr.BTH.VOL_CFG n) (v - 1)) else s
  else if off then s.storeReg (Adr.BTH.VOL_CFG n) v else volumeDisable n s

/-- MEM_CFG: a write of EN = 0 disables the member; any other write is ignored unless the member is ABSENT. -/
def State.memCfgWrite (s : State) (m v : Nat) : State :=
  if s.memState m = 0 then
    let s := s.storeReg (Adr.BTM.MEM_CFG m) (v / 2 * 2)
    if bitOf v 0 then memberEnable m s else s
  else if bitOf v 0 then s else memberDisable m s

/-- CH_CFG: written only while the channel is IDLE, and while HALTED only its VOL field (R212). -/
def State.chCfgWrite (s : State) (c v : Nat) : State :=
  if s.chState c = 0 then s.storeReg (Adr.BTH.CH_CFG c) v
  else if s.chState c = 3 then s.setFld (Adr.BTH.CH_CFG c) 12 4 (bits v 12 4)
  else s

/-- Writes of the media registers that check or do something beside storing. -/
def State.mediaHeld (s : State) (page off v : Nat) : Option State :=
  let a := page * 4096 + off
  if page = 0x14 then
    ((nthAt 0x108 0x100 4 off).or (nthAt 0x10C 0x100 4 off)).map (fun n => if (s.ebeOf n).running || (s.ebeOf n).open_.isSome then s else s.storeReg a v)
  else if page = 0x19 then
    if off = 0x040 then some (tblSelWrite v s) else none
  else if page = 0x29 then
    ((nthAt 0x140 0x60 32 off).map (fun n => wrPtrWrite n (BitVec.ofNat 32 v) s)).or
      ((nthAt 0x144 0x60 32 off).map (fun n => rdPtrWrite n (BitVec.ofNat 32 v) s))
  else if page = 0x2A then
    if off = 0x048 ∨ off = 0x04C then some (s.glpWrite off v) else none
  else if page = 0x30 then
    if off = 0x040 then some (if (List.range 32).all (fun m => s.memState m == 0) then s.storeReg a v else s)
    else if off = 0x804 then some (s.vmWrite (BitVec.ofNat 32 v))
    else ((nthAt 0x100 0x40 16 off).map (fun n => s.volCfgWrite n v)).or ((nthAt 0x500 0x40 8 off).map (fun c => s.chCfgWrite c v))
  else if page = 0x31 then
    (nthAt 0x100 0x20 32 off).map (fun m => s.memCfgWrite m v)
  else if page = 0x34 then
    if off = 0x040 ∨ off = 0x044 then some (if s.ofc.ready then s else s.storeReg a v)
    else if off = 0x050 then some (s.sqFlowWrite v)
    else none
  else if page = 0x40 then
    if off = 0x604 then some (s.routeWrite v) else none
  else if page = 0x4C then
    if off = 0x040 ∨ off = 0x044 then some (if s.arbActive then s else s.storeReg a v)
    else if off = 0x048 then some (subIdxWrite v s)
    else if off = 0x050 then some (seenIdxWrite v s)
    else none
  else none

/-- A write of the page header: ENABLE in the shadow, HOLD at once, UPD_GROUP unless PENDING, the interrupt mask and vector, and KSK_SEL (R37, R38, R48). -/
def State.headerWrite (s : State) (master page off v : Nat) : State :=
  if off = 0x008 then
    let held := s.holding page
    let s := s.setFld (Adr.HDR.PG_CTL page) 1 1 (bits v 1 1)
    let s := if held && !s.holding page && page == 0x30 then s.bthResume else s
    let s := if held && !s.holding page && page == 0x05 then s.feedSlices else s
    let s : State := { s with shadow := s.shadow.putFld (Adr.HDR.PG_CTL page) 0 1 (bits v 0 1) }
    updGroupBind page (bits v 4 4) s
  else if off = 0x020 then kioskSelect (masterBank master) page (v % 256) s
  else s.storeReg (page * 4096 + off) v

/-- A write that leaves the register holding a value: the header but for KSK_SEL, the registers with conditions, and all plain ones. -/
def State.heldWrite (s : State) (master page off v : Nat) : State :=
  if off < 0x40 then s.headerWrite master page off v
  else ((s.controlHeld master page off v).or (s.mediaHeld page off v)).getD (s.storeReg (page * 4096 + off) v)

/-- A 32-bit write of a register by a master (R3, R35). A reserved page ignores it (R36). -/
def regWrite (master page off v : Nat) (s : State) : State :=
  if !implemented page then s else
  if off < 0x40 then s.headerWrite master page off v else
  match (s.commandWrite master page off v).or (s.portWrite page off (BitVec.ofNat 32 v)) with
  | some t => t
  | none => s.heldWrite master page off v

/-! ### Reads -/

/-- The lowest page of the block's range in R36. -/
def pageBlock (page : Nat) : Nat :=
  if page = 0x09 then 0x08 else
  if page = 0x0B then 0x0A else
  if 0x20 ≤ page ∧ page < 0x28 then 0x20 else
  if 0x38 ≤ page ∧ page < 0x3C then 0x38 else
  if page = 0x3D then 0x3C else
  if 0x44 ≤ page ∧ page < 0x48 then 0x44 else
  if 0x50 ≤ page ∧ page < 0x54 then 0x50 else page

/-- PG_ID.VERSION: GLB's names the silicon revision, 0x10 for B0, the one revision that R366 lists (R2, R37); the layout versions of other pages are not
stated. -/
def pgVersion (page : Nat) : Nat := if page = 0 then 0x10 else (Config.pgVersion page).toNat

/-- PG_ID (R37). -/
def pgId (page : Nat) : Nat := pgVersion page + (page - pageBlock page) * 2 ^ 8 + pageBlock page * 2 ^ 16

/-- A read of the page header. No chapter defines a field of PG_CAP, so that all its bits are reserved and read zero (R5, R37). -/
def State.headerRead (s : State) (master page off : Nat) : Nat :=
  let k := s.kioskOf (masterBank master) page
  if off = 0x000 then pgId page else
  if off = 0x008 then mergeBits (s.rd (Adr.HDR.PG_CTL page)) 1 (s.shadow.word (Adr.HDR.PG_CTL page)).toNat else
  if off = 0x00C then s.pgStat page else
  if off = 0x010 then s.pgFault page else
  if off = 0x014 ∨ off = 0x018 then s.rd (page * 4096 + off) else
  if off = 0x024 then k.stat else
  if 0x028 ≤ off then nth 0 k.data ((off - 0x028) / 4) else 0

/-- The registers whose word is computed from the rest of the state; none for those that hold it. -/
def State.computedRead (s : State) (master page off : Nat) : Option Nat :=
  if page = 0x02 then
    if off = 0x048 then some s.tblData else if off = 0x058 then some s.qpbData else none
  else if page = 0x03 then
    if 0x0A0 ≤ off ∧ off < 0x130 then some (s.cap ((off - 0x0A0) / 4))
    else if 0x140 ≤ off ∧ off < 0x1D0 then some (s.used ((off - 0x140) / 4))
    else if off = 0x054 then some s.pwrUsed
    else if 0x060 ≤ off ∧ off ≤ 0x08C then some (s.flowRead (masterBank master) off)
    else none
  else if page = 0x0A then
    if off = 0x120 then some s.mcRead else none
  else if page = 0x19 then
    let id := Fld.ORL.TBL_SEL_ID s.regs
    let copy := Fld.ORL.TBL_SEL_COPY s.regs
    if off = 0x04C then some (b2n (s.copyInUse id copy) + 2 * b2n (s.copyInUse id (1 - copy))) else none
  else if page = 0x2A then
    if off = 0x048 ∨ off = 0x04C ∨ off = 0x050 then some (s.glpRead off) else none
  else if page = 0x30 then
    if off = 0x804 then some s.vmRead else none
  else if page = 0x34 then
    if off = 0x050 ∨ off = 0x054 ∨ off = 0x058 then some (s.ofcRead off) else none
  else if page = 0x40 then
    if off = 0x604 then some s.routeRead else none
  else if page = 0x48 then
    if off = 0x060 then some s.lanePos else none
  else none

/-- A register that holds its word: WO fields read zero, SH fields their last written value, all others the value in effect (R3). -/
def State.storedRead (s : State) (a : RegAddr) : Nat :=
  match findRow a with
  | some r => match r.acc with
    | .WO => 0
    | .SH => (s.shadow.word a).toNat
    | _ => s.rd a
  | none => 0

/-- A 32-bit read of a register by a master: its word, and the state after (a read moves only the data ports). A reserved page reads zero (R36). -/
def regRead (master page off : Nat) (s : State) : Nat × State :=
  if !implemented page then (0, s) else
  if off < 0x40 then (s.headerRead master page off % 2 ^ 32, s) else
  match s.portRead page off with
  | some (w, t) => (w % 2 ^ 32, t)
  | none => (((s.computedRead master page off).getD (s.storedRead (page * 4096 + off))) % 2 ^ 32, s)

/-! ### REGISTER_WRITE and NARROW_WRITE -/

/-- REGISTER_WRITE: a 32-bit write that reaches the registers (R3). -/
def registerWrite (master page off : Nat) (value : Word) (s : State) : State :=
  if s.refusesRemote master page off then s.refuseRemote else regWrite master page off value.toNat s

/-- NARROW_WRITE: a register that holds a written value holds an undefined one, as if that had been written in full; no command or named action happens, no
other register changes, and RO registers ignore the write (R6). The remote-access filter refuses it as it does any write (R334). The flow-table window is that of the writing master's bank (R71). -/
def narrowWrite (master page off : Nat) (s : State) : State :=
  if s.refusesRemote master page off then s.refuseRemote else
  if !implemented page || off == 0x020 then s else
  let (w, t) := s.drawWord
  let id := Fld.ORL.TBL_SEL_ID s.regs
  let copy := Fld.ORL.TBL_SEL_COPY s.regs
  if page = 0x19 ∧ off = 0x040 then t.setReg Adr.ORL.TBL_SEL ((if s.load.isSome then id else w.toNat % 2 ^ 8) + bits w.toNat 8 1 * 2 ^ 8) else
  if page = 0x19 ∧ off = 0x048 then
    (if s.copyInUse id copy || s.copyLoading id copy then s else t.setTableWord id copy (Fld.ORL.TBL_ADDR s.regs) w) else
  if 0x40 ≤ off ∧ ((s.commandWrite master page off 0).isSome = true ∨ (s.portWrite page off 0).isSome = true) then s else t.heldWrite master page off w.toNat

end Sys2Proof.Machine
end

