-- ==== Sys2Proof/Machine/Bus.lean ====
section
/-! DEFINITION. Transactions and the arbiters they pass, the boot ROM's register list, and remote register access (R20 to
R23, R51, R52, R75, R77 to R79, R288, R289, R293, R295, R322, R323, R334, R347, R369). -/

namespace Sys2Proof.Machine

/-! ### Transactions (R21 to R23, R51, R52, R75, R77, R78, R369) -/

/-- The response to a transaction's master. A host request completes with Successful Completion status, whatever the outcome (R52, R369). -/
def State.respond (s : State) (t : Txn) (data : List Byte) (error : Option Nat) : State :=
  s.emit (.response t.master data (if t.viaPcie then none else error))

/-- The bytes a transaction moves: its beats, or one word. -/
def txnSize (t : Txn) : Nat := match t.target with
  | .reg _ _ => 4
  | .dram _ => 32 * t.beats

/-- A transaction fails at a unit: a read returns zero data, a write is dropped (R22). -/
def State.failTxn (s : State) (t : Txn) (unit : Nat) : State := s.respond t (if t.isWrite then [] else List.replicate (txnSize t) 0) (some unit)

/-- A register access that has passed its checks: its word, and the state after. -/
def State.localAccess (s : State) (master : Nat) (isWrite : Bool) (page off value : Nat) : Nat × State :=
  if isWrite then (0, regWrite master page off value s) else regRead master page off s

/-- A register transaction (R21). A read narrower than 32 bits returns an undefined value and changes nothing, and such a write is a NARROW_WRITE (R6). -/
def State.regTxn (s : State) (t : Txn) (page off : Nat) : State :=
  if t.narrow then
    if t.isWrite then (narrowWrite t.master page off s).respond t [] none else s.drawWord.2.respond t (leBytes 4 s.drawWord.1.toNat) none
  else
    let (w, s) := s.localAccess t.master t.isWrite page off (leNat t.data)
    s.respond t (if t.isWrite then [] else leBytes 4 w) none

/-- The DRAM address of a transaction. -/
def txnAddr (t : Txn) : Option Nat := match t.target with
  | .dram a => some a
  | .reg _ _ => none

/-- Whether two transactions must complete in issue order: the same master, the same 256-byte block of DRAM or of a register page (R23). -/
def txnOrdered (t u : Txn) : Bool :=
  t.master == u.master && match t.target, u.target with
    | .dram a, .dram b => a / 256 == b / 256
    | .reg p o, .reg q r => p == q && o / 256 == r / 256
    | _, _ => false

/-- The domain of the edge that a unit stands at. -/
def unitDomain (unit : Nat) : Option ClockDomain :=
  let page := unit / 16
  if 0x101 ≤ unit ∧ unit < 0x105 then some (.sensorGroup (Fin.ofNat 4 (unit - 0x101)))
  else if 0x38 ≤ page ∧ page < 0x3C then some (.sdi (Fin.ofNat 4 (page - 0x38)))
  else if page = 0x0A ∨ page = 0x0B then some (.ethernet (Fin.ofNat 2 (page - 0x0A)))
  else if page = 0x3C ∨ page = 0x3D then some (.dsi (Fin.ofNat 2 (page - 0x3C)))
  else if 0x401 ≤ unit ∧ unit < 0x405 then some (.bandstand (Fin.ofNat 4 (unit - 0x401)))
  else if 0x50 ≤ page ∧ page < 0x54 then some (.falilan (Fin.ofNat 4 (page - 0x50)))
  else if page = 0x34 ∨ unit = 0xF34 then some .pcieEndpoint
  else if page = 0x05 then some .dovecote
  else none

/-- The domains that a transaction passes through: that of its unit's edge, the endpoint for a host request, and that of its target. -/
def State.txnDomains (s : State) (t : Txn) : List ClockDomain :=
  (unitDomain t.unit).toList ++ (if t.viaPcie then [.pcieEndpoint] else []) ++
  (if 0xF00 ≤ t.unit ∧ t.unit < 0xF20 then [.rootPort (Fin.ofNat 8 (Fld.BTM.MEM_CFG_PORT s.regs (t.unit - 0xF00)))] else []) ++
  (match t.target with
    | .reg _ _ => [.lodge]
    | .dram addr => [.memGroup (Fin.ofNat 4 ((s.channelOf addr).1 / 4))])

/-- Whether a domain that a transaction passes has stopped (R18). -/
def State.txnStopped (s : State) (t : Txn) : Bool := (s.txnDomains t).any (fun d => s.stopped.contains d)

/-- Whether a DRAM transaction finds room in its channel's queue, with DRAM out of self-refresh. -/
def State.room (s : State) (t : Txn) (addr : Nat) : Bool :=
  let c := s.chan (s.channelOf addr).1
  !s.mem.selfRefresh && decide ((if t.isWrite then c.writeQ else c.readQ).length < 64)

/-- The beats of a read that come from the devices, by number: those not held in the write queue (R288). -/
def State.fromDevices (s : State) (addr beats : Nat) : List Nat :=
  let held := (s.chan (s.channelOf addr).1).writeQ
  (List.range beats).filter (fun k => !held.any (fun e => decide (e.beatSpan.1 ≤ addr / 32 + k) && decide (addr / 32 + k < e.beatSpan.2)))

/-- The data of a read: a beat from the devices with an error that no ECC in effect covers has bits that are not known (R293). -/
def State.readData (s : State) (addr beats : Nat) (met : List (Nat × EccEvent)) : List Byte × State :=
  let bad := (met.filter (fun e => s.eccMissed e.2)).map (·.1)
  if bad.isEmpty then (s.dramRead addr (32 * beats), s) else
  ((s.dramRead addr (32 * beats)).zipIdx.map (fun e => if bad.contains (e.2 / 32) then Config.freeByte s.freeCount e.2 else e.1), { s with freeCount := s.freeCount + 1 })

/-- A DRAM transaction enters its channel's queue, in class 1 where it is metered or promoted (R77): a write has reached its ordering point, and supersedes the
write-back of a word it covers; a read returns the latest completed write, which it takes from the write queue where that holds it, unless a beat from the
devices meets an uncorrectable error (R23, R288, R291 to R293). -/
def State.enqueue (s : State) (t : Txn) (first : Bool) (addr : Nat) : State :=
  let ch := (s.channelOf addr).1
  let c := s.chan ch
  let e : McEntry := { addr := addr, beats := t.beats, metered := first, entered := s.now }
  if t.isWrite then
    let c := { c with writeQ := c.writeQ ++ [e], corrected := c.corrected.filter (fun x => !x.meets e) }
    (((s.setChan ch c).eccWrite addr (t.ecc.take t.beats)).dramWrite addr t.data).respond t [] none
  else
    let met := (s.fromDevices addr t.beats).map (fun k => (k, nth EccEvent.none t.ecc k))
    let s := if met.isEmpty then s else s.setChan ch { c with readQ := c.readQ ++ [e] }
    let (s, error) := s.eccRead addr t.master met
    match error with
    | some unit => s.failTxn t unit
    | none =>
      let (data, s) := s.readData addr t.beats met
      s.respond t data none

/-- Whether a transaction can be served at once: it ends in an error response, or finds room behind nothing that it must follow (R23). A register takes any. -/
def State.canServe (s : State) (t : Txn) : Bool := match t.target with
  | .reg _ _ => true
  | .dram addr => (s.dramError addr).isSome || (s.room t addr && !s.mem.waiting.any (fun w => txnOrdered t w))

/-- A DRAM transaction: an error response before TRAIN is DONE (R295) or beyond the capacity, which MCT reports (R369); else its channel's queue, or a wait
for room there. -/
def State.dramTxn (s : State) (t : Txn) (first : Bool) (addr : Nat) : State :=
  match s.dramError addr with
  | some unit => (if unit = 0x480 then s.fault 0x480 0x22 else s).failTxn t unit
  | none => if s.canServe t then s.enqueue t first addr else { s with mem := { s.mem with waiting := s.mem.waiting ++ [t] } }

/-- A transaction that its arbiters have served, in class 1 or class 2 of R77. -/
def State.serveTxn (s : State) (t : Txn) (first : Bool) : State :=
  match t.target with
  | .reg page off => s.regTxn t page off
  | .dram addr => s.dramTxn t first addr

/-- The pause quanta of a best-effort transaction: those of its unit's page; Lodge transactions and requests of units without a page are never paused
(R78, R315). -/
def State.quantaOf (s : State) (t : Txn) : Nat :=
  if t.master = 0 || !implemented (t.unit / 16) then 0 else s.pauseQuanta (t.unit / 16)

/-- The MC group and the root port that a transaction passes, by RES (R65, R77). -/
def State.txnRes (s : State) (t : Txn) : List Nat :=
  (match t.target with
    | .reg _ _ => []
    | .dram addr => [0x17 + (s.channelOf addr).1 / 4]) ++
  (if 0xF00 ≤ t.unit ∧ t.unit < 0xF20 then [0x1B + Fld.BTM.MEM_CFG_PORT s.regs (t.unit - 0xF00)] else [])

/-- Whether a party has an eligible operation that waits at a resource. -/
def State.waitsAt (s : State) (res party : Nat) : Bool :=
  s.trl.beOps.any (fun o => o.party == party && o.quanta == 0 && (s.txnRes o.txn).contains res)

/-- A party takes a slot at a resource, if it has none and one of the BE_SLOTS is free (R77). -/
def State.takeSlot (s : State) (party res : Nat) : State :=
  if s.trl.slots.any (fun k => k.res == res && k.party == party) ∨ Fld.TRL.BE_SLOTS s.regs ≤ (s.trl.slots.filter (fun k => k.res == res)).length then s
  else { s with trl := { s.trl with slots := s.trl.slots ++ [{ res := res, party := party, since := s.now }] } }

/-- The slots once a party has nothing eligible left at a resource, or more waits there: freed slots go to the waiting parties in arrival order (R77). -/
def State.settleSlots (s : State) : State :=
  let s : State := { s with trl := { s.trl with slots := s.trl.slots.filter (fun k => s.waitsAt k.res k.party) } }
  s.trl.beOps.foldl (fun s o => if o.quanta = 0 then (s.txnRes o.txn).foldl (fun s r => s.takeSlot o.party r) s else s) s

/-- A held operation is served: at urgent priority at once, else where it finds room (R77, R79). -/
def State.serveHeld (s : State) (o : BeOp) (first : Bool) : State :=
  if first || s.canServe o.txn then (({ s with trl := { s.trl with beOps := s.trl.beOps.erase o } } : State).serveTxn o.txn first).settleSlots else s

/-- Best-effort work is held for its pause quanta, behind what its party holds already, behind what it must follow, and for room (R23, R77, R78); else it is
served. -/
def State.bestEffort (s : State) (t : Txn) : State :=
  let q := s.quantaOf t
  if 0 < q || s.trl.beOps.any (fun o => o.party == t.unit || txnOrdered t o.txn) || !s.canServe t then
    ({ s with trl := { s.trl with beOps := s.trl.beOps ++ [{ party := t.unit, quanta := q, txn := t, eligible := s.now }] } } : State).settleSlots
  else s.serveTxn t false

/-- Metered work goes on at once. What its master holds in the same block is served before it, its remaining pause quanta dropped: R23 keeps their order, and
throttling never delays a guaranteed flow (R28; DEDUCED, assumption 25). -/
def State.metered (s : State) (t : Txn) : State :=
  ((s.trl.beOps.filter (fun o => txnOrdered t o.txn)).foldl (fun s o => s.serveHeld o true) s).serveTxn t true

/-- The first m beats of a burst. -/
def txnFirst (t : Txn) (m : Nat) : Txn := { t with beats := m, data := t.data.take (32 * m), ecc := t.ecc.take m }

/-- The beats of a burst after the first m, as best-effort work. -/
def txnRest (t : Txn) (m : Nat) : Txn :=
  { t with
    beats := t.beats - m
    data := t.data.drop (32 * m)
    flow := none
    ecc := t.ecc.drop m
    target := match t.target with
      | .dram a => .dram (a + 32 * m)
      | .reg p o => .reg p o }

/-- Metering: the beats that find tokens are guaranteed, and the others are carried as best-effort work (R75). -/
def State.admitTxn (s : State) (t : Txn) : State :=
  match t.flow with
  | none => s.bestEffort t
  | some i =>
    let (m, s) := s.meter i.val t.beats
    if m = t.beats then s.metered t
    else if m = 0 then s.bestEffort { t with flow := none }
    else (s.metered (txnFirst t m)).bestEffort (txnRest t m)

/-- Whether the Gatehouse grants a transaction (R51). -/
def State.grantsTxn (s : State) (t : Txn) : Bool := match t.target with
  | .reg page _ => s.grants page t.master t.isWrite
  | .dram addr => s.grantsDram (addr / 4096) t.master t.isWrite

/-- A refused transaction: the sub-unit for the target type reports GATE (R52). -/
def State.refuseTxn (s : State) (t : Txn) : State := match t.target with
  | .reg page _ => (s.refuse 0x021 t.master page t.isWrite).failTxn t 0x021
  | .dram addr => (s.refuse 0x022 t.master (s.refusedWindow (addr / 4096)) t.isWrite).failTxn t 0x022

/-- Whether the remote-access filter refuses a transaction (R334). -/
def State.filtersTxn (s : State) (t : Txn) : Bool := match t.target with
  | .reg page off => t.isWrite && s.refusesRemote t.master page off
  | .dram _ => false

/-- A transaction passes its edge and is checked. -/
def State.takeTxn (s : State) (t : Txn) : State :=
  if s.filtersTxn t then s.refuseRemote.failTxn t 0x541
  else if s.grantsTxn t then s.admitTxn t
  else s.refuseTxn t

/-! ### Arbiters (R77 to R79, R289) -/

/-- The oldest operation that a party holds, if it is eligible and follows nothing held before it (R23, R78). -/
def State.eligibleOf (s : State) (party : Nat) : Option BeOp :=
  let before := s.trl.beOps.takeWhile (fun o => o.party != party)
  match s.trl.beOps.drop before.length with
  | o :: _ => if o.quanta = 0 ∧ before.any (fun u => txnOrdered o.txn u.txn) = false then some o else none
  | [] => none

/-- The arbiter serves a party, where no domain that its operation passes has stopped (R18). -/
def State.serveParty (s : State) (party : Nat) (first : Bool) : State :=
  match s.eligibleOf party with
  | some o => if s.txnStopped o.txn then s else s.serveHeld o first
  | none => s

/-- Whether an operation goes to a channel. -/
def State.goesTo (s : State) (ch : Nat) (t : Txn) : Bool := match t.target with
  | .reg _ _ => false
  | .dram addr => (s.channelOf addr).1 == ch

/-- Room in a channel's queues is filled in the order of R77: class 1 in arrival order, then best-effort work, the write-back of corrected words and the
parties' eligible operations (R292). -/
def State.drainWaiting (s : State) (ch : Nat) : State :=
  let s := s.mem.waiting.foldl (fun s t => s.serveTxn t true) ({ s with mem := { s.mem with waiting := [] } } : State)
  let s := if (s.chan ch).corrected.isEmpty then s else s.setChan ch (s.chan ch).takeCorrected
  s.trl.beOps.foldl (fun s o => if s.goesTo ch o.txn then s.serveParty o.party false else s) s

/-- What a channel issues at a 256-byte boundary; then what waited for room enters. -/
def schedulerBoundary (g k : Nat) (s : State) : State := (schedulerIssue g k s).drainWaiting (4 * g + k)

/-- Take one pause quantum from the oldest operation of a party. -/
def spendQuantum (party now : Nat) : List BeOp → List BeOp
  | [] => []
  | o :: r =>
    if o.party = party then { o with quanta := o.quanta - 1, eligible := if o.quanta = 1 then now else o.eligible } :: r else o :: spendQuantum party now r

/-- PAUSE_QUANTUM_EXPIRY: one quantum of 64 ns of the party's oldest held operation has elapsed; once none is left the operation is eligible, and is served
where the arbiter grants it then (R78). -/
def pauseQuantumExpiry (party : Nat) (granted : Bool) (s : State) : State :=
  let s := ({ s with trl := { s.trl with beOps := spendQuantum party s.now s.trl.beOps } } : State).settleSlots
  if granted then s.serveParty party false else s

/-- The eligible waiting time of an operation that counts towards its party's patience: since it became eligible, since its party took each slot it needs,
and since the party's latest urgent service (R78, R79). None while it has no slot at a resource it needs (R77). -/
def State.patienceOf (s : State) (o : BeOp) : Option Nat :=
  let slots := (s.txnRes o.txn).map (fun r => s.trl.slots.find? (fun k => k.res == r && k.party == o.party))
  if slots.all (·.isSome) then
    some (((slots.filterMap id).map (·.since) ++ (s.trl.restarted.filter (fun e => e.1 == o.party)).map (·.2)).foldl
      (fun n t => min n (shortFwd t s.now)) (shortFwd o.eligible s.now))
  else none

/-- Whether an operation's party has passed BE_PATIENCE (R79). -/
def State.pastPatience (s : State) (o : BeOp) : Bool :=
  match s.patienceOf o with
  | some n => decide (Fld.TRL.BE_PATIENCE s.regs * 1000 < n)
  | none => false

/-- A party's patience counter restarts from zero. -/
def State.restartPatience (s : State) (arbiter party : Nat) : State :=
  { s with trl := { s.trl with restarted := SMap.put s.trl.restarted (arbiter * 2 ^ 16 + party) s.now } }

/-- PATIENCE_EXPIRY: a party whose patience passes its limit is served once at urgent priority, and its counter restarts (R79): the oldest eligible operation
of a Trellis party that has waited beyond BE_PATIENCE in its slot, in class 1; the write of a channel that has waited longest, where R289's order comes to it; the
forced refresh of a channel at the postpone limit. An NVMe queue past PATIENCE is served by the next arbitration round (R221), and the Dovecote's calibration
past CAL_PATIENCE holds requests (R309): both by their own counters. Nothing happens for a party that is not past its limit. -/
def patienceExpiry (arbiter : Arbiter) (party : Nat) (s : State) : State :=
  match arbiter with
  | .trellis =>
    match s.eligibleOf party with
    | some o => if s.pastPatience o then (s.serveHeld o true).restartPatience 0 party else s
    | none => s
  | .dramWriteDrain =>
    match s.urgentWrite party with
    | some e => ((s.issueUrgent party e).drainWaiting party).restartPatience 1 party
    | none => s
  | .refresh =>
    let c := s.chan party
    if c.ready && !s.mem.selfRefresh && decide (8 ≤ c.debt) then
      ((s.bump (Adr.MC.FORCED_REF (party / 4) (party % 4))).setChan party (forcedRefresh c)).restartPatience 2 party
    else s
  | .nvmeClass =>
    match s.sq party with
    | some q =>
      if 0 < q.waiting ∧ 2 ≤ q.qprio ∧ inRange Adr.OFC.PATIENCE (Fld.OFC.PATIENCE s.regs) 1 65535 < q.wait then s.restartPatience 3 party else s
    | none => s
  | .dovecoteCal => if s.dov.calReady || s.lpEn || decide (Fld.DOV.CAL_STAT_CAL_WAIT s.regs < s.calPatience) then s else s.restartPatience 4 party

/-! ### The boot ROM's register list (R345, R347) -/

/-- BOOT_LIST_ENTRY: the entry at hand is applied as master 0x001. A POLL that does not succeed keeps the list where it is; an unlisted OP stops it. A WRITE
that resets the device ends the list. -/
def bootListEntry (s : State) : State :=
  match s.pwr.boot with
  | .list i =>
    match s.pwr.list[i]? with
    | none => s
    | some (w0, value) =>
      let a := w0 % 2 ^ 20
      let op := bits w0 24 4
      let next (s : State) : State := if s.pwr.boot = .list i then { s with pwr := { s.pwr with boot := .list (i + 1) } } else s
      if op = 0 then next (regWrite 1 (a / 4096) (a % 4096) value s)
      else if op = 1 then next s
      else if op = 2 ∨ op = 3 then
        let (w, s) := regRead 1 (a / 4096) (a % 4096) s
        if w &&& value = (if op = 2 then value else 0) then next s else s
      else listStopped s
  | _ => s

/-! ### Remote register access (R322, R323, R334) -/

/-- The device's own ID. -/
def State.ownId (s : State) : Option Nat :=
  if Fld.HIE.HIE_STAT_ID_VALID s.regs = 1 then some (Fld.HIE.HIE_STAT_DEV_ID s.regs) else none

/-- The port towards a device: that of the neighbour with its ID; else one of the ports whose link is UP, or the upstream port where none is (R322). -/
def State.portTo (s : State) (t : Nat) : Nat :=
  match (List.range 4).find? (fun p => Fld.FLK.LINK_STAT_NEIGHBOUR_VALID s.regs p == 1 && Fld.FLK.LINK_STAT_NEIGHBOUR_ID s.regs p == t) with
  | some p => p
  | none =>
    let ps := (List.range 4).filter s.linkUp
    if ps.isEmpty then s.upPort.getD 0 else nth 0 ps (Config.route t % ps.length)

/-- The remote master that an access is seen as at its target (R322). -/
def remoteMaster (a : RemoteAccess) : Nat := 0x40 + 4 * (a.origin % 16) + a.k % 4

/-- An access at its target: the remote-access filter, the page tables, and the register (R51, R322, R334). -/
def State.atTarget (s : State) (a : RemoteAccess) : State :=
  if a.isWrite && s.refusesRemote (remoteMaster a) a.page a.off then s.refuseRemote.emit (.remoteAnswer a.origin 0 (some (0x541, 0x21)))
  else if !s.grants a.page (remoteMaster a) a.isWrite then (s.refuse 0x021 (remoteMaster a) a.page a.isWrite).emit (.remoteAnswer a.origin 0 (some (0x021, 0x02)))
  else
    let (w, s) := s.localAccess (remoteMaster a) a.isWrite a.page a.off a.value.toNat
    s.emit (.remoteAnswer a.origin (BitVec.ofNat 32 w) none)

/-- An access of the device to its own registers through its own remote window: the Lodge as master 0x000, the host as on BAR0 (R322). -/
def State.ownAccess (s : State) (a : RemoteAccess) : State :=
  let master := if a.k = 0 then 0 else Fld.GTH.F0_MID s.regs
  if !s.grants a.page master a.isWrite then (s.refuse 0x021 master a.page a.isWrite).emit (.remoteAnswer a.origin 0 (some (0x021, 0x02)))
  else
    let (w, s) := s.localAccess master a.isWrite a.page a.off a.value.toNat
    s.emit (.remoteAnswer a.origin (BitVec.ofNat 32 w) none)

/-- A transaction that failed at its target: the port towards it captures the failing unit, and the origin sees 0xF20 + t (R22, R323). -/
def State.remoteFailed (s : State) (a : RemoteAccess) (unit code : Nat) : State :=
  let p := s.portTo a.target
  let s := s.setFlk p { s.flkPort p with failed := [unit % 2 ^ 12 + a.target % 16 * 2 ^ 16 + code % 2 ^ 8 * 2 ^ 24, (remoteMaster a), s.now % 2 ^ 32, s.now / 2 ^ 32] }
  s.emit (.remoteAnswer a.origin 0 (some (0xF20 + a.target, code)))

/-- An access at its origin: the host's first passes the local remote window; then it leaves towards its target, or its answer has come (R322, R323). -/
def State.atOrigin (s : State) (a : RemoteAccess) (answer : Option RemoteAnswer) : State :=
  let mid := Fld.GTH.F0_MID s.regs
  if a.k = 1 ∧ s.grants (0x120 + a.target) mid a.isWrite = false then
    (s.refuse 0x024 mid (0x120 + a.target) a.isWrite).emit (.remoteAnswer a.origin 0 (some (0x024, 0x02)))
  else if s.ownId = some a.target then s.ownAccess a
  else match answer with
    | none => s.emit (.remoteForward (s.portTo a.target) a.origin a.target a.k a.isWrite a.page a.off a.value)
    | some (.value w) => s.emit (.remoteAnswer a.origin w none)
    | some (.failed unit code) => s.remoteFailed a unit code

/-- REMOTE_TRANSACTION: at its origin, at its target, or on its way between them (R322). A device without an ID can only be where an access begins
(DEDUCED, notes/assumptions/36). -/
def remoteTransaction (a : RemoteAccess) (answer : Option RemoteAnswer) (s : State) : State :=
  let d := s.ownId.getD a.origin
  if a.origin = d then s.atOrigin a answer
  else if a.target = d then s.atTarget a
  else match answer with
    | none => s.emit (.remoteForward (s.portTo a.target) a.origin a.target a.k a.isWrite a.page a.off a.value)
    | some (.value w) => s.emit (.remoteAnswer a.origin w none)
    | some (.failed unit code) => s.emit (.remoteAnswer a.origin 0 (some (unit, code)))

/-- REMOTE_TIMEOUT: no response within 100 µs; the port towards the target reports TIMEOUT and captures it (R323). -/
def remoteTimeout (a : RemoteAccess) (s : State) : State :=
  if s.ownId.getD a.origin = a.origin then (s.fault (flkUnit (s.portTo a.target)) 0x04).remoteFailed a 0 0x04 else s

end Sys2Proof.Machine
end

