-- ==== Sys2Proof/Machine/Edges.lean ====
section
/-! DEFINITION. Stopped clock domains: what passes through the edge of a domain stalls while its clock is stopped, and resumes when it returns (R17, R18). -/

namespace Sys2Proof.Machine

/-- Whether a transaction stalls: a domain it passes has stopped, or an earlier transaction that it must follow stalls (R18, R23). -/
def State.stalls (s : State) (t : Txn) : Bool :=
  s.txnStopped t || s.stalled.any (fun c => match c with
    | .transaction u => txnOrdered t u
    | _ => false)

/-- TRANSACTION (R21). -/
def transaction (t : Txn) (s : State) : State := if s.stalls t then { s with stalled := s.stalled ++ [.transaction t] } else s.takeTxn t

/-- DOMAIN_CLOCK_STOP: only the flows through that domain's edge stall (R18). -/
def domainClockStop (d : ClockDomain) (s : State) : State := if s.stopped.contains d then s else { s with stopped := s.stopped ++ [d] }

/-! ### The commands that pass an edge -/

/-- The domains of DRAM: each 4 KiB lies on all sixteen channels, so an access of a block passes all four (R286). -/
def memGroups : List ClockDomain := [.memGroup 0, .memGroup 1, .memGroup 2, .memGroup 3]

/-- The root port of a member. -/
def State.memberEdge (s : State) (m : Fin 32) : ClockDomain := .rootPort (Fin.ofNat 8 (Fld.BTM.MEM_CFG_PORT s.regs m.val))

/-- The root ports of a volume's members. -/
def State.volumeEdges (s : State) (v : Nat) : List ClockDomain := (s.volMembers v).map (fun m => s.memberEdge (Fin.ofNat 32 m))

/-- The Ethernet ports that the next packet of a sender leaves on. -/
def State.senderEdges (s : State) (n : Fin 16) : List ClockDomain :=
  match (s.sender n.val).frames with
  | f :: _ => ([0, 1] : List (Fin 2)).filterMap (fun p => if bitOf (Fld.IPS.SND_CFG_PATHS f.cfg n.val) p.val then some (.ethernet p) else none)
  | [] => []

/-- The links that a remote access passes at this device: that towards its target, that towards its origin, or both on its way (R322). -/
def State.remoteEdges (s : State) (a : RemoteAccess) : List ClockDomain :=
  let d := s.ownId.getD a.origin
  (if a.target = d then [] else [.falilan (Fin.ofNat 4 (s.portTo a.target))]) ++ (if a.origin = d then [] else [.falilan (Fin.ofNat 4 (s.portTo a.origin))])

/-- The domains that an urgent service passes (R79). -/
def State.urgentEdges (s : State) (arbiter : Arbiter) (party : Nat) : List ClockDomain := match arbiter with
  | .trellis => match s.eligibleOf party with
    | some o => s.txnDomains o.txn
    | none => []
  | .dramWriteDrain | .refresh => [.memGroup (Fin.ofNat 4 (party / 4))]
  | .nvmeClass => [.pcieEndpoint]
  | .dovecoteCal => [.dovecote]

/-- The domains of the edges that a command passes: what arrives from outside, what leaves, and the DRAM that its block reads or writes (DEDUCED, assumption
27). -/
def State.edgesOf (s : State) (c : Instr) : List ClockDomain := match c with
  | .syncCode g _ _ | .sensorFrameStart g _ | .sensorLineStart g _ | .sensorLineEnd g _ | .sensorFrameEnd g _ => [.sensorGroup g]
  | .vTrigger _ | .hTrigger _ | .spiDone _ _ | .i2cDone _ _ _ | .i2cStretchTimeout _ => [.sensorControl]
  | .ebeFrameStart c => if Fld.EBE.ENC_CFG_USER_EN s.regs c.val = 1 then memGroups else []
  | .orgFrameEnd c => if s.histogramDue c.val then memGroups else []
  | .averageDone | .intFrame | .ebeFrameEnd _ | .decodeFrame _ | .loadDone _ _ | .viewFrameComplete _ _ | .workItemDone _ | .decodePublish _ => memGroups
  | .nvmeCompletion m _ _ => [s.memberEdge m]
  | .memberInitDone m .ended => [s.memberEdge m]
  | .labelReadDone v _ | .openScanDone v _ => s.volumeEdges v.val ++ memGroups
  | .inboundRequest p _ _ _ _ => .rootPort p :: memGroups
  | .fetchDone _ _ => memGroups
  | .controllerEnable _ _ _ _ _ | .controllerDisable | .functionLevelReset | .ccShutdown _ | .sqDoorbell _ _ | .cqDoorbell _ _ | .arbitrationRound _
  | .createIoSq _ | .createIoCq _ | .deleteIoSq _ | .deleteIoSqDone _ | .deleteIoCq _ | .getLogPage _ | .identify _ | .setFeatures _ | .getFeatures _
  | .resumeQueue _ | .unsupportedOpcode _ _ | .nvmRead _ _ | .flush _ _ => [.pcieEndpoint]
  | .nvmWrite _ _ => .pcieEndpoint :: memGroups
  | .datasetManagement _ _ => [.pcieEndpoint]
  | .commandCompletion _ _ _ => .pcieEndpoint :: memGroups
  | .sdiOutFrameStart n _ | .sdiInFrame n _ => .sdi n :: memGroups
  | .blvFrameStart n => .dsi n :: memGroups
  | .blvVfpEnd n | .layerUnderrun n _ _ _ | .dsiCommandDone n _ _ => [.dsi n]
  | .refMeasurement _ _ | .ltcWordOut | .framePulse _ => [.sundial]
  | .ethFrameReceive port f => .ethernet port :: if s.controlTakes port.val f.bytes then memGroups else []
  | .senderFrameSlot _ => memGroups
  | .senderPacket n _ _ => s.senderEdges n
  | .receiverPacket _ pathB _ => .ethernet (if pathB then 1 else 0) :: memGroups
  | .audioFrame p _ _ => [.bandstand p]
  | .schedulerIssue g _ | .refreshInterval g _ => [.memGroup g]
  | .patienceExpiry arbiter party => s.urgentEdges arbiter party
  | .recentre _ | .arbourJobDone _ => memGroups
  | .conversionDone _ _ _ | .calDone _ _ => [.dovecote]
  | .aonRound => [.alwaysOn]
  | .flitReceive p _ => [.falilan p]
  | .remoteTransaction a _ => s.remoteEdges a
  | .timeMessage p _ _ _ _ | .timeReply p _ => [.falilan p]
  | .channelSendFrame p _ _ | .channelFrameReceived p _ _ _ _ => .falilan p :: memGroups
  | .idAssign _ | .idRequest | .cascadeMessageBad | .imageBlock _ _ _ _ => [.cascade]
  | .heartbeatReceive p _ => [.falilan p]
  | .ltcWordIn _ => [.sundial]
  | _ => []

/-- Whether a command stalls at the edge of a stopped domain (R18). -/
def State.stopsAtEdge (s : State) (c : Instr) : Bool := (s.edgesOf c).any (fun d => s.stopped.contains d)

/-- A command passes its edges with the effect `s'`, or stalls there, behind what stalled before it (R18). -/
def throughEdge (c : Instr) (s s' : State) : State := if s.stopsAtEdge c then { s with stalled := s.stalled ++ [c] } else s'

/-- The effect of a command that has passed its edges. -/
def edgeEffect (c : Instr) (s : State) : State := match c with
  | .syncCode g arrived words => syncCode g.val arrived words s
  | .sensorFrameStart g arrived => sensorFrameStart g.val arrived s
  | .sensorLineStart g arrived => sensorLineStart g.val arrived s
  | .sensorLineEnd g arrived => sensorLineEnd g.val arrived s
  | .sensorFrameEnd g arrived => sensorFrameEnd g.val arrived s
  | .vTrigger g => vTrigger g.val s
  | .hTrigger g => hTrigger g.val s
  | .spiDone c rx => spiDone c.val rx s
  | .i2cDone c nack rx => i2cDone c.val nack rx s
  | .i2cStretchTimeout c => i2cStretchTimeout c.val s
  | .averageDone => averageDone s
  | .intFrame => intFrame s
  | .ebeFrameStart ctx => ebeFrameStart ctx.val s
  | .ebeFrameEnd ctx => ebeFrameEnd ctx.val s
  | .orgFrameEnd c => orgFrameEnd c.val s
  | .decodeFrame reads => decodeFrame reads s
  | .loadDone words read => loadDone words read s
  | .viewFrameComplete v a => viewFrameComplete v.val a.reads a.write s
  | .workItemDone i => workItemDone i.engine.val i.reads s
  | .decodePublish n => decodePublish n.val s
  | .nvmeCompletion m cid status => nvmeCompletion m.val cid status s
  | .memberInitDone m result => memberInitDone m.val result s
  | .labelReadDone v label => labelReadDone v.val label s
  | .openScanDone v scan => openScanDone v.val scan.slots scan.data s
  | .inboundRequest p m dramUnit isWrite data => inboundRequest p.val m.val dramUnit isWrite data s
  | .fetchDone error data => fetchDone error data s
  | .controllerEnable wrr asqSize acqSize asqBase acqBase => controllerEnable wrr asqSize acqSize asqBase acqBase s
  | .controllerDisable => controllerDisable s
  | .functionLevelReset => functionLevelReset s
  | .ccShutdown shn => ccShutdown shn.val s
  | .sqDoorbell q tail => sqDoorbell q tail s
  | .cqDoorbell q head => cqDoorbell q head s
  | .arbitrationRound entries => arbitrationRound entries s
  | .createIoSq cid => createIoSq cid s
  | .createIoCq cid => createIoCq cid s
  | .deleteIoSq cid => deleteIoSq cid s
  | .deleteIoSqDone cid => deleteIoSqDone cid s
  | .deleteIoCq cid => deleteIoCq cid s
  | .getLogPage cid => getLogPage cid s
  | .identify cid => identify cid s
  | .setFeatures cid => setFeatures cid s
  | .getFeatures cid => getFeatures cid s
  | .resumeQueue cid => resumeQueue cid s
  | .unsupportedOpcode sq cid => unsupportedOpcode sq cid s
  | .nvmRead sq cid => nvmRead sq cid s
  | .nvmWrite sq cid => nvmWrite sq cid s
  | .flush sq cid => flush sq cid s
  | .datasetManagement sq cid => datasetManagement sq cid s
  | .commandCompletion sq cid outcome => commandCompletion sq cid outcome s
  | .sdiOutFrameStart n read => sdiOutFrameStart n.val read s
  | .sdiInFrame n f => sdiInFrame n.val f s
  | .blvFrameStart n => blvFrameStart n.val s
  | .blvVfpEnd n => blvVfpEnd n.val s
  | .layerUnderrun n layer pixel read => layerUnderrun n.val layer.val pixel read s
  | .dsiCommandDone n err rx => dsiCommandDone n.val err rx s
  | .refMeasurement r m => refMeasurement r.val m s
  | .ltcWordOut => ltcWordOut s
  | .framePulse p => framePulse p.val s
  | .ethFrameReceive port f => ethFrameReceive port.val f s
  | .senderFrameSlot n => senderFrameSlot n.val s
  | .senderPacket n before0 before1 => senderPacket n.val before0 before1 s
  | .receiverPacket r pathB p => receiverPacket r.val pathB p s
  | .audioFrame p age slots => audioFrame p.val age slots s
  | .schedulerIssue g k => schedulerBoundary g.val k.val s
  | .refreshInterval g k => refreshInterval g.val k.val s
  | .patienceExpiry arbiter party => patienceExpiry arbiter party s
  | .recentre drifts => recentre drifts s
  | .arbourJobDone bad => arbourJobDone bad s
  | .conversionDone slice code powerMw => conversionDone slice.val code powerMw s
  | .calDone mL mH => calDone mL mH s
  | .aonRound => aonRound s
  | .flitReceive p crcOk => flitReceive p.val crcOk s
  | .remoteTransaction a reply => remoteTransaction a reply s
  | .timeMessage p t1 t2 t4 t3 => timeMessage p.val t1 t2 t4 t3 s
  | .timeReply p t4 => timeReply p.val t4 s
  | .channelSendFrame p c busy => channelSendFrame p.val c.val busy s
  | .channelFrameReceived p c data desc cut => channelFrameReceived p.val c.val data desc cut s
  | .idAssign n => idAssign n s
  | .idRequest => idRequest s
  | .cascadeMessageBad => cascadeMessageBad s
  | .imageBlock message offset bytes last => imageBlock message offset bytes last s
  | .heartbeatReceive p h => heartbeatReceive p.val h s
  | .ltcWordIn label => ltcWordIn label.toNat s
  | _ => s

/-- What stalled goes on, or stalls again at another edge. -/
def resume (s : State) (c : Instr) : State := match c with
  | .transaction t => transaction t s
  | _ => throughEdge c s (edgeEffect c s)

/-- DOMAIN_CLOCK_RETURN: the stalled flows resume at the next handshake, in order (R18). -/
def domainClockReturn (d : ClockDomain) (s : State) : State :=
  let l := s.stalled
  l.foldl resume { s with stopped := s.stopped.filter (fun x => decide (x ≠ d)), stalled := [] }

end Sys2Proof.Machine
end

