-- ==== Sys2Proof/WellFormed.lean ====
section
/-! DEFINITION. Which commands the wires and masters of the SH16 can produce: operands within the widths the spec gives them (R6, R21, R35, R54, R68 and the
chapters). Every meaning checks it and stops with `malformedCommand` on any other term; every command the spec describes is well-formed. -/

namespace Sys2Proof

/-- A page of the 1 MiB window (R35). -/
def pageOk (p : Nat) : Bool := decide (p < 256)

/-- The offset of a 32-bit register within its page (R6, R35). -/
def offsetOk (o : Nat) : Bool := decide (o < 4096) && o % 4 == 0

/-- A 9-bit master ID (R21). -/
def masterOk (m : Nat) : Bool := decide (m < 512)

/-- A 12-bit unit ID (R21, R54). -/
def unitOk (u : Nat) : Bool := decide (u < 4096)

/-- The outcome of a block's own access: an error response carries a unit ID (R22). -/
def busOk (b : BusResult) : Bool := match b with
  | none => true
  | some u => unitOk u

/-- Beats of DRAM, each with the unit ID of an error response. -/
def beatsOk (l : BadBeats) : Bool := l.all (fun e => decide (e.1 < 2 ^ 35) && unitOk e.2)

/-- Samples of at most 16 bits (R80). -/
def samplesOk (l : List Nat) : Bool := l.all (fun v => decide (v < 2 ^ 16))

/-- An NVMe command identifier. -/
def cidOk (cid : Nat) : Bool := decide (cid < 2 ^ 16)

/-- A queue identifier of function 1 whose doorbells lie in its BAR0: 16 KiB, doorbells from 0x1000, 8 bytes a queue (R215). What no queue exists for does nothing. -/
def queueOk (q : Nat) : Bool := decide (q < 1536)

/-- A programmable Dovecote slot, 8 to 31 (R311). -/
def slotOk (n : Nat) : Bool := decide (8 ≤ n) && decide (n < 32)

/-- A transaction: 1 to 8 beats within a 256-byte block, or exactly one register word (R21). -/
def Txn.wellFormed (t : Txn) : Bool :=
  masterOk t.master && unitOk t.unit && match t.target with
  | .reg page off => pageOk page && offsetOk off && t.beats == 1 && (!t.isWrite || t.data.length == 4)
  | .dram addr =>
    decide (1 ≤ t.beats) && decide (t.beats ≤ 8) && addr % 32 == 0 && decide (addr % 256 + 32 * t.beats ≤ 256) && decide (addr < 2 ^ 36) &&
    (!t.isWrite || t.data.length == 32 * t.beats) && !t.narrow

/-- The parties of each arbiter of R79: a unit, a DRAM channel, an I/O queue, the Dovecote. -/
def Arbiter.partyOk (a : Arbiter) (p : Nat) : Bool := match a with
  | .trellis => unitOk p
  | .dramWriteDrain | .refresh => decide (p < 16)
  | .nvmeClass => queueOk p
  | .dovecoteCal => p == 0

/-- A submission-queue entry: an 8-bit opcode, a 16-bit command identifier, 32-bit dwords. -/
def NvmeCmd.wellFormed (c : NvmeCmd) : Bool :=
  decide (c.opcode < 256) && cidOk c.cid && decide (c.nsid < 2 ^ 32) && decide (c.cdw10 < 2 ^ 32) && decide (c.cdw11 < 2 ^ 32) && decide (c.cdw12 < 2 ^ 32)

/-- The outcome of a host command's data path. -/
def DataOutcome.wellFormed (o : DataOutcome) : Bool := match o with
  | .ok => true
  | .bus u => unitOk u

/-- A remote access between devices 0 to 15 (R322). -/
def RemoteAccess.wellFormed (a : RemoteAccess) : Bool :=
  decide (a.origin < 16) && decide (a.target < 16) && decide (a.k < 4) && pageOk a.page && offsetOk a.off

/-- A heartbeat: SEQ u8, a device ID, a STATE of three bits, a 16-bit epoch (R331, R335). -/
def Heartbeat.wellFormed (h : Heartbeat) : Bool :=
  decide (h.seq < 256) && decide (h.sender < 16) && decide (h.state < 8) && decide (h.epoch < 2 ^ 16)

/-- A measured SDI frame whose codes fit the fields of FMT. -/
def SdiFrame.wellFormed (f : SdiFrame) : Bool :=
  decide (f.raster < 16) && decide (f.link < 16) && decide (f.rate < 16) && decide (f.pidBytes < 2 ^ 32) && f.pid.all (fun p => decide (p.sampling < 4))

/-- Whether a command is well-formed. -/
def Instr.wellFormed : Instr → Bool
  | .registerWrite m p o _ => masterOk m && pageOk p && offsetOk o
  | .narrowWrite ⟨m, p⟩ o => masterOk m && pageOk p && offsetOk o
  | .transaction t => t.wellFormed
  | .managementRound r => decide (r.speedIndex < 2 ^ 16) && r.trefi.length == 4
  | .domainClockStop _ => true
  | .domainClockReturn _ => true
  | .updGroupBind p _ => pageOk p
  | .updConfigWrite _ _ _ => true
  | .updArm _ => true
  | .updCancel _ => true
  | .groupApply => true
  | .kioskSelect _ p sel => pageOk p && decide (sel < 256)
  | .kioskSnapshotDone _ p => pageOk p
  | .gthLock _ => true
  | .refRestart => true
  | .cntRestart p _ => pageOk p
  | .faultReport => true
  | .retire => true
  | .retireAll => true
  | .restartOverflow => true
  | .admitFlow _ => true
  | .release _ => true
  | .opReq _ => true
  | .vsettleExpiry => true
  | .pwrBudgetWrite _ => true
  | .beAllowanceWrite _ _ => true
  | .patienceExpiry a p => a.partyOk p
  | .pauseQuantumExpiry p _ => unitOk p
  | .trainingStart _ => true
  | .trainingDone _ l => decide (l.length ≤ 20)
  | .tapTrack _ l _ _ => decide (l < 20)
  | .syncCode _ a w => samplesOk a && decide (w.length ≤ 20) && w.all (fun c => c.length == 4 && samplesOk c)
  | .sensorFrameStart _ a => samplesOk a
  | .sensorLineStart _ a => samplesOk a
  | .sensorLineEnd _ a => samplesOk a
  | .sensorFrameEnd _ a => samplesOk a
  | .inputOverflow _ v => decide (v < 2 ^ 16)
  | .lineForward _ => true
  | .joinSkewExpiry _ => true
  | .windowClose _ => true
  | .closeTimeout _ => true
  | .sensorClockLoss _ => true
  | .vTrigger _ => true
  | .hTrigger _ => true
  | .spiGo _ _ => true
  | .spiDone _ rx => decide (rx.length ≤ 64)
  | .spiData _ _ => true
  | .i2cGo _ _ => true
  | .i2cDone _ _ rx => decide (rx.length ≤ 64)
  | .i2cData _ _ => true
  | .i2cStretchTimeout _ => true
  | .conditionLine _ => true
  | .tableReadError _ _ row u => decide (row < 2 ^ 14) && unitOk u
  | .intStart => true
  | .intStop => true
  | .intAverage => true
  | .averageDone => true
  | .intFrame => true
  | .ebeFrameStart _ => true
  | .ebeFrameEnd _ => true
  | .tileWriteError _ u => unitOk u
  | .recStart _ _ => true
  | .recStop _ _ => true
  | .playStart => true
  | .playStop => true
  | .decodeFrame reads => beatsOk reads
  | .orgFrameEnd _ => true
  | .tblSelWrite _ => true
  | .tblDataAccess _ => true
  | .loadCmd => true
  | .loadDone _ b => busOk b
  | .viewPaceSlot _ => true
  | .viewFrameStart _ => true
  | .viewFrameComplete _ ⟨r, b⟩ => beatsOk r && busOk b
  | .patStart => true
  | .patStop => true
  | .patFrameStart => true
  | .sesStart _ => true
  | .sesStop _ => true
  | .forceIdr _ => true
  | .encodeSlot _ => true
  | .engineDispatch _ => true
  | .workItemDone ⟨_, r⟩ => beatsOk r
  | .deadlineMiss _ => true
  | .poolWaitEnd _ => true
  | .ringSpace _ => true
  | .rdPtrWrite _ _ => true
  | .wrPtrWrite _ _ => true
  | .decodePublish _ => true
  | .markLong _ => true
  | .markUnused _ => true
  | .releaseOutput _ => true
  | .staleRestart => true
  | .memberEnable _ => true
  | .memberInitDone _ _ => true
  | .memberDisable _ => true
  | .nvmeCompletion _ cid _ => cidOk cid
  | .memberCmdTimeout _ => true
  | .rootPortLinkDown _ => true
  | .inboundRequest _ _ u _ d => decide (u < 2 ^ 24) && decide (d.length ≤ 4096)
  | .volumeEnable _ => true
  | .labelReadDone _ l => l.length == 4096
  | .volumeDisable _ => true
  | .format _ => true
  | .formatDone _ => true
  | .openVolume _ => true
  | .openScanDone _ ⟨slots, _⟩ => slots.all (fun b => b.length == 4096)
  | .close _ => true
  | .chStart _ => true
  | .chStop _ => true
  | .chResume _ => true
  | .chAbandon _ => true
  | .frameOnMedium _ => true
  | .takeDrainDone _ => true
  | .checkpointDue _ => true
  | .fetchCmd => true
  | .fetchDone _ _ => true
  | .controllerEnable _ a c _ _ => decide (0 < a) && decide (a ≤ 4096) && decide (0 < c) && decide (c ≤ 4096)
  | .controllerDisable => true
  | .controllerDisableDone => true
  | .functionLevelReset => true
  | .ccShutdown _ => true
  | .shutdownComplete => true
  | .sqDoorbell q x => queueOk q && decide (x < 2 ^ 16)
  | .cqDoorbell q x => queueOk q && decide (x < 2 ^ 16)
  | .arbitrationRound l => l.all NvmeCmd.wellFormed
  | .createIoSq cid => cidOk cid
  | .createIoCq cid => cidOk cid
  | .deleteIoSq cid => cidOk cid
  | .deleteIoSqDone cid => cidOk cid
  | .deleteIoCq cid => cidOk cid
  | .getLogPage cid => cidOk cid
  | .identify cid => cidOk cid
  | .setFeatures cid => cidOk cid
  | .getFeatures cid => cidOk cid
  | .resumeQueue cid => cidOk cid
  | .unsupportedOpcode q cid => queueOk q && cidOk cid
  | .nvmRead q cid => queueOk q && cidOk cid
  | .nvmWrite q cid => queueOk q && cidOk cid
  | .flush q cid => queueOk q && cidOk cid
  | .datasetManagement q cid => queueOk q && cidOk cid
  | .commandCompletion q cid o => queueOk q && cidOk cid && o.wellFormed
  | .apstTransition => true
  | .sdiOutFrameStart _ l => beatsOk l
  | .sdiInFrame _ f => f.wellFormed
  | .sdiSignalLoss ⟨_, part⟩ => part.all SdiFrame.wellFormed
  | .blvFrameStart _ => true
  | .blvVfpEnd _ => true
  | .teEdge _ => true
  | .layerUnderrun _ _ _ b => busOk b
  | .dsiCommand _ _ => true
  | .dsiCommandDone _ _ rx => decide (rx.length ≤ 64)
  | .cmdData _ _ => true
  | .stepMeasured => true
  | .stepValue => true
  | .setTime => true
  | .stepApply => true
  | .refMeasurement _ _ => true
  | .freqPeriodEnd => true
  | .refLoss _ => true
  | .timecodeAdvance => true
  | .tcSet _ => true
  | .ltcWordOut => true
  | .framePulse _ => true
  | .ethFrameReceive _ _ => true
  | .ctlTxSend w _ => decide (w < 2 ^ 12)
  | .ethLinkDown _ => true
  | .macAge m => decide (m < 2 ^ 48)
  | .senderFrameSlot _ => true
  | .senderPacket _ _ _ => true
  | .receiverPacket _ _ p => decide (p.seq < 2 ^ 32) && decide (p.timestamp < 2 ^ 32)
  | .streamLoss _ => true
  | .audioFrame _ _ _ => true
  | .bclkLoss _ => true
  | .nonpcmHoldExpiry _ _ => true
  | .schedulerIssue _ _ => true
  | .refreshInterval _ _ => true
  | .trainCmd => true
  | .trainDone l => l.length == 32
  | .recentre l => l.length == 32
  | .subIdxWrite _ => true
  | .arbourJobStart => true
  | .arbourJobDone b => beatsOk b
  | .seenIdxWrite _ => true
  | .slotTimer n => slotOk n
  | .pwmEvent n => slotOk n
  | .swTrig _ => true
  | .fixedSlotDue _ => true
  | .conversionDone _ _ _ => true
  | .calDone _ _ => true
  | .sliceRotation => true
  | .thermalRestart => true
  | .aonRound => true
  | .resync => true
  | .pwmPeriodEnd _ => true
  | .linkTrained _ => true
  | .flitReceive _ _ => true
  | .flkLinkDown _ => true
  | .remoteTransaction a _ => a.wellFormed
  | .remoteTimeout a => a.wellFormed
  | .timeMessage _ _ _ _ _ => true
  | .timeReply _ _ => true
  | .channelSendFrame _ _ _ => true
  | .channelFrameReceived _ _ _ _ _ => true
  | .idAssign _ => true
  | .idRequest => true
  | .cascadeMessageBad => true
  | .imageBlock _ _ b _ => decide (b.length ≤ 4096)
  | .heartbeatReceive _ h => h.wellFormed
  | .neighbourLost _ => true
  | .managerClaim => true
  | .promoted => true
  | .rejoinCmd m _ => masterOk m
  | .epochCmd => true
  | .powerOnReset _ => true
  | .powerUpStep => true
  | .pgTimeout => true
  | .pgRetry => true
  | .vaonFall _ => true
  | .pinReset _ => true
  | .watchdogExpiry => true
  | .wdtKick => true
  | .rstCmd _ => true
  | .perstN _ => true
  | .bootCopyRead a b f => decide (a.length ≤ 2 ^ 20) && decide (b.length ≤ 2 ^ 20) && decide (f.sfdp.length ≤ 2 ^ 24)
  | .bootListEntry => true
  | .listStopped => true
  | .lodgeRelease => true
  | .rcvData _ => true
  | .rcvCmd => true
  | .sleepCmd _ => true
  | .sleepCommit => true
  | .wakeEvent _ => true
  | .wakeStep _ => true
  | .warmRelease => true
  | .ethBlockLock _ _ => true
  | .rootPortLinkUp _ _ => true
  | .endpointLinkTrained _ => true
  | .resetNRelease => true
  | .powerGoodLoss _ => true
  | .ltcWordIn _ => true

end Sys2Proof
end

