-- ==== Sys2Proof/Machine/Answer.lean ====
section
/-! DEFINITION. How every command answers: its operation, then what follows in the same beat; a term no wire or master can produce stops. -/

namespace Sys2Proof.Machine

/-- The answer of a command whose operation leaves `s'`: pool buffers and interrupts settle in the same beat (R59, R185). -/
def answer (c : Instr) (s' : State) : Host.Outcome State Fault Refusal :=
  if c.wellFormed then .next s'.settle else .fault .malformedCommand

end Sys2Proof.Machine
end

