-- ==== Sys2Proof/Machine/AdmissionCommands.lean ====
section
/-! DEFINITION. The meanings of the commands of admission, operating points and arbiters: each is its operation, answered. -/

namespace Sys2Proof.Machine

/-- ADMIT (R70). -/
def execAdmitFlow (bank : Bank) (s : State) : Host.Outcome State Fault Refusal :=
  answer (.admitFlow bank) (admitFlow bank s)

/-- RELEASE (R72). -/
def execRelease (bank : Bank) (s : State) : Host.Outcome State Fault Refusal :=
  answer (.release bank) (releaseWith s.ownerActive bank s)

/-- OP_REQ (R73). -/
def execOpReq (op : Fin 4) (s : State) : Host.Outcome State Fault Refusal :=
  answer (.opReq op) (opReq op.val s)

/-- VSETTLE_EXPIRY (R338). -/
def execVsettleExpiry (s : State) : Host.Outcome State Fault Refusal :=
  answer .vsettleExpiry (vsettleExpiry s)

/-- PWR_BUDGET_WRITE (R74). -/
def execPwrBudgetWrite (value : Word) (s : State) : Host.Outcome State Fault Refusal :=
  answer (.pwrBudgetWrite value) (pwrBudgetWrite value.toNat s)

/-- BE_ALLOWANCE_WRITE (R377). -/
def execBeAllowanceWrite (reg : BeReg) (value : Word) (s : State) : Host.Outcome State Fault Refusal :=
  answer (.beAllowanceWrite reg value) (beAllowanceWrite reg value.toNat s)

/-- PATIENCE_EXPIRY (R79). -/
def execPatienceExpiry (arbiter : Arbiter) (party : Nat) (s : State) : Host.Outcome State Fault Refusal :=
  answer (.patienceExpiry arbiter party) (throughEdge (.patienceExpiry arbiter party) s (patienceExpiry arbiter party s))

/-- PAUSE_QUANTUM_EXPIRY (R78). -/
def execPauseQuantumExpiry (party : Nat) (granted : Bool) (s : State) : Host.Outcome State Fault Refusal :=
  answer (.pauseQuantumExpiry party granted) (pauseQuantumExpiry party granted s)

end Sys2Proof.Machine
end

