-- ==== Sys2Proof/Machine/CodecCommands.lean ====
section
/-! DEFINITION. The meanings of the commands of the Glasshouse: each is its operation, answered. -/

namespace Sys2Proof.Machine

/-- SES_START (R180). -/
def execSesStart (n : Fin 32) (s : State) : Host.Outcome State Fault Refusal :=
  answer (.sesStart n) (sesStart n.val s)

/-- SES_STOP (R185). -/
def execSesStop (n : Fin 32) (s : State) : Host.Outcome State Fault Refusal :=
  answer (.sesStop n) (sesStop n.val s)

/-- FORCE_IDR (R196). -/
def execForceIdr (n : Fin 32) (s : State) : Host.Outcome State Fault Refusal :=
  answer (.forceIdr n) (forceIdr n.val s)

/-- ENCODE_SLOT (R181). -/
def execEncodeSlot (n : Fin 32) (s : State) : Host.Outcome State Fault Refusal :=
  answer (.encodeSlot n) (encodeSlot n.val s)

/-- ENGINE_DISPATCH (R177). -/
def execEngineDispatch (e : Fin 6) (s : State) : Host.Outcome State Fault Refusal :=
  answer (.engineDispatch e) (engineDispatch e.val s)

/-- WORK_ITEM_DONE (R179). -/
def execWorkItemDone (i : ItemEnd) (s : State) : Host.Outcome State Fault Refusal :=
  answer (.workItemDone i) (throughEdge (.workItemDone i) s (workItemDone i.engine.val i.reads s))

/-- DEADLINE_MISS (R179). -/
def execDeadlineMiss (n : Fin 32) (s : State) : Host.Outcome State Fault Refusal :=
  answer (.deadlineMiss n) (deadlineMiss n.val s)

/-- POOL_WAIT_END (R185). -/
def execPoolWaitEnd (n : Fin 32) (s : State) : Host.Outcome State Fault Refusal :=
  answer (.poolWaitEnd n) (poolWaitEnd n.val s)

/-- RING_SPACE (R191). -/
def execRingSpace (n : Fin 32) (s : State) : Host.Outcome State Fault Refusal :=
  answer (.ringSpace n) (ringSpace n.val s)

/-- RD_PTR_WRITE (R191). -/
def execRdPtrWrite (n : Fin 32) (value : Word) (s : State) : Host.Outcome State Fault Refusal :=
  answer (.rdPtrWrite n value) (rdPtrWrite n.val value s)

/-- WR_PTR_WRITE (R192). -/
def execWrPtrWrite (n : Fin 32) (value : Word) (s : State) : Host.Outcome State Fault Refusal :=
  answer (.wrPtrWrite n value) (wrPtrWrite n.val value s)

/-- DECODE_PUBLISH (R193). -/
def execDecodePublish (n : Fin 32) (s : State) : Host.Outcome State Fault Refusal :=
  answer (.decodePublish n) (throughEdge (.decodePublish n) s (decodePublish n.val s))

/-- MARK_LONG (R187). -/
def execMarkLong (handle : BitVec 16) (s : State) : Host.Outcome State Fault Refusal :=
  answer (.markLong handle) (markLong handle.toNat s)

/-- MARK_UNUSED (R187). -/
def execMarkUnused (handle : BitVec 16) (s : State) : Host.Outcome State Fault Refusal :=
  answer (.markUnused handle) (markUnused handle.toNat s)

/-- RELEASE_OUTPUT (R187). -/
def execReleaseOutput (handle : BitVec 16) (s : State) : Host.Outcome State Fault Refusal :=
  answer (.releaseOutput handle) (releaseOutput handle.toNat s)

/-- STALE_RESTART (R186). -/
def execStaleRestart (s : State) : Host.Outcome State Fault Refusal :=
  answer .staleRestart (staleRestart s)

end Sys2Proof.Machine
end

