-- ==== Sys2Proof/Machine/ColourCommands.lean ====
section
/-! DEFINITION. The meanings of the commands of the Orangery, its tables, the views and the Parterre: each is its operation, answered. -/

namespace Sys2Proof.Machine

/-- ORG_FRAME_END (R155). -/
def execOrgFrameEnd (c : Fin 2) (s : State) : Host.Outcome State Fault Refusal :=
  answer (.orgFrameEnd c) (throughEdge (.orgFrameEnd c) s (orgFrameEnd c.val s))

/-- TBL_SEL_WRITE (R153). -/
def execTblSelWrite (value : Word) (s : State) : Host.Outcome State Fault Refusal :=
  answer (.tblSelWrite value) (tblSelWrite value.toNat s)

/-- TBL_DATA_ACCESS (R153). -/
def execTblDataAccess (a : Access) (s : State) : Host.Outcome State Fault Refusal :=
  answer (.tblDataAccess a) (tblDataAccess a s)

/-- LOAD_CMD (R154). -/
def execLoadCmd (s : State) : Host.Outcome State Fault Refusal :=
  answer .loadCmd (loadCmd s)

/-- LOAD_DONE (R154). -/
def execLoadDone (words : Nat) (read : BusResult) (s : State) : Host.Outcome State Fault Refusal :=
  answer (.loadDone words read) (throughEdge (.loadDone words read) s (loadDone words read s))

/-- VIEW_PACE_SLOT (R157). -/
def execViewPaceSlot (v : Fin 8) (s : State) : Host.Outcome State Fault Refusal :=
  answer (.viewPaceSlot v) (viewPaceSlot v.val s)

/-- VIEW_FRAME_START (R171). -/
def execViewFrameStart (v : Fin 8) (s : State) : Host.Outcome State Fault Refusal :=
  answer (.viewFrameStart v) (viewFrameStart v.val s)

/-- VIEW_FRAME_COMPLETE (R171). -/
def execViewFrameComplete (v : Fin 8) (a : FrameAccesses) (s : State) : Host.Outcome State Fault Refusal :=
  answer (.viewFrameComplete v a) (throughEdge (.viewFrameComplete v a) s (viewFrameComplete v.val a.reads a.write s))

/-- PAT_START (R173). -/
def execPatStart (s : State) : Host.Outcome State Fault Refusal :=
  answer .patStart (patStart s)

/-- PAT_STOP (R173). -/
def execPatStop (s : State) : Host.Outcome State Fault Refusal :=
  answer .patStop (patStop s)

/-- PAT_FRAME_START (R173). -/
def execPatFrameStart (s : State) : Host.Outcome State Fault Refusal :=
  answer .patFrameStart (patFrameStart s)

end Sys2Proof.Machine
end

