-- ==== Sys2Proof/Machine/ControlCommands.lean ====
section
/-! DEFINITION. The meanings of the commands of registers, transactions, update groups, the Kiosk, the Gatehouse and the fault collector: each is its operation, answered. -/

namespace Sys2Proof.Machine

/-- REGISTER_WRITE (R3). -/
def execRegisterWrite (master : Nat) (page : Nat) (off : Nat) (value : Word) (s : State) : Host.Outcome State Fault Refusal :=
  answer (.registerWrite master page off value) (registerWrite master page off value s)

/-- NARROW_WRITE (R6). -/
def execNarrowWrite (p : MasterPage) (off : Nat) (s : State) : Host.Outcome State Fault Refusal :=
  answer (.narrowWrite p off) (narrowWrite p.master p.page off s)

/-- TRANSACTION (R21). -/
def execTransaction (t : Txn) (s : State) : Host.Outcome State Fault Refusal :=
  answer (.transaction t) (transaction t s)

/-- MANAGEMENT_ROUND (R16). -/
def execManagementRound (r : RoundSample) (s : State) : Host.Outcome State Fault Refusal :=
  answer (.managementRound r) (managementRound r s)

/-- DOMAIN_CLOCK_STOP (R18). -/
def execDomainClockStop (d : ClockDomain) (s : State) : Host.Outcome State Fault Refusal :=
  answer (.domainClockStop d) (domainClockStop d s)

/-- DOMAIN_CLOCK_RETURN (R18). -/
def execDomainClockReturn (d : ClockDomain) (s : State) : Host.Outcome State Fault Refusal :=
  answer (.domainClockReturn d) (domainClockReturn d s)

/-- UPD_GROUP_BIND (R38). -/
def execUpdGroupBind (page : Nat) (group : Fin 16) (s : State) : Host.Outcome State Fault Refusal :=
  answer (.updGroupBind page group) (updGroupBind page group.val s)

/-- UPD_CONFIG_WRITE (R45). -/
def execUpdConfigWrite (group : Fin 16) (reg : UpdReg) (value : Word) (s : State) : Host.Outcome State Fault Refusal :=
  answer (.updConfigWrite group reg value) (updConfigWrite group.val reg value s)

/-- UPD_ARM (R43). -/
def execUpdArm (mask : BitVec 16) (s : State) : Host.Outcome State Fault Refusal :=
  answer (.updArm mask) (updArm mask.toNat s)

/-- UPD_CANCEL (R42). -/
def execUpdCancel (mask : BitVec 16) (s : State) : Host.Outcome State Fault Refusal :=
  answer (.updCancel mask) (updCancel mask.toNat s)

/-- GROUP_APPLY (R42). -/
def execGroupApply (s : State) : Host.Outcome State Fault Refusal :=
  answer .groupApply (groupApply s)

/-- KIOSK_SELECT (R48). -/
def execKioskSelect (bank : Bank) (page : Nat) (selector : Nat) (s : State) : Host.Outcome State Fault Refusal :=
  answer (.kioskSelect bank page selector) (kioskSelect bank page selector s)

/-- KIOSK_SNAPSHOT_DONE (R48). -/
def execKioskSnapshotDone (bank : Bank) (page : Nat) (s : State) : Host.Outcome State Fault Refusal :=
  answer (.kioskSnapshotDone bank page) (kioskSnapshotDone bank page s)

/-- GTH_LOCK (R52). -/
def execGthLock (value : Word) (s : State) : Host.Outcome State Fault Refusal :=
  answer (.gthLock value) (gthLock value.toNat s)

/-- REF_RESTART (R52). -/
def execRefRestart (s : State) : Host.Outcome State Fault Refusal :=
  answer .refRestart (refRestart s)

/-- CNT_RESTART (R367). -/
def execCntRestart (page : Nat) (mask : Word) (s : State) : Host.Outcome State Fault Refusal :=
  answer (.cntRestart page mask) (cntRestart page mask.toNat s)

/-- FAULT_REPORT (R56). -/
def execFaultReport (s : State) : Host.Outcome State Fault Refusal :=
  answer .faultReport (faultReport s)

/-- RETIRE (R57). -/
def execRetire (s : State) : Host.Outcome State Fault Refusal :=
  answer .retire (retire s)

/-- RETIRE_ALL (R57). -/
def execRetireAll (s : State) : Host.Outcome State Fault Refusal :=
  answer .retireAll (retireAll s)

/-- RESTART_OVERFLOW (R57). -/
def execRestartOverflow (s : State) : Host.Outcome State Fault Refusal :=
  answer .restartOverflow (restartOverflow s)

end Sys2Proof.Machine
end

