-- ==== Sys2Proof/Machine/HostCommands.lean ====
section
/-! DEFINITION. The meanings of the commands of the offload controller: each is its operation, answered. -/

namespace Sys2Proof.Machine

/-- CONTROLLER_ENABLE (R216). -/
def execControllerEnable (wrr : Bool) (asqSize : Nat) (acqSize : Nat) (asqBase : Nat) (acqBase : Nat) (s : State) : Host.Outcome State Fault Refusal :=
  answer (.controllerEnable wrr asqSize acqSize asqBase acqBase) (throughEdge (.controllerEnable wrr asqSize acqSize asqBase acqBase) s (controllerEnable wrr asqSize acqSize asqBase acqBase s))

/-- CONTROLLER_DISABLE (R216). -/
def execControllerDisable (s : State) : Host.Outcome State Fault Refusal :=
  answer .controllerDisable (throughEdge .controllerDisable s (controllerDisable s))

/-- CONTROLLER_DISABLE_DONE (R216). -/
def execControllerDisableDone (s : State) : Host.Outcome State Fault Refusal :=
  answer .controllerDisableDone (controllerDisableDone s)

/-- FUNCTION_LEVEL_RESET (R216). -/
def execFunctionLevelReset (s : State) : Host.Outcome State Fault Refusal :=
  answer .functionLevelReset (throughEdge .functionLevelReset s (functionLevelReset s))

/-- CC_SHUTDOWN (R216). -/
def execCcShutdown (shn : Fin 4) (s : State) : Host.Outcome State Fault Refusal :=
  answer (.ccShutdown shn) (throughEdge (.ccShutdown shn) s (ccShutdown shn.val s))

/-- SHUTDOWN_COMPLETE (R216). -/
def execShutdownComplete (s : State) : Host.Outcome State Fault Refusal :=
  answer .shutdownComplete (shutdownComplete s)

/-- SQ_DOORBELL (R222). -/
def execSqDoorbell (q : Nat) (tail : Nat) (s : State) : Host.Outcome State Fault Refusal :=
  answer (.sqDoorbell q tail) (throughEdge (.sqDoorbell q tail) s (sqDoorbell q tail s))

/-- CQ_DOORBELL (R222). -/
def execCqDoorbell (q : Nat) (head : Nat) (s : State) : Host.Outcome State Fault Refusal :=
  answer (.cqDoorbell q head) (throughEdge (.cqDoorbell q head) s (cqDoorbell q head s))

/-- ARBITRATION_ROUND (R222). -/
def execArbitrationRound (entries : List NvmeCmd) (s : State) : Host.Outcome State Fault Refusal :=
  answer (.arbitrationRound entries) (throughEdge (.arbitrationRound entries) s (arbitrationRound entries s))

/-- CREATE_IO_SQ (R221). -/
def execCreateIoSq (cid : Nat) (s : State) : Host.Outcome State Fault Refusal :=
  answer (.createIoSq cid) (throughEdge (.createIoSq cid) s (createIoSq cid s))

/-- CREATE_IO_CQ (R221). -/
def execCreateIoCq (cid : Nat) (s : State) : Host.Outcome State Fault Refusal :=
  answer (.createIoCq cid) (throughEdge (.createIoCq cid) s (createIoCq cid s))

/-- DELETE_IO_SQ (R227). -/
def execDeleteIoSq (cid : Nat) (s : State) : Host.Outcome State Fault Refusal :=
  answer (.deleteIoSq cid) (throughEdge (.deleteIoSq cid) s (deleteIoSq cid s))

/-- DELETE_IO_SQ_DONE (R227). -/
def execDeleteIoSqDone (cid : Nat) (s : State) : Host.Outcome State Fault Refusal :=
  answer (.deleteIoSqDone cid) (throughEdge (.deleteIoSqDone cid) s (deleteIoSqDone cid s))

/-- DELETE_IO_CQ (R227). -/
def execDeleteIoCq (cid : Nat) (s : State) : Host.Outcome State Fault Refusal :=
  answer (.deleteIoCq cid) (throughEdge (.deleteIoCq cid) s (deleteIoCq cid s))

/-- GET_LOG_PAGE (R225). -/
def execGetLogPage (cid : Nat) (s : State) : Host.Outcome State Fault Refusal :=
  answer (.getLogPage cid) (throughEdge (.getLogPage cid) s (getLogPage cid s))

/-- IDENTIFY (R215). -/
def execIdentify (cid : Nat) (s : State) : Host.Outcome State Fault Refusal :=
  answer (.identify cid) (throughEdge (.identify cid) s (identify cid s))

/-- SET_FEATURES (R221). -/
def execSetFeatures (cid : Nat) (s : State) : Host.Outcome State Fault Refusal :=
  answer (.setFeatures cid) (throughEdge (.setFeatures cid) s (setFeatures cid s))

/-- GET_FEATURES (R221). -/
def execGetFeatures (cid : Nat) (s : State) : Host.Outcome State Fault Refusal :=
  answer (.getFeatures cid) (throughEdge (.getFeatures cid) s (getFeatures cid s))

/-- RESUME_QUEUE (R226). -/
def execResumeQueue (cid : Nat) (s : State) : Host.Outcome State Fault Refusal :=
  answer (.resumeQueue cid) (throughEdge (.resumeQueue cid) s (resumeQueue cid s))

/-- UNSUPPORTED_OPCODE (R221). -/
def execUnsupportedOpcode (sq : Nat) (cid : Nat) (s : State) : Host.Outcome State Fault Refusal :=
  answer (.unsupportedOpcode sq cid) (throughEdge (.unsupportedOpcode sq cid) s (unsupportedOpcode sq cid s))

/-- NVM_READ (R219). -/
def execNvmRead (sq : Nat) (cid : Nat) (s : State) : Host.Outcome State Fault Refusal :=
  answer (.nvmRead sq cid) (throughEdge (.nvmRead sq cid) s (nvmRead sq cid s))

/-- NVM_WRITE (R220). -/
def execNvmWrite (sq : Nat) (cid : Nat) (s : State) : Host.Outcome State Fault Refusal :=
  answer (.nvmWrite sq cid) (throughEdge (.nvmWrite sq cid) s (nvmWrite sq cid s))

/-- FLUSH (R220). -/
def execFlush (sq : Nat) (cid : Nat) (s : State) : Host.Outcome State Fault Refusal :=
  answer (.flush sq cid) (throughEdge (.flush sq cid) s (flush sq cid s))

/-- DATASET_MANAGEMENT (R220). -/
def execDatasetManagement (sq : Nat) (cid : Nat) (s : State) : Host.Outcome State Fault Refusal :=
  answer (.datasetManagement sq cid) (throughEdge (.datasetManagement sq cid) s (datasetManagement sq cid s))

/-- COMMAND_COMPLETION (R223). -/
def execCommandCompletion (sq : Nat) (cid : Nat) (outcome : DataOutcome) (s : State) : Host.Outcome State Fault Refusal :=
  answer (.commandCompletion sq cid outcome) (throughEdge (.commandCompletion sq cid outcome) s (commandCompletion sq cid outcome s))

/-- APST_TRANSITION (R228). -/
def execApstTransition (s : State) : Host.Outcome State Fault Refusal :=
  answer .apstTransition (apstTransition s)

end Sys2Proof.Machine
end

