-- ==== Sys2Proof/Machine/HouseCommands.lean ====
section
/-! DEFINITION. The meanings of the commands of Dovecote, PWM and Icehouse: each is its operation, answered. -/

namespace Sys2Proof.Machine

/-- SLOT_TIMER (R311). -/
def execSlotTimer (n : Nat) (s : State) : Host.Outcome State Fault Refusal :=
  answer (.slotTimer n) (slotTimer n s)

/-- PWM_EVENT (R311). -/
def execPwmEvent (n : Nat) (s : State) : Host.Outcome State Fault Refusal :=
  answer (.pwmEvent n) (pwmEvent n s)

/-- SW_TRIG (R311). -/
def execSwTrig (value : Word) (s : State) : Host.Outcome State Fault Refusal :=
  answer (.swTrig value) (swTrig value.toNat s)

/-- FIXED_SLOT_DUE (R310). -/
def execFixedSlotDue (slot : Fin 8) (s : State) : Host.Outcome State Fault Refusal :=
  answer (.fixedSlotDue slot) (fixedSlotDue slot.val s)

/-- CONVERSION_DONE (R306). -/
def execConversionDone (slice : Fin 4) (code : BitVec 12) (powerMw : BitVec 20) (s : State) : Host.Outcome State Fault Refusal :=
  answer (.conversionDone slice code powerMw) (throughEdge (.conversionDone slice code powerMw) s (conversionDone slice.val code powerMw s))

/-- CAL_DONE (R307). -/
def execCalDone (mL : Int) (mH : Int) (s : State) : Host.Outcome State Fault Refusal :=
  answer (.calDone mL mH) (throughEdge (.calDone mL mH) s (calDone mL mH s))

/-- SLICE_ROTATION (R307). -/
def execSliceRotation (s : State) : Host.Outcome State Fault Refusal :=
  answer .sliceRotation (sliceRotation s)

/-- THERMAL_RESTART (R316). -/
def execThermalRestart (s : State) : Host.Outcome State Fault Refusal :=
  answer .thermalRestart (thermalRestart s)

/-- AON_ROUND (R341). -/
def execAonRound (s : State) : Host.Outcome State Fault Refusal :=
  answer .aonRound (throughEdge .aonRound s (aonRound s))

/-- RESYNC (R314). -/
def execResync (s : State) : Host.Outcome State Fault Refusal :=
  answer .resync (resync s)

/-- PWM_PERIOD_END (R317). -/
def execPwmPeriodEnd (p : Fin 8) (s : State) : Host.Outcome State Fault Refusal :=
  answer (.pwmPeriodEnd p) (pwmPeriodEnd p.val s)

end Sys2Proof.Machine
end

