-- ==== Sys2Proof/Machine/LinkCommands.lean ====
section
/-! DEFINITION. The meanings of the commands of Falilan Link and the hierarchy: each is its operation, answered. -/

namespace Sys2Proof.Machine

/-- LINK_TRAINED (R319). -/
def execLinkTrained (p : Fin 4) (s : State) : Host.Outcome State Fault Refusal :=
  answer (.linkTrained p) (linkTrained p.val s)

/-- FLIT_RECEIVE (R319). -/
def execFlitReceive (p : Fin 4) (crcOk : Bool) (s : State) : Host.Outcome State Fault Refusal :=
  answer (.flitReceive p crcOk) (throughEdge (.flitReceive p crcOk) s (flitReceive p.val crcOk s))

/-- FLK_LINK_DOWN (R319). -/
def execFlkLinkDown (p : Fin 4) (s : State) : Host.Outcome State Fault Refusal :=
  answer (.flkLinkDown p) (linkDownEvent p.val s)

/-- REMOTE_TRANSACTION (R322). -/
def execRemoteTransaction (a : RemoteAccess) (reply : Option RemoteAnswer) (s : State) : Host.Outcome State Fault Refusal :=
  answer (.remoteTransaction a reply) (throughEdge (.remoteTransaction a reply) s (remoteTransaction a reply s))

/-- REMOTE_TIMEOUT (R323). -/
def execRemoteTimeout (a : RemoteAccess) (s : State) : Host.Outcome State Fault Refusal :=
  answer (.remoteTimeout a) (remoteTimeout a s)

/-- TIME_MESSAGE (R324). -/
def execTimeMessage (p : Fin 4) (t1 : Nat) (t2 : Nat) (t4 : Option Nat) (t3 : Nat) (s : State) : Host.Outcome State Fault Refusal :=
  answer (.timeMessage p t1 t2 t4 t3) (throughEdge (.timeMessage p t1 t2 t4 t3) s (timeMessage p.val t1 t2 t4 t3 s))

/-- TIME_REPLY (R324). -/
def execTimeReply (p : Fin 4) (t4 : Nat) (s : State) : Host.Outcome State Fault Refusal :=
  answer (.timeReply p t4) (throughEdge (.timeReply p t4) s (timeReply p.val t4 s))

/-- CHANNEL_SEND_FRAME (R327). -/
def execChannelSendFrame (p : Fin 4) (c : Fin 8) (busy : Bool) (s : State) : Host.Outcome State Fault Refusal :=
  answer (.channelSendFrame p c busy) (throughEdge (.channelSendFrame p c busy) s (channelSendFrame p.val c.val busy s))

/-- CHANNEL_FRAME_RECEIVED (R327). -/
def execChannelFrameReceived (p : Fin 4) (c : Fin 8) (data : List Byte) (desc : List Byte) (cut : Bool) (s : State) : Host.Outcome State Fault Refusal :=
  answer (.channelFrameReceived p c data desc cut) (throughEdge (.channelFrameReceived p c data desc cut) s (channelFrameReceived p.val c.val data desc cut s))

/-- ID_ASSIGN (R329). -/
def execIdAssign (n : Nat) (s : State) : Host.Outcome State Fault Refusal :=
  answer (.idAssign n) (throughEdge (.idAssign n) s (idAssign n s))

/-- ID_REQUEST (R329). -/
def execIdRequest (s : State) : Host.Outcome State Fault Refusal :=
  answer .idRequest (throughEdge .idRequest s (idRequest s))

/-- CASCADE_MESSAGE_BAD (R329). -/
def execCascadeMessageBad (s : State) : Host.Outcome State Fault Refusal :=
  answer .cascadeMessageBad (throughEdge .cascadeMessageBad s (cascadeMessageBad s))

/-- IMAGE_BLOCK (R330). -/
def execImageBlock (message : ImageMessage) (offset : Nat) (bytes : List Byte) (last : Bool) (s : State) : Host.Outcome State Fault Refusal :=
  answer (.imageBlock message offset bytes last) (throughEdge (.imageBlock message offset bytes last) s (imageBlock message offset bytes last s))

/-- HEARTBEAT_RECEIVE (R331). -/
def execHeartbeatReceive (p : Fin 4) (h : Heartbeat) (s : State) : Host.Outcome State Fault Refusal :=
  answer (.heartbeatReceive p h) (throughEdge (.heartbeatReceive p h) s (heartbeatReceive p.val h s))

/-- NEIGHBOUR_LOST (R331). -/
def execNeighbourLost (p : Fin 4) (s : State) : Host.Outcome State Fault Refusal :=
  answer (.neighbourLost p) (neighbourLost p.val s)

/-- MANAGER_CLAIM (R333). -/
def execManagerClaim (s : State) : Host.Outcome State Fault Refusal :=
  answer .managerClaim (managerClaim s)

/-- PROMOTED (R333). -/
def execPromoted (s : State) : Host.Outcome State Fault Refusal :=
  answer .promoted (promoted s)

/-- REJOIN_CMD (R333). -/
def execRejoinCmd (master : Nat) (value : Word) (s : State) : Host.Outcome State Fault Refusal :=
  answer (.rejoinCmd master value) (rejoinCmd master value.toNat s)

/-- EPOCH_CMD (R335). -/
def execEpochCmd (s : State) : Host.Outcome State Fault Refusal :=
  answer .epochCmd (epochCmd s)

end Sys2Proof.Machine
end

