-- ==== Sys2Proof/Machine/MemoryCommands.lean ====
section
/-! DEFINITION. The meanings of the commands of the memory controller and the Arbour: each is its operation, answered. -/

namespace Sys2Proof.Machine

/-- SCHEDULER_ISSUE (R289). -/
def execSchedulerIssue (g : Fin 4) (k : Fin 4) (s : State) : Host.Outcome State Fault Refusal :=
  answer (.schedulerIssue g k) (throughEdge (.schedulerIssue g k) s (schedulerBoundary g.val k.val s))

/-- REFRESH_INTERVAL (R290). -/
def execRefreshInterval (g : Fin 4) (k : Fin 4) (s : State) : Host.Outcome State Fault Refusal :=
  answer (.refreshInterval g k) (throughEdge (.refreshInterval g k) s (refreshInterval g.val k.val s))

/-- TRAIN_CMD (R294). -/
def execTrainCmd (s : State) : Host.Outcome State Fault Refusal :=
  answer .trainCmd (trainCmd s)

/-- TRAIN_DONE (R295). -/
def execTrainDone (lanes : List DramLane) (s : State) : Host.Outcome State Fault Refusal :=
  answer (.trainDone lanes) (trainDone lanes s)

/-- RECENTRE (R296). -/
def execRecentre (drifts : List Int) (s : State) : Host.Outcome State Fault Refusal :=
  answer (.recentre drifts) (throughEdge (.recentre drifts) s (recentre drifts s))

/-- SUB_IDX_WRITE (R297). -/
def execSubIdxWrite (value : Word) (s : State) : Host.Outcome State Fault Refusal :=
  answer (.subIdxWrite value) (subIdxWrite value.toNat s)

/-- ARBOUR_JOB_START (R298). -/
def execArbourJobStart (s : State) : Host.Outcome State Fault Refusal :=
  answer .arbourJobStart (arbourJobStart s)

/-- ARBOUR_JOB_DONE (R303). -/
def execArbourJobDone (bad : BadBeats) (s : State) : Host.Outcome State Fault Refusal :=
  answer (.arbourJobDone bad) (throughEdge (.arbourJobDone bad) s (arbourJobDone bad s))

/-- SEEN_IDX_WRITE (R297). -/
def execSeenIdxWrite (value : Word) (s : State) : Host.Outcome State Fault Refusal :=
  answer (.seenIdxWrite value) (seenIdxWrite value.toNat s)

end Sys2Proof.Machine
end

