-- ==== Sys2Proof/Machine/NetworkCommands.lean ====
section
/-! DEFINITION. The meanings of the commands of Ethernet, ST 2110 and Bandstand: each is its operation, answered. -/

namespace Sys2Proof.Machine

/-- ETH_FRAME_RECEIVE (R264). -/
def execEthFrameReceive (port : Fin 2) (f : EthFrame) (s : State) : Host.Outcome State Fault Refusal :=
  answer (.ethFrameReceive port f) (throughEdge (.ethFrameReceive port f) s (ethFrameReceive port.val f s))

/-- CTL_TX_SEND (R268). -/
def execCtlTxSend (wr : Nat) (egressDelays : List Nat) (s : State) : Host.Outcome State Fault Refusal :=
  answer (.ctlTxSend wr egressDelays) (ctlTxSend wr egressDelays s)

/-- ETH_LINK_DOWN (R263). -/
def execEthLinkDown (port : Fin 2) (s : State) : Host.Outcome State Fault Refusal :=
  answer (.ethLinkDown port) (ethLinkDown port.val s)

/-- MAC_AGE (R264). -/
def execMacAge (mac : Nat) (s : State) : Host.Outcome State Fault Refusal :=
  answer (.macAge mac) (macAge mac s)

/-- SENDER_FRAME_SLOT (R271). -/
def execSenderFrameSlot (n : Fin 16) (s : State) : Host.Outcome State Fault Refusal :=
  answer (.senderFrameSlot n) (throughEdge (.senderFrameSlot n) s (senderFrameSlot n.val s))

/-- SENDER_PACKET (R270). -/
def execSenderPacket (n : Fin 16) (before0 : Nat) (before1 : Nat) (s : State) : Host.Outcome State Fault Refusal :=
  answer (.senderPacket n before0 before1) (throughEdge (.senderPacket n before0 before1) s (senderPacket n.val before0 before1 s))

/-- RECEIVER_PACKET (R272). -/
def execReceiverPacket (r : Fin 16) (pathB : Bool) (p : RtpPacket) (s : State) : Host.Outcome State Fault Refusal :=
  answer (.receiverPacket r pathB p) (throughEdge (.receiverPacket r pathB p) s (receiverPacket r.val pathB p s))

/-- STREAM_LOSS (R272). -/
def execStreamLoss (r : Fin 16) (s : State) : Host.Outcome State Fault Refusal :=
  answer (.streamLoss r) (streamLoss r.val s)

/-- AUDIO_FRAME (R279). -/
def execAudioFrame (p : Fin 4) (age : Nat) (pins : List Bool) (s : State) : Host.Outcome State Fault Refusal :=
  answer (.audioFrame p age pins) (throughEdge (.audioFrame p age pins) s (audioFrame p.val age pins s))

/-- BCLK_LOSS (R278). -/
def execBclkLoss (p : Fin 4) (s : State) : Host.Outcome State Fault Refusal :=
  answer (.bclkLoss p) (bclkLoss p.val s)

/-- NONPCM_HOLD_EXPIRY (R282). -/
def execNonpcmHoldExpiry (p : Fin 4) (pair : Fin 16) (s : State) : Host.Outcome State Fault Refusal :=
  answer (.nonpcmHoldExpiry p pair) (nonpcmHoldExpiry p.val pair.val s)

end Sys2Proof.Machine
end

