-- ==== Sys2Proof/Machine/PowerCommands.lean ====
section
/-! DEFINITION. The meanings of the commands of power, reset, boot, Summerhouse and the edges that end a wait: each is its operation, answered. -/

namespace Sys2Proof.Machine

/-- POWER_ON_RESET (R339). -/
def execPowerOnReset (casRoot : Bool) (s : State) : Host.Outcome State Fault Refusal :=
  answer (.powerOnReset casRoot) (powerOnReset casRoot s)

/-- POWER_UP_STEP (R339). -/
def execPowerUpStep (s : State) : Host.Outcome State Fault Refusal :=
  answer .powerUpStep (powerUpStep s)

/-- PG_TIMEOUT (R339). -/
def execPgTimeout (s : State) : Host.Outcome State Fault Refusal :=
  answer .pgTimeout (pgTimeout s)

/-- PG_RETRY (R339). -/
def execPgRetry (s : State) : Host.Outcome State Fault Refusal :=
  answer .pgRetry (pgRetry s)

/-- VAON_FALL (R340). -/
def execVaonFall (below2V0 : Bool) (s : State) : Host.Outcome State Fault Refusal :=
  answer (.vaonFall below2V0) (vaonFall below2V0 s)

/-- PIN_RESET (R342). -/
def execPinReset (casRoot : Bool) (s : State) : Host.Outcome State Fault Refusal :=
  answer (.pinReset casRoot) (pinReset casRoot s)

/-- WATCHDOG_EXPIRY (R342). -/
def execWatchdogExpiry (s : State) : Host.Outcome State Fault Refusal :=
  answer .watchdogExpiry (watchdogExpiry s)

/-- WDT_KICK (R342). -/
def execWdtKick (s : State) : Host.Outcome State Fault Refusal :=
  answer .wdtKick (wdtKick s)

/-- RST_CMD (R342). -/
def execRstCmd (value : Word) (s : State) : Host.Outcome State Fault Refusal :=
  answer (.rstCmd value) (rstCmd value.toNat s)

/-- PERST_N (R342). -/
def execPerstN (level : Bool) (s : State) : Host.Outcome State Fault Refusal :=
  answer (.perstN level) (perstN level s)

/-- BOOT_COPY_READ (R346). -/
def execBootCopyRead (copyA : List Byte) (copyB : List Byte) (found : BootRead) (s : State) : Host.Outcome State Fault Refusal :=
  answer (.bootCopyRead copyA copyB found) (bootCopyRead copyA copyB found s)

/-- BOOT_LIST_ENTRY (R347). -/
def execBootListEntry (s : State) : Host.Outcome State Fault Refusal :=
  answer .bootListEntry (bootListEntry s)

/-- LIST_STOPPED (R347). -/
def execListStopped (s : State) : Host.Outcome State Fault Refusal :=
  answer .listStopped (listStopped s)

/-- LODGE_RELEASE (R347). -/
def execLodgeRelease (s : State) : Host.Outcome State Fault Refusal :=
  answer .lodgeRelease (lodgeRelease s)

/-- RCV_DATA (R348). -/
def execRcvData (value : Word) (s : State) : Host.Outcome State Fault Refusal :=
  answer (.rcvData value) (rcvData value s)

/-- RCV_CMD (R348). -/
def execRcvCmd (s : State) : Host.Outcome State Fault Refusal :=
  answer .rcvCmd (rcvCmd s)

/-- SLEEP_CMD (R349). -/
def execSleepCmd (value : Word) (s : State) : Host.Outcome State Fault Refusal :=
  answer (.sleepCmd value) (sleepCmd value.toNat s)

/-- SLEEP_COMMIT (R349). -/
def execSleepCommit (s : State) : Host.Outcome State Fault Refusal :=
  answer .sleepCommit (sleepCommit s)

/-- WAKE_EVENT (R351). -/
def execWakeEvent (source : WakeSource) (s : State) : Host.Outcome State Fault Refusal :=
  answer (.wakeEvent source) (wakeEvent source s)

/-- WAKE_STEP (R351). -/
def execWakeStep (powerGood : Bool) (s : State) : Host.Outcome State Fault Refusal :=
  answer (.wakeStep powerGood) (wakeStep powerGood s)

/-- WARM_RELEASE (R351). -/
def execWarmRelease (s : State) : Host.Outcome State Fault Refusal :=
  answer .warmRelease (warmRelease s)

/-- ETH_BLOCK_LOCK (R263). -/
def execEthBlockLock (port : Fin 2) (fecLock : Bool) (s : State) : Host.Outcome State Fault Refusal :=
  answer (.ethBlockLock port fecLock) (ethBlockLock port.val fecLock s)

/-- ROOT_PORT_LINK_UP (R77). -/
def execRootPortLinkUp (p : Fin 8) (gen : Fin 6) (s : State) : Host.Outcome State Fault Refusal :=
  answer (.rootPortLinkUp p gen) (rootPortLinkUp p.val gen.val s)

/-- ENDPOINT_LINK_TRAINED (R66). -/
def execEndpointLinkTrained (gen : Fin 6) (s : State) : Host.Outcome State Fault Refusal :=
  answer (.endpointLinkTrained gen) (endpointLinkTrained gen.val s)

/-- RESET_N_RELEASE (R339). -/
def execResetNRelease (s : State) : Host.Outcome State Fault Refusal :=
  answer .resetNRelease (resetNRelease s)

/-- POWER_GOOD_LOSS (R340). -/
def execPowerGoodLoss (pg : PgInput) (s : State) : Host.Outcome State Fault Refusal :=
  answer (.powerGoodLoss pg) (powerGoodLoss pg s)

/-- LTC_WORD_IN (R260). -/
def execLtcWordIn (label : BitVec 32) (s : State) : Host.Outcome State Fault Refusal :=
  answer (.ltcWordIn label) (throughEdge (.ltcWordIn label) s (ltcWordIn label.toNat s))

end Sys2Proof.Machine
end

