-- ==== Sys2Proof/Machine/RawCommands.lean ====
section
/-! DEFINITION. The meanings of the commands of raw conditioning and Ebosh Raw: each is its operation, answered. -/

namespace Sys2Proof.Machine

/-- CONDITION_LINE (R101). -/
def execConditionLine (ctx : Fin 4) (s : State) : Host.Outcome State Fault Refusal :=
  answer (.conditionLine ctx) (conditionLine ctx.val s)

/-- TABLE_READ_ERROR (R110). -/
def execTableReadError (ctx : Fin 4) (table : RcnTable) (row : Nat) (unit : Nat) (s : State) : Host.Outcome State Fault Refusal :=
  answer (.tableReadError ctx table row unit) (tableReadError ctx.val table row unit s)

/-- INT_START (R115). -/
def execIntStart (s : State) : Host.Outcome State Fault Refusal :=
  answer .intStart (intStart s)

/-- INT_STOP (R115). -/
def execIntStop (s : State) : Host.Outcome State Fault Refusal :=
  answer .intStop (intStop s)

/-- INT_AVERAGE (R114). -/
def execIntAverage (s : State) : Host.Outcome State Fault Refusal :=
  answer .intAverage (intAverage s)

/-- AVERAGE_DONE (R114). -/
def execAverageDone (s : State) : Host.Outcome State Fault Refusal :=
  answer .averageDone (throughEdge .averageDone s (averageDone s))

/-- INT_FRAME (R112). -/
def execIntFrame (s : State) : Host.Outcome State Fault Refusal :=
  answer .intFrame (throughEdge .intFrame s (intFrame s))

/-- EBE_FRAME_START (R135). -/
def execEbeFrameStart (ctx : Fin 4) (s : State) : Host.Outcome State Fault Refusal :=
  answer (.ebeFrameStart ctx) (throughEdge (.ebeFrameStart ctx) s (ebeFrameStart ctx.val s))

/-- EBE_FRAME_END (R131). -/
def execEbeFrameEnd (ctx : Fin 4) (s : State) : Host.Outcome State Fault Refusal :=
  answer (.ebeFrameEnd ctx) (throughEdge (.ebeFrameEnd ctx) s (ebeFrameEnd ctx.val s))

/-- TILE_WRITE_ERROR (R131). -/
def execTileWriteError (ctx : Fin 4) (unit : Nat) (s : State) : Host.Outcome State Fault Refusal :=
  answer (.tileWriteError ctx unit) (tileWriteError ctx.val unit s)

/-- REC_START (R134). -/
def execRecStart (ctx : Fin 4) (atCount : Bool) (s : State) : Host.Outcome State Fault Refusal :=
  answer (.recStart ctx atCount) (recStart ctx.val atCount s)

/-- REC_STOP (R134). -/
def execRecStop (ctx : Fin 4) (atCount : Bool) (s : State) : Host.Outcome State Fault Refusal :=
  answer (.recStop ctx atCount) (recStop ctx.val atCount s)

/-- PLAY_START (R136). -/
def execPlayStart (s : State) : Host.Outcome State Fault Refusal :=
  answer .playStart (playStart s)

/-- PLAY_STOP (R136). -/
def execPlayStop (s : State) : Host.Outcome State Fault Refusal :=
  answer .playStop (playStop s)

/-- DECODE_FRAME (R137). -/
def execDecodeFrame (reads : BadBeats) (s : State) : Host.Outcome State Fault Refusal :=
  answer (.decodeFrame reads) (throughEdge (.decodeFrame reads) s (decodeFrame reads s))

end Sys2Proof.Machine
end

