-- ==== Sys2Proof/Machine/RecordCommands.lean ====
section
/-! DEFINITION. The meanings of the commands of the Boathouse: each is its operation, answered. -/

namespace Sys2Proof.Machine

/-- MEMBER_ENABLE (R197). -/
def execMemberEnable (m : Fin 32) (s : State) : Host.Outcome State Fault Refusal :=
  answer (.memberEnable m) (memberEnable m.val s)

/-- MEMBER_INIT_DONE (R197). -/
def execMemberInitDone (m : Fin 32) (result : InitResult) (s : State) : Host.Outcome State Fault Refusal :=
  answer (.memberInitDone m result) (throughEdge (.memberInitDone m result) s (memberInitDone m.val result s))

/-- MEMBER_DISABLE (R199). -/
def execMemberDisable (m : Fin 32) (s : State) : Host.Outcome State Fault Refusal :=
  answer (.memberDisable m) (memberDisable m.val s)

/-- NVME_COMPLETION (R199). -/
def execNvmeCompletion (m : Fin 32) (cid : Nat) (status : NvmeStatus) (s : State) : Host.Outcome State Fault Refusal :=
  answer (.nvmeCompletion m cid status) (throughEdge (.nvmeCompletion m cid status) s (nvmeCompletion m.val cid status s))

/-- MEMBER_CMD_TIMEOUT (R199). -/
def execMemberCmdTimeout (m : Fin 32) (s : State) : Host.Outcome State Fault Refusal :=
  answer (.memberCmdTimeout m) (memberCmdTimeout m.val s)

/-- ROOT_PORT_LINK_DOWN (R199). -/
def execRootPortLinkDown (p : Fin 8) (s : State) : Host.Outcome State Fault Refusal :=
  answer (.rootPortLinkDown p) (rootPortLinkDown p.val s)

/-- INBOUND_REQUEST (R200). -/
def execInboundRequest (p : Fin 8) (m : Fin 32) (dramUnit : Nat) (isWrite : Bool) (data : List Byte) (s : State) : Host.Outcome State Fault Refusal :=
  answer (.inboundRequest p m dramUnit isWrite data) (throughEdge (.inboundRequest p m dramUnit isWrite data) s (inboundRequest p.val m.val dramUnit isWrite data s))

/-- VOLUME_ENABLE (R203). -/
def execVolumeEnable (v : Fin 16) (s : State) : Host.Outcome State Fault Refusal :=
  answer (.volumeEnable v) (volumeEnable v.val s)

/-- LABEL_READ_DONE (R203). -/
def execLabelReadDone (v : Fin 16) (label : List Byte) (s : State) : Host.Outcome State Fault Refusal :=
  answer (.labelReadDone v label) (throughEdge (.labelReadDone v label) s (labelReadDone v.val label s))

/-- VOLUME_DISABLE (R218). -/
def execVolumeDisable (v : Fin 16) (s : State) : Host.Outcome State Fault Refusal :=
  answer (.volumeDisable v) (volumeDisable v.val s)

/-- FORMAT (R205). -/
def execFormat (v : Fin 16) (s : State) : Host.Outcome State Fault Refusal :=
  answer (.format v) (format v.val s)

/-- FORMAT_DONE (R205). -/
def execFormatDone (v : Fin 16) (s : State) : Host.Outcome State Fault Refusal :=
  answer (.formatDone v) (formatDone v.val s)

/-- OPEN (R207). -/
def execOpenVolume (v : Fin 16) (s : State) : Host.Outcome State Fault Refusal :=
  answer (.openVolume v) (openVolume v.val s)

/-- OPEN_SCAN_DONE (R207). -/
def execOpenScanDone (v : Fin 16) (scan : JournalScan) (s : State) : Host.Outcome State Fault Refusal :=
  answer (.openScanDone v scan) (throughEdge (.openScanDone v scan) s (openScanDone v.val scan.slots scan.data s))

/-- CLOSE (R205). -/
def execClose (v : Fin 16) (s : State) : Host.Outcome State Fault Refusal :=
  answer (.close v) (close v.val s)

/-- CH_START (R212). -/
def execChStart (c : Fin 8) (s : State) : Host.Outcome State Fault Refusal :=
  answer (.chStart c) (chStart c.val s)

/-- CH_STOP (R212). -/
def execChStop (c : Fin 8) (s : State) : Host.Outcome State Fault Refusal :=
  answer (.chStop c) (chStop c.val s)

/-- CH_RESUME (R212). -/
def execChResume (c : Fin 8) (s : State) : Host.Outcome State Fault Refusal :=
  answer (.chResume c) (chResume c.val s)

/-- CH_ABANDON (R212). -/
def execChAbandon (c : Fin 8) (s : State) : Host.Outcome State Fault Refusal :=
  answer (.chAbandon c) (chAbandon c.val s)

/-- FRAME_ON_MEDIUM (R210). -/
def execFrameOnMedium (c : Fin 8) (s : State) : Host.Outcome State Fault Refusal :=
  answer (.frameOnMedium c) (frameOnMedium c.val s)

/-- TAKE_DRAIN_DONE (R212). -/
def execTakeDrainDone (c : Fin 8) (s : State) : Host.Outcome State Fault Refusal :=
  answer (.takeDrainDone c) (takeDrainDone c.val s)

/-- CHECKPOINT_DUE (R206). -/
def execCheckpointDue (c : Fin 8) (s : State) : Host.Outcome State Fault Refusal :=
  answer (.checkpointDue c) (checkpointDue c.val s)

/-- FETCH_CMD (R214). -/
def execFetchCmd (s : State) : Host.Outcome State Fault Refusal :=
  answer .fetchCmd (fetchCmd s)

/-- FETCH_DONE (R214). -/
def execFetchDone (error : Bool) (data : List Byte) (s : State) : Host.Outcome State Fault Refusal :=
  answer (.fetchDone error data) (throughEdge (.fetchDone error data) s (fetchDone error data s))

end Sys2Proof.Machine
end

