-- ==== Sys2Proof/Machine/SensorCommands.lean ====
section
/-! DEFINITION. The meanings of the commands of the sensor front end: each is its operation, answered. -/

namespace Sys2Proof.Machine

/-- TRAINING_START (R84). -/
def execTrainingStart (groups : BitVec 4) (s : State) : Host.Outcome State Fault Refusal :=
  answer (.trainingStart groups) (trainingStart groups.toNat s)

/-- TRAINING_DONE (R84). -/
def execTrainingDone (g : Fin 4) (lanes : List LaneFound) (s : State) : Host.Outcome State Fault Refusal :=
  answer (.trainingDone g lanes) (trainingDone g.val lanes s)

/-- TAP_TRACK (R85). -/
def execTapTrack (g : Fin 4) (lane : Nat) (toward : Int) (eyeTaps : Nat) (s : State) : Host.Outcome State Fault Refusal :=
  answer (.tapTrack g lane toward eyeTaps) (tapTrack g.val lane toward eyeTaps s)

/-- SYNC_CODE (R88). -/
def execSyncCode (g : Fin 4) (arrived : List Nat) (words : List (List Nat)) (s : State) : Host.Outcome State Fault Refusal :=
  answer (.syncCode g arrived words) (throughEdge (.syncCode g arrived words) s (syncCode g.val arrived words s))

/-- SENSOR_FRAME_START (R90). -/
def execSensorFrameStart (g : Fin 4) (arrived : List Nat) (s : State) : Host.Outcome State Fault Refusal :=
  answer (.sensorFrameStart g arrived) (throughEdge (.sensorFrameStart g arrived) s (sensorFrameStart g.val arrived s))

/-- SENSOR_LINE_START (R92). -/
def execSensorLineStart (g : Fin 4) (arrived : List Nat) (s : State) : Host.Outcome State Fault Refusal :=
  answer (.sensorLineStart g arrived) (throughEdge (.sensorLineStart g arrived) s (sensorLineStart g.val arrived s))

/-- SENSOR_LINE_END (R92). -/
def execSensorLineEnd (g : Fin 4) (arrived : List Nat) (s : State) : Host.Outcome State Fault Refusal :=
  answer (.sensorLineEnd g arrived) (throughEdge (.sensorLineEnd g arrived) s (sensorLineEnd g.val arrived s))

/-- SENSOR_FRAME_END (R92). -/
def execSensorFrameEnd (g : Fin 4) (arrived : List Nat) (s : State) : Host.Outcome State Fault Refusal :=
  answer (.sensorFrameEnd g arrived) (throughEdge (.sensorFrameEnd g arrived) s (sensorFrameEnd g.val arrived s))

/-- INPUT_OVERFLOW (R93). -/
def execInputOverflow (g : Fin 4) (sample : Nat) (s : State) : Host.Outcome State Fault Refusal :=
  answer (.inputOverflow g sample) (inputOverflow g.val sample s)

/-- LINE_FORWARD (R93). -/
def execLineForward (stream : Fin 4) (s : State) : Host.Outcome State Fault Refusal :=
  answer (.lineForward stream) (lineForward stream.val s)

/-- JOIN_SKEW_EXPIRY (R83). -/
def execJoinSkewExpiry (g : Fin 4) (s : State) : Host.Outcome State Fault Refusal :=
  answer (.joinSkewExpiry g) (joinSkewExpiry g.val s)

/-- WINDOW_CLOSE (R90). -/
def execWindowClose (g : Fin 4) (s : State) : Host.Outcome State Fault Refusal :=
  answer (.windowClose g) (windowClose g.val s)

/-- CLOSE_TIMEOUT (R92). -/
def execCloseTimeout (g : Fin 4) (s : State) : Host.Outcome State Fault Refusal :=
  answer (.closeTimeout g) (closeTimeout g.val s)

/-- SENSOR_CLOCK_LOSS (R95). -/
def execSensorClockLoss (g : Fin 4) (s : State) : Host.Outcome State Fault Refusal :=
  answer (.sensorClockLoss g) (sensorClockLoss g.val s)

/-- V_TRIGGER (R98). -/
def execVTrigger (g : Fin 4) (s : State) : Host.Outcome State Fault Refusal :=
  answer (.vTrigger g) (throughEdge (.vTrigger g) s (vTrigger g.val s))

/-- H_TRIGGER (R98). -/
def execHTrigger (g : Fin 4) (s : State) : Host.Outcome State Fault Refusal :=
  answer (.hTrigger g) (throughEdge (.hTrigger g) s (hTrigger g.val s))

/-- SPI_GO (R99). -/
def execSpiGo (c : Fin 4) (cmd : Word) (s : State) : Host.Outcome State Fault Refusal :=
  answer (.spiGo c cmd) (spiGo c.val cmd.toNat s)

/-- SPI_DONE (R99). -/
def execSpiDone (c : Fin 4) (rx : List Byte) (s : State) : Host.Outcome State Fault Refusal :=
  answer (.spiDone c rx) (throughEdge (.spiDone c rx) s (spiDone c.val rx s))

/-- SPI_DATA (R99). -/
def execSpiData (c : Fin 4) (a : Access) (s : State) : Host.Outcome State Fault Refusal :=
  answer (.spiData c a) (spiData c.val a s)

/-- I2C_GO (R99). -/
def execI2cGo (c : Fin 4) (cmd : Word) (s : State) : Host.Outcome State Fault Refusal :=
  answer (.i2cGo c cmd) (i2cGo c.val cmd.toNat s)

/-- I2C_DONE (R99). -/
def execI2cDone (c : Fin 4) (nack : Bool) (rx : List Byte) (s : State) : Host.Outcome State Fault Refusal :=
  answer (.i2cDone c nack rx) (throughEdge (.i2cDone c nack rx) s (i2cDone c.val nack rx s))

/-- I2C_DATA (R99). -/
def execI2cData (c : Fin 4) (a : Access) (s : State) : Host.Outcome State Fault Refusal :=
  answer (.i2cData c a) (i2cData c.val a s)

/-- I2C_STRETCH_TIMEOUT (R99). -/
def execI2cStretchTimeout (c : Fin 4) (s : State) : Host.Outcome State Fault Refusal :=
  answer (.i2cStretchTimeout c) (throughEdge (.i2cStretchTimeout c) s (i2cStretchTimeout c.val s))

end Sys2Proof.Machine
end

