-- ==== Sys2Proof/Machine/TimeCommands.lean ====
section
/-! DEFINITION. The meanings of the commands of Sundial: each is its operation, answered. -/

namespace Sys2Proof.Machine

/-- STEP_MEASURED (R251). -/
def execStepMeasured (s : State) : Host.Outcome State Fault Refusal :=
  answer .stepMeasured (stepMeasured s)

/-- STEP_VALUE (R251). -/
def execStepValue (s : State) : Host.Outcome State Fault Refusal :=
  answer .stepValue (stepValue s)

/-- SET_TIME (R251). -/
def execSetTime (s : State) : Host.Outcome State Fault Refusal :=
  answer .setTime (setTime s)

/-- STEP_APPLY (R251). -/
def execStepApply (s : State) : Host.Outcome State Fault Refusal :=
  answer .stepApply (stepApply s)

/-- REF_MEASUREMENT (R253). -/
def execRefMeasurement (r : Fin 8) (m : Measurement) (s : State) : Host.Outcome State Fault Refusal :=
  answer (.refMeasurement r m) (throughEdge (.refMeasurement r m) s (refMeasurement r.val m s))

/-- FREQ_PERIOD_END (R253). -/
def execFreqPeriodEnd (s : State) : Host.Outcome State Fault Refusal :=
  answer .freqPeriodEnd (freqPeriodEnd s)

/-- REF_LOSS (R254). -/
def execRefLoss (r : Fin 8) (s : State) : Host.Outcome State Fault Refusal :=
  answer (.refLoss r) (refLoss r.val s)

/-- TIMECODE_ADVANCE (R260). -/
def execTimecodeAdvance (s : State) : Host.Outcome State Fault Refusal :=
  answer .timecodeAdvance (timecodeAdvance s)

/-- TC_SET (R260). -/
def execTcSet (value : Word) (s : State) : Host.Outcome State Fault Refusal :=
  answer (.tcSet value) (tcSet value.toNat s)

/-- LTC_WORD_OUT (R261). -/
def execLtcWordOut (s : State) : Host.Outcome State Fault Refusal :=
  answer .ltcWordOut (throughEdge .ltcWordOut s (ltcWordOut s))

/-- FRAME_PULSE (R262). -/
def execFramePulse (p : Fin 2) (s : State) : Host.Outcome State Fault Refusal :=
  answer (.framePulse p) (throughEdge (.framePulse p) s (framePulse p.val s))

end Sys2Proof.Machine
end

