-- ==== Sys2Proof/Machine/VideoCommands.lean ====
section
/-! DEFINITION. The meanings of the commands of SDI and Belvedere: each is its operation, answered. -/

namespace Sys2Proof.Machine

/-- SDI_OUT_FRAME_START (R232). -/
def execSdiOutFrameStart (n : Fin 4) (read : BadBeats) (s : State) : Host.Outcome State Fault Refusal :=
  answer (.sdiOutFrameStart n read) (throughEdge (.sdiOutFrameStart n read) s (sdiOutFrameStart n.val read s))

/-- SDI_IN_FRAME (R237). -/
def execSdiInFrame (n : Fin 4) (f : SdiFrame) (s : State) : Host.Outcome State Fault Refusal :=
  answer (.sdiInFrame n f) (throughEdge (.sdiInFrame n f) s (sdiInFrame n.val f s))

/-- SDI_SIGNAL_LOSS (R239). -/
def execSdiSignalLoss (l : SdiLoss) (s : State) : Host.Outcome State Fault Refusal :=
  answer (.sdiSignalLoss l) (sdiSignalLoss l.input.val l.part s)

/-- BLV_FRAME_START (R241). -/
def execBlvFrameStart (n : Fin 2) (s : State) : Host.Outcome State Fault Refusal :=
  answer (.blvFrameStart n) (throughEdge (.blvFrameStart n) s (blvFrameStart n.val s))

/-- BLV_VFP_END (R244). -/
def execBlvVfpEnd (n : Fin 2) (s : State) : Host.Outcome State Fault Refusal :=
  answer (.blvVfpEnd n) (throughEdge (.blvVfpEnd n) s (blvVfpEnd n.val s))

/-- TE_EDGE (R245). -/
def execTeEdge (n : Fin 2) (s : State) : Host.Outcome State Fault Refusal :=
  answer (.teEdge n) (teEdge n.val s)

/-- LAYER_UNDERRUN (R243). -/
def execLayerUnderrun (n : Fin 2) (layer : Fin 3) (pixel : Nat) (read : BusResult) (s : State) : Host.Outcome State Fault Refusal :=
  answer (.layerUnderrun n layer pixel read) (throughEdge (.layerUnderrun n layer pixel read) s (layerUnderrun n.val layer.val pixel read s))

/-- DSI_COMMAND (R245). -/
def execDsiCommand (n : Fin 2) (cmd : Word) (s : State) : Host.Outcome State Fault Refusal :=
  answer (.dsiCommand n cmd) (dsiCommand n.val cmd.toNat s)

/-- DSI_COMMAND_DONE (R245). -/
def execDsiCommandDone (n : Fin 2) (err : Bool) (rx : List Byte) (s : State) : Host.Outcome State Fault Refusal :=
  answer (.dsiCommandDone n err rx) (throughEdge (.dsiCommandDone n err rx) s (dsiCommandDone n.val err rx s))

/-- CMD_DATA (R245). -/
def execCmdData (n : Fin 2) (a : Access) (s : State) : Host.Outcome State Fault Refusal :=
  answer (.cmdData n a) (cmdData n.val a s)

end Sys2Proof.Machine
end

