-- ==== Sys2Proof/Machine/Dispatch.lean ====
section
/-! DEFINITION. One arm per command: a direct call of its meaning. -/

namespace Sys2Proof.Machine

/-- The effect of a command on everything but the queue. -/
def exec (i : Instr) (s : State) : Host.Outcome State Fault Refusal :=
  match i with
  | .registerWrite master page off value => Sys2Proof.Machine.execRegisterWrite master page off value s
  | .narrowWrite p off => Sys2Proof.Machine.execNarrowWrite p off s
  | .transaction t => Sys2Proof.Machine.execTransaction t s
  | .managementRound r => Sys2Proof.Machine.execManagementRound r s
  | .domainClockStop d => Sys2Proof.Machine.execDomainClockStop d s
  | .domainClockReturn d => Sys2Proof.Machine.execDomainClockReturn d s
  | .updGroupBind page group => Sys2Proof.Machine.execUpdGroupBind page group s
  | .updConfigWrite group reg value => Sys2Proof.Machine.execUpdConfigWrite group reg value s
  | .updArm mask => Sys2Proof.Machine.execUpdArm mask s
  | .updCancel mask => Sys2Proof.Machine.execUpdCancel mask s
  | .groupApply => Sys2Proof.Machine.execGroupApply s
  | .kioskSelect bank page selector => Sys2Proof.Machine.execKioskSelect bank page selector s
  | .kioskSnapshotDone bank page => Sys2Proof.Machine.execKioskSnapshotDone bank page s
  | .gthLock value => Sys2Proof.Machine.execGthLock value s
  | .refRestart => Sys2Proof.Machine.execRefRestart s
  | .cntRestart page mask => Sys2Proof.Machine.execCntRestart page mask s
  | .faultReport => Sys2Proof.Machine.execFaultReport s
  | .retire => Sys2Proof.Machine.execRetire s
  | .retireAll => Sys2Proof.Machine.execRetireAll s
  | .restartOverflow => Sys2Proof.Machine.execRestartOverflow s
  | .admitFlow bank => Sys2Proof.Machine.execAdmitFlow bank s
  | .release bank => Sys2Proof.Machine.execRelease bank s
  | .opReq op => Sys2Proof.Machine.execOpReq op s
  | .vsettleExpiry => Sys2Proof.Machine.execVsettleExpiry s
  | .pwrBudgetWrite value => Sys2Proof.Machine.execPwrBudgetWrite value s
  | .beAllowanceWrite reg value => Sys2Proof.Machine.execBeAllowanceWrite reg value s
  | .patienceExpiry arbiter party => Sys2Proof.Machine.execPatienceExpiry arbiter party s
  | .pauseQuantumExpiry party granted => Sys2Proof.Machine.execPauseQuantumExpiry party granted s
  | .trainingStart groups => Sys2Proof.Machine.execTrainingStart groups s
  | .trainingDone g lanes => Sys2Proof.Machine.execTrainingDone g lanes s
  | .tapTrack g lane toward eyeTaps => Sys2Proof.Machine.execTapTrack g lane toward eyeTaps s
  | .syncCode g arrived words => Sys2Proof.Machine.execSyncCode g arrived words s
  | .sensorFrameStart g arrived => Sys2Proof.Machine.execSensorFrameStart g arrived s
  | .sensorLineStart g arrived => Sys2Proof.Machine.execSensorLineStart g arrived s
  | .sensorLineEnd g arrived => Sys2Proof.Machine.execSensorLineEnd g arrived s
  | .sensorFrameEnd g arrived => Sys2Proof.Machine.execSensorFrameEnd g arrived s
  | .inputOverflow g sample => Sys2Proof.Machine.execInputOverflow g sample s
  | .lineForward stream => Sys2Proof.Machine.execLineForward stream s
  | .joinSkewExpiry g => Sys2Proof.Machine.execJoinSkewExpiry g s
  | .windowClose g => Sys2Proof.Machine.execWindowClose g s
  | .closeTimeout g => Sys2Proof.Machine.execCloseTimeout g s
  | .sensorClockLoss g => Sys2Proof.Machine.execSensorClockLoss g s
  | .vTrigger g => Sys2Proof.Machine.execVTrigger g s
  | .hTrigger g => Sys2Proof.Machine.execHTrigger g s
  | .spiGo c cmd => Sys2Proof.Machine.execSpiGo c cmd s
  | .spiDone c rx => Sys2Proof.Machine.execSpiDone c rx s
  | .spiData c a => Sys2Proof.Machine.execSpiData c a s
  | .i2cGo c cmd => Sys2Proof.Machine.execI2cGo c cmd s
  | .i2cDone c nack rx => Sys2Proof.Machine.execI2cDone c nack rx s
  | .i2cData c a => Sys2Proof.Machine.execI2cData c a s
  | .i2cStretchTimeout c => Sys2Proof.Machine.execI2cStretchTimeout c s
  | .conditionLine ctx => Sys2Proof.Machine.execConditionLine ctx s
  | .tableReadError ctx table row unit => Sys2Proof.Machine.execTableReadError ctx table row unit s
  | .intStart => Sys2Proof.Machine.execIntStart s
  | .intStop => Sys2Proof.Machine.execIntStop s
  | .intAverage => Sys2Proof.Machine.execIntAverage s
  | .averageDone => Sys2Proof.Machine.execAverageDone s
  | .intFrame => Sys2Proof.Machine.execIntFrame s
  | .ebeFrameStart ctx => Sys2Proof.Machine.execEbeFrameStart ctx s
  | .ebeFrameEnd ctx => Sys2Proof.Machine.execEbeFrameEnd ctx s
  | .tileWriteError ctx unit => Sys2Proof.Machine.execTileWriteError ctx unit s
  | .recStart ctx atCount => Sys2Proof.Machine.execRecStart ctx atCount s
  | .recStop ctx atCount => Sys2Proof.Machine.execRecStop ctx atCount s
  | .playStart => Sys2Proof.Machine.execPlayStart s
  | .playStop => Sys2Proof.Machine.execPlayStop s
  | .decodeFrame read => Sys2Proof.Machine.execDecodeFrame read s
  | .orgFrameEnd c => Sys2Proof.Machine.execOrgFrameEnd c s
  | .tblSelWrite value => Sys2Proof.Machine.execTblSelWrite value s
  | .tblDataAccess a => Sys2Proof.Machine.execTblDataAccess a s
  | .loadCmd => Sys2Proof.Machine.execLoadCmd s
  | .loadDone words read => Sys2Proof.Machine.execLoadDone words read s
  | .viewPaceSlot v => Sys2Proof.Machine.execViewPaceSlot v s
  | .viewFrameStart v => Sys2Proof.Machine.execViewFrameStart v s
  | .viewFrameComplete v a => Sys2Proof.Machine.execViewFrameComplete v a s
  | .patStart => Sys2Proof.Machine.execPatStart s
  | .patStop => Sys2Proof.Machine.execPatStop s
  | .patFrameStart => Sys2Proof.Machine.execPatFrameStart s
  | .sesStart n => Sys2Proof.Machine.execSesStart n s
  | .sesStop n => Sys2Proof.Machine.execSesStop n s
  | .forceIdr n => Sys2Proof.Machine.execForceIdr n s
  | .encodeSlot n => Sys2Proof.Machine.execEncodeSlot n s
  | .engineDispatch e => Sys2Proof.Machine.execEngineDispatch e s
  | .workItemDone item => Sys2Proof.Machine.execWorkItemDone item s
  | .deadlineMiss n => Sys2Proof.Machine.execDeadlineMiss n s
  | .poolWaitEnd n => Sys2Proof.Machine.execPoolWaitEnd n s
  | .ringSpace n => Sys2Proof.Machine.execRingSpace n s
  | .rdPtrWrite n value => Sys2Proof.Machine.execRdPtrWrite n value s
  | .wrPtrWrite n value => Sys2Proof.Machine.execWrPtrWrite n value s
  | .decodePublish n => Sys2Proof.Machine.execDecodePublish n s
  | .markLong handle => Sys2Proof.Machine.execMarkLong handle s
  | .markUnused handle => Sys2Proof.Machine.execMarkUnused handle s
  | .releaseOutput handle => Sys2Proof.Machine.execReleaseOutput handle s
  | .staleRestart => Sys2Proof.Machine.execStaleRestart s
  | .memberEnable m => Sys2Proof.Machine.execMemberEnable m s
  | .memberInitDone m result => Sys2Proof.Machine.execMemberInitDone m result s
  | .memberDisable m => Sys2Proof.Machine.execMemberDisable m s
  | .nvmeCompletion m cid status => Sys2Proof.Machine.execNvmeCompletion m cid status s
  | .memberCmdTimeout m => Sys2Proof.Machine.execMemberCmdTimeout m s
  | .rootPortLinkDown p => Sys2Proof.Machine.execRootPortLinkDown p s
  | .inboundRequest p m dramUnit isWrite data => Sys2Proof.Machine.execInboundRequest p m dramUnit isWrite data s
  | .volumeEnable v => Sys2Proof.Machine.execVolumeEnable v s
  | .labelReadDone v label => Sys2Proof.Machine.execLabelReadDone v label s
  | .volumeDisable v => Sys2Proof.Machine.execVolumeDisable v s
  | .format v => Sys2Proof.Machine.execFormat v s
  | .formatDone v => Sys2Proof.Machine.execFormatDone v s
  | .openVolume v => Sys2Proof.Machine.execOpenVolume v s
  | .openScanDone v scan => Sys2Proof.Machine.execOpenScanDone v scan s
  | .close v => Sys2Proof.Machine.execClose v s
  | .chStart c => Sys2Proof.Machine.execChStart c s
  | .chStop c => Sys2Proof.Machine.execChStop c s
  | .chResume c => Sys2Proof.Machine.execChResume c s
  | .chAbandon c => Sys2Proof.Machine.execChAbandon c s
  | .frameOnMedium c => Sys2Proof.Machine.execFrameOnMedium c s
  | .takeDrainDone c => Sys2Proof.Machine.execTakeDrainDone c s
  | .checkpointDue c => Sys2Proof.Machine.execCheckpointDue c s
  | .fetchCmd => Sys2Proof.Machine.execFetchCmd s
  | .fetchDone error data => Sys2Proof.Machine.execFetchDone error data s
  | .controllerEnable wrr asqSize acqSize asqBase acqBase => Sys2Proof.Machine.execControllerEnable wrr asqSize acqSize asqBase acqBase s
  | .controllerDisable => Sys2Proof.Machine.execControllerDisable s
  | .controllerDisableDone => Sys2Proof.Machine.execControllerDisableDone s
  | .functionLevelReset => Sys2Proof.Machine.execFunctionLevelReset s
  | .ccShutdown shn => Sys2Proof.Machine.execCcShutdown shn s
  | .shutdownComplete => Sys2Proof.Machine.execShutdownComplete s
  | .sqDoorbell q tail => Sys2Proof.Machine.execSqDoorbell q tail s
  | .cqDoorbell q head => Sys2Proof.Machine.execCqDoorbell q head s
  | .arbitrationRound entries => Sys2Proof.Machine.execArbitrationRound entries s
  | .createIoSq cid => Sys2Proof.Machine.execCreateIoSq cid s
  | .createIoCq cid => Sys2Proof.Machine.execCreateIoCq cid s
  | .deleteIoSq cid => Sys2Proof.Machine.execDeleteIoSq cid s
  | .deleteIoSqDone cid => Sys2Proof.Machine.execDeleteIoSqDone cid s
  | .deleteIoCq cid => Sys2Proof.Machine.execDeleteIoCq cid s
  | .getLogPage cid => Sys2Proof.Machine.execGetLogPage cid s
  | .identify cid => Sys2Proof.Machine.execIdentify cid s
  | .setFeatures cid => Sys2Proof.Machine.execSetFeatures cid s
  | .getFeatures cid => Sys2Proof.Machine.execGetFeatures cid s
  | .resumeQueue cid => Sys2Proof.Machine.execResumeQueue cid s
  | .unsupportedOpcode sq cid => Sys2Proof.Machine.execUnsupportedOpcode sq cid s
  | .nvmRead sq cid => Sys2Proof.Machine.execNvmRead sq cid s
  | .nvmWrite sq cid => Sys2Proof.Machine.execNvmWrite sq cid s
  | .flush sq cid => Sys2Proof.Machine.execFlush sq cid s
  | .datasetManagement sq cid => Sys2Proof.Machine.execDatasetManagement sq cid s
  | .commandCompletion sq cid outcome => Sys2Proof.Machine.execCommandCompletion sq cid outcome s
  | .apstTransition => Sys2Proof.Machine.execApstTransition s
  | .sdiOutFrameStart n read => Sys2Proof.Machine.execSdiOutFrameStart n read s
  | .sdiInFrame n f => Sys2Proof.Machine.execSdiInFrame n f s
  | .sdiSignalLoss l => Sys2Proof.Machine.execSdiSignalLoss l s
  | .blvFrameStart n => Sys2Proof.Machine.execBlvFrameStart n s
  | .blvVfpEnd n => Sys2Proof.Machine.execBlvVfpEnd n s
  | .teEdge n => Sys2Proof.Machine.execTeEdge n s
  | .layerUnderrun n layer pixel read => Sys2Proof.Machine.execLayerUnderrun n layer pixel read s
  | .dsiCommand n cmd => Sys2Proof.Machine.execDsiCommand n cmd s
  | .dsiCommandDone n err rx => Sys2Proof.Machine.execDsiCommandDone n err rx s
  | .cmdData n a => Sys2Proof.Machine.execCmdData n a s
  | .stepMeasured => Sys2Proof.Machine.execStepMeasured s
  | .stepValue => Sys2Proof.Machine.execStepValue s
  | .setTime => Sys2Proof.Machine.execSetTime s
  | .stepApply => Sys2Proof.Machine.execStepApply s
  | .refMeasurement r m => Sys2Proof.Machine.execRefMeasurement r m s
  | .freqPeriodEnd => Sys2Proof.Machine.execFreqPeriodEnd s
  | .refLoss r => Sys2Proof.Machine.execRefLoss r s
  | .timecodeAdvance => Sys2Proof.Machine.execTimecodeAdvance s
  | .tcSet value => Sys2Proof.Machine.execTcSet value s
  | .ltcWordOut => Sys2Proof.Machine.execLtcWordOut s
  | .framePulse p => Sys2Proof.Machine.execFramePulse p s
  | .ethFrameReceive port f => Sys2Proof.Machine.execEthFrameReceive port f s
  | .ctlTxSend wr egressDelays => Sys2Proof.Machine.execCtlTxSend wr egressDelays s
  | .ethLinkDown port => Sys2Proof.Machine.execEthLinkDown port s
  | .macAge mac => Sys2Proof.Machine.execMacAge mac s
  | .senderFrameSlot n => Sys2Proof.Machine.execSenderFrameSlot n s
  | .senderPacket n before0 before1 => Sys2Proof.Machine.execSenderPacket n before0 before1 s
  | .receiverPacket r pathB p => Sys2Proof.Machine.execReceiverPacket r pathB p s
  | .streamLoss r => Sys2Proof.Machine.execStreamLoss r s
  | .audioFrame p age slots => Sys2Proof.Machine.execAudioFrame p age slots s
  | .bclkLoss p => Sys2Proof.Machine.execBclkLoss p s
  | .nonpcmHoldExpiry p pair => Sys2Proof.Machine.execNonpcmHoldExpiry p pair s
  | .schedulerIssue g k => Sys2Proof.Machine.execSchedulerIssue g k s
  | .refreshInterval g k => Sys2Proof.Machine.execRefreshInterval g k s
  | .trainCmd => Sys2Proof.Machine.execTrainCmd s
  | .trainDone lanes => Sys2Proof.Machine.execTrainDone lanes s
  | .recentre drifts => Sys2Proof.Machine.execRecentre drifts s
  | .subIdxWrite value => Sys2Proof.Machine.execSubIdxWrite value s
  | .arbourJobStart => Sys2Proof.Machine.execArbourJobStart s
  | .arbourJobDone bad => Sys2Proof.Machine.execArbourJobDone bad s
  | .seenIdxWrite value => Sys2Proof.Machine.execSeenIdxWrite value s
  | .slotTimer n => Sys2Proof.Machine.execSlotTimer n s
  | .pwmEvent n => Sys2Proof.Machine.execPwmEvent n s
  | .swTrig value => Sys2Proof.Machine.execSwTrig value s
  | .fixedSlotDue slot => Sys2Proof.Machine.execFixedSlotDue slot s
  | .conversionDone slice code powerMw => Sys2Proof.Machine.execConversionDone slice code powerMw s
  | .calDone mL mH => Sys2Proof.Machine.execCalDone mL mH s
  | .sliceRotation => Sys2Proof.Machine.execSliceRotation s
  | .thermalRestart => Sys2Proof.Machine.execThermalRestart s
  | .aonRound => Sys2Proof.Machine.execAonRound s
  | .resync => Sys2Proof.Machine.execResync s
  | .pwmPeriodEnd p => Sys2Proof.Machine.execPwmPeriodEnd p s
  | .linkTrained p => Sys2Proof.Machine.execLinkTrained p s
  | .flitReceive p crcOk => Sys2Proof.Machine.execFlitReceive p crcOk s
  | .flkLinkDown p => Sys2Proof.Machine.execFlkLinkDown p s
  | .remoteTransaction a reply => Sys2Proof.Machine.execRemoteTransaction a reply s
  | .remoteTimeout a => Sys2Proof.Machine.execRemoteTimeout a s
  | .timeMessage p t1 t2 t4 t3 => Sys2Proof.Machine.execTimeMessage p t1 t2 t4 t3 s
  | .timeReply p t4 => Sys2Proof.Machine.execTimeReply p t4 s
  | .channelSendFrame p c busy => Sys2Proof.Machine.execChannelSendFrame p c busy s
  | .channelFrameReceived p c data desc cut => Sys2Proof.Machine.execChannelFrameReceived p c data desc cut s
  | .idAssign n => Sys2Proof.Machine.execIdAssign n s
  | .idRequest => Sys2Proof.Machine.execIdRequest s
  | .cascadeMessageBad => Sys2Proof.Machine.execCascadeMessageBad s
  | .imageBlock message offset bytes last => Sys2Proof.Machine.execImageBlock message offset bytes last s
  | .heartbeatReceive p h => Sys2Proof.Machine.execHeartbeatReceive p h s
  | .neighbourLost p => Sys2Proof.Machine.execNeighbourLost p s
  | .managerClaim => Sys2Proof.Machine.execManagerClaim s
  | .promoted => Sys2Proof.Machine.execPromoted s
  | .rejoinCmd master value => Sys2Proof.Machine.execRejoinCmd master value s
  | .epochCmd => Sys2Proof.Machine.execEpochCmd s
  | .powerOnReset casRoot => Sys2Proof.Machine.execPowerOnReset casRoot s
  | .powerUpStep => Sys2Proof.Machine.execPowerUpStep s
  | .pgTimeout => Sys2Proof.Machine.execPgTimeout s
  | .pgRetry => Sys2Proof.Machine.execPgRetry s
  | .vaonFall below2V0 => Sys2Proof.Machine.execVaonFall below2V0 s
  | .pinReset casRoot => Sys2Proof.Machine.execPinReset casRoot s
  | .watchdogExpiry => Sys2Proof.Machine.execWatchdogExpiry s
  | .wdtKick => Sys2Proof.Machine.execWdtKick s
  | .rstCmd value => Sys2Proof.Machine.execRstCmd value s
  | .perstN level => Sys2Proof.Machine.execPerstN level s
  | .bootCopyRead copyA copyB found => Sys2Proof.Machine.execBootCopyRead copyA copyB found s
  | .bootListEntry => Sys2Proof.Machine.execBootListEntry s
  | .listStopped => Sys2Proof.Machine.execListStopped s
  | .lodgeRelease => Sys2Proof.Machine.execLodgeRelease s
  | .rcvData value => Sys2Proof.Machine.execRcvData value s
  | .rcvCmd => Sys2Proof.Machine.execRcvCmd s
  | .sleepCmd value => Sys2Proof.Machine.execSleepCmd value s
  | .sleepCommit => Sys2Proof.Machine.execSleepCommit s
  | .wakeEvent source => Sys2Proof.Machine.execWakeEvent source s
  | .wakeStep powerGood => Sys2Proof.Machine.execWakeStep powerGood s
  | .warmRelease => Sys2Proof.Machine.execWarmRelease s
  | .ethBlockLock port fecLock => Sys2Proof.Machine.execEthBlockLock port fecLock s
  | .rootPortLinkUp p gen => Sys2Proof.Machine.execRootPortLinkUp p gen s
  | .endpointLinkTrained gen => Sys2Proof.Machine.execEndpointLinkTrained gen s
  | .resetNRelease => Sys2Proof.Machine.execResetNRelease s
  | .powerGoodLoss pg => Sys2Proof.Machine.execPowerGoodLoss pg s
  | .ltcWordIn label => Sys2Proof.Machine.execLtcWordIn label s

end Sys2Proof.Machine
end

