-- ==== Sys2Proof/Machine/Idle.lean ====
section
/-! DEFINITION. What the block does when no command waits: time passes. -/

namespace Sys2Proof.Machine

/-- One period of 2 ns of the timebase oscillator (R248): PTP time moves on, SCHEDULED groups whose time has come reach their apply point (R43, R44), and what
follows in the same beat follows (notes/assumptions/6.md). The egresses of the line ports serve what waits at them (R264). The time stands while the Sundial domain's clock is stopped (R18). -/
def idle (s : State) : State :=
  if s.stopped.contains .sundial then ({ s with elapsed := s.elapsed + 2 } : State).serveNetwork.settle
  else (({ s with time := s.time.add 2, elapsed := s.elapsed + 2 } : State).fireScheduled s.now false true).serveNetwork.settle

end Sys2Proof.Machine
end

