-- ==== Sys2Proof/Safety.lean ====
section
/-! DEFINITION. What claims about commands and runs are stated in. -/

namespace Sys2Proof.Machine

/-- A command completes: its own effect takes `s` to `t`, and the same beat settles pool buffers and interrupts (R59, R185). It is neither a fault nor a
refusal. -/
def Does (c : Instr) (s t : State) : Prop := exec c s = .next t.settle

/-- A command completes in a next state of which `p` holds. -/
def Completes (c : Instr) (s : State) (p : State → Prop) : Prop := ∃ t, exec c s = .next t ∧ p t

/-- The block's interrupt state is what its fault and status conditions say (R59). -/
def InterruptsSettled (s : State) : Prop := s.irq = s.irqPages

/-- The registers outside a list of addresses are the same. -/
def SameRegsBut (l : List RegAddr) (s t : State) : Prop := ∀ a, a ∉ l → t.regs.word a = s.regs.word a

/-- The registers that a report of the memory controller changes: its channels' counts of uncorrectable errors (R293). -/
def errorCounts : List RegAddr := (List.range 16).map (fun ch => Adr.MC.UE (ch / 4) (ch % 4))

/-- Every byte of DRAM outside `n` bytes at `addr` reads as before. -/
def SameBytesBut (addr n : Nat) (s t : State) : Prop := ∀ a, (a < addr ∨ addr + n ≤ a) → t.dramRead a 1 = s.dramRead a 1

/-- The admission unit's promise, and what keeps it. -/
def AdmissionSound (s : State) : Prop :=
  SMap.wf (fun _ => flowReset) s.trl.flows = true ∧
  (∀ e ∈ s.admitted, ∀ c ∈ e.2.pairs, s.used c.1 ≤ s.cap c.1) ∧
  s.pwrUsed ≤ Fld.TRL.PWR_BUDGET s.regs ∧ 20000 ≤ Fld.TRL.PWR_BUDGET s.regs ∧
  (∀ op, s.pwr.settling = some op → Fld.TRL.OP_STAT_BUSY s.regs = 1 ∧ Fld.TRL.OP_CUR s.regs ≤ op ∧ op ≤ 3)

/-- A member has become FAILED or REMOVED (`st`): every volume in use that names it is FAILED, and every channel at work on such a volume is HALTED
(R199, R205, R212). -/
def MemberLost (s t : State) (m st : Nat) : Prop :=
  t.memState m = st ∧
  (∀ v, v < 16 → s.volState v = 2 ∨ s.volState v = 3 → m ∈ s.volMembers v → t.volState v = 4 ∧
    ∀ c tk, c < 8 → (s.recChan c).take = some tk → tk.vol = v → s.chState c = 1 ∨ s.chState c = 2 → t.chState c = 3 ∧ Fld.BTH.CH_STAT_REASON t.regs c = 3)

end Sys2Proof.Machine
end

