-- ==== Sys2Proof/Certificates/Slice0/Obligations.lean ====
section
/-! DEFINITION. The statements for the provers: what the rules of the manual say the commands do. -/

open Sys2Proof Sys2Proof.Machine

/-- For every command c and state s: a step of s with c at the front of its queue is exec of c on s with the rest of the queue left waiting. Model's
choices and readings: entry 1 of the log. (R21) -/
def Obligations.StepTakesFront : Prop :=
  ∀ (c : Instr) (s : State), step { s with pending := c :: s.pending } = exec c s

/-- With an empty queue a step answers a next state with the queue empty, in which the count of elapsed time is 2 ns on. While the Sundial domain runs,
PTP time is 2 ns later and every SCHEDULED group whose time is that of the new state is due and no longer scheduled; while it is stopped, PTP time and
the groups stand still. Registers, DRAM and the network's state stay as they are where no Ethernet frame waits for an egress and the transmit ring is
empty (with frames waiting, the step serves the egresses). The 2 ns, and that Sundial time stands with its domain, are the model's choices. Model's
choices and readings: entry 6, entry 177 of the log. (R43, R44, R248) -/
def Obligations.IdleLetsTimePass : Prop :=
  ∀ s : State, s.pending = [] →
    (ClockDomain.sundial ∉ s.stopped → ∃ t, step s = .next t ∧ t.time.count = s.time.count + 2 ∧ t.elapsed = s.elapsed + 2 ∧ t.pending = [] ∧
      ∀ g ∈ s.scheduled, s.updTime g = t.now → g ∈ t.due ∧ g ∉ t.scheduled) ∧
    (ClockDomain.sundial ∈ s.stopped → ∃ t, step s = .next t ∧ t.time = s.time ∧ t.elapsed = s.elapsed + 2 ∧ t.pending = [] ∧
      t.due = s.due ∧ t.scheduled = s.scheduled) ∧
    (s.net.egress = [] → s.net.ctlOut = none → Fld.ETH0.CTL_TX_RD s.regs = Fld.ETH0.CTL_TX_WR s.regs →
      ∃ t, step s = .next t ∧ t.regs = s.regs ∧ t.dram = s.dram ∧ t.net = s.net)

/-- For every command and state: if the command's operands are within the widths and ranges of the wires that carry them it answers a next state, settled;
otherwise it stops with the fault malformedCommand. For each of the 241 commands the next state is that of the command's own operation on its
operands, settled; for one that passes an edge between clock domains, while none of its domains is stopped. That an ill-formed term stops is the
model's choice. Model's choices and readings: entry 7 of the log. (R60) -/
def Obligations.EveryWellFormedCommandAnswers : Prop :=
  (∀ (c : Instr) (s : State), (c.wellFormed = true → ∃ u : State, Does c s u) ∧ (c.wellFormed = false → exec c s = .fault .malformedCommand)) ∧
  (∀ s : State,
    (∀ (master page off : Nat) (value : Word), Instr.wellFormed (.registerWrite master page off value) = true →
      Does (.registerWrite master page off value) s (registerWrite master page off value s)) ∧
    (∀ (master page off : Nat), Instr.wellFormed (.narrowWrite ⟨master, page⟩ off) = true →
      Does (.narrowWrite ⟨master, page⟩ off) s (narrowWrite master page off s)) ∧
    (∀ (t : Txn), Instr.wellFormed (.transaction t) = true → Does (.transaction t) s (transaction t s)) ∧
    (∀ (r : RoundSample), Instr.wellFormed (.managementRound r) = true → Does (.managementRound r) s (managementRound r s)) ∧
    (∀ (d : ClockDomain), Does (.domainClockStop d) s (domainClockStop d s)) ∧
    (∀ (d : ClockDomain), Does (.domainClockReturn d) s (domainClockReturn d s)) ∧
    (∀ (page : Nat) (group : Fin 16), Instr.wellFormed (.updGroupBind page group) = true →
      Does (.updGroupBind page group) s (updGroupBind page group.val s)) ∧
    (∀ (group : Fin 16) (reg : UpdReg) (value : Word), Does (.updConfigWrite group reg value) s (updConfigWrite group.val reg value s)) ∧
    (∀ (mask : BitVec 16), Does (.updArm mask) s (updArm mask.toNat s)) ∧
    (∀ (mask : BitVec 16), Does (.updCancel mask) s (updCancel mask.toNat s)) ∧
    Does .groupApply s (groupApply s) ∧
    (∀ (bank : Bank) (page selector : Nat), Instr.wellFormed (.kioskSelect bank page selector) = true →
      Does (.kioskSelect bank page selector) s (kioskSelect bank page selector s)) ∧
    (∀ (bank : Bank) (page : Nat), Instr.wellFormed (.kioskSnapshotDone bank page) = true →
      Does (.kioskSnapshotDone bank page) s (kioskSnapshotDone bank page s)) ∧
    (∀ (value : Word), Does (.gthLock value) s (gthLock value.toNat s)) ∧
    Does .refRestart s (refRestart s) ∧
    (∀ (page : Nat) (mask : Word), Instr.wellFormed (.cntRestart page mask) = true → Does (.cntRestart page mask) s (cntRestart page mask.toNat s)) ∧
    Does .faultReport s (faultReport s) ∧
    Does .retire s (retire s) ∧
    Does .retireAll s (retireAll s) ∧
    Does .restartOverflow s (restartOverflow s) ∧
    (∀ (bank : Bank), Does (.admitFlow bank) s (admitFlow bank s)) ∧
    (∀ (bank : Bank), Does (.release bank) s (releaseWith s.ownerActive bank s)) ∧
    (∀ (op : Fin 4), Does (.opReq op) s (opReq op.val s)) ∧
    Does .vsettleExpiry s (vsettleExpiry s) ∧
    (∀ (value : Word), Does (.pwrBudgetWrite value) s (pwrBudgetWrite value.toNat s)) ∧
    (∀ (reg : BeReg) (value : Word), Does (.beAllowanceWrite reg value) s (beAllowanceWrite reg value.toNat s)) ∧
    (∀ (arbiter : Arbiter) (party : Nat), Instr.wellFormed (.patienceExpiry arbiter party) = true →
      s.stopsAtEdge (.patienceExpiry arbiter party) = false → Does (.patienceExpiry arbiter party) s (patienceExpiry arbiter party s)) ∧
    (∀ (party : Nat) (granted : Bool), Instr.wellFormed (.pauseQuantumExpiry party granted) = true →
      Does (.pauseQuantumExpiry party granted) s (pauseQuantumExpiry party granted s)) ∧
    (∀ (groups : BitVec 4), Does (.trainingStart groups) s (trainingStart groups.toNat s)) ∧
    (∀ (g : Fin 4) (lanes : List LaneFound), Instr.wellFormed (.trainingDone g lanes) = true → Does (.trainingDone g lanes) s (trainingDone g.val lanes s)) ∧
    (∀ (g : Fin 4) (lane : Nat) (toward : Int) (eyeTaps : Nat), Instr.wellFormed (.tapTrack g lane toward eyeTaps) = true →
      Does (.tapTrack g lane toward eyeTaps) s (tapTrack g.val lane toward eyeTaps s)) ∧
    (∀ (g : Fin 4) (arrived : List Nat) (words : List (List Nat)), Instr.wellFormed (.syncCode g arrived words) = true →
      s.stopsAtEdge (.syncCode g arrived words) = false → Does (.syncCode g arrived words) s (syncCode g.val arrived words s)) ∧
    (∀ (g : Fin 4) (arrived : List Nat), Instr.wellFormed (.sensorFrameStart g arrived) = true →
      s.stopsAtEdge (.sensorFrameStart g arrived) = false → Does (.sensorFrameStart g arrived) s (sensorFrameStart g.val arrived s)) ∧
    (∀ (g : Fin 4) (arrived : List Nat), Instr.wellFormed (.sensorLineStart g arrived) = true → s.stopsAtEdge (.sensorLineStart g arrived) = false →
      Does (.sensorLineStart g arrived) s (sensorLineStart g.val arrived s)) ∧
    (∀ (g : Fin 4) (arrived : List Nat), Instr.wellFormed (.sensorLineEnd g arrived) = true → s.stopsAtEdge (.sensorLineEnd g arrived) = false →
      Does (.sensorLineEnd g arrived) s (sensorLineEnd g.val arrived s)) ∧
    (∀ (g : Fin 4) (arrived : List Nat), Instr.wellFormed (.sensorFrameEnd g arrived) = true → s.stopsAtEdge (.sensorFrameEnd g arrived) = false →
      Does (.sensorFrameEnd g arrived) s (sensorFrameEnd g.val arrived s)) ∧
    (∀ (g : Fin 4) (sample : Nat), Instr.wellFormed (.inputOverflow g sample) = true → Does (.inputOverflow g sample) s (inputOverflow g.val sample s)) ∧
    (∀ (stream : Fin 4), Does (.lineForward stream) s (lineForward stream.val s)) ∧
    (∀ (g : Fin 4), Does (.joinSkewExpiry g) s (joinSkewExpiry g.val s)) ∧
    (∀ (g : Fin 4), Does (.windowClose g) s (windowClose g.val s)) ∧
    (∀ (g : Fin 4), Does (.closeTimeout g) s (closeTimeout g.val s)) ∧
    (∀ (g : Fin 4), Does (.sensorClockLoss g) s (sensorClockLoss g.val s)) ∧
    (∀ (g : Fin 4), s.stopsAtEdge (.vTrigger g) = false → Does (.vTrigger g) s (vTrigger g.val s)) ∧
    (∀ (g : Fin 4), s.stopsAtEdge (.hTrigger g) = false → Does (.hTrigger g) s (hTrigger g.val s)) ∧
    (∀ (c : Fin 4) (cmd : Word), Does (.spiGo c cmd) s (spiGo c.val cmd.toNat s)) ∧
    (∀ (c : Fin 4) (rx : List Byte), Instr.wellFormed (.spiDone c rx) = true → s.stopsAtEdge (.spiDone c rx) = false →
      Does (.spiDone c rx) s (spiDone c.val rx s)) ∧
    (∀ (c : Fin 4) (a : Access), Does (.spiData c a) s (spiData c.val a s)) ∧
    (∀ (c : Fin 4) (cmd : Word), Does (.i2cGo c cmd) s (i2cGo c.val cmd.toNat s)) ∧
    (∀ (c : Fin 4) (nack : Bool) (rx : List Byte), Instr.wellFormed (.i2cDone c nack rx) = true → s.stopsAtEdge (.i2cDone c nack rx) = false →
      Does (.i2cDone c nack rx) s (i2cDone c.val nack rx s)) ∧
    (∀ (c : Fin 4) (a : Access), Does (.i2cData c a) s (i2cData c.val a s)) ∧
    (∀ (c : Fin 4), s.stopsAtEdge (.i2cStretchTimeout c) = false → Does (.i2cStretchTimeout c) s (i2cStretchTimeout c.val s)) ∧
    (∀ (ctx : Fin 4), Does (.conditionLine ctx) s (conditionLine ctx.val s)) ∧
    (∀ (ctx : Fin 4) (table : RcnTable) (row unit : Nat), Instr.wellFormed (.tableReadError ctx table row unit) = true →
      Does (.tableReadError ctx table row unit) s (tableReadError ctx.val table row unit s)) ∧
    Does .intStart s (intStart s) ∧
    Does .intStop s (intStop s) ∧
    Does .intAverage s (intAverage s) ∧
    (s.stopsAtEdge .averageDone = false → Does .averageDone s (averageDone s)) ∧
    (s.stopsAtEdge .intFrame = false → Does .intFrame s (intFrame s)) ∧
    (∀ (ctx : Fin 4), s.stopsAtEdge (.ebeFrameStart ctx) = false → Does (.ebeFrameStart ctx) s (ebeFrameStart ctx.val s)) ∧
    (∀ (ctx : Fin 4), s.stopsAtEdge (.ebeFrameEnd ctx) = false → Does (.ebeFrameEnd ctx) s (ebeFrameEnd ctx.val s)) ∧
    (∀ (ctx : Fin 4) (unit : Nat), Instr.wellFormed (.tileWriteError ctx unit) = true → Does (.tileWriteError ctx unit) s (tileWriteError ctx.val unit s)) ∧
    (∀ (ctx : Fin 4) (atCount : Bool), Does (.recStart ctx atCount) s (recStart ctx.val atCount s)) ∧
    (∀ (ctx : Fin 4) (atCount : Bool), Does (.recStop ctx atCount) s (recStop ctx.val atCount s)) ∧
    Does .playStart s (playStart s) ∧
    Does .playStop s (playStop s) ∧
    (∀ (reads : BadBeats), Instr.wellFormed (.decodeFrame reads) = true → s.stopsAtEdge (.decodeFrame reads) = false →
      Does (.decodeFrame reads) s (decodeFrame reads s)) ∧
    (∀ (c : Fin 2), s.stopsAtEdge (.orgFrameEnd c) = false → Does (.orgFrameEnd c) s (orgFrameEnd c.val s)) ∧
    (∀ (value : Word), Does (.tblSelWrite value) s (tblSelWrite value.toNat s)) ∧
    (∀ (a : Access), Does (.tblDataAccess a) s (tblDataAccess a s)) ∧
    Does .loadCmd s (loadCmd s) ∧
    (∀ (words : Nat) (read : BusResult), Instr.wellFormed (.loadDone words read) = true → s.stopsAtEdge (.loadDone words read) = false →
      Does (.loadDone words read) s (loadDone words read s)) ∧
    (∀ (v : Fin 8), Does (.viewPaceSlot v) s (viewPaceSlot v.val s)) ∧
    (∀ (v : Fin 8), Does (.viewFrameStart v) s (viewFrameStart v.val s)) ∧
    (∀ (v : Fin 8) (reads : BadBeats) (write : BusResult), Instr.wellFormed (.viewFrameComplete v ⟨reads, write⟩) = true →
      s.stopsAtEdge (.viewFrameComplete v ⟨reads, write⟩) = false → Does (.viewFrameComplete v ⟨reads, write⟩) s (viewFrameComplete v.val reads write s)) ∧
    Does .patStart s (patStart s) ∧
    Does .patStop s (patStop s) ∧
    Does .patFrameStart s (patFrameStart s) ∧
    (∀ (n : Fin 32), Does (.sesStart n) s (sesStart n.val s)) ∧
    (∀ (n : Fin 32), Does (.sesStop n) s (sesStop n.val s)) ∧
    (∀ (n : Fin 32), Does (.forceIdr n) s (forceIdr n.val s)) ∧
    (∀ (n : Fin 32), Does (.encodeSlot n) s (encodeSlot n.val s)) ∧
    (∀ (e : Fin 6), Does (.engineDispatch e) s (engineDispatch e.val s)) ∧
    (∀ (e : Fin 6) (reads : BadBeats), Instr.wellFormed (.workItemDone ⟨e, reads⟩) = true → s.stopsAtEdge (.workItemDone ⟨e, reads⟩) = false →
      Does (.workItemDone ⟨e, reads⟩) s (workItemDone e.val reads s)) ∧
    (∀ (n : Fin 32), Does (.deadlineMiss n) s (deadlineMiss n.val s)) ∧
    (∀ (n : Fin 32), Does (.poolWaitEnd n) s (poolWaitEnd n.val s)) ∧
    (∀ (n : Fin 32), Does (.ringSpace n) s (ringSpace n.val s)) ∧
    (∀ (n : Fin 32) (value : Word), Does (.rdPtrWrite n value) s (rdPtrWrite n.val value s)) ∧
    (∀ (n : Fin 32) (value : Word), Does (.wrPtrWrite n value) s (wrPtrWrite n.val value s)) ∧
    (∀ (n : Fin 32), s.stopsAtEdge (.decodePublish n) = false → Does (.decodePublish n) s (decodePublish n.val s)) ∧
    (∀ (handle : BitVec 16), Does (.markLong handle) s (markLong handle.toNat s)) ∧
    (∀ (handle : BitVec 16), Does (.markUnused handle) s (markUnused handle.toNat s)) ∧
    (∀ (handle : BitVec 16), Does (.releaseOutput handle) s (releaseOutput handle.toNat s)) ∧
    Does .staleRestart s (staleRestart s) ∧
    (∀ (m : Fin 32), Does (.memberEnable m) s (memberEnable m.val s)) ∧
    (∀ (m : Fin 32) (result : InitResult), s.stopsAtEdge (.memberInitDone m result) = false → Does (.memberInitDone m result) s (memberInitDone m.val result s)) ∧
    (∀ (m : Fin 32), Does (.memberDisable m) s (memberDisable m.val s)) ∧
    (∀ (m : Fin 32) (cid : Nat) (status : NvmeStatus), Instr.wellFormed (.nvmeCompletion m cid status) = true →
      s.stopsAtEdge (.nvmeCompletion m cid status) = false → Does (.nvmeCompletion m cid status) s (nvmeCompletion m.val cid status s)) ∧
    (∀ (m : Fin 32), Does (.memberCmdTimeout m) s (memberCmdTimeout m.val s)) ∧
    (∀ (p : Fin 8), Does (.rootPortLinkDown p) s (rootPortLinkDown p.val s)) ∧
    (∀ (p : Fin 8) (m : Fin 32) (dramUnit : Nat) (isWrite : Bool) (data : List Byte),
      Instr.wellFormed (.inboundRequest p m dramUnit isWrite data) = true → s.stopsAtEdge (.inboundRequest p m dramUnit isWrite data) = false →
        Does (.inboundRequest p m dramUnit isWrite data) s (inboundRequest p.val m.val dramUnit isWrite data s)) ∧
    (∀ (v : Fin 16), Does (.volumeEnable v) s (volumeEnable v.val s)) ∧
    (∀ (v : Fin 16) (label : List Byte), Instr.wellFormed (.labelReadDone v label) = true →
      s.stopsAtEdge (.labelReadDone v label) = false → Does (.labelReadDone v label) s (labelReadDone v.val label s)) ∧
    (∀ (v : Fin 16), Does (.volumeDisable v) s (volumeDisable v.val s)) ∧
    (∀ (v : Fin 16), Does (.format v) s (format v.val s)) ∧
    (∀ (v : Fin 16), Does (.formatDone v) s (formatDone v.val s)) ∧
    (∀ (v : Fin 16), Does (.openVolume v) s (openVolume v.val s)) ∧
    (∀ (v : Fin 16) (slots : List (List Byte)) (data : List Byte), Instr.wellFormed (.openScanDone v ⟨slots, data⟩) = true →
      s.stopsAtEdge (.openScanDone v ⟨slots, data⟩) = false → Does (.openScanDone v ⟨slots, data⟩) s (openScanDone v.val slots data s)) ∧
    (∀ (v : Fin 16), Does (.close v) s (close v.val s)) ∧
    (∀ (c : Fin 8), Does (.chStart c) s (chStart c.val s)) ∧
    (∀ (c : Fin 8), Does (.chStop c) s (chStop c.val s)) ∧
    (∀ (c : Fin 8), Does (.chResume c) s (chResume c.val s)) ∧
    (∀ (c : Fin 8), Does (.chAbandon c) s (chAbandon c.val s)) ∧
    (∀ (c : Fin 8), Does (.frameOnMedium c) s (frameOnMedium c.val s)) ∧
    (∀ (c : Fin 8), Does (.takeDrainDone c) s (takeDrainDone c.val s)) ∧
    (∀ (c : Fin 8), Does (.checkpointDue c) s (checkpointDue c.val s)) ∧
    Does .fetchCmd s (fetchCmd s) ∧
    (∀ (error : Bool) (data : List Byte), s.stopsAtEdge (.fetchDone error data) = false → Does (.fetchDone error data) s (fetchDone error data s)) ∧
    (∀ (wrr : Bool) (asqSize acqSize asqBase acqBase : Nat), Instr.wellFormed (.controllerEnable wrr asqSize acqSize asqBase acqBase) = true →
      s.stopsAtEdge (.controllerEnable wrr asqSize acqSize asqBase acqBase) = false →
        Does (.controllerEnable wrr asqSize acqSize asqBase acqBase) s (controllerEnable wrr asqSize acqSize asqBase acqBase s)) ∧
    (s.stopsAtEdge .controllerDisable = false → Does .controllerDisable s (controllerDisable s)) ∧
    Does .controllerDisableDone s (controllerDisableDone s) ∧
    (s.stopsAtEdge .functionLevelReset = false → Does .functionLevelReset s (functionLevelReset s)) ∧
    (∀ (shn : Fin 4), s.stopsAtEdge (.ccShutdown shn) = false → Does (.ccShutdown shn) s (ccShutdown shn.val s)) ∧
    Does .shutdownComplete s (shutdownComplete s) ∧
    (∀ (q tail : Nat), Instr.wellFormed (.sqDoorbell q tail) = true → s.stopsAtEdge (.sqDoorbell q tail) = false →
      Does (.sqDoorbell q tail) s (sqDoorbell q tail s)) ∧
    (∀ (q head : Nat), Instr.wellFormed (.cqDoorbell q head) = true → s.stopsAtEdge (.cqDoorbell q head) = false →
      Does (.cqDoorbell q head) s (cqDoorbell q head s)) ∧
    (∀ (entries : List NvmeCmd), Instr.wellFormed (.arbitrationRound entries) = true → s.stopsAtEdge (.arbitrationRound entries) = false →
      Does (.arbitrationRound entries) s (arbitrationRound entries s)) ∧
    (∀ (cid : Nat), Instr.wellFormed (.createIoSq cid) = true → s.stopsAtEdge (.createIoSq cid) = false → Does (.createIoSq cid) s (createIoSq cid s)) ∧
    (∀ (cid : Nat), Instr.wellFormed (.createIoCq cid) = true → s.stopsAtEdge (.createIoCq cid) = false → Does (.createIoCq cid) s (createIoCq cid s)) ∧
    (∀ (cid : Nat), Instr.wellFormed (.deleteIoSq cid) = true → s.stopsAtEdge (.deleteIoSq cid) = false → Does (.deleteIoSq cid) s (deleteIoSq cid s)) ∧
    (∀ (cid : Nat), Instr.wellFormed (.deleteIoSqDone cid) = true → s.stopsAtEdge (.deleteIoSqDone cid) = false →
      Does (.deleteIoSqDone cid) s (deleteIoSqDone cid s)) ∧
    (∀ (cid : Nat), Instr.wellFormed (.deleteIoCq cid) = true → s.stopsAtEdge (.deleteIoCq cid) = false → Does (.deleteIoCq cid) s (deleteIoCq cid s)) ∧
    (∀ (cid : Nat), Instr.wellFormed (.getLogPage cid) = true → s.stopsAtEdge (.getLogPage cid) = false → Does (.getLogPage cid) s (getLogPage cid s)) ∧
    (∀ (cid : Nat), Instr.wellFormed (.identify cid) = true → s.stopsAtEdge (.identify cid) = false → Does (.identify cid) s (identify cid s)) ∧
    (∀ (cid : Nat), Instr.wellFormed (.setFeatures cid) = true → s.stopsAtEdge (.setFeatures cid) = false → Does (.setFeatures cid) s (setFeatures cid s)) ∧
    (∀ (cid : Nat), Instr.wellFormed (.getFeatures cid) = true → s.stopsAtEdge (.getFeatures cid) = false → Does (.getFeatures cid) s (getFeatures cid s)) ∧
    (∀ (cid : Nat), Instr.wellFormed (.resumeQueue cid) = true → s.stopsAtEdge (.resumeQueue cid) = false → Does (.resumeQueue cid) s (resumeQueue cid s)) ∧
    (∀ (sq cid : Nat), Instr.wellFormed (.unsupportedOpcode sq cid) = true → s.stopsAtEdge (.unsupportedOpcode sq cid) = false →
      Does (.unsupportedOpcode sq cid) s (unsupportedOpcode sq cid s)) ∧
    (∀ (sq cid : Nat), Instr.wellFormed (.nvmRead sq cid) = true → s.stopsAtEdge (.nvmRead sq cid) = false → Does (.nvmRead sq cid) s (nvmRead sq cid s)) ∧
    (∀ (sq cid : Nat), Instr.wellFormed (.nvmWrite sq cid) = true → s.stopsAtEdge (.nvmWrite sq cid) = false →
      Does (.nvmWrite sq cid) s (nvmWrite sq cid s)) ∧
    (∀ (sq cid : Nat), Instr.wellFormed (.flush sq cid) = true → s.stopsAtEdge (.flush sq cid) = false → Does (.flush sq cid) s (flush sq cid s)) ∧
    (∀ (sq cid : Nat), Instr.wellFormed (.datasetManagement sq cid) = true → s.stopsAtEdge (.datasetManagement sq cid) = false →
      Does (.datasetManagement sq cid) s (datasetManagement sq cid s)) ∧
    (∀ (sq cid : Nat) (outcome : DataOutcome), Instr.wellFormed (.commandCompletion sq cid outcome) = true →
      s.stopsAtEdge (.commandCompletion sq cid outcome) = false → Does (.commandCompletion sq cid outcome) s (commandCompletion sq cid outcome s)) ∧
    Does .apstTransition s (apstTransition s) ∧
    (∀ (n : Fin 4) (read : BadBeats), Instr.wellFormed (.sdiOutFrameStart n read) = true → s.stopsAtEdge (.sdiOutFrameStart n read) = false →
      Does (.sdiOutFrameStart n read) s (sdiOutFrameStart n.val read s)) ∧
    (∀ (n : Fin 4) (f : SdiFrame), Instr.wellFormed (.sdiInFrame n f) = true → s.stopsAtEdge (.sdiInFrame n f) = false →
      Does (.sdiInFrame n f) s (sdiInFrame n.val f s)) ∧
    (∀ (n : Fin 4) (part : Option SdiFrame), Instr.wellFormed (.sdiSignalLoss ⟨n, part⟩) = true → Does (.sdiSignalLoss ⟨n, part⟩) s (sdiSignalLoss n.val part s)) ∧
    (∀ (n : Fin 2), s.stopsAtEdge (.blvFrameStart n) = false → Does (.blvFrameStart n) s (blvFrameStart n.val s)) ∧
    (∀ (n : Fin 2), s.stopsAtEdge (.blvVfpEnd n) = false → Does (.blvVfpEnd n) s (blvVfpEnd n.val s)) ∧
    (∀ (n : Fin 2), Does (.teEdge n) s (teEdge n.val s)) ∧
    (∀ (n : Fin 2) (layer : Fin 3) (pixel : Nat) (read : BusResult), Instr.wellFormed (.layerUnderrun n layer pixel read) = true →
      s.stopsAtEdge (.layerUnderrun n layer pixel read) = false → Does (.layerUnderrun n layer pixel read) s (layerUnderrun n.val layer.val pixel read s)) ∧
    (∀ (n : Fin 2) (cmd : Word), Does (.dsiCommand n cmd) s (dsiCommand n.val cmd.toNat s)) ∧
    (∀ (n : Fin 2) (err : Bool) (rx : List Byte), Instr.wellFormed (.dsiCommandDone n err rx) = true →
      s.stopsAtEdge (.dsiCommandDone n err rx) = false → Does (.dsiCommandDone n err rx) s (dsiCommandDone n.val err rx s)) ∧
    (∀ (n : Fin 2) (a : Access), Does (.cmdData n a) s (cmdData n.val a s)) ∧
    Does .stepMeasured s (stepMeasured s) ∧
    Does .stepValue s (stepValue s) ∧
    Does .setTime s (setTime s) ∧
    Does .stepApply s (stepApply s) ∧
    (∀ (r : Fin 8) (m : Measurement), s.stopsAtEdge (.refMeasurement r m) = false → Does (.refMeasurement r m) s (refMeasurement r.val m s)) ∧
    Does .freqPeriodEnd s (freqPeriodEnd s) ∧
    (∀ (r : Fin 8), Does (.refLoss r) s (refLoss r.val s)) ∧
    Does .timecodeAdvance s (timecodeAdvance s) ∧
    (∀ (value : Word), Does (.tcSet value) s (tcSet value.toNat s)) ∧
    (s.stopsAtEdge .ltcWordOut = false → Does .ltcWordOut s (ltcWordOut s)) ∧
    (∀ (p : Fin 2), s.stopsAtEdge (.framePulse p) = false → Does (.framePulse p) s (framePulse p.val s)) ∧
    (∀ (port : Fin 2) (f : EthFrame), s.stopsAtEdge (.ethFrameReceive port f) = false → Does (.ethFrameReceive port f) s (ethFrameReceive port.val f s)) ∧
    (∀ (wr : Nat) (egressDelays : List Nat), Instr.wellFormed (.ctlTxSend wr egressDelays) = true →
      Does (.ctlTxSend wr egressDelays) s (ctlTxSend wr egressDelays s)) ∧
    (∀ (port : Fin 2), Does (.ethLinkDown port) s (ethLinkDown port.val s)) ∧
    (∀ (mac : Nat), Instr.wellFormed (.macAge mac) = true → Does (.macAge mac) s (macAge mac s)) ∧
    (∀ (n : Fin 16), s.stopsAtEdge (.senderFrameSlot n) = false → Does (.senderFrameSlot n) s (senderFrameSlot n.val s)) ∧
    (∀ (n : Fin 16) (before0 before1 : Nat), s.stopsAtEdge (.senderPacket n before0 before1) = false →
      Does (.senderPacket n before0 before1) s (senderPacket n.val before0 before1 s)) ∧
    (∀ (r : Fin 16) (pathB : Bool) (p : RtpPacket), Instr.wellFormed (.receiverPacket r pathB p) = true →
      s.stopsAtEdge (.receiverPacket r pathB p) = false → Does (.receiverPacket r pathB p) s (receiverPacket r.val pathB p s)) ∧
    (∀ (r : Fin 16), Does (.streamLoss r) s (streamLoss r.val s)) ∧
    (∀ (p : Fin 4) (age : Nat) (pins : List Bool), Instr.wellFormed (.audioFrame p age pins) = true →
      s.stopsAtEdge (.audioFrame p age pins) = false → Does (.audioFrame p age pins) s (audioFrame p.val age pins s)) ∧
    (∀ (p : Fin 4), Does (.bclkLoss p) s (bclkLoss p.val s)) ∧
    (∀ (p : Fin 4) (pair : Fin 16), Does (.nonpcmHoldExpiry p pair) s (nonpcmHoldExpiry p.val pair.val s)) ∧
    (∀ (g k : Fin 4), s.stopsAtEdge (.schedulerIssue g k) = false → Does (.schedulerIssue g k) s (schedulerBoundary g.val k.val s)) ∧
    (∀ (g k : Fin 4), s.stopsAtEdge (.refreshInterval g k) = false → Does (.refreshInterval g k) s (refreshInterval g.val k.val s)) ∧
    Does .trainCmd s (trainCmd s) ∧
    (∀ (lanes : List DramLane), Instr.wellFormed (.trainDone lanes) = true → Does (.trainDone lanes) s (trainDone lanes s)) ∧
    (∀ (drifts : List Int), Instr.wellFormed (.recentre drifts) = true → s.stopsAtEdge (.recentre drifts) = false →
      Does (.recentre drifts) s (recentre drifts s)) ∧
    (∀ (value : Word), Does (.subIdxWrite value) s (subIdxWrite value.toNat s)) ∧
    Does .arbourJobStart s (arbourJobStart s) ∧
    (∀ (bad : BadBeats), Instr.wellFormed (.arbourJobDone bad) = true → s.stopsAtEdge (.arbourJobDone bad) = false →
      Does (.arbourJobDone bad) s (arbourJobDone bad s)) ∧
    (∀ (value : Word), Does (.seenIdxWrite value) s (seenIdxWrite value.toNat s)) ∧
    (∀ (n : Nat), Instr.wellFormed (.slotTimer n) = true → Does (.slotTimer n) s (slotTimer n s)) ∧
    (∀ (n : Nat), Instr.wellFormed (.pwmEvent n) = true → Does (.pwmEvent n) s (pwmEvent n s)) ∧
    (∀ (value : Word), Does (.swTrig value) s (swTrig value.toNat s)) ∧
    (∀ (slot : Fin 8), Does (.fixedSlotDue slot) s (fixedSlotDue slot.val s)) ∧
    (∀ (slice : Fin 4) (code : BitVec 12) (powerMw : BitVec 20), s.stopsAtEdge (.conversionDone slice code powerMw) = false → Does (.conversionDone slice code powerMw) s (conversionDone slice.val code powerMw s)) ∧
    (∀ (mL mH : Int), s.stopsAtEdge (.calDone mL mH) = false → Does (.calDone mL mH) s (calDone mL mH s)) ∧
    Does .sliceRotation s (sliceRotation s) ∧
    Does .thermalRestart s (thermalRestart s) ∧
    (s.stopsAtEdge .aonRound = false → Does .aonRound s (aonRound s)) ∧
    Does .resync s (resync s) ∧
    (∀ (p : Fin 8), Does (.pwmPeriodEnd p) s (pwmPeriodEnd p.val s)) ∧
    (∀ (p : Fin 4), Does (.linkTrained p) s (linkTrained p.val s)) ∧
    (∀ (p : Fin 4) (crcOk : Bool), s.stopsAtEdge (.flitReceive p crcOk) = false → Does (.flitReceive p crcOk) s (flitReceive p.val crcOk s)) ∧
    (∀ (p : Fin 4), Does (.flkLinkDown p) s (linkDownEvent p.val s)) ∧
    (∀ (a : RemoteAccess) (reply : Option RemoteAnswer), Instr.wellFormed (.remoteTransaction a reply) = true →
      s.stopsAtEdge (.remoteTransaction a reply) = false → Does (.remoteTransaction a reply) s (remoteTransaction a reply s)) ∧
    (∀ (a : RemoteAccess), Instr.wellFormed (.remoteTimeout a) = true → Does (.remoteTimeout a) s (remoteTimeout a s)) ∧
    (∀ (p : Fin 4) (t1 t2 : Nat) (t4 : Option Nat) (t3 : Nat), s.stopsAtEdge (.timeMessage p t1 t2 t4 t3) = false →
      Does (.timeMessage p t1 t2 t4 t3) s (timeMessage p.val t1 t2 t4 t3 s)) ∧
    (∀ (p : Fin 4) (t4 : Nat), s.stopsAtEdge (.timeReply p t4) = false → Does (.timeReply p t4) s (timeReply p.val t4 s)) ∧
    (∀ (p : Fin 4) (c : Fin 8) (busy : Bool), s.stopsAtEdge (.channelSendFrame p c busy) = false →
      Does (.channelSendFrame p c busy) s (channelSendFrame p.val c.val busy s)) ∧
    (∀ (p : Fin 4) (c : Fin 8) (data desc : List Byte) (cut : Bool), s.stopsAtEdge (.channelFrameReceived p c data desc cut) = false →
      Does (.channelFrameReceived p c data desc cut) s (channelFrameReceived p.val c.val data desc cut s)) ∧
    (∀ (n : Nat), s.stopsAtEdge (.idAssign n) = false → Does (.idAssign n) s (idAssign n s)) ∧
    (s.stopsAtEdge .idRequest = false → Does .idRequest s (idRequest s)) ∧
    (s.stopsAtEdge .cascadeMessageBad = false → Does .cascadeMessageBad s (cascadeMessageBad s)) ∧
    (∀ (message : ImageMessage) (offset : Nat) (bytes : List Byte) (last : Bool), Instr.wellFormed (.imageBlock message offset bytes last) = true →
      s.stopsAtEdge (.imageBlock message offset bytes last) = false → Does (.imageBlock message offset bytes last) s (imageBlock message offset bytes last s)) ∧
    (∀ (p : Fin 4) (h : Heartbeat), Instr.wellFormed (.heartbeatReceive p h) = true → s.stopsAtEdge (.heartbeatReceive p h) = false →
      Does (.heartbeatReceive p h) s (heartbeatReceive p.val h s)) ∧
    (∀ (p : Fin 4), Does (.neighbourLost p) s (neighbourLost p.val s)) ∧
    Does .managerClaim s (managerClaim s) ∧
    Does .promoted s (promoted s) ∧
    (∀ (master : Nat) (value : Word), Instr.wellFormed (.rejoinCmd master value) = true → Does (.rejoinCmd master value) s (rejoinCmd master value.toNat s)) ∧
    Does .epochCmd s (epochCmd s) ∧
    (∀ (casRoot : Bool), Does (.powerOnReset casRoot) s (powerOnReset casRoot s)) ∧
    Does .powerUpStep s (powerUpStep s) ∧
    Does .pgTimeout s (pgTimeout s) ∧
    Does .pgRetry s (pgRetry s) ∧
    (∀ (below2V0 : Bool), Does (.vaonFall below2V0) s (vaonFall below2V0 s)) ∧
    (∀ (casRoot : Bool), Does (.pinReset casRoot) s (pinReset casRoot s)) ∧
    Does .watchdogExpiry s (watchdogExpiry s) ∧
    Does .wdtKick s (wdtKick s) ∧
    (∀ (value : Word), Does (.rstCmd value) s (rstCmd value.toNat s)) ∧
    (∀ (level : Bool), Does (.perstN level) s (perstN level s)) ∧
    (∀ (copyA copyB : List Byte) (found : BootRead), Instr.wellFormed (.bootCopyRead copyA copyB found) = true →
      Does (.bootCopyRead copyA copyB found) s (bootCopyRead copyA copyB found s)) ∧
    Does .bootListEntry s (bootListEntry s) ∧
    Does .listStopped s (listStopped s) ∧
    Does .lodgeRelease s (lodgeRelease s) ∧
    (∀ (value : Word), Does (.rcvData value) s (rcvData value s)) ∧
    Does .rcvCmd s (rcvCmd s) ∧
    (∀ (value : Word), Does (.sleepCmd value) s (sleepCmd value.toNat s)) ∧
    Does .sleepCommit s (sleepCommit s) ∧
    (∀ (source : WakeSource), Does (.wakeEvent source) s (wakeEvent source s)) ∧
    (∀ (powerGood : Bool), Does (.wakeStep powerGood) s (wakeStep powerGood s)) ∧
    Does .warmRelease s (warmRelease s) ∧
    (∀ (port : Fin 2) (fecLock : Bool), Does (.ethBlockLock port fecLock) s (ethBlockLock port.val fecLock s)) ∧
    (∀ (p : Fin 8) (gen : Fin 6), Does (.rootPortLinkUp p gen) s (rootPortLinkUp p.val gen.val s)) ∧
    (∀ (gen : Fin 6), Does (.endpointLinkTrained gen) s (endpointLinkTrained gen.val s)) ∧
    Does .resetNRelease s (resetNRelease s) ∧
    (∀ (pg : PgInput), Does (.powerGoodLoss pg) s (powerGoodLoss pg s)) ∧
    (∀ (label : BitVec 32), s.stopsAtEdge (.ltcWordIn label) = false → Does (.ltcWordIn label) s (ltcWordIn label.toNat s)))

/-- For every state s in which the pages whose interrupt stands are exactly those whose interrupt condition holds (R59): if a step answers a next state,
the same is true of it. Model's choices and readings: entry 21 of the log. (R59) -/
def Obligations.EveryStepSettlesInterrupts : Prop :=
  ∀ s t : State, InterruptsSettled s → step s = .next t → InterruptsSettled t

/-- Settling a state appends to what left the block exactly one MSI-X message, with the page's VECTOR, for each implemented page whose condition now
holds, whose interrupt did not stand and whose TARGET is 1, in page order, and nothing else. That conditions are compared once per command is the
model's choice. Model's choices and readings: entry 21 of the log. (R59) -/
def Obligations.MsixOncePerRise : Prop :=
  ∀ u : State, u.settle.outbox = u.outbox ++
    (implementedPages.filter (fun p => u.settle.irqCond p && !u.irq.contains p && Fld.HDR.TARGET u.regs p == 1)).map
      (fun p => .msix (Fld.HDR.VECTOR u.regs p))

/-- For n-bit a and b with d = (a - b) mod 2^n: d = 0 is equal; 1 to 2^(n-1)-1 is later; 2^(n-1) is ambiguous; 2^(n-1)+1 to 2^n-1 is earlier. (R9) -/
def Obligations.SerialComparison : Prop :=
  ∀ n a b : Nat, 0 < n → a < 2 ^ n → b < 2 ^ n → ∀ d : Nat, (d : Int) = ((a : Int) - b) % (2 ^ n : Nat) →
    (d = 0 → serial n a b = .equal) ∧ (1 ≤ d → d ≤ 2 ^ (n - 1) - 1 → serial n a b = .later) ∧
    (d = 2 ^ (n - 1) → serial n a b = .ambiguous) ∧ (2 ^ (n - 1) + 1 ≤ d → d ≤ 2 ^ n - 1 → serial n a b = .earlier)

/-- For k > 0 the right shift of x by k is the integer q with (q - 1) 2^k + 2^(k-1) <= x < q 2^k + 2^(k-1); a value exactly half-way rounds up; -2.5
becomes -2 and 2.5 becomes 3. (R7) -/
def Obligations.RoundingTakesHalvesUp : Prop :=
  (∀ (x : Int) (k : Nat), 0 < k → (rshift x k - 1) * (2 ^ k : Nat) + (2 ^ (k - 1) : Nat) ≤ x ∧ x < rshift x k * (2 ^ k : Nat) + (2 ^ (k - 1) : Nat)) ∧
  (∀ (x : Int) (k : Nat), 0 < k → rshift (x * (2 ^ k : Nat) + (2 ^ (k - 1) : Nat)) k = x + 1) ∧
  rshift (-5) 1 = -2 ∧ rshift 5 1 = 3

/-- At reset each register page grants read and write to the host (0x080), each namespace to master 0x082, and no other entry grants anything; all windows
are off; every I/O queue pair 1 to 512 is bound to master 0x082, so that it reaches every namespace. While LOCK is 0 a write of TBL_DATA or QPB_DATA
by the boot ROM's master changes the selected sixteen entries or the selected binding, and leaves the other table and the registers as they were.
(R53) -/
def Obligations.ResetTables : Prop :=
  (∀ page, page < 0x100 → State.reset.gthEntry page 0x080 = 3) ∧
  (∀ ns, ns < 16 → State.reset.gthEntry (0x110 + ns) 0x082 = 3) ∧
  (∀ target master, target < 0x130 → master < 512 → master ≠ 0x080 → master ≠ 0x082 → State.reset.gthEntry target master = 0) ∧
  (∀ unit, State.reset.windowsOf unit = []) ∧
  (∀ q, 1 ≤ q → q ≤ 512 → State.reset.queueMaster q = 0x082 ∧
    ∀ ns isWrite, ns < 16 → State.reset.grants (0x110 + ns) (State.reset.queueMaster q) isWrite = true) ∧
  (∀ (s : State) (v : Word) (target word q : Nat), s.locked = false → target = Fld.GTH.TBL_SEL_TARGET s.regs → word = Fld.GTH.TBL_SEL_WORD s.regs →
    q = Fld.GTH.QPB_SEL s.regs →
    (target < 0x130 → Completes (.registerWrite 1 0x02 0x048 v) s (fun t => (∀ i, i < 16 → t.gthEntry target (16 * word + i) = bits v.toNat (2 * i) 2) ∧
      t.qpb = s.qpb ∧ t.regs = s.regs)) ∧
    (1 ≤ q → q ≤ 512 → Completes (.registerWrite 1 0x02 0x058 v) s (fun t => t.queueMaster q = v.toNat % 512 ∧ t.gth = s.gth ∧ t.regs = s.regs)))

/-- At reset the interrupt and admission invariants hold, DRAM has its canonical form, the Gatehouse is not locked, no fault is held, no cause is
recorded, nothing waits, every register has its reset value, PWR_BUDGET is 55,000 mW and no implemented page is enabled. The values of registers
without a stated reset value are the model's choice. Model's choices and readings: entry 9, entry 10, entry 3 of the log. (R59, R70, R74, R53) -/
def Obligations.ResetState : Prop :=
  InterruptsSettled State.reset ∧ AdmissionSound State.reset ∧ Memory.wf State.reset.dram = true ∧ State.reset.locked = false ∧ State.reset.held = [] ∧
  State.reset.records = [] ∧ State.reset.pending = [] ∧ (∀ a, State.reset.regs.word a = resetWord a) ∧
  State.reset.rd Adr.TRL.PWR_BUDGET = 0xD6D8 ∧ (∀ p, implemented p = true → State.reset.enabled p = false)

/-- While group g is pending, a write of UPD_MODE, UPD_TIME_LO or UPD_TIME_HI of g, as its own command or as a register write from any of the masters
0x000 to 0x03F, changes nothing, and so does arming groups that are all pending. At reset every group is IMMEDIATE and every page is bound to group 0.
(R45) -/
def Obligations.PendingGroupsKeepTheirSettings : Prop :=
  ∀ (s : State) (g : Fin 16),
    (∀ (r : UpdReg) (v : Word), s.groupPending g = true → Does (.updConfigWrite g r v) s s) ∧
    (∀ m (v : Word), m < 0x40 → s.groupPending g = true → Does (.registerWrite m 0 (0x80 + 0x10 * g) v) s s ∧
      Does (.registerWrite m 0 (0x84 + 0x10 * g) v) s s ∧ Does (.registerWrite m 0 (0x88 + 0x10 * g) v) s s) ∧
    (∀ m : BitVec 16, (∀ k, k < 16 → bitOf m.toNat k = true → s.groupPending k = true) → Does (.updArm m) s s) ∧
    State.reset.updMode g = 0 ∧ (∀ p, implemented p = true → Fld.HDR.UPD_GROUP State.reset.regs p = 0)

/-- UPD_ARM marks a group armed: IMMEDIATE makes it due at once, the event modes wait, SCHEDULED is placed by the serial comparison of its time with the
present; a mask arms its groups in order; arming a pending group does nothing. UPD_CANCEL drops the named groups and keeps the shadows. UPD_GROUP_BIND
and UPD_CONFIG_WRITE write their fields unless pending. Applying makes the shadowed words of the bound pages active and leaves every other word; for
pages without parts of their own GROUP_APPLY is exactly this. Model's choices and readings: entry 12, entry 39 of the log. (R30, R38, R42, R43, R44,
R45) -/
def Obligations.UpdateGroupsReachTheirApplyPoint : Prop :=
  (∀ (s : State) (g : Fin 16),
    (s.groupPending g = true → Does (.updArm (BitVec.twoPow 16 g)) s s) ∧
    (s.groupPending g = false → s.updMode g = 0 → Does (.updArm (BitVec.twoPow 16 g)) s ((s.markArmed g).makeDue g)) ∧
    (s.groupPending g = false → s.updMode g = 1 ∨ s.updMode g = 2 ∨ s.updMode g = 3 → Does (.updArm (BitVec.twoPow 16 g)) s (s.markArmed g)) ∧
    (s.groupPending g = false → s.updMode g = 4 →
      Does (.updArm (BitVec.twoPow 16 g)) s ((s.markArmed g).placeScheduled g (serial 40 (s.updTime g) s.now))) ∧
    (∀ m : BitVec 16, Does (.updArm m) s (((List.range 16).filter (bitOf m.toNat)).foldl State.armGroup s)) ∧
    (∀ m : BitVec 16, Completes (.updCancel m) s (fun t =>
      t.due = s.due.filter (fun g => !(decide (g < 16) && bitOf m.toNat g)) ∧
      t.scheduled = s.scheduled.filter (fun g => !(decide (g < 16) && bitOf m.toNat g)) ∧ t.shadow = s.shadow ∧ SameRegsBut [Adr.GLB.UPD_PEND] s t)) ∧
    Completes (.updCancel (BitVec.twoPow 16 g)) s (fun t => t.groupPending g = false)) ∧
  (∀ (s : State) (g : Fin 16),
    (∀ page, page < 256 → Does (.updGroupBind page g) s
      (if implemented page = true ∧ s.pagePending page = false then s.setFld (Adr.HDR.PG_CTL page) 4 4 g else s)) ∧
    (∀ (r : UpdReg) (v : Word), s.groupPending g = true → Does (.updConfigWrite g r v) s s) ∧
    (∀ v : Word, s.groupPending g = false →
      Completes (.updConfigWrite g .mode v) s (fun t => Fld.GLB.UPD_MODE_MODE t.regs g = bits v.toNat 0 3 ∧
        Fld.GLB.UPD_MODE_INDEX t.regs g = bits v.toNat 8 8 ∧ SameRegsBut [Adr.GLB.UPD_MODE g] s t ∧ t.due = s.due) ∧
      Does (.updConfigWrite g .timeLo v) s (s.setReg (Adr.GLB.UPD_TIME_LO g) v.toNat) ∧
      Does (.updConfigWrite g .timeHi v) s (s.setReg (Adr.GLB.UPD_TIME_HI g) (v.toNat % 256)))) ∧
  (∀ s : State,
    (∀ (pages : List Nat) (a : RegAddr), (s.applyShadows pages).regs.word a =
      if pages.contains (a / 4096) = true then BitVec.ofNat 32 (shadowedWord s.regs s.shadow a) else s.regs.word a) ∧
    ((∀ p ∈ s.boundPages s.due, p ∈ [0x00, 0x01, 0x02, 0x03, 0x04, 0x06, 0x11, 0x13, 0x19, 0x28, 0x2A, 0x30, 0x31, 0x34, 0x44, 0x45, 0x46, 0x47, 0x48, 0x54]) →
      Does .groupApply s (s.due.foldl State.startDeferred
        ((s.due.foldl (fun u g => u.setFld Adr.GLB.UPD_PEND g 1 0) ({ s with due := [] } : State)).applyShadows (s.boundPages s.due)))))

/-- KSK_SEL captures the selected data at once into the bank of its master, shows BUSY and, for a selector without data, NOSEL; other banks and pages,
registers and DRAM stay. KIOSK_SNAPSHOT_DONE makes a busy snapshot valid and does nothing otherwise. GTH_LOCK sets LOCK on bit 0 and never clears it;
REF_RESTART zeroes REF_COUNT; CNT_RESTART zeroes the named counters of the Dovecote and of the encoder's contexts and leaves the others. (R4, R47,
R48, R52, R53, R367) -/
def Obligations.KioskAndRestartCommands : Prop :=
  (∀ (s : State) (b : Bank) (page : Nat), page < 256 → implemented page = true →
    (∀ sel, sel < 256 → Completes (.kioskSelect b page sel) s (fun t =>
      t.kioskOf b page = { echo := sel, valid := false, busy := true, nosel := (s.kioskData page sel).isNone, data := (s.kioskData page sel).getD [] } ∧
      (sel = 0 → (t.kioskOf b page).nosel = true) ∧
      (∀ b' p', (b', p') ≠ (b, page) → t.kioskOf b' p' = s.kioskOf b' p') ∧ t.regs = s.regs ∧ t.dram = s.dram)) ∧
    ((s.kioskOf b page).busy = true → Does (.kioskSnapshotDone b page) s
      (s.setKiosk b page { s.kioskOf b page with valid := true, busy := false })) ∧
    ((s.kioskOf b page).busy = false → Does (.kioskSnapshotDone b page) s s)) ∧
  (∀ s : State,
    (∀ v : Word, Does (.gthLock v) s (if bitOf v.toNat 0 = true then s.setReg Adr.GTH.LOCK 1 else s)) ∧
    Does .refRestart s (s.setReg Adr.GTH.REF_COUNT 0) ∧
    (∀ m : Word, Does (.cntRestart 0x05 m) s ((s.setReg Adr.DOV.CAL_REJECT 0).setReg Adr.DOV.OVERRUN 0)) ∧
    (∀ (m : Word) (n : Fin 4) (a : RegAddr), a = Adr.EBE.RING_FULL n ∨ a = Adr.EBE.WRITE_ERR n → Completes (.cntRestart 0x14 m) s (fun t =>
      (bitOf m.toNat n = true → t.rd a = 0) ∧ (bitOf m.toNat n = false → t.rd a = s.rd a) ∧ t.shadow = s.shadow ∧ t.dram = s.dram)))

/-- For every master and every word of the GTH page: while LOCK is 1 a register write leaves the grant table, the queue bindings, LOCK, the bounds of
every window, F0_MID and ADM_MID as they were. (R53) -/
def Obligations.LockHoldsTheGatehouse : Prop :=
  ∀ (s : State) (master off : Nat) (v : Word), master < 512 → off < 4096 → off % 4 = 0 → s.locked = true →
    Completes (.registerWrite master 0x02 off v) s (fun t => t.gth = s.gth ∧ t.qpb = s.qpb ∧ t.locked = true ∧
      (∀ n, n < 16 → Fld.GTH.WIN_BASE t.regs n = Fld.GTH.WIN_BASE s.regs n ∧ Fld.GTH.WIN_LIMIT t.regs n = Fld.GTH.WIN_LIMIT s.regs n) ∧
      Fld.GTH.F0_MID t.regs = Fld.GTH.F0_MID s.regs ∧ Fld.GTH.ADM_MID t.regs = Fld.GTH.ADM_MID s.regs)

/-- FAULT_REPORT takes the oldest report. One whose cause has a record updates last time and reporter, counts with saturation and replaces CLASS UPSTREAM
by the code of the cause's own unit; a new cause takes a free slot, COUNT 1 and FRESH; with no slot FC_OVERFLOW counts it once per cause. RETIRE frees
the selected record and clears the event faults of its cause, and only these; RETIRE_ALL does so for all; RESTART_OVERFLOW zeroes the counter only.
Model's choices and readings: entry 18 of the log. (R55, R56, R57, R58, R374) -/
def Obligations.FaultCollector : Prop :=
  (∀ s : State,
    (s.reports = [] → Does .faultReport s s) ∧
    (∀ r rest, s.reports = r :: rest → Does .faultReport s (({ s with reports := rest } : State).collect r)) ∧
    (∀ (r : Report) n rec, s.records.find? (fun e => e.2.cause == r.cause) = some (n, rec) →
      (s.collect r).records = SMap.put s.records n {
        cause := rec.cause, cls := if rec.cls = 0x01 ∧ r.unit = r.cause then r.code else rec.cls,
        firstTime := rec.firstTime, lastTime := r.time, firstReporter := rec.firstReporter, lastReporter := r.unit, count := satInc 16 rec.count,
        fresh := rec.fresh } ∧ (s.collect r).regs = s.regs ∧ (s.collect r).outbox = s.outbox) ∧
    (∀ (r : Report) n, s.records.find? (fun e => e.2.cause == r.cause) = none → freeSlot s.records = some n →
      (s.collect r).records = SMap.put s.records n {
        cause := r.cause, cls := if r.unit = r.cause then r.code else 0x01, firstTime := r.time,
        lastTime := r.time, firstReporter := r.unit, lastReporter := r.unit, count := 1, fresh := true } ∧ (s.collect r).held = s.held) ∧
    (∀ r : Report, s.records.find? (fun e => e.2.cause == r.cause) = none → freeSlot s.records = none →
      (s.collect r).records = s.records ∧ (s.lost.contains r.cause = false → (s.collect r).rd Adr.LDG.FC_OVERFLOW = satInc 32 (s.rd Adr.LDG.FC_OVERFLOW)))) ∧
  (∀ s : State,
    (∀ n rec, s.records.find? (fun e => e.1 == Fld.LDG.FC_SLOT s.regs) = some (n, rec) → Completes .retire s (fun t =>
      t.records = SMap.del s.records n ∧ (∀ h, h ∈ t.held ↔ h ∈ s.held ∧ ¬ (h.event = true ∧ h.cause = rec.cause)) ∧
      Fld.LDG.FC_STAT_USED t.regs = (SMap.del s.records n).length % 512 ∧ t.dram = s.dram)) ∧
    (s.records.find? (fun e => e.1 == Fld.LDG.FC_SLOT s.regs) = none → Does .retire s s) ∧
    Completes .retireAll s (fun t => t.records = [] ∧ (∀ h, h ∈ t.held ↔ h ∈ s.held ∧ h.event = false) ∧
      Fld.LDG.FC_STAT_USED t.regs = 0 ∧ Fld.LDG.FC_STAT_FULL t.regs = 0) ∧
    Completes .restartOverflow s (fun t => t.rd Adr.LDG.FC_OVERFLOW = 0 ∧ t.records = s.records ∧ t.held = s.held))

/-- A write of a reserved page changes nothing; a write refused while isolated is counted, reported and changes nothing else. A write of an Icehouse
register (but TM_CMD at 0x0C8) changes exactly its writable bits and the shadow of its shadowed bits, and no other register. A write of PG_CTL while
the page is pending changes HOLD and the shadow of ENABLE and not UPD_GROUP; a write that ends HOLD of the Dovecote or the Boathouse also takes up the
conversions, or the frames and fetches, that waited. A narrow write by any master that is not refused stores in an ordinary register some undefined
word under the same masks and changes no other register; of KSK_SEL, of a command register and of a reserved page it changes nothing; of a window's
bounds it changes no grant table, no binding and no budget. Model's choices and readings: entry 13, entry 174 of the log. (R3, R5, R6, R36, R38, R42,
R334) -/
def Obligations.RegisterAndNarrowWrites : Prop :=
  (∀ (s : State) (master : Nat) (v : Word), master < 512 →
    (∀ page off, page < 256 → off < 4096 → off % 4 = 0 → implemented page = false → s.refusesRemote master page off = false →
      Does (.registerWrite master page off v) s s) ∧
    (∀ page off, page < 256 → off < 4096 → off % 4 = 0 → s.refusesRemote master page off = true →
      Completes (.registerWrite master page off v) s (fun t => t.rd Adr.HIE.REFUSED = satInc 32 (s.rd Adr.HIE.REFUSED) ∧
        SameRegsBut [Adr.HIE.REFUSED] s t ∧ t.shadow = s.shadow ∧ t.dram = s.dram ∧
        { page := 0x54, cause := 0x541, code := 0x21, event := true, unit := 0x541 } ∈ t.held)) ∧
    (∀ off, 0x40 ≤ off → off < 4096 → off % 4 = 0 → off ≠ 0xC8 → s.refusesRemote master 0x04 off = false →
      Completes (.registerWrite master 0x04 off v) s (fun t =>
        (t.regs.word (0x4000 + off)).toNat = mergeBits (s.rd (0x4000 + off)) (rwMaskOf (0x4000 + off)) v.toNat ∧
        (t.shadow.word (0x4000 + off)).toNat = mergeBits (s.shadow.word (0x4000 + off)).toNat (shMaskOf (0x4000 + off)) v.toNat ∧
        SameRegsBut [0x4000 + off] s t ∧ t.dram = s.dram ∧ t.gth = s.gth)) ∧
    (∀ page, implemented page = true → s.refusesRemote master page 0x008 = false → s.pagePending page = true →
      (page ≠ 0x05 ∧ page ≠ 0x30) ∨ s.holding page = false ∨ bits v.toNat 1 1 = 1 →
      Completes (.registerWrite master page 0x008 v) s (fun t =>
        Fld.HDR.HOLD t.regs page = bits v.toNat 1 1 ∧ t.shadow.fld (Adr.HDR.PG_CTL page) 0 1 = bits v.toNat 0 1 ∧
        Fld.HDR.ENABLE t.regs page = Fld.HDR.ENABLE s.regs page ∧ Fld.HDR.UPD_GROUP t.regs page = Fld.HDR.UPD_GROUP s.regs page ∧
        SameRegsBut [Adr.HDR.PG_CTL page] s t)) ∧
    (∀ page (u : State), page = 0x05 ∧ u = (s.setFld (Adr.HDR.PG_CTL 0x05) 1 1 0).feedSlices ∨
        page = 0x30 ∧ u = (s.setFld (Adr.HDR.PG_CTL 0x30) 1 1 0).bthResume →
      s.refusesRemote master page 0x008 = false → s.holding page = true → bits v.toNat 1 1 = 0 →
      Does (.registerWrite master page 0x008 v) s
        (updGroupBind page (bits v.toNat 4 4) { u with shadow := u.shadow.putFld (Adr.HDR.PG_CTL page) 0 1 (bits v.toNat 0 1) }))) ∧
  (∀ (s : State) (master : Nat), master < 512 → (∀ page off, s.refusesRemote master page off = false) →
    (∀ page off, page < 256 → off < 4096 → off % 4 = 0 → implemented page = false ∨ off = 0x020 → Does (.narrowWrite ⟨master, page⟩ off) s s) ∧
    Does (.narrowWrite ⟨master, 0x04⟩ 0x0C8) s s ∧
    (∀ page, implemented page = true →
      Completes (.narrowWrite ⟨master, page⟩ 0x018) s (fun t => ∃ w : Word,
        (t.regs.word (page * 4096 + 0x018)).toNat = mergeBits (s.rd (page * 4096 + 0x018)) (rwMaskOf (page * 4096 + 0x018)) w.toNat ∧
        SameRegsBut [page * 4096 + 0x018] s t ∧ t.shadow = s.shadow ∧ t.dram = s.dram)) ∧
    (∀ off, 0x40 ≤ off → off < 4096 → off % 4 = 0 → off ≠ 0xC8 → Completes (.narrowWrite ⟨master, 0x04⟩ off) s (fun t =>
        (∃ w : Word, (t.regs.word (0x4000 + off)).toNat = mergeBits (s.rd (0x4000 + off)) (rwMaskOf (0x4000 + off)) w.toNat ∧
          (t.shadow.word (0x4000 + off)).toNat = mergeBits (s.shadow.word (0x4000 + off)).toNat (shMaskOf (0x4000 + off)) w.toNat) ∧
        SameRegsBut [0x4000 + off] s t ∧ t.dram = s.dram)) ∧
    (∀ i : Nat, i < 6 → Completes (.narrowWrite ⟨master, 0x02⟩ (0x060 + 8 * i)) s (fun t => t.gth = s.gth ∧ t.qpb = s.qpb ∧ t.dram = s.dram ∧ t.trl = s.trl)))

/-- While no clock domain is stopped: a granted transaction to DRAM that nothing holds up: a write makes its bytes the ones at the address, leaves every
other byte, keeps memory canonical and answers without an error; a read with no bit error, or one served whole from writes that still wait in the
channel's queue, answers the bytes at the address and changes no byte; an uncorrectable beat under error correction answers zeros, names its channel
unless the access came through PCIe, counts in UE and reports 0x03; one that the memory controller turns down changes no byte, answers zeros to a
read, names the failing unit unless it came through PCIe, and reports OUT_OF_RANGE for an address beyond CAPACITY. Model's choices and readings: entry
29, entry 3, entry 35, entry 25 of the log. (R21, R22, R23, R286, R293, R295, R369) -/
def Obligations.DramTransactionsMoveTheirBytes : Prop :=
  ∀ (s : State) (t : Txn) (addr : Nat), t.wellFormed = true → t.target = .dram addr → s.stalls t = false → t.flow = none → s.quantaOf t = 0 →
    s.trl.beOps = [] → s.mem.waiting = [] → s.grantsTxn t = true →
    (s.dramError addr = none → s.room t addr = true → t.isWrite = true → Completes (.transaction t) s (fun u =>
      u.dramRead addr t.data.length = t.data ∧ SameBytesBut addr (32 * t.beats) s u ∧ (Memory.wf s.dram = true → Memory.wf u.dram = true) ∧ ∃ out, u.outbox = s.outbox ++ .response t.master [] none :: out)) ∧
    (s.dramError addr = none → s.room t addr = true → t.isWrite = false → (∀ e ∈ t.ecc, e = .none) → Completes (.transaction t) s (fun u =>
      u.dram = s.dram ∧ ∃ out, u.outbox = s.outbox ++ .response t.master (s.dramRead addr (32 * t.beats)) none :: out)) ∧
    (s.dramError addr = none → s.room t addr = true → t.isWrite = false → s.fromDevices addr t.beats = [] → Completes (.transaction t) s (fun u =>
      u.dram = s.dram ∧ u.regs = s.regs ∧ ∃ out, u.outbox = s.outbox ++ .response t.master (s.dramRead addr (32 * t.beats)) none :: out)) ∧
    (∀ ch, s.dramError addr = none → s.room t addr = true → t.isWrite = false → t.beats = 1 → t.ecc = [.uncorrectable] → s.fromDevices addr 1 = [0] →
      s.linkEcc = true ∨ s.inlineEcc = true → (s.channelOf addr).1 = ch → ch < 16 → Completes (.transaction t) s (fun u => u.dram = s.dram ∧
        u.rd (Adr.MC.UE (ch / 4) (ch % 4)) = satInc 32 (s.rd (Adr.MC.UE (ch / 4) (ch % 4))) ∧
        { page := channelUnit ch / 16, cause := channelUnit ch, code := 0x03, event := true, unit := channelUnit ch } ∈ u.held ∧
        ∃ out, u.outbox = s.outbox ++ .response t.master (List.replicate 32 0) (if t.viaPcie then none else some (channelUnit ch)) :: out)) ∧
    (∀ unit, s.dramError addr = some unit → Completes (.transaction t) s (fun u => u.dram = s.dram ∧
      (unit = 0x480 → { page := 0x48, cause := 0x480, code := 0x22, event := true, unit := 0x480 } ∈ u.held) ∧
      ∃ out, u.outbox = s.outbox ++
        .response t.master (if t.isWrite then [] else List.replicate (32 * t.beats) 0) (if t.viaPcie then none else some unit) :: out))

/-- An access that the Gatehouse does not grant changes no byte, saves master and direction in REF_INFO, counts in REF_COUNT, reports REFUSED on the sub-
unit of its target, and answers an error with zeros; no other register changes. DOMAIN_CLOCK_STOP marks exactly its domain. A transaction, or any
other command that passes an edge of a stopped domain, waits and changes nothing else. DOMAIN_CLOCK_RETURN runs the domain again and takes what waited
in the order of arrival. With no domain stopped no command waits at an edge. Model's choices and readings: entry 27, entry 35 of the log. (R17, R18,
R22, R51, R52) -/
def Obligations.RefusalsAndStoppedDomains : Prop :=
  (∀ (s : State) (t : Txn), t.wellFormed = true → s.stalls t = false → s.filtersTxn t = false → s.grantsTxn t = false → Completes (.transaction t) s (fun u =>
    Fld.GTH.REF_INFO_MASTER u.regs = t.master ∧ Fld.GTH.REF_INFO_DIR u.regs = b2n t.isWrite ∧
    u.rd Adr.GTH.REF_COUNT = satInc 32 (s.rd Adr.GTH.REF_COUNT) ∧ SameRegsBut [Adr.GTH.REF_INFO, Adr.GTH.REF_COUNT] s u ∧ u.dram = s.dram ∧
    (∀ addr, t.target = .dram addr → { page := 0x02, cause := 0x022, code := 0x02, event := true, unit := 0x022 } ∈ u.held) ∧
    (∀ page off, t.target = .reg page off → { page := 0x02, cause := 0x021, code := 0x02, event := true, unit := 0x021 } ∈ u.held) ∧
    ∃ out sub, u.outbox = s.outbox ++
      .response t.master (if t.isWrite then [] else List.replicate (txnSize t) 0) (if t.viaPcie then none else some sub) :: out)) ∧
  (∀ (s : State) (d : ClockDomain),
    Completes (.domainClockStop d) s (fun t => d ∈ t.stopped ∧ (∀ e, e ∈ t.stopped ↔ e ∈ s.stopped ∨ e = d) ∧ t.stalled = s.stalled ∧ t.regs = s.regs ∧ t.dram = s.dram) ∧
    (s.stalled = [] → Completes (.domainClockReturn d) s (fun t => d ∉ t.stopped ∧ (∀ e, e ≠ d → (e ∈ t.stopped ↔ e ∈ s.stopped)) ∧ t.stalled = [] ∧
      t.regs = s.regs ∧ t.dram = s.dram)) ∧
    Does (.domainClockReturn d) s (s.stalled.foldl resume { s with stopped := s.stopped.filter (fun x => decide (x ≠ d)), stalled := [] }) ∧
    (∀ t : Txn, s.stalled = [.transaction t] → Does (.domainClockReturn d) s
      (transaction t { s with stopped := s.stopped.filter (fun x => decide (x ≠ d)), stalled := [] })) ∧
    (∀ t : Txn, t.wellFormed = true → d ∈ s.txnDomains t → d ∈ s.stopped →
      Does (.transaction t) s { s with stalled := s.stalled ++ [.transaction t] }) ∧
    (∀ c : Instr, c.wellFormed = true → d ∈ s.edgesOf c → d ∈ s.stopped → Does c s { s with stalled := s.stalled ++ [c] }) ∧
    (∀ (c : Instr) (u : State), s.stopped = [] → throughEdge c s u = u))

/-- Below the fused limit, MANAGEMENT_ROUND is the Dovecote's, Icehouse's, speed, servo and hierarchy steps, the rise of the epoch by the workers that
entered REJOINING, and the repeated reports, in this order. The epoch rises on a manager only, by that number modulo 2^16. The speed index is stored,
and SPEED_BELOW_CORNER holds exactly below 0x0100. Every condition fault held before and after is reported again with the present time. With no RESYNC
and no overflow the programmable and the fused copy of the model take one step, each node's level is the pause level of its new temperature, and
THERMAL holds exactly when some node has reached WARN. Model's choices and readings: entry 19, entry 183 of the log. (R16, R55, R63, R313, R314, R315) -/
def Obligations.RoundsAndTemperatures : Prop :=
  (∀ (s : State) (r : RoundSample), Instr.wellFormed (.managementRound r) = true →
    (∀ u : State, u = ((((s.dovRound r.refDev).iceRound).speedRound r.speedIndex).servoRound.hierarchyRound r.mgrAlive).raiseEpochs r.rejoins →
      (({ u with mem := { u.mem with trefi := r.trefi } } : State).rereport s.held).fusedCrossing = none →
      Does (.managementRound r) s (({ u with mem := { u.mem with trefi := r.trefi } } : State).rereport s.held)) ∧
    (∀ u : State, (u.speedRound r.speedIndex).rd Adr.TRL.SPEED = r.speedIndex ∧
      ({ page := 0x03, cause := 0x030, code := 0x20, event := false, unit := 0x030 } ∈ (u.speedRound r.speedIndex).held ↔ r.speedIndex < 0x0100)) ∧
    (∀ (u : State) (before : List Held), (∀ h ∈ u.held, h.event = false → h ∈ before → ∃ rep ∈ (u.rereport before).reports,
        rep.unit = h.unit ∧ rep.cause = h.cause ∧ rep.code = h.code ∧ rep.time = u.now) ∧ (u.rereport before).held = u.held) ∧
    (∀ (u : State) (n : Nat), (u.hie = 2 → 0 < n → Fld.HIE.EPOCH (u.raiseEpochs n).regs = (Fld.HIE.EPOCH u.regs + n) % 2 ^ 16) ∧
      (u.hie ≠ 2 ∨ n = 0 → u.raiseEpochs n = u))) ∧
  (∀ s : State, s.iceResync = false →
    (∀ n, n < 5 → (-(2 ^ 31 : Int) ≤ nth 0 (iceStep s.iceParams s.nodePower s.temps) n ∧ nth 0 (iceStep s.iceParams s.nodePower s.temps) n < 2 ^ 31) ∧
      (-(2 ^ 31 : Int) ≤ nth 0 (iceStep fusedParams s.nodePower s.fusedTemps) n ∧ nth 0 (iceStep fusedParams s.nodePower s.fusedTemps) n < 2 ^ 31)) →
    s.iceRound.temps = iceStep s.iceParams s.nodePower s.temps ∧ s.iceRound.fusedTemps = iceStep fusedParams s.nodePower s.fusedTemps ∧
    (∀ n, n < 4 → bits (s.iceRound.rd Adr.ICE.LEVEL) (8 * n) 8 =
      pauseLevel (Fld.ICE.THR_CFG_START s.regs) (Fld.ICE.THR_CFG_SLOPE s.regs) (Fld.ICE.THR_CFG_MAX s.regs) (nth 0 s.iceRound.temps n) % 256) ∧
    ({ page := 0x04, cause := 0x041, code := 0x09, event := false, unit := 0x041 } ∈ s.iceRound.held ↔
      ∃ t ∈ s.iceRound.temps, (Fld.ICE.WARN s.regs : Int) * 65536 ≤ t))

/-- For every state in which, on each resource an ADMITTED entry uses, the summed costs are within the capacity of the operating point, the admitted power
is within PWR_BUDGET, and the budget and a move in progress are legal: whichever of ADMIT, RELEASE, OP_REQ, VSETTLE_EXPIRY, PWR_BUDGET_WRITE and
BE_ALLOWANCE_WRITE executes, the same is true afterwards. (R15, R29, R64, R70, R71, R73, R74, R77) -/
def Obligations.AdmissionNeverOvercommits : Prop :=
  ∀ (s t : State) (c : Instr), AdmissionSound s →
    (∃ b, c = .admitFlow b) ∨ (∃ b, c = .release b) ∨ (∃ op, c = .opReq op) ∨ c = .vsettleExpiry ∨ (∃ v, c = .pwrBudgetWrite v) ∨
      (∃ r v, c = .beAllowanceWrite r v) →
    exec c s = .next t → AdmissionSound t

/-- The check of an entry finds no reason exactly when no pair is bad, every pair's cost added to the use of its resource is within its capacity and the
power is within the budget. ADMIT then makes the entry ADMITTED and ADM_STAT 0; otherwise REFUSED, with reason and resource in ADM_STAT. RELEASE of an
entry whose owner is active is refused and changes no entry; otherwise the entry becomes FREE. No other entry, register or byte of DRAM changes.
Model's choices and readings: entry 23 of the log. (R64, R69, R70, R71, R72) -/
def Obligations.AdmitAndReleaseDecide : Prop :=
  ∀ (s : State) (b : Bank),
    (∀ f : Flow, (s.admitCheck f).1 = .none ↔ f.badPair = none ∧ (∀ c ∈ f.pairs, s.used c.1 + c.2 ≤ s.cap c.1) ∧
      s.pwrUsed + f.power s.trl.opPower ≤ Fld.TRL.PWR_BUDGET s.regs) ∧
    ((s.flow (s.flowSel b)).st ≠ .admitted → (s.admitCheck (s.flow (s.flowSel b))).1 = .none → Completes (.admitFlow b) s (fun t =>
      (t.flow (s.flowSel b)).st = .admitted ∧ (t.flow (s.flowSel b)).costs = (s.flow (s.flowSel b)).costs ∧
      (∀ i, i ≠ s.flowSel b → t.flow i = s.flow i) ∧ t.rd Adr.TRL.ADM_STAT = 0 ∧ SameRegsBut [Adr.TRL.ADM_STAT] s t ∧ t.dram = s.dram)) ∧
    ((s.flow (s.flowSel b)).st ≠ .admitted → (s.admitCheck (s.flow (s.flowSel b))).1 ≠ .none → Completes (.admitFlow b) s (fun t =>
      (t.flow (s.flowSel b)).st = .refused ∧ (∀ i, i ≠ s.flowSel b → t.flow i = s.flow i) ∧
      t.rd Adr.TRL.ADM_STAT = ((s.admitCheck (s.flow (s.flowSel b))).1.code * 2 + (s.admitCheck (s.flow (s.flowSel b))).2 * 16) % 2 ^ 32 ∧
      SameRegsBut [Adr.TRL.ADM_STAT] s t)) ∧
    ((s.flow (s.flowSel b)).st = .admitted → s.ownerActive (s.flow (s.flowSel b)).owner = true → Completes (.release b) s (fun t =>
      t.trl = s.trl ∧ t.rd Adr.TRL.ADM_STAT = 8)) ∧
    ((s.flow (s.flowSel b)).st = .admitted → s.ownerActive (s.flow (s.flowSel b)).owner = false → Completes (.release b) s (fun t =>
      (t.flow (s.flowSel b)).st = .free ∧ (∀ i, i ≠ s.flowSel b → t.flow i = s.flow i) ∧ t.rd Adr.TRL.ADM_STAT = 0 ∧ SameRegsBut [Adr.TRL.ADM_STAT] s t))

/-- OP_REQ during a move does nothing; one under which an entry no longer fits shows that entry and resource; a move up drives VSEL, sets BUSY and
completes at VSETTLE_EXPIRY; a move down completes at once. PWR_BUDGET takes only values from 20,000 to 55,000 mW not below the admitted power.
BE_SLOTS outside 1 to 32 and BE_PATIENCE below 4 change nothing; an accepted value is stored; and room for a new allowance means that every resource
that holds it stays within its capacity. Model's choices and readings: entry 23, entry 24 of the log. (R29, R73, R74, R77, R338, R377) -/
def Obligations.OperatingPointAndBudgets : Prop :=
  (∀ (s : State) (op : Fin 4),
    (Fld.TRL.OP_STAT_BUSY s.regs = 1 → Does (.opReq op) s s) ∧
    (Fld.TRL.OP_STAT_BUSY s.regs ≠ 1 → op.val ≠ Fld.TRL.OP_CUR s.regs → ∀ i r, s.opCheck op [] s.admitted = some (i, r) →
      Does (.opReq op) s (s.setReg Adr.TRL.OP_STAT (2 + i * 2 ^ 8 + r * 2 ^ 16))) ∧
    (Fld.TRL.OP_STAT_BUSY s.regs ≠ 1 → Fld.TRL.OP_CUR s.regs < op.val → s.opCheck op [] s.admitted = none →
      bitOf (Fld.PMU.PWR_STAT_PG s.regs) 1 = true → Completes (.opReq op) s (fun t =>
        t.pwr.settling = some op.val ∧ t.trl.opPower = op.val ∧ Fld.TRL.OP_STAT_BUSY t.regs = 1 ∧ Fld.TRL.OP_CUR t.regs = Fld.TRL.OP_CUR s.regs ∧
        Fld.PMU.VSEL_CUR t.regs = op.val ∧ Fld.PMU.VSEL_SETTLED t.regs = 0 ∧ ∃ out, t.outbox = s.outbox ++ .vsel op.val :: out)) ∧
    (Fld.TRL.OP_STAT_BUSY s.regs ≠ 1 → op.val < Fld.TRL.OP_CUR s.regs → s.opCheck op [] s.admitted = none →
      bitOf (Fld.PMU.PWR_STAT_PG s.regs) 1 = true → Completes (.opReq op) s (fun t =>
        Fld.TRL.OP_CUR t.regs = op.val ∧ t.trl.opPower = op.val ∧ Fld.TRL.OP_STAT_BUSY t.regs = 0 ∧ Fld.PMU.VSEL_CUR t.regs = op.val ∧ t.dram = s.dram)) ∧
    (∀ o : Fin 4, s.pwr.settling = some o.val → Completes .vsettleExpiry s (fun t =>
      Fld.TRL.OP_CUR t.regs = o.val ∧ Fld.TRL.OP_STAT_BUSY t.regs = 0 ∧ Fld.PMU.VSEL_SETTLED t.regs = 1 ∧ t.pwr.settling = none ∧
      SameRegsBut [Adr.TRL.OP, Adr.TRL.OP_STAT, Adr.PMU.VSEL] s t ∧ t.trl = s.trl))) ∧
  (∀ (s : State) (v : Word),
    (20000 ≤ v.toNat % 2 ^ 16 ∧ v.toNat % 2 ^ 16 ≤ 55000 ∧ s.pwrUsed ≤ v.toNat % 2 ^ 16 →
      Does (.pwrBudgetWrite v) s (s.setReg Adr.TRL.PWR_BUDGET (v.toNat % 2 ^ 16))) ∧
    (¬ (20000 ≤ v.toNat % 2 ^ 16 ∧ v.toNat % 2 ^ 16 ≤ 55000 ∧ s.pwrUsed ≤ v.toNat % 2 ^ 16) → Does (.pwrBudgetWrite v) s s) ∧
    (v.toNat % 64 = 0 ∨ 32 < v.toNat % 64 → Does (.beAllowanceWrite .slots v) s s) ∧
    (1 ≤ v.toNat % 64 → v.toNat % 64 ≤ 32 → allowanceOf (v.toNat % 64) (Fld.TRL.BE_PATIENCE s.regs) ≤ s.allowance →
      Does (.beAllowanceWrite .slots v) s (s.setReg Adr.TRL.BE_SLOTS (v.toNat % 64))) ∧
    (v.toNat % 256 < 4 → Does (.beAllowanceWrite .patience v) s s) ∧
    (4 ≤ v.toNat % 256 → (allowanceOf (Fld.TRL.BE_SLOTS s.regs) (v.toNat % 256) ≤ s.allowance ∨
        s.roomForAllowance (allowanceOf (Fld.TRL.BE_SLOTS s.regs) (v.toNat % 256)) = true) →
      Does (.beAllowanceWrite .patience v) s (s.setReg Adr.TRL.BE_PATIENCE (v.toNat % 256))) ∧
    (∀ new r, s.roomForAllowance new = true → r < 0x24 → s.holdsAllowance r = true → s.used r - s.allowance + new ≤ s.cap r))

/-- Where its edges run, PATIENCE_EXPIRY of the Trellis serves the named party's oldest eligible operation, as urgent, when it has been eligible for
longer than BE_PATIENCE, and does nothing before that or without one. PAUSE_QUANTUM_EXPIRY takes one quantum; the last one makes the operation
eligible from now, and with the arbiter free it is served; an operation that has no room, and is not urgent, stays. A metered transaction that nothing
best-effort precedes is served at once. On a ready memory channel outside self-refresh whose debt has reached 8 the patience of refresh forces an all-
bank refresh: debt 7, repayment on, all rows closed, counted. A write past its patience is one that the channel serves as urgent. The Dovecote's
calibration patience restarts when CAL_WAIT has reached CAL_PATIENCE with no calibration ready and LP_EN 0, and does nothing otherwise. A burst of an
admitted flow has as many metered beats as its tokens cover, and takes just these; a flow whose bucket is empty and has had no time to refill meters
none. Model's choices and readings: entry 26, entry 22 of the log. (R28, R75, R77, R78, R79, R290) -/
def Obligations.ArbitersServeUrgently : Prop :=
  ∀ s : State,
    (∀ (party : Nat) (o : BeOp), party < 4096 → s.eligibleOf party = some o → s.pastPatience o = true → s.stopsAtEdge (.patienceExpiry .trellis party) = false →
      Does (.patienceExpiry .trellis party) s ((s.serveHeld o true).restartPatience 0 party)) ∧
    (∀ party : Nat, party < 4096 → s.eligibleOf party = none → Does (.patienceExpiry .trellis party) s s) ∧
    (∀ (party : Nat) (o : BeOp), party < 4096 → s.eligibleOf party = some o → s.pastPatience o = false →
      s.stopsAtEdge (.patienceExpiry .trellis party) = false → Does (.patienceExpiry .trellis party) s s) ∧
    (∀ o : BeOp, s.pastPatience o = true → Fld.TRL.BE_PATIENCE s.regs * 1000 < shortFwd o.eligible s.now) ∧
    (∀ (party : Nat) (o : BeOp), s.eligibleOf party = some o → o ∈ s.trl.beOps ∧ o.party = party ∧ o.quanta = 0) ∧
    (∀ (o : BeOp) (urgent : Bool), s.trl.beOps = [o] → urgent = true ∨ s.canServe o.txn = true →
      s.serveHeld o urgent = (({ s with trl := { s.trl with beOps := [] } } : State).serveTxn o.txn urgent).settleSlots) ∧
    (∀ (party : Nat) (o : BeOp) rest, party < 4096 → s.trl.beOps = o :: rest → o.party = party →
      Completes (.pauseQuantumExpiry party false) s (fun t =>
        t.trl.beOps = { o with quanta := o.quanta - 1, eligible := if o.quanta = 1 then s.now else o.eligible } :: rest ∧ t.dram = s.dram ∧ t.regs = s.regs)) ∧
    (∀ (party : Nat) (o o' : BeOp), party < 4096 → s.trl.beOps = [o] → o.party = party → o.quanta = 1 → s.txnStopped o.txn = false → o' = { o with quanta := 0, eligible := s.now } →
      Does (.pauseQuantumExpiry party true) s (({ s with trl := { s.trl with beOps := [o'] } } : State).settleSlots.serveHeld o' false)) ∧
    (∀ o : BeOp, s.canServe o.txn = false → s.serveHeld o false = s) ∧
    (∀ t : Txn, s.trl.beOps = [] → s.metered t = s.serveTxn t true) ∧
    (∀ ch : Fin 16, (s.chan ch).ready = true → s.mem.selfRefresh = false → 8 ≤ (s.chan ch).debt →
      s.stopsAtEdge (.patienceExpiry .refresh ch) = false → Completes (.patienceExpiry .refresh ch) s (fun t =>
      (t.chan ch).debt = 7 ∧ (t.chan ch).repay = true ∧ (t.chan ch).openRows = [] ∧ t.dram = s.dram ∧
      t.rd (Adr.MC.FORCED_REF (ch / 4) (ch % 4)) = satInc 32 (s.rd (Adr.MC.FORCED_REF (ch / 4) (ch % 4))))) ∧
    (s.dov.calReady = false → s.lpEn = false → s.calPatience ≤ Fld.DOV.CAL_STAT_CAL_WAIT s.regs → s.stopsAtEdge (.patienceExpiry .dovecoteCal 0) = false →
      Does (.patienceExpiry .dovecoteCal 0) s (s.restartPatience 4 0)) ∧
    (s.dov.calReady = true ∨ s.lpEn = true ∨ Fld.DOV.CAL_STAT_CAL_WAIT s.regs < s.calPatience → s.stopsAtEdge (.patienceExpiry .dovecoteCal 0) = false →
      Does (.patienceExpiry .dovecoteCal 0) s s) ∧
    (∀ (ch : Fin 16) (e : McEntry), (s.chan ch).ready = true → s.mem.selfRefresh = false → (s.chan ch).debt < 8 → (s.chan ch).repay = false →
      e ∈ (s.chan ch).writeQ → s.wrPatience (ch / 4) < shortFwd e.entered s.now → ∃ w, s.urgentWrite ch = some w ∧ w ∈ (s.chan ch).writeQ ∧
        s.wrPatience (ch / 4) < shortFwd w.entered s.now) ∧
    (∀ (i : Fin 128) (beats : Nat), (s.flow i).st = .admitted →
      (s.meter i beats).1 = min beats ((s.flow i).tokensAt s.now / 16000) ∧
      ((s.meter i beats).2.flow i).tokens + (s.meter i beats).1 * 16000 = (s.flow i).tokensAt s.now) ∧
    (∀ (i : Fin 128) (beats : Nat), (s.flow i).st = .admitted → (s.flow i).tokens = 0 → shortFwd (s.flow i).filled s.now = 0 → (s.meter i beats).1 = 0)

/-- TRAINING_START shows BUSY and notes its time, or fails every lane for a rate outside 800 to 6,000 Mb/s. TRAINING_DONE within 256 µs aligns the group
exactly when every lane has 8 or more eye taps and a marker within 8 words of lane 0's; an eye below 8, a lane without a result (named in LANE_FAIL)
or a later end fails. TAP_TRACK moves a used lane's tap one step toward the eye, within 0 to 63, and shows EYE_LOW; of an unused lane it does nothing.
SENSOR_CLOCK_LOSS of an aligned group ends alignment with LINK_DOWN. What they do not name stays. Model's choices and readings: entry 138 of the log.
(R80, R84, R85, R95) -/
def Obligations.TrainingDecidesAlignment : Prop :=
  ∀ (s : State) (g : Fin 4),
    ((s.grp g).running = false → Completes (.trainingStart (BitVec.twoPow 4 g)) s (fun t =>
      t.rd (Adr.SFL.DESKEW_STAT g) = (if Fld.SFL.RATE s.regs g < 800 ∨ 6000 < Fld.SFL.RATE s.regs g then 4 + (2 ^ s.laneCount g - 1) * 2 ^ 8 else 2) ∧
      t.aligned g = false ∧ SameRegsBut (Adr.SFL.DESKEW_STAT g :: (List.range 20).map (fun l => Adr.SFL.LANE_POS (20 * g + l))) s t ∧ t.sfe = s.sfe ∧
      t.trainFrom = SMap.put s.trainFrom g s.elapsed)) ∧
    (∀ found : List LaneFound, found.length ≤ 20 → Fld.SFL.DESKEW_STAT_BUSY s.regs g = 0 → Does (.trainingDone g found) s s) ∧
    (∀ (found : List LaneFound) (m0 : Int), found.length ≤ 20 → Fld.SFL.DESKEW_STAT_BUSY s.regs g = 1 → found.length = s.laneCount g → s.trainingLate g = false →
      (found.head?.bind (·.marker)) = some m0 →
      (∀ l ∈ found, 8 ≤ l.eyeTaps ∧ ∃ m, l.marker = some m ∧ -8 ≤ m - m0 ∧ m - m0 ≤ 8) → Completes (.trainingDone g found) s (fun t =>
        t.rd (Adr.SFL.DESKEW_STAT g) = 1 ∧ t.aligned g = true ∧
        { page := groupUnit g / 16, cause := groupUnit g, code := 0x06, event := false, unit := groupUnit g } ∉ t.held)) ∧
    (∀ found : List LaneFound, found.length ≤ 20 → Fld.SFL.DESKEW_STAT_BUSY s.regs g = 1 →
      (∃ l ∈ found.take (s.laneCount g), l.eyeTaps < 8) ∨ found.length < s.laneCount g ∨ s.trainingLate g = true →
      Completes (.trainingDone g found) s (fun t => t.aligned g = false ∧ Fld.SFL.DESKEW_STAT_FAIL t.regs g = 1 ∧ Fld.SFL.DESKEW_STAT_BUSY t.regs g = 0 ∧
        ∀ i, found.length ≤ i → i < s.laneCount g → bitOf (Fld.SFL.DESKEW_STAT_LANE_FAIL t.regs g) i = true)) ∧
    (∀ (l : Nat) (toward : Int) (eye : Nat), l < 20 → s.laneCount g ≤ l → Does (.tapTrack g l toward eye) s s) ∧
    (∀ (l : Nat) (toward : Int) (eye : Nat), l < 20 → l < s.laneCount g → s.aligned g = true → bitOf (Fld.SFL.TRACK_CTL_EN s.regs) g = true →
      Completes (.tapTrack g l toward eye) s (fun t =>
        ((Fld.SFL.LANE_POS_TAP t.regs (20 * g + l) : Int) = sat ((Fld.SFL.LANE_POS_TAP s.regs (20 * g + l) : Int) + Int.sign toward) 0 63) ∧
        Fld.SFL.LANE_POS_EYE_LOW t.regs (20 * g + l) = b2n (decide (eye < 8)) ∧ SameRegsBut [Adr.SFL.LANE_POS (20 * g + l)] s t)) ∧
    (s.aligned g = false → Does (.sensorClockLoss g) s s) ∧
    (s.aligned g = true → Completes (.sensorClockLoss g) s (fun t => t.aligned g = false ∧
      { page := groupUnit g / 16, cause := groupUnit g, code := 0x06, event := false, unit := groupUnit g } ∈ t.held))

/-- While no clock domain is stopped: FV does nothing where sync is embedded, and takes effect LV_DELAY words later where that, as read at the frame's
start, is not 0. A frame start of a group that is not running or not aligned opens nothing. One accepted takes the next frame count, the present as
start of frame, and the group settings as read; it makes due the groups armed on it. One outside the window is dropped, counted and reported
FRAME_LATE. SENSOR_FRAME_END pads the missing rows. CLOSE_TIMEOUT closes a frame whose last row ended CLOSE_TIMEOUT ago or more, and does nothing
before, before the last row, or without a frame. Model's choices and readings: entry 46 of the log. (R86, R90, R91, R92, R96) -/
def Obligations.SensorFramesOpenAndClose : Prop :=
  ∀ (s : State) (g : Fin 4), s.stopped = [] →
    (s.embedded g = true → Does (.sensorFrameStart g []) s s ∧ Does (.sensorFrameEnd g []) s s) ∧
    (s.embedded g = false → 0 < s.lvDelay g → 0 < (s.wordForm g).2 →
      Does (.sensorFrameStart g []) s (s.setGrp g { s.grp g with
        edges := (s.grp g).edges ++ [(s.lvDelay g * (s.wordForm g).2, .frameStart)] })) ∧
    (s.embedded g = false → s.lvDelay g = 0 → (s.grp g).edges = [] →
      ((s.grp g).running = false ∨ s.aligned g = false → (s.grp g).line = none → Completes (.sensorFrameStart g []) s (fun t =>
        (t.grp g).fv = true ∧ (t.grp g).frame = (s.grp g).frame ∧ t.streams = s.streams ∧ t.regs = s.regs ∧ t.due = s.due)) ∧
      ((s.grp g).running = true → s.aligned g = true → s.holding 0x10 = false → s.grpMode = 0 → s.windowed g = false → (s.grp g).line = none →
        (s.grp g).frame = none → (∀ f ∈ (s.stream g).frames, f.owes g (s.grp g).cnt = false) → Completes (.sensorFrameStart g []) s (fun t =>
          (t.grp g).frame = some { cfg := s.readCfg g, sof := s.now, rows := 0, readouts := 0, lastEnd := none, half := none, trunc := none, stream := g,
                                   count := (s.grp g).cnt, step := 1, base := 0, kept := [], ended := none } ∧
          (t.grp g).cnt = ((s.grp g).cnt + 1) % 2 ^ 32 ∧ (t.grp g).discard = false ∧
          (∃ f, (t.stream g).frames = (s.stream g).frames ++ [f] ∧ f.record.count = (s.grp g).cnt ∧ f.record.sof = s.now ∧ f.waiting = [g.val] ∧ f.begun = [g.val]) ∧
          (∀ k, k ∈ s.armedOn 1 g → k ∈ t.due) ∧ t.regs = s.regs ∧ t.dram = s.dram)) ∧
      ((s.grp g).running = true → s.aligned g = true → s.holding 0x10 = false → s.grpMode = 0 → s.windowed g = true → (s.grp g).anchor.isSome = true →
        s.inWindow g (s.grp g).slot = false → (s.grp g).line = none → Completes (.sensorFrameStart g []) s (fun t =>
          (t.grp g).frame = (s.grp g).frame ∧ (t.grp g).discard = true ∧ (t.grp g).cnt = (s.grp g).cnt ∧
          t.rd (Adr.SFE.LATE_SOF g) = satInc 32 (s.rd (Adr.SFE.LATE_SOF g)) ∧
          { page := groupUnit g / 16, cause := groupUnit g, code := 0x20, event := true, unit := groupUnit g } ∈ t.held)) ∧
      (∀ f, (s.grp g).frame = some f → (s.grp g).line = none → (s.grp g).discard = false → (s.grp g).heldSof = none → (s.grp g).owed = [] →
        f.rows < f.cfg.height → Completes (.sensorFrameEnd g []) s (fun t => (t.grp g).frame = none ∧ (t.grp g).fv = false ∧ (t.grp g).afterClose = true ∧
          (t.grp g).queue = (s.grp g).queue ++ [.pads (f.cfg.height - f.rows)] ∧ t.regs = s.regs))) ∧
    (∀ f time, (s.grp g).frame = some f → (s.grp g).line = none → (s.grp g).heldSof = none → (s.grp g).owed = [] → f.cfg.height ≤ f.rows →
      f.lastEnd = some time → f.cfg.closeNs ≤ shortFwd time s.now → Completes (.closeTimeout g) s (fun t =>
        (t.grp g).frame = none ∧ (t.grp g).queue = (s.grp g).queue ∧ (t.grp g).cnt = (s.grp g).cnt ∧ t.regs = s.regs)) ∧
    (∀ f time, (s.grp g).frame = some f → f.lastEnd = some time → shortFwd time s.now < f.cfg.closeNs → Does (.closeTimeout g) s s) ∧
    (∀ f, (s.grp g).frame = some f → f.lastEnd = none → Does (.closeTimeout g) s s) ∧
    ((s.grp g).frame = none → Does (.closeTimeout g) s s)

/-- While no clock domain is stopped and with sync from FV and LV: lines outside a frame are ignored, lines after a held frame's end too; a line start in
an open frame opens an empty line with the present time; a sample is appended, within its width, while the buffer has room; one that finds 6 widths of
samples waiting truncates the frame, counts and reports OVERRUN, and later lines of it keep no sample but are counted. A line end queues the row,
padded with PAD_CODE and marked SHORT where it falls short. Model's choices and readings: entry 47 of the log. (R87, R89, R92, R93) -/
def Obligations.SensorLinesKeepTheirSamples : Prop :=
  ∀ (s : State) (g : Fin 4), s.stopped = [] → s.embedded g = false → s.lvDelay g = 0 → (s.grp g).edges = [] →
    ((s.grp g).fv = false → Does (.sensorLineStart g []) s s) ∧
    ((s.grp g).fv = true → s.holding 0x10 = true → (s.grp g).frame = none → (s.grp g).line = none → Does (.sensorLineStart g []) s s) ∧
    (∀ f, (s.grp g).fv = true → (s.grp g).running = true → (s.grp g).discard = false → (s.grp g).line = none → (s.grp g).frame = some f →
      f.ended = none → f.seen < f.cfg.height → Completes (.sensorLineStart g []) s (fun t =>
        t.grp g = { s.grp g with line := some { samples := [], excess := 0, ignored := false, stamp := s.now } } ∧ t.regs = s.regs)) ∧
    (∀ f l v, v < 2 ^ 16 → (s.grp g).frame = some f → (s.grp g).line = some l → l.ignored = false → f.trunc = none → l.samples.length < f.cfg.width →
      (s.grp g).occupied < 6 * f.cfg.width → Completes (.inputOverflow g v) s (fun t =>
        t.grp g = { s.grp g with line := some { l with samples := l.samples ++ [v % 2 ^ f.cfg.sampleBits] } } ∧ t.regs = s.regs)) ∧
    (∀ f l v, v < 2 ^ 16 → (s.grp g).frame = some f → (s.grp g).line = some l → l.ignored = false → f.trunc = none → l.samples.length < f.cfg.width →
      6 * f.cfg.width ≤ (s.grp g).occupied → Completes (.inputOverflow g v) s (fun t =>
        (t.grp g).line = some { l with samples := [], excess := 0 } ∧ (t.grp g).frame = some { f with trunc := some f.rows, half := none } ∧
        t.rd (Adr.SFE.TRUNCATED g) = satInc 32 (s.rd (Adr.SFE.TRUNCATED g)) ∧ SameRegsBut [Adr.SFE.TRUNCATED g] s t ∧
        { page := groupUnit g / 16, cause := groupUnit g, code := 0x08, event := true, unit := groupUnit g } ∈ t.held)) ∧
    (∀ f l row, (s.grp g).frame = some f → (s.grp g).line = some l → l.ignored = false → f.trunc.isSome = true → row = f.endReadout s.now →
      Completes (.sensorLineEnd g []) s (fun t => (t.grp g).line = none ∧ (t.grp g).frame = some row ∧ row.readouts = f.readouts + 1 ∧
        (t.grp g).queue = (s.grp g).queue ∧ t.regs = s.regs)) ∧
    (∀ f l, (s.grp g).frame = some f → (s.grp g).line = some l → l.ignored = false → f.trunc = none → f.cfg.dual = false → (s.grp g).heldSof = none →
      Completes (.sensorLineEnd g []) s (fun t =>
        (t.grp g).queue = (s.grp g).queue ++ [.row {
          lo := l.samples ++ List.replicate (f.cfg.width - l.samples.length) f.cfg.padCode, hi := [],
          short := decide (l.samples.length < f.cfg.width), long := decide (fillerOf f.cfg < l.excess), pad := false, stamp := some l.stamp }] ∧
        (t.grp g).line = none ∧ (t.grp g).frame = some { f.endReadout s.now with rows := f.rows + 1 } ∧
        t.rd (Adr.SFE.SHORT_LINES g) = (if l.samples.length < f.cfg.width then satInc 32 (s.rd (Adr.SFE.SHORT_LINES g)) else s.rd (Adr.SFE.SHORT_LINES g)) ∧
        SameRegsBut [Adr.SFE.SHORT_LINES g] s t))

/-- While no clock domain is stopped: WINDOW_CLOSE of a missed slot counts a frame and SKIPPED and passes the record on behind the frames not yet sent;
JOIN_SKEW_EXPIRY drops a follower's held start that is older than the JOIN_SKEW its frame was begun with, counts it, and does nothing where no start
is held and no frame lacks the group's share; LINE_FORWARD passes the next row of the oldest frame on, and waits while raw conditioning cannot take
it; a sync code acts by its majority type on a group with embedded sync and counts the lanes that disagree, and is data on one without; V_TRIGGER
emits a pulse at its slot and sets the H triggers HT_DELAY after it, each of which leaves at its time, HT_PERIOD after the one before, while the rate
is on. Model's choices and readings: entry 48, entry 49, entry 160 of the log. (R83, R88, R90, R91, R97, R98, R372, R373) -/
def Obligations.WindowsJoinsAndForwarding : Prop :=
  ∀ (s : State) (g : Fin 4), s.stopped = [] →
    (∀ e, (s.grp g).running = true → s.leads g = true → s.windowed g = true → s.holding 0x10 = false → s.expected g (s.grp g).slot = some e →
      s.reached ((e + Fld.SFE.FS_LATE s.regs g) % 2 ^ 40) = true → s.isolated = false → Completes (.windowClose g) s (fun t =>
        (t.grp g).cnt = ((s.grp g).cnt + 1) % 2 ^ 32 ∧ (t.grp g).slot = (s.grp g).slot + 1 ∧
        t.rd (Adr.SFE.SKIPPED g) = satInc 32 (s.rd (Adr.SFE.SKIPPED g)) ∧ SameRegsBut [Adr.SFE.SKIPPED g] s t ∧
        (t.stream g).latest.count = (s.grp g).cnt ∧ (t.stream g).latest.sof = e ∧ (t.stream g).latest.tags = 8 ∧
        ((s.stream g).frames = [] → SMap.get (fun _ => []) t.rawIn g = SMap.get (fun _ => []) s.rawIn g ++ [.skipped (t.stream g).latest]))) ∧
    ((s.grp g).running = false → Does (.windowClose g) s s) ∧
    (∀ time f, (s.grp g).heldSof = some time → (s.grp g).frame = some f → f.cfg.skew < shortFwd time s.now →
      (∀ n, n < 4 → s.missedFrame n g = none) → Completes (.joinSkewExpiry g) s (fun t =>
        t.grp g = { s.grp g with heldSof := none, frame := none, line := none, discard := true } ∧
        t.rd (Adr.SFE.LATE_SOF g) = satInc 32 (s.rd (Adr.SFE.LATE_SOF g)) ∧ SameRegsBut [Adr.SFE.LATE_SOF g] s t)) ∧
    ((s.grp g).heldSof = none → (∀ n, n < 4 → s.missedFrame n g = none) → Does (.joinSkewExpiry g) s s) ∧
    ((s.stream g).frames = [] → s.rawStalled g = false → Does (.lineForward g) s s) ∧
    (s.rawStalled g = true → Does (.lineForward g) s s) ∧
    (∀ f rest row x c, s.rawStalled g = false → (s.stream g).frames = f :: rest → f.started = true → f.members = [g.val] → f.cfgs = [c] → f.begun = [g.val] →
      f.mode = 0 → f.sent + 1 < f.height → (s.grp g).pop = some (row, x) → row.pad = false → f.sent % 16 ≠ 0 → Completes (.lineForward g) s (fun t =>
        SMap.get (fun _ => []) t.rawIn g = SMap.get (fun _ => []) s.rawIn g ++ [.row { row with stamp := none }] ∧ t.grp g = x ∧
        (∃ f', (t.stream g).frames = f' :: rest ∧ f'.sent = f.sent + 1) ∧ t.regs = s.regs)) ∧
    (∀ words typ, words.length ≤ 20 → words.all (fun c => c.length == 4 && samplesOk c) = true → s.embedded g = true →
      majorityType (s.wordForm g).1 (words.take (s.wordForm g).2) = some typ →
      Does (.syncCode g [] words) s
        (let u := s.bumpBy (Adr.SFE.SYNC_ERR g) ((words.take (s.wordForm g).2).filter (fun c =>
          !(codeMatches (s.wordForm g).1 c && decide (codeType (s.wordForm g).1 c = some typ)))).length
        if typ = 8 then (u.frameStartAt g).lineStart g false else if typ = 9 then u.lineStart g false else if typ = 0xA then u.endLine g
        else if typ = 0xB then u.frameEndAt g else u.lineStart g true)) ∧
    (∀ words, words.length ≤ 20 → words.all (fun c => c.length == 4 && samplesOk c) = true → s.embedded g = false →
      Does (.syncCode g [] words) s (s.samples g (interleave (words.take (s.wordForm g).2)))) ∧
    (∀ slot, (s.grp g).trigOn = true → slot = slotTime (s.trigStart g) (Fld.SFE.FRM_RATE_NUM s.regs g) (Fld.SFE.FRM_RATE_DEN s.regs g) (s.grp g).trig →
      s.reached slot = true → Completes (.vTrigger g) s (fun t => (t.grp g).trig = (s.grp g).trig + 1 ∧
        (t.grp g).hLeft = (if Fld.SFE.TRIG_CFG_HT_EN s.regs g = 1 then Fld.SFE.HT_COUNT s.regs g else 0) ∧
        (t.grp g).hNext = (slot + Fld.SFE.HT_DELAY s.regs g) % 2 ^ 40 ∧
        ∃ out, t.outbox = s.outbox ++ .trigger g false (Fld.SFE.TRIG_CFG_POL s.regs g == 1) (Fld.SFE.TRIG_CFG_VT_WIDTH s.regs g * 64) :: out)) ∧
    ((s.grp g).hLeft = 0 ∨ (s.grp g).trigOn = false ∨ s.reached (s.grp g).hNext = false → Does (.hTrigger g) s s) ∧
    (0 < (s.grp g).hLeft → (s.grp g).trigOn = true → s.reached (s.grp g).hNext = true → Completes (.hTrigger g) s (fun t =>
      (t.grp g).hLeft = (s.grp g).hLeft - 1 ∧ (t.grp g).hNext = ((s.grp g).hNext + Fld.SFE.HT_PERIOD s.regs g) % 2 ^ 40 ∧
      ∃ out, t.outbox = s.outbox ++ .trigger g true (Fld.SFE.TRIG_CFG_POL s.regs g == 1) (Fld.SFE.HT_PERIOD s.regs g / 2) :: out))

/-- While no clock domain is stopped: GO on a free master starts a transaction with the bytes of its FIFO and, for SPI, the divider SPI_CFG.DIV (0 acts as
an unknown value from 1 on), sets BUSY, empties the receive FIFO and keeps a deferred transaction; an SPI master's outputs move only while the page
has its pins. GO with the defer bit waits for its update group; GO on a busy master does nothing. DONE stores the received bytes and clears BUSY. DATA
moves one byte of the FIFO. I2C_STRETCH_TIMEOUT ends a busy transaction with TIMEOUT and does nothing otherwise. Model's choices and readings: entry
50, entry 157 of the log. (R99, R367) -/
def Obligations.SerialMastersMoveBytes : Prop :=
  ∀ (s : State) (c : Fin 4) (cmd : Word), s.stopped = [] →
    (bits cmd.toNat 8 1 = 0 ∨ Fld.SFE.SPI_STAT_BUSY s.regs c = 1 → Does (.spiGo c cmd) s s) ∧
    (bits cmd.toNat 8 1 = 1 → bitOf cmd.toNat 9 = false → Fld.SFE.SPI_STAT_BUSY s.regs c = 0 → Completes (.spiGo c cmd) s (fun t =>
      t.spiOf c = { tx := (s.spiOf c).tx.drop (cmdLen (Adr.SFE.SPI_CMD c) cmd.toNat), rx := [], deferred := (s.spiOf c).deferred } ∧
      t.rd (Adr.SFE.SPI_STAT c) = 1 + 2 * b2n (s.spiOf c).deferred.isSome ∧ SameRegsBut [Adr.SFE.SPI_STAT c] s t ∧
      (s.sns.control = true → ∃ out, t.outbox = s.outbox ++ .spiStart c (Fld.SFE.SPI_CFG_MODE s.regs c) (spiDiv s.regs c)
        (cmdLen (Adr.SFE.SPI_CMD c) cmd.toNat) ((s.spiOf c).tx.take (cmdLen (Adr.SFE.SPI_CMD c) cmd.toNat)) :: out))) ∧
    (bits cmd.toNat 8 1 = 1 → bitOf cmd.toNat 9 = true → Fld.SFE.SPI_STAT_BUSY s.regs c = 0 → Completes (.spiGo c cmd) s (fun t =>
      (t.spiOf c).deferred = some cmd.toNat ∧ (t.spiOf c).tx = (s.spiOf c).tx ∧ Fld.SFE.SPI_STAT_BUSY t.regs c = 0)) ∧
    (∀ rx : List Byte, rx.length ≤ 64 → Fld.SFE.SPI_STAT_BUSY s.regs c = 1 → Completes (.spiDone c rx) s (fun t =>
      (t.spiOf c).rx = rx ∧ Fld.SFE.SPI_STAT_BUSY t.regs c = 0 ∧ Fld.SFE.SPI_STAT_RX_LEVEL t.regs c = rx.length ∧ SameRegsBut [Adr.SFE.SPI_STAT c] s t)) ∧
    (∀ v : Word, (s.spiOf c).tx.length < 64 → Does (.spiData c (.write v)) s
      (s.setSpi c { s.spiOf c with tx := (s.spiOf c).tx ++ [BitVec.ofNat 8 v.toNat] })) ∧
    (∀ b rest, (s.spiOf c).rx = b :: rest → rest.length < 64 → Completes (.spiData c .read) s (fun t =>
      (t.spiOf c).rx = rest ∧ Fld.SFE.SPI_STAT_RX_LEVEL t.regs c = rest.length ∧ (t.spiOf c).tx = (s.spiOf c).tx)) ∧
    (bits cmd.toNat 8 1 = 1 → bitOf cmd.toNat 9 = false → Fld.SFE.I2C_STAT_BUSY s.regs c = 0 → Completes (.i2cGo c cmd) s (fun t =>
      t.i2cOf c = { tx := if bitOf cmd.toNat 7 then (s.i2cOf c).tx else (s.i2cOf c).tx.drop (cmdLen (Adr.SFE.I2C_CMD c) cmd.toNat), rx := [],
                    deferred := (s.i2cOf c).deferred } ∧
      t.rd (Adr.SFE.I2C_STAT c) = 1 + 4 * b2n (s.i2cOf c).deferred.isSome ∧ SameRegsBut [Adr.SFE.I2C_STAT c] s t)) ∧
    (bits cmd.toNat 8 1 = 1 → bitOf cmd.toNat 9 = true → Fld.SFE.I2C_STAT_BUSY s.regs c = 0 → Completes (.i2cGo c cmd) s (fun t =>
      (t.i2cOf c).deferred = some cmd.toNat ∧ (t.i2cOf c).tx = (s.i2cOf c).tx ∧ Fld.SFE.I2C_STAT_DEFERRED t.regs c = 1 ∧
      Fld.SFE.I2C_STAT_BUSY t.regs c = 0)) ∧
    (∀ (nack : Bool) (rx : List Byte), rx.length ≤ 64 → Fld.SFE.I2C_STAT_BUSY s.regs c = 1 → Completes (.i2cDone c nack rx) s (fun t =>
      (t.i2cOf c).rx = rx ∧ Fld.SFE.I2C_STAT_BUSY t.regs c = 0 ∧ Fld.SFE.I2C_STAT_NACK t.regs c = b2n nack)) ∧
    (∀ v : Word, (s.i2cOf c).tx.length < 64 → Does (.i2cData c (.write v)) s
      (s.setI2c c { s.i2cOf c with tx := (s.i2cOf c).tx ++ [BitVec.ofNat 8 v.toNat] })) ∧
    (Fld.SFE.I2C_STAT_BUSY s.regs c = 1 → Completes (.i2cStretchTimeout c) s (fun t => t.rd (Adr.SFE.I2C_STAT c) = 4 * b2n (s.i2cOf c).deferred.isSome ∧
      { page := (0x109 + c.val) / 16, cause := 0x109 + c.val, code := 0x04, event := true, unit := 0x109 + c.val } ∈ t.held)) ∧
    (Fld.SFE.I2C_STAT_BUSY s.regs c = 0 → Does (.i2cStretchTimeout c) s s)

/-- With its tables absent or off a sample leaves as its distance to DARK_BASE scaled to L25 and saturated; with a dark row it is the distance to
DARK_BASE plus that row's value; a PAD row leaves as L25 code 0; a defect is replaced by the rounded mean of its neighbours, or kept without any;
saturation bounds L25 and keeps what is in range; below the knee the merge is the scaled high-gain sample; a flat grid of equal nodes is that gain.
CONDITION_LINE takes the oldest item and appends a row's output, and waits while a consumer cannot take it; where the frame goes is fixed at its
start. Each table read is issued once and its bytes are kept; one that fails counts, reports UPSTREAM and leaves the frame going; TABLE_READ_ERROR
makes a read not yet issued fail and no other. Model's choices and readings: entry 51, entry 54 of the log. (R101, R102, R104, R106, R108, R109, R110) -/
def Obligations.RawConditioning : Prop :=
  ((∀ (n : Nat) (f : RcnFrame) (r q : Nat), f.table (.dark, r) = none →
    f.stage1 n r q = (f.samples r q).map (fun x => (x : Int) - (Fld.RCN.DARK_BASE f.cfg n : Nat))) ∧
  (∀ (n : Nat) (f : RcnFrame) (r : Nat) (b : List Byte), f.table (.dark, r) = some b → f.dual = false →
    f.stage1 n r 0 = (f.samples r 0).zipIdx.map (fun e =>
      (e.1 : Int) - ((Fld.RCN.DARK_BASE f.cfg n + (nth 0 b e.2).toNat * 2 ^ Fld.RCN.CTX_CFG_DARK_SHIFT f.cfg n : Nat) : Int))) ∧
  (∀ (n : Nat) (f : RcnFrame) (r : Nat), f.padRow r = false → f.dual = false → Fld.RCN.CTX_CFG_DEF_EN f.cfg n = 0 → f.table (.column, 0) = none →
    Fld.RCN.CTX_CFG_ROW_EN f.cfg n = 0 → Fld.RCN.CTX_CFG_FF_EN f.cfg n = 0 →
    f.condRow n r = ((f.held r 0).map (fun a => satL25 (a * 16 * 2 ^ (20 - f.sampleBits))), 0, 0)) ∧
  (∀ (n : Nat) (f : RcnFrame) (r : Nat), f.padRow r = true → f.condRow n r = (List.replicate f.width 0, 0, 0)) ∧
  (∀ a sum : Int, fixValue a sum 0 = a ∧ fixValue a sum 1 = sum ∧ fixValue a sum 2 = Int.fdiv (sum + 1) 2 ∧ fixValue a sum 4 = Int.fdiv (sum + 2) 4) ∧
  (∀ x : Int, -(2 ^ 24 : Int) ≤ satL25 x ∧ satL25 x ≤ 2 ^ 24 - 1 ∧ (-(2 ^ 24 : Int) ≤ x → x ≤ 2 ^ 24 - 1 → satL25 x = x)) ∧
  (∀ (w t0 ratio k : Nat) (e0 e1 : Int), e1 ≤ t0 → mergeL25 w true t0 ratio k e0 e1 = satL25 (rshift (e1 * ratio) (w + 4))) ∧
  (∀ sl fx fy g, 1 ≤ sl → fx < 2 ^ sl → fy < 2 ^ sl → flatGain sl fx fy g g g g = g)) ∧
  (∀ (s : State) (n : Fin 4),
    (SMap.get (fun _ => []) s.rawIn n = [] → s.ebeQueue n = [] → s.orgIn = [] → s.orgOpen 0 = false → Does (.conditionLine n) s s) ∧
    (∀ row rest f, SMap.get (fun _ => []) s.rawIn n = .row row :: rest → (s.rcnOf n).running = true → (s.rcnOf n).frame = some f →
      s.consumerStalled n (.row row) = false → s.dramStopped = false → row.pad = true → Fld.RCN.CTX_CFG_DEF_EN f.cfg n = 0 →
      f.out.length = f.rows.length → f.toEbe = false → f.toOrg = false → s.ebeQueue n = [] → s.orgIn = [] → s.orgOpen 0 = false →
      Completes (.conditionLine n) s (fun t => SMap.get (fun _ => []) t.rawIn n = rest ∧
        (∃ f', (t.rcnOf n).frame = some f' ∧ f'.rows = f.rows ++ [row] ∧ f'.reads = f.reads ∧
          f'.out = f.out ++ [({ pad := true, short := row.short, long := row.long }, List.replicate f.width 0)]) ∧
        SameRegsBut [Adr.RCN.DEF_UNFIXED n, Adr.RCN.ROW_LIMITED n] s t ∧ t.dram = s.dram)) ∧
    (∀ i rest, SMap.get (fun _ => []) s.rawIn n = i :: rest → s.consumerStalled n i = true ∨ s.rowWaits n = true → s.conditionItem n = s) ∧
    (∀ (toEbe toOrg : Bool) (i : LineItem), (s.fromRaw n toEbe toOrg i).ebeQueue n = s.ebeQueue n ++ (if toEbe then [i] else []) ∧
      (s.fromRaw n toEbe toOrg i).orgIn = s.orgIn ++ (if toOrg then [i] else []) ∧ (s.fromRaw n toEbe toOrg i).regs = s.regs) ∧
    (∀ (f : RcnFrame) (k : RcnTable × Nat) (a len : Nat), f.issued k = true → s.readTable n f k (a, len) = (f, s)) ∧
    (∀ (f : RcnFrame) (k : RcnTable × Nat) (a len : Nat), f.issued k = false → s.spanError a len = none → f.failed.find? (fun e => e.1 == k) = none →
      s.readTable n f k (a, len) = ({ f with reads := f.reads ++ [(k, some (s.dramRead a len))] }, s)) ∧
    (∀ (f : RcnFrame) (k : RcnTable × Nat) (a len cause : Nat), f.issued k = false →
      (s.spanError a len).or ((f.failed.find? (fun e => e.1 == k)).map (·.2)) = some cause →
      (s.readTable n f k (a, len)).1.table k = none ∧
      (s.readTable n f k (a, len)).2.rd (Adr.RCN.TABLE_ERR n) = satInc 32 (s.rd (Adr.RCN.TABLE_ERR n)) ∧
      { page := 0x12, cause := cause, code := 0x01, event := true, unit := 0x121 + n.val } ∈ (s.readTable n f k (a, len)).2.held) ∧
    (∀ (tab : RcnTable) (row unit : Nat), row < 2 ^ 14 → unit < 4096 → (s.rcnOf n).frame = none → Does (.tableReadError n tab row unit) s s) ∧
    (∀ (tab : RcnTable) (row unit : Nat) (f : RcnFrame), row < 2 ^ 14 → unit < 4096 → (s.rcnOf n).frame = some f → f.issued (tab, row) = true →
      Does (.tableReadError n tab row unit) s s) ∧
    (∀ (tab : RcnTable) (row unit : Nat) (f : RcnFrame), row < 2 ^ 14 → unit < 4096 → (s.rcnOf n).frame = some f → f.issued (tab, row) = false →
      f.failed = [] → Completes (.tableReadError n tab row unit) s (fun t =>
        (t.rcnOf n).frame = some { f with failed := [((tab, row), unit)] } ∧ t.regs = s.regs ∧ t.dram = s.dram)))

/-- START needs a flow and arms; at the next frame start of its context the settings, counts and saturated tiles begin anew, every tile entry in DRAM is 0
and the state is RUNNING. A frame of another geometry ends a run as ABORTED with CONFIG. STOP ends a run at once or after the frame in flight; AVERAGE
is accepted in DONE and STOPPED only and writes for each photosite the accumulator divided by the number of frames to nearest. A frame is taken,
skipped by EVERY, or rejected and counted when tagged. Accumulators stay within 32 bits, a saturated one stays, an unsaturated one adds exactly while
the sum fits, and a saturated tile stays so. Model's choices and readings: entry 52, entry 142 of the log. (R72, R111, R112, R113, R114, R115) -/
def Obligations.Integrator : Prop :=
  (∀ s : State,
    (s.hasFlow 0x131 = false → Does .intStart s (s.fault 0x131 0x07)) ∧
    (s.hasFlow 0x131 = true → Completes .intStart s (fun t => t.integ = { s.integ with armed := some (s.regs.page 0x13) } ∧ t.regs = s.regs ∧
      t.dram = s.dram)) ∧
    (∀ (n : Nat) (cfg : RegFile) (geo : Nat × Nat × Nat × Bool), s.integ.armed = some cfg → Fld.RCS.INT_CFG_CTX cfg = n →
      (s.intFrameStart n geo).1 = true ∧ (s.intFrameStart n geo).2.integ = { s.integ with
        armed := none, cfg := cfg, taken := 0, tiles := [], number := 0, geometry := some geo, stopping := false, done := [] } ∧
      Fld.RCS.INT_STAT_STATE (s.intFrameStart n geo).2.regs = 1 ∧ Fld.RCS.INT_STAT_FRAMES (s.intFrameStart n geo).2.regs = 0 ∧
      (s.intFrameStart n geo).2.rd Adr.RCS.SATURATED_TILES = 0 ∧ (s.intFrameStart n geo).2.rd Adr.RCS.INT_REJECTED = 0 ∧
      SameRegsBut [Adr.RCS.INT_STAT, Adr.RCS.SATURATED_TILES, Adr.RCS.INT_REJECTED] s (s.intFrameStart n geo).2 ∧
      (s.spanError (tileEntry cfg 0) (2 * tileTotal geo.1 geo.2.1) = none →
        (s.intFrameStart n geo).2.dramRead (tileEntry cfg 0) (2 * tileTotal geo.1 geo.2.1) = List.replicate (2 * tileTotal geo.1 geo.2.1) 0)) ∧
    (∀ (n : Nat) (geo : Nat × Nat × Nat × Bool), s.integ.armed = none → Fld.RCS.INT_CFG_CTX s.integ.cfg = n → Fld.RCS.INT_STAT_STATE s.regs = 1 →
      s.integ.stopping = false → s.integ.geometry ≠ some geo → (s.intFrameStart n geo).1 = false ∧
      Fld.RCS.INT_STAT_STATE (s.intFrameStart n geo).2.regs = 4 ∧ (s.intFrameStart n geo).2.integ = s.integ ∧
      { page := 0x13, cause := 0x131, code := 0x20, event := true, unit := 0x131 } ∈ (s.intFrameStart n geo).2.held) ∧
    (Fld.RCS.INT_STAT_STATE s.regs ≠ 1 → Does .intStop s s) ∧
    (Fld.RCS.INT_STAT_STATE s.regs = 1 → s.intInFlight = false → Completes .intStop s (fun t => Fld.RCS.INT_STAT_STATE t.regs = 3 ∧
      t.integ.stopping = false ∧ SameRegsBut [Adr.RCS.INT_STAT] s t ∧ t.dram = s.dram)) ∧
    (Fld.RCS.INT_STAT_STATE s.regs = 1 → s.intInFlight = true → Completes .intStop s (fun t => Fld.RCS.INT_STAT_STATE t.regs = 1 ∧
      t.integ = { s.integ with stopping := true } ∧ t.regs = s.regs ∧ t.dram = s.dram)) ∧
    (∀ w h b d, Fld.RCS.INT_STAT_STATE s.regs = 2 ∨ Fld.RCS.INT_STAT_STATE s.regs = 3 → s.integ.geometry = some (w, h, b, d) →
      Completes .intAverage s (fun t => Fld.RCS.INT_STAT_AVG_BUSY t.regs = 1 ∧ t.integ.averaging = some (s.integ.cfg, s.integ.taken, w, h) ∧
        SameRegsBut [Adr.RCS.INT_STAT] s t ∧ t.dram = s.dram)) ∧
    (Fld.RCS.INT_STAT_STATE s.regs ≠ 2 → Fld.RCS.INT_STAT_STATE s.regs ≠ 3 → Does .intAverage s s) ∧
    (s.stopped = [] → s.integ.averaging = none → Does .averageDone s s) ∧
    (∀ cfg k w, s.stopped = [] → s.integ.averaging = some (cfg, k, w, 1) → Completes .averageDone s (fun t =>
      Fld.RCS.INT_STAT_AVG_BUSY t.regs = 0 ∧ t.integ.averaging = none ∧ t.dram = (s.averageRow cfg k w 0).dram ∧ SameRegsBut [Adr.RCS.INT_STAT] s t)) ∧
    (∀ cfg k w r, k ≠ 0 → s.spanError (intRow cfg (Fld.RCS.INT_AVG_UNIT cfg) r) (4 * w) = none →
      (s.averageRow cfg k w r).dramRead (intRow cfg (Fld.RCS.INT_AVG_UNIT cfg) r) (4 * w) =
        wordRow ((s.accRow cfg (Fld.RCS.INT_UNIT cfg) r w).map (fun a => averageOf a k)) ∧
      SameBytesBut (intRow cfg (Fld.RCS.INT_AVG_UNIT cfg) r) (4 * w) s (s.averageRow cfg k w r))) ∧
  (∀ s : State, s.stopped = [] →
    (s.integ.done = [] → Does .intFrame s s) ∧
    (∀ f rest, s.integ.done = f :: rest → Fld.RCS.INT_STAT_STATE s.regs = 1 → s.integ.number % (Fld.RCS.INT_CFG_EVERY s.integ.cfg + 1) = 0 →
      Fld.RCS.INT_CFG_SKIP_TAGGED s.integ.cfg = 1 → f.record.tags % 8 ≠ 0 → s.integ.stopping = false → Completes .intFrame s (fun t =>
        t.rd Adr.RCS.INT_REJECTED = satInc 32 (s.rd Adr.RCS.INT_REJECTED) ∧ t.integ.done = rest ∧ t.integ.number = s.integ.number + 1 ∧
        t.integ.taken = s.integ.taken ∧ SameRegsBut [Adr.RCS.INT_REJECTED] s t ∧ t.dram = s.dram)) ∧
    (∀ f rest, s.integ.done = f :: rest → Fld.RCS.INT_STAT_STATE s.regs = 1 → s.integ.number % (Fld.RCS.INT_CFG_EVERY s.integ.cfg + 1) ≠ 0 →
      s.integ.stopping = false → Does .intFrame s { s with integ := { s.integ with done := rest, number := s.integ.number + 1 } }) ∧
    (∀ f rest, s.integ.done = f :: rest → Fld.RCS.INT_STAT_STATE s.regs = 1 → s.integ.number % (Fld.RCS.INT_CFG_EVERY s.integ.cfg + 1) = 0 →
      Fld.RCS.INT_CFG_SKIP_TAGGED s.integ.cfg = 0 → Does .intFrame s
        ((({ s with integ := { s.integ with done := rest, number := s.integ.number + 1 } } : State).takeFrame f).intSettle)) ∧
    (∀ f : RcnFrame, (s.takeFrame f).integ.taken = s.integ.taken + 1 ∧
      (s.integ.taken + 1 < 2 ^ 16 → Fld.RCS.INT_STAT_FRAMES (s.takeFrame f).regs = s.integ.taken + 1)) ∧
    (∀ (f : RcnFrame) (acc : List (List Int)) (i : Nat), i ∈ s.integ.tiles → i < ceilDiv f.width 256 * ceilDiv f.height 16 →
      i ∈ (s.writeTiles f acc).integ.tiles) ∧
    (∀ acc x : Int, -(2 ^ 31 : Int) ≤ acc → acc < 2 ^ 31 → -(2 ^ 31 : Int) ≤ accumulate acc x ∧ accumulate acc x < 2 ^ 31 ∧
      (saturated acc = true → accumulate acc x = acc) ∧
      (saturated acc = false → -(2 ^ 31 : Int) ≤ acc + x → acc + x < 2 ^ 31 → accumulate acc x = acc + x)) ∧
    (∀ (acc : Int) (n : Nat), 0 < n → saturated acc = false → 2 * (averageOf acc n * n - acc) ≤ n ∧ 2 * (acc - averageOf acc n * n) ≤ n))

/-- While no clock domain is stopped: a frame start with room lays the frame out at the next unit of the ring and shows stride, tile bytes and whole
frames; a ring that holds no frame beyond the reserve reports CONFIG and passes the frame by; the oldest uncommitted frames are dropped down to what
is kept, committed ones never. The frame end writes the header at its unit and adds the frame to the ring; a failed tile write is counted, reported
UPSTREAM and marks the frame. REC START arms for the next frame that was not under way, or, where REC_AT_COUNT is not past, for that count, and with
LATE for the next one where it is; STOP disarms, or ends the take at the next frame. Model's choices and readings: entry 56, entry 57, entry 58 of the
log. (R129, R130, R131, R132, R133, R134, R135) -/
def Obligations.EboshRecording : Prop :=
  (∀ (s : State) (n : Fin 4), s.stopped = [] →
    (∀ r w h k stride, (s.ebeOf n).running = true → s.holding 0x14 = false → (s.ebeOf n).open_ = none → s.ebeQueue n = [.start r w h k] →
      stride = strideOf (cwOf (Fld.EBE.ENC_CFG_CW s.regs n)) (s.ratio2 n) (tilesX w * tilesY h) → (s.ebeOf n).geometry = some (w, h, stride) →
      (s.ebeOf n).stopAt = none → Fld.EBE.REC_STAT_STATE s.regs n = 0 → (s.ebeOf n).frames = [] →
      Fld.EBE.COMMIT_RESERVE s.regs n < (s.ebeOf n).ring.2 / stride → Completes (.ebeFrameStart n) s (fun t =>
        (∃ f, (t.ebeOf n).open_ = some f ∧ f.record = r ∧ f.width = w ∧ f.height = h ∧ f.unit = some (s.ebeOf n).nextUnit ∧ f.stride = stride ∧
          f.rows = [] ∧ f.complete = false) ∧
        t.ebeQueue n = [] ∧ t.rd (Adr.EBE.STRIDE_UNITS n) = stride % 2 ^ 32 ∧
        t.rd (Adr.EBE.TILE_BYTES n) = tileBytesOf (cwOf (Fld.EBE.ENC_CFG_CW s.regs n)) (s.ratio2 n) % 2 ^ 32 ∧
        t.rd (Adr.EBE.FRAMES_WHOLE n) = (s.ebeOf n).ring.2 / stride % 2 ^ 32 ∧
        SameRegsBut [Adr.EBE.STRIDE_UNITS n, Adr.EBE.TILE_BYTES n, Adr.EBE.FRAMES_WHOLE n, Adr.EBE.HELD n] s t)) ∧
    ((s.ebeOf n).running = false → Does (.ebeFrameStart n) s s) ∧
    (∀ (record : FrameRec) (w h : Nat) (skipped : Bool) (stride : Nat), stride = strideOf (cwOf (Fld.EBE.ENC_CFG_CW s.regs n)) (s.ratio2 n) (tilesX w * tilesY h) →
      (s.ebeOf n).geometry = some (w, h, stride) → (s.ebeOf n).stopAt = none → Fld.EBE.REC_STAT_STATE s.regs n = 0 → (s.ebeOf n).starved = false →
      (s.ebeOf n).ring.2 / stride ≤ Fld.EBE.COMMIT_RESERVE s.regs n →
      ((s.ebeBegin n record w h skipped).ebeOf n).starved = true ∧
      { page := 0x14, cause := 0x141 + n.val, code := 0x07, event := true, unit := 0x141 + n.val } ∈ (s.ebeBegin n record w h skipped).held ∧
      ∃ f, ((s.ebeBegin n record w h skipped).ebeOf n).open_ = some f ∧ f.unit = none ∧ f.record = record) ∧
    (∀ f u, (s.ebeOf n).open_ = some f → f.complete = true → f.unit = some u → f.ratio2 ≠ 0 → Fld.EBE.REC_STAT_STATE s.regs n = 0 →
      Completes (.ebeFrameEnd n) s (fun t => (t.ebeOf n).open_ = none ∧ (t.ebeOf n).nextCount = some ((f.record.count + 1) % 2 ^ 32) ∧
        (∃ g, (t.ebeOf n).frames = (s.ebeOf n).frames ++ [g] ∧ g.count = f.record.count ∧ g.unit = u ∧ g.bytes = f.frameBytes ∧ g.committed = false) ∧
        t.rd (Adr.EBE.HELD n) = ((s.ebeOf n).frames.length + 1) % 2 ^ 32 ∧ t.dram = (s.ringWrite n u 0 f.header).dram ∧
        SameRegsBut [Adr.EBE.HELD n] s t)) ∧
    (∀ f, (s.ebeOf n).open_ = some f → f.complete = false → Does (.ebeFrameEnd n) s s) ∧
    (∀ f unit, unit < 4096 → (s.ebeOf n).open_ = some f → Completes (.tileWriteError n unit) s (fun t =>
      (t.ebeOf n).open_ = some { f with writeErr := true } ∧ t.rd (Adr.EBE.WRITE_ERR n) = satInc 32 (s.rd (Adr.EBE.WRITE_ERR n)) ∧
      { page := 0x14, cause := unit, code := 0x01, event := true, unit := 0x141 + n.val } ∈ t.held ∧ t.dram = s.dram)) ∧
    (∀ unit, unit < 4096 → (s.ebeOf n).open_ = none → Does (.tileWriteError n unit) s s)) ∧
  (∀ (s : State) (n : Fin 4),
    ((s.ebeOf n).running = false → Does (.recStart n false) s s ∧ Does (.recStop n false) s s) ∧
    ((s.ebeOf n).running = true → Fld.EBE.REC_STAT_STATE s.regs n = 0 → Completes (.recStart n false) s (fun t =>
      Fld.EBE.REC_STAT_STATE t.regs n = 1 ∧ Fld.EBE.REC_STAT_LATE t.regs n = 0 ∧ (t.ebeOf n).trigger = some (.next (s.framesUnder n)) ∧ t.dram = s.dram ∧
      SameRegsBut [Adr.EBE.REC_STAT n, Adr.EBE.HELD n] s t)) ∧
    ((s.ebeOf n).running = true → Fld.EBE.REC_STAT_STATE s.regs n = 0 → serial 32 (Fld.EBE.REC_AT_COUNT s.regs n) (s.grp n).cnt = .earlier →
      Completes (.recStart n true) s (fun t =>
        Fld.EBE.REC_STAT_STATE t.regs n = 1 ∧ Fld.EBE.REC_STAT_LATE t.regs n = 1 ∧ (t.ebeOf n).trigger = some (.next (s.framesUnder n)))) ∧
    ((s.ebeOf n).running = true → Fld.EBE.REC_STAT_STATE s.regs n = 0 → serial 32 (Fld.EBE.REC_AT_COUNT s.regs n) (s.grp n).cnt = .later →
      Completes (.recStart n true) s (fun t =>
        Fld.EBE.REC_STAT_STATE t.regs n = 1 ∧ Fld.EBE.REC_STAT_LATE t.regs n = 0 ∧ (t.ebeOf n).trigger = some (.count (Fld.EBE.REC_AT_COUNT s.regs n)))) ∧
    ((s.ebeOf n).running = true → Fld.EBE.REC_STAT_STATE s.regs n = 1 → Completes (.recStop n false) s (fun t =>
      Fld.EBE.REC_STAT_STATE t.regs n = 0 ∧ (t.ebeOf n).trigger = none ∧ SameRegsBut [Adr.EBE.REC_STAT n, Adr.EBE.HELD n] s t)) ∧
    ((s.ebeOf n).running = true → Fld.EBE.REC_STAT_STATE s.regs n = 2 → (s.ebeOf n).open_.isSome = true → Completes (.recStop n false) s (fun t =>
      Fld.EBE.REC_STAT_STATE t.regs n = 2 ∧ (t.ebeOf n).stopAt = some (.next (s.framesUnder n)) ∧ (t.ebeOf n).frames = (s.ebeOf n).frames)) ∧
    (∀ r : FrameRec, (TakePoint.next (s.framesUnder n)).chooses r = true ↔ (r.count, r.sof) ∉ s.framesUnder n) ∧
    (∀ (keep : Nat) (fs : List RingFrame), ((dropOldest keep fs).filter (fun f => !f.committed)).length ≤ keep ∧
      (dropOldest keep fs).filter (·.committed) = fs.filter (·.committed)))

/-- While no clock domain is stopped: PLAY START with a flow begins at frame 0; STOP ends; a job past its COUNT ends; a frame whose header, read with the
errors of the command's beats, is not good counts HDR_ERR, reports it, and is passed on as blank rows. ORG_FRAME_END of a complete frame counts it,
shows LAST_FC, and writes statistics, each enabled region with the number of its frame, only for the context of STAT_CFG and a histogram only with
HIST_EN; otherwise it does nothing. Model's choices and readings: entry 59, entry 60, entry 61, entry 66 of the log. (R136, R137, R138, R155, R156) -/
def Obligations.DecoderAndOrangeryFrames : Prop :=
  (∀ s : State, s.stopped = [] →
    (s.ebd.isSome = true → Does .playStart s s) ∧
    (s.ebd = none → s.enabled 0x15 = true → s.hasFlow 0x150 = true → Fld.EBD.PACE_NUM (s.regs.page 0x15) = 0 → Completes .playStart s (fun t =>
      t.ebd = some { cfg := s.regs.page 0x15, n := 0, base := 0 } ∧ t.rd Adr.EBD.FRAMES_DONE = 0 ∧ SameRegsBut [Adr.EBD.FRAMES_DONE] s t ∧ t.dram = s.dram)) ∧
    Does .playStop s { s with ebd := none } ∧
    (∀ j, s.ebd = some j → s.orgInB = [] → s.orgOpen 1 = false → Fld.EBD.COUNT j.cfg ≤ j.n → Does (.decodeFrame []) s { s with ebd := none }) ∧
    (∀ j reads, Instr.wellFormed (.decodeFrame reads) = true → s.ebd = some j → j.n < Fld.EBD.COUNT j.cfg → s.holding 0x15 = false → s.paceReached j = true →
      headerGood (s.frameRead j.cfg (frameUnit j.cfg j.n) reads 0 4096).1 = false → s.orgInB = [] →
      (∃ u : State, Does (.decodeFrame reads) s (u.orgFeed 1) ∧ u.rd Adr.EBD.HDR_ERR = satInc 32 (s.rd Adr.EBD.HDR_ERR) ∧
        u.rd Adr.EBD.FRAMES_DONE = satInc 32 (s.rd Adr.EBD.FRAMES_DONE) ∧
        { page := 0x15, cause := 0x150, code := 0x20, event := true, unit := 0x150 } ∈ u.held ∧
        (u.ebd = if j.n + 1 < Fld.EBD.COUNT j.cfg then some { j with n := j.n + 1 } else none) ∧ u.dram = s.dram))) ∧
  (∀ (s : State) (c : Fin 2), s.stopped = [] →
    ((s.orgOf c).frame = none → Does (.orgFrameEnd c) s s) ∧
    (∀ f, (s.orgOf c).frame = some f → f.complete = false ∨ f.ended = true → Does (.orgFrameEnd c) s s) ∧
    (∀ f, (s.orgOf c).frame = some f → f.complete = true → f.ended = false → f.record.count < 2 ^ 32 → Completes (.orgFrameEnd c) s (fun t =>
      t.rd (Adr.ORG.FRAMES c) = satInc 32 (s.rd (Adr.ORG.FRAMES c)) ∧ t.rd (Adr.ORG.LAST_FC c) = f.record.count ∧
      (t.orgOf c).frame = some { f with ended := true } ∧ SameRegsBut [Adr.ORG.FRAMES c, Adr.ORG.LAST_FC c] s t ∧
      (Fld.ORG.STAT_CFG_CTX f.cfg ≠ c → t.orgStats = s.orgStats ∧ t.dram = s.dram) ∧
      (∀ k < 4, Fld.ORG.STAT_CFG_CTX f.cfg = c → Fld.ORG.STAT_CFG_EN f.cfg = 1 → Fld.ORG.REG_CTL_EN f.cfg k = 1 → Fld.ORG.REG_SIZE_W f.cfg k ≠ 0 →
        Fld.ORG.REG_SIZE_H f.cfg k ≠ 0 → SMap.get (fun _ => 0) t.orgStatCount k = f.record.count) ∧
      (Fld.ORG.STAT_CFG_HIST_EN f.cfg = 0 → t.dram = s.dram))))

/-- TBL_SEL selects a table and copy and zeroes TBL_ADDR. A write of TBL_DATA to a copy in use is refused and counted; otherwise it changes exactly the
addressed word; TBL_ADDR advances. LOAD_CMD begins a load, is refused and counted while one runs or the copy is in use, and is ignored for an ID
without a table. LOAD_DONE, while no clock domain is stopped, copies the whole image and shows DONE, or part of it with ERROR and UPSTREAM. Model's
choices and readings: entry 44, entry 43, entry 45 of the log. (R152, R153, R154) -/
def Obligations.TableMemoryAccess : Prop :=
  ∀ (s : State) (v : Word), s.stopped = [] →
    (s.load = none → Completes (.tblSelWrite v) s (fun t => Fld.ORL.TBL_SEL_ID t.regs = v.toNat % 256 ∧ Fld.ORL.TBL_SEL_COPY t.regs = bits v.toNat 8 1 ∧
      Fld.ORL.TBL_ADDR t.regs = 0 ∧ SameRegsBut [Adr.ORL.TBL_SEL, Adr.ORL.TBL_ADDR] s t ∧ t.tables = s.tables)) ∧
    (s.copyInUse (Fld.ORL.TBL_SEL_ID s.regs) (Fld.ORL.TBL_SEL_COPY s.regs) = true → Completes (.tblDataAccess (.write v)) s (fun t =>
      t.tables = s.tables ∧ t.rd Adr.ORL.REFUSED = satInc 32 (s.rd Adr.ORL.REFUSED) ∧
      Fld.ORL.TBL_ADDR t.regs = (Fld.ORL.TBL_ADDR s.regs + 1) % 2 ^ 19)) ∧
    (∀ id copy i, Fld.ORL.TBL_SEL_ID s.regs = id → Fld.ORL.TBL_SEL_COPY s.regs = copy → Fld.ORL.TBL_ADDR s.regs = i → s.copyInUse id copy = false →
      s.copyLoading id copy = false → i < imageWords id → i ≠ 411937 → Completes (.tblDataAccess (.write v)) s (fun t =>
        t.tableWord id copy i = v ∧ (∀ j, j ≠ i → t.tableWord id copy j = s.tableWord id copy j) ∧ Fld.ORL.TBL_ADDR t.regs = (i + 1) % 2 ^ 19 ∧
        SameRegsBut [Adr.ORL.TBL_ADDR] s t)) ∧
    (s.load.isSome = true → Does .loadCmd s (s.bump Adr.ORL.REFUSED)) ∧
    (s.load = none → imageWords (Fld.ORL.TBL_SEL_ID s.regs) = 0 → Does .loadCmd s s) ∧
    (s.load = none → s.copyInUse (Fld.ORL.TBL_SEL_ID s.regs) (Fld.ORL.TBL_SEL_COPY s.regs) = false → imageWords (Fld.ORL.TBL_SEL_ID s.regs) ≠ 0 →
      Completes .loadCmd s (fun t => t.load = some {
        id := Fld.ORL.TBL_SEL_ID s.regs, copy := Fld.ORL.TBL_SEL_COPY s.regs, unit := Fld.ORL.LOAD_UNIT s.regs } ∧
        t.rd Adr.ORL.LOAD_STAT = 1 ∧ t.tables = s.tables)) ∧
    (∀ words read, s.load = none → (∀ u, read = some u → u < 4096) → Does (.loadDone words read) s s) ∧
    (∀ words l, s.load = some l → s.spanError (l.unit * 4096) (4 * imageWords l.id) = none →
      Does (.loadDone words none) s ((s.copyImage l (imageWords l.id)).endLoad 1)) ∧
    (∀ words l cause, cause < 4096 → s.load = some l →
      Does (.loadDone words (some cause)) s (((s.copyImage l (min words (imageWords l.id - 1))).endLoad 2).upstream 0x192 cause))

/-- A paced view takes the newest complete frame of its source at its slot, holds its buffer and makes due the groups armed on it. A frame start takes a
free buffer with the view's registers as they are, or is dropped and counted. A completed frame whose rows have all come becomes the newest of the
view with its count, tags, start and sequence number; before that nothing completes. The Parterre starts with ENABLE and a flow at the first slot that
is not past, counts a frame at each slot and stops. (Completion while no clock domain is stopped.) Model's choices and readings: entry 62, entry 64,
entry 66 of the log. (R157, R158, R171, R173, R378) -/
def Obligations.ViewsAndParterre : Prop :=
  (∀ (s : State) (v : Fin 8), s.stopped = [] →
    ((s.view v).running = false → Does (.viewPaceSlot v) s s) ∧
    (∀ b, (s.view v).running = true → (s.view v).paced = true → s.newestOf (s.viewSrc v) = some b →
      s.reached (slotTime (Fld.VW.PACE_START_LO s.regs v + 2 ^ 32 * Fld.VW.PACE_START_HI s.regs v) (Fld.VW.PACE_NUM s.regs v) (Fld.VW.PACE_DEN s.regs v)
        (s.view v).slot) = true → Completes (.viewPaceSlot v) s (fun t => (t.view v).slot = (s.view v).slot + 1 ∧
          (∃ st, (t.view v).starts = (s.view v).starts ++ [st] ∧ st.record.count = b.count ∧ st.buffer = some b) ∧ t.isHeld (s.viewSrc v) b.index = true ∧
          (∀ k, k ∈ s.armedOn 2 v → k ∈ t.due) ∧ t.regs = s.regs)) ∧
    ((s.view v).starts = [] → Does (.viewFrameStart v) s s) ∧
    (∀ st rest b, (s.view v).starts = st :: rest → (s.view v).frame = none → s.holding (viewPage v) = false →
      s.freeBuffer (viewSource v) (actNbuf (Fld.VW.NBUF s.regs v)) = some b → Completes (.viewFrameStart v) s (fun t =>
        (t.view v).starts = rest ∧ (t.view v).frame = some { start := st, cfg := s.regs.page (viewPage v), target := some b } ∧ t.regs = s.regs)) ∧
    (∀ st rest, (s.view v).starts = st :: rest → (s.view v).frame = none → s.holding (viewPage v) = false →
      s.freeBuffer (viewSource v) (actNbuf (Fld.VW.NBUF s.regs v)) = none → Completes (.viewFrameStart v) s (fun t =>
        (t.view v).starts = rest ∧ (t.view v).frame = none ∧ (t.view v).dropping = true ∧
        t.rd (Adr.VW.DROPPED v) = satInc 32 (s.rd (Adr.VW.DROPPED v)) ∧ SameRegsBut [Adr.VW.DROPPED v] s t)) ∧
    (∀ f b, (s.view v).frame = some f → f.start.buffer = none → f.start.whole = true → f.target = some b → Completes (.viewFrameComplete v ⟨[], none⟩) s (fun t =>
      (∃ d, t.newestOf (viewSource v) = some d ∧ d.index = b ∧ d.count = f.start.record.count ∧ d.tags = f.start.record.tags ∧ d.sof = f.start.record.sof ∧ d.seq = (s.view v).seq) ∧
      (t.view v).frame = none ∧ (t.view v).seq = ((s.view v).seq + 1) % 2 ^ 32 ∧ t.rd (Adr.VW.FRAMES_OUT v) = satInc 32 (s.rd (Adr.VW.FRAMES_OUT v)) ∧
      SameRegsBut [Adr.VW.FRAMES_OUT v, Adr.VW.CROP_CLIPPED v] s t)) ∧
    ((s.view v).frame = none → Does (.viewFrameComplete v ⟨[], none⟩) s s) ∧
    (∀ f, (s.view v).frame = some f → f.start.whole = false → Does (.viewFrameComplete v ⟨[], none⟩) s s)) ∧
  (∀ s : State,
    (s.enabled 0x1A = false ∨ s.hasFlow 0x1A0 = false → Does .patStart s s) ∧
    (s.enabled 0x1A = true → s.hasFlow 0x1A0 = true → serial 40 s.now (Fld.PAT.PAT_START_LO s.regs + 2 ^ 32 * Fld.PAT.PAT_START_HI s.regs) ≠ .ambiguous →
      Completes .patStart s (fun t => t.parterre = { s.parterre with
        running := true, n := (s.firstSlot (Fld.PAT.PAT_START_LO s.regs + 2 ^ 32 * Fld.PAT.PAT_START_HI s.regs) (Fld.PAT.RATE_NUM s.regs) (Fld.PAT.RATE_DEN s.regs)).1,
        base := (s.fullTime (Fld.PAT.PAT_START_LO s.regs + 2 ^ 32 * Fld.PAT.PAT_START_HI s.regs)).1 } ∧ t.rd Adr.PAT.FRAMES = 0 ∧
        SameRegsBut [Adr.PAT.FRAMES] s t ∧ t.dram = s.dram)) ∧
    Does .patStop s { s with parterre := { s.parterre with running := false } } ∧
    (s.parterre.running = false → Does .patFrameStart s s) ∧
    (s.parterre.running = true → s.holding 0x1A = false → s.viewsStalled 3 = false →
      s.slotReached s.parterre.base (Fld.PAT.RATE_NUM s.regs) (Fld.PAT.RATE_DEN s.regs) s.parterre.n = true → Completes .patFrameStart s (fun t =>
          t.parterre = { s.parterre with n := s.parterre.n + 1, serial := s.parterre.serial + 1 } ∧ t.rd Adr.PAT.FRAMES = satInc 32 (s.rd Adr.PAT.FRAMES) ∧
          SameRegsBut [Adr.PAT.FRAMES] s t ∧ t.dram = s.dram)))

/-- While no clock domain is stopped: START of a stopped, enabled session runs it with a fresh rate buffer and its ring's registers as they are, or
reports CONFIG; STOP drains a started session, keeping only the pictures begun, or ends it and clears its marks; FORCE_IDR is remembered. RD_PTR is
written for encode and WR_PTR for decode sessions only; a WR_PTR that completes a record of the ring the session reads makes it a picture with its
place and length and the session's engines. RING_SPACE stores the oldest stalled record once it fits and advances WR_PTR by its length. Model's
choices and readings: entry 70, entry 68 of the log. (R180, R181, R189, R190, R191, R192, R196) -/
def Obligations.SessionsStartAndStop : Prop :=
  ∀ (s : State) (n : Fin 32),
    (s.sesState n = 1 ∨ s.sesState n = 2 ∨ s.enabled 0x29 = false ∨ Fld.GLS.SES_CFG_EN s.regs n = 0 → Does (.sesStart n) s s) ∧
    (s.sesState n ≠ 1 → s.sesState n ≠ 2 → s.enabled 0x29 = true → Fld.GLS.SES_CFG_EN s.regs n = 1 → sesDecode s.regs n = false → (s.sesGood n).1 = false →
      Does (.sesStart n) s ((s.setSesState n 0).sesFault n 0x07)) ∧
    (s.sesState n ≠ 1 → s.sesState n ≠ 2 → s.enabled 0x29 = true → Fld.GLS.SES_CFG_EN s.regs n = 1 → sesDecode s.regs n = false → (s.sesGood n).1 = true →
      Completes (.sesStart n) s (fun t => t.sesState n = 1 ∧ (t.ses n).seq = 0 ∧ (t.ses n).sinceIdr = none ∧ (t.ses n).full = 0 ∧ (t.ses n).peak = 0 ∧
        (t.ses n).qpP = Fld.GLS.RC_CFG_QP_INIT s.regs n ∧ (t.ses n).pics = [] ∧ (t.ses n).ring = sesRing s.regs n ∧ SameRegsBut [Adr.GLS.SES_STAT n] s t ∧ t.dram = s.dram)) ∧
    (s.sesState n ≠ 1 → Does (.sesStop n) s s) ∧
    (s.sesState n = 1 → (s.ses n).started = true → (s.ses n).stalled = [] → Completes (.sesStop n) s (fun t =>
      t.sesState n = 2 ∧ (t.ses n).pics = (s.ses n).begun ∧ SameRegsBut [Adr.GLS.SES_STAT n] s t ∧ t.dram = s.dram)) ∧
    (s.sesState n = 1 → (s.ses n).started = false → Completes (.sesStop n) s (fun t =>
      t.sesState n = 0 ∧ (t.ses n).pics = [] ∧ (t.ses n).cmds = [] ∧ (∀ b, b ∈ s.sesBufs n → (t.pool b).mark = 0) ∧ SameRegsBut [Adr.GLS.SES_STAT n] s t ∧
      t.dram = s.dram)) ∧
    Does (.forceIdr n) s (s.setSes n { s.ses n with forceIdr := true }) ∧
    (∀ v, sesDecode s.regs n = false → Does (.rdPtrWrite n v) s (s.setReg (Adr.GLS.RD_PTR n) v.toNat) ∧ Does (.wrPtrWrite n v) s s) ∧
    (∀ v, sesDecode s.regs n = true → Does (.rdPtrWrite n v) s s) ∧
    (∀ v, sesDecode s.regs n = true → s.sesState n ≠ 1 → Does (.wrPtrWrite n v) s (s.setReg (Adr.GLS.WR_PTR n) v.toNat)) ∧
    (∀ v h rd size, sesDecode s.regs n = true → s.sesState n = 1 → (s.ses n).pics = [] → s.rd (Adr.GLS.RD_PTR n) = rd →
      (s.ses n).ring = sesRing s.regs n → s.ringBytes n = size → size ≠ 0 →
      s.ringLoad n rd 32 = (h, none) → fieldOf h 0 4 = 0x55414C47 → 32 + ceilDiv (fieldOf h 4 4) 32 * 32 ≤ (v.toNat + size - rd % size) % size →
      Completes (.wrPtrWrite n v) s (fun t => t.rd (Adr.GLS.WR_PTR n) = v.toNat ∧
        (∃ p, (t.ses n).pics = [p] ∧ p.ringAt = rd ∧ p.length = fieldOf h 4 4 ∧ p.source = none ∧ p.waiting = sesEngines s.regs n ∧ p.running = [] ∧ p.bad = []) ∧
        SameRegsBut [Adr.GLS.WR_PTR n] s t ∧ t.dram = s.dram)) ∧
    ((s.ses n).stalled = [] → Does (.ringSpace n) s s) ∧
    (∀ r rest, (s.ses n).stalled = r :: rest → r.ring = (s.ses n).ring → s.ringFree n < r.bytes.length → Does (.ringSpace n) s s) ∧
    (∀ r, (s.ses n).stalled = [r] → r.ring = (s.ses n).ring → (r.bytes.length : Int) ≤ s.ringFree n → Completes (.ringSpace n) s (fun t =>
      (t.ses n).stalled = [] ∧ t.rd (Adr.GLS.WR_PTR n) = (s.rd (Adr.GLS.WR_PTR n) + r.bytes.length) % s.ringBytes n % 2 ^ 32 ∧
      (s.enabled 0x30 = false → t.dram = (s.ringStore n (s.rd (Adr.GLS.WR_PTR n)) r.bytes).dram)))

/-- While no clock domain is stopped: at its slot a session takes the newest frame of its view as a picture with its deadline, or counts a mismatch.
ENGINE_DISPATCH gives a free engine the ready item with the earliest deadline, of the lower session where they agree; a new picture takes a free pool
buffer with the next generation stamp and is from then on the one that the next is compared with, or counts a pool wait, which ends when the handle
commands written since have freed one. DEADLINE_MISS drops the first picture not begun, counts and reports it. WORK_ITEM_DONE frees the engine and
keeps the failed reads; the last one ends the picture, advances SEQ and writes its record, which waits behind records already stalled, its engine with
it. Model's choices and readings: entry 69, entry 72, entry 67 of the log. (R177, R178, R181, R184, R185, R189) -/
def Obligations.EnginesTakePictures : Prop :=
  ∀ (s : State) (n : Fin 32) (e : Fin 6) (slot : Nat), s.stopped = [] →
    slot = slotTime (sesStartTime s.regs n) (Fld.GLS.PACE_NUM s.regs n) (Fld.GLS.PACE_DEN s.regs n) (s.ses n).slot →
    (s.sesState n ≠ 1 ∨ sesDecode s.regs n = true ∨ Fld.GLS.PACE_NUM s.regs n = 0 ∨ s.reached slot = false → Does (.encodeSlot n) s s) ∧
    (∀ b, s.sesState n = 1 → sesDecode s.regs n = false → Fld.GLS.PACE_NUM s.regs n ≠ 0 → s.reached slot = true →
      s.newestOf (viewSource (Fld.GLS.SRC_VIEW s.regs n)) = some b → sesMatches s.regs n b = true → Completes (.encodeSlot n) s (fun t =>
        (t.ses n).slot = (s.ses n).slot + 1 ∧
        (∃ p, (t.ses n).pics = (s.ses n).pics ++ [p] ∧ p.slot = slot ∧ p.source = some (Fld.GLS.SRC_VIEW s.regs n, b) ∧
          p.deadline = (slot + periodNs (Fld.GLS.PACE_NUM s.regs n) (Fld.GLS.PACE_DEN s.regs n)) % 2 ^ 40 ∧ p.waiting = sesEngines s.regs n ∧
          p.target = none) ∧
        t.isHeld (viewSource (Fld.GLS.SRC_VIEW s.regs n)) b.index = true ∧ t.regs = s.regs ∧ t.dram = s.dram)) ∧
    (∀ b, s.sesState n = 1 → sesDecode s.regs n = false → Fld.GLS.PACE_NUM s.regs n ≠ 0 → s.reached slot = true →
      s.newestOf (viewSource (Fld.GLS.SRC_VIEW s.regs n)) = some b → sesMatches s.regs n b = false → Completes (.encodeSlot n) s (fun t =>
        (t.ses n).slot = (s.ses n).slot + 1 ∧ (t.ses n).pics = (s.ses n).pics ∧ (t.ses n).mismatch = satInc 16 (s.ses n).mismatch ∧
        ((s.ses n).mismatchRun = false → { page := 0x29, cause := 0x290, code := 0x07, event := true, unit := 0x290 } ∈ t.held) ∧ t.dram = s.dram)) ∧
    (Fld.GLC.ENG_SES_VALID s.regs e = 1 ∨ s.readyFor e = [] → Does (.engineDispatch e) s s) ∧
    (∀ k d p b, Fld.GLC.ENG_SES_VALID s.regs e = 0 → earliest (s.readyFor e) none = some (k, d) →
      (s.ses k).itemOf e = some p → p.target = some b →
      Does (.engineDispatch e) s ((s.setSes k { s.ses k with
        pics := (s.ses k).putPic { p with waiting := p.waiting.filter (fun i => i != e.val), running := p.running ++ [e.val] } }).setReg
          (Adr.GLC.ENG_SES e) (k + 0x100))) ∧
    (∀ k d p rest b, Fld.GLC.ENG_SES_VALID s.regs e = 0 → earliest (s.readyFor e) none = some (k, d) →
      (s.ses k).pics = p :: rest → p.waiting.contains e.val = true → p.target = none → (s.ses k).cmds = [] → (s.sesBufs k).find? (fun b => (s.pool b).isFree) = some b →
      Completes (.engineDispatch e) s (fun t => t.rd Adr.GLP.GEN = (s.rd Adr.GLP.GEN + 1) % 256 ∧ (t.pool b).mark = 1 ∧
        (t.pool b).stamp = (s.rd Adr.GLP.GEN + 1) % 256 ∧ t.rd (Adr.GLC.ENG_SES e) = (k + 0x100) % 2 ^ 32 ∧
        (∃ q, (t.ses k).pics.head? = some q ∧ q.target = some b ∧ q.running = p.running ++ [e.val]) ∧
        (∀ v f, p.source = some (v, f) → (t.ses k).prevSeq = some f.seq ∧ (t.ses k).prevCfg = some p.cfg) ∧ t.dram = s.dram ∧
        SameRegsBut [Adr.GLP.GEN, Adr.GLC.ENG_SES e] s t)) ∧
    (∀ k d p rest, Fld.GLC.ENG_SES_VALID s.regs e = 0 → earliest (s.readyFor e) none = some (k, d) →
      (s.ses k).pics = p :: rest → p.waiting.contains e.val = true → p.target = none → (s.ses k).cmds = [] → (s.sesBufs k).find? (fun b => (s.pool b).isFree) = none →
      Completes (.engineDispatch e) s (fun t => (t.ses k).poolWaiting = true ∧ (t.ses k).poolWait = satInc 16 (s.ses k).poolWait ∧ t.regs = s.regs)) ∧
    (∀ k d, (s.readyFor e).all (fun i => decide (i.2 < 2 ^ 39)) = true → earliest (s.readyFor e) none = some (k, d) →
      (k, d) ∈ s.readyFor e ∧ (s.readyFor e).all (fun i => decide (d < i.2 ∨ (d = i.2 ∧ k ≤ i.1))) = true) ∧
    ((s.ses n).pics = [] → Does (.deadlineMiss n) s s) ∧
    (∀ p v b, (s.ses n).pics.find? (fun p => p.target.isNone) = some p → p.source = some (v, b) → serial 40 s.now p.deadline ≠ .earlier →
      Does (.deadlineMiss n) s (((s.letGo (viewSource v) (sesReader n) b.index).setSes n { s.ses n with
        pics := (s.ses n).pics.erase p, lateSkipped := satInc 32 (s.ses n).lateSkipped }).sesFault n 0x08)) ∧
    (∀ u : State, u = s.applyHandles n → (u.sesBufs n).any (fun b => (u.pool b).isFree) = true →
      Does (.poolWaitEnd n) s (s.setSes n { s.ses n with poolWaiting := false })) ∧
    (∀ u : State, u = s.applyHandles n → (u.sesBufs n).any (fun b => (u.pool b).isFree) = false → Does (.poolWaitEnd n) s s) ∧
    (Fld.GLC.ENG_SES_VALID s.regs e = 0 → Does (.workItemDone ⟨e, []⟩) s s) ∧
    (∀ p reads, beatsOk reads = true → Fld.GLC.ENG_SES_VALID s.regs e = 1 → Fld.GLC.ENG_SES_SESSION s.regs e = n →
      (s.ses n).pics.find? (fun p => p.running.contains e.val) = some p → p.waiting ≠ [] → Does (.workItemDone ⟨e, reads⟩) s (((s.setSes n { s.ses n with
        pics := (s.ses n).putPic { p with running := p.running.filter (fun i => i != e.val), bad := p.bad ++ reads } }).bump
          (Adr.GLC.ENG_ITEMS e)).setFld (Adr.GLC.ENG_SES e) 8 1 0)) ∧
    (∀ p rest b v f, Fld.GLC.ENG_SES_VALID s.regs e = 1 → Fld.GLC.ENG_SES_SESSION s.regs e = n → (s.ses n).pics = p :: rest → p.running = [e.val] →
      p.waiting = [] → p.target = some b → p.source = some (v, f) → s.sesState n = 1 →
      (∀ q ∈ rest, ¬ (q.slot = p.slot ∧ q.ringAt = p.ringAt ∧ q.source = p.source)) → Completes (.workItemDone ⟨e, []⟩) s (fun t =>
        (t.ses n).seq = ((s.ses n).seq + 1) % 2 ^ 32 ∧ (t.ses n).pics = rest ∧ (t.ses n).prevSeq = (s.ses n).prevSeq ∧
        t.rd (Adr.GLC.ENG_ITEMS e) = satInc 32 (s.rd (Adr.GLC.ENG_ITEMS e)) ∧ t.rd (Adr.GLS.PICTURES n) = satInc 32 (s.rd (Adr.GLS.PICTURES n)) ∧
        ((s.ses n).stalled = [] ∧ (t.ses n).stalled = [] ∧ Fld.GLC.ENG_SES_VALID t.regs e = 0 ∨
          (∃ r, (t.ses n).stalled = (s.ses n).stalled ++ [r] ∧ r.engine = e.val) ∧ Fld.GLC.ENG_SES_VALID t.regs e = 1)))

/-- A handle of an older generation is refused as stale, counted and reported by MARK_LONG, MARK_UNUSED and RELEASE_OUTPUT; one of the buffer's generation
is accepted exactly as its mark, owner and use allow, and refused otherwise. STALE_RESTART zeroes the count. DECODE_PUBLISH, while no clock domain is
stopped, delivers the first picture in output order, once the stream's reordering lets it leave, to its view or, as a handle, in a descriptor, and
nothing before. Model's choices and readings: entry 71 of the log. (R13, R184, R186, R187, R193) -/
def Obligations.PoolHandles : Prop :=
  ∀ (s : State) (h : BitVec 16) (b gen : Nat), s.stopped = [] → b = h.toNat % 64 → gen = h.toNat / 256 → (s.rd Adr.GLP.GEN + 256 - gen) % 256 < 128 →
    ((s.pool b).stamp ≠ gen → Does (.markLong h) s (((s.setReg Adr.GLP.H_STAT 1).bump Adr.GLP.STALE).fault 0x2A0 0x22) ∧
      Does (.markUnused h) s (((s.setReg Adr.GLP.H_STAT 1).bump Adr.GLP.STALE).fault 0x2A0 0x22) ∧
      Does (.releaseOutput h) s (((s.setReg Adr.GLP.H_STAT 1).bump Adr.GLP.STALE).fault 0x2A0 0x22)) ∧
    ((s.pool b).stamp = gen → (s.pool b).assigned = true → sesDecode s.regs (s.pool b).session = false → (s.pool b).mark = 1 →
      Does (.markLong h) s (s.acceptHandle 1 b)) ∧
    ((s.pool b).stamp = gen → (s.pool b).mark ≠ 1 → Does (.markLong h) s (((s.setReg Adr.GLP.H_STAT 2).bump Adr.GLP.STALE).fault 0x2A0 0x22)) ∧
    ((s.pool b).stamp = gen → (s.pool b).assigned = true → (s.pool b).mark ≠ 0 → s.inProgress b = false → Does (.markUnused h) s (s.acceptHandle 2 b)) ∧
    ((s.pool b).stamp = gen → s.inProgress b = true → Does (.markUnused h) s (((s.setReg Adr.GLP.H_STAT 2).bump Adr.GLP.STALE).fault 0x2A0 0x22)) ∧
    ((s.pool b).stamp = gen → (s.pool b).assigned = true → (s.pool b).outputPending = true → Fld.GLS.SES_CFG_OUT_TO_VIEW s.regs (s.pool b).session = 0 →
      Does (.releaseOutput h) s (s.acceptHandle 3 b)) ∧
    ((s.pool b).stamp = gen → (s.pool b).outputPending = false → Does (.releaseOutput h) s (((s.setReg Adr.GLP.H_STAT 2).bump Adr.GLP.STALE).fault 0x2A0 0x22)) ∧
    Does .staleRestart s (s.setReg Adr.GLP.STALE 0) ∧
    (∀ (n : Fin 32) o addr, sesDecode s.regs n = true → s.sesState n = 1 → (s.ses n).outQueue = [o] → s.bumps n o = true → Fld.GLS.PACE_NUM s.regs n = 0 →
      addr = Fld.GLP.DESC_UNIT s.regs * 4096 + 64 * o.buffer → Completes (.decodePublish n) s (fun t => (t.ses n).outQueue = [] ∧
        (t.ses n).outCount = (s.ses n).outCount + 1 ∧ (t.ses n).handle = o.buffer + 256 * (s.pool o.buffer).stamp ∧ SameBytesBut addr 64 s t ∧
        SameRegsBut [Adr.GLS.FAULT_SES] s t ∧
        (Fld.GLS.SES_CFG_OUT_TO_VIEW s.regs n = 1 → ∃ f, t.newestOf (gdSource (Fld.GLS.SES_CFG_OUT_SRC s.regs n)) = some f ∧ f.index = o.buffer ∧
          f.tags = o.tags ∧ f.seq = (s.ses n).outCount % 2 ^ 32) ∧
        (Fld.GLS.SES_CFG_OUT_TO_VIEW s.regs n = 0 → t.newest = s.newest))) ∧
    (∀ n : Fin 32, (s.ses n).outQueue = [] → Does (.decodePublish n) s s) ∧
    (∀ (n : Fin 32) o, firstOut (s.ses n).outQueue = some o → s.bumps n o = false → Does (.decodePublish n) s s) ∧
    (∀ (l : List OutPicture) o, firstOut l = some o → o ∈ l ∧ l.all (fun q => decide (o.order.1 < q.order.1 ∨ (o.order.1 = q.order.1 ∧ o.order.2 ≤ q.order.2))) = true)

/-- While no clock domain is stopped: enabling a member drives its control registers with the places of its admin queues and issues Identify Controller;
the answers set the largest transfer and the capacity and lead through Identify Namespace and Set Features to queues on staging units of their own;
the end makes it READY, or FAILED with CONFIG for a bad format or limit and TIMEOUT for a failed step; losing a member makes its volumes FAILED and
halts their channels. Disabling a FAILED one deletes its queues and a REMOVED one frees them; commands that a host command still waits for stay, as
failed. A completion ends its command and lets commands that waited for staging units have them; an error is retried up to RETRY, with the error log
read, and then fails the member; a time-out of a READY member fails it, and of a FAILED one counts. A root port that goes down removes its members,
with LINK_DOWN, and no others. An inbound request to a unit of a command in progress moves its data in the command's direction; any other is turned
down as unsupported and fails the member. Model's choices and readings: entry 73, entry 83, entry 74, entry 172 of the log. (R197, R198, R199, R200,
R205, R209, R212) -/
def Obligations.MemberDrives : Prop :=
  ∀ (s : State) (m : Fin 32), s.stopped = [] →
    (s.memState m ≠ 0 → Does (.memberEnable m) s s) ∧
    (s.memState m = 0 → Completes (.memberEnable m) s (fun t => t.memState m = 1 ∧ Fld.BTM.MEM_CFG_EN t.regs m = 1 ∧
      (∃ c, (t.member m).cmds = (s.member m).cmds.filter (·.failed) ++ [c] ∧ c.purpose = .init ∧ c.op = .identifyController) ∧
      .memberControl (Fld.BTM.MEM_CFG_PORT s.regs m) (s.rd (Adr.BTM.MEM_BAR_LO m) + 2 ^ 32 * s.rd (Adr.BTM.MEM_BAR_HI m)) true
        ((t.member m).queues.map (· * 4096)) ∈ t.outbox ∧
      SameRegsBut [Adr.BTM.MEM_CFG m, Adr.BTM.MEM_STAT m] s t ∧ t.dram = s.dram)) ∧
    (∀ r, s.memState m ≠ 1 → Does (.memberInitDone m r) s s) ∧
    (s.memState m = 1 → (s.member m).stage = .running → Does (.memberInitDone m .ended) s s) ∧
    (s.memState m = 1 → (s.member m).stage = .done → (s.member m).formatOk = true → (s.member m).mdts = 0 ∨ 65536 ≤ (s.member m).mdts →
      Completes (.memberInitDone m .ended) s (fun t => t.memState m = 2 ∧ (t.member m).capacity = (s.member m).capacity ∧
        (t.member m).mdts = (s.member m).mdts ∧ (∀ c, c ∈ (t.member m).cmds → c.purpose ≠ .init) ∧ SameRegsBut [Adr.BTM.MEM_STAT m] s t ∧ t.dram = s.dram)) ∧
    (s.memState m = 1 → (s.member m).stage = .done → (s.member m).formatOk = false ∨ (s.member m).mdts ≠ 0 ∧ (s.member m).mdts < 65536 →
      Completes (.memberInitDone m .ended) s (fun t =>
        MemberLost s t m 3 ∧ { page := 0x31, cause := 0xF00 + m.val, code := 0x07, event := true, unit := 0xF00 + m.val } ∈ t.held)) ∧
    (s.memState m = 1 → (s.member m).stage = .failed → Completes (.memberInitDone m .ended) s (fun t =>
      MemberLost s t m 3 ∧ { page := 0x31, cause := 0xF00 + m.val, code := 0x04, event := true, unit := 0xF00 + m.val } ∈ t.held)) ∧
    (s.memState m = 1 → Completes (.memberInitDone m .timeout) s (fun t =>
      MemberLost s t m 3 ∧ { page := 0x31, cause := 0xF00 + m.val, code := 0x04, event := true, unit := 0xF00 + m.val } ∈ t.held)) ∧
    (∀ cid c k, cid < 2 ^ 16 → s.memState m = 1 → (s.issuedTo m).find? (fun c => c.cid == cid) = some c → c.purpose = .init → c.op = .identifyController →
      fieldOf (s.dramRead (c.units.headD 0 * 4096) 4096) 77 1 = k → Completes (.nvmeCompletion m cid .ok) s (fun t =>
        (t.member m).mdts = (if k = 0 then 0 else 4096 * 2 ^ k) ∧
        (s.blocksWait = false → ∃ d, (t.member m).cmds = (s.member m).cmds.erase c ++ [d] ∧ d.op = .identifyNamespace ∧ d.nsid = Fld.BTM.NSID s.regs m) ∧
        t.regs = s.regs)) ∧
    (∀ cid c, cid < 2 ^ 16 → s.memState m = 1 → (s.issuedTo m).find? (fun c => c.cid == cid) = some c → c.purpose = .init → c.op = .identifyNamespace →
      Completes (.nvmeCompletion m cid .ok) s (fun t =>
        (t.member m).capacity = min (fieldOf (s.dramRead (c.units.headD 0 * 4096) 4096) 0 8 * 4096) (2 ^ 47) ∧
        (s.blocksWait = false → ∃ d, (t.member m).cmds = (s.member m).cmds.erase c ++ [d] ∧ d.op = .setQueues 1) ∧ t.regs = s.regs)) ∧
    (∀ cid c, cid < 2 ^ 16 → s.memState m = 1 → s.blocksWait = false → (s.issuedTo m).find? (fun c => c.cid == cid) = some c → c.purpose = .init →
      c.op = .setQueues 1 → Completes (.nvmeCompletion m cid .ok) s (fun t =>
        ∃ us d, (t.member m).queues = (s.member m).queues ++ us ∧ (t.member m).cmds = (s.member m).cmds.erase c ++ [d] ∧ d.op = .createCq (s.qdepth m) ∧
          d.units = us ∧ us.length ≤ ceilDiv (16 * s.qdepth m) 4096)) ∧
    (∀ cid c k, cid < 2 ^ 16 → s.memState m = 1 → (s.issuedTo m).find? (fun c => c.cid == cid) = some c → c.purpose = .init → c.op = .createSq k →
      Completes (.nvmeCompletion m cid .ok) s (fun t => (t.member m).stage = .done ∧ (s.blocksWait = false → (t.member m).cmds = (s.member m).cmds.erase c) ∧ t.regs = s.regs)) ∧
    (s.memState m = 4 → Completes (.memberDisable m) s (fun t => Fld.BTM.MEM_CFG_EN t.regs m = 0 ∧ t.memState m = 0 ∧
      (t.member m).cmds = ((s.member m).cmds.filter s.stillAsked).map MemberCmd.abandon ∧ (t.member m).queues = [] ∧
      SameRegsBut [Adr.BTM.MEM_CFG m, Adr.BTM.MEM_STAT m] s t)) ∧
    (s.memState m = 3 → Completes (.memberDisable m) s (fun t => Fld.BTM.MEM_CFG_EN t.regs m = 0 ∧ t.memState m = 0 ∧
      (t.member m).cmds.map (·.op) = ((s.member m).cmds.filter s.stillAsked).map (·.op) ++ [.deleteSq, .deleteCq] ∧ SameRegsBut [Adr.BTM.MEM_CFG m, Adr.BTM.MEM_STAT m] s t)) ∧
    (s.memState m ≠ 3 → s.memState m ≠ 4 → Does (.memberDisable m) s (s.setFld (Adr.BTM.MEM_CFG m) 0 1 0)) ∧
    (∀ cid st, cid < 2 ^ 16 → (s.issuedTo m).find? (fun c => c.cid == cid) = none ∨ s.memState m = 4 → Does (.nvmeCompletion m cid st) s s) ∧
    (∀ cid c, cid < 2 ^ 16 → s.memState m = 2 → (s.issuedTo m).find? (fun c => c.cid == cid) = some c → c.purpose ≠ .remove →
      Does (.nvmeCompletion m cid .ok) s (s.setMember m { s.member m with
        written := (s.member m).written + (if c.op.isWrite then c.bytes else 0), cmds := (s.member m).cmds.erase c }).restage) ∧
    (∀ cid c, cid < 2 ^ 16 → s.memState m = 2 → (s.issuedTo m).find? (fun c => c.cid == cid) = some c → c.retries < Fld.BTM.RETRY s.regs m →
      Completes (.nvmeCompletion m cid (.error false)) s (fun t => t.memState m = 2 ∧ (t.member m).errors = satInc 32 (s.member m).errors ∧
        (∃ e : MemberCmd, e.purpose = .errorLog ∧ (t.member m).cmds =
          ((s.member m).cmds ++ [e]).map (fun c => if c.cid = cid then { c with retries := c.retries + 1 } else c)) ∧ t.regs = s.regs)) ∧
    (∀ cid c dnr, cid < 2 ^ 16 → s.memState m = 2 → (s.issuedTo m).find? (fun c => c.cid == cid) = some c →
      dnr = true ∨ Fld.BTM.RETRY s.regs m ≤ c.retries → Completes (.nvmeCompletion m cid (.error dnr)) s (fun t =>
        MemberLost s t m 3 ∧ { page := 0x31, cause := 0xF00 + m.val, code := 0x20, event := true, unit := 0xF00 + m.val } ∈ t.held)) ∧
    (s.memState m = 2 → s.issuedTo m ≠ [] → Completes (.memberCmdTimeout m) s (fun t =>
      MemberLost s t m 3 ∧ { page := 0x31, cause := 0xF00 + m.val, code := 0x04, event := true, unit := 0xF00 + m.val } ∈ t.held)) ∧
    (s.memState m = 3 → s.issuedTo m ≠ [] → Completes (.memberCmdTimeout m) s (fun t =>
      (t.member m).timeouts = satInc 32 (s.member m).timeouts ∧ t.regs = s.regs ∧ t.dram = s.dram)) ∧
    (s.memState m < 2 ∨ s.issuedTo m = [] → Does (.memberCmdTimeout m) s s) ∧
    (∀ p : Fin 8, Completes (.rootPortLinkDown p) s (fun t => ∀ k, k < 32 →
      (Fld.BTM.MEM_CFG_PORT s.regs k = p → s.memState k ≠ 0 → MemberLost s t k 4 ∧
        { page := 0x31, cause := 0xF00 + k, code := 0x06, event := false, unit := 0xF00 + k } ∈ t.held) ∧
      (Fld.BTM.MEM_CFG_PORT s.regs k ≠ p ∨ s.memState k = 0 → t.memState k = s.memState k))) ∧
    (∀ (p : Fin 8) unit c data, unit < 2 ^ 24 → data.length ≤ 4096 → Fld.BTM.MEM_CFG_PORT s.regs m = p → c ∈ s.issuedTo m → unit ∈ c.units →
      c.op.isWrite = true → Completes (.inboundRequest p m unit false data) s (fun t =>
        .inboundData p.val (s.loadBytes (unit * 4096) 4096) ∈ t.outbox ∧ t.regs = s.regs ∧ t.dram = s.dram)) ∧
    (∀ (p : Fin 8) unit c data, unit < 2 ^ 24 → data.length ≤ 4096 → Fld.BTM.MEM_CFG_PORT s.regs m = p → c ∈ s.issuedTo m → unit ∈ c.units →
      c.op.isWrite = false → Completes (.inboundRequest p m unit true data) s (fun t => t.dram = (s.store (unit * 4096) data).dram ∧ t.regs = s.regs)) ∧
    (∀ (p : Fin 8) unit isWrite data, unit < 2 ^ 24 → data.length ≤ 4096 →
      (∀ k c, k < 32 → Fld.BTM.MEM_CFG_PORT s.regs k = p → c ∈ s.issuedTo k → unit ∈ c.units → c.op.isWrite = isWrite) → s.memState m ≠ 0 →
      Completes (.inboundRequest p m unit isWrite data) s (fun t => MemberLost s t m 3 ∧ .unsupported p.val ∈ t.outbox ∧
        { page := 0x31, cause := 0xF00 + m.val, code := 0x05, event := true, unit := 0xF00 + m.val } ∈ t.held))

/-- While no clock domain is stopped: EN reads the label through member slot 0, or reports CONFIG; a good label makes the volume CLOSED and any other
LABEL_BAD. FORMAT and OPEN begin on a CLOSED volume, waiting for host writes; the journal as read gives the valid record with the highest SEQ; a take
with its end, or an empty journal, opens at once; a take without its end is read forward, one read at a time, while each frame or record found extends
it, and the first that does not ends the scan and recovers the take. The used slots, the append stripe and the next take follow from it. CLOSE needs
idle channels. Disabling waits for the host commands then in progress, and halts the channels. FETCH copies units of an OPEN or CLOSED volume to DRAM,
or ends with ERR; it ends only once its Reads are issued. Model's choices and readings: entry 79, entry 80, entry 81, entry 173 of the log. (R201,
R202, R203, R204, R205, R206, R207, R214) -/
def Obligations.VolumesChangeState : Prop :=
  ∀ (s : State) (v : Fin 16), s.stopped = [] →
    (s.volState v ≠ 0 → Does (.volumeEnable v) s s) ∧
    (s.volState v = 0 → s.volWait v = .none → (s.setFld (Adr.BTH.VOL_CFG v) 0 1 1).volConfigGood v = true → Completes (.volumeEnable v) s (fun t =>
      Fld.BTH.VOL_CFG_EN t.regs v = 1 ∧ t.volState v = 0 ∧ t.volWait v = .label ∧ (∃ c, c ∈ (t.member (s.slotMember v 0)).cmds ∧ c.purpose = .labelRead v ∧
        c.op = .read ∧ c.bytes = 4096 ∧ c.addr = s.slotBase v 0 * 2 ^ 20) ∧ SameRegsBut [Adr.BTH.VOL_CFG v] s t ∧ t.dram = s.dram)) ∧
    (s.volState v = 0 → s.volWait v = .none → (s.setFld (Adr.BTH.VOL_CFG v) 0 1 1).volConfigGood v = false →
      Does (.volumeEnable v) s (((s.setFld (Adr.BTH.VOL_CFG v) 0 1 1).setVolState v 5).volFault v 0x07)) ∧
    (∀ label, label.length = 4096 → s.volWait v = .label → s.labelGood v label = true → Completes (.labelReadDone v label) s (fun t =>
      t.volState v = 1 ∧ t.volWait v = .none ∧ SameRegsBut [Adr.BTH.VOL_STAT v] s t ∧ (s.blocksWait = false → t.dram = s.dram))) ∧
    (∀ label, label.length = 4096 → s.volWait v = .label → s.labelGood v label = false → Completes (.labelReadDone v label) s (fun t =>
      t.volState v = 5 ∧ t.volWait v = .none ∧ t.rd Adr.BTH.FAULT_VOL = v ∧
      { page := 0x30, cause := 0x30A, code := 0x21, event := true, unit := 0x30A } ∈ t.held)) ∧
    (∀ label, label.length = 4096 → s.volWait v ≠ .label → Does (.labelReadDone v label) s s) ∧
    (s.volState v ≠ 0 → (∀ l, s.volWait v ≠ .disable l) → (∀ c, c ∈ s.ofc.cmds → c.sq = 0 ∨ c.cmd.nsid ≠ v + 1) → Completes (.volumeDisable v) s (fun t => Fld.BTH.VOL_CFG_EN t.regs v = 0 ∧
      t.volState v = 0 ∧ t.volWait v = .none ∧ (∀ c tk, c < 8 → (s.recChan c).take = some tk → tk.vol = v → s.chState c = 1 ∨ s.chState c = 2 →
        t.chState c = 3 ∧ Fld.BTH.CH_STAT_REASON t.regs c = 1))) ∧
    (∀ l, s.volState v ≠ 0 → (∀ k, s.volWait v ≠ .disable k) → (∀ c, c ∈ s.ofc.cmds → c.issued = true) →
      l = (s.ofc.cmds.filter (fun c => c.sq != 0 && c.cmd.nsid == v.val + 1)).map (·.tag) → l ≠ [] →
      Does (.volumeDisable v) s ((s.setFld (Adr.BTH.VOL_CFG v) 0 1 0).setVolWait v (.disable l))) ∧
    (s.volState v = 1 ∨ s.volState v = 5 → s.volWait v = .none → s.hostWrites v = true → Does (.format v) s (s.setVolWait v .formatWait)) ∧
    (s.volState v = 1 ∨ s.volState v = 5 → s.volWait v = .none → s.hostWrites v = false → (∀ m, m ∈ s.volMembers v → s.memberBad m = false) →
      Completes (.format v) s (fun t => t.volState v = 2 ∧ t.volWait v = .format ∧ (∃ c, c ∈ (t.member (s.slotMember v 0)).cmds ∧ c.purpose = .label v ∧
        c.op = .write true ∧ c.bytes = 4096 ∧ c.addr = s.slotBase v 0 * 2 ^ 20) ∧ SameRegsBut [Adr.BTH.VOL_STAT v] s t)) ∧
    (s.volState v ≠ 1 → s.volState v ≠ 5 → Does (.format v) s s ∧ Does (.openVolume v) s s) ∧
    (s.volWait v = .format → Completes (.formatDone v) s (fun t => t.volState v = 1 ∧ t.volWait v = .none ∧
      SameRegsBut [Adr.BTH.VOL_STAT v] s t ∧ (s.blocksWait = false → t.dram = s.dram))) ∧
    (s.volWait v ≠ .format → Does (.formatDone v) s s) ∧
    (s.volState v = 1 → s.volWait v = .none → s.hostWrites v = true → Does (.openVolume v) s (s.setVolWait v .openWait)) ∧
    (s.volState v = 1 → s.volWait v = .none → s.hostWrites v = false → (∀ m, m ∈ s.volMembers v → s.memberBad m = false) →
      Completes (.openVolume v) s (fun t => t.volState v = 2 ∧ t.volWait v = .open ∧ SameRegsBut [Adr.BTH.VOL_STAT v] s t ∧ t.dram = s.dram)) ∧
    (s.volState v = 5 → Does (.openVolume v) s (s.volFault v 0x21)) ∧
    (∀ l data, s.volWait v = .open → (∀ m, m ∈ s.volMembers v → s.memberBad m = false) → l.all (fun b => b.length == 4096) = true →
      s.journalTail v l = none → Completes (.openScanDone v ⟨l, data⟩) s (fun t => t.volState v = 3 ∧
        t.volWait v = .none ∧ t.rd (Adr.BTH.JNL_USED v) = 0 ∧ t.rd (Adr.BTH.APPEND v) = s.volJ v + 1 ∧ t.rd (Adr.BTH.NEXT_TAKE v) = 0 ∧
        SameRegsBut [Adr.BTH.VOL_STAT v, Adr.BTH.JNL_USED v, Adr.BTH.APPEND v, Adr.BTH.NEXT_TAKE v] s t ∧ (s.blocksWait = false → t.dram = s.dram))) ∧
    (∀ l data k, s.volWait v = .open → (∀ m, m ∈ s.volMembers v → s.memberBad m = false) → l.all (fun b => b.length == 4096) = true →
      s.journalTail v l = some k → k.hasEnd = true → Completes (.openScanDone v ⟨l, data⟩) s (fun t =>
        t.volState v = 3 ∧ t.volWait v = .none ∧ t.rd (Adr.BTH.JNL_USED v) = satInc 32 k.seq % 2 ^ 32 ∧
        t.rd (Adr.BTH.APPEND v) = (k.takeStripe + ceilDiv k.bytes (2 ^ 20)) % 2 ^ 32 ∧ t.rd (Adr.BTH.NEXT_TAKE v) = (k.takeId + 1) % 2 ^ 32 ∧
        SameRegsBut [Adr.BTH.VOL_STAT v, Adr.BTH.JNL_USED v, Adr.BTH.APPEND v, Adr.BTH.NEXT_TAKE v] s t ∧ (s.blocksWait = false → t.dram = s.dram))) ∧
    (∀ l data k, s.volWait v = .open → (∀ m, m ∈ s.volMembers v → s.memberBad m = false) → l.all (fun b => b.length == 4096) = true →
      s.journalTail v l = some k → k.hasEnd = false → (scanSpan k).2 ≠ 0 → (scanSpan k).1 + (scanSpan k).2 ≤ s.volBytes v →
      Completes (.openScanDone v ⟨l, data⟩) s (fun t => t.volWait v = .forward k ∧ t.volState v = s.volState v ∧ t.rd (Adr.BTH.JNL_USED v) = s.rd (Adr.BTH.JNL_USED v))) ∧
    (∀ l data k q, s.volWait v = .forward k → (∀ m, m ∈ s.volMembers v → s.memberBad m = false) → l.all (fun b => b.length == 4096) = true →
      (if k.kind = 0 then s.scanFrame data k else s.scanRecord data k) = some q → (scanSpan q).2 ≠ 0 → (scanSpan q).1 + (scanSpan q).2 ≤ s.volBytes v →
      Completes (.openScanDone v ⟨l, data⟩) s (fun t => t.volWait v = .forward q ∧ t.volState v = s.volState v)) ∧
    (∀ l data k, s.volWait v = .forward k → (∀ m, m ∈ s.volMembers v → s.memberBad m = false) → l.all (fun b => b.length == 4096) = true →
      (if k.kind = 0 then s.scanFrame data k else s.scanRecord data k) = none → k.hasEnd = false → Completes (.openScanDone v ⟨l, data⟩) s (fun t =>
        t.volState v = 3 ∧ t.volWait v = .none ∧ t.rd (Adr.BTH.APPEND v) = (k.takeStripe + ceilDiv k.bytes (2 ^ 20)) % 2 ^ 32 ∧
        t.rd (Adr.BTH.NEXT_TAKE v) = (k.takeId + 1) % 2 ^ 32 ∧
        t.rd (Adr.BTH.JNL_USED v) = (if satInc 32 k.seq < s.slots v then satInc 32 (satInc 32 k.seq) else satInc 32 k.seq))) ∧
    (∀ l, s.journalTail v l = none ↔ l.all (fun b => !s.recordValid v b) = true) ∧
    (∀ l k, s.journalTail v l = some k → l.all (fun b => !s.recordValid v b || decide (fieldOf b 8 8 ≤ k.seq)) = true ∧
      l.any (fun b => s.recordValid v b && fieldOf b 8 8 == k.seq && fieldOf b 20 4 == k.takeId) = true) ∧
    (∀ l data, l.all (fun b => b.length == 4096) = true → s.volWait v ≠ .open → (∀ k, s.volWait v ≠ .forward k) → Does (.openScanDone v ⟨l, data⟩) s s) ∧
    (s.volState v = 3 → (∀ c, c < 8 → s.chState c = 0) → Does (.close v) s (s.setVolState v 1)) ∧
    (∀ c tk, c < 8 → s.chState c ≠ 0 → (s.recChan c).take = some tk → tk.vol = v → Does (.close v) s s) ∧
    (Fld.BTH.FETCH_STAT_BUSY s.regs = 1 → Does .fetchCmd s s) ∧
    (Fld.BTH.FETCH_STAT_BUSY s.regs = 0 → Fld.BTH.FETCH_VOL s.regs = v → s.volState v = 1 ∨ s.volState v = 3 → Completes .fetchCmd s (fun t =>
      t.rd Adr.BTH.FETCH_STAT = 1 ∧ (∃ f, t.bth.fetch = some f ∧ f.vol = v ∧ f.dst = Fld.BTH.FETCH_DST s.regs ∧ f.units = Fld.BTH.FETCH_UNITS s.regs) ∧
      SameRegsBut [Adr.BTH.FETCH_STAT] s t ∧ t.dram = s.dram)) ∧
    (Fld.BTH.FETCH_STAT_BUSY s.regs = 0 → Fld.BTH.FETCH_VOL s.regs = v → s.volState v ≠ 1 → s.volState v ≠ 3 → Does .fetchCmd s (s.setReg Adr.BTH.FETCH_STAT 4)) ∧
    (∀ error data f, s.bth.fetch = some f → f.issued = false → Does (.fetchDone error data) s s) ∧
    (∀ error data f, s.bth.fetch = some f → f.issued = true → Completes (.fetchDone error data) s (fun t => t.bth.fetch = none ∧
      t.rd Adr.BTH.FETCH_STAT =
        (if error || s.bth.members.any (fun e => e.2.cmds.any (fun c => c.failed && decide (c.purpose = .fetch))) then 4 else 2) ∧
      (s.blocksWait = false → t.dram = (s.store (f.dst * 4096) (data.take (f.units * 4096))).dram) ∧ SameRegsBut [Adr.BTH.FETCH_STAT] s t))

/-- START begins a take at the volume's append stripe with the next take number, or halts with NOT_OPEN, or reports CONFIG. STOP drains. RESUME begins a
continuation of the halted take. ABANDON drops and counts what was held. FRAME_ON_MEDIUM releases, in order, exactly the leading items whose writes
for this volume's take have completed, and shows the last; a draining codec channel passes its records. The runs into which dropped frames are divided
make up exactly their number. A drained channel goes idle and moves the append stripe. CHECKPOINT_DUE appends a journal record. Model's choices and
readings: entry 75, entry 76, entry 77, entry 82 of the log. (R208, R210, R211, R212, R213) -/
def Obligations.ChannelsTakeAndRelease : Prop :=
  ∀ (s : State) (c : Fin 8) (v : Nat), v = Fld.BTH.CH_CFG_VOL s.regs c →
    (s.chState c ≠ 0 ∨ s.isCodec c = false ∨ Fld.BTH.CH_CFG_EN s.regs c = 0 ∨ s.enabled 0x30 = false → Does (.chStart c) s s) ∧
    (s.chState c = 0 → s.isCodec c = true → Fld.BTH.CH_CFG_EN s.regs c = 1 → s.enabled 0x30 = true → s.volState v = 3 → s.volumeTaken c v = false →
      s.chanAdmitted c v = true → s.nextSeq v + 2 ≤ s.slots v → Completes (.chStart c) s (fun t => t.chState c = 1 ∧
        t.rd (Adr.BTH.CH_TAKE c) = s.rd (Adr.BTH.NEXT_TAKE v) ∧ t.rd (Adr.BTH.NEXT_TAKE v) = (s.rd (Adr.BTH.NEXT_TAKE v) + 1) % 2 ^ 32 ∧
        (∃ k, (t.recChan c).take = some k ∧ k.vol = v ∧ k.id = s.rd (Adr.BTH.NEXT_TAKE v) ∧ k.stripe = s.rd (Adr.BTH.APPEND v) ∧ k.first = none ∧
          k.continuation = false) ∧ SameRegsBut [Adr.BTH.CH_STAT c, Adr.BTH.CH_TAKE c, Adr.BTH.NEXT_TAKE v] s t ∧ t.dram = s.dram)) ∧
    (s.chState c = 0 → s.isCodec c = true → Fld.BTH.CH_CFG_EN s.regs c = 1 → s.enabled 0x30 = true → s.volState v ≠ 3 → Completes (.chStart c) s (fun t =>
      t.chState c = 3 ∧ Fld.BTH.CH_STAT_REASON t.regs c = 1 ∧ SameRegsBut [Adr.BTH.CH_STAT c] s t)) ∧
    (s.chState c = 0 → s.isCodec c = true → Fld.BTH.CH_CFG_EN s.regs c = 1 → s.enabled 0x30 = true → s.volState v = 3 → s.volumeTaken c v = false →
      s.chanAdmitted c v = false → Completes (.chStart c) s (fun t => t.chState c = 0 ∧ t.regs = s.regs ∧
        { page := (0x301 + c.val) / 16, cause := 0x301 + c.val, code := 0x07, event := true, unit := 0x301 + c.val } ∈ t.held)) ∧
    (s.chState c = 1 → s.isCodec c = true → Completes (.chStop c) s (fun t => t.chState c = 2 ∧ (t.recChan c).items = (s.recChan c).items ∧
      SameRegsBut [Adr.BTH.CH_STAT c] s t)) ∧
    (s.chState c ≠ 1 → Does (.chStop c) s s) ∧
    (s.chState c ≠ 3 → Does (.chResume c) s s ∧ Does (.chAbandon c) s s) ∧
    (∀ k, s.chState c = 3 → s.volState v = 3 → s.volumeTaken c v = false → s.chanAdmitted c v = true → s.nextSeq v + 2 ≤ s.slots v →
      (s.recChan c).take = some k → (s.recChan c).held = [] → (s.recChan c).srcEnded = false → Completes (.chResume c) s (fun t => t.chState c = 1 ∧
        t.rd (Adr.BTH.CH_TAKE c) = s.rd (Adr.BTH.NEXT_TAKE v) ∧ (∃ q, (t.recChan c).take = some q ∧ q.vol = v ∧ q.continuation = true ∧ q.prevVol = k.vol ∧
          q.prevTake = k.id ∧ q.stripe = s.rd (Adr.BTH.APPEND v)) ∧ SameRegsBut [Adr.BTH.CH_STAT c, Adr.BTH.CH_TAKE c, Adr.BTH.NEXT_TAKE v] s t)) ∧
    (s.chState c = 3 → (s.recChan c).later = [] → (∀ k, (s.recChan c).take = some k → k.vol < 16) → Completes (.chAbandon c) s (fun t => t.chState c = 0 ∧ (t.recChan c).take = none ∧ (t.recChan c).held = [] ∧
      t.rd (Adr.BTH.ABANDONED c) = satAdd 32 (s.rd (Adr.BTH.ABANDONED c)) (s.recChan c).held.length)) ∧
    (s.chState c = 0 ∨ s.chState c = 3 → Does (.frameOnMedium c) s s) ∧
    (∀ k q, s.chState c = 1 ∨ s.chState c = 2 → (s.recChan c).take = some k → k.startSeq = some q →
      (s.recChan c).items.all (fun i => !i.pass) = true → s.outstanding (fun u => decide (u = .journal k.vol q)) = false →
      Completes (.frameOnMedium c) s (fun t =>
        ∃ done, (s.recChan c).items = done ++ (t.recChan c).items ∧
          (∀ i, i ∈ done → s.outstanding (fun u => decide (u = .frame c k.vol k.id i.key)) = false) ∧
          (∀ i rest, (t.recChan c).items = i :: rest → s.outstanding (fun u => decide (u = .frame c k.vol k.id i.key)) = true) ∧
          (∀ i init, done = init ++ [i] → t.rd (Adr.BTH.CH_LAST c) = i.key % 2 ^ 32) ∧ (done = [] → t.rd (Adr.BTH.CH_LAST c) = s.rd (Adr.BTH.CH_LAST c)) ∧
          t.dram = s.dram)) ∧
    (∀ i, s.chState c = 2 → s.isCodec c = true → (s.recChan c).take.isSome = true → (s.recChan c).items = [i] → i.pass = true →
      Completes (.frameOnMedium c) s (fun t => (t.recChan c).items = [] ∧ t.rd (Adr.GLS.RD_PTR (Fld.BTH.CH_CFG_SRC s.regs c)) = i.ringEnd % 2 ^ 32 ∧
        SameRegsBut [Adr.GLS.RD_PTR (Fld.BTH.CH_CFG_SRC s.regs c)] s t ∧ t.dram = s.dram)) ∧
    (∀ l : List Nat, ((countRuns l).map (·.2)).foldl (· + ·) 0 = l.length ∧ (countRuns l).all (fun g => l.contains g.1) = true) ∧
    (s.chState c ≠ 2 → Does (.takeDrainDone c) s s) ∧
    (∀ k, s.chState c = 2 → (s.recChan c).items = [] → (s.recChan c).take = some k → k.vol < 16 → (s.recChan c).later = [] → Completes (.takeDrainDone c) s (fun t =>
      t.chState c = 0 ∧ (t.recChan c).take = none ∧ t.rd (Adr.BTH.APPEND k.vol) = (k.stripe + ceilDiv k.bytes (2 ^ 20)) % 2 ^ 32)) ∧
    ((s.recChan c).take = none → Does (.checkpointDue c) s s) ∧
    (∀ k, s.chState c = 1 → (s.recChan c).take = some k → k.first.isSome = true → s.nextSeq k.vol + 1 < s.slots k.vol → Completes (.checkpointDue c) s (fun t =>
      t.rd (Adr.BTH.JNL_USED k.vol) = satInc 32 (s.rd (Adr.BTH.JNL_USED k.vol)) ∧ SameRegsBut [Adr.BTH.JNL_USED k.vol] s t ∧
      (∃ d, d ∈ (t.member (s.mediaOf k.vol (2 ^ 20 + 4096 * s.nextSeq k.vol)).1).cmds ∧ d.purpose = .journal k.vol (s.nextSeq k.vol) ∧ d.op = .write true ∧
        d.bytes = 4096)))

/-- While no clock domain is stopped: a failed command leaves the in-flight list, enters the error log with count, queue, cause and reporter, freezes its
I/O queue and posts its status; an unsupported opcode does so with Invalid Opcode. The checks at fetch put the volume's state before the Gatehouse.
READ, WRITE and FLUSH answer a status found at fetch; READ and WRITE fail on a lost member, with no media address where none was asked, or take
staging units and issue. FLUSH and DATASET_MANAGEMENT succeed or fail by range. COMMAND_COMPLETION counts, delivers a read's bytes, metered under its
queue's flow, and succeeds, or fails with the member whose command failed. Model's choices and readings: entry 84, entry 85, entry 87, entry 74 of the
log. (R218, R219, R220, R221, R223, R224, R225) -/
def Obligations.HostCommands : Prop :=
  (∀ (s : State) (q cid : Nat) (c : HostCmd), s.stopped = [] → q ≤ 512 → cid < 2 ^ 16 →
    s.ofc.cmds.find? (fun c => c.sq == q && c.cmd.cid == cid && !opcodeKnown q c.cmd.opcode) = some c →
    Does (.unsupportedOpcode q cid) s (s.fail c (invalidOpcode q)) ∧
    Completes (.unsupportedOpcode q cid) s (fun t => t.ofc.cmds = s.ofc.cmds.erase c ∧ t.ofc.errorCount = s.ofc.errorCount + 1 ∧
      (∃ e rest, t.ofc.log = e :: rest ∧ rest = s.ofc.log.take 63 ∧ e.count = s.ofc.errorCount + 1 ∧ e.sq = q ∧ e.cid = cid ∧ e.cause = 0xF34 ∧
        e.opcode = c.cmd.opcode ∧ e.nsid = c.cmd.nsid ∧ e.time = s.now ∧ e.reporter = queueUnit q) ∧
      t.ofc.mediaErrors = s.ofc.mediaErrors ∧
      (∀ x, q ≠ 0 → s.sq q = some x → ∃ y, t.sq q = some y ∧ y.frozen = true ∧ y.head = x.head ∧ y.tail = x.tail) ∧
      (∀ x, q ≠ 0 → s.sq q = some x → x.frozen = false → t.rd Adr.OFC.FREEZES = satInc 32 (s.rd Adr.OFC.FREEZES)) ∧
      (∀ x, q = 0 → s.sq 0 = some x → t.sq 0 = some x ∧ t.rd Adr.OFC.FREEZES = s.rd Adr.OFC.FREEZES) ∧
      (∀ x k, s.sq q = some x → s.cq x.cq = some k → s.ofc.posts = [] → k.tail < k.size → (k.tail + 1) % k.size ≠ k.head →
        .hostCompletion x.cq q x.head cid ((invalidOpcode q).field + b2n k.phase) 0 ∈ t.outbox ∧
        ∀ v, k.vector = some v → .msixFunction1 v ∈ t.outbox))) ∧
  (∀ (s : State) (q cid n v o : Nat) (c : HostCmd), s.stopped = [] → q ≤ 512 → cid < 2 ^ 16 → n = c.cmd.cdw12 % 2 ^ 16 + 1 → v = c.cmd.nsid - 1 →
    o = firstLba c.cmd c.sq * 4096 →
    (∀ r, s.ioCmd q cid 0x02 = some c → c.refused = some r → Does (.nvmRead q cid) s (s.fail c r)) ∧
    (∀ r, s.ioCmd q cid 0x01 = some c → c.refused = some r → Does (.nvmWrite q cid) s (s.fail c r)) ∧
    (∀ m, s.ioCmd q cid 0x02 = some c → c.refused = none → c.issued = false → s.earlierWaits c = false → s.badBehind v (n + 1) o (n * 4096) = some m →
      Does (.nvmRead q cid) s (s.fail c { sct := 2, sc := 0x81, dnr := true, cause := 0xF00 + m, code := s.codeHeld (0xF00 + m), reporter := 0x343, media := 0 })) ∧
    (∀ m, s.ioCmd q cid 0x01 = some c → c.refused = none → c.issued = false → s.earlierWaits c = false → s.badBehind v (n + 1) o (n * 4096) = some m →
      Does (.nvmWrite q cid) s (s.fail c { sct := 2, sc := 0x80, dnr := true, cause := 0xF00 + m, code := s.codeHeld (0xF00 + m), reporter := 0x343, media := 0 })) ∧
    (∀ us, s.ioCmd q cid 0x02 = some c → c.refused = none → c.issued = false → s.earlierWaits c = false → s.badBehind v (n + 1) o (n * 4096) = none →
      (s.allocStaging n).1 = some us → Completes (.nvmRead q cid) s (fun t =>
        t.ofc.cmds = s.ofc.cmds.map (fun d => if d = c then { c with issued := true, units := us } else d) ∧ t.ofc.posts = s.ofc.posts ∧ t.regs = s.regs ∧
        t.dram = s.dram)) ∧
    (∀ us, s.ioCmd q cid 0x01 = some c → c.refused = none → c.issued = false → s.earlierWaits c = false → s.badBehind v (n + 1) o (n * 4096) = none →
      (s.allocStaging n).1 = some us → (s.stageData (c.cmd.data.take (n * 4096)) us).2 = none → Completes (.nvmWrite q cid) s (fun t =>
        t.ofc.cmds = s.ofc.cmds.map (fun d => if d = c then { c with issued := true, units := us } else d) ∧ t.ofc.posts = s.ofc.posts ∧ t.regs = s.regs ∧
        t.dram = (s.stageData (c.cmd.data.take (n * 4096)) us).1.dram)) ∧
    (s.ioCmd q cid 0x00 = some c → c.refused = none → Does (.flush q cid) s (s.succeed c 0)) ∧
    (s.ioCmd q cid 0x00 = some c → c.refused = none → Completes (.flush q cid) s (fun t => t.ofc.cmds = s.ofc.cmds.erase c ∧
      t.ofc.errorCount = s.ofc.errorCount ∧ t.ofc.sqs = s.ofc.sqs ∧
      (∀ x k, s.sq q = some x → s.cq x.cq = some k → s.ofc.posts = [] → k.tail < k.size → (k.tail + 1) % k.size ≠ k.head →
        .hostCompletion x.cq q x.head cid (b2n k.phase) 0 ∈ t.outbox))) ∧
    (∀ r, s.ioCmd q cid 0x00 = some c → c.refused = some r → Does (.flush q cid) s (s.fail c r)) ∧
    (s.ioCmd q cid 0x00 = none → Does (.flush q cid) s s) ∧
    (s.ioCmd q cid 0x09 = some c → c.refused = none → c.cmd.cdw11 / 4 % 2 = 0 → Does (.datasetManagement q cid) s (s.succeed c 0)) ∧
    (∀ k, s.ioCmd q cid 0x09 = some c → c.refused = none → c.cmd.cdw11 / 4 % 2 = 1 → k ≤ c.cmd.cdw10 % 256 →
      s.nsze v < fieldOf c.cmd.data (16 * k + 8) 8 + fieldOf c.cmd.data (16 * k + 4) 4 → Does (.datasetManagement q cid) s (s.fail c (lbaOutOfRange q))) ∧
    (∀ unit, unit < 4096 → s.ofc.cmds.find? (fun c => c.sq == q && c.cmd.cid == cid && c.issued) = some c →
      Does (.commandCompletion q cid (.bus unit)) s (s.fail c { sct := 0, sc := 0x06, dnr := false, cause := unit, code := s.codeHeld unit, reporter := 0x343, media := 0 })) ∧
    (∀ m a, s.ofc.cmds.find? (fun c => c.sq == q && c.cmd.cid == cid && c.issued) = some c → s.hostFailure c.tag = some (m, a) →
      Does (.commandCompletion q cid .ok) s (s.fail c
        { sct := 2, sc := if c.cmd.opcode = 1 then 0x80 else 0x81, dnr := true, cause := 0xF00 + m, code := s.codeHeld (0xF00 + m), reporter := 0x343, media := a })) ∧
    (s.ofc.cmds.find? (fun c => c.sq == q && c.cmd.cid == cid && c.issued) = some c → s.hostFailure c.tag = none → s.outstanding (isHostOf [c.tag]) = false →
      c.cmd.opcode = 1 → Does (.commandCompletion q cid .ok) s
        ((s.setOfc { s.ofc with writes := s.ofc.writes + 1, unitsWritten := s.ofc.unitsWritten + n }).succeed c 0)) ∧
    (s.ofc.cmds.find? (fun c => c.sq == q && c.cmd.cid == cid && c.issued) = some c → s.hostFailure c.tag = none → s.outstanding (isHostOf [c.tag]) = false →
      c.cmd.opcode = 2 → c.units.all (fun u => (s.spanError (u * 4096) 4096).isNone) = true → s.queueFlow q = none →
      Does (.commandCompletion q cid .ok) s (((s.setOfc { s.ofc with reads := s.ofc.reads + 1, unitsRead := s.ofc.unitsRead + n }).emit
        (.hostData q cid (c.units.flatMap (fun u => s.dramRead (u * 4096) 4096)))).succeed c 0)) ∧
    (∀ i, s.ofc.cmds.find? (fun c => c.sq == q && c.cmd.cid == cid && c.issued) = some c → s.hostFailure c.tag = none → s.outstanding (isHostOf [c.tag]) = false →
      c.cmd.opcode = 2 → c.units.all (fun u => (s.spanError (u * 4096) 4096).isNone) = true → s.queueFlow q = some i →
      Does (.commandCompletion q cid .ok) s ((((s.setOfc { s.ofc with reads := s.ofc.reads + 1, unitsRead := s.ofc.unitsRead + n }).meter i (n * 128)).2.emit
        (.hostData q cid (c.units.flatMap (fun u => s.dramRead (u * 4096) 4096)))).succeed c 0)) ∧
    (s.ofc.cmds.find? (fun c => c.sq == q && c.cmd.cid == cid && c.issued) = some c → s.hostFailure c.tag = none → s.outstanding (isHostOf [c.tag]) = true →
      Does (.commandCompletion q cid .ok) s s) ∧
    (∀ d : NvmeCmd, d.opcode = 0 ∨ d.opcode = 1 ∨ d.opcode = 2 ∨ d.opcode = 9 → 1 ≤ d.nsid → d.nsid ≤ 16 →
      (s.volState (d.nsid - 1) = 0 → s.fetchCheck q d = (some (hostStatus 0 0x0B true (queueUnit q)), s)) ∧
      (s.volState (d.nsid - 1) = 1 → s.namespaceGranted q d.nsid (d.opcode == 1) = false →
        s.fetchCheck q d = (some { sct := 2, sc := 0x86, dnr := true, cause := 0x023, code := 0x02, reporter := 0x023, media := 0 },
          s.refuseNamespace q d.nsid (d.opcode == 1))) ∧
      (s.volState (d.nsid - 1) = 2 ∨ s.volState (d.nsid - 1) = 3 → d.opcode = 1 → s.fetchCheck q d = (some (hostStatus 0 0x20 false (queueUnit q)), s))))

/-- While no clock domain is stopped: enable with a flow makes the controller ready with fresh admin queues; without one it reports CONFIG. Disable and
Function Level Reset drop queues and commands, and RDY falls when no member command of theirs runs. Shutdown completes when no command is in flight.
Doorbells move tail and head within the queue and wake the controller. A round of arbitration outside HOLD moves up to the burst from the selected
queue's host memory into the in-flight list, and without a selected queue keeps the credits as the selection left them; under HOLD it does nothing.
APST enters its state after the idle time. Model's choices and readings: entry 86, entry 88, entry 89, entry 174 of the log. (R215, R216, R222, R227,
R228) -/
def Obligations.ControllerRuns : Prop :=
  ∀ s : State, s.stopped = [] →
    (∀ wrr a k ab kb, 0 < a → a ≤ 4096 → 0 < k → k ≤ 4096 → s.ofc.enabled = false → s.ofc.ready = false → s.hasFlow 0x340 = true →
      Completes (.controllerEnable wrr a k ab kb) s (fun t => t.ofc.enabled = true ∧ t.ofc.ready = true ∧ t.ofc.wrr = wrr ∧ t.ofc.shst = 0 ∧
        (∃ x, t.ofc.sqs = [(0, x)] ∧ x.size = a ∧ x.head = 0 ∧ x.tail = 0 ∧ x.frozen = false) ∧
        (∃ y, t.ofc.cqs = [(0, y)] ∧ y.size = k ∧ y.vector = some 0) ∧ t.regs = s.regs ∧ t.dram = s.dram)) ∧
    (∀ wrr a k ab kb, 0 < a → a ≤ 4096 → 0 < k → k ≤ 4096 → s.ofc.enabled = false → s.ofc.ready = false → s.hasFlow 0x340 = false →
      Completes (.controllerEnable wrr a k ab kb) s (fun t => t.ofc.enabled = true ∧ t.ofc.ready = false ∧
        { page := 0x34, cause := 0x340, code := 0x07, event := true, unit := 0x340 } ∈ t.held)) ∧
    (s.ofc.enabled = true → Completes .controllerDisable s (fun t => t.ofc.enabled = false ∧ t.ofc.sqs = [] ∧ t.ofc.cqs = [] ∧ t.ofc.cmds = [] ∧ t.ofc.posts = [] ∧
      t.ofc.ready = (s.ofc.ready && s.runs (isHostOf (s.ofc.cmds.map (·.tag) ++ s.ofc.deleting.flatMap (·.tags)))))) ∧
    (s.ofc.enabled = true → Completes .functionLevelReset s (fun t => t.ofc.enabled = false ∧ t.ofc.sqs = [] ∧ t.ofc.cqs = [] ∧ t.ofc.cmds = [] ∧
      t.ofc.posts = [] ∧ t.ofc.ready = (s.ofc.ready && s.runs (isHostOf (s.ofc.cmds.map (·.tag) ++ s.ofc.deleting.flatMap (·.tags)))))) ∧
    (s.ofc.enabled = false → Does .controllerDisable s s ∧ Does .functionLevelReset s s) ∧
    (s.ofc.enabled = false → s.runs (isHostOf s.ofc.draining) = false →
      Does .controllerDisableDone s (s.setOfc { s.ofc with ready := false, draining := [] })) ∧
    (s.ofc.enabled = true ∨ s.runs (isHostOf s.ofc.draining) = true → Does .controllerDisableDone s s) ∧
    (∀ n : Fin 4, n ≠ 0 → s.ofc.shst ≠ 2 → Does (.ccShutdown n) s (s.setOfc { s.ofc with shn := n, shst := 1 })) ∧
    Does (.ccShutdown 0) s (s.setOfc { s.ofc with shn := 0 }) ∧
    (s.ofc.shst = 1 → s.ofc.cmds = [] → Does .shutdownComplete s (s.setOfc { s.ofc with shst := 2 })) ∧
    (s.ofc.shst ≠ 1 → Does .shutdownComplete s s) ∧
    (∀ q tail x, q ≤ 512 → tail < 2 ^ 16 → s.ofc.ready = true → s.sq q = some x → tail < x.size → Completes (.sqDoorbell q tail) s (fun t =>
      t.ofc.ps = 0 ∧ t.sq q = some { x with tail := tail } ∧ (∀ k, k ≠ q → t.sq k = s.sq k) ∧ t.ofc.cqs = s.ofc.cqs ∧ t.regs = s.regs)) ∧
    (∀ q x, q ≤ 512 → x < 2 ^ 16 → s.ofc.ready = false → Does (.sqDoorbell q x) s s ∧ Does (.cqDoorbell q x) s s) ∧
    (∀ q head x, q ≤ 512 → head < 2 ^ 16 → s.ofc.ready = true → s.cq q = some x → head < x.size → s.ofc.posts = [] → Completes (.cqDoorbell q head) s (fun t =>
      t.ofc.ps = 0 ∧ t.cq q = some { x with head := head } ∧ t.ofc.sqs = s.ofc.sqs ∧ t.regs = s.regs)) ∧
    (∀ l, (∀ c, c ∈ l → c.wellFormed = true) → s.ofc.ready = false ∨ s.ofc.enabled = false ∨ s.holding 0x34 = true → Does (.arbitrationRound l) s s) ∧
    (∀ l q u x n, (∀ c, c ∈ l → c.wellFormed = true) → s.ofc.ready = true → s.ofc.enabled = true → s.holding 0x34 = false →
      (s.ofc.cmds.filter (fun c => c.sq != 0)).length < 8192 → s.selectQueue = (some q, u) → u.sq q = some x →
      n = min (min (min (if bits (s.feature 1) 0 3 = 7 then 4096 else 2 ^ bits (s.feature 1) 0 3) x.waiting)
        (8192 - (s.ofc.cmds.filter (fun c => c.sq != 0)).length)) l.length →
      Completes (.arbitrationRound l) s (fun t => (∃ y, t.sq q = some y ∧ y.head = (x.head + n) % x.size ∧ y.wait = 0 ∧ y.tail = x.tail ∧ y.frozen = x.frozen) ∧
        (∃ new, t.ofc.cmds = s.ofc.cmds ++ new ∧ new.map (·.cmd) = l.take n ∧ ∀ c, c ∈ new → c.sq = q ∧ c.issued = false) ∧ t.ofc.posts = s.ofc.posts)) ∧
    (∀ l u, (∀ c, c ∈ l → c.wellFormed = true) → s.ofc.ready = true → s.ofc.enabled = true → s.holding 0x34 = false → (s.ofc.cmds.filter (fun c => c.sq != 0)).length < 8192 →
      s.selectQueue = (none, u) → Does (.arbitrationRound l) s u) ∧
    (∀ e, fieldOf s.ofc.apst (8 * s.ofc.ps) 8 = e → s.ofc.ready = true → s.feature 0x0C = 1 → s.ofc.cmds = [] → (∀ x, x ∈ s.ofc.sqs → x.2.waiting = 0) →
      bits e 8 24 ≠ 0 → s.ofc.idleFrom + bits e 8 24 * 1000000 ≤ s.elapsed → bits e 3 5 ≤ 2 →
      Does .apstTransition s (s.setOfc { s.ofc with ps := bits e 3 5, idleFrom := s.elapsed })) ∧
    (s.ofc.cmds ≠ [] → Does .apstTransition s s)

/-- While no clock domain is stopped: CREATE and DELETE of I/O queues act or fail with the status of the error; deleting aborts the queue's commands and
completes when their member commands have ended; GET_LOG_PAGE delivers the vendor log; IDENTIFY a granted namespace, and fails with Access Denied
otherwise; SET and GET_FEATURES move the feature values, but the number of queues is refused once a queue has been made; RESUME_QUEUE thaws a frozen
queue and answers how many commands are in flight. Model's choices and readings: entry 84, entry 90 of the log. (R215, R217, R221, R224, R225, R226,
R227) -/
def Obligations.AdminCommands : Prop :=
  ∀ (s : State) (cid q size : Nat) (c : HostCmd), s.stopped = [] → cid < 2 ^ 16 → q = c.cmd.cdw10 % 2 ^ 16 → size = c.cmd.cdw10 / 2 ^ 16 % 2 ^ 16 + 1 →
    (s.adminCmd cid 0x01 = some c → 0 < q → q ≤ 512 → s.sq q = none → c.cmd.cdw11 % 2 = 1 → 2 ≤ size → size ≤ 4096 → c.cmd.cdw11 / 2 ^ 16 % 2 ^ 16 ≠ 0 →
      (s.cq (c.cmd.cdw11 / 2 ^ 16 % 2 ^ 16)).isSome = true → Does (.createIoSq cid) s ((s.setSq q {
        cq := c.cmd.cdw11 / 2 ^ 16 % 2 ^ 16, size := size, base := c.cmd.prp1, qprio := bits c.cmd.cdw11 1 2, head := 0, tail := 0, frozen := false,
        wait := 0 }).queueCreated.succeed c 0)) ∧
    (s.adminCmd cid 0x01 = some c → q = 0 ∨ 512 < q ∨ (s.sq q).isSome = true → Does (.createIoSq cid) s (s.fail c (hostStatus 1 0x01 true 0x341))) ∧
    (s.adminCmd cid 0x05 = some c → 0 < q → q ≤ 512 → s.cq q = none → c.cmd.cdw11 % 2 = 1 → 2 ≤ size → size ≤ 4096 → c.cmd.cdw11 / 2 ^ 16 % 2 ^ 16 ≤ 63 →
      Does (.createIoCq cid) s ((s.setCq q {
        size := size, base := c.cmd.prp1, head := 0, tail := 0, phase := true,
        vector := if bitOf c.cmd.cdw11 1 then some (c.cmd.cdw11 / 2 ^ 16 % 2 ^ 16) else none }).queueCreated.succeed c 0)) ∧
    (s.adminCmd cid 0x05 = some c → q = 0 ∨ 512 < q ∨ (s.cq q).isSome = true → Does (.createIoCq cid) s (s.fail c (hostStatus 1 0x01 true 0x341))) ∧
    (s.adminCmd cid 0x00 = some c → s.ofc.deleting.any (fun d => d.cid == cid) = false → q ≠ 0 → (s.sq q).isSome = true → Completes (.deleteIoSq cid) s (fun t =>
      t.sq q = none ∧ t.ofc.deleting.any (fun d => d.cid == cid && d.sq == q) = true ∧ (∀ d, d ∈ t.ofc.cmds → d.sq ≠ q))) ∧
    (s.adminCmd cid 0x00 = some c → s.ofc.deleting.any (fun d => d.cid == cid) = false → q = 0 ∨ s.sq q = none →
      Does (.deleteIoSq cid) s (s.fail c (hostStatus 1 0x01 true 0x341))) ∧
    (∀ d, s.ofc.deleting.find? (fun d => d.cid == cid) = some d → s.adminCmd cid 0x00 = some c → s.runs (isHostOf d.tags) = false →
      Does (.deleteIoSqDone cid) s ((s.setOfc { s.ofc with deleting := s.ofc.deleting.erase d }).succeed c 0)) ∧
    (s.adminCmd cid 0x04 = some c → q ≠ 0 → (s.cq q).isSome = true → (∀ e, e ∈ s.ofc.sqs → e.2.cq ≠ q) → Does (.deleteIoCq cid) s
      ((s.setOfc { s.ofc with cqs := SMap.del s.ofc.cqs q, posts := s.ofc.posts.filter (fun p => p.cq != q) }).succeed c 0)) ∧
    (∀ e, s.adminCmd cid 0x04 = some c → q ≠ 0 → (s.cq q).isSome = true → e ∈ s.ofc.sqs → e.2.cq = q →
      Does (.deleteIoCq cid) s (s.fail c (hostStatus 1 0x0C true 0x341))) ∧
    (s.adminCmd cid 0x02 = some c → c.cmd.cdw10 % 256 = 0xC0 → bits c.cmd.cdw10 16 12 = 15 → Does (.getLogPage cid) s
      ((s.emit (.hostData 0 cid ((s.ofc.log.flatMap ErrEntry.vendor ++ List.replicate (4096 - 64 * s.ofc.log.length) 0).take 64))).succeed c 0)) ∧
    (s.adminCmd cid 0x02 = some c → c.cmd.cdw10 % 256 ≠ 1 → c.cmd.cdw10 % 256 ≠ 2 → c.cmd.cdw10 % 256 ≠ 0xC0 →
      Does (.getLogPage cid) s (s.fail c (hostStatus 1 0x09 true 0x341))) ∧
    (s.adminCmd cid 0x06 = some c → c.cmd.cdw10 % 256 = 0 → 1 ≤ c.cmd.nsid → c.cmd.nsid ≤ 16 → s.namespaceGranted 0 c.cmd.nsid false = true →
      Does (.identify cid) s ((s.emit (.hostData 0 cid (s.identifyNamespace (c.cmd.nsid - 1)))).succeed c 0)) ∧
    (s.adminCmd cid 0x06 = some c → c.cmd.cdw10 % 256 = 0 → 1 ≤ c.cmd.nsid → c.cmd.nsid ≤ 16 → s.namespaceGranted 0 c.cmd.nsid false = false →
      Does (.identify cid) s ((s.refuseNamespace 0 c.cmd.nsid false).fail c { sct := 2, sc := 0x86, dnr := true, cause := 0x023, code := 0x02, reporter := 0x023, media := 0 })) ∧
    (s.adminCmd cid 0x09 = some c → c.cmd.cdw10 % 256 = 1 ∨ c.cmd.cdw10 % 256 = 8 ∨ c.cmd.cdw10 % 256 = 10 → bitOf c.cmd.cdw10 31 = false →
      Does (.setFeatures cid) s ((s.setFeature (c.cmd.cdw10 % 256) c.cmd.cdw11).succeed c 0)) ∧
    (s.adminCmd cid 0x09 = some c → c.cmd.cdw10 % 256 = 7 → bitOf c.cmd.cdw10 31 = false → s.ofc.queueMade = true →
      Does (.setFeatures cid) s (s.fail c (hostStatus 0 0x0C true 0x341))) ∧
    (s.adminCmd cid 0x0A = some c → c.cmd.cdw10 % 256 = 1 ∨ c.cmd.cdw10 % 256 = 7 ∨ c.cmd.cdw10 % 256 = 8 ∨ c.cmd.cdw10 % 256 = 10 →
      Does (.getFeatures cid) s (s.succeed c (s.feature (c.cmd.cdw10 % 256)))) ∧
    (∀ x, s.adminCmd cid 0xC1 = some c → q ≠ 0 → s.sq q = some x → x.frozen = true →
      Does (.resumeQueue cid) s ((s.setSq q { x with frozen := false }).succeed c (1 + s.inflightOf q * 2 ^ 16))) ∧
    (∀ x, s.adminCmd cid 0xC1 = some c → q ≠ 0 → s.sq q = some x → x.frozen = false → Does (.resumeQueue cid) s (s.succeed c 0)) ∧
    (s.adminCmd cid 0xC1 = some c → q = 0 ∨ s.sq q = none → Does (.resumeQueue cid) s (s.fail c (hostStatus 1 0x01 true 0x341)))

/-- While no clock domain is stopped: an output sends a frame when its slot, or its genlock point after OUT_OFFSET, is reached, and none before: black
while BLACK_FRAMES last, else the newest matching frame of its view, whose buffer it holds, with payload ID, line numbers and line CRCs; a frame of
another format counts MISMATCH and is reported once. An output that has stopped, and links 1 to 3 bound by QUAD, let the buffer go when the frame they
were sending has ended. An input counts CRC errors of every frame; it adopts from a whole frame the format found, under AUTO, or that of FMT where the
timing found is its own; it writes each further frame into a free buffer as the newest of its source, tagged where the payload ID is wrong, or counts
DROPPED; a format that does not fit is reported; SDI_SIGNAL_LOSS ends the format with LINK_DOWN and completes a frame in part as SHORT. Model's
choices and readings: entry 91, entry 92, entry 94, entry 95, entry 175, entry 176 of the log. (R229, R231, R232, R233, R234, R236, R237, R238, R239) -/
def Obligations.SdiFrames : Prop :=
  ∀ (s : State) (n : Fin 4) (fmt : Nat), s.stopped = [] → fmt = (s.sdiOf n).fmt →
    (∀ reads, beatsOk reads = true → (s.sdiOf n).running = false ∨ (n ≠ 0 ∧ s.quad = true) → (s.sdiOf n).frame = none →
      Does (.sdiOutFrameStart n reads) s s) ∧
    (∀ reads src i e, beatsOk reads = true → (s.sdiOf n).running = false ∨ (n ≠ 0 ∧ s.quad = true) →
      (s.sdiOf n).frame = some { fmt := fmt, source := some (src, i), ends := e } →
      Does (.sdiOutFrameStart n reads) s ((s.setSdi n { s.sdiOf n with frame := none }).letGo src (0x380 + 0x10 * n) i)) ∧
    (∀ reads, beatsOk reads = true → (s.sdiOf n).running = true → (s.sdiOf n).output = true → n = 0 ∨ s.quad = false →
      s.outDue n = false → (s.sdiOf n).frame.all (fun f => decide ((s.ns : Int) < f.ends)) = true → Does (.sdiOutFrameStart n reads) s s) ∧
    (∀ reads src i e, beatsOk reads = true → (s.sdiOf n).running = true → (s.sdiOf n).output = true → n = 0 ∨ s.quad = false → s.outDue n = false →
      (s.sdiOf n).frame = some { fmt := fmt, source := some (src, i), ends := e } → e ≤ (s.ns : Int) →
      Does (.sdiOutFrameStart n reads) s ((s.setSdi n { s.sdiOf n with frame := none }).letGo src (0x380 + 0x10 * n) i)) ∧
    (Fld.SDI.CFG_GENLOCK s.regs n = 0 → s.outDue n = s.reached (s.sdiOf n).slotAt) ∧
    (Fld.SDI.CFG_GENLOCK s.regs n = 1 → s.outDue n = decide ((s.sdiOf n).point < genlockIndex (fmtRate fmt) ((s.ns : Int) - s.outOffset n))) ∧
    (∀ reads, beatsOk reads = true → (s.sdiOf n).running = true → (s.sdiOf n).output = true → (s.sdiOf n).refused = false →
      n = 0 ∨ s.quad = false → s.outDue n = true → s.holding (0x38 + n) = false → s.rd (Adr.SDI.FMT n) = fmt → fmtLink fmt ≠ 5 → (s.sdiOf n).blackLeft ≠ 0 →
      Completes (.sdiOutFrameStart n reads) s (fun t => t.rd (Adr.SDI.FRAMES n) = satInc 32 (s.rd (Adr.SDI.FRAMES n)) ∧ (t.sdiOf n).n = (s.sdiOf n).n + 1 ∧
        (t.sdiOf n).blackLeft = (s.sdiOf n).blackLeft - 1 ∧ (∃ e, (t.sdiOf n).frame = some { fmt := fmt, source := none, ends := e }) ∧
        (∃ rows, rows = List.replicate (rasterSize (fmtRaster fmt)).2 (blackLine (fmtSampling fmt) (fmtDepth fmt) (fmtSamples fmt)) ∧
          .sdiFrame n fmt true (payloadId fmt 0 0 0) rows ((List.range rows.length).map (lineNumber rows.length))
          ((((List.range rows.length).map (lineNumber rows.length)).zip rows).map (fun e => (Config.sdiStreams fmt e.2).map (lineCrc e.1))) ∈ t.outbox) ∧
        SameRegsBut [Adr.SDI.FRAMES n] s t ∧ t.dram = s.dram)) ∧
    (∀ reads b, beatsOk reads = true → (s.sdiOf n).running = true → (s.sdiOf n).output = true → (s.sdiOf n).refused = false →
      n = 0 ∨ s.quad = false → s.outDue n = true → s.holding (0x38 + n) = false → s.rd (Adr.SDI.FMT n) = fmt → fmtLink fmt ≠ 5 → (s.sdiOf n).blackLeft = 0 →
      Fld.SDI.SRC_BOUND s.regs n = 1 → (s.view (Fld.SDI.SRC_VIEW s.regs n)).running = true → (s.view (Fld.SDI.SRC_VIEW s.regs n)).fresh = true →
      s.newestOf (viewSource (Fld.SDI.SRC_VIEW s.regs n)) = some b → b.fmt = bufFmt (fmtSampling fmt) → depthBits b.depth = fmtDepth fmt →
      (b.width, b.height) = rasterSize (fmtRaster fmt) →
      Completes (.sdiOutFrameStart n reads) s (fun t =>
        t.rd (Adr.SDI.FRAMES n) = satInc 32 (s.rd (Adr.SDI.FRAMES n)) ∧ (t.sdiOf n).n = (s.sdiOf n).n + 1 ∧
        t.isHeld (viewSource (Fld.SDI.SRC_VIEW s.regs n)) b.index = true ∧
        (∃ rows, rows = (s.outRows b (fmtSampling fmt) (fmtDepth fmt) (fmtSamples fmt) reads).1 ∧
          .sdiFrame n fmt false (payloadId fmt b.colorimetry b.tf b.range) rows ((List.range rows.length).map (lineNumber rows.length))
          ((((List.range rows.length).map (lineNumber rows.length)).zip rows).map (fun e => (Config.sdiStreams fmt e.2).map (lineCrc e.1))) ∈ t.outbox) ∧
        SameRegsBut ([Adr.SDI.FRAMES n, Adr.SDI.CLAMPED n] ++ errorCounts) s t ∧ t.dram = s.dram)) ∧
    (∀ reads b, beatsOk reads = true → (s.sdiOf n).running = true → (s.sdiOf n).output = true → (s.sdiOf n).refused = false →
      n = 0 ∨ s.quad = false → s.outDue n = true → s.holding (0x38 + n) = false → s.rd (Adr.SDI.FMT n) = fmt → fmtLink fmt ≠ 5 → (s.sdiOf n).blackLeft = 0 →
      Fld.SDI.SRC_BOUND s.regs n = 1 → (s.view (Fld.SDI.SRC_VIEW s.regs n)).running = true → (s.view (Fld.SDI.SRC_VIEW s.regs n)).fresh = true →
      s.newestOf (viewSource (Fld.SDI.SRC_VIEW s.regs n)) = some b → b.fmt ≠ bufFmt (fmtSampling fmt) → Completes (.sdiOutFrameStart n reads) s (fun t =>
        t.rd (Adr.SDI.MISMATCH n) = satInc 32 (s.rd (Adr.SDI.MISMATCH n)) ∧ t.rd (Adr.SDI.FRAMES n) = satInc 32 (s.rd (Adr.SDI.FRAMES n)) ∧
        ((s.sdiOf n).mismatchRun = false → { page := (0x380 + 0x10 * n.val) / 16, cause := 0x380 + 0x10 * n.val, code := 0x07, event := true, unit := 0x380 + 0x10 * n.val } ∈ t.held) ∧
        SameRegsBut [Adr.SDI.FRAMES n, Adr.SDI.MISMATCH n] s t ∧ t.dram = s.dram)) ∧
    (∀ f : SdiFrame, f.wellFormed = true → (s.sdiOf n).running = false ∨ (s.sdiOf n).output = true ∨ (s.sdiOf n).refused = true ∨
      s.holding (0x38 + n) = true ∨ (n ≠ 0 ∧ s.quad = true) → Does (.sdiInFrame n f) s s) ∧
    (∀ (f : SdiFrame) c, f.wellFormed = true → (s.sdiOf n).running = true → (s.sdiOf n).output = false → (s.sdiOf n).refused = false → s.holding (0x38 + n) = false →
      n = 0 ∨ s.quad = false → c = (s.sdiOf n).cfg → Fld.SDI.CFG_AUTO c n = 1 → s.sdiFits n (s.sdiFormat n f) = false → Completes (.sdiInFrame n f) s (fun t =>
        t.rd (Adr.SDI.DET_FMT n) = 0 ∧ (t.sdiOf n).adopted = none ∧ t.rd (Adr.SDI.CRC_ERR n) = satAdd 32 (s.rd (Adr.SDI.CRC_ERR n)) f.crcErrors ∧
        { page := (0x380 + 0x10 * n.val) / 16, cause := 0x380 + 0x10 * n.val, code := 0x20, event := false, unit := 0x380 + 0x10 * n.val } ∈ t.held ∧ t.dram = s.dram)) ∧
    (∀ (f : SdiFrame) c, f.wellFormed = true → (s.sdiOf n).running = true → (s.sdiOf n).output = false → (s.sdiOf n).refused = false → s.holding (0x38 + n) = false →
      n = 0 ∨ s.quad = false → c = (s.sdiOf n).cfg → Fld.SDI.CFG_AUTO c n = 0 → sameTiming (sdiFmtWord f) (c.fld (Adr.SDI.FMT n) 0 32) = false → s.sdiListed n f = false →
      Completes (.sdiInFrame n f) s (fun t =>
        t.rd (Adr.SDI.DET_FMT n) = 0 ∧ (t.sdiOf n).adopted = none ∧ t.rd (Adr.SDI.CRC_ERR n) = satAdd 32 (s.rd (Adr.SDI.CRC_ERR n)) f.crcErrors ∧
        { page := (0x380 + 0x10 * n.val) / 16, cause := 0x380 + 0x10 * n.val, code := 0x20, event := false, unit := 0x380 + 0x10 * n.val } ∈ t.held ∧ t.dram = s.dram)) ∧
    (∀ (f : SdiFrame) c w, f.wellFormed = true → (s.sdiOf n).running = true → (s.sdiOf n).output = false → (s.sdiOf n).refused = false → s.holding (0x38 + n) = false →
      n = 0 ∨ s.quad = false → c = (s.sdiOf n).cfg → w = s.sdiFormat n f → Fld.SDI.CFG_AUTO c n = 1 ∧ w = sdiFmtWord f ∨ Fld.SDI.CFG_AUTO c n = 0 ∧ w = c.fld (Adr.SDI.FMT n) 0 32 →
      s.sdiFits n w = true → (s.sdiOf n).adopted ≠ some w → (rasterSize (fmtRaster w)).2 ≤ f.rows.length → Completes (.sdiInFrame n f) s (fun t =>
        t.rd (Adr.SDI.DET_FMT n) = (w + 2 ^ 31) % 2 ^ 32 ∧ (t.sdiOf n).adopted = some w ∧ (t.sdiOf n).measure.crc = f.crcErrors ∧
        (t.sdiOf n).measure.sof = s.stampBefore f.age ∧ t.rd (Adr.SDI.CRC_ERR n) = satAdd 32 (s.rd (Adr.SDI.CRC_ERR n)) f.crcErrors ∧
        t.rd (Adr.SDI.FRAMES n) = s.rd (Adr.SDI.FRAMES n) ∧ t.dram = s.dram ∧ t.newest = s.newest)) ∧
    (∀ (f : SdiFrame) c w, f.wellFormed = true → (s.sdiOf n).running = true → (s.sdiOf n).output = false → (s.sdiOf n).refused = false → s.holding (0x38 + n) = false →
      n = 0 ∨ s.quad = false → c = (s.sdiOf n).cfg → w = s.sdiFormat n f → Fld.SDI.CFG_AUTO c n = 1 ∨ sameTiming w (c.fld (Adr.SDI.FMT n) 0 32) = true → s.sdiFits n w = true →
      (s.sdiOf n).adopted ≠ some w → f.rows.length < (rasterSize (fmtRaster w)).2 → Completes (.sdiInFrame n f) s (fun t =>
        t.rd (Adr.SDI.DET_FMT n) = 0 ∧ (t.sdiOf n).adopted = none ∧ t.dram = s.dram ∧ t.newest = s.newest)) ∧
    (∀ (f : SdiFrame) c w b, f.wellFormed = true → (s.sdiOf n).running = true → (s.sdiOf n).output = false → (s.sdiOf n).refused = false → s.holding (0x38 + n) = false →
      n = 0 ∨ s.quad = false → c = (s.sdiOf n).cfg → w = s.sdiFormat n f → Fld.SDI.CFG_AUTO c n = 1 ∨ sameTiming w (c.fld (Adr.SDI.FMT n) 0 32) = true → s.sdiFits n w = true →
      (s.sdiOf n).adopted = some w → s.freeBuffer (sdiSource n) (clampTo (Fld.SDI.NBUF c n) 2 4) = some b → Completes (.sdiInFrame n f) s (fun t =>
        t.rd (Adr.SDI.FRAMES n) = satInc 32 (s.rd (Adr.SDI.FRAMES n)) ∧ t.rd (Adr.SDI.CRC_ERR n) = satAdd 32 (s.rd (Adr.SDI.CRC_ERR n)) f.crcErrors ∧
        (Fld.SDI.CFG_PID_CHECK c n = 1 → f.pid.any (pidFits w) = false → t.rd (Adr.SDI.PID_MISMATCH n) = satInc 32 (s.rd (Adr.SDI.PID_MISMATCH n))) ∧
        (∃ d, t.newestOf (sdiSource n) = some d ∧ d.index = b ∧ d.count = (s.sdiOf n).count ∧ d.seq = (s.sdiOf n).seq ∧ d.sof = s.stampBefore f.age ∧
          (d.width, d.height) = rasterSize (fmtRaster w) ∧ (f.rows.length < d.height → d.tags % 2 = 1) ∧
          (Fld.SDI.CFG_PID_CHECK c n = 1 → f.pid.any (pidFits w) = false → bitOf d.tags 7 = true)))) ∧
    (∀ (f : SdiFrame) c w, f.wellFormed = true → (s.sdiOf n).running = true → (s.sdiOf n).output = false → (s.sdiOf n).refused = false → s.holding (0x38 + n) = false →
      n = 0 ∨ s.quad = false → c = (s.sdiOf n).cfg → w = s.sdiFormat n f → Fld.SDI.CFG_AUTO c n = 1 ∨ sameTiming w (c.fld (Adr.SDI.FMT n) 0 32) = true → s.sdiFits n w = true →
      (s.sdiOf n).adopted = some w → s.freeBuffer (sdiSource n) (clampTo (Fld.SDI.NBUF c n) 2 4) = none → Completes (.sdiInFrame n f) s (fun t =>
        t.rd (Adr.SDI.DROPPED n) = satInc 32 (s.rd (Adr.SDI.DROPPED n)) ∧ t.newest = s.newest ∧ t.dram = s.dram)) ∧
    (s.quad = false → (s.sdiOf n).running = true → (s.sdiOf n).output = false → Completes (.sdiSignalLoss ⟨n, none⟩) s (fun t => (t.sdiOf n).adopted = none ∧
      t.rd (Adr.SDI.DET_FMT n) = 0 ∧ SameRegsBut [Adr.SDI.DET_FMT n] s t ∧
      { page := (0x380 + 0x10 * n.val) / 16, cause := 0x380 + 0x10 * n.val, code := 0x06, event := false, unit := 0x380 + 0x10 * n.val } ∈ t.held)) ∧
    (∀ (f : SdiFrame) g b, f.wellFormed = true → s.quad = false → (s.sdiOf n).running = true → (s.sdiOf n).output = false → (s.sdiOf n).refused = false →
      s.holding (0x38 + n) = false → (s.sdiOf n).adopted = some g → s.freeBuffer (sdiSource n) (clampTo (Fld.SDI.NBUF (s.sdiOf n).cfg n) 2 4) = some b →
      Completes (.sdiSignalLoss ⟨n, some f⟩) s (fun t => (t.sdiOf n).adopted = none ∧ t.rd (Adr.SDI.DET_FMT n) = 0 ∧
        t.rd (Adr.SDI.FRAMES n) = satInc 32 (s.rd (Adr.SDI.FRAMES n)) ∧
        (∃ d, t.newestOf (sdiSource n) = some d ∧ d.index = b ∧ d.tags % 2 = 1 ∧ d.sof = s.stampBefore f.age))) ∧
    (∀ f : SdiFrame, f.wellFormed = true → s.quad = false → (s.sdiOf n).running = true → (s.sdiOf n).output = false → (s.sdiOf n).refused = false →
      s.holding (0x38 + n) = false → (s.sdiOf n).adopted = none → Completes (.sdiSignalLoss ⟨n, some f⟩) s (fun t => (t.sdiOf n).adopted = none ∧
        t.rd (Adr.SDI.CRC_ERR n) = satAdd 32 (s.rd (Adr.SDI.CRC_ERR n)) f.crcErrors ∧ t.newest = s.newest ∧ t.dram = s.dram)) ∧
    (∀ part, (∀ f, part = some f → f.wellFormed = true) → s.quad = false → (s.sdiOf n).running = false ∨ (s.sdiOf n).output = true →
      Does (.sdiSignalLoss ⟨n, part⟩) s s)

/-- While no clock domain is stopped: a video-mode frame counts and sends V_ACT lines, BG_COLOUR alone without layers; a command-mode frame leaves on a
change, or at the tearing edge with TE_EN. The porch's end closes a frame, lets go of what it held and sends a packet that waited. LAYER_UNDERRUN of
an unsafe panel shows the background from that pixel on, counts, and reports UPSTREAM for a failed read; of an admitted one at speed it does nothing.
A DSI command sends its bytes, between frames, and sets BUSY; its end stores the answer. CMD_DATA moves one byte of the FIFO. Model's choices and
readings: entry 96, entry 97, entry 152 of the log. (R240, R241, R243, R244, R245, R246, R247) -/
def Obligations.PanelFrames : Prop :=
  ∀ (s : State) (n : Fin 2), s.stopped = [] →
    (s.blvReady n = false → Does (.blvFrameStart n) s s ∧ Does (.teEdge n) s s) ∧
    (s.blvReady n = true → blvCommand s.regs n = false → (s.blvOf n).quiet = false → (∀ b, b ∈ s.blvNewest n → b = none) → Fld.BLV.LINK_CFG_PIXFMT s.regs n = 1 →
      Completes (.blvFrameStart n) s (fun t => t.rd (Adr.BLV.FRAMES n) = satInc 32 (s.rd (Adr.BLV.FRAMES n)) ∧ (t.blvOf n).sending = true ∧
        (t.blvOf n).porchOver = false ∧ (t.blvOf n).started = s.now ∧
        .panelFrame n (List.replicate (Fld.BLV.ACT_V_ACT s.regs n) (List.replicate (Fld.BLV.ACT_H_ACT s.regs n) (blvBack s.regs n))) ∈ t.outbox ∧
        SameRegsBut [Adr.BLV.FRAMES n] s t ∧ t.dram = s.dram)) ∧
    (s.blvReady n = true → blvCommand s.regs n = false → (s.blvOf n).quiet = false → Completes (.blvFrameStart n) s (fun t =>
      t.rd (Adr.BLV.FRAMES n) = satInc 32 (s.rd (Adr.BLV.FRAMES n)) ∧ (t.blvOf n).sending = true ∧ (t.blvOf n).shown = s.blvNewest n ∧
      (∃ rows, .panelFrame n rows ∈ t.outbox ∧ rows.length = Fld.BLV.ACT_V_ACT s.regs n) ∧
      SameRegsBut [Adr.BLV.FRAMES n, Adr.BLV.MISMATCH n, Adr.BLV.UNDERRUN n] s t ∧ t.dram = s.dram)) ∧
    (s.blvReady n = true → blvCommand s.regs n = true → Fld.BLV.LINK_CFG_TE_EN s.regs n = 0 → s.blvChanged n = false → Does (.blvFrameStart n) s s) ∧
    (s.blvReady n = true → blvCommand s.regs n = true → Fld.BLV.LINK_CFG_TE_EN s.regs n = 1 → s.blvChanged n = true → (s.blvOf n).quiet = false →
      Fld.BLV.LINK_CFG_CHG s.regs n = 0 → Does (.blvFrameStart n) s s ∧ Completes (.teEdge n) s (fun t =>
        t.rd (Adr.BLV.FRAMES n) = satInc 32 (s.rd (Adr.BLV.FRAMES n)) ∧ (t.blvOf n).sending = true ∧ (t.blvOf n).applied = false ∧
        (t.blvOf n).shown = s.blvNewest n ∧ ∃ rows, .panelFrame n rows ∈ t.outbox ∧ rows.length = Fld.BLV.ACT_V_ACT s.regs n)) ∧
    ((s.blvOf n).sending = true → blvCommand (s.blvOf n).cfg n = true ∨ s.porchEnds n = true → (s.blvOf n).held = [] → (s.blvOf n).packet = none →
      Does (.blvVfpEnd n) s (s.setBlv n { s.blvOf n with sending := false, porchOver := true })) ∧
    (∀ p, (s.blvOf n).sending = true → blvCommand (s.blvOf n).cfg n = true ∨ s.porchEnds n = true → (s.blvOf n).held = [] → (s.blvOf n).packet = some p →
      Does (.blvVfpEnd n) s ((s.setBlv n { s.blvOf n with sending := false, porchOver := true, packet := none }).emit (.dsiPacket n p.1 p.2.1 p.2.2))) ∧
    (∀ h, (s.blvOf n).sending = true → blvCommand (s.blvOf n).cfg n = true ∨ s.porchEnds n = true → (s.blvOf n).held = [h] → (s.blvOf n).packet = none →
      Does (.blvVfpEnd n) s ((s.letGo (viewSource h.1) (0x3C0 + 0x10 * n) h.2).setBlv n { s.blvOf n with sending := false, porchOver := true, held := [] })) ∧
    ((s.blvOf n).sending = false ∨ (blvCommand (s.blvOf n).cfg n = false ∧ s.porchEnds n = false) → Does (.blvVfpEnd n) s s) ∧
    (∀ (layer : Fin 3) pixel, (s.blvOf n).sending = true → s.blvSafe n = false →
      Does (.layerUnderrun n layer pixel none) s ((s.emit (.panelBackground n pixel)).bump (Adr.BLV.UNDERRUN n))) ∧
    (∀ (layer : Fin 3) pixel, s.hasFlow (0x3C0 + 0x10 * n) = true → 0x0100 ≤ Fld.TRL.SPEED_INDEX s.regs → Does (.layerUnderrun n layer pixel none) s s) ∧
    (∀ (layer : Fin 3) pixel c, c < 4096 → (s.blvOf n).sending = true → Does (.layerUnderrun n layer pixel (some c)) s
      (((s.emit (.panelBackground n pixel)).bump (Adr.BLV.UNDERRUN n)).upstream (0x3C0 + 0x10 * n) c)) ∧
    (∀ v : Word, (v.toNat / 2 ^ 16 % 2 = 0 ∨ (s.blvOf n).running = false ∨ Fld.BLV.CMD_STAT_BUSY s.regs n = 1) → Does (.dsiCommand n v) s s) ∧
    (∀ v : Word, v.toNat / 2 ^ 16 % 2 = 1 → v.toNat % 128 ≤ 64 → (s.blvOf n).running = true → (s.blvOf n).refused = false → (s.blvOf n).sending = false →
      Fld.BLV.CMD_STAT_BUSY s.regs n = 0 → Completes (.dsiCommand n v) s (fun t => Fld.BLV.CMD_STAT_BUSY t.regs n = 1 ∧
        (t.blvOf n).tx = (s.blvOf n).tx.drop (v.toNat % 128) ∧ (t.blvOf n).packet = none ∧
        .dsiPacket n.val (bits v.toNat 8 6) (bitOf v.toNat 17) ((s.blvOf n).tx.take (v.toNat % 128)) ∈ t.outbox ∧
        SameRegsBut [Adr.BLV.CMD_STAT n] s t)) ∧
    (∀ v : Word, v.toNat / 2 ^ 16 % 2 = 1 → v.toNat % 128 ≤ 64 → (s.blvOf n).running = true → (s.blvOf n).refused = false → (s.blvOf n).sending = true →
      Fld.BLV.CMD_STAT_BUSY s.regs n = 0 → Completes (.dsiCommand n v) s (fun t => Fld.BLV.CMD_STAT_BUSY t.regs n = 1 ∧
        (t.blvOf n).tx = (s.blvOf n).tx.drop (v.toNat % 128) ∧
        (t.blvOf n).packet = some (bits v.toNat 8 6, bitOf v.toNat 17, (s.blvOf n).tx.take (v.toNat % 128)) ∧
        SameRegsBut [Adr.BLV.CMD_STAT n] s t)) ∧
    (∀ err rx, rx.length ≤ 64 → Fld.BLV.CMD_STAT_BUSY s.regs n = 0 ∨ (s.blvOf n).packet.isSome = true → Does (.dsiCommandDone n err rx) s s) ∧
    (∀ err rx, rx.length ≤ 64 → Fld.BLV.CMD_STAT_BUSY s.regs n = 1 → (s.blvOf n).reading = true → (s.blvOf n).packet = none →
      Completes (.dsiCommandDone n err rx) s (fun t =>
      Fld.BLV.CMD_STAT_BUSY t.regs n = 0 ∧ Fld.BLV.CMD_STAT_ERR t.regs n = (if err then 1 else 0) ∧ (t.blvOf n).rx = rx ∧
      bits (t.rd (Adr.BLV.CMD_STAT n)) 8 7 = rx.length ∧ SameRegsBut [Adr.BLV.CMD_STAT n] s t)) ∧
    (∀ v : Word, Does (.cmdData n (.write v)) s (s.setBlv n { s.blvOf n with tx := pushFifo (s.blvOf n).tx (BitVec.ofNat 8 v.toNat) })) ∧
    (Does (.cmdData n .read) s ((s.setBlv n { s.blvOf n with rx := (s.blvOf n).rx.drop 1 }).setFld (Adr.BLV.CMD_STAT n) 8 7 ((s.blvOf n).rx.drop 1).length))

/-- STEP_MEASURED, STEP_VALUE and SET_TIME wait as the pending step and set BUSY, and do nothing while one waits. STEP_APPLY moves time by exactly the
value or the measured offset, or sets it, counts the step and remembers its size; a step out of range or without a selected reference shows FAIL and
leaves time. Without a pending step it does nothing. (R248, R250, R251) -/
def Obligations.StepsMoveTime : Prop :=
  ∀ s : State,
    (Fld.SUN0.STEP_STAT_BUSY s.regs = 1 → Does .stepMeasured s s ∧ Does .stepValue s s ∧ Does .setTime s s) ∧
    (Fld.SUN0.STEP_STAT_BUSY s.regs = 0 →
      Completes .stepMeasured s (fun t => t.sun.step = some .measured ∧ t.rd Adr.SUN0.STEP_STAT = 1 ∧ t.time = s.time ∧ SameRegsBut [Adr.SUN0.STEP_STAT] s t) ∧
      Completes .stepValue s (fun t => t.sun.step = some (.value (signed (s.rd Adr.SUN0.STEP_VALUE_LO + s.rd Adr.SUN0.STEP_VALUE_HI * 2 ^ 32) 64)) ∧
        t.rd Adr.SUN0.STEP_STAT = 1 ∧ t.time = s.time ∧ SameRegsBut [Adr.SUN0.STEP_STAT] s t) ∧
      Completes .setTime s (fun t => t.sun.step = some (.set (s.rd Adr.SUN0.SET_SEC_LO + s.rd Adr.SUN0.SET_SEC_HI % 2 ^ 16 * 2 ^ 32) (s.rd Adr.SUN0.SET_NS % 2 ^ 30)) ∧
        t.rd Adr.SUN0.STEP_STAT = 1 ∧ t.time = s.time ∧ SameRegsBut [Adr.SUN0.STEP_STAT] s t)) ∧
    (s.sun.step = none → Does .stepApply s s) ∧
    (∀ ns : Int, s.sun.step = some (.value ns) → 0 ≤ (s.time.fine : Int) + ns * 65536 → (s.time.fine : Int) + ns * 65536 < 2 ^ 48 * 1000000000 * 65536 →
      Completes .stepApply s (fun t => (t.time.fine : Int) = s.time.fine + ns * 65536 ∧ t.rd Adr.SUN0.STEP_STAT = 0 ∧
        t.rd Adr.SUN0.STEP_COUNT = satInc 32 (s.rd Adr.SUN0.STEP_COUNT) ∧ t.sun.step = none ∧ t.sun.lastStep = (t.time.count : Int) - s.time.count ∧
        SameRegsBut [Adr.SUN0.STEP_STAT, Adr.SUN0.STEP_COUNT, Adr.GLB.UPD_LATE] s t)) ∧
    (∀ ns : Int, s.sun.step = some (.value ns) → (s.time.fine : Int) + ns * 65536 < 0 → Completes .stepApply s (fun t =>
      t.time = s.time ∧ t.rd Adr.SUN0.STEP_STAT = 2 ∧ t.sun.step = none ∧ SameRegsBut [Adr.SUN0.STEP_STAT] s t)) ∧
    (∀ sec ns, s.sun.step = some (.set sec ns) → sec < 2 ^ 48 → ns < 1000000000 → Completes .stepApply s (fun t =>
      t.time = { sec := sec, ns := ns, frac := 0 } ∧ t.rd Adr.SUN0.STEP_STAT = 0 ∧ t.rd Adr.SUN0.STEP_COUNT = satInc 32 (s.rd Adr.SUN0.STEP_COUNT))) ∧
    (∀ sec ns, s.sun.step = some (.set sec ns) → 1000000000 ≤ ns → Completes .stepApply s (fun t => t.time = s.time ∧ t.rd Adr.SUN0.STEP_STAT = 2 ∧ t.sun.step = none)) ∧
    (s.sun.step = some .measured → s.selected = 0 → Completes .stepApply s (fun t => t.time = s.time ∧ t.rd Adr.SUN0.STEP_STAT = 2 ∧ t.sun.step = none)) ∧
    (∀ e : Int, s.sun.step = some .measured → s.selected ≠ 0 → (s.ref s.selected).e = some e → 0 ≤ (s.time.fine : Int) + e →
      (s.time.fine : Int) + e < 2 ^ 48 * 1000000000 * 65536 → Completes .stepApply s (fun t =>
        (t.time.fine : Int) = s.time.fine + e ∧ t.rd Adr.SUN0.STEP_STAT = 0))

/-- While no clock domain is stopped: a measurement of an enabled reference gives its offset and makes an ABSENT one QUALIFYING; one whose events have
been missing for the time of its kind becomes ABSENT, is unselected, and is reported once qualified, and not before that time. A period end takes each
frequency from first and last offset and qualifies a reference after QUAL_TIME periods within TOL. Timecode advances from PTP, from the last LTC word
or from the set label, and each frame keeps the label it was given. An LTC word and a frame pulse leave once at each genlock point of their rate and
offset, the word with the label of its frame (one ahead of the present frame's counts on), one word per pair for the rates of frame pairs, while their
enables hold. Model's choices and readings: entry 101, entry 106, entry 105, entry 104, entry 179 of the log. (R252, R253, R254, R255, R257, R260,
R261, R262) -/
def Obligations.ReferencesAndTimecode : Prop :=
  ∀ (s : State) (r : Fin 8), s.stopped = [] →
    (∀ age, 2 ≤ r.val → r.val ≤ 6 → s.refState r = 0 → Does (.refMeasurement r (.edge age)) s (s.setRef r { s.ref r with seen := s.elapsed })) ∧
    (∀ age, r.val < 2 ∨ r.val = 7 → Does (.refMeasurement r (.edge age)) s s) ∧
    (∀ e d, r ≠ 1 → r ≠ 7 → Does (.refMeasurement r (.offset e d)) s s) ∧
    (∀ (age : Nat) e, 2 ≤ r.val → r.val ≤ 6 → s.refState r ≠ 0 → s.phaseOffset r ((s.fineBefore age : Int) - s.refOffset r) = e → -(2 ^ 47 : Int) ≤ e → e < 2 ^ 47 →
      Completes (.refMeasurement r (.edge age)) s (fun t => (t.ref r).e = some e ∧ (t.ref r).fresh = true ∧ (t.ref r).count = (s.ref r).count + 1 ∧
        (t.ref r).seen = s.elapsed ∧
        t.refState r = (if s.refState r = 1 then 2 else s.refState r) ∧ SameRegsBut [Adr.SUN1.REF_STAT (r - 1)] s t)) ∧
    (∀ e d, r = 1 ∨ r = 7 → s.refState r ≠ 0 → -(2 ^ 47 : Int) ≤ e + s.refOffset r → e + s.refOffset r < 2 ^ 47 →
      Completes (.refMeasurement r (.offset e d)) s (fun t => (t.ref r).e = some (e + s.refOffset r) ∧ (t.ref r).pathDelay = d ∧
        t.refState r = (if s.refState r = 1 then 2 else s.refState r) ∧ SameRegsBut [Adr.SUN1.REF_STAT (r - 1)] s t)) ∧
    (r ≠ 0 → 2 ≤ s.refState r → s.lossDue r = true → Completes (.refLoss r) s (fun t => t.refState r = 1 ∧ (t.ref r).e = none ∧ (t.ref r).within = 0 ∧ t.selected ≠ r.val ∧
      (3 ≤ s.refState r → { page := (0x090 + r.val) / 16, cause := 0x090 + r.val, code := 0x21, event := false, unit := 0x090 + r.val } ∈ t.held))) ∧
    (s.refState r < 2 ∨ s.lossDue r = false → Does (.refLoss r) s s) ∧
    (r = 1 → Fld.SUN1.REF_PARAM_SYNC_LOG s.regs 0 = 0 → s.lossDue r = decide (3000000000 ≤ s.elapsed - (s.ref r).seen)) ∧
    (r = 5 → s.lossDue r = decide (1600 ≤ s.elapsed - (s.ref r).seen)) ∧
    Completes .freqPeriodEnd s (fun t => t.sun.adjSum = 0 ∧ t.sun.adjRounds = 0 ∧ (t.ref r).count = 0 ∧
      t.sun.periods.length ≤ max 4 (Fld.SUN1.OBS_INTERVAL s.regs) + 64 ∧ t.time = s.time ∧ t.timecode = s.timecode) ∧
    (∀ e0 e1 t0 t1 q, r ≠ 0 → s.sun.adjRounds = 0 → 2 ≤ s.refState r → (s.ref r).firstE = some (e0, t0) → (s.ref r).lastE = some (e1, t1) → 2 ≤ (s.ref r).count →
      t0 < t1 → (e1 - e0) * 15625000 = q * ((t1 : Int) - t0) → -(2 ^ 31 : Int) ≤ s.adj + q → s.adj + q < 2 ^ 31 →
      Completes .freqPeriodEnd s (fun t => t.freq r = s.adj + q ∧
        (s.refState r = 2 → (s.adj + q).natAbs ≤ Fld.SUN1.TOL s.regs → 1 ≤ Fld.SUN1.QUAL_TIME s.regs → Fld.SUN1.QUAL_TIME s.regs ≤ (s.ref r).within + 1 → t.refState r = 3) ∧
        (s.refState r = 2 → Fld.SUN1.TOL s.regs < (s.adj + q).natAbs → t.refState r = 2 ∧ (t.ref r).within = 0))) ∧
    (Fld.SUN0.TC_CFG_SRC s.regs = 0 → Completes .timecodeAdvance s (fun t => t.regs = s.regs ∧ t.time = s.time ∧
      t.timecode = s.ptpLabel (genlockIndex s.tcRate s.time.count) (genlockPoint s.tcRate (genlockIndex s.tcRate s.time.count)))) ∧
    (Fld.SUN0.TC_CFG_SRC s.regs = 1 → s.sun.ltcIn = none → Completes .timecodeAdvance s (fun t => t.timecode = s.timecode ∧ t.regs = s.regs ∧ t.time = s.time)) ∧
    Completes .timecodeAdvance s (fun t => t.sun.labels.head? = some (genlockIndex s.tcRate s.time.count, t.timecode, t.sun.pair)) ∧
    (∀ l, Fld.SUN0.TC_CFG_SRC s.regs = 2 → s.sun.tcSet = some l → Completes .timecodeAdvance s (fun t => t.timecode = l ∧ t.sun.tcSet = none ∧ t.regs = s.regs)) ∧
    (∀ l sec ff, Fld.SUN0.TC_CFG_SRC s.regs = 1 → s.sun.ltcIn = some l → s.tcRate = 2 → sec < 86399 → ff < 25 → l = plainLabel 25 (sec * 25 + ff) →
      Completes .timecodeAdvance s (fun t => t.timecode = plainLabel 25 (sec * 25 + ff + 1) ∧ t.regs = s.regs)) ∧
    (∀ v : Word, Completes (.tcSet v) s (fun t => t.sun.tcSet = some (v.toNat % 2 ^ 30 + 2 ^ 31 * (v.toNat / 2 ^ 31)) ∧ t.timecode = s.timecode ∧ t.regs = s.regs)) ∧
    (∀ l : Word, Completes (.ltcWordIn l) s (fun t => t.sun.ltcIn = some l.toNat ∧ t.timecode = s.timecode ∧ t.regs = s.regs)) ∧
    (∀ k, s.enabled 0x08 = true → Fld.SUN0.TC_CFG_LTC_OUT_EN s.regs = 1 → s.pointNow s.tcRate (signed (Fld.SUN0.LTC_OFFSET s.regs) 32) = some k →
      s.sun.ltcPoint ≠ some k → s.tcRate < 5 ∨ (s.labelAt k).1.2 = true → Completes .ltcWordOut s (fun t =>
        .ltcWord (s.labelAt k).1.1 ∈ t.outbox ∧ t.sun.ltcPoint = some k ∧ t.timecode = s.timecode ∧ t.regs = s.regs ∧ t.dram = s.dram)) ∧
    (∀ k e, s.tcSource ≠ 0 → s.sun.labels.find? (fun x => x.1 == k) = some e → (s.labelAt k).1 = e.2) ∧
    (∀ k e, s.tcSource ≠ 0 → s.tcRate < 5 → s.sun.tcSet = none → s.sun.labels.head? = some e → s.sun.labels.find? (fun x => x.1 == k) = none → k = e.1 + 1 → e.2.2 = false →
      (s.labelAt k).1.1 = (s.tcNext e.2.1).1) ∧
    (∀ k, s.pointNow s.tcRate (signed (Fld.SUN0.LTC_OFFSET s.regs) 32) = some k → s.sun.ltcPoint = some k ∨ (5 ≤ s.tcRate ∧ (s.labelAt k).1.2 = false) →
      Completes .ltcWordOut s (fun t => t.sun = s.sun ∧ (∀ l, .ltcWord l ∈ t.outbox → .ltcWord l ∈ s.outbox) ∧ t.timecode = s.timecode ∧ t.regs = s.regs ∧ t.dram = s.dram)) ∧
    (s.enabled 0x08 = false ∨ Fld.SUN0.TC_CFG_LTC_OUT_EN s.regs = 0 ∨ s.pointNow s.tcRate (signed (Fld.SUN0.LTC_OFFSET s.regs) 32) = none →
      Does .ltcWordOut s s) ∧
    (∀ (p : Fin 2) rate k, s.enabled 0x08 = true → Fld.SUN0.FP_CFG_EN s.regs p = 1 → Fld.SUN0.FP_CFG_RATE s.regs p = rate → rate < 10 →
      s.pointNow rate (signed (Fld.SUN0.FP_OFFSET s.regs p) 32) = some k → s.sun.pulses.contains (p.val, k) = false → Completes (.framePulse p) s (fun t =>
        .framePulse p (Fld.SUN0.FP_CFG_WIDTH s.regs p * 64) ∈ t.outbox ∧ t.sun.pulses.contains (p.val, k) = true ∧ t.regs = s.regs ∧ t.dram = s.dram)) ∧
    (∀ (p : Fin 2) rate, Fld.SUN0.FP_CFG_RATE s.regs p = rate → rate < 10 →
      s.enabled 0x08 = false ∨ Fld.SUN0.FP_CFG_EN s.regs p = 0 ∨ s.pointNow rate (signed (Fld.SUN0.FP_OFFSET s.regs p) 32) = none → Does (.framePulse p) s s) ∧
    (∀ rate ofs k, s.pointNow rate ofs = some k →
      k = genlockIndex rate ((s.ns : Int) - ofs) ∧ (s.ns : Int) - ofs - genlockPoint rate k < 2)

/-- While no clock domain is stopped: frames over 1,522 bytes or with a bad FCS are counted and dropped; a PAUSE is counted only; a multicast frame for no
internal taker goes to the other port: at once where its line is free, else it waits in the queue of its class, or counts DROPPED when that is full.
Class 0 is PTP, class 2 a forwarded frame whose DSCP HP_DSCP names; what leaves next is a ready frame of the lowest class, one of another class than 0
only while no stream packet is due. A frame for the own address enters the control ring with its stamp, or counts CTL_DROPPED. A Sync that crosses has
its residence time and asymmetry added to its correction. The transmit ring sends its slots in order and writes stamps back; a slot with TS_REQ waits
while its port is not UP. Link state follows the lock, with LINK_DOWN. MAC_AGE removes exactly the aged entry. Model's choices and readings: entry
107, entry 108, entry 110, entry 177, entry 178 of the log. (R263, R264, R265, R266, R267, R268) -/
def Obligations.NetworkFrames : Prop :=
  ∀ (s : State) (p : Fin 2) (f : EthFrame), s.stopped = [] →
    (s.ethUp p = false ∨ s.holding (0x0A + p) = true → Does (.ethFrameReceive p f) s s) ∧
    (s.ethUp p = true → s.holding (0x0A + p) = false → 1522 < f.bytes.length + 4 →
      Does (.ethFrameReceive p f) s ((s.bump (Adr.ETH.RX_FRAMES p)).bump (Adr.ETH.OVERSIZE p))) ∧
    (s.ethUp p = true → s.holding (0x0A + p) = false → f.bytes.length + 4 ≤ 1522 → f.fcsOk = false → s.forOther p f.bytes = false →
      Does (.ethFrameReceive p f) s ((s.bump (Adr.ETH.RX_FRAMES p)).bump (Adr.ETH.FCS_ERR p))) ∧
    (s.ethUp p = true → s.holding (0x0A + p) = false → f.bytes.length + 4 ≤ 1522 → f.fcsOk = true → etherType f.bytes = 0x8808 →
      Does (.ethFrameReceive p f) s (s.bump (Adr.ETH.RX_FRAMES p))) ∧
    (s.ethUp p = true → s.holding (0x0A + p) = false → f.bytes.length + 4 ≤ 1522 → f.fcsOk = true → etherType f.bytes ≠ 0x8808 →
      bitOf (frameField f.bytes 0 6) 40 = true → s.forInternal f.bytes = false → s.ethUp (1 - p.val) = true →
      s.egressFull (1 - p.val) (s.egressClass true f.bytes) f.bytes.length = false → s.lineFree (1 - p.val) = true → s.net.egress = [] → s.senderDue (1 - p.val) = false →
      f.egressDelay = 0 →
      Completes (.ethFrameReceive p f) s (fun t => t.rd (Adr.ETH.RX_FRAMES p) = satInc 32 (s.rd (Adr.ETH.RX_FRAMES p)) ∧
        t.rd (Adr.ETH.TX_FRAMES (1 - p.val)) = satInc 32 (s.rd (Adr.ETH.TX_FRAMES (1 - p.val))) ∧
        .ethFrame (1 - p.val) (s.transparent p (1 - p.val) (s.ingress p (s.fineBefore f.age)) (s.egress (1 - p.val) s.time.fine) f.bytes) true ∈ t.outbox ∧
        SMap.get (fun _ => 0) t.net.lineBusy (1 - p.val) = s.elapsed * 65536 + s.lineTime (1 - p.val) f.bytes.length ∧ t.net.egress = [] ∧
        SameRegsBut [Adr.ETH.RX_FRAMES p, Adr.ETH.TX_FRAMES (1 - p.val)] s t ∧ t.dram = s.dram)) ∧
    (s.ethUp p = true → s.holding (0x0A + p) = false → f.bytes.length + 4 ≤ 1522 → f.fcsOk = true → etherType f.bytes ≠ 0x8808 →
      bitOf (frameField f.bytes 0 6) 40 = true → s.forInternal f.bytes = false → s.ethUp (1 - p.val) = true →
      s.egressFull (1 - p.val) (s.egressClass true f.bytes) f.bytes.length = false → s.lineFree (1 - p.val) = false →
      Completes (.ethFrameReceive p f) s (fun t => (∃ e, t.net.egress = s.net.egress ++ [e] ∧ e.port = 1 - p.val ∧ e.cls = s.egressClass true f.bytes ∧
          e.bytes = f.bytes ∧ e.ready = s.elapsed * 65536 + f.egressDelay) ∧
        SameRegsBut [Adr.ETH.RX_FRAMES p] s t ∧ t.dram = s.dram ∧ ∀ q b ok, .ethFrame q b ok ∈ t.outbox → .ethFrame q b ok ∈ s.outbox)) ∧
    (∀ e : EgressFrame, s.nextEgress p = some e → e ∈ s.net.egress ∧ e.port = p.val ∧ e.ready ≤ s.elapsed * 65536 ∧ (e.cls ≠ 0 → s.senderDue p = false) ∧
      ∀ g ∈ s.net.egress, g.port = p.val → g.ready ≤ s.elapsed * 65536 → g.cls = 0 ∨ g.cls = 2 ∨ g.cls = 3 → e.cls ≤ g.cls) ∧
    (s.egressClass true f.bytes = 0 ↔ etherType f.bytes = 0x88F7 ∨ udpDst f.bytes = some 319 ∨ udpDst f.bytes = some 320) ∧
    (∀ o, ptpClass f.bytes = false → ipOffset f.bytes = some o → bitOf (Fld.ETH0.HP_DSCP_LO s.regs + Fld.ETH0.HP_DSCP_HI s.regs * 2 ^ 32) (frameField f.bytes (o + 1) 1 / 4) = true →
      s.egressClass true f.bytes = 2 ∧ s.egressClass false f.bytes = 3) ∧
    (s.ethUp p = true → s.holding (0x0A + p) = false → f.bytes.length + 4 ≤ 1522 → f.fcsOk = true → etherType f.bytes ≠ 0x8808 →
      bitOf (frameField f.bytes 0 6) 40 = true → s.forInternal f.bytes = false → s.ethUp (1 - p.val) = true →
      Completes (.ethFrameReceive p f) s (fun t => s.egressFull (1 - p.val) (s.egressClass true f.bytes) f.bytes.length = true →
        t.rd (Adr.ETH.DROPPED (1 - p.val)) = satInc 32 (s.rd (Adr.ETH.DROPPED (1 - p.val))) ∧
        SameRegsBut [Adr.ETH.RX_FRAMES p, Adr.ETH.DROPPED (1 - p.val)] s t)) ∧
    (s.ethUp p = true → s.holding (0x0A + p) = false → f.bytes.length + 4 ≤ 1522 → f.fcsOk = true → etherType f.bytes ≠ 0x8808 →
      frameField f.bytes 0 6 = s.ownMac → bitOf s.ownMac 40 = false → ptpUdp f.bytes = none → (List.range 16).any (fun r => s.takes r p f.bytes) = false →
      Fld.ETH0.CTL_RX_SLOTS s.regs ≠ 0 → (Fld.ETH0.CTL_RX_WR s.regs + 1) % Fld.ETH0.CTL_RX_SLOTS s.regs ≠ Fld.ETH0.CTL_RX_RD s.regs →
      Completes (.ethFrameReceive p f) s (fun t => t.rd Adr.ETH0.CTL_RX_WR = (Fld.ETH0.CTL_RX_WR s.regs + 1) % Fld.ETH0.CTL_RX_SLOTS s.regs ∧
        SameRegsBut [Adr.ETH.RX_FRAMES p, Adr.ETH0.CTL_RX_WR] s t ∧
        t.dram = (s.store (slotAddr (Fld.ETH0.CTL_RX_UNIT s.regs) (Fld.ETH0.CTL_RX_WR s.regs))
          (slotHeader f.bytes.length (p + 2) (PtpTime.ofFine (s.ingress p (s.fineBefore f.age)).toNat) 0 ++ f.bytes)).dram)) ∧
    (s.ethUp p = true → s.holding (0x0A + p) = false → f.bytes.length + 4 ≤ 1522 → f.fcsOk = true → etherType f.bytes ≠ 0x8808 →
      frameField f.bytes 0 6 = s.ownMac → bitOf s.ownMac 40 = false → ptpUdp f.bytes = none → (List.range 16).any (fun r => s.takes r p f.bytes) = false →
      Fld.ETH0.CTL_RX_SLOTS s.regs = 0 ∨ (Fld.ETH0.CTL_RX_WR s.regs + 1) % Fld.ETH0.CTL_RX_SLOTS s.regs = Fld.ETH0.CTL_RX_RD s.regs →
      Completes (.ethFrameReceive p f) s (fun t => t.rd Adr.ETH0.CTL_DROPPED = satInc 32 (s.rd Adr.ETH0.CTL_DROPPED) ∧ t.dram = s.dram ∧
        SameRegsBut [Adr.ETH.RX_FRAMES p, Adr.ETH0.CTL_DROPPED] s t)) ∧
    (∀ o x received sent, Fld.ETH0.SW_CFG_TC_EN s.regs = 1 → etherType f.bytes = 0x88F7 → ptpOffset f.bytes = some o → ptpType f.bytes o = 0 → o + 16 ≤ f.bytes.length →
      x = correction f.bytes o + (sent - received) + s.ethAsym p → -(2 ^ 63 : Int) ≤ x → x < 2 ^ 63 →
      correction (s.transparent p (1 - p.val) received sent f.bytes) o = x) ∧
    (∀ wr delays, wr < 2 ^ 12 → Completes (.ctlTxSend wr delays) s (fun t => t.rd Adr.ETH0.CTL_TX_WR = wr)) ∧
    (∀ wr delays, wr < 2 ^ 12 → Fld.ETH0.CTL_TX_SLOTS s.regs = 0 ∨ Fld.ETH0.CTL_TX_RD s.regs = wr → s.net.egress = [] → s.net.ctlOut = none →
      Completes (.ctlTxSend wr delays) s (fun t => SameRegsBut [Adr.ETH0.CTL_TX_WR] s t ∧ t.dram = s.dram ∧ ∀ q b ok, .ethFrame q b ok ∈ t.outbox → .ethFrame q b ok ∈ s.outbox)) ∧
    (∀ wr a h b own len flags ofs, wr < 2 ^ 12 → Fld.ETH0.CTL_TX_SLOTS s.regs ≠ 0 → Fld.ETH0.CTL_TX_RD s.regs ≠ wr → s.net.egress = [] → s.net.ctlOut = none →
      s.net.ctlDelays = [] → a = slotAddr (Fld.ETH0.CTL_TX_UNIT s.regs) (Fld.ETH0.CTL_TX_RD s.regs) → h = s.loadBytes a 16 → len = fieldOf h 0 2 → flags = fieldOf h 2 2 →
      ofs = fieldOf h 14 2 → b = s.loadBytes (a + 16) (min len 2032) → b ≠ [] → own = flags % 2 → bitOf flags 4 = false → bitOf flags 2 = false →
      (s.ethUp own = true → s.egressFull own (s.egressClass false b) b.length = false → s.lineFree own = true → s.senderDue own = false →
        Completes (.ctlTxSend wr []) s (fun t => .ethFrame own b true ∈ t.outbox ∧ t.rd Adr.ETH0.CTL_TX_WR = wr ∧
          t.rd Adr.ETH0.CTL_TX_RD = (Fld.ETH0.CTL_TX_RD s.regs + 1) % Fld.ETH0.CTL_TX_SLOTS s.regs ∧
          t.dram = (if bitOf flags 3 then (s.storeSeen a (slotHeader len (flags ||| 2) (PtpTime.ofFine (s.egress own s.time.fine).toNat) ofs)).dram else s.dram))) ∧
      (s.ethUp own = false → bitOf flags 3 = true → Completes (.ctlTxSend wr []) s (fun t =>
        t.rd Adr.ETH0.CTL_TX_RD = s.rd Adr.ETH0.CTL_TX_RD ∧ t.dram = s.dram ∧ ∀ q c ok, .ethFrame q c ok ∈ t.outbox → .ethFrame q c ok ∈ s.outbox))) ∧
    (s.ethRuns p = true → Completes (.ethLinkDown p) s (fun t => t.rd (Adr.ETH.LINK_STAT p) = 0 ∧ SameRegsBut [Adr.ETH.LINK_STAT p] s t ∧
      { page := (0x0A1 + 0x10 * p.val) / 16, cause := 0x0A1 + 0x10 * p.val, code := 0x06, event := false, unit := 0x0A1 + 0x10 * p.val } ∈ t.held)) ∧
    (∀ fec, s.ethRuns p = false → Does (.ethLinkDown p) s s ∧ Does (.ethBlockLock p fec) s s) ∧
    (∀ fec, s.ethRuns p = true → Completes (.ethBlockLock p fec) s (fun t => Fld.ETH.LINK_STAT_UP t.regs p = 1 ∧ SameRegsBut [Adr.ETH.LINK_STAT p] s t ∧
      { page := (0x0A1 + 0x10 * p.val) / 16, cause := 0x0A1 + 0x10 * p.val, code := 0x06, event := false, unit := 0x0A1 + 0x10 * p.val } ∉ t.held)) ∧
    (∀ mac, mac < 2 ^ 48 → Completes (.macAge mac) s (fun t => t.regs = s.regs ∧ ∀ e, e ∈ t.net.macs ↔
      e ∈ s.net.macs ∧ ¬ (e.mac = mac ∧ e.seen + Fld.ETH0.AGE_TIME s.regs * 1000000000 ≤ s.time.count)))

/-- While no clock domain is stopped: a sender reads its source at its slot and sends its packets at their times with its UDP and IP fields, to multicast
groups only, counting each frame. A receiver takes packets of its groups, each on its own path, its port and its source filter, merges the paths by
the settings of its frame until a later timestamp begins the next, counts duplicates, keeps audio samples under their timestamps, and reports
STREAM_LOSS after 3 frame periods or 10 ms without a packet. An audio port counts each frame under its sample index, a locked one at its own index
only; a frame uses the values in force when it began; an output sends its routed slots with their bits and frame sync, counting late samples; a slip
is counted and reported once; a stopping port ends with its frame, and a port that does not run leaves its pins at high impedance. MCLK is as
configured. BCLK_LOSS reports for a slave; a non-PCM mark ends after its hold. Model's choices and readings: entry 111, entry 112, entry 113, entry
114, entry 180 of the log. (R269, R270, R271, R272, R273, R274, R279, R280, R282) -/
def Obligations.StreamsAndAudio : Prop :=
  ∀ (s : State) (n : Fin 16) (p : Fin 4) (k : Nat), s.stopped = [] →
    ((s.sender n).running = false → Does (.senderFrameSlot n) s s) ∧
    (∀ num den g c, (s.sender n).running = true → s.holding 0x0C = false → sndPace s.regs n = (num, den) → num ≠ 0 → den ≠ 0 →
      g = (pointAt num (genlockSpan den) (pointIndex num (genlockSpan den) s.time.count)).toNat → (∀ f, f ∈ (s.sender n).frames → f.slot < g) →
      s.sndRead n = some c → Completes (.senderFrameSlot n) s (fun t => ∃ f, (t.sender n).frames = (s.sender n).frames ++ [f] ∧ f.slot = g ∧
        f.packets = c.bodies.length ∧ f.bodies = c.bodies ∧ f.next = 0 ∧ t.rd (Adr.IPS.NPACKETS n) = c.bodies.length % 2 ^ 20 ∧ .senderFrame n.val f.timestamp c.rows c.anc ∈ t.outbox ∧
        (Fld.IPS.SND_CFG_TS_MODE s.regs n = 0 → f.timestamp = rtpStamp (if sndEss s.regs n = 1 then (sndAudio s.regs n).1 else 90000) g) ∧
        SameRegsBut [Adr.IPS.NPACKETS n, Adr.IPS.FAULT_SND] s t ∧ t.dram = s.dram)) ∧
    (∀ before0 before1, (s.sender n).frames = [] → Does (.senderPacket n before0 before1) s s) ∧
    (∀ before0 before1 f rest, (s.sender n).frames = f :: rest → s.time.fine < (s.sndSchedule n f).1.1 ∨ s.sndFree n f = false → Completes (.senderPacket n before0 before1) s (fun t =>
      t.regs = s.regs ∧ t.sender n = s.sender n)) ∧
    (∀ before0 before1 f rest, (s.sender n).frames = f :: rest → (s.sndSchedule n f).1.1 ≤ s.time.fine → s.time.fine ≤ (s.sndSchedule n f).1.2 + 100 * 65536 → s.sndFree n f = true →
      f.next + 1 < f.packets → Completes (.senderPacket n before0 before1) s (fun t => (t.sender n).frames = { f with next := f.next + 1 } :: rest ∧
        (t.sender n).seq = ((s.sender n).seq + 1) % 2 ^ (if sndEss f.cfg n = 0 then 32 else 16) ∧
        (∀ port ∈ s.sndPorts n f, .senderPacket n f.next f.packets (s.sndPacket n f (s.sender n).seq port (s.sndBody n f)) ∈ t.outbox) ∧
        SameRegsBut [Adr.ETH.TX_FRAMES 0, Adr.ETH.TX_FRAMES 1] s t)) ∧
    (∀ before0 before1 f rest, (s.sender n).frames = f :: rest → (s.sndSchedule n f).1.1 ≤ s.time.fine → s.time.fine ≤ (s.sndSchedule n f).1.2 + 100 * 65536 → s.sndFree n f = true →
      f.packets ≤ f.next + 1 → Completes (.senderPacket n before0 before1) s (fun t => (t.sender n).frames = rest ∧
        t.rd (Adr.IPS.SENT_FRAMES n) = satInc 32 (s.rd (Adr.IPS.SENT_FRAMES n)) ∧
        SameRegsBut [Adr.ETH.TX_FRAMES 0, Adr.ETH.TX_FRAMES 1, Adr.IPS.SENT_FRAMES n] s t)) ∧
    (∀ f seq port body, (s.sndPacket n f seq port body).srcIp = Fld.ETH0.IP_ADDR s.regs ∧ (s.sndPacket n f seq port body).timestamp = f.timestamp ∧
      (s.sndPacket n f seq port body).dstMac = 0x01005E000000 + (s.sndPacket n f seq port body).dstIp % 2 ^ 23 ∧
      (s.sndPacket n f seq port body).dstIp = (if port = 0 then Fld.IPS.DST_IP_A f.cfg n else Fld.IPS.DST_IP_B f.cfg n)) ∧
    (∀ f port, port ∈ s.sndPorts n f → (if port = 0 then Fld.IPS.DST_IP_A f.cfg n else Fld.IPS.DST_IP_B f.cfg n) / 2 ^ 28 = 14) ∧
    (∀ f trs j, packetTime n f trs j = (f.slot + Fld.IPS.TRO f.cfg n) * 65536 + j * trs) ∧
    (∀ num den rNum rDen packets, num * rDen * packets ≠ 0 → trsOf num den rNum rDen packets = some (den * 1000000000 * rNum * 65536 / (num * rDen * packets))) ∧
    (∀ b q, q.seq < 2 ^ 32 → q.timestamp < 2 ^ 32 → s.accepts n b q = false → Does (.receiverPacket n b q) s s) ∧
    (∀ b q, (s.receiver n).frame = none → (s.receiver n).running = false ∨ s.holding 0x0D = true → s.accepts n b q = false) ∧
    (∀ src udp, s.addressed s.regs n 1 src (Fld.IPR.GROUP_A s.regs n) udp = true → Fld.IPR.GROUP_A s.regs n = Fld.IPR.GROUP_B s.regs n ∨
      (isGroup (Fld.IPR.GROUP_A s.regs n) = false ∧ Fld.IPR.GROUP_A s.regs n = Fld.ETH0.IP_ADDR s.regs)) ∧
    (∀ b q, q.seq < 2 ^ 32 → q.timestamp < 2 ^ 32 → s.accepts n b q = true → Fld.IPR.RCV_CFG_PATHS (s.rcvCfg (s.receiver n) q) n = 3 →
      mergeSeq (rcvSeqBits (s.rcvCfg (s.receiver n) q) n) (rcvWindow (s.rcvCfg (s.receiver n) q) n) (s.receiver n).top (s.receiver n).seen q.seq = .duplicate →
      Completes (.receiverPacket n b q) s (fun t => (t.receiver n).duplicates = satInc 32 (s.receiver n).duplicates ∧ (t.receiver n).audio = (s.receiver n).audio ∧
        (t.receiver n).frame = (s.receiver n).frame ∧ (t.receiver n).lost = false ∧ t.regs = s.regs ∧ t.dram = s.dram)) ∧
    (∀ f q, (s.receiver n).frame = some f → s.rcvCfg (s.receiver n) q = (if (s.receiver n).running = true ∧ serial 32 q.timestamp f.timestamp = .later then s.regs else f.cfg)) ∧
    (∀ q l, q.seq < 2 ^ 32 → q.timestamp < 2 ^ 32 → (s.receiver n).running = true → s.holding 0x0D = false → (s.receiver n).frame = none →
      Fld.IPR.RCV_CFG_PATHS s.regs n = 1 → q.udp = Fld.IPR.UDP_DST s.regs n → Fld.IPR.SRC_FILTER s.regs n = 0 → q.dst = Fld.IPR.GROUP_A s.regs n →
      rcvEss s.regs n = 1 → q.body = .audio l.length l → l ≠ [] → Completes (.receiverPacket n false q) s (fun t =>
        (t.receiver n).audio = ((q.timestamp, l.map (fun v => v % 2 ^ 24 * 2 ^ 8)) :: (s.receiver n).audio).take audioDepth ∧
        (t.receiver n).packetsA = satInc 32 (s.receiver n).packetsA ∧ (t.receiver n).lost = false ∧ t.regs = s.regs ∧ t.dram = s.dram)) ∧
    ((s.receiver n).running = true → (s.receiver n).lastAt + (if rcvEss s.regs n = 1 then 10000000 else 3 * periodNs (rateNum (rcvRate s.regs n)) (rateDen (rcvRate s.regs n))) ≤ s.elapsed →
      Completes (.streamLoss n) s (fun t => (t.receiver n).lost = true ∧ t.rd Adr.IPR.FAULT_RCV = n ∧
      { page := 0x0D, cause := 0x0D0, code := 0x20, event := false, unit := 0x0D0 } ∈ t.held ∧ SameRegsBut [Adr.IPR.FAULT_RCV] s t)) ∧
    ((s.receiver n).running = false ∨ s.elapsed < (s.receiver n).lastAt + rcvPatience s.regs n → Does (.streamLoss n) s s) ∧
    (∀ age pins, (s.bndPort p).running = false ∨ (s.holding 0x40 = true ∧ (s.bndPort p).stopping = false) → Does (.audioFrame p age pins) s s) ∧
    (∀ age pins, (s.bndPort p).running = true → (s.bndPort p).stopping = true → Completes (.audioFrame p age pins) s (fun t =>
      (t.bndPort p).running = false ∧ t.rd (Adr.BND.NONPCM p) = 0 ∧ t.bndPins p = (.highZ, false) ∧ SameRegsBut [Adr.BND.NONPCM p] s t ∧ t.dram = s.dram)) ∧
    (∀ (age : Nat) pins cfg, cfg = (s.bndView ((s.elapsed : Int) - age)).1.fld (Adr.BND.PORT_CFG p) 0 32 → (s.bndPort p).running = true → (s.bndPort p).stopping = false →
      bndLocked cfg = true → onIndex p cfg (signed (Fld.BND.PHASE_OFS (s.bndView ((s.elapsed : Int) - age)).1 p) 32) (s.bndPort p).k (s.time.count - age) = false →
      Does (.audioFrame p age pins) s s) ∧
    (∀ (age : Nat) pins cfg ofs, cfg = (s.bndView ((s.elapsed : Int) - age)).1.fld (Adr.BND.PORT_CFG p) 0 32 →
      ofs = signed (Fld.BND.PHASE_OFS (s.bndView ((s.elapsed : Int) - age)).1 p) 32 → (s.bndPort p).running = true → (s.bndPort p).stopping = false → s.holding 0x40 = false →
      bndLocked cfg = false ∨ onIndex p cfg ofs (s.bndPort p).k (s.time.count - age) = true → k = sampleIndex (bndRate p cfg) ofs (s.time.count - age) →
      Completes (.audioFrame p age pins) s (fun t =>
        t.rd (Adr.BND.FRAMES p) = satInc 32 (s.rd (Adr.BND.FRAMES p)) ∧ (t.bndPort p).k = some k ∧ (t.bndPort p).cfg = cfg ∧
        (bndFormat cfg ≠ bndFormat (s.bndPort p).cfg → (t.bndPort p).muted = 63) ∧
        SameRegsBut [Adr.BND.FRAMES p, Adr.BND.SLIPS p, Adr.BND.LATE_SAMPLES p, Adr.BND.NONPCM p] s t ∧ t.dram = s.dram)) ∧
    (∀ (age : Nat) pins cfg ofs v, s.bnd.before = none → cfg = s.rd (Adr.BND.PORT_CFG p) → ofs = signed (Fld.BND.PHASE_OFS s.regs p) 32 → v = (s.outputBus (s.regs, s.bnd.routes) p cfg k) →
      (s.bndPort p).running = true → (s.bndPort p).stopping = false → s.holding 0x40 = false →
      bndLocked cfg = false ∨ onIndex p cfg ofs (s.bndPort p).k (s.time.count - age) = true → k = sampleIndex (bndRate p cfg) ofs (s.time.count - age) →
      (s.bndPort p).cfg = cfg → (s.bndPort p).muted = 0 →
      slipOf cfg (s.bndPort p).k k = false → discardOf cfg (s.bndPort p).k k = false → bndInput cfg = false → bndInternal cfg = false →
      (∀ i, i < bndSlots p cfg → routeKind (routeOf s.bnd.routes p i) = 1 → routeIndex (routeOf s.bnd.routes p i) ≠ p.val) →
      Completes (.audioFrame p age pins) s (fun t => t.rd (Adr.BND.LATE_SAMPLES p) = satAdd 32 (s.rd (Adr.BND.LATE_SAMPLES p)) v.2 ∧
        t.rd (Adr.BND.SLIPS p) = s.rd (Adr.BND.SLIPS p) ∧ (t.bndPort p).bus = ((k, v.1) :: (s.bndPort p).bus).take audioDepth ∧
        .audioOut p.val k (if bndMaster cfg then some (bndFs p cfg) else none) (bndOffset cfg)
          ((v.1.map (fun a => a / 2 ^ (32 - bndSlotW p cfg))).flatMap (msbBits (bndSlotW p cfg))) (v.1.map (fun a => a / 2 ^ (32 - bndSlotW p cfg))) ∈ t.outbox)) ∧
    (∀ (age : Nat) pins cfg ofs, cfg = (s.bndView ((s.elapsed : Int) - age)).1.fld (Adr.BND.PORT_CFG p) 0 32 →
      ofs = signed (Fld.BND.PHASE_OFS (s.bndView ((s.elapsed : Int) - age)).1 p) 32 → (s.bndPort p).running = true → (s.bndPort p).stopping = false → s.holding 0x40 = false →
      bndLocked cfg = false ∨ onIndex p cfg ofs (s.bndPort p).k (s.time.count - age) = true → k = sampleIndex (bndRate p cfg) ofs (s.time.count - age) →
      (s.bndPort p).cfg = cfg → slipOf cfg (s.bndPort p).k k = true → (s.bndPort p).slipRun = false → Completes (.audioFrame p age pins) s (fun t =>
        t.rd (Adr.BND.SLIPS p) = satInc 32 (s.rd (Adr.BND.SLIPS p)) ∧
        { page := 0x40, cause := 0x401 + p.val, code := 0x20, event := true, unit := 0x401 + p.val } ∈ t.held)) ∧
    (∀ cfg, (bndFs p cfg).length = bndSlots p cfg * bndSlotW p cfg ∧ (bndMode p cfg = 1 → bitOf cfg 5 = false → bndFs p cfg = true :: List.replicate (bndSlots p cfg * bndSlotW p cfg - 1) false)) ∧
    ((s.bndPort p).running = false → s.bndPins p = (.highZ, false)) ∧
    ((s.bndPort p).running = true → bndInternal (s.bndPort p).cfg = false → bndMaster (s.bndPort p).cfg = false → (s.bndPins p).1 = .inputs) ∧
    ((s.bndPort p).running = true → bndInternal (s.bndPort p).cfg = false → bndMaster (s.bndPort p).cfg = true → Fld.BND.MCLK_CFG_MCLK_EN s.regs p = 1 →
      Fld.BND.MCLK_CFG_X512 s.regs p = 1 → bndRate p (s.bndPort p).cfg = 192000 → (s.bndPins p).1 =
        .driven (bndRate p (s.bndPort p).cfg * bndSlots p (s.bndPort p).cfg * bndSlotW p (s.bndPort p).cfg) (some (192000 * 256)) (bitOf (s.bndPort p).cfg 6)) ∧
    ((s.bndPort p).running = true → bndMaster (s.rd (Adr.BND.PORT_CFG p)) = false → bndInternal (s.rd (Adr.BND.PORT_CFG p)) = false →
      Does (.bclkLoss p) s (s.condOn (0x401 + p) (0x401 + p) 0x06)) ∧
    ((s.bndPort p).running = false ∨ bndMaster (s.rd (Adr.BND.PORT_CFG p)) = true → Does (.bclkLoss p) s s) ∧
    (∀ i : Fin 16, bitOf (s.rd (Adr.BND.NONPCM p)) i = true → s.bndHold p ≤ SMap.get (fun _ => 0) (s.bndPort p).nonpcm i →
      Completes (.nonpcmHoldExpiry p i) s (fun t => bitOf (t.rd (Adr.BND.NONPCM p)) i = false ∧ SameRegsBut [Adr.BND.NONPCM p] s t)) ∧
    (∀ i : Fin 16, bitOf (s.rd (Adr.BND.NONPCM p)) i = false → Does (.nonpcmHoldExpiry p i) s s)

/-- While no clock domain is stopped: with nothing waiting to enter, SCHEDULER_ISSUE forces a refresh at a debt of 8, repays, serves an impatient write or
one that must leave before it, and serves the only read; it never changes a byte. REFRESH_INTERVAL adds one to the debt. TRAIN closes DRAM and clears
results; TRAIN_DONE with good lanes shows DONE, CAPACITY and admissible bandwidth and opens the channels; a lane with less than 12 taps fails with
LINK_DOWN of its channel. RECENTRE moves lanes by one tap beyond 2 taps of drift, and reports LANE_DRIFT beyond 16. Model's choices and readings:
entry 30, entry 32, entry 33, entry 115 of the log. (R285, R287, R288, R289, R290, R294, R295, R296) -/
def Obligations.MemoryChannels : Prop :=
  ∀ (s : State) (g k : Fin 4) (ch : Nat) (c : McChan), s.stopped = [] → ch = 4 * g.val + k.val → c = s.chan ch →
    (s.mem.waiting = [] → s.trl.beOps = [] → c.corrected = [] → c.ready = false ∨ s.mem.selfRefresh = true → Does (.schedulerIssue g k) s s) ∧
    (s.mem.waiting = [] → s.trl.beOps = [] → c.corrected = [] →
      c.ready = true → s.mem.selfRefresh = false → 8 ≤ c.debt → Completes (.schedulerIssue g k) s (fun t =>
      (t.chan ch).debt = 7 ∧ (t.chan ch).repay = true ∧ (t.chan ch).openRows = [] ∧ (t.chan ch).readQ = c.readQ ∧ (t.chan ch).writeQ = c.writeQ ∧
      t.rd (Adr.MC.FORCED_REF g k) = satInc 32 (s.rd (Adr.MC.FORCED_REF g k)) ∧ t.rd (Adr.MC.REF_DEBT g k) = 7 ∧
      SameRegsBut [Adr.MC.FORCED_REF g k, Adr.MC.REF_DEBT g k] s t ∧ t.dram = s.dram)) ∧
    (s.mem.waiting = [] → s.trl.beOps = [] → c.corrected = [] →
      c.ready = true → s.mem.selfRefresh = false → c.debt < 8 → c.repay = true → 90 ≤ shortFwd c.lastPb s.now →
      Completes (.schedulerIssue g k) s (fun t => (t.chan ch).lastPb = s.now ∧ (t.chan ch).pair = (c.pair + 1) % 8 ∧
        (t.chan ch).debt = (if c.paid = 7 then c.debt - 1 else c.debt) ∧ (t.chan ch).readQ = c.readQ ∧ (t.chan ch).writeQ = c.writeQ ∧ t.dram = s.dram)) ∧
    (∀ e, s.mem.waiting = [] → s.trl.beOps = [] → c.corrected = [] →
      c.ready = true → s.mem.selfRefresh = false → c.debt < 8 → c.repay = false →
      c.writeQ.find? (fun e => decide (s.wrPatience g < shortFwd e.entered s.now)) = some e → Completes (.schedulerIssue g k) s (fun t =>
        (t.chan ch).writeQ = c.writeQ.erase (inIssueOrder c.writeQ e) ∧ (t.chan ch).readQ = c.readQ ∧
        (c.debt = 0 → s.bankRow (inIssueOrder c.writeQ e).addr ∈ (t.chan ch).openRows) ∧
        t.rd (Adr.MC.WR_URGENT g k) = satInc 32 (s.rd (Adr.MC.WR_URGENT g k)) ∧
        SameRegsBut [Adr.MC.WR_URGENT g k, Adr.MC.REF_DEBT g k] s t ∧ t.dram = s.dram)) ∧
    (∀ e, s.mem.waiting = [] → s.trl.beOps = [] → c.corrected = [] →
      c.ready = true → s.mem.selfRefresh = false → c.debt = 0 → c.repay = false → c.readQ = [e] → c.writeQ = [] →
      Completes (.schedulerIssue g k) s (fun t => (t.chan ch).readQ = [] ∧ (t.chan ch).writeQ = [] ∧ s.bankRow e.addr ∈ (t.chan ch).openRows ∧
        (t.chan ch).debt = 0 ∧ SameRegsBut [Adr.MC.REF_DEBT g k] s t ∧ t.dram = s.dram)) ∧
    (∀ (q : List McEntry) e, e ∈ q → 1 ≤ e.beats → inIssueOrder q e ∈ q ∧ (inIssueOrder q e).meets e = true ∧
      ∀ f, q.head? = some f → f.meets e = true → inIssueOrder q e = f) ∧
    (c.ready = true → s.mem.selfRefresh = false → Completes (.refreshInterval g k) s (fun t => (t.chan ch).debt = c.debt + 1 ∧
      t.rd (Adr.MC.REF_DEBT g k) = min 15 (c.debt + 1) ∧ (∀ j, j ≠ ch → t.chan j = s.chan j) ∧ SameRegsBut [Adr.MC.REF_DEBT g k] s t ∧ t.dram = s.dram)) ∧
    (c.ready = false ∨ s.mem.selfRefresh = true → Does (.refreshInterval g k) s s) ∧
    (Fld.MCT.TRAIN_STAT_STATE s.regs = 1 ∨ s.mcAdmitted = true → Does .trainCmd s s) ∧
    (Fld.MCT.TRAIN_STAT_STATE s.regs ≠ 1 → s.mcAdmitted = false → Completes .trainCmd s (fun t => t.rd Adr.MCT.TRAIN_STAT = 1 ∧ t.rd Adr.MCT.LANE_FAIL = 0 ∧
      t.rd Adr.MCT.RECENTRE_COUNT = 0 ∧ t.rd (Adr.MC.ADM_CAP g) = 0 ∧ (t.chan ch).ready = false ∧ t.mem.cfg = s.rd Adr.MCT.DRAM_CFG ∧
      t.mem.selfRefresh = false ∧ t.dram = s.dram)) ∧
    (∀ l, l.length = 32 → Fld.MCT.TRAIN_STAT_STATE s.regs ≠ 1 → Does (.trainDone l) s s) ∧
    (∀ l, l.length = 32 → Fld.MCT.TRAIN_STAT_STATE s.regs = 1 → (∀ x, x ∈ l → 12 ≤ x.eyeTaps) → s.dramType = 1 ∨ s.dramRate < 4 →
      Completes (.trainDone l) s (fun t => t.rd Adr.MCT.TRAIN_STAT = 2 ∧
        t.rd Adr.MCT.CAPACITY = usableMiB s.dramDensity (bits s.mem.cfg 6 1) s.inlineEcc ∧ t.rd (Adr.MC.ADM_CAP g) = admCap s.dramRate s.inlineEcc ∧
        (t.chan ch).ready = true ∧ (t.chan ch).debt = 0 ∧
        { page := channelUnit ch / 16, cause := channelUnit ch, code := 0x06, event := false, unit := channelUnit ch } ∉ t.held ∧ t.dram = s.dram)) ∧
    (∀ l i x, l.length = 32 → Fld.MCT.TRAIN_STAT_STATE s.regs = 1 → s.dramType = 1 → l[i]? = some x → x.eyeTaps < 12 → Completes (.trainDone l) s (fun t =>
      t.rd Adr.MCT.TRAIN_STAT = 3 ∧ bitOf (t.rd Adr.MCT.LANE_FAIL) i = true ∧
      { page := 0x48, cause := 0x481, code := 0x20, event := true, unit := 0x481 } ∈ t.held ∧
      { page := channelUnit (i / 2) / 16, cause := channelUnit (i / 2), code := 0x06, event := false, unit := channelUnit (i / 2) } ∈ t.held ∧ t.dram = s.dram)) ∧
    (∀ l, l.length = 32 → Fld.MCT.RECENTRE_MS s.regs = 0 ∨ Fld.MCT.TRAIN_STAT_STATE s.regs ≠ 2 → Does (.recentre l) s s) ∧
    (∀ l i d, l.length = 32 → Fld.MCT.RECENTRE_MS s.regs ≠ 0 → Fld.MCT.TRAIN_STAT_STATE s.regs = 2 → l[i]? = some d → Completes (.recentre l) s (fun t =>
      (d.natAbs ≤ 2 → t.lane i = s.lane i) ∧
      (2 < d → (t.lane i).wr = min 127 ((s.lane i).wr + 1) ∧ (t.lane i).rd = min 127 ((s.lane i).rd + 1) ∧ (t.lane i).moved = (s.lane i).moved + 1) ∧
      (d < -2 → (t.lane i).moved = (s.lane i).moved - 1) ∧
      (2 < d.natAbs → (s.lane i).drift = false → 16 < (t.lane i).moved.natAbs → (t.lane i).drift = true ∧
        { page := channelUnit (i / 2) / 16, cause := channelUnit (i / 2), code := 0x21, event := true, unit := channelUnit (i / 2) } ∈ t.held) ∧
      SameRegsBut [Adr.MCT.RECENTRE_COUNT] s t ∧ t.dram = s.dram))

/-- While no clock domain is stopped: a job starts from its descriptor when the ring holds one, checked for form and access first, and keeps the
descriptor's place; its end writes OUT_LEN, RESULT and CRC into that descriptor, moves DONE_IDX and counts. LEVEL 0 without a wrapper writes one
stored block with the source's bytes and CRC; a coded segment is never longer than the stored one and has the form that R299 gives; decompression
writes exactly the inflated bytes. A failed source access ends the job with UPSTREAM, result 0x09 and its offset. No other byte of DRAM changes at the
end of a job that failed its checks. Model's choices and readings: entry 119, entry 116, entry 117, entry 118 of the log. (R297, R298, R299, R300,
R301, R302, R303) -/
def Obligations.ArbourJobs : Prop :=
  ∀ s : State, s.stopped = [] →
    (∀ v : Word, Does (.subIdxWrite v) s (s.setReg Adr.ARB.SUB_IDX (v.toNat % 2 ^ 12)) ∧ Does (.seenIdxWrite v) s (s.setReg Adr.ARB.SEEN_IDX (v.toNat % 2 ^ 12))) ∧
    (s.arbActive = false ∨ s.holding 0x4C = true ∨ s.arb.isSome = true ∨ Fld.ARB.DONE_IDX s.regs = Fld.ARB.SUB_IDX s.regs → Does .arbourJobStart s s) ∧
    (∀ slot d, s.arbActive = true → s.holding 0x4C = false → s.arb = none → Fld.ARB.DONE_IDX s.regs = slot → slot ≠ Fld.ARB.SUB_IDX s.regs →
      s.spanError (s.arbDesc slot) 36 = none → s.dramRead (s.arbDesc slot) 36 = d →
      (descBad d (s.rd Adr.MCT.CAPACITY * 2 ^ 20) = true → Completes .arbourJobStart s (fun t => t.regs = s.regs ∧ t.dram = s.dram ∧
        ∃ j, t.arb = some j ∧ j.slot = slot ∧ j.addr = s.arbDesc slot ∧ j.next = (slot + 1) % s.arbSlots ∧ j.desc = d ∧ j.early = some 0x0B)) ∧
      (descBad d (s.rd Adr.MCT.CAPACITY * 2 ^ 20) = false → s.arbDenied d = none → Completes .arbourJobStart s (fun t => t.regs = s.regs ∧ t.dram = s.dram ∧
        ∃ j, t.arb = some j ∧ j.slot = slot ∧ j.addr = s.arbDesc slot ∧ j.next = (slot + 1) % s.arbSlots ∧ j.desc = d ∧ j.early = none)) ∧
      (descBad d (s.rd Adr.MCT.CAPACITY * 2 ^ 20) = false → (s.arbDenied d).isSome = true → Completes .arbourJobStart s (fun t => t.dram = s.dram ∧
        ∃ j, t.arb = some j ∧ j.slot = slot ∧ j.addr = s.arbDesc slot ∧ j.next = (slot + 1) % s.arbSlots ∧ j.desc = d ∧ j.early = some 0x0A))) ∧
    (∀ b : BadBeats, beatsOk b = true → s.arb = none → Does (.arbourJobDone b) s s) ∧
    (∀ (b : BadBeats) j r, beatsOk b = true → s.arb = some j → j.early = some r → r < 2 ^ 31 → s.firstBad b (j.addr + 0x24) 28 = none →
      Completes (.arbourJobDone b) s (fun t => t.arb = none ∧ t.rd Adr.ARB.DONE_IDX = j.next % 2 ^ 32 ∧
        t.rd Adr.ARB.JOBS = satInc 32 (s.rd Adr.ARB.JOBS) ∧ (r ≠ 0 → t.rd Adr.ARB.FAILED = satInc 32 (s.rd Adr.ARB.FAILED)) ∧
        leNat (t.dramRead (j.addr + 0x28) 4) = r + 2 ^ 31 ∧ leNat (t.dramRead (j.addr + 0x24) 4) = 0 ∧
        SameBytesBut (j.addr + 0x24) 28 s t ∧ SameRegsBut [Adr.ARB.DONE_IDX, Adr.ARB.JOBS, Adr.ARB.FAILED] s t)) ∧
    (∀ b j d n src, s.arb = some j → j.early = none → j.desc = d → arbOp d = 0 → arbWrap d = 0 → arbLevel d = 0 → arbIdx d = 0 → arbSrcLen d = n → 0 < n →
      n ≤ arbSegment d → n ≤ 65535 → n + 5 ≤ arbDstLen d → s.firstBad b (arbSrc d) n = none → s.firstBad b (arbDst d) (n + 5) = none → s.dramRead (arbSrc d) n = src →
      beatsOk b = true → s.firstBad b (j.addr + 0x24) 28 = none →
      arbDst d + (n + 5) ≤ j.addr + 0x24 ∨ j.addr + 0x40 ≤ arbDst d → Completes (.arbourJobDone b) s (fun t =>
        t.dramRead (arbDst d) (n + 5) = BitVec.ofNat 8 1 :: (leBytes 2 n ++ leBytes 2 (65535 - n) ++ src) ∧
        leNat (t.dramRead (j.addr + 0x24) 4) = n + 5 ∧ leNat (t.dramRead (j.addr + 0x28) 4) = 2 ^ 31 ∧
        leNat (t.dramRead (j.addr + 0x2C) 4) = crc32 src ∧ t.arb = none ∧
        t.rd Adr.ARB.JOBS = satInc 32 (s.rd Adr.ARB.JOBS) ∧ SameRegsBut [Adr.ARB.DONE_IDX, Adr.ARB.JOBS] s t)) ∧
    (∀ b j d out used, s.arb = some j → j.early = none → j.desc = d → arbOp d = 1 → s.firstBad b (arbSrc d) (arbSrcLen d) = none →
      s.firstBad b (arbDst d) (arbDstLen d) = none →
      inflateJob (arbWrap d) (arbDstLen d) (s.dramRead (arbSrc d) (arbSrcLen d)) = .ok (out, used) → out.length < 2 ^ 32 →
      beatsOk b = true → s.firstBad b (j.addr + 0x24) 28 = none →
      arbDst d + out.length ≤ j.addr + 0x24 ∨ j.addr + 0x40 ≤ arbDst d → Completes (.arbourJobDone b) s (fun t =>
        t.dramRead (arbDst d) out.length = out ∧ leNat (t.dramRead (j.addr + 0x24) 4) = out.length ∧
        leNat (t.dramRead (j.addr + 0x28) 4) = 2 ^ 31 ∧ t.arb = none ∧ SameRegsBut [Adr.ARB.DONE_IDX, Adr.ARB.JOBS] s t)) ∧
    (∀ b j d u, beatsOk b = true → s.arb = some j → j.early = none → j.desc = d → arbOp d = 1 → arbWrap d = 0 → 0 < arbDstLen d →
      s.firstBad b (arbDst d) (arbDstLen d) = none → s.firstBad b (arbSrc d) (arbSrcLen d) = some (0, u) →
      s.firstBad b (j.addr + 0x24) 28 = none → arbDst d + arbDstLen d ≤ j.addr + 0x24 ∨ j.addr + 0x40 ≤ arbDst d → Completes (.arbourJobDone b) s (fun t => t.arb = none ∧
      t.rd Adr.ARB.FAILED = satInc 32 (s.rd Adr.ARB.FAILED) ∧ { page := 0x4C, cause := u, code := 0x01, event := true, unit := 0x4C0 } ∈ t.held ∧
      leNat (t.dramRead (j.addr + 0x28) 4) = 0x09 + 2 ^ 31 ∧ leNat (t.dramRead (j.addr + 0x30) 4) = 0)) ∧
    (∀ level last bs, (storedOrDeflated level last bs).length ≤ (storedSegment last bs).length ∧
      (storedOrDeflated level last bs = storedSegment last bs ∨ codedGood level last bs (storedOrDeflated level last bs) = true))

/-- While no clock domain is stopped: a timer slot starts no trigger before its next period, and a PWM slot none before 10 ns × DELAY after its channel's
match; a due trigger starts its slot on a free slice or counts OVERRUN while it waits; a conversion's end stores the calibrated result and its limit
check, or the fixed slot's product, of which a round begins no more pairs than its number; calibration stores gain and offset within limits and counts
a rejection outside; a slice that retires becomes the spare, which is not lent meanwhile, and no slice retires under LP_EN. A PWM period's end loads
duty, period and event or stops and releases the pin; the pin is high while the count is below DUTY, but for POL. AON_ROUND steps the fused model
while the core is off, and TEMP with it. RESYNC is remembered. Model's choices and readings: entry 120, entry 103, entry 138, entry 182 of the log.
(R304, R306, R307, R309, R310, R311, R312, R317, R318, R341) -/
def Obligations.DovecoteAndPwm : Prop :=
  ∀ (s : State) (n : Nat), s.stopped = [] → 8 ≤ n → n < 32 →
    (s.slotTrig n ≠ 0 ∨ s.slotEn n = false → Does (.slotTimer n) s s) ∧
    (s.slotTrig n ≠ 1 ∨ s.slotEn n = false → Does (.pwmEvent n) s s) ∧
    (s.elapsed < s.timerNext n → Does (.slotTimer n) s s) ∧
    (∀ m, s.pwmMatch n = some m → s.elapsed < m + 10 * Fld.DOV.DELAY s.regs (n - 8) → Does (.pwmEvent n) s s) ∧
    (s.pwmMatch n = none → Does (.pwmEvent n) s s) ∧
    (s.slotTrig n = 0 → s.slotEn n = true → s.timerNext n ≤ s.elapsed → s.lpEn = false → (s.dov.waiting.any (fun r => r.slot == n)) = true → Completes (.slotTimer n) s (fun t =>
      t.rd Adr.DOV.OVERRUN = satInc 32 (s.rd Adr.DOV.OVERRUN) ∧ t.dov.waiting = s.dov.waiting ∧ t.dov.busy = s.dov.busy ∧
      (s.dov.merging.contains n = false → { page := 0x05, cause := 0x051, code := 0x21, event := true, unit := 0x051 } ∈ t.held) ∧
      SameRegsBut [Adr.DOV.OVERRUN] s t)) ∧
    (∀ k rest, s.slotTrig n = 0 → s.slotEn n = true → s.timerNext n ≤ s.elapsed → s.holding 0x05 = false → s.lpEn = false → s.dov.waiting = [] → s.dov.fixedDue = [] →
      s.activeSlices = k :: rest → s.sliceBusy k = none → Completes (.slotTimer n) s (fun t => t.sliceBusy k = some (s.startSlot n k) ∧ t.dov.waiting = [] ∧
        (t.slotClock n).done = s.timerNext n ∧ t.regs = s.regs)) ∧
    (s.timerNext n = (s.slotClock n).start + (((s.slotClock n).done - (s.slotClock n).start) / s.slotPeriod n + 1) * s.slotPeriod n ∧
      (1 ≤ Fld.DOV.PERIOD_US s.regs (n - 8) → Fld.DOV.PERIOD_US s.regs (n - 8) ≤ 1048575 → s.slotPeriod n = 1000 * Fld.DOV.PERIOD_US s.regs (n - 8))) ∧
    (∀ k rest m, s.slotTrig n = 1 → s.slotEn n = true → s.pwmMatch n = some m → m + 10 * Fld.DOV.DELAY s.regs (n - 8) ≤ s.elapsed → s.holding 0x05 = false →
      s.lpEn = false → s.dov.waiting = [] → s.dov.fixedDue = [] → s.activeSlices = k :: rest → s.sliceBusy k = none → Completes (.pwmEvent n) s (fun t =>
        t.sliceBusy k = some (s.startSlot n k) ∧ t.dov.waiting = [] ∧ t.regs = s.regs)) ∧
    (∀ c : PwmChan, c.running = true → c.past = [] → c.evt < c.period → c.start ≤ s.elapsed → c.start + 10 * c.evt ≤ s.elapsed →
      c.matchFrom c.start s.elapsed = some (c.start + 10 * c.evt) ∧ c.count (c.start + 10 * c.evt) = c.evt) ∧
    (∀ k rest, s.slotTrig n = 2 → s.slotEn n = true → s.holding 0x05 = false → s.lpEn = false → s.dov.waiting = [] → s.dov.fixedDue = [] → s.activeSlices = k :: rest →
      s.sliceBusy k = none → Completes (.swTrig (BitVec.ofNat 32 (2 ^ n))) s (fun t =>
        t.sliceBusy k = some (s.startSlot n k) ∧ t.dov.waiting = [] ∧ t.regs = s.regs)) ∧
    Does (.swTrig 0) s s ∧
    (∀ (f : Fin 8) k rest, s.pairsBegun f < s.pairsPerRound → s.holding 0x05 = false → s.dov.fixedDue = [] → s.dov.waiting = [] →
      s.activeSlices = k :: rest → s.sliceBusy k = none → Completes (.fixedSlotDue f) s (fun t => t.sliceBusy k = some (.fixedVolt f) ∧ t.dov.fixedDue = [] ∧
        t.regs = s.regs)) ∧
    (∀ f : Fin 8, s.pairsPerRound ≤ s.pairsBegun f → Does (.fixedSlotDue f) s s) ∧
    (∀ (k : Fin 4) code mw, s.sliceBusy k = none → Does (.conversionDone k code mw) s s) ∧
    (∀ (k : Fin 4) code mw f, s.sliceBusy k = some (.fixedVolt f) → Does (.conversionDone k code mw) s (s.occupy k (.fixedCurr f))) ∧
    (∀ (k : Fin 4) code (mw : BitVec 20) f sum cnt, s.sliceBusy k = some (.fixedCurr f) → s.dov.waiting = [] → s.dov.fixedDue = [] → s.dov.retiring = none →
      SMap.get (fun _ => (0, 0)) s.dov.sums f = (sum, cnt) → Completes (.conversionDone k code mw) s (fun t =>
        SMap.get (fun _ => (0, 0)) t.dov.sums f = (sum + mw.toNat, cnt + 1) ∧ t.sliceBusy k = none ∧ t.regs = s.regs)) ∧
    (∀ (k : Fin 4) (code : BitVec 12) mw st old co cg so sg r, s.sliceBusy k = some (.slot n st old co cg so sg) → s.dov.waiting = [] → s.dov.fixedDue = [] →
      s.dov.retiring = none → r = dovResult code.toNat so sg co cg → Completes (.conversionDone k code mw) s (fun t =>
        Fld.DOV.RESULT_VALUE t.regs (n - 8) = r ∧ Fld.DOV.RESULT_VALID t.regs (n - 8) = 1 ∧
        (Fld.DOV.RESULT_OUT_OF_LIMIT t.regs (n - 8) = 1 ↔ r < Fld.DOV.LIMIT_LO s.regs (n - 8) ∨ Fld.DOV.LIMIT_HI s.regs (n - 8) < r) ∧
        bitOf (t.rd Adr.DOV.LIMIT_STAT) n = (Fld.DOV.RESULT_OUT_OF_LIMIT t.regs (n - 8) == 1) ∧ t.sliceBusy k = none ∧
        SMap.get (fun _ => 0) t.dov.sampled n = st ∧ SameRegsBut [Adr.DOV.RESULT (n - 8), Adr.DOV.LIMIT_STAT] s t)) ∧
    (s.dov.retiring.isSome = true → s.lendSpare = s) ∧
    (∀ k, s.dov.retiring = some k → k < 4 → s.lpEn = false → (∀ j, j < 4 → (j ∈ s.activeSlices ↔ j ≠ k))) ∧
    (s.lpEn = true → s.endRetire = s) ∧
    (∀ k, s.dov.retiring = some k → k < 4 → s.lpEn = false → s.sliceBusy k = none → Fld.DOV.CAL_STAT_SPARE s.endRetire.regs = k ∧ s.endRetire.dov.retiring = none ∧
      s.endRetire.dov.calReady = false) ∧
    (∀ mL mH, s.lpEn = true ∨ s.dov.borrowed = true → Does (.calDone mL mH) s s) ∧
    (∀ mL mH gain ofs, s.lpEn = false → s.dov.borrowed = false → mH ≠ mL → gain = roundDiv (49152 * 2 ^ 15) (mH - mL) →
      ofs = mL - roundDiv (8192 * (mH - mL)) 49152 → Completes (.calDone mL mH) s (fun t => t.dov.calReady = true ∧ Fld.DOV.CAL_STAT_CAL_WAIT t.regs = 0 ∧
        (ofs.natAbs ≤ 512 → 29491 ≤ gain → gain ≤ 36044 → Fld.DOV.REF_STAT_DRIFT s.regs = 0 →
          (Fld.DOV.SLICE_CAL_GAIN t.regs (Fld.DOV.CAL_STAT_SPARE s.regs) : Int) = gain ∧
          signed (Fld.DOV.SLICE_CAL_OFS t.regs (Fld.DOV.CAL_STAT_SPARE s.regs)) 16 = ofs ∧ t.rd Adr.DOV.CAL_REJECT = s.rd Adr.DOV.CAL_REJECT) ∧
        (512 < ofs.natAbs ∨ gain < 29491 ∨ 36044 < gain ∨ Fld.DOV.REF_STAT_DRIFT s.regs = 1 →
          t.rd Adr.DOV.CAL_REJECT = satInc 32 (s.rd Adr.DOV.CAL_REJECT) ∧ SameRegsBut [Adr.DOV.CAL_STAT, Adr.DOV.CAL_REJECT] s t))) ∧
    (s.lpEn = true ∨ s.holding 0x05 = true ∨ s.dov.calReady = false ∨ s.dov.borrowed = true ∨ s.dov.roundsSince < s.calRounds → Does .sliceRotation s s) ∧
    (∀ old, old < 4 → s.lpEn = false → s.holding 0x05 = false → s.dov.calReady = true → s.dov.borrowed = false → s.dov.retiring = none → s.calRounds ≤ s.dov.roundsSince →
      s.dov.calOrder.find? (fun k => k != Fld.DOV.CAL_STAT_SPARE s.regs) = some old → s.sliceBusy old = none → s.dov.waiting = [] → s.dov.fixedDue = [] →
      Completes .sliceRotation s (fun t => Fld.DOV.CAL_STAT_SPARE t.regs = old ∧ t.dov.calReady = false ∧ t.dov.roundsSince = 0 ∧
        SameRegsBut [Adr.DOV.CAL_STAT] s t)) ∧
    (∀ p : Fin 8, (s.pwmOf p).running = false → Does (.pwmPeriodEnd p) s s) ∧
    (∀ p : Fin 8, (s.pwmOf p).boundary s.elapsed = (s.pwmOf p).start → Does (.pwmPeriodEnd p) s s) ∧
    (∀ p : Fin 8, (s.pwmOf p).running = true → (s.pwmOf p).boundary s.elapsed ≠ (s.pwmOf p).start → Fld.DOV.PWM_CFG_EN s.regs p = 1 → 2 ≤ Fld.DOV.PERIOD s.regs p →
      s.pwmLoad p (s.pwmOf p).start (s.pwmOf p).past ≠ s.pwmOf p → Completes (.pwmPeriodEnd p) s (fun t => t.regs = s.regs ∧
      (t.pwmOf p).running = true ∧ (t.pwmOf p).period = Fld.DOV.PERIOD s.regs p ∧ (t.pwmOf p).duty = Fld.DOV.DUTY s.regs p ∧
      (t.pwmOf p).evt = Fld.DOV.EVT_CNT s.regs p ∧ (t.pwmOf p).start = (s.pwmOf p).boundary s.elapsed)) ∧
    (∀ p : Fin 8, (s.pwmOf p).running = true → (s.pwmOf p).boundary s.elapsed ≠ (s.pwmOf p).start → Fld.DOV.PWM_CFG_EN s.regs p = 0 → Completes (.pwmPeriodEnd p) s (fun t =>
      (t.pwmOf p).running = false ∧ t.pwmPin p = none ∧ .pwmHighZ p ∈ t.outbox ∧ t.regs = s.regs)) ∧
    (∀ p, (s.pwmOf p).hiZ = false → 0 < (s.pwmOf p).period → (s.pwmPin p = some ((s.pwmOf p).pol ^^ decide ((s.pwmOf p).count s.elapsed < (s.pwmOf p).duty)) ∧
      (s.pwmOf p).count s.elapsed < (s.pwmOf p).period)) ∧
    (s.pwr.enCore = true → Does .aonRound s s) ∧
    (s.pwr.enCore = false → Completes .aonRound s (fun t => t.fusedTemps = (iceStep fusedParams [0, 0, 0, 0] s.fusedTemps).map (fun x => signed (unsigned x 32) 32) ∧
      (∀ n, n < 5 → t.rd (Adr.ICE.TEMP n) = t.rd (Adr.ICE.FUSED_TEMP n)) ∧
      t.pwr.aonRounds = s.pwr.aonRounds + 1 ∧ SameRegsBut ((List.range 5).map Adr.ICE.FUSED_TEMP ++ (List.range 5).map Adr.ICE.TEMP) s t)) ∧
    Does .resync s { s with iceResync := true }

/-- LINK_TRAINED brings a running port up and ends LINK_DOWN; a bad flit counts a replay; FLK_LINK_DOWN reports LINK_DOWN, and NEIGHBOUR_LOST where the
link was up, and forgets the neighbour. TIME_MESSAGE on an UP link remembers its stamps and replies; on the upstream port, once a heartbeat was
accepted there, the exchange gives reference 7 its offset and path delay; TIME_REPLY keeps its stamp; neither does anything without the link.
(Messages and flits while no clock domain is stopped.) Model's choices and readings: entry 121, entry 154 of the log. (R319, R321, R324) -/
def Obligations.FalilanPorts : Prop :=
  ∀ (s : State) (p : Fin 4), s.stopped = [] →
    ((s.flkPort p).running = false ∨ s.linkUp p = true → Does (.linkTrained p) s s) ∧
    ((s.flkPort p).running = true → s.linkUp p = false → Completes (.linkTrained p) s (fun t => t.linkUp p = true ∧ (t.flkPort p).hbLast = none ∧
      { page := (flkUnit p + 1) / 16, cause := flkUnit p + 1, code := 0x06, event := false, unit := flkUnit p + 1 } ∉ t.held ∧
      SameRegsBut [Adr.FLK.LINK_STAT p] s t ∧ t.dram = s.dram)) ∧
    Does (.flitReceive p true) s s ∧
    (s.linkUp p = false → Does (.flitReceive p false) s s) ∧
    (s.linkUp p = true → Does (.flitReceive p false) s (s.bump (Adr.FLK.REPLAYS p))) ∧
    ((s.flkPort p).running = false → s.hie ≠ 5 → Does (.flkLinkDown p) s s) ∧
    ((s.flkPort p).running = true → s.linkUp p = false → s.hie ≠ 5 → Completes (.flkLinkDown p) s (fun t => Fld.FLK.LINK_STAT_STATE t.regs p = 0 ∧
      { page := (flkUnit p + 1) / 16, cause := flkUnit p + 1, code := 0x06, event := false, unit := flkUnit p + 1 } ∈ t.held ∧
      SameRegsBut [Adr.FLK.LINK_STAT p] s t ∧ t.dram = s.dram)) ∧
    ((s.flkPort p).running = true → s.linkUp p = true → s.hie ≠ 5 → s.upPort ≠ some p.val → s.orgQueue 0 = [] → Completes (.flkLinkDown p) s (fun t =>
      Fld.FLK.LINK_STAT_STATE t.regs p = 0 ∧ Fld.FLK.LINK_STAT_NEIGHBOUR_VALID t.regs p = 0 ∧ (t.flkPort p).lost = true ∧ (t.flkPort p).hbLast = none ∧
      { page := (flkUnit p + 1) / 16, cause := flkUnit p + 1, code := 0x06, event := false, unit := flkUnit p + 1 } ∈ t.held ∧
      { page := (flkUnit p + 1) / 16, cause := flkUnit p + 1, code := 0x20, event := false, unit := flkUnit p + 1 } ∈ t.held ∧
      SameRegsBut [Adr.FLK.LINK_STAT p] s t ∧ t.dram = s.dram)) ∧
    (∀ t1 age t4 d, s.linkUp p = false → Does (.timeMessage p t1 age t4 d) s s) ∧
    (∀ t1 age t4 d, s.linkUp p = true → (s.flkPort p).exchange = none ∨ t4 = none ∨ s.upPort ≠ some p.val ∨ (s.flkPort p).hbLast = none → Completes (.timeMessage p t1 age t4 d) s (fun t =>
      (t.flkPort p).exchange = some (t1, s.fineBefore age, s.fineAfter d) ∧ .timeReply p.val ∈ t.outbox ∧ t.regs = s.regs ∧ t.sun = s.sun)) ∧
    (∀ t1 age d (a1 a2 a3 a4 : Nat) (delay e : Int), s.linkUp p = true → s.upPort = some p.val → (s.flkPort p).hbLast.isSome = true → s.refState 7 ≠ 0 → (s.flkPort p).exchange = some (a1, a2, a3) →
      delay = Int.fdiv (((a2 : Int) - a1) + ((a4 : Int) - a3)) 2 → e = (a1 : Int) + delay + signed (Fld.FLK.ASYM s.regs p) 32 - a2 →
      -(2 ^ 47 : Int) ≤ e + s.refOffset 7 → e + s.refOffset 7 < 2 ^ 47 → Completes (.timeMessage p t1 age (some a4) d) s (fun t =>
        (t.ref 7).e = some (e + s.refOffset 7) ∧ (t.ref 7).pathDelay = (Int.fdiv delay 65536).toNat ∧ (t.flkPort p).exchange = some (t1, s.fineBefore age, s.fineAfter d) ∧
        SameRegsBut [Adr.SUN1.REF_STAT 6] s t)) ∧
    (∀ age, s.linkUp p = false → Does (.timeReply p age) s s) ∧
    (∀ age, s.linkUp p = true → Completes (.timeReply p age) s (fun t => (t.flkPort p).t4 = some (s.fineBefore age) ∧ t.regs = s.regs ∧ t.sun = s.sun))

/-- While no clock domain is stopped: a channel that sends buffers takes each one as it completes, holds it as a reader, and sends them in order with
their descriptors; a busy link drops one, counts it and lets its buffer go; what is sent last stays held until the next. A receiving channel drops a
frame cut short or without a free buffer; otherwise it writes data and descriptor as far as the Gatehouse grants the neighbour's master, and the frame
becomes the newest of its source, or enters its ring at the ring's unit. Border columns go and come row by row; the Orangery waits for those it needs
while the link is UP and reflects once it is DOWN. Model's choices and readings: entry 122, entry 137, entry 121, entry 149 of the log. (R320, R326,
R327, R328) -/
def Obligations.FalilanChannels : Prop :=
  ∀ (s : State) (p : Fin 4) (c : Fin 8) (k : FlkChan), s.stopped = [] → k = s.flkChan p c →
    (∀ busy, k.running = false ∨ Fld.FLK.CH_CFG_DIR s.regs p c = 1 ∨ s.linkUp p = false ∨ s.holding (flkPage p) = true → Does (.channelSendFrame p c busy) s s) ∧
    (s.chNext p c = none → Does (.channelSendFrame p c true) s s) ∧
    (s.chNext p c = none → k.hold = none → Does (.channelSendFrame p c false) s s) ∧
    (∀ src i, k.running = true → Fld.FLK.CH_CFG_DIR s.regs p c = 0 → s.linkUp p = true → s.holding (flkPage p) = false → s.chNext p c = none → k.hold = some (src, i) →
      Completes (.channelSendFrame p c false) s (fun t => (t.flkChan p c).hold = none ∧ t.bufHolds = (s.letGo src (chanUnitId p c) i).bufHolds ∧ t.regs = s.regs)) ∧
    (∀ n data desc, k.running = true → Fld.FLK.CH_CFG_DIR s.regs p c = 0 → s.linkUp p = true → s.holding (flkPage p) = false →
      s.chNext p c = some (n, data, desc) →
      Completes (.channelSendFrame p c false) s (fun t => t.rd (Adr.FLK.FRAMES p c) = satInc 32 (s.rd (Adr.FLK.FRAMES p c)) ∧
        .channelFrame p.val c.val data desc ∈ t.outbox ∧ (t.flkChan p c).last = some n ∧ SameRegsBut [Adr.FLK.FRAMES p c] s t ∧ t.dram = s.dram) ∧
      Completes (.channelSendFrame p c true) s (fun t => t.rd (Adr.FLK.DROPPED p c) = satInc 32 (s.rd (Adr.FLK.DROPPED p c)) ∧
        (t.flkChan p c).last = some n ∧ SameRegsBut [Adr.FLK.DROPPED p c] s t ∧ t.dram = s.dram)) ∧
    (∀ b, k.running = true → Fld.FLK.CH_CFG_DIR s.regs p c = 0 → s.linkUp p = true → s.holding (flkPage p) = false → s.chKind p c = 0 ∨ s.chKind p c = 3 →
      k.due = [] → s.newestOf (s.chSource p c) = some b → (∀ l, k.last = some l → serial 32 b.seq l = .later) → Completes (.channelSendFrame p c false) s (fun t =>
        .channelFrame p.val c.val (s.bufferBytes b) (b.descriptor false) ∈ t.outbox ∧ (t.flkChan p c).last = some b.seq ∧
        (t.flkChan p c).hold = some (s.chSource p c, b.index) ∧ t.isHeld (s.chSource p c) b.index = true)) ∧
    (∀ b rest, k.running = true → Fld.FLK.CH_CFG_DIR s.regs p c = 0 → s.linkUp p = true → s.holding (flkPage p) = false → s.chKind p c = 0 ∨ s.chKind p c = 3 →
      k.due = b :: rest → Completes (.channelSendFrame p c false) s (fun t => .channelFrame p.val c.val (s.bufferBytes b) (b.descriptor false) ∈ t.outbox ∧
        (t.flkChan p c).due = rest ∧ (t.flkChan p c).hold = some (s.chSource p c, b.index)) ∧
      Completes (.channelSendFrame p c true) s (fun t => (t.flkChan p c).due = rest ∧ (t.flkChan p c).hold = k.hold ∧
        t.bufHolds = (s.letGo (s.chSource p c) (chanUnitId p c) b.index).bufHolds)) ∧
    (∀ src b, s.sendsBuffers p c src = true → k.unsent b.seq = true → ((s.complete src b).flkChan p c).due = k.due ++ [b] ∧
      (s.complete src b).isHeld src b.index = true ∧ (s.complete src b).newestOf src = some b) ∧
    (∀ data desc cut, k.running = false ∨ Fld.FLK.CH_CFG_DIR s.regs p c = 0 ∨ s.holding (flkPage p) = true → Does (.channelFrameReceived p c data desc cut) s s) ∧
    (∀ data desc, k.running = true → Fld.FLK.CH_CFG_DIR s.regs p c = 1 → s.holding (flkPage p) = false → s.chKind p c ≠ 2 →
      Does (.channelFrameReceived p c data desc true) s (s.bump (Adr.FLK.DROPPED p c))) ∧
    (∀ data desc, k.running = true → Fld.FLK.CH_CFG_DIR s.regs p c = 1 → s.holding (flkPage p) = false → s.chKind p c = 0 ∨ s.chKind p c = 3 →
      s.freeBuffer (s.chTarget p c).1 (s.chTarget p c).2.2.2.1 = none →
      Does (.channelFrameReceived p c data desc false) s (s.bump (Adr.FLK.DROPPED p c))) ∧
    (∀ data desc src unit stride nbuf descUnit b, k.running = true → Fld.FLK.CH_CFG_DIR s.regs p c = 1 → s.holding (flkPage p) = false →
      s.chKind p c = 0 ∨ s.chKind p c = 3 → s.chTarget p c = (src, unit, stride, nbuf, descUnit, none) → s.freeBuffer src nbuf = some b →
      Completes (.channelFrameReceived p c data desc false) s (fun t => t.rd (Adr.FLK.FRAMES p c) = satInc 32 (s.rd (Adr.FLK.FRAMES p c)) ∧
        (t.flkChan p c).seq = (k.seq + 1) % 2 ^ 32 ∧ SameRegsBut [Adr.FLK.FRAMES p c, Adr.GTH.REF_COUNT, Adr.GTH.REF_INFO] s t ∧
        ∃ f, t.newestOf src = some f ∧ f.index = b ∧ f.addr = (unit + b * stride) * 4096 ∧ f.pitch = fieldOf desc 0x14 4 ∧ f.width = fieldOf desc 0x10 2 ∧
          f.height = fieldOf desc 0x12 2 ∧ f.count = fieldOf desc 0 4 ∧ f.seq = k.seq ∧
          (f.fmt ≠ 3 → ∀ u err, s.channelRows p f.addr f.pitch ((List.range f.height).map (fun y =>
              (data.drop (y * f.pitch)).take (rowBytes f.fmt (depthBits f.depth) f.width (rowSamples f.fmt f.width)))) = (u, err) →
            t.dram = (u.channelStore p (descUnit * 4096 + 64 * b) (f.descriptor err.isSome)).1.dram))) ∧
    (∀ data desc base units u, k.running = true → Fld.FLK.CH_CFG_DIR s.regs p c = 1 → s.holding (flkPage p) = false → s.chKind p c = 1 →
      base = Fld.FLK.BUF_UNIT s.regs p c → units = Fld.FLK.BUF_STRIDE s.regs p c → 2 ≤ units → u = k.ringUnit → u < units → desc.length = 4096 → data.length = 4096 →
      s.spanError (ringAddr base units u 0) 4096 = none → s.spanError (ringAddr base units (u + 1) 0) 4096 = none →
      s.grantsDram (ringAddr base units u 0 / 4096) (s.channelMaster p) true = true →
      s.grantsDram (ringAddr base units (u + 1) 0 / 4096) (s.channelMaster p) true = true →
      Completes (.channelFrameReceived p c data desc false) s (fun t => t.dramRead (ringAddr base units u 0) 4096 = desc ∧
        t.dramRead (ringAddr base units (u + 1) 0) 4096 = data ∧ (t.flkChan p c).ringUnit = (u + fieldOf desc 0x40 4) % units ∧
        t.rd (Adr.FLK.FRAMES p c) = satInc 32 (s.rd (Adr.FLK.FRAMES p c)) ∧ SameRegsBut [Adr.FLK.FRAMES p c] s t ∧
        ∀ a, (a < ringAddr base units u 0 ∨ ringAddr base units u 0 + 4096 ≤ a) → (a < ringAddr base units (u + 1) 0 ∨ ringAddr base units (u + 1) 0 + 4096 ≤ a) →
          t.dramRead a 1 = s.dramRead a 1)) ∧
    (∀ addr (b : List Byte), b ≠ [] → addr % 4096 + b.length ≤ 4096 →
      (s.grantsDram (addr / 4096) (0x42 + 4 * Fld.FLK.LINK_STAT_NEIGHBOUR_ID s.regs p) true = true →
        s.channelStore p addr b = (s.store addr b, s.spanError addr b.length)) ∧
      (s.grantsDram (addr / 4096) (0x42 + 4 * Fld.FLK.LINK_STAT_NEIGHBOUR_ID s.regs p) true = false →
        s.channelStore p addr b = (s.refuse 0x022 (0x42 + 4 * Fld.FLK.LINK_STAT_NEIGHBOUR_ID s.regs p) (s.refusedWindow (addr / 4096)) true, none))) ∧
    (∀ data desc, k.running = true → Fld.FLK.CH_CFG_DIR s.regs p c = 1 → s.holding (flkPage p) = false → s.chKind p c = 2 → s.orgQueue 0 = [] → s.orgOpen 0 = false →
      (∀ b, b ∈ s.links.borders → b.count = fieldOf desc 0 4 → b.right = (Fld.FLK.CH_CFG_EDGE s.regs p c == 1) → b.ended = true) →
      Completes (.channelFrameReceived p c data desc false) s (fun t =>
        t.rd (Adr.FLK.FRAMES p c) = (if fieldOf desc 4 1 = 0 then s.rd (Adr.FLK.FRAMES p c) else satInc 32 (s.rd (Adr.FLK.FRAMES p c))) ∧
        (∃ b, t.links.borders = s.links.borders ++ [b] ∧ b.count = fieldOf desc 0 4 ∧ b.right = (Fld.FLK.CH_CFG_EDGE s.regs p c == 1) ∧
          b.rows = chunks 2 data.length (wordsOf data) ∧ (b.ended = true ↔ fieldOf desc 4 1 ≠ 0)) ∧ SameRegsBut [Adr.FLK.FRAMES p c] s t ∧ t.dram = s.dram)) ∧
    (∀ data desc b, k.running = true → Fld.FLK.CH_CFG_DIR s.regs p c = 1 → s.holding (flkPage p) = false → s.chKind p c = 2 → s.orgQueue 0 = [] → s.orgOpen 0 = false →
      s.links.borders = [b] → b.count = fieldOf desc 0 4 → b.right = (Fld.FLK.CH_CFG_EDGE s.regs p c == 1) → b.ended = false →
      Completes (.channelFrameReceived p c data desc false) s (fun t => ∃ u, t.links.borders = [u] ∧ u.rows = b.rows ++ chunks 2 data.length (wordsOf data))) ∧
    (∀ n count v, s.borderSenders n count = [(p.val, c.val, false)] → .channelFrame p.val c.val (borderData false [(v.take 2, v.drop (v.length - 2))]) (borderDesc count false) ∈
      (s.keepEdges n count v).outbox) ∧
    (∀ count row height, s.borderChannels = [(p.val, c.val, true)] → s.linkUp p = true → (∀ b, b ∈ s.links.borders → b.right = false) →
      s.bordersReady count row height = false) ∧
    (∀ count row height, s.borderChannels = [(p.val, c.val, true)] → s.linkUp p = false → s.bordersReady count row height = true)

/-- While no clock domain is stopped: at its origin, which a device without an ID can only be, an access that the Gatehouse grants leaves by a port, and
its answer or its failure, under the remote device's unit, is returned; one not granted is refused and recorded; one to the device itself acts at
once. At its target it is refused while isolated (but REJOIN_CMD), checked by the Gatehouse under the remote master, and else reads or writes the
register. In between it is forwarded. A timeout answers an error and reports TIMEOUT. Model's choices and readings: entry 37, entry 36, entry 38 of
the log. (R52, R322, R323, R334) -/
def Obligations.RemoteRegisterAccess : Prop :=
  ∀ (s : State) (a : RemoteAccess), s.stopped = [] → a.wellFormed = true →
    (s.ownId = none ∨ s.ownId = some a.origin → a.target ≠ a.origin → a.k ≠ 1 ∨ s.grants (0x120 + a.target) (Fld.GTH.F0_MID s.regs) a.isWrite = true →
      Does (.remoteTransaction a none) s (s.emit (.remoteForward (s.portTo a.target) a.origin a.target a.k a.isWrite a.page a.off a.value)) ∧
      (∀ w, Does (.remoteTransaction a (some (.value w))) s (s.emit (.remoteAnswer a.origin w none))) ∧
      (∀ unit code, unit < 2 ^ 12 → code < 2 ^ 8 → Completes (.remoteTransaction a (some (.failed unit code))) s (fun t =>
        .remoteAnswer a.origin 0 (some (0xF20 + a.target, code)) ∈ t.outbox ∧ t.regs = s.regs ∧
        t.flkKiosk (s.portTo a.target) 0x20 = some [unit + a.target * 2 ^ 16 + code * 2 ^ 24, remoteMaster a, s.now % 2 ^ 32, s.now / 2 ^ 32]))) ∧
    (∀ reply, s.ownId = none ∨ s.ownId = some a.origin → a.k = 1 → s.grants (0x120 + a.target) (Fld.GTH.F0_MID s.regs) a.isWrite = false →
      Completes (.remoteTransaction a reply) s (fun t => .remoteAnswer a.origin 0 (some (0x024, 0x02)) ∈ t.outbox ∧
        t.rd Adr.GTH.REF_COUNT = satInc 32 (s.rd Adr.GTH.REF_COUNT) ∧
        t.rd Adr.GTH.REF_INFO = Fld.GTH.F0_MID s.regs + (0x120 + a.target) * 2 ^ 16 + b2n a.isWrite * 2 ^ 31 ∧
        { page := 0x02, cause := 0x024, code := 0x02, event := true, unit := 0x024 } ∈ t.held ∧
        SameRegsBut [Adr.GTH.REF_COUNT, Adr.GTH.REF_INFO] s t ∧ t.dram = s.dram)) ∧
    (∀ reply, s.ownId = some a.target → a.origin ≠ a.target → a.isWrite = true → s.isolated = true → ¬ (a.page = 0x54 ∧ a.off = 0x050) →
      Completes (.remoteTransaction a reply) s (fun t => t.rd Adr.HIE.REFUSED = satInc 32 (s.rd Adr.HIE.REFUSED) ∧
        { page := 0x54, cause := 0x541, code := 0x21, event := true, unit := 0x541 } ∈ t.held ∧ .remoteAnswer a.origin 0 (some (0x541, 0x21)) ∈ t.outbox ∧
        SameRegsBut [Adr.HIE.REFUSED] s t ∧ t.dram = s.dram)) ∧
    (∀ reply, s.ownId = some a.target → a.origin ≠ a.target → a.isWrite = false ∨ s.isolated = false → s.grants a.page (remoteMaster a) a.isWrite = false →
      Completes (.remoteTransaction a reply) s (fun t => t.rd Adr.GTH.REF_COUNT = satInc 32 (s.rd Adr.GTH.REF_COUNT) ∧
        { page := 0x02, cause := 0x021, code := 0x02, event := true, unit := 0x021 } ∈ t.held ∧ .remoteAnswer a.origin 0 (some (0x021, 0x02)) ∈ t.outbox ∧
        SameRegsBut [Adr.GTH.REF_COUNT, Adr.GTH.REF_INFO] s t ∧ t.dram = s.dram)) ∧
    (∀ reply, s.ownId = some a.target → a.origin ≠ a.target → s.grants a.page (remoteMaster a) a.isWrite = true →
      (a.isWrite = false → Completes (.remoteTransaction a reply) s (fun t =>
        .remoteAnswer a.origin (BitVec.ofNat 32 (regRead (remoteMaster a) a.page a.off s).1) none ∈ t.outbox ∧
        t.regs = (regRead (remoteMaster a) a.page a.off s).2.regs)) ∧
      (a.isWrite = true → s.isolated = false → Completes (.remoteTransaction a reply) s (fun t => .remoteAnswer a.origin 0 none ∈ t.outbox ∧
        t.regs = (regWrite (remoteMaster a) a.page a.off a.value.toNat s).regs))) ∧
    (∀ d, s.ownId = some d → d ≠ a.origin → d ≠ a.target →
      Does (.remoteTransaction a none) s (s.emit (.remoteForward (s.portTo a.target) a.origin a.target a.k a.isWrite a.page a.off a.value)) ∧
      (∀ unit code, Does (.remoteTransaction a (some (.failed unit code))) s (s.emit (.remoteAnswer a.origin 0 (some (unit, code)))))) ∧
    (∀ reply, s.ownId = some a.origin → a.target = a.origin → a.k = 0 →
      (a.isWrite = false → Completes (.remoteTransaction a reply) s (fun t =>
        .remoteAnswer a.origin (BitVec.ofNat 32 (regRead 0 a.page a.off s).1) none ∈ t.outbox ∧ t.regs = (regRead 0 a.page a.off s).2.regs)) ∧
      (a.isWrite = true → Completes (.remoteTransaction a reply) s (fun t => .remoteAnswer a.origin 0 none ∈ t.outbox ∧
        t.regs = (regWrite 0 a.page a.off a.value.toNat s).regs))) ∧
    (∀ d, s.ownId = some d → d ≠ a.origin → Does (.remoteTimeout a) s s) ∧
    (s.ownId = none ∨ s.ownId = some a.origin → Completes (.remoteTimeout a) s (fun t => .remoteAnswer a.origin 0 (some (0xF20 + a.target, 0x04)) ∈ t.outbox ∧ t.regs = s.regs ∧
      { page := flkUnit (s.portTo a.target) / 16, cause := flkUnit (s.portTo a.target), code := 0x04, event := true, unit := flkUnit (s.portTo a.target) } ∈ t.held))

/-- While no clock domain is stopped: ID_ASSIGN of 0 to 15 takes the ID and sends the next one downstream; one above reports CONFIG. ID_REQUEST is
answered by a device with an ID and forwarded otherwise. A bad message is repeated up to 8 times and then reports TIMEOUT. An image block for a device
further down is forwarded; a request is answered with the device's own image in blocks, or passed on upstream by one without; a block for a waiting
device that is not the cascade's root fills the boot buffer, and the last starts a good image or shows BAD. Model's choices and readings: entry 124,
entry 185 of the log. (R329, R330, R348) -/
def Obligations.CascadeMessages : Prop :=
  ∀ s : State, s.stopped = [] →
    (∀ n, n ≤ 15 → Completes (.idAssign n) s (fun t => Fld.HIE.HIE_STAT_DEV_ID t.regs = n ∧ Fld.HIE.HIE_STAT_ID_VALID t.regs = 1 ∧
      .idAssign (n + 1) ∈ t.outbox ∧ t.links.retries = 0 ∧ t.hie = s.hie ∧ SameRegsBut [Adr.HIE.HIE_STAT] s t)) ∧
    (∀ n, 15 < n → Completes (.idAssign n) s (fun t => { page := 0x54, cause := 0x542, code := 0x07, event := true, unit := 0x542 } ∈ t.held ∧
      t.links.retries = 0 ∧ t.regs = s.regs)) ∧
    (Fld.HIE.HIE_STAT_ID_VALID s.regs = 1 → Does .idRequest s (s.emit (.idAssign (Fld.HIE.HIE_STAT_DEV_ID s.regs + 1)))) ∧
    (Fld.HIE.HIE_STAT_ID_VALID s.regs = 0 → Does .idRequest s (s.emit .idRequest)) ∧
    (s.links.retries < 8 → Completes .cascadeMessageBad s (fun t => t.links.retries = s.links.retries + 1 ∧ .cascadeRepeat ∈ t.outbox ∧ t.regs = s.regs ∧
      t.held = s.held)) ∧
    (8 ≤ s.links.retries → Completes .cascadeMessageBad s (fun t => t.links.retries = 0 ∧ t.regs = s.regs ∧
      { page := 0x54, cause := 0x542, code := 0x04, event := true, unit := 0x542 } ∈ t.held)) ∧
    (∀ o b last, b.length ≤ 4096 → Completes (.imageBlock .forward o b last) s (fun t => .imageBlock o b last ∈ t.outbox ∧ t.regs = s.regs ∧ t.pwr = s.pwr)) ∧
    (∀ o b last, b.length ≤ 4096 → s.pwr.boot ≠ .waitImage ∨ s.pwr.imageTaken = true ∨ s.pwr.casRoot = true → Completes (.imageBlock .forUs o b last) s (fun t =>
      t.regs = s.regs ∧ t.pwr = s.pwr)) ∧
    (∀ o b last, b.length ≤ 4096 → s.pwr.image ≠ [] → Completes (.imageBlock .request o b last) s (fun t => t.regs = s.regs ∧ t.pwr = s.pwr ∧
      ∀ e, e ∈ (chunks 4088 s.pwr.image.length s.pwr.image).zipIdx →
        .imageBlock (4088 * e.2) e.1 (e.2 + 1 == (chunks 4088 s.pwr.image.length s.pwr.image).length) ∈ t.outbox)) ∧
    (∀ o b last, b.length ≤ 4096 → s.pwr.image = [] → Completes (.imageBlock .request o b last) s (fun t => t.regs = s.regs ∧ t.pwr = s.pwr ∧
      (s.pwr.casRoot = false → .imageRequest ∈ t.outbox))) ∧
    (∀ o b, b.length ≤ 4096 → s.pwr.boot = .waitImage → s.pwr.imageTaken = false → s.pwr.casRoot = false → Completes (.imageBlock .forUs o b false) s (fun t =>
      SMap.getList bootBufDefault t.pwr.bootBuf o b.length = b ∧ t.pwr.imageLen = max s.pwr.imageLen (o + b.length) ∧ t.pwr.boot = .waitImage ∧ t.regs = s.regs ∧
      ∀ a, (a < o ∨ o + b.length ≤ a) → SMap.get bootBufDefault t.pwr.bootBuf a = SMap.get bootBufDefault s.pwr.bootBuf a)) ∧
    (∀ o b image, b.length ≤ 4096 → s.pwr.boot = .waitImage → s.pwr.imageTaken = false → s.pwr.casRoot = false →
      image = SMap.getList bootBufDefault (SMap.setList bootBufDefault s.pwr.bootBuf o b) 0 (min (2 ^ 20) (max s.pwr.imageLen (o + b.length))) →
      (∀ c, checkCopy image = some c → Completes (.imageBlock .forUs o b true) s (fun t => t.pwr.boot = .list 0 ∧ t.pwr.imageTaken = true ∧ t.pwr.list = c.list ∧
        t.pwr.firmware = c.firmware ∧ t.pwr.entry = c.entry ∧ Fld.PMU.BOOT_STAT_COPY t.regs = 2 ∧ Fld.PMU.BOOT_STAT_STATE t.regs = 1 ∧
        SameRegsBut [Adr.PMU.BOOT_STAT] s t)) ∧
      (checkCopy image = none → Completes (.imageBlock .forUs o b true) s (fun t => t.pwr.boot = .waitImage ∧ Fld.PMU.RCV_STAT_BAD t.regs = 1 ∧
        t.pwr.imageLen = 0 ∧ SameRegsBut [Adr.PMU.RCV_STAT] s t)))

/-- While no clock domain is stopped: a heartbeat with an older number or epoch is ignored; an accepted one shows the neighbour, ends its loss and drives
the states: joining takes the epoch, a cut-off upstream isolates, a recovered one rejoins; the manager raises the epoch when a neighbour turns to
REJOINING. Three missed lose the neighbour. REJOIN_CMD makes a REJOINING device JOINED when its manager writes it, whose two masters follow from its
device ID; a remote master that is not the manager is refused, counted and reported. MANAGER_CLAIM, PROMOTED and EPOCH_CMD act only in their states.
Model's choices and readings: entry 123, entry 184, entry 183 of the log. (R331, R332, R333, R334, R335) -/
def Obligations.HeartbeatsAndPartitions : Prop :=
  ∀ (s : State) (p : Fin 4) (h : Heartbeat), s.stopped = [] → h.wellFormed = true →
    (s.linkUp p = false → Does (.heartbeatReceive p h) s s) ∧
    (∀ l, (s.flkPort p).hbLast = some l → serial 8 h.seq l ≠ .later → Does (.heartbeatReceive p h) s s) ∧
    (s.hie ≠ 2 → serial 16 h.epoch (Fld.HIE.EPOCH s.regs) = .earlier → Does (.heartbeatReceive p h) s s) ∧
    (s.linkUp p = true → (∀ l, (s.flkPort p).hbLast = some l → serial 8 h.seq l = .later) →
      serial 16 h.epoch (Fld.HIE.EPOCH s.regs) = .equal ∨ serial 16 h.epoch (Fld.HIE.EPOCH s.regs) = .later →
      Completes (.heartbeatReceive p h) s (fun t => (t.flkPort p).hbLast = some h.seq ∧ (t.flkPort p).lost = false ∧ (t.flkPort p).hbMissed = 0 ∧
        Fld.FLK.LINK_STAT_NEIGHBOUR_ID t.regs p = h.sender ∧ Fld.FLK.LINK_STAT_NEIGHBOUR_VALID t.regs p = 1 ∧
        { page := (flkUnit p + 1) / 16, cause := flkUnit p + 1, code := 0x20, event := false, unit := flkUnit p + 1 } ∉ t.held ∧
        (s.upPort ≠ some p.val → s.hie ≠ 2 → SameRegsBut [Adr.FLK.LINK_STAT p] s t) ∧
        (s.hie = 2 → h.state = 5 → (s.flkPort p).hbState ≠ 5 → Fld.HIE.EPOCH t.regs = (Fld.HIE.EPOCH s.regs + 1) % 2 ^ 16) ∧
        (s.upPort = some p.val → s.hie = 0 ∨ s.hie = 1 → s.idReady = true → t.hie = 3 ∧ Fld.HIE.EPOCH t.regs = h.epoch) ∧
        (s.upPort = some p.val → s.hie = 3 → t.hie = 3 ∧ Fld.HIE.EPOCH t.regs = h.epoch) ∧
        (s.upPort = some p.val → s.hie = 4 → h.state = 2 ∨ h.state = 3 → t.hie = 5) ∧
        (s.upPort = some p.val → s.hie = 5 → h.state = 4 ∨ h.state = 5 → t.hie = 4 ∧ t.links.isoEntry = s.now ∧
          { page := 0x54, cause := 0x543, code := 0x20, event := false, unit := 0x543 } ∈ t.held))) ∧
    (s.linkUp p = false ∨ (s.flkPort p).hbMissed < 3 ∨ (s.flkPort p).lost = true → Does (.neighbourLost p) s s) ∧
    (s.linkUp p = true → 3 ≤ (s.flkPort p).hbMissed → (s.flkPort p).lost = false → s.hie ≠ 5 → s.upPort ≠ some p.val → Completes (.neighbourLost p) s (fun t =>
      (t.flkPort p).lost = true ∧ (t.flkPort p).hbLast = none ∧ Fld.FLK.LINK_STAT_NEIGHBOUR_VALID t.regs p = 0 ∧
      { page := (flkUnit p + 1) / 16, cause := flkUnit p + 1, code := 0x20, event := false, unit := flkUnit p + 1 } ∈ t.held ∧
      SameRegsBut [Adr.FLK.LINK_STAT p] s t ∧ t.dram = s.dram)) ∧
    (s.hie ≠ 0 ∨ s.idReady = false ∨ s.upPort ≠ none → Does .managerClaim s s) ∧
    (s.hie = 0 → s.idReady = true → s.upPort = none → s.links.sawAlive = true → Completes .managerClaim s (fun t => t.hie = 1 ∧ SameRegsBut [Adr.HIE.HIE_STAT] s t)) ∧
    (s.hie = 0 → s.idReady = true → s.upPort = none → s.links.sawAlive = false → 20 ≤ Fld.HIE.ALIVE_LOW s.regs → Completes .managerClaim s (fun t =>
      t.hie = 2 ∧ .mgrAlive ∈ t.outbox ∧ SameRegsBut [Adr.HIE.HIE_STAT] s t)) ∧
    (s.hie = 0 → s.links.sawAlive = false → Fld.HIE.ALIVE_LOW s.regs < 20 → Does .managerClaim s s) ∧
    (s.hie ≠ 4 ∨ Fld.HIE.ROLE_CFG_DEPUTY s.regs = 0 ∨ Fld.HIE.ALIVE_LOW s.regs < 10 + 2 * Fld.HIE.ROLE_CFG_DEPUTY_RANK s.regs → Does .promoted s s) ∧
    (s.hie = 4 → Fld.HIE.ROLE_CFG_DEPUTY s.regs = 1 → 10 + 2 * Fld.HIE.ROLE_CFG_DEPUTY_RANK s.regs ≤ Fld.HIE.ALIVE_LOW s.regs → Completes .promoted s (fun t =>
      t.hie = 2 ∧ Fld.HIE.EPOCH t.regs = (Fld.HIE.EPOCH s.regs + 1) % 2 ^ 16 ∧ .mgrAlive ∈ t.outbox ∧
      { page := 0x54, cause := 0x543, code := 0x22, event := true, unit := 0x543 } ∈ t.held ∧
      { page := 0x54, cause := 0x543, code := 0x20, event := false, unit := 0x543 } ∉ t.held ∧ t.dram = s.dram)) ∧
    (∀ m (v : Word), m < 512 → s.refusesRemote m 0x54 0x050 = false → s.hie ≠ 5 ∨ bitOf v.toNat 0 = false ∨ s.managerMaster m = false → Does (.rejoinCmd m v) s s) ∧
    (∀ m (v : Word), m < 512 → s.hie = 4 ∨ s.hie = 5 → 0x40 ≤ m → m < 0x80 → s.managerMaster m = false → Completes (.rejoinCmd m v) s (fun t => t.hie = s.hie ∧
      t.rd Adr.HIE.REFUSED = satInc 32 (s.rd Adr.HIE.REFUSED) ∧ { page := 0x54, cause := 0x541, code := 0x21, event := true, unit := 0x541 } ∈ t.held ∧
      SameRegsBut [Adr.HIE.REFUSED] s t)) ∧
    (∀ m q, s.upPort = some q → (s.flkPort q).hbState = 2 → (s.managerMaster m = true ↔ m = 0x40 + 4 * Fld.FLK.LINK_STAT_NEIGHBOUR_ID s.regs q ∨
      m = 0x41 + 4 * Fld.FLK.LINK_STAT_NEIGHBOUR_ID s.regs q)) ∧
    (∀ n, Fld.HIE.EPOCH (s.raiseEpochs n).regs = if s.hie = 2 then (Fld.HIE.EPOCH s.regs + n) % 2 ^ 16 else Fld.HIE.EPOCH s.regs) ∧
    (∀ m (v : Word), m < 512 → s.hie = 5 → bitOf v.toNat 0 = true → s.managerMaster m = true → s.upPort = some p.val → Completes (.rejoinCmd m v) s (fun t =>
      t.hie = 3 ∧ Fld.HIE.EPOCH t.regs = (s.flkPort p).hbEpoch % 2 ^ 16 ∧ t.links.isoAccept = s.now ∧
      { page := 0x54, cause := 0x543, code := 0x20, event := false, unit := 0x543 } ∉ t.held ∧ t.dram = s.dram)) ∧
    (s.hie ≠ 2 → Does .epochCmd s s) ∧
    (s.hie = 2 → Completes .epochCmd s (fun t => Fld.HIE.EPOCH t.regs = (Fld.HIE.EPOCH s.regs + 1) % 2 ^ 16 ∧ SameRegsBut [Adr.HIE.EPOCH] s t))

/-- POWER_ON_RESET gives the reset registers and DRAM; each POWER_UP_STEP raises the next rail and shows its power-good, and the last releases reset, with
TEMP at the fused estimates and ID 0 for the cascade's root. PG_TIMEOUT removes the rails, counts, keeps a report of PG_FAIL for when the Lodge runs,
and waits to retry or locks out after the third; PG_RETRY starts again. POWER_GOOD_LOSS of a supply that was good takes the rails away, during power-
up and at a wake too, and does nothing for one that was not. A fall of VAON takes them away in their order; below 2.0 V all pins are undriven at once.
Model's choices and readings: entry 9, entry 126, entry 130, entry 187 of the log. (R339, R340, R342, R343) -/
def Obligations.PowerSequencing : Prop :=
  ∀ s : State,
    (∀ casRoot, Completes (.powerOnReset casRoot) s (fun t => t.regs = State.reset.regs ∧ t.dram = State.reset.dram ∧ t.pwr.stage = .up 2 ∧ t.pwr.casRoot = casRoot ∧
      t.pending = s.pending ∧ .powerPins true false false false true ∈ t.outbox)) ∧
    (s.pwr.stage = .up 2 → Completes .powerUpStep s (fun t => t.pwr.stage = .up 3 ∧ bitOf (Fld.PMU.PWR_STAT_PG t.regs) 0 = true ∧
      .powerPins true true false false true ∈ t.outbox ∧ .vsel 3 ∈ t.outbox ∧ SameRegsBut [Adr.PMU.PWR_STAT] s t)) ∧
    (s.pwr.stage = .up 3 → Completes .powerUpStep s (fun t => t.pwr.stage = .up 4 ∧ bitOf (Fld.PMU.PWR_STAT_PG t.regs) 1 = true ∧
      .powerPins true true true false true ∈ t.outbox ∧ SameRegsBut [Adr.PMU.PWR_STAT] s t)) ∧
    (s.pwr.stage = .up 4 → Completes .powerUpStep s (fun t => t.pwr.stage = .up 5 ∧ bitOf (Fld.PMU.PWR_STAT_PG t.regs) 2 = true ∧
      .powerPins true true true true true ∈ t.outbox ∧ SameRegsBut [Adr.PMU.PWR_STAT] s t)) ∧
    (s.pwr.stage = .up 5 → s.pwr.resetN = false → Completes .powerUpStep s (fun t => t.pwr.stage = .up 5 ∧ bitOf (Fld.PMU.PWR_STAT_PG t.regs) 3 = true ∧
      t.pwr.boot = s.pwr.boot ∧ t.pwr.restoreWait = false ∧ SameRegsBut [Adr.PMU.PWR_STAT] s t)) ∧
    (s.pwr.stage = .up 5 → s.pwr.resetN = true → Completes .powerUpStep s (fun t => t.pwr.stage = .on ∧ t.pwr.internalReset = false ∧ t.pwr.boot = .rom ∧
      t.pwr.fails = 0 ∧ t.pwr.epReady = s.pwr.perstN ∧ t.rd Adr.PMU.BOOT_STAT = 0 ∧
      (s.pwr.casRoot = true → Fld.HIE.HIE_STAT_DEV_ID t.regs = 0 ∧ Fld.HIE.HIE_STAT_ID_VALID t.regs = 1 ∧ .idAssign 1 ∈ t.outbox) ∧
      (∀ n, n < 5 → t.rd (Adr.ICE.TEMP n) = s.rd (Adr.ICE.FUSED_TEMP n)) ∧
      (s.pwr.casRoot = false → SameRegsBut ([Adr.PMU.PWR_STAT, Adr.PMU.BOOT_STAT] ++ (List.range 5).map Adr.ICE.TEMP) s t))) ∧
    (s.pwr.stage = .on ∨ s.pwr.stage = .retry ∨ s.pwr.stage = .dead → Does .powerUpStep s s ∧ Does .pgTimeout s s) ∧
    (∀ n, s.pwr.stage = .up n → bitOf (Fld.PMU.PWR_STAT_PG s.regs) (n - 2) = false → Completes .pgTimeout s (fun t =>
      t.pwr.stage = (if 3 ≤ s.pwr.fails + 1 then .dead else .retry) ∧ t.pwr.fails = s.pwr.fails + 1 ∧
      Fld.PMU.PWR_STAT_PG_FAIL t.regs = satInc 8 (Fld.PMU.PWR_STAT_PG_FAIL s.regs) ∧ Fld.PMU.PWR_STAT_PG t.regs = 0 ∧ (0x062, 0x22) ∈ t.pwr.bootReports ∧
      .powerPins false false false false false ∈ t.outbox)) ∧
    (s.pwr.stage = .retry → Completes .pgRetry s (fun t => t.pwr.stage = .up 2 ∧ t.regs = s.regs ∧ .powerPins true false false false true ∈ t.outbox)) ∧
    (s.pwr.stage ≠ .retry → Does .pgRetry s s) ∧
    (s.pwr.stage = .on → Completes .resetNRelease s (fun t => t.pwr.resetN = true ∧ t.pwr.stage = .on ∧ t.regs = s.regs)) ∧
    (s.pwr.stage = .up 5 → bitOf (Fld.PMU.PWR_STAT_PG s.regs) 3 = true → s.pwr.restoreWait = false → Completes .resetNRelease s (fun t =>
      t.pwr.resetN = true ∧ t.pwr.stage = .on ∧ t.pwr.internalReset = false ∧ t.pwr.boot = .rom)) ∧
    (∀ pg, s.pwr.stage = .on → bitOf (Fld.PMU.PWR_STAT_PG s.regs) (pgBit pg) = true → Completes (.powerGoodLoss pg) s (fun t => t.pwr.stage = .retry ∧
      Fld.PMU.PWR_STAT_PG t.regs = 0 ∧ Fld.PMU.PWR_STAT_PG_FAIL t.regs = satInc 8 (Fld.PMU.PWR_STAT_PG_FAIL s.regs) ∧ (0x062, 0x22) ∈ t.pwr.bootReports ∧
      .powerPins false false false false false ∈ t.outbox)) ∧
    (∀ pg n, s.pwr.stage = .up n → bitOf (Fld.PMU.PWR_STAT_PG s.regs) (pgBit pg) = true → Completes (.powerGoodLoss pg) s (fun t => t.pwr.stage = .retry ∧
      Fld.PMU.PWR_STAT_PG t.regs = 0 ∧ Fld.PMU.PWR_STAT_PG_FAIL t.regs = satInc 8 (Fld.PMU.PWR_STAT_PG_FAIL s.regs) ∧ (0x062, 0x22) ∈ t.pwr.bootReports)) ∧
    (∀ pg n, s.pwr.stage = .waking n → bitOf (Fld.PMU.PWR_STAT_PG s.regs) (pgBit pg) = true → Completes (.powerGoodLoss pg) s (fun t => t.pwr.stage = .up 2 ∧
      t.pwr.savedLanes = [] ∧ Fld.PMU.PWR_STAT_PG_FAIL t.regs = satInc 8 (Fld.PMU.PWR_STAT_PG_FAIL s.regs) ∧ (0x062, 0x22) ∈ t.pwr.bootReports)) ∧
    (∀ pg, bitOf (Fld.PMU.PWR_STAT_PG s.regs) (pgBit pg) = false → Does (.powerGoodLoss pg) s s) ∧
    (∀ p : Pwr, p = s.resetCore.pwr → Completes (.vaonFall false) s (fun t => t.pwr.stage = .noVaon ∧ Fld.PMU.PWR_STAT_PG t.regs = 0 ∧
      (∀ o, o ∈ [.powerPins p.enIo p.enCore p.enHs false p.tcxoEn, .powerPins p.enIo p.enCore false false p.tcxoEn, .powerPins p.enIo false false false p.tcxoEn,
        .powerPins false false false false false] → o ∈ t.outbox))) ∧
    Completes (.vaonFall true) s (fun t => t.pwr.stage = .noVaon ∧ Fld.PMU.PWR_STAT_PG t.regs = 0 ∧ .powerUndriven ∈ t.outbox ∧ t.partnerPins = pinsUnpowered)

/-- A watchdog expiry while enabled and RST_CMD with its key reset every register but the always-on ones, empty DRAM, keep the temperatures of the fused
model and record their cause; at an operating point below OP3 the voltage is restored first, which a pin reset does not cut short. A pin reset holds,
puts the pins to partners in their reset state, releases FLK_MGR_ALIVE and drops the reports of an unfinished boot; from lock-out or sleep it powers
up. PERST_N and link training move the endpoint's state. A thermal restart needs 10,743 rounds and every node below 85 degrees. Model's choices and
readings: entry 5, entry 34, entry 187 of the log. (R100, R316, R342, R371) -/
def Obligations.ResetSources : Prop :=
  ∀ s : State,
    (∀ (c : Instr) (cause : Nat), (c = .watchdogExpiry ∧ cause = 3 ∧ Fld.PMU.WDT_CFG_EN s.regs = 1) ∨ (c = .rstCmd 0xD1E5 ∧ cause = 4) → s.pwr.stage = .on →
      s.pwr.resetN = true →
      (Fld.PMU.VSEL_CUR s.regs = 3 → Completes c s (fun t => t.pwr.stage = .on ∧ t.pwr.boot = .rom ∧ t.rd Adr.PMU.LAST_RESET = cause ∧ t.dram = State.reset.dram ∧
        t.pending = s.pending ∧ (∀ a, a ∈ alwaysOn → a ≠ Adr.PMU.LAST_RESET → t.regs.word a = s.regs.word a) ∧
        (∀ n, n < 5 → t.rd (Adr.ICE.TEMP n) = s.rd (Adr.ICE.FUSED_TEMP n)) ∧
        (∀ a, a ∉ alwaysOn → a ∉ [Adr.HIE.HIE_STAT, Adr.PMU.BOOT_STAT] ++ (List.range 5).map Adr.ICE.TEMP → t.regs.word a = State.reset.regs.word a))) ∧
      (Fld.PMU.VSEL_CUR s.regs ≠ 3 → Completes c s (fun t => t.pwr.stage = .up 5 ∧ t.pwr.restoreWait = true ∧ .vsel 3 ∈ t.outbox ∧
        t.rd Adr.PMU.LAST_RESET = cause))) ∧
    (Fld.PMU.WDT_CFG_EN s.regs = 0 → Does .watchdogExpiry s s) ∧
    (∀ v : Word, v ≠ 0xD1E5 → Does (.rstCmd v) s s) ∧
    Does .wdtKick s { s with pwr := { s.pwr with wdtFrom := s.now } } ∧
    (∀ casRoot, s.pwr.stage = .on → Completes (.pinReset casRoot) s (fun t => t.pwr.stage = .up 5 ∧ t.pwr.resetN = false ∧ t.pwr.casRoot = casRoot ∧
      t.rd Adr.PMU.LAST_RESET = 1 ∧ t.dram = State.reset.dram ∧ t.pending = s.pending)) ∧
    (∀ casRoot, s.pwr.stage = .up 5 → s.pwr.restoreWait = true → Completes (.pinReset casRoot) s (fun t => t.pwr.stage = .up 5 ∧ t.pwr.restoreWait = true ∧
      t.pwr.resetN = false)) ∧
    (s.pwr.stage = .on → s.pwr.enIo = true → s.pwr.enCore = true → s.pwr.enHs = true → s.pwr.enVddq = true → Completes (.pinReset false) s (fun t =>
      t.partnerPins = pinsInReset ∧ (s.partnerPins ≠ pinsInReset → .partnerPins pinsInReset ∈ t.outbox) ∧
      (Fld.HIE.HIE_STAT_STATE s.regs = 2 → .mgrReleased ∈ t.outbox) ∧ (∀ r, r ∈ t.pwr.bootReports → r.1 ≠ 0x061))) ∧
    (∀ casRoot, s.pwr.stage = .dead ∨ s.pwr.stage = .sleep → Completes (.pinReset casRoot) s (fun t => t.pwr.stage = .up 2 ∧ t.pwr.savedLanes = [] ∧ t.rd Adr.PMU.LAST_RESET = 1 ∧
      .powerPins true false false false true ∈ t.outbox)) ∧
    Completes (.perstN true) s (fun t => t.pwr.perstN = true ∧ t.pwr.epReady = (!s.pwr.internalReset || decide (s.pwr.stage = .waking 7)) ∧ t.regs = s.regs) ∧
    Completes (.perstN false) s (fun t => t.pwr.perstN = false ∧ t.pwr.epReady = false ∧ t.trl.epGen = 0 ∧ (s.ofc.cmds = [] → t.ofc.enabled = false ∧ t.regs = s.regs)) ∧
    (∀ g, s.pwr.epReady = true → Does (.endpointLinkTrained g) s { s with trl := { s.trl with epGen := g } }) ∧
    (∀ g, s.pwr.epReady = false → Does (.endpointLinkTrained g) s s) ∧
    (∀ (p : Fin 8) (g : Fin 6), Completes (.rootPortLinkUp p g) s (fun t => SMap.get (fun _ => 0) t.trl.rpGen p = g ∧
      (∀ q, q ≠ p.val → SMap.get (fun _ => 0) t.trl.rpGen q = SMap.get (fun _ => 0) s.trl.rpGen q) ∧ t.regs = s.regs)) ∧
    (s.pwr.stage ≠ .thermal ∨ s.pwr.aonRounds < 10743 ∨ (∃ x, x ∈ s.fusedTemps ∧ 85 * 65536 ≤ x) → Does .thermalRestart s s) ∧
    (s.pwr.stage = .thermal → 10743 ≤ s.pwr.aonRounds → (∀ x, x ∈ s.fusedTemps → x < 85 * 65536) → Completes .thermalRestart s (fun t => t.pwr.stage = .up 2 ∧
      (0x042, 0x20) ∈ t.pwr.bootReports ∧ .powerPins true false false false true ∈ t.outbox ∧ t.regs = s.regs))

/-- The boot ROM reads the NOR in the mode that its SFDP gives, takes the good copy with the later generation, copy A when they agree or cannot be told
apart, the other where one is bad, and waits for an image where both are, asking upstream unless the device is the cascade's root. A list entry
writes, delays, or polls, and the list goes on unless the entry reset the device; an unknown one, or the stop of a poll, ends the list and is
reported. LODGE_RELEASE loads the firmware at its entry and delivers the boot reports. RCV_DATA fills the buffer, and RCV_CMD takes a good image.
Model's choices and readings: entry 131, entry 128, entry 127, entry 186 of the log. (R344, R345, R346, R347, R348) -/
def Obligations.BootAndRecovery : Prop :=
  ∀ s : State,
    (∀ a b trim, a.length ≤ 2 ^ 20 → b.length ≤ 2 ^ 20 → trim.sfdp.length ≤ 2 ^ 24 → s.pwr.boot ≠ .rom → Does (.bootCopyRead a b trim) s s) ∧
    (∀ a b (trim : BootRead), a.length ≤ 2 ^ 20 → b.length ≤ 2 ^ 20 → trim.sfdp.length ≤ 2 ^ 24 → s.pwr.boot = .rom →
      Completes (.bootCopyRead a b trim) s (fun t => (∀ o, o ∈ norReads trim.sfdp → o ∈ t.outbox) ∧ t.rd Adr.PMU.AON_TRIM = trim.trim.toNat) ∧
      (∀ x y, checkCopy a = some x → checkCopy b = some y → x.body = y.body ∨ serial 32 x.generation y.generation = .later →
        Completes (.bootCopyRead a b trim) s (fun t => t.rd Adr.PMU.AON_TRIM = trim.trim.toNat ∧ t.rd Adr.PMU.BOOT_STAT = 1 ∧ t.pwr.boot = .list 0 ∧ t.pwr.image = x.body ∧
          t.pwr.list = x.list ∧ t.pwr.firmware = x.firmware ∧ t.pwr.entry = x.entry ∧ t.pwr.generation = x.generation ∧
          SameRegsBut [Adr.PMU.AON_TRIM, Adr.PMU.BOOT_STAT] s t)) ∧
      (∀ x y, checkCopy a = some x → checkCopy b = some y → x.body ≠ y.body → serial 32 x.generation y.generation = .earlier →
        Completes (.bootCopyRead a b trim) s (fun t => t.rd Adr.PMU.BOOT_STAT = 1 + 16 ∧ t.pwr.boot = .list 0 ∧ t.pwr.list = y.list ∧ t.pwr.entry = y.entry)) ∧
      (∀ x y, checkCopy a = some x → checkCopy b = some y → x.body ≠ y.body → serial 32 x.generation y.generation = .equal ∨ serial 32 x.generation y.generation = .ambiguous →
        Completes (.bootCopyRead a b trim) s (fun t => t.rd Adr.PMU.BOOT_STAT = 1 + 2 ^ 8 ∧ t.pwr.list = x.list ∧ (0x061, 0x20) ∈ t.pwr.bootReports)) ∧
      (∀ y, checkCopy a = none → checkCopy b = some y → Completes (.bootCopyRead a b trim) s (fun t => t.rd Adr.PMU.BOOT_STAT = 1 + 16 + 2 ^ 9 ∧
        t.pwr.boot = .list 0 ∧ t.pwr.list = y.list)) ∧
      (∀ x, checkCopy a = some x → checkCopy b = none → Completes (.bootCopyRead a b trim) s (fun t => t.rd Adr.PMU.BOOT_STAT = 1 + 2 ^ 10 ∧
        t.pwr.boot = .list 0 ∧ t.pwr.list = x.list)) ∧
      (checkCopy a = none → checkCopy b = none → Completes (.bootCopyRead a b trim) s (fun t => t.rd Adr.PMU.BOOT_STAT = 3 + 2 ^ 9 + 2 ^ 10 ∧
        t.pwr.boot = .waitImage ∧ (s.pwr.casRoot = false → .imageRequest ∈ t.outbox)))) ∧
    (∀ (b : List Byte), (sfdpHeader b = none → norReads b = [.norRead sfdpMode 0 16, .norRead plainMode 0 (2 ^ 20), .norRead plainMode (2 ^ 20) (2 ^ 20)]) ∧
      (∀ at' n, sfdpHeader b = some (at', n) → .norRead (norMode b at') 0 (2 ^ 20) ∈ norReads b ∧ .norRead (norMode b at') (2 ^ 20) (2 ^ 20) ∈ norReads b ∧
        ((norMode b at').addressBytes = 4 ↔ 2 ^ 27 < norBits (fieldOf b (at' + 4) 4)) ∧
        (bitOf (fieldOf b at' 4) 21 = true → (norMode b at').lines = (1, 4, 4) ∧ (norMode b at').mhz = 50))) ∧
    (∀ i w0 v, s.pwr.boot = .list i → s.pwr.list[i]? = some (w0, v) →
      (∀ u, bits w0 24 4 = 0 → regWrite 1 (w0 % 2 ^ 20 / 4096) (w0 % 2 ^ 20 % 4096) v s = u → Completes .bootListEntry s (fun t => t.regs = u.regs ∧
        t.pwr.boot = (if u.pwr.boot = .list i then .list (i + 1) else u.pwr.boot))) ∧
      (bits w0 24 4 = 1 → Completes .bootListEntry s (fun t => t.pwr.boot = .list (i + 1) ∧ t.regs = s.regs)) ∧
      (∀ w u, bits w0 24 4 = 2 ∨ bits w0 24 4 = 3 → regRead 1 (w0 % 2 ^ 20 / 4096) (w0 % 2 ^ 20 % 4096) s = (w, u) → Completes .bootListEntry s (fun t =>
        t.regs = u.regs ∧ t.pwr.boot = (if w &&& v = (if bits w0 24 4 = 2 then v else 0) ∧ u.pwr.boot = .list i then .list (i + 1) else u.pwr.boot))) ∧
      (bits w0 24 4 < 2 → Does .listStopped s s) ∧
      (3 < bits w0 24 4 → i < 2 ^ 16 → Completes .bootListEntry s (fun t => t.pwr.boot = .listEnded ∧ t.rd Adr.PMU.LIST_STOP = i ∧ (0x061, 0x21) ∈ t.pwr.bootReports)) ∧
      (2 ≤ bits w0 24 4 → i < 2 ^ 16 → Completes .listStopped s (fun t => t.pwr.boot = .listEnded ∧ t.rd Adr.PMU.LIST_STOP = i ∧ (0x061, 0x21) ∈ t.pwr.bootReports ∧
        SameRegsBut [Adr.PMU.LIST_STOP] s t))) ∧
    (s.pwr.boot = .running ∨ s.pwr.boot = .waitImage → Does .bootListEntry s s ∧ Does .listStopped s s ∧ Does .lodgeRelease s s) ∧
    (s.pwr.boot = .listEnded → s.pwr.generation < 2 ^ 32 → Completes .lodgeRelease s (fun t => t.pwr.boot = .running ∧ t.pwr.lodgeAt = some s.pwr.entry ∧
      Fld.PMU.BOOT_STAT_STATE t.regs = 2 ∧ t.rd Adr.PMU.BOOT_GEN = s.pwr.generation ∧
      SMap.getList bootBufDefault t.pwr.sram 0 s.pwr.firmware.length = s.pwr.firmware ∧ t.pwr.bootReports = [] ∧
      (∀ u c, (u, c) ∈ s.pwr.bootReports → { page := u / 16, cause := u, code := c, event := true, unit := u } ∈ t.held) ∧
      SameRegsBut [Adr.PMU.BOOT_STAT, Adr.PMU.BOOT_GEN] s t)) ∧
    (∀ v : Word, Completes (.rcvData v) s (fun t => t.rd Adr.PMU.RCV_ADDR = (s.rd Adr.PMU.RCV_ADDR + 4) % 2 ^ 20 ∧
      leNat (SMap.getList bootBufDefault t.pwr.bootBuf (s.rd Adr.PMU.RCV_ADDR) 4) = v.toNat ∧ SameRegsBut [Adr.PMU.RCV_ADDR] s t)) ∧
    (s.pwr.boot ≠ .waitImage ∨ s.pwr.imageTaken = true → Completes .rcvCmd s (fun t => t.rd Adr.PMU.RCV_STAT = 4 ∧ t.pwr = s.pwr ∧
      SameRegsBut [Adr.PMU.RCV_STAT] s t)) ∧
    (∀ x, s.pwr.boot = .waitImage → s.pwr.imageTaken = false → checkCopy s.bufferImage = some x → Completes .rcvCmd s (fun t => t.rd Adr.PMU.RCV_STAT = 0 ∧
      t.pwr.boot = .list 0 ∧ t.pwr.list = x.list ∧ t.pwr.entry = x.entry ∧ Fld.PMU.BOOT_STAT_COPY t.regs = 3 ∧ SameRegsBut [Adr.PMU.RCV_STAT, Adr.PMU.BOOT_STAT] s t)) ∧
    (s.pwr.boot = .waitImage → s.pwr.imageTaken = false → checkCopy s.bufferImage = none → Completes .rcvCmd s (fun t => t.rd Adr.PMU.RCV_STAT = 2 ∧
      t.pwr = s.pwr ∧ SameRegsBut [Adr.PMU.RCV_STAT] s t))

/-- SLEEP_CMD enters only with no admitted flow, no member in use and WARM_VALID, and is refused otherwise; SLEEP_COMMIT, once nothing waits for DRAM,
takes the rails away, leaves DRAM in self-refresh, and keeps DRAM, lanes, CONFIG_DIVERGENT and the always-on registers. An enabled wake source aborts
the entry or starts the wake, whose steps raise the rails, restore DRAM's training and end in WARM_RELEASE at WARM_ENTRY with TEMP at the fused
estimates; a power-good that fails on the way loses DRAM and starts power-up. Model's choices and readings: entry 125, entry 129, entry 188, entry 189
of the log. (R349, R350, R351, R352) -/
def Obligations.Summerhouse : Prop :=
  ∀ s : State,
    (∀ v : Word, bitOf v.toNat 0 = false → Completes (.sleepCmd v) s (fun t => t.rd Adr.PMU.SLEEP_STAT = Fld.PMU.SLEEP_STAT_STATE s.regs ∧
      SameRegsBut [Adr.PMU.SLEEP_STAT] s t)) ∧
    (∀ v : Word, bitOf v.toNat 0 = true → s.maySleep = false → Completes (.sleepCmd v) s (fun t => Fld.PMU.SLEEP_STAT_REFUSED t.regs = 1 ∧
      Fld.PMU.SLEEP_STAT_STATE t.regs = Fld.PMU.SLEEP_STAT_STATE s.regs ∧ t.mem = s.mem ∧ SameRegsBut [Adr.PMU.SLEEP_STAT] s t)) ∧
    (∀ v : Word, bitOf v.toNat 0 = true → s.maySleep = true → Completes (.sleepCmd v) s (fun t => t.rd Adr.PMU.SLEEP_STAT = 1)) ∧
    (s.admitted ≠ [] ∨ (∃ m, m < 32 ∧ s.memState m ≠ 0) ∨ Fld.PMU.WARM_VALID s.regs = 0 → s.maySleep = false) ∧
    (Fld.PMU.SLEEP_STAT_STATE s.regs ≠ 1 ∨ s.dramDrained = false → Does .sleepCommit s s) ∧
    (Fld.PMU.SLEEP_STAT_STATE s.regs = 1 → s.dramDrained = true → Completes .sleepCommit s (fun t => t.pwr.stage = .sleep ∧ t.pwr.savedLanes = s.mem.lanes ∧ t.pwr.savedCfg = s.mem.cfg ∧
      t.dram = s.dram ∧ t.mem.selfRefresh = true ∧ .powerPins false false false false false ∈ t.outbox ∧ t.partnerPins = pinsUnpowered ∧
      Fld.PMU.BOOT_STAT_CONFIG_DIVERGENT t.regs = Fld.PMU.BOOT_STAT_CONFIG_DIVERGENT s.regs ∧
      (∀ a, a ∈ alwaysOn → a ≠ Adr.PMU.PWR_STAT → t.regs.word a = s.regs.word a))) ∧
    (∀ w, (w = .pin ∧ Fld.PMU.WAKE_CFG_WAKE_PIN_EN s.regs = 0) ∨ (w = .timer ∧ Fld.PMU.WAKE_CFG_TIMER_EN s.regs = 0) → Does (.wakeEvent w) s s) ∧
    (∀ w, (w = .pin ∧ Fld.PMU.WAKE_CFG_WAKE_PIN_EN s.regs = 1) ∨ (w = .timer ∧ Fld.PMU.WAKE_CFG_TIMER_EN s.regs = 1) →
      (Fld.PMU.SLEEP_STAT_STATE s.regs = 1 → Completes (.wakeEvent w) s (fun t => Fld.PMU.SLEEP_STAT_STATE t.regs = 0 ∧ Fld.PMU.SLEEP_STAT_ABORTED t.regs = 1 ∧
        t.mem.selfRefresh = false ∧ t.dram = s.dram ∧ SameRegsBut [Adr.PMU.SLEEP_STAT] s t)) ∧
      (Fld.PMU.SLEEP_STAT_STATE s.regs ≠ 1 → s.pwr.stage = .sleep → Completes (.wakeEvent w) s (fun t => t.pwr.stage = .waking 0 ∧
        t.rd Adr.PMU.WAKE_SRC = (if w = .pin then 1 else 2) ∧ t.dram = s.dram ∧ SameRegsBut [Adr.PMU.WAKE_SRC] s t))) ∧
    (∀ pg, s.pwr.stage = .waking 0 → Completes (.wakeStep pg) s (fun t => t.pwr.stage = .waking 1 ∧ .powerPins true false false false true ∈ t.outbox ∧ t.regs = s.regs ∧
      t.dram = s.dram)) ∧
    (∀ n, 1 ≤ n → n ≤ 4 → s.pwr.stage = .waking n →
      Completes (.wakeStep true) s (fun t => t.pwr.stage = .waking (n + 1) ∧ bitOf (Fld.PMU.PWR_STAT_PG t.regs) (n - 1) = true ∧ t.dram = s.dram ∧
        SameRegsBut [Adr.PMU.PWR_STAT] s t) ∧
      Completes (.wakeStep false) s (fun t => t.pwr.stage = .up 2 ∧ t.dram = State.reset.dram ∧ t.pwr.savedLanes = [] ∧
        Fld.PMU.PWR_STAT_PG_FAIL t.regs = satInc 8 (Fld.PMU.PWR_STAT_PG_FAIL s.regs))) ∧
    (∀ pg, s.pwr.stage = .waking 5 → Completes (.wakeStep pg) s (fun t => t.pwr.stage = .waking 6 ∧ t.mem.lanes = s.pwr.savedLanes ∧ t.mem.cfg = s.pwr.savedCfg ∧
      t.mem.selfRefresh = false ∧ t.rd Adr.MCT.TRAIN_STAT = 2 ∧ t.dram = s.dram)) ∧
    (∀ pg, s.pwr.stage = .waking 6 → Completes (.wakeStep pg) s (fun t => t.pwr.stage = .waking 7 ∧ t.pwr.epReady = s.pwr.perstN ∧ t.regs = s.regs ∧ t.dram = s.dram)) ∧
    (∀ pg, s.pwr.stage = .on → Does (.wakeStep pg) s s) ∧
    (s.pwr.stage ≠ .waking 7 → Does .warmRelease s s) ∧
    (s.pwr.stage = .waking 7 → Completes .warmRelease s (fun t => t.pwr.stage = .on ∧ t.pwr.boot = .running ∧ t.pwr.internalReset = false ∧
      t.pwr.lodgeAt = some (s.rd Adr.PMU.WARM_ENTRY) ∧ t.rd Adr.PMU.LAST_RESET = 5 ∧ Fld.PMU.BOOT_STAT_STATE t.regs = 2 ∧ t.dram = s.dram ∧
      (∀ n, n < 5 → t.rd (Adr.ICE.TEMP n) = s.rd (Adr.ICE.FUSED_TEMP n)) ∧
      SameRegsBut ([Adr.PMU.LAST_RESET, Adr.PMU.BOOT_STAT, Adr.HIE.HIE_STAT] ++ (List.range 5).map Adr.ICE.TEMP) s t))
end

