-- ==== Sys2Proof/Laws/SparseMap.lean ====
section
/-! SUPPORT. The laws of sparse data: reading after writing, and the canonical form that every operation keeps. -/

namespace Sys2Proof.Machine

variable {α : Type}

/-! ### Reading after writing -/

@[simp] theorem SMap.get_nil (d : Nat → α) (k : Nat) : SMap.get d [] k = d k := rfl

theorem SMap.get_put_same (d : Nat → α) (m : List (Nat × α)) (k : Nat) (v : α) : SMap.get d (SMap.put m k v) k = v := by
  induction m with
  | nil => simp [SMap.put, SMap.get]
  | cons e r ih =>
    unfold SMap.put
    split
    · simp [SMap.get]
    · split
      · simp [SMap.get]
      · rename_i h; simp [SMap.get, ih, Ne.symm h]

theorem SMap.get_put_other (d : Nat → α) (m : List (Nat × α)) (k j : Nat) (v : α) (h : j ≠ k) :
    SMap.get d (SMap.put m k v) j = SMap.get d m j := by
  induction m with
  | nil => simp [SMap.put, SMap.get, Ne.symm h]
  | cons e r ih =>
    unfold SMap.put
    split
    · simp [SMap.get, Ne.symm h]
    · split
      · rename_i hk; simp [SMap.get, ← hk, Ne.symm h]
      · simp [SMap.get, ih]

theorem SMap.get_del_same (d : Nat → α) (m : List (Nat × α)) (k : Nat) : SMap.get d (SMap.del m k) k = d k := by
  induction m with
  | nil => rfl
  | cons e r ih =>
    unfold SMap.del
    split
    · exact ih
    · rename_i h; simp [SMap.get, ih, h]

theorem SMap.get_del_other (d : Nat → α) (m : List (Nat × α)) (k j : Nat) (h : j ≠ k) : SMap.get d (SMap.del m k) j = SMap.get d m j := by
  induction m with
  | nil => rfl
  | cons e r ih =>
    unfold SMap.del
    split
    · rename_i hk; rw [ih]; simp [SMap.get, hk, Ne.symm h]
    · simp [SMap.get, ih]

@[simp] theorem SMap.get_set_same [DecidableEq α] (d : Nat → α) (m : List (Nat × α)) (k : Nat) (v : α) :
    SMap.get d (SMap.set d m k v) k = v := by
  unfold SMap.set
  split
  · rename_i h; rw [SMap.get_del_same, h]
  · exact SMap.get_put_same d m k v

theorem SMap.get_set_other [DecidableEq α] (d : Nat → α) (m : List (Nat × α)) (k j : Nat) (v : α) (h : j ≠ k) :
    SMap.get d (SMap.set d m k v) j = SMap.get d m j := by
  unfold SMap.set
  split
  · exact SMap.get_del_other d m k j h
  · exact SMap.get_put_other d m k j v h

/-- Reading any key after a write. -/
theorem SMap.get_set [DecidableEq α] (d : Nat → α) (m : List (Nat × α)) (k j : Nat) (v : α) :
    SMap.get d (SMap.set d m k v) j = if j = k then v else SMap.get d m j := by
  split
  · rename_i h; rw [h, SMap.get_set_same]
  · rename_i h; exact SMap.get_set_other d m k j v h

/-- Reading any key after a list was written under consecutive keys. -/
theorem SMap.get_setList [DecidableEq α] (d : Nat → α) (vs : List α) (m : List (Nat × α)) (k j : Nat) :
    SMap.get d (SMap.setList d m k vs) j = if k ≤ j ∧ j < k + vs.length then vs.getD (j - k) (d j) else SMap.get d m j := by
  induction vs generalizing m k with
  | nil => simp only [SMap.setList, List.length_nil]; split <;> first | omega | rfl
  | cons v vs ih =>
    rw [SMap.setList, ih, SMap.get_set]
    by_cases h1 : j = k
    · subst h1; simp
    · by_cases h2 : k ≤ j ∧ j < k + (v :: vs).length
      · have h3 : k + 1 ≤ j ∧ j < k + 1 + vs.length := by simp only [List.length_cons] at h2; omega
        rw [if_pos h3, if_pos h2]
        have h4 : j - k = j - (k + 1) + 1 := by omega
        rw [h4, List.getD_cons_succ]
      · have h3 : ¬ (k + 1 ≤ j ∧ j < k + 1 + vs.length) := by simp only [List.length_cons] at h2; omega
        rw [if_neg h3, if_neg h2, if_neg h1]

@[simp] theorem SMap.getList_length (d : Nat → α) (m : List (Nat × α)) (k n : Nat) : (SMap.getList d m k n).length = n := by
  induction n generalizing k with
  | zero => rfl
  | succ n ih => simp [SMap.getList, ih]

theorem SMap.getList_getElem (d : Nat → α) (m : List (Nat × α)) (k n i : Nat) (h : i < n) :
    (SMap.getList d m k n)[i]? = some (SMap.get d m (k + i)) := by
  induction n generalizing k i with
  | zero => omega
  | succ n ih =>
    cases i with
    | zero => simp [SMap.getList]
    | succ i => simp only [SMap.getList, List.getElem?_cons_succ]; rw [ih _ _ (by omega)]; congr 2; omega

/-- Reading back what was written. -/
theorem SMap.getList_setList [DecidableEq α] (d : Nat → α) (m : List (Nat × α)) (k : Nat) (vs : List α) :
    SMap.getList d (SMap.setList d m k vs) k vs.length = vs := by
  apply List.ext_getElem?
  intro i
  by_cases h : i < vs.length
  · rw [SMap.getList_getElem _ _ _ _ _ h, SMap.get_setList, if_pos (by omega)]
    simp [List.getD, h]
  · rw [List.getElem?_eq_none (by simpa using h), List.getElem?_eq_none (by simpa using h)]

/-- A key that is not listed reads as its default. -/
theorem SMap.get_absent {α : Type} (d : Nat → α) {m : List (Nat × α)} {k : Nat} (h : k ∉ m.map (·.1)) : SMap.get d m k = d k := by
  induction m with
  | nil => rfl
  | cons e r ih =>
    simp only [List.map_cons, List.mem_cons, not_or] at h
    unfold SMap.get
    rw [if_neg (fun q => h.1 q.symm), ih h.2]

/-! ### The canonical form -/

theorem SMap.above_put {k j : Nat} {v : α} {m : List (Nat × α)} (h : SMap.above k m = true) (hj : k < j) :
    SMap.above k (SMap.put m j v) = true := by
  induction m generalizing k with
  | nil => simp [SMap.put, SMap.above, hj]
  | cons e r ih =>
    simp only [SMap.above, Bool.and_eq_true, decide_eq_true_eq] at h
    unfold SMap.put
    split
    · rename_i hlt; simp [SMap.above, hj, hlt, h.2]
    · split
      · rename_i heq; simp [SMap.above, heq, h.1, h.2]
      · rename_i h1 h2
        simp only [SMap.above, Bool.and_eq_true, decide_eq_true_eq]
        exact ⟨h.1, ih h.2 (by omega)⟩

theorem SMap.above_mono {k j : Nat} {m : List (Nat × α)} (h : SMap.above k m = true) (hj : j ≤ k) : SMap.above j m = true := by
  cases m with
  | nil => rfl
  | cons e r =>
    simp only [SMap.above, Bool.and_eq_true, decide_eq_true_eq] at h ⊢
    exact ⟨by omega, h.2⟩

theorem SMap.above_del {k j : Nat} {m : List (Nat × α)} (h : SMap.above k m = true) : SMap.above k (SMap.del m j) = true := by
  induction m generalizing k with
  | nil => rfl
  | cons e r ih =>
    simp only [SMap.above, Bool.and_eq_true, decide_eq_true_eq] at h
    unfold SMap.del
    split
    · exact ih (SMap.above_mono h.2 (by omega))
    · simp only [SMap.above, Bool.and_eq_true, decide_eq_true_eq]; exact ⟨h.1, ih h.2⟩

/-- The canonical form as sortedness and the absence of default entries. -/
theorem SMap.wf_iff [DecidableEq α] (d : Nat → α) (m : List (Nat × α)) :
    SMap.wf d m = true ↔ (m = [] ∨ ∃ e r, m = e :: r ∧ SMap.above e.1 r = true) ∧ ∀ e ∈ m, e.2 ≠ d e.1 := by
  cases m with
  | nil => simp [SMap.wf]
  | cons e r => simp [SMap.wf]

theorem SMap.mem_put {m : List (Nat × α)} {k : Nat} {v : α} {e : Nat × α} (h : e ∈ SMap.put m k v) : e = (k, v) ∨ e ∈ m := by
  induction m with
  | nil => simpa [SMap.put] using h
  | cons x r ih =>
    unfold SMap.put at h
    split at h
    · simpa using h
    · split at h
      · simp only [List.mem_cons] at h ⊢; tauto
      · simp only [List.mem_cons] at h ⊢
        rcases h with h | h
        · tauto
        · rcases ih h with h | h <;> tauto

theorem SMap.mem_del {m : List (Nat × α)} {k : Nat} {e : Nat × α} (h : e ∈ SMap.del m k) : e ∈ m := by
  induction m with
  | nil => exact h
  | cons x r ih =>
    unfold SMap.del at h
    split at h
    · exact List.mem_cons_of_mem _ (ih h)
    · simp only [List.mem_cons] at h ⊢
      rcases h with h | h
      · exact Or.inl h
      · exact Or.inr (ih h)

/-- Storing a value that is not the default keeps the canonical form. -/
theorem SMap.wf_put [DecidableEq α] (d : Nat → α) {m : List (Nat × α)} {k : Nat} {v : α} (h : SMap.wf d m = true) (hv : v ≠ d k) :
    SMap.wf d (SMap.put m k v) = true := by
  rw [SMap.wf_iff] at h ⊢
  refine ⟨?_, ?_⟩
  · rcases h.1 with rfl | ⟨e, r, rfl, ha⟩
    · exact Or.inr ⟨(k, v), [], rfl, rfl⟩
    · right
      unfold SMap.put
      split
      · rename_i hlt; exact ⟨_, _, rfl, by simp [SMap.above, hlt, ha]⟩
      · split
        · rename_i heq; exact ⟨_, _, rfl, by rw [heq]; exact ha⟩
        · exact ⟨_, _, rfl, SMap.above_put ha (by omega)⟩
  · intro e he
    rcases SMap.mem_put he with rfl | he
    · exact hv
    · exact h.2 e he

/-- Removing an entry keeps the canonical form. -/
theorem SMap.wf_del [DecidableEq α] (d : Nat → α) {m : List (Nat × α)} {k : Nat} (h : SMap.wf d m = true) : SMap.wf d (SMap.del m k) = true := by
  rw [SMap.wf_iff] at h ⊢
  refine ⟨?_, fun e he => h.2 e (SMap.mem_del he)⟩
  have key : ∀ (r : List (Nat × α)), (r = [] ∨ ∃ e q, r = e :: q ∧ SMap.above e.1 q = true) →
      (SMap.del r k = [] ∨ ∃ e q, SMap.del r k = e :: q ∧ SMap.above e.1 q = true) := by
    intro r
    induction r with
    | nil => intro _; exact Or.inl rfl
    | cons x q ih =>
      intro hx
      rcases hx with hx | ⟨e, q', hq, ha⟩
      · exact absurd hx (by simp)
      · obtain ⟨rfl, rfl⟩ : x = e ∧ q = q' := by simpa using hq
        unfold SMap.del
        split
        · apply ih
          cases q with
          | nil => exact Or.inl rfl
          | cons y z =>
            simp only [SMap.above, Bool.and_eq_true, decide_eq_true_eq] at ha
            exact Or.inr ⟨y, z, rfl, ha.2⟩
        · exact Or.inr ⟨_, _, rfl, SMap.above_del ha⟩
  exact key m h.1

/-- Every write keeps the canonical form. -/
theorem SMap.wf_set [DecidableEq α] (d : Nat → α) {m : List (Nat × α)} {k : Nat} {v : α} (h : SMap.wf d m = true) : SMap.wf d (SMap.set d m k v) = true := by
  unfold SMap.set
  split
  · exact SMap.wf_del d h
  · rename_i hv; exact SMap.wf_put d h hv

/-- Every write of a list keeps the canonical form. -/
theorem SMap.wf_setList [DecidableEq α] (d : Nat → α) {m : List (Nat × α)} {k : Nat} (vs : List α) (h : SMap.wf d m = true) :
    SMap.wf d (SMap.setList d m k vs) = true := by
  induction vs generalizing m k with
  | nil => exact h
  | cons v vs ih => exact ih (SMap.wf_set d h)

/-! ### Sums over sparse data -/

theorem SMap.above_get {k j : Nat} {m : List (Nat × α)} (d : Nat → α) (h : SMap.above k m = true) (hj : j ≤ k) : SMap.get d m j = d j := by
  induction m generalizing k with
  | nil => rfl
  | cons e r ih =>
    simp only [SMap.above, Bool.and_eq_true, decide_eq_true_eq] at h
    unfold SMap.get
    rw [if_neg (by omega)]
    exact ih h.2 (by omega)

theorem SMap.above_del_eq {k : Nat} {m : List (Nat × α)} {j : Nat} (h : SMap.above k m = true) (hj : j ≤ k) : SMap.del m j = m := by
  induction m generalizing k with
  | nil => rfl
  | cons e r ih =>
    simp only [SMap.above, Bool.and_eq_true, decide_eq_true_eq] at h
    unfold SMap.del
    rw [if_neg (by omega), ih h.2 (by omega)]

/-- The sum of a measure over sparse data. -/
def SMap.sum (h : α → Nat) (m : List (Nat × α)) : Nat := (m.map (fun e => h e.2)).sum

theorem SMap.sum_put_above (h : α → Nat) (d : Nat → α) {m : List (Nat × α)} {k i : Nat} (v : α) (ha : SMap.above k m = true) (hd : h (d i) = 0) :
    SMap.sum h (SMap.put m i v) + h (SMap.get d m i) = SMap.sum h m + h v := by
  induction m generalizing k with
  | nil => simp [SMap.put, SMap.sum, hd]
  | cons e r ih =>
    simp only [SMap.above, Bool.and_eq_true, decide_eq_true_eq] at ha
    unfold SMap.put SMap.get
    by_cases h1 : i < e.1
    · rw [if_pos h1, if_neg (by omega), SMap.above_get d ha.2 (by omega), hd]
      simp [SMap.sum]; omega
    · rw [if_neg h1]
      by_cases h2 : i = e.1
      · rw [if_pos h2, if_pos h2.symm]
        simp [SMap.sum]; omega
      · rw [if_neg h2, if_neg (fun q => h2 q.symm)]
        have := ih ha.2
        simp only [SMap.sum, List.map_cons, List.sum_cons] at this ⊢
        omega

theorem SMap.sum_del_above (h : α → Nat) (d : Nat → α) {m : List (Nat × α)} {k i : Nat} (ha : SMap.above k m = true) (hd : h (d i) = 0) :
    SMap.sum h (SMap.del m i) + h (SMap.get d m i) = SMap.sum h m := by
  induction m generalizing k with
  | nil => simp [SMap.del, SMap.sum, hd]
  | cons e r ih =>
    simp only [SMap.above, Bool.and_eq_true, decide_eq_true_eq] at ha
    unfold SMap.del SMap.get
    by_cases h2 : e.1 = i
    · rw [if_pos h2, if_pos h2, SMap.above_del_eq ha.2 (by omega)]
      simp [SMap.sum]; omega
    · rw [if_neg h2, if_neg h2]
      have := ih ha.2
      simp only [SMap.sum, List.map_cons, List.sum_cons] at this ⊢
      omega

/-- A measure that is 0 on what is not listed, over canonical data after a write. -/
theorem SMap.sum_set [DecidableEq α] (h : α → Nat) (d : Nat → α) {m : List (Nat × α)} (i : Nat) (v : α) (hw : SMap.wf d m = true) (hd : h (d i) = 0) :
    SMap.sum h (SMap.set d m i v) + h (SMap.get d m i) = SMap.sum h m + h v := by
  rw [SMap.wf_iff] at hw
  unfold SMap.set
  rcases hw.1 with rfl | ⟨e, r, rfl, ha⟩
  · split
    · rename_i hv; rw [hv]; simp [SMap.del, SMap.sum, hd]
    · simp [SMap.put, SMap.sum, hd]
  · split
    · rename_i hv
      rw [hv, hd]
      unfold SMap.del SMap.get
      by_cases h2 : e.1 = i
      · rw [if_pos h2, if_pos h2, SMap.above_del_eq ha (by omega)]
        simp [SMap.sum]; omega
      · rw [if_neg h2, if_neg h2]
        have := SMap.sum_del_above h d (i := i) ha hd
        simp only [SMap.sum, List.map_cons, List.sum_cons] at this ⊢
        omega
    · unfold SMap.put SMap.get
      by_cases h1 : i < e.1
      · rw [if_pos h1, if_neg (by omega), SMap.above_get d ha (by omega), hd]
        simp [SMap.sum]; omega
      · rw [if_neg h1]
        by_cases h2 : i = e.1
        · rw [if_pos h2, if_pos h2.symm]
          simp [SMap.sum]; omega
        · rw [if_neg h2, if_neg (fun q => h2 q.symm)]
          have := SMap.sum_put_above h d v ha hd
          simp only [SMap.sum, List.map_cons, List.sum_cons] at this ⊢
          omega

theorem SMap.mem_set [DecidableEq α] {d : Nat → α} {m : List (Nat × α)} {k : Nat} {v : α} {e : Nat × α} (h : e ∈ SMap.set d m k v) : e = (k, v) ∨ e ∈ m := by
  unfold SMap.set at h
  split at h
  · exact Or.inr (SMap.mem_del h)
  · exact SMap.mem_put h

end Sys2Proof.Machine
end

