-- ==== Sys2Proof/Laws/State.lean ====
section
/-! SUPPORT. What each primitive update leaves of every field of State, true by definition; and what settling leaves. -/

namespace Sys2Proof.Machine

section setRegFields
variable (s : State) (a n : Nat)

@[simp] theorem State.setReg_regs : (s.setReg a n).regs = s.regs.putN a n := rfl
@[simp] theorem State.setReg_shadow : (s.setReg a n).shadow = s.shadow := rfl
@[simp] theorem State.setReg_latches : (s.setReg a n).latches = s.latches := rfl
@[simp] theorem State.setReg_time : (s.setReg a n).time = s.time := rfl
@[simp] theorem State.setReg_due : (s.setReg a n).due = s.due := rfl
@[simp] theorem State.setReg_scheduled : (s.setReg a n).scheduled = s.scheduled := rfl
@[simp] theorem State.setReg_kiosk : (s.setReg a n).kiosk = s.kiosk := rfl
@[simp] theorem State.setReg_gth : (s.setReg a n).gth = s.gth := rfl
@[simp] theorem State.setReg_qpb : (s.setReg a n).qpb = s.qpb := rfl
@[simp] theorem State.setReg_held : (s.setReg a n).held = s.held := rfl
@[simp] theorem State.setReg_reports : (s.setReg a n).reports = s.reports := rfl
@[simp] theorem State.setReg_records : (s.setReg a n).records = s.records := rfl
@[simp] theorem State.setReg_lost : (s.setReg a n).lost = s.lost := rfl
@[simp] theorem State.setReg_irq : (s.setReg a n).irq = s.irq := rfl
@[simp] theorem State.setReg_stopped : (s.setReg a n).stopped = s.stopped := rfl
@[simp] theorem State.setReg_stalled : (s.setReg a n).stalled = s.stalled := rfl
@[simp] theorem State.setReg_dram : (s.setReg a n).dram = s.dram := rfl
@[simp] theorem State.setReg_trl : (s.setReg a n).trl = s.trl := rfl
@[simp] theorem State.setReg_mem : (s.setReg a n).mem = s.mem := rfl
@[simp] theorem State.setReg_dov : (s.setReg a n).dov = s.dov := rfl
@[simp] theorem State.setReg_pwm : (s.setReg a n).pwm = s.pwm := rfl
@[simp] theorem State.setReg_iceResync : (s.setReg a n).iceResync = s.iceResync := rfl
@[simp] theorem State.setReg_elapsed : (s.setReg a n).elapsed = s.elapsed := rfl
@[simp] theorem State.setReg_sns : (s.setReg a n).sns = s.sns := rfl
@[simp] theorem State.setReg_pwr : (s.setReg a n).pwr = s.pwr := rfl
@[simp] theorem State.setReg_sfe : (s.setReg a n).sfe = s.sfe := rfl
@[simp] theorem State.setReg_streams : (s.setReg a n).streams = s.streams := rfl
@[simp] theorem State.setReg_rawIn : (s.setReg a n).rawIn = s.rawIn := rfl
@[simp] theorem State.setReg_spi : (s.setReg a n).spi = s.spi := rfl
@[simp] theorem State.setReg_i2c : (s.setReg a n).i2c = s.i2c := rfl
@[simp] theorem State.setReg_trainFrom : (s.setReg a n).trainFrom = s.trainFrom := rfl
@[simp] theorem State.setReg_timecode : (s.setReg a n).timecode = s.timecode := rfl
@[simp] theorem State.setReg_isoStreams : (s.setReg a n).isoStreams = s.isoStreams := rfl
@[simp] theorem State.setReg_rcn : (s.setReg a n).rcn = s.rcn := rfl
@[simp] theorem State.setReg_integ : (s.setReg a n).integ = s.integ := rfl
@[simp] theorem State.setReg_stats : (s.setReg a n).stats = s.stats := rfl
@[simp] theorem State.setReg_statFrame : (s.setReg a n).statFrame = s.statFrame := rfl
@[simp] theorem State.setReg_ebeIn : (s.setReg a n).ebeIn = s.ebeIn := rfl
@[simp] theorem State.setReg_orgIn : (s.setReg a n).orgIn = s.orgIn := rfl
@[simp] theorem State.setReg_orgInB : (s.setReg a n).orgInB = s.orgInB := rfl
@[simp] theorem State.setReg_ebe : (s.setReg a n).ebe = s.ebe := rfl
@[simp] theorem State.setReg_ebd : (s.setReg a n).ebd = s.ebd := rfl
@[simp] theorem State.setReg_bth : (s.setReg a n).bth = s.bth := rfl
@[simp] theorem State.setReg_ofc : (s.setReg a n).ofc = s.ofc := rfl
@[simp] theorem State.setReg_org : (s.setReg a n).org = s.org := rfl
@[simp] theorem State.setReg_orgStats : (s.setReg a n).orgStats = s.orgStats := rfl
@[simp] theorem State.setReg_orgStatCount : (s.setReg a n).orgStatCount = s.orgStatCount := rfl
@[simp] theorem State.setReg_tables : (s.setReg a n).tables = s.tables := rfl
@[simp] theorem State.setReg_load : (s.setReg a n).load = s.load := rfl
@[simp] theorem State.setReg_views : (s.setReg a n).views = s.views := rfl
@[simp] theorem State.setReg_parterre : (s.setReg a n).parterre = s.parterre := rfl
@[simp] theorem State.setReg_newest : (s.setReg a n).newest = s.newest := rfl
@[simp] theorem State.setReg_bufHolds : (s.setReg a n).bufHolds = s.bufHolds := rfl
@[simp] theorem State.setReg_glass : (s.setReg a n).glass = s.glass := rfl
@[simp] theorem State.setReg_sdi : (s.setReg a n).sdi = s.sdi := rfl
@[simp] theorem State.setReg_blv : (s.setReg a n).blv = s.blv := rfl
@[simp] theorem State.setReg_sun : (s.setReg a n).sun = s.sun := rfl
@[simp] theorem State.setReg_net : (s.setReg a n).net = s.net := rfl
@[simp] theorem State.setReg_bnd : (s.setReg a n).bnd = s.bnd := rfl
@[simp] theorem State.setReg_arb : (s.setReg a n).arb = s.arb := rfl
@[simp] theorem State.setReg_links : (s.setReg a n).links = s.links := rfl
@[simp] theorem State.setReg_outbox : (s.setReg a n).outbox = s.outbox := rfl
@[simp] theorem State.setReg_freeCount : (s.setReg a n).freeCount = s.freeCount := rfl
@[simp] theorem State.setReg_pending : (s.setReg a n).pending = s.pending := rfl

end setRegFields

section setFldFields
variable (s : State) (a l w x : Nat)

@[simp] theorem State.setFld_regs : (s.setFld a l w x).regs = s.regs.putFld a l w x := rfl
@[simp] theorem State.setFld_shadow : (s.setFld a l w x).shadow = s.shadow := rfl
@[simp] theorem State.setFld_latches : (s.setFld a l w x).latches = s.latches := rfl
@[simp] theorem State.setFld_time : (s.setFld a l w x).time = s.time := rfl
@[simp] theorem State.setFld_due : (s.setFld a l w x).due = s.due := rfl
@[simp] theorem State.setFld_scheduled : (s.setFld a l w x).scheduled = s.scheduled := rfl
@[simp] theorem State.setFld_kiosk : (s.setFld a l w x).kiosk = s.kiosk := rfl
@[simp] theorem State.setFld_gth : (s.setFld a l w x).gth = s.gth := rfl
@[simp] theorem State.setFld_qpb : (s.setFld a l w x).qpb = s.qpb := rfl
@[simp] theorem State.setFld_held : (s.setFld a l w x).held = s.held := rfl
@[simp] theorem State.setFld_reports : (s.setFld a l w x).reports = s.reports := rfl
@[simp] theorem State.setFld_records : (s.setFld a l w x).records = s.records := rfl
@[simp] theorem State.setFld_lost : (s.setFld a l w x).lost = s.lost := rfl
@[simp] theorem State.setFld_irq : (s.setFld a l w x).irq = s.irq := rfl
@[simp] theorem State.setFld_stopped : (s.setFld a l w x).stopped = s.stopped := rfl
@[simp] theorem State.setFld_stalled : (s.setFld a l w x).stalled = s.stalled := rfl
@[simp] theorem State.setFld_dram : (s.setFld a l w x).dram = s.dram := rfl
@[simp] theorem State.setFld_trl : (s.setFld a l w x).trl = s.trl := rfl
@[simp] theorem State.setFld_mem : (s.setFld a l w x).mem = s.mem := rfl
@[simp] theorem State.setFld_dov : (s.setFld a l w x).dov = s.dov := rfl
@[simp] theorem State.setFld_pwm : (s.setFld a l w x).pwm = s.pwm := rfl
@[simp] theorem State.setFld_iceResync : (s.setFld a l w x).iceResync = s.iceResync := rfl
@[simp] theorem State.setFld_elapsed : (s.setFld a l w x).elapsed = s.elapsed := rfl
@[simp] theorem State.setFld_sns : (s.setFld a l w x).sns = s.sns := rfl
@[simp] theorem State.setFld_pwr : (s.setFld a l w x).pwr = s.pwr := rfl
@[simp] theorem State.setFld_sfe : (s.setFld a l w x).sfe = s.sfe := rfl
@[simp] theorem State.setFld_streams : (s.setFld a l w x).streams = s.streams := rfl
@[simp] theorem State.setFld_rawIn : (s.setFld a l w x).rawIn = s.rawIn := rfl
@[simp] theorem State.setFld_spi : (s.setFld a l w x).spi = s.spi := rfl
@[simp] theorem State.setFld_i2c : (s.setFld a l w x).i2c = s.i2c := rfl
@[simp] theorem State.setFld_trainFrom : (s.setFld a l w x).trainFrom = s.trainFrom := rfl
@[simp] theorem State.setFld_timecode : (s.setFld a l w x).timecode = s.timecode := rfl
@[simp] theorem State.setFld_isoStreams : (s.setFld a l w x).isoStreams = s.isoStreams := rfl
@[simp] theorem State.setFld_rcn : (s.setFld a l w x).rcn = s.rcn := rfl
@[simp] theorem State.setFld_integ : (s.setFld a l w x).integ = s.integ := rfl
@[simp] theorem State.setFld_stats : (s.setFld a l w x).stats = s.stats := rfl
@[simp] theorem State.setFld_statFrame : (s.setFld a l w x).statFrame = s.statFrame := rfl
@[simp] theorem State.setFld_ebeIn : (s.setFld a l w x).ebeIn = s.ebeIn := rfl
@[simp] theorem State.setFld_orgIn : (s.setFld a l w x).orgIn = s.orgIn := rfl
@[simp] theorem State.setFld_orgInB : (s.setFld a l w x).orgInB = s.orgInB := rfl
@[simp] theorem State.setFld_ebe : (s.setFld a l w x).ebe = s.ebe := rfl
@[simp] theorem State.setFld_ebd : (s.setFld a l w x).ebd = s.ebd := rfl
@[simp] theorem State.setFld_bth : (s.setFld a l w x).bth = s.bth := rfl
@[simp] theorem State.setFld_ofc : (s.setFld a l w x).ofc = s.ofc := rfl
@[simp] theorem State.setFld_org : (s.setFld a l w x).org = s.org := rfl
@[simp] theorem State.setFld_orgStats : (s.setFld a l w x).orgStats = s.orgStats := rfl
@[simp] theorem State.setFld_orgStatCount : (s.setFld a l w x).orgStatCount = s.orgStatCount := rfl
@[simp] theorem State.setFld_tables : (s.setFld a l w x).tables = s.tables := rfl
@[simp] theorem State.setFld_load : (s.setFld a l w x).load = s.load := rfl
@[simp] theorem State.setFld_views : (s.setFld a l w x).views = s.views := rfl
@[simp] theorem State.setFld_parterre : (s.setFld a l w x).parterre = s.parterre := rfl
@[simp] theorem State.setFld_newest : (s.setFld a l w x).newest = s.newest := rfl
@[simp] theorem State.setFld_bufHolds : (s.setFld a l w x).bufHolds = s.bufHolds := rfl
@[simp] theorem State.setFld_glass : (s.setFld a l w x).glass = s.glass := rfl
@[simp] theorem State.setFld_sdi : (s.setFld a l w x).sdi = s.sdi := rfl
@[simp] theorem State.setFld_blv : (s.setFld a l w x).blv = s.blv := rfl
@[simp] theorem State.setFld_sun : (s.setFld a l w x).sun = s.sun := rfl
@[simp] theorem State.setFld_net : (s.setFld a l w x).net = s.net := rfl
@[simp] theorem State.setFld_bnd : (s.setFld a l w x).bnd = s.bnd := rfl
@[simp] theorem State.setFld_arb : (s.setFld a l w x).arb = s.arb := rfl
@[simp] theorem State.setFld_links : (s.setFld a l w x).links = s.links := rfl
@[simp] theorem State.setFld_outbox : (s.setFld a l w x).outbox = s.outbox := rfl
@[simp] theorem State.setFld_freeCount : (s.setFld a l w x).freeCount = s.freeCount := rfl
@[simp] theorem State.setFld_pending : (s.setFld a l w x).pending = s.pending := rfl

end setFldFields

section bumpFields
variable (s : State) (a : Nat)

@[simp] theorem State.bump_regs : (s.bump a).regs = s.regs.putN a (satInc 32 (s.rd a)) := rfl
@[simp] theorem State.bump_shadow : (s.bump a).shadow = s.shadow := rfl
@[simp] theorem State.bump_latches : (s.bump a).latches = s.latches := rfl
@[simp] theorem State.bump_time : (s.bump a).time = s.time := rfl
@[simp] theorem State.bump_due : (s.bump a).due = s.due := rfl
@[simp] theorem State.bump_scheduled : (s.bump a).scheduled = s.scheduled := rfl
@[simp] theorem State.bump_kiosk : (s.bump a).kiosk = s.kiosk := rfl
@[simp] theorem State.bump_gth : (s.bump a).gth = s.gth := rfl
@[simp] theorem State.bump_qpb : (s.bump a).qpb = s.qpb := rfl
@[simp] theorem State.bump_held : (s.bump a).held = s.held := rfl
@[simp] theorem State.bump_reports : (s.bump a).reports = s.reports := rfl
@[simp] theorem State.bump_records : (s.bump a).records = s.records := rfl
@[simp] theorem State.bump_lost : (s.bump a).lost = s.lost := rfl
@[simp] theorem State.bump_irq : (s.bump a).irq = s.irq := rfl
@[simp] theorem State.bump_stopped : (s.bump a).stopped = s.stopped := rfl
@[simp] theorem State.bump_stalled : (s.bump a).stalled = s.stalled := rfl
@[simp] theorem State.bump_dram : (s.bump a).dram = s.dram := rfl
@[simp] theorem State.bump_trl : (s.bump a).trl = s.trl := rfl
@[simp] theorem State.bump_mem : (s.bump a).mem = s.mem := rfl
@[simp] theorem State.bump_dov : (s.bump a).dov = s.dov := rfl
@[simp] theorem State.bump_pwm : (s.bump a).pwm = s.pwm := rfl
@[simp] theorem State.bump_iceResync : (s.bump a).iceResync = s.iceResync := rfl
@[simp] theorem State.bump_elapsed : (s.bump a).elapsed = s.elapsed := rfl
@[simp] theorem State.bump_sns : (s.bump a).sns = s.sns := rfl
@[simp] theorem State.bump_pwr : (s.bump a).pwr = s.pwr := rfl
@[simp] theorem State.bump_sfe : (s.bump a).sfe = s.sfe := rfl
@[simp] theorem State.bump_streams : (s.bump a).streams = s.streams := rfl
@[simp] theorem State.bump_rawIn : (s.bump a).rawIn = s.rawIn := rfl
@[simp] theorem State.bump_spi : (s.bump a).spi = s.spi := rfl
@[simp] theorem State.bump_i2c : (s.bump a).i2c = s.i2c := rfl
@[simp] theorem State.bump_trainFrom : (s.bump a).trainFrom = s.trainFrom := rfl
@[simp] theorem State.bump_timecode : (s.bump a).timecode = s.timecode := rfl
@[simp] theorem State.bump_isoStreams : (s.bump a).isoStreams = s.isoStreams := rfl
@[simp] theorem State.bump_rcn : (s.bump a).rcn = s.rcn := rfl
@[simp] theorem State.bump_integ : (s.bump a).integ = s.integ := rfl
@[simp] theorem State.bump_stats : (s.bump a).stats = s.stats := rfl
@[simp] theorem State.bump_statFrame : (s.bump a).statFrame = s.statFrame := rfl
@[simp] theorem State.bump_ebeIn : (s.bump a).ebeIn = s.ebeIn := rfl
@[simp] theorem State.bump_orgIn : (s.bump a).orgIn = s.orgIn := rfl
@[simp] theorem State.bump_orgInB : (s.bump a).orgInB = s.orgInB := rfl
@[simp] theorem State.bump_ebe : (s.bump a).ebe = s.ebe := rfl
@[simp] theorem State.bump_ebd : (s.bump a).ebd = s.ebd := rfl
@[simp] theorem State.bump_bth : (s.bump a).bth = s.bth := rfl
@[simp] theorem State.bump_ofc : (s.bump a).ofc = s.ofc := rfl
@[simp] theorem State.bump_org : (s.bump a).org = s.org := rfl
@[simp] theorem State.bump_orgStats : (s.bump a).orgStats = s.orgStats := rfl
@[simp] theorem State.bump_orgStatCount : (s.bump a).orgStatCount = s.orgStatCount := rfl
@[simp] theorem State.bump_tables : (s.bump a).tables = s.tables := rfl
@[simp] theorem State.bump_load : (s.bump a).load = s.load := rfl
@[simp] theorem State.bump_views : (s.bump a).views = s.views := rfl
@[simp] theorem State.bump_parterre : (s.bump a).parterre = s.parterre := rfl
@[simp] theorem State.bump_newest : (s.bump a).newest = s.newest := rfl
@[simp] theorem State.bump_bufHolds : (s.bump a).bufHolds = s.bufHolds := rfl
@[simp] theorem State.bump_glass : (s.bump a).glass = s.glass := rfl
@[simp] theorem State.bump_sdi : (s.bump a).sdi = s.sdi := rfl
@[simp] theorem State.bump_blv : (s.bump a).blv = s.blv := rfl
@[simp] theorem State.bump_sun : (s.bump a).sun = s.sun := rfl
@[simp] theorem State.bump_net : (s.bump a).net = s.net := rfl
@[simp] theorem State.bump_bnd : (s.bump a).bnd = s.bnd := rfl
@[simp] theorem State.bump_arb : (s.bump a).arb = s.arb := rfl
@[simp] theorem State.bump_links : (s.bump a).links = s.links := rfl
@[simp] theorem State.bump_outbox : (s.bump a).outbox = s.outbox := rfl
@[simp] theorem State.bump_freeCount : (s.bump a).freeCount = s.freeCount := rfl
@[simp] theorem State.bump_pending : (s.bump a).pending = s.pending := rfl

end bumpFields

section bumpByFields
variable (s : State) (a n : Nat)

@[simp] theorem State.bumpBy_regs : (s.bumpBy a n).regs = s.regs.putN a (satAdd 32 (s.rd a) n) := rfl
@[simp] theorem State.bumpBy_shadow : (s.bumpBy a n).shadow = s.shadow := rfl
@[simp] theorem State.bumpBy_latches : (s.bumpBy a n).latches = s.latches := rfl
@[simp] theorem State.bumpBy_time : (s.bumpBy a n).time = s.time := rfl
@[simp] theorem State.bumpBy_due : (s.bumpBy a n).due = s.due := rfl
@[simp] theorem State.bumpBy_scheduled : (s.bumpBy a n).scheduled = s.scheduled := rfl
@[simp] theorem State.bumpBy_kiosk : (s.bumpBy a n).kiosk = s.kiosk := rfl
@[simp] theorem State.bumpBy_gth : (s.bumpBy a n).gth = s.gth := rfl
@[simp] theorem State.bumpBy_qpb : (s.bumpBy a n).qpb = s.qpb := rfl
@[simp] theorem State.bumpBy_held : (s.bumpBy a n).held = s.held := rfl
@[simp] theorem State.bumpBy_reports : (s.bumpBy a n).reports = s.reports := rfl
@[simp] theorem State.bumpBy_records : (s.bumpBy a n).records = s.records := rfl
@[simp] theorem State.bumpBy_lost : (s.bumpBy a n).lost = s.lost := rfl
@[simp] theorem State.bumpBy_irq : (s.bumpBy a n).irq = s.irq := rfl
@[simp] theorem State.bumpBy_stopped : (s.bumpBy a n).stopped = s.stopped := rfl
@[simp] theorem State.bumpBy_stalled : (s.bumpBy a n).stalled = s.stalled := rfl
@[simp] theorem State.bumpBy_dram : (s.bumpBy a n).dram = s.dram := rfl
@[simp] theorem State.bumpBy_trl : (s.bumpBy a n).trl = s.trl := rfl
@[simp] theorem State.bumpBy_mem : (s.bumpBy a n).mem = s.mem := rfl
@[simp] theorem State.bumpBy_dov : (s.bumpBy a n).dov = s.dov := rfl
@[simp] theorem State.bumpBy_pwm : (s.bumpBy a n).pwm = s.pwm := rfl
@[simp] theorem State.bumpBy_iceResync : (s.bumpBy a n).iceResync = s.iceResync := rfl
@[simp] theorem State.bumpBy_elapsed : (s.bumpBy a n).elapsed = s.elapsed := rfl
@[simp] theorem State.bumpBy_sns : (s.bumpBy a n).sns = s.sns := rfl
@[simp] theorem State.bumpBy_pwr : (s.bumpBy a n).pwr = s.pwr := rfl
@[simp] theorem State.bumpBy_sfe : (s.bumpBy a n).sfe = s.sfe := rfl
@[simp] theorem State.bumpBy_streams : (s.bumpBy a n).streams = s.streams := rfl
@[simp] theorem State.bumpBy_rawIn : (s.bumpBy a n).rawIn = s.rawIn := rfl
@[simp] theorem State.bumpBy_spi : (s.bumpBy a n).spi = s.spi := rfl
@[simp] theorem State.bumpBy_i2c : (s.bumpBy a n).i2c = s.i2c := rfl
@[simp] theorem State.bumpBy_trainFrom : (s.bumpBy a n).trainFrom = s.trainFrom := rfl
@[simp] theorem State.bumpBy_timecode : (s.bumpBy a n).timecode = s.timecode := rfl
@[simp] theorem State.bumpBy_isoStreams : (s.bumpBy a n).isoStreams = s.isoStreams := rfl
@[simp] theorem State.bumpBy_rcn : (s.bumpBy a n).rcn = s.rcn := rfl
@[simp] theorem State.bumpBy_integ : (s.bumpBy a n).integ = s.integ := rfl
@[simp] theorem State.bumpBy_stats : (s.bumpBy a n).stats = s.stats := rfl
@[simp] theorem State.bumpBy_statFrame : (s.bumpBy a n).statFrame = s.statFrame := rfl
@[simp] theorem State.bumpBy_ebeIn : (s.bumpBy a n).ebeIn = s.ebeIn := rfl
@[simp] theorem State.bumpBy_orgIn : (s.bumpBy a n).orgIn = s.orgIn := rfl
@[simp] theorem State.bumpBy_orgInB : (s.bumpBy a n).orgInB = s.orgInB := rfl
@[simp] theorem State.bumpBy_ebe : (s.bumpBy a n).ebe = s.ebe := rfl
@[simp] theorem State.bumpBy_ebd : (s.bumpBy a n).ebd = s.ebd := rfl
@[simp] theorem State.bumpBy_bth : (s.bumpBy a n).bth = s.bth := rfl
@[simp] theorem State.bumpBy_ofc : (s.bumpBy a n).ofc = s.ofc := rfl
@[simp] theorem State.bumpBy_org : (s.bumpBy a n).org = s.org := rfl
@[simp] theorem State.bumpBy_orgStats : (s.bumpBy a n).orgStats = s.orgStats := rfl
@[simp] theorem State.bumpBy_orgStatCount : (s.bumpBy a n).orgStatCount = s.orgStatCount := rfl
@[simp] theorem State.bumpBy_tables : (s.bumpBy a n).tables = s.tables := rfl
@[simp] theorem State.bumpBy_load : (s.bumpBy a n).load = s.load := rfl
@[simp] theorem State.bumpBy_views : (s.bumpBy a n).views = s.views := rfl
@[simp] theorem State.bumpBy_parterre : (s.bumpBy a n).parterre = s.parterre := rfl
@[simp] theorem State.bumpBy_newest : (s.bumpBy a n).newest = s.newest := rfl
@[simp] theorem State.bumpBy_bufHolds : (s.bumpBy a n).bufHolds = s.bufHolds := rfl
@[simp] theorem State.bumpBy_glass : (s.bumpBy a n).glass = s.glass := rfl
@[simp] theorem State.bumpBy_sdi : (s.bumpBy a n).sdi = s.sdi := rfl
@[simp] theorem State.bumpBy_blv : (s.bumpBy a n).blv = s.blv := rfl
@[simp] theorem State.bumpBy_sun : (s.bumpBy a n).sun = s.sun := rfl
@[simp] theorem State.bumpBy_net : (s.bumpBy a n).net = s.net := rfl
@[simp] theorem State.bumpBy_bnd : (s.bumpBy a n).bnd = s.bnd := rfl
@[simp] theorem State.bumpBy_arb : (s.bumpBy a n).arb = s.arb := rfl
@[simp] theorem State.bumpBy_links : (s.bumpBy a n).links = s.links := rfl
@[simp] theorem State.bumpBy_outbox : (s.bumpBy a n).outbox = s.outbox := rfl
@[simp] theorem State.bumpBy_freeCount : (s.bumpBy a n).freeCount = s.freeCount := rfl
@[simp] theorem State.bumpBy_pending : (s.bumpBy a n).pending = s.pending := rfl

end bumpByFields

section emitFields
variable (s : State) (o : Output)

@[simp] theorem State.emit_regs : (s.emit o).regs = s.regs := rfl
@[simp] theorem State.emit_shadow : (s.emit o).shadow = s.shadow := rfl
@[simp] theorem State.emit_latches : (s.emit o).latches = s.latches := rfl
@[simp] theorem State.emit_time : (s.emit o).time = s.time := rfl
@[simp] theorem State.emit_due : (s.emit o).due = s.due := rfl
@[simp] theorem State.emit_scheduled : (s.emit o).scheduled = s.scheduled := rfl
@[simp] theorem State.emit_kiosk : (s.emit o).kiosk = s.kiosk := rfl
@[simp] theorem State.emit_gth : (s.emit o).gth = s.gth := rfl
@[simp] theorem State.emit_qpb : (s.emit o).qpb = s.qpb := rfl
@[simp] theorem State.emit_held : (s.emit o).held = s.held := rfl
@[simp] theorem State.emit_reports : (s.emit o).reports = s.reports := rfl
@[simp] theorem State.emit_records : (s.emit o).records = s.records := rfl
@[simp] theorem State.emit_lost : (s.emit o).lost = s.lost := rfl
@[simp] theorem State.emit_irq : (s.emit o).irq = s.irq := rfl
@[simp] theorem State.emit_stopped : (s.emit o).stopped = s.stopped := rfl
@[simp] theorem State.emit_stalled : (s.emit o).stalled = s.stalled := rfl
@[simp] theorem State.emit_dram : (s.emit o).dram = s.dram := rfl
@[simp] theorem State.emit_trl : (s.emit o).trl = s.trl := rfl
@[simp] theorem State.emit_mem : (s.emit o).mem = s.mem := rfl
@[simp] theorem State.emit_dov : (s.emit o).dov = s.dov := rfl
@[simp] theorem State.emit_pwm : (s.emit o).pwm = s.pwm := rfl
@[simp] theorem State.emit_iceResync : (s.emit o).iceResync = s.iceResync := rfl
@[simp] theorem State.emit_elapsed : (s.emit o).elapsed = s.elapsed := rfl
@[simp] theorem State.emit_sns : (s.emit o).sns = s.sns := rfl
@[simp] theorem State.emit_pwr : (s.emit o).pwr = s.pwr := rfl
@[simp] theorem State.emit_sfe : (s.emit o).sfe = s.sfe := rfl
@[simp] theorem State.emit_streams : (s.emit o).streams = s.streams := rfl
@[simp] theorem State.emit_rawIn : (s.emit o).rawIn = s.rawIn := rfl
@[simp] theorem State.emit_spi : (s.emit o).spi = s.spi := rfl
@[simp] theorem State.emit_i2c : (s.emit o).i2c = s.i2c := rfl
@[simp] theorem State.emit_trainFrom : (s.emit o).trainFrom = s.trainFrom := rfl
@[simp] theorem State.emit_timecode : (s.emit o).timecode = s.timecode := rfl
@[simp] theorem State.emit_isoStreams : (s.emit o).isoStreams = s.isoStreams := rfl
@[simp] theorem State.emit_rcn : (s.emit o).rcn = s.rcn := rfl
@[simp] theorem State.emit_integ : (s.emit o).integ = s.integ := rfl
@[simp] theorem State.emit_stats : (s.emit o).stats = s.stats := rfl
@[simp] theorem State.emit_statFrame : (s.emit o).statFrame = s.statFrame := rfl
@[simp] theorem State.emit_ebeIn : (s.emit o).ebeIn = s.ebeIn := rfl
@[simp] theorem State.emit_orgIn : (s.emit o).orgIn = s.orgIn := rfl
@[simp] theorem State.emit_orgInB : (s.emit o).orgInB = s.orgInB := rfl
@[simp] theorem State.emit_ebe : (s.emit o).ebe = s.ebe := rfl
@[simp] theorem State.emit_ebd : (s.emit o).ebd = s.ebd := rfl
@[simp] theorem State.emit_bth : (s.emit o).bth = s.bth := rfl
@[simp] theorem State.emit_ofc : (s.emit o).ofc = s.ofc := rfl
@[simp] theorem State.emit_org : (s.emit o).org = s.org := rfl
@[simp] theorem State.emit_orgStats : (s.emit o).orgStats = s.orgStats := rfl
@[simp] theorem State.emit_orgStatCount : (s.emit o).orgStatCount = s.orgStatCount := rfl
@[simp] theorem State.emit_tables : (s.emit o).tables = s.tables := rfl
@[simp] theorem State.emit_load : (s.emit o).load = s.load := rfl
@[simp] theorem State.emit_views : (s.emit o).views = s.views := rfl
@[simp] theorem State.emit_parterre : (s.emit o).parterre = s.parterre := rfl
@[simp] theorem State.emit_newest : (s.emit o).newest = s.newest := rfl
@[simp] theorem State.emit_bufHolds : (s.emit o).bufHolds = s.bufHolds := rfl
@[simp] theorem State.emit_glass : (s.emit o).glass = s.glass := rfl
@[simp] theorem State.emit_sdi : (s.emit o).sdi = s.sdi := rfl
@[simp] theorem State.emit_blv : (s.emit o).blv = s.blv := rfl
@[simp] theorem State.emit_sun : (s.emit o).sun = s.sun := rfl
@[simp] theorem State.emit_net : (s.emit o).net = s.net := rfl
@[simp] theorem State.emit_bnd : (s.emit o).bnd = s.bnd := rfl
@[simp] theorem State.emit_arb : (s.emit o).arb = s.arb := rfl
@[simp] theorem State.emit_links : (s.emit o).links = s.links := rfl
@[simp] theorem State.emit_outbox : (s.emit o).outbox = s.outbox ++ [o] := rfl
@[simp] theorem State.emit_freeCount : (s.emit o).freeCount = s.freeCount := rfl
@[simp] theorem State.emit_pending : (s.emit o).pending = s.pending := rfl

end emitFields

section holdFields
variable (s : State) (h : Held)

@[simp] theorem State.hold_regs : (s.hold h).regs = s.regs := rfl
@[simp] theorem State.hold_shadow : (s.hold h).shadow = s.shadow := rfl
@[simp] theorem State.hold_latches : (s.hold h).latches = s.latches := rfl
@[simp] theorem State.hold_time : (s.hold h).time = s.time := rfl
@[simp] theorem State.hold_due : (s.hold h).due = s.due := rfl
@[simp] theorem State.hold_scheduled : (s.hold h).scheduled = s.scheduled := rfl
@[simp] theorem State.hold_kiosk : (s.hold h).kiosk = s.kiosk := rfl
@[simp] theorem State.hold_gth : (s.hold h).gth = s.gth := rfl
@[simp] theorem State.hold_qpb : (s.hold h).qpb = s.qpb := rfl
@[simp] theorem State.hold_held : (s.hold h).held = s.held.filter (fun x => decide (x ≠ h)) ++ [h] := rfl
@[simp] theorem State.hold_reports : (s.hold h).reports = s.reports := rfl
@[simp] theorem State.hold_records : (s.hold h).records = s.records := rfl
@[simp] theorem State.hold_lost : (s.hold h).lost = s.lost := rfl
@[simp] theorem State.hold_irq : (s.hold h).irq = s.irq := rfl
@[simp] theorem State.hold_stopped : (s.hold h).stopped = s.stopped := rfl
@[simp] theorem State.hold_stalled : (s.hold h).stalled = s.stalled := rfl
@[simp] theorem State.hold_dram : (s.hold h).dram = s.dram := rfl
@[simp] theorem State.hold_trl : (s.hold h).trl = s.trl := rfl
@[simp] theorem State.hold_mem : (s.hold h).mem = s.mem := rfl
@[simp] theorem State.hold_dov : (s.hold h).dov = s.dov := rfl
@[simp] theorem State.hold_pwm : (s.hold h).pwm = s.pwm := rfl
@[simp] theorem State.hold_iceResync : (s.hold h).iceResync = s.iceResync := rfl
@[simp] theorem State.hold_elapsed : (s.hold h).elapsed = s.elapsed := rfl
@[simp] theorem State.hold_sns : (s.hold h).sns = s.sns := rfl
@[simp] theorem State.hold_pwr : (s.hold h).pwr = s.pwr := rfl
@[simp] theorem State.hold_sfe : (s.hold h).sfe = s.sfe := rfl
@[simp] theorem State.hold_streams : (s.hold h).streams = s.streams := rfl
@[simp] theorem State.hold_rawIn : (s.hold h).rawIn = s.rawIn := rfl
@[simp] theorem State.hold_spi : (s.hold h).spi = s.spi := rfl
@[simp] theorem State.hold_i2c : (s.hold h).i2c = s.i2c := rfl
@[simp] theorem State.hold_trainFrom : (s.hold h).trainFrom = s.trainFrom := rfl
@[simp] theorem State.hold_timecode : (s.hold h).timecode = s.timecode := rfl
@[simp] theorem State.hold_isoStreams : (s.hold h).isoStreams = s.isoStreams := rfl
@[simp] theorem State.hold_rcn : (s.hold h).rcn = s.rcn := rfl
@[simp] theorem State.hold_integ : (s.hold h).integ = s.integ := rfl
@[simp] theorem State.hold_stats : (s.hold h).stats = s.stats := rfl
@[simp] theorem State.hold_statFrame : (s.hold h).statFrame = s.statFrame := rfl
@[simp] theorem State.hold_ebeIn : (s.hold h).ebeIn = s.ebeIn := rfl
@[simp] theorem State.hold_orgIn : (s.hold h).orgIn = s.orgIn := rfl
@[simp] theorem State.hold_orgInB : (s.hold h).orgInB = s.orgInB := rfl
@[simp] theorem State.hold_ebe : (s.hold h).ebe = s.ebe := rfl
@[simp] theorem State.hold_ebd : (s.hold h).ebd = s.ebd := rfl
@[simp] theorem State.hold_bth : (s.hold h).bth = s.bth := rfl
@[simp] theorem State.hold_ofc : (s.hold h).ofc = s.ofc := rfl
@[simp] theorem State.hold_org : (s.hold h).org = s.org := rfl
@[simp] theorem State.hold_orgStats : (s.hold h).orgStats = s.orgStats := rfl
@[simp] theorem State.hold_orgStatCount : (s.hold h).orgStatCount = s.orgStatCount := rfl
@[simp] theorem State.hold_tables : (s.hold h).tables = s.tables := rfl
@[simp] theorem State.hold_load : (s.hold h).load = s.load := rfl
@[simp] theorem State.hold_views : (s.hold h).views = s.views := rfl
@[simp] theorem State.hold_parterre : (s.hold h).parterre = s.parterre := rfl
@[simp] theorem State.hold_newest : (s.hold h).newest = s.newest := rfl
@[simp] theorem State.hold_bufHolds : (s.hold h).bufHolds = s.bufHolds := rfl
@[simp] theorem State.hold_glass : (s.hold h).glass = s.glass := rfl
@[simp] theorem State.hold_sdi : (s.hold h).sdi = s.sdi := rfl
@[simp] theorem State.hold_blv : (s.hold h).blv = s.blv := rfl
@[simp] theorem State.hold_sun : (s.hold h).sun = s.sun := rfl
@[simp] theorem State.hold_net : (s.hold h).net = s.net := rfl
@[simp] theorem State.hold_bnd : (s.hold h).bnd = s.bnd := rfl
@[simp] theorem State.hold_arb : (s.hold h).arb = s.arb := rfl
@[simp] theorem State.hold_links : (s.hold h).links = s.links := rfl
@[simp] theorem State.hold_outbox : (s.hold h).outbox = s.outbox := rfl
@[simp] theorem State.hold_freeCount : (s.hold h).freeCount = s.freeCount := rfl
@[simp] theorem State.hold_pending : (s.hold h).pending = s.pending := rfl

end holdFields

section reportFields
variable (s : State) (u c k : Nat)

@[simp] theorem State.report_regs : (s.report u c k).regs = s.regs := rfl
@[simp] theorem State.report_shadow : (s.report u c k).shadow = s.shadow := rfl
@[simp] theorem State.report_latches : (s.report u c k).latches = s.latches := rfl
@[simp] theorem State.report_time : (s.report u c k).time = s.time := rfl
@[simp] theorem State.report_due : (s.report u c k).due = s.due := rfl
@[simp] theorem State.report_scheduled : (s.report u c k).scheduled = s.scheduled := rfl
@[simp] theorem State.report_kiosk : (s.report u c k).kiosk = s.kiosk := rfl
@[simp] theorem State.report_gth : (s.report u c k).gth = s.gth := rfl
@[simp] theorem State.report_qpb : (s.report u c k).qpb = s.qpb := rfl
@[simp] theorem State.report_held : (s.report u c k).held = s.held := rfl
@[simp] theorem State.report_reports : (s.report u c k).reports = s.reports ++ [{ unit := u, cause := c, code := k, time := s.now }] := rfl
@[simp] theorem State.report_records : (s.report u c k).records = s.records := rfl
@[simp] theorem State.report_lost : (s.report u c k).lost = s.lost := rfl
@[simp] theorem State.report_irq : (s.report u c k).irq = s.irq := rfl
@[simp] theorem State.report_stopped : (s.report u c k).stopped = s.stopped := rfl
@[simp] theorem State.report_stalled : (s.report u c k).stalled = s.stalled := rfl
@[simp] theorem State.report_dram : (s.report u c k).dram = s.dram := rfl
@[simp] theorem State.report_trl : (s.report u c k).trl = s.trl := rfl
@[simp] theorem State.report_mem : (s.report u c k).mem = s.mem := rfl
@[simp] theorem State.report_dov : (s.report u c k).dov = s.dov := rfl
@[simp] theorem State.report_pwm : (s.report u c k).pwm = s.pwm := rfl
@[simp] theorem State.report_iceResync : (s.report u c k).iceResync = s.iceResync := rfl
@[simp] theorem State.report_elapsed : (s.report u c k).elapsed = s.elapsed := rfl
@[simp] theorem State.report_sns : (s.report u c k).sns = s.sns := rfl
@[simp] theorem State.report_pwr : (s.report u c k).pwr = s.pwr := rfl
@[simp] theorem State.report_sfe : (s.report u c k).sfe = s.sfe := rfl
@[simp] theorem State.report_streams : (s.report u c k).streams = s.streams := rfl
@[simp] theorem State.report_rawIn : (s.report u c k).rawIn = s.rawIn := rfl
@[simp] theorem State.report_spi : (s.report u c k).spi = s.spi := rfl
@[simp] theorem State.report_i2c : (s.report u c k).i2c = s.i2c := rfl
@[simp] theorem State.report_trainFrom : (s.report u c k).trainFrom = s.trainFrom := rfl
@[simp] theorem State.report_timecode : (s.report u c k).timecode = s.timecode := rfl
@[simp] theorem State.report_isoStreams : (s.report u c k).isoStreams = s.isoStreams := rfl
@[simp] theorem State.report_rcn : (s.report u c k).rcn = s.rcn := rfl
@[simp] theorem State.report_integ : (s.report u c k).integ = s.integ := rfl
@[simp] theorem State.report_stats : (s.report u c k).stats = s.stats := rfl
@[simp] theorem State.report_statFrame : (s.report u c k).statFrame = s.statFrame := rfl
@[simp] theorem State.report_ebeIn : (s.report u c k).ebeIn = s.ebeIn := rfl
@[simp] theorem State.report_orgIn : (s.report u c k).orgIn = s.orgIn := rfl
@[simp] theorem State.report_orgInB : (s.report u c k).orgInB = s.orgInB := rfl
@[simp] theorem State.report_ebe : (s.report u c k).ebe = s.ebe := rfl
@[simp] theorem State.report_ebd : (s.report u c k).ebd = s.ebd := rfl
@[simp] theorem State.report_bth : (s.report u c k).bth = s.bth := rfl
@[simp] theorem State.report_ofc : (s.report u c k).ofc = s.ofc := rfl
@[simp] theorem State.report_org : (s.report u c k).org = s.org := rfl
@[simp] theorem State.report_orgStats : (s.report u c k).orgStats = s.orgStats := rfl
@[simp] theorem State.report_orgStatCount : (s.report u c k).orgStatCount = s.orgStatCount := rfl
@[simp] theorem State.report_tables : (s.report u c k).tables = s.tables := rfl
@[simp] theorem State.report_load : (s.report u c k).load = s.load := rfl
@[simp] theorem State.report_views : (s.report u c k).views = s.views := rfl
@[simp] theorem State.report_parterre : (s.report u c k).parterre = s.parterre := rfl
@[simp] theorem State.report_newest : (s.report u c k).newest = s.newest := rfl
@[simp] theorem State.report_bufHolds : (s.report u c k).bufHolds = s.bufHolds := rfl
@[simp] theorem State.report_glass : (s.report u c k).glass = s.glass := rfl
@[simp] theorem State.report_sdi : (s.report u c k).sdi = s.sdi := rfl
@[simp] theorem State.report_blv : (s.report u c k).blv = s.blv := rfl
@[simp] theorem State.report_sun : (s.report u c k).sun = s.sun := rfl
@[simp] theorem State.report_net : (s.report u c k).net = s.net := rfl
@[simp] theorem State.report_bnd : (s.report u c k).bnd = s.bnd := rfl
@[simp] theorem State.report_arb : (s.report u c k).arb = s.arb := rfl
@[simp] theorem State.report_links : (s.report u c k).links = s.links := rfl
@[simp] theorem State.report_outbox : (s.report u c k).outbox = s.outbox := rfl
@[simp] theorem State.report_freeCount : (s.report u c k).freeCount = s.freeCount := rfl
@[simp] theorem State.report_pending : (s.report u c k).pending = s.pending := rfl

end reportFields

section eventFields
variable (s : State) (u c k : Nat)

@[simp] theorem State.event_regs : (s.event u c k).regs = s.regs := rfl
@[simp] theorem State.event_shadow : (s.event u c k).shadow = s.shadow := rfl
@[simp] theorem State.event_latches : (s.event u c k).latches = s.latches := rfl
@[simp] theorem State.event_time : (s.event u c k).time = s.time := rfl
@[simp] theorem State.event_due : (s.event u c k).due = s.due := rfl
@[simp] theorem State.event_scheduled : (s.event u c k).scheduled = s.scheduled := rfl
@[simp] theorem State.event_kiosk : (s.event u c k).kiosk = s.kiosk := rfl
@[simp] theorem State.event_gth : (s.event u c k).gth = s.gth := rfl
@[simp] theorem State.event_qpb : (s.event u c k).qpb = s.qpb := rfl
@[simp] theorem State.event_records : (s.event u c k).records = s.records := rfl
@[simp] theorem State.event_lost : (s.event u c k).lost = s.lost := rfl
@[simp] theorem State.event_irq : (s.event u c k).irq = s.irq := rfl
@[simp] theorem State.event_stopped : (s.event u c k).stopped = s.stopped := rfl
@[simp] theorem State.event_stalled : (s.event u c k).stalled = s.stalled := rfl
@[simp] theorem State.event_dram : (s.event u c k).dram = s.dram := rfl
@[simp] theorem State.event_trl : (s.event u c k).trl = s.trl := rfl
@[simp] theorem State.event_mem : (s.event u c k).mem = s.mem := rfl
@[simp] theorem State.event_dov : (s.event u c k).dov = s.dov := rfl
@[simp] theorem State.event_pwm : (s.event u c k).pwm = s.pwm := rfl
@[simp] theorem State.event_iceResync : (s.event u c k).iceResync = s.iceResync := rfl
@[simp] theorem State.event_elapsed : (s.event u c k).elapsed = s.elapsed := rfl
@[simp] theorem State.event_sns : (s.event u c k).sns = s.sns := rfl
@[simp] theorem State.event_pwr : (s.event u c k).pwr = s.pwr := rfl
@[simp] theorem State.event_sfe : (s.event u c k).sfe = s.sfe := rfl
@[simp] theorem State.event_streams : (s.event u c k).streams = s.streams := rfl
@[simp] theorem State.event_rawIn : (s.event u c k).rawIn = s.rawIn := rfl
@[simp] theorem State.event_spi : (s.event u c k).spi = s.spi := rfl
@[simp] theorem State.event_i2c : (s.event u c k).i2c = s.i2c := rfl
@[simp] theorem State.event_trainFrom : (s.event u c k).trainFrom = s.trainFrom := rfl
@[simp] theorem State.event_timecode : (s.event u c k).timecode = s.timecode := rfl
@[simp] theorem State.event_isoStreams : (s.event u c k).isoStreams = s.isoStreams := rfl
@[simp] theorem State.event_rcn : (s.event u c k).rcn = s.rcn := rfl
@[simp] theorem State.event_integ : (s.event u c k).integ = s.integ := rfl
@[simp] theorem State.event_stats : (s.event u c k).stats = s.stats := rfl
@[simp] theorem State.event_statFrame : (s.event u c k).statFrame = s.statFrame := rfl
@[simp] theorem State.event_ebeIn : (s.event u c k).ebeIn = s.ebeIn := rfl
@[simp] theorem State.event_orgIn : (s.event u c k).orgIn = s.orgIn := rfl
@[simp] theorem State.event_orgInB : (s.event u c k).orgInB = s.orgInB := rfl
@[simp] theorem State.event_ebe : (s.event u c k).ebe = s.ebe := rfl
@[simp] theorem State.event_ebd : (s.event u c k).ebd = s.ebd := rfl
@[simp] theorem State.event_bth : (s.event u c k).bth = s.bth := rfl
@[simp] theorem State.event_ofc : (s.event u c k).ofc = s.ofc := rfl
@[simp] theorem State.event_org : (s.event u c k).org = s.org := rfl
@[simp] theorem State.event_orgStats : (s.event u c k).orgStats = s.orgStats := rfl
@[simp] theorem State.event_orgStatCount : (s.event u c k).orgStatCount = s.orgStatCount := rfl
@[simp] theorem State.event_tables : (s.event u c k).tables = s.tables := rfl
@[simp] theorem State.event_load : (s.event u c k).load = s.load := rfl
@[simp] theorem State.event_views : (s.event u c k).views = s.views := rfl
@[simp] theorem State.event_parterre : (s.event u c k).parterre = s.parterre := rfl
@[simp] theorem State.event_newest : (s.event u c k).newest = s.newest := rfl
@[simp] theorem State.event_bufHolds : (s.event u c k).bufHolds = s.bufHolds := rfl
@[simp] theorem State.event_glass : (s.event u c k).glass = s.glass := rfl
@[simp] theorem State.event_sdi : (s.event u c k).sdi = s.sdi := rfl
@[simp] theorem State.event_blv : (s.event u c k).blv = s.blv := rfl
@[simp] theorem State.event_sun : (s.event u c k).sun = s.sun := rfl
@[simp] theorem State.event_net : (s.event u c k).net = s.net := rfl
@[simp] theorem State.event_bnd : (s.event u c k).bnd = s.bnd := rfl
@[simp] theorem State.event_arb : (s.event u c k).arb = s.arb := rfl
@[simp] theorem State.event_links : (s.event u c k).links = s.links := rfl
@[simp] theorem State.event_outbox : (s.event u c k).outbox = s.outbox := rfl
@[simp] theorem State.event_freeCount : (s.event u c k).freeCount = s.freeCount := rfl
@[simp] theorem State.event_pending : (s.event u c k).pending = s.pending := rfl

end eventFields

section faultFields
variable (s : State) (u k : Nat)

@[simp] theorem State.fault_regs : (s.fault u k).regs = s.regs := rfl
@[simp] theorem State.fault_shadow : (s.fault u k).shadow = s.shadow := rfl
@[simp] theorem State.fault_latches : (s.fault u k).latches = s.latches := rfl
@[simp] theorem State.fault_time : (s.fault u k).time = s.time := rfl
@[simp] theorem State.fault_due : (s.fault u k).due = s.due := rfl
@[simp] theorem State.fault_scheduled : (s.fault u k).scheduled = s.scheduled := rfl
@[simp] theorem State.fault_kiosk : (s.fault u k).kiosk = s.kiosk := rfl
@[simp] theorem State.fault_gth : (s.fault u k).gth = s.gth := rfl
@[simp] theorem State.fault_qpb : (s.fault u k).qpb = s.qpb := rfl
@[simp] theorem State.fault_records : (s.fault u k).records = s.records := rfl
@[simp] theorem State.fault_lost : (s.fault u k).lost = s.lost := rfl
@[simp] theorem State.fault_irq : (s.fault u k).irq = s.irq := rfl
@[simp] theorem State.fault_stopped : (s.fault u k).stopped = s.stopped := rfl
@[simp] theorem State.fault_stalled : (s.fault u k).stalled = s.stalled := rfl
@[simp] theorem State.fault_dram : (s.fault u k).dram = s.dram := rfl
@[simp] theorem State.fault_trl : (s.fault u k).trl = s.trl := rfl
@[simp] theorem State.fault_mem : (s.fault u k).mem = s.mem := rfl
@[simp] theorem State.fault_dov : (s.fault u k).dov = s.dov := rfl
@[simp] theorem State.fault_pwm : (s.fault u k).pwm = s.pwm := rfl
@[simp] theorem State.fault_iceResync : (s.fault u k).iceResync = s.iceResync := rfl
@[simp] theorem State.fault_elapsed : (s.fault u k).elapsed = s.elapsed := rfl
@[simp] theorem State.fault_sns : (s.fault u k).sns = s.sns := rfl
@[simp] theorem State.fault_pwr : (s.fault u k).pwr = s.pwr := rfl
@[simp] theorem State.fault_sfe : (s.fault u k).sfe = s.sfe := rfl
@[simp] theorem State.fault_streams : (s.fault u k).streams = s.streams := rfl
@[simp] theorem State.fault_rawIn : (s.fault u k).rawIn = s.rawIn := rfl
@[simp] theorem State.fault_spi : (s.fault u k).spi = s.spi := rfl
@[simp] theorem State.fault_i2c : (s.fault u k).i2c = s.i2c := rfl
@[simp] theorem State.fault_trainFrom : (s.fault u k).trainFrom = s.trainFrom := rfl
@[simp] theorem State.fault_timecode : (s.fault u k).timecode = s.timecode := rfl
@[simp] theorem State.fault_isoStreams : (s.fault u k).isoStreams = s.isoStreams := rfl
@[simp] theorem State.fault_rcn : (s.fault u k).rcn = s.rcn := rfl
@[simp] theorem State.fault_integ : (s.fault u k).integ = s.integ := rfl
@[simp] theorem State.fault_stats : (s.fault u k).stats = s.stats := rfl
@[simp] theorem State.fault_statFrame : (s.fault u k).statFrame = s.statFrame := rfl
@[simp] theorem State.fault_ebeIn : (s.fault u k).ebeIn = s.ebeIn := rfl
@[simp] theorem State.fault_orgIn : (s.fault u k).orgIn = s.orgIn := rfl
@[simp] theorem State.fault_orgInB : (s.fault u k).orgInB = s.orgInB := rfl
@[simp] theorem State.fault_ebe : (s.fault u k).ebe = s.ebe := rfl
@[simp] theorem State.fault_ebd : (s.fault u k).ebd = s.ebd := rfl
@[simp] theorem State.fault_bth : (s.fault u k).bth = s.bth := rfl
@[simp] theorem State.fault_ofc : (s.fault u k).ofc = s.ofc := rfl
@[simp] theorem State.fault_org : (s.fault u k).org = s.org := rfl
@[simp] theorem State.fault_orgStats : (s.fault u k).orgStats = s.orgStats := rfl
@[simp] theorem State.fault_orgStatCount : (s.fault u k).orgStatCount = s.orgStatCount := rfl
@[simp] theorem State.fault_tables : (s.fault u k).tables = s.tables := rfl
@[simp] theorem State.fault_load : (s.fault u k).load = s.load := rfl
@[simp] theorem State.fault_views : (s.fault u k).views = s.views := rfl
@[simp] theorem State.fault_parterre : (s.fault u k).parterre = s.parterre := rfl
@[simp] theorem State.fault_newest : (s.fault u k).newest = s.newest := rfl
@[simp] theorem State.fault_bufHolds : (s.fault u k).bufHolds = s.bufHolds := rfl
@[simp] theorem State.fault_glass : (s.fault u k).glass = s.glass := rfl
@[simp] theorem State.fault_sdi : (s.fault u k).sdi = s.sdi := rfl
@[simp] theorem State.fault_blv : (s.fault u k).blv = s.blv := rfl
@[simp] theorem State.fault_sun : (s.fault u k).sun = s.sun := rfl
@[simp] theorem State.fault_net : (s.fault u k).net = s.net := rfl
@[simp] theorem State.fault_bnd : (s.fault u k).bnd = s.bnd := rfl
@[simp] theorem State.fault_arb : (s.fault u k).arb = s.arb := rfl
@[simp] theorem State.fault_links : (s.fault u k).links = s.links := rfl
@[simp] theorem State.fault_outbox : (s.fault u k).outbox = s.outbox := rfl
@[simp] theorem State.fault_freeCount : (s.fault u k).freeCount = s.freeCount := rfl
@[simp] theorem State.fault_pending : (s.fault u k).pending = s.pending := rfl

end faultFields

section condOffFields
variable (s : State) (u c k : Nat)

@[simp] theorem State.condOff_regs : (s.condOff u c k).regs = s.regs := rfl
@[simp] theorem State.condOff_shadow : (s.condOff u c k).shadow = s.shadow := rfl
@[simp] theorem State.condOff_latches : (s.condOff u c k).latches = s.latches := rfl
@[simp] theorem State.condOff_time : (s.condOff u c k).time = s.time := rfl
@[simp] theorem State.condOff_due : (s.condOff u c k).due = s.due := rfl
@[simp] theorem State.condOff_scheduled : (s.condOff u c k).scheduled = s.scheduled := rfl
@[simp] theorem State.condOff_kiosk : (s.condOff u c k).kiosk = s.kiosk := rfl
@[simp] theorem State.condOff_gth : (s.condOff u c k).gth = s.gth := rfl
@[simp] theorem State.condOff_qpb : (s.condOff u c k).qpb = s.qpb := rfl
@[simp] theorem State.condOff_reports : (s.condOff u c k).reports = s.reports := rfl
@[simp] theorem State.condOff_records : (s.condOff u c k).records = s.records := rfl
@[simp] theorem State.condOff_lost : (s.condOff u c k).lost = s.lost := rfl
@[simp] theorem State.condOff_irq : (s.condOff u c k).irq = s.irq := rfl
@[simp] theorem State.condOff_stopped : (s.condOff u c k).stopped = s.stopped := rfl
@[simp] theorem State.condOff_stalled : (s.condOff u c k).stalled = s.stalled := rfl
@[simp] theorem State.condOff_dram : (s.condOff u c k).dram = s.dram := rfl
@[simp] theorem State.condOff_trl : (s.condOff u c k).trl = s.trl := rfl
@[simp] theorem State.condOff_mem : (s.condOff u c k).mem = s.mem := rfl
@[simp] theorem State.condOff_dov : (s.condOff u c k).dov = s.dov := rfl
@[simp] theorem State.condOff_pwm : (s.condOff u c k).pwm = s.pwm := rfl
@[simp] theorem State.condOff_iceResync : (s.condOff u c k).iceResync = s.iceResync := rfl
@[simp] theorem State.condOff_elapsed : (s.condOff u c k).elapsed = s.elapsed := rfl
@[simp] theorem State.condOff_sns : (s.condOff u c k).sns = s.sns := rfl
@[simp] theorem State.condOff_pwr : (s.condOff u c k).pwr = s.pwr := rfl
@[simp] theorem State.condOff_sfe : (s.condOff u c k).sfe = s.sfe := rfl
@[simp] theorem State.condOff_streams : (s.condOff u c k).streams = s.streams := rfl
@[simp] theorem State.condOff_rawIn : (s.condOff u c k).rawIn = s.rawIn := rfl
@[simp] theorem State.condOff_spi : (s.condOff u c k).spi = s.spi := rfl
@[simp] theorem State.condOff_i2c : (s.condOff u c k).i2c = s.i2c := rfl
@[simp] theorem State.condOff_trainFrom : (s.condOff u c k).trainFrom = s.trainFrom := rfl
@[simp] theorem State.condOff_timecode : (s.condOff u c k).timecode = s.timecode := rfl
@[simp] theorem State.condOff_isoStreams : (s.condOff u c k).isoStreams = s.isoStreams := rfl
@[simp] theorem State.condOff_rcn : (s.condOff u c k).rcn = s.rcn := rfl
@[simp] theorem State.condOff_integ : (s.condOff u c k).integ = s.integ := rfl
@[simp] theorem State.condOff_stats : (s.condOff u c k).stats = s.stats := rfl
@[simp] theorem State.condOff_statFrame : (s.condOff u c k).statFrame = s.statFrame := rfl
@[simp] theorem State.condOff_ebeIn : (s.condOff u c k).ebeIn = s.ebeIn := rfl
@[simp] theorem State.condOff_orgIn : (s.condOff u c k).orgIn = s.orgIn := rfl
@[simp] theorem State.condOff_orgInB : (s.condOff u c k).orgInB = s.orgInB := rfl
@[simp] theorem State.condOff_ebe : (s.condOff u c k).ebe = s.ebe := rfl
@[simp] theorem State.condOff_ebd : (s.condOff u c k).ebd = s.ebd := rfl
@[simp] theorem State.condOff_bth : (s.condOff u c k).bth = s.bth := rfl
@[simp] theorem State.condOff_ofc : (s.condOff u c k).ofc = s.ofc := rfl
@[simp] theorem State.condOff_org : (s.condOff u c k).org = s.org := rfl
@[simp] theorem State.condOff_orgStats : (s.condOff u c k).orgStats = s.orgStats := rfl
@[simp] theorem State.condOff_orgStatCount : (s.condOff u c k).orgStatCount = s.orgStatCount := rfl
@[simp] theorem State.condOff_tables : (s.condOff u c k).tables = s.tables := rfl
@[simp] theorem State.condOff_load : (s.condOff u c k).load = s.load := rfl
@[simp] theorem State.condOff_views : (s.condOff u c k).views = s.views := rfl
@[simp] theorem State.condOff_parterre : (s.condOff u c k).parterre = s.parterre := rfl
@[simp] theorem State.condOff_newest : (s.condOff u c k).newest = s.newest := rfl
@[simp] theorem State.condOff_bufHolds : (s.condOff u c k).bufHolds = s.bufHolds := rfl
@[simp] theorem State.condOff_glass : (s.condOff u c k).glass = s.glass := rfl
@[simp] theorem State.condOff_sdi : (s.condOff u c k).sdi = s.sdi := rfl
@[simp] theorem State.condOff_blv : (s.condOff u c k).blv = s.blv := rfl
@[simp] theorem State.condOff_sun : (s.condOff u c k).sun = s.sun := rfl
@[simp] theorem State.condOff_net : (s.condOff u c k).net = s.net := rfl
@[simp] theorem State.condOff_bnd : (s.condOff u c k).bnd = s.bnd := rfl
@[simp] theorem State.condOff_arb : (s.condOff u c k).arb = s.arb := rfl
@[simp] theorem State.condOff_links : (s.condOff u c k).links = s.links := rfl
@[simp] theorem State.condOff_outbox : (s.condOff u c k).outbox = s.outbox := rfl
@[simp] theorem State.condOff_freeCount : (s.condOff u c k).freeCount = s.freeCount := rfl
@[simp] theorem State.condOff_pending : (s.condOff u c k).pending = s.pending := rfl

end condOffFields

section dramWriteFields
variable (s : State) (a : Nat) (bs : List Byte)

@[simp] theorem State.dramWrite_regs : (s.dramWrite a bs).regs = s.regs := rfl
@[simp] theorem State.dramWrite_shadow : (s.dramWrite a bs).shadow = s.shadow := rfl
@[simp] theorem State.dramWrite_latches : (s.dramWrite a bs).latches = s.latches := rfl
@[simp] theorem State.dramWrite_time : (s.dramWrite a bs).time = s.time := rfl
@[simp] theorem State.dramWrite_due : (s.dramWrite a bs).due = s.due := rfl
@[simp] theorem State.dramWrite_scheduled : (s.dramWrite a bs).scheduled = s.scheduled := rfl
@[simp] theorem State.dramWrite_kiosk : (s.dramWrite a bs).kiosk = s.kiosk := rfl
@[simp] theorem State.dramWrite_gth : (s.dramWrite a bs).gth = s.gth := rfl
@[simp] theorem State.dramWrite_qpb : (s.dramWrite a bs).qpb = s.qpb := rfl
@[simp] theorem State.dramWrite_held : (s.dramWrite a bs).held = s.held := rfl
@[simp] theorem State.dramWrite_reports : (s.dramWrite a bs).reports = s.reports := rfl
@[simp] theorem State.dramWrite_records : (s.dramWrite a bs).records = s.records := rfl
@[simp] theorem State.dramWrite_lost : (s.dramWrite a bs).lost = s.lost := rfl
@[simp] theorem State.dramWrite_irq : (s.dramWrite a bs).irq = s.irq := rfl
@[simp] theorem State.dramWrite_stopped : (s.dramWrite a bs).stopped = s.stopped := rfl
@[simp] theorem State.dramWrite_stalled : (s.dramWrite a bs).stalled = s.stalled := rfl
@[simp] theorem State.dramWrite_dram : (s.dramWrite a bs).dram = s.stored a bs := rfl
@[simp] theorem State.dramWrite_trl : (s.dramWrite a bs).trl = s.trl := rfl
@[simp] theorem State.dramWrite_mem : (s.dramWrite a bs).mem = s.mem := rfl
@[simp] theorem State.dramWrite_dov : (s.dramWrite a bs).dov = s.dov := rfl
@[simp] theorem State.dramWrite_pwm : (s.dramWrite a bs).pwm = s.pwm := rfl
@[simp] theorem State.dramWrite_iceResync : (s.dramWrite a bs).iceResync = s.iceResync := rfl
@[simp] theorem State.dramWrite_elapsed : (s.dramWrite a bs).elapsed = s.elapsed := rfl
@[simp] theorem State.dramWrite_sns : (s.dramWrite a bs).sns = s.sns := rfl
@[simp] theorem State.dramWrite_pwr : (s.dramWrite a bs).pwr = s.pwr := rfl
@[simp] theorem State.dramWrite_sfe : (s.dramWrite a bs).sfe = s.sfe := rfl
@[simp] theorem State.dramWrite_streams : (s.dramWrite a bs).streams = s.streams := rfl
@[simp] theorem State.dramWrite_rawIn : (s.dramWrite a bs).rawIn = s.rawIn := rfl
@[simp] theorem State.dramWrite_spi : (s.dramWrite a bs).spi = s.spi := rfl
@[simp] theorem State.dramWrite_i2c : (s.dramWrite a bs).i2c = s.i2c := rfl
@[simp] theorem State.dramWrite_trainFrom : (s.dramWrite a bs).trainFrom = s.trainFrom := rfl
@[simp] theorem State.dramWrite_timecode : (s.dramWrite a bs).timecode = s.timecode := rfl
@[simp] theorem State.dramWrite_isoStreams : (s.dramWrite a bs).isoStreams = s.isoStreams := rfl
@[simp] theorem State.dramWrite_rcn : (s.dramWrite a bs).rcn = s.rcn := rfl
@[simp] theorem State.dramWrite_integ : (s.dramWrite a bs).integ = s.integ := rfl
@[simp] theorem State.dramWrite_stats : (s.dramWrite a bs).stats = s.stats := rfl
@[simp] theorem State.dramWrite_statFrame : (s.dramWrite a bs).statFrame = s.statFrame := rfl
@[simp] theorem State.dramWrite_ebeIn : (s.dramWrite a bs).ebeIn = s.ebeIn := rfl
@[simp] theorem State.dramWrite_orgIn : (s.dramWrite a bs).orgIn = s.orgIn := rfl
@[simp] theorem State.dramWrite_orgInB : (s.dramWrite a bs).orgInB = s.orgInB := rfl
@[simp] theorem State.dramWrite_ebe : (s.dramWrite a bs).ebe = s.ebe := rfl
@[simp] theorem State.dramWrite_ebd : (s.dramWrite a bs).ebd = s.ebd := rfl
@[simp] theorem State.dramWrite_bth : (s.dramWrite a bs).bth = s.bth := rfl
@[simp] theorem State.dramWrite_ofc : (s.dramWrite a bs).ofc = s.ofc := rfl
@[simp] theorem State.dramWrite_org : (s.dramWrite a bs).org = s.org := rfl
@[simp] theorem State.dramWrite_orgStats : (s.dramWrite a bs).orgStats = s.orgStats := rfl
@[simp] theorem State.dramWrite_orgStatCount : (s.dramWrite a bs).orgStatCount = s.orgStatCount := rfl
@[simp] theorem State.dramWrite_tables : (s.dramWrite a bs).tables = s.tables := rfl
@[simp] theorem State.dramWrite_load : (s.dramWrite a bs).load = s.load := rfl
@[simp] theorem State.dramWrite_views : (s.dramWrite a bs).views = s.views := rfl
@[simp] theorem State.dramWrite_parterre : (s.dramWrite a bs).parterre = s.parterre := rfl
@[simp] theorem State.dramWrite_newest : (s.dramWrite a bs).newest = s.newest := rfl
@[simp] theorem State.dramWrite_bufHolds : (s.dramWrite a bs).bufHolds = s.bufHolds := rfl
@[simp] theorem State.dramWrite_glass : (s.dramWrite a bs).glass = s.glass := rfl
@[simp] theorem State.dramWrite_sdi : (s.dramWrite a bs).sdi = s.sdi := rfl
@[simp] theorem State.dramWrite_blv : (s.dramWrite a bs).blv = s.blv := rfl
@[simp] theorem State.dramWrite_sun : (s.dramWrite a bs).sun = s.sun := rfl
@[simp] theorem State.dramWrite_net : (s.dramWrite a bs).net = s.net := rfl
@[simp] theorem State.dramWrite_bnd : (s.dramWrite a bs).bnd = s.bnd := rfl
@[simp] theorem State.dramWrite_arb : (s.dramWrite a bs).arb = s.arb := rfl
@[simp] theorem State.dramWrite_links : (s.dramWrite a bs).links = s.links := rfl
@[simp] theorem State.dramWrite_outbox : (s.dramWrite a bs).outbox = s.outbox := rfl
@[simp] theorem State.dramWrite_freeCount : (s.dramWrite a bs).freeCount = s.freeCount := rfl
@[simp] theorem State.dramWrite_pending : (s.dramWrite a bs).pending = s.pending := rfl

end dramWriteFields

section setFlowFields
variable (s : State) (i : Nat) (f : Flow)

@[simp] theorem State.setFlow_regs : (s.setFlow i f).regs = s.regs := rfl
@[simp] theorem State.setFlow_shadow : (s.setFlow i f).shadow = s.shadow := rfl
@[simp] theorem State.setFlow_latches : (s.setFlow i f).latches = s.latches := rfl
@[simp] theorem State.setFlow_time : (s.setFlow i f).time = s.time := rfl
@[simp] theorem State.setFlow_due : (s.setFlow i f).due = s.due := rfl
@[simp] theorem State.setFlow_scheduled : (s.setFlow i f).scheduled = s.scheduled := rfl
@[simp] theorem State.setFlow_kiosk : (s.setFlow i f).kiosk = s.kiosk := rfl
@[simp] theorem State.setFlow_gth : (s.setFlow i f).gth = s.gth := rfl
@[simp] theorem State.setFlow_qpb : (s.setFlow i f).qpb = s.qpb := rfl
@[simp] theorem State.setFlow_held : (s.setFlow i f).held = s.held := rfl
@[simp] theorem State.setFlow_reports : (s.setFlow i f).reports = s.reports := rfl
@[simp] theorem State.setFlow_records : (s.setFlow i f).records = s.records := rfl
@[simp] theorem State.setFlow_lost : (s.setFlow i f).lost = s.lost := rfl
@[simp] theorem State.setFlow_irq : (s.setFlow i f).irq = s.irq := rfl
@[simp] theorem State.setFlow_stopped : (s.setFlow i f).stopped = s.stopped := rfl
@[simp] theorem State.setFlow_stalled : (s.setFlow i f).stalled = s.stalled := rfl
@[simp] theorem State.setFlow_dram : (s.setFlow i f).dram = s.dram := rfl
@[simp] theorem State.setFlow_mem : (s.setFlow i f).mem = s.mem := rfl
@[simp] theorem State.setFlow_dov : (s.setFlow i f).dov = s.dov := rfl
@[simp] theorem State.setFlow_pwm : (s.setFlow i f).pwm = s.pwm := rfl
@[simp] theorem State.setFlow_iceResync : (s.setFlow i f).iceResync = s.iceResync := rfl
@[simp] theorem State.setFlow_elapsed : (s.setFlow i f).elapsed = s.elapsed := rfl
@[simp] theorem State.setFlow_sns : (s.setFlow i f).sns = s.sns := rfl
@[simp] theorem State.setFlow_pwr : (s.setFlow i f).pwr = s.pwr := rfl
@[simp] theorem State.setFlow_sfe : (s.setFlow i f).sfe = s.sfe := rfl
@[simp] theorem State.setFlow_streams : (s.setFlow i f).streams = s.streams := rfl
@[simp] theorem State.setFlow_rawIn : (s.setFlow i f).rawIn = s.rawIn := rfl
@[simp] theorem State.setFlow_spi : (s.setFlow i f).spi = s.spi := rfl
@[simp] theorem State.setFlow_i2c : (s.setFlow i f).i2c = s.i2c := rfl
@[simp] theorem State.setFlow_trainFrom : (s.setFlow i f).trainFrom = s.trainFrom := rfl
@[simp] theorem State.setFlow_timecode : (s.setFlow i f).timecode = s.timecode := rfl
@[simp] theorem State.setFlow_isoStreams : (s.setFlow i f).isoStreams = s.isoStreams := rfl
@[simp] theorem State.setFlow_rcn : (s.setFlow i f).rcn = s.rcn := rfl
@[simp] theorem State.setFlow_integ : (s.setFlow i f).integ = s.integ := rfl
@[simp] theorem State.setFlow_stats : (s.setFlow i f).stats = s.stats := rfl
@[simp] theorem State.setFlow_statFrame : (s.setFlow i f).statFrame = s.statFrame := rfl
@[simp] theorem State.setFlow_ebeIn : (s.setFlow i f).ebeIn = s.ebeIn := rfl
@[simp] theorem State.setFlow_orgIn : (s.setFlow i f).orgIn = s.orgIn := rfl
@[simp] theorem State.setFlow_orgInB : (s.setFlow i f).orgInB = s.orgInB := rfl
@[simp] theorem State.setFlow_ebe : (s.setFlow i f).ebe = s.ebe := rfl
@[simp] theorem State.setFlow_ebd : (s.setFlow i f).ebd = s.ebd := rfl
@[simp] theorem State.setFlow_bth : (s.setFlow i f).bth = s.bth := rfl
@[simp] theorem State.setFlow_ofc : (s.setFlow i f).ofc = s.ofc := rfl
@[simp] theorem State.setFlow_org : (s.setFlow i f).org = s.org := rfl
@[simp] theorem State.setFlow_orgStats : (s.setFlow i f).orgStats = s.orgStats := rfl
@[simp] theorem State.setFlow_orgStatCount : (s.setFlow i f).orgStatCount = s.orgStatCount := rfl
@[simp] theorem State.setFlow_tables : (s.setFlow i f).tables = s.tables := rfl
@[simp] theorem State.setFlow_load : (s.setFlow i f).load = s.load := rfl
@[simp] theorem State.setFlow_views : (s.setFlow i f).views = s.views := rfl
@[simp] theorem State.setFlow_parterre : (s.setFlow i f).parterre = s.parterre := rfl
@[simp] theorem State.setFlow_newest : (s.setFlow i f).newest = s.newest := rfl
@[simp] theorem State.setFlow_bufHolds : (s.setFlow i f).bufHolds = s.bufHolds := rfl
@[simp] theorem State.setFlow_glass : (s.setFlow i f).glass = s.glass := rfl
@[simp] theorem State.setFlow_sdi : (s.setFlow i f).sdi = s.sdi := rfl
@[simp] theorem State.setFlow_blv : (s.setFlow i f).blv = s.blv := rfl
@[simp] theorem State.setFlow_sun : (s.setFlow i f).sun = s.sun := rfl
@[simp] theorem State.setFlow_net : (s.setFlow i f).net = s.net := rfl
@[simp] theorem State.setFlow_bnd : (s.setFlow i f).bnd = s.bnd := rfl
@[simp] theorem State.setFlow_arb : (s.setFlow i f).arb = s.arb := rfl
@[simp] theorem State.setFlow_links : (s.setFlow i f).links = s.links := rfl
@[simp] theorem State.setFlow_outbox : (s.setFlow i f).outbox = s.outbox := rfl
@[simp] theorem State.setFlow_freeCount : (s.setFlow i f).freeCount = s.freeCount := rfl
@[simp] theorem State.setFlow_pending : (s.setFlow i f).pending = s.pending := rfl

end setFlowFields

/-! ### Settling (R59, R185) -/

/-- A fold whose every step keeps a projection keeps it. -/
theorem foldl_keeps {α β γ : Type} (p : β → γ) (f : β → α → β) (h : ∀ b a, p (f b a) = p b) (l : List α) (b : β) : p (l.foldl f b) = p b := by
  induction l generalizing b with
  | nil => rfl
  | cons a r ih => rw [List.foldl_cons, ih, h]

/-- States that agree once one takes the other's pool differ in the pool alone. -/
theorem State.eq_with_glass (t s : State) (h : ({ t with glass := s.glass } : State) = s) : t = { s with glass := t.glass } := by
  cases t; cases s; simp_all

/-- Two updates on top of a state that differs in the pool alone. -/
theorem State.with_irq_outbox (t s : State) (i : List Nat) (o : List Output) (h : t = { s with glass := t.glass }) :
    ({ t with irq := i, outbox := o } : State) = { s with glass := t.glass, irq := i, outbox := o } := by
  cases t; cases s; simp_all

/-- The pool sweep changes the codec's pool alone. -/
theorem State.poolSweep_eq (s : State) : s.poolSweep = { s with glass := s.poolSweep.glass } := by
  have h := foldl_keeps (fun t : State => ({ t with glass := s.glass } : State)) (fun (t : State) (b : Nat) =>
    let x := t.pool b
    let src := gdSource x.outSrc
    let newest := match t.newestOf src with
      | some f => f.index == b && decide (t.sesState x.session = 1 ∨ t.sesState x.session = 2)
      | none => false
    if x.outputPending && x.published && !newest && !t.isHeld (gdSource 0) b && !t.isHeld (gdSource 1) b
    then t.setPool b { x with outputPending := false, published := false } else t)
    (by intro t b; dsimp only; split <;> split <;> rfl) (List.range 64) s
  exact State.eq_with_glass _ _ h

/-- Sending MSI-X messages changes the outbox alone. -/
theorem State.emits_eq (s : State) (f : Nat → Output) (l : List Nat) :
    l.foldl (fun t p => t.emit (f p)) s = { s with outbox := s.outbox ++ l.map f } := by
  induction l generalizing s with
  | nil => simp
  | cons a r ih => rw [List.foldl_cons, ih]; simp [State.emit]

/-- The pages whose interrupt rises and goes to the host as MSI-X (R59). -/
def State.rises (s : State) : List Nat := s.irqPages.filter (fun p => !s.irq.contains p && Fld.HDR.TARGET s.regs p == 1)

/-- Sending the rises adds their messages and changes nothing else. -/
theorem State.sendRises_eq (s : State) (now : List Nat) :
    s.sendRises now = { s with outbox := s.outbox ++
      (now.filter (fun p => !s.irq.contains p && Fld.HDR.TARGET s.regs p == 1)).map (fun p => .msix (Fld.HDR.VECTOR s.regs p)) } := by
  have hf : ∀ (l : List Nat) (t : State), t.regs = s.regs → l.foldl (fun t p => t.emit (.msix (Fld.HDR.VECTOR t.regs p))) t
      = l.foldl (fun t p => t.emit (.msix (Fld.HDR.VECTOR s.regs p))) t := by
    intro l
    induction l with
    | nil => intros; rfl
    | cons a r ih =>
      intro t ht
      rw [List.foldl_cons, List.foldl_cons, ht]
      exact ih _ ht
  unfold State.sendRises
  rw [hf _ _ rfl, State.emits_eq]

/-- Settling in full: pool buffers, messages, interrupt conditions; nothing else. -/
theorem State.settle_eq (s : State) :
    s.settle = { s with glass := s.poolSweep.glass, irq := s.poolSweep.irqPages,
                        outbox := s.outbox ++ s.poolSweep.rises.map (fun p => .msix (Fld.HDR.VECTOR s.regs p)) } := by
  have h := s.poolSweep_eq
  have hr : s.poolSweep.regs = s.regs := by rw [h]
  have ho : s.poolSweep.outbox = s.outbox := by rw [h]
  unfold State.settle State.rises
  generalize s.poolSweep = p at h hr ho
  dsimp only
  rw [State.sendRises_eq]
  refine Eq.trans (State.with_irq_outbox p s _ _ h) ?_
  rw [hr, ho]

/-- A page's interrupt condition does not look at the pool, the delivered interrupts or the outbox beyond the pool. -/
theorem State.irqCond_with (p : State) (g : Glass) (i : List Nat) (o : List Output) (k : Nat) :
    ({ p with glass := g, irq := i, outbox := o } : State).irqCond k = ({ p with glass := g } : State).irqCond k := rfl

/-- Settling leaves every page's interrupt condition as the swept pool leaves it. -/
theorem State.settle_irqCond (s : State) (k : Nat) : s.settle.irqCond k = s.poolSweep.irqCond k := by
  have h := s.poolSweep_eq
  rw [State.settle_eq]
  generalize s.poolSweep = p at h
  rw [State.irqCond_with, ← h]

theorem State.settle_irq (s : State) : s.settle.irq = s.poolSweep.irqPages := by rw [State.settle_eq]

theorem State.settle_outbox (s : State) :
    s.settle.outbox = s.outbox ++ s.poolSweep.rises.map (fun p => .msix (Fld.HDR.VECTOR s.regs p)) := by rw [State.settle_eq]

section settleFields
variable (s : State)

@[simp] theorem State.settle_regs : s.settle.regs = s.regs := by rw [State.settle_eq]
@[simp] theorem State.settle_shadow : s.settle.shadow = s.shadow := by rw [State.settle_eq]
@[simp] theorem State.settle_latches : s.settle.latches = s.latches := by rw [State.settle_eq]
@[simp] theorem State.settle_time : s.settle.time = s.time := by rw [State.settle_eq]
@[simp] theorem State.settle_due : s.settle.due = s.due := by rw [State.settle_eq]
@[simp] theorem State.settle_scheduled : s.settle.scheduled = s.scheduled := by rw [State.settle_eq]
@[simp] theorem State.settle_kiosk : s.settle.kiosk = s.kiosk := by rw [State.settle_eq]
@[simp] theorem State.settle_gth : s.settle.gth = s.gth := by rw [State.settle_eq]
@[simp] theorem State.settle_qpb : s.settle.qpb = s.qpb := by rw [State.settle_eq]
@[simp] theorem State.settle_held : s.settle.held = s.held := by rw [State.settle_eq]
@[simp] theorem State.settle_reports : s.settle.reports = s.reports := by rw [State.settle_eq]
@[simp] theorem State.settle_records : s.settle.records = s.records := by rw [State.settle_eq]
@[simp] theorem State.settle_lost : s.settle.lost = s.lost := by rw [State.settle_eq]
@[simp] theorem State.settle_stopped : s.settle.stopped = s.stopped := by rw [State.settle_eq]
@[simp] theorem State.settle_stalled : s.settle.stalled = s.stalled := by rw [State.settle_eq]
@[simp] theorem State.settle_dram : s.settle.dram = s.dram := by rw [State.settle_eq]
@[simp] theorem State.settle_trl : s.settle.trl = s.trl := by rw [State.settle_eq]
@[simp] theorem State.settle_mem : s.settle.mem = s.mem := by rw [State.settle_eq]
@[simp] theorem State.settle_dov : s.settle.dov = s.dov := by rw [State.settle_eq]
@[simp] theorem State.settle_pwm : s.settle.pwm = s.pwm := by rw [State.settle_eq]
@[simp] theorem State.settle_iceResync : s.settle.iceResync = s.iceResync := by rw [State.settle_eq]
@[simp] theorem State.settle_elapsed : s.settle.elapsed = s.elapsed := by rw [State.settle_eq]
@[simp] theorem State.settle_sns : s.settle.sns = s.sns := by rw [State.settle_eq]
@[simp] theorem State.settle_pwr : s.settle.pwr = s.pwr := by rw [State.settle_eq]
@[simp] theorem State.settle_sfe : s.settle.sfe = s.sfe := by rw [State.settle_eq]
@[simp] theorem State.settle_streams : s.settle.streams = s.streams := by rw [State.settle_eq]
@[simp] theorem State.settle_rawIn : s.settle.rawIn = s.rawIn := by rw [State.settle_eq]
@[simp] theorem State.settle_spi : s.settle.spi = s.spi := by rw [State.settle_eq]
@[simp] theorem State.settle_i2c : s.settle.i2c = s.i2c := by rw [State.settle_eq]
@[simp] theorem State.settle_trainFrom : s.settle.trainFrom = s.trainFrom := by rw [State.settle_eq]
@[simp] theorem State.settle_timecode : s.settle.timecode = s.timecode := by rw [State.settle_eq]
@[simp] theorem State.settle_isoStreams : s.settle.isoStreams = s.isoStreams := by rw [State.settle_eq]
@[simp] theorem State.settle_rcn : s.settle.rcn = s.rcn := by rw [State.settle_eq]
@[simp] theorem State.settle_integ : s.settle.integ = s.integ := by rw [State.settle_eq]
@[simp] theorem State.settle_stats : s.settle.stats = s.stats := by rw [State.settle_eq]
@[simp] theorem State.settle_statFrame : s.settle.statFrame = s.statFrame := by rw [State.settle_eq]
@[simp] theorem State.settle_ebeIn : s.settle.ebeIn = s.ebeIn := by rw [State.settle_eq]
@[simp] theorem State.settle_orgIn : s.settle.orgIn = s.orgIn := by rw [State.settle_eq]
@[simp] theorem State.settle_orgInB : s.settle.orgInB = s.orgInB := by rw [State.settle_eq]
@[simp] theorem State.settle_ebe : s.settle.ebe = s.ebe := by rw [State.settle_eq]
@[simp] theorem State.settle_ebd : s.settle.ebd = s.ebd := by rw [State.settle_eq]
@[simp] theorem State.settle_bth : s.settle.bth = s.bth := by rw [State.settle_eq]
@[simp] theorem State.settle_ofc : s.settle.ofc = s.ofc := by rw [State.settle_eq]
@[simp] theorem State.settle_org : s.settle.org = s.org := by rw [State.settle_eq]
@[simp] theorem State.settle_orgStats : s.settle.orgStats = s.orgStats := by rw [State.settle_eq]
@[simp] theorem State.settle_orgStatCount : s.settle.orgStatCount = s.orgStatCount := by rw [State.settle_eq]
@[simp] theorem State.settle_tables : s.settle.tables = s.tables := by rw [State.settle_eq]
@[simp] theorem State.settle_load : s.settle.load = s.load := by rw [State.settle_eq]
@[simp] theorem State.settle_views : s.settle.views = s.views := by rw [State.settle_eq]
@[simp] theorem State.settle_parterre : s.settle.parterre = s.parterre := by rw [State.settle_eq]
@[simp] theorem State.settle_newest : s.settle.newest = s.newest := by rw [State.settle_eq]
@[simp] theorem State.settle_bufHolds : s.settle.bufHolds = s.bufHolds := by rw [State.settle_eq]
@[simp] theorem State.settle_sdi : s.settle.sdi = s.sdi := by rw [State.settle_eq]
@[simp] theorem State.settle_blv : s.settle.blv = s.blv := by rw [State.settle_eq]
@[simp] theorem State.settle_sun : s.settle.sun = s.sun := by rw [State.settle_eq]
@[simp] theorem State.settle_net : s.settle.net = s.net := by rw [State.settle_eq]
@[simp] theorem State.settle_bnd : s.settle.bnd = s.bnd := by rw [State.settle_eq]
@[simp] theorem State.settle_arb : s.settle.arb = s.arb := by rw [State.settle_eq]
@[simp] theorem State.settle_links : s.settle.links = s.links := by rw [State.settle_eq]
@[simp] theorem State.settle_freeCount : s.settle.freeCount = s.freeCount := by rw [State.settle_eq]
@[simp] theorem State.settle_pending : s.settle.pending = s.pending := by rw [State.settle_eq]

end settleFields

end Sys2Proof.Machine
end

