-- ==== Sys2Proof/Laws/Registers.lean ====
section
/-! SUPPORT. The laws of the register file: words, fields and counters after a write. -/

namespace Sys2Proof.Machine

/-! ### Fields of a number -/

theorem bits_lt (x l w : Nat) : bits x l w < 2 ^ w := Nat.mod_lt _ (by positivity)

/-- A field is what its bits test. -/
theorem bits_testBit (x l w i : Nat) : (bits x l w).testBit i = (decide (i < w) && x.testBit (l + i)) := by
  unfold bits
  rw [Nat.testBit_mod_two_pow, Nat.testBit_div_two_pow, Nat.add_comm]

/-- A number cut in its part below a field, the field, and the part above. -/
theorem cut_field (w l n : Nat) : w = w % 2 ^ l + 2 ^ l * (bits w l n + 2 ^ n * (w / 2 ^ (l + n))) := by
  unfold bits
  have h1 := Nat.mod_add_div w (2 ^ l)
  have h2 := Nat.mod_add_div (w / 2 ^ l) (2 ^ n)
  rw [Nat.pow_add, ← Nat.div_div_eq_div_mul, h2]
  exact h1.symm

/-- A write of a field, part by part. -/
theorem insertBits_eq (w l n x : Nat) : insertBits w l n x = w % 2 ^ l + 2 ^ l * (x % 2 ^ n + 2 ^ n * (w / 2 ^ (l + n))) := by
  unfold insertBits
  have h := cut_field w l n
  generalize w / 2 ^ (l + n) = q at h
  generalize x % 2 ^ n = y
  generalize bits w l n = f at h
  generalize w % 2 ^ l = r at h
  have : f * 2 ^ l + (r + 2 ^ l * (2 ^ n * q)) = w := by rw [h]; ring
  rw [← this, Nat.add_sub_cancel_left]
  ring

theorem insertBits_div (w l n x : Nat) : insertBits w l n x / 2 ^ l = x % 2 ^ n + 2 ^ n * (w / 2 ^ (l + n)) := by
  rw [insertBits_eq, Nat.add_mul_div_left _ _ (by positivity), Nat.div_eq_of_lt (Nat.mod_lt _ (by positivity)), Nat.zero_add]

/-- A field holds what was written to it. -/
theorem bits_insertBits (w l n x : Nat) : bits (insertBits w l n x) l n = x % 2 ^ n := by
  unfold bits
  rw [insertBits_div, Nat.add_mul_mod_self_left, Nat.mod_mod]

/-- The bits of a number after a write of a field. -/
theorem insertBits_testBit (w l n x i : Nat) :
    (insertBits w l n x).testBit i = if l ≤ i ∧ i < l + n then x.testBit (i - l) else w.testBit i := by
  by_cases h1 : i < l
  · have hm : (insertBits w l n x) % 2 ^ l = w % 2 ^ l := by rw [insertBits_eq, Nat.add_mul_mod_self_left, Nat.mod_mod]
    have ha := Nat.testBit_mod_two_pow (insertBits w l n x) l i
    have hb := Nat.testBit_mod_two_pow w l i
    rw [hm] at ha
    rw [if_neg (by omega)]
    simpa [h1] using ha.symm.trans hb
  · have hi : i = (i - l) + l := by omega
    have hd : (insertBits w l n x).testBit i = (insertBits w l n x / 2 ^ l).testBit (i - l) := by
      rw [Nat.testBit_div_two_pow, ← hi]
    rw [hd, insertBits_div, Nat.add_comm, Nat.testBit_two_pow_mul_add _ (Nat.mod_lt _ (by positivity))]
    by_cases h2 : i - l < n
    · rw [if_pos h2, if_pos (by omega), Nat.testBit_mod_two_pow]; simp [h2]
    · rw [if_neg h2, if_neg (by omega), Nat.testBit_div_two_pow]; congr 1; omega

/-- A field beside the one written keeps its value. -/
theorem bits_insertBits_other (w l n x l' n' : Nat) (h : l' + n' ≤ l ∨ l + n ≤ l') : bits (insertBits w l n x) l' n' = bits w l' n' := by
  apply Nat.eq_of_testBit_eq
  intro i
  rw [bits_testBit, bits_testBit, insertBits_testBit]
  by_cases hi : i < n'
  · rw [if_neg (by omega)]
  · simp [hi]

theorem insertBits_lt {w l n x k : Nat} (hw : w < 2 ^ k) (h : l + n ≤ k) : insertBits w l n x < 2 ^ k := by
  apply Nat.lt_pow_two_of_testBit
  intro i hi
  rw [insertBits_testBit, if_neg (by omega)]
  exact Nat.testBit_lt_two_pow (lt_of_lt_of_le hw (Nat.pow_le_pow_right (by omega) hi))

theorem bitOf_eq_testBit (x n : Nat) : bitOf x n = x.testBit n := by
  unfold bitOf
  rw [Nat.testBit_eq_decide_div_mod_eq]
  rfl

theorem bitOf_eq_bits (x n : Nat) : bitOf x n = (bits x n 1 == 1) := by
  unfold bitOf bits
  rw [Nat.pow_one]

/-- The bits of a word, some of them replaced. -/
theorem mergeBits_testBit (x m y i : Nat) : (mergeBits x m y).testBit i = ((decide (i < 32) && (x.testBit i && !m.testBit i)) || (!(decide (i < 32)) && (x.testBit i && m.testBit i)) || (y.testBit i && m.testBit i)) := by
  unfold mergeBits
  simp only [Nat.testBit_or, Nat.testBit_and, Nat.testBit_xor, Nat.testBit_two_pow_sub_one]
  by_cases h : i < 32 <;> cases x.testBit i <;> cases m.testBit i <;> cases y.testBit i <;> simp [h]

/-- A word with none of its bits replaced. -/
theorem mergeBits_zero {x : Nat} (h : x < 2 ^ 32) (y : Nat) : mergeBits x 0 y = x := by
  apply Nat.eq_of_testBit_eq; intro i
  rw [mergeBits_testBit]
  by_cases hi : i < 32
  · simp [hi]
  · have : x.testBit i = false := Nat.testBit_lt_two_pow (lt_of_lt_of_le h (Nat.pow_le_pow_right (by omega) (by omega)))
    simp [hi, this]

/-- A word with some of its bits replaced by its own. -/
theorem mergeBits_self {x : Nat} (h : x < 2 ^ 32) (m : Nat) : mergeBits x m x = x := by
  apply Nat.eq_of_testBit_eq; intro i
  rw [mergeBits_testBit]
  by_cases hi : i < 32
  · cases m.testBit i <;> simp [hi]
  · have : x.testBit i = false := Nat.testBit_lt_two_pow (lt_of_lt_of_le h (Nat.pow_le_pow_right (by omega) (by omega)))
    simp [hi, this]

/-! ### Words -/

@[simp] theorem RegFile.word_putN (rf : RegFile) (a b n : Nat) : (rf.putN a n).word b = if b = a then BitVec.ofNat 32 n else rf.word b :=
  SMap.get_set resetWord rf a b _

@[simp] theorem RegFile.word_putFld (rf : RegFile) (a b l w x : Nat) :
    (rf.putFld a l w x).word b = if b = a then BitVec.ofNat 32 (insertBits (rf.word a).toNat l w x) else rf.word b :=
  RegFile.word_putN rf a b _

/-- Registers written one after another, each with a word that does not depend on the others. -/
theorem RegFile.word_putAll (f : RegAddr → Nat) (l : List RegAddr) (rf : RegFile) (b : RegAddr) :
    (l.foldl (fun r a => r.putN a (f a)) rf).word b = if b ∈ l then BitVec.ofNat 32 (f b) else rf.word b := by
  induction l generalizing rf with
  | nil => simp
  | cons a r ih =>
    rw [List.foldl_cons, ih, RegFile.word_putN]
    by_cases h1 : b ∈ r <;> by_cases h2 : b = a <;> simp_all

/-- The number in a register after a write of another number. -/
theorem State.rd_setReg (s : State) (a b n : Nat) : (s.setReg a n).rd b = if b = a then n % 2 ^ 32 else s.rd b := by
  unfold State.rd
  rw [State.setReg_regs, RegFile.word_putN]
  split <;> simp

@[simp] theorem State.rd_setReg_same (s : State) (a n : Nat) : (s.setReg a n).rd a = n % 2 ^ 32 := by rw [State.rd_setReg, if_pos rfl]

theorem State.rd_lt (s : State) (a : Nat) : s.rd a < 2 ^ 32 := (s.regs.word a).isLt

/-! ### Fields -/

/-- A field after a write of the same field. -/
theorem RegFile.fld_putFld_same (rf : RegFile) (a l w x : Nat) (h : l + w ≤ 32) : (rf.putFld a l w x).fld a l w = x % 2 ^ w := by
  unfold RegFile.fld
  rw [RegFile.word_putFld, if_pos rfl, BitVec.toNat_ofNat, Nat.mod_eq_of_lt (insertBits_lt (rf.word a).isLt h), bits_insertBits]

/-- A field of the same register beside the one written. -/
theorem RegFile.fld_putFld_beside (rf : RegFile) (a l w x l' w' : Nat) (h : l + w ≤ 32) (hd : l' + w' ≤ l ∨ l + w ≤ l') :
    (rf.putFld a l w x).fld a l' w' = rf.fld a l' w' := by
  unfold RegFile.fld
  rw [RegFile.word_putFld, if_pos rfl, BitVec.toNat_ofNat, Nat.mod_eq_of_lt (insertBits_lt (rf.word a).isLt h), bits_insertBits_other _ _ _ _ _ _ hd]

/-- A field of another register than the one written. -/
theorem RegFile.fld_putFld_other (rf : RegFile) (a b l w x l' w' : Nat) (h : b ≠ a) : (rf.putFld a l w x).fld b l' w' = rf.fld b l' w' := by
  unfold RegFile.fld
  rw [RegFile.word_putFld, if_neg h]

/-- A field after a write of its whole register. -/
theorem RegFile.fld_putN_same (rf : RegFile) (a n l w : Nat) : (rf.putN a n).fld a l w = bits (n % 2 ^ 32) l w := by
  unfold RegFile.fld
  rw [RegFile.word_putN, if_pos rfl, BitVec.toNat_ofNat]

theorem RegFile.fld_putN_other (rf : RegFile) (a b n l w : Nat) (h : b ≠ a) : (rf.putN a n).fld b l w = rf.fld b l w := by
  unfold RegFile.fld
  rw [RegFile.word_putN, if_neg h]

/-! ### Counters -/

theorem satInc_lt (w x : Nat) : satInc w x < 2 ^ w := by
  unfold satInc
  have : 0 < 2 ^ w := by positivity
  split <;> omega

theorem satAdd_lt (w x y : Nat) : satAdd w x y < 2 ^ w := by
  unfold satAdd
  have : 0 < 2 ^ w := by positivity
  split <;> omega

/-- A counter never falls while it counts, and stays at its greatest value (R3's saturating counters). -/
theorem le_satInc {w x : Nat} (h : x < 2 ^ w) : x ≤ satInc w x := by
  unfold satInc
  split <;> omega

@[simp] theorem State.rd_bump_same (s : State) (a : Nat) : (s.bump a).rd a = satInc 32 (s.rd a) := by
  unfold State.bump
  rw [State.rd_setReg_same, Nat.mod_eq_of_lt (satInc_lt 32 _)]

theorem State.rd_bump_other (s : State) (a b : Nat) (h : b ≠ a) : (s.bump a).rd b = s.rd b := by
  unfold State.bump
  rw [State.rd_setReg, if_neg h]

end Sys2Proof.Machine
end

