-- ==== Sys2Proof/Laws/Operations.lean ====
section
/-! SUPPORT. What the shared operations over faults, frame starts, groups and memory leave of every field of State, and what they do. -/

namespace Sys2Proof.Machine

section bumpFldFields
variable (s : State) (a l w : Nat)

@[simp] theorem State.bumpFld_shadow : (s.bumpFld a l w).shadow = s.shadow := rfl
@[simp] theorem State.bumpFld_latches : (s.bumpFld a l w).latches = s.latches := rfl
@[simp] theorem State.bumpFld_time : (s.bumpFld a l w).time = s.time := rfl
@[simp] theorem State.bumpFld_due : (s.bumpFld a l w).due = s.due := rfl
@[simp] theorem State.bumpFld_scheduled : (s.bumpFld a l w).scheduled = s.scheduled := rfl
@[simp] theorem State.bumpFld_kiosk : (s.bumpFld a l w).kiosk = s.kiosk := rfl
@[simp] theorem State.bumpFld_gth : (s.bumpFld a l w).gth = s.gth := rfl
@[simp] theorem State.bumpFld_qpb : (s.bumpFld a l w).qpb = s.qpb := rfl
@[simp] theorem State.bumpFld_held : (s.bumpFld a l w).held = s.held := rfl
@[simp] theorem State.bumpFld_reports : (s.bumpFld a l w).reports = s.reports := rfl
@[simp] theorem State.bumpFld_records : (s.bumpFld a l w).records = s.records := rfl
@[simp] theorem State.bumpFld_lost : (s.bumpFld a l w).lost = s.lost := rfl
@[simp] theorem State.bumpFld_irq : (s.bumpFld a l w).irq = s.irq := rfl
@[simp] theorem State.bumpFld_stopped : (s.bumpFld a l w).stopped = s.stopped := rfl
@[simp] theorem State.bumpFld_stalled : (s.bumpFld a l w).stalled = s.stalled := rfl
@[simp] theorem State.bumpFld_dram : (s.bumpFld a l w).dram = s.dram := rfl
@[simp] theorem State.bumpFld_trl : (s.bumpFld a l w).trl = s.trl := rfl
@[simp] theorem State.bumpFld_mem : (s.bumpFld a l w).mem = s.mem := rfl
@[simp] theorem State.bumpFld_dov : (s.bumpFld a l w).dov = s.dov := rfl
@[simp] theorem State.bumpFld_pwm : (s.bumpFld a l w).pwm = s.pwm := rfl
@[simp] theorem State.bumpFld_iceResync : (s.bumpFld a l w).iceResync = s.iceResync := rfl
@[simp] theorem State.bumpFld_elapsed : (s.bumpFld a l w).elapsed = s.elapsed := rfl
@[simp] theorem State.bumpFld_sns : (s.bumpFld a l w).sns = s.sns := rfl
@[simp] theorem State.bumpFld_pwr : (s.bumpFld a l w).pwr = s.pwr := rfl
@[simp] theorem State.bumpFld_sfe : (s.bumpFld a l w).sfe = s.sfe := rfl
@[simp] theorem State.bumpFld_streams : (s.bumpFld a l w).streams = s.streams := rfl
@[simp] theorem State.bumpFld_rawIn : (s.bumpFld a l w).rawIn = s.rawIn := rfl
@[simp] theorem State.bumpFld_spi : (s.bumpFld a l w).spi = s.spi := rfl
@[simp] theorem State.bumpFld_i2c : (s.bumpFld a l w).i2c = s.i2c := rfl
@[simp] theorem State.bumpFld_trainFrom : (s.bumpFld a l w).trainFrom = s.trainFrom := rfl
@[simp] theorem State.bumpFld_timecode : (s.bumpFld a l w).timecode = s.timecode := rfl
@[simp] theorem State.bumpFld_isoStreams : (s.bumpFld a l w).isoStreams = s.isoStreams := rfl
@[simp] theorem State.bumpFld_rcn : (s.bumpFld a l w).rcn = s.rcn := rfl
@[simp] theorem State.bumpFld_integ : (s.bumpFld a l w).integ = s.integ := rfl
@[simp] theorem State.bumpFld_stats : (s.bumpFld a l w).stats = s.stats := rfl
@[simp] theorem State.bumpFld_statFrame : (s.bumpFld a l w).statFrame = s.statFrame := rfl
@[simp] theorem State.bumpFld_ebeIn : (s.bumpFld a l w).ebeIn = s.ebeIn := rfl
@[simp] theorem State.bumpFld_orgIn : (s.bumpFld a l w).orgIn = s.orgIn := rfl
@[simp] theorem State.bumpFld_orgInB : (s.bumpFld a l w).orgInB = s.orgInB := rfl
@[simp] theorem State.bumpFld_ebe : (s.bumpFld a l w).ebe = s.ebe := rfl
@[simp] theorem State.bumpFld_ebd : (s.bumpFld a l w).ebd = s.ebd := rfl
@[simp] theorem State.bumpFld_bth : (s.bumpFld a l w).bth = s.bth := rfl
@[simp] theorem State.bumpFld_ofc : (s.bumpFld a l w).ofc = s.ofc := rfl
@[simp] theorem State.bumpFld_org : (s.bumpFld a l w).org = s.org := rfl
@[simp] theorem State.bumpFld_orgStats : (s.bumpFld a l w).orgStats = s.orgStats := rfl
@[simp] theorem State.bumpFld_orgStatCount : (s.bumpFld a l w).orgStatCount = s.orgStatCount := rfl
@[simp] theorem State.bumpFld_tables : (s.bumpFld a l w).tables = s.tables := rfl
@[simp] theorem State.bumpFld_load : (s.bumpFld a l w).load = s.load := rfl
@[simp] theorem State.bumpFld_views : (s.bumpFld a l w).views = s.views := rfl
@[simp] theorem State.bumpFld_parterre : (s.bumpFld a l w).parterre = s.parterre := rfl
@[simp] theorem State.bumpFld_newest : (s.bumpFld a l w).newest = s.newest := rfl
@[simp] theorem State.bumpFld_bufHolds : (s.bumpFld a l w).bufHolds = s.bufHolds := rfl
@[simp] theorem State.bumpFld_glass : (s.bumpFld a l w).glass = s.glass := rfl
@[simp] theorem State.bumpFld_sdi : (s.bumpFld a l w).sdi = s.sdi := rfl
@[simp] theorem State.bumpFld_blv : (s.bumpFld a l w).blv = s.blv := rfl
@[simp] theorem State.bumpFld_sun : (s.bumpFld a l w).sun = s.sun := rfl
@[simp] theorem State.bumpFld_net : (s.bumpFld a l w).net = s.net := rfl
@[simp] theorem State.bumpFld_bnd : (s.bumpFld a l w).bnd = s.bnd := rfl
@[simp] theorem State.bumpFld_arb : (s.bumpFld a l w).arb = s.arb := rfl
@[simp] theorem State.bumpFld_links : (s.bumpFld a l w).links = s.links := rfl
@[simp] theorem State.bumpFld_outbox : (s.bumpFld a l w).outbox = s.outbox := rfl
@[simp] theorem State.bumpFld_freeCount : (s.bumpFld a l w).freeCount = s.freeCount := rfl
@[simp] theorem State.bumpFld_pending : (s.bumpFld a l w).pending = s.pending := rfl

end bumpFldFields

section condOnFields
variable (s : State) (u c k : Nat)

@[simp] theorem State.condOn_regs : (s.condOn u c k).regs = s.regs := by unfold State.condOn; split <;> rfl
@[simp] theorem State.condOn_shadow : (s.condOn u c k).shadow = s.shadow := by unfold State.condOn; split <;> rfl
@[simp] theorem State.condOn_latches : (s.condOn u c k).latches = s.latches := by unfold State.condOn; split <;> rfl
@[simp] theorem State.condOn_time : (s.condOn u c k).time = s.time := by unfold State.condOn; split <;> rfl
@[simp] theorem State.condOn_due : (s.condOn u c k).due = s.due := by unfold State.condOn; split <;> rfl
@[simp] theorem State.condOn_scheduled : (s.condOn u c k).scheduled = s.scheduled := by unfold State.condOn; split <;> rfl
@[simp] theorem State.condOn_kiosk : (s.condOn u c k).kiosk = s.kiosk := by unfold State.condOn; split <;> rfl
@[simp] theorem State.condOn_gth : (s.condOn u c k).gth = s.gth := by unfold State.condOn; split <;> rfl
@[simp] theorem State.condOn_qpb : (s.condOn u c k).qpb = s.qpb := by unfold State.condOn; split <;> rfl
@[simp] theorem State.condOn_records : (s.condOn u c k).records = s.records := by unfold State.condOn; split <;> rfl
@[simp] theorem State.condOn_lost : (s.condOn u c k).lost = s.lost := by unfold State.condOn; split <;> rfl
@[simp] theorem State.condOn_irq : (s.condOn u c k).irq = s.irq := by unfold State.condOn; split <;> rfl
@[simp] theorem State.condOn_stopped : (s.condOn u c k).stopped = s.stopped := by unfold State.condOn; split <;> rfl
@[simp] theorem State.condOn_stalled : (s.condOn u c k).stalled = s.stalled := by unfold State.condOn; split <;> rfl
@[simp] theorem State.condOn_dram : (s.condOn u c k).dram = s.dram := by unfold State.condOn; split <;> rfl
@[simp] theorem State.condOn_trl : (s.condOn u c k).trl = s.trl := by unfold State.condOn; split <;> rfl
@[simp] theorem State.condOn_mem : (s.condOn u c k).mem = s.mem := by unfold State.condOn; split <;> rfl
@[simp] theorem State.condOn_dov : (s.condOn u c k).dov = s.dov := by unfold State.condOn; split <;> rfl
@[simp] theorem State.condOn_pwm : (s.condOn u c k).pwm = s.pwm := by unfold State.condOn; split <;> rfl
@[simp] theorem State.condOn_iceResync : (s.condOn u c k).iceResync = s.iceResync := by unfold State.condOn; split <;> rfl
@[simp] theorem State.condOn_elapsed : (s.condOn u c k).elapsed = s.elapsed := by unfold State.condOn; split <;> rfl
@[simp] theorem State.condOn_sns : (s.condOn u c k).sns = s.sns := by unfold State.condOn; split <;> rfl
@[simp] theorem State.condOn_pwr : (s.condOn u c k).pwr = s.pwr := by unfold State.condOn; split <;> rfl
@[simp] theorem State.condOn_sfe : (s.condOn u c k).sfe = s.sfe := by unfold State.condOn; split <;> rfl
@[simp] theorem State.condOn_streams : (s.condOn u c k).streams = s.streams := by unfold State.condOn; split <;> rfl
@[simp] theorem State.condOn_rawIn : (s.condOn u c k).rawIn = s.rawIn := by unfold State.condOn; split <;> rfl
@[simp] theorem State.condOn_spi : (s.condOn u c k).spi = s.spi := by unfold State.condOn; split <;> rfl
@[simp] theorem State.condOn_i2c : (s.condOn u c k).i2c = s.i2c := by unfold State.condOn; split <;> rfl
@[simp] theorem State.condOn_trainFrom : (s.condOn u c k).trainFrom = s.trainFrom := by unfold State.condOn; split <;> rfl
@[simp] theorem State.condOn_timecode : (s.condOn u c k).timecode = s.timecode := by unfold State.condOn; split <;> rfl
@[simp] theorem State.condOn_isoStreams : (s.condOn u c k).isoStreams = s.isoStreams := by unfold State.condOn; split <;> rfl
@[simp] theorem State.condOn_rcn : (s.condOn u c k).rcn = s.rcn := by unfold State.condOn; split <;> rfl
@[simp] theorem State.condOn_integ : (s.condOn u c k).integ = s.integ := by unfold State.condOn; split <;> rfl
@[simp] theorem State.condOn_stats : (s.condOn u c k).stats = s.stats := by unfold State.condOn; split <;> rfl
@[simp] theorem State.condOn_statFrame : (s.condOn u c k).statFrame = s.statFrame := by unfold State.condOn; split <;> rfl
@[simp] theorem State.condOn_ebeIn : (s.condOn u c k).ebeIn = s.ebeIn := by unfold State.condOn; split <;> rfl
@[simp] theorem State.condOn_orgIn : (s.condOn u c k).orgIn = s.orgIn := by unfold State.condOn; split <;> rfl
@[simp] theorem State.condOn_orgInB : (s.condOn u c k).orgInB = s.orgInB := by unfold State.condOn; split <;> rfl
@[simp] theorem State.condOn_ebe : (s.condOn u c k).ebe = s.ebe := by unfold State.condOn; split <;> rfl
@[simp] theorem State.condOn_ebd : (s.condOn u c k).ebd = s.ebd := by unfold State.condOn; split <;> rfl
@[simp] theorem State.condOn_bth : (s.condOn u c k).bth = s.bth := by unfold State.condOn; split <;> rfl
@[simp] theorem State.condOn_ofc : (s.condOn u c k).ofc = s.ofc := by unfold State.condOn; split <;> rfl
@[simp] theorem State.condOn_org : (s.condOn u c k).org = s.org := by unfold State.condOn; split <;> rfl
@[simp] theorem State.condOn_orgStats : (s.condOn u c k).orgStats = s.orgStats := by unfold State.condOn; split <;> rfl
@[simp] theorem State.condOn_orgStatCount : (s.condOn u c k).orgStatCount = s.orgStatCount := by unfold State.condOn; split <;> rfl
@[simp] theorem State.condOn_tables : (s.condOn u c k).tables = s.tables := by unfold State.condOn; split <;> rfl
@[simp] theorem State.condOn_load : (s.condOn u c k).load = s.load := by unfold State.condOn; split <;> rfl
@[simp] theorem State.condOn_views : (s.condOn u c k).views = s.views := by unfold State.condOn; split <;> rfl
@[simp] theorem State.condOn_parterre : (s.condOn u c k).parterre = s.parterre := by unfold State.condOn; split <;> rfl
@[simp] theorem State.condOn_newest : (s.condOn u c k).newest = s.newest := by unfold State.condOn; split <;> rfl
@[simp] theorem State.condOn_bufHolds : (s.condOn u c k).bufHolds = s.bufHolds := by unfold State.condOn; split <;> rfl
@[simp] theorem State.condOn_glass : (s.condOn u c k).glass = s.glass := by unfold State.condOn; split <;> rfl
@[simp] theorem State.condOn_sdi : (s.condOn u c k).sdi = s.sdi := by unfold State.condOn; split <;> rfl
@[simp] theorem State.condOn_blv : (s.condOn u c k).blv = s.blv := by unfold State.condOn; split <;> rfl
@[simp] theorem State.condOn_sun : (s.condOn u c k).sun = s.sun := by unfold State.condOn; split <;> rfl
@[simp] theorem State.condOn_net : (s.condOn u c k).net = s.net := by unfold State.condOn; split <;> rfl
@[simp] theorem State.condOn_bnd : (s.condOn u c k).bnd = s.bnd := by unfold State.condOn; split <;> rfl
@[simp] theorem State.condOn_arb : (s.condOn u c k).arb = s.arb := by unfold State.condOn; split <;> rfl
@[simp] theorem State.condOn_links : (s.condOn u c k).links = s.links := by unfold State.condOn; split <;> rfl
@[simp] theorem State.condOn_outbox : (s.condOn u c k).outbox = s.outbox := by unfold State.condOn; split <;> rfl
@[simp] theorem State.condOn_freeCount : (s.condOn u c k).freeCount = s.freeCount := by unfold State.condOn; split <;> rfl
@[simp] theorem State.condOn_pending : (s.condOn u c k).pending = s.pending := by unfold State.condOn; split <;> rfl

end condOnFields

section condFields
variable (s : State) (b : Bool) (u c k : Nat)

@[simp] theorem State.cond_regs : (s.cond b u c k).regs = s.regs := by unfold State.cond; split <;> simp
@[simp] theorem State.cond_shadow : (s.cond b u c k).shadow = s.shadow := by unfold State.cond; split <;> simp
@[simp] theorem State.cond_latches : (s.cond b u c k).latches = s.latches := by unfold State.cond; split <;> simp
@[simp] theorem State.cond_time : (s.cond b u c k).time = s.time := by unfold State.cond; split <;> simp
@[simp] theorem State.cond_due : (s.cond b u c k).due = s.due := by unfold State.cond; split <;> simp
@[simp] theorem State.cond_scheduled : (s.cond b u c k).scheduled = s.scheduled := by unfold State.cond; split <;> simp
@[simp] theorem State.cond_kiosk : (s.cond b u c k).kiosk = s.kiosk := by unfold State.cond; split <;> simp
@[simp] theorem State.cond_gth : (s.cond b u c k).gth = s.gth := by unfold State.cond; split <;> simp
@[simp] theorem State.cond_qpb : (s.cond b u c k).qpb = s.qpb := by unfold State.cond; split <;> simp
@[simp] theorem State.cond_records : (s.cond b u c k).records = s.records := by unfold State.cond; split <;> simp
@[simp] theorem State.cond_lost : (s.cond b u c k).lost = s.lost := by unfold State.cond; split <;> simp
@[simp] theorem State.cond_irq : (s.cond b u c k).irq = s.irq := by unfold State.cond; split <;> simp
@[simp] theorem State.cond_stopped : (s.cond b u c k).stopped = s.stopped := by unfold State.cond; split <;> simp
@[simp] theorem State.cond_stalled : (s.cond b u c k).stalled = s.stalled := by unfold State.cond; split <;> simp
@[simp] theorem State.cond_dram : (s.cond b u c k).dram = s.dram := by unfold State.cond; split <;> simp
@[simp] theorem State.cond_trl : (s.cond b u c k).trl = s.trl := by unfold State.cond; split <;> simp
@[simp] theorem State.cond_mem : (s.cond b u c k).mem = s.mem := by unfold State.cond; split <;> simp
@[simp] theorem State.cond_dov : (s.cond b u c k).dov = s.dov := by unfold State.cond; split <;> simp
@[simp] theorem State.cond_pwm : (s.cond b u c k).pwm = s.pwm := by unfold State.cond; split <;> simp
@[simp] theorem State.cond_iceResync : (s.cond b u c k).iceResync = s.iceResync := by unfold State.cond; split <;> simp
@[simp] theorem State.cond_elapsed : (s.cond b u c k).elapsed = s.elapsed := by unfold State.cond; split <;> simp
@[simp] theorem State.cond_sns : (s.cond b u c k).sns = s.sns := by unfold State.cond; split <;> simp
@[simp] theorem State.cond_pwr : (s.cond b u c k).pwr = s.pwr := by unfold State.cond; split <;> simp
@[simp] theorem State.cond_sfe : (s.cond b u c k).sfe = s.sfe := by unfold State.cond; split <;> simp
@[simp] theorem State.cond_streams : (s.cond b u c k).streams = s.streams := by unfold State.cond; split <;> simp
@[simp] theorem State.cond_rawIn : (s.cond b u c k).rawIn = s.rawIn := by unfold State.cond; split <;> simp
@[simp] theorem State.cond_spi : (s.cond b u c k).spi = s.spi := by unfold State.cond; split <;> simp
@[simp] theorem State.cond_i2c : (s.cond b u c k).i2c = s.i2c := by unfold State.cond; split <;> simp
@[simp] theorem State.cond_trainFrom : (s.cond b u c k).trainFrom = s.trainFrom := by unfold State.cond; split <;> simp
@[simp] theorem State.cond_timecode : (s.cond b u c k).timecode = s.timecode := by unfold State.cond; split <;> simp
@[simp] theorem State.cond_isoStreams : (s.cond b u c k).isoStreams = s.isoStreams := by unfold State.cond; split <;> simp
@[simp] theorem State.cond_rcn : (s.cond b u c k).rcn = s.rcn := by unfold State.cond; split <;> simp
@[simp] theorem State.cond_integ : (s.cond b u c k).integ = s.integ := by unfold State.cond; split <;> simp
@[simp] theorem State.cond_stats : (s.cond b u c k).stats = s.stats := by unfold State.cond; split <;> simp
@[simp] theorem State.cond_statFrame : (s.cond b u c k).statFrame = s.statFrame := by unfold State.cond; split <;> simp
@[simp] theorem State.cond_ebeIn : (s.cond b u c k).ebeIn = s.ebeIn := by unfold State.cond; split <;> simp
@[simp] theorem State.cond_orgIn : (s.cond b u c k).orgIn = s.orgIn := by unfold State.cond; split <;> simp
@[simp] theorem State.cond_orgInB : (s.cond b u c k).orgInB = s.orgInB := by unfold State.cond; split <;> simp
@[simp] theorem State.cond_ebe : (s.cond b u c k).ebe = s.ebe := by unfold State.cond; split <;> simp
@[simp] theorem State.cond_ebd : (s.cond b u c k).ebd = s.ebd := by unfold State.cond; split <;> simp
@[simp] theorem State.cond_bth : (s.cond b u c k).bth = s.bth := by unfold State.cond; split <;> simp
@[simp] theorem State.cond_ofc : (s.cond b u c k).ofc = s.ofc := by unfold State.cond; split <;> simp
@[simp] theorem State.cond_org : (s.cond b u c k).org = s.org := by unfold State.cond; split <;> simp
@[simp] theorem State.cond_orgStats : (s.cond b u c k).orgStats = s.orgStats := by unfold State.cond; split <;> simp
@[simp] theorem State.cond_orgStatCount : (s.cond b u c k).orgStatCount = s.orgStatCount := by unfold State.cond; split <;> simp
@[simp] theorem State.cond_tables : (s.cond b u c k).tables = s.tables := by unfold State.cond; split <;> simp
@[simp] theorem State.cond_load : (s.cond b u c k).load = s.load := by unfold State.cond; split <;> simp
@[simp] theorem State.cond_views : (s.cond b u c k).views = s.views := by unfold State.cond; split <;> simp
@[simp] theorem State.cond_parterre : (s.cond b u c k).parterre = s.parterre := by unfold State.cond; split <;> simp
@[simp] theorem State.cond_newest : (s.cond b u c k).newest = s.newest := by unfold State.cond; split <;> simp
@[simp] theorem State.cond_bufHolds : (s.cond b u c k).bufHolds = s.bufHolds := by unfold State.cond; split <;> simp
@[simp] theorem State.cond_glass : (s.cond b u c k).glass = s.glass := by unfold State.cond; split <;> simp
@[simp] theorem State.cond_sdi : (s.cond b u c k).sdi = s.sdi := by unfold State.cond; split <;> simp
@[simp] theorem State.cond_blv : (s.cond b u c k).blv = s.blv := by unfold State.cond; split <;> simp
@[simp] theorem State.cond_sun : (s.cond b u c k).sun = s.sun := by unfold State.cond; split <;> simp
@[simp] theorem State.cond_net : (s.cond b u c k).net = s.net := by unfold State.cond; split <;> simp
@[simp] theorem State.cond_bnd : (s.cond b u c k).bnd = s.bnd := by unfold State.cond; split <;> simp
@[simp] theorem State.cond_arb : (s.cond b u c k).arb = s.arb := by unfold State.cond; split <;> simp
@[simp] theorem State.cond_links : (s.cond b u c k).links = s.links := by unfold State.cond; split <;> simp
@[simp] theorem State.cond_outbox : (s.cond b u c k).outbox = s.outbox := by unfold State.cond; split <;> simp
@[simp] theorem State.cond_freeCount : (s.cond b u c k).freeCount = s.freeCount := by unfold State.cond; split <;> simp
@[simp] theorem State.cond_pending : (s.cond b u c k).pending = s.pending := by unfold State.cond; split <;> simp

end condFields

/-- An upstream failure may change the held faults and their reports and, where a memory channel failed, its registers, its record and one free value; nothing
else. -/
theorem State.upstream_eq (s : State) (u c : Nat) : s.upstream u c = { s with regs := (s.upstream u c).regs, mem := (s.upstream u c).mem, held := (s.upstream u c).held, reports := (s.upstream u c).reports, freeCount := (s.upstream u c).freeCount } := by
  unfold State.upstream State.memoryError
  split
  · rfl
  · split
    · split <;> rfl
    · rfl

section upstreamFields
variable (s : State) (u c : Nat)

@[simp] theorem State.upstream_shadow : (s.upstream u c).shadow = s.shadow := by rw [State.upstream_eq]
@[simp] theorem State.upstream_latches : (s.upstream u c).latches = s.latches := by rw [State.upstream_eq]
@[simp] theorem State.upstream_time : (s.upstream u c).time = s.time := by rw [State.upstream_eq]
@[simp] theorem State.upstream_due : (s.upstream u c).due = s.due := by rw [State.upstream_eq]
@[simp] theorem State.upstream_scheduled : (s.upstream u c).scheduled = s.scheduled := by rw [State.upstream_eq]
@[simp] theorem State.upstream_kiosk : (s.upstream u c).kiosk = s.kiosk := by rw [State.upstream_eq]
@[simp] theorem State.upstream_gth : (s.upstream u c).gth = s.gth := by rw [State.upstream_eq]
@[simp] theorem State.upstream_qpb : (s.upstream u c).qpb = s.qpb := by rw [State.upstream_eq]
@[simp] theorem State.upstream_records : (s.upstream u c).records = s.records := by rw [State.upstream_eq]
@[simp] theorem State.upstream_lost : (s.upstream u c).lost = s.lost := by rw [State.upstream_eq]
@[simp] theorem State.upstream_irq : (s.upstream u c).irq = s.irq := by rw [State.upstream_eq]
@[simp] theorem State.upstream_stopped : (s.upstream u c).stopped = s.stopped := by rw [State.upstream_eq]
@[simp] theorem State.upstream_stalled : (s.upstream u c).stalled = s.stalled := by rw [State.upstream_eq]
@[simp] theorem State.upstream_dram : (s.upstream u c).dram = s.dram := by rw [State.upstream_eq]
@[simp] theorem State.upstream_trl : (s.upstream u c).trl = s.trl := by rw [State.upstream_eq]
@[simp] theorem State.upstream_dov : (s.upstream u c).dov = s.dov := by rw [State.upstream_eq]
@[simp] theorem State.upstream_pwm : (s.upstream u c).pwm = s.pwm := by rw [State.upstream_eq]
@[simp] theorem State.upstream_iceResync : (s.upstream u c).iceResync = s.iceResync := by rw [State.upstream_eq]
@[simp] theorem State.upstream_elapsed : (s.upstream u c).elapsed = s.elapsed := by rw [State.upstream_eq]
@[simp] theorem State.upstream_sns : (s.upstream u c).sns = s.sns := by rw [State.upstream_eq]
@[simp] theorem State.upstream_pwr : (s.upstream u c).pwr = s.pwr := by rw [State.upstream_eq]
@[simp] theorem State.upstream_sfe : (s.upstream u c).sfe = s.sfe := by rw [State.upstream_eq]
@[simp] theorem State.upstream_streams : (s.upstream u c).streams = s.streams := by rw [State.upstream_eq]
@[simp] theorem State.upstream_rawIn : (s.upstream u c).rawIn = s.rawIn := by rw [State.upstream_eq]
@[simp] theorem State.upstream_spi : (s.upstream u c).spi = s.spi := by rw [State.upstream_eq]
@[simp] theorem State.upstream_i2c : (s.upstream u c).i2c = s.i2c := by rw [State.upstream_eq]
@[simp] theorem State.upstream_trainFrom : (s.upstream u c).trainFrom = s.trainFrom := by rw [State.upstream_eq]
@[simp] theorem State.upstream_timecode : (s.upstream u c).timecode = s.timecode := by rw [State.upstream_eq]
@[simp] theorem State.upstream_isoStreams : (s.upstream u c).isoStreams = s.isoStreams := by rw [State.upstream_eq]
@[simp] theorem State.upstream_rcn : (s.upstream u c).rcn = s.rcn := by rw [State.upstream_eq]
@[simp] theorem State.upstream_integ : (s.upstream u c).integ = s.integ := by rw [State.upstream_eq]
@[simp] theorem State.upstream_stats : (s.upstream u c).stats = s.stats := by rw [State.upstream_eq]
@[simp] theorem State.upstream_statFrame : (s.upstream u c).statFrame = s.statFrame := by rw [State.upstream_eq]
@[simp] theorem State.upstream_ebeIn : (s.upstream u c).ebeIn = s.ebeIn := by rw [State.upstream_eq]
@[simp] theorem State.upstream_orgIn : (s.upstream u c).orgIn = s.orgIn := by rw [State.upstream_eq]
@[simp] theorem State.upstream_orgInB : (s.upstream u c).orgInB = s.orgInB := by rw [State.upstream_eq]
@[simp] theorem State.upstream_ebe : (s.upstream u c).ebe = s.ebe := by rw [State.upstream_eq]
@[simp] theorem State.upstream_ebd : (s.upstream u c).ebd = s.ebd := by rw [State.upstream_eq]
@[simp] theorem State.upstream_bth : (s.upstream u c).bth = s.bth := by rw [State.upstream_eq]
@[simp] theorem State.upstream_ofc : (s.upstream u c).ofc = s.ofc := by rw [State.upstream_eq]
@[simp] theorem State.upstream_org : (s.upstream u c).org = s.org := by rw [State.upstream_eq]
@[simp] theorem State.upstream_orgStats : (s.upstream u c).orgStats = s.orgStats := by rw [State.upstream_eq]
@[simp] theorem State.upstream_orgStatCount : (s.upstream u c).orgStatCount = s.orgStatCount := by rw [State.upstream_eq]
@[simp] theorem State.upstream_tables : (s.upstream u c).tables = s.tables := by rw [State.upstream_eq]
@[simp] theorem State.upstream_load : (s.upstream u c).load = s.load := by rw [State.upstream_eq]
@[simp] theorem State.upstream_views : (s.upstream u c).views = s.views := by rw [State.upstream_eq]
@[simp] theorem State.upstream_parterre : (s.upstream u c).parterre = s.parterre := by rw [State.upstream_eq]
@[simp] theorem State.upstream_newest : (s.upstream u c).newest = s.newest := by rw [State.upstream_eq]
@[simp] theorem State.upstream_bufHolds : (s.upstream u c).bufHolds = s.bufHolds := by rw [State.upstream_eq]
@[simp] theorem State.upstream_glass : (s.upstream u c).glass = s.glass := by rw [State.upstream_eq]
@[simp] theorem State.upstream_sdi : (s.upstream u c).sdi = s.sdi := by rw [State.upstream_eq]
@[simp] theorem State.upstream_blv : (s.upstream u c).blv = s.blv := by rw [State.upstream_eq]
@[simp] theorem State.upstream_sun : (s.upstream u c).sun = s.sun := by rw [State.upstream_eq]
@[simp] theorem State.upstream_net : (s.upstream u c).net = s.net := by rw [State.upstream_eq]
@[simp] theorem State.upstream_bnd : (s.upstream u c).bnd = s.bnd := by rw [State.upstream_eq]
@[simp] theorem State.upstream_arb : (s.upstream u c).arb = s.arb := by rw [State.upstream_eq]
@[simp] theorem State.upstream_links : (s.upstream u c).links = s.links := by rw [State.upstream_eq]
@[simp] theorem State.upstream_outbox : (s.upstream u c).outbox = s.outbox := by rw [State.upstream_eq]
@[simp] theorem State.upstream_pending : (s.upstream u c).pending = s.pending := by rw [State.upstream_eq]

end upstreamFields

section frameStartFields
variable (s : State) (m i : Nat)

@[simp] theorem State.frameStart_regs : (s.frameStart m i).regs = s.regs := rfl
@[simp] theorem State.frameStart_shadow : (s.frameStart m i).shadow = s.shadow := rfl
@[simp] theorem State.frameStart_latches : (s.frameStart m i).latches = s.latches := rfl
@[simp] theorem State.frameStart_time : (s.frameStart m i).time = s.time := rfl
@[simp] theorem State.frameStart_scheduled : (s.frameStart m i).scheduled = s.scheduled := rfl
@[simp] theorem State.frameStart_kiosk : (s.frameStart m i).kiosk = s.kiosk := rfl
@[simp] theorem State.frameStart_gth : (s.frameStart m i).gth = s.gth := rfl
@[simp] theorem State.frameStart_qpb : (s.frameStart m i).qpb = s.qpb := rfl
@[simp] theorem State.frameStart_held : (s.frameStart m i).held = s.held := rfl
@[simp] theorem State.frameStart_reports : (s.frameStart m i).reports = s.reports := rfl
@[simp] theorem State.frameStart_records : (s.frameStart m i).records = s.records := rfl
@[simp] theorem State.frameStart_lost : (s.frameStart m i).lost = s.lost := rfl
@[simp] theorem State.frameStart_irq : (s.frameStart m i).irq = s.irq := rfl
@[simp] theorem State.frameStart_stopped : (s.frameStart m i).stopped = s.stopped := rfl
@[simp] theorem State.frameStart_stalled : (s.frameStart m i).stalled = s.stalled := rfl
@[simp] theorem State.frameStart_dram : (s.frameStart m i).dram = s.dram := rfl
@[simp] theorem State.frameStart_trl : (s.frameStart m i).trl = s.trl := rfl
@[simp] theorem State.frameStart_mem : (s.frameStart m i).mem = s.mem := rfl
@[simp] theorem State.frameStart_dov : (s.frameStart m i).dov = s.dov := rfl
@[simp] theorem State.frameStart_pwm : (s.frameStart m i).pwm = s.pwm := rfl
@[simp] theorem State.frameStart_iceResync : (s.frameStart m i).iceResync = s.iceResync := rfl
@[simp] theorem State.frameStart_elapsed : (s.frameStart m i).elapsed = s.elapsed := rfl
@[simp] theorem State.frameStart_sns : (s.frameStart m i).sns = s.sns := rfl
@[simp] theorem State.frameStart_pwr : (s.frameStart m i).pwr = s.pwr := rfl
@[simp] theorem State.frameStart_sfe : (s.frameStart m i).sfe = s.sfe := rfl
@[simp] theorem State.frameStart_streams : (s.frameStart m i).streams = s.streams := rfl
@[simp] theorem State.frameStart_rawIn : (s.frameStart m i).rawIn = s.rawIn := rfl
@[simp] theorem State.frameStart_spi : (s.frameStart m i).spi = s.spi := rfl
@[simp] theorem State.frameStart_i2c : (s.frameStart m i).i2c = s.i2c := rfl
@[simp] theorem State.frameStart_trainFrom : (s.frameStart m i).trainFrom = s.trainFrom := rfl
@[simp] theorem State.frameStart_timecode : (s.frameStart m i).timecode = s.timecode := rfl
@[simp] theorem State.frameStart_isoStreams : (s.frameStart m i).isoStreams = s.isoStreams := rfl
@[simp] theorem State.frameStart_rcn : (s.frameStart m i).rcn = s.rcn := rfl
@[simp] theorem State.frameStart_integ : (s.frameStart m i).integ = s.integ := rfl
@[simp] theorem State.frameStart_stats : (s.frameStart m i).stats = s.stats := rfl
@[simp] theorem State.frameStart_statFrame : (s.frameStart m i).statFrame = s.statFrame := rfl
@[simp] theorem State.frameStart_ebeIn : (s.frameStart m i).ebeIn = s.ebeIn := rfl
@[simp] theorem State.frameStart_orgIn : (s.frameStart m i).orgIn = s.orgIn := rfl
@[simp] theorem State.frameStart_orgInB : (s.frameStart m i).orgInB = s.orgInB := rfl
@[simp] theorem State.frameStart_ebe : (s.frameStart m i).ebe = s.ebe := rfl
@[simp] theorem State.frameStart_ebd : (s.frameStart m i).ebd = s.ebd := rfl
@[simp] theorem State.frameStart_bth : (s.frameStart m i).bth = s.bth := rfl
@[simp] theorem State.frameStart_ofc : (s.frameStart m i).ofc = s.ofc := rfl
@[simp] theorem State.frameStart_org : (s.frameStart m i).org = s.org := rfl
@[simp] theorem State.frameStart_orgStats : (s.frameStart m i).orgStats = s.orgStats := rfl
@[simp] theorem State.frameStart_orgStatCount : (s.frameStart m i).orgStatCount = s.orgStatCount := rfl
@[simp] theorem State.frameStart_tables : (s.frameStart m i).tables = s.tables := rfl
@[simp] theorem State.frameStart_load : (s.frameStart m i).load = s.load := rfl
@[simp] theorem State.frameStart_views : (s.frameStart m i).views = s.views := rfl
@[simp] theorem State.frameStart_parterre : (s.frameStart m i).parterre = s.parterre := rfl
@[simp] theorem State.frameStart_newest : (s.frameStart m i).newest = s.newest := rfl
@[simp] theorem State.frameStart_bufHolds : (s.frameStart m i).bufHolds = s.bufHolds := rfl
@[simp] theorem State.frameStart_glass : (s.frameStart m i).glass = s.glass := rfl
@[simp] theorem State.frameStart_sdi : (s.frameStart m i).sdi = s.sdi := rfl
@[simp] theorem State.frameStart_blv : (s.frameStart m i).blv = s.blv := rfl
@[simp] theorem State.frameStart_sun : (s.frameStart m i).sun = s.sun := rfl
@[simp] theorem State.frameStart_net : (s.frameStart m i).net = s.net := rfl
@[simp] theorem State.frameStart_bnd : (s.frameStart m i).bnd = s.bnd := rfl
@[simp] theorem State.frameStart_arb : (s.frameStart m i).arb = s.arb := rfl
@[simp] theorem State.frameStart_links : (s.frameStart m i).links = s.links := rfl
@[simp] theorem State.frameStart_outbox : (s.frameStart m i).outbox = s.outbox := rfl
@[simp] theorem State.frameStart_freeCount : (s.frameStart m i).freeCount = s.freeCount := rfl
@[simp] theorem State.frameStart_pending : (s.frameStart m i).pending = s.pending := rfl

end frameStartFields

section latchFields
variable (s : State) (c p : Nat)

@[simp] theorem State.latch_regs : (s.latch c p).regs = s.regs := rfl
@[simp] theorem State.latch_shadow : (s.latch c p).shadow = s.shadow := rfl
@[simp] theorem State.latch_time : (s.latch c p).time = s.time := rfl
@[simp] theorem State.latch_due : (s.latch c p).due = s.due := rfl
@[simp] theorem State.latch_scheduled : (s.latch c p).scheduled = s.scheduled := rfl
@[simp] theorem State.latch_kiosk : (s.latch c p).kiosk = s.kiosk := rfl
@[simp] theorem State.latch_gth : (s.latch c p).gth = s.gth := rfl
@[simp] theorem State.latch_qpb : (s.latch c p).qpb = s.qpb := rfl
@[simp] theorem State.latch_held : (s.latch c p).held = s.held := rfl
@[simp] theorem State.latch_reports : (s.latch c p).reports = s.reports := rfl
@[simp] theorem State.latch_records : (s.latch c p).records = s.records := rfl
@[simp] theorem State.latch_lost : (s.latch c p).lost = s.lost := rfl
@[simp] theorem State.latch_irq : (s.latch c p).irq = s.irq := rfl
@[simp] theorem State.latch_stopped : (s.latch c p).stopped = s.stopped := rfl
@[simp] theorem State.latch_stalled : (s.latch c p).stalled = s.stalled := rfl
@[simp] theorem State.latch_dram : (s.latch c p).dram = s.dram := rfl
@[simp] theorem State.latch_trl : (s.latch c p).trl = s.trl := rfl
@[simp] theorem State.latch_mem : (s.latch c p).mem = s.mem := rfl
@[simp] theorem State.latch_dov : (s.latch c p).dov = s.dov := rfl
@[simp] theorem State.latch_pwm : (s.latch c p).pwm = s.pwm := rfl
@[simp] theorem State.latch_iceResync : (s.latch c p).iceResync = s.iceResync := rfl
@[simp] theorem State.latch_elapsed : (s.latch c p).elapsed = s.elapsed := rfl
@[simp] theorem State.latch_sns : (s.latch c p).sns = s.sns := rfl
@[simp] theorem State.latch_pwr : (s.latch c p).pwr = s.pwr := rfl
@[simp] theorem State.latch_sfe : (s.latch c p).sfe = s.sfe := rfl
@[simp] theorem State.latch_streams : (s.latch c p).streams = s.streams := rfl
@[simp] theorem State.latch_rawIn : (s.latch c p).rawIn = s.rawIn := rfl
@[simp] theorem State.latch_spi : (s.latch c p).spi = s.spi := rfl
@[simp] theorem State.latch_i2c : (s.latch c p).i2c = s.i2c := rfl
@[simp] theorem State.latch_trainFrom : (s.latch c p).trainFrom = s.trainFrom := rfl
@[simp] theorem State.latch_timecode : (s.latch c p).timecode = s.timecode := rfl
@[simp] theorem State.latch_isoStreams : (s.latch c p).isoStreams = s.isoStreams := rfl
@[simp] theorem State.latch_rcn : (s.latch c p).rcn = s.rcn := rfl
@[simp] theorem State.latch_integ : (s.latch c p).integ = s.integ := rfl
@[simp] theorem State.latch_stats : (s.latch c p).stats = s.stats := rfl
@[simp] theorem State.latch_statFrame : (s.latch c p).statFrame = s.statFrame := rfl
@[simp] theorem State.latch_ebeIn : (s.latch c p).ebeIn = s.ebeIn := rfl
@[simp] theorem State.latch_orgIn : (s.latch c p).orgIn = s.orgIn := rfl
@[simp] theorem State.latch_orgInB : (s.latch c p).orgInB = s.orgInB := rfl
@[simp] theorem State.latch_ebe : (s.latch c p).ebe = s.ebe := rfl
@[simp] theorem State.latch_ebd : (s.latch c p).ebd = s.ebd := rfl
@[simp] theorem State.latch_bth : (s.latch c p).bth = s.bth := rfl
@[simp] theorem State.latch_ofc : (s.latch c p).ofc = s.ofc := rfl
@[simp] theorem State.latch_org : (s.latch c p).org = s.org := rfl
@[simp] theorem State.latch_orgStats : (s.latch c p).orgStats = s.orgStats := rfl
@[simp] theorem State.latch_orgStatCount : (s.latch c p).orgStatCount = s.orgStatCount := rfl
@[simp] theorem State.latch_tables : (s.latch c p).tables = s.tables := rfl
@[simp] theorem State.latch_load : (s.latch c p).load = s.load := rfl
@[simp] theorem State.latch_views : (s.latch c p).views = s.views := rfl
@[simp] theorem State.latch_parterre : (s.latch c p).parterre = s.parterre := rfl
@[simp] theorem State.latch_newest : (s.latch c p).newest = s.newest := rfl
@[simp] theorem State.latch_bufHolds : (s.latch c p).bufHolds = s.bufHolds := rfl
@[simp] theorem State.latch_glass : (s.latch c p).glass = s.glass := rfl
@[simp] theorem State.latch_sdi : (s.latch c p).sdi = s.sdi := rfl
@[simp] theorem State.latch_blv : (s.latch c p).blv = s.blv := rfl
@[simp] theorem State.latch_sun : (s.latch c p).sun = s.sun := rfl
@[simp] theorem State.latch_net : (s.latch c p).net = s.net := rfl
@[simp] theorem State.latch_bnd : (s.latch c p).bnd = s.bnd := rfl
@[simp] theorem State.latch_arb : (s.latch c p).arb = s.arb := rfl
@[simp] theorem State.latch_links : (s.latch c p).links = s.links := rfl
@[simp] theorem State.latch_outbox : (s.latch c p).outbox = s.outbox := rfl
@[simp] theorem State.latch_freeCount : (s.latch c p).freeCount = s.freeCount := rfl
@[simp] theorem State.latch_pending : (s.latch c p).pending = s.pending := rfl

end latchFields

section storeFields
variable (s : State) (a : Nat) (bs : List Byte)

@[simp] theorem State.store_regs : (s.store a bs).regs = s.regs := rfl
@[simp] theorem State.store_shadow : (s.store a bs).shadow = s.shadow := rfl
@[simp] theorem State.store_latches : (s.store a bs).latches = s.latches := rfl
@[simp] theorem State.store_time : (s.store a bs).time = s.time := rfl
@[simp] theorem State.store_due : (s.store a bs).due = s.due := rfl
@[simp] theorem State.store_scheduled : (s.store a bs).scheduled = s.scheduled := rfl
@[simp] theorem State.store_kiosk : (s.store a bs).kiosk = s.kiosk := rfl
@[simp] theorem State.store_gth : (s.store a bs).gth = s.gth := rfl
@[simp] theorem State.store_qpb : (s.store a bs).qpb = s.qpb := rfl
@[simp] theorem State.store_held : (s.store a bs).held = s.held := rfl
@[simp] theorem State.store_reports : (s.store a bs).reports = s.reports := rfl
@[simp] theorem State.store_records : (s.store a bs).records = s.records := rfl
@[simp] theorem State.store_lost : (s.store a bs).lost = s.lost := rfl
@[simp] theorem State.store_irq : (s.store a bs).irq = s.irq := rfl
@[simp] theorem State.store_stopped : (s.store a bs).stopped = s.stopped := rfl
@[simp] theorem State.store_stalled : (s.store a bs).stalled = s.stalled := rfl
@[simp] theorem State.store_trl : (s.store a bs).trl = s.trl := rfl
@[simp] theorem State.store_mem : (s.store a bs).mem = s.mem := rfl
@[simp] theorem State.store_dov : (s.store a bs).dov = s.dov := rfl
@[simp] theorem State.store_pwm : (s.store a bs).pwm = s.pwm := rfl
@[simp] theorem State.store_iceResync : (s.store a bs).iceResync = s.iceResync := rfl
@[simp] theorem State.store_elapsed : (s.store a bs).elapsed = s.elapsed := rfl
@[simp] theorem State.store_sns : (s.store a bs).sns = s.sns := rfl
@[simp] theorem State.store_pwr : (s.store a bs).pwr = s.pwr := rfl
@[simp] theorem State.store_sfe : (s.store a bs).sfe = s.sfe := rfl
@[simp] theorem State.store_streams : (s.store a bs).streams = s.streams := rfl
@[simp] theorem State.store_rawIn : (s.store a bs).rawIn = s.rawIn := rfl
@[simp] theorem State.store_spi : (s.store a bs).spi = s.spi := rfl
@[simp] theorem State.store_i2c : (s.store a bs).i2c = s.i2c := rfl
@[simp] theorem State.store_trainFrom : (s.store a bs).trainFrom = s.trainFrom := rfl
@[simp] theorem State.store_timecode : (s.store a bs).timecode = s.timecode := rfl
@[simp] theorem State.store_isoStreams : (s.store a bs).isoStreams = s.isoStreams := rfl
@[simp] theorem State.store_rcn : (s.store a bs).rcn = s.rcn := rfl
@[simp] theorem State.store_integ : (s.store a bs).integ = s.integ := rfl
@[simp] theorem State.store_stats : (s.store a bs).stats = s.stats := rfl
@[simp] theorem State.store_statFrame : (s.store a bs).statFrame = s.statFrame := rfl
@[simp] theorem State.store_ebeIn : (s.store a bs).ebeIn = s.ebeIn := rfl
@[simp] theorem State.store_orgIn : (s.store a bs).orgIn = s.orgIn := rfl
@[simp] theorem State.store_orgInB : (s.store a bs).orgInB = s.orgInB := rfl
@[simp] theorem State.store_ebe : (s.store a bs).ebe = s.ebe := rfl
@[simp] theorem State.store_ebd : (s.store a bs).ebd = s.ebd := rfl
@[simp] theorem State.store_bth : (s.store a bs).bth = s.bth := rfl
@[simp] theorem State.store_ofc : (s.store a bs).ofc = s.ofc := rfl
@[simp] theorem State.store_org : (s.store a bs).org = s.org := rfl
@[simp] theorem State.store_orgStats : (s.store a bs).orgStats = s.orgStats := rfl
@[simp] theorem State.store_orgStatCount : (s.store a bs).orgStatCount = s.orgStatCount := rfl
@[simp] theorem State.store_tables : (s.store a bs).tables = s.tables := rfl
@[simp] theorem State.store_load : (s.store a bs).load = s.load := rfl
@[simp] theorem State.store_views : (s.store a bs).views = s.views := rfl
@[simp] theorem State.store_parterre : (s.store a bs).parterre = s.parterre := rfl
@[simp] theorem State.store_newest : (s.store a bs).newest = s.newest := rfl
@[simp] theorem State.store_bufHolds : (s.store a bs).bufHolds = s.bufHolds := rfl
@[simp] theorem State.store_glass : (s.store a bs).glass = s.glass := rfl
@[simp] theorem State.store_sdi : (s.store a bs).sdi = s.sdi := rfl
@[simp] theorem State.store_blv : (s.store a bs).blv = s.blv := rfl
@[simp] theorem State.store_sun : (s.store a bs).sun = s.sun := rfl
@[simp] theorem State.store_net : (s.store a bs).net = s.net := rfl
@[simp] theorem State.store_bnd : (s.store a bs).bnd = s.bnd := rfl
@[simp] theorem State.store_arb : (s.store a bs).arb = s.arb := rfl
@[simp] theorem State.store_links : (s.store a bs).links = s.links := rfl
@[simp] theorem State.store_outbox : (s.store a bs).outbox = s.outbox := rfl
@[simp] theorem State.store_freeCount : (s.store a bs).freeCount = s.freeCount := rfl
@[simp] theorem State.store_pending : (s.store a bs).pending = s.pending := rfl

end storeFields

section markArmedFields
variable (s : State) (g : Nat)

@[simp] theorem State.markArmed_shadow : (s.markArmed g).shadow = s.shadow := rfl
@[simp] theorem State.markArmed_latches : (s.markArmed g).latches = s.latches := rfl
@[simp] theorem State.markArmed_time : (s.markArmed g).time = s.time := rfl
@[simp] theorem State.markArmed_due : (s.markArmed g).due = s.due := rfl
@[simp] theorem State.markArmed_scheduled : (s.markArmed g).scheduled = s.scheduled := rfl
@[simp] theorem State.markArmed_kiosk : (s.markArmed g).kiosk = s.kiosk := rfl
@[simp] theorem State.markArmed_gth : (s.markArmed g).gth = s.gth := rfl
@[simp] theorem State.markArmed_qpb : (s.markArmed g).qpb = s.qpb := rfl
@[simp] theorem State.markArmed_held : (s.markArmed g).held = s.held := rfl
@[simp] theorem State.markArmed_reports : (s.markArmed g).reports = s.reports := rfl
@[simp] theorem State.markArmed_records : (s.markArmed g).records = s.records := rfl
@[simp] theorem State.markArmed_lost : (s.markArmed g).lost = s.lost := rfl
@[simp] theorem State.markArmed_irq : (s.markArmed g).irq = s.irq := rfl
@[simp] theorem State.markArmed_stopped : (s.markArmed g).stopped = s.stopped := rfl
@[simp] theorem State.markArmed_stalled : (s.markArmed g).stalled = s.stalled := rfl
@[simp] theorem State.markArmed_dram : (s.markArmed g).dram = s.dram := rfl
@[simp] theorem State.markArmed_trl : (s.markArmed g).trl = s.trl := rfl
@[simp] theorem State.markArmed_mem : (s.markArmed g).mem = s.mem := rfl
@[simp] theorem State.markArmed_dov : (s.markArmed g).dov = s.dov := rfl
@[simp] theorem State.markArmed_pwm : (s.markArmed g).pwm = s.pwm := rfl
@[simp] theorem State.markArmed_iceResync : (s.markArmed g).iceResync = s.iceResync := rfl
@[simp] theorem State.markArmed_elapsed : (s.markArmed g).elapsed = s.elapsed := rfl
@[simp] theorem State.markArmed_sns : (s.markArmed g).sns = s.sns := rfl
@[simp] theorem State.markArmed_pwr : (s.markArmed g).pwr = s.pwr := rfl
@[simp] theorem State.markArmed_sfe : (s.markArmed g).sfe = s.sfe := rfl
@[simp] theorem State.markArmed_streams : (s.markArmed g).streams = s.streams := rfl
@[simp] theorem State.markArmed_rawIn : (s.markArmed g).rawIn = s.rawIn := rfl
@[simp] theorem State.markArmed_spi : (s.markArmed g).spi = s.spi := rfl
@[simp] theorem State.markArmed_i2c : (s.markArmed g).i2c = s.i2c := rfl
@[simp] theorem State.markArmed_trainFrom : (s.markArmed g).trainFrom = s.trainFrom := rfl
@[simp] theorem State.markArmed_timecode : (s.markArmed g).timecode = s.timecode := rfl
@[simp] theorem State.markArmed_isoStreams : (s.markArmed g).isoStreams = s.isoStreams := rfl
@[simp] theorem State.markArmed_rcn : (s.markArmed g).rcn = s.rcn := rfl
@[simp] theorem State.markArmed_integ : (s.markArmed g).integ = s.integ := rfl
@[simp] theorem State.markArmed_stats : (s.markArmed g).stats = s.stats := rfl
@[simp] theorem State.markArmed_statFrame : (s.markArmed g).statFrame = s.statFrame := rfl
@[simp] theorem State.markArmed_ebeIn : (s.markArmed g).ebeIn = s.ebeIn := rfl
@[simp] theorem State.markArmed_orgIn : (s.markArmed g).orgIn = s.orgIn := rfl
@[simp] theorem State.markArmed_orgInB : (s.markArmed g).orgInB = s.orgInB := rfl
@[simp] theorem State.markArmed_ebe : (s.markArmed g).ebe = s.ebe := rfl
@[simp] theorem State.markArmed_ebd : (s.markArmed g).ebd = s.ebd := rfl
@[simp] theorem State.markArmed_bth : (s.markArmed g).bth = s.bth := rfl
@[simp] theorem State.markArmed_ofc : (s.markArmed g).ofc = s.ofc := rfl
@[simp] theorem State.markArmed_org : (s.markArmed g).org = s.org := rfl
@[simp] theorem State.markArmed_orgStats : (s.markArmed g).orgStats = s.orgStats := rfl
@[simp] theorem State.markArmed_orgStatCount : (s.markArmed g).orgStatCount = s.orgStatCount := rfl
@[simp] theorem State.markArmed_tables : (s.markArmed g).tables = s.tables := rfl
@[simp] theorem State.markArmed_load : (s.markArmed g).load = s.load := rfl
@[simp] theorem State.markArmed_views : (s.markArmed g).views = s.views := rfl
@[simp] theorem State.markArmed_parterre : (s.markArmed g).parterre = s.parterre := rfl
@[simp] theorem State.markArmed_newest : (s.markArmed g).newest = s.newest := rfl
@[simp] theorem State.markArmed_bufHolds : (s.markArmed g).bufHolds = s.bufHolds := rfl
@[simp] theorem State.markArmed_glass : (s.markArmed g).glass = s.glass := rfl
@[simp] theorem State.markArmed_sdi : (s.markArmed g).sdi = s.sdi := rfl
@[simp] theorem State.markArmed_blv : (s.markArmed g).blv = s.blv := rfl
@[simp] theorem State.markArmed_sun : (s.markArmed g).sun = s.sun := rfl
@[simp] theorem State.markArmed_net : (s.markArmed g).net = s.net := rfl
@[simp] theorem State.markArmed_bnd : (s.markArmed g).bnd = s.bnd := rfl
@[simp] theorem State.markArmed_arb : (s.markArmed g).arb = s.arb := rfl
@[simp] theorem State.markArmed_links : (s.markArmed g).links = s.links := rfl
@[simp] theorem State.markArmed_outbox : (s.markArmed g).outbox = s.outbox := rfl
@[simp] theorem State.markArmed_freeCount : (s.markArmed g).freeCount = s.freeCount := rfl
@[simp] theorem State.markArmed_pending : (s.markArmed g).pending = s.pending := rfl

end markArmedFields

section makeDueFields
variable (s : State) (g : Nat)

@[simp] theorem State.makeDue_regs : (s.makeDue g).regs = s.regs := rfl
@[simp] theorem State.makeDue_shadow : (s.makeDue g).shadow = s.shadow := rfl
@[simp] theorem State.makeDue_latches : (s.makeDue g).latches = s.latches := rfl
@[simp] theorem State.makeDue_time : (s.makeDue g).time = s.time := rfl
@[simp] theorem State.makeDue_scheduled : (s.makeDue g).scheduled = s.scheduled := rfl
@[simp] theorem State.makeDue_kiosk : (s.makeDue g).kiosk = s.kiosk := rfl
@[simp] theorem State.makeDue_gth : (s.makeDue g).gth = s.gth := rfl
@[simp] theorem State.makeDue_qpb : (s.makeDue g).qpb = s.qpb := rfl
@[simp] theorem State.makeDue_held : (s.makeDue g).held = s.held := rfl
@[simp] theorem State.makeDue_reports : (s.makeDue g).reports = s.reports := rfl
@[simp] theorem State.makeDue_records : (s.makeDue g).records = s.records := rfl
@[simp] theorem State.makeDue_lost : (s.makeDue g).lost = s.lost := rfl
@[simp] theorem State.makeDue_irq : (s.makeDue g).irq = s.irq := rfl
@[simp] theorem State.makeDue_stopped : (s.makeDue g).stopped = s.stopped := rfl
@[simp] theorem State.makeDue_stalled : (s.makeDue g).stalled = s.stalled := rfl
@[simp] theorem State.makeDue_dram : (s.makeDue g).dram = s.dram := rfl
@[simp] theorem State.makeDue_trl : (s.makeDue g).trl = s.trl := rfl
@[simp] theorem State.makeDue_mem : (s.makeDue g).mem = s.mem := rfl
@[simp] theorem State.makeDue_dov : (s.makeDue g).dov = s.dov := rfl
@[simp] theorem State.makeDue_pwm : (s.makeDue g).pwm = s.pwm := rfl
@[simp] theorem State.makeDue_iceResync : (s.makeDue g).iceResync = s.iceResync := rfl
@[simp] theorem State.makeDue_elapsed : (s.makeDue g).elapsed = s.elapsed := rfl
@[simp] theorem State.makeDue_sns : (s.makeDue g).sns = s.sns := rfl
@[simp] theorem State.makeDue_pwr : (s.makeDue g).pwr = s.pwr := rfl
@[simp] theorem State.makeDue_sfe : (s.makeDue g).sfe = s.sfe := rfl
@[simp] theorem State.makeDue_streams : (s.makeDue g).streams = s.streams := rfl
@[simp] theorem State.makeDue_rawIn : (s.makeDue g).rawIn = s.rawIn := rfl
@[simp] theorem State.makeDue_spi : (s.makeDue g).spi = s.spi := rfl
@[simp] theorem State.makeDue_i2c : (s.makeDue g).i2c = s.i2c := rfl
@[simp] theorem State.makeDue_trainFrom : (s.makeDue g).trainFrom = s.trainFrom := rfl
@[simp] theorem State.makeDue_timecode : (s.makeDue g).timecode = s.timecode := rfl
@[simp] theorem State.makeDue_isoStreams : (s.makeDue g).isoStreams = s.isoStreams := rfl
@[simp] theorem State.makeDue_rcn : (s.makeDue g).rcn = s.rcn := rfl
@[simp] theorem State.makeDue_integ : (s.makeDue g).integ = s.integ := rfl
@[simp] theorem State.makeDue_stats : (s.makeDue g).stats = s.stats := rfl
@[simp] theorem State.makeDue_statFrame : (s.makeDue g).statFrame = s.statFrame := rfl
@[simp] theorem State.makeDue_ebeIn : (s.makeDue g).ebeIn = s.ebeIn := rfl
@[simp] theorem State.makeDue_orgIn : (s.makeDue g).orgIn = s.orgIn := rfl
@[simp] theorem State.makeDue_orgInB : (s.makeDue g).orgInB = s.orgInB := rfl
@[simp] theorem State.makeDue_ebe : (s.makeDue g).ebe = s.ebe := rfl
@[simp] theorem State.makeDue_ebd : (s.makeDue g).ebd = s.ebd := rfl
@[simp] theorem State.makeDue_bth : (s.makeDue g).bth = s.bth := rfl
@[simp] theorem State.makeDue_ofc : (s.makeDue g).ofc = s.ofc := rfl
@[simp] theorem State.makeDue_org : (s.makeDue g).org = s.org := rfl
@[simp] theorem State.makeDue_orgStats : (s.makeDue g).orgStats = s.orgStats := rfl
@[simp] theorem State.makeDue_orgStatCount : (s.makeDue g).orgStatCount = s.orgStatCount := rfl
@[simp] theorem State.makeDue_tables : (s.makeDue g).tables = s.tables := rfl
@[simp] theorem State.makeDue_load : (s.makeDue g).load = s.load := rfl
@[simp] theorem State.makeDue_views : (s.makeDue g).views = s.views := rfl
@[simp] theorem State.makeDue_parterre : (s.makeDue g).parterre = s.parterre := rfl
@[simp] theorem State.makeDue_newest : (s.makeDue g).newest = s.newest := rfl
@[simp] theorem State.makeDue_bufHolds : (s.makeDue g).bufHolds = s.bufHolds := rfl
@[simp] theorem State.makeDue_glass : (s.makeDue g).glass = s.glass := rfl
@[simp] theorem State.makeDue_sdi : (s.makeDue g).sdi = s.sdi := rfl
@[simp] theorem State.makeDue_blv : (s.makeDue g).blv = s.blv := rfl
@[simp] theorem State.makeDue_sun : (s.makeDue g).sun = s.sun := rfl
@[simp] theorem State.makeDue_net : (s.makeDue g).net = s.net := rfl
@[simp] theorem State.makeDue_bnd : (s.makeDue g).bnd = s.bnd := rfl
@[simp] theorem State.makeDue_arb : (s.makeDue g).arb = s.arb := rfl
@[simp] theorem State.makeDue_links : (s.makeDue g).links = s.links := rfl
@[simp] theorem State.makeDue_outbox : (s.makeDue g).outbox = s.outbox := rfl
@[simp] theorem State.makeDue_freeCount : (s.makeDue g).freeCount = s.freeCount := rfl
@[simp] theorem State.makeDue_pending : (s.makeDue g).pending = s.pending := rfl

end makeDueFields

/-! ### Faults (R40, R55, R374) -/

theorem State.mem_hold (s : State) (h x : Held) : x ∈ (s.hold h).held ↔ x = h ∨ x ∈ s.held := by
  unfold State.hold
  simp only [List.mem_append, List.mem_filter, decide_eq_true_eq, List.mem_singleton]
  by_cases e : x = h <;> simp [e]

/-- An event fault adds its fault to the page, and keeps every other. -/
@[simp] theorem State.mem_event (s : State) (u c k : Nat) (x : Held) :
    x ∈ (s.event u c k).held ↔ x = { page := u / 16, cause := c, code := k, event := true, unit := u } ∨ x ∈ s.held := State.mem_hold _ _ _

@[simp] theorem State.mem_fault (s : State) (u k : Nat) (x : Held) :
    x ∈ (s.fault u k).held ↔ x = { page := u / 16, cause := u, code := k, event := true, unit := u } ∨ x ∈ s.held := State.mem_hold _ _ _

/-- An event fault sends one report, stamped with short time. -/
@[simp] theorem State.event_reports (s : State) (u c k : Nat) :
    (s.event u c k).reports = s.reports ++ [{ unit := u, cause := c, code := k, time := s.now }] := rfl

@[simp] theorem State.fault_reports (s : State) (u k : Nat) :
    (s.fault u k).reports = s.reports ++ [{ unit := u, cause := u, code := k, time := s.now }] := rfl

@[simp] theorem State.mem_condOn (s : State) (u c k : Nat) (x : Held) :
    x ∈ (s.condOn u c k).held ↔ x = { page := u / 16, cause := c, code := k, event := false, unit := u } ∨ x ∈ s.held := by
  unfold State.condOn State.holds
  split
  · rename_i h
    have h' : { page := u / 16, cause := c, code := k, event := false, unit := u } ∈ s.held := by simpa using h
    constructor
    · exact fun q => Or.inr q
    · rintro (q | q)
      · rw [q]; exact h'
      · exact q
  · exact State.mem_hold _ _ _

/-- A condition fault reports itself where it begins. -/
theorem State.condOn_reports (s : State) (u c k : Nat) (h : s.holds { page := u / 16, cause := c, code := k, event := false, unit := u } = false) :
    (s.condOn u c k).reports = s.reports ++ [{ unit := u, cause := c, code := k, time := s.now }] := by
  unfold State.condOn
  rw [h]; rfl

@[simp] theorem State.mem_condOff (s : State) (u c k : Nat) (x : Held) :
    x ∈ (s.condOff u c k).held ↔ x ∈ s.held ∧ x ≠ { page := u / 16, cause := c, code := k, event := false, unit := u } := by
  unfold State.condOff
  simp

/-! ### DRAM -/

/-- Where addresses are interleaved over the quarters, two of them never reach one place. -/
theorem quarterPlace_inj {cap a b : Nat} (h : quarterPlace cap a = quarterPlace cap b) : a = b := by
  have key : ∀ x, x < cap * 2 ^ 20 → ∃ ch j, ch < 16 ∧ quarterPlace cap x = 4096 * j + 256 * (ch ^^^ (j / 16 % 16)) + x % 256 ∧
      j < cap * 256 ∧ x = ch / 4 * (cap * 2 ^ 18) + 1024 * j + 256 * (ch % 4) + x % 256 := by
    intro x hx
    have hq : cap * 2 ^ 20 / 4 = cap * 2 ^ 18 := by omega
    have hp : 0 < cap * 2 ^ 18 := by omega
    have hg : x / (cap * 2 ^ 18) < 4 := by rw [Nat.div_lt_iff_lt_mul hp]; omega
    have hr : x % (cap * 2 ^ 18) < cap * 2 ^ 18 := Nat.mod_lt _ hp
    have hd := Nat.div_add_mod x (cap * 2 ^ 18)
    have hm : cap * 2 ^ 18 * (x / (cap * 2 ^ 18)) = x / (cap * 2 ^ 18) * (cap * 2 ^ 18) := Nat.mul_comm _ _
    refine ⟨4 * (x / (cap * 2 ^ 18)) + x / 256 % 4, (x - x / (cap * 2 ^ 18) * (cap * 2 ^ 18)) / 1024, by omega, ?_, ?_, ?_⟩
    · unfold quarterPlace dramMap
      rw [if_neg (by omega), if_neg (by simp)]
      simp only [hq, if_neg (Nat.ne_of_gt hp)]
    · have : x - x / (cap * 2 ^ 18) * (cap * 2 ^ 18) = x % (cap * 2 ^ 18) := by omega
      rw [this]; omega
    · have e : x - x / (cap * 2 ^ 18) * (cap * 2 ^ 18) = x % (cap * 2 ^ 18) := by omega
      have e4 : (4 * (x / (cap * 2 ^ 18)) + x / 256 % 4) / 4 = x / (cap * 2 ^ 18) := by omega
      have e5 : (4 * (x / (cap * 2 ^ 18)) + x / 256 % 4) % 4 = x / 256 % 4 := by omega
      have e6 : x / (cap * 2 ^ 18) * (cap * 2 ^ 18) % 1024 = 0 := by
        rw [show cap * 2 ^ 18 = 1024 * (cap * 256) by omega, ← Nat.mul_assoc, Nat.mul_comm _ 1024, Nat.mul_assoc, Nat.mul_mod_right]
      rw [e, e4, e5]
      generalize x / (cap * 2 ^ 18) * (cap * 2 ^ 18) = w at *
      generalize x % (cap * 2 ^ 18) = r at *
      omega
  have low : ∀ x, x < cap * 2 ^ 20 → quarterPlace cap x < cap * 2 ^ 20 := by
    intro x hx
    obtain ⟨ch, j, hc, hp, hj, -⟩ := key x hx
    have : ch ^^^ (j / 16 % 16) < 16 := Nat.xor_lt_two_pow (n := 4) hc (by omega)
    omega
  have high : ∀ x, ¬ x < cap * 2 ^ 20 → quarterPlace cap x = x := by
    intro x hx; unfold quarterPlace; rw [if_pos (by omega)]
  by_cases ha : a < cap * 2 ^ 20 <;> by_cases hb : b < cap * 2 ^ 20
  · obtain ⟨c1, j1, h1, p1, q1, r1⟩ := key a ha
    obtain ⟨c2, j2, h2, p2, q2, r2⟩ := key b hb
    have x1 : c1 ^^^ (j1 / 16 % 16) < 16 := Nat.xor_lt_two_pow (n := 4) h1 (by omega)
    have x2 : c2 ^^^ (j2 / 16 % 16) < 16 := Nat.xor_lt_two_pow (n := 4) h2 (by omega)
    rw [p1, p2] at h
    have hj : j1 = j2 := by omega
    subst hj
    have hx : c1 ^^^ (j1 / 16 % 16) = c2 ^^^ (j1 / 16 % 16) := by omega
    have hc : c1 = c2 := Nat.xor_left_injective hx
    subst hc
    omega
  · have := low a ha; rw [h, high b hb] at this; omega
  · have := low b hb; rw [← h, high a ha] at this; omega
  · rw [high a ha, high b hb] at h; exact h

/-- Two addresses never reach one place. -/
theorem State.place_inj (s : State) {a b : Nat} (h : s.place a = s.place b) : a = b := by
  unfold State.place at h
  split at h
  · exact h
  · exact quarterPlace_inj h

/-- Reading DRAM reads the places of the addresses, one by one. -/
theorem State.dramRead_eq (s : State) (addr n : Nat) : s.dramRead addr n = (List.range n).map (fun k => SMap.get dramDefault s.dram (s.place (addr + k))) := by
  unfold State.dramRead
  split
  · rename_i h
    refine List.ext_getElem (by simp) (fun i h1 _ => ?_)
    have e := SMap.getList_getElem dramDefault s.dram addr n i (by simpa using h1)
    rw [List.getElem?_eq_getElem h1, Option.some.injEq] at e
    simp [State.place, h, e]
  · rfl

theorem State.get_stored_list (s : State) (addr q : Nat) (bs : List Byte) (k : Nat) (m : List Host.Cell) :
    SMap.get dramDefault ((bs.zipIdx k).foldl (fun m e => SMap.set dramDefault m (s.place (addr + e.2)) e.1) m) (s.place q) =
      if addr + k ≤ q ∧ q < addr + k + bs.length then bs.getD (q - (addr + k)) 0 else SMap.get dramDefault m (s.place q) := by
  induction bs generalizing k m with
  | nil => rw [if_neg (by simp only [List.length_nil]; omega)]; rfl
  | cons b r ih =>
    rw [List.zipIdx_cons, List.foldl_cons, ih]
    simp only [List.length_cons]
    by_cases h : q = addr + k
    · subst h
      rw [if_neg (by omega), if_pos (by omega), SMap.get_set_same]
      simp
    · rw [SMap.get_set_other _ _ _ _ _ (fun e => h (s.place_inj e))]
      by_cases h2 : addr + (k + 1) ≤ q ∧ q < addr + (k + 1) + r.length
      · rw [if_pos h2, if_pos (by omega), show q - (addr + k) = q - (addr + (k + 1)) + 1 by omega]
        simp
      · rw [if_neg h2, if_neg (by omega)]

/-- One byte after bytes are stored: the stored one, or the one before. -/
theorem State.get_stored (s : State) (addr q : Nat) (bs : List Byte) : SMap.get dramDefault (s.stored addr bs) (s.place q) =
    if addr ≤ q ∧ q < addr + bs.length then bs.getD (q - addr) 0 else SMap.get dramDefault s.dram (s.place q) := by
  unfold State.stored
  split
  · rename_i h
    rw [SMap.get_setList]
    simp only [State.place, h, if_true, List.getD_eq_getElem?_getD]
    rfl
  · exact s.get_stored_list addr q bs 0 s.dram

theorem State.place_dramWrite (s : State) (addr q : Nat) (bs : List Byte) : (s.dramWrite addr bs).place q = s.place q := rfl

/-- One byte after a write of several. -/
theorem State.dramRead_dramWrite_outside (s : State) (addr : Nat) (bs : List Byte) (a : Nat) (h : a < addr ∨ addr + bs.length ≤ a) :
    (s.dramWrite addr bs).dramRead a 1 = s.dramRead a 1 := by
  simp only [State.dramRead_eq, State.place_dramWrite, State.dramWrite_dram, State.get_stored, List.range_one, List.map_cons, List.map_nil, Nat.add_zero]
  rw [if_neg (by omega)]

/-- Reading back what was written. -/
theorem State.dramRead_dramWrite_same (s : State) (addr : Nat) (bs : List Byte) : (s.dramWrite addr bs).dramRead addr bs.length = bs := by
  simp only [State.dramRead_eq, State.place_dramWrite, State.dramWrite_dram, State.get_stored]
  refine List.ext_getElem (by simp) (fun i h1 h2 => ?_)
  rw [List.getElem_map, List.getElem_range, if_pos (by omega)]
  simp [List.getD_eq_getElem?_getD, h2]

/-- Storing keeps the memory canonical. -/
theorem State.stored_wf (s : State) (addr : Nat) (bs : List Byte) (h : SMap.wf dramDefault s.dram = true) : SMap.wf dramDefault (s.stored addr bs) = true := by
  unfold State.stored
  split
  · exact SMap.wf_setList _ _ h
  · generalize s.dram = m at h
    generalize bs.zipIdx = l
    induction l generalizing m with
    | nil => exact h
    | cons e r ih => exact ih _ (SMap.wf_set _ h)

/-- A write keeps the memory canonical. -/
theorem State.dramWrite_wf (s : State) (addr : Nat) (bs : List Byte) (h : SMap.wf dramDefault s.dram = true) :
    SMap.wf dramDefault (s.dramWrite addr bs).dram = true := s.stored_wf addr bs h

/-- A block's own write keeps the memory canonical. -/
theorem State.store_wf (s : State) (addr : Nat) (bs : List Byte) (h : SMap.wf dramDefault s.dram = true) :
    SMap.wf dramDefault (s.store addr bs).dram = true := by
  unfold State.store
  exact s.dramWrite_wf _ _ h

/-! ### Registers that change and registers that stay -/

theorem RegFile.word_putFld_other (rf : RegFile) (a b l w x : Nat) (h : b ≠ a) : (rf.putFld a l w x).word b = rf.word b := by
  rw [RegFile.word_putFld, if_neg h]

theorem SameRegsBut.refl {s t : State} (l : List RegAddr) (h : t.regs = s.regs) : SameRegsBut l s t := fun b _ => by rw [h]

theorem SameRegsBut.putN {s t : State} {a n : Nat} (h : t.regs = s.regs.putN a n) : SameRegsBut [a] s t := by
  intro b hb
  rw [h, RegFile.word_putN, if_neg (by simpa using hb)]

theorem SameRegsBut.putFld {s t : State} {a l w n : Nat} (h : t.regs = s.regs.putFld a l w n) : SameRegsBut [a] s t := by
  intro b hb
  rw [h, RegFile.word_putFld, if_neg (by simpa using hb)]

theorem SameRegsBut.trans {s t u : State} {l m : List RegAddr} (h : SameRegsBut l s t) (k : SameRegsBut m t u) : SameRegsBut (l ++ m) s u := by
  intro b hb
  rw [List.mem_append, not_or] at hb
  rw [k b hb.2, h b hb.1]

/-! ### The fault collector (R56) -/

/-- A report of a cause that has a record adds to it. -/
theorem State.collect_known (s : State) (r : Report) (n : Nat) (rec : Record)
    (h : s.records.find? (fun e => e.2.cause == r.cause) = some (n, rec)) :
    s.collect r = { s with records := SMap.put s.records n (rec.again r) } := by
  unfold State.collect; simp only [h]

/-- The first report of a cause takes the lowest free slot. -/
theorem State.collect_new (s : State) (r : Report) (n : Nat) (h : s.records.find? (fun e => e.2.cause == r.cause) = none)
    (h2 : freeSlot s.records = some n) : s.collect r = (s.fillSlot n r.opens).alertCollector := by
  unfold State.collect; simp only [h, h2]

/-- With every slot taken, the report is lost and its cause counts once. -/
theorem State.collect_full (s : State) (r : Report) (h : s.records.find? (fun e => e.2.cause == r.cause) = none) (h2 : freeSlot s.records = none) :
    s.collect r = if s.lost.contains r.cause then s else ({ s with lost := s.lost ++ [r.cause] } : State).bump Adr.LDG.FC_OVERFLOW := by
  unfold State.collect; simp only [h, h2]

@[simp] theorem State.alertCollector_records (s : State) : s.alertCollector.records = s.records := by unfold State.alertCollector; split <;> rfl

@[simp] theorem State.alertCollector_held (s : State) : s.alertCollector.held = s.held := by unfold State.alertCollector; split <;> rfl

@[simp] theorem State.alertCollector_regs (s : State) : s.alertCollector.regs = s.regs := by unfold State.alertCollector; split <;> rfl

@[simp] theorem State.fillSlot_records (s : State) (n : Nat) (rec : Record) : (s.fillSlot n rec).records = SMap.put s.records n rec := by
  unfold State.fillSlot State.syncCollector
  rw [State.setFld_records, State.setFld_records, State.setFld_records]

@[simp] theorem State.fillSlot_held (s : State) (n : Nat) (rec : Record) : (s.fillSlot n rec).held = s.held := by
  unfold State.fillSlot State.syncCollector
  rw [State.setFld_held, State.setFld_held, State.setFld_held]

/-! ### Counters restarted (R367) -/

theorem State.rd_zeroed (l : List RegAddr) (t : State) (a : RegAddr) : (l.foldl (fun t b => t.setReg b 0) t).rd a = if a ∈ l then 0 else t.rd a := by
  induction l generalizing t with
  | nil => simp
  | cons x r ih => rw [List.foldl_cons, ih, State.rd_setReg]; by_cases h1 : a ∈ r <;> by_cases h2 : a = x <;> simp [h1, h2]

/-- The registers that a restart reaches. -/
def Restarts (mask : Nat) (l : List (List RegAddr)) (a : RegAddr) : Prop := ∃ i as, l[i]? = some as ∧ a ∈ as ∧ bitOf mask i = true

theorem bitOf_half (mask i : Nat) : bitOf (mask / 2) i = bitOf mask (i + 1) := by unfold bitOf; rw [Nat.div_div_eq_div_mul, ← Nat.pow_succ']

theorem restarts_cons (mask : Nat) (as : List RegAddr) (r : List (List RegAddr)) (a : RegAddr) :
    Restarts mask (as :: r) a ↔ (a ∈ as ∧ bitOf mask 0 = true) ∨ Restarts (mask / 2) r a := by
  constructor
  · rintro ⟨i, bs, h1, h2, h3⟩
    match i, h1, h3 with
    | 0, h1, h3 => left; simp only [List.getElem?_cons_zero, Option.some.injEq] at h1; exact ⟨h1 ▸ h2, h3⟩
    | i + 1, h1, h3 => right; exact ⟨i, bs, by simpa using h1, h2, by rw [bitOf_half]; exact h3⟩
  · rintro (h | ⟨i, bs, h1, h2, h3⟩)
    · exact ⟨0, as, by simp, h.1, h.2⟩
    · exact ⟨i + 1, bs, by simpa using h1, h2, by rw [← bitOf_half]; exact h3⟩

/-- A restart clears the counters it reaches, and no other register. -/
theorem State.rd_restart (l : List (List RegAddr)) (s : State) (mask : Nat) (a : RegAddr) :
    (Restarts mask l a → (s.restart mask l).rd a = 0) ∧ (¬ Restarts mask l a → (s.restart mask l).rd a = s.rd a) := by
  induction l generalizing s mask with
  | nil =>
    refine ⟨?_, fun _ => rfl⟩
    rintro ⟨i, as, h, _⟩
    exact absurd h (by simp)
  | cons as r ih =>
    rw [restarts_cons]
    unfold State.restart
    refine ⟨fun h => ?_, fun h => ?_⟩
    · by_cases hr : Restarts (mask / 2) r a
      · exact (ih _ _).1 hr
      · rw [(ih _ _).2 hr]
        have h0 := h.resolve_right hr
        rw [if_pos h0.2, State.rd_zeroed, if_pos h0.1]
    · rw [not_or] at h
      rw [(ih _ _).2 h.2]
      split
      · rename_i hb; rw [State.rd_zeroed, if_neg (fun q => h.1 ⟨q, hb⟩)]
      · rfl
theorem State.zeroed_eq (l : List RegAddr) (t : State) : l.foldl (fun t a => t.setReg a 0) t = { t with regs := (l.foldl (fun t a => t.setReg a 0) t).regs } := by
  induction l generalizing t with
  | nil => rfl
  | cons x r ih => rw [List.foldl_cons, ih]; rfl
/-- A restart changes registers only. -/
theorem State.restart_eq (l : List (List RegAddr)) (s : State) (mask : Nat) : s.restart mask l = { s with regs := (s.restart mask l).regs } := by
  induction l generalizing s mask with
  | nil => rfl
  | cons as r ih =>
    unfold State.restart
    rw [ih]
    split
    · rw [State.zeroed_eq]
    · rfl

/-! ### Register writes -/

section storeRegFields
variable (s : State) (a v : Nat)

@[simp] theorem State.storeReg_latches : (s.storeReg a v).latches = s.latches := by unfold State.storeReg; dsimp only; split <;> split <;> rfl
@[simp] theorem State.storeReg_time : (s.storeReg a v).time = s.time := by unfold State.storeReg; dsimp only; split <;> split <;> rfl
@[simp] theorem State.storeReg_due : (s.storeReg a v).due = s.due := by unfold State.storeReg; dsimp only; split <;> split <;> rfl
@[simp] theorem State.storeReg_scheduled : (s.storeReg a v).scheduled = s.scheduled := by unfold State.storeReg; dsimp only; split <;> split <;> rfl
@[simp] theorem State.storeReg_kiosk : (s.storeReg a v).kiosk = s.kiosk := by unfold State.storeReg; dsimp only; split <;> split <;> rfl
@[simp] theorem State.storeReg_gth : (s.storeReg a v).gth = s.gth := by unfold State.storeReg; dsimp only; split <;> split <;> rfl
@[simp] theorem State.storeReg_qpb : (s.storeReg a v).qpb = s.qpb := by unfold State.storeReg; dsimp only; split <;> split <;> rfl
@[simp] theorem State.storeReg_held : (s.storeReg a v).held = s.held := by unfold State.storeReg; dsimp only; split <;> split <;> rfl
@[simp] theorem State.storeReg_reports : (s.storeReg a v).reports = s.reports := by unfold State.storeReg; dsimp only; split <;> split <;> rfl
@[simp] theorem State.storeReg_records : (s.storeReg a v).records = s.records := by unfold State.storeReg; dsimp only; split <;> split <;> rfl
@[simp] theorem State.storeReg_lost : (s.storeReg a v).lost = s.lost := by unfold State.storeReg; dsimp only; split <;> split <;> rfl
@[simp] theorem State.storeReg_irq : (s.storeReg a v).irq = s.irq := by unfold State.storeReg; dsimp only; split <;> split <;> rfl
@[simp] theorem State.storeReg_stopped : (s.storeReg a v).stopped = s.stopped := by unfold State.storeReg; dsimp only; split <;> split <;> rfl
@[simp] theorem State.storeReg_stalled : (s.storeReg a v).stalled = s.stalled := by unfold State.storeReg; dsimp only; split <;> split <;> rfl
@[simp] theorem State.storeReg_dram : (s.storeReg a v).dram = s.dram := by unfold State.storeReg; dsimp only; split <;> split <;> rfl
@[simp] theorem State.storeReg_trl : (s.storeReg a v).trl = s.trl := by unfold State.storeReg; dsimp only; split <;> split <;> rfl
@[simp] theorem State.storeReg_mem : (s.storeReg a v).mem = s.mem := by unfold State.storeReg; dsimp only; split <;> split <;> rfl
@[simp] theorem State.storeReg_dov : (s.storeReg a v).dov = s.dov := by unfold State.storeReg; dsimp only; split <;> split <;> rfl
@[simp] theorem State.storeReg_pwm : (s.storeReg a v).pwm = s.pwm := by unfold State.storeReg; dsimp only; split <;> split <;> rfl
@[simp] theorem State.storeReg_iceResync : (s.storeReg a v).iceResync = s.iceResync := by unfold State.storeReg; dsimp only; split <;> split <;> rfl
@[simp] theorem State.storeReg_elapsed : (s.storeReg a v).elapsed = s.elapsed := by unfold State.storeReg; dsimp only; split <;> split <;> rfl
@[simp] theorem State.storeReg_sns : (s.storeReg a v).sns = s.sns := by unfold State.storeReg; dsimp only; split <;> split <;> rfl
@[simp] theorem State.storeReg_pwr : (s.storeReg a v).pwr = s.pwr := by unfold State.storeReg; dsimp only; split <;> split <;> rfl
@[simp] theorem State.storeReg_sfe : (s.storeReg a v).sfe = s.sfe := by unfold State.storeReg; dsimp only; split <;> split <;> rfl
@[simp] theorem State.storeReg_streams : (s.storeReg a v).streams = s.streams := by unfold State.storeReg; dsimp only; split <;> split <;> rfl
@[simp] theorem State.storeReg_rawIn : (s.storeReg a v).rawIn = s.rawIn := by unfold State.storeReg; dsimp only; split <;> split <;> rfl
@[simp] theorem State.storeReg_spi : (s.storeReg a v).spi = s.spi := by unfold State.storeReg; dsimp only; split <;> split <;> rfl
@[simp] theorem State.storeReg_i2c : (s.storeReg a v).i2c = s.i2c := by unfold State.storeReg; dsimp only; split <;> split <;> rfl
@[simp] theorem State.storeReg_trainFrom : (s.storeReg a v).trainFrom = s.trainFrom := by unfold State.storeReg; dsimp only; split <;> split <;> rfl
@[simp] theorem State.storeReg_timecode : (s.storeReg a v).timecode = s.timecode := by unfold State.storeReg; dsimp only; split <;> split <;> rfl
@[simp] theorem State.storeReg_isoStreams : (s.storeReg a v).isoStreams = s.isoStreams := by unfold State.storeReg; dsimp only; split <;> split <;> rfl
@[simp] theorem State.storeReg_rcn : (s.storeReg a v).rcn = s.rcn := by unfold State.storeReg; dsimp only; split <;> split <;> rfl
@[simp] theorem State.storeReg_integ : (s.storeReg a v).integ = s.integ := by unfold State.storeReg; dsimp only; split <;> split <;> rfl
@[simp] theorem State.storeReg_stats : (s.storeReg a v).stats = s.stats := by unfold State.storeReg; dsimp only; split <;> split <;> rfl
@[simp] theorem State.storeReg_statFrame : (s.storeReg a v).statFrame = s.statFrame := by unfold State.storeReg; dsimp only; split <;> split <;> rfl
@[simp] theorem State.storeReg_ebeIn : (s.storeReg a v).ebeIn = s.ebeIn := by unfold State.storeReg; dsimp only; split <;> split <;> rfl
@[simp] theorem State.storeReg_orgIn : (s.storeReg a v).orgIn = s.orgIn := by unfold State.storeReg; dsimp only; split <;> split <;> rfl
@[simp] theorem State.storeReg_orgInB : (s.storeReg a v).orgInB = s.orgInB := by unfold State.storeReg; dsimp only; split <;> split <;> rfl
@[simp] theorem State.storeReg_ebe : (s.storeReg a v).ebe = s.ebe := by unfold State.storeReg; dsimp only; split <;> split <;> rfl
@[simp] theorem State.storeReg_ebd : (s.storeReg a v).ebd = s.ebd := by unfold State.storeReg; dsimp only; split <;> split <;> rfl
@[simp] theorem State.storeReg_bth : (s.storeReg a v).bth = s.bth := by unfold State.storeReg; dsimp only; split <;> split <;> rfl
@[simp] theorem State.storeReg_ofc : (s.storeReg a v).ofc = s.ofc := by unfold State.storeReg; dsimp only; split <;> split <;> rfl
@[simp] theorem State.storeReg_org : (s.storeReg a v).org = s.org := by unfold State.storeReg; dsimp only; split <;> split <;> rfl
@[simp] theorem State.storeReg_orgStats : (s.storeReg a v).orgStats = s.orgStats := by unfold State.storeReg; dsimp only; split <;> split <;> rfl
@[simp] theorem State.storeReg_orgStatCount : (s.storeReg a v).orgStatCount = s.orgStatCount := by unfold State.storeReg; dsimp only; split <;> split <;> rfl
@[simp] theorem State.storeReg_tables : (s.storeReg a v).tables = s.tables := by unfold State.storeReg; dsimp only; split <;> split <;> rfl
@[simp] theorem State.storeReg_load : (s.storeReg a v).load = s.load := by unfold State.storeReg; dsimp only; split <;> split <;> rfl
@[simp] theorem State.storeReg_views : (s.storeReg a v).views = s.views := by unfold State.storeReg; dsimp only; split <;> split <;> rfl
@[simp] theorem State.storeReg_parterre : (s.storeReg a v).parterre = s.parterre := by unfold State.storeReg; dsimp only; split <;> split <;> rfl
@[simp] theorem State.storeReg_newest : (s.storeReg a v).newest = s.newest := by unfold State.storeReg; dsimp only; split <;> split <;> rfl
@[simp] theorem State.storeReg_bufHolds : (s.storeReg a v).bufHolds = s.bufHolds := by unfold State.storeReg; dsimp only; split <;> split <;> rfl
@[simp] theorem State.storeReg_glass : (s.storeReg a v).glass = s.glass := by unfold State.storeReg; dsimp only; split <;> split <;> rfl
@[simp] theorem State.storeReg_sdi : (s.storeReg a v).sdi = s.sdi := by unfold State.storeReg; dsimp only; split <;> split <;> rfl
@[simp] theorem State.storeReg_blv : (s.storeReg a v).blv = s.blv := by unfold State.storeReg; dsimp only; split <;> split <;> rfl
@[simp] theorem State.storeReg_sun : (s.storeReg a v).sun = s.sun := by unfold State.storeReg; dsimp only; split <;> split <;> rfl
@[simp] theorem State.storeReg_net : (s.storeReg a v).net = s.net := by unfold State.storeReg; dsimp only; split <;> split <;> rfl
@[simp] theorem State.storeReg_bnd : (s.storeReg a v).bnd = s.bnd := by unfold State.storeReg; dsimp only; split <;> split <;> rfl
@[simp] theorem State.storeReg_arb : (s.storeReg a v).arb = s.arb := by unfold State.storeReg; dsimp only; split <;> split <;> rfl
@[simp] theorem State.storeReg_links : (s.storeReg a v).links = s.links := by unfold State.storeReg; dsimp only; split <;> split <;> rfl
@[simp] theorem State.storeReg_outbox : (s.storeReg a v).outbox = s.outbox := by unfold State.storeReg; dsimp only; split <;> split <;> rfl
@[simp] theorem State.storeReg_freeCount : (s.storeReg a v).freeCount = s.freeCount := by unfold State.storeReg; dsimp only; split <;> split <;> rfl
@[simp] theorem State.storeReg_pending : (s.storeReg a v).pending = s.pending := by unfold State.storeReg; dsimp only; split <;> split <;> rfl

end storeRegFields

theorem State.storeReg_word_other (s : State) (a b v : Nat) (h : b ≠ a) : (s.storeReg a v).regs.word b = s.regs.word b := by
  unfold State.storeReg; dsimp only
  split <;> split <;> simp [h]

/-- Every register but one stays after a plain write. -/
theorem SameRegsBut.storeReg (s : State) (a v : Nat) : SameRegsBut [a] s (s.storeReg a v) := by
  intro b hb
  exact s.storeReg_word_other a b v (by simpa using hb)

/-! ### Shadows -/

/-- A register after the shadows of these pages have become active (R30, R42). -/
theorem State.applyShadows_word (s : State) (pages : List Nat) (a : RegAddr) : (s.applyShadows pages).regs.word a =
    if pages.contains (a / 4096) = true then BitVec.ofNat 32 (shadowedWord s.regs s.shadow a) else s.regs.word a := by
  unfold State.applyShadows
  simp only []
  rw [RegFile.word_putAll]
  by_cases hp : pages.contains (a / 4096) = true
  · rw [if_pos hp]
    split
    · rfl
    · rename_i h
      simp only [List.mem_filter, hp, Bool.true_and, decide_eq_true_eq, not_and, ne_eq, not_not, List.map_append, List.mem_append] at h
      unfold shadowedWord
      by_cases hm : shMaskOf a = 0
      · rw [hm, mergeBits_zero (s.regs.word a).isLt]; simp
      · have h1 : a ∉ s.shadow.map (·.1) := fun q => hm (h (Or.inl q))
        have h2 : a ∉ s.regs.map (·.1) := fun q => hm (h (Or.inr q))
        have e : s.shadow.word a = s.regs.word a := by
          unfold RegFile.word
          rw [SMap.get_absent _ h1, SMap.get_absent _ h2]
        rw [e, mergeBits_self (s.regs.word a).isLt]; simp
  · rw [if_neg hp, if_neg]
    simp only [List.mem_filter, not_and, Bool.and_eq_true]
    intro _ q; exact absurd q hp

end Sys2Proof.Machine
end

