-- ==== Sys2Proof/Laws/Answer.lean ====
section
/-! SUPPORT. How commands answer: every meaning is its operation, answered; and what a step can do. -/

namespace Sys2Proof.Machine

theorem answer_next {c : Instr} {u : State} (w : c.wellFormed = true) : answer c u = .next u.settle := if_pos w

theorem answer_fault {c : Instr} {u : State} (w : c.wellFormed = false) : answer c u = .fault .malformedCommand := by
  unfold answer; rw [w]; rfl

/-- If a command's answer is a next state, the command is well-formed and the state is that of its operation, settled. -/
theorem answer_inversion {c : Instr} {u t : State} (h : answer c u = .next t) : c.wellFormed = true ∧ t = u.settle := by
  unfold answer at h
  split at h
  · rename_i w; exact ⟨w, by simpa using h.symm⟩
  · exact absurd h (by simp)

/-- A command that answers its operation, with the operation's result. -/
theorem Does.of_answer {c : Instr} {s u t : State} (h : exec c s = answer c u) (w : c.wellFormed = true) (e : u = t) : Does c s t := by
  unfold Does; rw [h, answer_next w, e]

/-- A command that answers its operation, with a property of the operation's result, settled. -/
theorem Completes.of_answer {c : Instr} {s u : State} {p : State → Prop} (h : exec c s = answer c u) (w : c.wellFormed = true) (e : p u.settle) :
    Completes c s p := ⟨u.settle, by rw [h, answer_next w], e⟩

/-! ### Edges of stopped domains -/

/-- With no domain stopped, no command stalls. -/
theorem State.stopsAtEdge_of_running {s : State} (h : s.stopped = []) (c : Instr) : s.stopsAtEdge c = false := by
  unfold State.stopsAtEdge; rw [h]; simp

/-- A command that does not stall has its effect. -/
theorem throughEdge_pass {c : Instr} {s : State} (h : s.stopsAtEdge c = false) (u : State) : throughEdge c s u = u := by
  unfold throughEdge; rw [h]; rfl

/-- With no domain stopped, a command has its effect. -/
@[simp] theorem throughEdge_running {c : Instr} {s : State} (h : s.stopped = []) (u : State) : throughEdge c s u = u :=
  throughEdge_pass (State.stopsAtEdge_of_running h c) u

/-- A command at the edge of a stopped domain waits behind what stalled before it, and changes nothing else. -/
theorem throughEdge_stall {c : Instr} {s : State} (h : s.stopsAtEdge c = true) (u : State) :
    throughEdge c s u = { s with stalled := s.stalled ++ [c] } := by
  unfold throughEdge; rw [h]; rfl

/-- A step on a waiting command executes it with the rest of the queue. -/
theorem step_cons {s : State} {c : Instr} {r : List Instr} (h : s.pending = c :: r) : step s = exec c { s with pending := r } := by
  unfold step; rw [h]

/-- A step with nothing waiting lets time pass. -/
theorem step_nil {s : State} (h : s.pending = []) : step s = .next (idle s) := by
  unfold step; rw [h]

/-! ### What settling leaves -/

theorem State.settle_rd (u : State) (a : RegAddr) : u.settle.rd a = u.rd a := by unfold State.rd; rw [State.settle_regs]

theorem State.settle_flow (u : State) (i : Nat) : u.settle.flow i = u.flow i := by unfold State.flow; rw [State.settle_trl]

theorem State.settle_dramRead (u : State) (a n : Nat) : u.settle.dramRead a n = u.dramRead a n := by
  unfold State.dramRead State.place
  rw [State.settle_dram, State.settle_regs, State.rd, State.settle_regs]
  rfl

/-- Settling only adds to what has been sent. -/
theorem State.settle_sends (u : State) : ∃ out, u.settle.outbox = u.outbox ++ out := by rw [State.settle_outbox]; exact ⟨_, rfl⟩

theorem SameRegsBut.settle {l : List RegAddr} {s u : State} (h : SameRegsBut l s u) : SameRegsBut l s u.settle := fun a ha => by
  rw [State.settle_regs]; exact h a ha

/-- The sweep of the pool leaves the sessions. -/
theorem State.poolSweep_sessions (s : State) : s.poolSweep.glass.sessions = s.glass.sessions := by
  unfold State.poolSweep
  refine foldl_keeps (fun s : State => s.glass.sessions) _ (fun t b => ?_) _ _
  dsimp only
  split <;> split <;> rfl

@[simp] theorem State.ses_settle (s : State) (n : Nat) : s.settle.ses n = s.ses n := by
  have h : s.settle.glass = s.poolSweep.glass := by rw [State.settle_eq]
  unfold State.ses; rw [h, s.poolSweep_sessions]

@[simp] theorem State.pool_setPool (s : State) (i : Nat) (x : PoolBuf) (j : Nat) : (s.setPool i x).pool j = if j = i then x else s.pool j :=
  SMap.get_set _ _ _ _ _

/-- The sweep of the pool takes output marks away, and leaves the rest of every buffer. -/
theorem State.poolSweep_pool (s : State) (b : Nat) :
    { s.poolSweep.pool b with outputPending := false, published := false } = { s.pool b with outputPending := false, published := false } := by
  unfold State.poolSweep
  refine foldl_keeps (fun s : State => ({ s.pool b with outputPending := false, published := false } : PoolBuf)) _ (fun t c => ?_) _ _
  have e (x : PoolBuf) (h : x = { t.pool c with outputPending := false, published := false }) :
      { (t.setPool c x).pool b with outputPending := false, published := false } = { t.pool b with outputPending := false, published := false } := by
    rw [State.pool_setPool]
    split
    · rename_i k; rw [h, k]
    · rfl
  dsimp only
  split <;> split <;> first | exact e _ rfl | rfl

theorem State.pool_settle (s : State) (b : Nat) :
    { s.settle.pool b with outputPending := false, published := false } = { s.pool b with outputPending := false, published := false } := by
  have h : s.settle.glass = s.poolSweep.glass := by rw [State.settle_eq]
  have k := s.poolSweep_pool b
  unfold State.pool at *
  rw [h]; exact k

end Sys2Proof.Machine
end

