-- ==== Sys2Proof/Laws/Parts.lean ====
section
/-! SUPPORT. The parts of blocks that State keeps by number: reading one after storing one, and what storing leaves of every field of State. -/

namespace Sys2Proof.Machine

section setGrpParts
variable (s : State) (i : Nat) (x : SfeGroup)

@[simp] theorem State.grp_setGrp (j : Nat) : (s.setGrp i x).grp j = if j = i then x else s.grp j := SMap.get_set _ _ _ _ _
@[simp] theorem State.grp_settle (j : Nat) : s.settle.grp j = s.grp j := by unfold State.grp; rw [State.settle_sfe]
@[simp] theorem State.setGrp_regs : (s.setGrp i x).regs = s.regs := rfl
@[simp] theorem State.setGrp_shadow : (s.setGrp i x).shadow = s.shadow := rfl
@[simp] theorem State.setGrp_latches : (s.setGrp i x).latches = s.latches := rfl
@[simp] theorem State.setGrp_time : (s.setGrp i x).time = s.time := rfl
@[simp] theorem State.setGrp_due : (s.setGrp i x).due = s.due := rfl
@[simp] theorem State.setGrp_scheduled : (s.setGrp i x).scheduled = s.scheduled := rfl
@[simp] theorem State.setGrp_kiosk : (s.setGrp i x).kiosk = s.kiosk := rfl
@[simp] theorem State.setGrp_gth : (s.setGrp i x).gth = s.gth := rfl
@[simp] theorem State.setGrp_qpb : (s.setGrp i x).qpb = s.qpb := rfl
@[simp] theorem State.setGrp_held : (s.setGrp i x).held = s.held := rfl
@[simp] theorem State.setGrp_reports : (s.setGrp i x).reports = s.reports := rfl
@[simp] theorem State.setGrp_records : (s.setGrp i x).records = s.records := rfl
@[simp] theorem State.setGrp_lost : (s.setGrp i x).lost = s.lost := rfl
@[simp] theorem State.setGrp_irq : (s.setGrp i x).irq = s.irq := rfl
@[simp] theorem State.setGrp_stopped : (s.setGrp i x).stopped = s.stopped := rfl
@[simp] theorem State.setGrp_stalled : (s.setGrp i x).stalled = s.stalled := rfl
@[simp] theorem State.setGrp_dram : (s.setGrp i x).dram = s.dram := rfl
@[simp] theorem State.setGrp_trl : (s.setGrp i x).trl = s.trl := rfl
@[simp] theorem State.setGrp_mem : (s.setGrp i x).mem = s.mem := rfl
@[simp] theorem State.setGrp_dov : (s.setGrp i x).dov = s.dov := rfl
@[simp] theorem State.setGrp_pwm : (s.setGrp i x).pwm = s.pwm := rfl
@[simp] theorem State.setGrp_iceResync : (s.setGrp i x).iceResync = s.iceResync := rfl
@[simp] theorem State.setGrp_elapsed : (s.setGrp i x).elapsed = s.elapsed := rfl
@[simp] theorem State.setGrp_sns : (s.setGrp i x).sns = s.sns := rfl
@[simp] theorem State.setGrp_pwr : (s.setGrp i x).pwr = s.pwr := rfl
@[simp] theorem State.setGrp_streams : (s.setGrp i x).streams = s.streams := rfl
@[simp] theorem State.setGrp_rawIn : (s.setGrp i x).rawIn = s.rawIn := rfl
@[simp] theorem State.setGrp_spi : (s.setGrp i x).spi = s.spi := rfl
@[simp] theorem State.setGrp_i2c : (s.setGrp i x).i2c = s.i2c := rfl
@[simp] theorem State.setGrp_trainFrom : (s.setGrp i x).trainFrom = s.trainFrom := rfl
@[simp] theorem State.setGrp_timecode : (s.setGrp i x).timecode = s.timecode := rfl
@[simp] theorem State.setGrp_isoStreams : (s.setGrp i x).isoStreams = s.isoStreams := rfl
@[simp] theorem State.setGrp_rcn : (s.setGrp i x).rcn = s.rcn := rfl
@[simp] theorem State.setGrp_integ : (s.setGrp i x).integ = s.integ := rfl
@[simp] theorem State.setGrp_stats : (s.setGrp i x).stats = s.stats := rfl
@[simp] theorem State.setGrp_statFrame : (s.setGrp i x).statFrame = s.statFrame := rfl
@[simp] theorem State.setGrp_ebeIn : (s.setGrp i x).ebeIn = s.ebeIn := rfl
@[simp] theorem State.setGrp_orgIn : (s.setGrp i x).orgIn = s.orgIn := rfl
@[simp] theorem State.setGrp_orgInB : (s.setGrp i x).orgInB = s.orgInB := rfl
@[simp] theorem State.setGrp_ebe : (s.setGrp i x).ebe = s.ebe := rfl
@[simp] theorem State.setGrp_ebd : (s.setGrp i x).ebd = s.ebd := rfl
@[simp] theorem State.setGrp_bth : (s.setGrp i x).bth = s.bth := rfl
@[simp] theorem State.setGrp_ofc : (s.setGrp i x).ofc = s.ofc := rfl
@[simp] theorem State.setGrp_org : (s.setGrp i x).org = s.org := rfl
@[simp] theorem State.setGrp_orgStats : (s.setGrp i x).orgStats = s.orgStats := rfl
@[simp] theorem State.setGrp_orgStatCount : (s.setGrp i x).orgStatCount = s.orgStatCount := rfl
@[simp] theorem State.setGrp_tables : (s.setGrp i x).tables = s.tables := rfl
@[simp] theorem State.setGrp_load : (s.setGrp i x).load = s.load := rfl
@[simp] theorem State.setGrp_views : (s.setGrp i x).views = s.views := rfl
@[simp] theorem State.setGrp_parterre : (s.setGrp i x).parterre = s.parterre := rfl
@[simp] theorem State.setGrp_newest : (s.setGrp i x).newest = s.newest := rfl
@[simp] theorem State.setGrp_bufHolds : (s.setGrp i x).bufHolds = s.bufHolds := rfl
@[simp] theorem State.setGrp_glass : (s.setGrp i x).glass = s.glass := rfl
@[simp] theorem State.setGrp_sdi : (s.setGrp i x).sdi = s.sdi := rfl
@[simp] theorem State.setGrp_blv : (s.setGrp i x).blv = s.blv := rfl
@[simp] theorem State.setGrp_sun : (s.setGrp i x).sun = s.sun := rfl
@[simp] theorem State.setGrp_net : (s.setGrp i x).net = s.net := rfl
@[simp] theorem State.setGrp_bnd : (s.setGrp i x).bnd = s.bnd := rfl
@[simp] theorem State.setGrp_arb : (s.setGrp i x).arb = s.arb := rfl
@[simp] theorem State.setGrp_links : (s.setGrp i x).links = s.links := rfl
@[simp] theorem State.setGrp_outbox : (s.setGrp i x).outbox = s.outbox := rfl
@[simp] theorem State.setGrp_freeCount : (s.setGrp i x).freeCount = s.freeCount := rfl
@[simp] theorem State.setGrp_pending : (s.setGrp i x).pending = s.pending := rfl

end setGrpParts

section setStreamParts
variable (s : State) (i : Nat) (x : SfeStream)

@[simp] theorem State.stream_setStream (j : Nat) : (s.setStream i x).stream j = if j = i then x else s.stream j := SMap.get_set _ _ _ _ _
@[simp] theorem State.stream_settle (j : Nat) : s.settle.stream j = s.stream j := by unfold State.stream; rw [State.settle_streams]
@[simp] theorem State.setStream_regs : (s.setStream i x).regs = s.regs := rfl
@[simp] theorem State.setStream_shadow : (s.setStream i x).shadow = s.shadow := rfl
@[simp] theorem State.setStream_latches : (s.setStream i x).latches = s.latches := rfl
@[simp] theorem State.setStream_time : (s.setStream i x).time = s.time := rfl
@[simp] theorem State.setStream_due : (s.setStream i x).due = s.due := rfl
@[simp] theorem State.setStream_scheduled : (s.setStream i x).scheduled = s.scheduled := rfl
@[simp] theorem State.setStream_kiosk : (s.setStream i x).kiosk = s.kiosk := rfl
@[simp] theorem State.setStream_gth : (s.setStream i x).gth = s.gth := rfl
@[simp] theorem State.setStream_qpb : (s.setStream i x).qpb = s.qpb := rfl
@[simp] theorem State.setStream_held : (s.setStream i x).held = s.held := rfl
@[simp] theorem State.setStream_reports : (s.setStream i x).reports = s.reports := rfl
@[simp] theorem State.setStream_records : (s.setStream i x).records = s.records := rfl
@[simp] theorem State.setStream_lost : (s.setStream i x).lost = s.lost := rfl
@[simp] theorem State.setStream_irq : (s.setStream i x).irq = s.irq := rfl
@[simp] theorem State.setStream_stopped : (s.setStream i x).stopped = s.stopped := rfl
@[simp] theorem State.setStream_stalled : (s.setStream i x).stalled = s.stalled := rfl
@[simp] theorem State.setStream_dram : (s.setStream i x).dram = s.dram := rfl
@[simp] theorem State.setStream_trl : (s.setStream i x).trl = s.trl := rfl
@[simp] theorem State.setStream_mem : (s.setStream i x).mem = s.mem := rfl
@[simp] theorem State.setStream_dov : (s.setStream i x).dov = s.dov := rfl
@[simp] theorem State.setStream_pwm : (s.setStream i x).pwm = s.pwm := rfl
@[simp] theorem State.setStream_iceResync : (s.setStream i x).iceResync = s.iceResync := rfl
@[simp] theorem State.setStream_elapsed : (s.setStream i x).elapsed = s.elapsed := rfl
@[simp] theorem State.setStream_sns : (s.setStream i x).sns = s.sns := rfl
@[simp] theorem State.setStream_pwr : (s.setStream i x).pwr = s.pwr := rfl
@[simp] theorem State.setStream_sfe : (s.setStream i x).sfe = s.sfe := rfl
@[simp] theorem State.setStream_rawIn : (s.setStream i x).rawIn = s.rawIn := rfl
@[simp] theorem State.setStream_spi : (s.setStream i x).spi = s.spi := rfl
@[simp] theorem State.setStream_i2c : (s.setStream i x).i2c = s.i2c := rfl
@[simp] theorem State.setStream_trainFrom : (s.setStream i x).trainFrom = s.trainFrom := rfl
@[simp] theorem State.setStream_timecode : (s.setStream i x).timecode = s.timecode := rfl
@[simp] theorem State.setStream_isoStreams : (s.setStream i x).isoStreams = s.isoStreams := rfl
@[simp] theorem State.setStream_rcn : (s.setStream i x).rcn = s.rcn := rfl
@[simp] theorem State.setStream_integ : (s.setStream i x).integ = s.integ := rfl
@[simp] theorem State.setStream_stats : (s.setStream i x).stats = s.stats := rfl
@[simp] theorem State.setStream_statFrame : (s.setStream i x).statFrame = s.statFrame := rfl
@[simp] theorem State.setStream_ebeIn : (s.setStream i x).ebeIn = s.ebeIn := rfl
@[simp] theorem State.setStream_orgIn : (s.setStream i x).orgIn = s.orgIn := rfl
@[simp] theorem State.setStream_orgInB : (s.setStream i x).orgInB = s.orgInB := rfl
@[simp] theorem State.setStream_ebe : (s.setStream i x).ebe = s.ebe := rfl
@[simp] theorem State.setStream_ebd : (s.setStream i x).ebd = s.ebd := rfl
@[simp] theorem State.setStream_bth : (s.setStream i x).bth = s.bth := rfl
@[simp] theorem State.setStream_ofc : (s.setStream i x).ofc = s.ofc := rfl
@[simp] theorem State.setStream_org : (s.setStream i x).org = s.org := rfl
@[simp] theorem State.setStream_orgStats : (s.setStream i x).orgStats = s.orgStats := rfl
@[simp] theorem State.setStream_orgStatCount : (s.setStream i x).orgStatCount = s.orgStatCount := rfl
@[simp] theorem State.setStream_tables : (s.setStream i x).tables = s.tables := rfl
@[simp] theorem State.setStream_load : (s.setStream i x).load = s.load := rfl
@[simp] theorem State.setStream_views : (s.setStream i x).views = s.views := rfl
@[simp] theorem State.setStream_parterre : (s.setStream i x).parterre = s.parterre := rfl
@[simp] theorem State.setStream_newest : (s.setStream i x).newest = s.newest := rfl
@[simp] theorem State.setStream_bufHolds : (s.setStream i x).bufHolds = s.bufHolds := rfl
@[simp] theorem State.setStream_glass : (s.setStream i x).glass = s.glass := rfl
@[simp] theorem State.setStream_sdi : (s.setStream i x).sdi = s.sdi := rfl
@[simp] theorem State.setStream_blv : (s.setStream i x).blv = s.blv := rfl
@[simp] theorem State.setStream_sun : (s.setStream i x).sun = s.sun := rfl
@[simp] theorem State.setStream_net : (s.setStream i x).net = s.net := rfl
@[simp] theorem State.setStream_bnd : (s.setStream i x).bnd = s.bnd := rfl
@[simp] theorem State.setStream_arb : (s.setStream i x).arb = s.arb := rfl
@[simp] theorem State.setStream_links : (s.setStream i x).links = s.links := rfl
@[simp] theorem State.setStream_outbox : (s.setStream i x).outbox = s.outbox := rfl
@[simp] theorem State.setStream_freeCount : (s.setStream i x).freeCount = s.freeCount := rfl
@[simp] theorem State.setStream_pending : (s.setStream i x).pending = s.pending := rfl

end setStreamParts

section setSpiParts
variable (s : State) (i : Nat) (x : SerialMaster)

@[simp] theorem State.spiOf_setSpi (j : Nat) : (s.setSpi i x).spiOf j = if j = i then x else s.spiOf j := SMap.get_set _ _ _ _ _
@[simp] theorem State.spiOf_settle (j : Nat) : s.settle.spiOf j = s.spiOf j := by unfold State.spiOf; rw [State.settle_spi]
@[simp] theorem State.setSpi_regs : (s.setSpi i x).regs = s.regs := rfl
@[simp] theorem State.setSpi_shadow : (s.setSpi i x).shadow = s.shadow := rfl
@[simp] theorem State.setSpi_latches : (s.setSpi i x).latches = s.latches := rfl
@[simp] theorem State.setSpi_time : (s.setSpi i x).time = s.time := rfl
@[simp] theorem State.setSpi_due : (s.setSpi i x).due = s.due := rfl
@[simp] theorem State.setSpi_scheduled : (s.setSpi i x).scheduled = s.scheduled := rfl
@[simp] theorem State.setSpi_kiosk : (s.setSpi i x).kiosk = s.kiosk := rfl
@[simp] theorem State.setSpi_gth : (s.setSpi i x).gth = s.gth := rfl
@[simp] theorem State.setSpi_qpb : (s.setSpi i x).qpb = s.qpb := rfl
@[simp] theorem State.setSpi_held : (s.setSpi i x).held = s.held := rfl
@[simp] theorem State.setSpi_reports : (s.setSpi i x).reports = s.reports := rfl
@[simp] theorem State.setSpi_records : (s.setSpi i x).records = s.records := rfl
@[simp] theorem State.setSpi_lost : (s.setSpi i x).lost = s.lost := rfl
@[simp] theorem State.setSpi_irq : (s.setSpi i x).irq = s.irq := rfl
@[simp] theorem State.setSpi_stopped : (s.setSpi i x).stopped = s.stopped := rfl
@[simp] theorem State.setSpi_stalled : (s.setSpi i x).stalled = s.stalled := rfl
@[simp] theorem State.setSpi_dram : (s.setSpi i x).dram = s.dram := rfl
@[simp] theorem State.setSpi_trl : (s.setSpi i x).trl = s.trl := rfl
@[simp] theorem State.setSpi_mem : (s.setSpi i x).mem = s.mem := rfl
@[simp] theorem State.setSpi_dov : (s.setSpi i x).dov = s.dov := rfl
@[simp] theorem State.setSpi_pwm : (s.setSpi i x).pwm = s.pwm := rfl
@[simp] theorem State.setSpi_iceResync : (s.setSpi i x).iceResync = s.iceResync := rfl
@[simp] theorem State.setSpi_elapsed : (s.setSpi i x).elapsed = s.elapsed := rfl
@[simp] theorem State.setSpi_sns : (s.setSpi i x).sns = s.sns := rfl
@[simp] theorem State.setSpi_pwr : (s.setSpi i x).pwr = s.pwr := rfl
@[simp] theorem State.setSpi_sfe : (s.setSpi i x).sfe = s.sfe := rfl
@[simp] theorem State.setSpi_streams : (s.setSpi i x).streams = s.streams := rfl
@[simp] theorem State.setSpi_rawIn : (s.setSpi i x).rawIn = s.rawIn := rfl
@[simp] theorem State.setSpi_i2c : (s.setSpi i x).i2c = s.i2c := rfl
@[simp] theorem State.setSpi_trainFrom : (s.setSpi i x).trainFrom = s.trainFrom := rfl
@[simp] theorem State.setSpi_timecode : (s.setSpi i x).timecode = s.timecode := rfl
@[simp] theorem State.setSpi_isoStreams : (s.setSpi i x).isoStreams = s.isoStreams := rfl
@[simp] theorem State.setSpi_rcn : (s.setSpi i x).rcn = s.rcn := rfl
@[simp] theorem State.setSpi_integ : (s.setSpi i x).integ = s.integ := rfl
@[simp] theorem State.setSpi_stats : (s.setSpi i x).stats = s.stats := rfl
@[simp] theorem State.setSpi_statFrame : (s.setSpi i x).statFrame = s.statFrame := rfl
@[simp] theorem State.setSpi_ebeIn : (s.setSpi i x).ebeIn = s.ebeIn := rfl
@[simp] theorem State.setSpi_orgIn : (s.setSpi i x).orgIn = s.orgIn := rfl
@[simp] theorem State.setSpi_orgInB : (s.setSpi i x).orgInB = s.orgInB := rfl
@[simp] theorem State.setSpi_ebe : (s.setSpi i x).ebe = s.ebe := rfl
@[simp] theorem State.setSpi_ebd : (s.setSpi i x).ebd = s.ebd := rfl
@[simp] theorem State.setSpi_bth : (s.setSpi i x).bth = s.bth := rfl
@[simp] theorem State.setSpi_ofc : (s.setSpi i x).ofc = s.ofc := rfl
@[simp] theorem State.setSpi_org : (s.setSpi i x).org = s.org := rfl
@[simp] theorem State.setSpi_orgStats : (s.setSpi i x).orgStats = s.orgStats := rfl
@[simp] theorem State.setSpi_orgStatCount : (s.setSpi i x).orgStatCount = s.orgStatCount := rfl
@[simp] theorem State.setSpi_tables : (s.setSpi i x).tables = s.tables := rfl
@[simp] theorem State.setSpi_load : (s.setSpi i x).load = s.load := rfl
@[simp] theorem State.setSpi_views : (s.setSpi i x).views = s.views := rfl
@[simp] theorem State.setSpi_parterre : (s.setSpi i x).parterre = s.parterre := rfl
@[simp] theorem State.setSpi_newest : (s.setSpi i x).newest = s.newest := rfl
@[simp] theorem State.setSpi_bufHolds : (s.setSpi i x).bufHolds = s.bufHolds := rfl
@[simp] theorem State.setSpi_glass : (s.setSpi i x).glass = s.glass := rfl
@[simp] theorem State.setSpi_sdi : (s.setSpi i x).sdi = s.sdi := rfl
@[simp] theorem State.setSpi_blv : (s.setSpi i x).blv = s.blv := rfl
@[simp] theorem State.setSpi_sun : (s.setSpi i x).sun = s.sun := rfl
@[simp] theorem State.setSpi_net : (s.setSpi i x).net = s.net := rfl
@[simp] theorem State.setSpi_bnd : (s.setSpi i x).bnd = s.bnd := rfl
@[simp] theorem State.setSpi_arb : (s.setSpi i x).arb = s.arb := rfl
@[simp] theorem State.setSpi_links : (s.setSpi i x).links = s.links := rfl
@[simp] theorem State.setSpi_outbox : (s.setSpi i x).outbox = s.outbox := rfl
@[simp] theorem State.setSpi_freeCount : (s.setSpi i x).freeCount = s.freeCount := rfl
@[simp] theorem State.setSpi_pending : (s.setSpi i x).pending = s.pending := rfl

end setSpiParts

section setI2cParts
variable (s : State) (i : Nat) (x : SerialMaster)

@[simp] theorem State.i2cOf_setI2c (j : Nat) : (s.setI2c i x).i2cOf j = if j = i then x else s.i2cOf j := SMap.get_set _ _ _ _ _
@[simp] theorem State.i2cOf_settle (j : Nat) : s.settle.i2cOf j = s.i2cOf j := by unfold State.i2cOf; rw [State.settle_i2c]
@[simp] theorem State.setI2c_regs : (s.setI2c i x).regs = s.regs := rfl
@[simp] theorem State.setI2c_shadow : (s.setI2c i x).shadow = s.shadow := rfl
@[simp] theorem State.setI2c_latches : (s.setI2c i x).latches = s.latches := rfl
@[simp] theorem State.setI2c_time : (s.setI2c i x).time = s.time := rfl
@[simp] theorem State.setI2c_due : (s.setI2c i x).due = s.due := rfl
@[simp] theorem State.setI2c_scheduled : (s.setI2c i x).scheduled = s.scheduled := rfl
@[simp] theorem State.setI2c_kiosk : (s.setI2c i x).kiosk = s.kiosk := rfl
@[simp] theorem State.setI2c_gth : (s.setI2c i x).gth = s.gth := rfl
@[simp] theorem State.setI2c_qpb : (s.setI2c i x).qpb = s.qpb := rfl
@[simp] theorem State.setI2c_held : (s.setI2c i x).held = s.held := rfl
@[simp] theorem State.setI2c_reports : (s.setI2c i x).reports = s.reports := rfl
@[simp] theorem State.setI2c_records : (s.setI2c i x).records = s.records := rfl
@[simp] theorem State.setI2c_lost : (s.setI2c i x).lost = s.lost := rfl
@[simp] theorem State.setI2c_irq : (s.setI2c i x).irq = s.irq := rfl
@[simp] theorem State.setI2c_stopped : (s.setI2c i x).stopped = s.stopped := rfl
@[simp] theorem State.setI2c_stalled : (s.setI2c i x).stalled = s.stalled := rfl
@[simp] theorem State.setI2c_dram : (s.setI2c i x).dram = s.dram := rfl
@[simp] theorem State.setI2c_trl : (s.setI2c i x).trl = s.trl := rfl
@[simp] theorem State.setI2c_mem : (s.setI2c i x).mem = s.mem := rfl
@[simp] theorem State.setI2c_dov : (s.setI2c i x).dov = s.dov := rfl
@[simp] theorem State.setI2c_pwm : (s.setI2c i x).pwm = s.pwm := rfl
@[simp] theorem State.setI2c_iceResync : (s.setI2c i x).iceResync = s.iceResync := rfl
@[simp] theorem State.setI2c_elapsed : (s.setI2c i x).elapsed = s.elapsed := rfl
@[simp] theorem State.setI2c_sns : (s.setI2c i x).sns = s.sns := rfl
@[simp] theorem State.setI2c_pwr : (s.setI2c i x).pwr = s.pwr := rfl
@[simp] theorem State.setI2c_sfe : (s.setI2c i x).sfe = s.sfe := rfl
@[simp] theorem State.setI2c_streams : (s.setI2c i x).streams = s.streams := rfl
@[simp] theorem State.setI2c_rawIn : (s.setI2c i x).rawIn = s.rawIn := rfl
@[simp] theorem State.setI2c_spi : (s.setI2c i x).spi = s.spi := rfl
@[simp] theorem State.setI2c_trainFrom : (s.setI2c i x).trainFrom = s.trainFrom := rfl
@[simp] theorem State.setI2c_timecode : (s.setI2c i x).timecode = s.timecode := rfl
@[simp] theorem State.setI2c_isoStreams : (s.setI2c i x).isoStreams = s.isoStreams := rfl
@[simp] theorem State.setI2c_rcn : (s.setI2c i x).rcn = s.rcn := rfl
@[simp] theorem State.setI2c_integ : (s.setI2c i x).integ = s.integ := rfl
@[simp] theorem State.setI2c_stats : (s.setI2c i x).stats = s.stats := rfl
@[simp] theorem State.setI2c_statFrame : (s.setI2c i x).statFrame = s.statFrame := rfl
@[simp] theorem State.setI2c_ebeIn : (s.setI2c i x).ebeIn = s.ebeIn := rfl
@[simp] theorem State.setI2c_orgIn : (s.setI2c i x).orgIn = s.orgIn := rfl
@[simp] theorem State.setI2c_orgInB : (s.setI2c i x).orgInB = s.orgInB := rfl
@[simp] theorem State.setI2c_ebe : (s.setI2c i x).ebe = s.ebe := rfl
@[simp] theorem State.setI2c_ebd : (s.setI2c i x).ebd = s.ebd := rfl
@[simp] theorem State.setI2c_bth : (s.setI2c i x).bth = s.bth := rfl
@[simp] theorem State.setI2c_ofc : (s.setI2c i x).ofc = s.ofc := rfl
@[simp] theorem State.setI2c_org : (s.setI2c i x).org = s.org := rfl
@[simp] theorem State.setI2c_orgStats : (s.setI2c i x).orgStats = s.orgStats := rfl
@[simp] theorem State.setI2c_orgStatCount : (s.setI2c i x).orgStatCount = s.orgStatCount := rfl
@[simp] theorem State.setI2c_tables : (s.setI2c i x).tables = s.tables := rfl
@[simp] theorem State.setI2c_load : (s.setI2c i x).load = s.load := rfl
@[simp] theorem State.setI2c_views : (s.setI2c i x).views = s.views := rfl
@[simp] theorem State.setI2c_parterre : (s.setI2c i x).parterre = s.parterre := rfl
@[simp] theorem State.setI2c_newest : (s.setI2c i x).newest = s.newest := rfl
@[simp] theorem State.setI2c_bufHolds : (s.setI2c i x).bufHolds = s.bufHolds := rfl
@[simp] theorem State.setI2c_glass : (s.setI2c i x).glass = s.glass := rfl
@[simp] theorem State.setI2c_sdi : (s.setI2c i x).sdi = s.sdi := rfl
@[simp] theorem State.setI2c_blv : (s.setI2c i x).blv = s.blv := rfl
@[simp] theorem State.setI2c_sun : (s.setI2c i x).sun = s.sun := rfl
@[simp] theorem State.setI2c_net : (s.setI2c i x).net = s.net := rfl
@[simp] theorem State.setI2c_bnd : (s.setI2c i x).bnd = s.bnd := rfl
@[simp] theorem State.setI2c_arb : (s.setI2c i x).arb = s.arb := rfl
@[simp] theorem State.setI2c_links : (s.setI2c i x).links = s.links := rfl
@[simp] theorem State.setI2c_outbox : (s.setI2c i x).outbox = s.outbox := rfl
@[simp] theorem State.setI2c_freeCount : (s.setI2c i x).freeCount = s.freeCount := rfl
@[simp] theorem State.setI2c_pending : (s.setI2c i x).pending = s.pending := rfl

end setI2cParts

section setRcnParts
variable (s : State) (i : Nat) (x : RcnCtx)

@[simp] theorem State.rcnOf_setRcn (j : Nat) : (s.setRcn i x).rcnOf j = if j = i then x else s.rcnOf j := SMap.get_set _ _ _ _ _
@[simp] theorem State.rcnOf_settle (j : Nat) : s.settle.rcnOf j = s.rcnOf j := by unfold State.rcnOf; rw [State.settle_rcn]
@[simp] theorem State.setRcn_regs : (s.setRcn i x).regs = s.regs := rfl
@[simp] theorem State.setRcn_shadow : (s.setRcn i x).shadow = s.shadow := rfl
@[simp] theorem State.setRcn_latches : (s.setRcn i x).latches = s.latches := rfl
@[simp] theorem State.setRcn_time : (s.setRcn i x).time = s.time := rfl
@[simp] theorem State.setRcn_due : (s.setRcn i x).due = s.due := rfl
@[simp] theorem State.setRcn_scheduled : (s.setRcn i x).scheduled = s.scheduled := rfl
@[simp] theorem State.setRcn_kiosk : (s.setRcn i x).kiosk = s.kiosk := rfl
@[simp] theorem State.setRcn_gth : (s.setRcn i x).gth = s.gth := rfl
@[simp] theorem State.setRcn_qpb : (s.setRcn i x).qpb = s.qpb := rfl
@[simp] theorem State.setRcn_held : (s.setRcn i x).held = s.held := rfl
@[simp] theorem State.setRcn_reports : (s.setRcn i x).reports = s.reports := rfl
@[simp] theorem State.setRcn_records : (s.setRcn i x).records = s.records := rfl
@[simp] theorem State.setRcn_lost : (s.setRcn i x).lost = s.lost := rfl
@[simp] theorem State.setRcn_irq : (s.setRcn i x).irq = s.irq := rfl
@[simp] theorem State.setRcn_stopped : (s.setRcn i x).stopped = s.stopped := rfl
@[simp] theorem State.setRcn_stalled : (s.setRcn i x).stalled = s.stalled := rfl
@[simp] theorem State.setRcn_dram : (s.setRcn i x).dram = s.dram := rfl
@[simp] theorem State.setRcn_trl : (s.setRcn i x).trl = s.trl := rfl
@[simp] theorem State.setRcn_mem : (s.setRcn i x).mem = s.mem := rfl
@[simp] theorem State.setRcn_dov : (s.setRcn i x).dov = s.dov := rfl
@[simp] theorem State.setRcn_pwm : (s.setRcn i x).pwm = s.pwm := rfl
@[simp] theorem State.setRcn_iceResync : (s.setRcn i x).iceResync = s.iceResync := rfl
@[simp] theorem State.setRcn_elapsed : (s.setRcn i x).elapsed = s.elapsed := rfl
@[simp] theorem State.setRcn_sns : (s.setRcn i x).sns = s.sns := rfl
@[simp] theorem State.setRcn_pwr : (s.setRcn i x).pwr = s.pwr := rfl
@[simp] theorem State.setRcn_sfe : (s.setRcn i x).sfe = s.sfe := rfl
@[simp] theorem State.setRcn_streams : (s.setRcn i x).streams = s.streams := rfl
@[simp] theorem State.setRcn_rawIn : (s.setRcn i x).rawIn = s.rawIn := rfl
@[simp] theorem State.setRcn_spi : (s.setRcn i x).spi = s.spi := rfl
@[simp] theorem State.setRcn_i2c : (s.setRcn i x).i2c = s.i2c := rfl
@[simp] theorem State.setRcn_trainFrom : (s.setRcn i x).trainFrom = s.trainFrom := rfl
@[simp] theorem State.setRcn_timecode : (s.setRcn i x).timecode = s.timecode := rfl
@[simp] theorem State.setRcn_isoStreams : (s.setRcn i x).isoStreams = s.isoStreams := rfl
@[simp] theorem State.setRcn_integ : (s.setRcn i x).integ = s.integ := rfl
@[simp] theorem State.setRcn_stats : (s.setRcn i x).stats = s.stats := rfl
@[simp] theorem State.setRcn_statFrame : (s.setRcn i x).statFrame = s.statFrame := rfl
@[simp] theorem State.setRcn_ebeIn : (s.setRcn i x).ebeIn = s.ebeIn := rfl
@[simp] theorem State.setRcn_orgIn : (s.setRcn i x).orgIn = s.orgIn := rfl
@[simp] theorem State.setRcn_orgInB : (s.setRcn i x).orgInB = s.orgInB := rfl
@[simp] theorem State.setRcn_ebe : (s.setRcn i x).ebe = s.ebe := rfl
@[simp] theorem State.setRcn_ebd : (s.setRcn i x).ebd = s.ebd := rfl
@[simp] theorem State.setRcn_bth : (s.setRcn i x).bth = s.bth := rfl
@[simp] theorem State.setRcn_ofc : (s.setRcn i x).ofc = s.ofc := rfl
@[simp] theorem State.setRcn_org : (s.setRcn i x).org = s.org := rfl
@[simp] theorem State.setRcn_orgStats : (s.setRcn i x).orgStats = s.orgStats := rfl
@[simp] theorem State.setRcn_orgStatCount : (s.setRcn i x).orgStatCount = s.orgStatCount := rfl
@[simp] theorem State.setRcn_tables : (s.setRcn i x).tables = s.tables := rfl
@[simp] theorem State.setRcn_load : (s.setRcn i x).load = s.load := rfl
@[simp] theorem State.setRcn_views : (s.setRcn i x).views = s.views := rfl
@[simp] theorem State.setRcn_parterre : (s.setRcn i x).parterre = s.parterre := rfl
@[simp] theorem State.setRcn_newest : (s.setRcn i x).newest = s.newest := rfl
@[simp] theorem State.setRcn_bufHolds : (s.setRcn i x).bufHolds = s.bufHolds := rfl
@[simp] theorem State.setRcn_glass : (s.setRcn i x).glass = s.glass := rfl
@[simp] theorem State.setRcn_sdi : (s.setRcn i x).sdi = s.sdi := rfl
@[simp] theorem State.setRcn_blv : (s.setRcn i x).blv = s.blv := rfl
@[simp] theorem State.setRcn_sun : (s.setRcn i x).sun = s.sun := rfl
@[simp] theorem State.setRcn_net : (s.setRcn i x).net = s.net := rfl
@[simp] theorem State.setRcn_bnd : (s.setRcn i x).bnd = s.bnd := rfl
@[simp] theorem State.setRcn_arb : (s.setRcn i x).arb = s.arb := rfl
@[simp] theorem State.setRcn_links : (s.setRcn i x).links = s.links := rfl
@[simp] theorem State.setRcn_outbox : (s.setRcn i x).outbox = s.outbox := rfl
@[simp] theorem State.setRcn_freeCount : (s.setRcn i x).freeCount = s.freeCount := rfl
@[simp] theorem State.setRcn_pending : (s.setRcn i x).pending = s.pending := rfl

end setRcnParts

section setEbeParts
variable (s : State) (i : Nat) (x : EbeCtx)

@[simp] theorem State.ebeOf_setEbe (j : Nat) : (s.setEbe i x).ebeOf j = if j = i then x else s.ebeOf j := SMap.get_set _ _ _ _ _
@[simp] theorem State.ebeOf_settle (j : Nat) : s.settle.ebeOf j = s.ebeOf j := by unfold State.ebeOf; rw [State.settle_ebe]
@[simp] theorem State.setEbe_shadow : (s.setEbe i x).shadow = s.shadow := rfl
@[simp] theorem State.setEbe_latches : (s.setEbe i x).latches = s.latches := rfl
@[simp] theorem State.setEbe_time : (s.setEbe i x).time = s.time := rfl
@[simp] theorem State.setEbe_due : (s.setEbe i x).due = s.due := rfl
@[simp] theorem State.setEbe_scheduled : (s.setEbe i x).scheduled = s.scheduled := rfl
@[simp] theorem State.setEbe_kiosk : (s.setEbe i x).kiosk = s.kiosk := rfl
@[simp] theorem State.setEbe_gth : (s.setEbe i x).gth = s.gth := rfl
@[simp] theorem State.setEbe_qpb : (s.setEbe i x).qpb = s.qpb := rfl
@[simp] theorem State.setEbe_held : (s.setEbe i x).held = s.held := rfl
@[simp] theorem State.setEbe_reports : (s.setEbe i x).reports = s.reports := rfl
@[simp] theorem State.setEbe_records : (s.setEbe i x).records = s.records := rfl
@[simp] theorem State.setEbe_lost : (s.setEbe i x).lost = s.lost := rfl
@[simp] theorem State.setEbe_irq : (s.setEbe i x).irq = s.irq := rfl
@[simp] theorem State.setEbe_stopped : (s.setEbe i x).stopped = s.stopped := rfl
@[simp] theorem State.setEbe_stalled : (s.setEbe i x).stalled = s.stalled := rfl
@[simp] theorem State.setEbe_dram : (s.setEbe i x).dram = s.dram := rfl
@[simp] theorem State.setEbe_trl : (s.setEbe i x).trl = s.trl := rfl
@[simp] theorem State.setEbe_mem : (s.setEbe i x).mem = s.mem := rfl
@[simp] theorem State.setEbe_dov : (s.setEbe i x).dov = s.dov := rfl
@[simp] theorem State.setEbe_pwm : (s.setEbe i x).pwm = s.pwm := rfl
@[simp] theorem State.setEbe_iceResync : (s.setEbe i x).iceResync = s.iceResync := rfl
@[simp] theorem State.setEbe_elapsed : (s.setEbe i x).elapsed = s.elapsed := rfl
@[simp] theorem State.setEbe_sns : (s.setEbe i x).sns = s.sns := rfl
@[simp] theorem State.setEbe_pwr : (s.setEbe i x).pwr = s.pwr := rfl
@[simp] theorem State.setEbe_sfe : (s.setEbe i x).sfe = s.sfe := rfl
@[simp] theorem State.setEbe_streams : (s.setEbe i x).streams = s.streams := rfl
@[simp] theorem State.setEbe_rawIn : (s.setEbe i x).rawIn = s.rawIn := rfl
@[simp] theorem State.setEbe_spi : (s.setEbe i x).spi = s.spi := rfl
@[simp] theorem State.setEbe_i2c : (s.setEbe i x).i2c = s.i2c := rfl
@[simp] theorem State.setEbe_trainFrom : (s.setEbe i x).trainFrom = s.trainFrom := rfl
@[simp] theorem State.setEbe_timecode : (s.setEbe i x).timecode = s.timecode := rfl
@[simp] theorem State.setEbe_isoStreams : (s.setEbe i x).isoStreams = s.isoStreams := rfl
@[simp] theorem State.setEbe_rcn : (s.setEbe i x).rcn = s.rcn := rfl
@[simp] theorem State.setEbe_integ : (s.setEbe i x).integ = s.integ := rfl
@[simp] theorem State.setEbe_stats : (s.setEbe i x).stats = s.stats := rfl
@[simp] theorem State.setEbe_statFrame : (s.setEbe i x).statFrame = s.statFrame := rfl
@[simp] theorem State.setEbe_ebeIn : (s.setEbe i x).ebeIn = s.ebeIn := rfl
@[simp] theorem State.setEbe_orgIn : (s.setEbe i x).orgIn = s.orgIn := rfl
@[simp] theorem State.setEbe_orgInB : (s.setEbe i x).orgInB = s.orgInB := rfl
@[simp] theorem State.setEbe_ebd : (s.setEbe i x).ebd = s.ebd := rfl
@[simp] theorem State.setEbe_bth : (s.setEbe i x).bth = s.bth := rfl
@[simp] theorem State.setEbe_ofc : (s.setEbe i x).ofc = s.ofc := rfl
@[simp] theorem State.setEbe_org : (s.setEbe i x).org = s.org := rfl
@[simp] theorem State.setEbe_orgStats : (s.setEbe i x).orgStats = s.orgStats := rfl
@[simp] theorem State.setEbe_orgStatCount : (s.setEbe i x).orgStatCount = s.orgStatCount := rfl
@[simp] theorem State.setEbe_tables : (s.setEbe i x).tables = s.tables := rfl
@[simp] theorem State.setEbe_load : (s.setEbe i x).load = s.load := rfl
@[simp] theorem State.setEbe_views : (s.setEbe i x).views = s.views := rfl
@[simp] theorem State.setEbe_parterre : (s.setEbe i x).parterre = s.parterre := rfl
@[simp] theorem State.setEbe_newest : (s.setEbe i x).newest = s.newest := rfl
@[simp] theorem State.setEbe_bufHolds : (s.setEbe i x).bufHolds = s.bufHolds := rfl
@[simp] theorem State.setEbe_glass : (s.setEbe i x).glass = s.glass := rfl
@[simp] theorem State.setEbe_sdi : (s.setEbe i x).sdi = s.sdi := rfl
@[simp] theorem State.setEbe_blv : (s.setEbe i x).blv = s.blv := rfl
@[simp] theorem State.setEbe_sun : (s.setEbe i x).sun = s.sun := rfl
@[simp] theorem State.setEbe_net : (s.setEbe i x).net = s.net := rfl
@[simp] theorem State.setEbe_bnd : (s.setEbe i x).bnd = s.bnd := rfl
@[simp] theorem State.setEbe_arb : (s.setEbe i x).arb = s.arb := rfl
@[simp] theorem State.setEbe_links : (s.setEbe i x).links = s.links := rfl
@[simp] theorem State.setEbe_outbox : (s.setEbe i x).outbox = s.outbox := rfl
@[simp] theorem State.setEbe_freeCount : (s.setEbe i x).freeCount = s.freeCount := rfl
@[simp] theorem State.setEbe_pending : (s.setEbe i x).pending = s.pending := rfl

end setEbeParts

section setOrgParts
variable (s : State) (i : Nat) (x : OrgCtx)

@[simp] theorem State.orgOf_setOrg (j : Nat) : (s.setOrg i x).orgOf j = if j = i then x else s.orgOf j := SMap.get_set _ _ _ _ _
@[simp] theorem State.orgOf_settle (j : Nat) : s.settle.orgOf j = s.orgOf j := by unfold State.orgOf; rw [State.settle_org]
@[simp] theorem State.setOrg_regs : (s.setOrg i x).regs = s.regs := rfl
@[simp] theorem State.setOrg_shadow : (s.setOrg i x).shadow = s.shadow := rfl
@[simp] theorem State.setOrg_latches : (s.setOrg i x).latches = s.latches := rfl
@[simp] theorem State.setOrg_time : (s.setOrg i x).time = s.time := rfl
@[simp] theorem State.setOrg_due : (s.setOrg i x).due = s.due := rfl
@[simp] theorem State.setOrg_scheduled : (s.setOrg i x).scheduled = s.scheduled := rfl
@[simp] theorem State.setOrg_kiosk : (s.setOrg i x).kiosk = s.kiosk := rfl
@[simp] theorem State.setOrg_gth : (s.setOrg i x).gth = s.gth := rfl
@[simp] theorem State.setOrg_qpb : (s.setOrg i x).qpb = s.qpb := rfl
@[simp] theorem State.setOrg_held : (s.setOrg i x).held = s.held := rfl
@[simp] theorem State.setOrg_reports : (s.setOrg i x).reports = s.reports := rfl
@[simp] theorem State.setOrg_records : (s.setOrg i x).records = s.records := rfl
@[simp] theorem State.setOrg_lost : (s.setOrg i x).lost = s.lost := rfl
@[simp] theorem State.setOrg_irq : (s.setOrg i x).irq = s.irq := rfl
@[simp] theorem State.setOrg_stopped : (s.setOrg i x).stopped = s.stopped := rfl
@[simp] theorem State.setOrg_stalled : (s.setOrg i x).stalled = s.stalled := rfl
@[simp] theorem State.setOrg_dram : (s.setOrg i x).dram = s.dram := rfl
@[simp] theorem State.setOrg_trl : (s.setOrg i x).trl = s.trl := rfl
@[simp] theorem State.setOrg_mem : (s.setOrg i x).mem = s.mem := rfl
@[simp] theorem State.setOrg_dov : (s.setOrg i x).dov = s.dov := rfl
@[simp] theorem State.setOrg_pwm : (s.setOrg i x).pwm = s.pwm := rfl
@[simp] theorem State.setOrg_iceResync : (s.setOrg i x).iceResync = s.iceResync := rfl
@[simp] theorem State.setOrg_elapsed : (s.setOrg i x).elapsed = s.elapsed := rfl
@[simp] theorem State.setOrg_sns : (s.setOrg i x).sns = s.sns := rfl
@[simp] theorem State.setOrg_pwr : (s.setOrg i x).pwr = s.pwr := rfl
@[simp] theorem State.setOrg_sfe : (s.setOrg i x).sfe = s.sfe := rfl
@[simp] theorem State.setOrg_streams : (s.setOrg i x).streams = s.streams := rfl
@[simp] theorem State.setOrg_rawIn : (s.setOrg i x).rawIn = s.rawIn := rfl
@[simp] theorem State.setOrg_spi : (s.setOrg i x).spi = s.spi := rfl
@[simp] theorem State.setOrg_i2c : (s.setOrg i x).i2c = s.i2c := rfl
@[simp] theorem State.setOrg_trainFrom : (s.setOrg i x).trainFrom = s.trainFrom := rfl
@[simp] theorem State.setOrg_timecode : (s.setOrg i x).timecode = s.timecode := rfl
@[simp] theorem State.setOrg_isoStreams : (s.setOrg i x).isoStreams = s.isoStreams := rfl
@[simp] theorem State.setOrg_rcn : (s.setOrg i x).rcn = s.rcn := rfl
@[simp] theorem State.setOrg_integ : (s.setOrg i x).integ = s.integ := rfl
@[simp] theorem State.setOrg_stats : (s.setOrg i x).stats = s.stats := rfl
@[simp] theorem State.setOrg_statFrame : (s.setOrg i x).statFrame = s.statFrame := rfl
@[simp] theorem State.setOrg_ebeIn : (s.setOrg i x).ebeIn = s.ebeIn := rfl
@[simp] theorem State.setOrg_orgIn : (s.setOrg i x).orgIn = s.orgIn := rfl
@[simp] theorem State.setOrg_orgInB : (s.setOrg i x).orgInB = s.orgInB := rfl
@[simp] theorem State.setOrg_ebe : (s.setOrg i x).ebe = s.ebe := rfl
@[simp] theorem State.setOrg_ebd : (s.setOrg i x).ebd = s.ebd := rfl
@[simp] theorem State.setOrg_bth : (s.setOrg i x).bth = s.bth := rfl
@[simp] theorem State.setOrg_ofc : (s.setOrg i x).ofc = s.ofc := rfl
@[simp] theorem State.setOrg_orgStats : (s.setOrg i x).orgStats = s.orgStats := rfl
@[simp] theorem State.setOrg_orgStatCount : (s.setOrg i x).orgStatCount = s.orgStatCount := rfl
@[simp] theorem State.setOrg_tables : (s.setOrg i x).tables = s.tables := rfl
@[simp] theorem State.setOrg_load : (s.setOrg i x).load = s.load := rfl
@[simp] theorem State.setOrg_views : (s.setOrg i x).views = s.views := rfl
@[simp] theorem State.setOrg_parterre : (s.setOrg i x).parterre = s.parterre := rfl
@[simp] theorem State.setOrg_newest : (s.setOrg i x).newest = s.newest := rfl
@[simp] theorem State.setOrg_bufHolds : (s.setOrg i x).bufHolds = s.bufHolds := rfl
@[simp] theorem State.setOrg_glass : (s.setOrg i x).glass = s.glass := rfl
@[simp] theorem State.setOrg_sdi : (s.setOrg i x).sdi = s.sdi := rfl
@[simp] theorem State.setOrg_blv : (s.setOrg i x).blv = s.blv := rfl
@[simp] theorem State.setOrg_sun : (s.setOrg i x).sun = s.sun := rfl
@[simp] theorem State.setOrg_net : (s.setOrg i x).net = s.net := rfl
@[simp] theorem State.setOrg_bnd : (s.setOrg i x).bnd = s.bnd := rfl
@[simp] theorem State.setOrg_arb : (s.setOrg i x).arb = s.arb := rfl
@[simp] theorem State.setOrg_links : (s.setOrg i x).links = s.links := rfl
@[simp] theorem State.setOrg_outbox : (s.setOrg i x).outbox = s.outbox := rfl
@[simp] theorem State.setOrg_freeCount : (s.setOrg i x).freeCount = s.freeCount := rfl
@[simp] theorem State.setOrg_pending : (s.setOrg i x).pending = s.pending := rfl

end setOrgParts

section setViewParts
variable (s : State) (i : Nat) (x : View)

@[simp] theorem State.view_setView (j : Nat) : (s.setView i x).view j = if j = i then x else s.view j := SMap.get_set _ _ _ _ _
@[simp] theorem State.view_settle (j : Nat) : s.settle.view j = s.view j := by unfold State.view; rw [State.settle_views]
@[simp] theorem State.setView_regs : (s.setView i x).regs = s.regs := rfl
@[simp] theorem State.setView_shadow : (s.setView i x).shadow = s.shadow := rfl
@[simp] theorem State.setView_latches : (s.setView i x).latches = s.latches := rfl
@[simp] theorem State.setView_time : (s.setView i x).time = s.time := rfl
@[simp] theorem State.setView_due : (s.setView i x).due = s.due := rfl
@[simp] theorem State.setView_scheduled : (s.setView i x).scheduled = s.scheduled := rfl
@[simp] theorem State.setView_kiosk : (s.setView i x).kiosk = s.kiosk := rfl
@[simp] theorem State.setView_gth : (s.setView i x).gth = s.gth := rfl
@[simp] theorem State.setView_qpb : (s.setView i x).qpb = s.qpb := rfl
@[simp] theorem State.setView_held : (s.setView i x).held = s.held := rfl
@[simp] theorem State.setView_reports : (s.setView i x).reports = s.reports := rfl
@[simp] theorem State.setView_records : (s.setView i x).records = s.records := rfl
@[simp] theorem State.setView_lost : (s.setView i x).lost = s.lost := rfl
@[simp] theorem State.setView_irq : (s.setView i x).irq = s.irq := rfl
@[simp] theorem State.setView_stopped : (s.setView i x).stopped = s.stopped := rfl
@[simp] theorem State.setView_stalled : (s.setView i x).stalled = s.stalled := rfl
@[simp] theorem State.setView_dram : (s.setView i x).dram = s.dram := rfl
@[simp] theorem State.setView_trl : (s.setView i x).trl = s.trl := rfl
@[simp] theorem State.setView_mem : (s.setView i x).mem = s.mem := rfl
@[simp] theorem State.setView_dov : (s.setView i x).dov = s.dov := rfl
@[simp] theorem State.setView_pwm : (s.setView i x).pwm = s.pwm := rfl
@[simp] theorem State.setView_iceResync : (s.setView i x).iceResync = s.iceResync := rfl
@[simp] theorem State.setView_elapsed : (s.setView i x).elapsed = s.elapsed := rfl
@[simp] theorem State.setView_sns : (s.setView i x).sns = s.sns := rfl
@[simp] theorem State.setView_pwr : (s.setView i x).pwr = s.pwr := rfl
@[simp] theorem State.setView_sfe : (s.setView i x).sfe = s.sfe := rfl
@[simp] theorem State.setView_streams : (s.setView i x).streams = s.streams := rfl
@[simp] theorem State.setView_rawIn : (s.setView i x).rawIn = s.rawIn := rfl
@[simp] theorem State.setView_spi : (s.setView i x).spi = s.spi := rfl
@[simp] theorem State.setView_i2c : (s.setView i x).i2c = s.i2c := rfl
@[simp] theorem State.setView_trainFrom : (s.setView i x).trainFrom = s.trainFrom := rfl
@[simp] theorem State.setView_timecode : (s.setView i x).timecode = s.timecode := rfl
@[simp] theorem State.setView_isoStreams : (s.setView i x).isoStreams = s.isoStreams := rfl
@[simp] theorem State.setView_rcn : (s.setView i x).rcn = s.rcn := rfl
@[simp] theorem State.setView_integ : (s.setView i x).integ = s.integ := rfl
@[simp] theorem State.setView_stats : (s.setView i x).stats = s.stats := rfl
@[simp] theorem State.setView_statFrame : (s.setView i x).statFrame = s.statFrame := rfl
@[simp] theorem State.setView_ebeIn : (s.setView i x).ebeIn = s.ebeIn := rfl
@[simp] theorem State.setView_orgIn : (s.setView i x).orgIn = s.orgIn := rfl
@[simp] theorem State.setView_orgInB : (s.setView i x).orgInB = s.orgInB := rfl
@[simp] theorem State.setView_ebe : (s.setView i x).ebe = s.ebe := rfl
@[simp] theorem State.setView_ebd : (s.setView i x).ebd = s.ebd := rfl
@[simp] theorem State.setView_bth : (s.setView i x).bth = s.bth := rfl
@[simp] theorem State.setView_ofc : (s.setView i x).ofc = s.ofc := rfl
@[simp] theorem State.setView_org : (s.setView i x).org = s.org := rfl
@[simp] theorem State.setView_orgStats : (s.setView i x).orgStats = s.orgStats := rfl
@[simp] theorem State.setView_orgStatCount : (s.setView i x).orgStatCount = s.orgStatCount := rfl
@[simp] theorem State.setView_tables : (s.setView i x).tables = s.tables := rfl
@[simp] theorem State.setView_load : (s.setView i x).load = s.load := rfl
@[simp] theorem State.setView_parterre : (s.setView i x).parterre = s.parterre := rfl
@[simp] theorem State.setView_newest : (s.setView i x).newest = s.newest := rfl
@[simp] theorem State.setView_bufHolds : (s.setView i x).bufHolds = s.bufHolds := rfl
@[simp] theorem State.setView_glass : (s.setView i x).glass = s.glass := rfl
@[simp] theorem State.setView_sdi : (s.setView i x).sdi = s.sdi := rfl
@[simp] theorem State.setView_blv : (s.setView i x).blv = s.blv := rfl
@[simp] theorem State.setView_sun : (s.setView i x).sun = s.sun := rfl
@[simp] theorem State.setView_net : (s.setView i x).net = s.net := rfl
@[simp] theorem State.setView_bnd : (s.setView i x).bnd = s.bnd := rfl
@[simp] theorem State.setView_arb : (s.setView i x).arb = s.arb := rfl
@[simp] theorem State.setView_links : (s.setView i x).links = s.links := rfl
@[simp] theorem State.setView_outbox : (s.setView i x).outbox = s.outbox := rfl
@[simp] theorem State.setView_freeCount : (s.setView i x).freeCount = s.freeCount := rfl
@[simp] theorem State.setView_pending : (s.setView i x).pending = s.pending := rfl

end setViewParts

section setSdiParts
variable (s : State) (i : Nat) (x : Sdi)

@[simp] theorem State.sdiOf_setSdi (j : Nat) : (s.setSdi i x).sdiOf j = if j = i then x else s.sdiOf j := SMap.get_set _ _ _ _ _
@[simp] theorem State.sdiOf_settle (j : Nat) : s.settle.sdiOf j = s.sdiOf j := by unfold State.sdiOf; rw [State.settle_sdi]
@[simp] theorem State.setSdi_regs : (s.setSdi i x).regs = s.regs := rfl
@[simp] theorem State.setSdi_shadow : (s.setSdi i x).shadow = s.shadow := rfl
@[simp] theorem State.setSdi_latches : (s.setSdi i x).latches = s.latches := rfl
@[simp] theorem State.setSdi_time : (s.setSdi i x).time = s.time := rfl
@[simp] theorem State.setSdi_due : (s.setSdi i x).due = s.due := rfl
@[simp] theorem State.setSdi_scheduled : (s.setSdi i x).scheduled = s.scheduled := rfl
@[simp] theorem State.setSdi_kiosk : (s.setSdi i x).kiosk = s.kiosk := rfl
@[simp] theorem State.setSdi_gth : (s.setSdi i x).gth = s.gth := rfl
@[simp] theorem State.setSdi_qpb : (s.setSdi i x).qpb = s.qpb := rfl
@[simp] theorem State.setSdi_held : (s.setSdi i x).held = s.held := rfl
@[simp] theorem State.setSdi_reports : (s.setSdi i x).reports = s.reports := rfl
@[simp] theorem State.setSdi_records : (s.setSdi i x).records = s.records := rfl
@[simp] theorem State.setSdi_lost : (s.setSdi i x).lost = s.lost := rfl
@[simp] theorem State.setSdi_irq : (s.setSdi i x).irq = s.irq := rfl
@[simp] theorem State.setSdi_stopped : (s.setSdi i x).stopped = s.stopped := rfl
@[simp] theorem State.setSdi_stalled : (s.setSdi i x).stalled = s.stalled := rfl
@[simp] theorem State.setSdi_dram : (s.setSdi i x).dram = s.dram := rfl
@[simp] theorem State.setSdi_trl : (s.setSdi i x).trl = s.trl := rfl
@[simp] theorem State.setSdi_mem : (s.setSdi i x).mem = s.mem := rfl
@[simp] theorem State.setSdi_dov : (s.setSdi i x).dov = s.dov := rfl
@[simp] theorem State.setSdi_pwm : (s.setSdi i x).pwm = s.pwm := rfl
@[simp] theorem State.setSdi_iceResync : (s.setSdi i x).iceResync = s.iceResync := rfl
@[simp] theorem State.setSdi_elapsed : (s.setSdi i x).elapsed = s.elapsed := rfl
@[simp] theorem State.setSdi_sns : (s.setSdi i x).sns = s.sns := rfl
@[simp] theorem State.setSdi_pwr : (s.setSdi i x).pwr = s.pwr := rfl
@[simp] theorem State.setSdi_sfe : (s.setSdi i x).sfe = s.sfe := rfl
@[simp] theorem State.setSdi_streams : (s.setSdi i x).streams = s.streams := rfl
@[simp] theorem State.setSdi_rawIn : (s.setSdi i x).rawIn = s.rawIn := rfl
@[simp] theorem State.setSdi_spi : (s.setSdi i x).spi = s.spi := rfl
@[simp] theorem State.setSdi_i2c : (s.setSdi i x).i2c = s.i2c := rfl
@[simp] theorem State.setSdi_trainFrom : (s.setSdi i x).trainFrom = s.trainFrom := rfl
@[simp] theorem State.setSdi_timecode : (s.setSdi i x).timecode = s.timecode := rfl
@[simp] theorem State.setSdi_isoStreams : (s.setSdi i x).isoStreams = s.isoStreams := rfl
@[simp] theorem State.setSdi_rcn : (s.setSdi i x).rcn = s.rcn := rfl
@[simp] theorem State.setSdi_integ : (s.setSdi i x).integ = s.integ := rfl
@[simp] theorem State.setSdi_stats : (s.setSdi i x).stats = s.stats := rfl
@[simp] theorem State.setSdi_statFrame : (s.setSdi i x).statFrame = s.statFrame := rfl
@[simp] theorem State.setSdi_ebeIn : (s.setSdi i x).ebeIn = s.ebeIn := rfl
@[simp] theorem State.setSdi_orgIn : (s.setSdi i x).orgIn = s.orgIn := rfl
@[simp] theorem State.setSdi_orgInB : (s.setSdi i x).orgInB = s.orgInB := rfl
@[simp] theorem State.setSdi_ebe : (s.setSdi i x).ebe = s.ebe := rfl
@[simp] theorem State.setSdi_ebd : (s.setSdi i x).ebd = s.ebd := rfl
@[simp] theorem State.setSdi_bth : (s.setSdi i x).bth = s.bth := rfl
@[simp] theorem State.setSdi_ofc : (s.setSdi i x).ofc = s.ofc := rfl
@[simp] theorem State.setSdi_org : (s.setSdi i x).org = s.org := rfl
@[simp] theorem State.setSdi_orgStats : (s.setSdi i x).orgStats = s.orgStats := rfl
@[simp] theorem State.setSdi_orgStatCount : (s.setSdi i x).orgStatCount = s.orgStatCount := rfl
@[simp] theorem State.setSdi_tables : (s.setSdi i x).tables = s.tables := rfl
@[simp] theorem State.setSdi_load : (s.setSdi i x).load = s.load := rfl
@[simp] theorem State.setSdi_views : (s.setSdi i x).views = s.views := rfl
@[simp] theorem State.setSdi_parterre : (s.setSdi i x).parterre = s.parterre := rfl
@[simp] theorem State.setSdi_newest : (s.setSdi i x).newest = s.newest := rfl
@[simp] theorem State.setSdi_bufHolds : (s.setSdi i x).bufHolds = s.bufHolds := rfl
@[simp] theorem State.setSdi_glass : (s.setSdi i x).glass = s.glass := rfl
@[simp] theorem State.setSdi_blv : (s.setSdi i x).blv = s.blv := rfl
@[simp] theorem State.setSdi_sun : (s.setSdi i x).sun = s.sun := rfl
@[simp] theorem State.setSdi_net : (s.setSdi i x).net = s.net := rfl
@[simp] theorem State.setSdi_bnd : (s.setSdi i x).bnd = s.bnd := rfl
@[simp] theorem State.setSdi_arb : (s.setSdi i x).arb = s.arb := rfl
@[simp] theorem State.setSdi_links : (s.setSdi i x).links = s.links := rfl
@[simp] theorem State.setSdi_outbox : (s.setSdi i x).outbox = s.outbox := rfl
@[simp] theorem State.setSdi_freeCount : (s.setSdi i x).freeCount = s.freeCount := rfl
@[simp] theorem State.setSdi_pending : (s.setSdi i x).pending = s.pending := rfl

end setSdiParts

section setBlvParts
variable (s : State) (i : Nat) (x : Blv)

@[simp] theorem State.blvOf_setBlv (j : Nat) : (s.setBlv i x).blvOf j = if j = i then x else s.blvOf j := SMap.get_set _ _ _ _ _
@[simp] theorem State.blvOf_settle (j : Nat) : s.settle.blvOf j = s.blvOf j := by unfold State.blvOf; rw [State.settle_blv]
@[simp] theorem State.setBlv_regs : (s.setBlv i x).regs = s.regs := rfl
@[simp] theorem State.setBlv_shadow : (s.setBlv i x).shadow = s.shadow := rfl
@[simp] theorem State.setBlv_latches : (s.setBlv i x).latches = s.latches := rfl
@[simp] theorem State.setBlv_time : (s.setBlv i x).time = s.time := rfl
@[simp] theorem State.setBlv_due : (s.setBlv i x).due = s.due := rfl
@[simp] theorem State.setBlv_scheduled : (s.setBlv i x).scheduled = s.scheduled := rfl
@[simp] theorem State.setBlv_kiosk : (s.setBlv i x).kiosk = s.kiosk := rfl
@[simp] theorem State.setBlv_gth : (s.setBlv i x).gth = s.gth := rfl
@[simp] theorem State.setBlv_qpb : (s.setBlv i x).qpb = s.qpb := rfl
@[simp] theorem State.setBlv_held : (s.setBlv i x).held = s.held := rfl
@[simp] theorem State.setBlv_reports : (s.setBlv i x).reports = s.reports := rfl
@[simp] theorem State.setBlv_records : (s.setBlv i x).records = s.records := rfl
@[simp] theorem State.setBlv_lost : (s.setBlv i x).lost = s.lost := rfl
@[simp] theorem State.setBlv_irq : (s.setBlv i x).irq = s.irq := rfl
@[simp] theorem State.setBlv_stopped : (s.setBlv i x).stopped = s.stopped := rfl
@[simp] theorem State.setBlv_stalled : (s.setBlv i x).stalled = s.stalled := rfl
@[simp] theorem State.setBlv_dram : (s.setBlv i x).dram = s.dram := rfl
@[simp] theorem State.setBlv_trl : (s.setBlv i x).trl = s.trl := rfl
@[simp] theorem State.setBlv_mem : (s.setBlv i x).mem = s.mem := rfl
@[simp] theorem State.setBlv_dov : (s.setBlv i x).dov = s.dov := rfl
@[simp] theorem State.setBlv_pwm : (s.setBlv i x).pwm = s.pwm := rfl
@[simp] theorem State.setBlv_iceResync : (s.setBlv i x).iceResync = s.iceResync := rfl
@[simp] theorem State.setBlv_elapsed : (s.setBlv i x).elapsed = s.elapsed := rfl
@[simp] theorem State.setBlv_sns : (s.setBlv i x).sns = s.sns := rfl
@[simp] theorem State.setBlv_pwr : (s.setBlv i x).pwr = s.pwr := rfl
@[simp] theorem State.setBlv_sfe : (s.setBlv i x).sfe = s.sfe := rfl
@[simp] theorem State.setBlv_streams : (s.setBlv i x).streams = s.streams := rfl
@[simp] theorem State.setBlv_rawIn : (s.setBlv i x).rawIn = s.rawIn := rfl
@[simp] theorem State.setBlv_spi : (s.setBlv i x).spi = s.spi := rfl
@[simp] theorem State.setBlv_i2c : (s.setBlv i x).i2c = s.i2c := rfl
@[simp] theorem State.setBlv_trainFrom : (s.setBlv i x).trainFrom = s.trainFrom := rfl
@[simp] theorem State.setBlv_timecode : (s.setBlv i x).timecode = s.timecode := rfl
@[simp] theorem State.setBlv_isoStreams : (s.setBlv i x).isoStreams = s.isoStreams := rfl
@[simp] theorem State.setBlv_rcn : (s.setBlv i x).rcn = s.rcn := rfl
@[simp] theorem State.setBlv_integ : (s.setBlv i x).integ = s.integ := rfl
@[simp] theorem State.setBlv_stats : (s.setBlv i x).stats = s.stats := rfl
@[simp] theorem State.setBlv_statFrame : (s.setBlv i x).statFrame = s.statFrame := rfl
@[simp] theorem State.setBlv_ebeIn : (s.setBlv i x).ebeIn = s.ebeIn := rfl
@[simp] theorem State.setBlv_orgIn : (s.setBlv i x).orgIn = s.orgIn := rfl
@[simp] theorem State.setBlv_orgInB : (s.setBlv i x).orgInB = s.orgInB := rfl
@[simp] theorem State.setBlv_ebe : (s.setBlv i x).ebe = s.ebe := rfl
@[simp] theorem State.setBlv_ebd : (s.setBlv i x).ebd = s.ebd := rfl
@[simp] theorem State.setBlv_bth : (s.setBlv i x).bth = s.bth := rfl
@[simp] theorem State.setBlv_ofc : (s.setBlv i x).ofc = s.ofc := rfl
@[simp] theorem State.setBlv_org : (s.setBlv i x).org = s.org := rfl
@[simp] theorem State.setBlv_orgStats : (s.setBlv i x).orgStats = s.orgStats := rfl
@[simp] theorem State.setBlv_orgStatCount : (s.setBlv i x).orgStatCount = s.orgStatCount := rfl
@[simp] theorem State.setBlv_tables : (s.setBlv i x).tables = s.tables := rfl
@[simp] theorem State.setBlv_load : (s.setBlv i x).load = s.load := rfl
@[simp] theorem State.setBlv_views : (s.setBlv i x).views = s.views := rfl
@[simp] theorem State.setBlv_parterre : (s.setBlv i x).parterre = s.parterre := rfl
@[simp] theorem State.setBlv_newest : (s.setBlv i x).newest = s.newest := rfl
@[simp] theorem State.setBlv_bufHolds : (s.setBlv i x).bufHolds = s.bufHolds := rfl
@[simp] theorem State.setBlv_glass : (s.setBlv i x).glass = s.glass := rfl
@[simp] theorem State.setBlv_sdi : (s.setBlv i x).sdi = s.sdi := rfl
@[simp] theorem State.setBlv_sun : (s.setBlv i x).sun = s.sun := rfl
@[simp] theorem State.setBlv_net : (s.setBlv i x).net = s.net := rfl
@[simp] theorem State.setBlv_bnd : (s.setBlv i x).bnd = s.bnd := rfl
@[simp] theorem State.setBlv_arb : (s.setBlv i x).arb = s.arb := rfl
@[simp] theorem State.setBlv_links : (s.setBlv i x).links = s.links := rfl
@[simp] theorem State.setBlv_outbox : (s.setBlv i x).outbox = s.outbox := rfl
@[simp] theorem State.setBlv_freeCount : (s.setBlv i x).freeCount = s.freeCount := rfl
@[simp] theorem State.setBlv_pending : (s.setBlv i x).pending = s.pending := rfl

end setBlvParts

section setBndParts
variable (s : State) (i : Nat) (x : Bnd)

@[simp] theorem State.bndPort_setBnd (j : Nat) : (s.setBnd i x).bndPort j = if j = i then x else s.bndPort j := SMap.get_set _ _ _ _ _
@[simp] theorem State.bndPort_settle (j : Nat) : s.settle.bndPort j = s.bndPort j := by unfold State.bndPort; rw [State.settle_bnd]
@[simp] theorem State.setBnd_regs : (s.setBnd i x).regs = s.regs := rfl
@[simp] theorem State.setBnd_shadow : (s.setBnd i x).shadow = s.shadow := rfl
@[simp] theorem State.setBnd_latches : (s.setBnd i x).latches = s.latches := rfl
@[simp] theorem State.setBnd_time : (s.setBnd i x).time = s.time := rfl
@[simp] theorem State.setBnd_due : (s.setBnd i x).due = s.due := rfl
@[simp] theorem State.setBnd_scheduled : (s.setBnd i x).scheduled = s.scheduled := rfl
@[simp] theorem State.setBnd_kiosk : (s.setBnd i x).kiosk = s.kiosk := rfl
@[simp] theorem State.setBnd_gth : (s.setBnd i x).gth = s.gth := rfl
@[simp] theorem State.setBnd_qpb : (s.setBnd i x).qpb = s.qpb := rfl
@[simp] theorem State.setBnd_held : (s.setBnd i x).held = s.held := rfl
@[simp] theorem State.setBnd_reports : (s.setBnd i x).reports = s.reports := rfl
@[simp] theorem State.setBnd_records : (s.setBnd i x).records = s.records := rfl
@[simp] theorem State.setBnd_lost : (s.setBnd i x).lost = s.lost := rfl
@[simp] theorem State.setBnd_irq : (s.setBnd i x).irq = s.irq := rfl
@[simp] theorem State.setBnd_stopped : (s.setBnd i x).stopped = s.stopped := rfl
@[simp] theorem State.setBnd_stalled : (s.setBnd i x).stalled = s.stalled := rfl
@[simp] theorem State.setBnd_dram : (s.setBnd i x).dram = s.dram := rfl
@[simp] theorem State.setBnd_trl : (s.setBnd i x).trl = s.trl := rfl
@[simp] theorem State.setBnd_mem : (s.setBnd i x).mem = s.mem := rfl
@[simp] theorem State.setBnd_dov : (s.setBnd i x).dov = s.dov := rfl
@[simp] theorem State.setBnd_pwm : (s.setBnd i x).pwm = s.pwm := rfl
@[simp] theorem State.setBnd_iceResync : (s.setBnd i x).iceResync = s.iceResync := rfl
@[simp] theorem State.setBnd_elapsed : (s.setBnd i x).elapsed = s.elapsed := rfl
@[simp] theorem State.setBnd_sns : (s.setBnd i x).sns = s.sns := rfl
@[simp] theorem State.setBnd_pwr : (s.setBnd i x).pwr = s.pwr := rfl
@[simp] theorem State.setBnd_sfe : (s.setBnd i x).sfe = s.sfe := rfl
@[simp] theorem State.setBnd_streams : (s.setBnd i x).streams = s.streams := rfl
@[simp] theorem State.setBnd_rawIn : (s.setBnd i x).rawIn = s.rawIn := rfl
@[simp] theorem State.setBnd_spi : (s.setBnd i x).spi = s.spi := rfl
@[simp] theorem State.setBnd_i2c : (s.setBnd i x).i2c = s.i2c := rfl
@[simp] theorem State.setBnd_trainFrom : (s.setBnd i x).trainFrom = s.trainFrom := rfl
@[simp] theorem State.setBnd_timecode : (s.setBnd i x).timecode = s.timecode := rfl
@[simp] theorem State.setBnd_isoStreams : (s.setBnd i x).isoStreams = s.isoStreams := rfl
@[simp] theorem State.setBnd_rcn : (s.setBnd i x).rcn = s.rcn := rfl
@[simp] theorem State.setBnd_integ : (s.setBnd i x).integ = s.integ := rfl
@[simp] theorem State.setBnd_stats : (s.setBnd i x).stats = s.stats := rfl
@[simp] theorem State.setBnd_statFrame : (s.setBnd i x).statFrame = s.statFrame := rfl
@[simp] theorem State.setBnd_ebeIn : (s.setBnd i x).ebeIn = s.ebeIn := rfl
@[simp] theorem State.setBnd_orgIn : (s.setBnd i x).orgIn = s.orgIn := rfl
@[simp] theorem State.setBnd_orgInB : (s.setBnd i x).orgInB = s.orgInB := rfl
@[simp] theorem State.setBnd_ebe : (s.setBnd i x).ebe = s.ebe := rfl
@[simp] theorem State.setBnd_ebd : (s.setBnd i x).ebd = s.ebd := rfl
@[simp] theorem State.setBnd_bth : (s.setBnd i x).bth = s.bth := rfl
@[simp] theorem State.setBnd_ofc : (s.setBnd i x).ofc = s.ofc := rfl
@[simp] theorem State.setBnd_org : (s.setBnd i x).org = s.org := rfl
@[simp] theorem State.setBnd_orgStats : (s.setBnd i x).orgStats = s.orgStats := rfl
@[simp] theorem State.setBnd_orgStatCount : (s.setBnd i x).orgStatCount = s.orgStatCount := rfl
@[simp] theorem State.setBnd_tables : (s.setBnd i x).tables = s.tables := rfl
@[simp] theorem State.setBnd_load : (s.setBnd i x).load = s.load := rfl
@[simp] theorem State.setBnd_views : (s.setBnd i x).views = s.views := rfl
@[simp] theorem State.setBnd_parterre : (s.setBnd i x).parterre = s.parterre := rfl
@[simp] theorem State.setBnd_newest : (s.setBnd i x).newest = s.newest := rfl
@[simp] theorem State.setBnd_bufHolds : (s.setBnd i x).bufHolds = s.bufHolds := rfl
@[simp] theorem State.setBnd_glass : (s.setBnd i x).glass = s.glass := rfl
@[simp] theorem State.setBnd_sdi : (s.setBnd i x).sdi = s.sdi := rfl
@[simp] theorem State.setBnd_blv : (s.setBnd i x).blv = s.blv := rfl
@[simp] theorem State.setBnd_sun : (s.setBnd i x).sun = s.sun := rfl
@[simp] theorem State.setBnd_net : (s.setBnd i x).net = s.net := rfl
@[simp] theorem State.setBnd_arb : (s.setBnd i x).arb = s.arb := rfl
@[simp] theorem State.setBnd_links : (s.setBnd i x).links = s.links := rfl
@[simp] theorem State.setBnd_outbox : (s.setBnd i x).outbox = s.outbox := rfl
@[simp] theorem State.setBnd_freeCount : (s.setBnd i x).freeCount = s.freeCount := rfl
@[simp] theorem State.setBnd_pending : (s.setBnd i x).pending = s.pending := rfl

end setBndParts

section setSenderParts
variable (s : State) (i : Nat) (x : Sender)

@[simp] theorem State.sender_setSender (j : Nat) : (s.setSender i x).sender j = if j = i then x else s.sender j := SMap.get_set _ _ _ _ _
@[simp] theorem State.sender_settle (j : Nat) : s.settle.sender j = s.sender j := by unfold State.sender; rw [State.settle_net]
@[simp] theorem State.setSender_regs : (s.setSender i x).regs = s.regs := rfl
@[simp] theorem State.setSender_shadow : (s.setSender i x).shadow = s.shadow := rfl
@[simp] theorem State.setSender_latches : (s.setSender i x).latches = s.latches := rfl
@[simp] theorem State.setSender_time : (s.setSender i x).time = s.time := rfl
@[simp] theorem State.setSender_due : (s.setSender i x).due = s.due := rfl
@[simp] theorem State.setSender_scheduled : (s.setSender i x).scheduled = s.scheduled := rfl
@[simp] theorem State.setSender_kiosk : (s.setSender i x).kiosk = s.kiosk := rfl
@[simp] theorem State.setSender_gth : (s.setSender i x).gth = s.gth := rfl
@[simp] theorem State.setSender_qpb : (s.setSender i x).qpb = s.qpb := rfl
@[simp] theorem State.setSender_held : (s.setSender i x).held = s.held := rfl
@[simp] theorem State.setSender_reports : (s.setSender i x).reports = s.reports := rfl
@[simp] theorem State.setSender_records : (s.setSender i x).records = s.records := rfl
@[simp] theorem State.setSender_lost : (s.setSender i x).lost = s.lost := rfl
@[simp] theorem State.setSender_irq : (s.setSender i x).irq = s.irq := rfl
@[simp] theorem State.setSender_stopped : (s.setSender i x).stopped = s.stopped := rfl
@[simp] theorem State.setSender_stalled : (s.setSender i x).stalled = s.stalled := rfl
@[simp] theorem State.setSender_dram : (s.setSender i x).dram = s.dram := rfl
@[simp] theorem State.setSender_trl : (s.setSender i x).trl = s.trl := rfl
@[simp] theorem State.setSender_mem : (s.setSender i x).mem = s.mem := rfl
@[simp] theorem State.setSender_dov : (s.setSender i x).dov = s.dov := rfl
@[simp] theorem State.setSender_pwm : (s.setSender i x).pwm = s.pwm := rfl
@[simp] theorem State.setSender_iceResync : (s.setSender i x).iceResync = s.iceResync := rfl
@[simp] theorem State.setSender_elapsed : (s.setSender i x).elapsed = s.elapsed := rfl
@[simp] theorem State.setSender_sns : (s.setSender i x).sns = s.sns := rfl
@[simp] theorem State.setSender_pwr : (s.setSender i x).pwr = s.pwr := rfl
@[simp] theorem State.setSender_sfe : (s.setSender i x).sfe = s.sfe := rfl
@[simp] theorem State.setSender_streams : (s.setSender i x).streams = s.streams := rfl
@[simp] theorem State.setSender_rawIn : (s.setSender i x).rawIn = s.rawIn := rfl
@[simp] theorem State.setSender_spi : (s.setSender i x).spi = s.spi := rfl
@[simp] theorem State.setSender_i2c : (s.setSender i x).i2c = s.i2c := rfl
@[simp] theorem State.setSender_trainFrom : (s.setSender i x).trainFrom = s.trainFrom := rfl
@[simp] theorem State.setSender_timecode : (s.setSender i x).timecode = s.timecode := rfl
@[simp] theorem State.setSender_isoStreams : (s.setSender i x).isoStreams = s.isoStreams := rfl
@[simp] theorem State.setSender_rcn : (s.setSender i x).rcn = s.rcn := rfl
@[simp] theorem State.setSender_integ : (s.setSender i x).integ = s.integ := rfl
@[simp] theorem State.setSender_stats : (s.setSender i x).stats = s.stats := rfl
@[simp] theorem State.setSender_statFrame : (s.setSender i x).statFrame = s.statFrame := rfl
@[simp] theorem State.setSender_ebeIn : (s.setSender i x).ebeIn = s.ebeIn := rfl
@[simp] theorem State.setSender_orgIn : (s.setSender i x).orgIn = s.orgIn := rfl
@[simp] theorem State.setSender_orgInB : (s.setSender i x).orgInB = s.orgInB := rfl
@[simp] theorem State.setSender_ebe : (s.setSender i x).ebe = s.ebe := rfl
@[simp] theorem State.setSender_ebd : (s.setSender i x).ebd = s.ebd := rfl
@[simp] theorem State.setSender_bth : (s.setSender i x).bth = s.bth := rfl
@[simp] theorem State.setSender_ofc : (s.setSender i x).ofc = s.ofc := rfl
@[simp] theorem State.setSender_org : (s.setSender i x).org = s.org := rfl
@[simp] theorem State.setSender_orgStats : (s.setSender i x).orgStats = s.orgStats := rfl
@[simp] theorem State.setSender_orgStatCount : (s.setSender i x).orgStatCount = s.orgStatCount := rfl
@[simp] theorem State.setSender_tables : (s.setSender i x).tables = s.tables := rfl
@[simp] theorem State.setSender_load : (s.setSender i x).load = s.load := rfl
@[simp] theorem State.setSender_views : (s.setSender i x).views = s.views := rfl
@[simp] theorem State.setSender_parterre : (s.setSender i x).parterre = s.parterre := rfl
@[simp] theorem State.setSender_newest : (s.setSender i x).newest = s.newest := rfl
@[simp] theorem State.setSender_bufHolds : (s.setSender i x).bufHolds = s.bufHolds := rfl
@[simp] theorem State.setSender_glass : (s.setSender i x).glass = s.glass := rfl
@[simp] theorem State.setSender_sdi : (s.setSender i x).sdi = s.sdi := rfl
@[simp] theorem State.setSender_blv : (s.setSender i x).blv = s.blv := rfl
@[simp] theorem State.setSender_sun : (s.setSender i x).sun = s.sun := rfl
@[simp] theorem State.setSender_bnd : (s.setSender i x).bnd = s.bnd := rfl
@[simp] theorem State.setSender_arb : (s.setSender i x).arb = s.arb := rfl
@[simp] theorem State.setSender_links : (s.setSender i x).links = s.links := rfl
@[simp] theorem State.setSender_outbox : (s.setSender i x).outbox = s.outbox := rfl
@[simp] theorem State.setSender_freeCount : (s.setSender i x).freeCount = s.freeCount := rfl
@[simp] theorem State.setSender_pending : (s.setSender i x).pending = s.pending := rfl

end setSenderParts

section setReceiverParts
variable (s : State) (i : Nat) (x : Receiver)

@[simp] theorem State.receiver_setReceiver (j : Nat) : (s.setReceiver i x).receiver j = if j = i then x else s.receiver j := SMap.get_set _ _ _ _ _
@[simp] theorem State.receiver_settle (j : Nat) : s.settle.receiver j = s.receiver j := by unfold State.receiver; rw [State.settle_net]
@[simp] theorem State.setReceiver_regs : (s.setReceiver i x).regs = s.regs := rfl
@[simp] theorem State.setReceiver_shadow : (s.setReceiver i x).shadow = s.shadow := rfl
@[simp] theorem State.setReceiver_latches : (s.setReceiver i x).latches = s.latches := rfl
@[simp] theorem State.setReceiver_time : (s.setReceiver i x).time = s.time := rfl
@[simp] theorem State.setReceiver_due : (s.setReceiver i x).due = s.due := rfl
@[simp] theorem State.setReceiver_scheduled : (s.setReceiver i x).scheduled = s.scheduled := rfl
@[simp] theorem State.setReceiver_kiosk : (s.setReceiver i x).kiosk = s.kiosk := rfl
@[simp] theorem State.setReceiver_gth : (s.setReceiver i x).gth = s.gth := rfl
@[simp] theorem State.setReceiver_qpb : (s.setReceiver i x).qpb = s.qpb := rfl
@[simp] theorem State.setReceiver_held : (s.setReceiver i x).held = s.held := rfl
@[simp] theorem State.setReceiver_reports : (s.setReceiver i x).reports = s.reports := rfl
@[simp] theorem State.setReceiver_records : (s.setReceiver i x).records = s.records := rfl
@[simp] theorem State.setReceiver_lost : (s.setReceiver i x).lost = s.lost := rfl
@[simp] theorem State.setReceiver_irq : (s.setReceiver i x).irq = s.irq := rfl
@[simp] theorem State.setReceiver_stopped : (s.setReceiver i x).stopped = s.stopped := rfl
@[simp] theorem State.setReceiver_stalled : (s.setReceiver i x).stalled = s.stalled := rfl
@[simp] theorem State.setReceiver_dram : (s.setReceiver i x).dram = s.dram := rfl
@[simp] theorem State.setReceiver_trl : (s.setReceiver i x).trl = s.trl := rfl
@[simp] theorem State.setReceiver_mem : (s.setReceiver i x).mem = s.mem := rfl
@[simp] theorem State.setReceiver_dov : (s.setReceiver i x).dov = s.dov := rfl
@[simp] theorem State.setReceiver_pwm : (s.setReceiver i x).pwm = s.pwm := rfl
@[simp] theorem State.setReceiver_iceResync : (s.setReceiver i x).iceResync = s.iceResync := rfl
@[simp] theorem State.setReceiver_elapsed : (s.setReceiver i x).elapsed = s.elapsed := rfl
@[simp] theorem State.setReceiver_sns : (s.setReceiver i x).sns = s.sns := rfl
@[simp] theorem State.setReceiver_pwr : (s.setReceiver i x).pwr = s.pwr := rfl
@[simp] theorem State.setReceiver_sfe : (s.setReceiver i x).sfe = s.sfe := rfl
@[simp] theorem State.setReceiver_streams : (s.setReceiver i x).streams = s.streams := rfl
@[simp] theorem State.setReceiver_rawIn : (s.setReceiver i x).rawIn = s.rawIn := rfl
@[simp] theorem State.setReceiver_spi : (s.setReceiver i x).spi = s.spi := rfl
@[simp] theorem State.setReceiver_i2c : (s.setReceiver i x).i2c = s.i2c := rfl
@[simp] theorem State.setReceiver_trainFrom : (s.setReceiver i x).trainFrom = s.trainFrom := rfl
@[simp] theorem State.setReceiver_timecode : (s.setReceiver i x).timecode = s.timecode := rfl
@[simp] theorem State.setReceiver_isoStreams : (s.setReceiver i x).isoStreams = s.isoStreams := rfl
@[simp] theorem State.setReceiver_rcn : (s.setReceiver i x).rcn = s.rcn := rfl
@[simp] theorem State.setReceiver_integ : (s.setReceiver i x).integ = s.integ := rfl
@[simp] theorem State.setReceiver_stats : (s.setReceiver i x).stats = s.stats := rfl
@[simp] theorem State.setReceiver_statFrame : (s.setReceiver i x).statFrame = s.statFrame := rfl
@[simp] theorem State.setReceiver_ebeIn : (s.setReceiver i x).ebeIn = s.ebeIn := rfl
@[simp] theorem State.setReceiver_orgIn : (s.setReceiver i x).orgIn = s.orgIn := rfl
@[simp] theorem State.setReceiver_orgInB : (s.setReceiver i x).orgInB = s.orgInB := rfl
@[simp] theorem State.setReceiver_ebe : (s.setReceiver i x).ebe = s.ebe := rfl
@[simp] theorem State.setReceiver_ebd : (s.setReceiver i x).ebd = s.ebd := rfl
@[simp] theorem State.setReceiver_bth : (s.setReceiver i x).bth = s.bth := rfl
@[simp] theorem State.setReceiver_ofc : (s.setReceiver i x).ofc = s.ofc := rfl
@[simp] theorem State.setReceiver_org : (s.setReceiver i x).org = s.org := rfl
@[simp] theorem State.setReceiver_orgStats : (s.setReceiver i x).orgStats = s.orgStats := rfl
@[simp] theorem State.setReceiver_orgStatCount : (s.setReceiver i x).orgStatCount = s.orgStatCount := rfl
@[simp] theorem State.setReceiver_tables : (s.setReceiver i x).tables = s.tables := rfl
@[simp] theorem State.setReceiver_load : (s.setReceiver i x).load = s.load := rfl
@[simp] theorem State.setReceiver_views : (s.setReceiver i x).views = s.views := rfl
@[simp] theorem State.setReceiver_parterre : (s.setReceiver i x).parterre = s.parterre := rfl
@[simp] theorem State.setReceiver_newest : (s.setReceiver i x).newest = s.newest := rfl
@[simp] theorem State.setReceiver_bufHolds : (s.setReceiver i x).bufHolds = s.bufHolds := rfl
@[simp] theorem State.setReceiver_glass : (s.setReceiver i x).glass = s.glass := rfl
@[simp] theorem State.setReceiver_sdi : (s.setReceiver i x).sdi = s.sdi := rfl
@[simp] theorem State.setReceiver_blv : (s.setReceiver i x).blv = s.blv := rfl
@[simp] theorem State.setReceiver_sun : (s.setReceiver i x).sun = s.sun := rfl
@[simp] theorem State.setReceiver_bnd : (s.setReceiver i x).bnd = s.bnd := rfl
@[simp] theorem State.setReceiver_arb : (s.setReceiver i x).arb = s.arb := rfl
@[simp] theorem State.setReceiver_links : (s.setReceiver i x).links = s.links := rfl
@[simp] theorem State.setReceiver_outbox : (s.setReceiver i x).outbox = s.outbox := rfl
@[simp] theorem State.setReceiver_freeCount : (s.setReceiver i x).freeCount = s.freeCount := rfl
@[simp] theorem State.setReceiver_pending : (s.setReceiver i x).pending = s.pending := rfl

end setReceiverParts

section setFlkParts
variable (s : State) (i : Nat) (x : Flk)

@[simp] theorem State.flkPort_setFlk (j : Nat) : (s.setFlk i x).flkPort j = if j = i then x else s.flkPort j := SMap.get_set _ _ _ _ _
@[simp] theorem State.flkPort_settle (j : Nat) : s.settle.flkPort j = s.flkPort j := by unfold State.flkPort; rw [State.settle_links]
@[simp] theorem State.setFlk_regs : (s.setFlk i x).regs = s.regs := rfl
@[simp] theorem State.setFlk_shadow : (s.setFlk i x).shadow = s.shadow := rfl
@[simp] theorem State.setFlk_latches : (s.setFlk i x).latches = s.latches := rfl
@[simp] theorem State.setFlk_time : (s.setFlk i x).time = s.time := rfl
@[simp] theorem State.setFlk_due : (s.setFlk i x).due = s.due := rfl
@[simp] theorem State.setFlk_scheduled : (s.setFlk i x).scheduled = s.scheduled := rfl
@[simp] theorem State.setFlk_kiosk : (s.setFlk i x).kiosk = s.kiosk := rfl
@[simp] theorem State.setFlk_gth : (s.setFlk i x).gth = s.gth := rfl
@[simp] theorem State.setFlk_qpb : (s.setFlk i x).qpb = s.qpb := rfl
@[simp] theorem State.setFlk_held : (s.setFlk i x).held = s.held := rfl
@[simp] theorem State.setFlk_reports : (s.setFlk i x).reports = s.reports := rfl
@[simp] theorem State.setFlk_records : (s.setFlk i x).records = s.records := rfl
@[simp] theorem State.setFlk_lost : (s.setFlk i x).lost = s.lost := rfl
@[simp] theorem State.setFlk_irq : (s.setFlk i x).irq = s.irq := rfl
@[simp] theorem State.setFlk_stopped : (s.setFlk i x).stopped = s.stopped := rfl
@[simp] theorem State.setFlk_stalled : (s.setFlk i x).stalled = s.stalled := rfl
@[simp] theorem State.setFlk_dram : (s.setFlk i x).dram = s.dram := rfl
@[simp] theorem State.setFlk_trl : (s.setFlk i x).trl = s.trl := rfl
@[simp] theorem State.setFlk_mem : (s.setFlk i x).mem = s.mem := rfl
@[simp] theorem State.setFlk_dov : (s.setFlk i x).dov = s.dov := rfl
@[simp] theorem State.setFlk_pwm : (s.setFlk i x).pwm = s.pwm := rfl
@[simp] theorem State.setFlk_iceResync : (s.setFlk i x).iceResync = s.iceResync := rfl
@[simp] theorem State.setFlk_elapsed : (s.setFlk i x).elapsed = s.elapsed := rfl
@[simp] theorem State.setFlk_sns : (s.setFlk i x).sns = s.sns := rfl
@[simp] theorem State.setFlk_pwr : (s.setFlk i x).pwr = s.pwr := rfl
@[simp] theorem State.setFlk_sfe : (s.setFlk i x).sfe = s.sfe := rfl
@[simp] theorem State.setFlk_streams : (s.setFlk i x).streams = s.streams := rfl
@[simp] theorem State.setFlk_rawIn : (s.setFlk i x).rawIn = s.rawIn := rfl
@[simp] theorem State.setFlk_spi : (s.setFlk i x).spi = s.spi := rfl
@[simp] theorem State.setFlk_i2c : (s.setFlk i x).i2c = s.i2c := rfl
@[simp] theorem State.setFlk_trainFrom : (s.setFlk i x).trainFrom = s.trainFrom := rfl
@[simp] theorem State.setFlk_timecode : (s.setFlk i x).timecode = s.timecode := rfl
@[simp] theorem State.setFlk_isoStreams : (s.setFlk i x).isoStreams = s.isoStreams := rfl
@[simp] theorem State.setFlk_rcn : (s.setFlk i x).rcn = s.rcn := rfl
@[simp] theorem State.setFlk_integ : (s.setFlk i x).integ = s.integ := rfl
@[simp] theorem State.setFlk_stats : (s.setFlk i x).stats = s.stats := rfl
@[simp] theorem State.setFlk_statFrame : (s.setFlk i x).statFrame = s.statFrame := rfl
@[simp] theorem State.setFlk_ebeIn : (s.setFlk i x).ebeIn = s.ebeIn := rfl
@[simp] theorem State.setFlk_orgIn : (s.setFlk i x).orgIn = s.orgIn := rfl
@[simp] theorem State.setFlk_orgInB : (s.setFlk i x).orgInB = s.orgInB := rfl
@[simp] theorem State.setFlk_ebe : (s.setFlk i x).ebe = s.ebe := rfl
@[simp] theorem State.setFlk_ebd : (s.setFlk i x).ebd = s.ebd := rfl
@[simp] theorem State.setFlk_bth : (s.setFlk i x).bth = s.bth := rfl
@[simp] theorem State.setFlk_ofc : (s.setFlk i x).ofc = s.ofc := rfl
@[simp] theorem State.setFlk_org : (s.setFlk i x).org = s.org := rfl
@[simp] theorem State.setFlk_orgStats : (s.setFlk i x).orgStats = s.orgStats := rfl
@[simp] theorem State.setFlk_orgStatCount : (s.setFlk i x).orgStatCount = s.orgStatCount := rfl
@[simp] theorem State.setFlk_tables : (s.setFlk i x).tables = s.tables := rfl
@[simp] theorem State.setFlk_load : (s.setFlk i x).load = s.load := rfl
@[simp] theorem State.setFlk_views : (s.setFlk i x).views = s.views := rfl
@[simp] theorem State.setFlk_parterre : (s.setFlk i x).parterre = s.parterre := rfl
@[simp] theorem State.setFlk_newest : (s.setFlk i x).newest = s.newest := rfl
@[simp] theorem State.setFlk_bufHolds : (s.setFlk i x).bufHolds = s.bufHolds := rfl
@[simp] theorem State.setFlk_glass : (s.setFlk i x).glass = s.glass := rfl
@[simp] theorem State.setFlk_sdi : (s.setFlk i x).sdi = s.sdi := rfl
@[simp] theorem State.setFlk_blv : (s.setFlk i x).blv = s.blv := rfl
@[simp] theorem State.setFlk_sun : (s.setFlk i x).sun = s.sun := rfl
@[simp] theorem State.setFlk_net : (s.setFlk i x).net = s.net := rfl
@[simp] theorem State.setFlk_bnd : (s.setFlk i x).bnd = s.bnd := rfl
@[simp] theorem State.setFlk_arb : (s.setFlk i x).arb = s.arb := rfl
@[simp] theorem State.setFlk_outbox : (s.setFlk i x).outbox = s.outbox := rfl
@[simp] theorem State.setFlk_freeCount : (s.setFlk i x).freeCount = s.freeCount := rfl
@[simp] theorem State.setFlk_pending : (s.setFlk i x).pending = s.pending := rfl

end setFlkParts

section setMemberParts
variable (s : State) (i : Nat) (x : Member)

@[simp] theorem State.member_setMember (j : Nat) : (s.setMember i x).member j = if j = i then x else s.member j := SMap.get_set _ _ _ _ _
@[simp] theorem State.member_settle (j : Nat) : s.settle.member j = s.member j := by unfold State.member; rw [State.settle_bth]
@[simp] theorem State.setMember_regs : (s.setMember i x).regs = s.regs := rfl
@[simp] theorem State.setMember_shadow : (s.setMember i x).shadow = s.shadow := rfl
@[simp] theorem State.setMember_latches : (s.setMember i x).latches = s.latches := rfl
@[simp] theorem State.setMember_time : (s.setMember i x).time = s.time := rfl
@[simp] theorem State.setMember_due : (s.setMember i x).due = s.due := rfl
@[simp] theorem State.setMember_scheduled : (s.setMember i x).scheduled = s.scheduled := rfl
@[simp] theorem State.setMember_kiosk : (s.setMember i x).kiosk = s.kiosk := rfl
@[simp] theorem State.setMember_gth : (s.setMember i x).gth = s.gth := rfl
@[simp] theorem State.setMember_qpb : (s.setMember i x).qpb = s.qpb := rfl
@[simp] theorem State.setMember_held : (s.setMember i x).held = s.held := rfl
@[simp] theorem State.setMember_reports : (s.setMember i x).reports = s.reports := rfl
@[simp] theorem State.setMember_records : (s.setMember i x).records = s.records := rfl
@[simp] theorem State.setMember_lost : (s.setMember i x).lost = s.lost := rfl
@[simp] theorem State.setMember_irq : (s.setMember i x).irq = s.irq := rfl
@[simp] theorem State.setMember_stopped : (s.setMember i x).stopped = s.stopped := rfl
@[simp] theorem State.setMember_stalled : (s.setMember i x).stalled = s.stalled := rfl
@[simp] theorem State.setMember_dram : (s.setMember i x).dram = s.dram := rfl
@[simp] theorem State.setMember_trl : (s.setMember i x).trl = s.trl := rfl
@[simp] theorem State.setMember_mem : (s.setMember i x).mem = s.mem := rfl
@[simp] theorem State.setMember_dov : (s.setMember i x).dov = s.dov := rfl
@[simp] theorem State.setMember_pwm : (s.setMember i x).pwm = s.pwm := rfl
@[simp] theorem State.setMember_iceResync : (s.setMember i x).iceResync = s.iceResync := rfl
@[simp] theorem State.setMember_elapsed : (s.setMember i x).elapsed = s.elapsed := rfl
@[simp] theorem State.setMember_sns : (s.setMember i x).sns = s.sns := rfl
@[simp] theorem State.setMember_pwr : (s.setMember i x).pwr = s.pwr := rfl
@[simp] theorem State.setMember_sfe : (s.setMember i x).sfe = s.sfe := rfl
@[simp] theorem State.setMember_streams : (s.setMember i x).streams = s.streams := rfl
@[simp] theorem State.setMember_rawIn : (s.setMember i x).rawIn = s.rawIn := rfl
@[simp] theorem State.setMember_spi : (s.setMember i x).spi = s.spi := rfl
@[simp] theorem State.setMember_i2c : (s.setMember i x).i2c = s.i2c := rfl
@[simp] theorem State.setMember_trainFrom : (s.setMember i x).trainFrom = s.trainFrom := rfl
@[simp] theorem State.setMember_timecode : (s.setMember i x).timecode = s.timecode := rfl
@[simp] theorem State.setMember_isoStreams : (s.setMember i x).isoStreams = s.isoStreams := rfl
@[simp] theorem State.setMember_rcn : (s.setMember i x).rcn = s.rcn := rfl
@[simp] theorem State.setMember_integ : (s.setMember i x).integ = s.integ := rfl
@[simp] theorem State.setMember_stats : (s.setMember i x).stats = s.stats := rfl
@[simp] theorem State.setMember_statFrame : (s.setMember i x).statFrame = s.statFrame := rfl
@[simp] theorem State.setMember_ebeIn : (s.setMember i x).ebeIn = s.ebeIn := rfl
@[simp] theorem State.setMember_orgIn : (s.setMember i x).orgIn = s.orgIn := rfl
@[simp] theorem State.setMember_orgInB : (s.setMember i x).orgInB = s.orgInB := rfl
@[simp] theorem State.setMember_ebe : (s.setMember i x).ebe = s.ebe := rfl
@[simp] theorem State.setMember_ebd : (s.setMember i x).ebd = s.ebd := rfl
@[simp] theorem State.setMember_ofc : (s.setMember i x).ofc = s.ofc := rfl
@[simp] theorem State.setMember_org : (s.setMember i x).org = s.org := rfl
@[simp] theorem State.setMember_orgStats : (s.setMember i x).orgStats = s.orgStats := rfl
@[simp] theorem State.setMember_orgStatCount : (s.setMember i x).orgStatCount = s.orgStatCount := rfl
@[simp] theorem State.setMember_tables : (s.setMember i x).tables = s.tables := rfl
@[simp] theorem State.setMember_load : (s.setMember i x).load = s.load := rfl
@[simp] theorem State.setMember_views : (s.setMember i x).views = s.views := rfl
@[simp] theorem State.setMember_parterre : (s.setMember i x).parterre = s.parterre := rfl
@[simp] theorem State.setMember_newest : (s.setMember i x).newest = s.newest := rfl
@[simp] theorem State.setMember_bufHolds : (s.setMember i x).bufHolds = s.bufHolds := rfl
@[simp] theorem State.setMember_glass : (s.setMember i x).glass = s.glass := rfl
@[simp] theorem State.setMember_sdi : (s.setMember i x).sdi = s.sdi := rfl
@[simp] theorem State.setMember_blv : (s.setMember i x).blv = s.blv := rfl
@[simp] theorem State.setMember_sun : (s.setMember i x).sun = s.sun := rfl
@[simp] theorem State.setMember_net : (s.setMember i x).net = s.net := rfl
@[simp] theorem State.setMember_bnd : (s.setMember i x).bnd = s.bnd := rfl
@[simp] theorem State.setMember_arb : (s.setMember i x).arb = s.arb := rfl
@[simp] theorem State.setMember_links : (s.setMember i x).links = s.links := rfl
@[simp] theorem State.setMember_outbox : (s.setMember i x).outbox = s.outbox := rfl
@[simp] theorem State.setMember_freeCount : (s.setMember i x).freeCount = s.freeCount := rfl
@[simp] theorem State.setMember_pending : (s.setMember i x).pending = s.pending := rfl

end setMemberParts

section setRecChanParts
variable (s : State) (i : Nat) (x : Chan)

@[simp] theorem State.recChan_setRecChan (j : Nat) : (s.setRecChan i x).recChan j = if j = i then x else s.recChan j := SMap.get_set _ _ _ _ _
@[simp] theorem State.recChan_settle (j : Nat) : s.settle.recChan j = s.recChan j := by unfold State.recChan; rw [State.settle_bth]
@[simp] theorem State.setRecChan_regs : (s.setRecChan i x).regs = s.regs := rfl
@[simp] theorem State.setRecChan_shadow : (s.setRecChan i x).shadow = s.shadow := rfl
@[simp] theorem State.setRecChan_latches : (s.setRecChan i x).latches = s.latches := rfl
@[simp] theorem State.setRecChan_time : (s.setRecChan i x).time = s.time := rfl
@[simp] theorem State.setRecChan_due : (s.setRecChan i x).due = s.due := rfl
@[simp] theorem State.setRecChan_scheduled : (s.setRecChan i x).scheduled = s.scheduled := rfl
@[simp] theorem State.setRecChan_kiosk : (s.setRecChan i x).kiosk = s.kiosk := rfl
@[simp] theorem State.setRecChan_gth : (s.setRecChan i x).gth = s.gth := rfl
@[simp] theorem State.setRecChan_qpb : (s.setRecChan i x).qpb = s.qpb := rfl
@[simp] theorem State.setRecChan_held : (s.setRecChan i x).held = s.held := rfl
@[simp] theorem State.setRecChan_reports : (s.setRecChan i x).reports = s.reports := rfl
@[simp] theorem State.setRecChan_records : (s.setRecChan i x).records = s.records := rfl
@[simp] theorem State.setRecChan_lost : (s.setRecChan i x).lost = s.lost := rfl
@[simp] theorem State.setRecChan_irq : (s.setRecChan i x).irq = s.irq := rfl
@[simp] theorem State.setRecChan_stopped : (s.setRecChan i x).stopped = s.stopped := rfl
@[simp] theorem State.setRecChan_stalled : (s.setRecChan i x).stalled = s.stalled := rfl
@[simp] theorem State.setRecChan_dram : (s.setRecChan i x).dram = s.dram := rfl
@[simp] theorem State.setRecChan_trl : (s.setRecChan i x).trl = s.trl := rfl
@[simp] theorem State.setRecChan_mem : (s.setRecChan i x).mem = s.mem := rfl
@[simp] theorem State.setRecChan_dov : (s.setRecChan i x).dov = s.dov := rfl
@[simp] theorem State.setRecChan_pwm : (s.setRecChan i x).pwm = s.pwm := rfl
@[simp] theorem State.setRecChan_iceResync : (s.setRecChan i x).iceResync = s.iceResync := rfl
@[simp] theorem State.setRecChan_elapsed : (s.setRecChan i x).elapsed = s.elapsed := rfl
@[simp] theorem State.setRecChan_sns : (s.setRecChan i x).sns = s.sns := rfl
@[simp] theorem State.setRecChan_pwr : (s.setRecChan i x).pwr = s.pwr := rfl
@[simp] theorem State.setRecChan_sfe : (s.setRecChan i x).sfe = s.sfe := rfl
@[simp] theorem State.setRecChan_streams : (s.setRecChan i x).streams = s.streams := rfl
@[simp] theorem State.setRecChan_rawIn : (s.setRecChan i x).rawIn = s.rawIn := rfl
@[simp] theorem State.setRecChan_spi : (s.setRecChan i x).spi = s.spi := rfl
@[simp] theorem State.setRecChan_i2c : (s.setRecChan i x).i2c = s.i2c := rfl
@[simp] theorem State.setRecChan_trainFrom : (s.setRecChan i x).trainFrom = s.trainFrom := rfl
@[simp] theorem State.setRecChan_timecode : (s.setRecChan i x).timecode = s.timecode := rfl
@[simp] theorem State.setRecChan_isoStreams : (s.setRecChan i x).isoStreams = s.isoStreams := rfl
@[simp] theorem State.setRecChan_rcn : (s.setRecChan i x).rcn = s.rcn := rfl
@[simp] theorem State.setRecChan_integ : (s.setRecChan i x).integ = s.integ := rfl
@[simp] theorem State.setRecChan_stats : (s.setRecChan i x).stats = s.stats := rfl
@[simp] theorem State.setRecChan_statFrame : (s.setRecChan i x).statFrame = s.statFrame := rfl
@[simp] theorem State.setRecChan_ebeIn : (s.setRecChan i x).ebeIn = s.ebeIn := rfl
@[simp] theorem State.setRecChan_orgIn : (s.setRecChan i x).orgIn = s.orgIn := rfl
@[simp] theorem State.setRecChan_orgInB : (s.setRecChan i x).orgInB = s.orgInB := rfl
@[simp] theorem State.setRecChan_ebe : (s.setRecChan i x).ebe = s.ebe := rfl
@[simp] theorem State.setRecChan_ebd : (s.setRecChan i x).ebd = s.ebd := rfl
@[simp] theorem State.setRecChan_ofc : (s.setRecChan i x).ofc = s.ofc := rfl
@[simp] theorem State.setRecChan_org : (s.setRecChan i x).org = s.org := rfl
@[simp] theorem State.setRecChan_orgStats : (s.setRecChan i x).orgStats = s.orgStats := rfl
@[simp] theorem State.setRecChan_orgStatCount : (s.setRecChan i x).orgStatCount = s.orgStatCount := rfl
@[simp] theorem State.setRecChan_tables : (s.setRecChan i x).tables = s.tables := rfl
@[simp] theorem State.setRecChan_load : (s.setRecChan i x).load = s.load := rfl
@[simp] theorem State.setRecChan_views : (s.setRecChan i x).views = s.views := rfl
@[simp] theorem State.setRecChan_parterre : (s.setRecChan i x).parterre = s.parterre := rfl
@[simp] theorem State.setRecChan_newest : (s.setRecChan i x).newest = s.newest := rfl
@[simp] theorem State.setRecChan_bufHolds : (s.setRecChan i x).bufHolds = s.bufHolds := rfl
@[simp] theorem State.setRecChan_glass : (s.setRecChan i x).glass = s.glass := rfl
@[simp] theorem State.setRecChan_sdi : (s.setRecChan i x).sdi = s.sdi := rfl
@[simp] theorem State.setRecChan_blv : (s.setRecChan i x).blv = s.blv := rfl
@[simp] theorem State.setRecChan_sun : (s.setRecChan i x).sun = s.sun := rfl
@[simp] theorem State.setRecChan_net : (s.setRecChan i x).net = s.net := rfl
@[simp] theorem State.setRecChan_bnd : (s.setRecChan i x).bnd = s.bnd := rfl
@[simp] theorem State.setRecChan_arb : (s.setRecChan i x).arb = s.arb := rfl
@[simp] theorem State.setRecChan_links : (s.setRecChan i x).links = s.links := rfl
@[simp] theorem State.setRecChan_outbox : (s.setRecChan i x).outbox = s.outbox := rfl
@[simp] theorem State.setRecChan_freeCount : (s.setRecChan i x).freeCount = s.freeCount := rfl
@[simp] theorem State.setRecChan_pending : (s.setRecChan i x).pending = s.pending := rfl

end setRecChanParts

section setVolWaitParts
variable (s : State) (i : Nat) (x : VolWait)

@[simp] theorem State.volWait_setVolWait (j : Nat) : (s.setVolWait i x).volWait j = if j = i then x else s.volWait j := SMap.get_set _ _ _ _ _
@[simp] theorem State.volWait_settle (j : Nat) : s.settle.volWait j = s.volWait j := by unfold State.volWait; rw [State.settle_bth]
@[simp] theorem State.setVolWait_regs : (s.setVolWait i x).regs = s.regs := rfl
@[simp] theorem State.setVolWait_shadow : (s.setVolWait i x).shadow = s.shadow := rfl
@[simp] theorem State.setVolWait_latches : (s.setVolWait i x).latches = s.latches := rfl
@[simp] theorem State.setVolWait_time : (s.setVolWait i x).time = s.time := rfl
@[simp] theorem State.setVolWait_due : (s.setVolWait i x).due = s.due := rfl
@[simp] theorem State.setVolWait_scheduled : (s.setVolWait i x).scheduled = s.scheduled := rfl
@[simp] theorem State.setVolWait_kiosk : (s.setVolWait i x).kiosk = s.kiosk := rfl
@[simp] theorem State.setVolWait_gth : (s.setVolWait i x).gth = s.gth := rfl
@[simp] theorem State.setVolWait_qpb : (s.setVolWait i x).qpb = s.qpb := rfl
@[simp] theorem State.setVolWait_held : (s.setVolWait i x).held = s.held := rfl
@[simp] theorem State.setVolWait_reports : (s.setVolWait i x).reports = s.reports := rfl
@[simp] theorem State.setVolWait_records : (s.setVolWait i x).records = s.records := rfl
@[simp] theorem State.setVolWait_lost : (s.setVolWait i x).lost = s.lost := rfl
@[simp] theorem State.setVolWait_irq : (s.setVolWait i x).irq = s.irq := rfl
@[simp] theorem State.setVolWait_stopped : (s.setVolWait i x).stopped = s.stopped := rfl
@[simp] theorem State.setVolWait_stalled : (s.setVolWait i x).stalled = s.stalled := rfl
@[simp] theorem State.setVolWait_dram : (s.setVolWait i x).dram = s.dram := rfl
@[simp] theorem State.setVolWait_trl : (s.setVolWait i x).trl = s.trl := rfl
@[simp] theorem State.setVolWait_mem : (s.setVolWait i x).mem = s.mem := rfl
@[simp] theorem State.setVolWait_dov : (s.setVolWait i x).dov = s.dov := rfl
@[simp] theorem State.setVolWait_pwm : (s.setVolWait i x).pwm = s.pwm := rfl
@[simp] theorem State.setVolWait_iceResync : (s.setVolWait i x).iceResync = s.iceResync := rfl
@[simp] theorem State.setVolWait_elapsed : (s.setVolWait i x).elapsed = s.elapsed := rfl
@[simp] theorem State.setVolWait_sns : (s.setVolWait i x).sns = s.sns := rfl
@[simp] theorem State.setVolWait_pwr : (s.setVolWait i x).pwr = s.pwr := rfl
@[simp] theorem State.setVolWait_sfe : (s.setVolWait i x).sfe = s.sfe := rfl
@[simp] theorem State.setVolWait_streams : (s.setVolWait i x).streams = s.streams := rfl
@[simp] theorem State.setVolWait_rawIn : (s.setVolWait i x).rawIn = s.rawIn := rfl
@[simp] theorem State.setVolWait_spi : (s.setVolWait i x).spi = s.spi := rfl
@[simp] theorem State.setVolWait_i2c : (s.setVolWait i x).i2c = s.i2c := rfl
@[simp] theorem State.setVolWait_trainFrom : (s.setVolWait i x).trainFrom = s.trainFrom := rfl
@[simp] theorem State.setVolWait_timecode : (s.setVolWait i x).timecode = s.timecode := rfl
@[simp] theorem State.setVolWait_isoStreams : (s.setVolWait i x).isoStreams = s.isoStreams := rfl
@[simp] theorem State.setVolWait_rcn : (s.setVolWait i x).rcn = s.rcn := rfl
@[simp] theorem State.setVolWait_integ : (s.setVolWait i x).integ = s.integ := rfl
@[simp] theorem State.setVolWait_stats : (s.setVolWait i x).stats = s.stats := rfl
@[simp] theorem State.setVolWait_statFrame : (s.setVolWait i x).statFrame = s.statFrame := rfl
@[simp] theorem State.setVolWait_ebeIn : (s.setVolWait i x).ebeIn = s.ebeIn := rfl
@[simp] theorem State.setVolWait_orgIn : (s.setVolWait i x).orgIn = s.orgIn := rfl
@[simp] theorem State.setVolWait_orgInB : (s.setVolWait i x).orgInB = s.orgInB := rfl
@[simp] theorem State.setVolWait_ebe : (s.setVolWait i x).ebe = s.ebe := rfl
@[simp] theorem State.setVolWait_ebd : (s.setVolWait i x).ebd = s.ebd := rfl
@[simp] theorem State.setVolWait_ofc : (s.setVolWait i x).ofc = s.ofc := rfl
@[simp] theorem State.setVolWait_org : (s.setVolWait i x).org = s.org := rfl
@[simp] theorem State.setVolWait_orgStats : (s.setVolWait i x).orgStats = s.orgStats := rfl
@[simp] theorem State.setVolWait_orgStatCount : (s.setVolWait i x).orgStatCount = s.orgStatCount := rfl
@[simp] theorem State.setVolWait_tables : (s.setVolWait i x).tables = s.tables := rfl
@[simp] theorem State.setVolWait_load : (s.setVolWait i x).load = s.load := rfl
@[simp] theorem State.setVolWait_views : (s.setVolWait i x).views = s.views := rfl
@[simp] theorem State.setVolWait_parterre : (s.setVolWait i x).parterre = s.parterre := rfl
@[simp] theorem State.setVolWait_newest : (s.setVolWait i x).newest = s.newest := rfl
@[simp] theorem State.setVolWait_bufHolds : (s.setVolWait i x).bufHolds = s.bufHolds := rfl
@[simp] theorem State.setVolWait_glass : (s.setVolWait i x).glass = s.glass := rfl
@[simp] theorem State.setVolWait_sdi : (s.setVolWait i x).sdi = s.sdi := rfl
@[simp] theorem State.setVolWait_blv : (s.setVolWait i x).blv = s.blv := rfl
@[simp] theorem State.setVolWait_sun : (s.setVolWait i x).sun = s.sun := rfl
@[simp] theorem State.setVolWait_net : (s.setVolWait i x).net = s.net := rfl
@[simp] theorem State.setVolWait_bnd : (s.setVolWait i x).bnd = s.bnd := rfl
@[simp] theorem State.setVolWait_arb : (s.setVolWait i x).arb = s.arb := rfl
@[simp] theorem State.setVolWait_links : (s.setVolWait i x).links = s.links := rfl
@[simp] theorem State.setVolWait_outbox : (s.setVolWait i x).outbox = s.outbox := rfl
@[simp] theorem State.setVolWait_freeCount : (s.setVolWait i x).freeCount = s.freeCount := rfl
@[simp] theorem State.setVolWait_pending : (s.setVolWait i x).pending = s.pending := rfl

end setVolWaitParts

section setSesParts
variable (s : State) (i : Nat) (x : Session)

@[simp] theorem State.ses_setSes (j : Nat) : (s.setSes i x).ses j = if j = i then x else s.ses j := SMap.get_set _ _ _ _ _
@[simp] theorem State.setSes_regs : (s.setSes i x).regs = s.regs := rfl
@[simp] theorem State.setSes_shadow : (s.setSes i x).shadow = s.shadow := rfl
@[simp] theorem State.setSes_latches : (s.setSes i x).latches = s.latches := rfl
@[simp] theorem State.setSes_time : (s.setSes i x).time = s.time := rfl
@[simp] theorem State.setSes_due : (s.setSes i x).due = s.due := rfl
@[simp] theorem State.setSes_scheduled : (s.setSes i x).scheduled = s.scheduled := rfl
@[simp] theorem State.setSes_kiosk : (s.setSes i x).kiosk = s.kiosk := rfl
@[simp] theorem State.setSes_gth : (s.setSes i x).gth = s.gth := rfl
@[simp] theorem State.setSes_qpb : (s.setSes i x).qpb = s.qpb := rfl
@[simp] theorem State.setSes_held : (s.setSes i x).held = s.held := rfl
@[simp] theorem State.setSes_reports : (s.setSes i x).reports = s.reports := rfl
@[simp] theorem State.setSes_records : (s.setSes i x).records = s.records := rfl
@[simp] theorem State.setSes_lost : (s.setSes i x).lost = s.lost := rfl
@[simp] theorem State.setSes_irq : (s.setSes i x).irq = s.irq := rfl
@[simp] theorem State.setSes_stopped : (s.setSes i x).stopped = s.stopped := rfl
@[simp] theorem State.setSes_stalled : (s.setSes i x).stalled = s.stalled := rfl
@[simp] theorem State.setSes_dram : (s.setSes i x).dram = s.dram := rfl
@[simp] theorem State.setSes_trl : (s.setSes i x).trl = s.trl := rfl
@[simp] theorem State.setSes_mem : (s.setSes i x).mem = s.mem := rfl
@[simp] theorem State.setSes_dov : (s.setSes i x).dov = s.dov := rfl
@[simp] theorem State.setSes_pwm : (s.setSes i x).pwm = s.pwm := rfl
@[simp] theorem State.setSes_iceResync : (s.setSes i x).iceResync = s.iceResync := rfl
@[simp] theorem State.setSes_elapsed : (s.setSes i x).elapsed = s.elapsed := rfl
@[simp] theorem State.setSes_sns : (s.setSes i x).sns = s.sns := rfl
@[simp] theorem State.setSes_pwr : (s.setSes i x).pwr = s.pwr := rfl
@[simp] theorem State.setSes_sfe : (s.setSes i x).sfe = s.sfe := rfl
@[simp] theorem State.setSes_streams : (s.setSes i x).streams = s.streams := rfl
@[simp] theorem State.setSes_rawIn : (s.setSes i x).rawIn = s.rawIn := rfl
@[simp] theorem State.setSes_spi : (s.setSes i x).spi = s.spi := rfl
@[simp] theorem State.setSes_i2c : (s.setSes i x).i2c = s.i2c := rfl
@[simp] theorem State.setSes_trainFrom : (s.setSes i x).trainFrom = s.trainFrom := rfl
@[simp] theorem State.setSes_timecode : (s.setSes i x).timecode = s.timecode := rfl
@[simp] theorem State.setSes_isoStreams : (s.setSes i x).isoStreams = s.isoStreams := rfl
@[simp] theorem State.setSes_rcn : (s.setSes i x).rcn = s.rcn := rfl
@[simp] theorem State.setSes_integ : (s.setSes i x).integ = s.integ := rfl
@[simp] theorem State.setSes_stats : (s.setSes i x).stats = s.stats := rfl
@[simp] theorem State.setSes_statFrame : (s.setSes i x).statFrame = s.statFrame := rfl
@[simp] theorem State.setSes_ebeIn : (s.setSes i x).ebeIn = s.ebeIn := rfl
@[simp] theorem State.setSes_orgIn : (s.setSes i x).orgIn = s.orgIn := rfl
@[simp] theorem State.setSes_orgInB : (s.setSes i x).orgInB = s.orgInB := rfl
@[simp] theorem State.setSes_ebe : (s.setSes i x).ebe = s.ebe := rfl
@[simp] theorem State.setSes_ebd : (s.setSes i x).ebd = s.ebd := rfl
@[simp] theorem State.setSes_bth : (s.setSes i x).bth = s.bth := rfl
@[simp] theorem State.setSes_ofc : (s.setSes i x).ofc = s.ofc := rfl
@[simp] theorem State.setSes_org : (s.setSes i x).org = s.org := rfl
@[simp] theorem State.setSes_orgStats : (s.setSes i x).orgStats = s.orgStats := rfl
@[simp] theorem State.setSes_orgStatCount : (s.setSes i x).orgStatCount = s.orgStatCount := rfl
@[simp] theorem State.setSes_tables : (s.setSes i x).tables = s.tables := rfl
@[simp] theorem State.setSes_load : (s.setSes i x).load = s.load := rfl
@[simp] theorem State.setSes_views : (s.setSes i x).views = s.views := rfl
@[simp] theorem State.setSes_parterre : (s.setSes i x).parterre = s.parterre := rfl
@[simp] theorem State.setSes_newest : (s.setSes i x).newest = s.newest := rfl
@[simp] theorem State.setSes_bufHolds : (s.setSes i x).bufHolds = s.bufHolds := rfl
@[simp] theorem State.setSes_sdi : (s.setSes i x).sdi = s.sdi := rfl
@[simp] theorem State.setSes_blv : (s.setSes i x).blv = s.blv := rfl
@[simp] theorem State.setSes_sun : (s.setSes i x).sun = s.sun := rfl
@[simp] theorem State.setSes_net : (s.setSes i x).net = s.net := rfl
@[simp] theorem State.setSes_bnd : (s.setSes i x).bnd = s.bnd := rfl
@[simp] theorem State.setSes_arb : (s.setSes i x).arb = s.arb := rfl
@[simp] theorem State.setSes_links : (s.setSes i x).links = s.links := rfl
@[simp] theorem State.setSes_outbox : (s.setSes i x).outbox = s.outbox := rfl
@[simp] theorem State.setSes_freeCount : (s.setSes i x).freeCount = s.freeCount := rfl
@[simp] theorem State.setSes_pending : (s.setSes i x).pending = s.pending := rfl

end setSesParts

section setPwmParts
variable (s : State) (i : Nat) (x : PwmChan)

/-- Storing a PWM channel changes the channel, and sends what its pin then does; nothing else. -/
theorem State.setPwm_eq : s.setPwm i x = { s with pwm := SMap.set (fun _ => pwmReset) s.pwm i x, outbox := s.outbox ++ [if x.hiZ then .pwmHighZ i else .pwmRun i x.period x.duty x.pol x.start] } := by
  unfold State.setPwm; dsimp only; split <;> rfl

@[simp] theorem State.setPwm_outbox : (s.setPwm i x).outbox = s.outbox ++ [if x.hiZ then .pwmHighZ i else .pwmRun i x.period x.duty x.pol x.start] := by
  rw [State.setPwm_eq]

@[simp] theorem State.pwmOf_setPwm (j : Nat) : (s.setPwm i x).pwmOf j = if j = i then x else s.pwmOf j := by
  rw [State.setPwm_eq]; exact SMap.get_set _ _ _ _ _
@[simp] theorem State.pwmOf_settle (j : Nat) : s.settle.pwmOf j = s.pwmOf j := by unfold State.pwmOf; rw [State.settle_pwm]
@[simp] theorem State.setPwm_regs : (s.setPwm i x).regs = s.regs := by rw [State.setPwm_eq]
@[simp] theorem State.setPwm_shadow : (s.setPwm i x).shadow = s.shadow := by rw [State.setPwm_eq]
@[simp] theorem State.setPwm_latches : (s.setPwm i x).latches = s.latches := by rw [State.setPwm_eq]
@[simp] theorem State.setPwm_time : (s.setPwm i x).time = s.time := by rw [State.setPwm_eq]
@[simp] theorem State.setPwm_due : (s.setPwm i x).due = s.due := by rw [State.setPwm_eq]
@[simp] theorem State.setPwm_scheduled : (s.setPwm i x).scheduled = s.scheduled := by rw [State.setPwm_eq]
@[simp] theorem State.setPwm_kiosk : (s.setPwm i x).kiosk = s.kiosk := by rw [State.setPwm_eq]
@[simp] theorem State.setPwm_gth : (s.setPwm i x).gth = s.gth := by rw [State.setPwm_eq]
@[simp] theorem State.setPwm_qpb : (s.setPwm i x).qpb = s.qpb := by rw [State.setPwm_eq]
@[simp] theorem State.setPwm_held : (s.setPwm i x).held = s.held := by rw [State.setPwm_eq]
@[simp] theorem State.setPwm_reports : (s.setPwm i x).reports = s.reports := by rw [State.setPwm_eq]
@[simp] theorem State.setPwm_records : (s.setPwm i x).records = s.records := by rw [State.setPwm_eq]
@[simp] theorem State.setPwm_lost : (s.setPwm i x).lost = s.lost := by rw [State.setPwm_eq]
@[simp] theorem State.setPwm_irq : (s.setPwm i x).irq = s.irq := by rw [State.setPwm_eq]
@[simp] theorem State.setPwm_stopped : (s.setPwm i x).stopped = s.stopped := by rw [State.setPwm_eq]
@[simp] theorem State.setPwm_stalled : (s.setPwm i x).stalled = s.stalled := by rw [State.setPwm_eq]
@[simp] theorem State.setPwm_dram : (s.setPwm i x).dram = s.dram := by rw [State.setPwm_eq]
@[simp] theorem State.setPwm_trl : (s.setPwm i x).trl = s.trl := by rw [State.setPwm_eq]
@[simp] theorem State.setPwm_mem : (s.setPwm i x).mem = s.mem := by rw [State.setPwm_eq]
@[simp] theorem State.setPwm_dov : (s.setPwm i x).dov = s.dov := by rw [State.setPwm_eq]
@[simp] theorem State.setPwm_iceResync : (s.setPwm i x).iceResync = s.iceResync := by rw [State.setPwm_eq]
@[simp] theorem State.setPwm_elapsed : (s.setPwm i x).elapsed = s.elapsed := by rw [State.setPwm_eq]
@[simp] theorem State.setPwm_sns : (s.setPwm i x).sns = s.sns := by rw [State.setPwm_eq]
@[simp] theorem State.setPwm_pwr : (s.setPwm i x).pwr = s.pwr := by rw [State.setPwm_eq]
@[simp] theorem State.setPwm_sfe : (s.setPwm i x).sfe = s.sfe := by rw [State.setPwm_eq]
@[simp] theorem State.setPwm_streams : (s.setPwm i x).streams = s.streams := by rw [State.setPwm_eq]
@[simp] theorem State.setPwm_rawIn : (s.setPwm i x).rawIn = s.rawIn := by rw [State.setPwm_eq]
@[simp] theorem State.setPwm_spi : (s.setPwm i x).spi = s.spi := by rw [State.setPwm_eq]
@[simp] theorem State.setPwm_i2c : (s.setPwm i x).i2c = s.i2c := by rw [State.setPwm_eq]
@[simp] theorem State.setPwm_trainFrom : (s.setPwm i x).trainFrom = s.trainFrom := by rw [State.setPwm_eq]
@[simp] theorem State.setPwm_timecode : (s.setPwm i x).timecode = s.timecode := by rw [State.setPwm_eq]
@[simp] theorem State.setPwm_isoStreams : (s.setPwm i x).isoStreams = s.isoStreams := by rw [State.setPwm_eq]
@[simp] theorem State.setPwm_rcn : (s.setPwm i x).rcn = s.rcn := by rw [State.setPwm_eq]
@[simp] theorem State.setPwm_integ : (s.setPwm i x).integ = s.integ := by rw [State.setPwm_eq]
@[simp] theorem State.setPwm_stats : (s.setPwm i x).stats = s.stats := by rw [State.setPwm_eq]
@[simp] theorem State.setPwm_statFrame : (s.setPwm i x).statFrame = s.statFrame := by rw [State.setPwm_eq]
@[simp] theorem State.setPwm_ebeIn : (s.setPwm i x).ebeIn = s.ebeIn := by rw [State.setPwm_eq]
@[simp] theorem State.setPwm_orgIn : (s.setPwm i x).orgIn = s.orgIn := by rw [State.setPwm_eq]
@[simp] theorem State.setPwm_orgInB : (s.setPwm i x).orgInB = s.orgInB := by rw [State.setPwm_eq]
@[simp] theorem State.setPwm_ebe : (s.setPwm i x).ebe = s.ebe := by rw [State.setPwm_eq]
@[simp] theorem State.setPwm_ebd : (s.setPwm i x).ebd = s.ebd := by rw [State.setPwm_eq]
@[simp] theorem State.setPwm_bth : (s.setPwm i x).bth = s.bth := by rw [State.setPwm_eq]
@[simp] theorem State.setPwm_ofc : (s.setPwm i x).ofc = s.ofc := by rw [State.setPwm_eq]
@[simp] theorem State.setPwm_org : (s.setPwm i x).org = s.org := by rw [State.setPwm_eq]
@[simp] theorem State.setPwm_orgStats : (s.setPwm i x).orgStats = s.orgStats := by rw [State.setPwm_eq]
@[simp] theorem State.setPwm_orgStatCount : (s.setPwm i x).orgStatCount = s.orgStatCount := by rw [State.setPwm_eq]
@[simp] theorem State.setPwm_tables : (s.setPwm i x).tables = s.tables := by rw [State.setPwm_eq]
@[simp] theorem State.setPwm_load : (s.setPwm i x).load = s.load := by rw [State.setPwm_eq]
@[simp] theorem State.setPwm_views : (s.setPwm i x).views = s.views := by rw [State.setPwm_eq]
@[simp] theorem State.setPwm_parterre : (s.setPwm i x).parterre = s.parterre := by rw [State.setPwm_eq]
@[simp] theorem State.setPwm_newest : (s.setPwm i x).newest = s.newest := by rw [State.setPwm_eq]
@[simp] theorem State.setPwm_bufHolds : (s.setPwm i x).bufHolds = s.bufHolds := by rw [State.setPwm_eq]
@[simp] theorem State.setPwm_glass : (s.setPwm i x).glass = s.glass := by rw [State.setPwm_eq]
@[simp] theorem State.setPwm_sdi : (s.setPwm i x).sdi = s.sdi := by rw [State.setPwm_eq]
@[simp] theorem State.setPwm_blv : (s.setPwm i x).blv = s.blv := by rw [State.setPwm_eq]
@[simp] theorem State.setPwm_sun : (s.setPwm i x).sun = s.sun := by rw [State.setPwm_eq]
@[simp] theorem State.setPwm_net : (s.setPwm i x).net = s.net := by rw [State.setPwm_eq]
@[simp] theorem State.setPwm_bnd : (s.setPwm i x).bnd = s.bnd := by rw [State.setPwm_eq]
@[simp] theorem State.setPwm_arb : (s.setPwm i x).arb = s.arb := by rw [State.setPwm_eq]
@[simp] theorem State.setPwm_links : (s.setPwm i x).links = s.links := by rw [State.setPwm_eq]
@[simp] theorem State.setPwm_freeCount : (s.setPwm i x).freeCount = s.freeCount := by rw [State.setPwm_eq]
@[simp] theorem State.setPwm_pending : (s.setPwm i x).pending = s.pending := by rw [State.setPwm_eq]

end setPwmParts

section setChanParts
variable (s : State) (i : Nat) (x : McChan)

@[simp] theorem State.chan_setChan (j : Nat) : (s.setChan i x).chan j = if j = i then x else s.chan j := SMap.get_set _ _ _ _ _
@[simp] theorem State.chan_settle (j : Nat) : s.settle.chan j = s.chan j := by unfold State.chan; rw [State.settle_mem]
@[simp] theorem State.setChan_shadow : (s.setChan i x).shadow = s.shadow := rfl
@[simp] theorem State.setChan_latches : (s.setChan i x).latches = s.latches := rfl
@[simp] theorem State.setChan_time : (s.setChan i x).time = s.time := rfl
@[simp] theorem State.setChan_due : (s.setChan i x).due = s.due := rfl
@[simp] theorem State.setChan_scheduled : (s.setChan i x).scheduled = s.scheduled := rfl
@[simp] theorem State.setChan_kiosk : (s.setChan i x).kiosk = s.kiosk := rfl
@[simp] theorem State.setChan_gth : (s.setChan i x).gth = s.gth := rfl
@[simp] theorem State.setChan_qpb : (s.setChan i x).qpb = s.qpb := rfl
@[simp] theorem State.setChan_held : (s.setChan i x).held = s.held := rfl
@[simp] theorem State.setChan_reports : (s.setChan i x).reports = s.reports := rfl
@[simp] theorem State.setChan_records : (s.setChan i x).records = s.records := rfl
@[simp] theorem State.setChan_lost : (s.setChan i x).lost = s.lost := rfl
@[simp] theorem State.setChan_irq : (s.setChan i x).irq = s.irq := rfl
@[simp] theorem State.setChan_stopped : (s.setChan i x).stopped = s.stopped := rfl
@[simp] theorem State.setChan_stalled : (s.setChan i x).stalled = s.stalled := rfl
@[simp] theorem State.setChan_dram : (s.setChan i x).dram = s.dram := rfl
@[simp] theorem State.setChan_trl : (s.setChan i x).trl = s.trl := rfl
@[simp] theorem State.setChan_dov : (s.setChan i x).dov = s.dov := rfl
@[simp] theorem State.setChan_pwm : (s.setChan i x).pwm = s.pwm := rfl
@[simp] theorem State.setChan_iceResync : (s.setChan i x).iceResync = s.iceResync := rfl
@[simp] theorem State.setChan_elapsed : (s.setChan i x).elapsed = s.elapsed := rfl
@[simp] theorem State.setChan_sns : (s.setChan i x).sns = s.sns := rfl
@[simp] theorem State.setChan_pwr : (s.setChan i x).pwr = s.pwr := rfl
@[simp] theorem State.setChan_sfe : (s.setChan i x).sfe = s.sfe := rfl
@[simp] theorem State.setChan_streams : (s.setChan i x).streams = s.streams := rfl
@[simp] theorem State.setChan_rawIn : (s.setChan i x).rawIn = s.rawIn := rfl
@[simp] theorem State.setChan_spi : (s.setChan i x).spi = s.spi := rfl
@[simp] theorem State.setChan_i2c : (s.setChan i x).i2c = s.i2c := rfl
@[simp] theorem State.setChan_trainFrom : (s.setChan i x).trainFrom = s.trainFrom := rfl
@[simp] theorem State.setChan_timecode : (s.setChan i x).timecode = s.timecode := rfl
@[simp] theorem State.setChan_isoStreams : (s.setChan i x).isoStreams = s.isoStreams := rfl
@[simp] theorem State.setChan_rcn : (s.setChan i x).rcn = s.rcn := rfl
@[simp] theorem State.setChan_integ : (s.setChan i x).integ = s.integ := rfl
@[simp] theorem State.setChan_stats : (s.setChan i x).stats = s.stats := rfl
@[simp] theorem State.setChan_statFrame : (s.setChan i x).statFrame = s.statFrame := rfl
@[simp] theorem State.setChan_ebeIn : (s.setChan i x).ebeIn = s.ebeIn := rfl
@[simp] theorem State.setChan_orgIn : (s.setChan i x).orgIn = s.orgIn := rfl
@[simp] theorem State.setChan_orgInB : (s.setChan i x).orgInB = s.orgInB := rfl
@[simp] theorem State.setChan_ebe : (s.setChan i x).ebe = s.ebe := rfl
@[simp] theorem State.setChan_ebd : (s.setChan i x).ebd = s.ebd := rfl
@[simp] theorem State.setChan_bth : (s.setChan i x).bth = s.bth := rfl
@[simp] theorem State.setChan_ofc : (s.setChan i x).ofc = s.ofc := rfl
@[simp] theorem State.setChan_org : (s.setChan i x).org = s.org := rfl
@[simp] theorem State.setChan_orgStats : (s.setChan i x).orgStats = s.orgStats := rfl
@[simp] theorem State.setChan_orgStatCount : (s.setChan i x).orgStatCount = s.orgStatCount := rfl
@[simp] theorem State.setChan_tables : (s.setChan i x).tables = s.tables := rfl
@[simp] theorem State.setChan_load : (s.setChan i x).load = s.load := rfl
@[simp] theorem State.setChan_views : (s.setChan i x).views = s.views := rfl
@[simp] theorem State.setChan_parterre : (s.setChan i x).parterre = s.parterre := rfl
@[simp] theorem State.setChan_newest : (s.setChan i x).newest = s.newest := rfl
@[simp] theorem State.setChan_bufHolds : (s.setChan i x).bufHolds = s.bufHolds := rfl
@[simp] theorem State.setChan_glass : (s.setChan i x).glass = s.glass := rfl
@[simp] theorem State.setChan_sdi : (s.setChan i x).sdi = s.sdi := rfl
@[simp] theorem State.setChan_blv : (s.setChan i x).blv = s.blv := rfl
@[simp] theorem State.setChan_sun : (s.setChan i x).sun = s.sun := rfl
@[simp] theorem State.setChan_net : (s.setChan i x).net = s.net := rfl
@[simp] theorem State.setChan_bnd : (s.setChan i x).bnd = s.bnd := rfl
@[simp] theorem State.setChan_arb : (s.setChan i x).arb = s.arb := rfl
@[simp] theorem State.setChan_links : (s.setChan i x).links = s.links := rfl
@[simp] theorem State.setChan_outbox : (s.setChan i x).outbox = s.outbox := rfl
@[simp] theorem State.setChan_freeCount : (s.setChan i x).freeCount = s.freeCount := rfl
@[simp] theorem State.setChan_pending : (s.setChan i x).pending = s.pending := rfl

end setChanParts

section setRefParts
variable (s : State) (i : Nat) (x : SunRef)

@[simp] theorem State.ref_setRef (j : Nat) : (s.setRef i x).ref j = if j = i then x else s.ref j := SMap.get_set _ _ _ _ _
@[simp] theorem State.ref_settle (j : Nat) : s.settle.ref j = s.ref j := by unfold State.ref; rw [State.settle_sun]
@[simp] theorem State.setRef_regs : (s.setRef i x).regs = s.regs := rfl
@[simp] theorem State.setRef_shadow : (s.setRef i x).shadow = s.shadow := rfl
@[simp] theorem State.setRef_latches : (s.setRef i x).latches = s.latches := rfl
@[simp] theorem State.setRef_time : (s.setRef i x).time = s.time := rfl
@[simp] theorem State.setRef_due : (s.setRef i x).due = s.due := rfl
@[simp] theorem State.setRef_scheduled : (s.setRef i x).scheduled = s.scheduled := rfl
@[simp] theorem State.setRef_kiosk : (s.setRef i x).kiosk = s.kiosk := rfl
@[simp] theorem State.setRef_gth : (s.setRef i x).gth = s.gth := rfl
@[simp] theorem State.setRef_qpb : (s.setRef i x).qpb = s.qpb := rfl
@[simp] theorem State.setRef_held : (s.setRef i x).held = s.held := rfl
@[simp] theorem State.setRef_reports : (s.setRef i x).reports = s.reports := rfl
@[simp] theorem State.setRef_records : (s.setRef i x).records = s.records := rfl
@[simp] theorem State.setRef_lost : (s.setRef i x).lost = s.lost := rfl
@[simp] theorem State.setRef_irq : (s.setRef i x).irq = s.irq := rfl
@[simp] theorem State.setRef_stopped : (s.setRef i x).stopped = s.stopped := rfl
@[simp] theorem State.setRef_stalled : (s.setRef i x).stalled = s.stalled := rfl
@[simp] theorem State.setRef_dram : (s.setRef i x).dram = s.dram := rfl
@[simp] theorem State.setRef_trl : (s.setRef i x).trl = s.trl := rfl
@[simp] theorem State.setRef_mem : (s.setRef i x).mem = s.mem := rfl
@[simp] theorem State.setRef_dov : (s.setRef i x).dov = s.dov := rfl
@[simp] theorem State.setRef_pwm : (s.setRef i x).pwm = s.pwm := rfl
@[simp] theorem State.setRef_iceResync : (s.setRef i x).iceResync = s.iceResync := rfl
@[simp] theorem State.setRef_elapsed : (s.setRef i x).elapsed = s.elapsed := rfl
@[simp] theorem State.setRef_sns : (s.setRef i x).sns = s.sns := rfl
@[simp] theorem State.setRef_pwr : (s.setRef i x).pwr = s.pwr := rfl
@[simp] theorem State.setRef_sfe : (s.setRef i x).sfe = s.sfe := rfl
@[simp] theorem State.setRef_streams : (s.setRef i x).streams = s.streams := rfl
@[simp] theorem State.setRef_rawIn : (s.setRef i x).rawIn = s.rawIn := rfl
@[simp] theorem State.setRef_spi : (s.setRef i x).spi = s.spi := rfl
@[simp] theorem State.setRef_i2c : (s.setRef i x).i2c = s.i2c := rfl
@[simp] theorem State.setRef_trainFrom : (s.setRef i x).trainFrom = s.trainFrom := rfl
@[simp] theorem State.setRef_timecode : (s.setRef i x).timecode = s.timecode := rfl
@[simp] theorem State.setRef_isoStreams : (s.setRef i x).isoStreams = s.isoStreams := rfl
@[simp] theorem State.setRef_rcn : (s.setRef i x).rcn = s.rcn := rfl
@[simp] theorem State.setRef_integ : (s.setRef i x).integ = s.integ := rfl
@[simp] theorem State.setRef_stats : (s.setRef i x).stats = s.stats := rfl
@[simp] theorem State.setRef_statFrame : (s.setRef i x).statFrame = s.statFrame := rfl
@[simp] theorem State.setRef_ebeIn : (s.setRef i x).ebeIn = s.ebeIn := rfl
@[simp] theorem State.setRef_orgIn : (s.setRef i x).orgIn = s.orgIn := rfl
@[simp] theorem State.setRef_orgInB : (s.setRef i x).orgInB = s.orgInB := rfl
@[simp] theorem State.setRef_ebe : (s.setRef i x).ebe = s.ebe := rfl
@[simp] theorem State.setRef_ebd : (s.setRef i x).ebd = s.ebd := rfl
@[simp] theorem State.setRef_bth : (s.setRef i x).bth = s.bth := rfl
@[simp] theorem State.setRef_ofc : (s.setRef i x).ofc = s.ofc := rfl
@[simp] theorem State.setRef_org : (s.setRef i x).org = s.org := rfl
@[simp] theorem State.setRef_orgStats : (s.setRef i x).orgStats = s.orgStats := rfl
@[simp] theorem State.setRef_orgStatCount : (s.setRef i x).orgStatCount = s.orgStatCount := rfl
@[simp] theorem State.setRef_tables : (s.setRef i x).tables = s.tables := rfl
@[simp] theorem State.setRef_load : (s.setRef i x).load = s.load := rfl
@[simp] theorem State.setRef_views : (s.setRef i x).views = s.views := rfl
@[simp] theorem State.setRef_parterre : (s.setRef i x).parterre = s.parterre := rfl
@[simp] theorem State.setRef_newest : (s.setRef i x).newest = s.newest := rfl
@[simp] theorem State.setRef_bufHolds : (s.setRef i x).bufHolds = s.bufHolds := rfl
@[simp] theorem State.setRef_glass : (s.setRef i x).glass = s.glass := rfl
@[simp] theorem State.setRef_sdi : (s.setRef i x).sdi = s.sdi := rfl
@[simp] theorem State.setRef_blv : (s.setRef i x).blv = s.blv := rfl
@[simp] theorem State.setRef_net : (s.setRef i x).net = s.net := rfl
@[simp] theorem State.setRef_bnd : (s.setRef i x).bnd = s.bnd := rfl
@[simp] theorem State.setRef_arb : (s.setRef i x).arb = s.arb := rfl
@[simp] theorem State.setRef_links : (s.setRef i x).links = s.links := rfl
@[simp] theorem State.setRef_outbox : (s.setRef i x).outbox = s.outbox := rfl
@[simp] theorem State.setRef_freeCount : (s.setRef i x).freeCount = s.freeCount := rfl
@[simp] theorem State.setRef_pending : (s.setRef i x).pending = s.pending := rfl

end setRefParts

section setLaneParts
variable (s : State) (i : Nat) (x : LaneState)

@[simp] theorem State.lane_setLane (j : Nat) : (s.setLane i x).lane j = if j = i then x else s.lane j := SMap.get_set _ _ _ _ _
@[simp] theorem State.lane_settle (j : Nat) : s.settle.lane j = s.lane j := by unfold State.lane; rw [State.settle_mem]
@[simp] theorem State.setLane_regs : (s.setLane i x).regs = s.regs := rfl
@[simp] theorem State.setLane_shadow : (s.setLane i x).shadow = s.shadow := rfl
@[simp] theorem State.setLane_latches : (s.setLane i x).latches = s.latches := rfl
@[simp] theorem State.setLane_time : (s.setLane i x).time = s.time := rfl
@[simp] theorem State.setLane_due : (s.setLane i x).due = s.due := rfl
@[simp] theorem State.setLane_scheduled : (s.setLane i x).scheduled = s.scheduled := rfl
@[simp] theorem State.setLane_kiosk : (s.setLane i x).kiosk = s.kiosk := rfl
@[simp] theorem State.setLane_gth : (s.setLane i x).gth = s.gth := rfl
@[simp] theorem State.setLane_qpb : (s.setLane i x).qpb = s.qpb := rfl
@[simp] theorem State.setLane_held : (s.setLane i x).held = s.held := rfl
@[simp] theorem State.setLane_reports : (s.setLane i x).reports = s.reports := rfl
@[simp] theorem State.setLane_records : (s.setLane i x).records = s.records := rfl
@[simp] theorem State.setLane_lost : (s.setLane i x).lost = s.lost := rfl
@[simp] theorem State.setLane_irq : (s.setLane i x).irq = s.irq := rfl
@[simp] theorem State.setLane_stopped : (s.setLane i x).stopped = s.stopped := rfl
@[simp] theorem State.setLane_stalled : (s.setLane i x).stalled = s.stalled := rfl
@[simp] theorem State.setLane_dram : (s.setLane i x).dram = s.dram := rfl
@[simp] theorem State.setLane_trl : (s.setLane i x).trl = s.trl := rfl
@[simp] theorem State.setLane_dov : (s.setLane i x).dov = s.dov := rfl
@[simp] theorem State.setLane_pwm : (s.setLane i x).pwm = s.pwm := rfl
@[simp] theorem State.setLane_iceResync : (s.setLane i x).iceResync = s.iceResync := rfl
@[simp] theorem State.setLane_elapsed : (s.setLane i x).elapsed = s.elapsed := rfl
@[simp] theorem State.setLane_sns : (s.setLane i x).sns = s.sns := rfl
@[simp] theorem State.setLane_pwr : (s.setLane i x).pwr = s.pwr := rfl
@[simp] theorem State.setLane_sfe : (s.setLane i x).sfe = s.sfe := rfl
@[simp] theorem State.setLane_streams : (s.setLane i x).streams = s.streams := rfl
@[simp] theorem State.setLane_rawIn : (s.setLane i x).rawIn = s.rawIn := rfl
@[simp] theorem State.setLane_spi : (s.setLane i x).spi = s.spi := rfl
@[simp] theorem State.setLane_i2c : (s.setLane i x).i2c = s.i2c := rfl
@[simp] theorem State.setLane_trainFrom : (s.setLane i x).trainFrom = s.trainFrom := rfl
@[simp] theorem State.setLane_timecode : (s.setLane i x).timecode = s.timecode := rfl
@[simp] theorem State.setLane_isoStreams : (s.setLane i x).isoStreams = s.isoStreams := rfl
@[simp] theorem State.setLane_rcn : (s.setLane i x).rcn = s.rcn := rfl
@[simp] theorem State.setLane_integ : (s.setLane i x).integ = s.integ := rfl
@[simp] theorem State.setLane_stats : (s.setLane i x).stats = s.stats := rfl
@[simp] theorem State.setLane_statFrame : (s.setLane i x).statFrame = s.statFrame := rfl
@[simp] theorem State.setLane_ebeIn : (s.setLane i x).ebeIn = s.ebeIn := rfl
@[simp] theorem State.setLane_orgIn : (s.setLane i x).orgIn = s.orgIn := rfl
@[simp] theorem State.setLane_orgInB : (s.setLane i x).orgInB = s.orgInB := rfl
@[simp] theorem State.setLane_ebe : (s.setLane i x).ebe = s.ebe := rfl
@[simp] theorem State.setLane_ebd : (s.setLane i x).ebd = s.ebd := rfl
@[simp] theorem State.setLane_bth : (s.setLane i x).bth = s.bth := rfl
@[simp] theorem State.setLane_ofc : (s.setLane i x).ofc = s.ofc := rfl
@[simp] theorem State.setLane_org : (s.setLane i x).org = s.org := rfl
@[simp] theorem State.setLane_orgStats : (s.setLane i x).orgStats = s.orgStats := rfl
@[simp] theorem State.setLane_orgStatCount : (s.setLane i x).orgStatCount = s.orgStatCount := rfl
@[simp] theorem State.setLane_tables : (s.setLane i x).tables = s.tables := rfl
@[simp] theorem State.setLane_load : (s.setLane i x).load = s.load := rfl
@[simp] theorem State.setLane_views : (s.setLane i x).views = s.views := rfl
@[simp] theorem State.setLane_parterre : (s.setLane i x).parterre = s.parterre := rfl
@[simp] theorem State.setLane_newest : (s.setLane i x).newest = s.newest := rfl
@[simp] theorem State.setLane_bufHolds : (s.setLane i x).bufHolds = s.bufHolds := rfl
@[simp] theorem State.setLane_glass : (s.setLane i x).glass = s.glass := rfl
@[simp] theorem State.setLane_sdi : (s.setLane i x).sdi = s.sdi := rfl
@[simp] theorem State.setLane_blv : (s.setLane i x).blv = s.blv := rfl
@[simp] theorem State.setLane_sun : (s.setLane i x).sun = s.sun := rfl
@[simp] theorem State.setLane_net : (s.setLane i x).net = s.net := rfl
@[simp] theorem State.setLane_bnd : (s.setLane i x).bnd = s.bnd := rfl
@[simp] theorem State.setLane_arb : (s.setLane i x).arb = s.arb := rfl
@[simp] theorem State.setLane_links : (s.setLane i x).links = s.links := rfl
@[simp] theorem State.setLane_outbox : (s.setLane i x).outbox = s.outbox := rfl
@[simp] theorem State.setLane_freeCount : (s.setLane i x).freeCount = s.freeCount := rfl
@[simp] theorem State.setLane_pending : (s.setLane i x).pending = s.pending := rfl

end setLaneParts

/-! ### Channels of the links, buffers, pins -/

/-- A channel of a link after one was stored. -/
@[simp] theorem State.flkChan_setFlkChan (s : State) (p c : Nat) (k : FlkChan) (q d : Nat) :
    (s.setFlkChan p c k).flkChan q d = if q = p ∧ d = c then k else s.flkChan q d := by
  unfold State.setFlkChan State.flkChan
  rw [State.flkPort_setFlk]
  by_cases hq : q = p
  · subst hq
    simp only [if_true, true_and]
    exact SMap.get_set _ _ _ _ _
  · simp [hq]

@[simp] theorem State.setFlkChan_newest (s : State) (p c : Nat) (k : FlkChan) : (s.setFlkChan p c k).newest = s.newest := rfl

/-- Storing a channel of a link changes the links alone. -/
theorem State.setFlkChan_eq (s : State) (p c : Nat) (k : FlkChan) : s.setFlkChan p c k = { s with links := (s.setFlkChan p c k).links } := rfl

/-- States that agree once one takes the other's links and holds differ in these alone. -/
theorem State.eq_with_links_holds (t s : State) (h : ({ t with links := s.links, bufHolds := s.bufHolds } : State) = s) :
    t = { s with links := t.links, bufHolds := t.bufHolds } := by
  cases t; cases s; simp_all

/-- A completed buffer becomes the newest of its source, and the channels that send it hold it; nothing else changes. -/
theorem State.complete_eq (s : State) (src : Nat) (b : BufFrame) : s.complete src b =
    { s with newest := SMap.put s.newest src b, links := (s.complete src b).links, bufHolds := (s.complete src b).bufHolds } := by
  let f : State → Nat × Nat → State := fun t e =>
    if t.sendsBuffers e.1 e.2 src && (t.flkChan e.1 e.2).unsent b.seq then
      (t.setFlkChan e.1 e.2 { t.flkChan e.1 e.2 with due := (t.flkChan e.1 e.2).due ++ [b] }).holdBuf src (chanUnitId e.1 e.2) b.index
    else t
  have step (t : State) (e : Nat × Nat) : f t e = { t with links := (f t e).links, bufHolds := (f t e).bufHolds } := by
    simp only [f]; split <;> rfl
  have go (l : List (Nat × Nat)) (t : State) : l.foldl f t = { t with links := (l.foldl f t).links, bufHolds := (l.foldl f t).bufHolds } := by
    induction l generalizing t with
    | nil => rfl
    | cons e r ih =>
      rw [List.foldl_cons]
      have h := ih (f t e)
      generalize r.foldl f (f t e) = u at *
      rw [h, step t e]
  exact go flkChannels { s with newest := SMap.put s.newest src b }

/-- The newest buffer of a source after a completion. -/
@[simp] theorem State.complete_newest (s : State) (src : Nat) (b : BufFrame) : (s.complete src b).newest = SMap.put s.newest src b := by
  rw [State.complete_eq]

/-- Showing the partners' pins sends at most one output, and changes nothing else. -/
theorem State.showPartners_eq (s : State) (old : PartnerPins) : s.showPartners old =
    { s with outbox := s.outbox ++ (if s.partnerPins = old then [] else [.partnerPins s.partnerPins]) } := by
  unfold State.showPartners
  split
  · rw [List.append_nil]
  · rfl

/-- Driving the enables changes them and the outbox alone. -/
theorem State.setRails_eq (s : State) (io core hs vddq tcxo : Bool) : s.setRails io core hs vddq tcxo =
    { s with pwr := { s.pwr with enIo := io, enCore := core, enHs := hs, enVddq := vddq, tcxoEn := tcxo }, outbox := (s.setRails io core hs vddq tcxo).outbox } := by
  unfold State.setRails
  rw [State.showPartners_eq]
  rfl

end Sys2Proof.Machine
end

