-- ==== Sys2Proof/Tests/Slice0.lean ====
section
/-! SUPPORT. Tests: the manual's worked examples, the terms that WellFormed refuses, and single steps on small states. Every expected value is the
manual's own. -/

set_option Elab.async false

namespace Sys2Proof.Tests

open Sys2Proof Sys2Proof.Machine

/-! ### Terms that the wires cannot carry -/

/-- A transaction on the data bus. -/
def wireTxn (m u beats addr : Nat) (w : Bool) (data : List Byte) : Instr :=
  .transaction { master := m, unit := u, isWrite := w, target := .dram addr, beats := beats, data := data, flow := none, viaPcie := false, ecc := [] }

/-- A transaction on a register. -/
def wireReg (page off beats : Nat) (w : Bool) (data : List Byte) : Instr :=
  .transaction { master := 1, unit := 1, isWrite := w, target := .reg page off, beats := beats, data := data, flow := none, viaPcie := false, ecc := [] }

/-- A remote read. -/
def wireRemote (o t k page off : Nat) : RemoteAccess := { origin := o, target := t, k := k, isWrite := false, page := page, off := off, value := 0 }

/-- A submission-queue entry. -/
def wireNvme (op cid nsid c10 c11 c12 : Nat) : NvmeCmd :=
  { opcode := op, cid := cid, nsid := nsid, prp1 := 0, cdw10 := c10, cdw11 := c11, cdw12 := c12, data := [] }

/-- A payload ID, and a measured SDI frame. -/
def wirePid : PayloadId := { link := 1, rate := 1, sampling := 1, depth12 := false, colorimetry := 0, tf := some 0, range := 0 }
def wireSdi : SdiFrame :=
  { age := 0, raster := 15, rate := 15, link := 15, words := 0, linesPerFrame := 0, pid := some { wirePid with sampling := 3 }, pidBytes := 2 ^ 32 - 1, rows := [],
    crcErrors := 0, skew := [], audio := [] }

/-- One ill-formed term for each check of operands: control, buses, sensors. -/
def illFormedA : List Instr :=
  [.registerWrite 512 0 0 0, .registerWrite 0 256 0 0, .registerWrite 0 0 4096 0, .registerWrite 0 0 2 0, .narrowWrite ⟨512, 0⟩ 0, .narrowWrite ⟨0, 256⟩ 0, .narrowWrite ⟨0, 0⟩ 1,
   wireTxn 512 0 1 0 false [], wireTxn 0 4096 1 0 false [], wireTxn 0 0 0 0 false [], wireTxn 0 0 9 0 false [], wireTxn 0 0 1 16 false [],
   wireTxn 0 0 2 0xE0 false [], wireTxn 0 0 1 (2 ^ 36) false [], wireTxn 0 0 1 0 true [1], wireReg 256 0 1 false [], wireReg 0 2 1 false [],
   wireReg 0 0 2 false [], wireReg 0 0 1 true [1],
   .managementRound { speedIndex := 2 ^ 16, mgrAlive := false, refDev := none, trefi := [0, 0, 0, 0] },
   .managementRound { speedIndex := 0, mgrAlive := false, refDev := none, trefi := [] },
   .updGroupBind 256 0, .kioskSelect .lodge 256 0, .kioskSelect .lodge 0 256, .kioskSnapshotDone .lodge 256, .cntRestart 256 0]

/-- Admission, sensors, serial masters. -/
def illFormedB : List Instr :=
  [.patienceExpiry .trellis 4096, .patienceExpiry .refresh 16, .patienceExpiry .dramWriteDrain 16, .patienceExpiry .nvmeClass 1536,
   .patienceExpiry .dovecoteCal 1, .pauseQuantumExpiry 4096 true, .trainingDone 0 (List.replicate 21 { eyeTaps := 20, centre := 0, marker := none }),
   .tapTrack 0 20 1 12, .syncCode 0 [2 ^ 16] [], .syncCode 0 [] (List.replicate 21 [0, 0, 0, 0]), .syncCode 0 [] [[0]],
   .sensorLineStart 0 [2 ^ 16], .inputOverflow 0 (2 ^ 16), .spiDone 0 (List.replicate 65 0), .i2cDone 0 false (List.replicate 65 0),
   .tableReadError 0 .dark (2 ^ 14) 0, .tableReadError 0 .dark 0 4096, .tileWriteError 0 4096, .decodeFrame [(0, 4096)]]

/-- Storage, network, memory, housekeeping, links, boot. -/
def illFormedC : List Instr :=
  [.nvmeCompletion 0 (2 ^ 16) .ok, .inboundRequest 0 0 (2 ^ 24) false [], .inboundRequest 0 0 0 true (List.replicate 4097 0),
   .labelReadDone 0 [], .controllerEnable false 0 1 0 0, .controllerEnable false 4097 1 0 0, .controllerEnable false 1 0 0 0,
   .controllerEnable false 1 4097 0 0, .sqDoorbell 1536 0, .sqDoorbell 0 (2 ^ 16), .arbitrationRound [wireNvme 256 0 0 0 0 0],
   .arbitrationRound [wireNvme 0 (2 ^ 16) 0 0 0 0], .arbitrationRound [wireNvme 0 0 (2 ^ 32) 0 0 0], .arbitrationRound [wireNvme 0 0 0 (2 ^ 32) 0 0],
   .arbitrationRound [wireNvme 0 0 0 0 (2 ^ 32) 0], .arbitrationRound [wireNvme 0 0 0 0 0 (2 ^ 32)], .identify (2 ^ 16), .flush 1536 0,
   .commandCompletion 1 0 (.bus 4096), .sdiInFrame 0 { wireSdi with raster := 16 },
   .sdiInFrame 0 { wireSdi with link := 16 }, .sdiInFrame 0 { wireSdi with rate := 16 }, .sdiInFrame 0 { wireSdi with pidBytes := 2 ^ 32 },
   .sdiInFrame 0 { wireSdi with pid := some { wirePid with sampling := 4 } }, .sdiSignalLoss ⟨0, some { wireSdi with raster := 16 }⟩, .loadDone 0 (some 4096),
   .viewFrameComplete 0 ⟨[(2 ^ 35, 0)], none⟩, .workItemDone ⟨0, [(0, 4096)]⟩, .openScanDone 0 ⟨[[]], []⟩, .layerUnderrun 0 0 0 (some 4096), .arbourJobDone [(0, 4096)],
   .dsiCommandDone 0 false (List.replicate 65 0), .ctlTxSend (2 ^ 12) [], .macAge (2 ^ 48),
   .receiverPacket 0 false { seq := 2 ^ 32, timestamp := 0, marker := false, age := 0, src := 0, dst := 0, udp := 0, body := .audio 2 [] },
   .receiverPacket 0 false { seq := 0, timestamp := 2 ^ 32, marker := false, age := 0, src := 0, dst := 0, udp := 0, body := .audio 2 [] },
   .trainDone [], .recentre [], .slotTimer 7, .pwmEvent 32,
   .remoteTimeout (wireRemote 16 0 0 0 0), .remoteTimeout (wireRemote 0 16 0 0 0), .remoteTimeout (wireRemote 0 0 4 0 0),
   .remoteTimeout (wireRemote 0 0 0 256 0), .remoteTimeout (wireRemote 0 0 0 0 2), .imageBlock .forUs 0 (List.replicate 4097 0) true,
   .heartbeatReceive 0 { seq := 256, sender := 0, state := 0, epoch := 0 }, .heartbeatReceive 0 { seq := 0, sender := 16, state := 0, epoch := 0 },
   .heartbeatReceive 0 { seq := 0, sender := 0, state := 8, epoch := 0 }, .heartbeatReceive 0 { seq := 0, sender := 0, state := 0, epoch := 2 ^ 16 },
   .rejoinCmd 512 0]

/-- The refused terms stop, whatever the state, and their lawful neighbours do not. -/
theorem test_ill_formed_terms : (illFormedA ++ illFormedB ++ illFormedC).all (fun c => !c.wellFormed) = true := by decide +kernel

/-- One lawful term, at the edge of its ranges, for each command whose operands are checked or that passes an edge. -/
def lawfulA : List Instr :=
  [.registerWrite 511 255 4092 0xFFFFFFFF, .narrowWrite ⟨511, 255⟩ 4092, wireTxn 511 4095 8 0 false [],
   .managementRound { speedIndex := 2 ^ 16 - 1, mgrAlive := false, refDev := none, trefi := [0, 0, 0, 0] }, .updGroupBind 255 15,
   .kioskSelect .shared 255 255, .kioskSnapshotDone .shared 255, .cntRestart 255 0xFFFFFFFF, .patienceExpiry .trellis 4095, .pauseQuantumExpiry 4095 true,
   .trainingDone 3 (List.replicate 20 { eyeTaps := 8, centre := 0, marker := none }), .tapTrack 3 19 (-1) 20,
   .syncCode 3 [2 ^ 16 - 1] (List.replicate 20 [0, 1, 2, 2 ^ 16 - 1]), .sensorFrameStart 3 [2 ^ 16 - 1], .sensorLineStart 3 [2 ^ 16 - 1],
   .sensorLineEnd 3 [2 ^ 16 - 1], .sensorFrameEnd 3 [2 ^ 16 - 1], .inputOverflow 3 (2 ^ 16 - 1), .vTrigger 3, .hTrigger 3, .spiDone 3 [1],
   .i2cDone 3 true [1], .i2cStretchTimeout 3, .tableReadError 3 .flat (2 ^ 14 - 1) 4095, .averageDone, .intFrame, .ebeFrameStart 3, .ebeFrameEnd 3,
   .tileWriteError 3 4095, .decodeFrame [(2 ^ 35 - 1, 4095)]]

def lawfulB : List Instr :=
  [.orgFrameEnd 1, .loadDone 7 (some 4095), .viewFrameComplete 7 ⟨[(2 ^ 35 - 1, 4095)], some 4095⟩, .workItemDone ⟨5, [(2 ^ 35 - 1, 4095)]⟩,
   .decodePublish 31, .nvmeCompletion 31 65535 .ok, .inboundRequest 7 31 (2 ^ 24 - 1) true [1], .labelReadDone 15 (List.replicate 4096 0),
   .openScanDone 15 ⟨[List.replicate 4096 0], []⟩, .fetchDone true [1], .controllerEnable true 4096 1 0 0, .controllerDisable, .functionLevelReset,
   .ccShutdown 3, .sqDoorbell 1535 65535, .cqDoorbell 1535 0, .arbitrationRound [wireNvme 255 65535 (2 ^ 32 - 1) 0 0 0], .createIoSq 65535,
   .createIoCq 65535, .deleteIoSq 65535, .deleteIoSqDone 65535, .deleteIoCq 65535, .getLogPage 65535, .identify 65535, .setFeatures 65535,
   .getFeatures 65535, .resumeQueue 65535, .unsupportedOpcode 1535 65535, .nvmRead 1535 65535, .nvmWrite 1535 65535]

def lawfulC : List Instr :=
  [.flush 1535 65535, .datasetManagement 1535 65535, .commandCompletion 1535 65535 (.bus 4095), .sdiOutFrameStart 3 [(0, 4095)], .sdiInFrame 3 wireSdi,
   .sdiSignalLoss ⟨3, some wireSdi⟩, .blvFrameStart 1, .blvVfpEnd 1, .layerUnderrun 1 2 0 (some 4095), .dsiCommandDone 1 true [1],
   .refMeasurement 7 (.edge 0), .ltcWordOut, .framePulse 1,
   .ethFrameReceive 1 { bytes := [], fcsOk := true, age := 0, egressDelay := 0 }, .ctlTxSend 4095 [2 ^ 16 - 1], .macAge (2 ^ 48 - 1),
   .senderFrameSlot 15, .senderPacket 15 0 0,
   .receiverPacket 15 true { seq := 2 ^ 32 - 1, timestamp := 2 ^ 32 - 1, marker := false, age := 0, src := 0, dst := 0, udp := 0, body := .audio 2 [] },
   .audioFrame 3 0 [true], .schedulerIssue 3 3, .refreshInterval 3 3,
   .trainDone (List.replicate 32 { eyeTaps := 12, rdDly := 0, wrDly := 0, rdVref := 0, wrVref := 0 }), .recentre (List.replicate 32 0),
   .arbourJobDone [(2 ^ 35 - 1, 4095)], .slotTimer 31, .pwmEvent 31, .conversionDone 3 4095 0, .calDone (-1) (-1), .aonRound]

def lawfulD : List Instr :=
  [.flitReceive 3 true, .remoteTransaction (wireRemote 15 15 3 255 4092) none, .remoteTimeout (wireRemote 15 15 3 255 4092), .timeMessage 3 0 0 none 0,
   .timeReply 3 0, .channelSendFrame 3 7 true, .channelFrameReceived 3 7 [1] [1] true, .idAssign 31, .idRequest, .cascadeMessageBad,
   .imageBlock .forward 0 [1] false, .heartbeatReceive 3 { seq := 255, sender := 15, state := 7, epoch := 65535 }, .rejoinCmd 511 0xFFFFFFFF,
   .bootCopyRead [1] [1] { sfdp := [], trim := 0 }, .ltcWordIn 0]

/-- The premises of EveryWellFormedCommandAnswers, for each of its clauses that has one. -/
theorem witness_EveryWellFormedCommandAnswers_forms :
    (lawfulA ++ lawfulB ++ lawfulC ++ lawfulD).all (fun c => c.wellFormed) = true ∧ ∀ c : Instr, State.reset.stopsAtEdge c = false :=
  ⟨by decide +kernel, fun c => State.stopsAtEdge_of_running rfl c⟩

/-- An ill-formed command stops with the fault of that name; lawful ones at the edges of their ranges do not. -/
theorem test_ill_formed_stops : exec (.slotTimer 32) State.reset = .fault .malformedCommand := rfl
theorem test_range_edges :
    [Instr.registerWrite 511 255 4092 0, wireTxn 511 4095 8 0 false [], wireTxn 0 0 1 (2 ^ 36 - 32) false [], .slotTimer 8, .slotTimer 31,
      .patienceExpiry .nvmeClass 1535, .macAge (2 ^ 48 - 1)].all Instr.wellFormed = true := by decide +kernel

/-- No row of the opcode table gives bits, so no word spells a command. -/
theorem test_no_word_spells_a_command (nbits w : Nat) : decodeTableWord nbits w = none := rfl

/-! ### Serial numbers and rounding (00_scope.md, the examples of R7, R9 and 02_control_model.md) -/

theorem test_serial_later : serial 8 0x03 0xFE = .later := by decide
theorem test_serial_ambiguous : serial 8 0x80 0x00 = .ambiguous := by decide
theorem test_serial_short_time : serial 40 0x0001212D00 0xFFFFF00000 = .later := by decide
theorem test_round_half_up : rshift (-5) 1 = -2 ∧ rshift 5 1 = 3 := by decide

/-! ### Raw conditioning (05_raw_conditioning.md, worked example) -/

theorem test_merge_l25 : mergeL25 12 true 57344 0x200000 13 7240 57960 = 1854624 := by decide +kernel
theorem test_flat_gain : flatGain 8 136 44 0x4400 0x4200 0x4600 0x4400 = 17224 := by decide +kernel
theorem test_flat_field : rshift (1854624 * 17224) 14 = 1949710 := by decide

/-! ### Ebosh Raw (06_ebosh_raw.md: mapping, one group of a tile, the 16K120 figures, R128) -/

theorem test_map_sample : mapSample 12 64 1949710 = 540 := by decide +kernel
theorem test_tile_group :
    (packBits 8 (bitsOf 4 2 ++ groupBits (codeRow 12 2 0 (rowPos (phaseStart 12) (phaseStart 12)) [540, 574, 545, 578] [0, 0, 0, 0]).1)).map (·.toNat) =
      [0x28, 0x00, 0x01, 0xD8, 0x00, 0x01, 0x6C, 0x0A] := by decide +kernel
theorem test_tile_figures : tileBytesOf 12 8 = 1536 ∧ strideOf 12 8 34560 = 12961 ∧ strideOf 12 0 34560 = 52145 ∧ maxTile 12 = 6176 := by decide +kernel

/-! ### Orangery and views (07_orangery.md and 08_views.md, the chain of examples) -/

theorem test_white_balance : whiteBalance 0x3A00 (2 ^ 24 - 1) 1949710 = 3533849 := by decide +kernel
theorem test_lut1 : lut1 (fun i => if i = 3278 then 41210 else if i = 3279 then 41236 else 0) 1893480 false = 41217 := by decide +kernel
theorem test_lut3 :
    lut3 (fun a b c => if (a, b, c) = (0, 0, 0) then 40000 else if (a, b, c) = (1, 0, 0) then 40900 else if (a, b, c) = (1, 1, 0) then 41100 else 41150)
      968 257 232 = 40912 := by decide +kernel
theorem test_quantise : codesOf 1 10 0 false false (40912, 41217, 33000) = (606, 456, 515) := by decide +kernel
theorem test_green_at_red :
    greenAt (fun r c => if r = 100 then (if c = 200 then 800000 else if c = 198 then 780000 else if c = 202 then 812000 else if c = 199 then 1100000 else 1120000)
      else if r = 98 then 600000 else if r = 102 then 1000000 else if r = 99 then 900000 else 1300000) 256 100 200 = 1112000 := by decide +kernel

/-! ### Media, DEFLATE, calibration, admission, audio -/

/-- The figures of 10_boathouse.md: eight members, EXT_STRIPES 14,000,000, J 256. -/
def mediaExample : State :=
  let s := (State.reset.setReg (Adr.BTH.VOL_CFG 0) 0x01000801).setReg (Adr.BTH.EXT_STRIPES 0) 0x00D59F80
  (List.range 8).foldl (fun s k => (s.setReg Adr.BTH.VM_SEL (k * 256)).vmWrite (BitVec.ofNat 32 k)) s

/-- Frame 1,000 of take 0 lies on member 5 at LBA 1,628,392 (10_boathouse.md). -/
theorem test_media_address :
    (mediaExample.mediaOf 0 53357740032).1 = 5 ∧ (mediaExample.mediaOf 0 53357740032).2 / 4096 = 1628392 ∧
    mediaAddress (mediaExample.mediaOf 0 53357740032).1 (mediaExample.mediaOf 0 53357740032).2 = 0x280018D8E8000 := by decide +kernel

/-- The log of 16_arbour.md: gzip, LEVEL 2, 64 KiB segments. -/
theorem test_deflate_bound : arbBound (leBytes 4 0x628 ++ leBytes 4 1048576) = 1048839 := by decide +kernel

/-- An empty final stored block (RFC 1951) is the whole of a decompression of nothing. -/
theorem test_inflate_empty : inflateJob 0 16 [1, 0, 0, 0xFF, 0xFF] = .ok ([], 5) := by decide +kernel

/-- The calibration of 17_housekeeping.md. -/
theorem test_calibration : roundDiv (49152 * 2 ^ 15) (57480 - 8120) = 32630 := by decide +kernel

/-- 3 slots and 7 µs: 55 units (03_trellis.md, R77); the defaults: 128. -/
theorem test_allowance : allowanceOf 3 7 = 55 ∧ State.reset.allowance = 128 := by decide +kernel

/-! ### Single steps on small states -/

/-- A machine with one command in front. -/
def front (c : Instr) (s : State) : State := { s with pending := [c] }

/-- One field of a step's next state. -/
def after (s : State) (f : State → Nat) : Option Nat := match step s with
  | .next t => some (f t)
  | _ => none

theorem test_idle_passes_time : after State.reset (fun t => t.time.ns) = some 2 := by decide +kernel
theorem test_step_takes_one : after (front (.pwrBudgetWrite 30000) State.reset) (fun t => t.pending.length) = some 0 := by decide +kernel
theorem test_budget_written : after (front (.pwrBudgetWrite 30000) State.reset) (fun t => t.rd Adr.TRL.PWR_BUDGET) = some 30000 := by decide +kernel
theorem test_budget_too_low_ignored : after (front (.pwrBudgetWrite 19999) State.reset) (fun t => t.rd Adr.TRL.PWR_BUDGET) = some 55000 := by decide +kernel
theorem test_id_assigned : after (front (.idAssign 7) State.reset) (fun t => Fld.HIE.HIE_STAT_DEV_ID t.regs) = some 7 := by decide +kernel
theorem test_lock_sticks : after (front (.gthLock 0) (State.reset.setReg Adr.GTH.LOCK 1)) (fun t => Fld.GTH.LOCK t.regs) = some 1 := by decide +kernel
theorem test_arm_immediate_is_due : after (front (.updArm 0x0020) State.reset) (fun t => t.due.length) = some 1 := by decide +kernel
theorem test_refresh_debt : after (front (.refreshInterval 1 2) (State.reset.setChan 6 { mcChanReset with ready := true, debt := 4 }))
    (fun t => t.rd (Adr.MC.REF_DEBT 1 2)) = some 5 := by decide +kernel
theorem test_watchdog_records_cause :
    after (front .watchdogExpiry (State.reset.setReg Adr.PMU.WDT_CFG 0x80000001)) (fun t => t.rd Adr.PMU.LAST_RESET) = some 3 := by decide +kernel
theorem test_dram_reads_back : (State.reset.dramWrite 0x1000 [1, 2, 3]).dramRead 0xFFF 5 = [0, 1, 2, 3, 0] := by decide +kernel

end Sys2Proof.Tests
end

