-- ==== Sys2Proof/Tests/Witnesses.lean ====
section
/-! SUPPORT. For each obligation with premises: concrete states and operands that meet the premises of each of its clauses. Small states are built from
the reset state; the premises are those of the statement, word for word. -/

set_option maxRecDepth 20000
set_option Elab.async false

namespace Sys2Proof.Tests

open Sys2Proof Sys2Proof.Machine

/-! ### Building blocks -/

/-- The same state at a nanosecond of the first second. -/
def at' (s : State) (ns : Nat) : State := { s with time := { sec := 0, ns := ns, frac := 0 } }

/-- An ADMITTED flow of an owner, at entry 0. -/
def withFlow (s : State) (owner : Nat) (costs : List (Nat × Nat)) : State := s.setFlow 0 { flowReset with owner := owner, costs := costs, st := .admitted }

/-- A page with its applied ENABLE set. -/
def on (s : State) (page : Nat) : State := s.setFld (Adr.HDR.PG_CTL page) 0 1 1

/-- DRAM trained, with 1 GiB. -/
def trained (s : State) : State := (s.setReg Adr.MCT.TRAIN_STAT 2).setReg Adr.MCT.CAPACITY 1024

/-- A buffer of a source. -/
def buf : BufFrame :=
  { index := 1, addr := 0x10000, pitch := 256, chroma := 0, fmt := 0, depth := 0, range := 0, colorimetry := 0, tf := 0, width := 4, height := 2, count := 7,
    tags := 0, sof := 0, seq := 3 }

/-- Registers set one after another. -/
def put (s : State) (l : List (Nat × Nat)) : State := l.foldl (fun s a => s.setReg a.1 a.2) s

/-! ### Witness states: update groups, faults, buses, admission -/

namespace Ctl

def pending3 : State := put State.reset [(Adr.GLB.UPD_PEND, 8), (Adr.HDR.PG_CTL 0x18, 0x30)]
def mode (m : Nat) : State := at' (put State.reset [(Adr.GLB.UPD_MODE 3, m), (Adr.GLB.UPD_TIME_LO 3, 500)]) 400
def modeStart : State := mode 1
def sched : State := mode 4
def schedSoon : State := { sched with time := { sec := 0, ns := 498, frac := 0 }, scheduled := [3] }
def kiosk : State := State.reset.setKiosk .lodge 0x18 { echo := 5, valid := false, busy := true, nosel := false, data := [1] }
def lockedS : State := put State.reset [(Adr.GTH.LOCK, 1), (Adr.GTH.TBL_SEL, 5)]
def rep (unit cause code : Nat) : Report := { unit := unit, cause := cause, code := code, time := 50 }
def rec_ (cause : Nat) : Record := { cause := cause, cls := 1, firstTime := 1, lastTime := 2, firstReporter := 5, lastReporter := 6, count := 0xFFFF, fresh := false }
def reported : State := { State.reset with reports := [rep 0x041 0x041 9, rep 0x100 0x041 1] }
def recorded : State := { reported with records := [(0, rec_ 0x041), (1, rec_ 0x100)], held := [{ page := 4, cause := 0x041, code := 9, event := true, unit := 0x041 }, { page := 4, cause := 0x041, code := 9, event := false, unit := 0x041 }] }
def full : State := { reported with records := (List.range 256).map (fun n => (n, rec_ (0x200 + n))) }
def isolated : State := put State.reset [(Adr.HIE.HIE_STAT, 4)]
def dramS : State := (trained State.reset)
def txn (m : Nat) (w : Bool) (t : TxnTarget) : Txn :=
  { master := m, unit := 0x300, isWrite := w, target := t, beats := match t with | .reg _ _ => 1 | .dram _ => 2,
    data := match t with | .reg _ _ => [1, 2, 3, 4] | .dram _ => List.replicate 64 7, flow := none, viaPcie := false, ecc := [] }
def stoppedS : State := { dramS with stopped := [.lodge, .memGroup 0, .memGroup 1, .memGroup 2, .memGroup 3] }
def stalledS : State := { stoppedS with stalled := [.transaction (txn 5 true (.dram 0x1000))] }
def flow (l : List (Nat × Nat)) : Flow := { flowReset with owner := 0x200, costs := l, pwrCore := 10, pwrFixed := 10, st := .free }
def free_ (l : List (Nat × Nat)) : State := put (State.reset.setFlow 0 (flow l)) [(Adr.PMU.PWR_STAT, 15), (Adr.TRL.OP, 3)]
def fits : State := free_ [(2, 3)]
def fitsNot : State := free_ [(2, 60000)]
def admitted_ : State := (fits).setFlow 0 { flow [(2, 3)] with st := .admitted }
def admittedOn : State := (admitted_.setFlow 0 { flow [(2, 3)] with st := .admitted, owner := 0x500 }).setFlk 0 { flkReset with running := true }
def op0 : State := put fits [(Adr.TRL.OP, 0)]
def op0Tight : State := put admitted_ [(Adr.TRL.OP, 0), (Adr.TRL.PWR_BUDGET, 0)]
def opBusy : State := put admitted_ [(Adr.TRL.OP_STAT, 1), (Adr.TRL.OP, 0)]
def opSettling : State := { opBusy with pwr := { opBusy.pwr with settling := some 2 } }
def beOp (q : Nat) : State := { dramS with trl := { dramS.trl with beOps := [{ party := 0x300, quanta := q, txn := txn 5 true (.dram 0x1000), eligible := 0 }] } }
def be0 : State := beOp 0
def beLong : State := { at' (put (beOp 0) [(Adr.TRL.BE_PATIENCE, 4)]) 900000 with trl := { (beOp 0).trl with slots := [{ res := 0x17, party := 0x300, since := 0 }] } }
def noTime : State := { State.reset with stopped := [.sundial] }
def be1 : State := beOp 1
def debt8 : State := State.reset.setChan 5 { mcChanReset with ready := true, debt := 8 }
def round (n : Nat) (alive : Bool) : RoundSample := { speedIndex := n, mgrAlive := alive, refDev := some (1, 2, 3), trefi := [1, 2, 3, 4] }
def one (t : Txn) : Txn := { t with beats := 1, data := t.data.take 32 }
def held4 : McEntry := { addr := 0x1000, beats := 2, metered := false, entered := 100 }
def dramQueued : State := dramS.setChan 0 { mcChanReset with ready := true, writeQ := [held4] }
def dramEccOn : State := { dramS with mem := { dramS.mem with cfg := 0x100 } }
def badRead : Txn := { one (txn 5 false (.dram 0x1000)) with ecc := [.uncorrectable] }
def onHold (p : Nat) : State := State.reset.setFld (Adr.HDR.PG_CTL p) 1 1 1
def manager : State := put State.reset [(Adr.HIE.HIE_STAT, 2)]
def dramShut : State := { dramS with mem := { dramS.mem with selfRefresh := true } }
def calLate : State := put State.reset [(Adr.DOV.CAL_STAT, 0xFF00)]
def agedWrite : State := at' (State.reset.setChan 5 { mcChanReset with ready := true, writeQ := [held4] }) 900000

end Ctl

/-! ### Witness states: sensors and serial masters -/

namespace Front

def laneGood : LaneFound := { eyeTaps := 8, centre := 20, marker := some 0 }
def sfeCfg : SfeCfg := { width := 2, height := 3, lanes := 4, sampleBits := 12, padCode := 7, modeId := 2, dual := false, sync := false, closeNs := 1000, lvDelay := 0, skew := 0 }
def sfeFrame : SfeFrame := { cfg := sfeCfg, sof := 100, rows := 1, readouts := 1, lastEnd := none, half := none, trunc := none, stream := 0, count := 0, step := 1, base := 0, kept := [], ended := none }
def sfeLine : SfeLine := { samples := [9], excess := 0, ignored := false, stamp := 50 }
def sfeRow : RawRow := { lo := [1, 2], hi := [], short := false, long := false, pad := false, stamp := none }
def aligned : State := (State.reset.setReg (Adr.SFL.DESKEW_STAT 0) 1).setReg Adr.SFL.TRACK_CTL 1
def runs : State := aligned.setGrp 0 { sfeGroupReset with running := true }
def training : State := State.reset.setReg (Adr.SFL.DESKEW_STAT 0) 2
def windowed : State := at' ((aligned.setFld (Adr.SFE.GRP_CFG 0) 16 1 1).setGrp 0 { sfeGroupReset with running := true, anchor := some 0, cnt := 0xFFFFFFFF }) 900000000
def open' : State := aligned.setGrp 0 { sfeGroupReset with running := true, fv := true, frame := some sfeFrame }
def openDone : State := aligned.setGrp 0 { sfeGroupReset with running := true, fv := true, frame := some { sfeFrame with rows := 3, readouts := 3, lastEnd := some 0 } }
def openLine : State := aligned.setGrp 0 { sfeGroupReset with running := true, fv := true, frame := some sfeFrame, line := some sfeLine }
def openFull : State := aligned.setGrp 0 { sfeGroupReset with running := true, fv := true, frame := some sfeFrame, line := some sfeLine, queue := List.replicate 6 (.row sfeRow) }
def joined : State := at' ((aligned.setReg Adr.SFE.GRP_MODE 0x31).setGrp 1 { sfeGroupReset with running := true, frame := some sfeFrame, heldSof := some 0 }) 900000000
def forwards : State := (aligned.setGrp 0 { sfeGroupReset with running := true, queue := [.row sfeRow] }).setStream 0
  { sfeStreamReset with frames := [{ record := frameRecReset, mode := 0, members := [0], cfgs := [aligned.readCfg 0], height := 8, skipped := false, begun := [0], waiting := [], got := [], started := true,
                                     sent := 1, stamp0 := none, stamp1 := none, skew := 0 }] }
def triggers : State := aligned.setGrp 0 { sfeGroupReset with running := true, trigOn := true, hLeft := 2 }
def openLong : State := at' openDone 5000
def openTrunc : State := aligned.setGrp 0 { sfeGroupReset with running := true, fv := true, frame := some { sfeFrame with trunc := some 1 }, line := some sfeLine }
def sync : State := (aligned.setFld (Adr.SFE.GRP_CFG 0) 3 1 1).setGrp 0 { sfeGroupReset with running := true }
def delayed : State := aligned.setFld (Adr.SFE.GRP_CFG 0) 9 4 3
def heldLines : State := (open'.setFld (Adr.HDR.PG_CTL 0x10) 1 1 1).setGrp 0 { sfeGroupReset with running := true, fv := true, afterClose := true }
def stall : State := { aligned with rawIn := [(0, [.row sfeRow])] }
def serialBusy : State := (State.reset.setReg (Adr.SFE.SPI_STAT 0) 1).setReg (Adr.SFE.I2C_STAT 0) 1
def serialFull : State := (State.reset.setSpi 0 { serialReset with tx := [1, 2, 3], rx := [4, 5] }).setI2c 0 { serialReset with tx := [1, 2] }

end Front

/-! ### Witness states: raw conditioning, integration, recording, decoding -/

namespace Raw

def raw : RcnFrame :=
  { record := frameRecReset, width := 4, height := 2, sampleBits := 12, dual := false, cfg := [], rows := [], level := [], map := none, failed := [], reads := [], out := [],
    integrate := false, toEbe := false, toOrg := false }
def rawRow : RawRow := { lo := [0, 100, 4095, 16], hi := [], short := false, long := false, pad := false, stamp := none }
def padRow : RawRow := { lo := [], hi := [], short := false, long := false, pad := true, stamp := none }
def rcnOpen : State := { State.reset.setRcn 0 { running := true, frame := some raw } with rawIn := [(0, [.row padRow])] }
def integRuns : State :=
  { State.reset.setReg Adr.RCS.INT_STAT 1 with integ := { State.reset.integ with
      cfg := [(Adr.RCS.INT_CFG, 4)], done := [{ raw with record := { frameRecReset with tags := 1 } }] } }
def integSkips : State :=
  { State.reset.setReg Adr.RCS.INT_STAT 1 with integ := { State.reset.integ with cfg := [(Adr.RCS.INT_CFG, 0x100)], number := 1, done := [raw] } }
def integIdle : State := State.reset.setReg Adr.RCS.INT_STAT 1
def integTakes : State := trained { State.reset.setReg Adr.RCS.INT_STAT 1 with integ := { State.reset.integ with cfg := [(Adr.RCS.INT_CFG, 0)], done := [raw] } }
def averaging : State := trained { State.reset.setReg Adr.RCS.INT_STAT 0x20012 with integ := { State.reset.integ with geometry := some (4, 1, 12, false), taken := 2, averaging := some ([(Adr.RCS.INT_AVG_UNIT, 1)], 2, 4, 1) } }
def rawHeld : RcnFrame := { raw with rows := [rawRow], level := [([1, -2, 4095, 7], [])], reads := [((.dark, 0), some [1, 2, 3, 4])] }
def rcnRow : State := { State.reset.setRcn 0 { running := true, frame := some rawHeld } with rawIn := [(0, [.row padRow])] }
def rcnStalls : State := { State.reset.setRcn 0 { running := true, frame := some { raw with toEbe := true } } with rawIn := [(0, [.row padRow])], ebeIn := [(0, [.skipped frameRecReset])] }
def armedInt : State := { State.reset with integ := { State.reset.integ with armed := some [], tiles := [0], taken := 3 } }
def ebeRuns : State := State.reset.setEbe 0 { ebeCtxReset with running := true, geometry := some (4, 16, 1), ring := (256, 8) }
def ebeStarts : State :=
  (State.reset.setEbe 0 { ebeCtxReset with
    running := true, geometry := some (4, 16, strideOf (cwOf 0) (State.reset.ratio2 0) (tilesX 4 * tilesY 16)), ring := (256, 4096) }).setEbeQueue 0
    [.start { frameRecReset with count := 9 } 4 16 none]
def ebeFrame : EbeFrame :=
  { record := { frameRecReset with count := 0xFFFFFFFF }, width := 4, height := 16, cw := 10, ratio2 := 6, pedestal := 0, cfaId := 0, user := [],
    tileBytes := 32, stride := 2, unit := some 0, skipped := false, rows := [], tileRow := 1, holdSegs := 0, rawTiles := 0,
    index := [], offset := 4128, writeErr := false, complete := true }
def ebeOpen : State := trained (State.reset.setEbe 0 { ebeCtxReset with running := true, geometry := some (4, 16, 2), ring := (256, 8), open_ := some ebeFrame })
def ebeHalf : State := State.reset.setEbe 0 { ebeCtxReset with running := true, ring := (256, 8), open_ := some { ebeFrame with complete := false } }
def ebeArmed : State := ebeRuns.setReg (Adr.EBE.REC_STAT 0) 1
def ebeRecords : State := ebeHalf.setReg (Adr.EBE.REC_STAT 0) 2
def ebeLate : State := (ebeRuns.setReg (Adr.EBE.REC_AT_COUNT 0) 4).setGrp 0 { sfeGroupReset with cnt := 5 }
def ebeTiny : State := State.reset.setEbe 0 { ebeCtxReset with running := true, geometry := some (4, 16, strideOf (cwOf 0) (State.reset.ratio2 0) (tilesX 4 * tilesY 16)) }
def ebeAhead : State := (ebeRuns.setReg (Adr.EBE.REC_AT_COUNT 0) 9).setGrp 0 { sfeGroupReset with cnt := 5 }
def tableNone : State := State.reset.setReg Adr.ORL.TBL_SEL 7
def plays : State := { State.reset with ebd := some { cfg := [(Adr.EBD.COUNT, 1)], n := 0, base := 0 } }
def played : State := { State.reset with ebd := some { cfg := [(Adr.EBD.COUNT, 1)], n := 1, base := 0 } }
def mayPlay : State := withFlow (on State.reset 0x15) 0x150 []
def org : OrgFrame :=
  { serial := 1, record := { frameRecReset with count := 0xFFFFFFFF }, width := 4, height := 2, cfa := 0, cfg := [], rows := [], out := [], complete := true,
    ended := false }
def orgDone : State := State.reset.setOrg 0 { running := true, frame := some org, serial := 1 }
def orgEnded : State := State.reset.setOrg 1 { running := true, frame := some { org with ended := true }, serial := 1 }
def loads : State := trained { State.reset with load := some { id := 0, copy := 0, unit := 16 } }
def start : ViewStart :=
  { serial := none, source := 0x10, record := { frameRecReset with count := 5, tags := 1, sof := 9 }, rows := [(noFlags, [(1, 2, 3)])], whole := true, buffer := none }
def paced : State :=
  at' { (State.reset.setReg (Adr.VW.SRC_CFG 0) 0x10).setView 0 { viewReset with running := true, paced := true } with newest := [(0x10, buf)] } 50000000
def viewStarts : State := State.reset.setView 0 { viewReset with running := true, starts := [start] }
def viewFull : State :=
  { viewStarts with bufHolds := (List.range 4).map (fun i => { source := viewSource 0, reader := 0x290, index := i }) }
def viewEnds : State := State.reset.setView 0 { viewReset with running := true, frame := some { start := start, cfg := [], target := some 1 }, seq := 0xFFFFFFFF }
def parterre : State := on (withFlow State.reset 0x1A0 []) 0x1A
def parterreRuns : State := { parterre with parterre := { State.reset.parterre with running := true } }
def viewPart : State := State.reset.setView 0 { viewReset with running := true, frame := some { start := { start with whole := false }, cfg := [], target := some 1 } }
def armedTrained : State := trained armedInt

end Raw

/-! ### Witness states: tables, views, sessions, pictures -/

namespace Pic

/-- A session's ring as it read it. -/
def ringed (s : State) : State := s.setSes 0 { s.ses 0 with ring := (16, 1) }
def glsGood : State :=
  { put (withFlow (on State.reset 0x29) 0x290 [(0x11, 1)]) [(Adr.GLS.SES_CFG 0, 0x11), (Adr.GLS.RC_CFG 0, 0x1A00), (Adr.GLS.PROFILE_LEVEL 0, 0x5D01)] with
    glass := { State.reset.glass with pool := [(0, { poolReset with assigned := true }), (1, { poolReset with assigned := true, mark := 1 })] } }
def glsBad : State := put (on State.reset 0x29) [(Adr.GLS.SES_CFG 0, 0x11)]
def pic : Picture :=
  { slot := 0, deadline := 1000, source := none, ringAt := 0, length := 0, cfg := [], waiting := [0], running := [], target := none, kind := 0, newParams := false, qp := 0, refs := [], bad := [] }
def glsRuns : State := glsGood.setSesState 0 1
def glsPaced : State := { put glsRuns [(Adr.GLS.PACE_NUM 0, 25), (Adr.GLS.PACE_DEN 0, 1)] with
  newest := [(viewSource 0, { buf with fmt := 3, width := 3840, height := 2160 })] }
def glsMismatch : State := { glsPaced with newest := [(viewSource 0, { buf with fmt := 1, width := 3840, height := 2160 })] }
def pics (s : State) (l : List Picture) : State := s.setSes 0 { s.ses 0 with pics := l }
def glsReady : State := pics glsRuns [{ pic with source := some (0, buf), cfg := glsRuns.regs.page 0x29 }]
def glsReady2 : State := pics glsRuns [{ pic with target := some 1, waiting := [0, 1] }]
def glsFull : State := (pics glsRuns [pic]).setPool 0 { poolReset with assigned := true, mark := 2 }
def glsLate : State := at' glsReady 5000
def glsItem : State := (pics glsRuns [{ pic with target := some 1, waiting := [1], running := [0] }]).setReg (Adr.GLC.ENG_SES 0) 0x100
def glsItemLast : State :=
  ringed ((pics (put (trained glsRuns) [(Adr.GLS.RING_UNITS 0, 1), (Adr.GLS.RING_UNIT 0, 16)]) [{ pic with target := some 0, waiting := [], running := [0], source := some (0, buf), cfg := glsRuns.regs.page 0x29 }]).setReg (Adr.GLC.ENG_SES 0) 0x100)
def glsStalls : State := glsRuns.setSes 0 { sessionReset with stalled := [{ bytes := [1, 2, 3], engine := 0, ring := (16, 1) }] }
def glsResumes : State := ringed <| put (trained glsStalls) [(Adr.GLS.RING_UNITS 0, 1), (Adr.GLS.RING_UNIT 0, 16)]
def gdRuns : State := put glsGood [(Adr.GLS.SES_CFG 0, 0x13), (Adr.GLS.SES_STAT 0, 1)]
def gdIdle : State := put glsGood [(Adr.GLS.SES_CFG 0, 0x13)]
def gdRing : State := ringed <| (put (trained gdRuns) [(Adr.GLS.RING_UNITS 0, 1), (Adr.GLS.RING_UNIT 0, 16)]).store 0x10000 [0x47, 0x4C, 0x41, 0x55, 7, 0, 0, 0]
def info : StreamInfo :=
  { profile := 1, level := 93, chroma := 0, depth := 8, width := 64, height := 64, field := false, range := 0, colorimetry := 0, tf := 0, refs := 1, reorder := 0, dpb := 1 }
def outPic : OutPicture := { buffer := 1, tags := 5, order := (1, 0), info := info }
def gdOut : State := ((trained gdRuns).setReg (Adr.GLS.PACE_NUM 0) 0).setSes 0 { sessionReset with outQueue := [outPic] }
def poolMarked : State := glsRuns.setPool 1 { poolReset with assigned := true, mark := 1, outputPending := true }
def gdKeeps : State := gdOut.setSes 0 { sessionReset with outQueue := [{ outPic with info := { info with reorder := 1, dpb := 16 } }] }
def glsRingFull : State := ringed <| put (trained glsStalls) [(Adr.GLS.RING_UNITS 0, 1), (Adr.GLS.RING_UNIT 0, 16), (Adr.GLS.WR_PTR 0, 4064)]

end Pic

/-! ### Witness states: member drives, volumes, channels -/

namespace Ses

def cmd (u : MemberUse) : MemberCmd := { cid := 3, op := .write true, nsid := 1, blocks := [{ unit := some 7, data := [] }], addr := 0, bytes := 4096, retries := 0, failed := false, purpose := u }
def memInit : State := (put State.reset [(Adr.BTM.MEM_STAT 0, 1)]).setMember 0 { memberReset with cmds := [{ cmd .init with op := .identifyController }] }
def memInit2 : State := (put State.reset [(Adr.BTM.MEM_STAT 0, 1)]).setMember 0 { memberReset with cmds := [{ cmd .init with op := .identifyNamespace }] }
def memInit3 : State := (put State.reset [(Adr.BTM.MEM_STAT 0, 1)]).setMember 0 { memberReset with cmds := [{ cmd .init with op := .createSq 16 }] }
def memDone : State := (put State.reset [(Adr.BTM.MEM_STAT 0, 1)]).setMember 0 { memberReset with stage := .done, formatOk := true, capacity := 2 ^ 30 }
def memSmall : State := (put State.reset [(Adr.BTM.MEM_STAT 0, 1)]).setMember 0 { memberReset with stage := .done, formatOk := true, mdts := 4096 }
def memStepBad : State := (put State.reset [(Adr.BTM.MEM_STAT 0, 1)]).setMember 0 { memberReset with stage := .failed }
def memBadBusy : State := (put State.reset [(Adr.BTM.MEM_STAT 0, 3)]).setMember 0 { memberReset with cmds := [cmd .fetch] }
def memUp : State := trained ((put State.reset [(Adr.BTM.MEM_STAT 0, 2), (Adr.BTM.RETRY 0, 2)]).setMember 0 { memberReset with capacity := 2 ^ 40, cmds := [cmd .fetch] })
def memRead : State := memUp.setMember 0 { memberReset with cmds := [{ cmd .fetch with op := .read }] }
def memBad : State := put State.reset [(Adr.BTM.MEM_STAT 0, 3)]
def memGone : State := put State.reset [(Adr.BTM.MEM_STAT 0, 4), (Adr.BTM.MEM_CFG 0, 1)]
def volGood : State := put memUp [(Adr.BTH.EXT_STRIPES 0, 1000), (Adr.BTH.VOL_CFG 0, 0x40100)]
def volConfigBad : State := put memUp [(Adr.BTH.EXT_STRIPES 0, 0), (Adr.BTH.VOL_CFG 0, 0x40100)]
def volLabel : State := volGood.setVolWait 0 .label
def volClosed : State := volGood.setVolState 0 1
def hostWrite : NvmeCmd := { opcode := 1, cid := 0, nsid := 1, prp1 := 0, cdw10 := 0, cdw11 := 0, cdw12 := 0, data := [] }
def volWrites : State := { volClosed with ofc := { ofcReset with cmds := [{ tag := 5, sq := 1, cmd := hostWrite, issued := true, refused := none, units := [] }] } }
def volBad : State := volGood.setVolState 0 5
def volOpen : State := volGood.setVolState 0 3
def volFormats : State := (volGood.setVolState 0 2).setVolWait 0 .format
def volOpens : State := (volGood.setVolState 0 2).setVolWait 0 .open
def rec_ (type : Nat) : JournalRec :=
  { type := type, takeId := 2, kind := 0, src := 0, channel := 0, flags := 0, epoch := 0, stripe := 9, stride := 3, first := 4, last := 7, bytes := 3000000,
    sof := 77, reason := 0, gapFirst := 0, gapCount := 0, prevVol := 0, prevTake := 0, header := [] }
def ended : List (List Byte) := [volOpens.journalBytes 0 4 (rec_ 1), volOpens.journalBytes 0 5 (rec_ 3)]
def openTake : List (List Byte) := [volOpens.journalBytes 0 5 (rec_ 1)]
def take : Take :=
  { vol := 0, id := 6, stripe := 9, stride := 3, first := some 4, last := none, lastSof := 0, bytes := 0, taken := 4096, next := some 5, isolated := false,
    continuation := false, prevVol := 0, prevTake := 0, startSeq := some 2, awaitIdr := false, epoch := none, tail := [], geomEnd := false }
def item (k : Nat) : ChanItem := { key := k, units := [40], bytes := 4096, sof := 0, isolated := false, header := [], ringStart := 0, ringEnd := 64, pass := false }
def chans (st : Nat) (x : Chan) : State := ((volOpen.setCh 0 st 0).setRecChan 0 x).setReg (Adr.BTH.CH_CFG 0) 1
def chRecords : State := chans 1 { chanReset with take := some take, items := [item 4, item 5] }
def chDrained : State := chans 2 { chanReset with take := some take }
def chHalted : State := chans 3 { chanReset with take := some take, items := [item 4], held := [item 5] }
def chHaltedBare : State := withFlow (chans 3 { chanReset with take := some take }) 0x301 [(0x17, 1), (0x18, 1), (0x19, 1), (0x1A, 1), (0x1B, 1)]
def codec : State := put (withFlow (on volOpen 0x30) 0x301 [(0x1B, 1)]) [(Adr.BTH.CH_CFG 0, 3)]
def codecClosed : State := codec.setVolState 0 1
def codecRefused : State := put (on volOpen 0x30) [(Adr.BTH.CH_CFG 0, 3)]
def codecRuns : State := (codec.setCh 0 1 0).setRecChan 0 { chanReset with take := some take, items := [item 4] }
def fetchRuns : State := { volOpen.setReg Adr.BTH.FETCH_STAT 1 with bth := { volOpen.bth with fetch := some { vol := 0, ofs := 0, dst := 16, units := 1, flow := none, issued := true } } }
def codecPass : State := put ((codec.setCh 0 2 0).setRecChan 0 { chanReset with take := some take, items := [{ item 4 with pass := true }] }) []
def memQueues : State := (put (trained State.reset) [(Adr.BTM.MEM_STAT 0, 1)]).setMember 0 { memberReset with cmds := [{ cmd .init with op := .setQueues 1 }] }
def tail (kind : Nat) : JournalTail :=
  { seq := 6, takeId := 2, hasEnd := false, takeStripe := 9, strideUnits := 3, first := 4, last := 7, bytes := 0, kind := kind, src := 0, channel := 0, flags := 0, prevVol := 0, prevTake := 0, sof := 77, recordSof := 77 }
def record : List Byte := leBytes 4 0x55414C47 ++ leBytes 4 100 ++ leBytes 4 0 ++ leBytes 4 8 ++ leBytes 8 78 ++ List.replicate 4072 0
def volScans : State := (volGood.setVolState 0 2).setVolWait 0 (.forward (tail 1))
def fetchHeld : State := { volOpen.setReg Adr.BTH.FETCH_STAT 1 with bth := { volOpen.bth with fetch := some { vol := 0, ofs := 0, dst := 16, units := 1, flow := none, issued := false } } }

end Ses

/-! ### Witness states: the host controller -/

namespace Bth

open Ses
def sq (cq size head tail : Nat) : SubQueue := { cq := cq, size := size, base := 0, qprio := 0, head := head, tail := tail, frozen := false, wait := 0 }
def cq (size : Nat) : CplQueue := { size := size, base := 0, head := 0, tail := 0, phase := true, vector := some 3 }
def nvme (op c10 c11 c12 nsid : Nat) : NvmeCmd := { opcode := op, cid := 3, nsid := nsid, prp1 := 0x1000, cdw10 := c10, cdw11 := c11, cdw12 := c12, data := List.replicate 4096 9 }
def host (sq : Nat) (c : NvmeCmd) : HostCmd := { tag := 40 + sq, sq := sq, cmd := c, issued := false, refused := none, units := [] }
def ofc (l : List HostCmd) : State :=
  { volClosed.setReg Adr.OFC.STAGE_UNITS 256 with ofc := { ofcReset with enabled := true, ready := true, sqs := [(0, sq 0 16 0 0), (1, sq 1 16 2 5)], cqs := [(0, cq 16), (1, cq 16)], cmds := l } }
def ofcOff : State := withFlow State.reset 0x340 []
def ofcRuns : State := ofc []
def ofcIdle : State := { ofc [] with elapsed := 5000000, ofc := { (ofc []).ofc with sqs := [(0, sq 0 16 0 0)], features := [(0x0C, 1)], apst := leBytes 8 (2 * 8 + 1 * 256) } }
def ofcShuts : State := { ofcRuns with ofc := { ofcRuns.ofc with shst := 1 } }
def hostUnknown : State := ofc [host 1 (nvme 0x77 0 0 0 1)]
def hostFlushWild : State := { ofc [host 1 (nvme 0 0 0 0 1)] with ofc := { (ofc [host 1 (nvme 0 0 0 0 1)]).ofc with sqs := [(2, sq 1 16 2 5), (1, sq 1 8 0 0), (1, sq 1 8 0 0)], cqs := [(1, cq 16), (1, cq 2), (0, cq 0)] } }
def hostReads : State := ofc [host 1 (nvme 2 4 0 0 1)]
def hostWritesOne : State := ofc [host 1 (nvme 1 4 0 0 1)]
def lost (s : State) : State := s.setReg (Adr.BTM.MEM_STAT 0) 3
def hostReadsLost : State := lost hostReads
def hostWritesLost : State := lost hostWritesOne
def refuse (s : State) : State := { s with ofc := { s.ofc with cmds := s.ofc.cmds.map (fun c => { c with refused := some (lbaOutOfRange 1) }) } }
def hostReadsRefused : State := refuse hostReads
def hostWritesRefused : State := refuse hostWritesOne
def issue (s : State) : State := { s with ofc := { s.ofc with cmds := s.ofc.cmds.map (fun c => { c with issued := true, units := [64] }) } }
def hostReadIssued : State := (issue hostReads).setMember 0 memberReset
def hostWriteIssued : State := (issue hostWritesOne).setMember 0 memberReset
def hostWaits : State := hostReadIssued.setMember 0 { memberReset with cmds := [cmd (.host 1 41)] }
def hostFlush : State := ofc [host 1 (nvme 0 0 0 0 1)]
def hostTrim : State := ofc [host 1 (nvme 9 0 0 0 1)]
def hostTrimRange : State := ofc [host 1 (nvme 9 0 4 0 1)]
def admin (op c10 c11 nsid : Nat) : State := ofc [host 0 (nvme op c10 c11 0 nsid)]
def mkSq : State := admin 1 (2 + 15 * 2 ^ 16) (1 + 2 ^ 16) 0
def mkSqAgain : State := admin 1 (1 + 15 * 2 ^ 16) (1 + 2 ^ 16) 0
def mkCq : State := admin 5 (2 + 15 * 2 ^ 16) 3 0
def mkCqAgain : State := admin 5 (1 + 15 * 2 ^ 16) 3 0
def delSq : State := ofc [host 0 (nvme 0 1 0 0 0), host 1 { nvme 2 4 0 0 1 with cid := 9 }]
def delSqNone : State := admin 0 7 0 0
def delSqDone : State := { delSqNone with ofc := { delSqNone.ofc with deleting := [{ cid := 3, sq := 7, tags := [9] }] } }
def delCq : State := { admin 4 1 0 0 with ofc := { (admin 4 1 0 0).ofc with sqs := [(0, sq 0 16 0 0)] } }
def delCqUsed : State := admin 4 1 0 0
def logVendor : State := admin 2 (0xC0 + 15 * 2 ^ 16) 0 0
def logNone : State := admin 2 5 0 0
def identNs : State := { admin 6 0 0 1 with gth := [] }
def identGranted : State := (admin 6 0 0 1).setReg Adr.GTH.ADM_MID 0x20
def featSet : State := admin 9 1 4 0
def featGet : State := admin 10 8 0 0
def resumeQ : State := { admin 0xC1 1 0 0 with ofc := { (admin 0xC1 1 0 0).ofc with sqs := [(0, sq 0 16 0 0), (1, { sq 1 16 2 5 with frozen := true })] } }
def resumeRuns : State := admin 0xC1 1 0 0
def resumeNone : State := admin 0xC1 7 0 0
def hostFailed : State := hostReadIssued.setMember 0 { memberReset with cmds := [{ cmd (.host 1 41) with failed := true, addr := 64 }] }
def hostMetered : State := { withFlow hostReadIssued 0x340 [(0x11, 1)] with ofc := { hostReadIssued.ofc with flows := [(1, 256)] } }
def flushRefused : State := refuse hostFlush
def featQueues : State := { admin 9 7 4 0 with ofc := { (admin 9 7 4 0).ofc with queueMade := true } }
def volOpen0 : State := (ofc []).setVolState 0 3

end Bth

/-! ### Witness states: SDI and panel outputs -/

namespace Ofc

def sdi (x : Sdi) : State := (put State.reset [(Adr.SDI.FMT 0, 0), (Adr.SDI.CFG 0, 0), (Adr.SDI.SRC 0, 0x100)]).setSdi 0 x
def sdiBuf : BufFrame := { buf with fmt := 2, depth := 0, width := 1920, height := 1080, pitch := 4864 }
def sdiOut : State := sdi { sdiReset with running := true, output := true, blackLeft := 3 }
def sdiLock : State := at' ((sdi { sdiReset with running := true, output := true, blackLeft := 3 }).setReg (Adr.SDI.CFG 0) 16) 60000000
def sdiPassed : State := (sdi { sdiReset with running := true, output := true, blackLeft := 3, point := 1000000000000 }).setReg (Adr.SDI.CFG 0) 16
def sdiHolds : State := { sdi { sdiReset with frame := some { fmt := 0, source := some (3, 1), ends := 0 } } with bufHolds := [{ source := 3, reader := 0x380, index := 1 }] }
def sdiShows : State :=
  { trained ((sdi { sdiReset with running := true, output := true }).setView 0 { viewReset with running := true, fresh := true }) with newest := [(viewSource 0, sdiBuf)] }
def sdiMismatch : State := { sdiShows with newest := [(viewSource 0, { sdiBuf with fmt := 0 })] }
def sdiFrame : SdiFrame :=
  { age := 77, raster := 0, rate := 0, link := 0, words := 0, linesPerFrame := 1125,
    pid := some { link := 0, rate := 0, sampling := 0, depth12 := false, colorimetry := 0, tf := some 0, range := 0 }, pidBytes := 0, rows := [[5, 6]],
    crcErrors := 2, skew := [], audio := [] }
def sdiFull1080 : SdiFrame := { sdiFrame with rows := List.replicate 1080 [] }
def sdiIn : State := trained ((sdi { sdiReset with running := true }).setReg (Adr.SDI.CFG 0) 4)
def sdiAdopted : State := (sdi { sdiReset with running := true, adopted := some 0, count := 8, seq := 9 }).setReg (Adr.SDI.CFG 0) 4
def sdiFull : State := { sdiAdopted with bufHolds := (List.range 4).map (fun i => { source := sdiSource 0, reader := 0x290, index := i }) }
def blv (link : Nat) (x : Blv) : State :=
  (put State.reset [(Adr.BLV.LINK_CFG 0, link), (Adr.BLV.ACT 0, 4 + 2 * 65536), (Adr.BLV.VFP 0, 0)]).setBlv 0 x
def blvVideo : State := blv 0x21 { blvReset with running := true }
def blvCmd : State := blv 0x11 { blvReset with running := true }
def blvTe : State := blv 0x111 { blvReset with running := true, applied := true }
def blvSends : State := at' (blv 0x21 { blvReset with running := true, sending := true, porchOver := false }) 60000000
def blvSendsCmd : State := blv 0x11 { blvReset with running := true, sending := true, porchOver := false, cfg := (blv 0x11 blvReset).regs.page 0x3C }
def blvSendsPacket : State := blvSendsCmd.setBlv 0 { blvSendsCmd.blvOf 0 with packet := some (5, false, [1, 2]) }
def blvSendsHeld : State := { blvSendsCmd.setBlv 0 { blvSendsCmd.blvOf 0 with held := [(0, 1)] } with bufHolds := [{ source := viewSource 0, reader := 0x3C0, index := 1 }] }
def blvFast : State := (withFlow blvSends 0x3C0 [(0x11, 1)]).setReg Adr.TRL.SPEED 0x100
def blvBusy : State := (blv 0x21 { blvReset with running := true, reading := true, tx := [1, 2, 3, 4] }).setReg (Adr.BLV.CMD_STAT 0) 1
def sdiEnds : State :=
  { sdi { sdiReset with running := true, output := true, start := 1000000, frame := some { fmt := 0, source := some (3, 1), ends := 0 } } with bufHolds := [{ source := 3, reader := 0x380, index := 1 }] }
def sdiInPlain : State := sdi { sdiReset with running := true, cfg := (sdi sdiReset).regs.page 0x38 }

end Ofc

/-! ### Witness states: time and references -/

namespace Clk

def stepWaits (p : Step) : State := { (State.reset.setReg Adr.SUN0.STEP_STAT 1) with sun := { State.reset.sun with step := some p }, time := { sec := 5, ns := 7, frac := 3 } }
def stepValue : State := stepWaits (.value 1000)
def stepBack : State := stepWaits (.value (-1000000000000))
def stepSet : State := stepWaits (.set 12 34)
def stepBad : State := stepWaits (.set 12 1000000000)
def stepNone : State := stepWaits .measured
def stepRef : State := ((stepWaits .measured).setReg Adr.SUN0.SRV_STAT 0x20).setRef 2 { sunRefReset with e := some (-5000) }
def ref (r st : Nat) (x : SunRef) : State := (State.reset.setReg (Adr.SUN1.REF_STAT (r - 1)) st).setRef r x
def refAbsent : State := ref 2 1 sunRefReset
def refAbsentPtp : State := ref 1 1 sunRefReset
def refQualifies : State := ref 2 2 { sunRefReset with e := some 4, firstE := some (100, 10), lastE := some (300, 15625010), count := 4, within := 2 }
def tcLtc : State := put State.reset [(Adr.SUN0.TC_CFG, 0x21)]
def tcLtcIn : State := { tcLtc with sun := { State.reset.sun with ltcIn := some (plainLabel 25 (4000 * 25 + 7)) } }
def tcFree : State := { (put State.reset [(Adr.SUN0.TC_CFG, 2)]) with sun := { State.reset.sun with tcSet := some 0x01020304 } }
def sunOut : State := put (on State.reset 8) [(Adr.SUN0.TC_CFG, 0x200), (Adr.SUN0.FP_CFG 0, 0x501)]
def sunDone : State := { sunOut with sun := { sunOut.sun with ltcPoint := some 0, pulses := [(0, 0), (1, 0)] } }
def late (s : State) : State := { s with elapsed := 100000000000 }
def refQualifiesLate : State := late refQualifies
def tcLabels : State := { tcLtc with sun := { tcLtc.sun with labels := [(5, (77, false))] } }

end Clk

/-! ### Witness states: Ethernet, ST 2110, audio -/

namespace Net

def eth : State :=
  { (put State.reset [(Adr.ETH.LINK_STAT 0, 1), (Adr.ETH.LINK_STAT 1, 1), (Adr.ETH0.MAC_LO, 0x33445566), (Adr.ETH0.MAC_HI, 0x0011)]) with
    net := { State.reset.net with running := [0, 1] } }
def ethRing : State := put (trained eth) [(Adr.ETH0.CTL_RX_UNIT, 16), (Adr.ETH0.CTL_RX_SLOTS, 4)]
def ethFrame (dst typ : Nat) : EthFrame :=
  { bytes := beBytes 6 dst ++ beBytes 6 0x0A0B0C0D0E0F ++ beBytes 2 typ ++ List.replicate 60 0, fcsOk := true, age := 1000000, egressDelay := 2000000 }
def ethSync : EthFrame := { ethFrame 0x011B19000000 0x88F7 with bytes := beBytes 6 0x011B19000000 ++ beBytes 6 1 ++ beBytes 2 0x88F7 ++ [0, 2] ++ List.replicate 44 0 }
def sender (x : Sender) : State := (put State.reset [(Adr.IPS.SND_CFG 0, 0x13), (Adr.IPS.MEDIA 0, 0x20000)]).setSender 0 x
def sndRuns : State := { sender { senderReset with running := true } with time := { sec := 3, ns := 500, frac := 0 } }
def sndFrame : SenderFrame := { slot := 1000, timestamp := 9, packets := 3, next := 0, late := false, held := none, cfg := sndRuns.regs.page 0x0C, bodies := [] }
def sndTwo : State := sender { running := true, seq := 65535, frames := [sndFrame, sndFrame] }
def sndLast : State := sender { running := true, seq := 7, frames := [{ sndFrame with next := 2 }] }
def rcv (cfg : Nat) (x : Receiver) : State := let s := put State.reset [(Adr.IPR.RCV_CFG 0, cfg)]
  { s with net := { s.net with receivers := SMap.set (fun _ => receiverReset) s.net.receivers 0 x } }
def rcvAudio : State := rcv 0x13 { receiverReset with running := true, lost := true }
def rcvBoth : State := rcv 0x33 { receiverReset with running := true, top := some 5, seen := [5, 4] }
def rtp (n : Nat) : RtpPacket := { seq := n, timestamp := 100, marker := false, age := 0, src := 0, dst := 0, udp := 0, body := .audio 2 [1, 2] }
def sndDue : State := { sndTwo with time := { sec := 0, ns := 1010, frac := 0 } }
def sndLastDue : State := { sndLast with time := { sec := 0, ns := 641010, frac := 0 } }
def rcvFrame : State := rcv 0x33 { receiverReset with running := true, top := some 5, seen := [5, 4], frame := some { timestamp := 90, target := none, sof := 0, firstSeq := 4, received := 1, err := none, cfg := rcvBoth.regs } }
def bnd (cfg : Nat) (x : Bnd) : State := (put State.reset [(Adr.BND.PORT_CFG 0, cfg)]).setBnd 0 { x with running := true }
def bndOut : State := bnd 0x103 { bndReset with cfg := 0x103 }
def bndNext : State := bnd 0x103 { bndReset with cfg := 0x103, k := some 4 }
def bndPair : State := (bnd 0x101 { bndReset with cfg := 0x101, nonpcm := [(2, 65535)] }).setReg (Adr.BND.NONPCM 0) 4
def ethNow : EthFrame := { ethFrame 0x010000000005 0x0801 with egressDelay := 0 }
def ethBusy : State := { eth with net := { eth.net with lineBusy := [(0, 1000), (1, 1000)] } }
def ethIp : EthFrame := { ethFrame 0x010000000005 0x0800 with bytes := beBytes 6 0x010000000005 ++ beBytes 6 7 ++ beBytes 2 0x0800 ++ [0x45, 0xB8] ++ List.replicate 58 0 }
def ethDscp : State := put eth [(Adr.ETH0.HP_DSCP_LO, 0), (Adr.ETH0.HP_DSCP_HI, 0xFFFFFFFF)]
def ethSlot (flags : Nat) : State :=
  (put (trained eth) [(Adr.ETH0.CTL_TX_UNIT, 16), (Adr.ETH0.CTL_TX_SLOTS, 4)]).store 0x10000 (leBytes 2 64 ++ leBytes 2 flags ++ List.replicate 40 1)
def ethTxPlain : State := ethSlot 8
def ethTxDown : State := { ethSlot 8 with net := State.reset.net }
def ethQueued : State := { eth with net := { eth.net with egress := [{ port := 1, cls := 3, ready := 0, bytes := [1, 2], fcsOk := true, source := .control 0 0 true }] } }
def rcvGroup : State := put (rcv 0x33 { receiverReset with running := true, lost := true }) [(Adr.IPR.GROUP_A 0, 5), (Adr.IPR.GROUP_B 0, 5), (Adr.ETH0.IP_ADDR, 5), (Adr.IPR.UDP_DST 0, 0), (Adr.IPR.SRC_FILTER 0, 0)]
def bndStops : State := bnd 0x103 { bndReset with cfg := 0x103, stopping := true }
def bndLocks : State := at' (bnd 0x20000107 { bndReset with cfg := 0x20000107 }) 10000
def bndMclk : State := (bnd 0x307 { bndReset with cfg := 0x307 }).setReg (Adr.BND.MCLK_CFG 0) 3
def sndGroup : SenderFrame := { sndFrame with cfg := (put State.reset [(Adr.IPS.SND_CFG 0, 0x13), (Adr.IPS.DST_IP_A 0, 0xE0000005)]).regs.page 0x0C }
def sndUp : State := { eth with net := { eth.net with senders := sndTwo.net.senders } }
def rcvLate : State := { rcvAudio with elapsed := 10000000000 }

end Net

/-! ### Witness states: memory channels, Arbour, Dovecote -/

namespace Mem

def mch (c : McChan) : State := State.reset.setChan 5 c
def mcReady : McChan := { mcChanReset with ready := true }
def ent (a : Nat) : McEntry := { addr := a, beats := 1, metered := true, entered := 0 }
def mcDebt : State := mch { mcReady with debt := 8, readQ := [ent 0x500] }
def mcRepay : State := at' (mch { mcReady with debt := 7, repay := true, paid := 7 }) 5000
def mcUrgent : State := at' (mch { mcReady with writeQ := [ent 0x500, ent 0x1500] }) 5000
def mcRead : State := mch { mcReady with readQ := [ent 0x500] }
def mcBusy : State := put { State.reset with mem := { State.reset.mem with cfg := 0x1 } } [(Adr.MCT.TRAIN_STAT, 1)]
def mcDrift : State := (put State.reset [(Adr.MCT.TRAIN_STAT, 2), (Adr.MCT.RECENTRE_MS, 5)]).setLane 5 { laneReset with moved := 16 }
def lane (e : Nat) : DramLane := { eyeTaps := e, rdDly := 1, wrDly := 2, rdVref := 3, wrVref := 4 }
def goodLanes : List DramLane := List.replicate 32 (lane 12)
def badLanes : List DramLane := List.replicate 5 (lane 20) ++ [lane 11] ++ List.replicate 26 (lane 12)
def drifts (d : Int) : List Int := List.replicate 5 0 ++ [d] ++ List.replicate 26 1
def arbDesc0 (op src len dst dlen : Nat) : List Byte :=
  leBytes 4 (op + 0x200) ++ leBytes 4 len ++ leBytes 8 src ++ leBytes 8 dst ++ leBytes 4 dlen ++ leBytes 8 0
def arbOn (d : List Byte) : State := (on (put (trained State.reset) [(Adr.ARB.DESC_UNIT, 16), (Adr.ARB.DESC_SLOTS, 4), (Adr.ARB.SUB_IDX, 1)]) 0x4C).store 0x10000 d
def arbGood : State := arbOn (arbDesc0 0 0x20000 8 0x30000 16)
def arbBadD : State := arbOn (arbDesc0 2 0x20000 8 0x30000 16)
def arbNot : State := arbGood.setReg Adr.ARB.CHECK_MID 0x105
def arbStored : State := { arbGood.store 0x20000 [1, 2, 3, 4, 5, 6, 7, 8] with arb := some { slot := 0, addr := 0x10000, next := 1, desc := arbDesc0 0 0x20000 8 0x30000 16, early := none } }
def arbEarly : State := { arbGood with arb := some { slot := 3, addr := 0x100C0, next := 0, desc := [], early := some 0x0B } }
def arbInfl : State := { arbGood.store 0x20000 [1, 3, 0, 0xFC, 0xFF, 7, 8, 9] with arb := some { slot := 0, addr := 0x10000, next := 1, desc := arbDesc0 1 0x20000 8 0x30000 16, early := none } }
def dovSlot (cfg : Nat) : State := put State.reset [(Adr.DOV.SLOT_CFG 0, cfg), (Adr.DOV.SLOT_CFG 23, cfg), (Adr.DOV.CAL_STAT, 3)]
def dovTimer : State := dovSlot 1
def dovPwm : State := (dovSlot 0x10011).setPwm 1 { pwmReset with running := true }
def dovSw : State := dovSlot 0x23
def dov (s : State) (d : Dov) : State := { s with dov := d }
def dovFull : State := dov dovTimer { State.reset.dov with sums := [(3, (1000, 64))] }
def dovVolt : State := dov dovTimer { State.reset.dov with busy := [(1, .fixedVolt 3)] }
def dovCurr : State := dov dovTimer { State.reset.dov with busy := [(1, .fixedCurr 3)], sums := [(3, (1000, 10))] }
def dovConv : State := dov dovTimer { State.reset.dov with busy := [(1, .slot 8 77 true (-5) 32768 3 32768), (2, .slot 31 77 true (-5) 32768 3 32768)] }
def dovLent : State := dov dovTimer { State.reset.dov with borrowed := true }
def dovRot : State := dov dovTimer { State.reset.dov with calReady := true, roundsSince := 300, calOrder := [3, 1, 0, 2] }
def pwmOn : State := (State.reset.setReg (Adr.DOV.PWM_CFG 1) 1).setPwm 1 { pwmReset with running := true }
def core : State := { State.reset with pwr := { State.reset.pwr with enCore := true } }
def after' (s : State) (ns : Nat) : State := { s with elapsed := ns }
def timerDue : State := after' (put dovTimer [(Adr.DOV.PERIOD_US 0, 5), (Adr.DOV.PERIOD_US 23, 5)]) 6000
def timerMerges : State := { timerDue with dov := { timerDue.dov with waiting := [{ slot := 8, urgent := false }, { slot := 31, urgent := true }] } }
def pwmSoon : State := after' (put dovPwm [(Adr.DOV.DELAY 0, 50), (Adr.DOV.DELAY 23, 50)]) 20
def retires : State := dov State.reset { State.reset.dov with retiring := some 1 }
def lowPower : State := put retires [(Adr.DOV.ADC_CFG, 2)]
def pwmLoads : State := after' (put pwmOn [(Adr.DOV.PERIOD 1, 5000), (Adr.DOV.DUTY 1, 7)]) 150000
def pwmStops : State := after' (put pwmOn [(Adr.DOV.PWM_CFG 1, 0)]) 150000
def pwmLevel : State := after' (pwmOn.setPwm 1 { pwmReset with running := true, hiZ := false, duty := 100, pol := true }) 250
def entry : McEntry := { addr := 0x500, beats := 2, metered := false, entered := 3 }

end Mem

/-! ### Witness states: Falilan ports, channels, remote accesses -/

namespace Flk

def flk (cfg : List (Nat × Nat)) (x : Flk) : State := (put State.reset cfg).setFlk 1 x
def flkRun : State := flk [] { flkReset with running := true }
def flkUp : State := flk [(Adr.FLK.LINK_STAT 1, 0x1302)] { flkReset with running := true, exchange := some (1000, 2000, 3000) }
def flkRef : State := put flkUp [(Adr.HIE.ROLE_CFG, 5), (Adr.SUN1.REF_STAT 6, 1), (Adr.FLK.ASYM 1, 0xFFFFFFFF)]
def chan (cfg : Nat) (k : FlkChan) : State :=
  (put (trained flkUp) [(Adr.FLK.CH_CFG 1 2, cfg), (Adr.FLK.BUF_UNIT 1 2, 32), (Adr.FLK.BUF_STRIDE 1 2, 4), (Adr.FLK.NBUF 1 2, 2), (Adr.FLK.DESC_UNIT 1 2, 64)]).setFlkChan 1 2 { k with running := true }
def chView : State := { chan 1 { flkChanReset with last := some 2 } with newest := [(0x100, buf), (viewSource 0, buf)] }
def chFirst : State := { chan 1 flkChanReset with newest := [(viewSource 0, buf)] }
def open_ (s : State) : State := put { s with gth := [(0x100 * 32 + 0x4E / 16, 0xFFFFFFFF)] } [(Adr.GTH.WIN_BASE 0, 0), (Adr.GTH.WIN_LIMIT 0, 0xFFFFFF)]
def chRx : State := open_ (chan 3 { flkChanReset with seq := 9 })
def chRxHeld : State := { chRx with newest := [(0x20A, buf)], bufHolds := [{ source := 0x20A, reader := 0, index := 0 }] }
def chEbr : State := open_ (chan 7 { flkChanReset with ringUnit := 3 })
def chBorder : State := chan 0x10B flkChanReset
def dev (n : Nat) : State := put State.reset [(Adr.HIE.HIE_STAT, 0x1000 + 256 * n), (Adr.FLK.LINK_STAT 2, 0x1502)]
def dev3 : State := dev 3
def dev5 : State := dev 5
def dev5Iso : State := (dev 5).setReg Adr.HIE.HIE_STAT 0x1504
def dev5Grant : State := { dev 5 with gth := [(0x54 * 32 + 4, 0xFFFFFFFF)] }
def far (k : Nat) (w : Bool) : RemoteAccess := { origin := 3, target := 5, k := k, isWrite := w, page := 0x54, off := 0x48, value := 7 }
def self (k : Nat) (w : Bool) : RemoteAccess := { origin := 3, target := 3, k := k, isWrite := w, page := 0x54, off := 0x48, value := 7 }
def descRx : List Byte := leBytes 4 77 ++ [0, 0x10, 0, 0] ++ leBytes 8 0 ++ leBytes 2 4 ++ leBytes 2 2 ++ leBytes 4 256 ++ List.replicate 40 0
def descEbr : List Byte := List.replicate 64 0 ++ leBytes 4 2 ++ List.replicate 4028 0
def flkRefHb : State := flkRef.setFlk 1 { flkReset with running := true, exchange := some (1000, 2000, 3000), hbLast := some 5 }
def chEnds : State := { chan 1 { flkChanReset with last := some 3, hold := some (viewSource 0, 1) } with bufHolds := [{ source := viewSource 0, reader := chanUnitId 1 2, index := 1 }] }
def chDue : State := { chan 1 { flkChanReset with due := [buf] } with bufHolds := [{ source := viewSource 0, reader := chanUnitId 1 2, index := 1 }] }
def chHalf : State := { chBorder with links := { chBorder.links with borders := [{ count := 77, right := true, rows := [[1, 2]], ended := false }] } }
def chEdge : State := chan 9 { flkChanReset with border := some 5 }
def chBorderDown : State := put chBorder [(Adr.FLK.LINK_STAT 1, 0)]

end Flk

/-! ### Witness states: cascade, heartbeats, partitions -/

namespace Hie

def retry (n : Nat) : State := { State.reset with links := { State.reset.links with retries := n } }
def retry8 : State := retry 8
def hasId : State := put State.reset [(Adr.HIE.HIE_STAT, 0x1500)]
/-- A good configuration copy: header, 4 bytes of firmware, a list. -/
def copyOf (gen entry : Nat) (list : List (Nat × Nat)) : List Byte :=
  let body := [0x53, 0x48, 0x43, 0x46] ++ leBytes 2 1 ++ leBytes 2 0 ++ leBytes 4 gen ++ leBytes 4 (0x2C + 8 * list.length) ++ leBytes 4 0x24 ++ leBytes 4 4 ++
    leBytes 4 entry ++ leBytes 4 0x28 ++ leBytes 4 list.length ++ [1, 2, 3, 4] ++ list.flatMap (fun e => leBytes 4 e.1 ++ leBytes 4 e.2)
  body ++ leBytes 4 (crc32 body)
def copy5 : List Byte := copyOf 5 0x100 [(0x02040, 7), (0x1000000, 10)]
def waits : State := { State.reset with pwr := { State.reset.pwr with boot := .waitImage } }
def hup (l : List (Nat × Nat)) (x : Flk) : State := (put State.reset ([(Adr.FLK.LINK_STAT 1, 0x1302), (Adr.HIE.EPOCH, 9)] ++ l)).setFlk 1 x
def hbUp : State := hup [] { flkReset with hbLast := some 250 }
def hbMissed : State := hup [] { flkReset with hbLast := some 250, hbMissed := 3 }
def hbRole (hie : Nat) : State := { hup [(Adr.HIE.ROLE_CFG, 5), (Adr.HIE.HIE_STAT, 0x1000 + hie)] { flkReset with hbEpoch := 77 } with pwr := { State.reset.pwr with boot := .running } }
def hbManager : State := hbRole 2
def claim (saw : Bool) (low : Nat) : State :=
  { put State.reset [(Adr.HIE.HIE_STAT, 0x1000), (Adr.HIE.ALIVE_LOW, low)] with pwr := { State.reset.pwr with boot := .running }, links := { State.reset.links with sawAlive := saw } }
def claimSaw : State := claim true 0
def claim20 : State := claim false 20
def deputy (low : Nat) : State := { put State.reset [(Adr.HIE.HIE_STAT, 0x1004), (Adr.HIE.ROLE_CFG, 0x70), (Adr.HIE.ALIVE_LOW, low), (Adr.HIE.EPOCH, 0xFFFF)] with
  held := [{ page := 0x54, cause := 0x543, code := 0x20, event := false, unit := 0x543 }] }
def deputy16 : State := deputy 16
def hb (seq state epoch : Nat) : Heartbeat := { seq := seq, sender := 7, state := state, epoch := epoch }
def imaged : State := { hasId with pwr := { hasId.pwr with image := [1, 2, 3] } }
def hbManagerUp : State := hup [(Adr.HIE.ROLE_CFG, 5)] { flkReset with hbState := 2 }
def hbUnder (hie : Nat) : State := hup [(Adr.HIE.ROLE_CFG, 5), (Adr.HIE.HIE_STAT, 0x1000 + hie)] { flkReset with hbState := 2, hbEpoch := 77 }
def hbIsolatedUp : State := hbUnder 4
def hbRejoiningUp : State := hbUnder 5

end Hie

/-! ### Witness states: power, reset, boot, Summerhouse -/

namespace Pwr

def pw (st : PwrStage) : State := { State.reset with pwr := { State.reset.pwr with stage := st } }
def up3 : State := pw (.up 3)
def up4 : State := pw (.up 4)
def up5 : State := pw (.up 5)
def up5Low : State := { pw (.up 5) with pwr := { (pw (.up 5)).pwr with resetN := false } }
def up5Pg : State := put up5Low [(Adr.PMU.PWR_STAT, 15)]
def retryS : State := pw .retry
def dead : State := pw .dead
def serving : State := put (pw .on) [(Adr.PMU.PWR_STAT, 15), (Adr.PMU.VSEL, 0x13), (Adr.PMU.WDT_CFG, 0x80000001)]
def servingLow : State := serving.setReg Adr.PMU.VSEL 1
def epUp : State := { serving with pwr := { serving.pwr with epReady := true } }
def thermal : State := { pw .thermal with pwr := { (pw .thermal).pwr with aonRounds := 10743 } }
def thermalCool : State := (List.range 5).foldl (fun s n => s.setReg (Adr.ICE.FUSED_TEMP n) (84 * 65536)) thermal
def rom : State := { serving with pwr := { serving.pwr with boot := .rom } }
def romList (i : Nat) (l : List (Nat × Nat)) : State := { serving with pwr := { serving.pwr with boot := .list i, list := l } }
def listWrite : State := romList 0 [(0x44040, 7)]
def listDelay : State := romList 1 [(0x44040, 7), (0x1000000, 10)]
def listPoll1 : State := romList 0 [(0x2044040, 0)]
def listBad : State := romList 0 [(0x4044040, 0)]
def listEnd : State := { serving with pwr := { serving.pwr with boot := .listEnded, firmware := [1, 2], entry := 0x100, generation := 6, bootReports := [(0x061, 0x21)] } }
def running : State := { serving with pwr := { serving.pwr with boot := .running } }
def waits : State := { serving with pwr := { serving.pwr with boot := .waitImage } }
/-- A good configuration copy: header, 4 bytes of firmware, a list. -/
def copyOf (gen entry : Nat) (list : List (Nat × Nat)) : List Byte :=
  let body := [0x53, 0x48, 0x43, 0x46] ++ leBytes 2 1 ++ leBytes 2 0 ++ leBytes 4 gen ++ leBytes 4 (0x2C + 8 * list.length) ++ leBytes 4 0x24 ++ leBytes 4 4 ++
    leBytes 4 entry ++ leBytes 4 0x28 ++ leBytes 4 list.length ++ [1, 2, 3, 4] ++ list.flatMap (fun e => leBytes 4 e.1 ++ leBytes 4 e.2)
  body ++ leBytes 4 (crc32 body)
def copy5 : List Byte := copyOf 5 0x100 [(0x02040, 7), (0x1000000, 10)]
def copy6 : List Byte := copyOf 6 0x104 []
def copy5b : List Byte := copyOf 5 0x104 []
def waitsGood : State := { waits with pwr := { waits.pwr with bootBuf := SMap.setList bootBufDefault [] 0 copy5 } }
def entering : State := put serving [(Adr.PMU.SLEEP_STAT, 1), (Adr.PMU.WAKE_CFG, 3), (Adr.PMU.WARM_VALID, 1), (Adr.PMU.AON_TRIM, 9)]
def asleep : State := put { pw .sleep with dram := [(5, 7)] } [(Adr.PMU.WAKE_CFG, 3), (Adr.PMU.WARM_ENTRY, 0x70000)]
def waking (n : Nat) : State := { pw (.waking n) with dram := [(5, 7)], pwr := { (pw (.waking n)).pwr with savedLanes := [(3, { laneReset with rd := 9 })], savedCfg := 5 } }
def wk0 : State := waking 0
def wk1 : State := waking 1
def wk5 : State := waking 5
def wk6 : State := waking 6
def wk7 : State := put (waking 7) [(Adr.PMU.WARM_ENTRY, 0x70000)]
def wk3Pg : State := put (waking 3) [(Adr.PMU.PWR_STAT, 15)]
def up5Restores : State := { up5 with pwr := { up5.pwr with restoreWait := true } }
def powered : State := { serving with pwr := { serving.pwr with enIo := true, enCore := true, enHs := true, enVddq := true } }
/-- An SFDP area with one table of 9 dwords that lists 1-4-4, of 256 Mbit. -/
def sfdp : List Byte := [0x53, 0x46, 0x44, 0x50, 6, 1, 0, 0, 0, 6, 1, 9, 16, 0, 0, 0xFF] ++ leBytes 4 0x200000 ++ leBytes 4 0x0FFFFFFF ++ List.replicate 28 0
def read (b : List Byte) : BootRead := { sfdp := b, trim := 7 }

end Pwr

/-! ### The premises of the obligations -/

/-- States and operands that meet the premises of each clause of IdleLetsTimePass. -/
theorem witness_IdleLetsTimePass :
    (∃ (s : State) (g : Nat), s.pending = [] ∧ g ∈ s.scheduled ∧ s.updTime g = (idle s).now) ∧
    (∃ (s : State), s.pending = [] ∧ ClockDomain.sundial ∈ s.stopped) ∧
    (∃ (s : State), s.pending = [] ∧ s.net.egress = [] ∧ s.net.ctlOut = none ∧ Fld.ETH0.CTL_TX_RD s.regs = Fld.ETH0.CTL_TX_WR s.regs) :=
  ⟨⟨Ctl.schedSoon, 3, by decide +kernel, by decide +kernel, by decide +kernel⟩,
   ⟨Ctl.noTime, by decide +kernel⟩,
   ⟨State.reset, by decide +kernel⟩⟩

/-- States and operands that meet the premises of each clause of EveryWellFormedCommandAnswers. -/
theorem witness_EveryWellFormedCommandAnswers :
    (∃ c : Instr, c.wellFormed = true) ∧
    (∃ c : Instr, c.wellFormed = false) :=
  ⟨⟨.registerWrite 511 0 0xFFC 5, by decide⟩,
   ⟨.registerWrite 512 0 0xFFC 5, by decide⟩⟩

/-- States and operands that meet the premises of each clause of EveryStepSettlesInterrupts. -/
theorem witness_EveryStepSettlesInterrupts :
    ∃ s t : State, InterruptsSettled s ∧ step s = .next t :=
  ⟨{ State.reset with pending := [.cascadeMessageBad] }, _, by unfold InterruptsSettled; decide +kernel, rfl⟩

/-- States and operands that meet the premises of each clause of SerialComparison. -/
theorem witness_SerialComparison :
    (∃ (n a b d : Nat), 0 < n ∧ a < 2 ^ n ∧ b < 2 ^ n ∧ (d : Int) = ((a : Int) - b) % (2 ^ n : Nat) ∧ d = 0) ∧
    (∃ (n a b d : Nat), 0 < n ∧ a < 2 ^ n ∧ b < 2 ^ n ∧ (d : Int) = ((a : Int) - b) % (2 ^ n : Nat) ∧ 1 ≤ d ∧ d ≤ 2 ^ (n - 1) - 1) ∧
    (∃ (n a b d : Nat), 0 < n ∧ a < 2 ^ n ∧ b < 2 ^ n ∧ (d : Int) = ((a : Int) - b) % (2 ^ n : Nat) ∧ d = 2 ^ (n - 1)) ∧
    (∃ (n a b d : Nat), 0 < n ∧ a < 2 ^ n ∧ b < 2 ^ n ∧ (d : Int) = ((a : Int) - b) % (2 ^ n : Nat) ∧ 2 ^ (n - 1) + 1 ≤ d ∧ d ≤ 2 ^ n - 1) :=
  ⟨(by refine ⟨1, 0, 0, _, ?_, ?_, ?_, ?_, rfl⟩ <;> decide +kernel),
   ⟨8, 0, 255, 1, by decide +kernel⟩,
   (by refine ⟨1, 0, 1, _, ?_, ?_, ?_, ?_, rfl⟩ <;> decide +kernel),
   ⟨8, 0, 1, 255, by decide +kernel⟩⟩

/-- States and operands that meet the premises of each clause of RoundingTakesHalvesUp. -/
theorem witness_RoundingTakesHalvesUp :
    ∃ (k : Nat), 0 < k :=
  ⟨1, by decide +kernel⟩

/-- States and operands that meet the premises of each clause of ResetTables. -/
theorem witness_ResetTables :
    (∃ (page : _), page < 0x100) ∧
    (∃ (ns : _), ns < 16) ∧
    (∃ (target master : _), target < 0x130 ∧ master < 512 ∧ master ≠ 0x080 ∧ master ≠ 0x082) ∧
    (∃ q ns : Nat, 1 ≤ q ∧ q ≤ 512 ∧ ns < 16) ∧
    (∃ (s : State) (target word q : Nat), s.locked = false ∧ target = Fld.GTH.TBL_SEL_TARGET s.regs ∧ word = Fld.GTH.TBL_SEL_WORD s.regs ∧ q = Fld.GTH.QPB_SEL s.regs ∧ target < 0x130) ∧
    (∃ (s : State) (target word q : Nat), s.locked = false ∧ target = Fld.GTH.TBL_SEL_TARGET s.regs ∧ word = Fld.GTH.TBL_SEL_WORD s.regs ∧ q = Fld.GTH.QPB_SEL s.regs ∧ 1 ≤ q ∧ q ≤ 512) :=
  ⟨⟨0, by decide +kernel⟩,
   ⟨0, by decide +kernel⟩,
   ⟨0, 0, by decide +kernel⟩,
   ⟨512, 15, by decide, by decide, by decide⟩,
   ⟨State.reset, _, _, _, by decide +kernel, rfl, rfl, rfl, by decide +kernel⟩,
   ⟨State.reset, _, _, _, by decide +kernel, rfl, rfl, rfl, by decide +kernel⟩⟩

/-- States and operands that meet the premises of each clause of ResetState. -/
theorem witness_ResetState :
    ∃ (p : _), implemented p = true :=
  ⟨0, by decide +kernel⟩

/-- States and operands that meet the premises of each clause of PendingGroupsKeepTheirSettings. -/
theorem witness_PendingGroupsKeepTheirSettings :
    (∃ (s : State) (g : Fin 16), s.groupPending g = true) ∧
    (∃ (s : State) (g : Fin 16) (m : _), m < 0x40 ∧ s.groupPending g = true) ∧
    (∃ (s : State) (m : BitVec 16), ((∀ k, k < 16 → bitOf m.toNat k = true → s.groupPending k = true))) ∧
    (∃ (p : _), implemented p = true) :=
  ⟨⟨Ctl.pending3, 3, by decide +kernel⟩,
   ⟨Ctl.pending3, 3, 0, by decide +kernel⟩,
   ⟨State.reset, 0, by decide +kernel⟩,
   ⟨0, by decide +kernel⟩⟩

/-- States and operands that meet the premises of each clause of UpdateGroupsReachTheirApplyPoint. -/
theorem witness_UpdateGroupsReachTheirApplyPoint :
    (∃ (s : State) (g : Fin 16), s.groupPending g = true) ∧
    (∃ (s : State) (g : Fin 16), s.groupPending g = false ∧ s.updMode g = 0) ∧
    (∃ (s : State) (g : Fin 16), s.groupPending g = false ∧ (s.updMode g = 1 ∨ s.updMode g = 2 ∨ s.updMode g = 3)) ∧
    (∃ (s : State) (g : Fin 16), s.groupPending g = false ∧ s.updMode g = 4) ∧
    (∃ (page : _), page < 256) ∧
    (∃ (s : State) (g : Fin 16), s.groupPending g = false) ∧
    (∃ (s : State), ((∀ p ∈ s.boundPages s.due, p ∈ [0x00, 0x01, 0x02, 0x03, 0x04, 0x06, 0x11, 0x13, 0x19, 0x28, 0x2A, 0x30, 0x31, 0x34, 0x44, 0x45, 0x46, 0x47, 0x48, 0x54]))) :=
  ⟨⟨Ctl.pending3, 3, by decide +kernel⟩,
   ⟨State.reset, 3, by decide +kernel⟩,
   ⟨Ctl.modeStart, 3, by decide +kernel⟩,
   ⟨Ctl.sched, 3, by decide +kernel⟩,
   ⟨0x18, by decide +kernel⟩,
   ⟨State.reset, 3, by decide +kernel⟩,
   ⟨State.reset, by decide +kernel⟩⟩

/-- States and operands that meet the premises of each clause of KioskAndRestartCommands. -/
theorem witness_KioskAndRestartCommands :
    (∃ (page : Nat) (sel : _), page < 256 ∧ implemented page = true ∧ sel < 256) ∧
    (∃ (s : State) (b : Bank) (page : Nat), page < 256 ∧ implemented page = true ∧ (s.kioskOf b page).busy = true) ∧
    (∃ (s : State) (b : Bank) (page : Nat), page < 256 ∧ implemented page = true ∧ (s.kioskOf b page).busy = false) ∧
    (∃ (n : Fin 4) (a : RegAddr), (a = Adr.EBE.RING_FULL n ∨ a = Adr.EBE.WRITE_ERR n)) :=
  ⟨⟨0x18, 0, by decide +kernel⟩,
   ⟨Ctl.kiosk, .lodge, 0x18, by decide +kernel⟩,
   ⟨State.reset, .lodge, 0x18, by decide +kernel⟩,
   ⟨1, (Adr.EBE.RING_FULL 1), by decide +kernel⟩⟩

/-- States and operands that meet the premises of each clause of LockHoldsTheGatehouse. -/
theorem witness_LockHoldsTheGatehouse :
    ∃ (s : State) (master off : Nat), master < 512 ∧ off < 4096 ∧ off % 4 = 0 ∧ s.locked = true :=
  ⟨Ctl.lockedS, 1, 0x20, by decide +kernel⟩

/-- States and operands that meet the premises of each clause of FaultCollector. -/
theorem witness_FaultCollector :
    (∃ (s : State), s.reports = []) ∧
    (∃ (s : State) (r rest : _), s.reports = r :: rest) ∧
    (∃ (s : State) (r : Report) (n rec : _), s.records.find? (fun e => e.2.cause == r.cause) = some (n, rec)) ∧
    (∃ (s : State) (r : Report) (n : _), s.records.find? (fun e => e.2.cause == r.cause) = none ∧ freeSlot s.records = some n) ∧
    (∃ (s : State) (r : Report), s.records.find? (fun e => e.2.cause == r.cause) = none ∧ freeSlot s.records = none) ∧
    (∃ (s : State) (r : Report), s.records.find? (fun e => e.2.cause == r.cause) = none ∧ freeSlot s.records = none ∧ s.lost.contains r.cause = false) ∧
    (∃ (s : State) (n rec : _), s.records.find? (fun e => e.1 == Fld.LDG.FC_SLOT s.regs) = some (n, rec)) ∧
    (∃ (s : State), s.records.find? (fun e => e.1 == Fld.LDG.FC_SLOT s.regs) = none) :=
  ⟨⟨State.reset, by decide +kernel⟩,
   ⟨Ctl.reported, _, _, rfl⟩,
   ⟨Ctl.recorded, (Ctl.rep 0x041 0x041 9), _, _, rfl⟩,
   ⟨State.reset, (Ctl.rep 0x041 0x041 9), _, by decide +kernel, rfl⟩,
   ⟨Ctl.full, (Ctl.rep 0x041 0x041 9), by decide +kernel⟩,
   ⟨Ctl.full, (Ctl.rep 0x041 0x041 9), by decide +kernel⟩,
   ⟨Ctl.recorded, _, _, rfl⟩,
   ⟨State.reset, by decide +kernel⟩⟩

/-- States and operands that meet the premises of each clause of RegisterAndNarrowWrites. -/
theorem witness_RegisterAndNarrowWrites :
    (∃ (s : State) (master : Nat) (page off : _), master < 512 ∧ page < 256 ∧ off < 4096 ∧ off % 4 = 0 ∧ implemented page = false ∧ s.refusesRemote master page off = false) ∧
    (∃ (s : State) (master : Nat) (page off : _), master < 512 ∧ page < 256 ∧ off < 4096 ∧ off % 4 = 0 ∧ s.refusesRemote master page off = true) ∧
    (∃ (s : State) (master : Nat) (off : _), master < 512 ∧ 0x40 ≤ off ∧ off < 4096 ∧ off % 4 = 0 ∧ off ≠ 0xC8 ∧ s.refusesRemote master 0x04 off = false) ∧
    (∃ (s : State) (master : Nat) (v : Word) (page : _), master < 512 ∧ implemented page = true ∧ s.refusesRemote master page 0x008 = false ∧ s.pagePending page = true ∧ ((page ≠ 0x05 ∧ page ≠ 0x30) ∨ s.holding page = false ∨ bits v.toNat 1 1 = 1)) ∧
    (∃ (s : State) (master : Nat) (v : Word) (page : _) (u : State), master < 512 ∧ (page = 0x05 ∧ u = (s.setFld (Adr.HDR.PG_CTL 0x05) 1 1 0).feedSlices ∨ page = 0x30 ∧ u = (s.setFld (Adr.HDR.PG_CTL 0x30) 1 1 0).bthResume) ∧ s.refusesRemote master page 0x008 = false ∧ s.holding page = true ∧ bits v.toNat 1 1 = 0) ∧
    (∃ (s : State) (master : Nat) (page off : _), master < 512 ∧ ((∀ page off, s.refusesRemote master page off = false)) ∧ page < 256 ∧ off < 4096 ∧ off % 4 = 0 ∧ (implemented page = false ∨ off = 0x020)) ∧
    (∃ (s : State) (master : Nat), master < 512 ∧ ((∀ page off, s.refusesRemote master page off = false))) ∧
    (∃ (s : State) (master : Nat) (page : _), master < 512 ∧ ((∀ page off, s.refusesRemote master page off = false)) ∧ implemented page = true) ∧
    (∃ (s : State) (master : Nat) (off : _), master < 512 ∧ ((∀ page off, s.refusesRemote master page off = false)) ∧ 0x40 ≤ off ∧ off < 4096 ∧ off % 4 = 0 ∧ off ≠ 0xC8) ∧
    (∃ (s : State) (master i : Nat), master < 512 ∧ ((∀ page off, s.refusesRemote master page off = false)) ∧ i < 6) :=
  ⟨⟨State.reset, 1, 0x07, 0x20, by decide +kernel⟩,
   ⟨Ctl.isolated, 0x40, 0x18, 0x20, by decide +kernel⟩,
   ⟨State.reset, 1, 0x40, by decide +kernel⟩,
   ⟨Ctl.pending3, 1, 0, 0x18, by decide +kernel⟩,
   ⟨(Ctl.onHold 5), 1, 0xFFFFFFF1, 5, ((Ctl.onHold 5).setFld (Adr.HDR.PG_CTL 0x05) 1 1 0).feedSlices, by decide +kernel⟩,
   ⟨State.reset, 1, 0x18, 0x20, by decide, fun _ _ => rfl, by decide +kernel⟩,
   ⟨State.reset, 1, by decide, fun _ _ => rfl⟩,
   ⟨State.reset, 1, 0x18, by decide, fun _ _ => rfl, by decide +kernel⟩,
   ⟨State.reset, 1, 0x40, by decide, fun _ _ => rfl, by decide⟩,
   ⟨State.reset, 1, 0, by decide, fun _ _ => rfl, by decide⟩⟩

/-- States and operands that meet the premises of each clause of DramTransactionsMoveTheirBytes. -/
theorem witness_DramTransactionsMoveTheirBytes :
    (∃ (s : State) (t : Txn) (addr : Nat), t.wellFormed = true ∧ t.target = .dram addr ∧ s.stalls t = false ∧ t.flow = none ∧ s.quantaOf t = 0 ∧ s.trl.beOps = [] ∧ s.mem.waiting = [] ∧ s.grantsTxn t = true ∧ s.dramError addr = none ∧ s.room t addr = true ∧ t.isWrite = true) ∧
    (∃ (s : State) (t : Txn) (addr : Nat), t.wellFormed = true ∧ t.target = .dram addr ∧ s.stalls t = false ∧ t.flow = none ∧ s.quantaOf t = 0 ∧ s.trl.beOps = [] ∧ s.mem.waiting = [] ∧ s.grantsTxn t = true ∧ s.dramError addr = none ∧ s.room t addr = true ∧ t.isWrite = false ∧ ((∀ e ∈ t.ecc, e = .none))) ∧
    (∃ (s : State) (t : Txn) (addr : Nat), t.wellFormed = true ∧ t.target = .dram addr ∧ s.stalls t = false ∧ t.flow = none ∧ s.quantaOf t = 0 ∧ s.trl.beOps = [] ∧ s.mem.waiting = [] ∧ s.grantsTxn t = true ∧ s.dramError addr = none ∧ s.room t addr = true ∧ t.isWrite = false ∧ s.fromDevices addr t.beats = []) ∧
    (∃ (s : State) (t : Txn) (addr : Nat) (ch : _), t.wellFormed = true ∧ t.target = .dram addr ∧ s.stalls t = false ∧ t.flow = none ∧ s.quantaOf t = 0 ∧ s.trl.beOps = [] ∧ s.mem.waiting = [] ∧ s.grantsTxn t = true ∧ s.dramError addr = none ∧ s.room t addr = true ∧ t.isWrite = false ∧ t.beats = 1 ∧ t.ecc = [.uncorrectable] ∧ s.fromDevices addr 1 = [0] ∧ (s.linkEcc = true ∨ s.inlineEcc = true) ∧ (s.channelOf addr).1 = ch ∧ ch < 16) ∧
    (∃ (s : State) (t : Txn) (addr : Nat) (unit : _), t.wellFormed = true ∧ t.target = .dram addr ∧ s.stalls t = false ∧ t.flow = none ∧ s.quantaOf t = 0 ∧ s.trl.beOps = [] ∧ s.mem.waiting = [] ∧ s.grantsTxn t = true ∧ s.dramError addr = some unit) :=
  ⟨⟨Ctl.dramS, (Ctl.txn 5 true (.dram 0x1000)), _, by decide +kernel, rfl, by decide +kernel⟩,
   ⟨Ctl.dramS, (Ctl.txn 5 false (.dram 0x1000)), _, by decide +kernel, rfl, by decide +kernel⟩,
   ⟨Ctl.dramQueued, (Ctl.txn 5 false (.dram 0x1000)), _, by decide +kernel, rfl, by decide +kernel⟩,
   (by refine ⟨Ctl.dramEccOn, Ctl.badRead, _, _, ?_, rfl, ?_, ?_, ?_, ?_, ?_, ?_, ?_, ?_, ?_, ?_, ?_, ?_, ?_, rfl, ?_⟩ <;> decide +kernel),
   (by refine ⟨State.reset, (Ctl.txn 5 true (.dram 0x1000)), _, _, ?_, rfl, ?_, ?_, ?_, ?_, ?_, ?_, rfl⟩ <;> decide +kernel)⟩

/-- States and operands that meet the premises of each clause of RefusalsAndStoppedDomains. -/
theorem witness_RefusalsAndStoppedDomains :
    (∃ (s : State) (t : Txn), t.wellFormed = true ∧ s.stalls t = false ∧ s.filtersTxn t = false ∧ s.grantsTxn t = false) ∧
    (∃ (s : State), s.stalled = []) ∧
    (∃ (s : State) (t : Txn), s.stalled = [.transaction t]) ∧
    (∃ (s : State) (d : ClockDomain) (t : Txn), t.wellFormed = true ∧ d ∈ s.txnDomains t ∧ d ∈ s.stopped) ∧
    (∃ (s : State) (d : ClockDomain) (c : Instr), c.wellFormed = true ∧ d ∈ s.edgesOf c ∧ d ∈ s.stopped) ∧
    (∃ (s : State), s.stopped = []) :=
  ⟨⟨State.reset, (Ctl.txn 261 true (.dram 0x1000)), by decide +kernel⟩,
   ⟨State.reset, by decide +kernel⟩,
   ⟨Ctl.stalledS, _, rfl⟩,
   ⟨Ctl.stoppedS, .lodge, (Ctl.txn 5 true (.reg 0x18 0x40)), by decide +kernel⟩,
   ⟨Ctl.stoppedS, .memGroup 0, (.schedulerIssue 0 1), by decide +kernel⟩,
   ⟨State.reset, by decide +kernel⟩⟩

/-- States and operands that meet the premises of each clause of RoundsAndTemperatures. -/
theorem witness_RoundsAndTemperatures :
    (∃ (s : State) (r : RoundSample) (u : State), Instr.wellFormed (.managementRound r) = true ∧ u = ((((s.dovRound r.refDev).iceRound).speedRound r.speedIndex).servoRound.hierarchyRound r.mgrAlive).raiseEpochs r.rejoins ∧ (({ u with mem := { u.mem with trefi := r.trefi } } : State).rereport s.held).fusedCrossing = none) ∧
    (∃ (r : RoundSample), Instr.wellFormed (.managementRound r) = true) ∧
    (∃ (r : RoundSample) (u : State) (before : List Held) (h : _), Instr.wellFormed (.managementRound r) = true ∧ h ∈ u.held ∧ h.event = false ∧ h ∈ before) ∧
    (∃ (r : RoundSample) (u : State) (n : Nat), Instr.wellFormed (.managementRound r) = true ∧ u.hie = 2 ∧ 0 < n) ∧
    (∃ (r : RoundSample) (u : State) (n : Nat), Instr.wellFormed (.managementRound r) = true ∧ (u.hie ≠ 2 ∨ n = 0)) ∧
    (∃ (s : State), s.iceResync = false ∧ ((∀ n, n < 5 → (-(2 ^ 31 : Int) ≤ nth 0 (iceStep s.iceParams s.nodePower s.temps) n ∧ nth 0 (iceStep s.iceParams s.nodePower s.temps) n < 2 ^ 31) ∧ (-(2 ^ 31 : Int) ≤ nth 0 (iceStep fusedParams s.nodePower s.fusedTemps) n ∧ nth 0 (iceStep fusedParams s.nodePower s.fusedTemps) n < 2 ^ 31)))) ∧
    (∃ (s : State) (n : _), s.iceResync = false ∧ ((∀ n, n < 5 → (-(2 ^ 31 : Int) ≤ nth 0 (iceStep s.iceParams s.nodePower s.temps) n ∧ nth 0 (iceStep s.iceParams s.nodePower s.temps) n < 2 ^ 31) ∧ (-(2 ^ 31 : Int) ≤ nth 0 (iceStep fusedParams s.nodePower s.fusedTemps) n ∧ nth 0 (iceStep fusedParams s.nodePower s.fusedTemps) n < 2 ^ 31))) ∧ n < 4) :=
  ⟨⟨State.reset, (Ctl.round 255 true), _, by decide +kernel, rfl, by decide +kernel⟩,
   ⟨(Ctl.round 255 true), by decide +kernel⟩,
   ⟨(Ctl.round 255 true), Ctl.recorded, [{ page := 4, cause := 0x041, code := 9, event := false, unit := 0x041 }], { page := 4, cause := 0x041, code := 9, event := false, unit := 0x041 }, by decide +kernel⟩,
   ⟨(Ctl.round 255 true), Ctl.manager, 2, by decide +kernel⟩,
   ⟨(Ctl.round 255 true), Ctl.recorded, 0, by decide +kernel⟩,
   ⟨State.reset, by decide +kernel⟩,
   ⟨State.reset, 1, by decide +kernel⟩⟩

/-- States and operands that meet the premises of each clause of AdmissionNeverOvercommits. -/
theorem witness_AdmissionNeverOvercommits :
    ∃ (s t : State) (c : Instr), AdmissionSound s ∧ (∃ b, c = .admitFlow b) ∧ exec c s = .next t :=
  (by refine ⟨Ctl.fits, _, .admitFlow .lodge, ⟨by decide +kernel, ?_, ?_, ?_, fun _ h => nomatch h⟩, ⟨_, rfl⟩, rfl⟩ <;> decide +kernel)

/-- States and operands that meet the premises of each clause of AdmitAndReleaseDecide. -/
theorem witness_AdmitAndReleaseDecide :
    (∃ (s : State) (b : Bank), (s.flow (s.flowSel b)).st ≠ .admitted ∧ (s.admitCheck (s.flow (s.flowSel b))).1 = .none) ∧
    (∃ (s : State) (b : Bank), (s.flow (s.flowSel b)).st ≠ .admitted ∧ (s.admitCheck (s.flow (s.flowSel b))).1 ≠ .none) ∧
    (∃ (s : State) (b : Bank), (s.flow (s.flowSel b)).st = .admitted ∧ s.ownerActive (s.flow (s.flowSel b)).owner = true) ∧
    (∃ (s : State) (b : Bank), (s.flow (s.flowSel b)).st = .admitted ∧ s.ownerActive (s.flow (s.flowSel b)).owner = false) :=
  ⟨⟨Ctl.fits, .lodge, by decide +kernel, by decide +kernel⟩,
   ⟨Ctl.fitsNot, .lodge, by decide +kernel⟩,
   ⟨Ctl.admittedOn, .lodge, by decide +kernel⟩,
   ⟨Ctl.admitted_, .lodge, by decide +kernel⟩⟩

/-- States and operands that meet the premises of each clause of OperatingPointAndBudgets. -/
theorem witness_OperatingPointAndBudgets :
    (∃ (s : State), Fld.TRL.OP_STAT_BUSY s.regs = 1) ∧
    (∃ (s : State) (op : Fin 4) (i r : _), Fld.TRL.OP_STAT_BUSY s.regs ≠ 1 ∧ op.val ≠ Fld.TRL.OP_CUR s.regs ∧ s.opCheck op [] s.admitted = some (i, r)) ∧
    (∃ (s : State) (op : Fin 4), Fld.TRL.OP_STAT_BUSY s.regs ≠ 1 ∧ Fld.TRL.OP_CUR s.regs < op.val ∧ s.opCheck op [] s.admitted = none ∧ bitOf (Fld.PMU.PWR_STAT_PG s.regs) 1 = true) ∧
    (∃ (s : State) (op : Fin 4), Fld.TRL.OP_STAT_BUSY s.regs ≠ 1 ∧ op.val < Fld.TRL.OP_CUR s.regs ∧ s.opCheck op [] s.admitted = none ∧ bitOf (Fld.PMU.PWR_STAT_PG s.regs) 1 = true) ∧
    (∃ (s : State) (o : Fin 4), s.pwr.settling = some o.val) ∧
    (∃ (s : State) (v : Word), 20000 ≤ v.toNat % 2 ^ 16 ∧ v.toNat % 2 ^ 16 ≤ 55000 ∧ s.pwrUsed ≤ v.toNat % 2 ^ 16) ∧
    (∃ (s : State) (v : Word), ¬ (20000 ≤ v.toNat % 2 ^ 16 ∧ v.toNat % 2 ^ 16 ≤ 55000 ∧ s.pwrUsed ≤ v.toNat % 2 ^ 16)) ∧
    (∃ (v : Word), (v.toNat % 64 = 0 ∨ 32 < v.toNat % 64)) ∧
    (∃ (s : State) (v : Word), 1 ≤ v.toNat % 64 ∧ v.toNat % 64 ≤ 32 ∧ allowanceOf (v.toNat % 64) (Fld.TRL.BE_PATIENCE s.regs) ≤ s.allowance) ∧
    (∃ (v : Word), v.toNat % 256 < 4) ∧
    (∃ (s : State) (v : Word), 4 ≤ v.toNat % 256 ∧ ((allowanceOf (Fld.TRL.BE_SLOTS s.regs) (v.toNat % 256) ≤ s.allowance ∨ s.roomForAllowance (allowanceOf (Fld.TRL.BE_SLOTS s.regs) (v.toNat % 256)) = true))) ∧
    (∃ (s : State) (new r : _), s.roomForAllowance new = true ∧ r < 0x24 ∧ s.holdsAllowance r = true) :=
  ⟨⟨Ctl.opBusy, by decide +kernel⟩,
   ⟨Ctl.op0Tight, 1, _, _, by decide +kernel, by decide +kernel, rfl⟩,
   ⟨Ctl.op0, 1, by decide +kernel⟩,
   ⟨Ctl.fits, 0, by decide +kernel⟩,
   ⟨Ctl.opSettling, 2, by decide +kernel⟩,
   ⟨State.reset, 20000, by decide +kernel⟩,
   ⟨State.reset, 0, by decide +kernel⟩,
   ⟨0, by decide +kernel⟩,
   ⟨State.reset, 4, by decide +kernel⟩,
   ⟨0, by decide +kernel⟩,
   ⟨State.reset, 33, by decide +kernel⟩,
   ⟨State.reset, 0, 0x17, by decide +kernel⟩⟩

/-- States and operands that meet the premises of each clause of ArbitersServeUrgently. -/
theorem witness_ArbitersServeUrgently :
    (∃ (s : State) (party : Nat) (o : BeOp), party < 4096 ∧ s.eligibleOf party = some o ∧ s.pastPatience o = true ∧ s.stopsAtEdge (.patienceExpiry .trellis party) = false) ∧
    (∃ (s : State) (party : Nat), party < 4096 ∧ s.eligibleOf party = none) ∧
    (∃ (s : State) (party : Nat) (o : BeOp), party < 4096 ∧ s.eligibleOf party = some o ∧ s.pastPatience o = false ∧ s.stopsAtEdge (.patienceExpiry .trellis party) = false) ∧
    (∃ (s : State) (o : BeOp), s.pastPatience o = true) ∧
    (∃ (s : State) (party : Nat) (o : BeOp), s.eligibleOf party = some o) ∧
    (∃ (s : State) (o : BeOp) (urgent : Bool), s.trl.beOps = [o] ∧ (urgent = true ∨ s.canServe o.txn = true)) ∧
    (∃ (s : State) (party : Nat) (o : BeOp) (rest : _), party < 4096 ∧ s.trl.beOps = o :: rest ∧ o.party = party) ∧
    (∃ (s : State) (party : Nat) (o o' : BeOp), party < 4096 ∧ s.trl.beOps = [o] ∧ o.party = party ∧ o.quanta = 1 ∧ s.txnStopped o.txn = false ∧ o' = { o with quanta := 0, eligible := s.now }) ∧
    (∃ (s : State) (o : BeOp), s.canServe o.txn = false) ∧
    (∃ (s : State), s.trl.beOps = []) ∧
    (∃ (s : State) (ch : Fin 16), (s.chan ch).ready = true ∧ s.mem.selfRefresh = false ∧ 8 ≤ (s.chan ch).debt ∧ s.stopsAtEdge (.patienceExpiry .refresh ch) = false) ∧
    (∃ (s : State), s.dov.calReady = false ∧ s.lpEn = false ∧ s.calPatience ≤ Fld.DOV.CAL_STAT_CAL_WAIT s.regs ∧ s.stopsAtEdge (.patienceExpiry .dovecoteCal 0) = false) ∧
    (∃ (s : State), (s.dov.calReady = true ∨ s.lpEn = true ∨ Fld.DOV.CAL_STAT_CAL_WAIT s.regs < s.calPatience) ∧ s.stopsAtEdge (.patienceExpiry .dovecoteCal 0) = false) ∧
    (∃ (s : State) (ch : Fin 16) (e : McEntry), (s.chan ch).ready = true ∧ s.mem.selfRefresh = false ∧ (s.chan ch).debt < 8 ∧ (s.chan ch).repay = false ∧ e ∈ (s.chan ch).writeQ ∧ s.wrPatience (ch / 4) < shortFwd e.entered s.now) ∧
    (∃ (s : State) (i : Fin 128), (s.flow i).st = .admitted) ∧
    (∃ (s : State) (i : Fin 128), (s.flow i).st = .admitted ∧ (s.flow i).tokens = 0 ∧ shortFwd (s.flow i).filled s.now = 0) :=
  ⟨⟨Ctl.beLong, 0x300, _, by decide +kernel, rfl, by decide +kernel⟩,
   ⟨State.reset, 0x300, by decide +kernel⟩,
   ⟨Ctl.be0, 0x300, _, by decide +kernel, rfl, by decide +kernel⟩,
   ⟨Ctl.beLong, { party := 0x300, quanta := 0, txn := Ctl.txn 5 true (.dram 0x1000), eligible := 0 }, by decide +kernel⟩,
   ⟨Ctl.be0, 0x300, _, rfl⟩,
   ⟨Ctl.be0, _, true, rfl, by decide +kernel⟩,
   ⟨Ctl.be0, 0x300, _, _, by decide +kernel, rfl, by decide +kernel⟩,
   ⟨Ctl.be1, 0x300, _, { party := 0x300, quanta := 0, txn := Ctl.txn 5 true (.dram 0x1000), eligible := 0 }, by decide +kernel, rfl, by decide +kernel⟩,
   ⟨Ctl.dramShut, { party := 0x300, quanta := 0, txn := Ctl.txn 5 true (.dram 0x1000), eligible := 0 }, by decide +kernel⟩,
   ⟨State.reset, by decide +kernel⟩,
   ⟨Ctl.debt8, 5, by decide +kernel⟩,
   ⟨Ctl.calLate, by decide +kernel⟩,
   ⟨State.reset, by decide +kernel⟩,
   ⟨Ctl.agedWrite, 5, Ctl.held4, by decide +kernel⟩,
   ⟨Ctl.admitted_, 0, by decide +kernel⟩,
   ⟨Ctl.admitted_, 0, by decide +kernel⟩⟩

/-- States and operands that meet the premises of each clause of TrainingDecidesAlignment. -/
theorem witness_TrainingDecidesAlignment :
    (∃ (s : State) (g : Fin 4), (s.grp g).running = false) ∧
    (∃ (s : State) (g : Fin 4) (found : List LaneFound), found.length ≤ 20 ∧ Fld.SFL.DESKEW_STAT_BUSY s.regs g = 0) ∧
    (∃ (s : State) (g : Fin 4) (found : List LaneFound) (m0 : Int), found.length ≤ 20 ∧ Fld.SFL.DESKEW_STAT_BUSY s.regs g = 1 ∧ found.length = s.laneCount g ∧ s.trainingLate g = false ∧ (found.head?.bind (·.marker)) = some m0 ∧ ((∀ l ∈ found, 8 ≤ l.eyeTaps ∧ ∃ m, l.marker = some m ∧ -8 ≤ m - m0 ∧ m - m0 ≤ 8))) ∧
    (∃ (s : State) (g : Fin 4) (found : List LaneFound), found.length ≤ 20 ∧ Fld.SFL.DESKEW_STAT_BUSY s.regs g = 1 ∧ ((∃ l ∈ found.take (s.laneCount g), l.eyeTaps < 8) ∨ found.length < s.laneCount g ∨ s.trainingLate g = true)) ∧
    (∃ (s : State) (g : Fin 4) (l : Nat), l < 20 ∧ s.laneCount g ≤ l) ∧
    (∃ (s : State) (g : Fin 4) (l : Nat), l < 20 ∧ l < s.laneCount g ∧ s.aligned g = true ∧ bitOf (Fld.SFL.TRACK_CTL_EN s.regs) g = true) ∧
    (∃ (s : State) (g : Fin 4), s.aligned g = false) ∧
    (∃ (s : State) (g : Fin 4), s.aligned g = true) :=
  ⟨⟨State.reset, 0, by decide +kernel⟩,
   ⟨State.reset, 0, [], by decide +kernel⟩,
   (by refine ⟨Front.training, 0, List.replicate 20 Front.laneGood, _, ?_, ?_, ?_, ?_, rfl, ?_⟩ <;> decide +kernel),
   ⟨Front.training, 0, [], by decide +kernel⟩,
   ⟨State.reset.setFld (Adr.SFE.GRP_CFG 0) 4 5 4, 0, 19, by decide +kernel⟩,
   ⟨Front.aligned, 0, 0, by decide +kernel⟩,
   ⟨State.reset, 0, by decide +kernel⟩,
   ⟨Front.aligned, 0, by decide +kernel⟩⟩

/-- States and operands that meet the premises of each clause of SensorFramesOpenAndClose. -/
theorem witness_SensorFramesOpenAndClose :
    (∃ (s : State) (g : Fin 4), s.stopped = [] ∧ s.embedded g = true) ∧
    (∃ (s : State) (g : Fin 4), s.stopped = [] ∧ s.embedded g = false ∧ 0 < s.lvDelay g ∧ 0 < (s.wordForm g).2) ∧
    (∃ (s : State) (g : Fin 4), s.stopped = [] ∧ s.embedded g = false ∧ s.lvDelay g = 0 ∧ (s.grp g).edges = [] ∧ ((s.grp g).running = false ∨ s.aligned g = false) ∧ (s.grp g).line = none) ∧
    (∃ (s : State) (g : Fin 4), s.stopped = [] ∧ s.embedded g = false ∧ s.lvDelay g = 0 ∧ (s.grp g).edges = [] ∧ (s.grp g).running = true ∧ s.aligned g = true ∧ s.holding 0x10 = false ∧ s.grpMode = 0 ∧ s.windowed g = false ∧ (s.grp g).line = none ∧ (s.grp g).frame = none ∧ ((∀ f ∈ (s.stream g).frames, f.owes g (s.grp g).cnt = false))) ∧
    (∃ (s : State) (g : Fin 4), s.stopped = [] ∧ s.embedded g = false ∧ s.lvDelay g = 0 ∧ (s.grp g).edges = [] ∧ (s.grp g).running = true ∧ s.aligned g = true ∧ s.holding 0x10 = false ∧ s.grpMode = 0 ∧ s.windowed g = true ∧ (s.grp g).anchor.isSome = true ∧ s.inWindow g (s.grp g).slot = false ∧ (s.grp g).line = none) ∧
    (∃ (s : State) (g : Fin 4) (f : _), s.stopped = [] ∧ s.embedded g = false ∧ s.lvDelay g = 0 ∧ (s.grp g).edges = [] ∧ (s.grp g).frame = some f ∧ (s.grp g).line = none ∧ (s.grp g).discard = false ∧ (s.grp g).heldSof = none ∧ (s.grp g).owed = [] ∧ f.rows < f.cfg.height) ∧
    (∃ (s : State) (g : Fin 4) (f time : _), s.stopped = [] ∧ (s.grp g).frame = some f ∧ (s.grp g).line = none ∧ (s.grp g).heldSof = none ∧ (s.grp g).owed = [] ∧ f.cfg.height ≤ f.rows ∧ f.lastEnd = some time ∧ f.cfg.closeNs ≤ shortFwd time s.now) ∧
    (∃ (s : State) (g : Fin 4) (f time : _), s.stopped = [] ∧ (s.grp g).frame = some f ∧ f.lastEnd = some time ∧ shortFwd time s.now < f.cfg.closeNs) ∧
    (∃ (s : State) (g : Fin 4) (f : _), s.stopped = [] ∧ (s.grp g).frame = some f ∧ f.lastEnd = none) ∧
    (∃ (s : State) (g : Fin 4), s.stopped = [] ∧ (s.grp g).frame = none) :=
  ⟨⟨Front.sync, 0, by decide +kernel⟩,
   ⟨Front.delayed, 0, by decide +kernel⟩,
   ⟨State.reset, 0, by decide +kernel⟩,
   ⟨Front.runs, 0, by decide +kernel⟩,
   ⟨Front.windowed, 0, by decide +kernel⟩,
   (by refine ⟨Front.open', 0, _, ?_, ?_, ?_, ?_, rfl, ?_⟩ <;> decide +kernel),
   (by refine ⟨Front.openLong, 0, _, _, ?_, rfl, ?_, ?_, ?_, ?_, rfl, ?_⟩ <;> decide +kernel),
   ⟨Front.openDone, 0, _, _, by decide +kernel, rfl, rfl, by decide +kernel⟩,
   ⟨Front.open', 0, _, by decide +kernel, rfl, by decide +kernel⟩,
   ⟨State.reset, 0, by decide +kernel⟩⟩

/-- States and operands that meet the premises of each clause of SensorLinesKeepTheirSamples. -/
theorem witness_SensorLinesKeepTheirSamples :
    (∃ (s : State) (g : Fin 4), s.stopped = [] ∧ s.embedded g = false ∧ s.lvDelay g = 0 ∧ (s.grp g).edges = [] ∧ (s.grp g).fv = false) ∧
    (∃ (s : State) (g : Fin 4), s.stopped = [] ∧ s.embedded g = false ∧ s.lvDelay g = 0 ∧ (s.grp g).edges = [] ∧ (s.grp g).fv = true ∧ s.holding 0x10 = true ∧ (s.grp g).frame = none ∧ (s.grp g).line = none) ∧
    (∃ (s : State) (g : Fin 4) (f : _), s.stopped = [] ∧ s.embedded g = false ∧ s.lvDelay g = 0 ∧ (s.grp g).edges = [] ∧ (s.grp g).fv = true ∧ (s.grp g).running = true ∧ (s.grp g).discard = false ∧ (s.grp g).line = none ∧ (s.grp g).frame = some f ∧ f.ended = none ∧ f.seen < f.cfg.height) ∧
    (∃ (s : State) (g : Fin 4) (f l v : _), s.stopped = [] ∧ s.embedded g = false ∧ s.lvDelay g = 0 ∧ (s.grp g).edges = [] ∧ v < 2 ^ 16 ∧ (s.grp g).frame = some f ∧ (s.grp g).line = some l ∧ l.ignored = false ∧ f.trunc = none ∧ l.samples.length < f.cfg.width ∧ (s.grp g).occupied < 6 * f.cfg.width) ∧
    (∃ (s : State) (g : Fin 4) (f l v : _), s.stopped = [] ∧ s.embedded g = false ∧ s.lvDelay g = 0 ∧ (s.grp g).edges = [] ∧ v < 2 ^ 16 ∧ (s.grp g).frame = some f ∧ (s.grp g).line = some l ∧ l.ignored = false ∧ f.trunc = none ∧ l.samples.length < f.cfg.width ∧ 6 * f.cfg.width ≤ (s.grp g).occupied) ∧
    (∃ (s : State) (g : Fin 4) (f l row : _), s.stopped = [] ∧ s.embedded g = false ∧ s.lvDelay g = 0 ∧ (s.grp g).edges = [] ∧ (s.grp g).frame = some f ∧ (s.grp g).line = some l ∧ l.ignored = false ∧ f.trunc.isSome = true ∧ row = f.endReadout s.now) ∧
    (∃ (s : State) (g : Fin 4) (f l : _), s.stopped = [] ∧ s.embedded g = false ∧ s.lvDelay g = 0 ∧ (s.grp g).edges = [] ∧ (s.grp g).frame = some f ∧ (s.grp g).line = some l ∧ l.ignored = false ∧ f.trunc = none ∧ f.cfg.dual = false ∧ (s.grp g).heldSof = none) :=
  ⟨⟨State.reset, 0, by decide +kernel⟩,
   ⟨Front.heldLines, 0, by decide +kernel⟩,
   (by refine ⟨Front.open', 0, _, ?_, ?_, ?_, ?_, ?_, ?_, ?_, ?_, rfl, ?_⟩ <;> decide +kernel),
   (by refine ⟨Front.openLine, 0, _, _, 0xFFFF, ?_, ?_, ?_, ?_, ?_, rfl, rfl, ?_⟩ <;> decide +kernel),
   (by refine ⟨Front.openFull, 0, _, _, 0xFFFF, ?_, ?_, ?_, ?_, ?_, rfl, rfl, ?_⟩ <;> decide +kernel),
   (by refine ⟨Front.openTrunc, 0, _, _, _, ?_, ?_, ?_, ?_, rfl, rfl, ?_, ?_, rfl⟩ <;> decide +kernel),
   (by refine ⟨Front.openLine, 0, _, _, ?_, ?_, ?_, ?_, rfl, rfl, ?_⟩ <;> decide +kernel)⟩

/-- States and operands that meet the premises of each clause of WindowsJoinsAndForwarding. -/
theorem witness_WindowsJoinsAndForwarding :
    (∃ (s : State) (g : Fin 4) (e : _), s.stopped = [] ∧ (s.grp g).running = true ∧ s.leads g = true ∧ s.windowed g = true ∧ s.holding 0x10 = false ∧ s.expected g (s.grp g).slot = some e ∧ s.reached ((e + Fld.SFE.FS_LATE s.regs g) % 2 ^ 40) = true ∧ s.isolated = false) ∧
    (∃ (s : State) (g : Fin 4), s.stopped = [] ∧ (s.grp g).running = false) ∧
    (∃ (s : State) (g : Fin 4) (time f : _), s.stopped = [] ∧ (s.grp g).heldSof = some time ∧ (s.grp g).frame = some f ∧ f.cfg.skew < shortFwd time s.now ∧ ((∀ n, n < 4 → s.missedFrame n g = none))) ∧
    (∃ (s : State) (g : Fin 4), s.stopped = [] ∧ (s.grp g).heldSof = none ∧ ((∀ n, n < 4 → s.missedFrame n g = none))) ∧
    (∃ (s : State) (g : Fin 4), s.stopped = [] ∧ (s.stream g).frames = [] ∧ s.rawStalled g = false) ∧
    (∃ (s : State) (g : Fin 4), s.stopped = [] ∧ s.rawStalled g = true) ∧
    (∃ (s : State) (g : Fin 4) (f rest row x c : _), s.stopped = [] ∧ s.rawStalled g = false ∧ (s.stream g).frames = f :: rest ∧ f.started = true ∧ f.members = [g.val] ∧ f.cfgs = [c] ∧ f.begun = [g.val] ∧ f.mode = 0 ∧ f.sent + 1 < f.height ∧ (s.grp g).pop = some (row, x) ∧ row.pad = false ∧ f.sent % 16 ≠ 0) ∧
    (∃ (s : State) (g : Fin 4) (words : List (List Nat)) (typ : _), s.stopped = [] ∧ words.length ≤ 20 ∧ words.all (fun c => c.length == 4 && samplesOk c) = true ∧ s.embedded g = true ∧ majorityType (s.wordForm g).1 (words.take (s.wordForm g).2) = some typ) ∧
    (∃ (s : State) (g : Fin 4) (words : List (List Nat)), s.stopped = [] ∧ words.length ≤ 20 ∧ words.all (fun c => c.length == 4 && samplesOk c) = true ∧ s.embedded g = false) ∧
    (∃ (s : State) (g : Fin 4) (slot : _), s.stopped = [] ∧ (s.grp g).trigOn = true ∧ slot = slotTime (s.trigStart g) (Fld.SFE.FRM_RATE_NUM s.regs g) (Fld.SFE.FRM_RATE_DEN s.regs g) (s.grp g).trig ∧ s.reached slot = true) ∧
    (∃ (s : State) (g : Fin 4), s.stopped = [] ∧ ((s.grp g).hLeft = 0 ∨ (s.grp g).trigOn = false ∨ s.reached (s.grp g).hNext = false)) ∧
    (∃ (s : State) (g : Fin 4), s.stopped = [] ∧ 0 < (s.grp g).hLeft ∧ (s.grp g).trigOn = true ∧ s.reached (s.grp g).hNext = true) :=
  ⟨(by refine ⟨Front.windowed, 0, _, ?_, ?_, ?_, ?_, ?_, rfl, ?_⟩ <;> decide +kernel),
   ⟨State.reset, 0, by decide +kernel⟩,
   ⟨Front.joined, 1, _, _, by decide +kernel, rfl, rfl, by decide +kernel⟩,
   ⟨State.reset, 0, by decide +kernel⟩,
   ⟨State.reset, 0, by decide +kernel⟩,
   ⟨Front.stall, 0, by decide +kernel⟩,
   (by refine ⟨Front.forwards, 0, _, _, _, _, _, ?_, ?_, rfl, ?_, ?_, rfl, ?_, ?_, ?_, rfl, ?_⟩ <;> decide +kernel),
   (by refine ⟨Front.sync, 0, List.replicate 4 [0xFFF,0,0,0x870], _, ?_, ?_, ?_, ?_, rfl⟩ <;> decide +kernel),
   ⟨State.reset, 0, List.replicate 4 [0xFFF,0,0,0x870], by decide +kernel⟩,
   ⟨Front.triggers, 0, _, by decide +kernel, by decide +kernel, rfl, by decide +kernel⟩,
   ⟨State.reset, 0, by decide +kernel⟩,
   ⟨Front.triggers, 0, by decide +kernel⟩⟩

/-- States and operands that meet the premises of each clause of SerialMastersMoveBytes. -/
theorem witness_SerialMastersMoveBytes :
    (∃ (s : State) (c : Fin 4) (cmd : Word), s.stopped = [] ∧ (bits cmd.toNat 8 1 = 0 ∨ Fld.SFE.SPI_STAT_BUSY s.regs c = 1)) ∧
    (∃ (s : State) (c : Fin 4) (cmd : Word), s.stopped = [] ∧ bits cmd.toNat 8 1 = 1 ∧ bitOf cmd.toNat 9 = false ∧ Fld.SFE.SPI_STAT_BUSY s.regs c = 0) ∧
    (∃ (s : State) (c : Fin 4) (cmd : Word), s.stopped = [] ∧ bits cmd.toNat 8 1 = 1 ∧ bitOf cmd.toNat 9 = true ∧ Fld.SFE.SPI_STAT_BUSY s.regs c = 0) ∧
    (∃ (s : State) (c : Fin 4) (rx : List Byte), s.stopped = [] ∧ rx.length ≤ 64 ∧ Fld.SFE.SPI_STAT_BUSY s.regs c = 1) ∧
    (∃ (s : State) (c : Fin 4), s.stopped = [] ∧ (s.spiOf c).tx.length < 64) ∧
    (∃ (s : State) (c : Fin 4) (b rest : _), s.stopped = [] ∧ (s.spiOf c).rx = b :: rest ∧ rest.length < 64) ∧
    (∃ (s : State) (c : Fin 4) (cmd : Word), s.stopped = [] ∧ bits cmd.toNat 8 1 = 1 ∧ bitOf cmd.toNat 9 = false ∧ Fld.SFE.I2C_STAT_BUSY s.regs c = 0) ∧
    (∃ (s : State) (c : Fin 4) (cmd : Word), s.stopped = [] ∧ bits cmd.toNat 8 1 = 1 ∧ bitOf cmd.toNat 9 = true ∧ Fld.SFE.I2C_STAT_BUSY s.regs c = 0) ∧
    (∃ (s : State) (c : Fin 4) (rx : List Byte), s.stopped = [] ∧ rx.length ≤ 64 ∧ Fld.SFE.I2C_STAT_BUSY s.regs c = 1) ∧
    (∃ (s : State) (c : Fin 4), s.stopped = [] ∧ (s.i2cOf c).tx.length < 64) ∧
    (∃ (s : State) (c : Fin 4), s.stopped = [] ∧ Fld.SFE.I2C_STAT_BUSY s.regs c = 1) ∧
    (∃ (s : State) (c : Fin 4), s.stopped = [] ∧ Fld.SFE.I2C_STAT_BUSY s.regs c = 0) :=
  ⟨⟨State.reset, 0, 0, by decide +kernel⟩,
   ⟨State.reset, 0, 0x101, by decide +kernel⟩,
   ⟨State.reset, 0, 0x303, by decide +kernel⟩,
   ⟨Front.serialBusy, 0, [], by decide +kernel⟩,
   ⟨State.reset, 0, by decide +kernel⟩,
   ⟨Front.serialFull, 0, _, _, by decide +kernel, rfl, by decide +kernel⟩,
   ⟨State.reset, 0, 0x101, by decide +kernel⟩,
   ⟨State.reset, 0, 0x303, by decide +kernel⟩,
   ⟨Front.serialBusy, 0, [], by decide +kernel⟩,
   ⟨State.reset, 0, by decide +kernel⟩,
   ⟨Front.serialBusy, 0, by decide +kernel⟩,
   ⟨State.reset, 0, by decide +kernel⟩⟩

/-- States and operands that meet the premises of each clause of RawConditioning. -/
theorem witness_RawConditioning :
    (∃ (f : RcnFrame) (r : Nat), f.table (.dark, r) = none) ∧
    (∃ (f : RcnFrame) (r : Nat) (b : List Byte), f.table (.dark, r) = some b ∧ f.dual = false) ∧
    (∃ (n : Nat) (f : RcnFrame) (r : Nat), f.padRow r = false ∧ f.dual = false ∧ Fld.RCN.CTX_CFG_DEF_EN f.cfg n = 0 ∧ f.table (.column, 0) = none ∧ Fld.RCN.CTX_CFG_ROW_EN f.cfg n = 0 ∧ Fld.RCN.CTX_CFG_FF_EN f.cfg n = 0) ∧
    (∃ (f : RcnFrame) (r : Nat), f.padRow r = true) ∧
    (∃ (x : Int), -(2 ^ 24 : Int) ≤ x ∧ x ≤ 2 ^ 24 - 1) ∧
    (∃ (t0 : Nat) (e1 : Int), e1 ≤ t0) ∧
    (∃ (sl fx fy : _), 1 ≤ sl ∧ fx < 2 ^ sl ∧ fy < 2 ^ sl) ∧
    (∃ (s : State) (n : Fin 4), SMap.get (fun _ => []) s.rawIn n = [] ∧ s.ebeQueue n = [] ∧ s.orgIn = [] ∧ s.orgOpen 0 = false) ∧
    (∃ (s : State) (n : Fin 4) (row rest f : _), SMap.get (fun _ => []) s.rawIn n = .row row :: rest ∧ (s.rcnOf n).running = true ∧ (s.rcnOf n).frame = some f ∧ s.consumerStalled n (.row row) = false ∧ s.dramStopped = false ∧ row.pad = true ∧ Fld.RCN.CTX_CFG_DEF_EN f.cfg n = 0 ∧ f.out.length = f.rows.length ∧ f.toEbe = false ∧ f.toOrg = false ∧ s.ebeQueue n = [] ∧ s.orgIn = [] ∧ s.orgOpen 0 = false) ∧
    (∃ (s : State) (n : Fin 4) (i rest : _), SMap.get (fun _ => []) s.rawIn n = i :: rest ∧ (s.consumerStalled n i = true ∨ s.rowWaits n = true)) ∧
    (∃ (f : RcnFrame) (k : RcnTable × Nat), f.issued k = true) ∧
    (∃ (s : State) (f : RcnFrame) (k : RcnTable × Nat) (a len : Nat), f.issued k = false ∧ s.spanError a len = none ∧ f.failed.find? (fun e => e.1 == k) = none) ∧
    (∃ (s : State) (f : RcnFrame) (k : RcnTable × Nat) (a len cause : Nat), f.issued k = false ∧ (s.spanError a len).or ((f.failed.find? (fun e => e.1 == k)).map (·.2)) = some cause) ∧
    (∃ (s : State) (n : Fin 4) (row unit : Nat), row < 2 ^ 14 ∧ unit < 4096 ∧ (s.rcnOf n).frame = none) ∧
    (∃ (s : State) (n : Fin 4) (tab : RcnTable) (row unit : Nat) (f : RcnFrame), row < 2 ^ 14 ∧ unit < 4096 ∧ (s.rcnOf n).frame = some f ∧ f.issued (tab, row) = true) ∧
    (∃ (s : State) (n : Fin 4) (tab : RcnTable) (row unit : Nat) (f : RcnFrame), row < 2 ^ 14 ∧ unit < 4096 ∧ (s.rcnOf n).frame = some f ∧ f.issued (tab, row) = false ∧ f.failed = []) :=
  ⟨⟨Raw.raw, 0, by decide +kernel⟩,
   ⟨Raw.rawHeld, 0, _, rfl, by decide +kernel⟩,
   ⟨0, { Raw.raw with rows := [Raw.rawRow, Raw.padRow] }, 0, by decide +kernel⟩,
   ⟨Raw.raw, 0, by decide +kernel⟩,
   ⟨0, by decide +kernel⟩,
   ⟨100, -1000, by decide +kernel⟩,
   ⟨1, 0, 1, by decide +kernel⟩,
   ⟨State.reset, 0, by decide +kernel⟩,
   ⟨Raw.rcnOpen, 0, _, _, _, rfl, by decide +kernel, rfl, by decide +kernel⟩,
   ⟨Raw.rcnStalls, 0, _, _, rfl, by decide +kernel⟩,
   ⟨Raw.rawHeld, (RcnTable.dark, 0), by decide +kernel⟩,
   ⟨Raw.integTakes, Raw.raw, (RcnTable.dark, 0), 0, 4, by decide +kernel⟩,
   ⟨State.reset, Raw.raw, (RcnTable.dark, 0), 0, 4, _, by decide +kernel, rfl⟩,
   ⟨State.reset, 0, 16383, 4095, by decide +kernel⟩,
   ⟨Raw.rcnRow, 0, RcnTable.dark, 0, 4095, _, by decide +kernel, by decide +kernel, rfl, by decide +kernel⟩,
   ⟨Raw.rcnOpen, 0, RcnTable.dark, 16383, 4095, _, by decide +kernel, by decide +kernel, rfl, by decide +kernel⟩⟩

/-- States and operands that meet the premises of each clause of Integrator. -/
theorem witness_Integrator :
    (∃ (s : State), s.hasFlow 0x131 = false) ∧
    (∃ (s : State), s.hasFlow 0x131 = true) ∧
    (∃ (s : State) (n : Nat) (cfg : RegFile), s.integ.armed = some cfg ∧ Fld.RCS.INT_CFG_CTX cfg = n) ∧
    (∃ (s : State) (n : Nat) (cfg : RegFile) (geo : Nat × Nat × Nat × Bool), s.integ.armed = some cfg ∧ Fld.RCS.INT_CFG_CTX cfg = n ∧ s.spanError (tileEntry cfg 0) (2 * tileTotal geo.1 geo.2.1) = none) ∧
    (∃ (s : State) (n : Nat) (geo : Nat × Nat × Nat × Bool), s.integ.armed = none ∧ Fld.RCS.INT_CFG_CTX s.integ.cfg = n ∧ Fld.RCS.INT_STAT_STATE s.regs = 1 ∧ s.integ.stopping = false ∧ s.integ.geometry ≠ some geo) ∧
    (∃ (s : State), Fld.RCS.INT_STAT_STATE s.regs ≠ 1) ∧
    (∃ (s : State), Fld.RCS.INT_STAT_STATE s.regs = 1 ∧ s.intInFlight = false) ∧
    (∃ (s : State), Fld.RCS.INT_STAT_STATE s.regs = 1 ∧ s.intInFlight = true) ∧
    (∃ (s : State) (w h b d : _), (Fld.RCS.INT_STAT_STATE s.regs = 2 ∨ Fld.RCS.INT_STAT_STATE s.regs = 3) ∧ s.integ.geometry = some (w, h, b, d)) ∧
    (∃ (s : State), Fld.RCS.INT_STAT_STATE s.regs ≠ 2 ∧ Fld.RCS.INT_STAT_STATE s.regs ≠ 3) ∧
    (∃ (s : State), s.stopped = [] ∧ s.integ.averaging = none) ∧
    (∃ (s : State) (cfg k w : _), s.stopped = [] ∧ s.integ.averaging = some (cfg, k, w, 1)) ∧
    (∃ (s : State) (cfg k w r : _), k ≠ 0 ∧ s.spanError (intRow cfg (Fld.RCS.INT_AVG_UNIT cfg) r) (4 * w) = none) ∧
    (∃ (s : State), s.stopped = [] ∧ s.integ.done = []) ∧
    (∃ (s : State) (f rest : _), s.stopped = [] ∧ s.integ.done = f :: rest ∧ Fld.RCS.INT_STAT_STATE s.regs = 1 ∧ s.integ.number % (Fld.RCS.INT_CFG_EVERY s.integ.cfg + 1) = 0 ∧ Fld.RCS.INT_CFG_SKIP_TAGGED s.integ.cfg = 1 ∧ f.record.tags % 8 ≠ 0 ∧ s.integ.stopping = false) ∧
    (∃ (s : State) (f rest : _), s.stopped = [] ∧ s.integ.done = f :: rest ∧ Fld.RCS.INT_STAT_STATE s.regs = 1 ∧ s.integ.number % (Fld.RCS.INT_CFG_EVERY s.integ.cfg + 1) ≠ 0 ∧ s.integ.stopping = false) ∧
    (∃ (s : State) (f rest : _), s.stopped = [] ∧ s.integ.done = f :: rest ∧ Fld.RCS.INT_STAT_STATE s.regs = 1 ∧ s.integ.number % (Fld.RCS.INT_CFG_EVERY s.integ.cfg + 1) = 0 ∧ Fld.RCS.INT_CFG_SKIP_TAGGED s.integ.cfg = 0) ∧
    (∃ (s : State), s.stopped = []) ∧
    (∃ (s : State), s.stopped = [] ∧ s.integ.taken + 1 < 2 ^ 16) ∧
    (∃ (s : State) (f : RcnFrame) (i : Nat), s.stopped = [] ∧ i ∈ s.integ.tiles ∧ i < ceilDiv f.width 256 * ceilDiv f.height 16) ∧
    (∃ (s : State) (acc : Int), s.stopped = [] ∧ -(2 ^ 31 : Int) ≤ acc ∧ acc < 2 ^ 31) ∧
    (∃ (s : State) (acc : Int), s.stopped = [] ∧ -(2 ^ 31 : Int) ≤ acc ∧ acc < 2 ^ 31 ∧ saturated acc = true) ∧
    (∃ (s : State) (acc x : Int), s.stopped = [] ∧ -(2 ^ 31 : Int) ≤ acc ∧ acc < 2 ^ 31 ∧ saturated acc = false ∧ -(2 ^ 31 : Int) ≤ acc + x ∧ acc + x < 2 ^ 31) ∧
    (∃ (s : State) (acc : Int) (n : Nat), s.stopped = [] ∧ 0 < n ∧ saturated acc = false) :=
  ⟨⟨State.reset, by decide +kernel⟩,
   ⟨(withFlow State.reset 0x131 []), by decide +kernel⟩,
   ⟨Raw.armedInt, _, _, rfl, rfl⟩,
   ⟨Raw.armedTrained, 0, ([] : RegFile), (4, 2, 12, false), by decide +kernel⟩,
   ⟨Raw.integRuns, _, (4, 2, 12, false), by decide +kernel, rfl, by decide +kernel⟩,
   ⟨State.reset, by decide +kernel⟩,
   ⟨Raw.integIdle, by decide +kernel⟩,
   ⟨Raw.integRuns, by decide +kernel⟩,
   ⟨Raw.averaging, _, _, _, _, by decide +kernel, rfl⟩,
   ⟨State.reset, by decide +kernel⟩,
   ⟨State.reset, by decide +kernel⟩,
   ⟨Raw.averaging, _, _, _, by decide +kernel, rfl⟩,
   ⟨Raw.integTakes, ([] : RegFile), 2, 4, 0, by decide +kernel⟩,
   ⟨State.reset, by decide +kernel⟩,
   ⟨Raw.integRuns, _, _, by decide +kernel, rfl, by decide +kernel⟩,
   ⟨Raw.integSkips, _, _, by decide +kernel, rfl, by decide +kernel⟩,
   ⟨Raw.integTakes, _, _, by decide +kernel, rfl, by decide +kernel⟩,
   ⟨State.reset, by decide +kernel⟩,
   ⟨State.reset, by decide +kernel⟩,
   ⟨Raw.armedInt, Raw.raw, 0, by decide +kernel⟩,
   ⟨State.reset, -2147483648, by decide +kernel⟩,
   ⟨State.reset, -2147483648, by decide +kernel⟩,
   ⟨State.reset, 2147483646, 0, by decide +kernel⟩,
   ⟨State.reset, 2147483646, 1, by decide +kernel⟩⟩

/-- States and operands that meet the premises of each clause of EboshRecording. -/
theorem witness_EboshRecording :
    (∃ (s : State) (n : Fin 4) (r w h k stride : _), s.stopped = [] ∧ (s.ebeOf n).running = true ∧ s.holding 0x14 = false ∧ (s.ebeOf n).open_ = none ∧ s.ebeQueue n = [.start r w h k] ∧ stride = strideOf (cwOf (Fld.EBE.ENC_CFG_CW s.regs n)) (s.ratio2 n) (tilesX w * tilesY h) ∧ (s.ebeOf n).geometry = some (w, h, stride) ∧ (s.ebeOf n).stopAt = none ∧ Fld.EBE.REC_STAT_STATE s.regs n = 0 ∧ (s.ebeOf n).frames = [] ∧ Fld.EBE.COMMIT_RESERVE s.regs n < (s.ebeOf n).ring.2 / stride) ∧
    (∃ (s : State) (n : Fin 4), s.stopped = [] ∧ (s.ebeOf n).running = false) ∧
    (∃ (s : State) (n : Fin 4) (w h stride : Nat), s.stopped = [] ∧ stride = strideOf (cwOf (Fld.EBE.ENC_CFG_CW s.regs n)) (s.ratio2 n) (tilesX w * tilesY h) ∧ (s.ebeOf n).geometry = some (w, h, stride) ∧ (s.ebeOf n).stopAt = none ∧ Fld.EBE.REC_STAT_STATE s.regs n = 0 ∧ (s.ebeOf n).starved = false ∧ (s.ebeOf n).ring.2 / stride ≤ Fld.EBE.COMMIT_RESERVE s.regs n) ∧
    (∃ (s : State) (n : Fin 4) (f u : _), s.stopped = [] ∧ (s.ebeOf n).open_ = some f ∧ f.complete = true ∧ f.unit = some u ∧ f.ratio2 ≠ 0 ∧ Fld.EBE.REC_STAT_STATE s.regs n = 0) ∧
    (∃ (s : State) (n : Fin 4) (f : _), s.stopped = [] ∧ (s.ebeOf n).open_ = some f ∧ f.complete = false) ∧
    (∃ (s : State) (n : Fin 4) (f unit : _), s.stopped = [] ∧ unit < 4096 ∧ (s.ebeOf n).open_ = some f) ∧
    (∃ (s : State) (n : Fin 4) (unit : _), s.stopped = [] ∧ unit < 4096 ∧ (s.ebeOf n).open_ = none) ∧
    (∃ (s : State) (n : Fin 4), (s.ebeOf n).running = false) ∧
    (∃ (s : State) (n : Fin 4), (s.ebeOf n).running = true ∧ Fld.EBE.REC_STAT_STATE s.regs n = 0) ∧
    (∃ (s : State) (n : Fin 4), (s.ebeOf n).running = true ∧ Fld.EBE.REC_STAT_STATE s.regs n = 0 ∧ serial 32 (Fld.EBE.REC_AT_COUNT s.regs n) (s.grp n).cnt = .earlier) ∧
    (∃ (s : State) (n : Fin 4), (s.ebeOf n).running = true ∧ Fld.EBE.REC_STAT_STATE s.regs n = 0 ∧ serial 32 (Fld.EBE.REC_AT_COUNT s.regs n) (s.grp n).cnt = .later) ∧
    (∃ (s : State) (n : Fin 4), (s.ebeOf n).running = true ∧ Fld.EBE.REC_STAT_STATE s.regs n = 1) ∧
    (∃ (s : State) (n : Fin 4), (s.ebeOf n).running = true ∧ Fld.EBE.REC_STAT_STATE s.regs n = 2 ∧ (s.ebeOf n).open_.isSome = true) :=
  ⟨(by refine ⟨Raw.ebeStarts, 0, _, _, _, _, _, ?_, ?_, ?_, ?_, rfl, rfl, ?_⟩ <;> decide +kernel),
   ⟨State.reset, 0, by decide +kernel⟩,
   ⟨Raw.ebeTiny, 0, 4, 16, _, by decide +kernel, rfl, by decide +kernel⟩,
   ⟨Raw.ebeOpen, 0, _, _, by decide +kernel, rfl, by decide +kernel, rfl, by decide +kernel⟩,
   ⟨Raw.ebeHalf, 0, _, by decide +kernel, rfl, by decide +kernel⟩,
   ⟨Raw.ebeOpen, 0, _, 4095, by decide +kernel, by decide +kernel, rfl⟩,
   ⟨State.reset, 0, 4095, by decide +kernel⟩,
   ⟨State.reset, 0, by decide +kernel⟩,
   ⟨Raw.ebeRuns, 0, by decide +kernel⟩,
   ⟨Raw.ebeLate, 0, by decide +kernel⟩,
   ⟨Raw.ebeAhead, 0, by decide +kernel⟩,
   ⟨Raw.ebeArmed, 0, by decide +kernel⟩,
   ⟨Raw.ebeRecords, 0, by decide +kernel⟩⟩

/-- States and operands that meet the premises of each clause of DecoderAndOrangeryFrames. -/
theorem witness_DecoderAndOrangeryFrames :
    (∃ (s : State), s.stopped = [] ∧ s.ebd.isSome = true) ∧
    (∃ (s : State), s.stopped = [] ∧ s.ebd = none ∧ s.enabled 0x15 = true ∧ s.hasFlow 0x150 = true ∧ Fld.EBD.PACE_NUM (s.regs.page 0x15) = 0) ∧
    (∃ (s : State), s.stopped = []) ∧
    (∃ (s : State) (j : _), s.stopped = [] ∧ s.ebd = some j ∧ s.orgInB = [] ∧ s.orgOpen 1 = false ∧ Fld.EBD.COUNT j.cfg ≤ j.n) ∧
    (∃ (s : State) (j : _) (reads : BadBeats), s.stopped = [] ∧ Instr.wellFormed (.decodeFrame reads) = true ∧ s.ebd = some j ∧ j.n < Fld.EBD.COUNT j.cfg ∧ s.holding 0x15 = false ∧ s.paceReached j = true ∧ headerGood (s.frameRead j.cfg (frameUnit j.cfg j.n) reads 0 4096).1 = false ∧ s.orgInB = []) ∧
    (∃ (s : State) (c : Fin 2), s.stopped = [] ∧ (s.orgOf c).frame = none) ∧
    (∃ (s : State) (c : Fin 2) (f : _), s.stopped = [] ∧ (s.orgOf c).frame = some f ∧ (f.complete = false ∨ f.ended = true)) ∧
    (∃ (s : State) (c : Fin 2) (f : _), s.stopped = [] ∧ (s.orgOf c).frame = some f ∧ f.complete = true ∧ f.ended = false ∧ f.record.count < 2 ^ 32) :=
  ⟨⟨Raw.plays, by decide +kernel⟩,
   ⟨Raw.mayPlay, by decide +kernel⟩,
   ⟨State.reset, by decide +kernel⟩,
   ⟨Raw.played, _, by decide +kernel, rfl, by decide +kernel⟩,
   ⟨Raw.plays, _, ([] : BadBeats), by decide +kernel, by decide +kernel, rfl, by decide +kernel⟩,
   ⟨State.reset, 0, by decide +kernel⟩,
   ⟨Raw.orgEnded, 1, _, by decide +kernel, rfl, by decide +kernel⟩,
   ⟨Raw.orgDone, 0, _, by decide +kernel, rfl, by decide +kernel⟩⟩

/-- States and operands that meet the premises of each clause of TableMemoryAccess. -/
theorem witness_TableMemoryAccess :
    (∃ (s : State), s.stopped = [] ∧ s.load = none) ∧
    (∃ (s : State), s.stopped = [] ∧ s.copyInUse (Fld.ORL.TBL_SEL_ID s.regs) (Fld.ORL.TBL_SEL_COPY s.regs) = true) ∧
    (∃ (s : State) (id copy i : _), s.stopped = [] ∧ Fld.ORL.TBL_SEL_ID s.regs = id ∧ Fld.ORL.TBL_SEL_COPY s.regs = copy ∧ Fld.ORL.TBL_ADDR s.regs = i ∧ s.copyInUse id copy = false ∧ s.copyLoading id copy = false ∧ i < imageWords id ∧ i ≠ 411937) ∧
    (∃ (s : State), s.stopped = [] ∧ s.load.isSome = true) ∧
    (∃ (s : State), s.stopped = [] ∧ s.load = none ∧ imageWords (Fld.ORL.TBL_SEL_ID s.regs) = 0) ∧
    (∃ (s : State), s.stopped = [] ∧ s.load = none ∧ s.copyInUse (Fld.ORL.TBL_SEL_ID s.regs) (Fld.ORL.TBL_SEL_COPY s.regs) = false ∧ imageWords (Fld.ORL.TBL_SEL_ID s.regs) ≠ 0) ∧
    (∃ (s : State) (read : _), s.stopped = [] ∧ s.load = none ∧ ((∀ u, read = some u → u < 4096))) ∧
    (∃ (s : State) (l : _), s.stopped = [] ∧ s.load = some l ∧ s.spanError (l.unit * 4096) (4 * imageWords l.id) = none) ∧
    (∃ (s : State) (l cause : _), s.stopped = [] ∧ cause < 4096 ∧ s.load = some l) :=
  ⟨⟨State.reset, by decide +kernel⟩,
   ⟨Raw.viewPart, by decide +kernel⟩,
   ⟨State.reset, _, _, _, by decide +kernel, rfl, rfl, rfl, by decide +kernel⟩,
   ⟨Raw.loads, by decide +kernel⟩,
   ⟨Raw.tableNone, by decide +kernel⟩,
   ⟨State.reset, by decide +kernel⟩,
   ⟨State.reset, none, by decide +kernel⟩,
   ⟨Raw.loads, _, by decide +kernel, rfl, by decide +kernel⟩,
   ⟨Raw.loads, _, 4095, by decide +kernel, by decide +kernel, rfl⟩⟩

/-- States and operands that meet the premises of each clause of ViewsAndParterre. -/
theorem witness_ViewsAndParterre :
    (∃ (s : State) (v : Fin 8), s.stopped = [] ∧ (s.view v).running = false) ∧
    (∃ (s : State) (v : Fin 8) (b : _), s.stopped = [] ∧ (s.view v).running = true ∧ (s.view v).paced = true ∧ s.newestOf (s.viewSrc v) = some b ∧ s.reached (slotTime (Fld.VW.PACE_START_LO s.regs v + 2 ^ 32 * Fld.VW.PACE_START_HI s.regs v) (Fld.VW.PACE_NUM s.regs v) (Fld.VW.PACE_DEN s.regs v) (s.view v).slot) = true) ∧
    (∃ (s : State) (v : Fin 8), s.stopped = [] ∧ (s.view v).starts = []) ∧
    (∃ (s : State) (v : Fin 8) (st rest b : _), s.stopped = [] ∧ (s.view v).starts = st :: rest ∧ (s.view v).frame = none ∧ s.holding (viewPage v) = false ∧ s.freeBuffer (viewSource v) (actNbuf (Fld.VW.NBUF s.regs v)) = some b) ∧
    (∃ (s : State) (v : Fin 8) (st rest : _), s.stopped = [] ∧ (s.view v).starts = st :: rest ∧ (s.view v).frame = none ∧ s.holding (viewPage v) = false ∧ s.freeBuffer (viewSource v) (actNbuf (Fld.VW.NBUF s.regs v)) = none) ∧
    (∃ (s : State) (v : Fin 8) (f b : _), s.stopped = [] ∧ (s.view v).frame = some f ∧ f.start.buffer = none ∧ f.start.whole = true ∧ f.target = some b) ∧
    (∃ (s : State) (v : Fin 8), s.stopped = [] ∧ (s.view v).frame = none) ∧
    (∃ (s : State) (v : Fin 8) (f : _), s.stopped = [] ∧ (s.view v).frame = some f ∧ f.start.whole = false) ∧
    (∃ (s : State), (s.enabled 0x1A = false ∨ s.hasFlow 0x1A0 = false)) ∧
    (∃ (s : State), s.enabled 0x1A = true ∧ s.hasFlow 0x1A0 = true ∧ serial 40 s.now (Fld.PAT.PAT_START_LO s.regs + 2 ^ 32 * Fld.PAT.PAT_START_HI s.regs) ≠ .ambiguous) ∧
    (∃ (s : State), s.parterre.running = false) ∧
    (∃ (s : State), s.parterre.running = true ∧ s.holding 0x1A = false ∧ s.viewsStalled 3 = false ∧ s.slotReached s.parterre.base (Fld.PAT.RATE_NUM s.regs) (Fld.PAT.RATE_DEN s.regs) s.parterre.n = true) :=
  ⟨⟨State.reset, 0, by decide +kernel⟩,
   (by refine ⟨Raw.paced, 0, _, ?_, ?_, ?_, rfl, ?_⟩ <;> decide +kernel),
   ⟨State.reset, 0, by decide +kernel⟩,
   ⟨Raw.viewStarts, 0, _, _, _, by decide +kernel, rfl, by decide +kernel, by decide +kernel, rfl⟩,
   ⟨Raw.viewFull, 0, _, _, by decide +kernel, rfl, by decide +kernel⟩,
   ⟨Raw.viewEnds, 0, _, _, by decide +kernel, rfl, by decide +kernel, by decide +kernel, rfl⟩,
   ⟨State.reset, 0, by decide +kernel⟩,
   ⟨Raw.viewPart, 0, _, by decide +kernel, rfl, by decide +kernel⟩,
   ⟨State.reset, by decide +kernel⟩,
   ⟨Raw.parterre, by decide +kernel⟩,
   ⟨State.reset, by decide +kernel⟩,
   ⟨Raw.parterreRuns, by decide +kernel⟩⟩

/-- States and operands that meet the premises of each clause of SessionsStartAndStop. -/
theorem witness_SessionsStartAndStop :
    (∃ (s : State) (n : Fin 32), (s.sesState n = 1 ∨ s.sesState n = 2 ∨ s.enabled 0x29 = false ∨ Fld.GLS.SES_CFG_EN s.regs n = 0)) ∧
    (∃ (s : State) (n : Fin 32), s.sesState n ≠ 1 ∧ s.sesState n ≠ 2 ∧ s.enabled 0x29 = true ∧ Fld.GLS.SES_CFG_EN s.regs n = 1 ∧ sesDecode s.regs n = false ∧ (s.sesGood n).1 = false) ∧
    (∃ (s : State) (n : Fin 32), s.sesState n ≠ 1 ∧ s.sesState n ≠ 2 ∧ s.enabled 0x29 = true ∧ Fld.GLS.SES_CFG_EN s.regs n = 1 ∧ sesDecode s.regs n = false ∧ (s.sesGood n).1 = true) ∧
    (∃ (s : State) (n : Fin 32), s.sesState n ≠ 1) ∧
    (∃ (s : State) (n : Fin 32), s.sesState n = 1 ∧ (s.ses n).started = true ∧ (s.ses n).stalled = []) ∧
    (∃ (s : State) (n : Fin 32), s.sesState n = 1 ∧ (s.ses n).started = false) ∧
    (∃ (s : State) (n : Fin 32), sesDecode s.regs n = false) ∧
    (∃ (s : State) (n : Fin 32), sesDecode s.regs n = true) ∧
    (∃ (s : State) (n : Fin 32), sesDecode s.regs n = true ∧ s.sesState n ≠ 1) ∧
    (∃ (s : State) (n : Fin 32) (v : Word) (h rd size : _), sesDecode s.regs n = true ∧ s.sesState n = 1 ∧ (s.ses n).pics = [] ∧ s.rd (Adr.GLS.RD_PTR n) = rd ∧ (s.ses n).ring = sesRing s.regs n ∧ s.ringBytes n = size ∧ size ≠ 0 ∧ s.ringLoad n rd 32 = (h, none) ∧ fieldOf h 0 4 = 0x55414C47 ∧ 32 + ceilDiv (fieldOf h 4 4) 32 * 32 ≤ (v.toNat + size - rd % size) % size) ∧
    (∃ (s : State) (n : Fin 32), (s.ses n).stalled = []) ∧
    (∃ (s : State) (n : Fin 32) (r rest : _), (s.ses n).stalled = r :: rest ∧ r.ring = (s.ses n).ring ∧ s.ringFree n < r.bytes.length) ∧
    (∃ (s : State) (n : Fin 32) (r : _), (s.ses n).stalled = [r] ∧ r.ring = (s.ses n).ring ∧ (r.bytes.length : Int) ≤ s.ringFree n) :=
  ⟨⟨State.reset, 0, by decide +kernel⟩,
   ⟨Pic.glsBad, 0, by decide +kernel⟩,
   ⟨Pic.glsGood, 0, by decide +kernel⟩,
   ⟨State.reset, 0, by decide +kernel⟩,
   ⟨Pic.glsReady2, 0, by decide +kernel⟩,
   ⟨Pic.glsRuns, 0, by decide +kernel⟩,
   ⟨State.reset, 0, by decide +kernel⟩,
   ⟨Pic.gdRuns, 0, by decide +kernel⟩,
   ⟨Pic.gdIdle, 0, by decide +kernel⟩,
   (by refine ⟨Pic.gdRing, 0, (64 : Word), _, 0, _, ?_, ?_, ?_, ?_, ?_, rfl, ?_, rfl, ?_⟩ <;> decide +kernel),
   ⟨State.reset, 0, by decide +kernel⟩,
   ⟨Pic.glsRingFull, 0, _, _, rfl, by decide +kernel⟩,
   ⟨Pic.glsResumes, 0, _, rfl, by decide +kernel⟩⟩

/-- States and operands that meet the premises of each clause of EnginesTakePictures. -/
theorem witness_EnginesTakePictures :
    (∃ (s : State) (n : Fin 32) (slot : Nat), s.stopped = [] ∧ slot = slotTime (sesStartTime s.regs n) (Fld.GLS.PACE_NUM s.regs n) (Fld.GLS.PACE_DEN s.regs n) (s.ses n).slot ∧ (s.sesState n ≠ 1 ∨ sesDecode s.regs n = true ∨ Fld.GLS.PACE_NUM s.regs n = 0 ∨ s.reached slot = false)) ∧
    (∃ (s : State) (n : Fin 32) (slot : Nat) (b : _), s.stopped = [] ∧ slot = slotTime (sesStartTime s.regs n) (Fld.GLS.PACE_NUM s.regs n) (Fld.GLS.PACE_DEN s.regs n) (s.ses n).slot ∧ s.sesState n = 1 ∧ sesDecode s.regs n = false ∧ Fld.GLS.PACE_NUM s.regs n ≠ 0 ∧ s.reached slot = true ∧ s.newestOf (viewSource (Fld.GLS.SRC_VIEW s.regs n)) = some b ∧ sesMatches s.regs n b = true) ∧
    (∃ (s : State) (n : Fin 32) (slot : Nat) (b : _), s.stopped = [] ∧ slot = slotTime (sesStartTime s.regs n) (Fld.GLS.PACE_NUM s.regs n) (Fld.GLS.PACE_DEN s.regs n) (s.ses n).slot ∧ s.sesState n = 1 ∧ sesDecode s.regs n = false ∧ Fld.GLS.PACE_NUM s.regs n ≠ 0 ∧ s.reached slot = true ∧ s.newestOf (viewSource (Fld.GLS.SRC_VIEW s.regs n)) = some b ∧ sesMatches s.regs n b = false) ∧
    (∃ (s : State) (n : Fin 32) (e : Fin 6) (slot : Nat), s.stopped = [] ∧ slot = slotTime (sesStartTime s.regs n) (Fld.GLS.PACE_NUM s.regs n) (Fld.GLS.PACE_DEN s.regs n) (s.ses n).slot ∧ (Fld.GLC.ENG_SES_VALID s.regs e = 1 ∨ s.readyFor e = [])) ∧
    (∃ (s : State) (n : Fin 32) (e : Fin 6) (slot : Nat) (k d p b : _), s.stopped = [] ∧ slot = slotTime (sesStartTime s.regs n) (Fld.GLS.PACE_NUM s.regs n) (Fld.GLS.PACE_DEN s.regs n) (s.ses n).slot ∧ Fld.GLC.ENG_SES_VALID s.regs e = 0 ∧ earliest (s.readyFor e) none = some (k, d) ∧ (s.ses k).itemOf e = some p ∧ p.target = some b) ∧
    (∃ (s : State) (n : Fin 32) (e : Fin 6) (slot : Nat) (k d p rest b : _), s.stopped = [] ∧ slot = slotTime (sesStartTime s.regs n) (Fld.GLS.PACE_NUM s.regs n) (Fld.GLS.PACE_DEN s.regs n) (s.ses n).slot ∧ Fld.GLC.ENG_SES_VALID s.regs e = 0 ∧ earliest (s.readyFor e) none = some (k, d) ∧ (s.ses k).pics = p :: rest ∧ p.waiting.contains e.val = true ∧ p.target = none ∧ (s.ses k).cmds = [] ∧ (s.sesBufs k).find? (fun b => (s.pool b).isFree) = some b) ∧
    (∃ (s : State) (n : Fin 32) (e : Fin 6) (slot : Nat) (k d p rest : _), s.stopped = [] ∧ slot = slotTime (sesStartTime s.regs n) (Fld.GLS.PACE_NUM s.regs n) (Fld.GLS.PACE_DEN s.regs n) (s.ses n).slot ∧ Fld.GLC.ENG_SES_VALID s.regs e = 0 ∧ earliest (s.readyFor e) none = some (k, d) ∧ (s.ses k).pics = p :: rest ∧ p.waiting.contains e.val = true ∧ p.target = none ∧ (s.ses k).cmds = [] ∧ (s.sesBufs k).find? (fun b => (s.pool b).isFree) = none) ∧
    (∃ (s : State) (n : Fin 32) (e : Fin 6) (slot : Nat) (k d : _), s.stopped = [] ∧ slot = slotTime (sesStartTime s.regs n) (Fld.GLS.PACE_NUM s.regs n) (Fld.GLS.PACE_DEN s.regs n) (s.ses n).slot ∧ (s.readyFor e).all (fun i => decide (i.2 < 2 ^ 39)) = true ∧ earliest (s.readyFor e) none = some (k, d)) ∧
    (∃ (s : State) (n : Fin 32) (slot : Nat), s.stopped = [] ∧ slot = slotTime (sesStartTime s.regs n) (Fld.GLS.PACE_NUM s.regs n) (Fld.GLS.PACE_DEN s.regs n) (s.ses n).slot ∧ (s.ses n).pics = []) ∧
    (∃ (s : State) (n : Fin 32) (slot : Nat) (p v b : _), s.stopped = [] ∧ slot = slotTime (sesStartTime s.regs n) (Fld.GLS.PACE_NUM s.regs n) (Fld.GLS.PACE_DEN s.regs n) (s.ses n).slot ∧ (s.ses n).pics.find? (fun p => p.target.isNone) = some p ∧ p.source = some (v, b) ∧ serial 40 s.now p.deadline ≠ .earlier) ∧
    (∃ (s : State) (n : Fin 32) (slot : Nat) (u : State), s.stopped = [] ∧ slot = slotTime (sesStartTime s.regs n) (Fld.GLS.PACE_NUM s.regs n) (Fld.GLS.PACE_DEN s.regs n) (s.ses n).slot ∧ u = s.applyHandles n ∧ (u.sesBufs n).any (fun b => (u.pool b).isFree) = true) ∧
    (∃ (s : State) (n : Fin 32) (slot : Nat) (u : State), s.stopped = [] ∧ slot = slotTime (sesStartTime s.regs n) (Fld.GLS.PACE_NUM s.regs n) (Fld.GLS.PACE_DEN s.regs n) (s.ses n).slot ∧ u = s.applyHandles n ∧ (u.sesBufs n).any (fun b => (u.pool b).isFree) = false) ∧
    (∃ (s : State) (n : Fin 32) (e : Fin 6) (slot : Nat), s.stopped = [] ∧ slot = slotTime (sesStartTime s.regs n) (Fld.GLS.PACE_NUM s.regs n) (Fld.GLS.PACE_DEN s.regs n) (s.ses n).slot ∧ Fld.GLC.ENG_SES_VALID s.regs e = 0) ∧
    (∃ (s : State) (n : Fin 32) (e : Fin 6) (slot : Nat) (p reads : _), s.stopped = [] ∧ slot = slotTime (sesStartTime s.regs n) (Fld.GLS.PACE_NUM s.regs n) (Fld.GLS.PACE_DEN s.regs n) (s.ses n).slot ∧ beatsOk reads = true ∧ Fld.GLC.ENG_SES_VALID s.regs e = 1 ∧ Fld.GLC.ENG_SES_SESSION s.regs e = n ∧ (s.ses n).pics.find? (fun p => p.running.contains e.val) = some p ∧ p.waiting ≠ []) ∧
    (∃ (s : State) (n : Fin 32) (e : Fin 6) (slot : Nat) (p rest b v f : _), s.stopped = [] ∧ slot = slotTime (sesStartTime s.regs n) (Fld.GLS.PACE_NUM s.regs n) (Fld.GLS.PACE_DEN s.regs n) (s.ses n).slot ∧ Fld.GLC.ENG_SES_VALID s.regs e = 1 ∧ Fld.GLC.ENG_SES_SESSION s.regs e = n ∧ (s.ses n).pics = p :: rest ∧ p.running = [e.val] ∧ p.waiting = [] ∧ p.target = some b ∧ p.source = some (v, f) ∧ s.sesState n = 1 ∧ ((∀ q ∈ rest, ¬ (q.slot = p.slot ∧ q.ringAt = p.ringAt ∧ q.source = p.source)))) :=
  ⟨⟨State.reset, 0, 0, by decide +kernel⟩,
   (by refine ⟨Pic.glsPaced, 0, 0, _, ?_, ?_, ?_, ?_, ?_, ?_, rfl, ?_⟩ <;> decide +kernel),
   (by refine ⟨Pic.glsMismatch, 0, 0, _, ?_, ?_, ?_, ?_, ?_, ?_, rfl, ?_⟩ <;> decide +kernel),
   ⟨State.reset, 0, 0, 0, by decide +kernel⟩,
   (by refine ⟨Pic.glsReady2, 0, 0, 0, _, _, _, _, ?_, ?_, ?_, rfl, rfl, rfl⟩ <;> decide +kernel),
   (by refine ⟨Pic.glsReady, 0, 0, 0, _, _, _, _, _, ?_, ?_, ?_, rfl, rfl, ?_, ?_, ?_, rfl⟩ <;> decide +kernel),
   (by refine ⟨Pic.glsFull, 0, 0, 0, _, _, _, _, ?_, ?_, ?_, rfl, rfl, ?_⟩ <;> decide +kernel),
   (by refine ⟨Pic.glsReady, 0, 0, 0, _, _, ?_, ?_, ?_, rfl⟩ <;> decide +kernel),
   ⟨State.reset, 0, 0, by decide +kernel⟩,
   ⟨Pic.glsLate, 0, 0, _, _, _, by decide +kernel, by decide +kernel, rfl, rfl, by decide +kernel⟩,
   ⟨Pic.glsGood, 0, 0, _, by decide +kernel, by decide +kernel, rfl, by decide +kernel⟩,
   ⟨State.reset, 0, 0, _, by decide +kernel, by decide +kernel, rfl, by decide +kernel⟩,
   ⟨State.reset, 0, 0, 0, by decide +kernel⟩,
   (by refine ⟨Pic.glsItem, 0, 0, _, _, [], ?_, rfl, ?_, ?_, ?_, rfl, ?_⟩ <;> decide +kernel),
   ⟨Pic.glsItemLast, 0, 0, _, _, _, _, _, _, by decide +kernel, rfl, by decide +kernel, by decide +kernel, rfl, by decide +kernel, by decide +kernel, rfl, rfl, by decide +kernel⟩⟩

/-- States and operands that meet the premises of each clause of PoolHandles. -/
theorem witness_PoolHandles :
    (∃ (s : State) (h : BitVec 16) (b gen : Nat), s.stopped = [] ∧ b = h.toNat % 64 ∧ gen = h.toNat / 256 ∧ (s.rd Adr.GLP.GEN + 256 - gen) % 256 < 128 ∧ (s.pool b).stamp ≠ gen) ∧
    (∃ (s : State) (h : BitVec 16) (b gen : Nat), s.stopped = [] ∧ b = h.toNat % 64 ∧ gen = h.toNat / 256 ∧ (s.rd Adr.GLP.GEN + 256 - gen) % 256 < 128 ∧ (s.pool b).stamp = gen ∧ (s.pool b).assigned = true ∧ sesDecode s.regs (s.pool b).session = false ∧ (s.pool b).mark = 1) ∧
    (∃ (s : State) (h : BitVec 16) (b gen : Nat), s.stopped = [] ∧ b = h.toNat % 64 ∧ gen = h.toNat / 256 ∧ (s.rd Adr.GLP.GEN + 256 - gen) % 256 < 128 ∧ (s.pool b).stamp = gen ∧ (s.pool b).mark ≠ 1) ∧
    (∃ (s : State) (h : BitVec 16) (b gen : Nat), s.stopped = [] ∧ b = h.toNat % 64 ∧ gen = h.toNat / 256 ∧ (s.rd Adr.GLP.GEN + 256 - gen) % 256 < 128 ∧ (s.pool b).stamp = gen ∧ (s.pool b).assigned = true ∧ (s.pool b).mark ≠ 0 ∧ s.inProgress b = false) ∧
    (∃ (s : State) (h : BitVec 16) (b gen : Nat), s.stopped = [] ∧ b = h.toNat % 64 ∧ gen = h.toNat / 256 ∧ (s.rd Adr.GLP.GEN + 256 - gen) % 256 < 128 ∧ (s.pool b).stamp = gen ∧ s.inProgress b = true) ∧
    (∃ (s : State) (h : BitVec 16) (b gen : Nat), s.stopped = [] ∧ b = h.toNat % 64 ∧ gen = h.toNat / 256 ∧ (s.rd Adr.GLP.GEN + 256 - gen) % 256 < 128 ∧ (s.pool b).stamp = gen ∧ (s.pool b).assigned = true ∧ (s.pool b).outputPending = true ∧ Fld.GLS.SES_CFG_OUT_TO_VIEW s.regs (s.pool b).session = 0) ∧
    (∃ (s : State) (h : BitVec 16) (b gen : Nat), s.stopped = [] ∧ b = h.toNat % 64 ∧ gen = h.toNat / 256 ∧ (s.rd Adr.GLP.GEN + 256 - gen) % 256 < 128 ∧ (s.pool b).stamp = gen ∧ (s.pool b).outputPending = false) ∧
    (∃ (s : State) (h : BitVec 16) (b gen : Nat), s.stopped = [] ∧ b = h.toNat % 64 ∧ gen = h.toNat / 256 ∧ (s.rd Adr.GLP.GEN + 256 - gen) % 256 < 128) ∧
    (∃ (s : State) (h : BitVec 16) (b gen : Nat) (n : Fin 32) (o addr : _), s.stopped = [] ∧ b = h.toNat % 64 ∧ gen = h.toNat / 256 ∧ (s.rd Adr.GLP.GEN + 256 - gen) % 256 < 128 ∧ sesDecode s.regs n = true ∧ s.sesState n = 1 ∧ (s.ses n).outQueue = [o] ∧ s.bumps n o = true ∧ Fld.GLS.PACE_NUM s.regs n = 0 ∧ addr = Fld.GLP.DESC_UNIT s.regs * 4096 + 64 * o.buffer) ∧
    (∃ (s : State) (h : BitVec 16) (b gen : Nat) (n : Fin 32), s.stopped = [] ∧ b = h.toNat % 64 ∧ gen = h.toNat / 256 ∧ (s.rd Adr.GLP.GEN + 256 - gen) % 256 < 128 ∧ (s.ses n).outQueue = []) ∧
    (∃ (s : State) (h : BitVec 16) (b gen : Nat) (n : Fin 32) (o : _), s.stopped = [] ∧ b = h.toNat % 64 ∧ gen = h.toNat / 256 ∧ (s.rd Adr.GLP.GEN + 256 - gen) % 256 < 128 ∧ firstOut (s.ses n).outQueue = some o ∧ s.bumps n o = false) ∧
    (∃ (s : State) (h : BitVec 16) (b gen : Nat) (l : List OutPicture) (o : _), s.stopped = [] ∧ b = h.toNat % 64 ∧ gen = h.toNat / 256 ∧ (s.rd Adr.GLP.GEN + 256 - gen) % 256 < 128 ∧ firstOut l = some o) :=
  ⟨⟨State.reset, 0xFF00, _, _, by decide +kernel, rfl, rfl, by decide +kernel⟩,
   ⟨Pic.glsGood, 1, _, _, by decide +kernel, rfl, rfl, by decide +kernel⟩,
   ⟨State.reset, 0, _, _, by decide +kernel, rfl, rfl, by decide +kernel⟩,
   ⟨Pic.glsGood, 1, _, _, by decide +kernel, rfl, rfl, by decide +kernel⟩,
   ⟨Pic.glsReady2, 1, _, _, by decide +kernel, rfl, rfl, by decide +kernel⟩,
   ⟨Pic.poolMarked, 1, _, _, by decide +kernel, rfl, rfl, by decide +kernel⟩,
   ⟨State.reset, 0, _, _, by decide +kernel, rfl, rfl, by decide +kernel⟩,
   ⟨State.reset, 0, _, _, by decide +kernel, rfl, rfl, by decide +kernel⟩,
   (by refine ⟨Pic.gdOut, 0, _, _, 0, _, _, ?_, rfl, rfl, ?_, ?_, ?_, rfl, ?_, ?_, rfl⟩ <;> decide +kernel),
   ⟨State.reset, 0, _, _, 0, by decide +kernel, rfl, rfl, by decide +kernel⟩,
   ⟨Pic.gdKeeps, 0, _, _, 0, _, by decide +kernel, rfl, rfl, by decide +kernel, rfl, by decide +kernel⟩,
   ⟨State.reset, 0, _, _, [Pic.outPic, { Pic.outPic with order := (0, 3) }], _, by decide +kernel, rfl, rfl, by decide +kernel, rfl⟩⟩

/-- States and operands that meet the premises of each clause of MemberDrives. -/
theorem witness_MemberDrives :
    (∃ (s : State) (m : Fin 32), s.stopped = [] ∧ s.memState m ≠ 0) ∧
    (∃ (s : State) (m : Fin 32), s.stopped = [] ∧ s.memState m = 0) ∧
    (∃ (s : State) (m : Fin 32), s.stopped = [] ∧ s.memState m ≠ 1) ∧
    (∃ (s : State) (m : Fin 32), s.stopped = [] ∧ s.memState m = 1 ∧ (s.member m).stage = .running) ∧
    (∃ (s : State) (m : Fin 32), s.stopped = [] ∧ s.memState m = 1 ∧ (s.member m).stage = .done ∧ (s.member m).formatOk = true ∧ ((s.member m).mdts = 0 ∨ 65536 ≤ (s.member m).mdts)) ∧
    (∃ (s : State) (m : Fin 32), s.stopped = [] ∧ s.memState m = 1 ∧ (s.member m).stage = .done ∧ ((s.member m).formatOk = false ∨ (s.member m).mdts ≠ 0 ∧ (s.member m).mdts < 65536)) ∧
    (∃ (s : State) (m : Fin 32), s.stopped = [] ∧ s.memState m = 1 ∧ (s.member m).stage = .failed) ∧
    (∃ (s : State) (m : Fin 32), s.stopped = [] ∧ s.memState m = 1) ∧
    (∃ (s : State) (m : Fin 32) (cid c k : _), s.stopped = [] ∧ cid < 2 ^ 16 ∧ s.memState m = 1 ∧ (s.issuedTo m).find? (fun c => c.cid == cid) = some c ∧ c.purpose = .init ∧ c.op = .identifyController ∧ fieldOf (s.dramRead (c.units.headD 0 * 4096) 4096) 77 1 = k) ∧
    (∃ (s : State) (m : Fin 32) (cid c : _), s.stopped = [] ∧ cid < 2 ^ 16 ∧ s.memState m = 1 ∧ (s.issuedTo m).find? (fun c => c.cid == cid) = some c ∧ c.purpose = .init ∧ c.op = .identifyNamespace) ∧
    (∃ (s : State) (m : Fin 32) (cid c : _), s.stopped = [] ∧ cid < 2 ^ 16 ∧ s.memState m = 1 ∧ s.blocksWait = false ∧ (s.issuedTo m).find? (fun c => c.cid == cid) = some c ∧ c.purpose = .init ∧ c.op = .setQueues 1) ∧
    (∃ (s : State) (m : Fin 32) (cid c k : _), s.stopped = [] ∧ cid < 2 ^ 16 ∧ s.memState m = 1 ∧ (s.issuedTo m).find? (fun c => c.cid == cid) = some c ∧ c.purpose = .init ∧ c.op = .createSq k) ∧
    (∃ (s : State) (m : Fin 32), s.stopped = [] ∧ s.memState m = 4) ∧
    (∃ (s : State) (m : Fin 32), s.stopped = [] ∧ s.memState m = 3) ∧
    (∃ (s : State) (m : Fin 32), s.stopped = [] ∧ s.memState m ≠ 3 ∧ s.memState m ≠ 4) ∧
    (∃ (s : State) (m : Fin 32) (cid : _), s.stopped = [] ∧ cid < 2 ^ 16 ∧ ((s.issuedTo m).find? (fun c => c.cid == cid) = none ∨ s.memState m = 4)) ∧
    (∃ (s : State) (m : Fin 32) (cid c : _), s.stopped = [] ∧ cid < 2 ^ 16 ∧ s.memState m = 2 ∧ (s.issuedTo m).find? (fun c => c.cid == cid) = some c ∧ c.purpose ≠ .remove) ∧
    (∃ (s : State) (m : Fin 32) (cid c : _), s.stopped = [] ∧ cid < 2 ^ 16 ∧ s.memState m = 2 ∧ (s.issuedTo m).find? (fun c => c.cid == cid) = some c ∧ c.retries < Fld.BTM.RETRY s.regs m) ∧
    (∃ (s : State) (m : Fin 32) (cid c dnr : _), s.stopped = [] ∧ cid < 2 ^ 16 ∧ s.memState m = 2 ∧ (s.issuedTo m).find? (fun c => c.cid == cid) = some c ∧ (dnr = true ∨ Fld.BTM.RETRY s.regs m ≤ c.retries)) ∧
    (∃ (s : State) (m : Fin 32), s.stopped = [] ∧ s.memState m = 2 ∧ s.issuedTo m ≠ []) ∧
    (∃ (s : State) (m : Fin 32), s.stopped = [] ∧ s.memState m = 3 ∧ s.issuedTo m ≠ []) ∧
    (∃ (s : State) (m : Fin 32), s.stopped = [] ∧ (s.memState m < 2 ∨ s.issuedTo m = [])) ∧
    (∃ (s : State), s.stopped = []) ∧
    (∃ (s : State) (m : Fin 32) (p : Fin 8) (unit c : _) (data : List Byte), s.stopped = [] ∧ unit < 2 ^ 24 ∧ data.length ≤ 4096 ∧ Fld.BTM.MEM_CFG_PORT s.regs m = p ∧ c ∈ s.issuedTo m ∧ unit ∈ c.units ∧ c.op.isWrite = true) ∧
    (∃ (s : State) (m : Fin 32) (p : Fin 8) (unit c : _) (data : List Byte), s.stopped = [] ∧ unit < 2 ^ 24 ∧ data.length ≤ 4096 ∧ Fld.BTM.MEM_CFG_PORT s.regs m = p ∧ c ∈ s.issuedTo m ∧ unit ∈ c.units ∧ c.op.isWrite = false) ∧
    (∃ (s : State) (m : Fin 32) (p : Fin 8) (unit isWrite : _) (data : List Byte), s.stopped = [] ∧ unit < 2 ^ 24 ∧ data.length ≤ 4096 ∧ ((∀ k c, k < 32 → Fld.BTM.MEM_CFG_PORT s.regs k = p → c ∈ s.issuedTo k → unit ∈ c.units → c.op.isWrite = isWrite)) ∧ s.memState m ≠ 0) :=
  ⟨⟨Ses.memInit, 0, by decide +kernel⟩,
   ⟨State.reset, 0, by decide +kernel⟩,
   ⟨State.reset, 0, by decide +kernel⟩,
   ⟨Ses.memInit, 0, by decide +kernel⟩,
   ⟨Ses.memDone, 0, by decide +kernel⟩,
   ⟨Ses.memSmall, 0, by decide +kernel⟩,
   ⟨Ses.memStepBad, 0, by decide +kernel⟩,
   ⟨Ses.memInit, 0, by decide +kernel⟩,
   (by refine ⟨Ses.memInit, 0, 3, _, _, ?_, ?_, ?_, rfl, ?_, ?_, rfl⟩ <;> decide +kernel),
   (by refine ⟨Ses.memInit2, 0, 3, _, ?_, ?_, ?_, rfl, ?_⟩ <;> decide +kernel),
   (by refine ⟨Ses.memQueues, 0, 3, _, ?_, ?_, ?_, ?_, rfl, ?_⟩ <;> decide +kernel),
   (by refine ⟨Ses.memInit3, 0, 3, _, _, ?_, ?_, ?_, rfl, ?_, rfl⟩ <;> decide +kernel),
   ⟨Ses.memGone, 0, by decide +kernel⟩,
   ⟨Ses.memBadBusy, 0, by decide +kernel⟩,
   ⟨State.reset, 0, by decide +kernel⟩,
   ⟨State.reset, 0, 3, by decide +kernel⟩,
   (by refine ⟨Ses.memUp, 0, 3, _, ?_, ?_, ?_, rfl, ?_⟩ <;> decide +kernel),
   (by refine ⟨Ses.memUp, 0, 3, _, ?_, ?_, ?_, rfl, ?_⟩ <;> decide +kernel),
   (by refine ⟨Ses.memUp, 0, 3, _, true, ?_, ?_, ?_, rfl, ?_⟩ <;> decide +kernel),
   ⟨Ses.memUp, 0, by decide +kernel⟩,
   ⟨Ses.memBadBusy, 0, by decide +kernel⟩,
   ⟨State.reset, 0, by decide +kernel⟩,
   ⟨State.reset, by decide +kernel⟩,
   ⟨Ses.memBadBusy, 0, 0, 7, Ses.cmd .fetch, (List.replicate 4096 (5 : Byte)), by decide +kernel⟩,
   ⟨Ses.memRead, 0, 0, 7, { Ses.cmd .fetch with op := .read }, (List.replicate 4096 (5 : Byte)), by decide +kernel⟩,
   ⟨Ses.memBad, 0, 1, 7, true, [], by decide +kernel, by decide, by decide, fun k c _ _ h => by
      simp [State.issuedTo, show Ses.memBad.member k = memberReset from rfl, memberReset] at h, by decide +kernel⟩⟩

/-- States and operands that meet the premises of each clause of VolumesChangeState. -/
theorem witness_VolumesChangeState :
    (∃ (s : State) (v : Fin 16), s.stopped = [] ∧ s.volState v ≠ 0) ∧
    (∃ (s : State) (v : Fin 16), s.stopped = [] ∧ s.volState v = 0 ∧ s.volWait v = .none ∧ (s.setFld (Adr.BTH.VOL_CFG v) 0 1 1).volConfigGood v = true) ∧
    (∃ (s : State) (v : Fin 16), s.stopped = [] ∧ s.volState v = 0 ∧ s.volWait v = .none ∧ (s.setFld (Adr.BTH.VOL_CFG v) 0 1 1).volConfigGood v = false) ∧
    (∃ (s : State) (v : Fin 16) (label : List Byte), s.stopped = [] ∧ label.length = 4096 ∧ s.volWait v = .label ∧ s.labelGood v label = true) ∧
    (∃ (s : State) (v : Fin 16) (label : List Byte), s.stopped = [] ∧ label.length = 4096 ∧ s.volWait v = .label ∧ s.labelGood v label = false) ∧
    (∃ (s : State) (v : Fin 16) (label : List Byte), s.stopped = [] ∧ label.length = 4096 ∧ s.volWait v ≠ .label) ∧
    (∃ (s : State) (v : Fin 16), s.stopped = [] ∧ s.volState v ≠ 0 ∧ ((∀ l, s.volWait v ≠ .disable l)) ∧ ((∀ c, c ∈ s.ofc.cmds → c.sq = 0 ∨ c.cmd.nsid ≠ v + 1))) ∧
    (∃ (s : State) (v : Fin 16) (l : List Nat), s.stopped = [] ∧ s.volState v ≠ 0 ∧ ((∀ k, s.volWait v ≠ .disable k)) ∧ ((∀ c, c ∈ s.ofc.cmds → c.issued = true)) ∧ l = (s.ofc.cmds.filter (fun c => c.sq != 0 && c.cmd.nsid == v.val + 1)).map (·.tag) ∧ l ≠ []) ∧
    (∃ (s : State) (v : Fin 16), s.stopped = [] ∧ (s.volState v = 1 ∨ s.volState v = 5) ∧ s.volWait v = .none ∧ s.hostWrites v = true) ∧
    (∃ (s : State) (v : Fin 16), s.stopped = [] ∧ (s.volState v = 1 ∨ s.volState v = 5) ∧ s.volWait v = .none ∧ s.hostWrites v = false ∧ ((∀ m, m ∈ s.volMembers v → s.memberBad m = false))) ∧
    (∃ (s : State) (v : Fin 16), s.stopped = [] ∧ s.volState v ≠ 1 ∧ s.volState v ≠ 5) ∧
    (∃ (s : State) (v : Fin 16), s.stopped = [] ∧ s.volWait v = .format) ∧
    (∃ (s : State) (v : Fin 16), s.stopped = [] ∧ s.volWait v ≠ .format) ∧
    (∃ (s : State) (v : Fin 16), s.stopped = [] ∧ s.volState v = 1 ∧ s.volWait v = .none ∧ s.hostWrites v = true) ∧
    (∃ (s : State) (v : Fin 16), s.stopped = [] ∧ s.volState v = 1 ∧ s.volWait v = .none ∧ s.hostWrites v = false ∧ ((∀ m, m ∈ s.volMembers v → s.memberBad m = false))) ∧
    (∃ (s : State) (v : Fin 16), s.stopped = [] ∧ s.volState v = 5) ∧
    (∃ (s : State) (v : Fin 16) (l : List (List Byte)), s.stopped = [] ∧ s.volWait v = .open ∧ ((∀ m, m ∈ s.volMembers v → s.memberBad m = false)) ∧ l.all (fun b => b.length == 4096) = true ∧ s.journalTail v l = none) ∧
    (∃ (s : State) (v : Fin 16) (l : List (List Byte)) (k : JournalTail), s.stopped = [] ∧ s.volWait v = .open ∧ ((∀ m, m ∈ s.volMembers v → s.memberBad m = false)) ∧ l.all (fun b => b.length == 4096) = true ∧ s.journalTail v l = some k ∧ k.hasEnd = true) ∧
    (∃ (s : State) (v : Fin 16) (l : List (List Byte)) (k : JournalTail), s.stopped = [] ∧ s.volWait v = .open ∧ ((∀ m, m ∈ s.volMembers v → s.memberBad m = false)) ∧ l.all (fun b => b.length == 4096) = true ∧ s.journalTail v l = some k ∧ k.hasEnd = false ∧ (scanSpan k).2 ≠ 0 ∧ (scanSpan k).1 + (scanSpan k).2 ≤ s.volBytes v) ∧
    (∃ (s : State) (v : Fin 16) (l : List (List Byte)) (data : List Byte) (k q : JournalTail), s.stopped = [] ∧ s.volWait v = .forward k ∧ ((∀ m, m ∈ s.volMembers v → s.memberBad m = false)) ∧ l.all (fun b => b.length == 4096) = true ∧ (if k.kind = 0 then s.scanFrame data k else s.scanRecord data k) = some q ∧ (scanSpan q).2 ≠ 0 ∧ (scanSpan q).1 + (scanSpan q).2 ≤ s.volBytes v) ∧
    (∃ (s : State) (v : Fin 16) (l : List (List Byte)) (data : List Byte) (k : JournalTail), s.stopped = [] ∧ s.volWait v = .forward k ∧ ((∀ m, m ∈ s.volMembers v → s.memberBad m = false)) ∧ l.all (fun b => b.length == 4096) = true ∧ (if k.kind = 0 then s.scanFrame data k else s.scanRecord data k) = none ∧ k.hasEnd = false) ∧
    (∃ (s : State), s.stopped = []) ∧
    (∃ (s : State) (v : Fin 16) (l : List (List Byte)) (k : JournalTail), s.stopped = [] ∧ s.journalTail v l = some k) ∧
    (∃ (s : State) (v : Fin 16) (l : List (List Byte)), s.stopped = [] ∧ l.all (fun b => b.length == 4096) = true ∧ s.volWait v ≠ .open ∧ ((∀ k, s.volWait v ≠ .forward k))) ∧
    (∃ (s : State) (v : Fin 16), s.stopped = [] ∧ s.volState v = 3 ∧ ((∀ c, c < 8 → s.chState c = 0))) ∧
    (∃ (s : State) (v : Fin 16) (c tk : _), s.stopped = [] ∧ c < 8 ∧ s.chState c ≠ 0 ∧ (s.recChan c).take = some tk ∧ tk.vol = v) ∧
    (∃ (s : State), s.stopped = [] ∧ Fld.BTH.FETCH_STAT_BUSY s.regs = 1) ∧
    (∃ (s : State) (v : Fin 16), s.stopped = [] ∧ Fld.BTH.FETCH_STAT_BUSY s.regs = 0 ∧ Fld.BTH.FETCH_VOL s.regs = v ∧ (s.volState v = 1 ∨ s.volState v = 3)) ∧
    (∃ (s : State) (v : Fin 16), s.stopped = [] ∧ Fld.BTH.FETCH_STAT_BUSY s.regs = 0 ∧ Fld.BTH.FETCH_VOL s.regs = v ∧ s.volState v ≠ 1 ∧ s.volState v ≠ 3) ∧
    (∃ (s : State) (f : _), s.stopped = [] ∧ s.bth.fetch = some f ∧ f.issued = false) ∧
    (∃ (s : State) (f : _), s.stopped = [] ∧ s.bth.fetch = some f ∧ f.issued = true) :=
  ⟨⟨Ses.volClosed, 0, by decide +kernel⟩,
   ⟨Ses.volGood, 0, by decide +kernel⟩,
   ⟨Ses.volConfigBad, 0, by decide +kernel⟩,
   ⟨Ses.volLabel, 0, (Ses.volLabel.labelBytes 0 77), by decide +kernel⟩,
   ⟨Ses.volLabel, 0, (List.replicate 4096 0), by decide +kernel⟩,
   ⟨State.reset, 0, (List.replicate 4096 0), by decide +kernel⟩,
   ⟨Ses.volClosed, 0, by decide +kernel, by decide +kernel, (fun _ h => by cases (show VolWait.none = _ from h)), by decide +kernel⟩,
   ⟨Ses.volWrites, 0, _, by decide +kernel, by decide +kernel, (fun _ h => by cases (show VolWait.none = _ from h)), by decide +kernel, rfl, by decide +kernel⟩,
   ⟨Ses.volWrites, 0, by decide +kernel⟩,
   ⟨Ses.volClosed, 0, by decide +kernel⟩,
   ⟨State.reset, 0, by decide +kernel⟩,
   ⟨Ses.volFormats, 0, by decide +kernel⟩,
   ⟨State.reset, 0, by decide +kernel⟩,
   ⟨Ses.volWrites, 0, by decide +kernel⟩,
   ⟨Ses.volClosed, 0, by decide +kernel⟩,
   ⟨Ses.volBad, 0, by decide +kernel⟩,
   ⟨Ses.volOpens, 0, [List.replicate 4096 0], by decide +kernel⟩,
   (by refine ⟨Ses.volOpens, 0, Ses.ended, (Ses.volOpens.journalTail 0 Ses.ended).get (by decide +kernel), ?_, ?_, ?_, ?_, (Option.some_get _).symm, ?_⟩ <;> decide +kernel),
   (by refine ⟨Ses.volOpens, 0, Ses.openTake, (Ses.volOpens.journalTail 0 Ses.openTake).get (by decide +kernel), ?_, ?_, ?_, ?_, (Option.some_get _).symm, ?_⟩ <;> decide +kernel),
   ⟨Ses.volScans, 0, [], Ses.record, Ses.tail 1, (Ses.volScans.scanRecord Ses.record (Ses.tail 1)).get (by decide +kernel), by decide +kernel, rfl, by decide +kernel, by decide +kernel, (Option.some_get (x := Ses.volScans.scanRecord Ses.record (Ses.tail 1)) _).symm, by decide +kernel⟩,
   ⟨Ses.volScans, 0, [], [], Ses.tail 1, by decide +kernel, rfl, by decide +kernel⟩,
   ⟨State.reset, by decide +kernel⟩,
   ⟨Ses.volOpens, 0, Ses.openTake, (Ses.volOpens.journalTail 0 Ses.openTake).get (by decide +kernel), by decide +kernel, (Option.some_get _).symm⟩,
   ⟨State.reset, 0, [], rfl, rfl, by decide, fun k h => by cases (show VolWait.none = _ from h)⟩,
   ⟨Ses.volOpen, 0, by decide +kernel⟩,
   (by refine ⟨Ses.chRecords, 0, 0, _, ?_, ?_, ?_, rfl, ?_⟩ <;> decide +kernel),
   ⟨Ses.fetchRuns, by decide +kernel⟩,
   ⟨Ses.volClosed, 0, by decide +kernel⟩,
   ⟨State.reset, 0, by decide +kernel⟩,
   ⟨Ses.fetchHeld, _, by decide +kernel, rfl, by decide +kernel⟩,
   ⟨Ses.fetchRuns, _, by decide +kernel, rfl, by decide +kernel⟩⟩

/-- States and operands that meet the premises of each clause of ChannelsTakeAndRelease. -/
theorem witness_ChannelsTakeAndRelease :
    (∃ (s : State) (c : Fin 8) (v : Nat), v = Fld.BTH.CH_CFG_VOL s.regs c ∧ (s.chState c ≠ 0 ∨ s.isCodec c = false ∨ Fld.BTH.CH_CFG_EN s.regs c = 0 ∨ s.enabled 0x30 = false)) ∧
    (∃ (s : State) (c : Fin 8) (v : Nat), v = Fld.BTH.CH_CFG_VOL s.regs c ∧ s.chState c = 0 ∧ s.isCodec c = true ∧ Fld.BTH.CH_CFG_EN s.regs c = 1 ∧ s.enabled 0x30 = true ∧ s.volState v = 3 ∧ s.volumeTaken c v = false ∧ s.chanAdmitted c v = true ∧ s.nextSeq v + 2 ≤ s.slots v) ∧
    (∃ (s : State) (c : Fin 8) (v : Nat), v = Fld.BTH.CH_CFG_VOL s.regs c ∧ s.chState c = 0 ∧ s.isCodec c = true ∧ Fld.BTH.CH_CFG_EN s.regs c = 1 ∧ s.enabled 0x30 = true ∧ s.volState v ≠ 3) ∧
    (∃ (s : State) (c : Fin 8) (v : Nat), v = Fld.BTH.CH_CFG_VOL s.regs c ∧ s.chState c = 0 ∧ s.isCodec c = true ∧ Fld.BTH.CH_CFG_EN s.regs c = 1 ∧ s.enabled 0x30 = true ∧ s.volState v = 3 ∧ s.volumeTaken c v = false ∧ s.chanAdmitted c v = false) ∧
    (∃ (s : State) (c : Fin 8) (v : Nat), v = Fld.BTH.CH_CFG_VOL s.regs c ∧ s.chState c = 1 ∧ s.isCodec c = true) ∧
    (∃ (s : State) (c : Fin 8) (v : Nat), v = Fld.BTH.CH_CFG_VOL s.regs c ∧ s.chState c ≠ 1) ∧
    (∃ (s : State) (c : Fin 8) (v : Nat), v = Fld.BTH.CH_CFG_VOL s.regs c ∧ s.chState c ≠ 3) ∧
    (∃ (s : State) (c : Fin 8) (v : Nat) (k : _), v = Fld.BTH.CH_CFG_VOL s.regs c ∧ s.chState c = 3 ∧ s.volState v = 3 ∧ s.volumeTaken c v = false ∧ s.chanAdmitted c v = true ∧ s.nextSeq v + 2 ≤ s.slots v ∧ (s.recChan c).take = some k ∧ (s.recChan c).held = [] ∧ (s.recChan c).srcEnded = false) ∧
    (∃ (s : State) (c : Fin 8) (v : Nat), v = Fld.BTH.CH_CFG_VOL s.regs c ∧ s.chState c = 3 ∧ (s.recChan c).later = [] ∧ ((∀ k, (s.recChan c).take = some k → k.vol < 16))) ∧
    (∃ (s : State) (c : Fin 8) (v : Nat), v = Fld.BTH.CH_CFG_VOL s.regs c ∧ (s.chState c = 0 ∨ s.chState c = 3)) ∧
    (∃ (s : State) (c : Fin 8) (v : Nat) (k q : _), v = Fld.BTH.CH_CFG_VOL s.regs c ∧ (s.chState c = 1 ∨ s.chState c = 2) ∧ (s.recChan c).take = some k ∧ k.startSeq = some q ∧ (s.recChan c).items.all (fun i => !i.pass) = true ∧ s.outstanding (fun u => decide (u = .journal k.vol q)) = false) ∧
    (∃ (s : State) (c : Fin 8) (v : Nat) (i : _), v = Fld.BTH.CH_CFG_VOL s.regs c ∧ s.chState c = 2 ∧ s.isCodec c = true ∧ (s.recChan c).take.isSome = true ∧ (s.recChan c).items = [i] ∧ i.pass = true) ∧
    (∃ (s : State) (c : Fin 8) (v : Nat), v = Fld.BTH.CH_CFG_VOL s.regs c) ∧
    (∃ (s : State) (c : Fin 8) (v : Nat), v = Fld.BTH.CH_CFG_VOL s.regs c ∧ s.chState c ≠ 2) ∧
    (∃ (s : State) (c : Fin 8) (v : Nat) (k : _), v = Fld.BTH.CH_CFG_VOL s.regs c ∧ s.chState c = 2 ∧ (s.recChan c).items = [] ∧ (s.recChan c).take = some k ∧ k.vol < 16 ∧ (s.recChan c).later = []) ∧
    (∃ (s : State) (c : Fin 8) (v : Nat), v = Fld.BTH.CH_CFG_VOL s.regs c ∧ (s.recChan c).take = none) ∧
    (∃ (s : State) (c : Fin 8) (v : Nat) (k : _), v = Fld.BTH.CH_CFG_VOL s.regs c ∧ s.chState c = 1 ∧ (s.recChan c).take = some k ∧ k.first.isSome = true ∧ s.nextSeq k.vol + 1 < s.slots k.vol) :=
  ⟨⟨State.reset, 0, _, rfl, by decide +kernel⟩,
   ⟨Ses.codec, 0, _, rfl, by decide +kernel⟩,
   ⟨Ses.codecClosed, 0, _, rfl, by decide +kernel⟩,
   ⟨Ses.codecRefused, 0, _, rfl, by decide +kernel⟩,
   ⟨Ses.codecRuns, 0, _, rfl, by decide +kernel⟩,
   ⟨State.reset, 0, _, rfl, by decide +kernel⟩,
   ⟨State.reset, 0, _, rfl, by decide +kernel⟩,
   (by refine ⟨Ses.chHaltedBare, 0, _, _, rfl, ?_, ?_, ?_, ?_, ?_, rfl, ?_⟩ <;> decide +kernel),
   ⟨Ses.chHalted, 0, _, rfl, by decide +kernel⟩,
   ⟨State.reset, 0, _, rfl, by decide +kernel⟩,
   ⟨Ses.chRecords, 0, _, _, _, rfl, by decide +kernel, rfl, rfl, by decide +kernel⟩,
   (by refine ⟨Ses.codecPass, 0, _, _, rfl, ?_, ?_, ?_, rfl, ?_⟩ <;> decide +kernel),
   ⟨State.reset, 0, _, rfl⟩,
   ⟨State.reset, 0, _, rfl, by decide +kernel⟩,
   ⟨Ses.chDrained, 0, _, _, rfl, by decide +kernel, by decide +kernel, rfl, by decide +kernel⟩,
   ⟨State.reset, 0, _, rfl, by decide +kernel⟩,
   ⟨Ses.chRecords, 0, _, _, rfl, by decide +kernel, rfl, by decide +kernel⟩⟩

/-- States and operands that meet the premises of each clause of HostCommands. -/
theorem witness_HostCommands :
    (∃ (s : State) (q cid : Nat) (c : HostCmd), s.stopped = [] ∧ q ≤ 512 ∧ cid < 2 ^ 16 ∧ s.ofc.cmds.find? (fun c => c.sq == q && c.cmd.cid == cid && !opcodeKnown q c.cmd.opcode) = some c) ∧
    (∃ (s : State) (q cid n v o : Nat) (c : HostCmd) (r : _), s.stopped = [] ∧ q ≤ 512 ∧ cid < 2 ^ 16 ∧ n = c.cmd.cdw12 % 2 ^ 16 + 1 ∧ v = c.cmd.nsid - 1 ∧ o = firstLba c.cmd c.sq * 4096 ∧ s.ioCmd q cid 0x02 = some c ∧ c.refused = some r) ∧
    (∃ (s : State) (q cid n v o : Nat) (c : HostCmd) (r : _), s.stopped = [] ∧ q ≤ 512 ∧ cid < 2 ^ 16 ∧ n = c.cmd.cdw12 % 2 ^ 16 + 1 ∧ v = c.cmd.nsid - 1 ∧ o = firstLba c.cmd c.sq * 4096 ∧ s.ioCmd q cid 0x01 = some c ∧ c.refused = some r) ∧
    (∃ (s : State) (q cid n v o : Nat) (c : HostCmd) (m : _), s.stopped = [] ∧ q ≤ 512 ∧ cid < 2 ^ 16 ∧ n = c.cmd.cdw12 % 2 ^ 16 + 1 ∧ v = c.cmd.nsid - 1 ∧ o = firstLba c.cmd c.sq * 4096 ∧ s.ioCmd q cid 0x02 = some c ∧ c.refused = none ∧ c.issued = false ∧ s.earlierWaits c = false ∧ s.badBehind v (n + 1) o (n * 4096) = some m) ∧
    (∃ (s : State) (q cid n v o : Nat) (c : HostCmd) (m : _), s.stopped = [] ∧ q ≤ 512 ∧ cid < 2 ^ 16 ∧ n = c.cmd.cdw12 % 2 ^ 16 + 1 ∧ v = c.cmd.nsid - 1 ∧ o = firstLba c.cmd c.sq * 4096 ∧ s.ioCmd q cid 0x01 = some c ∧ c.refused = none ∧ c.issued = false ∧ s.earlierWaits c = false ∧ s.badBehind v (n + 1) o (n * 4096) = some m) ∧
    (∃ (s : State) (q cid n v o : Nat) (c : HostCmd) (us : _), s.stopped = [] ∧ q ≤ 512 ∧ cid < 2 ^ 16 ∧ n = c.cmd.cdw12 % 2 ^ 16 + 1 ∧ v = c.cmd.nsid - 1 ∧ o = firstLba c.cmd c.sq * 4096 ∧ s.ioCmd q cid 0x02 = some c ∧ c.refused = none ∧ c.issued = false ∧ s.earlierWaits c = false ∧ s.badBehind v (n + 1) o (n * 4096) = none ∧ (s.allocStaging n).1 = some us) ∧
    (∃ (s : State) (q cid n v o : Nat) (c : HostCmd) (us : _), s.stopped = [] ∧ q ≤ 512 ∧ cid < 2 ^ 16 ∧ n = c.cmd.cdw12 % 2 ^ 16 + 1 ∧ v = c.cmd.nsid - 1 ∧ o = firstLba c.cmd c.sq * 4096 ∧ s.ioCmd q cid 0x01 = some c ∧ c.refused = none ∧ c.issued = false ∧ s.earlierWaits c = false ∧ s.badBehind v (n + 1) o (n * 4096) = none ∧ (s.allocStaging n).1 = some us ∧ (s.stageData (c.cmd.data.take (n * 4096)) us).2 = none) ∧
    (∃ (s : State) (q cid n v o : Nat) (c : HostCmd), s.stopped = [] ∧ q ≤ 512 ∧ cid < 2 ^ 16 ∧ n = c.cmd.cdw12 % 2 ^ 16 + 1 ∧ v = c.cmd.nsid - 1 ∧ o = firstLba c.cmd c.sq * 4096 ∧ s.ioCmd q cid 0x00 = some c ∧ c.refused = none) ∧
    (∃ (s : State) (q cid n v o : Nat) (c : HostCmd) (r : _), s.stopped = [] ∧ q ≤ 512 ∧ cid < 2 ^ 16 ∧ n = c.cmd.cdw12 % 2 ^ 16 + 1 ∧ v = c.cmd.nsid - 1 ∧ o = firstLba c.cmd c.sq * 4096 ∧ s.ioCmd q cid 0x00 = some c ∧ c.refused = some r) ∧
    (∃ (s : State) (q cid n v o : Nat) (c : HostCmd), s.stopped = [] ∧ q ≤ 512 ∧ cid < 2 ^ 16 ∧ n = c.cmd.cdw12 % 2 ^ 16 + 1 ∧ v = c.cmd.nsid - 1 ∧ o = firstLba c.cmd c.sq * 4096 ∧ s.ioCmd q cid 0x00 = none) ∧
    (∃ (s : State) (q cid n v o : Nat) (c : HostCmd), s.stopped = [] ∧ q ≤ 512 ∧ cid < 2 ^ 16 ∧ n = c.cmd.cdw12 % 2 ^ 16 + 1 ∧ v = c.cmd.nsid - 1 ∧ o = firstLba c.cmd c.sq * 4096 ∧ s.ioCmd q cid 0x09 = some c ∧ c.refused = none ∧ c.cmd.cdw11 / 4 % 2 = 0) ∧
    (∃ (s : State) (q cid n v o : Nat) (c : HostCmd) (k : _), s.stopped = [] ∧ q ≤ 512 ∧ cid < 2 ^ 16 ∧ n = c.cmd.cdw12 % 2 ^ 16 + 1 ∧ v = c.cmd.nsid - 1 ∧ o = firstLba c.cmd c.sq * 4096 ∧ s.ioCmd q cid 0x09 = some c ∧ c.refused = none ∧ c.cmd.cdw11 / 4 % 2 = 1 ∧ k ≤ c.cmd.cdw10 % 256 ∧ s.nsze v < fieldOf c.cmd.data (16 * k + 8) 8 + fieldOf c.cmd.data (16 * k + 4) 4) ∧
    (∃ (s : State) (q cid n v o : Nat) (c : HostCmd) (unit : _), s.stopped = [] ∧ q ≤ 512 ∧ cid < 2 ^ 16 ∧ n = c.cmd.cdw12 % 2 ^ 16 + 1 ∧ v = c.cmd.nsid - 1 ∧ o = firstLba c.cmd c.sq * 4096 ∧ unit < 4096 ∧ s.ofc.cmds.find? (fun c => c.sq == q && c.cmd.cid == cid && c.issued) = some c) ∧
    (∃ (s : State) (q cid n v o : Nat) (c : HostCmd) (m a : _), s.stopped = [] ∧ q ≤ 512 ∧ cid < 2 ^ 16 ∧ n = c.cmd.cdw12 % 2 ^ 16 + 1 ∧ v = c.cmd.nsid - 1 ∧ o = firstLba c.cmd c.sq * 4096 ∧ s.ofc.cmds.find? (fun c => c.sq == q && c.cmd.cid == cid && c.issued) = some c ∧ s.hostFailure c.tag = some (m, a)) ∧
    (∃ (s : State) (q cid n v o : Nat) (c : HostCmd), s.stopped = [] ∧ q ≤ 512 ∧ cid < 2 ^ 16 ∧ n = c.cmd.cdw12 % 2 ^ 16 + 1 ∧ v = c.cmd.nsid - 1 ∧ o = firstLba c.cmd c.sq * 4096 ∧ s.ofc.cmds.find? (fun c => c.sq == q && c.cmd.cid == cid && c.issued) = some c ∧ s.hostFailure c.tag = none ∧ s.outstanding (isHostOf [c.tag]) = false ∧ c.cmd.opcode = 1) ∧
    (∃ (s : State) (q cid n v o : Nat) (c : HostCmd), s.stopped = [] ∧ q ≤ 512 ∧ cid < 2 ^ 16 ∧ n = c.cmd.cdw12 % 2 ^ 16 + 1 ∧ v = c.cmd.nsid - 1 ∧ o = firstLba c.cmd c.sq * 4096 ∧ s.ofc.cmds.find? (fun c => c.sq == q && c.cmd.cid == cid && c.issued) = some c ∧ s.hostFailure c.tag = none ∧ s.outstanding (isHostOf [c.tag]) = false ∧ c.cmd.opcode = 2 ∧ c.units.all (fun u => (s.spanError (u * 4096) 4096).isNone) = true ∧ s.queueFlow q = none) ∧
    (∃ (s : State) (q cid n v o : Nat) (c : HostCmd) (i : _), s.stopped = [] ∧ q ≤ 512 ∧ cid < 2 ^ 16 ∧ n = c.cmd.cdw12 % 2 ^ 16 + 1 ∧ v = c.cmd.nsid - 1 ∧ o = firstLba c.cmd c.sq * 4096 ∧ s.ofc.cmds.find? (fun c => c.sq == q && c.cmd.cid == cid && c.issued) = some c ∧ s.hostFailure c.tag = none ∧ s.outstanding (isHostOf [c.tag]) = false ∧ c.cmd.opcode = 2 ∧ c.units.all (fun u => (s.spanError (u * 4096) 4096).isNone) = true ∧ s.queueFlow q = some i) ∧
    (∃ (s : State) (q cid n v o : Nat) (c : HostCmd), s.stopped = [] ∧ q ≤ 512 ∧ cid < 2 ^ 16 ∧ n = c.cmd.cdw12 % 2 ^ 16 + 1 ∧ v = c.cmd.nsid - 1 ∧ o = firstLba c.cmd c.sq * 4096 ∧ s.ofc.cmds.find? (fun c => c.sq == q && c.cmd.cid == cid && c.issued) = some c ∧ s.hostFailure c.tag = none ∧ s.outstanding (isHostOf [c.tag]) = true) ∧
    (∃ (s : State) (q cid n v o : Nat) (c : HostCmd) (d : NvmeCmd), s.stopped = [] ∧ q ≤ 512 ∧ cid < 2 ^ 16 ∧ n = c.cmd.cdw12 % 2 ^ 16 + 1 ∧ v = c.cmd.nsid - 1 ∧ o = firstLba c.cmd c.sq * 4096 ∧ (d.opcode = 0 ∨ d.opcode = 1 ∨ d.opcode = 2 ∨ d.opcode = 9) ∧ 1 ≤ d.nsid ∧ d.nsid ≤ 16 ∧ s.volState (d.nsid - 1) = 0) ∧
    (∃ (s : State) (q cid n v o : Nat) (c : HostCmd) (d : NvmeCmd), s.stopped = [] ∧ q ≤ 512 ∧ cid < 2 ^ 16 ∧ n = c.cmd.cdw12 % 2 ^ 16 + 1 ∧ v = c.cmd.nsid - 1 ∧ o = firstLba c.cmd c.sq * 4096 ∧ (d.opcode = 0 ∨ d.opcode = 1 ∨ d.opcode = 2 ∨ d.opcode = 9) ∧ 1 ≤ d.nsid ∧ d.nsid ≤ 16 ∧ s.volState (d.nsid - 1) = 1 ∧ s.namespaceGranted q d.nsid (d.opcode == 1) = false) ∧
    (∃ (s : State) (q cid n v o : Nat) (c : HostCmd) (d : NvmeCmd), s.stopped = [] ∧ q ≤ 512 ∧ cid < 2 ^ 16 ∧ n = c.cmd.cdw12 % 2 ^ 16 + 1 ∧ v = c.cmd.nsid - 1 ∧ o = firstLba c.cmd c.sq * 4096 ∧ (d.opcode = 0 ∨ d.opcode = 1 ∨ d.opcode = 2 ∨ d.opcode = 9) ∧ 1 ≤ d.nsid ∧ d.nsid ≤ 16 ∧ (s.volState (d.nsid - 1) = 2 ∨ s.volState (d.nsid - 1) = 3) ∧ d.opcode = 1) :=
  ⟨(by refine ⟨Bth.hostUnknown, 1, 3, _, ?_, ?_, ?_, rfl⟩ <;> decide +kernel),
   (by refine ⟨Bth.hostReadsRefused, 1, 3, _, _, _, _, _, ?_, ?_, ?_, rfl, rfl, rfl, rfl, rfl⟩ <;> decide +kernel),
   (by refine ⟨Bth.hostWritesRefused, 1, 3, _, _, _, _, _, ?_, ?_, ?_, rfl, rfl, rfl, rfl, rfl⟩ <;> decide +kernel),
   (by refine ⟨Bth.hostReadsLost, 1, 3, _, _, _, _, _, ?_, ?_, ?_, rfl, rfl, rfl, rfl, ?_, ?_, ?_, rfl⟩ <;> decide +kernel),
   (by refine ⟨Bth.hostWritesLost, 1, 3, _, _, _, _, _, ?_, ?_, ?_, rfl, rfl, rfl, rfl, ?_, ?_, ?_, rfl⟩ <;> decide +kernel),
   (by refine ⟨Bth.hostReads, 1, 3, _, _, _, _, _, ?_, ?_, ?_, rfl, rfl, rfl, rfl, ?_, ?_, ?_, ?_, rfl⟩ <;> decide +kernel),
   (by refine ⟨Bth.hostWritesOne, 1, 3, _, _, _, _, [0 + ((Config.freeWord 0).toNat + 0) % 256], ?_, ?_, ?_, rfl, rfl, rfl, rfl, ?_, ?_, ?_, ?_, rfl, by
      have h : ∀ r, r < 256 → Bth.hostWritesOne.spanError ((0 + r) * 4096) 4096 = none := by decide +kernel
      show Option.or (Bth.hostWritesOne.spanError ((0 + ((Config.freeWord 0).toNat + 0) % 256) * 4096) 4096) none = none
      rw [h _ (Nat.mod_lt _ (by decide))]; rfl⟩ <;> decide +kernel),
   (by refine ⟨Bth.hostFlushWild, 1, 3, _, _, _, _, ?_, ?_, ?_, rfl, rfl, rfl, rfl, ?_⟩ <;> decide +kernel),
   (by refine ⟨Bth.flushRefused, 1, 3, _, _, _, _, _, ?_, ?_, ?_, rfl, rfl, rfl, rfl, rfl⟩ <;> decide +kernel),
   (by refine ⟨State.reset, 0, 3, _, _, _, Bth.host 1 (Bth.nvme 0 0 0 0 1), ?_, ?_, ?_, rfl, rfl, rfl, ?_⟩ <;> decide +kernel),
   (by refine ⟨Bth.hostTrim, 1, 3, _, _, _, _, ?_, ?_, ?_, rfl, rfl, rfl, rfl, ?_⟩ <;> decide +kernel),
   (by refine ⟨Bth.hostTrimRange, 1, 3, _, _, _, _, 0, ?_, ?_, ?_, rfl, rfl, rfl, rfl, ?_⟩ <;> decide +kernel),
   (by refine ⟨Bth.hostReadIssued, 1, 3, _, _, _, _, 0x480, ?_, ?_, ?_, rfl, rfl, rfl, ?_, rfl⟩ <;> decide +kernel),
   (by refine ⟨Bth.hostFailed, 1, 3, _, _, _, _, _, _, ?_, ?_, ?_, rfl, rfl, rfl, rfl, rfl⟩ <;> decide +kernel),
   (by refine ⟨Bth.hostWriteIssued, 1, 3, _, _, _, _, ?_, ?_, ?_, rfl, rfl, rfl, rfl, ?_⟩ <;> decide +kernel),
   (by refine ⟨Bth.hostReadIssued, 1, 3, _, _, _, _, ?_, ?_, ?_, rfl, rfl, rfl, rfl, ?_⟩ <;> decide +kernel),
   (by refine ⟨Bth.hostMetered, 1, 3, _, _, _, _, _, ?_, ?_, ?_, rfl, rfl, rfl, rfl, ?_, ?_, ?_, ?_, rfl⟩ <;> decide +kernel),
   (by refine ⟨Bth.hostWaits, 1, 3, _, _, _, _, ?_, ?_, ?_, rfl, rfl, rfl, rfl, ?_⟩ <;> decide +kernel),
   ⟨State.reset, 0, 3, _, _, _, Bth.host 1 (Bth.nvme 0 0 0 0 1), Bth.nvme 2 0 0 0 1, by decide +kernel, by decide, by decide, rfl, rfl, rfl, by decide +kernel⟩,
   ⟨Bth.ofcRuns, 0, 3, _, _, _, Bth.host 1 (Bth.nvme 0 0 0 0 1), Bth.nvme 2 0 0 0 1, by decide +kernel, by decide, by decide, rfl, rfl, rfl, by decide +kernel⟩,
   ⟨Bth.volOpen0, 0, 3, _, _, _, Bth.host 1 (Bth.nvme 0 0 0 0 1), Bth.nvme 1 0 0 0 1, by decide +kernel, by decide, by decide, rfl, rfl, rfl, by decide +kernel⟩⟩

/-- States and operands that meet the premises of each clause of ControllerRuns. -/
theorem witness_ControllerRuns :
    (∃ (s : State) (a k : _), s.stopped = [] ∧ 0 < a ∧ a ≤ 4096 ∧ 0 < k ∧ k ≤ 4096 ∧ s.ofc.enabled = false ∧ s.ofc.ready = false ∧ s.hasFlow 0x340 = true) ∧
    (∃ (s : State) (a k : _), s.stopped = [] ∧ 0 < a ∧ a ≤ 4096 ∧ 0 < k ∧ k ≤ 4096 ∧ s.ofc.enabled = false ∧ s.ofc.ready = false ∧ s.hasFlow 0x340 = false) ∧
    (∃ (s : State), s.stopped = [] ∧ s.ofc.enabled = true) ∧
    (∃ (s : State), s.stopped = [] ∧ s.ofc.enabled = false) ∧
    (∃ (s : State), s.stopped = [] ∧ s.ofc.enabled = false ∧ s.runs (isHostOf s.ofc.draining) = false) ∧
    (∃ (s : State), s.stopped = [] ∧ (s.ofc.enabled = true ∨ s.runs (isHostOf s.ofc.draining) = true)) ∧
    (∃ (s : State) (n : Fin 4), s.stopped = [] ∧ n ≠ 0 ∧ s.ofc.shst ≠ 2) ∧
    (∃ (s : State), s.stopped = []) ∧
    (∃ (s : State), s.stopped = [] ∧ s.ofc.shst = 1 ∧ s.ofc.cmds = []) ∧
    (∃ (s : State), s.stopped = [] ∧ s.ofc.shst ≠ 1) ∧
    (∃ (s : State) (q tail x : _), s.stopped = [] ∧ q ≤ 512 ∧ tail < 2 ^ 16 ∧ s.ofc.ready = true ∧ s.sq q = some x ∧ tail < x.size) ∧
    (∃ (s : State) (q x : _), s.stopped = [] ∧ q ≤ 512 ∧ x < 2 ^ 16 ∧ s.ofc.ready = false) ∧
    (∃ (s : State) (q head x : _), s.stopped = [] ∧ q ≤ 512 ∧ head < 2 ^ 16 ∧ s.ofc.ready = true ∧ s.cq q = some x ∧ head < x.size ∧ s.ofc.posts = []) ∧
    (∃ (s : State) (l : List NvmeCmd), s.stopped = [] ∧ ((∀ c, c ∈ l → c.wellFormed = true)) ∧ (s.ofc.ready = false ∨ s.ofc.enabled = false ∨ s.holding 0x34 = true)) ∧
    (∃ (s : State) (l : List NvmeCmd) (q u x n : _), s.stopped = [] ∧ ((∀ c, c ∈ l → c.wellFormed = true)) ∧ s.ofc.ready = true ∧ s.ofc.enabled = true ∧ s.holding 0x34 = false ∧ (s.ofc.cmds.filter (fun c => c.sq != 0)).length < 8192 ∧ s.selectQueue = (some q, u) ∧ u.sq q = some x ∧ n = min (min (min (if bits (s.feature 1) 0 3 = 7 then 4096 else 2 ^ bits (s.feature 1) 0 3) x.waiting) (8192 - (s.ofc.cmds.filter (fun c => c.sq != 0)).length)) l.length) ∧
    (∃ (s : State) (l : List NvmeCmd) (u : _), s.stopped = [] ∧ ((∀ c, c ∈ l → c.wellFormed = true)) ∧ s.ofc.ready = true ∧ s.ofc.enabled = true ∧ s.holding 0x34 = false ∧ (s.ofc.cmds.filter (fun c => c.sq != 0)).length < 8192 ∧ s.selectQueue = (none, u)) ∧
    (∃ (s : State) (e : _), s.stopped = [] ∧ fieldOf s.ofc.apst (8 * s.ofc.ps) 8 = e ∧ s.ofc.ready = true ∧ s.feature 0x0C = 1 ∧ s.ofc.cmds = [] ∧ ((∀ x, x ∈ s.ofc.sqs → x.2.waiting = 0)) ∧ bits e 8 24 ≠ 0 ∧ s.ofc.idleFrom + bits e 8 24 * 1000000 ≤ s.elapsed ∧ bits e 3 5 ≤ 2) ∧
    (∃ (s : State), s.stopped = [] ∧ s.ofc.cmds ≠ []) :=
  ⟨⟨Bth.ofcOff, 2, 2, by decide +kernel⟩,
   ⟨State.reset, 2, 2, by decide +kernel⟩,
   ⟨Bth.ofcRuns, by decide +kernel⟩,
   ⟨State.reset, by decide +kernel⟩,
   ⟨State.reset, by decide +kernel⟩,
   ⟨Bth.ofcRuns, by decide +kernel⟩,
   ⟨State.reset, (1 : Fin 4), by decide +kernel⟩,
   ⟨State.reset, by decide +kernel⟩,
   ⟨Bth.ofcShuts, by decide +kernel⟩,
   ⟨State.reset, by decide +kernel⟩,
   (by refine ⟨Bth.ofcRuns, 0, 0, _, ?_, ?_, ?_, ?_, rfl, ?_⟩ <;> decide +kernel),
   ⟨State.reset, 0, 0, by decide +kernel⟩,
   (by refine ⟨Bth.ofcRuns, 0, 0, _, ?_, ?_, ?_, ?_, rfl, ?_⟩ <;> decide +kernel),
   ⟨State.reset, [], by decide +kernel⟩,
   (by refine ⟨Bth.ofcRuns, [], _, _, _, _, ?_, ?_, ?_, ?_, ?_, ?_, rfl, rfl, rfl⟩ <;> decide +kernel),
   (by refine ⟨Bth.ofcIdle, [], _, ?_, ?_, ?_, ?_, ?_, ?_, rfl⟩ <;> decide +kernel),
   ⟨Bth.ofcIdle, _, by decide +kernel, rfl, by decide +kernel⟩,
   ⟨Bth.hostUnknown, by decide +kernel⟩⟩

/-- States and operands that meet the premises of each clause of AdminCommands. -/
theorem witness_AdminCommands :
    (∃ (s : State) (cid q size : Nat) (c : HostCmd), s.stopped = [] ∧ cid < 2 ^ 16 ∧ q = c.cmd.cdw10 % 2 ^ 16 ∧ size = c.cmd.cdw10 / 2 ^ 16 % 2 ^ 16 + 1 ∧ s.adminCmd cid 0x01 = some c ∧ 0 < q ∧ q ≤ 512 ∧ s.sq q = none ∧ c.cmd.cdw11 % 2 = 1 ∧ 2 ≤ size ∧ size ≤ 4096 ∧ c.cmd.cdw11 / 2 ^ 16 % 2 ^ 16 ≠ 0 ∧ (s.cq (c.cmd.cdw11 / 2 ^ 16 % 2 ^ 16)).isSome = true) ∧
    (∃ (s : State) (cid q size : Nat) (c : HostCmd), s.stopped = [] ∧ cid < 2 ^ 16 ∧ q = c.cmd.cdw10 % 2 ^ 16 ∧ size = c.cmd.cdw10 / 2 ^ 16 % 2 ^ 16 + 1 ∧ s.adminCmd cid 0x01 = some c ∧ (q = 0 ∨ 512 < q ∨ (s.sq q).isSome = true)) ∧
    (∃ (s : State) (cid q size : Nat) (c : HostCmd), s.stopped = [] ∧ cid < 2 ^ 16 ∧ q = c.cmd.cdw10 % 2 ^ 16 ∧ size = c.cmd.cdw10 / 2 ^ 16 % 2 ^ 16 + 1 ∧ s.adminCmd cid 0x05 = some c ∧ 0 < q ∧ q ≤ 512 ∧ s.cq q = none ∧ c.cmd.cdw11 % 2 = 1 ∧ 2 ≤ size ∧ size ≤ 4096 ∧ c.cmd.cdw11 / 2 ^ 16 % 2 ^ 16 ≤ 63) ∧
    (∃ (s : State) (cid q size : Nat) (c : HostCmd), s.stopped = [] ∧ cid < 2 ^ 16 ∧ q = c.cmd.cdw10 % 2 ^ 16 ∧ size = c.cmd.cdw10 / 2 ^ 16 % 2 ^ 16 + 1 ∧ s.adminCmd cid 0x05 = some c ∧ (q = 0 ∨ 512 < q ∨ (s.cq q).isSome = true)) ∧
    (∃ (s : State) (cid q size : Nat) (c : HostCmd), s.stopped = [] ∧ cid < 2 ^ 16 ∧ q = c.cmd.cdw10 % 2 ^ 16 ∧ size = c.cmd.cdw10 / 2 ^ 16 % 2 ^ 16 + 1 ∧ s.adminCmd cid 0x00 = some c ∧ s.ofc.deleting.any (fun d => d.cid == cid) = false ∧ q ≠ 0 ∧ (s.sq q).isSome = true) ∧
    (∃ (s : State) (cid q size : Nat) (c : HostCmd), s.stopped = [] ∧ cid < 2 ^ 16 ∧ q = c.cmd.cdw10 % 2 ^ 16 ∧ size = c.cmd.cdw10 / 2 ^ 16 % 2 ^ 16 + 1 ∧ s.adminCmd cid 0x00 = some c ∧ s.ofc.deleting.any (fun d => d.cid == cid) = false ∧ (q = 0 ∨ s.sq q = none)) ∧
    (∃ (s : State) (cid q size : Nat) (c : HostCmd) (d : _), s.stopped = [] ∧ cid < 2 ^ 16 ∧ q = c.cmd.cdw10 % 2 ^ 16 ∧ size = c.cmd.cdw10 / 2 ^ 16 % 2 ^ 16 + 1 ∧ s.ofc.deleting.find? (fun d => d.cid == cid) = some d ∧ s.adminCmd cid 0x00 = some c ∧ s.runs (isHostOf d.tags) = false) ∧
    (∃ (s : State) (cid q size : Nat) (c : HostCmd), s.stopped = [] ∧ cid < 2 ^ 16 ∧ q = c.cmd.cdw10 % 2 ^ 16 ∧ size = c.cmd.cdw10 / 2 ^ 16 % 2 ^ 16 + 1 ∧ s.adminCmd cid 0x04 = some c ∧ q ≠ 0 ∧ (s.cq q).isSome = true ∧ ((∀ e, e ∈ s.ofc.sqs → e.2.cq ≠ q))) ∧
    (∃ (s : State) (cid q size : Nat) (c : HostCmd) (e : _), s.stopped = [] ∧ cid < 2 ^ 16 ∧ q = c.cmd.cdw10 % 2 ^ 16 ∧ size = c.cmd.cdw10 / 2 ^ 16 % 2 ^ 16 + 1 ∧ s.adminCmd cid 0x04 = some c ∧ q ≠ 0 ∧ (s.cq q).isSome = true ∧ e ∈ s.ofc.sqs ∧ e.2.cq = q) ∧
    (∃ (s : State) (cid q size : Nat) (c : HostCmd), s.stopped = [] ∧ cid < 2 ^ 16 ∧ q = c.cmd.cdw10 % 2 ^ 16 ∧ size = c.cmd.cdw10 / 2 ^ 16 % 2 ^ 16 + 1 ∧ s.adminCmd cid 0x02 = some c ∧ c.cmd.cdw10 % 256 = 0xC0 ∧ bits c.cmd.cdw10 16 12 = 15) ∧
    (∃ (s : State) (cid q size : Nat) (c : HostCmd), s.stopped = [] ∧ cid < 2 ^ 16 ∧ q = c.cmd.cdw10 % 2 ^ 16 ∧ size = c.cmd.cdw10 / 2 ^ 16 % 2 ^ 16 + 1 ∧ s.adminCmd cid 0x02 = some c ∧ c.cmd.cdw10 % 256 ≠ 1 ∧ c.cmd.cdw10 % 256 ≠ 2 ∧ c.cmd.cdw10 % 256 ≠ 0xC0) ∧
    (∃ (s : State) (cid q size : Nat) (c : HostCmd), s.stopped = [] ∧ cid < 2 ^ 16 ∧ q = c.cmd.cdw10 % 2 ^ 16 ∧ size = c.cmd.cdw10 / 2 ^ 16 % 2 ^ 16 + 1 ∧ s.adminCmd cid 0x06 = some c ∧ c.cmd.cdw10 % 256 = 0 ∧ 1 ≤ c.cmd.nsid ∧ c.cmd.nsid ≤ 16 ∧ s.namespaceGranted 0 c.cmd.nsid false = true) ∧
    (∃ (s : State) (cid q size : Nat) (c : HostCmd), s.stopped = [] ∧ cid < 2 ^ 16 ∧ q = c.cmd.cdw10 % 2 ^ 16 ∧ size = c.cmd.cdw10 / 2 ^ 16 % 2 ^ 16 + 1 ∧ s.adminCmd cid 0x06 = some c ∧ c.cmd.cdw10 % 256 = 0 ∧ 1 ≤ c.cmd.nsid ∧ c.cmd.nsid ≤ 16 ∧ s.namespaceGranted 0 c.cmd.nsid false = false) ∧
    (∃ (s : State) (cid q size : Nat) (c : HostCmd), s.stopped = [] ∧ cid < 2 ^ 16 ∧ q = c.cmd.cdw10 % 2 ^ 16 ∧ size = c.cmd.cdw10 / 2 ^ 16 % 2 ^ 16 + 1 ∧ s.adminCmd cid 0x09 = some c ∧ (c.cmd.cdw10 % 256 = 1 ∨ c.cmd.cdw10 % 256 = 8 ∨ c.cmd.cdw10 % 256 = 10) ∧ bitOf c.cmd.cdw10 31 = false) ∧
    (∃ (s : State) (cid q size : Nat) (c : HostCmd), s.stopped = [] ∧ cid < 2 ^ 16 ∧ q = c.cmd.cdw10 % 2 ^ 16 ∧ size = c.cmd.cdw10 / 2 ^ 16 % 2 ^ 16 + 1 ∧ s.adminCmd cid 0x09 = some c ∧ c.cmd.cdw10 % 256 = 7 ∧ bitOf c.cmd.cdw10 31 = false ∧ s.ofc.queueMade = true) ∧
    (∃ (s : State) (cid q size : Nat) (c : HostCmd), s.stopped = [] ∧ cid < 2 ^ 16 ∧ q = c.cmd.cdw10 % 2 ^ 16 ∧ size = c.cmd.cdw10 / 2 ^ 16 % 2 ^ 16 + 1 ∧ s.adminCmd cid 0x0A = some c ∧ (c.cmd.cdw10 % 256 = 1 ∨ c.cmd.cdw10 % 256 = 7 ∨ c.cmd.cdw10 % 256 = 8 ∨ c.cmd.cdw10 % 256 = 10)) ∧
    (∃ (s : State) (cid q size : Nat) (c : HostCmd) (x : _), s.stopped = [] ∧ cid < 2 ^ 16 ∧ q = c.cmd.cdw10 % 2 ^ 16 ∧ size = c.cmd.cdw10 / 2 ^ 16 % 2 ^ 16 + 1 ∧ s.adminCmd cid 0xC1 = some c ∧ q ≠ 0 ∧ s.sq q = some x ∧ x.frozen = true) ∧
    (∃ (s : State) (cid q size : Nat) (c : HostCmd) (x : _), s.stopped = [] ∧ cid < 2 ^ 16 ∧ q = c.cmd.cdw10 % 2 ^ 16 ∧ size = c.cmd.cdw10 / 2 ^ 16 % 2 ^ 16 + 1 ∧ s.adminCmd cid 0xC1 = some c ∧ q ≠ 0 ∧ s.sq q = some x ∧ x.frozen = false) ∧
    (∃ (s : State) (cid q size : Nat) (c : HostCmd), s.stopped = [] ∧ cid < 2 ^ 16 ∧ q = c.cmd.cdw10 % 2 ^ 16 ∧ size = c.cmd.cdw10 / 2 ^ 16 % 2 ^ 16 + 1 ∧ s.adminCmd cid 0xC1 = some c ∧ (q = 0 ∨ s.sq q = none)) :=
  ⟨⟨Bth.mkSq, 3, _, _, _, by decide +kernel, by decide +kernel, rfl, rfl, rfl, by decide +kernel⟩,
   ⟨Bth.mkSqAgain, 3, _, _, _, by decide +kernel, by decide +kernel, rfl, rfl, rfl, by decide +kernel⟩,
   ⟨Bth.mkCq, 3, _, _, _, by decide +kernel, by decide +kernel, rfl, rfl, rfl, by decide +kernel⟩,
   ⟨Bth.mkCqAgain, 3, _, _, _, by decide +kernel, by decide +kernel, rfl, rfl, rfl, by decide +kernel⟩,
   ⟨Bth.delSq, 3, _, _, _, by decide +kernel, by decide +kernel, rfl, rfl, rfl, by decide +kernel⟩,
   ⟨Bth.delSqNone, 3, _, _, _, by decide +kernel, by decide +kernel, rfl, rfl, rfl, by decide +kernel⟩,
   ⟨Bth.delSqDone, 3, _, _, _, _, by decide +kernel, by decide +kernel, rfl, rfl, rfl, rfl, by decide +kernel⟩,
   ⟨Bth.delCq, 3, _, _, _, by decide +kernel, by decide +kernel, rfl, rfl, rfl, by decide +kernel⟩,
   ⟨Bth.delCqUsed, 3, _, _, _, ((1, Bth.sq 1 16 2 5)), by decide +kernel, by decide +kernel, rfl, rfl, rfl, by decide +kernel⟩,
   ⟨Bth.logVendor, 3, _, _, _, by decide +kernel, by decide +kernel, rfl, rfl, rfl, by decide +kernel⟩,
   ⟨Bth.logNone, 3, _, _, _, by decide +kernel, by decide +kernel, rfl, rfl, rfl, by decide +kernel⟩,
   ⟨Bth.identGranted, 3, _, _, _, by decide +kernel, by decide +kernel, rfl, rfl, rfl, by decide +kernel⟩,
   ⟨Bth.identNs, 3, _, _, _, by decide +kernel, by decide +kernel, rfl, rfl, rfl, by decide +kernel⟩,
   ⟨Bth.featSet, 3, _, _, _, by decide +kernel, by decide +kernel, rfl, rfl, rfl, by decide +kernel⟩,
   ⟨Bth.featQueues, 3, _, _, _, by decide +kernel, by decide +kernel, rfl, rfl, rfl, by decide +kernel⟩,
   ⟨Bth.featGet, 3, _, _, _, by decide +kernel, by decide +kernel, rfl, rfl, rfl, by decide +kernel⟩,
   ⟨Bth.resumeQ, 3, _, _, _, _, by decide +kernel, by decide +kernel, rfl, rfl, rfl, by decide +kernel, rfl, by decide +kernel⟩,
   ⟨Bth.resumeRuns, 3, _, _, _, _, by decide +kernel, by decide +kernel, rfl, rfl, rfl, by decide +kernel, rfl, by decide +kernel⟩,
   ⟨Bth.resumeNone, 3, _, _, _, by decide +kernel, by decide +kernel, rfl, rfl, rfl, by decide +kernel⟩⟩

/-- States and operands that meet the premises of each clause of SdiFrames. -/
theorem witness_SdiFrames :
    (∃ (s : State) (n : Fin 4) (fmt : Nat) (reads : BadBeats), s.stopped = [] ∧ fmt = (s.sdiOf n).fmt ∧ beatsOk reads = true ∧ ((s.sdiOf n).running = false ∨ (n ≠ 0 ∧ s.quad = true)) ∧ (s.sdiOf n).frame = none) ∧
    (∃ (s : State) (n : Fin 4) (fmt : Nat) (reads : BadBeats) (src i e : _), s.stopped = [] ∧ fmt = (s.sdiOf n).fmt ∧ beatsOk reads = true ∧ ((s.sdiOf n).running = false ∨ (n ≠ 0 ∧ s.quad = true)) ∧ (s.sdiOf n).frame = some { fmt := fmt, source := some (src, i), ends := e }) ∧
    (∃ (s : State) (n : Fin 4) (fmt : Nat) (reads : BadBeats), s.stopped = [] ∧ fmt = (s.sdiOf n).fmt ∧ beatsOk reads = true ∧ (s.sdiOf n).running = true ∧ (s.sdiOf n).output = true ∧ (n = 0 ∨ s.quad = false) ∧ s.outDue n = false ∧ (s.sdiOf n).frame.all (fun f => decide ((s.ns : Int) < f.ends)) = true) ∧
    (∃ (s : State) (n : Fin 4) (fmt : Nat) (reads : BadBeats) (src i e : _), s.stopped = [] ∧ fmt = (s.sdiOf n).fmt ∧ beatsOk reads = true ∧ (s.sdiOf n).running = true ∧ (s.sdiOf n).output = true ∧ (n = 0 ∨ s.quad = false) ∧ s.outDue n = false ∧ (s.sdiOf n).frame = some { fmt := fmt, source := some (src, i), ends := e } ∧ e ≤ (s.ns : Int)) ∧
    (∃ (s : State) (n : Fin 4) (fmt : Nat), s.stopped = [] ∧ fmt = (s.sdiOf n).fmt ∧ Fld.SDI.CFG_GENLOCK s.regs n = 0) ∧
    (∃ (s : State) (n : Fin 4) (fmt : Nat), s.stopped = [] ∧ fmt = (s.sdiOf n).fmt ∧ Fld.SDI.CFG_GENLOCK s.regs n = 1) ∧
    (∃ (s : State) (n : Fin 4) (fmt : Nat) (reads : BadBeats), s.stopped = [] ∧ fmt = (s.sdiOf n).fmt ∧ beatsOk reads = true ∧ (s.sdiOf n).running = true ∧ (s.sdiOf n).output = true ∧ (s.sdiOf n).refused = false ∧ (n = 0 ∨ s.quad = false) ∧ s.outDue n = true ∧ s.holding (0x38 + n) = false ∧ s.rd (Adr.SDI.FMT n) = fmt ∧ fmtLink fmt ≠ 5 ∧ (s.sdiOf n).blackLeft ≠ 0) ∧
    (∃ (s : State) (n : Fin 4) (fmt : Nat) (reads : BadBeats) (b : _), s.stopped = [] ∧ fmt = (s.sdiOf n).fmt ∧ beatsOk reads = true ∧ (s.sdiOf n).running = true ∧ (s.sdiOf n).output = true ∧ (s.sdiOf n).refused = false ∧ (n = 0 ∨ s.quad = false) ∧ s.outDue n = true ∧ s.holding (0x38 + n) = false ∧ s.rd (Adr.SDI.FMT n) = fmt ∧ fmtLink fmt ≠ 5 ∧ (s.sdiOf n).blackLeft = 0 ∧ Fld.SDI.SRC_BOUND s.regs n = 1 ∧ (s.view (Fld.SDI.SRC_VIEW s.regs n)).running = true ∧ (s.view (Fld.SDI.SRC_VIEW s.regs n)).fresh = true ∧ s.newestOf (viewSource (Fld.SDI.SRC_VIEW s.regs n)) = some b ∧ b.fmt = bufFmt (fmtSampling fmt) ∧ depthBits b.depth = fmtDepth fmt ∧ (b.width, b.height) = rasterSize (fmtRaster fmt)) ∧
    (∃ (s : State) (n : Fin 4) (fmt : Nat) (reads : BadBeats) (b : _), s.stopped = [] ∧ fmt = (s.sdiOf n).fmt ∧ beatsOk reads = true ∧ (s.sdiOf n).running = true ∧ (s.sdiOf n).output = true ∧ (s.sdiOf n).refused = false ∧ (n = 0 ∨ s.quad = false) ∧ s.outDue n = true ∧ s.holding (0x38 + n) = false ∧ s.rd (Adr.SDI.FMT n) = fmt ∧ fmtLink fmt ≠ 5 ∧ (s.sdiOf n).blackLeft = 0 ∧ Fld.SDI.SRC_BOUND s.regs n = 1 ∧ (s.view (Fld.SDI.SRC_VIEW s.regs n)).running = true ∧ (s.view (Fld.SDI.SRC_VIEW s.regs n)).fresh = true ∧ s.newestOf (viewSource (Fld.SDI.SRC_VIEW s.regs n)) = some b ∧ b.fmt ≠ bufFmt (fmtSampling fmt)) ∧
    (∃ (s : State) (n : Fin 4) (fmt : Nat) (f : SdiFrame), s.stopped = [] ∧ fmt = (s.sdiOf n).fmt ∧ f.wellFormed = true ∧ ((s.sdiOf n).running = false ∨ (s.sdiOf n).output = true ∨ (s.sdiOf n).refused = true ∨ s.holding (0x38 + n) = true ∨ (n ≠ 0 ∧ s.quad = true))) ∧
    (∃ (s : State) (n : Fin 4) (fmt : Nat) (f : SdiFrame) (c : _), s.stopped = [] ∧ fmt = (s.sdiOf n).fmt ∧ f.wellFormed = true ∧ (s.sdiOf n).running = true ∧ (s.sdiOf n).output = false ∧ (s.sdiOf n).refused = false ∧ s.holding (0x38 + n) = false ∧ (n = 0 ∨ s.quad = false) ∧ c = (s.sdiOf n).cfg ∧ Fld.SDI.CFG_AUTO c n = 1 ∧ s.sdiFits n (s.sdiFormat n f) = false) ∧
    (∃ (s : State) (n : Fin 4) (fmt : Nat) (f : SdiFrame) (c : _), s.stopped = [] ∧ fmt = (s.sdiOf n).fmt ∧ f.wellFormed = true ∧ (s.sdiOf n).running = true ∧ (s.sdiOf n).output = false ∧ (s.sdiOf n).refused = false ∧ s.holding (0x38 + n) = false ∧ (n = 0 ∨ s.quad = false) ∧ c = (s.sdiOf n).cfg ∧ Fld.SDI.CFG_AUTO c n = 0 ∧ sameTiming (sdiFmtWord f) (c.fld (Adr.SDI.FMT n) 0 32) = false ∧ s.sdiListed n f = false) ∧
    (∃ (s : State) (n : Fin 4) (fmt : Nat) (f : SdiFrame) (c w : _), s.stopped = [] ∧ fmt = (s.sdiOf n).fmt ∧ f.wellFormed = true ∧ (s.sdiOf n).running = true ∧ (s.sdiOf n).output = false ∧ (s.sdiOf n).refused = false ∧ s.holding (0x38 + n) = false ∧ (n = 0 ∨ s.quad = false) ∧ c = (s.sdiOf n).cfg ∧ w = s.sdiFormat n f ∧ (Fld.SDI.CFG_AUTO c n = 1 ∧ w = sdiFmtWord f ∨ Fld.SDI.CFG_AUTO c n = 0 ∧ w = c.fld (Adr.SDI.FMT n) 0 32) ∧ s.sdiFits n w = true ∧ (s.sdiOf n).adopted ≠ some w ∧ (rasterSize (fmtRaster w)).2 ≤ f.rows.length) ∧
    (∃ (s : State) (n : Fin 4) (fmt : Nat) (f : SdiFrame) (c w : _), s.stopped = [] ∧ fmt = (s.sdiOf n).fmt ∧ f.wellFormed = true ∧ (s.sdiOf n).running = true ∧ (s.sdiOf n).output = false ∧ (s.sdiOf n).refused = false ∧ s.holding (0x38 + n) = false ∧ (n = 0 ∨ s.quad = false) ∧ c = (s.sdiOf n).cfg ∧ w = s.sdiFormat n f ∧ (Fld.SDI.CFG_AUTO c n = 1 ∨ sameTiming w (c.fld (Adr.SDI.FMT n) 0 32) = true) ∧ s.sdiFits n w = true ∧ (s.sdiOf n).adopted ≠ some w ∧ f.rows.length < (rasterSize (fmtRaster w)).2) ∧
    (∃ (s : State) (n : Fin 4) (fmt : Nat) (f : SdiFrame) (c w b : _), s.stopped = [] ∧ fmt = (s.sdiOf n).fmt ∧ f.wellFormed = true ∧ (s.sdiOf n).running = true ∧ (s.sdiOf n).output = false ∧ (s.sdiOf n).refused = false ∧ s.holding (0x38 + n) = false ∧ (n = 0 ∨ s.quad = false) ∧ c = (s.sdiOf n).cfg ∧ w = s.sdiFormat n f ∧ (Fld.SDI.CFG_AUTO c n = 1 ∨ sameTiming w (c.fld (Adr.SDI.FMT n) 0 32) = true) ∧ s.sdiFits n w = true ∧ (s.sdiOf n).adopted = some w ∧ s.freeBuffer (sdiSource n) (clampTo (Fld.SDI.NBUF c n) 2 4) = some b) ∧
    (∃ (s : State) (n : Fin 4) (fmt : Nat) (f : SdiFrame) (c w : _), s.stopped = [] ∧ fmt = (s.sdiOf n).fmt ∧ f.wellFormed = true ∧ (s.sdiOf n).running = true ∧ (s.sdiOf n).output = false ∧ (s.sdiOf n).refused = false ∧ s.holding (0x38 + n) = false ∧ (n = 0 ∨ s.quad = false) ∧ c = (s.sdiOf n).cfg ∧ w = s.sdiFormat n f ∧ (Fld.SDI.CFG_AUTO c n = 1 ∨ sameTiming w (c.fld (Adr.SDI.FMT n) 0 32) = true) ∧ s.sdiFits n w = true ∧ (s.sdiOf n).adopted = some w ∧ s.freeBuffer (sdiSource n) (clampTo (Fld.SDI.NBUF c n) 2 4) = none) ∧
    (∃ (s : State) (n : Fin 4) (fmt : Nat), s.stopped = [] ∧ fmt = (s.sdiOf n).fmt ∧ s.quad = false ∧ (s.sdiOf n).running = true ∧ (s.sdiOf n).output = false) ∧
    (∃ (s : State) (n : Fin 4) (fmt : Nat) (f : SdiFrame) (g b : _), s.stopped = [] ∧ fmt = (s.sdiOf n).fmt ∧ f.wellFormed = true ∧ s.quad = false ∧ (s.sdiOf n).running = true ∧ (s.sdiOf n).output = false ∧ (s.sdiOf n).refused = false ∧ s.holding (0x38 + n) = false ∧ (s.sdiOf n).adopted = some g ∧ s.freeBuffer (sdiSource n) (clampTo (Fld.SDI.NBUF (s.sdiOf n).cfg n) 2 4) = some b) ∧
    (∃ (s : State) (n : Fin 4) (fmt : Nat) (f : SdiFrame), s.stopped = [] ∧ fmt = (s.sdiOf n).fmt ∧ f.wellFormed = true ∧ s.quad = false ∧ (s.sdiOf n).running = true ∧ (s.sdiOf n).output = false ∧ (s.sdiOf n).refused = false ∧ s.holding (0x38 + n) = false ∧ (s.sdiOf n).adopted = none) ∧
    (∃ (s : State) (n : Fin 4) (fmt : Nat) (part : Option SdiFrame), s.stopped = [] ∧ fmt = (s.sdiOf n).fmt ∧ ((∀ f, part = some f → f.wellFormed = true)) ∧ s.quad = false ∧ ((s.sdiOf n).running = false ∨ (s.sdiOf n).output = true)) :=
  ⟨⟨State.reset, 0, 0, ([] : BadBeats), by decide +kernel⟩,
   ⟨Ofc.sdiHolds, 0, 0, ([] : BadBeats), 3, 1, 0, by decide +kernel⟩,
   ⟨Ofc.sdiPassed, 0, 0, ([] : BadBeats), by decide +kernel⟩,
   ⟨Ofc.sdiEnds, 0, 0, ([] : BadBeats), 3, 1, 0, by decide +kernel⟩,
   ⟨State.reset, 0, 0, by decide +kernel⟩,
   ⟨Ofc.sdiLock, 0, 0, by decide +kernel⟩,
   (by refine ⟨Ofc.sdiOut, 0, _, ([] : BadBeats), ?_, ?_, ?_, ?_, ?_, ?_, ?_, ?_, ?_, rfl, ?_⟩ <;> decide +kernel),
   (by refine ⟨Ofc.sdiShows, 0, _, ([] : BadBeats), _, ?_, ?_, ?_, ?_, ?_, ?_, ?_, ?_, ?_, rfl, ?_, ?_, ?_, ?_, ?_, rfl, ?_⟩ <;> decide +kernel),
   (by refine ⟨Ofc.sdiMismatch, 0, _, ([] : BadBeats), _, ?_, ?_, ?_, ?_, ?_, ?_, ?_, ?_, ?_, rfl, ?_, ?_, ?_, ?_, ?_, rfl, ?_⟩ <;> decide +kernel),
   ⟨State.reset, 0, 0, Ofc.sdiFrame, by decide +kernel⟩,
   (by refine ⟨Ofc.sdiIn, 0, 0, { Ofc.sdiFrame with link := 9 }, _, ?_, ?_, ?_, ?_, ?_, ?_, ?_, ?_, rfl, ?_⟩ <;> decide +kernel),
   (by refine ⟨Ofc.sdiInPlain, 0, 0, { Ofc.sdiFrame with link := 9 }, _, ?_, ?_, ?_, ?_, ?_, ?_, ?_, ?_, rfl, ?_⟩ <;> decide +kernel),
   (by refine ⟨Ofc.sdiIn, 0, 0, Ofc.sdiFull1080, _, _, ?_, ?_, ?_, ?_, ?_, ?_, ?_, ?_, rfl, rfl, ?_⟩ <;> decide +kernel),
   (by refine ⟨Ofc.sdiIn, 0, 0, Ofc.sdiFrame, _, _, ?_, ?_, ?_, ?_, ?_, ?_, ?_, ?_, rfl, rfl, ?_⟩ <;> decide +kernel),
   (by refine ⟨Ofc.sdiAdopted, 0, 0, Ofc.sdiFrame, _, _, _, ?_, ?_, ?_, ?_, ?_, ?_, ?_, ?_, rfl, ?_, ?_, ?_, rfl, rfl⟩ <;> decide +kernel),
   (by refine ⟨Ofc.sdiFull, 0, 0, Ofc.sdiFrame, _, _, ?_, ?_, ?_, ?_, ?_, ?_, ?_, ?_, rfl, ?_, ?_, ?_, rfl, ?_⟩ <;> decide +kernel),
   ⟨Ofc.sdiIn, 0, 0, by decide +kernel⟩,
   (by refine ⟨Ofc.sdiAdopted, 0, 0, Ofc.sdiFrame, _, _, ?_, ?_, ?_, ?_, ?_, ?_, ?_, ?_, rfl, rfl⟩ <;> decide +kernel),
   ⟨Ofc.sdiIn, 0, 0, Ofc.sdiFrame, by decide +kernel⟩,
   ⟨State.reset, 0, _, none, by decide +kernel, rfl, (by intro f h; cases h), by decide +kernel⟩⟩

/-- States and operands that meet the premises of each clause of PanelFrames. -/
theorem witness_PanelFrames :
    (∃ (s : State) (n : Fin 2), s.stopped = [] ∧ s.blvReady n = false) ∧
    (∃ (s : State) (n : Fin 2), s.stopped = [] ∧ s.blvReady n = true ∧ blvCommand s.regs n = false ∧ (s.blvOf n).quiet = false ∧ ((∀ b, b ∈ s.blvNewest n → b = none)) ∧ Fld.BLV.LINK_CFG_PIXFMT s.regs n = 1) ∧
    (∃ (s : State) (n : Fin 2), s.stopped = [] ∧ s.blvReady n = true ∧ blvCommand s.regs n = false ∧ (s.blvOf n).quiet = false) ∧
    (∃ (s : State) (n : Fin 2), s.stopped = [] ∧ s.blvReady n = true ∧ blvCommand s.regs n = true ∧ Fld.BLV.LINK_CFG_TE_EN s.regs n = 0 ∧ s.blvChanged n = false) ∧
    (∃ (s : State) (n : Fin 2), s.stopped = [] ∧ s.blvReady n = true ∧ blvCommand s.regs n = true ∧ Fld.BLV.LINK_CFG_TE_EN s.regs n = 1 ∧ s.blvChanged n = true ∧ (s.blvOf n).quiet = false ∧ Fld.BLV.LINK_CFG_CHG s.regs n = 0) ∧
    (∃ (s : State) (n : Fin 2), s.stopped = [] ∧ (s.blvOf n).sending = true ∧ (blvCommand (s.blvOf n).cfg n = true ∨ s.porchEnds n = true) ∧ (s.blvOf n).held = [] ∧ (s.blvOf n).packet = none) ∧
    (∃ (s : State) (n : Fin 2) (p : _), s.stopped = [] ∧ (s.blvOf n).sending = true ∧ (blvCommand (s.blvOf n).cfg n = true ∨ s.porchEnds n = true) ∧ (s.blvOf n).held = [] ∧ (s.blvOf n).packet = some p) ∧
    (∃ (s : State) (n : Fin 2) (h : _), s.stopped = [] ∧ (s.blvOf n).sending = true ∧ (blvCommand (s.blvOf n).cfg n = true ∨ s.porchEnds n = true) ∧ (s.blvOf n).held = [h] ∧ (s.blvOf n).packet = none) ∧
    (∃ (s : State) (n : Fin 2), s.stopped = [] ∧ ((s.blvOf n).sending = false ∨ (blvCommand (s.blvOf n).cfg n = false ∧ s.porchEnds n = false))) ∧
    (∃ (s : State) (n : Fin 2), s.stopped = [] ∧ (s.blvOf n).sending = true ∧ s.blvSafe n = false) ∧
    (∃ (s : State) (n : Fin 2), s.stopped = [] ∧ s.hasFlow (0x3C0 + 0x10 * n) = true ∧ 0x0100 ≤ Fld.TRL.SPEED_INDEX s.regs) ∧
    (∃ (s : State) (n : Fin 2) (c : _), s.stopped = [] ∧ c < 4096 ∧ (s.blvOf n).sending = true) ∧
    (∃ (s : State) (n : Fin 2) (v : Word), s.stopped = [] ∧ ((v.toNat / 2 ^ 16 % 2 = 0 ∨ (s.blvOf n).running = false ∨ Fld.BLV.CMD_STAT_BUSY s.regs n = 1))) ∧
    (∃ (s : State) (n : Fin 2) (v : Word), s.stopped = [] ∧ v.toNat / 2 ^ 16 % 2 = 1 ∧ v.toNat % 128 ≤ 64 ∧ (s.blvOf n).running = true ∧ (s.blvOf n).refused = false ∧ (s.blvOf n).sending = false ∧ Fld.BLV.CMD_STAT_BUSY s.regs n = 0) ∧
    (∃ (s : State) (n : Fin 2) (v : Word), s.stopped = [] ∧ v.toNat / 2 ^ 16 % 2 = 1 ∧ v.toNat % 128 ≤ 64 ∧ (s.blvOf n).running = true ∧ (s.blvOf n).refused = false ∧ (s.blvOf n).sending = true ∧ Fld.BLV.CMD_STAT_BUSY s.regs n = 0) ∧
    (∃ (s : State) (n : Fin 2) (rx : List Byte), s.stopped = [] ∧ rx.length ≤ 64 ∧ (Fld.BLV.CMD_STAT_BUSY s.regs n = 0 ∨ (s.blvOf n).packet.isSome = true)) ∧
    (∃ (s : State) (n : Fin 2) (rx : List Byte), s.stopped = [] ∧ rx.length ≤ 64 ∧ Fld.BLV.CMD_STAT_BUSY s.regs n = 1 ∧ (s.blvOf n).reading = true ∧ (s.blvOf n).packet = none) ∧
    (∃ (s : State), s.stopped = []) :=
  ⟨⟨State.reset, 0, by decide +kernel⟩,
   ⟨Ofc.blvVideo, 0, by decide +kernel⟩,
   ⟨Ofc.blvVideo, 0, by decide +kernel⟩,
   ⟨Ofc.blvCmd, 0, by decide +kernel⟩,
   ⟨Ofc.blvTe, 0, by decide +kernel⟩,
   ⟨Ofc.blvSends, 0, by decide +kernel⟩,
   (by refine ⟨Ofc.blvSendsPacket, 0, _, ?_, ?_, ?_, ?_, rfl⟩ <;> decide +kernel),
   (by refine ⟨Ofc.blvSendsHeld, 0, _, ?_, ?_, ?_, rfl, ?_⟩ <;> decide +kernel),
   ⟨State.reset, 0, by decide +kernel⟩,
   ⟨Ofc.blvSends, 0, by decide +kernel⟩,
   ⟨Ofc.blvFast, 0, by decide +kernel⟩,
   ⟨Ofc.blvSends, 0, 5, by decide +kernel⟩,
   ⟨State.reset, 0, 0, by decide +kernel⟩,
   ⟨Ofc.blvVideo, 0, 0x10002, by decide +kernel⟩,
   ⟨Ofc.blvSends, 0, 0x10002, by decide +kernel⟩,
   ⟨State.reset, 0, [], by decide +kernel⟩,
   ⟨Ofc.blvBusy, 0, [], by decide +kernel⟩,
   ⟨State.reset, by decide +kernel⟩⟩

/-- States and operands that meet the premises of each clause of StepsMoveTime. -/
theorem witness_StepsMoveTime :
    (∃ (s : State), Fld.SUN0.STEP_STAT_BUSY s.regs = 1) ∧
    (∃ (s : State), Fld.SUN0.STEP_STAT_BUSY s.regs = 0) ∧
    (∃ (s : State), s.sun.step = none) ∧
    (∃ (s : State) (ns : Int), s.sun.step = some (.value ns) ∧ 0 ≤ (s.time.fine : Int) + ns * 65536 ∧ (s.time.fine : Int) + ns * 65536 < 2 ^ 48 * 1000000000 * 65536) ∧
    (∃ (s : State) (ns : Int), s.sun.step = some (.value ns) ∧ (s.time.fine : Int) + ns * 65536 < 0) ∧
    (∃ (s : State) (sec ns : _), s.sun.step = some (.set sec ns) ∧ sec < 2 ^ 48 ∧ ns < 1000000000) ∧
    (∃ (s : State) (sec ns : _), s.sun.step = some (.set sec ns) ∧ 1000000000 ≤ ns) ∧
    (∃ (s : State), s.sun.step = some .measured ∧ s.selected = 0) ∧
    (∃ (s : State) (e : Int), s.sun.step = some .measured ∧ s.selected ≠ 0 ∧ (s.ref s.selected).e = some e ∧ 0 ≤ (s.time.fine : Int) + e ∧ (s.time.fine : Int) + e < 2 ^ 48 * 1000000000 * 65536) :=
  ⟨⟨Clk.stepValue, by decide +kernel⟩,
   ⟨State.reset, by decide +kernel⟩,
   ⟨State.reset, by decide +kernel⟩,
   ⟨Clk.stepValue, _, rfl, by decide +kernel⟩,
   ⟨Clk.stepBack, _, rfl, by decide +kernel⟩,
   ⟨Clk.stepSet, _, _, rfl, by decide +kernel⟩,
   ⟨Clk.stepBad, _, _, rfl, by decide +kernel⟩,
   ⟨Clk.stepNone, by decide +kernel⟩,
   ⟨Clk.stepRef, -5000, by decide +kernel⟩⟩

/-- States and operands that meet the premises of each clause of ReferencesAndTimecode. -/
theorem witness_ReferencesAndTimecode :
    (∃ (s : State) (r : Fin 8), s.stopped = [] ∧ 2 ≤ r.val ∧ r.val ≤ 6 ∧ s.refState r = 0) ∧
    (∃ (s : State) (r : Fin 8), s.stopped = [] ∧ (r.val < 2 ∨ r.val = 7)) ∧
    (∃ (s : State) (r : Fin 8), s.stopped = [] ∧ r ≠ 1 ∧ r ≠ 7) ∧
    (∃ (s : State) (r : Fin 8) (age : Nat) (e : _), s.stopped = [] ∧ 2 ≤ r.val ∧ r.val ≤ 6 ∧ s.refState r ≠ 0 ∧ s.phaseOffset r ((s.fineBefore age : Int) - s.refOffset r) = e ∧ -(2 ^ 47 : Int) ≤ e ∧ e < 2 ^ 47) ∧
    (∃ (s : State) (r : Fin 8) (e : _), s.stopped = [] ∧ (r = 1 ∨ r = 7) ∧ s.refState r ≠ 0 ∧ -(2 ^ 47 : Int) ≤ e + s.refOffset r ∧ e + s.refOffset r < 2 ^ 47) ∧
    (∃ (s : State) (r : Fin 8), s.stopped = [] ∧ r ≠ 0 ∧ 2 ≤ s.refState r ∧ s.lossDue r = true) ∧
    (∃ (s : State) (r : Fin 8), s.stopped = [] ∧ (s.refState r < 2 ∨ s.lossDue r = false)) ∧
    (∃ (s : State) (r : Fin 8), s.stopped = [] ∧ r = 1 ∧ Fld.SUN1.REF_PARAM_SYNC_LOG s.regs 0 = 0) ∧
    (∃ (s : State) (r : Fin 8), s.stopped = [] ∧ r = 5) ∧
    (∃ (s : State), s.stopped = []) ∧
    (∃ (s : State) (r : Fin 8) (e0 e1 t0 t1 q : _), s.stopped = [] ∧ r ≠ 0 ∧ s.sun.adjRounds = 0 ∧ 2 ≤ s.refState r ∧ (s.ref r).firstE = some (e0, t0) ∧ (s.ref r).lastE = some (e1, t1) ∧ 2 ≤ (s.ref r).count ∧ t0 < t1 ∧ (e1 - e0) * 15625000 = q * ((t1 : Int) - t0) ∧ -(2 ^ 31 : Int) ≤ s.adj + q ∧ s.adj + q < 2 ^ 31) ∧
    (∃ (s : State), s.stopped = [] ∧ Fld.SUN0.TC_CFG_SRC s.regs = 0) ∧
    (∃ (s : State), s.stopped = [] ∧ Fld.SUN0.TC_CFG_SRC s.regs = 1 ∧ s.sun.ltcIn = none) ∧
    (∃ (s : State) (l : _), s.stopped = [] ∧ Fld.SUN0.TC_CFG_SRC s.regs = 2 ∧ s.sun.tcSet = some l) ∧
    (∃ (s : State) (l sec ff : _), s.stopped = [] ∧ Fld.SUN0.TC_CFG_SRC s.regs = 1 ∧ s.sun.ltcIn = some l ∧ s.tcRate = 2 ∧ sec < 86399 ∧ ff < 25 ∧ l = plainLabel 25 (sec * 25 + ff)) ∧
    (∃ (s : State) (k : _), s.stopped = [] ∧ s.enabled 0x08 = true ∧ Fld.SUN0.TC_CFG_LTC_OUT_EN s.regs = 1 ∧ s.pointNow s.tcRate (signed (Fld.SUN0.LTC_OFFSET s.regs) 32) = some k ∧ s.sun.ltcPoint ≠ some k ∧ (s.tcRate < 5 ∨ (s.labelAt k).1.2 = true)) ∧
    (∃ (s : State) (k e : _), s.stopped = [] ∧ s.tcSource ≠ 0 ∧ s.sun.labels.find? (fun x => x.1 == k) = some e) ∧
    (∃ (s : State) (k e : _), s.stopped = [] ∧ s.tcSource ≠ 0 ∧ s.tcRate < 5 ∧ s.sun.tcSet = none ∧ s.sun.labels.head? = some e ∧ s.sun.labels.find? (fun x => x.1 == k) = none ∧ k = e.1 + 1 ∧ e.2.2 = false) ∧
    (∃ (s : State) (k : _), s.stopped = [] ∧ s.pointNow s.tcRate (signed (Fld.SUN0.LTC_OFFSET s.regs) 32) = some k ∧ (s.sun.ltcPoint = some k ∨ (5 ≤ s.tcRate ∧ (s.labelAt k).1.2 = false))) ∧
    (∃ (s : State), s.stopped = [] ∧ (s.enabled 0x08 = false ∨ Fld.SUN0.TC_CFG_LTC_OUT_EN s.regs = 0 ∨ s.pointNow s.tcRate (signed (Fld.SUN0.LTC_OFFSET s.regs) 32) = none)) ∧
    (∃ (s : State) (p : Fin 2) (rate k : _), s.stopped = [] ∧ s.enabled 0x08 = true ∧ Fld.SUN0.FP_CFG_EN s.regs p = 1 ∧ Fld.SUN0.FP_CFG_RATE s.regs p = rate ∧ rate < 10 ∧ s.pointNow rate (signed (Fld.SUN0.FP_OFFSET s.regs p) 32) = some k ∧ s.sun.pulses.contains (p.val, k) = false) ∧
    (∃ (s : State) (p : Fin 2) (rate : _), s.stopped = [] ∧ Fld.SUN0.FP_CFG_RATE s.regs p = rate ∧ rate < 10 ∧ (s.enabled 0x08 = false ∨ Fld.SUN0.FP_CFG_EN s.regs p = 0 ∨ s.pointNow rate (signed (Fld.SUN0.FP_OFFSET s.regs p) 32) = none)) ∧
    (∃ (s : State) (rate ofs k : _), s.stopped = [] ∧ s.pointNow rate ofs = some k) :=
  ⟨⟨State.reset, 2, by decide +kernel⟩,
   ⟨State.reset, 0, by decide +kernel⟩,
   ⟨State.reset, 0, by decide +kernel⟩,
   (by refine ⟨Clk.refAbsent, 2, 0, _, ?_, ?_, ?_, ?_, rfl, ?_⟩ <;> decide +kernel),
   ⟨Clk.refAbsentPtp, 1, -70000, by decide +kernel⟩,
   ⟨Clk.refQualifiesLate, 2, by decide +kernel⟩,
   ⟨State.reset, 0, by decide +kernel⟩,
   ⟨State.reset, _, by decide +kernel, rfl, by decide +kernel⟩,
   ⟨State.reset, _, by decide +kernel, rfl⟩,
   ⟨State.reset, by decide +kernel⟩,
   (by refine ⟨Clk.refQualifies, 2, _, _, _, _, 200, ?_, ?_, ?_, ?_, rfl, rfl, ?_⟩ <;> decide +kernel),
   ⟨State.reset, by decide +kernel⟩,
   ⟨Clk.tcLtc, by decide +kernel⟩,
   ⟨Clk.tcFree, _, by decide +kernel, by decide +kernel, rfl⟩,
   ⟨Clk.tcLtcIn, _, 4000, 7, by decide +kernel, by decide +kernel, rfl, by decide +kernel⟩,
   (by refine ⟨Clk.sunOut, _, ?_, ?_, ?_, rfl, ?_⟩ <;> decide +kernel),
   ⟨Clk.tcLabels, (5 : Int), _, by decide +kernel, by decide +kernel, rfl⟩,
   (by refine ⟨Clk.tcLabels, _, _, ?_, ?_, ?_, ?_, rfl, ?_, rfl, ?_⟩ <;> decide +kernel),
   ⟨Clk.sunDone, _, by decide +kernel, rfl, by decide +kernel⟩,
   ⟨State.reset, by decide +kernel⟩,
   (by refine ⟨Clk.sunOut, 0, _, _, ?_, ?_, ?_, rfl, ?_, rfl, ?_⟩ <;> decide +kernel),
   ⟨State.reset, 0, _, by decide +kernel, rfl, by decide +kernel⟩,
   ⟨State.reset, 0, 0, 0, by decide +kernel⟩⟩

/-- States and operands that meet the premises of each clause of NetworkFrames. -/
theorem witness_NetworkFrames :
    (∃ (s : State) (p : Fin 2), s.stopped = [] ∧ (s.ethUp p = false ∨ s.holding (0x0A + p) = true)) ∧
    (∃ (s : State) (p : Fin 2) (f : EthFrame), s.stopped = [] ∧ s.ethUp p = true ∧ s.holding (0x0A + p) = false ∧ 1522 < f.bytes.length + 4) ∧
    (∃ (s : State) (p : Fin 2) (f : EthFrame), s.stopped = [] ∧ s.ethUp p = true ∧ s.holding (0x0A + p) = false ∧ f.bytes.length + 4 ≤ 1522 ∧ f.fcsOk = false ∧ s.forOther p f.bytes = false) ∧
    (∃ (s : State) (p : Fin 2) (f : EthFrame), s.stopped = [] ∧ s.ethUp p = true ∧ s.holding (0x0A + p) = false ∧ f.bytes.length + 4 ≤ 1522 ∧ f.fcsOk = true ∧ etherType f.bytes = 0x8808) ∧
    (∃ (s : State) (p : Fin 2) (f : EthFrame), s.stopped = [] ∧ s.ethUp p = true ∧ s.holding (0x0A + p) = false ∧ f.bytes.length + 4 ≤ 1522 ∧ f.fcsOk = true ∧ etherType f.bytes ≠ 0x8808 ∧ bitOf (frameField f.bytes 0 6) 40 = true ∧ s.forInternal f.bytes = false ∧ s.ethUp (1 - p.val) = true ∧ s.egressFull (1 - p.val) (s.egressClass true f.bytes) f.bytes.length = false ∧ s.lineFree (1 - p.val) = true ∧ s.net.egress = [] ∧ s.senderDue (1 - p.val) = false ∧ f.egressDelay = 0) ∧
    (∃ (s : State) (p : Fin 2) (f : EthFrame), s.stopped = [] ∧ s.ethUp p = true ∧ s.holding (0x0A + p) = false ∧ f.bytes.length + 4 ≤ 1522 ∧ f.fcsOk = true ∧ etherType f.bytes ≠ 0x8808 ∧ bitOf (frameField f.bytes 0 6) 40 = true ∧ s.forInternal f.bytes = false ∧ s.ethUp (1 - p.val) = true ∧ s.egressFull (1 - p.val) (s.egressClass true f.bytes) f.bytes.length = false ∧ s.lineFree (1 - p.val) = false) ∧
    (∃ (s : State) (p : Fin 2) (e : EgressFrame), s.stopped = [] ∧ s.nextEgress p = some e) ∧
    (∃ (s : State), s.stopped = []) ∧
    (∃ (s : State) (f : EthFrame) (o : _), s.stopped = [] ∧ ptpClass f.bytes = false ∧ ipOffset f.bytes = some o ∧ bitOf (Fld.ETH0.HP_DSCP_LO s.regs + Fld.ETH0.HP_DSCP_HI s.regs * 2 ^ 32) (frameField f.bytes (o + 1) 1 / 4) = true) ∧
    (∃ (s : State) (p : Fin 2) (f : EthFrame), s.stopped = [] ∧ s.ethUp p = true ∧ s.holding (0x0A + p) = false ∧ f.bytes.length + 4 ≤ 1522 ∧ f.fcsOk = true ∧ etherType f.bytes ≠ 0x8808 ∧ bitOf (frameField f.bytes 0 6) 40 = true ∧ s.forInternal f.bytes = false ∧ s.ethUp (1 - p.val) = true) ∧
    (∃ (s : State) (p : Fin 2) (f : EthFrame), s.stopped = [] ∧ s.ethUp p = true ∧ s.holding (0x0A + p) = false ∧ f.bytes.length + 4 ≤ 1522 ∧ f.fcsOk = true ∧ etherType f.bytes ≠ 0x8808 ∧ frameField f.bytes 0 6 = s.ownMac ∧ bitOf s.ownMac 40 = false ∧ ptpUdp f.bytes = none ∧ (List.range 16).any (fun r => s.takes r p f.bytes) = false ∧ Fld.ETH0.CTL_RX_SLOTS s.regs ≠ 0 ∧ (Fld.ETH0.CTL_RX_WR s.regs + 1) % Fld.ETH0.CTL_RX_SLOTS s.regs ≠ Fld.ETH0.CTL_RX_RD s.regs) ∧
    (∃ (s : State) (p : Fin 2) (f : EthFrame), s.stopped = [] ∧ s.ethUp p = true ∧ s.holding (0x0A + p) = false ∧ f.bytes.length + 4 ≤ 1522 ∧ f.fcsOk = true ∧ etherType f.bytes ≠ 0x8808 ∧ frameField f.bytes 0 6 = s.ownMac ∧ bitOf s.ownMac 40 = false ∧ ptpUdp f.bytes = none ∧ (List.range 16).any (fun r => s.takes r p f.bytes) = false ∧ (Fld.ETH0.CTL_RX_SLOTS s.regs = 0 ∨ (Fld.ETH0.CTL_RX_WR s.regs + 1) % Fld.ETH0.CTL_RX_SLOTS s.regs = Fld.ETH0.CTL_RX_RD s.regs)) ∧
    (∃ (s : State) (p : Fin 2) (f : EthFrame) (o x received sent : _), s.stopped = [] ∧ Fld.ETH0.SW_CFG_TC_EN s.regs = 1 ∧ etherType f.bytes = 0x88F7 ∧ ptpOffset f.bytes = some o ∧ ptpType f.bytes o = 0 ∧ o + 16 ≤ f.bytes.length ∧ x = correction f.bytes o + (sent - received) + s.ethAsym p ∧ -(2 ^ 63 : Int) ≤ x ∧ x < 2 ^ 63) ∧
    (∃ (s : State) (wr : _), s.stopped = [] ∧ wr < 2 ^ 12) ∧
    (∃ (s : State) (wr : _), s.stopped = [] ∧ wr < 2 ^ 12 ∧ (Fld.ETH0.CTL_TX_SLOTS s.regs = 0 ∨ Fld.ETH0.CTL_TX_RD s.regs = wr) ∧ s.net.egress = [] ∧ s.net.ctlOut = none) ∧
    (∃ (s : State) (wr a h b own len flags ofs : _), s.stopped = [] ∧ wr < 2 ^ 12 ∧ Fld.ETH0.CTL_TX_SLOTS s.regs ≠ 0 ∧ Fld.ETH0.CTL_TX_RD s.regs ≠ wr ∧ s.net.egress = [] ∧ s.net.ctlOut = none ∧ s.net.ctlDelays = [] ∧ a = slotAddr (Fld.ETH0.CTL_TX_UNIT s.regs) (Fld.ETH0.CTL_TX_RD s.regs) ∧ h = s.loadBytes a 16 ∧ len = fieldOf h 0 2 ∧ flags = fieldOf h 2 2 ∧ ofs = fieldOf h 14 2 ∧ b = s.loadBytes (a + 16) (min len 2032) ∧ b ≠ [] ∧ own = flags % 2 ∧ bitOf flags 4 = false ∧ bitOf flags 2 = false ∧ s.ethUp own = true ∧ s.egressFull own (s.egressClass false b) b.length = false ∧ s.lineFree own = true ∧ s.senderDue own = false) ∧
    (∃ (s : State) (wr a h b own len flags ofs : _), s.stopped = [] ∧ wr < 2 ^ 12 ∧ Fld.ETH0.CTL_TX_SLOTS s.regs ≠ 0 ∧ Fld.ETH0.CTL_TX_RD s.regs ≠ wr ∧ s.net.egress = [] ∧ s.net.ctlOut = none ∧ s.net.ctlDelays = [] ∧ a = slotAddr (Fld.ETH0.CTL_TX_UNIT s.regs) (Fld.ETH0.CTL_TX_RD s.regs) ∧ h = s.loadBytes a 16 ∧ len = fieldOf h 0 2 ∧ flags = fieldOf h 2 2 ∧ ofs = fieldOf h 14 2 ∧ b = s.loadBytes (a + 16) (min len 2032) ∧ b ≠ [] ∧ own = flags % 2 ∧ bitOf flags 4 = false ∧ bitOf flags 2 = false ∧ s.ethUp own = false ∧ bitOf flags 3 = true) ∧
    (∃ (s : State) (p : Fin 2), s.stopped = [] ∧ s.ethRuns p = true) ∧
    (∃ (s : State) (p : Fin 2), s.stopped = [] ∧ s.ethRuns p = false) ∧
    (∃ (s : State) (mac : _), s.stopped = [] ∧ mac < 2 ^ 48) :=
  ⟨⟨State.reset, 0, by decide +kernel⟩,
   ⟨Net.eth, 0, { Net.ethFrame 7 0x0801 with bytes := List.replicate 1600 0 }, by decide +kernel⟩,
   ⟨Net.eth, 0, { Net.ethFrame 0x001133445566 0x0801 with fcsOk := false }, by decide +kernel⟩,
   ⟨Net.eth, 0, Net.ethFrame 7 0x8808, by decide +kernel⟩,
   ⟨Net.eth, 0, Net.ethNow, by decide +kernel⟩,
   ⟨Net.ethBusy, 0, Net.ethNow, by decide +kernel⟩,
   ⟨Net.ethQueued, 1, _, by decide +kernel, rfl⟩,
   ⟨State.reset, by decide +kernel⟩,
   ⟨Net.ethDscp, Net.ethIp, _, by decide +kernel, by decide +kernel, rfl, by decide +kernel⟩,
   ⟨Net.eth, 0, Net.ethFrame 0x010000000005 0x0801, by decide +kernel⟩,
   ⟨Net.ethRing, 0, Net.ethFrame 0x001133445566 0x0801, by decide +kernel⟩,
   ⟨Net.eth, 0, Net.ethFrame 0x001133445566 0x0801, by decide +kernel⟩,
   (by refine ⟨State.reset, 0, Net.ethSync, _, _, 0, 0, ?_, ?_, ?_, rfl, ?_, ?_, rfl, ?_⟩ <;> decide +kernel),
   ⟨State.reset, 0, by decide +kernel⟩,
   ⟨State.reset, 0, by decide +kernel⟩,
   (by refine ⟨Net.ethTxPlain, 1, _, _, _, _, _, _, _, ?_, ?_, ?_, ?_, ?_, ?_, ?_, rfl, rfl, rfl, rfl, rfl, rfl, ?_, rfl, ?_⟩ <;> decide +kernel),
   (by refine ⟨Net.ethTxDown, 1, _, _, _, _, _, _, _, ?_, ?_, ?_, ?_, ?_, ?_, ?_, rfl, rfl, rfl, rfl, rfl, rfl, ?_, rfl, ?_⟩ <;> decide +kernel),
   ⟨Net.eth, 0, by decide +kernel⟩,
   ⟨State.reset, 0, by decide +kernel⟩,
   ⟨State.reset, 2, by decide +kernel⟩⟩

/-- States and operands that meet the premises of each clause of StreamsAndAudio. -/
theorem witness_StreamsAndAudio :
    (∃ (s : State) (n : Fin 16), s.stopped = [] ∧ (s.sender n).running = false) ∧
    (∃ (s : State) (n : Fin 16) (num den g c : _), s.stopped = [] ∧ (s.sender n).running = true ∧ s.holding 0x0C = false ∧ sndPace s.regs n = (num, den) ∧ num ≠ 0 ∧ den ≠ 0 ∧ g = (pointAt num (genlockSpan den) (pointIndex num (genlockSpan den) s.time.count)).toNat ∧ ((∀ f, f ∈ (s.sender n).frames → f.slot < g)) ∧ s.sndRead n = some c) ∧
    (∃ (s : State) (n : Fin 16), s.stopped = [] ∧ (s.sender n).frames = []) ∧
    (∃ (s : State) (n : Fin 16) (f rest : _), s.stopped = [] ∧ (s.sender n).frames = f :: rest ∧ (s.time.fine < (s.sndSchedule n f).1.1 ∨ s.sndFree n f = false)) ∧
    (∃ (s : State) (n : Fin 16) (f rest : _), s.stopped = [] ∧ (s.sender n).frames = f :: rest ∧ (s.sndSchedule n f).1.1 ≤ s.time.fine ∧ s.time.fine ≤ (s.sndSchedule n f).1.2 + 100 * 65536 ∧ s.sndFree n f = true ∧ f.next + 1 < f.packets) ∧
    (∃ (s : State) (n : Fin 16) (f rest : _), s.stopped = [] ∧ (s.sender n).frames = f :: rest ∧ (s.sndSchedule n f).1.1 ≤ s.time.fine ∧ s.time.fine ≤ (s.sndSchedule n f).1.2 + 100 * 65536 ∧ s.sndFree n f = true ∧ f.packets ≤ f.next + 1) ∧
    (∃ (s : State), s.stopped = []) ∧
    (∃ (s : State) (n : Fin 16) (f port : _), s.stopped = [] ∧ port ∈ s.sndPorts n f) ∧
    (∃ (s : State) (num rDen packets : _), s.stopped = [] ∧ num * rDen * packets ≠ 0) ∧
    (∃ (s : State) (n : Fin 16) (b : _) (q : RtpPacket), s.stopped = [] ∧ q.seq < 2 ^ 32 ∧ q.timestamp < 2 ^ 32 ∧ s.accepts n b q = false) ∧
    (∃ (s : State) (n : Fin 16), s.stopped = [] ∧ (s.receiver n).frame = none ∧ ((s.receiver n).running = false ∨ s.holding 0x0D = true)) ∧
    (∃ (s : State) (n : Fin 16) (src udp : _), s.stopped = [] ∧ s.addressed s.regs n 1 src (Fld.IPR.GROUP_A s.regs n) udp = true) ∧
    (∃ (s : State) (n : Fin 16) (b : _) (q : RtpPacket), s.stopped = [] ∧ q.seq < 2 ^ 32 ∧ q.timestamp < 2 ^ 32 ∧ s.accepts n b q = true ∧ Fld.IPR.RCV_CFG_PATHS (s.rcvCfg (s.receiver n) q) n = 3 ∧ mergeSeq (rcvSeqBits (s.rcvCfg (s.receiver n) q) n) (rcvWindow (s.rcvCfg (s.receiver n) q) n) (s.receiver n).top (s.receiver n).seen q.seq = .duplicate) ∧
    (∃ (s : State) (n : Fin 16) (f : _), s.stopped = [] ∧ (s.receiver n).frame = some f) ∧
    (∃ (s : State) (n : Fin 16) (q : RtpPacket) (l : List Nat), s.stopped = [] ∧ q.seq < 2 ^ 32 ∧ q.timestamp < 2 ^ 32 ∧ (s.receiver n).running = true ∧ s.holding 0x0D = false ∧ (s.receiver n).frame = none ∧ Fld.IPR.RCV_CFG_PATHS s.regs n = 1 ∧ q.udp = Fld.IPR.UDP_DST s.regs n ∧ Fld.IPR.SRC_FILTER s.regs n = 0 ∧ q.dst = Fld.IPR.GROUP_A s.regs n ∧ rcvEss s.regs n = 1 ∧ q.body = .audio l.length l ∧ l ≠ []) ∧
    (∃ (s : State) (n : Fin 16), s.stopped = [] ∧ (s.receiver n).running = true ∧ (s.receiver n).lastAt + (if rcvEss s.regs n = 1 then 10000000 else 3 * periodNs (rateNum (rcvRate s.regs n)) (rateDen (rcvRate s.regs n))) ≤ s.elapsed) ∧
    (∃ (s : State) (n : Fin 16), s.stopped = [] ∧ ((s.receiver n).running = false ∨ s.elapsed < (s.receiver n).lastAt + rcvPatience s.regs n)) ∧
    (∃ (s : State) (p : Fin 4), s.stopped = [] ∧ ((s.bndPort p).running = false ∨ (s.holding 0x40 = true ∧ (s.bndPort p).stopping = false))) ∧
    (∃ (s : State) (p : Fin 4), s.stopped = [] ∧ (s.bndPort p).running = true ∧ (s.bndPort p).stopping = true) ∧
    (∃ (s : State) (p : Fin 4) (k age : Nat) (cfg : _), s.stopped = [] ∧ cfg = (s.bndView ((s.elapsed : Int) - age)).1.fld (Adr.BND.PORT_CFG p) 0 32 ∧ (s.bndPort p).running = true ∧ (s.bndPort p).stopping = false ∧ bndLocked cfg = true ∧ onIndex p cfg (signed (Fld.BND.PHASE_OFS (s.bndView ((s.elapsed : Int) - age)).1 p) 32) (s.bndPort p).k (s.time.count - age) = false) ∧
    (∃ (s : State) (p : Fin 4) (k age : Nat) (cfg ofs : _), s.stopped = [] ∧ cfg = (s.bndView ((s.elapsed : Int) - age)).1.fld (Adr.BND.PORT_CFG p) 0 32 ∧ ofs = signed (Fld.BND.PHASE_OFS (s.bndView ((s.elapsed : Int) - age)).1 p) 32 ∧ (s.bndPort p).running = true ∧ (s.bndPort p).stopping = false ∧ s.holding 0x40 = false ∧ (bndLocked cfg = false ∨ onIndex p cfg ofs (s.bndPort p).k (s.time.count - age) = true) ∧ k = sampleIndex (bndRate p cfg) ofs (s.time.count - age)) ∧
    (∃ (s : State) (p : Fin 4) (k age : Nat) (cfg ofs v : _), s.stopped = [] ∧ s.bnd.before = none ∧ cfg = s.rd (Adr.BND.PORT_CFG p) ∧ ofs = signed (Fld.BND.PHASE_OFS s.regs p) 32 ∧ v = (s.outputBus (s.regs, s.bnd.routes) p cfg k) ∧ (s.bndPort p).running = true ∧ (s.bndPort p).stopping = false ∧ s.holding 0x40 = false ∧ (bndLocked cfg = false ∨ onIndex p cfg ofs (s.bndPort p).k (s.time.count - age) = true) ∧ k = sampleIndex (bndRate p cfg) ofs (s.time.count - age) ∧ (s.bndPort p).cfg = cfg ∧ (s.bndPort p).muted = 0 ∧ slipOf cfg (s.bndPort p).k k = false ∧ discardOf cfg (s.bndPort p).k k = false ∧ bndInput cfg = false ∧ bndInternal cfg = false ∧ ((∀ i, i < bndSlots p cfg → routeKind (routeOf s.bnd.routes p i) = 1 → routeIndex (routeOf s.bnd.routes p i) ≠ p.val))) ∧
    (∃ (s : State) (p : Fin 4) (k age : Nat) (cfg ofs : _), s.stopped = [] ∧ cfg = (s.bndView ((s.elapsed : Int) - age)).1.fld (Adr.BND.PORT_CFG p) 0 32 ∧ ofs = signed (Fld.BND.PHASE_OFS (s.bndView ((s.elapsed : Int) - age)).1 p) 32 ∧ (s.bndPort p).running = true ∧ (s.bndPort p).stopping = false ∧ s.holding 0x40 = false ∧ (bndLocked cfg = false ∨ onIndex p cfg ofs (s.bndPort p).k (s.time.count - age) = true) ∧ k = sampleIndex (bndRate p cfg) ofs (s.time.count - age) ∧ (s.bndPort p).cfg = cfg ∧ slipOf cfg (s.bndPort p).k k = true ∧ (s.bndPort p).slipRun = false) ∧
    (∃ (s : State) (p : Fin 4) (cfg : _), s.stopped = [] ∧ bndMode p cfg = 1 ∧ bitOf cfg 5 = false) ∧
    (∃ (s : State) (p : Fin 4), s.stopped = [] ∧ (s.bndPort p).running = false) ∧
    (∃ (s : State) (p : Fin 4), s.stopped = [] ∧ (s.bndPort p).running = true ∧ bndInternal (s.bndPort p).cfg = false ∧ bndMaster (s.bndPort p).cfg = false) ∧
    (∃ (s : State) (p : Fin 4), s.stopped = [] ∧ (s.bndPort p).running = true ∧ bndInternal (s.bndPort p).cfg = false ∧ bndMaster (s.bndPort p).cfg = true ∧ Fld.BND.MCLK_CFG_MCLK_EN s.regs p = 1 ∧ Fld.BND.MCLK_CFG_X512 s.regs p = 1 ∧ bndRate p (s.bndPort p).cfg = 192000) ∧
    (∃ (s : State) (p : Fin 4), s.stopped = [] ∧ (s.bndPort p).running = true ∧ bndMaster (s.rd (Adr.BND.PORT_CFG p)) = false ∧ bndInternal (s.rd (Adr.BND.PORT_CFG p)) = false) ∧
    (∃ (s : State) (p : Fin 4), s.stopped = [] ∧ ((s.bndPort p).running = false ∨ bndMaster (s.rd (Adr.BND.PORT_CFG p)) = true)) ∧
    (∃ (s : State) (p : Fin 4) (i : Fin 16), s.stopped = [] ∧ bitOf (s.rd (Adr.BND.NONPCM p)) i = true ∧ s.bndHold p ≤ SMap.get (fun _ => 0) (s.bndPort p).nonpcm i) ∧
    (∃ (s : State) (p : Fin 4) (i : Fin 16), s.stopped = [] ∧ bitOf (s.rd (Adr.BND.NONPCM p)) i = false) :=
  ⟨⟨State.reset, 0, by decide +kernel⟩,
   (by refine ⟨Net.sndRuns, 0, _, _, _, _, ?_, ?_, ?_, rfl, ?_, ?_, rfl, ?_, rfl⟩ <;> decide +kernel),
   ⟨State.reset, 0, by decide +kernel⟩,
   ⟨Net.sndTwo, 0, _, _, by decide +kernel, rfl, by decide +kernel⟩,
   ⟨Net.sndDue, 0, _, _, by decide +kernel, rfl, by decide +kernel⟩,
   ⟨Net.sndLastDue, 0, _, _, by decide +kernel, rfl, by decide +kernel⟩,
   ⟨Net.sndTwo, by decide +kernel⟩,
   ⟨Net.sndUp, 0, Net.sndGroup, 0, by decide +kernel⟩,
   ⟨State.reset, 25, 1, 5, by decide +kernel⟩,
   ⟨State.reset, 0, true, Net.rtp 5, by decide +kernel⟩,
   ⟨State.reset, 0, by decide +kernel⟩,
   ⟨Net.rcvGroup, 0, 0, 0, by decide +kernel⟩,
   ⟨Net.rcvBoth, 0, true, Net.rtp 5, by decide +kernel⟩,
   ⟨Net.rcvFrame, 0, _, by decide +kernel, rfl⟩,
   ⟨Net.rcvAudio, 0, Net.rtp 5, ([1, 2] : List Nat), by decide +kernel⟩,
   ⟨Net.rcvLate, 0, by decide +kernel⟩,
   ⟨State.reset, 0, by decide +kernel⟩,
   ⟨State.reset, 0, by decide +kernel⟩,
   ⟨Net.bndStops, 0, by decide +kernel⟩,
   ⟨Net.bndLocks, 0, 0, 0, _, by decide +kernel, rfl, by decide +kernel⟩,
   (by refine ⟨Net.bndOut, 0, _, 0, _, _, ?_, rfl, rfl, ?_, ?_, ?_, ?_, rfl⟩ <;> decide +kernel),
   (by refine ⟨Net.bndOut, 0, _, 0, _, _, _, ?_, ?_, rfl, rfl, rfl, ?_, ?_, ?_, ?_, rfl, ?_⟩ <;> decide +kernel),
   (by refine ⟨Net.bndNext, 0, _, 0, _, _, ?_, rfl, rfl, ?_, ?_, ?_, ?_, rfl, ?_⟩ <;> decide +kernel),
   ⟨State.reset, 0, 0x10F, by decide +kernel⟩,
   ⟨State.reset, 0, by decide +kernel⟩,
   ⟨Net.bndOut, 0, by decide +kernel⟩,
   ⟨Net.bndMclk, 0, by decide +kernel⟩,
   ⟨Net.bndOut, 0, by decide +kernel⟩,
   ⟨State.reset, 0, by decide +kernel⟩,
   ⟨Net.bndPair, 0, 2, by decide +kernel⟩,
   ⟨State.reset, 0, 2, by decide +kernel⟩⟩

/-- States and operands that meet the premises of each clause of MemoryChannels. -/
theorem witness_MemoryChannels :
    (∃ (s : State) (g k : Fin 4) (ch : Nat) (c : McChan), s.stopped = [] ∧ ch = 4 * g.val + k.val ∧ c = s.chan ch ∧ s.mem.waiting = [] ∧ s.trl.beOps = [] ∧ c.corrected = [] ∧ (c.ready = false ∨ s.mem.selfRefresh = true)) ∧
    (∃ (s : State) (g k : Fin 4) (ch : Nat) (c : McChan), s.stopped = [] ∧ ch = 4 * g.val + k.val ∧ c = s.chan ch ∧ s.mem.waiting = [] ∧ s.trl.beOps = [] ∧ c.corrected = [] ∧ c.ready = true ∧ s.mem.selfRefresh = false ∧ 8 ≤ c.debt) ∧
    (∃ (s : State) (g k : Fin 4) (ch : Nat) (c : McChan), s.stopped = [] ∧ ch = 4 * g.val + k.val ∧ c = s.chan ch ∧ s.mem.waiting = [] ∧ s.trl.beOps = [] ∧ c.corrected = [] ∧ c.ready = true ∧ s.mem.selfRefresh = false ∧ c.debt < 8 ∧ c.repay = true ∧ 90 ≤ shortFwd c.lastPb s.now) ∧
    (∃ (s : State) (g k : Fin 4) (ch : Nat) (c : McChan) (e : _), s.stopped = [] ∧ ch = 4 * g.val + k.val ∧ c = s.chan ch ∧ s.mem.waiting = [] ∧ s.trl.beOps = [] ∧ c.corrected = [] ∧ c.ready = true ∧ s.mem.selfRefresh = false ∧ c.debt < 8 ∧ c.repay = false ∧ c.writeQ.find? (fun e => decide (s.wrPatience g < shortFwd e.entered s.now)) = some e) ∧
    (∃ (s : State) (g k : Fin 4) (ch : Nat) (c : McChan) (e : _), s.stopped = [] ∧ ch = 4 * g.val + k.val ∧ c = s.chan ch ∧ s.mem.waiting = [] ∧ s.trl.beOps = [] ∧ c.corrected = [] ∧ c.ready = true ∧ s.mem.selfRefresh = false ∧ c.debt = 0 ∧ c.repay = false ∧ c.readQ = [e] ∧ c.writeQ = []) ∧
    (∃ (s : State) (q : List McEntry) (e f : McEntry), s.stopped = [] ∧ e ∈ q ∧ 1 ≤ e.beats ∧ q.head? = some f ∧ f.meets e = true) ∧
    (∃ (s : State) (g k : Fin 4) (ch : Nat) (c : McChan), s.stopped = [] ∧ ch = 4 * g.val + k.val ∧ c = s.chan ch ∧ c.ready = true ∧ s.mem.selfRefresh = false) ∧
    (∃ (s : State) (g k : Fin 4) (ch : Nat) (c : McChan), s.stopped = [] ∧ ch = 4 * g.val + k.val ∧ c = s.chan ch ∧ (c.ready = false ∨ s.mem.selfRefresh = true)) ∧
    (∃ (s : State) (g k : Fin 4) (ch : Nat) (c : McChan), s.stopped = [] ∧ ch = 4 * g.val + k.val ∧ c = s.chan ch ∧ (Fld.MCT.TRAIN_STAT_STATE s.regs = 1 ∨ s.mcAdmitted = true)) ∧
    (∃ (s : State) (g k : Fin 4) (ch : Nat) (c : McChan), s.stopped = [] ∧ ch = 4 * g.val + k.val ∧ c = s.chan ch ∧ Fld.MCT.TRAIN_STAT_STATE s.regs ≠ 1 ∧ s.mcAdmitted = false) ∧
    (∃ (s : State) (g k : Fin 4) (ch : Nat) (c : McChan) (l : List DramLane), s.stopped = [] ∧ ch = 4 * g.val + k.val ∧ c = s.chan ch ∧ l.length = 32 ∧ Fld.MCT.TRAIN_STAT_STATE s.regs ≠ 1) ∧
    (∃ (s : State) (g k : Fin 4) (ch : Nat) (c : McChan) (l : List DramLane), s.stopped = [] ∧ ch = 4 * g.val + k.val ∧ c = s.chan ch ∧ l.length = 32 ∧ Fld.MCT.TRAIN_STAT_STATE s.regs = 1 ∧ ((∀ x, x ∈ l → 12 ≤ x.eyeTaps)) ∧ (s.dramType = 1 ∨ s.dramRate < 4)) ∧
    (∃ (s : State) (g k : Fin 4) (ch : Nat) (c : McChan) (l : List DramLane) (i : Nat) (x : DramLane), s.stopped = [] ∧ ch = 4 * g.val + k.val ∧ c = s.chan ch ∧ l.length = 32 ∧ Fld.MCT.TRAIN_STAT_STATE s.regs = 1 ∧ s.dramType = 1 ∧ l[i]? = some x ∧ x.eyeTaps < 12) ∧
    (∃ (s : State) (g k : Fin 4) (ch : Nat) (c : McChan) (l : List Int), s.stopped = [] ∧ ch = 4 * g.val + k.val ∧ c = s.chan ch ∧ l.length = 32 ∧ (Fld.MCT.RECENTRE_MS s.regs = 0 ∨ Fld.MCT.TRAIN_STAT_STATE s.regs ≠ 2)) ∧
    (∃ (s : State) (g k : Fin 4) (ch : Nat) (c : McChan) (l : List Int) (i : Nat) (d : Int), s.stopped = [] ∧ ch = 4 * g.val + k.val ∧ c = s.chan ch ∧ l.length = 32 ∧ Fld.MCT.RECENTRE_MS s.regs ≠ 0 ∧ Fld.MCT.TRAIN_STAT_STATE s.regs = 2 ∧ l[i]? = some d) :=
  ⟨⟨State.reset, 1, 1, _, _, by decide +kernel, rfl, rfl, by decide +kernel⟩,
   ⟨Mem.mcDebt, 1, 1, _, _, by decide +kernel, rfl, rfl, by decide +kernel⟩,
   ⟨Mem.mcRepay, 1, 1, _, _, by decide +kernel, rfl, rfl, by decide +kernel⟩,
   ⟨Mem.mcUrgent, 1, 1, _, _, (Mem.ent 0x500), by decide +kernel, rfl, rfl, by decide +kernel⟩,
   (by refine ⟨Mem.mcRead, 1, 1, _, _, _, ?_, rfl, rfl, ?_, ?_, ?_, ?_, ?_, ?_, ?_, rfl, ?_⟩ <;> decide +kernel),
   ⟨State.reset, [Mem.entry], Mem.entry, Mem.entry, by decide +kernel⟩,
   ⟨Mem.mcDebt, 1, 1, _, _, by decide +kernel, rfl, rfl, by decide +kernel⟩,
   ⟨State.reset, 1, 1, _, _, by decide +kernel, rfl, rfl, by decide +kernel⟩,
   ⟨Mem.mcBusy, 1, 1, _, _, by decide +kernel, rfl, rfl, by decide +kernel⟩,
   ⟨State.reset, 1, 1, _, _, by decide +kernel, rfl, rfl, by decide +kernel⟩,
   ⟨State.reset, 1, 1, _, _, Mem.goodLanes, by decide +kernel, rfl, rfl, by decide +kernel⟩,
   ⟨Mem.mcBusy, 1, 1, _, _, Mem.goodLanes, by decide +kernel, rfl, rfl, by decide +kernel⟩,
   (by refine ⟨Mem.mcBusy, 1, 1, _, _, Mem.badLanes, 5, _, ?_, rfl, rfl, ?_, ?_, ?_, rfl, ?_⟩ <;> decide +kernel),
   ⟨State.reset, 1, 1, _, _, (Mem.drifts 0), by decide +kernel, rfl, rfl, by decide +kernel⟩,
   ⟨Mem.mcDrift, 1, 1, _, _, Mem.drifts 3, 5, 3, by decide +kernel, rfl, rfl, by decide +kernel⟩⟩

/-- States and operands that meet the premises of each clause of ArbourJobs. -/
theorem witness_ArbourJobs :
    (∃ (s : State), s.stopped = []) ∧
    (∃ (s : State), s.stopped = [] ∧ (s.arbActive = false ∨ s.holding 0x4C = true ∨ s.arb.isSome = true ∨ Fld.ARB.DONE_IDX s.regs = Fld.ARB.SUB_IDX s.regs)) ∧
    (∃ (s : State) (slot d : _), s.stopped = [] ∧ s.arbActive = true ∧ s.holding 0x4C = false ∧ s.arb = none ∧ Fld.ARB.DONE_IDX s.regs = slot ∧ slot ≠ Fld.ARB.SUB_IDX s.regs ∧ s.spanError (s.arbDesc slot) 36 = none ∧ s.dramRead (s.arbDesc slot) 36 = d ∧ descBad d (s.rd Adr.MCT.CAPACITY * 2 ^ 20) = true) ∧
    (∃ (s : State) (slot d : _), s.stopped = [] ∧ s.arbActive = true ∧ s.holding 0x4C = false ∧ s.arb = none ∧ Fld.ARB.DONE_IDX s.regs = slot ∧ slot ≠ Fld.ARB.SUB_IDX s.regs ∧ s.spanError (s.arbDesc slot) 36 = none ∧ s.dramRead (s.arbDesc slot) 36 = d ∧ descBad d (s.rd Adr.MCT.CAPACITY * 2 ^ 20) = false ∧ s.arbDenied d = none) ∧
    (∃ (s : State) (slot d : _), s.stopped = [] ∧ s.arbActive = true ∧ s.holding 0x4C = false ∧ s.arb = none ∧ Fld.ARB.DONE_IDX s.regs = slot ∧ slot ≠ Fld.ARB.SUB_IDX s.regs ∧ s.spanError (s.arbDesc slot) 36 = none ∧ s.dramRead (s.arbDesc slot) 36 = d ∧ descBad d (s.rd Adr.MCT.CAPACITY * 2 ^ 20) = false ∧ (s.arbDenied d).isSome = true) ∧
    (∃ (s : State) (b : BadBeats), s.stopped = [] ∧ beatsOk b = true ∧ s.arb = none) ∧
    (∃ (s : State) (b : BadBeats) (j r : _), s.stopped = [] ∧ beatsOk b = true ∧ s.arb = some j ∧ j.early = some r ∧ r < 2 ^ 31 ∧ s.firstBad b (j.addr + 0x24) 28 = none) ∧
    (∃ (s : State) (b j d n src : _), s.stopped = [] ∧ s.arb = some j ∧ j.early = none ∧ j.desc = d ∧ arbOp d = 0 ∧ arbWrap d = 0 ∧ arbLevel d = 0 ∧ arbIdx d = 0 ∧ arbSrcLen d = n ∧ 0 < n ∧ n ≤ arbSegment d ∧ n ≤ 65535 ∧ n + 5 ≤ arbDstLen d ∧ s.firstBad b (arbSrc d) n = none ∧ s.firstBad b (arbDst d) (n + 5) = none ∧ s.dramRead (arbSrc d) n = src ∧ beatsOk b = true ∧ s.firstBad b (j.addr + 0x24) 28 = none ∧ (arbDst d + (n + 5) ≤ j.addr + 0x24 ∨ j.addr + 0x40 ≤ arbDst d)) ∧
    (∃ (s : State) (b j d out used : _), s.stopped = [] ∧ s.arb = some j ∧ j.early = none ∧ j.desc = d ∧ arbOp d = 1 ∧ s.firstBad b (arbSrc d) (arbSrcLen d) = none ∧ s.firstBad b (arbDst d) (arbDstLen d) = none ∧ inflateJob (arbWrap d) (arbDstLen d) (s.dramRead (arbSrc d) (arbSrcLen d)) = .ok (out, used) ∧ out.length < 2 ^ 32 ∧ beatsOk b = true ∧ s.firstBad b (j.addr + 0x24) 28 = none ∧ (arbDst d + out.length ≤ j.addr + 0x24 ∨ j.addr + 0x40 ≤ arbDst d)) ∧
    (∃ (s : State) (b j d u : _), s.stopped = [] ∧ beatsOk b = true ∧ s.arb = some j ∧ j.early = none ∧ j.desc = d ∧ arbOp d = 1 ∧ arbWrap d = 0 ∧ 0 < arbDstLen d ∧ s.firstBad b (arbDst d) (arbDstLen d) = none ∧ s.firstBad b (arbSrc d) (arbSrcLen d) = some (0, u) ∧ s.firstBad b (j.addr + 0x24) 28 = none ∧ (arbDst d + arbDstLen d ≤ j.addr + 0x24 ∨ j.addr + 0x40 ≤ arbDst d)) :=
  ⟨⟨State.reset, by decide +kernel⟩,
   ⟨State.reset, by decide +kernel⟩,
   (by refine ⟨Mem.arbBadD, _, _, ?_, ?_, ?_, ?_, rfl, ?_, ?_, rfl, ?_⟩ <;> decide +kernel),
   (by refine ⟨Mem.arbGood, _, _, ?_, ?_, ?_, ?_, rfl, ?_, ?_, rfl, ?_⟩ <;> decide +kernel),
   (by refine ⟨Mem.arbNot, _, _, ?_, ?_, ?_, ?_, rfl, ?_, ?_, rfl, ?_⟩ <;> decide +kernel),
   ⟨State.reset, ([] : BadBeats), by decide +kernel⟩,
   ⟨Mem.arbEarly, ([] : BadBeats), _, _, by decide +kernel, by decide +kernel, rfl, rfl, by decide +kernel⟩,
   (by refine ⟨Mem.arbStored, ([] : BadBeats), _, _, _, _, ?_, rfl, ?_, rfl, ?_, ?_, ?_, ?_, rfl, ?_, ?_, ?_, ?_, ?_, ?_, rfl, ?_⟩ <;> decide +kernel),
   (by refine ⟨Mem.arbInfl, ([] : BadBeats), _, _, _, _, ?_, rfl, ?_, rfl, ?_, ?_, ?_, rfl, ?_⟩ <;> decide +kernel),
   (by refine ⟨Mem.arbInfl, ([(0x1000, 0x481)] : BadBeats), _, _, _, ?_, ?_, rfl, ?_, rfl, ?_, ?_, ?_, ?_, rfl, ?_⟩ <;> decide +kernel)⟩

/-- States and operands that meet the premises of each clause of DovecoteAndPwm. -/
theorem witness_DovecoteAndPwm :
    (∃ (s : State) (n : Nat), s.stopped = [] ∧ 8 ≤ n ∧ n < 32 ∧ (s.slotTrig n ≠ 0 ∨ s.slotEn n = false)) ∧
    (∃ (s : State) (n : Nat), s.stopped = [] ∧ 8 ≤ n ∧ n < 32 ∧ (s.slotTrig n ≠ 1 ∨ s.slotEn n = false)) ∧
    (∃ (s : State) (n : Nat), s.stopped = [] ∧ 8 ≤ n ∧ n < 32 ∧ s.elapsed < s.timerNext n) ∧
    (∃ (s : State) (n : Nat) (m : _), s.stopped = [] ∧ 8 ≤ n ∧ n < 32 ∧ s.pwmMatch n = some m ∧ s.elapsed < m + 10 * Fld.DOV.DELAY s.regs (n - 8)) ∧
    (∃ (s : State) (n : Nat), s.stopped = [] ∧ 8 ≤ n ∧ n < 32 ∧ s.pwmMatch n = none) ∧
    (∃ (s : State) (n : Nat), s.stopped = [] ∧ 8 ≤ n ∧ n < 32 ∧ s.slotTrig n = 0 ∧ s.slotEn n = true ∧ s.timerNext n ≤ s.elapsed ∧ s.lpEn = false ∧ (s.dov.waiting.any (fun r => r.slot == n)) = true) ∧
    (∃ (s : State) (n : Nat) (k rest : _), s.stopped = [] ∧ 8 ≤ n ∧ n < 32 ∧ s.slotTrig n = 0 ∧ s.slotEn n = true ∧ s.timerNext n ≤ s.elapsed ∧ s.holding 0x05 = false ∧ s.lpEn = false ∧ s.dov.waiting = [] ∧ s.dov.fixedDue = [] ∧ s.activeSlices = k :: rest ∧ s.sliceBusy k = none) ∧
    (∃ (s : State) (n : Nat), s.stopped = [] ∧ 8 ≤ n ∧ n < 32) ∧
    (∃ (s : State) (n : Nat), s.stopped = [] ∧ 8 ≤ n ∧ n < 32 ∧ 1 ≤ Fld.DOV.PERIOD_US s.regs (n - 8) ∧ Fld.DOV.PERIOD_US s.regs (n - 8) ≤ 1048575) ∧
    (∃ (s : State) (n : Nat) (k rest m : _), s.stopped = [] ∧ 8 ≤ n ∧ n < 32 ∧ s.slotTrig n = 1 ∧ s.slotEn n = true ∧ s.pwmMatch n = some m ∧ m + 10 * Fld.DOV.DELAY s.regs (n - 8) ≤ s.elapsed ∧ s.holding 0x05 = false ∧ s.lpEn = false ∧ s.dov.waiting = [] ∧ s.dov.fixedDue = [] ∧ s.activeSlices = k :: rest ∧ s.sliceBusy k = none) ∧
    (∃ (s : State) (n : Nat) (c : PwmChan), s.stopped = [] ∧ 8 ≤ n ∧ n < 32 ∧ c.running = true ∧ c.past = [] ∧ c.evt < c.period ∧ c.start ≤ s.elapsed ∧ c.start + 10 * c.evt ≤ s.elapsed) ∧
    (∃ (s : State) (n : Nat) (k rest : _), s.stopped = [] ∧ 8 ≤ n ∧ n < 32 ∧ s.slotTrig n = 2 ∧ s.slotEn n = true ∧ s.holding 0x05 = false ∧ s.lpEn = false ∧ s.dov.waiting = [] ∧ s.dov.fixedDue = [] ∧ s.activeSlices = k :: rest ∧ s.sliceBusy k = none) ∧
    (∃ (s : State) (n : Nat) (f : Fin 8) (k rest : _), s.stopped = [] ∧ 8 ≤ n ∧ n < 32 ∧ s.pairsBegun f < s.pairsPerRound ∧ s.holding 0x05 = false ∧ s.dov.fixedDue = [] ∧ s.dov.waiting = [] ∧ s.activeSlices = k :: rest ∧ s.sliceBusy k = none) ∧
    (∃ (s : State) (n : Nat) (f : Fin 8), s.stopped = [] ∧ 8 ≤ n ∧ n < 32 ∧ s.pairsPerRound ≤ s.pairsBegun f) ∧
    (∃ (s : State) (n : Nat) (k : Fin 4), s.stopped = [] ∧ 8 ≤ n ∧ n < 32 ∧ s.sliceBusy k = none) ∧
    (∃ (s : State) (n : Nat) (k : Fin 4) (f : _), s.stopped = [] ∧ 8 ≤ n ∧ n < 32 ∧ s.sliceBusy k = some (.fixedVolt f)) ∧
    (∃ (s : State) (n : Nat) (k : Fin 4) (f sum cnt : _), s.stopped = [] ∧ 8 ≤ n ∧ n < 32 ∧ s.sliceBusy k = some (.fixedCurr f) ∧ s.dov.waiting = [] ∧ s.dov.fixedDue = [] ∧ s.dov.retiring = none ∧ SMap.get (fun _ => (0, 0)) s.dov.sums f = (sum, cnt)) ∧
    (∃ (s : State) (n : Nat) (k : Fin 4) (code : BitVec 12) (st old co cg so sg r : _), s.stopped = [] ∧ 8 ≤ n ∧ n < 32 ∧ s.sliceBusy k = some (.slot n st old co cg so sg) ∧ s.dov.waiting = [] ∧ s.dov.fixedDue = [] ∧ s.dov.retiring = none ∧ r = dovResult code.toNat so sg co cg) ∧
    (∃ (s : State) (n : Nat), s.stopped = [] ∧ 8 ≤ n ∧ n < 32 ∧ s.dov.retiring.isSome = true) ∧
    (∃ (s : State) (n : Nat) (k j : _), s.stopped = [] ∧ 8 ≤ n ∧ n < 32 ∧ s.dov.retiring = some k ∧ k < 4 ∧ s.lpEn = false ∧ j < 4) ∧
    (∃ (s : State) (n : Nat), s.stopped = [] ∧ 8 ≤ n ∧ n < 32 ∧ s.lpEn = true) ∧
    (∃ (s : State) (n : Nat) (k : _), s.stopped = [] ∧ 8 ≤ n ∧ n < 32 ∧ s.dov.retiring = some k ∧ k < 4 ∧ s.lpEn = false ∧ s.sliceBusy k = none) ∧
    (∃ (s : State) (n : Nat), s.stopped = [] ∧ 8 ≤ n ∧ n < 32 ∧ (s.lpEn = true ∨ s.dov.borrowed = true)) ∧
    (∃ (s : State) (n : Nat) (mL mH gain ofs : _), s.stopped = [] ∧ 8 ≤ n ∧ n < 32 ∧ s.lpEn = false ∧ s.dov.borrowed = false ∧ mH ≠ mL ∧ gain = roundDiv (49152 * 2 ^ 15) (mH - mL) ∧ ofs = mL - roundDiv (8192 * (mH - mL)) 49152) ∧
    (∃ (s : State) (n : Nat), s.stopped = [] ∧ 8 ≤ n ∧ n < 32 ∧ (s.lpEn = true ∨ s.holding 0x05 = true ∨ s.dov.calReady = false ∨ s.dov.borrowed = true ∨ s.dov.roundsSince < s.calRounds)) ∧
    (∃ (s : State) (n : Nat) (old : _), s.stopped = [] ∧ 8 ≤ n ∧ n < 32 ∧ old < 4 ∧ s.lpEn = false ∧ s.holding 0x05 = false ∧ s.dov.calReady = true ∧ s.dov.borrowed = false ∧ s.dov.retiring = none ∧ s.calRounds ≤ s.dov.roundsSince ∧ s.dov.calOrder.find? (fun k => k != Fld.DOV.CAL_STAT_SPARE s.regs) = some old ∧ s.sliceBusy old = none ∧ s.dov.waiting = [] ∧ s.dov.fixedDue = []) ∧
    (∃ (s : State) (n : Nat) (p : Fin 8), s.stopped = [] ∧ 8 ≤ n ∧ n < 32 ∧ (s.pwmOf p).running = false) ∧
    (∃ (s : State) (n : Nat) (p : Fin 8), s.stopped = [] ∧ 8 ≤ n ∧ n < 32 ∧ (s.pwmOf p).boundary s.elapsed = (s.pwmOf p).start) ∧
    (∃ (s : State) (n : Nat) (p : Fin 8), s.stopped = [] ∧ 8 ≤ n ∧ n < 32 ∧ (s.pwmOf p).running = true ∧ (s.pwmOf p).boundary s.elapsed ≠ (s.pwmOf p).start ∧ Fld.DOV.PWM_CFG_EN s.regs p = 1 ∧ 2 ≤ Fld.DOV.PERIOD s.regs p ∧ s.pwmLoad p (s.pwmOf p).start (s.pwmOf p).past ≠ s.pwmOf p) ∧
    (∃ (s : State) (n : Nat) (p : Fin 8), s.stopped = [] ∧ 8 ≤ n ∧ n < 32 ∧ (s.pwmOf p).running = true ∧ (s.pwmOf p).boundary s.elapsed ≠ (s.pwmOf p).start ∧ Fld.DOV.PWM_CFG_EN s.regs p = 0) ∧
    (∃ (s : State) (n : Nat) (p : _), s.stopped = [] ∧ 8 ≤ n ∧ n < 32 ∧ (s.pwmOf p).hiZ = false ∧ 0 < (s.pwmOf p).period) ∧
    (∃ (s : State) (n : Nat), s.stopped = [] ∧ 8 ≤ n ∧ n < 32 ∧ s.pwr.enCore = true) ∧
    (∃ (s : State) (n : Nat), s.stopped = [] ∧ 8 ≤ n ∧ n < 32 ∧ s.pwr.enCore = false) :=
  ⟨⟨State.reset, 8, by decide +kernel⟩,
   ⟨State.reset, 8, by decide +kernel⟩,
   ⟨State.reset, 8, by decide +kernel⟩,
   (by refine ⟨Mem.pwmSoon, 8, _, ?_, ?_, ?_, rfl, ?_⟩ <;> decide +kernel),
   ⟨State.reset, 8, by decide +kernel⟩,
   ⟨Mem.timerMerges, 8, by decide +kernel⟩,
   (by refine ⟨Mem.timerDue, 8, _, _, ?_, ?_, ?_, ?_, ?_, ?_, ?_, ?_, ?_, ?_, rfl, ?_⟩ <;> decide +kernel),
   ⟨State.reset, 8, by decide +kernel⟩,
   ⟨State.reset, 8, by decide +kernel⟩,
   (by refine ⟨Mem.dovPwm, 8, _, _, _, ?_, ?_, ?_, ?_, ?_, rfl, ?_, ?_, ?_, ?_, ?_, rfl, ?_⟩ <;> decide +kernel),
   ⟨Mem.timerDue, 8, { pwmReset with running := true, evt := 300 }, by decide +kernel⟩,
   (by refine ⟨Mem.dovSw, 8, _, _, ?_, ?_, ?_, ?_, ?_, ?_, ?_, ?_, ?_, rfl, ?_⟩ <;> decide +kernel),
   (by refine ⟨State.reset, 8, 0, _, _, ?_, ?_, ?_, ?_, ?_, ?_, ?_, rfl, ?_⟩ <;> decide +kernel),
   ⟨Mem.dovFull, 8, 3, by decide +kernel⟩,
   ⟨State.reset, 8, 0, by decide +kernel⟩,
   (by refine ⟨Mem.dovVolt, 8, 1, _, ?_, ?_, ?_, rfl⟩ <;> decide +kernel),
   (by refine ⟨Mem.dovCurr, 8, 1, _, _, _, ?_, ?_, ?_, rfl, ?_, ?_, ?_, rfl⟩ <;> decide +kernel),
   (by refine ⟨Mem.dovConv, _, 1, 0, _, _, _, _, _, _, _, ?_, ?_, ?_, rfl, ?_, ?_, ?_, rfl⟩ <;> decide +kernel),
   ⟨Mem.retires, 8, by decide +kernel⟩,
   (by refine ⟨Mem.retires, 8, _, 0, ?_, ?_, ?_, rfl, ?_⟩ <;> decide +kernel),
   ⟨Mem.lowPower, 8, by decide +kernel⟩,
   (by refine ⟨Mem.retires, 8, _, ?_, ?_, ?_, rfl, ?_⟩ <;> decide +kernel),
   ⟨Mem.dovLent, 8, by decide +kernel⟩,
   (by refine ⟨State.reset, 8, 512, 3584, _, _, ?_, ?_, ?_, ?_, ?_, ?_, rfl, rfl⟩ <;> decide +kernel),
   ⟨State.reset, 8, by decide +kernel⟩,
   (by refine ⟨Mem.dovRot, 8, _, ?_, ?_, ?_, ?_, ?_, ?_, ?_, ?_, ?_, ?_, rfl, ?_⟩ <;> decide +kernel),
   ⟨State.reset, 8, 0, by decide +kernel⟩,
   ⟨State.reset, 8, 0, by decide +kernel⟩,
   ⟨Mem.pwmLoads, 8, 1, by decide +kernel⟩,
   ⟨Mem.pwmStops, 8, 1, by decide +kernel⟩,
   ⟨Mem.pwmLevel, 8, 1, by decide +kernel⟩,
   ⟨Mem.core, 8, by decide +kernel⟩,
   ⟨State.reset, 8, by decide +kernel⟩⟩

/-- States and operands that meet the premises of each clause of FalilanPorts. -/
theorem witness_FalilanPorts :
    (∃ (s : State) (p : Fin 4), s.stopped = [] ∧ ((s.flkPort p).running = false ∨ s.linkUp p = true)) ∧
    (∃ (s : State) (p : Fin 4), s.stopped = [] ∧ (s.flkPort p).running = true ∧ s.linkUp p = false) ∧
    (∃ (s : State), s.stopped = []) ∧
    (∃ (s : State) (p : Fin 4), s.stopped = [] ∧ s.linkUp p = false) ∧
    (∃ (s : State) (p : Fin 4), s.stopped = [] ∧ s.linkUp p = true) ∧
    (∃ (s : State) (p : Fin 4), s.stopped = [] ∧ (s.flkPort p).running = false ∧ s.hie ≠ 5) ∧
    (∃ (s : State) (p : Fin 4), s.stopped = [] ∧ (s.flkPort p).running = true ∧ s.linkUp p = false ∧ s.hie ≠ 5) ∧
    (∃ (s : State) (p : Fin 4), s.stopped = [] ∧ (s.flkPort p).running = true ∧ s.linkUp p = true ∧ s.hie ≠ 5 ∧ s.upPort ≠ some p.val ∧ s.orgQueue 0 = []) ∧
    (∃ (s : State) (p : Fin 4) (t4 : Option Nat), s.stopped = [] ∧ s.linkUp p = true ∧ ((s.flkPort p).exchange = none ∨ t4 = none ∨ s.upPort ≠ some p.val ∨ (s.flkPort p).hbLast = none)) ∧
    (∃ (s : State) (p : Fin 4) (a1 a2 a3 a4 : Nat) (delay e : Int), s.stopped = [] ∧ s.linkUp p = true ∧ s.upPort = some p.val ∧ (s.flkPort p).hbLast.isSome = true ∧ s.refState 7 ≠ 0 ∧ (s.flkPort p).exchange = some (a1, a2, a3) ∧ delay = Int.fdiv (((a2 : Int) - a1) + ((a4 : Int) - a3)) 2 ∧ e = (a1 : Int) + delay + signed (Fld.FLK.ASYM s.regs p) 32 - a2 ∧ -(2 ^ 47 : Int) ≤ e + s.refOffset 7 ∧ e + s.refOffset 7 < 2 ^ 47) :=
  ⟨⟨State.reset, 1, by decide +kernel⟩,
   ⟨Flk.flkRun, 1, by decide +kernel⟩,
   ⟨State.reset, by decide +kernel⟩,
   ⟨State.reset, 1, by decide +kernel⟩,
   ⟨Flk.flkUp, 1, by decide +kernel⟩,
   ⟨State.reset, 1, by decide +kernel⟩,
   ⟨Flk.flkRun, 1, by decide +kernel⟩,
   ⟨Flk.flkUp, 1, by decide +kernel⟩,
   ⟨Flk.flkUp, 1, none, by decide +kernel⟩,
   (by refine ⟨Flk.flkRefHb, 1, _, _, _, 4500, _, _, ?_, ?_, ?_, ?_, ?_, rfl, rfl, rfl, ?_⟩ <;> decide +kernel)⟩

/-- States and operands that meet the premises of each clause of FalilanChannels. -/
theorem witness_FalilanChannels :
    (∃ (s : State) (p : Fin 4) (c : Fin 8) (k : FlkChan), s.stopped = [] ∧ k = s.flkChan p c ∧ (k.running = false ∨ Fld.FLK.CH_CFG_DIR s.regs p c = 1 ∨ s.linkUp p = false ∨ s.holding (flkPage p) = true)) ∧
    (∃ (s : State) (p : Fin 4) (c : Fin 8) (k : FlkChan), s.stopped = [] ∧ k = s.flkChan p c ∧ s.chNext p c = none) ∧
    (∃ (s : State) (p : Fin 4) (c : Fin 8) (k : FlkChan), s.stopped = [] ∧ k = s.flkChan p c ∧ s.chNext p c = none ∧ k.hold = none) ∧
    (∃ (s : State) (p : Fin 4) (c : Fin 8) (k : FlkChan) (src i : _), s.stopped = [] ∧ k = s.flkChan p c ∧ k.running = true ∧ Fld.FLK.CH_CFG_DIR s.regs p c = 0 ∧ s.linkUp p = true ∧ s.holding (flkPage p) = false ∧ s.chNext p c = none ∧ k.hold = some (src, i)) ∧
    (∃ (s : State) (p : Fin 4) (c : Fin 8) (k : FlkChan) (n : _) (data desc : List Byte), s.stopped = [] ∧ k = s.flkChan p c ∧ k.running = true ∧ Fld.FLK.CH_CFG_DIR s.regs p c = 0 ∧ s.linkUp p = true ∧ s.holding (flkPage p) = false ∧ s.chNext p c = some (n, data, desc)) ∧
    (∃ (s : State) (p : Fin 4) (c : Fin 8) (k : FlkChan) (b : _), s.stopped = [] ∧ k = s.flkChan p c ∧ k.running = true ∧ Fld.FLK.CH_CFG_DIR s.regs p c = 0 ∧ s.linkUp p = true ∧ s.holding (flkPage p) = false ∧ (s.chKind p c = 0 ∨ s.chKind p c = 3) ∧ k.due = [] ∧ s.newestOf (s.chSource p c) = some b ∧ ((∀ l, k.last = some l → serial 32 b.seq l = .later))) ∧
    (∃ (s : State) (p : Fin 4) (c : Fin 8) (k : FlkChan) (b rest : _), s.stopped = [] ∧ k = s.flkChan p c ∧ k.running = true ∧ Fld.FLK.CH_CFG_DIR s.regs p c = 0 ∧ s.linkUp p = true ∧ s.holding (flkPage p) = false ∧ (s.chKind p c = 0 ∨ s.chKind p c = 3) ∧ k.due = b :: rest) ∧
    (∃ (s : State) (p : Fin 4) (c : Fin 8) (k : FlkChan) (src : Nat) (b : BufFrame), s.stopped = [] ∧ k = s.flkChan p c ∧ s.sendsBuffers p c src = true ∧ k.unsent b.seq = true) ∧
    (∃ (s : State) (p : Fin 4) (c : Fin 8) (k : FlkChan), s.stopped = [] ∧ k = s.flkChan p c ∧ (k.running = false ∨ Fld.FLK.CH_CFG_DIR s.regs p c = 0 ∨ s.holding (flkPage p) = true)) ∧
    (∃ (s : State) (p : Fin 4) (c : Fin 8) (k : FlkChan), s.stopped = [] ∧ k = s.flkChan p c ∧ k.running = true ∧ Fld.FLK.CH_CFG_DIR s.regs p c = 1 ∧ s.holding (flkPage p) = false ∧ s.chKind p c ≠ 2) ∧
    (∃ (s : State) (p : Fin 4) (c : Fin 8) (k : FlkChan), s.stopped = [] ∧ k = s.flkChan p c ∧ k.running = true ∧ Fld.FLK.CH_CFG_DIR s.regs p c = 1 ∧ s.holding (flkPage p) = false ∧ (s.chKind p c = 0 ∨ s.chKind p c = 3) ∧ s.freeBuffer (s.chTarget p c).1 (s.chTarget p c).2.2.2.1 = none) ∧
    (∃ (s : State) (p : Fin 4) (c : Fin 8) (k : FlkChan) (src unit stride nbuf descUnit b : _), s.stopped = [] ∧ k = s.flkChan p c ∧ k.running = true ∧ Fld.FLK.CH_CFG_DIR s.regs p c = 1 ∧ s.holding (flkPage p) = false ∧ (s.chKind p c = 0 ∨ s.chKind p c = 3) ∧ s.chTarget p c = (src, unit, stride, nbuf, descUnit, none) ∧ s.freeBuffer src nbuf = some b) ∧
    (∃ (s : State) (p : Fin 4) (c : Fin 8) (k : FlkChan) (data desc : List Byte) (base units u : _), s.stopped = [] ∧ k = s.flkChan p c ∧ k.running = true ∧ Fld.FLK.CH_CFG_DIR s.regs p c = 1 ∧ s.holding (flkPage p) = false ∧ s.chKind p c = 1 ∧ base = Fld.FLK.BUF_UNIT s.regs p c ∧ units = Fld.FLK.BUF_STRIDE s.regs p c ∧ 2 ≤ units ∧ u = k.ringUnit ∧ u < units ∧ desc.length = 4096 ∧ data.length = 4096 ∧ s.spanError (ringAddr base units u 0) 4096 = none ∧ s.spanError (ringAddr base units (u + 1) 0) 4096 = none ∧ s.grantsDram (ringAddr base units u 0 / 4096) (s.channelMaster p) true = true ∧ s.grantsDram (ringAddr base units (u + 1) 0 / 4096) (s.channelMaster p) true = true) ∧
    (∃ (s : State) (p : Fin 4) (c : Fin 8) (k : FlkChan) (addr : _) (b : List Byte), s.stopped = [] ∧ k = s.flkChan p c ∧ b ≠ [] ∧ addr % 4096 + b.length ≤ 4096 ∧ s.grantsDram (addr / 4096) (0x42 + 4 * Fld.FLK.LINK_STAT_NEIGHBOUR_ID s.regs p) true = true) ∧
    (∃ (s : State) (p : Fin 4) (c : Fin 8) (k : FlkChan) (addr : _) (b : List Byte), s.stopped = [] ∧ k = s.flkChan p c ∧ b ≠ [] ∧ addr % 4096 + b.length ≤ 4096 ∧ s.grantsDram (addr / 4096) (0x42 + 4 * Fld.FLK.LINK_STAT_NEIGHBOUR_ID s.regs p) true = false) ∧
    (∃ (s : State) (p : Fin 4) (c : Fin 8) (k : FlkChan) (desc : List Byte), s.stopped = [] ∧ k = s.flkChan p c ∧ k.running = true ∧ Fld.FLK.CH_CFG_DIR s.regs p c = 1 ∧ s.holding (flkPage p) = false ∧ s.chKind p c = 2 ∧ s.orgQueue 0 = [] ∧ s.orgOpen 0 = false ∧ ((∀ b, b ∈ s.links.borders → b.count = fieldOf desc 0 4 → b.right = (Fld.FLK.CH_CFG_EDGE s.regs p c == 1) → b.ended = true))) ∧
    (∃ (s : State) (p : Fin 4) (c : Fin 8) (k : FlkChan) (desc : List Byte) (b : _), s.stopped = [] ∧ k = s.flkChan p c ∧ k.running = true ∧ Fld.FLK.CH_CFG_DIR s.regs p c = 1 ∧ s.holding (flkPage p) = false ∧ s.chKind p c = 2 ∧ s.orgQueue 0 = [] ∧ s.orgOpen 0 = false ∧ s.links.borders = [b] ∧ b.count = fieldOf desc 0 4 ∧ b.right = (Fld.FLK.CH_CFG_EDGE s.regs p c == 1) ∧ b.ended = false) ∧
    (∃ (s : State) (p : Fin 4) (c : Fin 8) (k : FlkChan) (n count : _), s.stopped = [] ∧ k = s.flkChan p c ∧ s.borderSenders n count = [(p.val, c.val, false)]) ∧
    (∃ (s : State) (p : Fin 4) (c : Fin 8) (k : FlkChan), s.stopped = [] ∧ k = s.flkChan p c ∧ s.borderChannels = [(p.val, c.val, true)] ∧ s.linkUp p = true ∧ ((∀ b, b ∈ s.links.borders → b.right = false))) ∧
    (∃ (s : State) (p : Fin 4) (c : Fin 8) (k : FlkChan), s.stopped = [] ∧ k = s.flkChan p c ∧ s.borderChannels = [(p.val, c.val, true)] ∧ s.linkUp p = false) :=
  ⟨⟨State.reset, 1, 2, _, by decide +kernel, rfl, by decide +kernel⟩,
   ⟨State.reset, 1, 2, _, by decide +kernel, rfl, by decide +kernel⟩,
   ⟨State.reset, 1, 2, _, by decide +kernel, rfl, by decide +kernel⟩,
   (by refine ⟨Flk.chEnds, 1, 2, _, _, _, ?_, rfl, ?_, ?_, ?_, ?_, ?_, rfl⟩ <;> decide +kernel),
   (by refine ⟨Flk.chView, 1, 2, _, _, _, _, ?_, rfl, ?_, ?_, ?_, ?_, rfl⟩ <;> decide +kernel),
   (by refine ⟨Flk.chView, 1, 2, _, _, ?_, rfl, ?_, ?_, ?_, ?_, ?_, ?_, rfl, ?_⟩ <;> decide +kernel),
   (by refine ⟨Flk.chDue, 1, 2, _, _, _, ?_, rfl, ?_, ?_, ?_, ?_, ?_, rfl⟩ <;> decide +kernel),
   ⟨Flk.chFirst, 1, 2, _, (viewSource 0), buf, by decide +kernel, rfl, by decide +kernel⟩,
   ⟨State.reset, 1, 2, _, by decide +kernel, rfl, by decide +kernel⟩,
   ⟨Flk.chRx, 1, 2, _, by decide +kernel, rfl, by decide +kernel⟩,
   ⟨Flk.chRxHeld, 1, 2, _, by decide +kernel, rfl, by decide +kernel⟩,
   (by refine ⟨Flk.chRx, 1, 2, _, _, _, _, _, _, _, ?_, rfl, ?_, ?_, ?_, ?_, rfl, rfl⟩ <;> decide +kernel),
   (by refine ⟨Flk.chEbr, 1, 2, _, (List.replicate 4096 7), Flk.descEbr, _, _, _, ?_, rfl, ?_, ?_, ?_, ?_, rfl, rfl, ?_, rfl, ?_⟩ <;> decide +kernel),
   ⟨Flk.chRx, 1, 2, _, 0x10000, [1,2], by decide +kernel, rfl, by decide +kernel⟩,
   ⟨State.reset, 1, 2, _, 0x10000, [1,2], by decide +kernel, rfl, by decide +kernel⟩,
   ⟨Flk.chBorder, 1, 2, _, Flk.descRx, by decide +kernel, rfl, by decide +kernel⟩,
   (by refine ⟨Flk.chHalf, 1, 2, _, Flk.descRx, _, ?_, rfl, ?_, ?_, ?_, ?_, ?_, ?_, rfl, ?_⟩ <;> decide +kernel),
   ⟨Flk.chEdge, 1, 2, _, 0, 5, by decide +kernel, rfl, by decide +kernel⟩,
   ⟨Flk.chBorder, 1, 2, _, by decide +kernel, rfl, by decide +kernel⟩,
   ⟨Flk.chBorderDown, 1, 2, _, by decide +kernel, rfl, by decide +kernel⟩⟩

/-- States and operands that meet the premises of each clause of RemoteRegisterAccess. -/
theorem witness_RemoteRegisterAccess :
    (∃ (s : State) (a : RemoteAccess), s.stopped = [] ∧ a.wellFormed = true ∧ (s.ownId = none ∨ s.ownId = some a.origin) ∧ a.target ≠ a.origin ∧ (a.k ≠ 1 ∨ s.grants (0x120 + a.target) (Fld.GTH.F0_MID s.regs) a.isWrite = true)) ∧
    (∃ (s : State) (a : RemoteAccess) (unit code : _), s.stopped = [] ∧ a.wellFormed = true ∧ (s.ownId = none ∨ s.ownId = some a.origin) ∧ a.target ≠ a.origin ∧ (a.k ≠ 1 ∨ s.grants (0x120 + a.target) (Fld.GTH.F0_MID s.regs) a.isWrite = true) ∧ unit < 2 ^ 12 ∧ code < 2 ^ 8) ∧
    (∃ (s : State) (a : RemoteAccess), s.stopped = [] ∧ a.wellFormed = true ∧ (s.ownId = none ∨ s.ownId = some a.origin) ∧ a.k = 1 ∧ s.grants (0x120 + a.target) (Fld.GTH.F0_MID s.regs) a.isWrite = false) ∧
    (∃ (s : State) (a : RemoteAccess), s.stopped = [] ∧ a.wellFormed = true ∧ s.ownId = some a.target ∧ a.origin ≠ a.target ∧ a.isWrite = true ∧ s.isolated = true ∧ ¬ (a.page = 0x54 ∧ a.off = 0x050)) ∧
    (∃ (s : State) (a : RemoteAccess), s.stopped = [] ∧ a.wellFormed = true ∧ s.ownId = some a.target ∧ a.origin ≠ a.target ∧ (a.isWrite = false ∨ s.isolated = false) ∧ s.grants a.page (remoteMaster a) a.isWrite = false) ∧
    (∃ (s : State) (a : RemoteAccess), s.stopped = [] ∧ a.wellFormed = true ∧ s.ownId = some a.target ∧ a.origin ≠ a.target ∧ s.grants a.page (remoteMaster a) a.isWrite = true ∧ a.isWrite = false) ∧
    (∃ (s : State) (a : RemoteAccess), s.stopped = [] ∧ a.wellFormed = true ∧ s.ownId = some a.target ∧ a.origin ≠ a.target ∧ s.grants a.page (remoteMaster a) a.isWrite = true ∧ a.isWrite = true ∧ s.isolated = false) ∧
    (∃ (s : State) (a : RemoteAccess) (d : _), s.stopped = [] ∧ a.wellFormed = true ∧ s.ownId = some d ∧ d ≠ a.origin ∧ d ≠ a.target) ∧
    (∃ (s : State) (a : RemoteAccess), s.stopped = [] ∧ a.wellFormed = true ∧ s.ownId = some a.origin ∧ a.target = a.origin ∧ a.k = 0 ∧ a.isWrite = false) ∧
    (∃ (s : State) (a : RemoteAccess), s.stopped = [] ∧ a.wellFormed = true ∧ s.ownId = some a.origin ∧ a.target = a.origin ∧ a.k = 0 ∧ a.isWrite = true) ∧
    (∃ (s : State) (a : RemoteAccess) (d : _), s.stopped = [] ∧ a.wellFormed = true ∧ s.ownId = some d ∧ d ≠ a.origin) ∧
    (∃ (s : State) (a : RemoteAccess), s.stopped = [] ∧ a.wellFormed = true ∧ (s.ownId = none ∨ s.ownId = some a.origin)) :=
  ⟨⟨State.reset, (Flk.far 0 false), by decide +kernel⟩,
   ⟨State.reset, (Flk.far 0 false), 9, 3, by decide +kernel⟩,
   ⟨State.reset, (Flk.far 1 false), by decide +kernel⟩,
   ⟨Flk.dev5Iso, (Flk.far 0 true), by decide +kernel⟩,
   ⟨Flk.dev5, (Flk.far 0 false), by decide +kernel⟩,
   ⟨Flk.dev5Grant, (Flk.far 0 false), by decide +kernel⟩,
   ⟨Flk.dev5Grant, (Flk.far 0 true), by decide +kernel⟩,
   ⟨Flk.dev5, (Flk.self 0 false), _, by decide +kernel, by decide +kernel, rfl, by decide +kernel⟩,
   ⟨Flk.dev3, (Flk.self 0 false), by decide +kernel⟩,
   ⟨Flk.dev3, (Flk.self 0 true), by decide +kernel⟩,
   ⟨Flk.dev5, (Flk.far 0 false), _, by decide +kernel, by decide +kernel, rfl, by decide +kernel⟩,
   ⟨State.reset, (Flk.far 0 false), by decide +kernel⟩⟩

/-- States and operands that meet the premises of each clause of CascadeMessages. -/
theorem witness_CascadeMessages :
    (∃ (s : State) (n : _), s.stopped = [] ∧ n ≤ 15) ∧
    (∃ (s : State) (n : _), s.stopped = [] ∧ 15 < n) ∧
    (∃ (s : State), s.stopped = [] ∧ Fld.HIE.HIE_STAT_ID_VALID s.regs = 1) ∧
    (∃ (s : State), s.stopped = [] ∧ Fld.HIE.HIE_STAT_ID_VALID s.regs = 0) ∧
    (∃ (s : State), s.stopped = [] ∧ s.links.retries < 8) ∧
    (∃ (s : State), s.stopped = [] ∧ 8 ≤ s.links.retries) ∧
    (∃ (s : State) (b : List Byte), s.stopped = [] ∧ b.length ≤ 4096) ∧
    (∃ (s : State) (b : List Byte), s.stopped = [] ∧ b.length ≤ 4096 ∧ (s.pwr.boot ≠ .waitImage ∨ s.pwr.imageTaken = true ∨ s.pwr.casRoot = true)) ∧
    (∃ (s : State) (b : List Byte), s.stopped = [] ∧ b.length ≤ 4096 ∧ s.pwr.image ≠ []) ∧
    (∃ (s : State) (b : List Byte), s.stopped = [] ∧ b.length ≤ 4096 ∧ s.pwr.image = []) ∧
    (∃ (s : State) (b : List Byte), s.stopped = [] ∧ b.length ≤ 4096 ∧ s.pwr.boot = .waitImage ∧ s.pwr.imageTaken = false ∧ s.pwr.casRoot = false) ∧
    (∃ (s : State) (o : _) (b : List Byte) (image c : _), s.stopped = [] ∧ b.length ≤ 4096 ∧ s.pwr.boot = .waitImage ∧ s.pwr.imageTaken = false ∧ s.pwr.casRoot = false ∧ image = SMap.getList bootBufDefault (SMap.setList bootBufDefault s.pwr.bootBuf o b) 0 (min (2 ^ 20) (max s.pwr.imageLen (o + b.length))) ∧ checkCopy image = some c) ∧
    (∃ (s : State) (o : _) (b : List Byte) (image : _), s.stopped = [] ∧ b.length ≤ 4096 ∧ s.pwr.boot = .waitImage ∧ s.pwr.imageTaken = false ∧ s.pwr.casRoot = false ∧ image = SMap.getList bootBufDefault (SMap.setList bootBufDefault s.pwr.bootBuf o b) 0 (min (2 ^ 20) (max s.pwr.imageLen (o + b.length))) ∧ checkCopy image = none) :=
  ⟨⟨State.reset, 0, by decide +kernel⟩,
   ⟨State.reset, 16, by decide +kernel⟩,
   ⟨Hie.hasId, by decide +kernel⟩,
   ⟨State.reset, by decide +kernel⟩,
   ⟨State.reset, by decide +kernel⟩,
   ⟨Hie.retry8, by decide +kernel⟩,
   ⟨State.reset, Hie.copy5, by decide +kernel⟩,
   ⟨State.reset, Hie.copy5, by decide +kernel⟩,
   ⟨Hie.imaged, ([] : List Byte), by decide +kernel⟩,
   ⟨State.reset, Hie.copy5, by decide +kernel⟩,
   ⟨Hie.waits, Hie.copy5, by decide +kernel⟩,
   (by refine ⟨Hie.waits, 0, Hie.copy5, _, _, ?_, ?_, ?_, ?_, ?_, rfl, rfl⟩ <;> decide +kernel),
   (by refine ⟨Hie.waits, 0, (Hie.copy5.drop 20), _, ?_, ?_, ?_, ?_, ?_, rfl, ?_⟩ <;> decide +kernel)⟩

/-- States and operands that meet the premises of each clause of HeartbeatsAndPartitions. -/
theorem witness_HeartbeatsAndPartitions :
    (∃ (s : State) (p : Fin 4) (h : Heartbeat), s.stopped = [] ∧ h.wellFormed = true ∧ s.linkUp p = false) ∧
    (∃ (s : State) (p : Fin 4) (h : Heartbeat) (l : _), s.stopped = [] ∧ h.wellFormed = true ∧ (s.flkPort p).hbLast = some l ∧ serial 8 h.seq l ≠ .later) ∧
    (∃ (s : State) (h : Heartbeat), s.stopped = [] ∧ h.wellFormed = true ∧ s.hie ≠ 2 ∧ serial 16 h.epoch (Fld.HIE.EPOCH s.regs) = .earlier) ∧
    (∃ (s : State) (p : Fin 4) (h : Heartbeat), s.stopped = [] ∧ h.wellFormed = true ∧ s.linkUp p = true ∧ ((∀ l, (s.flkPort p).hbLast = some l → serial 8 h.seq l = .later)) ∧ (serial 16 h.epoch (Fld.HIE.EPOCH s.regs) = .equal ∨ serial 16 h.epoch (Fld.HIE.EPOCH s.regs) = .later)) ∧
    (∃ (s : State) (p : Fin 4) (h : Heartbeat), s.stopped = [] ∧ h.wellFormed = true ∧ (s.linkUp p = false ∨ (s.flkPort p).hbMissed < 3 ∨ (s.flkPort p).lost = true)) ∧
    (∃ (s : State) (p : Fin 4) (h : Heartbeat), s.stopped = [] ∧ h.wellFormed = true ∧ s.linkUp p = true ∧ 3 ≤ (s.flkPort p).hbMissed ∧ (s.flkPort p).lost = false ∧ s.hie ≠ 5 ∧ s.upPort ≠ some p.val) ∧
    (∃ (s : State) (h : Heartbeat), s.stopped = [] ∧ h.wellFormed = true ∧ (s.hie ≠ 0 ∨ s.idReady = false ∨ s.upPort ≠ none)) ∧
    (∃ (s : State) (h : Heartbeat), s.stopped = [] ∧ h.wellFormed = true ∧ s.hie = 0 ∧ s.idReady = true ∧ s.upPort = none ∧ s.links.sawAlive = true) ∧
    (∃ (s : State) (h : Heartbeat), s.stopped = [] ∧ h.wellFormed = true ∧ s.hie = 0 ∧ s.idReady = true ∧ s.upPort = none ∧ s.links.sawAlive = false ∧ 20 ≤ Fld.HIE.ALIVE_LOW s.regs) ∧
    (∃ (s : State) (h : Heartbeat), s.stopped = [] ∧ h.wellFormed = true ∧ s.hie = 0 ∧ s.links.sawAlive = false ∧ Fld.HIE.ALIVE_LOW s.regs < 20) ∧
    (∃ (s : State) (h : Heartbeat), s.stopped = [] ∧ h.wellFormed = true ∧ (s.hie ≠ 4 ∨ Fld.HIE.ROLE_CFG_DEPUTY s.regs = 0 ∨ Fld.HIE.ALIVE_LOW s.regs < 10 + 2 * Fld.HIE.ROLE_CFG_DEPUTY_RANK s.regs)) ∧
    (∃ (s : State) (h : Heartbeat), s.stopped = [] ∧ h.wellFormed = true ∧ s.hie = 4 ∧ Fld.HIE.ROLE_CFG_DEPUTY s.regs = 1 ∧ 10 + 2 * Fld.HIE.ROLE_CFG_DEPUTY_RANK s.regs ≤ Fld.HIE.ALIVE_LOW s.regs) ∧
    (∃ (s : State) (h : Heartbeat) (m : _) (v : Word), s.stopped = [] ∧ h.wellFormed = true ∧ m < 512 ∧ s.refusesRemote m 0x54 0x050 = false ∧ (s.hie ≠ 5 ∨ bitOf v.toNat 0 = false ∨ s.managerMaster m = false)) ∧
    (∃ (s : State) (h : Heartbeat) (m : _), s.stopped = [] ∧ h.wellFormed = true ∧ m < 512 ∧ (s.hie = 4 ∨ s.hie = 5) ∧ 0x40 ≤ m ∧ m < 0x80 ∧ s.managerMaster m = false) ∧
    (∃ (s : State) (h : Heartbeat) (q : _), s.stopped = [] ∧ h.wellFormed = true ∧ s.upPort = some q ∧ (s.flkPort q).hbState = 2) ∧
    (∃ (s : State) (h : Heartbeat), s.stopped = [] ∧ h.wellFormed = true) ∧
    (∃ (s : State) (p : Fin 4) (h : Heartbeat) (m : _) (v : Word), s.stopped = [] ∧ h.wellFormed = true ∧ m < 512 ∧ s.hie = 5 ∧ bitOf v.toNat 0 = true ∧ s.managerMaster m = true ∧ s.upPort = some p.val) ∧
    (∃ (s : State) (h : Heartbeat), s.stopped = [] ∧ h.wellFormed = true ∧ s.hie ≠ 2) ∧
    (∃ (s : State) (h : Heartbeat), s.stopped = [] ∧ h.wellFormed = true ∧ s.hie = 2) :=
  ⟨⟨State.reset, 1, (Hie.hb 250 2 8), by decide +kernel⟩,
   ⟨Hie.hbUp, 1, (Hie.hb 250 2 8), _, by decide +kernel, by decide +kernel, rfl, by decide +kernel⟩,
   ⟨Hie.hbUp, (Hie.hb 250 2 8), by decide +kernel⟩,
   ⟨Hie.hbUp, 1, (Hie.hb 251 2 9), by decide +kernel⟩,
   ⟨State.reset, 1, (Hie.hb 250 2 8), by decide +kernel⟩,
   ⟨Hie.hbMissed, 1, (Hie.hb 250 2 8), by decide +kernel⟩,
   ⟨State.reset, (Hie.hb 250 2 8), by decide +kernel⟩,
   ⟨Hie.claimSaw, (Hie.hb 250 2 8), by decide +kernel⟩,
   ⟨Hie.claim20, (Hie.hb 250 2 8), by decide +kernel⟩,
   ⟨State.reset, (Hie.hb 250 2 8), by decide +kernel⟩,
   ⟨State.reset, (Hie.hb 250 2 8), by decide +kernel⟩,
   ⟨Hie.deputy16, (Hie.hb 250 2 8), by decide +kernel⟩,
   ⟨State.reset, (Hie.hb 250 2 8), 0x5C, 1, by decide +kernel⟩,
   ⟨Hie.hbIsolatedUp, (Hie.hb 250 2 8), 0x5C, by decide +kernel⟩,
   ⟨Hie.hbManagerUp, (Hie.hb 250 2 8), _, by decide +kernel, by decide +kernel, rfl, by decide +kernel⟩,
   ⟨State.reset, (Hie.hb 250 2 8), by decide +kernel⟩,
   ⟨Hie.hbRejoiningUp, 1, (Hie.hb 250 2 8), 0x4C, 1, by decide +kernel⟩,
   ⟨State.reset, (Hie.hb 250 2 8), by decide +kernel⟩,
   ⟨Hie.hbManager, (Hie.hb 250 2 8), by decide +kernel⟩⟩

/-- States and operands that meet the premises of each clause of PowerSequencing. -/
theorem witness_PowerSequencing :
    (∃ (s : State), s.pwr.stage = .up 2) ∧
    (∃ (s : State), s.pwr.stage = .up 3) ∧
    (∃ (s : State), s.pwr.stage = .up 4) ∧
    (∃ (s : State), s.pwr.stage = .up 5 ∧ s.pwr.resetN = false) ∧
    (∃ (s : State), s.pwr.stage = .up 5 ∧ s.pwr.resetN = true) ∧
    (∃ (s : State), (s.pwr.stage = .on ∨ s.pwr.stage = .retry ∨ s.pwr.stage = .dead)) ∧
    (∃ (s : State) (n : _), s.pwr.stage = .up n ∧ bitOf (Fld.PMU.PWR_STAT_PG s.regs) (n - 2) = false) ∧
    (∃ (s : State), s.pwr.stage = .retry) ∧
    (∃ (s : State), s.pwr.stage ≠ .retry) ∧
    (∃ (s : State), s.pwr.stage = .on) ∧
    (∃ (s : State), s.pwr.stage = .up 5 ∧ bitOf (Fld.PMU.PWR_STAT_PG s.regs) 3 = true ∧ s.pwr.restoreWait = false) ∧
    (∃ (s : State) (pg : _), s.pwr.stage = .on ∧ bitOf (Fld.PMU.PWR_STAT_PG s.regs) (pgBit pg) = true) ∧
    (∃ (s : State) (pg n : _), s.pwr.stage = .up n ∧ bitOf (Fld.PMU.PWR_STAT_PG s.regs) (pgBit pg) = true) ∧
    (∃ (s : State) (pg n : _), s.pwr.stage = .waking n ∧ bitOf (Fld.PMU.PWR_STAT_PG s.regs) (pgBit pg) = true) ∧
    (∃ (s : State) (pg : _), bitOf (Fld.PMU.PWR_STAT_PG s.regs) (pgBit pg) = false) ∧
    (∃ (s : State) (p : Pwr), p = s.resetCore.pwr) :=
  ⟨⟨State.reset, by decide +kernel⟩,
   ⟨Pwr.up3, by decide +kernel⟩,
   ⟨Pwr.up4, by decide +kernel⟩,
   ⟨Pwr.up5Low, by decide +kernel⟩,
   ⟨Pwr.up5, by decide +kernel⟩,
   ⟨Pwr.retryS, by decide +kernel⟩,
   ⟨State.reset, _, rfl, by decide +kernel⟩,
   ⟨Pwr.retryS, by decide +kernel⟩,
   ⟨State.reset, by decide +kernel⟩,
   ⟨Pwr.serving, by decide +kernel⟩,
   ⟨Pwr.up5Pg, by decide +kernel⟩,
   ⟨Pwr.serving, .io, by decide +kernel⟩,
   ⟨Pwr.up5Pg, .io, _, rfl, by decide +kernel⟩,
   ⟨Pwr.wk3Pg, .io, _, rfl, by decide +kernel⟩,
   ⟨State.reset, .io, by decide +kernel⟩,
   ⟨State.reset, _, rfl⟩⟩

/-- States and operands that meet the premises of each clause of ResetSources. -/
theorem witness_ResetSources :
    (∃ (s : State) (c : Instr) (cause : Nat), ((c = .watchdogExpiry ∧ cause = 3 ∧ Fld.PMU.WDT_CFG_EN s.regs = 1) ∨ (c = .rstCmd 0xD1E5 ∧ cause = 4)) ∧ s.pwr.stage = .on ∧ s.pwr.resetN = true ∧ Fld.PMU.VSEL_CUR s.regs = 3) ∧
    (∃ (s : State) (c : Instr) (cause : Nat), ((c = .watchdogExpiry ∧ cause = 3 ∧ Fld.PMU.WDT_CFG_EN s.regs = 1) ∨ (c = .rstCmd 0xD1E5 ∧ cause = 4)) ∧ s.pwr.stage = .on ∧ s.pwr.resetN = true ∧ Fld.PMU.VSEL_CUR s.regs ≠ 3) ∧
    (∃ (s : State), Fld.PMU.WDT_CFG_EN s.regs = 0) ∧
    (∃ (v : Word), v ≠ 0xD1E5) ∧
    (∃ (s : State), s.pwr.stage = .on) ∧
    (∃ (s : State), s.pwr.stage = .up 5 ∧ s.pwr.restoreWait = true) ∧
    (∃ (s : State), s.pwr.stage = .on ∧ s.pwr.enIo = true ∧ s.pwr.enCore = true ∧ s.pwr.enHs = true ∧ s.pwr.enVddq = true) ∧
    (∃ (s : State), (s.pwr.stage = .dead ∨ s.pwr.stage = .sleep)) ∧
    (∃ (s : State), s.pwr.epReady = true) ∧
    (∃ (s : State), s.pwr.epReady = false) ∧
    (∃ (s : State), (s.pwr.stage ≠ .thermal ∨ s.pwr.aonRounds < 10743 ∨ (∃ x, x ∈ s.fusedTemps ∧ 85 * 65536 ≤ x))) ∧
    (∃ (s : State), s.pwr.stage = .thermal ∧ 10743 ≤ s.pwr.aonRounds ∧ ((∀ x, x ∈ s.fusedTemps → x < 85 * 65536))) :=
  ⟨⟨Pwr.serving, .watchdogExpiry, 3, by decide +kernel⟩,
   ⟨Pwr.servingLow, .watchdogExpiry, 3, by decide +kernel⟩,
   ⟨State.reset, by decide +kernel⟩,
   ⟨0, by decide +kernel⟩,
   ⟨Pwr.serving, by decide +kernel⟩,
   ⟨Pwr.up5Restores, by decide +kernel⟩,
   ⟨Pwr.powered, by decide +kernel⟩,
   ⟨Pwr.dead, by decide +kernel⟩,
   ⟨Pwr.epUp, by decide +kernel⟩,
   ⟨State.reset, by decide +kernel⟩,
   ⟨State.reset, by decide +kernel⟩,
   ⟨Pwr.thermalCool, by decide +kernel⟩⟩

/-- States and operands that meet the premises of each clause of BootAndRecovery. -/
theorem witness_BootAndRecovery :
    (∃ (s : State) (a b : List Byte) (trim : BootRead), a.length ≤ 2 ^ 20 ∧ b.length ≤ 2 ^ 20 ∧ trim.sfdp.length ≤ 2 ^ 24 ∧ s.pwr.boot ≠ .rom) ∧
    (∃ (s : State) (a b : List Byte) (trim : BootRead), a.length ≤ 2 ^ 20 ∧ b.length ≤ 2 ^ 20 ∧ trim.sfdp.length ≤ 2 ^ 24 ∧ s.pwr.boot = .rom) ∧
    (∃ (s : State) (a b : List Byte) (trim : BootRead) (x y : _), a.length ≤ 2 ^ 20 ∧ b.length ≤ 2 ^ 20 ∧ trim.sfdp.length ≤ 2 ^ 24 ∧ s.pwr.boot = .rom ∧ checkCopy a = some x ∧ checkCopy b = some y ∧ (x.body = y.body ∨ serial 32 x.generation y.generation = .later)) ∧
    (∃ (s : State) (a b : List Byte) (trim : BootRead) (x y : _), a.length ≤ 2 ^ 20 ∧ b.length ≤ 2 ^ 20 ∧ trim.sfdp.length ≤ 2 ^ 24 ∧ s.pwr.boot = .rom ∧ checkCopy a = some x ∧ checkCopy b = some y ∧ x.body ≠ y.body ∧ serial 32 x.generation y.generation = .earlier) ∧
    (∃ (s : State) (a b : List Byte) (trim : BootRead) (x y : _), a.length ≤ 2 ^ 20 ∧ b.length ≤ 2 ^ 20 ∧ trim.sfdp.length ≤ 2 ^ 24 ∧ s.pwr.boot = .rom ∧ checkCopy a = some x ∧ checkCopy b = some y ∧ x.body ≠ y.body ∧ (serial 32 x.generation y.generation = .equal ∨ serial 32 x.generation y.generation = .ambiguous)) ∧
    (∃ (s : State) (a b : List Byte) (trim : BootRead) (y : _), a.length ≤ 2 ^ 20 ∧ b.length ≤ 2 ^ 20 ∧ trim.sfdp.length ≤ 2 ^ 24 ∧ s.pwr.boot = .rom ∧ checkCopy a = none ∧ checkCopy b = some y) ∧
    (∃ (s : State) (a b : List Byte) (trim : BootRead) (x : _), a.length ≤ 2 ^ 20 ∧ b.length ≤ 2 ^ 20 ∧ trim.sfdp.length ≤ 2 ^ 24 ∧ s.pwr.boot = .rom ∧ checkCopy a = some x ∧ checkCopy b = none) ∧
    (∃ (s : State) (a b : List Byte) (trim : BootRead), a.length ≤ 2 ^ 20 ∧ b.length ≤ 2 ^ 20 ∧ trim.sfdp.length ≤ 2 ^ 24 ∧ s.pwr.boot = .rom ∧ checkCopy a = none ∧ checkCopy b = none) ∧
    (∃ (b : List Byte), sfdpHeader b = none) ∧
    (∃ (b : List Byte) (at' n : _), sfdpHeader b = some (at', n)) ∧
    (∃ (b : List Byte) (at' n : _), sfdpHeader b = some (at', n) ∧ bitOf (fieldOf b at' 4) 21 = true) ∧
    (∃ (s : State) (i w0 v u : _), s.pwr.boot = .list i ∧ s.pwr.list[i]? = some (w0, v) ∧ bits w0 24 4 = 0 ∧ regWrite 1 (w0 % 2 ^ 20 / 4096) (w0 % 2 ^ 20 % 4096) v s = u) ∧
    (∃ (s : State) (i w0 v : _), s.pwr.boot = .list i ∧ s.pwr.list[i]? = some (w0, v) ∧ bits w0 24 4 = 1) ∧
    (∃ (s : State) (i w0 v w u : _), s.pwr.boot = .list i ∧ s.pwr.list[i]? = some (w0, v) ∧ (bits w0 24 4 = 2 ∨ bits w0 24 4 = 3) ∧ regRead 1 (w0 % 2 ^ 20 / 4096) (w0 % 2 ^ 20 % 4096) s = (w, u)) ∧
    (∃ (s : State) (i w0 v : _), s.pwr.boot = .list i ∧ s.pwr.list[i]? = some (w0, v) ∧ bits w0 24 4 < 2) ∧
    (∃ (s : State) (i w0 v : _), s.pwr.boot = .list i ∧ s.pwr.list[i]? = some (w0, v) ∧ 3 < bits w0 24 4 ∧ i < 2 ^ 16) ∧
    (∃ (s : State) (i w0 v : _), s.pwr.boot = .list i ∧ s.pwr.list[i]? = some (w0, v) ∧ 2 ≤ bits w0 24 4 ∧ i < 2 ^ 16) ∧
    (∃ (s : State), (s.pwr.boot = .running ∨ s.pwr.boot = .waitImage)) ∧
    (∃ (s : State), s.pwr.boot = .listEnded ∧ s.pwr.generation < 2 ^ 32) ∧
    (∃ (s : State), (s.pwr.boot ≠ .waitImage ∨ s.pwr.imageTaken = true)) ∧
    (∃ (s : State) (x : _), s.pwr.boot = .waitImage ∧ s.pwr.imageTaken = false ∧ checkCopy s.bufferImage = some x) ∧
    (∃ (s : State), s.pwr.boot = .waitImage ∧ s.pwr.imageTaken = false ∧ checkCopy s.bufferImage = none) :=
  ⟨⟨State.reset, Pwr.copy5, Pwr.copy5, (Pwr.read Pwr.sfdp), by decide +kernel⟩,
   ⟨Pwr.rom, Pwr.copy5, Pwr.copy5, (Pwr.read Pwr.sfdp), by decide +kernel⟩,
   (by refine ⟨Pwr.rom, Pwr.copy5, Pwr.copy5, (Pwr.read Pwr.sfdp), _, _, ?_, ?_, ?_, ?_, rfl, rfl, ?_⟩ <;> decide +kernel),
   (by refine ⟨Pwr.rom, Pwr.copy5, Pwr.copy6, (Pwr.read Pwr.sfdp), _, _, ?_, ?_, ?_, ?_, rfl, rfl, ?_⟩ <;> decide +kernel),
   (by refine ⟨Pwr.rom, Pwr.copy5, Pwr.copy5b, (Pwr.read Pwr.sfdp), _, _, ?_, ?_, ?_, ?_, rfl, rfl, ?_⟩ <;> decide +kernel),
   (by refine ⟨Pwr.rom, ([1, 2] : List Byte), Pwr.copy5, (Pwr.read Pwr.sfdp), _, ?_, ?_, ?_, ?_, ?_, rfl⟩ <;> decide +kernel),
   (by refine ⟨Pwr.rom, Pwr.copy5, ([1, 2] : List Byte), (Pwr.read Pwr.sfdp), _, ?_, ?_, ?_, ?_, rfl, ?_⟩ <;> decide +kernel),
   ⟨Pwr.rom, ([1, 2] : List Byte), ([1, 2] : List Byte), (Pwr.read Pwr.sfdp), by decide +kernel⟩,
   ⟨Pwr.copy5, by decide +kernel⟩,
   ⟨Pwr.sfdp, 16, 9, by decide +kernel⟩,
   ⟨Pwr.sfdp, 16, 9, by decide +kernel⟩,
   ⟨Pwr.listWrite, _, _, _, _, rfl, rfl, by decide +kernel, rfl⟩,
   ⟨Pwr.listDelay, _, _, _, rfl, rfl, by decide +kernel⟩,
   ⟨Pwr.listPoll1, _, _, _, _, _, rfl, rfl, by decide +kernel, rfl⟩,
   ⟨Pwr.listWrite, _, _, _, rfl, rfl, by decide +kernel⟩,
   ⟨Pwr.listBad, _, _, _, rfl, rfl, by decide +kernel⟩,
   ⟨Pwr.listPoll1, _, _, _, rfl, rfl, by decide +kernel⟩,
   ⟨Pwr.running, by decide +kernel⟩,
   ⟨Pwr.listEnd, by decide +kernel⟩,
   ⟨State.reset, by decide +kernel⟩,
   ⟨Pwr.waitsGood, _, by decide +kernel, by decide +kernel, rfl⟩,
   ⟨Pwr.waits, by decide +kernel⟩⟩

/-- States and operands that meet the premises of each clause of Summerhouse. -/
theorem witness_Summerhouse :
    (∃ (v : Word), bitOf v.toNat 0 = false) ∧
    (∃ (s : State) (v : Word), bitOf v.toNat 0 = true ∧ s.maySleep = false) ∧
    (∃ (s : State) (v : Word), bitOf v.toNat 0 = true ∧ s.maySleep = true) ∧
    (∃ (s : State), (s.admitted ≠ [] ∨ (∃ m, m < 32 ∧ s.memState m ≠ 0) ∨ Fld.PMU.WARM_VALID s.regs = 0)) ∧
    (∃ (s : State), (Fld.PMU.SLEEP_STAT_STATE s.regs ≠ 1 ∨ s.dramDrained = false)) ∧
    (∃ (s : State), Fld.PMU.SLEEP_STAT_STATE s.regs = 1 ∧ s.dramDrained = true) ∧
    (∃ (s : State) (w : WakeSource), ((w = .pin ∧ Fld.PMU.WAKE_CFG_WAKE_PIN_EN s.regs = 0) ∨ (w = .timer ∧ Fld.PMU.WAKE_CFG_TIMER_EN s.regs = 0))) ∧
    (∃ (s : State) (w : WakeSource), ((w = .pin ∧ Fld.PMU.WAKE_CFG_WAKE_PIN_EN s.regs = 1) ∨ (w = .timer ∧ Fld.PMU.WAKE_CFG_TIMER_EN s.regs = 1)) ∧ Fld.PMU.SLEEP_STAT_STATE s.regs = 1) ∧
    (∃ (s : State) (w : WakeSource), ((w = .pin ∧ Fld.PMU.WAKE_CFG_WAKE_PIN_EN s.regs = 1) ∨ (w = .timer ∧ Fld.PMU.WAKE_CFG_TIMER_EN s.regs = 1)) ∧ Fld.PMU.SLEEP_STAT_STATE s.regs ≠ 1 ∧ s.pwr.stage = .sleep) ∧
    (∃ (s : State), s.pwr.stage = .waking 0) ∧
    (∃ (s : State) (n : _), 1 ≤ n ∧ n ≤ 4 ∧ s.pwr.stage = .waking n) ∧
    (∃ (s : State), s.pwr.stage = .waking 5) ∧
    (∃ (s : State), s.pwr.stage = .waking 6) ∧
    (∃ (s : State), s.pwr.stage = .on) ∧
    (∃ (s : State), s.pwr.stage ≠ .waking 7) ∧
    (∃ (s : State), s.pwr.stage = .waking 7) :=
  ⟨⟨0, by decide +kernel⟩,
   ⟨State.reset, 1, by decide +kernel⟩,
   ⟨Pwr.entering, 1, by decide +kernel⟩,
   ⟨State.reset, by decide +kernel⟩,
   ⟨State.reset, by decide +kernel⟩,
   ⟨Pwr.entering, by decide +kernel⟩,
   ⟨State.reset, .timer, by decide +kernel⟩,
   ⟨Pwr.entering, .pin, by decide +kernel⟩,
   ⟨Pwr.asleep, .pin, by decide +kernel⟩,
   ⟨Pwr.wk0, by decide +kernel⟩,
   ⟨Pwr.wk1, _, by decide +kernel, by decide +kernel, rfl⟩,
   ⟨Pwr.wk5, by decide +kernel⟩,
   ⟨Pwr.wk6, by decide +kernel⟩,
   ⟨Pwr.serving, by decide +kernel⟩,
   ⟨State.reset, by decide +kernel⟩,
   ⟨Pwr.wk7, by decide +kernel⟩⟩

end Sys2Proof.Tests
end

/-! Serial comparison and rounding: the arithmetic of R7 and R9. -/

namespace Sys2Proof.Machine

/-! ### Serial comparison (R9) -/

/-- The distance that `serial` computes is the one R9 names. -/
theorem serial_distance {n a b d : Nat} (hb : b < 2 ^ n) (hd : (d : Int) = ((a : Int) - b) % (2 ^ n : Nat)) :
    (a + 2 ^ n - b % 2 ^ n) % 2 ^ n = d := by
  have hle : b ≤ a + 2 ^ n := by omega
  rw [Nat.mod_eq_of_lt hb]
  apply Int.ofNat.inj
  calc ((a + 2 ^ n - b) % 2 ^ n : Nat) = ((a : Int) - b + (2 ^ n : Nat)) % (2 ^ n : Nat) := by
        rw [Int.natCast_mod, Nat.cast_sub hle, Nat.cast_add]; congr 1; ring
    _ = (d : Int) := by rw [Int.add_emod_right, hd]

/-- Serial comparison, by the distance of R9. -/
theorem serial_eq_of_distance {n a b d : Nat} (hb : b < 2 ^ n) (hd : (d : Int) = ((a : Int) - b) % (2 ^ n : Nat)) :
    serial n a b = if d = 0 then .equal else if d < 2 ^ (n - 1) then .later else if d = 2 ^ (n - 1) then .ambiguous else .earlier := by
  unfold serial
  rw [serial_distance hb hd]

/-- Settles O6: the four ranges of the distance are the four branches of `serial`. -/
theorem serialComparison : Obligations.SerialComparison := by
  unfold Obligations.SerialComparison
  intro n a b _ _ hb d hd
  have hpos : 0 < 2 ^ (n - 1) := by positivity
  rw [serial_eq_of_distance hb hd]
  refine ⟨fun h => ?_, fun h1 h2 => ?_, fun h => ?_, fun h1 _ => ?_⟩
  · rw [if_pos h]
  · rw [if_neg (by omega), if_pos (by omega)]
  · rw [if_neg (by omega), if_neg (by omega), if_pos h]
  · rw [if_neg (by omega), if_neg (by omega), if_neg (by omega)]

/-! ### Rounding (R7) -/

/-- A right shift by k > 0 is the floor of the sum with half (R7). -/
theorem rshift_eq_ediv (x : Int) {k : Nat} (hk : 0 < k) : rshift x k = (x + (2 ^ (k - 1) : Nat)) / (2 ^ k : Nat) := by
  unfold rshift
  rw [if_neg (by omega), Int.fdiv_eq_ediv_of_nonneg _ (by positivity)]

/-- The unit that a shift by k > 0 keeps is two halves. -/
theorem two_pow_eq_two_halves {k : Nat} (hk : 0 < k) : ((2 ^ k : Nat) : Int) = (2 ^ (k - 1) : Nat) + (2 ^ (k - 1) : Nat) := by
  obtain ⟨m, rfl⟩ := Nat.exists_eq_succ_of_ne_zero hk.ne'
  rw [Nat.pow_succ]
  push_cast
  ring_nf

/-- Settles O7: the quotient's bounds are those of the floor of x + 2^(k-1), moved by half. -/
theorem roundingTakesHalvesUp : Obligations.RoundingTakesHalvesUp := by
  unfold Obligations.RoundingTakesHalvesUp
  refine ⟨fun x k hk => ?_, fun x k hk => ?_, by decide, by decide⟩
  · have hpos : (0 : Int) < (2 ^ k : Nat) := by positivity
    have hunit := two_pow_eq_two_halves hk
    rw [rshift_eq_ediv x hk]
    have hlow := Int.ediv_mul_le (x + (2 ^ (k - 1) : Nat)) hpos.ne'
    have hhigh := Int.lt_ediv_add_one_mul_self (x + (2 ^ (k - 1) : Nat)) hpos
    rw [add_mul] at hhigh
    rw [sub_mul]
    omega
  · have hpos : (0 : Int) < (2 ^ k : Nat) := by positivity
    have hsum : x * (2 ^ k : Nat) + (2 ^ (k - 1) : Nat) + (2 ^ (k - 1) : Nat) = (x + 1) * (2 ^ k : Nat) := by
      rw [add_assoc, ← two_pow_eq_two_halves hk]; ring
    rw [rshift_eq_ediv _ hk, hsum, Int.mul_ediv_cancel _ hpos.ne']

end Sys2Proof.Machine

/-! The Kiosk's banks and the restart of counters (R4, R47, R48, R367). -/

namespace Sys2Proof.Machine

/-! ### Kiosk (R47, R48) -/

/-- Each bank of each page has a key of its own. -/
theorem kioskKey_inj {b b' : Bank} {p p' : Nat} (h : kioskKey b p = kioskKey b' p') : (b, p) = (b', p') := by
  unfold kioskKey at h
  cases b <;> cases b' <;> simp only [Prod.mk.injEq, true_and] <;> dsimp only at h <;> omega

@[simp] theorem State.kioskOf_setKiosk_same (s : State) (b : Bank) (page : Nat) (k : KioskEntry) : (s.setKiosk b page k).kioskOf b page = k :=
  SMap.get_set_same _ _ _ _

theorem State.kioskOf_setKiosk_other (s : State) {b b' : Bank} {page page' : Nat} (k : KioskEntry) (h : (b', page') ≠ (b, page)) :
    (s.setKiosk b page k).kioskOf b' page' = s.kioskOf b' page' :=
  SMap.get_set_other _ _ _ _ _ (fun e => h (kioskKey_inj e))

@[simp] theorem State.kioskOf_settle (s : State) (b : Bank) (page : Nat) : s.settle.kioskOf b page = s.kioskOf b page := by
  unfold State.kioskOf; rw [State.settle_kiosk]

/-- What a selection of `sel` puts in a page's Kiosk. -/
def State.capture (s : State) (page sel : Nat) : KioskEntry :=
  { echo := sel, valid := false, busy := true, nosel := (s.kioskData page sel).isNone, data := (s.kioskData page sel).getD [] }

/-- A selection stores its capture, and of the rest of the state marks at most records as seen. -/
theorem kioskSelect_eq (s : State) (b : Bank) {page sel : Nat} (hp : implemented page = true) (hs : sel < 256) :
    kioskSelect b page sel s = { s.setKiosk b page (s.capture page sel) with records := (kioskSelect b page sel s).records } := by
  unfold kioskSelect
  rw [hp, Bool.not_true, if_neg Bool.false_ne_true, Nat.mod_eq_of_lt hs]
  dsimp only
  split <;> rfl

theorem kioskSelect_kioskOf (s : State) (b : Bank) {page sel : Nat} (hp : implemented page = true) (hs : sel < 256) (b' : Bank) (page' : Nat) :
    (kioskSelect b page sel s).kioskOf b' page' = (s.setKiosk b page (s.capture page sel)).kioskOf b' page' := by
  rw [kioskSelect_eq s b hp hs]; rfl

theorem kioskSelect_regs (s : State) (b : Bank) {page sel : Nat} (hp : implemented page = true) (hs : sel < 256) :
    (kioskSelect b page sel s).regs = s.regs := by
  rw [kioskSelect_eq s b hp hs]; rfl

theorem kioskSelect_dram (s : State) (b : Bank) {page sel : Nat} (hp : implemented page = true) (hs : sel < 256) :
    (kioskSelect b page sel s).dram = s.dram := by
  rw [kioskSelect_eq s b hp hs]; rfl

theorem kioskSnapshotDone_busy (s : State) (b : Bank) (page : Nat) (h : (s.kioskOf b page).busy = true) :
    kioskSnapshotDone b page s = s.setKiosk b page { s.kioskOf b page with valid := true, busy := false } := by
  unfold kioskSnapshotDone; exact if_pos h

theorem kioskSnapshotDone_idle (s : State) (b : Bank) (page : Nat) (h : (s.kioskOf b page).busy = false) : kioskSnapshotDone b page s = s := by
  unfold kioskSnapshotDone; exact if_neg (by simp [h])

/-- Selector 0 of every page defines no data (R48). -/
theorem State.kioskData_zero (s : State) (page : Nat) : s.kioskData page 0 = none := by
  unfold State.kioskData; exact if_pos rfl

/-! ### Restarts (R367) -/

/-- The counters of one encoder context. -/
def ebeCountersOf (n : Nat) : List RegAddr :=
  [Adr.EBE.HOLD_SEGS n, Adr.EBE.RAW_TILES n, Adr.EBE.RING_FULL n, Adr.EBE.MAP_CLIPPED n, Adr.EBE.WRITE_ERR n]

theorem ebeCounters_getElem? (i : Nat) (as : List RegAddr) : ebeCounters[i]? = some as ↔ i < 4 ∧ ebeCountersOf i = as := by
  simp [ebeCounters, ebeCountersOf, List.getElem?_eq_some_iff]

/-- The counters of two contexts are different registers. -/
theorem ebeCountersOf_disjoint {i n : Nat} {a : RegAddr} (ha : a ∈ ebeCountersOf i) (ha' : a ∈ ebeCountersOf n) : i = n := by
  simp only [ebeCountersOf, List.mem_cons, List.not_mem_nil, or_false, RegAddr, Adr.EBE.HOLD_SEGS, Adr.EBE.RAW_TILES, Adr.EBE.RING_FULL,
    Adr.EBE.MAP_CLIPPED, Adr.EBE.WRITE_ERR] at ha ha'
  omega

/-- Bit n of EBE's CNT_RESTART reaches the counters of context n, and no other bit does. -/
theorem restarts_ebeCounters (mask : Nat) {n : Nat} (hn : n < 4) {a : RegAddr} (ha : a ∈ ebeCountersOf n) :
    Restarts mask ebeCounters a ↔ bitOf mask n = true := by
  constructor
  · rintro ⟨i, as, hi, hmem, hbit⟩
    obtain ⟨-, rfl⟩ := (ebeCounters_getElem? i as).mp hi
    exact ebeCountersOf_disjoint hmem ha ▸ hbit
  · exact fun hbit => ⟨n, ebeCountersOf n, (ebeCounters_getElem? n _).mpr ⟨hn, rfl⟩, ha, hbit⟩

theorem wellFormed_kioskSelect (b : Bank) {page sel : Nat} (hp : page < 256) (hs : sel < 256) : Instr.wellFormed (.kioskSelect b page sel) = true := by
  have h : (pageOk page && decide (sel < 256)) = true := by simp [pageOk, hp, hs]
  exact h

theorem wellFormed_kioskSnapshotDone (b : Bank) {page : Nat} (hp : page < 256) : Instr.wellFormed (.kioskSnapshotDone b page) = true :=
  decide_eq_true hp

/-- Settles O12: each clause is the effect of its command, read through the lemmas about the Kiosk and the restarts. -/
theorem kioskAndRestartCommands : Obligations.KioskAndRestartCommands := by
  unfold Obligations.KioskAndRestartCommands
  refine ⟨fun s b page hpage hp => ⟨fun sel hsel => ?_, fun hbusy => ?_, fun hidle => ?_⟩, fun s => ⟨fun v => ?_, ?_, fun m => ?_, fun m n a ha => ?_⟩⟩
  · refine Completes.of_answer (u := kioskSelect b page sel s) rfl (wellFormed_kioskSelect b hpage hsel) ?_
    simp only [State.kioskOf_settle, kioskSelect_kioskOf s b hp hsel, State.kioskOf_setKiosk_same, State.settle_regs, State.settle_dram,
      kioskSelect_regs s b hp hsel, kioskSelect_dram s b hp hsel]
    refine ⟨rfl, fun h => ?_, fun b' p' h => s.kioskOf_setKiosk_other _ h, trivial, trivial⟩
    unfold State.capture
    rw [h, State.kioskData_zero]; rfl
  · exact Does.of_answer rfl (wellFormed_kioskSnapshotDone b hpage) (kioskSnapshotDone_busy s b page hbusy)
  · exact Does.of_answer rfl (wellFormed_kioskSnapshotDone b hpage) (kioskSnapshotDone_idle s b page hidle)
  · exact Does.of_answer rfl rfl rfl
  · exact Does.of_answer rfl rfl rfl
  · exact Does.of_answer rfl rfl rfl
  · refine Completes.of_answer (u := s.restart m.toNat ebeCounters) rfl rfl ?_
    have hmem : a ∈ ebeCountersOf n := by rcases ha with rfl | rfl <;> simp [ebeCountersOf]
    have hreach := restarts_ebeCounters m.toNat n.isLt hmem
    obtain ⟨hzero, hkeep⟩ := State.rd_restart ebeCounters s m.toNat a
    rw [State.settle_rd, State.settle_shadow, State.settle_dram, State.restart_eq]
    refine ⟨fun h => hzero (hreach.mpr h), fun h => hkeep (fun r => ?_), rfl, rfl⟩
    rw [hreach.mp r] at h
    exact Bool.noConfusion h

end Sys2Proof.Machine

/-! Register writes: which writes reach which words, and what a narrow write stores (R3, R5, R6, R36, R38, R334). -/

namespace Sys2Proof.Machine

/-! ### What a frame of registers leaves -/

theorem SameRegsBut.fld {l : List RegAddr} {s t : State} (h : SameRegsBut l s t) {a : RegAddr} (ha : a ∉ l) (i w : Nat) :
    t.regs.fld a i w = s.regs.fld a i w := by
  unfold RegFile.fld; rw [h a ha]

theorem SameRegsBut.rd {l : List RegAddr} {s t : State} (h : SameRegsBut l s t) {a : RegAddr} (ha : a ∉ l) : t.rd a = s.rd a := by
  unfold State.rd; rw [h a ha]

/-! ### Plain writes -/

theorem mergeBits_lt {x y : Nat} (hx : x < 2 ^ 32) (m : Nat) (hy : y < 2 ^ 32) : mergeBits x m y < 2 ^ 32 :=
  Nat.or_lt_two_pow (lt_of_le_of_lt Nat.and_le_left hx) (lt_of_le_of_lt Nat.and_le_left hy)

/-- A plain write stores the writable bits of its register at once (R3, R5). -/
theorem State.storeReg_word_same (s : State) (a : RegAddr) {v : Nat} (hv : v < 2 ^ 32) :
    ((s.storeReg a v).regs.word a).toNat = mergeBits (s.rd a) (rwMaskOf a) v := by
  have hword : (s.storeReg a v).regs = if rwMaskOf a = 0 then s.regs else s.regs.putN a (mergeBits (s.rd a) (rwMaskOf a) v) := by
    unfold State.storeReg; dsimp only; split <;> split <;> rfl
  rw [hword]
  split
  · rename_i h; rw [h, mergeBits_zero (s.rd_lt a)]; rfl
  · rw [RegFile.word_putN, if_pos rfl, BitVec.toNat_ofNat, Nat.mod_eq_of_lt (mergeBits_lt (s.rd_lt a) _ hv)]

/-- The shadow after a plain write: the register's shadowed bits alone are written (R3, R42). -/
theorem State.storeReg_shadow (s : State) (a v : Nat) : (s.storeReg a v).shadow =
    if shMaskOf a = 0 then s.shadow else s.shadow.putN a (mergeBits (s.shadow.word a).toNat (shMaskOf a) v) := by
  unfold State.storeReg; dsimp only; split <;> split <;> rfl

theorem State.storeReg_shadow_same (s : State) (a : RegAddr) {v : Nat} (hv : v < 2 ^ 32) :
    ((s.storeReg a v).shadow.word a).toNat = mergeBits (s.shadow.word a).toNat (shMaskOf a) v := by
  rw [State.storeReg_shadow]
  split
  · rename_i h; rw [h, mergeBits_zero (s.shadow.word a).isLt]
  · rw [RegFile.word_putN, if_pos rfl, BitVec.toNat_ofNat, Nat.mod_eq_of_lt (mergeBits_lt (s.shadow.word a).isLt _ hv)]

/-! ### Where a write goes -/

theorem implemented_lt {page : Nat} (h : implemented page = true) : page < 256 := by
  have hall : ∀ p ∈ implementedPages, p < 256 := by decide
  exact hall page (by simpa [implemented] using h)

/-- A reserved page ignores a write (R36). -/
theorem regWrite_of_reserved {page : Nat} (h : implemented page = false) (master off v : Nat) (s : State) : regWrite master page off v s = s := by
  unfold regWrite; rw [h]; rfl

/-- A write of an implemented page's header goes to the header's registers (R37). -/
theorem regWrite_header {page off : Nat} (h : implemented page = true) (ho : off < 0x40) (master v : Nat) (s : State) :
    regWrite master page off v s = s.headerWrite master page off v := by
  unfold regWrite; rw [h, Bool.not_true, if_neg Bool.false_ne_true, if_pos ho]

/-- A write that the Hierarchy lets through reaches the registers (R334). -/
theorem registerWrite_passed {s : State} {master page off : Nat} (h : s.refusesRemote master page off = false) (v : Word) :
    registerWrite master page off v s = regWrite master page off v.toNat s := by
  unfold registerWrite; rw [h]; rfl

theorem registerWrite_refused {s : State} {master page off : Nat} (h : s.refusesRemote master page off = true) (v : Word) :
    registerWrite master page off v s = s.refuseRemote := by
  unfold registerWrite; rw [h]; rfl

/-- Of the Icehouse's registers only TM_CMD is a command register. -/
theorem State.commandWrite_icehouse (s : State) {off : Nat} (h : off ≠ 0xC8) (master v : Nat) : s.commandWrite master 0x04 off v = none := by
  simp [State.commandWrite, cntOffset, State.controlCommand, State.rawCommand, State.mediaCommand, h]

theorem State.portWrite_icehouse (s : State) (off : Nat) (w : Word) : s.portWrite 0x04 off w = none := rfl

/-- A register of the Icehouse that holds a value is a plain one. -/
theorem State.heldWrite_icehouse (s : State) {off : Nat} (h : 0x40 ≤ off) (master v : Nat) : s.heldWrite master 0x04 off v = s.storeReg (0x4000 + off) v := by
  unfold State.heldWrite
  rw [if_neg (by omega)]
  rfl

theorem regWrite_icehouse {off : Nat} (h : 0x40 ≤ off) (hc : off ≠ 0xC8) (master v : Nat) (s : State) :
    regWrite master 0x04 off v s = s.storeReg (0x4000 + off) v := by
  unfold regWrite
  rw [if_neg (by decide), if_neg (by omega), s.commandWrite_icehouse hc, s.portWrite_icehouse]
  exact s.heldWrite_icehouse h master v

/-! ### Narrow writes (R6) -/

/-- A narrow write of a register that is neither KSK_SEL, nor a command register, nor a port, nor TBL_SEL or TBL_DATA, is a write of a free word. -/
theorem narrowWrite_held {s : State} {master page off : Nat} (hr : s.refusesRemote master page off = false) (hp : implemented page = true) (hk : off ≠ 0x020)
    (ht : ¬ (page = 0x19 ∧ (off = 0x040 ∨ off = 0x048)))
    (hc : off < 0x40 ∨ (s.commandWrite master page off 0 = none ∧ s.portWrite page off 0 = none)) :
    narrowWrite master page off s = s.drawWord.2.heldWrite master page off s.drawWord.1.toNat := by
  unfold narrowWrite
  rw [hr, hp, beq_false_of_ne hk, if_neg Bool.false_ne_true]
  dsimp only
  rw [if_neg (by decide), if_neg (fun h => ht ⟨h.1, Or.inl h.2⟩), if_neg (fun h => ht ⟨h.1, Or.inr h.2⟩), if_neg]
  rintro ⟨h40, hsome⟩
  rcases hc with hlt | ⟨hcmd, hport⟩
  · omega
  · rw [hcmd, hport] at hsome
    exact hsome.elim Bool.noConfusion Bool.noConfusion

/-- A narrow write of a reserved page or of KSK_SEL changes nothing. -/
theorem narrowWrite_ignored {s : State} {master page off : Nat} (hr : s.refusesRemote master page off = false) (h : implemented page = false ∨ off = 0x020) :
    narrowWrite master page off s = s := by
  unfold narrowWrite
  rw [hr, if_neg Bool.false_ne_true, if_pos]
  rcases h with h | h <;> simp [h]

/-- A narrow write of a command register changes nothing. -/
theorem narrowWrite_command {s : State} {master page off : Nat} (hr : s.refusesRemote master page off = false) (ht : page ≠ 0x19) (h40 : 0x40 ≤ off)
    (hc : (s.commandWrite master page off 0).isSome = true) : narrowWrite master page off s = s := by
  unfold narrowWrite
  rw [hr, if_neg Bool.false_ne_true]
  dsimp only
  split
  · rfl
  · rw [if_neg (fun h => ht h.1), if_neg (fun h => ht h.1), if_pos ⟨h40, Or.inl hc⟩]

/-! ### PG_CTL (R37, R38) -/

theorem updPend_ne_pgCtl (page : Nat) : Adr.GLB.UPD_PEND ≠ Adr.HDR.PG_CTL page := by
  have h : ¬ 0x48 = page * 4096 + 0x008 := by omega
  exact h

/-- The state in which a write of PG_CTL has set HOLD. -/
def State.withHold (s : State) (page x : Nat) : State := s.setFld (Adr.HDR.PG_CTL page) 1 1 x

theorem State.withHold_holding (s : State) (page x : Nat) : (s.withHold page x).holding page = (x % 2 == 1) := by
  unfold State.holding Fld.HDR.HOLD State.withHold
  rw [State.setFld_regs, RegFile.fld_putFld_same _ _ _ _ _ (by decide), Nat.pow_one]

/-- Setting HOLD leaves a page as pending as it was. -/
theorem State.withHold_pagePending (s : State) (page x : Nat) : (s.withHold page x).pagePending page = s.pagePending page := by
  have hgroup : Fld.HDR.UPD_GROUP (s.withHold page x).regs page = Fld.HDR.UPD_GROUP s.regs page :=
    RegFile.fld_putFld_beside _ _ _ _ _ _ _ (by decide) (by decide)
  have hsame : SameRegsBut [Adr.HDR.PG_CTL page] s (s.withHold page x) := SameRegsBut.putFld rfl
  have hpend : (s.withHold page x).rd Adr.GLB.UPD_PEND = s.rd Adr.GLB.UPD_PEND :=
    hsame.rd (by simpa using updPend_ne_pgCtl page)
  unfold State.pagePending State.groupPending
  rw [hgroup, hpend]

/-- A write of PG_CTL that ends no HOLD, or one of a page where nothing waits on HOLD, sets HOLD, the shadow of ENABLE and the group (R37, R38). -/
theorem State.headerWrite_control (s : State) (master page v : Nat)
    (h : (page ≠ 0x05 ∧ page ≠ 0x30) ∨ s.holding page = false ∨ bits v 1 1 = 1) :
    s.headerWrite master page 0x008 v = updGroupBind page (bits v 4 4)
      { s.withHold page (bits v 1 1) with shadow := s.shadow.putFld (Adr.HDR.PG_CTL page) 0 1 (bits v 0 1) } := by
  have hstay (p : Nat) (hp : p = 0x30 ∨ p = 0x05) :
      (s.holding page && !(s.withHold page (bits v 1 1)).holding page && page == p) = false := by
    rw [State.withHold_holding]
    rcases h with h | h | h
    · have : page ≠ p := by omega
      simp [this]
    · simp [h]
    · simp [h]
  have h30 := hstay 0x30 (Or.inl rfl)
  have h05 := hstay 0x05 (Or.inr rfl)
  unfold State.withHold at h30 h05 ⊢
  unfold State.headerWrite
  simp only [if_pos, h30, h05, if_neg Bool.false_ne_true, State.setFld_shadow]

/-- A write that ends HOLD of the Dovecote takes up the conversions that waited (R37). -/
theorem State.headerWrite_release_dovecote (s : State) (master : Nat) {v : Nat} (hh : s.holding 0x05 = true) (hv : bits v 1 1 = 0) :
    s.headerWrite master 0x05 0x008 v = updGroupBind 0x05 (bits v 4 4)
      { (s.withHold 0x05 0).feedSlices with
        shadow := (s.withHold 0x05 0).feedSlices.shadow.putFld (Adr.HDR.PG_CTL 0x05) 0 1 (bits v 0 1) } := by
  have hfree : (s.withHold 0x05 0).holding 0x05 = false := s.withHold_holding 0x05 0
  unfold State.withHold at hfree ⊢
  unfold State.headerWrite
  simp [hh, hv, hfree]

/-- A write that ends HOLD of the Boathouse takes up the frames and fetches that waited (R37). -/
theorem State.headerWrite_release_boathouse (s : State) (master : Nat) {v : Nat} (hh : s.holding 0x30 = true) (hv : bits v 1 1 = 0) :
    s.headerWrite master 0x30 0x008 v = updGroupBind 0x30 (bits v 4 4)
      { (s.withHold 0x30 0).bthResume with
        shadow := (s.withHold 0x30 0).bthResume.shadow.putFld (Adr.HDR.PG_CTL 0x30) 0 1 (bits v 0 1) } := by
  have hfree : (s.withHold 0x30 0).holding 0x30 = false := s.withHold_holding 0x30 0
  unfold State.withHold at hfree ⊢
  unfold State.headerWrite
  simp [hh, hv, hfree]

/-- The group of a pending page stays (R38). -/
theorem updGroupBind_pending {s : State} {page : Nat} (h : s.pagePending page = true) (g : Nat) : updGroupBind page g s = s := by
  unfold updGroupBind; rw [h, Bool.or_true]; rfl

theorem State.headerWrite_control_pending {s : State} {page : Nat} (hpend : s.pagePending page = true) (master : Nat) {v : Nat}
    (h : (page ≠ 0x05 ∧ page ≠ 0x30) ∨ s.holding page = false ∨ bits v 1 1 = 1) :
    s.headerWrite master page 0x008 v =
      { s.withHold page (bits v 1 1) with shadow := s.shadow.putFld (Adr.HDR.PG_CTL page) 0 1 (bits v 0 1) } := by
  rw [s.headerWrite_control master page v h]
  refine updGroupBind_pending ?_ _
  exact (s.withHold_pagePending page _).trans hpend

/-! ### PG_VEC (R59) -/

theorem shMaskOf_pgVec (page : Nat) : shMaskOf (Adr.HDR.PG_VEC page) = 0 := by
  have hoff : Adr.HDR.PG_VEC page % 4096 = 0x018 := Nat.mul_add_mod_of_lt (show 0x018 < 4096 by decide)
  unfold shMaskOf
  rw [hoff]
  split <;> rfl

theorem State.heldWrite_pgVec (s : State) (master page v : Nat) : s.heldWrite master page 0x018 v = s.storeReg (Adr.HDR.PG_VEC page) v := rfl

/-! ### The Gatehouse's windows (R51) -/

/-- A write of a window's bounds is a plain one, ignored under LOCK (R53). -/
theorem State.heldWrite_window (s : State) {off : Nat} (h : 0x060 ≤ off) (h' : off ≤ 0x0DC) (master v : Nat) :
    s.heldWrite master 0x02 off v = if s.locked then s else s.storeReg (0x2000 + off) v := by
  unfold State.heldWrite State.controlHeld
  rw [if_neg (by omega), if_neg (by decide), if_pos rfl, if_neg (by omega), if_neg (by omega), if_neg (by omega), if_pos (by omega)]
  rfl

theorem State.commandWrite_window (s : State) {off : Nat} (h : off ≤ 0x0DC) (master v : Nat) : s.commandWrite master 0x02 off v = none := by
  have hoff : off ≠ 0x0E8 := by omega
  simp [State.commandWrite, cntOffset, State.controlCommand, State.rawCommand, State.mediaCommand, hoff]

/-- A refused remote write counts, and 0x541 holds REMOTE_REFUSED (R334). -/
theorem State.refuseRemote_rd (s : State) : s.refuseRemote.rd Adr.HIE.REFUSED = satInc 32 (s.rd Adr.HIE.REFUSED) := s.rd_bump_same _

theorem State.mem_refuseRemote (s : State) : { page := 0x54, cause := 0x541, code := 0x21, event := true, unit := 0x541 } ∈ s.refuseRemote.held :=
  (State.mem_fault _ _ _ _).mpr (Or.inl rfl)

theorem wellFormed_registerWrite {master page off : Nat} (v : Word) (hm : master < 512) (hp : page < 256) (ho : off < 4096) (hal : off % 4 = 0) :
    Instr.wellFormed (.registerWrite master page off v) = true := by
  have h : (masterOk master && pageOk page && offsetOk off) = true := by simp [masterOk, pageOk, offsetOk, hm, hp, ho, hal]
  exact h

theorem wellFormed_narrowWrite {master page off : Nat} (hm : master < 512) (hp : page < 256) (ho : off < 4096) (hal : off % 4 = 0) :
    Instr.wellFormed (.narrowWrite ⟨master, page⟩ off) = true := by
  have h : (masterOk master && pageOk page && offsetOk off) = true := by simp [masterOk, pageOk, offsetOk, hm, hp, ho, hal]
  exact h

/-- Settles O15: a full write clause by clause, then a narrow write as a full write of a free word. -/
theorem registerAndNarrowWrites : Obligations.RegisterAndNarrowWrites := by
  unfold Obligations.RegisterAndNarrowWrites
  refine ⟨fun s master v hm => ⟨fun page off hp ho hal hres hr => ?_, fun page off hp ho hal hr => ?_, fun off h40 ho hal hc hr => ?_,
    fun page hp hr hpend h => ?_, fun page u hu hr hhold hbit => ?_⟩,
    fun s master hm hr => ⟨fun page off hp ho hal h => ?_, ?_, fun page hp => ?_, fun off h40 ho hal hc => ?_, fun i hi => ?_⟩⟩
  · exact Does.of_answer rfl (wellFormed_registerWrite v hm hp ho hal)
      ((registerWrite_passed hr v).trans (regWrite_of_reserved hres master off v.toNat s))
  · refine Completes.of_answer rfl (wellFormed_registerWrite v hm hp ho hal) ?_
    rw [registerWrite_refused hr, State.settle_rd, State.settle_shadow, State.settle_dram, State.settle_held]
    exact ⟨s.refuseRemote_rd, (SameRegsBut.putN rfl).settle, rfl, rfl, s.mem_refuseRemote⟩
  · refine Completes.of_answer rfl (wellFormed_registerWrite v hm (by decide) ho hal) ?_
    rw [registerWrite_passed hr, regWrite_icehouse h40 hc, State.settle_regs, State.settle_shadow, State.settle_dram, State.settle_gth]
    exact ⟨s.storeReg_word_same _ v.isLt, s.storeReg_shadow_same _ v.isLt, (SameRegsBut.storeReg s _ _).settle, s.storeReg_dram _ _, s.storeReg_gth _ _⟩
  · refine Completes.of_answer rfl (wellFormed_registerWrite v hm (implemented_lt hp) (by decide) (by decide)) ?_
    rw [registerWrite_passed hr, regWrite_header hp (by decide), State.headerWrite_control_pending hpend master h, State.settle_regs, State.settle_shadow]
    exact ⟨(RegFile.fld_putFld_same _ _ _ _ _ (by decide)).trans (Nat.mod_eq_of_lt (bits_lt _ _ _)),
      (RegFile.fld_putFld_same _ _ _ _ _ (by decide)).trans (Nat.mod_eq_of_lt (bits_lt _ _ _)),
      RegFile.fld_putFld_beside _ _ _ _ _ _ _ (by decide) (by decide), RegFile.fld_putFld_beside _ _ _ _ _ _ _ (by decide) (by decide),
      (SameRegsBut.putFld rfl).settle⟩
  · rcases hu with ⟨rfl, rfl⟩ | ⟨rfl, rfl⟩
    · exact Does.of_answer rfl (wellFormed_registerWrite v hm (by decide) (by decide) (by decide))
        ((registerWrite_passed hr v).trans ((regWrite_header rfl (by decide) master _ s).trans (s.headerWrite_release_dovecote master hhold hbit)))
    · exact Does.of_answer rfl (wellFormed_registerWrite v hm (by decide) (by decide) (by decide))
        ((registerWrite_passed hr v).trans ((regWrite_header rfl (by decide) master _ s).trans (s.headerWrite_release_boathouse master hhold hbit)))
  · exact Does.of_answer rfl (wellFormed_narrowWrite hm hp ho hal) (narrowWrite_ignored (hr page off) h)
  · exact Does.of_answer rfl (wellFormed_narrowWrite hm (by decide) (by decide) (by decide))
      (narrowWrite_command (page := 0x04) (hr _ _) (by decide) (by decide) rfl)
  · refine Completes.of_answer rfl (wellFormed_narrowWrite hm (implemented_lt hp) (by decide) (by decide)) ?_
    rw [narrowWrite_held (hr _ _) hp (by decide) (by omega) (Or.inl (by decide)), State.heldWrite_pgVec, State.settle_regs, State.settle_shadow,
      State.settle_dram]
    exact ⟨s.drawWord.1, s.drawWord.2.storeReg_word_same _ s.drawWord.1.isLt, (SameRegsBut.storeReg s.drawWord.2 _ _).settle,
      (s.drawWord.2.storeReg_shadow _ _).trans (if_pos (shMaskOf_pgVec page)), s.drawWord.2.storeReg_dram _ _⟩
  · refine Completes.of_answer rfl (wellFormed_narrowWrite hm (by decide) ho hal) ?_
    rw [narrowWrite_held (hr _ _) rfl (by omega) (by omega) (Or.inr ⟨s.commandWrite_icehouse hc _ _, s.portWrite_icehouse _ _⟩),
      State.heldWrite_icehouse _ h40, State.settle_regs, State.settle_shadow, State.settle_dram]
    exact ⟨⟨s.drawWord.1, s.drawWord.2.storeReg_word_same _ s.drawWord.1.isLt, s.drawWord.2.storeReg_shadow_same _ s.drawWord.1.isLt⟩,
      (SameRegsBut.storeReg s.drawWord.2 _ _).settle, s.drawWord.2.storeReg_dram _ _⟩
  · refine Completes.of_answer rfl (wellFormed_narrowWrite hm (by decide) (by omega) (by omega)) ?_
    rw [narrowWrite_held (hr _ _) rfl (by omega) (by omega) (Or.inr ⟨s.commandWrite_window (by omega) _ _, rfl⟩),
      State.heldWrite_window _ (by omega) (by omega), State.settle_gth, State.settle_qpb, State.settle_dram, State.settle_trl]
    split
    · exact ⟨rfl, rfl, rfl, rfl⟩
    · exact ⟨State.storeReg_gth _ _ _, State.storeReg_qpb _ _ _, State.storeReg_dram _ _ _, State.storeReg_trl _ _ _⟩

end Sys2Proof.Machine

/-! The reference pool: handle commands (R186, R187) and the pictures that a decode session publishes (R193). -/

namespace Sys2Proof.Machine

/-! ### Handle commands (R186, R187) -/

section handles
variable {s : State} {handle b gen op : Nat} {allowed : State → Nat → Bool}

/-- The checks of a handle no more than 127 generations old, in the order of R186. -/
theorem State.handleCmd_near (hb : handle % 64 = b) (hg : handle / 256 % 256 = gen) (hnear : (s.rd Adr.GLP.GEN + 256 - gen) % 256 < 128) :
    s.handleCmd handle op allowed =
      if (s.pool b).stamp ≠ gen then s.refuseHandle 1 else if allowed s b then s.acceptHandle op b else s.refuseHandle 2 := by
  unfold State.handleCmd
  dsimp only
  rw [hb, hg, if_neg (by omega)]

theorem State.handleCmd_stale (hb : handle % 64 = b) (hg : handle / 256 % 256 = gen) (hnear : (s.rd Adr.GLP.GEN + 256 - gen) % 256 < 128)
    (hstamp : (s.pool b).stamp ≠ gen) : s.handleCmd handle op allowed = s.refuseHandle 1 := by
  rw [State.handleCmd_near hb hg hnear, if_pos hstamp]

theorem State.handleCmd_accept (hb : handle % 64 = b) (hg : handle / 256 % 256 = gen) (hnear : (s.rd Adr.GLP.GEN + 256 - gen) % 256 < 128)
    (hstamp : (s.pool b).stamp = gen) (ha : allowed s b = true) : s.handleCmd handle op allowed = s.acceptHandle op b := by
  rw [State.handleCmd_near hb hg hnear, if_neg (not_not.mpr hstamp), if_pos ha]

theorem State.handleCmd_refuse (hb : handle % 64 = b) (hg : handle / 256 % 256 = gen) (hnear : (s.rd Adr.GLP.GEN + 256 - gen) % 256 < 128)
    (hstamp : (s.pool b).stamp = gen) (ha : allowed s b = false) : s.handleCmd handle op allowed = s.refuseHandle 2 := by
  rw [State.handleCmd_near hb hg hnear, if_neg (not_not.mpr hstamp), ha, if_neg Bool.false_ne_true]

end handles

/-! ### Output order (R193) -/

/-- One picture comes no later than another in output order. -/
def OutPicture.notAfter (o q : OutPicture) : Prop := o.order.1 < q.order.1 ∨ (o.order.1 = q.order.1 ∧ o.order.2 ≤ q.order.2)

theorem OutPicture.notAfter_refl (o : OutPicture) : o.notAfter o := Or.inr ⟨rfl, le_rfl⟩

theorem OutPicture.notAfter_trans {o p q : OutPicture} (h : o.notAfter p) (k : p.notAfter q) : o.notAfter q := by
  unfold OutPicture.notAfter at *; omega

theorem firstOut_eq_none {l : List OutPicture} (h : firstOut l = none) : l = [] := by
  cases l with
  | nil => rfl
  | cons x r =>
    unfold firstOut at h
    split at h
    · split at h <;> exact absurd h (Option.some_ne_none _)
    · exact absurd h (Option.some_ne_none _)

/-- The first picture of a queue is one of it, and none of it comes earlier. -/
theorem firstOut_first {l : List OutPicture} {o : OutPicture} (h : firstOut l = some o) : o ∈ l ∧ ∀ q ∈ l, o.notAfter q := by
  induction l generalizing o with
  | nil => exact absurd h (by simp [firstOut])
  | cons x r ih =>
    unfold firstOut at h
    split at h
    · rename_i p hp
      obtain ⟨hmem, hfirst⟩ := ih hp
      split at h
      · rename_i hlt
        obtain rfl := Option.some.inj h
        have hx : p.notAfter x := by unfold OutPicture.notAfter; omega
        exact ⟨List.mem_cons_of_mem x hmem, List.forall_mem_cons.mpr ⟨hx, hfirst⟩⟩
      · rename_i hge
        obtain rfl := Option.some.inj h
        have hp : x.notAfter p := by unfold OutPicture.notAfter; omega
        exact ⟨List.mem_cons_self, List.forall_mem_cons.mpr ⟨x.notAfter_refl, fun q hq => OutPicture.notAfter_trans hp (hfirst q hq)⟩⟩
    · rename_i hnone
      obtain rfl := Option.some.inj h
      rw [firstOut_eq_none hnone]
      exact ⟨List.mem_cons_self, List.forall_mem_cons.mpr ⟨x.notAfter_refl, fun q hq => absurd hq List.not_mem_nil⟩⟩

/-! ### Byte images -/

theorem leBytes_length (k n : Nat) : (leBytes k n).length = k := by
  induction k generalizing n with
  | zero => rfl
  | succ k ih => simp [leBytes, ih]

theorem overlay_length {b v : List Byte} {o : Nat} (h : o + v.length ≤ b.length) : (overlay b o v).length = b.length := by
  unfold overlay
  simp only [List.length_append, List.length_take, List.length_drop]
  omega

/-- Fields within an image leave its length. -/
theorem overlays_length {fs : List (Nat × Nat × Nat)} {b : List Byte} (h : ∀ f ∈ fs, f.1 + f.2.1 ≤ b.length) : (overlays b fs).length = b.length := by
  unfold overlays
  induction fs generalizing b with
  | nil => rfl
  | cons f r ih =>
    obtain ⟨hf, hr⟩ := List.forall_mem_cons.mp h
    have hlen : (overlay b f.1 (leBytes f.2.1 f.2.2)).length = b.length := overlay_length (by rwa [leBytes_length])
    rw [List.foldl_cons, ih (hlen ▸ hr), hlen]

/-- A descriptor is 64 bytes (R171). -/
theorem BufFrame.descriptor_length (f : BufFrame) (e : Bool) : (f.descriptor e).length = 64 := by
  unfold BufFrame.descriptor
  rw [overlays_length (by simp), List.length_replicate]

/-! ### Error responses of an access, and their reports (R22, R295, R369) -/

/-- An address that fails once TRAIN is DONE is one at or above CAPACITY (R295, R369). -/
theorem State.dramError_trained {s : State} {addr c : Nat} (h : s.dramError addr = some c) : Fld.MCT.TRAIN_STAT_STATE s.regs ≠ 2 ∨ c = 0x480 := by
  unfold State.dramError at h
  split at h
  · rename_i hn; exact Or.inl hn
  · split at h
    · exact Or.inr (Option.some.inj h).symm
    · exact absurd h (by simp)

theorem State.spanError_trained {s : State} {addr n c : Nat} (h : s.spanError addr n = some c) : Fld.MCT.TRAIN_STAT_STATE s.regs ≠ 2 ∨ c = 0x480 := by
  rcases Option.or_eq_some_iff.mp h with h | ⟨-, h⟩ <;> exact State.dramError_trained h

/-- What the memory controller reports of an address counts in no register: only a channel's uncorrectable error does (R293). -/
theorem State.upstream_regs_of_address {s : State} {c : Nat} (h : Fld.MCT.TRAIN_STAT_STATE s.regs ≠ 2 ∨ c = 0x480) (unit : Nat) :
    (s.upstream unit c).regs = s.regs := by
  unfold State.upstream State.memoryError
  rw [State.event_regs]
  split
  · rfl
  · rename_i hc
    rw [if_neg (h.resolve_right hc)]

theorem State.sesUpstream_regs {s : State} {addr len c : Nat} (h : s.spanError addr len = some c) (n : Nat) :
    (s.sesUpstream n c).regs = s.regs.putN Adr.GLS.FAULT_SES n := by
  have htrain : Fld.MCT.TRAIN_STAT_STATE (s.setReg Adr.GLS.FAULT_SES n).regs = Fld.MCT.TRAIN_STAT_STATE s.regs := RegFile.fld_putN_other _ _ _ _ _ _ (by decide)
  have hcause := State.spanError_trained h
  rw [← htrain] at hcause
  exact State.upstream_regs_of_address hcause 0x290

/-- Bytes read the same in states with the same memory and the same map of it. -/
theorem SameRegsBut.dramRead {l : List RegAddr} {s t : State} (h : SameRegsBut l s t) (hd : t.dram = s.dram) (hmap : Adr.MCT.ADDR_MAP ∉ l)
    (hcap : Adr.MCT.CAPACITY ∉ l) (a n : Nat) : t.dramRead a n = s.dramRead a n := by
  have hil : Fld.MCT.ADDR_MAP_GRP_IL t.regs = Fld.MCT.ADDR_MAP_GRP_IL s.regs := h.fld hmap 0 1
  unfold State.dramRead State.place
  rw [hd, hil, h.rd hcap]

/-! ### The picture that leaves -/

/-- Bytes outside the ones stored stay. -/
theorem SameBytesBut.store (s : State) (addr : Nat) {n : Nat} {bs : List Byte} (h : bs.length ≤ n) : SameBytesBut addr n s (s.store addr bs) := by
  intro a ha
  refine State.dramRead_dramWrite_outside s addr _ a ?_
  have : (bs.take (s.served addr bs.length)).length ≤ bs.length := List.length_take_le' _ _
  omega

/-- The buffer that a leaving picture is published as. Its FRAME_COUNT and SOF_TIME are free words (R193). -/
def State.publishedFrame (s : State) (n : Nat) (o : OutPicture) : BufFrame :=
  { s.poolFrame o.buffer o.info.form with
    count := s.drawWord.1.toNat, sof := s.drawWord.2.drawWord.1.toNat, range := o.info.range, colorimetry := o.info.colorimetry, tf := o.info.tf,
    tags := o.tags, seq := (s.ses n).outCount % 2 ^ 32 }

/-- A session writes a descriptor, and reports where the write ends in an error response. -/
def State.describe (s : State) (n addr : Nat) (f : BufFrame) : State :=
  (match s.spanError addr 64 with
    | some c => s.sesUpstream n c
    | none => s).store addr (f.descriptor false)

/-- A session after its picture `o` has left. -/
def Session.without (x : Session) (o : OutPicture) (handle : Nat) : Session :=
  { x with outQueue := x.outQueue.filter (fun q => decide (q ≠ o)), outCount := x.outCount + 1, slot := x.slot + 1, handle := handle }

/-- The address of the descriptor of a pool buffer (R184). -/
def State.descriptorAddr (s : State) (b : Nat) : Nat := Fld.GLP.DESC_UNIT s.regs * 4096 + 64 * b

/-- The descriptor of a leaving picture is written, with the two free words drawn. -/
def State.writeOut (s : State) (n : Nat) (o : OutPicture) : State :=
  s.drawWord.2.drawWord.2.describe n (s.descriptorAddr o.buffer) (s.publishedFrame n o)

/-- A picture leaves its session: the descriptor is written, and the session moves on. -/
def State.handOut (s : State) (n : Nat) (o : OutPicture) : State :=
  (s.writeOut n o).setSes n ((s.ses n).without o (o.buffer + 256 * ((s.writeOut n o).pool o.buffer).stamp))

/-- A picture that has left becomes the newest of the view source that its session publishes to. -/
def State.toView (u : State) (n : Nat) (o : OutPicture) (f : BufFrame) : State :=
  (u.setPool o.buffer { u.pool o.buffer with published := true, outSrc := Fld.GLS.SES_CFG_OUT_SRC u.regs n }).complete
    (gdSource (Fld.GLS.SES_CFG_OUT_SRC u.regs n)) f

/-- With nothing to publish, or nothing let out, DECODE_PUBLISH changes nothing (R193). -/
theorem decodePublish_none {s : State} {n : Nat} (h : ∀ o, firstOut (s.ses n).outQueue = some o → s.bumps n o = false) : decodePublish n s = s := by
  unfold decodePublish
  dsimp only
  split
  · rfl
  · split
    · rfl
    · rename_i o ho
      rw [h o ho, Bool.not_false, if_pos rfl]

section describe
variable (s : State) (n addr : Nat) (f : BufFrame)

@[simp] theorem State.describe_glass : (s.describe n addr f).glass = s.glass := by
  unfold State.describe; split
  · exact State.upstream_glass _ _ _
  · rfl

@[simp] theorem State.describe_newest : (s.describe n addr f).newest = s.newest := by
  unfold State.describe; split
  · exact State.upstream_newest _ _ _
  · rfl

/-- Of the registers only FAULT_SES changes, where the write is reported. -/
theorem State.describe_regs : SameRegsBut [Adr.GLS.FAULT_SES] s (s.describe n addr f) := by
  unfold State.describe; split
  · rename_i hc
    exact SameRegsBut.putN (State.sesUpstream_regs hc n)
  · exact SameRegsBut.refl _ rfl

/-- Of the bytes only the descriptor's change. -/
theorem State.describe_bytes : SameBytesBut addr 64 s (s.describe n addr f) := by
  unfold State.describe; split
  · rename_i c hc
    intro a ha
    rw [SameBytesBut.store _ addr (f.descriptor_length false).le a ha]
    exact (SameRegsBut.putN (State.sesUpstream_regs hc n)).dramRead (State.upstream_dram _ _ _) (by decide) (by decide) a 1
  · exact SameBytesBut.store s addr (f.descriptor_length false).le

end describe

theorem sesCfg_not_mem (n : Nat) : Adr.GLS.SES_CFG n ∉ [Adr.GLS.FAULT_SES] := by
  simp only [List.mem_singleton, Adr.GLS.SES_CFG, Adr.GLS.FAULT_SES, RegAddr]; omega

section handOut
variable (s : State) (n : Nat) (o : OutPicture)

theorem State.writeOut_glass : (s.writeOut n o).glass = s.glass :=
  State.describe_glass s.drawWord.2.drawWord.2 n _ (s.publishedFrame n o)

/-- The session after its picture has left; its handle names the picture's buffer and generation (R184). -/
theorem State.handOut_ses : (s.handOut n o).ses n = (s.ses n).without o (o.buffer + 256 * (s.pool o.buffer).stamp) := by
  unfold State.handOut State.pool
  rw [State.ses_setSes, if_pos rfl, State.writeOut_glass]

theorem State.handOut_newest : (s.handOut n o).newest = s.newest :=
  State.describe_newest s.drawWord.2.drawWord.2 n _ (s.publishedFrame n o)

theorem State.handOut_regs : SameRegsBut [Adr.GLS.FAULT_SES] s (s.handOut n o) :=
  State.describe_regs s.drawWord.2.drawWord.2 n _ (s.publishedFrame n o)

theorem State.handOut_bytes : SameBytesBut (s.descriptorAddr o.buffer) 64 s (s.handOut n o) :=
  State.describe_bytes s.drawWord.2.drawWord.2 n _ (s.publishedFrame n o)

theorem State.handOut_toView : Fld.GLS.SES_CFG_OUT_TO_VIEW (s.handOut n o).regs n = Fld.GLS.SES_CFG_OUT_TO_VIEW s.regs n :=
  (s.handOut_regs n o).fld (sesCfg_not_mem n) 24 1

theorem State.handOut_outSrc : Fld.GLS.SES_CFG_OUT_SRC (s.handOut n o).regs n = Fld.GLS.SES_CFG_OUT_SRC s.regs n :=
  (s.handOut_regs n o).fld (sesCfg_not_mem n) _ _

end handOut

/-- The first entry of a key is the one stored under it. -/
theorem SMap.find?_put {α : Type} (m : List (Nat × α)) (k : Nat) (v : α) : (SMap.put m k v).find? (fun e => e.1 == k) = some (k, v) := by
  induction m with
  | nil => simp [SMap.put]
  | cons e r ih =>
    unfold SMap.put
    split
    · simp
    · split
      · simp
      · rename_i hne
        rw [List.find?_cons_of_neg (by simpa using Ne.symm hne), ih]

section toView
variable (u : State) (n : Nat) (o : OutPicture) (f : BufFrame)

theorem State.toView_regs : (u.toView n o f).regs = u.regs := by unfold State.toView; rw [State.complete_eq]; rfl

theorem State.toView_ses (m : Nat) : (u.toView n o f).ses m = u.ses m := by unfold State.toView; rw [State.complete_eq]; rfl

theorem State.toView_dramRead (a k : Nat) : (u.toView n o f).dramRead a k = u.dramRead a k := by unfold State.toView; rw [State.complete_eq]; rfl

theorem State.toView_newestOf : (u.toView n o f).newestOf (gdSource (Fld.GLS.SES_CFG_OUT_SRC u.regs n)) = some f := by
  unfold State.newestOf State.toView
  rw [State.complete_newest, SMap.find?_put]
  rfl

end toView

section published
variable {s : State} {n : Nat} {o : OutPicture} (hd : sesDecode s.regs n = true) (hs : s.sesState n = 1) (hpace : Fld.GLS.PACE_NUM s.regs n = 0)
  (hfirst : firstOut (s.ses n).outQueue = some o) (hb : s.bumps n o = true)
include hd hs hpace hfirst hb

/-- DECODE_PUBLISH of a running session without a pace whose first picture is let out (R193). -/
theorem decodePublish_out :
    decodePublish n s = if Fld.GLS.SES_CFG_OUT_TO_VIEW s.regs n = 1 then (s.handOut n o).toView n o (s.publishedFrame n o) else s.handOut n o := by
  rw [← s.handOut_toView n o]
  unfold decodePublish
  dsimp only
  rw [if_neg (by rw [hd, hs, hpace]; simp), hfirst]
  dsimp only
  rw [hb, Bool.not_true, if_neg Bool.false_ne_true]
  rfl

theorem decodePublish_ses : (decodePublish n s).ses n = (s.ses n).without o (o.buffer + 256 * (s.pool o.buffer).stamp) := by
  rw [decodePublish_out hd hs hpace hfirst hb]
  split
  · rw [State.toView_ses, State.handOut_ses]
  · exact s.handOut_ses n o

theorem decodePublish_regs : SameRegsBut [Adr.GLS.FAULT_SES] s (decodePublish n s) := by
  rw [decodePublish_out hd hs hpace hfirst hb]
  split
  · intro a ha
    rw [State.toView_regs, s.handOut_regs n o a ha]
  · exact s.handOut_regs n o

theorem decodePublish_bytes : SameBytesBut (s.descriptorAddr o.buffer) 64 s (decodePublish n s) := by
  rw [decodePublish_out hd hs hpace hfirst hb]
  split
  · intro a ha
    rw [State.toView_dramRead, s.handOut_bytes n o a ha]
  · exact s.handOut_bytes n o

theorem decodePublish_newestOf (hv : Fld.GLS.SES_CFG_OUT_TO_VIEW s.regs n = 1) :
    (decodePublish n s).newestOf (gdSource (Fld.GLS.SES_CFG_OUT_SRC s.regs n)) = some (s.publishedFrame n o) := by
  rw [decodePublish_out hd hs hpace hfirst hb, if_pos hv, ← s.handOut_outSrc n o]
  exact State.toView_newestOf _ _ _ _

theorem decodePublish_newest (hv : Fld.GLS.SES_CFG_OUT_TO_VIEW s.regs n = 0) : (decodePublish n s).newest = s.newest := by
  rw [decodePublish_out hd hs hpace hfirst hb, if_neg (by rw [hv]; decide)]
  exact s.handOut_newest n o

end published

theorem State.newestOf_settle (s : State) (src : Nat) : s.settle.newestOf src = s.newestOf src := by unfold State.newestOf; rw [State.settle_newest]

/-- With no domain stopped DECODE_PUBLISH has its effect. -/
theorem exec_decodePublish {s : State} (h : s.stopped = []) (n : Fin 32) : exec (.decodePublish n) s = answer (.decodePublish n) (decodePublish n s) :=
  congrArg (answer (.decodePublish n)) (throughEdge_running h (decodePublish n s))

/-- Settles O36: the handle commands by the checks of R186, DECODE_PUBLISH by the picture that leaves and where it goes. -/
theorem poolHandles : Obligations.PoolHandles := by
  unfold Obligations.PoolHandles
  intro s h b gen hrun hb hgen hnear
  have hg : h.toNat / 256 % 256 = gen := by have := h.isLt; omega
  refine ⟨fun hst => ⟨?_, ?_, ?_⟩, fun hst has henc hm => ?_, fun hst hm => ?_, fun hst has hm hpr => ?_, fun hst hpr => ?_, fun hst has hout hview => ?_,
    fun hst hout => ?_, ?_, fun n o addr hd hses hq hbump hpace haddr => ?_, fun n hq => ?_, fun n o hfirst hbump => ?_, fun l o hfirst => ?_⟩
  · exact Does.of_answer rfl rfl (State.handleCmd_stale hb.symm hg hnear hst)
  · exact Does.of_answer rfl rfl (State.handleCmd_stale hb.symm hg hnear hst)
  · exact Does.of_answer rfl rfl (State.handleCmd_stale hb.symm hg hnear hst)
  · exact Does.of_answer rfl rfl (State.handleCmd_accept hb.symm hg hnear hst (by simp [has, henc, hm]))
  · exact Does.of_answer rfl rfl (State.handleCmd_refuse hb.symm hg hnear hst (by simp [hm]))
  · exact Does.of_answer rfl rfl (State.handleCmd_accept hb.symm hg hnear hst (by simp [has, hm, hpr]))
  · exact Does.of_answer rfl rfl (State.handleCmd_refuse hb.symm hg hnear hst (by simp [hpr]))
  · exact Does.of_answer rfl rfl (State.handleCmd_accept hb.symm hg hnear hst (by simp [has, hout, hview]))
  · exact Does.of_answer rfl rfl (State.handleCmd_refuse hb.symm hg hnear hst (by simp [hout]))
  · exact Does.of_answer rfl rfl rfl
  · refine Completes.of_answer (exec_decodePublish hrun n) rfl ?_
    have hfirst : firstOut (s.ses n).outQueue = some o := by rw [hq]; rfl
    have hses' := decodePublish_ses hd hses hpace hfirst hbump
    rw [State.ses_settle, hses', State.newestOf_settle, State.settle_newest, haddr]
    refine ⟨by simp [Session.without, hq], rfl, rfl, fun a ha => ?_, (decodePublish_regs hd hses hpace hfirst hbump).settle,
      fun hv => ⟨s.publishedFrame n o, decodePublish_newestOf hd hses hpace hfirst hbump hv, rfl, rfl, rfl⟩,
      decodePublish_newest hd hses hpace hfirst hbump⟩
    rw [State.settle_dramRead]
    exact decodePublish_bytes hd hses hpace hfirst hbump a ha
  · refine Does.of_answer (exec_decodePublish hrun n) rfl (decodePublish_none fun o ho => ?_)
    rw [hq] at ho
    exact absurd ho (Option.some_ne_none o).symm
  · refine Does.of_answer (exec_decodePublish hrun n) rfl (decodePublish_none fun p hp => ?_)
    rw [hfirst] at hp
    exact Option.some.inj hp ▸ hbump
  · obtain ⟨hmem, hle⟩ := firstOut_first hfirst
    exact ⟨hmem, List.all_eq_true.mpr (fun q hq => decide_eq_true (hle q hq))⟩

end Sys2Proof.Machine

/-! The admission unit keeps its promise (R15, R64, R70 to R74, R77, R377). -/

namespace Sys2Proof.Machine

/-! ### What the admitted flows add up to -/

theorem foldl_add_eq_sum {α : Type} (f : α → Nat) (l : List α) (b : Nat) : l.foldl (fun a x => a + f x) b = b + (l.map f).sum := by
  induction l generalizing b with
  | nil => rfl
  | cons x r ih => rw [List.foldl_cons, ih, List.map_cons, List.sum_cons, Nat.add_assoc]

/-- What a flow counts for under a measure: nothing unless it is ADMITTED. -/
def Flow.share (m : Flow → Nat) (f : Flow) : Nat := if f.st = .admitted then m f else 0

theorem Flow.share_admitted {m : Flow → Nat} {f : Flow} (h : f.st = .admitted) : f.share m = m f := if_pos h

theorem Flow.share_other {m : Flow → Nat} {f : Flow} (h : f.st ≠ .admitted) : f.share m = 0 := if_neg h

theorem State.admitted_sum (s : State) (m : Flow → Nat) : (s.admitted.map (fun e => m e.2)).sum = SMap.sum (Flow.share m) s.trl.flows := by
  unfold State.admitted SMap.sum
  generalize s.trl.flows = l
  induction l with
  | nil => rfl
  | cons e r ih =>
    rw [List.filter_cons, List.map_cons, List.sum_cons, ← ih]
    by_cases h : e.2.st = .admitted
    · rw [if_pos (decide_eq_true h), Flow.share_admitted h, List.map_cons, List.sum_cons]
    · rw [if_neg (by simpa using h), Flow.share_other h, Nat.zero_add]

/-- The allowance as a resource holds it. -/
def State.heldAllowance (s : State) (r : Nat) : Nat := if s.holdsAllowance r then s.allowance else 0

theorem State.used_eq (s : State) (r : Nat) : s.used r = s.heldAllowance r + SMap.sum (Flow.share (·.units r)) s.trl.flows := by
  rw [← s.admitted_sum]
  exact foldl_add_eq_sum _ _ _

theorem powerOf_eq (fs : List (Nat × Flow)) (op : Nat) : powerOf fs op = basePower op + (fs.map (fun e => e.2.power op)).sum :=
  foldl_add_eq_sum _ _ _

theorem State.pwrUsed_eq (s : State) : s.pwrUsed = basePower s.trl.opPower + SMap.sum (Flow.share (·.power s.trl.opPower)) s.trl.flows := by
  rw [← s.admitted_sum]
  exact powerOf_eq _ _

theorem State.setFlow_flows (s : State) (i : Nat) (f : Flow) : (s.setFlow i f).trl.flows = SMap.set (fun _ => flowReset) s.trl.flows i f := rfl

/-- Storing a flow exchanges its old share for its new one, in the units of every resource. -/
theorem State.used_setFlow {s : State} (hwf : SMap.wf (fun _ => flowReset) s.trl.flows = true) (i : Nat) (f : Flow) (r : Nat) :
    (s.setFlow i f).used r + (s.flow i).share (·.units r) = s.used r + f.share (·.units r) := by
  have h := SMap.sum_set (Flow.share (·.units r)) (fun _ => flowReset) i f hwf rfl
  have hheld : (s.setFlow i f).heldAllowance r = s.heldAllowance r := rfl
  rw [State.used_eq, State.used_eq, State.setFlow_flows, hheld, State.flow]
  omega

/-- Storing a flow exchanges its old share for its new one, in the power. -/
theorem State.pwrUsed_setFlow {s : State} (hwf : SMap.wf (fun _ => flowReset) s.trl.flows = true) (i : Nat) (f : Flow) :
    (s.setFlow i f).pwrUsed + (s.flow i).share (·.power s.trl.opPower) = s.pwrUsed + f.share (·.power s.trl.opPower) := by
  have h := SMap.sum_set (Flow.share (·.power s.trl.opPower)) (fun _ => flowReset) i f hwf rfl
  have hop : (s.setFlow i f).trl.opPower = s.trl.opPower := rfl
  rw [State.pwrUsed_eq, State.pwrUsed_eq, State.setFlow_flows, hop, State.flow]
  omega

theorem State.mem_admitted_setFlow {s : State} {i : Nat} {f : Flow} {e : Nat × Flow} (h : e ∈ (s.setFlow i f).admitted) :
    (e = (i, f) ∧ f.st = .admitted) ∨ e ∈ s.admitted := by
  obtain ⟨hmem, hst⟩ := List.mem_filter.mp h
  rw [State.setFlow_flows] at hmem
  rcases SMap.mem_set hmem with rfl | hold
  · exact Or.inl ⟨rfl, of_decide_eq_true hst⟩
  · exact Or.inr (List.mem_filter.mpr ⟨hold, hst⟩)

/-! ### The units of a flow (R70) -/

theorem Flow.mem_pairs {f : Flow} {c : Nat × Nat} : c ∈ f.pairs ↔ c ∈ f.costs ∧ c.1 ≠ 0x3F := by
  unfold Flow.pairs; rw [List.mem_filter, bne_iff_ne]

theorem Flow.units_eq_sum (f : Flow) {r : Nat} (hr : r ≠ 0x3F) : f.units r = ((f.pairs.filter (fun c => c.1 == r)).map (·.2)).sum := by
  unfold Flow.units Flow.pairs
  rw [foldl_add_eq_sum, Nat.zero_add, List.filter_filter]
  congr 2
  refine List.filter_congr (fun c _ => ?_)
  by_cases h : c.1 = r <;> simp [h, hr]

/-- A flow charges nothing to a resource that none of its pairs names. -/
theorem Flow.units_of_unnamed {f : Flow} {r : Nat} (hr : r ≠ 0x3F) (h : ∀ c ∈ f.pairs, c.1 ≠ r) : f.units r = 0 := by
  rw [f.units_eq_sum hr, List.filter_eq_nil_iff.mpr (fun c hc => by simpa using h c hc)]; rfl

/-- A flow without a bad pair charges each resource that it names the units of that one pair. -/
theorem Flow.units_of_named {f : Flow} (hbad : f.badPair = none) {c : Nat × Nat} (hc : c ∈ f.pairs) : f.units c.1 = c.2 := by
  have hone : ∀ d ∈ f.pairs, (f.pairs.filter (fun x => x.1 == d.1)).length ≤ 1 := by
    intro d hd
    unfold Flow.badPair at hbad
    rw [Option.map_eq_none_iff, List.find?_eq_none] at hbad
    have h := hbad d hd
    simp only [Bool.or_eq_true, decide_eq_true_eq, not_or, Nat.not_lt] at h
    exact h.2
  have hmem : c ∈ f.pairs.filter (fun x => x.1 == c.1) := List.mem_filter.mpr ⟨hc, beq_self_eq_true _⟩
  rw [f.units_eq_sum (Flow.mem_pairs.mp hc).2]
  match h : f.pairs.filter (fun x => x.1 == c.1), hone c hc with
  | [], _ => rw [h] at hmem; exact absurd hmem List.not_mem_nil
  | [d], _ => rw [h, List.mem_singleton] at hmem; rw [h, hmem]; simp
  | _ :: _ :: _, hlen => rw [h] at hlen; exact absurd hlen (by simp)

/-! ### What the check of ADMIT finds (R70) -/

/-- Where the check finds no reason, every pair fits its resource, and the power fits the budget. -/
theorem State.admitCheck_none {s : State} {f : Flow} {res : Nat} (h : s.admitCheck f = (.none, res)) :
    f.badPair = none ∧ (∀ c ∈ f.pairs, s.used c.1 + c.2 ≤ s.cap c.1) ∧ s.pwrUsed + f.power s.trl.opPower ≤ Fld.TRL.PWR_BUDGET s.regs := by
  unfold State.admitCheck at h
  split at h
  · simp at h
  · rename_i hbad
    split at h
    · simp at h
    · rename_i hfit
      split at h
      · simp at h
      · rename_i hpow
        refine ⟨hbad, fun c hc => ?_, Nat.le_of_not_lt hpow⟩
        have hc := List.find?_eq_none.mp hfit c hc
        rw [decide_eq_true_eq] at hc
        exact Nat.le_of_not_lt hc

/-- ADMIT shows its outcome and does no more, or stores the selected entry, ADMITTED where the check finds no reason and REFUSED otherwise. -/
theorem admitFlow_cases (b : Bank) (s : State) :
    (∃ r res, admitFlow b s = s.admStat r res) ∨
    (∃ f r res, (s.flow (s.flowSel b)).st ≠ .admitted ∧ f.st ≠ .admitted ∧ admitFlow b s = (s.setFlow (s.flowSel b) f).admStat r res) ∨
    (∃ tokens filled res, (s.flow (s.flowSel b)).st ≠ .admitted ∧ s.admitCheck (s.flow (s.flowSel b)) = (.none, res) ∧
      admitFlow b s = (s.setFlow (s.flowSel b) { s.flow (s.flowSel b) with st := .admitted, tokens := tokens, filled := filled }).admStat .none 0) := by
  unfold admitFlow
  dsimp only
  split
  · exact Or.inl ⟨_, _, rfl⟩
  · rename_i hst
    split
    · rename_i hcheck
      exact Or.inr (Or.inr ⟨_, _, _, hst, hcheck, rfl⟩)
    · exact Or.inr (Or.inl ⟨_, _, _, hst, fun h => FlowState.noConfusion h, rfl⟩)

theorem releaseWith_cases (owner : Nat → Bool) (b : Bank) (s : State) :
    (∃ r res, releaseWith owner b s = s.admStat r res) ∨
    (∃ f r res, f.st ≠ .admitted ∧ releaseWith owner b s = (s.setFlow (s.flowSel b) f).admStat r res) := by
  unfold releaseWith
  dsimp only
  split
  · exact Or.inl ⟨_, _, rfl⟩
  · exact Or.inr ⟨_, _, _, fun h => FlowState.noConfusion h, rfl⟩

/-! ### The check of OP_REQ (R73) -/

/-- The units in use at a resource by a list of flows, with the allowance. -/
def State.usedBy (s : State) (l : List (Nat × Flow)) (r : Nat) : Nat := l.foldl (fun a e => a + e.2.units r) (if s.holdsAllowance r then s.allowance else 0)

theorem State.usedBy_eq (s : State) (l : List (Nat × Flow)) (r : Nat) : s.usedBy l r = s.heldAllowance r + (l.map (fun e => e.2.units r)).sum :=
  foldl_add_eq_sum _ _ _

theorem State.usedBy_append_unnamed (s : State) (l m : List (Nat × Flow)) {r : Nat} (hr : r ≠ 0x3F) (h : ∀ e ∈ m, ∀ c ∈ e.2.pairs, c.1 ≠ r) :
    s.usedBy (l ++ m) r = s.usedBy l r := by
  have hzero : (m.map (fun e => e.2.units r)).sum = 0 :=
    List.sum_eq_zero (fun x hx => by obtain ⟨e, he, rfl⟩ := List.mem_map.mp hx; exact Flow.units_of_unnamed hr (h e he))
  rw [s.usedBy_eq, s.usedBy_eq, List.map_append, List.sum_append, hzero, Nat.add_zero]

/-- Where OP_REQ's running totals pass nothing, the full totals do not either: the last entry that names a resource was checked against all of its units. -/
theorem State.opCheck_none {s : State} {op : Nat} {done rest : List (Nat × Flow)} (h : s.opCheck op done rest = none) :
    (∀ e ∈ rest, ∀ c ∈ e.2.pairs, s.usedBy (done ++ rest) c.1 ≤ s.capAt op c.1) ∧
    (rest ≠ [] → powerOf (done ++ rest) op ≤ Fld.TRL.PWR_BUDGET s.regs) := by
  induction rest generalizing done with
  | nil => exact ⟨fun e he => absurd he List.not_mem_nil, fun hne => absurd rfl hne⟩
  | cons e rest ih =>
    unfold State.opCheck at h
    dsimp only at h
    split at h
    · simp at h
    · rename_i hfind
      split at h
      · simp at h
      · rename_i hpow
        obtain ⟨hfits, hbudget⟩ := ih h
        rw [List.append_assoc, List.singleton_append] at hfits hbudget
        refine ⟨fun e' he' c hc => ?_, fun _ => ?_⟩
        · by_cases hlater : ∃ x ∈ rest, ∃ d ∈ x.2.pairs, d.1 = c.1
          · obtain ⟨x, hx, d, hd, hdc⟩ := hlater
            exact hdc ▸ hfits x hx d hd
          · have hunnamed : ∀ x ∈ rest, ∀ d ∈ x.2.pairs, d.1 ≠ c.1 := fun x hx d hd heq => hlater ⟨x, hx, d, hd, heq⟩
            have hthis : e' = e := (List.mem_cons.mp he').resolve_right (fun hr => hunnamed e' hr c hc rfl)
            subst hthis
            have hc' := List.find?_eq_none.mp hfind c hc
            rw [decide_eq_true_eq, Nat.not_lt] at hc'
            have happ := s.usedBy_append_unnamed (done ++ [e']) rest (Flow.mem_pairs.mp hc).2 hunnamed
            rw [List.append_assoc, List.singleton_append] at happ
            rw [happ]
            exact hc'
        · by_cases hr : rest = []
          · subst hr; exact Nat.le_of_not_lt hpow
          · exact hbudget hr

theorem opFraction_mono {a b : Nat} (h : a ≤ b) (hb : b ≤ 3) : opFraction a ≤ opFraction b := by
  interval_cases b <;> interval_cases a <;> decide

theorem State.capAt_mono (s : State) {a b : Nat} (h : a ≤ b) (hb : b ≤ 3) (r : Nat) : s.capAt a r ≤ s.capAt b r :=
  Nat.div_le_div_right (Nat.mul_le_mul_left _ (opFraction_mono h hb))

theorem basePower_le (op : Nat) : basePower op ≤ 20000 := by
  have hfactor : opFactor op ≤ 1024 := by
    match op with
    | 0 | 1 | 2 | 3 => decide
    | _ + 4 => exact le_rfl
  unfold basePower ceilDiv
  omega

/-! ### What the capacities rest on -/

theorem SameRegsBut.mono {l m : List RegAddr} {s t : State} (h : SameRegsBut l s t) (hlm : l ⊆ m) : SameRegsBut m s t :=
  fun a ha => h a (fun hl => ha (hlm hl))

/-- The capacities at OP3 rest on ADM_CAP and the trained links alone. -/
theorem SameRegsBut.c3 {l : List RegAddr} {s t : State} (h : SameRegsBut l s t) (hl : ∀ a ∈ l, a < 0x44000)
    (hrp : t.trl.rpGen = s.trl.rpGen) (hep : t.trl.epGen = s.trl.epGen) (r : Nat) : t.c3 r = s.c3 r := by
  have hout : Adr.MC.ADM_CAP (r - 0x17) ∉ l := fun hmem => by have : 0x44048 + 0x1000 * (r - 0x17) < 0x44000 := hl _ hmem; omega
  have hcap : Fld.MC.ADM_CAP t.regs (r - 0x17) = Fld.MC.ADM_CAP s.regs (r - 0x17) := h.fld hout 0 16
  unfold State.c3 State.rpGenOf
  rw [hcap, hrp, hep]

theorem State.capAt_congr {s t : State} {r : Nat} (h : t.c3 r = s.c3 r) (op : Nat) : t.capAt op r = s.capAt op r := by unfold State.capAt; rw [h]

theorem State.holdsAllowance_congr {s t : State} {r : Nat} (h : t.c3 r = s.c3 r) : t.holdsAllowance r = s.holdsAllowance r := by
  unfold State.holdsAllowance; rw [h]

/-- The registers that a move of the operating point, a budget or an outcome may write: none of them bears on what the flows use. -/
def moveRegs : List RegAddr := [Adr.TRL.OP, Adr.TRL.OP_STAT, Adr.PMU.VSEL, Adr.TRL.ADM_STAT, Adr.TRL.PWR_BUDGET]

section moves
variable {s t : State} (hregs : SameRegsBut moveRegs s t) (htrl : t.trl = { s.trl with opPower := t.trl.opPower })
include hregs htrl

theorem SameRegsBut.c3_move (r : Nat) : t.c3 r = s.c3 r :=
  hregs.c3 (by decide) (by rw [htrl]) (by rw [htrl]) r

theorem SameRegsBut.used_move (r : Nat) : t.used r = s.used r := by
  have hallow : t.allowance = s.allowance := by
    unfold State.allowance
    exact congrArg₂ allowanceOf (hregs.fld (a := Adr.TRL.BE_SLOTS) (by decide) 0 6) (hregs.fld (a := Adr.TRL.BE_PATIENCE) (by decide) 0 8)
  rw [State.used_eq, State.used_eq, htrl]
  unfold State.heldAllowance
  rw [hallow, State.holdsAllowance_congr (hregs.c3_move htrl r)]

/-- The promise holds after a move where the flows fit the capacities of the point then in force, and their power the budget. -/
theorem AdmissionSound.of_move (h : AdmissionSound s)
    (hcap : ∀ e ∈ s.admitted, ∀ c ∈ e.2.pairs, s.used c.1 ≤ s.capAt (Fld.TRL.OP_CUR t.regs) c.1)
    (hpow : powerOf s.admitted t.trl.opPower ≤ Fld.TRL.PWR_BUDGET t.regs) (hlow : 20000 ≤ Fld.TRL.PWR_BUDGET t.regs)
    (hmove : ∀ op, t.pwr.settling = some op → Fld.TRL.OP_STAT_BUSY t.regs = 1 ∧ Fld.TRL.OP_CUR t.regs ≤ op ∧ op ≤ 3) : AdmissionSound t := by
  obtain ⟨hwf, -, -, -, -⟩ := h
  have hflows : t.trl.flows = s.trl.flows := by rw [htrl]
  have hadm : t.admitted = s.admitted := by unfold State.admitted; rw [hflows]
  refine ⟨hflows ▸ hwf, fun e he c hc => ?_, ?_, hlow, hmove⟩
  · rw [hregs.used_move htrl]
    exact (hcap e (hadm ▸ he) c hc).trans (State.capAt_congr (hregs.c3_move htrl _) _).ge
  · unfold State.pwrUsed
    rw [hadm]
    exact hpow

/-- The same under the budget as it was. -/
theorem AdmissionSound.move (h : AdmissionSound s) (hbud : Fld.TRL.PWR_BUDGET t.regs = Fld.TRL.PWR_BUDGET s.regs)
    (hcap : ∀ e ∈ s.admitted, ∀ c ∈ e.2.pairs, s.used c.1 ≤ s.capAt (Fld.TRL.OP_CUR t.regs) c.1)
    (hpow : powerOf s.admitted t.trl.opPower ≤ Fld.TRL.PWR_BUDGET s.regs)
    (hmove : ∀ op, t.pwr.settling = some op → Fld.TRL.OP_STAT_BUSY t.regs = 1 ∧ Fld.TRL.OP_CUR t.regs ≤ op ∧ op ≤ 3) : AdmissionSound t := by
  obtain ⟨-, -, -, hlow, -⟩ := id h
  exact h.of_move hregs htrl hcap (hbud ▸ hpow) (hbud ▸ hlow) hmove

end moves

/-! ### Each command keeps the promise -/

theorem AdmissionSound.admStat {s : State} (h : AdmissionSound s) (r : Reason) (res : Nat) : AdmissionSound (s.admStat r res) := by
  have hregs : SameRegsBut [Adr.TRL.ADM_STAT] s (s.admStat r res) := SameRegsBut.putN rfl
  have hop : Fld.TRL.OP_CUR (s.admStat r res).regs = Fld.TRL.OP_CUR s.regs := hregs.fld (by decide) 0 2
  have hbusy : Fld.TRL.OP_STAT_BUSY (s.admStat r res).regs = Fld.TRL.OP_STAT_BUSY s.regs := hregs.fld (by decide) 0 1
  obtain ⟨-, hfits, hpow, -, hmove⟩ := id h
  refine h.move (hregs.mono (by decide)) rfl (hregs.fld (by decide) 0 16) ?_ hpow ?_
  · rw [hop]; exact hfits
  · rw [hop, hbusy]; exact hmove

/-- Storing an entry that is not ADMITTED only takes shares away. -/
theorem AdmissionSound.setFlow_other {s : State} (h : AdmissionSound s) (i : Nat) {f : Flow} (hf : f.st ≠ .admitted) : AdmissionSound (s.setFlow i f) := by
  obtain ⟨hwf, hfits, hpow, hlow, hmove⟩ := h
  refine ⟨SMap.wf_set _ hwf, fun e he c hc => ?_, ?_, hlow, hmove⟩
  · have hold : e ∈ s.admitted := (State.mem_admitted_setFlow he).resolve_left (fun hnew => hf hnew.2)
    have hsum := State.used_setFlow hwf i f c.1
    rw [Flow.share_other hf] at hsum
    exact le_trans (by omega) (hfits e hold c hc)
  · have hsum := State.pwrUsed_setFlow hwf i f
    rw [Flow.share_other hf] at hsum
    exact le_trans (by omega) hpow

/-- Admitting an entry in which the check finds no reason keeps every resource and the power within their limits. -/
theorem AdmissionSound.setFlow_admitted {s : State} (h : AdmissionSound s) {i res : Nat} (hst : (s.flow i).st ≠ .admitted)
    (hcheck : s.admitCheck (s.flow i) = (.none, res)) (tokens filled : Nat) :
    AdmissionSound (s.setFlow i { s.flow i with st := .admitted, tokens := tokens, filled := filled }) := by
  obtain ⟨hwf, hfits, hpow, hlow, hmove⟩ := h
  obtain ⟨hbad, hpairs, hbudget⟩ := State.admitCheck_none hcheck
  refine ⟨SMap.wf_set _ hwf, fun e he c hc => ?_, ?_, hlow, hmove⟩
  · have hsum := State.used_setFlow hwf i { s.flow i with st := .admitted, tokens := tokens, filled := filled } c.1
    rw [Flow.share_other hst, Flow.share_admitted rfl] at hsum
    show State.used _ c.1 ≤ s.cap c.1
    by_cases hnamed : ∃ d ∈ (s.flow i).pairs, d.1 = c.1
    · obtain ⟨d, hd, hdc⟩ := hnamed
      have hunits : (s.flow i).units c.1 = d.2 := hdc ▸ Flow.units_of_named hbad hd
      have hfit := hpairs d hd
      rw [hdc, ← hunits] at hfit
      exact hsum.le.trans hfit
    · have hunits : (s.flow i).units c.1 = 0 :=
        Flow.units_of_unnamed (Flow.mem_pairs.mp hc).2 (fun d hd heq => hnamed ⟨d, hd, heq⟩)
      have hold : e ∈ s.admitted := (State.mem_admitted_setFlow he).resolve_left (fun hnew => hnamed ⟨c, by rw [hnew.1] at hc; exact hc, rfl⟩)
      exact (hsum.le.trans (congrArg (s.used c.1 + ·) hunits).le).trans (hfits e hold c hc)
  · have hsum := State.pwrUsed_setFlow hwf i { s.flow i with st := .admitted, tokens := tokens, filled := filled }
    rw [Flow.share_other hst, Flow.share_admitted rfl] at hsum
    exact hsum.le.trans hbudget

theorem admitFlow_keeps_sound {s : State} (h : AdmissionSound s) (b : Bank) : AdmissionSound (admitFlow b s) := by
  rcases admitFlow_cases b s with ⟨r, res, e⟩ | ⟨f, r, res, -, hf, e⟩ | ⟨tokens, filled, res, hst, hcheck, e⟩ <;> rw [e]
  · exact h.admStat r res
  · exact (h.setFlow_other _ hf).admStat r res
  · exact (h.setFlow_admitted hst hcheck tokens filled).admStat _ _

theorem releaseWith_keeps_sound {s : State} (h : AdmissionSound s) (owner : Nat → Bool) (b : Bank) : AdmissionSound (releaseWith owner b s) := by
  rcases releaseWith_cases owner b s with ⟨r, res, e⟩ | ⟨f, r, res, hf, e⟩ <;> rw [e]
  · exact h.admStat r res
  · exact (h.setFlow_other _ hf).admStat r res

/-! ### OP_REQ and VSETTLE_EXPIRY (R73, R338) -/

theorem State.driveVsel_trl (s : State) (op : Nat) : (s.driveVsel op).trl = s.trl := by unfold State.driveVsel; split <;> rfl
theorem State.driveVsel_pwr (s : State) (op : Nat) : (s.driveVsel op).pwr = s.pwr := by unfold State.driveVsel; split <;> rfl
theorem State.driveVsel_dram (s : State) (op : Nat) : (s.driveVsel op).dram = s.dram := by unfold State.driveVsel; split <;> rfl

theorem SameRegsBut.driveVsel (s : State) (op : Nat) : SameRegsBut [Adr.PMU.VSEL] s (s.driveVsel op) := by
  unfold State.driveVsel
  split
  · exact SameRegsBut.putFld rfl
  · exact SameRegsBut.refl _ rfl

/-- A move that has been accepted: its power counts at once, and OP_STAT shows nothing yet. -/
def State.toPoint (s : State) (op : Nat) : State := { s.setReg Adr.TRL.OP_STAT 0 with trl := { s.trl with opPower := op } }

/-- A move down: the capacities fall first, then VSEL. -/
def State.lowered (s : State) (op : Nat) : State := ((s.toPoint op).setReg Adr.TRL.OP op).driveVsel op

/-- A move up: VSEL rises, and settles before the capacities do. -/
def State.raised (s : State) (op : Nat) : State :=
  let u := (((s.toPoint op).setFld Adr.TRL.OP_STAT 0 1 1).driveVsel op).setFld Adr.PMU.VSEL 4 1 0
  { u with pwr := { u.pwr with settling := some op } }

theorem opReq_busy {s : State} (h : Fld.TRL.OP_STAT_BUSY s.regs = 1) (op : Nat) : opReq op s = s := if_pos h

theorem opReq_present {s : State} (h : Fld.TRL.OP_STAT_BUSY s.regs ≠ 1) : opReq (Fld.TRL.OP_CUR s.regs) s = s.setReg Adr.TRL.OP_STAT 0 := by
  unfold opReq; rw [if_neg h, if_pos rfl]

theorem opReq_refused {s : State} {op i r : Nat} (h : Fld.TRL.OP_STAT_BUSY s.regs ≠ 1) (hop : op ≠ Fld.TRL.OP_CUR s.regs)
    (hcheck : s.opCheck op [] s.admitted = some (i, r)) : opReq op s = s.setReg Adr.TRL.OP_STAT (2 + i * 2 ^ 8 + r * 2 ^ 16) := by
  unfold opReq; rw [if_neg h, if_neg hop, hcheck]

theorem SameRegsBut.toPoint (s : State) (op : Nat) : SameRegsBut [Adr.TRL.OP_STAT] s (s.toPoint op) := SameRegsBut.putN (n := 0) rfl

theorem State.toPoint_opCur (s : State) (op : Nat) : Fld.TRL.OP_CUR (s.toPoint op).regs = Fld.TRL.OP_CUR s.regs :=
  (SameRegsBut.toPoint s op).fld (by decide) 0 2

theorem opReq_down {s : State} {op : Nat} (h : Fld.TRL.OP_STAT_BUSY s.regs ≠ 1) (hop : op < Fld.TRL.OP_CUR s.regs)
    (hcheck : s.opCheck op [] s.admitted = none) :
    opReq op s = if Fld.PMU.VSEL_CUR (s.lowered op).regs = op then s.lowered op else (s.lowered op).setFld Adr.TRL.OP_STAT 0 1 1 := by
  have hcur := s.toPoint_opCur op
  unfold State.lowered
  unfold State.toPoint at hcur ⊢
  unfold opReq
  rw [if_neg h, if_neg hop.ne, hcheck]
  dsimp only at hcur ⊢
  rw [hcur, if_pos hop]

theorem opReq_up {s : State} {op : Nat} (h : Fld.TRL.OP_STAT_BUSY s.regs ≠ 1) (hop : Fld.TRL.OP_CUR s.regs < op)
    (hcheck : s.opCheck op [] s.admitted = none) : opReq op s = s.raised op := by
  have hcur := s.toPoint_opCur op
  unfold State.raised
  unfold State.toPoint at hcur ⊢
  unfold opReq
  rw [if_neg h, if_neg hop.ne', hcheck]
  dsimp only at hcur ⊢
  rw [hcur, if_neg hop.not_gt]

theorem SameRegsBut.lowered (s : State) (op : Nat) : SameRegsBut [Adr.TRL.OP_STAT, Adr.TRL.OP, Adr.PMU.VSEL] s (s.lowered op) :=
  ((SameRegsBut.toPoint s op).trans (SameRegsBut.putN rfl)).trans (SameRegsBut.driveVsel _ op)

theorem SameRegsBut.raised (s : State) (op : Nat) : SameRegsBut [Adr.TRL.OP_STAT, Adr.TRL.OP_STAT, Adr.PMU.VSEL, Adr.PMU.VSEL] s (s.raised op) :=
  ((SameRegsBut.toPoint s op).trans (SameRegsBut.putFld rfl)).trans ((SameRegsBut.driveVsel _ op).trans (SameRegsBut.putFld rfl))

theorem State.lowered_trl (s : State) (op : Nat) : (s.lowered op).trl = { s.trl with opPower := op } := State.driveVsel_trl _ _
theorem State.raised_trl (s : State) (op : Nat) : (s.raised op).trl = { s.trl with opPower := op } := State.driveVsel_trl _ _
theorem State.lowered_pwr (s : State) (op : Nat) : (s.lowered op).pwr = s.pwr := State.driveVsel_pwr _ _

/-- OP.CUR after a write of a point. -/
theorem fld_opCur_putN (rf : RegFile) {op : Nat} (h : op ≤ 3) : (rf.putN Adr.TRL.OP op).fld Adr.TRL.OP 0 2 = op := by
  rw [RegFile.fld_putN_same]; unfold bits; omega

theorem State.lowered_opCur (s : State) {op : Nat} (h : op ≤ 3) : Fld.TRL.OP_CUR (s.lowered op).regs = op :=
  ((SameRegsBut.driveVsel _ op).fld (by decide) 0 2).trans (fld_opCur_putN _ h)

theorem State.raised_opCur (s : State) (op : Nat) : Fld.TRL.OP_CUR (s.raised op).regs = Fld.TRL.OP_CUR s.regs :=
  (SameRegsBut.raised s op).fld (by decide) 0 2

theorem State.raised_busy (s : State) (op : Nat) : Fld.TRL.OP_STAT_BUSY (s.raised op).regs = 1 :=
  (((SameRegsBut.driveVsel _ op).trans (SameRegsBut.putFld (t := s.raised op) rfl)).fld (by decide) 0 1).trans
    (RegFile.fld_putFld_same _ _ _ _ _ (by decide))

theorem State.raised_settling (s : State) (op : Nat) : (s.raised op).pwr.settling = some op := rfl

/-- Where OP_REQ's check passes, the flows' power at the new point fits the budget. -/
theorem AdmissionSound.power_of_check {s : State} (h : AdmissionSound s) {op : Nat} (hcheck : s.opCheck op [] s.admitted = none) :
    powerOf s.admitted op ≤ Fld.TRL.PWR_BUDGET s.regs := by
  obtain ⟨-, -, -, hlow, -⟩ := h
  by_cases hnone : s.admitted = []
  · rw [hnone]; exact (basePower_le op).trans hlow
  · exact (State.opCheck_none hcheck).2 hnone

theorem opReq_keeps_sound {s : State} (h : AdmissionSound s) {op : Nat} (hop : op ≤ 3) : AdmissionSound (opReq op s) := by
  by_cases hbusy : Fld.TRL.OP_STAT_BUSY s.regs = 1
  · rw [opReq_busy hbusy]; exact h
  obtain ⟨-, hfits, hpow, -, hmove⟩ := id h
  have hstill (o : Nat) : s.pwr.settling ≠ some o := fun hs => hbusy (hmove o hs).1
  -- a refusal, and a move to the present point, write OP_STAT alone
  have hstat (n : Nat) : AdmissionSound (s.setReg Adr.TRL.OP_STAT n) := by
    have hregs : SameRegsBut [Adr.TRL.OP_STAT] s (s.setReg Adr.TRL.OP_STAT n) := SameRegsBut.putN rfl
    refine h.move (hregs.mono (by decide)) rfl (hregs.fld (by decide) 0 16) ?_ hpow (fun o hs => absurd hs (hstill o))
    rw [show Fld.TRL.OP_CUR (s.setReg Adr.TRL.OP_STAT n).regs = Fld.TRL.OP_CUR s.regs from hregs.fld (by decide) 0 2]
    exact hfits
  by_cases hcur : op = Fld.TRL.OP_CUR s.regs
  · rw [hcur, opReq_present hbusy]; exact hstat 0
  match hcheck : s.opCheck op [] s.admitted with
  | some (i, r) => rw [opReq_refused hbusy hcur hcheck]; exact hstat _
  | none =>
    rcases Nat.lt_or_gt_of_ne hcur with hdown | hup
    · have hlow : AdmissionSound (s.lowered op) := by
        refine h.move ((SameRegsBut.lowered s op).mono (by decide)) (by rw [s.lowered_trl]) ((SameRegsBut.lowered s op).fld (by decide) 0 16) ?_ ?_
          (fun o hs => absurd hs (by rw [s.lowered_pwr]; exact hstill o))
        · rw [s.lowered_opCur hop]; exact (State.opCheck_none hcheck).1
        · rw [s.lowered_trl]; exact h.power_of_check hcheck
      have hpwr := s.lowered_pwr op
      rw [opReq_down hbusy hdown hcheck]
      split
      · exact hlow
      · obtain ⟨-, hfits', hpow', -, -⟩ := id hlow
        have hregs : SameRegsBut [Adr.TRL.OP_STAT] (s.lowered op) ((s.lowered op).setFld Adr.TRL.OP_STAT 0 1 1) := SameRegsBut.putFld rfl
        refine hlow.move (hregs.mono (by decide)) rfl (hregs.fld (by decide) 0 16) ?_ hpow' (fun o hs => absurd (hpwr ▸ hs) (hstill o))
        rw [show Fld.TRL.OP_CUR ((s.lowered op).setFld Adr.TRL.OP_STAT 0 1 1).regs = Fld.TRL.OP_CUR (s.lowered op).regs from hregs.fld (by decide) 0 2]
        exact hfits'
    · rw [opReq_up hbusy hup hcheck]
      refine h.move ((SameRegsBut.raised s op).mono (by decide)) (by rw [s.raised_trl]) ((SameRegsBut.raised s op).fld (by decide) 0 16) ?_ ?_ (fun o hs => ?_)
      · rw [s.raised_opCur]; exact hfits
      · rw [s.raised_trl]; exact h.power_of_check hcheck
      · rw [s.raised_settling, Option.some.injEq] at hs
        subst hs
        rw [s.raised_opCur]
        exact ⟨s.raised_busy op, hup.le, hop⟩

theorem vsettleExpiry_idle {s : State} (h : s.pwr.settling = none) : vsettleExpiry s = s := by unfold vsettleExpiry; rw [h]

/-- The voltage is settled: the new point is in force. -/
def State.voltageSettled (s : State) (op : Nat) : State :=
  { ((s.setReg Adr.TRL.OP op).setFld Adr.TRL.OP_STAT 0 1 0).setFld Adr.PMU.VSEL 4 1 1 with pwr := { s.pwr with settling := none } }

theorem vsettleExpiry_settling {s : State} {op : Nat} (h : s.pwr.settling = some op) : vsettleExpiry s = s.voltageSettled op := by
  unfold vsettleExpiry State.voltageSettled; rw [h]

theorem SameRegsBut.voltageSettled (s : State) (op : Nat) : SameRegsBut [Adr.TRL.OP, Adr.TRL.OP_STAT, Adr.PMU.VSEL] s (s.voltageSettled op) :=
  ((SameRegsBut.putN rfl).trans (SameRegsBut.putFld (t := (s.setReg Adr.TRL.OP op).setFld Adr.TRL.OP_STAT 0 1 0) rfl)).trans (SameRegsBut.putFld rfl)

theorem State.voltageSettled_opCur (s : State) {op : Nat} (h : op ≤ 3) : Fld.TRL.OP_CUR (s.voltageSettled op).regs = op :=
  (RegFile.fld_putFld_other _ _ _ _ _ _ _ _ (by decide)).trans
    ((RegFile.fld_putFld_other _ _ _ _ _ _ _ _ (by decide)).trans (fld_opCur_putN _ h))

theorem vsettleExpiry_keeps_sound {s : State} (h : AdmissionSound s) : AdmissionSound (vsettleExpiry s) := by
  match hs : s.pwr.settling with
  | none => rw [vsettleExpiry_idle hs]; exact h
  | some op =>
    obtain ⟨-, hfits, hpow, -, hmove⟩ := id h
    obtain ⟨-, hle, hop⟩ := hmove op hs
    rw [vsettleExpiry_settling hs]
    refine h.move ((SameRegsBut.voltageSettled s op).mono (by decide)) rfl ((SameRegsBut.voltageSettled s op).fld (by decide) 0 16) (fun e he c hc => ?_) hpow
      (fun o ho => absurd ho (Option.some_ne_none o).symm)
    rw [s.voltageSettled_opCur hop]
    exact (hfits e he c hc).trans (s.capAt_mono hle hop c.1)

/-! ### PWR_BUDGET_WRITE and BE_ALLOWANCE_WRITE (R74, R377) -/

theorem AdmissionSound.setBudget {s : State} (h : AdmissionSound s) {v : Nat} (hlow : 20000 ≤ v) (hhigh : v < 2 ^ 16) (hpow : s.pwrUsed ≤ v) :
    AdmissionSound (s.setReg Adr.TRL.PWR_BUDGET v) := by
  obtain ⟨-, hfits, -, -, hmove⟩ := id h
  have hregs : SameRegsBut [Adr.TRL.PWR_BUDGET] s (s.setReg Adr.TRL.PWR_BUDGET v) := SameRegsBut.putN rfl
  have hbud : Fld.TRL.PWR_BUDGET (s.setReg Adr.TRL.PWR_BUDGET v).regs = v := by
    refine (RegFile.fld_putN_same _ _ _ _ _).trans ?_
    unfold bits; omega
  have hop : Fld.TRL.OP_CUR (s.setReg Adr.TRL.PWR_BUDGET v).regs = Fld.TRL.OP_CUR s.regs := hregs.fld (by decide) 0 2
  have hbusy : Fld.TRL.OP_STAT_BUSY (s.setReg Adr.TRL.PWR_BUDGET v).regs = Fld.TRL.OP_STAT_BUSY s.regs := hregs.fld (by decide) 0 1
  refine h.of_move (hregs.mono (by decide)) rfl ?_ (hbud.symm ▸ hpow) (hbud.symm ▸ hlow) ?_
  · rw [hop]; exact hfits
  · rw [hop, hbusy]; exact hmove

theorem State.holdsAllowance_lt {s : State} {r : Nat} (h : s.holdsAllowance r = true) : r < 0x24 := by
  unfold State.holdsAllowance at h
  simp only [Bool.or_eq_true, Bool.and_eq_true, decide_eq_true_eq] at h
  omega

/-- Room for a new allowance: each resource that holds it stays within its capacity (R377). -/
theorem State.roomForAllowance_le {s : State} {new r : Nat} (h : s.roomForAllowance new = true) (hold : s.holdsAllowance r = true) :
    s.used r - s.allowance + new ≤ s.cap r := by
  have hr := List.all_eq_true.mp h r (List.mem_range.mpr (State.holdsAllowance_lt hold))
  rw [hold, Bool.not_true, Bool.false_or, decide_eq_true_eq] at hr
  exact hr

/-- The registers that the allowance rests on. -/
def allowanceRegs : List RegAddr := [Adr.TRL.BE_SLOTS, Adr.TRL.BE_PATIENCE]

/-- A write of an allowance register that lowers the allowance, or for which every resource has room. -/
theorem AdmissionSound.setAllowance {s : State} (h : AdmissionSound s) {a v : Nat} (ha : a ∈ allowanceRegs)
    (hfit : (s.setReg a v).allowance ≤ s.allowance ∨ s.roomForAllowance (s.setReg a v).allowance = true) : AdmissionSound (s.setReg a v) := by
  obtain ⟨hwf, hfits, hpow, hlow, hmove⟩ := h
  have hregs : SameRegsBut allowanceRegs s (s.setReg a v) := (SameRegsBut.putN rfl).mono (by simpa using ha)
  have hc3 := hregs.c3 (by decide) rfl rfl
  have hbud : Fld.TRL.PWR_BUDGET (s.setReg a v).regs = Fld.TRL.PWR_BUDGET s.regs := hregs.fld (by decide) 0 16
  have hop : Fld.TRL.OP_CUR (s.setReg a v).regs = Fld.TRL.OP_CUR s.regs := hregs.fld (by decide) 0 2
  have hbusy : Fld.TRL.OP_STAT_BUSY (s.setReg a v).regs = Fld.TRL.OP_STAT_BUSY s.regs := hregs.fld (by decide) 0 1
  refine ⟨hwf, fun e he c hc => ?_, hbud.symm ▸ hpow, hbud.symm ▸ hlow, by rw [hop, hbusy]; exact hmove⟩
  have hcap : (s.setReg a v).cap c.1 = s.cap c.1 := by unfold State.cap; rw [hop, State.capAt_congr (hc3 c.1)]
  have hused := s.used_eq c.1
  have hfits := hfits e he c hc
  rw [State.used_eq, hcap, State.setReg_trl]
  unfold State.heldAllowance at hused ⊢
  rw [State.holdsAllowance_congr (hc3 c.1)]
  by_cases hold : s.holdsAllowance c.1 = true
  · rw [if_pos hold] at hused ⊢
    rcases hfit with hle | hroom
    · omega
    · have hroom := State.roomForAllowance_le hroom hold
      omega
  · rw [if_neg hold] at hused ⊢
    omega

theorem pwrBudgetWrite_keeps_sound {s : State} (h : AdmissionSound s) (v : Nat) : AdmissionSound (pwrBudgetWrite v s) := by
  unfold pwrBudgetWrite
  dsimp only
  split
  · rename_i hv
    obtain ⟨hlow, -, hpow⟩ := hv
    exact h.setBudget hlow (Nat.mod_lt _ (by decide)) hpow
  · exact h

theorem State.allowance_setSlots (s : State) {v : Nat} (hv : v < 64) :
    (s.setReg Adr.TRL.BE_SLOTS v).allowance = allowanceOf v (Fld.TRL.BE_PATIENCE s.regs) := by
  refine congrArg₂ allowanceOf ((RegFile.fld_putN_same _ _ _ _ _).trans ?_) (RegFile.fld_putN_other _ _ _ _ _ _ (by decide))
  unfold bits; omega

theorem State.allowance_setPatience (s : State) {v : Nat} (hv : v < 256) :
    (s.setReg Adr.TRL.BE_PATIENCE v).allowance = allowanceOf (Fld.TRL.BE_SLOTS s.regs) v := by
  refine congrArg₂ allowanceOf (RegFile.fld_putN_other _ _ _ _ _ _ (by decide)) ((RegFile.fld_putN_same _ _ _ _ _).trans ?_)
  unfold bits; omega

theorem beAllowanceWrite_keeps_sound {s : State} (h : AdmissionSound s) (r : BeReg) (v : Nat) : AdmissionSound (beAllowanceWrite r v s) := by
  cases r <;> unfold beAllowanceWrite <;> dsimp only <;> split
  case slots.isTrue hv =>
    obtain ⟨-, -, hfit⟩ := hv
    exact h.setAllowance (by decide) (by rw [s.allowance_setSlots (Nat.mod_lt _ (by decide))]; exact hfit)
  case patience.isTrue hv =>
    obtain ⟨-, hfit⟩ := hv
    exact h.setAllowance (by decide) (by rw [s.allowance_setPatience (Nat.mod_lt _ (by decide))]; exact hfit)
  case slots.isFalse => exact h
  case patience.isFalse => exact h

/-! ### The invariant -/

/-- The promise rests on the admission unit, the registers and the move in progress, which settling leaves. -/
theorem AdmissionSound.settle {s : State} (h : AdmissionSound s) : AdmissionSound s.settle := by
  obtain ⟨-, hfits, hpow, -, hmove⟩ := id h
  refine h.move (SameRegsBut.refl _ s.settle_regs) (by rw [State.settle_trl]) (by rw [State.settle_regs]) ?_ ?_ ?_
  · rw [State.settle_regs]; exact hfits
  · rw [State.settle_trl]; exact hpow
  · rw [State.settle_regs, State.settle_pwr]; exact hmove

/-- A command whose operation leaves the promise kept answers a state that keeps it. -/
theorem AdmissionSound.of_exec {c : Instr} {s u t : State} (h : AdmissionSound u) (hc : exec c s = answer c u) (ht : exec c s = .next t) :
    AdmissionSound t := by
  rw [hc] at ht
  rw [(answer_inversion ht).2]
  exact h.settle

/-- Settles O19: each of the six operations keeps the promise; ADMIT and RELEASE by the exchange of one entry's shares, OP_REQ by its running totals,
VSETTLE_EXPIRY because capacities rise with the point. -/
theorem admissionNeverOvercommits : Obligations.AdmissionNeverOvercommits := by
  unfold Obligations.AdmissionNeverOvercommits
  rintro s t c h (⟨b, rfl⟩ | ⟨b, rfl⟩ | ⟨op, rfl⟩ | rfl | ⟨v, rfl⟩ | ⟨r, v, rfl⟩) ht
  · exact (admitFlow_keeps_sound h b).of_exec rfl ht
  · exact (releaseWith_keeps_sound h s.ownerActive b).of_exec rfl ht
  · exact (opReq_keeps_sound h (Nat.le_of_lt_succ op.isLt)).of_exec rfl ht
  · exact (vsettleExpiry_keeps_sound h).of_exec rfl ht
  · exact (pwrBudgetWrite_keeps_sound h v.toNat).of_exec rfl ht
  · exact (beAllowanceWrite_keeps_sound h r v.toNat).of_exec rfl ht

end Sys2Proof.Machine

/-! The step function, and the moves of the operating point, the power budget and the allowance (R21, R29, R73, R74, R77, R338, R377). -/

namespace Sys2Proof.Machine

/-- Settles O1: a step executes the front of the queue with the rest of it. -/
theorem stepTakesFront : Obligations.StepTakesFront := fun _ _ => step_cons rfl

/-! ### Moves of the operating point (R73, R338) -/

theorem State.driveVsel_powered {s : State} (h : bitOf (Fld.PMU.PWR_STAT_PG s.regs) 1 = true) (op : Nat) :
    s.driveVsel op = (s.setFld Adr.PMU.VSEL 0 2 op).emit (.vsel op) := if_pos h

theorem fld_vselCur_putFld (rf : RegFile) {op : Nat} (h : op ≤ 3) : Fld.PMU.VSEL_CUR (rf.putFld Adr.PMU.VSEL 0 2 op) = op :=
  (RegFile.fld_putFld_same _ _ _ _ _ (by decide)).trans (Nat.mod_eq_of_lt (by omega))

section moves
variable {s : State} {op : Nat} (hpg : bitOf (Fld.PMU.PWR_STAT_PG s.regs) 1 = true)
include hpg

theorem State.raised_powered : s.raised op =
    let u := (((s.toPoint op).setFld Adr.TRL.OP_STAT 0 1 1).setFld Adr.PMU.VSEL 0 2 op).emit (.vsel op)
    { u.setFld Adr.PMU.VSEL 4 1 0 with pwr := { u.pwr with settling := some op } } := by
  have hregs : SameRegsBut [Adr.TRL.OP_STAT, Adr.TRL.OP_STAT] s ((s.toPoint op).setFld Adr.TRL.OP_STAT 0 1 1) :=
    (SameRegsBut.toPoint s op).trans (SameRegsBut.putFld rfl)
  have hpg' : Fld.PMU.PWR_STAT_PG ((s.toPoint op).setFld Adr.TRL.OP_STAT 0 1 1).regs = Fld.PMU.PWR_STAT_PG s.regs := hregs.fld (by decide) _ _
  unfold State.raised
  rw [State.driveVsel_powered (hpg'.symm ▸ hpg)]
  rfl

theorem State.lowered_powered : s.lowered op = (((s.toPoint op).setReg Adr.TRL.OP op).setFld Adr.PMU.VSEL 0 2 op).emit (.vsel op) := by
  have hregs : SameRegsBut [Adr.TRL.OP_STAT, Adr.TRL.OP] s ((s.toPoint op).setReg Adr.TRL.OP op) :=
    (SameRegsBut.toPoint s op).trans (SameRegsBut.putN rfl)
  have hpg' : Fld.PMU.PWR_STAT_PG ((s.toPoint op).setReg Adr.TRL.OP op).regs = Fld.PMU.PWR_STAT_PG s.regs := hregs.fld (by decide) _ _
  exact State.driveVsel_powered (hpg'.symm ▸ hpg) op

theorem State.raised_vsel (hop : op ≤ 3) : Fld.PMU.VSEL_CUR (s.raised op).regs = op ∧ Fld.PMU.VSEL_SETTLED (s.raised op).regs = 0 := by
  rw [State.raised_powered hpg]
  exact ⟨(RegFile.fld_putFld_beside _ _ _ _ _ _ _ (by decide) (by decide)).trans (fld_vselCur_putFld _ hop),
    RegFile.fld_putFld_same _ _ _ _ _ (by decide)⟩

theorem State.raised_outbox : (s.raised op).outbox = s.outbox ++ [.vsel op] := by rw [State.raised_powered hpg]; rfl

theorem State.lowered_vsel (hop : op ≤ 3) : Fld.PMU.VSEL_CUR (s.lowered op).regs = op := by
  rw [State.lowered_powered hpg]; exact fld_vselCur_putFld _ hop

/-- With power good a move down completes at once. -/
theorem opReq_down_powered (h : Fld.TRL.OP_STAT_BUSY s.regs ≠ 1) (hdown : op < Fld.TRL.OP_CUR s.regs) (hop : op ≤ 3)
    (hcheck : s.opCheck op [] s.admitted = none) : opReq op s = s.lowered op := by
  rw [opReq_down h hdown hcheck, if_pos (State.lowered_vsel hpg hop)]

end moves

theorem State.lowered_busy (s : State) (op : Nat) : Fld.TRL.OP_STAT_BUSY (s.lowered op).regs = 0 :=
  (((SameRegsBut.putN (s := s.toPoint op) rfl).trans (SameRegsBut.driveVsel ((s.toPoint op).setReg Adr.TRL.OP op) op)).fld (by decide) 0 1).trans
    (RegFile.fld_putN_same s.regs Adr.TRL.OP_STAT 0 0 1)

theorem State.lowered_dram (s : State) (op : Nat) : (s.lowered op).dram = s.dram := State.driveVsel_dram _ _

theorem State.voltageSettled_busy (s : State) (op : Nat) : Fld.TRL.OP_STAT_BUSY (s.voltageSettled op).regs = 0 :=
  (RegFile.fld_putFld_other _ _ _ _ _ _ _ _ (by decide)).trans (RegFile.fld_putFld_same _ _ _ _ _ (by decide))

theorem State.voltageSettled_vsel (s : State) (op : Nat) : Fld.PMU.VSEL_SETTLED (s.voltageSettled op).regs = 1 := RegFile.fld_putFld_same _ _ _ _ _ (by decide)

/-! ### Writes of the budget and the allowance (R74, R377) -/

theorem beAllowanceWrite_slots_outside {v : Nat} (h : v % 64 = 0 ∨ 32 < v % 64) (s : State) : beAllowanceWrite .slots v s = s :=
  if_neg (fun ⟨hlow, hhigh, _⟩ => by omega)

theorem beAllowanceWrite_patience_outside {v : Nat} (h : v % 256 < 4) (s : State) : beAllowanceWrite .patience v s = s :=
  if_neg (fun ⟨hlow, _⟩ => by omega)

/-- Settles O21: each form of OP_REQ and of the writes is one branch of its operation. -/
theorem operatingPointAndBudgets : Obligations.OperatingPointAndBudgets := by
  unfold Obligations.OperatingPointAndBudgets
  refine ⟨fun s op => ?_, fun s v => ?_⟩
  · have hop : op.val ≤ 3 := Nat.le_of_lt_succ op.isLt
    refine ⟨fun hbusy => ?_, fun hbusy hne i r hcheck => ?_, fun hbusy hup hcheck hpg => ?_, fun hbusy hdown hcheck hpg => ?_, fun o hs => ?_⟩
    · exact Does.of_answer rfl rfl (opReq_busy hbusy op)
    · exact Does.of_answer rfl rfl (opReq_refused hbusy hne hcheck)
    · refine Completes.of_answer rfl rfl ?_
      obtain ⟨hcur, hsettled⟩ := State.raised_vsel hpg hop
      obtain ⟨out, hout⟩ := (s.raised op).settle_sends
      rw [opReq_up hbusy hup hcheck, State.settle_pwr, State.settle_trl, State.settle_regs, hout, State.raised_outbox hpg, s.raised_trl]
      exact ⟨rfl, rfl, s.raised_busy op, s.raised_opCur op, hcur, hsettled, out, by rw [List.append_assoc, List.singleton_append]⟩
    · refine Completes.of_answer rfl rfl ?_
      rw [opReq_down_powered hpg hbusy hdown hop hcheck, State.settle_regs, State.settle_trl, State.settle_dram, s.lowered_trl]
      exact ⟨s.lowered_opCur hop, rfl, s.lowered_busy op, State.lowered_vsel hpg hop, s.lowered_dram op⟩
    · refine Completes.of_answer rfl rfl ?_
      rw [vsettleExpiry_settling hs, State.settle_regs, State.settle_pwr, State.settle_trl]
      exact ⟨s.voltageSettled_opCur (Nat.le_of_lt_succ o.isLt), s.voltageSettled_busy o, s.voltageSettled_vsel o, rfl,
        (SameRegsBut.voltageSettled s o).settle, rfl⟩
  · refine ⟨fun hfit => ?_, fun hfit => ?_, fun hout => ?_, fun hlow hhigh hfit => ?_, fun hout => ?_, fun hlow hfit => ?_,
      fun new r hroom _ hold => ?_⟩
    · exact Does.of_answer rfl rfl (if_pos hfit)
    · exact Does.of_answer rfl rfl (if_neg hfit)
    · exact Does.of_answer rfl rfl (beAllowanceWrite_slots_outside hout s)
    · exact Does.of_answer rfl rfl (if_pos ⟨hlow, hhigh, Or.inl hfit⟩)
    · exact Does.of_answer rfl rfl (beAllowanceWrite_patience_outside hout s)
    · exact Does.of_answer rfl rfl (if_pos ⟨hlow, hfit⟩)
    · exact State.roomForAllowance_le hroom hold

end Sys2Proof.Machine

/-! Refused accesses, and stopped clock domains (R17, R18, R22, R51, R52). -/

namespace Sys2Proof.Machine

/-! ### Refusals (R22, R52) -/

theorem SameRegsBut.bump (s : State) (a : RegAddr) : SameRegsBut [a] s (s.bump a) := SameRegsBut.putN (n := satInc 32 (s.rd a)) (State.setReg_regs _ _ _)

section refuse
variable (s : State) (sub master target : Nat) (isWrite : Bool)

/-- What REF_INFO holds after a refusal. -/
def refusalInfo : Nat := master % 512 + target % 512 * 2 ^ 16 + b2n isWrite * 2 ^ 31

/-- A refusal is recorded, counted and reported. -/
theorem State.refuse_eq : s.refuse sub master target isWrite =
    ((s.setReg Adr.GTH.REF_INFO (refusalInfo master target isWrite)).bump Adr.GTH.REF_COUNT).fault sub 0x02 := rfl

theorem State.refuse_regs : (s.refuse sub master target isWrite).regs =
    ((s.setReg Adr.GTH.REF_INFO (refusalInfo master target isWrite)).bump Adr.GTH.REF_COUNT).regs := by
  rw [State.refuse_eq, State.fault_regs]

theorem State.refuse_dram : (s.refuse sub master target isWrite).dram = s.dram := by
  rw [State.refuse_eq, State.fault_dram, State.bump_dram, State.setReg_dram]

theorem State.refuse_outbox : (s.refuse sub master target isWrite).outbox = s.outbox := by
  rw [State.refuse_eq, State.fault_outbox, State.bump_outbox, State.setReg_outbox]

theorem SameRegsBut.refuse : SameRegsBut [Adr.GTH.REF_INFO, Adr.GTH.REF_COUNT] s (s.refuse sub master target isWrite) := by
  have hinfo : SameRegsBut [Adr.GTH.REF_INFO] s (s.setReg Adr.GTH.REF_INFO (refusalInfo master target isWrite)) :=
    SameRegsBut.putN (State.setReg_regs _ _ _)
  exact hinfo.trans ((SameRegsBut.bump _ _).trans (SameRegsBut.refl [] (State.refuse_regs s sub master target isWrite)))

theorem State.mem_refuse : { page := sub / 16, cause := sub, code := 0x02, event := true, unit := sub } ∈ (s.refuse sub master target isWrite).held := by
  rw [State.refuse_eq, State.mem_fault]
  exact Or.inl rfl

/-- A field of REF_INFO after a refusal. -/
theorem State.refuse_info (l w : Nat) : (s.refuse sub master target isWrite).regs.fld Adr.GTH.REF_INFO l w =
    bits (refusalInfo master target isWrite % 2 ^ 32) l w := by
  rw [State.refuse_regs, State.bump, State.setReg_regs, RegFile.fld_putN_other _ _ _ _ _ _ (by decide), State.setReg_regs, RegFile.fld_putN_same]

theorem State.refuse_master {master : Nat} (h : master < 512) : Fld.GTH.REF_INFO_MASTER (s.refuse sub master target isWrite).regs = master := by
  unfold Fld.GTH.REF_INFO_MASTER
  rw [State.refuse_info]
  cases isWrite <;> simp only [refusalInfo, bits, b2n, Bool.false_eq_true, if_true, if_false] <;> omega

theorem State.refuse_dir : Fld.GTH.REF_INFO_DIR (s.refuse sub master target isWrite).regs = b2n isWrite := by
  unfold Fld.GTH.REF_INFO_DIR
  rw [State.refuse_info]
  cases isWrite <;> simp only [refusalInfo, bits, b2n, Bool.false_eq_true, if_true, if_false] <;> omega

theorem State.refuse_count : (s.refuse sub master target isWrite).rd Adr.GTH.REF_COUNT = satInc 32 (s.rd Adr.GTH.REF_COUNT) := by
  have hregs : (s.refuse sub master target isWrite).rd Adr.GTH.REF_COUNT =
      ((s.setReg Adr.GTH.REF_INFO (refusalInfo master target isWrite)).bump Adr.GTH.REF_COUNT).rd Adr.GTH.REF_COUNT := by
    unfold State.rd; rw [State.refuse_regs]
  rw [hregs, State.rd_bump_same, State.rd_setReg, if_neg (by decide)]

end refuse

/-- A refused transaction is refused by the sub-unit for its target type, and answers an error of it. -/
theorem State.refuseTxn_eq (s : State) (t : Txn) : ∃ sub target, s.refuseTxn t = (s.refuse sub t.master target t.isWrite).failTxn t sub ∧
    (∀ addr, t.target = .dram addr → sub = 0x022) ∧ (∀ page off, t.target = .reg page off → sub = 0x021) := by
  unfold State.refuseTxn
  cases h : t.target with
  | reg page off => exact ⟨_, _, rfl, fun _ e => TxnTarget.noConfusion e, fun _ _ _ => rfl⟩
  | dram addr => exact ⟨_, _, rfl, fun _ _ => rfl, fun _ _ e => TxnTarget.noConfusion e⟩

/-- A transaction that neither stalls nor meets the remote-access filter, and is not granted. -/
theorem transaction_refused {s : State} {t : Txn} (hstall : s.stalls t = false) (hfilter : s.filtersTxn t = false) (hgrant : s.grantsTxn t = false) :
    transaction t s = s.refuseTxn t := by
  unfold transaction State.takeTxn
  rw [hstall, hfilter, hgrant]
  rfl

theorem Txn.master_lt {t : Txn} (h : t.wellFormed = true) : t.master < 512 := by
  unfold Txn.wellFormed masterOk at h
  simp only [Bool.and_eq_true, decide_eq_true_eq] at h
  obtain ⟨⟨hmaster, -⟩, -⟩ := h
  exact hmaster

theorem State.failTxn_eq (s : State) (t : Txn) (unit : Nat) : s.failTxn t unit =
    s.emit (.response t.master (if t.isWrite then [] else List.replicate (txnSize t) 0) (if t.viaPcie then none else some unit)) := rfl

theorem respond_sends (s : State) (t : Txn) (data : List Byte) (error : Option Nat) :
    ∃ out, (s.respond t data error).settle.outbox = s.outbox ++ .response t.master data (if t.viaPcie then none else error) :: out := by
  obtain ⟨out, hout⟩ := (s.respond t data error).settle_sends
  refine ⟨out, hout.trans ?_⟩
  unfold State.respond
  rw [State.emit_outbox, List.append_assoc, List.singleton_append]

theorem failTxn_sends (s : State) (t : Txn) (unit : Nat) : ∃ out, (s.failTxn t unit).settle.outbox = s.outbox ++
    .response t.master (if t.isWrite then [] else List.replicate (txnSize t) 0) (if t.viaPcie then none else some unit) :: out :=
  respond_sends s t _ (some unit)

/-! ### Stopped domains (R17, R18) -/

theorem mem_domainClockStop (s : State) (d e : ClockDomain) : e ∈ (domainClockStop d s).stopped ↔ e ∈ s.stopped ∨ e = d := by
  unfold domainClockStop
  split
  · rename_i h
    have hd : d ∈ s.stopped := by simpa using h
    exact ⟨Or.inl, fun he => he.elim id (fun e => e ▸ hd)⟩
  · exact List.mem_append.trans (or_congr_right List.mem_singleton)

theorem domainClockStop_eq (s : State) (d : ClockDomain) : domainClockStop d s = { s with stopped := (domainClockStop d s).stopped } := by
  unfold domainClockStop; split <;> rfl

/-- A domain's clock returns, before what waited goes on. -/
def State.restarted (s : State) (d : ClockDomain) : State := { s with stopped := s.stopped.filter (fun x => decide (x ≠ d)), stalled := [] }

theorem domainClockReturn_eq (s : State) (d : ClockDomain) : domainClockReturn d s = s.stalled.foldl resume (s.restarted d) := rfl

/-- With nothing waiting, the clock's return changes the stopped domains alone. -/
theorem domainClockReturn_none {s : State} (h : s.stalled = []) (d : ClockDomain) : domainClockReturn d s = s.restarted d := by
  rw [domainClockReturn_eq, h]; rfl

theorem mem_restarted (s : State) (d e : ClockDomain) : e ∈ (s.restarted d).stopped ↔ e ∈ s.stopped ∧ e ≠ d := by
  refine List.mem_filter.trans (and_congr_right fun _ => ?_)
  rw [decide_eq_true_eq]

theorem State.stalls_of_stopped {s : State} {t : Txn} {d : ClockDomain} (hd : d ∈ s.txnDomains t) (hs : d ∈ s.stopped) : s.stalls t = true := by
  unfold State.stalls State.txnStopped
  rw [List.any_eq_true.mpr ⟨d, hd, List.contains_iff_mem.mpr hs⟩, Bool.true_or]

theorem transaction_stalled {s : State} {t : Txn} (h : s.stalls t = true) : transaction t s = { s with stalled := s.stalled ++ [.transaction t] } :=
  if_pos h

theorem State.stopsAtEdge_of_stopped {s : State} {c : Instr} {d : ClockDomain} (hd : d ∈ s.edgesOf c) (hs : d ∈ s.stopped) : s.stopsAtEdge c = true :=
  List.any_eq_true.mpr ⟨d, hd, List.contains_iff_mem.mpr hs⟩

/-- A command that passes an edge has its effect through that edge: the commands named here are those that `edgesOf` names, and the others pass none. -/
theorem edgesOf_nil_or_exec (c : Instr) (s : State) : s.edgesOf c = [] ∨ exec c s = answer c (throughEdge c s (edgeEffect c s)) := by
  cases c
  case syncCode | sensorFrameStart | sensorLineStart | sensorLineEnd | sensorFrameEnd | vTrigger | hTrigger | spiDone | i2cDone | i2cStretchTimeout
      | ebeFrameStart | orgFrameEnd | averageDone | intFrame | ebeFrameEnd | decodeFrame | loadDone | viewFrameComplete | workItemDone | decodePublish
      | nvmeCompletion | memberInitDone | labelReadDone | openScanDone | inboundRequest | fetchDone | controllerEnable | controllerDisable
      | functionLevelReset | ccShutdown | sqDoorbell | cqDoorbell | arbitrationRound | createIoSq | createIoCq | deleteIoSq | deleteIoSqDone
      | deleteIoCq | getLogPage | identify | setFeatures | getFeatures | resumeQueue | unsupportedOpcode | nvmRead | flush | nvmWrite
      | datasetManagement | commandCompletion | sdiOutFrameStart | sdiInFrame | blvFrameStart | blvVfpEnd | layerUnderrun | dsiCommandDone
      | refMeasurement | ltcWordOut | framePulse | ethFrameReceive | senderFrameSlot | senderPacket | receiverPacket | audioFrame | schedulerIssue
      | refreshInterval | patienceExpiry | recentre | arbourJobDone | conversionDone | calDone | aonRound | flitReceive | remoteTransaction
      | timeMessage | timeReply | channelSendFrame | channelFrameReceived | idAssign | idRequest | cascadeMessageBad | imageBlock | heartbeatReceive
      | ltcWordIn =>
    exact Or.inr rfl
  all_goals exact Or.inl rfl

theorem exec_of_edge {c : Instr} {s : State} {d : ClockDomain} (h : d ∈ s.edgesOf c) : exec c s = answer c (throughEdge c s (edgeEffect c s)) :=
  (edgesOf_nil_or_exec c s).resolve_left (fun hnil => List.not_mem_nil (hnil ▸ h))

/-- Settles O17: a refused transaction by the refusal and the error it answers, a stopped domain by what stalls at its edge. -/
theorem refusalsAndStoppedDomains : Obligations.RefusalsAndStoppedDomains := by
  unfold Obligations.RefusalsAndStoppedDomains
  refine ⟨fun s t hwf hstall hfilter hgrant => ?_, fun s d => ⟨?_, fun hnone => ?_, ?_, fun t hone => ?_, fun t hwf hd hs => ?_, fun c hwf hd hs => ?_,
    fun c u hrun => throughEdge_running hrun u⟩⟩
  · obtain ⟨sub, target, heq, hdram, hreg⟩ := s.refuseTxn_eq t
    refine Completes.of_answer (u := (s.refuse sub t.master target t.isWrite).failTxn t sub)
      (congrArg (answer _) ((transaction_refused hstall hfilter hgrant).trans heq)) hwf ?_
    have hmem := s.mem_refuse sub t.master target t.isWrite
    obtain ⟨out, hout⟩ := failTxn_sends (s.refuse sub t.master target t.isWrite) t sub
    rw [hout, State.settle_regs, State.settle_rd, State.settle_dram, State.settle_held, State.failTxn_eq, State.emit_regs, State.emit_dram, State.emit_held,
      State.rd, State.emit_regs, s.refuse_outbox, s.refuse_dram]
    refine ⟨s.refuse_master sub target t.isWrite (Txn.master_lt hwf), s.refuse_dir sub t.master target t.isWrite,
      s.refuse_count sub t.master target t.isWrite, ?_, rfl, fun addr ha => ?_, fun page off ha => ?_, out, sub, rfl⟩
    · exact ((SameRegsBut.refuse s sub t.master target t.isWrite).trans (SameRegsBut.refl [] (State.emit_regs _ _))).settle
    · rw [hdram addr ha] at hmem ⊢; exact hmem
    · rw [hreg page off ha] at hmem ⊢; exact hmem
  · refine Completes.of_answer (u := domainClockStop d s) rfl rfl ?_
    have hstop := mem_domainClockStop s d
    rw [State.settle_stopped, State.settle_stalled, State.settle_regs, State.settle_dram]
    refine ⟨(hstop d).mpr (Or.inr rfl), hstop, ?_, ?_, ?_⟩ <;> rw [domainClockStop_eq]
  · refine Completes.of_answer (u := s.restarted d) (congrArg (answer (.domainClockReturn d)) (domainClockReturn_none hnone d)) rfl ?_
    have hrun := mem_restarted s d
    rw [State.settle_stopped, State.settle_stalled, State.settle_regs, State.settle_dram]
    exact ⟨fun h => ((hrun d).mp h).2 rfl, fun e he => (hrun e).trans (and_iff_left he), rfl, rfl, rfl⟩
  · exact Does.of_answer rfl rfl (domainClockReturn_eq s d)
  · refine Does.of_answer rfl rfl ((domainClockReturn_eq s d).trans ?_)
    rw [hone]; rfl
  · exact Does.of_answer rfl hwf (transaction_stalled (State.stalls_of_stopped hd hs))
  · exact Does.of_answer (exec_of_edge hd) hwf (throughEdge_stall (State.stopsAtEdge_of_stopped hd hs) _)

end Sys2Proof.Machine

/-! Update groups: arming, cancelling, settings and the apply point (R30, R38, R42 to R45). -/

namespace Sys2Proof.Machine

/-! ### Masks of groups -/

/-- The groups that a mask names, in order. -/
def groupsOf (mask : Nat) : List Nat := (List.range 16).filter (bitOf mask)

theorem groupsOf_twoPow (g : Fin 16) : groupsOf (BitVec.twoPow 16 g.val).toNat = [g.val] := by revert g; decide

theorem groupsOf_contains (mask g : Nat) : (groupsOf mask).contains g = (decide (g < 16) && bitOf mask g) := by
  rw [Bool.eq_iff_iff, List.contains_iff_mem, groupsOf, List.mem_filter, List.mem_range, Bool.and_eq_true, decide_eq_true_eq]

/-! ### Arming (R43 to R45) -/

/-- A mask arms its groups in order. -/
theorem updArm_eq (mask : Nat) (s : State) : updArm mask s = (groupsOf mask).foldl State.armGroup s := List.foldl_filter.symm

theorem updArm_twoPow (g : Fin 16) (s : State) : updArm (BitVec.twoPow 16 g.val).toNat s = s.armGroup g := by
  rw [updArm_eq, groupsOf_twoPow]; rfl

section arm
variable {s : State} {g : Nat}

theorem State.armGroup_pending (h : s.groupPending g = true) : s.armGroup g = s := by unfold State.armGroup; rw [if_pos h]

theorem State.armGroup_immediate (h : s.groupPending g = false) (hm : s.updMode g = 0) : s.armGroup g = (s.markArmed g).makeDue g := by
  unfold State.armGroup; rw [h, if_neg Bool.false_ne_true, if_pos hm]

theorem State.armGroup_event (h : s.groupPending g = false) (h0 : s.updMode g ≠ 0) (h4 : s.updMode g ≠ 4) : s.armGroup g = s.markArmed g := by
  unfold State.armGroup; rw [h, if_neg Bool.false_ne_true, if_neg h0, if_neg h4]

theorem State.armGroup_scheduled (h : s.groupPending g = false) (hm : s.updMode g = 4) :
    s.armGroup g = (s.markArmed g).placeScheduled g (serial 40 (s.updTime g) s.now) := by
  unfold State.armGroup; rw [h, if_neg Bool.false_ne_true, hm, if_neg (by decide), if_pos rfl]

end arm

/-! ### Cancelling (R42) -/

/-- The groups of a list are no longer pending. -/
def State.unpend (s : State) (l : List Nat) : State := l.foldl (fun s g => s.setFld Adr.GLB.UPD_PEND g 1 0) s

theorem SameRegsBut.unpend (s : State) (l : List Nat) : SameRegsBut [Adr.GLB.UPD_PEND] s (s.unpend l) := by
  unfold State.unpend
  induction l generalizing s with
  | nil => exact SameRegsBut.refl _ rfl
  | cons g r ih => exact fun a ha => (ih _ a ha).trans (SameRegsBut.putFld (State.setFld_regs s Adr.GLB.UPD_PEND g 1 0) a ha)

theorem State.unpend_shadow (s : State) (l : List Nat) : (s.unpend l).shadow = s.shadow := 
  foldl_keeps State.shadow (fun s g => s.setFld Adr.GLB.UPD_PEND g 1 0) (fun _ _ => rfl) l s

theorem updCancel_eq (mask : Nat) (s : State) : updCancel mask s = { s.unpend (groupsOf mask) with
    due := s.due.filter (fun g => !(groupsOf mask).contains g), scheduled := s.scheduled.filter (fun g => !(groupsOf mask).contains g) } := rfl

theorem updCancel_due (mask : Nat) (s : State) : (updCancel mask s).due = s.due.filter (fun g => !(decide (g < 16) && bitOf mask g)) := by
  simp only [updCancel_eq, groupsOf_contains]

theorem updCancel_scheduled (mask : Nat) (s : State) :
    (updCancel mask s).scheduled = s.scheduled.filter (fun g => !(decide (g < 16) && bitOf mask g)) := by
  simp only [updCancel_eq, groupsOf_contains]

theorem updCancel_shadow (mask : Nat) (s : State) : (updCancel mask s).shadow = s.shadow := by
  rw [updCancel_eq]; exact s.unpend_shadow _

theorem SameRegsBut.updCancel (mask : Nat) (s : State) : SameRegsBut [Adr.GLB.UPD_PEND] s (updCancel mask s) := by
  rw [updCancel_eq]; exact fun a ha => SameRegsBut.unpend s (groupsOf mask) a ha

theorem groupPending_eq (s : State) (g : Nat) : s.groupPending g = (s.regs.fld Adr.GLB.UPD_PEND g 1 == 1) := bitOf_eq_bits _ _

theorem State.groupPending_unpend_one (s : State) {g : Nat} (h : g < 16) : (s.unpend [g]).groupPending g = false := by
  rw [groupPending_eq]
  unfold State.unpend
  rw [List.foldl_cons, List.foldl_nil, State.setFld_regs, RegFile.fld_putFld_same _ _ _ _ _ (by omega)]
  rfl

/-! ### Settings (R38, R45) -/

theorem updConfigWrite_pending {s : State} {g : Nat} (h : s.groupPending g = true) (r : UpdReg) (v : Word) : updConfigWrite g r v s = s := by
  unfold updConfigWrite; rw [if_pos h]

section settings
variable {s : State} {g : Nat} (h : s.groupPending g = false) (v : Word)
include h

theorem updConfigWrite_mode : updConfigWrite g .mode v s = s.setReg (Adr.GLB.UPD_MODE g) (v.toNat % 2 ^ 16 - bits v.toNat 3 5 * 8) := by
  unfold updConfigWrite; rw [h]; rfl

theorem updConfigWrite_timeLo : updConfigWrite g .timeLo v s = s.setReg (Adr.GLB.UPD_TIME_LO g) v.toNat := by
  unfold updConfigWrite; rw [h]; rfl

theorem updConfigWrite_timeHi : updConfigWrite g .timeHi v s = s.setReg (Adr.GLB.UPD_TIME_HI g) (v.toNat % 256) := by
  unfold updConfigWrite; rw [h]; rfl

end settings

/-- UPD_MODE keeps MODE and INDEX of what is written, and zero in the reserved bits between them. -/
theorem updMode_fields (v : Nat) : bits ((v % 2 ^ 16 - bits v 3 5 * 8) % 2 ^ 32) 0 3 = bits v 0 3 ∧
    bits ((v % 2 ^ 16 - bits v 3 5 * 8) % 2 ^ 32) 8 8 = bits v 8 8 := by
  unfold bits; omega

theorem updGroupBind_eq (page g : Nat) (s : State) :
    updGroupBind page g s = if implemented page = true ∧ s.pagePending page = false then s.setFld (Adr.HDR.PG_CTL page) 4 4 g else s := by
  unfold updGroupBind
  cases implemented page <;> cases s.pagePending page <;> rfl

/-! ### The apply point (R30, R42) -/

/-- The pages whose blocks hold nothing beyond their registers that an apply changes. -/
def plainPages : List Nat :=
  [0x00, 0x01, 0x02, 0x03, 0x04, 0x06, 0x11, 0x13, 0x19, 0x28, 0x2A, 0x30, 0x31, 0x34, 0x44, 0x45, 0x46, 0x47, 0x48, 0x54]

theorem State.applyPage_plain (s : State) (old : RegFile) (rr : Nat → Bool) {page : Nat} (h : page ∈ plainPages) : State.applyPage old rr s page = s := by
  unfold plainPages at h
  fin_cases h <;> rfl

theorem State.applyPages_plain (s : State) (old : RegFile) (rr : Nat → Bool) {pages : List Nat} (h : ∀ p ∈ pages, p ∈ plainPages) :
    pages.foldl (State.applyPage old rr) s = s := by
  induction pages with
  | nil => rfl
  | cons p r ih =>
    rw [List.foldl_cons, s.applyPage_plain old rr (h p List.mem_cons_self)]
    exact ih (fun q hq => h q (List.mem_cons_of_mem _ hq))

/-- An apply of pages without parts of their own makes their shadows active, and starts what waited for the groups. -/
theorem groupApply_plain {s : State} (h : ∀ p ∈ s.boundPages s.due, p ∈ plainPages) :
    groupApply s = s.due.foldl State.startDeferred ((({ s with due := [] } : State).unpend s.due).applyShadows (s.boundPages s.due)) := by
  have hsensor : (s.boundPages s.due).contains 0x10 = false := by
    rw [Bool.eq_false_iff, ne_eq, List.contains_iff_mem]
    exact fun hmem => absurd (h _ hmem) (by decide)
  unfold groupApply State.unpend
  dsimp only
  rw [State.applyPages_plain _ _ _ h, hsensor]
  rfl

/-- Settles O11: arming by the group's mode, cancelling and settings by the registers they write, the apply point by the shadows of the bound pages. -/
theorem updateGroupsReachTheirApplyPoint : Obligations.UpdateGroupsReachTheirApplyPoint := by
  unfold Obligations.UpdateGroupsReachTheirApplyPoint
  refine ⟨fun s g => ⟨fun hp => ?_, fun hp hm => ?_, fun hp hm => ?_, fun hp hm => ?_, fun m => ?_, fun m => ?_, ?_⟩,
    fun s g => ⟨fun page hpage => ?_, fun r v hp => ?_, fun v hp => ⟨?_, ?_, ?_⟩⟩, fun s => ⟨s.applyShadows_word, fun hplain => ?_⟩⟩
  · exact Does.of_answer rfl rfl ((updArm_twoPow g s).trans (State.armGroup_pending hp))
  · exact Does.of_answer rfl rfl ((updArm_twoPow g s).trans (State.armGroup_immediate hp hm))
  · exact Does.of_answer rfl rfl ((updArm_twoPow g s).trans (State.armGroup_event hp (by omega) (by omega)))
  · exact Does.of_answer rfl rfl ((updArm_twoPow g s).trans (State.armGroup_scheduled hp hm))
  · exact Does.of_answer rfl rfl (updArm_eq m.toNat s)
  · refine Completes.of_answer rfl rfl ?_
    rw [State.settle_due, State.settle_scheduled, State.settle_shadow]
    exact ⟨updCancel_due m.toNat s, updCancel_scheduled m.toNat s, updCancel_shadow m.toNat s, (SameRegsBut.updCancel m.toNat s).settle⟩
  · refine Completes.of_answer rfl rfl ?_
    rw [updCancel_eq, groupsOf_twoPow, State.groupPending, State.settle_rd]
    exact s.groupPending_unpend_one g.isLt
  · exact Does.of_answer rfl (decide_eq_true hpage) (updGroupBind_eq page g s)
  · exact Does.of_answer rfl rfl (updConfigWrite_pending hp r v)
  · refine Completes.of_answer rfl rfl ?_
    obtain ⟨hmode, hindex⟩ := updMode_fields v.toNat
    rw [updConfigWrite_mode hp, State.settle_regs, State.settle_due]
    exact ⟨(RegFile.fld_putN_same _ _ _ _ _).trans hmode, (RegFile.fld_putN_same _ _ _ _ _).trans hindex, (SameRegsBut.putN rfl).settle, rfl⟩
  · exact Does.of_answer rfl rfl (updConfigWrite_timeLo hp v)
  · exact Does.of_answer rfl rfl (updConfigWrite_timeHi hp v)
  · exact Does.of_answer rfl rfl (groupApply_plain hplain)

end Sys2Proof.Machine

/-! The management round, repeated reports and the thermal model (R16, R55, R63, R313 to R315). -/

namespace Sys2Proof.Machine

/-! ### Conditions and repeated reports (R55) -/

/-- The fault of a condition is held exactly while the condition stands. -/
theorem State.mem_cond_self (s : State) (b : Bool) (u c k : Nat) :
    { page := u / 16, cause := c, code := k, event := false, unit := u } ∈ (s.cond b u c k).held ↔ b = true := by
  unfold State.cond
  cases b with
  | false => rw [if_neg Bool.false_ne_true, State.mem_condOff]; exact iff_of_false (fun h => h.2 rfl) Bool.false_ne_true
  | true => rw [if_pos rfl, State.mem_condOn]; exact iff_of_true (Or.inl rfl) rfl

/-- The report of a fault that a page holds. -/
def Held.reportAt (h : Held) (now : Nat) : Report := { unit := h.unit, cause := h.cause, code := h.code, time := now }

theorem State.report_all (s : State) (l : List Held) :
    l.foldl (fun s h => s.report h.unit h.cause h.code) s = { s with reports := s.reports ++ l.map (·.reportAt s.now) } := by
  induction l generalizing s with
  | nil => rw [List.foldl_nil, List.map_nil, List.append_nil]
  | cons h r ih =>
    have hnow : (s.report h.unit h.cause h.code).now = s.now := rfl
    rw [List.foldl_cons, ih, hnow, List.map_cons, State.report, List.append_assoc]
    rfl

/-- The condition faults held now and before. -/
def State.persisting (s : State) (before : List Held) : List Held := s.held.filter (fun h => !h.event && before.contains h)

theorem State.rereport_eq (s : State) (before : List Held) :
    s.rereport before = { s with reports := s.reports ++ (s.persisting before).map (·.reportAt s.now) } := s.report_all _

theorem State.mem_persisting {s : State} {before : List Held} {h : Held} (hs : h ∈ s.held) (he : h.event = false) (hb : h ∈ before) :
    h ∈ s.persisting before := by
  refine List.mem_filter.mpr ⟨hs, ?_⟩
  rw [he, List.contains_iff_mem.mpr hb]; rfl

/-! ### The round (R16, R63, R335) -/

/-- A round in which no fused node reaches its limit. -/
theorem managementRound_below {r : RoundSample} {s u : State}
    (hu : u = ((((s.dovRound r.refDev).iceRound).speedRound r.speedIndex).servoRound.hierarchyRound r.mgrAlive).raiseEpochs r.rejoins)
    (hlimit : (({ u with mem := { u.mem with trefi := r.trefi } } : State).rereport s.held).fusedCrossing = none) :
    managementRound r s = ({ u with mem := { u.mem with trefi := r.trefi } } : State).rereport s.held := by
  unfold managementRound
  dsimp only
  rw [← hu, hlimit]

theorem State.speedRound_rd (s : State) {index : Nat} (h : index < 2 ^ 16) : (s.speedRound index).rd Adr.TRL.SPEED = index := by
  unfold State.speedRound State.rd
  dsimp only
  rw [State.cond_regs, ← State.rd, State.rd_setReg_same]
  omega

theorem State.mem_held_speedRound (s : State) {index : Nat} (h : index < 2 ^ 16) :
    { page := 0x03, cause := 0x030, code := 0x20, event := false, unit := 0x030 } ∈ (s.speedRound index).held ↔ index < 0x0100 := by
  unfold State.speedRound
  rw [Nat.mod_eq_of_lt h]
  exact (State.mem_cond_self _ _ 0x030 0x030 0x20).trans decide_eq_true_iff

theorem State.raiseEpochs_manager {s : State} {n : Nat} (h : s.hie = 2) (hn : 0 < n) :
    Fld.HIE.EPOCH (s.raiseEpochs n).regs = (Fld.HIE.EPOCH s.regs + n) % 2 ^ 16 := by
  unfold State.raiseEpochs
  rw [if_pos ⟨h, hn⟩]
  refine (RegFile.fld_putN_same _ _ _ _ _).trans ?_
  unfold bits
  omega

theorem State.raiseEpochs_other {s : State} {n : Nat} (h : s.hie ≠ 2 ∨ n = 0) : s.raiseEpochs n = s := by
  unfold State.raiseEpochs
  rw [if_neg (by omega)]

/-! ### Temperatures in registers (R313) -/

theorem signed_unsigned {x : Int} (hlow : -(2 ^ 31 : Int) ≤ x) (hhigh : x < 2 ^ 31) : signed (unsigned x 32) 32 = x := by
  unfold signed unsigned
  dsimp only
  split <;> omega

theorem nth_map {α β : Type} (a : α) (b : β) (f : α → β) {l : List α} {n : Nat} (h : n < l.length) : nth b (l.map f) n = f (nth a l n) := by
  induction l generalizing n with
  | nil => exact absurd h (Nat.not_lt_zero n)
  | cons x r ih =>
    cases n with
    | zero => rfl
    | succ n => exact ih (Nat.lt_of_succ_lt_succ h)

/-- Registers written one after another at distinct addresses. -/
theorem State.rd_setRegs {adr : Nat → RegAddr} (hinj : ∀ i j, adr i = adr j → i = j) (f : Nat → Nat) (l : List Nat) (s : State) (n : Nat) :
    (l.foldl (fun s n => s.setReg (adr n) (f n)) s).rd (adr n) = if n ∈ l then f n % 2 ^ 32 else s.rd (adr n) := by
  induction l generalizing s with
  | nil => rfl
  | cons i r ih =>
    rw [List.foldl_cons, ih, State.rd_setReg]
    by_cases hr : n ∈ r
    · rw [if_pos hr, if_pos (List.mem_cons_of_mem _ hr)]
    · rw [if_neg hr]
      by_cases hi : n = i
      · subst hi; rw [if_pos rfl, if_pos List.mem_cons_self]
      · rw [if_neg (fun e => hi (hinj _ _ e)), if_neg (fun hm => (List.mem_cons.mp hm).elim hi hr)]

theorem SameRegsBut.setRegs (adr : Nat → RegAddr) (f : Nat → Nat) (l : List Nat) (s : State) :
    SameRegsBut (l.map adr) s (l.foldl (fun s n => s.setReg (adr n) (f n)) s) := by
  induction l generalizing s with
  | nil => exact SameRegsBut.refl _ rfl
  | cons i r ih => exact (SameRegsBut.putN (t := s.setReg (adr i) (f i)) rfl).trans (ih _)

/-- The registers of the five temperatures at `adr`. -/
def tempRegs (adr : Nat → RegAddr) : List RegAddr := (List.range 5).map adr

theorem SameRegsBut.putTemps (s : State) (adr : Nat → RegAddr) (t : List Int) : SameRegsBut (tempRegs adr) s (s.putTemps adr t) :=
  SameRegsBut.setRegs adr (fun n => unsigned (nth 0 t n) 32) _ s

theorem State.putTemps_iceResync (s : State) (adr : Nat → RegAddr) (t : List Int) : (s.putTemps adr t).iceResync = s.iceResync :=
  foldl_keeps State.iceResync (fun (s : State) n => s.setReg (adr n) (unsigned (nth 0 t n) 32)) (fun _ _ => rfl) _ s

/-- A list of five temperatures that fit a register. -/
def TempsFit (t : List Int) : Prop := t.length = 5 ∧ ∀ n, n < 5 → -(2 ^ 31 : Int) ≤ nth 0 t n ∧ nth 0 t n < 2 ^ 31

theorem map_nth_range {t : List Int} (h : t.length = 5) : (List.range 5).map (nth 0 t) = t := by
  match t, h with
  | [_, _, _, _, _], _ => rfl

/-- Temperatures read back as they were stored. -/
theorem State.temps_of_putTemps (s : State) {adr : Nat → RegAddr} (hinj : ∀ i j, adr i = adr j → i = j) {t : List Int} (h : TempsFit t) :
    (List.range 5).map (fun n => signed ((s.putTemps adr t).rd (adr n)) 32) = t := by
  obtain ⟨hlen, hfit⟩ := h
  refine (List.map_congr_left (fun n hn => ?_)).trans (map_nth_range hlen)
  obtain ⟨hlow, hhigh⟩ := hfit n (List.mem_range.mp hn)
  have hsmall : unsigned (nth 0 t n) 32 % 2 ^ 32 = unsigned (nth 0 t n) 32 := by unfold unsigned; omega
  have hrd : (s.putTemps adr t).rd (adr n) = unsigned (nth 0 t n) 32 := by
    refine (State.rd_setRegs hinj (fun n => unsigned (nth 0 t n) 32) (List.range 5) s n).trans ?_
    rw [if_pos hn, hsmall]
  rw [hrd, signed_unsigned hlow hhigh]

section frames
variable {l : List RegAddr} {s t : State} (h : SameRegsBut l s t)
include h

theorem SameRegsBut.temps (hl : ∀ a ∈ tempRegs Adr.ICE.TEMP, a ∉ l) : t.temps = s.temps :=
  List.map_congr_left (fun n hn => by rw [h.rd (hl _ (List.mem_map_of_mem hn))])

theorem SameRegsBut.fusedTemps (hl : ∀ a ∈ tempRegs Adr.ICE.FUSED_TEMP, a ∉ l) : t.fusedTemps = s.fusedTemps :=
  List.map_congr_left (fun n hn => by rw [h.rd (hl _ (List.mem_map_of_mem hn))])

end frames

theorem temp_inj (i j : Nat) (h : Adr.ICE.TEMP i = Adr.ICE.TEMP j) : i = j := by
  have h : 0x04090 + 0x4 * i = 0x04090 + 0x4 * j := h
  omega

theorem fusedTemp_inj (i j : Nat) (h : Adr.ICE.FUSED_TEMP i = Adr.ICE.FUSED_TEMP j) : i = j := by
  have h : 0x040B0 + 0x4 * i = 0x040B0 + 0x4 * j := h
  omega

section copies
variable (s : State) {t : List Int}

theorem State.putTemps_temps (h : TempsFit t) : (s.putTemps Adr.ICE.TEMP t).temps = t := s.temps_of_putTemps temp_inj h
theorem State.putFused_fusedTemps (h : TempsFit t) : (s.putTemps Adr.ICE.FUSED_TEMP t).fusedTemps = t := s.temps_of_putTemps fusedTemp_inj h
theorem State.putTemps_fusedTemps : (s.putTemps Adr.ICE.TEMP t).fusedTemps = s.fusedTemps := (SameRegsBut.putTemps s _ t).fusedTemps (by decide)
theorem State.putFused_temps : (s.putTemps Adr.ICE.FUSED_TEMP t).temps = s.temps := (SameRegsBut.putTemps s _ t).temps (by decide)

end copies

/-! ### The levels (R315) -/

/-- The pause level of a temperature under THR_CFG as it stands. -/
def State.levelOf (s : State) (t : Int) : Nat :=
  pauseLevel (Fld.ICE.THR_CFG_START s.regs) (Fld.ICE.THR_CFG_SLOPE s.regs) (Fld.ICE.THR_CFG_MAX s.regs) t

/-- The word of LEVEL as the temperatures stand. -/
def State.levelWord (s : State) : Nat :=
  s.levelOf (nth 0 s.temps 0) % 256 + s.levelOf (nth 0 s.temps 1) % 256 * 2 ^ 8 + s.levelOf (nth 0 s.temps 2) % 256 * 2 ^ 16 +
    s.levelOf (nth 0 s.temps 3) % 256 * 2 ^ 24

/-- LEVEL and LEVEL_PKG as the temperatures stand. -/
def State.showLevels (s : State) : State := (s.setReg Adr.ICE.LEVEL s.levelWord).setReg Adr.ICE.LEVEL_PKG (s.levelOf (nth 0 s.temps 4) % 256)

theorem SameRegsBut.showLevels (s : State) : SameRegsBut [Adr.ICE.LEVEL, Adr.ICE.LEVEL_PKG] s s.showLevels :=
  (SameRegsBut.putN (State.setReg_regs s Adr.ICE.LEVEL s.levelWord)).trans (SameRegsBut.putN (State.setReg_regs _ _ _))

/-- Whether a node has reached WARN. -/
def State.warns (s : State) : Bool := s.temps.any (fun t => decide ((Fld.ICE.WARN s.regs : Int) * 65536 ≤ t))

theorem State.iceLevels_eq (s : State) : s.iceLevels = s.showLevels.cond s.warns 0x041 0x041 0x09 := by
  have hregs := SameRegsBut.showLevels s
  have htemps : s.showLevels.temps = s.temps := hregs.temps (by decide)
  have hwarn : Fld.ICE.WARN s.showLevels.regs = Fld.ICE.WARN s.regs := hregs.fld (by decide) 0 8
  have hw : s.showLevels.warns = s.warns := by unfold State.warns; rw [htemps, hwarn]
  rw [← hw]
  rfl

theorem State.levelWord_level (s : State) {n : Nat} (h : n < 4) : bits (s.levelWord % 2 ^ 32) (8 * n) 8 = s.levelOf (nth 0 s.temps n) % 256 := by
  unfold State.levelWord bits
  interval_cases n <;> omega

theorem State.iceLevels_rd (s : State) : s.iceLevels.rd Adr.ICE.LEVEL = s.levelWord % 2 ^ 32 := by
  rw [s.iceLevels_eq, State.rd, State.cond_regs, ← State.rd, State.showLevels, State.rd_setReg, if_neg (by decide), State.rd_setReg_same]

/-! ### The thermal model's round (R313 to R315) -/

/-- Both copies after one step. -/
def State.stepBoth (s : State) : State := (s.putTemps Adr.ICE.TEMP (iceStep s.iceParams s.nodePower s.temps)).fusedStep s.nodePower

theorem State.iceRound_eq {s : State} (h : s.iceResync = false) : s.iceRound = s.stepBoth.iceLevels := by
  have hr : s.stepBoth.iceResync = false := by
    unfold State.stepBoth State.fusedStep
    rw [State.putTemps_iceResync, State.putTemps_iceResync, h]
  unfold State.iceRound
  unfold State.stepBoth at hr ⊢
  dsimp only
  rw [hr]
  rfl

theorem iceStep_length (q : IceParams) (power : List Nat) (t : List Int) : (iceStep q power t).length = 5 := rfl

/-- Registers that the model's round leaves. -/
theorem SameRegsBut.stepBoth (s : State) : SameRegsBut (tempRegs Adr.ICE.TEMP ++ tempRegs Adr.ICE.FUSED_TEMP) s s.stepBoth := by
  unfold State.stepBoth State.fusedStep
  exact (SameRegsBut.putTemps s _ _).trans (SameRegsBut.putTemps _ _ _)

theorem State.stepBoth_temps {s : State} (h : TempsFit (iceStep s.iceParams s.nodePower s.temps)) :
    s.stepBoth.temps = iceStep s.iceParams s.nodePower s.temps := by
  unfold State.stepBoth State.fusedStep
  rw [State.putFused_temps, State.putTemps_temps _ h]

theorem State.stepBoth_fusedTemps {s : State} (h : TempsFit (iceStep fusedParams s.nodePower s.fusedTemps)) :
    s.stepBoth.fusedTemps = iceStep fusedParams s.nodePower s.fusedTemps := by
  unfold State.stepBoth State.fusedStep
  rw [State.putTemps_fusedTemps, State.putFused_fusedTemps _ h]

theorem SameRegsBut.iceLevels (s : State) : SameRegsBut [Adr.ICE.LEVEL, Adr.ICE.LEVEL_PKG] s s.iceLevels := by
  rw [s.iceLevels_eq]
  exact (SameRegsBut.showLevels s).trans (SameRegsBut.refl [] (State.cond_regs _ _ _ _ _))

/-- Settles O18: the round's steps by their definitions, the temperatures by what the registers read back. -/
theorem roundsAndTemperatures : Obligations.RoundsAndTemperatures := by
  unfold Obligations.RoundsAndTemperatures
  refine ⟨fun s r hwf => ⟨fun u hu hlimit => ?_, fun u => ?_, fun u before => ⟨fun h hs he hb => ?_, ?_⟩, fun u n => ⟨?_, ?_⟩⟩,
    fun s hr hfit => ?_⟩
  · exact Does.of_answer rfl hwf (managementRound_below hu hlimit)
  · have hspeed : r.speedIndex < 2 ^ 16 := by
      have h : (decide (r.speedIndex < 2 ^ 16) && r.trefi.length == 4) = true := hwf
      rw [Bool.and_eq_true, decide_eq_true_eq] at h
      exact h.1
    exact ⟨u.speedRound_rd hspeed, u.mem_held_speedRound hspeed⟩
  · rw [State.rereport_eq]
    exact ⟨h.reportAt u.now, List.mem_append_right _ (List.mem_map_of_mem (State.mem_persisting hs he hb)), rfl, rfl, rfl, rfl⟩
  · rw [State.rereport_eq]
  · exact State.raiseEpochs_manager
  · exact State.raiseEpochs_other
  · have hprog := State.stepBoth_temps ⟨iceStep_length _ _ _, fun n hn => (hfit n hn).1⟩
    have hfused := State.stepBoth_fusedTemps ⟨iceStep_length _ _ _, fun n hn => (hfit n hn).2⟩
    have hlevels := SameRegsBut.iceLevels s.stepBoth
    have htemps : s.stepBoth.iceLevels.temps = s.stepBoth.temps := hlevels.temps (by decide)
    rw [State.iceRound_eq hr, htemps, hlevels.fusedTemps (by decide)]
    refine ⟨hprog, hfused, fun n hn => ?_, ?_⟩
    · have hcfg (i w : Nat) : s.stepBoth.regs.fld Adr.ICE.THR_CFG i w = s.regs.fld Adr.ICE.THR_CFG i w := (SameRegsBut.stepBoth s).fld (by decide) i w
      rw [State.iceLevels_rd, State.levelWord_level _ hn]
      unfold State.levelOf Fld.ICE.THR_CFG_START Fld.ICE.THR_CFG_SLOPE Fld.ICE.THR_CFG_MAX
      rw [hcfg, hcfg, hcfg]
    · have hwarn : Fld.ICE.WARN s.stepBoth.regs = Fld.ICE.WARN s.regs := (SameRegsBut.stepBoth s).fld (by decide) 0 8
      rw [State.iceLevels_eq]
      refine (State.mem_cond_self _ _ 0x041 0x041 0x09).trans ?_
      unfold State.warns
      rw [List.any_eq_true, hwarn]
      simp only [decide_eq_true_eq]

end Sys2Proof.Machine

/-! The arbiters: patience, pause quanta, urgent service and metering (R28, R75, R77 to R79, R289, R290). -/

namespace Sys2Proof.Machine

/-! ### Slots (R77) -/

/-- A state without its slots: what taking and freeing slots leaves is what this keeps. -/
def State.forgetSlots (s : State) : State := { s with trl := { s.trl with slots := [] } }

theorem State.takeSlot_forget (s : State) (party res : Nat) : (s.takeSlot party res).forgetSlots = s.forgetSlots := by
  unfold State.takeSlot; split <;> rfl

/-- Settling the slots changes the slots alone. -/
theorem State.settleSlots_forget (s : State) : s.settleSlots.forgetSlots = s.forgetSlots := by
  unfold State.settleSlots
  refine foldl_keeps State.forgetSlots _ (fun u o => ?_) _ _
  split
  · exact foldl_keeps State.forgetSlots _ (fun u r => u.takeSlot_forget o.party r) _ u
  · rfl

/-- What does not look at the slots is as before they settle. -/
theorem State.settleSlots_keeps {α : Type} (p : State → α) (h : ∀ u : State, p u.forgetSlots = p u) (s : State) : p s.settleSlots = p s := by
  rw [← h, s.settleSlots_forget, h]

theorem State.settleSlots_beOps (s : State) : s.settleSlots.trl.beOps = s.trl.beOps := State.settleSlots_keeps (·.trl.beOps) (fun _ => rfl) s
theorem State.settleSlots_regs (s : State) : s.settleSlots.regs = s.regs := State.settleSlots_keeps (·.regs) (fun _ => rfl) s
theorem State.settleSlots_dram (s : State) : s.settleSlots.dram = s.dram := State.settleSlots_keeps (·.dram) (fun _ => rfl) s
theorem State.settleSlots_txnStopped (s : State) (t : Txn) : s.settleSlots.txnStopped t = s.txnStopped t :=
  State.settleSlots_keeps (·.txnStopped t) (fun _ => rfl) s

/-! ### Eligible operations (R78, R79) -/

/-- What follows the longest beginning that satisfies a test starts with an element that does not. -/
theorem drop_takeWhile_cons {α : Type} {p : α → Bool} {l r : List α} {x : α} (h : l.drop (l.takeWhile p).length = x :: r) : x ∈ l ∧ p x = false := by
  induction l with
  | nil => exact absurd h (by simp)
  | cons y l ih =>
    by_cases hy : p y = true
    · rw [List.takeWhile_cons_of_pos hy, List.length_cons, List.drop_succ_cons] at h
      exact ⟨List.mem_cons_of_mem _ (ih h).1, (ih h).2⟩
    · rw [List.takeWhile_cons_of_neg hy, List.length_nil, List.drop_zero, List.cons.injEq] at h
      obtain ⟨rfl, -⟩ := h
      exact ⟨List.mem_cons_self, by simpa using hy⟩

/-- An eligible operation is held by its party, with no pause quantum left. -/
theorem State.eligibleOf_some {s : State} {party : Nat} {o : BeOp} (h : s.eligibleOf party = some o) :
    o ∈ s.trl.beOps ∧ o.party = party ∧ o.quanta = 0 := by
  unfold State.eligibleOf at h
  dsimp only at h
  split at h
  · rename_i x r hdrop
    obtain ⟨hmem, hparty⟩ := drop_takeWhile_cons hdrop
    split at h
    · rename_i hok
      rw [Option.some.injEq] at h
      subst h
      exact ⟨hmem, by simpa using hparty, hok.1⟩
    · exact absurd h (by simp)
  · exact absurd h (by simp)

/-- The one operation held, with no quantum left, is eligible. -/
theorem State.eligibleOf_only {s : State} {o : BeOp} (h : s.trl.beOps = [o]) (hq : o.quanta = 0) : s.eligibleOf o.party = some o := by
  have htake : [o].takeWhile (fun x => x.party != o.party) = [] := List.takeWhile_cons_of_neg (by simp)
  unfold State.eligibleOf
  dsimp only
  rw [h, htake]
  exact if_pos ⟨hq, rfl⟩

theorem foldl_min_le (f : Nat → Nat) (l : List Nat) (b : Nat) : l.foldl (fun n t => min n (f t)) b ≤ b := by
  induction l generalizing b with
  | nil => exact le_rfl
  | cons x r ih => exact (ih _).trans (min_le_left _ _)

/-- An operation whose party is past its patience has itself been eligible for longer (R79). -/
theorem State.eligible_of_pastPatience {s : State} {o : BeOp} (h : s.pastPatience o = true) :
    Fld.TRL.BE_PATIENCE s.regs * 1000 < shortFwd o.eligible s.now := by
  unfold State.pastPatience State.patienceOf at h
  dsimp only at h
  split at h
  · rename_i n hn
    split at hn
    · rw [Option.some.injEq] at hn
      exact lt_of_lt_of_le (of_decide_eq_true h) (hn ▸ foldl_min_le _ _ _)
    · exact absurd hn (by simp)
  · exact absurd h (by simp)

/-! ### PATIENCE_EXPIRY (R79) -/

section patience
variable {s : State} {arbiter : Arbiter} {party : Nat}

/-- Where its edges run, PATIENCE_EXPIRY has its effect. -/
theorem exec_patienceExpiry (h : s.stopsAtEdge (.patienceExpiry arbiter party) = false) :
    exec (.patienceExpiry arbiter party) s = answer (.patienceExpiry arbiter party) (patienceExpiry arbiter party s) :=
  congrArg (answer (.patienceExpiry arbiter party)) (throughEdge_pass h (patienceExpiry arbiter party s))

theorem State.trellis_passes (h : s.eligibleOf party = none) : s.stopsAtEdge (.patienceExpiry .trellis party) = false := by
  have hedges : s.urgentEdges .trellis party = [] := by unfold State.urgentEdges; rw [h]
  exact congrArg (fun l : List ClockDomain => l.any (fun d => s.stopped.contains d)) hedges

theorem patienceExpiry_none (h : s.eligibleOf party = none) : patienceExpiry .trellis party s = s := by
  unfold patienceExpiry; rw [h]

theorem patienceExpiry_past {o : BeOp} (h : s.eligibleOf party = some o) (hp : s.pastPatience o = true) :
    patienceExpiry .trellis party s = (s.serveHeld o true).restartPatience 0 party := by
  unfold patienceExpiry; rw [h]; exact if_pos hp

theorem patienceExpiry_within {o : BeOp} (h : s.eligibleOf party = some o) (hp : s.pastPatience o = false) : patienceExpiry .trellis party s = s := by
  unfold patienceExpiry; rw [h]; exact if_neg (by rw [hp]; exact Bool.false_ne_true)

theorem forcedRef_ne_refDebt (g k g' k' : Nat) : Adr.MC.FORCED_REF g k ≠ Adr.MC.REF_DEBT g' k' := fun h => by
  have h : 0x4410C + 0x1000 * g + 0x20 * k = 0x44114 + 0x1000 * g' + 0x20 * k' := h
  omega

/-- The forced refresh of a ready channel at the postpone limit (R290). -/
theorem patienceExpiry_refresh (hready : (s.chan party).ready = true) (hself : s.mem.selfRefresh = false) (hdebt : 8 ≤ (s.chan party).debt) :
    patienceExpiry .refresh party s =
      ((s.bump (Adr.MC.FORCED_REF (party / 4) (party % 4))).setChan party (forcedRefresh (s.chan party))).restartPatience 2 party := by
  unfold patienceExpiry
  dsimp only
  rw [hready, hself, if_pos (by rw [decide_eq_true hdebt]; rfl)]

theorem patienceExpiry_cal (hready : s.dov.calReady = false) (hlp : s.lpEn = false) (hwait : s.calPatience ≤ Fld.DOV.CAL_STAT_CAL_WAIT s.regs) :
    patienceExpiry .dovecoteCal party s = s.restartPatience 4 party := by
  unfold patienceExpiry
  dsimp only
  rw [hready, hlp, decide_eq_false (Nat.not_lt.mpr hwait)]
  rfl

theorem patienceExpiry_cal_not (h : s.dov.calReady = true ∨ s.lpEn = true ∨ Fld.DOV.CAL_STAT_CAL_WAIT s.regs < s.calPatience) :
    patienceExpiry .dovecoteCal party s = s := by
  unfold patienceExpiry
  exact if_pos (by simpa [or_assoc] using h)

/-- Whether a write of a channel is past WR_PATIENCE. -/
def State.pastWrite (s : State) (ch : Nat) (e : McEntry) : Bool := decide (s.wrPatience (ch / 4) < shortFwd e.entered s.now)

/-- A write past its patience is served as urgent, or one before it that is past its own (R289). -/
theorem State.urgentWrite_some {ch : Nat} {e : McEntry} (hready : (s.chan ch).ready = true) (hself : s.mem.selfRefresh = false)
    (hdebt : (s.chan ch).debt < 8) (hrepay : (s.chan ch).repay = false) (he : e ∈ (s.chan ch).writeQ)
    (hpast : s.wrPatience (ch / 4) < shortFwd e.entered s.now) :
    ∃ w, s.urgentWrite ch = some w ∧ w ∈ (s.chan ch).writeQ ∧ s.wrPatience (ch / 4) < shortFwd w.entered s.now := by
  have hfind : s.urgentWrite ch = (s.chan ch).writeQ.find? (s.pastWrite ch) := by
    unfold State.urgentWrite
    dsimp only
    rw [hready, hself, hrepay, decide_eq_false (Nat.not_le.mpr hdebt)]
    rfl
  have hpast : s.pastWrite ch e = true := decide_eq_true hpast
  obtain ⟨w, hw⟩ := Option.isSome_iff_exists.mp (List.find?_isSome.mpr ⟨e, he, hpast⟩)
  exact ⟨w, hfind.trans hw, List.mem_of_find?_eq_some hw, of_decide_eq_true (List.find?_some hw : s.pastWrite ch w = true)⟩

end patience

/-! ### Serving held work (R77, R78) -/

section held
variable {s : State} {o : BeOp}

theorem State.serveHeld_only (h : s.trl.beOps = [o]) {urgent : Bool} (hserve : urgent = true ∨ s.canServe o.txn = true) :
    s.serveHeld o urgent = (({ s with trl := { s.trl with beOps := [] } } : State).serveTxn o.txn urgent).settleSlots := by
  unfold State.serveHeld
  rw [if_pos (by simpa using hserve), h, List.erase_cons_head]

theorem State.serveHeld_stays (h : s.canServe o.txn = false) : s.serveHeld o false = s := by
  unfold State.serveHeld; exact if_neg (by rw [h]; decide)

theorem State.metered_alone (h : s.trl.beOps = []) (t : Txn) : s.metered t = s.serveTxn t true := by
  unfold State.metered; rw [h]; rfl

theorem spendQuantum_first (now : Nat) (rest : List BeOp) :
    spendQuantum o.party now (o :: rest) = { o with quanta := o.quanta - 1, eligible := if o.quanta = 1 then now else o.eligible } :: rest := if_pos rfl

/-- A quantum is spent, and nothing is served. -/
theorem pauseQuantumExpiry_waits (party : Nat) : pauseQuantumExpiry party false s =
    ({ s with trl := { s.trl with beOps := spendQuantum party s.now s.trl.beOps } } : State).settleSlots := rfl

/-- The last quantum of the only operation is spent, and the arbiter serves it. -/
theorem pauseQuantumExpiry_serves (h : s.trl.beOps = [o]) (hq : o.quanta = 1) (hrun : s.txnStopped o.txn = false) {o' : BeOp}
    (ho : o' = { o with quanta := 0, eligible := s.now }) :
    pauseQuantumExpiry o.party true s = (({ s with trl := { s.trl with beOps := [o'] } } : State).settleSlots.serveHeld o' false) := by
  have hspend : spendQuantum o.party s.now s.trl.beOps = [o'] := by rw [h, spendQuantum_first, ho, hq, if_pos rfl]
  have helig : ({ s with trl := { s.trl with beOps := [o'] } } : State).settleSlots.eligibleOf o.party = some o' := by
    have hparty : o'.party = o.party := by rw [ho]
    rw [← hparty]
    exact State.eligibleOf_only (State.settleSlots_beOps _) (by rw [ho])
  have hrun' : ({ s with trl := { s.trl with beOps := [o'] } } : State).settleSlots.txnStopped o'.txn = false := by
    rw [State.settleSlots_txnStopped, ho]; exact hrun
  unfold pauseQuantumExpiry
  rw [hspend]
  dsimp only
  rw [if_pos rfl, State.serveParty, helig]
  dsimp only
  exact if_neg (by rw [hrun']; exact Bool.false_ne_true)

end held

/-! ### Metering (R75) -/

section meter
variable {s : State} {i : Nat} (h : (s.flow i).st = .admitted) (beats : Nat)
include h

theorem State.meter_admitted : s.meter i beats = (min beats ((s.flow i).tokensAt s.now / 16000),
    s.setFlow i { s.flow i with
      tokens := (s.flow i).tokensAt s.now - min beats ((s.flow i).tokensAt s.now / 16000) * 16000, filled := s.now }) := by
  unfold State.meter
  dsimp only
  rw [if_neg (fun hne => hne h)]

/-- The bucket loses the tokens of the metered beats, and no more. -/
theorem State.meter_tokens : ((s.meter i beats).2.flow i).tokens + (s.meter i beats).1 * 16000 = (s.flow i).tokensAt s.now := by
  have hflow (f : Flow) : (s.setFlow i f).flow i = f := SMap.get_set_same _ _ _ _
  rw [State.meter_admitted h beats, hflow]
  dsimp only
  omega

end meter

theorem Flow.tokensAt_empty {f : Flow} {now : Nat} (h : f.tokens = 0) (hnew : shortFwd f.filled now = 0) : f.tokensAt now = 0 := by
  unfold Flow.tokensAt; rw [h, hnew]; omega

/-- Settles O22: PATIENCE_EXPIRY and PAUSE_QUANTUM_EXPIRY branch by branch, patience and metering by their bounds. -/
theorem arbitersServeUrgently : Obligations.ArbitersServeUrgently := by
  unfold Obligations.ArbitersServeUrgently
  refine fun s => ⟨fun party o hparty he hp hedge => ?_, fun party hparty he => ?_, fun party o hparty he hp hedge => ?_,
    fun o => State.eligible_of_pastPatience, fun party o => State.eligibleOf_some, fun o urgent hops => State.serveHeld_only hops,
    fun party o rest hparty hops ho => ?_, fun party o o' hparty hops ho hq hrun ho' => ?_, fun o => State.serveHeld_stays,
    fun t hops => State.metered_alone hops t, fun ch hready hself hdebt hedge => ?_, fun hready hlp hwait hedge => ?_, fun hcal hedge => ?_,
    fun ch e => State.urgentWrite_some, fun i beats h => ⟨?_, State.meter_tokens h beats⟩, fun i beats h hempty hnew => ?_⟩
  · exact Does.of_answer (exec_patienceExpiry hedge) (decide_eq_true hparty) (patienceExpiry_past he hp)
  · exact Does.of_answer (exec_patienceExpiry (State.trellis_passes he)) (decide_eq_true hparty) (patienceExpiry_none he)
  · exact Does.of_answer (exec_patienceExpiry hedge) (decide_eq_true hparty) (patienceExpiry_within he hp)
  · refine Completes.of_answer rfl (decide_eq_true hparty) ?_
    rw [State.settle_trl, State.settle_dram, State.settle_regs, pauseQuantumExpiry_waits, State.settleSlots_beOps, State.settleSlots_dram,
      State.settleSlots_regs, hops, ← ho]
    exact ⟨spendQuantum_first s.now rest, rfl, rfl⟩
  · subst ho
    exact Does.of_answer rfl (decide_eq_true hparty) (pauseQuantumExpiry_serves hops hq hrun ho')
  · refine Completes.of_answer (exec_patienceExpiry hedge) (decide_eq_true ch.isLt) ?_
    rw [patienceExpiry_refresh hready hself hdebt, State.chan_settle, State.settle_dram, State.settle_rd]
    have hchan (u : State) (x : McChan) : ((u.setChan ch x).restartPatience 2 ch).chan ch = x := SMap.get_set_same _ _ _ _
    rw [hchan]
    refine ⟨rfl, rfl, rfl, rfl, ?_⟩
    refine (State.rd_setReg _ _ _ _).trans ?_
    rw [if_neg (forcedRef_ne_refDebt _ _ _ _)]
    exact State.rd_bump_same _ _
  · exact Does.of_answer (exec_patienceExpiry hedge) rfl (patienceExpiry_cal hready hlp hwait)
  · exact Does.of_answer (exec_patienceExpiry hedge) rfl (patienceExpiry_cal_not hcal)
  · rw [State.meter_admitted h beats]
  · rw [State.meter_admitted h beats, Flow.tokensAt_empty hempty hnew]
    exact Nat.min_zero beats

end Sys2Proof.Machine

/-! Transactions to DRAM (R21 to R23, R286, R288, R291 to R293, R295, R369). -/

namespace Sys2Proof.Machine

/-! ### States that serve DRAM alike -/

/-- `t` holds the bytes of `s` under the same map of addresses, and has sent nothing more. -/
structure ServesAs (s t : State) : Prop where
  map : Fld.MCT.ADDR_MAP_GRP_IL t.regs = Fld.MCT.ADDR_MAP_GRP_IL s.regs
  capacity : t.rd Adr.MCT.CAPACITY = s.rd Adr.MCT.CAPACITY
  dram : t.dram = s.dram
  outbox : t.outbox = s.outbox

theorem ServesAs.refl (s : State) : ServesAs s s := ⟨rfl, rfl, rfl, rfl⟩

theorem ServesAs.trans {s t u : State} (h : ServesAs s t) (k : ServesAs t u) : ServesAs s u :=
  ⟨k.map.trans h.map, k.capacity.trans h.capacity, k.dram.trans h.dram, k.outbox.trans h.outbox⟩

/-- A register of the memory channels, which lie below page MCT, does not bear on the map. -/
theorem ServesAs.of_regs {s t : State} {a : RegAddr} (h : SameRegsBut [a] s t) (ha : a < 0x48000) (hd : t.dram = s.dram) (ho : t.outbox = s.outbox) :
    ServesAs s t := by
  have hout (b : RegAddr) (hb : 0x48000 ≤ b) : b ∉ [a] := fun hm => absurd (List.mem_singleton.mp hm ▸ ha) (Nat.not_lt.mpr hb)
  exact ⟨h.fld (hout _ (by decide)) 0 1, h.rd (hout _ (by decide)), hd, ho⟩

theorem ServesAs.dramRead {s t : State} (h : ServesAs s t) (a n : Nat) : t.dramRead a n = s.dramRead a n := by
  unfold State.dramRead State.place
  rw [h.dram, h.map, h.capacity]

theorem ServesAs.channelOf {s t : State} (h : ServesAs s t) (a : Nat) : t.channelOf a = s.channelOf a := by
  unfold State.channelOf; rw [h.map, h.capacity]

theorem refDebt_lt {ch : Nat} (h : ch < 16) : Adr.MC.REF_DEBT (ch / 4) (ch % 4) < 0x48000 := by
  show 0x44114 + 0x1000 * (ch / 4) + 0x20 * (ch % 4) < 0x48000
  omega

theorem ceLink_lt {ch : Nat} (h : ch < 16) : Adr.MC.CE_LINK (ch / 4) (ch % 4) < 0x48000 := by
  show 0x44100 + 0x1000 * (ch / 4) + 0x20 * (ch % 4) < 0x48000
  omega

theorem ServesAs.setChan (s : State) {ch : Nat} (h : ch < 16) (c : McChan) : ServesAs s (s.setChan ch c) :=
  ServesAs.of_regs (SameRegsBut.putN (n := min 15 c.debt) rfl) (refDebt_lt h) rfl rfl

theorem ServesAs.eccWrite (s : State) {addr : Nat} (h : (s.channelOf addr).1 < 16) (es : List EccEvent) : ServesAs s (s.eccWrite addr es) := by
  unfold State.eccWrite
  dsimp only
  split
  · exact ServesAs.of_regs (SameRegsBut.putN (State.bumpBy_regs _ _ _)) (ceLink_lt h) rfl rfl
  · exact ServesAs.refl s

/-- An address that DRAM serves lies on one of the sixteen channels (R286). -/
theorem State.channelOf_lt {s : State} {addr : Nat} (h : s.dramError addr = none) : (s.channelOf addr).1 < 16 := by
  have hcap : addr < s.rd Adr.MCT.CAPACITY * 2 ^ 20 := by
    unfold State.dramError at h
    split at h
    · exact absurd h (by simp)
    · split at h
      · exact absurd h (by simp)
      · omega
  unfold State.channelOf dramMap
  split
  · exact Nat.xor_lt_two_pow (n := 4) (Nat.mod_lt _ (by decide)) (Nat.mod_lt _ (by decide))
  · dsimp only
    split
    · omega
    · rename_i hq
      have hquarter : addr / (s.rd Adr.MCT.CAPACITY * 2 ^ 20 / 4) < 4 := (Nat.div_lt_iff_lt_mul (Nat.pos_of_ne_zero hq)).mpr (by omega)
      omega

/-! ### A transaction that nothing holds up reaches its channel -/

section reach
variable {s : State} {t : Txn} {addr : Nat} (htarget : t.target = .dram addr)
include htarget

theorem State.canServe_error {unit : Nat} (h : s.dramError addr = some unit) : s.canServe t = true := by
  unfold State.canServe; rw [htarget]; dsimp only; rw [h]; rfl

theorem State.canServe_room (hroom : s.room t addr = true) (hwait : s.mem.waiting = []) : s.canServe t = true := by
  unfold State.canServe; rw [htarget]; dsimp only; rw [hroom, hwait]; exact Bool.or_true _

theorem transaction_dram (hstall : s.stalls t = false) (hflow : t.flow = none) (hquanta : s.quantaOf t = 0) (hops : s.trl.beOps = [])
    (hgrant : s.grantsTxn t = true) (hserve : s.canServe t = true) : transaction t s = s.dramTxn t false addr := by
  have hfilter : s.filtersTxn t = false := by unfold State.filtersTxn; rw [htarget]
  have hbest : s.bestEffort t = s.serveTxn t false := by
    unfold State.bestEffort
    dsimp only
    rw [hquanta, hops, hserve]
    rfl
  unfold transaction State.takeTxn State.admitTxn
  rw [hstall, hfilter, hgrant, hflow]
  refine hbest.trans ?_
  unfold State.serveTxn
  rw [htarget]

theorem Txn.data_length (hwf : t.wellFormed = true) (hwrite : t.isWrite = true) : t.data.length = 32 * t.beats := by
  unfold Txn.wellFormed at hwf
  rw [htarget, hwrite] at hwf
  simp only [Bool.and_eq_true, Bool.not_true, Bool.false_or, beq_iff_eq] at hwf
  obtain ⟨-, ⟨-, hlen⟩, -⟩ := hwf
  exact hlen

theorem txnSize_dram : txnSize t = 32 * t.beats := by unfold txnSize; rw [htarget]

end reach

theorem State.dramTxn_served {s : State} {t : Txn} {addr : Nat} (herror : s.dramError addr = none) (hserve : s.canServe t = true) (first : Bool) :
    s.dramTxn t first addr = s.enqueue t first addr := by
  unfold State.dramTxn; rw [herror]; exact if_pos hserve

/-- The error of an address, reported by MCT where it lies beyond the capacity (R369). -/
theorem State.dramTxn_error {s : State} {addr unit : Nat} (h : s.dramError addr = some unit) (t : Txn) (first : Bool) :
    s.dramTxn t first addr = (if unit = 0x480 then s.fault 0x480 0x22 else s).failTxn t unit := by
  unfold State.dramTxn; rw [h]

theorem respond_sends_good (s : State) (t : Txn) (data : List Byte) :
    ∃ out, (s.respond t data none).settle.outbox = s.outbox ++ .response t.master data none :: out := by
  obtain ⟨out, hout⟩ := respond_sends s t data none
  exact ⟨out, by rw [hout, ite_self]⟩

theorem State.respond_dramRead (s : State) (t : Txn) (data : List Byte) (error : Option Nat) (a n : Nat) :
    (s.respond t data error).dramRead a n = s.dramRead a n := rfl

/-! ### Writes (R23, R288, R291) -/

/-- A write stands in its channel's queue, what link ECC corrected of it counted. -/
def State.queueWrite (s : State) (t : Txn) (first : Bool) (addr : Nat) : State :=
  let c := s.chan (s.channelOf addr).1
  let e : McEntry := { addr := addr, beats := t.beats, metered := first, entered := s.now }
  (s.setChan (s.channelOf addr).1 { c with writeQ := c.writeQ ++ [e], corrected := c.corrected.filter (fun x => !x.meets e) }).eccWrite addr
    (t.ecc.take t.beats)

theorem State.enqueue_write {t : Txn} (h : t.isWrite = true) (s : State) (first : Bool) (addr : Nat) :
    s.enqueue t first addr = ((s.queueWrite t first addr).dramWrite addr t.data).respond t [] none := by
  unfold State.enqueue; exact if_pos h

theorem ServesAs.queueWrite {s : State} {addr : Nat} (h : s.dramError addr = none) (t : Txn) (first : Bool) : ServesAs s (s.queueWrite t first addr) := by
  have hch := State.channelOf_lt h
  have hset := ServesAs.setChan s hch
  exact (hset _).trans (ServesAs.eccWrite _ (by rw [(hset _).channelOf]; exact hch) _)

/-! ### Reads (R23, R288, R291 to R293) -/

/-- What each beat that the devices deliver met. -/
def State.metBeats (s : State) (t : Txn) (addr : Nat) : List (Nat × EccEvent) :=
  (s.fromDevices addr t.beats).map (fun k => (k, nth EccEvent.none t.ecc k))

/-- A read stands in its channel's queue, unless the write queue serves all of it. -/
def State.queueRead (s : State) (t : Txn) (first : Bool) (addr : Nat) : State :=
  let c := s.chan (s.channelOf addr).1
  if (s.metBeats t addr).isEmpty then s
  else s.setChan (s.channelOf addr).1 { c with readQ := c.readQ ++ [{ addr := addr, beats := t.beats, metered := first, entered := s.now }] }

theorem ServesAs.queueRead {s : State} {addr : Nat} (h : s.dramError addr = none) (t : Txn) (first : Bool) : ServesAs s (s.queueRead t first addr) := by
  unfold State.queueRead
  dsimp only
  split
  · exact ServesAs.refl s
  · exact ServesAs.setChan s (State.channelOf_lt h) _

/-- A read in which an uncorrectable beat was met fails at the channel. -/
theorem State.enqueue_read_fails {s u : State} {t : Txn} {first : Bool} {addr unit : Nat} (h : t.isWrite = false)
    (hecc : (s.queueRead t first addr).eccRead addr t.master (s.metBeats t addr) = (u, some unit)) : s.enqueue t first addr = u.failTxn t unit := by
  unfold State.queueRead State.metBeats at hecc
  unfold State.enqueue
  dsimp only at hecc ⊢
  rw [if_neg (by rw [h]; exact Bool.false_ne_true), hecc]

/-- A read in which no bit error was met answers the bytes at the address. -/
theorem State.enqueue_read_clean {s : State} {t : Txn} {addr : Nat} (first : Bool) (h : t.isWrite = false)
    (hclean : ∀ e ∈ s.metBeats t addr, e.2 = .none) :
    s.enqueue t first addr = (s.queueRead t first addr).respond t ((s.queueRead t first addr).dramRead addr (32 * t.beats)) none := by
  have hecc : (s.queueRead t first addr).eccRead addr t.master (s.metBeats t addr) = (s.queueRead t first addr, none) := by
    generalize s.metBeats t addr = met at hclean
    generalize s.queueRead t first addr = u
    have hfold : met.foldl (fun (v : State) (e : Nat × EccEvent) => v.eccBeat (u.channelOf addr).1 (addr + 32 * e.1) e.2) u = u := by
      induction met with
      | nil => rfl
      | cons e r ih =>
        rw [List.foldl_cons, hclean e List.mem_cons_self]
        exact ih (fun x hx => hclean x (List.mem_cons_of_mem _ hx))
    have hfind : met.find? (fun e => decide (e.2 = .uncorrectable)) = none :=
      List.find?_eq_none.mpr (fun e he => by rw [hclean e he]; decide)
    unfold State.eccRead
    dsimp only
    rw [hfold, hfind]
  have hread : (s.queueRead t first addr).readData addr t.beats (s.metBeats t addr) =
      ((s.queueRead t first addr).dramRead addr (32 * t.beats), s.queueRead t first addr) := by
    have hnone : (s.metBeats t addr).filter (fun e => (s.queueRead t first addr).eccMissed e.2) = [] :=
      List.filter_eq_nil_iff.mpr (fun e he => by rw [hclean e he]; exact Bool.false_ne_true)
    unfold State.readData
    dsimp only
    rw [hnone]
    rfl
  generalize hu : s.queueRead t first addr = u at hecc hread ⊢
  unfold State.queueRead at hu
  unfold State.metBeats at hu hecc hread
  unfold State.enqueue
  dsimp only at hu ⊢
  rw [if_neg (by rw [h]; exact Bool.false_ne_true), hu, hecc]
  dsimp only
  rw [hread]

theorem nth_of_all {α : Type} {d : α} {l : List α} (h : ∀ x ∈ l, x = d) (n : Nat) : nth d l n = d := by
  induction l generalizing n with
  | nil => rfl
  | cons x r ih =>
    cases n with
    | zero => exact h x List.mem_cons_self
    | succ n => exact ih (fun y hy => h y (List.mem_cons_of_mem _ hy)) n

theorem State.metBeats_none {t : Txn} (h : ∀ e ∈ t.ecc, e = .none) (s : State) (addr : Nat) : ∀ e ∈ s.metBeats t addr, e.2 = .none := by
  intro e he
  obtain ⟨k, -, rfl⟩ := List.mem_map.mp he
  exact nth_of_all h k

section held
variable {s : State} {t : Txn} {addr : Nat} (h : s.fromDevices addr t.beats = [])
include h

theorem State.metBeats_held : s.metBeats t addr = [] := by unfold State.metBeats; rw [h]; rfl

/-- A read that the write queue serves whole does not enter the read queue. -/
theorem State.queueRead_held (first : Bool) : s.queueRead t first addr = s := by
  unfold State.queueRead
  rw [State.metBeats_held h]
  rfl

end held

/-- One uncorrectable beat under error correction (R293). -/
theorem State.eccRead_uncorrectable {s : State} (hecc : s.linkEcc = true ∨ s.inlineEcc = true) (addr master : Nat) :
    s.eccRead addr master [(0, .uncorrectable)] =
      (s.uncorrectable (s.channelOf addr).1 (addr + 32 * 0) master, some (channelUnit (s.channelOf addr).1)) := by
  unfold State.eccRead
  dsimp only
  rw [List.find?_cons_of_pos (by decide)]
  exact if_pos (by rw [Bool.or_eq_true]; exact hecc)

section uncorrectable
variable (s : State) (ch addr master : Nat)

theorem State.uncorrectable_dram : (s.uncorrectable ch addr master).dram = s.dram := by
  unfold State.uncorrectable; dsimp only; rw [State.fault_dram, State.bump_dram]

theorem State.uncorrectable_outbox : (s.uncorrectable ch addr master).outbox = s.outbox := by
  unfold State.uncorrectable; dsimp only; rw [State.fault_outbox, State.bump_outbox]

theorem State.uncorrectable_regs : (s.uncorrectable ch addr master).regs = (s.bump (Adr.MC.UE (ch / 4) (ch % 4))).regs := by
  unfold State.uncorrectable; dsimp only; rw [State.fault_regs]

theorem State.uncorrectable_held : (s.uncorrectable ch addr master).held = ((s.bump (Adr.MC.UE (ch / 4) (ch % 4))).fault (channelUnit ch) 0x03).held := by
  unfold State.uncorrectable; rfl

end uncorrectable

theorem ue_ne_refDebt (g k g' k' : Nat) : Adr.MC.UE g k ≠ Adr.MC.REF_DEBT g' k' := fun h => by
  have h : 0x44108 + 0x1000 * g + 0x20 * k = 0x44114 + 0x1000 * g' + 0x20 * k' := h
  omega

theorem State.queueRead_ue (s : State) (t : Txn) (first : Bool) (addr g k : Nat) : (s.queueRead t first addr).rd (Adr.MC.UE g k) = s.rd (Adr.MC.UE g k) := by
  unfold State.queueRead
  dsimp only
  split
  · rfl
  · exact (State.rd_setReg _ _ _ _).trans (if_neg (ue_ne_refDebt _ _ _ _))

theorem State.queueRead_ecc (s : State) (t : Txn) (first : Bool) (addr : Nat) :
    (s.queueRead t first addr).linkEcc = s.linkEcc ∧ (s.queueRead t first addr).inlineEcc = s.inlineEcc := by
  unfold State.queueRead
  dsimp only
  split <;> exact ⟨rfl, rfl⟩

/-- Settles O16: each transaction reaches its channel; a write stores after it is queued, a read answers what it met. -/
theorem dramTransactionsMoveTheirBytes : Obligations.DramTransactionsMoveTheirBytes := by
  unfold Obligations.DramTransactionsMoveTheirBytes
  intro s t addr hwf htarget hstall hflow hquanta hops hwait hgrant
  have hreach (hserve : s.canServe t = true) := transaction_dram htarget hstall hflow hquanta hops hgrant hserve
  have henqueue (herror : s.dramError addr = none) (hroom : s.room t addr = true) : transaction t s = s.enqueue t false addr := by
    have hserve := State.canServe_room htarget hroom hwait
    exact (hreach hserve).trans (State.dramTxn_served herror hserve false)
  have hclean (herror : s.dramError addr = none) (hroom : s.room t addr = true) (hread : t.isWrite = false)
      (hnone : ∀ e ∈ s.metBeats t addr, e.2 = .none) :
      transaction t s = (s.queueRead t false addr).respond t (s.dramRead addr (32 * t.beats)) none := by
    rw [henqueue herror hroom, State.enqueue_read_clean false hread hnone, (ServesAs.queueRead herror t false).dramRead]
  refine ⟨fun herror hroom hwrite => ?_, fun herror hroom hread hecc => ?_, fun herror hroom hread hheld => ?_,
    fun ch herror hroom hread hbeats hecc hfrom heccOn hch hlt => ?_, fun unit herror => ?_⟩
  · refine Completes.of_answer (congrArg (answer (.transaction t)) ((henqueue herror hroom).trans (State.enqueue_write hwrite s false addr))) hwf ?_
    have hserves := ServesAs.queueWrite herror t false
    generalize s.queueWrite t false addr = w at hserves
    obtain ⟨out, hout⟩ := respond_sends_good (w.dramWrite addr t.data) t []
    refine ⟨?_, fun a ha => ?_, fun hcanon => ?_, out, ?_⟩
    · rw [State.settle_dramRead, State.respond_dramRead, State.dramRead_dramWrite_same]
    · rw [State.settle_dramRead, State.respond_dramRead, State.dramRead_dramWrite_outside _ _ _ _ (by rw [Txn.data_length htarget hwf hwrite]; exact ha),
        hserves.dramRead]
    · rw [State.settle_dram]
      exact w.dramWrite_wf addr t.data (hserves.dram.symm ▸ hcanon)
    · rw [hout, State.dramWrite_outbox, hserves.outbox]
  · refine Completes.of_answer (congrArg (answer (.transaction t)) (hclean herror hroom hread (State.metBeats_none hecc s addr))) hwf ?_
    have hserves := ServesAs.queueRead herror t false
    obtain ⟨out, hout⟩ := respond_sends_good (s.queueRead t false addr) t (s.dramRead addr (32 * t.beats))
    rw [State.settle_dram]
    exact ⟨hserves.dram, out, by rw [hout, hserves.outbox]⟩
  · have hnone : ∀ e ∈ s.metBeats t addr, e.2 = .none := fun e he => absurd (State.metBeats_held hheld ▸ he) List.not_mem_nil
    have hanswer := hclean herror hroom hread hnone
    rw [State.queueRead_held hheld] at hanswer
    refine Completes.of_answer (congrArg (answer (.transaction t)) hanswer) hwf ?_
    rw [State.settle_dram, State.settle_regs]
    exact ⟨rfl, rfl, respond_sends_good s t _⟩
  · have hserves := ServesAs.queueRead herror t false
    have hmet : s.metBeats t addr = [(0, .uncorrectable)] := by unfold State.metBeats; rw [hbeats, hfrom, hecc]; rfl
    obtain ⟨hlink, hinline⟩ := s.queueRead_ecc t false addr
    have hue := s.queueRead_ue t false addr (ch / 4) (ch % 4)
    have hfails := State.eccRead_uncorrectable (s := s.queueRead t false addr) (by rw [hlink, hinline]; exact heccOn) addr t.master
    rw [hserves.channelOf, hch, ← hmet] at hfails
    refine Completes.of_answer (congrArg (answer (.transaction t)) ((henqueue herror hroom).trans (State.enqueue_read_fails hread hfails))) hwf ?_
    generalize s.queueRead t false addr = v at hserves hue
    obtain ⟨out, hout⟩ := failTxn_sends (v.uncorrectable ch (addr + 32 * 0) t.master) t (channelUnit ch)
    rw [hout, State.settle_dram, State.settle_rd, State.settle_held, State.failTxn_eq, State.emit_dram, State.emit_held, State.rd, State.emit_regs,
      State.uncorrectable_dram, State.uncorrectable_outbox, State.uncorrectable_regs, State.uncorrectable_held, hserves.dram, hserves.outbox,
      txnSize_dram htarget, hbeats, hread]
    refine ⟨rfl, ?_, (State.mem_fault _ _ _ _).mpr (Or.inl rfl), out, rfl⟩
    rw [← State.rd, State.rd_bump_same, hue]
  · have hanswer := (hreach (State.canServe_error htarget herror)).trans (State.dramTxn_error herror t false)
    refine Completes.of_answer (congrArg (answer (.transaction t)) hanswer) hwf ?_
    obtain ⟨out, hout⟩ := failTxn_sends (if unit = 0x480 then s.fault 0x480 0x22 else s) t unit
    rw [hout, State.settle_dram, State.settle_held, State.failTxn_eq, State.emit_dram, State.emit_held, txnSize_dram htarget]
    by_cases hunit : unit = 0x480
    · rw [if_pos hunit, State.fault_dram, State.fault_outbox]
      exact ⟨rfl, fun _ => (State.mem_fault _ _ _ _).mpr (Or.inl rfl), out, rfl⟩
    · rw [if_neg hunit]
      exact ⟨rfl, fun h => absurd h hunit, out, rfl⟩

end Sys2Proof.Machine

/-! Interrupts: every step ends settled, and a rise sends one message (R59). -/

namespace Sys2Proof.Machine

/-! ### What a step can do -/

/-- Every arm of `exec` is the answer of an operation. -/
theorem exec_answers (c : Instr) (s : State) : ∃ u, exec c s = answer c u := by
  cases c <;> exact ⟨_, rfl⟩

/-- A beat without a command, before the network is served. -/
def State.passBeat (s : State) : State :=
  if s.stopped.contains .sundial then { s with elapsed := s.elapsed + 2 }
  else ({ s with time := s.time.add 2, elapsed := s.elapsed + 2 } : State).fireScheduled s.now false true

theorem idle_eq (s : State) : idle s = s.passBeat.serveNetwork.settle := by
  unfold idle State.passBeat; split <;> rfl

/-- A step that answers a next state ends settled, whether a command or the passing of time led there. -/
theorem step_settles {s t : State} (h : step s = .next t) : ∃ u : State, t = u.settle := by
  cases hp : s.pending with
  | nil =>
    rw [step_nil hp, idle_eq] at h
    exact ⟨_, (Host.Outcome.next.inj h).symm⟩
  | cons c rest =>
    obtain ⟨u, hu⟩ := exec_answers c { s with pending := rest }
    rw [step_cons hp, hu] at h
    exact ⟨u, (answer_inversion h).2⟩

/-! ### Settling (R59) -/

/-- Settling leaves the same pages' conditions as it has just delivered. -/
theorem State.settle_irqPages (u : State) : u.settle.irqPages = u.poolSweep.irqPages := by
  unfold State.irqPages
  rw [funext u.settle_irqCond]

theorem State.settle_settled (u : State) : InterruptsSettled u.settle := by
  unfold InterruptsSettled
  rw [u.settle_irq, u.settle_irqPages]

/-- Settles O4: a step ends in a settled state, whatever state it began in. -/
theorem everyStepSettlesInterrupts : Obligations.EveryStepSettlesInterrupts := by
  unfold Obligations.EveryStepSettlesInterrupts
  intro s t _ hstep
  obtain ⟨u, rfl⟩ := step_settles hstep
  exact u.settle_settled

/-- The sweep of the pool leaves the interrupts that stand and the registers. -/
theorem State.poolSweep_irq (s : State) : s.poolSweep.irq = s.irq := by rw [s.poolSweep_eq]

theorem State.poolSweep_regs (s : State) : s.poolSweep.regs = s.regs := by rw [s.poolSweep_eq]

/-- Settles O5: the messages of `settle_outbox`, with the two filters of the rising pages put into one. -/
theorem msixOncePerRise : Obligations.MsixOncePerRise := by
  unfold Obligations.MsixOncePerRise
  intro u
  have hrises : u.poolSweep.rises =
      implementedPages.filter (fun p => u.settle.irqCond p && !u.irq.contains p && Fld.HDR.TARGET u.regs p == 1) := by
    unfold State.rises State.irqPages
    rw [List.filter_filter, u.poolSweep_irq, u.poolSweep_regs]
    refine List.filter_congr fun p _ => ?_
    rw [u.settle_irqCond, Bool.and_comm, Bool.and_assoc]
  rw [u.settle_outbox, hrises]

end Sys2Proof.Machine

/-! Every well-formed command completes with its own operation (R60). -/

namespace Sys2Proof.Machine

/-- A command that passes no edge does what its operation does. -/
theorem Does.plain {c : Instr} {s u : State} (w : c.wellFormed = true) (h : exec c s = answer c u := by rfl) : Does c s u := .of_answer h w rfl

/-- A command that passes an edge does what its operation does while no domain at the edge is stopped. -/
theorem Does.through {c : Instr} {s u : State} (w : c.wellFormed = true) (e : s.stopsAtEdge c = false)
    (h : exec c s = answer c (throughEdge c s u) := by rfl) : Does c s u := .of_answer h w (throughEdge_pass e u)

/-- Settles O3: every arm of `exec` is the answer of its operation, through its edges where it passes any; the clauses stand in the order of the
opcode table. -/
theorem everyWellFormedCommandAnswers : Obligations.EveryWellFormedCommandAnswers := by
  unfold Obligations.EveryWellFormedCommandAnswers
  refine ⟨fun c s => ?_, fun s => ?_⟩
  · obtain ⟨u, hu⟩ := exec_answers c s
    exact ⟨fun w => ⟨u, .of_answer hu w rfl⟩, fun w => hu.trans (answer_fault w)⟩
  exact ⟨
    -- registers, update groups, the Kiosk, the Gatehouse and the collector
    fun _ _ _ _ w => .plain w, fun _ _ _ w => .plain w, fun _ w => .plain w, fun _ w => .plain w, fun _ => .plain rfl, fun _ => .plain rfl,
    fun _ _ w => .plain w, fun _ _ _ => .plain rfl, fun _ => .plain rfl, fun _ => .plain rfl, .plain rfl, fun _ _ _ w => .plain w,
    fun _ _ w => .plain w, fun _ => .plain rfl, .plain rfl, fun _ _ w => .plain w, .plain rfl, .plain rfl, .plain rfl, .plain rfl,
    -- admission, operating points and arbiters
    fun _ => .plain rfl, fun _ => .plain rfl, fun _ => .plain rfl, .plain rfl, fun _ => .plain rfl, fun _ _ => .plain rfl,
    fun _ _ w e => .through w e, fun _ _ w => .plain w,
    -- the sensor front end
    fun _ => .plain rfl, fun _ _ w => .plain w, fun _ _ _ _ w => .plain w, fun _ _ _ w e => .through w e, fun _ _ w e => .through w e,
    fun _ _ w e => .through w e, fun _ _ w e => .through w e, fun _ _ w e => .through w e, fun _ _ w => .plain w, fun _ => .plain rfl,
    fun _ => .plain rfl, fun _ => .plain rfl, fun _ => .plain rfl, fun _ => .plain rfl, fun _ e => .through rfl e, fun _ e => .through rfl e,
    fun _ _ => .plain rfl, fun _ _ w e => .through w e, fun _ _ => .plain rfl, fun _ _ => .plain rfl, fun _ _ _ w e => .through w e,
    fun _ _ => .plain rfl, fun _ e => .through rfl e,
    -- raw conditioning and the integrator
    fun _ => .plain rfl, fun _ _ _ _ w => .plain w, .plain rfl, .plain rfl, .plain rfl, fun e => .through rfl e, fun e => .through rfl e,
    -- Ebosh Raw
    fun _ e => .through rfl e, fun _ e => .through rfl e, fun _ _ w => .plain w, fun _ _ => .plain rfl, fun _ _ => .plain rfl, .plain rfl, .plain rfl,
    fun _ w e => .through w e,
    -- the Orangery, the views and the Parterre
    fun _ e => .through rfl e, fun _ => .plain rfl, fun _ => .plain rfl, .plain rfl, fun _ _ w e => .through w e, fun _ => .plain rfl,
    fun _ => .plain rfl, fun _ _ _ w e => .through w e, .plain rfl, .plain rfl, .plain rfl,
    -- the Glasshouse
    fun _ => .plain rfl, fun _ => .plain rfl, fun _ => .plain rfl, fun _ => .plain rfl, fun _ => .plain rfl, fun _ _ w e => .through w e,
    fun _ => .plain rfl, fun _ => .plain rfl, fun _ => .plain rfl, fun _ _ => .plain rfl, fun _ _ => .plain rfl, fun _ e => .through rfl e,
    fun _ => .plain rfl, fun _ => .plain rfl, fun _ => .plain rfl, .plain rfl,
    -- the Boathouse
    fun _ => .plain rfl, fun _ _ e => .through rfl e, fun _ => .plain rfl, fun _ _ _ w e => .through w e, fun _ => .plain rfl, fun _ => .plain rfl,
    fun _ _ _ _ _ w e => .through w e, fun _ => .plain rfl, fun _ _ w e => .through w e, fun _ => .plain rfl, fun _ => .plain rfl,
    fun _ => .plain rfl, fun _ => .plain rfl, fun _ _ _ w e => .through w e, fun _ => .plain rfl, fun _ => .plain rfl, fun _ => .plain rfl,
    fun _ => .plain rfl, fun _ => .plain rfl, fun _ => .plain rfl, fun _ => .plain rfl, fun _ => .plain rfl, .plain rfl, fun _ _ e => .through rfl e,
    -- the offload controller
    fun _ _ _ _ _ w e => .through w e, fun e => .through rfl e, .plain rfl, fun e => .through rfl e, fun _ e => .through rfl e, .plain rfl,
    fun _ _ w e => .through w e, fun _ _ w e => .through w e, fun _ w e => .through w e, fun _ w e => .through w e, fun _ w e => .through w e,
    fun _ w e => .through w e, fun _ w e => .through w e, fun _ w e => .through w e, fun _ w e => .through w e, fun _ w e => .through w e,
    fun _ w e => .through w e, fun _ w e => .through w e, fun _ w e => .through w e, fun _ _ w e => .through w e, fun _ _ w e => .through w e,
    fun _ _ w e => .through w e, fun _ _ w e => .through w e, fun _ _ w e => .through w e, fun _ _ _ w e => .through w e, .plain rfl,
    -- SDI and Belvedere
    fun _ _ w e => .through w e, fun _ _ w e => .through w e, fun _ _ w => .plain w, fun _ e => .through rfl e, fun _ e => .through rfl e,
    fun _ => .plain rfl, fun _ _ _ _ w e => .through w e, fun _ _ => .plain rfl, fun _ _ _ w e => .through w e, fun _ _ => .plain rfl,
    -- the Sundial
    .plain rfl, .plain rfl, .plain rfl, .plain rfl, fun _ _ e => .through rfl e, .plain rfl, fun _ => .plain rfl, .plain rfl, fun _ => .plain rfl,
    fun e => .through rfl e, fun _ e => .through rfl e,
    -- Ethernet, ST 2110 and the Bandstand
    fun _ _ e => .through rfl e, fun _ _ w => .plain w, fun _ => .plain rfl, fun _ w => .plain w, fun _ e => .through rfl e,
    fun _ _ _ e => .through rfl e, fun _ _ _ w e => .through w e, fun _ => .plain rfl, fun _ _ _ w e => .through w e, fun _ => .plain rfl,
    fun _ _ => .plain rfl,
    -- the memory channels
    fun _ _ e => .through rfl e, fun _ _ e => .through rfl e, .plain rfl, fun _ w => .plain w, fun _ w e => .through w e,
    -- the Arbour
    fun _ => .plain rfl, .plain rfl, fun _ w e => .through w e, fun _ => .plain rfl,
    -- the Dovecote, PWM and the Icehouse
    fun _ w => .plain w, fun _ w => .plain w, fun _ => .plain rfl, fun _ => .plain rfl, fun _ _ _ e => .through rfl e, fun _ _ e => .through rfl e,
    .plain rfl, .plain rfl, fun e => .through rfl e, .plain rfl, fun _ => .plain rfl,
    -- the Falilan Link and the hierarchy
    fun _ => .plain rfl, fun _ _ e => .through rfl e, fun _ => .plain rfl, fun _ _ w e => .through w e, fun _ w => .plain w,
    fun _ _ _ _ _ e => .through rfl e, fun _ _ e => .through rfl e, fun _ _ _ e => .through rfl e, fun _ _ _ _ _ e => .through rfl e,
    fun _ e => .through rfl e, fun e => .through rfl e, fun e => .through rfl e, fun _ _ _ _ w e => .through w e, fun _ _ w e => .through w e,
    fun _ => .plain rfl, .plain rfl, .plain rfl, fun _ _ w => .plain w, .plain rfl,
    -- power, reset and boot
    fun _ => .plain rfl, .plain rfl, .plain rfl, .plain rfl, fun _ => .plain rfl, fun _ => .plain rfl, .plain rfl, .plain rfl, fun _ => .plain rfl,
    fun _ => .plain rfl, fun _ _ _ w => .plain w, .plain rfl, .plain rfl, .plain rfl, fun _ => .plain rfl, .plain rfl, fun _ => .plain rfl,
    .plain rfl, fun _ => .plain rfl, fun _ => .plain rfl, .plain rfl, fun _ _ => .plain rfl, fun _ _ => .plain rfl, fun _ => .plain rfl, .plain rfl,
    fun _ => .plain rfl, fun _ e => .through rfl e⟩

end Sys2Proof.Machine

/-! Idle steps: time passes, and SCHEDULED groups meet their time (R43, R44, R248). -/

namespace Sys2Proof.Machine

/-! ### The network leaves time, the groups and the queue (R264, R268) -/

/-- What the passing of time moves, and the queue of commands. -/
def State.clockwork (s : State) : PtpTime × Nat × List Nat × List Nat × List Instr := (s.time, s.elapsed, s.due, s.scheduled, s.pending)

theorem State.sendControl_clockwork (s : State) (port flags ofs : Nat) (b : List Byte) : (s.sendControl port flags ofs b).clockwork = s.clockwork := by
  unfold State.sendControl
  dsimp only
  split
  · split <;> split <;> rfl
  · split <;> rfl

theorem State.takeLine_clockwork (s : State) (port len : Nat) : (s.takeLine port len).clockwork = s.clockwork := rfl

theorem State.emit_clockwork (s : State) (o : Output) : (s.emit o).clockwork = s.clockwork := rfl

theorem State.bump_clockwork (s : State) (a : RegAddr) : (s.bump a).clockwork = s.clockwork := rfl

theorem State.withNet_clockwork (s : State) (n : Net) : ({ s with net := n } : State).clockwork = s.clockwork := rfl

theorem State.leaveEgress_clockwork (s : State) (f : EgressFrame) : (s.leaveEgress f).clockwork = s.clockwork := by
  unfold State.leaveEgress
  dsimp only
  rw [State.takeLine_clockwork]
  split
  · rw [State.emit_clockwork, State.bump_clockwork, State.withNet_clockwork]
  · split
    · rw [State.withNet_clockwork, State.sendControl_clockwork, State.withNet_clockwork]
    · rw [State.sendControl_clockwork, State.withNet_clockwork]

theorem State.loseEgress_clockwork (s : State) (port : Nat) : (s.loseEgress port).clockwork = s.clockwork := by
  unfold State.loseEgress
  dsimp only
  split
  · split <;> rfl
  · rfl

theorem State.serveEgress_clockwork (s : State) (port : Fin 2) : (s.serveEgress port).clockwork = s.clockwork := by
  unfold State.serveEgress
  split
  · rfl
  · split
    · exact s.loseEgress_clockwork port
    · split
      · rfl
      · split
        · exact s.leaveEgress_clockwork _
        · rfl

theorem State.handCopy_clockwork (slot : ControlSlot) (own : Nat) (b : List Byte) (s : State) (port : Nat) :
    (State.handCopy slot own b s port).clockwork = s.clockwork := by
  unfold State.handCopy
  dsimp only
  split <;> rfl

theorem State.handSlot_clockwork (s : State) : s.handSlot.clockwork = s.clockwork := by
  unfold State.handSlot
  dsimp only
  split
  · rfl
  · split
    · rfl
    · split <;> exact foldl_keeps State.clockwork _ (State.handCopy_clockwork _ _ _) _ s

theorem State.storeSeen_clockwork (s : State) (addr : Nat) (bs : List Byte) : (s.storeSeen addr bs).clockwork = s.clockwork := by
  unfold State.storeSeen State.outOfRange
  split <;> rfl

theorem State.pumpControl_clockwork (s : State) : s.pumpControl.clockwork = s.clockwork := by
  unfold State.pumpControl
  split
  · rfl
  · split
    · split
      · dsimp only
        split
        · exact s.storeSeen_clockwork _ _
        · rfl
      · rfl
    · split
      · rfl
      · exact s.handSlot_clockwork

/-- Serving the egresses and the transmit ring takes no time, reaches no apply point and runs no command. -/
theorem State.serveNetwork_clockwork (s : State) : s.serveNetwork.clockwork = s.clockwork := by
  unfold State.serveNetwork
  split
  · rfl
  · rw [State.pumpControl_clockwork, State.serveEgress_clockwork, State.serveEgress_clockwork, State.pumpControl_clockwork]

/-- With nothing waiting to leave, there is nothing to serve. -/
theorem State.serveNetwork_quiet {s : State} (hegress : s.net.egress = []) (hctl : s.net.ctlOut = none)
    (hring : Fld.ETH0.CTL_TX_RD s.regs = Fld.ETH0.CTL_TX_WR s.regs) : s.serveNetwork = s := by
  unfold State.serveNetwork
  rw [hegress, hctl, hring, beq_self_eq_true]
  rfl

/-! ### A beat (R44, R248) -/

/-- The count of nanoseconds runs on by what is added, across the second. -/
theorem PtpTime.count_add (t : PtpTime) (n : Nat) : (t.add n).count = t.count + n := by
  unfold PtpTime.add PtpTime.count
  dsimp only
  omega

/-- A SCHEDULED group whose time is now becomes due, and waits no longer. -/
theorem State.fireScheduled_reached {s : State} {g : Nat} (hg : g ∈ s.scheduled) (hnow : s.updTime g = s.now) (old : Nat) (forward : Bool) :
    g ∈ (s.fireScheduled old false forward).due ∧ g ∉ (s.fireScheduled old false forward).scheduled := by
  have hreached : g ∈ s.scheduled.filter (fun g => s.updTime g == s.now) := List.mem_filter.mpr ⟨hg, beq_iff_eq.mpr hnow⟩
  refine ⟨List.mem_append_right _ hreached, fun hstays => ?_⟩
  have hnot := (List.mem_filter.mp hstays).2
  rw [List.contains_iff_mem.mpr hreached, Bool.not_true, Bool.and_false] at hnot
  exact Bool.false_ne_true hnot

/-- A beat while the Sundial domain runs. -/
theorem State.passBeat_running {s : State} (h : ClockDomain.sundial ∉ s.stopped) :
    s.passBeat = ({ s with time := s.time.add 2, elapsed := s.elapsed + 2 } : State).fireScheduled s.now false true := by
  unfold State.passBeat
  exact if_neg (fun hc => h (List.contains_iff_mem.mp hc))

/-- A beat while the Sundial domain is stopped. -/
theorem State.passBeat_stopped {s : State} (h : ClockDomain.sundial ∈ s.stopped) : s.passBeat = { s with elapsed := s.elapsed + 2 } := by
  unfold State.passBeat
  exact if_pos (List.contains_iff_mem.mpr h)

/-- A beat moves time and groups, and nothing else. -/
theorem State.passBeat_eq (s : State) : s.passBeat =
    { s with time := s.passBeat.time, elapsed := s.passBeat.elapsed, due := s.passBeat.due, scheduled := s.passBeat.scheduled } := by
  by_cases h : ClockDomain.sundial ∈ s.stopped
  · rw [State.passBeat_stopped h]
  · rw [State.passBeat_running h]; rfl

/-! ### Idle steps -/

theorem step_idle {s : State} (h : s.pending = []) : step s = .next s.passBeat.serveNetwork.settle := by
  rw [step_nil h, idle_eq]

/-- Settling takes no time, reaches no apply point and runs no command. -/
theorem State.settle_clockwork (s : State) : s.settle.clockwork = s.clockwork := by
  unfold State.clockwork
  rw [State.settle_time, State.settle_elapsed, State.settle_due, State.settle_scheduled, State.settle_pending]

/-- After an idle step time, the groups and the queue are those of the beat. -/
theorem State.idle_clockwork (s : State) : s.passBeat.serveNetwork.settle.clockwork = s.passBeat.clockwork :=
  (State.settle_clockwork _).trans s.passBeat.serveNetwork_clockwork

/-- Settles O2: an idle step is a beat, and serving the network and settling leave what the beat moved. -/
theorem idleLetsTimePass : Obligations.IdleLetsTimePass := by
  unfold Obligations.IdleLetsTimePass
  intro s hp
  have hclock := s.idle_clockwork
  unfold State.clockwork at hclock
  simp only [Prod.mk.injEq] at hclock
  obtain ⟨htime, helapsed, hdue, hscheduled, hpending⟩ := hclock
  refine ⟨fun hrun => ⟨_, step_idle hp, ?_⟩, fun hstop => ⟨_, step_idle hp, ?_⟩, fun hegress hctl hring => ⟨_, step_idle hp, ?_⟩⟩
  · unfold State.now
    rw [htime, helapsed, hpending, hdue, hscheduled, State.passBeat_running hrun]
    exact ⟨PtpTime.count_add s.time 2, rfl, hp, fun g hg hnow =>
      State.fireScheduled_reached (s := { s with time := s.time.add 2, elapsed := s.elapsed + 2 }) hg hnow s.now true⟩
  · rw [htime, helapsed, hpending, hdue, hscheduled, State.passBeat_stopped hstop]
    exact ⟨rfl, rfl, hp, rfl, rfl⟩
  · have hbeat := s.passBeat_eq
    rw [State.serveNetwork_quiet (by rw [hbeat]; exact hegress) (by rw [hbeat]; exact hctl) (by rw [hbeat]; exact hring),
      State.settle_regs, State.settle_dram, State.settle_net, hbeat]
    exact ⟨rfl, rfl, rfl⟩

end Sys2Proof.Machine

/-! Pending groups keep their settings (R45). -/

namespace Sys2Proof.Machine

/-! ### Where a register write lands -/

/-- A write of a register that checks or does something beside storing, and is neither a command register nor a port. -/
theorem regWrite_controlHeld {s u : State} {master page off v : Nat} (hp : implemented page = true) (h40 : 0x40 ≤ off)
    (hcmd : s.commandWrite master page off v = none) (hport : s.portWrite page off (BitVec.ofNat 32 v) = none)
    (hheld : s.controlHeld master page off v = some u) : regWrite master page off v s = u := by
  unfold regWrite State.heldWrite
  rw [hp, Bool.not_true, if_neg Bool.false_ne_true, if_neg (by omega), hcmd, hport]
  dsimp only [Option.or]
  rw [if_neg (by omega), hheld]
  rfl

/-- The filter of remote writes lets the device's own masters through (R334). -/
theorem State.refusesRemote_local (s : State) {master : Nat} (h : master < 0x40) (page off : Nat) : s.refusesRemote master page off = false := by
  unfold State.refusesRemote
  rw [decide_eq_false (by omega : ¬ 0x40 ≤ master), Bool.and_false, Bool.false_and, Bool.false_and]

/-- UPD_ARM and UPD_CANCEL are the command registers of page 0x00. -/
theorem State.commandWrite_global (s : State) {off : Nat} (ha : off ≠ 0x040) (hc : off ≠ 0x044) (master v : Nat) :
    s.commandWrite master 0x00 off v = none := by
  simp [State.commandWrite, cntOffset, State.controlCommand, State.rawCommand, State.mediaCommand, ha, hc]

/-! ### The settings of a group as registers -/

/-- The n-th register of a row. -/
theorem nthAt_at {first stride count n : Nat} (hs : 0 < stride) (h : n < count) : nthAt first stride count (first + stride * n) = some n := by
  unfold nthAt
  have hdiff : first + stride * n - first = stride * n := by omega
  rw [hdiff, Nat.mul_mod_right, Nat.mul_div_cancel_left _ hs, if_pos ⟨by omega, rfl, h⟩]

/-- An offset between two registers of a row is none of them. -/
theorem nthAt_between {first stride count n r : Nat} (hr : 0 < r) (h : r < stride) : nthAt first stride count (first + r + stride * n) = none := by
  unfold nthAt
  have hdiff : first + r + stride * n - first = r + stride * n := by omega
  rw [hdiff, Nat.add_mul_mod_self_left, Nat.mod_eq_of_lt h, if_neg (fun hc => by omega)]

/-- The register offset of a group's setting. -/
def settingOffset : UpdReg → Nat
  | .mode => 0x80
  | .timeLo => 0x84
  | .timeHi => 0x88

theorem State.controlHeld_setting (s : State) (master : Nat) (r : UpdReg) {g : Nat} (hg : g < 16) (v : Nat) :
    s.controlHeld master 0x00 (settingOffset r + 0x10 * g) v = some (updConfigWrite g r (BitVec.ofNat 32 v) s) := by
  have hself (first : Nat) : nthAt first 0x10 16 (first + 0x10 * g) = some g := nthAt_at (by decide) hg
  have hbetween (first d : Nat) (hd : 0 < d ∧ d < 0x10) : nthAt first 0x10 16 (first + d + 0x10 * g) = none := nthAt_between hd.1 hd.2
  unfold State.controlHeld
  rw [if_pos rfl]
  cases r with
  | mode => rw [settingOffset, hself 0x80]; rfl
  | timeLo => rw [settingOffset, hbetween 0x80 4 (by decide), hself 0x84]; rfl
  | timeHi => rw [settingOffset, hbetween 0x80 8 (by decide), hbetween 0x84 4 (by decide), hself 0x88]; rfl

/-- A register write of a group's setting by one of the device's own masters is UPD_CONFIG_WRITE. -/
theorem registerWrite_setting (s : State) {master g : Nat} (hm : master < 0x40) (hg : g < 16) (r : UpdReg) (v : Word) :
    registerWrite master 0x00 (settingOffset r + 0x10 * g) v s = updConfigWrite g r v s := by
  have h80 : 0x80 ≤ settingOffset r := by cases r <;> decide
  rw [registerWrite_passed (s.refusesRemote_local hm _ _),
    regWrite_controlHeld rfl (by omega) (s.commandWrite_global (by omega) (by omega) _ _) rfl (s.controlHeld_setting master r hg _),
    BitVec.ofNat_toNat, BitVec.setWidth_eq]

theorem does_registerWrite_setting {s : State} {master : Nat} {g : Fin 16} (hm : master < 0x40) (hpend : s.groupPending g = true) (r : UpdReg) (v : Word) :
    Does (.registerWrite master 0x00 (settingOffset r + 0x10 * g) v) s s := by
  have hlt : settingOffset r + 0x10 * g.val < 4096 := by cases r <;> simp only [settingOffset] <;> omega
  have hal : (settingOffset r + 0x10 * g.val) % 4 = 0 := by cases r <;> simp only [settingOffset] <;> omega
  exact Does.of_answer rfl (wellFormed_registerWrite v (by omega) (by decide) hlt hal)
    ((registerWrite_setting s hm g.isLt r v).trans (updConfigWrite_pending hpend r v))

/-! ### Arming pending groups -/

theorem State.armGroups_pending {s : State} {l : List Nat} (h : ∀ g ∈ l, s.groupPending g = true) : l.foldl State.armGroup s = s := by
  induction l with
  | nil => rfl
  | cons g rest ih =>
    rw [List.forall_mem_cons] at h
    rw [List.foldl_cons, State.armGroup_pending h.1]
    exact ih h.2

theorem updArm_pending {s : State} {mask : Nat} (h : ∀ g, g < 16 → bitOf mask g = true → s.groupPending g = true) : updArm mask s = s := by
  rw [updArm_eq]
  refine State.armGroups_pending fun g hg => ?_
  obtain ⟨hlt, hbit⟩ := List.mem_filter.mp hg
  exact h g (List.mem_range.mp hlt) hbit

/-! ### The settings at reset -/

theorem reset_updMode (g : Fin 16) : State.reset.updMode g = 0 := by revert g; decide +kernel

theorem reset_updGroup {page : Nat} (h : implemented page = true) : Fld.HDR.UPD_GROUP State.reset.regs page = 0 := by
  have hall : ∀ p ∈ implementedPages, Fld.HDR.UPD_GROUP State.reset.regs p = 0 := by decide +kernel
  exact hall page (List.contains_iff_mem.mp h)

/-- Settles O10: each write is UPD_CONFIG_WRITE, which a pending group ignores, and arming goes group by group. -/
theorem pendingGroupsKeepTheirSettings : Obligations.PendingGroupsKeepTheirSettings := by
  unfold Obligations.PendingGroupsKeepTheirSettings
  refine fun s g => ⟨fun r v hpend => ?_, fun m v hm hpend => ?_, fun m hpend => ?_, reset_updMode g, fun p hp => reset_updGroup hp⟩
  · exact Does.of_answer rfl rfl (updConfigWrite_pending hpend r v)
  · exact ⟨does_registerWrite_setting hm hpend .mode v, does_registerWrite_setting hm hpend .timeLo v, does_registerWrite_setting hm hpend .timeHi v⟩
  · exact Does.of_answer rfl rfl (updArm_pending hpend)

end Sys2Proof.Machine

/-! The Gatehouse: its tables at reset, what a write of them does, and what LOCK protects (R50 to R53). -/

namespace Sys2Proof.Machine

/-! ### The tables at reset (R53) -/

/-- The entry of master 0x080 stands first in its word, that of master 0x082 third. -/
theorem bits_entry (i : Fin 16) : bits 0x3 (2 * i) 2 = (if i.val = 0 then 3 else 0) ∧
    bits 0x30 (2 * i) 2 = (if i.val = 2 then 3 else 0) ∧ bits 0 (2 * i) 2 = 0 := by
  revert i; decide

/-- Every entry of the grant table at reset. -/
theorem reset_gthEntry (target : Nat) {master : Nat} (h : master < 512) : State.reset.gthEntry target master =
    if master = 0x080 ∧ target < 0x100 ∨ master = 0x082 ∧ 0x110 ≤ target ∧ target < 0x120 then 3 else 0 := by
  obtain ⟨hhost, hns, hnone⟩ := bits_entry ⟨master % 16, by omega⟩
  have hword : (target * 32 + master / 16) % 32 = master / 16 := by omega
  have htarget : (target * 32 + master / 16) / 32 = target := by omega
  have hentry : State.reset.gthEntry target master = bits (gthReset (target * 32 + master / 16)).toNat (2 * (master % 16)) 2 := rfl
  rw [hentry]
  unfold gthReset
  rw [hword, htarget]
  by_cases h8 : master / 16 = 8
  · rw [if_pos h8]
    by_cases hpage : target < 0x100
    · rw [if_pos hpage]
      refine hhost.trans (if_congr ?_ rfl rfl)
      dsimp only
      omega
    · rw [if_neg hpage]
      by_cases hn : 0x110 ≤ target ∧ target < 0x120
      · rw [if_pos hn]
        refine hns.trans (if_congr ?_ rfl rfl)
        dsimp only
        omega
      · rw [if_neg hn, if_neg (by omega)]
        exact hnone
  · rw [if_neg h8, if_neg (by omega)]
    exact hnone

/-- Every window is off at reset: its limit lies below its base. -/
theorem reset_windowsOf (unit : Nat) : State.reset.windowsOf unit = [] := by
  have hoff : ∀ n ∈ List.range 16, Fld.GTH.WIN_LIMIT State.reset.regs n < Fld.GTH.WIN_BASE State.reset.regs n := by decide +kernel
  refine List.filter_eq_nil_iff.mpr fun n hn hcover => ?_
  rw [Bool.and_eq_true, decide_eq_true_eq, decide_eq_true_eq] at hcover
  have := hoff n hn
  omega

/-- A master with both bits of its entry set is granted both directions. -/
theorem State.grants_of_entry {s : State} {target master : Nat} (h : s.gthEntry target master = 3) (isWrite : Bool) :
    s.grants target master isWrite = true := by
  unfold State.grants
  rw [h, Bool.or_eq_true]
  cases isWrite <;> exact Or.inr rfl

/-! ### Writing the tables (R53) -/

/-- REF_RESTART is the command register of the Gatehouse's page. -/
theorem State.commandWrite_gatehouse (s : State) {off : Nat} (h : off ≠ 0x0E8) (master v : Nat) : s.commandWrite master 0x02 off v = none := by
  simp [State.commandWrite, cntOffset, State.controlCommand, State.rawCommand, State.mediaCommand, h]

theorem gthTblWrite_unlocked {s : State} (hlock : s.locked = false) (ht : Fld.GTH.TBL_SEL_TARGET s.regs < 0x130) (v : Nat) :
    gthTblWrite v s = { s with gth := SMap.set gthReset s.gth (Fld.GTH.TBL_SEL_TARGET s.regs * 32 + Fld.GTH.TBL_SEL_WORD s.regs) (BitVec.ofNat 32 v) } := by
  unfold gthTblWrite
  dsimp only
  rw [hlock, decide_eq_false (by omega : ¬ 0x130 ≤ Fld.GTH.TBL_SEL_TARGET s.regs)]
  rfl

theorem qpbWrite_unlocked {s : State} (hlock : s.locked = false) (hlow : 1 ≤ Fld.GTH.QPB_SEL s.regs) (hhigh : Fld.GTH.QPB_SEL s.regs ≤ 512) (v : Nat) :
    qpbWrite v s = { s with qpb := SMap.set qpbReset s.qpb (Fld.GTH.QPB_SEL s.regs) (v % 512) } := by
  unfold qpbWrite
  dsimp only
  rw [hlock, decide_eq_false (by omega : ¬ Fld.GTH.QPB_SEL s.regs = 0), decide_eq_false (by omega : ¬ 512 < Fld.GTH.QPB_SEL s.regs)]
  rfl

/-- A write of TBL_DATA or QPB_DATA by one of the device's own masters is a write of the selected entries or binding. -/
theorem registerWrite_tblData (s : State) {master : Nat} (hm : master < 0x40) (v : Word) : registerWrite master 0x02 0x048 v s = gthTblWrite v.toNat s := by
  rw [registerWrite_passed (s.refusesRemote_local hm _ _)]
  exact regWrite_controlHeld rfl (by decide) (s.commandWrite_gatehouse (by decide) _ _) rfl rfl

theorem registerWrite_qpbData (s : State) {master : Nat} (hm : master < 0x40) (v : Word) : registerWrite master 0x02 0x058 v s = qpbWrite v.toNat s := by
  rw [registerWrite_passed (s.refusesRemote_local hm _ _)]
  exact regWrite_controlHeld rfl (by decide) (s.commandWrite_gatehouse (by decide) _ _) rfl rfl

/-- The sixteen entries of one word of the table. -/
theorem State.gthEntry_word (s : State) (target word : Nat) {i : Nat} (hi : i < 16) :
    s.gthEntry target (16 * word + i) = bits (SMap.get gthReset s.gth (target * 32 + word)).toNat (2 * i) 2 := by
  have hdiv : (16 * word + i) / 16 = word := by omega
  have hmod : (16 * word + i) % 16 = i := by omega
  unfold State.gthEntry
  rw [hdiv, hmod]

/-- Settles O8: the whole grant table at reset is one formula, and a write of a data register is a write of the place it selects. -/
theorem resetTables : Obligations.ResetTables := by
  unfold Obligations.ResetTables
  refine ⟨fun page hp => ?_, fun ns hn => ?_, fun target master _ hm hhost hadm => ?_, reset_windowsOf, fun q _ _ => ⟨rfl, fun ns w hn => ?_⟩,
    fun s v target word q hlock htarget hword hq => ⟨fun ht => ?_, fun hlow hhigh => ?_⟩⟩
  · rw [reset_gthEntry page (by decide), if_pos (Or.inl ⟨rfl, hp⟩)]
  · rw [reset_gthEntry _ (by decide), if_pos (Or.inr ⟨rfl, by omega, by omega⟩)]
  · rw [reset_gthEntry target hm, if_neg (by omega)]
  · exact State.grants_of_entry ((reset_gthEntry (0x110 + ns) (show 0x082 < 512 by decide)).trans (if_pos (Or.inr ⟨rfl, by omega, by omega⟩))) w
  · subst htarget hword
    refine Completes.of_answer (congrArg (answer (.registerWrite 1 0x02 0x048 v))
      ((registerWrite_tblData s (by decide) v).trans (gthTblWrite_unlocked hlock ht _))) rfl ?_
    rw [State.settle_qpb, State.settle_regs]
    refine ⟨fun i hi => ?_, rfl, rfl⟩
    rw [State.gthEntry_word _ _ _ hi, State.settle_gth, SMap.get_set_same, BitVec.ofNat_toNat, BitVec.setWidth_eq]
  · subst hq
    refine Completes.of_answer (congrArg (answer (.registerWrite 1 0x02 0x058 v))
      ((registerWrite_qpbData s (by decide) v).trans (qpbWrite_unlocked hlock hlow hhigh _))) rfl ?_
    unfold State.queueMaster
    rw [State.settle_qpb, State.settle_gth, State.settle_regs]
    exact ⟨SMap.get_set_same _ _ _ _, rfl, rfl⟩

/-! ### What LOCK protects (R53) -/

/-- The registers that LOCK protects beside LOCK itself: F0_MID, ADM_MID and the bounds of the windows. -/
def Guarded (a : Nat) : Prop := a = 0x204C ∨ a = 0x2050 ∨ (0x2060 ≤ a ∧ a ≤ 0x20DC)

theorem guarded_winBase {n : Nat} (h : n < 16) : Guarded (Adr.GTH.WIN_BASE n) := by
  have haddr : Guarded (0x2060 + 0x8 * n) := by unfold Guarded; omega
  exact haddr

theorem guarded_winLimit {n : Nat} (h : n < 16) : Guarded (Adr.GTH.WIN_LIMIT n) := by
  have haddr : Guarded (0x2064 + 0x8 * n) := by unfold Guarded; omega
  exact haddr

/-- What LOCK protects is as it was, and LOCK stands. -/
structure GuardsKept (s t : State) : Prop where
  gth : t.gth = s.gth
  qpb : t.qpb = s.qpb
  locked : t.locked = true
  regs : ∀ a, Guarded a → t.regs.word a = s.regs.word a

theorem GuardsKept.refl {s : State} (h : s.locked = true) : GuardsKept s s := ⟨rfl, rfl, h, fun _ _ => rfl⟩

/-- A change of registers that LOCK does not protect. -/
theorem GuardsKept.of_frame {s t : State} {a : Nat} (hlock : s.locked = true) (h : SameRegsBut [a] s t) (ha : ¬ Guarded a) (hl : a ≠ 0x2040)
    (hg : t.gth = s.gth) (hq : t.qpb = s.qpb) : GuardsKept s t where
  gth := hg
  qpb := hq
  locked := by
    unfold State.locked Fld.GTH.LOCK at *
    rw [h.fld (by simpa using hl.symm)]
    exact hlock
  regs b hb := h b (by rintro hmem; exact ha (List.mem_singleton.mp hmem ▸ hb))

/-- Writing LOCK sets it or leaves the state. -/
theorem GuardsKept.gthLock {s : State} (h : s.locked = true) (v : Nat) : GuardsKept s (gthLock v s) := by
  unfold Machine.gthLock
  split
  · refine ⟨rfl, rfl, ?_, fun a ha => ?_⟩
    · unfold State.locked Fld.GTH.LOCK
      rw [State.setReg_regs, RegFile.fld_putN_same]
      rfl
    · have hne : a ≠ 0x2040 := by unfold Guarded at ha; omega
      rw [State.setReg_regs, RegFile.word_putN, if_neg hne]
  · exact .refl h

/-- A write of a page's header changes the named register at most, and no table; on pages 0x05 and 0x30 the end of HOLD takes up what waited. -/
theorem State.headerWrite_frame (s : State) (master v : Nat) {page off : Nat} (hp : implemented page = true) (h05 : page ≠ 0x05) (h30 : page ≠ 0x30) :
    SameRegsBut [page * 4096 + off] s (s.headerWrite master page off v) ∧ (s.headerWrite master page off v).gth = s.gth ∧
      (s.headerWrite master page off v).qpb = s.qpb := by
  by_cases h8 : off = 0x008
  · subst h8
    rw [s.headerWrite_control master page v (Or.inl ⟨h05, h30⟩), updGroupBind_eq]
    split
    · exact ⟨(SameRegsBut.putFld rfl).trans (SameRegsBut.putFld rfl) |>.mono (by simp), rfl, rfl⟩
    · exact ⟨SameRegsBut.putFld rfl, rfl, rfl⟩
  · unfold State.headerWrite
    rw [if_neg h8]
    split
    · rw [kioskSelect_eq s _ hp (Nat.mod_lt _ (by decide))]
      exact ⟨.refl _ rfl, rfl, rfl⟩
    · exact ⟨.storeReg s _ _, State.storeReg_gth _ _ _, State.storeReg_qpb _ _ _⟩

theorem gthTblWrite_locked {s : State} (h : s.locked = true) (v : Nat) : gthTblWrite v s = s := by unfold gthTblWrite; rw [h]; rfl

theorem qpbWrite_locked {s : State} (h : s.locked = true) (v : Nat) : qpbWrite v s = s := by unfold qpbWrite; rw [h]; rfl

/-- A write of any register of the Gatehouse that holds a value, under LOCK. -/
theorem GuardsKept.heldWrite {s : State} (h : s.locked = true) {off : Nat} (h40 : 0x40 ≤ off) (master v : Nat) :
    GuardsKept s (s.heldWrite master 0x02 off v) := by
  unfold State.heldWrite State.controlHeld
  rw [if_neg (by omega), if_neg (by decide), if_pos rfl]
  by_cases hlock : off = 0x040
  · rw [if_pos hlock]; exact .gthLock h v
  rw [if_neg hlock]
  by_cases htbl : off = 0x048
  · rw [if_pos htbl]
    exact (gthTblWrite_locked h v).symm ▸ .refl h
  rw [if_neg htbl]
  by_cases hqpb : off = 0x058
  · rw [if_pos hqpb]
    exact (qpbWrite_locked h v).symm ▸ .refl h
  rw [if_neg hqpb, h]
  by_cases hheld : off = 0x04C ∨ off = 0x050 ∨ (0x060 ≤ off ∧ off ≤ 0x0DC)
  · rw [if_pos hheld]; exact .refl h
  · rw [if_neg hheld]
    refine .of_frame h (.storeReg s (0x02 * 4096 + off) v) ?_ ?_ (State.storeReg_gth _ _ _) (State.storeReg_qpb _ _ _)
    · unfold Guarded; omega
    · omega

/-- A write of any register of the Gatehouse's page, under LOCK. -/
theorem GuardsKept.regWrite {s : State} (h : s.locked = true) (master off v : Nat) : GuardsKept s (regWrite master 0x02 off v s) := by
  by_cases hheader : off < 0x40
  · rw [regWrite_header rfl hheader]
    obtain ⟨hregs, hgth, hqpb⟩ := s.headerWrite_frame master v (off := off) (show implemented 0x02 = true from rfl) (by decide) (by decide)
    exact .of_frame h hregs (by unfold Guarded; omega) (by omega) hgth hqpb
  · unfold Machine.regWrite
    rw [if_neg (by decide), if_neg hheader]
    by_cases hrestart : off = 0x0E8
    · subst hrestart
      exact .of_frame (t := refRestart s) h (a := Adr.GTH.REF_COUNT) (.putN (n := 0) rfl) (by unfold Guarded; decide) (by decide) rfl rfl
    · rw [s.commandWrite_gatehouse hrestart]
      exact .heldWrite h (by omega) master v

theorem GuardsKept.registerWrite {s : State} (h : s.locked = true) (master off : Nat) (v : Word) : GuardsKept s (registerWrite master 0x02 off v s) := by
  cases hr : s.refusesRemote master 0x02 off with
  | true =>
    rw [registerWrite_refused hr]
    exact .of_frame h (a := Adr.HIE.REFUSED) (.putN rfl) (by unfold Guarded; decide) (by decide) rfl rfl
  | false =>
    rw [registerWrite_passed hr]
    exact .regWrite h master off v.toNat

/-- Settles O13: whichever register of the page is written, what LOCK protects is kept. -/
theorem lockHoldsTheGatehouse : Obligations.LockHoldsTheGatehouse := by
  unfold Obligations.LockHoldsTheGatehouse
  intro s master off v hm ho hal hlock
  have hkept := GuardsKept.registerWrite hlock master off v
  have hfld {a : Nat} (ha : Guarded a) (l w : Nat) : (registerWrite master 0x02 off v s).regs.fld a l w = s.regs.fld a l w := by
    unfold RegFile.fld; rw [hkept.regs a ha]
  refine Completes.of_answer rfl (wellFormed_registerWrite v hm (by decide) ho hal) ?_
  unfold State.locked
  rw [State.settle_gth, State.settle_qpb, State.settle_regs]
  exact ⟨hkept.gth, hkept.qpb, hkept.locked, fun n hn => ⟨hfld (guarded_winBase hn) 0 24, hfld (guarded_winLimit hn) 0 24⟩,
    hfld (Or.inl rfl) 0 9, hfld (Or.inr (Or.inl rfl)) 0 9⟩

end Sys2Proof.Machine

/-! The fault collector: taking reports, and retiring records (R55 to R58). -/

namespace Sys2Proof.Machine

/-! ### FC_STAT (R58) -/

theorem State.syncCollector_used (s : State) : Fld.LDG.FC_STAT_USED s.syncCollector.regs = s.records.length % 512 :=
  (RegFile.fld_putFld_beside _ _ _ _ _ _ _ (by decide) (by decide)).trans (RegFile.fld_putFld_same _ _ _ _ _ (by decide))

theorem State.syncCollector_full (s : State) : Fld.LDG.FC_STAT_FULL s.syncCollector.regs = b2n (decide (256 ≤ s.records.length)) % 2 :=
  RegFile.fld_putFld_same _ _ _ _ _ (by decide)

/-! ### Taking reports (R56) -/

theorem faultReport_none {s : State} (h : s.reports = []) : faultReport s = s := by unfold faultReport; rw [h]

theorem faultReport_oldest {s : State} {r : Report} {rest : List Report} (h : s.reports = r :: rest) :
    faultReport s = ({ s with reports := rest } : State).collect r := by unfold faultReport; rw [h]

/-- With every slot taken, a report of a cause not yet lost counts in FC_OVERFLOW. -/
theorem State.collect_overflow {s : State} {r : Report} (h : s.records.find? (fun e => e.2.cause == r.cause) = none) (hfull : freeSlot s.records = none)
    (hlost : s.lost.contains r.cause = false) : (s.collect r).rd Adr.LDG.FC_OVERFLOW = satInc 32 (s.rd Adr.LDG.FC_OVERFLOW) := by
  rw [s.collect_full r h hfull, hlost, if_neg Bool.false_ne_true, State.rd_bump_same]
  rfl

/-! ### Retiring (R57) -/

theorem retire_none {s : State} (h : s.records.find? (fun e => e.1 == Fld.LDG.FC_SLOT s.regs) = none) : retire s = s := by unfold retire; rw [h]

/-- The state in which records are freed and the faults that `clears` names are no longer held, before FC_STAT shows it. -/
def State.freed (s : State) (records : List (Nat × Record)) (clears : Held → Bool) : State :=
  { s with records := records, lost := [], held := s.held.filter (fun h => !clears h) }

theorem retire_slot {s : State} {n : Nat} {rec : Record} (h : s.records.find? (fun e => e.1 == Fld.LDG.FC_SLOT s.regs) = some (n, rec)) :
    retire s = (s.freed (SMap.del s.records n) (fun h => h.event && h.cause == rec.cause)).syncCollector := by
  unfold retire; rw [h]; rfl

theorem retireAll_eq (s : State) : retireAll s = (s.freed [] (·.event)).syncCollector := rfl

theorem State.mem_freed (s : State) (records : List (Nat × Record)) (clears : Held → Bool) (h : Held) :
    h ∈ (s.freed records clears).syncCollector.held ↔ h ∈ s.held ∧ clears h = false := by
  refine List.mem_filter.trans (and_congr_right fun _ => ?_)
  rw [Bool.not_eq_true']

/-- Settles O14: each case of `collect`, then each command through the state it frees. -/
theorem faultCollector : Obligations.FaultCollector := by
  unfold Obligations.FaultCollector
  refine ⟨fun s => ⟨fun h => ?_, fun r rest h => ?_, fun r n rec h => ?_, fun r n h hfree => ?_, fun r h hfull => ⟨?_, fun hlost => ?_⟩⟩,
    fun s => ⟨fun n rec h => ?_, fun h => ?_, ?_, ?_⟩⟩
  · exact Does.of_answer rfl rfl (faultReport_none h)
  · exact Does.of_answer rfl rfl (faultReport_oldest h)
  · rw [s.collect_known r n rec h]
    exact ⟨rfl, rfl, rfl⟩
  · rw [s.collect_new r n h hfree, State.alertCollector_records, State.alertCollector_held, State.fillSlot_records, State.fillSlot_held]
    exact ⟨rfl, rfl⟩
  · rw [s.collect_full r h hfull]
    split <;> rfl
  · exact State.collect_overflow h hfull hlost
  · refine Completes.of_answer (congrArg (answer .retire) (retire_slot h)) rfl ?_
    rw [State.settle_records, State.settle_held, State.settle_regs, State.settle_dram, State.syncCollector_used]
    refine ⟨rfl, fun x => (s.mem_freed _ _ x).trans (and_congr_right fun _ => ?_), rfl, rfl⟩
    rw [← Bool.not_eq_true, Bool.and_eq_true, beq_iff_eq]
  · exact Does.of_answer rfl rfl (retire_none h)
  · refine Completes.of_answer (congrArg (answer .retireAll) (retireAll_eq s)) rfl ?_
    rw [State.settle_records, State.settle_held, State.settle_regs, State.syncCollector_used, State.syncCollector_full]
    exact ⟨rfl, s.mem_freed _ _, rfl, rfl⟩
  · refine Completes.of_answer (u := restartOverflow s) rfl rfl ?_
    rw [State.settle_rd, State.settle_records, State.settle_held]
    exact ⟨State.rd_setReg_same _ _ _, rfl, rfl⟩

end Sys2Proof.Machine

/-! Remote register access: at its origin, at its target and on its way (R52, R322, R323, R334). -/

namespace Sys2Proof.Machine

/-! ### Where an access stands (R322) -/

section place
variable {s : State} {a : RemoteAccess}

theorem exec_remoteTransaction (h : s.stopped = []) (reply : Option RemoteAnswer) :
    exec (.remoteTransaction a reply) s = answer (.remoteTransaction a reply) (remoteTransaction a reply s) :=
  congrArg (answer _) (throughEdge_running h _)

/-- A device without an ID can only be an access's origin. -/
theorem ownId_origin (h : s.ownId = none ∨ s.ownId = some a.origin) : s.ownId.getD a.origin = a.origin := by
  rcases h with h | h <;> rw [h] <;> rfl

/-- At its origin an access to another device is not at its target. -/
theorem ownId_ne_target (h : s.ownId = none ∨ s.ownId = some a.origin) (hfar : a.target ≠ a.origin) : s.ownId ≠ some a.target := by
  rcases h with h | h <;> rw [h]
  · exact nofun
  · exact fun e => hfar (Option.some.inj e).symm

theorem remoteTransaction_origin (h : s.ownId = none ∨ s.ownId = some a.origin) (reply : Option RemoteAnswer) :
    remoteTransaction a reply s = s.atOrigin a reply := by
  unfold remoteTransaction
  rw [ownId_origin h]
  exact if_pos rfl

theorem remoteTransaction_target (h : s.ownId = some a.target) (hne : a.origin ≠ a.target) (reply : Option RemoteAnswer) :
    remoteTransaction a reply s = s.atTarget a := by
  unfold remoteTransaction
  rw [h]
  exact (if_neg hne).trans (if_pos rfl)

/-- In between, an access goes on and its answer comes back. -/
theorem remoteTransaction_between {d : Nat} (h : s.ownId = some d) (ho : d ≠ a.origin) (ht : d ≠ a.target) (reply : Option RemoteAnswer) :
    remoteTransaction a reply s = match reply with
      | none => s.emit (.remoteForward (s.portTo a.target) a.origin a.target a.k a.isWrite a.page a.off a.value)
      | some (.value w) => s.emit (.remoteAnswer a.origin w none)
      | some (.failed unit code) => s.emit (.remoteAnswer a.origin 0 (some (unit, code))) := by
  unfold remoteTransaction
  rw [h]
  exact (if_neg ho.symm).trans (if_neg ht.symm)

end place

/-! ### At its origin (R52, R322, R323) -/

section origin
variable {s : State} {a : RemoteAccess}

/-- The host's access that the remote window does not grant. -/
theorem State.atOrigin_refused (hk : a.k = 1) (hgrant : s.grants (0x120 + a.target) (Fld.GTH.F0_MID s.regs) a.isWrite = false) (reply : Option RemoteAnswer) :
    s.atOrigin a reply = (s.refuse 0x024 (Fld.GTH.F0_MID s.regs) (0x120 + a.target) a.isWrite).emit (.remoteAnswer a.origin 0 (some (0x024, 0x02))) :=
  if_pos ⟨hk, hgrant⟩

/-- An access to the device itself. -/
theorem State.atOrigin_own (hk : a.k ≠ 1) (hself : s.ownId = some a.target) (reply : Option RemoteAnswer) : s.atOrigin a reply = s.ownAccess a :=
  (if_neg (fun h => hk h.1)).trans (if_pos hself)

/-- An access to another device leaves, or its answer has come. -/
theorem State.atOrigin_far (hgrant : a.k ≠ 1 ∨ s.grants (0x120 + a.target) (Fld.GTH.F0_MID s.regs) a.isWrite = true) (hfar : s.ownId ≠ some a.target)
    (reply : Option RemoteAnswer) : s.atOrigin a reply = match reply with
      | none => s.emit (.remoteForward (s.portTo a.target) a.origin a.target a.k a.isWrite a.page a.off a.value)
      | some (.value w) => s.emit (.remoteAnswer a.origin w none)
      | some (.failed unit code) => s.remoteFailed a unit code := by
  refine (if_neg fun h => ?_).trans (if_neg hfar)
  rcases hgrant with hk | hgrant
  · exact hk h.1
  · rw [hgrant] at h; exact Bool.noConfusion h.2

/-- The Lodge's access to its own device is not checked (R51). -/
theorem State.ownAccess_lodge (h : a.k = 0) : s.ownAccess a =
    (s.localAccess 0 a.isWrite a.page a.off a.value.toNat).2.emit
      (.remoteAnswer a.origin (BitVec.ofNat 32 (s.localAccess 0 a.isWrite a.page a.off a.value.toNat).1) none) := by
  unfold State.ownAccess
  rw [if_pos h]
  rfl

theorem State.localAccess_read (h : a.isWrite = false) (master : Nat) :
    s.localAccess master a.isWrite a.page a.off a.value.toNat = regRead master a.page a.off s := by
  unfold State.localAccess; rw [h]; rfl

theorem State.localAccess_write (h : a.isWrite = true) (master : Nat) :
    s.localAccess master a.isWrite a.page a.off a.value.toNat = (0, regWrite master a.page a.off a.value.toNat s) := by
  unfold State.localAccess; rw [h]; rfl

/-- A failure at the target changes the record of the port towards it, and the origin sees the target's unit. -/
theorem State.remoteFailed_regs (unit code : Nat) : (s.remoteFailed a unit code).regs = s.regs := rfl

theorem State.remoteFailed_held (unit code : Nat) : (s.remoteFailed a unit code).held = s.held := rfl

theorem State.remoteFailed_kiosk (unit code : Nat) : (s.remoteFailed a unit code).flkKiosk (s.portTo a.target) 0x20 =
    some [unit % 2 ^ 12 + a.target % 16 * 2 ^ 16 + code % 2 ^ 8 * 2 ^ 24, remoteMaster a, s.now % 2 ^ 32, s.now / 2 ^ 32] := by
  have hport : (s.remoteFailed a unit code).flkPort (s.portTo a.target) =
      { s.flkPort (s.portTo a.target) with
        failed := [unit % 2 ^ 12 + a.target % 16 * 2 ^ 16 + code % 2 ^ 8 * 2 ^ 24, remoteMaster a, s.now % 2 ^ 32, s.now / 2 ^ 32] } :=
    (State.flkPort_setFlk s _ _ _).trans (if_pos rfl)
  unfold State.flkKiosk
  rw [if_pos rfl, hport]

theorem State.settle_flkKiosk (p sel : Nat) : s.settle.flkKiosk p sel = s.flkKiosk p sel := by
  unfold State.flkKiosk
  rw [State.flkPort_settle]

/-- What was sent last has left once the state is settled. -/
theorem State.mem_settle_emit (o : Output) : o ∈ (s.emit o).settle.outbox := by
  rw [State.settle_outbox]
  exact List.mem_append_left _ (List.mem_append_right _ (List.mem_singleton_self o))

/-- An access that was served leaves its answer, and the registers as serving it left them. -/
theorem State.served_answer (o : Output) : o ∈ (s.emit o).settle.outbox ∧ (s.emit o).settle.regs = s.regs :=
  ⟨State.mem_settle_emit o, by rw [State.settle_regs, State.emit_regs]⟩

theorem State.mem_settle_remoteFailed (unit code : Nat) :
    .remoteAnswer a.origin 0 (some (0xF20 + a.target, code)) ∈ (s.remoteFailed a unit code).settle.outbox := State.mem_settle_emit _

end origin

/-! ### At its target (R51, R322, R334) -/

section target
variable {s : State} {a : RemoteAccess}

theorem remoteMaster_range (a : RemoteAccess) : 0x40 ≤ remoteMaster a ∧ remoteMaster a < 0x80 := by
  unfold remoteMaster; omega

/-- An isolated device refuses every remote write but REJOIN_CMD. -/
theorem State.refusesRemote_isolated (h : s.isolated = true) (ha : ¬ (a.page = 0x54 ∧ a.off = 0x050)) :
    s.refusesRemote (remoteMaster a) a.page a.off = true := by
  obtain ⟨hlow, hhigh⟩ := remoteMaster_range a
  unfold State.refusesRemote
  rw [h, decide_eq_true hlow, decide_eq_true hhigh]
  have hother : (a.page == 0x54 && a.off == 0x050) = false := by
    rw [← Bool.not_eq_true, Bool.and_eq_true, beq_iff_eq, beq_iff_eq]
    exact ha
  rw [hother]
  rfl

/-- A device that is not isolated refuses no remote write for that reason. -/
theorem State.refusesRemote_joined (h : s.isolated = false) (master page off : Nat) : s.refusesRemote master page off = false := by
  unfold State.refusesRemote; rw [h]; rfl

/-- The remote-access filter lets reads pass, and writes where the device is not isolated. -/
theorem State.filter_passes (h : a.isWrite = false ∨ s.isolated = false) : (a.isWrite && s.refusesRemote (remoteMaster a) a.page a.off) = false := by
  rcases h with h | h
  · rw [h, Bool.false_and]
  · rw [State.refusesRemote_joined h, Bool.and_false]

theorem State.atTarget_isolated (hwrite : a.isWrite = true) (h : s.isolated = true) (ha : ¬ (a.page = 0x54 ∧ a.off = 0x050)) :
    s.atTarget a = s.refuseRemote.emit (.remoteAnswer a.origin 0 (some (0x541, 0x21))) := by
  unfold State.atTarget
  rw [hwrite, State.refusesRemote_isolated h ha]
  rfl

theorem State.atTarget_refused (hpass : a.isWrite = false ∨ s.isolated = false) (hgrant : s.grants a.page (remoteMaster a) a.isWrite = false) :
    s.atTarget a = (s.refuse 0x021 (remoteMaster a) a.page a.isWrite).emit (.remoteAnswer a.origin 0 (some (0x021, 0x02))) := by
  unfold State.atTarget
  rw [State.filter_passes hpass, hgrant]
  rfl

theorem State.atTarget_served (hpass : a.isWrite = false ∨ s.isolated = false) (hgrant : s.grants a.page (remoteMaster a) a.isWrite = true) :
    s.atTarget a = (s.localAccess (remoteMaster a) a.isWrite a.page a.off a.value.toNat).2.emit
      (.remoteAnswer a.origin (BitVec.ofNat 32 (s.localAccess (remoteMaster a) a.isWrite a.page a.off a.value.toNat).1) none) := by
  unfold State.atTarget
  rw [State.filter_passes hpass, hgrant]
  rfl

end target

/-! ### What a refusal records (R52) -/

/-- The whole of REF_INFO after a refusal. -/
theorem State.refuse_rd_info (s : State) (sub master target : Nat) (isWrite : Bool) :
    (s.refuse sub master target isWrite).rd Adr.GTH.REF_INFO = refusalInfo master target isWrite := by
  have hinfo := s.refuse_info sub master target isWrite 0 32
  have hlt : refusalInfo master target isWrite < 2 ^ 32 := by cases isWrite <;> simp only [refusalInfo, b2n, Bool.false_eq_true, if_true, if_false] <;> omega
  unfold RegFile.fld bits at hinfo
  rw [Nat.pow_zero, Nat.div_one, Nat.div_one, Nat.mod_mod, Nat.mod_eq_of_lt hlt, Nat.mod_eq_of_lt (BitVec.isLt _)] at hinfo
  exact hinfo

/-- A master and a target in the tables' ranges stand in REF_INFO as they are. -/
theorem refusalInfo_eq {master target : Nat} (hm : master < 512) (ht : target < 512) (isWrite : Bool) :
    refusalInfo master target isWrite = master + target * 2 ^ 16 + b2n isWrite * 2 ^ 31 := by
  unfold refusalInfo
  rw [Nat.mod_eq_of_lt hm, Nat.mod_eq_of_lt ht]

theorem f0Mid_lt (rf : RegFile) : Fld.GTH.F0_MID rf < 512 := bits_lt _ 0 9

/-- What a refused access that answers its origin leaves: the count, the fault, the answer, and every other register and the memory as they were. -/
theorem State.refuse_answer (s : State) (sub master target : Nat) (isWrite : Bool) (o : Output) :
    let t := ((s.refuse sub master target isWrite).emit o).settle
    o ∈ t.outbox ∧ t.rd Adr.GTH.REF_COUNT = satInc 32 (s.rd Adr.GTH.REF_COUNT) ∧ t.rd Adr.GTH.REF_INFO = refusalInfo master target isWrite ∧
      { page := sub / 16, cause := sub, code := 0x02, event := true, unit := sub } ∈ t.held ∧
      SameRegsBut [Adr.GTH.REF_COUNT, Adr.GTH.REF_INFO] s t ∧ t.dram = s.dram := by
  intro t
  have hregs : SameRegsBut [] (s.refuse sub master target isWrite) t := (SameRegsBut.refl [] (State.emit_regs _ _)).settle
  refine ⟨State.mem_settle_emit o, ?_, ?_, ?_, ?_, ?_⟩
  · rw [hregs.rd List.not_mem_nil, State.refuse_count]
  · rw [hregs.rd List.not_mem_nil, State.refuse_rd_info]
  · rw [State.settle_held, State.emit_held]
    exact s.mem_refuse sub master target isWrite
  · exact ((SameRegsBut.refuse s sub master target isWrite).trans hregs).mono (by simp)
  · rw [State.settle_dram, State.emit_dram, State.refuse_dram]

theorem RemoteAccess.target_lt {a : RemoteAccess} (h : a.wellFormed = true) : a.target < 16 := by
  unfold RemoteAccess.wellFormed at h
  simp only [Bool.and_eq_true, decide_eq_true_eq] at h
  obtain ⟨⟨⟨⟨_, htarget⟩, _⟩, _⟩, _⟩ := h
  exact htarget

/-! ### Time-outs (R323) -/

theorem remoteTimeout_elsewhere {s : State} {a : RemoteAccess} {d : Nat} (h : s.ownId = some d) (hne : d ≠ a.origin) : remoteTimeout a s = s := by
  unfold remoteTimeout
  rw [h]
  exact if_neg hne

theorem remoteTimeout_origin {s : State} {a : RemoteAccess} (h : s.ownId = none ∨ s.ownId = some a.origin) :
    remoteTimeout a s = (s.fault (flkUnit (s.portTo a.target)) 0x04).remoteFailed a 0 0x04 := by
  unfold remoteTimeout
  rw [ownId_origin h]
  exact if_pos rfl

/-- Settles O54: each clause is one place of the access and one branch there. -/
theorem remoteRegisterAccess : Obligations.RemoteRegisterAccess := by
  unfold Obligations.RemoteRegisterAccess
  intro s a hrun hwf
  have htarget := RemoteAccess.target_lt hwf
  have hdoes {reply : Option RemoteAnswer} {t : State} (h : remoteTransaction a reply s = t) : Does (.remoteTransaction a reply) s t :=
    Does.of_answer (exec_remoteTransaction hrun reply) hwf h
  have hcompletes {reply : Option RemoteAnswer} {t : State} {p : State → Prop} (h : remoteTransaction a reply s = t) (hp : p t.settle) :
      Completes (.remoteTransaction a reply) s p := Completes.of_answer (exec_remoteTransaction hrun reply) hwf (h ▸ hp)
  refine ⟨fun hid hfar hgrant => ?_, fun reply hid hk hgrant => ?_, fun reply hid hne hwrite hiso hcmd => ?_, fun reply hid hne hpass hgrant => ?_,
    fun reply hid hne hgrant => ?_, fun d hid ho ht => ?_, fun reply hid hself hk => ?_, fun d hid hne => ?_, fun hid => ?_⟩
  · have hstep (reply : Option RemoteAnswer) :=
      (remoteTransaction_origin hid reply).trans (State.atOrigin_far hgrant (ownId_ne_target hid hfar) reply)
    refine ⟨hdoes (hstep none), fun w => hdoes (hstep _), fun unit code hunit hcode => hcompletes (hstep _) ?_⟩
    have hkiosk := State.remoteFailed_kiosk (s := s) (a := a) unit code
    rw [Nat.mod_eq_of_lt hunit, Nat.mod_eq_of_lt hcode, Nat.mod_eq_of_lt htarget] at hkiosk
    rw [State.settle_regs, State.settle_flkKiosk]
    exact ⟨State.mem_settle_remoteFailed unit code, rfl, hkiosk⟩
  · obtain ⟨hsent, hcount, hinfo, hheld, hregs, hdram⟩ :=
      s.refuse_answer 0x024 (Fld.GTH.F0_MID s.regs) (0x120 + a.target) a.isWrite (.remoteAnswer a.origin 0 (some (0x024, 0x02)))
    exact hcompletes ((remoteTransaction_origin hid reply).trans (State.atOrigin_refused hk hgrant reply))
      ⟨hsent, hcount, hinfo.trans (refusalInfo_eq (f0Mid_lt _) (by omega) _), hheld, hregs, hdram⟩
  · refine hcompletes ((remoteTransaction_target hid hne reply).trans (State.atTarget_isolated hwrite hiso hcmd)) ?_
    rw [State.settle_rd, State.settle_held, State.settle_dram]
    exact ⟨s.refuseRemote_rd, s.mem_refuseRemote, State.mem_settle_emit _, (SameRegsBut.putN rfl).settle, rfl⟩
  · obtain ⟨hsent, hcount, _, hheld, hregs, hdram⟩ :=
      s.refuse_answer 0x021 (remoteMaster a) a.page a.isWrite (.remoteAnswer a.origin 0 (some (0x021, 0x02)))
    exact hcompletes ((remoteTransaction_target hid hne reply).trans (State.atTarget_refused hpass hgrant)) ⟨hcount, hheld, hsent, hregs, hdram⟩
  · refine ⟨fun hread => ?_, fun hwrite hjoined => ?_⟩
    · have hserved := State.atTarget_served (Or.inl hread) hgrant
      rw [State.localAccess_read hread] at hserved
      exact hcompletes ((remoteTransaction_target hid hne reply).trans hserved) (State.served_answer _)
    · have hserved := State.atTarget_served (Or.inr hjoined) hgrant
      rw [State.localAccess_write hwrite] at hserved
      exact hcompletes ((remoteTransaction_target hid hne reply).trans hserved) (State.served_answer _)
  · exact ⟨hdoes (remoteTransaction_between hid ho ht none), fun unit code => hdoes (remoteTransaction_between hid ho ht _)⟩
  · have hown := (remoteTransaction_origin (Or.inr hid) reply).trans
      ((State.atOrigin_own (by omega) (hself ▸ hid) reply).trans (State.ownAccess_lodge hk))
    refine ⟨fun hread => ?_, fun hwrite => ?_⟩
    · rw [State.localAccess_read hread] at hown
      exact hcompletes hown (State.served_answer _)
    · rw [State.localAccess_write hwrite] at hown
      exact hcompletes hown (State.served_answer _)
  · exact Does.of_answer rfl hwf (remoteTimeout_elsewhere hid hne)
  · refine Completes.of_answer (congrArg (answer (.remoteTimeout a)) (remoteTimeout_origin hid)) hwf ?_
    rw [State.settle_regs, State.settle_held, State.remoteFailed_regs, State.remoteFailed_held, State.fault_regs]
    exact ⟨State.mem_settle_remoteFailed 0 0x04, rfl, (State.mem_fault _ _ _ _).mpr (Or.inl rfl)⟩

end Sys2Proof.Machine

/-! The state after reset (R53, R59, R70, R74). -/

namespace Sys2Proof.Machine

/-- No page's interrupt condition holds at reset. -/
theorem reset_settled : InterruptsSettled State.reset := by
  unfold InterruptsSettled
  decide +kernel

/-- With nothing admitted the promise of the admission unit is the budget itself. -/
theorem reset_admissionSound : AdmissionSound State.reset := by
  refine ⟨rfl, fun e he => absurd he List.not_mem_nil, by decide +kernel, by decide +kernel, fun op h => ?_⟩
  exact nomatch (show none = some op from h)

/-- No implemented page is enabled at reset. -/
theorem reset_enabled {page : Nat} (h : implemented page = true) : State.reset.enabled page = false := by
  have hall : ∀ p ∈ implementedPages, State.reset.enabled p = false := by decide +kernel
  exact hall page (List.contains_iff_mem.mp h)

/-- Settles O9: the two invariants and the enables by their lemmas, the rest by what the reset state holds. -/
theorem resetState : Obligations.ResetState := by
  unfold Obligations.ResetState
  exact ⟨reset_settled, reset_admissionSound, rfl, by decide +kernel, rfl, rfl, rfl, fun _ => rfl, by decide +kernel, fun _ h => reset_enabled h⟩

end Sys2Proof.Machine

/-! The admission unit: what the check of ADMIT finds, and what ADMIT and RELEASE leave (R64, R69 to R72). -/

namespace Sys2Proof.Machine

/-! ### Reading flows after a store -/

theorem State.flow_setFlow_same (s : State) (i : Nat) (f : Flow) : (s.setFlow i f).flow i = f := SMap.get_set_same _ _ _ _

theorem State.flow_setFlow_other (s : State) {i j : Nat} (h : j ≠ i) (f : Flow) : (s.setFlow i f).flow j = s.flow j :=
  SMap.get_set_other _ _ _ _ _ h

/-! ### The check of ADMIT (R64, R69, R70) -/

/-- Where no pair is bad, every pair fits its resource and the power fits the budget, the check finds no reason. -/
theorem State.admitCheck_of_fits {s : State} {f : Flow} (hbad : f.badPair = none) (hfits : ∀ c ∈ f.pairs, s.used c.1 + c.2 ≤ s.cap c.1)
    (hpow : s.pwrUsed + f.power s.trl.opPower ≤ Fld.TRL.PWR_BUDGET s.regs) : s.admitCheck f = (.none, 0) := by
  have hover : f.pairs.find? (fun c => decide (s.cap c.1 < s.used c.1 + c.2)) = none :=
    List.find?_eq_none.mpr (fun c hc h => (hfits c hc).not_gt (of_decide_eq_true h))
  unfold State.admitCheck
  rw [hbad, hover]
  exact if_neg hpow.not_gt

theorem State.admitCheck_none_iff (s : State) (f : Flow) : (s.admitCheck f).1 = .none ↔
    f.badPair = none ∧ (∀ c ∈ f.pairs, s.used c.1 + c.2 ≤ s.cap c.1) ∧ s.pwrUsed + f.power s.trl.opPower ≤ Fld.TRL.PWR_BUDGET s.regs := by
  constructor
  · exact fun h => State.admitCheck_none (Prod.ext h rfl)
  · rintro ⟨hbad, hfits, hpow⟩
    rw [State.admitCheck_of_fits hbad hfits hpow]

/-! ### ADMIT and RELEASE, outcome by outcome (R70, R72) -/

section outcomes
variable {s : State} {b : Bank}

theorem admitFlow_accepted (hst : (s.flow (s.flowSel b)).st ≠ .admitted) (hcheck : (s.admitCheck (s.flow (s.flowSel b))).1 = .none) :
    admitFlow b s = (s.setFlow (s.flowSel b) { s.flow (s.flowSel b) with
      st := .admitted, tokens := burstOf (s.flow (s.flowSel b)).burst * 16000, filled := s.now }).admStat .none 0 := by
  unfold admitFlow
  dsimp only
  rw [if_neg hst]
  split
  · rfl
  · rename_i hne heq
    rw [heq] at hcheck
    exact absurd hcheck hne

theorem admitFlow_refused (hst : (s.flow (s.flowSel b)).st ≠ .admitted) (hcheck : (s.admitCheck (s.flow (s.flowSel b))).1 ≠ .none) :
    admitFlow b s = (s.setFlow (s.flowSel b) { s.flow (s.flowSel b) with st := .refused }).admStat
      (s.admitCheck (s.flow (s.flowSel b))).1 (s.admitCheck (s.flow (s.flowSel b))).2 := by
  unfold admitFlow
  dsimp only
  rw [if_neg hst]
  split
  · rename_i heq
    exact absurd (congrArg Prod.fst heq) hcheck
  · rename_i heq
    rw [heq]

theorem releaseWith_active {owner : Nat → Bool} (hst : (s.flow (s.flowSel b)).st = .admitted) (howner : owner (s.flow (s.flowSel b)).owner = true) :
    releaseWith owner b s = s.admStat .ownerActive 0 := if_pos ⟨hst, howner⟩

theorem releaseWith_idle {owner : Nat → Bool} (howner : owner (s.flow (s.flowSel b)).owner = false) :
    releaseWith owner b s = (s.setFlow (s.flowSel b) { s.flow (s.flowSel b) with st := .free }).admStat .none 0 :=
  if_neg (fun h => Bool.false_ne_true (howner.symm.trans h.2))

end outcomes

/-! ### What an outcome leaves (R70 to R72) -/

/-- An outcome that stores entry `i` and shows a reason leaves every other entry, every register but ADM_STAT and the memory as they were. -/
theorem State.storeFlow_frame (s : State) (i : Nat) (f : Flow) (r : Reason) (res : Nat) :
    let t := ((s.setFlow i f).admStat r res).settle
    t.flow i = f ∧ (∀ j, j ≠ i → t.flow j = s.flow j) ∧ t.rd Adr.TRL.ADM_STAT = (r.code * 2 + res * 16) % 2 ^ 32 ∧
      SameRegsBut [Adr.TRL.ADM_STAT] s t ∧ t.dram = s.dram := by
  refine ⟨?_, fun j hj => ?_, ?_, (SameRegsBut.putN rfl).settle, State.settle_dram _⟩
  · rw [State.settle_flow]; exact s.flow_setFlow_same i f
  · rw [State.settle_flow]; exact s.flow_setFlow_other hj f
  · rw [State.settle_rd]; exact State.rd_setReg_same _ _ _

/-- Settles O20: the check by its equivalence, each outcome of ADMIT and RELEASE by its equation and the frame of a stored entry. -/
theorem admitAndReleaseDecide : Obligations.AdmitAndReleaseDecide := by
  unfold Obligations.AdmitAndReleaseDecide
  refine fun s b => ⟨s.admitCheck_none_iff, fun hst hcheck => ?_, fun hst hcheck => ?_, fun hst howner => ?_, fun _ howner => ?_⟩
  · refine Completes.of_answer (congrArg (answer (.admitFlow b)) (admitFlow_accepted hst hcheck)) rfl ?_
    obtain ⟨hflow, hothers, hstat, hregs, hdram⟩ := s.storeFlow_frame (s.flowSel b) { s.flow (s.flowSel b) with
      st := .admitted, tokens := burstOf (s.flow (s.flowSel b)).burst * 16000, filled := s.now } .none 0
    rw [hflow]
    exact ⟨rfl, rfl, hothers, hstat, hregs, hdram⟩
  · refine Completes.of_answer (congrArg (answer (.admitFlow b)) (admitFlow_refused hst hcheck)) rfl ?_
    obtain ⟨hflow, hothers, hstat, hregs, -⟩ := s.storeFlow_frame (s.flowSel b) { s.flow (s.flowSel b) with st := .refused }
      (s.admitCheck (s.flow (s.flowSel b))).1 (s.admitCheck (s.flow (s.flowSel b))).2
    rw [hflow]
    exact ⟨rfl, hothers, hstat, hregs⟩
  · refine Completes.of_answer (congrArg (answer (.release b)) (releaseWith_active hst howner)) rfl ?_
    rw [State.settle_trl, State.settle_rd]
    exact ⟨rfl, State.rd_setReg_same _ _ _⟩
  · refine Completes.of_answer (congrArg (answer (.release b)) (releaseWith_idle howner)) rfl ?_
    obtain ⟨hflow, hothers, hstat, hregs, -⟩ := s.storeFlow_frame (s.flowSel b) { s.flow (s.flowSel b) with st := .free } .none 0
    rw [hflow]
    exact ⟨rfl, hothers, hstat, hregs⟩

end Sys2Proof.Machine

/-! The sensor front end's serial masters (R99, R367). -/

namespace Sys2Proof.Machine

/-- A command that passes an edge, with a property of its operation's result, while no domain is stopped. -/
theorem Completes.running {c : Instr} {s u : State} {p : State → Prop} (hrun : s.stopped = []) (w : c.wellFormed = true) (e : p u.settle)
    (h : exec c s = answer c (throughEdge c s u) := by rfl) : Completes c s p :=
  .of_answer (h.trans (congrArg (answer c) (throughEdge_running hrun u))) w e

/-- A command that passes an edge and whose operation is known, while no domain is stopped. -/
theorem Does.running {c : Instr} {s u t : State} (hrun : s.stopped = []) (w : c.wellFormed = true) (e : u = t)
    (h : exec c s = answer c (throughEdge c s u) := by rfl) : Does c s t :=
  .of_answer h w ((throughEdge_running hrun u).trans e)

/-! ### Status words -/

theorem State.fld_setReg_same (s : State) (a n l w : Nat) : (s.setReg a n).regs.fld a l w = bits (n % 2 ^ 32) l w := s.regs.fld_putN_same a n l w

theorem State.fld_setFld_same (s : State) (a l w x : Nat) (h : l + w ≤ 32) : (s.setFld a l w x).regs.fld a l w = x % 2 ^ w :=
  s.regs.fld_putFld_same a l w x h

theorem State.fld_setFld_beside (s : State) (a l w x l' w' : Nat) (h : l + w ≤ 32) (hd : l' + w' ≤ l ∨ l + w ≤ l') :
    (s.setFld a l w x).regs.fld a l' w' = s.regs.fld a l' w' := s.regs.fld_putFld_beside a l w x l' w' h hd

theorem SameRegsBut.setReg (s : State) (a n : Nat) : SameRegsBut [a] s (s.setReg a n) := .putN rfl

/-- The fields of a serial master's status word that is not busy: `flags` below bit 8, and the received bytes. -/
theorem serialStat_fields {flags level : Nat} (hflags : flags < 8) (hlevel : level ≤ 64) :
    bits ((flags + level * 2 ^ 8) % 2 ^ 32) 0 1 = flags % 2 ∧ bits ((flags + level * 2 ^ 8) % 2 ^ 32) 1 1 = flags / 2 % 2 ∧
      bits ((flags + level * 2 ^ 8) % 2 ^ 32) 8 7 = level := by
  unfold bits
  omega

/-! ### GO (R99) -/

section go
variable {s : State} {c cmd : Nat}

theorem spiGo_ignored (h : bits cmd 8 1 = 0 ∨ Fld.SFE.SPI_STAT_BUSY s.regs c = 1) : spiGo c cmd s = s := if_pos (by simpa using h)

theorem spiGo_starts (hgo : bits cmd 8 1 = 1) (hdefer : bitOf cmd 9 = false) (hbusy : Fld.SFE.SPI_STAT_BUSY s.regs c = 0) :
    spiGo c cmd s = s.spiStart c cmd (s.spiOf c).deferred := by
  unfold spiGo
  rw [hgo, hbusy, hdefer]; rfl

theorem spiGo_defers (hgo : bits cmd 8 1 = 1) (hdefer : bitOf cmd 9 = true) (hbusy : Fld.SFE.SPI_STAT_BUSY s.regs c = 0) :
    spiGo c cmd s = (s.setSpi c { s.spiOf c with deferred := some cmd }).setFld (Adr.SFE.SPI_STAT c) 1 1 1 := by
  unfold spiGo
  rw [hgo, hbusy, hdefer]; rfl

theorem i2cGo_starts (hgo : bits cmd 8 1 = 1) (hdefer : bitOf cmd 9 = false) (hbusy : Fld.SFE.I2C_STAT_BUSY s.regs c = 0) :
    i2cGo c cmd s = s.i2cStart c cmd (s.i2cOf c).deferred := by
  unfold i2cGo
  rw [hgo, hbusy, hdefer]; rfl

theorem i2cGo_defers (hgo : bits cmd 8 1 = 1) (hdefer : bitOf cmd 9 = true) (hbusy : Fld.SFE.I2C_STAT_BUSY s.regs c = 0) :
    i2cGo c cmd s = (s.setI2c c { s.i2cOf c with deferred := some cmd }).setFld (Adr.SFE.I2C_STAT c) 2 1 1 := by
  unfold i2cGo
  rw [hgo, hbusy, hdefer]; rfl

end go

/-! ### A transaction's start (R99, R100) -/

section start
variable (s : State) (c cmd : Nat) (deferred : Option Nat)

/-- The state as an SPI transaction takes its bytes and shows BUSY, before anything leaves. -/
def State.spiLoaded (s : State) (c cmd : Nat) (deferred : Option Nat) : State :=
  (s.setSpi c { tx := (s.spiOf c).tx.drop (cmdLen (Adr.SFE.SPI_CMD c) cmd), rx := [], deferred := deferred }).setReg
    (Adr.SFE.SPI_STAT c) (1 + 2 * b2n deferred.isSome)

/-- The state as an I2C transaction takes its bytes and shows BUSY, before anything leaves. -/
def State.i2cLoaded (s : State) (c cmd : Nat) (deferred : Option Nat) : State :=
  (s.setI2c c { tx := if bitOf cmd 7 then (s.i2cOf c).tx else (s.i2cOf c).tx.drop (cmdLen (Adr.SFE.I2C_CMD c) cmd), rx := [],
                deferred := deferred }).setReg (Adr.SFE.I2C_STAT c) (1 + 4 * b2n deferred.isSome)

theorem State.spiStart_eq : ∃ out, s.spiStart c cmd deferred = { s.spiLoaded c cmd deferred with outbox := out } := by
  by_cases hpins : s.sns.control = true
  · exact ⟨_, if_pos hpins⟩
  · exact ⟨_, if_neg hpins⟩

theorem State.i2cStart_eq : ∃ out, s.i2cStart c cmd deferred = { s.i2cLoaded c cmd deferred with outbox := out } := by
  by_cases hpins : s.sns.control = true
  · exact ⟨_, if_pos hpins⟩
  · exact ⟨_, if_neg hpins⟩

theorem State.spiStart_spiOf : (s.spiStart c cmd deferred).spiOf c =
    { tx := (s.spiOf c).tx.drop (cmdLen (Adr.SFE.SPI_CMD c) cmd), rx := [], deferred := deferred } := by
  obtain ⟨out, hout⟩ := s.spiStart_eq c cmd deferred
  rw [hout]
  exact SMap.get_set_same _ _ _ _

theorem State.spiStart_regs : (s.spiStart c cmd deferred).regs = s.regs.putN (Adr.SFE.SPI_STAT c) (1 + 2 * b2n deferred.isSome) := by
  obtain ⟨out, hout⟩ := s.spiStart_eq c cmd deferred
  rw [hout]; rfl

theorem State.i2cStart_i2cOf : (s.i2cStart c cmd deferred).i2cOf c =
    { tx := if bitOf cmd 7 then (s.i2cOf c).tx else (s.i2cOf c).tx.drop (cmdLen (Adr.SFE.I2C_CMD c) cmd), rx := [], deferred := deferred } := by
  obtain ⟨out, hout⟩ := s.i2cStart_eq c cmd deferred
  rw [hout]
  exact SMap.get_set_same _ _ _ _

theorem State.i2cStart_regs : (s.i2cStart c cmd deferred).regs = s.regs.putN (Adr.SFE.I2C_STAT c) (1 + 4 * b2n deferred.isSome) := by
  obtain ⟨out, hout⟩ := s.i2cStart_eq c cmd deferred
  rw [hout]; rfl

theorem spiCfg_ne_spiStat (c : Nat) : Adr.SFE.SPI_CFG c ≠ Adr.SFE.SPI_STAT c := fun h => by
  simp only [RegAddr, Adr.SFE.SPI_CFG, Adr.SFE.SPI_STAT] at h; omega

/-- Where the page has its pins, the bytes leave with the mode and the divider that SPI_CFG holds. -/
theorem State.spiStart_outbox (hpins : s.sns.control = true) : (s.spiStart c cmd deferred).outbox = s.outbox ++
    [.spiStart c (Fld.SFE.SPI_CFG_MODE s.regs c) (spiDiv s.regs c) (cmdLen (Adr.SFE.SPI_CMD c) cmd)
      ((s.spiOf c).tx.take (cmdLen (Adr.SFE.SPI_CMD c) cmd))] := by
  have hcfg (l w : Nat) : (s.spiLoaded c cmd deferred).regs.fld (Adr.SFE.SPI_CFG c) l w = s.regs.fld (Adr.SFE.SPI_CFG c) l w :=
    s.regs.fld_putN_other _ _ _ _ _ (spiCfg_ne_spiStat c)
  have hstart : s.spiStart c cmd deferred = (s.spiLoaded c cmd deferred).emit (.spiStart c (Fld.SFE.SPI_CFG_MODE (s.spiLoaded c cmd deferred).regs c)
    (spiDiv (s.spiLoaded c cmd deferred).regs c) (cmdLen (Adr.SFE.SPI_CMD c) cmd) ((s.spiOf c).tx.take (cmdLen (Adr.SFE.SPI_CMD c) cmd))) := if_pos hpins
  rw [hstart]
  unfold spiDiv Fld.SFE.SPI_CFG_MODE Fld.SFE.SPI_CFG_DIV
  rw [hcfg, hcfg]
  rfl

end start

/-! ### The end of a transaction and the FIFOs (R99) -/

section done
variable {s : State} {c : Nat} {rx : List Byte}

theorem spiDone_busy (hbusy : Fld.SFE.SPI_STAT_BUSY s.regs c = 1) (hlen : rx.length ≤ 64) :
    spiDone c rx s = (s.setSpi c { s.spiOf c with rx := rx }).setReg (Adr.SFE.SPI_STAT c) (2 * b2n (s.spiOf c).deferred.isSome + rx.length * 2 ^ 8) := by
  unfold spiDone
  rw [hbusy, if_neg one_ne_zero]
  dsimp only
  rw [List.take_of_length_le hlen]

theorem i2cDone_busy (nack : Bool) (hbusy : Fld.SFE.I2C_STAT_BUSY s.regs c = 1) (hlen : rx.length ≤ 64) :
    i2cDone c nack rx s = (s.setI2c c { s.i2cOf c with rx := rx }).setReg (Adr.SFE.I2C_STAT c)
      (b2n nack * 2 + 4 * b2n (s.i2cOf c).deferred.isSome + rx.length * 2 ^ 8) := by
  unfold i2cDone
  rw [hbusy, if_neg one_ne_zero]
  dsimp only
  rw [List.take_of_length_le hlen]

theorem pushFifo_room {q : List Byte} (h : q.length < 64) (b : Byte) : pushFifo q b = q ++ [b] := if_pos h

theorem i2cStretchTimeout_busy (hbusy : Fld.SFE.I2C_STAT_BUSY s.regs c = 1) :
    i2cStretchTimeout c s = (s.setReg (Adr.SFE.I2C_STAT c) (4 * b2n (s.i2cOf c).deferred.isSome)).fault (0x109 + c) 0x04 :=
  if_neg (by rw [hbusy]; exact one_ne_zero)

theorem i2cStretchTimeout_idle (hbusy : Fld.SFE.I2C_STAT_BUSY s.regs c = 0) : i2cStretchTimeout c s = s := if_pos hbusy

end done

theorem b2n_le (b : Bool) : b2n b ≤ 1 := by cases b <;> decide

theorem wellFormed_spiDone {c : Fin 4} {rx : List Byte} (h : rx.length ≤ 64) : Instr.wellFormed (.spiDone c rx) = true := decide_eq_true h

theorem wellFormed_i2cDone {c : Fin 4} (nack : Bool) {rx : List Byte} (h : rx.length ≤ 64) : Instr.wellFormed (.i2cDone c nack rx) = true :=
  decide_eq_true h

/-- Settles O27: each clause is the equation of its command in that case, and a transaction's start by what it leaves in the master, its status and the
outbox. -/
theorem serialMastersMoveBytes : Obligations.SerialMastersMoveBytes := by
  unfold Obligations.SerialMastersMoveBytes
  refine fun s c cmd hrun => ⟨fun h => ?_, fun hgo hdefer hbusy => ?_, fun hgo hdefer hbusy => ?_, fun rx hlen hbusy => ?_, fun v hroom => ?_,
    fun b rest hrx hlen => ?_, fun hgo hdefer hbusy => ?_, fun hgo hdefer hbusy => ?_, fun nack rx hlen hbusy => ?_, fun v hroom => ?_, fun hbusy => ?_,
    fun hbusy => ?_⟩
  · exact .of_answer rfl rfl (spiGo_ignored h)
  · refine .of_answer (congrArg (answer (.spiGo c cmd)) (spiGo_starts hgo hdefer hbusy)) rfl ?_
    rw [State.spiOf_settle, State.spiStart_spiOf, State.settle_rd]
    refine ⟨rfl, ?_, SameRegsBut.settle (.putN (s.spiStart_regs c _ _)), fun hpins => ?_⟩
    · have hbit := b2n_le (s.spiOf c).deferred.isSome
      unfold State.rd
      rw [State.spiStart_regs, RegFile.word_putN, if_pos rfl, BitVec.toNat_ofNat]
      omega
    · obtain ⟨out, hout⟩ := (s.spiStart c cmd.toNat (s.spiOf c).deferred).settle_sends
      exact ⟨out, by rw [hout, s.spiStart_outbox c _ _ hpins, List.append_assoc]; rfl⟩
  · refine .of_answer (congrArg (answer (.spiGo c cmd)) (spiGo_defers hgo hdefer hbusy)) rfl ?_
    have hspi : ((s.setSpi c { s.spiOf c with deferred := some cmd.toNat }).setFld (Adr.SFE.SPI_STAT c) 1 1 1).spiOf c =
      { s.spiOf c with deferred := some cmd.toNat } := SMap.get_set_same _ _ _ _
    rw [State.spiOf_settle, State.settle_regs, hspi]
    exact ⟨rfl, rfl, (State.fld_setFld_beside _ _ _ _ _ _ _ (by decide) (by decide)).trans hbusy⟩
  · refine .running hrun (wellFormed_spiDone hlen) (u := spiDone c rx s) ?_
    rw [spiDone_busy hbusy hlen, State.spiOf_settle, State.settle_regs]
    obtain ⟨h0, -, hlevel⟩ := serialStat_fields (flags := 2 * b2n (s.spiOf c).deferred.isSome) (by have := b2n_le (s.spiOf c).deferred.isSome; omega) hlen
    refine ⟨congrArg SerialMaster.rx (SMap.get_set_same _ _ _ _), ?_, ?_, SameRegsBut.settle (.putN rfl)⟩
    · exact (State.fld_setReg_same _ _ _ _ _).trans (h0.trans (Nat.mul_mod_right 2 _))
    · exact (State.fld_setReg_same _ _ _ _ _).trans hlevel
  · refine .of_answer (u := spiData c (.write v) s) rfl rfl ?_
    unfold spiData
    dsimp only
    rw [pushFifo_room hroom]
  · refine .of_answer (u := spiData c .read s) rfl rfl ?_
    have hdrop : (s.spiOf c).rx.drop 1 = rest := by rw [hrx]; rfl
    have hspi : (spiData c .read s).spiOf c = { s.spiOf c with rx := rest } := hdrop ▸ SMap.get_set_same _ _ _ _
    rw [State.spiOf_settle, State.settle_regs, hspi]
    refine ⟨rfl, (State.fld_setFld_same _ _ _ _ _ (by decide)).trans ?_, rfl⟩
    rw [hdrop, Nat.mod_eq_of_lt (by omega)]
  · refine .of_answer (congrArg (answer (.i2cGo c cmd)) (i2cGo_starts hgo hdefer hbusy)) rfl ?_
    rw [State.i2cOf_settle, State.i2cStart_i2cOf, State.settle_rd]
    refine ⟨rfl, ?_, SameRegsBut.settle (.putN (s.i2cStart_regs c _ _))⟩
    have hbit := b2n_le (s.i2cOf c).deferred.isSome
    unfold State.rd
    rw [State.i2cStart_regs, RegFile.word_putN, if_pos rfl, BitVec.toNat_ofNat]
    omega
  · refine .of_answer (congrArg (answer (.i2cGo c cmd)) (i2cGo_defers hgo hdefer hbusy)) rfl ?_
    have hi2c : ((s.setI2c c { s.i2cOf c with deferred := some cmd.toNat }).setFld (Adr.SFE.I2C_STAT c) 2 1 1).i2cOf c =
      { s.i2cOf c with deferred := some cmd.toNat } := SMap.get_set_same _ _ _ _
    rw [State.i2cOf_settle, State.settle_regs, hi2c]
    exact ⟨rfl, rfl, State.fld_setFld_same _ _ _ _ _ (by decide), (State.fld_setFld_beside _ _ _ _ _ _ _ (by decide) (by decide)).trans hbusy⟩
  · refine .running hrun (wellFormed_i2cDone nack hlen) (u := i2cDone c nack rx s) ?_
    rw [i2cDone_busy nack hbusy hlen, State.i2cOf_settle, State.settle_regs]
    have hn := b2n_le nack
    have hd := b2n_le (s.i2cOf c).deferred.isSome
    obtain ⟨h0, h1, -⟩ := serialStat_fields (flags := b2n nack * 2 + 4 * b2n (s.i2cOf c).deferred.isSome) (by omega) hlen
    refine ⟨congrArg SerialMaster.rx (SMap.get_set_same _ _ _ _), ?_, ?_⟩
    · exact (State.fld_setReg_same _ _ _ _ _).trans (h0.trans (by omega))
    · exact (State.fld_setReg_same _ _ _ _ _).trans (h1.trans (by omega))
  · refine .of_answer (u := i2cData c (.write v) s) rfl rfl ?_
    unfold i2cData
    dsimp only
    rw [pushFifo_room hroom]
  · refine .running hrun rfl (u := i2cStretchTimeout c s) ?_
    rw [i2cStretchTimeout_busy hbusy, State.settle_rd, State.settle_held, State.mem_fault]
    refine ⟨(State.rd_setReg_same s _ _).trans ?_, Or.inl rfl⟩
    have := b2n_le (s.i2cOf c).deferred.isSome
    omega
  · exact .running hrun rfl (i2cStretchTimeout_idle hbusy)

end Sys2Proof.Machine

/-! Training, tap tracking and clock loss of a sensor group (R80, R84, R85, R95). -/

namespace Sys2Proof.Machine

theorem SameRegsBut.cons {s t : State} {l : List RegAddr} {a : RegAddr} (h : SameRegsBut l s t) : SameRegsBut (a :: l) s t :=
  h.mono (List.subset_cons_self a l)

/-- A fold whose every step keeps the registers outside a list keeps them. -/
theorem SameRegsBut.foldl {α : Type} {f : State → α → State} {l : List RegAddr} {xs : List α} (h : ∀ x ∈ xs, ∀ t, SameRegsBut l t (f t x)) (s : State) :
    SameRegsBut l s (xs.foldl f s) := by
  induction xs generalizing s with
  | nil => exact .refl _ rfl
  | cons x xs ih =>
    rw [List.foldl_cons]
    intro a ha
    rw [ih (fun y hy => h y (List.mem_cons_of_mem _ hy)) (f s x) a ha, h x List.mem_cons_self s a ha]

/-! ### START (R84) -/

theorem State.laneCount_le (s : State) (g : Nat) : s.laneCount g ≤ 20 := by
  unfold State.laneCount
  dsimp only
  split
  · rename_i h
    have hmem : Fld.SFE.GRP_CFG_LANES s.regs g ∈ [4, 8, 10, 16, 20] := by simpa using h
    have hall : ∀ v ∈ [4, 8, 10, 16, 20], v ≤ 20 := by decide
    exact hall _ hmem
  · have hall : ∀ n, n < 5 → nth 20 [4, 8, 10, 16, 20] n ≤ 20 := by decide
    exact hall _ (Nat.mod_lt _ (by decide))

/-- The positions of a group's 20 lanes. -/
def lanePositions (g : Nat) : List RegAddr := (List.range 20).map (fun l => Adr.SFL.LANE_POS (20 * g + l))

/-- EYE_LOW of every lane of a group is cleared. -/
def State.clearEyes (s : State) (g : Nat) : State := (List.range 20).foldl (fun s l => s.setFld (Adr.SFL.LANE_POS (20 * g + l)) 16 1 0) s

theorem SameRegsBut.clearEyes (s : State) (g : Nat) : SameRegsBut (lanePositions g) s (s.clearEyes g) :=
  .foldl (fun _ hl t => (SameRegsBut.putFld (State.setFld_regs t _ _ _ _)).mono (List.cons_subset.mpr ⟨List.mem_map_of_mem hl, List.nil_subset _⟩)) s

theorem State.clearEyes_keeps {α : Type} (p : State → α) (h : ∀ (t : State) (a l w x : Nat), p (t.setFld a l w x) = p t) (s : State) (g : Nat) :
    p (s.clearEyes g) = p s := foldl_keeps p _ (fun t _ => h t _ _ _ _) _ s

theorem not_mem_lanePositions {g : Nat} {a : RegAddr} (h : a < 0x11200) : a ∉ lanePositions g := by
  simp only [lanePositions, List.mem_map, not_exists, not_and, RegAddr, Adr.SFL.LANE_POS]
  intro l _ heq
  simp only [RegAddr] at h
  omega

/-- DESKEW_STAT as a START leaves it: BUSY, or FAIL on every lane where the rate is out of range. -/
def State.startStat (s : State) (g : Nat) : Nat :=
  if Fld.SFL.RATE s.regs g < 800 ∨ 6000 < Fld.SFL.RATE s.regs g then 4 + (2 ^ s.laneCount g - 1) * 2 ^ 8 else 2

theorem State.startStat_bounds (s : State) (g : Nat) : s.startStat g < 2 ^ 32 ∧ s.startStat g % 2 = 0 := by
  have hlanes : 2 ^ s.laneCount g ≤ 2 ^ 20 := Nat.pow_le_pow_right (by decide) (s.laneCount_le g)
  unfold State.startStat
  split <;> omega

/-- What START does once the eyes are cleared: it notes its time and shows BUSY or the failure (R84). -/
def State.startFrom (u : State) (g : Nat) : State :=
  let s : State := { u with trainFrom := SMap.put u.trainFrom g u.elapsed }
  let r := Fld.SFL.RATE s.regs g
  if r < 800 ∨ 6000 < r then s.setReg (Adr.SFL.DESKEW_STAT g) (4 + (2 ^ s.laneCount g - 1) * 2 ^ 8)
  else s.setReg (Adr.SFL.DESKEW_STAT g) 2

theorem State.startFrom_eq (u : State) (g : Nat) : u.startFrom g =
    ({ u with trainFrom := SMap.put u.trainFrom g u.elapsed } : State).setReg (Adr.SFL.DESKEW_STAT g) (u.startStat g) := by
  by_cases h : Fld.SFL.RATE u.regs g < 800 ∨ 6000 < Fld.SFL.RATE u.regs g
  · rw [State.startStat, if_pos h]; exact if_pos h
  · rw [State.startStat, if_neg h]; exact if_neg h

/-- START of a group that does not run (R84, R85). -/
theorem State.trainGroup_idle {s : State} {g : Nat} (h : (s.grp g).running = false) : s.trainGroup g = (s.clearEyes g).startFrom g := by
  unfold State.trainGroup
  rw [h, if_neg Bool.false_ne_true]
  rfl

/-- Clearing the eyes leaves what START reads. -/
theorem State.startStat_clearEyes (s : State) {g : Nat} (hg : g < 4) : (s.clearEyes g).startStat g = s.startStat g := by
  have hfld {a : RegAddr} (ha : a < 0x11200) (l w : Nat) : (s.clearEyes g).regs.fld a l w = s.regs.fld a l w :=
    (SameRegsBut.clearEyes s g).fld (not_mem_lanePositions ha) l w
  have hrate : Fld.SFL.RATE (s.clearEyes g).regs g = Fld.SFL.RATE s.regs g := hfld (by show 0x11060 + 0x10 * g < 0x11200; omega) _ _
  have hlanes : (s.clearEyes g).laneCount g = s.laneCount g := by
    unfold State.laneCount Fld.SFE.GRP_CFG_LANES
    rw [hfld (show 0x10100 + 0x80 * g < 0x11200 by omega)]
  unfold State.startStat
  rw [hrate, hlanes]

theorem State.startFrom_rd (u : State) (g : Nat) : (u.startFrom g).rd (Adr.SFL.DESKEW_STAT g) = u.startStat g := by
  rw [u.startFrom_eq, State.rd_setReg_same, Nat.mod_eq_of_lt (u.startStat_bounds g).1]

theorem State.startFrom_unaligned (u : State) (g : Nat) : (u.startFrom g).aligned g = false := by
  have heven : (u.startFrom g).rd (Adr.SFL.DESKEW_STAT g) % 2 = 0 := by rw [u.startFrom_rd]; exact (u.startStat_bounds g).2
  refine beq_eq_false_iff_ne.mpr (fun h => ?_)
  replace h : bits ((u.startFrom g).rd (Adr.SFL.DESKEW_STAT g)) 0 1 = 1 := h
  unfold bits at h
  omega

theorem SameRegsBut.startFrom (u : State) (g : Nat) : SameRegsBut [Adr.SFL.DESKEW_STAT g] u (u.startFrom g) := by
  rw [u.startFrom_eq]; exact SameRegsBut.putN rfl

theorem State.startFrom_sfe (u : State) (g : Nat) : (u.startFrom g).sfe = u.sfe := by rw [u.startFrom_eq]; rfl

theorem State.startFrom_trainFrom (u : State) (g : Nat) : (u.startFrom g).trainFrom = SMap.put u.trainFrom g u.elapsed := by rw [u.startFrom_eq]; rfl

theorem State.clearEyes_sfe (s : State) (g : Nat) : (s.clearEyes g).sfe = s.sfe := State.clearEyes_keeps State.sfe (fun _ _ _ _ _ => rfl) s g

theorem State.clearEyes_trainFrom (s : State) (g : Nat) : (s.clearEyes g).trainFrom = s.trainFrom :=
  State.clearEyes_keeps State.trainFrom (fun _ _ _ _ _ => rfl) s g

theorem State.clearEyes_elapsed (s : State) (g : Nat) : (s.clearEyes g).elapsed = s.elapsed :=
  State.clearEyes_keeps State.elapsed (fun _ _ _ _ _ => rfl) s g

theorem trainingStart_eq (mask : Nat) (s : State) : trainingStart mask s = ((List.range 4).filter (bitOf mask)).foldl State.trainGroup s :=
  List.foldl_filter.symm

theorem trainingStart_twoPow (g : Fin 4) (s : State) : trainingStart (BitVec.twoPow 4 g.val).toNat s = s.trainGroup g := by
  have hone : (List.range 4).filter (bitOf (BitVec.twoPow 4 g.val).toNat) = [g.val] := by revert g; decide
  rw [trainingStart_eq, hone, List.foldl_cons, List.foldl_nil]

/-! ### What training found (R84) -/

/-- A mask whose bit i is the i-th flag. -/
def flagMask : List Bool → Nat
  | [] => 0
  | b :: r => b2n b + 2 * flagMask r

theorem flagMask_lt (l : List Bool) : flagMask l < 2 ^ l.length := by
  induction l with
  | nil => exact Nat.one_pos
  | cons b r ih =>
    have hb := b2n_le b
    rw [flagMask, List.length_cons, Nat.pow_succ]
    omega

theorem bitOf_flagMask (l : List Bool) (i : Nat) : bitOf (flagMask l) i = l.getD i false := by
  induction l generalizing i with
  | nil => simp [flagMask, bitOf]
  | cons b r ih =>
    have hhalf : flagMask (b :: r) / 2 = flagMask r := by have hb := b2n_le b; rw [flagMask]; omega
    cases i with
    | zero =>
      have hlow : flagMask (b :: r) % 2 = b2n b := by have hb := b2n_le b; rw [flagMask]; omega
      unfold bitOf
      rw [Nat.pow_zero, Nat.div_one, hlow]
      cases b <;> rfl
    | succ i => rw [← bitOf_half, hhalf, ih, List.getD_cons_succ]

theorem flagMask_eq_zero {l : List Bool} : flagMask l = 0 ↔ ∀ b ∈ l, b = false := by
  induction l with
  | nil => simp [flagMask]
  | cons b r ih => rw [flagMask, List.forall_mem_cons, ← ih]; cases b <;> simp [b2n]

/-- Whether lane n fails: a narrow eye, or no marker within 8 words of the reference. -/
def laneFails (ref : Option Int) (lane0Ok : Bool) (n : Nat) (l : LaneFound) : Bool :=
  decide (l.eyeTaps < 8) || (wordOfs ref l).isNone || (n == 0 && !lane0Ok)

/-- The mask that storing the lanes from lane n on gives. -/
theorem State.storeFound_mask (s : State) (g : Nat) (ref : Option Int) (lane0Ok : Bool) (n : Nat) (l : List LaneFound) :
    (s.storeFound g ref lane0Ok n l).2 = 2 ^ n * flagMask (l.mapIdx (fun i => laneFails ref lane0Ok (n + i))) := by
  induction l generalizing s n with
  | nil => rfl
  | cons x r ih =>
    have hshift : (fun i => laneFails ref lane0Ok (n + 1 + i)) = fun i => laneFails ref lane0Ok (n + (i + 1)) := by
      funext i; rw [Nat.add_right_comm, Nat.add_assoc]
    rw [State.storeFound, List.mapIdx_cons, flagMask, Nat.mul_add]
    dsimp only
    rw [ih, hshift, Nat.pow_succ, Nat.mul_assoc, Nat.add_comm, Nat.add_zero]
    congr 1
    unfold laneFails b2n
    split <;> simp

theorem State.storeFound_times (s : State) (g : Nat) (ref : Option Int) (lane0Ok : Bool) (n : Nat) (l : List LaneFound) :
    (s.storeFound g ref lane0Ok n l).1.trainFrom = s.trainFrom ∧ (s.storeFound g ref lane0Ok n l).1.elapsed = s.elapsed := by
  induction l generalizing s n with
  | nil => exact ⟨rfl, rfl⟩
  | cons x r ih =>
    rw [State.storeFound]
    exact ⟨(ih _ _).1.trans (State.setReg_trainFrom _ _ _), (ih _ _).2.trans (State.setReg_elapsed _ _ _)⟩

theorem State.storeFound_trainingLate (s : State) (g h : Nat) (ref : Option Int) (lane0Ok : Bool) (n : Nat) (l : List LaneFound) :
    (s.storeFound g ref lane0Ok n l).1.trainingLate h = s.trainingLate h := by
  obtain ⟨hfrom, helapsed⟩ := s.storeFound_times g ref lane0Ok n l
  unfold State.trainingLate
  rw [hfrom, helapsed]

/-- Whether lane 0 found an eye and a marker. -/
def firstLaneOk : List LaneFound → Bool
  | l :: _ => decide (0 < l.eyeTaps) && l.marker.isSome
  | [] => false

/-- Which of a group's active lanes fail. -/
def State.laneFlags (s : State) (g : Nat) (found : List LaneFound) : List Bool :=
  (s.allLanes g found).mapIdx (laneFails (refMarker (s.allLanes g found)) (firstLaneOk (s.allLanes g found)))

/-- The end of a training that is under way (R84). -/
theorem trainingDone_busy {s : State} {g : Nat} (found : List LaneFound) (h : Fld.SFL.DESKEW_STAT_BUSY s.regs g = 1) :
    ∃ u : State, trainingDone g found s = if flagMask (s.laneFlags g found) = 0 ∧ s.trainingLate g = false
      then (u.setReg (Adr.SFL.DESKEW_STAT g) 1).condOff (groupUnit g) (groupUnit g) 0x06
      else u.setReg (Adr.SFL.DESKEW_STAT g) (4 + flagMask (s.laneFlags g found) * 2 ^ 8) := by
  have hmask := s.storeFound_mask g (refMarker (s.allLanes g found)) (firstLaneOk (s.allLanes g found)) 0 (s.allLanes g found)
  have hlate := s.storeFound_trainingLate g g (refMarker (s.allLanes g found)) (firstLaneOk (s.allLanes g found)) 0 (s.allLanes g found)
  simp only [Nat.zero_add, Nat.pow_zero, Nat.one_mul] at hmask
  refine ⟨(s.storeFound g (refMarker (s.allLanes g found)) (firstLaneOk (s.allLanes g found)) 0 (s.allLanes g found)).1, ?_⟩
  unfold State.laneFlags
  rw [← hmask, ← hlate]
  unfold trainingDone
  rw [h, if_neg one_ne_zero]
  cases s.allLanes g found <;> rfl

theorem State.allLanes_length (s : State) (g : Nat) (found : List LaneFound) : (s.allLanes g found).length = s.laneCount g := by
  unfold State.allLanes
  rw [List.length_append, List.length_take, List.length_replicate]
  omega

theorem State.laneFlags_length (s : State) (g : Nat) (found : List LaneFound) : (s.laneFlags g found).length = s.laneCount g := by
  unfold State.laneFlags
  rw [List.length_mapIdx, s.allLanes_length]

theorem laneFails_narrow {l : LaneFound} (h : l.eyeTaps < 8) (ref : Option Int) (ok : Bool) (n : Nat) : laneFails ref ok n l = true := by
  unfold laneFails; rw [decide_eq_true h]; rfl

/-- A lane with a narrow eye gives a mask with its bit set. -/
theorem State.laneFlags_narrow {s : State} {g : Nat} {found : List LaneFound} {i : Nat} (hi : i < (s.allLanes g found).length)
    (h : (s.allLanes g found)[i].eyeTaps < 8) : bitOf (flagMask (s.laneFlags g found)) i = true := by
  rw [bitOf_flagMask]
  unfold State.laneFlags
  rw [List.getD_eq_getElem _ _ (by simpa using hi), List.getElem_mapIdx]
  exact laneFails_narrow h _ _ _

/-- A lane with no result has no eye. -/
theorem State.laneFlags_missing {s : State} {g : Nat} {found : List LaneFound} {i : Nat} (hlen : found.length ≤ i) (hi : i < s.laneCount g) :
    bitOf (flagMask (s.laneFlags g found)) i = true := by
  have hlt : i < (s.allLanes g found).length := by rw [s.allLanes_length]; exact hi
  refine State.laneFlags_narrow hlt ?_
  have hlane : (s.allLanes g found)[i] = { eyeTaps := 0, centre := 0, marker := none } :=
    (List.getElem_append_right (by rw [List.length_take]; omega)).trans (List.getElem_replicate _)
  rw [hlane]; decide

theorem flagMask_pos_of_bit {l : List Bool} {i : Nat} (h : bitOf (flagMask l) i = true) : flagMask l ≠ 0 := fun h0 => by
  rw [h0] at h; simp [bitOf] at h

/-- Every active lane has its eye and a marker within 8 words of lane 0's: no flag is set. -/
theorem State.laneFlags_good {s : State} {g : Nat} {found : List LaneFound} {m0 : Int} (hlen : found.length = s.laneCount g)
    (hfirst : (found.head?.bind (·.marker)) = some m0)
    (hall : ∀ l ∈ found, 8 ≤ l.eyeTaps ∧ ∃ m, l.marker = some m ∧ -8 ≤ m - m0 ∧ m - m0 ≤ 8) : flagMask (s.laneFlags g found) = 0 := by
  have hlanes : s.allLanes g found = found := by
    unfold State.allLanes
    rw [← hlen, List.take_length, Nat.sub_self, List.replicate_zero, List.append_nil]
  match found, hfirst with
  | l0 :: r, hfirst =>
    replace hfirst : l0.marker = some m0 := hfirst
    have heye : 0 < l0.eyeTaps := lt_of_lt_of_le (by decide) (hall l0 List.mem_cons_self).1
    have href : refMarker (l0 :: r) = some m0 := by
      unfold refMarker
      dsimp only
      rw [if_pos ⟨heye, by rw [hfirst]; rfl⟩, hfirst]
    have hok : firstLaneOk (l0 :: r) = true := by
      show (decide (0 < l0.eyeTaps) && l0.marker.isSome) = true
      rw [hfirst, decide_eq_true heye]; rfl
    rw [flagMask_eq_zero]
    unfold State.laneFlags
    rw [hlanes, href, hok]
    intro b hb
    obtain ⟨n, hn, rfl⟩ := List.mem_mapIdx.mp hb
    obtain ⟨htaps, m, hm, hlow, hhigh⟩ := hall _ (List.getElem_mem hn)
    unfold laneFails wordOfs
    rw [hm, decide_eq_false (by omega)]
    dsimp only
    rw [if_pos (by omega)]
    simp

/-- The fields of DESKEW_STAT as a failed training leaves it. -/
theorem failStat_fields {m : Nat} (h : m < 2 ^ 20) : bits ((4 + m * 2 ^ 8) % 2 ^ 32) 0 1 = 0 ∧ bits ((4 + m * 2 ^ 8) % 2 ^ 32) 1 1 = 0 ∧
    bits ((4 + m * 2 ^ 8) % 2 ^ 32) 2 1 = 1 ∧ bits ((4 + m * 2 ^ 8) % 2 ^ 32) 8 20 = m := by
  unfold bits
  omega

/-! ### Tap tracking and clock loss (R80, R85, R95) -/

theorem sat_toNat_mod (x : Int) : (((sat x 0 63).toNat % 2 ^ 6 : Nat) : Int) = sat x 0 63 := by
  unfold sat
  split
  · rfl
  · split <;> omega

/-- The step of a tracking lane is the sign of the way to the eye. -/
theorem trackStep_eq_sign (x : Int) : (if 0 < x then 1 else if x < 0 then -1 else 0 : Int) = Int.sign x := by
  rcases lt_trichotomy x 0 with h | rfl | h
  · rw [if_neg (by omega), if_pos h, Int.sign_eq_neg_one_of_neg h]
  · rfl
  · rw [if_pos h, Int.sign_eq_one_of_pos h]

theorem tapTrack_unused {s : State} {g l : Nat} (h : s.laneCount g ≤ l) (toward : Int) (eye : Nat) : tapTrack g l toward eye s = s :=
  if_pos (by rw [decide_eq_true h, Bool.or_true])

/-- A used lane of an aligned group that tracks. -/
theorem tapTrack_used {s : State} {g l : Nat} (h : l < s.laneCount g) (hal : s.aligned g = true) (hen : bitOf (Fld.SFL.TRACK_CTL_EN s.regs) g = true)
    (toward : Int) (eye : Nat) : tapTrack g l toward eye s =
      (s.setFld (Adr.SFL.LANE_POS (20 * g + l)) 0 6 (sat ((Fld.SFL.LANE_POS_TAP s.regs (20 * g + l) : Int) + Int.sign toward) 0 63).toNat).setFld
        (Adr.SFL.LANE_POS (20 * g + l)) 16 1 (b2n (decide (eye < 8))) := by
  unfold tapTrack
  rw [hal, hen, decide_eq_false (by omega), if_neg (by decide)]
  dsimp only
  rw [trackStep_eq_sign]
  rfl

theorem State.loseClock_unaligned {s : State} {g : Nat} (h : s.aligned g = false) : s.loseClock g = s := if_neg (by rw [h]; decide)

theorem State.loseClock_aligned {s : State} {g : Nat} (h : s.aligned g = true) :
    s.loseClock g = ((s.breakFrame g).setFld (Adr.SFL.DESKEW_STAT g) 0 1 0).condOn (groupUnit g) (groupUnit g) 0x06 := if_pos h

/-- Settles O23: START by what it leaves of a group at rest, the end of training by the mask of its lanes, tracking and clock loss by their equations. -/
theorem trainingDecidesAlignment : Obligations.TrainingDecidesAlignment := by
  unfold Obligations.TrainingDecidesAlignment
  refine fun s g => ⟨fun hrun => ?_, fun found hlen hbusy => ?_, fun found m0 hlen hbusy hcount hlate hfirst hall => ?_, fun found hlen hbusy hbad => ?_,
    fun l toward eye hl hunused => ?_, fun l toward eye hl hused hal hen => ?_, fun hal => ?_, fun hal => ?_⟩
  · refine .of_answer (congrArg (answer (.trainingStart (BitVec.twoPow 4 g))) ((trainingStart_twoPow g s).trans (State.trainGroup_idle hrun))) rfl ?_
    rw [State.settle_rd, State.settle_sfe, State.settle_trainFrom, State.startFrom_rd, s.startStat_clearEyes g.isLt, State.startFrom_sfe,
      State.clearEyes_sfe, State.startFrom_trainFrom, State.clearEyes_trainFrom, State.clearEyes_elapsed]
    refine ⟨rfl, ?_, SameRegsBut.settle ?_, rfl, rfl⟩
    · unfold State.aligned
      rw [State.settle_regs]
      exact State.startFrom_unaligned _ _
    · exact ((SameRegsBut.clearEyes s g).trans (SameRegsBut.startFrom _ _)).mono
        (List.append_subset.mpr ⟨List.subset_cons_self _ _, List.cons_subset.mpr ⟨List.mem_cons_self, List.nil_subset _⟩⟩)
  · exact .of_answer (u := trainingDone g found s) rfl (decide_eq_true hlen) (if_pos hbusy)
  · obtain ⟨u, hu⟩ := trainingDone_busy found hbusy
    rw [if_pos ⟨State.laneFlags_good hcount hfirst hall, hlate⟩] at hu
    refine .of_answer (congrArg (answer (.trainingDone g found)) hu) (decide_eq_true hlen) ?_
    rw [State.settle_rd, State.settle_held, State.mem_condOff]
    refine ⟨State.rd_setReg_same _ _ _, ?_, fun h => h.2 rfl⟩
    unfold State.aligned
    rw [State.settle_regs, beq_iff_eq]
    exact State.fld_setReg_same _ _ _ _ _
  · obtain ⟨u, hu⟩ := trainingDone_busy found hbusy
    have hfails : ¬ (flagMask (s.laneFlags g found) = 0 ∧ s.trainingLate g = false) := by
      rintro ⟨hzero, hlate⟩
      rcases hbad with ⟨l, hl, heye⟩ | hshort | hlate'
      · obtain ⟨i, hi, rfl⟩ := List.mem_iff_getElem.mp hl
        have hi' : i < (s.allLanes g found).length := lt_of_lt_of_le hi (by unfold State.allLanes; rw [List.length_append]; omega)
        refine flagMask_pos_of_bit (State.laneFlags_narrow hi' ?_) hzero
        have hsame : (s.allLanes g found)[i] = (found.take (s.laneCount g))[i] := List.getElem_append_left hi
        rw [hsame]; exact heye
      · exact flagMask_pos_of_bit (State.laneFlags_missing le_rfl hshort) hzero
      · rw [hlate] at hlate'; exact Bool.noConfusion hlate'
    rw [if_neg hfails] at hu
    refine .of_answer (congrArg (answer (.trainingDone g found)) hu) (decide_eq_true hlen) ?_
    have hlt : flagMask (s.laneFlags g found) < 2 ^ 20 :=
      lt_of_lt_of_le (flagMask_lt _) (Nat.pow_le_pow_right (by decide) ((s.laneFlags_length g found).trans_le (s.laneCount_le g)))
    obtain ⟨h0, h1, h2, hmask⟩ := failStat_fields hlt
    unfold State.aligned
    rw [State.settle_regs, beq_eq_false_iff_ne]
    refine ⟨fun h => ?_, (State.fld_setReg_same _ _ _ _ _).trans h2, (State.fld_setReg_same _ _ _ _ _).trans h1, fun i hmiss hi => ?_⟩
    · exact absurd (h0.symm.trans ((State.fld_setReg_same _ _ _ _ _).symm.trans h)) zero_ne_one
    · exact (congrArg (bitOf · i) ((State.fld_setReg_same _ _ _ _ _).trans hmask)).trans (State.laneFlags_missing hmiss hi)
  · exact .of_answer (u := tapTrack g l toward eye s) rfl (decide_eq_true hl) (tapTrack_unused hunused toward eye)
  · refine .of_answer (congrArg (answer (.tapTrack g l toward eye)) (tapTrack_used hused hal hen toward eye)) (decide_eq_true hl) ?_
    rw [State.settle_regs]
    refine ⟨?_, (State.fld_setFld_same _ _ _ _ _ (by decide)).trans (Nat.mod_eq_of_lt (by have := b2n_le (decide (eye < 8)); omega)), SameRegsBut.settle ?_⟩
    · refine (congrArg Nat.cast ?_).trans (sat_toNat_mod _)
      exact (State.fld_setFld_beside _ _ _ _ _ _ _ (by decide) (by decide)).trans (State.fld_setFld_same _ _ _ _ _ (by decide))
    · exact (SameRegsBut.trans (SameRegsBut.putFld (State.setFld_regs _ _ _ _ _)) (SameRegsBut.putFld (State.setFld_regs _ _ _ _ _))).mono (by simp)
  · exact .of_answer (u := s.loseClock g) rfl rfl (State.loseClock_unaligned hal)
  · refine .of_answer (congrArg (answer (.sensorClockLoss g)) (State.loseClock_aligned hal)) rfl ?_
    unfold State.aligned
    rw [State.settle_held, State.settle_regs, State.mem_condOn, State.condOn_regs, beq_eq_false_iff_ne]
    exact ⟨fun h => absurd ((State.fld_setFld_same _ _ _ _ _ (by decide)).symm.trans h) zero_ne_one, Or.inl rfl⟩

end Sys2Proof.Machine

/-! Resets by watchdog, command, pin, PCIe and temperature (R100, R316, R342, R371). -/

namespace Sys2Proof.Machine

/-! ### What a controller disable leaves (R216) -/

/-- The power management unit and the Trellis. -/
def State.powerLinks (s : State) : Pwr × Trl := (s.pwr, s.trl)

theorem State.powerLinks_setReg (s : State) (a n : Nat) : (s.setReg a n).powerLinks = s.powerLinks := rfl
theorem State.powerLinks_setMember (s : State) (m : Nat) (x : Member) : (s.setMember m x).powerLinks = s.powerLinks := rfl
theorem State.powerLinks_setVolState (s : State) (v st : Nat) : (s.setVolState v st).powerLinks = s.powerLinks := rfl
theorem State.powerLinks_setVolWait (s : State) (v : Nat) (w : VolWait) : (s.setVolWait v w).powerLinks = s.powerLinks := rfl
theorem State.powerLinks_setRecChan (s : State) (c : Nat) (x : Chan) : (s.setRecChan c x).powerLinks = s.powerLinks := rfl
theorem State.powerLinks_bump (s : State) (a : RegAddr) : (s.bump a).powerLinks = s.powerLinks := rfl

theorem State.powerLinks_upstream (s : State) (u c : Nat) : (s.upstream u c).powerLinks = s.powerLinks := by
  unfold State.powerLinks
  rw [State.upstream_pwr, State.upstream_trl]

theorem State.powerLinks_storeSeen (s : State) (addr : Nat) (bs : List Byte) : (s.storeSeen addr bs).powerLinks = s.powerLinks := by
  unfold State.storeSeen State.outOfRange
  split <;> rfl

theorem State.powerLinks_stageCmd (s : State) (m : Nat) (c : MemberCmd) : (s.stageCmd m c).2.powerLinks = s.powerLinks := by
  unfold State.stageCmd
  dsimp only
  split
  · rfl
  · refine foldl_keeps State.powerLinks _ (fun t b => ?_) _ s
    split
    · split
      · rfl
      · exact t.powerLinks_storeSeen _ _
    · rfl

theorem State.powerLinks_command (s : State) (m : Nat) (op : MemberOp) (blocks : List Block) (addr bytes : Nat) (u : MemberUse) :
    (s.command m op blocks addr bytes u).powerLinks = s.powerLinks := by
  unfold State.command
  dsimp only
  rw [State.powerLinks_setMember]
  split
  · exact s.powerLinks_stageCmd _ _
  · rfl

theorem State.powerLinks_issueSpan (v : Nat) (isWrite : Bool) (u : MemberUse) (fuel : Nat) (s : State) (o len : Nat) (blocks : List Block) :
    (s.issueSpan v isWrite u fuel o len blocks).powerLinks = s.powerLinks := by
  induction fuel generalizing s o len blocks with
  | zero => rfl
  | succ fuel ih =>
    unfold State.issueSpan
    split
    · rfl
    · dsimp only
      rw [ih, State.powerLinks_command]

theorem State.powerLinks_issueStaged (s : State) (v o : Nat) (data : List Byte) (u : MemberUse) :
    (s.issueStaged v o data u).powerLinks = s.powerLinks := s.powerLinks_command _ _ _ _ _ _

theorem State.powerLinks_drawWords (k : Nat) (s : State) : (s.drawWords k).2.powerLinks = s.powerLinks := by
  induction k generalizing s with
  | zero => rfl
  | succ k ih => exact (ih _).trans rfl

theorem State.powerLinks_chanRecord (s : State) (c : Nat) (t : Take) (type reason gapFirst gapCount : Nat) (header : List Byte) :
    (s.chanRecord c t type reason gapFirst gapCount header).2.powerLinks = s.powerLinks := by
  unfold State.chanRecord
  dsimp only
  split
  · rfl
  · exact s.powerLinks_drawWords 3

theorem State.powerLinks_appendJournal (s : State) (v : Nat) (r : JournalRec) : (s.appendJournal v r).powerLinks = s.powerLinks := by
  unfold State.appendJournal
  dsimp only
  exact (State.powerLinks_bump _ _).trans (s.powerLinks_issueStaged _ _ _ _)

theorem State.powerLinks_endTake (s : State) (c : Nat) (t : Take) (reason : Nat) : (s.endTake c t reason).powerLinks = s.powerLinks := by
  unfold State.endTake
  extract_lets u
  have hu : u.powerLinks = s.powerLinks := s.powerLinks_setReg _ _
  split
  · have hr := (u.powerLinks_chanRecord c t 3 reason 0 0 []).trans hu
    generalize u.chanRecord c t 3 reason 0 0 [] = p at hr ⊢
    obtain ⟨r, w⟩ := p
    exact (w.powerLinks_appendJournal _ _).trans hr
  · exact hu

/-- What a halted channel holds and passes on. -/
theorem State.powerLinks_haltHeld (u : State) (c a n : Nat) (x y : Chan) :
    (if u.isCodec c then (u.setRecChan c x).setReg a n else u.setRecChan c y).powerLinks = u.powerLinks := by
  split
  · exact (State.powerLinks_setReg _ _ _).trans (u.powerLinks_setRecChan c x)
  · exact u.powerLinks_setRecChan c y

theorem State.powerLinks_haltChan (s : State) (c reason : Nat) (endReason : Option Nat) : (s.haltChan c reason endReason).powerLinks = s.powerLinks := by
  unfold State.haltChan
  dsimp only
  rw [State.powerLinks_haltHeld]
  split
  · exact (State.powerLinks_endTake _ _ _ _).trans (s.powerLinks_setReg _ _)
  · exact s.powerLinks_setReg _ _

theorem State.powerLinks_haltOn (s : State) (v m : Nat) : (s.haltOn v m).powerLinks = s.powerLinks := by
  refine foldl_keeps State.powerLinks _ (fun t c => ?_) _ s
  split
  · split
    · rw [State.powerLinks_upstream, State.powerLinks_haltChan]
    · rfl
  · rfl

theorem State.powerLinks_checkVolume (s : State) (v : Nat) : (s.checkVolume v).powerLinks = s.powerLinks := by
  unfold State.checkVolume
  split
  · split
    · rw [State.powerLinks_haltOn, State.powerLinks_setVolWait, State.powerLinks_setVolState]
    · rfl
  · rfl

theorem State.powerLinks_startFormat (s : State) (v : Nat) : (s.startFormat v).powerLinks = s.powerLinks := by
  unfold State.startFormat
  rw [State.powerLinks_checkVolume, State.powerLinks_issueStaged, State.powerLinks_setVolWait, State.powerLinks_setVolState]

theorem State.powerLinks_startOpen (s : State) (v : Nat) : (s.startOpen v).powerLinks = s.powerLinks := by
  unfold State.startOpen
  dsimp only
  rw [State.powerLinks_checkVolume, State.powerLinks_issueSpan, State.powerLinks_setVolWait, State.powerLinks_setVolState]

theorem State.powerLinks_volWake (s : State) (v : Nat) : (s.volWake v).powerLinks = s.powerLinks := by
  unfold State.volWake
  split
  · rfl
  · split
    · exact s.powerLinks_startFormat v
    · exact s.powerLinks_startOpen v
    · rfl

theorem State.powerLinks_volOff (s : State) (v : Nat) : (s.volOff v).powerLinks = s.powerLinks := by
  unfold State.volOff
  dsimp only
  rw [State.powerLinks_setVolWait, State.powerLinks_setVolState]
  refine foldl_keeps State.powerLinks _ (fun t c => ?_) _ s
  split
  · split
    · exact t.powerLinks_haltChan _ _ _
    · rfl
  · rfl

theorem State.powerLinks_afterHost (s : State) (nsid : Nat) : (s.afterHost nsid).powerLinks = s.powerLinks := by
  unfold State.afterHost
  split
  · dsimp only
    split
    · split
      · exact s.powerLinks_volWake _
      · exact (State.powerLinks_volOff _ _).trans (s.powerLinks_volWake _)
    · exact s.powerLinks_volWake _
  · rfl

theorem State.powerLinks_controllerDisable (s : State) : (controllerDisable s).powerLinks = s.powerLinks := by
  unfold controllerDisable
  split
  · rfl
  · exact foldl_keeps State.powerLinks _ (fun t c => t.powerLinks_afterHost _) _ _

/-- With no command outstanding a disable ends the controller's own state alone. -/
theorem controllerDisable_idle {s : State} (h : s.ofc.cmds = []) : (controllerDisable s).ofc.enabled = false ∧ (controllerDisable s).regs = s.regs := by
  unfold controllerDisable
  split
  · rename_i he
    exact ⟨by simpa using he, rfl⟩
  · rw [h]
    exact ⟨rfl, rfl⟩

/-! ### What every reset but POR leaves (R342) -/

/-- The registers that a reset keeps. -/
def State.keptRegs (s : State) : RegFile := alwaysOn.foldl (fun rf a => RegFile.put rf a (s.regs.word a)) ([] : RegFile)

theorem RegFile.word_putWords (f : RegAddr → Word) (l : List RegAddr) (rf : RegFile) (b : RegAddr) :
    (l.foldl (fun r a => r.put a (f a)) rf).word b = if b ∈ l then f b else rf.word b := by
  induction l generalizing rf with
  | nil => rfl
  | cons a r ih =>
    have hput : (rf.put a (f a)).word b = if b = a then f a else rf.word b := SMap.get_set resetWord rf a b _
    rw [List.foldl_cons, ih, hput]
    by_cases hr : b ∈ r
    · rw [if_pos hr, if_pos (List.mem_cons_of_mem _ hr)]
    · rw [if_neg hr]
      by_cases ha : b = a
      · subst ha; rw [if_pos rfl, if_pos List.mem_cons_self]
      · rw [if_neg ha, if_neg (fun hm => (List.mem_cons.mp hm).elim ha hr)]

/-- The state that a reset leaves, before the temperatures are taken over and the partners see their pins. -/
def State.bareReset (s : State) : State :=
  let p := s.pwr
  let fresh := State.reset.pwr
  { State.reset with
      regs := s.keptRegs
      elapsed := s.elapsed
      pwr := { fresh with
        stage := p.stage, enIo := p.enIo, enCore := p.enCore, enHs := p.enHs, enVddq := p.enVddq, tcxoEn := p.tcxoEn, fails := p.fails
        resetN := p.resetN, perstN := p.perstN, casRoot := p.casRoot, aonRounds := p.aonRounds, powerCycles := p.powerCycles, savedLanes := p.savedLanes, savedCfg := p.savedCfg
        restoreWait := p.restoreWait, bootReports := p.bootReports.filter (fun r => r.1 != 0x061) }
      irq := []
      outbox := s.outbox
      freeCount := s.freeCount
      pending := s.pending }

/-- What a reset sends of FLK_MGR_ALIVE (R321). -/
def State.releaseManager (t s : State) : State := if Fld.HIE.HIE_STAT_STATE s.regs = 2 then t.emit .mgrReleased else t

theorem State.resetCore_eq (s : State) : s.resetCore = (s.bareReset.iceResyncNow.releaseManager s).showPartners s.partnerPins := rfl

section keeps
variable {α : Type} (p : State → α)

/-- What no output changes, showing the pins leaves. -/
theorem State.showPartners_keeps (he : ∀ (t : State) (o : Output), p (t.emit o) = p t) (t : State) (old : PartnerPins) : p (t.showPartners old) = p t := by
  unfold State.showPartners
  split
  · rfl
  · exact he t _

theorem State.releaseManager_keeps (he : ∀ (t : State) (o : Output), p (t.emit o) = p t) (t s : State) : p (t.releaseManager s) = p t := by
  unfold State.releaseManager
  split
  · exact he t _
  · rfl

/-- What no register changes, taking the fused temperatures leaves. -/
theorem State.iceResyncNow_keeps (hr : ∀ (t : State) (a n : Nat), p (t.setReg a n) = p t) (t : State) : p t.iceResyncNow = p t :=
  foldl_keeps p _ (fun t _ => hr t _ _) _ t

/-- What neither a register nor an output changes, a reset leaves as it was when everything else had returned to reset. -/
theorem State.resetCore_keeps (hr : ∀ (t : State) (a n : Nat), p (t.setReg a n) = p t) (he : ∀ (t : State) (o : Output), p (t.emit o) = p t) (s : State) :
    p s.resetCore = p s.bareReset := by
  rw [State.resetCore_eq, State.showPartners_keeps p he, State.releaseManager_keeps p he, State.iceResyncNow_keeps p hr]

end keeps

theorem State.resetCore_pwr (s : State) : s.resetCore.pwr = s.bareReset.pwr := State.resetCore_keeps State.pwr (fun _ _ _ => rfl) (fun _ _ => rfl) s
theorem State.resetCore_dram (s : State) : s.resetCore.dram = State.reset.dram := State.resetCore_keeps State.dram (fun _ _ _ => rfl) (fun _ _ => rfl) s
theorem State.resetCore_pending (s : State) : s.resetCore.pending = s.pending := State.resetCore_keeps State.pending (fun _ _ _ => rfl) (fun _ _ => rfl) s
theorem State.resetCore_regs (s : State) : s.resetCore.regs = s.bareReset.iceResyncNow.regs := by
  rw [State.resetCore_eq, State.showPartners_keeps State.regs (fun _ _ => rfl), State.releaseManager_keeps State.regs (fun _ _ => rfl)]

/-- The registers after a reset, apart from the temperatures. -/
theorem State.resetCore_word (s : State) {a : RegAddr} (h : a ∉ tempRegs Adr.ICE.TEMP) :
    s.resetCore.regs.word a = if a ∈ alwaysOn then s.regs.word a else State.reset.regs.word a := by
  rw [State.resetCore_regs]
  refine (SameRegsBut.putTemps s.bareReset Adr.ICE.TEMP s.bareReset.fusedTemps a h).trans ?_
  exact RegFile.word_putWords _ _ _ _

theorem unsigned_signed {x : Nat} (h : x < 2 ^ 32) : unsigned (signed x 32) 32 = x := by
  unfold signed unsigned
  dsimp only
  split <;> omega

theorem nth_range_five : ∀ n < 5, nth 0 (List.range 5) n = n := by decide

/-- The programmable temperatures read as the fused ones once they are taken over. -/
theorem State.rd_temp_iceResyncNow (s : State) {n : Nat} (h : n < 5) : s.iceResyncNow.rd (Adr.ICE.TEMP n) = s.rd (Adr.ICE.FUSED_TEMP n) := by
  refine (State.rd_setRegs temp_inj (fun n => unsigned (nth 0 s.fusedTemps n) 32) (List.range 5) s n).trans ?_
  have hn : nth 0 s.fusedTemps n = signed (s.rd (Adr.ICE.FUSED_TEMP n)) 32 :=
    (nth_map 0 0 _ (by simpa using h)).trans (by rw [nth_range_five n h])
  rw [if_pos (List.mem_range.mpr h), hn, unsigned_signed (s.rd_lt _), Nat.mod_eq_of_lt (s.rd_lt _)]

/-! ### A reset source other than POR (R342, R371) -/

/-- A reset, with its cause recorded. -/
def State.resetWith (s : State) (cause : Nat) : State := s.resetCore.setReg Adr.PMU.LAST_RESET cause

theorem State.resetWith_pwr (s : State) (cause : Nat) : (s.resetWith cause).pwr = s.bareReset.pwr := (State.setReg_pwr _ _ _).trans s.resetCore_pwr
theorem State.resetWith_dram (s : State) (cause : Nat) : (s.resetWith cause).dram = State.reset.dram := (State.setReg_dram _ _ _).trans s.resetCore_dram
theorem State.resetWith_pending (s : State) (cause : Nat) : (s.resetWith cause).pending = s.pending :=
  (State.setReg_pending _ _ _).trans s.resetCore_pending

/-- Replace the power management unit. -/
def State.withPwr (t : State) (p : Pwr) : State := { t with pwr := p }

theorem State.withPwr_pwr (t : State) (p : Pwr) : (t.withPwr p).pwr = p := rfl
theorem State.withPwr_dram (t : State) (p : Pwr) : (t.withPwr p).dram = t.dram := rfl
theorem State.withPwr_pending (t : State) (p : Pwr) : (t.withPwr p).pending = t.pending := rfl
theorem State.withPwr_rd (t : State) (p : Pwr) (a : RegAddr) : (t.withPwr p).rd a = t.rd a := rfl

/-- Where the sequencer stands once a reset has begun with the rails on: before step 6 of R339, waiting for the voltage where it has moved. -/
def State.atRelease (u : State) (wait : Bool) : State := u.withPwr { u.pwr with stage := .up 5, restoreWait := wait }

/-- What follows a reset: with the rails on, the voltage is restored where it has moved, or the release follows at once. -/
def State.resume (u : State) (moved on : Bool) : State :=
  if on then
    let v := if moved then u.emit (.vsel 3) else u
    let w := v.atRelease moved
    if moved then w else w.releaseReset
  else u

theorem State.resetFrom_eq (s : State) (cause : Nat) :
    s.resetFrom cause = (s.resetWith cause).resume (decide (Fld.PMU.VSEL_CUR s.regs ≠ 3)) (decide (s.pwr.stage = .on)) := rfl

theorem State.resetFrom_off {s : State} (h : s.pwr.stage ≠ .on) (cause : Nat) : s.resetFrom cause = s.resetWith cause := by
  rw [State.resetFrom_eq, decide_eq_false h]
  rfl

theorem State.resetFrom_moved {s : State} (h : s.pwr.stage = .on) (hv : Fld.PMU.VSEL_CUR s.regs ≠ 3) (cause : Nat) :
    s.resetFrom cause = ((s.resetWith cause).emit (.vsel 3)).atRelease true := by
  rw [State.resetFrom_eq, decide_eq_true h, decide_eq_true hv]
  rfl

theorem State.resetFrom_stayed {s : State} (h : s.pwr.stage = .on) (hv : Fld.PMU.VSEL_CUR s.regs = 3) (cause : Nat) :
    s.resetFrom cause = ((s.resetWith cause).atRelease false).releaseReset := by
  rw [State.resetFrom_eq, decide_eq_true h, decide_eq_false (not_not_intro hv)]
  rfl

theorem State.atRelease_pwr (u : State) (wait : Bool) : (u.atRelease wait).pwr = { u.pwr with stage := .up 5, restoreWait := wait } := rfl

/-- The release of internal reset, before the cascade starts and the partners see their pins. -/
def State.released (u : State) : State :=
  ((u.iceResyncNow).setReg Adr.PMU.BOOT_STAT 0).withPwr
    { u.pwr with stage := .on, internalReset := false, restoreWait := false, fails := 0, boot := .rom, epReady := u.pwr.perstN }

theorem State.releaseReset_high {u : State} (h : u.pwr.resetN = true) : u.releaseReset = u.released.startCascade.showPartners u.partnerPins := if_pos h

theorem State.releaseReset_low {u : State} (h : u.pwr.resetN = false) : u.releaseReset = u := by
  unfold State.releaseReset
  rw [h, if_neg Bool.false_ne_true]

theorem State.startCascade_keeps {α : Type} (p : State → α) (hr : ∀ (t : State) (a n : Nat), p (t.setReg a n) = p t)
    (he : ∀ (t : State) (o : Output), p (t.emit o) = p t) (t : State) : p t.startCascade = p t := by
  unfold State.startCascade
  split
  · rw [he, hr]
  · rfl

/-- What neither a register nor an output changes, a release with RESET_N high leaves as it sets it. -/
theorem State.releaseReset_keeps {α : Type} (p : State → α) (hr : ∀ (t : State) (a n : Nat), p (t.setReg a n) = p t)
    (he : ∀ (t : State) (o : Output), p (t.emit o) = p t) {u : State} (h : u.pwr.resetN = true) : p u.releaseReset = p u.released := by
  rw [State.releaseReset_high h, State.showPartners_keeps p he, State.startCascade_keeps p hr he]

theorem State.releaseReset_pwr {u : State} (h : u.pwr.resetN = true) : u.releaseReset.pwr = u.released.pwr :=
  State.releaseReset_keeps State.pwr (fun _ _ _ => rfl) (fun _ _ => rfl) h

theorem State.released_dram (u : State) : u.released.dram = u.dram := by
  rw [State.released, State.withPwr_dram, State.setReg_dram, State.iceResyncNow_keeps State.dram (fun _ _ _ => rfl)]

theorem State.released_pending (u : State) : u.released.pending = u.pending := by
  rw [State.released, State.withPwr_pending, State.setReg_pending, State.iceResyncNow_keeps State.pending (fun _ _ _ => rfl)]

theorem State.releaseReset_dram {u : State} (h : u.pwr.resetN = true) : u.releaseReset.dram = u.dram := by
  rw [State.releaseReset_keeps State.dram (fun _ _ _ => rfl) (fun _ _ => rfl) h, State.released_dram]

theorem State.releaseReset_pending {u : State} (h : u.pwr.resetN = true) : u.releaseReset.pending = u.pending := by
  rw [State.releaseReset_keeps State.pending (fun _ _ _ => rfl) (fun _ _ => rfl) h, State.released_pending]

theorem SameRegsBut.startCascade (u : State) : SameRegsBut [Adr.HIE.HIE_STAT] u u.startCascade := by
  unfold State.startCascade
  split
  · exact SameRegsBut.putN (n := 2 ^ 12 + 2 ^ 17) rfl
  · exact .refl _ rfl

/-- After the temperatures are taken over, a release writes BOOT_STAT and, at the cascade's root, HIE_STAT. -/
theorem SameRegsBut.releaseReset {u : State} (h : u.pwr.resetN = true) :
    SameRegsBut [Adr.HIE.HIE_STAT, Adr.PMU.BOOT_STAT] u.iceResyncNow u.releaseReset := by
  have hshow (t : State) (old : PartnerPins) : (t.showPartners old).regs = t.regs := State.showPartners_keeps State.regs (fun _ _ => rfl) t old
  have hboot : SameRegsBut [Adr.PMU.BOOT_STAT] u.iceResyncNow u.released := SameRegsBut.putN (n := 0) rfl
  rw [State.releaseReset_high h]
  refine SameRegsBut.mono ((hboot.trans (SameRegsBut.startCascade _)).trans (SameRegsBut.refl [] (hshow _ _))) ?_
  decide

/-! ### The clauses of the resets -/

section restart
variable {s : State} (hon : s.pwr.stage = .on) (cause : Nat)
include hon

section stayed
variable (hv : Fld.PMU.VSEL_CUR s.regs = 3) (hn : s.pwr.resetN = true)
include hv hn

omit hon hv in
theorem State.atRelease_resetN : ((s.resetWith cause).atRelease false).pwr.resetN = true := by
  rw [State.atRelease_pwr, State.resetWith_pwr]
  exact hn

theorem State.resetFrom_stayed_pwr : (s.resetFrom cause).pwr.stage = .on ∧ (s.resetFrom cause).pwr.boot = .rom := by
  rw [State.resetFrom_stayed hon hv, State.releaseReset_pwr (State.atRelease_resetN cause hn)]
  exact ⟨rfl, rfl⟩

theorem State.resetFrom_stayed_dram : (s.resetFrom cause).dram = State.reset.dram := by
  rw [State.resetFrom_stayed hon hv, State.releaseReset_dram (State.atRelease_resetN cause hn)]
  exact s.resetWith_dram cause

theorem State.resetFrom_stayed_pending : (s.resetFrom cause).pending = s.pending := by
  rw [State.resetFrom_stayed hon hv, State.releaseReset_pending (State.atRelease_resetN cause hn)]
  exact s.resetWith_pending cause

/-- The registers that a reset and its release change after the reset values and the kept ones stand. -/
theorem SameRegsBut.resetFrom_stayed : SameRegsBut [Adr.HIE.HIE_STAT, Adr.PMU.BOOT_STAT] ((s.resetWith cause).atRelease false).iceResyncNow (s.resetFrom cause) := by
  rw [State.resetFrom_stayed hon hv]
  exact .releaseReset (State.atRelease_resetN cause hn)

theorem State.resetFrom_stayed_word {a : RegAddr} (ha : a ≠ Adr.PMU.LAST_RESET) (hl : a ∉ [Adr.HIE.HIE_STAT, Adr.PMU.BOOT_STAT] ++ tempRegs Adr.ICE.TEMP) :
    (s.resetFrom cause).regs.word a = if a ∈ alwaysOn then s.regs.word a else State.reset.regs.word a := by
  obtain ⟨hstat, htemp⟩ := not_or.mp (fun h => hl (List.mem_append.mpr h))
  have hlast : SameRegsBut [Adr.PMU.LAST_RESET] s.resetCore (s.resetWith cause) := SameRegsBut.putN (n := cause) rfl
  calc (s.resetFrom cause).regs.word a
      = ((s.resetWith cause).atRelease false).iceResyncNow.regs.word a := SameRegsBut.resetFrom_stayed hon cause hv hn a hstat
    _ = (s.resetWith cause).regs.word a := SameRegsBut.putTemps ((s.resetWith cause).atRelease false) _ _ a htemp
    _ = s.resetCore.regs.word a := hlast a (by simpa using ha)
    _ = _ := s.resetCore_word htemp

theorem State.resetFrom_stayed_last (hc : cause < 2 ^ 32) : (s.resetFrom cause).rd Adr.PMU.LAST_RESET = cause := by
  rw [(SameRegsBut.resetFrom_stayed hon cause hv hn).rd (by decide)]
  refine ((SameRegsBut.putTemps ((s.resetWith cause).atRelease false) _ _).rd (by decide)).trans ?_
  exact (State.rd_setReg_same _ _ _).trans (Nat.mod_eq_of_lt hc)

theorem State.resetFrom_stayed_temp {n : Nat} (h : n < 5) : (s.resetFrom cause).rd (Adr.ICE.TEMP n) = s.rd (Adr.ICE.FUSED_TEMP n) := by
  have htemp : ∀ n < 5, Adr.ICE.TEMP n ∉ [Adr.HIE.HIE_STAT, Adr.PMU.BOOT_STAT] := by decide
  have hfused : ∀ n < 5, Adr.ICE.FUSED_TEMP n ∉ tempRegs Adr.ICE.TEMP ∧ Adr.ICE.FUSED_TEMP n ∈ alwaysOn ∧ Adr.ICE.FUSED_TEMP n ∉ [Adr.PMU.LAST_RESET] := by decide
  obtain ⟨hnot, hmem, hlast⟩ := hfused n h
  have hcause : SameRegsBut [Adr.PMU.LAST_RESET] s.resetCore (s.resetWith cause) := SameRegsBut.putN (n := cause) rfl
  rw [(SameRegsBut.resetFrom_stayed hon cause hv hn).rd (htemp n h), State.rd_temp_iceResyncNow _ h]
  refine (hcause.rd hlast).trans ?_
  unfold State.rd
  rw [s.resetCore_word hnot, if_pos hmem]

end stayed
end restart

theorem State.resetFrom_moved_pwr {s : State} (hon : s.pwr.stage = .on) (hv : Fld.PMU.VSEL_CUR s.regs ≠ 3) (cause : Nat) :
    (s.resetFrom cause).pwr.stage = .up 5 ∧ (s.resetFrom cause).pwr.restoreWait = true := by
  rw [State.resetFrom_moved hon hv]
  exact ⟨rfl, rfl⟩

theorem State.resetFrom_moved_vsel {s : State} (hon : s.pwr.stage = .on) (hv : Fld.PMU.VSEL_CUR s.regs ≠ 3) (cause : Nat) :
    .vsel 3 ∈ (s.resetFrom cause).outbox := by
  rw [State.resetFrom_moved hon hv]
  exact List.mem_append_right _ (List.mem_singleton_self _)

theorem State.resetWith_last (s : State) {cause : Nat} (hc : cause < 2 ^ 32) : (s.resetWith cause).rd Adr.PMU.LAST_RESET = cause :=
  (State.rd_setReg_same _ _ _).trans (Nat.mod_eq_of_lt hc)

theorem State.resetFrom_moved_last {s : State} (hon : s.pwr.stage = .on) (hv : Fld.PMU.VSEL_CUR s.regs ≠ 3) {cause : Nat} (hc : cause < 2 ^ 32) :
    (s.resetFrom cause).rd Adr.PMU.LAST_RESET = cause := by
  rw [State.resetFrom_moved hon hv]
  exact s.resetWith_last hc

/-! ### RESET_N (R342, R352, R371) -/

/-- RESET_N is low, and CAS_ROOT is as strapped. -/
def State.pinLow (s : State) (casRoot : Bool) : State := s.withPwr { s.pwr with resetN := false, casRoot := casRoot }

/-- What a reset goes on to from each stage: from lock-out and sleep it powers up, and it ends a wake. -/
def State.afterPin (t : State) : PwrStage → State
  | .dead | .sleep => t.forgetDelays.powerUp
  | .waking _ => (t.powerDown .retry).forgetDelays.powerUp
  | _ => t

theorem pinReset_eq (casRoot : Bool) (s : State) : pinReset casRoot s = ((s.pinLow casRoot).resetFrom 1).afterPin (s.pinLow casRoot).pwr.stage := rfl

/-- The reset of a device with RESET_N low and its rails on: what it leaves, where it stands and what it sends. -/
structure HeldInReset (s t : State) : Prop where
  pwr : ∃ wait, t.pwr = { s.bareReset.pwr with stage := .up 5, restoreWait := wait }
  last : t.rd Adr.PMU.LAST_RESET = 1
  dram : t.dram = State.reset.dram
  pending : t.pending = s.pending
  sent : ∀ o ∈ (s.resetWith 1).outbox, o ∈ t.outbox

theorem HeldInReset.atRelease (s : State) (wait : Bool) : HeldInReset s ((s.resetWith 1).atRelease wait) where
  pwr := ⟨wait, by rw [State.atRelease_pwr, State.resetWith_pwr]⟩
  last := by rw [State.atRelease, State.withPwr_rd, State.resetWith_last s (by decide)]
  dram := by rw [State.atRelease, State.withPwr_dram, State.resetWith_dram]
  pending := by rw [State.atRelease, State.withPwr_pending, State.resetWith_pending]
  sent := fun _ h => h

theorem HeldInReset.emit_atRelease (s : State) (o : Output) (wait : Bool) : HeldInReset s (((s.resetWith 1).emit o).atRelease wait) where
  pwr := ⟨wait, by rw [State.atRelease_pwr, State.emit_pwr, State.resetWith_pwr]⟩
  last := by rw [State.atRelease, State.withPwr_rd]; exact s.resetWith_last (cause := 1) (by decide)
  dram := by rw [State.atRelease, State.withPwr_dram, State.emit_dram, State.resetWith_dram]
  pending := by rw [State.atRelease, State.withPwr_pending, State.emit_pending, State.resetWith_pending]
  sent := fun _ h => List.mem_append_left _ h

theorem HeldInReset.of_resetFrom {s : State} (hon : s.pwr.stage = .on) (hn : s.pwr.resetN = false) : HeldInReset s (s.resetFrom 1) := by
  by_cases hv : Fld.PMU.VSEL_CUR s.regs = 3
  · have hlow : ((s.resetWith 1).atRelease false).pwr.resetN = false := by
      rw [State.atRelease_pwr, State.resetWith_pwr]
      exact hn
    rw [State.resetFrom_stayed hon hv, State.releaseReset_low hlow]
    exact .atRelease s false
  · rw [State.resetFrom_moved hon hv]
    exact .emit_atRelease s _ true

theorem HeldInReset.pinReset {s : State} (h : s.pwr.stage = .on) (casRoot : Bool) : HeldInReset (s.pinLow casRoot) (pinReset casRoot s) := by
  have hon : (s.pinLow casRoot).pwr.stage = .on := h
  rw [pinReset_eq, hon]
  exact .of_resetFrom hon rfl

/-- The pins of a device with its rails on whose blocks are in reset (R343). -/
theorem State.partnerPins_held {t : State} (hrails : (t.pwr.enIo && t.pwr.enCore && t.pwr.enHs && t.pwr.enVddq) = true) (hreset : t.pwr.internalReset = true)
    (hready : t.pwr.epReady = false) : t.partnerPins = pinsInReset := by
  unfold State.partnerPins
  simp only [hrails, hreset, hready]
  rfl

section held
variable {s t : State} (h : HeldInReset s t)
include h

/-- The pins of a device held in reset, with its rails on. -/
theorem HeldInReset.partnerPins (hrails : (s.pwr.enIo && s.pwr.enCore && s.pwr.enHs && s.pwr.enVddq) = true) : t.partnerPins = pinsInReset := by
  obtain ⟨wait, hpwr⟩ := h.pwr
  refine State.partnerPins_held ?_ ?_ ?_ <;> rw [hpwr]
  · exact hrails
  · rfl
  · rfl

theorem HeldInReset.bootReports : ∀ r ∈ t.pwr.bootReports, r.1 ≠ 0x061 := by
  obtain ⟨wait, hpwr⟩ := h.pwr
  intro r hr
  rw [hpwr] at hr
  exact bne_iff_ne.mp (List.mem_filter.mp hr).2

end held

/-- A MANAGER's reset leaves FLK_MGR_ALIVE undriven. -/
theorem State.mgrReleased_mem_resetWith {s : State} (h : Fld.HIE.HIE_STAT_STATE s.regs = 2) (cause : Nat) : .mgrReleased ∈ (s.resetWith cause).outbox := by
  have hcore : .mgrReleased ∈ s.resetCore.outbox := by
    rw [State.resetCore_eq, State.showPartners_eq, State.releaseManager, if_pos h]
    exact List.mem_append_left _ (List.mem_append_right _ (List.mem_singleton_self _))
  exact hcore

/-- The partners of a reset device are shown the pins that it had not. -/
theorem State.pinsInReset_mem_resetWith {s : State} (hrails : (s.pwr.enIo && s.pwr.enCore && s.pwr.enHs && s.pwr.enVddq) = true)
    (hpins : s.partnerPins ≠ pinsInReset) (cause : Nat) : .partnerPins pinsInReset ∈ (s.resetWith cause).outbox := by
  have hcore : .partnerPins pinsInReset ∈ s.resetCore.outbox := by
    have hpwr : (s.bareReset.iceResyncNow.releaseManager s).pwr = s.bareReset.pwr := by
      rw [State.releaseManager_keeps State.pwr (fun _ _ => rfl), State.iceResyncNow_keeps State.pwr (fun _ _ _ => rfl)]
    have hheld : (s.bareReset.iceResyncNow.releaseManager s).partnerPins = pinsInReset := by
      refine State.partnerPins_held ?_ ?_ ?_ <;> rw [hpwr]
      · exact hrails
      · rfl
      · rfl
    rw [State.resetCore_eq, State.showPartners_eq, hheld, if_neg hpins.symm]
    exact List.mem_append_right _ (List.mem_singleton_self _)
  exact hcore

/-- A pin reset within the time for the voltage does not shorten it. -/
theorem pinReset_waiting {s : State} (h : s.pwr.stage = .up 5) (casRoot : Bool) : pinReset casRoot s = (s.pinLow casRoot).resetWith 1 := by
  have hup : (s.pinLow casRoot).pwr.stage = .up 5 := h
  rw [pinReset_eq, State.resetFrom_off (by rw [hup]; decide), hup]
  rfl

/-- A pin reset of a locked-out or sleeping device powers it up. -/
theorem pinReset_off {s : State} (h : s.pwr.stage = .dead ∨ s.pwr.stage = .sleep) (casRoot : Bool) :
    pinReset casRoot s = ((s.pinLow casRoot).resetWith 1).forgetDelays.powerUp := by
  have hoff : (s.pinLow casRoot).pwr.stage = .dead ∨ (s.pinLow casRoot).pwr.stage = .sleep := h
  rcases hoff with hstage | hstage <;>
  · rw [pinReset_eq, State.resetFrom_off (by rw [hstage]; decide), hstage]
    rfl

/-! ### Power-up (R339) -/

theorem State.powerUp_pwr (t : State) :
    t.powerUp.pwr = { t.pwr with enIo := true, enCore := false, enHs := false, enVddq := false, tcxoEn := true, stage := .up 2 } := by
  unfold State.powerUp
  rw [State.setRails_eq]

theorem State.powerUp_regs (t : State) : t.powerUp.regs = t.regs := by
  unfold State.powerUp
  rw [State.setRails_eq]

theorem State.powerUp_rd (t : State) (a : RegAddr) : t.powerUp.rd a = t.rd a := by
  unfold State.rd
  rw [State.powerUp_regs]

theorem State.forgetDelays_rd (t : State) (a : RegAddr) : t.forgetDelays.rd a = t.rd a := rfl

theorem State.powerUp_sends (t : State) : .powerPins true false false false true ∈ t.powerUp.outbox := by
  have hrails : .powerPins true false false false true ∈ (t.setRails true false false false true).outbox := by
    unfold State.setRails
    rw [State.showPartners_eq]
    exact List.mem_append_left _ (List.mem_append_right _ (List.mem_singleton_self _))
  exact hrails

/-- What settles after a command keeps what it had sent. -/
theorem State.mem_settle {u : State} {o : Output} (h : o ∈ u.outbox) : o ∈ u.settle.outbox := by
  obtain ⟨out, hout⟩ := u.settle_sends
  rw [hout]
  exact List.mem_append_left _ h

theorem State.partnerPins_settle (u : State) : u.settle.partnerPins = u.partnerPins := by
  unfold State.partnerPins
  rw [State.settle_pwr, State.settle_regs]

/-! ### PCIe links and the thermal restart (R66, R316, R342) -/

/-- The endpoint, both functions and their link in reset. -/
def State.endpointHeld (s : State) : State :=
  { s with pwr := { s.pwr with perstN := false, epReady := false }, trl := { s.trl with epGen := 0 } }

theorem perstN_low (s : State) : perstN false s = controllerDisable (s.endpointHeld.showPartners s.partnerPins) := rfl

theorem perstN_low_links (s : State) : (perstN false s).powerLinks = s.endpointHeld.powerLinks := by
  rw [perstN_low, State.powerLinks_controllerDisable, State.showPartners_keeps State.powerLinks (fun _ _ => rfl)]

theorem perstN_low_idle {s : State} (h : s.ofc.cmds = []) : (perstN false s).ofc.enabled = false ∧ (perstN false s).regs = s.regs := by
  have hcmds : (s.endpointHeld.showPartners s.partnerPins).ofc.cmds = [] := by
    rw [State.showPartners_keeps (fun t => t.ofc.cmds) (fun _ _ => rfl)]
    exact h
  obtain ⟨hen, hregs⟩ := controllerDisable_idle hcmds
  rw [perstN_low, hregs, State.showPartners_keeps State.regs (fun _ _ => rfl)]
  exact ⟨hen, rfl⟩

theorem perstN_high (s : State) :
    perstN true s = (s.withPwr { s.pwr with perstN := true, epReady := !s.pwr.internalReset || decide (s.pwr.stage = .waking 7) }).showPartners s.partnerPins := rfl

theorem thermalRestart_cold {s : State} (hstage : s.pwr.stage = .thermal) (hrounds : 10743 ≤ s.pwr.aonRounds) (hcool : ∀ x ∈ s.fusedTemps, x < 85 * 65536) :
    thermalRestart s = (s.withPwr { s.pwr with bootReports := s.pwr.bootReports ++ [(0x042, 0x20)] }).powerUp :=
  if_pos ⟨hstage, List.all_eq_true.mpr (fun x hx => decide_eq_true (hcool x hx)), hrounds⟩

theorem thermalRestart_waits {s : State} (h : s.pwr.stage ≠ .thermal ∨ s.pwr.aonRounds < 10743 ∨ ∃ x, x ∈ s.fusedTemps ∧ 85 * 65536 ≤ x) :
    thermalRestart s = s := by
  refine if_neg (fun ⟨hstage, hcool, hrounds⟩ => ?_)
  rcases h with h | h | ⟨x, hx, hhot⟩
  · exact h hstage
  · omega
  · have hx := of_decide_eq_true (List.all_eq_true.mp hcool x hx)
    omega

/-- What a reset of a running device records and keeps, as the watchdog and RST_CMD cause it. -/
theorem Completes.reset {c : Instr} {s : State} {cause : Nat} (hc : cause < 2 ^ 32) (w : c.wellFormed = true) (h : exec c s = answer c (s.resetFrom cause))
    (hon : s.pwr.stage = .on) (hn : s.pwr.resetN = true) :
    (Fld.PMU.VSEL_CUR s.regs = 3 → Completes c s (fun t => t.pwr.stage = .on ∧ t.pwr.boot = .rom ∧ t.rd Adr.PMU.LAST_RESET = cause ∧ t.dram = State.reset.dram ∧
      t.pending = s.pending ∧ (∀ a, a ∈ alwaysOn → a ≠ Adr.PMU.LAST_RESET → t.regs.word a = s.regs.word a) ∧
      (∀ n, n < 5 → t.rd (Adr.ICE.TEMP n) = s.rd (Adr.ICE.FUSED_TEMP n)) ∧
      (∀ a, a ∉ alwaysOn → a ∉ [Adr.HIE.HIE_STAT, Adr.PMU.BOOT_STAT] ++ (List.range 5).map Adr.ICE.TEMP → t.regs.word a = State.reset.regs.word a))) ∧
    (Fld.PMU.VSEL_CUR s.regs ≠ 3 → Completes c s (fun t => t.pwr.stage = .up 5 ∧ t.pwr.restoreWait = true ∧ .vsel 3 ∈ t.outbox ∧
      t.rd Adr.PMU.LAST_RESET = cause)) := by
  constructor
  · intro hv
    obtain ⟨hstage, hboot⟩ := State.resetFrom_stayed_pwr hon cause hv hn
    have hkept : ∀ a ∈ alwaysOn, a ∉ [Adr.HIE.HIE_STAT, Adr.PMU.BOOT_STAT] ++ tempRegs Adr.ICE.TEMP := by decide
    have hlast : Adr.PMU.LAST_RESET ∈ alwaysOn := by decide
    refine .of_answer h w ?_
    simp only [State.settle_pwr, State.settle_rd, State.settle_dram, State.settle_pending, State.settle_regs]
    refine ⟨hstage, hboot, State.resetFrom_stayed_last hon cause hv hn hc, State.resetFrom_stayed_dram hon cause hv hn,
      State.resetFrom_stayed_pending hon cause hv hn, fun a ha hne => ?_, fun n hn5 => State.resetFrom_stayed_temp hon cause hv hn hn5, fun a ha hl => ?_⟩
    · rw [State.resetFrom_stayed_word hon cause hv hn hne (hkept a ha), if_pos ha]
    · rw [State.resetFrom_stayed_word hon cause hv hn (fun (e : a = Adr.PMU.LAST_RESET) => ha (by rw [e]; exact hlast)) hl, if_neg ha]
  · intro hv
    obtain ⟨hstage, hwait⟩ := State.resetFrom_moved_pwr hon hv cause
    refine .of_answer h w ?_
    simp only [State.settle_pwr, State.settle_rd]
    exact ⟨hstage, hwait, State.mem_settle (State.resetFrom_moved_vsel hon hv cause), State.resetFrom_moved_last hon hv hc⟩

/-- Settles O58: each source's reset is `resetFrom` with its cause, and what RESET_N low, PERST_N and the thermal restart add to it. -/
theorem resetSources : Obligations.ResetSources := by
  unfold Obligations.ResetSources
  intro s
  refine ⟨?sources, ?noWatchdog, ?noKey, .plain rfl, ?held, ?waiting, ?pins, ?dark, ?rise, ?fall, ?trained, ?untrained, ?rootPort, ?hot, ?cool⟩
  case sources =>
    rintro c cause (⟨rfl, rfl, hen⟩ | ⟨rfl, rfl⟩) hon hn
    · exact Completes.reset (by decide) rfl (congrArg (answer .watchdogExpiry) (if_pos hen)) hon hn
    · exact Completes.reset (by decide) rfl rfl hon hn
  case noWatchdog =>
    intro hen
    exact .plain rfl (congrArg (answer .watchdogExpiry) (if_neg (by rw [hen]; decide)))
  case noKey =>
    intro v hv
    exact .plain rfl (congrArg (answer (.rstCmd v)) (if_neg (fun h => hv (BitVec.eq_of_toNat_eq h))))
  case held =>
    intro casRoot hon
    have h := HeldInReset.pinReset hon casRoot
    obtain ⟨wait, hpwr⟩ := h.pwr
    refine .of_answer (u := pinReset casRoot s) rfl rfl ?_
    rw [State.settle_pwr, State.settle_rd, State.settle_dram, State.settle_pending, hpwr]
    exact ⟨rfl, rfl, rfl, h.last, h.dram, h.pending⟩
  case waiting =>
    intro casRoot hup hwait
    refine .of_answer (congrArg (answer (.pinReset casRoot)) (pinReset_waiting hup casRoot)) rfl ?_
    simp only [State.settle_pwr, State.resetWith_pwr]
    exact ⟨hup, hwait, rfl⟩
  case pins =>
    intro hon hio hcore hhs hvddq
    have h := HeldInReset.pinReset hon false
    have hrails : ((s.pinLow false).pwr.enIo && (s.pinLow false).pwr.enCore && (s.pinLow false).pwr.enHs && (s.pinLow false).pwr.enVddq) = true := by
      simp only [State.pinLow, State.withPwr_pwr, hio, hcore, hhs, hvddq]
      rfl
    refine .of_answer (u := pinReset false s) rfl rfl ?_
    rw [State.partnerPins_settle, State.settle_pwr]
    exact ⟨h.partnerPins hrails, fun hp => State.mem_settle (h.sent _ (State.pinsInReset_mem_resetWith hrails hp 1)),
      fun hm => State.mem_settle (h.sent _ (State.mgrReleased_mem_resetWith (s := s.pinLow false) hm 1)), h.bootReports⟩
  case dark =>
    intro casRoot hstage
    refine .of_answer (congrArg (answer (.pinReset casRoot)) (pinReset_off hstage casRoot)) rfl ?_
    rw [State.settle_pwr, State.powerUp_pwr, State.settle_rd, State.powerUp_rd, State.forgetDelays_rd, State.resetWith_last _ (by decide)]
    exact ⟨rfl, rfl, rfl, State.mem_settle (State.powerUp_sends _)⟩
  case rise =>
    refine .of_answer (u := perstN true s) rfl rfl ?_
    rw [State.settle_pwr, State.settle_regs, perstN_high, State.showPartners_keeps State.pwr (fun _ _ => rfl), State.showPartners_keeps State.regs (fun _ _ => rfl)]
    exact ⟨rfl, rfl, rfl⟩
  case fall =>
    obtain ⟨hpwr, htrl⟩ := Prod.mk.inj (perstN_low_links s)
    refine .of_answer (u := perstN false s) rfl rfl ?_
    rw [State.settle_pwr, State.settle_trl, State.settle_regs, State.settle_ofc, hpwr, htrl]
    exact ⟨rfl, rfl, rfl, perstN_low_idle⟩
  case trained =>
    intro g hready
    exact .plain rfl (congrArg (answer (.endpointLinkTrained g)) (if_pos hready))
  case untrained =>
    intro g hready
    exact .plain rfl (congrArg (answer (.endpointLinkTrained g)) (if_neg (by rw [hready]; decide)))
  case rootPort =>
    intro p g
    refine .of_answer (u := rootPortLinkUp p.val g.val s) rfl rfl ?_
    rw [State.settle_trl, State.settle_regs]
    exact ⟨SMap.get_set_same _ _ _ _, fun q hq => SMap.get_set_other _ _ _ _ _ hq, rfl⟩
  case hot =>
    intro h
    exact .plain rfl (congrArg (answer .thermalRestart) (thermalRestart_waits h))
  case cool =>
    intro hstage hrounds hcool
    refine .of_answer (congrArg (answer .thermalRestart) (thermalRestart_cold hstage hrounds hcool)) rfl ?_
    rw [State.settle_pwr, State.settle_regs, State.powerUp_pwr, State.powerUp_regs]
    exact ⟨rfl, List.mem_append_right _ (List.mem_singleton_self _), State.mem_settle (State.powerUp_sends _), rfl⟩

end Sys2Proof.Machine

/-! How the sensor front end's lines and frames open and close (R81, R82, R86 to R93). -/

namespace Sys2Proof.Machine

/-! ### What the operations read and leave -/

theorem State.grp_setGrp_same (s : State) (g : Nat) (x : SfeGroup) : (s.setGrp g x).grp g = x := by rw [State.grp_setGrp, if_pos rfl]
theorem State.stream_setStream_same (s : State) (n : Nat) (x : SfeStream) : (s.setStream n x).stream n = x := by rw [State.stream_setStream, if_pos rfl]

theorem State.grp_of_sfe {s t : State} (h : t.sfe = s.sfe) (g : Nat) : t.grp g = s.grp g := by unfold State.grp; rw [h]
theorem State.stream_of_streams {s t : State} (h : t.streams = s.streams) (n : Nat) : t.stream n = s.stream n := by unfold State.stream; rw [h]
theorem State.now_of_time {s t : State} (h : t.time = s.time) : t.now = s.now := by unfold State.now; rw [h]

/-- The settings of a group are read from the registers alone. -/
theorem State.readCfg_of_regs {s t : State} (h : t.regs = s.regs) (g : Nat) : t.readCfg g = s.readCfg g := by
  have hread (u : State) : u.readCfg g = ({ State.reset with regs := u.regs } : State).readCfg g := rfl
  rw [hread t, hread s, h]

/-- The groups armed on a frame start are read from the registers alone. -/
theorem State.armedOn_of_regs {s t : State} (h : t.regs = s.regs) (mode index : Nat) : t.armedOn mode index = s.armedOn mode index := by
  have hread (u : State) : u.armedOn mode index = ({ State.reset with regs := u.regs } : State).armedOn mode index := rfl
  rw [hread t, hread s, h]

/-- In INDEPENDENT mode a group is its own stream (R83). -/
theorem State.membersOf_independent {s : State} (h : s.grpMode = 0) (g : Nat) : s.membersOf g = [g] := by
  unfold State.membersOf State.joined
  rw [if_pos h]
  rfl

theorem State.leads_independent {s : State} (h : s.grpMode = 0) (g : Nat) : s.leads g = true := by
  unfold State.leads State.streamOf
  rw [State.membersOf_independent h]
  exact beq_self_eq_true g

/-- What the record of ISOLATED frames does not hold, an ISOLATED frame leaves. -/
theorem State.isoFrame_keeps {α : Type} (p : State → α) (h : ∀ (t : State) (l : List (Nat × IsoStream)), p { t with isoStreams := l } = p t) (s : State)
    (stream count : Nat) : p (s.isoFrame stream count) = p s := by
  unfold State.isoFrame
  split
  · exact h s _
  · rfl

theorem State.mem_frameStart_due {s : State} {mode index k : Nat} (h : k ∈ s.armedOn mode index) : k ∈ (s.frameStart mode index).due := by
  by_cases hk : k ∈ s.due
  · exact List.mem_append_left _ hk
  · exact List.mem_append_right _ (List.mem_filter.mpr ⟨h, by simpa using hk⟩)

/-! ### Edges of FV and LV (R86, R87) -/

section edges
variable {s : State} {g : Nat}

theorem State.pinEdge_embedded (h : s.embedded g = true) (e : SfeEdge) : s.pinEdge g e = s := if_pos h

theorem State.pinEdge_prompt (h : s.embedded g = false) (hdelay : s.lvDelay g = 0) (hedges : (s.grp g).edges = []) (e : SfeEdge) :
    s.pinEdge g e = s.edge g e := by
  unfold State.pinEdge
  rw [h, hdelay, hedges, if_neg Bool.false_ne_true]
  exact if_pos ⟨Nat.zero_mul _, rfl⟩

theorem State.pinEdge_delayed (h : s.embedded g = false) (hdelay : 0 < s.lvDelay g) (hlanes : 0 < (s.wordForm g).2) (e : SfeEdge) :
    s.pinEdge g e = s.setGrp g { s.grp g with edges := (s.grp g).edges ++ [(s.lvDelay g * (s.wordForm g).2, e)] } := by
  have hpos : s.lvDelay g * (s.wordForm g).2 ≠ 0 := (Nat.mul_pos hdelay hlanes).ne'
  unfold State.pinEdge
  rw [h, if_neg Bool.false_ne_true]
  exact if_neg (fun hzero => hpos hzero.1)

end edges

/-! ### Lines and frames that end (R92, R93) -/

section ends
variable {s : State} {g : Nat}

theorem State.endLine_none (h : (s.grp g).line = none) : s.endLine g = s := by
  unfold State.endLine
  simp only [h]

theorem State.closeFrame_none (hline : (s.grp g).line = none) (h : (s.grp g).frame = none) (long : Bool) : s.closeFrame g long = s := by
  unfold State.closeFrame
  rw [State.endLine_none hline]
  simp only [h]

/-- The group once its frame has closed with `pads` behind its queue. -/
def SfeGroup.closed (x : SfeGroup) (pads : List SfeItem) : SfeGroup :=
  { x with frame := none, afterClose := true, queue := x.queue ++ pads ++ x.owed, owed := [] }

/-- The pad lines for rows that did not come. -/
def missingPads (n : Nat) : List SfeItem := if n = 0 then [] else [.pads n]

theorem State.closeFrame_open {f : SfeFrame} (hline : (s.grp g).line = none) (hframe : (s.grp g).frame = some f) (hheld : (s.grp g).heldSof = none) (long : Bool) :
    s.closeFrame g long = (s.setGrp g ((s.grp g).closed (missingPads (f.cfg.height - f.rows)))).closeShare f.stream g f.count f.rows
      (shareTags (decide (f.seen < f.cfg.height)) long (f.trunc.map (fun r => r * f.step + f.base)) none) := by
  unfold State.closeFrame
  rw [State.endLine_none hline]
  simp only [hframe]
  exact if_neg (by rw [hheld]; exact Bool.false_ne_true)

theorem State.closeShare_sfe (s : State) (stream g count rows : Nat) (edit : FrameRec → FrameRec) : (s.closeShare stream g count rows edit).sfe = s.sfe := rfl
theorem State.closeShare_regs (s : State) (stream g count rows : Nat) (edit : FrameRec → FrameRec) : (s.closeShare stream g count rows edit).regs = s.regs := rfl

theorem State.closeFrame_grp {f : SfeFrame} (hline : (s.grp g).line = none) (hframe : (s.grp g).frame = some f) (hheld : (s.grp g).heldSof = none) (long : Bool) :
    (s.closeFrame g long).grp g = (s.grp g).closed (missingPads (f.cfg.height - f.rows)) := by
  rw [State.closeFrame_open hline hframe hheld, State.grp_of_sfe (State.closeShare_sfe _ _ _ _ _ _), State.grp_setGrp_same]

theorem State.closeFrame_regs {f : SfeFrame} (hline : (s.grp g).line = none) (hframe : (s.grp g).frame = some f) (hheld : (s.grp g).heldSof = none) (long : Bool) :
    (s.closeFrame g long).regs = s.regs := by
  rw [State.closeFrame_open hline hframe hheld, State.closeShare_regs, State.setGrp_regs]

theorem State.frameEndAt_open (hline : (s.grp g).line = none) (hdiscard : (s.grp g).discard = false) : s.frameEndAt g = s.closeFrame g false := by
  unfold State.frameEndAt
  rw [State.endLine_none hline]
  exact if_neg (by rw [hdiscard]; exact Bool.false_ne_true)

end ends

/-! ### CLOSE_TIMEOUT (R92) -/

section timeout
variable {s : State} {g : Nat} {f : SfeFrame} (hframe : (s.grp g).frame = some f)

include hframe in
theorem closeTimeout_due {time : Nat} (hend : f.lastEnd = some time) (h : f.cfg.closeNs ≤ shortFwd time s.now) : closeTimeout g s = s.closeFrame g false := by
  unfold closeTimeout
  simp only [hframe, hend, h, if_true]

include hframe in
theorem closeTimeout_early {time : Nat} (hend : f.lastEnd = some time) (h : shortFwd time s.now < f.cfg.closeNs) : closeTimeout g s = s := by
  unfold closeTimeout
  simp only [hframe, hend, Nat.not_le.mpr h, if_false]

include hframe in
theorem closeTimeout_unfinished (hend : f.lastEnd = none) : closeTimeout g s = s := by
  unfold closeTimeout
  simp only [hframe, hend]

theorem closeTimeout_idle (h : (s.grp g).frame = none) : closeTimeout g s = s := by
  unfold closeTimeout
  simp only [h]

end timeout

/-! ### Frame starts (R83, R90, R91) -/

section starts
variable {s : State} {g : Nat}

theorem State.frameStartAt_off (hline : (s.grp g).line = none) (h : (s.grp g).running = false ∨ s.aligned g = false) : s.frameStartAt g = s := by
  unfold State.frameStartAt
  rw [State.endLine_none hline]
  exact if_pos (by rcases h with h | h <;> simp [h])

section on
variable (hline : (s.grp g).line = none) (hrun : (s.grp g).running = true) (halign : s.aligned g = true) (hhold : s.holding 0x10 = false)
  (hlead : s.leads g = true)
include hline hrun halign hhold hlead

theorem State.frameStartAt_unwindowed (hwin : s.windowed g = false) : s.frameStartAt g = s.acceptFrame g := by
  unfold State.frameStartAt
  rw [State.endLine_none hline]
  simp [hrun, halign, hhold, hlead, hwin]

theorem State.frameStartAt_outside (hwin : s.windowed g = true) (hanchor : (s.grp g).anchor.isSome = true) (hout : s.inWindow g (s.grp g).slot = false) :
    s.frameStartAt g = ((s.setGrp g { s.grp g with discard := true }).bump (Adr.SFE.LATE_SOF g)).fault (groupUnit g) 0x20 := by
  unfold State.frameStartAt
  rw [State.endLine_none hline]
  simp [hrun, halign, hhold, hlead, hwin, hout, Option.isSome_iff_ne_none.mp hanchor]

end on

theorem State.endEarlier_idle (hline : (s.grp g).line = none) (hframe : (s.grp g).frame = none) : s.endEarlier g = s := by
  unfold State.endEarlier
  rw [hframe, State.closeFrame_none hline hframe]
  simp

end starts

/-- A group takes its slot: its new frame joins the stream, and its count and slot go on (R90, R91). -/
def State.openSlot (s : State) (g : Nat) : State :=
  let x := s.grp g
  let f := s.newFrame g x.cnt s.now
  let s := s.setStream g { s.stream g with frames := (s.stream g).frames ++ [f] }
  let s := s.isoFrame g x.cnt
  s.setGrp g { s.grp g with cnt := (x.cnt + 1) % 2 ^ 32, slot := x.slot + 1, anchor := x.anchor.or (some s.now) }

/-- What an accepted frame start does once its slot is taken: the group begins its share, and joined groups' held starts are matched. -/
def State.beginMembers (s : State) (g count : Nat) (f : StreamFrame) (mode : Nat) (members : List Nat) : State :=
  let (step, base) := rowStep mode members g
  let s := s.beginFrame g g count (s.readCfg g) step base
  (members.filter (· != g)).foldl (fun s m => s.matchHeld g f m) s

theorem State.acceptFrame_eq (s : State) (g : Nat) :
    s.acceptFrame g = ((s.endEarlier g).openSlot g).beginMembers g ((s.endEarlier g).grp g).cnt
      ((s.endEarlier g).newFrame g ((s.endEarlier g).grp g).cnt (s.endEarlier g).now) (s.endEarlier g).grpMode ((s.endEarlier g).membersOf g) := rfl

theorem State.beginMembers_alone (s : State) (g count : Nat) (f : StreamFrame) :
    s.beginMembers g count f 0 [g] = s.beginFrame g g count (s.readCfg g) 1 0 := by
  have hrest : [g].filter (· != g) = [] := by simp
  unfold State.beginMembers
  rw [hrest]
  rfl

theorem State.acceptFrame_alone {s : State} {g : Nat} (hline : (s.grp g).line = none) (hframe : (s.grp g).frame = none) (hmode : s.grpMode = 0) :
    s.acceptFrame g = (s.openSlot g).beginFrame g g (s.grp g).cnt ((s.openSlot g).readCfg g) 1 0 := by
  rw [State.acceptFrame_eq, State.endEarlier_idle hline hframe, hmode, State.membersOf_independent hmode, State.beginMembers_alone]

/-! ### What an accepted frame start leaves -/

section opened
variable (s : State) (g : Nat)

/-- What neither the group nor its stream nor the record of ISOLATED frames holds, taking a slot leaves. -/
theorem State.openSlot_keeps {α : Type} (p : State → α) (hgrp : ∀ (t : State) (i : Nat) (x : SfeGroup), p (t.setGrp i x) = p t)
    (hstream : ∀ (t : State) (n : Nat) (x : SfeStream), p (t.setStream n x) = p t)
    (hiso : ∀ (t : State) (l : List (Nat × IsoStream)), p { t with isoStreams := l } = p t) : p (s.openSlot g) = p s := by
  unfold State.openSlot
  rw [hgrp, State.isoFrame_keeps p hiso, hstream]

theorem State.openSlot_regs : (s.openSlot g).regs = s.regs := s.openSlot_keeps g State.regs (fun _ _ _ => rfl) (fun _ _ _ => rfl) (fun _ _ => rfl)
theorem State.openSlot_dram : (s.openSlot g).dram = s.dram := s.openSlot_keeps g State.dram (fun _ _ _ => rfl) (fun _ _ _ => rfl) (fun _ _ => rfl)
theorem State.openSlot_time : (s.openSlot g).time = s.time := s.openSlot_keeps g State.time (fun _ _ _ => rfl) (fun _ _ _ => rfl) (fun _ _ => rfl)

theorem State.openSlot_grp : (s.openSlot g).grp g =
    { s.grp g with cnt := ((s.grp g).cnt + 1) % 2 ^ 32, slot := (s.grp g).slot + 1, anchor := (s.grp g).anchor.or (some s.now) } := by
  unfold State.openSlot
  dsimp only
  rw [State.grp_setGrp_same, State.isoFrame_keeps (fun t => t.grp g) (fun _ _ => rfl), State.isoFrame_keeps State.now (fun _ _ => rfl)]
  rfl

theorem State.openSlot_stream : (s.openSlot g).stream g = { s.stream g with frames := (s.stream g).frames ++ [s.newFrame g (s.grp g).cnt s.now] } := by
  unfold State.openSlot
  dsimp only
  rw [State.stream_of_streams (State.setGrp_streams _ _ _), State.isoFrame_keeps (fun t => t.stream g) (fun _ _ => rfl), State.stream_setStream_same]

variable (stream count : Nat) (cfg : SfeCfg) (step base : Nat)

theorem State.beginFrame_regs : (s.beginFrame g stream count cfg step base).regs = s.regs := rfl
theorem State.beginFrame_dram : (s.beginFrame g stream count cfg step base).dram = s.dram := rfl

theorem State.beginFrame_grp : (s.beginFrame g stream count cfg step base).grp g = { s.grp g with
    frame := some { cfg := cfg, sof := s.now, rows := 0, readouts := 0, lastEnd := none, half := none, trunc := none, stream := stream, count := count,
                    step := step, base := base, kept := [], ended := none }
    line := none, discard := false, afterClose := false, heldSof := none } := by
  have hsfe (t : State) : ((t.markBegun stream g count).frameStart 1 g).sfe = t.sfe := rfl
  unfold State.beginFrame
  dsimp only
  rw [State.grp_of_sfe (hsfe _), State.grp_setGrp_same]

theorem State.beginFrame_stream : (s.beginFrame g stream count cfg step base).stream stream =
    (s.stream stream).editFrame g count (fun f => { f with begun := f.begun ++ [g] }) := by
  have hstreams (t : State) : (t.frameStart 1 g).streams = t.streams := rfl
  unfold State.beginFrame State.markBegun
  dsimp only
  rw [State.stream_of_streams (hstreams _), State.stream_setStream_same, State.stream_of_streams (State.setGrp_streams _ _ _)]

theorem State.mem_beginFrame_due {k : Nat} (h : k ∈ s.armedOn 1 g) : k ∈ (s.beginFrame g stream count cfg step base).due :=
  State.mem_frameStart_due (s := (s.setGrp g _).markBegun stream g count) h

end opened

/-- A frame that begins owes its group's share; of frames that owe none under its count, only the new one is marked. -/
theorem SfeStream.editFrame_new {st : SfeStream} {g count : Nat} {f : StreamFrame} (edit : StreamFrame → StreamFrame) (hold : ∀ e ∈ st.frames, e.owes g count = false)
    (hnew : f.owes g count = true) : ({ st with frames := st.frames ++ [f] }.editFrame g count edit).frames = st.frames ++ [edit f] := by
  have hkeep : st.frames.map (fun x => if x.owes g count then edit x else x) = st.frames :=
    (List.map_congr_left (fun e he => if_neg (by rw [hold e he]; exact Bool.false_ne_true))).trans (List.map_id' _)
  unfold SfeStream.editFrame
  rw [List.map_append, hkeep, List.map_singleton, if_pos hnew]

/-- The new frame of a group on its own waits for that group alone. -/
theorem State.newFrame_waiting {s : State} (hmode : s.grpMode = 0) (g count sof : Nat) : (s.newFrame g count sof).waiting = [g] :=
  State.membersOf_independent hmode g

theorem State.newFrame_owes {s : State} (hmode : s.grpMode = 0) (g count sof : Nat) : (s.newFrame g count sof).owes g count = true := by
  have hcount : (s.newFrame g count sof).record.count = count := rfl
  unfold StreamFrame.owes
  rw [hcount, State.newFrame_waiting hmode]
  simp

/-! ### FV (R86, R87) -/

/-- FV is high. -/
def State.risen (s : State) (g : Nat) : State := s.setGrp g { s.grp g with fv := true }

theorem State.risen_grp (s : State) (g : Nat) : (s.risen g).grp g = { s.grp g with fv := true } := s.grp_setGrp_same g _

section prompt
variable {s : State} {g : Nat} (hembed : s.embedded g = false) (hdelay : s.lvDelay g = 0) (hedges : (s.grp g).edges = [])
include hembed hdelay hedges

theorem sensorFrameStart_prompt : sensorFrameStart g [] s = (s.risen g).frameStartAt g := State.pinEdge_prompt hembed hdelay hedges .frameStart

theorem sensorFrameEnd_prompt : sensorFrameEnd g [] s = (s.frameEndAt g).setGrp g { (s.frameEndAt g).grp g with fv := false } :=
  State.pinEdge_prompt hembed hdelay hedges .frameEnd

/-- A frame start of a group that is not running or not aligned raises FV alone. -/
theorem sensorFrameStart_off (hline : (s.grp g).line = none) (h : (s.grp g).running = false ∨ s.aligned g = false) : sensorFrameStart g [] s = s.risen g := by
  have hgrp := s.risen_grp g
  rw [sensorFrameStart_prompt hembed hdelay hedges]
  exact State.frameStartAt_off (by rw [hgrp]; exact hline) (by rw [hgrp]; exact h)

section on
variable (hline : (s.grp g).line = none) (hrun : (s.grp g).running = true) (halign : s.aligned g = true) (hhold : s.holding 0x10 = false)
  (hmode : s.grpMode = 0)
include hline hrun halign hhold hmode

/-- An accepted frame start of a group on its own that has no open frame. -/
theorem sensorFrameStart_accepted (hwin : s.windowed g = false) (hframe : (s.grp g).frame = none) :
    sensorFrameStart g [] s = ((s.risen g).openSlot g).beginFrame g g (s.grp g).cnt (s.readCfg g) 1 0 := by
  have hgrp := s.risen_grp g
  have hline : ((s.risen g).grp g).line = none := by rw [hgrp]; exact hline
  have hframe : ((s.risen g).grp g).frame = none := by rw [hgrp]; exact hframe
  have hwin : (s.risen g).windowed g = false := by unfold State.windowed; rw [hgrp]; exact hwin
  have hcfg : ((s.risen g).openSlot g).readCfg g = s.readCfg g := State.readCfg_of_regs (State.openSlot_regs _ g) g
  rw [sensorFrameStart_prompt hembed hdelay hedges,
    State.frameStartAt_unwindowed hline (by rw [hgrp]; exact hrun) halign hhold (State.leads_independent (s := s.risen g) hmode g) hwin,
    State.acceptFrame_alone hline hframe hmode, hcfg, hgrp]

/-- A frame start outside its window is dropped, counted and reported. -/
theorem sensorFrameStart_outside (hwin : s.windowed g = true) (hanchor : (s.grp g).anchor.isSome = true) (hout : s.inWindow g (s.grp g).slot = false) :
    sensorFrameStart g [] s = (((s.risen g).setGrp g { s.grp g with fv := true, discard := true }).bump (Adr.SFE.LATE_SOF g)).fault (groupUnit g) 0x20 := by
  have hgrp := s.risen_grp g
  have hexp (k : Nat) : (s.risen g).expected g k = s.expected g k := by unfold State.expected; rw [hgrp]; rfl
  have hwin : (s.risen g).windowed g = true := by unfold State.windowed; rw [hgrp]; exact hwin
  have hout : (s.risen g).inWindow g ((s.risen g).grp g).slot = false := by unfold State.inWindow; rw [hexp, hgrp]; exact hout
  rw [sensorFrameStart_prompt hembed hdelay hedges,
    State.frameStartAt_outside (s := s.risen g) (by rw [hgrp]; exact hline) (by rw [hgrp]; exact hrun) halign hhold (State.leads_independent (s := s.risen g) hmode g) hwin
      (by rw [hgrp]; exact hanchor) hout, hgrp]

end on
end prompt

/-- Settles O24: the edges of FV, with no line in progress and nothing else under way. -/
theorem sensorFramesOpenAndClose : Obligations.SensorFramesOpenAndClose := by
  unfold Obligations.SensorFramesOpenAndClose
  intro s g hrun
  refine ⟨?embedded, ?delayed, fun hembed hdelay hedges => ⟨?off, ?accepted, ?outside, ?frameEnd⟩, ?due, ?early, ?unfinished, ?idle⟩
  case embedded =>
    intro hembed
    exact ⟨.running hrun rfl (State.pinEdge_embedded hembed .frameStart), .running hrun rfl (State.pinEdge_embedded hembed .frameEnd)⟩
  case delayed =>
    intro hembed hdelay hlanes
    exact .running hrun rfl (State.pinEdge_delayed hembed hdelay hlanes .frameStart)
  case off =>
    intro hoff hline
    refine .running hrun rfl ?_ (u := sensorFrameStart g [] s)
    rw [sensorFrameStart_off hembed hdelay hedges hline hoff, State.grp_settle, State.risen_grp, State.settle_streams, State.settle_regs, State.settle_due]
    exact ⟨rfl, rfl, rfl, rfl, rfl⟩
  case accepted =>
    intro hon halign hhold hmode hwin hline hframe hold
    have hstart := sensorFrameStart_accepted hembed hdelay hedges hline hon halign hhold hmode hwin hframe
    have hstream : (s.risen g).stream g = s.stream g := rfl
    have hnew := State.newFrame_owes (s := s.risen g) hmode g (s.grp g).cnt s.now
    have hopen := (s.risen g).openSlot_grp g
    have hjoin := (s.risen g).openSlot_stream g
    have hnow : ((s.risen g).openSlot g).now = s.now := State.now_of_time (State.openSlot_time _ g)
    rw [s.risen_grp g] at hopen hjoin
    refine .running hrun rfl ?_ (u := sensorFrameStart g [] s)
    rw [hstart, State.grp_settle, State.beginFrame_grp, State.stream_settle, State.beginFrame_stream, State.settle_due, State.settle_regs, State.settle_dram,
      State.beginFrame_regs, State.beginFrame_dram, State.openSlot_regs, State.openSlot_dram, hopen, hjoin, hnow, hstream]
    refine ⟨rfl, rfl, rfl, ⟨_, SfeStream.editFrame_new _ hold hnew, rfl, rfl, State.newFrame_waiting (s := s.risen g) hmode g (s.grp g).cnt s.now, rfl⟩,
      fun k hk => State.mem_beginFrame_due _ _ _ _ _ _ _ ?_, rfl, rfl⟩
    rw [State.armedOn_of_regs (State.openSlot_regs _ g)]
    exact hk
  case outside =>
    intro hon halign hhold hmode hwin hanchor hout hline
    refine .running hrun rfl ?_ (u := sensorFrameStart g [] s)
    rw [sensorFrameStart_outside hembed hdelay hedges hline hon halign hhold hmode hwin hanchor hout, State.grp_settle, State.grp_of_sfe (State.fault_sfe _ _ _),
      State.grp_of_sfe (State.bump_sfe _ _), State.grp_setGrp_same, State.settle_rd, State.settle_held, State.mem_fault]
    exact ⟨rfl, rfl, rfl, State.rd_bump_same _ _, .inl rfl⟩
  case frameEnd =>
    intro f hframe hline hdiscard hheld howed hrows
    have hpads : missingPads (f.cfg.height - f.rows) = [.pads (f.cfg.height - f.rows)] := if_neg (by omega)
    refine .running hrun rfl ?_ (u := sensorFrameEnd g [] s)
    rw [sensorFrameEnd_prompt hembed hdelay hedges, State.frameEndAt_open hline hdiscard, State.grp_settle, State.grp_setGrp_same, State.settle_regs,
      State.setGrp_regs, State.closeFrame_regs hline hframe hheld, State.closeFrame_grp hline hframe hheld, hpads, SfeGroup.closed, howed, List.append_nil]
    exact ⟨rfl, rfl, rfl, rfl, rfl⟩
  case due =>
    intro f time hframe hline hheld howed hrows hend hlate
    have hpads : missingPads (f.cfg.height - f.rows) = [] := if_pos (by omega)
    refine .of_answer (congrArg (answer (.closeTimeout g)) (closeTimeout_due hframe hend hlate)) rfl ?_
    rw [State.grp_settle, State.settle_regs, State.closeFrame_regs hline hframe hheld, State.closeFrame_grp hline hframe hheld, hpads, SfeGroup.closed, howed,
      List.append_nil, List.append_nil]
    exact ⟨rfl, rfl, rfl, rfl⟩
  case early =>
    intro f time hframe hend hearly
    exact .plain rfl (congrArg (answer (.closeTimeout g)) (closeTimeout_early hframe hend hearly))
  case unfinished =>
    intro f hframe hend
    exact .plain rfl (congrArg (answer (.closeTimeout g)) (closeTimeout_unfinished hframe hend))
  case idle =>
    intro hframe
    exact .plain rfl (congrArg (answer (.closeTimeout g)) (closeTimeout_idle hframe))

end Sys2Proof.Machine

/-! Lines of the sensor front end and what they keep (R87, R89, R92, R93). -/

namespace Sys2Proof.Machine

/-! ### Line starts (R92, R375) -/

section lineStart
variable {s : State} {g : Nat}

/-- LV rises: outside FV nothing happens. -/
theorem State.edge_lineStart_low (h : (s.grp g).fv = false) : s.edge g .lineStart = s := if_neg (by rw [h]; exact Bool.false_ne_true)

theorem State.edge_lineStart_high (h : (s.grp g).fv = true) : s.edge g .lineStart = s.lineStart g false := if_pos h

/-- Between frames under HOLD a line is not counted. -/
theorem State.lineStart_held (hline : (s.grp g).line = none) (hframe : (s.grp g).frame = none) (hhold : s.holding 0x10 = true) : s.lineStart g false = s := by
  unfold State.lineStart
  rw [State.endLine_none hline]
  simp only [hframe, hhold, Bool.not_true, Bool.and_false, Bool.false_eq_true, if_false, ite_self]

/-- An empty line that starts at `now`. -/
def freshLine (now : Nat) : SfeLine := { samples := [], excess := 0, ignored := false, stamp := now }

theorem State.lineStart_open {f : SfeFrame} (hline : (s.grp g).line = none) (hrun : (s.grp g).running = true) (hdiscard : (s.grp g).discard = false)
    (hframe : (s.grp g).frame = some f) (hended : f.ended = none) (hseen : f.seen < f.cfg.height) :
    s.lineStart g false = s.setGrp g { s.grp g with line := some (freshLine s.now) } := by
  have hgo : ¬ (decide ((s.grp g).running = false) || (s.grp g).discard) = true := by rw [hrun, hdiscard]; decide
  unfold State.lineStart
  rw [State.endLine_none hline]
  refine (if_neg hgo).trans ?_
  simp only [hframe, hended]
  refine (if_neg (by decide)).trans ((if_neg (by decide)).trans (if_neg (by omega)))

end lineStart

/-! ### Samples (R81, R93) -/

section samples
variable {s : State} {g v : Nat} {f : SfeFrame} {l : SfeLine} (hframe : (s.grp g).frame = some f) (hline : (s.grp g).line = some l)
  (hkept : l.ignored = false) (htrunc : f.trunc = none) (hroom : l.samples.length < f.cfg.width)
include hframe hline hkept htrunc hroom

theorem State.sample_kept (h : (s.grp g).occupied < 6 * f.cfg.width) :
    s.sample g v = s.setGrp g { s.grp g with line := some { l with samples := l.samples ++ [v % 2 ^ f.cfg.sampleBits] } } := by
  have hgo : ¬ (l.ignored || f.trunc.isSome) = true := by rw [hkept, htrunc]; decide
  unfold State.sample
  simp only [hframe, hline]
  exact (if_neg hgo).trans ((if_pos hroom).trans (if_neg (by omega)))

theorem State.sample_overflow (h : 6 * f.cfg.width ≤ (s.grp g).occupied) :
    s.sample g v = ((s.setGrp g { s.grp g with line := some { l with samples := [], excess := 0 }, frame := some { f with trunc := some f.rows, half := none } }).bump
      (Adr.SFE.TRUNCATED g)).fault (groupUnit g) 0x08 := by
  have hgo : ¬ (l.ignored || f.trunc.isSome) = true := by rw [hkept, htrunc]; decide
  have hfirst : ¬ f.trunc.isSome = true := by rw [htrunc]; decide
  have hover : s.sample g v = s.overflow g := by
    unfold State.sample
    simp only [hframe, hline]
    exact (if_neg hgo).trans ((if_pos hroom).trans (if_pos h))
  rw [hover]
  unfold State.overflow
  simp only [hframe, hline]
  exact if_neg hfirst

end samples

/-! ### Line ends (R82, R92) -/

section lineEnd
variable {s : State} {g : Nat} {f : SfeFrame} {l : SfeLine}

theorem SfeFrame.endReadout_fields (f : SfeFrame) (now : Nat) : (f.endReadout now).trunc = f.trunc ∧ (f.endReadout now).cfg = f.cfg ∧
    (f.endReadout now).rows = f.rows ∧ (f.endReadout now).readouts = f.readouts + 1 := by
  unfold SfeFrame.endReadout
  dsimp only
  split
  · exact ⟨rfl, rfl, rfl, rfl⟩
  · exact ⟨rfl, rfl, rfl, rfl⟩

/-- The row that a line makes, filled with PAD_CODE where it is short. -/
def SfeLine.row (l : SfeLine) (c : SfeCfg) : RawRow :=
  { lo := l.samples ++ List.replicate (c.width - l.samples.length) c.padCode, hi := [], short := decide (l.samples.length < c.width),
    long := decide (fillerOf c < l.excess), pad := false, stamp := some l.stamp }

/-- A short line is counted. -/
def State.countShort (s : State) (g : Nat) (short : Bool) : State := if short then s.bump (Adr.SFE.SHORT_LINES g) else s

variable (hframe : (s.grp g).frame = some f) (hline : (s.grp g).line = some l) (hkept : l.ignored = false)
include hframe hline hkept

/-- A line that ends in a truncated frame leaves no row. -/
theorem State.endLine_truncated (htrunc : f.trunc.isSome = true) : s.endLine g = s.setGrp g { s.grp g with line := none, frame := some (f.endReadout s.now) } := by
  obtain ⟨hsame, -, -, -⟩ := f.endReadout_fields s.now
  unfold State.endLine
  simp only [hframe, hline]
  exact (if_neg (by rw [hkept]; decide)).trans (if_pos (by rw [hsame]; exact htrunc))

/-- A line that ends makes a readout of its frame. -/
theorem State.endLine_row (htrunc : f.trunc = none) : s.endLine g =
    (s.countShort g (decide (l.samples.length < f.cfg.width))).setGrp g
      ({ s.grp g with line := none : SfeGroup }.addReadout (f.endReadout s.now) (l.row f.cfg)) := by
  obtain ⟨hsame, hcfg, -, -⟩ := f.endReadout_fields s.now
  unfold State.endLine
  simp only [hframe, hline]
  refine (if_neg (by rw [hkept]; decide)).trans ((if_neg (by rw [hsame, htrunc]; decide)).trans ?_)
  rw [hcfg]
  rfl

end lineEnd

/-- What has the registers of a state has changed the registers that it has. -/
theorem SameRegsBut.to_regs {l : List RegAddr} {s t u : State} (h : SameRegsBut l s t) (e : u.regs = t.regs) : SameRegsBut l s u :=
  fun a ha => by rw [e]; exact h a ha

/-- A readout of a frame with one gain is a row in the queue. -/
theorem SfeGroup.addReadout_single {x : SfeGroup} {f : SfeFrame} (hdual : f.cfg.dual = false) (hheld : x.heldSof = none) (r : RawRow) :
    x.addReadout f r = { x with frame := some { f with rows := f.rows + 1 }, queue := x.queue ++ [.row r] } := by
  unfold SfeGroup.addReadout SfeGroup.push
  simp only [hdual, hheld]
  rfl

theorem SameRegsBut.countShort (s : State) (g : Nat) (short : Bool) : SameRegsBut [Adr.SFE.SHORT_LINES g] s (s.countShort g short) := by
  unfold State.countShort
  split
  · exact .bump s _
  · exact .refl _ rfl

theorem State.rd_countShort (s : State) (g n w : Nat) : (s.countShort g (decide (n < w))).rd (Adr.SFE.SHORT_LINES g) =
    if n < w then satInc 32 (s.rd (Adr.SFE.SHORT_LINES g)) else s.rd (Adr.SFE.SHORT_LINES g) := by
  unfold State.countShort
  split
  · rename_i h
    rw [if_pos (of_decide_eq_true h), State.rd_bump_same]
  · rename_i h
    rw [if_neg (fun hw => h (decide_eq_true hw))]

/-- Settles O25: the edges of LV and the samples between them, each by the case of the group that its clause names. -/
theorem sensorLinesKeepTheirSamples : Obligations.SensorLinesKeepTheirSamples := by
  unfold Obligations.SensorLinesKeepTheirSamples
  intro s g hrun hembed hdelay hedges
  have hstart : sensorLineStart g [] s = s.edge g .lineStart := State.pinEdge_prompt hembed hdelay hedges .lineStart
  have hend : sensorLineEnd g [] s = s.endLine g := State.pinEdge_prompt hembed hdelay hedges .lineEnd
  refine ⟨?outside, ?held, ?opened, ?kept, ?overflow, ?truncated, ?row⟩
  case outside =>
    intro hfv
    exact .running hrun rfl (hstart.trans (State.edge_lineStart_low hfv))
  case held =>
    intro hfv hhold hframe hline
    exact .running hrun rfl (hstart.trans ((State.edge_lineStart_high hfv).trans (State.lineStart_held hline hframe hhold)))
  case opened =>
    intro f hfv hon hdiscard hline hframe hended hseen
    refine .running hrun rfl ?_ (u := sensorLineStart g [] s)
    rw [hstart, State.edge_lineStart_high hfv, State.lineStart_open hline hon hdiscard hframe hended hseen, State.grp_settle, State.grp_setGrp_same,
      State.settle_regs]
    exact ⟨rfl, rfl⟩
  case kept =>
    intro f l v hv hframe hline hkept htrunc hroom hfree
    refine .of_answer (congrArg (answer (.inputOverflow g v)) (State.sample_kept hframe hline hkept htrunc hroom hfree)) (decide_eq_true hv) ?_
    rw [State.grp_settle, State.grp_setGrp_same, State.settle_regs]
    exact ⟨rfl, rfl⟩
  case overflow =>
    intro f l v hv hframe hline hkept htrunc hroom hfull
    refine .of_answer (congrArg (answer (.inputOverflow g v)) (State.sample_overflow hframe hline hkept htrunc hroom hfull)) (decide_eq_true hv) ?_
    have hset (x : SfeGroup) : SameRegsBut [] s (s.setGrp g x) := .refl _ (State.setGrp_regs _ _ _)
    have hregs (x : SfeGroup) : SameRegsBut [Adr.SFE.TRUNCATED g] s ((s.setGrp g x).bump (Adr.SFE.TRUNCATED g)) := (hset x).trans (.bump _ _)
    rw [State.grp_settle, State.grp_of_sfe (State.fault_sfe _ _ _), State.grp_of_sfe (State.bump_sfe _ _), State.grp_setGrp_same, State.settle_rd, State.settle_held,
      State.mem_fault]
    exact ⟨rfl, rfl, State.rd_bump_same _ _, ((hregs _).to_regs (State.fault_regs _ _ _)).settle, .inl rfl⟩
  case truncated =>
    intro f l row hframe hline hkept htrunc hrow
    obtain ⟨-, -, -, hreadouts⟩ := f.endReadout_fields s.now
    refine .running hrun rfl ?_ (u := sensorLineEnd g [] s)
    rw [hend, State.endLine_truncated hframe hline hkept htrunc, State.grp_settle, State.grp_setGrp_same, State.settle_regs, hrow]
    exact ⟨rfl, rfl, hreadouts, rfl, rfl⟩
  case row =>
    intro f l hframe hline hkept htrunc hdual hheld
    obtain ⟨-, hcfg, hrows, -⟩ := f.endReadout_fields s.now
    have hadd := SfeGroup.addReadout_single (x := { s.grp g with line := none }) (f := f.endReadout s.now) (by rw [hcfg]; exact hdual) hheld (l.row f.cfg)
    refine .running hrun rfl ?_ (u := sensorLineEnd g [] s)
    rw [hend, State.endLine_row hframe hline hkept htrunc, hadd, hrows, State.grp_settle, State.grp_setGrp_same, State.settle_rd]
    exact ⟨rfl, rfl, rfl, s.rd_countShort _ _ _, ((SameRegsBut.countShort s g _).to_regs (State.setGrp_regs _ _ _)).settle⟩

end Sys2Proof.Machine

/-! Window closing, join skew, forwarding of rows, sync codes and triggers of the sensor front end (R83, R88, R90, R93, R97, R98, R372). -/

namespace Sys2Proof.Machine

/-! ### Skipped slots (R90) -/

/-- The record of a skipped slot. -/
def State.skipRecord (s : State) (g e : Nat) : FrameRec := s.newRec (s.grp g).cnt e (Fld.SFE.MODE_ID s.regs g) 8

/-- The frame that stands for a skipped slot among the frames of its stream. -/
def skippedFrame (r : FrameRec) : StreamFrame :=
  { record := r, mode := 0, members := [], cfgs := [], height := 0, skipped := true, begun := [], waiting := [], got := [], started := false, sent := 0,
    stamp0 := none, stamp1 := none, skew := 0 }

/-- A skipped slot is counted, and its record becomes the latest and takes its turn in the stream. -/
def State.queueSkipped (s : State) (g e : Nat) : State :=
  let r := s.skipRecord g e
  let u := (s.bump (Adr.SFE.SKIPPED g)).isoFrame g (s.grp g).cnt
  u.setStream g { u.stream g with latest := r, frames := (u.stream g).frames ++ [skippedFrame r] }

/-- A group goes on to its next slot. -/
def State.nextSlot (u : State) (g : Nat) (x : SfeGroup) : State := u.setGrp g { u.grp g with cnt := (x.cnt + 1) % 2 ^ 32, slot := x.slot + 1 }

theorem State.skipSlot_eq (s : State) (g e : Nat) : s.skipSlot g e = ((s.queueSkipped g e).sendSkipped g).nextSlot g (s.grp g) := rfl

theorem State.sendSkipped_keeps {α : Type} (p : State → α) (hstream : ∀ (t : State) (n : Nat) (x : SfeStream), p (t.setStream n x) = p t)
    (hraw : ∀ (t : State) (n : Nat) (i : RawItem), p (t.toRaw n i) = p t) (s : State) (n : Nat) : p (s.sendSkipped n) = p s :=
  (foldl_keeps p _ (fun t _ => hraw t n _) _ _).trans (hstream s n _)

theorem State.sendSkipped_latest (s : State) (n : Nat) : ((s.sendSkipped n).stream n).latest = (s.stream n).latest := by
  refine (foldl_keeps (fun t : State => (t.stream n).latest) (fun t (f : StreamFrame) => t.toRaw n (.skipped f.record)) (fun _ _ => rfl) _ _).trans ?_
  rw [State.stream_setStream_same]

/-- A SKIPPED record that is alone in its stream leaves at once. -/
theorem State.sendSkipped_alone {s : State} {n : Nat} {f : StreamFrame} (h : (s.stream n).frames = [f]) (hskip : f.skipped = true) :
    s.sendSkipped n = (s.setStream n { s.stream n with frames := [] }).toRaw n (.skipped f.record) := by
  have htake : [f].takeWhile (·.skipped) = [f] := by simp [hskip]
  unfold State.sendSkipped
  dsimp only
  rw [h, htake]
  rfl

section skipped
variable (s : State) (g e : Nat)

theorem State.queueSkipped_stream : (s.queueSkipped g e).stream g =
    { s.stream g with latest := s.skipRecord g e, frames := (s.stream g).frames ++ [skippedFrame (s.skipRecord g e)] } := by
  have hiso : ((s.bump (Adr.SFE.SKIPPED g)).isoFrame g (s.grp g).cnt).stream g = s.stream g := State.isoFrame_keeps (fun t => t.stream g) (fun _ _ => rfl) _ _ _
  unfold State.queueSkipped
  dsimp only
  rw [State.stream_setStream_same, hiso]

theorem State.queueSkipped_keeps {α : Type} (p : State → α) (hstream : ∀ (t : State) (n : Nat) (x : SfeStream), p (t.setStream n x) = p t)
    (hiso : ∀ (t : State) (l : List (Nat × IsoStream)), p { t with isoStreams := l } = p t) : p (s.queueSkipped g e) = p (s.bump (Adr.SFE.SKIPPED g)) :=
  (hstream _ _ _).trans (State.isoFrame_keeps p hiso _ _ _)

theorem State.skipSlot_regs : (s.skipSlot g e).regs = (s.bump (Adr.SFE.SKIPPED g)).regs := by
  rw [State.skipSlot_eq, State.nextSlot, State.setGrp_regs, State.sendSkipped_keeps State.regs (fun _ _ _ => rfl) (fun _ _ _ => rfl),
    State.queueSkipped_keeps s g e State.regs (fun _ _ _ => rfl) (fun _ _ => rfl)]

theorem State.skipSlot_grp : (s.skipSlot g e).grp g = { s.grp g with cnt := ((s.grp g).cnt + 1) % 2 ^ 32, slot := (s.grp g).slot + 1 } := by
  have hgrp : ((s.queueSkipped g e).sendSkipped g).grp g = s.grp g := by
    rw [State.sendSkipped_keeps (fun t => t.grp g) (fun _ _ _ => rfl) (fun _ _ _ => rfl),
      State.queueSkipped_keeps s g e (fun t => t.grp g) (fun _ _ _ => rfl) (fun _ _ => rfl)]
    rfl
  rw [State.skipSlot_eq, State.nextSlot, State.grp_setGrp_same, hgrp]

theorem State.skipSlot_latest : ((s.skipSlot g e).stream g).latest = s.skipRecord g e := by
  rw [State.skipSlot_eq, State.nextSlot, State.stream_of_streams (State.setGrp_streams _ _ _), State.sendSkipped_latest, State.queueSkipped_stream]

theorem State.skipSlot_rawIn (h : (s.stream g).frames = []) :
    SMap.get (fun _ => []) (s.skipSlot g e).rawIn g = SMap.get (fun _ => []) s.rawIn g ++ [.skipped (s.skipRecord g e)] := by
  have halone : ((s.queueSkipped g e).stream g).frames = [skippedFrame (s.skipRecord g e)] := by
    rw [State.queueSkipped_stream, h]
    rfl
  have hraw : (s.queueSkipped g e).rawIn = s.rawIn := State.queueSkipped_keeps s g e State.rawIn (fun _ _ _ => rfl) (fun _ _ => rfl)
  rw [State.skipSlot_eq, State.nextSlot, State.setGrp_rawIn, State.sendSkipped_alone halone rfl, State.toRaw, SMap.get_set_same, State.setStream_rawIn, hraw]
  rfl

end skipped

theorem windowClose_skips {s : State} {g e : Nat} (hrun : (s.grp g).running = true) (hlead : s.leads g = true) (hwin : s.windowed g = true)
    (hhold : s.holding 0x10 = false) (hexp : s.expected g (s.grp g).slot = some e) (hpast : s.reached ((e + Fld.SFE.FS_LATE s.regs g) % 2 ^ 40) = true) :
    windowClose g s = s.skipSlot g e := by
  unfold windowClose
  simp only [hrun, hlead, hwin, hhold, hexp, hpast]
  rfl

theorem windowClose_stopped {s : State} {g : Nat} (h : (s.grp g).running = false) : windowClose g s = s := if_pos (by rw [h]; rfl)

/-! ### JOIN_SKEW_EXPIRY (R83) -/

theorem foldl_stays {α β : Type} {f : β → α → β} {b : β} {l : List α} (h : ∀ a ∈ l, f b a = b) : l.foldl f b = b := by
  induction l with
  | nil => rfl
  | cons a l ih =>
    rw [List.foldl_cons, h a List.mem_cons_self]
    exact ih (fun x hx => h x (List.mem_cons_of_mem _ hx))

/-- The shares that a group owes where it has missed a leading frame start are closed. -/
def State.closeMissed (s : State) (g : Nat) : State :=
  (List.range 4).foldl (fun s n => match s.missedFrame n g with
    | some f => s.missingShare n g f
    | none => s) s

theorem joinSkewExpiry_eq (g : Nat) (s : State) : joinSkewExpiry g s = (if (s.grp g).heldSof.isSome && !s.heldFits g then s.dropHeld g else s).closeMissed g := rfl

theorem State.closeMissed_none {s : State} {g : Nat} (h : ∀ n, n < 4 → s.missedFrame n g = none) : s.closeMissed g = s :=
  foldl_stays (fun n hn => by simp only [h n (List.mem_range.mp hn)])

theorem State.missedFrame_dropHeld (s : State) (n g : Nat) : (s.dropHeld g).missedFrame n g = s.missedFrame n g := rfl

/-- A held start older than its JOIN_SKEW is dropped. -/
theorem joinSkewExpiry_drops {s : State} {g time : Nat} {f : SfeFrame} (hheld : (s.grp g).heldSof = some time) (hframe : (s.grp g).frame = some f)
    (hlate : f.cfg.skew < shortFwd time s.now) (hmiss : ∀ n, n < 4 → s.missedFrame n g = none) : joinSkewExpiry g s = s.dropHeld g := by
  have hfits : s.heldFits g = false := by
    unfold State.heldFits
    simp only [hheld, hframe]
    exact decide_eq_false (by omega)
  rw [joinSkewExpiry_eq, hheld, hfits, if_pos (by rfl)]
  exact State.closeMissed_none (fun n hn => (State.missedFrame_dropHeld s n g).trans (hmiss n hn))

theorem joinSkewExpiry_idle {s : State} {g : Nat} (hheld : (s.grp g).heldSof = none) (hmiss : ∀ n, n < 4 → s.missedFrame n g = none) : joinSkewExpiry g s = s := by
  rw [joinSkewExpiry_eq, hheld, if_neg (by simp), State.closeMissed_none hmiss]

theorem State.dropHeld_grp (s : State) (g : Nat) : (s.dropHeld g).grp g = { s.grp g with heldSof := none, frame := none, line := none, discard := true } := by
  unfold State.dropHeld
  rw [State.grp_of_sfe (State.bump_sfe _ _), State.grp_setGrp_same]

theorem SameRegsBut.dropHeld (s : State) (g : Nat) : SameRegsBut [Adr.SFE.LATE_SOF g] s (s.dropHeld g) := by
  have hset : SameRegsBut [] s (s.setGrp g { s.grp g with heldSof := none, frame := none, line := none, discard := true }) := .refl _ (State.setGrp_regs _ _ _)
  exact hset.trans (.bump _ _)

/-! ### LINE_FORWARD (R20, R93, R370) -/

section forward
variable {s : State} {n : Nat}

theorem lineForward_stalled (h : s.rawStalled n = true) : lineForward n s = s := if_pos h

theorem lineForward_empty (hfree : s.rawStalled n = false) (h : (s.stream n).frames = []) : lineForward n s = s := by
  unfold lineForward
  refine (if_neg (by rw [hfree]; exact Bool.false_ne_true)).trans ?_
  simp only [h]

/-- One group's next row, as the frame sends it. -/
theorem State.popRows_single {g : Nat} {c : SfeCfg} {row : RawRow} {x : SfeGroup} (h : (s.grp g).pop = some (row, x)) :
    s.popRows [(g, c)] = some ([padStrip c row], s.setGrp g x) := by
  unfold State.popRows State.popRows
  simp only [h]

/-- The row of one group alone is the row itself. -/
theorem joinStrips_single (r : RawRow) : joinStrips [r] = r := by
  have hstamp : (([r].find? (fun r => r.stamp.isSome)).bind (·.stamp)) = r.stamp := by
    cases h : r.stamp <;> simp [h]
  unfold joinStrips
  rw [hstamp]
  simp

/-- What LINE_FORWARD does with the rows it has taken for the frame at the stream's head. -/
def State.sendRows (s : State) (n : Nat) (st : SfeStream) (f : StreamFrame) (rest : List StreamFrame) (rows : List RawRow) : State :=
  let s := if f.started then s else s.toRaw n (.start f.record f.mode f.cfgs f.height)
  let row := joinStrips rows
  let row := { row with stamp := rowStamp f st.interval row }
  let real := if row.pad then none else row.stamp
  let f := { f with started := true, sent := f.sent + 1, stamp0 := if f.sent = 0 then real else f.stamp0, stamp1 := if f.sent = 16 then real else f.stamp1 }
  ((s.setStream n { st with frames := f :: rest }).toRaw n (.row row)).finishFrame n

theorem lineForward_sends {t : State} {f : StreamFrame} {rest : List StreamFrame} {rows : List RawRow} (hfree : s.rawStalled n = false)
    (hframes : (s.stream n).frames = f :: rest) (hsent : f.sent < f.height) (hbegun : f.members.all (fun m => f.begun.contains m) = true)
    (hpop : s.popRows f.rowGroups = some (rows, t)) : lineForward n s = t.sendRows n (s.stream n) f rest rows := by
  unfold lineForward
  refine (if_neg (by rw [hfree]; exact Bool.false_ne_true)).trans ?_
  simp only [hframes]
  refine (if_neg (by omega)).trans ((if_neg (by rw [hbegun]; decide)).trans ?_)
  rw [hpop]
  rfl

/-- A frame with rows to send does not finish. -/
theorem State.finishFrame_more {f : StreamFrame} {rest : List StreamFrame} (hframes : (s.stream n).frames = f :: rest) (h : f.sent < f.height) :
    s.finishFrame n = s := by
  have hmore : ¬ (f.started && f.waiting.isEmpty && decide (f.height ≤ f.sent)) = true := by
    rw [decide_eq_false (Nat.not_le.mpr h), Bool.and_false]
    exact Bool.false_ne_true
  unfold State.finishFrame
  simp only [hframes]
  exact if_neg hmore

/-- The frame that has sent one more row which is not the first of its line group. -/
def StreamFrame.sentOne (f : StreamFrame) : StreamFrame := { f with started := true, sent := f.sent + 1 }

/-- A row within a line group, before the last, goes to raw conditioning without a stamp. -/
theorem State.sendRows_within {st : SfeStream} {f : StreamFrame} {rest : List StreamFrame} {r : RawRow} (hstarted : f.started = true)
    (hmore : f.sent + 1 < f.height) (hwithin : f.sent % 16 ≠ 0) :
    s.sendRows n st f rest [r] = (s.setStream n { st with frames := f.sentOne :: rest }).toRaw n (.row { r with stamp := none }) := by
  have hstamp : rowStamp f st.interval r = none := if_neg hwithin
  have hfirst : f.sent ≠ 0 := fun h => hwithin (by rw [h])
  have hsecond : f.sent ≠ 16 := fun h => hwithin (by rw [h])
  have hstream (t : State) (x : SfeStream) (i : RawItem) : ((t.setStream n x).toRaw n i).stream n = x := t.stream_setStream_same n x
  unfold State.sendRows
  simp only [hstarted, joinStrips_single, hstamp, hfirst, hsecond, if_true, if_false]
  exact State.finishFrame_more (f := f.sentOne) (rest := rest) (by rw [hstream]; rfl) hmore

end forward

/-! ### Embedded sync codes (R88) -/

theorem syncCode_wellFormed (g : Fin 4) {words : List (List Nat)} (hlen : words.length ≤ 20)
    (hform : words.all (fun c => c.length == 4 && samplesOk c) = true) : (Instr.syncCode g [] words).wellFormed = true :=
  Bool.and_eq_true_iff.mpr ⟨Bool.and_eq_true_iff.mpr ⟨rfl, decide_eq_true hlen⟩, hform⟩

/-- A code acts by its type on a group with embedded sync. -/
theorem syncCode_typed {s : State} {g typ : Nat} {words : List (List Nat)} (hembed : s.embedded g = true)
    (htyp : majorityType (s.wordForm g).1 (words.take (s.wordForm g).2) = some typ) :
    syncCode g [] words s =
      (let u := s.bumpBy (Adr.SFE.SYNC_ERR g) ((words.take (s.wordForm g).2).filter (fun c =>
          !(codeMatches (s.wordForm g).1 c && decide (codeType (s.wordForm g).1 c = some typ)))).length
        if typ = 8 then (u.frameStartAt g).lineStart g false else if typ = 9 then u.lineStart g false else if typ = 0xA then u.endLine g
        else if typ = 0xB then u.frameEndAt g else u.lineStart g true) := by
  have hsame : s.samples g [] = s := rfl
  unfold syncCode
  rw [hsame]
  refine (if_neg (by rw [hembed]; decide)).trans ?_
  simp only [htyp]
  split
  · rfl
  · rfl
  · rfl
  · rfl
  · rename_i h8 h9 hA hB
    rw [if_neg h8, if_neg h9, if_neg hA, if_neg hB]

/-- A code is data on a group without embedded sync. -/
theorem syncCode_data {s : State} {g : Nat} (hembed : s.embedded g = false) (words : List (List Nat)) :
    syncCode g [] words s = s.samples g (interleave (words.take (s.wordForm g).2)) := by
  have hsame : s.samples g [] = s := rfl
  unfold syncCode
  rw [hsame]
  exact if_pos (by rw [hembed]; rfl)

/-! ### V and H triggers (R98) -/

theorem vTrigger_fires {s : State} {g slot : Nat} (hon : (s.grp g).trigOn = true)
    (hslot : slot = slotTime (s.trigStart g) (Fld.SFE.FRM_RATE_NUM s.regs g) (Fld.SFE.FRM_RATE_DEN s.regs g) (s.grp g).trig) (h : s.reached slot = true) :
    vTrigger g s = (s.emit (.trigger g false (Fld.SFE.TRIG_CFG_POL s.regs g == 1) (Fld.SFE.TRIG_CFG_VT_WIDTH s.regs g * 64))).setGrp g { s.grp g with
      trig := (s.grp g).trig + 1
      hLeft := if Fld.SFE.TRIG_CFG_HT_EN s.regs g = 1 then Fld.SFE.HT_COUNT s.regs g else 0
      hNext := (slot + Fld.SFE.HT_DELAY s.regs g) % 2 ^ 40 } := by
  subst hslot
  exact if_neg (by rw [hon, h]; decide)

theorem hTrigger_waits {s : State} {g : Nat} (h : (s.grp g).hLeft = 0 ∨ (s.grp g).trigOn = false ∨ s.reached (s.grp g).hNext = false) : hTrigger g s = s :=
  if_pos (by rcases h with h | h | h <;> simp [h])

theorem hTrigger_fires {s : State} {g : Nat} (hleft : 0 < (s.grp g).hLeft) (hon : (s.grp g).trigOn = true) (h : s.reached (s.grp g).hNext = true) :
    hTrigger g s = (s.emit (.trigger g true (Fld.SFE.TRIG_CFG_POL s.regs g == 1) (Fld.SFE.HT_PERIOD s.regs g / 2))).setGrp g { s.grp g with
      hLeft := (s.grp g).hLeft - 1, hNext := ((s.grp g).hNext + Fld.SFE.HT_PERIOD s.regs g) % 2 ^ 40 } :=
  if_neg (by simp [hleft.ne', hon, h])

/-- What a trigger has sent stands in the outbox right after what was there. -/
theorem State.settle_sends_after {s : State} (o : Output) (g : Nat) (x : SfeGroup) : ∃ out, ((s.emit o).setGrp g x).settle.outbox = s.outbox ++ o :: out := by
  obtain ⟨out, hout⟩ := ((s.emit o).setGrp g x).settle_sends
  have hemit : ((s.emit o).setGrp g x).outbox = s.outbox ++ [o] := rfl
  exact ⟨out, by rw [hout, hemit, List.append_assoc]; rfl⟩

/-- Settles O26: the events of a group and of its stream, each by the case that its clause names. -/
theorem windowsJoinsAndForwarding : Obligations.WindowsJoinsAndForwarding := by
  unfold Obligations.WindowsJoinsAndForwarding
  intro s g hrun
  refine ⟨?skips, ?stopped, ?drops, ?noStart, ?empty, ?stalled, ?forwards, ?code, ?data, ?vTrigger, ?hWaits, ?hTrigger⟩
  case skips =>
    intro e hon hlead hwin hhold hexp hpast hiso
    have htags : (s.skipRecord g e).tags = 8 := by
      unfold State.skipRecord State.newRec
      rw [hiso]
      rfl
    have hregs := s.skipSlot_regs g e
    refine .of_answer (congrArg (answer (.windowClose g)) (windowClose_skips hon hlead hwin hhold hexp hpast)) rfl ?_
    rw [State.grp_settle, State.skipSlot_grp, State.settle_rd, State.stream_settle, State.skipSlot_latest, State.settle_rawIn]
    refine ⟨rfl, rfl, ?_, ((SameRegsBut.bump s _).to_regs hregs).settle, rfl, rfl, htags, fun h => s.skipSlot_rawIn g e h⟩
    rw [State.rd, hregs]
    exact s.rd_bump_same _
  case stopped =>
    intro hoff
    exact .plain rfl (congrArg (answer (.windowClose g)) (windowClose_stopped hoff))
  case drops =>
    intro time f hheld hframe hlate hmiss
    refine .of_answer (congrArg (answer (.joinSkewExpiry g)) (joinSkewExpiry_drops hheld hframe hlate hmiss)) rfl ?_
    rw [State.grp_settle, State.dropHeld_grp, State.settle_rd]
    exact ⟨rfl, State.rd_bump_same _ _, (SameRegsBut.dropHeld s g).settle⟩
  case noStart =>
    intro hheld hmiss
    exact .plain rfl (congrArg (answer (.joinSkewExpiry g)) (joinSkewExpiry_idle hheld hmiss))
  case empty =>
    intro hframes hfree
    exact .plain rfl (congrArg (answer (.lineForward g)) (lineForward_empty hfree hframes))
  case stalled =>
    intro hstall
    exact .plain rfl (congrArg (answer (.lineForward g)) (lineForward_stalled hstall))
  case forwards =>
    intro f rest row x c hfree hframes hstarted hmembers hcfgs hbegun hmode hmore hpop hpad hwithin
    have hgroups : f.rowGroups = [(g.val, c)] := by
      unfold StreamFrame.rowGroups
      rw [hmode, hmembers, hcfgs]
      rfl
    have hall : f.members.all (fun m => f.begun.contains m) = true := by
      rw [hmembers, hbegun]
      simp
    have hstrip : padStrip c row = row := if_neg (by rw [hpad]; exact Bool.false_ne_true)
    have hrows : s.popRows f.rowGroups = some ([row], s.setGrp g x) := by rw [hgroups, State.popRows_single hpop, hstrip]
    refine .of_answer (congrArg (answer (.lineForward g)) ((lineForward_sends hfree hframes (by omega) hall hrows).trans
      (State.sendRows_within hstarted hmore hwithin))) rfl ?_
    have hstream (t : State) (y : SfeStream) (i : RawItem) : ((t.setStream g y).toRaw g i).stream g = y := t.stream_setStream_same g y
    have hgrp (t : State) (y : SfeStream) (i : RawItem) : ((t.setStream g y).toRaw g i).grp g = t.grp g := rfl
    rw [State.settle_rawIn, State.grp_settle, State.stream_settle, State.settle_regs, hgrp, State.grp_setGrp_same, hstream, State.toRaw, SMap.get_set_same]
    exact ⟨rfl, rfl, ⟨_, rfl, rfl⟩, rfl⟩
  case code =>
    intro words typ hlen hform hembed htyp
    exact .running hrun (syncCode_wellFormed g hlen hform) (syncCode_typed hembed htyp)
  case data =>
    intro words hlen hform hembed
    exact .running hrun (syncCode_wellFormed g hlen hform) (syncCode_data hembed words)
  case vTrigger =>
    intro slot hon hslot hreached
    refine .running hrun rfl ?_ (u := vTrigger g s)
    rw [vTrigger_fires hon hslot hreached, State.grp_settle, State.grp_setGrp_same]
    exact ⟨rfl, rfl, rfl, State.settle_sends_after _ _ _⟩
  case hWaits =>
    intro h
    exact .running hrun rfl (hTrigger_waits h)
  case hTrigger =>
    intro hleft hon hreached
    refine .running hrun rfl ?_ (u := hTrigger g s)
    rw [hTrigger_fires hleft hon hreached, State.grp_settle, State.grp_setGrp_same]
    exact ⟨rfl, rfl, State.settle_sends_after _ _ _⟩

end Sys2Proof.Machine

/-! The arithmetic of raw conditioning: the stages of one row, with their tables absent or off, and the limits of their values (R101 to R109). -/

namespace Sys2Proof.Machine

/-! ### Saturation (R101) -/

theorem le_sat {lo hi : Int} (x : Int) (h : lo ≤ hi) : lo ≤ sat x lo hi := by
  unfold sat
  split_ifs <;> omega

theorem sat_le {lo hi : Int} (x : Int) (h : lo ≤ hi) : sat x lo hi ≤ hi := by
  unfold sat
  split_ifs <;> omega

theorem sat_of_mem {x lo hi : Int} (hlo : lo ≤ x) (hhi : x ≤ hi) : sat x lo hi = x := by
  unfold sat
  rw [if_neg (by omega), if_neg (by omega)]

theorem le_satL25 (x : Int) : -(2 ^ 24 : Int) ≤ satL25 x := le_sat x (by norm_num)

theorem satL25_le (x : Int) : satL25 x ≤ 2 ^ 24 - 1 := sat_le x (by norm_num)

theorem satL25_of_mem {x : Int} (hlo : -(2 ^ 24 : Int) ≤ x) (hhi : x ≤ 2 ^ 24 - 1) : satL25 x = x := sat_of_mem hlo hhi

theorem satL25_satL25 (x : Int) : satL25 (satL25 x) = satL25 x := satL25_of_mem (le_satL25 x) (satL25_le x)

/-! ### Stage 1: dark subtraction (R104) -/

/-- A function of a list's values does not see their places. -/
theorem map_zipIdx_fst {α β : Type} (g : α → β) (l : List α) : l.zipIdx.map (fun e => g e.1) = l.map g := by
  have hcomp : l.zipIdx.map (fun e => g e.1) = (l.zipIdx.map Prod.fst).map g := List.map_map.symm
  rw [hcomp, List.zipIdx_map_fst]

theorem RcnFrame.stage1_without_dark {f : RcnFrame} {r : Nat} (h : f.table (.dark, r) = none) (n q : Nat) :
    f.stage1 n r q = (f.samples r q).map (fun x : Nat => (x : Int) - (Fld.RCN.DARK_BASE f.cfg n : Nat)) := by
  unfold RcnFrame.stage1
  simp only [h, Nat.zero_mul, Nat.add_zero]
  exact map_zipIdx_fst (fun x : Nat => (x : Int) - (Fld.RCN.DARK_BASE f.cfg n : Nat)) _

theorem RcnFrame.stage1_with_dark {f : RcnFrame} {r : Nat} {b : List Byte} (h : f.table (.dark, r) = some b) (hsingle : f.dual = false) (n : Nat) :
    f.stage1 n r 0 = (f.samples r 0).zipIdx.map (fun e =>
      (e.1 : Int) - ((Fld.RCN.DARK_BASE f.cfg n + (nth 0 b e.2).toNat * 2 ^ Fld.RCN.CTX_CFG_DARK_SHIFT f.cfg n : Nat) : Int)) := by
  unfold RcnFrame.stage1
  simp only [h, hsingle]
  rfl

/-! ### Stage 2: the value of a defect (R106) -/

theorem fixValue_none (a sum : Int) : fixValue a sum 0 = a := if_pos rfl

theorem fixValue_one (a sum : Int) : fixValue a sum 1 = sum := by
  show Int.fdiv (sum * 65536 + 32768) 65536 = sum
  rw [Int.fdiv_eq_ediv_of_nonneg _ (by decide)]
  omega

theorem fixValue_two (a sum : Int) : fixValue a sum 2 = Int.fdiv (sum + 1) 2 := by
  show Int.fdiv (sum * 32768 + 32768) 65536 = _
  rw [Int.fdiv_eq_ediv_of_nonneg _ (by decide), Int.fdiv_eq_ediv_of_nonneg _ (by decide)]
  omega

theorem fixValue_four (a sum : Int) : fixValue a sum 4 = Int.fdiv (sum + 2) 4 := by
  show Int.fdiv (sum * 16384 + 32768) 65536 = _
  rw [Int.fdiv_eq_ediv_of_nonneg _ (by decide), Int.fdiv_eq_ediv_of_nonneg _ (by decide)]
  omega

/-! ### Stages 2 to 4 off (R104, R106, R107) -/

theorem RcnFrame.stage2_off {f : RcnFrame} {n : Nat} (h : Fld.RCN.CTX_CFG_DEF_EN f.cfg n = 0) (r q : Nat) : f.stage2 n r q = (f.held r q, 0) := if_pos h

theorem RcnFrame.stage3_off {f : RcnFrame} (h : f.table (.column, 0) = none) (q : Nat) (a : List Int) : f.stage3 q a = a.map (· * 16) := by
  unfold RcnFrame.stage3
  simp only [h, Int.sub_zero]
  exact map_zipIdx_fst (· * 16) _

theorem stage4_off {cfg : RegFile} {n : Nat} (h : Fld.RCN.CTX_CFG_ROW_EN cfg n = 0) (width : Nat) (cc : List Int) : stage4 cfg n width cc = (cc, 0) := by
  have hoff : rowActs cfg n width = false := by
    unfold rowActs
    rw [h]
    rfl
  exact if_neg (by rw [hoff]; exact Bool.false_ne_true)

/-! ### Stage 5: merge (R108) -/

/-- Up to the knee the low-gain sample has no weight. -/
theorem mergeL25_below_knee {e1 : Int} {t0 : Nat} (h : e1 ≤ t0) (w ratio k : Nat) (e0 : Int) :
    mergeL25 w true t0 ratio k e0 e1 = satL25 (rshift (e1 * ratio) (w + 4)) := by
  have hzero : rshift 0 10 = 0 := by decide
  unfold mergeL25
  simp only [if_pos h, Int.mul_zero, hzero, Int.add_zero]
  rfl

/-! ### Stage 6: flat field (R109) -/

theorem RcnFrame.flatOut_off {f : RcnFrame} {n : Nat} (h : Fld.RCN.CTX_CFG_FF_EN f.cfg n = 0) (r c : Nat) (v : Int) : f.flatOut n r c v = satL25 v := if_pos h

/-- Between two equal nodes the gain is theirs. -/
theorem interpolate_equal {fx cell : Nat} (h : fx ≤ cell) (g : Nat) : g * (cell - fx) + g * fx = g * cell := by
  rw [← Nat.mul_add, Nat.sub_add_cancel h]

/-- The gain of a cell with equal nodes: half a unit, added before the division by the unit, is lost where nothing else remains (R109). -/
theorem flatGain_equal {sl fx fy : Nat} (hsl : 1 ≤ sl) (hx : fx < 2 ^ sl) (hy : fy < 2 ^ sl) (g : Nat) : flatGain sl fx fy g g g g = g := by
  have hunit : 2 ^ sl * 2 ^ sl = 2 ^ (2 * sl) := by rw [two_mul, pow_add]
  have hhalf : 2 ^ (2 * sl - 1) < 2 ^ (2 * sl) := Nat.pow_lt_pow_right (by decide) (by omega)
  unfold flatGain
  dsimp only
  rw [interpolate_equal hx.le, interpolate_equal hy.le, Nat.mul_assoc, hunit]
  rw [Nat.mul_comm, Nat.mul_add_div (Nat.two_pow_pos _), Nat.div_eq_of_lt hhalf, Nat.add_zero]

/-! ### One row -/

theorem RcnFrame.condRow_pad {f : RcnFrame} {r : Nat} (h : f.padRow r = true) (n : Nat) : f.condRow n r = (List.replicate f.width 0, 0, 0) := if_pos h

/-- With defect correction, the column table, row correction and the flat field off, a row of one gain is what stage 1 held, scaled to L25 (R108). -/
theorem RcnFrame.condRow_off {f : RcnFrame} {n r : Nat} (hpad : f.padRow r = false) (hsingle : f.dual = false) (hdef : Fld.RCN.CTX_CFG_DEF_EN f.cfg n = 0)
    (hcol : f.table (.column, 0) = none) (hrow : Fld.RCN.CTX_CFG_ROW_EN f.cfg n = 0) (hflat : Fld.RCN.CTX_CFG_FF_EN f.cfg n = 0) :
    f.condRow n r = ((f.held r 0).map (fun a => satL25 (a * 16 * 2 ^ (20 - f.sampleBits))), 0, 0) := by
  have hcorrected : f.corrected n r 0 = ((f.held r 0).map (· * 16), 0, 0) := by
    unfold RcnFrame.corrected
    simp only [stage2_off hdef, stage3_off hcol, stage4_off hrow]
  have hmerge (t0 ratio k : Nat) (e0 e1 : Int) : mergeL25 f.sampleBits false t0 ratio k e0 e1 = satL25 (e0 * 2 ^ (20 - f.sampleBits)) := rfl
  unfold RcnFrame.condRow
  rw [if_neg (by rw [hpad]; exact Bool.false_ne_true), hcorrected]
  simp only [hsingle, hmerge, flatOut_off hflat, satL25_satL25]
  refine congrArg (·, 0, 0) ?_
  rw [map_zipIdx_fst (fun e0 => satL25 (e0 * 2 ^ (20 - f.sampleBits))), List.map_map]
  rfl

end Sys2Proof.Machine

/-! CONDITION_LINE and the table reads of raw conditioning, and what settles its obligation (R101, R102, R105, R110). -/

namespace Sys2Proof.Machine

/-! ### Table reads (R105, R110) -/

section reads
variable {s : State} {f : RcnFrame} {k : RcnTable × Nat} {a len : Nat}

theorem State.readTable_issued (s : State) (n : Nat) (h : f.issued k = true) (span : Nat × Nat) : s.readTable n f k span = (f, s) := if_pos h

theorem State.readTable_served (n : Nat) (h : f.issued k = false) (hspan : s.spanError a len = none) (hsound : f.failed.find? (fun e => e.1 == k) = none) :
    s.readTable n f k (a, len) = ({ f with reads := f.reads ++ [(k, some (s.dramRead a len))] }, s) := by
  unfold State.readTable
  rw [if_neg (by rw [h]; exact Bool.false_ne_true), hspan, hsound]
  rfl

/-- A table read that ended in an error response: it is issued and gave nothing. -/
def RcnFrame.readFailed (f : RcnFrame) (k : RcnTable × Nat) : RcnFrame := { f with reads := f.reads ++ [(k, none)] }

theorem State.readTable_failed (n : Nat) {cause : Nat} (h : f.issued k = false)
    (hcause : (s.spanError a len).or ((f.failed.find? (fun e => e.1 == k)).map (·.2)) = some cause) :
    s.readTable n f k (a, len) = (f.readFailed k, s.tableErr n cause) := by
  unfold State.readTable
  rw [if_neg (by rw [h]; exact Bool.false_ne_true), hcause]
  rfl

theorem RcnFrame.table_readFailed (h : f.issued k = false) : (f.readFailed k).table k = none := by
  have hfirst : f.reads.find? (fun e => e.1 == k) = none :=
    List.find?_eq_none.mpr (List.any_eq_false.mp h)
  unfold RcnFrame.table RcnFrame.readFailed
  simp [List.find?_append, hfirst]

end reads

/-- What the memory controller counts of an access that failed is an uncorrectable error of one channel, above every register of raw conditioning (R293). -/
theorem State.rd_upstream_below (s : State) (unit cause : Nat) {a : Nat} (h : a < 0x44108) : (s.upstream unit cause).rd a = s.rd a := by
  have hue (t : State) (ch addr master : Nat) : (t.uncorrectable ch addr master).rd a = t.rd a :=
    t.rd_bump_other (Adr.MC.UE (ch / 4) (ch % 4)) a (by unfold Adr.MC.UE; omega)
  have hmem : (s.memoryError unit cause).rd a = s.rd a := by
    unfold State.memoryError
    split
    · rfl
    · split
      · split
        · exact hue _ _ _ _
        · rfl
      · rfl
  exact hmem

theorem State.tableErr_rd (s : State) {n : Nat} (hn : n < 4) (cause : Nat) :
    (s.tableErr n cause).rd (Adr.RCN.TABLE_ERR n) = satInc 32 (s.rd (Adr.RCN.TABLE_ERR n)) :=
  (State.rd_upstream_below _ _ _ (by unfold Adr.RCN.TABLE_ERR; omega)).trans (s.rd_bump_same _)

theorem State.mem_tableErr (s : State) {n : Nat} (hn : n < 4) (cause : Nat) :
    { page := 0x12, cause := cause, code := 0x01, event := true, unit := 0x121 + n } ∈ (s.tableErr n cause).held := by
  have hpage : (0x121 + n) / 16 = 0x12 := by omega
  exact (State.mem_event _ _ _ _ _).mpr (.inl (by rw [hpage]))

theorem tableReadError_idle {s : State} {n : Nat} (h : (s.rcnOf n).frame = none) (tab : RcnTable) (row unit : Nat) : tableReadError n tab row unit s = s := by
  unfold tableReadError
  rw [h]

theorem tableReadError_issued {s : State} {n row : Nat} {tab : RcnTable} {f : RcnFrame} (h : (s.rcnOf n).frame = some f) (hissued : f.issued (tab, row) = true)
    (unit : Nat) : tableReadError n tab row unit s = s := by
  unfold tableReadError
  rw [h]
  exact if_pos (by rw [hissued]; rfl)

theorem tableReadError_first {s : State} {n row : Nat} {tab : RcnTable} {f : RcnFrame} (h : (s.rcnOf n).frame = some f) (hissued : f.issued (tab, row) = false)
    (hfailed : f.failed = []) (unit : Nat) :
    tableReadError n tab row unit s = s.setRcn n { s.rcnOf n with frame := some { f with failed := [((tab, row), unit)] } } := by
  unfold tableReadError
  rw [h]
  simp only [hissued, hfailed]
  rfl

theorem wellFormed_tableReadError (n : Fin 4) (tab : RcnTable) {row unit : Nat} (hrow : row < 2 ^ 14) (hunit : unit < 4096) :
    Instr.wellFormed (.tableReadError n tab row unit) = true := by
  have hok : (decide (row < 2 ^ 14) && unitOk unit) = true := by simp only [unitOk, hrow, hunit, decide_true, Bool.and_self]
  exact hok

/-! ### The stream through a context -/

section handOn
variable (s : State) (n : Nat) (toEbe toOrg : Bool) (i : LineItem)

theorem State.fromRaw_ebeQueue : (s.fromRaw n toEbe toOrg i).ebeQueue n = s.ebeQueue n ++ (if toEbe then [i] else []) := by
  cases toEbe <;> cases toOrg <;> simp [State.fromRaw, State.ebeQueue]

theorem State.fromRaw_orgIn : (s.fromRaw n toEbe toOrg i).orgIn = s.orgIn ++ (if toOrg then [i] else []) := by
  cases toEbe <;> cases toOrg <;> simp [State.fromRaw]

theorem State.fromRaw_regs : (s.fromRaw n toEbe toOrg i).regs = s.regs := by
  cases toEbe <;> cases toOrg <;> rfl

end handOn

theorem State.ebeFeed_empty {s : State} {n : Nat} (h : s.ebeQueue n = []) : s.ebeFeed n = s := by
  unfold State.ebeFeed
  rw [h]
  rfl

theorem State.orgFeed_empty {s : State} (h : s.orgIn = []) (hopen : s.orgOpen 0 = false) : s.orgFeed 0 = s := by
  have hqueue : s.orgQueue 0 = [] := h
  unfold State.orgFeed
  rw [hopen]
  cases (s.orgOf 0).frame with
  | none => exact congrArg (fun q : List LineItem => s.orgPump 0 q.length) hqueue
  | some f => exact congrArg (fun q : List LineItem => s.orgPump 0 q.length) hqueue

/-- Where neither consumer has anything in hand, CONDITION_LINE is what the context does with its next item. -/
theorem conditionLine_unfed {s : State} {n : Nat} (hebe : (s.conditionItem n).ebeQueue n = []) (horg : (s.conditionItem n).orgIn = [])
    (hopen : (s.conditionItem n).orgOpen 0 = false) : conditionLine n s = s.conditionItem n := by
  unfold conditionLine
  rw [State.ebeFeed_empty hebe, State.orgFeed_empty horg hopen]

theorem State.conditionItem_empty {s : State} {n : Nat} (h : SMap.get (fun _ => []) s.rawIn n = []) : s.conditionItem n = s := by
  unfold State.conditionItem
  rw [h]

theorem State.conditionItem_waits {s : State} {n : Nat} {i : RawItem} {rest : List RawItem} (h : SMap.get (fun _ => []) s.rawIn n = i :: rest)
    (hwait : s.consumerStalled n i = true ∨ s.rowWaits n = true) : s.conditionItem n = s := by
  unfold State.conditionItem
  rw [h]
  exact if_pos (by rcases hwait with hwait | hwait <;> simp [hwait])

/-- The oldest item of a context's stream leaves it. -/
def State.takeRaw (s : State) (n : Nat) (rest : List RawItem) : State := { s with rawIn := SMap.set (fun _ => []) s.rawIn n rest }

theorem State.conditionItem_row {s : State} {n : Nat} {row : RawRow} {rest : List RawItem} {f : RcnFrame}
    (h : SMap.get (fun _ => []) s.rawIn n = .row row :: rest) (hframe : (s.rcnOf n).frame = some f) (hready : s.consumerStalled n (.row row) = false)
    (hwait : s.rowWaits n = false) : s.conditionItem n = (s.takeRaw n rest).rcnRow n f row := by
  unfold State.conditionItem
  rw [h]
  dsimp only
  rw [if_neg (by rw [hready, hwait, hframe]; simp), hframe]
  rfl

theorem State.rowWaits_dram {s : State} (h : s.dramStopped = false) (n : Nat) : s.rowWaits n = false := by
  unfold State.rowWaits
  rw [h]
  rfl

/-! ### A PAD row (R102) -/

/-- A frame that a PAD row has entered. -/
def RcnFrame.withPad (f : RcnFrame) (row : RawRow) : RcnFrame := { f with rows := f.rows ++ [row], level := f.level ++ [([], [])] }

/-- What a PAD row leaves as: its flags, and code 0 in every column. -/
def RcnFrame.padOut (f : RcnFrame) (row : RawRow) : LineFlags × List Int := ({ pad := true, short := row.short, long := row.long }, List.replicate f.width 0)

/-- A frame that a PAD row has passed through. -/
def RcnFrame.passPad (f : RcnFrame) (row : RawRow) : RcnFrame := { f.withPad row with out := f.out ++ [f.padOut row] }

/-- What a row that leaves does beside its consumers: the counters of defects unfixed and offsets limited take what it adds, and its edges are kept. -/
def State.countRow (s : State) (n count : Nat) (v : List Int) (unfixed limited : Nat) : State :=
  ((s.bumpBy (Adr.RCN.DEF_UNFIXED n) unfixed).bumpBy (Adr.RCN.ROW_LIMITED n) limited).keepEdges n count v

/-- A context's frame in progress is stored. -/
def State.setFrame (s : State) (n : Nat) (f : RcnFrame) : State := s.setRcn n { s.rcnOf n with frame := some f }

/-- The oldest item of a context's stream is a PAD row, which enters and leaves. -/
def State.passPad (s : State) (n : Nat) (rest : List RawItem) (f : RcnFrame) (row : RawRow) : State :=
  ((s.takeRaw n rest).countRow n f.record.count (List.replicate f.width 0) 0 0).setFrame n (f.passPad row)

section pad
variable {f : RcnFrame} {row : RawRow}

theorem RcnFrame.rows_withPad : (f.withPad row).rows[f.rows.length]? = some row := by simp [RcnFrame.withPad]

theorem RcnFrame.padRow_withPad (hpad : row.pad = true) : (f.withPad row).padRow f.rows.length = true := by
  unfold RcnFrame.padRow
  rw [RcnFrame.rows_withPad]
  exact hpad

theorem RcnFrame.flags_withPad (hpad : row.pad = true) : (f.withPad row).flags f.rows.length = { pad := true, short := row.short, long := row.long } := by
  unfold RcnFrame.flags
  rw [RcnFrame.rows_withPad]
  simp only [hpad]

/-- A PAD row that is next to leave needs no table and leaves as code 0, to no consumer where the frame has none. -/
theorem State.emitRow_pad (s : State) (n : Nat) (hpad : row.pad = true) (hout : f.out.length = f.rows.length) (hebe : f.toEbe = false)
    (horg : f.toOrg = false) : s.emitRow n (f.withPad row) = (f.passPad row, s.countRow n f.record.count (List.replicate f.width 0) 0 0) := by
  have hlen : (f.withPad row).out.length = f.rows.length := hout
  have hneeds : (f.withPad row).needs n f.rows.length = [] := if_pos (RcnFrame.padRow_withPad hpad)
  have hnone (t : State) (i : LineItem) : t.fromRaw n (f.withPad row).toEbe (f.withPad row).toOrg i = t := by
    rw [show (f.withPad row).toEbe = false from hebe, show (f.withPad row).toOrg = false from horg]
    rfl
  unfold State.emitRow
  simp only [hlen, hneeds, List.foldl_nil, RcnFrame.condRow_pad (RcnFrame.padRow_withPad hpad), RcnFrame.flags_withPad hpad, hnone]
  rfl

/-- Without defect correction a row leaves as soon as it has entered, and then none is ready. -/
theorem State.emitReady_pad (s : State) (n : Nat) (hpad : row.pad = true) (hout : f.out.length = f.rows.length) (hebe : f.toEbe = false)
    (horg : f.toOrg = false) (hdef : Fld.RCN.CTX_CFG_DEF_EN f.cfg n = 0) :
    s.emitReady n (f.withPad row) 3 = (f.passPad row, s.countRow n f.record.count (List.replicate f.width 0) 0 0) := by
  have hoff : ¬ Fld.RCN.CTX_CFG_DEF_EN (f.withPad row).cfg n = 1 := by
    show ¬ Fld.RCN.CTX_CFG_DEF_EN f.cfg n = 1
    omega
  have hnext : (f.withPad row).out.length < (f.withPad row).rows.length := by
    simp [RcnFrame.withPad, hout]
  have hdone : ¬ (f.passPad row).out.length < (f.passPad row).rows.length := by
    simp [RcnFrame.passPad, RcnFrame.withPad, hout]
  unfold State.emitReady
  simp only [if_neg hoff, Nat.add_zero]
  rw [if_pos ⟨hnext, .inl hnext⟩, State.emitRow_pad s n hpad hout hebe horg]
  unfold State.emitReady
  exact if_neg (fun h => hdone h.1)

theorem State.rcnRow_pad (s : State) (n : Nat) (hpad : row.pad = true) (hout : f.out.length = f.rows.length) (hebe : f.toEbe = false)
    (horg : f.toOrg = false) (hdef : Fld.RCN.CTX_CFG_DEF_EN f.cfg n = 0) :
    s.rcnRow n f row = (s.countRow n f.record.count (List.replicate f.width 0) 0 0).setFrame n (f.passPad row) := by
  have hmap : ¬ (f.map.isNone && Fld.RCN.CTX_CFG_DEF_EN f.cfg n == 1) = true := by simp [hdef]
  have hlast : (f.rows ++ [row]).length - 1 = f.rows.length := by simp
  have hlevel : s.levelRow n { f with rows := f.rows ++ [row] } f.rows.length = (f.withPad row, s) := by
    have hentered : { f with rows := f.rows ++ [row] }.padRow f.rows.length = true := RcnFrame.padRow_withPad hpad
    exact if_pos hentered
  unfold State.rcnRow
  simp only [if_neg hmap, hlast, hlevel, State.emitReady_pad s n hpad hout hebe horg hdef]
  rfl

end pad

/-- Keeping a row's edges changes the links and what has left the device, and nothing else. -/
theorem State.keepEdges_keeps {α : Type} (p : State → α) (hlinks : ∀ (t : State) (x : Links), p { t with links := x } = p t)
    (hemit : ∀ (t : State) (o : Output), p (t.emit o) = p t) (s : State) (n count : Nat) (v : List Int) : p (s.keepEdges n count v) = p s := by
  unfold State.keepEdges State.sendBorders
  exact (foldl_keeps p _ (fun t _ => hemit t _) _ _).trans (hlinks s _)

/-- A row that leaves changes two counters besides. -/
theorem State.countRow_keeps {α : Type} (p : State → α) (hlinks : ∀ (t : State) (x : Links), p { t with links := x } = p t)
    (hemit : ∀ (t : State) (o : Output), p (t.emit o) = p t) (hcount : ∀ (t : State) (a m : Nat), p (t.bumpBy a m) = p t) (s : State) (n count : Nat)
    (v : List Int) (unfixed limited : Nat) : p (s.countRow n count v unfixed limited) = p s := by
  unfold State.countRow
  rw [State.keepEdges_keeps p hlinks hemit, hcount, hcount]

theorem SameRegsBut.countRow (s : State) (n count : Nat) (v : List Int) (unfixed limited : Nat) :
    SameRegsBut [Adr.RCN.DEF_UNFIXED n, Adr.RCN.ROW_LIMITED n] s (s.countRow n count v unfixed limited) := by
  have hcount : SameRegsBut [Adr.RCN.DEF_UNFIXED n, Adr.RCN.ROW_LIMITED n] s
      ((s.bumpBy (Adr.RCN.DEF_UNFIXED n) unfixed).bumpBy (Adr.RCN.ROW_LIMITED n) limited) :=
    (SameRegsBut.setReg s _ _).trans (.setReg _ _ _)
  exact hcount.to_regs (State.keepEdges_keeps State.regs (fun _ _ => rfl) (fun _ _ => rfl) _ _ _ _)

section passPad
variable (s : State) (n : Nat) (rest : List RawItem) (f : RcnFrame) (row : RawRow)

theorem State.passPad_keeps {α : Type} (p : State → α) (htake : ∀ (t : State) (l : List RawItem), p (t.takeRaw n l) = p t)
    (hset : ∀ (t : State) (g : RcnFrame), p (t.setFrame n g) = p t) (hlinks : ∀ (t : State) (x : Links), p { t with links := x } = p t)
    (hemit : ∀ (t : State) (o : Output), p (t.emit o) = p t) (hcount : ∀ (t : State) (a m : Nat), p (t.bumpBy a m) = p t) :
    p (s.passPad n rest f row) = p s := by
  unfold State.passPad
  rw [hset, State.countRow_keeps p hlinks hemit hcount, htake]

theorem State.passPad_dram : (s.passPad n rest f row).dram = s.dram :=
  s.passPad_keeps n rest f row State.dram (fun _ _ => rfl) (fun _ _ => rfl) (fun _ _ => rfl) (fun _ _ => rfl) (fun _ _ _ => rfl)

theorem State.passPad_orgIn : (s.passPad n rest f row).orgIn = s.orgIn :=
  s.passPad_keeps n rest f row State.orgIn (fun _ _ => rfl) (fun _ _ => rfl) (fun _ _ => rfl) (fun _ _ => rfl) (fun _ _ _ => rfl)

theorem State.passPad_orgOpen (c : Nat) : (s.passPad n rest f row).orgOpen c = s.orgOpen c :=
  s.passPad_keeps n rest f row (fun t => t.orgOpen c) (fun _ _ => rfl) (fun _ _ => rfl) (fun _ _ => rfl) (fun _ _ => rfl) (fun _ _ _ => rfl)

theorem State.passPad_ebeQueue : (s.passPad n rest f row).ebeQueue n = s.ebeQueue n :=
  s.passPad_keeps n rest f row (fun t => t.ebeQueue n) (fun _ _ => rfl) (fun _ _ => rfl) (fun _ _ => rfl) (fun _ _ => rfl) (fun _ _ _ => rfl)

theorem State.passPad_rawIn : SMap.get (fun _ => []) (s.passPad n rest f row).rawIn n = rest := by
  unfold State.passPad State.setFrame
  rw [State.setRcn_rawIn, State.countRow_keeps State.rawIn (fun _ _ => rfl) (fun _ _ => rfl) (fun _ _ _ => rfl)]
  exact SMap.get_set_same _ _ _ _

theorem State.passPad_frame : ((s.passPad n rest f row).rcnOf n).frame = some (f.passPad row) := by
  unfold State.passPad State.setFrame
  rw [State.rcnOf_setRcn, if_pos rfl]

theorem SameRegsBut.passPad : SameRegsBut [Adr.RCN.DEF_UNFIXED n, Adr.RCN.ROW_LIMITED n] s (s.passPad n rest f row) :=
  SameRegsBut.countRow (s.takeRaw n rest) n f.record.count (List.replicate f.width 0) 0 0

end passPad

/-- CONDITION_LINE passes a PAD row of a frame that neither consumer takes through its context. -/
theorem conditionLine_pad {s : State} {n : Nat} {row : RawRow} {rest : List RawItem} {f : RcnFrame}
    (hraw : SMap.get (fun _ => []) s.rawIn n = .row row :: rest) (hframe : (s.rcnOf n).frame = some f) (hready : s.consumerStalled n (.row row) = false)
    (hdram : s.dramStopped = false) (hpad : row.pad = true) (hdef : Fld.RCN.CTX_CFG_DEF_EN f.cfg n = 0) (hout : f.out.length = f.rows.length)
    (htoEbe : f.toEbe = false) (htoOrg : f.toOrg = false) (hebe : s.ebeQueue n = []) (horg : s.orgIn = []) (hopen : s.orgOpen 0 = false) :
    conditionLine n s = s.passPad n rest f row := by
  have hitem : s.conditionItem n = s.passPad n rest f row :=
    (State.conditionItem_row hraw hframe hready (State.rowWaits_dram hdram n)).trans (State.rcnRow_pad _ _ hpad hout htoEbe htoOrg hdef)
  rw [conditionLine_unfed (by rwa [hitem, State.passPad_ebeQueue]) (by rwa [hitem, State.passPad_orgIn]) (by rwa [hitem, State.passPad_orgOpen]), hitem]

/-- Settles O28: the stages by their arithmetic, the commands by the case that each clause names. -/
theorem rawConditioning : Obligations.RawConditioning := by
  unfold Obligations.RawConditioning
  refine ⟨⟨?undarkened, ?darkened, ?off, ?padRow, ?fix, ?sat, ?merge, ?flat⟩,
    fun s n => ⟨?idle, ?padLine, ?waits, ?handOn, ?issued, ?served, ?failed, ?noFrame, ?late, ?marked⟩⟩
  case undarkened =>
    intro n f r q h
    have hcast : (do let x ← f.samples r q; pure (x : Int)) = (f.samples r q).map Nat.cast := List.map_eq_flatMap.symm
    rw [RcnFrame.stage1_without_dark h, hcast, List.map_map]
    rfl
  case darkened => exact fun n f r b h hsingle => f.stage1_with_dark h hsingle n
  case off => exact fun n f r hpad hsingle hdef hcol hrow hflat => RcnFrame.condRow_off hpad hsingle hdef hcol hrow hflat
  case padRow => exact fun n f r h => RcnFrame.condRow_pad h n
  case fix => exact fun a sum => ⟨fixValue_none a sum, fixValue_one a sum, fixValue_two a sum, fixValue_four a sum⟩
  case sat => exact fun x => ⟨le_satL25 x, satL25_le x, satL25_of_mem⟩
  case merge => exact fun w t0 ratio k e0 e1 h => mergeL25_below_knee h w ratio k e0
  case flat => exact fun sl fx fy g hsl hx hy => flatGain_equal hsl hx hy g
  case idle =>
    intro hraw hebe horg hopen
    have hitem : s.conditionItem n = s := State.conditionItem_empty hraw
    exact .of_answer rfl rfl ((conditionLine_unfed (by rwa [hitem]) (by rwa [hitem]) (by rwa [hitem])).trans hitem)
  case padLine =>
    intro row rest f hraw _ hframe hready hdram hpad hdef hout htoEbe htoOrg hebe horg hopen
    have hline : conditionLine n s = s.passPad n rest f row := conditionLine_pad hraw hframe hready hdram hpad hdef hout htoEbe htoOrg hebe horg hopen
    refine .of_answer (congrArg (answer (.conditionLine n)) hline) rfl ?_
    rw [State.settle_rawIn, State.passPad_rawIn, State.rcnOf_settle, State.passPad_frame, State.settle_dram, State.passPad_dram]
    exact ⟨rfl, ⟨_, rfl, rfl, rfl, rfl⟩, (SameRegsBut.passPad s n rest f row).settle, rfl⟩
  case waits => exact fun i rest h hwait => State.conditionItem_waits h hwait
  case handOn => exact fun toEbe toOrg i => ⟨s.fromRaw_ebeQueue n toEbe toOrg i, s.fromRaw_orgIn n toEbe toOrg i, s.fromRaw_regs n toEbe toOrg i⟩
  case issued => exact fun f k a len h => s.readTable_issued n h (a, len)
  case served => exact fun f k a len h hspan hsound => State.readTable_served n h hspan hsound
  case failed =>
    intro f k a len cause h hcause
    rw [State.readTable_failed n h hcause]
    exact ⟨RcnFrame.table_readFailed h, s.tableErr_rd n.isLt cause, s.mem_tableErr n.isLt cause⟩
  case noFrame =>
    intro tab row unit hrow hunit hframe
    exact .of_answer rfl (wellFormed_tableReadError n tab hrow hunit) (tableReadError_idle hframe tab row unit)
  case late =>
    intro tab row unit f hrow hunit hframe hissued
    exact .of_answer rfl (wellFormed_tableReadError n tab hrow hunit) (tableReadError_issued hframe hissued unit)
  case marked =>
    intro tab row unit f hrow hunit hframe hissued hfailed
    refine .of_answer rfl (wellFormed_tableReadError n tab hrow hunit) ?_
    rw [tableReadError_first hframe hissued hfailed, State.rcnOf_settle, State.rcnOf_setRcn, if_pos rfl, State.settle_regs, State.settle_dram]
    exact ⟨rfl, rfl, rfl⟩

end Sys2Proof.Machine

/-! The decoder's jobs (R136, R137) and the end of an Orangery frame (R138, R155, R156). -/

namespace Sys2Proof.Machine

/-! ### Orangery contexts with nothing to take -/

theorem State.orgFeed_unfed {s : State} {c : Nat} (hqueue : s.orgQueue c = []) (hopen : s.orgOpen c = false) : s.orgFeed c = s := by
  have hpump : s.orgPump c (s.orgQueue c).length = s := by
    rw [hqueue]
    rfl
  unfold State.orgFeed
  rw [hopen]
  cases (s.orgOf c).frame with
  | none => exact hpump
  | some f => exact hpump

/-! ### PLAY_START (R136) -/

theorem playStart_playing {s : State} (h : s.ebd.isSome = true) : playStart s = s := if_pos (by rw [h]; rfl)

/-- A job of the present registers without pace, at its first frame. -/
def State.startUnpaced (s : State) : State :=
  ({ s with ebd := some { cfg := s.regs.page 0x15, n := 0, base := 0 } } : State).setReg Adr.EBD.FRAMES_DONE 0

theorem playStart_unpaced {s : State} (hidle : s.ebd = none) (henabled : s.enabled 0x15 = true) (hflow : s.hasFlow 0x150 = true)
    (hpace : Fld.EBD.PACE_NUM (s.regs.page 0x15) = 0) : playStart s = s.startUnpaced := by
  unfold playStart
  rw [if_neg (by simp [hidle, henabled, hflow])]
  simp only [if_pos hpace]
  rfl

theorem SameRegsBut.startUnpaced (s : State) : SameRegsBut [Adr.EBD.FRAMES_DONE] s s.startUnpaced := .putN (n := 0) (State.setReg_regs _ _ _)

/-! ### A frame whose header is not good (R137) -/

/-- The report of the error response that reading a header met. -/
def State.headerResponse (s : State) (e : Option Nat) : State :=
  match e with
  | some c => s.upstream 0x150 c
  | none => s

theorem State.headerResponse_rd (s : State) (e : Option Nat) {a : Nat} (h : a < 0x44108) : (s.headerResponse e).rd a = s.rd a := by
  cases e with
  | none => rfl
  | some c => exact s.rd_upstream_below _ _ h

theorem State.headerResponse_dram (s : State) (e : Option Nat) : (s.headerResponse e).dram = s.dram := by
  cases e with
  | none => rfl
  | some c => exact s.upstream_dram _ _

/-- HDR_ERR counts a header, and the decoder reports BAD_HEADER. -/
def State.refuseHeader (s : State) : State := (s.bump Adr.EBD.HDR_ERR).fault 0x150 0x20

/-- A frame whose header is not good: refused, then passed on as blank rows under a free record. -/
def State.passBlank (s : State) (cfg : RegFile) (e : Option Nat) : State :=
  let refused := (s.headerResponse e).refuseHeader
  (refused.freeRecord.2.bump Adr.EBD.FRAMES_DONE).toB refused.freeRecord.1 (Fld.EBD.OUT_GEO_OUT_W cfg) (Fld.EBD.OUT_GEO_OUT_H cfg) none
    (blankRows (Fld.EBD.OUT_GEO_OUT_W cfg) (Fld.EBD.OUT_GEO_OUT_H cfg))

theorem State.decodeOne_badHeader {s : State} {j : EbdJob} {reads : BadBeats}
    (h : headerGood (s.frameRead j.cfg (frameUnit j.cfg j.n) reads 0 4096).1 = false) :
    s.decodeOne j reads = s.passBlank j.cfg (s.frameRead j.cfg (frameUnit j.cfg j.n) reads 0 4096).2 := by
  unfold State.decodeOne
  simp only [h, Bool.not_false, if_true]
  rfl

section passBlank
variable (s : State) (cfg : RegFile) (e : Option Nat)

theorem State.passBlank_regs : (s.passBlank cfg e).regs = (((s.headerResponse e).bump Adr.EBD.HDR_ERR).bump Adr.EBD.FRAMES_DONE).regs := rfl

theorem State.passBlank_hdrErr : (s.passBlank cfg e).rd Adr.EBD.HDR_ERR = satInc 32 (s.rd Adr.EBD.HDR_ERR) := by
  rw [State.rd, State.passBlank_regs, ← State.rd, State.rd_bump_other _ _ _ (by decide), State.rd_bump_same, s.headerResponse_rd e (by decide)]

theorem State.passBlank_framesDone : (s.passBlank cfg e).rd Adr.EBD.FRAMES_DONE = satInc 32 (s.rd Adr.EBD.FRAMES_DONE) := by
  rw [State.rd, State.passBlank_regs, ← State.rd, State.rd_bump_same, State.rd_bump_other _ _ _ (by decide), s.headerResponse_rd e (by decide)]

theorem State.mem_passBlank : { page := 0x15, cause := 0x150, code := 0x20, event := true, unit := 0x150 } ∈ (s.passBlank cfg e).held :=
  (State.mem_fault ((s.headerResponse e).bump Adr.EBD.HDR_ERR) 0x150 0x20 _).mpr (.inl rfl)

theorem State.passBlank_dram : (s.passBlank cfg e).dram = s.dram := s.headerResponse_dram e

end passBlank

/-! ### DECODE_FRAME (R136) -/

theorem State.decodeNext_ended {s : State} {j : EbdJob} (h : s.ebd = some j) (hcount : Fld.EBD.COUNT j.cfg ≤ j.n) (reads : BadBeats) :
    s.decodeNext reads = { s with ebd := none } := by
  unfold State.decodeNext
  rw [h]
  exact if_pos hcount

/-- A job goes on with its next frame, or ends with its last. -/
def State.advanceJob (s : State) (j : EbdJob) : State :=
  { s with ebd := if j.n + 1 < Fld.EBD.COUNT j.cfg then some { j with n := j.n + 1 } else none }

section advanceJob
variable (s : State) (j : EbdJob)

theorem State.advanceJob_rd (a : RegAddr) : (s.advanceJob j).rd a = s.rd a := rfl

theorem State.advanceJob_held : (s.advanceJob j).held = s.held := rfl

theorem State.advanceJob_dram : (s.advanceJob j).dram = s.dram := rfl

end advanceJob

theorem State.decodeNext_frame {s : State} {j : EbdJob} (h : s.ebd = some j) (hcount : j.n < Fld.EBD.COUNT j.cfg) (hhold : s.holding 0x15 = false)
    (hpace : s.paceReached j = true) (reads : BadBeats) : s.decodeNext reads = (s.decodeOne j reads).advanceJob j := by
  unfold State.decodeNext
  rw [h]
  dsimp only
  rw [if_neg (Nat.not_le.mpr hcount), if_neg (by simp [hhold, hpace])]
  rfl

theorem decodeFrame_next {s : State} (h : s.orgInB = []) (reads : BadBeats) : decodeFrame reads s = (s.decodeNext reads).orgFeed 1 :=
  if_pos (by rw [h]; rfl)

/-! ### Writing one value under several keys -/

theorem SMap.get_foldl_set_same {α : Type} [DecidableEq α] (d : Nat → α) (v : α) {l : List Nat} {k : Nat} (h : k ∈ l) (m : List (Nat × α)) :
    SMap.get d (l.foldl (fun m k => SMap.set d m k v) m) k = v := by
  have hkept (l : List Nat) (m : List (Nat × α)) (hv : SMap.get d m k = v) : SMap.get d (l.foldl (fun m k => SMap.set d m k v) m) k = v := by
    induction l generalizing m with
    | nil => exact hv
    | cons i r ih =>
      refine ih _ ?_
      rw [SMap.get_set, hv, ite_self]
  induction l generalizing m with
  | nil => exact absurd h List.not_mem_nil
  | cons i r ih =>
    rcases List.mem_cons.mp h with rfl | hr
    · exact hkept r _ (SMap.get_set_same _ _ _ _)
    · exact ih hr _

/-! ### ORG_FRAME_END (R138, R155, R156) -/

theorem orgFrameEnd_idle {s : State} {c : Nat} (h : (s.orgOf c).frame = none) : orgFrameEnd c s = s := by
  unfold orgFrameEnd
  dsimp only
  rw [h]

theorem orgFrameEnd_notDue {s : State} {c : Nat} {f : OrgFrame} (h : (s.orgOf c).frame = some f) (hdue : f.complete = false ∨ f.ended = true) :
    orgFrameEnd c s = s := by
  unfold orgFrameEnd
  dsimp only
  rw [h]
  exact if_pos (by rcases hdue with hdue | hdue <;> simp [hdue])

/-- A context's frame is processed and counted, and LAST_FC shows its number. -/
def State.countFrame (s : State) (c : Nat) (f : OrgFrame) : State :=
  ((s.setOrg c { s.orgOf c with frame := some { f with ended := true } }).bump (Adr.ORG.FRAMES c)).setReg (Adr.ORG.LAST_FC c) f.record.count

/-- The regions whose statistics a frame writes: enabled, and of some width and height. -/
def OrgFrame.regions (f : OrgFrame) : List Nat :=
  (List.range 4).filter (fun k => Fld.ORG.REG_CTL_EN f.cfg k == 1 && Fld.ORG.REG_SIZE_W f.cfg k != 0 && Fld.ORG.REG_SIZE_H f.cfg k != 0)

theorem OrgFrame.mem_regions {f : OrgFrame} {k : Nat} (hk : k < 4) (hen : Fld.ORG.REG_CTL_EN f.cfg k = 1) (hw : Fld.ORG.REG_SIZE_W f.cfg k ≠ 0)
    (hh : Fld.ORG.REG_SIZE_H f.cfg k ≠ 0) : k ∈ f.regions :=
  List.mem_filter.mpr ⟨List.mem_range.mpr hk, by simp [hen, hw, hh]⟩

/-- The statistics of a frame's regions become visible, each with the frame's number. -/
def State.showStats (s : State) (f : OrgFrame) : State :=
  { s with orgStats := f.regions.foldl (fun m k => (List.range 3).foldl (fun m ch => SMap.set (fun _ => colourEmpty) m (4 * k + ch) (f.colourStat k ch)) m)
                         s.orgStats
           orgStatCount := f.regions.foldl (fun m k => SMap.set (fun _ => 0) m k f.record.count) s.orgStatCount }

theorem State.showStats_count (s : State) {f : OrgFrame} {k : Nat} (h : k ∈ f.regions) :
    SMap.get (fun _ => 0) (s.showStats f).orgStatCount k = f.record.count := SMap.get_foldl_set_same _ _ h _

/-- What a frame's end writes beside its counters. -/
def State.writeFrameStats (s : State) (c : Nat) (f : OrgFrame) : State :=
  let shown := if Fld.ORG.STAT_CFG_CTX f.cfg == c && Fld.ORG.STAT_CFG_EN f.cfg == 1 then s.showStats f else s
  if Fld.ORG.STAT_CFG_CTX f.cfg == c && Fld.ORG.STAT_CFG_HIST_EN f.cfg == 1 then shown.writeHistogram f else shown

theorem orgFrameEnd_due {s : State} {c : Nat} {f : OrgFrame} (h : (s.orgOf c).frame = some f) (hcomplete : f.complete = true) (hended : f.ended = false) :
    orgFrameEnd c s = (s.countFrame c f).writeFrameStats c f := by
  unfold orgFrameEnd
  dsimp only
  rw [h]
  dsimp only
  rw [if_neg (by simp [hcomplete, hended])]
  rfl

/-- A histogram record goes to DRAM; beside that, the memory controller may report an address. -/
theorem State.writeHistogram_keeps {α : Type} (p : State → α) (hstore : ∀ (t : State) (a : Nat) (bs : List Byte), p (t.store a bs) = p t)
    (hfault : ∀ (t : State) (u k : Nat), p (t.fault u k) = p t) (s : State) (f : OrgFrame) : p (s.writeHistogram f) = p s := by
  have hseen (t : State) (a : Nat) (bs : List Byte) : p (t.storeSeen a bs) = p t := by
    unfold State.storeSeen State.outOfRange
    rw [hstore]
    split
    · exact hfault t _ _
    · rfl
  unfold State.writeHistogram
  dsimp only
  rw [hseen, hseen, hseen]

section writeFrameStats
variable (s : State) (c : Nat) (f : OrgFrame)

theorem State.writeFrameStats_keeps {α : Type} (p : State → α) (hshow : ∀ t : State, p (t.showStats f) = p t)
    (hstore : ∀ (t : State) (a : Nat) (bs : List Byte), p (t.store a bs) = p t) (hfault : ∀ (t : State) (u k : Nat), p (t.fault u k) = p t) :
    p (s.writeFrameStats c f) = p s := by
  have hshown : p (if Fld.ORG.STAT_CFG_CTX f.cfg == c && Fld.ORG.STAT_CFG_EN f.cfg == 1 then s.showStats f else s) = p s := by
    split
    · exact hshow s
    · rfl
  unfold State.writeFrameStats
  dsimp only
  split
  · exact (State.writeHistogram_keeps p hstore hfault _ f).trans hshown
  · exact hshown

theorem State.writeFrameStats_regs : (s.writeFrameStats c f).regs = s.regs :=
  s.writeFrameStats_keeps c f State.regs (fun _ => rfl) (fun _ _ _ => rfl) (fun _ _ _ => rfl)

theorem State.writeFrameStats_orgOf (i : Nat) : (s.writeFrameStats c f).orgOf i = s.orgOf i :=
  s.writeFrameStats_keeps c f (fun t => t.orgOf i) (fun _ => rfl) (fun _ _ _ => rfl) (fun _ _ _ => rfl)

variable {s c f}

/-- A frame of the context that STAT_CFG does not name writes nothing. -/
theorem State.writeFrameStats_other (h : Fld.ORG.STAT_CFG_CTX f.cfg ≠ c) : s.writeFrameStats c f = s := by
  unfold State.writeFrameStats
  simp only [beq_eq_false_iff_ne.mpr h, Bool.false_and]
  rfl

theorem State.writeFrameStats_count {k : Nat} (hctx : Fld.ORG.STAT_CFG_CTX f.cfg = c) (hen : Fld.ORG.STAT_CFG_EN f.cfg = 1) (hk : k ∈ f.regions) :
    SMap.get (fun _ => 0) (s.writeFrameStats c f).orgStatCount k = f.record.count := by
  have hhist : (s.writeFrameStats c f).orgStatCount = (s.showStats f).orgStatCount := by
    unfold State.writeFrameStats
    simp only [hctx, hen, beq_self_eq_true, Bool.and_self, if_true]
    split
    · exact State.writeHistogram_keeps State.orgStatCount (fun _ _ _ => rfl) (fun _ _ _ => rfl) _ f
    · rfl
  rw [hhist, s.showStats_count hk]

theorem State.writeFrameStats_noHistogram (h : Fld.ORG.STAT_CFG_HIST_EN f.cfg = 0) : (s.writeFrameStats c f).dram = s.dram := by
  unfold State.writeFrameStats
  dsimp only
  rw [if_neg (by simp [h])]
  split <;> rfl

end writeFrameStats

section countFrame
variable (s : State) (c : Nat) (f : OrgFrame)

theorem State.countFrame_frames : (s.countFrame c f).rd (Adr.ORG.FRAMES c) = satInc 32 (s.rd (Adr.ORG.FRAMES c)) := by
  unfold State.countFrame
  rw [State.rd_setReg, if_neg (by unfold Adr.ORG.FRAMES Adr.ORG.LAST_FC; omega), State.rd_bump_same]
  rfl

theorem State.countFrame_lastFc (h : f.record.count < 2 ^ 32) : (s.countFrame c f).rd (Adr.ORG.LAST_FC c) = f.record.count := by
  unfold State.countFrame
  rw [State.rd_setReg_same, Nat.mod_eq_of_lt h]

theorem State.countFrame_frame : ((s.countFrame c f).orgOf c).frame = some { f with ended := true } := by
  have horg : (s.countFrame c f).orgOf c = { s.orgOf c with frame := some { f with ended := true } } := SMap.get_set_same _ _ _ _
  rw [horg]

theorem SameRegsBut.countFrame : SameRegsBut [Adr.ORG.FRAMES c, Adr.ORG.LAST_FC c] s (s.countFrame c f) :=
  (SameRegsBut.bump (s.setOrg c { s.orgOf c with frame := some { f with ended := true } }) _).trans (.setReg _ _ _)

end countFrame

/-! ### The obligation -/

/-- A header that is not good: what DECODE_FRAME answers, and what it hands to the Orangery. -/
theorem decodeFrame_badHeader {s : State} {j : EbdJob} {reads : BadBeats} (hbeats : Instr.wellFormed (.decodeFrame reads) = true) (hrun : s.stopped = [])
    (hjob : s.ebd = some j) (hcount : j.n < Fld.EBD.COUNT j.cfg) (hhold : s.holding 0x15 = false) (hpace : s.paceReached j = true)
    (hbad : headerGood (s.frameRead j.cfg (frameUnit j.cfg j.n) reads 0 4096).1 = false) (hqueue : s.orgInB = []) :
    Does (.decodeFrame reads) s (((s.passBlank j.cfg (s.frameRead j.cfg (frameUnit j.cfg j.n) reads 0 4096).2).advanceJob j).orgFeed 1) := by
  have hframe := (State.decodeNext_frame hjob hcount hhold hpace reads).trans (congrArg (·.advanceJob j) (State.decodeOne_badHeader hbad))
  rw [← hframe, ← decodeFrame_next hqueue reads]
  exact .through hbeats (State.stopsAtEdge_of_running hrun _)

/-- A command that does something completes in that state, settled. -/
theorem Completes.of_does {c : Instr} {s u : State} {p : State → Prop} (h : Does c s u) (e : p u.settle) : Completes c s p := ⟨u.settle, h, e⟩

theorem Does.orgFrameEnd {s : State} (hrun : s.stopped = []) (c : Fin 2) : Does (.orgFrameEnd c) s (orgFrameEnd c s) :=
  .through rfl (State.stopsAtEdge_of_running hrun _)

/-- Settles O31: the jobs by what each command does to the job, the frame's end by its counters and then what it writes. -/
theorem decoderAndOrangeryFrames : Obligations.DecoderAndOrangeryFrames := by
  unfold Obligations.DecoderAndOrangeryFrames
  refine ⟨fun s hrun => ⟨?playing, ?starts, .plain rfl, ?jobEnds, ?badHeader⟩, fun s c hrun => ⟨?noFrame, ?notDue, ?due⟩⟩
  case playing => exact fun h => .of_answer rfl rfl (playStart_playing h)
  case starts =>
    intro hidle henabled hflow hpace
    refine .of_answer rfl rfl ?_
    rw [playStart_unpaced hidle henabled hflow hpace, State.settle_ebd, State.settle_rd, State.settle_dram]
    exact ⟨rfl, State.rd_setReg_same _ _ _, (SameRegsBut.startUnpaced s).settle, rfl⟩
  case jobEnds =>
    intro j hjob hqueue hopen hcount
    have hframe : decodeFrame [] s = { s with ebd := none } := by
      rw [decodeFrame_next hqueue, State.decodeNext_ended hjob hcount]
      exact State.orgFeed_unfed hqueue hopen
    rw [← hframe]
    exact .through rfl (State.stopsAtEdge_of_running hrun _)
  case badHeader =>
    intro j reads hbeats hjob hcount hhold hpace hbad hqueue
    refine ⟨_, decodeFrame_badHeader hbeats hrun hjob hcount hhold hpace hbad hqueue, ?_⟩
    rw [State.advanceJob_rd, State.advanceJob_rd, State.advanceJob_held, State.advanceJob_dram]
    exact ⟨s.passBlank_hdrErr _ _, s.passBlank_framesDone _ _, s.mem_passBlank _ _, rfl, s.passBlank_dram _ _⟩
  case noFrame =>
    intro h
    have hdoes := Does.orgFrameEnd hrun c
    rwa [orgFrameEnd_idle h] at hdoes
  case notDue =>
    intro f h hdue
    have hdoes := Does.orgFrameEnd hrun c
    rwa [orgFrameEnd_notDue h hdue] at hdoes
  case due =>
    intro f h hcomplete hended hfc
    refine .of_does (.orgFrameEnd hrun c) ?_
    rw [orgFrameEnd_due h hcomplete hended, State.settle_rd, State.settle_rd, State.orgOf_settle, State.settle_orgStats, State.settle_orgStatCount,
      State.settle_dram, State.writeFrameStats_orgOf]
    have hregs : ((s.countFrame c f).writeFrameStats c f).regs = (s.countFrame c f).regs := State.writeFrameStats_regs _ _ _
    refine ⟨?_, ?_, s.countFrame_frame c f, ((SameRegsBut.countFrame s c f).to_regs hregs).settle, fun hctx => ?_, ?_, ?_⟩
    · rw [State.rd, hregs]
      exact s.countFrame_frames c f
    · rw [State.rd, hregs]
      exact s.countFrame_lastFc c f hfc
    · rw [State.writeFrameStats_other hctx]
      exact ⟨rfl, rfl⟩
    · exact fun k hk hctx hen hregion hw hh => State.writeFrameStats_count hctx hen (OrgFrame.mem_regions hk hregion hw hh)
    · exact fun hhist => State.writeFrameStats_noHistogram hhist

end Sys2Proof.Machine

/-! The colour table memory: selection, the data port and LOAD (R152, R153, R154). -/

namespace Sys2Proof.Machine

/-! ### TBL_SEL (R152, R153) -/

theorem tblSelWrite_idle {s : State} (h : s.load = none) (v : Nat) :
    tblSelWrite v s = (s.setReg Adr.ORL.TBL_SEL (v % 2 ^ 8 + bits v 8 1 * 2 ^ 8)).setReg Adr.ORL.TBL_ADDR 0 := by
  unfold tblSelWrite
  rw [h]
  rfl

/-- The fields of TBL_SEL's word: the ID in its low byte and COPY above it. -/
theorem tblSel_fields (id : Nat) {copy : Nat} (hcopy : copy < 2) :
    bits ((id % 2 ^ 8 + copy * 2 ^ 8) % 2 ^ 32) 0 8 = id % 256 ∧ bits ((id % 2 ^ 8 + copy * 2 ^ 8) % 2 ^ 32) 8 1 = copy := by
  unfold bits
  omega

section tblSelWrite
variable {s : State} (h : s.load = none) (v : Nat)
include h

/-- A field of TBL_SEL after its write: that of the word written. -/
theorem tblSelWrite_sel (l w : Nat) :
    (tblSelWrite v s).regs.fld Adr.ORL.TBL_SEL l w = bits ((v % 2 ^ 8 + bits v 8 1 * 2 ^ 8) % 2 ^ 32) l w := by
  rw [tblSelWrite_idle h, State.setReg_regs, RegFile.fld_putN_other _ _ _ _ _ _ (by decide), State.fld_setReg_same]

theorem tblSelWrite_id : Fld.ORL.TBL_SEL_ID (tblSelWrite v s).regs = v % 256 :=
  (tblSelWrite_sel h v 0 8).trans (tblSel_fields v (bits_lt v 8 1)).1

theorem tblSelWrite_copy : Fld.ORL.TBL_SEL_COPY (tblSelWrite v s).regs = bits v 8 1 :=
  (tblSelWrite_sel h v 8 1).trans (tblSel_fields v (bits_lt v 8 1)).2

end tblSelWrite

theorem tblSelWrite_addr (v : Nat) (s : State) : Fld.ORL.TBL_ADDR (tblSelWrite v s).regs = 0 := State.fld_setReg_same _ _ 0 0 19

theorem SameRegsBut.tblSelWrite (v : Nat) (s : State) : SameRegsBut [Adr.ORL.TBL_SEL, Adr.ORL.TBL_ADDR] s (tblSelWrite v s) :=
  (SameRegsBut.setReg s Adr.ORL.TBL_SEL _).trans (.setReg _ Adr.ORL.TBL_ADDR 0)

/-! ### Words of a table copy (R152) -/

/-- A word below the image's end is stored whole, but for the last one of a LUT3. -/
theorem State.setTableWord_whole (s : State) {id i : Nat} (copy : Nat) (w : Word) (himage : i < imageWords id) (hlast : i ≠ 411937) :
    s.setTableWord id copy i w = { s with tables := SMap.set (fun _ => 0) s.tables ((2 * id + copy) * 2 ^ 19 + i) w } := by
  unfold State.setTableWord
  rw [if_pos himage, if_neg hlast]

section setTableWord
variable (s : State) {id i : Nat} (copy : Nat) (w : Word) (himage : i < imageWords id) (hlast : i ≠ 411937)
include himage hlast

theorem State.tableWord_setTableWord_same : (s.setTableWord id copy i w).tableWord id copy i = w := by
  rw [s.setTableWord_whole copy w himage hlast]
  exact SMap.get_set_same _ _ _ _

theorem State.tableWord_setTableWord_other {j : Nat} (hj : j ≠ i) : (s.setTableWord id copy i w).tableWord id copy j = s.tableWord id copy j := by
  rw [s.setTableWord_whole copy w himage hlast]
  exact SMap.get_set_other _ _ _ _ _ fun hkey => hj (Nat.add_left_cancel hkey)

end setTableWord

theorem State.setTableWord_regs (s : State) (id copy i : Nat) (w : Word) : (s.setTableWord id copy i w).regs = s.regs := by
  unfold State.setTableWord
  split <;> rfl

theorem State.tableWord_settle (s : State) (id copy i : Nat) : s.settle.tableWord id copy i = s.tableWord id copy i := by
  unfold State.tableWord
  rw [State.settle_tables]

/-! ### TBL_DATA (R153) -/

theorem tblDataAccess_refused {s : State} (h : s.copyInUse (Fld.ORL.TBL_SEL_ID s.regs) (Fld.ORL.TBL_SEL_COPY s.regs) = true) (w : Word) :
    tblDataAccess (.write w) s = (s.bump Adr.ORL.REFUSED).setReg Adr.ORL.TBL_ADDR ((Fld.ORL.TBL_ADDR s.regs + 1) % 2 ^ 19) := by
  unfold tblDataAccess
  simp only [h, Bool.true_or, if_true]

theorem tblDataAccess_stored {s : State} (huse : s.copyInUse (Fld.ORL.TBL_SEL_ID s.regs) (Fld.ORL.TBL_SEL_COPY s.regs) = false)
    (hloading : s.copyLoading (Fld.ORL.TBL_SEL_ID s.regs) (Fld.ORL.TBL_SEL_COPY s.regs) = false) (w : Word) :
    tblDataAccess (.write w) s = (s.setTableWord (Fld.ORL.TBL_SEL_ID s.regs) (Fld.ORL.TBL_SEL_COPY s.regs) (Fld.ORL.TBL_ADDR s.regs) w).setReg
      Adr.ORL.TBL_ADDR ((Fld.ORL.TBL_ADDR s.regs + 1) % 2 ^ 19) := by
  unfold tblDataAccess
  simp only [huse, hloading, Bool.or_self, Bool.false_eq_true, if_false]

/-- Every access moves TBL_ADDR on, whether it reads, stores or is refused. -/
theorem tblDataAccess_addr (a : Access) (s : State) : Fld.ORL.TBL_ADDR (tblDataAccess a s).regs = (Fld.ORL.TBL_ADDR s.regs + 1) % 2 ^ 19 := by
  have hfld : Fld.ORL.TBL_ADDR (tblDataAccess a s).regs = bits ((Fld.ORL.TBL_ADDR s.regs + 1) % 2 ^ 19 % 2 ^ 32) 0 19 := State.fld_setReg_same _ _ _ _ _
  rw [hfld]
  unfold bits
  omega

/-! ### LOAD_CMD (R154) -/

/-- An ID without a table has no copy in use. -/
theorem State.copyInUse_noTable (s : State) {id : Nat} (h : imageWords id = 0) (copy : Nat) : s.copyInUse id copy = false := by
  unfold State.copyInUse
  simp [h]

theorem loadCmd_running {s : State} (h : s.load.isSome = true) : loadCmd s = s.bump Adr.ORL.REFUSED := if_pos (by rw [h]; rfl)

theorem loadCmd_accepted {s : State} (hidle : s.load = none)
    (huse : s.copyInUse (Fld.ORL.TBL_SEL_ID s.regs) (Fld.ORL.TBL_SEL_COPY s.regs) = false) :
    loadCmd s = if imageWords (Fld.ORL.TBL_SEL_ID s.regs) = 0 then s else
      ({ s with load := some { id := Fld.ORL.TBL_SEL_ID s.regs, copy := Fld.ORL.TBL_SEL_COPY s.regs, unit := Fld.ORL.LOAD_UNIT s.regs } } : State).setReg
        Adr.ORL.LOAD_STAT 1 := if_neg (by simp [hidle, huse])

/-! ### LOAD_DONE (R154) -/

theorem loadDone_idle {s : State} (h : s.load = none) (words : Nat) (read : BusResult) : loadDone words read s = s := by
  unfold loadDone
  rw [h]

theorem loadDone_complete {s : State} {l : TableLoad} (h : s.load = some l) (hspan : s.spanError (l.unit * 4096) (4 * imageWords l.id) = none)
    (words : Nat) : loadDone words none s = (s.copyImage l (imageWords l.id)).endLoad 1 := by
  unfold loadDone
  rw [h]
  simp only [hspan, Option.none_or]

theorem loadDone_readError {s : State} {l : TableLoad} (h : s.load = some l) (words cause : Nat) :
    loadDone words (some cause) s = ((s.copyImage l (min words (imageWords l.id - 1))).endLoad 2).upstream 0x192 cause := by
  unfold loadDone
  rw [h]
  rfl

theorem busOk_of_lt {read : BusResult} (h : ∀ u, read = some u → u < 4096) : busOk read = true := by
  cases read with
  | none => rfl
  | some u => exact decide_eq_true (h u rfl)

/-! ### The obligation -/

/-- Settles O32: each command by the equation of its case, and a stored word by what it leaves of its copy. -/
theorem tableMemoryAccess : Obligations.TableMemoryAccess := by
  unfold Obligations.TableMemoryAccess
  intro s v hrun
  refine ⟨?select, ?refused, ?stored, ?running, ?noTable, ?begins, ?noLoad, ?done, ?readError⟩
  case select =>
    intro hidle
    refine .of_answer rfl rfl ?_
    rw [State.settle_regs, State.settle_tables]
    exact ⟨tblSelWrite_id hidle _, tblSelWrite_copy hidle _, tblSelWrite_addr _ s, (SameRegsBut.tblSelWrite _ s).settle, rfl⟩
  case refused =>
    intro huse
    refine .of_answer rfl rfl ?_
    rw [State.settle_tables, State.settle_rd, State.settle_regs]
    refine ⟨?_, ?_, tblDataAccess_addr _ s⟩
    · rw [tblDataAccess_refused huse]
      rfl
    · rw [tblDataAccess_refused huse, State.rd_setReg, if_neg (by decide), State.rd_bump_same]
  case stored =>
    rintro _ _ _ rfl rfl rfl huse hloading himage hlast
    have hstored := tblDataAccess_stored huse hloading v
    refine .of_answer rfl rfl ⟨?_, fun j hj => ?_, ?_, .settle ?_⟩
    · rw [State.tableWord_settle, hstored]
      exact s.tableWord_setTableWord_same _ v himage hlast
    · rw [State.tableWord_settle, hstored]
      exact s.tableWord_setTableWord_other _ v himage hlast hj
    · rw [State.settle_regs, tblDataAccess_addr]
    · rw [hstored]
      exact (SameRegsBut.refl [] (s.setTableWord_regs _ _ _ v)).trans (.setReg _ _ _)
  case running => exact fun h => .of_answer rfl rfl (loadCmd_running h)
  case noTable =>
    exact fun hidle hnone => .of_answer rfl rfl ((loadCmd_accepted hidle (s.copyInUse_noTable hnone _)).trans (if_pos hnone))
  case begins =>
    intro hidle huse himage
    refine .of_answer rfl rfl ?_
    rw [loadCmd_accepted hidle huse, if_neg himage, State.settle_load, State.settle_rd, State.settle_tables]
    exact ⟨rfl, State.rd_setReg_same _ _ _, rfl⟩
  case noLoad => exact fun words read hidle hread => .running hrun (busOk_of_lt hread) (loadDone_idle hidle words read)
  case done => exact fun words l hload hspan => .running hrun rfl (loadDone_complete hload hspan words)
  case readError =>
    exact fun words l cause hcause hload => .running hrun (busOk_of_lt fun u hu => Option.some.inj hu ▸ hcause) (loadDone_readError hload words cause)

end Sys2Proof.Machine

/-! Views and the Parterre: paced frames, frame starts, completion and the Parterre's series (R157, R158, R171, R173, R378). -/

namespace Sys2Proof.Machine

/-! ### VIEW_PACE_SLOT (R157) -/

/-- The short time of a paced view's next slot. -/
def State.viewSlotTime (s : State) (v : Nat) : Nat :=
  slotTime (Fld.VW.PACE_START_LO s.regs v + 2 ^ 32 * Fld.VW.PACE_START_HI s.regs v) (Fld.VW.PACE_NUM s.regs v) (Fld.VW.PACE_DEN s.regs v) (s.view v).slot

/-- A paced view goes on to its next slot. -/
def State.nextViewSlot (s : State) (v : Nat) : State := s.setView v { s.view v with slot := (s.view v).slot + 1 }

/-- A frame of a paced view, whole in the buffer that it takes. -/
def pacedStart (src : Nat) (b : BufFrame) : ViewStart :=
  { serial := none, source := src, record := { frameRecReset with count := b.count, tags := b.tags, sof := b.sof }, rows := [], whole := true,
    buffer := some b }

/-- A paced view takes a buffer of its source: it holds it, and its frame starts. -/
def State.startPaced (s : State) (v : Nat) (b : BufFrame) : State :=
  ((s.setView v { s.view v with starts := (s.view v).starts ++ [pacedStart (s.viewSrc v) b] }).holdBuf (s.viewSrc v) (viewUnit v) b.index).frameStart 2 v

theorem viewPaceSlot_stopped {s : State} {v : Nat} (h : (s.view v).running = false) : viewPaceSlot v s = s := if_pos (by simp [h])

theorem viewPaceSlot_taken {s : State} {v : Nat} {b : BufFrame} (hrunning : (s.view v).running = true) (hpaced : (s.view v).paced = true)
    (hnewest : s.newestOf (s.viewSrc v) = some b) (hslot : s.reached (s.viewSlotTime v) = true) :
    viewPaceSlot v s = (s.nextViewSlot v).startPaced v b := by
  unfold State.viewSlotTime at hslot
  have hnext : (s.nextViewSlot v).newestOf ((s.nextViewSlot v).viewSrc v) = some b := hnewest
  unfold viewPaceSlot
  dsimp only
  rw [if_neg (by rw [hrunning, hpaced, hslot]; decide), ← State.nextViewSlot, hnext]
  rfl

section startPaced
variable (s : State) (v : Nat) (b : BufFrame)

theorem State.startPaced_view :
    (s.startPaced v b).view v = { s.view v with starts := (s.view v).starts ++ [pacedStart (s.viewSrc v) b] } := SMap.get_set_same _ _ _ _

theorem State.startPaced_isHeld : (s.startPaced v b).isHeld (s.viewSrc v) b.index = true :=
  List.any_eq_true.mpr ⟨{ source := s.viewSrc v, reader := viewUnit v, index := b.index }, List.mem_append_right _ List.mem_cons_self, by simp⟩

theorem State.mem_startPaced_due {k : Nat} (h : k ∈ s.armedOn 2 v) : k ∈ (s.startPaced v b).due := State.mem_frameStart_due h

theorem State.startPaced_regs : (s.startPaced v b).regs = s.regs := rfl

theorem State.nextViewSlot_view : (s.nextViewSlot v).view v = { s.view v with slot := (s.view v).slot + 1 } := SMap.get_set_same _ _ _ _

theorem State.nextViewSlot_regs : (s.nextViewSlot v).regs = s.regs := rfl

theorem State.nextViewSlot_viewSrc : (s.nextViewSlot v).viewSrc v = s.viewSrc v := rfl

theorem State.nextViewSlot_armedOn : (s.nextViewSlot v).armedOn 2 v = s.armedOn 2 v := rfl

end startPaced

theorem State.isHeld_settle (s : State) (src index : Nat) : s.settle.isHeld src index = s.isHeld src index := by
  unfold State.isHeld
  rw [State.settle_bufHolds]

/-! ### VIEW_FRAME_START (R158, R171) -/

/-- The oldest frame of a view begins: into the buffer `b`, with the view's registers as they are. -/
def State.beginView (s : State) (v : Nat) (st : ViewStart) (rest : List ViewStart) (b : Nat) : State :=
  s.setView v { s.view v with
    starts := rest, frame := some { start := st, cfg := s.regs.page (viewPage v), target := some b }, dropping := false }

/-- A view lets go of the buffer that a frame of its own was to be read from. -/
def State.releaseStart (s : State) (v : Nat) (st : ViewStart) : State :=
  match st.buffer with
  | some b => s.letGo st.source (viewUnit v) b.index
  | none => s

/-- The oldest frame of a view is dropped and counted. -/
def State.dropStart (s : State) (v : Nat) (st : ViewStart) (rest : List ViewStart) : State :=
  ((s.setView v { s.view v with starts := rest, dropping := true }).bump (Adr.VW.DROPPED v)).releaseStart v st

theorem viewFrameStart_idle {s : State} {v : Nat} (h : (s.view v).starts = []) : viewFrameStart v s = s := by
  unfold viewFrameStart
  dsimp only
  rw [h]

section frameStart
variable {s : State} {v : Nat} {st : ViewStart} {rest : List ViewStart} (hstarts : (s.view v).starts = st :: rest) (hframe : (s.view v).frame = none)
  (hhold : s.holding (viewPage v) = false)
include hstarts hframe hhold

theorem viewFrameStart_free {b : Nat} (hfree : s.freeBuffer (viewSource v) (actNbuf (Fld.VW.NBUF s.regs v)) = some b) :
    viewFrameStart v s = s.beginView v st rest b := by
  unfold viewFrameStart
  dsimp only
  rw [hstarts]
  dsimp only
  rw [if_neg (by simp [hframe, hhold]), hfree]
  rfl

theorem viewFrameStart_full (hfree : s.freeBuffer (viewSource v) (actNbuf (Fld.VW.NBUF s.regs v)) = none) :
    viewFrameStart v s = s.dropStart v st rest := by
  unfold viewFrameStart
  dsimp only
  rw [hstarts]
  dsimp only
  rw [if_neg (by simp [hframe, hhold]), hfree]
  rfl

end frameStart

theorem State.beginView_view (s : State) (v : Nat) (st : ViewStart) (rest : List ViewStart) (b : Nat) :
    (s.beginView v st rest b).view v = { s.view v with
      starts := rest, frame := some { start := st, cfg := s.regs.page (viewPage v), target := some b }, dropping := false } := SMap.get_set_same _ _ _ _

/-- Letting go changes the holds of buffers alone. -/
theorem State.releaseStart_keeps {α : Type} (p : State → α) (hholds : ∀ (t : State) (src reader index : Nat), p (t.letGo src reader index) = p t)
    (s : State) (v : Nat) (st : ViewStart) : p (s.releaseStart v st) = p s := by
  unfold State.releaseStart
  split
  · exact hholds s _ _ _
  · rfl

section dropStart
variable (s : State) (v : Nat) (st : ViewStart) (rest : List ViewStart)

theorem State.dropStart_view : (s.dropStart v st rest).view v = { s.view v with starts := rest, dropping := true } :=
  (State.releaseStart_keeps (fun t => t.view v) (fun _ _ _ _ => rfl) _ v st).trans (SMap.get_set_same _ _ _ _)

theorem State.dropStart_regs : (s.dropStart v st rest).regs = (s.bump (Adr.VW.DROPPED v)).regs :=
  State.releaseStart_keeps State.regs (fun _ _ _ _ => rfl) _ v st

theorem State.dropStart_dropped : (s.dropStart v st rest).rd (Adr.VW.DROPPED v) = satInc 32 (s.rd (Adr.VW.DROPPED v)) := by
  rw [State.rd, State.dropStart_regs]
  exact s.rd_bump_same _

theorem SameRegsBut.dropStart : SameRegsBut [Adr.VW.DROPPED v] s (s.dropStart v st rest) := (SameRegsBut.bump s _).to_regs (s.dropStart_regs v st rest)

end dropStart

/-! ### Writing a buffer, and the error responses of its addresses (R159, R171, R295, R369) -/

/-- An error response that an address alone can give: 0x480 once TRAIN is DONE. -/
def State.OfAddress (s : State) (cause : Nat) : Prop := Fld.MCT.TRAIN_STAT_STATE s.regs ≠ 2 ∨ cause = 0x480

theorem State.mem_spanError_ofAddress {s : State} {addr n : Nat} : ∀ c ∈ (s.spanError addr n).toList, s.OfAddress c := fun _ h =>
  State.spanError_trained (Option.mem_toList.mp h)

theorem State.storeRows_regs (s : State) (addr pitch : Nat) (rows : List (List Byte)) : (s.storeRows addr pitch rows).1.regs = s.regs := by
  induction rows generalizing s addr with
  | nil => rfl
  | cons r rest ih => exact (ih _ _).trans (State.store_regs s addr r)

theorem State.storeRows_ofAddress (pitch : Nat) (rows : List (List Byte)) (s : State) (addr : Nat) :
    ∀ c ∈ (s.storeRows addr pitch rows).2.toList, s.OfAddress c := by
  induction rows generalizing s addr with
  | nil => exact fun _ h => absurd h List.not_mem_nil
  | cons r rest ih =>
    intro c h
    rcases Option.or_eq_some_iff.mp (Option.mem_toList.mp h) with hfirst | ⟨-, hrest⟩
    · exact State.spanError_trained hfirst
    · exact ih (s.store addr r) (addr + pitch) c (Option.mem_toList.mpr hrest)

theorem mem_of_mem_distinct {l : List Nat} {c : Nat} (h : c ∈ distinct l) : c ∈ l := by
  induction l with
  | nil => exact h
  | cons x r ih =>
    rcases List.mem_cons.mp h with rfl | hr
    · exact List.mem_cons_self
    · exact List.mem_cons_of_mem _ (ih (List.mem_of_mem_filter hr))

/-- A unit reports error responses. -/
def State.upstreams (s : State) (unit : Nat) (causes : List Nat) : State := causes.foldl (fun t c => t.upstream unit c) s

theorem State.upstreams_regs {s : State} {causes : List Nat} (h : ∀ c ∈ causes, s.OfAddress c) (unit : Nat) : (s.upstreams unit causes).regs = s.regs := by
  induction causes generalizing s with
  | nil => rfl
  | cons c r ih =>
    obtain ⟨hc, hr⟩ := List.forall_mem_cons.mp h
    have hregs : (s.upstream unit c).regs = s.regs := State.upstream_regs_of_address hc unit
    have hrest : ∀ e ∈ r, (s.upstream unit c).OfAddress e := fun e he => by
      unfold State.OfAddress
      rw [hregs]
      exact hr e he
    exact (ih hrest).trans hregs

/-- A view writes the planes of a picture and then its descriptor at `desc`, and reports the error responses that it met. -/
def State.writeBuffer (s : State) (v : Nat) (d : BufFrame) (desc : Nat) (planes : List (List Byte) × List (List Byte)) : State :=
  let luma := s.storeRows d.addr d.pitch planes.1
  let both := luma.1.storeRows (d.addr + d.chroma) d.pitch planes.2
  (both.1.store desc (d.descriptor (luma.2.or both.2).isSome)).upstreams (viewUnit v)
    (distinct (luma.2.toList ++ both.2.toList ++ (both.1.spanError desc 64).toList))

section writeBuffer
variable (s : State) (v : Nat) (d : BufFrame) (desc : Nat) (planes : List (List Byte) × List (List Byte))

/-- What a view writes meets errors of addresses alone, which count in no register. -/
theorem State.writeBuffer_regs : (s.writeBuffer v d desc planes).regs = s.regs := by
  unfold State.writeBuffer
  dsimp only
  have hluma := s.storeRows_regs d.addr d.pitch planes.1
  have hboth := (State.storeRows_regs (s.storeRows d.addr d.pitch planes.1).1 (d.addr + d.chroma) d.pitch planes.2).trans hluma
  refine (State.upstreams_regs (fun c hc => ?_) _).trans hboth
  unfold State.OfAddress
  rw [State.store_regs, hboth]
  rcases List.mem_append.mp (mem_of_mem_distinct hc) with hrows | hdesc
  · rcases List.mem_append.mp hrows with hmain | hchroma
    · exact State.storeRows_ofAddress _ _ _ _ c hmain
    · have hfrom := State.storeRows_ofAddress _ _ _ _ c hchroma
      rwa [State.OfAddress, hluma] at hfrom
  · have hfrom := State.mem_spanError_ofAddress c hdesc
    rwa [State.OfAddress, hboth] at hfrom

end writeBuffer

/-! ### VIEW_FRAME_COMPLETE (R171) -/

/-- The rows of a frame of a stream source. -/
def ViewFrame.rows (f : ViewFrame) : List (List Px) := f.start.rows.map (·.2)

/-- DEPTH of a frame as it acts. -/
def ViewFrame.depth (f : ViewFrame) (v : Nat) : Nat := listed (Adr.VW.FMT_CFG v) (Fld.VW.FMT_CFG_DEPTH f.cfg v) 3

/-- The codes of the picture of a frame (R160 to R168). -/
def State.viewCodes (s : State) (v : Nat) (f : ViewFrame) (seq : Nat) : List (List (Nat × Nat × Nat)) :=
  (s.viewPicture f.cfg v seq f.rows).map (fun r => r.map (codesOf (Fld.VW.FMT_CFG_FMT f.cfg v) (depthBits (f.depth v)) (Fld.VW.FMT_CFG_COLORIMETRY f.cfg v)
    (Fld.VW.FMT_CFG_RANGE f.cfg v == 1) (Fld.VW.FMT_CFG_PROTECT f.cfg v == 1)))

/-- The buffer `b` with a frame of these codes, numbered `seq` by its view (R171). -/
def ViewFrame.buffer (f : ViewFrame) (v b seq : Nat) (codes : List (List (Nat × Nat × Nat))) : BufFrame :=
  { index := b, addr := (Fld.VW.BUF_UNIT f.cfg v + b * Fld.VW.BUF_STRIDE f.cfg v) * 4096, pitch := Fld.VW.PITCH f.cfg v / 256 * 256,
    chroma := Fld.VW.CHROMA_UNITS f.cfg v * 4096, fmt := Fld.VW.FMT_CFG_FMT f.cfg v, depth := f.depth v, range := Fld.VW.FMT_CFG_RANGE f.cfg v,
    colorimetry := Fld.VW.FMT_CFG_COLORIMETRY f.cfg v, tf := Fld.VW.FMT_CFG_TF f.cfg v, width := (codes.headD []).length, height := codes.length,
    count := f.start.record.count, tags := f.start.record.tags, sof := f.start.record.sof, seq := seq }

/-- CROP_CLIPPED counts a frame whose crop reaches past its rows. -/
def State.countClips (s : State) (v : Nat) (f : ViewFrame) : State :=
  if cropClips (Fld.VW.CROP_POS_X0 f.cfg v) (Fld.VW.CROP_POS_Y0 f.cfg v) (Fld.VW.CROP_SIZE_W f.cfg v) (Fld.VW.CROP_SIZE_H f.cfg v)
    (f.rows.headD []).length f.rows.length then s.bump (Adr.VW.CROP_CLIPPED v) else s

/-- The buffer that a whole frame of a view is written to, as it is complete. -/
def State.viewBuffer (s : State) (v : Nat) (f : ViewFrame) (b : Nat) : BufFrame :=
  f.buffer v b (s.view v).seq ((s.countClips v f).viewCodes v f (s.view v).seq)

/-- The clipping of a whole frame is counted, and its picture and descriptor are written. -/
def State.writeFrame (s : State) (v : Nat) (f : ViewFrame) (b : Nat) : State :=
  (s.countClips v f).writeBuffer v (s.viewBuffer v f b) (Fld.VW.DESC_UNIT f.cfg v * 4096 + 64 * b)
    (packPicture (Fld.VW.FMT_CFG_FMT f.cfg v) (depthBits (f.depth v)) ((s.countClips v f).viewCodes v f (s.view v).seq))

/-- The buffer `d` is the newest of a view, whose frame is out. -/
def State.publishView (s : State) (v : Nat) (d : BufFrame) : State :=
  let done := (s.complete (viewSource v) d).bump (Adr.VW.FRAMES_OUT v)
  done.setView v { done.view v with frame := none, fresh := true, seq := (d.seq + 1) % 2 ^ 32 }

theorem viewFrameComplete_idle {s : State} {v : Nat} (h : (s.view v).frame = none) : viewFrameComplete v [] none s = s := by
  unfold viewFrameComplete
  dsimp only
  rw [h]

theorem viewFrameComplete_notWhole {s : State} {v : Nat} {f : ViewFrame} (h : (s.view v).frame = some f) (hwhole : f.start.whole = false) :
    viewFrameComplete v [] none s = s := by
  unfold viewFrameComplete
  dsimp only
  rw [h]
  dsimp only
  rw [hwhole]

/-- A whole frame of a stream source is written, and its buffer becomes the newest of the view. -/
theorem viewFrameComplete_whole {s : State} {v : Nat} {f : ViewFrame} {b : Nat} (h : (s.view v).frame = some f) (hstream : f.start.buffer = none)
    (hwhole : f.start.whole = true) (htarget : f.target = some b) :
    viewFrameComplete v [] none s = (s.writeFrame v f b).publishView v (s.viewBuffer v f b) := by
  unfold viewFrameComplete
  dsimp only
  rw [h]
  dsimp only
  rw [hwhole, htarget, hstream]
  rfl

theorem SameRegsBut.countClips (s : State) (v : Nat) (f : ViewFrame) : SameRegsBut [Adr.VW.CROP_CLIPPED v] s (s.countClips v f) := by
  unfold State.countClips
  split
  · exact .bump s _
  · exact .refl _ rfl

section writeFrame
variable (s : State) (v : Nat) (f : ViewFrame) (b : Nat)

theorem SameRegsBut.writeFrame : SameRegsBut [Adr.VW.CROP_CLIPPED v] s (s.writeFrame v f b) :=
  (SameRegsBut.countClips s v f).to_regs (State.writeBuffer_regs _ _ _ _ _)

theorem State.writeFrame_framesOut : (s.writeFrame v f b).rd (Adr.VW.FRAMES_OUT v) = s.rd (Adr.VW.FRAMES_OUT v) :=
  (SameRegsBut.writeFrame s v f b).rd (by simp [Adr.VW.FRAMES_OUT, Adr.VW.CROP_CLIPPED])

end writeFrame

section publishView
variable (s : State) (v : Nat) (d : BufFrame)

theorem State.complete_regs (src : Nat) : (s.complete src d).regs = s.regs := by rw [State.complete_eq]

theorem State.complete_view (src : Nat) : (s.complete src d).view v = s.view v := by
  rw [State.complete_eq]
  rfl

theorem State.complete_newestOf (src : Nat) : (s.complete src d).newestOf src = some d := by
  unfold State.newestOf
  rw [State.complete_newest, SMap.find?_put]
  rfl

theorem State.publishView_newestOf : (s.publishView v d).newestOf (viewSource v) = some d := by
  rw [State.newestOf, State.publishView, State.setView_newest, State.bump_newest, ← State.newestOf, State.complete_newestOf]

theorem State.publishView_view :
    (s.publishView v d).view v = { s.view v with frame := none, fresh := true, seq := (d.seq + 1) % 2 ^ 32 } := by
  rw [State.publishView, State.view_setView, if_pos rfl, State.view, State.bump_views, ← State.view, State.complete_view]

theorem State.publishView_regs : (s.publishView v d).regs = (s.bump (Adr.VW.FRAMES_OUT v)).regs := by
  rw [State.publishView, State.setView_regs, State.bump_regs, State.bump_regs, State.rd, State.complete_regs, ← State.rd]

theorem State.publishView_framesOut : (s.publishView v d).rd (Adr.VW.FRAMES_OUT v) = satInc 32 (s.rd (Adr.VW.FRAMES_OUT v)) := by
  rw [State.rd, State.publishView_regs, ← State.rd, State.rd_bump_same]

theorem SameRegsBut.publishView : SameRegsBut [Adr.VW.FRAMES_OUT v] s (s.publishView v d) := (SameRegsBut.bump s _).to_regs (s.publishView_regs v d)

end publishView

/-! ### PAT_START (R173, R378) -/

theorem serial_ambiguous_iff (n a b : Nat) : serial n a b = .ambiguous ↔ (a + 2 ^ n - b % 2 ^ n) % 2 ^ n = 2 ^ (n - 1) := by
  have hpos : 0 < 2 ^ (n - 1) := Nat.two_pow_pos _
  unfold serial
  dsimp only
  split
  · simp only [reduceCtorEq, false_iff]
    omega
  · split
    · simp only [reduceCtorEq, false_iff]
      omega
    · split <;> simp [*]

/-- Two short times half their range apart are so either way round (R9). -/
theorem serial_ambiguous_comm {a b : Nat} (h : serial 40 a b = .ambiguous) : serial 40 b a = .ambiguous := by
  rw [serial_ambiguous_iff] at h ⊢
  omega

/-- A time that is not half the range away stands for one count. (The definition is opened as a function: applied, its match would have the kernel evaluate the
comparison.) -/
theorem State.fullTime_known {s : State} {t : Nat} (h : serial 40 t s.now ≠ .ambiguous) : ∃ base, s.fullTime t = (base, s) := by
  have hdef : State.fullTime = State.fullTime := rfl
  conv at hdef => rhs; delta State.fullTime
  rw [hdef]
  clear hdef
  beta_reduce
  generalize serial 40 t s.now = o at h
  cases o with
  | equal | later | earlier => exact ⟨_, rfl⟩
  | ambiguous => exact absurd rfl h

/-- A start that is not half the range away has one first slot. -/
theorem State.firstSlot_known {s : State} {start : Nat} (h : serial 40 start s.now ≠ .ambiguous) (num den : Nat) :
    ∃ n, s.firstSlot start num den = (n, s) := by
  have hdef : State.firstSlot = State.firstSlot := rfl
  conv at hdef => rhs; delta State.firstSlot
  rw [hdef]
  clear hdef
  beta_reduce
  generalize serial 40 start s.now = o at h
  cases o with
  | equal | later | earlier => exact ⟨_, rfl⟩
  | ambiguous => exact absurd rfl h

/-- PAT_START's time. -/
def State.patStartTime (s : State) : Nat := Fld.PAT.PAT_START_LO s.regs + 2 ^ 32 * Fld.PAT.PAT_START_HI s.regs

/-- The Parterre runs from the first slot of its series that is not past. -/
def State.startParterre (s : State) : State :=
  ({ s with parterre := { s.parterre with
      running := true, n := (s.firstSlot s.patStartTime (Fld.PAT.RATE_NUM s.regs) (Fld.PAT.RATE_DEN s.regs)).1, base := (s.fullTime s.patStartTime).1 } } :
    State).setReg Adr.PAT.FRAMES 0

theorem patStart_refused {s : State} (h : s.enabled 0x1A = false ∨ s.hasFlow 0x1A0 = false) : patStart s = s :=
  if_pos (by rcases h with h | h <;> simp [h])

/-- PAT_START of a time that is not half the range away. (The functions that read it stand as unknown ones: the kernel does not evaluate their comparison.) -/
theorem patStart_starts {s : State} (henabled : s.enabled 0x1A = true) (hflow : s.hasFlow 0x1A0 = true)
    (htime : serial 40 s.now s.patStartTime ≠ .ambiguous) : patStart s = s.startParterre := by
  have hknown : serial 40 s.patStartTime s.now ≠ .ambiguous := fun h => htime (serial_ambiguous_comm h)
  obtain ⟨base, hbase⟩ := State.fullTime_known hknown
  obtain ⟨n, hslot⟩ := State.firstSlot_known hknown (Fld.PAT.RATE_NUM s.regs) (Fld.PAT.RATE_DEN s.regs)
  obtain ⟨fullTime, hfullTime⟩ : ∃ f, f = State.fullTime := ⟨_, rfl⟩
  obtain ⟨firstSlot, hfirstSlot⟩ : ∃ f, f = State.firstSlot := ⟨_, rfl⟩
  unfold patStart State.startParterre
  rw [if_neg (by simp [henabled, hflow]), ← State.patStartTime]
  rw [← hfullTime] at hbase ⊢
  rw [← hfirstSlot] at hslot ⊢
  simp only [hbase, hslot]

theorem State.startParterre_parterre (s : State) : s.startParterre.parterre = { s.parterre with
    running := true, n := (s.firstSlot s.patStartTime (Fld.PAT.RATE_NUM s.regs) (Fld.PAT.RATE_DEN s.regs)).1, base := (s.fullTime s.patStartTime).1 } :=
  State.setReg_parterre _ _ _

theorem State.startParterre_frames (s : State) : s.startParterre.rd Adr.PAT.FRAMES = 0 := State.rd_setReg_same _ _ _

theorem State.startParterre_dram (s : State) : s.startParterre.dram = s.dram := State.setReg_dram _ _ _

theorem SameRegsBut.startParterre (s : State) : SameRegsBut [Adr.PAT.FRAMES] s s.startParterre := .putN (n := 0) (State.setReg_regs _ _ _)

/-! ### PAT_FRAME_START (R157, R173) -/

/-- A whole frame of stream source `src` goes to the views bound to it. -/
def State.sendFrame (s : State) (src serial : Nat) (r : FrameRec) (rows : List (List Px)) : State :=
  (rows.foldl (fun t row => t.sourceRow src serial (noFlags, row)) (s.sourceStart src serial r)).sourceEnd src serial r

section sendFrame
variable {α : Type} (p : State → α) (hview : ∀ (t : State) (v : Nat) (x : View), p (t.setView v x) = p t)
include hview

theorem State.toStarts_keeps (s : State) (src serial : Nat) (g : ViewStart → ViewStart) : p (s.toStarts src serial g) = p s :=
  foldl_keeps p _ (fun t v => hview t v _) _ s

theorem State.passRecord_keeps (s : State) (src : Nat) (r : FrameRec) : p (s.passRecord src r) = p s := by
  refine foldl_keeps p _ (fun t v => ?_) _ s
  split
  · exact hview t v _
  · rfl

variable (hframe : ∀ (t : State) (mode index : Nat), p (t.frameStart mode index) = p t)
include hframe

theorem State.sourceStart_keeps (s : State) (src serial : Nat) (r : FrameRec) : p (s.sourceStart src serial r) = p s := by
  refine foldl_keeps p _ (fun t v => ?_) _ s
  dsimp only
  split
  · split
    · exact (hframe _ _ _).trans ((hview _ _ _).trans (hview _ _ _))
    · exact hview _ _ _
  · rfl

/-- A frame that goes to the views changes the views and makes groups due. -/
theorem State.sendFrame_keeps (s : State) (src serial : Nat) (r : FrameRec) (rows : List (List Px)) : p (s.sendFrame src serial r rows) = p s := by
  have hrow (t : State) (row : List Px) : p (t.sourceRow src serial (noFlags, row)) = p t := State.toStarts_keeps p hview t src serial _
  unfold State.sendFrame State.sourceEnd
  rw [State.passRecord_keeps p hview, State.toStarts_keeps p hview, foldl_keeps p _ hrow, State.sourceStart_keeps p hview hframe]

end sendFrame

section sent
variable (s : State) (src serial : Nat) (r : FrameRec) (rows : List (List Px))

theorem State.sendFrame_parterre : (s.sendFrame src serial r rows).parterre = s.parterre :=
  State.sendFrame_keeps State.parterre (fun _ _ _ => rfl) (fun _ _ _ => rfl) s src serial r rows

theorem State.sendFrame_regs : (s.sendFrame src serial r rows).regs = s.regs :=
  State.sendFrame_keeps State.regs (fun _ _ _ => rfl) (fun _ _ _ => rfl) s src serial r rows

theorem State.sendFrame_dram : (s.sendFrame src serial r rows).dram = s.dram :=
  State.sendFrame_keeps State.dram (fun _ _ _ => rfl) (fun _ _ _ => rfl) s src serial r rows

end sent

/-- The Parterre goes on to its next frame. -/
def State.nextPatFrame (s : State) : State := { s with parterre := { s.parterre with n := s.parterre.n + 1, serial := s.parterre.serial + 1 } }

theorem patFrameStart_stopped {s : State} (h : s.parterre.running = false) : patFrameStart s = s := if_pos (by simp [h])

/-- The record of the Parterre's frame. -/
def State.patRecord (s : State) : FrameRec := { frameRecReset with count := s.parterre.n % 2 ^ 32, sof := s.now }

/-- The rows of the Parterre's frame, in u16 (R174). -/
def State.patPicture (s : State) : List (List Px) :=
  (patRows s.regs s.parterre.n).map (fun r => r.map (fun q => (((q.1 * 256 : Nat) : Int), ((q.2.1 * 256 : Nat) : Int), ((q.2.2 * 256 : Nat) : Int))))

theorem patFrameStart_sends {s : State} (hrunning : s.parterre.running = true) (hhold : s.holding 0x1A = false) (hstalled : s.viewsStalled 3 = false)
    (hslot : s.slotReached s.parterre.base (Fld.PAT.RATE_NUM s.regs) (Fld.PAT.RATE_DEN s.regs) s.parterre.n = true) :
    patFrameStart s = (s.nextPatFrame.sendFrame 3 s.parterre.serial s.patRecord s.patPicture).bump Adr.PAT.FRAMES := by
  unfold patFrameStart
  rw [if_neg (by simp [hrunning, hhold, hstalled, hslot])]
  rfl

/-! ### The obligation -/

/-- Settles O33: each command by the equation of its case, and what that case leaves. -/
theorem viewsAndParterre : Obligations.ViewsAndParterre := by
  unfold Obligations.ViewsAndParterre
  refine ⟨fun s v hrun => ⟨?stopped, ?slot, ?noStart, ?begins, ?dropped, ?completes, ?noFrame, ?notWhole⟩,
    fun s => ⟨?refused, ?starts, .plain rfl, ?idle, ?frame⟩⟩
  case stopped => exact fun h => .of_answer rfl rfl (viewPaceSlot_stopped h)
  case slot =>
    intro b hrunning hpaced hnewest hslot
    refine .of_answer rfl rfl ?_
    rw [viewPaceSlot_taken hrunning hpaced hnewest hslot, State.view_settle, State.startPaced_view, State.nextViewSlot_view, State.isHeld_settle,
      State.settle_due, State.settle_regs, State.startPaced_regs, State.nextViewSlot_regs, ← s.nextViewSlot_viewSrc v, ← s.nextViewSlot_armedOn v]
    exact ⟨rfl, ⟨_, rfl, rfl, rfl⟩, State.startPaced_isHeld _ _ _, fun _ => State.mem_startPaced_due _ _ _, rfl⟩
  case noStart => exact fun h => .of_answer rfl rfl (viewFrameStart_idle h)
  case begins =>
    intro st rest b hstarts hframe hhold hfree
    refine .of_answer rfl rfl ?_
    rw [viewFrameStart_free hstarts hframe hhold hfree, State.view_settle, State.beginView_view, State.settle_regs]
    exact ⟨rfl, rfl, rfl⟩
  case dropped =>
    intro st rest hstarts hframe hhold hfree
    refine .of_answer rfl rfl ?_
    rw [viewFrameStart_full hstarts hframe hhold hfree, State.view_settle, State.dropStart_view, State.settle_rd, State.dropStart_dropped]
    exact ⟨rfl, hframe, rfl, rfl, (SameRegsBut.dropStart s v st rest).settle⟩
  case completes =>
    intro f b hframe hstream hwhole htarget
    refine .running hrun rfl ?_
    rw [viewFrameComplete_whole hframe hstream hwhole htarget, State.newestOf_settle, State.publishView_newestOf, State.view_settle,
      State.publishView_view, State.settle_rd, State.publishView_framesOut, State.writeFrame_framesOut]
    refine ⟨⟨_, rfl, rfl, rfl, rfl, rfl, rfl⟩, rfl, rfl, rfl, .settle ?_⟩
    exact ((SameRegsBut.writeFrame s v f b).trans (.publishView _ v _)).mono (by simp)
  case noFrame => exact fun h => .running hrun rfl (viewFrameComplete_idle h)
  case notWhole => exact fun f h hwhole => .running hrun rfl (viewFrameComplete_notWhole h hwhole)
  case refused => exact fun h => .of_answer rfl rfl (patStart_refused h)
  case starts =>
    rw [← State.patStartTime]
    intro henabled hflow htime
    refine .of_answer rfl rfl ?_
    rw [patStart_starts henabled hflow htime, State.settle_parterre, State.startParterre_parterre, State.settle_rd, State.startParterre_frames,
      State.settle_dram, State.startParterre_dram]
    exact ⟨rfl, rfl, (SameRegsBut.startParterre s).settle, rfl⟩
  case idle => exact fun h => .of_answer rfl rfl (patFrameStart_stopped h)
  case frame =>
    intro hrunning hhold hstalled hslot
    refine .of_answer rfl rfl ?_
    rw [patFrameStart_sends hrunning hhold hstalled hslot, State.settle_parterre, State.bump_parterre, State.sendFrame_parterre, State.settle_rd,
      State.rd_bump_same, State.settle_dram, State.bump_dram, State.sendFrame_dram, State.rd, State.sendFrame_regs]
    exact ⟨rfl, rfl, ((SameRegsBut.refl [] (s.nextPatFrame.sendFrame_regs _ _ _ _)).trans (.bump _ _)).settle, rfl⟩

end Sys2Proof.Machine

/-! Codec sessions: a stalled record in its ring (R190, R191). -/

namespace Sys2Proof.Machine

/-- A command that completes does so in its operation's result, settled. -/
theorem Completes.result {c : Instr} {s u : State} {p : State → Prop} (h : Completes c s p) (e : exec c s = answer c u) : p u.settle := by
  obtain ⟨t, hexec, ht⟩ := h
  obtain ⟨-, hsettled⟩ := answer_inversion (e.symm.trans hexec)
  exact hsettled ▸ ht

/-- A record of 256 bytes waits for an empty ring of 4 KiB, and the engine it names is none of the six: the register that would be ENG_SES of engine 1080 is
WR_PTR of session 0. -/
def strayRecord : StalledRecord := { bytes := List.replicate 256 0, engine := 1080, ring := (16, 1) }

/-- The state after reset, but that session 0 has `strayRecord` to store. -/
def strayStall : State := State.reset.setSes 0 { sessionReset with ring := (16, 1), stalled := [strayRecord] }

/-- Session 0, as a session that commands name. -/
def strayed : Fin 32 := 0

/-- WR_PTR is to advance to 256, and clearing VALID of that engine clears bit 8 of it. -/
theorem strayStall_wrPtr : (ringSpace strayed strayStall).rd (Adr.GLS.WR_PTR strayed) = 0 ∧
    (strayStall.rd (Adr.GLS.WR_PTR strayed) + strayRecord.bytes.length) % strayStall.ringBytes strayed % 2 ^ 32 = 256 := by decide +kernel

/-- Refutes O34: RING_SPACE clears VALID of whatever engine the stalled record names, and where that number is none of an engine the cleared bit may be one of
the WR_PTR just advanced. -/
theorem not_sessionsStartAndStop : ¬ Obligations.SessionsStartAndStop := by
  intro h
  obtain ⟨-, -, -, -, -, -, -, -, -, -, -, -, -, hspace⟩ := h strayStall strayed
  have hone : (strayStall.ses strayed).stalled = [strayRecord] := by decide +kernel
  have hring : strayRecord.ring = (strayStall.ses strayed).ring := by decide +kernel
  have hfits : (strayRecord.bytes.length : Int) ≤ strayStall.ringFree strayed := by decide +kernel
  obtain ⟨-, hwr, -⟩ := (hspace strayRecord hone hring hfits).result (u := ringSpace strayed strayStall) rfl
  obtain ⟨hafter, hexpected⟩ := strayStall_wrPtr
  rw [State.settle_rd, hafter, hexpected] at hwr
  exact absurd hwr (by decide)

end Sys2Proof.Machine

/-! Codec pictures: slots, dispatch, picture start, deadlines and pool waits (R177, R179, R181, R185, R187, R196). -/

namespace Sys2Proof.Machine

/-! ### ENCODE_SLOT (R181) -/

/-- The short time of an encode session's next slot. -/
def State.sesSlotTime (s : State) (n : Nat) : Nat :=
  slotTime (sesStartTime s.regs n) (Fld.GLS.PACE_NUM s.regs n) (Fld.GLS.PACE_DEN s.regs n) (s.ses n).slot

/-- A session goes on to its next slot. -/
def State.nextSesSlot (s : State) (n : Nat) : State := s.setSes n { s.ses n with slot := (s.ses n).slot + 1 }

/-- The picture that a session makes of a view buffer at its slot. -/
def State.slotPicture (s : State) (n : Nat) (b : BufFrame) : Picture :=
  { slot := s.sesSlotTime n,
    deadline := (s.sesSlotTime n + periodNs (Fld.GLS.PACE_NUM s.regs n) (Fld.GLS.PACE_DEN s.regs n)) % 2 ^ 40,
    source := some (Fld.GLS.SRC_VIEW s.regs n, b), ringAt := 0, length := 0, cfg := s.regs.page glsPage, waiting := sesEngines s.regs n, running := [],
    target := none, kind := 0, newParams := false, qp := 0, refs := [], bad := [] }

/-- A session takes a picture from a buffer of a view source, which it holds. -/
def State.takePicture (s : State) (n src : Nat) (b : BufFrame) (p : Picture) : State :=
  (s.setSes n { s.ses n with pics := (s.ses n).pics ++ [p], mismatchRun := false }).holdBuf src (sesReader n) b.index

/-- A session counts a buffer of another format; the first of a run is reported. -/
def State.countMismatch (s : State) (n : Nat) : State :=
  let t := s.setSes n { s.ses n with mismatch := satInc 16 (s.ses n).mismatch, mismatchRun := true }
  if (s.ses n).mismatchRun then t else t.sesFault n 0x07

theorem encodeSlot_idle {s : State} {n : Nat}
    (h : s.sesState n ≠ 1 ∨ sesDecode s.regs n = true ∨ Fld.GLS.PACE_NUM s.regs n = 0 ∨ s.reached (s.sesSlotTime n) = false) : encodeSlot n s = s :=
  if_pos h

theorem State.nextSesSlot_regs (s : State) (n : Nat) : (s.nextSesSlot n).regs = s.regs := rfl

section slot
variable {s : State} {n : Nat} {b : BufFrame} (hstate : s.sesState n = 1) (henc : sesDecode s.regs n = false) (hpace : Fld.GLS.PACE_NUM s.regs n ≠ 0)
  (hslot : s.reached (s.sesSlotTime n) = true) (hnewest : s.newestOf (viewSource (Fld.GLS.SRC_VIEW s.regs n)) = some b)
include hstate henc hpace hslot hnewest

/-- At its slot a session takes the newest buffer of its view, or counts it as a mismatch. -/
theorem encodeSlot_newest : encodeSlot n s =
    if sesMatches s.regs n b then (s.nextSesSlot n).takePicture n (viewSource (Fld.GLS.SRC_VIEW s.regs n)) b (s.slotPicture n b)
    else (s.nextSesSlot n).countMismatch n := by
  have hnext : (s.nextSesSlot n).newestOf (viewSource (Fld.GLS.SRC_VIEW s.regs n)) = some b := hnewest
  unfold State.sesSlotTime at hslot
  unfold encodeSlot
  dsimp only
  rw [if_neg (by simp [hstate, henc, hpace, hslot]), ← State.nextSesSlot, State.nextSesSlot_regs, hnext]
  rfl

theorem encodeSlot_takes (hmatch : sesMatches s.regs n b = true) :
    encodeSlot n s = (s.nextSesSlot n).takePicture n (viewSource (Fld.GLS.SRC_VIEW s.regs n)) b (s.slotPicture n b) := by
  rw [encodeSlot_newest hstate henc hpace hslot hnewest, if_pos hmatch]

theorem encodeSlot_mismatch (hmatch : sesMatches s.regs n b = false) : encodeSlot n s = (s.nextSesSlot n).countMismatch n := by
  rw [encodeSlot_newest hstate henc hpace hslot hnewest, hmatch, if_neg Bool.false_ne_true]

end slot

section sesParts
variable (s : State) (n : Nat)

theorem State.ses_setSes_same (x : Session) : (s.setSes n x).ses n = x := by rw [State.ses_setSes, if_pos rfl]

theorem State.nextSesSlot_ses : (s.nextSesSlot n).ses n = { s.ses n with slot := (s.ses n).slot + 1 } := s.ses_setSes_same n _

theorem State.takePicture_ses (src : Nat) (b : BufFrame) (p : Picture) :
    (s.takePicture n src b p).ses n = { s.ses n with pics := (s.ses n).pics ++ [p], mismatchRun := false } := s.ses_setSes_same n _

theorem State.takePicture_regs (src : Nat) (b : BufFrame) (p : Picture) : (s.takePicture n src b p).regs = s.regs := rfl

theorem State.takePicture_dram (src : Nat) (b : BufFrame) (p : Picture) : (s.takePicture n src b p).dram = s.dram := rfl

theorem State.takePicture_isHeld (src : Nat) (b : BufFrame) (p : Picture) : (s.takePicture n src b p).isHeld src b.index = true :=
  List.any_eq_true.mpr ⟨{ source := src, reader := sesReader n, index := b.index }, List.mem_append_right _ List.mem_cons_self, by simp⟩

theorem State.countMismatch_ses :
    (s.countMismatch n).ses n = { s.ses n with mismatch := satInc 16 (s.ses n).mismatch, mismatchRun := true } := by
  unfold State.countMismatch
  dsimp only
  split
  · exact s.ses_setSes_same n _
  · exact s.ses_setSes_same n _

theorem State.countMismatch_dram : (s.countMismatch n).dram = s.dram := by
  unfold State.countMismatch
  dsimp only
  split <;> rfl

theorem State.mem_countMismatch (h : (s.ses n).mismatchRun = false) :
    { page := 0x29, cause := 0x290, code := 0x07, event := true, unit := 0x290 } ∈ (s.countMismatch n).held := by
  unfold State.countMismatch
  rw [h]
  exact (State.mem_fault _ 0x290 0x07 _).mpr (.inl rfl)

end sesParts

/-! ### ENGINE_DISPATCH (R177) -/

/-- One item goes before another: its deadline is earlier, or its session is no higher where they agree. -/
def GoesBefore (i j : Nat × Nat) : Prop := i.2 < j.2 ∨ (i.2 = j.2 ∧ i.1 ≤ j.1)

theorem GoesBefore.refl (i : Nat × Nat) : GoesBefore i i := .inr ⟨rfl, le_rfl⟩

theorem GoesBefore.trans {i j k : Nat × Nat} (h : GoesBefore i j) (h' : GoesBefore j k) : GoesBefore i k := by
  unfold GoesBefore at *
  omega

/-- Short times below half their range compare as numbers (R9). -/
theorem serial_earlier_iff {a b : Nat} (ha : a < 2 ^ 39) (hb : b < 2 ^ 39) : serial 40 a b = .earlier ↔ a < b := by
  unfold serial
  dsimp only
  split
  · simp only [reduceCtorEq, false_iff]
    omega
  · split
    · simp only [reduceCtorEq, false_iff]
      omega
    · split
      · simp only [reduceCtorEq, false_iff]
        omega
      · simp only [true_iff]
        omega

/-- Of items in the order of their sessions, one is chosen that goes before every other. -/
theorem earliest_first {l : List (Nat × Nat)} {i r : Nat × Nat} (h : earliest l (some i) = some r) (hnear : ∀ j ∈ i :: l, j.2 < 2 ^ 39)
    (hsorted : (i :: l).Pairwise (fun j k => j.1 ≤ k.1)) : r ∈ i :: l ∧ ∀ j ∈ i :: l, GoesBefore r j := by
  induction l generalizing i with
  | nil =>
    obtain rfl := Option.some.inj h
    exact ⟨List.mem_cons_self, by simp [GoesBefore.refl]⟩
  | cons k l ih =>
    obtain ⟨hi, hk, hl⟩ : i.2 < 2 ^ 39 ∧ k.2 < 2 ^ 39 ∧ ∀ j ∈ l, j.2 < 2 ^ 39 := by simpa using hnear
    obtain ⟨hfirst, hrest⟩ := List.pairwise_cons.mp hsorted
    have hik := hfirst k List.mem_cons_self
    unfold earliest at h
    split at h
    · rename_i hlt
      rw [serial_earlier_iff hk hi] at hlt
      obtain ⟨hmem, hle⟩ := ih h (List.forall_mem_cons.mpr ⟨hk, hl⟩) hrest
      have hki : GoesBefore k i := .inl hlt
      exact ⟨List.mem_cons_of_mem i hmem, List.forall_mem_cons.mpr ⟨(hle k List.mem_cons_self).trans hki, hle⟩⟩
    · rename_i hge
      rw [serial_earlier_iff hk hi] at hge
      obtain ⟨hmem, hle⟩ := ih h (List.forall_mem_cons.mpr ⟨hi, hl⟩)
        (List.pairwise_cons.mpr ⟨fun j hj => hfirst j (List.mem_cons_of_mem k hj), (List.pairwise_cons.mp hrest).2⟩)
      obtain ⟨hri, hrl⟩ := List.forall_mem_cons.mp hle
      have hik' : GoesBefore i k := by unfold GoesBefore; omega
      refine ⟨?_, List.forall_mem_cons.mpr ⟨hri, List.forall_mem_cons.mpr ⟨hri.trans hik', hrl⟩⟩⟩
      rcases List.mem_cons.mp hmem with rfl | hr
      · exact List.mem_cons_self
      · exact List.mem_cons_of_mem _ (List.mem_cons_of_mem _ hr)

theorem pairwise_filterMap_range {f : Nat → Option (Nat × Nat)} (h : ∀ n i, f n = some i → i.1 = n) (k : Nat) :
    ((List.range k).filterMap f).Pairwise (fun i j => i.1 ≤ j.1) := by
  rw [List.pairwise_filterMap]
  refine List.pairwise_lt_range.imp fun hlt i hi j hj => ?_
  rw [h _ i hi, h _ j hj]
  exact Nat.le_of_lt hlt

/-- The ready items stand in the order of their sessions. -/
theorem State.readyFor_sorted (s : State) (e : Nat) : (s.readyFor e).Pairwise (fun i j => i.1 ≤ j.1) := by
  refine pairwise_filterMap_range (fun n i h => ?_) 32
  dsimp only at h
  split at h
  · split at h
    · exact Option.some.inj h ▸ rfl
    · exact absurd h (Option.some_ne_none i).symm
  · exact absurd h (Option.some_ne_none i).symm

theorem State.earliest_readyFor {s : State} {e : Nat} {i : Nat × Nat} (hnear : ∀ j ∈ s.readyFor e, j.2 < 2 ^ 39)
    (h : earliest (s.readyFor e) none = some i) : i ∈ s.readyFor e ∧ ∀ j ∈ s.readyFor e, GoesBefore i j := by
  have hsorted := s.readyFor_sorted e
  generalize s.readyFor e = l at h hnear hsorted
  cases l with
  | nil => exact absurd h (Option.some_ne_none i).symm
  | cons j l => exact earliest_first h hnear hsorted

/-- An engine starts an item of a picture of session `n`. -/
def Picture.startItem (p : Picture) (e : Nat) : Picture := { p with waiting := p.waiting.filter (fun i => i != e), running := p.running ++ [e] }

/-- An engine starts an item of a picture that has started. -/
def State.startItem (s : State) (n e : Nat) (p : Picture) : State :=
  (s.setSes n { s.ses n with pics := (s.ses n).putPic (p.startItem e) }).setReg (Adr.GLC.ENG_SES e) (n + 0x100)

theorem engineDispatch_busy {s : State} {e : Nat} (h : Fld.GLC.ENG_SES_VALID s.regs e = 1) : engineDispatch e s = s := if_pos h

theorem engineDispatch_nothing {s : State} {e : Nat} (h : s.readyFor e = []) : engineDispatch e s = s := by
  unfold engineDispatch
  rw [h]
  exact ite_self s

section dispatch
variable {s : State} {e n d : Nat} {p : Picture} (hfree : Fld.GLC.ENG_SES_VALID s.regs e = 0) (hfirst : earliest (s.readyFor e) none = some (n, d))
  (hitem : (s.ses n).itemOf e = some p)
include hfree hfirst hitem

theorem engineDispatch_started {b : Nat} (h : p.target = some b) : engineDispatch e s = s.startItem n e p := by
  unfold engineDispatch
  rw [if_neg (by rw [hfree]; decide), hfirst]
  dsimp only
  rw [hitem]
  dsimp only
  rw [h]
  rfl

theorem engineDispatch_starts {q : Picture} {t : State} (h : p.target = none) (hstart : s.pictureStart n p = (some q, t)) :
    engineDispatch e s = t.startItem n e q := by
  unfold engineDispatch
  rw [if_neg (by rw [hfree]; decide), hfirst]
  dsimp only
  rw [hitem]
  dsimp only
  rw [h, hstart]
  rfl

theorem engineDispatch_waits {t : State} (h : p.target = none) (hstart : s.pictureStart n p = (none, t)) : engineDispatch e s = t := by
  unfold engineDispatch
  rw [if_neg (by rw [hfree]; decide), hfirst]
  dsimp only
  rw [hitem]
  dsimp only
  rw [h, hstart]
  rfl

end dispatch

theorem Session.itemOf_head {x : Session} {e : Nat} {p : Picture} {rest : List Picture} (h : x.pics = p :: rest) (hwait : p.waiting.contains e = true) :
    x.itemOf e = some p := by
  unfold Session.itemOf
  rw [h]
  exact List.find?_cons_of_pos hwait

/-! ### Picture start (R185, R187, R196) -/

/-- A picture replaces the one of its slot, ring offset and source. -/
theorem Session.putPic_head {x : Session} {p q : Picture} {rest : List Picture} (h : x.pics = p :: rest)
    (hplace : p.slot = q.slot ∧ p.ringAt = q.ringAt ∧ p.source = q.source) : (x.putPic q).head? = some q := by
  unfold Session.putPic
  rw [h, List.map_cons, if_pos hplace, List.head?_cons]

/-- With no handle command waiting, none takes effect. -/
theorem State.applyHandles_none {s : State} {n : Nat} (h : (s.ses n).cmds = []) : s.applyHandles n = s.setSes n { s.ses n with cmds := [] } := by
  unfold State.applyHandles
  dsimp only
  rw [h]
  rfl

/-- Deciding a picture's QP draws free values and sets the session's last QP. -/
theorem State.pictureQp_keeps {α : Type} (p : State → α) {n : Nat} (hdraw : ∀ (t : State) (k : Nat), p { t with freeCount := k } = p t)
    (hqp : ∀ (t : State) (q : Nat), p (t.setSes n { t.ses n with qpP := q }) = p t) (s : State) (cfg : RegFile) (idr : Bool) :
    p (s.pictureQp n cfg idr).2 = p s := by
  have hdev : ∀ (t : State) (full cpb : Int), p (t.rcDev full cpb).2 = p t := fun t full cpb => by
    unfold State.rcDev
    dsimp only
    split
    · exact hdraw t _
    · rfl
  unfold State.pictureQp
  dsimp only
  split
  · rfl
  · dsimp only
    rw [hqp]
    split
    · exact hdev _ _ _
    · exact (hdev _ _ _).trans (hdev _ _ _)

/-- The generation stamp of the next picture that starts (R185). -/
def State.nextStamp (s : State) : Nat := (s.rd Adr.GLP.GEN + 1) % 256

/-- A buffer is taken for a picture: marked SHORT under the next generation. -/
def State.claimBuf (s : State) (b : Nat) : State :=
  (s.setReg Adr.GLP.GEN s.nextStamp).setPool b { s.pool b with mark := 1, stamp := s.nextStamp, published := false }

/-- What an IDR picture in buffer `b` does to the references of its session. -/
def State.clearRefs (s : State) (n b : Nat) (idr : Bool) : State :=
  if idr then (s.sesBufs n).foldl (fun t k => if k = b then t else t.markBuf k 0) s else s

/-- What a picture start in buffer `b` leaves of a state. -/
structure PictureStarts (s : State) (n b : Nat) (p q : Picture) (t : State) : Prop where
  target : q.target = some b
  place : p.slot = q.slot ∧ p.ringAt = q.ringAt ∧ p.source = q.source
  running : q.running = p.running
  pics : (t.ses n).pics = (s.ses n).pics
  compared : ∀ v f, p.source = some (v, f) → (t.ses n).prevSeq = some f.seq ∧ (t.ses n).prevCfg = some p.cfg
  mark : (t.pool b).mark = 1
  stamp : (t.pool b).stamp = s.nextStamp
  regs : t.regs = s.regs.putN Adr.GLP.GEN s.nextStamp
  dram : t.dram = s.dram

theorem State.pool_claimBuf (s : State) (b : Nat) :
    (s.claimBuf b).pool b = { s.pool b with mark := 1, stamp := s.nextStamp, published := false } := by
  rw [State.claimBuf, State.pool_setPool, if_pos rfl]

/-- The references of an IDR picture's session go; the picture's own buffer stays, and nothing else changes. -/
theorem State.clearRefs_keeps {α : Type} (p : State → α) {b : Nat} (hmark : ∀ (t : State) (k m : Nat), k ≠ b → p (t.markBuf k m) = p t)
    (s : State) (n : Nat) (idr : Bool) : p (s.clearRefs n b idr) = p s := by
  unfold State.clearRefs
  split
  · refine foldl_keeps p _ (fun t k => ?_) _ s
    split
    · rfl
    · exact hmark t k 0 ‹_›
  · rfl

theorem State.clearRefs_ses (s : State) (n b m : Nat) (idr : Bool) : (s.clearRefs n b idr).ses m = s.ses m :=
  State.clearRefs_keeps (fun t => t.ses m) (fun _ _ _ _ => rfl) s n idr

/-- An encode session after it has decided about its picture: `x` is the session and `idr` whether the picture is an IDR. -/
def State.decidePicture (s : State) (n b : Nat) (x : Session) (cfg : RegFile) (idr : Bool) : State :=
  (((s.clearRefs n b idr).setSes n x).pictureQp n cfg idr).2

/-- What deciding about a picture neither clears, stores nor draws, it leaves. -/
theorem State.decidePicture_keeps {α : Type} (p : State → α) {n b : Nat} (hmark : ∀ (t : State) (k m : Nat), k ≠ b → p (t.markBuf k m) = p t)
    (hses : ∀ (t : State) (x : Session), p (t.setSes n x) = p t) (hdraw : ∀ (t : State) (k : Nat), p { t with freeCount := k } = p t)
    (s : State) (x : Session) (cfg : RegFile) (idr : Bool) : p (s.decidePicture n b x cfg idr) = p s := by
  rw [State.decidePicture, State.pictureQp_keeps p hdraw (fun t q => hses t _), hses, State.clearRefs_keeps p hmark]

section decide
variable (s : State) (n b : Nat) (x : Session) (cfg : RegFile) (idr : Bool)

theorem State.decidePicture_regs : (s.decidePicture n b x cfg idr).regs = s.regs :=
  State.decidePicture_keeps State.regs (fun _ _ _ _ => rfl) (fun _ _ => rfl) (fun _ _ => rfl) s x cfg idr

theorem State.decidePicture_dram : (s.decidePicture n b x cfg idr).dram = s.dram :=
  State.decidePicture_keeps State.dram (fun _ _ _ _ => rfl) (fun _ _ => rfl) (fun _ _ => rfl) s x cfg idr

theorem State.decidePicture_pool : (s.decidePicture n b x cfg idr).pool b = s.pool b :=
  State.decidePicture_keeps (fun t => t.pool b) (fun t k m h => by rw [State.markBuf, State.pool_setPool, if_neg (Ne.symm h)]) (fun _ _ => rfl)
    (fun _ _ => rfl) s x cfg idr

/-- Of the session, only the QP of its last picture changes once it is stored. -/
theorem State.decidePicture_ses : { (s.decidePicture n b x cfg idr).ses n with qpP := 0 } = { x with qpP := 0 } := by
  refine (State.pictureQp_keeps (fun t => { t.ses n with qpP := 0 }) (fun _ _ => rfl) (fun t q => ?_) _ cfg idr).trans ?_
  · rw [State.ses_setSes_same]
  · rw [State.ses_setSes_same]

end decide

/-- With no free buffer the session waits (R185). -/
theorem State.pictureStart_full {s : State} {n : Nat} (p : Picture)
    (hfull : ((s.applyHandles n).sesBufs n).find? (fun b => ((s.applyHandles n).pool b).isFree) = none) :
    s.pictureStart n p = (none, (s.applyHandles n).setSes n
      { (s.applyHandles n).ses n with poolWaiting := true, poolWait := satInc 16 ((s.applyHandles n).ses n).poolWait }) := by
  unfold State.pictureStart
  dsimp only
  rw [hfull]

/-- A picture of a decode session starts in a free buffer. -/
theorem State.pictureStart_decode {s : State} {n b : Nat} {p : Picture}
    (hfree : ((s.applyHandles n).sesBufs n).find? (fun b => ((s.applyHandles n).pool b).isFree) = some b) (hsource : p.source = none) :
    ∃ refs shorts, s.pictureStart n p = (some { p with target := some b, refs := refs },
      ((s.applyHandles n).claimBuf b).setSes n { ((s.applyHandles n).claimBuf b).ses n with shorts := shorts }) := by
  unfold State.pictureStart
  dsimp only
  rw [hfree]
  dsimp only
  rw [hsource]
  exact ⟨_, _, rfl⟩

/-- A picture of an encode session starts in a free buffer, and is the one that the next is compared with. -/
theorem State.pictureStart_encode {s : State} {n b v : Nat} {p : Picture} {f : BufFrame}
    (hfree : ((s.applyHandles n).sesBufs n).find? (fun b => ((s.applyHandles n).pool b).isFree) = some b) (hsource : p.source = some (v, f)) :
    ∃ q x idr, s.pictureStart n p = (some q, ((s.applyHandles n).claimBuf b).decidePicture n b x p.cfg idr) ∧
      (q.target = some b ∧ (p.slot = q.slot ∧ p.ringAt = q.ringAt ∧ p.source = q.source) ∧ q.running = p.running) ∧
      x.pics = (((s.applyHandles n).claimBuf b).ses n).pics ∧ x.prevSeq = some f.seq ∧ x.prevCfg = some p.cfg := by
  unfold State.pictureStart
  dsimp only
  rw [hfree]
  dsimp only
  rw [hsource]
  refine ⟨_, _, _, rfl, ⟨rfl, ⟨rfl, rfl, rfl⟩, rfl⟩, ?_, rfl, rfl⟩
  have hclear (idr : Bool) := congrArg Session.pics (((s.applyHandles n).claimBuf b).clearRefs_ses n b n idr)
  exact hclear _

section noHandles
variable {s : State} {n : Nat} (hcmds : (s.ses n).cmds = [])
include hcmds

theorem State.applyHandles_bufs : ((s.applyHandles n).sesBufs n).find? (fun b => ((s.applyHandles n).pool b).isFree) =
    (s.sesBufs n).find? (fun b => (s.pool b).isFree) := by
  rw [State.applyHandles_none hcmds]
  rfl

theorem State.applyHandles_ses : (s.applyHandles n).ses n = { s.ses n with cmds := [] } := by
  rw [State.applyHandles_none hcmds, State.ses_setSes_same]

theorem State.applyHandles_claim (b : Nat) : ((s.applyHandles n).claimBuf b).regs = s.regs.putN Adr.GLP.GEN s.nextStamp ∧
    ((s.applyHandles n).claimBuf b).dram = s.dram ∧ (((s.applyHandles n).claimBuf b).pool b).mark = 1 ∧
    (((s.applyHandles n).claimBuf b).pool b).stamp = s.nextStamp ∧ (((s.applyHandles n).claimBuf b).ses n).pics = (s.ses n).pics := by
  have hses : ((s.applyHandles n).claimBuf b).ses n = (s.applyHandles n).ses n := rfl
  rw [hses, State.applyHandles_ses hcmds, State.pool_claimBuf, State.applyHandles_none hcmds]
  exact ⟨rfl, rfl, rfl, rfl, rfl⟩

/-- A picture starts in the free buffer that is found first. -/
theorem State.pictureStart_free {b : Nat} (p : Picture) (hfree : (s.sesBufs n).find? (fun b => (s.pool b).isFree) = some b) :
    ∃ q t, s.pictureStart n p = (some q, t) ∧ PictureStarts s n b p q t := by
  rw [← State.applyHandles_bufs hcmds] at hfree
  obtain ⟨hregs, hdram, hmark, hstamp, hpics⟩ := State.applyHandles_claim hcmds b
  cases hsource : p.source with
  | none =>
    obtain ⟨refs, shorts, hstart⟩ := State.pictureStart_decode hfree hsource
    refine ⟨_, _, hstart, ⟨rfl, ⟨rfl, rfl, rfl⟩, rfl, ?_, ?_, hmark, hstamp, hregs, hdram⟩⟩
    · rw [State.ses_setSes_same, hpics]
    · intro v f h
      exact absurd (hsource.symm.trans h) (Option.some_ne_none _).symm
  | some source =>
    obtain ⟨v, f⟩ := source
    obtain ⟨q, x, idr, hstart, ⟨htarget, hplace, hrunning⟩, hx, hseq, hcfg⟩ := State.pictureStart_encode hfree hsource
    have hses := ((s.applyHandles n).claimBuf b).decidePicture_ses n b x p.cfg idr
    refine ⟨q, _, hstart, ⟨htarget, hplace, hrunning, ?_, ?_, ?_, ?_, ?_, ?_⟩⟩
    · exact (congrArg Session.pics hses).trans (hx.trans hpics)
    · intro w g h
      obtain ⟨-, rfl⟩ := Prod.mk.inj (Option.some.inj (hsource.symm.trans h))
      exact ⟨(congrArg Session.prevSeq hses).trans hseq, (congrArg Session.prevCfg hses).trans hcfg⟩
    · rw [State.decidePicture_pool, hmark]
    · rw [State.decidePicture_pool, hstamp]
    · rw [State.decidePicture_regs, hregs]
    · rw [State.decidePicture_dram, hdram]

end noHandles

/-- What an engine that starts an item of a picture that has just started leaves. -/
theorem PictureStarts.ses_head {s t : State} {n b e : Nat} {p q : Picture} {rest : List Picture} (h : PictureStarts s n b p q t)
    (hpics : (s.ses n).pics = p :: rest) : ((t.startItem n e q).ses n).pics.head? = some (q.startItem e) := by
  rw [State.startItem, State.ses, State.setReg_glass, ← State.ses, State.ses_setSes_same]
  exact Session.putPic_head (h.pics.trans hpics) h.place

section startItem
variable (s : State) (n e : Nat) (p : Picture)

theorem State.startItem_ses : (s.startItem n e p).ses n = { s.ses n with pics := (s.ses n).putPic (p.startItem e) } := by
  rw [State.startItem, State.ses, State.setReg_glass, ← State.ses, State.ses_setSes_same]

theorem State.startItem_pool (b : Nat) : (s.startItem n e p).pool b = s.pool b := by
  rw [State.startItem, State.pool, State.setReg_glass]
  rfl

theorem State.startItem_dram : (s.startItem n e p).dram = s.dram := State.setReg_dram _ _ _

end startItem

/-- The sweep of the pool leaves a buffer's mark and generation stamp. -/
theorem State.pool_settle_mark (s : State) (b : Nat) : (s.settle.pool b).mark = (s.pool b).mark := by
  have h := congrArg PoolBuf.mark (s.pool_settle b)
  dsimp only at h
  exact h

theorem State.pool_settle_stamp (s : State) (b : Nat) : (s.settle.pool b).stamp = (s.pool b).stamp := by
  have h := congrArg PoolBuf.stamp (s.pool_settle b)
  dsimp only at h
  exact h

section started
variable {s t : State} {n b e : Nat} {p q : Picture} (h : PictureStarts s n b p q t)
include h

theorem PictureStarts.gen (he : e < 6) : (t.startItem n e q).rd Adr.GLP.GEN = s.nextStamp := by
  have hstamp : s.nextStamp < 2 ^ 32 := Nat.lt_trans (Nat.mod_lt _ (by decide)) (by decide : 256 < 2 ^ 32)
  rw [State.startItem, State.rd_setReg, if_neg (by unfold Adr.GLP.GEN Adr.GLC.ENG_SES; omega), State.rd, State.setSes_regs, h.regs, RegFile.word_putN,
    if_pos rfl, BitVec.toNat_ofNat, Nat.mod_eq_of_lt hstamp]

theorem PictureStarts.sameRegs : SameRegsBut [Adr.GLP.GEN, Adr.GLC.ENG_SES e] s (t.startItem n e q) :=
  (SameRegsBut.putN (t := t.setSes n { t.ses n with pics := (t.ses n).putPic (q.startItem e) }) h.regs).trans (.setReg _ _ _)

end started

/-! ### DEADLINE_MISS and POOL_WAIT_END (R179, R185, R187) -/

/-- The first picture of a session that has not started is dropped, counted and reported. -/
def State.skipLate (s : State) (n v : Nat) (b : BufFrame) (p : Picture) : State :=
  ((s.letGo (viewSource v) (sesReader n) b.index).setSes n { s.ses n with
    pics := (s.ses n).pics.erase p, lateSkipped := satInc 32 (s.ses n).lateSkipped }).sesFault n 0x08

theorem deadlineMiss_none {s : State} {n : Nat} (h : (s.ses n).pics = []) : deadlineMiss n s = s := by
  unfold deadlineMiss
  dsimp only
  rw [h]
  rfl

theorem deadlineMiss_late {s : State} {n v : Nat} {p : Picture} {b : BufFrame} (h : (s.ses n).pics.find? (fun p => p.target.isNone) = some p)
    (hsource : p.source = some (v, b)) (hlate : serial 40 s.now p.deadline ≠ .earlier) : deadlineMiss n s = s.skipLate n v b p := by
  have hdrop : s.dropPics n [p] = s.letGo (viewSource v) (sesReader n) b.index := by
    unfold State.dropPics
    rw [List.foldl_cons, List.foldl_nil, hsource]
  unfold deadlineMiss
  dsimp only
  rw [h]
  dsimp only
  rw [if_neg (by simp [hsource, hlate]), hdrop]
  rfl

theorem poolWaitEnd_resumes {s : State} {n : Nat} (h : ((s.applyHandles n).sesBufs n).any (fun b => ((s.applyHandles n).pool b).isFree) = true) :
    poolWaitEnd n s = s.setSes n { s.ses n with poolWaiting := false } := if_pos h

theorem poolWaitEnd_waits {s : State} {n : Nat} (h : ((s.applyHandles n).sesBufs n).any (fun b => ((s.applyHandles n).pool b).isFree) = false) :
    poolWaitEnd n s = s := if_neg (by simp [h])

end Sys2Proof.Machine

/-! Codec items that end: the coding of a picture, its record and the ring (R177, R184, R185, R189 to R191, R195). -/

namespace Sys2Proof.Machine

/-! ### Free values of the coding (R176, R189, R195) -/

/-- The second state is the first but for how many free values have been drawn. -/
def DrawsOnly (s t : State) : Prop := t = { s with freeCount := t.freeCount }

theorem DrawsOnly.trans {s t u : State} (h : DrawsOnly s t) (h' : DrawsOnly t u) : DrawsOnly s u := by
  unfold DrawsOnly at *
  rw [h', h]

theorem DrawsOnly.refl (s : State) : DrawsOnly s s := rfl

theorem DrawsOnly.draw (s : State) (k : Nat) : DrawsOnly s { s with freeCount := k } := rfl

theorem State.rowQp_draws (s : State) (cfg : RegFile) (n qp : Nat) (share used : Int) (k rows : Nat) :
    DrawsOnly s (s.rowQp cfg n qp share used k rows).2 := by
  unfold State.rowQp
  split
  · exact .refl s
  · dsimp only
    split
    · exact .draw s _
    · exact .refl s

theorem State.codeRows_draws (cfg : RegFile) (n qp : Nat) (share : Int) (rows left : Nat) (s : State) (used : Int) :
    DrawsOnly s (s.codeRows cfg n qp share rows left used).2 := by
  induction left generalizing s used with
  | zero => exact .refl s
  | succ left ih => exact ((s.rowQp_draws cfg n qp share used _ rows).trans (.draw _ _)).trans (ih _ _)

theorem State.codeTiles_draws (cfg : RegFile) (n qp : Nat) (tiles : List Tile) (s : State) : DrawsOnly s (s.codeTiles cfg n qp tiles).2 := by
  induction tiles generalizing s with
  | nil => exact .refl s
  | cons t tiles ih => exact (State.codeRows_draws cfg n qp _ _ _ s 0).trans (ih _)

theorem State.interCost_draws (s : State) (i : StatInput) (bx by' : Nat) : DrawsOnly s (s.interCost i bx by').2 := .draw s _

theorem State.drawBool_draws (s : State) : DrawsOnly s s.drawBool.2 := .draw s _

theorem State.drawBelow_draws (s : State) (k : Nat) : DrawsOnly s (s.drawBelow k).2 := .draw s _

theorem State.drawFrom_draws (s : State) (d : Int) (l : List Int) : DrawsOnly s (s.drawFrom d l).2 := .draw s _

theorem State.statBlock_draws (s : State) (i : StatInput) (bx by' : Nat) : DrawsOnly s (s.statBlock i bx by').2 := by
  unfold State.statBlock
  dsimp only
  have hchosen (l₁ l₂ : List Int) (k₁ k₂ k₃ : Nat) :
      DrawsOnly s (((((s.drawBool.2.drawFrom 0 l₁).2.drawFrom 0 l₂).2.drawBelow k₁).2.drawBelow k₂).2.drawBelow k₃).2 :=
    ((((s.drawBool_draws.trans (State.drawFrom_draws _ _ _)).trans (State.drawFrom_draws _ _ _)).trans (State.drawBelow_draws _ _)).trans
      (State.drawBelow_draws _ _)).trans (State.drawBelow_draws _ _)
  split
  · dsimp only
    exact hchosen _ _ _ _ _
  · exact (hchosen _ _ _ _ _).trans (State.interCost_draws _ i bx by')

theorem State.statBlocks_draws (i : StatInput) (l : List (Nat × Nat)) (s : State) : DrawsOnly s (s.statBlocks i l).2 := by
  induction l generalizing s with
  | nil => exact .refl s
  | cons c l ih => exact (s.statBlock_draws i c.1 c.2).trans (ih _)

theorem State.drawRows_draws (depth samples k : Nat) (s : State) : DrawsOnly s (s.drawRows depth samples k).2 := by
  induction k generalizing s with
  | zero => exact .refl s
  | succ k ih => exact DrawsOnly.trans (.draw s _) (ih _)

theorem State.drawPlanes_draws (s : State) (form : PoolForm) : DrawsOnly s (s.drawPlanes form).2.2 := by
  unfold State.drawPlanes
  dsimp only
  have hluma := State.drawRows_draws form.depth (form.rowBytes / 2) form.codedH s
  split
  · exact hluma.trans (State.drawRows_draws _ _ _ _)
  · exact hluma

theorem State.drawLengths_draws (k : Nat) (s : State) : DrawsOnly s (s.drawLengths k).2 := by
  induction k generalizing s with
  | zero => exact .refl s
  | succ k ih => exact DrawsOnly.trans (.draw s _) (ih _)

theorem State.drawNals_draws (h264 : Bool) (type ref : Nat) (ks : List Nat) (s : State) : DrawsOnly s (s.drawNals h264 type ref ks).2 := by
  induction ks generalizing s with
  | nil => exact .refl s
  | cons k ks ih => exact DrawsOnly.trans (.draw s _) (ih _)

theorem State.unitBytes_draws (s : State) (u : AccessUnit) (slices : List Nat) : DrawsOnly s (s.unitBytes u slices).2 :=
  ((State.drawLengths_draws _ s).trans (State.drawNals_draws _ _ _ _ _)).trans (State.drawNals_draws _ _ _ _ _)

theorem State.unitOf_draws (s : State) (n : Nat) (p : Picture) (f : BufFrame) (hash : List Nat) : DrawsOnly s (s.unitOf n p f hash).2 := .draw s _

end Sys2Proof.Machine

/-! The end of an encoded picture, and what the coding leaves alone (R184, R185, R189 to R191). -/

namespace Sys2Proof.Machine

/-! ### What the coding of a picture and the Boathouse leave alone -/

/-- The registers below the Boathouse's but FAULT_SES and the read pointers of rings: no report of a failed access and no channel that takes records changes
them. -/
def CodecReg (a : Nat) : Prop := a < 0x30000 ∧ a ≠ Adr.GLS.FAULT_SES ∧ ∀ n < 32, a ≠ Adr.GLS.RD_PTR n

/-- The Glasshouse, and those registers. -/
def State.codecView (s : State) : Glass × ({ a // CodecReg a } → Word) := (s.glass, fun a => s.regs.word a)

theorem State.codecView_eq {s t : State} (hglass : t.glass = s.glass) (hregs : ∀ a, CodecReg a → t.regs.word a = s.regs.word a) :
    t.codecView = s.codecView := Prod.ext hglass (funext fun a => hregs a a.2)

theorem State.word_of_codecView {s t : State} (h : t.codecView = s.codecView) {a : RegAddr} (ha : CodecReg a) : t.regs.word a = s.regs.word a :=
  congrFun (congrArg Prod.snd h) ⟨a, ha⟩

theorem State.rd_of_codecView {s t : State} (h : t.codecView = s.codecView) {a : RegAddr} (ha : CodecReg a) : t.rd a = s.rd a :=
  congrArg BitVec.toNat (State.word_of_codecView h ha)

theorem State.ses_of_codecView {s t : State} (h : t.codecView = s.codecView) (n : Nat) : t.ses n = s.ses n :=
  congrArg (fun g : Glass => SMap.get (fun _ => sessionReset) g.sessions n) (congrArg Prod.fst h)

theorem State.codecView_setReg (s : State) {a : RegAddr} (h : ¬ CodecReg a) (n : Nat) : (s.setReg a n).codecView = s.codecView :=
  State.codecView_eq rfl fun b hb => SameRegsBut.setReg s a n b (by
    rintro hmem
    exact h (List.mem_singleton.mp hmem ▸ hb))

theorem State.codecView_draws {s t : State} (h : DrawsOnly s t) : t.codecView = s.codecView := by
  rw [h]
  rfl

theorem State.codecView_of_draws {α : Type} {s t : State} {a : α} {r : α × State} (h : r = (a, t)) (hdraws : DrawsOnly s r.2) :
    t.codecView = s.codecView := by
  rw [h] at hdraws
  exact State.codecView_draws hdraws

theorem State.codecView_store (s : State) (addr : Nat) (bs : List Byte) : (s.store addr bs).codecView = s.codecView := rfl

theorem State.codecView_upstream (s : State) (unit cause : Nat) : (s.upstream unit cause).codecView = s.codecView :=
  State.codecView_eq (State.upstream_glass s unit cause) fun a ha =>
    BitVec.eq_of_toNat_eq (State.rd_upstream_below s unit cause (a := a) (Nat.lt_trans ha.1 (by decide)))

theorem State.codecView_sesUpstream (s : State) (n cause : Nat) : (s.sesUpstream n cause).codecView = s.codecView :=
  (State.codecView_upstream _ _ _).trans (s.codecView_setReg (fun h => h.2.1 rfl) n)

theorem State.codecView_sesUpstreams (s : State) (n : Nat) (causes : List Nat) :
    (causes.foldl (fun (t : State) c => t.sesUpstream n c) s).codecView = s.codecView :=
  foldl_keeps State.codecView _ (fun t c => t.codecView_sesUpstream n c) causes s

theorem State.codecView_storeRows (pitch : Nat) (rows : List (List Byte)) (s : State) (addr : Nat) :
    (s.storeRows addr pitch rows).1.codecView = s.codecView := by
  induction rows generalizing s addr with
  | nil => rfl
  | cons r rest ih => exact (ih _ _).trans rfl

theorem State.codecView_storePicture (s : State) (b : Nat) (form : PoolForm) (rows crows : List (List Byte)) (motion : List Byte) :
    (s.storePicture b form rows crows motion).1.codecView = s.codecView := by
  unfold State.storePicture
  dsimp only
  rw [State.codecView_store, State.codecView_storeRows, State.codecView_storeRows]

theorem State.codecView_writeStats (s : State) (n : Nat) (p : Picture) (f : BufFrame) (seq : Nat) (rows : List (List (Nat × Nat))) :
    (s.writeStats n p f seq rows).codecView = s.codecView := by
  unfold State.writeStats
  split
  · rfl
  · extract_lets form across down head coded i
    split
    rename_i body t hbody
    have ht := State.codecView_of_draws hbody (State.statBlocks_draws i _ s)
    dsimp only
    rw [State.codecView_store, State.codecView_store, State.codecView_store]
    split
    · exact (t.codecView_sesUpstream n _).trans ht
    · exact ht

/-! ### The end of a picture (R184, R185, R189 to R191) -/

/-- With no record waiting, a record names the ring that its session uses (R46). -/
def State.withRing (s : State) (n : Nat) (ring : Nat × Nat) : State :=
  if (s.ses n).stalled.isEmpty then s.setSes n { s.ses n with ring := ring } else s

/-- A record enters its session's ring where it fits and none waits before it; else it waits, and its engine stalls (R191). -/
def State.storeOrWait (s : State) (n : Nat) (r : StalledRecord) : State :=
  if (s.ses n).stalled.isEmpty && decide ((r.bytes.length : Int) ≤ s.ringFree n) then (s.unstall n r []).settleStop n
  else s.setSes n { s.ses n with stalled := (s.ses n).stalled ++ [r], ringStalls := satInc 16 (s.ses n).ringStalls }

/-- A record is complete. -/
def State.enterRecord (s : State) (n : Nat) (r : StalledRecord) : State := (s.withRing n r.ring).storeOrWait n r

/-- A picture of a view's buffer leaves its session, which goes on as `x`: its marks slide, its source is let go, and it is counted. -/
def State.closePicture (s : State) (n v : Nat) (f : BufFrame) (cfg : RegFile) (x : Session) : State :=
  (((s.setSes n x).slideRefs n cfg).letGo (viewSource v) (sesReader n) f.index).bump (Adr.GLS.PICTURES n)

theorem rcEnd_session (cfg : RegFile) (n : Nat) (x : Session) (bits : Int) :
    (rcEnd cfg n x bits).1.pics = x.pics ∧ (rcEnd cfg n x bits).1.prevSeq = x.prevSeq ∧ (rcEnd cfg n x bits).1.stalled = x.stalled := by
  unfold rcEnd
  dsimp only
  split
  · exact ⟨rfl, rfl, rfl⟩
  · exact ⟨rfl, rfl, rfl⟩

/-- A session after its picture `p` has ended. -/
structure PictureEnds (x : Session) (p : Picture) (y : Session) : Prop where
  seq : y.seq = (x.seq + 1) % 2 ^ 32
  pics : y.pics = x.pics.erase p
  prevSeq : y.prevSeq = x.prevSeq
  stalled : y.stalled = x.stalled

/-- The last item of an encoded picture: the coding leaves the session and its registers, the picture ends, and its record enters the ring or waits. -/
theorem State.encodeEnd_eq (s : State) (n e b : Nat) (p : Picture) (v : Nat) (f : BufFrame) :
    ∃ (t : State) (x : Session) (r : StalledRecord), r.engine = e ∧ t.codecView = s.codecView ∧ PictureEnds (s.ses n) p x ∧
      s.encodeEnd n e b p v f = (t.closePicture n v f p.cfg x).enterRecord n r := by
  unfold State.encodeEnd
  extract_lets seq form len failed s1
  have hview1 : s1.codecView = s.codecView := s.codecView_sesUpstreams n failed
  split
  rename_i rows s2 htiles
  extract_lets s3
  split
  rename_i planes crows s4 hplanes
  split
  rename_i motion s5 hmotion
  split
  rename_i s6 werr hstored
  extract_lets s7
  split
  rename_i u s8 hunit
  split
  rename_i au s9 hbytes
  have hview2 : s2.codecView = s.codecView := (State.codecView_of_draws htiles (State.codeTiles_draws _ _ _ _ s1)).trans hview1
  have hview3 : s3.codecView = s.codecView := (s2.codecView_writeStats n p f seq rows).trans hview2
  have hview4 : s4.codecView = s.codecView := by
    have hdraws := State.drawPlanes_draws s3 form
    rw [hplanes] at hdraws
    exact (State.codecView_draws hdraws).trans hview3
  have hview5 : s5.codecView = s.codecView := (State.codecView_of_draws hmotion (.draw s4 _)).trans hview4
  have hview6 : s6.codecView = s.codecView := by
    have hpicture := s5.codecView_storePicture b form planes crows motion
    rw [hstored] at hpicture
    exact hpicture.trans hview5
  have hview7 : s7.codecView = s.codecView := by
    unfold s7
    split
    · exact (s6.codecView_sesUpstream n _).trans hview6
    · exact hview6
  have hview8 : s8.codecView = s.codecView := (State.codecView_of_draws hunit (s7.unitOf_draws n p f _)).trans hview7
  have hview9 : s9.codecView = s.codecView := (State.codecView_of_draws hbytes (s8.unitBytes_draws u _)).trans hview8
  split
  rename_i x filler hot hbuckets
  have hsession := rcEnd_session p.cfg n (s9.ses n) (8 * au.length)
  rw [hbuckets, State.ses_of_codecView hview9] at hsession
  obtain ⟨hpics, hprev, hstalled⟩ := hsession
  refine ⟨s9, _, { bytes := _, engine := e, ring := sesRing p.cfg n }, rfl, hview9, ?_, rfl⟩
  exact ⟨rfl, congrArg (fun l => l.erase p) hpics, hprev, hstalled⟩

end Sys2Proof.Machine

/-! The channels of the Boathouse that take the records of a ring, and what they leave alone (R206 to R212). -/

namespace Sys2Proof.Machine

theorem State.codecView_setReg_above (s : State) {a : Nat} (h : 0x30000 ≤ a) (n : Nat) : (s.setReg a n).codecView = s.codecView :=
  s.codecView_setReg (fun ha => absurd ha.1 (Nat.not_lt.mpr h)) n

theorem State.codecView_setReg_rdPtr (s : State) (c n : Nat) : (s.setReg (Adr.GLS.RD_PTR (Fld.BTH.CH_CFG_SRC s.regs c)) n).codecView = s.codecView :=
  s.codecView_setReg (fun ha => ha.2.2 _ (bits_lt _ _ _) rfl) n

theorem State.codecView_setMember (s : State) (m : Nat) (x : Member) : (s.setMember m x).codecView = s.codecView := rfl

theorem State.codecView_setRecChan (s : State) (c : Nat) (x : Chan) : (s.setRecChan c x).codecView = s.codecView := rfl

theorem State.codecView_fault (s : State) (unit code : Nat) : (s.fault unit code).codecView = s.codecView := rfl

theorem State.codecView_setCh (s : State) (c st reason : Nat) : (s.setCh c st reason).codecView = s.codecView :=
  s.codecView_setReg_above (by unfold Adr.BTH.CH_STAT; omega) _

theorem State.codecView_storeSeen (s : State) (addr : Nat) (bs : List Byte) : (s.storeSeen addr bs).codecView = s.codecView := by
  unfold State.storeSeen State.outOfRange
  split
  · rfl
  · rfl

theorem State.codecView_stageCmd (s : State) (m : Nat) (c : MemberCmd) : (s.stageCmd m c).2.codecView = s.codecView := by
  unfold State.stageCmd
  dsimp only
  split
  · rfl
  · refine foldl_keeps State.codecView _ (fun t b => ?_) _ s
    split
    · split
      · rfl
      · exact t.codecView_storeSeen _ _
    · rfl

theorem State.codecView_command (s : State) (m : Nat) (op : MemberOp) (blocks : List Block) (addr bytes : Nat) (u : MemberUse) :
    (s.command m op blocks addr bytes u).codecView = s.codecView := by
  unfold State.command
  dsimp only
  rw [State.codecView_setMember]
  split
  · exact s.codecView_stageCmd _ _
  · rfl

theorem State.codecView_issueSpan (v : Nat) (isWrite : Bool) (u : MemberUse) (fuel : Nat) (s : State) (o len : Nat) (blocks : List Block) :
    (s.issueSpan v isWrite u fuel o len blocks).codecView = s.codecView := by
  induction fuel generalizing s o len blocks with
  | zero => rfl
  | succ fuel ih =>
    unfold State.issueSpan
    split
    · rfl
    · exact (ih _ _ _ _).trans (s.codecView_command _ _ _ _ _ _)

theorem State.drawWords_draws (k : Nat) (s : State) : DrawsOnly s (s.drawWords k).2 := by
  induction k generalizing s with
  | zero => exact .refl s
  | succ k ih => exact DrawsOnly.trans (.draw s _) (ih _)

theorem State.chanRecord_draws (s : State) (c : Nat) (t : Take) (type reason gapFirst gapCount : Nat) (header : List Byte) :
    DrawsOnly s (s.chanRecord c t type reason gapFirst gapCount header).2 := by
  unfold State.chanRecord
  dsimp only
  split
  · exact .refl s
  · exact State.drawWords_draws 3 s

theorem State.codecView_appendJournal (s : State) (v : Nat) (r : JournalRec) : (s.appendJournal v r).codecView = s.codecView :=
  (State.codecView_setReg_above _ (by unfold Adr.BTH.JNL_USED; omega) _).trans (s.codecView_command _ _ _ _ _ _)

/-- A journal record of a channel's take. -/
theorem State.codecView_journal (s : State) (c : Nat) (t : Take) (type reason gapFirst gapCount : Nat) (header : List Byte) (v : Nat) :
    ((s.chanRecord c t type reason gapFirst gapCount header).2.appendJournal v (s.chanRecord c t type reason gapFirst gapCount header).1).codecView =
      s.codecView :=
  (State.codecView_appendJournal _ _ _).trans (State.codecView_draws (s.chanRecord_draws _ _ _ _ _ _ _))

theorem State.codecView_endTake (s : State) (c : Nat) (t : Take) (reason : Nat) : (s.endTake c t reason).codecView = s.codecView := by
  unfold State.endTake
  extract_lets u
  have hu : u.codecView = s.codecView := s.codecView_setReg_above (by unfold Adr.BTH.APPEND; omega) _
  split
  · exact (u.codecView_journal _ _ _ _ _ _ _ _).trans hu
  · exact hu

theorem State.codecView_haltChan (s : State) (c reason : Nat) (endReason : Option Nat) : (s.haltChan c reason endReason).codecView = s.codecView := by
  unfold State.haltChan
  extract_lets x halted u
  have hhalted : halted.codecView = s.codecView := s.codecView_setCh c 3 reason
  have hu : u.codecView = s.codecView := by
    unfold u
    split
    · exact (halted.codecView_endTake _ _ _).trans hhalted
    · exact hhalted
  split
  · exact (State.codecView_setReg_rdPtr (u.setRecChan c _) c _).trans hu
  · exact hu

theorem State.codecView_chanJournal (s : State) (c : Nat) (t : Take) (type gapFirst gapCount : Nat) (header : List Byte) :
    (s.chanJournal c t type gapFirst gapCount header).2.codecView = s.codecView := by
  unfold State.chanJournal
  split
  · exact s.codecView_journal _ _ _ _ _ _ _ _
  · exact (State.codecView_setReg_above _ (by decide) _).trans (s.codecView_haltChan _ _ _)

theorem State.codecView_setTake (s : State) (c : Nat) (t : Take) : (s.setTake c t).codecView = s.codecView := rfl

theorem State.codecView_holdItem (s : State) (c : Nat) (i : ChanItem) : (s.holdItem c i).codecView = s.codecView := by
  unfold State.holdItem
  split
  · rfl
  · rfl

/-- A journal record that is written on a condition. -/
theorem State.codecView_journalIf {s u v w : State} {b : Prop} [Decidable b] {ok : Bool} {c : Nat} {t : Take} {type gapFirst gapCount : Nat}
    {header : List Byte} (h : (if b then u.chanJournal c t type gapFirst gapCount header else (true, w)) = (ok, v))
    (hu : u.codecView = s.codecView) (hw : w.codecView = s.codecView) : v.codecView = s.codecView := by
  split at h
  · have hjournal := u.codecView_chanJournal c t type gapFirst gapCount header
    rw [h] at hjournal
    exact hjournal.trans hu
  · exact (Prod.mk.inj h).2 ▸ hw

theorem State.codecView_takeItem (s : State) (c : Nat) (i : ChanItem) : (s.takeItem c i).codecView = s.codecView := by
  unfold State.takeItem
  split
  · rfl
  extract_lets -underBinder codec isFirst t
  split
  rename_i ok u hstart
  have hu : u.codecView = s.codecView := State.codecView_journalIf hstart (s.codecView_setTake c t) rfl
  split
  · exact (u.codecView_holdItem c i).trans hu
  extract_lets -underBinder ofs size epoch
  split
  · rw [State.codecView_holdItem, State.codecView_fault, State.codecView_haltChan, State.codecView_setTake, hu]
  split
  rename_i ok v hepoch
  have hv : v.codecView = s.codecView := State.codecView_journalIf hepoch hu hu
  split
  · exact (v.codecView_holdItem c i).trans hv
  extract_lets -underBinder gap
  split
  rename_i ok w hgap
  have hw : w.codecView = s.codecView := State.codecView_journalIf hgap hv hv
  split
  · exact (w.codecView_holdItem c i).trans hw
  extract_lets -underBinder x o o0 len
  have hx : x.codecView = s.codecView := by
    unfold x
    split
    · exact (w.codecView_setReg_above (by unfold Adr.BTH.GAPS; omega) _).trans hw
    · exact hw
  split
  rename_i blocks tail hblocks
  exact (State.codecView_setRecChan _ _ _).trans ((x.codecView_issueSpan _ _ _ _ _ _ _).trans hx)

theorem State.codecView_ebeRelease (s : State) (n key : Nat) : (s.ebeRelease n key).codecView = s.codecView := rfl

theorem State.codecView_releaseItem (s : State) (c : Nat) (i : ChanItem) : (s.releaseItem c i).codecView = s.codecView := by
  unfold State.releaseItem
  split
  · exact s.codecView_setReg_rdPtr c _
  · exact s.codecView_ebeRelease _ _

theorem State.codecView_releaseFront (s : State) (c fuel : Nat) : (s.releaseFront c fuel).codecView = s.codecView := by
  induction fuel generalizing s with
  | zero => rfl
  | succ fuel ih =>
    unfold State.releaseFront
    extract_lets x
    split
    · split
      · exact (ih _).trans ((State.codecView_releaseItem _ _ _).trans (s.codecView_setRecChan c _))
      · extract_lets -underBinder startOut
        split
        · rfl
        · exact (ih _).trans ((State.codecView_releaseItem _ _ _).trans
            ((State.codecView_setReg_above _ (by unfold Adr.BTH.CH_LAST; omega) _).trans (s.codecView_setRecChan c _)))
    · rfl

theorem State.codecView_codecPump (s : State) (c fuel : Nat) : (s.codecPump c fuel).codecView = s.codecView := by
  induction fuel generalizing s with
  | zero => rfl
  | succ fuel ih =>
    unfold State.codecPump
    extract_lets -underBinder src wr x
    split
    · split
      · rfl
      · split
        extract_lets -underBinder t waiting
        split
        · exact (ih _).trans ((State.codecView_setReg_rdPtr t c _).trans (s.codecView_setRecChan c _))
        · exact (ih _).trans ((State.codecView_takeItem t c _).trans (s.codecView_setRecChan c _))
    · split
      · exact s.codecView_releaseFront c _
      · split
        exact (ih _).trans (s.codecView_setRecChan c _)
    · exact (State.codecView_setReg_rdPtr (s.setRecChan c _) c _).trans (s.codecView_setRecChan c _)

theorem State.codecView_codecAppear (s : State) (n : Nat) : (s.codecAppear n).codecView = s.codecView := by
  refine foldl_keeps State.codecView _ (fun t c => ?_) _ s
  split
  · exact t.codecView_codecPump c _
  · rfl

end Sys2Proof.Machine

/-! A record in its ring, the last item of a picture, and the course of codec pictures (R178, R184, R189 to R191). -/

namespace Sys2Proof.Machine

/-! ### A record enters its ring (R190, R191) -/

theorem State.codecView_ringStore (s : State) (n o : Nat) (bs : List Byte) : (s.ringStore n o bs).codecView = s.codecView := by
  unfold State.ringStore
  split
  · rfl
  · split
    split
    · rfl
    · rfl

/-- The record's bytes are in the ring, and not yet its WR_PTR. -/
theorem State.putRecord_eq (s : State) (n : Nat) (r : List Byte) :
    ∃ (t : State) (wr : Nat), t.codecView = s.codecView ∧ s.putRecord n r = (t.setReg (Adr.GLS.WR_PTR n) wr).codecAppear n :=
  ⟨_, _, (State.codecView_ringStore _ _ _ _).trans (s.codecView_sesUpstreams n _), rfl⟩

theorem State.putRecord_ses (s : State) (n : Nat) (r : List Byte) (m : Nat) : (s.putRecord n r).ses m = s.ses m := by
  obtain ⟨t, wr, ht, hput⟩ := s.putRecord_eq n r
  rw [hput, State.ses_of_codecView (State.codecView_codecAppear _ _), ← State.ses_of_codecView ht]
  rfl

theorem State.putRecord_rd (s : State) (n : Nat) (r : List Byte) {a : Nat} (ha : CodecReg a) (hwr : a ≠ Adr.GLS.WR_PTR n) :
    (s.putRecord n r).rd a = s.rd a := by
  obtain ⟨t, wr, ht, hput⟩ := s.putRecord_eq n r
  rw [hput, State.rd_of_codecView (State.codecView_codecAppear _ _) ha, State.rd_setReg, if_neg hwr, State.rd_of_codecView ht ha]

section unstall
variable (s : State) (n : Nat) (r : StalledRecord) (rest : List StalledRecord)

theorem State.unstall_ses : (s.unstall n r rest).ses n = { s.ses n with stalled := rest } :=
  (State.putRecord_ses _ n r.bytes n).trans (State.ses_setSes_same _ _ _)

theorem State.unstall_rd {a : Nat} (ha : CodecReg a) (hwr : a ≠ Adr.GLS.WR_PTR n) (he : a ≠ Adr.GLC.ENG_SES r.engine) :
    (s.unstall n r rest).rd a = s.rd a := by
  have hclear : SameRegsBut [Adr.GLC.ENG_SES r.engine] _ (s.unstall n r rest) := .putFld (State.setFld_regs _ _ _ _ _)
  rw [hclear.rd (by simpa using he), State.putRecord_rd _ _ _ ha hwr]
  rfl

theorem State.unstall_valid : Fld.GLC.ENG_SES_VALID (s.unstall n r rest).regs r.engine = 0 :=
  State.fld_setFld_same _ _ 8 1 0 (by decide)

end unstall

theorem State.settleStop_running {s : State} {n : Nat} (h : s.sesState n = 1) : s.settleStop n = s :=
  if_neg fun hstop => absurd (h.symm.trans hstop.1) (by decide)

theorem codecReg_below {a : Nat} (h : a < Adr.GLS.FAULT_SES) : CodecReg a := by
  unfold Adr.GLS.FAULT_SES at h
  refine ⟨by omega, by unfold Adr.GLS.FAULT_SES; omega, fun m _ => by unfold Adr.GLS.RD_PTR; omega⟩

theorem codecReg_sesStat {n : Nat} (h : n < 32) : CodecReg (Adr.GLS.SES_STAT n) := by
  unfold Adr.GLS.SES_STAT
  refine ⟨by omega, by unfold Adr.GLS.FAULT_SES; omega, fun m _ => by unfold Adr.GLS.RD_PTR; omega⟩

theorem codecReg_pictures {n : Nat} (h : n < 32) : CodecReg (Adr.GLS.PICTURES n) := by
  unfold Adr.GLS.PICTURES
  refine ⟨by omega, by unfold Adr.GLS.FAULT_SES; omega, fun m _ => by unfold Adr.GLS.RD_PTR; omega⟩

/-- What a state is after a record of a running session has come to its ring: the record is in it and its engine free, or it waits. -/
structure RecordEnters (s : State) (n : Nat) (r : StalledRecord) (t : State) : Prop where
  seq : (t.ses n).seq = (s.ses n).seq
  pics : (t.ses n).pics = (s.ses n).pics
  prevSeq : (t.ses n).prevSeq = (s.ses n).prevSeq
  regs : ∀ {a : Nat}, CodecReg a → a ≠ Adr.GLS.WR_PTR n → a ≠ Adr.GLC.ENG_SES r.engine → t.rd a = s.rd a
  outcome : (s.ses n).stalled = [] ∧ (t.ses n).stalled = [] ∧ Fld.GLC.ENG_SES_VALID t.regs r.engine = 0 ∨
    (t.ses n).stalled = (s.ses n).stalled ++ [r] ∧ t.regs = s.regs

theorem State.withRing_ses (s : State) (n : Nat) (ring : Nat × Nat) : ∃ r, (s.withRing n ring).ses n = { s.ses n with ring := r } := by
  unfold State.withRing
  split
  · exact ⟨ring, State.ses_setSes_same _ _ _⟩
  · exact ⟨(s.ses n).ring, rfl⟩

theorem State.withRing_regs (s : State) (n : Nat) (ring : Nat × Nat) : (s.withRing n ring).regs = s.regs := by
  unfold State.withRing
  split
  · rfl
  · rfl

theorem State.storeOrWait_enters {s : State} {n : Nat} (hn : n < 32) (hrun : s.sesState n = 1) (r : StalledRecord) (he : r.engine < 6) :
    RecordEnters s n r (s.storeOrWait n r) := by
  unfold State.storeOrWait
  split
  next hfits =>
    have hempty : (s.ses n).stalled = [] := List.isEmpty_iff.mp (Bool.and_eq_true_iff.mp hfits).1
    have hstat : (s.unstall n r []).sesState n = 1 := by
      rw [State.sesState, State.unstall_rd _ _ _ _ (codecReg_sesStat hn) (by unfold Adr.GLS.SES_STAT Adr.GLS.WR_PTR; omega)
        (by unfold Adr.GLS.SES_STAT Adr.GLC.ENG_SES; omega)]
      exact hrun
    have hx := State.unstall_ses s n r []
    rw [State.settleStop_running hstat]
    exact ⟨by rw [hx], by rw [hx], by rw [hx], State.unstall_rd _ _ _ _, .inl ⟨hempty, by rw [hx], State.unstall_valid _ _ _ _⟩⟩
  next =>
    have hx := State.ses_setSes_same s n { s.ses n with stalled := (s.ses n).stalled ++ [r], ringStalls := satInc 16 (s.ses n).ringStalls }
    exact ⟨by rw [hx], by rw [hx], by rw [hx], fun _ _ _ => rfl, .inr ⟨by rw [hx], rfl⟩⟩

theorem State.enterRecord_enters {s : State} {n : Nat} (hn : n < 32) (hrun : s.sesState n = 1) (r : StalledRecord) (he : r.engine < 6) :
    RecordEnters s n r (s.enterRecord n r) := by
  obtain ⟨ring, hses⟩ := s.withRing_ses n r.ring
  have hregs := s.withRing_regs n r.ring
  have hrd (a : Nat) : (s.withRing n r.ring).rd a = s.rd a := congrArg (fun rf : RegFile => (rf.word a).toNat) hregs
  obtain ⟨hseq, hpics, hprev, hkept, houtcome⟩ := State.storeOrWait_enters hn ((hrd _).trans hrun) r he
  rw [hses] at hseq hpics hprev houtcome
  exact ⟨hseq, hpics, hprev, fun ha hwr heng => (hkept ha hwr heng).trans (hrd _), houtcome.imp_right fun h => ⟨h.1, h.2.trans hregs⟩⟩

/-! ### The last item of an encoded picture (R184, R185, R189) -/

theorem State.slideRefs_ses (s : State) (n : Nat) (cfg : RegFile) : ∃ shorts, (s.slideRefs n cfg).ses n = { s.ses n with shorts := shorts } :=
  ⟨_, State.ses_setSes_same _ _ _⟩

theorem State.slideRefs_regs (s : State) (n : Nat) (cfg : RegFile) : (s.slideRefs n cfg).regs = s.regs :=
  (State.setSes_regs _ _ _).trans (foldl_keeps State.regs (fun t b => t.markBuf b 0) (fun _ _ => rfl) _ s)

section closePicture
variable (s : State) (n v : Nat) (f : BufFrame) (cfg : RegFile) (x : Session)

theorem State.closePicture_ses : ∃ shorts, (s.closePicture n v f cfg x).ses n = { x with shorts := shorts } := by
  obtain ⟨shorts, h⟩ := (s.setSes n x).slideRefs_ses n cfg
  rw [State.ses_setSes_same] at h
  exact ⟨shorts, h⟩

theorem State.closePicture_pictures : (s.closePicture n v f cfg x).rd (Adr.GLS.PICTURES n) = satInc 32 (s.rd (Adr.GLS.PICTURES n)) := by
  rw [State.closePicture, State.rd_bump_same]
  exact congrArg (fun rf : RegFile => satInc 32 (rf.word (Adr.GLS.PICTURES n)).toNat) ((s.setSes n x).slideRefs_regs n cfg)

theorem SameRegsBut.closePicture : SameRegsBut [Adr.GLS.PICTURES n] s (s.closePicture n v f cfg x) :=
  have hslide : SameRegsBut [] s (((s.setSes n x).slideRefs n cfg).letGo (viewSource v) (sesReader n) f.index) :=
    .refl [] ((s.setSes n x).slideRefs_regs n cfg)
  hslide.trans (.bump _ _)

end closePicture

/-- What a state is after the last item of picture `p` of a running encode session, on engine `e`. -/
structure EncodeEnds (s : State) (n e : Nat) (p : Picture) (t : State) : Prop where
  seq : (t.ses n).seq = ((s.ses n).seq + 1) % 2 ^ 32
  pics : (t.ses n).pics = (s.ses n).pics.erase p
  prevSeq : (t.ses n).prevSeq = (s.ses n).prevSeq
  pictures : t.rd (Adr.GLS.PICTURES n) = satInc 32 (s.rd (Adr.GLS.PICTURES n))
  items : t.rd (Adr.GLC.ENG_ITEMS e) = s.rd (Adr.GLC.ENG_ITEMS e)
  record : (s.ses n).stalled = [] ∧ (t.ses n).stalled = [] ∧ Fld.GLC.ENG_SES_VALID t.regs e = 0 ∨
    (∃ r, (t.ses n).stalled = (s.ses n).stalled ++ [r] ∧ r.engine = e) ∧ Fld.GLC.ENG_SES_VALID t.regs e = Fld.GLC.ENG_SES_VALID s.regs e

theorem State.encodeEnd_ends {s : State} {n e : Nat} (hn : n < 32) (he : e < 6) (hrun : s.sesState n = 1) (b : Nat) (p : Picture) (v : Nat) (f : BufFrame) :
    EncodeEnds s n e p (s.encodeEnd n e b p v f) := by
  obtain ⟨t, x, r, rfl, ht, hx, hend⟩ := s.encodeEnd_eq n e b p v f
  have hclose : SameRegsBut [Adr.GLS.PICTURES n] t (t.closePicture n v f p.cfg x) := .closePicture t n v f p.cfg x
  obtain ⟨shorts, hses⟩ := t.closePicture_ses n v f p.cfg x
  have hkept {a : Nat} (hcodec : CodecReg a) (ha : a ≠ Adr.GLS.PICTURES n) : (t.closePicture n v f p.cfg x).rd a = s.rd a :=
    (hclose.rd (by simpa using ha)).trans (State.rd_of_codecView ht hcodec)
  have hstat : (t.closePicture n v f p.cfg x).sesState n = 1 :=
    (hkept (codecReg_sesStat hn) (by unfold Adr.GLS.SES_STAT Adr.GLS.PICTURES; omega)).trans hrun
  obtain ⟨hseq, hpics, hprev, hregs, hrecord⟩ := State.enterRecord_enters hn hstat r he
  rw [← hend, hses] at hseq hpics hprev hrecord
  rw [← hend] at hregs
  refine ⟨hseq.trans hx.seq, hpics.trans hx.pics, hprev.trans hx.prevSeq, ?_, ?_, ?_⟩
  · rw [hregs (codecReg_pictures hn) (by unfold Adr.GLS.PICTURES Adr.GLS.WR_PTR; omega) (by unfold Adr.GLS.PICTURES Adr.GLC.ENG_SES; omega),
      State.closePicture_pictures, State.rd_of_codecView ht (codecReg_pictures hn)]
  · have hitems : CodecReg (Adr.GLC.ENG_ITEMS r.engine) := codecReg_below (by unfold Adr.GLC.ENG_ITEMS Adr.GLS.FAULT_SES; omega)
    rw [hregs hitems (by unfold Adr.GLC.ENG_ITEMS Adr.GLS.WR_PTR; omega) (by unfold Adr.GLC.ENG_ITEMS Adr.GLC.ENG_SES; omega),
      hkept hitems (by unfold Adr.GLC.ENG_ITEMS Adr.GLS.PICTURES; omega)]
  · rw [← hx.stalled]
    refine hrecord.imp_right fun ⟨hstalled, hsame⟩ => ⟨⟨r, hstalled, rfl⟩, ?_⟩
    have heng : CodecReg (Adr.GLC.ENG_SES r.engine) := codecReg_below (by unfold Adr.GLC.ENG_SES Adr.GLS.FAULT_SES; omega)
    rw [hsame]
    exact congrArg (fun k => bits k 8 1) (hkept heng (by unfold Adr.GLC.ENG_SES Adr.GLS.PICTURES; omega))

/-! ### WORK_ITEM_DONE (R178) -/

/-- An item of a picture has ended on an engine, with its failed reads. -/
def Picture.endItem (p : Picture) (e : Nat) (reads : BadBeats) : Picture :=
  { p with running := p.running.filter (fun i => i != e), bad := p.bad ++ reads }

/-- An engine's item of a picture has ended. -/
def State.endItem (s : State) (n e : Nat) (p : Picture) (reads : BadBeats) : State :=
  (s.setSes n { s.ses n with pics := (s.ses n).putPic (p.endItem e reads) }).bump (Adr.GLC.ENG_ITEMS e)

theorem State.endItem_ses (s : State) (n e : Nat) (p : Picture) (reads : BadBeats) :
    (s.endItem n e p reads).ses n = { s.ses n with pics := (s.ses n).putPic (p.endItem e reads) } := State.ses_setSes_same _ _ _

theorem State.endItem_rd_other (s : State) (n e : Nat) (p : Picture) (reads : BadBeats) {a : Nat} (h : a ≠ Adr.GLC.ENG_ITEMS e) :
    (s.endItem n e p reads).rd a = s.rd a := State.rd_bump_other _ _ _ h

theorem workItemDone_idle {s : State} {e : Nat} (reads : BadBeats) (h : Fld.GLC.ENG_SES_VALID s.regs e = 0) : workItemDone e reads s = s := if_pos h

section item
variable {s : State} {n e : Nat} {p : Picture} (reads : BadBeats) (hbusy : Fld.GLC.ENG_SES_VALID s.regs e = 1)
  (hsession : Fld.GLC.ENG_SES_SESSION s.regs e = n) (hitem : (s.ses n).pics.find? (fun p => p.running.contains e) = some p)
include hbusy hsession hitem

theorem workItemDone_more (hmore : p.waiting ≠ []) : workItemDone e reads s = (s.endItem n e p reads).setFld (Adr.GLC.ENG_SES e) 8 1 0 := by
  unfold workItemDone
  rw [if_neg (by rw [hbusy]; decide), hsession]
  dsimp only
  rw [hitem]
  dsimp only
  exact if_pos (by simp [hmore])

theorem workItemDone_last {b v : Nat} {f : BufFrame} (hlast : p.waiting = []) (honly : p.running = [e]) (htarget : p.target = some b)
    (hsource : p.source = some (v, f)) : workItemDone e reads s = (s.endItem n e p reads).encodeEnd n e b (p.endItem e reads) v f := by
  unfold workItemDone
  rw [if_neg (by rw [hbusy]; decide), hsession]
  dsimp only
  rw [hitem]
  dsimp only
  rw [if_neg (by simp [hlast, honly])]
  split
  next b' v' f' hb hf =>
    obtain rfl := Option.some.inj (htarget.symm.trans hb)
    obtain ⟨rfl, rfl⟩ := Prod.mk.inj (Option.some.inj (hsource.symm.trans hf))
    rfl
  next hf => exact absurd (hsource.symm.trans hf) (Option.some_ne_none _)
  next hb => exact absurd (htarget.symm.trans hb) (Option.some_ne_none _)

end item

/-- Of pictures in different places, the first alone is replaced. -/
theorem Session.putPic_first {x : Session} {p q : Picture} {rest : List Picture} (h : x.pics = p :: rest)
    (hplace : p.slot = q.slot ∧ p.ringAt = q.ringAt ∧ p.source = q.source)
    (hrest : ∀ r ∈ rest, ¬ (r.slot = q.slot ∧ r.ringAt = q.ringAt ∧ r.source = q.source)) : x.putPic q = q :: rest := by
  unfold Session.putPic
  rw [h, List.map_cons, if_pos hplace]
  exact congrArg (q :: ·) ((List.map_congr_left fun r hr => if_neg (hrest r hr)).trans rest.map_id')

/-- An item that ends alone for its picture leaves that picture, without it, at the front of its session. -/
theorem State.endItem_first {s : State} {n e : Nat} {p : Picture} {rest : List Picture} (hpics : (s.ses n).pics = p :: rest)
    (hplaces : ∀ q ∈ rest, ¬ (q.slot = p.slot ∧ q.ringAt = p.ringAt ∧ q.source = p.source)) (reads : BadBeats) :
    (s.endItem n e p reads).ses n = { s.ses n with pics := p.endItem e reads :: rest } := by
  rw [State.endItem_ses, Session.putPic_first (q := p.endItem e reads) hpics ⟨rfl, rfl, rfl⟩ hplaces]

/-- Settles O35: each command of a picture's course by what it does to its session, to its engine and to the pool; a record that comes to its ring leaves
every register of the Glasshouse but its WR_PTR, the read pointers of rings and FAULT_SES, since a channel of the Boathouse changes no other. -/
theorem enginesTakePictures : Obligations.EnginesTakePictures := by
  unfold Obligations.EnginesTakePictures
  intro s n e slot hrun hslot
  rw [← State.sesSlotTime] at hslot
  subst hslot
  refine ⟨?idle, ?takes, ?mismatch, ?nothing, ?started, ?starts, ?full, ?earliest, ?noPicture, ?late, ?resumes, ?stillFull, ?noItem, ?more, ?last⟩
  case idle => exact fun h => .of_answer rfl rfl (encodeSlot_idle h)
  case takes =>
    intro b hstate henc hpace hreached hnewest hmatch
    refine .of_answer rfl rfl ?_
    rw [encodeSlot_takes hstate henc hpace hreached hnewest hmatch, State.ses_settle, State.takePicture_ses, State.nextSesSlot_ses,
      State.isHeld_settle, State.takePicture_isHeld, State.settle_regs, State.takePicture_regs, State.settle_dram, State.takePicture_dram]
    exact ⟨rfl, ⟨s.slotPicture n b, rfl, rfl, rfl, rfl, rfl, rfl⟩, rfl, rfl, rfl⟩
  case mismatch =>
    intro b hstate henc hpace hreached hnewest hmatch
    refine .of_answer rfl rfl ?_
    rw [encodeSlot_mismatch hstate henc hpace hreached hnewest hmatch, State.ses_settle, State.countMismatch_ses, State.nextSesSlot_ses,
      State.settle_held, State.settle_dram, State.countMismatch_dram]
    refine ⟨rfl, rfl, rfl, fun hfirst => State.mem_countMismatch _ _ ?_, rfl⟩
    rw [State.nextSesSlot_ses]
    exact hfirst
  case nothing => exact fun h => .of_answer rfl rfl (h.elim engineDispatch_busy engineDispatch_nothing)
  case started => exact fun k d p b hfree hfirst hitem htarget => .of_answer rfl rfl (engineDispatch_started hfree hfirst hitem htarget)
  case starts =>
    intro k d p rest b hfree hfirst hpics hwait htarget hcmds hbuf
    obtain ⟨q, t, hstart, ht⟩ := State.pictureStart_free hcmds p hbuf
    refine .of_answer rfl rfl ?_
    rw [engineDispatch_starts hfree hfirst (Session.itemOf_head hpics hwait) htarget hstart, State.settle_rd, State.settle_rd, State.ses_settle,
      State.settle_dram, State.pool_settle_mark, State.pool_settle_stamp, State.startItem_pool, State.startItem_dram]
    refine ⟨ht.gen e.isLt, ht.mark, ht.stamp, State.rd_setReg_same _ _ _,
      ⟨_, ht.ses_head hpics, ht.target, ?_⟩, ?_, ht.dram, ht.sameRegs.settle⟩
    · rw [Picture.startItem, ht.running]
    · rw [State.startItem_ses]
      exact ht.compared
  case full =>
    intro k d p rest hfree hfirst hpics hwait htarget hcmds hbuf
    refine .of_answer rfl rfl ?_
    rw [engineDispatch_waits hfree hfirst (Session.itemOf_head hpics hwait) htarget
      (State.pictureStart_full p ((State.applyHandles_bufs hcmds).trans hbuf)), State.ses_settle, State.ses_setSes_same, State.applyHandles_ses hcmds,
      State.settle_regs, State.setSes_regs, State.applyHandles_none hcmds]
    exact ⟨rfl, rfl, rfl⟩
  case earliest =>
    intro k d hnear hfirst
    obtain ⟨hmem, hbefore⟩ := State.earliest_readyFor (fun j hj => of_decide_eq_true (List.all_eq_true.mp hnear j hj)) hfirst
    exact ⟨hmem, List.all_eq_true.mpr fun j hj => decide_eq_true (hbefore j hj)⟩
  case noPicture => exact fun h => .of_answer rfl rfl (deadlineMiss_none h)
  case late => exact fun p v b hfirst hsource hlate => .of_answer rfl rfl (deadlineMiss_late hfirst hsource hlate)
  case resumes =>
    rintro u rfl h
    exact .of_answer rfl rfl (poolWaitEnd_resumes h)
  case stillFull =>
    rintro u rfl h
    exact .of_answer rfl rfl (poolWaitEnd_waits h)
  case noItem => exact fun h => .running hrun rfl (workItemDone_idle [] h)
  case more => exact fun p reads hreads hbusy hsession hitem hmore => .running hrun hreads (workItemDone_more reads hbusy hsession hitem hmore)
  case last =>
    intro p rest b v f hbusy hsession hpics honly hlast htarget hsource hstate hplaces
    have hitem : (s.ses n).pics.find? (fun p => p.running.contains e.val) = some p := by
      rw [hpics]
      exact List.find?_cons_of_pos (by simp [honly])
    have hses := State.endItem_first (e := e) hpics hplaces []
    have hother {a : Nat} (ha : a ≠ Adr.GLC.ENG_ITEMS e) := s.endItem_rd_other n e p [] ha
    have hstat : (s.endItem n e p []).sesState n = 1 :=
      (hother (by unfold Adr.GLS.SES_STAT Adr.GLC.ENG_ITEMS; omega)).trans hstate
    have hvalid : Fld.GLC.ENG_SES_VALID (s.endItem n e p []).regs e = 1 :=
      (congrArg (fun k => bits k 8 1) (hother (a := Adr.GLC.ENG_SES e) (by unfold Adr.GLC.ENG_SES Adr.GLC.ENG_ITEMS; omega))).trans hbusy
    obtain ⟨hseq, hrest, hprev, hpictures, hitems, hrecord⟩ := State.encodeEnd_ends n.isLt e.isLt hstat b (p.endItem e []) v f
    rw [hses] at hseq hrest hprev hrecord
    rw [hvalid] at hrecord
    refine .running hrun rfl ?_
    rw [workItemDone_last [] hbusy hsession hitem hlast honly htarget hsource, State.ses_settle, State.settle_rd, State.settle_rd, State.settle_regs]
    refine ⟨hseq, hrest.trans (List.erase_cons_head _ _), hprev, hitems.trans (State.rd_bump_same _ _), ?_, hrecord⟩
    rw [hpictures, hother (by unfold Adr.GLS.PICTURES Adr.GLC.ENG_ITEMS; omega)]

end Sys2Proof.Machine

/-! Members' commands: what issuing, staging and dropping them changes (R198, R199). -/

namespace Sys2Proof.Machine

/-! ### Folds and settled states -/

section folds
variable {α β : Type} {R : β → β → Prop} (hrefl : ∀ b, R b b) (htrans : ∀ {b c d}, R b c → R c d → R b d) {f : β → α → β} {l : List α}
  (h : ∀ a ∈ l, ∀ b, R b (f b a))
include hrefl htrans h

/-- A fold whose every step keeps to a reflexive and transitive relation keeps to it. -/
theorem foldl_rel (b : β) : R b (l.foldl f b) := by
  induction l generalizing b with
  | nil => exact hrefl b
  | cons a l ih => exact htrans (h a List.mem_cons_self b) (ih (fun x hx => h x (List.mem_cons_of_mem _ hx)) (f b a))

/-- Such a fold passes through the step of each of its elements. -/
theorem foldl_reaches {a : α} (ha : a ∈ l) (b : β) : ∃ c, R b c ∧ R (f c a) (l.foldl f b) := by
  induction l generalizing b with
  | nil => exact absurd ha List.not_mem_nil
  | cons x l ih =>
    have hrest : ∀ y ∈ l, ∀ c, R c (f c y) := fun y hy => h y (List.mem_cons_of_mem _ hy)
    rcases List.mem_cons.mp ha with rfl | hmem
    · exact ⟨b, hrefl b, foldl_rel hrefl htrans hrest (f b a)⟩
    · obtain ⟨c, hbefore, hafter⟩ := ih hrest hmem (f b x)
      exact ⟨c, htrans (h x List.mem_cons_self b) hbefore, hafter⟩

end folds

/-- What holds of a state whatever its pool, its delivered interrupts and what is sent besides holds of the settled state. -/
theorem State.of_settle {p : State → Prop} {u : State} (h : ∀ g i o, u.outbox ⊆ o → p { u with glass := g, irq := i, outbox := o }) : p u.settle := by
  rw [State.settle_eq]
  exact h _ _ _ (List.subset_append_left _ _)

/-- A command whose result is known, with a property of it, settled. -/
theorem Completes.of_result {c : Instr} {s t : State} {p : State → Prop} (h : Does c s t)
    (e : ∀ g i o, t.outbox ⊆ o → p { t with glass := g, irq := i, outbox := o }) : Completes c s p := .of_does h (State.of_settle e)

/-- A command whose operation's result has a property that settling keeps. -/
theorem Completes.of_fact {c : Instr} {s u : State} {p : State → Prop} (h : exec c s = answer c u) (w : c.wellFormed = true) (hp : p u)
    (e : ∀ t g i o, p t → t.outbox ⊆ o → p { t with glass := g, irq := i, outbox := o }) : Completes c s p :=
  .of_answer h w (State.of_settle fun g i o ho => e u g i o hp ho)

/-- The same of a command that passes an edge, while no domain is stopped. -/
theorem Completes.running_fact {c : Instr} {s u : State} {p : State → Prop} (hrun : s.stopped = []) (w : c.wellFormed = true) (hp : p u)
    (e : ∀ t g i o, p t → t.outbox ⊆ o → p { t with glass := g, irq := i, outbox := o }) (h : exec c s = answer c (throughEdge c s u) := by rfl) :
    Completes c s p := .running hrun w (State.of_settle fun g i o ho => e u g i o hp ho) h

/-! ### What serving members leaves -/

/-- A state without what serving its members changes: their commands, DRAM, the held faults and their reports, and how many free values are drawn. -/
def State.unstaged (s : State) : State := { s with bth := { s.bth with members := [] }, dram := [], held := [], reports := [], freeCount := 0 }

/-- The second state is the first but for the members, DRAM, further faults and drawn values. -/
structure ServesMembers (s t : State) : Prop where
  rest : t.unstaged = s.unstaged
  held : s.held ⊆ t.held

theorem ServesMembers.refl (s : State) : ServesMembers s s := ⟨rfl, List.Subset.refl _⟩

theorem ServesMembers.trans {s t u : State} (h : ServesMembers s t) (k : ServesMembers t u) : ServesMembers s u :=
  ⟨k.rest.trans h.rest, List.Subset.trans h.held k.held⟩

section unstaged
variable {s t : State} (h : ServesMembers s t)
include h

theorem ServesMembers.regs : t.regs = s.regs := congrArg (·.regs) h.rest
theorem ServesMembers.table : t.bth.table = s.bth.table := congrArg (·.bth.table) h.rest
theorem ServesMembers.fetch : t.bth.fetch = s.bth.fetch := congrArg (·.bth.fetch) h.rest
theorem ServesMembers.outbox : t.outbox = s.outbox := congrArg (·.outbox) h.rest
theorem ServesMembers.recChan (c : Nat) : t.recChan c = s.recChan c := congrArg (·.recChan c) h.rest
theorem ServesMembers.volWait (v : Nat) : t.volWait v = s.volWait v := congrArg (·.volWait v) h.rest
theorem ServesMembers.sameRegs (l : List RegAddr) : SameRegsBut l s t := .refl l h.regs

end unstaged

theorem ServesMembers.setMember (s : State) (m : Nat) (x : Member) : ServesMembers s (s.setMember m x) := ⟨rfl, List.Subset.refl _⟩

theorem ServesMembers.storeSeen (s : State) (addr : Nat) (bs : List Byte) : ServesMembers s (s.storeSeen addr bs) := by
  unfold State.storeSeen State.outOfRange
  split
  · exact ⟨rfl, fun h hh => (s.mem_fault _ _ h).mpr (.inr hh)⟩
  · exact ⟨rfl, List.Subset.refl _⟩

/-! ### Staging (R198) -/

theorem fillBlocks_data {bs : List Block} {free : List Nat} (h : ∀ b ∈ bs, b.data = []) : ∀ b ∈ fillBlocks bs free, b.data = [] := by
  induction bs generalizing free with
  | nil => exact h
  | cons b bs ih =>
    have hb : b.data = [] := h b List.mem_cons_self
    have hbs : ∀ x ∈ bs, x.data = [] := fun x hx => h x (List.mem_cons_of_mem _ hx)
    unfold fillBlocks
    split
    · exact List.forall_mem_cons.mpr ⟨hb, ih hbs⟩
    · exact List.forall_mem_cons.mpr ⟨hb, ih hbs⟩

theorem fillBlocks_units (us free : List Nat) : fillBlocks (us.map inUnit) free = us.map inUnit := by
  induction us generalizing free with
  | nil => rfl
  | cons u us ih => exact congrArg (inUnit u :: ·) (ih free)

/-- The bytes of blocks go to their units. -/
theorem ServesMembers.storeBlocks (s : State) (bs : List Block) : ServesMembers s (bs.foldl (fun (s : State) b => match b.unit with
    | some u => if b.data.isEmpty then s else s.storeSeen (u * 4096) b.data
    | none => s) s) := by
  refine foldl_rel (R := ServesMembers) .refl .trans (fun b _ t => ?_) s
  split
  · split
    · exact .refl t
    · exact .storeSeen t _ _
  · exact .refl t

theorem ServesMembers.stageCmd (s : State) (m : Nat) (c : MemberCmd) : ServesMembers s (s.stageCmd m c).2 := by
  unfold State.stageCmd
  extract_lets free
  split
  · exact .refl s
  · exact .storeBlocks s _

theorem State.stageCmd_bth (s : State) (m : Nat) (c : MemberCmd) : (s.stageCmd m c).2.bth = s.bth := by
  unfold State.stageCmd
  extract_lets free
  split
  · rfl
  · refine foldl_keeps State.bth _ (fun t b => ?_) _ s
    split
    · split
      · rfl
      · unfold State.storeSeen State.outOfRange
        split
        · rfl
        · rfl
    · rfl

theorem State.member_stageCmd (s : State) (m : Nat) (c : MemberCmd) (k : Nat) : (s.stageCmd m c).2.member k = s.member k := by
  rw [State.member, State.stageCmd_bth, State.member]

theorem State.stageCmd_cmd (s : State) (m : Nat) (c : MemberCmd) : ∃ bs, (s.stageCmd m c).1 = { c with blocks := bs } := by
  unfold State.stageCmd
  extract_lets free
  split
  · exact ⟨c.blocks, rfl⟩
  · exact ⟨_, rfl⟩

/-- Blocks without bytes store nothing. -/
theorem State.stageCmd_dram (s : State) (m : Nat) {c : MemberCmd} (h : ∀ b ∈ c.blocks, b.data = []) : (s.stageCmd m c).2.dram = s.dram := by
  unfold State.stageCmd
  extract_lets free
  split
  · rfl
  · refine foldl_rel (R := fun t u : State => u.dram = t.dram) (fun _ => rfl) (fun h k => k.trans h) (fun b hb t => ?_) s
    rw [fillBlocks_data h b hb]
    split
    · rfl
    · rfl

/-- A command whose blocks all lie in units is staged as it is. -/
theorem State.stageCmd_units (s : State) (m : Nat) {c : MemberCmd} {us : List Nat} (h : c.blocks = us.map inUnit) : s.stageCmd m c = (c, s) := by
  have hnone : (c.blocks.filter (fun b => b.unit.isNone)).length = 0 := by simp [h, inUnit]
  unfold State.stageCmd
  extract_lets free blocks
  have hblocks : blocks = c.blocks := (congrArg (fillBlocks · free) h).trans ((fillBlocks_units us free).trans h.symm)
  have hbare : blocks.map (fun b => { b with data := [] }) = c.blocks := by
    rw [hblocks, h, List.map_map]
    rfl
  rw [if_neg (by omega), hbare]
  refine congrArg (Prod.mk c) (foldl_stays fun b hb => ?_)
  obtain ⟨u, _, rfl⟩ := List.mem_map.mp (h ▸ hblocks ▸ hb)
  rfl

/-! ### Issuing a command (R198) -/

/-- The command that is issued to a member, before any of its blocks is staged. -/
def State.newCmd (s : State) (m : Nat) (op : MemberOp) (blocks : List Block) (addr bytes : Nat) (u : MemberUse) : MemberCmd :=
  { cid := (s.member m).nextCid, op := op, nsid := if op.namesNamespace then Fld.BTM.NSID s.regs m else 0, blocks := blocks, addr := addr, bytes := bytes,
    retries := 0, failed := false, purpose := u }

/-- A member that has been issued a further command. -/
def Member.issued (x : Member) (c : MemberCmd) : Member := { x with nextCid := (x.nextCid + 1) % 2 ^ 16, cmds := x.cmds ++ [c] }

section command
variable (s : State) (m : Nat) (op : MemberOp) (blocks : List Block) (addr bytes : Nat) (u : MemberUse)

theorem State.command_eq : s.command m op blocks addr bytes u =
    (if (s.member m).cmds.all (·.ready) then s.stageCmd m (s.newCmd m op blocks addr bytes u) else (s.newCmd m op blocks addr bytes u, s)).2.setMember m
      ((s.member m).issued (if (s.member m).cmds.all (·.ready) then s.stageCmd m (s.newCmd m op blocks addr bytes u) else
        (s.newCmd m op blocks addr bytes u, s)).1) := rfl

theorem ServesMembers.command : ServesMembers s (s.command m op blocks addr bytes u) := by
  rw [State.command_eq]
  split
  · exact (ServesMembers.stageCmd s m _).trans (.setMember _ m _)
  · exact .setMember s m _

/-- The member has the command behind those it had, staged or waiting; the other members keep theirs. -/
theorem State.command_member : ∃ bs, ∀ k, (s.command m op blocks addr bytes u).member k =
    if k = m then (s.member m).issued { s.newCmd m op blocks addr bytes u with blocks := bs } else s.member k := by
  rw [State.command_eq]
  split
  · obtain ⟨bs, hbs⟩ := s.stageCmd_cmd m (s.newCmd m op blocks addr bytes u)
    refine ⟨bs, fun k => ?_⟩
    rw [State.member_setMember, hbs, State.member_stageCmd]
  · exact ⟨blocks, State.member_setMember s m _⟩

/-- The command is among those of its member. -/
theorem State.command_mem : ∃ d ∈ ((s.command m op blocks addr bytes u).member m).cmds, d.purpose = u ∧ d.op = op ∧ d.bytes = bytes ∧ d.addr = addr := by
  obtain ⟨bs, hmember⟩ := s.command_member m op blocks addr bytes u
  rw [hmember m, if_pos rfl]
  exact ⟨{ s.newCmd m op blocks addr bytes u with blocks := bs }, List.mem_append_right _ List.mem_cons_self, rfl, rfl, rfl, rfl⟩

theorem State.command_dram {blocks : List Block} (h : ∀ b ∈ blocks, b.data = []) : (s.command m op blocks addr bytes u).dram = s.dram := by
  rw [State.command_eq, State.setMember_dram]
  split
  · exact s.stageCmd_dram m h
  · rfl

theorem State.command_units (us : List Nat) : s.command m op (us.map inUnit) addr bytes u =
    s.setMember m ((s.member m).issued (s.newCmd m op (us.map inUnit) addr bytes u)) := by
  rw [State.command_eq, State.stageCmd_units s m (us := us) rfl, ite_self]

theorem ServesMembers.issueStaged (v o : Nat) (data : List Byte) : ServesMembers s (s.issueStaged v o data u) := .command s _ _ _ _ _ _

end command

theorem ServesMembers.issueSpan (v : Nat) (isWrite : Bool) (u : MemberUse) (fuel : Nat) (s : State) (o len : Nat) (blocks : List Block) :
    ServesMembers s (s.issueSpan v isWrite u fuel o len blocks) := by
  induction fuel generalizing s o len blocks with
  | zero => exact .refl s
  | succ fuel ih =>
    unfold State.issueSpan
    split
    · exact .refl s
    · exact (ServesMembers.command s _ _ _ _ _ _).trans (ih _ _ _ _)

theorem State.issueSpan_dram (v : Nat) (isWrite : Bool) (u : MemberUse) (fuel : Nat) (s : State) (o len : Nat) {blocks : List Block}
    (h : ∀ b ∈ blocks, b.data = []) : (s.issueSpan v isWrite u fuel o len blocks).dram = s.dram := by
  induction fuel generalizing s o len blocks with
  | zero => rfl
  | succ fuel ih =>
    unfold State.issueSpan
    split
    · rfl
    · exact (ih _ _ _ fun b hb => h b (List.mem_of_mem_drop hb)).trans (s.command_dram _ _ _ _ _ fun b hb => h b (List.mem_of_mem_take hb))

/-! ### Commands that wait for staging (R198) -/

theorem SMap.get_mem_or {α : Type} (d : Nat → α) (m : List (Nat × α)) (k : Nat) : (k, SMap.get d m k) ∈ m ∨ SMap.get d m k = d k := by
  induction m with
  | nil => exact .inr rfl
  | cons e r ih =>
    unfold SMap.get
    split
    · rename_i hk
      exact .inl (hk ▸ List.mem_cons_self)
    · exact ih.imp_left (List.mem_cons_of_mem e)

theorem State.ready_of_blocksWait {s : State} (h : s.blocksWait = false) (m : Nat) : ∀ c ∈ (s.member m).cmds, c.ready = true := by
  intro c hc
  rcases SMap.get_mem_or (fun _ => memberReset) s.bth.members m with hmem | hdefault
  · have hmember := eq_false_of_ne_true (List.any_eq_false.mp h _ hmem)
    simpa using List.any_eq_false.mp hmember c hc
  · rw [State.member, hdefault] at hc
    exact absurd hc List.not_mem_nil

theorem State.blocksWait_setMember {s : State} (h : s.blocksWait = false) (m : Nat) {x : Member} (hx : ∀ c ∈ x.cmds, c.ready = true) :
    (s.setMember m x).blocksWait = false := by
  refine List.any_eq_false.mpr fun e he => ?_
  rcases SMap.mem_set (d := fun _ => memberReset) he with rfl | hmem
  · simpa using hx
  · exact List.any_eq_false.mp h e hmem

theorem State.restage_idle {s : State} (h : s.blocksWait = false) : s.restage = s := if_neg (by rw [h]; decide)

/-- A command as it was, or, where it waited, with its blocks staged. -/
def MemberCmd.Staged (c d : MemberCmd) : Prop := d = c ∨ c.ready = false ∧ ∃ bs, d = { c with blocks := bs }

theorem MemberCmd.Staged.trans {c d e : MemberCmd} (h : c.Staged d) (k : d.Staged e) : c.Staged e := by
  rcases h with rfl | ⟨hwait, bs, rfl⟩
  · exact k
  · rcases k with rfl | ⟨-, bs', rfl⟩
    · exact .inr ⟨hwait, bs, rfl⟩
    · exact .inr ⟨hwait, bs', rfl⟩

theorem forall₂_staged_trans {l l' l'' : List MemberCmd} (h : List.Forall₂ MemberCmd.Staged l l') (k : List.Forall₂ MemberCmd.Staged l' l'') :
    List.Forall₂ MemberCmd.Staged l l'' := by
  induction h generalizing l'' with
  | nil => exact k
  | cons hcd _ ih =>
    obtain _ | ⟨hde, hrest⟩ := k
    exact .cons (hcd.trans hde) (ih hrest)

theorem forall₂_staged_refl (l : List MemberCmd) : List.Forall₂ MemberCmd.Staged l l := List.forall₂_same.mpr fun _ _ => .inl rfl

/-- The second state is the first but for what `ServesMembers` names, where members have the commands they had, some of them staged. -/
structure Restages (s t : State) : Prop extends ServesMembers s t where
  cmds : ∀ k, ∃ l, t.member k = { s.member k with cmds := l } ∧ List.Forall₂ MemberCmd.Staged (s.member k).cmds l

theorem Restages.refl (s : State) : Restages s s := ⟨.refl s, fun k => ⟨(s.member k).cmds, rfl, forall₂_staged_refl _⟩⟩

theorem Restages.trans {s t u : State} (h : Restages s t) (k : Restages t u) : Restages s u := by
  refine ⟨h.toServesMembers.trans k.toServesMembers, fun i => ?_⟩
  obtain ⟨l, hl, hstaged⟩ := h.cmds i
  obtain ⟨l', hl', hstaged'⟩ := k.cmds i
  rw [hl] at hl' hstaged'
  exact ⟨l', hl', forall₂_staged_trans hstaged hstaged'⟩

theorem Restages.restageMember (m n : Nat) (s : State) : Restages s (s.restageMember m n) := by
  induction n generalizing s with
  | zero => exact .refl s
  | succ n ih =>
    unfold State.restageMember
    split
    · exact .refl s
    · rename_i c hc
      have hwait : c.ready = false := by simpa using List.find?_some hc
      obtain ⟨bs, hbs⟩ := s.stageCmd_cmd m c
      split
      rename_i d t hstage
      obtain rfl : t = (s.stageCmd m c).2 := (congrArg Prod.snd hstage).symm
      obtain rfl : d = { c with blocks := bs } := (congrArg Prod.fst hstage).symm.trans hbs
      split
      · refine Restages.trans ⟨(ServesMembers.stageCmd s m c).trans (.setMember _ m _), fun k => ?_⟩ (ih _)
        rw [State.member_setMember, State.member_stageCmd, State.member_stageCmd]
        split
        · rename_i hk
          rw [hk]
          refine ⟨_, rfl, List.forall₂_map_right_iff.mpr (List.forall₂_same.mpr fun e _ => ?_)⟩
          split
          · rename_i he
            exact .inr ⟨he ▸ hwait, bs, he ▸ rfl⟩
          · exact .inl rfl
        · exact ⟨_, rfl, forall₂_staged_refl _⟩
      · exact .refl s

theorem Restages.restage (s : State) : Restages s s.restage := by
  unfold State.restage
  split
  · exact foldl_rel (R := Restages) .refl .trans (fun m _ t => .restageMember m _ t) s
  · exact .refl s

/-- Commands that are all issued stay as they are. -/
theorem eq_of_staged {l l' : List MemberCmd} (h : List.Forall₂ MemberCmd.Staged l l') (hready : ∀ c ∈ l, c.ready = true) : l' = l := by
  induction h with
  | nil => rfl
  | cons hcd _ ih =>
    obtain ⟨hc, hl⟩ := List.forall_mem_cons.mp hready
    rw [ih hl, hcd.resolve_right fun k => absurd (hc.symm.trans k.1) (by decide)]

/-- Behind commands that are all issued, the last may be staged. -/
theorem eq_of_staged_append {l l' : List MemberCmd} {c : MemberCmd} (h : List.Forall₂ MemberCmd.Staged (l ++ [c]) l') (hready : ∀ d ∈ l, d.ready = true) :
    ∃ bs, l' = l ++ [{ c with blocks := bs }] := by
  induction l generalizing l' with
  | nil =>
    obtain _ | ⟨hcd, hnil⟩ := h
    obtain rfl := List.forall₂_nil_left_iff.mp hnil
    rcases hcd with rfl | ⟨-, bs, rfl⟩
    · exact ⟨_, rfl⟩
    · exact ⟨bs, rfl⟩
  | cons d l ih =>
    obtain ⟨hd, hl⟩ := List.forall_mem_cons.mp hready
    obtain _ | ⟨hde, hrest⟩ := h
    obtain ⟨bs, rfl⟩ := ih hrest hl
    rw [hde.resolve_right fun k => absurd (hd.symm.trans k.1) (by decide)]
    exact ⟨bs, rfl⟩

theorem ops_of_staged {l l' : List MemberCmd} (h : List.Forall₂ MemberCmd.Staged l l') : l'.map (·.op) = l.map (·.op) := by
  induction h with
  | nil => rfl
  | cons hcd _ ih =>
    rw [List.map_cons, List.map_cons, ih]
    rcases hcd with rfl | ⟨-, bs, rfl⟩
    · rfl
    · rfl

theorem Restages.cmds_of_ready {s t : State} (h : Restages s t) {m : Nat} (hready : ∀ c ∈ (s.member m).cmds, c.ready = true) :
    t.member m = s.member m := by
  obtain ⟨l, hl, hstaged⟩ := h.cmds m
  rw [hl, eq_of_staged hstaged hready]

/-! ### Dropping commands -/

/-- The commands for a purpose leave every member. -/
def State.filterCommands (s : State) (p : MemberUse → Bool) : State :=
  (List.range 32).foldl (fun s m => s.setMember m { s.member m with cmds := (s.member m).cmds.filter (fun c => !p c.purpose) }) s

theorem State.dropCommands_eq (s : State) (p : MemberUse → Bool) : s.dropCommands p = (s.filterCommands p).restage := rfl

theorem ServesMembers.dropCommands (s : State) (p : MemberUse → Bool) : ServesMembers s (s.dropCommands p) :=
  (foldl_rel (R := ServesMembers) .refl .trans (fun m _ t => .setMember t m _) s).trans (Restages.restage (s.filterCommands p)).toServesMembers

/-- With no command waiting, dropping some starts no other. -/
theorem State.dropCommands_dram {s : State} (h : s.blocksWait = false) (p : MemberUse → Bool) : (s.dropCommands p).dram = s.dram := by
  have hidle : (s.filterCommands p).blocksWait = false ∧ (s.filterCommands p).dram = s.dram :=
    foldl_rel (R := fun t u : State => t.blocksWait = false → u.blocksWait = false ∧ u.dram = t.dram) (fun _ ht => ⟨ht, rfl⟩)
      (fun h k ht => ⟨(k (h ht).1).1, (k (h ht).1).2.trans (h ht).2⟩)
      (fun m _ t ht => ⟨State.blocksWait_setMember ht m fun c hc => State.ready_of_blocksWait ht m c (List.mem_of_mem_filter hc), rfl⟩) s h
  rw [State.dropCommands_eq, State.restage_idle hidle.1]
  exact hidle.2

end Sys2Proof.Machine

/-! Journal records, the end of a take, and what a channel halts with (R206, R208, R212). -/

namespace Sys2Proof.Machine

/-! ### Registers of the Boathouse -/

theorem fld_of_rd {s t : State} {a : RegAddr} (h : t.rd a = s.rd a) (i w : Nat) : t.regs.fld a i w = s.regs.fld a i w := congrArg (bits · i w) h

theorem State.volState_setVolState (s : State) {v st : Nat} (h : st < 8) : (s.setVolState v st).volState v = st := by
  refine (s.fld_setReg_same (Adr.BTH.VOL_STAT v) st 0 3).trans ?_
  unfold bits
  omega

theorem State.memState_setMemState (s : State) {m st : Nat} (h : st < 8) : (s.setMemState m st).memState m = st := by
  refine (s.fld_setReg_same (Adr.BTM.MEM_STAT m) st 0 3).trans ?_
  unfold bits
  omega

/-- What CH_STAT shows of a channel in state `st` with a reason. -/
theorem State.chStat_fields {s : State} {c st reason : Nat} (h : s.rd (Adr.BTH.CH_STAT c) = st + 16 * reason) (hst : st < 4) (hreason : reason < 16) :
    s.chState c = st ∧ Fld.BTH.CH_STAT_REASON s.regs c = reason := by
  have hfld (l w : Nat) : s.regs.fld (Adr.BTH.CH_STAT c) l w = bits (st + 16 * reason) l w := congrArg (bits · l w) h
  refine ⟨(hfld 0 2).trans ?_, (hfld 4 4).trans ?_⟩
  · unfold bits
    omega
  · unfold bits
    omega

theorem State.rd_setCh (s : State) (c : Nat) {st reason : Nat} (hst : st < 4) (hreason : reason < 16) :
    (s.setCh c st reason).rd (Adr.BTH.CH_STAT c) = st + 16 * reason :=
  (s.rd_setReg_same _ _).trans (Nat.mod_eq_of_lt (by omega))

theorem State.recChan_setRecChan_same (s : State) (c : Nat) (x : Chan) : (s.setRecChan c x).recChan c = x := (s.recChan_setRecChan c x c).trans (if_pos rfl)

theorem chStat_above (c : Nat) : 0x30000 ≤ Adr.BTH.CH_STAT c := Nat.le_trans (by decide) (Nat.le_add_right _ _)

theorem ringSource_lt (rf : RegFile) (c : Nat) : Adr.GLS.RD_PTR (Fld.BTH.CH_CFG_SRC rf c) < 0x30000 := by
  have h : Fld.BTH.CH_CFG_SRC rf c < 2 ^ 5 := bits_lt _ _ _
  show (0x29144 + 0x60 * _ : Nat) < 0x30000
  omega

/-! ### Serving members and writing registers -/

/-- A state without its registers and what serving members changes. -/
def State.bare (s : State) : State := { s.unstaged with regs := [] }

/-- The second state is the first but for the registers of a list and what serving members changes. -/
structure ServesAndWrites (l : List RegAddr) (s t : State) : Prop where
  rest : t.bare = s.bare
  held : s.held ⊆ t.held
  regs : SameRegsBut l s t

theorem ServesMembers.writes {s t : State} (h : ServesMembers s t) (l : List RegAddr) : ServesAndWrites l s t :=
  ⟨congrArg (fun u : State => { u with regs := [] }) h.rest, h.held, h.sameRegs l⟩

theorem ServesAndWrites.setReg (s : State) (a n : Nat) : ServesAndWrites [a] s (s.setReg a n) := ⟨rfl, List.Subset.refl _, .setReg s a n⟩

section writes
variable {l m : List RegAddr} {s t u : State} (h : ServesAndWrites l s t)
include h

theorem ServesAndWrites.trans (k : ServesAndWrites m t u) : ServesAndWrites (l ++ m) s u :=
  ⟨k.rest.trans h.rest, List.Subset.trans h.held k.held, h.regs.trans k.regs⟩

theorem ServesAndWrites.mono (hl : l ⊆ m) : ServesAndWrites m s t := ⟨h.rest, h.held, h.regs.mono hl⟩

theorem ServesAndWrites.table : t.bth.table = s.bth.table := congrArg (·.bth.table) h.rest
theorem ServesAndWrites.waits : t.bth.waits = s.bth.waits := congrArg (·.bth.waits) h.rest
theorem ServesAndWrites.outbox : t.outbox = s.outbox := congrArg (·.outbox) h.rest
theorem ServesAndWrites.recChan (c : Nat) : t.recChan c = s.recChan c := congrArg (·.recChan c) h.rest

end writes

/-! ### Journal records (R206) -/

theorem ServesMembers.of_draws {s t : State} (h : DrawsOnly s t) : ServesMembers s t := by
  rw [h]
  exact ⟨rfl, List.Subset.refl _⟩

theorem ServesMembers.chanRecord (s : State) (c : Nat) (t : Take) (type reason gapFirst gapCount : Nat) (header : List Byte) :
    ServesMembers s (s.chanRecord c t type reason gapFirst gapCount header).2 := .of_draws (s.chanRecord_draws _ _ _ _ _ _ _)

theorem ServesAndWrites.appendJournal (s : State) (v : Nat) (r : JournalRec) : ServesAndWrites [Adr.BTH.JNL_USED v] s (s.appendJournal v r) :=
  ((ServesMembers.issueStaged s _ v _ _).writes []).trans (.setReg _ _ _)

theorem State.appendJournal_used (s : State) (v : Nat) (r : JournalRec) :
    (s.appendJournal v r).rd (Adr.BTH.JNL_USED v) = satInc 32 (s.rd (Adr.BTH.JNL_USED v)) := by
  refine (State.rd_bump_same _ _).trans ?_
  rw [State.rd, (ServesMembers.issueStaged s _ v _ _).regs]
  rfl

/-- A record of a channel's take, in the next slot of the journal. -/
theorem ServesAndWrites.journal (s : State) (c : Nat) (t : Take) (type reason gapFirst gapCount : Nat) (header : List Byte) :
    ServesAndWrites [Adr.BTH.JNL_USED t.vol] s ((s.chanRecord c t type reason gapFirst gapCount header).2.appendJournal t.vol
      (s.chanRecord c t type reason gapFirst gapCount header).1) :=
  ((ServesMembers.chanRecord s c t type reason gapFirst gapCount header).writes []).trans (.appendJournal _ _ _)

theorem ServesAndWrites.endTake (s : State) (c : Nat) (t : Take) (reason : Nat) :
    ServesAndWrites [Adr.BTH.APPEND t.vol, Adr.BTH.JNL_USED t.vol] s (s.endTake c t reason) := by
  unfold State.endTake
  extract_lets u
  have hu : ServesAndWrites [Adr.BTH.APPEND t.vol] s u := .setReg s _ _
  split
  · exact hu.trans (.journal u c t 3 reason 0 0 [])
  · exact hu.mono (List.subset_append_left _ [_])

theorem State.endTake_append (s : State) (c : Nat) (t : Take) (reason : Nat) :
    (s.endTake c t reason).rd (Adr.BTH.APPEND t.vol) = (t.stripe + ceilDiv t.bytes (2 ^ 20)) % 2 ^ 32 := by
  unfold State.endTake
  extract_lets u
  have hu : u.rd (Adr.BTH.APPEND t.vol) = (t.stripe + ceilDiv t.bytes (2 ^ 20)) % 2 ^ 32 := s.rd_setReg_same _ _
  split
  · exact ((ServesAndWrites.journal u c t 3 reason 0 0 []).regs.rd (by simp [Adr.BTH.APPEND, Adr.BTH.JNL_USED])).trans hu
  · exact hu

/-! ### Halting (R212) -/

/-- A halted channel: its take has ended, and it holds or passes what it had. -/
theorem State.haltChan_eq {s : State} {c : Nat} {t : Take} (h : (s.recChan c).take = some t) {reason : Nat} (hreason : reason < 16) (endReason : Nat) :
    ∃ u x, ServesAndWrites [Adr.BTH.CH_STAT c, Adr.BTH.APPEND t.vol, Adr.BTH.JNL_USED t.vol] s u ∧ u.rd (Adr.BTH.CH_STAT c) = 3 + 16 * reason ∧
      x.take = some t ∧ (s.haltChan c reason (some endReason) = u.setRecChan c x ∨
        ∃ n, s.haltChan c reason (some endReason) = (u.setRecChan c x).setReg (Adr.GLS.RD_PTR (Fld.BTH.CH_CFG_SRC u.regs c)) n) := by
  have hend : ServesAndWrites _ _ ((s.setCh c 3 reason).endTake c t endReason) := .endTake _ c t endReason
  have hstat : ((s.setCh c 3 reason).endTake c t endReason).rd (Adr.BTH.CH_STAT c) = 3 + 16 * reason :=
    (hend.regs.rd (by simp only [List.mem_cons, List.not_mem_nil, or_false, RegAddr, Adr.BTH.CH_STAT, Adr.BTH.APPEND, Adr.BTH.JNL_USED]; omega)).trans
      (s.rd_setCh c (by decide) hreason)
  have hwrites := (ServesAndWrites.setReg s (Adr.BTH.CH_STAT c) (3 + 16 * reason)).trans hend
  unfold State.haltChan
  dsimp only
  rw [h]
  dsimp only
  split
  · exact ⟨_, { s.recChan c with take := some t, items := [], held := [] }, hwrites, hstat, rfl, .inr ⟨_, rfl⟩⟩
  · exact ⟨_, { s.recChan c with take := some t, items := [], held := (s.recChan c).items ++ (s.recChan c).held ++ (s.recChan c).queue, queue := [] },
      hwrites, hstat, rfl, .inl rfl⟩

/-- A channel records or drains a take of a volume. -/
def State.worksOn (s : State) (c v : Nat) : Prop := (∃ t, (s.recChan c).take = some t ∧ t.vol = v) ∧ (s.chState c = 1 ∨ s.chState c = 2)

/-- The registers that channels halting on volume `v` change. -/
def HaltReg (v a : Nat) : Prop := a = Adr.BTH.APPEND v ∨ a = Adr.BTH.JNL_USED v ∨ (∃ c < 8, a = Adr.BTH.CH_STAT c) ∨ a < 0x30000

/-- The second state is the first after some of the channels at work on volume `v` have halted with a reason. -/
structure Halts (v reason : Nat) (s t : State) : Prop where
  table : t.bth.table = s.bth.table
  waits : t.bth.waits = s.bth.waits
  outbox : t.outbox = s.outbox
  held : s.held ⊆ t.held
  take : ∀ c, (t.recChan c).take = (s.recChan c).take
  stat : ∀ c, c < 8 → t.rd (Adr.BTH.CH_STAT c) = s.rd (Adr.BTH.CH_STAT c) ∨ s.worksOn c v ∧ t.rd (Adr.BTH.CH_STAT c) = 3 + 16 * reason
  regs : ∀ a, ¬ HaltReg v a → t.rd a = s.rd a

theorem State.worksOn_of_stat {s t : State} {c v : Nat} (htake : (t.recChan c).take = (s.recChan c).take)
    (hstat : t.rd (Adr.BTH.CH_STAT c) = s.rd (Adr.BTH.CH_STAT c)) : t.worksOn c v ↔ s.worksOn c v := by
  have hstate : t.chState c = s.chState c := fld_of_rd hstat 0 2
  rw [State.worksOn, State.worksOn, htake, hstate]

theorem Halts.refl (v reason : Nat) (s : State) : Halts v reason s s := ⟨rfl, rfl, rfl, List.Subset.refl _, fun _ => rfl, fun _ _ => .inl rfl, fun _ _ => rfl⟩

theorem Halts.trans {v reason : Nat} {s t u : State} (h : Halts v reason s t) (k : Halts v reason t u) : Halts v reason s u where
  table := k.table.trans h.table
  waits := k.waits.trans h.waits
  outbox := k.outbox.trans h.outbox
  held := List.Subset.trans h.held k.held
  take c := (k.take c).trans (h.take c)
  stat c hc := by
    rcases h.stat c hc, k.stat c hc with ⟨hsame | ⟨hworks, hhalted⟩, ksame | ⟨kworks, khalted⟩⟩
    · exact .inl (ksame.trans hsame)
    · exact .inr ⟨(State.worksOn_of_stat (h.take c) hsame).mp kworks, khalted⟩
    · exact .inr ⟨hworks, ksame.trans hhalted⟩
    · exact .inr ⟨hworks, khalted⟩
  regs a ha := (k.regs a ha).trans (h.regs a ha)

/-- A channel that halts on its volume. -/
theorem Halts.haltChan {s : State} {c v : Nat} (hc : c < 8) (h : s.worksOn c v) {reason : Nat} (hreason : reason < 16) (endReason : Nat) :
    Halts v reason s (s.haltChan c reason (some endReason)) ∧ (s.haltChan c reason (some endReason)).rd (Adr.BTH.CH_STAT c) = 3 + 16 * reason := by
  obtain ⟨t, htake, rfl⟩ := h.1
  obtain ⟨u, x, hu, hstat, hx, hhalt⟩ := State.haltChan_eq htake hreason endReason
  have hhalts : Halts t.vol reason s (u.setRecChan c x) := by
    refine ⟨hu.table, hu.waits, hu.outbox, hu.held, fun d => ?_, fun d hd => ?_, fun a ha => hu.regs.rd fun hmem => ha ?_⟩
    · rw [State.recChan_setRecChan]
      split
      · rename_i hdc
        rw [hdc, hx, htake]
      · rw [hu.recChan]
    · by_cases hdc : d = c
      · subst hdc
        exact .inr ⟨h, hstat⟩
      · exact .inl (hu.regs.rd (by
          simp only [List.mem_cons, List.not_mem_nil, or_false, RegAddr, Adr.BTH.CH_STAT, Adr.BTH.APPEND, Adr.BTH.JNL_USED]
          omega))
    · rcases List.mem_cons.mp hmem with rfl | hmem
      · exact .inr (.inr (.inl ⟨c, hc, rfl⟩))
      · exact (List.mem_pair.mp hmem).imp_right .inl
  rcases hhalt with hhalt | ⟨n, hhalt⟩
  · exact hhalt ▸ ⟨hhalts, hstat⟩
  · rw [hhalt]
    have hring : SameRegsBut [_] (u.setRecChan c x) _ := .setReg (u.setRecChan c x) (Adr.GLS.RD_PTR (Fld.BTH.CH_CFG_SRC u.regs c)) n
    have hlow := ringSource_lt u.regs c
    have hkeeps {a : Nat} (ha : 0x30000 ≤ a) := hring.rd (a := a) (List.mem_singleton.not.mpr (Nat.ne_of_gt (Nat.lt_of_lt_of_le hlow ha)))
    refine ⟨⟨hhalts.table, hhalts.waits, hhalts.outbox, hhalts.held, hhalts.take, fun d hd => ?_, fun a ha => ?_⟩, (hkeeps (chStat_above c)).trans hstat⟩
    · rw [hkeeps (chStat_above d)]
      exact hhalts.stat d hd
    · exact (hkeeps (Nat.not_lt.mp fun hlt => ha (.inr (.inr (.inr hlt))))).trans (hhalts.regs a ha)

/-- A round over the channels that halts those at work on a volume halts them all. -/
theorem Halts.foldl {v reason : Nat} {f : State → Nat → State}
    (h : ∀ c, c < 8 → ∀ s, Halts v reason s (f s c) ∧ (s.worksOn c v → (f s c).rd (Adr.BTH.CH_STAT c) = 3 + 16 * reason)) (s : State) :
    Halts v reason s ((List.range 8).foldl f s) ∧
      ∀ c, c < 8 → s.worksOn c v → ((List.range 8).foldl f s).rd (Adr.BTH.CH_STAT c) = 3 + 16 * reason := by
  have hstep : ∀ c ∈ List.range 8, ∀ t, Halts v reason t (f t c) := fun c hc t => (h c (List.mem_range.mp hc) t).1
  refine ⟨foldl_rel (.refl v reason) .trans hstep s, fun c hc hworks => ?_⟩
  obtain ⟨t, hbefore, hafter⟩ := foldl_reaches (.refl v reason) .trans hstep (List.mem_range.mpr hc) s
  have hhalted : (f t c).rd (Adr.BTH.CH_STAT c) = 3 + 16 * reason := by
    rcases hbefore.stat c hc with hsame | ⟨-, hhalted⟩
    · exact (h c hc t).2 ((State.worksOn_of_stat (hbefore.take c) hsame).mpr hworks)
    · exact ((h c hc t).1.stat c hc).elim (·.trans hhalted) (·.2)
  exact (hafter.stat c hc).elim (·.trans hhalted) (·.2)

end Sys2Proof.Machine

/-! Recording channels: a take begins, items are released in order, and what STOP, ABANDON and checkpoints do (R206, R208, R210 to R213). -/

namespace Sys2Proof.Machine

/-! ### A take begins (R212, R213) -/

theorem State.volumeTaken_setRecChan (s : State) (c v : Nat) (x : Chan) : (s.setRecChan c x).volumeTaken c v = s.volumeTaken c v := by
  refine congrArg (List.any (List.range 8)) (funext fun d => ?_)
  by_cases hd : d = c
  · rw [bne_eq_false_iff_eq.mpr hd]
    rfl
  · rw [State.recChan_setRecChan, if_neg hd]
    rfl

/-- The registers of a channel that begins take `id` on volume `v`. -/
def State.markTake (s : State) (c v id : Nat) : State := ((s.setReg (Adr.BTH.NEXT_TAKE v) (id + 1)).setReg (Adr.BTH.CH_TAKE c) id).setCh c 1 0

theorem State.markTake_regs (s : State) (c v : Nat) {id : Nat} (hid : id < 2 ^ 32) :
    (s.markTake c v id).chState c = 1 ∧ (s.markTake c v id).rd (Adr.BTH.CH_TAKE c) = id ∧ (s.markTake c v id).rd (Adr.BTH.NEXT_TAKE v) = (id + 1) % 2 ^ 32 ∧
      SameRegsBut [Adr.BTH.CH_STAT c, Adr.BTH.CH_TAKE c, Adr.BTH.NEXT_TAKE v] s (s.markTake c v id) := by
  unfold State.markTake
  have hregs := (SameRegsBut.setReg (s.setReg (Adr.BTH.NEXT_TAKE v) (id + 1)) (Adr.BTH.CH_TAKE c) id).trans (.setReg _ (Adr.BTH.CH_STAT c) (1 + 16 * 0))
  refine ⟨(State.chStat_fields (State.rd_setCh _ c (by decide) (by decide)) (by decide) (by decide)).1, ?_, ?_,
    ((SameRegsBut.setReg s _ _).trans hregs).mono (by simp)⟩
  · have hstat := SameRegsBut.setReg ((s.setReg (Adr.BTH.NEXT_TAKE v) (id + 1)).setReg (Adr.BTH.CH_TAKE c) id) (Adr.BTH.CH_STAT c) (1 + 16 * 0)
    refine (hstat.rd ?_).trans ((State.rd_setReg_same _ _ _).trans (Nat.mod_eq_of_lt hid))
    simp only [List.mem_singleton, RegAddr, Adr.BTH.CH_TAKE, Adr.BTH.CH_STAT]
    omega
  · refine (hregs.rd ?_).trans (State.rd_setReg_same _ _ _)
    simp only [List.mem_append, List.mem_singleton, RegAddr, Adr.BTH.NEXT_TAKE, Adr.BTH.CH_TAKE, Adr.BTH.CH_STAT]
    omega

section begins
variable {s : State} {c v : Nat} (hv : v = Fld.BTH.CH_CFG_VOL s.regs c)
include hv

/-- An admitted take on an OPEN volume with room runs, with the next number, at the append stripe. -/
theorem State.startTake_runs (hopen : s.volState v = 3) (hfree : s.volumeTaken c v = false) (hadmitted : s.chanAdmitted c v = true)
    (hroom : s.nextSeq v + 2 ≤ s.slots v) (stride : Nat) (awaitIdr : Bool) (prev : Option Take) :
    ∃ k : Take, s.startTake c stride awaitIdr prev = (true, (s.markTake c v (s.rd (Adr.BTH.NEXT_TAKE v))).setTake c k) ∧ k.vol = v ∧
      k.id = s.rd (Adr.BTH.NEXT_TAKE v) ∧ k.stripe = s.rd (Adr.BTH.APPEND v) ∧ k.first = none ∧ k.continuation = prev.isSome ∧
      ∀ p, prev = some p → k.prevVol = p.vol ∧ k.prevTake = p.id := by
  unfold State.startTake
  rw [← hv, if_neg (by simp [hopen, hfree]), if_neg (by simp [hadmitted]), if_neg (Nat.not_lt.mpr hroom)]
  refine ⟨_, rfl, rfl, rfl, rfl, rfl, rfl, ?_⟩
  rintro p rfl
  exact ⟨rfl, rfl⟩

theorem State.startTake_closed (hclosed : s.volState v ≠ 3) (stride : Nat) (awaitIdr : Bool) (prev : Option Take) :
    s.startTake c stride awaitIdr prev = (false, s.setCh c 3 1) := by
  unfold State.startTake
  rw [← hv, if_pos (.inl hclosed)]

theorem State.startTake_unadmitted (hopen : s.volState v = 3) (hfree : s.volumeTaken c v = false) (hrefused : s.chanAdmitted c v = false)
    (stride : Nat) (awaitIdr : Bool) (prev : Option Take) : s.startTake c stride awaitIdr prev = (false, s.fault (chanUnit c) 0x07) := by
  unfold State.startTake
  rw [← hv, if_neg (by simp [hopen, hfree]), if_pos hrefused]

end begins

/-! ### START, STOP and RESUME (R212) -/

/-- A channel that is to begin its take at its source's present place. -/
def State.readyChan (s : State) (c : Nat) : State := s.setRecChan c { chanReset with ringPos := s.rd (Adr.GLS.WR_PTR (Fld.BTH.CH_CFG_SRC s.regs c)) }

theorem chStart_ignored {s : State} {c : Nat} (h : s.chState c ≠ 0 ∨ s.isCodec c = false ∨ Fld.BTH.CH_CFG_EN s.regs c = 0 ∨ s.enabled 0x30 = false) :
    chStart c s = s := if_pos h

theorem chStart_acts {s : State} {c : Nat} (hidle : s.chState c = 0) (hcodec : s.isCodec c = true) (hen : Fld.BTH.CH_CFG_EN s.regs c = 1)
    (hon : s.enabled 0x30 = true) : chStart c s = ((s.readyChan c).startTake c 0 true none).2 := if_neg (by simp [hidle, hcodec, hen, hon])

/-- The source of a channel at work has ended. -/
theorem State.drainChan_eq {s : State} {c : Nat} (h : s.chState c = 1) (geomEnd : Bool) : s.drainChan c geomEnd =
    (s.setRecChan c { s.recChan c with srcEnded := true, take := (s.recChan c).take.map (fun t => { t with geomEnd := geomEnd }) }).setCh c 2 0 :=
  if_pos h

theorem chStop_drains {s : State} {c : Nat} (hrec : s.chState c = 1) (hcodec : s.isCodec c = true) : chStop c s = s.drainChan c false := if_pos ⟨hrec, hcodec⟩

theorem chStop_ignored {s : State} {c : Nat} (h : s.chState c ≠ 1) : chStop c s = s := if_neg fun k => h k.1

theorem chResume_ignored {s : State} {c : Nat} (h : s.chState c ≠ 3) : chResume c s = s := if_pos (.inl h)

/-- A halted channel that holds nothing resumes with a continuation. -/
theorem chResume_runs {s : State} {c v : Nat} (hv : v = Fld.BTH.CH_CFG_VOL s.regs c) (hhalted : s.chState c = 3) (hopen : s.volState v = 3)
    (hfree : s.volumeTaken c v = false) (hadmitted : s.chanAdmitted c v = true) (hroom : s.nextSeq v + 2 ≤ s.slots v) {k : Take}
    (htake : (s.recChan c).take = some k) (hheld : (s.recChan c).held = []) (hsrc : (s.recChan c).srcEnded = false) :
    ∃ q : Take, chResume c s = ((s.setRecChan c { s.recChan c with held := [] }).markTake c v (s.rd (Adr.BTH.NEXT_TAKE v))).setTake c q ∧ q.vol = v ∧
      q.stripe = s.rd (Adr.BTH.APPEND v) ∧ q.continuation = true ∧ q.prevVol = k.vol ∧ q.prevTake = k.id := by
  generalize hx : s.recChan c = x at htake hheld hsrc
  obtain ⟨take, items, held, queue, ending, srcEnded, later, ringPos⟩ := x
  dsimp only at htake hheld hsrc
  subst htake hheld hsrc
  obtain ⟨q, hstart, hvol, -, hstripe, -, hcont, hprev⟩ := State.startTake_runs (s := s.setRecChan c ⟨some k, items, [], queue, ending, false, later, ringPos⟩)
    hv hopen ((s.volumeTaken_setRecChan c v _).trans hfree) hadmitted hroom (if s.isCodec c then 0 else k.stride) false (some k)
  refine ⟨q, ?_, hvol, hstripe, hcont, hprev k rfl⟩
  unfold chResume
  rw [if_neg (by rw [← hv]; simp [hhalted, hopen]), hx]
  dsimp only
  rw [hstart]
  rfl

end Sys2Proof.Machine

/-! What a recording channel releases, abandons and checkpoints (R206, R208, R210, R212). -/

namespace Sys2Proof.Machine

/-! ### Releases to the source (R210) -/

/-- The second state is the first but for what is released to the sources: registers below the Boathouse's and the contexts of the encoder. -/
structure ReleasesOnly (s t : State) : Prop where
  bth : t.bth = s.bth
  dram : t.dram = s.dram
  regs : ∀ a, 0x30000 ≤ a → t.rd a = s.rd a

theorem ReleasesOnly.refl (s : State) : ReleasesOnly s s := ⟨rfl, rfl, fun _ _ => rfl⟩

theorem ReleasesOnly.trans {s t u : State} (h : ReleasesOnly s t) (k : ReleasesOnly t u) : ReleasesOnly s u :=
  ⟨k.bth.trans h.bth, k.dram.trans h.dram, fun a ha => (k.regs a ha).trans (h.regs a ha)⟩

theorem State.rd_setReg_ringSource (s : State) (rf : RegFile) (c n : Nat) {a : Nat} (ha : 0x30000 ≤ a) :
    (s.setReg (Adr.GLS.RD_PTR (Fld.BTH.CH_CFG_SRC rf c)) n).rd a = s.rd a :=
  (SameRegsBut.setReg s _ n).rd (List.mem_singleton.not.mpr (Nat.ne_of_gt (Nat.lt_of_lt_of_le (ringSource_lt rf c) ha)))

theorem ReleasesOnly.releaseItem (s : State) (c : Nat) (i : ChanItem) : ReleasesOnly s (s.releaseItem c i) := by
  unfold State.releaseItem
  split
  · exact ⟨rfl, rfl, fun _ ha => s.rd_setReg_ringSource s.regs c _ ha⟩
  · exact ⟨rfl, rfl, fun _ _ => rfl⟩

theorem ReleasesOnly.recChan {s t : State} (h : ReleasesOnly s t) (c : Nat) : t.recChan c = s.recChan c := congrArg (fun b : Bth => SMap.get _ b.chans c) h.bth

theorem ReleasesOnly.outstanding {s t : State} (h : ReleasesOnly s t) (p : MemberUse → Bool) : t.outstanding p = s.outstanding p :=
  congrArg (fun b : Bth => b.members.any (fun e => e.2.cmds.any (fun c => p c.purpose))) h.bth

/-! ### Releases from the front (R209, R210) -/

/-- A take whose last released item is `i`. -/
def Take.release (codec : Bool) (t : Take) (i : ChanItem) : Take :=
  { t with last := some i.key, lastSof := i.sof, bytes := if codec then t.bytes + i.bytes else
      (i.key + 2 ^ 32 - t.first.getD i.key) % 2 ^ 32 * t.stride * 4096 + ceilDiv i.bytes 4096 * 4096 }

/-- The item on the medium at the front is released. -/
def State.releaseHead (s : State) (c : Nat) (t : Take) (i : ChanItem) (rest : List ChanItem) : State :=
  ((s.setRecChan c { s.recChan c with take := some (t.release (s.isCodec c) i), items := rest }).setReg (Adr.BTH.CH_LAST c) i.key).releaseItem c i

section front
variable {s : State} {c : Nat} {t : Take} {i : ChanItem} {rest : List ChanItem} (htake : (s.recChan c).take = some t) (hitems : (s.recChan c).items = i :: rest)
include htake hitems

theorem State.releaseFront_pass (hpass : i.pass = true) (fuel : Nat) : s.releaseFront c (fuel + 1) =
    ((s.setRecChan c { s.recChan c with items := rest }).releaseItem c i).releaseFront c fuel := by
  rw [State.releaseFront]
  dsimp only
  rw [htake, hitems]
  dsimp only
  rw [if_pos hpass]

variable {q : Nat} (hstart : t.startSeq = some q) (hjournal : s.outstanding (fun u => decide (u = .journal t.vol q)) = false) (hwritten : i.pass = false)
include hstart hwritten

theorem State.releaseFront_waits (hout : s.outstanding (fun u => decide (u = .frame c t.vol t.id i.key)) = true) (fuel : Nat) :
    s.releaseFront c (fuel + 1) = s := by
  rw [State.releaseFront]
  dsimp only
  rw [htake, hitems]
  dsimp only
  rw [if_neg (by rw [hwritten]; decide), hstart, hout, Bool.or_true, if_pos rfl]

include hjournal

theorem State.releaseFront_done (hout : s.outstanding (fun u => decide (u = .frame c t.vol t.id i.key)) = false) (fuel : Nat) :
    s.releaseFront c (fuel + 1) = (s.releaseHead c t i rest).releaseFront c fuel := by
  rw [State.releaseFront]
  dsimp only
  rw [htake, hitems]
  dsimp only
  rw [if_neg (by rw [hwritten]; decide)]
  exact if_neg (by simp [hstart, hjournal, hout])

end front

theorem State.releaseFront_empty {s : State} {c : Nat} (h : (s.recChan c).items = []) (fuel : Nat) : s.releaseFront c fuel = s := by
  cases fuel with
  | zero => rfl
  | succ fuel =>
    rw [State.releaseFront]
    dsimp only
    rw [h]
    split
    · rename_i heq
      exact absurd heq.symm (List.cons_ne_nil _ _)
    · rfl

/-- A channel has released the items `done`: each is on the medium, the next one is not, and CH_LAST shows the last. -/
structure Released (c : Nat) (t : Take) (s u : State) (done : List ChanItem) : Prop where
  items : (s.recChan c).items = done ++ (u.recChan c).items
  onMedium : ∀ i ∈ done, s.outstanding (fun w => decide (w = .frame c t.vol t.id i.key)) = false
  next : ∀ i rest, (u.recChan c).items = i :: rest → s.outstanding (fun w => decide (w = .frame c t.vol t.id i.key)) = true
  last : ∀ i init, done = init ++ [i] → u.rd (Adr.BTH.CH_LAST c) = i.key % 2 ^ 32
  none : done = [] → u.rd (Adr.BTH.CH_LAST c) = s.rd (Adr.BTH.CH_LAST c)
  dram : u.dram = s.dram

theorem State.releaseFront_released {c : Nat} (items : List ChanItem) : ∀ (s : State) (t : Take) (q : Nat), (s.recChan c).take = some t →
    (s.recChan c).items = items → t.startSeq = some q → items.all (fun i => !i.pass) = true →
    s.outstanding (fun u => decide (u = .journal t.vol q)) = false → ∃ done, Released c t s (s.releaseFront c items.length) done := by
  induction items with
  | nil =>
    intro s t q _ hitems _ _ _
    rw [State.releaseFront_empty hitems]
    refine ⟨[], rfl, fun _ h => absurd h List.not_mem_nil, fun i rest h => ?_, fun i init h => ?_, fun _ => rfl, rfl⟩
    · exact absurd (hitems.symm.trans h).symm (List.cons_ne_nil _ _)
    · exact absurd h.symm (List.append_ne_nil_of_right_ne_nil _ (List.cons_ne_nil _ _))
  | cons i rest ih =>
    intro s t q htake hitems hstart hwritten hjournal
    rw [List.all_cons, Bool.and_eq_true, Bool.not_eq_true'] at hwritten
    obtain ⟨hwritten, hrest⟩ := hwritten
    rcases Bool.eq_false_or_eq_true (s.outstanding fun w => decide (w = .frame c t.vol t.id i.key)) with hout | hout
    · rw [List.length_cons, State.releaseFront_waits htake hitems hstart hwritten hout]
      refine ⟨[], rfl, fun _ h => absurd h List.not_mem_nil, fun j _ h => ?_, fun j init h => ?_, fun _ => rfl, rfl⟩
      · obtain rfl := (List.cons.inj (hitems.symm.trans h)).1
        exact hout
      · exact absurd h.symm (List.append_ne_nil_of_right_ne_nil _ (List.cons_ne_nil _ _))
    · have hnext := State.releaseFront_done htake hitems hstart hjournal hwritten hout rest.length
      have hfreed := ReleasesOnly.releaseItem ((s.setRecChan c { s.recChan c with take := some (t.release (s.isCodec c) i), items := rest }).setReg
        (Adr.BTH.CH_LAST c) i.key) c i
      have hchan : (s.releaseHead c t i rest).recChan c = { s.recChan c with take := some (t.release (s.isCodec c) i), items := rest } :=
        (hfreed.recChan c).trans (s.recChan_setRecChan_same c _)
      have hout_eq (p : MemberUse → Bool) : (s.releaseHead c t i rest).outstanding p = s.outstanding p :=
        hfreed.outstanding p
      have hshown : (s.releaseHead c t i rest).rd (Adr.BTH.CH_LAST c) = i.key % 2 ^ 32 :=
        (hfreed.regs _ (Nat.le_trans (by decide) (Nat.le_add_right _ _))).trans (State.rd_setReg_same _ _ _)
      obtain ⟨done, hdone⟩ := ih (s.releaseHead c t i rest) (t.release (s.isCodec c) i) q
        (congrArg Chan.take hchan) (congrArg Chan.items hchan) hstart hrest ((hout_eq _).trans hjournal)
      rw [List.length_cons, hnext]
      refine ⟨i :: done, ?_, List.forall_mem_cons.mpr ⟨hout, fun j hj => (hout_eq _).symm.trans (hdone.onMedium j hj)⟩,
        fun j tail h => (hout_eq _).symm.trans (hdone.next j tail h), fun j init h => ?_, fun h => absurd h (List.cons_ne_nil _ _), hdone.dram.trans hfreed.dram⟩
      · rw [hitems, List.cons_append, ← hdone.items, hchan]
      · cases init with
        | nil =>
          obtain ⟨rfl, hnil⟩ := List.cons.inj h
          exact (hdone.none hnil).trans hshown
        | cons _ init => exact hdone.last j init (List.cons.inj h).2

theorem frameOnMedium_acts {s : State} {c : Nat} (h : s.chState c = 1 ∨ s.chState c = 2) : frameOnMedium c s = s.releaseFront c (s.recChan c).items.length :=
  if_pos h

theorem frameOnMedium_ignored {s : State} {c : Nat} (h : s.chState c = 0 ∨ s.chState c = 3) : frameOnMedium c s = s := if_neg (by omega)

/-- A codec channel passes the record at its front. -/
theorem frameOnMedium_passes {s : State} {c : Nat} (hstate : s.chState c = 1 ∨ s.chState c = 2) (hcodec : s.isCodec c = true) {t : Take}
    (htake : (s.recChan c).take = some t) {i : ChanItem} (hitems : (s.recChan c).items = [i]) (hpass : i.pass = true) :
    frameOnMedium c s = (s.setRecChan c { s.recChan c with items := [] }).setReg (Adr.GLS.RD_PTR (Fld.BTH.CH_CFG_SRC s.regs c)) i.ringEnd := by
  rw [frameOnMedium_acts hstate, hitems]
  exact (State.releaseFront_pass htake hitems hpass 0).trans (if_pos hcodec)

/-! ### Runs of counts (R206) -/

/-- The runs make up the counts: as many as those, each from one of them. -/
theorem countRuns_counts (l : List Nat) : ((countRuns l).map (·.2)).sum = l.length ∧ ∀ g ∈ countRuns l, g.1 ∈ l := by
  induction l with
  | nil => exact ⟨rfl, fun _ h => absurd h List.not_mem_nil⟩
  | cons k r ih =>
    unfold countRuns
    split
    · rename_i f n rest hruns
      rw [hruns] at ih
      obtain ⟨hsum, hmem⟩ := ih
      obtain ⟨hfirst, hothers⟩ := List.forall_mem_cons.mp hmem
      simp only [List.map_cons, List.sum_cons] at hsum
      split
      · exact ⟨by simp only [List.map_cons, List.sum_cons, List.length_cons]; omega,
          List.forall_mem_cons.mpr ⟨List.mem_cons_self, fun g hg => List.mem_cons_of_mem k (hothers g hg)⟩⟩
      · exact ⟨by simp only [List.map_cons, List.sum_cons, List.length_cons]; omega,
          List.forall_mem_cons.mpr ⟨List.mem_cons_self, List.forall_mem_cons.mpr ⟨List.mem_cons_of_mem k hfirst,
            fun g hg => List.mem_cons_of_mem k (hothers g hg)⟩⟩⟩
    · rename_i hruns
      rw [hruns] at ih
      exact ⟨congrArg (1 + ·) ih.1 |>.trans (Nat.add_comm _ _), List.forall_mem_cons.mpr ⟨List.mem_cons_self, fun _ h => absurd h List.not_mem_nil⟩⟩

end Sys2Proof.Machine

/-! ABANDON, the end of a drained take, and checkpoints (R206, R208, R212). -/

namespace Sys2Proof.Machine

theorem State.nextRawTake_none {s : State} {c : Nat} (h : (s.recChan c).later = []) : s.nextRawTake c = s := by
  unfold State.nextRawTake
  rw [h]

/-- An idle channel that has left its take. -/
def State.leaveTake (s : State) (c : Nat) (later : List LaterTake) (ringPos : Nat) : State :=
  (s.setCh c 0 0).setRecChan c { chanReset with later := later, ringPos := ringPos }

theorem State.leaveTake_chan (s : State) (c : Nat) (later : List LaterTake) (ringPos : Nat) :
    (s.leaveTake c later ringPos).recChan c = { chanReset with later := later, ringPos := ringPos } :=
  State.recChan_setRecChan_same _ c _

theorem State.leaveTake_regs (s : State) (c : Nat) (later : List LaterTake) (ringPos : Nat) :
    (s.leaveTake c later ringPos).chState c = 0 ∧ SameRegsBut [Adr.BTH.CH_STAT c] s (s.leaveTake c later ringPos) :=
  ⟨(State.chStat_fields (s.rd_setCh c (by decide) (by decide)) (by decide) (by decide)).1, .setReg s _ _⟩

/-! ### ABANDON (R212) -/

theorem SameRegsBut.writeGap (s : State) (c : Nat) (t : Take) (first count : Nat) :
    SameRegsBut [Adr.BTH.JNL_USED t.vol, Adr.BTH.GAPS c] s (s.writeGap c t first count) := by
  unfold State.writeGap
  split
  · exact (ServesAndWrites.journal s c t 4 0 first count []).regs.trans (.setReg _ _ _)
  · exact .refl _ rfl

/-- The GAP records of an abandoned take, where its volume can be written. -/
def State.writeGaps (s : State) (c : Nat) (held : List ChanItem) (t : Take) : State :=
  if s.volState t.vol = 3 ∧ t.first.isSome = true then
    (gapRuns (t.next.getD 0) (t.next.getD 0) (countRuns (held.map (fun (i : ChanItem) => i.key)))).foldl
      (fun (s : State) (g : Nat × Nat) => s.writeGap c t g.1 g.2) s
  else s

theorem SameRegsBut.writeGaps (s : State) (c : Nat) (held : List ChanItem) (t : Take) :
    SameRegsBut [Adr.BTH.JNL_USED t.vol, Adr.BTH.GAPS c] s (s.writeGaps c held t) := by
  unfold State.writeGaps
  split
  · exact .foldl (fun g _ u => .writeGap u c t g.1 g.2) s
  · exact .refl _ rfl

/-- The take of an abandoned channel, if it has one, is ended where its volume can be written. -/
def State.closeTake (s : State) (c : Nat) (held : List ChanItem) : Option Take → State
  | some t => if (s.writeGaps c held t).volState t.vol = 3 then (s.writeGaps c held t).endTake c t 4 else s.writeGaps c held t
  | none => s

theorem State.rd_closeTake_abandoned (s : State) (c : Nat) (held : List ChanItem) {take : Option Take} (h : ∀ k, take = some k → k.vol < 16) :
    (s.closeTake c held take).rd (Adr.BTH.ABANDONED c) = s.rd (Adr.BTH.ABANDONED c) := by
  cases take with
  | none => rfl
  | some t =>
    have hvol := h t rfl
    have hgaps : (s.writeGaps c held t).rd (Adr.BTH.ABANDONED c) = s.rd (Adr.BTH.ABANDONED c) := (SameRegsBut.writeGaps s c held t).rd (by
      simp only [List.mem_cons, List.not_mem_nil, or_false, RegAddr, Adr.BTH.ABANDONED, Adr.BTH.JNL_USED, Adr.BTH.GAPS]
      omega)
    rw [State.closeTake]
    split
    · refine ((ServesAndWrites.endTake _ c t 4).regs.rd ?_).trans hgaps
      simp only [List.mem_cons, List.not_mem_nil, or_false, RegAddr, Adr.BTH.ABANDONED, Adr.BTH.JNL_USED, Adr.BTH.APPEND]
      omega
    · exact hgaps

theorem chAbandon_ignored {s : State} {c : Nat} (h : s.chState c ≠ 3) : chAbandon c s = s := if_pos h

/-- What a halted channel held is dropped and counted, its take is ended and it goes idle. -/
theorem chAbandon_acts {s : State} {c : Nat} (hhalted : s.chState c = 3) (hlater : (s.recChan c).later = []) : chAbandon c s =
    ((((s.recChan c).held.foldl (fun s i => s.releaseItem c i) s).bumpBy (Adr.BTH.ABANDONED c) (s.recChan c).held.length).closeTake c
      (s.recChan c).held (s.recChan c).take).leaveTake c [] (s.recChan c).ringPos := by
  unfold chAbandon
  rw [if_neg (not_not_intro hhalted)]
  dsimp only
  rw [hlater, List.flatMap_nil, List.append_nil]
  refine (State.nextRawTake_none (congrArg Chan.later (State.leaveTake_chan _ c [] (s.recChan c).ringPos))).trans ?_
  cases (s.recChan c).take with
  | none => rfl
  | some t => rfl

theorem chAbandon_counts {s : State} {c : Nat} (hhalted : s.chState c = 3) (hlater : (s.recChan c).later = [])
    (hvol : ∀ k, (s.recChan c).take = some k → k.vol < 16) :
    (chAbandon c s).rd (Adr.BTH.ABANDONED c) = satAdd 32 (s.rd (Adr.BTH.ABANDONED c)) (s.recChan c).held.length := by
  have hfreed : ReleasesOnly s ((s.recChan c).held.foldl (fun s i => s.releaseItem c i) s) :=
    foldl_rel .refl .trans (fun i _ t => .releaseItem t c i) s
  have hcount := hfreed.regs (Adr.BTH.ABANDONED c) (Nat.le_trans (by decide) (Nat.le_add_right _ _))
  rw [chAbandon_acts hhalted hlater, (State.leaveTake_regs _ c _ _).2.rd, State.rd_closeTake_abandoned _ c _ hvol, State.bumpBy, State.rd_setReg_same,
    Nat.mod_eq_of_lt (satAdd_lt _ _ _), hcount]
  simp only [List.mem_singleton, RegAddr, Adr.BTH.ABANDONED, Adr.BTH.CH_STAT]
  omega

/-! ### The end of a drained take (R212) -/

/-- An idle CODEC channel passes the whole ring. -/
theorem State.codecPump_idle (s : State) {c : Nat} (hidle : s.chState c = 0) (htake : (s.recChan c).take = none) :
    ∃ x n, x.take = none ∧ s.codecPump c 1 = (s.setRecChan c x).setReg (Adr.GLS.RD_PTR (Fld.BTH.CH_CFG_SRC s.regs c)) n := by
  refine ⟨{ s.recChan c with ringPos := s.rd (Adr.GLS.WR_PTR (Fld.BTH.CH_CFG_SRC s.regs c)) }, s.rd (Adr.GLS.WR_PTR (Fld.BTH.CH_CFG_SRC s.regs c)),
    htake, ?_⟩
  unfold State.codecPump
  dsimp only
  rw [hidle]
  rfl

theorem takeDrainDone_ignored {s : State} {c : Nat} (h : s.chState c ≠ 2) : takeDrainDone c s = s := if_pos h

/-- A channel that has drained ends its take and goes idle; a CODEC channel then passes what its ring holds. -/
theorem takeDrainDone_acts {s : State} {c : Nat} (hdrains : s.chState c = 2) (hitems : (s.recChan c).items = []) {k : Take}
    (htake : (s.recChan c).take = some k) (hlater : (s.recChan c).later = []) :
    ∃ u : State, u = (s.endTake c k (if k.geomEnd then 6 else 0)).leaveTake c [] (s.recChan c).ringPos ∧ (takeDrainDone c s = u ∨
      ∃ x n, x.take = none ∧ takeDrainDone c s = (u.setRecChan c x).setReg (Adr.GLS.RD_PTR (Fld.BTH.CH_CFG_SRC u.regs c)) n) := by
  have hchan := (s.endTake c k (if k.geomEnd then 6 else 0)).leaveTake_chan c [] (s.recChan c).ringPos
  have hstate := ((s.endTake c k (if k.geomEnd then 6 else 0)).leaveTake_regs c [] (s.recChan c).ringPos).1
  refine ⟨_, rfl, ?_⟩
  unfold takeDrainDone
  rw [if_neg (not_not_intro hdrains), State.releaseFront_empty hitems]
  dsimp only
  rw [hitems, htake, hlater]
  dsimp only
  rw [if_neg (by decide)]
  by_cases hcodec : ((s.endTake c k (if k.geomEnd then 6 else 0)).leaveTake c [] (s.recChan c).ringPos).isCodec c = true
  · obtain ⟨x, n, hx, hpump⟩ := State.codecPump_idle _ hstate (congrArg Chan.take hchan)
    exact .inr ⟨x, n, hx, (if_pos hcodec).trans hpump⟩
  · exact .inl ((if_neg hcodec).trans (State.nextRawTake_none (congrArg Chan.later hchan)))

/-! ### Checkpoints (R206) -/

theorem checkpointDue_ignored {s : State} {c : Nat} (h : (s.recChan c).take = none) : checkpointDue c s = s := by
  unfold checkpointDue
  rw [h]

theorem checkpointDue_acts {s : State} {c : Nat} {k : Take} (hrec : s.chState c = 1) (htake : (s.recChan c).take = some k) (hfirst : k.first.isSome = true)
    (hroom : s.nextSeq k.vol + 1 < s.slots k.vol) : checkpointDue c s =
      (s.chanRecord c k 2 0 0 0 []).2.appendJournal k.vol (s.chanRecord c k 2 0 0 0 []).1 := by
  unfold checkpointDue
  rw [htake]
  dsimp only
  rw [if_pos ⟨hrec, hfirst⟩, State.chanJournal, if_pos hroom]

/-- A journal record goes to the member that holds the next slot of its volume's journal. -/
theorem State.appendJournal_cmd (s : State) (v : Nat) (r : JournalRec) : ∃ d ∈ ((s.appendJournal v r).member (s.mediaOf v (2 ^ 20 + 4096 * s.nextSeq v)).1).cmds,
    d.purpose = .journal v (s.nextSeq v) ∧ d.op = .write true ∧ d.bytes = 4096 := by
  obtain ⟨d, hd, hpurpose, hop, hbytes, -⟩ := s.command_mem (s.mediaOf v (2 ^ 20 + 4096 * s.nextSeq v)).1 (.write true)
    [stagedBlock (s.journalBytes v (s.nextSeq v) r)] (s.mediaOf v (2 ^ 20 + 4096 * s.nextSeq v)).2 4096 (.journal v (s.nextSeq v))
  exact ⟨d, hd, hpurpose, hop, hbytes⟩

end Sys2Proof.Machine

/-! Recording channels (O39). -/

namespace Sys2Proof.Machine

/-- A checkpoint is one more record in the journal of the take's volume. -/
theorem checkpointDue_records {s : State} {c : Nat} {k : Take} (hrec : s.chState c = 1) (htake : (s.recChan c).take = some k)
    (hfirst : k.first.isSome = true) (hroom : s.nextSeq k.vol + 1 < s.slots k.vol) :
    (checkpointDue c s).rd (Adr.BTH.JNL_USED k.vol) = satInc 32 (s.rd (Adr.BTH.JNL_USED k.vol)) ∧ SameRegsBut [Adr.BTH.JNL_USED k.vol] s (checkpointDue c s) ∧
      ∃ d ∈ ((checkpointDue c s).member (s.mediaOf k.vol (2 ^ 20 + 4096 * s.nextSeq k.vol)).1).cmds, d.purpose = .journal k.vol (s.nextSeq k.vol) ∧
        d.op = .write true ∧ d.bytes = 4096 := by
  rw [checkpointDue_acts hrec htake hfirst hroom]
  refine ⟨?_, (ServesAndWrites.journal s c k 2 0 0 0 []).regs, ?_⟩
  · rw [State.appendJournal_used, (ServesMembers.chanRecord s c k 2 0 0 0 []).sameRegs [] |>.rd List.not_mem_nil]
  · have hsame : DrawsOnly s (s.chanRecord c k 2 0 0 0 []).2 := s.chanRecord_draws c k 2 0 0 0 []
    have hcmd := (s.chanRecord c k 2 0 0 0 []).2.appendJournal_cmd k.vol (s.chanRecord c k 2 0 0 0 []).1
    have hseq : (s.chanRecord c k 2 0 0 0 []).2.nextSeq k.vol = s.nextSeq k.vol := by
      rw [hsame]
      rfl
    have hplace : (s.chanRecord c k 2 0 0 0 []).2.mediaOf k.vol (2 ^ 20 + 4096 * s.nextSeq k.vol) = s.mediaOf k.vol (2 ^ 20 + 4096 * s.nextSeq k.vol) := by
      rw [hsame]
      rfl
    rwa [hseq, hplace] at hcmd

/-! ### START, RESUME and ABANDON -/

section course
variable {s : State} {c v : Nat} (hv : v = Fld.BTH.CH_CFG_VOL s.regs c)

section start
variable (hidle : s.chState c = 0) (hcodec : s.isCodec c = true) (hen : Fld.BTH.CH_CFG_EN s.regs c = 1) (hon : s.enabled 0x30 = true)
include hv hidle hcodec hen hon

/-- START begins a take at the append stripe, with the next take number. -/
theorem chStart_begins (hopen : s.volState v = 3) (hfree : s.volumeTaken c v = false) (hadmitted : s.chanAdmitted c v = true)
    (hroom : s.nextSeq v + 2 ≤ s.slots v) : (chStart c s).chState c = 1 ∧ (chStart c s).rd (Adr.BTH.CH_TAKE c) = s.rd (Adr.BTH.NEXT_TAKE v) ∧
      (chStart c s).rd (Adr.BTH.NEXT_TAKE v) = (s.rd (Adr.BTH.NEXT_TAKE v) + 1) % 2 ^ 32 ∧
      (∃ k, ((chStart c s).recChan c).take = some k ∧ k.vol = v ∧ k.id = s.rd (Adr.BTH.NEXT_TAKE v) ∧ k.stripe = s.rd (Adr.BTH.APPEND v) ∧ k.first = none ∧
        k.continuation = false) ∧ SameRegsBut [Adr.BTH.CH_STAT c, Adr.BTH.CH_TAKE c, Adr.BTH.NEXT_TAKE v] s (chStart c s) ∧ (chStart c s).dram = s.dram := by
  obtain ⟨k, hstart, hvol, hid, hstripe, hfirst, hcont, -⟩ := State.startTake_runs (s := s.readyChan c) hv hopen
    ((s.volumeTaken_setRecChan c v _).trans hfree) hadmitted hroom 0 true none
  obtain ⟨hstate, hnumber, hnext, hregs⟩ := (s.readyChan c).markTake_regs c v (s.rd_lt (Adr.BTH.NEXT_TAKE v))
  rw [(chStart_acts hidle hcodec hen hon).trans (congrArg Prod.snd hstart)]
  exact ⟨hstate, hnumber, hnext, ⟨k, congrArg Chan.take (State.recChan_setRecChan_same _ c _), hvol, hid, hstripe, hfirst, hcont⟩, hregs, rfl⟩

/-- On a volume that is not OPEN it halts with NOT_OPEN. -/
theorem chStart_notOpen (hclosed : s.volState v ≠ 3) :
    (chStart c s).chState c = 3 ∧ Fld.BTH.CH_STAT_REASON (chStart c s).regs c = 1 ∧ SameRegsBut [Adr.BTH.CH_STAT c] s (chStart c s) := by
  have hstart := State.startTake_closed (s := s.readyChan c) hv hclosed 0 true none
  obtain ⟨hstate, hreason⟩ := State.chStat_fields ((s.readyChan c).rd_setCh c (st := 3) (reason := 1) (by decide) (by decide)) (by decide) (by decide)
  rw [(chStart_acts hidle hcodec hen hon).trans (congrArg Prod.snd hstart)]
  exact ⟨hstate, hreason, .setReg (s.readyChan c) _ _⟩

/-- Without its flow it is refused with CONFIG. -/
theorem chStart_refused (hopen : s.volState v = 3) (hfree : s.volumeTaken c v = false) (hrefused : s.chanAdmitted c v = false) :
    (chStart c s).chState c = 0 ∧ (chStart c s).regs = s.regs ∧
      { page := (0x301 + c) / 16, cause := 0x301 + c, code := 0x07, event := true, unit := 0x301 + c } ∈ (chStart c s).held := by
  have hstart := State.startTake_unadmitted (s := s.readyChan c) hv hopen ((s.volumeTaken_setRecChan c v _).trans hfree) hrefused 0 true none
  rw [(chStart_acts hidle hcodec hen hon).trans (congrArg Prod.snd hstart)]
  exact ⟨hidle, rfl, (State.mem_fault _ _ _ _).mpr (.inl rfl)⟩

end start

/-- STOP drains what the channel holds. -/
theorem chStop_keeps (hrec : s.chState c = 1) (hcodec : s.isCodec c = true) : (chStop c s).chState c = 2 ∧
    ((chStop c s).recChan c).items = (s.recChan c).items ∧ SameRegsBut [Adr.BTH.CH_STAT c] s (chStop c s) := by
  rw [(chStop_drains hrec hcodec).trans (State.drainChan_eq hrec false)]
  refine ⟨(State.chStat_fields (State.rd_setCh _ c (by decide) (by decide)) (by decide) (by decide)).1, ?_, .setReg (s.setRecChan c _) _ _⟩
  exact (congrArg Chan.items (s.recChan_setRecChan_same c _)).trans rfl

include hv in
/-- RESUME begins a continuation of the halted take. -/
theorem chResume_continues {k : Take} (hhalted : s.chState c = 3) (hopen : s.volState v = 3) (hfree : s.volumeTaken c v = false)
    (hadmitted : s.chanAdmitted c v = true) (hroom : s.nextSeq v + 2 ≤ s.slots v) (htake : (s.recChan c).take = some k) (hheld : (s.recChan c).held = [])
    (hsrc : (s.recChan c).srcEnded = false) : (chResume c s).chState c = 1 ∧ (chResume c s).rd (Adr.BTH.CH_TAKE c) = s.rd (Adr.BTH.NEXT_TAKE v) ∧
      (∃ q, ((chResume c s).recChan c).take = some q ∧ q.vol = v ∧ q.continuation = true ∧ q.prevVol = k.vol ∧ q.prevTake = k.id ∧
        q.stripe = s.rd (Adr.BTH.APPEND v)) ∧ SameRegsBut [Adr.BTH.CH_STAT c, Adr.BTH.CH_TAKE c, Adr.BTH.NEXT_TAKE v] s (chResume c s) := by
  obtain ⟨q, hresume, hvol, hstripe, hcont, hprevVol, hprevTake⟩ := chResume_runs hv hhalted hopen hfree hadmitted hroom htake hheld hsrc
  obtain ⟨hstate, hnumber, -, hregs⟩ := (s.setRecChan c { s.recChan c with held := [] }).markTake_regs c v (s.rd_lt (Adr.BTH.NEXT_TAKE v))
  rw [hresume]
  exact ⟨hstate, hnumber, ⟨q, congrArg Chan.take (State.recChan_setRecChan_same _ c _), hvol, hcont, hprevVol, hprevTake, hstripe⟩, hregs⟩

/-- ABANDON leaves the channel idle, without its take and what it held, which is counted. -/
theorem chAbandon_leaves (hhalted : s.chState c = 3) (hlater : (s.recChan c).later = []) (hvol : ∀ k, (s.recChan c).take = some k → k.vol < 16) :
    (chAbandon c s).chState c = 0 ∧ ((chAbandon c s).recChan c).take = none ∧ ((chAbandon c s).recChan c).held = [] ∧
      (chAbandon c s).rd (Adr.BTH.ABANDONED c) = satAdd 32 (s.rd (Adr.BTH.ABANDONED c)) (s.recChan c).held.length := by
  have hcount := chAbandon_counts hhalted hlater hvol
  rw [chAbandon_acts hhalted hlater] at hcount ⊢
  have hchan (u : State) := u.leaveTake_chan c [] (s.recChan c).ringPos
  exact ⟨(State.leaveTake_regs _ c [] _).1, congrArg Chan.take (hchan _), congrArg Chan.held (hchan _), hcount⟩

/-! ### Releases and the end of a drained take -/

/-- A draining CODEC channel passes its record. -/
theorem frameOnMedium_passesRing {i : ChanItem} (hdrains : s.chState c = 2) (hcodec : s.isCodec c = true) (hsome : (s.recChan c).take.isSome = true)
    (hitems : (s.recChan c).items = [i]) (hpass : i.pass = true) : ((frameOnMedium c s).recChan c).items = [] ∧
      (frameOnMedium c s).rd (Adr.GLS.RD_PTR (Fld.BTH.CH_CFG_SRC s.regs c)) = i.ringEnd % 2 ^ 32 ∧
      SameRegsBut [Adr.GLS.RD_PTR (Fld.BTH.CH_CFG_SRC s.regs c)] s (frameOnMedium c s) ∧ (frameOnMedium c s).dram = s.dram := by
  obtain ⟨t, htake⟩ := Option.isSome_iff_exists.mp hsome
  rw [frameOnMedium_passes (.inr hdrains) hcodec htake hitems hpass]
  exact ⟨congrArg Chan.items (State.recChan_setRecChan_same s c _), State.rd_setReg_same _ _ _, .setReg (s.setRecChan c _) _ _, rfl⟩

/-- A channel that has drained is idle, without a take, and the append stripe lies behind the take's. -/
theorem takeDrainDone_ends {k : Take} (hdrains : s.chState c = 2) (hitems : (s.recChan c).items = []) (htake : (s.recChan c).take = some k)
    (hlater : (s.recChan c).later = []) : (takeDrainDone c s).chState c = 0 ∧ ((takeDrainDone c s).recChan c).take = none ∧
      (takeDrainDone c s).rd (Adr.BTH.APPEND k.vol) = (k.stripe + ceilDiv k.bytes (2 ^ 20)) % 2 ^ 32 := by
  obtain ⟨u, hu, hend⟩ := takeDrainDone_acts hdrains hitems htake hlater
  obtain ⟨hstate, hregs⟩ := (s.endTake c k (if k.geomEnd then 6 else 0)).leaveTake_regs c [] (s.recChan c).ringPos
  have hchan := congrArg Chan.take ((s.endTake c k (if k.geomEnd then 6 else 0)).leaveTake_chan c [] (s.recChan c).ringPos)
  have happend := (hregs.rd (a := Adr.BTH.APPEND k.vol) (by
    simp only [List.mem_singleton, RegAddr, Adr.BTH.APPEND, Adr.BTH.CH_STAT]
    omega)).trans (s.endTake_append c k (if k.geomEnd then 6 else 0))
  rw [← hu] at hstate hchan happend
  rcases hend with hend | ⟨x, n, hx, hend⟩
  · exact hend ▸ ⟨hstate, hchan, happend⟩
  · have hkeeps {a : Nat} (ha : 0x30000 ≤ a) := (u.setRecChan c x).rd_setReg_ringSource u.regs c n ha
    rw [hend]
    exact ⟨(fld_of_rd (hkeeps (chStat_above c)) 0 2).trans hstate, (congrArg Chan.take (u.recChan_setRecChan_same c x)).trans hx,
      (hkeeps (Nat.le_trans (by decide) (Nat.le_add_right _ _))).trans happend⟩

end course

/-- Settles O39: START and RESUME go through `State.startTake_runs`, releases through the induction of `State.releaseFront_released`, and ABANDON, the end of
a drained take and a checkpoint through what ending a take and appending to the journal change. -/
theorem channelsTakeAndRelease : Obligations.ChannelsTakeAndRelease := by
  unfold Obligations.ChannelsTakeAndRelease
  intro s c v hv
  refine ⟨?startIgnored, ?starts, ?startClosed, ?startUnadmitted, ?stops, ?stopIgnored, ?haltedOnly, ?resumes, ?abandons, ?releaseIgnored, ?releases, ?passes,
    ?runs, ?drainIgnored, ?drained, ?noTake, ?checkpoint⟩
  case startIgnored => exact fun h => .of_answer rfl rfl (chStart_ignored h)
  case starts =>
    exact fun hidle hcodec hen hon hopen hfree hadmitted hroom =>
      .of_fact rfl rfl (chStart_begins hv hidle hcodec hen hon hopen hfree hadmitted hroom) fun _ _ _ _ h _ => h
  case startClosed =>
    exact fun hidle hcodec hen hon hclosed => .of_fact rfl rfl (chStart_notOpen hv hidle hcodec hen hon hclosed) fun _ _ _ _ h _ => h
  case startUnadmitted =>
    exact fun hidle hcodec hen hon hopen hfree hrefused =>
      .of_fact rfl rfl (chStart_refused hv hidle hcodec hen hon hopen hfree hrefused) fun _ _ _ _ h _ => h
  case stops => exact fun hrec hcodec => .of_fact rfl rfl (chStop_keeps hrec hcodec) fun _ _ _ _ h _ => h
  case stopIgnored => exact fun h => .of_answer rfl rfl (chStop_ignored h)
  case haltedOnly => exact fun h => ⟨.of_answer rfl rfl (chResume_ignored h), .of_answer rfl rfl (chAbandon_ignored h)⟩
  case resumes =>
    exact fun k hhalted hopen hfree hadmitted hroom htake hheld hsrc =>
      .of_fact rfl rfl (chResume_continues hv hhalted hopen hfree hadmitted hroom htake hheld hsrc) fun _ _ _ _ h _ => h
  case abandons => exact fun hhalted hlater hvol => .of_fact rfl rfl (chAbandon_leaves hhalted hlater hvol) fun _ _ _ _ h _ => h
  case releaseIgnored => exact fun h => .of_answer rfl rfl (frameOnMedium_ignored h)
  case releases =>
    intro k q hworks htake hstart hwritten hjournal
    obtain ⟨done, hdone⟩ := State.releaseFront_released (s.recChan c).items s k q htake rfl hstart hwritten hjournal
    exact .of_result (.of_answer rfl rfl (frameOnMedium_acts hworks))
      fun g i o _ => ⟨done, hdone.items, hdone.onMedium, hdone.next, hdone.last, hdone.none, hdone.dram⟩
  case passes =>
    exact fun i hdrains hcodec hsome hitems hpass =>
      .of_fact rfl rfl (frameOnMedium_passesRing hdrains hcodec hsome hitems hpass) fun _ _ _ _ h _ => h
  case runs =>
    intro l
    obtain ⟨hsum, hmem⟩ := countRuns_counts l
    exact ⟨List.sum_eq_foldl.symm.trans hsum, List.all_eq_true.mpr fun g hg => List.contains_iff_mem.mpr (hmem g hg)⟩
  case drainIgnored => exact fun h => .of_answer rfl rfl (takeDrainDone_ignored h)
  case drained =>
    exact fun k hdrains hitems htake _ hlater => .of_fact rfl rfl (takeDrainDone_ends hdrains hitems htake hlater) fun _ _ _ _ h _ => h
  case noTake => exact fun h => .of_answer rfl rfl (checkpointDue_ignored h)
  case checkpoint => exact fun k hrec htake hfirst hroom => .of_fact rfl rfl (checkpointDue_records hrec htake hfirst hroom) fun _ _ _ _ h _ => h

end Sys2Proof.Machine

/-! Members that are lost, and the volumes and channels that fail with them (R199, R205, R212). -/

namespace Sys2Proof.Machine

/-! ### Channels that halt on a volume (R212) -/

theorem channelUnit_below : ∀ ch < 16, channelUnit ch < 0xF00 := by decide

theorem channelOfUnit_member (m : Nat) : channelOfUnit (memberUnit m) = none := by
  refine List.find?_eq_none.mpr fun ch hch heq => ?_
  have hbelow := channelUnit_below ch (List.mem_range.mp hch)
  have hunit : channelUnit ch = 0xF00 + m := beq_iff_eq.mp heq
  omega

/-- What a member's failure tells upstream: an event fault. -/
theorem State.upstream_member (s : State) (unit m : Nat) : s.upstream unit (memberUnit m) = s.event unit (memberUnit m) 0x01 := by
  unfold State.upstream State.memoryError
  rw [if_neg (by unfold memberUnit; omega), channelOfUnit_member, ite_self]

theorem Halts.event {v reason : Nat} {s t : State} (h : Halts v reason s t) (unit cause code : Nat) : Halts v reason s (t.event unit cause code) :=
  ⟨h.table, h.waits, h.outbox, fun x hx => (State.mem_event t unit cause code x).mpr (.inr (h.held hx)), h.take, h.stat, h.regs⟩

/-- A round over the channels that does something to those at work on a volume. -/
theorem Halts.round {v reason : Nat} {f : State → Nat → State}
    (h : ∀ c, c < 8 → ∀ s : State, s.worksOn c v → Halts v reason s (f s c) ∧ (f s c).rd (Adr.BTH.CH_STAT c) = 3 + 16 * reason) (s : State) :
    let t := (List.range 8).foldl (fun (s : State) c => match (s.recChan c).take with
      | some t => if t.vol = v ∧ (s.chState c = 1 ∨ s.chState c = 2) then f s c else s
      | none => s) s
    Halts v reason s t ∧ ∀ c, c < 8 → s.worksOn c v → t.rd (Adr.BTH.CH_STAT c) = 3 + 16 * reason := by
  refine Halts.foldl (fun c hc u => ?_) s
  split
  · rename_i t htake
    split
    · rename_i hworks
      have hhalts := h c hc u ⟨⟨t, htake, hworks.1⟩, hworks.2⟩
      exact ⟨hhalts.1, fun _ => hhalts.2⟩
    · rename_i hidle
      refine ⟨.refl v reason u, fun hworks => absurd ⟨?_, hworks.2⟩ hidle⟩
      obtain ⟨t', htake', hvol⟩ := hworks.1
      exact Option.some.inj (htake.symm.trans htake') ▸ hvol
  · rename_i htake
    refine ⟨.refl v reason u, fun hworks => ?_⟩
    obtain ⟨t', htake', -⟩ := hworks.1
    exact absurd (htake.symm.trans htake') (Option.some_ne_none t').symm

theorem Halts.haltOn (s : State) (v m : Nat) :
    Halts v 3 s (s.haltOn v m) ∧ ∀ c, c < 8 → s.worksOn c v → (s.haltOn v m).rd (Adr.BTH.CH_STAT c) = 3 + 16 * 3 := by
  refine Halts.round (fun c hc u hworks => ?_) s
  obtain ⟨hhalts, hstat⟩ := Halts.haltChan hc hworks (reason := 3) (by decide) 2
  rw [State.upstream_member]
  exact ⟨hhalts.event _ _ _, hstat⟩

/-! ### Volumes that fail (R205) -/

/-- The second state is the first after some of the volumes in use have failed and the channels at work on them have halted. -/
structure LosesVolumes (s t : State) : Prop where
  table : t.bth.table = s.bth.table
  outbox : t.outbox = s.outbox
  held : s.held ⊆ t.held
  take : ∀ c, (t.recChan c).take = (s.recChan c).take
  cfg : ∀ v, v < 16 → t.rd (Adr.BTH.VOL_CFG v) = s.rd (Adr.BTH.VOL_CFG v)
  stat : ∀ c, c < 8 → t.rd (Adr.BTH.CH_STAT c) = s.rd (Adr.BTH.CH_STAT c) ∨ t.rd (Adr.BTH.CH_STAT c) = 3 + 16 * 3
  vols : ∀ v, v < 16 → t.rd (Adr.BTH.VOL_STAT v) = s.rd (Adr.BTH.VOL_STAT v) ∨ (s.volState v = 2 ∨ s.volState v = 3) ∧ t.volState v = 4 ∧
    ∀ c, c < 8 → s.worksOn c v → t.rd (Adr.BTH.CH_STAT c) = 3 + 16 * 3

theorem LosesVolumes.refl (s : State) : LosesVolumes s s :=
  ⟨rfl, rfl, List.Subset.refl _, fun _ => rfl, fun _ _ => rfl, fun _ _ => .inl rfl, fun _ _ => .inl rfl⟩

theorem State.volState_of_rd {s t : State} {v : Nat} (h : t.rd (Adr.BTH.VOL_STAT v) = s.rd (Adr.BTH.VOL_STAT v)) : t.volState v = s.volState v := fld_of_rd h 0 3

section loses
variable {s t u : State} (h : LosesVolumes s t)
include h

/-- A failed volume stays so. -/
theorem LosesVolumes.failed {v : Nat} (hv : v < 16) (hfailed : s.volState v = 4) : t.volState v = 4 :=
  (h.vols v hv).elim (fun k => (State.volState_of_rd k).trans hfailed) (·.2.1)

theorem LosesVolumes.halted {c : Nat} (hc : c < 8) (hhalted : s.rd (Adr.BTH.CH_STAT c) = 3 + 16 * 3) : t.rd (Adr.BTH.CH_STAT c) = 3 + 16 * 3 :=
  (h.stat c hc).elim (·.trans hhalted) id

theorem LosesVolumes.trans (k : LosesVolumes t u) : LosesVolumes s u where
  table := k.table.trans h.table
  outbox := k.outbox.trans h.outbox
  held := List.Subset.trans h.held k.held
  take c := (k.take c).trans (h.take c)
  cfg v hv := (k.cfg v hv).trans (h.cfg v hv)
  stat c hc := (k.stat c hc).elim (fun e => e ▸ h.stat c hc) .inr
  vols v hv := by
    rcases h.vols v hv with hsame | ⟨huse, hfailed, hhalted⟩
    · rcases k.vols v hv with ksame | ⟨kuse, kfailed, khalted⟩
      · exact .inl (ksame.trans hsame)
      · refine .inr ⟨State.volState_of_rd hsame ▸ kuse, kfailed, fun c hc hworks => ?_⟩
        rcases h.stat c hc with hstat | hstat
        · exact khalted c hc ((State.worksOn_of_stat (h.take c) hstat).mpr hworks)
        · exact k.halted hc hstat
    · exact .inr ⟨huse, k.failed hv hfailed, fun c hc hworks => k.halted hc (hhalted c hc hworks)⟩

theorem LosesVolumes.volMembers {v : Nat} (hv : v < 16) : t.volMembers v = s.volMembers v := by
  have hcfg : Fld.BTH.VOL_CFG_M t.regs v = Fld.BTH.VOL_CFG_M s.regs v := fld_of_rd (h.cfg v hv) _ _
  rw [State.volMembers, State.volMembers, State.volM, State.volM, hcfg]
  unfold State.slotMember State.slotWord
  rw [h.table]

/-- A member is lost with the volumes that fail. -/
theorem LosesVolumes.memberLost {m st : Nat} (hst : t.memState m = st)
    (hfailed : ∀ v, v < 16 → s.volState v = 2 ∨ s.volState v = 3 → m ∈ s.volMembers v → t.volState v = 4) : MemberLost s t m st := by
  refine ⟨hst, fun v hv huse hmem => ⟨hfailed v hv huse hmem, fun c tk hc htake hvol hworks => ?_⟩⟩
  rcases h.vols v hv with hsame | ⟨-, -, hhalted⟩
  · have hstate := (State.volState_of_rd hsame).symm.trans (hfailed v hv huse hmem)
    omega
  · exact State.chStat_fields (hhalted c hc ⟨⟨tk, htake, hvol⟩, hworks⟩) (by decide) (by decide)

end loses

/-! ### A volume looks at its members (R205) -/

/-- A volume that has failed. -/
def State.failVolume (s : State) (v m : Nat) : State := ((s.setVolState v 4).setVolWait v .none).haltOn v m

theorem State.checkVolume_idle {s : State} {v : Nat} (h : ∀ m ∈ s.volMembers v, s.memberBad m = false) : s.checkVolume v = s := by
  have hnone : (s.volMembers v).find? s.memberBad = none := List.find?_eq_none.mpr fun m hm hbad => absurd (hbad.symm.trans (h m hm)) (by decide)
  unfold State.checkVolume
  rw [hnone, ite_self]

/-- A volume in use with a bad member fails, any other stays as it is. -/
theorem State.checkVolume_cases (s : State) (v : Nat) :
    (s.volState v = 2 ∨ s.volState v = 3) ∧ (∃ m, s.checkVolume v = s.failVolume v m) ∨
      s.checkVolume v = s ∧ (s.volState v = 2 ∨ s.volState v = 3 → ∀ m ∈ s.volMembers v, s.memberBad m = false) := by
  unfold State.checkVolume
  split
  · rename_i huse
    split
    · rename_i m _
      exact .inl ⟨huse, m, rfl⟩
    · rename_i hnone
      exact .inr ⟨rfl, fun _ m hm => eq_false_of_ne_true (List.find?_eq_none.mp hnone m hm)⟩
  · rename_i hidle
    exact .inr ⟨rfl, fun huse => absurd huse hidle⟩

theorem State.failVolume_rd (s : State) {v m a : Nat} (ha : a ≠ Adr.BTH.VOL_STAT v) (hhalt : ¬ HaltReg v a) : (s.failVolume v m).rd a = s.rd a :=
  ((Halts.haltOn _ v m).1.regs a hhalt).trans ((SameRegsBut.setReg s (Adr.BTH.VOL_STAT v) 4).rd (List.mem_singleton.not.mpr ha))

theorem not_haltReg_volStat {v w : Nat} (hw : w < 16) : ¬ HaltReg v (Adr.BTH.VOL_STAT w) := by
  simp only [HaltReg, RegAddr, Adr.BTH.VOL_STAT, Adr.BTH.APPEND, Adr.BTH.JNL_USED, Adr.BTH.CH_STAT]
  omega

theorem not_haltReg_volCfg {v w : Nat} (hw : w < 16) : ¬ HaltReg v (Adr.BTH.VOL_CFG w) := by
  simp only [HaltReg, RegAddr, Adr.BTH.VOL_CFG, Adr.BTH.APPEND, Adr.BTH.JNL_USED, Adr.BTH.CH_STAT]
  omega

theorem not_haltReg_member {v a : Nat} (hv : v < 16) (ha : 0x31000 ≤ a) : ¬ HaltReg v a := by
  simp only [HaltReg, RegAddr, Adr.BTH.APPEND, Adr.BTH.JNL_USED, Adr.BTH.CH_STAT]
  omega

/-- A volume in FAILED, before its channels halt. -/
def State.stopVolume (s : State) (v : Nat) : State := (s.setVolState v 4).setVolWait v .none

/-- It is in FAILED, and the state is otherwise what it was but for registers beside the channels'. -/
structure StopsVolume (v : Nat) (s t : State) : Prop where
  table : t.bth.table = s.bth.table
  outbox : t.outbox = s.outbox
  held : t.held = s.held
  take : ∀ c, (t.recChan c).take = (s.recChan c).take
  stat : ∀ c, c < 8 → t.rd (Adr.BTH.CH_STAT c) = s.rd (Adr.BTH.CH_STAT c)
  state : t.volState v = 4

theorem StopsVolume.stopVolume (s : State) (v : Nat) : StopsVolume v s (s.stopVolume v) where
  table := rfl
  outbox := rfl
  held := rfl
  take _ := rfl
  stat c hc := (SameRegsBut.setReg s (Adr.BTH.VOL_STAT v) 4).rd (by simp only [List.mem_singleton, RegAddr, Adr.BTH.CH_STAT, Adr.BTH.VOL_STAT]; omega)
  state := s.volState_setVolState (by decide)

theorem LosesVolumes.failVolume {s : State} {v : Nat} (hv : v < 16) (huse : s.volState v = 2 ∨ s.volState v = 3) (m : Nat) :
    LosesVolumes s (s.failVolume v m) ∧ (s.failVolume v m).volState v = 4 := by
  have hstops := StopsVolume.stopVolume s v
  obtain ⟨hhalts, hall⟩ := Halts.haltOn (s.stopVolume v) v m
  have hrd {a : Nat} (ha : a ≠ Adr.BTH.VOL_STAT v) (hhalt : ¬ HaltReg v a) := s.failVolume_rd (m := m) ha hhalt
  unfold State.failVolume at hrd ⊢
  rw [← State.stopVolume] at hrd ⊢
  generalize s.stopVolume v = u at hstops hhalts hall hrd
  generalize u.haltOn v m = t at hhalts hall hrd
  have hfailed : t.volState v = 4 := (State.volState_of_rd (hhalts.regs _ (not_haltReg_volStat hv))).trans hstops.state
  refine ⟨⟨hhalts.table.trans hstops.table, hhalts.outbox.trans hstops.outbox, hstops.held ▸ hhalts.held, fun c => (hhalts.take c).trans (hstops.take c),
    fun w hw => hrd ?_ (not_haltReg_volCfg hw), fun c hc => (hhalts.stat c hc).imp (·.trans (hstops.stat c hc)) (·.2), fun w hw => ?_⟩, hfailed⟩
  · simp only [RegAddr, Adr.BTH.VOL_CFG, Adr.BTH.VOL_STAT, ne_eq]
    omega
  · by_cases hwv : w = v
    · subst hwv
      exact .inr ⟨huse, hfailed, fun c hc hworks => hall c hc ((State.worksOn_of_stat (hstops.take c) (hstops.stat c hc)).mpr hworks)⟩
    · refine .inl (hrd ?_ (not_haltReg_volStat hw))
      simp only [RegAddr, Adr.BTH.VOL_STAT, ne_eq]
      omega

theorem LosesVolumes.checkVolume (s : State) {v : Nat} (hv : v < 16) : LosesVolumes s (s.checkVolume v) := by
  rcases s.checkVolume_cases v with ⟨huse, m, hfails⟩ | ⟨hsame, -⟩
  · exact hfails ▸ (LosesVolumes.failVolume hv huse m).1
  · exact hsame.symm ▸ .refl s

theorem State.checkVolume_fails {s : State} {v m : Nat} (hv : v < 16) (huse : s.volState v = 2 ∨ s.volState v = 3) (hm : m ∈ s.volMembers v)
    (hbad : s.memberBad m = true) : (s.checkVolume v).volState v = 4 := by
  rcases s.checkVolume_cases v with ⟨-, k, hfails⟩ | ⟨-, hgood⟩
  · exact hfails ▸ (LosesVolumes.failVolume hv huse k).2
  · exact absurd (hbad.symm.trans (hgood huse m hm)) (by decide)

theorem State.checkVolume_rd (s : State) {v a : Nat} (hv : v < 16) (ha : 0x31000 ≤ a) : (s.checkVolume v).rd a = s.rd a := by
  rcases s.checkVolume_cases v with ⟨-, m, hfails⟩ | ⟨hsame, -⟩
  · rw [hfails]
    refine s.failVolume_rd ?_ (not_haltReg_member hv ha)
    simp only [RegAddr, Adr.BTH.VOL_STAT, ne_eq]
    omega
  · rw [hsame]

/-! ### A member is lost (R199, R205) -/

/-- A member that is to be lost changes its own state alone. -/
theorem LosesVolumes.setMemState (s : State) (m st : Nat) : LosesVolumes s (s.setMemState m st) := by
  have hsame {a : Nat} (ha : a < 0x31000) : (s.setMemState m st).rd a = s.rd a :=
    (SameRegsBut.setReg s (Adr.BTM.MEM_STAT m) st).rd (by simp only [List.mem_singleton, RegAddr, Adr.BTM.MEM_STAT]; omega)
  refine ⟨rfl, rfl, List.Subset.refl _, fun _ => rfl, fun v hv => hsame ?_, fun c hc => .inl (hsame ?_), fun v hv => .inl (hsame ?_)⟩
  · simp only [RegAddr, Adr.BTH.VOL_CFG]
    omega
  · simp only [RegAddr, Adr.BTH.CH_STAT]
    omega
  · simp only [RegAddr, Adr.BTH.VOL_STAT]
    omega

/-- The second state is the first after volumes have looked at their members. -/
def ChecksVolumes (s t : State) : Prop := LosesVolumes s t ∧ ∀ a, 0x31000 ≤ a → t.rd a = s.rd a

theorem ChecksVolumes.refl (s : State) : ChecksVolumes s s := ⟨.refl s, fun _ _ => rfl⟩

theorem ChecksVolumes.trans {s t u : State} (h : ChecksVolumes s t) (k : ChecksVolumes t u) : ChecksVolumes s u :=
  ⟨h.1.trans k.1, fun a ha => (k.2 a ha).trans (h.2 a ha)⟩

theorem ChecksVolumes.checkVolume (s : State) {v : Nat} (hv : v < 16) : ChecksVolumes s (s.checkVolume v) := ⟨.checkVolume s hv, fun _ ha => s.checkVolume_rd hv ha⟩

theorem ChecksVolumes.loseMember (s : State) (m st : Nat) : ChecksVolumes (s.setMemState m st) (s.loseMember m st) :=
  foldl_rel .refl .trans (fun _ hv t => .checkVolume t (List.mem_range.mp hv)) _

theorem LosesVolumes.loseMember (s : State) (m st : Nat) : LosesVolumes s (s.loseMember m st) :=
  (LosesVolumes.setMemState s m st).trans (ChecksVolumes.loseMember s m st).1

theorem memStat_above (m : Nat) : 0x31000 ≤ Adr.BTM.MEM_STAT m := Nat.le_trans (by decide) (Nat.le_add_right _ _)

theorem State.loseMember_rd (s : State) (m st : Nat) {a : Nat} (ha : 0x31000 ≤ a) (hm : a ≠ Adr.BTM.MEM_STAT m) : (s.loseMember m st).rd a = s.rd a :=
  ((ChecksVolumes.loseMember s m st).2 a ha).trans ((SameRegsBut.setReg s (Adr.BTM.MEM_STAT m) st).rd (List.mem_singleton.not.mpr hm))

theorem State.loseMember_memState (s : State) (m : Nat) {st : Nat} (hst : st < 8) : (s.loseMember m st).memState m = st :=
  (fld_of_rd ((ChecksVolumes.loseMember s m st).2 _ (memStat_above m)) 0 3).trans (s.memState_setMemState hst)

/-- A volume in use that names a bad member fails when the volumes look at their members. -/
theorem State.checkVolumes_fail {s : State} {v m : Nat} (hv : v < 16) (huse : s.volState v = 2 ∨ s.volState v = 3) (hm : m ∈ s.volMembers v)
    (hbad : s.memberBad m = true) : ((List.range 16).foldl State.checkVolume s).volState v = 4 := by
  obtain ⟨t, hbefore, hafter⟩ := foldl_reaches .refl .trans (fun _ hw t => ChecksVolumes.checkVolume t (List.mem_range.mp hw)) (List.mem_range.mpr hv) s
  refine hafter.1.failed hv ?_
  rcases hbefore.1.vols v hv with hsame | ⟨-, hfailed, -⟩
  · have hstate : t.memState m = s.memState m := fld_of_rd (hbefore.2 _ (memStat_above m)) 0 3
    refine State.checkVolume_fails hv (State.volState_of_rd hsame ▸ huse) (hbefore.1.volMembers hv ▸ hm) ?_
    rwa [State.memberBad, hstate]
  · exact (LosesVolumes.checkVolume t hv).failed hv hfailed

/-- A volume in use that names a lost member is FAILED. -/
theorem State.loseMember_fails (s : State) (m : Nat) {st : Nat} (hst : st = 3 ∨ st = 4) {v : Nat} (hv : v < 16)
    (huse : s.volState v = 2 ∨ s.volState v = 3) (hm : m ∈ s.volMembers v) : (s.loseMember m st).volState v = 4 := by
  have hset := LosesVolumes.setMemState s m st
  have hstate : (s.setMemState m st).memState m = st := s.memState_setMemState (by omega)
  have hsame : (s.setMemState m st).volState v = s.volState v := by
    refine State.volState_of_rd ((SameRegsBut.setReg s (Adr.BTM.MEM_STAT m) st).rd ?_)
    simp only [List.mem_singleton, RegAddr, Adr.BTM.MEM_STAT, Adr.BTH.VOL_STAT]
    omega
  refine State.checkVolumes_fail hv (hsame ▸ huse) (hset.volMembers hv ▸ hm) ?_
  rcases hst with rfl | rfl
  · simp [State.memberBad, hstate]
  · simp [State.memberBad, hstate]

/-! ### The faults of a lost member (R200) -/

/-- Registers at the faulty-member register's sides stay. -/
theorem LosesVolumes.setFaultMem (s : State) (m : Nat) : LosesVolumes s (s.setReg Adr.BTM.FAULT_MEM m) := by
  have hsame {a : Nat} (ha : a < 0x31000) : (s.setReg Adr.BTM.FAULT_MEM m).rd a = s.rd a :=
    (SameRegsBut.setReg s Adr.BTM.FAULT_MEM m).rd (by simp only [List.mem_singleton, RegAddr, Adr.BTM.FAULT_MEM]; omega)
  refine ⟨rfl, rfl, List.Subset.refl _, fun _ => rfl, fun v hv => hsame ?_, fun c hc => .inl (hsame ?_), fun v hv => .inl (hsame ?_)⟩
  · simp only [RegAddr, Adr.BTH.VOL_CFG]
    omega
  · simp only [RegAddr, Adr.BTH.CH_STAT]
    omega
  · simp only [RegAddr, Adr.BTH.VOL_STAT]
    omega

theorem LosesVolumes.hold (s : State) (h : Held) (unit cause code : Nat) : LosesVolumes s ((s.hold h).report unit cause code) :=
  ⟨rfl, rfl, fun x hx => (s.mem_hold h x).mpr (.inr hx), fun _ => rfl, fun _ _ => rfl, fun _ _ => .inl rfl, fun _ _ => .inl rfl⟩

theorem LosesVolumes.memberFault (s : State) (m code : Nat) : LosesVolumes s (s.memberFault m code) := (LosesVolumes.hold s _ _ _ _).trans (.setFaultMem _ m)

theorem LosesVolumes.memberDown (s : State) (m : Nat) : LosesVolumes s (s.memberDown m) := by
  unfold State.memberDown
  extract_lets h
  split
  · exact .refl s
  · exact (LosesVolumes.hold s _ _ _ _).trans (.setFaultMem _ m)

/-- The faulty-member register is no member's own. -/
theorem State.rd_setFaultMem (s : State) (m : Nat) {a : Nat} (ha : a ≠ Adr.BTM.FAULT_MEM) : (s.setReg Adr.BTM.FAULT_MEM m).rd a = s.rd a :=
  (SameRegsBut.setReg s _ m).rd (List.mem_singleton.not.mpr ha)

theorem memStat_ne_faultMem (m : Nat) : Adr.BTM.MEM_STAT m ≠ Adr.BTM.FAULT_MEM := by
  simp only [RegAddr, Adr.BTM.MEM_STAT, Adr.BTM.FAULT_MEM, ne_eq]
  omega

theorem State.rd_memberDown (s : State) (m : Nat) {a : Nat} (ha : a ≠ Adr.BTM.FAULT_MEM) : (s.memberDown m).rd a = s.rd a := by
  unfold State.memberDown
  extract_lets h
  split
  · rfl
  · exact State.rd_setFaultMem _ m ha

theorem State.mem_memberFault (s : State) (m code : Nat) :
    { page := 0x31, cause := 0xF00 + m, code := code, event := true, unit := 0xF00 + m } ∈ (s.memberFault m code).held := (s.mem_hold _ _).mpr (.inl rfl)

theorem State.mem_memberDown (s : State) (m : Nat) :
    { page := 0x31, cause := 0xF00 + m, code := 0x06, event := false, unit := 0xF00 + m } ∈ (s.memberDown m).held := by
  unfold State.memberDown
  extract_lets h
  split
  · rename_i hholds
    exact List.contains_iff_mem.mp hholds
  · exact (s.mem_hold _ _).mpr (.inl rfl)

/-- A member that fails with a fault of its own is lost. -/
theorem State.failMember_lost (s : State) (m code : Nat) : MemberLost s ((s.loseMember m 3).memberFault m code) m 3 := by
  refine ((LosesVolumes.loseMember s m 3).trans (.memberFault _ m code)).memberLost ?_ fun v hv huse hm =>
    (LosesVolumes.memberFault _ m code).failed hv (s.loseMember_fails m (.inl rfl) hv huse hm)
  exact (fld_of_rd (State.rd_setFaultMem _ m (memStat_ne_faultMem m)) 0 3).trans (s.loseMember_memState m (by decide))

/-! ### A root port goes down (R199) -/

/-- What the loss of its root port does to a member. -/
def State.dropMember (s : State) (p m : Nat) : State :=
  if Fld.BTM.MEM_CFG_PORT s.regs m = p ∧ s.memState m ≠ 0 then (s.loseMember m 4).memberDown m else s

theorem rootPortLinkDown_eq (p : Nat) (s : State) : rootPortLinkDown p s = (List.range 32).foldl (fun s m => s.dropMember p m) s := rfl

theorem State.dropMember_down {s : State} {p m : Nat} (hport : Fld.BTM.MEM_CFG_PORT s.regs m = p) (hstate : s.memState m ≠ 0) :
    s.dropMember p m = (s.loseMember m 4).memberDown m := if_pos ⟨hport, hstate⟩

theorem State.dropMember_other {s : State} {p m : Nat} (h : Fld.BTM.MEM_CFG_PORT s.regs m ≠ p ∨ s.memState m = 0) : s.dropMember p m = s :=
  if_neg fun k => h.elim (absurd k.1) k.2

theorem LosesVolumes.dropMember (s : State) (p m : Nat) : LosesVolumes s (s.dropMember p m) := by
  unfold State.dropMember
  split
  · exact (LosesVolumes.loseMember s m 4).trans (.memberDown _ m)
  · exact .refl s

/-- The loss of a member leaves the others' registers. -/
theorem State.rd_dropMember (s : State) (p m : Nat) {a : Nat} (ha : 0x31000 ≤ a) (hm : a ≠ Adr.BTM.MEM_STAT m) (hfault : a ≠ Adr.BTM.FAULT_MEM) :
    (s.dropMember p m).rd a = s.rd a := by
  unfold State.dropMember
  split
  · exact (State.rd_memberDown _ m hfault).trans (s.loseMember_rd m 4 ha hm)
  · rfl

/-- The second state is the first after volumes and members other than `k` have been lost. -/
structure SparesMember (k : Nat) (s t : State) : Prop extends LosesVolumes s t where
  port : t.rd (Adr.BTM.MEM_CFG k) = s.rd (Adr.BTM.MEM_CFG k)
  state : t.rd (Adr.BTM.MEM_STAT k) = s.rd (Adr.BTM.MEM_STAT k)

theorem SparesMember.refl (k : Nat) (s : State) : SparesMember k s s := ⟨.refl s, rfl, rfl⟩

theorem SparesMember.trans {k : Nat} {s t u : State} (h : SparesMember k s t) (h' : SparesMember k t u) : SparesMember k s u :=
  ⟨h.toLosesVolumes.trans h'.toLosesVolumes, h'.port.trans h.port, h'.state.trans h.state⟩

theorem SparesMember.dropMember (s : State) (p : Nat) {m k : Nat} (hmk : m ≠ k) : SparesMember k s (s.dropMember p m) := by
  refine ⟨.dropMember s p m, s.rd_dropMember p m ?_ ?_ ?_, s.rd_dropMember p m (memStat_above k) ?_ (memStat_ne_faultMem k)⟩
  · exact Nat.le_trans (by decide) (Nat.le_add_right _ _)
  all_goals
    simp only [RegAddr, Adr.BTM.MEM_CFG, Adr.BTM.MEM_STAT, Adr.BTM.FAULT_MEM, ne_eq]
    omega

/-- The round over the members reaches each of them with the others' losses alone. -/
theorem rootPortLinkDown_at (p : Nat) (s : State) {k : Nat} (hk : k < 32) :
    ∃ t, SparesMember k s t ∧ SparesMember k (t.dropMember p k) (rootPortLinkDown p s) := by
  obtain ⟨before, after, hrange⟩ := List.append_of_mem (List.mem_range.mpr hk)
  have hnodup : (before ++ k :: after).Nodup := hrange ▸ List.nodup_range
  have hbefore : ∀ m ∈ before, m ≠ k := fun m hm hmk => List.disjoint_of_nodup_append hnodup hm (hmk ▸ List.mem_cons_self)
  have hafter : ∀ m ∈ after, m ≠ k := fun m hm hmk => (List.nodup_cons.mp (List.Nodup.of_append_right hnodup)).1 (hmk ▸ hm)
  refine ⟨before.foldl (fun s m => s.dropMember p m) s, foldl_rel (.refl k) .trans (fun m hm t => .dropMember t p (hbefore m hm)) s, ?_⟩
  rw [rootPortLinkDown_eq, hrange, List.foldl_append, List.foldl_cons]
  exact foldl_rel (.refl k) .trans (fun m hm t => .dropMember t p (hafter m hm)) _

/-- A member of another port, or an ABSENT one, stays. -/
theorem rootPortLinkDown_spares (p : Nat) (s : State) {k : Nat} (hk : k < 32) (h : Fld.BTM.MEM_CFG_PORT s.regs k ≠ p ∨ s.memState k = 0) :
    (rootPortLinkDown p s).memState k = s.memState k := by
  obtain ⟨t, hbefore, hafter⟩ := rootPortLinkDown_at p s hk
  have hport : Fld.BTM.MEM_CFG_PORT t.regs k = Fld.BTM.MEM_CFG_PORT s.regs k := fld_of_rd hbefore.port _ _
  have hstate : t.memState k = s.memState k := fld_of_rd hbefore.state _ _
  rw [State.dropMember_other (by rwa [hport, hstate])] at hafter
  exact (fld_of_rd hafter.state 0 3).trans hstate

/-- A member of the port is lost, and LINK_DOWN begins. -/
theorem rootPortLinkDown_drops (p : Nat) (s : State) {k : Nat} (hk : k < 32) (hp : Fld.BTM.MEM_CFG_PORT s.regs k = p) (hpresent : s.memState k ≠ 0) :
    MemberLost s (rootPortLinkDown p s) k 4 ∧
      { page := 0x31, cause := 0xF00 + k, code := 0x06, event := false, unit := 0xF00 + k } ∈ (rootPortLinkDown p s).held := by
  obtain ⟨t, hbefore, hafter⟩ := rootPortLinkDown_at p s hk
  have hport : Fld.BTM.MEM_CFG_PORT t.regs k = Fld.BTM.MEM_CFG_PORT s.regs k := fld_of_rd hbefore.port _ _
  have hstate : t.memState k = s.memState k := fld_of_rd hbefore.state _ _
  have hdrop := LosesVolumes.dropMember t p k
  rw [State.dropMember_down (hport.trans hp) (hstate.symm ▸ hpresent)] at hafter hdrop
  have hdown : ((t.loseMember k 4).memberDown k).memState k = 4 :=
    (fld_of_rd (State.rd_memberDown _ k (memStat_ne_faultMem k)) 0 3).trans (t.loseMember_memState k (by decide))
  refine ⟨(hbefore.toLosesVolumes.trans (hdrop.trans hafter.toLosesVolumes)).memberLost ((fld_of_rd hafter.state 0 3).trans hdown) fun v hv huse hm => ?_,
    hafter.held (State.mem_memberDown _ k)⟩
  refine hafter.failed hv ?_
  rcases hbefore.vols v hv with hsame | ⟨-, hfailed, -⟩
  · exact (LosesVolumes.memberDown _ k).failed hv
      (t.loseMember_fails k (.inr rfl) hv (State.volState_of_rd hsame ▸ huse) (hbefore.toLosesVolumes.volMembers hv ▸ hm))
  · exact hdrop.failed hv hfailed

end Sys2Proof.Machine

/-! Volumes: enabling, the label, FORMAT, OPEN, CLOSE and disabling (R203 to R205, R218). -/

namespace Sys2Proof.Machine

/-! ### What volumes read -/

theorem State.labelGood_congr {s t : State} (hregs : t.regs = s.regs) (htable : t.bth.table = s.bth.table) (v : Nat) (b : List Byte) :
    t.labelGood v b = s.labelGood v b := by
  unfold State.labelGood State.labelBytes State.volM State.volJ State.slotWord
  rw [hregs, htable]

theorem State.volMembers_congr {s t : State} {v : Nat} (hcfg : t.rd (Adr.BTH.VOL_CFG v) = s.rd (Adr.BTH.VOL_CFG v)) (htable : t.bth.table = s.bth.table) :
    t.volMembers v = s.volMembers v := by
  have hm : Fld.BTH.VOL_CFG_M t.regs v = Fld.BTH.VOL_CFG_M s.regs v := fld_of_rd hcfg _ _
  unfold State.volMembers State.volM State.slotMember State.slotWord
  rw [hm, htable]

/-- The registers that a volume's course changes. -/
def volRegs (v : Nat) : List RegAddr := [Adr.BTH.VOL_STAT v, Adr.BTH.JNL_USED v, Adr.BTH.APPEND v, Adr.BTH.NEXT_TAKE v]

/-- The second state is the first but for a volume's own registers and what is not of its table. -/
structure VolumeCourse (v : Nat) (s t : State) : Prop where
  table : t.bth.table = s.bth.table
  regs : SameRegsBut (volRegs v) s t

section course
variable {v : Nat} {s t : State} (h : VolumeCourse v s t)
include h

theorem VolumeCourse.rd {a : Nat} (ha : a ∉ volRegs v) : t.rd a = s.rd a := h.regs.rd ha

theorem VolumeCourse.trans {u : State} (k : VolumeCourse v t u) : VolumeCourse v s u :=
  ⟨k.table.trans h.table, (h.regs.trans k.regs).mono (List.append_subset.mpr ⟨List.Subset.refl _, List.Subset.refl _⟩)⟩

theorem VolumeCourse.setReg {a : Nat} (ha : a ∈ volRegs v) (n : Nat) : VolumeCourse v s (t.setReg a n) :=
  h.trans ⟨rfl, (SameRegsBut.setReg t a n).mono (fun _ hb => List.mem_singleton.mp hb ▸ ha)⟩

theorem VolumeCourse.setVolWait (w : VolWait) : VolumeCourse v s (t.setVolWait v w) := ⟨h.table, h.regs⟩

theorem VolumeCourse.serves {u : State} (k : ServesMembers t u) : VolumeCourse v s u := h.trans ⟨k.table, k.sameRegs _⟩

theorem VolumeCourse.cfg : t.rd (Adr.BTH.VOL_CFG v) = s.rd (Adr.BTH.VOL_CFG v) := h.rd (by
  simp only [volRegs, List.mem_cons, List.not_mem_nil, or_false, RegAddr, Adr.BTH.VOL_CFG, Adr.BTH.VOL_STAT, Adr.BTH.JNL_USED, Adr.BTH.APPEND,
    Adr.BTH.NEXT_TAKE]
  omega)

/-- In its course a volume with good members does not fail. -/
theorem VolumeCourse.checkVolume (hv : v < 16) (hgood : ∀ m ∈ s.volMembers v, s.memberBad m = false) : t.checkVolume v = t := by
  refine State.checkVolume_idle fun m hm => ?_
  have hstate : t.memState m = s.memState m := fld_of_rd (h.rd (by
    simp only [volRegs, List.mem_cons, List.not_mem_nil, or_false, RegAddr, Adr.BTM.MEM_STAT, Adr.BTH.VOL_STAT, Adr.BTH.JNL_USED, Adr.BTH.APPEND,
      Adr.BTH.NEXT_TAKE]
    omega)) 0 3
  rw [State.memberBad, hstate]
  exact hgood m (State.volMembers_congr h.cfg h.table ▸ hm)

end course

theorem VolumeCourse.refl (v : Nat) (s : State) : VolumeCourse v s s := ⟨rfl, .refl _ rfl⟩

theorem State.volWait_setVolWait_same (s : State) (v : Nat) (w : VolWait) : (s.setVolWait v w).volWait v = w := (s.volWait_setVolWait v w v).trans (if_pos rfl)

/-- The first unit of a volume lies in slot 0, at the base of its extent. -/
theorem State.mediaOf_zero (s : State) (v : Nat) : s.mediaOf v 0 = (s.slotMember v 0, s.slotBase v 0 * 2 ^ 20) := by
  simp [State.mediaOf]

/-! ### Enabling and the label (R203, R204) -/

/-- A volume that has been enabled. -/
def State.enableVolume (s : State) (v : Nat) : State := s.setFld (Adr.BTH.VOL_CFG v) 0 1 1

theorem volumeEnable_ignored {s : State} {v : Nat} (h : s.volState v ≠ 0) : volumeEnable v s = s := if_pos (.inl h)

theorem volumeEnable_reads {s : State} {v : Nat} (hoff : s.volState v = 0) (hwait : s.volWait v = .none) (hgood : (s.enableVolume v).volConfigGood v = true) :
    volumeEnable v s = ((s.enableVolume v).command (s.slotMember v 0) .read [stagedBlock []] (s.slotBase v 0 * 2 ^ 20) 4096 (.labelRead v)).setVolWait v
      .label := by
  unfold volumeEnable
  rw [if_neg (by simp [hoff, hwait])]
  dsimp only
  rw [State.enableVolume] at hgood ⊢
  rw [if_pos hgood, State.mediaOf_zero]
  rfl

theorem volumeEnable_faulty {s : State} {v : Nat} (hoff : s.volState v = 0) (hwait : s.volWait v = .none) (hbad : (s.enableVolume v).volConfigGood v = false) :
    volumeEnable v s = ((s.enableVolume v).setVolState v 5).volFault v 0x07 := by
  unfold volumeEnable
  rw [if_neg (by simp [hoff, hwait])]
  exact if_neg (by rw [← State.enableVolume, hbad]; decide)

theorem labelReadDone_ignored {s : State} {v : Nat} (h : s.volWait v ≠ .label) (label : List Byte) : labelReadDone v label s = s := if_pos h

/-- A volume whose label has been read. -/
def State.labelDone (s : State) (v : Nat) : State := (s.dropCommands (fun u => decide (u = .labelRead v))).setVolWait v .none

theorem VolumeCourse.labelDone (s : State) (v : Nat) : VolumeCourse v s (s.labelDone v) := ((refl v s).serves (.dropCommands s _)).setVolWait .none

theorem State.labelDone_regs (s : State) (v : Nat) : (s.labelDone v).regs = s.regs := (State.setVolWait_regs _ v .none).trans (ServesMembers.dropCommands s _).regs

theorem labelReadDone_acts {s : State} {v : Nat} (h : s.volWait v = .label) (label : List Byte) : labelReadDone v label s =
    if s.labelGood v label then (s.labelDone v).setVolState v 1 else ((s.labelDone v).setVolState v 5).volFault v 0x21 := by
  have hlabel : (s.labelDone v).labelGood v label = s.labelGood v label := State.labelGood_congr (s.labelDone_regs v) (VolumeCourse.labelDone s v).table v label
  rw [← hlabel]
  exact if_neg (not_not_intro h)

/-! ### FORMAT and OPEN begin (R205, R207, R218) -/

theorem format_waits {s : State} {v : Nat} (hstate : s.volState v = 1 ∨ s.volState v = 5) (hwait : s.volWait v = .none) (hwrites : s.hostWrites v = true) :
    format v s = s.setVolWait v .formatWait := by
  unfold format
  rw [if_pos ⟨hstate, hwait⟩, if_pos hwrites]

theorem format_starts {s : State} {v : Nat} (hstate : s.volState v = 1 ∨ s.volState v = 5) (hwait : s.volWait v = .none) (hwrites : s.hostWrites v = false) :
    format v s = s.startFormat v := by
  unfold format
  rw [if_pos ⟨hstate, hwait⟩, if_neg (by rw [hwrites]; decide)]

theorem format_ignored {s : State} {v : Nat} (hclosed : s.volState v ≠ 1) (hlabel : s.volState v ≠ 5) : format v s = s :=
  if_neg fun h => h.1.elim hclosed hlabel

theorem openVolume_waits {s : State} {v : Nat} (hstate : s.volState v = 1) (hwait : s.volWait v = .none) (hwrites : s.hostWrites v = true) :
    openVolume v s = s.setVolWait v .openWait := by
  unfold openVolume
  rw [if_pos ⟨hstate, hwait⟩, if_pos hwrites]

theorem openVolume_starts {s : State} {v : Nat} (hstate : s.volState v = 1) (hwait : s.volWait v = .none) (hwrites : s.hostWrites v = false) :
    openVolume v s = s.startOpen v := by
  unfold openVolume
  rw [if_pos ⟨hstate, hwait⟩, if_neg (by rw [hwrites]; decide)]

theorem openVolume_ignored {s : State} {v : Nat} (hclosed : s.volState v ≠ 1) (hlabel : s.volState v ≠ 5) : openVolume v s = s := by
  unfold openVolume
  rw [if_neg fun h => hclosed h.1, if_neg hlabel]

theorem openVolume_badLabel {s : State} {v : Nat} (hlabel : s.volState v = 5) : openVolume v s = s.volFault v 0x21 := by
  unfold openVolume
  rw [if_neg fun h => absurd (h.1.symm.trans hlabel) (by decide), if_pos hlabel]

/-- A BUSY volume with what it waits for. -/
def State.busyVolume (s : State) (v : Nat) (w : VolWait) : State := (s.setVolState v 2).setVolWait v w

theorem VolumeCourse.busyVolume (s : State) (v : Nat) (w : VolWait) : VolumeCourse v s (s.busyVolume v w) :=
  ((refl v s).setReg List.mem_cons_self 2).setVolWait w

/-- FORMAT with good members: the label's write is issued. -/
theorem State.startFormat_good {s : State} {v : Nat} (hv : v < 16) (hgood : ∀ m ∈ s.volMembers v, s.memberBad m = false) :
    s.startFormat v = (s.busyVolume v .format).command (s.slotMember v 0) (.write true) [stagedBlock (s.labelBytes v s.time.sec)] (s.slotBase v 0 * 2 ^ 20) 4096
      (.label v) := by
  have hcourse := (VolumeCourse.busyVolume s v .format).serves (.issueStaged _ (.label v) v 0 (s.labelBytes v s.time.sec))
  unfold State.startFormat
  refine (hcourse.checkVolume hv hgood).trans ?_
  unfold State.issueStaged
  rw [State.mediaOf_zero]
  rfl

/-- OPEN with good members: the journal's Reads are issued. -/
theorem State.startOpen_good {s : State} {v : Nat} (hv : v < 16) (hgood : ∀ m ∈ s.volMembers v, s.memberBad m = false) :
    s.startOpen v = (s.busyVolume v .open).issueSpan v false (.scan v) ((s.busyVolume v .open).volJ v * 2 ^ 20 / 4096) (2 ^ 20)
      ((s.busyVolume v .open).volJ v * 2 ^ 20) (List.replicate ((s.busyVolume v .open).volJ v * 2 ^ 20 / 4096) (stagedBlock [])) :=
  ((VolumeCourse.busyVolume s v .open).serves (.issueSpan _ _ _ _ _ _ _ _)).checkVolume hv hgood

theorem formatDone_ignored {s : State} {v : Nat} (h : s.volWait v ≠ .format) : formatDone v s = s := if_pos h

theorem formatDone_acts {s : State} {v : Nat} (h : s.volWait v = .format) : formatDone v s =
    ((s.dropCommands (fun u => decide (u = .label v))).setVolWait v .none).setVolState v 1 := if_neg (not_not_intro h)

/-! ### CLOSE and disabling (R205, R218) -/

theorem close_closes {s : State} {v : Nat} (hopen : s.volState v = 3) (hidle : ∀ c, c < 8 → s.chState c = 0) : close v s = s.setVolState v 1 := by
  refine if_pos ⟨hopen, List.any_eq_false.mpr fun c hc => ?_⟩
  simp [hidle c (List.mem_range.mp hc)]

theorem close_ignored {s : State} {v c : Nat} (hc : c < 8) (hworks : s.chState c ≠ 0) {tk : Take} (htake : (s.recChan c).take = some tk) (hvol : tk.vol = v) :
    close v s = s := by
  refine if_neg fun h => ?_
  have hunused := List.any_eq_false.mp h.2 c (List.mem_range.mpr hc)
  rw [htake] at hunused
  simp [hworks, hvol] at hunused

/-- The host commands in progress on a volume, and a volume that is to be disabled. -/
def State.hostCmds (s : State) (v : Nat) : List HostCmd := s.ofc.cmds.filter (fun c => c.sq != 0 && c.cmd.nsid == v + 1)
def State.disableVolume (s : State) (v : Nat) : State := s.setFld (Adr.BTH.VOL_CFG v) 0 1 0

/-- Where all its host commands are issued, a volume goes OFF or waits for them. -/
theorem volumeDisable_acts {s : State} {v : Nat} (hstate : s.volState v ≠ 0) (hwait : ∀ l, s.volWait v ≠ .disable l)
    (hissued : ∀ c ∈ s.hostCmds v, c.issued = true) : volumeDisable v s =
      if s.hostOutstanding ((s.hostCmds v).map (·.tag)) then (s.disableVolume v).setVolWait v (.disable ((s.hostCmds v).map (·.tag)))
      else (s.disableVolume v).volOff v := by
  have hkept : (s.disableVolume v).volState v = s.volState v := fld_of_rd ((SameRegsBut.putFld (a := Adr.BTH.VOL_CFG v) rfl).rd (by
    simp only [List.mem_singleton, RegAddr, Adr.BTH.VOL_CFG, Adr.BTH.VOL_STAT]
    omega)) 0 3
  have hall : (s.hostCmds v).filter (fun c => c.issued) = s.hostCmds v := List.filter_eq_self.mpr hissued
  have hnone : (s.hostCmds v).filter (fun c => !c.issued) = [] := List.filter_eq_nil_iff.mpr fun c hc => by simp [hissued c hc]
  have halready : (match s.volWait v with | .disable _ => true | _ => false) = false := by
    split
    · rename_i l hl
      exact absurd hl (hwait l)
    · rfl
  unfold volumeDisable
  extract_lets u already mine tags w
  have htags : tags = (s.hostCmds v).map (·.tag) := congrArg (List.map (·.tag)) hall
  rw [if_neg (by rintro (h | h); exacts [hstate (hkept.symm.trans h.1), Bool.false_ne_true (halready.symm.trans h)])]
  have hw : w = s.disableVolume v := congrArg (List.foldl _ u) hnone
  rw [htags, hw]
  rfl

/-- The channels at work on a volume halt because it is not OPEN. -/
def State.haltWorking (s : State) (v : Nat) : State := (List.range 8).foldl (fun (s : State) c => match (s.recChan c).take with
  | some t => if t.vol = v ∧ (s.chState c = 1 ∨ s.chState c = 2) then s.haltChan c 1 (some 2) else s
  | none => s) s

theorem State.volOff_eq (s : State) (v : Nat) : s.volOff v = ((s.haltWorking v).setVolState v 0).setVolWait v .none := rfl

theorem Halts.haltWorking (s : State) (v : Nat) :
    Halts v 1 s (s.haltWorking v) ∧ ∀ c, c < 8 → s.worksOn c v → (s.haltWorking v).rd (Adr.BTH.CH_STAT c) = 3 + 16 * 1 :=
  Halts.round (fun _ hc _ hworks => Halts.haltChan hc hworks (by decide) 2) s

/-- A volume that goes OFF halts the channels at work on it. -/
theorem State.volOff_halts (s : State) {v : Nat} (hv : v < 16) : (s.volOff v).volState v = 0 ∧ (s.volOff v).volWait v = .none ∧
    (s.volOff v).rd (Adr.BTH.VOL_CFG v) = s.rd (Adr.BTH.VOL_CFG v) ∧ ∀ c, c < 8 → s.worksOn c v → (s.volOff v).rd (Adr.BTH.CH_STAT c) = 3 + 16 * 1 := by
  obtain ⟨hhalts, hall⟩ := Halts.haltWorking s v
  rw [State.volOff_eq]
  generalize s.haltWorking v = u at hhalts hall
  have hset {a : Nat} (ha : a ≠ Adr.BTH.VOL_STAT v) : ((u.setVolState v 0).setVolWait v .none).rd a = u.rd a :=
    (SameRegsBut.setReg u (Adr.BTH.VOL_STAT v) 0).rd (List.mem_singleton.not.mpr ha)
  refine ⟨u.volState_setVolState (by decide), State.volWait_setVolWait_same _ v .none, (hset ?_).trans (hhalts.regs _ (not_haltReg_volCfg hv)),
    fun c hc hworks => (hset ?_).trans (hall c hc hworks)⟩
  all_goals
    simp only [RegAddr, Adr.BTH.VOL_CFG, Adr.BTH.VOL_STAT, Adr.BTH.CH_STAT, ne_eq]
    omega

end Sys2Proof.Machine

/-! The scan of a volume's journal and what lies behind it (R207). -/

namespace Sys2Proof.Machine

/-! ### The newest record of a journal -/

/-- The newer of two records by SEQ, the first where they are alike. -/
def newerRecord (b : Option (List Byte)) (r : List Byte) : Option (List Byte) := match b with
  | some n => if fieldOf n 8 8 < fieldOf r 8 8 then some r else some n
  | none => some r

/-- What the journal tells of a take whose newest record is `r`. -/
def tailOf (valid : List (List Byte)) (r : List Byte) : JournalTail :=
  { seq := fieldOf r 8 8, takeId := fieldOf r 20 4, hasEnd := valid.any (fun b => fieldOf b 20 4 == fieldOf r 20 4 && fieldOf b 6 2 == 3),
    takeStripe := fieldOf r 32 4, strideUnits := fieldOf r 36 4, first := fieldOf r 40 4, last := fieldOf r 44 4, bytes := fieldOf r 48 8,
    kind := fieldOf r 24 1, src := fieldOf r 25 1, channel := fieldOf r 26 1, flags := fieldOf r 27 1, prevVol := fieldOf r 84 1, prevTake := fieldOf r 88 4,
    sof := recordSof r, recordSof := recordSof r }

theorem State.journalTail_eq (s : State) (v : Nat) (l : List (List Byte)) :
    s.journalTail v l = ((l.filter (s.recordValid v)).foldl newerRecord none).map (tailOf (l.filter (s.recordValid v))) := rfl

/-- Behind a record, the newest is one of it and the further ones, and none of them is newer. -/
theorem newest_some (l : List (List Byte)) (n : List Byte) :
    ∃ m ∈ n :: l, l.foldl newerRecord (some n) = some m ∧ ∀ r ∈ n :: l, fieldOf r 8 8 ≤ fieldOf m 8 8 := by
  induction l generalizing n with
  | nil => exact ⟨n, List.mem_cons_self, rfl, fun r hr => List.mem_singleton.mp hr ▸ Nat.le_refl _⟩
  | cons r l ih =>
    rw [List.foldl_cons, newerRecord]
    split
    · rename_i hnewer
      obtain ⟨m, hm, hnewest, hmax⟩ := ih r
      exact ⟨m, List.mem_cons_of_mem n hm, hnewest, List.forall_mem_cons.mpr ⟨Nat.le_trans (Nat.le_of_lt hnewer) (hmax r List.mem_cons_self), hmax⟩⟩
    · rename_i holder
      obtain ⟨m, hm, hnewest, hmax⟩ := ih n
      obtain ⟨hn, hl⟩ := List.forall_mem_cons.mp hmax
      refine ⟨m, ?_, hnewest, List.forall_mem_cons.mpr ⟨hn, List.forall_mem_cons.mpr ⟨Nat.le_trans (Nat.not_lt.mp holder) hn, hl⟩⟩⟩
      exact (List.mem_cons.mp hm).elim (· ▸ List.mem_cons_self) (fun h => List.mem_cons_of_mem n (List.mem_cons_of_mem r h))

theorem newest_cons (n : List Byte) (l : List (List Byte)) :
    ∃ m ∈ n :: l, (n :: l).foldl newerRecord none = some m ∧ ∀ r ∈ n :: l, fieldOf r 8 8 ≤ fieldOf m 8 8 := newest_some l n

/-- Without a valid record there is no tail, and only then. -/
theorem State.journalTail_none (s : State) (v : Nat) (l : List (List Byte)) : s.journalTail v l = none ↔ l.all (fun b => !s.recordValid v b) = true := by
  rw [State.journalTail_eq, Option.map_eq_none_iff, List.all_eq_true]
  constructor
  · intro h b hb
    by_contra hvalid
    obtain ⟨n, r, hlist⟩ := List.exists_cons_of_ne_nil (List.ne_nil_of_mem (List.mem_filter.mpr ⟨hb, by simpa using hvalid⟩ : b ∈ l.filter (s.recordValid v)))
    obtain ⟨m, -, hnewest, -⟩ := newest_cons n r
    rw [hlist, hnewest] at h
    exact Option.some_ne_none m h
  · intro h
    rw [List.filter_eq_nil_iff.mpr fun b hb => by simpa using h b hb]
    rfl

/-- The tail is that of a valid record than which no valid record is newer. -/
theorem State.journalTail_newest {s : State} {v : Nat} {l : List (List Byte)} {k : JournalTail} (h : s.journalTail v l = some k) :
    (∀ b ∈ l, s.recordValid v b = true → fieldOf b 8 8 ≤ k.seq) ∧ ∃ b ∈ l, s.recordValid v b = true ∧ fieldOf b 8 8 = k.seq ∧ fieldOf b 20 4 = k.takeId := by
  rw [State.journalTail_eq] at h
  obtain ⟨r, hr, rfl⟩ := Option.map_eq_some_iff.mp h
  cases hlist : l.filter (s.recordValid v) with
  | nil =>
    rw [hlist] at hr
    exact absurd hr.symm (Option.some_ne_none r)
  | cons n rest =>
    obtain ⟨m, hm, hnewest, hmax⟩ := newest_cons n rest
    rw [hlist, hnewest] at hr
    obtain rfl := Option.some.inj hr
    rw [← hlist] at hm hmax
    obtain ⟨hmem, hvalid⟩ := List.mem_filter.mp hm
    exact ⟨fun b hb hb' => hmax b (List.mem_filter.mpr ⟨hb, hb'⟩), m, hmem, hvalid, rfl, rfl⟩

/-! ### A scan that has ended (R207) -/

/-- The scan of a volume, with its commands taken away. -/
def State.scanned (s : State) (v : Nat) : State := s.dropCommands (fun u => decide (u = .scan v))

theorem ServesMembers.scanned (s : State) (v : Nat) : ServesMembers s (s.scanned v) := .dropCommands s _

theorem State.journalTail_congr {s t : State} (h : t.regs = s.regs) (v : Nat) (l : List (List Byte)) : t.journalTail v l = s.journalTail v l := by
  have hvalid : t.recordValid v = s.recordValid v := by
    funext b
    unfold State.recordValid
    rw [h]
  rw [State.journalTail_eq, State.journalTail_eq, hvalid]

theorem State.scanStep_congr {s t : State} (h : t.regs = s.regs) (data : List Byte) (k : JournalTail) :
    (if k.kind = 0 then t.scanFrame data k else t.scanRecord data k) = if k.kind = 0 then s.scanFrame data k else s.scanRecord data k := by
  unfold State.scanFrame State.scanRecord State.sofNear
  rw [h]

section scan
variable {s : State} {v : Nat} (l : List (List Byte)) (data : List Byte)

theorem openScanDone_empty (hwait : s.volWait v = .open) (hnone : s.journalTail v l = none) : openScanDone v l data s =
    ((((((s.scanned v).setVolWait v .none).setReg (Adr.BTH.JNL_USED v) 0).setReg (Adr.BTH.APPEND v) ((s.scanned v).volJ v + 1)).setReg
      (Adr.BTH.NEXT_TAKE v) 0).setVolState v 3).checkVolume v := by
  have hsame := (State.journalTail_congr (ServesMembers.scanned s v).regs v l).trans hnone
  unfold State.scanned at hsame ⊢
  unfold openScanDone
  rw [hwait]
  dsimp only
  rw [hsame]

theorem openScanDone_take {k : JournalTail} (hwait : s.volWait v = .open) (hsome : s.journalTail v l = some k) : openScanDone v l data s =
    if k.hasEnd then (s.scanned v).finishOpen v k else (s.scanned v).scanNext v k := by
  have hsame := (State.journalTail_congr (ServesMembers.scanned s v).regs v l).trans hsome
  unfold State.scanned at hsame ⊢
  unfold openScanDone
  rw [hwait]
  dsimp only
  rw [hsame]

theorem openScanDone_forward {k : JournalTail} (hwait : s.volWait v = .forward k) : openScanDone v l data s =
    match if k.kind = 0 then s.scanFrame data k else s.scanRecord data k with
    | some q => (s.scanned v).scanNext v q
    | none => (s.scanned v).finishOpen v k := by
  rw [← State.scanStep_congr (ServesMembers.scanned s v).regs data k]
  unfold openScanDone
  rw [hwait]
  rfl

theorem openScanDone_ignored (hopen : s.volWait v ≠ .open) (hforward : ∀ k, s.volWait v ≠ .forward k) : openScanDone v l data s = s := by
  unfold openScanDone
  split
  · rename_i h
    exact absurd h hopen
  · rename_i k h
    exact absurd h (hforward k)
  · rfl

end scan

/-! ### A volume enters OPEN (R207) -/

theorem satInc_mod (n : Nat) : satInc 32 n % 2 ^ 32 = satInc 32 n := Nat.mod_eq_of_lt (satInc_lt 32 n)

/-- The registers behind what the scan found. -/
def State.setTail (s : State) (v : Nat) (k : JournalTail) : State :=
  (((s.setVolWait v .none).setReg (Adr.BTH.JNL_USED v) (satInc 32 k.seq)).setReg (Adr.BTH.NEXT_TAKE v) (k.takeId + 1)).setReg (Adr.BTH.APPEND v)
    (k.takeStripe + ceilDiv k.bytes (2 ^ 20))

theorem volRegs_mem (v : Nat) : Adr.BTH.VOL_STAT v ∈ volRegs v ∧ Adr.BTH.JNL_USED v ∈ volRegs v ∧ Adr.BTH.APPEND v ∈ volRegs v ∧ Adr.BTH.NEXT_TAKE v ∈ volRegs v := by
  simp [volRegs]

theorem VolumeCourse.setTail (s : State) (v : Nat) (k : JournalTail) : VolumeCourse v s (s.setTail v k) := by
  obtain ⟨-, hused, happend, hnext⟩ := volRegs_mem v
  exact ((((refl v s).setVolWait .none).setReg hused _).setReg hnext _).setReg happend _

theorem State.rd_setReg_ne (s : State) {a b : Nat} (h : b ≠ a) (n : Nat) : (s.setReg a n).rd b = s.rd b := (s.rd_setReg a b n).trans (if_neg h)

theorem jnlUsed_ne_append (v : Nat) : Adr.BTH.JNL_USED v ≠ Adr.BTH.APPEND v := by
  simp only [RegAddr, Adr.BTH.JNL_USED, Adr.BTH.APPEND, ne_eq]
  omega

theorem jnlUsed_ne_nextTake (v : Nat) : Adr.BTH.JNL_USED v ≠ Adr.BTH.NEXT_TAKE v := by
  simp only [RegAddr, Adr.BTH.JNL_USED, Adr.BTH.NEXT_TAKE, ne_eq]
  omega

theorem nextTake_ne_append (v : Nat) : Adr.BTH.NEXT_TAKE v ≠ Adr.BTH.APPEND v := by
  simp only [RegAddr, Adr.BTH.NEXT_TAKE, Adr.BTH.APPEND, ne_eq]
  omega

theorem volStat_ne (v : Nat) : Adr.BTH.JNL_USED v ≠ Adr.BTH.VOL_STAT v ∧ Adr.BTH.NEXT_TAKE v ≠ Adr.BTH.VOL_STAT v ∧ Adr.BTH.APPEND v ≠ Adr.BTH.VOL_STAT v := by
  simp only [RegAddr, Adr.BTH.JNL_USED, Adr.BTH.NEXT_TAKE, Adr.BTH.APPEND, Adr.BTH.VOL_STAT, ne_eq]
  omega

theorem State.setTail_regs (s : State) (v : Nat) (k : JournalTail) : (s.setTail v k).rd (Adr.BTH.JNL_USED v) = satInc 32 k.seq ∧
    (s.setTail v k).rd (Adr.BTH.NEXT_TAKE v) = (k.takeId + 1) % 2 ^ 32 ∧
    (s.setTail v k).rd (Adr.BTH.APPEND v) = (k.takeStripe + ceilDiv k.bytes (2 ^ 20)) % 2 ^ 32 := by
  unfold State.setTail
  refine ⟨?_, ?_, State.rd_setReg_same _ _ _⟩
  · rw [State.rd_setReg_ne _ (jnlUsed_ne_append v), State.rd_setReg_ne _ (jnlUsed_ne_nextTake v), State.rd_setReg_same, satInc_mod]
  · rw [State.rd_setReg_ne _ (nextTake_ne_append v), State.rd_setReg_same]

/-- A volume that is OPEN behind the tail, with its registers. -/
structure OpensAt (v : Nat) (k : JournalTail) (used : Nat) (s t : State) : Prop where
  state : t.volState v = 3
  wait : t.volWait v = .none
  used : t.rd (Adr.BTH.JNL_USED v) = used
  append : t.rd (Adr.BTH.APPEND v) = (k.takeStripe + ceilDiv k.bytes (2 ^ 20)) % 2 ^ 32
  next : t.rd (Adr.BTH.NEXT_TAKE v) = (k.takeId + 1) % 2 ^ 32
  regs : SameRegsBut (volRegs v) s t

theorem State.setOpen_regs (s : State) (v : Nat) : (s.setVolState v 3).volState v = 3 ∧ (s.setVolState v 3).rd (Adr.BTH.JNL_USED v) = s.rd (Adr.BTH.JNL_USED v) ∧
    (s.setVolState v 3).rd (Adr.BTH.NEXT_TAKE v) = s.rd (Adr.BTH.NEXT_TAKE v) ∧ (s.setVolState v 3).rd (Adr.BTH.APPEND v) = s.rd (Adr.BTH.APPEND v) := by
  obtain ⟨hused, hnext, happend⟩ := volStat_ne v
  exact ⟨s.volState_setVolState (by decide), s.rd_setReg_ne hused 3, s.rd_setReg_ne hnext 3, s.rd_setReg_ne happend 3⟩

/-- The TAKE_END of a take that is recovered. -/
def State.recoveredEnd (s : State) (k : JournalTail) : JournalRec :=
  { type := 3, takeId := k.takeId, kind := k.kind, src := k.src, channel := k.channel, flags := 1 + k.flags / 2 * 2, epoch := Fld.HIE.EPOCH s.regs,
    stripe := k.takeStripe, stride := k.strideUnits, first := k.first, last := k.last, bytes := k.bytes, sof := k.sof, reason := 5, gapFirst := 0,
    gapCount := 0, prevVol := k.prevVol, prevTake := k.prevTake, header := [] }

section finish
variable {s : State} {v : Nat} (hv : v < 16) (hgood : ∀ m ∈ s.volMembers v, s.memberBad m = false)
include hv hgood

/-- A take with its end, or a journal without a further slot, opens as it is. -/
theorem State.finishOpen_plain {k : JournalTail} (h : k.hasEnd = true ∨ (s.setTail v k).slots v ≤ (s.setTail v k).nextSeq v) :
    s.finishOpen v k = (s.setTail v k).setVolState v 3 := by
  have hcourse := (VolumeCourse.setTail s v k).setReg (volRegs_mem v).1 3
  unfold State.finishOpen
  extract_lets u w
  have hw : w = s.setTail v k := if_neg (by
    rcases h with h | h
    · simp [h]
    · have hfull : ¬ u.nextSeq v < u.slots v := Nat.not_lt.mpr h
      simp [hfull])
  rw [hw]
  exact hcourse.checkVolume hv hgood

/-- A take without its end gets one, where a slot is left. -/
theorem State.finishOpen_recovers {k : JournalTail} (hend : k.hasEnd = false) (hslot : (s.setTail v k).nextSeq v < (s.setTail v k).slots v) :
    s.finishOpen v k = ((s.setTail v k).appendJournal v ((s.setTail v k).recoveredEnd k)).setVolState v 3 := by
  unfold State.finishOpen
  extract_lets u w
  have hw : w = u.appendJournal v (u.recoveredEnd k) := if_pos (by
    have hleft : u.nextSeq v < u.slots v := hslot
    simp [hend, hleft])
  rw [hw]
  refine VolumeCourse.checkVolume (s := s) ?_ hv hgood
  have happend := ServesAndWrites.appendJournal u v (u.recoveredEnd k)
  exact ((VolumeCourse.setTail s v k).trans ⟨happend.table, happend.regs.mono (fun _ hb => List.mem_singleton.mp hb ▸ (volRegs_mem v).2.1)⟩).setReg
    (volRegs_mem v).1 3

end finish

end Sys2Proof.Machine

/-! A volume that has been scanned, and FETCH (R207, R214). -/

namespace Sys2Proof.Machine

/-! ### A scanned volume (R207) -/

theorem State.nextSeq_setTail (s : State) (v : Nat) (k : JournalTail) : (s.setTail v k).nextSeq v = satInc 32 k.seq := by
  have hused := (s.setTail_regs v k).1
  exact (congrArg (bits · 0 32) hused).trans (by rw [bits, Nat.pow_zero, Nat.div_one, satInc_mod])

theorem State.slots_of_cfg {s t : State} {v : Nat} (h : t.rd (Adr.BTH.VOL_CFG v) = s.rd (Adr.BTH.VOL_CFG v)) : t.slots v = s.slots v := by
  have hj : Fld.BTH.VOL_CFG_J t.regs v = Fld.BTH.VOL_CFG_J s.regs v := fld_of_rd h _ _
  unfold State.slots State.volJ
  rw [hj]

theorem State.volJ_le (s : State) (v : Nat) : s.volJ v ≤ 4096 := by
  unfold State.volJ inRange
  split
  · omega
  · omega

/-- A volume whose registers are set is OPEN once its state says so. -/
theorem OpensAt.setOpen {s u : State} {v used : Nat} {k : JournalTail} (h : VolumeCourse v s u) (hwait : u.volWait v = .none)
    (hused : u.rd (Adr.BTH.JNL_USED v) = used) (happend : u.rd (Adr.BTH.APPEND v) = (k.takeStripe + ceilDiv k.bytes (2 ^ 20)) % 2 ^ 32)
    (hnext : u.rd (Adr.BTH.NEXT_TAKE v) = (k.takeId + 1) % 2 ^ 32) : OpensAt v k used s (u.setVolState v 3) := by
  obtain ⟨hstate, kused, knext, kappend⟩ := u.setOpen_regs v
  exact ⟨hstate, hwait, kused.trans hused, kappend.trans happend, knext.trans hnext, (h.setReg (volRegs_mem v).1 3).regs⟩

theorem State.setTail_wait (s : State) (v : Nat) (k : JournalTail) : (s.setTail v k).volWait v = .none := by
  unfold State.setTail State.volWait
  rw [State.setReg_bth, State.setReg_bth, State.setReg_bth]
  exact s.volWait_setVolWait_same v .none

section finish
variable {s : State} {v : Nat} (hv : v < 16) (hgood : ∀ m ∈ s.volMembers v, s.memberBad m = false)
include hv hgood

theorem OpensAt.plain {k : JournalTail} (h : k.hasEnd = true ∨ s.slots v ≤ satInc 32 k.seq) : OpensAt v k (satInc 32 k.seq) s (s.finishOpen v k) := by
  obtain ⟨hused, hnext, happend⟩ := s.setTail_regs v k
  rw [State.finishOpen_plain hv hgood (h.imp_right fun hfull => by
    rwa [State.nextSeq_setTail, State.slots_of_cfg (VolumeCourse.setTail s v k).cfg])]
  exact .setOpen (.setTail s v k) (s.setTail_wait v k) hused happend hnext

theorem OpensAt.recovered {k : JournalTail} (hend : k.hasEnd = false) (hslot : satInc 32 k.seq < s.slots v) :
    OpensAt v k (satInc 32 (satInc 32 k.seq)) s (s.finishOpen v k) := by
  obtain ⟨hused, hnext, happend⟩ := s.setTail_regs v k
  have hjournal := ServesAndWrites.appendJournal (s.setTail v k) v ((s.setTail v k).recoveredEnd k)
  have hrecord := (s.setTail v k).appendJournal_used v ((s.setTail v k).recoveredEnd k)
  have hkept {a : Nat} (ha : a ≠ Adr.BTH.JNL_USED v) := hjournal.regs.rd (List.mem_singleton.not.mpr ha)
  have hwait := (congrArg (fun w => SMap.get (fun _ => VolWait.none) w v) hjournal.waits).trans (s.setTail_wait v k)
  rw [State.finishOpen_recovers hv hgood hend (by rwa [State.nextSeq_setTail, State.slots_of_cfg (VolumeCourse.setTail s v k).cfg])]
  exact .setOpen ((VolumeCourse.setTail s v k).trans ⟨hjournal.table, hjournal.regs.mono fun _ hb => List.mem_singleton.mp hb ▸ (volRegs_mem v).2.1⟩) hwait
    (hrecord.trans (congrArg (satInc 32) hused)) ((hkept (jnlUsed_ne_append v).symm).trans happend) ((hkept (jnlUsed_ne_nextTake v).symm).trans hnext)

/-- The forward scan goes on to the next frame or record. -/
theorem State.scanNext_reads {k : JournalTail} (hlen : (scanSpan k).2 ≠ 0) (hfits : (scanSpan k).1 + (scanSpan k).2 ≤ s.volBytes v) :
    ServesMembers (s.setVolWait v (.forward k)) (s.scanNext v k) := by
  have hspan := ServesMembers.issueSpan v false (.scan v) ((scanSpan k).2 / 4096 + 1) (s.setVolWait v (.forward k)) (scanSpan k).1 (scanSpan k).2
    (List.replicate ((scanSpan k).2 / 4096) (stagedBlock []))
  have hcheck := (((VolumeCourse.refl v s).setVolWait (.forward k)).serves hspan).checkVolume hv hgood
  unfold State.scanNext
  split
  rename_i o len hk
  obtain rfl : o = (scanSpan k).1 := (congrArg Prod.fst hk).symm
  obtain rfl : len = (scanSpan k).2 := (congrArg Prod.snd hk).symm
  rw [if_neg (not_or_intro hlen (Nat.not_lt.mpr hfits)), hcheck]
  exact hspan

end finish

/-- What the scan leaves of a volume's members. -/
theorem State.scanned_good {s : State} {v : Nat} (hgood : ∀ m ∈ s.volMembers v, s.memberBad m = false) :
    ∀ m ∈ (s.scanned v).volMembers v, (s.scanned v).memberBad m = false := by
  have hserves := ServesMembers.scanned s v
  have hbad : (s.scanned v).memberBad = s.memberBad := by
    funext m
    unfold State.memberBad State.memState
    rw [hserves.regs]
  rw [State.volMembers_congr ((hserves.sameRegs []).rd List.not_mem_nil) hserves.table, hbad]
  exact hgood

theorem State.scanned_slots (s : State) (v : Nat) : (s.scanned v).slots v = s.slots v :=
  State.slots_of_cfg (((ServesMembers.scanned s v).sameRegs []).rd List.not_mem_nil)

theorem State.scanned_volBytes (s : State) (v : Nat) : (s.scanned v).volBytes v = s.volBytes v := by
  unfold State.volBytes State.volM
  rw [(ServesMembers.scanned s v).regs]

theorem OpensAt.of_scanned {v used : Nat} {k : JournalTail} {s t : State} (h : OpensAt v k used (s.scanned v) t) : OpensAt v k used s t :=
  ⟨h.state, h.wait, h.used, h.append, h.next, (((ServesMembers.scanned s v).sameRegs []).trans h.regs).mono (List.Subset.refl _)⟩

/-! ### FETCH (R214) -/

/-- Bytes go to the same place of a DRAM that is alike. -/
theorem ServesMembers.store_dram {s t : State} (h : ServesMembers s t) (hdram : t.dram = s.dram) (a : Nat) (bs : List Byte) :
    (t.store a bs).dram = (s.store a bs).dram := by
  have hstore (u : State) : (u.store a bs).dram = ({ u.unstaged with dram := u.dram }.store a bs).dram := rfl
  rw [hstore t, hstore s, h.rest, hdram]

theorem State.storeSeen_dram (s : State) (a : Nat) (bs : List Byte) : (s.storeSeen a bs).dram = (s.store a bs).dram := by
  unfold State.storeSeen State.outOfRange
  split
  · rfl
  · rfl

theorem fetchCmd_ignored {s : State} (h : Fld.BTH.FETCH_STAT_BUSY s.regs = 1) : fetchCmd s = s := if_pos h

theorem fetchCmd_refused {s : State} {v : Nat} (hidle : Fld.BTH.FETCH_STAT_BUSY s.regs = 0) (hvol : Fld.BTH.FETCH_VOL s.regs = v)
    (hclosed : s.volState v ≠ 1) (hopen : s.volState v ≠ 3) : fetchCmd s = s.setReg Adr.BTH.FETCH_STAT 4 := by
  unfold fetchCmd
  rw [if_neg (by rw [hidle]; decide), hvol]
  exact if_neg (not_or_intro hclosed hopen)

/-- A fetch that begins is noted, its Reads issued at once or at the end of HOLD. -/
theorem fetchCmd_begins {s : State} {v : Nat} (hidle : Fld.BTH.FETCH_STAT_BUSY s.regs = 0) (hvol : Fld.BTH.FETCH_VOL s.regs = v)
    (hstate : s.volState v = 1 ∨ s.volState v = 3) : ∃ f : Fetch, f.vol = v ∧ f.dst = Fld.BTH.FETCH_DST s.regs ∧ f.units = Fld.BTH.FETCH_UNITS s.regs ∧
      (fetchCmd s).bth.fetch = some f ∧ (fetchCmd s).regs = (s.setReg Adr.BTH.FETCH_STAT 1).regs ∧ (fetchCmd s).dram = s.dram := by
  unfold fetchCmd
  rw [if_neg (by rw [hidle]; decide), hvol]
  extract_lets w f b u
  rw [if_pos hstate]
  split
  · exact ⟨f, rfl, rfl, rfl, rfl, rfl, rfl⟩
  · have hspan := ServesMembers.issueSpan f.vol false .fetch (f.units + 1) { u with bth := { u.bth with fetch := some { f with issued := true } } } f.ofs
      (f.units * 4096) ((List.range f.units).map (fun k => inUnit (f.dst + k)))
    have hdram := State.issueSpan_dram f.vol false .fetch (f.units + 1) { u with bth := { u.bth with fetch := some { f with issued := true } } } f.ofs
      (f.units * 4096) (blocks := (List.range f.units).map (fun k => inUnit (f.dst + k))) (fun b hb => by
        obtain ⟨k, -, rfl⟩ := List.mem_map.mp hb
        rfl)
    exact ⟨{ f with issued := true }, rfl, rfl, rfl, hspan.fetch, hspan.regs, hdram⟩

theorem fetchDone_waits {s : State} {f : Fetch} (h : s.bth.fetch = some f) (hwait : f.issued = false) (error : Bool) (data : List Byte) :
    fetchDone error data s = s := by
  unfold fetchDone
  rw [h]
  exact if_pos (by rw [hwait]; rfl)

/-- Whether a fetch command has failed. -/
def State.fetchFailed (s : State) : Bool := s.bth.members.any (fun e => e.2.cmds.any (fun c => c.failed && decide (c.purpose = .fetch)))

/-- The fetched bytes in DRAM, and the fetch at its end. -/
def State.endFetch (s : State) (f : Fetch) (data : List Byte) : State :=
  let t := (s.dropCommands (fun u => decide (u = .fetch))).storeSeen (f.dst * 4096) (data.take (f.units * 4096))
  { t with bth := { t.bth with fetch := none } }

theorem fetchDone_acts {s : State} {f : Fetch} (h : s.bth.fetch = some f) (hissued : f.issued = true) (error : Bool) (data : List Byte) :
    fetchDone error data s = (s.endFetch f data).setReg Adr.BTH.FETCH_STAT (if error || s.fetchFailed then 4 else 2) := by
  unfold fetchDone
  rw [h]
  exact if_neg (by rw [hissued]; decide)

theorem State.endFetch_regs (s : State) (f : Fetch) (data : List Byte) : (s.endFetch f data).regs = s.regs :=
  ((ServesMembers.dropCommands s _).trans (.storeSeen _ _ _)).regs

theorem State.endFetch_dram {s : State} (h : s.blocksWait = false) (f : Fetch) (data : List Byte) :
    (s.endFetch f data).dram = (s.store (f.dst * 4096) (data.take (f.units * 4096))).dram :=
  (State.storeSeen_dram _ _ _).trans ((ServesMembers.dropCommands s _).store_dram (State.dropCommands_dram h _) _ _)

end Sys2Proof.Machine

/-! What the commands of volumes and FETCH come to (R203 to R207, R214, R218). -/

namespace Sys2Proof.Machine

theorem State.volState_of_cfg {s t : State} {v : Nat} (h : SameRegsBut [Adr.BTH.VOL_CFG v] s t) : t.volState v = s.volState v :=
  State.volState_of_rd (h.rd (by
    simp only [List.mem_singleton, RegAddr, Adr.BTH.VOL_CFG, Adr.BTH.VOL_STAT]
    omega))

theorem ServesMembers.volState {s t : State} (h : ServesMembers s t) (v : Nat) : t.volState v = s.volState v := congrArg (Fld.BTH.VOL_STAT_STATE · v) h.regs

/-- Registers that one step changes before or after the service of members. -/
theorem SameRegsBut.thenServes {l : List RegAddr} {s t u : State} (h : SameRegsBut l s t) (k : ServesMembers t u) : SameRegsBut l s u :=
  (h.trans (k.sameRegs [])).mono (by simp)

theorem SameRegsBut.afterServes {l : List RegAddr} {s t u : State} (k : t.regs = s.regs) (h : SameRegsBut l t u) : SameRegsBut l s u :=
  (SameRegsBut.refl [] k).trans h

/-! ### Enabling and the label (R203) -/

section volume
variable {s : State} {v : Nat}

theorem volumeEnable_reading (hoff : s.volState v = 0) (hwait : s.volWait v = .none) (hgood : (s.enableVolume v).volConfigGood v = true) :
    Fld.BTH.VOL_CFG_EN (volumeEnable v s).regs v = 1 ∧ (volumeEnable v s).volState v = 0 ∧ (volumeEnable v s).volWait v = .label ∧
      (∃ c, c ∈ ((volumeEnable v s).member (s.slotMember v 0)).cmds ∧ c.purpose = .labelRead v ∧ c.op = .read ∧ c.bytes = 4096 ∧
        c.addr = s.slotBase v 0 * 2 ^ 20) ∧ SameRegsBut [Adr.BTH.VOL_CFG v] s (volumeEnable v s) ∧ (volumeEnable v s).dram = s.dram := by
  have hregs : SameRegsBut [Adr.BTH.VOL_CFG v] s (s.enableVolume v) := .putFld rfl
  have hen : Fld.BTH.VOL_CFG_EN (s.enableVolume v).regs v = 1 := s.fld_setFld_same _ 0 1 1 (by decide)
  have hcmd := ServesMembers.command (s.enableVolume v) (s.slotMember v 0) .read [stagedBlock []] (s.slotBase v 0 * 2 ^ 20) 4096 (.labelRead v)
  have hmem := (s.enableVolume v).command_mem (s.slotMember v 0) .read [stagedBlock []] (s.slotBase v 0 * 2 ^ 20) 4096 (.labelRead v)
  have hdram := (s.enableVolume v).command_dram (s.slotMember v 0) .read (s.slotBase v 0 * 2 ^ 20) 4096 (.labelRead v) (blocks := [stagedBlock []])
    (by simp [stagedBlock])
  rw [volumeEnable_reads hoff hwait hgood]
  generalize (s.enableVolume v).command (s.slotMember v 0) .read [stagedBlock []] (s.slotBase v 0 * 2 ^ 20) 4096 (.labelRead v) = u at hcmd hmem hdram
  exact ⟨(congrArg (Fld.BTH.VOL_CFG_EN · v) hcmd.regs).trans hen, (hcmd.volState v).trans ((State.volState_of_cfg hregs).trans hoff),
    u.volWait_setVolWait_same v .label, hmem, (hregs.thenServes hcmd : SameRegsBut _ s u), hdram⟩

theorem State.labelDone_wait (s : State) (v : Nat) : (s.labelDone v).volWait v = .none := by
  unfold State.labelDone
  exact State.volWait_setVolWait_same _ v .none

theorem State.labelDone_dram (s : State) (v : Nat) (h : s.blocksWait = false) : (s.labelDone v).dram = s.dram := by
  unfold State.labelDone
  rw [State.setVolWait_dram]
  exact State.dropCommands_dram h _

theorem labelReadDone_good {label : List Byte} (hwait : s.volWait v = .label) (hgood : s.labelGood v label = true) :
    (labelReadDone v label s).volState v = 1 ∧ (labelReadDone v label s).volWait v = .none ∧
      SameRegsBut [Adr.BTH.VOL_STAT v] s (labelReadDone v label s) ∧ (s.blocksWait = false → (labelReadDone v label s).dram = s.dram) := by
  have hregs := s.labelDone_regs v
  have hidle := s.labelDone_wait v
  have hdram := s.labelDone_dram v
  rw [labelReadDone_acts hwait, if_pos hgood]
  generalize s.labelDone v = u at hregs hidle hdram
  exact ⟨u.volState_setVolState (by decide), hidle, .afterServes hregs (.setReg u _ 1), hdram⟩

/-- A volume fault leaves the volume's state. -/
theorem State.volFault_fields (s : State) (hv : v < 16) (code : Nat) : (s.volFault v code).volState v = s.volState v ∧
    (s.volFault v code).rd Adr.BTH.FAULT_VOL = v ∧ { page := 0x30, cause := 0x30A, code := code, event := true, unit := 0x30A } ∈ (s.volFault v code).held := by
  refine ⟨State.volState_of_rd (s.rd_setReg_ne ?_ v), (s.rd_setReg_same _ v).trans (Nat.mod_eq_of_lt (by omega)), (State.mem_fault _ _ _ _).mpr (.inl rfl)⟩
  simp only [RegAddr, Adr.BTH.VOL_STAT, Adr.BTH.FAULT_VOL, ne_eq]
  omega

theorem labelReadDone_bad (hv : v < 16) {label : List Byte} (hwait : s.volWait v = .label) (hbad : s.labelGood v label = false) :
    (labelReadDone v label s).volState v = 5 ∧ (labelReadDone v label s).volWait v = .none ∧ (labelReadDone v label s).rd Adr.BTH.FAULT_VOL = v ∧
      { page := 0x30, cause := 0x30A, code := 0x21, event := true, unit := 0x30A } ∈ (labelReadDone v label s).held := by
  have hidle := s.labelDone_wait v
  rw [labelReadDone_acts hwait, if_neg (by rw [hbad]; decide)]
  generalize s.labelDone v = u at hidle
  obtain ⟨hstate, hvol, hheld⟩ := (u.setVolState v 5).volFault_fields hv 0x21
  exact ⟨hstate.trans (u.volState_setVolState (by decide)), hidle, hvol, hheld⟩

/-! ### Disabling (R218) -/

theorem volumeDisable_off (hv : v < 16) (hstate : s.volState v ≠ 0) (hwait : ∀ l, s.volWait v ≠ .disable l)
    (hhost : ∀ c, c ∈ s.ofc.cmds → c.sq = 0 ∨ c.cmd.nsid ≠ v + 1) :
    Fld.BTH.VOL_CFG_EN (volumeDisable v s).regs v = 0 ∧ (volumeDisable v s).volState v = 0 ∧ (volumeDisable v s).volWait v = .none ∧
      ∀ c tk, c < 8 → (s.recChan c).take = some tk → tk.vol = v → s.chState c = 1 ∨ s.chState c = 2 →
        (volumeDisable v s).chState c = 3 ∧ Fld.BTH.CH_STAT_REASON (volumeDisable v s).regs c = 1 := by
  have hnone : s.hostCmds v = [] := List.filter_eq_nil_iff.mpr fun c hc => by simpa [or_iff_not_imp_left] using hhost c hc
  have hregs : SameRegsBut [Adr.BTH.VOL_CFG v] s (s.disableVolume v) := .putFld rfl
  have hen : Fld.BTH.VOL_CFG_EN (s.disableVolume v).regs v = 0 := s.fld_setFld_same _ 0 1 0 (by decide)
  obtain ⟨hoff, hidle, hcfg, hhalted⟩ := (s.disableVolume v).volOff_halts hv
  rw [volumeDisable_acts hstate hwait (by simp [hnone]), hnone, if_neg (by simp [State.hostOutstanding])]
  refine ⟨(fld_of_rd hcfg 0 1).trans hen, hoff, hidle, fun c tk hc htake hvol hworks => ?_⟩
  have hstat : (s.disableVolume v).rd (Adr.BTH.CH_STAT c) = s.rd (Adr.BTH.CH_STAT c) := hregs.rd (by
    simp only [List.mem_singleton, RegAddr, Adr.BTH.VOL_CFG, Adr.BTH.CH_STAT]
    omega)
  have hworks' : (s.disableVolume v).worksOn c v := (State.worksOn_of_stat (s := s) (t := s.disableVolume v) rfl hstat).mpr ⟨⟨tk, htake, hvol⟩, hworks⟩
  exact State.chStat_fields (hhalted c hc hworks') (by decide) (by decide)

theorem volumeDisable_waits (hstate : s.volState v ≠ 0) (hwait : ∀ l, s.volWait v ≠ .disable l) (hissued : ∀ c, c ∈ s.ofc.cmds → c.issued = true)
    (hsome : (s.hostCmds v).map (·.tag) ≠ []) : volumeDisable v s = (s.disableVolume v).setVolWait v (.disable ((s.hostCmds v).map (·.tag))) := by
  have hout : s.hostOutstanding ((s.hostCmds v).map (·.tag)) = true := by
    obtain ⟨c, hc⟩ := List.exists_mem_of_ne_nil _ fun hnil => hsome (congrArg (List.map _) hnil)
    exact List.any_eq_true.mpr ⟨c, List.mem_of_mem_filter hc, List.contains_iff_mem.mpr (List.mem_map_of_mem hc)⟩
  rw [volumeDisable_acts hstate hwait fun c hc => hissued c (List.mem_of_mem_filter hc), if_pos hout]

/-! ### FORMAT and OPEN (R205, R207) -/

theorem State.busyVolume_regs (s : State) (v : Nat) (w : VolWait) : SameRegsBut [Adr.BTH.VOL_STAT v] s (s.busyVolume v w) := SameRegsBut.setReg s _ 2

theorem format_begins (hv : v < 16) (hstate : s.volState v = 1 ∨ s.volState v = 5) (hwait : s.volWait v = .none) (hwrites : s.hostWrites v = false)
    (hgood : ∀ m, m ∈ s.volMembers v → s.memberBad m = false) : (format v s).volState v = 2 ∧ (format v s).volWait v = .format ∧
      (∃ c, c ∈ ((format v s).member (s.slotMember v 0)).cmds ∧ c.purpose = .label v ∧ c.op = .write true ∧ c.bytes = 4096 ∧
        c.addr = s.slotBase v 0 * 2 ^ 20) ∧ SameRegsBut [Adr.BTH.VOL_STAT v] s (format v s) := by
  have hbusy : (s.busyVolume v .format).volState v = 2 := s.volState_setVolState (by decide)
  have hnoted : (s.busyVolume v .format).volWait v = .format := State.volWait_setVolWait_same _ v .format
  have hcmd := ServesMembers.command (s.busyVolume v .format) (s.slotMember v 0) (.write true) [stagedBlock (s.labelBytes v s.time.sec)]
    (s.slotBase v 0 * 2 ^ 20) 4096 (.label v)
  rw [format_starts hstate hwait hwrites, State.startFormat_good hv hgood]
  exact ⟨(hcmd.volState v).trans hbusy, (hcmd.volWait v).trans hnoted, State.command_mem _ _ _ _ _ _ _,
    (s.busyVolume_regs v _).thenServes hcmd⟩

theorem formatDone_closes (hwait : s.volWait v = .format) : (formatDone v s).volState v = 1 ∧ (formatDone v s).volWait v = .none ∧
    SameRegsBut [Adr.BTH.VOL_STAT v] s (formatDone v s) ∧ (s.blocksWait = false → (formatDone v s).dram = s.dram) := by
  have hdrop := ServesMembers.dropCommands s (fun u => decide (u = .label v))
  have hdram : s.blocksWait = false → (s.dropCommands (fun u => decide (u = .label v))).dram = s.dram := fun h => State.dropCommands_dram h _
  rw [formatDone_acts hwait]
  generalize s.dropCommands (fun u => decide (u = .label v)) = u at hdrop hdram
  exact ⟨State.volState_setVolState _ (by decide), u.volWait_setVolWait_same v .none, .afterServes hdrop.regs (.setReg (u.setVolWait v .none) _ 1), hdram⟩

theorem openVolume_begins (hv : v < 16) (hstate : s.volState v = 1) (hwait : s.volWait v = .none) (hwrites : s.hostWrites v = false)
    (hgood : ∀ m, m ∈ s.volMembers v → s.memberBad m = false) : (openVolume v s).volState v = 2 ∧ (openVolume v s).volWait v = .open ∧
      SameRegsBut [Adr.BTH.VOL_STAT v] s (openVolume v s) ∧ (openVolume v s).dram = s.dram := by
  have hbusy : (s.busyVolume v .open).volState v = 2 := s.volState_setVolState (by decide)
  have hnoted : (s.busyVolume v .open).volWait v = .open := State.volWait_setVolWait_same _ v .open
  have hspan := ServesMembers.issueSpan v false (.scan v) ((s.busyVolume v .open).volJ v * 2 ^ 20 / 4096) (s.busyVolume v .open) (2 ^ 20)
    ((s.busyVolume v .open).volJ v * 2 ^ 20) (List.replicate ((s.busyVolume v .open).volJ v * 2 ^ 20 / 4096) (stagedBlock []))
  have hdram := State.issueSpan_dram v false (.scan v) ((s.busyVolume v .open).volJ v * 2 ^ 20 / 4096) (s.busyVolume v .open) (2 ^ 20)
    ((s.busyVolume v .open).volJ v * 2 ^ 20) (blocks := List.replicate ((s.busyVolume v .open).volJ v * 2 ^ 20 / 4096) (stagedBlock []))
    (fun b hb => List.eq_of_mem_replicate hb ▸ rfl)
  rw [openVolume_starts hstate hwait hwrites, State.startOpen_good hv hgood]
  exact ⟨(hspan.volState v).trans hbusy, (hspan.volWait v).trans hnoted, (s.busyVolume_regs v _).thenServes hspan, hdram⟩

/-! ### The scan (R207) -/

/-- The registers of a volume that opens with an empty journal. -/
def State.openEmpty (s : State) (v j : Nat) : State :=
  ((((s.setVolWait v .none).setReg (Adr.BTH.JNL_USED v) 0).setReg (Adr.BTH.APPEND v) j).setReg (Adr.BTH.NEXT_TAKE v) 0).setVolState v 3

theorem State.openEmpty_fields (s : State) (v : Nat) {j : Nat} (hj : j < 2 ^ 32) : VolumeCourse v s (s.openEmpty v j) ∧ (s.openEmpty v j).volState v = 3 ∧
    (s.openEmpty v j).volWait v = .none ∧ (s.openEmpty v j).rd (Adr.BTH.JNL_USED v) = 0 ∧ (s.openEmpty v j).rd (Adr.BTH.APPEND v) = j ∧
    (s.openEmpty v j).rd (Adr.BTH.NEXT_TAKE v) = 0 := by
  obtain ⟨hstat, hused, happend, hnext⟩ := volRegs_mem v
  have hidle := s.volWait_setVolWait_same v .none
  have hcourse := (VolumeCourse.refl v s).setVolWait .none
  unfold State.openEmpty
  generalize s.setVolWait v .none = u at hidle hcourse
  obtain ⟨hstate, kused, knext, kappend⟩ := (((u.setReg (Adr.BTH.JNL_USED v) 0).setReg (Adr.BTH.APPEND v) j).setReg (Adr.BTH.NEXT_TAKE v) 0).setOpen_regs v
  refine ⟨(((hcourse.setReg hused 0).setReg happend j).setReg hnext 0).setReg hstat 3, hstate, hidle, kused.trans ?_, kappend.trans ?_, knext.trans ?_⟩
  · rw [State.rd_setReg_ne _ (jnlUsed_ne_nextTake v), State.rd_setReg_ne _ (jnlUsed_ne_append v), State.rd_setReg_same]
    decide
  · rw [State.rd_setReg_ne _ (nextTake_ne_append v).symm, State.rd_setReg_same, Nat.mod_eq_of_lt hj]
  · rw [State.rd_setReg_same]
    decide

theorem State.openEmpty_dram (s : State) (v j : Nat) : (s.openEmpty v j).dram = s.dram := by
  simp only [State.openEmpty, State.setVolState, State.setReg_dram, State.setVolWait_dram]

theorem State.setTail_dram (s : State) (v : Nat) (k : JournalTail) : ((s.setTail v k).setVolState v 3).dram = s.dram := by
  rw [State.setVolState, State.setReg_dram, State.setTail, State.setReg_dram, State.setReg_dram, State.setReg_dram, State.setVolWait_dram]

theorem State.scanned_volJ (s : State) (v : Nat) : (s.scanned v).volJ v = s.volJ v := by
  unfold State.volJ
  rw [(ServesMembers.scanned s v).regs]

theorem State.scanned_dram (s : State) (v : Nat) (h : s.blocksWait = false) : (s.scanned v).dram = s.dram := by
  unfold State.scanned
  exact State.dropCommands_dram h _

variable (hv : v < 16) (hgood : ∀ m, m ∈ s.volMembers v → s.memberBad m = false) (l : List (List Byte)) (data : List Byte)
include hv hgood

theorem openScanDone_opensEmpty (hwait : s.volWait v = .open) (hnone : s.journalTail v l = none) :
    (openScanDone v l data s).volState v = 3 ∧ (openScanDone v l data s).volWait v = .none ∧ (openScanDone v l data s).rd (Adr.BTH.JNL_USED v) = 0 ∧
      (openScanDone v l data s).rd (Adr.BTH.APPEND v) = s.volJ v + 1 ∧ (openScanDone v l data s).rd (Adr.BTH.NEXT_TAKE v) = 0 ∧
      SameRegsBut [Adr.BTH.VOL_STAT v, Adr.BTH.JNL_USED v, Adr.BTH.APPEND v, Adr.BTH.NEXT_TAKE v] s (openScanDone v l data s) ∧
      (s.blocksWait = false → (openScanDone v l data s).dram = s.dram) := by
  have hscan := ServesMembers.scanned s v
  have hdram := s.scanned_dram v
  have hopens := openScanDone_empty l data hwait hnone
  have hj := s.volJ_le v
  rw [State.scanned_volJ] at hopens
  obtain ⟨hcourse, hstate, hidle, hused, happend, hnext⟩ := (s.scanned v).openEmpty_fields v (j := s.volJ v + 1) (by omega)
  rw [hopens.trans (hcourse.checkVolume hv (State.scanned_good hgood))]
  exact ⟨hstate, hidle, hused, happend, hnext, .afterServes hscan.regs hcourse.regs,
    fun h => ((s.scanned v).openEmpty_dram v _).trans (hdram h)⟩

theorem openScanDone_opens {k : JournalTail} (hwait : s.volWait v = .open) (hsome : s.journalTail v l = some k) (hend : k.hasEnd = true) :
    (openScanDone v l data s).volState v = 3 ∧ (openScanDone v l data s).volWait v = .none ∧
      (openScanDone v l data s).rd (Adr.BTH.JNL_USED v) = satInc 32 k.seq % 2 ^ 32 ∧
      (openScanDone v l data s).rd (Adr.BTH.APPEND v) = (k.takeStripe + ceilDiv k.bytes (2 ^ 20)) % 2 ^ 32 ∧
      (openScanDone v l data s).rd (Adr.BTH.NEXT_TAKE v) = (k.takeId + 1) % 2 ^ 32 ∧
      SameRegsBut [Adr.BTH.VOL_STAT v, Adr.BTH.JNL_USED v, Adr.BTH.APPEND v, Adr.BTH.NEXT_TAKE v] s (openScanDone v l data s) ∧
      (s.blocksWait = false → (openScanDone v l data s).dram = s.dram) := by
  have hdram := s.scanned_dram v
  have hopen := (OpensAt.plain hv (State.scanned_good hgood) (.inl hend)).of_scanned
  have hplain := State.finishOpen_plain hv (State.scanned_good hgood) (.inl hend : k.hasEnd = true ∨ _)
  rw [openScanDone_take l data hwait hsome, if_pos hend]
  refine ⟨hopen.state, hopen.wait, hopen.used.trans (satInc_mod k.seq).symm, hopen.append, hopen.next, hopen.regs, fun h => ?_⟩
  rw [hplain]
  exact ((s.scanned v).setTail_dram v k).trans (hdram h)

theorem openScanDone_reads {k : JournalTail} (hwait : s.volWait v = .open) (hsome : s.journalTail v l = some k) (hend : k.hasEnd = false)
    (hlen : (scanSpan k).2 ≠ 0) (hfits : (scanSpan k).1 + (scanSpan k).2 ≤ s.volBytes v) :
    (openScanDone v l data s).volWait v = .forward k ∧ (openScanDone v l data s).volState v = s.volState v ∧
      (openScanDone v l data s).rd (Adr.BTH.JNL_USED v) = s.rd (Adr.BTH.JNL_USED v) := by
  have hscan := ServesMembers.scanned s v
  have hread := State.scanNext_reads hv (State.scanned_good hgood) hlen (by rwa [State.scanned_volBytes])
  rw [openScanDone_take l data hwait hsome, if_neg (by rw [hend]; decide)]
  generalize s.scanned v = u at hscan hread
  exact ⟨(hread.volWait v).trans (u.volWait_setVolWait_same v (.forward k)), (hread.volState v).trans (hscan.volState v),
    ((hread.sameRegs []).rd List.not_mem_nil).trans ((hscan.sameRegs []).rd List.not_mem_nil)⟩

theorem openScanDone_goesOn {k q : JournalTail} (hwait : s.volWait v = .forward k)
    (hfound : (if k.kind = 0 then s.scanFrame data k else s.scanRecord data k) = some q) (hlen : (scanSpan q).2 ≠ 0)
    (hfits : (scanSpan q).1 + (scanSpan q).2 ≤ s.volBytes v) :
    (openScanDone v l data s).volWait v = .forward q ∧ (openScanDone v l data s).volState v = s.volState v := by
  have hscan := ServesMembers.scanned s v
  have hread := State.scanNext_reads hv (State.scanned_good hgood) hlen (by rwa [State.scanned_volBytes])
  rw [openScanDone_forward l data hwait, hfound]
  dsimp only
  generalize s.scanned v = u at hscan hread
  exact ⟨(hread.volWait v).trans (u.volWait_setVolWait_same v (.forward q)), (hread.volState v).trans (hscan.volState v)⟩

theorem openScanDone_recovers {k : JournalTail} (hwait : s.volWait v = .forward k)
    (hlast : (if k.kind = 0 then s.scanFrame data k else s.scanRecord data k) = none) (hend : k.hasEnd = false) :
    (openScanDone v l data s).volState v = 3 ∧ (openScanDone v l data s).volWait v = .none ∧
      (openScanDone v l data s).rd (Adr.BTH.APPEND v) = (k.takeStripe + ceilDiv k.bytes (2 ^ 20)) % 2 ^ 32 ∧
      (openScanDone v l data s).rd (Adr.BTH.NEXT_TAKE v) = (k.takeId + 1) % 2 ^ 32 ∧
      (openScanDone v l data s).rd (Adr.BTH.JNL_USED v) = if satInc 32 k.seq < s.slots v then satInc 32 (satInc 32 k.seq) else satInc 32 k.seq := by
  rw [openScanDone_forward l data hwait, hlast]
  dsimp only
  split
  · rename_i hslot
    have hopen := OpensAt.recovered hv (State.scanned_good hgood) hend (by rwa [State.scanned_slots])
    exact ⟨hopen.state, hopen.wait, hopen.append, hopen.next, hopen.used⟩
  · rename_i hfull
    have hopen := OpensAt.plain hv (State.scanned_good hgood) (k := k) (.inr (by rw [State.scanned_slots]; exact Nat.not_lt.mp hfull))
    exact ⟨hopen.state, hopen.wait, hopen.append, hopen.next, hopen.used⟩

end volume

/-! ### FETCH (R214) -/

theorem fetchCmd_fetches {s : State} {v : Nat} (hidle : Fld.BTH.FETCH_STAT_BUSY s.regs = 0) (hvol : Fld.BTH.FETCH_VOL s.regs = v)
    (hstate : s.volState v = 1 ∨ s.volState v = 3) : (fetchCmd s).rd Adr.BTH.FETCH_STAT = 1 ∧
      (∃ f, (fetchCmd s).bth.fetch = some f ∧ f.vol = v ∧ f.dst = Fld.BTH.FETCH_DST s.regs ∧ f.units = Fld.BTH.FETCH_UNITS s.regs) ∧
      SameRegsBut [Adr.BTH.FETCH_STAT] s (fetchCmd s) ∧ (fetchCmd s).dram = s.dram := by
  obtain ⟨f, hfvol, hdst, hunits, hfetch, hregs, hdram⟩ := fetchCmd_begins hidle hvol hstate
  have hstat := (s.rd_setReg_same Adr.BTH.FETCH_STAT 1)
  rw [State.rd, ← hregs] at hstat
  exact ⟨hstat, ⟨f, hfetch, hfvol, hdst, hunits⟩, (SameRegsBut.setReg s Adr.BTH.FETCH_STAT 1).trans (.refl [] hregs), hdram⟩

theorem fetchDone_ends {s : State} {f : Fetch} (hf : s.bth.fetch = some f) (hissued : f.issued = true) (error : Bool) (data : List Byte) :
    (fetchDone error data s).bth.fetch = none ∧ (fetchDone error data s).rd Adr.BTH.FETCH_STAT = (if error || s.fetchFailed then 4 else 2) ∧
      (s.blocksWait = false → (fetchDone error data s).dram = (s.store (f.dst * 4096) (data.take (f.units * 4096))).dram) ∧
      SameRegsBut [Adr.BTH.FETCH_STAT] s (fetchDone error data s) := by
  have hfetch : (s.endFetch f data).bth.fetch = none := rfl
  have hregs := s.endFetch_regs f data
  have hdram : s.blocksWait = false → (s.endFetch f data).dram = (s.store (f.dst * 4096) (data.take (f.units * 4096))).dram :=
    fun h => State.endFetch_dram h f data
  rw [fetchDone_acts hf hissued]
  generalize s.endFetch f data = u at hfetch hregs hdram
  refine ⟨hfetch, (u.rd_setReg_same _ _).trans (Nat.mod_eq_of_lt ?_), hdram, .afterServes hregs (.setReg u _ _)⟩
  split
  · decide
  · decide

end Sys2Proof.Machine

/-! Volumes (O38). -/

namespace Sys2Proof.Machine

/-- Settles O38: the label, the journal's tail and the scan go by what a volume reads of its table and its registers, and disabling by the channels that
halt. -/
theorem volumesChangeState : Obligations.VolumesChangeState := by
  unfold Obligations.VolumesChangeState
  intro s v hrun
  have hv : v.val < 16 := v.isLt
  refine ⟨?enabled, ?enables, ?badConfig, ?goodLabel, ?badLabel, ?noLabel, ?disables, ?disableWaits, ?formatWaits, ?formats, ?notClosed, ?formatEnds,
    ?noFormat, ?openWaits, ?opens, ?openBad, ?scanEmpty, ?scanEnded, ?scanStarts, ?scanGoes, ?scanRecovers, ?noRecord, ?newest, ?noScan, ?closes, ?inUse,
    ?fetchBusy, ?fetches, ?fetchRefused, ?fetchWaits, ?fetchEnds⟩
  case enabled => exact fun h => .of_answer rfl rfl (volumeEnable_ignored h)
  case enables => exact fun hoff hwait hgood => .of_fact rfl rfl (volumeEnable_reading hoff hwait hgood) fun _ _ _ _ h _ => h
  case badConfig => exact fun hoff hwait hbad => .of_answer rfl rfl (volumeEnable_faulty hoff hwait hbad)
  case goodLabel =>
    exact fun label hlength hwait hgood => .running_fact hrun (beq_iff_eq.mpr hlength) (labelReadDone_good hwait hgood) fun _ _ _ _ h _ => h
  case badLabel =>
    exact fun label hlength hwait hbad => .running_fact hrun (beq_iff_eq.mpr hlength) (labelReadDone_bad hv hwait hbad) fun _ _ _ _ h _ => h
  case noLabel => exact fun label hlength h => .running hrun (beq_iff_eq.mpr hlength) (labelReadDone_ignored h label)
  case disables => exact fun hstate hwait hhost => .of_fact rfl rfl (volumeDisable_off hv hstate hwait hhost) fun _ _ _ _ h _ => h
  case disableWaits =>
    rintro l hstate hwait hissued rfl hsome
    exact .of_answer rfl rfl (volumeDisable_waits hstate hwait hissued hsome)
  case formatWaits => exact fun hstate hwait hwrites => .of_answer rfl rfl (format_waits hstate hwait hwrites)
  case formats =>
    exact fun hstate hwait hwrites hgood => .of_fact rfl rfl (format_begins hv hstate hwait hwrites hgood) fun _ _ _ _ h _ => h
  case notClosed => exact fun hclosed hlabel => ⟨.of_answer rfl rfl (format_ignored hclosed hlabel), .of_answer rfl rfl (openVolume_ignored hclosed hlabel)⟩
  case formatEnds => exact fun hwait => .of_fact rfl rfl (formatDone_closes hwait) fun _ _ _ _ h _ => h
  case noFormat => exact fun h => .of_answer rfl rfl (formatDone_ignored h)
  case openWaits => exact fun hstate hwait hwrites => .of_answer rfl rfl (openVolume_waits hstate hwait hwrites)
  case opens =>
    exact fun hstate hwait hwrites hgood => .of_fact rfl rfl (openVolume_begins hv hstate hwait hwrites hgood) fun _ _ _ _ h _ => h
  case openBad => exact fun h => .of_answer rfl rfl (openVolume_badLabel h)
  case scanEmpty =>
    exact fun l data hwait hgood hl hnone => .running_fact hrun hl (openScanDone_opensEmpty hv hgood l data hwait hnone) fun _ _ _ _ h _ => h
  case scanEnded =>
    exact fun l data k hwait hgood hl hsome hend => .running_fact hrun hl (openScanDone_opens hv hgood l data hwait hsome hend) fun _ _ _ _ h _ => h
  case scanStarts =>
    exact fun l data k hwait hgood hl hsome hend hlen hfits =>
      .running_fact hrun hl (openScanDone_reads hv hgood l data hwait hsome hend hlen hfits) fun _ _ _ _ h _ => h
  case scanGoes =>
    exact fun l data k q hwait hgood hl hfound hlen hfits =>
      .running_fact hrun hl (openScanDone_goesOn hv hgood l data hwait hfound hlen hfits) fun _ _ _ _ h _ => h
  case scanRecovers =>
    exact fun l data k hwait hgood hl hlast hend => .running_fact hrun hl (openScanDone_recovers hv hgood l data hwait hlast hend) fun _ _ _ _ h _ => h
  case noRecord => exact s.journalTail_none v
  case newest =>
    intro l k hk
    obtain ⟨hmax, b, hb, hvalid, hseq, htake⟩ := State.journalTail_newest hk
    refine ⟨List.all_eq_true.mpr fun b hb => ?_, List.any_eq_true.mpr ⟨b, hb, by simp [hvalid, hseq, htake]⟩⟩
    rcases Bool.eq_false_or_eq_true (s.recordValid v b) with h | h
    · simpa [h] using hmax b hb h
    · simp [h]
  case noScan => exact fun l data hl hopen hforward => .running hrun hl (openScanDone_ignored l data hopen hforward)
  case closes => exact fun hopen hidle => .of_answer rfl rfl (close_closes hopen hidle)
  case inUse => exact fun c tk hc hworks htake hvol => .of_answer rfl rfl (close_ignored hc hworks htake hvol)
  case fetchBusy => exact fun h => .of_answer rfl rfl (fetchCmd_ignored h)
  case fetches => exact fun hidle hvol hstate => .of_fact rfl rfl (fetchCmd_fetches hidle hvol hstate) fun _ _ _ _ h _ => h
  case fetchRefused => exact fun hidle hvol hclosed hopen => .of_answer rfl rfl (fetchCmd_refused hidle hvol hclosed hopen)
  case fetchWaits => exact fun error data f hf hwait => .running hrun rfl (fetchDone_waits hf hwait error data)
  case fetchEnds => exact fun error data f hf hissued => .running_fact hrun rfl (fetchDone_ends hf hissued error data) fun _ _ _ _ h _ => h

end Sys2Proof.Machine

/-! Member drives: enabling, the end of the initialisation and disabling (R197, R199). -/

namespace Sys2Proof.Machine

theorem State.member_setMember_same (s : State) (m : Nat) (x : Member) : (s.setMember m x).member m = x := (s.member_setMember m x m).trans (if_pos rfl)

theorem ServesMembers.memState {s t : State} (h : ServesMembers s t) (m : Nat) : t.memState m = s.memState m := congrArg (Fld.BTM.MEM_STAT_STATE · m) h.regs

/-- What is lost behind the service of members is lost. -/
theorem MemberLost.of_serves {s t u : State} {m st : Nat} (h : ServesMembers s t) (k : MemberLost t u m st) : MemberLost s u m st := by
  refine ⟨k.1, fun v hv huse hm => ?_⟩
  have hstate := h.volState v
  have hmembers : t.volMembers v = s.volMembers v := State.volMembers_congr ((h.sameRegs []).rd List.not_mem_nil) h.table
  obtain ⟨hfailed, hhalted⟩ := k.2 v hv (hstate.symm ▸ huse) (hmembers.symm ▸ hm)
  refine ⟨hfailed, fun c tk hc htake hvol hworks => hhalted c tk hc ((congrArg Chan.take (h.recChan c)).trans htake) hvol ?_⟩
  have hchan : t.chState c = s.chState c := congrArg (Fld.BTH.CH_STAT_STATE · c) h.regs
  rwa [hchan]

/-! ### Enabling (R197) -/

/-- A member in INIT, with EN. -/
def State.startMember (s : State) (m : Nat) : State := (s.setFld (Adr.BTM.MEM_CFG m) 0 1 1).setMemState m 1

/-- A member whose queue takes units. -/
theorem State.holdQueue_eq (s : State) (m n : Nat) : ∃ us, us.length ≤ ceilDiv n 4096 ∧
    s.holdQueue m n = (us, s.setMember m { s.member m with queues := (s.member m).queues ++ us }) := ⟨_, List.length_take_le _ _, rfl⟩

/-- A member in INIT without its queues, its drive's controller disabled. -/
def State.clearMember (s : State) (m port bar : Nat) : State :=
  (s.setMember m { memberReset with cmds := (s.member m).cmds.filter (·.failed) }).emit (.memberControl port bar false [])

/-- A member in INIT with its admin queues in place. -/
def State.placeAdmin (s : State) (m port bar : Nat) : State :=
  ((s.clearMember m port bar).holdQueue m 8192).2.emit (.memberControl port bar true (((s.clearMember m port bar).holdQueue m 8192).1.map (· * 4096)))

/-- A member that is enabled, before its first command. -/
def State.enableMember (s : State) (m : Nat) : State :=
  (s.startMember m).placeAdmin m (Fld.BTM.MEM_CFG_PORT (s.startMember m).regs m)
    ((s.startMember m).rd (Adr.BTM.MEM_BAR_LO m) + 2 ^ 32 * (s.startMember m).rd (Adr.BTM.MEM_BAR_HI m))

theorem memberEnable_ignored {s : State} {m : Nat} (h : s.memState m ≠ 0) : memberEnable m s = s := if_pos h

theorem memberEnable_acts {s : State} {m : Nat} (h : s.memState m = 0) : memberEnable m s = (s.enableMember m).initCommand m .identifyController := by
  unfold memberEnable State.enableMember
  rw [if_neg (not_not_intro h), ← State.startMember]
  generalize s.startMember m = t
  extract_lets _ port bar _ u
  have hu : t.clearMember m port bar = u := rfl
  unfold State.placeAdmin
  rw [hu]

theorem memStat_ne_memCfg (m k : Nat) : Adr.BTM.MEM_STAT m ≠ Adr.BTM.MEM_CFG k := by
  simp only [RegAddr, Adr.BTM.MEM_STAT, Adr.BTM.MEM_CFG, ne_eq]
  omega

theorem State.startMember_regs (s : State) (m : Nat) : SameRegsBut [Adr.BTM.MEM_CFG m, Adr.BTM.MEM_STAT m] s (s.startMember m) ∧
    (s.startMember m).memState m = 1 ∧ Fld.BTM.MEM_CFG_EN (s.startMember m).regs m = 1 ∧
    Fld.BTM.MEM_CFG_PORT (s.startMember m).regs m = Fld.BTM.MEM_CFG_PORT s.regs m := by
  have hkept : (s.startMember m).rd (Adr.BTM.MEM_CFG m) = (s.setFld (Adr.BTM.MEM_CFG m) 0 1 1).rd (Adr.BTM.MEM_CFG m) :=
    State.rd_setReg_ne _ (memStat_ne_memCfg m m).symm 1
  exact ⟨(SameRegsBut.putFld (t := s.setFld (Adr.BTM.MEM_CFG m) 0 1 1) rfl).trans (.setReg _ _ 1), State.memState_setMemState _ (by decide),
    (fld_of_rd hkept 0 1).trans (s.fld_setFld_same _ 0 1 1 (by decide)),
    (fld_of_rd hkept 4 3).trans (s.fld_setFld_beside _ 0 1 1 4 3 (by decide) (.inr (by decide)))⟩

theorem State.startMember_bar (s : State) (m : Nat) : (s.startMember m).rd (Adr.BTM.MEM_BAR_LO m) = s.rd (Adr.BTM.MEM_BAR_LO m) ∧
    (s.startMember m).rd (Adr.BTM.MEM_BAR_HI m) = s.rd (Adr.BTM.MEM_BAR_HI m) := by
  have hregs := (s.startMember_regs m).1
  refine ⟨hregs.rd ?_, hregs.rd ?_⟩
  all_goals
    simp only [List.mem_cons, List.not_mem_nil, or_false, RegAddr, Adr.BTM.MEM_BAR_LO, Adr.BTM.MEM_BAR_HI, Adr.BTM.MEM_CFG, Adr.BTM.MEM_STAT]
    omega

/-- The admin queues of a member, and what its drive is told. -/
theorem State.placeAdmin_member (s : State) (m port bar : Nat) :
    ∃ us, (s.placeAdmin m port bar).member m = { memberReset with cmds := (s.member m).cmds.filter (·.failed), queues := us } ∧
      .memberControl port bar true (us.map (· * 4096)) ∈ (s.placeAdmin m port bar).outbox := by
  have hclear : (s.clearMember m port bar).member m = { memberReset with cmds := (s.member m).cmds.filter (·.failed) } := s.member_setMember_same m _
  obtain ⟨us, -, hqueue⟩ := (s.clearMember m port bar).holdQueue_eq m 8192
  unfold State.placeAdmin
  rw [hqueue, hclear]
  exact ⟨us, State.member_setMember_same _ m _, List.mem_append_right _ List.mem_cons_self⟩

theorem ServesMembers.initCommand (s : State) (m : Nat) (op : MemberOp) : ServesMembers s (s.initCommand m op) := .command s _ _ _ _ _ _

/-- The step of the initialisation is the member's last command. -/
theorem State.initCommand_member (s : State) (m : Nat) (op : MemberOp) : ∃ c n, (s.initCommand m op).member m =
    { s.member m with nextCid := n, cmds := (s.member m).cmds ++ [c] } ∧ c.purpose = .init ∧ c.op = op ∧
      c.nsid = if op.namesNamespace then Fld.BTM.NSID s.regs m else 0 := by
  obtain ⟨bs, hmember⟩ := s.command_member m op [stagedBlock []] 0 4096 .init
  exact ⟨_, _, (hmember m).trans (if_pos rfl), rfl, rfl, rfl⟩

theorem State.initCommand_dram (s : State) (m : Nat) (op : MemberOp) : (s.initCommand m op).dram = s.dram :=
  s.command_dram m op 0 4096 .init (by simp [stagedBlock])

theorem memberEnable_starts {s : State} {m : Nat} (h : s.memState m = 0) : (memberEnable m s).memState m = 1 ∧
    Fld.BTM.MEM_CFG_EN (memberEnable m s).regs m = 1 ∧
    (∃ c, ((memberEnable m s).member m).cmds = (s.member m).cmds.filter (·.failed) ++ [c] ∧ c.purpose = .init ∧ c.op = .identifyController) ∧
    .memberControl (Fld.BTM.MEM_CFG_PORT s.regs m) (s.rd (Adr.BTM.MEM_BAR_LO m) + 2 ^ 32 * s.rd (Adr.BTM.MEM_BAR_HI m)) true
      (((memberEnable m s).member m).queues.map (· * 4096)) ∈ (memberEnable m s).outbox ∧
    SameRegsBut [Adr.BTM.MEM_CFG m, Adr.BTM.MEM_STAT m] s (memberEnable m s) ∧ (memberEnable m s).dram = s.dram := by
  obtain ⟨hregs, hstate, hen, hport⟩ := s.startMember_regs m
  obtain ⟨us, hmember, hout⟩ := (s.startMember m).placeAdmin_member m (Fld.BTM.MEM_CFG_PORT (s.startMember m).regs m)
    ((s.startMember m).rd (Adr.BTM.MEM_BAR_LO m) + 2 ^ 32 * (s.startMember m).rd (Adr.BTM.MEM_BAR_HI m))
  rw [← State.enableMember, hport, (s.startMember_bar m).1, (s.startMember_bar m).2] at hout
  rw [← State.enableMember] at hmember
  have hsame : (s.enableMember m).regs = (s.startMember m).regs := rfl
  have hdram : (s.enableMember m).dram = s.dram := rfl
  rw [memberEnable_acts h]
  generalize s.enableMember m = u at hmember hout hsame hdram
  have hserves := ServesMembers.initCommand u m .identifyController
  obtain ⟨c, n, hcmd, hpurpose, hop, -⟩ := u.initCommand_member m .identifyController
  have hall := hserves.regs.trans hsame
  rw [hcmd, hmember]
  exact ⟨(congrArg (Fld.BTM.MEM_STAT_STATE · m) hall).trans hstate, (congrArg (Fld.BTM.MEM_CFG_EN · m) hall).trans hen, ⟨c, rfl, hpurpose, hop⟩,
    hserves.outbox ▸ hout, fun a ha => (congrArg (RegFile.word · a) hall).trans (hregs a ha), (u.initCommand_dram m _).trans hdram⟩

/-! ### The end of the initialisation (R197) -/

/-- A member whose commands of the initialisation are taken away. -/
def State.endInit (s : State) (m : Nat) : State :=
  s.setMember m { s.member m with cmds := (s.member m).cmds.filter (fun c => decide (c.purpose ≠ .init)) }

theorem ServesMembers.endInit (s : State) (m : Nat) : ServesMembers s (s.endInit m) := .setMember s m _

section init
variable {s : State} {m : Nat}

theorem memberInitDone_ignored (h : s.memState m ≠ 1) (r : InitResult) : memberInitDone m r s = s := if_pos h

variable (h : s.memState m = 1)
include h

theorem memberInitDone_runs (hstage : (s.member m).stage = .running) : memberInitDone m .ended s = s := by
  unfold memberInitDone
  rw [if_neg (not_not_intro h)]
  extract_lets x t
  rw [show x.stage = _ from hstage]

theorem memberInitDone_ready (hstage : (s.member m).stage = .done) (hformat : (s.member m).formatOk = true)
    (hlimit : (s.member m).mdts = 0 ∨ 65536 ≤ (s.member m).mdts) : memberInitDone m .ended s = ((s.endInit m).setMemState m 2).memberUp m := by
  unfold memberInitDone
  rw [if_neg (not_not_intro h)]
  extract_lets x t
  rw [show x.stage = _ from hstage]
  have hgood : (x.formatOk && (x.mdts == 0 || decide (65536 ≤ x.mdts))) = true := by
    rw [show x.formatOk = true from hformat]
    simpa using hlimit
  exact if_pos hgood

theorem memberInitDone_config (hstage : (s.member m).stage = .done)
    (hbad : (s.member m).formatOk = false ∨ (s.member m).mdts ≠ 0 ∧ (s.member m).mdts < 65536) :
    memberInitDone m .ended s = ((s.endInit m).loseMember m 3).memberFault m 0x07 := by
  unfold memberInitDone
  rw [if_neg (not_not_intro h)]
  extract_lets x t
  rw [show x.stage = _ from hstage]
  have hwrong : ¬ (x.formatOk && (x.mdts == 0 || decide (65536 ≤ x.mdts))) = true := by
    rcases hbad with hformat | ⟨hlimit, hsmall⟩
    · rw [show x.formatOk = false from hformat]
      exact Bool.false_ne_true
    · rw [Bool.and_eq_true, Bool.or_eq_true, beq_iff_eq, decide_eq_true_eq]
      exact fun h => h.2.elim hlimit (Nat.not_le.mpr hsmall)
  exact if_neg hwrong

theorem memberInitDone_failed (hstage : (s.member m).stage = .failed) :
    memberInitDone m .ended s = ((s.endInit m).loseMember m 3).memberFault m 0x04 := by
  unfold memberInitDone
  rw [if_neg (not_not_intro h)]
  extract_lets x t
  rw [show x.stage = _ from hstage]
  rfl

theorem memberInitDone_timeout : memberInitDone m .timeout s = ((s.endInit m).loseMember m 3).memberFault m 0x04 := by
  unfold memberInitDone
  rw [if_neg (not_not_intro h)]
  rfl

theorem memberInitDone_becomesReady (hstage : (s.member m).stage = .done) (hformat : (s.member m).formatOk = true)
    (hlimit : (s.member m).mdts = 0 ∨ 65536 ≤ (s.member m).mdts) : (memberInitDone m .ended s).memState m = 2 ∧
      ((memberInitDone m .ended s).member m).capacity = (s.member m).capacity ∧ ((memberInitDone m .ended s).member m).mdts = (s.member m).mdts ∧
      (∀ c, c ∈ ((memberInitDone m .ended s).member m).cmds → c.purpose ≠ .init) ∧ SameRegsBut [Adr.BTM.MEM_STAT m] s (memberInitDone m .ended s) ∧
      (memberInitDone m .ended s).dram = s.dram := by
  have hmember : (((s.endInit m).setMemState m 2).memberUp m).member m =
      { s.member m with cmds := (s.member m).cmds.filter (fun c => decide (c.purpose ≠ .init)) } := s.member_setMember_same m _
  rw [memberInitDone_ready h hstage hformat hlimit, hmember]
  exact ⟨(s.endInit m).memState_setMemState (by decide), rfl, rfl, fun c hc => of_decide_eq_true (List.mem_filter.mp hc).2,
    SameRegsBut.setReg (s.endInit m) (Adr.BTM.MEM_STAT m) 2, rfl⟩

end init

/-- A member that fails behind the service of members is lost, with its fault. -/
theorem State.failMember_serves {s u : State} (h : ServesMembers s u) (m code : Nat) : MemberLost s ((u.loseMember m 3).memberFault m code) m 3 ∧
    { page := 0x31, cause := 0xF00 + m, code := code, event := true, unit := 0xF00 + m } ∈ ((u.loseMember m 3).memberFault m code).held :=
  ⟨(u.failMember_lost m code).of_serves h, State.mem_memberFault _ m code⟩

end Sys2Proof.Machine

/-! Member drives: disabling, completions, errors and time-outs (R197 to R199). -/

namespace Sys2Proof.Machine

/-! ### Disabling (R198, R199) -/

/-- A member whose EN is written 0. -/
def State.disarmMember (s : State) (m : Nat) : State := s.setFld (Adr.BTM.MEM_CFG m) 0 1 0

/-- An ABSENT member keeps the commands that are still asked for, as failed. -/
def State.absentMember (s : State) (m : Nat) (queues : List Nat) : State :=
  (s.setMemState m 0).setMember m { s.member m with cmds := ((s.member m).cmds.filter s.stillAsked).map MemberCmd.abandon, queues := queues }

theorem State.disarmMember_memState (s : State) (m k : Nat) : (s.disarmMember m).memState k = s.memState k :=
  fld_of_rd ((SameRegsBut.putFld (s := s) (a := Adr.BTM.MEM_CFG m) rfl).rd (List.mem_singleton.not.mpr (memStat_ne_memCfg k m))) 0 3

section disable
variable {s : State} {m : Nat}

theorem memberDisable_removed (h : s.memState m = 4) : memberDisable m s = ((s.disarmMember m).absentMember m []).restage := by
  have hstate : (s.disarmMember m).memState m = 4 := (s.disarmMember_memState m m).trans h
  unfold memberDisable
  rw [← State.disarmMember]
  generalize s.disarmMember m = u at hstate
  dsimp only
  rw [if_neg (by simp [State.memberBad, hstate]), hstate]
  rfl

theorem memberDisable_failed (h : s.memState m = 3) : memberDisable m s =
    ((((s.disarmMember m).absentMember m (s.member m).queues).command m .deleteSq [] 0 0 .remove).command m .deleteCq [] 0 0 .remove).restage := by
  have hstate : (s.disarmMember m).memState m = 3 := (s.disarmMember_memState m m).trans h
  have hmember : (s.disarmMember m).member m = s.member m := rfl
  unfold memberDisable
  rw [← State.disarmMember, ← hmember]
  generalize s.disarmMember m = u at hstate
  dsimp only
  rw [if_neg (by simp [State.memberBad, hstate]), hstate]
  simp only [beq_self_eq_true, if_true]
  rfl

theorem memberDisable_other (hfailed : s.memState m ≠ 3) (hremoved : s.memState m ≠ 4) : memberDisable m s = s.setFld (Adr.BTM.MEM_CFG m) 0 1 0 := by
  have hstate := s.disarmMember_memState m m
  unfold memberDisable
  rw [← State.disarmMember]
  exact if_pos (by simp [State.memberBad, hstate, hfailed, hremoved])

theorem State.absentMember_member (s : State) (m : Nat) (queues : List Nat) : (s.absentMember m queues).member m =
    { s.member m with cmds := ((s.member m).cmds.filter s.stillAsked).map MemberCmd.abandon, queues := queues } := State.member_setMember_same _ m _

theorem State.absentMember_regs (s : State) (m : Nat) (queues : List Nat) : Fld.BTM.MEM_CFG_EN ((s.disarmMember m).absentMember m queues).regs m = 0 ∧
    ((s.disarmMember m).absentMember m queues).memState m = 0 ∧
    SameRegsBut [Adr.BTM.MEM_CFG m, Adr.BTM.MEM_STAT m] s ((s.disarmMember m).absentMember m queues) :=
  ⟨(fld_of_rd ((s.disarmMember m).rd_setReg_ne (memStat_ne_memCfg m m).symm 0) 0 1).trans (s.fld_setFld_same _ 0 1 0 (by decide)),
    (s.disarmMember m).memState_setMemState (by decide), (SameRegsBut.putFld (t := s.disarmMember m) rfl).trans (.setReg _ _ 0)⟩

/-- A REMOVED member frees its queues. -/
theorem memberDisable_frees (h : s.memState m = 4) : Fld.BTM.MEM_CFG_EN (memberDisable m s).regs m = 0 ∧ (memberDisable m s).memState m = 0 ∧
    ((memberDisable m s).member m).cmds = ((s.member m).cmds.filter s.stillAsked).map MemberCmd.abandon ∧ ((memberDisable m s).member m).queues = [] ∧
    SameRegsBut [Adr.BTM.MEM_CFG m, Adr.BTM.MEM_STAT m] s (memberDisable m s) := by
  obtain ⟨hen, hstate, hregs⟩ := s.absentMember_regs m []
  have hmember : ((s.disarmMember m).absentMember m []).member m =
      { s.member m with cmds := ((s.member m).cmds.filter s.stillAsked).map MemberCmd.abandon, queues := [] } := (s.disarmMember m).absentMember_member m []
  rw [memberDisable_removed h]
  generalize (s.disarmMember m).absentMember m [] = u at hen hstate hregs hmember
  have hrestage := Restages.restage u
  have hkept : u.restage.member m = u.member m := hrestage.cmds_of_ready fun c hc => by
    rw [hmember] at hc
    obtain ⟨d, -, rfl⟩ := List.mem_map.mp hc
    rfl
  rw [hkept, hmember]
  exact ⟨(congrArg (Fld.BTM.MEM_CFG_EN · m) hrestage.regs).trans hen, (hrestage.memState m).trans hstate, rfl, rfl,
    hregs.thenServes hrestage.toServesMembers⟩

/-- A command is the last of its member's. -/
theorem State.command_cmds (s : State) (m : Nat) (op : MemberOp) (blocks : List Block) (addr bytes : Nat) (u : MemberUse) :
    ∃ c, ((s.command m op blocks addr bytes u).member m).cmds = (s.member m).cmds ++ [c] ∧ c.op = op ∧ c.purpose = u := by
  obtain ⟨bs, hmember⟩ := s.command_member m op blocks addr bytes u
  exact ⟨_, congrArg Member.cmds ((hmember m).trans (if_pos rfl)), rfl, rfl⟩

/-- The queues of a FAILED member are deleted. -/
theorem memberDisable_deletes (h : s.memState m = 3) : Fld.BTM.MEM_CFG_EN (memberDisable m s).regs m = 0 ∧ (memberDisable m s).memState m = 0 ∧
    ((memberDisable m s).member m).cmds.map (·.op) = ((s.member m).cmds.filter s.stillAsked).map (·.op) ++ [.deleteSq, .deleteCq] ∧
    SameRegsBut [Adr.BTM.MEM_CFG m, Adr.BTM.MEM_STAT m] s (memberDisable m s) := by
  obtain ⟨hen, hstate, hregs⟩ := s.absentMember_regs m (s.member m).queues
  have hcmds : (((s.disarmMember m).absentMember m (s.member m).queues).member m).cmds = ((s.member m).cmds.filter s.stillAsked).map MemberCmd.abandon :=
    congrArg Member.cmds ((s.disarmMember m).absentMember_member m (s.member m).queues)
  rw [memberDisable_failed h]
  generalize (s.disarmMember m).absentMember m (s.member m).queues = u at hen hstate hregs hcmds
  obtain ⟨c, hc, hsq, -⟩ := u.command_cmds m .deleteSq [] 0 0 .remove
  have hfirst := ServesMembers.command u m .deleteSq [] 0 0 .remove
  generalize u.command m .deleteSq [] 0 0 .remove = w at hc hfirst
  obtain ⟨d, hd, hcq, -⟩ := w.command_cmds m .deleteCq [] 0 0 .remove
  have hserves := hfirst.trans (.command w m .deleteCq [] 0 0 .remove)
  generalize w.command m .deleteCq [] 0 0 .remove = x at hd hserves
  have hrestage := Restages.restage x
  obtain ⟨l, hl, hstaged⟩ := hrestage.cmds m
  have hall := hserves.trans hrestage.toServesMembers
  rw [hl]
  refine ⟨(congrArg (Fld.BTM.MEM_CFG_EN · m) hall.regs).trans hen, (hall.memState m).trans hstate, ?_, hregs.thenServes hall⟩
  rw [ops_of_staged hstaged, hd, hc, hcmds, List.map_append, List.map_append, List.map_map, List.append_assoc]
  simp only [List.map_cons, List.map_nil, hsq, hcq]
  rfl

end disable

/-! ### Completions (R198, R199) -/

theorem nvmeCompletion_ignored {s : State} {m cid : Nat} (h : (s.issuedTo m).find? (fun c => c.cid == cid) = none ∨ s.memState m = 4) (st : NvmeStatus) :
    nvmeCompletion m cid st s = s := by
  unfold nvmeCompletion
  split
  · rfl
  · rename_i c hc
    exact if_pos (h.resolve_left fun hnone => Option.some_ne_none c (hc.symm.trans hnone))

/-- A command of a member has ended with success. -/
def State.endCommand (s : State) (m : Nat) (c : MemberCmd) : State :=
  s.setMember m { s.member m with written := (s.member m).written + (if c.op.isWrite then c.bytes else 0), cmds := (s.member m).cmds.erase c }

section completion
variable {s : State} {m cid : Nat} {c : MemberCmd}

theorem State.endCommand_member (s : State) (m : Nat) (c : MemberCmd) : (s.endCommand m c).member m =
    { s.member m with written := (s.member m).written + (if c.op.isWrite then c.bytes else 0), cmds := (s.member m).cmds.erase c } :=
  s.member_setMember_same m _

theorem State.endCommand_ready (h : s.blocksWait = false) (m : Nat) (c : MemberCmd) : ∀ d ∈ ((s.endCommand m c).member m).cmds, d.ready = true := by
  rw [State.endCommand_member]
  exact fun d hd => State.ready_of_blocksWait h m d (List.mem_of_mem_erase hd)

variable (hfind : (s.issuedTo m).find? (fun c => c.cid == cid) = some c)
include hfind

theorem nvmeCompletion_ok (hstate : s.memState m ≠ 4) (hpurpose : c.purpose ≠ .remove) : nvmeCompletion m cid .ok s =
    (if s.memState m = 1 ∧ c.purpose = .init then (s.endCommand m c).initStep m c else s.endCommand m c).restage := by
  unfold nvmeCompletion
  rw [hfind]
  dsimp only
  have hqueues : ¬ (c.purpose = .remove ∧ ((s.member m).cmds.erase c).all (fun c => decide (c.purpose ≠ .remove)) = true) := fun h => hpurpose h.1
  rw [if_neg hstate, if_neg hqueues]
  rfl

theorem nvmeCompletion_init (hstate : s.memState m = 1) (hpurpose : c.purpose = .init) :
    nvmeCompletion m cid .ok s = ((s.endCommand m c).initStep m c).restage :=
  (nvmeCompletion_ok hfind (by omega) (by rw [hpurpose]; exact MemberUse.noConfusion)).trans (by rw [if_pos ⟨hstate, hpurpose⟩])

theorem nvmeCompletion_ends (hstate : s.memState m = 2) (hpurpose : c.purpose ≠ .remove) : nvmeCompletion m cid .ok s = (s.endCommand m c).restage :=
  (nvmeCompletion_ok hfind (by omega) hpurpose).trans (by rw [if_neg (by omega)])

end completion

end Sys2Proof.Machine

/-! Member drives: the steps of the initialisation, errors, time-outs and inbound requests (R197 to R200). -/

namespace Sys2Proof.Machine

/-! ### The steps of the initialisation (R197) -/

/-- Behind commands that are all issued, the next command of a member is its last, staged or waiting. -/
theorem State.initCommand_restaged (u : State) (m : Nat) (op : MemberOp) : ∃ l n, ((u.initCommand m op).restage).member m =
    { u.member m with nextCid := n, cmds := l } ∧ ((∀ d ∈ (u.member m).cmds, d.ready = true) → ∃ d, l = (u.member m).cmds ++ [d] ∧ d.op = op ∧
      d.nsid = if op.namesNamespace then Fld.BTM.NSID u.regs m else 0) := by
  obtain ⟨d, n, hmember, -, hop, hnsid⟩ := u.initCommand_member m op
  obtain ⟨l, hl, hstaged⟩ := (Restages.restage (u.initCommand m op)).cmds m
  rw [hmember] at hl hstaged
  refine ⟨l, n, hl, fun hready => ?_⟩
  obtain ⟨bs, rfl⟩ := eq_of_staged_append hstaged hready
  exact ⟨{ d with blocks := bs }, rfl, hop, hnsid⟩

theorem ServesMembers.restaged (u : State) (m : Nat) (op : MemberOp) : ServesMembers u (u.initCommand m op).restage :=
  (ServesMembers.initCommand u m op).trans (Restages.restage _).toServesMembers

theorem ServesMembers.endCommand (s : State) (m : Nat) (c : MemberCmd) : ServesMembers s (s.endCommand m c) := .setMember s m _

/-- What Identify Controller and Identify Namespace tell of a member. -/
def Member.noteController (x : Member) (page : List Byte) : Member := { x with mdts := if fieldOf page 77 1 = 0 then 0 else 4096 * 2 ^ fieldOf page 77 1 }
def Member.noteNamespace (x : Member) (page : List Byte) : Member :=
  { x with capacity := min (fieldOf page 0 8 * 4096) (2 ^ 47),
           formatOk := fieldOf page (128 + 4 * (fieldOf page 26 1 % 16)) 4 % 2 ^ 16 == 0 &&
             bits (fieldOf page (128 + 4 * (fieldOf page 26 1 % 16)) 4) 16 8 == 12 }

section initStep
variable (s : State) (m : Nat) {c : MemberCmd}

theorem State.initStep_controller (h : c.op = .identifyController) : s.initStep m c =
    (s.setMember m ((s.member m).noteController (s.dramRead (c.units.headD 0 * 4096) 4096))).initCommand m .identifyNamespace := by
  unfold State.initStep Member.noteController
  rw [h]

theorem State.initStep_namespace (h : c.op = .identifyNamespace) : s.initStep m c =
    (s.setMember m ((s.member m).noteNamespace (s.dramRead (c.units.headD 0 * 4096) 4096))).initCommand m (.setQueues 1) := by
  unfold State.initStep Member.noteNamespace
  rw [h]

theorem State.initStep_queues {n : Nat} (h : c.op = .setQueues n) : ∃ us, us.length ≤ ceilDiv (16 * s.qdepth m) 4096 ∧ s.initStep m c =
    (s.setMember m { s.member m with queues := (s.member m).queues ++ us }).command m (.createCq (s.qdepth m)) (us.map inUnit) 0 (4096 * us.length) .init := by
  obtain ⟨us, hlength, hqueue⟩ := s.holdQueue_eq m (16 * s.qdepth m)
  unfold State.initStep
  rw [h]
  dsimp only
  rw [hqueue]
  exact ⟨us, hlength, rfl⟩

theorem State.initStep_last {n : Nat} (h : c.op = .createSq n) : s.initStep m c = s.setMember m { s.member m with stage := .done } := by
  unfold State.initStep
  rw [h]

end initStep

section steps
variable {s : State} {m cid : Nat} {c : MemberCmd} (hfind : (s.issuedTo m).find? (fun c => c.cid == cid) = some c) (hstate : s.memState m = 1)
  (hpurpose : c.purpose = .init)
include hfind hstate hpurpose

/-- A step that notes something of the member and issues the next command. -/
theorem nvmeCompletion_nextStep {x : Member} {op : MemberOp}
    (hstep : (s.endCommand m c).initStep m c = ((s.endCommand m c).setMember m x).initCommand m op) (hcmds : x.cmds = (s.member m).cmds.erase c) :
    ∃ l n, (nvmeCompletion m cid .ok s).member m = { x with nextCid := n, cmds := l } ∧ (nvmeCompletion m cid .ok s).regs = s.regs ∧
      (s.blocksWait = false → ∃ d, l = (s.member m).cmds.erase c ++ [d] ∧ d.op = op ∧ d.nsid = if op.namesNamespace then Fld.BTM.NSID s.regs m else 0) := by
  have hset := (s.endCommand m c).member_setMember_same m x
  have hregs := ((ServesMembers.endCommand s m c).trans (.setMember _ m x)).regs
  rw [nvmeCompletion_init hfind hstate hpurpose, hstep]
  generalize (s.endCommand m c).setMember m x = w at hset hregs
  obtain ⟨l, n, hl, hlast⟩ := w.initCommand_restaged m op
  rw [hset, hregs, hcmds] at hlast
  rw [hset] at hl
  exact ⟨l, n, hl, (ServesMembers.restaged w m op).regs.trans hregs,
    fun h => hlast fun d hd => State.ready_of_blocksWait h m d (List.mem_of_mem_erase hd)⟩

/-- Identify Controller sets the largest transfer, and Identify Namespace follows. -/
theorem nvmeCompletion_controller (hop : c.op = .identifyController) {k : Nat}
    (hk : fieldOf (s.dramRead (c.units.headD 0 * 4096) 4096) 77 1 = k) : ((nvmeCompletion m cid .ok s).member m).mdts = (if k = 0 then 0 else 4096 * 2 ^ k) ∧
      (s.blocksWait = false → ∃ d, ((nvmeCompletion m cid .ok s).member m).cmds = (s.member m).cmds.erase c ++ [d] ∧ d.op = .identifyNamespace ∧
        d.nsid = Fld.BTM.NSID s.regs m) ∧ (nvmeCompletion m cid .ok s).regs = s.regs := by
  have hpage : (s.endCommand m c).dramRead (c.units.headD 0 * 4096) 4096 = s.dramRead (c.units.headD 0 * 4096) 4096 := rfl
  obtain ⟨l, n, hmember, hregs, hlast⟩ := nvmeCompletion_nextStep hfind hstate hpurpose ((s.endCommand m c).initStep_controller m hop)
    (congrArg Member.cmds (s.endCommand_member m c))
  rw [hmember, hpage]
  exact ⟨hk ▸ rfl, hlast, hregs⟩

/-- Identify Namespace sets the capacity, and Set Features follows. -/
theorem nvmeCompletion_namespace (hop : c.op = .identifyNamespace) :
    ((nvmeCompletion m cid .ok s).member m).capacity = min (fieldOf (s.dramRead (c.units.headD 0 * 4096) 4096) 0 8 * 4096) (2 ^ 47) ∧
      (s.blocksWait = false → ∃ d, ((nvmeCompletion m cid .ok s).member m).cmds = (s.member m).cmds.erase c ++ [d] ∧ d.op = .setQueues 1) ∧
      (nvmeCompletion m cid .ok s).regs = s.regs := by
  have hpage : (s.endCommand m c).dramRead (c.units.headD 0 * 4096) 4096 = s.dramRead (c.units.headD 0 * 4096) 4096 := rfl
  obtain ⟨l, n, hmember, hregs, hlast⟩ := nvmeCompletion_nextStep hfind hstate hpurpose ((s.endCommand m c).initStep_namespace m hop)
    (congrArg Member.cmds (s.endCommand_member m c))
  rw [hmember, hpage]
  refine ⟨rfl, fun h => ?_, hregs⟩
  obtain ⟨d, hd, hdop, -⟩ := hlast h
  exact ⟨d, hd, hdop⟩

/-- Set Features leads to a completion queue in units of its own. -/
theorem nvmeCompletion_queues (hidle : s.blocksWait = false) (hop : c.op = .setQueues 1) : ∃ us d,
    ((nvmeCompletion m cid .ok s).member m).queues = (s.member m).queues ++ us ∧
      ((nvmeCompletion m cid .ok s).member m).cmds = (s.member m).cmds.erase c ++ [d] ∧ d.op = .createCq (s.qdepth m) ∧ d.units = us ∧
      us.length ≤ ceilDiv (16 * s.qdepth m) 4096 := by
  have hdepth : (s.endCommand m c).qdepth m = s.qdepth m := rfl
  have hmember := s.endCommand_member m c
  have hready := State.endCommand_ready hidle m c
  obtain ⟨us, hlength, hstep⟩ := (s.endCommand m c).initStep_queues m hop
  rw [nvmeCompletion_init hfind hstate hpurpose, hstep]
  rw [hdepth] at hlength ⊢
  generalize s.endCommand m c = u at hmember hready
  have hset := u.member_setMember_same m { u.member m with queues := (u.member m).queues ++ us }
  generalize u.setMember m { u.member m with queues := (u.member m).queues ++ us } = w at hset
  have hissued := (congrArg (State.member · m) (w.command_units m (.createCq (s.qdepth m)) 0 (4096 * us.length) .init us)).trans
    (w.member_setMember_same m _)
  have hunits (l : List Nat) : (l.map inUnit).filterMap (·.unit) = l := by
    rw [List.filterMap_map]
    exact List.filterMap_some
  rw [hset] at hissued
  have hall : ∀ d ∈ ((w.command m (.createCq (s.qdepth m)) (us.map inUnit) 0 (4096 * us.length) .init).member m).cmds, d.ready = true := by
    rw [hissued]
    refine fun d hd => (List.mem_append.mp hd).elim (hready d) fun hnew => ?_
    rw [List.mem_singleton.mp hnew]
    simp [MemberCmd.ready, State.newCmd, inUnit]
  rw [(Restages.restage _).cmds_of_ready hall, hissued]
  refine ⟨us, w.newCmd m (.createCq (s.qdepth m)) (us.map inUnit) 0 (4096 * us.length) .init, ?_, ?_, rfl, hunits us, hlength⟩
  · exact congrArg (·.queues ++ us) hmember
  · exact congrArg (·.cmds ++ [_]) hmember

/-- The last step has ended. -/
theorem nvmeCompletion_lastStep {k : Nat} (hop : c.op = .createSq k) : ((nvmeCompletion m cid .ok s).member m).stage = .done ∧
    (s.blocksWait = false → ((nvmeCompletion m cid .ok s).member m).cmds = (s.member m).cmds.erase c) ∧ (nvmeCompletion m cid .ok s).regs = s.regs := by
  have hmember := s.endCommand_member m c
  have hready : s.blocksWait = false → _ := fun h => State.endCommand_ready h m c
  have hended := ServesMembers.endCommand s m c
  rw [nvmeCompletion_init hfind hstate hpurpose, State.initStep_last _ m hop]
  generalize s.endCommand m c = u at hmember hready hended
  have hset := u.member_setMember_same m { u.member m with stage := .done }
  have hregs := (hended.trans (.setMember u m { u.member m with stage := .done })).regs
  generalize u.setMember m { u.member m with stage := .done } = w at hset hregs
  have hrestage := Restages.restage w
  obtain ⟨l, hl, -⟩ := hrestage.cmds m
  refine ⟨?_, fun h => ?_, hrestage.regs.trans hregs⟩
  · rw [hl, hset]
  · rw [hrestage.cmds_of_ready (hset ▸ hready h), hset]
    exact congrArg Member.cmds hmember

end steps

end Sys2Proof.Machine

/-! Member drives: errors, time-outs and inbound requests (R198 to R200). -/

namespace Sys2Proof.Machine

/-! ### Errors (R199) -/

/-- A member whose error is counted, its error log on the way. -/
def State.noteError (s : State) (m : Nat) : State :=
  (s.setMember m { s.member m with errors := satInc 32 (s.member m).errors }).command m .errorLog [stagedBlock []] 0 64 .errorLog

theorem ServesMembers.noteError (s : State) (m : Nat) : ServesMembers s (s.noteError m) := (ServesMembers.setMember s m _).trans (.command _ _ _ _ _ _ _)

theorem State.noteError_member (s : State) (m : Nat) : ∃ e n, (s.noteError m).member m =
    { s.member m with errors := satInc 32 (s.member m).errors, nextCid := n, cmds := (s.member m).cmds ++ [e] } ∧ e.purpose = .errorLog := by
  have hset := s.member_setMember_same m { s.member m with errors := satInc 32 (s.member m).errors }
  unfold State.noteError
  generalize s.setMember m { s.member m with errors := satInc 32 (s.member m).errors } = u at hset
  obtain ⟨bs, hmember⟩ := u.command_member m .errorLog [stagedBlock []] 0 64 .errorLog
  exact ⟨_, _, ((hmember m).trans (if_pos rfl)).trans (congrArg (Member.issued · _) hset), rfl⟩

theorem ServesMembers.failCmd (s : State) (m cid : Nat) : ServesMembers s (s.failCmd m cid) := .setMember s m _

theorem State.failCmd_member (s : State) (m cid : Nat) : (s.failCmd m cid).member m =
    { s.member m with cmds := (s.member m).cmds.map (fun c => if c.cid = cid then { c with failed := true } else c) } := s.member_setMember_same m _

/-- A command that is to be sent again. -/
def MemberCmd.again (c : MemberCmd) (cid : Nat) : MemberCmd := if c.cid = cid then { c with retries := c.retries + 1 } else c

section errors
variable {s : State} {m cid : Nat} {c : MemberCmd} (hfind : (s.issuedTo m).find? (fun c => c.cid == cid) = some c) (hstate : s.memState m = 2)
include hfind hstate

theorem nvmeCompletion_error (dnr : Bool) : nvmeCompletion m cid (.error dnr) s =
    if dnr = false ∧ c.retries < Fld.BTM.RETRY s.regs m then
      (s.noteError m).setMember m { (s.noteError m).member m with cmds := ((s.noteError m).member m).cmds.map (·.again cid) }
    else (((s.noteError m).failCmd m cid).loseMember m 3).memberFault m 0x20 := by
  have hserves := ServesMembers.noteError s m
  have hready : (s.noteError m).memState m = 2 := (hserves.memState m).trans hstate
  have hretry : Fld.BTM.RETRY (s.noteError m).regs m = Fld.BTM.RETRY s.regs m := congrArg (Fld.BTM.RETRY · m) hserves.regs
  have hfailed := ((ServesMembers.failCmd (s.noteError m) m cid).memState m).trans hready
  unfold nvmeCompletion
  rw [hfind]
  dsimp only
  rw [← State.noteError]
  generalize s.noteError m = u at hready hretry hfailed
  rw [if_neg (by omega), if_neg (by omega), if_pos hfailed, hretry]
  by_cases hagain : dnr = false ∧ c.retries < Fld.BTM.RETRY s.regs m
  · rw [if_pos hagain, if_pos ⟨hready, hagain⟩]
    rfl
  · rw [if_neg hagain, if_neg fun h => hagain h.2]

/-- An error that may be retried leaves the command to be sent again, behind the reading of the error log. -/
theorem nvmeCompletion_retries (hretry : c.retries < Fld.BTM.RETRY s.regs m) : (nvmeCompletion m cid (.error false) s).memState m = 2 ∧
    ((nvmeCompletion m cid (.error false) s).member m).errors = satInc 32 (s.member m).errors ∧
    (∃ e : MemberCmd, e.purpose = .errorLog ∧ ((nvmeCompletion m cid (.error false) s).member m).cmds = ((s.member m).cmds ++ [e]).map (·.again cid)) ∧
    (nvmeCompletion m cid (.error false) s).regs = s.regs := by
  have hserves := ServesMembers.noteError s m
  obtain ⟨e, n, hmember, hpurpose⟩ := s.noteError_member m
  rw [nvmeCompletion_error hfind hstate, if_pos ⟨rfl, hretry⟩, hmember]
  generalize s.noteError m = u at hserves
  have hall := hserves.trans (.setMember u m { s.member m with
    errors := satInc 32 (s.member m).errors, nextCid := n, cmds := ((s.member m).cmds ++ [e]).map (·.again cid) })
  rw [State.member_setMember_same]
  exact ⟨(hall.memState m).trans hstate, rfl, ⟨e, hpurpose, rfl⟩, hall.regs⟩

/-- An error that is not retried fails the member. -/
theorem nvmeCompletion_fails {dnr : Bool} (hlast : dnr = true ∨ Fld.BTM.RETRY s.regs m ≤ c.retries) :
    MemberLost s (nvmeCompletion m cid (.error dnr) s) m 3 ∧
      { page := 0x31, cause := 0xF00 + m, code := 0x20, event := true, unit := 0xF00 + m } ∈ (nvmeCompletion m cid (.error dnr) s).held := by
  have hnot : ¬ (dnr = false ∧ c.retries < Fld.BTM.RETRY s.regs m) := by
    rintro ⟨rfl, hfew⟩
    exact hlast.elim Bool.false_ne_true (Nat.not_le.mpr hfew)
  rw [nvmeCompletion_error hfind hstate, if_neg hnot]
  exact State.failMember_serves ((ServesMembers.noteError s m).trans (.failCmd _ m cid)) m 0x20

end errors

/-! ### Time-outs (R199) -/

/-- A member whose time-out is counted, the command failed. -/
def State.noteTimeout (s : State) (m cid : Nat) : State :=
  (s.setMember m { s.member m with timeouts := satInc 32 (s.member m).timeouts }).failCmd m cid

theorem ServesMembers.noteTimeout (s : State) (m cid : Nat) : ServesMembers s (s.noteTimeout m cid) := (ServesMembers.setMember s m _).trans (.failCmd _ m cid)

theorem State.noteTimeout_timeouts (s : State) (m cid : Nat) : ((s.noteTimeout m cid).member m).timeouts = satInc 32 (s.member m).timeouts := by
  have hset := s.member_setMember_same m { s.member m with timeouts := satInc 32 (s.member m).timeouts }
  unfold State.noteTimeout
  generalize s.setMember m { s.member m with timeouts := satInc 32 (s.member m).timeouts } = u at hset
  rw [State.failCmd_member, hset]

section timeouts
variable {s : State} {m : Nat}

theorem memberCmdTimeout_ignored (h : s.memState m < 2 ∨ s.issuedTo m = []) : memberCmdTimeout m s = s := by
  unfold memberCmdTimeout
  split
  · rfl
  · rename_i c hc
    refine if_pos (h.resolve_right fun hnil => ?_)
    rw [hnil] at hc
    cases hc

theorem memberCmdTimeout_acts (h : 2 ≤ s.memState m) (hissued : s.issuedTo m ≠ []) : ∃ cid, memberCmdTimeout m s =
    if s.memState m = 2 then ((s.noteTimeout m cid).loseMember m 3).memberFault m 0x04 else s.noteTimeout m cid := by
  obtain ⟨c, l, hcons⟩ := List.exists_cons_of_ne_nil hissued
  have hstate := (ServesMembers.noteTimeout s m c.cid).memState m
  refine ⟨c.cid, ?_⟩
  unfold memberCmdTimeout
  rw [hcons]
  dsimp only [List.head?_cons]
  rw [if_neg (Nat.not_lt.mpr h), ← State.noteTimeout, hstate]

theorem memberCmdTimeout_fails (h : s.memState m = 2) (hissued : s.issuedTo m ≠ []) : MemberLost s (memberCmdTimeout m s) m 3 ∧
    { page := 0x31, cause := 0xF00 + m, code := 0x04, event := true, unit := 0xF00 + m } ∈ (memberCmdTimeout m s).held := by
  obtain ⟨cid, htimeout⟩ := memberCmdTimeout_acts (by omega) hissued
  rw [htimeout, if_pos h]
  exact State.failMember_serves (.noteTimeout s m cid) m 0x04

theorem memberCmdTimeout_counts (h : s.memState m = 3) (hissued : s.issuedTo m ≠ []) :
    ((memberCmdTimeout m s).member m).timeouts = satInc 32 (s.member m).timeouts ∧ (memberCmdTimeout m s).regs = s.regs ∧
      (memberCmdTimeout m s).dram = s.dram := by
  obtain ⟨cid, htimeout⟩ := memberCmdTimeout_acts (by omega) hissued
  rw [htimeout, if_neg (by omega)]
  exact ⟨s.noteTimeout_timeouts m cid, (ServesMembers.noteTimeout s m cid).regs, rfl⟩

end timeouts

/-! ### Inbound requests (R200) -/

/-- The issued command of a member on the port that names the unit, in the request's direction. -/
def State.inboundCmd (s : State) (p unit : Nat) (isWrite : Bool) : Option MemberCmd := (List.range 32).findSome? (fun k =>
  if Fld.BTM.MEM_CFG_PORT s.regs k == p then (s.issuedTo k).find? (fun c => c.units.contains unit && c.op.isWrite == !isWrite) else none)

theorem State.inboundCmd_none {s : State} {p unit : Nat} {isWrite : Bool} (h : ∀ k c, k < 32 → Fld.BTM.MEM_CFG_PORT s.regs k = p → c ∈ s.issuedTo k →
    unit ∈ c.units → c.op.isWrite = isWrite) : s.inboundCmd p unit isWrite = none := by
  refine List.findSome?_eq_none_iff.mpr fun k hk => ?_
  split
  · rename_i hport
    refine List.find?_eq_none.mpr fun c hc hnamed => ?_
    rw [Bool.and_eq_true, List.contains_iff_mem, beq_iff_eq, h k c (List.mem_range.mp hk) (beq_iff_eq.mp hport) hc (by simpa using hnamed.1)] at hnamed
    exact (Bool.eq_not_self _).mp hnamed.2
  · rfl

theorem State.inboundCmd_some {s : State} {p m unit : Nat} {isWrite : Bool} {c : MemberCmd} (hm : m < 32) (hport : Fld.BTM.MEM_CFG_PORT s.regs m = p)
    (hc : c ∈ s.issuedTo m) (hunit : unit ∈ c.units) (hop : c.op.isWrite = !isWrite) : ∃ d, s.inboundCmd p unit isWrite = some d := by
  refine Option.isSome_iff_exists.mp (List.findSome?_isSome_iff.mpr ⟨m, List.mem_range.mpr hm, ?_⟩)
  rw [if_pos (beq_iff_eq.mpr hport)]
  refine List.find?_isSome.mpr ⟨c, hc, ?_⟩
  rw [hop]
  simpa using hunit

theorem State.meterUse_eq (s : State) (flow : Option Nat) (beats : Nat) : ∃ x, s.meterUse flow beats = { s with trl := x } := by
  unfold State.meterUse State.meter
  split
  · dsimp only
    split
    · exact ⟨s.trl, rfl⟩
    · exact ⟨_, rfl⟩
  · exact ⟨s.trl, rfl⟩

theorem inboundRequest_reads {s : State} {p m unit : Nat} {c : MemberCmd} (hm : m < 32) (hport : Fld.BTM.MEM_CFG_PORT s.regs m = p)
    (hc : c ∈ s.issuedTo m) (hunit : unit ∈ c.units) (hop : c.op.isWrite = true) (data : List Byte) :
    .inboundData p (s.loadBytes (unit * 4096) 4096) ∈ (inboundRequest p m unit false data s).outbox ∧
      (inboundRequest p m unit false data s).regs = s.regs ∧ (inboundRequest p m unit false data s).dram = s.dram := by
  obtain ⟨d, hd⟩ := State.inboundCmd_some (isWrite := false) hm hport hc hunit hop
  obtain ⟨x, hx⟩ := s.meterUse_eq (s.useFlow p d.purpose) 128
  unfold inboundRequest
  rw [← State.inboundCmd, hd]
  dsimp only
  rw [hx]
  exact ⟨List.mem_append_right _ List.mem_cons_self, rfl, rfl⟩

theorem inboundRequest_writes {s : State} {p m unit : Nat} {c : MemberCmd} (hm : m < 32) (hport : Fld.BTM.MEM_CFG_PORT s.regs m = p)
    (hc : c ∈ s.issuedTo m) (hunit : unit ∈ c.units) (hop : c.op.isWrite = false) {data : List Byte} (hlength : data.length ≤ 4096) :
    (inboundRequest p m unit true data s).dram = (s.store (unit * 4096) data).dram ∧ (inboundRequest p m unit true data s).regs = s.regs := by
  obtain ⟨d, hd⟩ := State.inboundCmd_some (isWrite := true) hm hport hc hunit hop
  obtain ⟨x, hx⟩ := s.meterUse_eq (s.useFlow p d.purpose) 128
  unfold inboundRequest
  rw [← State.inboundCmd, hd]
  dsimp only
  rw [hx, List.take_of_length_le hlength, if_pos rfl]
  exact ⟨State.storeSeen_dram _ _ _, (ServesMembers.storeSeen _ _ _).regs⟩

theorem inboundRequest_refuses {s : State} {p m unit : Nat} {isWrite : Bool} (h : ∀ k c, k < 32 → Fld.BTM.MEM_CFG_PORT s.regs k = p → c ∈ s.issuedTo k →
    unit ∈ c.units → c.op.isWrite = isWrite) (hstate : s.memState m ≠ 0) (data : List Byte) :
    MemberLost s (inboundRequest p m unit isWrite data s) m 3 ∧ .unsupported p ∈ (inboundRequest p m unit isWrite data s).outbox ∧
      { page := 0x31, cause := 0xF00 + m, code := 0x05, event := true, unit := 0xF00 + m } ∈ (inboundRequest p m unit isWrite data s).held := by
  unfold inboundRequest
  rw [← State.inboundCmd, State.inboundCmd_none h]
  dsimp only
  have hsent : .unsupported p ∈ (s.emit (.unsupported p)).outbox := List.mem_append_right _ List.mem_cons_self
  have hsame : (s.emit (.unsupported p)).memState m ≠ 0 := hstate
  have hbefore {t : State} (hlost : MemberLost (s.emit (.unsupported p)) t m 3) : MemberLost s t m 3 := hlost
  generalize s.emit (.unsupported p) = u at hsent hsame hbefore
  rw [if_neg hsame]
  exact ⟨hbefore (u.failMember_lost m 0x05), ((LosesVolumes.loseMember u m 3).trans (.memberFault _ m 0x05)).outbox ▸ hsent, State.mem_memberFault _ m 0x05⟩

end Sys2Proof.Machine

/-! Member drives (O37). -/

namespace Sys2Proof.Machine

/-- Settles O37: the steps of the initialisation through what each notes and issues, the losses of members through `MemberLost`, and inbound requests through
the issued command that names their unit. -/
theorem memberDrives : Obligations.MemberDrives := by
  unfold Obligations.MemberDrives
  intro s m hrun
  have hm : m.val < 32 := m.isLt
  refine ⟨?enabled, ?enables, ?initOther, ?initRuns, ?initReady, ?initConfig, ?initFailed, ?initTimeout, ?controller, ?describes, ?queues, ?lastStep,
    ?disableRemoved, ?disableFailed, ?disableOther, ?completionIgnored, ?completionEnds, ?retry, ?errorFails, ?timeoutReady, ?timeoutFailed,
    ?timeoutIgnored, ?linkDown, ?inboundRead, ?inboundWrite, ?inboundRefused⟩
  case enabled => exact fun h => .of_answer rfl rfl (memberEnable_ignored h)
  case enables => exact fun h => .of_fact rfl rfl (memberEnable_starts h) fun _ _ _ _ ⟨hstate, hen, hcmd, hout, hrest⟩ ho => ⟨hstate, hen, hcmd, ho hout, hrest⟩
  case initOther => exact fun r h => .running hrun rfl (memberInitDone_ignored h r)
  case initRuns => exact fun h hstage => .running hrun rfl (memberInitDone_runs h hstage)
  case initReady =>
    exact fun h hstage hformat hlimit => .running_fact hrun rfl (memberInitDone_becomesReady h hstage hformat hlimit) fun _ _ _ _ h _ => h
  case initConfig =>
    exact fun h hstage hbad => .running_fact hrun rfl (memberInitDone_config h hstage hbad ▸ State.failMember_serves (.endInit s m) m 0x07)
      fun _ _ _ _ h _ => h
  case initFailed =>
    exact fun h hstage => .running_fact hrun rfl (memberInitDone_failed h hstage ▸ State.failMember_serves (.endInit s m) m 0x04) fun _ _ _ _ h _ => h
  case initTimeout =>
    exact fun h => .running_fact hrun rfl (memberInitDone_timeout h ▸ State.failMember_serves (.endInit s m) m 0x04) fun _ _ _ _ h _ => h
  case controller =>
    exact fun cid c k hcid hstate hfind hpurpose hop hk =>
      .running_fact hrun (decide_eq_true hcid) (nvmeCompletion_controller hfind hstate hpurpose hop hk) fun _ _ _ _ h _ => h
  case describes =>
    exact fun cid c hcid hstate hfind hpurpose hop =>
      .running_fact hrun (decide_eq_true hcid) (nvmeCompletion_namespace hfind hstate hpurpose hop) fun _ _ _ _ h _ => h
  case queues =>
    exact fun cid c hcid hstate hidle hfind hpurpose hop =>
      .running_fact hrun (decide_eq_true hcid) (nvmeCompletion_queues hfind hstate hpurpose hidle hop) fun _ _ _ _ h _ => h
  case lastStep =>
    exact fun cid c k hcid hstate hfind hpurpose hop =>
      .running_fact hrun (decide_eq_true hcid) (nvmeCompletion_lastStep hfind hstate hpurpose hop) fun _ _ _ _ h _ => h
  case disableRemoved => exact fun h => .of_fact rfl rfl (memberDisable_frees h) fun _ _ _ _ h _ => h
  case disableFailed => exact fun h => .of_fact rfl rfl (memberDisable_deletes h) fun _ _ _ _ h _ => h
  case disableOther => exact fun hfailed hremoved => .of_answer rfl rfl (memberDisable_other hfailed hremoved)
  case completionIgnored => exact fun cid st hcid h => .running hrun (decide_eq_true hcid) (nvmeCompletion_ignored h st)
  case completionEnds =>
    exact fun cid c hcid hstate hfind hpurpose => .running hrun (decide_eq_true hcid) (nvmeCompletion_ends hfind hstate hpurpose)
  case retry =>
    exact fun cid c hcid hstate hfind hretry =>
      .running_fact hrun (decide_eq_true hcid) (nvmeCompletion_retries hfind hstate hretry) fun _ _ _ _ h _ => h
  case errorFails =>
    exact fun cid c dnr hcid hstate hfind hlast =>
      .running_fact hrun (decide_eq_true hcid) (nvmeCompletion_fails hfind hstate hlast) fun _ _ _ _ h _ => h
  case timeoutReady => exact fun hstate hissued => .of_fact rfl rfl (memberCmdTimeout_fails hstate hissued) fun _ _ _ _ h _ => h
  case timeoutFailed => exact fun hstate hissued => .of_fact rfl rfl (memberCmdTimeout_counts hstate hissued) fun _ _ _ _ h _ => h
  case timeoutIgnored => exact fun h => .of_answer rfl rfl (memberCmdTimeout_ignored h)
  case linkDown =>
    exact fun p => .of_fact rfl rfl (fun k hk => ⟨rootPortLinkDown_drops p s hk, rootPortLinkDown_spares p s hk⟩) fun _ _ _ _ h _ => h
  case inboundRead =>
    exact fun p unit c data hunit hdata hport hc hnamed hop =>
      .running_fact hrun (Bool.and_eq_true_iff.mpr ⟨decide_eq_true hunit, decide_eq_true hdata⟩) (inboundRequest_reads hm hport hc hnamed hop data)
        fun _ _ _ _ h ho => ⟨ho h.1, h.2⟩
  case inboundWrite =>
    exact fun p unit c data hunit hdata hport hc hnamed hop =>
      .running_fact hrun (Bool.and_eq_true_iff.mpr ⟨decide_eq_true hunit, decide_eq_true hdata⟩) (inboundRequest_writes hm hport hc hnamed hop hdata)
        fun _ _ _ _ h _ => h
  case inboundRefused =>
    exact fun p unit isWrite data hunit hdata hnone hstate =>
      .running_fact hrun (Bool.and_eq_true_iff.mpr ⟨decide_eq_true hunit, decide_eq_true hdata⟩) (inboundRequest_refuses hnone hstate data)
        fun _ _ _ _ ⟨hlost, hsent, hheld⟩ ho => ⟨hlost, ho hsent, hheld⟩

end Sys2Proof.Machine
